-- ==== Sys2Proof/Word.lean ====
section
/-!
DEFINITION. The words of the module: the register word (R3), the byte, and sparse data by key.
-/

namespace Sys2Proof

/-- A register word, 32 bits (00_scope R3). -/
abbrev Word := BitVec 32

/-- A byte of memory or of a message. -/
abbrev Byte := BitVec 8

/-- Sparse data by key: key and value pairs, keys rising; a key that is not listed holds its default. -/
abbrev Sparse (α : Type) := List (Nat × α)

end Sys2Proof
end

