-- ==== Sys2Proof/Syntax.lean ====
section
/-!
DEFINITION. The commands the block takes: one constructor per row of spec/opcode_table.json, with the operands
that arrive with the command (an access path, an address and a value, a message, a sensed level, a time).
-/

namespace Sys2Proof

/-- A PTP Announce (10 R234): its domain, the fields of the grandmaster that the standard's best-master algorithm compares, the
announce interval in ns and the UTC offset in s. -/
structure PtpAnn where
  domain : Nat
  priority1 : Nat
  clockClass : Nat
  accuracy : Nat
  variance : Nat
  priority2 : Nat
  identity : Nat
  steps : Nat
  interval : Nat
  utcOffset : Nat
  deriving DecidableEq, Repr

/-- The commands of the block: one constructor per row of spec/opcode_table.json. Times are module times in ns
(R12) unless a field's name says otherwise; `path` is an access path of R8. -/
inductive Instr where
  /-- REGISTER_WRITE (R5): A write to a register that has no row of its own is applied under its access code and the rules on width, alignment, reserved fields and locks. -/
  | registerWrite (path addr size value now : Nat)
  /-- PAIR_LOW_READ (R8): A read of the low word of a 64-bit pair returns it and latches the pair's high word for that access path. -/
  | pairLowRead (path addr size : Nat)
  /-- PAIR_LOW_WRITE (R8): A write of the low word of a pair is held without effect for that access path. -/
  | pairLowWrite (path addr value now : Nat)
  /-- PAIR_HIGH_WRITE (R9): A write of the high word of a pair applies both words together, with zero as the low word when the path holds no low word of that pair. -/
  | pairHighWrite (path addr value now : Nat)
  /-- STOPPED_DOMAIN_ACCESS_COMPLETE (R418): A register access that waited on a stopped clock domain completes when the domain runs again, or is discarded when its access path is reset. -/
  | stoppedDomainAccessComplete (path : Nat) (bads : List (List (Nat × Nat))) (now : Nat)
  /-- FRAME_BOUNDARY (R13): At each 10 µs frame boundary the settings staged in the frame take effect, the twin state is latched and sent, and the control-path services run their frame work. -/
  | frameBoundary (now ptpFrames : Nat) (sram : List (Nat × Nat × Nat))
  /-- FORECAST_BOUNDARY (R15): Every 25 frames the staged lane records become active, staged slot selections take effect and boundary messages are delivered. -/
  | forecastBoundary (shadow : List (Nat × List Byte))
  /-- GRANT_BOUNDARY (R256): Every 1,000 frames Coppice computes the grants and attribution, the leader proposes the rack and grant entries, and weights and health reports are published. -/
  | grantBoundary (heard : List ((Nat × Nat × Nat) × Int × Nat × Int)) (tHub : Int)
  /-- SWEEP_BOUNDARY (R68): A pack sweep begins: T_s is fixed, SYNC leaves both radios and the pack schedule takes effect. -/
  | sweepBoundary (now : Nat)
  /-- STARTUP_IMAGE_LOAD (R26): The loader reads the slot headers, checks and applies a full image, falling back to the other slot. -/
  | startupImageLoad (now : Nat)
  /-- CFG_STAGE (R29): STAGE copies an image into the staging buffer, checks it and forwards a layer to an admitted standby. -/
  | cfgStage (path : Nat)
  /-- CFG_STAGE_COMPLETE (R29): The checks of a staged image end, leaving it STAGED or FAILED with its error code. -/
  | cfgStageComplete
  /-- TWIN_LAYER_STAGED (R38): The standby finishes checking the forwarded layer and TWIN_STAGED becomes 1. -/
  | twinLayerStaged
  /-- CFG_COMMIT (R30): COMMIT repeats check 13, reserves resources, starts writing the inactive planes of both twins and fixes the switch boundary. -/
  | cfgCommit (path now : Nat)
  /-- PLANE_WRITE_COMPLETE (R39): Inactive planes have been written and read back; a CRC mismatch fails the commit with PLANE_FAULT. -/
  | planeWriteComplete (twin : Bool) (region : Nat) (good : Bool) (now : Nat)
  /-- LAYER_SWITCH (R31): At boundary B every target of the layered regions takes its new plane, or its old plane for a revert. -/
  | layerSwitch (now : Nat)
  /-- CFG_ABORT (R28): ABORT discards a staged image before COMMIT. -/
  | cfgAbort (path : Nat)
  /-- CFG_REVERT (R35): REVERT schedules the regions of the last layer back to their old planes at least 64 frames later. -/
  | cfgRevert (path now : Nat)
  /-- CFG_CLEAR (R29): CLEAR returns the loader STATE to IDLE and ERROR to zero. -/
  | cfgClear (path : Nat)
  /-- CFG_PROGRAM_SLOT (R28): PROGRAM_SLOT erases the named flash slot and writes the verified full image held in staging. -/
  | cfgProgramSlot (path slot : Nat)
  /-- PROGRAM_SLOT_COMPLETE (R28): Programming and read-back of a slot finish and STATE returns to STAGED. -/
  | programSlotComplete
  /-- OWN_CLAIM (R42): A run-time claim of a resource succeeds if it is free, or fails with CONFLICT or NOT_CLAIMABLE. -/
  | ownClaim (path owner resource : Nat)
  /-- OWN_RELEASE (R42): A run-time release frees a resource held by the releasing owner, or fails with NOT_OWNER. -/
  | ownRelease (path owner resource : Nat)
  /-- STUCK (R50): A delta-sigma channel delivering 64 identical bits is flagged STUCK and its samples carry INVALID. -/
  | stuck (channel : Nat)
  /-- STUCK_CLEAR (R50): A STUCK channel whose next 64 bits are not all identical leaves STUCK. -/
  | stuckClear (channel : Nat)
  /-- CLK_LOSS (R50): No rising clock edge for 8 periods sets CLK_LOSS for a RECEIVED group and stops its domain. -/
  | clkLoss (group : Nat)
  /-- CLK_LOSS_CLEAR (R50): 64 consecutive timely clock edges end CLK_LOSS for the group. -/
  | clkLossClear (group : Nat)
  /-- FILTER_TRIGGER (R54): A filter tile's trigger event computes a sinc output, applies calibration and FIR, and publishes a flagged sample. -/
  | filterTrigger (tile at16 : Nat) (bits : List Bool) (edge span : Nat) (stale : Bool)
  /-- LIMIT_COMPARATOR (R57): The comparator of a filter tile evaluates each input sample and drives HIGH and LOW to the logic tiles. -/
  | limitComparator (tile : Nat) (x : Int)
  /-- AD_TRIGGER (R58): An AD channel trigger event ends the acquisition and starts a conversion. -/
  | adTrigger (channel at16 : Nat)
  /-- AD_CONVERSION_DONE (R59): An AD conversion completes 300 ns after its trigger and its calibrated sample is published. -/
  | adConversionDone (channel code : Nat) (stale : Bool)
  /-- CC_BLOCK (R61): A CC block of 128 clocks completes and its calibrated sample is added to the 72-bit charge accumulator. -/
  | ccBlock (channel : Nat) (sum : Int) (now : Nat)
  /-- CC_ACC_READ (R63): A read of SNS_CC_ACC0 returns the low word and latches the other accumulator words for that channel and path. -/
  | ccAccRead (path channel : Nat)
  /-- PACK_SAMPLE_INSTANT (R70): At T_s sense ingress records the PACK samples, the CC currents and the frame, and drives the Bramble strobe. -/
  | packSampleInstant
  /-- NOTCH_OPEN (R117): The sample notch opens before T_s unless shedding defers it, moving switching transitions out of it. -/
  | notchOpen
  /-- NOTCH_CLOSE (R117): The sample notch closes and switching edges resume. -/
  | notchClose
  /-- LOOP_TILE_SAMPLE (R72): A loop tile computes its compensator for a MEAS sample, checks residues and publishes its output and on-time. -/
  | loopTileSample (tile at16 place : Nat) (upset : Int) (sram : Nat)
  /-- DEADLINE_MISS (R82): A sample not completed by its deadline is abandoned, the output held and the miss counted. -/
  | deadlineMiss (tile cause event at16 : Nat)
  /-- FAULT_SHUTDOWN (R81): 1 ms after a loop fault with the lock still held, the fault groups reached by the tile shut down. -/
  | faultShutdown (tile at16 : Nat)
  /-- RES_TEST_ARM (R79): ARM to LT_RES_TEST corrupts the named tile's next residue prediction to test the fault path. -/
  | resTestArm (tile : Nat)
  /-- LOGIC_TILE_TRANSITION (R93): A logic tile's input change fires its first holding transition and its output follows. -/
  | logicTileTransition (tile at16 pins : Nat)
  /-- LOGIC_DWELL_REACHED (R93): A logic tile's dwell counter reaches DWELL and fires a transition that requires it. -/
  | logicDwellReached (tile at16 : Nat)
  /-- TIMER_START (R96): START to a general timer begins or restarts its count down from LOAD. -/
  | timerStart (path timer now : Nat)
  /-- TIMER_STOP (R96): STOP halts a general timer with EXPIRED at 0. -/
  | timerStop (path timer : Nat)
  /-- TIMER_EXPIRE (R96): A general timer reaches zero, setting EXPIRED and stopping or reloading. -/
  | timerExpire (timer at16 : Nat)
  /-- PWM_PERIOD_START (R101): At a lane's period start the on-time handed in time is clamped and applied, or the previous one repeats with LATE. -/
  | pwmPeriodStart (lane at16 : Nat) (upset : Int)
  /-- SHED_REQUEST (R107): A write of TARGET to PWM_CONV_CMD requests a shed level for a converter. -/
  | shedRequest (converter target at16 : Nat)
  /-- SHED_COMMIT (R108): A shed step commits at a phase-0 period start when spacing, inhibits and suspension permit, and its lanes go SHED. -/
  | shedCommit (converter at16 : Nat)
  /-- READD_COMMIT (R109): A re-add commits at a phase-0 period start and its lanes restart with the mean on-time. -/
  | readdCommit (converter at16 : Nat)
  /-- STEP_SIGNAL (R110): An asserted step signal cancels pending sheds and re-adds recently shed lanes or all shed lanes. -/
  | stepSignal (converter at16 : Nat)
  /-- FAULT_INPUT (R112): An enabled fault input held low beyond its filter drives every lane of its fault groups OFF within 60 ns. -/
  | faultInput (input lowPs now : Nat)
  /-- GROUP_SWTRIP (R113): A write of 1 to PWM_GRP_SWTRIP trips the named fault group. -/
  | groupSwtrip (group now : Nat)
  /-- GROUP_RELEASE (R114): A write of 1 to PWM_GRP_TRIP releases a tripped group with no source asserted, or sets REARM_REFUSED. -/
  | groupRelease (group : Nat)
  /-- CONTACTOR_OPEN (R115): CTR_DLY after a trip, the group's contactor drives open and their CLOSE bits clear. -/
  | contactorOpen (group now : Nat)
  /-- CONTACTOR_CLOSE (R115): A write of a CLOSE bit closes a contactor drive when no group naming it is tripped. -/
  | contactorClose (path drive : Nat)
  /-- LOCAL_TARGET (R120): No rack entry applied for 100 ms makes the module compute its own target and mean. -/
  | localTarget
  /-- FEED_BAD (R122): Eight frames without a good feed sample set FEED_BAD and enter HOLD. -/
  | feedBad
  /-- FEED_RECOVERED (R122): Eight frames with good feed samples clear FEED_BAD. -/
  | feedRecovered
  /-- LANE_ABSENT (R132): A forecast lane not republished for four forecast boundaries becomes ABSENT. -/
  | laneAbsent (lane : Nat)
  /-- LANE_STEP_SCORE (R133): At the end of MISS_WINDOW a predicted step scores HIT or MISS and the lane may be demoted or restored. -/
  | laneStepScore (lane ago span : Nat)
  /-- RESERVE_EXIT (R134): 100 consecutive frames with no storage limit acting end RESERVE mode. -/
  | reserveExit
  /-- WB_HOLD (R134): HOLD to WB_CMD moves P_TOT and P_FF to zero and holds the module in HOLD. -/
  | wbHold
  /-- WB_RELEASE (R134): RELEASE to WB_CMD ends a commanded HOLD once no other cause holds. -/
  | wbRelease
  /-- CLEAR_MAX (R138): CLEAR_MAX sets WB_DEV20_MAX to zero. -/
  | clearMax
  /-- RESTORE_LANE (R133): RESTORE_LANE returns a DEMOTED lane to scoring as APPLIED or GATED. -/
  | restoreLane (lane : Nat)
  /-- SCALAR_INSTRUCTION (R142): A Thicket core executes one RV64IMAFDC, Zicsr or Zifencei instruction, including CSR writes. -/
  | scalarInstruction (core now cycle : Nat) (upset : Option (Nat × Bool))
  /-- ECALL (R144): ecall with a7 zero halts the core as DONE; any other ecall is a core fault. -/
  | ecall (core : Nat)
  /-- EBREAK (R144): ebreak halts the core for the debugger when DEBUG_EN is set and is a core fault otherwise. -/
  | ebreak (core : Nat)
  /-- CORE_FAULT (R170): An exception on a core stops the partition, records the fault and leaves it FAULTED or schedules an automatic restart. -/
  | coreFault (partition now : Nat)
  /-- TH_SEND (R151): th.send sends a message on a channel, waiting for a credit up to th_sendto. -/
  | thSend (core now : Nat) (upset : Option (Nat × Bool))
  /-- TH_SENDNB (R151): th.sendnb sends a message only if a credit is available and never waits. -/
  | thSendnb (core : Nat) (upset : Option (Nat × Bool))
  /-- TH_RECV (R152): th.recv returns the oldest unreturned slot of a channel, waiting up to its timeout. -/
  | thRecv (core now : Nat)
  /-- TH_PEEK (R152): th.peek returns the oldest unreturned slot of a channel without waiting. -/
  | thPeek (core : Nat)
  /-- TH_WAIT (R152): th.wait returns the lowest masked channel holding an unreturned slot, waiting up to its timeout. -/
  | thWait (core now : Nat)
  /-- TH_RELEASE (R152): th.release frees the oldest returned slot of a channel and sends back its credit. -/
  | thRelease (core : Nat)
  /-- TH_CREDITS (R152): th.credits returns the sender's present credits on a send endpoint. -/
  | thCredits (core : Nat)
  /-- TH_BARRIER (R156): th.barrier records a member's arrival and passes the barrier when every member has arrived. -/
  | thBarrier (core now : Nat)
  /-- BARRIER_TIMEOUT (R157): A barrier wait that times out withdraws the member's arrival and returns TIMEOUT. -/
  | barrierTimeout (core now : Nat)
  /-- MESSAGE_ARRIVE (R153): A message lands in its receive ring slot and wakes a core waiting on the channel. -/
  | messageArrive (core channel : Nat)
  /-- CREDIT_ARRIVE (R150): A returned credit reaches the sender and wakes a th.send waiting for it. -/
  | creditArrive (core endpoint : Nat)
  /-- WAIT_TIMEOUT (R155): The timeout of th.recv, th.wait, th.send or th.dmawait expires and the instruction returns its timeout result. -/
  | waitTimeout (core now : Nat)
  /-- TH_DMA (R158): th.dma checks a transfer descriptor and starts the stack transfer under a tag. -/
  | thDma (core : Nat) (upset : Option (Nat × Bool))
  /-- DMA_COMPLETE (R160): A stack transfer completes, becoming visible and freeing its tag at the next wait or poll. -/
  | dmaComplete (core tag : Nat) (bad : List (Nat × List (Nat × Nat)))
  /-- TH_DMAWAIT (R159): th.dmawait waits up to its timeout for a tagged transfer and returns its status. -/
  | thDmawait (core now : Nat)
  /-- TH_DMAPOLL (R159): th.dmapoll returns the status of a tagged transfer without waiting. -/
  | thDmapoll (core : Nat)
  /-- TH_PUB (R175): th.pub copies a lane record to the Hub's staging buffer and waits until it has landed. -/
  | thPub (core now : Nat) (upset : Option (Nat × Bool))
  /-- TH_SLOTSEL (R148): th.slotsel stages a model slot selection for the next forecast boundary. -/
  | thSlotsel (core : Nat)
  /-- TH_TZERO (R147): th.tzero clears an accumulator tile. -/
  | thTzero (core : Nat)
  /-- TH_TLD (R147): th.tld fills an accumulator tile from local memory. -/
  | thTld (core : Nat) (upset : Option (Nat × Bool))
  /-- TH_TST (R147): th.tst writes an accumulator tile to local memory. -/
  | thTst (core : Nat)
  /-- TH_TMMA (R183): th.tmma adds the product of two operand tiles to an accumulator tile with one rounding. -/
  | thTmma (core : Nat) (upset : Option (Nat × Bool))
  /-- TH_TMMA_T (R183): th.tmma.t adds A times transposed B to an accumulator tile. -/
  | thTmmaT (core : Nat) (upset : Option (Nat × Bool))
  /-- TH_CVT_E4M3_F32 (R188): Narrows FP32 elements to E4M3, to nearest or stochastically. -/
  | thCvtE4m3F32 (core : Nat) (upset : Option (Nat × Bool))
  /-- TH_CVT_E5M2_F32 (R188): Narrows FP32 elements to E5M2. -/
  | thCvtE5m2F32 (core : Nat) (upset : Option (Nat × Bool))
  /-- TH_CVT_BF16_F32 (R188): Narrows FP32 elements to BF16. -/
  | thCvtBf16F32 (core : Nat) (upset : Option (Nat × Bool))
  /-- TH_CVT_I8_F32 (R188): Narrows FP32 elements to INT8. -/
  | thCvtI8F32 (core : Nat) (upset : Option (Nat × Bool))
  /-- TH_CVT_Q12B_F32 (R189): Encodes FP32 elements into Q12B blocks with a shared exponent. -/
  | thCvtQ12bF32 (core : Nat) (upset : Option (Nat × Bool))
  /-- TH_CVT_F32_E4M3 (R187): Widens E4M3 elements to FP32 exactly. -/
  | thCvtF32E4m3 (core : Nat) (upset : Option (Nat × Bool))
  /-- TH_CVT_F32_E5M2 (R187): Widens E5M2 elements to FP32 exactly. -/
  | thCvtF32E5m2 (core : Nat) (upset : Option (Nat × Bool))
  /-- TH_CVT_F32_BF16 (R187): Widens BF16 elements to FP32 exactly. -/
  | thCvtF32Bf16 (core : Nat) (upset : Option (Nat × Bool))
  /-- TH_CVT_F32_I8 (R187): Widens INT8 elements to FP32 exactly. -/
  | thCvtF32I8 (core : Nat) (upset : Option (Nat × Bool))
  /-- TH_CVT_F32_Q12B (R187): Decodes Q12B blocks to FP32. -/
  | thCvtF32Q12b (core : Nat) (upset : Option (Nat × Bool))
  /-- PART_LOAD (R166): LOAD checks a program image for a partition and loads it. -/
  | partLoad (partition : Nat)
  /-- PART_LOAD_COMPLETE (R167): A load ends, leaving the partition READY or EMPTY with its error. -/
  | partLoadComplete (partition : Nat)
  /-- PART_START (R168): START makes every core of the partition start at ENTRY at the next forecast boundary. -/
  | partStart (partition : Nat)
  /-- PART_STOP (R169): STOP halts every core of the partition and lets issued transfers complete. -/
  | partStop (partition : Nat)
  /-- PART_STOP_COMPLETE (R169): Outstanding transfers complete and the partition shows STOPPED. -/
  | partStopComplete (partition : Nat)
  /-- PART_UNLOAD (R163): UNLOAD wipes the partition and makes it EMPTY. -/
  | partUnload (partition : Nat)
  /-- PART_CLEAR (R163): CLEAR sets ERROR to zero and a FAULTED partition to STOPPED. -/
  | partClear (partition : Nat)
  /-- PART_AUTO_RESTART (R170): A faulted partition with AUTO_RESTART restarts at the first forecast boundary 100 ms after the fault. -/
  | partAutoRestart (partition now : Nat)
  /-- PART_RESUME (R172): When the dies run again each suspended partition restarts from its kept image. -/
  | partResume
  /-- LM_WINDOW_ACCESS (R171): A host access to a die's local-memory window is served or refused and counted in TH_LM_DENIED. -/
  | lmWindowAccess (path die offset : Nat) (isWrite : Bool) (value : Nat)
  /-- DIE_OPP_REQUEST (R410): A write to TH_DIE_OPP requests an operating point that the sequencer plans towards. -/
  | dieOppRequest (path d opp now : Nat)
  /-- DVFS_STEP_COMPLETE (R411): A sequencer frequency or voltage step completes and the rest is planned towards the latest request. -/
  | dvfsStepComplete (d now : Nat)
  /-- DIE_OVER_THROTTLE (R413): A die above THROTTLE_T is lowered one operating point every 10 ms. -/
  | dieOverThrottle (d : Nat) (temp : Int) (now : Nat)
  /-- DIE_THROTTLE_RESTORE (R413): A die 5 °C below THROTTLE_T is raised one operating point every 10 ms up to its request. -/
  | dieThrottleRestore (d : Nat) (temp : Int) (now : Nat)
  /-- OVERTEMP (R413): A die above 115 °C raises control-class fault OVERTEMP, and a Thicket die is turned off. -/
  | overtemp (d : Nat) (temp : Int)
  /-- HUB_OVERHEAT_RESET (R475): The Hub die above 125 °C causes a cold reset held until it cools below 100 °C. -/
  | hubOverheatReset (temp : Int) (now : Nat)
  /-- CTX_ALLOC (R202): ALLOC allocates a context of the given kind and key, or returns the existing one. -/
  | ctxAlloc (path kind now : Nat)
  /-- CTX_FREE (R208): FREE gives up a context and starts its wipe. -/
  | ctxFree (path index : Nat)
  /-- CTX_PIN (R209): PIN sets PINNED unless PIN_MAX contexts are pinned. -/
  | ctxPin (path index : Nat)
  /-- CTX_UNPIN (R209): UNPIN clears PINNED. -/
  | ctxUnpin (path index : Nat)
  /-- CTX_REBUILD (R217): REBUILD wipes a context's data area, keeps its identity and clears its poison. -/
  | ctxRebuild (path index : Nat)
  /-- CTX_LOOKUP (R202): LOOKUP returns the context holding a kind and key, or NOT_FOUND. -/
  | ctxLookup (path kind : Nat)
  /-- CONTEXT_WIPE_COMPLETE (R208): A context's data area wipe ends and held records for its new key are written. -/
  | contextWipeComplete (index now : Nat)
  /-- CAPTURE_ENABLE (R210): Enabling a capture ring is accepted or refused with OVERLAP or RANGE. -/
  | captureEnable (path ring value : Nat)
  /-- CAPTURE_BLOCK_WRITE (R212): A capture ring closes a 64-byte block of samples and writes it to the stack. -/
  | captureBlockWrite (ring lost : Nat)
  /-- CAPTURE_TRIGGER (R213): A rising TRIG_SIG on a TRIGGERED ring records the trigger block and starts counting POST blocks. -/
  | captureTrigger (ring : Nat)
  /-- CAPTURE_POST_DONE (R213): A triggered ring has recorded its POST blocks and stops. -/
  | capturePostDone (ring : Nat)
  /-- SCRUB_STEP (R218): The scrubber reads the next stack block in address order at its pace. -/
  | scrubStep (flaw : List (Nat × Nat))
  /-- STACK_WIPE_COMPLETE (R220): The stack wipe after reset or power-up ends and CTX_STATUS shows READY. -/
  | stackWipeComplete (tenths : Nat)
  /-- BAR2_READ (R459): A host read through BAR2 returns stack data subject to range, poison and readiness rules. -/
  | bar2Read (off n : Nat) (bads : List (List (Nat × Nat)))
  /-- BAR2_WRITE (R459): A host write through BAR2 is applied to permitted ranges or discarded and counted. -/
  | bar2Write (off : Nat) (bytes : List Byte)
  /-- HINT_RECEIVE (R231): An arriving HINT is checked and, if accepted, recorded in the STREAM and JOB contexts. -/
  | hintReceive (port now queued : Nat) (frame : List Byte)
  /-- TELEM_RECEIVE (R231): An arriving TELEM is checked and recorded in its STREAM context. -/
  | telemReceive (port now queued : Nat) (frame : List Byte)
  /-- ACTIVITY_RECEIVE (R231): An arriving ACTIVITY is checked and recorded in its STREAM context. -/
  | activityReceive (port now queued : Nat) (frame : List Byte)
  /-- GRANT_RECEIVE (R230): A GRANT from another module is checked and accepted only from ADMITTED modules. -/
  | grantReceive (port now : Nat) (frame : List Byte)
  /-- DISCOVER_RECEIVE (R239): An arriving DISCOVER is checked and schedules the module's own ANNOUNCE slot. -/
  | discoverReceive (port now : Nat) (frame : List Byte)
  /-- ANNOUNCE_RECEIVE (R241): An arriving ANNOUNCE records, admits, refreshes, restarts or removes a partner. -/
  | announceReceive (port now : Nat) (frame : List Byte)
  /-- ANNOUNCE_SEND (R239): At its slot the module multicasts its own ANNOUNCE. -/
  | announceSend (now : Nat)
  /-- PARTNER_LISTEN (R240): 450 ms after the origin the partner network enters LISTEN and sends DISCOVER. -/
  | partnerListen (now : Nat)
  /-- ADMIT_POINT (R240): At the ADMIT point every ANNOUNCED partner of the rack becomes ADMITTED and the rest REFUSED. -/
  | admitPoint (now : Nat)
  /-- PARTNER_SILENT (R243): An admitted partner silent for SILENT_MS becomes SILENT. -/
  | partnerSilent (entry now : Nat)
  /-- PARTNER_LEFT (R243): A partner SILENT for LOST_S becomes LEFT. -/
  | partnerLeft (entry now : Nat)
  /-- HNT_DISCOVER (R240): DISCOVER to HNT_CMD sends a DISCOVER to the rack group now. -/
  | hntDiscover
  /-- CLEAR_DROPS (R231): CLEAR_DROPS sets every HNT_DROP counter to zero. -/
  | clearDrops
  /-- FORGET (R240): FORGET sets a partner table entry to EMPTY. -/
  | forget (entry : Nat)
  /-- ETH_LINK_CHANGE (R223): An ETHA or ETHB link goes up or down. -/
  | ethLinkChange (port : Nat) (up : Bool) (now : Nat)
  /-- PTP_SYNC_RECEIVE (R235): A PTP Sync updates the offset, the time quality and the steering of the frame grid. -/
  | ptpSyncReceive (port now domain t1 t2 : Nat) (delay : Option (Nat × Nat))
  /-- PTP_SYNC_LOSS (R235): No Sync for 1 s or loss of the master takes a LOCKED module to HOLDOVER. -/
  | ptpSyncLoss (now : Nat)
  /-- HOLDOVER_EXPIRE (R235): HOLDOVER lasting HOLDOVER_S seconds returns time quality to UNLOCKED. -/
  | holdoverExpire (now : Nat)
  /-- HALL_BOUNDARY (R250): The hall leader computes a hall entry of ceilings and loans and proposes it. -/
  | hallBoundary (now : Nat)
  /-- LOAN_EXPIRY (R251): At EXPIRY without a new hall entry every ceiling above its contract returns to the contract. -/
  | loanExpiry
  /-- LOAN_GUARD_EXPIRY (R251): LOAN_GUARD after EXPIRY every ceiling below its contract returns to the contract. -/
  | loanGuardExpiry
  /-- LIMIT_CLEAR_ELAPSED (R257): LIMIT_CLEAR grant intervals without a LIMIT report lift a job's thermal-lag limit. -/
  | limitClearElapsed (slot : Nat)
  /-- JOB_TABLE_TIMEOUT (R253): A job not named for 100 grant intervals leaves the job table and a waiting job may enter. -/
  | jobTableTimeout (slot : Nat)
  /-- MODEL_DRIFT (R268): The reconciliation ratio outside its band for RECON_COUNT intervals sets MODEL_DRIFT. -/
  | modelDrift
  /-- GRANT_COMMIT_TIMEOUT (R262): A grant entry not committed by G + 5 ms sends no GRANT for that interval. -/
  | grantCommitTimeout (now : Nat)
  /-- CONTRACT_SET (R248): CONTRACT_SET proposes a new contract entry to the hall group or is refused. -/
  | contractSet (now : Nat)
  /-- CLEAR_DRIFT (R268): CLEAR_DRIFT clears MODEL_DRIFT and restarts its count. -/
  | clearDrift
  /-- APPEND_RECEIVE (R279): A member stores, acknowledges or rejects an APPEND or heartbeat and learns the commit index. -/
  | appendReceive (port now : Nat) (frame : List Byte)
  /-- APPEND_ACK_RECEIVE (R279): The leader counts an acknowledgement and commits entries acknowledged by a majority. -/
  | appendAckReceive (port now : Nat) (frame : List Byte)
  /-- VOTE_REQ_RECEIVE (R275): A voter grants or refuses its vote for a candidate. -/
  | voteReqReceive (port now : Nat) (frame : List Byte)
  /-- VOTE_RECEIVE (R275): A candidate counts a vote and becomes leader on a majority. -/
  | voteReceive (port now : Nat) (frame : List Byte)
  /-- SYNC_REQ_RECEIVE (R284): The leader answers a SYNC_REQ with a read index. -/
  | syncReqReceive (port now : Nat) (frame : List Byte)
  /-- SYNC_ANS_RECEIVE (R284): A member takes the read index from a SYNC_ANS. -/
  | syncAnsReceive (port now : Nat) (frame : List Byte)
  /-- SYNC_DONE (R284): A SYNC completes DONE once the applied index reaches its read index. -/
  | syncDone (path : Nat)
  /-- SYNC_TIMEOUT (R284): A SYNC whose timeout passes first completes FAILED. -/
  | syncTimeout (path now : Nat)
  /-- JOIN_RECEIVE (R285): The leader adds a joining module as voice or learner through a MEMBER entry. -/
  | joinReceive (port now : Nat) (frame : List Byte)
  /-- JOIN_ANS_RECEIVE (R286): A joining module learns of a group or that none exists. -/
  | joinAnsReceive (port now : Nat) (frame : List Byte)
  /-- JOIN_RETRY (R285): Every 10 ms a module not yet a member sends JOIN. -/
  | joinRetry (group now : Nat)
  /-- GROUP_FORM (R286): After 50 ms with no group the lowest-identifier module forms the group. -/
  | groupForm (group now : Nat)
  /-- GROUP_REFORM (R287): No leader for 100 ms with restarted voters re-forms the group. -/
  | groupReform (now : Nat)
  /-- HEARTBEAT_SEND (R275): The leader sends an APPEND to its group at least every HB. -/
  | heartbeatSend (group now : Nat)
  /-- ELECTION_TIMEOUT (R275): A voice without APPEND for its election time becomes a candidate and sends VOTE_REQ. -/
  | electionTimeout (group now : Nat)
  /-- LEASE_END (R283): A leader's read lease ends. -/
  | leaseEnd (group now : Nat)
  /-- STATE_RECEIVE (R282): A member receives applied state in STATE messages and continues from its index. -/
  | stateReceive (port now : Nat) (frame : List Byte)
  /-- PROPOSE_RECEIVE (R273): The leader appends a proposed entry or refuses it. -/
  | proposeReceive (port now : Nat) (frame : List Byte)
  /-- PROPOSE_ANS_RECEIVE (R273): A proposer learns whether its entry committed. -/
  | proposeAnsReceive (port now : Nat) (frame : List Byte)
  /-- CLAIM_RECEIVE (R370): An arbiter collects a shelf's CLAIM and opens its decision window. -/
  | claimReceive (port now : Nat) (frame : List Byte)
  /-- ARBITER_WINDOW_END (R370): 250 µs after the first claim the arbiter decides the voice and sends DECIDE. -/
  | arbiterWindowEnd (shelf now : Nat)
  /-- DEPUTY_DECIDE_TIMEOUT (R290): With no DECIDE from the primary 400 µs after a CLAIM, the deputy decides. -/
  | deputyDecideTimeout (shelf now : Nat)
  /-- DECIDE_RECEIVE (R290): A DECIDE moves or keeps the shelf's voice and the leader commits the VOICE entry. -/
  | decideReceive (port now : Nat) (frame : List Byte)
  /-- SYNC_RACK (R284): SYNC_RACK starts a coherent read of the rack group. -/
  | syncRack (path now : Nat)
  /-- SYNC_HALL (R284): SYNC_HALL starts a coherent read of the hall group. -/
  | syncHall (path now : Nat)
  /-- STEP_DOWN (R276): STEP_DOWN makes a leader send a final APPEND with STEP_DOWN and become a follower. -/
  | stepDown (now : Nat)
  /-- SNAP_ARM (R292): ARM schedules a SNAP capture at its boundary, or sets BUSY. -/
  | snapArm
  /-- SNAP_DISARM (R294): DISARM cancels an armed SNAP capture. -/
  | snapDisarm
  /-- SNAP_CAPTURE (R292): At the capture boundary each listed register latches its value. -/
  | snapCapture (stale : List Nat)
  /-- SNAP_COMPLETE (R294): The collected values replace the capture buffers together. -/
  | snapComplete
  /-- ENUMERATE (R304): ENUMERATE releases every position and enumerates the chain from both ends. -/
  | enumerate (now : Nat)
  /-- REENUM (R317): REENUM starts re-enumeration of LOST positions at once. -/
  | reenum (now : Nat)
  /-- PKL_SLEEP (R320): SLEEP sends SLEEP from both radios and the nodes sleep. -/
  | pklSleep
  /-- PKL_WAKE (R320): WAKE sends WAKE for 1.1 s and then enumerates. -/
  | pklWake (now : Nat)
  /-- BAL_STOP (R311): BAL_STOP sends zero to every bleed timer in the next gap. -/
  | balStop
  /-- PKL_CLEAR (R319): CLEAR sets the block's counters and flags to zero. -/
  | pklClear
  /-- ENUM_ANS_RECEIVE (R302): An ENUM_ANS gives a position to a node and the next step begins. -/
  | enumAnsReceive (radio now : Nat) (message : List Byte)
  /-- ENUM_STEP_TIMEOUT (R302): An unanswered enumeration step is repeated and after two repeats its side stops. -/
  | enumStepTimeout (now : Nat)
  /-- ENUM_OPEN_SLOTS_END (R303): After the answer slots of ENUM_OPEN the module picks an answer or repeats with more slots. -/
  | enumOpenSlotsEnd (now : Nat)
  /-- REPORT_RECEIVE (R313): A node's REPORT record is received in its slot. -/
  | reportReceive (radio : Nat) (message : List Byte)
  /-- PRIMARY_PASS_END (R314): The longer primary pass ends, the sweep is published and missing positions get a completion pass. -/
  | primaryPassEnd (now : Nat)
  /-- SWEEP_CLOSE (R314): The completion passes end, the sweep closes and the estimator, limits and balancing take it. -/
  | sweepClose (now : Nat)
  /-- BAL_ACK_RECEIVE (R310): A BAL_ACK confirms which bleed timers run. -/
  | balAckReceive (message : List Byte)
  /-- DISCOVERY_GAP (R317): At DISC_AT the nodes change to discovery mode for re-enumeration or authentication steps. -/
  | discoveryGap (now : Nat)
  /-- ALARM_RECEIVE (R321): A Bramble ALARM is recorded and wakes a module in KEEP. -/
  | alarmReceive (now : Nat) (message : List Byte)
  /-- AUTH_RESP_RECEIVE (R345): An AUTH_RESP is checked and the position passes or fails authentication. -/
  | authRespReceive (now : Nat) (message : List Byte)
  /-- AUTH_TIMEOUT (R346): An unanswered challenge is repeated and after two repeats the position is AUTH_FAIL. -/
  | authTimeout (now : Nat)
  /-- AUTH_PERIOD_ELAPSED (R346): Every AUTH_PERIOD every position is authenticated again. -/
  | authPeriodElapsed
  /-- EST_RESTORE (R342): RESTORE arms restoring the written state record once enumeration ends. -/
  | estRestore (force : Bool)
  /-- RESTORE_APPLY (R343): The record is checked and, if it passes, Q, uncertainty and capacity are restored. -/
  | restoreApply (now : Nat)
  /-- EST_WALK (R337): WALK requests an anchor walk for the named string. -/
  | estWalk (string : Nat)
  /-- WALK_BEGIN (R337): A scheduled walk begins at the first frame with negative P_FF or P_TOT. -/
  | walkBegin (string : Nat)
  /-- WALK_ABORT (R337): WALK_ABORT ends a walk with WALK_ABANDON. -/
  | walkAbort (string : Nat)
  /-- WALK_MAX_ELAPSED (R337): A walk lasting WALK_MAX ends with WALK_ABANDON. -/
  | walkMaxElapsed (string : Nat)
  /-- EST_LEARN (R338): LEARN arms a learning discharge from the next full anchor. -/
  | estLearn (string : Nat)
  /-- LEARN_ABORT (R339): LEARN_ABORT ends a learning discharge without changing capacity. -/
  | learnAbort (string : Nat)
  /-- LEARN_TIMEOUT_ELAPSED (R338): A learning discharge lasting LEARN_TIMEOUT ends with LEARN_ABORT. -/
  | learnTimeoutElapsed (string : Nat)
  /-- DRIFT (R336): Anchor age reaching DRIFT_AGE sets DRIFT. -/
  | drift (string : Nat)
  /-- EST_AUTH (R346): AUTH authenticates every position now. -/
  | estAuth
  /-- EST_REC_READ (R341): A read of EST_REC word 0 latches the whole record for that path. -/
  | estRecRead (path : Nat)
  /-- EST_SHIP (R347): SHIP starts the ship sequence with Windbreak HOLD and is carried to the standby. -/
  | estShip
  /-- SHIP_QUIET (R347): With P_TOT zero and current below 2 A the fault groups trip, or after 1 s the ship fails ABORTED. -/
  | shipQuiet (now : Nat)
  /-- SHIP_RECORD (R347): CTR_DLY + 10 ms after the trip a record with RFLAGS.SHIP is published. -/
  | shipRecord
  /-- SHIP_RECORD_WAIT_END (R347): A read of the record or SHIP_WAIT ends the wait and SLEEP is sent. -/
  | shipRecordWaitEnd
  /-- SHIP_CHG_WAIT_END (R347): CHG_DETECT deasserted lets the entry proceed, or BUS_WAIT ends it ABORTED. -/
  | shipChgWaitEnd (asserted : Bool) (now : Nat)
  /-- SHIP_POWER_ENTRY (R409): With the log queue empty the module enters power state SHIP. -/
  | shipPowerEntry (now : Nat)
  /-- SHIP_ABORT (R348): SHIP_ABORT before the power state wakes the nodes and ends HOLD. -/
  | shipAbort (now : Nat)
  /-- CHG_DETECT_WAKE (R409): CHG_DETECT high for 10 ms ends SHIP with a power-on reset. -/
  | chgDetectWake (highMs straps bad : Nat)
  /-- STATE_RECORD_RECEIVE (R359): A module without the lock loads a state record, replays its own samples and compares the results. -/
  | stateRecordReceive (message : List Byte) (now : Nat)
  /-- BEAT_SEND (R360): Every 20 µs and on a change the module sends a beat on Stake and Binder. -/
  | beatSend (now : Nat)
  /-- BEAT_RECEIVE (R362): A good beat updates the path state and may declare the twin failed. -/
  | beatReceive (path now : Nat) (message : List Byte)
  /-- BEAT_MISS (R361): A beat not arriving within BEAT_WIN is missed and MISS_LIMIT misses make the path DOWN. -/
  | beatMiss (path now : Nat)
  /-- TAKEOVER_PRE_RUN (R364): At F1 a TAKING module loads the last good record, replays and starts the pre-run. -/
  | takeoverPreRun
  /-- LOCK_REQUEST (R365): After a passed pre-run the module asserts its claim on the interlock. -/
  | lockRequest (now : Nat)
  /-- TWIN_CLAIM_SENSED (R365): A change of the twin's claim at TLOCK_IN_N may make an active release the lock. -/
  | twinClaimSensed (asserted : Bool) (now : Nat)
  /-- LOCK_ACQUIRE (R353): HOLDER sets after the twin's claim stays released for 100 ns, and the module becomes ACTIVE in RUN. -/
  | lockAcquire (now failAt : Nat)
  /-- KEEPER_EXPIRY (R354): An unrefreshed keeper releases the module's claim. -/
  | keeperExpiry (now : Nat)
  /-- LOCK_BLOCKED (R367): A lock request not granted within 1 ms is withdrawn with LOCK_BLOCKED. -/
  | lockBlocked (now : Nat)
  /-- LOCK_WAIT_ELAPSED (R351): A slot-B module claims the lock after its twin's claim stays released for LOCK_WAIT. -/
  | lockWaitElapsed (now : Nat)
  /-- SLOT_EXCHANGE (R387): The twins exchange slot and shelf over TWIN and detect a SLOT_CLASH. -/
  | slotExchange (answer : Option (Nat × Nat × Nat)) (now : Nat)
  /-- TWN_ADMIT (R376): ADMIT starts RESYNC of a QUARANTINE module with its active twin. -/
  | twnAdmit (now : Nat)
  /-- RESYNC_COMPLETE (R376): RESYNC ends, the module becoming STANDBY or returning to QUARANTINE. -/
  | resyncComplete (serial : Nat) (digest : List Byte) (forerunner : Bool) (layers : List (List Byte)) (estimator : Option (List Byte)) (tHub : Int) (now : Nat)
  /-- TWN_SWITCH (R377): SWITCH hands the lock to a READY twin through a FINAL record. -/
  | twnSwitch
  /-- TWN_QUARANTINE (R378): QUARANTINE to an ACTIVE acts as a switch after which it enters QUARANTINE, or is refused. -/
  | twnQuarantine
  /-- TWN_CLEAR (R378): CLEAR sets the twin counters and RESULT to zero. -/
  | twnClear
  /-- POWER_ON_RESET (R397): PG rising releases power-on reset and starts the module from the always-on island. -/
  | powerOnReset (straps bad auxA auxB : Nat) (okA okB : Bool)
  /-- RESET_PIN (R397): RESET_N or SVC_RESET_N low for 1 µs causes a cold reset. -/
  | resetPin (svc : Bool) (lowNs now : Nat)
  /-- PCIE_PERST (R392): PCIE_PERST_N or a function level reset resets only the endpoint and HOSTP. -/
  | pciePerst (asserted : Bool)
  /-- WATCHDOG (R399): Watchdog expiry sends code WATCHDOG and causes a warm or cold reset. -/
  | watchdog (now : Nat)
  /-- STARTUP_STEP_COMPLETE (R401): A start-up step's ready signal asserts and the next step begins. -/
  | startupStepComplete (step serial now : Nat)
  /-- STARTUP_STEP_TIMEOUT (R403): A start-up step not ready in time is handled under the start-up failure table. -/
  | startupStepTimeout (step : Nat) (wipe : Bool) (now : Nat)
  /-- CLK_SWITCH (R402): SWITCH moves CORE, SEC and LOG from FAST to their PLLs. -/
  | clkSwitch
  /-- AUX_LOST (R396): One supply input falls below threshold or is disconnected and the module runs on the other. -/
  | auxLost (input volt now : Nat)
  /-- AUX_RETURN (R396): A supply input returns within its thresholds. -/
  | auxReturn (input volt : Nat)
  /-- HOLDUP_START (R396): Both inputs low for 20 µs set HOLDUP, send SUPPLY and commit a power-fail record. -/
  | holdupStart (now : Nat)
  /-- HOLDUP_END (R395): The hold-up store falls below its limit and the module enters power-on reset. -/
  | holdupEnd (mW now : Nat)
  /-- PWR_HOLD (R405): HOLD in RUN suspends the partitions and stops the dies. -/
  | pwrHold
  /-- PWR_RUN (R405): RUN leaves HOLD, or wakes a KEEP module over the host path. -/
  | pwrRun (now : Nat)
  /-- PWR_KEEP (R407): KEEP takes the module, and an admitted twin, into the always-on island state. -/
  | pwrKeep (now : Nat)
  /-- WARM_RESET (R397): WARM_RESET with the confirmation byte resets every domain except AON and RTC, keeping RWS fields. -/
  | warmReset (confirm now : Nat)
  /-- COLD_RESET (R397): COLD_RESET with the confirmation byte resets every domain except AON and RTC. -/
  | coldReset (confirm now : Nat)
  /-- KEEP_TIMER_WAKE (R408): KEEP lasting WAKE_S seconds wakes the module. -/
  | keepTimerWake (now : Nat)
  /-- KEEP_CURRENT_WAKE (R408): A CC mean current above WAKE_I over one second wakes the module. -/
  | keepCurrentWake (k now : Nat)
  /-- LOG_RECORD_ARRIVE (R427): An event reaches the LOG domain, is filtered, numbered and queued or spilled. -/
  | logRecordArrive (count now : Nat)
  /-- REPEAT_WINDOW_END (R432): At the end of a repeat window a REPEAT record carries the count held back. -/
  | repeatWindowEnd (code source now : Nat)
  /-- LOG_PAGE_PROGRAMMED (R427): A flash page program of four records completes. -/
  | logPageProgrammed (now : Nat)
  /-- LOG_BLOCK_ERASED (R424): A sapwood block erase completes and programming resumes. -/
  | logBlockErased (now : Nat)
  /-- LOG_RECOVER (R426): At start-up the engine finds the write point and next BOOT and moves power-fail records. -/
  | logRecover (now : Nat)
  /-- LOG_FREEZE (R433): FREEZE stops programming and erasing of the log after the page in progress. -/
  | logFreeze (now : Nat)
  /-- LOG_UNFREEZE (R433): UNFREEZE ends a freeze and writes FREEZE_DROP. -/
  | logUnfreeze (now : Nat)
  /-- FREEZE_MAX_ELAPSED (R433): A freeze lasting FREEZE_MAX ends. -/
  | freezeMaxElapsed (now : Nat)
  /-- DUMP (R435): DUMP copies log records in SEQ order to the stack while frozen. -/
  | dump
  /-- DUMP_COMPLETE (R435): A DUMP ends with LOG_DUMP_DONE records copied. -/
  | dumpComplete
  /-- CLEAR_COUNTS (R433): CLEAR_COUNTS sets the log drop, lost, skip and filter counters to zero. -/
  | clearCounts
  /-- LOG_RD_LATCH (R434): A write of LOG_RD_SEQ's high word latches the record with that SEQ into the path's window. -/
  | logRdLatch (path seq : Nat)
  /-- LC_CHALLENGE (R442): CHALLENGE draws a new nonce. -/
  | lcChallenge (now : Nat)
  /-- NONCE_LAPSE (R442): A nonce lapses 60 s after it is drawn. -/
  | nonceLapse (now : Nat)
  /-- LC_CHANGE (R443): CHANGE checks an authorisation record and starts a life-cycle change. -/
  | lcChange (now : Nat)
  /-- LC_CHANGE_STEP_COMPLETE (R444): A step of a life-cycle change completes and the next begins, ending in power-on reset. -/
  | lcChangeStepComplete (now : Nat)
  /-- LC_LOCK (R450): LOCK takes the life-cycle lock in PROVISIONED. -/
  | lcLock
  /-- DEBUG_UNLOCK (R451): DEBUG_UNLOCK opens JTAG debug until reset and disables the S slots. -/
  | debugUnlock (now : Nat)
  /-- RAISE_MIN (R449): RAISE_MIN writes a new minimum firmware or image serial. -/
  | raiseMin (now : Nat)
  /-- ENROL (R447): ENROL writes the next free verification or secret slot. -/
  | enrol
  /-- REVOKE (R447): REVOKE blows a slot's revoke fuse. -/
  | revoke
  /-- LOAD_SLOT (R448): LOAD_SLOT unwraps a key into a loaded secret slot. -/
  | loadSlot
  /-- CLEAR_SLOT (R445): CLEAR_SLOT clears a loaded secret slot. -/
  | clearSlot
  /-- JTAG_INSTRUCTION (R451): A JTAG instruction acts as permitted by the life-cycle state, the unlock and the lock. -/
  | jtagInstruction (instr : Nat)
  /-- IRQ_ACK (R462): A write of 1 to SYS_IRQ_ACK arms a vector and sends a message if it still qualifies. -/
  | irqAck (mask now : Nat)
  /-- MSIX_SEND (R462): A qualifying armed unmasked vector sends one MSI-X message and is disarmed. -/
  | msixSend (v now : Nat)
  /-- MSIX_UNMASK (R463): Unmasking a pending vector sends its message if it still qualifies. -/
  | msixUnmask (v : Nat) (masked : Bool) (now : Nat)
  /-- IRQ_HOLDOFF_END (R463): The end of a holdoff sends a held message if the vector still qualifies. -/
  | irqHoldoffEnd (v now : Nat)
  /-- MGMT_READ (R467): A management READ request reads registers in order and returns READ_RSP. -/
  | mgmtRead (frame : List Byte) (now : Nat)
  /-- MGMT_WRITE (R467): A management WRITE request writes permitted registers in order and returns WRITE_RSP. -/
  | mgmtWrite (frame : List Byte) (now : Nat)
  /-- SMBUS_BLOCK_READ (R469): An SMBus Block Read returns the selected register with STOPPED and STALE flags. -/
  | smbusBlockRead (cmd : Nat) (stale : Bool)
  /-- SMBUS_ALERT_RESPONSE (R465): The module answers the SMBus alert response address with its own address. -/
  | smbusAlertResponse
  /-- FAULT_INPUT_RELEASE (R114): An asserted fault input returns high, so PWM_FLT_RAW and FLT_ANY clear and a later release of its groups is no longer refused. -/
  | faultInputRelease (input : Nat)
  /-- TWIN_LANE_CHANGE (R356): One TWIN lane goes down or comes back, setting or clearing LANE_DOWN and moving the state copy to one lane or back to two. -/
  | twinLaneChange (down : Bool)
  /-- NET_BACK (R369): An ACTIVE whose twin holds the voice has had its rack ports up for 1 s and sends CLAIM with cause NET_BACK. -/
  | netBack (now : Nat)
  /-- PTP_ANNOUNCE_RECEIVE (R235): A PTP Announce is taken and best-master selection chooses a master, taking time quality to ACQUIRING. -/
  | ptpAnnounceReceive (port now : Nat) (announce : PtpAnn)
  /-- HEALTH_REPORT_RECEIVE (R374): An ACTIVE receives its standby's health report over TWIN, shows it in TWN_HEALTH and reevaluates READY and DEGRADED. -/
  | healthReportReceive (message : List Byte) (now : Nat)
  /-- RECOVERY_IMAGE_RECEIVE (R403): With RECOVER_N low at reset, the boot loader receives a full image over the J3 serial port, checks it under R29 and programs a slot. -/
  | recoveryImageReceive (slot : Nat) (image : List Byte)
  /-- LOCKSTEP (R360): A supervisor core pair disagrees, raising control-class fault LOCKSTEP, stopping the keeper and watchdog refresh. -/
  | lockstep
  /-- CLOCK_OUT_OF_RANGE (R360): The CORE or PWM clock leaves its range and the module raises control-class fault CLOCK. -/
  | clockOutOfRange
  /-- RAIL_OUT_OF_RANGE (R360): An internal rail leaves its range and the module raises control-class fault SUPPLY. -/
  | railOutOfRange
  /-- STACK_OVERHEAT (R475): The memory stack passes 95 °C, doubling its refresh rate and lowering the THICKET bandwidth to 600 GB/s, and the reverse when it cools. -/
  | stackOverheat (hot : Bool)
  /-- PCIE_LINK_STATE_CHANGE (R464): The PCIe link trains, enters L2 or returns to L0, which governs PCIE_WAKE_N assertion and release. -/
  | pcieLinkStateChange (link : Nat)
  /-- PCIE_POWER_STATE_WRITE (R455): A configuration write moves the function between D0 and D3hot, and BAR decoding is disabled or enabled. -/
  | pciePowerStateWrite (d3 : Bool)
  /-- ICMPV6_RECEIVE (R222): A neighbour discovery or ICMPv6 echo packet arrives on ETHA, ETHB or MGMT and the module answers it. -/
  | icmpv6Receive (port : Nat) (frame : List Byte)
  deriving DecidableEq, Repr

end Sys2Proof
end

