-- ==== Sys2Proof/Config.lean ====
section
/-!
DEFINITION. What the spec leaves to the implementation or to chance: free values. Each is a constant with no body,
so nothing can be proved of the value it gives; the counter `free` of the state makes each use a fresh one.
The cryptographic functions of R23, R25, R345 and R441 to R448 stand here too: the spec names the algorithms by
reference and no rule of it gives their values.
-/

namespace Sys2Proof

/-- What an ENROL message carries (19 R447), whose layout the spec does not give: whether it brings a verification key; the key's
uses; the slot of the signature, the signature and the bytes it covers; the public key; or the ephemeral public key, nonce, AAD,
ciphertext and tag of a secret. -/
structure EnrolRec where
  verify : Bool
  uses : Nat
  signer : Nat
  signature : List Byte
  signed : List Byte
  key : List Byte
  ephemeral : List Byte
  nonce : List Byte
  aad : List Byte
  cipher : List Byte
  tag : List Byte
  deriving DecidableEq, Repr

/-- What a REVOKE record carries (19 R447), whose layout the spec does not give: the slot to revoke (24 of them as SEC_SLOT numbers
them), the signer's slot, the signature and the bytes it covers. -/
structure RevokeRec where
  slot : Nat
  signer : Nat
  signature : List Byte
  signed : List Byte
  deriving DecidableEq, Repr

namespace Config

/-- A value the spec leaves open, one per use: the counter of the state, then what the use is about. -/
opaque freeNat : Nat → Nat → Nat

/-- A result that the spec leaves open and that a Thicket core's own inputs decide (R192): what it is about, the operand, and how many
instructions the core has retired. -/
opaque coreVal : Nat → Nat → Nat → Nat

/-- Whether a signature over a message verifies under a public key (ECDSA, P-384, SHA-384: R23, R441). -/
opaque ecdsaVerify : (key message signature : List Byte) → Bool

/-- The SHA-384 digest of a message, 48 bytes (R23, R164). -/
opaque sha384 : List Byte → List Byte

/-- The SHA-256 digest of a message, 32 bytes (R340). -/
opaque sha256 : List Byte → List Byte

/-- The first bytes of HMAC-SHA-256 under a key (R232, R345, R466). -/
opaque hmacSha256 : (key message : List Byte) → List Byte

/-- AES-256-GCM: the plaintext when the tag is right (R25, R447, R448). -/
opaque gcmOpen : (key nonce aad cipher tag : List Byte) → Option (List Byte)

/-- A random byte string of the security island: the counter of the state, then the length (R442, R345). -/
opaque randomBytes : (counter length : Nat) → List Byte

/-- The key an ECDH agreement on P-384 yields from the module's agreement seed and a public key (R447). -/
opaque ecdh : (seed publicKey : List Byte) → List Byte

/-- The public key that belongs to the agreement seed (SEC_AGREE_PUB), 96 bytes. -/
opaque agreePub : List Byte → List Byte

/-- The module's unicast IPv6 address, 16 bytes, which the PARTNER region gives but no register holds (R222). -/
opaque unicastAddr : List Byte

/-- An ENROL message as the island reads it (R447). -/
opaque enrolParse : List Byte → Option EnrolRec

/-- A REVOKE record as the island reads it (R447). -/
opaque revokeParse : List Byte → Option RevokeRec

end Config

end Sys2Proof
end

