-- ==== Sys2Proof/Machine/Bits.lean ====
section
/-!
DEFINITION. Bit fields, signed readings, rounding, saturation and byte order (00_scope R11), which every chapter shares.
-/

namespace Sys2Proof

/-- The low `w` bits of `v`. -/
def lowBits (w v : Nat) : Nat := v % 2 ^ w

/-- `v`, a field of `w` bits, read as a two's complement number. -/
def signed (w v : Nat) : Int :=
  if 2 * (v % 2 ^ w) < 2 ^ w then (v % 2 ^ w : Int) else (v % 2 ^ w : Int) - 2 ^ w

/-- An integer as a field of `w` bits (wraps). -/
def unsign (w : Nat) (x : Int) : Nat := (x % (2 ^ w : Int)).toNat

/-- `x` held between `lo` and `hi`. -/
def clampInt (lo hi x : Int) : Int := if x < lo then lo else if hi < x then hi else x

/-- `x` saturated to a signed field of `w` bits. -/
def satSigned (w : Nat) (x : Int) : Int := clampInt (-(2 ^ (w - 1))) (2 ^ (w - 1) - 1) x

/-- `n / d` rounded to the nearest integer, ties to even. -/
def roundEven (n : Int) (d : Nat) : Int :=
  let q := n / (d : Int)
  let r := n % (d : Int)
  if 2 * r < d then q
  else if (d : Int) < 2 * r then q + 1
  else if q % 2 = 0 then q else q + 1

/-- `n / d` rounded to the nearest integer, ties away from zero. -/
def roundAway (n : Int) (d : Nat) : Int :=
  if 0 ≤ n then (2 * n + d) / (2 * d) else -((2 * (-n) + d) / (2 * d))

/-- Bit `n` of a natural number. -/
def bitOf (v n : Nat) : Bool := v / 2 ^ n % 2 = 1

/-- Bits `lo` to `lo + w - 1` of a natural number. -/
def bitsOf (v lo w : Nat) : Nat := v / 2 ^ lo % 2 ^ w

/-- `v` with bit `n` set to `b`. -/
def putBit (v n : Nat) (b : Bool) : Nat :=
  if bitOf v n = b then v else if b then v + 2 ^ n else v - 2 ^ n

/-- 0 or 1. -/
def ofBool (b : Bool) : Nat := if b then 1 else 0

/-- The bytes of `v`, least significant first (R11). -/
def leBytes : Nat → Nat → List Byte
  | 0, _ => []
  | n + 1, v => BitVec.ofNat 8 v :: leBytes n (v / 256)

/-- The number that bytes hold, least significant first (R11). -/
def ofLe : List Byte → Nat
  | [] => 0
  | b :: bs => b.toNat + 256 * ofLe bs

/-- The number that bytes hold, most significant first (network order, R11). -/
def ofBe (bs : List Byte) : Nat := bs.foldl (fun a b => 256 * a + b.toNat) 0

/-- The bytes of `v`, most significant first (network order, R11). -/
def beBytes (n v : Nat) : List Byte := (leBytes n v).reverse

/-- `n` bytes of a message or structure from offset `o`. -/
def slice (bs : List Byte) (o n : Nat) : List Byte := (bs.drop o).take n

/-- A little-endian field of `n` bytes at offset `o`. -/
def leAt (bs : List Byte) (o n : Nat) : Nat := ofLe (slice bs o n)

/-- A big-endian field of `n` bytes at offset `o`. -/
def beAt (bs : List Byte) (o n : Nat) : Nat := ofBe (slice bs o n)

/-- Replaces element `i` of a list; a list that is too short is unchanged. -/
def setAt {α : Type} : List α → Nat → α → List α
  | [], _, _ => []
  | _ :: xs, 0, v => v :: xs
  | x :: xs, i + 1, v => x :: setAt xs i v

/-- The integer square root of an integer that is not negative. -/
def isqrt (n : Nat) : Nat := Nat.sqrt n

/-- The floor of a rational number. -/
def ratFloor (q : Rat) : Int := q.num / (q.den : Int)

/-- A rational number rounded to the nearest integer, ties to even. -/
def ratRound (q : Rat) : Int := roundEven q.num q.den

end Sys2Proof
end

