-- ==== Sys2Proof/Machine/State.lean ====
section
/-!
DEFINITION. The state of the block, its faults and refusals, and its reset.
-/

namespace Sys2Proof.Machine

/-- A row of a register table: base address, stride and count of the outer and of the inner instances, the masks
of the bits with code RW, RWL and W1C, the Reset column, whether bits 31:24 extend the sign of bit 23, and the role
in a pair of R8 (0 none, 1 low word, 2 high word). Bits in no mask are RO, WO or reserved. -/
structure RegRow where
  base : Nat
  s1 : Nat
  n1 : Nat
  s2 : Nat
  n2 : Nat
  rw : Nat
  rwl : Nat
  w1c : Nat
  reset : Nat
  sx : Bool
  pair : Nat
  deriving DecidableEq, Repr

/-- A bit field of a register: address of the first instance, strides, lowest bit, width. -/
structure Fld where
  base : Nat
  s1 : Nat
  s2 : Nat
  lo : Nat
  w : Nat
  deriving DecidableEq, Repr

/-- What kind of thing left the module (`State.outbox` is the model's own record of its outputs). -/
inductive OutKind where
  /-- A register access completes towards its path: path, address, value. -/
  | accessDone
  /-- The sample-instant strobe (13 R322): the contact, T_s in ns. -/
  | syncOut
  /-- A staged layer goes to the standby over TWIN: its bytes (02 R29, R38). -/
  | layerToTwin
  /-- COMMIT of the staged layer, or REVERT, goes to the standby: 1 commit, 2 boundary B, 3 revert; the frame (R30, R35). -/
  | commitToTwin
  /-- A hint protocol message to the rack group leaves a port: port, UDP port, the group's 16 bytes, its bytes (10 R222, R223). -/
  | hintMulticast
  /-- A hint protocol message to one partner leaves a port: port, UDP port, the partner's identifier, then the bytes. -/
  | hintUnicast
  /-- A ledger message to the rack multicast group, to the hall group, or to one module leaves a port: port, UDP port, the group's 16
  bytes or the module's identifier, the message's bytes (12 R273). -/
  | ledgerRack
  | ledgerHall
  | ledgerUnicast
  /-- An answer to a neighbour discovery or echo packet: port, then the IPv6 packet's bytes (10 R222). -/
  | icmpAnswer
  /-- A Delay_Req leaves a port: the port (10 R234). -/
  | ptpDelayReq
  /-- The shelf's report to the rack leader (06 R127): shelf, W_DIS, W_CHG, storage current. -/
  | weightReport
  /-- A Bramble frame leaves a radio (13 R295 to R300): radio (0 RADA, 1 RADB), mode (0 fast, 1 discovery), channel in MHz, TX_DBM, the
  bytes on the air: in fast mode from the access word to the check, in discovery mode the PSDU with its check sequence. -/
  | radio
  /-- A message of the twin unit over TWIN (15): its kind, then its bytes or arguments. -/
  | twin
  /-- An MSI-X message of a vector (20 R462). -/
  | msix
  /-- A response of the management port: its bytes (20 R466). -/
  | mgmt
  /-- An answer on SMBus: its bytes (20 R465, R469). -/
  | smbus
  /-- A level of one of the module's lines: 0 TLOCK_OUT_N's claim; 1 asserted. -/
  | line
  /-- The instruction that acts at the JTAG port (19 R438, R451). -/
  | jtag
  deriving DecidableEq, Repr

/-- One thing that left the module. -/
structure Out where
  kind : OutKind
  args : List Nat
  deriving DecidableEq, Repr

/-- An event on its way to the LOG domain (18 R422): code, source, the values of its DATA in order. -/
structure LogEvent where
  code : Nat
  source : Nat
  data : List Nat
  deriving DecidableEq, Repr

/-- A register access that waits on a stopped clock domain (00_scope R10, 17 R418): `size` bytes. -/
structure Access where
  path : Nat
  isWrite : Bool
  addr : Nat
  value : Nat
  size : Nat := 4
  deriving DecidableEq, Repr

/-- Interrupt state of the endpoint (20 R462, R463): bit v of each mask is vector v. -/
structure IrqState where
  armed : Nat := 0xFFFF
  masked : Nat := 0xFFFF
  functionMask : Bool := false
  pba : Nat := 0
  holdoff : Nat := 0
  sentAt : Sparse (Option Nat) := []
  deriving DecidableEq, Repr

/-- A frame record of an image (02 R22): class, flags, target, first word, the words written. -/
structure CfgRec where
  cls : Nat
  flags : Nat
  target : Nat
  word : Nat
  words : List Nat
  deriving DecidableEq, Repr

/-- A region of a checked image: its identifier, version, flags and records (02 R21). -/
structure CfgRegion where
  region : Nat
  version : Nat
  flags : Nat
  recs : List CfgRec
  deriving DecidableEq, Repr

/-- A checked image: kind, serial, base serial, first 16 bytes of its digest, its regions (02 R20). -/
structure CfgImage where
  kind : Nat
  serial : Nat
  baseSerial : Nat
  digest : List Byte
  regions : List CfgRegion
  deriving DecidableEq, Repr

/-- The configuration loader (02). -/
structure CfgState where
  /-- The two flash image slots, as programmed (non-volatile). -/
  slot0 : List Byte := []
  slot1 : List Byte := []
  /-- The 8 MB staging buffer. -/
  staging : List Byte := []
  /-- The verified image held in the staging buffer. -/
  held : Option CfgImage := none
  /-- The slot that PROGRAM_SLOT writes. -/
  programSlot : Nat := 0
  /-- A full image runs (R26, R27). -/
  running : Bool := false
  /-- The module is in NO_IMAGE (R27). -/
  noImage : Bool := false
  /-- First 16 bytes of the running full image's digest. -/
  baseDigest : List Byte := []
  /-- The running full image came from a flash slot (R26), not from STAGE and COMMIT in NO_IMAGE. -/
  fromSlot : Bool := true
  /-- The regions in their active planes. -/
  active : List CfgRegion := []
  /-- The regions whose writes are locked from COMMIT to B (R34). -/
  locked : List Nat := []
  /-- The first frame boundary at least 64 frames after COMMIT. -/
  earliest : Nat := 0
  /-- Inactive planes written and read back: own, twin's. -/
  ownWritten : Bool := false
  twinWritten : Bool := false
  /-- The switch boundary B, once fixed (R30). -/
  boundary : Option Nat := none
  /-- The old planes REVERT goes back to (R35): the regions and their register words. -/
  oldRegions : List CfgRegion := []
  oldWords : Sparse Word := []
  canRevert : Bool := false
  /-- The new words of lanes that wait for their period start (R31), by lane. -/
  lanePlanes : Sparse (List (Nat × Nat)) := []
  /-- A switch was made and SWITCHED shows at a later frame boundary (R31). -/
  switching : Bool := false
  deriving DecidableEq, Repr

/-- A filter tile (03 R52 to R57). Samples are values with four flags: 1 INVALID, 2 STALE, 4 NOTCH, 8 SAT. -/
structure FtState where
  /-- Input samples of the present window, newest first. -/
  hist : List (Int × Nat) := []
  /-- Sinc outputs held for the FIR stage, newest first. -/
  fir : List (Int × Nat) := []
  /-- Sinc outputs since the start. -/
  count : Nat := 0
  /-- Instant of the last kept trigger event, in 62.5 ps steps. -/
  last : Option Nat := none
  /-- The last sample published, the last one without INVALID and STALE, and the window end of the former in ns. -/
  out : Option (Int × Nat) := none
  valid : Option (Int × Nat) := none
  endNs : Nat := 0
  /-- Sample instant and due instant of the last sample published, in 62.5 ps steps (04 R71, R82). -/
  stamp : Option (Nat × Nat) := none
  /-- Input samples of the limit comparator, newest first, and its signals. -/
  cmp : List Int := []
  high : Bool := false
  low : Bool := false
  /-- Restarted at a boundary B and not yet published (R33). -/
  restarted : Bool := false
  deriving DecidableEq, Repr

/-- Sense ingress (03). -/
structure SnsState where
  ft : Sparse FtState := []
  /-- DS channels whose STUCK or CLK_LOSS condition holds now, by bit. -/
  stuck : Nat := 0
  loss : Nat := 0
  /-- Clock groups without an arriving clock, by bit. -/
  noClock : Nat := 0
  /-- AD channels converting, by bit; instant of the last kept event; last sample. -/
  adBusy : Nat := 0
  adLast : Sparse Nat := []
  adOut : Sparse (Int × Nat) := []
  /-- Sample instant and due instant of the last conversion of an AD channel (R59, 04 R82). -/
  adStamp : Sparse (Nat × Nat) := []
  /-- The 72-bit accumulators and the remainders carried (R61). -/
  ccAcc : Sparse Int := []
  ccRem : Sparse Nat := []
  /-- CFG, UGAIN, UOFF and COND of the block under way (R67). -/
  ccCal : Sparse (List Nat) := []
  /-- CC channels whose next block holds T_s, by bit (R70). -/
  packWait : Nat := 0
  /-- Samples of the PACK-triggered tiles (0 to 47) and AD channels (64 + k) of the present sweep (R70). -/
  packRec : Sparse (Int × Nat) := []
  /-- T_s of the present sweep, ns of module time (R68), and its notch length in 62.5 ns (0 for none). -/
  ts : Option Nat := none
  notchLen : Nat := 0
  /-- The notch of the present sweep was deferred (R44). -/
  deferred : Bool := false
  /-- Blocks of a CC channel in the second under way with the sum of their currents in mA, and the sum of the last full second (17 R408). -/
  ccSecond : Sparse (Nat × Int) := []
  ccMean : Sparse Int := []
  deriving DecidableEq, Repr

/-- What a loop tile holds beside its registers (04 R71 to R91). -/
structure LtTile where
  /-- ENABLE is in force and the tile computes. -/
  run : Bool := false
  /-- The first MEAS sample without INVALID has not come (R89). -/
  waiting : Bool := false
  /-- Bumpless load at the next sample (R88): 0 none, 1 to LT_INIT_OUT, 2 to the last output, 3 to `loadU` (R109). -/
  load : Nat := 0
  loadU : Int := 0
  /-- Last values of FF0 and FF1 without INVALID (R84). -/
  ff0 : Int := 0
  ff1 : Int := 0
  /-- A residue mismatch is armed for the next sample (R79). -/
  armed : Bool := false
  /-- Sample instant and due instant of the last sample published, in 62.5 ps steps (R71, R82). -/
  stamp : Option (Nat × Nat) := none
  /-- Due instant of the latest sample that completed or was missed (R82). -/
  settled : Option Nat := none
  /-- In loop fault, and held out of work by forbidden sources as well (R84): ENABLE reads 0 and was not written; `zero`: a 0 has been
  written to it since the last boundary (R80). -/
  cut : Bool := false
  zero : Bool := false
  deriving DecidableEq, Repr

/-- The Quickset fabric (04). -/
structure LtState where
  tile : Sparse LtTile := []
  /-- Instant at which each logic tile entered its present state, in 62.5 ps steps (R93). -/
  lgSince : Sparse Nat := []
  /-- Instants of the latest changes of each logic-tile signal, newest first, in steps (R87). -/
  lgEdges : Sparse (List Nat) := []
  /-- Instant at which each running timer reaches zero, in steps (R96). -/
  tmrDue : Sparse Nat := []
  /-- Loop faults of the last millisecond that the lock was held through: tile and instant in steps (R81). -/
  faults : List (Nat × Nat) := []
  deriving DecidableEq, Repr

/-- The gate pulse of a period of a lane (05 R99): its start, length, on-time and dead times, and by how much a notch moves its rise, its
fall and the rise that ends it (R117). Instants and lengths in 62.5 ps steps of module time. -/
structure Pulse where
  start : Nat
  per : Nat
  on : Nat
  dtLh : Nat
  dtHl : Nat
  rise : Int := 0
  fall : Int := 0
  next : Int := 0
  deriving DecidableEq, Repr

/-- A PWM lane (05), beside its registers; PWM_LANE_STAT.STATE is its state. -/
structure LaneState where
  /-- Outputs u its tile handed it and their instants, oldest first (R74, R101). -/
  handed : List (Int × Nat) := []
  /-- Origin of the period grid, once there is one (R102), and the period. -/
  grid : Option Nat := none
  per : Nat := 160000
  /-- The grid is the converter's (else the lane is standalone). -/
  phase : Bool := false
  /-- The on-time given last, before the clamp, and the one applied last, after it (R100, R109). -/
  on : Nat := 0
  applied : Nat := 0
  /-- Start of the present period. -/
  last : Option Nat := none
  /-- The lane leaves at its next period start (R102, R106), and its grid with it. -/
  stop : Bool := false
  leave : Bool := false
  /-- Enabled again while it leaves: the boundary from which its new grid runs (R102). -/
  again : Option Nat := none
  /-- Instant of the shed commit that takes the lane at its next start (R108). -/
  shedAt : Option Nat := none
  /-- Earliest instant of the period start at which the lane restarts as a re-add (R109); `own`: with its own last
  on-time; `waitP0`: at the next period start of phase 0 (R114). -/
  readd : Option Nat := none
  own : Bool := false
  waitP0 : Bool := false
  /-- A layer restarts the converter (R103): boundary B. -/
  restart : Option Nat := none
  /-- Held IDLE by settings that R100 forbids. -/
  bad : Bool := false
  /-- The pulse of the present period, none while both outputs are OFF, and that of the period before, whose last edges a notch may have
  moved into the present one. -/
  pulse : Option Pulse := none
  prev : Option Pulse := none
  /-- The latest periods in which the lane gives trigger events, newest first: their starts, and the midpoints of their on-times (03 R54). -/
  events : List (Nat × Nat) := []
  deriving DecidableEq, Repr

/-- A converter (05): it runs, t_b, the instants of the shed steps committed and not re-added, oldest first, the
instant of the last shed commit, of the pending shed request, and the pending re-adds with the instants of their requests or causes. -/
structure ConvState where
  run : Bool := false
  tb : Nat := 0
  sheds : List Nat := []
  lastShed : Option Nat := none
  reqAt : Nat := 0
  asks : List (Nat × Nat) := []
  deriving DecidableEq, Repr

/-- The PWM engine (05). -/
structure PwmState where
  lane : Sparse LaneState := []
  conv : Sparse ConvState := []
  /-- The notch that the present sweep asks for and that has not opened, and the open notch: opening and scheduled closing, in steps
  (03 R69, R117). -/
  plan : Option (Nat × Nat) := none
  notch : Option (Nat × Nat) := none
  /-- The last notch that opened: its opening, and where it closed or is to close. -/
  notchSpan : Option (Nat × Nat) := none
  /-- The shift of a lane with two transitions in the notch. -/
  notchShift : Sparse Int := []
  /-- Contactor masks that tripped groups are about to open and the instants at which they do, in steps (R115), by group. -/
  opening : Sparse (Nat × Nat) := []
  deriving DecidableEq, Repr

/-- A rack entry (06 R118, 12 R278): commit index, effective frame, M, T_E in mA, SLOPE in mA per frame as signed Q16.16,
ceiling current and EXCESS in mA, the leader's settings, and of each shelf its number, W_DIS and W_CHG in Wh. -/
structure RackEntry where
  idx : Nat
  e : Nat
  mean : Int
  te : Int
  slope : Int
  ceil : Nat
  excess : Nat
  ramp : Nat
  targetCfg : Nat
  shelves : List (Nat × Nat × Nat)
  deriving DecidableEq, Repr

/-- A forecast lane record (07 R174): points are contribution in 0.1 A and confidence; MEAN in mA. -/
structure LaneRec where
  job : Nat
  flags : Nat
  mean : Int
  period : Nat
  base : Nat
  model : Nat
  near : List (Int × Nat)
  far : List (Int × Nat)
  part : Nat
  deriving DecidableEq, Repr

/-- A forecast lane as Windbreak sees it (06 R129 to R133). -/
structure WbLane where
  /-- The active record, and the one staged for the next forecast boundary (07 R175). -/
  active : Option LaneRec := none
  staged : Option LaneRec := none
  /-- Forecast boundaries since the last publication, and ABSENT for want of one (R132). -/
  missed : Nat := 0
  silent : Bool := false
  /-- Demoted, and the last 16 scores, newest first, true for a HIT (R133). -/
  demoted : Bool := false
  scores : List Bool := []
  /-- The deviation used in each of the last frames, newest first, in mA (R130), and the frame up to which its steps are scored. -/
  used : List Rat := []
  scored : Nat := 0
  deriving DecidableEq, Repr

/-- What a shelf reports for the next entry (06 R127, R125): weights in Wh, mean bus-side storage current in mA, nominal
and estimated energy in Wh of its strings of known energy (one that is UNKNOWN adds SOC_SET of its nominal energy to both sums of
R125, which changes no trim), and the grant intervals since. -/
structure ShelfReport where
  shelf : Nat
  wDis : Nat
  wChg : Nat
  current : Int
  eNom : Nat
  eNow : Int
  age : Nat
  deriving DecidableEq, Repr

/-- What Windbreak computed in a frame and applies at the next boundary (06 R121, R123, R124). -/
structure WbOut where
  mode : Nat
  tot : Rat
  ff : Rat
  step : Nat
  dir : Nat
  refs : List Int
  ffs : List Int
  deriving DecidableEq, Repr

/-- Windbreak (06). Powers in W, currents in mA. -/
structure WbState where
  /-- The reference and feed-forward words 0 to 31 in force (24-bit signed). -/
  refWord : Sparse Int := []
  ffWord : Sparse Int := []
  lane : Sparse WbLane := []
  entry : Option RackEntry := none
  /-- Committed entries that wait for their effective frame, oldest first. -/
  queue : List RackEntry := []
  /-- Frame at which the last new entry was applied (R120). -/
  entryFrame : Nat := 0
  /-- X in mA, and the last P_TOT and P_FF (R128). -/
  x : Rat := 0
  tot : Rat := 0
  ff : Rat := 0
  /-- P_TOT in force, in W (R121). -/
  force : Rat := 0
  out : Option WbOut := none
  wasHold : Bool := true
  /-- Frames in a row without a good feed sample, and with one; the last good sample (R122). -/
  bad : Nat := 0
  good : Nat := 0
  feed : Int := 0
  /-- A limit acted within the last 100 frames (R134), and frames since one did. -/
  reserve : Bool := false
  free : Nat := 0
  /-- Frames with EXCESS at zero since it was last above (R137). -/
  calm : Nat := 0
  /-- |I_feed - T| of the latest 2,000 frames, newest first (R138). -/
  devs : List Nat := []
  /-- The feed in mA summed over the frames of the present grant interval, and their number; bus voltage likewise. -/
  loadSum : Int := 0
  busSum : Int := 0
  frames : Nat := 0
  /-- Means of L over past grant intervals, newest first; the shelf's own storage current summed over the frames it was computed in. -/
  loads : List Int := []
  ownSum : Int := 0
  ownFrames : Nat := 0
  /-- L of each of the last frames, newest first, in mA (R133). -/
  frameLoads : List Int := []
  reports : List ShelfReport := []
  /-- The bus voltage used last, mV. -/
  bus : Int := 800000
  deriving DecidableEq, Repr

/-- What a Thicket core does (07 R144, R155, R168): not started or halted, executes, ended as DONE, halted for the
debugger, or stands at an exception that CORE_FAULT takes. -/
inductive CoreRun where
  | off
  | running
  | done
  | debug
  | fault (kind cause : Nat)
  deriving DecidableEq, Repr

/-- What a core waits for (07 R151, R152, R156, R159). -/
inductive WaitFor where
  | send
  | recv
  | wait
  | barrier
  | dma
  deriving DecidableEq, Repr

/-- A waiting instruction: its endpoint, mask, barrier or tag; its destination register; for a send the payload's
local address and length; the module time at which it gives up, in 10 ns, if it does. -/
structure CoreWait where
  what : WaitFor
  arg : Nat
  rd : Nat
  src : Nat := 0
  len : Nat := 0
  expire : Option Nat := none
  deriving DecidableEq, Repr

/-- A message on its way: payload, logical sender, sequence number (07 R150). -/
structure ChanMsg where
  payload : List Byte
  src : Nat
  seq : Nat
  deriving DecidableEq, Repr

/-- A receive ring (07 R150, R152): its offset in local memory, SLOTS, SLOT_LOG2; messages arrived, returned by
th.recv, and released; messages in flight, oldest first; the sender's core and send endpoint. -/
structure Ring where
  base : Nat := 0
  slots : Nat := 0
  log2 : Nat := 0
  arrived : Nat := 0
  taken : Nat := 0
  freed : Nat := 0
  flight : List ChanMsg := []
  srcCore : Option (Nat × Nat) := none
  deriving DecidableEq, Repr

/-- A send endpoint (07 R150): receiving core and endpoint, SLOT_LOG2, credits, credits on their way back, and the
sequence number of the next message. -/
structure SendEnd where
  core : Nat := 0
  ch : Nat := 0
  log2 : Nat := 0
  credits : Nat := 0
  back : Nat := 0
  seq : Nat := 0
  deriving DecidableEq, Repr

/-- A transfer under a tag (07 R158, R159): the descriptor, the outcome of the Hub's check, its place in the order of
issue, whether it is complete, and, for a READ of a slot that has become inactive, the blocks as they were then, none for a poisoned
one (08 R196). -/
structure Dma where
  stack : Nat
  localAddr : Nat
  len : Nat
  write : Bool
  rows : Nat
  stackStride : Nat
  localStride : Nat
  code : Nat
  order : Nat
  complete : Bool := false
  kept : List (Option (List Byte)) := []
  deriving DecidableEq, Repr

/-- A Thicket core (07, 08): integer and float registers, fcsr, the CSRs of R145, instructions retired, the
reservation of lr, local memory by offset, its poisoned 32-byte words, the accumulator tiles (element 256 t + 16 i + j),
its endpoints, transfers by tag, and the lowest ring offset. -/
structure CoreState where
  run : CoreRun := .off
  pc : Nat := 0
  x : Sparse Nat := []
  f : Sparse Nat := []
  fcsr : Nat := 0
  tfmt : Nat := 0
  cvtN : Nat := 32
  rng : Nat := 0
  sendto : Nat := 0
  ecc : Nat := 0
  instret : Nat := 0
  resv : Option (Nat × Nat) := none
  wait : Option CoreWait := none
  mem : Sparse Byte := []
  bad : Sparse Bool := []
  tile : Sparse Nat := []
  top : Nat := 0x80000
  ring : Sparse Ring := []
  send : Sparse SendEnd := []
  dma : Sparse (Option Dma) := []
  deriving DecidableEq, Repr

/-- A channel table entry (07 R165). -/
structure Chan where
  srcCore : Nat
  srcCh : Nat
  dstCh : Nat
  dstCore : Nat
  slots : Nat
  log2 : Nat
  deriving DecidableEq, Repr

/-- A checked program image (07 R164): entry offset, code, data, channel and barrier tables, flags, signed digest. -/
structure Prog where
  entry : Nat
  code : List Byte
  data : List Byte
  chans : List Chan
  bars : List Nat
  forecast : Bool
  boundary : Bool
  digest : List Byte
  deriving DecidableEq, Repr

/-- A partition (07): its configuration words in force since LOAD, the kept program, the outcome of a load under way
(code, program), a start that waits for a forecast boundary, the end of a stop under way in FAULTED or in a reload by a layer (R173), the restart that
AUTO_RESTART owes and its earliest instant, the instants of the automatic restarts of the last 10 minutes, the members
waiting at each barrier, the slot selections staged (slot by model), th_slot, and the boundary messages since START. -/
structure PartState where
  words : List Nat := []
  prog : Option Prog := none
  load : Option (Nat × Option Prog) := none
  start : Bool := false
  faulting : Bool := false
  reload : Bool := false
  restartAt : Option Nat := none
  restarts : List Nat := []
  arrive : Sparse (List Nat) := []
  sel : Sparse (Option Nat) := []
  slot : Nat := 0
  bseq : Nat := 0
  deriving DecidableEq, Repr

/-- The Thicket array (07, 08): cores by physical number, partitions, transfers issued so far, the order reached when
a model slot last became inactive (by 32 p + 2 m + slot), the instant and core of the record staged for each lane,
hint records written since the last forecast boundary, the number of its frame as CSR fcbound holds it, and its frame once there
was one. -/
structure ThState where
  core : Sparse CoreState := []
  part : Sparse PartState := []
  issued : Nat := 0
  slotOff : Sparse Nat := []
  pubBy : Sparse (Nat × Nat) := []
  hints : Nat := 0
  fcbound : Nat := 0
  fcAt : Option Nat := none
  deriving DecidableEq, Repr

/-- A context descriptor (09 R203); times in units of 10 ns. -/
structure Desc where
  kind : Nat := 0
  pinned : Bool := false
  poisoned : Bool := false
  wiping : Bool := false
  parent : Nat := 0xFFFF
  gen : Nat := 0
  key : Nat := 0
  count0 : Nat := 0
  count1 : Nat := 0
  count2 : Nat := 0
  lastTime : Nat := 0
  created : Nat := 0
  poisonCnt : Nat := 0
  children : Nat := 0
  lastSeq : Nat := 0
  seqGaps : Nat := 0
  members : Nat := 0
  lane : Nat := 0xFF
  part : Nat := 0xFF
  eModel : Nat := 0
  eMeas : Nat := 0
  deriving DecidableEq, Repr

/-- A record that waits for a context's wipe (09 R208): ring, and its 64 bytes but for INDEX. -/
structure HeldRec where
  ring : Nat
  now : Nat
  bytes : List Byte
  deriving DecidableEq, Repr

/-- A sample on its way into a capture ring (09 R211): module time in 10 ns, word, and whether its block ends with it. -/
structure CapSample where
  time : Nat
  word : Nat
  cut : Bool
  deriving DecidableEq, Repr

/-- The context engine, the capture rings and the scrubber (09). -/
structure CtxState where
  desc : Sparse Desc := []
  /-- What messages leave for the descriptor of a context that waits on its wipe: LAST_SEQ, SEQ_GAPS, energies (R203, R208); and the
  parent, by context, that a context is to name once both are there. -/
  pend : Sparse Desc := []
  want : Sparse Nat := []
  /-- The kind and key whose allocation waits on the wipe of a context, with the records held for it (R208). -/
  waitFor : Sparse (Nat × Nat) := []
  held : Sparse (List HeldRec) := []
  /-- Samples not yet written, by ring, oldest first; blocks still to record after a trigger. -/
  cap : Sparse (List CapSample) := []
  post : Sparse Nat := []
  /-- BASE and SIZE with which a ring was enabled (R210). -/
  span : Sparse (Nat × Nat) := []
  /-- Rings whose TRIG_SIG has risen and whose trigger is still to come, by bit (R213). -/
  trig : Nat := 0
  /-- Next block the scrubber reads. -/
  scrub : Nat := 0
  deriving DecidableEq, Repr

/-- A TELEM accepted in a grant interval not yet attributed (10 R228, 11 R264): record TIME in 10 ns, job, clock in MHz,
power in mW, energy total in mJ. -/
structure Telem where
  time : Nat
  job : Nat
  freq : Nat
  power : Nat
  energy : Nat
  deriving DecidableEq, Repr

/-- An ACTIVITY of an interval not yet attributed (10 R229, 11 R265). -/
structure Activity where
  time : Nat
  job : Nat
  account : Nat
  compute : Nat
  memory : Nat
  link : Nat
  deriving DecidableEq, Repr

/-- A partner (10 R231 to R245) beside its table entry: identity from its ANNOUNCE; the next message is the first under
R232; LAST_SEQ and the sequence numbers accepted at and below it with the ns and the port of their acceptance; last accepted message
and start of SILENT, ns; token buckets by TYPE (10^-9 tokens, ns); and for Coppice (11) the job and FREQ of its latest TELEM,
the job it has sent END for, its messages not yet attributed, E_TOTAL of its latest attributed TELEM, and the model shares of its latest attributed
interval with ACTIVITY (account, µJ × 10^3). Last the JOB of its latest ANNOUNCE (10 R238). -/
structure Partner where
  id : Nat := 0
  rack : Nat := 0
  shelf : Nat := 0
  incarnation : Nat := 0
  fMin : Nat := 0
  fMax : Nat := 0
  account : Nat := 0
  addr : List Byte := []
  first : Bool := true
  lastSeq : Nat := 0
  got : List (Nat × Nat × Nat) := []
  heard : Nat := 0
  silentAt : Nat := 0
  bucket : Sparse (Option (Nat × Nat)) := []
  job : Option Nat := none
  freq : Nat := 0
  ended : Option Nat := none
  telems : List Telem := []
  acts : List Activity := []
  eBase : Option Nat := none
  shares : List (Nat × Nat) := []
  saysJob : Nat := 0
  deriving DecidableEq, Repr

/-- The partner network (10): partners by table entry, the instant of the module's own pending ANNOUNCE, its next SEQ
and its INCARNATION, the instant of LISTEN, the buckets of the ports for senders not admitted, the instants of the last
unicast DISCOVER by sender; PTP: instants of the last Sync and of HOLDOVER, Sync messages in a row beyond ±500 ns, the
frame counter waits to be set (17 R414), and the UTC offset of the master's Announce in s (18 R422). Frames that each port's MAC
discarded (R221); messages of senders not admitted heard within 1 ms: identifier, number, port, instant (R223); whether the module's
own JOINING has gone out (R239); the latest Announce on each port with its instant, the mean path delay of each port in ns and the
instant of the last Delay_Req (R234). -/
structure HntState where
  pt : Sparse Partner := []
  annAt : Option Nat := none
  seq : Nat := 0
  incarnation : Nat := 0
  listenAt : Nat := 0
  bucket : Sparse (Option (Nat × Nat)) := []
  discAt : Sparse Nat := []
  lastSync : Nat := 0
  holdAt : Nat := 0
  badRun : Nat := 0
  counterDue : Bool := false
  utcOff : Nat := 0
  macDrops : Sparse Nat := []
  heardBy : List (Nat × Nat × Nat × Nat) := []
  joined : Bool := false
  foreign : Sparse (Option (PtpAnn × Nat)) := []
  pathDelay : Sparse Int := []
  delayAt : Option Nat := none
  netSince : Nat := 0
  deriving DecidableEq, Repr

/-- A ledger entry (12 R277). -/
structure LdgEntry where
  index : Nat
  term : Nat
  etype : Nat
  group : Nat
  frame : Nat
  payload : List Byte
  deriving DecidableEq, Repr

/-- A member of a ledger group (12 R270, R277): role 1 LEARNER, 2 VOICE, 3 SEAT, 4 ARBITER_SEAT;
`idx` is the index of the entry that added it. -/
structure LdgMember where
  id : Nat
  incarnation : Nat
  role : Nat
  shelf : Nat
  rack : Nat
  idx : Nat := 0
  deriving DecidableEq, Repr

/-- Whether a member follows, stands for election or leads (12 R275). -/
inductive LdgRole where
  | follower
  | candidate
  | leader
  deriving DecidableEq, Repr

/-- What the module holds of a ledger group (12): it is a member; formation epoch, term, vote, votes received; the log
from `base` (index and term of the last entry discarded), commit and applied indexes; when the last APPEND was accepted
and whether it carried STEP_DOWN; when the election time passes; the membership and the latest entry of each applied
type; of each member its MATCH, the SENT it acknowledged and when; index of the leader's NOOP; SENT of the lease; parts
of a long entry received; instants of proposals and who proposed what by PROPOSE; sender, SENT and PART of the APPEND taken
last; members that wait for STATE; and, while joining, answers by module and since when, and modules heard in the group; while there is
no leader: since when, voices heard with a new incarnation, and (LAST_TERM, LAST_INDEX, module) of the greatest log heard of;
last the instant of the latest JOIN. -/
structure LdgGroup where
  member : Bool := false
  epoch : Nat := 0
  term : Nat := 0
  role : LdgRole := .follower
  leader : Option Nat := none
  voted : Option Nat := none
  votes : List Nat := []
  log : List LdgEntry := []
  base : Nat × Nat := (0, 0)
  commit : Nat := 0
  applied : Nat := 0
  heard : Option Nat := none
  stepHeard : Bool := false
  expire : Option Nat := none
  members : List LdgMember := []
  latest : Sparse LdgEntry := []
  acks : Sparse (Nat × Nat × Nat) := []
  noop : Nat := 0
  lease : Option Nat := none
  stepping : Bool := false
  parts : List (List Byte) := []
  proposed : Sparse Nat := []
  proposers : Sparse Nat := []
  seen : Option (Nat × Nat × Nat) := none
  answers : Sparse (Nat × Nat) := []
  joinSince : Option Nat := none
  peers : List Nat := []
  noLeader : Option Nat := none
  restarted : List Nat := []
  best : Nat × Nat × Nat := (0, 0, 0)
  joinAt : Option Nat := none
  deriving DecidableEq, Repr

/-- A SYNC under way (12 R284): path, group, its nonce, its read index once known, the end of its timeout, and for a
leader without a lease the SENT of the heartbeat that is to be acknowledged. -/
structure SyncReq where
  path : Nat
  group : Nat
  nonce : Nat
  index : Option Nat
  until_ : Nat
  sent : Option Nat
  from_ : Option Nat := none
  deriving DecidableEq, Repr

/-- A CLAIM that an arbiter holds (12 R290, 15 R369): sender, cause, the path states it saw, its instant. -/
structure ClaimRec where
  sender : Nat
  cause : Nat
  stake : Nat
  binder : Nat
  at_ : Nat
  deriving DecidableEq, Repr

/-- The ledger (12): rack and hall groups, committed voice generation and holder by shelf, SYNCs under way and their
nonces, claims by shelf with the window not yet decided, shelves whose DECIDE has been seen since their first claim, and the
committed rack term of each seat; a DECIDE took the module's voice and its VOICE entry is not committed yet; the arbiter
shelves, primary and deputy, of the ARBITER entry in force (R281, R289). -/
structure LdgState where
  rack : LdgGroup := {}
  hall : LdgGroup := {}
  gen : Sparse Nat := []
  holder : Sparse Nat := []
  syncs : List SyncReq := []
  nonce : Nat := 0
  claims : Sparse (List ClaimRec) := []
  decided : Sparse Nat := []
  seatTerm : Sparse Nat := []
  voiceLost : Bool := false
  arb : Option (Nat × Nat) := none
  deriving DecidableEq, Repr

/-- A job of Coppice's table (11 R253 to R259): identifier, packages, grant in force, floor, cap, priority, RANGE; the
thermal-lag limit and grant intervals since a LIMIT report; grant boundaries since a package named it; HELD; ORDER; the
last grant carried a step; S_j in W/MHz; the job's power in mW and grant of past intervals, newest first; grant
intervals since its grant last changed, and the change under measurement (grant and mean before it). -/
structure JobSlot where
  job : Nat
  n : Nat := 0
  freq : Nat := 0
  floor : Nat := 0
  cap : Nat := 0
  prio : Nat := 4
  range : Bool := false
  limit : Option Nat := none
  quiet : Nat := 0
  unnamed : Nat := 0
  held : Bool := false
  order : Nat := 6
  stepped : Bool := false
  sens : Rat := 0
  /-- No grant of the job has been in force since it entered; S_j has been measured. -/
  fresh : Bool := true
  tuned : Bool := false
  hist : List (Nat × Nat) := []
  still : Nat := 0
  change : Option (Nat × Option Rat) := none
  deriving DecidableEq, Repr

/-- A contract table (11 R248): its commit index, P_H and per rack its number, C_r and X_r, in 0.1 kW. -/
structure Contract where
  idx : Nat
  hall : Nat
  racks : List (Nat × Nat × Nat)
  deriving DecidableEq, Repr

/-- A hall entry (11 R250): its index, EFF, EXPIRY, and per rack its number, K_r and loan in 0.1 kW. -/
structure HallEntry where
  idx : Nat
  eff : Nat
  expiry : Nat
  racks : List (Nat × Nat × Int)
  deriving DecidableEq, Repr

/-- A rack report as the hall group holds it (11 R249): rack, flags, M_r, M_PEAK_r, EXCESS in 0.1 kW, and the frame at
which its entry was appended. -/
structure RackReport where
  rack : Nat
  flags : Nat
  mean : Nat
  peak : Nat
  excess : Nat
  frame : Nat
  deriving DecidableEq, Repr

/-- A ceiling that waits (11 R251): the value, and the frame from which it applies. -/
structure Ceiling where
  value : Nat
  frame : Nat
  deriving DecidableEq, Repr

/-- Coppice (11): the job table by slot; jobs that wait for room, in order of their first naming (boundary, job,
packages); contract and hall entries in force and those that wait; C_r, X_r and K_r in force; K_r changes that wait;
the latest reports of the racks; M_r of past grant intervals in 0.1 kW by frame, newest first, without those a later one exceeds; commit index and frame of the last grant entry;
a grant entry proposed and not committed (frame); grant intervals since a grant was lowered and since a step; grant
intervals without OVER_CEILING; intervals outside and inside the band of R268; the payload of a CONTRACT_SET that is pending. -/
structure CpcState where
  jobs : Sparse JobSlot := []
  waiting : List (Nat × Nat × Nat) := []
  contract : Option Contract := none
  nextContract : Option Contract := none
  hallEntry : Option HallEntry := none
  queued : List HallEntry := []
  ceilings : List Ceiling := []
  reports : List RackReport := []
  peaks : List (Nat × Nat) := []
  grantFrame : Nat := 0
  grantAt : Option Nat := none
  pendingGrant : Option Nat := none
  sinceLower : Nat := 1000000
  sinceStep : Nat := 1000000
  calm : Nat := 0
  outside : Nat := 0
  inside : Nat := 0
  setPay : Option (List Byte) := none
  deriving DecidableEq, Repr

/-- SNAP (12 R292 to R294): the capture's boundary once known, whether its source waits, the values collected with
their STOPPED and STALE marks. -/
structure SnapState where
  boundary : Option Nat := none
  values : List (Word × Bool × Bool) := []
  rackIdx : Nat := 0
  hallIdx : Nat := 0
  deriving DecidableEq, Repr

/-- A REPORT taken in a sweep (13 R308): its radio, whether in a completion pass, the record's 44 bytes. -/
structure NodeRec where
  radio : Nat
  completed : Bool
  bytes : List Byte
  deriving DecidableEq, Repr

/-- A BALANCE not yet acknowledged (13 R310): mask of cells, seconds by cell, times sent. -/
structure BalSend where
  mask : Nat
  durs : List Nat
  sent : Nat := 0
  deriving DecidableEq, Repr

/-- A challenge under way (14 R345): position, nonce, times sent, instant of sending in ns. -/
structure AuthRun where
  pos : Nat
  nonce : List Byte
  tries : Nat
  sentAt : Nat
  deriving DecidableEq, Repr

/-- A step of an enumeration (13 R302, R303): side (0 the head by RADA, 1 the tail by RADB), position, identifier named,
times sent, instant of sending, SLOTS of the ENUM_OPEN whose answers are awaited (0 for an ENUM) and its answers (RSSI,
identifier). -/
structure EnumStep where
  side : Nat
  pos : Nat
  target : Nat
  tries : Nat := 1
  sentAt : Nat := 0
  slots : Nat := 0
  answers : List (Int × Nat) := []
  deriving DecidableEq, Repr

/-- Bramble (13): the step under way; sides that stopped, that began, and whose first step failed, by bit; positions are
enumerated as held (after WAKE); steps so far; the segment being re-enumerated; sides that still take a step in the
present gap, the side of the next gap's first step, and the gap's end in ns; authentication has followed enumeration;
a sweep is in progress and its primary passes are over; its P in ns; frame of the next P; DISC_AT was set in it;
records taken by position; SNS_SI_CFG and PKL_SWEEP_CFG in force; T_s (ns) of each position's voltages; sweeps in a row with
BLEED_STUCK; balancing: sends pending, sweeps since a decision; the challenge under way and the positions that wait; DISC_AT of the sweep in
ms, and the end of its passes in ns; the frames at which the timers of a position's cells run out, zero where the module does not know it. -/
structure PklState where
  step : Option EnumStep := none
  stopped : Nat := 0
  began : Nat := 0
  firstMiss : Nat := 0
  held : Bool := false
  stepNo : Nat := 0
  segment : Option (Nat × Nat) := none
  gapSides : List Nat := []
  turn : Nat := 0
  gapEnd : Nat := 0
  ready : Bool := false
  sweep : Bool := false
  passDone : Bool := false
  p : Nat := 0
  nextP : Nat := 0
  disc : Bool := false
  recs : Sparse (Option NodeRec) := []
  si : Nat := 0
  sc : Nat := 0
  ts : Sparse (Option Nat) := []
  stuck : Sparse Nat := []
  bal : Sparse (Option BalSend) := []
  balCount : Nat := 0
  auth : Option AuthRun := none
  authQ : List Nat := []
  discAt : Nat := 0xFFFF
  closeAt : Nat := 0
  bleed : Sparse (List Nat) := []
  deriving DecidableEq, Repr

/-- A string of the estimator (14). Charges in 2^-24 C, times in ns of the estimator's clock: Q; ACC_PREV; Q and
uncertainty at the reference and its time; the anchor's time and the age it began with in s (after a restore); the record
gave ANCHOR_KIND; capacity learned, and the CAP of a restored record, in mC (0 for none), UTC of the learning in µs, learnings; discharge over life and the charge counted since
reset; an anchor was set since reset; last valid voltage of each cell (100 µV) and its T_s (ns of module time); a sweep
closed; I_TS in mA; since when BLIND and TEMP_LOST's want of a temperature last; a walk is wanted, and when it began; a
learning discharge is armed (1) or runs (2), its start, the charge D and the charge taken in; |I| in mA by frame of the
last second, without those a later one exceeds; limits of the last sweep close in A. -/
structure EstString where
  q : Int := 0
  prev : Int := 0
  qRef : Int := 0
  uncRef : Nat := 0
  refAt : Nat := 0
  anchorAt : Nat := 0
  ageBase : Nat := 0
  kind : Nat := 0
  learned : Nat := 0
  cap : Nat := 0
  learnTime : Nat := 0
  learns : Nat := 0
  through : Nat := 0
  counted : Int := 0
  anchored : Bool := false
  cells : Sparse (Option (Nat × Nat)) := []
  swept : Bool := false
  iTs : Int := 0
  blindAt : Option Nat := none
  coldAt : Option Nat := none
  walkReq : Bool := false
  walkAt : Option Nat := none
  learn : Nat := 0
  learnAt : Nat := 0
  learnD : Int := 0
  learnIn : Int := 0
  peak : List (Nat × Nat) := []
  dis : Nat := 0
  chg : Nat := 0
  deriving DecidableEq, Repr

/-- The estimator (14): its strings, its clock in ns and the module time of its last frame; SEQ of the records; a restore waits
(its FORCE bit and the clock at RESTORE); the clock at which the present ship step began, and whether SLEEP was sent; the clock of the last authentication of every position (R346). -/
structure EstState where
  str : Sparse EstString := []
  clock : Nat := 0
  last : Nat := 0
  seq : Nat := 0
  restore : Option (Bool × Nat) := none
  shipAt : Nat := 0
  slept : Bool := false
  authAt : Nat := 0
  deriving DecidableEq, Repr

/-- Key slots, fuses and life-cycle changes (19): keys of V0 to V7 and S0 to S15; fused words of SEC_SLOT by index (V0 to V7,
then S0 to S15); the thermometer field LC_COUNT and the RETIRED fuse; the words of IMG_MIN and FW_MIN in order; the agreement
key's seed; the nonce in force and its instant in ns; a change under way: its target and the firmware that travels with it;
loaded keys that take their slot at the next frame boundary (key, uses); the firmware in the two copies in flash (none: erased);
the fused BOOTSEQ override (0 none, 1 FAST, 2 SEQUENCED); the fuse regions that failed their last check, by bit; a change is being
resumed at start-up. -/
structure SecState where
  vkey : Sparse (List Byte) := []
  skey : Sparse (List Byte) := []
  fused : Sparse Nat := []
  lcCount : Nat := 0
  retired : Bool := false
  minImg : List Nat := []
  minFw : List Nat := []
  seed : List Byte := []
  nonce : Option (List Byte × Nat) := none
  change : Option (Nat × List Byte) := none
  loads : Sparse (Option (List Byte × Nat)) := []
  firmware : Option (List Byte) := some []
  bootFuse : Nat := 0
  bad : Nat := 0
  resumed : Bool := false
  deriving DecidableEq, Repr

/-- A sample that a module without the lock keeps for its replay (15 R359): the tile, the instant of its output in steps, the
upset and SRAM outcome, and its inputs MEAS, REF, FF0, FF1 and DIV as they stood. -/
structure TileSample where
  tile : Nat
  at16 : Nat
  /-- Sample instant and due instant of its MEAS sample, in steps. -/
  stamp : Nat × Nat
  /-- The result of R72 that an error of the hardware changes, and by how much. -/
  place : Nat
  upset : Int
  sram : Nat
  ins : List (Int × Nat)
  deriving DecidableEq, Repr

/-- The twin unit (15). Instants in ns. `admitted`: an ACTIVE has an admitted standby; `code`: the module's own CODE (R360), zero
for none. Interlock: own claim, HOLDER, the twin's claim as sensed, instants of the own assertion and of the twin's last release;
the keeper's last refresh; the supervisor pairs disagree. Beats: number of the last sent, REQ, last good beat by path (SEQ, FLAGS,
CODE); a declaration stands; NET_LOST was claimed. State copy: last good record not FAULTED, journals of FAULTED ones since it,
writes that wait for the next frame boundary, samples kept, own writes for the journal, records sent; frame of the last good
record and its serials. RESYNC: since when, good records in a row. Switch-over: pre-run frames left, instant of the lock
request, a commanded switch (as taker; as active), QUARANTINE follows it. Health interval: samples, mismatches, greatest
difference, residue mismatch, lane records compared and their greatest difference, records applied and bad, longest and present
gap, uncorrectable SRAM words, and the CE and UE counters at the last report; the twin's READY as its beats tell; instant and verdict of the own last
report. Start-up: the slots were exchanged; the instant from which slot B waits. -/
structure TwnState where
  admitted : Bool := false
  code : Nat := 0
  claim : Bool := false
  holder : Bool := false
  twinClaim : Bool := false
  claimAt : Nat := 0
  releasedAt : Nat := 0
  keeperAt : Nat := 0
  lockstep : Bool := false
  beatNo : Nat := 0
  req : Bool := false
  beats : Sparse (Option (Nat × Nat × Nat)) := []
  declared : Bool := false
  netLost : Bool := false
  copy : Option (List Byte) := none
  faultJournal : List (Nat × Nat) := []
  applyJ : List (Nat × Nat) := []
  samples : List TileSample := []
  journal : List (Nat × Nat) := []
  sent : Nat := 0
  appliedF : Nat := 0
  serials : Nat × Nat := (0, 0)
  resyncAt : Option Nat := none
  good : Nat := 0
  preLeft : Option Nat := none
  requestAt : Option Nat := none
  commanded : Bool := false
  switching : Bool := false
  thenQuar : Bool := false
  hSamples : Nat := 0
  hMismatch : Nat := 0
  hMax : Nat := 0
  hResidue : Bool := false
  hFc : Nat := 0
  hFcMax : Nat := 0
  hOk : Nat := 0
  hErr : Nat := 0
  hGap : Nat := 0
  hRun : Nat := 0
  hSram : Nat := 0
  counts : List Nat := [0, 0, 0, 0]
  peerReady : Bool := false
  report : Option (Nat × Nat) := none
  exchanged : Bool := false
  waitFrom : Option Nat := none
  beatDone : Sparse (Option Nat) := []
  beatF : Option Nat := none
  beatTold : Option (Nat × Nat × Bool) := none
  takeF : Nat := 0
  deriving DecidableEq, Repr

/-- Power control (17). Instants in ns of module time: start of the present start-up step; the one repeat after a failed step
has been used, and a module that failed twice stays down; instant of KEEP's entry; the instant of the last watchdog warm
reset and the expiries so far; a cold reset is held by an overheated Hub; operating points taken off each die; a stack above
95 °C; a loss of both supplies; in SHIP; in OFF; calendar time of the RTC in µs at module time zero, once set; straps as the
contacts hold them; RECOVER_N was low; the firmware runs. -/
structure PwrState where
  stepAt : Nat := 0
  retried : Bool := false
  stuck : Bool := false
  keepAt : Option Nat := none
  wdtAt : Option Int := none
  expiries : Nat := 0
  held : Bool := false
  lowered : Sparse Nat := []
  lowAt : Sparse (Option Nat) := []
  stepEnd : Sparse Nat := []
  burnt : Nat := 0
  stackHot : Bool := false
  ship : Bool := false
  off : Bool := false
  rtc : Option Int := none
  recover : Bool := false
  fwRuns : Bool := false
  /-- The origin of the start-up timeline (R398), and when the image was applied. -/
  origin : Nat := 0
  imageAt : Option Nat := none
  /-- Since when both inputs have been below (R396). -/
  lostAt : Option Int := none
  deriving DecidableEq, Repr

/-- A repeat window (18 R432): CODE, SOURCE, its start in ns, records held back. -/
structure RepeatWin where
  code : Nat
  source : Nat
  since : Nat
  count : Nat
  deriving DecidableEq, Repr

/-- The Yew log (18). Flash by slot: 0 to 8,191 the heartwood, then the 132,096 slots of the sapwood; slots of the power-fail
block; blocks whose erase was interrupted. Next SEQ, BOOT, the slot to write next; records in the queue (before READY without
their SEQ) and in the stack staging range (with their place in it), oldest first; the next place; the SEQs of the page under
program; the block under erase; a freeze is asked for, its start in ns, records dropped in it; repeat windows; stack address, first SEQ and
number of records of the DUMP under way; records lost at the last reset (AON), and island events with their RTC time and those
dropped (R430). -/
structure LogState where
  flash : Sparse (List Byte) := []
  failBlock : List (List Byte) := []
  torn : List Nat := []
  next : Nat := 0
  boot : Nat := 0
  slot : Nat := 0
  queue : List (List Byte) := []
  spill : List (Nat × List Byte) := []
  spillEnd : Nat := 0
  page : List Nat := []
  erasing : Option Nat := none
  freezing : Bool := false
  frozenAt : Option Nat := none
  dropped : Nat := 0
  windows : List RepeatWin := []
  dump : Nat × Nat × Nat := (0, 0, 0)
  lost : Nat := 0
  island : List (Nat × LogEvent) := []
  islandDrop : Nat := 0
  deriving DecidableEq, Repr

/-- The host interface (20): PCIE_PERST_N asserted, the link (0 up, 1 L2, 2 down), D3hot; management responses kept, oldest
first (requester, SEQ, bytes), the greatest SEQ of each requester, requests that wait on a stopped domain or behind one that does,
and of the first of them the registers already accessed and their values. -/
structure HostState where
  perst : Bool := true
  link : Nat := 2
  d3 : Bool := false
  kept : List (Nat × Nat × List Byte) := []
  greatest : List (Nat × Nat) := []
  waiting : List (List Byte) := []
  mgmtDone : Nat := 0
  mgmtValues : List Nat := []
  smbLast : Sparse (Option Nat) := []
  deriving DecidableEq, Repr

/-- The state of the block. -/
structure State where
  /-- The registers of BAR0, by address; an unlisted one holds its Reset value. -/
  regs : Sparse Word
  /-- The frame-staged settings in force (01 R13), by address. -/
  eff : Sparse Word
  /-- Registers and windows kept per access path, by path × 2^26 + address. -/
  pathRegs : Sparse Word
  /-- R8 read latch of each path: the pair's low address and its high word. -/
  latch : Sparse (Nat × Nat)
  /-- R8 held low word of each path: the pair's low address and the word. -/
  held : Sparse (Nat × Nat)
  /-- Accesses that wait on stopped domains, oldest first. -/
  waiting : List Access
  /-- The 64-bit frame counter (01 R12), whether it has started (17 R400), and the module time in ns of frame zero's boundary. -/
  frame : Nat
  counting : Bool
  frameBase : Nat
  /-- The last plain register write by a host path: address, value and `now` (00 R7). -/
  hostWrite : Option (Nat × Nat × Nat)
  irq : IrqState
  /-- Bytes of the memory stack (09 R198), by stack address. -/
  mem : Sparse Byte
  /-- Poisoned 64-byte blocks of the stack (09 R215), by block address ÷ 64. -/
  poison : Sparse Bool
  cfg : CfgState
  sns : SnsState
  lt : LtState
  pwm : PwmState
  wb : WbState
  ctx : CtxState
  th : ThState
  hnt : HntState
  ldg : LdgState
  cpc : CpcState
  pkl : PklState
  est : EstState
  snap : SnapState
  sec : SecState
  twn : TwnState
  pwr : PwrState
  log : LogState
  host : HostState
  /-- Events raised and not yet at the LOG domain, oldest first. -/
  events : List LogEvent
  /-- What the module sent, oldest first. -/
  outbox : List Out
  /-- Uses of free values so far (the model's own counter). -/
  free : Nat
  /-- Commands that wait, first in, first out. -/
  pending : List Instr
  deriving DecidableEq, Repr

/-- Words of `State.reset` that differ from the Reset column: the domains that run (R415: CC0, CC1, RTC, BOOT, SMB, WDT,
FAST, AON) and
the kinds of the secret slots (19, SEC_SLOT: S0 to S7 LOADED, S8 to S15 FUSED). -/
def resetWords : Sparse Word :=
  (0x20020, 0x90001800#32) :: (0x20024, 0x8D#32) ::
    ((List.range 8).map fun k => (0x110020 + 4 * k, 0x10000000#32)) ++
    (List.range 8).map fun k => (0x110040 + 4 * k, 0x20000000#32)

/-- The machine right after reset: power-on reset just released (17 R397), every register at its Reset value, every memory wiped
(19 R453), nothing fused and nothing in flash, every strap tied to GND, no command waiting. Which of these values the spec leaves
open is told by the assumption log. -/
def State.reset : State :=
  { regs := resetWords, eff := [], pathRegs := [], latch := [], held := [], waiting := [], frame := 0, counting := false, frameBase := 0, hostWrite := none, irq := {}, mem := [],
    poison := [], cfg := {}, sns := {}, lt := {}, pwm := {}, wb := {}, ctx := {}, th := {}, hnt := {}, ldg := {}, cpc := {},
    pkl := {}, est := {}, snap := {}, sec := {}, twn := {}, pwr := {}, log := {}, host := {}, events := [], outbox := [],
    free := 0, pending := [] }

/-- Reasons the block stops. -/
inductive Fault where
  /-- A command names a Thicket core above 255, which the module does not have (07 R139); raised by the core
  commands; safe: nothing is claimed of such a command. -/
  | noSuchCore (core : Nat)
  deriving DecidableEq, Repr

/-- Reasons for which the block has no meaning for a command. -/
inductive Refusal where
  /-- The command has no meaning in the model yet; raised by `exec`; safe. -/
  | notModelled (mnemonic : String)
  deriving DecidableEq, Repr

/-- The answer of a command. -/
abbrev Res := Host.Outcome State Fault Refusal

end Sys2Proof.Machine
end

