-- ==== Sys2Proof/Machine/Regs.lean ====
section
/-!
DEFINITION. The register map of BAR0: one row per register of the register tables of spec/02 to spec/20
(base address, strides and instance counts, the masks of the access codes of R5, the Reset column) and one named
bit field per field of those tables. A register of several instances is addressed by its instance numbers.
-/

namespace Sys2Proof.Machine

/-! ## Fields -/
namespace Reg

abbrev SYS_ID : Fld := ⟨0x0, 4, 4, 0, 32⟩
abbrev SYS_REV : Fld := ⟨0x4, 4, 4, 0, 32⟩
abbrev SYS_SELF_ID_LO : Fld := ⟨0x8, 4, 4, 0, 32⟩
abbrev SYS_SELF_ID_HI : Fld := ⟨0xC, 4, 4, 0, 32⟩
abbrev SYS_FW_SERIAL : Fld := ⟨0x10, 4, 4, 0, 32⟩
abbrev SYS_FRAME_CNT_LO : Fld := ⟨0x18, 4, 4, 0, 32⟩
abbrev SYS_FRAME_CNT_HI : Fld := ⟨0x1C, 4, 4, 0, 32⟩
abbrev SYS_HIF_ERR : Fld := ⟨0x20, 4, 4, 0, 32⟩
abbrev SYS_HIF_ERR_SHORT : Fld := ⟨0x20, 4, 4, 16, 16⟩
abbrev SYS_HIF_ERR_UNALIGNED : Fld := ⟨0x20, 4, 4, 0, 16⟩
abbrev SYS_HIF_GAP : Fld := ⟨0x24, 4, 4, 0, 32⟩
abbrev SYS_HIF_LAST : Fld := ⟨0x28, 4, 4, 0, 32⟩
abbrev SYS_HIF_LAST_PATH : Fld := ⟨0x28, 4, 4, 29, 3⟩
abbrev SYS_HIF_LAST_KIND : Fld := ⟨0x28, 4, 4, 26, 3⟩
abbrev SYS_HIF_LAST_OFFSET : Fld := ⟨0x28, 4, 4, 0, 26⟩
abbrev SYS_IRQ_PEND : Fld := ⟨0x40, 4, 4, 0, 32⟩
abbrev SYS_IRQ_EN : Fld := ⟨0x44, 4, 4, 0, 32⟩
abbrev SYS_IRQ_ACK : Fld := ⟨0x48, 4, 4, 0, 32⟩
abbrev SYS_IRQ_WAKE : Fld := ⟨0x4C, 4, 4, 0, 32⟩
abbrev SYS_IRQ_HOLDOFF : Fld := ⟨0x50, 4, 4, 0, 32⟩
abbrev SYS_MGMT_CFG : Fld := ⟨0x60, 4, 4, 0, 32⟩
abbrev SYS_MGMT_CFG_EN : Fld := ⟨0x60, 4, 4, 31, 1⟩
abbrev SYS_MGMT_CFG_AUTH_REQ : Fld := ⟨0x60, 4, 4, 30, 1⟩
abbrev SYS_MGMT_CFG_KEY_SLOT : Fld := ⟨0x60, 4, 4, 16, 4⟩
abbrev SYS_MGMT_CFG_MGMT_PORT : Fld := ⟨0x60, 4, 4, 0, 16⟩
abbrev SYS_MGMT_WMASK : Fld := ⟨0x64, 4, 4, 0, 32⟩
abbrev SYS_MGMT_REQS : Fld := ⟨0x68, 4, 4, 0, 32⟩
abbrev SYS_MGMT_DROP : Fld := ⟨0x6C, 4, 4, 0, 32⟩
abbrev SYS_STRAPS : Fld := ⟨0x80, 4, 4, 0, 32⟩
abbrev SYS_STRAPS_SHELF_ID : Fld := ⟨0x80, 4, 4, 5, 3⟩
abbrev SYS_STRAPS_TWIN_SLOT : Fld := ⟨0x80, 4, 4, 4, 1⟩
abbrev SYS_STRAPS_BOOTSEQ_PIN : Fld := ⟨0x80, 4, 4, 3, 1⟩
abbrev SYS_STRAPS_BOOTSEQ : Fld := ⟨0x80, 4, 4, 2, 1⟩
abbrev SYS_STRAPS_RECOVER : Fld := ⟨0x80, 4, 4, 1, 1⟩
abbrev SYS_STRAPS_SLOT_CLASH : Fld := ⟨0x80, 4, 4, 0, 1⟩
abbrev SYS_IRQ_CAUSE : Fld := ⟨0x100, 4, 4, 0, 32⟩
abbrev SYS_IRQ_CAUSE_EN : Fld := ⟨0x140, 4, 4, 0, 32⟩
abbrev SYS_MGMT_ADDR : Fld := ⟨0x180, 4, 4, 0, 32⟩
abbrev SYS_PIN : Fld := ⟨0x1000, 4, 4, 0, 32⟩
abbrev SYS_PIN_LOCK_EN : Fld := ⟨0x1000, 4, 4, 31, 1⟩
abbrev SYS_PIN_DENIED : Fld := ⟨0x1000, 4, 4, 30, 1⟩
abbrev SYS_PIN_FUNC : Fld := ⟨0x1000, 4, 4, 24, 4⟩
abbrev SYS_PIN_SIG : Fld := ⟨0x1000, 4, 4, 16, 5⟩
abbrev SYS_PIN_DRIVING : Fld := ⟨0x1000, 4, 4, 1, 1⟩
abbrev SYS_PIN_LEVEL : Fld := ⟨0x1000, 4, 4, 0, 1⟩
abbrev CLK_STATUS : Fld := ⟨0x10000, 4, 4, 0, 32⟩
abbrev CLK_STATUS_PLL_LOCK : Fld := ⟨0x10000, 4, 4, 31, 1⟩
abbrev CLK_STATUS_ON_FAST : Fld := ⟨0x10000, 4, 4, 30, 1⟩
abbrev CLK_STATUS_COUNTER_SET : Fld := ⟨0x10000, 4, 4, 29, 1⟩
abbrev CLK_STATUS_SLEWING : Fld := ⟨0x10000, 4, 4, 28, 1⟩
abbrev CLK_STATUS_TIME_FAULT : Fld := ⟨0x10000, 4, 4, 27, 1⟩
abbrev CLK_STATUS_CC_LOCKED : Fld := ⟨0x10000, 4, 4, 26, 1⟩
abbrev CLK_STATUS_FOLLOWER : Fld := ⟨0x10000, 4, 4, 25, 1⟩
abbrev CLK_CMD : Fld := ⟨0x10004, 4, 4, 0, 32⟩
abbrev CLK_CMD_CMD : Fld := ⟨0x10004, 4, 4, 0, 4⟩
abbrev CLK_STEER : Fld := ⟨0x10008, 4, 4, 0, 32⟩
abbrev CLK_XING_STALE : Fld := ⟨0x10100, 4, 4, 0, 32⟩
abbrev PWR_STATUS : Fld := ⟨0x20000, 4, 4, 0, 32⟩
abbrev PWR_STATUS_STATE : Fld := ⟨0x20000, 4, 4, 29, 3⟩
abbrev PWR_STATUS_ORDER : Fld := ⟨0x20000, 4, 4, 28, 1⟩
abbrev PWR_STATUS_START_STEP : Fld := ⟨0x20000, 4, 4, 24, 4⟩
abbrev PWR_STATUS_START_FAIL : Fld := ⟨0x20000, 4, 4, 20, 4⟩
abbrev PWR_STATUS_AUX_A_OK : Fld := ⟨0x20000, 4, 4, 19, 1⟩
abbrev PWR_STATUS_AUX_B_OK : Fld := ⟨0x20000, 4, 4, 18, 1⟩
abbrev PWR_STATUS_HOLDUP : Fld := ⟨0x20000, 4, 4, 17, 1⟩
abbrev PWR_STATUS_MEM_FAIL : Fld := ⟨0x20000, 4, 4, 16, 1⟩
abbrev PWR_STATUS_CMD_RESULT : Fld := ⟨0x20000, 4, 4, 8, 8⟩
abbrev PWR_CMD : Fld := ⟨0x20004, 4, 4, 0, 32⟩
abbrev PWR_CMD_CONFIRM : Fld := ⟨0x20004, 4, 4, 8, 8⟩
abbrev PWR_CMD_CMD : Fld := ⟨0x20004, 4, 4, 0, 4⟩
abbrev PWR_KEEP_CFG : Fld := ⟨0x20008, 4, 4, 0, 32⟩
abbrev PWR_KEEP_CFG_WAKE_S : Fld := ⟨0x20008, 4, 4, 16, 16⟩
abbrev PWR_KEEP_CFG_WAKE_I : Fld := ⟨0x20008, 4, 4, 8, 8⟩
abbrev PWR_WAKE : Fld := ⟨0x2000C, 4, 4, 0, 32⟩
abbrev PWR_WAKE_CURRENT : Fld := ⟨0x2000C, 4, 4, 3, 1⟩
abbrev PWR_WAKE_TIMER : Fld := ⟨0x2000C, 4, 4, 2, 1⟩
abbrev PWR_WAKE_HOST : Fld := ⟨0x2000C, 4, 4, 1, 1⟩
abbrev PWR_WAKE_ALARM : Fld := ⟨0x2000C, 4, 4, 0, 1⟩
abbrev PWR_RESET_CAUSE : Fld := ⟨0x20010, 4, 4, 0, 32⟩
abbrev PWR_RESET_CAUSE_KEEP_WAKE : Fld := ⟨0x20010, 4, 4, 8, 1⟩
abbrev PWR_RESET_CAUSE_WDT_COLD : Fld := ⟨0x20010, 4, 4, 7, 1⟩
abbrev PWR_RESET_CAUSE_WDT_WARM : Fld := ⟨0x20010, 4, 4, 6, 1⟩
abbrev PWR_RESET_CAUSE_CMD_WARM : Fld := ⟨0x20010, 4, 4, 5, 1⟩
abbrev PWR_RESET_CAUSE_CMD_COLD : Fld := ⟨0x20010, 4, 4, 4, 1⟩
abbrev PWR_RESET_CAUSE_SVC_RESET : Fld := ⟨0x20010, 4, 4, 3, 1⟩
abbrev PWR_RESET_CAUSE_RESET_PIN : Fld := ⟨0x20010, 4, 4, 2, 1⟩
abbrev PWR_RESET_CAUSE_SHIP_EXIT : Fld := ⟨0x20010, 4, 4, 1, 1⟩
abbrev PWR_RESET_CAUSE_POWER_ON : Fld := ⟨0x20010, 4, 4, 0, 1⟩
abbrev PWR_AUX : Fld := ⟨0x20014, 4, 4, 0, 32⟩
abbrev PWR_AUX_AUX_A : Fld := ⟨0x20014, 4, 4, 16, 16⟩
abbrev PWR_AUX_AUX_B : Fld := ⟨0x20014, 4, 4, 0, 16⟩
abbrev PWR_START : Fld := ⟨0x20018, 4, 4, 0, 32⟩
abbrev PWR_START_IMAGE_MS : Fld := ⟨0x20018, 4, 4, 16, 16⟩
abbrev PWR_START_MEM_MS : Fld := ⟨0x20018, 4, 4, 0, 16⟩
abbrev PWR_WDT : Fld := ⟨0x2001C, 4, 4, 0, 32⟩
abbrev PWR_WDT_EN : Fld := ⟨0x2001C, 4, 4, 31, 1⟩
abbrev PWR_WDT_PERIOD : Fld := ⟨0x2001C, 4, 4, 0, 16⟩
abbrev PWR_DOM_STATUS_LO : Fld := ⟨0x20020, 4, 4, 0, 32⟩
abbrev PWR_DOM_STATUS_LO_RUNS : Fld := ⟨0x20020, 4, 4, 0, 32⟩
abbrev PWR_DOM_STATUS_HI : Fld := ⟨0x20024, 4, 4, 0, 32⟩
abbrev PWR_DOM_STATUS_HI_RUNS : Fld := ⟨0x20024, 4, 4, 0, 8⟩
abbrev PWR_DVFS_STAT : Fld := ⟨0x20030, 4, 4, 0, 32⟩
abbrev PWR_DVFS_STAT_TARGET : Fld := ⟨0x20030, 4, 4, 30, 2⟩
abbrev PWR_DVFS_STAT_F_OP : Fld := ⟨0x20030, 4, 4, 28, 2⟩
abbrev PWR_DVFS_STAT_V_OP : Fld := ⟨0x20030, 4, 4, 26, 2⟩
abbrev PWR_DVFS_STAT_STEP : Fld := ⟨0x20030, 4, 4, 24, 2⟩
abbrev PWR_DVFS_STAT_THROTTLED : Fld := ⟨0x20030, 4, 4, 23, 1⟩
abbrev PWR_DVFS_STAT_T_DIE : Fld := ⟨0x20030, 4, 4, 0, 16⟩
abbrev PWR_THERM : Fld := ⟨0x20038, 4, 4, 0, 32⟩
abbrev PWR_THERM_THROTTLE_T : Fld := ⟨0x20038, 4, 4, 16, 16⟩
abbrev PWR_THERM_SHUTDOWN_T : Fld := ⟨0x20038, 4, 4, 0, 16⟩
abbrev CFG_STATUS : Fld := ⟨0x30000, 4, 4, 0, 32⟩
abbrev CFG_STATUS_TWIN_STAGED : Fld := ⟨0x30000, 4, 4, 28, 1⟩
abbrev CFG_STATUS_STATE : Fld := ⟨0x30000, 4, 4, 24, 4⟩
abbrev CFG_STATUS_ERROR : Fld := ⟨0x30000, 4, 4, 16, 8⟩
abbrev CFG_STATUS_SLOT : Fld := ⟨0x30000, 4, 4, 0, 1⟩
abbrev CFG_CMD : Fld := ⟨0x30004, 4, 4, 0, 32⟩
abbrev CFG_CMD_ARG : Fld := ⟨0x30004, 4, 4, 4, 4⟩
abbrev CFG_CMD_CMD : Fld := ⟨0x30004, 4, 4, 0, 4⟩
abbrev CFG_SRC_ADDR_LO : Fld := ⟨0x30008, 4, 4, 0, 32⟩
abbrev CFG_SRC_ADDR_HI : Fld := ⟨0x3000C, 4, 4, 0, 32⟩
abbrev CFG_SRC_LEN : Fld := ⟨0x30010, 4, 4, 0, 32⟩
abbrev CFG_SWITCH_FRAME_LO : Fld := ⟨0x30018, 4, 4, 0, 32⟩
abbrev CFG_SWITCH_FRAME_HI : Fld := ⟨0x3001C, 4, 4, 0, 32⟩
abbrev CFG_IMAGE_SERIAL : Fld := ⟨0x30020, 4, 4, 0, 32⟩
abbrev CFG_LAYER_SERIAL : Fld := ⟨0x30024, 4, 4, 0, 32⟩
abbrev CFG_POLICY : Fld := ⟨0x30028, 4, 4, 0, 32⟩
abbrev CFG_POLICY_MGMT_EN : Fld := ⟨0x30028, 4, 4, 2, 1⟩
abbrev CFG_POLICY_PROGRAM_EN : Fld := ⟨0x30028, 4, 4, 1, 1⟩
abbrev CFG_POLICY_LAYER_EN : Fld := ⟨0x30028, 4, 4, 0, 1⟩
abbrev CFG_CONFLICT : Fld := ⟨0x30030, 4, 4, 0, 32⟩
abbrev CFG_CONFLICT_HOLDER : Fld := ⟨0x30030, 4, 4, 24, 8⟩
abbrev CFG_CONFLICT_CLAIMANT : Fld := ⟨0x30030, 4, 4, 16, 8⟩
abbrev CFG_CONFLICT_RESOURCE : Fld := ⟨0x30030, 4, 4, 0, 9⟩
abbrev CFG_OWN_CLAIM : Fld := ⟨0x30040, 4, 4, 0, 32⟩
abbrev CFG_OWN_CLAIM_RELEASE : Fld := ⟨0x30040, 4, 4, 24, 1⟩
abbrev CFG_OWN_CLAIM_OWNER : Fld := ⟨0x30040, 4, 4, 16, 8⟩
abbrev CFG_OWN_CLAIM_RESOURCE : Fld := ⟨0x30040, 4, 4, 0, 9⟩
abbrev CFG_OWN_RESULT : Fld := ⟨0x30044, 4, 4, 0, 32⟩
abbrev CFG_OWN_RESULT_RESULT : Fld := ⟨0x30044, 4, 4, 0, 2⟩
abbrev CFG_LOCKED_WRITES : Fld := ⟨0x30050, 4, 4, 0, 32⟩
abbrev CFG_REGION_VER : Fld := ⟨0x30100, 4, 4, 0, 32⟩
abbrev CFG_REGION_VER_VERSION : Fld := ⟨0x30100, 4, 4, 0, 32⟩
abbrev CFG_OWN : Fld := ⟨0x31000, 4, 4, 0, 32⟩
abbrev CFG_OWN_RESERVED : Fld := ⟨0x31000, 4, 4, 8, 1⟩
abbrev CFG_OWN_OWNER : Fld := ⟨0x31000, 4, 4, 0, 8⟩
abbrev SNS_STATUS : Fld := ⟨0x40000, 4, 4, 0, 32⟩
abbrev SNS_STATUS_FAULT : Fld := ⟨0x40000, 4, 4, 0, 1⟩
abbrev SNS_FEED_SEL : Fld := ⟨0x40010, 4, 4, 0, 32⟩
abbrev SNS_FEED_SEL_EN : Fld := ⟨0x40010, 4, 4, 31, 1⟩
abbrev SNS_FEED_SEL_TILE : Fld := ⟨0x40010, 4, 4, 0, 6⟩
abbrev SNS_FEED_AGE : Fld := ⟨0x40014, 4, 4, 0, 32⟩
abbrev SNS_SI_CFG : Fld := ⟨0x40020, 4, 4, 0, 32⟩
abbrev SNS_SI_CFG_NOTCH_EN : Fld := ⟨0x40020, 4, 4, 31, 1⟩
abbrev SNS_SI_CFG_NOTCH_LEN : Fld := ⟨0x40020, 4, 4, 24, 6⟩
abbrev SNS_SI_CFG_LEAD : Fld := ⟨0x40020, 4, 4, 14, 10⟩
abbrev SNS_SI_CFG_PHASE : Fld := ⟨0x40020, 4, 4, 0, 14⟩
abbrev SNS_SI_LAST_LO : Fld := ⟨0x40028, 4, 4, 0, 32⟩
abbrev SNS_SI_LAST_HI : Fld := ⟨0x4002C, 4, 4, 0, 32⟩
abbrev SNS_PACK_I0 : Fld := ⟨0x40030, 4, 4, 0, 32⟩
abbrev SNS_PACK_I1 : Fld := ⟨0x40034, 4, 4, 0, 32⟩
abbrev SNS_PACK_FLAGS : Fld := ⟨0x40038, 4, 4, 0, 32⟩
abbrev SNS_PACK_FLAGS_NOTCH_DEFERRED : Fld := ⟨0x40038, 4, 4, 0, 1⟩
abbrev SNS_PACK_FLAGS_CC0_OVR : Fld := ⟨0x40038, 4, 4, 1, 1⟩
abbrev SNS_PACK_FLAGS_CC1_OVR : Fld := ⟨0x40038, 4, 4, 2, 1⟩
abbrev SNS_FAULT_DS : Fld := ⟨0x40040, 4, 4, 0, 32⟩
abbrev SNS_FAULT_OTH : Fld := ⟨0x40044, 4, 4, 0, 32⟩
abbrev SNS_FAULT_OTH_SAT : Fld := ⟨0x40044, 4, 4, 0, 8⟩
abbrev SNS_FAULT_OTH_OVR : Fld := ⟨0x40044, 4, 4, 8, 2⟩
abbrev SNS_GRP_CFG : Fld := ⟨0x40100, 4, 4, 0, 32⟩
abbrev SNS_GRP_CFG_MODE : Fld := ⟨0x40100, 4, 4, 31, 1⟩
abbrev SNS_GRP_CFG_CLK_EN : Fld := ⟨0x40100, 4, 4, 30, 1⟩
abbrev SNS_GRP_CFG_MEAS_KHZ : Fld := ⟨0x40100, 4, 4, 8, 16⟩
abbrev SNS_GRP_CFG_FREQ : Fld := ⟨0x40100, 4, 4, 0, 3⟩
abbrev SNS_CH_CFG : Fld := ⟨0x41000, 64, 4, 0, 32⟩
abbrev SNS_CH_CFG_ENABLE : Fld := ⟨0x41000, 64, 4, 31, 1⟩
abbrev SNS_CH_CFG_POL : Fld := ⟨0x41000, 64, 4, 30, 1⟩
abbrev SNS_CH_CFG_TERM : Fld := ⟨0x41000, 64, 4, 29, 1⟩
abbrev SNS_CH_CFG_CAPT_EDGE : Fld := ⟨0x41000, 64, 4, 28, 1⟩
abbrev SNS_CH_CFG_CAPT_DLY : Fld := ⟨0x41000, 64, 4, 23, 5⟩
abbrev SNS_CH_TRIG : Fld := ⟨0x41004, 64, 4, 0, 32⟩
abbrev SNS_CH_TRIG_SRC : Fld := ⟨0x41004, 64, 4, 29, 3⟩
abbrev SNS_CH_TRIG_LANE : Fld := ⟨0x41004, 64, 4, 23, 6⟩
abbrev SNS_CH_TRIG_COUNT : Fld := ⟨0x41004, 64, 4, 18, 5⟩
abbrev SNS_CH_TRIG_OFFSET : Fld := ⟨0x41004, 64, 4, 0, 16⟩
abbrev SNS_CH_UGAIN : Fld := ⟨0x41008, 64, 4, 0, 32⟩
abbrev SNS_CH_UOFF : Fld := ⟨0x4100C, 64, 4, 0, 32⟩
abbrev SNS_CH_FGAIN : Fld := ⟨0x41010, 64, 4, 0, 32⟩
abbrev SNS_CH_FOFF : Fld := ⟨0x41014, 64, 4, 0, 32⟩
abbrev SNS_CH_DATA : Fld := ⟨0x41018, 64, 4, 0, 32⟩
abbrev SNS_CH_STAT : Fld := ⟨0x4101C, 64, 4, 0, 32⟩
abbrev SNS_CH_STAT_SKIP : Fld := ⟨0x4101C, 64, 4, 5, 1⟩
abbrev SNS_CH_STAT_OVR : Fld := ⟨0x4101C, 64, 4, 4, 1⟩
abbrev SNS_CH_STAT_SAT : Fld := ⟨0x4101C, 64, 4, 3, 1⟩
abbrev SNS_CH_STAT_CLK_LOSS : Fld := ⟨0x4101C, 64, 4, 2, 1⟩
abbrev SNS_CH_STAT_STUCK : Fld := ⟨0x4101C, 64, 4, 1, 1⟩
abbrev SNS_CH_STAT_WRAP : Fld := ⟨0x4101C, 64, 4, 0, 1⟩
abbrev SNS_CC_COND : Fld := ⟨0x41020, 64, 4, 0, 32⟩
abbrev SNS_CC_CUR : Fld := ⟨0x41024, 64, 4, 0, 32⟩
abbrev SNS_CC_ACC0 : Fld := ⟨0x41028, 64, 4, 0, 32⟩
abbrev SNS_CC_ACC1 : Fld := ⟨0x4102C, 64, 4, 0, 32⟩
abbrev SNS_CC_ACC2 : Fld := ⟨0x41030, 64, 4, 0, 32⟩
abbrev SNS_FT_CFG : Fld := ⟨0x44000, 64, 4, 0, 32⟩
abbrev SNS_FT_CFG_ENABLE : Fld := ⟨0x44000, 64, 4, 31, 1⟩
abbrev SNS_FT_CFG_FIR_EN : Fld := ⟨0x44000, 64, 4, 30, 1⟩
abbrev SNS_FT_CFG_ORDER : Fld := ⟨0x44000, 64, 4, 27, 2⟩
abbrev SNS_FT_CFG_INPUT : Fld := ⟨0x44000, 64, 4, 20, 7⟩
abbrev SNS_FT_CFG_OSR_M1 : Fld := ⟨0x44000, 64, 4, 10, 10⟩
abbrev SNS_FT_CFG_FIR_TAPS : Fld := ⟨0x44000, 64, 4, 4, 6⟩
abbrev SNS_FT_CFG_FIR_DEC : Fld := ⟨0x44000, 64, 4, 0, 4⟩
abbrev SNS_FT_TRIG : Fld := ⟨0x44004, 64, 4, 0, 32⟩
abbrev SNS_FT_TRIG_SRC : Fld := ⟨0x44004, 64, 4, 29, 3⟩
abbrev SNS_FT_TRIG_LANE : Fld := ⟨0x44004, 64, 4, 23, 6⟩
abbrev SNS_FT_TRIG_COUNT : Fld := ⟨0x44004, 64, 4, 18, 5⟩
abbrev SNS_FT_TRIG_OFFSET : Fld := ⟨0x44004, 64, 4, 0, 16⟩
abbrev SNS_FT_CMP_CFG : Fld := ⟨0x44008, 64, 4, 0, 32⟩
abbrev SNS_FT_CMP_CFG_CMP_EN : Fld := ⟨0x44008, 64, 4, 31, 1⟩
abbrev SNS_FT_CMP_CFG_CMP_OSR : Fld := ⟨0x44008, 64, 4, 16, 6⟩
abbrev SNS_FT_CMP_HI : Fld := ⟨0x4400C, 64, 4, 0, 32⟩
abbrev SNS_FT_CMP_LO : Fld := ⟨0x44010, 64, 4, 0, 32⟩
abbrev SNS_FT_OUT : Fld := ⟨0x44014, 64, 4, 0, 32⟩
abbrev SNS_FT_OUT_INVALID : Fld := ⟨0x44014, 64, 4, 31, 1⟩
abbrev SNS_FT_OUT_STALE : Fld := ⟨0x44014, 64, 4, 30, 1⟩
abbrev SNS_FT_OUT_NOTCH : Fld := ⟨0x44014, 64, 4, 29, 1⟩
abbrev SNS_FT_OUT_SAT : Fld := ⟨0x44014, 64, 4, 28, 1⟩
abbrev SNS_FT_OUT_VALUE : Fld := ⟨0x44014, 64, 4, 0, 24⟩
abbrev SNS_FT_STAT : Fld := ⟨0x44018, 64, 4, 0, 32⟩
abbrev SNS_FT_STAT_SAT : Fld := ⟨0x44018, 64, 4, 1, 1⟩
abbrev SNS_FT_STAT_SKIP : Fld := ⟨0x44018, 64, 4, 0, 1⟩
abbrev SNS_FT_COEF : Fld := ⟨0x46000, 256, 4, 0, 32⟩
abbrev SNS_FT_COEF_COEF : Fld := ⟨0x46000, 256, 4, 0, 24⟩
abbrev LT_BANK_SEL : Fld := ⟨0x50000, 4, 4, 0, 32⟩
abbrev LT_BANK_ACT : Fld := ⟨0x50010, 4, 4, 0, 32⟩
abbrev LT_FAULT : Fld := ⟨0x50020, 4, 4, 0, 32⟩
abbrev LT_MISS_SUM : Fld := ⟨0x50030, 4, 4, 0, 32⟩
abbrev LT_RES_TEST : Fld := ⟨0x50040, 4, 4, 0, 32⟩
abbrev LT_RES_TEST_ARM : Fld := ⟨0x50040, 4, 4, 31, 1⟩
abbrev LT_RES_TEST_TILE : Fld := ⟨0x50040, 4, 4, 0, 7⟩
abbrev LT_CTL : Fld := ⟨0x51000, 512, 4, 0, 32⟩
abbrev LT_CTL_ENABLE : Fld := ⟨0x51000, 512, 4, 31, 1⟩
abbrev LT_CTL_CRITICAL : Fld := ⟨0x51000, 512, 4, 30, 1⟩
abbrev LT_CTL_INT_EN : Fld := ⟨0x51000, 512, 4, 29, 1⟩
abbrev LT_CTL_DIV_EN : Fld := ⟨0x51000, 512, 4, 28, 1⟩
abbrev LT_CTL_ERR_NEG : Fld := ⟨0x51000, 512, 4, 27, 1⟩
abbrev LT_CTL_OUT_MODE : Fld := ⟨0x51000, 512, 4, 26, 1⟩
abbrev LT_CTL_REF_SRC : Fld := ⟨0x51000, 512, 4, 25, 1⟩
abbrev LT_CTL_START : Fld := ⟨0x51000, 512, 4, 23, 2⟩
abbrev LT_CTL_BUMPLESS_SWAP : Fld := ⟨0x51000, 512, 4, 22, 1⟩
abbrev LT_CTL_SWAP_SRC : Fld := ⟨0x51000, 512, 4, 21, 1⟩
abbrev LT_CTL_SWAP_LOGIC : Fld := ⟨0x51000, 512, 4, 16, 5⟩
abbrev LT_SRC_A : Fld := ⟨0x51004, 512, 4, 0, 32⟩
abbrev LT_SRC_A_REF : Fld := ⟨0x51004, 512, 4, 16, 9⟩
abbrev LT_SRC_A_MEAS : Fld := ⟨0x51004, 512, 4, 0, 9⟩
abbrev LT_SRC_B : Fld := ⟨0x51008, 512, 4, 0, 32⟩
abbrev LT_SRC_B_FF1 : Fld := ⟨0x51008, 512, 4, 16, 9⟩
abbrev LT_SRC_B_FF0 : Fld := ⟨0x51008, 512, 4, 0, 9⟩
abbrev LT_SRC_C : Fld := ⟨0x5100C, 512, 4, 0, 32⟩
abbrev LT_SRC_C_LANE : Fld := ⟨0x5100C, 512, 4, 24, 6⟩
abbrev LT_SRC_C_DIV : Fld := ⟨0x5100C, 512, 4, 0, 9⟩
abbrev LT_TARGET : Fld := ⟨0x51010, 512, 4, 0, 32⟩
abbrev LT_RATE : Fld := ⟨0x51014, 512, 4, 0, 32⟩
abbrev LT_RAMP_POS : Fld := ⟨0x51018, 512, 4, 0, 32⟩
abbrev LT_OUT_MAX : Fld := ⟨0x5101C, 512, 4, 0, 32⟩
abbrev LT_OUT_MIN : Fld := ⟨0x51020, 512, 4, 0, 32⟩
abbrev LT_INT_MAX : Fld := ⟨0x51024, 512, 4, 0, 32⟩
abbrev LT_INT_MIN : Fld := ⟨0x51028, 512, 4, 0, 32⟩
abbrev LT_DIV_MIN : Fld := ⟨0x5102C, 512, 4, 0, 32⟩
abbrev LT_INIT_OUT : Fld := ⟨0x51030, 512, 4, 0, 32⟩
abbrev LT_DEADLINE : Fld := ⟨0x51034, 512, 4, 0, 32⟩
abbrev LT_BKA_B0 : Fld := ⟨0x51040, 512, 4, 0, 32⟩
abbrev LT_BKA_B1 : Fld := ⟨0x51044, 512, 4, 0, 32⟩
abbrev LT_BKA_B2 : Fld := ⟨0x51048, 512, 4, 0, 32⟩
abbrev LT_BKA_B3 : Fld := ⟨0x5104C, 512, 4, 0, 32⟩
abbrev LT_BKA_A1 : Fld := ⟨0x51050, 512, 4, 0, 32⟩
abbrev LT_BKA_A2 : Fld := ⟨0x51054, 512, 4, 0, 32⟩
abbrev LT_BKA_A3 : Fld := ⟨0x51058, 512, 4, 0, 32⟩
abbrev LT_BKA_KI : Fld := ⟨0x5105C, 512, 4, 0, 32⟩
abbrev LT_BKA_KFF0 : Fld := ⟨0x51060, 512, 4, 0, 32⟩
abbrev LT_BKA_KFF1 : Fld := ⟨0x51064, 512, 4, 0, 32⟩
abbrev LT_BKB_B0 : Fld := ⟨0x51080, 512, 4, 0, 32⟩
abbrev LT_BKB_B1 : Fld := ⟨0x51084, 512, 4, 0, 32⟩
abbrev LT_BKB_B2 : Fld := ⟨0x51088, 512, 4, 0, 32⟩
abbrev LT_BKB_B3 : Fld := ⟨0x5108C, 512, 4, 0, 32⟩
abbrev LT_BKB_A1 : Fld := ⟨0x51090, 512, 4, 0, 32⟩
abbrev LT_BKB_A2 : Fld := ⟨0x51094, 512, 4, 0, 32⟩
abbrev LT_BKB_A3 : Fld := ⟨0x51098, 512, 4, 0, 32⟩
abbrev LT_BKB_KI : Fld := ⟨0x5109C, 512, 4, 0, 32⟩
abbrev LT_BKB_KFF0 : Fld := ⟨0x510A0, 512, 4, 0, 32⟩
abbrev LT_BKB_KFF1 : Fld := ⟨0x510A4, 512, 4, 0, 32⟩
abbrev LT_STAT : Fld := ⟨0x51100, 512, 4, 0, 32⟩
abbrev LT_STAT_LANE_BUSY : Fld := ⟨0x51100, 512, 4, 12, 1⟩
abbrev LT_STAT_LOOP_FAULT : Fld := ⟨0x51100, 512, 4, 11, 1⟩
abbrev LT_STAT_SRC_ERR : Fld := ⟨0x51100, 512, 4, 10, 1⟩
abbrev LT_STAT_FF_HOLD : Fld := ⟨0x51100, 512, 4, 9, 1⟩
abbrev LT_STAT_BANK_BUSY : Fld := ⟨0x51100, 512, 4, 8, 1⟩
abbrev LT_STAT_DIV_LOW : Fld := ⟨0x51100, 512, 4, 7, 1⟩
abbrev LT_STAT_INT_HOLD : Fld := ⟨0x51100, 512, 4, 6, 1⟩
abbrev LT_STAT_INT_CLAMP : Fld := ⟨0x51100, 512, 4, 5, 1⟩
abbrev LT_STAT_SAT_OUT : Fld := ⟨0x51100, 512, 4, 4, 1⟩
abbrev LT_STAT_STALE_IN : Fld := ⟨0x51100, 512, 4, 3, 1⟩
abbrev LT_STAT_INVALID_IN : Fld := ⟨0x51100, 512, 4, 2, 1⟩
abbrev LT_STAT_RES_ERR : Fld := ⟨0x51100, 512, 4, 1, 1⟩
abbrev LT_STAT_MISS : Fld := ⟨0x51100, 512, 4, 0, 1⟩
abbrev LT_MISS : Fld := ⟨0x51104, 512, 4, 0, 32⟩
abbrev LT_MISS_MISS_TOTAL : Fld := ⟨0x51104, 512, 4, 8, 24⟩
abbrev LT_MISS_MISS_COUNT : Fld := ⟨0x51104, 512, 4, 0, 8⟩
abbrev LT_RES_CNT : Fld := ⟨0x51108, 512, 4, 0, 32⟩
abbrev LT_ERR : Fld := ⟨0x5110C, 512, 4, 0, 32⟩
abbrev LT_OUT : Fld := ⟨0x51110, 512, 4, 0, 32⟩
abbrev LT_OUT_U : Fld := ⟨0x51110, 512, 4, 0, 24⟩
abbrev LT_OUT_INVALID : Fld := ⟨0x51110, 512, 4, 31, 1⟩
abbrev LT_DUTY : Fld := ⟨0x51114, 512, 4, 0, 32⟩
abbrev LT_DUTY_DUTY_FRAC : Fld := ⟨0x51114, 512, 4, 16, 16⟩
abbrev LT_ONTIME : Fld := ⟨0x51118, 512, 4, 0, 32⟩
abbrev LT_ONTIME_CYCLES : Fld := ⟨0x51118, 512, 4, 4, 16⟩
abbrev LT_ONTIME_FINE : Fld := ⟨0x51118, 512, 4, 0, 4⟩
abbrev LT_S1_LO : Fld := ⟨0x51120, 512, 4, 0, 32⟩
abbrev LT_S1_HI : Fld := ⟨0x51124, 512, 4, 0, 32⟩
abbrev LT_S2_LO : Fld := ⟨0x51128, 512, 4, 0, 32⟩
abbrev LT_S2_HI : Fld := ⟨0x5112C, 512, 4, 0, 32⟩
abbrev LT_S3_LO : Fld := ⟨0x51130, 512, 4, 0, 32⟩
abbrev LT_S3_HI : Fld := ⟨0x51134, 512, 4, 0, 32⟩
abbrev LT_SI_LO : Fld := ⟨0x51138, 512, 4, 0, 32⟩
abbrev LT_SI_HI : Fld := ⟨0x5113C, 512, 4, 0, 32⟩
abbrev LT_LG_CTL : Fld := ⟨0x5D000, 128, 4, 0, 32⟩
abbrev LT_LG_CTL_ENABLE : Fld := ⟨0x5D000, 128, 4, 31, 1⟩
abbrev LT_LG_CTL_INIT : Fld := ⟨0x5D000, 128, 4, 24, 4⟩
abbrev LT_LG_CTL_OUT_MAP : Fld := ⟨0x5D000, 128, 4, 0, 16⟩
abbrev LT_LG_IN : Fld := ⟨0x5D004, 128, 4, 0, 32⟩
abbrev LT_LG_IN_EVEN : Fld := ⟨0x5D004, 128, 4, 0, 9⟩
abbrev LT_LG_IN_ODD : Fld := ⟨0x5D004, 128, 4, 16, 9⟩
abbrev LT_LG_TICK : Fld := ⟨0x5D014, 128, 4, 0, 32⟩
abbrev LT_LG_TICK_UNIT : Fld := ⟨0x5D014, 128, 4, 0, 2⟩
abbrev LT_LG_DWELL : Fld := ⟨0x5D018, 128, 4, 0, 32⟩
abbrev LT_LG_TR : Fld := ⟨0x5D020, 128, 4, 0, 32⟩
abbrev LT_LG_TR_EN : Fld := ⟨0x5D020, 128, 4, 31, 1⟩
abbrev LT_LG_TR_ANY : Fld := ⟨0x5D020, 128, 4, 30, 1⟩
abbrev LT_LG_TR_DWELL_REQ : Fld := ⟨0x5D020, 128, 4, 29, 1⟩
abbrev LT_LG_TR_FROM : Fld := ⟨0x5D020, 128, 4, 24, 4⟩
abbrev LT_LG_TR_TO : Fld := ⟨0x5D020, 128, 4, 20, 4⟩
abbrev LT_LG_TR_MASK : Fld := ⟨0x5D020, 128, 4, 8, 8⟩
abbrev LT_LG_TR_LEVEL : Fld := ⟨0x5D020, 128, 4, 0, 8⟩
abbrev LT_LG_STAT : Fld := ⟨0x5D060, 128, 4, 0, 32⟩
abbrev LT_LG_STAT_STATE : Fld := ⟨0x5D060, 128, 4, 28, 4⟩
abbrev LT_LG_STAT_OUT : Fld := ⟨0x5D060, 128, 4, 27, 1⟩
abbrev LT_LG_STAT_SRC_ERR : Fld := ⟨0x5D060, 128, 4, 26, 1⟩
abbrev LT_LG_STAT_CNT : Fld := ⟨0x5D060, 128, 4, 0, 24⟩
abbrev LT_SEG_CFG : Fld := ⟨0x5F000, 512, 4, 0, 32⟩
abbrev LT_SEG_CFG_EN : Fld := ⟨0x5F000, 512, 4, 31, 1⟩
abbrev LT_SEG_CFG_PORTS : Fld := ⟨0x5F000, 512, 4, 0, 7⟩
abbrev LT_PORT : Fld := ⟨0x5F100, 512, 4, 0, 32⟩
abbrev LT_PORT_EN : Fld := ⟨0x5F100, 512, 4, 31, 1⟩
abbrev LT_PORT_DIR : Fld := ⟨0x5F100, 512, 4, 30, 1⟩
abbrev LT_PORT_FORMAT : Fld := ⟨0x5F100, 512, 4, 29, 1⟩
abbrev LT_PORT_SRC : Fld := ⟨0x5F100, 512, 4, 16, 9⟩
abbrev LT_PORT_FROM_SEG : Fld := ⟨0x5F100, 512, 4, 8, 2⟩
abbrev LT_PORT_FROM_PORT : Fld := ⟨0x5F100, 512, 4, 0, 6⟩
abbrev LT_TMR_CFG : Fld := ⟨0x5F800, 16, 4, 0, 32⟩
abbrev LT_TMR_CFG_EN : Fld := ⟨0x5F800, 16, 4, 31, 1⟩
abbrev LT_TMR_CFG_MODE : Fld := ⟨0x5F800, 16, 4, 30, 1⟩
abbrev LT_TMR_CFG_UNIT : Fld := ⟨0x5F800, 16, 4, 28, 2⟩
abbrev LT_TMR_CFG_START_SRC : Fld := ⟨0x5F800, 16, 4, 27, 1⟩
abbrev LT_TMR_CFG_START_SIG : Fld := ⟨0x5F800, 16, 4, 16, 5⟩
abbrev LT_TMR_LOAD : Fld := ⟨0x5F804, 16, 4, 0, 32⟩
abbrev LT_TMR_CMD : Fld := ⟨0x5F808, 16, 4, 0, 32⟩
abbrev LT_TMR_CMD_CMD : Fld := ⟨0x5F808, 16, 4, 0, 2⟩
abbrev LT_TMR_STAT : Fld := ⟨0x5F80C, 16, 4, 0, 32⟩
abbrev LT_TMR_STAT_RUNNING : Fld := ⟨0x5F80C, 16, 4, 31, 1⟩
abbrev LT_TMR_STAT_EXPIRED : Fld := ⟨0x5F80C, 16, 4, 30, 1⟩
abbrev LT_TMR_STAT_CONFLICT : Fld := ⟨0x5F80C, 16, 4, 29, 1⟩
abbrev PWM_STATUS : Fld := ⟨0x60000, 4, 4, 0, 32⟩
abbrev PWM_STATUS_ANY_TRIP : Fld := ⟨0x60000, 4, 4, 3, 1⟩
abbrev PWM_STATUS_NOTCH_OPEN : Fld := ⟨0x60000, 4, 4, 2, 1⟩
abbrev PWM_STATUS_LOCK : Fld := ⟨0x60000, 4, 4, 1, 1⟩
abbrev PWM_STATUS_FLT_ANY : Fld := ⟨0x60000, 4, 4, 0, 1⟩
abbrev PWM_FLT_RAW : Fld := ⟨0x60004, 4, 4, 0, 32⟩
abbrev PWM_FLT_LATCH : Fld := ⟨0x60008, 4, 4, 0, 32⟩
abbrev PWM_GRP_TRIP : Fld := ⟨0x6000C, 4, 4, 0, 32⟩
abbrev PWM_GRP_TRIP_TRIP : Fld := ⟨0x6000C, 4, 4, 0, 8⟩
abbrev PWM_GRP_TRIP_REARM_REFUSED : Fld := ⟨0x6000C, 4, 4, 8, 1⟩
abbrev PWM_GRP_SWTRIP : Fld := ⟨0x60010, 4, 4, 0, 32⟩
abbrev PWM_CTR : Fld := ⟨0x60014, 4, 4, 0, 32⟩
abbrev PWM_CTR_CLOSED : Fld := ⟨0x60014, 4, 4, 8, 4⟩
abbrev PWM_CTR_CLOSE : Fld := ⟨0x60014, 4, 4, 0, 4⟩
abbrev PWM_NOTCH_CNT : Fld := ⟨0x60020, 4, 4, 0, 32⟩
abbrev PWM_NOTCH_DEF : Fld := ⟨0x60024, 4, 4, 0, 32⟩
abbrev PWM_NOTCH_MOVED : Fld := ⟨0x60028, 4, 4, 0, 32⟩
abbrev PWM_FLT_CFG : Fld := ⟨0x60040, 4, 4, 0, 32⟩
abbrev PWM_FLT_CFG_ENABLE : Fld := ⟨0x60040, 4, 4, 31, 1⟩
abbrev PWM_FLT_CFG_FILT : Fld := ⟨0x60040, 4, 4, 8, 5⟩
abbrev PWM_FLT_CFG_GROUPS : Fld := ⟨0x60040, 4, 4, 0, 8⟩
abbrev PWM_GRP_CFG : Fld := ⟨0x60080, 4, 4, 0, 32⟩
abbrev PWM_GRP_CFG_LOGIC_EN : Fld := ⟨0x60080, 4, 4, 28, 1⟩
abbrev PWM_GRP_CFG_LOGIC_SIG : Fld := ⟨0x60080, 4, 4, 23, 5⟩
abbrev PWM_GRP_CFG_CTR_DLY : Fld := ⟨0x60080, 4, 4, 8, 8⟩
abbrev PWM_GRP_CFG_CTR : Fld := ⟨0x60080, 4, 4, 0, 4⟩
abbrev PWM_CONV_CFG : Fld := ⟨0x60100, 64, 4, 0, 32⟩
abbrev PWM_CONV_CFG_ENABLE : Fld := ⟨0x60100, 64, 4, 31, 1⟩
abbrev PWM_CONV_CFG_PHASES : Fld := ⟨0x60100, 64, 4, 24, 4⟩
abbrev PWM_CONV_PERIOD : Fld := ⟨0x60104, 64, 4, 0, 32⟩
abbrev PWM_CONV_SHED : Fld := ⟨0x60108, 64, 4, 0, 32⟩
abbrev PWM_CONV_SHED_SHED_EN : Fld := ⟨0x60108, 64, 4, 31, 1⟩
abbrev PWM_CONV_SHED_ADD_ON_STEP : Fld := ⟨0x60108, 64, 4, 30, 1⟩
abbrev PWM_CONV_SHED_REQ_SRC : Fld := ⟨0x60108, 64, 4, 29, 1⟩
abbrev PWM_CONV_SHED_SHED_SIG : Fld := ⟨0x60108, 64, 4, 24, 5⟩
abbrev PWM_CONV_SHED_ADD_SIG : Fld := ⟨0x60108, 64, 4, 19, 5⟩
abbrev PWM_CONV_SHED_STEP_SIG : Fld := ⟨0x60108, 64, 4, 14, 5⟩
abbrev PWM_CONV_SHED_STEP_SIG_EN : Fld := ⟨0x60108, 64, 4, 13, 1⟩
abbrev PWM_CONV_SHED_MAX_LEVEL : Fld := ⟨0x60108, 64, 4, 10, 3⟩
abbrev PWM_CONV_SHED_SHED_GAP : Fld := ⟨0x60108, 64, 4, 0, 10⟩
abbrev PWM_CONV_CMD : Fld := ⟨0x6010C, 64, 4, 0, 32⟩
abbrev PWM_CONV_CMD_TARGET : Fld := ⟨0x6010C, 64, 4, 0, 3⟩
abbrev PWM_CONV_STAT : Fld := ⟨0x60110, 64, 4, 0, 32⟩
abbrev PWM_CONV_STAT_LEVEL : Fld := ⟨0x60110, 64, 4, 28, 3⟩
abbrev PWM_CONV_STAT_TARGET : Fld := ⟨0x60110, 64, 4, 25, 3⟩
abbrev PWM_CONV_STAT_PENDING : Fld := ⟨0x60110, 64, 4, 24, 1⟩
abbrev PWM_CONV_STAT_INHIBIT : Fld := ⟨0x60110, 64, 4, 23, 1⟩
abbrev PWM_CONV_STAT_STEP_AHEAD : Fld := ⟨0x60110, 64, 4, 22, 1⟩
abbrev PWM_CONV_STAT_ACTIVE : Fld := ⟨0x60110, 64, 4, 0, 12⟩
abbrev PWM_CONV_COUNT : Fld := ⟨0x60114, 64, 4, 0, 32⟩
abbrev PWM_CONV_COUNT_DISCARDED : Fld := ⟨0x60114, 64, 4, 16, 16⟩
abbrev PWM_CONV_COUNT_ABORTS : Fld := ⟨0x60114, 64, 4, 0, 16⟩
abbrev PWM_CONV_SEQ : Fld := ⟨0x60120, 64, 4, 0, 32⟩
abbrev PWM_CONV_SEQ_LANES : Fld := ⟨0x60120, 64, 4, 0, 12⟩
abbrev PWM_LANE_CFG : Fld := ⟨0x61000, 64, 4, 0, 32⟩
abbrev PWM_LANE_CFG_ENABLE : Fld := ⟨0x61000, 64, 4, 31, 1⟩
abbrev PWM_LANE_CFG_STANDALONE : Fld := ⟨0x61000, 64, 4, 30, 1⟩
abbrev PWM_LANE_CFG_POL_H : Fld := ⟨0x61000, 64, 4, 29, 1⟩
abbrev PWM_LANE_CFG_POL_L : Fld := ⟨0x61000, 64, 4, 28, 1⟩
abbrev PWM_LANE_CFG_GROUP : Fld := ⟨0x61000, 64, 4, 25, 3⟩
abbrev PWM_LANE_OFS : Fld := ⟨0x61004, 64, 4, 0, 32⟩
abbrev PWM_LANE_DT : Fld := ⟨0x61008, 64, 4, 0, 32⟩
abbrev PWM_LANE_DT_DT_HL : Fld := ⟨0x61008, 64, 4, 16, 14⟩
abbrev PWM_LANE_DT_DT_LH : Fld := ⟨0x61008, 64, 4, 0, 14⟩
abbrev PWM_LANE_MINP : Fld := ⟨0x6100C, 64, 4, 0, 32⟩
abbrev PWM_LANE_PERIOD : Fld := ⟨0x61010, 64, 4, 0, 32⟩
abbrev PWM_LANE_STAT : Fld := ⟨0x61014, 64, 4, 0, 32⟩
abbrev PWM_LANE_STAT_STATE : Fld := ⟨0x61014, 64, 4, 26, 3⟩
abbrev PWM_LANE_STAT_CFG_ERR : Fld := ⟨0x61014, 64, 4, 3, 1⟩
abbrev PWM_LANE_STAT_NOTCH_MOVED : Fld := ⟨0x61014, 64, 4, 2, 1⟩
abbrev PWM_LANE_STAT_CLAMP : Fld := ⟨0x61014, 64, 4, 1, 1⟩
abbrev PWM_LANE_STAT_LATE : Fld := ⟨0x61014, 64, 4, 0, 1⟩
abbrev PWM_LANE_ONTIME : Fld := ⟨0x61018, 64, 4, 0, 32⟩
abbrev PWM_LANE_CLAMPS : Fld := ⟨0x6101C, 64, 4, 0, 32⟩
abbrev WB_STATUS : Fld := ⟨0x70000, 4, 4, 0, 32⟩
abbrev WB_STATUS_MODE : Fld := ⟨0x70000, 4, 4, 30, 2⟩
abbrev WB_STATUS_FEED_BAD : Fld := ⟨0x70000, 4, 4, 29, 1⟩
abbrev WB_STATUS_SOC_UNKNOWN : Fld := ⟨0x70000, 4, 4, 28, 1⟩
abbrev WB_STATUS_OVER_CEILING : Fld := ⟨0x70000, 4, 4, 27, 1⟩
abbrev WB_STATUS_LOCAL_TARGET : Fld := ⟨0x70000, 4, 4, 26, 1⟩
abbrev WB_STATUS_SET_MISMATCH : Fld := ⟨0x70000, 4, 4, 25, 1⟩
abbrev WB_STATUS_HOLD_CMD : Fld := ⟨0x70000, 4, 4, 24, 1⟩
abbrev WB_STATUS_RESERVE_DIR : Fld := ⟨0x70000, 4, 4, 22, 2⟩
abbrev WB_STATUS_STEP_AHEAD : Fld := ⟨0x70000, 4, 4, 18, 4⟩
abbrev WB_STATUS_APPLIED : Fld := ⟨0x70000, 4, 4, 0, 7⟩
abbrev WB_CMD : Fld := ⟨0x70004, 4, 4, 0, 32⟩
abbrev WB_CMD_LANE : Fld := ⟨0x70004, 4, 4, 8, 6⟩
abbrev WB_CMD_CMD : Fld := ⟨0x70004, 4, 4, 0, 3⟩
abbrev WB_CTL : Fld := ⟨0x70008, 4, 4, 0, 32⟩
abbrev WB_CTL_ENABLE : Fld := ⟨0x70008, 4, 4, 31, 1⟩
abbrev WB_CTL_PRED_EN : Fld := ⟨0x70008, 4, 4, 30, 1⟩
abbrev WB_CTL_VBUS_SRC : Fld := ⟨0x70008, 4, 4, 0, 9⟩
abbrev WB_FEED_GAIN : Fld := ⟨0x7000C, 4, 4, 0, 32⟩
abbrev WB_VBUS_GAIN : Fld := ⟨0x70010, 4, 4, 0, 32⟩
abbrev WB_RAMP_LIMIT : Fld := ⟨0x70014, 4, 4, 0, 32⟩
abbrev WB_RAMP_LIMIT_RAMP : Fld := ⟨0x70014, 4, 4, 0, 14⟩
abbrev WB_TARGET_CFG : Fld := ⟨0x70018, 4, 4, 0, 32⟩
abbrev WB_TARGET_CFG_TARGET_WINDOW : Fld := ⟨0x70018, 4, 4, 24, 8⟩
abbrev WB_TARGET_CFG_SOC_SET : Fld := ⟨0x70018, 4, 4, 16, 8⟩
abbrev WB_TARGET_CFG_TRIM_TAU : Fld := ⟨0x70018, 4, 4, 8, 8⟩
abbrev WB_TARGET_CFG_TRIM_MAX : Fld := ⟨0x70018, 4, 4, 0, 8⟩
abbrev WB_GATE : Fld := ⟨0x7001C, 4, 4, 0, 32⟩
abbrev WB_GATE_GATE : Fld := ⟨0x7001C, 4, 4, 16, 16⟩
abbrev WB_GATE_STEP_GATE : Fld := ⟨0x7001C, 4, 4, 0, 16⟩
abbrev WB_AUTH : Fld := ⟨0x70020, 4, 4, 0, 32⟩
abbrev WB_AUTH_AUTH_LIMIT : Fld := ⟨0x70020, 4, 4, 16, 16⟩
abbrev WB_AUTH_RATING : Fld := ⟨0x70020, 4, 4, 0, 16⟩
abbrev WB_SLEW : Fld := ⟨0x70024, 4, 4, 0, 32⟩
abbrev WB_SLEW_DELAY_ALLOW : Fld := ⟨0x70024, 4, 4, 16, 10⟩
abbrev WB_SLEW_OUT_SLEW : Fld := ⟨0x70024, 4, 4, 0, 16⟩
abbrev WB_STEP_CFG : Fld := ⟨0x70028, 4, 4, 0, 32⟩
abbrev WB_STEP_CFG_STEP_THRESH : Fld := ⟨0x70028, 4, 4, 16, 16⟩
abbrev WB_STEP_CFG_STEP_HORIZON : Fld := ⟨0x70028, 4, 4, 0, 8⟩
abbrev WB_REACT_KP : Fld := ⟨0x7002C, 4, 4, 0, 32⟩
abbrev WB_REACT_KI : Fld := ⟨0x70030, 4, 4, 0, 32⟩
abbrev WB_MISS_CFG : Fld := ⟨0x70034, 4, 4, 0, 32⟩
abbrev WB_MISS_CFG_MISS_WINDOW : Fld := ⟨0x70034, 4, 4, 24, 8⟩
abbrev WB_MISS_CFG_MISS_SIZE : Fld := ⟨0x70034, 4, 4, 16, 8⟩
abbrev WB_MISS_CFG_MISS_LIMIT : Fld := ⟨0x70034, 4, 4, 8, 8⟩
abbrev WB_MISS_CFG_RESTORE_HITS : Fld := ⟨0x70034, 4, 4, 0, 8⟩
abbrev WB_LIMITS : Fld := ⟨0x70038, 4, 4, 0, 32⟩
abbrev WB_LIMITS_SOC_FLOOR : Fld := ⟨0x70038, 4, 4, 24, 8⟩
abbrev WB_LIMITS_SOC_MAX : Fld := ⟨0x70038, 4, 4, 16, 8⟩
abbrev WB_LIMITS_CONS_FRAC : Fld := ⟨0x70038, 4, 4, 8, 8⟩
abbrev WB_LIMITS_CONS_ENERGY : Fld := ⟨0x70038, 4, 4, 0, 8⟩
abbrev WB_FEED_I : Fld := ⟨0x70040, 4, 4, 0, 32⟩
abbrev WB_TARGET_I : Fld := ⟨0x70044, 4, 4, 0, 32⟩
abbrev WB_MEAN_I : Fld := ⟨0x70048, 4, 4, 0, 32⟩
abbrev WB_CEILING_I : Fld := ⟨0x7004C, 4, 4, 0, 32⟩
abbrev WB_SHARE : Fld := ⟨0x70050, 4, 4, 0, 32⟩
abbrev WB_SHARE_S_DIS : Fld := ⟨0x70050, 4, 4, 16, 16⟩
abbrev WB_SHARE_S_CHG : Fld := ⟨0x70050, 4, 4, 0, 16⟩
abbrev WB_P_OUT : Fld := ⟨0x70054, 4, 4, 0, 32⟩
abbrev WB_P_OUT_P_FF : Fld := ⟨0x70054, 4, 4, 16, 16⟩
abbrev WB_P_OUT_P_TOT : Fld := ⟨0x70054, 4, 4, 0, 16⟩
abbrev WB_DEV20 : Fld := ⟨0x70058, 4, 4, 0, 32⟩
abbrev WB_DEV20_MAX : Fld := ⟨0x7005C, 4, 4, 0, 32⟩
abbrev WB_ENTRY_IDX_LO : Fld := ⟨0x70060, 4, 4, 0, 32⟩
abbrev WB_ENTRY_IDX_HI : Fld := ⟨0x70064, 4, 4, 0, 32⟩
abbrev WB_EXCESS_I : Fld := ⟨0x70068, 4, 4, 0, 32⟩
abbrev WB_WORD_CFG : Fld := ⟨0x70100, 8, 4, 0, 32⟩
abbrev WB_WORD_CFG_EN : Fld := ⟨0x70100, 8, 4, 31, 1⟩
abbrev WB_WORD_CFG_STRING : Fld := ⟨0x70100, 8, 4, 30, 1⟩
abbrev WB_WORD_CFG_SHARE : Fld := ⟨0x70100, 8, 4, 0, 17⟩
abbrev WB_WORD_SCALE : Fld := ⟨0x70104, 8, 4, 0, 32⟩
abbrev WB_LANE_CFG : Fld := ⟨0x70200, 16, 4, 0, 32⟩
abbrev WB_LANE_CFG_EN : Fld := ⟨0x70200, 16, 4, 31, 1⟩
abbrev WB_LANE_CFG_GATE_OVR : Fld := ⟨0x70200, 16, 4, 0, 16⟩
abbrev WB_LANE_STAT : Fld := ⟨0x70204, 16, 4, 0, 32⟩
abbrev WB_LANE_STAT_STATE : Fld := ⟨0x70204, 16, 4, 29, 3⟩
abbrev WB_LANE_STAT_MISSES : Fld := ⟨0x70204, 16, 4, 24, 5⟩
abbrev WB_LANE_STAT_HITS : Fld := ⟨0x70204, 16, 4, 16, 8⟩
abbrev WB_LANE_STAT_CONF : Fld := ⟨0x70204, 16, 4, 0, 16⟩
abbrev WB_LANE_MEAN : Fld := ⟨0x70208, 16, 4, 0, 32⟩
abbrev WB_LANE_DEV : Fld := ⟨0x7020C, 16, 4, 0, 32⟩
abbrev HNT_STATUS : Fld := ⟨0x80000, 4, 4, 0, 32⟩
abbrev HNT_STATUS_PHASE : Fld := ⟨0x80000, 4, 4, 30, 2⟩
abbrev HNT_STATUS_LINK_A : Fld := ⟨0x80000, 4, 4, 29, 1⟩
abbrev HNT_STATUS_LINK_B : Fld := ⟨0x80000, 4, 4, 28, 1⟩
abbrev HNT_STATUS_TQ : Fld := ⟨0x80000, 4, 4, 26, 2⟩
abbrev HNT_STATUS_ADMITTED : Fld := ⟨0x80000, 4, 4, 0, 10⟩
abbrev HNT_CMD : Fld := ⟨0x80004, 4, 4, 0, 32⟩
abbrev HNT_CMD_INDEX : Fld := ⟨0x80004, 4, 4, 16, 9⟩
abbrev HNT_CMD_CMD : Fld := ⟨0x80004, 4, 4, 0, 4⟩
abbrev HNT_SELF_ID_LO : Fld := ⟨0x80008, 4, 4, 0, 32⟩
abbrev HNT_SELF_ID_HI : Fld := ⟨0x8000C, 4, 4, 0, 32⟩
abbrev HNT_CFG : Fld := ⟨0x80010, 4, 4, 0, 32⟩
abbrev HNT_CFG_EN : Fld := ⟨0x80010, 4, 4, 31, 1⟩
abbrev HNT_CFG_AUTH_REQ : Fld := ⟨0x80010, 4, 4, 30, 1⟩
abbrev HNT_CFG_KEY_SLOT : Fld := ⟨0x80010, 4, 4, 24, 3⟩
abbrev HNT_CFG_RACK : Fld := ⟨0x80010, 4, 4, 0, 16⟩
abbrev HNT_DISC_CFG : Fld := ⟨0x80014, 4, 4, 0, 32⟩
abbrev HNT_DISC_CFG_WINDOW : Fld := ⟨0x80014, 4, 4, 16, 16⟩
abbrev HNT_DISC_CFG_SLOTS : Fld := ⟨0x80014, 4, 4, 0, 16⟩
abbrev HNT_TIMEOUTS : Fld := ⟨0x80018, 4, 4, 0, 32⟩
abbrev HNT_TIMEOUTS_SILENT_MS : Fld := ⟨0x80018, 4, 4, 16, 16⟩
abbrev HNT_TIMEOUTS_LOST_S : Fld := ⟨0x80018, 4, 4, 0, 16⟩
abbrev HNT_UDP_PORT : Fld := ⟨0x8001C, 4, 4, 0, 32⟩
abbrev HNT_UDP_PORT_LEDGER_PORT : Fld := ⟨0x8001C, 4, 4, 16, 16⟩
abbrev HNT_UDP_PORT_PORT : Fld := ⟨0x8001C, 4, 4, 0, 16⟩
abbrev HNT_RATE_HINT : Fld := ⟨0x80020, 4, 4, 0, 32⟩
abbrev HNT_RATE_HINT_RATE : Fld := ⟨0x80020, 4, 4, 16, 16⟩
abbrev HNT_RATE_HINT_DEPTH : Fld := ⟨0x80020, 4, 4, 0, 16⟩
abbrev HNT_RATE_TELEM : Fld := ⟨0x80024, 4, 4, 0, 32⟩
abbrev HNT_RATE_TELEM_RATE : Fld := ⟨0x80024, 4, 4, 16, 16⟩
abbrev HNT_RATE_TELEM_DEPTH : Fld := ⟨0x80024, 4, 4, 0, 16⟩
abbrev HNT_RATE_ACT : Fld := ⟨0x80028, 4, 4, 0, 32⟩
abbrev HNT_RATE_ACT_RATE : Fld := ⟨0x80028, 4, 4, 16, 16⟩
abbrev HNT_RATE_ACT_DEPTH : Fld := ⟨0x80028, 4, 4, 0, 16⟩
abbrev HNT_RATE_ANN : Fld := ⟨0x8002C, 4, 4, 0, 32⟩
abbrev HNT_RATE_ANN_RATE : Fld := ⟨0x8002C, 4, 4, 16, 16⟩
abbrev HNT_RATE_ANN_DEPTH : Fld := ⟨0x8002C, 4, 4, 0, 16⟩
abbrev HNT_PTP_CFG : Fld := ⟨0x80030, 4, 4, 0, 32⟩
abbrev HNT_PTP_CFG_DOMAIN : Fld := ⟨0x80030, 4, 4, 24, 8⟩
abbrev HNT_PTP_CFG_LOG_SYNC : Fld := ⟨0x80030, 4, 4, 16, 8⟩
abbrev HNT_PTP_CFG_HOLDOVER_S : Fld := ⟨0x80030, 4, 4, 0, 16⟩
abbrev HNT_PTP_STATUS : Fld := ⟨0x80034, 4, 4, 0, 32⟩
abbrev HNT_PTP_STATUS_TQ : Fld := ⟨0x80034, 4, 4, 30, 2⟩
abbrev HNT_PTP_STATUS_PORT : Fld := ⟨0x80034, 4, 4, 29, 1⟩
abbrev HNT_PTP_STATUS_MASTER : Fld := ⟨0x80034, 4, 4, 28, 1⟩
abbrev HNT_PTP_STATUS_GOOD_SYNCS : Fld := ⟨0x80034, 4, 4, 0, 8⟩
abbrev HNT_PTP_OFFSET : Fld := ⟨0x80038, 4, 4, 0, 32⟩
abbrev HNT_MCAST0 : Fld := ⟨0x80040, 4, 4, 0, 32⟩
abbrev HNT_MCAST1 : Fld := ⟨0x80044, 4, 4, 0, 32⟩
abbrev HNT_MCAST2 : Fld := ⟨0x80048, 4, 4, 0, 32⟩
abbrev HNT_MCAST3 : Fld := ⟨0x8004C, 4, 4, 0, 32⟩
abbrev HNT_DROP : Fld := ⟨0x80080, 4, 4, 0, 32⟩
abbrev HNT_PT_ID_LO : Fld := ⟨0x81000, 16, 4, 0, 32⟩
abbrev HNT_PT_ID_HI : Fld := ⟨0x81004, 16, 4, 0, 32⟩
abbrev HNT_PT_STATE : Fld := ⟨0x81008, 16, 4, 0, 32⟩
abbrev HNT_PT_STATE_STATE : Fld := ⟨0x81008, 16, 4, 29, 3⟩
abbrev HNT_PT_STATE_ROLE : Fld := ⟨0x81008, 16, 4, 27, 2⟩
abbrev HNT_PT_STATE_TQ : Fld := ⟨0x81008, 16, 4, 25, 2⟩
abbrev HNT_PT_STATE_CTX_VALID : Fld := ⟨0x81008, 16, 4, 14, 1⟩
abbrev HNT_PT_STATE_CTX : Fld := ⟨0x81008, 16, 4, 0, 14⟩
abbrev HNT_PT_SEEN : Fld := ⟨0x8100C, 16, 4, 0, 32⟩
abbrev CPC_STATUS : Fld := ⟨0x90000, 4, 4, 0, 32⟩
abbrev CPC_STATUS_RACK_LEADER : Fld := ⟨0x90000, 4, 4, 31, 1⟩
abbrev CPC_STATUS_HALL_LEADER : Fld := ⟨0x90000, 4, 4, 30, 1⟩
abbrev CPC_STATUS_STEPPING : Fld := ⟨0x90000, 4, 4, 29, 1⟩
abbrev CPC_STATUS_NO_CONTRACT : Fld := ⟨0x90000, 4, 4, 28, 1⟩
abbrev CPC_STATUS_MODEL_DRIFT : Fld := ⟨0x90000, 4, 4, 27, 1⟩
abbrev CPC_STATUS_RECLAIM : Fld := ⟨0x90000, 4, 4, 26, 1⟩
abbrev CPC_STATUS_BAD_ORDER : Fld := ⟨0x90000, 4, 4, 25, 1⟩
abbrev CPC_STATUS_CMD_RESULT : Fld := ⟨0x90000, 4, 4, 22, 3⟩
abbrev CPC_STATUS_JOB_FULL : Fld := ⟨0x90000, 4, 4, 21, 1⟩
abbrev CPC_STATUS_JOBS : Fld := ⟨0x90000, 4, 4, 0, 7⟩
abbrev CPC_CMD : Fld := ⟨0x90004, 4, 4, 0, 32⟩
abbrev CPC_CMD_CMD : Fld := ⟨0x90004, 4, 4, 0, 4⟩
abbrev CPC_GRANT_CFG : Fld := ⟨0x90008, 4, 4, 0, 32⟩
abbrev CPC_GRANT_CFG_QUANTUM : Fld := ⟨0x90008, 4, 4, 24, 8⟩
abbrev CPC_GRANT_CFG_STEP_MHZ : Fld := ⟨0x90008, 4, 4, 16, 8⟩
abbrev CPC_GRANT_CFG_RAISE_MHZ : Fld := ⟨0x90008, 4, 4, 8, 8⟩
abbrev CPC_GRANT_CFG_STEP_HOLD : Fld := ⟨0x90008, 4, 4, 0, 8⟩
abbrev CPC_GRANT_TIME : Fld := ⟨0x9000C, 4, 4, 0, 32⟩
abbrev CPC_GRANT_TIME_VALID_FOR_MS : Fld := ⟨0x9000C, 4, 4, 16, 16⟩
abbrev CPC_GRANT_TIME_GRANT_LEAD : Fld := ⟨0x9000C, 4, 4, 0, 10⟩
abbrev CPC_ORDER : Fld := ⟨0x90010, 4, 4, 0, 32⟩
abbrev CPC_ORDER_DEFAULT_ORDER : Fld := ⟨0x90010, 4, 4, 24, 8⟩
abbrev CPC_ORDER_RAISE_MARGIN : Fld := ⟨0x90010, 4, 4, 16, 8⟩
abbrev CPC_ORDER_LIMIT_CLEAR : Fld := ⟨0x90010, 4, 4, 0, 16⟩
abbrev CPC_SENS_DEFAULT : Fld := ⟨0x90014, 4, 4, 0, 32⟩
abbrev CPC_HALL_CFG : Fld := ⟨0x90018, 4, 4, 0, 32⟩
abbrev CPC_HALL_CFG_HALL_INTERVAL : Fld := ⟨0x90018, 4, 4, 19, 13⟩
abbrev CPC_HALL_CFG_LEND_MARGIN : Fld := ⟨0x90018, 4, 4, 8, 8⟩
abbrev CPC_HALL_CFG_LOAN_TERM : Fld := ⟨0x90018, 4, 4, 4, 4⟩
abbrev CPC_HALL_CFG_LOAN_GUARD : Fld := ⟨0x90018, 4, 4, 0, 4⟩
abbrev CPC_RECON_CFG : Fld := ⟨0x9001C, 4, 4, 0, 32⟩
abbrev CPC_RECON_CFG_RECON_COUNT : Fld := ⟨0x9001C, 4, 4, 16, 16⟩
abbrev CPC_RECON_CFG_RECON_TOL : Fld := ⟨0x9001C, 4, 4, 0, 8⟩
abbrev CPC_ATTR_COMPUTE : Fld := ⟨0x90020, 4, 4, 0, 32⟩
abbrev CPC_ATTR_MEMORY : Fld := ⟨0x90024, 4, 4, 0, 32⟩
abbrev CPC_ATTR_LINK : Fld := ⟨0x90028, 4, 4, 0, 32⟩
abbrev CPC_ATTR_STATIC : Fld := ⟨0x9002C, 4, 4, 0, 32⟩
abbrev CPC_SET_HALL : Fld := ⟨0x90030, 4, 4, 0, 32⟩
abbrev CPC_LOOKBACK : Fld := ⟨0x90034, 4, 4, 0, 32⟩
abbrev CPC_CONTRACT : Fld := ⟨0x90040, 4, 4, 0, 32⟩
abbrev CPC_CEILING : Fld := ⟨0x90044, 4, 4, 0, 32⟩
abbrev CPC_RACK_MAX : Fld := ⟨0x90048, 4, 4, 0, 32⟩
abbrev CPC_LOAN : Fld := ⟨0x9004C, 4, 4, 0, 32⟩
abbrev CPC_HALL_IDX_LO : Fld := ⟨0x90050, 4, 4, 0, 32⟩
abbrev CPC_HALL_IDX_HI : Fld := ⟨0x90054, 4, 4, 0, 32⟩
abbrev CPC_GRANT_IDX_LO : Fld := ⟨0x90058, 4, 4, 0, 32⟩
abbrev CPC_GRANT_IDX_HI : Fld := ⟨0x9005C, 4, 4, 0, 32⟩
abbrev CPC_UNATTR_LO : Fld := ⟨0x90060, 4, 4, 0, 32⟩
abbrev CPC_UNATTR_HI : Fld := ⟨0x90064, 4, 4, 0, 32⟩
abbrev CPC_RECON_RATIO : Fld := ⟨0x90068, 4, 4, 0, 32⟩
abbrev CPC_JOB_ID : Fld := ⟨0x90100, 16, 4, 0, 32⟩
abbrev CPC_JOB_ID_VALID : Fld := ⟨0x90100, 16, 4, 31, 1⟩
abbrev CPC_JOB_ID_N : Fld := ⟨0x90100, 16, 4, 16, 8⟩
abbrev CPC_JOB_ID_JOB : Fld := ⟨0x90100, 16, 4, 0, 16⟩
abbrev CPC_JOB_FREQ : Fld := ⟨0x90104, 16, 4, 0, 32⟩
abbrev CPC_JOB_FREQ_FREQ : Fld := ⟨0x90104, 16, 4, 16, 16⟩
abbrev CPC_JOB_FREQ_STATE : Fld := ⟨0x90104, 16, 4, 8, 8⟩
abbrev CPC_JOB_FREQ_PRIO : Fld := ⟨0x90104, 16, 4, 0, 3⟩
abbrev CPC_JOB_RANGE : Fld := ⟨0x90108, 16, 4, 0, 32⟩
abbrev CPC_JOB_RANGE_CAP : Fld := ⟨0x90108, 16, 4, 16, 16⟩
abbrev CPC_JOB_RANGE_FLOOR : Fld := ⟨0x90108, 16, 4, 0, 16⟩
abbrev CPC_JOB_SENS : Fld := ⟨0x9010C, 16, 4, 0, 32⟩
abbrev CPC_OVR_A : Fld := ⟨0x90500, 8, 4, 0, 32⟩
abbrev CPC_OVR_A_EN : Fld := ⟨0x90500, 8, 4, 31, 1⟩
abbrev CPC_OVR_A_ORDER_EN : Fld := ⟨0x90500, 8, 4, 30, 1⟩
abbrev CPC_OVR_A_PRIO : Fld := ⟨0x90500, 8, 4, 27, 3⟩
abbrev CPC_OVR_A_ORDER : Fld := ⟨0x90500, 8, 4, 16, 8⟩
abbrev CPC_OVR_A_JOB : Fld := ⟨0x90500, 8, 4, 0, 16⟩
abbrev CPC_OVR_B : Fld := ⟨0x90504, 8, 4, 0, 32⟩
abbrev CPC_OVR_B_CAP : Fld := ⟨0x90504, 8, 4, 0, 16⟩
abbrev CPC_CT_A : Fld := ⟨0x90800, 16, 4, 0, 32⟩
abbrev CPC_CT_A_EN : Fld := ⟨0x90800, 16, 4, 31, 1⟩
abbrev CPC_CT_A_RACK : Fld := ⟨0x90800, 16, 4, 0, 16⟩
abbrev CPC_CT_B : Fld := ⟨0x90804, 16, 4, 0, 32⟩
abbrev CPC_CT_B_CONTRACT : Fld := ⟨0x90804, 16, 4, 0, 32⟩
abbrev CPC_CT_C : Fld := ⟨0x90808, 16, 4, 0, 32⟩
abbrev CPC_CT_C_MAX : Fld := ⟨0x90808, 16, 4, 0, 32⟩
abbrev CPC_CT_D : Fld := ⟨0x9080C, 16, 4, 0, 32⟩
abbrev LDG_STATUS : Fld := ⟨0xA0000, 4, 4, 0, 32⟩
abbrev LDG_STATUS_ROLE : Fld := ⟨0xA0000, 4, 4, 30, 2⟩
abbrev LDG_STATUS_ARBITER : Fld := ⟨0xA0000, 4, 4, 29, 1⟩
abbrev LDG_STATUS_SEAT : Fld := ⟨0xA0000, 4, 4, 28, 1⟩
abbrev LDG_STATUS_HALL_LEADER : Fld := ⟨0xA0000, 4, 4, 27, 1⟩
abbrev LDG_STATUS_LEASE : Fld := ⟨0xA0000, 4, 4, 26, 1⟩
abbrev LDG_STATUS_FORMING : Fld := ⟨0xA0000, 4, 4, 25, 1⟩
abbrev LDG_STATUS_VOICE_GEN : Fld := ⟨0xA0000, 4, 4, 0, 16⟩
abbrev LDG_CMD : Fld := ⟨0xA0004, 4, 4, 0, 32⟩
abbrev LDG_CMD_CMD : Fld := ⟨0xA0004, 4, 4, 0, 4⟩
abbrev LDG_CFG : Fld := ⟨0xA0008, 4, 4, 0, 32⟩
abbrev LDG_CFG_EN : Fld := ⟨0xA0008, 4, 4, 31, 1⟩
abbrev LDG_CFG_SHELVES : Fld := ⟨0xA0008, 4, 4, 24, 3⟩
abbrev LDG_CFG_HALL_RACKS : Fld := ⟨0xA0008, 4, 4, 16, 8⟩
abbrev LDG_CFG_HALL : Fld := ⟨0xA0008, 4, 4, 0, 16⟩
abbrev LDG_RACK_TIME : Fld := ⟨0xA000C, 4, 4, 0, 32⟩
abbrev LDG_RACK_TIME_ET_MIN : Fld := ⟨0xA000C, 4, 4, 16, 16⟩
abbrev LDG_RACK_TIME_HB : Fld := ⟨0xA000C, 4, 4, 0, 16⟩
abbrev LDG_HALL_TIME : Fld := ⟨0xA0010, 4, 4, 0, 32⟩
abbrev LDG_HALL_TIME_ET_MIN : Fld := ⟨0xA0010, 4, 4, 16, 16⟩
abbrev LDG_HALL_TIME_HB : Fld := ⟨0xA0010, 4, 4, 0, 16⟩
abbrev LDG_SYNC_STAT : Fld := ⟨0xA0014, 4, 4, 0, 32⟩
abbrev LDG_SYNC_STAT_STATE : Fld := ⟨0xA0014, 4, 4, 0, 2⟩
abbrev LDG_SYNC_IDX_LO : Fld := ⟨0xA0018, 4, 4, 0, 32⟩
abbrev LDG_SYNC_IDX_HI : Fld := ⟨0xA001C, 4, 4, 0, 32⟩
abbrev LDG_RACK_COMMIT_LO : Fld := ⟨0xA0020, 4, 4, 0, 32⟩
abbrev LDG_RACK_COMMIT_HI : Fld := ⟨0xA0024, 4, 4, 0, 32⟩
abbrev LDG_RACK_APPLIED_LO : Fld := ⟨0xA0028, 4, 4, 0, 32⟩
abbrev LDG_RACK_APPLIED_HI : Fld := ⟨0xA002C, 4, 4, 0, 32⟩
abbrev LDG_HALL_COMMIT_LO : Fld := ⟨0xA0030, 4, 4, 0, 32⟩
abbrev LDG_HALL_COMMIT_HI : Fld := ⟨0xA0034, 4, 4, 0, 32⟩
abbrev LDG_HALL_APPLIED_LO : Fld := ⟨0xA0038, 4, 4, 0, 32⟩
abbrev LDG_HALL_APPLIED_HI : Fld := ⟨0xA003C, 4, 4, 0, 32⟩
abbrev LDG_RACK_TERM : Fld := ⟨0xA0040, 4, 4, 0, 32⟩
abbrev LDG_HALL_TERM : Fld := ⟨0xA0044, 4, 4, 0, 32⟩
abbrev LDG_LEADER_LO : Fld := ⟨0xA0048, 4, 4, 0, 32⟩
abbrev LDG_LEADER_HI : Fld := ⟨0xA004C, 4, 4, 0, 32⟩
abbrev LDG_ARB : Fld := ⟨0xA0050, 4, 4, 0, 32⟩
abbrev LDG_ARB_DEPUTY : Fld := ⟨0xA0050, 4, 4, 4, 4⟩
abbrev LDG_ARB_PRIMARY : Fld := ⟨0xA0050, 4, 4, 0, 4⟩
abbrev LDG_ELECTIONS : Fld := ⟨0xA0054, 4, 4, 0, 32⟩
abbrev LDG_STATE_XFERS : Fld := ⟨0xA0058, 4, 4, 0, 32⟩
abbrev LDG_COMMIT_LAT : Fld := ⟨0xA005C, 4, 4, 0, 32⟩
abbrev LDG_COMMIT_LAT_MAX : Fld := ⟨0xA005C, 4, 4, 16, 16⟩
abbrev LDG_COMMIT_LAT_LAST : Fld := ⟨0xA005C, 4, 4, 0, 16⟩
abbrev LDG_HALL_GRP0 : Fld := ⟨0xA0060, 4, 4, 0, 32⟩
abbrev LDG_HALL_GRP1 : Fld := ⟨0xA0064, 4, 4, 0, 32⟩
abbrev LDG_HALL_GRP2 : Fld := ⟨0xA0068, 4, 4, 0, 32⟩
abbrev LDG_HALL_GRP3 : Fld := ⟨0xA006C, 4, 4, 0, 32⟩
abbrev LDG_MB_ID_LO : Fld := ⟨0xA0100, 16, 4, 0, 32⟩
abbrev LDG_MB_ID_HI : Fld := ⟨0xA0104, 16, 4, 0, 32⟩
abbrev LDG_MB_STATE : Fld := ⟨0xA0108, 16, 4, 0, 32⟩
abbrev LDG_MB_STATE_ROLE : Fld := ⟨0xA0108, 16, 4, 30, 2⟩
abbrev LDG_MB_STATE_REACH : Fld := ⟨0xA0108, 16, 4, 29, 1⟩
abbrev LDG_MB_STATE_SHELF : Fld := ⟨0xA0108, 16, 4, 24, 3⟩
abbrev LDG_MB_MATCH : Fld := ⟨0xA010C, 16, 4, 0, 32⟩
abbrev PKL_STATUS : Fld := ⟨0xB0000, 4, 4, 0, 32⟩
abbrev PKL_STATUS_PHASE : Fld := ⟨0xB0000, 4, 4, 29, 3⟩
abbrev PKL_STATUS_ENUM_INCOMPLETE : Fld := ⟨0xB0000, 4, 4, 28, 1⟩
abbrev PKL_STATUS_PERIOD_RAISED : Fld := ⟨0xB0000, 4, 4, 27, 1⟩
abbrev PKL_STATUS_LEAD_RAISED : Fld := ⟨0xB0000, 4, 4, 26, 1⟩
abbrev PKL_STATUS_TX : Fld := ⟨0xB0000, 4, 4, 25, 1⟩
abbrev PKL_STATUS_FOUND : Fld := ⟨0xB0000, 4, 4, 16, 6⟩
abbrev PKL_STATUS_LOST : Fld := ⟨0xB0000, 4, 4, 0, 6⟩
abbrev PKL_CMD : Fld := ⟨0xB0004, 4, 4, 0, 32⟩
abbrev PKL_CMD_CMD : Fld := ⟨0xB0004, 4, 4, 0, 4⟩
abbrev PKL_CFG : Fld := ⟨0xB0008, 4, 4, 0, 32⟩
abbrev PKL_CFG_EN : Fld := ⟨0xB0008, 4, 4, 31, 1⟩
abbrev PKL_CFG_OPEN_ENUM : Fld := ⟨0xB0008, 4, 4, 30, 1⟩
abbrev PKL_CFG_NODES : Fld := ⟨0xB0008, 4, 4, 16, 6⟩
abbrev PKL_CFG_SPLIT : Fld := ⟨0xB0008, 4, 4, 8, 6⟩
abbrev PKL_CFG_LOST_SWEEPS : Fld := ⟨0xB0008, 4, 4, 4, 4⟩
abbrev PKL_SWEEP_CFG : Fld := ⟨0xB000C, 4, 4, 0, 32⟩
abbrev PKL_SWEEP_CFG_BLEED_GUARD : Fld := ⟨0xB000C, 4, 4, 16, 16⟩
abbrev PKL_SWEEP_CFG_PERIOD : Fld := ⟨0xB000C, 4, 4, 0, 7⟩
abbrev PKL_RF_CFG : Fld := ⟨0xB0010, 4, 4, 0, 32⟩
abbrev PKL_RF_CFG_DISC_CH : Fld := ⟨0xB0010, 4, 4, 27, 5⟩
abbrev PKL_RF_CFG_FCH0 : Fld := ⟨0xB0010, 4, 4, 21, 6⟩
abbrev PKL_RF_CFG_FCH1 : Fld := ⟨0xB0010, 4, 4, 15, 6⟩
abbrev PKL_RF_CFG_FCH2 : Fld := ⟨0xB0010, 4, 4, 9, 6⟩
abbrev PKL_RF_CFG_TX_DBM : Fld := ⟨0xB0010, 4, 4, 0, 8⟩
abbrev PKL_BAL_CFG : Fld := ⟨0xB0014, 4, 4, 0, 32⟩
abbrev PKL_BAL_CFG_BAL_EN : Fld := ⟨0xB0014, 4, 4, 31, 1⟩
abbrev PKL_BAL_CFG_BAL_DELTA : Fld := ⟨0xB0014, 4, 4, 16, 8⟩
abbrev PKL_BAL_CFG_BAL_INTERVAL : Fld := ⟨0xB0014, 4, 4, 8, 8⟩
abbrev PKL_BAL_CFG_BAL_STEP : Fld := ⟨0xB0014, 4, 4, 0, 8⟩
abbrev PKL_EFF : Fld := ⟨0xB0018, 4, 4, 0, 32⟩
abbrev PKL_EFF_PERIOD_EFF : Fld := ⟨0xB0018, 4, 4, 16, 16⟩
abbrev PKL_EFF_EFF_SPLIT : Fld := ⟨0xB0018, 4, 4, 10, 6⟩
abbrev PKL_EFF_LEAD_EFF : Fld := ⟨0xB0018, 4, 4, 0, 10⟩
abbrev PKL_CHAIN : Fld := ⟨0xB001C, 4, 4, 0, 32⟩
abbrev PKL_SWEEP_FRAME_LO : Fld := ⟨0xB0020, 4, 4, 0, 32⟩
abbrev PKL_SWEEP_FRAME_HI : Fld := ⟨0xB0024, 4, 4, 0, 32⟩
abbrev PKL_SWEEP_NO : Fld := ⟨0xB0028, 4, 4, 0, 32⟩
abbrev PKL_CRC_ERR : Fld := ⟨0xB002C, 4, 4, 0, 32⟩
abbrev PKL_COMPLETIONS : Fld := ⟨0xB0030, 4, 4, 0, 32⟩
abbrev PKL_DISTURBED : Fld := ⟨0xB0034, 4, 4, 0, 32⟩
abbrev PKL_LOST_LO : Fld := ⟨0xB0038, 4, 4, 0, 32⟩
abbrev PKL_LOST_HI : Fld := ⟨0xB003C, 4, 4, 0, 32⟩
abbrev PKL_STALE_LO : Fld := ⟨0xB0040, 4, 4, 0, 32⟩
abbrev PKL_STALE_HI : Fld := ⟨0xB0044, 4, 4, 0, 32⟩
abbrev PKL_ND_MAP : Fld := ⟨0xB1000, 128, 4, 0, 32⟩
abbrev PKL_ND_MAP_EN : Fld := ⟨0xB1000, 128, 4, 31, 1⟩
abbrev PKL_ND_MAP_STRING : Fld := ⟨0xB1000, 128, 4, 30, 1⟩
abbrev PKL_ND_MAP_FIRST_CELL : Fld := ⟨0xB1000, 128, 4, 16, 10⟩
abbrev PKL_ND_MAP_CELLS : Fld := ⟨0xB1000, 128, 4, 8, 5⟩
abbrev PKL_ND_MAP_TEMPS : Fld := ⟨0xB1000, 128, 4, 0, 3⟩
abbrev PKL_ND_ID_EXP_LO : Fld := ⟨0xB1004, 128, 4, 0, 32⟩
abbrev PKL_ND_ID_EXP_HI : Fld := ⟨0xB1008, 128, 4, 0, 32⟩
abbrev PKL_ND_ID_FOUND_LO : Fld := ⟨0xB100C, 128, 4, 0, 32⟩
abbrev PKL_ND_ID_FOUND_HI : Fld := ⟨0xB1010, 128, 4, 0, 32⟩
abbrev PKL_ND_STAT : Fld := ⟨0xB1014, 128, 4, 0, 32⟩
abbrev PKL_ND_STAT_STATE : Fld := ⟨0xB1014, 128, 4, 29, 3⟩
abbrev PKL_ND_STAT_VIA : Fld := ⟨0xB1014, 128, 4, 27, 2⟩
abbrev PKL_ND_STAT_COMPLETED : Fld := ⟨0xB1014, 128, 4, 26, 1⟩
abbrev PKL_ND_STAT_STALE : Fld := ⟨0xB1014, 128, 4, 25, 1⟩
abbrev PKL_ND_STAT_MISSES : Fld := ⟨0xB1014, 128, 4, 20, 4⟩
abbrev PKL_ND_STAT_NODE_STATUS : Fld := ⟨0xB1014, 128, 4, 8, 8⟩
abbrev PKL_ND_AGE : Fld := ⟨0xB1018, 128, 4, 0, 32⟩
abbrev PKL_ND_CELLFLAG : Fld := ⟨0xB101C, 128, 4, 0, 32⟩
abbrev PKL_ND_CELLFLAG_DISTURBED : Fld := ⟨0xB101C, 128, 4, 16, 16⟩
abbrev PKL_ND_CELLFLAG_INVALID : Fld := ⟨0xB101C, 128, 4, 0, 16⟩
abbrev PKL_ND_TEMP : Fld := ⟨0xB1020, 128, 4, 0, 32⟩
abbrev PKL_ND_BLEED : Fld := ⟨0xB1024, 128, 4, 0, 32⟩
abbrev PKL_ND_BLEED_WIN : Fld := ⟨0xB1024, 128, 4, 16, 16⟩
abbrev PKL_ND_BLEED_RUN : Fld := ⟨0xB1024, 128, 4, 0, 16⟩
abbrev PKL_ND_CELL : Fld := ⟨0xB1030, 128, 4, 0, 32⟩
abbrev EST_STATUS : Fld := ⟨0xC0000, 4, 4, 0, 32⟩
abbrev EST_STATUS_SHIP_STEP : Fld := ⟨0xC0000, 4, 4, 29, 3⟩
abbrev EST_STATUS_RECORD_READ : Fld := ⟨0xC0000, 4, 4, 28, 1⟩
abbrev EST_STATUS_RESTORE : Fld := ⟨0xC0000, 4, 4, 24, 2⟩
abbrev EST_STATUS_RESTORE_ERR : Fld := ⟨0xC0000, 4, 4, 16, 8⟩
abbrev EST_CMD : Fld := ⟨0xC0004, 4, 4, 0, 32⟩
abbrev EST_CMD_FORCE : Fld := ⟨0xC0004, 4, 4, 9, 1⟩
abbrev EST_CMD_STRING : Fld := ⟨0xC0004, 4, 4, 8, 1⟩
abbrev EST_CMD_CMD : Fld := ⟨0xC0004, 4, 4, 0, 4⟩
abbrev EST_CFG : Fld := ⟨0xC0008, 4, 4, 0, 32⟩
abbrev EST_CFG_EN : Fld := ⟨0xC0008, 4, 4, 31, 1⟩
abbrev EST_CFG_WALK_PERMIT : Fld := ⟨0xC0008, 4, 4, 30, 1⟩
abbrev EST_CFG_AUTH_POLICY : Fld := ⟨0xC0008, 4, 4, 28, 2⟩
abbrev EST_CFG_PACK_KEY_SLOT : Fld := ⟨0xC0008, 4, 4, 24, 4⟩
abbrev EST_RESTORE_CFG : Fld := ⟨0xC000C, 4, 4, 0, 32⟩
abbrev EST_RESTORE_CFG_HOST_GAP : Fld := ⟨0xC000C, 4, 4, 16, 16⟩
abbrev EST_RESTORE_CFG_MAX_AGE : Fld := ⟨0xC000C, 4, 4, 8, 8⟩
abbrev EST_RESTORE_CFG_SELF_DIS : Fld := ⟨0xC000C, 4, 4, 0, 8⟩
abbrev EST_DRIFT_CFG : Fld := ⟨0xC0010, 4, 4, 0, 32⟩
abbrev EST_DRIFT_CFG_DRIFT_AGE : Fld := ⟨0xC0010, 4, 4, 16, 16⟩
abbrev EST_DRIFT_CFG_WALK_MAX : Fld := ⟨0xC0010, 4, 4, 8, 8⟩
abbrev EST_DRIFT_CFG_AUTH_PERIOD : Fld := ⟨0xC0010, 4, 4, 0, 8⟩
abbrev EST_LEARN_CFG : Fld := ⟨0xC0014, 4, 4, 0, 32⟩
abbrev EST_LEARN_CFG_T_MAX : Fld := ⟨0xC0014, 4, 4, 24, 8⟩
abbrev EST_LEARN_CFG_T_MIN : Fld := ⟨0xC0014, 4, 4, 16, 8⟩
abbrev EST_LEARN_CFG_RET_MAX : Fld := ⟨0xC0014, 4, 4, 8, 8⟩
abbrev EST_LEARN_CFG_TIMEOUT : Fld := ⟨0xC0014, 4, 4, 0, 8⟩
abbrev EST_SHIP_CFG : Fld := ⟨0xC0018, 4, 4, 0, 32⟩
abbrev EST_SHIP_CFG_SHIP_GRP : Fld := ⟨0xC0018, 4, 4, 24, 8⟩
abbrev EST_SHIP_CFG_SHIP_WAIT : Fld := ⟨0xC0018, 4, 4, 16, 8⟩
abbrev EST_SHIP_CFG_BUS_WAIT : Fld := ⟨0xC0018, 4, 4, 0, 16⟩
abbrev EST_AUTH_OK_LO : Fld := ⟨0xC0020, 4, 4, 0, 32⟩
abbrev EST_AUTH_OK_HI : Fld := ⟨0xC0024, 4, 4, 0, 32⟩
abbrev EST_AUTH_FAIL_LO : Fld := ⟨0xC0028, 4, 4, 0, 32⟩
abbrev EST_AUTH_FAIL_HI : Fld := ⟨0xC002C, 4, 4, 0, 32⟩
abbrev EST_REC : Fld := ⟨0xC0100, 4, 4, 0, 32⟩
abbrev EST_RST : Fld := ⟨0xC0200, 4, 4, 0, 32⟩
abbrev EST_S_CFG : Fld := ⟨0xC1000, 128, 4, 0, 32⟩
abbrev EST_S_CFG_EN : Fld := ⟨0xC1000, 128, 4, 31, 1⟩
abbrev EST_S_CFG_CELLS : Fld := ⟨0xC1000, 128, 4, 16, 9⟩
abbrev EST_S_CFG_V_NOM : Fld := ⟨0xC1000, 128, 4, 0, 16⟩
abbrev EST_S_CAP_FACT : Fld := ⟨0xC1004, 128, 4, 0, 32⟩
abbrev EST_S_VBASE : Fld := ⟨0xC1008, 128, 4, 0, 32⟩
abbrev EST_S_VBASE_FULL_BASE : Fld := ⟨0xC1008, 128, 4, 16, 16⟩
abbrev EST_S_VBASE_EMPTY_BASE : Fld := ⟨0xC1008, 128, 4, 0, 16⟩
abbrev EST_S_VGUARD : Fld := ⟨0xC100C, 128, 4, 0, 32⟩
abbrev EST_S_VGUARD_GUARD_HI : Fld := ⟨0xC100C, 128, 4, 16, 16⟩
abbrev EST_S_VGUARD_GUARD_LO : Fld := ⟨0xC100C, 128, 4, 0, 16⟩
abbrev EST_S_RCOMP : Fld := ⟨0xC1010, 128, 4, 0, 32⟩
abbrev EST_S_RCOMP_PERM_HYST : Fld := ⟨0xC1010, 128, 4, 24, 8⟩
abbrev EST_S_RCOMP_R_COMP : Fld := ⟨0xC1010, 128, 4, 0, 16⟩
abbrev EST_S_IMAX : Fld := ⟨0xC1014, 128, 4, 0, 32⟩
abbrev EST_S_IMAX_I_DIS_MAX : Fld := ⟨0xC1014, 128, 4, 16, 16⟩
abbrev EST_S_IMAX_I_CHG_MAX : Fld := ⟨0xC1014, 128, 4, 0, 16⟩
abbrev EST_S_TDER : Fld := ⟨0xC1018, 128, 4, 0, 32⟩
abbrev EST_S_TDER_T_HI_ZERO : Fld := ⟨0xC1018, 128, 4, 24, 8⟩
abbrev EST_S_TDER_T_HI_FULL : Fld := ⟨0xC1018, 128, 4, 16, 8⟩
abbrev EST_S_TDER_T_LO_FULL : Fld := ⟨0xC1018, 128, 4, 8, 8⟩
abbrev EST_S_TDER_T_LO_ZERO : Fld := ⟨0xC1018, 128, 4, 0, 8⟩
abbrev EST_S_UNC : Fld := ⟨0xC101C, 128, 4, 0, 32⟩
abbrev EST_S_UNC_I_UNC : Fld := ⟨0xC101C, 128, 4, 16, 16⟩
abbrev EST_S_UNC_GAIN_UNC : Fld := ⟨0xC101C, 128, 4, 8, 8⟩
abbrev EST_S_UNC_ANCHOR_UNC : Fld := ⟨0xC101C, 128, 4, 0, 8⟩
abbrev EST_S_ETA : Fld := ⟨0xC1020, 128, 4, 0, 32⟩
abbrev EST_S_STAT : Fld := ⟨0xC1024, 128, 4, 0, 32⟩
abbrev EST_S_STAT_UNKNOWN : Fld := ⟨0xC1024, 128, 4, 31, 1⟩
abbrev EST_S_STAT_COUNT_UNDER : Fld := ⟨0xC1024, 128, 4, 30, 1⟩
abbrev EST_S_STAT_COUNT_OVER : Fld := ⟨0xC1024, 128, 4, 29, 1⟩
abbrev EST_S_STAT_DRIFT : Fld := ⟨0xC1024, 128, 4, 28, 1⟩
abbrev EST_S_STAT_WALK : Fld := ⟨0xC1024, 128, 4, 27, 1⟩
abbrev EST_S_STAT_WALK_BLOCKED : Fld := ⟨0xC1024, 128, 4, 26, 1⟩
abbrev EST_S_STAT_LEARN : Fld := ⟨0xC1024, 128, 4, 25, 1⟩
abbrev EST_S_STAT_DIS_PERMIT : Fld := ⟨0xC1024, 128, 4, 24, 1⟩
abbrev EST_S_STAT_CHG_PERMIT : Fld := ⟨0xC1024, 128, 4, 23, 1⟩
abbrev EST_S_STAT_BLIND : Fld := ⟨0xC1024, 128, 4, 22, 1⟩
abbrev EST_S_STAT_TEMP_LOST : Fld := ⟨0xC1024, 128, 4, 21, 1⟩
abbrev EST_S_STAT_AUTH_HOLD : Fld := ⟨0xC1024, 128, 4, 20, 1⟩
abbrev EST_S_STAT_ANCHOR : Fld := ⟨0xC1024, 128, 4, 18, 2⟩
abbrev EST_S_STAT_LEARN_DONE : Fld := ⟨0xC1024, 128, 4, 7, 1⟩
abbrev EST_S_STAT_LEARN_ABORT : Fld := ⟨0xC1024, 128, 4, 6, 1⟩
abbrev EST_S_STAT_LEARN_REJECT : Fld := ⟨0xC1024, 128, 4, 5, 1⟩
abbrev EST_S_STAT_WALK_ABANDON : Fld := ⟨0xC1024, 128, 4, 4, 1⟩
abbrev EST_S_STAT_WALK_DONE : Fld := ⟨0xC1024, 128, 4, 3, 1⟩
abbrev EST_S_STAT_DISAGREE : Fld := ⟨0xC1024, 128, 4, 2, 1⟩
abbrev EST_S_STAT_RESTORED : Fld := ⟨0xC1024, 128, 4, 1, 1⟩
abbrev EST_S_STAT_ANCHOR_SET : Fld := ⟨0xC1024, 128, 4, 0, 1⟩
abbrev EST_S_SOC : Fld := ⟨0xC1028, 128, 4, 0, 32⟩
abbrev EST_S_SOC_SOC : Fld := ⟨0xC1028, 128, 4, 16, 16⟩
abbrev EST_S_SOC_SOC_UNC : Fld := ⟨0xC1028, 128, 4, 0, 16⟩
abbrev EST_S_Q : Fld := ⟨0xC102C, 128, 4, 0, 32⟩
abbrev EST_S_QUNC : Fld := ⟨0xC1030, 128, 4, 0, 32⟩
abbrev EST_S_CAP : Fld := ⟨0xC1034, 128, 4, 0, 32⟩
abbrev EST_S_CAP_LEARNED : Fld := ⟨0xC1038, 128, 4, 0, 32⟩
abbrev EST_S_AGE : Fld := ⟨0xC103C, 128, 4, 0, 32⟩
abbrev EST_S_LIMITS : Fld := ⟨0xC1040, 128, 4, 0, 32⟩
abbrev EST_S_LIMITS_DIS : Fld := ⟨0xC1040, 128, 4, 16, 16⟩
abbrev EST_S_LIMITS_CHG : Fld := ⟨0xC1040, 128, 4, 0, 16⟩
abbrev EST_S_VSTR : Fld := ⟨0xC1044, 128, 4, 0, 32⟩
abbrev EST_S_HEALTH : Fld := ⟨0xC1048, 128, 4, 0, 32⟩
abbrev EST_S_HEALTH_HEALTH_OVR : Fld := ⟨0xC1048, 128, 4, 16, 16⟩
abbrev EST_S_HEALTH_HEALTH : Fld := ⟨0xC1048, 128, 4, 0, 16⟩
abbrev EST_S_VOC : Fld := ⟨0xC104C, 128, 4, 0, 32⟩
abbrev EST_S_VOC_HI : Fld := ⟨0xC104C, 128, 4, 16, 16⟩
abbrev EST_S_VOC_LO : Fld := ⟨0xC104C, 128, 4, 0, 16⟩
abbrev TWN_STATUS : Fld := ⟨0xD0000, 4, 4, 0, 32⟩
abbrev TWN_STATUS_STATE : Fld := ⟨0xD0000, 4, 4, 29, 3⟩
abbrev TWN_STATUS_LOCK : Fld := ⟨0xD0000, 4, 4, 28, 1⟩
abbrev TWN_STATUS_TWIN_CLAIM : Fld := ⟨0xD0000, 4, 4, 27, 1⟩
abbrev TWN_STATUS_READY : Fld := ⟨0xD0000, 4, 4, 26, 1⟩
abbrev TWN_STATUS_DEGRADED : Fld := ⟨0xD0000, 4, 4, 25, 1⟩
abbrev TWN_STATUS_SLOT : Fld := ⟨0xD0000, 4, 4, 24, 1⟩
abbrev TWN_STATUS_FORERUNNER : Fld := ⟨0xD0000, 4, 4, 23, 1⟩
abbrev TWN_STATUS_VOICE : Fld := ⟨0xD0000, 4, 4, 22, 1⟩
abbrev TWN_STATUS_JOURNAL_LAG : Fld := ⟨0xD0000, 4, 4, 21, 1⟩
abbrev TWN_STATUS_LOCK_BLOCKED : Fld := ⟨0xD0000, 4, 4, 20, 1⟩
abbrev TWN_STATUS_LAST_CODE : Fld := ⟨0xD0000, 4, 4, 8, 8⟩
abbrev TWN_STATUS_RESULT : Fld := ⟨0xD0000, 4, 4, 0, 8⟩
abbrev TWN_CMD : Fld := ⟨0xD0004, 4, 4, 0, 32⟩
abbrev TWN_CMD_CMD : Fld := ⟨0xD0004, 4, 4, 0, 4⟩
abbrev TWN_CFG : Fld := ⟨0xD0008, 4, 4, 0, 32⟩
abbrev TWN_CFG_AUTO_SWITCH : Fld := ⟨0xD0008, 4, 4, 31, 1⟩
abbrev TWN_CFG_FORERUNNER : Fld := ⟨0xD0008, 4, 4, 30, 1⟩
abbrev TWN_CFG_PRE_RUN : Fld := ⟨0xD0008, 4, 4, 16, 8⟩
abbrev TWN_CFG_MISS_LIMIT : Fld := ⟨0xD0008, 4, 4, 8, 8⟩
abbrev TWN_CFG_BEAT_WIN : Fld := ⟨0xD0008, 4, 4, 4, 4⟩
abbrev TWN_SHADOW_CFG : Fld := ⟨0xD000C, 4, 4, 0, 32⟩
abbrev TWN_SHADOW_CFG_SHADOW_FAIL : Fld := ⟨0xD000C, 4, 4, 24, 8⟩
abbrev TWN_SHADOW_CFG_SHADOW_TOL_AD : Fld := ⟨0xD000C, 4, 4, 16, 8⟩
abbrev TWN_SHADOW_CFG_SHADOW_FC_TOL : Fld := ⟨0xD000C, 4, 4, 0, 16⟩
abbrev TWN_TIMES : Fld := ⟨0xD0010, 4, 4, 0, 32⟩
abbrev TWN_TIMES_LOCK_WAIT : Fld := ⟨0xD0010, 4, 4, 16, 16⟩
abbrev TWN_TIMES_RESYNC_MAX : Fld := ⟨0xD0010, 4, 4, 0, 16⟩
abbrev TWN_PATHS : Fld := ⟨0xD0014, 4, 4, 0, 32⟩
abbrev TWN_PATHS_STAKE : Fld := ⟨0xD0014, 4, 4, 30, 2⟩
abbrev TWN_PATHS_BINDER : Fld := ⟨0xD0014, 4, 4, 28, 2⟩
abbrev TWN_PATHS_STAKE_MISSES : Fld := ⟨0xD0014, 4, 4, 24, 4⟩
abbrev TWN_PATHS_BINDER_MISSES : Fld := ⟨0xD0014, 4, 4, 20, 4⟩
abbrev TWN_PATHS_LANE_DOWN : Fld := ⟨0xD0014, 4, 4, 19, 1⟩
abbrev TWN_PATHS_COPY_AGE : Fld := ⟨0xD0014, 4, 4, 0, 16⟩
abbrev TWN_LAST : Fld := ⟨0xD0018, 4, 4, 0, 32⟩
abbrev TWN_LAST_CODE : Fld := ⟨0xD0018, 4, 4, 24, 8⟩
abbrev TWN_LAST_CAUSE : Fld := ⟨0xD0018, 4, 4, 16, 8⟩
abbrev TWN_LAST_DURATION : Fld := ⟨0xD0018, 4, 4, 0, 16⟩
abbrev TWN_COPY_TX : Fld := ⟨0xD001C, 4, 4, 0, 32⟩
abbrev TWN_COPY_RX : Fld := ⟨0xD0020, 4, 4, 0, 32⟩
abbrev TWN_COPY_ERR : Fld := ⟨0xD0024, 4, 4, 0, 32⟩
abbrev TWN_BEAT_MISS : Fld := ⟨0xD0028, 4, 4, 0, 32⟩
abbrev TWN_BEAT_MISS_STAKE : Fld := ⟨0xD0028, 4, 4, 16, 16⟩
abbrev TWN_BEAT_MISS_BINDER : Fld := ⟨0xD0028, 4, 4, 0, 16⟩
abbrev TWN_CONFLICTS : Fld := ⟨0xD002C, 4, 4, 0, 32⟩
abbrev TWN_SWITCHES : Fld := ⟨0xD0030, 4, 4, 0, 32⟩
abbrev TWN_SWITCHES_TAKEN : Fld := ⟨0xD0030, 4, 4, 16, 16⟩
abbrev TWN_SWITCHES_RELEASED : Fld := ⟨0xD0030, 4, 4, 0, 16⟩
abbrev TWN_PEER_ID_LO : Fld := ⟨0xD0034, 4, 4, 0, 32⟩
abbrev TWN_PEER_ID_HI : Fld := ⟨0xD0038, 4, 4, 0, 32⟩
abbrev TWN_HEALTH : Fld := ⟨0xD0100, 4, 4, 0, 32⟩
abbrev LOG_STATUS : Fld := ⟨0xE0000, 4, 4, 0, 32⟩
abbrev LOG_STATUS_READY : Fld := ⟨0xE0000, 4, 4, 31, 1⟩
abbrev LOG_STATUS_FROZEN : Fld := ⟨0xE0000, 4, 4, 30, 1⟩
abbrev LOG_STATUS_SPILL : Fld := ⟨0xE0000, 4, 4, 29, 1⟩
abbrev LOG_STATUS_ERASING : Fld := ⟨0xE0000, 4, 4, 28, 1⟩
abbrev LOG_STATUS_HEART_FULL : Fld := ⟨0xE0000, 4, 4, 27, 1⟩
abbrev LOG_STATUS_DUMPING : Fld := ⟨0xE0000, 4, 4, 26, 1⟩
abbrev LOG_STATUS_CMD_RESULT : Fld := ⟨0xE0000, 4, 4, 23, 3⟩
abbrev LOG_STATUS_QUEUE : Fld := ⟨0xE0000, 4, 4, 0, 10⟩
abbrev LOG_CMD : Fld := ⟨0xE0004, 4, 4, 0, 32⟩
abbrev LOG_CMD_CMD : Fld := ⟨0xE0004, 4, 4, 0, 4⟩
abbrev LOG_CFG : Fld := ⟨0xE0008, 4, 4, 0, 32⟩
abbrev LOG_CFG_FREEZE_MAX : Fld := ⟨0xE0008, 4, 4, 24, 8⟩
abbrev LOG_CFG_REPEAT_MS : Fld := ⟨0xE0008, 4, 4, 0, 16⟩
abbrev LOG_FIRST_SEQ_LO : Fld := ⟨0xE0010, 4, 4, 0, 32⟩
abbrev LOG_FIRST_SEQ_HI : Fld := ⟨0xE0014, 4, 4, 0, 32⟩
abbrev LOG_LAST_SEQ_LO : Fld := ⟨0xE0018, 4, 4, 0, 32⟩
abbrev LOG_LAST_SEQ_HI : Fld := ⟨0xE001C, 4, 4, 0, 32⟩
abbrev LOG_BOOT : Fld := ⟨0xE0020, 4, 4, 0, 32⟩
abbrev LOG_SPILL : Fld := ⟨0xE0024, 4, 4, 0, 32⟩
abbrev LOG_DROP : Fld := ⟨0xE0028, 4, 4, 0, 32⟩
abbrev LOG_FREEZE_DROP : Fld := ⟨0xE002C, 4, 4, 0, 32⟩
abbrev LOG_LOST : Fld := ⟨0xE0030, 4, 4, 0, 32⟩
abbrev LOG_CRC_SKIP : Fld := ⟨0xE0034, 4, 4, 0, 32⟩
abbrev LOG_FILTERED : Fld := ⟨0xE0038, 4, 4, 0, 32⟩
abbrev LOG_RD_SEQ_LO : Fld := ⟨0xE0040, 4, 4, 0, 32⟩
abbrev LOG_RD_SEQ_HI : Fld := ⟨0xE0044, 4, 4, 0, 32⟩
abbrev LOG_RD_STAT : Fld := ⟨0xE0048, 4, 4, 0, 32⟩
abbrev LOG_RD_STAT_QUEUED : Fld := ⟨0xE0048, 4, 4, 3, 1⟩
abbrev LOG_RD_STAT_AREA : Fld := ⟨0xE0048, 4, 4, 2, 1⟩
abbrev LOG_RD_STAT_RESULT : Fld := ⟨0xE0048, 4, 4, 0, 2⟩
abbrev LOG_DUMP_ADDR_LO : Fld := ⟨0xE0050, 4, 4, 0, 32⟩
abbrev LOG_DUMP_ADDR_HI : Fld := ⟨0xE0054, 4, 4, 0, 32⟩
abbrev LOG_DUMP_FROM_LO : Fld := ⟨0xE0058, 4, 4, 0, 32⟩
abbrev LOG_DUMP_FROM_HI : Fld := ⟨0xE005C, 4, 4, 0, 32⟩
abbrev LOG_DUMP_COUNT : Fld := ⟨0xE0060, 4, 4, 0, 32⟩
abbrev LOG_DUMP_DONE : Fld := ⟨0xE0064, 4, 4, 0, 32⟩
abbrev LOG_LEVEL : Fld := ⟨0xE0100, 4, 4, 0, 32⟩
abbrev LOG_LEVEL_MIN : Fld := ⟨0xE0100, 4, 4, 0, 3⟩
abbrev LOG_RD_DATA : Fld := ⟨0xE0200, 4, 4, 0, 32⟩
abbrev LCS_STATUS : Fld := ⟨0xF0000, 4, 4, 0, 32⟩
abbrev LCS_STATUS_STATE : Fld := ⟨0xF0000, 4, 4, 29, 3⟩
abbrev LCS_STATUS_LOCK : Fld := ⟨0xF0000, 4, 4, 28, 1⟩
abbrev LCS_STATUS_DEBUG : Fld := ⟨0xF0000, 4, 4, 27, 1⟩
abbrev LCS_STATUS_PENDING : Fld := ⟨0xF0000, 4, 4, 26, 1⟩
abbrev LCS_STATUS_RETURNS : Fld := ⟨0xF0000, 4, 4, 24, 2⟩
abbrev LCS_STATUS_CMD_RESULT : Fld := ⟨0xF0000, 4, 4, 16, 8⟩
abbrev LCS_STATUS_STEP : Fld := ⟨0xF0000, 4, 4, 12, 4⟩
abbrev LCS_CMD : Fld := ⟨0xF0004, 4, 4, 0, 32⟩
abbrev LCS_CMD_CMD : Fld := ⟨0xF0004, 4, 4, 0, 4⟩
abbrev LCS_SRC_ADDR_LO : Fld := ⟨0xF0008, 4, 4, 0, 32⟩
abbrev LCS_SRC_ADDR_HI : Fld := ⟨0xF000C, 4, 4, 0, 32⟩
abbrev LCS_SRC_LEN : Fld := ⟨0xF0010, 4, 4, 0, 32⟩
abbrev LCS_MIN_IMG : Fld := ⟨0xF0014, 4, 4, 0, 32⟩
abbrev LCS_MIN_FW : Fld := ⟨0xF0018, 4, 4, 0, 32⟩
abbrev LCS_NONCE : Fld := ⟨0xF0020, 4, 4, 0, 32⟩
abbrev CTX_STATUS : Fld := ⟨0x100000, 4, 4, 0, 32⟩
abbrev CTX_STATUS_READY : Fld := ⟨0x100000, 4, 4, 31, 1⟩
abbrev CTX_STATUS_WIPING : Fld := ⟨0x100000, 4, 4, 30, 1⟩
abbrev CTX_STATUS_ALLOC_FULL : Fld := ⟨0x100000, 4, 4, 29, 1⟩
abbrev CTX_STATUS_WIPE_TIME : Fld := ⟨0x100000, 4, 4, 0, 16⟩
abbrev CTX_CMD : Fld := ⟨0x100004, 4, 4, 0, 32⟩
abbrev CTX_CMD_INDEX : Fld := ⟨0x100004, 4, 4, 16, 14⟩
abbrev CTX_CMD_KIND : Fld := ⟨0x100004, 4, 4, 4, 2⟩
abbrev CTX_CMD_CMD : Fld := ⟨0x100004, 4, 4, 0, 4⟩
abbrev CTX_KEY_LO : Fld := ⟨0x100008, 4, 4, 0, 32⟩
abbrev CTX_KEY_HI : Fld := ⟨0x10000C, 4, 4, 0, 32⟩
abbrev CTX_RESULT : Fld := ⟨0x100010, 4, 4, 0, 32⟩
abbrev CTX_RESULT_INDEX : Fld := ⟨0x100010, 4, 4, 16, 14⟩
abbrev CTX_RESULT_RESULT : Fld := ⟨0x100010, 4, 4, 0, 3⟩
abbrev CTX_COUNT_A : Fld := ⟨0x100014, 4, 4, 0, 32⟩
abbrev CTX_COUNT_A_JOB : Fld := ⟨0x100014, 4, 4, 16, 16⟩
abbrev CTX_COUNT_A_STREAM : Fld := ⟨0x100014, 4, 4, 0, 16⟩
abbrev CTX_COUNT_B : Fld := ⟨0x100018, 4, 4, 0, 32⟩
abbrev CTX_COUNT_B_PINNED : Fld := ⟨0x100018, 4, 4, 16, 16⟩
abbrev CTX_COUNT_B_ACCOUNT : Fld := ⟨0x100018, 4, 4, 0, 16⟩
abbrev CTX_EVICT_CFG : Fld := ⟨0x10001C, 4, 4, 0, 32⟩
abbrev CTX_EVICT_CFG_PIN_MAX : Fld := ⟨0x10001C, 4, 4, 16, 16⟩
abbrev CTX_EVICT_CFG_IDLE_MIN : Fld := ⟨0x10001C, 4, 4, 0, 16⟩
abbrev CTX_ALLOC_FAIL : Fld := ⟨0x100020, 4, 4, 0, 32⟩
abbrev CTX_HELD_DROP : Fld := ⟨0x100024, 4, 4, 0, 32⟩
abbrev CTX_HOST_DENIED : Fld := ⟨0x100028, 4, 4, 0, 32⟩
abbrev CTX_HOST_POISON : Fld := ⟨0x10002C, 4, 4, 0, 32⟩
abbrev CTX_ECC_CE : Fld := ⟨0x100030, 4, 4, 0, 32⟩
abbrev CTX_ECC_UE : Fld := ⟨0x100034, 4, 4, 0, 32⟩
abbrev CTX_POISON_ADDR_LO : Fld := ⟨0x100038, 4, 4, 0, 32⟩
abbrev CTX_POISON_ADDR_HI : Fld := ⟨0x10003C, 4, 4, 0, 32⟩
abbrev CTX_SCRUB_CFG : Fld := ⟨0x100040, 4, 4, 0, 32⟩
abbrev CTX_SCRUB_CFG_EN : Fld := ⟨0x100040, 4, 4, 31, 1⟩
abbrev CTX_SCRUB_CFG_PERIOD : Fld := ⟨0x100040, 4, 4, 0, 8⟩
abbrev CTX_SRAM_CE : Fld := ⟨0x100044, 4, 4, 0, 32⟩
abbrev CTX_CAP_CFG : Fld := ⟨0x101000, 32, 4, 0, 32⟩
abbrev CTX_CAP_CFG_EN : Fld := ⟨0x101000, 32, 4, 31, 1⟩
abbrev CTX_CAP_CFG_MODE : Fld := ⟨0x101000, 32, 4, 30, 1⟩
abbrev CTX_CAP_CFG_TRIG_SIG : Fld := ⟨0x101000, 32, 4, 25, 5⟩
abbrev CTX_CAP_CFG_SRC : Fld := ⟨0x101000, 32, 4, 0, 9⟩
abbrev CTX_CAP_BASE : Fld := ⟨0x101004, 32, 4, 0, 32⟩
abbrev CTX_CAP_SIZE : Fld := ⟨0x101008, 32, 4, 0, 32⟩
abbrev CTX_CAP_POST : Fld := ⟨0x10100C, 32, 4, 0, 32⟩
abbrev CTX_CAP_HEAD_LO : Fld := ⟨0x101010, 32, 4, 0, 32⟩
abbrev CTX_CAP_HEAD_HI : Fld := ⟨0x101014, 32, 4, 0, 32⟩
abbrev CTX_CAP_STAT : Fld := ⟨0x101018, 32, 4, 0, 32⟩
abbrev CTX_CAP_STAT_RUNNING : Fld := ⟨0x101018, 32, 4, 31, 1⟩
abbrev CTX_CAP_STAT_TRIGGERED : Fld := ⟨0x101018, 32, 4, 30, 1⟩
abbrev CTX_CAP_STAT_STOPPED : Fld := ⟨0x101018, 32, 4, 29, 1⟩
abbrev CTX_CAP_STAT_OVERLAP : Fld := ⟨0x101018, 32, 4, 28, 1⟩
abbrev CTX_CAP_STAT_CONFLICT : Fld := ⟨0x101018, 32, 4, 27, 1⟩
abbrev CTX_CAP_STAT_RANGE : Fld := ⟨0x101018, 32, 4, 26, 1⟩
abbrev CTX_CAP_STAT_DROPPED : Fld := ⟨0x101018, 32, 4, 0, 16⟩
abbrev CTX_CAP_TRIG_BLOCK : Fld := ⟨0x10101C, 32, 4, 0, 32⟩
abbrev SEC_SLOT : Fld := ⟨0x110000, 4, 4, 0, 32⟩
abbrev SEC_SLOT_VALID : Fld := ⟨0x110000, 4, 4, 31, 1⟩
abbrev SEC_SLOT_REVOKED : Fld := ⟨0x110000, 4, 4, 30, 1⟩
abbrev SEC_SLOT_KIND : Fld := ⟨0x110000, 4, 4, 28, 2⟩
abbrev SEC_SLOT_USES : Fld := ⟨0x110000, 4, 4, 0, 8⟩
abbrev SEC_AGREE_PUB : Fld := ⟨0x110100, 4, 4, 0, 32⟩
abbrev SNAP_CTL : Fld := ⟨0x120000, 4, 4, 0, 32⟩
abbrev SNAP_CTL_SRC : Fld := ⟨0x120000, 4, 4, 30, 2⟩
abbrev SNAP_CTL_LOGIC_SIG : Fld := ⟨0x120000, 4, 4, 25, 5⟩
abbrev SNAP_CTL_COUNT : Fld := ⟨0x120000, 4, 4, 0, 10⟩
abbrev SNAP_CMD : Fld := ⟨0x120004, 4, 4, 0, 32⟩
abbrev SNAP_CMD_CMD : Fld := ⟨0x120004, 4, 4, 0, 2⟩
abbrev SNAP_STATUS : Fld := ⟨0x120008, 4, 4, 0, 32⟩
abbrev SNAP_STATUS_STATE : Fld := ⟨0x120008, 4, 4, 30, 2⟩
abbrev SNAP_STATUS_BUSY : Fld := ⟨0x120008, 4, 4, 29, 1⟩
abbrev SNAP_STATUS_LATE_AT : Fld := ⟨0x120008, 4, 4, 28, 1⟩
abbrev SNAP_STATUS_STALE_ANY : Fld := ⟨0x120008, 4, 4, 27, 1⟩
abbrev SNAP_STATUS_STOPPED_ANY : Fld := ⟨0x120008, 4, 4, 26, 1⟩
abbrev SNAP_AT_LO : Fld := ⟨0x120010, 4, 4, 0, 32⟩
abbrev SNAP_AT_HI : Fld := ⟨0x120014, 4, 4, 0, 32⟩
abbrev SNAP_FRAME_LO : Fld := ⟨0x120018, 4, 4, 0, 32⟩
abbrev SNAP_FRAME_HI : Fld := ⟨0x12001C, 4, 4, 0, 32⟩
abbrev SNAP_RACK_IDX_LO : Fld := ⟨0x120020, 4, 4, 0, 32⟩
abbrev SNAP_RACK_IDX_HI : Fld := ⟨0x120024, 4, 4, 0, 32⟩
abbrev SNAP_HALL_IDX_LO : Fld := ⟨0x120028, 4, 4, 0, 32⟩
abbrev SNAP_HALL_IDX_HI : Fld := ⟨0x12002C, 4, 4, 0, 32⟩
abbrev SNAP_STALE : Fld := ⟨0x120100, 4, 4, 0, 32⟩
abbrev SNAP_STOPPED : Fld := ⟨0x120180, 4, 4, 0, 32⟩
abbrev SNAP_LIST : Fld := ⟨0x121000, 4, 4, 0, 32⟩
abbrev SNAP_DATA : Fld := ⟨0x122000, 4, 4, 0, 32⟩
abbrev TH_STATUS : Fld := ⟨0x1000000, 4, 4, 0, 32⟩
abbrev TH_STATUS_FAULTED : Fld := ⟨0x1000000, 4, 4, 16, 16⟩
abbrev TH_STATUS_RUNNING : Fld := ⟨0x1000000, 4, 4, 0, 16⟩
abbrev TH_PART_CFG : Fld := ⟨0x1001000, 256, 4, 0, 32⟩
abbrev TH_PART_CFG_EN : Fld := ⟨0x1001000, 256, 4, 31, 1⟩
abbrev TH_PART_CFG_KIND : Fld := ⟨0x1001000, 256, 4, 30, 1⟩
abbrev TH_PART_CFG_AUTO_START : Fld := ⟨0x1001000, 256, 4, 29, 1⟩
abbrev TH_PART_CFG_AUTO_RESTART : Fld := ⟨0x1001000, 256, 4, 28, 1⟩
abbrev TH_PART_CFG_DEBUG_EN : Fld := ⟨0x1001000, 256, 4, 27, 1⟩
abbrev TH_PART_CFG_BW_WEIGHT : Fld := ⟨0x1001000, 256, 4, 16, 8⟩
abbrev TH_PART_CFG_KEY_MASK : Fld := ⟨0x1001000, 256, 4, 0, 8⟩
abbrev TH_PART_CORES : Fld := ⟨0x1001004, 256, 4, 0, 32⟩
abbrev TH_PART_LANES_LO : Fld := ⟨0x1001024, 256, 4, 0, 32⟩
abbrev TH_PART_LANES_HI : Fld := ⟨0x1001028, 256, 4, 0, 32⟩
abbrev TH_PART_DIGEST : Fld := ⟨0x100102C, 256, 4, 0, 32⟩
abbrev TH_PART_WIN_A : Fld := ⟨0x100105C, 256, 8, 0, 32⟩
abbrev TH_PART_WIN_A_R : Fld := ⟨0x100105C, 256, 8, 31, 1⟩
abbrev TH_PART_WIN_A_W : Fld := ⟨0x100105C, 256, 8, 30, 1⟩
abbrev TH_PART_WIN_A_BASE : Fld := ⟨0x100105C, 256, 8, 0, 21⟩
abbrev TH_PART_WIN_B : Fld := ⟨0x1001060, 256, 8, 0, 32⟩
abbrev TH_PART_WIN_B_SIZE : Fld := ⟨0x1001060, 256, 8, 0, 21⟩
abbrev TH_PART_STAT : Fld := ⟨0x10010E0, 256, 4, 0, 32⟩
abbrev TH_PART_STAT_STATE : Fld := ⟨0x10010E0, 256, 4, 28, 4⟩
abbrev TH_PART_STAT_ERROR : Fld := ⟨0x10010E0, 256, 4, 20, 8⟩
abbrev TH_PART_STAT_RESTARTS : Fld := ⟨0x10010E0, 256, 4, 12, 8⟩
abbrev TH_PART_STAT_SUSPENDED : Fld := ⟨0x10010E0, 256, 4, 11, 1⟩
abbrev TH_PART_STAT_CORES : Fld := ⟨0x10010E0, 256, 4, 0, 9⟩
abbrev TH_PART_CMD : Fld := ⟨0x10010E4, 256, 4, 0, 32⟩
abbrev TH_PART_CMD_CMD : Fld := ⟨0x10010E4, 256, 4, 0, 4⟩
abbrev TH_PART_SRC_LO : Fld := ⟨0x10010E8, 256, 4, 0, 32⟩
abbrev TH_PART_SRC_HI : Fld := ⟨0x10010EC, 256, 4, 0, 32⟩
abbrev TH_PART_LEN : Fld := ⟨0x10010F0, 256, 4, 0, 32⟩
abbrev TH_PART_FAULT : Fld := ⟨0x10010F4, 256, 4, 0, 32⟩
abbrev TH_PART_FAULT_CORE : Fld := ⟨0x10010F4, 256, 4, 24, 8⟩
abbrev TH_PART_FAULT_KIND : Fld := ⟨0x10010F4, 256, 4, 8, 4⟩
abbrev TH_PART_FAULT_CAUSE : Fld := ⟨0x10010F4, 256, 4, 0, 8⟩
abbrev TH_PART_EPC_LO : Fld := ⟨0x10010F8, 256, 4, 0, 32⟩
abbrev TH_PART_EPC_HI : Fld := ⟨0x10010FC, 256, 4, 0, 32⟩
abbrev TH_LANE_STAT : Fld := ⟨0x1002000, 4, 4, 0, 32⟩
abbrev TH_LANE_STAT_PART : Fld := ⟨0x1002000, 4, 4, 28, 4⟩
abbrev TH_LANE_STAT_VALID : Fld := ⟨0x1002000, 4, 4, 27, 1⟩
abbrev TH_LANE_STAT_LATE : Fld := ⟨0x1002000, 4, 4, 16, 8⟩
abbrev TH_LANE_STAT_PUBS : Fld := ⟨0x1002000, 4, 4, 0, 16⟩
abbrev TH_DIE_STATUS : Fld := ⟨0x1010000, 16777216, 4, 0, 32⟩
abbrev TH_DIE_STATUS_ON : Fld := ⟨0x1010000, 16777216, 4, 31, 1⟩
abbrev TH_DIE_STATUS_OPP : Fld := ⟨0x1010000, 16777216, 4, 26, 2⟩
abbrev TH_DIE_STATUS_OPP_BUSY : Fld := ⟨0x1010000, 16777216, 4, 25, 1⟩
abbrev TH_DIE_STATUS_CE_COUNT : Fld := ⟨0x1010000, 16777216, 4, 16, 8⟩
abbrev TH_DIE_STATUS_UE_COUNT : Fld := ⟨0x1010000, 16777216, 4, 8, 8⟩
abbrev TH_DIE_OPP : Fld := ⟨0x1010004, 16777216, 4, 0, 32⟩
abbrev TH_DIE_OPP_OPP : Fld := ⟨0x1010004, 16777216, 4, 0, 2⟩
abbrev TH_LM_SEL : Fld := ⟨0x1010010, 16777216, 4, 0, 32⟩
abbrev TH_LM_SEL_CORE : Fld := ⟨0x1010010, 16777216, 4, 0, 8⟩
abbrev TH_LM_DENIED : Fld := ⟨0x1010014, 16777216, 4, 0, 32⟩
abbrev MEMWIN_BASE_LO : Fld := ⟨0x3000000, 4, 4, 0, 32⟩
abbrev MEMWIN_BASE_LO_BASE_LO : Fld := ⟨0x3000000, 4, 4, 16, 16⟩
abbrev MEMWIN_BASE_HI : Fld := ⟨0x3000004, 4, 4, 0, 32⟩
abbrev MEMWIN_BASE_HI_BASE_HI : Fld := ⟨0x3000004, 4, 4, 0, 5⟩
abbrev MEMWIN_STATUS : Fld := ⟨0x3000008, 4, 4, 0, 32⟩
abbrev MEMWIN_STATUS_STACK_READY : Fld := ⟨0x3000008, 4, 4, 31, 1⟩

end Reg

/-! ## Rows, block by block -/

/-- Rows of the register tables in the 64 KB at 0x0: SYS_ID, SYS_REV, SYS_SELF_ID_LO and the rest of the block. -/
def regRows0 : List RegRow := [
  ⟨0x0, 4, 1, 4, 1, 0x0, 0x0, 0x0, 0x2400, false, 0⟩,
  ⟨0x4, 4, 1, 4, 1, 0x0, 0x0, 0x0, 0x0, false, 0⟩,
  ⟨0x8, 4, 1, 4, 1, 0x0, 0x0, 0x0, 0x0, false, 1⟩,
  ⟨0xC, 4, 1, 4, 1, 0x0, 0x0, 0x0, 0x0, false, 2⟩,
  ⟨0x10, 4, 1, 4, 1, 0x0, 0x0, 0x0, 0x0, false, 0⟩,
  ⟨0x18, 4, 1, 4, 1, 0x0, 0x0, 0x0, 0x0, false, 1⟩,
  ⟨0x1C, 4, 1, 4, 1, 0x0, 0x0, 0x0, 0x0, false, 2⟩,
  ⟨0x20, 4, 1, 4, 1, 0x0, 0x0, 0x0, 0x0, false, 0⟩,
  ⟨0x24, 4, 1, 4, 1, 0x0, 0x0, 0x0, 0x0, false, 0⟩,
  ⟨0x28, 4, 1, 4, 1, 0x0, 0x0, 0x0, 0x0, false, 0⟩,
  ⟨0x40, 4, 1, 4, 1, 0x0, 0x0, 0x0, 0x0, false, 0⟩,
  ⟨0x44, 4, 1, 4, 1, 0xFFFF, 0x0, 0x0, 0x0, false, 0⟩,
  ⟨0x48, 4, 1, 4, 1, 0x0, 0x0, 0x0, 0x0, false, 0⟩,
  ⟨0x4C, 4, 1, 4, 1, 0xFFFF, 0x0, 0x0, 0x0, false, 0⟩,
  ⟨0x50, 4, 1, 4, 1, 0xFFFF, 0x0, 0x0, 0x0, false, 0⟩,
  ⟨0x60, 4, 1, 4, 1, 0x0, 0xC00FFFFF, 0x0, 0x4000B8A2, false, 0⟩,
  ⟨0x64, 4, 1, 4, 1, 0x0, 0x7FFFF, 0x0, 0x6005, false, 0⟩,
  ⟨0x68, 4, 1, 4, 1, 0x0, 0x0, 0x0, 0x0, false, 0⟩,
  ⟨0x6C, 4, 1, 4, 1, 0x0, 0x0, 0x0, 0x0, false, 0⟩,
  ⟨0x80, 4, 1, 4, 1, 0x0, 0x0, 0x0, 0x0, false, 0⟩,
  ⟨0x100, 4, 16, 4, 1, 0x0, 0x0, 0xFFFFFFFF, 0x0, false, 0⟩,
  ⟨0x140, 4, 16, 4, 1, 0xFFFFFFFF, 0x0, 0x0, 0xFFFFFFFF, false, 0⟩,
  ⟨0x180, 4, 4, 4, 1, 0xFFFFFFFF, 0x0, 0x0, 0x0, false, 0⟩,
  ⟨0x1000, 4, 32, 4, 1, 0x8F1F0000, 0x0, 0x40000000, 0x0, false, 0⟩]

/-- Rows of the register tables in the 64 KB at 0x10000: CLK_STATUS, CLK_CMD, CLK_STEER and the rest of the block. -/
def regRows1 : List RegRow := [
  ⟨0x10000, 4, 1, 4, 1, 0x0, 0x0, 0x0, 0x0, false, 0⟩,
  ⟨0x10004, 4, 1, 4, 1, 0x0, 0x0, 0x0, 0x0, false, 0⟩,
  ⟨0x10008, 4, 1, 4, 1, 0x0, 0x0, 0x0, 0x0, false, 0⟩,
  ⟨0x10100, 4, 40, 4, 1, 0x0, 0x0, 0x0, 0x0, false, 0⟩]

/-- Rows of the register tables in the 64 KB at 0x20000: PWR_STATUS, PWR_CMD, PWR_KEEP_CFG and the rest of the block. -/
def regRows2 : List RegRow := [
  ⟨0x20000, 4, 1, 4, 1, 0x0, 0x0, 0x0, 0x0, false, 0⟩,
  ⟨0x20004, 4, 1, 4, 1, 0x0, 0x0, 0x0, 0x0, false, 0⟩,
  ⟨0x20008, 4, 1, 4, 1, 0xFFFFFF00, 0x0, 0x0, 0x500, false, 0⟩,
  ⟨0x2000C, 4, 1, 4, 1, 0x0, 0x0, 0xF, 0x0, false, 0⟩,
  ⟨0x20010, 4, 1, 4, 1, 0x0, 0x0, 0x1FF, 0x1, false, 0⟩,
  ⟨0x20014, 4, 1, 4, 1, 0x0, 0x0, 0x0, 0x0, false, 0⟩,
  ⟨0x20018, 4, 1, 4, 1, 0x0, 0x0, 0x0, 0x0, false, 0⟩,
  ⟨0x2001C, 4, 1, 4, 1, 0x0, 0x8000FFFF, 0x0, 0x80000064, false, 0⟩,
  ⟨0x20020, 4, 1, 4, 1, 0x0, 0x0, 0x0, 0x0, false, 1⟩,
  ⟨0x20024, 4, 1, 4, 1, 0x0, 0x0, 0x0, 0x0, false, 2⟩,
  ⟨0x20030, 4, 2, 4, 1, 0x0, 0x0, 0x0, 0x0, false, 0⟩,
  ⟨0x20038, 4, 1, 4, 1, 0xFFFF0000, 0x0, 0x0, 0x41A047E, false, 0⟩]

/-- Rows of the register tables in the 64 KB at 0x30000: CFG_STATUS, CFG_CMD, CFG_SRC_ADDR_LO and the rest of the block. -/
def regRows3 : List RegRow := [
  ⟨0x30000, 4, 1, 4, 1, 0x0, 0x0, 0x0, 0x0, false, 0⟩,
  ⟨0x30004, 4, 1, 4, 1, 0x0, 0x0, 0x0, 0x0, false, 0⟩,
  ⟨0x30008, 4, 1, 4, 1, 0xFFFFFFFF, 0x0, 0x0, 0x0, false, 1⟩,
  ⟨0x3000C, 4, 1, 4, 1, 0xFFFFFFFF, 0x0, 0x0, 0x0, false, 2⟩,
  ⟨0x30010, 4, 1, 4, 1, 0xFFFFFFFF, 0x0, 0x0, 0x0, false, 0⟩,
  ⟨0x30018, 4, 1, 4, 1, 0xFFFFFFFF, 0x0, 0x0, 0x0, false, 1⟩,
  ⟨0x3001C, 4, 1, 4, 1, 0xFFFFFFFF, 0x0, 0x0, 0x0, false, 2⟩,
  ⟨0x30020, 4, 1, 4, 1, 0x0, 0x0, 0x0, 0x0, false, 0⟩,
  ⟨0x30024, 4, 1, 4, 1, 0x0, 0x0, 0x0, 0x0, false, 0⟩,
  ⟨0x30028, 4, 1, 4, 1, 0x0, 0x7, 0x0, 0x3, false, 0⟩,
  ⟨0x30030, 4, 1, 4, 1, 0x0, 0x0, 0x0, 0x0, false, 0⟩,
  ⟨0x30040, 4, 1, 4, 1, 0x0, 0x0, 0x0, 0x0, false, 0⟩,
  ⟨0x30044, 4, 1, 4, 1, 0x0, 0x0, 0x0, 0x0, false, 0⟩,
  ⟨0x30050, 4, 1, 4, 1, 0x0, 0x0, 0x0, 0x0, false, 0⟩,
  ⟨0x30100, 4, 20, 4, 1, 0x0, 0x0, 0x0, 0x0, false, 0⟩,
  ⟨0x31000, 4, 512, 4, 1, 0x0, 0x0, 0x0, 0x0, false, 0⟩]

/-- Rows of the register tables in the 64 KB at 0x40000: SNS_STATUS, SNS_FEED_SEL, SNS_FEED_AGE and the rest of the block. -/
def regRows4 : List RegRow := [
  ⟨0x40000, 4, 1, 4, 1, 0x0, 0x0, 0x0, 0x0, false, 0⟩,
  ⟨0x40010, 4, 1, 4, 1, 0x8000003F, 0x0, 0x0, 0x0, false, 0⟩,
  ⟨0x40014, 4, 1, 4, 1, 0x0, 0x0, 0x0, 0x0, false, 0⟩,
  ⟨0x40020, 4, 1, 4, 1, 0xBFFFFFFF, 0x0, 0x0, 0xB0320000, false, 0⟩,
  ⟨0x40028, 4, 1, 4, 1, 0x0, 0x0, 0x0, 0x0, false, 1⟩,
  ⟨0x4002C, 4, 1, 4, 1, 0x0, 0x0, 0x0, 0x0, false, 2⟩,
  ⟨0x40030, 4, 1, 4, 1, 0x0, 0x0, 0x0, 0x0, false, 0⟩,
  ⟨0x40034, 4, 1, 4, 1, 0x0, 0x0, 0x0, 0x0, false, 0⟩,
  ⟨0x40038, 4, 1, 4, 1, 0x0, 0x0, 0x0, 0x0, false, 0⟩,
  ⟨0x40040, 4, 1, 4, 1, 0x0, 0x0, 0xFFFFFFFF, 0x0, false, 0⟩,
  ⟨0x40044, 4, 1, 4, 1, 0x0, 0x0, 0x3FF, 0x0, false, 0⟩,
  ⟨0x40100, 4, 8, 4, 1, 0xC0000007, 0x0, 0x0, 0x0, false, 0⟩,
  ⟨0x41000, 64, 42, 4, 1, 0xFF800000, 0x0, 0x0, 0x0, false, 0⟩,
  ⟨0x41004, 64, 42, 4, 1, 0xFFFCFFFF, 0x0, 0x0, 0x0, false, 0⟩,
  ⟨0x41008, 64, 42, 4, 1, 0xFFFFFFFF, 0x0, 0x0, 0x40000000, false, 0⟩,
  ⟨0x4100C, 64, 42, 4, 1, 0xFFFFFF, 0x0, 0x0, 0x0, true, 0⟩,
  ⟨0x41010, 64, 42, 4, 1, 0x0, 0x0, 0x0, 0x40000000, false, 0⟩,
  ⟨0x41014, 64, 42, 4, 1, 0x0, 0x0, 0x0, 0x0, true, 0⟩,
  ⟨0x41018, 64, 42, 4, 1, 0x0, 0x0, 0x0, 0x0, false, 0⟩,
  ⟨0x4101C, 64, 42, 4, 1, 0x0, 0x0, 0x3F, 0x0, false, 0⟩,
  ⟨0x41020, 64, 42, 4, 1, 0xFFFFFFFF, 0x0, 0x0, 0x0, false, 0⟩,
  ⟨0x41024, 64, 42, 4, 1, 0x0, 0x0, 0x0, 0x0, false, 0⟩,
  ⟨0x41028, 64, 42, 4, 1, 0x0, 0x0, 0x0, 0x0, false, 0⟩,
  ⟨0x4102C, 64, 42, 4, 1, 0x0, 0x0, 0x0, 0x0, false, 0⟩,
  ⟨0x41030, 64, 42, 4, 1, 0x0, 0x0, 0x0, 0x0, false, 0⟩,
  ⟨0x44000, 64, 48, 4, 1, 0xDFFFFFFF, 0x0, 0x0, 0x0, false, 0⟩,
  ⟨0x44004, 64, 48, 4, 1, 0xFFFCFFFF, 0x0, 0x0, 0x0, false, 0⟩,
  ⟨0x44008, 64, 48, 4, 1, 0x803F0000, 0x0, 0x0, 0x0, false, 0⟩,
  ⟨0x4400C, 64, 48, 4, 1, 0xFFFFFF, 0x0, 0x0, 0x0, false, 0⟩,
  ⟨0x44010, 64, 48, 4, 1, 0xFFFFFF, 0x0, 0x0, 0x0, false, 0⟩,
  ⟨0x44014, 64, 48, 4, 1, 0x0, 0x0, 0x0, 0x0, false, 0⟩,
  ⟨0x44018, 64, 48, 4, 1, 0x0, 0x0, 0x3, 0x0, false, 0⟩,
  ⟨0x46000, 256, 48, 4, 64, 0xFFFFFF, 0x0, 0x0, 0x0, true, 0⟩]

/-- Rows of the register tables in the 64 KB at 0x50000: LT_BANK_SEL, LT_BANK_ACT, LT_FAULT and the rest of the block. -/
def regRows5a : List RegRow := [
  ⟨0x50000, 4, 3, 4, 1, 0xFFFFFFFF, 0x0, 0x0, 0x0, false, 0⟩,
  ⟨0x50010, 4, 3, 4, 1, 0x0, 0x0, 0x0, 0x0, false, 0⟩,
  ⟨0x50020, 4, 3, 4, 1, 0x0, 0x0, 0x0, 0x0, false, 0⟩,
  ⟨0x50030, 4, 3, 4, 1, 0x0, 0x0, 0x0, 0x0, false, 0⟩,
  ⟨0x50040, 4, 1, 4, 1, 0x0, 0x0, 0x0, 0x0, false, 0⟩,
  ⟨0x51000, 512, 96, 4, 1, 0xFFFF0000, 0x0, 0x0, 0x0, false, 0⟩,
  ⟨0x51004, 512, 96, 4, 1, 0x1FF01FF, 0x0, 0x0, 0x1FF01FF, false, 0⟩,
  ⟨0x51008, 512, 96, 4, 1, 0x1FF01FF, 0x0, 0x0, 0x1FF01FF, false, 0⟩,
  ⟨0x5100C, 512, 96, 4, 1, 0x3F0001FF, 0x0, 0x0, 0x1FF, false, 0⟩,
  ⟨0x51010, 512, 96, 4, 1, 0xFFFFFF, 0x0, 0x0, 0x0, true, 0⟩,
  ⟨0x51014, 512, 96, 4, 1, 0xFFFFFF, 0x0, 0x0, 0x0, false, 0⟩,
  ⟨0x51018, 512, 96, 4, 1, 0x0, 0x0, 0x0, 0x0, false, 0⟩,
  ⟨0x5101C, 512, 96, 4, 1, 0xFFFFFF, 0x0, 0x0, 0x7FFFFF, true, 0⟩,
  ⟨0x51020, 512, 96, 4, 1, 0xFFFFFF, 0x0, 0x0, 0xFF800001, true, 0⟩,
  ⟨0x51024, 512, 96, 4, 1, 0xFFFFFF, 0x0, 0x0, 0x7FFFFF, true, 0⟩,
  ⟨0x51028, 512, 96, 4, 1, 0xFFFFFF, 0x0, 0x0, 0xFF800001, true, 0⟩,
  ⟨0x5102C, 512, 96, 4, 1, 0x7FFFFF, 0x0, 0x0, 0x100000, false, 0⟩,
  ⟨0x51030, 512, 96, 4, 1, 0xFFFFFF, 0x0, 0x0, 0x0, true, 0⟩,
  ⟨0x51034, 512, 96, 4, 1, 0x1FFF, 0x0, 0x0, 0x15E, false, 0⟩,
  ⟨0x51040, 512, 96, 4, 1, 0xFFFFFFFF, 0x0, 0x0, 0x0, false, 0⟩,
  ⟨0x51044, 512, 96, 4, 1, 0xFFFFFFFF, 0x0, 0x0, 0x0, false, 0⟩,
  ⟨0x51048, 512, 96, 4, 1, 0xFFFFFFFF, 0x0, 0x0, 0x0, false, 0⟩,
  ⟨0x5104C, 512, 96, 4, 1, 0xFFFFFFFF, 0x0, 0x0, 0x0, false, 0⟩,
  ⟨0x51050, 512, 96, 4, 1, 0xFFFFFFFF, 0x0, 0x0, 0x0, false, 0⟩,
  ⟨0x51054, 512, 96, 4, 1, 0xFFFFFFFF, 0x0, 0x0, 0x0, false, 0⟩,
  ⟨0x51058, 512, 96, 4, 1, 0xFFFFFFFF, 0x0, 0x0, 0x0, false, 0⟩,
  ⟨0x5105C, 512, 96, 4, 1, 0xFFFFFFFF, 0x0, 0x0, 0x0, false, 0⟩,
  ⟨0x51060, 512, 96, 4, 1, 0xFFFFFFFF, 0x0, 0x0, 0x0, false, 0⟩,
  ⟨0x51064, 512, 96, 4, 1, 0xFFFFFFFF, 0x0, 0x0, 0x0, false, 0⟩,
  ⟨0x51080, 512, 96, 4, 1, 0xFFFFFFFF, 0x0, 0x0, 0x0, false, 0⟩,
  ⟨0x51084, 512, 96, 4, 1, 0xFFFFFFFF, 0x0, 0x0, 0x0, false, 0⟩,
  ⟨0x51088, 512, 96, 4, 1, 0xFFFFFFFF, 0x0, 0x0, 0x0, false, 0⟩,
  ⟨0x5108C, 512, 96, 4, 1, 0xFFFFFFFF, 0x0, 0x0, 0x0, false, 0⟩,
  ⟨0x51090, 512, 96, 4, 1, 0xFFFFFFFF, 0x0, 0x0, 0x0, false, 0⟩,
  ⟨0x51094, 512, 96, 4, 1, 0xFFFFFFFF, 0x0, 0x0, 0x0, false, 0⟩,
  ⟨0x51098, 512, 96, 4, 1, 0xFFFFFFFF, 0x0, 0x0, 0x0, false, 0⟩,
  ⟨0x5109C, 512, 96, 4, 1, 0xFFFFFFFF, 0x0, 0x0, 0x0, false, 0⟩,
  ⟨0x510A0, 512, 96, 4, 1, 0xFFFFFFFF, 0x0, 0x0, 0x0, false, 0⟩,
  ⟨0x510A4, 512, 96, 4, 1, 0xFFFFFFFF, 0x0, 0x0, 0x0, false, 0⟩,
  ⟨0x51100, 512, 96, 4, 1, 0x0, 0x0, 0x17FF, 0x0, false, 0⟩]

def regRows5b : List RegRow := [
  ⟨0x51104, 512, 96, 4, 1, 0x0, 0x0, 0x0, 0x0, false, 0⟩,
  ⟨0x51108, 512, 96, 4, 1, 0x0, 0x0, 0x0, 0x0, false, 0⟩,
  ⟨0x5110C, 512, 96, 4, 1, 0x0, 0x0, 0x0, 0x0, false, 0⟩,
  ⟨0x51110, 512, 96, 4, 1, 0x0, 0x0, 0x0, 0x0, false, 0⟩,
  ⟨0x51114, 512, 96, 4, 1, 0x0, 0x0, 0x0, 0x0, false, 0⟩,
  ⟨0x51118, 512, 96, 4, 1, 0x0, 0x0, 0x0, 0x0, false, 0⟩,
  ⟨0x51120, 512, 96, 4, 1, 0x0, 0x0, 0x0, 0x0, false, 1⟩,
  ⟨0x51124, 512, 96, 4, 1, 0x0, 0x0, 0x0, 0x0, false, 2⟩,
  ⟨0x51128, 512, 96, 4, 1, 0x0, 0x0, 0x0, 0x0, false, 1⟩,
  ⟨0x5112C, 512, 96, 4, 1, 0x0, 0x0, 0x0, 0x0, false, 2⟩,
  ⟨0x51130, 512, 96, 4, 1, 0x0, 0x0, 0x0, 0x0, false, 1⟩,
  ⟨0x51134, 512, 96, 4, 1, 0x0, 0x0, 0x0, 0x0, false, 2⟩,
  ⟨0x51138, 512, 96, 4, 1, 0x0, 0x0, 0x0, 0x0, false, 1⟩,
  ⟨0x5113C, 512, 96, 4, 1, 0x0, 0x0, 0x0, 0x0, false, 2⟩,
  ⟨0x5D000, 128, 32, 4, 1, 0x8F00FFFF, 0x0, 0x0, 0x0, false, 0⟩,
  ⟨0x5D004, 128, 32, 4, 4, 0x1FF01FF, 0x0, 0x0, 0x1FF01FF, false, 0⟩,
  ⟨0x5D014, 128, 32, 4, 1, 0x3, 0x0, 0x0, 0x0, false, 0⟩,
  ⟨0x5D018, 128, 32, 4, 1, 0xFFFFFF, 0x0, 0x0, 0x0, false, 0⟩,
  ⟨0x5D020, 128, 32, 4, 16, 0xEFF0FFFF, 0x0, 0x0, 0x0, false, 0⟩,
  ⟨0x5D060, 128, 32, 4, 1, 0x0, 0x0, 0x0, 0x0, false, 0⟩,
  ⟨0x5F000, 512, 4, 4, 1, 0x8000007F, 0x0, 0x0, 0x0, false, 0⟩,
  ⟨0x5F100, 512, 4, 4, 64, 0xE1FF033F, 0x0, 0x0, 0x1FF0000, false, 0⟩,
  ⟨0x5F800, 16, 16, 4, 1, 0xF81F0000, 0x0, 0x0, 0x0, false, 0⟩,
  ⟨0x5F804, 16, 16, 4, 1, 0xFFFFFFFF, 0x0, 0x0, 0x0, false, 0⟩,
  ⟨0x5F808, 16, 16, 4, 1, 0x0, 0x0, 0x0, 0x0, false, 0⟩,
  ⟨0x5F80C, 16, 16, 4, 1, 0x0, 0x0, 0x20000000, 0x0, false, 0⟩]

/-- All rows of this block. -/
def regRows5 : List RegRow := regRows5a ++ regRows5b

/-- Rows of the register tables in the 64 KB at 0x60000: PWM_STATUS, PWM_FLT_RAW, PWM_FLT_LATCH and the rest of the block. -/
def regRows6 : List RegRow := [
  ⟨0x60000, 4, 1, 4, 1, 0x0, 0x0, 0x0, 0x0, false, 0⟩,
  ⟨0x60004, 4, 1, 4, 1, 0x0, 0x0, 0x0, 0x0, false, 0⟩,
  ⟨0x60008, 4, 1, 4, 1, 0x0, 0x0, 0xFFFF, 0x0, false, 0⟩,
  ⟨0x6000C, 4, 1, 4, 1, 0x0, 0x0, 0x1FF, 0x0, false, 0⟩,
  ⟨0x60010, 4, 1, 4, 1, 0x0, 0x0, 0x0, 0x0, false, 0⟩,
  ⟨0x60014, 4, 1, 4, 1, 0xF, 0x0, 0x0, 0x0, false, 0⟩,
  ⟨0x60020, 4, 1, 4, 1, 0x0, 0x0, 0x0, 0x0, false, 0⟩,
  ⟨0x60024, 4, 1, 4, 1, 0x0, 0x0, 0x0, 0x0, false, 0⟩,
  ⟨0x60028, 4, 1, 4, 1, 0x0, 0x0, 0x0, 0x0, false, 0⟩,
  ⟨0x60040, 4, 16, 4, 1, 0x80001FFF, 0x0, 0x0, 0x1400, false, 0⟩,
  ⟨0x60080, 4, 8, 4, 1, 0x1F80FF0F, 0x0, 0x0, 0x200, false, 0⟩,
  ⟨0x60100, 64, 4, 4, 1, 0x8F000000, 0x0, 0x0, 0x0, false, 0⟩,
  ⟨0x60104, 64, 4, 4, 1, 0xFFFFF, 0x0, 0x0, 0x27100, false, 0⟩,
  ⟨0x60108, 64, 4, 4, 1, 0xFFFFFFFF, 0x0, 0x0, 0x64, false, 0⟩,
  ⟨0x6010C, 64, 4, 4, 1, 0x0, 0x0, 0x0, 0x0, false, 0⟩,
  ⟨0x60110, 64, 4, 4, 1, 0x0, 0x0, 0x0, 0x0, false, 0⟩,
  ⟨0x60114, 64, 4, 4, 1, 0x0, 0x0, 0x0, 0x0, false, 0⟩,
  ⟨0x60120, 64, 4, 4, 6, 0xFFF, 0x0, 0x0, 0x0, false, 0⟩,
  ⟨0x61000, 64, 48, 4, 1, 0xFE000000, 0x0, 0x0, 0x0, false, 0⟩,
  ⟨0x61004, 64, 48, 4, 1, 0xFFFFF, 0x0, 0x0, 0x0, false, 0⟩,
  ⟨0x61008, 64, 48, 4, 1, 0x3FFF3FFF, 0x0, 0x0, 0x6400640, false, 0⟩,
  ⟨0x6100C, 64, 48, 4, 1, 0x3FFF, 0x0, 0x0, 0x640, false, 0⟩,
  ⟨0x61010, 64, 48, 4, 1, 0xFFFFF, 0x0, 0x0, 0x27100, false, 0⟩,
  ⟨0x61014, 64, 48, 4, 1, 0x0, 0x0, 0xF, 0x0, false, 0⟩,
  ⟨0x61018, 64, 48, 4, 1, 0x0, 0x0, 0x0, 0x0, false, 0⟩,
  ⟨0x6101C, 64, 48, 4, 1, 0x0, 0x0, 0x0, 0x0, false, 0⟩]

/-- Rows of the register tables in the 64 KB at 0x70000: WB_STATUS, WB_CMD, WB_CTL and the rest of the block. -/
def regRows7 : List RegRow := [
  ⟨0x70000, 4, 1, 4, 1, 0x0, 0x0, 0x0, 0x0, false, 0⟩,
  ⟨0x70004, 4, 1, 4, 1, 0x0, 0x0, 0x0, 0x0, false, 0⟩,
  ⟨0x70008, 4, 1, 4, 1, 0xC00001FF, 0x0, 0x0, 0x400001FF, false, 0⟩,
  ⟨0x7000C, 4, 1, 4, 1, 0xFFFFFFFF, 0x0, 0x0, 0x0, false, 0⟩,
  ⟨0x70010, 4, 1, 4, 1, 0xFFFFFFFF, 0x0, 0x0, 0x0, false, 0⟩,
  ⟨0x70014, 4, 1, 4, 1, 0x3FFF, 0x0, 0x0, 0xC8, false, 0⟩,
  ⟨0x70018, 4, 1, 4, 1, 0xFFFFFFFF, 0x0, 0x0, 0x1E3C3C14, false, 0⟩,
  ⟨0x7001C, 4, 1, 4, 1, 0xFFFFFFFF, 0x0, 0x0, 0xD99A8000, false, 0⟩,
  ⟨0x70020, 4, 1, 4, 1, 0xFFFFFFFF, 0x0, 0x0, 0x0, false, 0⟩,
  ⟨0x70024, 4, 1, 4, 1, 0x3FFFFFF, 0x0, 0x0, 0x280028, false, 0⟩,
  ⟨0x70028, 4, 1, 4, 1, 0xFFFF00FF, 0x0, 0x0, 0xC800A0, false, 0⟩,
  ⟨0x7002C, 4, 1, 4, 1, 0xFFFFFFFF, 0x0, 0x0, 0x266666, false, 0⟩,
  ⟨0x70030, 4, 1, 4, 1, 0xFFFFFFFF, 0x0, 0x0, 0x10625, false, 0⟩,
  ⟨0x70034, 4, 1, 4, 1, 0xFFFFFFFF, 0x0, 0x0, 0xA320408, false, 0⟩,
  ⟨0x70038, 4, 1, 4, 1, 0xFFFFFFFF, 0x0, 0x0, 0x145F1914, false, 0⟩,
  ⟨0x70040, 4, 1, 4, 1, 0x0, 0x0, 0x0, 0x0, false, 0⟩,
  ⟨0x70044, 4, 1, 4, 1, 0x0, 0x0, 0x0, 0x0, false, 0⟩,
  ⟨0x70048, 4, 1, 4, 1, 0x0, 0x0, 0x0, 0x0, false, 0⟩,
  ⟨0x7004C, 4, 1, 4, 1, 0x0, 0x0, 0x0, 0x0, false, 0⟩,
  ⟨0x70050, 4, 1, 4, 1, 0x0, 0x0, 0x0, 0x0, false, 0⟩,
  ⟨0x70054, 4, 1, 4, 1, 0x0, 0x0, 0x0, 0x0, false, 0⟩,
  ⟨0x70058, 4, 1, 4, 1, 0x0, 0x0, 0x0, 0x0, false, 0⟩,
  ⟨0x7005C, 4, 1, 4, 1, 0x0, 0x0, 0x0, 0x0, false, 0⟩,
  ⟨0x70060, 4, 1, 4, 1, 0x0, 0x0, 0x0, 0x0, false, 1⟩,
  ⟨0x70064, 4, 1, 4, 1, 0x0, 0x0, 0x0, 0x0, false, 2⟩,
  ⟨0x70068, 4, 1, 4, 1, 0x0, 0x0, 0x0, 0x0, false, 0⟩,
  ⟨0x70100, 8, 32, 4, 1, 0xC001FFFF, 0x0, 0x0, 0x0, false, 0⟩,
  ⟨0x70104, 8, 32, 4, 1, 0xFFFFFFFF, 0x0, 0x0, 0x0, false, 0⟩,
  ⟨0x70200, 16, 64, 4, 1, 0x8000FFFF, 0x0, 0x0, 0x0, false, 0⟩,
  ⟨0x70204, 16, 64, 4, 1, 0x0, 0x0, 0x0, 0x0, false, 0⟩,
  ⟨0x70208, 16, 64, 4, 1, 0x0, 0x0, 0x0, 0x0, false, 0⟩,
  ⟨0x7020C, 16, 64, 4, 1, 0x0, 0x0, 0x0, 0x0, false, 0⟩]

/-- Rows of the register tables in the 64 KB at 0x80000: HNT_STATUS, HNT_CMD, HNT_SELF_ID_LO and the rest of the block. -/
def regRows8 : List RegRow := [
  ⟨0x80000, 4, 1, 4, 1, 0x0, 0x0, 0x0, 0x0, false, 0⟩,
  ⟨0x80004, 4, 1, 4, 1, 0x0, 0x0, 0x0, 0x0, false, 0⟩,
  ⟨0x80008, 4, 1, 4, 1, 0x0, 0x0, 0x0, 0x0, false, 1⟩,
  ⟨0x8000C, 4, 1, 4, 1, 0x0, 0x0, 0x0, 0x0, false, 2⟩,
  ⟨0x80010, 4, 1, 4, 1, 0xC700FFFF, 0x0, 0x0, 0x0, false, 0⟩,
  ⟨0x80014, 4, 1, 4, 1, 0xFFFFFFFF, 0x0, 0x0, 0x1F403E8, false, 0⟩,
  ⟨0x80018, 4, 1, 4, 1, 0xFFFFFFFF, 0x0, 0x0, 0x3E8003C, false, 0⟩,
  ⟨0x8001C, 4, 1, 4, 1, 0xFFFFFFFF, 0x0, 0x0, 0xB8A1B8A0, false, 0⟩,
  ⟨0x80020, 4, 1, 4, 1, 0xFFFFFFFF, 0x0, 0x0, 0x400010, false, 0⟩,
  ⟨0x80024, 4, 1, 4, 1, 0xFFFFFFFF, 0x0, 0x0, 0x1000010, false, 0⟩,
  ⟨0x80028, 4, 1, 4, 1, 0xFFFFFFFF, 0x0, 0x0, 0x1000010, false, 0⟩,
  ⟨0x8002C, 4, 1, 4, 1, 0xFFFFFFFF, 0x0, 0x0, 0x40004, false, 0⟩,
  ⟨0x80030, 4, 1, 4, 1, 0xFFFFFFFF, 0x0, 0x0, 0xFC000A, false, 0⟩,
  ⟨0x80034, 4, 1, 4, 1, 0x0, 0x0, 0x0, 0x0, false, 0⟩,
  ⟨0x80038, 4, 1, 4, 1, 0x0, 0x0, 0x0, 0x0, false, 0⟩,
  ⟨0x80040, 4, 1, 4, 1, 0xFFFFFFFF, 0x0, 0x0, 0xFF020000, false, 0⟩,
  ⟨0x80044, 4, 1, 4, 1, 0xFFFFFFFF, 0x0, 0x0, 0x0, false, 0⟩,
  ⟨0x80048, 4, 1, 4, 1, 0xFFFFFFFF, 0x0, 0x0, 0x0, false, 0⟩,
  ⟨0x8004C, 4, 1, 4, 1, 0xFFFFFFFF, 0x0, 0x0, 0xA4F1, false, 0⟩,
  ⟨0x80080, 4, 16, 4, 1, 0x0, 0x0, 0x0, 0x0, false, 0⟩,
  ⟨0x81000, 16, 512, 4, 1, 0x0, 0x0, 0x0, 0x0, false, 1⟩,
  ⟨0x81004, 16, 512, 4, 1, 0x0, 0x0, 0x0, 0x0, false, 2⟩,
  ⟨0x81008, 16, 512, 4, 1, 0x0, 0x0, 0x0, 0x0, false, 0⟩,
  ⟨0x8100C, 16, 512, 4, 1, 0x0, 0x0, 0x0, 0x0, false, 0⟩]

/-- Rows of the register tables in the 64 KB at 0x90000: CPC_STATUS, CPC_CMD, CPC_GRANT_CFG and the rest of the block. -/
def regRows9 : List RegRow := [
  ⟨0x90000, 4, 1, 4, 1, 0x0, 0x0, 0x0, 0x0, false, 0⟩,
  ⟨0x90004, 4, 1, 4, 1, 0x0, 0x0, 0x0, 0x0, false, 0⟩,
  ⟨0x90008, 4, 1, 4, 1, 0xFFFFFFFF, 0x0, 0x0, 0xF0F0F05, false, 0⟩,
  ⟨0x9000C, 4, 1, 4, 1, 0xFFFF03FF, 0x0, 0x0, 0x640064, false, 0⟩,
  ⟨0x90010, 4, 1, 4, 1, 0xFFFFFFFF, 0x0, 0x0, 0x6140064, false, 0⟩,
  ⟨0x90014, 4, 1, 4, 1, 0xFFFFFFFF, 0x0, 0x0, 0x1B58, false, 0⟩,
  ⟨0x90018, 4, 1, 4, 1, 0xFFF8FFFF, 0x0, 0x0, 0x32032A1, false, 0⟩,
  ⟨0x9001C, 4, 1, 4, 1, 0xFFFF00FF, 0x0, 0x0, 0x3E8000F, false, 0⟩,
  ⟨0x90020, 4, 1, 4, 1, 0xFFFFFFFF, 0x0, 0x0, 0x0, false, 0⟩,
  ⟨0x90024, 4, 1, 4, 1, 0xFFFFFFFF, 0x0, 0x0, 0x0, false, 0⟩,
  ⟨0x90028, 4, 1, 4, 1, 0xFFFFFFFF, 0x0, 0x0, 0x0, false, 0⟩,
  ⟨0x9002C, 4, 1, 4, 1, 0xFFFFFFFF, 0x0, 0x0, 0x0, false, 0⟩,
  ⟨0x90030, 4, 1, 4, 1, 0xFFFFFFFF, 0x0, 0x0, 0x0, false, 0⟩,
  ⟨0x90034, 4, 1, 4, 1, 0xFFFF, 0x0, 0x0, 0x258, false, 0⟩,
  ⟨0x90040, 4, 1, 4, 1, 0x0, 0x0, 0x0, 0x0, false, 0⟩,
  ⟨0x90044, 4, 1, 4, 1, 0x0, 0x0, 0x0, 0x0, false, 0⟩,
  ⟨0x90048, 4, 1, 4, 1, 0x0, 0x0, 0x0, 0x0, false, 0⟩,
  ⟨0x9004C, 4, 1, 4, 1, 0x0, 0x0, 0x0, 0x0, false, 0⟩,
  ⟨0x90050, 4, 1, 4, 1, 0x0, 0x0, 0x0, 0x0, false, 1⟩,
  ⟨0x90054, 4, 1, 4, 1, 0x0, 0x0, 0x0, 0x0, false, 2⟩,
  ⟨0x90058, 4, 1, 4, 1, 0x0, 0x0, 0x0, 0x0, false, 1⟩,
  ⟨0x9005C, 4, 1, 4, 1, 0x0, 0x0, 0x0, 0x0, false, 2⟩,
  ⟨0x90060, 4, 1, 4, 1, 0x0, 0x0, 0x0, 0x0, false, 1⟩,
  ⟨0x90064, 4, 1, 4, 1, 0x0, 0x0, 0x0, 0x0, false, 2⟩,
  ⟨0x90068, 4, 1, 4, 1, 0x0, 0x0, 0x0, 0x0, false, 0⟩,
  ⟨0x90100, 16, 64, 4, 1, 0x0, 0x0, 0x0, 0x0, false, 0⟩,
  ⟨0x90104, 16, 64, 4, 1, 0x0, 0x0, 0x0, 0x0, false, 0⟩,
  ⟨0x90108, 16, 64, 4, 1, 0x0, 0x0, 0x0, 0x0, false, 0⟩,
  ⟨0x9010C, 16, 64, 4, 1, 0x0, 0x0, 0x0, 0x0, false, 0⟩,
  ⟨0x90500, 8, 64, 4, 1, 0xF8FFFFFF, 0x0, 0x0, 0x20060000, false, 0⟩,
  ⟨0x90504, 8, 64, 4, 1, 0xFFFF, 0x0, 0x0, 0x0, false, 0⟩,
  ⟨0x90800, 16, 64, 4, 1, 0x8000FFFF, 0x0, 0x0, 0x0, false, 0⟩,
  ⟨0x90804, 16, 64, 4, 1, 0xFFFFFFFF, 0x0, 0x0, 0x0, false, 0⟩,
  ⟨0x90808, 16, 64, 4, 1, 0xFFFFFFFF, 0x0, 0x0, 0x0, false, 0⟩,
  ⟨0x9080C, 16, 64, 4, 1, 0x0, 0x0, 0x0, 0x0, false, 0⟩]

/-- Rows of the register tables in the 64 KB at 0xA0000: LDG_STATUS, LDG_CMD, LDG_CFG and the rest of the block. -/
def regRowsA : List RegRow := [
  ⟨0xA0000, 4, 1, 4, 1, 0x0, 0x0, 0x0, 0x0, false, 0⟩,
  ⟨0xA0004, 4, 1, 4, 1, 0x0, 0x0, 0x0, 0x0, false, 0⟩,
  ⟨0xA0008, 4, 1, 4, 1, 0x87FFFFFF, 0x0, 0x0, 0x0, false, 0⟩,
  ⟨0xA000C, 4, 1, 4, 1, 0xFFFFFFFF, 0x0, 0x0, 0x7D000FA, false, 0⟩,
  ⟨0xA0010, 4, 1, 4, 1, 0xFFFFFFFF, 0x0, 0x0, 0x64000A, false, 0⟩,
  ⟨0xA0014, 4, 1, 4, 1, 0x0, 0x0, 0x0, 0x0, false, 0⟩,
  ⟨0xA0018, 4, 1, 4, 1, 0x0, 0x0, 0x0, 0x0, false, 1⟩,
  ⟨0xA001C, 4, 1, 4, 1, 0x0, 0x0, 0x0, 0x0, false, 2⟩,
  ⟨0xA0020, 4, 1, 4, 1, 0x0, 0x0, 0x0, 0x0, false, 1⟩,
  ⟨0xA0024, 4, 1, 4, 1, 0x0, 0x0, 0x0, 0x0, false, 2⟩,
  ⟨0xA0028, 4, 1, 4, 1, 0x0, 0x0, 0x0, 0x0, false, 1⟩,
  ⟨0xA002C, 4, 1, 4, 1, 0x0, 0x0, 0x0, 0x0, false, 2⟩,
  ⟨0xA0030, 4, 1, 4, 1, 0x0, 0x0, 0x0, 0x0, false, 1⟩,
  ⟨0xA0034, 4, 1, 4, 1, 0x0, 0x0, 0x0, 0x0, false, 2⟩,
  ⟨0xA0038, 4, 1, 4, 1, 0x0, 0x0, 0x0, 0x0, false, 1⟩,
  ⟨0xA003C, 4, 1, 4, 1, 0x0, 0x0, 0x0, 0x0, false, 2⟩,
  ⟨0xA0040, 4, 1, 4, 1, 0x0, 0x0, 0x0, 0x0, false, 0⟩,
  ⟨0xA0044, 4, 1, 4, 1, 0x0, 0x0, 0x0, 0x0, false, 0⟩,
  ⟨0xA0048, 4, 1, 4, 1, 0x0, 0x0, 0x0, 0x0, false, 1⟩,
  ⟨0xA004C, 4, 1, 4, 1, 0x0, 0x0, 0x0, 0x0, false, 2⟩,
  ⟨0xA0050, 4, 1, 4, 1, 0x0, 0x0, 0x0, 0xFF, false, 0⟩,
  ⟨0xA0054, 4, 1, 4, 1, 0x0, 0x0, 0x0, 0x0, false, 0⟩,
  ⟨0xA0058, 4, 1, 4, 1, 0x0, 0x0, 0x0, 0x0, false, 0⟩,
  ⟨0xA005C, 4, 1, 4, 1, 0x0, 0x0, 0x0, 0x0, false, 0⟩,
  ⟨0xA0060, 4, 1, 4, 1, 0xFFFFFFFF, 0x0, 0x0, 0xFF050000, false, 0⟩,
  ⟨0xA0064, 4, 1, 4, 1, 0xFFFFFFFF, 0x0, 0x0, 0x0, false, 0⟩,
  ⟨0xA0068, 4, 1, 4, 1, 0xFFFFFFFF, 0x0, 0x0, 0x0, false, 0⟩,
  ⟨0xA006C, 4, 1, 4, 1, 0xFFFFFFFF, 0x0, 0x0, 0xA4F2, false, 0⟩,
  ⟨0xA0100, 16, 16, 4, 1, 0x0, 0x0, 0x0, 0x0, false, 1⟩,
  ⟨0xA0104, 16, 16, 4, 1, 0x0, 0x0, 0x0, 0x0, false, 2⟩,
  ⟨0xA0108, 16, 16, 4, 1, 0x0, 0x0, 0x0, 0x0, false, 0⟩,
  ⟨0xA010C, 16, 16, 4, 1, 0x0, 0x0, 0x0, 0x0, false, 0⟩]

/-- Rows of the register tables in the 64 KB at 0xB0000: PKL_STATUS, PKL_CMD, PKL_CFG and the rest of the block. -/
def regRowsB : List RegRow := [
  ⟨0xB0000, 4, 1, 4, 1, 0x0, 0x0, 0x0, 0x0, false, 0⟩,
  ⟨0xB0004, 4, 1, 4, 1, 0x0, 0x0, 0x0, 0x0, false, 0⟩,
  ⟨0xB0008, 4, 1, 4, 1, 0xC03F3FF0, 0x0, 0x0, 0x30, false, 0⟩,
  ⟨0xB000C, 4, 1, 4, 1, 0xFFFF007F, 0x0, 0x0, 0x1F4000A, false, 0⟩,
  ⟨0xB0010, 4, 1, 4, 1, 0xFFFFFEFF, 0x0, 0x0, 0x79482C00, false, 0⟩,
  ⟨0xB0014, 4, 1, 4, 1, 0x80FFFFFF, 0x0, 0x0, 0xA6414, false, 0⟩,
  ⟨0xB0018, 4, 1, 4, 1, 0x0, 0x0, 0x0, 0x0, false, 0⟩,
  ⟨0xB001C, 4, 1, 4, 1, 0xFFFF, 0x0, 0x0, 0x0, false, 0⟩,
  ⟨0xB0020, 4, 1, 4, 1, 0x0, 0x0, 0x0, 0x0, false, 1⟩,
  ⟨0xB0024, 4, 1, 4, 1, 0x0, 0x0, 0x0, 0x0, false, 2⟩,
  ⟨0xB0028, 4, 1, 4, 1, 0x0, 0x0, 0x0, 0x0, false, 0⟩,
  ⟨0xB002C, 4, 1, 4, 1, 0x0, 0x0, 0x0, 0x0, false, 0⟩,
  ⟨0xB0030, 4, 1, 4, 1, 0x0, 0x0, 0x0, 0x0, false, 0⟩,
  ⟨0xB0034, 4, 1, 4, 1, 0x0, 0x0, 0x0, 0x0, false, 0⟩,
  ⟨0xB0038, 4, 1, 4, 1, 0x0, 0x0, 0x0, 0x0, false, 1⟩,
  ⟨0xB003C, 4, 1, 4, 1, 0x0, 0x0, 0x0, 0x0, false, 2⟩,
  ⟨0xB0040, 4, 1, 4, 1, 0x0, 0x0, 0x0, 0x0, false, 1⟩,
  ⟨0xB0044, 4, 1, 4, 1, 0x0, 0x0, 0x0, 0x0, false, 2⟩,
  ⟨0xB1000, 128, 48, 4, 1, 0xC3FF1F07, 0x0, 0x0, 0x0, false, 0⟩,
  ⟨0xB1004, 128, 48, 4, 1, 0xFFFFFFFF, 0x0, 0x0, 0x0, false, 1⟩,
  ⟨0xB1008, 128, 48, 4, 1, 0xFFFFFFFF, 0x0, 0x0, 0x0, false, 2⟩,
  ⟨0xB100C, 128, 48, 4, 1, 0x0, 0x0, 0x0, 0x0, false, 1⟩,
  ⟨0xB1010, 128, 48, 4, 1, 0x0, 0x0, 0x0, 0x0, false, 2⟩,
  ⟨0xB1014, 128, 48, 4, 1, 0x0, 0x0, 0x0, 0x0, false, 0⟩,
  ⟨0xB1018, 128, 48, 4, 1, 0x0, 0x0, 0x0, 0x0, false, 0⟩,
  ⟨0xB101C, 128, 48, 4, 1, 0x0, 0x0, 0x0, 0x0, false, 0⟩,
  ⟨0xB1020, 128, 48, 4, 1, 0x0, 0x0, 0x0, 0x0, false, 0⟩,
  ⟨0xB1024, 128, 48, 4, 1, 0x0, 0x0, 0x0, 0x0, false, 0⟩,
  ⟨0xB1030, 128, 48, 4, 8, 0x0, 0x0, 0x0, 0x0, false, 0⟩]

/-- Rows of the register tables in the 64 KB at 0xC0000: EST_STATUS, EST_CMD, EST_CFG and the rest of the block. -/
def regRowsC : List RegRow := [
  ⟨0xC0000, 4, 1, 4, 1, 0x0, 0x0, 0x0, 0x0, false, 0⟩,
  ⟨0xC0004, 4, 1, 4, 1, 0x0, 0x0, 0x0, 0x0, false, 0⟩,
  ⟨0xC0008, 4, 1, 4, 1, 0xFF000000, 0x0, 0x0, 0x10000000, false, 0⟩,
  ⟨0xC000C, 4, 1, 4, 1, 0xFFFFFFFF, 0x0, 0x0, 0xA1E05, false, 0⟩,
  ⟨0xC0010, 4, 1, 4, 1, 0xFFFFFFFF, 0x0, 0x0, 0x480618, false, 0⟩,
  ⟨0xC0014, 4, 1, 4, 1, 0xFFFFFFFF, 0x0, 0x0, 0x230F0518, false, 0⟩,
  ⟨0xC0018, 4, 1, 4, 1, 0xFFFFFFFF, 0x0, 0x0, 0xA0258, false, 0⟩,
  ⟨0xC0020, 4, 1, 4, 1, 0x0, 0x0, 0x0, 0x0, false, 1⟩,
  ⟨0xC0024, 4, 1, 4, 1, 0x0, 0x0, 0x0, 0x0, false, 2⟩,
  ⟨0xC0028, 4, 1, 4, 1, 0x0, 0x0, 0x0, 0x0, false, 1⟩,
  ⟨0xC002C, 4, 1, 4, 1, 0x0, 0x0, 0x0, 0x0, false, 2⟩,
  ⟨0xC0100, 4, 64, 4, 1, 0x0, 0x0, 0x0, 0x0, false, 0⟩,
  ⟨0xC0200, 4, 64, 4, 1, 0xFFFFFFFF, 0x0, 0x0, 0x0, false, 0⟩,
  ⟨0xC1000, 128, 2, 4, 1, 0x81FFFFFF, 0x0, 0x0, 0x0, false, 0⟩,
  ⟨0xC1004, 128, 2, 4, 1, 0xFFFFFFFF, 0x0, 0x0, 0x0, false, 0⟩,
  ⟨0xC1008, 128, 2, 4, 1, 0xFFFFFFFF, 0x0, 0x0, 0x69784650, false, 0⟩,
  ⟨0xC100C, 128, 2, 4, 1, 0xFFFFFFFF, 0x0, 0x0, 0x6F543E80, false, 0⟩,
  ⟨0xC1010, 128, 2, 4, 1, 0xFF00FFFF, 0x0, 0x0, 0x1E0004B0, false, 0⟩,
  ⟨0xC1014, 128, 2, 4, 1, 0xFFFFFFFF, 0x0, 0x0, 0x0, false, 0⟩,
  ⟨0xC1018, 128, 2, 4, 1, 0xFFFFFFFF, 0x0, 0x0, 0x372D00EC, false, 0⟩,
  ⟨0xC101C, 128, 2, 4, 1, 0xFFFFFFFF, 0x0, 0x0, 0x320A0A, false, 0⟩,
  ⟨0xC1020, 128, 2, 4, 1, 0x1FFFF, 0x0, 0x0, 0xFFDF, false, 0⟩,
  ⟨0xC1024, 128, 2, 4, 1, 0x0, 0x0, 0xFF, 0x81800000, false, 0⟩,
  ⟨0xC1028, 128, 2, 4, 1, 0x0, 0x0, 0x0, 0xFFFF0000, false, 0⟩,
  ⟨0xC102C, 128, 2, 4, 1, 0x0, 0x0, 0x0, 0x0, false, 0⟩,
  ⟨0xC1030, 128, 2, 4, 1, 0x0, 0x0, 0x0, 0x0, false, 0⟩,
  ⟨0xC1034, 128, 2, 4, 1, 0x0, 0x0, 0x0, 0x0, false, 0⟩,
  ⟨0xC1038, 128, 2, 4, 1, 0x0, 0x0, 0x0, 0x0, false, 0⟩,
  ⟨0xC103C, 128, 2, 4, 1, 0x0, 0x0, 0x0, 0x0, false, 0⟩,
  ⟨0xC1040, 128, 2, 4, 1, 0x0, 0x0, 0x0, 0x0, false, 0⟩,
  ⟨0xC1044, 128, 2, 4, 1, 0x0, 0x0, 0x0, 0x0, false, 0⟩,
  ⟨0xC1048, 128, 2, 4, 1, 0xFFFF0000, 0x0, 0x0, 0x0, false, 0⟩,
  ⟨0xC104C, 128, 2, 4, 1, 0x0, 0x0, 0x0, 0x0, false, 0⟩]

/-- Rows of the register tables in the 64 KB at 0xD0000: TWN_STATUS, TWN_CMD, TWN_CFG and the rest of the block. -/
def regRowsD : List RegRow := [
  ⟨0xD0000, 4, 1, 4, 1, 0x0, 0x0, 0x0, 0x0, false, 0⟩,
  ⟨0xD0004, 4, 1, 4, 1, 0x0, 0x0, 0x0, 0x0, false, 0⟩,
  ⟨0xD0008, 4, 1, 4, 1, 0xC0FFFFF0, 0x0, 0x0, 0x80090430, false, 0⟩,
  ⟨0xD000C, 4, 1, 4, 1, 0xFFFFFFFF, 0x0, 0x0, 0x34001F4, false, 0⟩,
  ⟨0xD0010, 4, 1, 4, 1, 0xFFFFFFFF, 0x0, 0x0, 0x1F401F4, false, 0⟩,
  ⟨0xD0014, 4, 1, 4, 1, 0x0, 0x0, 0x0, 0x0, false, 0⟩,
  ⟨0xD0018, 4, 1, 4, 1, 0x0, 0x0, 0x0, 0x0, false, 0⟩,
  ⟨0xD001C, 4, 1, 4, 1, 0x0, 0x0, 0x0, 0x0, false, 0⟩,
  ⟨0xD0020, 4, 1, 4, 1, 0x0, 0x0, 0x0, 0x0, false, 0⟩,
  ⟨0xD0024, 4, 1, 4, 1, 0x0, 0x0, 0x0, 0x0, false, 0⟩,
  ⟨0xD0028, 4, 1, 4, 1, 0x0, 0x0, 0x0, 0x0, false, 0⟩,
  ⟨0xD002C, 4, 1, 4, 1, 0x0, 0x0, 0x0, 0x0, false, 0⟩,
  ⟨0xD0030, 4, 1, 4, 1, 0x0, 0x0, 0x0, 0x0, false, 0⟩,
  ⟨0xD0034, 4, 1, 4, 1, 0x0, 0x0, 0x0, 0x0, false, 1⟩,
  ⟨0xD0038, 4, 1, 4, 1, 0x0, 0x0, 0x0, 0x0, false, 2⟩,
  ⟨0xD0100, 4, 16, 4, 1, 0x0, 0x0, 0x0, 0x0, false, 0⟩]

/-- Rows of the register tables in the 64 KB at 0xE0000: LOG_STATUS, LOG_CMD, LOG_CFG and the rest of the block. -/
def regRowsE : List RegRow := [
  ⟨0xE0000, 4, 1, 4, 1, 0x0, 0x0, 0x0, 0x0, false, 0⟩,
  ⟨0xE0004, 4, 1, 4, 1, 0x0, 0x0, 0x0, 0x0, false, 0⟩,
  ⟨0xE0008, 4, 1, 4, 1, 0xFF00FFFF, 0x0, 0x0, 0xA000064, false, 0⟩,
  ⟨0xE0010, 4, 1, 4, 1, 0x0, 0x0, 0x0, 0x0, false, 1⟩,
  ⟨0xE0014, 4, 1, 4, 1, 0x0, 0x0, 0x0, 0x0, false, 2⟩,
  ⟨0xE0018, 4, 1, 4, 1, 0x0, 0x0, 0x0, 0x0, false, 1⟩,
  ⟨0xE001C, 4, 1, 4, 1, 0x0, 0x0, 0x0, 0x0, false, 2⟩,
  ⟨0xE0020, 4, 1, 4, 1, 0x0, 0x0, 0x0, 0x0, false, 0⟩,
  ⟨0xE0024, 4, 1, 4, 1, 0x0, 0x0, 0x0, 0x0, false, 0⟩,
  ⟨0xE0028, 4, 1, 4, 1, 0x0, 0x0, 0x0, 0x0, false, 0⟩,
  ⟨0xE002C, 4, 1, 4, 1, 0x0, 0x0, 0x0, 0x0, false, 0⟩,
  ⟨0xE0030, 4, 1, 4, 1, 0x0, 0x0, 0x0, 0x0, false, 0⟩,
  ⟨0xE0034, 4, 1, 4, 1, 0x0, 0x0, 0x0, 0x0, false, 0⟩,
  ⟨0xE0038, 4, 1, 4, 1, 0x0, 0x0, 0x0, 0x0, false, 0⟩,
  ⟨0xE0040, 4, 1, 4, 1, 0xFFFFFFFF, 0x0, 0x0, 0x0, false, 1⟩,
  ⟨0xE0044, 4, 1, 4, 1, 0xFFFFFFFF, 0x0, 0x0, 0x0, false, 2⟩,
  ⟨0xE0048, 4, 1, 4, 1, 0x0, 0x0, 0x0, 0x0, false, 0⟩,
  ⟨0xE0050, 4, 1, 4, 1, 0xFFFFFFFF, 0x0, 0x0, 0x0, false, 1⟩,
  ⟨0xE0054, 4, 1, 4, 1, 0xFFFFFFFF, 0x0, 0x0, 0x0, false, 2⟩,
  ⟨0xE0058, 4, 1, 4, 1, 0xFFFFFFFF, 0x0, 0x0, 0x0, false, 1⟩,
  ⟨0xE005C, 4, 1, 4, 1, 0xFFFFFFFF, 0x0, 0x0, 0x0, false, 2⟩,
  ⟨0xE0060, 4, 1, 4, 1, 0xFFFFFFFF, 0x0, 0x0, 0x0, false, 0⟩,
  ⟨0xE0064, 4, 1, 4, 1, 0x0, 0x0, 0x0, 0x0, false, 0⟩,
  ⟨0xE0100, 4, 16, 4, 1, 0x7, 0x0, 0x0, 0x1, false, 0⟩,
  ⟨0xE0200, 4, 16, 4, 1, 0x0, 0x0, 0x0, 0x0, false, 0⟩]

/-- Rows of the register tables in the 64 KB at 0xF0000: LCS_STATUS, LCS_CMD, LCS_SRC_ADDR_LO and the rest of the block. -/
def regRowsF : List RegRow := [
  ⟨0xF0000, 4, 1, 4, 1, 0x0, 0x0, 0x0, 0x0, false, 0⟩,
  ⟨0xF0004, 4, 1, 4, 1, 0x0, 0x0, 0x0, 0x0, false, 0⟩,
  ⟨0xF0008, 4, 1, 4, 1, 0xFFFFFFFF, 0x0, 0x0, 0x0, false, 1⟩,
  ⟨0xF000C, 4, 1, 4, 1, 0xFFFFFFFF, 0x0, 0x0, 0x0, false, 2⟩,
  ⟨0xF0010, 4, 1, 4, 1, 0xFFFFFFFF, 0x0, 0x0, 0x0, false, 0⟩,
  ⟨0xF0014, 4, 1, 4, 1, 0x0, 0x0, 0x0, 0x0, false, 0⟩,
  ⟨0xF0018, 4, 1, 4, 1, 0x0, 0x0, 0x0, 0x0, false, 0⟩,
  ⟨0xF0020, 4, 4, 4, 1, 0x0, 0x0, 0x0, 0x0, false, 0⟩]

/-- Rows of the register tables in the 64 KB at 0x100000: CTX_STATUS, CTX_CMD, CTX_KEY_LO and the rest of the block. -/
def regRows10 : List RegRow := [
  ⟨0x100000, 4, 1, 4, 1, 0x0, 0x0, 0x0, 0x40000000, false, 0⟩,
  ⟨0x100004, 4, 1, 4, 1, 0x0, 0x0, 0x0, 0x0, false, 0⟩,
  ⟨0x100008, 4, 1, 4, 1, 0xFFFFFFFF, 0x0, 0x0, 0x0, false, 1⟩,
  ⟨0x10000C, 4, 1, 4, 1, 0xFFFFFFFF, 0x0, 0x0, 0x0, false, 2⟩,
  ⟨0x100010, 4, 1, 4, 1, 0x0, 0x0, 0x0, 0x0, false, 0⟩,
  ⟨0x100014, 4, 1, 4, 1, 0x0, 0x0, 0x0, 0x0, false, 0⟩,
  ⟨0x100018, 4, 1, 4, 1, 0x0, 0x0, 0x0, 0x0, false, 0⟩,
  ⟨0x10001C, 4, 1, 4, 1, 0xFFFFFFFF, 0x0, 0x0, 0x1000000A, false, 0⟩,
  ⟨0x100020, 4, 1, 4, 1, 0x0, 0x0, 0x0, 0x0, false, 0⟩,
  ⟨0x100024, 4, 1, 4, 1, 0x0, 0x0, 0x0, 0x0, false, 0⟩,
  ⟨0x100028, 4, 1, 4, 1, 0x0, 0x0, 0x0, 0x0, false, 0⟩,
  ⟨0x10002C, 4, 1, 4, 1, 0x0, 0x0, 0x0, 0x0, false, 0⟩,
  ⟨0x100030, 4, 1, 4, 1, 0x0, 0x0, 0x0, 0x0, false, 0⟩,
  ⟨0x100034, 4, 1, 4, 1, 0x0, 0x0, 0x0, 0x0, false, 0⟩,
  ⟨0x100038, 4, 1, 4, 1, 0x0, 0x0, 0x0, 0x0, false, 1⟩,
  ⟨0x10003C, 4, 1, 4, 1, 0x0, 0x0, 0x0, 0x0, false, 2⟩,
  ⟨0x100040, 4, 1, 4, 1, 0x800000FF, 0x0, 0x0, 0x80000018, false, 0⟩,
  ⟨0x100044, 4, 1, 4, 1, 0x0, 0x0, 0x0, 0x0, false, 0⟩,
  ⟨0x101000, 32, 64, 4, 1, 0xFE0001FF, 0x0, 0x0, 0x1FF, false, 0⟩,
  ⟨0x101004, 32, 64, 4, 1, 0x3FFFF, 0x0, 0x0, 0x0, false, 0⟩,
  ⟨0x101008, 32, 64, 4, 1, 0x3FFFF, 0x0, 0x0, 0x0, false, 0⟩,
  ⟨0x10100C, 32, 64, 4, 1, 0xFFFFFFFF, 0x0, 0x0, 0x0, false, 0⟩,
  ⟨0x101010, 32, 64, 4, 1, 0x0, 0x0, 0x0, 0x0, false, 1⟩,
  ⟨0x101014, 32, 64, 4, 1, 0x0, 0x0, 0x0, 0x0, false, 2⟩,
  ⟨0x101018, 32, 64, 4, 1, 0x0, 0x0, 0x7C000000, 0x0, false, 0⟩,
  ⟨0x10101C, 32, 64, 4, 1, 0x0, 0x0, 0x0, 0x0, false, 0⟩]

/-- Rows of the register tables in the 64 KB at 0x110000: SEC_SLOT, SEC_AGREE_PUB and the rest of the block. -/
def regRows11 : List RegRow := [
  ⟨0x110000, 4, 24, 4, 1, 0x0, 0x0, 0x0, 0x0, false, 0⟩,
  ⟨0x110100, 4, 24, 4, 1, 0x0, 0x0, 0x0, 0x0, false, 0⟩]

/-- Rows of the register tables in the 64 KB at 0x120000: SNAP_CTL, SNAP_CMD, SNAP_STATUS and the rest of the block. -/
def regRows12 : List RegRow := [
  ⟨0x120000, 4, 1, 4, 1, 0xFE0003FF, 0x0, 0x0, 0x0, false, 0⟩,
  ⟨0x120004, 4, 1, 4, 1, 0x0, 0x0, 0x0, 0x0, false, 0⟩,
  ⟨0x120008, 4, 1, 4, 1, 0x0, 0x0, 0x30000000, 0x0, false, 0⟩,
  ⟨0x120010, 4, 1, 4, 1, 0xFFFFFFFF, 0x0, 0x0, 0x0, false, 1⟩,
  ⟨0x120014, 4, 1, 4, 1, 0xFFFFFFFF, 0x0, 0x0, 0x0, false, 2⟩,
  ⟨0x120018, 4, 1, 4, 1, 0x0, 0x0, 0x0, 0x0, false, 1⟩,
  ⟨0x12001C, 4, 1, 4, 1, 0x0, 0x0, 0x0, 0x0, false, 2⟩,
  ⟨0x120020, 4, 1, 4, 1, 0x0, 0x0, 0x0, 0x0, false, 1⟩,
  ⟨0x120024, 4, 1, 4, 1, 0x0, 0x0, 0x0, 0x0, false, 2⟩,
  ⟨0x120028, 4, 1, 4, 1, 0x0, 0x0, 0x0, 0x0, false, 1⟩,
  ⟨0x12002C, 4, 1, 4, 1, 0x0, 0x0, 0x0, 0x0, false, 2⟩,
  ⟨0x120100, 4, 16, 4, 1, 0x0, 0x0, 0x0, 0x0, false, 0⟩,
  ⟨0x120180, 4, 16, 4, 1, 0x0, 0x0, 0x0, 0x0, false, 0⟩,
  ⟨0x121000, 4, 512, 4, 1, 0x3FFFFFF, 0x0, 0x0, 0x0, false, 0⟩,
  ⟨0x122000, 4, 512, 4, 1, 0x0, 0x0, 0x0, 0x0, false, 0⟩]

/-- Rows of the register tables in the 64 KB at 0x1000000: TH_STATUS, TH_PART_CFG, TH_PART_CORES and the rest of the block. -/
def regRows100 : List RegRow := [
  ⟨0x1000000, 4, 1, 4, 1, 0x0, 0x0, 0x0, 0x0, false, 0⟩,
  ⟨0x1001000, 256, 16, 4, 1, 0xF8FF00FF, 0x0, 0x0, 0x100FF, false, 0⟩,
  ⟨0x1001004, 256, 16, 4, 8, 0xFFFFFFFF, 0x0, 0x0, 0x0, false, 0⟩,
  ⟨0x1001024, 256, 16, 4, 1, 0xFFFFFFFF, 0x0, 0x0, 0x0, false, 1⟩,
  ⟨0x1001028, 256, 16, 4, 1, 0xFFFFFFFF, 0x0, 0x0, 0x0, false, 2⟩,
  ⟨0x100102C, 256, 16, 4, 12, 0xFFFFFFFF, 0x0, 0x0, 0x0, false, 0⟩,
  ⟨0x100105C, 256, 16, 8, 8, 0xC01FFFFF, 0x0, 0x0, 0x0, false, 0⟩,
  ⟨0x1001060, 256, 16, 8, 8, 0x1FFFFF, 0x0, 0x0, 0x0, false, 0⟩,
  ⟨0x10010E0, 256, 16, 4, 1, 0x0, 0x0, 0x0, 0x0, false, 0⟩,
  ⟨0x10010E4, 256, 16, 4, 1, 0x0, 0x0, 0x0, 0x0, false, 0⟩,
  ⟨0x10010E8, 256, 16, 4, 1, 0xFFFFFFFF, 0x0, 0x0, 0x0, false, 1⟩,
  ⟨0x10010EC, 256, 16, 4, 1, 0xFFFFFFFF, 0x0, 0x0, 0x0, false, 2⟩,
  ⟨0x10010F0, 256, 16, 4, 1, 0xFFFFFFFF, 0x0, 0x0, 0x0, false, 0⟩,
  ⟨0x10010F4, 256, 16, 4, 1, 0x0, 0x0, 0x0, 0x0, false, 0⟩,
  ⟨0x10010F8, 256, 16, 4, 1, 0x0, 0x0, 0x0, 0x0, false, 1⟩,
  ⟨0x10010FC, 256, 16, 4, 1, 0x0, 0x0, 0x0, 0x0, false, 2⟩,
  ⟨0x1002000, 4, 64, 4, 1, 0x0, 0x0, 0x0, 0x0, false, 0⟩]

/-- Rows of the register tables in the 64 KB at 0x1010000: TH_DIE_STATUS, TH_DIE_OPP, TH_LM_SEL and the rest of the block. -/
def regRows101 : List RegRow := [
  ⟨0x1010000, 16777216, 2, 4, 1, 0x0, 0x0, 0x0, 0x0, false, 0⟩,
  ⟨0x1010004, 16777216, 2, 4, 1, 0x3, 0x0, 0x0, 0x0, false, 0⟩,
  ⟨0x1010010, 16777216, 2, 4, 1, 0xFF, 0x0, 0x0, 0x0, false, 0⟩,
  ⟨0x1010014, 16777216, 2, 4, 1, 0x0, 0x0, 0x0, 0x0, false, 0⟩]

/-- Rows of the register tables in the 64 KB at 0x3000000: MEMWIN_BASE_LO, MEMWIN_BASE_HI, MEMWIN_STATUS and the rest of the block. -/
def regRows300 : List RegRow := [
  ⟨0x3000000, 4, 1, 4, 1, 0xFFFF0000, 0x0, 0x0, 0x0, false, 1⟩,
  ⟨0x3000004, 4, 1, 4, 1, 0x1F, 0x0, 0x0, 0x0, false, 2⟩,
  ⟨0x3000008, 4, 1, 4, 1, 0x0, 0x0, 0x0, 0x0, false, 0⟩]

/-- The rows of the 64 KB that starts at 0x1_0000 times the argument (20: register index; R4, R470). -/
def blockRows (b : Nat) : List RegRow :=
  match b with
  | 0x0 => regRows0
  | 0x1 => regRows1
  | 0x2 => regRows2
  | 0x3 => regRows3
  | 0x4 => regRows4
  | 0x5 => regRows5
  | 0x6 => regRows6
  | 0x7 => regRows7
  | 0x8 => regRows8
  | 0x9 => regRows9
  | 0xA => regRowsA
  | 0xB => regRowsB
  | 0xC => regRowsC
  | 0xD => regRowsD
  | 0xE => regRowsE
  | 0xF => regRowsF
  | 0x10 => regRows10
  | 0x11 => regRows11
  | 0x12 => regRows12
  | 0x100 => regRows100
  | 0x101 => regRows101
  | 0x201 => regRows101
  | 0x300 => regRows300
  | _ => []

end Sys2Proof.Machine
end

