-- ==== Sys2Proof/Machine/Sparse.lean ====
section
/-!
DEFINITION. Sparse data in canonical form: keys strictly rising, no value equal to what an unlisted key holds. All
memories and all numbered units of the block are kept this way, so that equal contents are equal data.
-/

namespace Sys2Proof

/-- The value of key `k`; `d` gives what an unlisted key holds. -/
def Sparse.get {α : Type} (d : Nat → α) : Sparse α → Nat → α
  | [], k => d k
  | (j, v) :: m, k => if j = k then v else if k < j then d k else Sparse.get d m k

/-- Lists `v` at key `k`, keeping the order. -/
def Sparse.insert {α : Type} : Sparse α → Nat → α → Sparse α
  | [], k, v => [(k, v)]
  | (j, w) :: m, k, v =>
    if k < j then (k, v) :: (j, w) :: m else if j = k then (k, v) :: m else (j, w) :: Sparse.insert m k v

/-- Takes key `k` off the list. -/
def Sparse.erase {α : Type} : Sparse α → Nat → Sparse α
  | [], _ => []
  | (j, w) :: m, k => if k < j then (j, w) :: m else if j = k then m else (j, w) :: Sparse.erase m k

/-- Key `k` takes the value `v`; a value that an unlisted key holds is not listed. -/
def Sparse.put {α : Type} [DecidableEq α] (d : Nat → α) (m : Sparse α) (k : Nat) (v : α) : Sparse α :=
  if v = d k then Sparse.erase m k else Sparse.insert m k v

/-- Every key above `b`, strictly rising. -/
def Sparse.rising {α : Type} : Option Nat → Sparse α → Bool
  | _, [] => true
  | b, (j, _) :: m => (match b with | none => true | some x => decide (x < j)) && Sparse.rising (some j) m

/-- The canonical form. -/
def Sparse.wf {α : Type} [DecidableEq α] (d : Nat → α) (m : Sparse α) : Bool :=
  Sparse.rising none m && m.all fun e => decide (e.2 ≠ d e.1)

/-- The value of unit `k` of a group whose units all start at `d`. -/
def Sparse.at {α : Type} (d : α) (m : Sparse α) (k : Nat) : α := Sparse.get (fun _ => d) m k

/-- The value listed at key `k`, if one is. -/
def Sparse.find {α : Type} (m : Sparse α) (k : Nat) : Option α := (List.find? (fun e => e.1 = k) m).map Prod.snd

/-- Unit `k` of a group takes the value `v`. -/
def Sparse.upd {α : Type} [DecidableEq α] (d : α) (m : Sparse α) (k : Nat) (v : α) : Sparse α :=
  Sparse.put (fun _ => d) m k v

/-- `n` units from key `k`, each taking the next value of the list. -/
def Sparse.fill {α : Type} [DecidableEq α] (d : α) : Sparse α → Nat → List α → Sparse α
  | m, _, [] => m
  | m, k, v :: vs => Sparse.fill d (Sparse.upd d m k v) (k + 1) vs

/-- The values of `n` keys from `k` on. -/
def Sparse.range {α : Type} (d : α) (m : Sparse α) : Nat → Nat → List α
  | _, 0 => []
  | k, n + 1 => Sparse.at d m k :: Sparse.range d m (k + 1) n

/-- The keys `lo ≤ k < hi` go back to what an unlisted key holds. -/
def Sparse.clear {α : Type} (m : Sparse α) (lo hi : Nat) : Sparse α := m.filter fun e => e.1 < lo || hi ≤ e.1

end Sys2Proof
end

