-- ==== Sys2Proof/Machine/Ops.lean ====
section
/-!
DEFINITION. The named operations over registers, memory and outputs that every meaning is written in.
-/

namespace Sys2Proof.Machine

/-! ## The register file -/

/-- Whether a row of the map holds address `a` (R4, R470). -/
def RegRow.holds (r : RegRow) (a : Nat) : Bool :=
  r.base ≤ a && (a - r.base) / r.s1 < r.n1 && (a - r.base) % r.s1 % r.s2 = 0 && (a - r.base) % r.s1 / r.s2 < r.n2

/-- The row that holds address `a`. -/
def regRow? (a : Nat) : Option RegRow := (blockRows (a / 65536)).find? fun r => r.holds a

/-- The Reset value of the register at `a`; zero where there is none (R4). -/
def regReset (a : Nat) : Word :=
  match regRow? a with
  | some r => BitVec.ofNat 32 r.reset
  | none => 0#32

/-- The address of a field's register. -/
def Fld.addr (f : Fld) (i j : Nat) : Nat := f.base + f.s1 * i + f.s2 * j

/-- The field's bits of a register word. -/
def Fld.of (f : Fld) (v : Word) : Nat := bitsOf v.toNat f.lo f.w

/-- A register word with the field's bits replaced. -/
def Fld.into (f : Fld) (v : Word) (x : Nat) : Word :=
  BitVec.ofNat 32 (v.toNat - bitsOf v.toNat f.lo f.w * 2 ^ f.lo + x % 2 ^ f.w * 2 ^ f.lo)

/-- The word a register holds. -/
def State.rd (s : State) (a : Nat) : Word := Sparse.get regReset s.regs a

/-- A register takes a word. -/
def State.wr (s : State) (a : Nat) (v : Word) : State := { s with regs := Sparse.put regReset s.regs a v }

/-- A field of a register: `i` is the instance, and where instances are nested, `i` the outer and `j` the inner. -/
def State.getF (s : State) (f : Fld) (i : Nat := 0) (j : Nat := 0) : Nat := f.of (s.rd (f.addr i j))

/-- A field read as a signed number. -/
def State.getS (s : State) (f : Fld) (i : Nat := 0) (j : Nat := 0) : Int := signed f.w (s.getF f i j)

/-- Whether a one-bit field is 1. -/
def State.isF (s : State) (f : Fld) (i : Nat := 0) (j : Nat := 0) : Bool := s.getF f i j = 1

/-- A field of a register takes a value. -/
def State.setF (s : State) (f : Fld) (v : Nat) (i : Nat := 0) (j : Nat := 0) : State :=
  s.wr (f.addr i j) (f.into (s.rd (f.addr i j)) v)

/-- A field takes a signed value. -/
def State.setS (s : State) (f : Fld) (v : Int) (i : Nat := 0) (j : Nat := 0) : State := s.setF f (unsign f.w v) i j

/-- A field takes a value, saturating at its width. -/
def State.setSat (s : State) (f : Fld) (v : Nat) (i : Nat := 0) (j : Nat := 0) : State :=
  s.setF f (min v (2 ^ f.w - 1)) i j

/-- A counter field counts `n` more and saturates at its width. -/
def State.bumpBy (s : State) (f : Fld) (n : Nat) (i : Nat := 0) (j : Nat := 0) : State :=
  s.setSat f (s.getF f i j + n) i j

/-- A counter field counts one more and saturates at its width. -/
def State.bump (s : State) (f : Fld) (i : Nat := 0) (j : Nat := 0) : State := s.bumpBy f 1 i j

/-- A crossing out of clock domain `d` failed: its STALE result counts (17 R416). -/
def State.crossingFailed (s : State) (d : Nat) : State := s.bump Reg.CLK_XING_STALE (d - 1)

/-- A pair of registers from its low word's field (R8). -/
def State.get64 (s : State) (f : Fld) (i : Nat := 0) (j : Nat := 0) : Nat :=
  (s.rd (f.addr i j)).toNat + 2 ^ 32 * (s.rd (f.addr i j + 4)).toNat

/-- A pair of registers takes a 64-bit value. -/
def State.set64 (s : State) (f : Fld) (v : Nat) (i : Nat := 0) (j : Nat := 0) : State :=
  (s.wr (f.addr i j) (BitVec.ofNat 32 v)).wr (f.addr i j + 4) (BitVec.ofNat 32 (v / 2 ^ 32))

/-- A field of a frame-staged setting, as in force since the last frame boundary (01 R13). -/
def State.effF (s : State) (f : Fld) (i : Nat := 0) (j : Nat := 0) : Nat :=
  f.of (Sparse.get regReset s.eff (f.addr i j))

/-- A staged setting in force, read as a signed number. -/
def State.effS (s : State) (f : Fld) (i : Nat := 0) (j : Nat := 0) : Int := signed f.w (s.effF f i j)

/-- Whether a one-bit setting in force is 1. -/
def State.isE (s : State) (f : Fld) (i : Nat := 0) (j : Nat := 0) : Bool := s.effF f i j = 1

/-- Bit `n` of a bitmap register of instances of 32 bits each. -/
def State.mapBit (s : State) (f : Fld) (n : Nat) : Bool := bitOf (s.getF f (n / 32)) (n % 32)

/-- Bit `n` of a bitmap register takes a value. -/
def State.setMapBit (s : State) (f : Fld) (n : Nat) (b : Bool) : State :=
  s.setF f (putBit (s.getF f (n / 32)) (n % 32) b) (n / 32)

/-- A register word kept for one access path. -/
def State.rdPath (s : State) (path a : Nat) : Word := Sparse.at 0#32 s.pathRegs (path * 2 ^ 26 + a)

/-- A register word kept for one access path takes a value. -/
def State.wrPath (s : State) (path a : Nat) (v : Word) : State :=
  { s with pathRegs := Sparse.upd 0#32 s.pathRegs (path * 2 ^ 26 + a) v }

/-! ## Outputs, events, interrupts -/

/-- Something leaves the module. -/
def State.emit (s : State) (k : OutKind) (args : List Nat) : State := { s with outbox := s.outbox ++ [⟨k, args⟩] }

/-- An event sets out for the Yew log (18 R422). -/
def State.event (s : State) (code source : Nat) (data : List Nat := []) : State :=
  { s with events := s.events ++ [⟨code, source, data⟩] }

/-- The cause bit of an interrupt vector is set (20 R461). -/
def State.cause (s : State) (vector bit : Nat) : State :=
  s.setF Reg.SYS_IRQ_CAUSE (putBit (s.getF Reg.SYS_IRQ_CAUSE vector) bit true) vector

/-- The cause bit of a vector is set when a condition holds. -/
def State.causeIf (s : State) (b : Bool) (vector bit : Nat) : State := if b then s.cause vector bit else s

/-- An armed capture whose source acts now takes the next boundary (12 R292): `src` is 1 LOGIC, 2 FAULT. -/
def State.snapTrigger (s : State) (src : Nat) : State :=
  if s.getF Reg.SNAP_STATUS_STATE = 1 && s.getF Reg.SNAP_CTL_SRC = src && s.snap.boundary.isNone then
    { s with snap := { s.snap with boundary := some (s.frame + 1) } }
  else s

/-- A write that took effect in the SNS, LT, PWM or WB block, or a claim or release, joins the holder's journal (15 R358). -/
def State.journal (s : State) (a v : Nat) : State :=
  if s.isF Reg.TWN_STATUS_LOCK then { s with twn := { s.twn with journal := s.twn.journal ++ [(a, v)] } } else s

/-! ## Free values -/

/-- A value the spec leaves open. -/
def State.freeVal (s : State) (about : Nat) : Nat := Config.freeNat s.free about

/-- The next use of a free value is a fresh one. -/
def State.useFree (s : State) : State := { s with free := s.free + 1 }

/-! ## The memory stack -/

/-- The bytes of the stack from address `a` on (R198; little-endian values, R11). -/
def State.memBytes (s : State) (a n : Nat) : List Byte := Sparse.range 0#8 s.mem a n

/-- Bytes are written to the stack from address `a` on. -/
def State.memWrite (s : State) (a : Nat) (bs : List Byte) : State := { s with mem := Sparse.fill 0#8 s.mem a bs }

/-- A range of the stack takes zeros with valid check bytes (R453), which clears its poison. -/
def State.memWipe (s : State) (a n : Nat) : State :=
  { s with mem := Sparse.clear s.mem a (a + n), poison := Sparse.clear s.poison (a / 64) ((a + n + 63) / 64) }

/-- Whether some block of a range of the stack is poisoned (R215). -/
def State.poisonedIn (s : State) (a n : Nat) : Bool :=
  s.poison.any fun e => e.2 && a / 64 ≤ e.1 && e.1 < (a + n + 63) / 64

/-- Bytes that a unit of the module reads from the stack; a poisoned block reads as zeros (R216). -/
def State.readStack (s : State) (a n : Nat) : List Byte :=
  if s.poisonedIn a n then
    (s.memBytes a n).zipIdx.map fun e => if Sparse.at false s.poison ((a + e.2) / 64) then 0#8 else e.1
  else s.memBytes a n

/-! ## Frames and module time (01 R12, 17 R400) -/

/-- The module time in ns of the boundary of frame `f`. -/
def State.frameTime (s : State) (f : Nat) : Nat := s.frameBase + f * 10000

/-- The frame that holds the module time `t`. -/
def State.frameOf (s : State) (t : Nat) : Nat := (t - s.frameBase) / 10000

/-- The first frame whose boundary lies at or after the module time `t`. -/
def State.frameFrom (s : State) (t : Nat) : Nat := (t - s.frameBase + 9999) / 10000

/-- `x` divided by a period, as the remainder from the frame grid: how far the instant `t16` (62.5 ps steps, an integer) lies after the
boundary of the frame that holds it. -/
def State.frameRest (s : State) (t16 : Int) : Int := (t16 - 16 * s.frameBase) % 160000

/-! ## Owners (02 R41) -/

/-- OWNER of a resource (R41). -/
def State.owner (s : State) (r : Nat) : Nat := s.getF Reg.CFG_OWN_OWNER r

/-- Whether a resource is in use: a free one is idle, and one reserved for B is still free (R41, R42). -/
def State.owned (s : State) (r : Nat) : Bool := s.owner r ≠ 0 && !s.isF Reg.CFG_OWN_RESERVED r

/-! ## The start-up timeline (17 R398) -/

/-- ms of the instant `now` counted from the origin of start-up. -/
def State.originMs (s : State) (now : Nat) : Nat := (now - s.pwr.origin) / 1000000

/-- ms as a field of PWR_START shows them. -/
def State.startMs (s : State) (f : Fld) (ms : Nat) : State := s.setF f (min ms 0xFFFE)

/-! ## Clock domains (17 R415, R420) -/

/-- Whether domain `n` (1 to 40) runs and is out of reset, as DOM_STATUS shows (R420). -/
def State.runs (s : State) (n : Nat) : Bool :=
  if n ≤ 32 then bitOf (s.getF Reg.PWR_DOM_STATUS_LO_RUNS) (n - 1) else bitOf (s.getF Reg.PWR_DOM_STATUS_HI_RUNS) (n - 33)

/-- Domain `n` starts or stops. -/
def State.setRuns (s : State) (n : Nat) (b : Bool) : State :=
  if n ≤ 32 then s.setF Reg.PWR_DOM_STATUS_LO_RUNS (putBit (s.getF Reg.PWR_DOM_STATUS_LO_RUNS) (n - 1) b)
  else s.setF Reg.PWR_DOM_STATUS_HI_RUNS (putBit (s.getF Reg.PWR_DOM_STATUS_HI_RUNS) (n - 33) b)

/-- Domains of a list start or stop. -/
def State.setRunsAll (s : State) (ns : List Nat) (b : Bool) : State := ns.foldl (fun t n => t.setRuns n b) s

end Sys2Proof.Machine
end

