-- ==== Sys2Proof/Machine/Keys.lean ====
section
/-!
DEFINITION. Which keys the security island lets act (19 R445, R446), and the life-cycle state they depend on.
-/

namespace Sys2Proof.Machine

/-- The uses of verification slots, as bits of SEC_SLOT.USES (19, SEC registers). -/
abbrev useFirmware : Nat := 0
abbrev useImage : Nat := 1
abbrev useProgram : Nat := 2
abbrev useDebug : Nat := 3
abbrev useLifecycle : Nat := 4

/-- The uses of secret slots. -/
abbrev useImageDec : Nat := 0
abbrev useNetHmac : Nat := 1
abbrev usePackHmac : Nat := 2
abbrev useWrap : Nat := 3

/-- The life-cycle state: 0 BLANK, 1 PROVISIONED, 2 FIELD, 3 RETURN, 4 RETIRED (R438). -/
def State.lcState (s : State) : Nat := s.getF Reg.LCS_STATUS_STATE

/-- Whether verification slot `v` may act for a use in the present life-cycle state (R446). -/
def State.vslotMay (s : State) (v use : Nat) : Bool :=
  let lc := s.lcState
  v < 8 && s.isF Reg.SEC_SLOT_VALID v && !s.isF Reg.SEC_SLOT_REVOKED v && bitOf (s.getF Reg.SEC_SLOT_USES v) use &&
    (if use = useFirmware then v = 0 && lc < 4
     else if v = 0 then (use = useImage || use = useProgram) && lc < 2
     else if v = 1 then (use = useImage || use = useProgram) && lc = 3
     else lc = 1 || lc = 2)

/-- Whether secret slot `n` may act for a use (R446); after a debug unlock no secret slot acts (R451). -/
def State.sslotMay (s : State) (n use : Nat) : Bool :=
  n < 16 && s.isF Reg.SEC_SLOT_VALID (8 + n) && !s.isF Reg.SEC_SLOT_REVOKED (8 + n) &&
    bitOf (s.getF Reg.SEC_SLOT_USES (8 + n)) use && s.lcState < 3 && !s.isF Reg.LCS_STATUS_DEBUG

/-- The public key of a verification slot. -/
def State.vkeyOf (s : State) (v : Nat) : List Byte := Sparse.at [] s.sec.vkey v

/-- The key of a secret slot. -/
def State.skeyOf (s : State) (n : Nat) : List Byte := Sparse.at [] s.sec.skey n

/-- A slot asked for a use it does not carry is recorded as SLOT_MISUSE (R446, R454). -/
def State.misuse (s : State) (slot use : Nat) : State := s.event 0x0E05 0xFFFF [slot, use]

/-! ## CRC-32C and the other checks of messages -/

/-- One bit of a reflected CRC register: shifts right, folding the polynomial in. -/
def crcStep (poly crc : Nat) : Nat := if crc % 2 = 1 then (crc / 2) ^^^ poly else crc / 2

/-- One byte into a reflected CRC. -/
def crcByte (poly crc : Nat) (b : Byte) : Nat :=
  let c := crc ^^^ b.toNat
  crcStep poly (crcStep poly (crcStep poly (crcStep poly (crcStep poly (crcStep poly (crcStep poly (crcStep poly c)))))))

/-- CRC-32C (Castagnoli) of a byte string, as the image, the log and the ledger use it. -/
def crc32c (bs : List Byte) : Nat := (bs.foldl (crcByte 0x82F63B78) 0xFFFFFFFF) ^^^ 0xFFFFFFFF

/-- One bit of a CRC register of `w` bits, most significant bit first. -/
def crcStepMsb (w poly crc : Nat) : Nat :=
  if crc / 2 ^ (w - 1) % 2 = 1 then ((crc * 2) % 2 ^ w) ^^^ poly else (crc * 2) % 2 ^ w

/-- One byte into a CRC of 8 or 16 bits, most significant bit first. -/
def crcByteMsb (w poly crc : Nat) (b : Byte) : Nat :=
  let f := crcStepMsb w poly
  f (f (f (f (f (f (f (f (crc ^^^ (b.toNat * 2 ^ (w - 8))))))))))

/-- The 16-bit frame check sequence of discovery frames, as IEEE 802.15.4 computes it (13 R296): reflected, from zero. -/
def fcs16 (bs : List Byte) : Nat := bs.foldl (crcByte 0x8408) 0

/-- CRC-8 with polynomial 0x07, from zero (15 R360). -/
def crc8 (bs : List Byte) : Nat := bs.foldl (crcByteMsb 8 0x07) 0

end Sys2Proof.Machine
end

