-- ==== Sys2Proof/Machine/Image.lean ====
section
/-!
DEFINITION. The configuration image (02): its layout (R19 to R25), the regions and what each may write (R18, R480),
and the loader's checks (R29).
-/

namespace Sys2Proof.Machine

/-- A field of `n` bits from bit `lo`. -/
def maskBits (lo n : Nat) : Nat := (2 ^ n - 1) * 2 ^ lo

/-! ## Who configures what -/

/-- Whether a region can be layered (R18). -/
def layerable (r : Nat) : Bool := r < 20 && !(r = 0 || r = 1 || r = 7 || r = 18)

/-- The ownership claims of a region's records: resource identifiers (R22 class 0x08, R40). -/
def CfgRegion.claims (g : CfgRegion) : List Nat := (g.recs.filter fun x => x.cls = 8).map fun x => x.target

/-- The bits of the register at `a` that region `r` may write, `own` telling which resources the region claims
(R18, R480). The address lies in the block that the caller has found. -/
def regionBits (own : Nat → Bool) (r a : Nat) : Nat :=
  let b := a / 65536
  let o := a % 65536
  let all := 0xFFFFFFFF
  let fab := 3 ≤ r && r ≤ 6
  let pwm := 8 ≤ r && r ≤ 11
  match b with
  | 0 => if r = 0 && (o = 0x44 || o = 0x4C || o = 0x50 || o = 0x60 || o = 0x64 || (0x140 ≤ o && o < 0x190) ||
      (0x1000 ≤ o && o < 0x1080)) then all else 0
  | 2 => if r = 0 && (o = 0x08 || o = 0x1C || o = 0x38) then all else 0
  | 3 => if r = 0 && o = 0x28 then all else 0
  | 4 =>
    if r = 1 then
      if o = 0x10 || (0x100 ≤ o && o < 0x120) || (0x1000 ≤ o && o < 0x1A80 && !(o % 64 = 8 || o % 64 = 12)) then all else 0
    else if r = 2 then
      if 0x1000 ≤ o && o < 0x1A80 && (o % 64 = 8 || o % 64 = 12) then all else 0
    else if fab then
      if (0x4000 + 0x300 * (r - 3) ≤ o && o < 0x4300 + 0x300 * (r - 3)) ||
        (0x6000 + 0xC00 * (r - 3) ≤ o && o < 0x6C00 + 0xC00 * (r - 3)) then all else 0
    else if r = 15 && o = 0x20 then all else 0
  | 5 =>
    if 0xF800 ≤ o && o < 0xF900 then if own (0x170 + (o - 0xF800) / 16) then all else 0
    else if fab then
      let k := r - 3
      if o < 12 then
        ((List.range 32).filter fun n => (32 * (o / 4) + n) / 24 = k).foldl (fun m n => m + 2 ^ n) 0
      else if (0x1000 + 0x3000 * k ≤ o && o < 0x4000 + 0x3000 * k) ||
        (0xD000 + 0x400 * k ≤ o && o < 0xD400 + 0x400 * k) ||
        (0xF000 + 0x200 * k ≤ o && o < 0xF200 + 0x200 * k) then all else 0
    else 0
  | 6 =>
    let isLaneCfg := 0x1000 ≤ o && o < 0x1C00 && o % 64 = 0
    let group := maskBits Reg.PWM_LANE_CFG_GROUP.lo Reg.PWM_LANE_CFG_GROUP.w
    if r = 7 then
      if (0x40 ≤ o && o < 0x80) || (0x80 ≤ o && o < 0xA0) then all else if isLaneCfg then group else 0
    else if pwm then
      let k := r - 8
      if 0x100 + 0x40 * k ≤ o && o < 0x140 + 0x40 * k then all
      else if 0x1000 + 0x300 * k ≤ o && o < 0x1300 + 0x300 * k then if isLaneCfg then all - group else all
      else 0
    else 0
  | 7 => if r = 12 then all else 0
  | 8 => if r = 14 then all else 0
  | 9 => if r = 13 then all else 0
  | 10 => if r = 13 then all else 0
  | 11 => if r = 15 then all else 0
  | 12 => if r = 16 then all else 0
  | 13 => if r = 18 then all else 0
  | 14 => if r = 19 && (o = 8 || (0x100 ≤ o && o < 0x140)) then all else 0
  | 16 =>
    if 0x1000 ≤ o && o < 0x1800 then if own (0x180 + (o - 0x1000) / 32) then all else 0
    else if r = 17 && (o = 0x1C || o = 0x40) then all else 0
  | 18 => if r = 19 && (o = 0 || o = 0x10 || o = 0x14 || (0x1000 ≤ o && o < 0x1800)) then all else 0
  | 0x100 => if r = 17 && 0x1000 ≤ o then all else 0
  | 0x101 => if r = 17 && o = 4 then all else 0
  | 0x201 => if r = 17 && o = 4 then all else 0
  | _ => 0

/-- The bits of a register that a record can set at all: codes RW and RWL (R5, R22). -/
def settable (a : Nat) : Nat :=
  match regRow? a with
  | some row => row.rw ||| row.rwl
  | none => 0

/-- The bits of the register at `a` that a record of region `r` may set. -/
def recBits (own : Nat → Bool) (r a : Nat) : Nat := settable a &&& regionBits own r a

/-- The register a record's word sets (R22 and the chapters of the classes): class, target, word, region. -/
def recAddr (r cls target word : Nat) : Option Nat :=
  match cls with
  | 1 => if target < 96 && word < 48 then some (0x51000 + 0x200 * target + 4 * word) else none
  | 2 => if target < 48 && word < 16 then some (0x44000 + 0x40 * target + 4 * word)
         else if target < 48 && word < 80 then some (0x46000 + 0x100 * target + 4 * (word - 16)) else none
  | 3 => if target < 32 && word < 32 then some (0x5D000 + 0x80 * target + 4 * word) else none
  | 4 => if target < 4 && word < 1 then some (0x5F000 + 0x200 * target + 4 * word) else none
  | 5 => if target < 48 && word < 5 then some (0x61000 + 0x40 * target + 4 * word) else none
  | 6 => if target < 42 && word < 16 then some (0x41000 + 0x40 * target + 4 * word) else none
  | 7 => if target < 32 && word < 1 then some (0x1000 + 4 * target) else none
  | 9 => if target < 16 && word < 39 then some (0x1001000 + 0x100 * target + 4 * word) else none
  | 10 => if target < 1024 && word < 16384 then some (0x10000 * target + 4 * word) else none
  | 11 => if target = 0 && word = 0 then some 0x40020 else if target = 0 && word = 1 then some 0xB000C else none
  | 12 => if target < 64 && word < 1 then some (0x5F100 + 0x200 * (r - 3) + 4 * target) else none
  | _ => none

/-- Whether a class may stand in a region (R22, R480). -/
def classAllowed (r cls : Nat) : Bool :=
  let fab := 3 ≤ r && r ≤ 6
  match cls with
  | 1 => fab
  | 2 => fab
  | 3 => fab
  | 4 => fab
  | 5 => 8 ≤ r && r ≤ 11
  | 6 => r = 1 || r = 2
  | 7 => r = 0
  | 8 => true
  | 9 => r = 17
  | 10 => true
  | 11 => r = 15
  | 12 => fab
  | _ => false

/-- The writes of one record: address, the bits it may set, the word. -/
def CfgRec.writes (own : Nat → Bool) (r : Nat) (x : CfgRec) : List (Nat × Nat × Nat) :=
  x.words.zipIdx.filterMap fun (v, k) =>
    (recAddr r x.cls x.target (x.word + k)).map fun a => (a, recBits own r a, v)

/-- A parameter record may not reach what another class alone reaches (R480: schedule words, pins, partitions). -/
def paramReaches (a : Nat) : Bool :=
  !(a = 0x40020 || a = 0xB000C || (0x1000 ≤ a && a < 0x1080) || (0x1001000 ≤ a && a < 0x1002000))

/-- The resources of R40 that exist; contacts above 31 cannot be claimed (16 R390). -/
def claimable (r : Nat) : Bool :=
  r < 0x20 || (0x100 ≤ r && r < 0x16A) || (0x170 ≤ r && r < 0x200)

/-- Whether a record passes check 11 of R29 in region `r`. -/
def CfgRec.ok (own : Nat → Bool) (r : Nat) (x : CfgRec) : Bool :=
  classAllowed r x.cls &&
    (if x.cls = 8 then claimable x.target
     else x.words.zipIdx.all fun (_, k) =>
      match recAddr r x.cls x.target (x.word + k) with
      | some a => recBits own r a ≠ 0 && (x.cls ≠ 10 || paramReaches a)
      | none => false)

/-- Replaces the bits of a mask in a word. -/
def maskInto (old mask v : Nat) : Nat := (old - (old &&& mask)) + (v &&& mask)

/-- A word as its register holds it: bits 31:24 follow bit 23 where the register says so. -/
def regShape (a v : Nat) : Nat :=
  match regRow? a with
  | some row => if row.sx then unsign 32 (signed 24 v) else v
  | none => 0

/-- Whether an order byte names each of the three domains exactly once (11 R260). -/
def orderOk (o : Nat) : Bool :=
  let l := [bitsOf o 4 2, bitsOf o 2 2, bitsOf o 0 2]
  o < 64 && l.contains 0 && l.contains 1 && l.contains 2

/-- The ORDER that a write to a register carries, if it carries one. -/
def orderOf (a v : Nat) : Option Nat :=
  if a = Reg.CPC_ORDER.addr 0 0 then some (bitsOf v 24 8)
  else if Reg.CPC_OVR_A_ORDER.base ≤ a && a < Reg.CPC_OVR_A_ORDER.base + 64 * 8 && (a - Reg.CPC_OVR_A_ORDER.base) % 8 = 0 then
    some (bitsOf v 16 8)
  else none

/-- The event of a write that the life-cycle lock refuses. -/
def State.lockRefused (s : State) (path a v : Nat) : State := s.event 0x0006 0xFFFF [a, v, path]

/-- The bits with code RWL of a register. -/
def rwlBits (a : Nat) : Nat := match regRow? a with | some row => row.rwl | none => 0

/-- One word of a record is written on behalf of `path`: address, the bits it may set, the word. The life-cycle lock holds RWL bits
(R5), and an order that is none is refused (11 R260). -/
def State.putWrite (s : State) (path : Nat) (w : Nat × Nat × Nat) : State :=
  match orderOf w.1 w.2.2 with
  | some o =>
    if orderOk o then
      (s.wr w.1 (BitVec.ofNat 32 (regShape w.1 (maskInto (s.rd w.1).toNat w.2.1 w.2.2)))).setF Reg.CPC_STATUS_BAD_ORDER 0
    else s.setF Reg.CPC_STATUS_BAD_ORDER 1
  | none =>
    let held := if s.isF Reg.LCS_STATUS_LOCK then w.2.1 &&& rwlBits w.1 else 0
    let s := if held ≠ 0 then s.lockRefused path w.1 w.2.2 else s
    s.wr w.1 (BitVec.ofNat 32 (regShape w.1 (maskInto (s.rd w.1).toNat (w.2.1 - held) w.2.2)))

/-- A record's words are written to their registers on behalf of `path`. -/
def State.putWrites (s : State) (path : Nat) (ws : List (Nat × Nat × Nat)) : State :=
  ws.foldl (fun t w => t.putWrite path w) s

/-! ## Reading an image -/

/-- The frame records of a region payload (R22); none when the bytes do not form whole records. The fuel is the
number of records. -/
def parseRecs : Nat → List Byte → Option (List CfgRec)
  | 0, bs => if bs = [] then some [] else none
  | n + 1, bs =>
    let len := leAt bs 6 2
    let whole := 8 + (len + 7) / 8 * 8
    if len % 4 = 0 && 4 ≤ len && len ≤ 4096 && whole ≤ bs.length && leAt bs 1 1 < 4 then
      let x : CfgRec := ⟨leAt bs 0 1, leAt bs 1 1, leAt bs 2 2, leAt bs 4 2,
        (List.range (len / 4)).map fun k => leAt bs (8 + 4 * k) 4⟩
      (parseRecs n (bs.drop whole)).map fun xs => x :: xs
    else none

/-- An entry of the region table (R21): region, flags, version, offset, length, records, CRC. -/
structure RegionEntry where
  region : Nat
  flags : Nat
  version : Nat
  offset : Nat
  length : Nat
  records : Nat
  crc : Nat
  deriving DecidableEq, Repr

/-- Entry `k` of the region table of an image. -/
def regionEntry (img : List Byte) (k : Nat) : RegionEntry :=
  let o := 256 + 32 * k
  ⟨leAt img o 1, leAt img (o + 2) 2, leAt img (o + 4) 4, leAt img (o + 8) 4, leAt img (o + 12) 4,
    leAt img (o + 16) 4, leAt img (o + 20) 4⟩

/-- The region table of an image. -/
def regionTable (img : List Byte) : List RegionEntry := (List.range (leAt img 10 2)).map (regionEntry img)

/-- The next 64-byte boundary. -/
def align64 (n : Nat) : Nat := (n + 63) / 64 * 64

/-- Whether the offsets of an image follow R19: table, encryption block, payloads in order, signature block. -/
def layoutOk (img : List Byte) : Bool :=
  let n := leAt img 10 2
  let tab := regionTable img
  let enc := bitOf (leAt img 9 1) 0
  let after := 256 + 32 * n
  let first := if enc then align64 (align64 after + align64 (16 + 16 * n)) else align64 after
  let last := tab.foldl (fun (acc : Nat × Bool) e =>
    (align64 (e.offset + e.length), acc.2 && e.offset = acc.1 && e.length % 8 = 0)) (first, true)
  leAt img 0x30 4 = 256 && leAt img 0x34 4 = (if enc then align64 after else 0) && last.2 &&
    leAt img 0x38 4 = last.1 && leAt img 12 4 = last.1 + 160

/-- The image loads for start-up or NO_IMAGE (0), is to be programmed (1), or is a layer or to be programmed as the
running state decides (2). -/
abbrev LoadUse := Nat

/-- Checks 1 to 4 of R29, which need the header only: 0 when they pass, else the code. -/
def checkHeader (s : State) (img : List Byte) (srcLen : Nat) (forApply : Bool) : Nat :=
  let kind := leAt img 8 1
  if !(slice img 0 4 = [0x41, 0x46, 0x51, 0x49] && leAt img 4 2 = 2 && leAt img 6 2 = 256) then 0x01
  else if !(leAt img 0x10 4 = 0x2400 && leAt img 0x14 2 ≤ s.getF Reg.SYS_REV) then 0x02
  else if !(leAt img 12 4 ≤ 0x800000 && leAt img 12 4 ≤ srcLen && layoutOk img) then 0x03
  else if !(if forApply then kind = 1 else if s.cfg.running then kind = 1 || kind = 2 else kind = 1) then 0x04
  else 0

/-- The plaintext of region `k` of the table (R24, R25); none when its tag fails or its key may not act. -/
def regionPlain (s : State) (img : List Byte) (k : Nat) (e : RegionEntry) : Option (List Byte) :=
  if bitOf (leAt img 9 1) 0 then
    let eb := leAt img 0x34 4
    let slot := leAt img eb 1
    if s.sslotMay slot useImageDec then
      Config.gcmOpen (s.skeyOf slot) (slice img (eb + 8) 8 ++ leBytes 4 k) (slice img (256 + 32 * k) 32)
        (slice img e.offset e.length) (slice img (eb + 16 + 16 * k) 16)
    else none
  else some (slice img e.offset e.length)

/-- The regions of an image, once every payload is in clear and parses. -/
def parseRegions (s : State) (img : List Byte) : Option (List CfgRegion) :=
  (regionTable img).zipIdx.mapM fun (e, k) => do
    let plain ← regionPlain s img k e
    let recs ← parseRecs e.records plain
    pure ⟨e.region, e.version, e.flags, recs⟩

/-- Whether strictly rising. -/
def risingList : List Nat → Bool
  | a :: b :: xs => a < b && risingList (b :: xs)
  | _ => true

/-- The word a region's content gives a register: its Reset value with the records written over it. -/
def planeWord (own : Nat → Bool) (g : CfgRegion) (a : Nat) : Nat :=
  (g.recs.flatMap fun x => x.writes own g.region).foldl
    (fun v w => if w.1 = a then regShape a (maskInto v w.2.1 w.2.2) else v) (regReset a).toNat

/-- Whether a FABRIC region's boundary, the ports below PORTS with EN set, is that of the running region in number, DIR and FORMAT
(check 12, R97). -/
def portsMatch (s : State) (g : CfgRegion) : Bool :=
  let k := g.region - 3
  let own := fun _ => false
  let segNew := BitVec.ofNat 32 (planeWord own g (Reg.LT_SEG_CFG.addr k 0))
  (List.range 64).all fun p =>
    let w := BitVec.ofNat 32 (planeWord own g (Reg.LT_PORT.addr k p))
    let new : Bool := p < Reg.LT_SEG_CFG_PORTS.of segNew && Reg.LT_PORT_EN.of w = 1
    let old : Bool := p < s.getF Reg.LT_SEG_CFG_PORTS k && s.isF Reg.LT_PORT_EN k p
    new = old && (!new || (Reg.LT_PORT_DIR.of w = s.getF Reg.LT_PORT_DIR k p &&
      Reg.LT_PORT_FORMAT.of w = s.getF Reg.LT_PORT_FORMAT k p))

/-- The first claim of a list that meets a claim before it, or for a layer an owner outside its regions
(check 13): resource, holder code, claimant code. -/
def claimClash (s : State) (layer : Bool) (regions : List Nat) : List (Nat × Nat) → List (Nat × Nat) → Option (Nat × Nat × Nat)
  | _, [] => none
  | seen, (res, r) :: rest =>
    match seen.find? fun x => x.1 = res with
    | some x => some (res, x.2 + 1, r + 1)
    | none =>
      let o := s.getF Reg.CFG_OWN_OWNER res
      if layer && o ≠ 0 && !(regions.any fun q => q + 1 = o) then some (res, o, r + 1)
      else claimClash s layer regions ((res, r) :: seen) rest

/-- The claims of an image: resource and region. -/
def imageClaims (gs : List CfgRegion) : List (Nat × Nat) := gs.flatMap fun g => g.claims.map fun c => (c, g.region)

/-- The outcome of the loader's checks: the code of the first that fails (0 when none does), the clash of check 13,
and the image when every check has passed. -/
structure CheckResult where
  code : Nat
  clash : Option (Nat × Nat × Nat)
  image : Option CfgImage
  deriving DecidableEq, Repr

/-- A failed check. -/
def failCheck (code : Nat) (clash : Option (Nat × Nat × Nat) := none) : CheckResult := ⟨code, clash, none⟩

/-- The loader's checks in the order of R29, stopping at the first failure. `forApply`: a full image to be applied. -/
def checkImage (s : State) (img : List Byte) (srcLen : Nat) (forApply : Bool) : CheckResult :=
  let h := checkHeader s img srcLen forApply
  if h ≠ 0 then failCheck h
  else
    let layer := leAt img 8 1 = 2
    let so := leAt img 0x38 4
    let slot := leAt img (so + 2) 1
    let serial := leAt img 0x18 4
    let tab := regionTable img
    let digest := Config.sha384 (img.take so)
    if !(leAt img so 2 = 1 && leAt img (so + 4) 4 = so && s.vslotMay slot useImage && slice img (so + 8) 48 = digest &&
        Config.ecdsaVerify (s.vkeyOf slot) (img.take so) (slice img (so + 56) 96)) then failCheck 0x05
    else if serial < s.getF Reg.LCS_MIN_IMG || (layer && serial ≤ s.getF Reg.CFG_LAYER_SERIAL) then failCheck 0x06
    else if layer && !(leAt img 0x1C 4 = s.getF Reg.CFG_IMAGE_SERIAL && slice img 0x20 16 = s.cfg.baseDigest) then
      failCheck 0x07
    else if !(risingList (tab.map (·.region)) && tab.all (fun e => e.region < 20) &&
        (if layer then tab.all fun e => layerable e.region else tab.length = 20)) then failCheck 0x08
    else if !(tab.all fun e => crc32c (slice img e.offset e.length) = e.crc) then failCheck 0x09
    else if !(tab.zipIdx.all fun (e, k) => (regionPlain s img k e).isSome) then failCheck 0x0A
    else
      match parseRegions s img with
      | none => failCheck 0x0B
      | some gs =>
        if !(gs.all fun g => g.recs.all fun x => x.ok (fun c => g.claims.contains c) g.region) then failCheck 0x0B
        else if layer && !(gs.all fun g => !(3 ≤ g.region && g.region ≤ 6) || portsMatch s g) then failCheck 0x0C
        else
          match claimClash s layer (gs.map (·.region)) [] (imageClaims gs) with
          | some c => failCheck 0x0D (some c)
          | none => ⟨0, none, some ⟨leAt img 8 1, serial, leAt img 0x1C 4, digest.take 16, gs⟩⟩

end Sys2Proof.Machine
end

