-- ==== Sys2Proof/Machine/Cfg.lean ====
section
/-!
DEFINITION. The configuration loader and resource ownership (02 R26 to R43, R481). COMMIT, the start-up load and the
switch at the boundary B stand in Machine/Layer.lean, because they start and restart other units.
-/

namespace Sys2Proof.Machine

/-! ## Loader state -/

/-- The codes of CFG_STATUS.STATE. -/
abbrev cfgIdle : Nat := 0
abbrev cfgChecking : Nat := 2
abbrev cfgStaged : Nat := 3
abbrev cfgWriting : Nat := 4
abbrev cfgArmed : Nat := 5
abbrev cfgSwitched : Nat := 6
abbrev cfgReverting : Nat := 7
abbrev cfgProgramming : Nat := 8
abbrev cfgFailed : Nat := 9
abbrev cfgNoImage : Nat := 10

/-- CFG_STATUS.STATE. -/
def State.cfgSt (s : State) : Nat := s.getF Reg.CFG_STATUS_STATE

/-- The loader takes a state; STAGED, SWITCHED, FAILED and NO_IMAGE raise their causes (20 R461). -/
def State.setCfgSt (s : State) (v : Nat) : State :=
  let t := s.setF Reg.CFG_STATUS_STATE v
  if v = cfgStaged then t.cause 4 0
  else if v = cfgSwitched then t.cause 4 1
  else if v = cfgFailed then t.cause 4 2
  else if v = cfgNoImage then t.cause 4 3
  else t

/-- CFG_STATUS.ERROR takes a code. -/
def State.cfgError (s : State) (code : Nat) : State := (s.setF Reg.CFG_STATUS_ERROR code).cause 4 2

/-- The rest state of the loader, to which CLEAR and ABORT return: IDLE, or NO_IMAGE while no image runs. The table of CFG_CMD names IDLE
for CLEAR; that NO_IMAGE stays NO_IMAGE, whose state R27 describes, is a DESIGN CHOICE (log 97). -/
def State.cfgRest (s : State) : Nat := if s.cfg.noImage then cfgNoImage else cfgIdle

/-- States in which an operation of the loader is under way. -/
def State.cfgBusy (s : State) : Bool :=
  s.cfgSt = 1 || s.cfgSt = cfgChecking || s.cfgSt = cfgWriting || s.cfgSt = cfgArmed || s.cfgSt = cfgReverting ||
    s.cfgSt = cfgProgramming

/-- A loader command through the management port while MGMT_EN is 0 (R481). -/
def State.cfgPathRefused (s : State) (path : Nat) : Bool := path = 1 && !s.isF Reg.CFG_POLICY_MGMT_EN

/-- The most recent ownership conflict is recorded (R43). -/
def State.conflict (s : State) (resource holder claimant : Nat) : State :=
  let v := resource + 2 ^ 16 * claimant + 2 ^ 24 * holder
  ((s.wr (Reg.CFG_CONFLICT_RESOURCE.addr 0 0) (BitVec.ofNat 32 v)).event 0x0106 0xFFFF [v]).cause 4 4

/-! ## STAGE and its checks -/

/-- The image at CFG_SRC_ADDR, as far as CFG_SRC_LEN and 8 MB go. -/
def State.sourceImage (s : State) : List Byte :=
  s.readStack (s.get64 Reg.CFG_SRC_ADDR_LO) (min (s.getF Reg.CFG_SRC_LEN) 0x800000)

/-- STAGE (R28, R29, R35, R38, R481): copies the image into the staging buffer, forwards a layer to an admitted
standby, and begins the checks. -/
def execCfgStage (path : Nat) (s : State) : Res :=
  let img := s.sourceImage
  .next <|
    if s.cfgPathRefused path then s.cfgError 0x16
    else if s.cfgBusy || !(s.cfg.running || s.cfg.noImage) then s.cfgError 0x13
    else if leAt img 8 1 = 2 && !s.isF Reg.CFG_POLICY_LAYER_EN then s.cfgError 0x16
    else
      let t := { s with cfg := { s.cfg with staging := img, held := none, canRevert := false, oldWords := [] } }
      let t := (t.setCfgSt cfgChecking).setF Reg.CFG_STATUS_TWIN_STAGED (ofBool (!s.twn.admitted))
      if s.twn.admitted && leAt img 8 1 = 2 then t.emit .layerToTwin (img.map BitVec.toNat) else t

/-- The checks of a staged image end (R29): STAGED, or FAILED with the code of the first check that failed. -/
def execCfgStageComplete (s : State) : Res :=
  .next <|
    if s.cfgSt = cfgChecking then
      let img := s.cfg.staging
      let r := checkImage s img img.length s.cfg.noImage
      let slot := leAt img (leAt img 0x38 4 + 2) 1
      match r.image with
      | some i => ({ s with cfg := { s.cfg with held := some i } }).setCfgSt cfgStaged
      | none =>
        let t := (s.cfgError r.code).setCfgSt cfgFailed
        let t := match r.clash with | some c => t.conflict c.1 c.2.1 c.2.2 | none => t
        if r.code = 5 && !s.vslotMay slot useImage then t.misuse slot useImage else t
    else s

/-- The standby has staged the same layer (R38). -/
def execTwinLayerStaged (s : State) : Res :=
  .next <| if s.twn.admitted && (s.cfgSt = cfgChecking || s.cfgSt = cfgStaged) then
    s.setF Reg.CFG_STATUS_TWIN_STAGED 1 else s

/-- ABORT discards a staged image before COMMIT (R28). -/
def execCfgAbort (path : Nat) (s : State) : Res :=
  .next <|
    if s.cfgPathRefused path then s.cfgError 0x16
    else if s.cfgSt = 1 || s.cfgSt = cfgChecking || s.cfgSt = cfgStaged then
      ({ s with cfg := { s.cfg with held := none, staging := [] } }).setCfgSt s.cfgRest
    else s.cfgError 0x13

/-- CLEAR: STATE to its rest state, ERROR to zero; a staged image is given up. -/
def execCfgClear (path : Nat) (s : State) : Res :=
  .next <|
    if s.cfgPathRefused path then s.cfgError 0x16
    else if s.cfgBusy then s.cfgError 0x13
    else (({ s with cfg := { s.cfg with held := none } }).setCfgSt s.cfgRest).setF Reg.CFG_STATUS_ERROR 0

/-- Whether the staging buffer holds a verified full image (R28). -/
def State.holdsFull (s : State) : Bool :=
  match s.cfg.held with
  | some i => i.kind = 1
  | none => false

/-- PROGRAM_SLOT (R28, R481); where the named slot holds the running image and no verified full image is held, the code is BUSY
(DESIGN CHOICE, log 97): the slot is erased, then written from the staging buffer. -/
def execCfgProgramSlot (path slot : Nat) (s : State) : Res :=
  .next <|
    if s.cfgPathRefused path || !s.isF Reg.CFG_POLICY_PROGRAM_EN then s.cfgError 0x16
    else if s.cfgSt ≠ cfgStaged || !s.holdsFull || 2 ≤ slot then s.cfgError 0x13
    else if s.cfg.running && s.cfg.fromSlot && s.getF Reg.CFG_STATUS_SLOT = slot then s.cfgError 0x14
    else
      let c := if slot = 0 then { s.cfg with slot0 := [], programSlot := 0 } else { s.cfg with slot1 := [], programSlot := 1 }
      ({ s with cfg := c }).setCfgSt cfgProgramming

/-- Programming and read-back of the slot end; the verified image stays held (R28). -/
def execProgramSlotComplete (s : State) : Res :=
  .next <|
    if s.cfgSt = cfgProgramming then
      let c := if s.cfg.programSlot = 0 then { s.cfg with slot0 := s.cfg.staging } else { s.cfg with slot1 := s.cfg.staging }
      ({ s with cfg := c }).setCfgSt cfgStaged
    else s

/-! ## REVERT and the planes -/

/-- REVERT (R35): the regions of the last layer go back at the first boundary at least 64 frames later. -/
def execCfgRevert (path now : Nat) (s : State) : Res :=
  .next <|
    if s.cfgPathRefused path then s.cfgError 0x16
    else if s.cfgBusy then s.cfgError 0x13
    else if !s.cfg.canRevert then s.cfgError 0x15
    else
      let b := s.frameFrom (now + 640000)
      let t := ({ s with cfg := { s.cfg with boundary := some b, locked := s.cfg.oldRegions.map CfgRegion.region } }).setCfgSt
        cfgReverting
      if s.twn.admitted then t.emit .commitToTwin [3, b] else t

/-- Reservations of a COMMIT are given up (R42). -/
def State.dropReservations (s : State) : State :=
  (List.range 512).foldl (fun t r => if t.isF Reg.CFG_OWN_RESERVED r then t.wr (Reg.CFG_OWN_OWNER.addr r 0) 0#32 else t) s

/-- A committed layer is given up before B: no region switches, the lock of R34 ends. -/
def State.dropLayer (s : State) : State :=
  ({ s with cfg := { s.cfg with locked := [], boundary := none, held := none } }).dropReservations

/-- The inactive planes of this module (`twin` false) or of the twin are written and read back; `good` tells whether
the read-back matches, `region` names a region that does not (R39). When both are good, B is fixed (R30). -/
def execPlaneWriteComplete (twin : Bool) (region : Nat) (good : Bool) (now : Nat) (s : State) : Res :=
  .next <|
    if s.cfgSt ≠ cfgWriting then s
    else if !good then
      let t := ({ s.dropLayer with cfg := { s.dropLayer.cfg with canRevert := false, oldWords := [] } })
      ((t.cfgError 0x11).setCfgSt cfgFailed).event 0x0105 0xFFFF [region, ofBool twin]
    else
      let c := if twin then { s.cfg with twinWritten := true } else { s.cfg with ownWritten := true }
      let t := { s with cfg := c }
      if c.ownWritten && (c.twinWritten || !s.twn.admitted) then
        let b := max c.earliest (s.frameFrom now)
        let want := s.get64 Reg.CFG_SWITCH_FRAME_LO
        if want ≠ 0 && want < b then (t.dropLayer.cfgError 0x10).setCfgSt cfgFailed
        else
          let t := ({ t with cfg := { c with boundary := some (if want = 0 then b else want) } }).setCfgSt cfgArmed
          if s.twn.admitted then t.emit .commitToTwin [2, if want = 0 then b else want] else t
      else t

/-- A standby that takes over before B abandons its layer and reports ABANDONED (R37). -/
def State.abandonLayer (s : State) : State :=
  let layer := match s.cfg.held with | some i => i.kind = 2 | none => false
  if s.cfg.boundary.isSome || s.cfgSt = cfgWriting || layer ||
      (s.cfgSt = cfgChecking && leAt s.cfg.staging 8 1 = 2) then
    let serial := match s.cfg.held with | some i => i.serial | none => leAt s.cfg.staging 0x18 4
    ((s.dropLayer.cfgError 0x12).setCfgSt cfgFailed).event 0x0104 0xFFFF [serial]
  else s

/-! ## Ownership -/

/-- The owner code of an access path (R41): 0x40 shelf host, 0x41 supervisor firmware. A twin applies journal entries as path 5 for
the host and 6 for the firmware (15 R358). -/
def pathOwner (path : Nat) : Nat := if path = 2 || path = 3 || path = 6 then 0x41 else 0x40

/-- The result of a run-time claim or release is held for its path (R43): 0 GRANTED, 1 CONFLICT, 2 NOT_CLAIMABLE,
3 NOT_OWNER. -/
def State.ownResult (s : State) (path code : Nat) : State :=
  s.wrPath path (Reg.CFG_OWN_RESULT_RESULT.addr 0 0) (BitVec.ofNat 32 code)

/-- A resource gains or loses its owner: an enabled capture ring that is not STOPPED runs while it has one (09 R210), and a general
timer without one is idle with EXPIRED at 0 (04 R96). -/
def State.unitOwned (s : State) (resource : Nat) (owned : Bool) : State :=
  if 0x180 ≤ resource && resource < 0x1C0 then
    let r := resource - 0x180
    s.setF Reg.CTX_CAP_STAT_RUNNING (ofBool (owned && s.isF Reg.CTX_CAP_CFG_EN r && !s.isF Reg.CTX_CAP_STAT_STOPPED r)) r
  else if 0x170 ≤ resource && resource < 0x180 && !owned then
    (s.setF Reg.LT_TMR_STAT_RUNNING 0 (resource - 0x170)).setF Reg.LT_TMR_STAT_EXPIRED 0 (resource - 0x170)
  else s

/-- A run-time claim of a resource (R42). -/
def State.claim (s : State) (path owner resource : Nat) : State :=
  if owner ≠ pathOwner path || !claimable resource then s.ownResult path 2
  else if s.getF Reg.CFG_OWN_OWNER resource = 0 && !s.isF Reg.CFG_OWN_RESERVED resource then
    (((s.setF Reg.CFG_OWN_OWNER owner resource).unitOwned resource true).ownResult path 0).journal (Reg.CFG_OWN_CLAIM.addr 0 0)
      (resource + 2 ^ 16 * owner)
  else (s.conflict resource (s.getF Reg.CFG_OWN_OWNER resource) owner).ownResult path 1

/-- A run-time release of a resource (R42). -/
def State.release (s : State) (path owner resource : Nat) : State :=
  if owner ≠ pathOwner path || !claimable resource then s.ownResult path 2
  else if s.getF Reg.CFG_OWN_OWNER resource = owner && !s.isF Reg.CFG_OWN_RESERVED resource then
    (((s.setF Reg.CFG_OWN_OWNER 0 resource).unitOwned resource false).ownResult path 0).journal (Reg.CFG_OWN_CLAIM.addr 0 0)
      (2 ^ 24 + resource + 2 ^ 16 * owner)
  else s.ownResult path 3

/-- OWN_CLAIM (R42). -/
def execOwnClaim (path owner resource : Nat) (s : State) : Res := .next (s.claim path owner resource)

/-- OWN_RELEASE (R42). -/
def execOwnRelease (path owner resource : Nat) (s : State) : Res := .next (s.release path owner resource)

end Sys2Proof.Machine
end

