-- ==== Sys2Proof/Machine/Rs.lean ====
section
/-!
DEFINITION. The Reed-Solomon code of the memory stack (09 R214): GF(2^8), the four check bytes beside a 64-byte block, and how a read
decodes a codeword with wrong symbols.
-/

namespace Sys2Proof.Machine

/-- The wrong symbols of a codeword: the place, 0 to 63 in the block and 64 to 67 in its check bytes, and the difference to the right
symbol. -/
abbrev Flaw : Type := List (Nat × Nat)

/-- A field element times α = 0x02 under x^8 + x^4 + x^3 + x^2 + 1. -/
def gfDouble (a : Nat) : Nat := if a < 128 then 2 * a else (2 * a) ^^^ 0x11D

/-- The product of two field elements, bit by bit of the second. -/
def gfTimes : Nat → Nat → Nat → Nat
  | 0, _, _ => 0
  | n + 1, a, b => (if b % 2 = 1 then a else 0) ^^^ gfTimes n (gfDouble a) (b / 2)

def gfMul (a b : Nat) : Nat := gfTimes 8 a b

/-- α^n. -/
def gfAlpha : Nat → Nat
  | 0 => 1
  | n + 1 => gfDouble (gfAlpha n)

/-- One more factor x - α^j on a polynomial, highest power first. -/
def gfFactor (g : List Nat) (j : Nat) : List Nat :=
  List.zipWith (· ^^^ ·) (g ++ [0]) (0 :: g.map (gfMul (gfAlpha j)))

/-- The generator (x - α^0)(x - α^1)(x - α^2)(x - α^3) without its leading 1, highest power first. -/
def rsGenerator : List Nat := ([0, 1, 2, 3].foldl gfFactor [1]).drop 1

/-- One data symbol enters the remainder of the division by the generator. -/
def rsShift (r : List Nat) (x : Nat) : List Nat :=
  let q := r.headD 0 ^^^ x
  List.zipWith (fun a g => a ^^^ gfMul q g) (r.drop 1 ++ [0]) rsGenerator

/-- The check bytes of a block: byte i of it is data symbol i. -/
def rsCheck (bs : List Byte) : List Nat := bs.foldl (fun r b => rsShift r b.toNat) [0, 0, 0, 0]

/-- What a codeword reads at α^j; zero for every j when nothing in it is wrong. -/
def rsSyndrome (word : List Nat) (j : Nat) : Nat := word.foldl (fun s x => gfMul s (gfAlpha j) ^^^ x) 0

/-- The same of the differences alone: what the wrong symbols of a codeword leave. -/
def flawSyndrome (f : Flaw) (j : Nat) : Nat :=
  f.foldl (fun s e => s ^^^ gfMul (e.2 % 256) (gfAlpha (j * (67 - e.1)))) 0

/-- The places that a flaw really makes wrong. -/
def wrongPlaces (f : Flaw) : List Nat := ((f.filter fun e => e.1 < 68 && e.2 % 256 ≠ 0).map Prod.fst).dedup

/-- What a read makes of a codeword (R214, R215). -/
inductive RsResult where
  | clean
  | corrected
  | found
  /-- Four or more wrong symbols: outside the code's guarantee. -/
  | beyond
  deriving DecidableEq, Repr

/-- The decoder: nothing left, one symbol that explains every syndrome, or two or three wrong ones. -/
def rsDecode (f : Flaw) : RsResult :=
  let s := [0, 1, 2, 3].map (flawSyndrome (f.filter fun e => e.1 < 68))
  if 4 ≤ (wrongPlaces f).length then .beyond
  else if s = [0, 0, 0, 0] then .clean
  else if (List.range 68).any fun p => s = [0, 1, 2, 3].map fun j => gfMul (s.headD 0) (gfAlpha (j * (67 - p))) then .corrected
  else .found

end Sys2Proof.Machine
end

