-- ==== Sys2Proof/Machine/Ctx.lean ====
section
/-!
DEFINITION. The memory stack's checks, the context engine, the capture rings and the scrubber (09). Module times in ns;
the stack's times in units of 10 ns.
-/

namespace Sys2Proof.Machine

/-! ## Descriptors (R202, R203) -/

abbrev kindFree : Nat := 0
abbrev kindStream : Nat := 1
abbrev kindJob : Nat := 2
abbrev kindAccount : Nat := 3

/-- Base of the descriptor table, and the size of a data area. -/
abbrev descBase : Nat := 0x1000000000
abbrev areaSize : Nat := 0x400000
abbrev contexts : Nat := 16384

/-- The 128 bytes of a descriptor. -/
def Desc.bytes (d : Desc) : List Byte :=
  leBytes 1 d.kind ++ leBytes 1 (ofBool d.pinned + 2 * ofBool d.poisoned + 4 * ofBool d.wiping) ++ leBytes 2 d.parent ++
  leBytes 4 d.gen ++ leBytes 8 d.key ++ leBytes 8 d.count0 ++ leBytes 8 d.count1 ++ leBytes 8 d.count2 ++
  leBytes 8 d.lastTime ++ leBytes 8 d.created ++ leBytes 4 d.poisonCnt ++ leBytes 2 d.children ++ leBytes 2 0 ++
  (if d.kind = kindStream then leBytes 4 d.lastSeq ++ leBytes 4 d.seqGaps ++ leBytes 56 0
   else if d.kind = kindJob then leBytes 2 d.members ++ leBytes 1 d.lane ++ leBytes 1 d.part ++ leBytes 60 0
   else if d.kind = kindAccount then leBytes 8 d.eModel ++ leBytes 8 d.eMeas ++ leBytes 48 0
   else leBytes 64 0)

/-- Descriptor `c`. -/
def State.desc (s : State) (c : Nat) : Desc := Sparse.at {} s.ctx.desc c

/-- Descriptor `c` takes a value, in the master copy and in the stack copy. -/
def State.setDesc (s : State) (c : Nat) (d : Desc) : State :=
  let a := { s with ctx := { s.ctx with desc := Sparse.upd {} s.ctx.desc c d } }
  a.memWrite (descBase + 128 * c) d.bytes

/-- CTX_COUNT_A and CTX_COUNT_B follow the descriptors. -/
def State.showCounts (s : State) : State :=
  let n := fun (p : Desc → Bool) => (s.ctx.desc.filter fun e => p e.2).length
  let a := s.setSat Reg.CTX_COUNT_A_JOB (n fun d => d.kind = kindJob)
  let a := a.setSat Reg.CTX_COUNT_A_STREAM (n fun d => d.kind = kindStream)
  let a := a.setSat Reg.CTX_COUNT_B_ACCOUNT (n fun d => d.kind = kindAccount)
  a.setSat Reg.CTX_COUNT_B_PINNED (n fun d => d.pinned)

/-- The context of a kind and key. -/
def State.ctxFind (s : State) (kind key : Nat) : Option Nat :=
  (List.find? (fun e => e.2.kind = kind && e.2.key = key) s.ctx.desc).map Prod.fst

/-- The context whose wipe the allocation of a kind and key waits for. -/
def State.ctxWaits (s : State) (kind key : Nat) : Option Nat :=
  (List.find? (fun e => e.2 = (kind, key)) s.ctx.waitFor).map Prod.fst

/-- The context of a kind and key, there or waiting on its wipe. -/
def State.ctxOf (s : State) (kind key : Nat) : Option Nat := (s.ctxFind kind key).or (s.ctxWaits kind key)

/-- Whether a context waits on its wipe for a key. -/
def State.waits? (s : State) (c : Nat) : Bool := (Sparse.find s.ctx.waitFor c).isSome

/-- The lowest context from `c` that is FREE and promised to no key, among `fuel` contexts; one that is being wiped is FREE (R203). -/
def State.ctxFree (s : State) : Nat → Nat → Option Nat
  | 0, _ => none
  | n + 1, c => if (s.desc c).kind = kindFree && !s.waits? c then some c else s.ctxFree n (c + 1)

/-- Whether a context may be evicted at module time `now` (R207). -/
def State.evictable (s : State) (now : Nat) (d : Desc) : Bool :=
  (d.kind = kindStream || d.kind = kindJob) && !d.pinned && !d.wiping &&
    d.lastTime + s.getF Reg.CTX_EVICT_CFG_IDLE_MIN * 100000000 < now / 10 &&
    (d.kind = kindStream || (d.children = 0 && d.lane = 0xFF))

/-- The context that eviction takes: oldest LAST_TIME, then lowest number; none for which a message is arriving (R207). -/
def State.evictee (s : State) (now : Nat) (arriving : List Nat) : Option Nat :=
  ((s.ctx.desc.filter fun e => s.evictable now e.2 && e.1 ∉ arriving).foldl (fun (b : Option (Nat × Nat)) e =>
    match b with
    | some (c, t) => if e.2.lastTime < t then some (e.1, e.2.lastTime) else some (c, t)
    | none => some (e.1, e.2.lastTime)) none).map Prod.fst

/-- A context stops naming its parent; the parent's counts follow. -/
def State.dropParent (s : State) (c : Nat) : State :=
  let d := s.desc c
  if d.parent = 0xFFFF then s
  else
    let p := s.desc d.parent
    let a := s.setDesc d.parent { p with children := p.children - 1,
                                         members := if d.kind = kindStream then p.members - 1 else p.members }
    a.setDesc c { d with parent := 0xFFFF }

/-- Context `c` names context `p` as its parent. -/
def State.setParent (s : State) (c p : Nat) : State :=
  if (s.desc c).parent = p then s
  else
    let a := s.dropParent c
    let d := a.desc p
    let a := a.setDesc p { d with children := min 0xFFFF (d.children + 1),
                                  members := if (a.desc c).kind = kindStream then min 0xFFFF (d.members + 1) else d.members }
    a.setDesc c { a.desc c with parent := p }

/-- Context `c` names context `p` as its parent, or none, as soon as both are there (R203). -/
def State.nameParent (s : State) (c : Nat) (p : Option Nat) : State :=
  let a := { s with ctx := { s.ctx with want := Sparse.erase s.ctx.want c } }
  match p with
  | none => if a.waits? c then a else a.dropParent c
  | some p =>
    if a.waits? c || a.waits? p then { a with ctx := { a.ctx with want := Sparse.insert a.ctx.want c p } } else a.setParent c p

/-- What messages change in a descriptor, now or when its context has been wiped (R208). -/
def State.tellDesc (s : State) (c : Nat) (f : Desc → Desc) : State :=
  if s.waits? c then { s with ctx := { s.ctx with pend := Sparse.upd {} s.ctx.pend c (f (Sparse.at {} s.ctx.pend c)) } }
  else s.setDesc c (f (s.desc c))

/-- Context `c` is given up (R208): the contexts that name it lose it, its identity and area go, its wipe begins. -/
def State.giveUp (s : State) (c : Nat) : State :=
  let a := s.dropParent c
  let a := a.ctx.desc.foldl (fun a e => if e.2.parent = c then a.setDesc e.1 { a.desc e.1 with parent := 0xFFFF } else a) a
  let a := a.setDesc c { gen := (a.desc c).gen, wiping := true }
  let a := { a with ctx := { a.ctx with want := a.ctx.want.filter fun e => e.1 ≠ c && e.2 ≠ c } }
  (a.memWipe (c * areaSize) areaSize).showCounts

/-- LANE and PART of the descriptor of a job (R203): the lowest forecast lane whose active record names the job, and the partition that
published it; 0xFF for none. -/
def State.jobLane (s : State) (job : Nat) : Nat × Nat :=
  let rec_ := fun (l : Nat) => (Sparse.at {} s.wb.lane l).active
  match (List.range 64).find? fun l => job ≠ 0 && (rec_ l).any fun r => r.job = job with
  | some l => (l, match rec_ l with | some r => r.part | none => 0xFF)
  | none => (0xFF, 0xFF)

/-- The descriptor of a job, where it has a context, shows its lane (R203). -/
def State.showJobLane (s : State) (job : Nat) : State :=
  match s.ctxFind kindJob job with
  | some c =>
    let p := s.jobLane job
    let d := s.desc c
    if d.lane = p.1 && d.part = p.2 then s else s.setDesc c { d with lane := p.1, part := p.2 }
  | none => s

/-- The poisoned blocks of a data area. -/
def State.areaPoison (s : State) (c : Nat) : Nat :=
  (s.poison.filter fun e => e.2 && e.1 * 64 / areaSize = c).length

/-- Context `c` is allocated to a kind and key at `now` (R202, R203); blocks of its area found bad while it was FREE count. -/
def State.allot (s : State) (c kind key now : Nat) : State :=
  let bad := s.areaPoison c
  let p := if kind = kindJob then s.jobLane key else (0xFF, 0xFF)
  let a := s.setDesc c { kind := kind, key := key, gen := ((s.desc c).gen + 1) % 2 ^ 32, lastTime := now / 10, created := now / 10,
                         lane := p.1, part := p.2, poisonCnt := bad, poisoned := bad ≠ 0 }
  (a.showCounts).setF Reg.CTX_STATUS_ALLOC_FULL 0

/-- A key waits for the wipe of context `c`. -/
def State.waitWipe (s : State) (c kind key : Nat) : State :=
  { s with ctx := { s.ctx with waitFor := Sparse.insert s.ctx.waitFor c (kind, key) } }

/-- A context for a kind and key: the present one, a new one, or one that waits on a wipe (R202, R207, R208). The
answer is the context and the result code: 0 DONE, 1 EXISTS, 3 FULL. `arriving` are the contexts a message arrives for. -/
def State.ctxGet (s : State) (kind key now : Nat) (arriving : List Nat := []) : State × Nat × Nat :=
  match s.ctxOf kind key with
  | some c => (s, c, 1)
  | none =>
    match s.ctxFree contexts 0 with
    | some c => (if (s.desc c).wiping then s.waitWipe c kind key else s.allot c kind key now, c, 0)
    | none =>
      match s.evictee now arriving with
      | some c => ((s.giveUp c).waitWipe c kind key, c, 0)
      | none =>
        let a := (s.bump Reg.CTX_ALLOC_FAIL).setF Reg.CTX_STATUS_ALLOC_FULL 1
        (a.cause 6 2, 0, 3)

/-- Base and capacity in records of a ring of a data area (R204). -/
def ringOf (kind ring : Nat) : Nat × Nat :=
  if kind = kindStream then
    if ring = 0 then (0, 16384) else if ring = 1 then (0x100000, 32768) else (0x300000, 16384)
  else if kind = kindJob then (0x300000, 16384)
  else (0, 65536)

/-- A block of the stack is written whole: its poison ends, and with the last one of a context POISONED (R217). -/
def State.blockWritten (s : State) (blk : Nat) : State :=
  if Sparse.at false s.poison blk then
    let a := { s with poison := Sparse.upd false s.poison blk false }
    let c := blk * 64 / areaSize
    if c < contexts && (a.desc c).poisoned then
      let d := a.desc c
      a.setDesc c { d with poisonCnt := d.poisonCnt - 1, poisoned := d.poisonCnt - 1 ≠ 0 }
    else a
  else s

/-- Bytes are written to the stack; the blocks written whole lose their poison. -/
def State.stackWrite (s : State) (addr : Nat) (bs : List Byte) : State :=
  let first := (addr + 63) / 64
  let last := (addr + bs.length) / 64
  (s.poison.filter fun e => e.2 && first ≤ e.1 && e.1 < last).foldl (fun a e => a.blockWritten e.1) (s.memWrite addr bs)

/-- A record enters a ring of context `c`: the block, then the count (R206). Bytes 8 to 11 are its INDEX. A HINT record counts for the
next boundary message (07 R176). -/
def State.ctxRecord (s : State) (c ring now : Nat) (bs : List Byte) : State :=
  let d := s.desc c
  let n := if ring = 0 then d.count0 else if ring = 1 then d.count1 else d.count2
  let r := ringOf d.kind ring
  let blk := slice bs 0 8 ++ leBytes 4 n ++ slice bs 12 52
  let a := s.stackWrite (c * areaSize + r.1 + n % r.2 * 64) blk
  let d := { a.desc c with lastTime := now / 10 }
  let a := if ring = 0 && d.kind ≠ kindAccount then { a with th := { a.th with hints := a.th.hints + 1 } } else a
  a.setDesc c (if ring = 0 then { d with count0 := n + 1 } else if ring = 1 then { d with count1 := n + 1 }
    else { d with count2 := n + 1 })

/-- A record for context `c`, held while its allocation waits on a wipe (R208): at most 64, further ones are dropped. -/
def State.ctxRecordOrHold (s : State) (c ring now : Nat) (bs : List Byte) : State :=
  if (Sparse.find s.ctx.waitFor c).isSome then
    let h := Sparse.at [] s.ctx.held c
    if h.length < 64 then { s with ctx := { s.ctx with held := Sparse.upd [] s.ctx.held c (h ++ [⟨ring, now, bs⟩]) } }
    else s.bump Reg.CTX_HELD_DROP
  else s.ctxRecord c ring now bs

/-! ## Commands of CTX_CMD -/

/-- The result of a context command is held for its path: 0 DONE, 1 EXISTS, 2 NOT_FOUND, 3 FULL, 4 PIN_LIMIT,
5 BAD_KIND, 6 BUSY. -/
def State.ctxResult (s : State) (path index code : Nat) : State :=
  s.wrPath path (Reg.CTX_RESULT.addr 0 0) (BitVec.ofNat 32 (index % 16384 * 2 ^ 16 + code))

/-- Whether the stack is ready (R220). -/
def State.stackReady (s : State) : Bool := s.isF Reg.CTX_STATUS_READY

/-- CTX_KEY as it stands. -/
def State.ctxKey (s : State) : Nat := s.get64 Reg.CTX_KEY_LO

/-- CTX_ALLOC (R202, R207). -/
def execCtxAlloc (path kind now : Nat) (s : State) : Res :=
  .next <|
    if !s.stackReady then s.ctxResult path 0 6
    else if kind % 4 = 0 then s.ctxResult path 0 5
    else let r := s.ctxGet (kind % 4) s.ctxKey now
         r.1.ctxResult path r.2.1 r.2.2

/-- CTX_FREE (R208). -/
def execCtxFree (path c : Nat) (s : State) : Res :=
  .next <|
    let c := c % contexts
    if !s.stackReady || (s.desc c).wiping then s.ctxResult path c 6
    else if (s.desc c).kind = kindFree then s.ctxResult path c 5
    else (s.giveUp c).ctxResult path c 0

/-- CTX_PIN (R209). -/
def execCtxPin (path c : Nat) (s : State) : Res :=
  .next <|
    let c := c % contexts
    let d := s.desc c
    if !s.stackReady || d.wiping then s.ctxResult path c 6
    else if d.kind = kindFree then s.ctxResult path c 2
    else if d.pinned then s.ctxResult path c 0
    else if s.getF Reg.CTX_EVICT_CFG_PIN_MAX ≤ (s.ctx.desc.filter fun e => e.2.pinned).length then s.ctxResult path c 4
    else ((s.setDesc c { d with pinned := true }).showCounts).ctxResult path c 0

/-- CTX_UNPIN (R209). -/
def execCtxUnpin (path c : Nat) (s : State) : Res :=
  .next <|
    let c := c % contexts
    let d := s.desc c
    if !s.stackReady || d.wiping then s.ctxResult path c 6
    else if d.kind = kindFree then s.ctxResult path c 2
    else ((s.setDesc c { d with pinned := false }).showCounts).ctxResult path c 0

/-- CTX_REBUILD (R217): wipes the data area, keeps kind, key and GEN, counts to zero, poison cleared. -/
def execCtxRebuild (path c : Nat) (s : State) : Res :=
  .next <|
    let c := c % contexts
    let d := s.desc c
    if !s.stackReady || d.wiping then s.ctxResult path c 6
    else if d.kind = kindFree then s.ctxResult path c 2
    else
      let a := s.setDesc c { d with count0 := 0, count1 := 0, count2 := 0, poisonCnt := 0, poisoned := false, wiping := true }
      (a.memWipe (c * areaSize) areaSize).ctxResult path c 0

/-- CTX_LOOKUP (R202). -/
def execCtxLookup (path kind : Nat) (s : State) : Res :=
  .next <|
    if !s.stackReady then s.ctxResult path 0 6
    else match s.ctxFind (kind % 4) s.ctxKey with
      | some c => if kind % 4 = 0 then s.ctxResult path 0 2 else s.ctxResult path c 0
      | none => s.ctxResult path 0 2

/-- Contexts that wait to name a parent name it where both are there. -/
def State.parentsNamed (s : State) : State := s.ctx.want.foldl (fun (a : State) e => a.nameParent e.1 (some e.2)) s

/-- What was told of a context while it waited (R203). -/
def Desc.told (d p : Desc) : Desc :=
  { d with lastSeq := p.lastSeq, seqGaps := p.seqGaps, eModel := p.eModel, eMeas := p.eMeas }

/-- CONTEXT_WIPE_COMPLETE of context `c` at `now` (R208): WIPING ends; the key that waits gets the context, its held
records are written in order, and its descriptor takes what messages told of it. -/
def execContextWipeComplete (c now : Nat) (s : State) : Res :=
  .next <|
    let d := s.desc c
    if !d.wiping then s
    else
      let a := s.setDesc c { d with wiping := false }
      match Sparse.find a.ctx.waitFor c with
      | none => a
      | some (kind, key) =>
        let h := Sparse.at [] a.ctx.held c
        let p := Sparse.at {} a.ctx.pend c
        let a := { a with ctx := { a.ctx with
          waitFor := Sparse.erase a.ctx.waitFor c, held := Sparse.erase a.ctx.held c, pend := Sparse.erase a.ctx.pend c } }
        let a := h.foldl (fun a r => a.ctxRecord c r.ring r.now r.bytes) (a.allot c kind key now)
        (a.setDesc c ((a.desc c).told p)).parentsNamed

/-! ## Checking and poison (R214 to R218) -/

/-- The range of a stack address: 0 data areas, 1 descriptor table, 2 log staging, 3 working space, 4 code areas,
5 host staging, 6 model slots, 7 capture area, 8 general area (R198). -/
def stackRange (a : Nat) : Nat :=
  if a < 0x1000000000 then 0 else if a < 0x1000200000 then 1 else if a < 0x1001200000 then 2
  else if a < 0x1040000000 then 3 else if a < 0x1080000000 then 4 else if a < 0x1200000000 then 5
  else if a < 0x1400000000 then 6 else if a < 0x1800000000 then 7 else 8

/-- Bytes of the stack. -/
abbrev stackSize : Nat := 0x2000000000

/-- Two or three bad symbols in block `blk` (R215): it is poisoned and its owner notified (R216). -/
def State.poisonBlock (s : State) (blk : Nat) : State :=
  let addr := blk * 64
  let rng := stackRange addr
  let a := (s.bump Reg.CTX_ECC_UE).set64 Reg.CTX_POISON_ADDR_LO addr
  let a := (a.event 0x0701 0xFFFF [addr, rng]).cause 6 1
  if rng = 1 then
    let c := (addr - descBase) / 128
    a.setDesc c (a.desc c)
  else
    let a := { a with poison := Sparse.upd false a.poison blk true }
    let c := addr / areaSize
    if rng = 0 && (a.desc c).kind ≠ kindFree then
      let d := a.desc c
      a.setDesc c { d with poisoned := true, poisonCnt := min 0xFFFFFFFF (d.poisonCnt + 1) }
    else a

/-- The check bytes that stand beside block `blk` (R214). -/
def State.checkBytes (s : State) (blk : Nat) : List Nat := rsCheck (s.memBytes (blk * 64) 64)

/-- A read of block `blk` whose codeword, the block and its check bytes, has the wrong symbols `flaw` (R214, R215), and whether it finds
the block bad. Four wrong symbols and more lie outside the code's guarantee: the read may go unnoticed or find the block bad. -/
def State.readCheck (s : State) (blk : Nat) (flaw : Flaw) : State × Bool :=
  if Sparse.at false s.poison blk then (s, true)
  else match rsDecode flaw with
    | .clean => (s, false)
    | .corrected => (s.bump Reg.CTX_ECC_CE, false)
    | .found => (s.poisonBlock blk, true)
    | .beyond => if s.freeVal 3 % 2 = 1 then (s.useFree.poisonBlock blk, true) else (s.useFree, false)

/-- SCRUB_STEP: the scrubber reads the next block, with its wrong symbols (R218). -/
def execScrubStep (flaw : Flaw) (s : State) : Res :=
  .next <|
    if !s.stackReady || !s.isF Reg.CTX_SCRUB_CFG_EN then s
    else
      let a := (s.readCheck s.ctx.scrub flaw).1
      { a with ctx := { a.ctx with scrub := (s.ctx.scrub + 1) % (stackSize / 64) } }

/-- Every context FREE with GEN zero, every ring disabled, the stack all zero (R220). -/
def State.stackCleared (s : State) : State :=
  let a := { s with mem := [], poison := [], ctx := {} }
  let a := (List.range 64).foldl (fun a r => (a.setF Reg.CTX_CAP_CFG_EN 0 r).setF Reg.CTX_CAP_STAT_RUNNING 0 r) a
  a.showCounts

/-- STACK_WIPE_COMPLETE after `tenths` of a millisecond (R220). -/
def execStackWipeComplete (tenths : Nat) (s : State) : Res :=
  .next <|
    if !s.isF Reg.CTX_STATUS_WIPING then s
    else
      let a := ((s.stackCleared.setF Reg.CTX_STATUS_READY 1).setF Reg.CTX_STATUS_WIPING 0).setSat Reg.CTX_STATUS_WIPE_TIME tenths
      a.cause 6 4

/-! ## Capture rings (R210 to R213) -/

/-- Base of the capture area. -/
abbrev captureBase : Nat := 0x1400000000

/-- Whether a capture source exists (R211). -/
def capSrcOk (src : Nat) : Bool := src < 0x146

/-- BASE and SIZE of ring `r` as its registers hold them. -/
def State.capRange (s : State) (r : Nat) : Nat × Nat :=
  (bitsOf (s.getF Reg.CTX_CAP_BASE r) 0 18, bitsOf (s.getF Reg.CTX_CAP_SIZE r) 0 18)

/-- BASE and SIZE of an enabled ring: those it was enabled with (R210; DESIGN CHOICE, log 98: a write of them to a ring that is enabled
acts when it is next enabled). -/
def State.capSpan (s : State) (r : Nat) : Nat × Nat := (Sparse.find s.ctx.span r).getD (0, 0)

/-- Whether ring `r`'s range lies in the capture area and clear of the other enabled rings: 0 it does, 1 OVERLAP,
2 RANGE (R210). -/
def State.capCheck (s : State) (r : Nat) : Nat :=
  let b := s.capRange r
  if b.2 = 0 || 262144 < b.1 + b.2 then 2
  else if (List.range 64).any fun q => q ≠ r && s.isF Reg.CTX_CAP_CFG_EN q &&
      b.1 < (s.capSpan q).1 + (s.capSpan q).2 && (s.capSpan q).1 < b.1 + b.2 then 1
  else 0

/-- Ring `r` is to be enabled with the settings its registers hold. -/
def State.capEnable (s : State) (r : Nat) : State :=
  match s.capCheck r with
  | 0 =>
    if capSrcOk (s.getF Reg.CTX_CAP_CFG_SRC r) then
      let a := (s.setF Reg.CTX_CAP_STAT_RUNNING 1 r).setF Reg.CTX_CAP_STAT_DROPPED 0 r
      { a with ctx := { a.ctx with
        cap := Sparse.erase a.ctx.cap r, post := Sparse.erase a.ctx.post r, span := Sparse.insert a.ctx.span r (s.capRange r),
        trig := putBit a.ctx.trig r false } }
    else s.setF Reg.CTX_CAP_CFG_EN 0 r
  | 1 => (s.setF Reg.CTX_CAP_CFG_EN 0 r).setF Reg.CTX_CAP_STAT_OVERLAP 1 r
  | _ => (s.setF Reg.CTX_CAP_CFG_EN 0 r).setF Reg.CTX_CAP_STAT_RANGE 1 r

/-- Ring `r` stops: what it had not written is gone, and a rise of TRIG_SIG in the same cycle is ignored (R213). -/
def State.capDisable (s : State) (r : Nat) : State :=
  let a := (s.setF Reg.CTX_CAP_CFG_EN 0 r).setF Reg.CTX_CAP_STAT_RUNNING 0 r
  { a with ctx := { a.ctx with trig := putBit a.ctx.trig r false, cap := Sparse.erase a.ctx.cap r, span := Sparse.erase a.ctx.span r } }

/-- CTX_CAP_CFG of ring `r` takes a word from its owner: enabled, changed, or disabled; a reserved source leaves it disabled (R211). -/
def State.capConfig (s : State) (r value : Nat) : State :=
  let was := s.isF Reg.CTX_CAP_CFG_EN r
  let a := s.wr (Reg.CTX_CAP_CFG.addr r 0) (BitVec.ofNat 32 (value &&& 0xFE0001FF))
  if !a.isF Reg.CTX_CAP_CFG_EN r then a.capDisable r
  else if !was then a.capEnable r
  else if capSrcOk (a.getF Reg.CTX_CAP_CFG_SRC r) then a else a.capDisable r

/-- CAPTURE_ENABLE: a write of `value` to CTX_CAP_CFG of ring `r` on a path; a party that does not own the ring changes
nothing and sets CONFLICT. -/
def execCaptureEnable (path r value : Nat) (s : State) : Res :=
  .next <|
    if 64 ≤ r then s
    else if s.getF Reg.CFG_OWN_OWNER (0x180 + r) ≠ pathOwner path then s.setF Reg.CTX_CAP_STAT_CONFLICT 1 r
    else s.capConfig r value

/-! Sources through boundary ports (04 R71, R97) -/

/-- Whether an OUT port of segment `k` may carry a source: a tile of region FABRICk, a port of its segment, or one that belongs to no
region, an AD channel or none (R97). Windbreak's words are another region's. -/
def srcOfRegion (k sid : Nat) : Bool :=
  if sid < 0x30 then sid / 12 = k
  else if 0x40 ≤ sid && sid < 0xA0 then (sid - 0x40) / 24 = k
  else (0xA0 ≤ sid && sid < 0xA8) || (0x100 ≤ sid && sid < 0x140) || sid = 0x1FF

/-- Hops that no chain of ports without a loop exceeds: the four segments have 256 ports. A loop of ports leads nowhere (R97). -/
abbrev portHops : Nat := 257

/-- Whether port `p` of segment `k` is part of a running boundary, with a direction and a format. -/
def State.portOk (s : State) (k p dir format : Nat) : Bool :=
  s.isE Reg.LT_SEG_CFG_EN k && p < s.effF Reg.LT_SEG_CFG_PORTS k && s.isE Reg.LT_PORT_EN k p &&
    s.effF Reg.LT_PORT_DIR k p = dir && s.effF Reg.LT_PORT_FORMAT k p = format

/-- The source that an ID names as seen from segment `k`, ports followed (R71, R97); none where a port leads nowhere. The fuel
bounds chains of ports. -/
def State.resolve (s : State) : Nat → Nat → Nat → Option Nat
  | 0, _, _ => none
  | n + 1, k, sid =>
    if 0x100 ≤ sid && sid < 0x140 then
      let p := sid - 0x100
      if s.portOk k p 0 0 then
        let src := s.effF Reg.LT_PORT_SRC k p
        if srcOfRegion k src then s.resolve n k src else none
      else if s.portOk k p 1 0 then
        let k2 := s.effF Reg.LT_PORT_FROM_SEG k p
        let p2 := s.effF Reg.LT_PORT_FROM_PORT k p
        if k2 ≠ k && s.portOk k2 p2 0 0 then
          let src := s.effF Reg.LT_PORT_SRC k2 p2
          if srcOfRegion k2 src then s.resolve n k2 src else none
        else none
      else none
    else some sid

/-- The source that ring `r` records: its SRC, and for a boundary port (04 R71) the source behind that port of its own region's segment;
none for a port where no FABRIC region owns the ring. -/
def State.capSource (s : State) (r : Nat) : Option Nat :=
  let src := s.getF Reg.CTX_CAP_CFG_SRC r
  if 0x100 ≤ src && src < 0x140 then
    let o := s.getF Reg.CFG_OWN_OWNER (0x180 + r)
    if 4 ≤ o && o ≤ 7 then s.resolve portHops (o - 4) src else none
  else some src

/-- A source has an event at module time `now`: the rings that record it take the word. `cut` tells that the source
skipped or flags INVALID. -/
def State.capture (s : State) (src now word : Nat) (cut : Bool := false) : State :=
  (List.range 64).foldl (fun a r =>
    if a.isF Reg.CTX_CAP_STAT_RUNNING r && a.capSource r = some src then
      { a with ctx := { a.ctx with
        cap := Sparse.upd [] a.ctx.cap r (Sparse.at [] a.ctx.cap r ++ [⟨now / 10, word % 2 ^ 32, cut⟩]) } }
    else a) s

/-- A source skips an event: the blocks open for it close (R212). -/
def State.captureSkip (s : State) (src : Nat) : State :=
  (List.range 64).foldl (fun a r =>
    if a.isF Reg.CTX_CAP_STAT_RUNNING r && a.capSource r = some src then
      match (Sparse.at [] a.ctx.cap r).getLast? with
      | some x => { a with ctx := { a.ctx with cap := Sparse.upd [] a.ctx.cap r ((Sparse.at [] a.ctx.cap r).dropLast ++ [{ x with cut := true }]) } }
      | none => a
    else a) s

/-- A sample as a capture word: flags in bits 31:28 (INVALID, STALE, NOTCH, SAT downwards), value in bits 23:0. -/
def captureWord (v : Int) (flags : Nat) : Nat :=
  unsign 24 v + 2 ^ 28 * (8 * ofBool (bitOf flags 0) + 4 * ofBool (bitOf flags 1) + 2 * ofBool (bitOf flags 2) +
    ofBool (bitOf flags 3))

/-- The samples of the block that closes next: up to 14, none after a sample that ends its block. -/
def capBlock : Nat → List CapSample → List CapSample
  | 0, _ => []
  | _, [] => []
  | n + 1, x :: xs => if x.cut then [x] else x :: capBlock n xs

/-- Whether the samples of a block close it: all 14, or an end of it (R212). -/
def capCloses (blk : List CapSample) : Bool := blk.length = 14 || (blk.getLast?.any fun x => x.cut)

/-- Waiting samples less the newest, which an overflow of the queue lost; the block open then closes early (R212). -/
def capLose (q : List CapSample) (lost : Nat) : List CapSample :=
  if lost = 0 then q
  else
    let k := q.take (q.length - lost)
    match k.getLast? with
    | some x => k.dropLast ++ [{ x with cut := true }]
    | none => []

/-- The blocks that waiting samples close: how many, and the length of the open one. -/
def capClosed (q : List CapSample) : Nat × Nat :=
  q.foldl (fun n x => if x.cut || n.2 = 13 then (n.1 + 1, 0) else (n.1, n.2 + 1)) (0, 0)

/-- CAPTURE_BLOCK_WRITE of ring `r`: an overflow has lost the newest `lost` of its waiting samples, which are counted; the first block
that is closed, if there is one, is written (R212). -/
def execCaptureBlockWrite (r lost : Nat) (s : State) : Res :=
  .next <|
    let q := capLose (Sparse.at [] s.ctx.cap r) lost
    let gone := min lost (Sparse.at [] s.ctx.cap r).length
    let blk := capBlock 14 q
    if 64 ≤ r || !s.isF Reg.CTX_CAP_STAT_RUNNING r then s
    else
      let s := s.bumpBy Reg.CTX_CAP_STAT_DROPPED gone r
      let s := { s with ctx := { s.ctx with cap := Sparse.upd [] s.ctx.cap r q } }
      match blk with
      | [] => s
      | x :: _ =>
        if !capCloses blk || Sparse.find s.ctx.post r = some 0 then s else
        let head := s.get64 Reg.CTX_CAP_HEAD_LO r
        let blocks := (s.capSpan r).2 * 1024
        let bytes := leBytes 8 (x.time % 2 ^ 60 + blk.length * 2 ^ 60) ++ blk.flatMap (fun c => leBytes 4 c.word) ++
          leBytes (56 - 4 * blk.length) 0
        let a := s.stackWrite (captureBase + (s.capSpan r).1 * 65536 + head % blocks * 64) bytes
        let a := a.set64 Reg.CTX_CAP_HEAD_LO (head + 1) r
        { a with ctx := { a.ctx with
          cap := Sparse.upd [] a.ctx.cap r (q.drop blk.length),
          post := match Sparse.find a.ctx.post r with
            | some n => Sparse.insert a.ctx.post r (n - 1)
            | none => a.ctx.post } }

/-- Whether ring `r` waits for a rise of its TRIG_SIG (R213). -/
def State.capWaits (s : State) (r : Nat) : Bool :=
  s.isF Reg.CTX_CAP_STAT_RUNNING r && s.isF Reg.CTX_CAP_CFG_MODE r && (Sparse.find s.ctx.post r).isNone

/-- A rising edge of logic-tile signal `l` sets out for the rings that wait for it (04 R94). -/
def State.captureRise (s : State) (l : Nat) : State :=
  (List.range 64).foldl (fun (a : State) r =>
    if a.getF Reg.CTX_CAP_CFG_TRIG_SIG r = l && a.capWaits r then { a with ctx := { a.ctx with trig := putBit a.ctx.trig r true } } else a) s

/-- CAPTURE_TRIGGER of ring `r`: a rise of its TRIG_SIG arrives (R213). TRIG_BLOCK is the index of the block open now, behind those closed
and not yet written; POST blocks follow it (DEDUCED, log 98). -/
def execCaptureTrigger (r : Nat) (s : State) : Res :=
  .next <|
    if bitOf s.ctx.trig r && s.capWaits r then
      let s : State := { s with ctx := { s.ctx with trig := putBit s.ctx.trig r false } }
      let n := (capClosed (Sparse.at [] s.ctx.cap r)).1
      let a := (s.setF Reg.CTX_CAP_STAT_TRIGGERED 1 r).setF Reg.CTX_CAP_TRIG_BLOCK (s.get64 Reg.CTX_CAP_HEAD_LO r + n) r
      { a with ctx := { a.ctx with post := Sparse.insert a.ctx.post r (n + 1 + s.getF Reg.CTX_CAP_POST r) } }
    else s

/-- CAPTURE_POST_DONE of ring `r`: its POST blocks are recorded, it stops (R213). -/
def execCapturePostDone (r : Nat) (s : State) : Res :=
  .next <|
    if Sparse.find s.ctx.post r = some 0 && s.isF Reg.CTX_CAP_STAT_RUNNING r then
      ((s.setF Reg.CTX_CAP_STAT_STOPPED 1 r).setF Reg.CTX_CAP_STAT_RUNNING 0 r).cause 6 3
    else s

/-- A ring whose STOPPED has been cleared is armed again while it is enabled (R213). -/
def State.capRearm (s : State) (r : Nat) : State :=
  let a := s.setF Reg.CTX_CAP_STAT_STOPPED 0 r
  let a := { a with ctx := { a.ctx with post := Sparse.erase a.ctx.post r, cap := Sparse.erase a.ctx.cap r } }
  if a.isF Reg.CTX_CAP_CFG_EN r then a.setF Reg.CTX_CAP_STAT_RUNNING 1 r else a

/-- The JOB context of a job shows POISONED (R132, R216). -/
def State.jobPoisoned (s : State) (job : Nat) : Bool :=
  match s.ctxFind kindJob job with
  | some c => (s.desc c).poisoned
  | none => false

end Sys2Proof.Machine
end

