-- ==== Sys2Proof/Machine/Flags.lean ====
section
/-!
DEFINITION. Floating-point values, their rounding and the flags it raises (fcsr's fflags): the scalar F and D
instructions (08: they follow the RISC-V F and D extensions), the tensor unit (R183, R185) and the conversions
(R186 to R190) are all written over these.
-/

namespace Sys2Proof.Machine

/-! ## Formats and values -/

/-- A binary format: exponent and fraction widths (R177). -/
structure Fmt where
  e : Nat
  m : Nat
  deriving DecidableEq, Repr

abbrev fmtS : Fmt := ⟨8, 23⟩
abbrev fmtD : Fmt := ⟨11, 52⟩
abbrev fmtBf16 : Fmt := ⟨8, 7⟩
abbrev fmtE5m2 : Fmt := ⟨5, 2⟩
abbrev fmtE4m3 : Fmt := ⟨4, 3⟩

/-- Exponent bias (R177). -/
def Fmt.bias (f : Fmt) : Nat := 2 ^ (f.e - 1) - 1

/-- Width in bits. -/
def Fmt.width (f : Fmt) : Nat := 1 + f.e + f.m

/-- The encoding of +∞. -/
def Fmt.infBits (f : Fmt) : Nat := (2 ^ f.e - 1) * 2 ^ f.m

/-- The sign bit. -/
def Fmt.signBit (f : Fmt) (neg : Bool) : Nat := if neg then 2 ^ (f.e + f.m) else 0

/-- The canonical NaN (R179; RISC-V). -/
def Fmt.nan (f : Fmt) : Nat := f.infBits + 2 ^ (f.m - 1)

/-- A floating-point value: a signed zero, a number other than zero, an infinity, NaN. -/
inductive FVal where
  | zero (neg : Bool)
  | num (x : Rat)
  | inf (neg : Bool)
  | nan
  deriving DecidableEq, Repr

/-- 2 to an integer power. -/
def pow2 (k : Int) : Rat := if 0 ≤ k then (2 : Rat) ^ k.toNat else 1 / (2 : Rat) ^ (-k).toNat

/-- The value of an encoding of an IEEE format (R177, R179). -/
def Fmt.val (f : Fmt) (bits : Nat) : FVal :=
  let neg := bitOf bits (f.e + f.m)
  let e := bitsOf bits f.m f.e
  let m := bitsOf bits 0 f.m
  let sg (x : Rat) : Rat := if neg then -x else x
  if e = 2 ^ f.e - 1 then if m = 0 then .inf neg else .nan
  else if e = 0 then
    if m = 0 then .zero neg else .num (sg ((m : Rat) * pow2 (1 - (f.bias : Int) - f.m)))
  else .num (sg (((2 ^ f.m + m : Nat) : Rat) * pow2 ((e : Int) - f.bias - f.m)))

/-- The value of an E4M3 byte (R178): no infinities, NaN only at 0x7F and 0xFF. -/
def valE4m3 (b : Nat) : FVal :=
  if bitsOf b 0 7 = 127 then .nan
  else if bitsOf b 0 7 = 0 then .zero (bitOf b 7)
  else
    let e := bitsOf b 3 4
    let m := bitsOf b 0 3
    let x : Rat := if e = 0 then (m : Rat) * pow2 (-9) else ((8 + m : Nat) : Rat) * pow2 ((e : Int) - 10)
    .num (if bitOf b 7 then -x else x)

/-- Whether an encoding is a signalling NaN. -/
def Fmt.snan (f : Fmt) (bits : Nat) : Bool := f.val bits = .nan && !bitOf bits (f.m - 1)

/-- The sign of a value; NaN counts as positive. -/
def FVal.neg : FVal → Bool
  | .zero n => n
  | .num x => x < 0
  | .inf n => n
  | .nan => false

/-- The value with its sign turned. -/
def FVal.negate : FVal → FVal
  | .zero n => .zero !n
  | .num x => .num (-x)
  | .inf n => .inf !n
  | .nan => .nan

/-! ## Flags -/

abbrev flagNX : Nat := 1
abbrev flagUF : Nat := 2
abbrev flagOF : Nat := 4
abbrev flagDZ : Nat := 8
abbrev flagNV : Nat := 16

/-- A flag when a condition holds. -/
def flagIf (b : Bool) (f : Nat) : Nat := if b then f else 0

/-! ## Rounding -/

/-- The floor of the binary logarithm of a positive number. -/
def ilog2 (x : Rat) : Int :=
  let n := x.num.natAbs
  let k : Int := (Nat.log2 n : Int) - Nat.log2 x.den
  if pow2 k ≤ x then k else k - 1

/-- Whether a magnitude is rounded up: mode 0 nearest even, 1 towards zero, 2 down, 3 up, 4 nearest, ties away. -/
def roundUp (rm : Nat) (neg odd : Bool) (frac : Rat) : Bool :=
  match rm with
  | 0 => 1 / 2 < frac || (frac = 1 / 2 && odd)
  | 1 => false
  | 2 => neg && frac ≠ 0
  | 3 => !neg && frac ≠ 0
  | _ => 1 / 2 ≤ frac

/-- The quantum exponent at which a positive number is rounded in a format, and without the limit of subnormals. -/
def Fmt.quantum (f : Fmt) (x : Rat) : Int := max (ilog2 x) (1 - (f.bias : Int)) - f.m

/-- What rounding a number to a format gives: its encoding without the sign, as if the exponent had no upper limit;
whether it was inexact; whether the result lies below the smallest normal; whether it would do so with an exponent
without lower limit (RISC-V: tininess is detected after rounding). -/
structure Rounded where
  mag : Nat
  nx : Bool
  small : Bool
  tiny : Bool
  deriving DecidableEq, Repr

/-- A number other than zero rounded to a format (R183, R188). -/
def Fmt.roundMag (f : Fmt) (rm : Nat) (x : Rat) : Rounded :=
  let a := |x|
  let neg := decide (x < 0)
  let q := f.quantum a
  let sc := a / pow2 q
  let lo := (ratFloor sc).toNat
  let m := lo + ofBool (roundUp rm neg (lo % 2 = 1) (sc - lo))
  let mag := (q + f.m + f.bias - 1).toNat * 2 ^ f.m + m
  let qf := ilog2 a - f.m
  let scf := a / pow2 qf
  let lof := (ratFloor scf).toNat
  let mf := lof + ofBool (roundUp rm neg (lof % 2 = 1) (scf - lof))
  ⟨mag, sc ≠ lo, mag < 2 ^ f.m, (mf : Rat) * pow2 qf < pow2 (1 - (f.bias : Int))⟩

/-- A value rounded to an IEEE format, and the flags. -/
def Fmt.round (f : Fmt) (rm : Nat) : FVal → Nat × Nat
  | .zero n => (f.signBit n, 0)
  | .inf n => (f.signBit n + f.infBits, 0)
  | .nan => (f.nan, 0)
  | .num x =>
    let neg := decide (x < 0)
    let r := f.roundMag rm x
    if f.infBits ≤ r.mag then
      let toInf := rm = 0 || rm = 4 || (rm = 2 && neg) || (rm = 3 && !neg)
      (f.signBit neg + (if toInf then f.infBits else f.infBits - 1), flagOF + flagNX)
    else (f.signBit neg + r.mag, flagIf r.nx flagNX + flagIf (r.nx && r.tiny) flagUF)

/-! ## Exact operations on values -/

/-- An exact number as a value; a zero takes the sign given. -/
def ofExact (x : Rat) (zeroNeg : Bool) : FVal := if x = 0 then .zero zeroNeg else .num x

/-- The exact product, and NV for ∞ × 0. -/
def FVal.mul (a b : FVal) : FVal × Nat :=
  let s := a.neg != b.neg
  match a, b with
  | .nan, _ => (.nan, 0)
  | _, .nan => (.nan, 0)
  | .inf _, .zero _ => (.nan, flagNV)
  | .zero _, .inf _ => (.nan, flagNV)
  | .inf _, _ => (.inf s, 0)
  | _, .inf _ => (.inf s, 0)
  | .num x, .num y => (.num (x * y), 0)
  | _, _ => (.zero s, 0)

/-- The exact sum, and NV for ∞ - ∞; a zero sum of unlike signs is +0, or -0 in mode down. -/
def FVal.add (rm : Nat) (a b : FVal) : FVal × Nat :=
  match a, b with
  | .nan, _ => (.nan, 0)
  | _, .nan => (.nan, 0)
  | .inf n, .inf k => if n = k then (.inf n, 0) else (.nan, flagNV)
  | .inf n, _ => (.inf n, 0)
  | _, .inf k => (.inf k, 0)
  | .zero n, .zero k => (.zero (if n = k then n else rm = 2), 0)
  | .zero _, .num y => (.num y, 0)
  | .num x, .zero _ => (.num x, 0)
  | .num x, .num y => (ofExact (x + y) (rm = 2), 0)

/-- The exact quotient, NV for 0 ÷ 0 and ∞ ÷ ∞, DZ for a number over zero. -/
def FVal.div (a b : FVal) : FVal × Nat :=
  let s := a.neg != b.neg
  match a, b with
  | .nan, _ => (.nan, 0)
  | _, .nan => (.nan, 0)
  | .inf _, .inf _ => (.nan, flagNV)
  | .zero _, .zero _ => (.nan, flagNV)
  | .inf _, _ => (.inf s, 0)
  | _, .inf _ => (.zero s, 0)
  | .zero _, .num _ => (.zero s, 0)
  | .num _, .zero _ => (.inf s, flagDZ)
  | .num x, .num y => (.num (x / y), 0)

/-- A number that rounds as the square root of a positive `x` does: the root itself where it is short enough, else a
number between the two that enclose it at far more bits than a format has. -/
def sqrtNear (x : Rat) : Rat :=
  let k : Nat := (max 0 (70 - ilog2 x)).toNat
  let y := x * (4 : Rat) ^ k
  let n := (ratFloor y).toNat
  let r := isqrt n
  if ((r * r : Nat) : Rat) = y then (r : Rat) / (2 : Rat) ^ k else ((2 * r + 1 : Nat) : Rat) / (2 : Rat) ^ (k + 1)

/-- The square root, NV below zero. -/
def FVal.sqrt : FVal → FVal × Nat
  | .nan => (.nan, 0)
  | .zero n => (.zero n, 0)
  | .inf n => if n then (.nan, flagNV) else (.inf false, 0)
  | .num x => if x < 0 then (.nan, flagNV) else (.num (sqrtNear x), 0)

/-- Rounds an exact outcome, joining the flags. -/
def Fmt.finish (f : Fmt) (rm : Nat) (r : FVal × Nat) : Nat × Nat :=
  let o := f.round rm r.1
  (o.1, r.2 ||| o.2)

/-- NV when one of the encodings is a signalling NaN. -/
def Fmt.sig (f : Fmt) (xs : List Nat) : Nat := flagIf (xs.any fun x => f.snan x) flagNV

/-- fadd, fsub (`b` negated), fmul, fdiv, fsqrt and the fused forms: encoding and flags. -/
def Fmt.addOp (f : Fmt) (rm a b : Nat) (sub : Bool) : Nat × Nat :=
  let vb := if sub then (f.val b).negate else f.val b
  let r := f.finish rm (FVal.add rm (f.val a) vb)
  (r.1, r.2 ||| f.sig [a, b])

def Fmt.mulOp (f : Fmt) (rm a b : Nat) : Nat × Nat :=
  let r := f.finish rm (FVal.mul (f.val a) (f.val b))
  (r.1, r.2 ||| f.sig [a, b])

def Fmt.divOp (f : Fmt) (rm a b : Nat) : Nat × Nat :=
  let r := f.finish rm (FVal.div (f.val a) (f.val b))
  (r.1, r.2 ||| f.sig [a, b])

def Fmt.sqrtOp (f : Fmt) (rm a : Nat) : Nat × Nat :=
  let r := f.finish rm (f.val a).sqrt
  (r.1, r.2 ||| f.sig [a])

/-- ±(a × b) ± c with one rounding. -/
def Fmt.fmaOp (f : Fmt) (rm a b c : Nat) (negProd negC : Bool) : Nat × Nat :=
  let p := FVal.mul (f.val a) (f.val b)
  let pv := if negProd then p.1.negate else p.1
  let cv := if negC then (f.val c).negate else f.val c
  let s := FVal.add rm pv cv
  let r := f.finish rm (s.1, p.2 ||| s.2)
  (r.1, r.2 ||| f.sig [a, b, c])

/-! ## Comparisons, minimum, class -/

/-- Whether a value is below another; NaN never is. -/
def FVal.lt : FVal → FVal → Bool
  | .nan, _ => false
  | _, .nan => false
  | .inf n, .inf k => n && !k
  | .inf n, _ => n
  | _, .inf k => !k
  | .zero _, .zero _ => false
  | .zero _, .num y => 0 < y
  | .num x, .zero _ => x < 0
  | .num x, .num y => x < y

/-- Whether two values compare equal. -/
def FVal.eqv : FVal → FVal → Bool
  | .nan, _ => false
  | _, .nan => false
  | .zero _, .zero _ => true
  | a, b => a = b

/-- feq (0), flt (1), fle (2): result and flags; only feq is quiet on a quiet NaN. -/
def Fmt.cmpOp (f : Fmt) (op a b : Nat) : Bool × Nat :=
  let x := f.val a
  let y := f.val b
  let un := x = .nan || y = .nan
  let fl := if op = 0 then f.sig [a, b] else flagIf un flagNV
  match op with
  | 0 => (FVal.eqv x y, fl)
  | 1 => (FVal.lt x y, fl)
  | _ => (FVal.lt x y || FVal.eqv x y, fl)

/-- fmin, fmax: a NaN gives the other operand; -0 is below +0. -/
def Fmt.minOp (f : Fmt) (isMax : Bool) (a b : Nat) : Nat × Nat :=
  let x := f.val a
  let y := f.val b
  let fl := f.sig [a, b]
  if x = .nan && y = .nan then (f.nan, fl)
  else if x = .nan then (b, fl)
  else if y = .nan then (a, fl)
  else
    let less := FVal.lt x y || (FVal.eqv x y && x.neg && !y.neg)
    (if less != isMax then a else b, fl)

/-- fclass: the one bit of the class. -/
def Fmt.classOp (f : Fmt) (a : Nat) : Nat :=
  let sub := bitsOf a f.m f.e = 0
  match f.val a with
  | .inf n => if n then 1 else 0x80
  | .num x => if x < 0 then (if sub then 4 else 2) else (if sub then 0x20 else 0x40)
  | .zero n => if n then 8 else 0x10
  | .nan => if f.snan a then 0x100 else 0x200

/-! ## Integers and floats -/

/-- A number rounded to an integer in a mode, and whether it was inexact. -/
def roundInt (rm : Nat) (x : Rat) : Int × Bool :=
  let a := |x|
  let lo := ratFloor a
  let neg := decide (x < 0)
  let m := lo + ofBool (roundUp rm neg (lo % 2 ≠ 0) (a - lo))
  (if neg then -m else m, a ≠ lo)

/-- fcvt to an integer of `w` bits, signed or not: its value and flags. -/
def Fmt.toInt (f : Fmt) (rm : Nat) (w : Nat) (sg : Bool) (a : Nat) : Int × Nat :=
  let lo : Int := if sg then -(2 ^ (w - 1)) else 0
  let hi : Int := if sg then 2 ^ (w - 1) - 1 else 2 ^ w - 1
  match f.val a with
  | .nan => (hi, flagNV)
  | .inf n => (if n then lo else hi, flagNV)
  | .zero _ => (0, 0)
  | .num x =>
    let r := roundInt rm x
    if r.1 < lo then (lo, flagNV) else if hi < r.1 then (hi, flagNV) else (r.1, flagIf r.2 flagNX)

/-- fcvt from an integer. -/
def Fmt.ofInt (f : Fmt) (rm : Nat) (x : Int) : Nat × Nat := f.round rm (ofExact x false)

/-- fcvt between formats. -/
def Fmt.convert (src dst : Fmt) (rm a : Nat) : Nat × Nat :=
  let r := dst.round rm (src.val a)
  (r.1, r.2 ||| src.sig [a])

end Sys2Proof.Machine
end

