-- ==== Sys2Proof/Machine/Operands.lean ====
section
/-!
DEFINITION. The instructions of a Thicket core (07 R142, R146): their operands, the decoder of RV64IMAFDC, Zicsr and
Zifencei with the compressed forms, and of the extension's encodings. The base instruction set is the RISC-V one the
rule names; its encodings are those of that architecture (PRESUMED: notes/assumptions). What no row of it allows is
illegal.
-/

namespace Sys2Proof.Machine

/-! ## Instructions -/

/-- Integer operations of two operands. -/
inductive AluOp where
  | add | sub | sll | slt | sltu | xor | srl | sra | or | and
  | mul | mulh | mulhsu | mulhu | div | divu | rem | remu
  deriving DecidableEq, Repr

/-- Branch conditions. -/
inductive BrOp where
  | eq | ne | lt | ge | ltu | geu
  deriving DecidableEq, Repr

/-- Read-modify-write operations on memory. -/
inductive AmoOp where
  | swap | add | xor | and | or | min | max | minu | maxu
  deriving DecidableEq, Repr

/-- What a CSR instruction writes: the operand, the set bits, the cleared bits. -/
inductive CsrOp where
  | write | set | clear
  deriving DecidableEq, Repr

/-- Floating-point operations of two operands with rounding. -/
inductive FpOp where
  | add | sub | mul | div
  deriving DecidableEq, Repr

/-- Formats of th.cvt other than FP32 (08 R177). -/
inductive CvtFmt where
  | e4m3 | e5m2 | bf16 | i8 | q12b
  deriving DecidableEq, Repr

/-- The extension instructions (07 R146). -/
inductive ThOp where
  | send | sendnb | recv | peek | wait | release | credits | barrier
  | dma | dmawait | dmapoll | pub | slotsel
  | tzero | tld | tst | tmma | tmmaT
  | narrow (f : CvtFmt) (stochastic : Bool)
  | widen (f : CvtFmt)
  deriving DecidableEq, Repr

/-- An instruction of a core. `w`: the 32-bit form; `d`: double precision. -/
inductive Rv where
  | lui (rd : Nat) (imm : Int)
  | auipc (rd : Nat) (imm : Int)
  | jal (rd : Nat) (imm : Int)
  | jalr (rd rs1 : Nat) (imm : Int)
  | branch (c : BrOp) (rs1 rs2 : Nat) (imm : Int)
  | load (bytes : Nat) (sg : Bool) (rd rs1 : Nat) (imm : Int)
  | store (bytes rs1 rs2 : Nat) (imm : Int)
  | aluImm (op : AluOp) (w : Bool) (rd rs1 : Nat) (imm : Int)
  | alu (op : AluOp) (w : Bool) (rd rs1 rs2 : Nat)
  | fence
  | ecall
  | ebreak
  | csr (op : CsrOp) (useImm : Bool) (rd src csr : Nat)
  | lr (bytes rd rs1 : Nat)
  | sc (bytes rd rs1 rs2 : Nat)
  | amo (op : AmoOp) (bytes rd rs1 rs2 : Nat)
  | fload (d : Bool) (rd rs1 : Nat) (imm : Int)
  | fstore (d : Bool) (rs1 rs2 : Nat) (imm : Int)
  | fma (d negProd negAdd : Bool) (rd rs1 rs2 rs3 rm : Nat)
  | fop (op : FpOp) (d : Bool) (rd rs1 rs2 rm : Nat)
  | fsqrt (d : Bool) (rd rs1 rm : Nat)
  | fsgnj (d : Bool) (kind rd rs1 rs2 : Nat)
  | fminmax (d isMax : Bool) (rd rs1 rs2 : Nat)
  | fcmp (d : Bool) (kind rd rs1 rs2 : Nat)
  | fclass (d : Bool) (rd rs1 : Nat)
  | fcvtToInt (d : Bool) (width : Nat) (sg : Bool) (rd rs1 rm : Nat)
  | fcvtOfInt (d : Bool) (width : Nat) (sg : Bool) (rd rs1 rm : Nat)
  | fcvtFmt (toD : Bool) (rd rs1 rm : Nat)
  | fmvToX (d : Bool) (rd rs1 : Nat)
  | fmvOfX (d : Bool) (rd rs1 : Nat)
  | ext (op : ThOp) (rd rs1 rs2 : Nat)
  deriving DecidableEq, Repr

/-! ## Immediates -/

/-- I-type immediate. -/
def immI (w : Nat) : Int := signed 12 (bitsOf w 20 12)

/-- S-type immediate. -/
def immS (w : Nat) : Int := signed 12 (bitsOf w 25 7 * 32 + bitsOf w 7 5)

/-- B-type immediate. -/
def immB (w : Nat) : Int :=
  signed 13 (bitsOf w 31 1 * 4096 + bitsOf w 7 1 * 2048 + bitsOf w 25 6 * 32 + bitsOf w 8 4 * 2)

/-- U-type immediate. -/
def immU (w : Nat) : Int := signed 32 (bitsOf w 12 20 * 4096)

/-- J-type immediate. -/
def immJ (w : Nat) : Int :=
  signed 21 (bitsOf w 31 1 * 2 ^ 20 + bitsOf w 12 8 * 4096 + bitsOf w 20 1 * 2048 + bitsOf w 21 10 * 2)

/-! ## The 32-bit encodings -/

/-- funct3 of the branches. -/
def brOp? : Nat → Option BrOp
  | 0 => some .eq
  | 1 => some .ne
  | 4 => some .lt
  | 5 => some .ge
  | 6 => some .ltu
  | 7 => some .geu
  | _ => none

/-- funct3 and funct7 of the register operations; `w` admits only the forms that have a 32-bit variant. -/
def aluOp? (w : Bool) (f3 f7 : Nat) : Option AluOp :=
  match f7, f3 with
  | 0x00, 0 => some .add
  | 0x20, 0 => some .sub
  | 0x00, 1 => some .sll
  | 0x00, 2 => if w then none else some .slt
  | 0x00, 3 => if w then none else some .sltu
  | 0x00, 4 => if w then none else some .xor
  | 0x00, 5 => some .srl
  | 0x20, 5 => some .sra
  | 0x00, 6 => if w then none else some .or
  | 0x00, 7 => if w then none else some .and
  | 0x01, 0 => some .mul
  | 0x01, 1 => if w then none else some .mulh
  | 0x01, 2 => if w then none else some .mulhsu
  | 0x01, 3 => if w then none else some .mulhu
  | 0x01, 4 => some .div
  | 0x01, 5 => some .divu
  | 0x01, 6 => some .rem
  | 0x01, 7 => some .remu
  | _, _ => none

/-- The immediate operations; shifts carry a shift amount of 6 bits, 5 in the 32-bit forms. -/
def aluImm? (wd : Bool) (w : Nat) : Option Rv :=
  let rd := bitsOf w 7 5
  let rs1 := bitsOf w 15 5
  let top := if wd then bitsOf w 25 7 else bitsOf w 26 6 * 2
  let sh : Int := if wd then bitsOf w 20 5 else bitsOf w 20 6
  match bitsOf w 12 3 with
  | 0 => some (.aluImm .add wd rd rs1 (immI w))
  | 1 => if top = 0 then some (.aluImm .sll wd rd rs1 sh) else none
  | 5 => if top = 0 then some (.aluImm .srl wd rd rs1 sh)
         else if top = 0x20 then some (.aluImm .sra wd rd rs1 sh) else none
  | 2 => if wd then none else some (.aluImm .slt false rd rs1 (immI w))
  | 3 => if wd then none else some (.aluImm .sltu false rd rs1 (immI w))
  | 4 => if wd then none else some (.aluImm .xor false rd rs1 (immI w))
  | 6 => if wd then none else some (.aluImm .or false rd rs1 (immI w))
  | 7 => if wd then none else some (.aluImm .and false rd rs1 (immI w))
  | _ => none

/-- The operation of an AMO. -/
def amoOp? : Nat → Option AmoOp
  | 0x01 => some .swap
  | 0x00 => some .add
  | 0x04 => some .xor
  | 0x0C => some .and
  | 0x08 => some .or
  | 0x10 => some .min
  | 0x14 => some .max
  | 0x18 => some .minu
  | 0x1C => some .maxu
  | _ => none

/-- The atomic encodings. -/
def atomic? (w : Nat) : Option Rv :=
  let rd := bitsOf w 7 5
  let rs1 := bitsOf w 15 5
  let rs2 := bitsOf w 20 5
  let f5 := bitsOf w 27 5
  let f3 := bitsOf w 12 3
  if f3 = 2 || f3 = 3 then
    let bytes := if f3 = 2 then 4 else 8
    if f5 = 2 then (if rs2 = 0 then some (.lr bytes rd rs1) else none)
    else if f5 = 3 then some (.sc bytes rd rs1 rs2)
    else (amoOp? f5).map fun op => .amo op bytes rd rs1 rs2
  else none

/-- Whether a rounding-mode field may stand: 0 to 4, or 7 for fcsr's mode. -/
def rmOk (rm : Nat) : Bool := rm ≤ 4 || rm = 7

/-- The OP-FP encodings. -/
def fp? (w : Nat) : Option Rv :=
  let rd := bitsOf w 7 5
  let rs1 := bitsOf w 15 5
  let rs2 := bitsOf w 20 5
  let rm := bitsOf w 12 3
  let d := bitsOf w 25 2 = 1
  let f5 := bitsOf w 27 5
  if bitsOf w 25 2 ≤ 1 then
    match f5 with
    | 0x00 => if rmOk rm then some (.fop .add d rd rs1 rs2 rm) else none
    | 0x01 => if rmOk rm then some (.fop .sub d rd rs1 rs2 rm) else none
    | 0x02 => if rmOk rm then some (.fop .mul d rd rs1 rs2 rm) else none
    | 0x03 => if rmOk rm then some (.fop .div d rd rs1 rs2 rm) else none
    | 0x0B => if rs2 = 0 && rmOk rm then some (.fsqrt d rd rs1 rm) else none
    | 0x04 => if rm ≤ 2 then some (.fsgnj d rm rd rs1 rs2) else none
    | 0x05 => if rm ≤ 1 then some (.fminmax d (rm = 1) rd rs1 rs2) else none
    | 0x14 => if rm ≤ 2 then some (.fcmp d (2 - rm) rd rs1 rs2) else none
    | 0x08 => if rmOk rm && rs2 = (if d then 0 else 1) then some (.fcvtFmt d rd rs1 rm) else none
    | 0x18 => if rmOk rm && rs2 ≤ 3 then some (.fcvtToInt d (if rs2 < 2 then 32 else 64) (rs2 % 2 = 0) rd rs1 rm) else none
    | 0x1A => if rmOk rm && rs2 ≤ 3 then some (.fcvtOfInt d (if rs2 < 2 then 32 else 64) (rs2 % 2 = 0) rd rs1 rm) else none
    | 0x1C => if rs2 ≠ 0 then none else if rm = 0 then some (.fmvToX d rd rs1) else if rm = 1 then some (.fclass d rd rs1) else none
    | 0x1E => if rs2 = 0 && rm = 0 then some (.fmvOfX d rd rs1) else none
    | _ => none
  else none

/-- The format named by the low bits of funct7 of th.cvt. -/
def cvtFmt? : Nat → Option CvtFmt
  | 0 => some .e4m3
  | 1 => some .e5m2
  | 2 => some .bf16
  | 3 => some .i8
  | 4 => some .q12b
  | _ => none

/-- The extension's encodings (R146): every field marked 0 there is zero, and a tensor tile is 0 to 3. -/
def ext? (w : Nat) : Option Rv :=
  let rd := bitsOf w 7 5
  let rs1 := bitsOf w 15 5
  let rs2 := bitsOf w 20 5
  let f3 := bitsOf w 12 3
  let f7 := bitsOf w 25 7
  let yes (op : ThOp) (ok : Bool) : Option Rv := if ok then some (.ext op rd rs1 rs2) else none
  match bitsOf w 0 7, f7, f3 with
  | 0x0B, 0x00, 0 => yes .send true
  | 0x0B, 0x01, 0 => yes .sendnb true
  | 0x0B, 0x00, 1 => yes .recv true
  | 0x0B, 0x01, 1 => yes .peek (rs2 = 0)
  | 0x0B, 0x02, 1 => yes .wait true
  | 0x0B, 0x00, 2 => yes .release (rd = 0 && rs2 = 0)
  | 0x0B, 0x00, 3 => yes .credits (rs2 = 0)
  | 0x0B, 0x00, 4 => yes .barrier true
  | 0x2B, 0x00, 0 => yes .dma true
  | 0x2B, 0x00, 1 => yes .dmawait true
  | 0x2B, 0x01, 1 => yes .dmapoll (rs2 = 0)
  | 0x2B, 0x00, 2 => yes .pub true
  | 0x2B, 0x00, 4 => yes .slotsel true
  | 0x5B, 0x00, 0 => yes .tzero (rd ≤ 3 && rs1 = 0 && rs2 = 0)
  | 0x5B, 0x00, 1 => yes .tld (rd ≤ 3 && rs2 = 0)
  | 0x5B, 0x01, 1 => yes .tst (rd ≤ 3 && rs2 = 0)
  | 0x5B, 0x00, 2 => yes .tmma (rd ≤ 3)
  | 0x5B, 0x01, 2 => yes .tmmaT (rd ≤ 3)
  | 0x7B, f7, f3 =>
    match cvtFmt? (f7 % 16) with
    | some f =>
      if f7 < 16 then yes (.narrow f (f3 = 1)) (f3 ≤ 1 && rd = 0)
      else if f7 < 32 then yes (.widen f) (f3 = 0 && rd = 0)
      else none
    | none => none
  | _, _, _ => none

/-- The instruction of a 32-bit word. -/
def decode32 (w : Nat) : Option Rv :=
  let rd := bitsOf w 7 5
  let rs1 := bitsOf w 15 5
  let rs2 := bitsOf w 20 5
  let f3 := bitsOf w 12 3
  let f7 := bitsOf w 25 7
  let fma (np na : Bool) : Option Rv :=
    if bitsOf w 25 2 ≤ 1 && rmOk f3 then some (.fma (bitsOf w 25 2 = 1) np na rd rs1 rs2 (bitsOf w 27 5) f3) else none
  match bitsOf w 0 7 with
  | 0x37 => some (.lui rd (immU w))
  | 0x17 => some (.auipc rd (immU w))
  | 0x6F => some (.jal rd (immJ w))
  | 0x67 => if f3 = 0 then some (.jalr rd rs1 (immI w)) else none
  | 0x63 => (brOp? f3).map fun c => .branch c rs1 rs2 (immB w)
  | 0x03 => if f3 = 7 then none else some (.load (2 ^ (f3 % 4)) (f3 < 4) rd rs1 (immI w))
  | 0x23 => if f3 ≤ 3 then some (.store (2 ^ f3) rs1 rs2 (immS w)) else none
  | 0x13 => aluImm? false w
  | 0x1B => aluImm? true w
  | 0x33 => (aluOp? false f3 f7).map fun op => .alu op false rd rs1 rs2
  | 0x3B => (aluOp? true f3 f7).map fun op => .alu op true rd rs1 rs2
  | 0x0F => if f3 ≤ 1 then some .fence else none
  | 0x73 =>
    match f3 with
    | 0 => if w = 0x73 then some .ecall else if w = 0x100073 then some .ebreak else none
    | 1 => some (.csr .write false rd rs1 (bitsOf w 20 12))
    | 2 => some (.csr .set false rd rs1 (bitsOf w 20 12))
    | 3 => some (.csr .clear false rd rs1 (bitsOf w 20 12))
    | 5 => some (.csr .write true rd rs1 (bitsOf w 20 12))
    | 6 => some (.csr .set true rd rs1 (bitsOf w 20 12))
    | 7 => some (.csr .clear true rd rs1 (bitsOf w 20 12))
    | _ => none
  | 0x2F => atomic? w
  | 0x07 => if f3 = 2 || f3 = 3 then some (.fload (f3 = 3) rd rs1 (immI w)) else none
  | 0x27 => if f3 = 2 || f3 = 3 then some (.fstore (f3 = 3) rs1 rs2 (immS w)) else none
  | 0x43 => fma false false
  | 0x47 => fma false true
  | 0x4B => fma true false
  | 0x4F => fma true true
  | 0x53 => fp? w
  | 0x0B => ext? w
  | 0x2B => ext? w
  | 0x5B => ext? w
  | 0x7B => ext? w
  | _ => none

/-! ## The compressed encodings -/

/-- Quadrant 0 of the compressed encodings. -/
def decodeC0 (h : Nat) : Option Rv :=
  let rl := 8 + bitsOf h 2 3
  let rh := 8 + bitsOf h 7 3
  let u8 : Int := bitsOf h 10 3 * 8 + bitsOf h 5 2 * 64
  let u4 : Int := bitsOf h 10 3 * 8 + bitsOf h 6 1 * 4 + bitsOf h 5 1 * 64
  match bitsOf h 13 3 with
  | 0 =>
    let u : Int := bitsOf h 11 2 * 16 + bitsOf h 7 4 * 64 + bitsOf h 6 1 * 4 + bitsOf h 5 1 * 8
    if u = 0 then none else some (.aluImm .add false rl 2 u)
  | 1 => some (.fload true rl rh u8)
  | 2 => some (.load 4 true rl rh u4)
  | 3 => some (.load 8 true rl rh u8)
  | 5 => some (.fstore true rh rl u8)
  | 6 => some (.store 4 rh rl u4)
  | 7 => some (.store 8 rh rl u8)
  | _ => none

/-- Quadrant 1. -/
def decodeC1 (h : Nat) : Option Rv :=
  let r := bitsOf h 7 5
  let rh := 8 + bitsOf h 7 3
  let rl := 8 + bitsOf h 2 3
  let imm6 : Int := signed 6 (bitsOf h 12 1 * 32 + bitsOf h 2 5)
  let sh : Int := bitsOf h 12 1 * 32 + bitsOf h 2 5
  let bOff : Int := signed 9 (bitsOf h 12 1 * 256 + bitsOf h 10 2 * 8 + bitsOf h 5 2 * 64 + bitsOf h 3 2 * 2 + bitsOf h 2 1 * 32)
  match bitsOf h 13 3 with
  | 0 => some (.aluImm .add false r r imm6)
  | 1 => if r = 0 then none else some (.aluImm .add true r r imm6)
  | 2 => some (.aluImm .add false r 0 imm6)
  | 3 =>
    if r = 2 then
      let i : Int := signed 10 (bitsOf h 12 1 * 512 + bitsOf h 6 1 * 16 + bitsOf h 5 1 * 64 + bitsOf h 3 2 * 128 + bitsOf h 2 1 * 32)
      if i = 0 then none else some (.aluImm .add false 2 2 i)
    else if imm6 = 0 then none else some (.lui r (imm6 * 4096))
  | 4 =>
    match bitsOf h 10 2 with
    | 0 => some (.aluImm .srl false rh rh sh)
    | 1 => some (.aluImm .sra false rh rh sh)
    | 2 => some (.aluImm .and false rh rh imm6)
    | _ =>
      match bitsOf h 12 1, bitsOf h 5 2 with
      | 0, 0 => some (.alu .sub false rh rh rl)
      | 0, 1 => some (.alu .xor false rh rh rl)
      | 0, 2 => some (.alu .or false rh rh rl)
      | 0, _ => some (.alu .and false rh rh rl)
      | _, 0 => some (.alu .sub true rh rh rl)
      | _, 1 => some (.alu .add true rh rh rl)
      | _, _ => none
  | 5 =>
    some (.jal 0 (signed 12 (bitsOf h 12 1 * 2048 + bitsOf h 11 1 * 16 + bitsOf h 9 2 * 256 + bitsOf h 8 1 * 1024 +
      bitsOf h 7 1 * 64 + bitsOf h 6 1 * 128 + bitsOf h 3 3 * 2 + bitsOf h 2 1 * 32)))
  | 6 => some (.branch .eq rh 0 bOff)
  | _ => some (.branch .ne rh 0 bOff)

/-- Quadrant 2. -/
def decodeC2 (h : Nat) : Option Rv :=
  let r := bitsOf h 7 5
  let r2 := bitsOf h 2 5
  let l8 : Int := bitsOf h 12 1 * 32 + bitsOf h 5 2 * 8 + bitsOf h 2 3 * 64
  let l4 : Int := bitsOf h 12 1 * 32 + bitsOf h 4 3 * 4 + bitsOf h 2 2 * 64
  let s8 : Int := bitsOf h 10 3 * 8 + bitsOf h 7 3 * 64
  let s4 : Int := bitsOf h 9 4 * 4 + bitsOf h 7 2 * 64
  match bitsOf h 13 3 with
  | 0 => some (.aluImm .sll false r r (bitsOf h 12 1 * 32 + bitsOf h 2 5 : Nat))
  | 1 => some (.fload true r 2 l8)
  | 2 => if r = 0 then none else some (.load 4 true r 2 l4)
  | 3 => if r = 0 then none else some (.load 8 true r 2 l8)
  | 4 =>
    if bitsOf h 12 1 = 0 then
      if r2 = 0 then (if r = 0 then none else some (.jalr 0 r 0)) else some (.alu .add false r 0 r2)
    else if r2 = 0 then (if r = 0 then some .ebreak else some (.jalr 1 r 0))
    else some (.alu .add false r r r2)
  | 5 => some (.fstore true 2 r2 s8)
  | 6 => some (.store 4 2 r2 s4)
  | _ => some (.store 8 2 r2 s8)

/-- The instruction of a 16-bit parcel whose two low bits are not both 1. -/
def decode16 (h : Nat) : Option Rv :=
  match h % 4 with
  | 0 => decodeC0 h
  | 1 => decodeC1 h
  | 2 => decodeC2 h
  | _ => none

end Sys2Proof.Machine
end

