-- ==== Sys2Proof/Machine/Scalar.lean ====
section
/-!
DEFINITION. The cores of the Thicket array (07 R139 to R145): their memory map, fetch, CSRs, the scalar instructions and
what ends a core's run. The base instructions compute as the RISC-V architecture has them (R142; PRESUMED).
-/

namespace Sys2Proof.Machine

/-! ## Cores and partitions -/

/-- Core `n`, by its physical number. -/
def State.core (s : State) (n : Nat) : CoreState := Sparse.at {} s.th.core n

/-- Core `n` takes a state. -/
def State.setCore (s : State) (n : Nat) (c : CoreState) : State :=
  { s with th := { s.th with core := Sparse.upd {} s.th.core n c } }

/-- Partition `p`. -/
def State.part (s : State) (p : Nat) : PartState := Sparse.at {} s.th.part p

/-- Partition `p` takes a state. -/
def State.setPart (s : State) (p : Nat) (q : PartState) : State :=
  { s with th := { s.th with part := Sparse.upd {} s.th.part p q } }

/-- Configuration word `k` of a partition, as in force since its LOAD (R162). -/
def PartState.word (q : PartState) (k : Nat) : Nat := q.words.getD k 0

/-- EN, KIND, AUTO_START, AUTO_RESTART, DEBUG_EN of the settings in force. -/
def PartState.cfgBit (q : PartState) (n : Nat) : Bool := bitOf (q.word 0) n

/-- Whether a list of configuration words holds core `n`; none while EN is clear (R162). -/
def holdsCore (words : List Nat) (n : Nat) : Bool :=
  n < 256 && bitOf (words.getD 0 0) 31 && bitOf (words.getD (1 + n / 32) 0) (n % 32)

/-- The cores of a partition in the order of their logical numbers (R149). -/
def PartState.cores (q : PartState) : List Nat := (List.range 256).filter (holdsCore q.words)

/-- The partition that holds core `n`. -/
def State.partOf (s : State) (n : Nat) : Option Nat := (List.range 16).find? fun p => holdsCore (s.part p).words n

/-- The logical number of core `n` in a partition. -/
def PartState.logical (q : PartState) (n : Nat) : Nat := (q.cores.filter fun k => k < n).length

/-- The configuration words as the registers hold them. -/
def State.partRegs (s : State) (p : Nat) : List Nat :=
  (List.range 39).map fun k => (s.rd (0x1001000 + 256 * p + 4 * k)).toNat

/-- States of TH_PART_STAT. -/
abbrev partEmpty : Nat := 0
abbrev partLoading : Nat := 1
abbrev partReady : Nat := 2
abbrev partRunning : Nat := 3
abbrev partStopping : Nat := 4
abbrev partStopped : Nat := 5
abbrev partFaulted : Nat := 6

/-- The state of partition `p`. -/
def State.partState (s : State) (p : Nat) : Nat := s.getF Reg.TH_PART_STAT_STATE p

/-- Partition `p` enters a state, which TH_STATUS and the interrupt causes show. -/
def State.partEnter (s : State) (p st : Nat) : State :=
  let a := s.setF Reg.TH_PART_STAT_STATE st p
  let a := a.setF Reg.TH_STATUS_RUNNING (putBit (a.getF Reg.TH_STATUS_RUNNING) p (st = partRunning))
  let a := a.setF Reg.TH_STATUS_FAULTED (putBit (a.getF Reg.TH_STATUS_FAULTED) p (st = partFaulted))
  (a.causeIf (st = partFaulted) 5 0).causeIf (st ≠ s.partState p) 5 1

/-- Receive ring `ch` of a core; one without slots where the channel table has none. -/
def CoreState.ringAt (c : CoreState) (ch : Nat) : Ring := Sparse.at {} c.ring ch

/-- Send endpoint `ep` of a core. -/
def CoreState.endAt (c : CoreState) (ep : Nat) : SendEnd := Sparse.at {} c.send ep

/-- Whether core `n` executes and does not wait. -/
def State.coreReady (s : State) (n : Nat) : Bool := (s.core n).run = .running && (s.core n).wait.isNone

/-! ## Registers -/

/-- x register `r`; x0 reads zero. -/
def CoreState.rx (c : CoreState) (r : Nat) : Nat := if r = 0 then 0 else Sparse.at 0 c.x r

/-- x register `r` takes a value of 64 bits; x0 discards it. -/
def CoreState.wx (c : CoreState) (r v : Nat) : CoreState :=
  if r = 0 then c else { c with x := Sparse.upd 0 c.x r (v % 2 ^ 64) }

/-- The next instruction follows `len` bytes on, and one more has retired. -/
def CoreState.retire (c : CoreState) (len : Nat) : CoreState :=
  { c with pc := (c.pc + len) % 2 ^ 64, instret := (c.instret + 1) % 2 ^ 64 }

/-- Flags join fflags (R185). -/
def CoreState.raise (c : CoreState) (fl : Nat) : CoreState := { c with fcsr := c.fcsr ||| fl }

/-- f register `r` as a double, or as a single; a single that is not NaN-boxed reads as the canonical NaN. -/
def CoreState.rf (c : CoreState) (d : Bool) (r : Nat) : Nat :=
  let v := Sparse.at 0 c.f r
  if d then v else if v / 2 ^ 32 = 2 ^ 32 - 1 then v % 2 ^ 32 else fmtS.nan

/-- f register `r` takes a double, or a single NaN-boxed. -/
def CoreState.wf (c : CoreState) (d : Bool) (r v : Nat) : CoreState :=
  { c with f := Sparse.upd 0 c.f r (if d then v % 2 ^ 64 else v % 2 ^ 32 + (2 ^ 32 - 1) * 2 ^ 32) }

/-- The format of a floating-point instruction. -/
def fpFmt (d : Bool) : Fmt := if d then fmtD else fmtS

/-! ## Memory (R143) -/

/-- Local memory, and the code area, of the core's address map. -/
abbrev lmBase : Nat := 0x10000000
abbrev lmSize : Nat := 0x80000
abbrev codeLo : Nat := 0x100000000
abbrev codeSize : Nat := 0x4000000

/-- The code area of partition `p` in the stack (R198). -/
def codeArea (p : Nat) : Nat := 0x1040000000 + p * codeSize

/-- Whether bytes `a` to `a + n - 1` lie in local memory. -/
def inLocal (a n : Nat) : Bool := lmBase ≤ a && a + n ≤ lmBase + lmSize

/-- Whether bytes `a` to `a + n - 1` lie in the code area. -/
def inCode (a n : Nat) : Bool := codeLo ≤ a && a + n ≤ codeLo + codeSize

/-- Bytes of local memory from an address on. -/
def CoreState.lmBytes (c : CoreState) (a n : Nat) : List Byte := Sparse.range 0#8 c.mem (a - lmBase) n

/-- Whether a word of a range of local memory is poisoned. -/
def CoreState.lmBad (c : CoreState) (a n : Nat) : Bool :=
  c.bad.any fun e => e.2 && (a - lmBase) / 32 ≤ e.1 && e.1 < (a - lmBase + n + 31) / 32

/-- Bytes are written to local memory; the words written whole lose their poison. -/
def CoreState.lmWrite (c : CoreState) (a : Nat) (bs : List Byte) : CoreState :=
  let o := a - lmBase
  { c with mem := Sparse.fill 0#8 c.mem o bs,
           bad := Sparse.clear c.bad ((o + 31) / 32) ((o + bs.length) / 32) }

/-- A write from outside the core breaks a reservation it meets. -/
def CoreState.breakResv (c : CoreState) (a n : Nat) : CoreState :=
  match c.resv with
  | some (r, m) => if r < a + n && a < r + m then { c with resv := none } else c
  | none => c

/-- What an access yields: a value, or the KIND and CAUSE of a fault (R143, R170). -/
inductive Got where
  | ok (v : Nat)
  | bad (kind cause : Nat)
  deriving DecidableEq, Repr

/-- KIND of TH_PART_FAULT. -/
abbrev kindException : Nat := 1
abbrev kindEcc : Nat := 2
abbrev kindEcall : Nat := 3

/-- A load of `n` bytes by core `k`; an access fault against the map, ECC at a poisoned word. -/
def State.coreLoad (s : State) (k a n : Nat) : Got :=
  if a % n ≠ 0 then .bad kindException 4
  else if inLocal a n then
    if (s.core k).lmBad a n then .bad kindEcc 0 else .ok (ofLe ((s.core k).lmBytes a n))
  else if inCode a n then
    match s.partOf k with
    | some p =>
      let m := codeArea p + (a - codeLo)
      if s.poisonedIn m n then .bad kindException 5 else .ok (ofLe (s.memBytes m n))
    | none => .bad kindException 5
  else .bad kindException 5

/-- An error that a read of local memory finds: the word, and whether it is beyond correction. A corrected one is
written back and counted; another poisons the word, whose bytes are then unknown (R143). -/
def State.lmUpset (s : State) (k : Nat) (upset : Option (Nat × Bool)) : State :=
  let c := s.core k
  let d := k / 128
  match upset with
  | none => s
  | some (w, false) =>
    if w < 16384 && !Sparse.at false c.bad w then
      (s.setCore k { c with ecc := min (2 ^ 64 - 1) (c.ecc + 1) }).bump Reg.TH_DIE_STATUS_CE_COUNT d
    else s
  | some (w, true) =>
    if w < 16384 && !Sparse.at false c.bad w then
      let v := leBytes 32 (s.freeVal 10)
      let c := { c with mem := Sparse.fill 0#8 c.mem (32 * w) v, bad := Sparse.upd false c.bad w true }
      (s.useFree.setCore k c).bump Reg.TH_DIE_STATUS_UE_COUNT d
    else s

/-- Two bytes of code at an address. -/
def State.fetchHalf (s : State) (p a : Nat) : Option Nat :=
  if inCode a 2 then
    let m := codeArea p + (a - codeLo)
    if s.poisonedIn m 2 then none else some (ofLe (s.memBytes m 2))
  else none

/-- The instruction at the pc of core `k` and its length; `none` for an access fault, and no instruction for an
illegal encoding. -/
def State.fetch (s : State) (k : Nat) : Option (Option Rv × Nat) :=
  match s.partOf k with
  | none => none
  | some p =>
    let pc := (s.core k).pc
    match s.fetchHalf p pc with
    | none => none
    | some h =>
      if h % 4 = 3 then
        match s.fetchHalf p (pc + 2) with
        | none => none
        | some g => some (decode32 (h + 65536 * g), 4)
      else some (decode16 h, 2)

/-- Core `k` stands at an exception. -/
def State.coreTrap (s : State) (k kind cause : Nat) : State := s.setCore k { s.core k with run := .fault kind cause }

/-! ## Integer operations -/

/-- An integer operation on 64 bits, or on the low 32 with the result sign-extended. -/
def aluEval (op : AluOp) (w32 : Bool) (x y : Nat) : Nat :=
  let w := if w32 then 32 else 64
  let a := x % 2 ^ w
  let b := y % 2 ^ w
  let sa := signed w a
  let sb := signed w b
  let sh := b % w
  let r : Int := match op with
    | .add => (a : Int) + b
    | .sub => (a : Int) - b
    | .sll => ((a * 2 ^ sh : Nat) : Int)
    | .slt => ofBool (sa < sb)
    | .sltu => ofBool (a < b)
    | .xor => ((a ^^^ b : Nat) : Int)
    | .srl => ((a / 2 ^ sh : Nat) : Int)
    | .sra => sa / (2 : Int) ^ sh
    | .or => ((a ||| b : Nat) : Int)
    | .and => ((a &&& b : Nat) : Int)
    | .mul => (a : Int) * b
    | .mulh => sa * sb / 2 ^ 64
    | .mulhsu => sa * (b : Int) / 2 ^ 64
    | .mulhu => (a : Int) * b / 2 ^ 64
    | .div => if b = 0 then -1 else Int.tdiv sa sb
    | .divu => if b = 0 then -1 else ((a / b : Nat) : Int)
    | .rem => if b = 0 then sa else Int.tmod sa sb
    | .remu => if b = 0 then (a : Int) else ((a % b : Nat) : Int)
  unsign 64 (signed w (unsign w r))

/-- Whether a branch is taken. -/
def brTaken (c : BrOp) (a b : Nat) : Bool :=
  match c with
  | .eq => a = b
  | .ne => a ≠ b
  | .lt => signed 64 a < signed 64 b
  | .ge => !(signed 64 a < signed 64 b)
  | .ltu => a < b
  | .geu => b ≤ a

/-- What an AMO writes, from the value in memory and the operand, of `w` bits. -/
def amoEval (op : AmoOp) (w old v : Nat) : Nat :=
  let a := old % 2 ^ w
  let b := v % 2 ^ w
  match op with
  | .swap => b
  | .add => (a + b) % 2 ^ w
  | .xor => a ^^^ b
  | .and => a &&& b
  | .or => a ||| b
  | .min => if signed w b < signed w a then b else a
  | .max => if signed w a < signed w b then b else a
  | .minu => min a b
  | .maxu => max a b

/-! ## CSRs (R145, R181, R191) -/

/-- The source of random numbers never holds zero (R191). -/
abbrev rngSeed : Nat := 0x9E3779B97F4A7C15

/-- Bit `c` of th_chstat's halves (R145). -/
def CoreState.chstat (c : CoreState) : Nat :=
  let rx := (List.range 32).foldl (fun m i =>
    m + (if (c.ringAt i).taken < (c.ringAt i).arrived then 2 ^ i else 0)) 0
  (List.range 32).foldl (fun m i => m + (if 0 < (c.endAt i).credits then 2 ^ (32 + i) else 0)) rx

/-- The value of a CSR; none for one the core does not have. `cycle` is the core's cycle count. -/
def State.csrRead (s : State) (k now cycle csr : Nat) : Option Nat :=
  let c := s.core k
  let p := (s.partOf k).getD 0
  let q := s.part p
  match csr with
  | 0x001 => some (c.fcsr % 32)
  | 0x002 => some (c.fcsr / 32 % 8)
  | 0x003 => some (c.fcsr % 256)
  | 0xC00 => some (cycle % 2 ^ 64)
  | 0xC01 => some (now / 10 % 2 ^ 64)
  | 0xC02 => some c.instret
  | 0xCC0 => some (k + q.logical k * 256 + p * 65536 + q.cores.length * 2 ^ 20)
  | 0xCC1 => some s.th.fcbound
  | 0xCC2 => some c.chstat
  | 0xCC3 => some (lmBase + c.top)
  | 0xCC4 => some q.slot
  | 0xCC5 => some c.ecc
  | 0x800 => some c.tfmt
  | 0x801 => some c.cvtN
  | 0x802 => some c.rng
  | 0x803 => some c.sendto
  | _ => none

/-- A write of a CSR; none for one that cannot be written. -/
def CoreState.csrWrite (c : CoreState) (csr v : Nat) : Option CoreState :=
  match csr with
  | 0x001 => some { c with fcsr := c.fcsr / 32 * 32 + v % 32 }
  | 0x002 => some { c with fcsr := c.fcsr % 32 + v % 8 * 32 }
  | 0x003 => some { c with fcsr := v % 256 }
  | 0x800 => some { c with tfmt := v &&& 0xFFFF00FF }
  | 0x801 => some { c with cvtN := min 16384 (max 32 (v / 32 * 32)) }
  | 0x802 => some { c with rng := if v % 2 ^ 64 = 0 then rngSeed else v % 2 ^ 64 }
  | 0x803 => some { c with sendto := v % 2 ^ 64 }
  | _ => none

/-! ## Scalar instructions -/

/-- How an instruction ends: the core's next state but for the retirement, or an exception. -/
inductive Ran where
  | ok (c : CoreState)
  | jump (c : CoreState) (target : Nat)
  | trap (kind cause : Nat)
  deriving DecidableEq, Repr

/-- An illegal-instruction exception. -/
abbrev illegal : Ran := .trap kindException 2

/-- The rounding mode in force: the field's, or fcsr's for 7; none for a reserved one. -/
def CoreState.mode (c : CoreState) (rm : Nat) : Option Nat :=
  let m := if rm = 7 then c.fcsr / 32 % 8 else rm
  if m ≤ 4 then some m else none

/-- A float result with its flags. -/
def CoreState.putF (c : CoreState) (d : Bool) (rd : Nat) (r : Nat × Nat) : CoreState := (c.wf d rd r.1).raise r.2

/-- A floating-point instruction that rounds. -/
def CoreState.rounded (c : CoreState) (rm : Nat) (f : Nat → CoreState) : Ran :=
  match c.mode rm with
  | some m => .ok (f m)
  | none => illegal

/-- The address of a load or a store. -/
def CoreState.ea (c : CoreState) (rs1 : Nat) (imm : Int) : Nat := unsign 64 ((c.rx rs1 : Int) + imm)

/-- A store to local memory. -/
def CoreState.store (c : CoreState) (a n v : Nat) : Ran :=
  if a % n ≠ 0 then .trap kindException 6
  else if inLocal a n then .ok (c.lmWrite a (leBytes n v))
  else .trap kindException 7

/-- A read for an atomic: local memory only (R143); `misaligned` and `outside` are the exception codes. -/
def CoreState.atomicLoad (c : CoreState) (a n misaligned outside : Nat) : Got :=
  if a % n ≠ 0 then .bad kindException misaligned
  else if !inLocal a n then .bad kindException outside
  else if c.lmBad a n then .bad kindEcc 0
  else .ok (ofLe (c.lmBytes a n))

/-- Sign-extends a value of `n` bytes to 64 bits. -/
def sext (n v : Nat) : Nat := unsign 64 (signed (8 * n) v)

/-- fsgnj, fsgnjn, fsgnjx. -/
def sgnj (f : Fmt) (kind a b : Nat) : Nat :=
  let top := f.e + f.m
  let sb := bitOf b top
  let sa := bitOf a top
  putBit a top (if kind = 0 then sb else if kind = 1 then !sb else sa != sb)

/-- One scalar instruction of core `k`, `len` bytes long. -/
def State.scalar (s : State) (k now cycle : Nat) (i : Rv) (len : Nat) : Ran :=
  let c := s.core k
  let x := c.rx
  match i with
  | .lui rd imm => .ok (c.wx rd (unsign 64 imm))
  | .auipc rd imm => .ok (c.wx rd (unsign 64 (c.pc + imm)))
  | .jal rd imm => .jump (c.wx rd (c.pc + len)) (unsign 64 (c.pc + imm))
  | .jalr rd rs1 imm => .jump (c.wx rd (c.pc + len)) (c.ea rs1 imm / 2 * 2)
  | .branch op rs1 rs2 imm =>
    if brTaken op (x rs1) (x rs2) then .jump c (unsign 64 (c.pc + imm)) else .ok c
  | .load n sg rd rs1 imm =>
    match s.coreLoad k (c.ea rs1 imm) n with
    | .ok v => .ok (c.wx rd (if sg then sext n v else v))
    | .bad kd cs => .trap kd cs
  | .store n rs1 rs2 imm => c.store (c.ea rs1 imm) n (x rs2)
  | .aluImm op w rd rs1 imm => .ok (c.wx rd (aluEval op w (x rs1) (unsign 64 imm)))
  | .alu op w rd rs1 rs2 => .ok (c.wx rd (aluEval op w (x rs1) (x rs2)))
  | .fence => .ok c
  | .csr op useImm rd src csr =>
    let v := if useImm then src else x src
    let writes := op = .write || src ≠ 0
    match s.csrRead k now cycle csr with
    | none => illegal
    | some old =>
      let nv := match op with
        | .write => v
        | .set => old ||| v
        | .clear => old - (old &&& v)
      if writes then
        match c.csrWrite csr nv with
        | some c => .ok (c.wx rd old)
        | none => illegal
      else .ok (c.wx rd old)
  | .lr n rd rs1 =>
    match c.atomicLoad (x rs1) n 4 5 with
    | .ok v => .ok ({ c with resv := some (x rs1, n) }.wx rd (sext n v))
    | .bad kd cs => .trap kd cs
  | .sc n rd rs1 rs2 =>
    if x rs1 % n ≠ 0 then .trap kindException 6
    else if !inLocal (x rs1) n then .trap kindException 7
    else
      let d := { c with resv := none }
      if c.resv = some (x rs1, n) then .ok ((d.lmWrite (x rs1) (leBytes n (x rs2))).wx rd 0) else .ok (d.wx rd 1)
  | .amo op n rd rs1 rs2 =>
    match c.atomicLoad (x rs1) n 6 7 with
    | .ok v => .ok ((c.lmWrite (x rs1) (leBytes n (amoEval op (8 * n) v (x rs2)))).wx rd (sext n v))
    | .bad kd cs => .trap kd cs
  | .fload d rd rs1 imm =>
    match s.coreLoad k (c.ea rs1 imm) (if d then 8 else 4) with
    | .ok v => .ok (c.wf d rd v)
    | .bad kd cs => .trap kd cs
  | .fstore d rs1 rs2 imm => c.store (c.ea rs1 imm) (if d then 8 else 4) (Sparse.at 0 c.f rs2)
  | .fma d np na rd rs1 rs2 rs3 rm =>
    c.rounded rm fun m => c.putF d rd ((fpFmt d).fmaOp m (c.rf d rs1) (c.rf d rs2) (c.rf d rs3) np na)
  | .fop op d rd rs1 rs2 rm =>
    c.rounded rm fun m =>
      let a := c.rf d rs1
      let b := c.rf d rs2
      c.putF d rd (match op with
        | .add => (fpFmt d).addOp m a b false
        | .sub => (fpFmt d).addOp m a b true
        | .mul => (fpFmt d).mulOp m a b
        | .div => (fpFmt d).divOp m a b)
  | .fsqrt d rd rs1 rm => c.rounded rm fun m => c.putF d rd ((fpFmt d).sqrtOp m (c.rf d rs1))
  | .fsgnj d kind rd rs1 rs2 => .ok (c.wf d rd (sgnj (fpFmt d) kind (c.rf d rs1) (c.rf d rs2)))
  | .fminmax d isMax rd rs1 rs2 => .ok (c.putF d rd ((fpFmt d).minOp isMax (c.rf d rs1) (c.rf d rs2)))
  | .fcmp d kind rd rs1 rs2 =>
    let r := (fpFmt d).cmpOp kind (c.rf d rs1) (c.rf d rs2)
    .ok ((c.wx rd (ofBool r.1)).raise r.2)
  | .fclass d rd rs1 => .ok (c.wx rd ((fpFmt d).classOp (c.rf d rs1)))
  | .fcvtToInt d w sg rd rs1 rm =>
    c.rounded rm fun m =>
      let r := (fpFmt d).toInt m w sg (c.rf d rs1)
      (c.wx rd (unsign 64 (signed w (unsign w r.1)))).raise r.2
  | .fcvtOfInt d w sg rd rs1 rm =>
    c.rounded rm fun m =>
      c.putF d rd ((fpFmt d).ofInt m (if sg then signed w (x rs1) else (x rs1 % 2 ^ w : Nat)))
  | .fcvtFmt toD rd rs1 rm =>
    c.rounded rm fun m => c.putF toD rd (Fmt.convert (fpFmt !toD) (fpFmt toD) m (c.rf (!toD) rs1))
  | .fmvToX d rd rs1 =>
    .ok (c.wx rd (if d then Sparse.at 0 c.f rs1 else sext 4 (Sparse.at 0 c.f rs1)))
  | .fmvOfX d rd rs1 => .ok (c.wf d rd (x rs1))
  | .ecall => .ok c
  | .ebreak => .ok c
  | .ext _ _ _ _ => .ok c

/-- Whether an instruction has a command of its own. -/
def Rv.own : Rv → Bool
  | .ecall => true
  | .ebreak => true
  | .ext _ _ _ _ => true
  | _ => false

/-- Core `k` ends an instruction of `len` bytes. -/
def State.ran (s : State) (k len : Nat) : Ran → State
  | .ok c => s.setCore k (c.retire len)
  | .jump c t => s.setCore k { c with pc := t, instret := (c.instret + 1) % 2 ^ 64 }
  | .trap kd cs => s.coreTrap k kd cs

/-- SCALAR_INSTRUCTION (R142, R143, R145): core `k` executes the instruction at its pc at module time `now`, its cycle
counter at `cycle`. An illegal encoding and an access against the map raise an exception, which CORE_FAULT takes. The
instructions that have commands of their own are theirs. -/
def execScalarInstruction (k now cycle : Nat) (upset : Option (Nat × Bool)) (s : State) : Res :=
  if 256 ≤ k then .fault (.noSuchCore k)
  else .next <|
    if !s.coreReady k then s
    else match s.fetch k with
      | none => s.coreTrap k kindException 1
      | some (none, _) => s.coreTrap k kindException 2
      | some (some i, len) =>
        if i.own then s
        else
          let a := s.lmUpset k upset
          a.ran k len (a.scalar k now cycle i len)

end Sys2Proof.Machine
end

