-- ==== Sys2Proof/Machine/Thicket.lean ====
section
/-!
DEFINITION. The extension instructions that reach outside a core, and the messages, credits, barriers and transfers
behind them (07 R144, R146, R148 to R160, R174, R175; 08 R194, R196). `k` is a physical core; `now` is module time in ns.
-/

namespace Sys2Proof.Machine

/-! ## Running an instruction -/

/-- Core `k` executes the extension instruction `op` that stands at its pc: `f` is its effect on the registers named. -/
def State.onExt (s : State) (k : Nat) (op : ThOp) (f : State → Nat → Nat → Nat → State) : Res :=
  if 256 ≤ k then .fault (.noSuchCore k)
  else .next <|
    if !s.coreReady k then s
    else match s.fetch k with
      | some (some (.ext o rd rs1 rs2), _) => if o = op then f s rd rs1 rs2 else s
      | _ => s

/-- Core `k`'s instruction returns a value in `rd`, and any wait ends. -/
def State.give (s : State) (k rd v : Nat) : State :=
  s.setCore k { ((s.core k).wx rd v).retire 4 with wait := none }

/-- Core `k` waits at its instruction; a timeout of zero waits without limit (R155). -/
def State.await (s : State) (k now timeout : Nat) (w : CoreWait) : State :=
  s.setCore k { s.core k with wait := some { w with expire := if timeout = 0 then none else some (now / 10 + timeout) } }

/-- The value -1 in a register. -/
abbrev minusOne : Nat := 2 ^ 64 - 1

/-! ## Local memories and the start of a run (R167, R168) -/

/-- The receive rings of logical core `i`, placed from the top of local memory downwards in ascending endpoint order,
endpoint 31 first with BOUNDARY: endpoint, ring; and the lowest offset. `phys` gives the physical core of a logical one. -/
def Prog.rings (g : Prog) (phys : Nat → Nat) (i : Nat) : Sparse Ring × Nat :=
  let start : Sparse Ring × Nat :=
    if g.boundary then ([(31, { base := lmSize - 256, slots := 4, log2 := 6 })], lmSize - 256) else ([], lmSize)
  (List.range 32).foldl (fun a ch =>
    match g.chans.find? fun c => c.dstCore = i && c.dstCh = ch with
    | some c =>
      let base := a.2 - c.slots * 2 ^ c.log2
      (Sparse.insert a.1 ch { base := base, slots := c.slots, log2 := c.log2, srcCore := some (phys c.srcCore, c.srcCh) }, base)
    | none => a) start

/-- The send endpoints of logical core `i`, each with a credit for every slot. -/
def Prog.sends (g : Prog) (phys : Nat → Nat) (i : Nat) : Sparse SendEnd :=
  (g.chans.filter fun c => c.srcCore = i).foldl (fun a c =>
    Sparse.insert a c.srcCh { core := phys c.dstCore, ch := c.dstCh, log2 := c.log2, credits := c.slots }) []

/-- Every local memory of a list of cores is written with zeros, and the cores hold nothing more (R166, R167). -/
def State.wipeCores (s : State) (ks : List Nat) : State :=
  ks.foldl (fun a k => a.setCore k { ecc := (a.core k).ecc }) s

/-- Steps 2 to 4 of R167 on partition `p`, from its kept program: zeros, rings, data. -/
def State.prepare (s : State) (p : Nat) : State :=
  let q := s.part p
  match q.prog with
  | none => s
  | some g =>
    let ks := q.cores
    let phys := fun i => ks.getD i 0
    ks.zipIdx.foldl (fun a e =>
      let r := g.rings phys e.2
      a.setCore e.1 { ecc := (a.core e.1).ecc, mem := Sparse.fill 0#8 [] 0 g.data, top := r.2, ring := r.1,
                      send := g.sends phys e.2 }) s

/-- Every core of partition `p` starts at ENTRY (R168, R181, R191): a0 its logical number, all else fresh. -/
def State.beginRun (s : State) (p : Nat) : State :=
  let q := s.part p
  match q.prog with
  | none => s
  | some g =>
    let a := q.cores.zipIdx.foldl (fun a e =>
      let c := a.core e.1
      a.setCore e.1 { c with run := .running, pc := codeLo + g.entry, x := Sparse.upd 0 [] 10 e.2, f := [], fcsr := 0, tfmt := 0,
                             cvtN := 32, rng := rngSeed ^^^ (e.2 + 1), sendto := 0, instret := 0, resv := none, wait := none,
                             tile := [] }) s
    (a.setPart p { q with start := false, restartAt := none, arrive := [], bseq := 0 }).partEnter p partRunning

/-- A layer changed the words of partition `p`, which is stopped (R173): it is reloaded from the kept image when the new
DIGEST admits that, and starts at the next forecast boundary; otherwise it waits for LOAD. -/
def State.reloadPart (s : State) (p : Nat) : State :=
  let q := s.part p
  let words := s.partRegs p
  let q := { q with words := words, reload := false, faulting := false, restartAt := none, start := false }
  let s := s.setF Reg.TH_PART_STAT_SUSPENDED 0 p
  let digest := (List.range 12).flatMap fun k => leBytes 4 (words.getD (11 + k) 0)
  let a := s.wipeCores (s.part p).cores
  let a := (a.setPart p q).setF Reg.TH_PART_STAT_CORES q.cores.length p
  match q.prog with
  | some g =>
    if bitOf (words.getD 0 0) 31 && (digest.all (fun b => b = 0#8) || digest = g.digest) then
      ((a.prepare p).setPart p { q with start := true }).partEnter p partReady
    else (a.setPart p { q with prog := none, slot := 0, sel := [] }).partEnter p partEmpty
  | none => a.partEnter p partEmpty

/-! ## Ends of a run (R144, R169, R170) -/

/-- Whether a core has a transfer under way. -/
def CoreState.transfers (c : CoreState) : Bool := c.dma.any fun e => match e.2 with
  | some d => !d.complete
  | none => false

/-- Partition `p` shows the end of its stop once no transfer of its cores is under way (R169, R170). -/
def State.stopDone (s : State) (p : Nat) : State :=
  let q := s.part p
  if s.partState p = partStopping && !(q.cores.any fun k => (s.core k).transfers) then
    if q.reload then s.reloadPart p
    else (s.setPart p { q with faulting := false }).partEnter p (if q.faulting then partFaulted else partStopped)
  else s

/-- Every core of partition `p` halts; what is in flight to them and the staged selections are discarded (R169, R195). -/
def State.haltPart (s : State) (p : Nat) : State :=
  let q := s.part p
  let a := q.cores.foldl (fun a k =>
    let c := a.core k
    a.setCore k { c with run := if c.run = .done then .done else .off, wait := none, resv := none,
                         ring := c.ring.map fun e => (e.1, { e.2 with flight := [] }),
                         send := c.send.map fun e => (e.1, { e.2 with back := 0 }) }) s
  a.setPart p { q with sel := [], arrive := [], start := false }

/-- ECALL on core `k` (R144): with a7 zero the core is DONE, and with its last core its partition is STOPPED; any other
ecall is a core fault. -/
def execEcall (k : Nat) (s : State) : Res :=
  if 256 ≤ k then .fault (.noSuchCore k)
  else .next <|
    if s.coreReady k && (match s.fetch k with | some (some i, _) => decide (i = .ecall) | _ => false) then
      if (s.core k).rx 17 = 0 then
        let a := s.setCore k { s.core k with run := .done, resv := none }
        match a.partOf k with
        | none => a
        | some p =>
          if (a.part p).cores.all fun j => (a.core j).run = .done then (a.partEnter p partStopping).stopDone p else a
      else s.coreTrap k kindEcall 0
    else s

/-- EBREAK on core `k` (R144): halts for the debugger while DEBUG_EN is set, else a breakpoint exception. -/
def execEbreak (k : Nat) (s : State) : Res :=
  if 256 ≤ k then .fault (.noSuchCore k)
  else .next <|
    if s.coreReady k && (match s.fetch k with | some (some i, _) => decide (i = .ebreak) | _ => false) then
      match s.partOf k with
      | some p => if (s.part p).cfgBit 27 then s.setCore k { s.core k with run := .debug } else s.coreTrap k kindException 3
      | none => s
    else s

/-- The lowest core of partition `p` that stands at an exception: core, KIND, CAUSE. -/
def State.faultedCore (s : State) (p : Nat) : Option (Nat × Nat × Nat) :=
  (s.part p).cores.findSome? fun k =>
    match (s.core k).run with
    | .fault kd cs => some (k, kd, cs)
    | _ => none

/-- 10 minutes and 100 ms, in ns. -/
abbrev tenMinutes : Nat := 600000000000
abbrev restartDelay : Nat := 100000000

/-- CORE_FAULT of partition `p` at `now` (R170): the whole partition stops, the lowest faulting core is recorded, and
the partition ends FAULTED unless AUTO_RESTART still allows a restart. -/
def execCoreFault (p now : Nat) (s : State) : Res :=
  .next <|
    if s.partState p ≠ partRunning || 16 ≤ p then s
    else match s.faultedCore p with
      | none => s
      | some (k, kd, cs) =>
        let pc := (s.core k).pc
        let q := s.part p
        let recent := q.restarts.filter fun t => now < t + tenMinutes
        let again := q.cfgBit 28 && recent.length < 4
        let a := s.wr (Reg.TH_PART_FAULT.addr p 0) (BitVec.ofNat 32 (k * 2 ^ 24 + kd * 256 + cs))
        let a := (a.set64 Reg.TH_PART_EPC_LO pc p).event 0x0601 p [p, k, kd, cs, pc]
        let a := a.haltPart p
        let a := a.setPart p { a.part p with faulting := !again, restarts := recent,
                                             restartAt := if again then some (now + restartDelay) else none }
        a.partEnter p partStopping

/-! ## Channels (R149 to R153) -/

/-- The address of slot `n` of a receive ring. -/
def Ring.slotAddr (r : Ring) (n : Nat) : Nat := lmBase + r.base + n % r.slots * 2 ^ r.log2

/-- Core `k` sends `len` bytes at `addr` on endpoint `ep`, a credit being there: reads the payload, consumes the credit
and returns SENT. -/
def State.sendNow (s : State) (k ep addr len rd : Nat) : State :=
  let c := s.core k
  let e := c.endAt ep
  let stop (kd cs : Nat) := s.setCore k { c with run := .fault kd cs, wait := none }
  if addr % 8 ≠ 0 then stop kindException 4
  else if !inLocal addr len then stop kindException 5
  else if c.lmBad addr len then stop kindEcc 0
  else
    let src := match s.partOf k with
      | some p => (s.part p).logical k
      | none => 0
    let a := s.setCore k { c with send := Sparse.upd {} c.send ep { e with credits := e.credits - 1, seq := (e.seq + 1) % 2 ^ 32 } }
    let d := a.core e.core
    let r := d.ringAt e.ch
    let a := a.setCore e.core
      { d with ring := Sparse.upd {} d.ring e.ch { r with flight := r.flight ++ [⟨c.lmBytes addr len, src, e.seq⟩] } }
    a.give k rd 0

/-- The status a send returns at once: 2 BAD_CHANNEL, 3 BAD_LENGTH, none to go on; `some none` where a bit of rs2 that is
to be zero is not, for which the spec gives no status. -/
def State.sendCheck (s : State) (k v : Nat) : Option (Option Nat) :=
  let ep := v % 32
  let len := bitsOf v 16 13
  if v ≠ ep + len * 65536 then some none
  else match Sparse.find (s.core k).send ep with
    | none => some (some 2)
    | some e => if len % 8 ≠ 0 || len < 8 || 2 ^ e.log2 < len + 8 then some (some 3) else none

/-- TH_SEND on core `k` at `now` (R151): waits for a credit up to th_sendto. -/
def execThSend (k now : Nat) (upset : Option (Nat × Bool)) (s : State) : Res :=
  s.onExt k .send fun s rd rs1 rs2 =>
    let s := s.lmUpset k upset
    let c := s.core k
    let v := c.rx rs2
    match s.sendCheck k v with
    | some (some code) => s.give k rd code
    | some none => s.give k rd (Config.coreVal 11 v c.instret)
    | none =>
      if 0 < (c.endAt (v % 32)).credits then s.sendNow k (v % 32) (c.rx rs1) (bitsOf v 16 13) rd
      else s.await k now c.sendto { what := .send, arg := v % 32, rd := rd, src := c.rx rs1, len := bitsOf v 16 13 }

/-- TH_SENDNB on core `k` (R151): never waits; NO_CREDIT without a credit. -/
def execThSendnb (k : Nat) (upset : Option (Nat × Bool)) (s : State) : Res :=
  s.onExt k .sendnb fun s rd rs1 rs2 =>
    let s := s.lmUpset k upset
    let c := s.core k
    let v := c.rx rs2
    match s.sendCheck k v with
    | some (some code) => s.give k rd code
    | some none => s.give k rd (Config.coreVal 11 v c.instret)
    | none =>
      if 0 < (c.endAt (v % 32)).credits then s.sendNow k (v % 32) (c.rx rs1) (bitsOf v 16 13) rd
      else s.give k rd 1

/-- Whether receive channel `ch` of a core holds a slot not yet returned. -/
def CoreState.holds (c : CoreState) (ch : Nat) : Bool :=
  ch < 32 && (c.ringAt ch).taken < (c.ringAt ch).arrived

/-- Core `k` takes the oldest slot of channel `ch` not yet returned. -/
def State.takeSlot (s : State) (k ch rd : Nat) : State :=
  let c := s.core k
  let r := c.ringAt ch
  let a := s.setCore k { c with ring := Sparse.upd {} c.ring ch { r with taken := r.taken + 1 } }
  a.give k rd (r.slotAddr r.taken)

/-- The lowest channel of a mask that holds a slot not yet returned. -/
def CoreState.lowest (c : CoreState) (mask : Nat) : Option Nat :=
  (List.range 32).find? fun ch => bitOf mask ch && c.holds ch

/-- TH_RECV on core `k` at `now` (R152). -/
def execThRecv (k now : Nat) (s : State) : Res :=
  s.onExt k .recv fun s rd rs1 rs2 =>
    let c := s.core k
    if c.holds (c.rx rs1) then s.takeSlot k (c.rx rs1) rd
    else s.await k now (c.rx rs2) { what := .recv, arg := c.rx rs1, rd := rd }

/-- TH_PEEK on core `k` (R152). -/
def execThPeek (k : Nat) (s : State) : Res :=
  s.onExt k .peek fun s rd rs1 _ =>
    let c := s.core k
    if c.holds (c.rx rs1) then s.takeSlot k (c.rx rs1) rd else s.give k rd 0

/-- TH_WAIT on core `k` at `now` (R152). -/
def execThWait (k now : Nat) (s : State) : Res :=
  s.onExt k .wait fun s rd rs1 rs2 =>
    let c := s.core k
    match c.lowest (c.rx rs1) with
    | some ch => s.give k rd ch
    | none => s.await k now (c.rx rs2) { what := .wait, arg := c.rx rs1, rd := rd }

/-- TH_RELEASE on core `k` (R152): the oldest returned slot is free and its credit sets out (R150). -/
def execThRelease (k : Nat) (s : State) : Res :=
  s.onExt k .release fun s _ rs1 _ =>
    let c := s.core k
    let ch := c.rx rs1
    let r := c.ringAt ch
    if ch < 32 && r.freed < r.taken then
      let a := s.setCore k { c with ring := Sparse.upd {} c.ring ch { r with freed := r.freed + 1 } }
      let a := match r.srcCore with
        | some (j, ep) =>
          let d := a.core j
          let e := d.endAt ep
          a.setCore j { d with send := Sparse.upd {} d.send ep { e with back := e.back + 1 } }
        | none => a
      a.give k 0 0
    else s.give k 0 0

/-- TH_CREDITS on core `k` (R152). -/
def execThCredits (k : Nat) (s : State) : Res :=
  s.onExt k .credits fun s rd rs1 _ =>
    let c := s.core k
    s.give k rd (if c.rx rs1 < 32 then (c.endAt (c.rx rs1)).credits else 0)

/-- A message lands in the next slot of a ring: header, then payload (R150). -/
def CoreState.land (c : CoreState) (ch : Nat) (m : ChanMsg) : CoreState :=
  let r := c.ringAt ch
  let a := r.slotAddr r.arrived
  let bs := leBytes 2 m.payload.length ++ leBytes 2 m.src ++ leBytes 4 m.seq ++ m.payload
  let c := (c.lmWrite a bs).breakResv a bs.length
  { c with ring := Sparse.upd {} c.ring ch { r with arrived := r.arrived + 1 } }

/-- A core that waits on channel `ch` goes on when the channel holds a slot (R152). -/
def State.wakeRecv (s : State) (k ch : Nat) : State :=
  let c := s.core k
  match c.wait with
  | some w =>
    if w.what = .recv && w.arg = ch then s.takeSlot k ch w.rd
    else if w.what = .wait && bitOf w.arg ch then s.give k w.rd ((c.lowest w.arg).getD ch)
    else s
  | none => s

/-- MESSAGE_ARRIVE at endpoint `ch` of core `k` (R150, R153): the oldest message in flight lands. -/
def execMessageArrive (k ch : Nat) (s : State) : Res :=
  if 256 ≤ k then .fault (.noSuchCore k)
  else .next <|
    let c := s.core k
    let r := c.ringAt ch
    match r.flight with
    | [] => s
    | m :: rest =>
      let c := { c with ring := Sparse.upd {} c.ring ch { r with flight := rest } }
      (s.setCore k (c.land ch m)).wakeRecv k ch

/-- CREDIT_ARRIVE at send endpoint `ep` of core `k` (R150): a waiting th.send goes out. -/
def execCreditArrive (k ep : Nat) (s : State) : Res :=
  if 256 ≤ k then .fault (.noSuchCore k)
  else .next <|
    let c := s.core k
    let e := c.endAt ep
    if e.back = 0 then s
    else
      let a := s.setCore k { c with send := Sparse.upd {} c.send ep { e with back := e.back - 1, credits := e.credits + 1 } }
      match c.wait with
      | some w => if w.what = .send && w.arg = ep then a.sendNow k ep w.src w.len w.rd else a
      | none => a

/-! ## Timeouts (R155, R157) -/

/-- Whether a wait has expired: its time is strictly past, so that what arrives at the deadline wins (01 R16). -/
def CoreWait.expired (w : CoreWait) (now : Nat) : Bool :=
  match w.expire with
  | some t => 10 * t < now
  | none => false

/-- WAIT_TIMEOUT of core `k` at `now` (R155): the instruction returns its timeout result. -/
def execWaitTimeout (k now : Nat) (s : State) : Res :=
  if 256 ≤ k then .fault (.noSuchCore k)
  else .next <|
    match (s.core k).wait with
    | none => s
    | some w =>
      if !w.expired now then s
      else match w.what with
        | .send => s.give k w.rd 4
        | .recv => s.give k w.rd 0
        | .wait => s.give k w.rd minusOne
        | .dma => s.give k w.rd 1
        | .barrier => s

/-! ## Barriers (R156, R157) -/

/-- The members of barrier `b` of a partition as logical cores, none where the table has no entry. -/
def PartState.members (q : PartState) (b : Nat) : Option (List Nat) :=
  match q.prog with
  | some g => (g.bars[b]?).map fun m => (List.range 256).filter fun i => bitOf m i
  | none => none

/-- TH_BARRIER on core `k` at `now` (R156): the last arrival passes the barrier. -/
def execThBarrier (k now : Nat) (s : State) : Res :=
  s.onExt k .barrier fun s rd rs1 rs2 =>
    let c := s.core k
    let b := c.rx rs1
    match s.partOf k with
    | none => s
    | some p =>
      let q := s.part p
      match q.members b with
      | none => s.give k rd 2
      | some ms =>
        if !ms.contains (q.logical k) then s.give k rd 2
        else
          let waiting := Sparse.at [] q.arrive b
          if ms.all fun i => i = q.logical k || waiting.any fun j => q.logical j = i then
            let a := s.setPart p { q with arrive := Sparse.upd [] q.arrive b [] }
            let a := waiting.foldl (fun a j => match (a.core j).wait with
              | some w => a.give j w.rd 0
              | none => a) a
            a.give k rd 0
          else
            let a := s.setPart p { q with arrive := Sparse.upd [] q.arrive b (waiting ++ [k]) }
            a.await k now (c.rx rs2) { what := .barrier, arg := b, rd := rd }

/-- BARRIER_TIMEOUT of core `k` at `now` (R157): it withdraws its arrival and returns TIMEOUT. -/
def execBarrierTimeout (k now : Nat) (s : State) : Res :=
  if 256 ≤ k then .fault (.noSuchCore k)
  else .next <|
    match (s.core k).wait, s.partOf k with
    | some w, some p =>
      if w.what = .barrier && w.expired now then
        let q := s.part p
        let a := s.setPart p { q with arrive := Sparse.upd [] q.arrive w.arg ((Sparse.at [] q.arrive w.arg).filter fun j => j ≠ k) }
        a.give k w.rd 1
      else s
    | _, _ => s

/-! ## Transfers (R158 to R160, R194, R196, R199) -/

/-- The model slot that holds a stack address of the slot range: 32 × partition + 2 × model + slot. -/
def slotOf (a : Nat) : Nat := (a - 0x1200000000) / 0x1000000

/-- Whether the range that a 64-byte block lies in allows a partition's transfer (R199). -/
def State.rangeAllows (s : State) (p : Nat) (write : Bool) (a : Nat) : Bool :=
  match stackRange a with
  | 0 => !write || ((s.desc (a / areaSize)).kind = kindJob && a % areaSize < 0x300000)
  | 1 => !write
  | 6 =>
    let i := slotOf a
    i / 32 = p && (!write || bitOf (s.part p).slot (i % 32 / 2) != decide (i % 2 = 1))
  | 7 => !write
  | 8 => a < stackSize
  | _ => false

/-- Whether some window of a partition holds a 64-byte block and allows the direction (R159). -/
def PartState.windowAllows (q : PartState) (write : Bool) (a : Nat) : Bool :=
  (List.range 8).any fun w =>
    let x := q.word (23 + 2 * w)
    let base := bitsOf x 0 21 * 65536
    bitOf x (if write then 30 else 31) && base ≤ a && a < base + bitsOf (q.word (24 + 2 * w)) 0 21 * 65536

/-- The stack and local addresses of the blocks that a transfer moves, in row order. -/
def Dma.blocks (d : Dma) : List (Nat × Nat) :=
  (List.range d.rows).flatMap fun r => (List.range (d.len / 64)).map fun b =>
    (d.stack + r * d.stackStride + 64 * b, d.localAddr + r * d.localStride + 64 * b)

/-- A descriptor (R158). -/
def readDesc (bs : List Byte) (order : Nat) : Dma :=
  { stack := leAt bs 0 8, localAddr := leAt bs 8 4, len := leAt bs 12 4, write := leAt bs 16 1 = 1, rows := leAt bs 18 2,
    stackStride := leAt bs 20 4, localStride := leAt bs 24 4, code := 0, order := order }

/-- Whether the fields of a descriptor lie within their limits (R158). -/
def descOk (bs : List Byte) : Bool :=
  let d := readDesc bs 0
  d.stack % 64 = 0 && d.localAddr % 64 = 0 && d.len % 64 = 0 && 64 ≤ d.len && d.len ≤ 524288 && leAt bs 16 1 ≤ 1 &&
    leAt bs 17 1 = 0 && 1 ≤ d.rows && d.stackStride % 64 = 0 && d.localStride % 64 = 0 && leAt bs 28 4 = 0

/-- The Hub's check of a whole transfer of core `k` (R159): 0, 2 ACCESS or 3 BAD_DESC. -/
def State.dmaCheck (s : State) (k : Nat) (bs : List Byte) : Nat :=
  let d := readDesc bs 0
  if !descOk bs then 3
  else match s.partOf k with
    | none => 2
    | some p =>
      if d.blocks.all fun b => (s.part p).windowAllows d.write b.1 && s.rangeAllows p d.write b.1 &&
          lmBase ≤ b.2 && b.2 + 64 ≤ lmBase + (s.core k).top then 0 else 2

/-- TH_DMA on core `k` (R158): the transfer starts under its tag. -/
def execThDma (k : Nat) (upset : Option (Nat × Bool)) (s : State) : Res :=
  s.onExt k .dma fun s rd rs1 rs2 =>
    let s := s.lmUpset k upset
    let c := s.core k
    let a := c.rx rs1
    let t := c.rx rs2
    if a % 32 ≠ 0 then s.coreTrap k kindException 4
    else if !inLocal a 32 then s.coreTrap k kindException 5
    else if c.lmBad a 32 then s.coreTrap k kindEcc 0
    else if 16 ≤ t then s.give k rd (Config.coreVal 12 t c.instret)
    else if (Sparse.at none c.dma t).isSome then s.give k rd 1
    else
      let bs := c.lmBytes a 32
      let d := { readDesc bs s.th.issued with code := s.dmaCheck k bs }
      let s := { s with th := { s.th with issued := s.th.issued + 1 } }
      (s.setCore k { c with dma := Sparse.upd none c.dma t (some d) }).give k rd 0

/-- Whether a transfer touches a model slot. -/
def Dma.touches (d : Dma) (slot : Nat) : Bool := d.blocks.any fun b => stackRange b.1 = 6 && slotOf b.1 = slot

/-- Whether a WRITE must wait for a READ of the same slot issued before the boundary at which the slot became
inactive (R196). -/
def State.writeWaits (s : State) (d : Dma) : Bool :=
  d.write && s.th.core.any fun e => e.2.dma.any fun t => match t.2 with
    | some r => !r.write && !r.complete && r.code = 0 && s.th.slotOff.any fun o =>
        r.order < o.2 && r.touches o.1 && d.touches o.1
    | none => false

/-- The blocks of a slot that READs under way name are kept for them when the slot becomes inactive (R196). -/
def State.keepReads (s : State) (slot : Nat) : State :=
  let keep := fun (d : Dma) => if d.write || d.complete || d.code ≠ 0 || !d.touches slot || d.kept ≠ [] then d else
    { d with kept := d.blocks.map fun b => if Sparse.at false s.poison (b.1 / 64) then none else some (s.memBytes b.1 64) }
  { s with th := { s.th with core := s.th.core.map fun e => (e.1, { e.2 with dma := e.2.dma.map fun t => (t.1, t.2.map keep) }) } }

/-- One block of a READ: a poisoned block gives zeros and marks its two local words (R159). `kept` is the block as it was when its slot
became inactive (R196). -/
def State.readBlock (s : State) (k stack localAddr : Nat) (flaw : Flaw) (kept : Option (Option (List Byte))) : State × Bool :=
  let r := s.readCheck (stack / 64) flaw
  let a := r.1
  let c := a.core k
  let gone := match kept with
    | some (some _) => r.2 && !Sparse.at false s.poison (stack / 64)
    | some none => true
    | none => r.2
  if gone then
    let c := (c.lmWrite localAddr (leBytes 64 0)).breakResv localAddr 64
    let w := (localAddr - lmBase) / 32
    (a.setCore k { c with bad := Sparse.upd false (Sparse.upd false c.bad w true) (w + 1) true }, true)
  else (a.setCore k ((c.lmWrite localAddr ((kept.join).getD (a.memBytes stack 64))).breakResv localAddr 64), false)

/-- The bytes of a transfer move; `bad` gives wrong symbols of stack blocks that it reads. The answer tells whether a
block was poisoned. -/
def State.moveBlocks (s : State) (k : Nat) (d : Dma) (bad : List (Nat × Flaw)) : State × Bool :=
  d.blocks.zipIdx.foldl (fun (a : State × Bool) e =>
    let b := e.1
    if d.write then (a.1.stackWrite b.1 ((a.1.core k).lmBytes b.2 64), a.2)
    else
      let r := a.1.readBlock k b.1 b.2 ((Sparse.find bad (b.1 / 64)).getD []) d.kept[e.2]?
      (r.1, a.2 || r.2)) (s, false)

/-- DMA_COMPLETE of a tag of core `k` (R159, R160, R196): the data is moved and the outcome stands under the tag. -/
def execDmaComplete (k tag : Nat) (bad : List (Nat × List (Nat × Nat))) (s : State) : Res :=
  if 256 ≤ k then .fault (.noSuchCore k)
  else .next <|
    match Sparse.at none (s.core k).dma tag with
    | none => s
    | some d =>
      if d.complete || (d.code = 0 && s.writeWaits d) then s
      else
        let r := if d.code = 0 then s.moveBlocks k d bad else (s, false)
        let code := if r.2 then 4 else d.code
        let c := r.1.core k
        let a := r.1.setCore k { c with dma := Sparse.upd none c.dma tag (some { d with code := code, complete := true }) }
        match c.wait with
        | some w =>
          if w.what = .dma && w.arg = tag then
            let e := a.core k
            (a.setCore k { e with dma := Sparse.upd none e.dma tag none }).give k w.rd code
          else a
        | none => a

/-- th.dmawait and th.dmapoll: NO_TAG, or the outcome of a complete transfer, whose tag is then free; `pending` says what
follows while it runs. -/
def State.dmaResult (s : State) (k rd tag : Nat) (pending : State) : State :=
  let c := s.core k
  match Sparse.at none c.dma tag with
  | none => s.give k rd 5
  | some d =>
    if d.complete then (s.setCore k { c with dma := Sparse.upd none c.dma tag none }).give k rd d.code else pending

/-- TH_DMAWAIT on core `k` at `now` (R159). -/
def execThDmawait (k now : Nat) (s : State) : Res :=
  s.onExt k .dmawait fun s rd rs1 rs2 =>
    let c := s.core k
    s.dmaResult k rd (c.rx rs1) (s.await k now (c.rx rs2) { what := .dma, arg := c.rx rs1, rd := rd })

/-- TH_DMAPOLL on core `k` (R159). -/
def execThDmapoll (k : Nat) (s : State) : Res :=
  s.onExt k .dmapoll fun s rd rs1 _ => s.dmaResult k rd ((s.core k).rx rs1) (s.give k rd 1)

/-! ## Publication and slot selection (R148, R174, R175) -/

/-- Points of a lane record: contribution in 0.1 A and confidence. -/
def lanePoints (bs : List Byte) (off n : Nat) : List (Int × Nat) :=
  (List.range n).map fun i => (signed 16 (leAt bs (off + 4 * i + 2) 2), leAt bs (off + 4 * i) 2)

/-- A lane record (R174). -/
def readLane (bs : List Byte) (part : Nat) : LaneRec :=
  { job := leAt bs 0 2, flags := leAt bs 2 2, mean := signed 32 (leAt bs 8 4), period := leAt bs 12 4, base := 0,
    model := leAt bs 24 1, near := lanePoints bs 64 (leAt bs 4 2), far := lanePoints bs 0x2C0 (leAt bs 6 2), part := part }

/-- A record lands in the staging buffer of a lane at `now` (R175): a later one replaces it, and within one cycle the
higher core's governs; a first record after a boundary that expected one counts in LATE. -/
def State.stageLane (s : State) (k lane now : Nat) (r : LaneRec) : State :=
  let l := Sparse.at {} s.wb.lane lane
  let keep := match Sparse.find s.th.pubBy lane with
    | some (t, j) => l.staged.isSome && t = now && k < j
    | none => false
  if keep then s
  else
    let late := l.staged.isNone && l.active.isSome && 0 < l.missed
    let a := { s with wb := { s.wb with lane := Sparse.upd {} s.wb.lane lane { l with staged := some r } },
                      th := { s.th with pubBy := Sparse.insert s.th.pubBy lane (now, k) } }
    if late then (a.bump Reg.TH_LANE_STAT_LATE lane).cause 5 3 else a

/-- TH_PUB on core `k` at `now` (R175). -/
def execThPub (k now : Nat) (upset : Option (Nat × Bool)) (s : State) : Res :=
  s.onExt k .pub fun s rd rs1 rs2 =>
    let s := s.lmUpset k upset
    let c := s.core k
    let a := c.rx rs1
    let lane := c.rx rs2
    match s.partOf k with
    | none => s
    | some p =>
      if !(lane < 64 && bitOf ((s.part p).word (9 + lane / 32)) (lane % 32)) then s.give k rd 1
      else if a % 64 ≠ 0 then s.give k rd 2
      else if !inLocal a 1536 then s.coreTrap k kindException 5
      else if c.lmBad a 1536 then s.coreTrap k kindEcc 0
      else
        let bs := c.lmBytes a 1536
        if 160 < leAt bs 4 2 || 200 < leAt bs 6 2 then s.give k rd 2
        else (s.stageLane k lane now (readLane bs p)).give k rd 0

/-- TH_SLOTSEL on core `k` (R148): stages a selection for the next forecast boundary. -/
def execThSlotsel (k : Nat) (s : State) : Res :=
  s.onExt k .slotsel fun s rd rs1 rs2 =>
    let c := s.core k
    let m := c.rx rs1
    let v := c.rx rs2
    match s.partOf k with
    | none => s
    | some p =>
      if m < 16 && v < 2 then
        let q := s.part p
        (s.setPart p { q with sel := Sparse.upd none q.sel m (some v) }).give k rd 0
      else s.give k rd 1

end Sys2Proof.Machine
end

