-- ==== Sys2Proof/Machine/Tensor.lean ====
section
/-!
DEFINITION. The tensor unit and the conversions of a Thicket core (07 R147; 08 R177 to R191).
-/

namespace Sys2Proof.Machine

/-! ## Accumulator tiles (R147, R182) -/

/-- The first `n` values of `w` bytes each, little-endian. -/
def splitLe (w : Nat) : Nat → List Byte → List Nat
  | 0, _ => []
  | n + 1, bs => ofLe (bs.take w) :: splitLe w n (bs.drop w)

/-- Element (i, j) of accumulator tile `t`. -/
def CoreState.acc (c : CoreState) (t i j : Nat) : Nat := Sparse.at 0 c.tile (256 * t + 16 * i + j)

/-- An accumulator tile takes 256 elements in row order. -/
def CoreState.setAcc (c : CoreState) (t : Nat) (vs : List Nat) : CoreState :=
  { c with tile := Sparse.fill 0 c.tile (256 * t) vs }

/-- Why an access of the tensor unit to local memory cannot be made: misaligned, outside, or (for reads) poisoned. -/
def CoreState.tensorFault (c : CoreState) (a n : Nat) (write : Bool) : Option (Nat × Nat) :=
  if a % 64 ≠ 0 then some (kindException, if write then 6 else 4)
  else if !inLocal a n then some (kindException, if write then 7 else 5)
  else if !write && c.lmBad a n then some (kindEcc, 0)
  else none

/-- TH_TZERO on core `k` (R147). -/
def execThTzero (k : Nat) (s : State) : Res :=
  s.onExt k .tzero fun s t _ _ => (s.setCore k ((s.core k).setAcc t (List.replicate 256 0))).give k 0 0

/-- TH_TLD on core `k` (R147, R182). -/
def execThTld (k : Nat) (upset : Option (Nat × Bool)) (s : State) : Res :=
  s.onExt k .tld fun s t rs1 _ =>
    let s := s.lmUpset k upset
    let c := s.core k
    match c.tensorFault (c.rx rs1) 1024 false with
    | some (kd, cs) => s.coreTrap k kd cs
    | none => (s.setCore k (c.setAcc t (splitLe 4 256 (c.lmBytes (c.rx rs1) 1024)))).give k 0 0

/-- TH_TST on core `k` (R147, R182). -/
def execThTst (k : Nat) (s : State) : Res :=
  s.onExt k .tst fun s t rs1 _ =>
    let c := s.core k
    match c.tensorFault (c.rx rs1) 1024 true with
    | some (kd, cs) => s.coreTrap k kd cs
    | none => (s.setCore k (c.lmWrite (c.rx rs1) ((Sparse.range 0 c.tile (256 * t) 256).flatMap (leBytes 4)))).give k 0 0

/-! ## Matrix products (R181 to R185) -/

/-- th_tfmt's fields; the shifts act within -32 to +31. -/
def tfA (v : Nat) : Nat := bitsOf v 0 4
def tfB (v : Nat) : Nat := bitsOf v 4 4
def tfShift (v : Nat) : Int := clampInt (-32) 31 (signed 8 (bitsOf v 16 8))
def tfCvtShift (v : Nat) : Int := clampInt (-32) 31 (signed 8 (bitsOf v 24 8))

/-- Whether a pair of operand formats is valid (R181). -/
def tfOk (a b : Nat) : Bool := (a ≤ 1 && b ≤ 1) || (a = 2 && b = 2) || (a = 3 && b = 3)

/-- Bytes of an operand element of a format code. -/
def tfSize (f : Nat) : Nat := if f = 2 then 2 else 1

/-- The value of a float operand element of a format code. -/
def tfVal (f bits : Nat) : FVal := if f = 0 then valE4m3 bits else if f = 1 then fmtE5m2.val bits else fmtBf16.val bits

/-- A rounded number with the flags of R185 and R188: UF when the result is subnormal or zero. -/
def Rounded.flags (r : Rounded) : Nat := flagIf r.nx flagNX + flagIf (r.nx && r.small) flagUF

/-- The element that a float product leaves: `c` is the old pattern, the products are in value (R183, R185). -/
def dotFloat (c : Nat) (anyNan : Bool) (prods : List (FVal × Nat)) : Nat × Nat :=
  let vc := fmtS.val c
  let terms := vc :: prods.map Prod.fst
  if anyNan || vc = .nan then (fmtS.nan, 0)
  else if prods.any fun p => p.2 ≠ 0 then (fmtS.nan, flagNV)
  else
    let pos := terms.any fun t => t = .inf false
    let neg := terms.any fun t => t = .inf true
    if pos && neg then (fmtS.nan, flagNV)
    else if pos then (fmtS.infBits, 0)
    else if neg then (fmtS.signBit true + fmtS.infBits, 0)
    else
      let sum : Rat := terms.foldl (fun a t => match t with
        | .num x => a + x
        | _ => a) 0
      if sum = 0 then (fmtS.signBit (terms.all fun t => t = .zero true), 0)
      else
        let r := fmtS.roundMag 0 sum
        let sg := fmtS.signBit (sum < 0)
        if fmtS.infBits ≤ r.mag then (sg + fmtS.infBits, flagOF + flagNX) else (sg + r.mag, r.flags)

/-- The element that an INT8 product leaves (R184, R185). -/
def dotInt (c : Nat) (as bs : List Nat) : Nat × Nat :=
  let sum := (as.zip bs).foldl (fun (a : Int) p => a + signed 8 p.1 * signed 8 p.2) (signed 32 c)
  let r := satSigned 32 sum
  (unsign 32 r, flagIf (r ≠ sum) flagOF)

/-- Row `i`, of 16 elements, of a tile in row order, and column `j`. -/
def rowOf (t : List Nat) (i : Nat) : List Nat := (t.drop (16 * i)).take 16

def colOf (t : List Nat) (j : Nat) : List Nat := (List.range 16).map fun i => t.getD (16 * i + j) 0

/-- One element of a product: the old pattern, the row of A, the column of B. -/
def dotElem (fa fb : Nat) (shift : Int) (c : Nat) (ra cb : List Nat) : Nat × Nat :=
  if fa = 3 then dotInt c ra cb
  else
    let vs := (ra.zip cb).map fun p => (tfVal fa p.1, tfVal fb p.2)
    let prods := vs.map fun v =>
      let m := FVal.mul v.1 v.2
      (match m.1 with
        | .num x => FVal.num (x * pow2 shift)
        | y => y, m.2)
    dotFloat c (vs.any fun v => v.1 = .nan || v.2 = .nan) prods

/-- th.tmma and th.tmma.t on tile `t` with operands at `pa` and `pb`. -/
def State.product (s : State) (k t pa pb : Nat) (transposed : Bool) : State :=
  let c := s.core k
  let fa := tfA c.tfmt
  let fb := tfB c.tfmt
  let n := 256 * tfSize fa
  if !tfOk fa fb then s.coreTrap k kindException 2
  else match c.tensorFault pa n false, c.tensorFault pb n false with
    | some (kd, cs), _ => s.coreTrap k kd cs
    | none, some (kd, cs) => s.coreTrap k kd cs
    | none, none =>
      let a := splitLe (tfSize fa) 256 (c.lmBytes pa n)
      let b := splitLe (tfSize fb) 256 (c.lmBytes pb n)
      let out := (List.range 256).map fun e =>
        dotElem fa fb (tfShift c.tfmt) (c.acc t (e / 16) (e % 16)) (rowOf a (e / 16))
          (if transposed then rowOf b (e % 16) else colOf b (e % 16))
      let fl := out.foldl (fun m o => m ||| o.2) 0
      (s.setCore k ((c.setAcc t (out.map Prod.fst)).raise fl)).give k 0 0

/-- TH_TMMA on core `k` (R183 to R185). -/
def execThTmma (k : Nat) (upset : Option (Nat × Bool)) (s : State) : Res :=
  s.onExt k .tmma fun s t rs1 rs2 =>
    let s := s.lmUpset k upset
    s.product k t ((s.core k).rx rs1) ((s.core k).rx rs2) false

/-- TH_TMMA_T on core `k` (R182 to R185). -/
def execThTmmaT (k : Nat) (upset : Option (Nat × Bool)) (s : State) : Res :=
  s.onExt k .tmmaT fun s t rs1 rs2 =>
    let s := s.lmUpset k upset
    s.product k t ((s.core k).rx rs1) ((s.core k).rx rs2) true

/-! ## The random source (R191) -/

/-- One step of th_rng. -/
def rngStep (v : Nat) : Nat :=
  let m := 2 ^ 64
  let a := v ^^^ (v * 2 ^ 13 % m)
  let b := a ^^^ (a / 2 ^ 7)
  b ^^^ (b * 2 ^ 17 % m)

/-- The random numbers of `n` steps, four a step, and the state after them. -/
def rngRun : Nat → Nat → List Nat × Nat
  | 0, v => ([], v)
  | n + 1, v =>
    let w := rngStep v
    let r := rngRun n w
    (bitsOf w 0 16 :: bitsOf w 16 16 :: bitsOf w 32 16 :: bitsOf w 48 16 :: r.1, r.2)

/-- Whether a magnitude goes to the neighbour above: stochastically with a random number (R190), else to nearest with
ties to even. -/
def goesUp (rnd : Option Nat) (odd : Bool) (frac : Rat) : Bool :=
  match rnd with
  | some r => 65536 ≤ (ratFloor (frac * 65536)).toNat + r
  | none => roundUp 0 false odd frac

/-! ## Narrowing (R188 to R190) -/

/-- A format as a narrowing target: the largest finite magnitude's encoding, what lies beyond it becomes, what ∞
becomes, and the NaN of each sign. -/
structure Narrow where
  fmt : Fmt
  maxMag : Nat
  beyond : Nat
  inf : Nat
  infFlags : Nat
  nanPos : Nat
  nanNeg : Nat

abbrev toE4m3 : Narrow := ⟨fmtE4m3, 0x7E, 0x7E, 0x7E, flagOF + flagNX, 0x7F, 0xFF⟩
abbrev toE5m2 : Narrow := ⟨fmtE5m2, 0x7B, 0x7B, 0x7C, 0, 0x7E, 0xFE⟩
abbrev toBf16 : Narrow := ⟨fmtBf16, 0x7F7F, 0x7F80, 0x7F80, 0, 0x7FC0, 0x7FC0⟩

/-- A value times a power of two. -/
def FVal.scale (v : FVal) (k : Int) : FVal :=
  match v with
  | .num x => .num (x * pow2 k)
  | y => y

/-- A number rounded stochastically to a format: the encoding of its magnitude, and whether it is inexact. -/
def Fmt.stochastic (f : Fmt) (x : Rat) (r : Nat) : Nat × Bool :=
  let a := |x|
  let q := f.quantum a
  let sc := a / pow2 q
  let lo := (ratFloor sc).toNat
  ((q + f.m + f.bias - 1).toNat * 2 ^ f.m + lo + ofBool (goesUp (some r) false (sc - lo)), sc ≠ lo)

/-- One FP32 pattern narrowed to a float format, after scaling: its encoding and flags (R188). -/
def Narrow.run (t : Narrow) (shift : Int) (rnd : Option Nat) (bits : Nat) : Nat × Nat :=
  let f := t.fmt
  let sg := f.signBit (bitOf bits 31)
  match (fmtS.val bits).scale shift with
  | .nan => (if bitOf bits 31 then t.nanNeg else t.nanPos, 0)
  | .inf _ => (sg + t.inf, t.infFlags)
  | .zero _ => (sg, 0)
  | .num x =>
    let near := f.roundMag 0 x
    if t.maxMag < near.mag then (sg + t.beyond, flagOF + flagNX)
    else
      let lim := match f.val t.maxMag with
        | .num m => m
        | _ => 448
      match rnd with
      | some r =>
        if lim < |x| then (sg + near.mag, near.flags)
        else
          let o := f.stochastic x r
          (sg + o.1, flagIf o.2 flagNX + flagIf (o.2 && o.1 < 2 ^ f.m) flagUF)
      | none => (sg + near.mag, near.flags)

/-- One FP32 pattern narrowed to INT8, after scaling (R188). -/
def narrowI8 (shift : Int) (rnd : Option Nat) (bits : Nat) : Nat × Nat :=
  let edge (n : Bool) : Nat := if n then 0x80 else 0x7F
  match (fmtS.val bits).scale shift with
  | .nan => (0, flagNV)
  | .inf n => (edge n, flagNV)
  | .zero _ => (0, 0)
  | .num x =>
    let near := (roundInt 0 x).1
    if near < -128 || 127 < near then (edge (x < 0), flagNV)
    else
      let a := |x|
      let lo := ratFloor a
      let exact := a = lo
      let beyond := if x < 0 then decide (128 < a) else decide (127 < a)
      let m : Int := match rnd with
        | some r => if beyond then |near| else lo + ofBool (goesUp (some r) false (a - lo))
        | none => |near|
      (unsign 8 (if x < 0 then -m else m), flagIf (!exact) flagNX)

/-! ## Q12B blocks (R180, R189) -/

/-- One value of a Q12B block at a shared exponent (R189). -/
structure Q12 where
  /-- The mantissa stored. -/
  mant : Int
  /-- The rounded magnitude of a number. -/
  mag : Int := 0
  sat : Bool := false
  nx : Bool := false
  /-- A number other than zero that became 0. -/
  gone : Bool := false

/-- A value encoded at a shared exponent. -/
def q12Value (exp : Nat) (rnd : Option Nat) (v : FVal) : Q12 :=
  match v with
  | .nan => { mant := -2048 }
  | .inf n => { mant := if n then -2047 else 2047, sat := true }
  | .zero _ => { mant := 0 }
  | .num x =>
    let a := |x| / pow2 ((exp : Int) - 138)
    let lo := ratFloor a
    let m := lo + ofBool (goesUp rnd (lo % 2 ≠ 0) (a - lo))
    let sat := decide (2047 < m) && exp = 254
    let k := if sat then 2047 else m
    { mant := if x < 0 then -k else k, mag := m, sat := sat, nx := a ≠ lo, gone := m = 0 }

/-- A block of 32 values encoded: its 52 bytes and flags. -/
def q12Block (vs : List (FVal × Option Nat)) : List Byte × Nat :=
  let top : Rat := vs.foldl (fun m v => match v.1 with
    | .num x => max m |x|
    | _ => m) 0
  let exp0 : Nat := if top = 0 then 0 else (clampInt 0 254 (ilog2 top + 128)).toNat
  let enc (e : Nat) := vs.map fun v => q12Value e v.2 v.1
  let exp := if exp0 < 254 && (enc exp0).any fun o => o.mag = 2048 then exp0 + 1 else exp0
  let out := enc exp
  let sat := out.any fun o => o.sat
  let nan := vs.any fun v => v.1 = .nan
  let mant := out.zipIdx.foldl (fun m o => m + unsign 12 o.1.mant * 2 ^ (12 * o.2)) 0
  let fl := flagIf (sat || out.any fun o => o.nx) flagNX + flagIf sat flagOF + flagIf (out.any fun o => o.gone) flagUF
  (leBytes 1 exp ++ leBytes 1 (ofBool sat + 2 * ofBool nan) ++ leBytes 2 0 ++ leBytes 48 mant, fl)

/-- The values of a block of 52 bytes as FP32 patterns, and the flags (R187). -/
def q12Decode (bs : List Byte) : List Nat × Nat :=
  let exp := leAt bs 0 1
  let mant := leAt bs 4 48
  if exp = 255 then (List.replicate 32 fmtS.nan, flagNV)
  else ((List.range 32).map fun i =>
    let m := signed 12 (bitsOf mant (12 * i) 12)
    if m = -2048 then fmtS.nan else (fmtS.round 0 (ofExact (m * pow2 ((exp : Int) - 138)) false)).1, 0)

/-- Encodes consecutive groups of 32 values. -/
def q12Encode : Nat → List (FVal × Option Nat) → List Byte × Nat
  | 0, _ => ([], 0)
  | n + 1, vs =>
    let b := q12Block (vs.take 32)
    let r := q12Encode n (vs.drop 32)
    (b.1 ++ r.1, b.2 ||| r.2)

/-- Decodes consecutive blocks. -/
def q12DecodeAll : Nat → List Byte → List Nat × Nat
  | 0, _ => ([], 0)
  | n + 1, bs =>
    let b := q12Decode (bs.take 52)
    let r := q12DecodeAll n (bs.drop 52)
    (b.1 ++ r.1, b.2 ||| r.2)

/-! ## th.cvt (R186, R187) -/

/-- Bytes that `n` elements of a format occupy. -/
def CvtFmt.bytes (f : CvtFmt) (n : Nat) : Nat :=
  match f with
  | .bf16 => 2 * n
  | .q12b => n / 32 * 52
  | _ => n

/-- `n` FP32 patterns narrowed: the bytes and the flags. -/
def narrowAll (f : CvtFmt) (shift : Int) (xs : List (Nat × Option Nat)) : List Byte × Nat :=
  let each (w : Nat) (g : Option Nat → Nat → Nat × Nat) : List Byte × Nat :=
    let os := xs.map fun x => g x.2 x.1
    (os.flatMap fun o => leBytes w o.1, os.foldl (fun m o => m ||| o.2) 0)
  match f with
  | .e4m3 => each 1 (toE4m3.run shift)
  | .e5m2 => each 1 (toE5m2.run shift)
  | .bf16 => each 2 (toBf16.run 0)
  | .i8 => each 1 (narrowI8 shift)
  | .q12b => q12Encode (xs.length / 32) (xs.map fun x => (fmtS.val x.1, x.2))

/-- `n` elements widened to FP32 patterns, and the flags (R187). -/
def widenAll (f : CvtFmt) (shift : Int) (n : Nat) (bs : List Byte) : List Nat × Nat :=
  let exact (v : FVal) : Nat := (fmtS.round 0 (v.scale (-shift))).1
  match f with
  | .e4m3 => ((splitLe 1 n bs).map fun b => exact (valE4m3 b), 0)
  | .e5m2 => ((splitLe 1 n bs).map fun b => exact (fmtE5m2.val b), 0)
  | .bf16 => ((splitLe 2 n bs).map fun b => b * 65536, 0)
  | .i8 => ((splitLe 1 n bs).map fun b => exact (ofExact (signed 8 b) false), 0)
  | .q12b => q12DecodeAll (n / 32) bs

/-- Whether a range of local memory lies below th_lmtop. -/
def CoreState.belowTop (c : CoreState) (a n : Nat) : Bool := lmBase ≤ a && a + n ≤ lmBase + c.top

/-- Why a conversion cannot be made: source, destination, overlap (R186), or a poisoned source. -/
def CoreState.cvtFault (c : CoreState) (src n dst m : Nat) (narrowing : Bool) : Option (Nat × Nat) :=
  if src % 64 ≠ 0 || !c.belowTop src n then some (kindException, 5)
  else if dst % 64 ≠ 0 || !c.belowTop dst m then some (kindException, 7)
  else if src < dst + m && dst < src + n && !(narrowing && src = dst) then some (kindException, 7)
  else if c.lmBad src n then some (kindEcc, 0)
  else none

/-- A narrowing conversion on core `k` from `src` to `dst`. -/
def State.narrow (s : State) (k : Nat) (f : CvtFmt) (stochastic : Bool) (src dst : Nat) : State :=
  let c := s.core k
  let n := c.cvtN
  match c.cvtFault src (4 * n) dst (f.bytes n) true with
  | some (kd, cs) => s.coreTrap k kd cs
  | none =>
    let xs := splitLe 4 n (c.lmBytes src (4 * n))
    let r := rngRun (n / 4) c.rng
    let o := narrowAll f (tfCvtShift c.tfmt) (if stochastic then xs.zip (r.1.map some) else xs.map fun x => (x, none))
    let c := { (c.lmWrite dst o.1).raise o.2 with rng := if stochastic then r.2 else c.rng }
    (s.setCore k c).give k 0 0

/-- A widening conversion on core `k` from `src` to `dst`. -/
def State.widen (s : State) (k : Nat) (f : CvtFmt) (src dst : Nat) : State :=
  let c := s.core k
  let n := c.cvtN
  match c.cvtFault src (f.bytes n) dst (4 * n) false with
  | some (kd, cs) => s.coreTrap k kd cs
  | none =>
    let o := widenAll f (tfCvtShift c.tfmt) n (c.lmBytes src (f.bytes n))
    (s.setCore k ((c.lmWrite dst (o.1.flatMap (leBytes 4))).raise o.2)).give k 0 0

/-- Core `k` executes the narrowing conversion to `f` at its pc, in either rounding. -/
def State.onNarrow (s : State) (k : Nat) (f : CvtFmt) (upset : Option (Nat × Bool)) : Res :=
  if 256 ≤ k then .fault (.noSuchCore k)
  else .next <|
    if !s.coreReady k then s
    else match s.fetch k with
      | some (some (.ext (.narrow g st) _ rs1 rs2), _) =>
        if g = f then
          let a := s.lmUpset k upset
          a.narrow k f st ((a.core k).rx rs1) ((a.core k).rx rs2)
        else s
      | _ => s

/-- Core `k` executes the widening conversion from `f` at its pc. -/
def State.onWiden (s : State) (k : Nat) (f : CvtFmt) (upset : Option (Nat × Bool)) : Res :=
  s.onExt k (.widen f) fun s _ rs1 rs2 =>
    let a := s.lmUpset k upset
    a.widen k f ((a.core k).rx rs1) ((a.core k).rx rs2)

/-- TH_CVT_E4M3_F32 on core `k` (R188). -/
def execThCvtE4m3F32 (k : Nat) (upset : Option (Nat × Bool)) (s : State) : Res := s.onNarrow k .e4m3 upset

/-- TH_CVT_E5M2_F32 on core `k` (R188). -/
def execThCvtE5m2F32 (k : Nat) (upset : Option (Nat × Bool)) (s : State) : Res := s.onNarrow k .e5m2 upset

/-- TH_CVT_BF16_F32 on core `k` (R188). -/
def execThCvtBf16F32 (k : Nat) (upset : Option (Nat × Bool)) (s : State) : Res := s.onNarrow k .bf16 upset

/-- TH_CVT_I8_F32 on core `k` (R188). -/
def execThCvtI8F32 (k : Nat) (upset : Option (Nat × Bool)) (s : State) : Res := s.onNarrow k .i8 upset

/-- TH_CVT_Q12B_F32 on core `k` (R189). -/
def execThCvtQ12bF32 (k : Nat) (upset : Option (Nat × Bool)) (s : State) : Res := s.onNarrow k .q12b upset

/-- TH_CVT_F32_E4M3 on core `k` (R187). -/
def execThCvtF32E4m3 (k : Nat) (upset : Option (Nat × Bool)) (s : State) : Res := s.onWiden k .e4m3 upset

/-- TH_CVT_F32_E5M2 on core `k` (R187). -/
def execThCvtF32E5m2 (k : Nat) (upset : Option (Nat × Bool)) (s : State) : Res := s.onWiden k .e5m2 upset

/-- TH_CVT_F32_BF16 on core `k` (R187). -/
def execThCvtF32Bf16 (k : Nat) (upset : Option (Nat × Bool)) (s : State) : Res := s.onWiden k .bf16 upset

/-- TH_CVT_F32_I8 on core `k` (R187). -/
def execThCvtF32I8 (k : Nat) (upset : Option (Nat × Bool)) (s : State) : Res := s.onWiden k .i8 upset

/-- TH_CVT_F32_Q12B on core `k` (R187). -/
def execThCvtF32Q12b (k : Nat) (upset : Option (Nat × Bool)) (s : State) : Res := s.onWiden k .q12b upset

end Sys2Proof.Machine
end

