-- ==== Sys2Proof/Machine/Part.lean ====
section
/-!
DEFINITION. Partitions of the Thicket array: loading, starting, stopping, restarts, slot selections, boundary messages
and the local-memory windows (07 R162 to R173, R176; 08 R195, R197).
-/

namespace Sys2Proof.Machine

/-! ## Program images (R164 to R166) -/

/-- Entry `n` of a channel table at an offset (R165). -/
def readChan (img : List Byte) (off n : Nat) : Chan :=
  let o := off + 16 * n
  { srcCore := leAt img o 2, srcCh := leAt img (o + 2) 1, dstCh := leAt img (o + 3) 1, dstCore := leAt img (o + 4) 2,
    slots := leAt img (o + 6) 2, log2 := leAt img (o + 8) 1 }

/-- The program that an image holds (R164). -/
def readProg (img : List Byte) : Prog :=
  { entry := leAt img 0x10 4,
    code := slice img (leAt img 0x14 4) (leAt img 0x18 4),
    data := slice img (leAt img 0x1C 4) (leAt img 0x20 4),
    chans := (List.range (leAt img 0x28 2)).map (readChan img (leAt img 0x24 4)),
    bars := (List.range (leAt img 0x2A 2)).map fun b => leAt img (leAt img 0x2C 4 + 32 * b) 32,
    forecast := bitOf (leAt img 0x58 4) 0, boundary := bitOf (leAt img 0x58 4) 1,
    digest := slice img (leAt img 0x5C 4 + 8) 48 }

/-- Check 1 of R166. -/
def progHeaderOk (img : List Byte) (len : Nat) : Bool :=
  let total := leAt img 8 4
  let within (off n : Nat) : Bool := off + n ≤ total
  slice img 0 4 = [0x54, 0x48, 0x50, 0x47] && leAt img 4 2 = 1 && leAt img 6 2 = 128 && 128 ≤ total && total ≤ len &&
    total ≤ 72 * 2 ^ 20 && leAt img 0x14 4 % 64 = 0 && within (leAt img 0x14 4) (leAt img 0x18 4) &&
    within (leAt img 0x1C 4) (leAt img 0x20 4) && within (leAt img 0x24 4) (16 * leAt img 0x28 2) &&
    within (leAt img 0x2C 4) (32 * leAt img 0x2A 2) && leAt img 0x5C 4 % 64 = 0 && within (leAt img 0x5C 4) 160 &&
    leAt img 0x10 4 < leAt img 0x18 4

/-- Check 2 of R166: the signature, under a slot accepted for programs and named in KEY_MASK. -/
def State.progSigned (s : State) (img : List Byte) (mask : Nat) : Bool :=
  let so := leAt img 0x5C 4
  let slot := leAt img (so + 2) 1
  let digest := Config.sha384 (img.take so)
  leAt img so 2 = 1 && leAt img (so + 4) 4 = so && bitOf mask slot && s.vslotMay slot useProgram &&
    slice img (so + 8) 48 = digest && Config.ecdsaVerify (s.vkeyOf slot) (img.take so) (slice img (so + 56) 96)

/-- Check 5 of R166: logical cores of the partition, fields within R165, no endpoint twice. -/
def Prog.chansOk (g : Prog) (cores : Nat) : Bool :=
  g.chans.all (fun c => c.srcCore < cores && c.dstCore < cores && c.srcCh < 32 && c.dstCh < (if g.boundary then 31 else 32) &&
    1 ≤ c.slots && c.slots ≤ 256 && 6 ≤ c.log2 && c.log2 ≤ 12) &&
  (g.chans.map fun c => (c.srcCore, c.srcCh)).Nodup && (g.chans.map fun c => (c.dstCore, c.dstCh)).Nodup

/-- Check 6 of R166: rings and data fit on every core. -/
def Prog.fits (g : Prog) (cores : Nat) : Bool :=
  (List.range cores).all fun i =>
    let rings := (g.chans.filter fun c => c.dstCore = i).foldl (fun n c => n + c.slots * 2 ^ c.log2) 0
    rings + (if g.boundary then 256 else 0) + g.data.length ≤ lmSize

/-- The checks of R166 in order on the configuration words in force: the code of the first that fails, or the program. -/
def State.progCheck (s : State) (q : PartState) (img : List Byte) (len : Nat) : Nat × Option Prog :=
  let g := readProg img
  let digest := (List.range 12).flatMap fun k => leBytes 4 (q.word (11 + k))
  let n := q.cores.length
  if !progHeaderOk img len then (1, none)
  else if !s.progSigned img (bitsOf (q.word 0) 0 8) then (2, none)
  else if !(digest.all (fun b => b = 0#8) || digest = g.digest) then (3, none)
  else if !(leAt img 0x0C 2 ≤ n && n ≤ leAt img 0x0E 2 && (!g.forecast || q.cfgBit 30)) then (4, none)
  else if !g.chansOk n then (6, none)
  else if !g.fits n then (5, none)
  else if 64 * 2 ^ 20 < leAt img 0x18 4 then (7, none)
  else (0, some g)

/-- Whether die `d` runs (R141, R415). -/
def State.dieRuns (s : State) (d : Nat) : Bool := s.runs (23 + 2 * d) && s.runs (24 + 2 * d)

/-- Whether the dies of partition `p`'s cores run. -/
def State.partDies (s : State) (p : Nat) : Bool := (s.part p).cores.all fun k => s.dieRuns (k / 128)

/-! ## Commands of TH_PART_CMD (R163) -/

/-- A command not listed for the present state (R163). -/
def State.partBusy (s : State) (p : Nat) : State := s.setF Reg.TH_PART_STAT_ERROR 8 p

/-- PART_LOAD of partition `p` (R162, R163, R166): its configuration words take effect and the image is checked. -/
def execPartLoad (p : Nat) (s : State) : Res :=
  .next <|
    let st := s.partState p
    if 16 ≤ p then s
    else if !(st = partEmpty || st = partReady || st = partStopped || st = partFaulted) then s.partBusy p
    else if !s.isF Reg.TH_PART_CFG_EN p then s.setF Reg.TH_PART_STAT_ERROR 9 p
    else
      let a := s.wipeCores (s.part p).cores
      let q : PartState := { words := s.partRegs p, restarts := (s.part p).restarts }
      let len := s.getF Reg.TH_PART_LEN p
      let src := s.get64 Reg.TH_PART_SRC_LO p
      let img := if src % 64 = 0 && src + len ≤ stackSize then s.readStack src (min len (72 * 2 ^ 20)) else []
      let r := s.progCheck q img len
      let slot := leAt img (leAt img 0x5C 4 + 2) 1
      let a := if r.1 = 2 && !s.vslotMay slot useProgram then a.misuse slot useProgram else a
      let a := a.setPart p { q with load := some r }
      let a := (a.setF Reg.TH_PART_STAT_CORES q.cores.length p).setF Reg.TH_PART_STAT_SUSPENDED 0 p
      a.partEnter p partLoading

/-- PART_LOAD_COMPLETE of partition `p` (R166 to R168, R197). -/
def execPartLoadComplete (p : Nat) (s : State) : Res :=
  .next <|
    let q := s.part p
    if s.partState p ≠ partLoading then s
    else match q.load with
      | none => s
      | some (code, some g) =>
        let a := s.setPart p { q with load := none, prog := some g, start := q.cfgBit 29 }
        let a := (a.stackWrite (codeArea p) g.code).prepare p
        (a.setF Reg.TH_PART_STAT_ERROR code p).partEnter p partReady
      | some (code, none) =>
        let a := (s.wipeCores q.cores).setPart p { q with load := none }
        (a.setF Reg.TH_PART_STAT_ERROR code p).partEnter p partEmpty

/-- PART_START of partition `p` (R163, R168): it starts at the next forecast boundary. -/
def execPartStart (p : Nat) (s : State) : Res :=
  .next <|
    let st := s.partState p
    let q := s.part p
    if 16 ≤ p then s
    else if st = partReady then s.setPart p { q with start := true }
    else if st = partStopped || st = partFaulted then
      ((s.prepare p).setPart p { q with start := true, restartAt := none }).setF Reg.TH_PART_STAT_SUSPENDED 0 p
    else s.partBusy p

/-- PART_STOP of partition `p` (R163, R169). -/
def execPartStop (p : Nat) (s : State) : Res :=
  .next <|
    let st := s.partState p
    let q := s.part p
    if 16 ≤ p then s
    else if st = partRunning then (s.haltPart p).partEnter p partStopping
    else if st = partReady then (s.setPart p { q with start := false }).partEnter p partStopped
    else if st = partLoading then ((s.wipeCores q.cores).setPart p { q with load := none }).partEnter p partEmpty
    else s.partBusy p

/-- PART_STOP_COMPLETE of partition `p` (R169): its transfers are complete. -/
def execPartStopComplete (p : Nat) (s : State) : Res := .next <| s.stopDone p

/-- PART_UNLOAD of partition `p` (R163, R169, R197). -/
def execPartUnload (p : Nat) (s : State) : Res :=
  .next <|
    let st := s.partState p
    let q := s.part p
    if 16 ≤ p then s
    else if st = partReady || st = partStopped || st = partFaulted then
      let a := (s.wipeCores q.cores).setPart p { words := q.words, restarts := q.restarts }
      (a.setF Reg.TH_PART_STAT_SUSPENDED 0 p).partEnter p partEmpty
    else s.partBusy p

/-- PART_CLEAR of partition `p` (R163). -/
def execPartClear (p : Nat) (s : State) : Res :=
  .next <|
    if 16 ≤ p then s
    else if s.partState p = partFaulted then (s.setF Reg.TH_PART_STAT_ERROR 0 p).partEnter p partStopped
    else s.partBusy p

/-- RESTARTS shows the automatic restarts of the last 10 minutes. -/
def State.showRestarts (s : State) (p now : Nat) : State :=
  let q := s.part p
  let recent := q.restarts.filter fun t => now < t + tenMinutes
  (s.setPart p { q with restarts := recent }).setSat Reg.TH_PART_STAT_RESTARTS recent.length p

/-- PART_AUTO_RESTART of partition `p` at `now` (R170): at a forecast boundary at least 100 ms after the fault. -/
def execPartAutoRestart (p now : Nat) (s : State) : Res :=
  .next <|
    let q := s.part p
    match q.restartAt with
    | none => s
    | some t =>
      if t ≤ now && s.frame % 25 = 0 && s.partState p = partStopped && s.partDies p then
        let a := (s.prepare p).setPart p { q with restarts := q.restarts ++ [now] }
        ((a.beginRun p).showRestarts p now).cause 5 2
      else s

/-- Every RUNNING partition is stopped and suspended (R172). -/
def State.suspendParts (s : State) : State :=
  (List.range 16).foldl (fun a p =>
    if a.partState p = partRunning then
      ((a.haltPart p).partEnter p partStopping).setF Reg.TH_PART_STAT_SUSPENDED 1 p
    else a) s


/-- PART_RESUME (R172): the dies run again and each suspended partition restarts from its kept image. -/
def execPartResume (s : State) : Res :=
  .next <|
    (List.range 16).foldl (fun a p =>
      if a.isF Reg.TH_PART_STAT_SUSPENDED p && a.partState p = partStopped && (a.part p).prog.isSome && a.partDies p then
        let b := a.prepare p
        (b.setPart p { b.part p with start := true }).setF Reg.TH_PART_STAT_SUSPENDED 0 p
      else a) s

/-! ## At a forecast boundary (R168, R176, R195) -/

/-- Whether a WRITE into a model slot is under way. -/
def State.slotWritten (s : State) (slot : Nat) : Bool :=
  s.th.core.any fun e => e.2.dma.any fun t => match t.2 with
    | some d => d.write && !d.complete && d.code = 0 && d.touches slot
    | none => false

/-- Staged selections of partition `p` take effect unless a WRITE into the slot is under way; the models that changed. -/
def State.applySlots (s : State) (p : Nat) : State × Nat :=
  (s.part p).sel.foldl (fun (a : State × Nat) e =>
    match e.2 with
    | none => a
    | some v =>
      let q := a.1.part p
      let done := { q with sel := Sparse.erase q.sel e.1 }
      if bitOf q.slot e.1 = decide (v = 1) then (a.1.setPart p done, a.2)
      else if a.1.slotWritten (32 * p + 2 * e.1 + v) then a
      else
        let b := a.1.setPart p { done with slot := putBit q.slot e.1 (v = 1) }
        let b := b.keepReads (32 * p + 2 * e.1 + (1 - v))
        ({ b with th := { b.th with slotOff := Sparse.upd 0 b.th.slotOff (32 * p + 2 * e.1 + (1 - v)) b.th.issued } },
          a.2 + 2 ^ e.1)) (s, 0)

/-- The boundary message of a partition with BOUNDARY goes to endpoint 31 of every core; a full ring loses it (R176). -/
def State.boundaryMessages (s : State) (p changed : Nat) : State :=
  let q := s.part p
  let g := match q.prog with
    | some g => g.boundary
    | none => false
  if s.partState p = partRunning && g then
    let m : ChanMsg := ⟨leBytes 8 s.frame ++ leBytes 4 s.th.hints ++ leBytes 4 changed ++ leBytes 40 0, 0xFFFF, q.bseq % 2 ^ 32⟩
    let a := q.cores.foldl (fun a k =>
      let c := a.core k
      let r := c.ringAt 31
      if r.arrived - r.freed < r.slots then (a.setCore k (c.land 31 m)).wakeRecv k 31 else a) s
    a.setPart p { a.part p with bseq := q.bseq + 1 }
  else s

/-- What the Thicket array does at the forecast boundary of the present frame, at `now` (R145, R168, R176, R195). -/
def State.thicketBoundary (s : State) (now : Nat) : State :=
  let a := { s with th := { s.th with fcbound := s.frame, fcAt := some s.frame } }
  let a := (List.range 16).foldl (fun a p =>
    let r := a.applySlots p
    let b := (r.1.boundaryMessages p r.2).showRestarts p now
    if (b.part p).start && b.partState p ≠ partRunning && b.partDies p then b.beginRun p else b) a
  { a with th := { a.th with hints := 0 } }

/-! ## The local-memory windows (R171) -/

/-- The partition whose settings a core's window access meets: that in force, or for an EMPTY one the registers'. -/
def State.windowPart (s : State) (n : Nat) : Option Nat :=
  (List.range 16).find? fun p =>
    holdsCore (if s.partState p = partEmpty then s.partRegs p else (s.part p).words) n

/-- Whether the host may reach the local memory of core `n`. -/
def State.windowOpen (s : State) (n : Nat) : Bool :=
  match s.windowPart n with
  | some p =>
    let st := s.partState p
    st = partEmpty || st = partStopped || st = partFaulted || (s.part p).cfgBit 27
  | none => false

/-- An access at byte offset `off` of the window of a die whose mesh runs; a read returns `size` bytes (R3). -/
def State.windowAccess (s : State) (path die off : Nat) (isWrite : Bool) (value : Nat) (size : Nat := 4) : State :=
  let addr := 0x1800000 + 0x1000000 * die + off
  let n := s.getF Reg.TH_LM_SEL_CORE die
  if n / 128 = die && s.windowOpen n then
    let c := s.core n
    if isWrite then (s.setCore n ((c.lmWrite (lmBase + off) (leBytes 4 value)).breakResv (lmBase + off) 4)).emit .accessDone [path, addr, value]
    else s.emit .accessDone [path, addr, ofLe (c.lmBytes (lmBase + off) size)]
  else (s.bump Reg.TH_LM_DENIED die).emit .accessDone [path, addr, 0]

end Sys2Proof.Machine
end

