-- ==== Sys2Proof/Machine/Net.lean ====
section
/-!
DEFINITION. Ethernet frames and what they carry on ETHA (port 0), ETHB (1) and MGMT (2): Ethernet, IPv6, UDP and ICMPv6 as far as
10 R221, R222 and 20 R465 go. A frame is given from its destination address on, without its check sequence. The formats and
checksums are those of the standards the spec names (PRESUMED, log 99).
-/

namespace Sys2Proof.Machine

/-- Whether a port's link is up; MGMT has no link bit. -/
def State.portUp (s : State) (port : Nat) : Bool :=
  if port = 0 then s.isF Reg.HNT_STATUS_LINK_A else if port = 1 then s.isF Reg.HNT_STATUS_LINK_B else true

/-- Whether a frame is one that a port discards and counts: tagged, or over 1,518 bytes (R221). -/
def frameRefused (frame : List Byte) : Bool :=
  1518 < frame.length || beAt frame 12 2 = 0x8100 || beAt frame 12 2 = 0x88A8

/-- The MAC counter of a port counts a frame that it discards (R221). -/
def State.macCount (s : State) (port : Nat) (frame : List Byte) : State :=
  if s.portUp port && frameRefused frame then
    { s with hnt := { s.hnt with macDrops := Sparse.upd 0 s.hnt.macDrops port (Sparse.at 0 s.hnt.macDrops port + 1) } }
  else s

/-- The sum of 16-bit words, most significant byte first, a last odd byte filled with zero. -/
def wordSum : List Byte → Nat
  | a :: b :: r => 256 * a.toNat + b.toNat + wordSum r
  | [a] => 256 * a.toNat
  | [] => 0

/-- A sum with its carries folded into 16 bits. -/
def foldCarry (n : Nat) : Nat :=
  let m := n % 65536 + n / 65536
  m % 65536 + m / 65536

/-- The folded sum over a payload and the pseudo-header that IPv6 puts before it. -/
def ipSum (src dst : List Byte) (next : Nat) (payload : List Byte) : Nat :=
  foldCarry (wordSum (src ++ dst ++ beBytes 4 payload.length ++ beBytes 4 next ++ payload))

/-- An IPv6 packet: source, destination, next header, hop limit, payload. -/
structure Packet where
  src : List Byte
  dst : List Byte
  next : Nat
  hop : Nat
  payload : List Byte
  deriving DecidableEq, Repr

/-- The packet a frame carries, where it carries one. -/
def framePacket (frame : List Byte) : Option Packet :=
  let p := frame.drop 14
  if !frameRefused frame && beAt frame 12 2 = 0x86DD && beAt p 0 1 / 16 = 6 && 40 + beAt p 4 2 ≤ p.length then
    some ⟨slice p 8 16, slice p 24 16, beAt p 6 1, beAt p 7 1, slice p 40 (beAt p 4 2)⟩
  else none

/-- The bytes of a packet. -/
def Packet.bytes (p : Packet) : List Byte :=
  beBytes 4 0x60000000 ++ beBytes 2 p.payload.length ++ beBytes 1 p.next ++ beBytes 1 p.hop ++ p.src ++ p.dst ++ p.payload

/-- The module's link-local address (R222). -/
def State.linkLocal (s : State) : List Byte := beBytes 8 0xFE80000000000000 ++ beBytes 8 (s.get64 Reg.HNT_SELF_ID_LO)

/-- The two addresses of a port (R222; 20 R465). -/
def State.portAddrs (s : State) (port : Nat) : List (List Byte) :=
  [s.linkLocal, if port = 2 then (List.range 4).flatMap fun k => beBytes 4 (s.getF Reg.SYS_MGMT_ADDR k) else Config.unicastAddr]

/-- The rack's and the hall's multicast group (R222; 12 R273). -/
def State.rackGroup (s : State) : List Byte :=
  [Reg.HNT_MCAST0, Reg.HNT_MCAST1, Reg.HNT_MCAST2, Reg.HNT_MCAST3].flatMap fun f => beBytes 4 (s.getF f)
def State.hallGroup (s : State) : List Byte :=
  [Reg.LDG_HALL_GRP0, Reg.LDG_HALL_GRP1, Reg.LDG_HALL_GRP2, Reg.LDG_HALL_GRP3].flatMap fun f => beBytes 4 (s.getF f)

/-- Whether a UDP destination is one the module takes: its own address on the port, or a group it is in. -/
def State.toModule (s : State) (port : Nat) (dst : List Byte) : Bool :=
  dst ∈ s.portAddrs port || (port < 2 && (dst = s.rackGroup || dst = s.hallGroup))

/-- The payload of a UDP datagram to a UDP port of the module, where a frame carries one: no extension header and no fragment,
and the checksum is right (R222). -/
def State.datagram (s : State) (port udpPort : Nat) (frame : List Byte) : Option (List Byte) :=
  match framePacket frame with
  | some p =>
    let u := p.payload
    if p.next = 17 && s.toModule port p.dst && 8 ≤ u.length && beAt u 2 2 = udpPort && beAt u 4 2 = u.length && beAt u 6 2 ≠ 0 &&
        ipSum p.src p.dst 17 u = 0xFFFF then
      some (u.drop 8)
    else none
  | none => none

/-- A frame arrives on a port: the datagram it carries to a UDP port is acted on; any other frame only counts where the MAC
discards it. -/
def State.receive (s : State) (port udpPort : Nat) (frame : List Byte) (act : List Byte → State) : State :=
  match s.datagram port udpPort frame with
  | some m => act m
  | none => s.macCount port frame

/-- UDP ports of the hint protocol and of the ledger (HNT_UDP_PORT). -/
def State.hintPort (s : State) : Nat := s.getF Reg.HNT_UDP_PORT_PORT
def State.ledgerPort (s : State) : Nat := s.getF Reg.HNT_UDP_PORT_LEDGER_PORT

/-- The datagram of a hint protocol message, whose source port is the module's own too (R222). -/
def State.hintDatagram (s : State) (port : Nat) (frame : List Byte) : Option (List Byte) :=
  if (framePacket frame).map (fun p => beAt p.payload 0 2) = some s.hintPort then s.datagram port s.hintPort frame else none

/-- A frame with a hint protocol message arrives on ETHA or ETHB. -/
def State.receiveHint (s : State) (port : Nat) (frame : List Byte) (act : List Byte → State) : State :=
  match s.hintDatagram port frame with
  | some m => act m
  | none => s.macCount port frame

/-- A message leaves on every port whose link is up (R223): its kind, the port, then the UDP port and the rest. -/
def State.emitPorts (s : State) (kind : OutKind) (args : List Nat) : State :=
  let a := if s.isF Reg.HNT_STATUS_LINK_A then s.emit kind (0 :: args) else s
  if s.isF Reg.HNT_STATUS_LINK_B then a.emit kind (1 :: args) else a

/-- What answers an ICMPv6 packet that came to `port` (R222): a neighbour advertisement where the solicited target is an address of
the port, or the echo reply with the request's identifier, number and data, from the address it was sent to. -/
def State.icmpAnswer (s : State) (port : Nat) (p : Packet) : Option Packet :=
  let m := p.payload
  let sealed := fun (src : List Byte) (body : List Byte) =>
    let sum := ipSum src p.src 58 (body.take 2 ++ beBytes 2 0 ++ body.drop 2)
    (⟨src, p.src, 58, 255, body.take 2 ++ beBytes 2 (0xFFFF - sum) ++ body.drop 2⟩ : Packet)
  if p.next ≠ 58 || ipSum p.src p.dst 58 m ≠ 0xFFFF then none
  else if beAt m 0 1 = 135 && p.hop = 255 && 24 ≤ m.length && slice m 8 16 ∈ s.portAddrs port then
    some (sealed (slice m 8 16) (beBytes 2 0x8800 ++ beBytes 4 0x60000000 ++ slice m 8 16))
  else if beAt m 0 1 = 128 && p.dst ∈ s.portAddrs port then some (sealed p.dst (beBytes 2 0x8100 ++ m.drop 4))
  else none

end Sys2Proof.Machine
end

