-- ==== Sys2Proof/Machine/Hint.lean ====
section
/-!
DEFINITION. The partner network (10): message framing and authentication, the checks of arriving messages, partners,
discovery and admission, links and PTP. `now` is module time in ns, `port` 0 is ETHA and 1 ETHB, `frame` an Ethernet frame.
-/

namespace Sys2Proof.Machine

/-! ## Sending (R222 to R225, R237, R238) -/

/-- The module's identifier. -/
def State.selfId (s : State) : Nat := s.get64 Reg.HNT_SELF_ID_LO

/-- The module's time quality (R235). -/
def State.tq (s : State) : Nat := s.getF Reg.HNT_STATUS_TQ

/-- UTC in µs at module time `ns` (18 R422, 14 R340): PTP time less the master's UTC offset. -/
def State.utc (s : State) (ns : Nat) : Nat := ns / 1000 - s.hnt.utcOff * 1000000

/-- Whether some rack port's link is up. -/
def State.netUp (s : State) : Bool := s.isF Reg.HNT_STATUS_LINK_A || s.isF Reg.HNT_STATUS_LINK_B

/-- The rack network key, when its slot may act (R225). -/
def State.rackKey (s : State) : Option (List Byte) :=
  let n := s.getF Reg.HNT_CFG_KEY_SLOT
  if s.sslotMay n useNetHmac then some (s.skeyOf n) else none

/-- The tag of a message under a key (R225). -/
def netTag (key msg : List Byte) : List Byte := (Config.hmacSha256 key msg).take 16

/-- A hint protocol message of a type with its header, and its tag while AUTH_REQ is set (R224, R225). -/
def State.hintMessage (s : State) (typ : Nat) (body : List Byte) : List Byte :=
  let auth := s.isF Reg.HNT_CFG_AUTH_REQ
  let m := beBytes 2 0x4146 ++ beBytes 1 1 ++ beBytes 1 typ ++ beBytes 1 (ofBool auth) ++ beBytes 1 s.tq ++
    beBytes 2 (20 + body.length + if auth then 16 else 0) ++ beBytes 8 s.selfId ++ beBytes 4 s.hnt.seq ++ body
  if auth then m ++ netTag (s.rackKey.getD []) m else m

/-- Whether a hint protocol message can leave: the network is enabled, a link is up, and a key is there where tags are required. -/
def State.speaks (s : State) : Bool :=
  s.isF Reg.HNT_CFG_EN && s.netUp && !(s.isF Reg.HNT_CFG_AUTH_REQ && s.rackKey.isNone)

/-- A hint protocol message goes out, to the rack group or to one partner, on every port whose link is up; each message
takes the next SEQ. -/
def State.hintSend (s : State) (typ : Nat) (dest : Option Nat) (body : List Byte) : State :=
  if s.speaks then
    let m := (s.hintMessage typ body).map BitVec.toNat
    let a := match dest with
      | none => s.emitPorts .hintMulticast (s.hintPort :: (s.rackGroup.map BitVec.toNat ++ m))
      | some id => s.emitPorts .hintUnicast (s.hintPort :: id :: m)
    { a with hnt := { a.hnt with seq := (a.hnt.seq + 1) % 2 ^ 32 } }
  else s

/-- WINDOW and SLOTS in force (HNT_DISC_CFG). -/
def State.discWindow (s : State) : Nat := min 5000 (max 50 (s.getF Reg.HNT_DISC_CFG_WINDOW))
def State.discSlots (s : State) : Nat := min 10000 (max 1 (s.getF Reg.HNT_DISC_CFG_SLOTS))

/-- DISCOVER, to the rack group or to one sender (R237). -/
def State.sendDiscover (s : State) (dest : Option Nat) : State :=
  s.hintSend 5 dest (beBytes 2 (s.getF Reg.HNT_CFG_RACK) ++ beBytes 2 s.discWindow ++ beBytes 2 s.discSlots ++ beBytes 2 0)

/-- A unicast DISCOVER to a sender that is not admitted, at most once per second (R241). -/
def State.askSender (s : State) (id now : Nat) : State :=
  let ok : Bool := match Sparse.find s.hnt.discAt id with
    | some t => decide (t + 1000000000 ≤ now)
    | none => true
  if ok then
    ({ s with hnt := { s.hnt with discAt := Sparse.insert s.hnt.discAt id now } }).sendDiscover (some id)
  else s

/-- Phases of R240. -/
abbrev phaseWait : Nat := 0
abbrev phaseListen : Nat := 1
abbrev phaseRun : Nat := 2

/-- The phase. -/
def State.phase (s : State) : Nat := s.getF Reg.HNT_STATUS_PHASE

/-- The module's own ANNOUNCE (R238, R239): its first and those before the ADMIT point are JOINING, the others PRESENT. -/
def State.sendAnnounce (s : State) : State :=
  let a := s.hintSend 6 none (beBytes 2 (s.getF Reg.HNT_CFG_RACK) ++ beBytes 1 2 ++
    beBytes 1 (ofBool (s.phase = phaseRun && s.hnt.joined)) ++ beBytes 4 s.hnt.incarnation ++ beBytes 2 0 ++
    beBytes 2 (s.getF Reg.SYS_STRAPS_SHELF_ID) ++ beBytes 2 0 ++ beBytes 2 0 ++ beBytes 4 0 ++ Config.unicastAddr)
  { a with hnt := { a.hnt with joined := true } }

/-- The instant of an answer to a DISCOVER heard at `d`, with its window in ms and slots (R239). -/
def State.answerAt (s : State) (d window slots : Nat) : Nat :=
  let n := max 1 slots
  d + 10000000 + crc32c (beBytes 8 s.selfId) % n * (window * 1000000) / n

/-! ## Partners (R240 to R245) -/

abbrev ptEmpty : Nat := 0
abbrev ptAnnounced : Nat := 1
abbrev ptAdmitted : Nat := 2
abbrev ptSilent : Nat := 3
abbrev ptLeft : Nat := 4
abbrev ptRefused : Nat := 5

abbrev rolePackage : Nat := 1
abbrev roleModule : Nat := 2

/-- Partner of table entry `i`. -/
def State.partner (s : State) (i : Nat) : Partner := Sparse.at {} s.hnt.pt i

/-- Partner of entry `i` takes a value. -/
def State.setPartner (s : State) (i : Nat) (p : Partner) : State :=
  { s with hnt := { s.hnt with pt := Sparse.upd {} s.hnt.pt i p } }

/-- State of entry `i`. -/
def State.ptState (s : State) (i : Nat) : Nat := s.getF Reg.HNT_PT_STATE_STATE i

/-- The table entry of a sender. -/
def State.ptFind (s : State) (id : Nat) : Option Nat :=
  (List.range 512).find? fun i => s.ptState i ≠ ptEmpty && s.get64 Reg.HNT_PT_ID_LO i = id

/-- Whether an entry counts as admitted. -/
def State.ptIn (s : State) (i : Nat) : Bool := s.ptState i = ptAdmitted || s.ptState i = ptSilent

/-- ADMITTED shows the partners ADMITTED or SILENT. -/
def State.showAdmitted (s : State) : State :=
  s.setSat Reg.HNT_STATUS_ADMITTED ((List.range 512).filter s.ptIn).length

/-- Entry `i` becomes ADMITTED: its next message is the first under R232. -/
def State.admitPartner (s : State) (i : Nat) : State :=
  let a := s.setPartner i { s.partner i with first := true, bucket := [] }
  (a.setF Reg.HNT_PT_STATE_STATE ptAdmitted i).showAdmitted

/-! ## Checks of arriving messages (R231, R232, R242) -/

/-- A message is dropped under a code of HNT_DROP. -/
def State.hntDrop (s : State) (code : Nat) : State := s.bump Reg.HNT_DROP code

/-- Length of a message of a type without its tag; 0 for no type. -/
def hintLen (typ : Nat) : Nat := [0, 48, 44, 52, 48, 28, 56].getD typ 0

/-- Check 1. -/
def hintFormOk (m : List Byte) : Bool :=
  let typ := beAt m 3 1
  beAt m 0 2 = 0x4146 && beAt m 2 1 = 1 && 1 ≤ typ && typ ≤ 6 && beAt m 6 2 = m.length &&
    m.length = hintLen typ + if bitOf (beAt m 4 1) 0 then 16 else 0

/-- Check 2: whether a valid tag ends a message, when tags are required. -/
def State.tagOk (s : State) (m : List Byte) : Bool :=
  !s.isF Reg.HNT_CFG_AUTH_REQ ||
    (bitOf (beAt m 4 1) 0 && match s.rackKey with
      | some key => m.drop (m.length - 16) = netTag key (m.take (m.length - 16))
      | none => false)

/-- A bucket of `rate` tokens per second and a depth, at `now`: none when it holds no token, else what it holds after one
is taken. A bucket starts full. -/
def takeToken (b : Option (Nat × Nat)) (rate depth now : Nat) : Option (Option (Nat × Nat)) :=
  let have_ := match b with
    | none => depth * 1000000000
    | some (v, t) => min (depth * 1000000000) (v + rate * (now - t))
  if have_ < 1000000000 then none else some (some (have_ - 1000000000, now))

/-- Rate and depth of the bucket of a type; none for the types without one (R242). -/
def State.rateOf (s : State) (typ : Nat) : Option (Nat × Nat) :=
  match typ with
  | 1 => some (max 1 (s.getF Reg.HNT_RATE_HINT_RATE), max 1 (s.getF Reg.HNT_RATE_HINT_DEPTH))
  | 2 => some (max 1 (s.getF Reg.HNT_RATE_TELEM_RATE), max 1 (s.getF Reg.HNT_RATE_TELEM_DEPTH))
  | 3 => some (max 1 (s.getF Reg.HNT_RATE_ACT_RATE), max 1 (s.getF Reg.HNT_RATE_ACT_DEPTH))
  | 6 => some (max 1 (s.getF Reg.HNT_RATE_ANN_RATE), max 1 (s.getF Reg.HNT_RATE_ANN_DEPTH))
  | _ => none

/-- How a sequence number stands to those accepted (R232). -/
inductive SeqClass where
  | first
  | next (skipped : Nat)
  | fill
  | copy
  | duplicate
  deriving DecidableEq, Repr

/-- The class of sequence number `n` of a partner at `now`; `first` when its next message counts as the first. -/
def Partner.seqClass (p : Partner) (first : Bool) (n now : Nat) : SeqClass :=
  match List.find? (fun e => e.1 = n) p.got with
  | some e => if now ≤ e.2.1 + 1000000 then .copy else .duplicate
  | none =>
    if first then .first
    else
      let d := (n + 2 ^ 32 - p.lastSeq) % 2 ^ 32
      if 0 < d && d < 2 ^ 31 then .next (d - 1)
      else if 2 ^ 32 - 32 ≤ d then .fill
      else .duplicate

/-- Whether a message with sequence `n` on `port` is a copy of one accepted on the other port: it takes no token (R242). -/
def Partner.otherPort (p : Partner) (n port : Nat) : Bool := p.got.any fun e => e.1 = n && e.2.2 ≠ port

/-- A partner's message with sequence `n` on `port` is accepted at `now`: LAST_SEQ and the numbers accepted below it. -/
def Partner.accept (p : Partner) (c : SeqClass) (n port now : Nat) : Partner :=
  let last := match c with
    | .fill => p.lastSeq
    | _ => n
  let keep := p.got.filter fun e => (last + 2 ^ 32 - e.1) % 2 ^ 32 ≤ 32
  { p with first := false, lastSeq := last, heard := now, got := (n, now, port) :: (match c with | .first => [] | _ => keep) }

/-- LAST_SEQ and SEQ_GAPS of a STREAM descriptor after a message of a class (R232). -/
def Desc.takeSeq (d : Desc) (c : SeqClass) (n : Nat) : Desc :=
  match c with
  | .fill => { d with seqGaps := d.seqGaps - 1 }
  | .next k => { d with lastSeq := n, seqGaps := (d.seqGaps + k) % 2 ^ 32 }
  | _ => { d with lastSeq := n }

/-- Room in the intake queue (R233) with `queued` messages in it: 1,024 of its 4,096 places are for HINT. -/
def queueRoom (typ queued : Nat) : Bool := if typ = 1 then queued < 4096 else queued < 3072

/-- Check 9 (R227) of a HINT at `now`. The START of a CANCEL is zero (R226) and is no instant. -/
def hintTimeOk (m : List Byte) (now : Nat) : Bool :=
  let t := now / 10
  let start := beAt m 24 8
  let kind := beAt m 22 1
  beAt m 20 2 ≠ 0 && 1 ≤ kind && kind ≤ 5 && beAt m 36 2 ≤ 2000 &&
    (kind = 5 || (t ≤ start + 1000000 && start ≤ t + 6000000000))

/-- The outcome of the checks of R231: the message is dropped, or goes on as one of a partner of the table with the class
of its number, or as one of a sender that is not admitted. -/
inductive Checked where
  | dropped (s : State)
  | member (s : State) (i : Nat) (c : SeqClass)
  | stranger (s : State)

/-- Checks 1 to 10 of R231 on a message of type `typ` that arrives on a port; `queued` messages are in the intake queue.
A message of another type is none of this command's. -/
def State.hintCheck (s : State) (typ port now : Nat) (m : List Byte) (queued : Nat) : Checked :=
  if 2 ≤ port || !s.portUp port || !s.isF Reg.HNT_CFG_EN then .dropped s
  else if !hintFormOk m then .dropped (s.hntDrop 0)
  else if beAt m 3 1 ≠ typ then .dropped s
  else if !s.tagOk m then
    .dropped (if bitOf (beAt m 4 1) 0 && s.rackKey.isNone then (s.hntDrop 1).misuse (8 + s.getF Reg.HNT_CFG_KEY_SLOT) useNetHmac
      else s.hntDrop 1)
  else if s.phase = phaseWait || (s.phase = phaseListen && typ ≤ 4) then .dropped (s.hntDrop 3)
  else
    let id := beAt m 8 8
    let n := beAt m 16 4
    match (s.ptFind id).filter s.ptIn with
    | none =>
      if typ ≤ 4 then .dropped (if typ ≤ 3 then (s.hntDrop 2).askSender id now else s.hntDrop 2)
      else if typ = 6 && !(beAt m 22 1 = rolePackage || beAt m 22 1 = roleModule) then .dropped (s.hntDrop 12)
      else if typ = 5 && (s.ptFind id).any (fun i => s.getF Reg.HNT_PT_STATE_ROLE i = rolePackage) then .dropped (s.hntDrop 12)
      else if s.hnt.heardBy.any (fun e => e.1 = id && e.2.1 = n && e.2.2.1 ≠ port && now ≤ e.2.2.2 + 1000000) then .dropped (s.hntDrop 7)
      else match takeToken (Sparse.at none s.hnt.bucket port) 4000 512 now with
        | none => .dropped (s.hntDrop 5)
        | some b => .stranger { s with hnt := { s.hnt with
            bucket := Sparse.upd none s.hnt.bucket port b
            heardBy := (s.hnt.heardBy.filter fun e => now ≤ e.2.2.2 + 1000000) ++ [(id, n, port, now)] } }
    | some i =>
      let p := s.partner i
      let role := s.getF Reg.HNT_PT_STATE_ROLE i
      let restart := typ = 6 && beAt m 24 4 ≠ p.incarnation
      if (role = rolePackage && (typ = 4 || typ = 5)) || (role = roleModule && typ ≤ 3) then .dropped (s.hntDrop 12)
      else
        let c := if restart then .first else p.seqClass (p.first || s.ptState i = ptSilent) n now
        let tok : Option State := match s.rateOf typ with
          | none => some s
          | some (rate, depth) =>
            if c = .copy && p.otherPort n port then some s
            else (takeToken (Sparse.at none p.bucket typ) rate depth now).map fun b =>
              s.setPartner i { p with bucket := Sparse.upd none p.bucket typ b }
        match tok with
        | none => .dropped (s.hntDrop 5)
        | some a =>
          match c with
          | .copy => .dropped (a.hntDrop 7)
          | .duplicate => .dropped ((a.hntDrop 6).askSender id now)
          | _ =>
            if typ = 1 && s.tq < 2 then .dropped (a.hntDrop 8)
            else if typ = 1 && !hintTimeOk m now then .dropped (a.hntDrop 9)
            else if typ ≤ 3 && !queueRoom typ queued then .dropped (a.hntDrop 10)
            else .member a i c

/-- A message of partner `i` that came to `port` is accepted at `now` (R231, R232, R243). -/
def State.hintAccept (s : State) (i : Nat) (c : SeqClass) (m : List Byte) (port now : Nat) : State :=
  let s := match s.ctxOf kindStream (beAt m 8 8) with
    | some st => s.tellDesc st fun d => d.takeSeq c (beAt m 16 4)
    | none => s
  let a := s.setPartner i ((s.partner i).accept c (beAt m 16 4) port now)
  let a := (a.setF Reg.HNT_PT_STATE_TQ (beAt m 5 1) i).setF Reg.HNT_PT_SEEN 0 i
  if s.ptState i = ptSilent then (a.setF Reg.HNT_PT_STATE_STATE ptAdmitted i).showAdmitted else a

/-- GRANT_RECEIVE on a port (R230, R231): taken only from ADMITTED modules; the module itself applies no grant. -/
def execGrantReceive (port now : Nat) (frame : List Byte) (s : State) : Res :=
  .next <| s.receiveHint port frame fun m => match s.hintCheck 4 port now m 0 with
    | .dropped a => a
    | .stranger a => a
    | .member a i c => a.hintAccept i c m port now

/-- The module's answer to a DISCOVER heard at `now` is scheduled unless one is pending at or after it (R239). -/
def State.scheduleAnswer (s : State) (now : Nat) (m : List Byte) : State :=
  let pending := match s.hnt.annAt with
    | some t => decide (now ≤ t)
    | none => false
  if pending then s
  else { s with hnt := { s.hnt with annAt := some (s.answerAt now (beAt m 22 2) (beAt m 24 2)) } }

/-- DISCOVER_RECEIVE on a port (R231, R239). -/
def execDiscoverReceive (port now : Nat) (frame : List Byte) (s : State) : Res :=
  .next <| s.receiveHint port frame fun m => match s.hintCheck 5 port now m 0 with
    | .dropped a => a
    | .stranger a => a.scheduleAnswer now m
    | .member a i c => (a.hintAccept i c m port now).scheduleAnswer now m

/-- What an ANNOUNCE tells of its sender, in the table entry `i` (R238). -/
def State.takeAnnounce (s : State) (i now : Nat) (m : List Byte) : State :=
  let a := s.setPartner i { s.partner i with
    id := beAt m 8 8, rack := beAt m 20 2, incarnation := beAt m 24 4, shelf := beAt m 30 2, fMin := beAt m 32 2,
    fMax := beAt m 34 2, account := beAt m 36 4, addr := slice m 40 16, heard := now, saysJob := beAt m 28 2 }
  let a := (a.set64 Reg.HNT_PT_ID_LO (beAt m 8 8) i).setF Reg.HNT_PT_STATE_ROLE (beAt m 22 1) i
  (a.setF Reg.HNT_PT_STATE_TQ (beAt m 5 1) i).setF Reg.HNT_PT_SEEN 0 i

/-- The Yew record of a partner's restart (R244). -/
def State.restartSeen (s : State) (i : Nat) (m : List Byte) : State := s.event 0x0801 i [beAt m 8 8, beAt m 24 4]

/-- An ANNOUNCE of a sender that is not admitted (R240, R241, R244): recorded, and after the ADMIT point admitted at once or
refused. LEAVING makes it LEFT. One whose INCARNATION differs from the one recorded marks a restart. -/
def State.announceStranger (s : State) (port now : Nat) (m : List Byte) : State :=
  let entry := match s.ptFind (beAt m 8 8) with
    | some i => some i
    | none => (List.range 512).find? fun i => s.ptState i = ptEmpty
  match entry with
  | none => s
  | some i =>
    let a := s.takeAnnounce i now m
    let a := if s.ptState i ≠ ptEmpty && (s.partner i).incarnation ≠ beAt m 24 4 then a.restartSeen i m else a
    if beAt m 23 1 = 2 then a.setF Reg.HNT_PT_STATE_STATE ptLeft i
    else if s.phase = phaseListen then a.setF Reg.HNT_PT_STATE_STATE ptAnnounced i
    else if beAt m 20 2 = s.getF Reg.HNT_CFG_RACK then
      let b := a.admitPartner i
      b.setPartner i { b.partner i with got := [(beAt m 16 4, now, port)], lastSeq := beAt m 16 4 }
    else a.setF Reg.HNT_PT_STATE_STATE ptRefused i

/-- An ANNOUNCE of an admitted partner (R243, R244): a new INCARNATION marks a restart, LEAVING makes it LEFT.
After a restart E_TOTAL counts from zero, on top of the energy measured before it and not yet attributed (R266). -/
def State.announceMember (s : State) (i : Nat) (c : SeqClass) (port now : Nat) (m : List Byte) : State :=
  let restart := beAt m 24 4 ≠ (s.partner i).incarnation
  let a := (s.hintAccept i c m port now).takeAnnounce i now m
  let a := if restart then
      let p := a.partner i
      let owed := match p.telems.getLast?, p.eBase with
        | some t, some b => (t.energy + 2 ^ 64 - b % 2 ^ 64) % 2 ^ 64
        | _, _ => 0
      (a.setPartner i { p with
        first := true, got := [(beAt m 16 4, now, port)], telems := [], eBase := some ((2 ^ 64 - owed) % 2 ^ 64) }).restartSeen i m
    else a
  if beAt m 23 1 = 2 then (a.setF Reg.HNT_PT_STATE_STATE ptLeft i).showAdmitted else a

/-- ANNOUNCE_RECEIVE on a port (R231, R241 to R244). -/
def execAnnounceReceive (port now : Nat) (frame : List Byte) (s : State) : Res :=
  .next <| s.receiveHint port frame fun m => match s.hintCheck 6 port now m 0 with
    | .dropped a => a
    | .stranger a => a.announceStranger port now m
    | .member a i c => a.announceMember i c port now m

/-- ANNOUNCE_SEND at `now` (R239): the pending ANNOUNCE leaves once it is due and can leave. -/
def execAnnounceSend (now : Nat) (s : State) : Res :=
  .next <| match s.hnt.annAt with
    | some t => if t ≤ now && s.speaks then ({ s with hnt := { s.hnt with annAt := none } }).sendAnnounce else s
    | none => s

/-- PHASE takes a value (R240). -/
def State.enterPhase (s : State) (p : Nat) : State := (s.setF Reg.HNT_STATUS_PHASE p).cause 11 0

/-- PARTNER_LISTEN at `now`, 450 ms after power good or later (R240): DISCOVER goes out and the module's own ANNOUNCE is due at its
slot. -/
def execPartnerListen (now : Nat) (s : State) : Res :=
  .next <|
    if s.phase ≠ phaseWait || now < 450000000 then s
    else
      let a := (s.enterPhase phaseListen).sendDiscover none
      { a with hnt := { a.hnt with listenAt := now, annAt := some (s.answerAt now 500 1000) } }

/-- ADMIT_POINT at `now` (R240): 10 ms, WINDOW and 40 ms after LISTEN. -/
def execAdmitPoint (now : Nat) (s : State) : Res :=
  .next <|
    if s.phase ≠ phaseListen || now < s.hnt.listenAt + (50 + s.discWindow) * 1000000 then s
    else
      let a := (List.range 512).foldl (fun a i =>
        if a.ptState i = ptAnnounced then
          if (a.partner i).rack = s.getF Reg.HNT_CFG_RACK then a.admitPartner i else a.setF Reg.HNT_PT_STATE_STATE ptRefused i
        else a) s
      a.enterPhase phaseRun

/-- PARTNER_SILENT of entry `i` at `now` (R243). -/
def execPartnerSilent (i now : Nat) (s : State) : Res :=
  .next <|
    let ms := max 10 (s.getF Reg.HNT_TIMEOUTS_SILENT_MS)
    if i < 512 && s.ptState i = ptAdmitted && (s.partner i).heard + ms * 1000000 < now then
      (s.setF Reg.HNT_PT_STATE_STATE ptSilent i).setPartner i { s.partner i with silentAt := now }
    else s

/-- PARTNER_LEFT of entry `i` at `now` (R243). -/
def execPartnerLeft (i now : Nat) (s : State) : Res :=
  .next <|
    let sec := max 1 (s.getF Reg.HNT_TIMEOUTS_LOST_S)
    if i < 512 && s.ptState i = ptSilent && (s.partner i).silentAt + sec * 1000000000 < now then
      (s.setF Reg.HNT_PT_STATE_STATE ptLeft i).showAdmitted
    else s

/-- HNT_DISCOVER (R240). -/
def execHntDiscover (s : State) : Res := .next <| s.sendDiscover none

/-- CLEAR_DROPS (R231). -/
def execClearDrops (s : State) : Res := .next <| (List.range 16).foldl (fun a k => a.setF Reg.HNT_DROP 0 k) s

/-- FORGET of entry `i` (R240). -/
def execForget (i : Nat) (s : State) : Res :=
  .next <|
    if i < 512 then
      let a := (s.set64 Reg.HNT_PT_ID_LO 0 i).wr (Reg.HNT_PT_STATE.addr i 0) 0#32
      ((a.setF Reg.HNT_PT_SEEN 0 i).setPartner i {}).showAdmitted
    else s

/-- HNT_PT_SEEN shows the time since each partner's last accepted message, at module time `now`. -/
def State.showSeen (s : State) (now : Nat) : State :=
  s.hnt.pt.foldl (fun a e =>
    if a.ptState e.1 = ptEmpty then a else a.setSat Reg.HNT_PT_SEEN ((now - e.2.heard) / 1000000) e.1) s

/-! ## Links and other packets (R221 to R223) -/

/-- The module's JOINING that has not gone out yet is due at its slot after its link has come up, from LISTEN on (R239, R240). -/
def State.linkAnnounce (s : State) (now : Nat) : State :=
  if s.hnt.joined || s.phase = phaseWait || s.hnt.annAt.any (fun t => now ≤ t) then s
  else { s with hnt := { s.hnt with annAt := some (s.answerAt now 500 1000) } }

/-- ETH_LINK_CHANGE of a port at `now` (R223, R239): the ports are enabled once the image is applied (17 R400). -/
def execEthLinkChange (port : Nat) (up : Bool) (now : Nat) (s : State) : Res :=
  .next <|
    let f := if port = 0 then Reg.HNT_STATUS_LINK_A else Reg.HNT_STATUS_LINK_B
    if 2 ≤ port || s.isF f = up || (up && !(s.cfg.running && s.runs (15 + port))) then s
    else
      let a := (s.setF f (ofBool up)).cause 11 2
      let a := if a.netUp = s.netUp then a else { a with hnt := { a.hnt with netSince := now } }
      if up then a.linkAnnounce now else a

/-- ICMPV6_RECEIVE on ETHA (0), ETHB (1) or MGMT (2) (R222): answered on the same port. -/
def execIcmpv6Receive (port : Nat) (frame : List Byte) (s : State) : Res :=
  .next <|
    if 3 ≤ port || !s.portUp port then s
    else match (framePacket frame).bind (s.icmpAnswer port) with
      | some r => s.emit .icmpAnswer (port :: r.bytes.map BitVec.toNat)
      | none => s.macCount port frame

/-! ## Time (R234, R235) -/

/-- Whether the module aligns its own grid: it holds the lock, or follows no twin (17 R414). -/
def State.ownGrid (s : State) : Bool :=
  let st := s.getF Reg.TWN_STATUS_STATE
  s.isF Reg.TWN_STATUS_LOCK || !(st = 2 || st = 3 || st = 5)

/-- The time quality takes a value (R235); the CC oscillators hold to the frame while it is LOCKED (3) to PTP (03 R60). -/
def State.setTq (s : State) (q : Nat) : State :=
  if s.tq = q then s
  else (((s.setF Reg.HNT_STATUS_TQ q).setF Reg.HNT_PTP_STATUS_TQ q).setF Reg.CLK_STATUS_CC_LOCKED (ofBool (q = 3))).cause 11 1

abbrev tqUnlocked : Nat := 0
abbrev tqAcquiring : Nat := 1
abbrev tqHoldover : Nat := 2
abbrev tqLocked : Nat := 3

/-- LOCKED goes to HOLDOVER at `now`; the Syncs in a row start afresh, and the grid runs on at the last steering (17 R414). -/
def State.enterHoldover (s : State) (now : Nat) : State :=
  let a := (s.setTq tqHoldover).setF Reg.CLK_STATUS_SLEWING 0
  ({ a with hnt := { a.hnt with holdAt := now, badRun := 0 } }).setF Reg.HNT_PTP_STATUS_GOOD_SYNCS 0

/-- The offset of a Sync steers the module's own grid, but in HOLDOVER (17 R414): the steering, 100 ppm at most in either
direction, is a free value, and SLEWING tells of an offset beyond 100 ns. -/
def State.steer (s : State) (offset : Int) : State :=
  if !s.ownGrid || s.tq = tqHoldover then s
  else (s.useFree.setS Reg.CLK_STEER ((s.freeVal 0x414 % 20001 : Nat) - 10000)).setF Reg.CLK_STATUS_SLEWING
    (ofBool (!(-100 ≤ offset && offset ≤ 100)))

/-- The mean path delay of a port in ns after an exchange: a Delay_Req left at `t3` and arrived at the master at `t4`, and the Sync of
this command left at `t1` and arrived at `t2` (R234: the standard's end-to-end mechanism, log 99). -/
def State.pathDelay (s : State) (port t1 t2 : Nat) (delay : Option (Nat × Nat)) : Int :=
  match delay with
  | some (t3, t4) => (((t2 : Int) - t1) + ((t4 : Int) - t3)) / 2
  | none => Sparse.at 0 s.hnt.pathDelay port

/-- The offset from the master in ns that a Sync gives (R234). -/
def State.ptpOffset (s : State) (port t1 t2 : Nat) (delay : Option (Nat × Nat)) : Int :=
  (t2 : Int) - t1 - s.pathDelay port t1 t2 delay

/-- A Delay_Req leaves on a port a quarter of a second after the one before (R234). -/
def State.askDelay (s : State) (port now : Nat) : State :=
  if s.hnt.delayAt.any (fun t => now < t + 250000000) then s
  else ({ s with hnt := { s.hnt with delayAt := some now } }).emit .ptpDelayReq [port]

/-- The end of HOLDOVER_S in ns. -/
def State.holdEnd (s : State) : Nat := s.hnt.holdAt + min 3600 (max 1 (s.getF Reg.HNT_PTP_CFG_HOLDOVER_S)) * 1000000000

/-- PTP_SYNC_RECEIVE of the selected master on a port at `now` (R234, R235; 17 R414): its domain, the instant it left the master and
its time stamp here in ns (two-step and correction applied), and the instants of the Delay_Req exchange ended since the last Sync, if
one did. A Sync at the very end of HOLDOVER_S keeps HOLDOVER, whose time runs anew from it. -/
def execPtpSyncReceive (port now domain t1 t2 : Nat) (delay : Option (Nat × Nat)) (s : State) : Res :=
  .next <|
    if !s.isF Reg.HNT_PTP_STATUS_MASTER || s.getF Reg.HNT_PTP_STATUS_PORT ≠ port || domain ≠ s.getF Reg.HNT_PTP_CFG_DOMAIN ||
      !s.portUp port then s
    else
      let offset := s.ptpOffset port t1 t2 delay
      let a := { s with hnt := { s.hnt with
        lastSync := now, pathDelay := Sparse.upd 0 s.hnt.pathDelay port (s.pathDelay port t1 t2 delay)
        holdAt := if s.tq = tqHoldover && now = s.holdEnd then now else s.hnt.holdAt } }
      let a := a.setS Reg.HNT_PTP_OFFSET (satSigned 32 offset)
      let good := -50 ≤ offset && offset ≤ 50
      let run := if good then min 255 (s.getF Reg.HNT_PTP_STATUS_GOOD_SYNCS + 1) else 0
      let a := a.setF Reg.HNT_PTP_STATUS_GOOD_SYNCS run
      let far := !(-500 ≤ offset && offset ≤ 500)
      let bad := if far then s.hnt.badRun + 1 else 0
      let a := { a with hnt := { a.hnt with badRun := bad } }
      let a := if s.ownGrid && s.isF Reg.CLK_STATUS_COUNTER_SET && !(-1000000000 ≤ offset && offset ≤ 1000000000) &&
            !s.isF Reg.CLK_STATUS_TIME_FAULT then
          (a.setF Reg.CLK_STATUS_TIME_FAULT 1).event 0x0D08 0xFFFF [unsign 64 offset]
        else a
      let a := if s.tq = tqLocked && 4 ≤ bad then a.enterHoldover now
        else if (s.tq = tqAcquiring || s.tq = tqHoldover) && 16 ≤ run then a.setTq tqLocked
        else a
      (a.steer offset).askDelay port now

/-- The order of the standard's data set comparison, smallest best: what of an Announce is compared, then its steps and its port. -/
def annRank (x : PtpAnn) (port : Nat) : List Nat :=
  [x.priority1, x.clockClass, x.accuracy, x.variance, x.priority2, x.identity, x.steps, port]

/-- The Announce of a port that its receipt timeout of three announce intervals has not ended at `now` (R234). -/
def State.master (s : State) (port now : Nat) : Option PtpAnn :=
  match Sparse.at none s.hnt.foreign port with
  | some (x, t) => if now ≤ t + 3 * x.interval then some x else none
  | none => none

/-- The best master across both ports (R234): its port and Announce. -/
def State.bestMaster (s : State) (now : Nat) : Option (Nat × PtpAnn) :=
  match s.master 0 now, s.master 1 now with
  | some x, some y => if annRank x 0 < annRank y 1 then some (0, x) else some (1, y)
  | some x, none => some (0, x)
  | none, some y => some (1, y)
  | none, none => none

/-- The best master is selected, or none is (R235): a selection takes UNLOCKED to ACQUIRING, and the first time after a reset the frame
counter waits to be set (17 R414). -/
def State.selectMaster (s : State) (now : Nat) : State :=
  match s.bestMaster now with
  | none => s.setF Reg.HNT_PTP_STATUS_MASTER 0
  | some (port, x) =>
    let s := { s with hnt := { s.hnt with utcOff := x.utcOffset } }
    let a := (s.setF Reg.HNT_PTP_STATUS_MASTER 1).setF Reg.HNT_PTP_STATUS_PORT port
    if s.tq = tqUnlocked then
      let a := a.setTq tqAcquiring
      { a with hnt := { a.hnt with counterDue := a.hnt.counterDue || !s.isF Reg.CLK_STATUS_COUNTER_SET } }
    else a

/-- Whether the selected master is lost at `now`: its Announce is past its timeout. -/
def State.masterLost (s : State) (now : Nat) : Bool :=
  s.isF Reg.HNT_PTP_STATUS_MASTER && (s.master (s.getF Reg.HNT_PTP_STATUS_PORT) now).isNone

/-- LOCKED time goes to HOLDOVER. -/
def State.loseTime (s : State) (now : Nat) : State := if s.tq = tqLocked then s.enterHoldover now else s

/-- PTP_SYNC_LOSS at `now` (R234, R235): no Sync for 1 s, or the selected master is lost, its Announce being past its timeout; then
the best of those left is selected. -/
def execPtpSyncLoss (now : Nat) (s : State) : Res :=
  .next <|
    if s.masterLost now then (s.loseTime now).selectMaster now
    else if s.hnt.lastSync + 1000000000 < now then s.loseTime now
    else s

/-- HOLDOVER_EXPIRE at `now` (R235): HOLDOVER has lasted HOLDOVER_S. -/
def execHoldoverExpire (now : Nat) (s : State) : Res :=
  .next <| if s.tq = tqHoldover && s.holdEnd < now then s.setTq tqUnlocked else s

/-- PTP_ANNOUNCE_RECEIVE on a port at `now` (R234, R235): an Announce of the module's domain is kept and the best master selected; one
whose selected master is past its timeout first loses it. -/
def execPtpAnnounceReceive (port now : Nat) (announce : PtpAnn) (s : State) : Res :=
  .next <|
    if 2 ≤ port || !s.portUp port || announce.domain ≠ s.getF Reg.HNT_PTP_CFG_DOMAIN then s
    else
      let s := if s.masterLost now then s.loseTime now else s
      ({ s with hnt := { s.hnt with foreign := Sparse.upd none s.hnt.foreign port (some (announce, now)) } }).selectMaster now

end Sys2Proof.Machine
end

