-- ==== Sys2Proof/Machine/Sense.lean ====
section
/-!
DEFINITION. Sense ingress (03): delta-sigma inputs and their clocks, filter tiles, the limit comparator, the SAR
channels, the coulomb counters, calibration and the pack sample instant.
-/

namespace Sys2Proof.Machine

/-! ## Flags of a sample (R56) -/

abbrev flagInvalid : Nat := 1
abbrev flagStale : Nat := 2
abbrev flagNotch : Nat := 4
abbrev flagSat : Nat := 8

/-- Flags joined. -/
def joinFlags (a b : Nat) : Nat := (a ||| b) % 16

/-! ## Calibration (R65) -/

/-- A calibrated sample and whether it saturated: gains Q2.30, offsets signed 24 bits. The spec does not say what GAIN_EFF does at 4 and
beyond: it is used as the product gives it, without bound (DESIGN CHOICE, log 97). -/
def calibrate (fgain ugain : Nat) (foff uoff : Int) (pol : Bool) (x : Int) : Int × Bool :=
  let gain := roundEven (fgain * ugain : Nat) (2 ^ 30)
  let off := satSigned 24 (foff + uoff)
  let x := if pol then -x else x
  let y := roundEven ((x - off) * gain) (2 ^ 30)
  let m := clampInt (-(2 ^ 23 - 1)) (2 ^ 23 - 1) y
  (m, m ≠ y)

/-- Channel `c` calibrates a sample with the settings in force (R65, R67). -/
def State.calChannel (s : State) (c : Nat) (x : Int) : Int × Bool :=
  calibrate (s.getF Reg.SNS_CH_FGAIN c) (s.effF Reg.SNS_CH_UGAIN c)
    (signed 24 (s.getF Reg.SNS_CH_FOFF c)) (signed 24 (s.effF Reg.SNS_CH_UOFF c)) (s.isE Reg.SNS_CH_CFG_POL c) x

/-! ## The sinc and FIR stages (R52, R53) -/

/-- Convolves weights with a box of `n` ones. -/
def boxConv (n : Nat) (w : List Nat) : List Nat :=
  (List.range (w.length + n - 1)).map fun k =>
    ((List.range n).filterMap fun j => if j ≤ k then w[k - j]? else none).foldl (· + ·) 0

/-- The weights of a sinc of an order and a length. -/
def sincWeights (osr : Nat) : Nat → List Nat
  | 0 => [1]
  | k + 1 => boxConv osr (sincWeights osr k)

/-- Samples of a full window of a sinc: order × (OSR − 1) + 1. -/
def sincWindow (order osr : Nat) : Nat := order * (osr - 1) + 1

/-- The weighted mean of the newest window of samples, rounded to nearest with ties to even. -/
def sincMean (order osr : Nat) (xs : List Int) : Int :=
  roundEven ((List.zipWith (fun (w : Nat) x => (w : Int) * x) (sincWeights osr order) xs).foldl (· + ·) 0) (osr ^ order)

/-- OSR of a filter tile; 0 to 2 in OSR_M1 act as 3. -/
def State.ftOsr (s : State) (t : Nat) : Nat := max 3 (s.effF Reg.SNS_FT_CFG_OSR_M1 t) + 1

/-- Order of a filter tile. -/
def State.ftOrder (s : State) (t : Nat) : Nat := s.effF Reg.SNS_FT_CFG_ORDER t + 1

/-- State of filter tile `t`. -/
def State.ft (s : State) (t : Nat) : FtState := Sparse.at {} s.sns.ft t

/-- Filter tile `t` takes a state. -/
def State.setFt (s : State) (t : Nat) (x : FtState) : State := { s with sns := { s.sns with ft := Sparse.upd {} s.sns.ft t x } }

/-- Whether DS or AD channel `c` is in use: enabled, and not a free resource (02 R41). -/
def State.channelOn (s : State) (c : Nat) : Bool := s.isE Reg.SNS_CH_CFG_ENABLE c && s.owned (0x140 + c)

/-- Whether filter tile `t` runs: enabled, with an input that exists and is enabled. -/
def State.ftRuns (s : State) (t : Nat) : Bool :=
  let i := s.effF Reg.SNS_FT_CFG_INPUT t
  s.isE Reg.SNS_FT_CFG_ENABLE t &&
    (if i < 40 then s.channelOn i else i = 40 || i = 41 || (64 ≤ i && i < 112))

/-- A sample of input `src` (0 to 41 a channel, 64 + t a filter tile) reaches every tile fed by it. -/
def State.feedTiles (s : State) (src : Nat) (x : Int × Nat) : State :=
  (List.range 48).foldl (fun a t =>
    if a.ftRuns t && a.effF Reg.SNS_FT_CFG_INPUT t = src then
      let f := a.ft t
      a.setFt t { f with hist := (x :: f.hist).take (sincWindow (a.ftOrder t) (a.ftOsr t)) }
    else a) s

/-- Filter tile `t` publishes a sample whose window ends at `end16` and that was due at `due` (R55, R56): its register, then the tiles it
feeds. -/
def State.publish (s : State) (t : Nat) (v : Int) (flags end16 due : Nat) : State :=
  let f := s.ft t
  let endNs := end16 / 16
  let a := s.setFt t { f with
    out := some (v, flags), valid := if bitOf flags 0 || bitOf flags 1 then f.valid else some (v, flags), endNs := endNs,
    stamp := some (end16, due) }
  let a := a.setS Reg.SNS_FT_OUT_VALUE v t
  let a := a.setF Reg.SNS_FT_OUT_INVALID (ofBool (bitOf flags 0)) t
  let a := a.setF Reg.SNS_FT_OUT_STALE (ofBool (bitOf flags 1)) t
  let a := a.setF Reg.SNS_FT_OUT_NOTCH (ofBool (bitOf flags 2)) t
  let a := a.setF Reg.SNS_FT_OUT_SAT (ofBool (bitOf flags 3)) t
  let a := (a.setFt t { a.ft t with restarted := false }).capture t endNs (captureWord v flags) (bitOf flags 0)
  a.feedTiles (64 + t) (v, flags)

/-- SNS_STATUS and its interrupt follow SNS_FAULT_DS and SNS_FAULT_OTH. -/
def State.snsStatus (s : State) : State :=
  let any := s.getF Reg.SNS_FAULT_DS ≠ 0 || s.getF Reg.SNS_FAULT_OTH ≠ 0
  let was := s.isF Reg.SNS_STATUS_FAULT
  (s.setF Reg.SNS_STATUS_FAULT (ofBool any)).causeIf (any && !was) 1 0

/-- One output of the FIR stage: Q1.22 coefficients, a 48-bit accumulator, rounded and saturated (R52). -/
def firOut (coef : List Int) (xs : List Int) : Int × Bool :=
  let acc := signed 48 (unsign 48 ((List.zipWith (· * ·) coef xs).foldl (· + ·) 0))
  let y := roundEven acc (2 ^ 22)
  let m := clampInt (-(2 ^ 23 - 1)) (2 ^ 23 - 1) y
  (m, m ≠ y)

/-- The coefficients of a tile's FIR stage, tap 0 first. -/
def State.ftCoefs (s : State) (t taps : Nat) : List Int := (List.range taps).map fun i => signed 24 (s.effF Reg.SNS_FT_COEF t i)

/-- The trigger of a filter tile or an AD channel (R54): SRC, LANE, COUNT, OFFSET. -/
structure Trigger where
  src : Nat
  lane : Nat
  count : Nat
  offset : Int
  deriving DecidableEq, Repr

/-- The trigger that a word of SNS_FT_TRIG or SNS_CH_TRIG holds. -/
def triggerOf (w : Nat) : Trigger := ⟨bitsOf w 29 3, bitsOf w 23 6, min 20 (bitsOf w 18 5), signed 16 (bitsOf w 0 16)⟩

/-- Event `k` of a frame with `n` FREE events, in steps after the boundary: to nearest with ties to even (R54). -/
def freeEvent (n k : Nat) : Int := roundEven (k * 160000 : Nat) n

/-- Whether lane `n` gives events: STARTING, RUN or HELD with no restart pending (05 R102, R108). -/
def State.laneGives (s : State) (n : Nat) : Bool :=
  let st := s.getF Reg.PWM_LANE_STAT_STATE n
  (st = 1 || st = 2 || st = 5) && (Sparse.at ({} : LaneState) s.pwm.lane n).readd.isNone

/-- Whether the instant `t` (OFFSET taken off) is a period start (`mid` false) or a midpoint of lane `n` for an event at `at16`: of one of
its latest periods, or, where a negative OFFSET sets the event before its period, of one that the present period foretells (DEDUCED). -/
def State.laneEvent (s : State) (n : Nat) (mid : Bool) (t : Int) (at16 : Nat) : Bool :=
  let x := Sparse.at ({} : LaneState) s.pwm.lane n
  x.events.any (fun e => t = if mid then e.2 else e.1) ||
    match x.events.head? with
    | some e =>
      let from_ : Int := if mid then e.2 else e.1
      from_ < t && (t - from_) % x.per = 0 && (at16 : Int) < t - from_ + e.1
    | none => false

/-- Whether `at16` (62.5 ps steps) is an event instant of a trigger (R54). -/
def State.isEvent (s : State) (g : Trigger) (at16 : Nat) : Bool :=
  let t : Int := at16 - 16 * g.offset
  match g.src with
  | 0 => s.counting && 16 * (s.frameBase : Int) ≤ t && (List.range g.count).any fun k => s.frameRest t = freeEvent g.count k
  | 1 => s.counting && 16 * (s.frameBase : Int) ≤ t && s.frameRest t = 0
  | 2 => s.laneGives g.lane && s.laneEvent g.lane false t at16
  | 3 => s.laneGives g.lane && s.laneEvent g.lane true t at16
  | 4 => match s.sns.ts with | some ts => t = 16 * (ts : Int) | none => false
  | _ => false

/-! ## Clock groups (R46, R47) -/

/-- Whether the clock group's FREQ is one the module knows (R47). -/
def State.groupFreqOk (s : State) (g : Nat) : Bool := s.effF Reg.SNS_GRP_CFG_FREQ g < 6

/-- The modulator clock's period by FREQ, in 62.5 ps steps (R47). -/
def freqPeriod (f : Nat) : Nat :=
  match f with | 0 => 640 | 1 => 800 | 2 => 1280 | 3 => 1600 | 4 => 2000 | _ => 3200

/-- The enabled channels of a clock group. -/
def State.groupChannels (s : State) (g : Nat) : List Nat :=
  ((List.range 4).map fun k => 4 * g + k).filter fun n => s.isE Reg.SNS_CH_CFG_ENABLE n

/-- Whether the module itself clocks group `g`: DRIVEN, with TWIN_LOCK held (R46). -/
def State.ownClock (s : State) (g : Nat) : Bool := !s.isE Reg.SNS_GRP_CFG_MODE g && s.isF Reg.TWN_STATUS_LOCK

/-- Whether clock group `g` has a clock (R46, R47). -/
def State.groupClocked (s : State) (g : Nat) : Bool := s.groupFreqOk g && (s.ownClock g || !bitOf s.sns.noClock g)

/-- What DSCLKg carries: the period in steps of the clock that the module drives, none while it drives nothing (R46, R47, 15 R355). -/
def State.dsClk (s : State) (g : Nat) : Option Nat :=
  if s.ownClock g && s.isE Reg.SNS_GRP_CFG_CLK_EN g && s.groupFreqOk g && s.groupChannels g ≠ [] then
    some (freqPeriod (s.effF Reg.SNS_GRP_CFG_FREQ g))
  else none

/-- The SENSE domains run while their group is enabled and has a clock (R46, 17 R415); the clock of one that starts is measured. -/
def State.senseDomains (s : State) : State :=
  (List.range 8).foldl (fun (a : State) g =>
    let on := a.groupChannels g ≠ [] && a.groupClocked g
    let b := a.setRuns (3 + g) on
    if on && !a.runs (3 + g) then (b.useFree.setF Reg.SNS_GRP_CFG_MEAS_KHZ (b.freeVal 1) g) else b) s

/-- An edge arrives at DSCLKg: a domain that stopped for want of a clock runs again (R46). -/
def State.edgeArrives (s : State) (g : Nat) : State :=
  if bitOf s.sns.noClock g then
    ({ s with sns := { s.sns with noClock := putBit s.sns.noClock g false } }).senseDomains
  else s

/-- From an event of a DS tile to the first capture edge of channel `c`, in steps, where the module's own clock captures it: the divided
clock has an edge at every frame boundary, delayed by CAPT_DLY and taken as CAPT_EDGE says (R47, R48, R54). -/
def State.toCapture (s : State) (c at16 : Nat) : Nat :=
  let per := freqPeriod (s.effF Reg.SNS_GRP_CFG_FREQ (c / 4))
  let first : Int := 16 * s.frameBase + 16 * s.effF Reg.SNS_CH_CFG_CAPT_DLY c +
    if s.isE Reg.SNS_CH_CFG_CAPT_EDGE c then per / 2 else 0
  ((first - at16) % per).toNat

/-- The first event of a trigger at or after an instant, in steps, as the settings and the lane's latest period foretell it (R54). -/
def State.nextEvent (s : State) (g : Trigger) (from16 : Int) : Option Int :=
  let t := from16 - 16 * g.offset
  let b := t - s.frameRest t
  let after := fun (x : Int) => ((List.range g.count).map (fun k => b + freeEvent g.count k) ++ [b + 160000]).find? (x ≤ ·)
  let lane := Sparse.at ({} : LaneState) s.pwm.lane g.lane
  let grid := fun (x : Int) => if t ≤ x then x else x + (t - x + lane.per - 1) / lane.per * lane.per
  let e : Option Int :=
    match g.src with
    | 0 => if g.count = 0 then none else after t
    | 1 => some (if s.frameRest t = 0 then t else b + 160000)
    | 2 => lane.events.head?.map fun x => grid x.1
    | 3 => lane.events.head?.map fun x => grid x.2
    | 4 => s.sns.ts.bind fun x => if t ≤ 16 * (x : Int) then some (16 * x) else none
    | _ => none
  e.map (· + 16 * g.offset)

/-- The due instant that belongs to the first event at or after `from16` whose due instant, by `due`, lies at or after `e` (04). -/
def State.dueFrom (s : State) (due : Nat → Nat) (g : Trigger) (e : Nat) : Nat → Int → Nat
  | 0, _ => e
  | n + 1, from16 =>
    match s.nextEvent g from16 with
    | none => e
    | some x => if e ≤ due x.toNat then due x.toNat else s.dueFrom due g e n (x + 1)

/-- The trigger of filter tile `t`. -/
def State.ftTrigger (s : State) (t : Nat) : Trigger := triggerOf (s.effF Reg.SNS_FT_TRIG t)

/-- The trigger of AD channel `k`. -/
def State.adTrigger (s : State) (k : Nat) : Trigger := triggerOf (s.effF Reg.SNS_CH_TRIG (32 + k))

/-- The due instant of the sample that event `e` of filter tile `t` promises, in steps (04, Late and bad inputs): the window end for a
DRIVEN group, a period of FREQ for a RECEIVED one, for a tile fed by a tile the due instant of the sample it waits for; 2 ns for each FIR
tap more. A chain of tiles is followed to its channel. -/
def State.ftDue (s : State) : Nat → Nat → Nat → Nat
  | 0, _, e => e
  | n + 1, t, e =>
    let src := s.effF Reg.SNS_FT_CFG_INPUT t
    let base :=
      if src < 32 then
        if s.isE Reg.SNS_GRP_CFG_MODE (src / 4) then e + freqPeriod (s.effF Reg.SNS_GRP_CFG_FREQ (src / 4)) else e + s.toCapture src e
      else if 64 ≤ src && src < 112 then
        s.dueFrom (s.ftDue n (src - 64)) (s.ftTrigger (src - 64)) e 20 ((e : Int) - 8000)
      else e
    base + if s.isE Reg.SNS_FT_CFG_FIR_EN t then 32 * (s.effF Reg.SNS_FT_CFG_FIR_TAPS t + 1) else 0

/-- Whether a window from `a` to `b` (steps) overlaps the last notch that opened (R56). -/
def State.meetsNotch (s : State) (a b : Int) : Bool :=
  match s.pwm.notchSpan with
  | some (t0, t1) => a < t1 && t0 < b
  | none => false

/-! ## Filter tiles at work (R52 to R56) -/

/-- FILTER_TRIGGER of tile `t` at `at16` (62.5 ps steps): an instant that is no event of its trigger changes nothing. `bits` are the
bits of a DS input since the last event, oldest first. `edge` and `span`, in steps, give the window end after the event and the window's
length where the clock is not the module's own; `stale` tells whether the crossing out of the channel's SENSE domain failed (R56); the
input of another tile crosses nowhere. Where a tile has no valid sample yet, the value published with INVALID is 0; tap 0 of the FIR
stage multiplies the newest sinc output (both DESIGN CHOICE, log 97). -/
def execFilterTrigger (t at16 : Nat) (bits : List Bool) (edge span : Nat) (stale : Bool) (s : State) : Res :=
  .next <|
    let src := s.effF Reg.SNS_FT_CFG_INPUT t
    let ds : Bool := src < 32
    let trig := s.ftTrigger t
    if !s.ftRuns t || (ds && !s.groupFreqOk (src / 4)) || !s.isEvent trig at16 then s
    else
      let s := if ds && bits ≠ [] then s.edgeArrives (src / 4) else s
      let own := ds && s.ownClock (src / 4)
      let order := s.ftOrder t
      let osr := s.ftOsr t
      let win := sincWindow order osr
      let end16 := at16 + if own then s.toCapture src at16 else edge
      let span := if own then (win - 1) * freqPeriod (s.effF Reg.SNS_GRP_CFG_FREQ (src / 4)) else span
      let notch := ds && s.meetsNotch ((end16 : Int) - span) end16
      let f := s.ft t
      let new := bits.reverse.map fun b => ((if b then 2 ^ 23 else -(2 ^ 23) : Int), 0)
      let hist := if ds then (new ++ f.hist).take win else f.hist
      let fir := s.isE Reg.SNS_FT_CFG_FIR_EN t
      let taps := s.effF Reg.SNS_FT_CFG_FIR_TAPS t + 1
      let dec := s.effF Reg.SNS_FT_CFG_FIR_DEC t + 1
      let late : Bool := match f.last with | some k => decide (at16 < k + 8000) | none => false
      let primed := win ≤ hist.length && (!fir || taps ≤ f.fir.length + 1)
      let s := s.setFt t { f with hist := hist }
      if hist.length < win then s
      else if late then if primed then (s.setF Reg.SNS_FT_STAT_SKIP 1 t).captureSkip t else s
      else
        let bad := ds && (bitOf s.sns.stuck src || bitOf s.sns.loss src)
        let mean := sincMean order osr (hist.map (·.1))
        let norm := clampInt (-(2 ^ 23 - 1)) (2 ^ 23 - 1) mean
        let cal := if ds then s.calChannel src norm else (norm, false)
        let sat := norm ≠ mean || cal.2
        let inFlags := (hist.map (·.2)).foldl joinFlags (if notch then flagNotch else 0)
        let flags := joinFlags inFlags (if sat then flagSat else 0)
        let s := if ds && cal.2 then s.setF Reg.SNS_CH_STAT_SAT 1 src else s
        let f := { s.ft t with last := some at16, count := f.count + 1, fir := ((cal.1, flags) :: f.fir).take taps }
        let s := s.setFt t f
        let res := if fir then firOut (s.ftCoefs t taps) (f.fir.map (·.1)) else (cal.1, false)
        let outFlags := if fir then joinFlags ((f.fir.map (·.2)).foldl joinFlags 0) (if res.2 then flagSat else 0) else flags
        let s := if bitOf outFlags 3 then s.setF Reg.SNS_FT_STAT_SAT 1 t else s
        if fir && (f.fir.length < taps || f.count % dec ≠ 0) then s
        else
          let fails := ds && stale
          let s := if fails then s.crossingFailed (3 + src / 4) else s
          let out :=
            if bad then let v := f.valid.getD (0, 0); (v.1, joinFlags v.2 (flagInvalid + if fails then flagStale else 0))
            else if fails then let v := f.out.getD (0, 0); (v.1, joinFlags v.2 flagStale)
            else (res.1, outFlags)
          let s := if trig.src = 4 then { s with sns := { s.sns with packRec := Sparse.insert s.sns.packRec t out } } else s
          s.publish t out.1 out.2 end16 (s.ftDue 48 t at16)

/-- The limit comparator evaluates an input sample (R57): a bit of a DS channel as 0 or 1, else the sample. While CMP_EN is clear HIGH and
LOW keep their last levels (DESIGN CHOICE, log 97). -/
def execLimitComparator (t : Nat) (x : Int) (s : State) : Res :=
  .next <|
    let src := s.effF Reg.SNS_FT_CFG_INPUT t
    if !(s.ftRuns t && s.isE Reg.SNS_FT_CMP_CFG_CMP_EN t) || (src < 32 && !s.groupFreqOk (src / 4)) then s
    else
      let s := if src < 32 then s.edgeArrives (src / 4) else s
      let osr := max 4 (s.effF Reg.SNS_FT_CMP_CFG_CMP_OSR t)
      let v : Int := if src < 32 then (if x = 0 then -(2 ^ 23) else 2 ^ 23) else x
      let f := s.ft t
      let hist := (v :: f.cmp).take (sincWindow 2 osr)
      if hist.length < sincWindow 2 osr then s.setFt t { f with cmp := hist }
      else
        let norm := clampInt (-(2 ^ 23 - 1)) (2 ^ 23 - 1) (sincMean 2 osr hist)
        let y := if src < 32 then (s.calChannel src norm).1 else norm
        s.setFt t { f with cmp := hist, high := s.effS Reg.SNS_FT_CMP_HI t < y, low := y < s.effS Reg.SNS_FT_CMP_LO t }

/-! ## Delta-sigma inputs (R46 to R50) -/

/-- Whether DS channel `n` is in use and captured. -/
def State.dsWatched (s : State) (n : Nat) : Bool := n < 32 && s.channelOn n && s.groupFreqOk (n / 4)

/-- A DS channel delivers 64 identical bits (R50). -/
def execStuck (n : Nat) (s : State) : Res :=
  .next <|
    if s.dsWatched n && !bitOf s.sns.stuck n then
      let t := { s with sns := { s.sns with stuck := putBit s.sns.stuck n true } }
      let t := (t.setF Reg.SNS_CH_STAT_STUCK 1 n).setF Reg.SNS_FAULT_DS (putBit (t.getF Reg.SNS_FAULT_DS) n true)
      t.snsStatus.event 0x0201 n [n, 0]
    else s

/-- A STUCK channel whose next 64 bits are not all identical leaves STUCK (R50). -/
def execStuckClear (n : Nat) (s : State) : Res :=
  .next { s with sns := { s.sns with stuck := putBit s.sns.stuck n false } }

/-- No rising edge for 8 periods (R46, R50): the domain of a group whose clock arrives from outside stops; in
RECEIVED mode CLK_LOSS is set for every enabled channel of the group. -/
def execClkLoss (g : Nat) (s : State) : Res :=
  .next <|
    if !(s.groupFreqOk g) || s.ownClock g || s.groupChannels g = [] then s
    else
      let s := ({ s with sns := { s.sns with noClock := putBit s.sns.noClock g true } }).setRuns (3 + g) false
      if s.isE Reg.SNS_GRP_CFG_MODE g then
        ((s.groupChannels g).foldl (fun a n =>
          let a := { a with sns := { a.sns with loss := putBit a.sns.loss n true } }
          let a := (a.setF Reg.SNS_CH_STAT_CLK_LOSS 1 n).setF Reg.SNS_FAULT_DS (putBit (a.getF Reg.SNS_FAULT_DS) n true)
          a.event 0x0201 n [n, 1]) s).snsStatus
      else s

/-- 64 timely edges end CLK_LOSS, and the domain runs again (R46, R50). -/
def execClkLossClear (g : Nat) (s : State) : Res :=
  .next <|
    let t := { s with sns := { s.sns with
      noClock := putBit s.sns.noClock g false,
      loss := (List.range 4).foldl (fun m k => putBit m (4 * g + k) false) s.sns.loss } }
    if s.groupFreqOk g && s.groupChannels g ≠ [] then
      ((t.setRuns (3 + g) true).setF Reg.SNS_GRP_CFG_MEAS_KHZ (t.freeVal 1) g).useFree
    else t

/-! ## SAR channels (R58, R59) -/

/-- A trigger event of AD channel `k` at `at16` (62.5 ps steps) starts a conversion, or is dropped with SKIP. -/
def execAdTrigger (k at16 : Nat) (s : State) : Res :=
  .next <|
    if 8 ≤ k || !s.channelOn (32 + k) || !s.isEvent (s.adTrigger k) at16 then s
    else if (s.sns.adLast.find k).any (fun x => at16 < x + 8000) then (s.setF Reg.SNS_CH_STAT_SKIP 1 (32 + k)).captureSkip (0xA0 + k)
    else { s with sns := { s.sns with adBusy := putBit s.sns.adBusy k true, adLast := Sparse.insert s.sns.adLast k at16 } }

/-- Conversion `code` of AD channel `k` completes (R59): calibrated, published, fed to the tiles that take it. Its window is the 150 ns
that end at the trigger event (R58). -/
def execAdConversionDone (k code : Nat) (stale : Bool) (s : State) : Res :=
  .next <|
    if !bitOf s.sns.adBusy k then s
    else
      let s := { s with sns := { s.sns with adBusy := putBit s.sns.adBusy k false } }
      let last := Sparse.at (0, 0) s.sns.adOut k
      let r := s.calChannel (32 + k) (code % 65536 * 128 : Nat)
      let at16 := Sparse.at 0 s.sns.adLast k
      let notch := s.meetsNotch ((at16 : Int) - 2400) at16
      let flags := (if notch then flagNotch else 0) + (if r.2 then flagSat else 0)
      let out := if stale then (last.1, joinFlags last.2 flagStale) else (r.1, flags)
      let s := if stale then s.crossingFailed 11 else s
      let pack := (s.adTrigger k).src = 4
      let s := { s with sns := { s.sns with
        adOut := Sparse.upd (0, 0) s.sns.adOut k out, adStamp := Sparse.insert s.sns.adStamp k (at16 + 4800, at16 + 4800), packRec := if pack then Sparse.insert s.sns.packRec (64 + k) out else s.sns.packRec } }
      let s := if r.2 then ((s.setF Reg.SNS_CH_STAT_SAT 1 (32 + k)).setF Reg.SNS_FAULT_OTH_SAT
        (putBit (s.getF Reg.SNS_FAULT_OTH_SAT) k true)).snsStatus else s
      let s := s.capture (0xA0 + k) (at16 / 16 + 300) (captureWord out.1 out.2) (bitOf out.2 0)
      (s.setS Reg.SNS_CH_DATA out.1 (32 + k)).feedTiles (32 + k) out

/-! ## Coulomb counters (R60 to R64) -/

/-- CFG, UGAIN, UOFF and COND in force for CC channel `k`. -/
def State.ccSettings (s : State) (k : Nat) : List Nat :=
  [s.effF Reg.SNS_CH_CFG (40 + k), s.effF Reg.SNS_CH_UGAIN (40 + k), s.effF Reg.SNS_CH_UOFF (40 + k),
    s.effF Reg.SNS_CC_COND (40 + k)]

/-- Words 0 to 2 of CC accumulator `k` (R63). -/
def State.ccWord (s : State) (k w : Nat) : Nat :=
  let a := Sparse.at 0 s.sns.ccAcc k
  if w < 2 then unsign 32 (a / 2 ^ (32 * w)) else unsign 32 (signed 8 (unsign 8 (a / 2 ^ 64)))

/-- A block of 128 clocks of CC channel `k` completes at `now` with sum `r` in millivolts (R60 to R64, R67, R70); 64,000 of them make a second
(17 R408). -/
def execCcBlock (k : Nat) (r : Int) (now : Nat) (s : State) : Res :=
  .next <|
    if 2 ≤ k || !s.runs (12 + k) then s
    else
      let set := Sparse.at (s.ccSettings k) (s.sns.ccCal) k
      let word := fun i => (set[i]?).getD 0
      let x := min (r * 65536) (2 ^ 23 - 1)
      let y := calibrate (s.getF Reg.SNS_CH_FGAIN (40 + k)) (word 1) (signed 24 (s.getF Reg.SNS_CH_FOFF (40 + k)))
        (signed 24 (word 2)) (bitOf (word 0) 30) x
      let n := y.1 * (word 3 : Int) + (Sparse.at 0 s.sns.ccRem k : Nat)
      let inc := n / 16384000000
      let rem := (n % 16384000000).toNat
      let sum := Sparse.at 0 s.sns.ccAcc k + inc
      let acc := signed 72 (unsign 72 sum)
      let beyond := 100 < r || r < -100
      let cur := roundEven (y.1 * (word 3 : Int)) (2 ^ 32)
      let pack := bitOf s.sns.packWait k && (match s.sns.ts with | some ts => decide (ts < now) | none => true)
      let s := { s with sns := { s.sns with
        ccAcc := Sparse.upd 0 s.sns.ccAcc k acc, ccRem := Sparse.upd 0 s.sns.ccRem k rem,
        ccCal := Sparse.insert s.sns.ccCal k (s.ccSettings k), packWait := if pack then putBit s.sns.packWait k false else s.sns.packWait } }
      let s := (s.setS Reg.SNS_CC_CUR cur (40 + k)).setS Reg.SNS_CH_DATA y.1 (40 + k)
      let s := s.setF Reg.SNS_CC_ACC0 (s.ccWord k 0) (40 + k)
      let s := if y.2 then s.setF Reg.SNS_CH_STAT_SAT 1 (40 + k) else s
      let s := if acc ≠ sum then s.setF Reg.SNS_CH_STAT_WRAP 1 (40 + k) else s
      let s := if beyond then ((s.setF Reg.SNS_CH_STAT_OVR 1 (40 + k)).setF Reg.SNS_FAULT_OTH_OVR
        (putBit (s.getF Reg.SNS_FAULT_OTH_OVR) k true)).snsStatus else s
      let s := if pack then
          let s := if k = 0 then s.setS Reg.SNS_PACK_I0 cur else s.setS Reg.SNS_PACK_I1 cur
          if k = 0 then s.setF Reg.SNS_PACK_FLAGS_CC0_OVR (ofBool beyond) else s.setF Reg.SNS_PACK_FLAGS_CC1_OVR (ofBool beyond)
        else s
      let sec : Nat × Int := Sparse.at (0, 0) s.sns.ccSecond k
      let s := if sec.1 + 1 < 64000 then { s with sns := { s.sns with ccSecond := Sparse.upd (0, 0) s.sns.ccSecond k (sec.1 + 1, sec.2 + cur) } }
        else { s with sns := { s.sns with ccSecond := Sparse.upd (0, 0) s.sns.ccSecond k (0, 0), ccMean := Sparse.upd 0 s.sns.ccMean k (sec.2 + cur) } }
      let flags := (if y.2 then flagSat else 0) + if s.meetsNotch (((now : Int) - 15625) * 16) (now * 16 : Nat) then flagNotch else 0
      (s.capture (0x144 + k) now (captureWord y.1 flags)).feedTiles (40 + k) (y.1, flags)

/-- A read of SNS_CC_ACC0 of CC channel `k` latches the other words of its accumulator for the path (R63). -/
def State.ccLatch (s : State) (path k : Nat) : State :=
  (s.wrPath path (Reg.SNS_CC_ACC1.addr (40 + k) 0) (BitVec.ofNat 32 (s.ccWord k 1))).wrPath path
    (Reg.SNS_CC_ACC2.addr (40 + k) 0) (BitVec.ofNat 32 (s.ccWord k 2))

/-! ## The pack sample instant (R68 to R70) -/

/-- A sweep begins at boundary P (module time in ns): T_s and the notch of the sweep are fixed from the word SNS_SI_CFG in
force for it and the effective lead in frames (R68, R69, 13 R306, R323). -/
def State.fixSampleInstant (s : State) (pNs si lead : Nat) : State :=
  let phase := min 9999 (bitsOf si 0 14)
  let len := if bitOf si 31 then min 48 (max 8 (bitsOf si 24 6)) else 0
  let ts := pNs + lead * 10000 + phase
  { s with
    sns := { s.sns with ts := some ts, notchLen := len, deferred := false, packRec := [] },
    pwm := { s.pwm with plan := if len = 0 then none else some (ts * 16 - len * 500, ts * 16 + len * 500) } }

end Sys2Proof.Machine
end

