-- ==== Sys2Proof/Machine/Lt.lean ====
section
/-!
DEFINITION. Quickset loop tiles (04 R71 to R92): the sources of the mesh, the data path bit for bit, the residue
check, loop faults, misses, banks, bumpless loading and the ramp.
-/

namespace Sys2Proof.Machine

/-- Loop tile `t`. -/
def State.tile (s : State) (t : Nat) : LtTile := Sparse.at {} s.lt.tile t

/-- Loop tile `t` takes a state. -/
def State.setTile (s : State) (t : Nat) (x : LtTile) : State :=
  { s with lt := { s.lt with tile := Sparse.upd {} s.lt.tile t x } }

/-! ## The mesh (R71, R97) -/

/-- Whether a source ID is one of R71. -/
def srcKnown (sid : Nat) : Bool :=
  sid < 0x30 || (0x40 ≤ sid && sid < 0xA8) || (0xC0 ≤ sid && sid < 0x140) || sid = 0x1FF

/-- Whether a source ID is a Windbreak word. -/
def srcWord (sid : Nat) : Bool := 0xC0 ≤ sid && sid < 0x100

/-- The value and flags of a source other than a boundary port. -/
def State.plainSource (s : State) (sid : Nat) : Int × Nat :=
  if sid < 0x30 then
    if s.isE Reg.SNS_FT_CFG_ENABLE sid then (match (s.ft sid).out with | some x => x | none => (0, 0)) else (0, 0)
  else if 0x40 ≤ sid && sid < 0xA0 then
    (s.getS Reg.LT_OUT_U (sid - 0x40),
      if s.isF Reg.LT_OUT_INVALID (sid - 0x40) || !(s.tile (sid - 0x40)).run then flagInvalid else 0)
  else if 0xA0 ≤ sid && sid < 0xA8 then
    if s.isE Reg.SNS_CH_CFG_ENABLE (sid - 0xA0 + 32) then Sparse.at (0, 0) s.sns.adOut (sid - 0xA0) else (0, 0)
  else if 0xC0 ≤ sid && sid < 0xE0 then (Sparse.at 0 s.wb.refWord (sid - 0xC0), 0)
  else if 0xE0 ≤ sid && sid < 0x100 then (Sparse.at 0 s.wb.ffWord (sid - 0xE0), 0)
  else (0, 0)

/-- The value and flags of a source as seen from segment `k`. -/
def State.source (s : State) (k sid : Nat) : Int × Nat :=
  match s.resolve portHops k sid with
  | some src => s.plainSource src
  | none => (0, flagInvalid)

/-- The value and flags of an input of loop tile `t`. -/
def State.input (s : State) (t sid : Nat) : Int × Nat := s.source (t / 24) sid

/-- What a route through a boundary port adds to a due instant, in steps (R97). -/
def portDelay (sid : Nat) : Nat := if 0x100 ≤ sid && sid < 0x140 then 64 else 0

/-- Sample instant and due instant of the last sample that a MEAS source published, as seen from segment `k` (R71, and Late and bad
inputs); none where it has published none. -/
def State.stampOf (s : State) (k sid : Nat) : Option (Nat × Nat) :=
  let own : Option (Nat × Nat) :=
    match s.resolve portHops k sid with
    | some q =>
      if q < 0x30 then (s.ft q).stamp
      else if 0x40 ≤ q && q < 0xA0 then (s.tile (q - 0x40)).stamp.map fun e => (e.1, e.2 + 5600)
      else if 0xA0 ≤ q && q < 0xA8 then Sparse.find s.sns.adStamp (q - 0xA0)
      else none
    | none => none
  own.map fun e => (e.1, e.2 + portDelay sid)

/-- The due instant of the sample that event `e` (steps) of the trigger behind a MEAS source promises, as seen from segment `k`; none
where `e` is no event of it. A chain of loop tiles is followed to its trigger. -/
def State.promised (s : State) : Nat → Nat → Nat → Nat → Option Nat
  | 0, _, _, _ => none
  | n + 1, k, sid, e =>
    let own : Option Nat :=
      match s.resolve portHops k sid with
      | some q =>
        if q < 0x30 then if s.isEvent (s.ftTrigger q) e then some (s.ftDue 48 q e) else none
        else if 0x40 ≤ q && q < 0xA0 then
          (s.promised n ((q - 0x40) / 24) (s.effF Reg.LT_SRC_A_MEAS (q - 0x40)) e).map (· + 5600)
        else if 0xA0 ≤ q && q < 0xA8 then if s.isEvent (s.adTrigger (q - 0xA0)) e then some (e + 4800) else none
        else none
      | none => none
    own.map (· + portDelay sid)

/-! ## The data path (R72, R73) -/

/-- The settings a sample is computed with. -/
structure TileCfg where
  intEn : Bool
  divEn : Bool
  errNeg : Bool
  duty : Bool
  outMax : Int
  outMin : Int
  intMax : Int
  intMin : Int
  divMin : Int
  b0 : Int
  b1 : Int
  b2 : Int
  b3 : Int
  a1 : Int
  a2 : Int
  a3 : Int
  ki : Int
  kff0 : Int
  kff1 : Int
  deriving DecidableEq, Repr

/-- The states of a compensator. -/
structure Comp where
  s1 : Int
  s2 : Int
  s3 : Int
  si : Int
  deriving DecidableEq, Repr

/-- The result of one sample. -/
structure SampleOut where
  e : Int
  u : Int
  comp : Comp
  satOut : Bool
  intClamp : Bool
  intHold : Bool
  divLow : Bool
  deriving DecidableEq, Repr

/-- ±(2^23 − 1). -/
def sat23 (x : Int) : Int := clampInt (-(2 ^ 23 - 1)) (2 ^ 23 - 1) x

/-- The error of R72, saturated. -/
def tileError (c : TileCfg) (meas ref : Int) : Int := sat23 (if c.errNeg then meas - ref else ref - meas)

/-- The feed-forward sum of R72. -/
def tileFf (c : TileCfg) (ff0 ff1 : Int) : Int := roundEven (c.kff0 * ff0 + c.kff1 * ff1) (2 ^ 28)

/-- The divisor of R72. -/
def tileDiv (c : TileCfg) (div : Int) : Int := max div (max c.divMin 1)

/-- The states of a bumpless load to the target `w` (R88). -/
def tileLoad (c : TileCfg) (e yff w : Int) : Comp :=
  if c.intEn then
    ⟨0, 0, 0, (w - roundEven (c.b0 * e) (2 ^ 28) - yff) * 2 ^ 20 - roundEven (c.ki * e) (2 ^ 8)⟩
  else ⟨(w - yff) * 2 ^ 20 - roundEven (c.b0 * e) (2 ^ 8), 0, 0, 0⟩

/-- The results of a sample that the residue path checks (R77), by number: 0 the difference e and 1 its saturation; 2 the product-sum of
yf, 3 its shift, 4 its saturation; 5 to 7 the product-sums of n1 to n3, 8 to 10 their shifts, 11 and 12 the sums n1 and n2; 13 KI × e, 14
its shift, 15 the sum ni, 16 its clamp, 17 the shift to yi; 18 the product-sum of yff, 19 its shift; 20 the sum w, 21 its saturation; 22
the quotient; 23 the clamp of u, 24 its saturation; 25 to 27 the saturations of the states; 28 the ramp step, 29 the shift to REF. Whether
a sample forms result `i`; `ramp` for REF_SRC RAMP. -/
def TileCfg.forms (c : TileCfg) (ramp : Bool) (i : Nat) : Bool :=
  if 13 ≤ i && i ≤ 17 then c.intEn else if i = 22 then c.divEn else if i = 28 || i = 29 then ramp else i < 28

/-- An error of the hardware: result `place` comes out `upset` too high, every other as it should. -/
def errorAt (place : Nat) (upset : Int) (i : Nat) : Int := if i = place then upset else 0

/-- One sample of R72, R73. `err` is the error of the hardware in each result (zero when it works). -/
def tileCompute (c : TileCfg) (k : Comp) (meas ref ff0 ff1 div : Int) (err : Nat → Int) : SampleOut :=
  let eRaw := (if c.errNeg then meas - ref else ref - meas) + err 0
  let e := sat23 eRaw + err 1
  let yfRaw := roundEven (c.b0 * e + k.s1 * 2 ^ 8 + err 2) (2 ^ 28) + err 3
  let yf := sat23 yfRaw + err 4
  let n1 := k.s2 + (roundEven (c.b1 * e + c.a1 * yf + err 5) (2 ^ 8) + err 8) + err 11
  let n2 := k.s3 + (roundEven (c.b2 * e + c.a2 * yf + err 6) (2 ^ 8) + err 9) + err 12
  let n3 := roundEven (c.b3 * e + c.a3 * yf + err 7) (2 ^ 8) + err 10
  let intLo := min c.intMin c.intMax
  let niRaw := k.si + (roundEven (c.ki * e + err 13) (2 ^ 8) + err 14) + err 15
  let ni := clampInt (intLo * 2 ^ 20) (c.intMax * 2 ^ 20) niRaw + err 16
  let yi := if c.intEn then roundEven ni (2 ^ 20) + err 17 else 0
  let yff := roundEven (c.kff0 * ff0 + c.kff1 * ff1 + err 18) (2 ^ 28) + err 19
  let wRaw := yf + yi + yff + err 20
  let w := clampInt (-(2 ^ 25 - 1)) (2 ^ 25 - 1) wRaw + err 21
  let u0 := if c.divEn then roundEven (w * 2 ^ 23) (tileDiv c div).toNat + err 22 else w
  let upper := if c.duty then max c.outMax 0 else c.outMax
  let lower := min (if c.duty then max c.outMin 0 else c.outMin) upper
  let u1 := clampInt lower upper u0 + err 23
  let u := sat23 u1 + err 24
  let s1 := satSigned 48 n1 + err 25
  let s2 := satSigned 48 n2 + err 26
  let s3 := satSigned 48 n3 + err 27
  let hold := c.intEn && ((upper < u0 && 0 < c.ki * e) || (u0 < lower && c.ki * e < 0))
  ⟨e, u, ⟨s1, s2, s3, if c.intEn && !hold then ni else k.si⟩,
    e ≠ eRaw || yf ≠ yfRaw || w ≠ wRaw || u1 ≠ u0 || u ≠ u1 || s1 ≠ n1 || s2 ≠ n2 || s3 ≠ n3,
    c.intEn && ni ≠ niRaw, hold, c.divEn && div < max c.divMin 1⟩

/-- The settings in force of loop tile `t` with bank `b` (false A, true B). -/
def State.tileCfg (s : State) (t : Nat) (b : Bool) : TileCfg :=
  let g := fun (fa fb : Fld) => s.effS (if b then fb else fa) t
  { intEn := s.isE Reg.LT_CTL_INT_EN t, divEn := s.isE Reg.LT_CTL_DIV_EN t, errNeg := s.isE Reg.LT_CTL_ERR_NEG t,
    duty := s.isE Reg.LT_CTL_OUT_MODE t, outMax := s.effS Reg.LT_OUT_MAX t, outMin := s.effS Reg.LT_OUT_MIN t,
    intMax := s.effS Reg.LT_INT_MAX t, intMin := s.effS Reg.LT_INT_MIN t,
    divMin := (s.effF Reg.LT_DIV_MIN t : Nat),
    b0 := g Reg.LT_BKA_B0 Reg.LT_BKB_B0, b1 := g Reg.LT_BKA_B1 Reg.LT_BKB_B1, b2 := g Reg.LT_BKA_B2 Reg.LT_BKB_B2,
    b3 := g Reg.LT_BKA_B3 Reg.LT_BKB_B3, a1 := g Reg.LT_BKA_A1 Reg.LT_BKB_A1, a2 := g Reg.LT_BKA_A2 Reg.LT_BKB_A2,
    a3 := g Reg.LT_BKA_A3 Reg.LT_BKB_A3, ki := g Reg.LT_BKA_KI Reg.LT_BKB_KI,
    kff0 := g Reg.LT_BKA_KFF0 Reg.LT_BKB_KFF0, kff1 := g Reg.LT_BKA_KFF1 Reg.LT_BKB_KFF1 }

/-- The compensator states as their registers hold them (48 bits, sign-extended to the pair). -/
def State.comp (s : State) (t : Nat) : Comp :=
  ⟨signed 64 (s.get64 Reg.LT_S1_LO t), signed 64 (s.get64 Reg.LT_S2_LO t), signed 64 (s.get64 Reg.LT_S3_LO t),
    signed 64 (s.get64 Reg.LT_SI_LO t)⟩

/-- The compensator states are stored. -/
def State.setComp (s : State) (t : Nat) (k : Comp) : State :=
  (((s.set64 Reg.LT_S1_LO (unsign 64 k.s1) t).set64 Reg.LT_S2_LO (unsign 64 k.s2) t).set64 Reg.LT_S3_LO
    (unsign 64 k.s3) t).set64 Reg.LT_SI_LO (unsign 64 k.si) t

/-- The ramp's next position (R90). -/
def rampNext (pos target : Int) (rate : Nat) : Int :=
  let goal := target * 2 ^ 8
  if pos < goal then min (pos + rate) goal else if goal < pos then max (pos - rate) goal else pos

/-! ## Faults and misses (R78 to R84) -/

/-- A control-class fault of the module: its beats carry the code until reset (15 R360); the first code stays. -/
def State.controlFault (s : State) (code : Nat) : State :=
  if s.twn.code = 0 then { s with twn := { s.twn with code := code } } else s

/-- The twin state changes (15 R350). -/
def State.twinState (s : State) (st : Nat) : State :=
  if s.getF Reg.TWN_STATUS_STATE = st then s else (s.setF Reg.TWN_STATUS_STATE st).cause 2 0

/-- A line of the module (0 TLOCK_OUT_N's claim) takes a level. -/
def State.line (s : State) (which : Nat) (level : Bool) : State := s.emit .line [which, ofBool level]

/-- The claim is withdrawn; a module that holds the lock keeps it here. -/
def State.withdraw (s : State) : State :=
  if s.twn.claim && !s.twn.holder then ({ s with twn := { s.twn with claim := false } }).line 0 false else s

/-- The power state takes a value (17 R404). -/
def State.powerState (s : State) (v : Nat) : State :=
  if s.getF Reg.PWR_STATUS_STATE = v then s else (s.setF Reg.PWR_STATUS_STATE v).cause 12 0

/-- The local memory and the accumulators of a core are wiped. -/
def CoreState.wiped (c : CoreState) : CoreState := { c with mem := [], bad := [], tile := [] }

/-- The local memories and accumulators of die `d` are wiped, as at every start of the die (19 R453). -/
def State.wipeDie (s : State) (d : Nat) : State :=
  { s with th := { s.th with
    core := (s.th.core.map fun e => if e.1 / 128 = d then (e.1, e.2.wiped) else e).filter fun e => decide (e.2 ≠ {}) } }

/-- Die `d` starts at OP0, unless it runs or heat turned it off (17 R405, 21 R475). -/
def State.dieOn (s : State) (d : Nat) : State :=
  if bitOf s.pwr.burnt d || (s.runs (23 + 2 * d) && s.runs (24 + 2 * d)) then s
  else
    let a := (s.wipeDie d).setRunsAll [23 + 2 * d, 24 + 2 * d, 27 + d] true
    let a := (a.setF Reg.PWR_DVFS_STAT_F_OP 0 d).setF Reg.PWR_DVFS_STAT_V_OP 0 d
    let a := (a.setF Reg.PWR_DVFS_STAT_TARGET 0 d).setF Reg.PWR_DVFS_STAT_STEP 0 d
    ((a.setF Reg.TH_DIE_STATUS_ON 1 d).setF Reg.TH_DIE_STATUS_OPP 0 d).setF Reg.TH_DIE_STATUS_OPP_BUSY 0 d

/-- A module without the lock is in SHADOW once it has left STARTING (17 R404); coming from HOLD its dies start again, at OP0
(07 R141). -/
def State.shadow (s : State) : State :=
  if s.isF Reg.TWN_STATUS_LOCK || 2 < s.getF Reg.PWR_STATUS_STATE then s
  else
    let a := s.powerState 1
    if s.getF Reg.PWR_STATUS_STATE = 2 then (a.dieOn 0).dieOn 1 else a

/-- The low and high words of the twin's identifier, which end the DATA of records that concern it (18 R437). -/
def State.peerData (s : State) : List Nat :=
  [(s.rd (Reg.TWN_PEER_ID_LO.addr 0 0)).toNat, (s.rd (Reg.TWN_PEER_ID_HI.addr 0 0)).toNat]

/-- READY shows a value; a change raises its cause (15 R374, 20 R461). -/
def State.readyIs (s : State) (ready : Bool) : State :=
  if s.isF Reg.TWN_STATUS_READY = ready then s else (s.setF Reg.TWN_STATUS_READY (ofBool ready)).cause 2 3

/-- The module enters QUARANTINE (15 R375); `why` as TWN_LAST.CAUSE, zero for none of those. -/
def State.quarantine (s : State) (why : Nat) : State :=
  let a := s.withdraw
  let a := { a with twn := { a.twn with
    preLeft := none, requestAt := none, commanded := false, resyncAt := none, waitFrom := none, samples := [] } }
  (((a.shadow.readyIs false).setF Reg.CLK_STATUS_FOLLOWER 0).twinState 4).event 0x0C07 0xFFFF ([why, s.twn.code] ++ s.peerData)

/-- A pre-run that meets a fault fails (15 R364). -/
def State.preRunFail (s : State) : State := if s.twn.preLeft.isSome then s.quarantine 0 else s

/-- Loop tile `t` enters loop fault at `at16` (R80): its running lane shows HELD (R106); reported to the twin unit with code 0x01 LOOP.
While the lock is held the millisecond of R81 begins. -/
def State.loopFault (s : State) (t at16 : Nat) : State :=
  let a := (s.setF Reg.LT_STAT_LOOP_FAULT 1 t).setMapBit Reg.LT_FAULT t true
  let a := if a.isF Reg.TWN_STATUS_LOCK then { a with lt := { a.lt with faults := a.lt.faults ++ [(t, at16)] } } else a
  let n := a.effF Reg.LT_SRC_C_LANE t
  let a := if a.isE Reg.LT_CTL_OUT_MODE t && a.getF Reg.PWM_LANE_STAT_STATE n = 2 then a.setF Reg.PWM_LANE_STAT_STATE 5 n else a
  ((((a.setF Reg.LT_OUT_INVALID 1 t).cause 1 3).snapTrigger 2).controlFault 0x01).preRunFail

/-- A residue mismatch in tile `t` (R78): RES_ERR, the count, loop fault, and its record (18 R422). -/
def State.residueFault (s : State) (t at16 : Nat) (bank : Bool) : State :=
  let a := ((s.setF Reg.LT_STAT_RES_ERR 1 t).bump Reg.LT_RES_CNT t).loopFault t at16
  a.event 0x0301 t [t, ofBool bank, a.getF Reg.LT_RES_CNT t]

/-- A sample of tile `t` misses its deadline, as shows at `at16` (R82, R83). -/
def State.tileMiss (s : State) (t cause at16 : Nat) : State :=
  let a := ((s.setF Reg.LT_STAT_MISS 1 t).setMapBit Reg.LT_MISS_SUM t true)
  let a := ((a.bump Reg.LT_MISS_MISS_COUNT t).bump Reg.LT_MISS_MISS_TOTAL t).captureSkip (0x40 + t)
  let a := if a.isE Reg.LT_CTL_CRITICAL t then a.preRunFail else a
  if 4 ≤ a.getF Reg.LT_MISS_MISS_COUNT t && a.isE Reg.LT_CTL_CRITICAL t then
    (a.loopFault t at16).event 0x0303 t [t, a.getF Reg.LT_MISS_MISS_TOTAL t, cause]
  else a

/-- The active bank of tile `t`: false A, true B. -/
def State.bank (s : State) (t : Nat) : Bool := s.mapBit Reg.LT_BANK_ACT t

/-- Output level of logic tile `l` (R93). -/
def State.logicOut (s : State) (l : Nat) : Bool := s.isF Reg.LT_LG_STAT_OUT l

/-- Level of logic-tile signal `l` at instant `t16`, as its latest changes give it (R87). -/
def State.logicWas (s : State) (l : Nat) (t16 : Int) : Bool :=
  s.logicOut l ^^ decide (((Sparse.at [] s.lt.lgEdges l).filter fun (c : Nat) => decide (t16 < c)).length % 2 = 1)

/-- Sets a sticky status bit when a condition holds. -/
def State.flagIf (s : State) (b : Bool) (f : Fld) (i : Nat) : State := if b then s.setF f 1 i else s

/-- PWM lane `n`. -/
def State.lane (s : State) (n : Nat) : LaneState := Sparse.at {} s.pwm.lane n

/-- PWM lane `n` takes a state. -/
def State.setLane (s : State) (n : Nat) (x : LaneState) : State :=
  { s with pwm := { s.pwm with lane := Sparse.upd {} s.pwm.lane n x } }

/-- A lane is handed the output of its tile at instant `at16` (R74, R75). -/
def State.handLane (s : State) (n : Nat) (u : Int) (at16 : Nat) : State :=
  s.setLane n { s.lane n with handed := (s.lane n).handed ++ [(u, at16)] }

/-- Whether tile `t` is parked: its lane is SHED or TRIPPED (R108, R114). -/
def State.parked (s : State) (t : Nat) : Bool :=
  let st := s.getF Reg.PWM_LANE_STAT_STATE (s.effF Reg.LT_SRC_C_LANE t)
  s.isE Reg.LT_CTL_OUT_MODE t && (st = 3 || st = 4)

/-- The sources of tile `t` in the order MEAS, REF, FF0, FF1, DIV; none for REF where the ramp gives it. -/
def State.tileSrcs (s : State) (t : Nat) : List (Option Nat) :=
  [some (s.effF Reg.LT_SRC_A_MEAS t), if s.isE Reg.LT_CTL_REF_SRC t then none else some (s.effF Reg.LT_SRC_A_REF t),
    some (s.effF Reg.LT_SRC_B_FF0 t), some (s.effF Reg.LT_SRC_B_FF1 t), some (s.effF Reg.LT_SRC_C_DIV t)]

/-- The inputs of tile `t` as they stand. -/
def State.tileIns (s : State) (t : Nat) : List (Int × Nat) :=
  (s.tileSrcs t).map fun o => match o with | some sid => s.input t sid | none => (0, 0)

/-- Whether the start of a tile is still to be done: its first valid MEAS sample, or the load of its first computation (R89). -/
def LtTile.starting (x : LtTile) : Bool := x.waiting || x.load = 1

/-- The load of the first computation of a tile that starts: to the on-time of a re-add where one came before it (R109), else as START
says (R88, R89). -/
def LtTile.startLoad (x : LtTile) (start : Nat) : Nat := if x.load = 3 then 3 else if start = 1 then 1 else 0

/-- The first valid MEAS sample of tile `t` meets another input with INVALID: the tile has started, and its first computation is
still to come (R84, R89). -/
def State.firstSample (s : State) (t : Nat) (meas : Int) : State :=
  let a := s.setTile t { s.tile t with waiting := false, load := (s.tile t).startLoad (s.effF Reg.LT_CTL_START t) }
  if a.isE Reg.LT_CTL_REF_SRC t then a.setS Reg.LT_RAMP_POS (meas * 2 ^ 8) t else a

/-- The deadline of a sample of tile `t` that was due at `due`, in steps (R82). -/
def State.deadline (s : State) (t due : Nat) : Nat := due + 16 * min 5000 (max 100 (s.effF Reg.LT_DEADLINE t))

/-- What the check of a Hub SRAM word finds with `wrong` bad bytes (09 R219): one is corrected and counted; two or more make the word
poisoned, which is reported. -/
def State.sramWord (s : State) (inst sram word wrong : Nat) : State :=
  if wrong = 0 then s
  else if wrong = 1 then s.bump Reg.CTX_SRAM_CE
  else ({ s with twn := { s.twn with hSram := s.twn.hSram + 1 } }).event 0x0702 inst [sram, word]

/-- A MEAS sample of loop tile `t` with its inputs (R71 to R90), whose computation completes at `at16` (62.5 ps steps); `stamp` is its
sample instant and its due instant. `upset` is the amount by which a fault of the hardware changes the result `place`: an amount that is
no multiple of 255 fails the residue check (R77, R78), zero is no fault. `sram` is what the check of the tile's SRAM words finds: 0
nothing, 1 a corrected word, 2 an uncorrectable one (09 R219). An armed injection stays armed over a sample that is a miss, and a
feed-forward value counts as received when a sample that completes takes it (R79, R84; both DESIGN CHOICE, log 97). -/
def State.tileSample (s : State) (t at16 : Nat) (stamp : Nat × Nat) (place : Nat) (upset : Int) (sram : Nat) (ins : List (Int × Nat)) :
    State :=
  let x := s.tile t
  if !x.run || s.isF Reg.LT_STAT_LOOP_FAULT t || s.parked t then s
  else if 2 ≤ sram then
    (s.loopFault t at16).sramWord t 0 t sram
  else
    let s := s.sramWord t 0 t sram
    let s := s.setTile t { x with settled := some stamp.2 }
    let x := s.tile t
    let in_ := fun (i : Nat) => (ins[i]?).getD (0, flagInvalid)
    let meas := in_ 0
    let ramp := s.isE Reg.LT_CTL_REF_SRC t
    let refIn := in_ 1
    let f0 := in_ 2
    let f1 := in_ 3
    let div := in_ 4
    let bad := bitOf meas.2 0 || bitOf refIn.2 0 || bitOf div.2 0
    if x.waiting && bitOf meas.2 0 then s
    else if bad then
      let a := if x.waiting then s.firstSample t meas.1 else s
      let a := (a.setF Reg.LT_STAT_INVALID_IN 1 t).tileMiss t 3 at16
      if bitOf meas.2 0 then a.preRunFail else a
    else if s.deadline t stamp.2 < at16 then
      (if x.waiting then s.firstSample t meas.1 else s).tileMiss t 1 at16
    else
      let err := errorAt place upset
      let pos0 : Int := if x.waiting then meas.1 * 2 ^ 8 else s.getS Reg.LT_RAMP_POS t
      let pos := rampNext pos0 (s.effS Reg.LT_TARGET t) (s.effF Reg.LT_RATE t) + err 28
      let ref := if ramp then roundEven pos (2 ^ 8) + err 29 else refIn.1
      let ff0 := if bitOf f0.2 0 then x.ff0 else f0.1
      let ff1 := if bitOf f1.2 0 then x.ff1 else f1.1
      let want := if s.isE Reg.LT_CTL_SWAP_SRC t then s.logicWas (s.effF Reg.LT_CTL_SWAP_LOGIC t) ((stamp.1 : Int) - 320)
        else s.bank t
      let swap := want ≠ s.bank t
      let c := s.tileCfg t want
      let start := if x.waiting then x.startLoad (s.effF Reg.LT_CTL_START t) else x.load
      let load := if swap && !x.starting && s.isE Reg.LT_CTL_BUMPLESS_SWAP t then 2 else start
      let e := tileError c meas.1 ref
      let lastU := s.getS Reg.LT_OUT_U t
      let toU := if load = 3 then x.loadU else lastU
      let goal := if load = 1 then s.effS Reg.LT_INIT_OUT t
        else if c.divEn then roundEven (toU * tileDiv c div.1) (2 ^ 23) else toU
      let k := if load = 0 then s.comp t else tileLoad c e (tileFf c ff0 ff1) goal
      let stale := bitOf meas.2 1 || bitOf refIn.2 1 || bitOf f0.2 1 || bitOf f1.2 1 || bitOf div.2 1
      if x.armed then
        (((((s.setTile t { x with armed := false }).setF Reg.LT_STAT_RES_ERR 1 t).bump Reg.LT_RES_CNT t).loopFault t at16)).event 0x0302 t [t]
      else if c.forms ramp place && upset % 255 ≠ 0 then s.residueFault t at16 want
      else
        let r := tileCompute c k meas.1 ref ff0 ff1 div.1 err
        let a := s.setTile t { x with waiting := false, load := 0, ff0 := ff0, ff1 := ff1, stamp := some stamp }
        let a := if ramp then a.setS Reg.LT_RAMP_POS pos t else a
        let a := a.setMapBit Reg.LT_BANK_ACT t want
        let a := ((a.setComp t r.comp).setS Reg.LT_ERR (signed 24 (unsign 24 r.e)) t)
        let a := (a.setS Reg.LT_OUT_U r.u t).setF Reg.LT_OUT_INVALID 0 t
        let a := a.capture (0x40 + t) (at16 / 16) (captureWord r.u 0)
        let a := a.setF Reg.LT_MISS_MISS_COUNT 0 t
        let a := ((a.flagIf r.satOut Reg.LT_STAT_SAT_OUT t).flagIf r.intClamp Reg.LT_STAT_INT_CLAMP t).flagIf r.intHold
          Reg.LT_STAT_INT_HOLD t
        let a := ((a.flagIf r.divLow Reg.LT_STAT_DIV_LOW t).flagIf stale Reg.LT_STAT_STALE_IN t).flagIf
          (bitOf f0.2 0 || bitOf f1.2 0) Reg.LT_STAT_FF_HOLD t
        if c.duty then
          (a.setF Reg.LT_DUTY_DUTY_FRAC (r.u / 128).toNat t).handLane (s.effF Reg.LT_SRC_C_LANE t) r.u at16
        else a

/-- Whether the module keeps its samples for a replay instead of running its tiles (15 R359, R364, R377): STANDBY, RESYNC,
TAKING before the pre-run, and the taker in a commanded switch until the FINAL record. -/
def State.keepsSamples (s : State) : Bool :=
  let st := s.getF Reg.TWN_STATUS_STATE
  st = 2 || st = 5 || (st = 3 && s.twn.preLeft.isNone) || s.twn.commanded

/-- Whether a sample runs without a lane: in the pre-run, until the lock is taken (15 R364). -/
def State.laneless (s : State) : Bool := s.getF Reg.TWN_STATUS_STATE = 3 && !s.isF Reg.TWN_STATUS_LOCK

/-- Sample instant and due instant of the last sample that the MEAS source of tile `t` published. -/
def State.measStamp (s : State) (t : Nat) : Option (Nat × Nat) := s.stampOf (t / 24) (s.effF Reg.LT_SRC_A_MEAS t)

/-- Whether the sample of tile `t` that was due at `due` has neither completed nor been missed. -/
def State.unsettled (s : State) (t due : Nat) : Bool :=
  (match (s.tile t).settled with | some d => decide (d < due) | none => true) &&
    !s.twn.samples.any fun x => x.tile = t && x.stamp.2 = due

/-- LOOP_TILE_SAMPLE (R71, R72): the tile computes once for each sample published on its MEAS input; a module that follows its twin keeps
the sample of the last 4 frames. -/
def execLoopTileSample (t at16 place : Nat) (upset : Int) (sram : Nat) (s : State) : Res :=
  .next <|
    match s.measStamp t with
    | none => s
    | some stamp =>
      if !s.unsettled t stamp.2 then s
      else if s.keepsSamples then
        let old := s.twn.samples.filter fun x => at16 < x.at16 + 640000
        { s with twn := { s.twn with samples := old ++ [⟨t, at16, stamp, place, upset, sram, s.tileIns t⟩] } }
      else
        let a := s.tileSample t at16 stamp place upset sram (s.tileIns t)
        if s.laneless then { a with pwm := s.pwm } else a

/-- Whether the MEAS sample of tile `t` comes from a filter tile restarted at B that has not published since, also through ports (R33). -/
def State.awaitsRestart (s : State) (t : Nat) : Bool :=
  match s.resolve portHops (t / 24) (s.effF Reg.LT_SRC_A_MEAS t) with
  | some q => q < 0x30 && (s.ft q).restarted
  | none => false

/-- A sample of tile `t` misses its deadline, as shows at `at16` (R82): the one that `event`, an event of the trigger behind its MEAS,
promised. `cause`: 0 not arrived and 1 not completed once the deadline has passed, 2 overrun by the next sample. A sample that has completed
or been missed is none, nor is one awaited from a filter tile restarted at B (R33). -/
def execDeadlineMiss (t cause event at16 : Nat) (s : State) : Res :=
  .next <|
    let x := s.tile t
    if !x.run || x.waiting || s.parked t || s.isF Reg.LT_STAT_LOOP_FAULT t || s.awaitsRestart t then s
    else match s.promised 96 (t / 24) (s.effF Reg.LT_SRC_A_MEAS t) event with
      | none => s
      | some due =>
        let late : Bool :=
          if cause = 2 then (match s.measStamp t with | some e => decide (due < e.2) | none => false)
          else s.deadline t due < at16
        if late && s.unsettled t due then (s.setTile t { x with settled := some due }).tileMiss t cause at16 else s

/-- ARM written to LT_RES_TEST (R79): a tile that is not enabled takes no injection. -/
def execResTestArm (t : Nat) (s : State) : Res :=
  .next <| if t < 96 && (s.tile t).run then
    (s.setTile t { s.tile t with armed := true }).journal (Reg.LT_RES_TEST.addr 0 0) (2 ^ 31 + t) else s

/-! ## Start and stop at a frame boundary (R76, R80, R89, R91) -/

/-- Whether the sources of tile `t` are allowed (R84, R92); no Windbreak word comes through a port (R97). -/
def State.sourcesOk (s : State) (t : Nat) : Bool :=
  let duty := s.isE Reg.LT_CTL_OUT_MODE t
  let meas := s.effF Reg.LT_SRC_A_MEAS t
  let ref := s.effF Reg.LT_SRC_A_REF t
  let ff0 := s.effF Reg.LT_SRC_B_FF0 t
  let ff1 := s.effF Reg.LT_SRC_B_FF1 t
  let div := s.effF Reg.LT_SRC_C_DIV t
  let ramp := s.isE Reg.LT_CTL_REF_SRC t
  let ids := [meas, ff0, ff1, div] ++ (if ramp then [] else [ref])
  ids.all srcKnown && !srcWord meas && !srcWord div && !(duty && ids.any srcWord)

/-- ENABLE of tile `t` reads 0, in the register and in force. It stays 0, also once SRC_ERR is cleared and the sources are mended, until it
is written again (R84; DESIGN CHOICE, log 97). -/
def State.refuseEnable (s : State) (t : Nat) : State :=
  let a := s.setF Reg.LT_CTL_ENABLE 0 t
  { a with eff := Sparse.put regReset a.eff (Reg.LT_CTL.addr t 0) (a.rd (Reg.LT_CTL.addr t 0)) }

/-- Whether another running tile in DUTY mode names the lane of tile `t` (R76). -/
def State.laneTaken (s : State) (t : Nat) : Bool :=
  (List.range 96).any fun q => q ≠ t && (s.tile q).run && s.isE Reg.LT_CTL_OUT_MODE q &&
    s.effF Reg.LT_SRC_C_LANE q = s.effF Reg.LT_SRC_C_LANE t

/-- PHASES in force of converter `c`; 13 to 15 act as 0 (R102). -/
def State.phases (s : State) (c : Nat) : Nat :=
  let p := s.effF Reg.PWM_CONV_CFG_PHASES c
  if p ≤ 12 then p else 0

/-- The lanes of converter `c`'s phases. -/
def State.phaseLanes (s : State) (c : Nat) : List Nat := (List.range (s.phases c)).map (12 * c + ·)

/-- The lanes that shed level `lev` of converter `c` takes away; never phase 0 (R107). -/
def State.shedSet (s : State) (c lev : Nat) : List Nat :=
  (s.phaseLanes c).filter fun n =>
    n ≠ 12 * c && (List.range (min 6 lev)).any fun i => bitOf (s.effF Reg.PWM_CONV_SEQ_LANES c i) (n % 12)

/-- LEVEL of converter `c`. -/
def State.shedLevel (s : State) (c : Nat) : Nat := s.getF Reg.PWM_CONV_STAT_LEVEL c

/-- Whether lane `n` is a phase that LEVEL of its converter takes away (R107). -/
def State.shedAway (s : State) (n : Nat) : Bool := (s.lane n).phase && (s.shedSet (n / 12) (s.shedLevel (n / 12))).contains n

/-- The tile of lane `n` starts (R106): an IDLE lane with a grid is STARTING, or SHED where LEVEL takes it away (R107); a stop that is not
yet done lapses into STARTING. -/
def State.laneOfTileStarts (s : State) (n : Nat) : State :=
  let x := s.lane n
  if x.grid.isSome && !x.leave && !x.bad then
    let st := s.getF Reg.PWM_LANE_STAT_STATE n
    let new := if st = 0 then (if s.shedAway n then 3 else 1) else if x.stop || st = 5 then 1 else st
    (s.setLane n { x with stop := false }).setF Reg.PWM_LANE_STAT_STATE (if st = 4 then 4 else new) n
  else s

/-- The tile of lane `n` stops (R106): the lane completes its period and leaves. -/
def State.laneOfTileStops (s : State) (n : Nat) : State :=
  if (s.lane n).grid.isSome then s.setLane n { s.lane n with stop := true } else s

/-- Tile `t` starts at a frame boundary (R76, R84, R89). -/
def State.startTile (s : State) (t : Nat) : State :=
  if !s.sourcesOk t then (s.setF Reg.LT_STAT_SRC_ERR 1 t).refuseEnable t
  else if s.isE Reg.LT_CTL_OUT_MODE t && s.laneTaken t then (s.setF Reg.LT_STAT_LANE_BUSY 1 t).refuseEnable t
  else
    let a := s.setTile t { run := true, waiting := true }
    let a := (a.setComp t ⟨0, 0, 0, 0⟩).setF Reg.LT_OUT_INVALID 0 t
    let a := if a.isE Reg.LT_CTL_OUT_MODE t then a.laneOfTileStarts (a.effF Reg.LT_SRC_C_LANE t) else a
    (a.setF Reg.LT_MISS 0 t).setMapBit Reg.LT_MISS_SUM t (s.isF Reg.LT_STAT_MISS t)

/-- Tile `t` stops at a frame boundary (R80, R91). -/
def State.stopTile (s : State) (t : Nat) : State :=
  let a := s.setTile t {}
  let a := if a.isE Reg.LT_CTL_OUT_MODE t then a.laneOfTileStops (a.effF Reg.LT_SRC_C_LANE t) else a
  let a := (a.setComp t ⟨0, 0, 0, 0⟩).setF Reg.LT_RAMP_POS 0 t
  let a := (a.setF Reg.LT_MISS_MISS_COUNT 0 t).setF Reg.LT_OUT_INVALID 1 t
  (a.setF Reg.LT_STAT_LOOP_FAULT 0 t).setMapBit Reg.LT_FAULT t false

/-- A running tile whose sources are no longer allowed stops at a frame boundary, and ENABLE reads 0 (R84); one in loop fault, which does
not run, stays in it (R80). -/
def State.sourceStop (s : State) (t : Nat) : State :=
  let a := if s.isF Reg.LT_STAT_LOOP_FAULT t then s.setTile t { s.tile t with cut := true, zero := false } else s.stopTile t
  (a.setF Reg.LT_STAT_SRC_ERR 1 t).refuseEnable t

/-- What a frame boundary makes of a tile that runs: its ENABLE was written to 0, or its sources are forbidden (R80, R84, R91). -/
def State.tileLeaves (s : State) (t : Nat) : State :=
  let x := s.tile t
  if x.cut && x.zero || (!x.cut && !s.isE Reg.LT_CTL_ENABLE t) then s.stopTile t
  else if x.cut && !s.isE Reg.LT_CTL_ENABLE t then s
  else
    let a := if x.cut then s.setTile t { x with cut := false } else s
    if a.sourcesOk t then a else a.sourceStop t

/-- The tiles take their settings at a frame boundary: stops, then starts in ascending order, then bank selections
of the tiles whose bank the host selects (R86). The settings in force are already the new ones. -/
def State.tilesAtBoundary (s : State) : State :=
  let a := (List.range 96).foldl (fun (a : State) t => if (a.tile t).run then a.tileLeaves t else a) s
  let a := (List.range 96).foldl (fun a t =>
    if !(a.tile t).run && a.isE Reg.LT_CTL_ENABLE t then a.startTile t else a) a
  (List.range 96).foldl (fun a t =>
    let want := bitOf (a.effF Reg.LT_BANK_SEL (t / 32)) (t % 32)
    if !a.isE Reg.LT_CTL_SWAP_SRC t && want ≠ a.bank t then
      let b := a.setMapBit Reg.LT_BANK_ACT t want
      let x := b.tile t
      if x.run && !x.starting && b.isE Reg.LT_CTL_BUMPLESS_SWAP t then b.setTile t { x with load := 2 } else b
    else a) a

end Sys2Proof.Machine
end

