-- ==== Sys2Proof/Machine/Pwm.lean ====
section
/-!
DEFINITION. The PWM engine (05): period starts, on-times and gate pulses, converters and standalone lanes, phase
shedding, fault inputs, fault groups, contactor drives and the sample notch. Instants and lengths are in steps of
62.5 ps of module time.
-/

namespace Sys2Proof.Machine

/-! ## Lane states and converters -/

abbrev laneIdle : Nat := 0
abbrev laneStarting : Nat := 1
abbrev laneRun : Nat := 2
abbrev laneShed : Nat := 3
abbrev laneTripped : Nat := 4
abbrev laneHeld : Nat := 5

/-- Converter `c`. -/
def State.conv (s : State) (c : Nat) : ConvState := Sparse.at {} s.pwm.conv c

/-- Converter `c` takes a state. -/
def State.setConv (s : State) (c : Nat) (x : ConvState) : State :=
  { s with pwm := { s.pwm with conv := Sparse.upd {} s.pwm.conv c x } }

/-- PWM_LANE_STAT.STATE of lane `n`. -/
def State.laneSt (s : State) (n : Nat) : Nat := s.getF Reg.PWM_LANE_STAT_STATE n

/-- Lane `n` takes a state; ACTIVE of its converter follows for a phase. -/
def State.setLaneSt (s : State) (n st : Nat) : State :=
  let a := s.setF Reg.PWM_LANE_STAT_STATE st n
  let act := a.getF Reg.PWM_CONV_STAT_ACTIVE (n / 12)
  a.setF Reg.PWM_CONV_STAT_ACTIVE (putBit act (n % 12) ((st = laneRun || st = laneHeld) && (a.lane n).phase)) (n / 12)

/-- Whether a period lies in the range of R98. -/
def periodOk (p : Nat) : Bool := 16000 ≤ p && p ≤ 800000

/-- The dead times and MIN_PULSE in force of lane `n`: DT_LH, DT_HL, MIN_PULSE; above 16,000 they act as 16,000. -/
def State.laneDt (s : State) (n : Nat) : Nat × Nat × Nat :=
  (min 16000 (s.effF Reg.PWM_LANE_DT_DT_LH n), min 16000 (s.effF Reg.PWM_LANE_DT_DT_HL n),
    min 16000 (bitsOf (s.effF Reg.PWM_LANE_MINP n) 0 14))

/-- Whether `at16` is a period start of lane `n` (R102). -/
def State.isStart (s : State) (n at16 : Nat) : Bool :=
  match (s.lane n).grid with
  | none => false
  | some g => g ≤ at16 && (at16 - g) % (s.lane n).per = 0

/-- The lane is on its grid in a state in which its phase runs: RUN or HELD with no restart pending (R109). -/
def State.laneRuns (s : State) (n : Nat) : Bool :=
  (s.laneSt n = laneRun || s.laneSt n = laneHeld) && (s.lane n).readd.isNone && !(s.lane n).waitP0

/-- The running phases of converter `c`. -/
def State.runningPhases (s : State) (c : Nat) : List Nat := (s.phaseLanes c).filter s.laneRuns

/-- The running tile in DUTY mode that drives lane `n` (R76). -/
def State.tileOf (s : State) (n : Nat) : Option Nat :=
  (List.range 96).find? fun t => (s.tile t).run && s.isE Reg.LT_CTL_OUT_MODE t && s.effF Reg.LT_SRC_C_LANE t = n

/-- The state of lane `n` once it switches: HELD while its tile is in loop fault, else RUN (R106). -/
def State.laneOn (s : State) (n : Nat) : Nat :=
  match s.tileOf n with
  | some t => if s.isF Reg.LT_STAT_LOOP_FAULT t then laneHeld else laneRun
  | none => laneRun

/-! ## The gate signals (R99, R116) -/

/-- Whether a pulse has the high-side switch on at instant `t`. -/
def Pulse.high (p : Pulse) (t : Int) : Bool := p.start + p.dtLh + p.rise ≤ t && t < p.start + p.on + p.fall

/-- Whether a pulse has the low-side switch on at instant `t`: from its fall to the rise that ends its period. -/
def Pulse.low (p : Pulse) (t : Int) : Bool := p.start + p.on + p.dtHl + p.fall ≤ t && t < p.start + p.per + p.next

/-- The levels at PWMn_H and PWMn_L of lane `n` at instant `t`, as its present period and the one before give them; none when
high-impedance (R116). Never both on (R99). -/
def State.gates (s : State) (n : Nat) (t : Int) : Option (Bool × Bool) :=
  if s.isF Reg.PWM_STATUS_LOCK then
    let ps := (s.lane n).pulse.toList ++ (s.lane n).prev.toList
    let high := ps.any fun p => p.high t
    let low := ps.any (fun p => p.low t) && !high
    some (high ^^ s.isE Reg.PWM_LANE_CFG_POL_H n, low ^^ s.isE Reg.PWM_LANE_CFG_POL_L n)
  else none

/-! ## The notch and a lane's transitions (R117) -/

/-- Whether one of two edges falls inside a notch; its ends lie outside. -/
def notchHits (t0 t1 a b : Int) : Bool := (t0 < a && a < t1) || (t0 < b && b < t1)

/-- The shift of a transition alone in the notch: edges `a`, `b` in order, `h` the PWMn_H edge. -/
def notchAlone (t0 t1 a b h : Int) : Int := if t0 < h && h - t0 < t1 - h then t0 - b else t1 - a

/-- The shifts of a pulse's transitions in a notch, its rise, its fall and the rise that ends it, and the shift that any later transition
of the lane in the same notch takes; `carry` is that shift from before, and `done` tells that the rise has been placed already. The fall of
the period to come is foretold from the present on-time. -/
def notchShifts (p : Pulse) (t0 t1 : Int) (carry : Option Int) (done : Bool) : Int × Int × Int × Option Int :=
  let r := (p.start : Int)
  let f := r + p.on
  let n := r + p.per
  let hr := !done && notchHits t0 t1 r (r + p.dtLh)
  let hf := notchHits t0 t1 f (f + p.dtHl)
  let hn := notchHits t0 t1 n (n + p.dtLh)
  let pick := fun (b : Bool) (x : Int) => if b then x else 0
  match carry with
  | some c => (pick hr c, pick hf c, pick hn c, some c)
  | none =>
    if hr && hf then (t1 - r, t1 - r, pick hn (t1 - r), some (t1 - r))
    else if hf && hn then (0, t1 - f, t1 - f, some (t1 - f))
    else
      let pair := hn && notchHits t0 t1 (n + p.on) (n + p.on + p.dtHl)
      (pick hr (notchAlone t0 t1 r (r + p.dtLh) (r + p.dtLh)), pick hf (notchAlone t0 t1 f (f + p.dtHl) f),
        pick hn (if pair then t1 - n else notchAlone t0 t1 n (n + p.dtLh) (n + p.dtLh)), none)

/-- The pulse of lane `n` moves its transitions out of the notch that is open or asked for. A rise moved before its period start has been
placed by the period before. -/
def State.notchMove (s : State) (n : Nat) : State :=
  match s.pwm.notch.or s.pwm.plan, (s.lane n).pulse with
  | some (t0, t1), some p =>
    let m := notchShifts p t0 t1 (Sparse.find s.pwm.notchShift n) (p.rise < 0)
    let q := { p with rise := if p.rise < 0 then p.rise else m.1, fall := m.2.1, next := m.2.2.1 }
    let a := s.setLane n { s.lane n with pulse := some q }
    match m.2.2.2 with
    | some c => { a with pwm := { a.pwm with notchShift := Sparse.insert a.pwm.notchShift n c } }
    | none => a
  | _, _ => s

/-- `k` transitions of lane `n` were moved. -/
def State.countMoved (s : State) (n k : Nat) : State :=
  if k = 0 then s else (s.bumpBy Reg.PWM_NOTCH_MOVED k).setF Reg.PWM_LANE_STAT_NOTCH_MOVED 1 n

/-- Whether a transition with its first edge at `a` that moves by `d` has begun, or would have, before `t` (R44). -/
def movedBy (t a d : Int) : Bool := d ≠ 0 && min a (a + d) < t

/-- A notch ends, or does not open, at instant `t`: of the transitions that were to move, those already moved keep their instants and count,
the others fall back (R44). -/
def State.settleNotch (s : State) (t : Int) : State :=
  let a := (List.range 48).foldl (fun (a : State) n =>
    match (a.lane n).pulse with
    | some p =>
      let r := (p.start : Int)
      let m := (movedBy t r p.rise, movedBy t (r + p.on) p.fall, movedBy t (r + p.per) p.next)
      let keep := fun (b : Bool) (x : Int) => if b then x else 0
      let a := a.setLane n { a.lane n with
        pulse := some { p with rise := keep m.1 p.rise, fall := keep m.2.1 p.fall, next := keep m.2.2 p.next } }
      a.countMoved n (ofBool m.1 + ofBool m.2.1 + ofBool m.2.2)
    | none => a) s
  let span := match s.pwm.notch, s.pwm.notchSpan with
    | some (t0, _), some _ => some (t0, t.toNat)
    | _, x => x
  ({ a with pwm := { a.pwm with plan := none, notch := none, notchSpan := span, notchShift := [] } }).setF Reg.PWM_STATUS_NOTCH_OPEN 0

/-- A notch meets a shed or re-add of converter `c` (R44): not opened or closed, deferred, counted and recorded. -/
def State.deferNotch (s : State) (c : Nat) : State :=
  let a := (s.bump Reg.PWM_NOTCH_DEF).event 0x0403 c [c, s.getF Reg.PKL_SWEEP_NO]
  { a with sns := { a.sns with deferred := true } }

/-- A shed or re-add of converter `c` commits at `at16`: an open notch whose scheduled end is still to come closes there (R44). -/
def State.shedMeetsNotch (s : State) (c at16 : Nat) : State :=
  match s.pwm.notch with
  | some (_, t1) => if at16 ≤ t1 then (s.settleNotch at16).deferNotch c else s
  | none => s

/-- NOTCH_OPEN (R69, R117): at T_s less half the notch length, unless a shed or re-add is in progress (R44). -/
def execNotchOpen (s : State) : Res :=
  .next <|
    match s.pwm.plan with
    | none => s
    | some (t0, t1) =>
      if s.pwm.notch.isSome then s
      else
        match (List.range 48).find? fun n => (s.lane n).shedAt.isSome || (s.lane n).readd.isSome with
        | some n => (s.settleNotch t0).deferNotch (n / 12)
        | none =>
          let a := { s with pwm := { s.pwm with plan := none, notch := some (t0, t1), notchSpan := some (t0, t1) } }
          let a := (a.setF Reg.PWM_STATUS_NOTCH_OPEN 1).bump Reg.PWM_NOTCH_CNT
          (List.range 48).foldl (fun (a : State) n => a.notchMove n) a

/-- NOTCH_CLOSE (R117). -/
def execNotchClose (s : State) : Res :=
  .next <| match s.pwm.notch with | some (_, t1) => s.settleNotch t1 | none => s

/-! ## Grids (R98, R100, R102) -/

/-- Lane `n`'s settings are refused: CFG_ERR (R98, R100, R102). -/
def State.laneBad (s : State) (n : Nat) : State := s.setF Reg.PWM_LANE_STAT_CFG_ERR 1 n

/-- The grid that the settings in force give lane `n`, once it is enabled, its resource is owned (02 R41) and an image runs (02 R27): the
converter's, with true, or its own as a standalone lane. -/
def State.laneWants (s : State) (n : Nat) : Option Bool :=
  if !s.isE Reg.PWM_LANE_CFG_ENABLE n || !s.owned (0x100 + n) || s.cfg.noImage then none
  else if n % 12 < s.phases (n / 12) then (if (s.conv (n / 12)).run then some true else none)
  else if s.isE Reg.PWM_LANE_CFG_STANDALONE n then some false
  else none

/-- PERIOD in force of lane `n` as a phase or standalone. -/
def State.lanePer (s : State) (n : Nat) (phase : Bool) : Nat :=
  if phase then s.effF Reg.PWM_CONV_PERIOD (n / 12) else s.effF Reg.PWM_LANE_PERIOD n

/-- Whether the dead times and MIN_PULSE of lane `n` fit into a period (R100). -/
def State.deadFits (s : State) (n per : Nat) : Bool :=
  let dt := s.laneDt n
  dt.1 + dt.2.1 + 2 * dt.2.2 ≤ per

/-- Whether the lane's settings let it start (R98, R100, R102). -/
def State.laneFits (s : State) (n per : Nat) : Bool := periodOk per && s.effF Reg.PWM_LANE_OFS n < per && s.deadFits n per

/-- Lane `n` starts on the grid from boundary `b`, or is held IDLE with CFG_ERR. -/
def State.joinGrid (s : State) (n b : Nat) (phase : Bool) : State :=
  let per := s.lanePer n phase
  if !s.laneFits n per then s.laneBad n
  else
    let a := s.setLane n { s.lane n with
      grid := some (b + s.effF Reg.PWM_LANE_OFS n), per := per, phase := phase, stop := false, leave := false, again := none, bad := false }
    if a.laneSt n = laneTripped then a else a.setLaneSt n (if a.shedAway n then laneShed else laneStarting)

/-- Lane `n` leaves its grid after its present period; where it is wanted again, from boundary `again`. -/
def State.leaveGrid (s : State) (n : Nat) (again : Option Nat) : State :=
  if (s.lane n).grid.isSome then s.setLane n { s.lane n with stop := true, leave := true, again := again } else s

/-! ## Period starts (R98 to R106) -/

/-- The words of the lane's new plane come into force, when they wait for its period start (R31). -/
def State.takeLanePlane (s : State) (n : Nat) : State :=
  match Sparse.find s.cfg.lanePlanes n with
  | none => s
  | some ws =>
    let a := ws.foldl (fun a (e : Nat × Nat) =>
      let b := a.wr e.1 (BitVec.ofNat 32 e.2)
      { b with eff := Sparse.put regReset b.eff e.1 (BitVec.ofNat 32 e.2) }) s
    { a with cfg := { a.cfg with lanePlanes := Sparse.erase a.cfg.lanePlanes n } }

/-- The mean of the on-times in force of a converter's running phases, to nearest with ties to even; the on-time that the lane itself
applied last where `own` says so, where none runs or where the lane is standalone (R109). -/
def State.readdOn (s : State) (n : Nat) : Nat :=
  let x := s.lane n
  let run := (s.runningPhases (n / 12)).filter (· ≠ n)
  if x.own || !x.phase || run = [] then x.applied
  else (roundEven ((run.map fun k => s.getF Reg.PWM_LANE_ONTIME k).foldl (· + ·) 0 : Nat) run.length).toNat

/-- The pulse of lane `n` becomes the one of the period before; its moved edges in an open notch count. -/
def State.pulseEnds (s : State) (n : Nat) : State :=
  let x := s.lane n
  let k := match x.pulse with | some p => ofBool (p.rise ≠ 0) + ofBool (p.fall ≠ 0) | none => 0
  let a := s.setLane n { x with pulse := none, prev := x.pulse }
  if s.pwm.notch.isSome then a.countMoved n k else a

/-- A period starts at `at16` with on-time `on` (R99, R100). -/
def State.startPulse (s : State) (n at16 on : Nat) : State :=
  let a := s.pulseEnds n
  let x := a.lane n
  let dt := a.laneDt n
  let lo := dt.1 + dt.2.2
  let hi := x.per - dt.2.1 - dt.2.2
  let v := max lo (min hi on)
  let rise := match x.prev with | some p => if p.start + p.per = at16 then min 0 p.next else 0 | none => 0
  let a := a.setLane n { x with
    on := on, applied := v, pulse := some { start := at16, per := x.per, on := v, dtLh := dt.1, dtHl := dt.2.1, rise := rise } }
  let a := a.setF Reg.PWM_LANE_ONTIME v n
  let a := if v ≠ on then (a.setF Reg.PWM_LANE_STAT_CLAMP 1 n).bump Reg.PWM_LANE_CLAMPS n else a
  a.notchMove n

/-- The lane's outputs are OFF from this period start. -/
def State.offPeriod (s : State) (n : Nat) : State := s.pulseEnds n

/-- The lane's outputs are OFF at once. -/
def State.offNow (s : State) (n : Nat) : State := s.setLane n { s.lane n with pulse := none, prev := none }

/-- The tile of a re-added lane loads at its next sample so that its output matches the on-time (R88, R109). -/
def State.readdTile (s : State) (n on : Nat) : State :=
  match s.tileOf n with
  | none => s
  | some t =>
    let u := roundEven ((on * 2 ^ 23 : Nat) : Int) (s.lane n).per
    s.setTile t { s.tile t with load := 3, loadU := u }

/-- The on-times handed to lane `n` meet a period start at `at16` (R75, R101). `upset` is an error of the hardware in the duty mapping: where
it is no multiple of 255 the tile meets a residue mismatch and the lane gets no new on-time (R77, R78). -/
def State.takeOnTime (s : State) (n at16 : Nat) (upset : Int) : State :=
  let x := s.lane n
  let inTime := x.handed.filter fun e => e.2 + 64 ≤ at16
  let later := x.handed.filter fun e => at16 < e.2 + 64
  let a := s.setLane n { x with handed := later }
  let a := match inTime.getLast? with
    | none => a
    | some (u, _) =>
      match (a.tileOf n).filter fun _ => upset % 255 ≠ 0 with
      | some t => a.residueFault t at16 (a.bank t)
      | none =>
        let raw := (roundEven (u * x.per) (2 ^ 23) + upset).toNat
        let b := a.setLane n { a.lane n with on := raw }
        let b := match b.tileOf n with | some t => b.setF Reg.LT_ONTIME raw t | none => b
        if b.laneSt n = laneStarting then b.setLaneSt n (b.laneOn n) else b
  if later.any fun e => e.2 ≤ at16 then a.setF Reg.PWM_LANE_STAT_LATE 1 n else a

/-- A period start of a lane that is neither leaving nor restarting its grid. -/
def State.lanePeriod (s : State) (n at16 : Nat) (upset : Int) : State :=
  let x := s.lane n
  if s.laneSt n = laneTripped then s.offPeriod n
  else if (match x.shedAt with | some c => decide (c < at16) | none => false) then
    ((s.setLane n { x with shedAt := none }).setLaneSt n laneShed).offPeriod n
  else if !s.deadFits n x.per then ((s.setLane n { x with bad := true }).laneBad n |>.setLaneSt n laneIdle).offPeriod n
  else
    let s := if x.bad then (s.setLane n { x with bad := false }).setLaneSt n laneStarting else s
    match x.readd with
    | some r =>
      if r ≤ at16 then
        let on := s.readdOn n
        let a := s.setLane n { s.lane n with readd := none, own := false, handed := [] }
        ((a.setLaneSt n (a.laneOn n)).readdTile n on).startPulse n at16 on
      else s.offPeriod n
    | none =>
      if s.laneSt n = laneShed || s.laneSt n = laneIdle || x.waitP0 then s.offPeriod n
      else
        let a := s.takeOnTime n at16 upset
        if a.laneSt n = laneStarting then a.offPeriod n else a.startPulse n at16 (a.lane n).on

/-- The period of lane `n` that started at `at16` gives its trigger events, its start and the midpoint of its on-time (R102, 03 R54). -/
def State.laneEvents (s : State) (n at16 : Nat) : State :=
  if s.laneGives n then
    let x := s.lane n
    let mid := match x.pulse with | some p => at16 + (roundEven p.on 2).toNat | none => at16
    s.setLane n { x with events := ((at16, mid) :: x.events).take 40 }
  else s

/-- Phase 0 of converter `c` starts a period: released lanes restart from here (R114), and what commits here meets an open notch (R44). -/
def State.phase0Start (s : State) (c at16 : Nat) : State :=
  let lanes := (List.range 12).map (12 * c + ·)
  let commits := lanes.any fun n => (s.lane n).waitP0 || (s.lane n).shedAt = some at16 || (s.lane n).readd = some (at16 + 1)
  let a := lanes.foldl (fun (a : State) n =>
    if (a.lane n).waitP0 then a.setLane n { a.lane n with waitP0 := false, readd := some at16 } else a) s
  if commits then a.shedMeetsNotch c at16 else a

/-- The first period start at or after B of a lane whose converter restarts (R103): OFF, then the new grid, whose first start lies 10 µs
after B or later. -/
def State.restartLane (s : State) (n b : Nat) : State :=
  let x := s.lane n
  let per := s.lanePer n true
  let g := b + s.effF Reg.PWM_LANE_OFS n
  let first := if b + 160000 ≤ g then g else g + (b + 160000 - g + per - 1) / per * per
  let x := { x with restart := none, per := per, grid := some first, shedAt := none }
  if !s.laneFits n per then
    (((s.setLane n { x with grid := none }).laneBad n).setLaneSt n laneIdle).offPeriod n
  else if s.shedAway n then
    let a := (s.setLane n { x with readd := none })
    (if s.laneSt n = laneTripped then a else a.setLaneSt n laneShed).offPeriod n
  else if s.laneSt n = laneRun || s.laneSt n = laneHeld || s.laneSt n = laneShed || x.readd.isSome then
    (s.setLane n { x with readd := some first, own := true }).offPeriod n
  else (s.setLane n x).offPeriod n

/-- The present period was the last of lane `n`: OFF, IDLE, and off its grid where it leaves that too, for a new one where it is wanted
again (R102, R106). -/
def State.laneEnds (s : State) (n : Nat) : State :=
  let x := s.lane n
  let a := (s.setLane n { x with
    stop := false, leave := false, again := none, grid := if x.leave then none else x.grid, handed := [], readd := none, own := false,
    waitP0 := false, shedAt := none }).offPeriod n
  let a := if s.laneSt n = laneTripped then a else a.setLaneSt n laneIdle
  match x.leave, x.again, a.laneWants n with
  | true, some b, some phase => a.joinGrid n b phase
  | _, _, _ => a

/-- PWM_PERIOD_START of lane `n` at `at16`; `upset` as in `takeOnTime`. An instant that is no period start of the lane, or not after the
last one, changes nothing. -/
def execPwmPeriodStart (n at16 : Nat) (upset : Int) (s : State) : Res :=
  .next <|
    if 48 ≤ n || !s.isStart n at16 || (s.lane n).last.any (at16 ≤ ·) then s
    else
      let s := (s.setLane n { s.lane n with last := some at16 }).takeLanePlane n
      match (s.lane n).restart with
      | some b => s.restartLane n b
      | none =>
        let s := if n % 12 = 0 && (s.lane n).phase then s.phase0Start (n / 12) at16 else s
        if (s.lane n).stop then s.laneEnds n else (s.lanePeriod n at16 upset).laneEvents n at16

/-! ## Phase shedding (R107 to R111) -/

/-- TARGET of converter `c`. -/
def State.shedTarget (s : State) (c : Nat) : Nat := s.getF Reg.PWM_CONV_STAT_TARGET c

/-- TARGET takes a value; PENDING tells whether it differs from LEVEL. -/
def State.setTarget (s : State) (c tgt : Nat) : State :=
  (s.setF Reg.PWM_CONV_STAT_TARGET tgt c).setF Reg.PWM_CONV_STAT_PENDING (ofBool (tgt ≠ s.shedLevel c)) c

/-- The deepest level of converter `c`; 7 acts as 6. -/
def State.maxLevel (s : State) (c : Nat) : Nat := min 6 (s.effF Reg.PWM_CONV_SHED_MAX_LEVEL c)

/-- SHED_GAP of converter `c`; 0 acts as 1. -/
def State.shedGap (s : State) (c : Nat) : Nat := max 1 (s.effF Reg.PWM_CONV_SHED_SHED_GAP c)

/-- Whether shedding of converter `c` is suspended (R111). -/
def State.suspended (s : State) (c : Nat) : Bool :=
  (s.phaseLanes c).any fun n => s.laneSt n = laneTripped ||
    (match s.tileOf n with | some t => s.isF Reg.LT_STAT_LOOP_FAULT t | none => false)

/-- Whether a step signal of converter `c` is asserted (R110). -/
def State.stepSignal (s : State) (c : Nat) : Bool :=
  s.isF Reg.PWM_CONV_STAT_STEP_AHEAD c ||
    (s.isE Reg.PWM_CONV_SHED_STEP_SIG_EN c && s.logicOut (s.effF Reg.PWM_CONV_SHED_STEP_SIG c))

/-- TARGET of converter `c` becomes `tgt` on a request or cause at `at16`. A shed waits from there; a re-add is never delayed (R109): one
already pending keeps its instant as far as `tgt` allows it, and a deeper one waits from here. -/
def State.askLevel (s : State) (c tgt at16 : Nat) : State :=
  let x := s.conv c
  let kept := (x.asks.filter fun e => e.1 < s.shedLevel c).map fun e => (max e.1 tgt, e.2)
  let asks :=
    if s.shedLevel c ≤ tgt then []
    else if kept.any fun e => e.1 = tgt then kept
    else kept ++ [(tgt, at16)]
  (s.setTarget c tgt).setConv c { x with reqAt := at16, asks := asks }

/-- A request for shed level `tgt` of converter `c` at `at16` (R107, R110, R111). -/
def State.requestShed (s : State) (c at16 : Nat) (tgt : Int) : State :=
  let up := (min (s.shedLevel c) (s.shedTarget c) : Int) < tgt
  if tgt < 0 || (s.maxLevel c : Int) < tgt || s.suspended c ||
      (up && (s.stepSignal c || !s.isE Reg.PWM_CONV_SHED_SHED_EN c)) then
    s.bump Reg.PWM_CONV_COUNT_DISCARDED c
  else s.askLevel c tgt.toNat at16

/-- SHED_REQUEST: a write of TARGET to PWM_CONV_CMD at `at16`, for REQ_SRC HOST. -/
def execShedRequest (c tgt at16 : Nat) (s : State) : Res :=
  .next <| if 4 ≤ c || s.isE Reg.PWM_CONV_SHED_REQ_SRC c then s
    else (s.requestShed c at16 (tgt % 8 : Nat)).journal (Reg.PWM_CONV_CMD.addr c 0) (tgt % 8)

/-- Whether `at16` is a phase-0 period start of a running converter. -/
def State.phase0At (s : State) (c at16 : Nat) : Bool :=
  c < 4 && (s.conv c).run && (s.lane (12 * c)).phase && s.isStart (12 * c) at16

/-- The first period start of phase 0 of converter `c` at or after `at16`. -/
def State.nextPhase0 (s : State) (c at16 : Nat) : Nat :=
  let x := s.lane (12 * c)
  match x.grid with
  | some g => if at16 ≤ g then g else g + (at16 - g + x.per - 1) / x.per * x.per
  | none => at16

/-- The phases of converter `c` follow LEVEL at the commit `at16`: those that its sets take away are shed, the others re-added (R107, R111);
`own`: no phase runs. -/
def State.matchLane (s : State) (n at16 : Nat) (own : Bool) : State :=
  let x := s.lane n
  if x.grid.isNone || !x.phase || s.laneSt n = laneTripped || s.laneSt n = laneIdle then s
  else if s.shedAway n then
    if s.laneSt n = laneShed then s.setLane n { x with readd := none }
    else if x.shedAt.isSome then s
    else s.setLane n { x with readd := none, waitP0 := false, shedAt := some at16 }
  else if x.shedAt.isSome then s.setLane n { x with shedAt := none }
  else if s.laneSt n = laneShed && x.readd.isNone then s.setLane n { x with readd := some (at16 + 1), own := own }
  else s

/-- All phases of converter `c` follow LEVEL. -/
def State.matchShed (s : State) (c at16 : Nat) : State :=
  let own : Bool := s.runningPhases c = []
  ((List.range 12).map (12 * c + ·)).foldl (fun (a : State) n => a.matchLane n at16 own) s

/-- LEVEL of converter `c` becomes `lev` at the commit `at16`. -/
def State.setLevel (s : State) (c lev at16 : Nat) : State :=
  let a := (s.setF Reg.PWM_CONV_STAT_LEVEL lev c).matchShed c at16
  a.setF Reg.PWM_CONV_STAT_PENDING (ofBool (a.shedTarget c ≠ lev)) c

/-- SHED_COMMIT of converter `c` at `at16` (R108). -/
def execShedCommit (c at16 : Nat) (s : State) : Res :=
  .next <|
    let x := s.conv c
    let gap := match x.lastShed with
      | some l => decide (l + s.shedGap c * (s.lane (12 * c)).per ≤ at16)
      | none => true
    if s.phase0At c at16 && s.shedLevel c < s.shedTarget c && x.reqAt + 1600 ≤ at16 && gap && !s.stepSignal c &&
        !s.suspended c && s.isE Reg.PWM_CONV_SHED_SHED_EN c then
      let a := s.setConv c { x with sheds := x.sheds ++ [at16], lastShed := some at16 }
      (a.setLevel c (s.shedLevel c + 1) at16).shedMeetsNotch c at16
    else s

/-- The level to which the re-adds of converter `c` whose 100 ns are over at `at16` lead (R109). -/
def State.readdLevel (s : State) (c at16 : Nat) : Nat :=
  (((s.conv c).asks.filter fun e => e.2 + 1600 ≤ at16).map Prod.fst).foldl min (s.shedLevel c)

/-- READD_COMMIT of converter `c` at `at16` (R109). -/
def execReaddCommit (c at16 : Nat) (s : State) : Res :=
  .next <|
    let x := s.conv c
    let lev := s.readdLevel c at16
    if s.phase0At c at16 && lev < s.shedLevel c && !s.suspended c then
      let a := s.setConv c { x with sheds := x.sheds.take lev, asks := x.asks.filter fun e => e.1 < lev }
      (a.setLevel c lev at16).shedMeetsNotch c at16
    else s

/-- INHIBIT of converter `c` follows its step signals. -/
def State.showInhibit (s : State) (c : Nat) : State := s.setF Reg.PWM_CONV_STAT_INHIBIT (ofBool (s.stepSignal c)) c

/-- A step signal of converter `c` is asserted at `at16` (R110). -/
def State.stepOnset (s : State) (c at16 : Nat) : State :=
  let s := if s.shedLevel c < s.shedTarget c then (s.askLevel c (s.shedLevel c) at16).bump Reg.PWM_CONV_COUNT_ABORTS c else s
  let x := s.conv c
  let s := match x.sheds.getLast? with
    | some l =>
      if l / 16 = at16 / 16 && 0 < s.shedLevel c then
        let a := s.setConv c { x with sheds := x.sheds.dropLast, lastShed := x.sheds.dropLast.getLast? }
        (a.setF Reg.PWM_CONV_STAT_TARGET (s.shedLevel c - 1) c).setLevel c (s.shedLevel c - 1) at16
      else s
    | none => s
  let x := s.conv c
  let recent := (x.sheds.filter fun l => at16 < l + 20 * (s.lane (12 * c)).per).length
  let want := if s.isE Reg.PWM_CONV_SHED_ADD_ON_STEP c then 0 else s.shedLevel c - recent
  if want < s.shedTarget c then s.askLevel c want at16 else s

/-- STEP_SIGNAL of converter `c` at `at16` (R110). -/
def execStepSignal (c at16 : Nat) (s : State) : Res :=
  .next <|
    if 4 ≤ c then s
    else if s.stepSignal c then (s.showInhibit c).stepOnset c at16 else s.showInhibit c

/-! ## Frame boundaries (R13, R102) -/

/-- Lane `n` at the frame boundary `at16`. -/
def State.laneAtBoundary (s : State) (n at16 : Nat) : State :=
  let x := s.lane n
  match s.laneWants n with
  | none => s.leaveGrid n none
  | some phase =>
    let b := if phase then (s.conv (n / 12)).tb else at16
    if x.grid.isNone then s.joinGrid n b phase
    else if x.leave then (if x.again.isSome then s else s.leaveGrid n (some b))
    else if x.phase = phase then s
    else s.leaveGrid n (some b)

/-- A lane whose group is tripped is TRIPPED (R114): OFF at once, its tile parked. -/
def State.tripLane (s : State) (n : Nat) : State :=
  ((s.setLane n { s.lane n with readd := none, waitP0 := false, own := false, shedAt := none, handed := [] }).offNow n).setLaneSt n laneTripped

/-- Whether fault group `g` is tripped. -/
def State.tripped (s : State) (g : Nat) : Bool := bitOf (s.getF Reg.PWM_GRP_TRIP_TRIP) g

/-- A converter runs from the boundary `at16` at which its ENABLE takes effect until one at which it is clear (R102). -/
def State.convAtBoundary (s : State) (c at16 : Nat) : State :=
  let on : Bool := s.isE Reg.PWM_CONV_CFG_ENABLE c && s.phases c ≠ 0
  if on = (s.conv c).run then s
  else if on then s.setConv c { s.conv c with run := true, tb := at16 }
  else s.setConv c { s.conv c with run := false }

/-- The converters and lanes take their settings at the frame boundary `at16`; the phases of a running converter follow LEVEL under the
sequence in force from the next period start of phase 0 (R111). -/
def State.pwmAtBoundary (s : State) (at16 : Nat) : State :=
  let a := (List.range 4).foldl (fun (a : State) c => a.convAtBoundary c at16) s
  let a := (List.range 48).foldl (fun (a : State) n => a.laneAtBoundary n at16) a
  let a := (List.range 48).foldl (fun (a : State) n =>
    if a.tripped (a.effF Reg.PWM_LANE_CFG_GROUP n) && a.laneSt n ≠ laneTripped then a.tripLane n else a) a
  (List.range 4).foldl (fun (a : State) c =>
    if (a.conv c).run && !a.suspended c then a.matchShed c (a.nextPhase0 c at16) else a) a

/-! ## Fault inputs, fault groups, contactors (R112 to R115) -/

/-- Fault group `g` trips at `at16`; `why` is the cause its own record carries, zero for none (R112, R113). The contactor drives that it
names open CTR_DLY later (R115). -/
def State.tripGroup (s : State) (g why at16 : Nat) : State :=
  if s.tripped g then s
  else
    let a := s.setF Reg.PWM_GRP_TRIP_TRIP (putBit (s.getF Reg.PWM_GRP_TRIP_TRIP) g true)
    let a := ((a.setF Reg.PWM_STATUS_ANY_TRIP 1).cause 1 2).snapTrigger 2
    let a := if why = 0 then a else a.event 0x0402 g [g, why]
    let a := (List.range 48).foldl (fun a n =>
      if a.effF Reg.PWM_LANE_CFG_GROUP n = g then a.tripLane n else a) a
    let ctr := a.effF Reg.PWM_GRP_CFG_CTR g
    let due := at16 + 16000000 * a.effF Reg.PWM_GRP_CFG_CTR_DLY g
    if ctr = 0 then a else { a with pwm := { a.pwm with opening := Sparse.insert a.pwm.opening g (ctr, due) } }

/-- The groups of a mask trip. -/
def State.tripGroups (s : State) (mask why at16 : Nat) : State :=
  (List.range 8).foldl (fun a g => if bitOf mask g then a.tripGroup g why at16 else a) s

/-- Whether fault input `n` is watched: enabled, and not a free resource (02 R41). -/
def State.faultOn (s : State) (n : Nat) : Bool := s.isE Reg.PWM_FLT_CFG_ENABLE n && s.owned (0x130 + n)

/-- PWM_STATUS.FLT_ANY follows the enabled fault inputs. -/
def State.showFltAny (s : State) : State :=
  s.setF Reg.PWM_STATUS_FLT_ANY (ofBool ((List.range 16).any fun n =>
    s.faultOn n && bitOf (s.getF Reg.PWM_FLT_RAW) n))

/-- FAULT_INPUT: input `n` is low and has been, or was, low for `lowPs` picoseconds at `now` in ns (R112, R478). Up to FILT it is
ignored, from FILT + 5 ns it acts; between, it may act or not. -/
def execFaultInput (n lowPs now : Nat) (s : State) : Res :=
  .next <|
    if 16 ≤ n then s
    else
      let a := (s.setF Reg.PWM_FLT_RAW (putBit (s.getF Reg.PWM_FLT_RAW) n true)).showFltAny
      let filt := min 20 (s.effF Reg.PWM_FLT_CFG_FILT n) * 1000
      let band := filt < lowPs && lowPs < filt + 5000
      let acts := s.faultOn n && filt < lowPs && (!band || s.freeVal 2 % 2 = 1)
      let a := if band then a.useFree else a
      if acts then
        let groups := s.effF Reg.PWM_FLT_CFG_GROUPS n
        let a := (a.setF Reg.PWM_FLT_LATCH (putBit (a.getF Reg.PWM_FLT_LATCH) n true)).cause 1 1
        (a.event 0x0401 n [n, groups]).tripGroups groups 0 (16 * now)
      else a

/-- FAULT_INPUT_RELEASE: input `n` returns high (R114). -/
def execFaultInputRelease (n : Nat) (s : State) : Res :=
  .next <| if 16 ≤ n then s else (s.setF Reg.PWM_FLT_RAW (putBit (s.getF Reg.PWM_FLT_RAW) n false)).showFltAny

/-- GROUP_SWTRIP: a 1 written to the group's bit of PWM_GRP_SWTRIP at `now` (R113). -/
def execGroupSwtrip (g now : Nat) (s : State) : Res :=
  .next <| if g < 8 then (s.tripGroup g 2 (16 * now)).journal (Reg.PWM_GRP_SWTRIP.addr 0 0) (2 ^ g) else s

/-- Whether an enabled source of group `g` is asserted (R114). -/
def State.groupSource (s : State) (g : Nat) : Bool :=
  ((List.range 16).any fun n => s.faultOn n && bitOf (s.getF Reg.PWM_FLT_RAW) n &&
    bitOf (s.effF Reg.PWM_FLT_CFG_GROUPS n) g) ||
  (s.isE Reg.PWM_GRP_CFG_LOGIC_EN g && s.logicOut (s.effF Reg.PWM_GRP_CFG_LOGIC_SIG g))

/-- A lane of a released group restarts as a re-add, unless it is shed or has nothing to restart (R114). `own`: no
phase of its converter runs. -/
def State.untripLane (s : State) (n : Nat) (own : Bool) : State :=
  let x := s.lane n
  if x.grid.isNone then s.setLaneSt n laneIdle
  else if s.shedAway n then s.setLaneSt n laneShed
  else if (s.tileOf n).isNone then s.setLaneSt n laneIdle
  else
    let a := if x.phase then s.setLane n { x with waitP0 := true, own := own }
      else s.setLane n { x with readd := some 0, own := true }
    a.setLaneSt n laneStarting

/-- A tripped group is released, or REARM_REFUSED is set (R114). -/
def State.releaseGroup (s : State) (g : Nat) : State :=
  if !s.tripped g then s
  else if s.groupSource g then s.setF Reg.PWM_GRP_TRIP_REARM_REFUSED 1
  else
    let a := s.setF Reg.PWM_GRP_TRIP_TRIP (putBit (s.getF Reg.PWM_GRP_TRIP_TRIP) g false)
    let a := a.setF Reg.PWM_STATUS_ANY_TRIP (ofBool (a.getF Reg.PWM_GRP_TRIP_TRIP ≠ 0))
    let alone := (List.range 4).filter fun c => a.runningPhases c = []
    (List.range 48).foldl (fun a n =>
      if a.laneSt n = laneTripped && !a.tripped (a.effF Reg.PWM_LANE_CFG_GROUP n) then
        a.untripLane n (n / 12 ∈ alone) else a) a

/-- GROUP_RELEASE: a 1 written to the group's bit of PWM_GRP_TRIP. -/
def execGroupRelease (g : Nat) (s : State) : Res :=
  .next <|
    if g < 8 then
      let a := s.releaseGroup g
      if s.tripped g && !a.tripped g then a.journal (Reg.PWM_GRP_TRIP.addr 0 0) (2 ^ g) else a
    else s

/-- CONTACTOR_OPEN: CTR_DLY after the trip of group `g`, its contactor drives open (R115). -/
def execContactorOpen (g now : Nat) (s : State) : Res :=
  .next <|
    match Sparse.find s.pwm.opening g with
    | none => s
    | some (m, due) =>
      if 16 * now < due then s
      else
        let closed := s.getF Reg.PWM_CTR_CLOSED
        let keep := fun v => v - (v &&& m)
        let a := { s with pwm := { s.pwm with opening := Sparse.erase s.pwm.opening g } }
        let a := (a.setF Reg.PWM_CTR_CLOSED (keep closed)).setF Reg.PWM_CTR_CLOSE (keep (s.getF Reg.PWM_CTR_CLOSE))
        a.causeIf (closed &&& m ≠ 0) 1 7

/-- Whether a tripped group names contactor drive `d`. -/
def State.driveBarred (s : State) (d : Nat) : Bool :=
  (List.range 8).any fun g => s.tripped g && bitOf (s.effF Reg.PWM_GRP_CFG_CTR g) d

/-- CONTACTOR_CLOSE: the shelf host writes a 1 to the CLOSE bit of drive `d` (R115); in NO_IMAGE the drives stay open (02 R27). -/
def execContactorClose (path d : Nat) (s : State) : Res :=
  .next <|
    if 4 ≤ d || pathOwner path ≠ 0x40 || s.driveBarred d || s.cfg.noImage then s
    else
      let a := (s.setF Reg.PWM_CTR_CLOSE (putBit (s.getF Reg.PWM_CTR_CLOSE) d true)).setF Reg.PWM_CTR_CLOSED
        (putBit (s.getF Reg.PWM_CTR_CLOSED) d true)
      a.journal (Reg.PWM_CTR.addr 0 0) (a.getF Reg.PWM_CTR_CLOSE)

/-! ## The output buffers follow the lock (R116) -/

/-- The module takes or loses TWIN_LOCK: the buffers; with the lock each lane drives OFF until its next start, without it no loop fault is
left to shut down for (04 R81). -/
def State.pwmLock (s : State) (held : Bool) : State :=
  let a := s.setF Reg.PWM_STATUS_LOCK (ofBool held)
  let a := { a with lt := { a.lt with faults := [] } }
  if held then (List.range 48).foldl (fun (a : State) n => a.offNow n) a else a

end Sys2Proof.Machine
end

