-- ==== Sys2Proof/Machine/Pkl.lean ====
section
/-!
DEFINITION. Bramble (13): radios and frames, positions, enumeration step by step, sleep and wake.
-/

namespace Sys2Proof.Machine

/-! ## The chain (R301) -/

/-- NODES; above 48 acts as 48. -/
def State.nodes (s : State) : Nat := min 48 (s.getF Reg.PKL_CFG_NODES)

/-- Whether Bramble runs: enabled, with positions. -/
def State.pklOn (s : State) : Bool := s.isF Reg.PKL_CFG_EN && s.nodes ≠ 0

/-- Whether position `p` is part of the chain. -/
def State.ndUsed (s : State) (p : Nat) : Bool := p < s.nodes && s.isF Reg.PKL_ND_MAP_EN p

/-- The positions of the chain. -/
def State.ndList (s : State) : List Nat := (List.range 48).filter fun p => s.ndUsed p

/-- The split the settings give. -/
def State.splitCfg (s : State) : Nat :=
  let v := s.getF Reg.PKL_CFG_SPLIT
  if v = 0 then (s.nodes + 1) / 2 else min v s.nodes

/-- States of a position. -/
abbrev ndPending : Nat := 1
abbrev ndReached : Nat := 2
abbrev ndUnreached : Nat := 3
abbrev ndLost : Nat := 4

/-- State of position `p`. -/
def State.ndState (s : State) (p : Nat) : Nat := s.getF Reg.PKL_ND_STAT_STATE p

/-- Phases of Bramble. -/
abbrev pklOff : Nat := 0
abbrev pklEnum : Nat := 1
abbrev pklRun : Nat := 2
abbrev pklSleeping : Nat := 3
abbrev pklWatch : Nat := 4

/-- The present phase. -/
def State.pklPhase (s : State) : Nat := s.getF Reg.PKL_STATUS_PHASE

/-- Whether the module transmits: it holds TWIN_LOCK (R295). -/
def State.pklTx (s : State) : Bool := s.isF Reg.TWN_STATUS_LOCK

/-- PKL_LOST, PKL_STALE and the counts of PKL_STATUS follow the positions. -/
def State.showPkl (s : State) : State :=
  let a := (List.range 48).foldl (fun (a : State) p =>
    (a.setMapBit Reg.PKL_LOST_LO p (a.ndState p = ndLost)).setMapBit Reg.PKL_STALE_LO p (a.isF Reg.PKL_ND_STAT_STALE p)) s
  let lost := ((List.range 48).filter fun p => a.ndState p = ndLost).length
  let found := ((List.range 48).filter fun p => 2 ≤ a.ndState p && a.ndState p ≤ 4).length
  ((a.setF Reg.PKL_STATUS_LOST lost).setF Reg.PKL_STATUS_FOUND found).setF Reg.PKL_STATUS_TX (ofBool a.pklTx)

/-- The identifier found at position `p`. -/
def State.idFound (s : State) (p : Nat) : Nat := s.get64 Reg.PKL_ND_ID_FOUND_LO p

/-- The identifier expected at position `p`. -/
def State.idExp (s : State) (p : Nat) : Nat := s.get64 Reg.PKL_ND_ID_EXP_LO p

/-! ## Frames (R297 to R299) -/

/-- CRC-16 of fast frames (R297). -/
def crc16 (bs : List Byte) : Nat := bs.foldl (crcByteMsb 16 0x1021) 0xFFFF

/-- Header and payload of a frame (R298): TYPE, direction, DST, SWEEP or step number. The module is its source. -/
def State.pklFrame (s : State) (typ : Nat) (dir dst num : Nat) (payload : List Byte) : List Byte :=
  beBytes 1 typ ++ beBytes 1 dir ++ beBytes 2 (s.getF Reg.PKL_CHAIN) ++ beBytes 1 dst ++ beBytes 1 0xFE ++
    beBytes 2 num ++ payload

/-- The channel of a radio in MHz (R296, R297, R300): in discovery mode DISC_CH; in fast mode FCH2 for RADA, and for RADB the channel of
the link beyond the last of the n positions, FCH[(n - 1) mod 3]. -/
def State.radioMhz (s : State) (side mode : Nat) : Nat :=
  if mode = 1 then 2405 + 5 * (min 26 (max 11 (s.getF Reg.PKL_RF_CFG_DISC_CH)) - 11)
  else
    let k := if side = 0 then 2 else (s.nodes - 1) % 3
    2404 + 3 * min 25 (s.getF (if k = 0 then Reg.PKL_RF_CFG_FCH0 else if k = 1 then Reg.PKL_RF_CFG_FCH1 else Reg.PKL_RF_CFG_FCH2))

/-- The access word of the chain (R297). -/
def State.accessWord (s : State) : List Byte := [0x3D#8, 0x9A#8] ++ beBytes 2 (s.getF Reg.PKL_CHAIN)

/-- A frame as it goes on the air: in fast mode access word, length, frame, CRC (R297), in discovery mode frame and check sequence
(R296). -/
def State.onAir (s : State) (mode : Nat) (frame : List Byte) : List Byte :=
  if mode = 0 then
    let m := beBytes 1 frame.length ++ frame
    s.accessWord ++ m ++ beBytes 2 (crc16 m)
  else frame ++ leBytes 2 (fcs16 frame)

/-- A frame leaves a radio, if the module transmits (R295); RADA sends towards the tail, RADB towards the head. -/
def State.radio (s : State) (side mode typ dst num : Nat) (payload : List Byte) : State :=
  if s.pklTx then
    s.emit .radio ([side, mode, s.radioMhz side mode, s.getF Reg.PKL_RF_CFG_TX_DBM] ++
      (s.onAir mode (s.pklFrame typ side dst num payload)).map (·.toNat))
  else s

/-- Payload lengths of the frames nodes send (R299): REPORT, BAL_ACK, ENUM_ANS, ALARM, AUTH_RESP (R345). -/
def pklLength (typ : Nat) : Option Nat :=
  if typ = 0x01 then some 12 else if typ = 0x02 then some 44 else if typ = 0x03 then some 4
  else if typ = 0x04 then some 36 else if typ = 0x05 then some 4 else if typ = 0x10 then some 12
  else if typ = 0x11 then some 4 else if typ = 0x12 then some 16 else if typ = 0x13 then some 4
  else if typ = 0x14 then some 4 else if typ = 0x15 then some 4 else if typ = 0x16 then some 20
  else if typ = 0x17 then some 24 else none

/-- A frame as the module takes it: TYPE, SRC, SWEEP, payload. -/
structure PklIn where
  typ : Nat
  src : Nat
  num : Nat
  body : List Byte

/-- A Bramble frame is examined (R297 to R299): taken, or discarded, counting what R299 counts. -/
def State.pklTake (s : State) (good : Bool) (bs : List Byte) : State × Option PklIn :=
  if !s.pklOn then (s, none)
  else if !good then (s.bump Reg.PKL_CRC_ERR, none)
  else if bs.length < 8 || pklLength (beAt bs 0 1) ≠ some (bs.length - 8) then (s.bump Reg.PKL_CRC_ERR, none)
  else if beAt bs 2 2 ≠ s.getF Reg.PKL_CHAIN % 65536 then (s, none)
  else (s, some ⟨beAt bs 0 1, beAt bs 5 1, beAt bs 6 2, bs.drop 8⟩)

/-- A fast-mode reception from its access word on: length, frame, CRC. One with another chain's access word is ignored (R297). -/
def State.pklTakeFast (s : State) (air : List Byte) : State × Option PklIn :=
  let bs := air.drop 4
  let n := beAt bs 0 1
  if air.take 4 ≠ s.accessWord then (s, none)
  else s.pklTake (8 ≤ n && n ≤ 64 && bs.length = n + 3 && crc16 (bs.take (n + 1)) = beAt bs (n + 1) 2) (slice bs 1 n)

/-- A discovery-mode reception: a PSDU of at most 127 bytes, the frame and its check sequence (R296). -/
def State.pklTakeDisc (s : State) (psdu : List Byte) : State × Option PklIn :=
  let frame := psdu.take (psdu.length - 2)
  s.pklTake (psdu.length ≤ 127 && 2 ≤ psdu.length && fcs16 frame = leAt psdu (psdu.length - 2) 2) frame

/-! ## Enumeration (R302 to R304) -/

/-- Hops from the radio of a side to position `p`, less one: the position counted from that side. -/
def State.hops (s : State) (side p : Nat) : Nat := if side = 0 then p else s.nodes - 1 - p

/-- The wait for an answer of position `p` from a side, in ns (R302); from the tail `p` counts from the tail. -/
def State.enumWait (s : State) (side p : Nat) : Nat := (2 * s.hops side p + 3) * 1200000

/-- The next position a side serves: the first PENDING one from its end; in a re-enumeration the segment's first LOST one. -/
def State.enumPos (s : State) (side : Nat) : Option Nat :=
  let ps := s.ndList.filter fun p => match s.pkl.segment with
    | some (a, b) => a ≤ p && p ≤ b && s.ndState p = ndLost
    | none => s.ndState p = ndPending
  if side = 0 then ps.head? else ps.getLast?

/-- The identifier that a step names: the one expected; in a re-enumeration and after WAKE the one found. -/
def State.enumTarget (s : State) (p : Nat) : Nat :=
  if s.pkl.segment.isSome && s.idFound p ≠ 0 then s.idFound p
  else if s.idExp p ≠ 0 then s.idExp p
  else if s.pkl.held then s.idFound p else 0

/-- A step's request leaves its radio: ENUM, or ENUM_OPEN with SLOTS (R302, R303). -/
def State.enumSend (s : State) (e : EnumStep) (now : Nat) : State :=
  let a := { s with pkl := { s.pkl with step := some { e with sentAt := now }, stepNo := s.pkl.stepNo + 1 } }
  if e.slots = 0 then
    a.radio e.side 1 0x10 e.pos a.pkl.stepNo (beBytes 8 e.target ++ beBytes 1 e.pos ++ beBytes 3 0)
  else
    a.radio e.side 1 0x11 e.pos a.pkl.stepNo (beBytes 1 e.pos ++ beBytes 1 e.slots ++ beBytes 2 0)

/-- A side begins its next step. -/
def State.enumBegin (s : State) (side p now : Nat) : State :=
  let tgt := s.enumTarget p
  let a := { s with pkl := { s.pkl with began := putBit s.pkl.began side true } }
  a.enumSend { side := side, pos := p, target := tgt,
               slots := if tgt = 0 && a.isF Reg.PKL_CFG_OPEN_ENUM then 16 else 0 } now

/-- EFF_SPLIT: the lowest UNREACHED or LOST position, else SPLIT (R316). -/
def State.splitNext (s : State) : Nat :=
  (s.ndList.find? fun p => s.ndState p = ndUnreached || s.ndState p = ndLost).getD s.splitCfg

/-- WAKE leaves both radios for 1.1 s (R320). -/
def State.sendWake (s : State) : State :=
  (s.radio 0 1 0x14 0xFF s.pkl.stepNo (beBytes 4 0)).radio 1 1 0x14 0xFF s.pkl.stepNo (beBytes 4 0)

/-- SLEEP leaves both radios three times (R320). -/
def State.sendSleep (s : State) : State :=
  (List.range 3).foldl (fun a _ =>
    (a.radio 0 1 0x13 0xFF a.pkl.stepNo (beBytes 4 0)).radio 1 1 0x13 0xFF a.pkl.stepNo (beBytes 4 0)) s

/-- The positions that wait for authentication after an enumeration or a re-enumeration (R346): those found and not LOST. -/
def State.authAll (s : State) : State :=
  if s.getF Reg.EST_CFG_AUTH_POLICY = 0 then s
  else { s with
    pkl := { s.pkl with authQ := s.ndList.filter fun p => s.ndState p = ndReached || s.ndState p = ndUnreached }
    est := { s.est with authAt := s.est.clock } }

/-- Enumeration ends (R304): what was not found is LOST; the positions found wait for their authentication (R346). -/
def State.enumEnd (s : State) : State :=
  let missing := s.ndList.filter fun p => s.ndState p = ndPending
  let a := missing.foldl (fun (a : State) p => a.setF Reg.PKL_ND_STAT_STATE ndLost p) s
  let a := a.setF Reg.PKL_STATUS_ENUM_INCOMPLETE (ofBool !missing.isEmpty)
  let a := ((a.causeIf (!missing.isEmpty) 9 3).causeIf (!missing.isEmpty) 9 1).cause 9 2
  let a := (a.setF Reg.PKL_STATUS_PHASE pklRun).setF Reg.PKL_EFF_EFF_SPLIT a.splitNext
  let a := ({ a with pkl := { a.pkl with step := none, held := false, nextP := a.frame } }).authAll
  ({ a with pkl := { a.pkl with ready := a.pkl.authQ.isEmpty || !a.pklTx } }).showPkl

/-- The chain is enumerated from the start (R304). With `release` every position is released first (ENUMERATE);
otherwise the positions found are asked for again as held (WAKE, R320). -/
def State.enumReset (s : State) (release : Bool) : State :=
  let a := (List.range 48).foldl (fun (a : State) p =>
    let a := a.setF Reg.PKL_ND_STAT (if a.ndUsed p then ndPending * 2 ^ 29 else 0) p
    if release then a.set64 Reg.PKL_ND_ID_FOUND_LO 0 p else a) s
  let a := (a.setF Reg.PKL_STATUS_PHASE pklEnum).setF Reg.PKL_STATUS_ENUM_INCOMPLETE 0
  let a := ((a.setF Reg.EST_AUTH_OK_LO 0).setF Reg.EST_AUTH_OK_HI 0).setF Reg.EST_AUTH_FAIL_LO 0
  let a := a.setF Reg.EST_AUTH_FAIL_HI 0
  ({ a with pkl := { a.pkl with
      step := none, stopped := 0, began := 0, firstMiss := 0, held := !release, segment := none, gapSides := [],
      ready := false, sweep := false, recs := [], ts := [], stuck := [], bal := [], auth := none, authQ := [] } }).showPkl

/-- WAKE: the nodes are woken and then enumerated using the positions held (R320). The enumeration's first step leaves with
the next `enumGo`. -/
def State.wakeNodes (s : State) : State := if s.pklOn then (s.sendWake).enumReset false else s

/-- Enumeration goes on: the side in turn takes its next step; without one, enumeration ends (R302 to R304). When the first
step of both sides went unanswered the module sends WAKE, once (R349). -/
def State.enumGo (s : State) (side now : Nat) : State :=
  let side := if bitOf s.pkl.stopped side then 1 - side else side
  if s.pkl.firstMiss = 3 && !s.pkl.held then
    let a := s.wakeNodes
    if a.pklTx then match a.enumPos 0 with
      | some p => a.enumBegin 0 p now
      | none => a.enumEnd
    else a
  else if s.pkl.stopped = 3 then s.enumEnd
  else match s.enumPos side with
    | some p => if s.pklTx then s.enumBegin side p now else s
    | none => s.enumEnd

/-- Enumeration starts (R304). A module without the lock only listens (R295). -/
def State.enumerate (s : State) (release : Bool) (now : Nat) : State :=
  if !s.pklOn then s else (s.enumReset release).enumGo 0 now

/-! ## Gaps: re-enumeration of LOST segments (R317) -/

/-- The lowest segment of adjoining LOST positions. -/
def State.lostSegment (s : State) : Option (Nat × Nat) :=
  match s.ndList.find? fun p => s.ndState p = ndLost with
  | none => none
  | some a => some (a, a + ((s.ndList.dropWhile (· < a)).takeWhile fun p => s.ndState p = ndLost).length - 1)

/-- Whether a radio reaches its edge of a segment: no LOST position lies between. -/
def State.sideReaches (s : State) (side : Nat) (seg : Nat × Nat) : Bool :=
  s.ndList.all fun p => (if side = 0 then seg.1 ≤ p else p ≤ seg.2) || s.ndState p ≠ ndLost

/-- A re-enumeration ends: no LOST position is left in its segment (R317, R346). -/
def State.segmentDone (s : State) : State :=
  let done := s.pkl.segment.isSome && (s.enumPos 0).isNone
  let a := { s with pkl := { s.pkl with step := none, segment := none, gapSides := [] } }
  if done then a.authAll else a

/-- The next side of the gap takes its step; after the gap's first, only if the step with its repeats ends before the
nodes return to fast mode (R317). Without a side left, no step runs. -/
def State.gapGo (s : State) (now : Nat) : State :=
  match s.pkl.segment, s.pkl.gapSides with
  | some seg, side :: rest =>
    let a := { s with pkl := { s.pkl with step := none, gapSides := rest } }
    match a.enumPos side with
    | none => a.segmentDone
    | some p =>
      if !a.sideReaches side seg || (rest.isEmpty && a.pkl.gapEnd < now + 3 * a.enumWait side p) then
        { a with pkl := { a.pkl with turn := side, segment := none, gapSides := [] } }
      else if a.pklTx then { (a.enumBegin side p now) with pkl := { (a.enumBegin side p now).pkl with turn := 1 - side } }
      else a
  | _, _ => s.segmentDone

/-- Re-enumeration of the lowest LOST segment begins, from the side in turn (R317). -/
def State.gapBegin (s : State) (now : Nat) : State :=
  match s.lostSegment with
  | none => s
  | some seg =>
    let sides := if s.pkl.turn = 0 then [0, 1] else [1, 0]
    let sides := sides.filter fun d => s.sideReaches d seg
    ({ s with pkl := { s.pkl with segment := some seg, gapSides := sides } }).gapGo now

/-- A step ends: its position taken, unanswered, or answered by a node that holds another position; in the last two cases
its side stops. The next step begins. -/
def State.enumNext (s : State) (e : EnumStep) (taken missed : Bool) (now : Nat) : State :=
  if s.pkl.segment.isSome then s.gapGo now
  else
    let first := missed && e.pos = (if e.side = 0 then s.ndList.head?.getD 0 else s.ndList.getLast?.getD 0)
    let a := { s with pkl := { s.pkl with
      step := none, stopped := putBit s.pkl.stopped e.side (!taken || bitOf s.pkl.stopped e.side),
      firstMiss := if first then putBit s.pkl.firstMiss e.side true else s.pkl.firstMiss } }
    a.enumGo (1 - e.side) now

/-- A node is admitted at position `p` (R302): REACHED, with its identifier. -/
def State.admitNode (s : State) (p id : Nat) : State :=
  let a := (s.set64 Reg.PKL_ND_ID_FOUND_LO id p).setF Reg.PKL_ND_STAT_STATE ndReached p
  (a.setF Reg.PKL_ND_STAT_MISSES 0 p).showPkl

/-- SLEEP (R320): the nodes sleep with every timer at zero; a sweep in progress ends with it. -/
def State.nodesSleep (s : State) : State :=
  if !s.pklOn then s
  else
    let a := (s.sendSleep).setF Reg.PKL_STATUS_PHASE pklSleeping
    let a := (List.range 48).foldl (fun (a : State) p => a.setF Reg.PKL_ND_BLEED_RUN 0 p) a
    { a with pkl := { a.pkl with
      step := none, segment := none, gapSides := [], sweep := false, recs := [], bal := [], bleed := [], auth := none, disc := false } }

end Sys2Proof.Machine
end

