-- ==== Sys2Proof/Machine/Est.lean ====
section
/-!
DEFINITION. The charge estimator (14): counting, anchors and permissions, limits, walks, learning, the state record and its
restore.
-/

namespace Sys2Proof.Machine

/-! ## Quantities -/

/-- One coulomb in the estimator's unit (R324). -/
abbrev coulomb : Nat := 16777216

/-- String `k` of the estimator. -/
def State.str (s : State) (k : Nat) : EstString := Sparse.at {} s.est.str k

/-- String `k` takes a state. -/
def State.setStr (s : State) (k : Nat) (x : EstString) : State :=
  { s with est := { s.est with str := Sparse.upd {} s.est.str k x } }

/-- Whether the estimator runs for string `k`. -/
def State.estOn (s : State) (k : Nat) : Bool := k < 2 && s.isF Reg.EST_CFG_EN && s.isF Reg.EST_S_CFG_EN k

/-- The strings the estimator runs for. -/
def State.estStrings (s : State) : List Nat := [0, 1].filter fun k => s.estOn k

/-- A charge in mC, rounded to nearest. -/
def milli (q : Int) : Int := roundEven (q * 1000) coulomb

/-- A charge in mC as the estimator holds it. -/
def ofMilli (mc : Int) : Int := roundEven (mc * coulomb) 1000

/-- CAP in mC (R324, R343). -/
def State.capMc (s : State) (k : Nat) : Nat :=
  let x := s.str k
  if x.learned ≠ 0 then x.learned else if x.cap ≠ 0 then x.cap else s.getF Reg.EST_S_CAP_FACT k

/-- Q_UNC in mC (R325). -/
def State.uncMc (s : State) (k : Nat) : Nat :=
  let x := s.str k
  let drift : Rat := (s.getF Reg.EST_S_UNC_I_UNC k * (s.est.clock - x.refAt) : Nat) / (1000000000 : Nat)
  let gain : Rat := (s.getF Reg.EST_S_UNC_GAIN_UNC k * (x.q - x.qRef).natAbs * 1000 : Nat) / (10000 * coulomb : Nat)
  x.uncRef + (ratRound (drift + gain)).toNat

/-- Age of the anchor in s (R336). -/
def State.ageS (s : State) (k : Nat) : Nat := (s.est.clock - (s.str k).anchorAt) / 1000000000 + (s.str k).ageBase

/-- A charge against CAP in 0.01 %; the value is open where CAP is zero. -/
def State.ofCap (s : State) (k : Nat) (mc : Int) : Int :=
  if s.capMc k = 0 then (s.freeVal 14 : Nat) else roundEven (mc * 10000) (s.capMc k)

/-- Signed current of string `k` in mA, of the latest CC block (R326). -/
def State.ccCur (s : State) (k : Nat) : Int := s.getS Reg.SNS_CC_CUR (40 + k)

/-- I_TS of string `k` in mA (R70). -/
def State.packI (s : State) (k : Nat) : Int := if k = 0 then s.getS Reg.SNS_PACK_I0 else s.getS Reg.SNS_PACK_I1

/-- V_SUM in 100 µV: the last valid voltage of every cell; V_NOM for a cell that never had one (R326). -/
def State.vSum (s : State) (k : Nat) : Nat :=
  ((List.range (s.getF Reg.EST_S_CFG_CELLS k)).map fun n =>
    match Sparse.at none (s.str k).cells n with
    | some (v, _) => v
    | none => s.getF Reg.EST_S_CFG_V_NOM k).foldl (· + ·) 0

/-- V_str in mV (R326). -/
def State.vStr (s : State) (k : Nat) : Nat :=
  let n := s.getF Reg.EST_S_CFG_CELLS k
  if !(s.str k).swept then n * s.getF Reg.EST_S_CFG_V_NOM k / 10
  else
    (roundEven ((s.vSum k * 100000 : Nat) + ((s.str k).iTs - s.ccCur k) * (n * s.getF Reg.EST_S_RCOMP_R_COMP k : Nat))
      1000000).toNat

/-! ## Limits (R329, R337, R338, R346) -/

/-- The positions of string `k`. -/
def State.strPos (s : State) (k : Nat) : List Nat := s.ndList.filter fun p => s.getF Reg.PKL_ND_MAP_STRING p = k

/-- AUTH_HOLD of string `k` (R346): ENFORCE, and some position of the string AUTH_FAIL or not yet authenticated. -/
def State.authHold (s : State) (k : Nat) : Bool :=
  2 ≤ s.getF Reg.EST_CFG_AUTH_POLICY &&
    (s.strPos k).any fun p => s.mapBit Reg.EST_AUTH_FAIL_LO p || !s.mapBit Reg.EST_AUTH_OK_LO p

/-- EXCESS of the rack entry in force, in mA. -/
def State.excessNow (s : State) : Nat := match s.wb.entry with | some e => e.excess | none => 0

/-- EST_S_LIMITS and the flags that bear on it follow the state of string `k`. -/
def State.showLimits (s : State) (k : Nat) : State :=
  let x := s.str k
  let hold := s.authHold k
  let blind := s.isF Reg.EST_S_STAT_BLIND k
  let dark := match x.blindAt with | some t => t + 60000000000 ≤ s.est.clock | none => false
  let cold := match x.coldAt with | some t => t + 10000000000 ≤ s.est.clock | none => false
  let zero := hold || dark || cold
  let scale := fun (a : Nat) => if blind then a / 4 else a
  let dis := if zero || !s.isF Reg.EST_S_STAT_DIS_PERMIT k || (x.walkAt.isSome && s.excessNow = 0) then 0 else scale x.dis
  let chg := if zero || !s.isF Reg.EST_S_STAT_CHG_PERMIT k || x.learn = 2 then 0 else scale x.chg
  let a := (s.setF Reg.EST_S_STAT_AUTH_HOLD (ofBool hold) k).setF Reg.EST_S_STAT_TEMP_LOST (ofBool cold) k
  (a.setSat Reg.EST_S_LIMITS_DIS dis k).setSat Reg.EST_S_LIMITS_CHG chg k

/-- Whether a walk is wanted (R337): permitted, with DRIFT or the host's WALK, and no learning discharge running. -/
def State.walkWanted (s : State) (k : Nat) : Bool :=
  let x := s.str k
  s.isF Reg.EST_CFG_WALK_PERMIT && (s.isF Reg.EST_S_STAT_DRIFT k || x.walkReq) && x.learn ≠ 2 && x.walkAt.isNone

/-- The registers of string `k` follow its state (R324 to R330). While COUNT_UNDER or COUNT_OVER is set SoC is held at 0 or 100 %
(R331, R333). -/
def State.showString (s : State) (k : Nat) : State :=
  let x := s.str k
  let soc := if s.isF Reg.EST_S_STAT_COUNT_UNDER k then 0 else if s.isF Reg.EST_S_STAT_COUNT_OVER k then 10000
    else (clampInt 0 10000 (s.ofCap k (milli x.q))).toNat
  let a := s.setF Reg.EST_S_SOC_SOC (if s.isF Reg.EST_S_STAT_UNKNOWN k then 0xFFFF else soc) k
  let a := a.setSat Reg.EST_S_SOC_SOC_UNC (s.ofCap k (s.uncMc k)).toNat k
  let a := a.setF Reg.EST_S_Q (unsign 32 (satSigned 32 (milli x.q))) k
  let a := (a.setSat Reg.EST_S_QUNC (s.uncMc k) k).setF Reg.EST_S_CAP (s.capMc k) k
  let a := (a.setF Reg.EST_S_CAP_LEARNED x.learned k).setSat Reg.EST_S_AGE (s.ageS k) k
  let fact := s.getF Reg.EST_S_CAP_FACT k
  let ovr := s.getF Reg.EST_S_HEALTH_HEALTH_OVR k
  let h := if ovr ≠ 0 then ovr else if x.learned = 0 || fact = 0 then 10000 else min 10000 (roundEven (x.learned * 10000 : Nat) fact).toNat
  let a := (a.setF Reg.EST_S_HEALTH_HEALTH h k).setSat Reg.EST_S_VSTR (s.vStr k) k
  let a := a.setF Reg.EST_S_STAT_WALK (ofBool x.walkAt.isSome) k
  let a := a.setF Reg.EST_S_STAT_LEARN (ofBool (x.learn ≠ 0)) k
  let a := a.setF Reg.EST_S_STAT_WALK_BLOCKED (ofBool (s.walkWanted k && s.effF Reg.WB_LIMITS_SOC_MAX < 100)) k
  a.showLimits k

/-! ## Ends of walks and of learning (R337, R339) -/

/-- A walk of string `k` ends: DONE, or abandoned (R337). -/
def State.walkEnd (s : State) (k : Nat) (done : Bool) : State :=
  let a := s.setStr k { s.str k with walkAt := none, walkReq := false }
  let a := a.setF (if done then Reg.EST_S_STAT_WALK_DONE else Reg.EST_S_STAT_WALK_ABANDON) 1 k
  ((a.event 0x0B04 k [k, if done then 0 else 1]).cause 10 3).showString k

/-- A learning discharge of string `k` ends (R339): outcome 0 DONE, 1 REJECT, 2 ABORT. -/
def State.learnEnd (s : State) (k outcome : Nat) : State :=
  let x := s.str k
  let a := s.setStr k { x with learn := 0 }
  let a := a.setF (if outcome = 0 then Reg.EST_S_STAT_LEARN_DONE else if outcome = 1 then Reg.EST_S_STAT_LEARN_REJECT
    else Reg.EST_S_STAT_LEARN_ABORT) 1 k
  ((a.event 0x0B05 k [k, outcome, unsign 32 (milli x.learnD)]).cause 10 3).showString k

/-- A learning discharge that breaks a condition of R338 ends without a capacity. -/
def State.learnCheck (s : State) (k : Nat) : State :=
  let x := s.str k
  let dark := match x.blindAt with | some t => t + 60000000000 < s.est.clock | none => false
  let taken : Bool := decide ((s.getF Reg.EST_LEARN_CFG_RET_MAX * s.getF Reg.EST_S_CAP_FACT k : Nat) < milli x.learnIn * 1000)
  if x.learn = 2 && (s.effF Reg.WB_LIMITS_SOC_FLOOR ≠ 0 || dark || taken) then s.learnEnd k 2 else s

/-! ## The frame (R324 to R326, R331, R333) -/

/-- A string counts the charge of a frame (R324). -/
def State.estCount (s : State) (k : Nat) : State :=
  let x := s.str k
  let acc := Sparse.at 0 s.sns.ccAcc k
  let d := acc - x.prev
  if !s.estOn k then s.setStr k { x with prev := acc }
  else
    let dq := if 0 ≤ d then -d else -(roundEven (d * (s.getF Reg.EST_S_ETA k % 2 ^ 17 : Nat)) (2 ^ 16))
    let now := s.est.clock
    let amps := (s.ccCur k).natAbs
    let peak := (now, amps) :: (x.peak.filter fun e => amps < e.2 && now < e.1 + 2000000000)
    let run := x.learn = 2
    let q := x.q + dq
    let y := { x with
      q := q, prev := acc, counted := x.counted + dq, through := x.through + d.toNat, peak := peak,
      learnD := if run then x.learnD - dq else x.learnD, learnIn := if run && d < 0 then x.learnIn + dq else x.learnIn }
    let cap := ofMilli (s.capMc k)
    let known := !s.isF Reg.EST_S_STAT_UNKNOWN k
    let under := known && 0 < x.q && q ≤ 0 && x.swept &&
      s.getF Reg.EST_S_VBASE_EMPTY_BASE k < s.getF Reg.EST_S_VOC_LO k
    let above := known && x.q < cap && cap ≤ q && x.swept && s.getF Reg.EST_S_VOC_HI k < s.getF Reg.EST_S_VBASE_FULL_BASE k
    let a := s.setStr k y
    let a := if under then a.setF Reg.EST_S_STAT_COUNT_UNDER 1 k else a
    let a := if above then a.setF Reg.EST_S_STAT_COUNT_OVER 1 k else a
    (a.learnCheck k).showString k

/-- SHIP_STEP takes a value (R347). -/
def State.shipStep (s : State) (n : Nat) : State :=
  let a := (s.setF Reg.EST_STATUS_SHIP_STEP n).cause 10 5
  { a with est := { a.est with shipAt := a.est.clock } }

/-- The estimator's part of the frame at module time `now`. -/
def State.estFrame (s : State) (now : Nat) : State :=
  let a := { s with est := { s.est with clock := s.est.clock + (now - s.est.last), last := now } }
  let a := (a.estCount 0).estCount 1
  if a.getF Reg.EST_STATUS_SHIP_STEP = 4 && a.est.shipAt + 30000000 ≤ a.est.clock then a.shipStep 5 else a

/-! ## Sweep closes (R327 to R329, R332, R338) -/

/-- A cell as a sweep gives it: its number in the string, voltage (100 µV), T_s of the voltage, whether the voltage is of
this sweep and neither DISTURBED nor invalid. -/
structure CellView where
  cell : Nat
  v : Nat
  ts : Option Nat
  good : Bool

/-- The cells of string `k` as the position registers show them. -/
def State.cellViews (s : State) (k : Nat) : List CellView :=
  (s.strPos k).flatMap fun p => (List.range (s.getF Reg.PKL_ND_MAP_CELLS p)).map fun i =>
    let w := s.getF Reg.PKL_ND_CELL p (i / 2)
    let bad := bitOf (s.getF Reg.PKL_ND_CELLFLAG_INVALID p) i || bitOf (s.getF Reg.PKL_ND_CELLFLAG_DISTURBED p) i
    { cell := s.getF Reg.PKL_ND_MAP_FIRST_CELL p + i, v := bitsOf w (16 * (i % 2)) 16,
      ts := Sparse.at none s.pkl.ts p, good := !bad && !s.isF Reg.PKL_ND_STAT_STALE p }

/-- An anchor is set (R328): `full` or empty. The count just before is recorded, and a disagreement with it (R331 to R333). -/
def State.setAnchor (s : State) (k : Nat) (full : Bool) : State :=
  let x := s.str k
  let q := if full then ofMilli (s.capMc k) else 0
  let known := !s.isF Reg.EST_S_STAT_UNKNOWN k
  let kind := if full then 1 else 2
  let a := s.event 0x0B01 k [k, kind, unsign 32 (milli x.q)]
  let a := if known && x.q ≠ q then
      (a.setF Reg.EST_S_STAT_DISAGREE 1 k).event 0x0B02 k [k, kind, unsign 32 (milli (if full then q - x.q else -x.q))]
    else a
  let unc := roundEven (s.getF Reg.EST_S_UNC_ANCHOR_UNC k * s.capMc k : Nat) 1000
  let a := a.setStr k { x with
    q := q, qRef := q, uncRef := unc.toNat, refAt := s.est.clock, anchorAt := s.est.clock, ageBase := 0, kind := kind,
    anchored := true }
  let a := (a.setF Reg.EST_S_STAT_UNKNOWN 0 k).setF Reg.EST_S_STAT_COUNT_UNDER 0 k
  let a := (a.setF Reg.EST_S_STAT_COUNT_OVER 0 k).setF Reg.EST_S_STAT_DRIFT 0 k
  let a := ((a.setF Reg.EST_S_STAT_ANCHOR kind k).setF Reg.EST_S_STAT_ANCHOR_SET 1 k).cause 10 0
  let a := if full && x.walkAt.isSome then a.walkEnd k true else a
  if full then
    if x.learn = 1 then a.setStr k { a.str k with learn := 2, learnAt := a.est.clock, learnD := 0, learnIn := 0 } else a
  else if x.learn = 2 then
    let d := milli x.learnD
    let fact : Int := (s.getF Reg.EST_S_CAP_FACT k : Nat)
    if fact * 50 ≤ d * 100 && d * 100 ≤ fact * 105 then
      let b := a.setStr k { a.str k with
        learned := d.toNat, learnTime := s.utc s.est.last, learns := min 255 (x.learns + 1) }
      b.learnEnd k 0
    else a.learnEnd k 1
  else a

/-- D(T) (R329), from the lowest and the highest valid temperature in 0.5 °C; a pair of limits without a slope between acts as a
step. -/
def State.derate (s : State) (k : Nat) (lo hi : Int) : Rat :=
  let c := fun (f : Fld) => 2 * s.getS f k
  let line := fun (x zero full : Int) => -- rises from `zero` to `full`
    if full ≤ x then (1 : Rat) else if x ≤ zero then 0 else ((x - zero : Int) : Rat) / ((full - zero : Int) : Rat)
  min (line lo (c Reg.EST_S_TDER_T_LO_ZERO) (c Reg.EST_S_TDER_T_LO_FULL))
    (line (-hi) (-(c Reg.EST_S_TDER_T_HI_ZERO)) (-(c Reg.EST_S_TDER_T_HI_FULL)))

/-- The string's valid temperatures of AGE at most 1 s, in 0.5 °C. -/
def State.temps (s : State) (k : Nat) : List Int :=
  (s.strPos k).flatMap fun p =>
    if s.getF Reg.PKL_ND_AGE p ≤ 1000 && 0 < s.getF Reg.PKL_ND_STAT_VIA p then
      ((List.range (min 4 (s.getF Reg.PKL_ND_MAP_TEMPS p))).map fun i =>
        signed 8 (bitsOf (s.getF Reg.PKL_ND_TEMP p) (8 * i) 8)).filter (· ≠ -128)
    else []

/-- A list's least and greatest element. -/
def bounds (xs : List Int) : Option (Int × Int) := match xs with
  | [] => none
  | x :: r => some (r.foldl min x, r.foldl max x)

/-- A sweep closes with sample instant `ts`: string `k` compares its cells with its thresholds and takes its limits (R327 to R329, R332).
Without a valid temperature no rule gives D(T) until TEMP_LOST makes the limits zero: a free value from 0 to 1. -/
def State.estClose (s : State) (k ts : Nat) : State :=
  if !s.estOn k then s
  else
    let cells := s.cellViews k
    let its := s.packI k
    let r : Int := (s.getF Reg.EST_S_RCOMP_R_COMP k : Nat)
    let fresh := cells.filter (·.good)
    let x := s.str k
    let kept := fresh.foldl (fun m c => Sparse.upd none m c.cell (some (c.v, c.ts.getD ts))) x.cells
    let a := s.setStr k { x with cells := kept, swept := true, iTs := its }
    -- V_OC in nV
    let oc := fun (v : Nat) => (v : Int) * 100000 + its * r
    let full : Int := (s.getF Reg.EST_S_VBASE_FULL_BASE k : Nat) * 100000
    let empty : Int := (s.getF Reg.EST_S_VBASE_EMPTY_BASE k : Nat) * 100000
    let gHi : Int := (s.getF Reg.EST_S_VGUARD_GUARD_HI k : Nat) * 100000
    let gLo : Int := (s.getF Reg.EST_S_VGUARD_GUARD_LO k : Nat) * 100000
    let hyst : Int := (s.getF Reg.EST_S_RCOMP_PERM_HYST k : Nat) * 1000000
    let a := match bounds (fresh.map fun c => oc c.v) with
      | none => a
      | some (lo, hi) =>
        let show100 := fun (v : Int) => (clampInt 0 65535 (roundEven v 100000)).toNat
        let a := (a.setF Reg.EST_S_VOC_HI (show100 hi) k).setF Reg.EST_S_VOC_LO (show100 lo) k
        let a := if full ≤ hi then
            let b := a.setF Reg.EST_S_STAT_CHG_PERMIT 0 k
            if full - its * r ≤ gHi then b.setAnchor k true else b
          else if hi < full - hyst then a.setF Reg.EST_S_STAT_CHG_PERMIT 1 k else a
        if lo ≤ empty then
          let b := a.setF Reg.EST_S_STAT_DIS_PERMIT 0 k
          if gLo ≤ empty - its * r then b.setAnchor k false else b
        else if empty + hyst < lo then a.setF Reg.EST_S_STAT_DIS_PERMIT 1 k else a
    -- limits
    let young := (List.range (s.getF Reg.EST_S_CFG_CELLS k)).filterMap fun n => match Sparse.at none kept n with
      | some (v, t) => if ts ≤ t + 1000000000 then some (oc v) else none
      | none => none
    let blind := young.length < s.getF Reg.EST_S_CFG_CELLS k
    let temps := s.temps k
    let d : Rat := match bounds temps with | some (lo, hi) => s.derate k lo hi | none => (s.freeVal 0x149 % 1001 : Nat) / (1000 : Nat)
    let a := if temps.isEmpty then a.useFree else a
    let amp := fun (room : Int) => if r = 0 then (if 0 < room then (1000000 : Rat) else 0) else (room : Rat) / (r * 1000 : Int)
    let dis : Rat := (s.getF Reg.EST_S_IMAX_I_DIS_MAX k : Rat) * d
    let chg : Rat := (s.getF Reg.EST_S_IMAX_I_CHG_MAX k : Rat) * d
    let dis := match bounds young with | some (lo, _) => min dis (amp (lo - gLo)) | none => dis
    let chg := match bounds young with | some (_, hi) => min chg (amp (gHi - hi)) | none => chg
    let y := a.str k
    let keep := fun (c : Bool) (t : Option Nat) => if c then some (t.getD s.est.clock) else none
    let a := a.setStr k { y with
      dis := (ratFloor (max 0 dis)).toNat, chg := (ratFloor (max 0 chg)).toNat,
      blindAt := keep blind y.blindAt, coldAt := keep temps.isEmpty y.coldAt }
    let a := a.setF Reg.EST_S_STAT_BLIND (ofBool blind) k
    let hot := temps.any fun t =>
      t < 2 * s.getS Reg.EST_LEARN_CFG_T_MIN || 2 * s.getS Reg.EST_LEARN_CFG_T_MAX < t
    let a := if (a.str k).learn = 2 && hot then a.learnEnd k 2 else a
    (a.learnCheck k).showString k

/-! ## The state record (R340 to R344) -/

/-- PACK_DIGEST of string `k`. -/
def State.packDigest (s : State) (k : Nat) : List Byte :=
  (Config.sha256 ((s.strPos k).flatMap fun p => beBytes 8 (s.idFound p))).take 16

/-- STRINGS of a record. -/
def State.strCount (s : State) : Nat := if s.isF Reg.EST_S_CFG_EN 1 then 2 else 1

/-- A string's part of the record, 88 bytes. -/
def State.recordPart (s : State) (k ts : Nat) : List Byte :=
  let x := s.str k
  let st := fun (f : Fld) => s.getF f k
  let flags := st Reg.EST_S_STAT_UNKNOWN + 2 * st Reg.EST_S_STAT_COUNT_UNDER + 4 * st Reg.EST_S_STAT_COUNT_OVER +
    8 * st Reg.EST_S_STAT_DRIFT
  let lo := s.est.clock - (s.est.last - ts) - 1000000000
  let peak := ((x.peak.filter fun e => lo ≤ e.1).map (·.2)).foldl max 0
  leBytes 2 (st Reg.EST_S_CFG_CELLS) ++ leBytes 2 flags ++ leBytes 8 (unsign 64 (milli x.q)) ++ leBytes 4 (s.uncMc k) ++
    leBytes 4 (s.capMc k) ++ leBytes 4 x.learned ++ leBytes 8 x.learnTime ++ leBytes 4 (min (s.ageS k) (2 ^ 32 - 1)) ++
    leBytes 1 x.kind ++ leBytes 1 x.learns ++ leBytes 2 (st Reg.EST_S_HEALTH_HEALTH_OVR) ++
    leBytes 8 (milli x.through).toNat ++ leBytes 4 peak ++ leBytes 4 0 ++ s.packDigest k ++
    List.replicate (16 - (s.packDigest k).length) 0#8 ++ List.replicate 16 0#8

/-- VERSION of the ESTIMATOR region in force. -/
def State.estVersion (s : State) : Nat := match s.cfg.active.find? fun r => r.region = 16 with
  | some r => r.version
  | none => 0

/-- The record of sample instant `ts` (ns); `ship` sets RFLAGS.SHIP (R340, R347). -/
def State.record (s : State) (ts : Nat) (ship : Bool) : List Byte :=
  let b := [0x41#8, 0x46#8, 0x45#8, 0x53#8] ++ leBytes 2 1 ++ leBytes 2 256 ++ leBytes 4 (s.est.seq + 1) ++
    leBytes 2 (ofBool ship) ++ leBytes 1 s.tq ++ leBytes 1 s.strCount ++ leBytes 8 (s.utc ts) ++ leBytes 8 (s.frameOf ts) ++
    leBytes 8 s.selfId ++ leBytes 4 s.estVersion ++ List.replicate 20 0#8 ++ s.recordPart 0 ts ++
    (if s.strCount = 2 then s.recordPart 1 ts else List.replicate 88 0#8) ++ List.replicate 12 0#8
  b ++ leBytes 4 (crc32c b)

/-- A new record is published in EST_REC (R341). -/
def State.publishRecord (s : State) (ts : Nat) (ship : Bool) : State :=
  if !s.isF Reg.EST_CFG_EN then s
  else
    let bs := s.record ts ship
    let a := (List.range 64).foldl (fun (a : State) i => a.setF Reg.EST_REC (leAt bs (4 * i) 4) i) s
    { a with est := { a.est with seq := a.est.seq + 1 } }

/-- Whether enumeration and authentication have ended (R304, R342). -/
def State.packReady (s : State) : Bool := s.pklPhase = pklRun && s.pkl.ready

/-- The checks of R342: the code of the first that fails. `known`: present UTC is used, and is `utc`. -/
def State.recordCheck (s : State) (bs : List Byte) (force known : Bool) (utc : Nat) : Option Nat :=
  let n := leAt bs 0x0F 1
  let ks := List.range n
  let cells := fun (k : Nat) => leAt bs (0x40 + 88 * k) 2
  let time := leAt bs 0x10 8
  if bs.length ≠ 256 || leAt bs 0 4 ≠ 0x53454641 || leAt bs 4 2 ≠ 1 || leAt bs 6 2 ≠ 256 ||
      crc32c (bs.take 252) ≠ leAt bs 252 4 then some 0x01
  else if n ≠ s.strCount || ks.any (fun k => cells k ≠ s.getF Reg.EST_S_CFG_CELLS k) then some 0x02
  else if !force && ks.any (fun k => slice bs (0x78 + 88 * k) 16 ≠ s.packDigest k) then some 0x03
  else if !force && !(s.pklPhase = pklRun && s.ndList.all fun p => s.ndState p = ndReached || s.ndState p = ndUnreached) then some 0x06
  else if known && utc < time then some 0x05
  else if known && s.getF Reg.EST_RESTORE_CFG_MAX_AGE * 86400000000 < utc - time then some 0x04
  else none

/-- String `k` takes its part of a record that passed, with the gap `g` in µs and HOST_GAP in 0.1 s (R343). -/
def State.restoreString (s : State) (bs : List Byte) (k g gap : Nat) : State :=
  let at_ := fun (o n : Nat) => leAt bs (0x40 + 88 * k + o) n
  let x := s.str k
  let cap := at_ 0x10 4
  let self : Int := roundEven (s.getF Reg.EST_RESTORE_CFG_SELF_DIS * cap * g : Nat) (10000 * 86400000000)
  let live := if bitOf (leAt bs 0x0C 2) 0 then 0 else at_ 0x30 4 * gap / 10
  let s := if x.learn = 2 then s.learnEnd k 2 else s
  let x := s.str k
  let y := { x with
    cap := cap, learned := at_ 0x14 4, learnTime := at_ 0x18 8, learns := at_ 0x25 1,
    through := (ofMilli (at_ 0x28 8 : Nat)).toNat }
  let q := ofMilli (signed 64 (at_ 0x04 8) - self) + x.counted
  let y := if x.anchored then y else { y with
    q := q, qRef := q, uncRef := at_ 0x0C 4 + self.toNat + live, refAt := s.est.clock, anchorAt := s.est.clock,
    ageBase := at_ 0x20 4 + g / 1000000, kind := at_ 0x24 1 }
  let a := (s.setStr k y).setF Reg.EST_S_HEALTH_HEALTH_OVR (at_ 0x26 2) k
  let a := if x.anchored then a
    else (a.setF Reg.EST_S_STAT_UNKNOWN 0 k).setF Reg.EST_S_STAT_ANCHOR 3 k
  (a.setF Reg.EST_S_STAT_RESTORED 1 k).showString k

/-- A record is checked and, if it passes, restored (R342 to R344): module time `now`, HOST_GAP in 0.1 s. -/
def State.applyRecord (s : State) (bs : List Byte) (force : Bool) (now gap : Nat) : State :=
  let known := s.tq = tqLocked || s.tq = tqHoldover
  match s.recordCheck bs force known (s.utc now) with
  | some c => ((s.setF Reg.EST_STATUS_RESTORE 3).setF Reg.EST_STATUS_RESTORE_ERR c).cause 10 2
  | none =>
    let g := if known then s.utc now - leAt bs 0x10 8 else s.getF Reg.EST_RESTORE_CFG_MAX_AGE * 86400000000
    let a := (List.range (leAt bs 0x0F 1)).foldl (fun (a : State) k => a.restoreString bs k g gap) s
    ((a.setF Reg.EST_STATUS_RESTORE 2).setF Reg.EST_STATUS_RESTORE_ERR 0).cause 10 2

/-! ## Commands -/

/-- A command that is not valid in the present state (EST_CMD). -/
def State.estBusy (s : State) : State := s.setF Reg.EST_STATUS_RESTORE_ERR 7

/-- RESTORE of EST_CMD (R342). -/
def execEstRestore (force : Bool) (s : State) : Res :=
  .next <|
    if !s.isF Reg.EST_CFG_EN || s.est.restore.isSome then s.estBusy
    else
      let a := (s.setF Reg.EST_STATUS_RESTORE 1).setF Reg.EST_STATUS_RESTORE_ERR 0
      { a with est := { a.est with restore := some (force, a.est.clock) } }

/-- RESTORE_APPLY at `now` (R342): the waits for enumeration (5 s) and for time quality (10 s) are over. -/
def execRestoreApply (now : Nat) (s : State) : Res :=
  .next <| match s.est.restore with
    | none => s
    | some (force, since) =>
      let known := s.tq = tqLocked || s.tq = tqHoldover
      if (s.packReady || since + 5000000000 ≤ s.est.clock) && (known || since + 10000000000 ≤ s.est.clock) then
        let bs := (List.range 64).flatMap fun i => leBytes 4 (s.getF Reg.EST_RST i)
        let a := { s with est := { s.est with restore := none } }
        a.applyRecord bs force now (s.getF Reg.EST_RESTORE_CFG_HOST_GAP)
      else s

/-- WALK of EST_CMD for string `k` (R337). -/
def execEstWalk (k : Nat) (s : State) : Res :=
  .next <|
    if !s.estOn k || (s.str k).walkAt.isSome then s.estBusy
    else (s.setStr k { s.str k with walkReq := true }).showString k

/-- WALK_BEGIN of string `k` (R337): scheduled, and P_FF (without a lane APPLIED, P_TOT) negative. -/
def execWalkBegin (k : Nat) (s : State) : Res :=
  .next <|
    let p : Rat := if s.getF Reg.WB_STATUS_APPLIED ≠ 0 then s.wb.ff else s.wb.tot
    if s.estOn k && s.walkWanted k && 100 ≤ s.effF Reg.WB_LIMITS_SOC_MAX && decide (p < 0) then
      (s.setStr k { s.str k with walkAt := some s.est.clock, walkReq := false }).showString k
    else s

/-- WALK_ABORT of EST_CMD (R337). -/
def execWalkAbort (k : Nat) (s : State) : Res :=
  .next <| if s.estOn k && ((s.str k).walkAt.isSome || (s.str k).walkReq) then s.walkEnd k false else s.estBusy

/-- WALK_MAX_ELAPSED of string `k` (R337). -/
def execWalkMaxElapsed (k : Nat) (s : State) : Res :=
  .next <| match (s.str k).walkAt with
    | some t => if t + s.getF Reg.EST_DRIFT_CFG_WALK_MAX * 3600000000000 ≤ s.est.clock then s.walkEnd k false else s
    | none => s

/-- LEARN of EST_CMD (R338). -/
def execEstLearn (k : Nat) (s : State) : Res :=
  .next <| if s.estOn k && (s.str k).learn = 0 then (s.setStr k { s.str k with learn := 1 }).showString k else s.estBusy

/-- LEARN_ABORT of EST_CMD (R339). -/
def execLearnAbort (k : Nat) (s : State) : Res :=
  .next <| if s.estOn k && (s.str k).learn ≠ 0 then s.learnEnd k 2 else s.estBusy

/-- LEARN_TIMEOUT_ELAPSED of string `k` (R338). -/
def execLearnTimeoutElapsed (k : Nat) (s : State) : Res :=
  .next <|
    if (s.str k).learn = 2 && (s.str k).learnAt + s.getF Reg.EST_LEARN_CFG_TIMEOUT * 3600000000000 ≤ s.est.clock then
      s.learnEnd k 2
    else s

/-- DRIFT of string `k`: the age reaches DRIFT_AGE (R336). -/
def execDrift (k : Nat) (s : State) : Res :=
  .next <|
    if s.estOn k && !s.isF Reg.EST_S_STAT_DRIFT k && s.getF Reg.EST_DRIFT_CFG_DRIFT_AGE * 3600 ≤ s.ageS k then
      (((s.setF Reg.EST_S_STAT_DRIFT 1 k).event 0x0B03 k [k, s.ageS k]).cause 10 1).showString k
    else s

/-- A read of EST_REC word 0 latches the other words of the record for the path (R341, R347). -/
def State.estLatch (s : State) (path : Nat) : State :=
  let a := (List.range 63).foldl (fun (a : State) i =>
    a.wrPath path (Reg.EST_REC.addr (i + 1) 0) (s.rd (Reg.EST_REC.addr (i + 1) 0))) s
  if s.getF Reg.EST_STATUS_SHIP_STEP = 3 then a.setF Reg.EST_STATUS_RECORD_READ 1 else a

/-! ## Ship mode (R347, R348) -/

/-- SHIP of EST_CMD (R347). -/
def execEstShip (s : State) : Res :=
  .next <|
    let st := s.getF Reg.EST_STATUS_SHIP_STEP
    if !s.isF Reg.EST_CFG_EN || (st ≠ 0 && st ≠ 7) then s.estBusy
    else
      let a := ((s.shipStep 1).setF Reg.WB_STATUS_HOLD_CMD 1).setF Reg.EST_STATUS_RECORD_READ 0
      let a := { a with est := { a.est with slept := false } }
      if a.pklTx then a.emit .twin [0x53] else a

/-- The sequence is given up before the power state (R348), at `now`. -/
def State.shipGiveUp (s : State) (now : Nat) : State :=
  let a := (s.setF Reg.WB_STATUS_HOLD_CMD 0).shipStep 7
  if s.est.slept then
    let a := { a with est := { a.est with slept := false } }
    a.wakeNodes.enumGo 0 now
  else a

/-- SHIP_QUIET at `now` (R347): P_TOT is zero and every string below 2 A, or 1 s has passed. -/
def execShipQuiet (now : Nat) (s : State) : Res :=
  .next <|
    if s.getF Reg.EST_STATUS_SHIP_STEP ≠ 1 then s
    else if decide (s.wb.tot = 0) && s.estStrings.all (fun k => (s.ccCur k).natAbs < 2000) then
      (s.tripGroups (s.getF Reg.EST_SHIP_CFG_SHIP_GRP) 4 (16 * now)).shipStep 2
    else if s.est.shipAt + 1000000000 ≤ s.est.clock then s.shipGiveUp now
    else s

/-- CTR_DLY of the groups that SHIP trips, in ms: the longest. -/
def State.shipDelay (s : State) : Nat :=
  ((List.range 8).map fun g => if bitOf (s.getF Reg.EST_SHIP_CFG_SHIP_GRP) g then s.effF Reg.PWM_GRP_CFG_CTR_DLY g else 0).foldl max 0

/-- SHIP_RECORD (R347). -/
def execShipRecord (s : State) : Res :=
  .next <|
    if s.getF Reg.EST_STATUS_SHIP_STEP = 2 && s.est.shipAt + (s.shipDelay + 10) * 1000000 ≤ s.est.clock then
      ((s.publishRecord (s.sns.ts.getD s.est.last) true).setF Reg.EST_STATUS_RECORD_READ 0).shipStep 3
    else s

/-- SHIP_RECORD_WAIT_END (R347): the record was read, or SHIP_WAIT has passed; the nodes sleep. -/
def execShipRecordWaitEnd (s : State) : Res :=
  .next <|
    let read := s.isF Reg.EST_STATUS_RECORD_READ
    if s.getF Reg.EST_STATUS_SHIP_STEP = 3 &&
        (read || s.est.shipAt + s.getF Reg.EST_SHIP_CFG_SHIP_WAIT * 1000000000 < s.est.clock) then
      let a := if read then s else s.event 0x0B07 0xFFFF [s.est.seq]
      let a := { a.nodesSleep with est := { a.nodesSleep.est with slept := true } }
      a.shipStep 4
    else s

/-- SHIP_CHG_WAIT_END at `now` (R347, R348): CHG_DETECT as sampled, 30 ms or more after SLEEP. -/
def execShipChgWaitEnd (asserted : Bool) (now : Nat) (s : State) : Res :=
  .next <|
    if s.getF Reg.EST_STATUS_SHIP_STEP ≠ 5 then s
    else if !asserted then s.shipStep 6
    else if s.est.shipAt + s.getF Reg.EST_SHIP_CFG_BUS_WAIT * 1000000000 ≤ s.est.clock then s.shipGiveUp now
    else s

/-- SHIP_ABORT of EST_CMD (R348). -/
def execShipAbort (now : Nat) (s : State) : Res :=
  .next <|
    let st := s.getF Reg.EST_STATUS_SHIP_STEP
    if 1 ≤ st && st ≤ 6 then s.shipGiveUp now else s.estBusy

end Sys2Proof.Machine
end

