-- ==== Sys2Proof/Machine/Jobs.lean ====
section
/-!
DEFINITION. Coppice's job table and energy attribution (11 R253, R254, R257, R264 to R268), and what a committed grant
entry and a hall entry do in a module (R251, R261, R262, R267). Powers in mW, energies in mJ unless named otherwise.
-/

namespace Sys2Proof.Machine

/-! ## The job table (R253, R254) -/

/-- Frames per grant interval. -/
abbrev grantFrames : Nat := 1000

/-- QUANTUM, MHz. -/
def State.quantum (s : State) : Nat := max 1 (s.getF Reg.CPC_GRANT_CFG_QUANTUM)

/-- A size in MHz rounded down to a multiple of QUANTUM, at least QUANTUM. -/
def State.quantized (s : State) (v : Nat) : Nat := max s.quantum (v / s.quantum * s.quantum)

/-- The table entries of the packages that belong to job `j`. -/
def State.packagesOf (s : State) (j : Nat) : List Nat :=
  (s.hnt.pt.filter fun e => e.2.job = some j && s.ptIn e.1 && s.getF Reg.HNT_PT_STATE_ROLE e.1 = rolePackage).map Prod.fst

/-- The override in force for job `j`. -/
def State.overrideOf (s : State) (j : Nat) : Option Nat :=
  (List.range 64).find? fun o => s.isF Reg.CPC_OVR_A_EN o && s.getF Reg.CPC_OVR_A_JOB o = j

/-- N_j, floor, cap, priority, order and RANGE of a job as its packages and its override give them; S_j is N_j × SENS_DEFAULT until it is
measured (R253, R255). -/
def State.refreshJob (s : State) (x : JobSlot) : JobSlot :=
  let ps := (s.packagesOf x.job).map s.partner
  let q := s.quantum
  let floor := ((ps.map fun p => p.fMin).foldl max 0 + q - 1) / q * q
  let o := s.overrideOf x.job
  let least := match ps with
    | [] => 0
    | p :: r => r.foldl (fun m y => min m y.fMax) p.fMax
  let lim := match o with
    | some o => if s.getF Reg.CPC_OVR_B_CAP o = 0 then least else min least (s.getF Reg.CPC_OVR_B_CAP o)
    | none => least
  let cap := lim / q * q
  let prio := match o with | some o => s.getF Reg.CPC_OVR_A_PRIO o | none => 4
  let order := match o with
    | some o => if s.isF Reg.CPC_OVR_A_ORDER_EN o then s.getF Reg.CPC_OVR_A_ORDER o else s.getF Reg.CPC_ORDER_DEFAULT_ORDER
    | none => s.getF Reg.CPC_ORDER_DEFAULT_ORDER
  { x with n := ps.length, floor := floor, cap := cap, range := decide (cap < floor), prio := prio, order := order
           sens := if x.tuned then x.sens else ((ps.length * s.getF Reg.CPC_SENS_DEFAULT : Nat) : Rat) / 1000 }

/-- A frequency limited to a job's floor and cap; the cap governs where the floor exceeds it. -/
def JobSlot.limitTo (x : JobSlot) (f : Nat) : Nat := min x.cap (max x.floor f)

/-- The slot of job `j`. -/
def State.jobSlot (s : State) (j : Nat) : Option Nat := (List.find? (fun e => e.2.job = j) s.cpc.jobs).map Prod.fst

/-- The lowest slot without a job. -/
def State.jobRoom (s : State) : Option Nat := (List.range 64).find? fun k => (Sparse.find s.cpc.jobs k).isNone

/-- STATE of R261: LIMITED, HELD, RANGE. -/
def JobSlot.state (x : JobSlot) : Nat := ofBool x.limit.isSome + 2 * ofBool x.held + 4 * ofBool x.range

/-- The registers of slot `k` follow the job table. -/
def State.showJob (s : State) (k : Nat) : State :=
  match Sparse.find s.cpc.jobs k with
  | none => (((s.wr (Reg.CPC_JOB_ID.addr k 0) 0#32).wr (Reg.CPC_JOB_FREQ.addr k 0) 0#32).wr (Reg.CPC_JOB_RANGE.addr k 0) 0#32).wr
      (Reg.CPC_JOB_SENS.addr k 0) 0#32
  | some x =>
    let a := ((s.setF Reg.CPC_JOB_ID_VALID 1 k).setSat Reg.CPC_JOB_ID_N x.n k).setF Reg.CPC_JOB_ID_JOB x.job k
    let a := ((a.setF Reg.CPC_JOB_FREQ_FREQ x.freq k).setF Reg.CPC_JOB_FREQ_STATE x.state k).setF Reg.CPC_JOB_FREQ_PRIO x.prio k
    let a := (a.setF Reg.CPC_JOB_RANGE_CAP x.cap k).setF Reg.CPC_JOB_RANGE_FLOOR x.floor k
    a.setSat Reg.CPC_JOB_SENS (ratFloor (x.sens * 256)).toNat k

/-- Slot `k` takes a job, or none. -/
def State.setJob (s : State) (k : Nat) (x : Option JobSlot) : State :=
  let a := { s with cpc := { s.cpc with jobs := match x with
    | some x => Sparse.insert s.cpc.jobs k x
    | none => Sparse.erase s.cpc.jobs k } }
  (a.showJob k).setF Reg.CPC_STATUS_JOBS a.cpc.jobs.length

/-- A job that no grant has reached yet, with the lowest FREQ among its packages' TELEM (R253): its first grant raises none of them. -/
def State.startFreq (s : State) (x : JobSlot) : JobSlot :=
  let x := s.refreshJob x
  let f := match (s.packagesOf x.job).map fun i => (s.partner i).freq with
    | [] => 0
    | y :: r => r.foldl min y
  { x with freq := x.limitTo (f / s.quantum * s.quantum) }

/-- Job `j` enters the table (R253). -/
def State.enterJob (s : State) (j k : Nat) : State := s.setJob k (some (s.startFreq { job := j }))

/-- JOB_FULL follows the jobs that wait. -/
def State.showWaiting (s : State) : State := s.setF Reg.CPC_STATUS_JOB_FULL (ofBool (s.cpc.waiting ≠ []))

/-- Whether packages of the rack still name job `j` and not all of them have ended it. -/
def State.jobNamed (s : State) (j : Nat) : Bool :=
  !((s.packagesOf j).all fun p => (s.partner p).ended = some j)

/-- Waiting jobs that no package names any more no longer wait (R254). -/
def State.dropWaiting (s : State) : State :=
  ({ s with cpc := { s.cpc with waiting := s.cpc.waiting.filter fun w => s.jobNamed w.2.1 } }).showWaiting

/-- Job `j` waits for room in the table, or has its packages counted while it does (R254). Slots that waiting jobs will take
count as taken. -/
def State.waitJob (s : State) (j : Nat) : State :=
  let n := (s.packagesOf j).length
  match List.find? (fun (w : Nat × Nat × Nat) => w.2.1 = j) s.cpc.waiting with
  | some _ =>
    { s with cpc := { s.cpc with waiting := s.cpc.waiting.map fun (w : Nat × Nat × Nat) => if w.2.1 = j then (w.1, j, n) else w } }
  | none =>
    let a := { s with cpc := { s.cpc with waiting := s.cpc.waiting ++ [(s.frame / grantFrames, j, n)] } }
    (a.event 0x0902 0xFFFF [j, n]).showWaiting

/-- An accepted TELEM names job `j`: it is entered, or waits while the table is full (R253, R254). -/
def State.nameJob (s : State) (j : Nat) : State :=
  match s.jobSlot j with
  | some k =>
    match Sparse.find s.cpc.jobs k with
    | some x => s.setJob k (some { (if x.fresh then s.startFreq x else s.refreshJob x) with unnamed := 0 })
    | none => s
  | none =>
    match s.jobRoom with
    | some k => if s.cpc.jobs.length + s.cpc.waiting.length < 64 then s.enterJob j k else s.waitJob j
    | none => s.waitJob j

/-- The job of slot `k` leaves the table; its packages name none until their next TELEM. -/
def State.leaveJob (s : State) (k : Nat) : State :=
  match Sparse.find s.cpc.jobs k with
  | none => s
  | some x =>
    let a := (s.packagesOf x.job).foldl (fun a i => a.setPartner i { a.partner i with job := none, ended := none }) s
    a.setJob k none

/-- JOB_TABLE_TIMEOUT of slot `k`: none of its packages has named the job for 100 grant intervals (R253). -/
def execJobTableTimeout (k : Nat) (s : State) : Res :=
  .next <| match Sparse.find s.cpc.jobs k with
    | some x => if 100 ≤ x.unnamed then s.leaveJob k else s
    | none => s

/-- A waiting job that goes before another: first named earlier, then the lower identifier (R254). -/
def waitsBefore (a b : Nat × Nat × Nat) : Bool := a.1 < b.1 || (a.1 = b.1 && a.2.1 < b.2.1)

/-- Waiting jobs are entered while the table has room (R254). -/
def State.enterWaiting : Nat → State → State
  | 0, s => s
  | n + 1, s =>
    match s.jobRoom, s.cpc.waiting with
    | some k, w :: ws =>
      let m := ws.foldl (fun m x => if waitsBefore x m then x else m) w
      let a := { s with cpc := { s.cpc with waiting := s.cpc.waiting.filter fun x => x ≠ m } }
      let a := if s.packagesOf m.2.1 = [] then a else a.enterJob m.2.1 k
      State.enterWaiting n a.showWaiting
    | _, _ => s

/-- A HINT END of a package for job `j`: the job leaves at once, or waits no longer, when every package of it has ended (R253, R254). -/
def State.endJob (s : State) (i j : Nat) : State :=
  let a := s.setPartner i { s.partner i with ended := some j }
  match a.jobSlot j with
  | some k => if a.jobNamed j then a else a.leaveJob k
  | none => a.dropWaiting

/-- A TELEM with a LIMIT bit and a FREQ below its job's grant (R257): the lowest limit governs. -/
def State.reportLimit (s : State) (j freq : Nat) (limited : Bool) : State :=
  match s.jobSlot j with
  | none => s
  | some k =>
    match Sparse.find s.cpc.jobs k with
    | none => s
    | some x =>
      if !limited then s
      else
        let f := freq / s.quantum * s.quantum
        let lim := match x.limit with | some l => some (min l f) | none => some f
        s.setJob k (some { x with quiet := 0, limit := if freq < x.freq then lim else x.limit })

/-- LIMIT_CLEAR_ELAPSED of slot `k`: no package reported a LIMIT bit for LIMIT_CLEAR grant intervals (R257). -/
def execLimitClearElapsed (k : Nat) (s : State) : Res :=
  .next <| match Sparse.find s.cpc.jobs k with
    | some x => if x.limit.isSome && max 1 (s.getF Reg.CPC_ORDER_LIMIT_CLEAR) ≤ x.quiet then s.setJob k (some { x with limit := none })
        else s
    | none => s

/-! ## Attribution (R264 to R268) -/

/-- What an account received in an interval: model energy in nJ, measured energy in mJ, and the measured energy by job. -/
structure Share where
  model : Nat := 0
  meas : Nat := 0
  jobs : Sparse Nat := []
  deriving DecidableEq, Repr

/-- DYN of an ACTIVITY in nJ (R265). -/
def State.dynOf (s : State) (a : Activity) : Nat :=
  a.compute * s.getF Reg.CPC_ATTR_COMPUTE * 1000 + a.memory * s.getF Reg.CPC_ATTR_MEMORY + a.link * s.getF Reg.CPC_ATTR_LINK

/-- The account an ACTIVITY charges: the package's default account where it names none (R264). -/
def Partner.charged (p : Partner) (a : Activity) : Nat := if a.account = 0 then p.account else a.account

/-- A package's model energies by account in nJ, from its ACTIVITY of the interval (R265). -/
def State.modelShares (s : State) (p : Partner) (acts : List Activity) : List (Nat × Nat) :=
  let dyn := acts.foldl (fun (m : Sparse Nat) a =>
    let k := p.charged a
    Sparse.insert m k ((Sparse.find m k).getD 0 + s.dynOf a)) []
  let sum := (dyn.map Prod.snd).foldl (· + ·) 0
  let static := s.getF Reg.CPC_ATTR_STATIC * 10
  dyn.map fun e => (e.1, e.2 + 1000 * (if sum = 0 then roundEven static dyn.length else roundEven (static * e.2 : Nat) sum).toNat)

/-- Measured energy `e` divided among accounts in proportion (R266): floors, the remainder to the largest share, the lowest
account on a tie; equal parts where every share is zero (R265). -/
def divideEnergy (e : Nat) (shares : List (Nat × Nat)) : List (Nat × Nat) :=
  let sum := (shares.map Prod.snd).foldl (· + ·) 0
  let parts := shares.map fun x => (x.1, if sum = 0 then e / shares.length else e * x.2 / sum)
  let rest := e - (parts.map Prod.snd).foldl (· + ·) 0
  match shares with
  | [] => []
  | x :: xs =>
    let top := xs.foldl (fun (m : Nat × Nat) y => if m.2 < y.2 then y else m) x
    parts.map fun y => if y.1 = top.1 then (y.1, y.2 + rest) else y

/-- The messages of a package whose TIME is `g` (10 ns) or earlier. -/
def Partner.telemsTo (p : Partner) (g : Nat) : List Telem := p.telems.filter fun t => t.time ≤ g
def Partner.actsTo (p : Partner) (g : Nat) : List Activity := p.acts.filter fun a => a.time ≤ g

/-- Measured energy of a package over the messages up to `g` (R266). -/
def Partner.measured (p : Partner) (g : Nat) : Nat :=
  match (p.telemsTo g).getLast?, p.eBase with
  | some t, some b => (t.energy + 2 ^ 64 - b % 2 ^ 64) % 2 ^ 64
  | _, _ => 0

/-- Energies by account of the interval that ends at `g` (10 ns); account 0 holds what goes to CPC_UNATTR. -/
def State.attribute (s : State) (g : Nat) : Sparse Share :=
  s.hnt.pt.foldl (fun (m : Sparse Share) e =>
    if s.getF Reg.HNT_PT_STATE_ROLE e.1 ≠ rolePackage then m
    else
      let p := e.2
      let acts := p.actsTo g
      let model := s.modelShares p acts
      let by_ := if acts ≠ [] then model else if p.shares ≠ [] then p.shares else [(p.account, 1)]
      let m := model.foldl (fun (m : Sparse Share) (x : Nat × Nat) =>
        let h := Sparse.at {} m x.1
        Sparse.upd {} m x.1 { h with model := h.model + x.2 }) m
      (divideEnergy (p.measured g) by_).foldl (fun (m : Sparse Share) (x : Nat × Nat) =>
        let h := Sparse.at {} m x.1
        let j := p.job.getD 0
        Sparse.upd {} m x.1 { h with meas := h.meas + x.2, jobs := Sparse.upd 0 h.jobs j (Sparse.at 0 h.jobs j + x.2) }) m) []

/-- The accounts of a grant entry: at most 128, those with the most measured energy (R267). -/
def chosenAccounts (m : Sparse Share) : List (Nat × Share) :=
  let l := m.filter fun e => e.1 ≠ 0
  if l.length ≤ 128 then l
  else
    let more := fun (a b : Nat × Share) => b.2.meas < a.2.meas || (b.2.meas = a.2.meas && a.1 < b.1)
    l.filter fun e => (l.filter fun x => more x e).length < 128

/-- E_MODEL of a share, rounded to the nearest mJ. -/
def Share.modelMj (h : Share) : Nat := (roundEven h.model 1000000).toNat

/-- What attribution up to `g` adds to CPC_UNATTR: account 0 and the accounts beyond 128. -/
def State.unattributed (s : State) (g : Nat) : Nat :=
  let m := s.attribute g
  let kept := (chosenAccounts m).map Prod.fst
  ((m.filter fun e => e.1 ∉ kept).map fun e => e.2.meas).foldl (· + ·) 0

/-- The job that gave an account the most energy; the lowest on a tie. -/
def Share.topJob (h : Share) : Option Nat :=
  (h.jobs.foldl (fun (b : Option (Nat × Nat)) x =>
    match b with
    | some y => if y.2 < x.2 then some x else b
    | none => some x) none).map Prod.fst

/-- The account that most packages of job `j` name in the messages up to `g`; the lowest on a tie (R267). -/
def State.jobAccount (s : State) (j g : Nat) : Option Nat :=
  let named := (s.packagesOf j).map fun i =>
    let p := s.partner i
    let l := ((p.actsTo g).map p.charged).dedup
    if l = [] then [p.account] else l
  let all := named.flatten.filter (· ≠ 0)
  let count := fun (a : Nat) => (all.filter (· = a)).length
  all.foldl (fun (b : Option Nat) a =>
    match b with
    | some c => if count c < count a || (count c = count a && a < c) then some a else b
    | none => some a) none

/-- The account records of a grant entry: account, E_MODEL, E_MEAS. -/
def grantAccounts (pay : List Byte) : List (Nat × Nat × Nat) :=
  let j := leAt pay 24 2
  (List.range (leAt pay 26 2)).map fun k =>
    let o := 32 + 8 * j + 24 * k
    (leAt pay o 4, leAt pay (o + 8) 8, leAt pay (o + 16) 8)

/-- The job records of a grant entry: job, FREQ, ORDER, GFLAGS, PRIO, STATE (R261). -/
def grantJobs (pay : List Byte) : List (Nat × Nat × Nat × Nat × Nat × Nat) :=
  (List.range (leAt pay 24 2)).map fun k =>
    let o := 32 + 8 * k
    (leAt pay o 2, leAt pay (o + 2) 2, leAt pay (o + 4) 1, leAt pay (o + 5) 1, leAt pay (o + 6) 1, leAt pay (o + 7) 1)

/-- An account record goes to its ACCOUNT context (R267). -/
def State.recordAccount (s : State) (now frame freq : Nat) (r : Nat × Nat × Nat) : State :=
  let x := s.ctxGet kindAccount r.1 now
  if x.2.2 = 3 then x.1
  else
    let a := x.1.ctxRecordOrHold x.2.1 0 now (leBytes 8 (s.frameTime frame / 10) ++ leBytes 4 0 ++ leBytes 4 freq ++ leBytes 8 r.2.1 ++
      leBytes 8 r.2.2 ++ leBytes 32 0)
    a.tellDesc x.2.1 fun d => { d with eModel := (d.eModel + r.2.1) % 2 ^ 64, eMeas := (d.eMeas + r.2.2) % 2 ^ 64 }

/-- The attributed messages of the interval that ends at `g` are used up (R266). -/
def State.settle (s : State) (g : Nat) : State :=
  s.hnt.pt.foldl (fun a e =>
    let p := e.2
    let acts := p.actsTo g
    a.setPartner e.1 { p with
      telems := p.telems.filter fun t => g < t.time
      acts := p.acts.filter fun t => g < t.time
      eBase := match (p.telemsTo g).getLast? with | some t => some t.energy | none => p.eBase
      shares := if acts = [] then p.shares else s.modelShares p acts }) s

/-- A grant entry of frame `g` is committed (R267): account records, parents of the JOB contexts, CPC_UNATTR. -/
def State.grantCommitted (s : State) (now : Nat) (pay : List Byte) : State :=
  let frame := leAt pay 0 8
  let g := s.frameTime frame / 10
  let m := s.attribute g
  let jobs := grantJobs pay
  let freqOf := fun (acc : Nat) => match (Sparse.at {} m acc).topJob with
    | some j => match jobs.find? fun x => x.1 = j with | some x => x.2.1 | none => 0
    | none => 0
  let un := s.unattributed g
  let a := (grantAccounts pay).foldl (fun a r => a.recordAccount now frame (freqOf r.1) r) s
  let a := jobs.foldl (fun a x =>
    match s.jobAccount x.1 g, a.ctxOf kindJob x.1 with
    | some acc, some c => match a.ctxOf kindAccount acc with
      | some p => a.nameParent c (some p)
      | none => a
    | _, _ => a) a
  let a := a.set64 Reg.CPC_UNATTR_LO (min (2 ^ 64 - 1) (a.get64 Reg.CPC_UNATTR_LO + un))
  a.settle g

/-- GRANT messages of a committed grant entry with its commit index (R230, R262). -/
def State.sendGrants (s : State) (idx : Nat) (pay : List Byte) : State :=
  let lead := min 1000 (max 10 (s.getF Reg.CPC_GRANT_TIME_GRANT_LEAD))
  let valid := max 20 (s.getF Reg.CPC_GRANT_TIME_VALID_FOR_MS)
  (grantJobs pay).foldl (fun a x =>
    a.hintSend 4 none (beBytes 2 x.1 ++ beBytes 2 x.2.1 ++ beBytes 8 ((leAt pay 0 8 + lead) * 1000) ++ beBytes 4 valid ++
      beBytes 1 x.2.2.1 ++ beBytes 1 x.2.2.2.1 ++ beBytes 2 0 ++ beBytes 8 idx)) s

/-- A committed grant entry takes effect (R261, R281): its grants are in force, a step or a lowered grant starts its wait. -/
def State.applyGrant (s : State) (idx : Nat) (pay : List Byte) : State :=
  let jobs := grantJobs pay
  let lowered := jobs.any fun x => match s.jobSlot x.1 with
    | some k => match Sparse.find s.cpc.jobs k with | some y => decide (x.2.1 < y.freq) | none => false
    | none => false
  let stepped := jobs.any fun x => bitOf x.2.2.2.1 0
  let a := jobs.foldl (fun a x =>
    match a.jobSlot x.1 with
    | none => a
    | some k => match Sparse.find a.cpc.jobs k with
      | none => a
      | some y => a.setJob k (some { y with fresh := false, freq := x.2.1, order := x.2.2.1, stepped := bitOf x.2.2.2.1 0, held := bitOf x.2.2.2.2.2 1 })) s
  let a := a.set64 Reg.CPC_GRANT_IDX_LO idx
  { a with cpc := { a.cpc with
      grantFrame := leAt pay 0 8,
      sinceLower := if lowered then 0 else a.cpc.sinceLower, sinceStep := if stepped then 0 else a.cpc.sinceStep } }

/-- MODEL_DRIFT (R268): the ratio has lain outside the band for RECON_COUNT intervals. -/
def execModelDrift (s : State) : Res :=
  .next <|
    if max 1 (s.getF Reg.CPC_RECON_CFG_RECON_COUNT) ≤ s.cpc.outside && !s.isF Reg.CPC_STATUS_MODEL_DRIFT then
      (((s.setF Reg.CPC_STATUS_MODEL_DRIFT 1).event 0x0901 0xFFFF [s.getF Reg.CPC_RECON_RATIO]).cause 8 3)
    else s

/-- CMD_RESULT takes a code (R248). -/
def State.cpcResult (s : State) (code : Nat) : State := (s.setF Reg.CPC_STATUS_CMD_RESULT code).cause 8 4

/-- CLEAR_DRIFT (R268); while a CONTRACT_SET is pending the command answers BUSY. -/
def execClearDrift (s : State) : Res :=
  .next <|
    if s.cpc.setPay.isSome then s.cpcResult 5
    else { (s.setF Reg.CPC_STATUS_MODEL_DRIFT 0) with cpc := { s.cpc with outside := 0, inside := 0 } }

/-- GRANT_COMMIT_TIMEOUT at `now` (R262): the grant entry has not committed by G + 5 ms. -/
def execGrantCommitTimeout (now : Nat) (s : State) : Res :=
  .next <| match s.cpc.pendingGrant with
    | some g => if s.frameTime g + 5000000 < now then { s with cpc := { s.cpc with pendingGrant := none } } else s
    | none => s

/-! ## Ceilings (R248, R250, R251) -/

/-- The module's rack. -/
def State.rackNo (s : State) : Nat := s.getF Reg.HNT_CFG_RACK

/-- C_r and X_r of a rack in the contract in force. -/
def State.contractOf (s : State) (r : Nat) : Option (Nat × Nat) :=
  match s.cpc.contract with
  | some c => (c.racks.find? fun x => x.1 = r).map Prod.snd
  | none => none

/-- K_r takes a value; CPC_LOAN follows. -/
def State.setCeiling (s : State) (k : Nat) : State :=
  (s.setF Reg.CPC_CEILING k).setS Reg.CPC_LOAN ((k : Int) - s.getF Reg.CPC_CONTRACT)

/-- C_r, X_r and NO_CONTRACT follow the contract in force. -/
def State.showContract (s : State) : State :=
  match s.cpc.contract with
  | none => s
  | some _ => match s.contractOf s.rackNo with
    | some x => ((s.setF Reg.CPC_CONTRACT x.1).setF Reg.CPC_RACK_MAX x.2).setF Reg.CPC_STATUS_NO_CONTRACT 0
    | none => ((s.setF Reg.CPC_CONTRACT 0).setF Reg.CPC_RACK_MAX 0).setF Reg.CPC_STATUS_NO_CONTRACT 1

/-- The first grant boundary at frame `f` or after it. -/
def nextGrant (f : Nat) : Nat := (f + grantFrames - 1) / grantFrames * grantFrames

/-- Whether a table keeps R247: no rack twice, the contracts within P_H, and each within its rack's maximum. -/
def tableOk (hall : Nat) (t : List (Nat × Nat × Nat)) : Bool :=
  decide ((t.map fun x => x.2.1).foldl (· + ·) 0 ≤ hall ∧ (t.map Prod.fst).dedup.length = t.length) && t.all fun x => x.2.1 ≤ x.2.2

/-- The contract that a CONTRACT entry carries. -/
def contractOfPay (idx : Nat) (pay : List Byte) : Contract :=
  ⟨idx, leAt pay 0 4, (List.range (leAt pay 4 2)).map fun k =>
    (leAt pay (8 + 12 * k) 2, leAt pay (12 + 12 * k) 4, leAt pay (16 + 12 * k) 4)⟩

/-- Whether a hall entry was computed from a contract (R248, DEDUCED): it stands after it in the log and the contracts it implies, K_r
less the loan, are those of the contract. -/
def HallEntry.follows (h : HallEntry) (c : Contract) : Bool :=
  c.idx < h.idx && (h.racks.map fun x => (x.1, (x.2.1 : Int) - x.2.2)) = c.racks.map fun x => (x.1, (x.2.1 : Int))

/-- A hall entry comes into force in frame `f` (R251): the contract it was computed from, its index, and the ceiling, at
once or, for an entry later than its EFF, in two parts; CPC_LOAN follows a new contract. -/
def State.enforceHall (s : State) (h : HallEntry) (late : Bool) (f : Nat) : State :=
  let a := match s.cpc.nextContract with
    | some c => if h.follows c then ({ s with cpc := { s.cpc with contract := some c, nextContract := none } }).showContract else s
    | none => s
  let a := ({ a with cpc := { a.cpc with hallEntry := some h } }).set64 Reg.CPC_HALL_IDX_LO h.idx
  let k := match h.racks.find? fun x => x.1 = s.rackNo with
    | some x => x.2.1
    | none => 0
  if !late then ({ a with cpc := { a.cpc with ceilings := [] } }).setCeiling k
  else
    let g := nextGrant f
    let at_ := if k < s.getF Reg.CPC_CEILING then g else g + 10 * grantFrames
    ({ a with cpc := { a.cpc with ceilings := [⟨k, at_⟩] } }).setCeiling (a.getF Reg.CPC_CEILING)

/-- Hall entries and ceilings that are due at frame `f` come into force. -/
def State.dueCeilings (s : State) (f : Nat) : State :=
  let due := s.cpc.queued.filter fun h => h.eff ≤ f
  let a := due.foldl (fun a h => a.enforceHall h false f) { s with cpc := { s.cpc with queued := s.cpc.queued.filter fun h => f < h.eff } }
  let c := a.cpc.ceilings.filter fun c => c.frame ≤ f
  c.foldl (fun a x => a.setCeiling x.value) { a with cpc := { a.cpc with ceilings := a.cpc.ceilings.filter fun c => f < c.frame } }

/-- A hall entry is applied in frame `f` (R251, R281). -/
def State.applyHall (s : State) (idx : Nat) (pay : List Byte) (f : Nat) : State :=
  let n := leAt pay 16 2
  let h : HallEntry := ⟨idx, leAt pay 0 8, leAt pay 8 8, (List.range n).map fun k =>
    (leAt pay (24 + 12 * k) 2, leAt pay (28 + 12 * k) 4, signed 32 (leAt pay (32 + 12 * k) 4))⟩
  if f ≤ h.eff then { s with cpc := { s.cpc with queued := s.cpc.queued ++ [h] } } else s.enforceHall h true f

/-- A contract entry is applied: it waits for the first hall entry computed after its commit (R248). One that breaks R247 is not. -/
def State.applyContract (s : State) (idx : Nat) (pay : List Byte) : State :=
  let c := contractOfPay idx pay
  if tableOk c.hall c.racks then { s with cpc := { s.cpc with nextContract := some c } } else s

/-- A rack report is applied (R249); the frame is that of its entry. -/
def State.applyReport (s : State) (frame : Nat) (pay : List Byte) : State :=
  let r : RackReport := ⟨leAt pay 0 2, leAt pay 2 1, leAt pay 4 4, leAt pay 8 4, leAt pay 12 4, frame⟩
  { s with cpc := { s.cpc with reports := (s.cpc.reports.filter fun x => x.rack ≠ r.rack) ++ [r] } }

/-- LOAN_EXPIRY (R251): at EXPIRY of the hall entry in force a ceiling above its contract returns to it. -/
def execLoanExpiry (s : State) : Res :=
  .next <| match s.cpc.hallEntry with
    | some h =>
      let c := s.getF Reg.CPC_CONTRACT
      if h.expiry ≤ s.frame && c < s.getF Reg.CPC_CEILING then
        ({ s with cpc := { s.cpc with ceilings := [] } }).setCeiling c
      else s
    | none => s

/-- LOAN_GUARD, s. -/
def State.loanGuard (s : State) : Nat := max 1 (s.getF Reg.CPC_HALL_CFG_LOAN_GUARD)

/-- LOAN_GUARD_EXPIRY (R251): LOAN_GUARD after EXPIRY a ceiling below its contract returns to it. -/
def execLoanGuardExpiry (s : State) : Res :=
  .next <| match s.cpc.hallEntry with
    | some h =>
      let c := s.getF Reg.CPC_CONTRACT
      if h.expiry + s.loanGuard * 100000 ≤ s.frame && s.getF Reg.CPC_CEILING < c then
        ({ s with cpc := { s.cpc with ceilings := [] } }).setCeiling c
      else s
    | none => s

end Sys2Proof.Machine
end

