-- ==== Sys2Proof/Machine/Logic.lean ====
section
/-!
DEFINITION. Logic tiles and general timers (04 R93 to R96), where logic-tile signals go (R87, R107, R110, R113, R389),
and the shutdown of a loop fault that no switch-over took away (R81). Instants in steps of 62.5 ps.
-/

namespace Sys2Proof.Machine

/-! ## Contacts (16 R389, R390) -/

/-- Whether an owner code is a FABRIC region, the host or the firmware. -/
def ownerLogic (o : Nat) : Bool := (4 ≤ o && o ≤ 7) || o = 0x40 || o = 0x41

/-- The function contact `i` carries: 0 where FUNC serves no present owner or lies outside its contacts (R389). -/
def State.pinFunc (s : State) (i : Nat) : Nat :=
  let o := s.owner i
  match s.effF Reg.SYS_PIN_FUNC i with
  | 1 => if ownerLogic o then 1 else 0
  | 2 => if ownerLogic o then 2 else 0
  | 3 => if i < 8 && (o = 15 || o = 0x41) then 3 else 0
  | 4 => if i < 4 && o = 16 then 4 else 0
  | _ => 0

/-- Whether contact `i` drives: an output function, and with LOCK_EN, as SYNC_OUT always, only while the lock is held (R390). -/
def State.pinDrives (s : State) (i : Nat) : Bool :=
  2 ≤ s.pinFunc i && (!(i = 0 || s.isE Reg.SYS_PIN_LOCK_EN i) || s.isF Reg.TWN_STATUS_LOCK)

/-- T_s of the present sweep (03 R70, 13 R322): the frame, the deferral flag, the wait for the CC blocks that hold T_s, and the
strobe on every contact that carries it. -/
def execPackSampleInstant (s : State) : Res :=
  .next <|
    match s.sns.ts with
    | none => s
    | some ts =>
      let t := { s with sns := { s.sns with packWait := 3 } }
      let t := (t.set64 Reg.SNS_SI_LAST_LO (s.frameOf ts)).setF Reg.SNS_PACK_FLAGS_NOTCH_DEFERRED (ofBool s.sns.deferred)
      (List.range 4).foldl (fun (a : State) i =>
        if a.pinFunc i = 4 && a.pinDrives i then a.emit .syncOut [i, ts] else a) t

/-- The pulse-per-second in the present frame (R389): high for 10 ms from each second of PTP time while the time quality is
HOLDOVER or LOCKED, else low. -/
def State.ppsHigh (s : State) : Bool :=
  (s.getF Reg.HNT_STATUS_TQ = 2 || s.getF Reg.HNT_STATUS_TQ = 3) && s.frame % 100000 < 1000

/-- The contacts show what they drive: LOGIC_OUT the level of its signal, PTP_PPS its pulse. -/
def State.showPins (s : State) : State :=
  (List.range 32).foldl (fun a i =>
    let a := a.setF Reg.SYS_PIN_DRIVING (ofBool (a.pinDrives i)) i
    if a.pinDrives i && a.pinFunc i = 2 then a.setF Reg.SYS_PIN_LEVEL (ofBool (a.logicOut (a.effF Reg.SYS_PIN_SIG i))) i
    else if a.pinDrives i && a.pinFunc i = 3 then a.setF Reg.SYS_PIN_LEVEL (ofBool a.ppsHigh) i
    else a) s

/-- The levels sensed at the contacts that the module does not drive. -/
def State.sensePins (s : State) (levels : Nat) : State :=
  (List.range 32).foldl (fun a i =>
    if a.pinDrives i then a else a.setF Reg.SYS_PIN_LEVEL (ofBool (bitOf levels i)) i) s

/-- The level of contact input `m`: of the lowest contact that offers it, 0 when none does. -/
def State.contactIn (s : State) (m : Nat) : Bool :=
  match (List.range 32).find? fun i => s.pinFunc i = 1 && s.effF Reg.SYS_PIN_SIG i = m with
  | some i => s.isF Reg.SYS_PIN_LEVEL i
  | none => false

/-! ## Inputs of a logic tile (R95, R97) -/

/-- Whether an input ID names something segment `k` may name (R95). -/
def State.inputAllowed (s : State) (k id : Nat) : Bool :=
  if id < 0x60 then id / 24 = k
  else if 0x80 ≤ id && id < 0xE0 then (id - 0x80) / 24 = k
  else if 0xE0 ≤ id && id < 0x100 then (id - 0xE0) / 8 = k
  else if 0x120 ≤ id && id < 0x130 then
    let o := s.owner (0x170 + (id - 0x120))
    o = 4 + k || o = 0x40 || o = 0x41
  else (0x60 ≤ id && id < 0x80) || (0x100 ≤ id && id < 0x120) || (0x138 ≤ id && id < 0x142) ||
    (0x150 ≤ id && id < 0x190) || id = 0x1FF

/-- The level of an input other than a boundary port. -/
def State.plainInput (s : State) (id : Nat) : Bool :=
  if id < 0x60 then (if id % 2 = 0 then (s.ft (id / 2)).high else (s.ft (id / 2)).low)
  else if id < 0x80 then bitOf s.sns.stuck (id - 0x60) || bitOf s.sns.loss (id - 0x60)
  else if id < 0xE0 then s.isF Reg.LT_STAT_LOOP_FAULT (id - 0x80)
  else if id < 0x100 then s.logicOut (id - 0xE0)
  else if id < 0x120 then s.contactIn (id - 0x100)
  else if id < 0x130 then s.isF Reg.LT_TMR_STAT_EXPIRED (id - 0x120)
  else if 0x138 ≤ id && id < 0x140 then s.tripped (id - 0x138)
  else if id = 0x140 then s.isF Reg.TWN_STATUS_LOCK
  else if id = 0x141 then s.pwm.notch.isSome
  else false

/-- The level of an input as seen from segment `k`; the fuel bounds chains of ports. -/
def State.level (s : State) : Nat → Nat → Nat → Bool
  | 0, _, _ => false
  | n + 1, k, id =>
    if !s.inputAllowed k id then false
    else if 0x150 ≤ id && id < 0x190 then
      let p := id - 0x150
      if s.portOk k p 0 1 then s.level n k (s.effF Reg.LT_PORT_SRC k p)
      else if s.portOk k p 1 1 then
        let k2 := s.effF Reg.LT_PORT_FROM_SEG k p
        let p2 := s.effF Reg.LT_PORT_FROM_PORT k p
        if k2 ≠ k && s.portOk k2 p2 0 1 then s.level n k2 (s.effF Reg.LT_PORT_SRC k2 p2) else false
      else false
    else s.plainInput id

/-- The input IDs of logic tile `l`. -/
def State.logicIds (s : State) (l : Nat) : List Nat :=
  (List.range 8).map fun j => s.effF (if j % 2 = 0 then Reg.LT_LG_IN_EVEN else Reg.LT_LG_IN_ODD) l (j / 2)

/-- The inputs of logic tile `l`, IN0 in bit 0. -/
def State.logicInputs (s : State) (l : Nat) : Nat :=
  (List.zipWith (fun j id => if s.level portHops (l / 8) id then 2 ^ j else 0) (List.range 8) (s.logicIds l)).foldl (· + ·) 0

/-! ## Transitions (R93) -/

/-- Steps of 62.5 ps in a unit of LT_LG_TICK: CORE cycle of 2 ns, µs, frame, ms. -/
def tickSteps (u : Nat) : Nat := match u with | 0 => 32 | 1 => 16000 | 2 => 160000 | _ => 16000000

/-- Whether a transition's condition holds: `ins` the inputs, `mask` and `level` its fields. -/
def condHolds (any : Bool) (mask level ins : Nat) : Bool :=
  let bits := (List.range 8).filter fun j => bitOf mask j
  mask = 0 || (if any then bits.any fun j => bitOf ins j = bitOf level j else bits.all fun j => bitOf ins j = bitOf level j)

/-- The first transition of logic tile `l` that fires from state `st` with inputs `ins` and counter `cnt`. -/
def State.firing (s : State) (l st ins cnt : Nat) : Option Nat :=
  (List.range 16).find? fun j =>
    s.isE Reg.LT_LG_TR_EN l j && s.effF Reg.LT_LG_TR_FROM l j = st &&
    condHolds (s.isE Reg.LT_LG_TR_ANY l j) (s.effF Reg.LT_LG_TR_MASK l j) (s.effF Reg.LT_LG_TR_LEVEL l j) ins &&
    (!s.isE Reg.LT_LG_TR_DWELL_REQ l j || bitsOf (s.effF Reg.LT_LG_DWELL l) 0 24 ≤ cnt)

/-! ## Timers (R96) -/

/-- Steps of 62.5 ps in a unit of a timer: 10 ns, µs, frame, ms. -/
def timerSteps (u : Nat) : Nat := match u with | 0 => 160 | 1 => 16000 | 2 => 160000 | _ => 16000000

/-- What timer `n` counts from a start to zero, in steps: LOAD units of UNIT; a LOAD of zero acts as 1. -/
def State.timerSpan (s : State) (n : Nat) : Nat :=
  max 1 (s.effF Reg.LT_TMR_LOAD n) * timerSteps (s.effF Reg.LT_TMR_CFG_UNIT n)

/-- Timer `n` starts or restarts its count at `at16`: it has an owner and EN. -/
def State.timerStart (s : State) (n at16 : Nat) : State :=
  if s.owned (0x170 + n) && s.isE Reg.LT_TMR_CFG_EN n then
    let a := { s with lt := { s.lt with tmrDue := Sparse.insert s.lt.tmrDue n (at16 + s.timerSpan n) } }
    (a.setF Reg.LT_TMR_STAT_RUNNING 1 n).setF Reg.LT_TMR_STAT_EXPIRED 0 n
  else s

/-- Timer `n` no longer counts. -/
def State.timerHalt (s : State) (n : Nat) : State :=
  ({ s with lt := { s.lt with tmrDue := Sparse.erase s.lt.tmrDue n } }).setF Reg.LT_TMR_STAT_RUNNING 0 n

/-- A register write to timer `n` by a party that does not own it: CONFLICT (R96). -/
def State.timerDenied (s : State) (n : Nat) : State := s.setF Reg.LT_TMR_STAT_CONFLICT 1 n

/-- TIMER_START: START written at `now` to LT_TMR_CMD of timer `n` by its owner, whatever START_SRC says (R96). -/
def execTimerStart (path n now : Nat) (s : State) : Res :=
  .next <|
    if 16 ≤ n then s
    else if s.owner (0x170 + n) ≠ pathOwner path then s.timerDenied n
    else (s.timerStart n (16 * now)).journal (Reg.LT_TMR_CMD.addr n 0) 1

/-- TIMER_STOP. -/
def execTimerStop (path n : Nat) (s : State) : Res :=
  .next <|
    if 16 ≤ n then s
    else if s.owner (0x170 + n) ≠ pathOwner path then s.timerDenied n
    else ((s.timerHalt n).setF Reg.LT_TMR_STAT_EXPIRED 0 n).journal (Reg.LT_TMR_CMD.addr n 0) 2

/-! ## Where a logic-tile signal goes -/

/-- A rising edge of logic-tile signal `l` at `at16`: fault groups (R113), shed requests (R107), timers (R96), capture rings (09 R213). -/
def State.signalRises (s : State) (l at16 : Nat) : State :=
  let s := (List.range 8).foldl (fun a g =>
    if a.isE Reg.PWM_GRP_CFG_LOGIC_EN g && a.effF Reg.PWM_GRP_CFG_LOGIC_SIG g = l then a.tripGroup g 1 at16 else a) s
  let s := (List.range 4).foldl (fun a c =>
    if a.isE Reg.PWM_CONV_SHED_REQ_SRC c then
      let a := if a.effF Reg.PWM_CONV_SHED_SHED_SIG c = l then a.requestShed c at16 (a.shedTarget c + 1) else a
      if a.effF Reg.PWM_CONV_SHED_ADD_SIG c = l then a.requestShed c at16 ((a.shedTarget c : Int) - 1) else a
    else a) s
  let s := (List.range 16).foldl (fun (a : State) n =>
    if a.isE Reg.LT_TMR_CFG_START_SRC n && a.effF Reg.LT_TMR_CFG_START_SIG n = l then a.timerStart n at16 else a) s
  s.captureRise l

/-- The output of logic tile `l` becomes `v` at `at16`; contacts and the step signals follow. -/
def State.setLogicOut (s : State) (l : Nat) (v : Bool) (at16 : Nat) : State :=
  if s.logicOut l = v then s
  else
    let a := s.setF Reg.LT_LG_STAT_OUT (ofBool v) l
    let a := { a with lt := { a.lt with lgEdges := Sparse.upd [] a.lt.lgEdges l ((at16 :: Sparse.at [] a.lt.lgEdges l).take 12) } }
    let a := if v then a.signalRises l at16 else a
    let a := if v && a.getF Reg.SNAP_CTL_LOGIC_SIG = l then a.snapTrigger 1 else a
    ((List.range 4).foldl (fun a c => a.showInhibit c) a).showPins

/-- Logic tile `l` enters state `st` at `at16` with CNT zero (R93). -/
def State.enterLogic (s : State) (l st at16 : Nat) : State :=
  let a := { s with lt := { s.lt with lgSince := Sparse.upd 0 s.lt.lgSince l at16 } }
  let a := (a.setF Reg.LT_LG_STAT_STATE st l).setF Reg.LT_LG_STAT_CNT 0 l
  a.setLogicOut l (bitOf (a.effF Reg.LT_LG_CTL_OUT_MAP l) st) at16

/-- Logic tile `l` samples its inputs in the CORE cycle at `at16` and fires the first transition whose condition holds
(R93); SRC_ERR shows an input that R95 forbids. -/
def State.logicEval (s : State) (l at16 : Nat) : State :=
  if 32 ≤ l || !s.isE Reg.LT_LG_CTL_ENABLE l then s
  else
    let s := s.setF Reg.LT_LG_STAT_SRC_ERR (ofBool !((s.logicIds l).all (s.inputAllowed (l / 8)))) l
    let st := s.getF Reg.LT_LG_STAT_STATE l
    let cnt := min (2 ^ 24 - 1) ((at16 - Sparse.at 0 s.lt.lgSince l) / tickSteps (s.effF Reg.LT_LG_TICK_UNIT l))
    match s.firing l st (s.logicInputs l) cnt with
    | some j => s.enterLogic l (s.effF Reg.LT_LG_TR_TO l j) at16
    | none => s.setF Reg.LT_LG_STAT_CNT cnt l

/-- LOGIC_TILE_TRANSITION: logic tile `l` evaluates at `at16`; `pins` are the levels at the contacts (R93, R389). -/
def execLogicTileTransition (l at16 pins : Nat) (s : State) : Res := .next ((s.sensePins pins).logicEval l at16)

/-- The logic tiles evaluate one CORE cycle together: every tile samples before any output changes (R93). -/
def State.logicCycle (s : State) (at16 : Nat) : State :=
  let fires := (List.range 32).filterMap fun l =>
    if s.isE Reg.LT_LG_CTL_ENABLE l then
      (s.firing l (s.getF Reg.LT_LG_STAT_STATE l) (s.logicInputs l) (min (2 ^ 24 - 1)
        ((at16 - Sparse.at 0 s.lt.lgSince l) / tickSteps (s.effF Reg.LT_LG_TICK_UNIT l)))).map
        fun j => (l, s.effF Reg.LT_LG_TR_TO l j)
    else none
  fires.foldl (fun a f => a.enterLogic f.1 f.2 at16) s

/-- TIMER_EXPIRE: timer `n` has reached zero at `at16` (R96). ONESHOT stops and holds EXPIRED; PERIODIC reloads and holds
it for one CORE cycle, in which the logic tiles sample it. A timer that is still to reach zero changes nothing. -/
def execTimerExpire (n at16 : Nat) (s : State) : Res :=
  .next <|
    match Sparse.find s.lt.tmrDue n with
    | none => s
    | some due =>
      if 16 ≤ n || !s.isF Reg.LT_TMR_STAT_RUNNING n || at16 < due then s
      else if s.isE Reg.LT_TMR_CFG_MODE n then
        let a := { s with lt := { s.lt with tmrDue := Sparse.insert s.lt.tmrDue n (due + s.timerSpan n) } }
        ((a.setF Reg.LT_TMR_STAT_EXPIRED 1 n).logicCycle due).setF Reg.LT_TMR_STAT_EXPIRED 0 n
      else (s.timerHalt n).setF Reg.LT_TMR_STAT_EXPIRED 1 n

/-- LOGIC_DWELL_REACHED: the dwell counter of logic tile `l` reaches DWELL at `at16` (R93). -/
def execLogicDwellReached (l at16 : Nat) (s : State) : Res := .next (s.logicEval l at16)

/-- Logic tile `l` with its settings as they come into force at `at16` (R93, R94): one that starts afresh enters INIT, one that goes on has
the output that OUT_MAP gives its state, and a disabled one holds INIT with output 0. -/
def State.logicTakes (s : State) (l at16 : Nat) (goesOn : Bool) : State :=
  let init := s.effF Reg.LT_LG_CTL_INIT l
  if !s.isE Reg.LT_LG_CTL_ENABLE l then
    ((s.setF Reg.LT_LG_STAT_STATE init l).setF Reg.LT_LG_STAT_CNT 0 l).setLogicOut l false at16
  else if goesOn then s.setLogicOut l (bitOf (s.effF Reg.LT_LG_CTL_OUT_MAP l) (s.getF Reg.LT_LG_STAT_STATE l)) at16
  else (s.setF Reg.LT_LG_STAT_SRC_ERR 0 l).enterLogic l init at16

/-- The logic tiles take their settings at a frame boundary (R94). `was` are the tiles that ran, by bit. -/
def State.logicAtBoundary (s : State) (was at16 : Nat) : State :=
  (List.range 32).foldl (fun (a : State) l => a.logicTakes l at16 (bitOf was l)) s

/-- The logic tiles that run, by bit. -/
def State.logicOn (s : State) : Nat :=
  ((List.range 32).map fun l => if s.isE Reg.LT_LG_CTL_ENABLE l then 2 ^ l else 0).foldl (· + ·) 0

/-- A timer without an owner is idle, with EXPIRED at 0 (R96); one whose EN is clear does not count. -/
def State.idleTimers (s : State) : State :=
  (List.range 16).foldl (fun a n =>
    if !a.owned (0x170 + n) then (a.timerHalt n).setF Reg.LT_TMR_STAT_EXPIRED 0 n
    else if !a.isE Reg.LT_TMR_CFG_EN n then a.timerHalt n
    else a) s

/-! ## FAULT_SHUTDOWN (R81) -/

/-- The loop tile a source names as seen from segment `k`, through boundary ports. -/
def State.sourceTile (s : State) (k sid : Nat) : Option Nat :=
  match s.resolve portHops k sid with
  | some q => if 0x40 ≤ q && q < 0xA0 then some (q - 0x40) else none
  | none => none

/-- The loop tiles whose outputs tile `t` takes. -/
def State.feeders (s : State) (t : Nat) : List Nat :=
  let ids := [s.effF Reg.LT_SRC_A_MEAS t, s.effF Reg.LT_SRC_B_FF0 t, s.effF Reg.LT_SRC_B_FF1 t, s.effF Reg.LT_SRC_C_DIV t] ++
    (if s.isE Reg.LT_CTL_REF_SRC t then [] else [s.effF Reg.LT_SRC_A_REF t])
  ids.filterMap (s.sourceTile (t / 24))

/-- The running tiles that take, directly or through others, the output of a tile of the list; the fuel is the
number of rounds. -/
def State.reached (s : State) : Nat → List Nat → List Nat
  | 0, ts => ts
  | n + 1, ts =>
    let more := (List.range 96).filter fun t => (s.tile t).run && t ∉ ts && (s.feeders t).any (· ∈ ts)
    if more = [] then ts else s.reached n (ts ++ more)

/-- FAULT_SHUTDOWN of tile `t` at `at16`: 1 ms after a loop fault of it, while the module still holds the lock, also where the tile has
been disabled since. -/
def execFaultShutdown (t at16 : Nat) (s : State) : Res :=
  .next <|
    if s.lt.faults.any (fun e => e.1 = t && e.2 + 16000000 ≤ at16) && s.isF Reg.TWN_STATUS_LOCK then
      let s := { s with lt := { s.lt with faults := s.lt.faults.filter fun e => e.1 ≠ t } }
      let lanes := ((s.reached 96 [t]).filter fun q => s.isE Reg.LT_CTL_OUT_MODE q).map fun q => s.effF Reg.LT_SRC_C_LANE q
      let mask := (List.range 8).foldl (fun m g =>
        putBit m g (lanes.any fun n => s.effF Reg.PWM_LANE_CFG_GROUP n = g)) 0
      (s.event 0x0304 t [t, mask]).tripGroups mask 3 at16
    else s

end Sys2Proof.Machine
end

