-- ==== Sys2Proof/Machine/Wb.lean ====
section
/-!
DEFINITION. Windbreak (06): the rack entry in force, the feed and the bus, forecast lanes, the words, STEP_AHEAD, modes
and limits. Currents in mA, voltages in mV, powers in W; no rounding is stated between the inputs and the words of R123,
so powers are exact rationals.
-/

namespace Sys2Proof.Machine

/-- Windbreak's lane `l`. -/
def State.wbLane (s : State) (l : Nat) : WbLane := Sparse.at {} s.wb.lane l

/-- Windbreak's lane `l` takes a state. -/
def State.setWbLane (s : State) (l : Nat) (x : WbLane) : State :=
  { s with wb := { s.wb with lane := Sparse.upd {} s.wb.lane l x } }

/-- `x` held between `lo` and `hi`. -/
def clampRat (lo hi x : Rat) : Rat := if x < lo then lo else if hi < x then hi else x

/-- `x` moved towards `goal` by at most `step` (R128). -/
def slewRat (x goal step : Rat) : Rat := if x < goal then min goal (x + step) else max goal (x - step)

/-! ## The rack entry (R118, R119, R278) -/

/-- T of frame `f` in mA, to nearest with ties to even (R278), never above the ceiling current, however late the next entry is
(R126). -/
def RackEntry.target (e : RackEntry) (f : Nat) : Int :=
  min e.ceil (roundEven (e.te * 65536 + e.slope * ((f : Int) - e.e)) 65536)

/-- Weights of the module's own shelf in an entry, if it is there. -/
def RackEntry.own (e : RackEntry) (shelf : Nat) : Option (Nat × Nat) :=
  (e.shelves.find? fun x => x.1 = shelf).map fun x => x.2

/-- The shares of a shelf in 2^-16: discharge, charge (R128). -/
def RackEntry.share (e : RackEntry) (shelf : Nat) : Nat × Nat :=
  match e.own shelf with
  | none => (0, 0)
  | some w =>
    let d := (e.shelves.map fun x => x.2.1).foldl (· + ·) 0
    let c := (e.shelves.map fun x => x.2.2).foldl (· + ·) 0
    (if d = 0 then 0 else w.1 * 65536 / d, if c = 0 then 0 else w.2 * 65536 / c)

/-- The module's shelf. -/
def State.shelf (s : State) : Nat := s.getF Reg.SYS_STRAPS_SHELF_ID

/-- RAMP in force of the module's own setting, between 10 and 10,000. -/
def rampOf (v : Nat) : Nat := min 10000 (max 10 v)

/-- The module's own WB_RAMP_LIMIT and WB_TARGET_CFG. -/
def State.ownTarget (s : State) : Nat × Nat := (s.effF Reg.WB_RAMP_LIMIT_RAMP, s.effF Reg.WB_TARGET_CFG)

/-- WB_RAMP_LIMIT and WB_TARGET_CFG that the module uses: those of the entry in force (R119). -/
def State.targetUsed (s : State) : Nat × Nat :=
  match s.wb.entry with | some e => (e.ramp, e.targetCfg) | none => s.ownTarget

/-- SET_MISMATCH compares the module's own settings with the entry in force at each boundary; a mismatch that begins is recorded
(R119). -/
def State.showMismatch (s : State) : State :=
  let own := s.ownTarget
  let used := s.targetUsed
  let bad : Bool := own ≠ used
  let a := if bad && !s.isF Reg.WB_STATUS_SET_MISMATCH then s.event 0x0501 0xFFFF [own.1, own.2, used.1, used.2] else s
  a.setF Reg.WB_STATUS_SET_MISMATCH (ofBool bad)

/-- An entry comes into force in frame `f` (R118, R120, R137). -/
def State.applyEntry (s : State) (e : RackEntry) (f : Nat) : State :=
  let a := { s with wb := { s.wb with entry := some e, entryFrame := f } }
  let a := a.setF Reg.WB_STATUS_LOCAL_TARGET 0
  let sh := e.share s.shelf
  let a := (a.set64 Reg.WB_ENTRY_IDX_LO e.idx).setF Reg.WB_EXCESS_I e.excess
  let a := (a.setS Reg.WB_MEAN_I e.mean).setF Reg.WB_CEILING_I e.ceil
  (a.setSat Reg.WB_SHARE_S_DIS sh.1).setSat Reg.WB_SHARE_S_CHG sh.2

/-- The committed entries whose effective frame is `f` or earlier come into force, in commit order. -/
def State.applyEntries (s : State) (f : Nat) : State :=
  let due := s.wb.queue.filter fun e => e.e ≤ f
  let a := { s with wb := { s.wb with queue := s.wb.queue.filter fun e => f < e.e } }
  due.foldl (fun a e => a.applyEntry e f) a

/-- LOCAL_TARGET: no entry applied for 100 ms (R120). An entry whose commit is complete has arrived, though its frame may be to come
(R16). -/
def execLocalTarget (s : State) : Res :=
  .next <|
    if s.wb.entryFrame + 10000 ≤ s.frame && s.wb.queue.isEmpty && !s.isF Reg.WB_STATUS_LOCAL_TARGET then
      ((s.setF Reg.WB_STATUS_LOCAL_TARGET 1).event 0x0502 0xFFFF
        [match s.wb.entry with | some e => e.idx | none => 0]).cause 7 2
    else s

/-! ## Feed and bus (R51, R121, R122) -/

/-- The feed sample of frame `f`: I_feed with the last good sample, and the counts of frames with and without one. -/
def State.takeFeed (s : State) (f : Nat) : State :=
  let t := s.effF Reg.SNS_FEED_SEL_TILE
  let x := if s.isE Reg.SNS_FEED_SEL_EN && t < 48 && s.isE Reg.SNS_FT_CFG_ENABLE t then (s.ft t).out else none
  let a := if x.isSome then s.setSat Reg.SNS_FEED_AGE (s.frameTime f - (s.ft t).endNs) else s
  match x with
  | some (v, fl) =>
    if bitOf fl 0 || bitOf fl 1 then { a with wb := { a.wb with bad := a.wb.bad + 1, good := 0 } }
    else { a with wb := { a.wb with bad := 0, good := a.wb.good + 1, feed := v } }
  | none => { a with wb := { a.wb with bad := a.wb.bad + 1, good := 0 } }

/-- I_feed in mA. -/
def State.feedI (s : State) : Int := roundEven (s.wb.feed * (s.effF Reg.WB_FEED_GAIN : Int)) 65536

/-- V_bus in mV; 800 V for source 0x1FF and in place of a value with INVALID, which is recorded. -/
def State.takeBus (s : State) : State :=
  let src := s.effF Reg.WB_CTL_VBUS_SRC
  if src = 0x1FF then { s with wb := { s.wb with bus := 800000 } }
  else
    let x := s.source 0 src
    if bitOf x.2 0 then ({ s with wb := { s.wb with bus := 800000 } }).event 0x0504 0xFFFF [src]
    else { s with wb := { s.wb with bus := roundEven (x.1 * (s.effF Reg.WB_VBUS_GAIN : Int)) 65536 } }

/-- A power in W at the bus as a current in mA; a bus of zero volts carries none. -/
def State.busCurrent (s : State) (p : Rat) : Int := ratRound (if s.wb.bus = 0 then 0 else p * 1000000 / (s.wb.bus : Rat))

/-- The storage currents that the other shelves last reported, and the own shelf's where another module drives it (R125, R127). -/
def State.otherStorage (s : State) : Int :=
  ((s.wb.reports.filter fun r => r.age = 0 && (r.shelf ≠ s.shelf || !s.isF Reg.TWN_STATUS_LOCK)).map fun r => r.current).foldl (· + ·) 0

/-- The rack load L as the module sees it in a frame, in mA (R122): the feed, its own storage current in force, and what the other
shelves reported last. -/
def State.frameLoad (s : State) : Int :=
  s.feedI + (if s.isF Reg.TWN_STATUS_LOCK then s.busCurrent s.wb.force else 0) + s.otherStorage

/-- FEED_BAD: eight frames without a good sample (R122). -/
def execFeedBad (s : State) : Res :=
  .next <|
    if 8 ≤ s.wb.bad && !s.isF Reg.WB_STATUS_FEED_BAD then (s.setF Reg.WB_STATUS_FEED_BAD 1).cause 7 3 else s

/-- FEED_RECOVERED: eight frames with good samples (R122). -/
def execFeedRecovered (s : State) : Res :=
  .next <| if 8 ≤ s.wb.good then s.setF Reg.WB_STATUS_FEED_BAD 0 else s

/-! ## Forecast lanes (R129 to R133) -/

abbrev lnAbsent : Nat := 0
abbrev lnGated : Nat := 1
abbrev lnApplied : Nat := 2
abbrev lnDemoted : Nat := 3

/-- Whether lane `l` is ABSENT: free, hence idle (02 R41), EN clear, no record, silent, its partition not running, its JOB context poisoned (R132). -/
def State.laneAbsent (s : State) (l : Nat) : Bool :=
  match (s.wbLane l).active with
  | none => true
  | some r => !s.owned (0x1C0 + l) || !s.isE Reg.WB_LANE_CFG_EN l || (s.wbLane l).silent || s.getF Reg.TH_PART_STAT_STATE r.part ≠ 3 ||
      s.jobPoisoned r.job

/-- The lane's gate (R130). -/
def State.laneGate (s : State) (l : Nat) : Nat :=
  let o := s.effF Reg.WB_LANE_CFG_GATE_OVR l
  if o = 0 then s.effF Reg.WB_GATE_GATE else o

/-- Contribution in mA and confidence of point `i`; beyond NEAR_POINTS the mean at confidence zero. -/
def LaneRec.point (r : LaneRec) (i : Nat) : Int × Nat :=
  match r.near[i]? with
  | some p => (p.1 * 100, p.2)
  | none => (r.mean, 0)

/-- A point's contribution after the gate (R130). -/
def LaneRec.gated (r : LaneRec) (gate i : Nat) : Int := if gate ≤ (r.point i).2 then (r.point i).1 else r.mean

/-- The point at or before module time `t` in µs. -/
def LaneRec.pointAt (r : LaneRec) (t : Nat) : Nat := (t - r.base * 10) / 250

/-- Deviation from the mean at module time `t` in µs, interpolated after the gate (R129, R130). -/
def LaneRec.dev (r : LaneRec) (gate t : Nat) : Rat :=
  let i := r.pointAt t
  let f := (t - r.base * 10) % 250
  let v0 := r.gated gate i
  let v1 := r.gated gate (i + 1)
  (v0 : Rat) + ((v1 - v0) * f : Int) / 250 - r.mean

/-- State of lane `l` at the instant `t` it is read (R130 to R133), and its confidence. No lane is applied while PRED_EN is clear or
AUTH_LIMIT is zero (R131). -/
def State.laneState (s : State) (l t : Nat) : Nat × Nat :=
  if s.laneAbsent l then (lnAbsent, 0)
  else match (s.wbLane l).active with
    | none => (lnAbsent, 0)
    | some r =>
      let c := (r.point (r.pointAt t)).2
      (if (s.wbLane l).demoted then lnDemoted
       else if s.isE Reg.WB_CTL_PRED_EN && s.effF Reg.WB_AUTH_AUTH_LIMIT ≠ 0 && s.laneGate l ≤ c then lnApplied
       else lnGated, c)

/-- The lanes take the states of the instant `t`; a lane found ABSENT stays so until it is published anew (R132). With the
deviation that APPLIED lanes add, in mA. -/
def State.readLanes (s : State) (t : Nat) : State × Rat × Nat :=
  (List.range 64).foldl (fun (a : State × Rat × Nat) l =>
    let st := a.1.laneState l t
    let b := (a.1.setF Reg.WB_LANE_STAT_STATE st.1 l).setF Reg.WB_LANE_STAT_CONF st.2 l
    let b := if st.1 = lnAbsent && (s.wbLane l).active.isSome then b.setWbLane l { s.wbLane l with silent := true, used := [] } else b
    match (s.wbLane l).active with
    | some r =>
      let u := r.dev (s.laneGate l) t
      let d := if st.1 = lnApplied then u else 0
      let b := if st.1 = lnAbsent then b else b.setWbLane l { s.wbLane l with used := (u :: (s.wbLane l).used).take 5300 }
      ((b.setS Reg.WB_LANE_MEAN r.mean l).setS Reg.WB_LANE_DEV (ratRound d) l, a.2.1 + d,
        if st.1 = lnApplied then a.2.2 + 1 else a.2.2)
    | none => (b, a.2)) (s, 0, 0)

/-- The instants in µs of the points that STEP_AHEAD looks at (R124). -/
def State.stepInstants (s : State) : List Nat :=
  let n := min 160 (max 2 (s.effF Reg.WB_STEP_CFG_STEP_HORIZON))
  (List.range 64).flatMap fun l =>
    let st := s.getF Reg.WB_LANE_STAT_STATE l
    match (s.wbLane l).active with
    | some r =>
      if st = lnApplied || st = lnGated then
        ((List.range n).filter fun i => s.effF Reg.WB_GATE_STEP_GATE ≤ (r.point i).2).map fun i => r.base * 10 + i * 250
      else []
    | none => []

/-- The deviation at an instant over the lanes that are APPLIED or GATED, gated by STEP_GATE (R124). -/
def State.stepDev (s : State) (t : Nat) : Rat :=
  ((List.range 64).map fun l =>
    let st := s.getF Reg.WB_LANE_STAT_STATE l
    match (s.wbLane l).active with
    | some r => if st = lnApplied || st = lnGated then r.dev (s.effF Reg.WB_GATE_STEP_GATE) t else 0
    | none => 0).foldl (· + ·) 0

/-- LANE_ABSENT: a lane not republished for four forecast boundaries (R132); a publication that has landed counts (R16). -/
def execLaneAbsent (l : Nat) (s : State) : Res :=
  .next <|
    if l < 64 && 4 ≤ (s.wbLane l).missed && (s.wbLane l).active.isSome && (s.wbLane l).staged.isNone then
      (s.setWbLane l { s.wbLane l with silent := true, used := [] }).setF Reg.WB_LANE_STAT_STATE lnAbsent l
    else s

/-- The lane's score takes a result (R133): a miss that makes MISSES reach MISS_LIMIT demotes it. -/
def State.scoreLane (s : State) (l : Nat) (hit : Bool) : State :=
  let x := s.wbLane l
  let scores := (hit :: x.scores).take 16
  let misses := (scores.filter fun b => !b).length
  let hits := if hit then min 255 (s.getF Reg.WB_LANE_STAT_HITS l + 1) else 0
  let a := (s.setF Reg.WB_LANE_STAT_MISSES misses l).setF Reg.WB_LANE_STAT_HITS hits l
  let a := a.setWbLane l { x with scores := scores }
  if !x.demoted && !hit && min 16 (max 1 (s.effF Reg.WB_MISS_CFG_MISS_LIMIT)) ≤ misses then
    let a := a.setWbLane l { x with scores := scores, demoted := true }
    ((a.setF Reg.WB_LANE_STAT_STATE lnDemoted l).event 0x0505 l [l, misses]).cause 7 4
  else if x.demoted && max 1 (s.effF Reg.WB_MISS_CFG_RESTORE_HITS) ≤ hits then
    (a.setWbLane l { x with scores := scores, demoted := false }).event 0x0506 l [l, 0]
  else a

/-- The greatest rise within a list of values, oldest first. -/
def greatestRise : List Int → Int
  | [] => 0
  | x :: xs => max (greatestRise xs) ((xs.map fun y => y - x).foldl max 0)

/-- The change of lane `l`'s deviation, in mA, from the frame `ago` frames back over the `span` frames that followed it. -/
def WbLane.stepOf (x : WbLane) (ago span : Nat) : Option Rat :=
  match x.used[ago]?, x.used[ago - span]? with
  | some a, some b => some (b - a)
  | _, _ => none

/-- Where a change of a lane's deviation by `d` mA moves the shelf's forecast part beyond STEP_THRESH (R133). -/
def State.bigStep (s : State) (d : Rat) : Bool :=
  let sh := match s.wb.entry with | some e => e.share s.shelf | none => (0, 0)
  let p : Rat := (if 0 ≤ d then (sh.1 : Rat) else (sh.2 : Rat)) / 65536 * d * ((s.wb.bus : Rat) / 1000000)
  ((s.effF Reg.WB_STEP_CFG_STEP_THRESH * 100 : Nat) : Rat) < (if p < 0 then -p else p)

/-- MISS_WINDOW in µs (R133). -/
def State.missWindow (s : State) : Nat := s.effF Reg.WB_MISS_CFG_MISS_WINDOW * 100

/-- µs from the frame `ago` frames back to the instant its deviation was placed at (R129). -/
def State.readAhead (s : State) : Nat := 10 + s.effF Reg.WB_SLEW_DELAY_ALLOW

/-- L in the frames within MISS_WINDOW of the instant that the frame `ago` frames back looked at, both ends included, oldest first
(R133, R16). -/
def State.loadsAround (s : State) (ago : Nat) : List Int :=
  let last := (10 * ago - s.readAhead - s.missWindow + 9) / 10
  let first := (10 * ago - s.readAhead + s.missWindow) / 10
  ((s.wb.frameLoads.take (first + 1)).drop last).reverse

/-- Whether L changed in the direction of the predicted change `d` by at least MISS_SIZE per cent of it (R133). -/
def State.stepHit (s : State) (ago : Nat) (d : Rat) : Bool :=
  let l := s.loadsAround ago
  let seen := if 0 < d then greatestRise l else greatestRise (l.map fun x => -x)
  decide ((s.effF Reg.WB_MISS_CFG_MISS_SIZE : Rat) * (if d < 0 then -d else d) ≤ 100 * (seen : Rat)) && 0 < seen

/-- LANE_STEP_SCORE of lane `l` at the end of MISS_WINDOW: the step that its deviation took from the frame `ago` frames back over
`span` frames, at most 1 ms of forecast time. Of a lane APPLIED or DEMOTED each step beyond STEP_THRESH is scored once (R133). -/
def execLaneStepScore (l ago span : Nat) (s : State) : Res :=
  .next <|
    let st := s.getF Reg.WB_LANE_STAT_STATE l
    let x := s.wbLane l
    if 64 ≤ l || !(st = lnApplied || st = lnDemoted) || 100 < span || ago < span || 10 * ago < s.readAhead + s.missWindow
        || s.frame < x.scored + ago then s
    else match x.stepOf ago span with
      | none => s
      | some d =>
        if s.bigStep d then (s.setWbLane l { x with scored := s.frame - ago + span }).scoreLane l (s.stepHit ago d) else s

/-- RESTORE_LANE: a DEMOTED lane returns to scoring (R133). -/
def execRestoreLane (l : Nat) (s : State) : Res :=
  .next <|
    if l < 64 && (s.wbLane l).demoted then ((s.setWbLane l { s.wbLane l with demoted := false }).event 0x0506 l [l, 1]).journal (Reg.WB_CMD.addr 0 0) (256 * l + 4)
    else s

/-! ## Pairs, strings, converters served (R123, R124, R134, R135) -/

/-- The enabled word pairs. -/
def State.pairs (s : State) : List Nat := (List.range 32).filter fun n => s.isE Reg.WB_WORD_CFG_EN n

/-- The strings the enabled pairs serve. -/
def State.pairStrings (s : State) : List Nat := [0, 1].filter fun k => s.pairs.any fun n => s.effF Reg.WB_WORD_CFG_STRING n = k

/-- The running tiles that take a word of pair `n`, through REF, FF0 or FF1; no boundary port carries a word (R92, R97). -/
def State.wordTiles (s : State) (n : Nat) : List Nat :=
  (List.range 96).filter fun t => (s.tile t).run &&
    ([s.effF Reg.LT_SRC_B_FF0 t, s.effF Reg.LT_SRC_B_FF1 t] ++
      (if s.isE Reg.LT_CTL_REF_SRC t then [] else [s.effF Reg.LT_SRC_A_REF t])).any fun sid =>
        sid = 0xC0 + n || sid = 0xE0 + n

/-- The converters pair `n` serves: those whose phase lanes its tiles reach. -/
def State.served (s : State) (n : Nat) : List Nat :=
  let ts := (s.reached 96 (s.wordTiles n)).filter fun t => s.isE Reg.LT_CTL_OUT_MODE t
  let lanes := ts.map fun t => s.effF Reg.LT_SRC_C_LANE t
  (List.range 4).filter fun c => lanes.any fun x => x ∈ s.phaseLanes c

/-- Whether converter `c` runs with its string contactor drive closed: a drive named by the fault group of one of its
phases is commanded closed. -/
def State.convLive (s : State) (c : Nat) : Bool :=
  s.isE Reg.PWM_CONV_CFG_ENABLE c && (s.phaseLanes c).any fun n =>
    s.getF Reg.PWM_CTR_CLOSED &&& s.effF Reg.PWM_GRP_CFG_CTR (s.effF Reg.PWM_LANE_CFG_GROUP n) ≠ 0

/-- The strings' SoC in 0.01 %, none while UNKNOWN or presented as UNKNOWN (R330, R334). -/
def State.stringSoc (s : State) (k : Nat) : Option Nat :=
  if s.isF Reg.EST_S_STAT_UNKNOWN k || s.isF Reg.EST_S_STAT_COUNT_UNDER k || s.isF Reg.EST_S_STAT_COUNT_OVER k then none
  else some (s.getF Reg.EST_S_SOC_SOC k)

/-- Whether some served string's SoC is UNKNOWN. -/
def State.socUnknown (s : State) : Bool := s.pairStrings.any fun k => (s.stringSoc k).isNone

/-- The part of the shelf's powers that string `k` carries, in 2^-16. -/
def State.stringShare (s : State) (k : Nat) : Nat :=
  ((s.pairs.filter fun n => s.effF Reg.WB_WORD_CFG_STRING n = k).map fun n => s.effF Reg.WB_WORD_CFG_SHARE n).foldl (· + ·) 0

/-- The storage limit in one direction in W (R135, R136): `dis` tells discharge. -/
def State.storageLimit (s : State) (dis : Bool) : Rat :=
  let shares := ((s.pairs.filter fun n => s.served n ≠ []).map fun n => s.effF Reg.WB_WORD_CFG_SHARE n).foldl (· + ·) 0
  let cons : Rat := if s.socUnknown then (s.effF Reg.WB_LIMITS_CONS_FRAC : Rat) / 100 else 1
  let rating : Rat := (s.effF Reg.WB_AUTH_RATING * 100 * shares : Nat) / 65536 * cons
  s.pairStrings.foldl (fun lim k =>
    let sh := s.stringShare k
    if sh = 0 then lim
    else
      let amps := if dis then s.getF Reg.EST_S_LIMITS_DIS k else s.getF Reg.EST_S_LIMITS_CHG k
      let v := s.getF Reg.EST_S_VSTR k
      let permit := s.isF (if dis then Reg.EST_S_STAT_DIS_PERMIT else Reg.EST_S_STAT_CHG_PERMIT) k
      let cur : Rat := (amps * v * 65536 : Nat) / (1000 * sh : Nat) * cons
      let soc : Rat := match s.stringSoc k with
        | none => 1
        | some x =>
          let gap : Rat := if dis then (x : Rat) - (s.effF Reg.WB_LIMITS_SOC_FLOOR * 100 : Nat)
            else ((s.effF Reg.WB_LIMITS_SOC_MAX * 100 : Nat) : Rat) - x
          clampRat 0 1 (gap / 100)
      if permit then min lim (cur * soc) |> fun m => min m (rating * soc) else 0) rating

/-! ## The frame (R123, R124, R128, R134, R138) -/

/-- The causes of HOLD (R134). -/
def State.wbHeld (s : State) : Bool :=
  !s.isE Reg.WB_CTL_ENABLE || s.isF Reg.WB_STATUS_HOLD_CMD || s.isF Reg.WB_STATUS_FEED_BAD ||
    !((s.pairs.flatMap s.served).any s.convLive) ||
    (match s.wb.entry with
     | none => true
     | some e => e.share s.shelf = (0, 0))

/-- A word of R123 for power `p`; a string voltage of zero leaves the value open. -/
def State.wbWord (s : State) (n : Nat) (p : Rat) (about : Nat) : Int :=
  if !s.isE Reg.WB_WORD_CFG_EN n then 0
  else
    let v := s.getF Reg.EST_S_VSTR (s.effF Reg.WB_WORD_CFG_STRING n)
    if v = 0 then sat23 (s.freeVal (about + n))
    else sat23 (ratRound (((s.effF Reg.WB_WORD_CFG_SHARE n * s.effF Reg.WB_WORD_SCALE n * 1000 : Nat) : Rat) * p /
      (v * 65536 * 65536 : Nat)))

/-- What every module measures in frame `f`: the feed, the bus and the rack load of the interval (R121, R122, R125). -/
def State.wbMeasure (s : State) (f : Nat) : State :=
  let a := (s.takeFeed f).takeBus
  { a with wb := { a.wb with
    loadSum := a.wb.loadSum + a.feedI, busSum := a.wb.busSum + a.wb.bus, frames := a.wb.frames + 1,
    frameLoads := (a.frameLoad :: a.wb.frameLoads).take 5300 } }

/-- Windbreak computes in frame `f` from what it measured (R121, R128): the holder of TWIN_LOCK only (R134). -/
def State.wbCompute (s : State) (f : Nat) : State :=
  let e := s.feedI
  let v : Rat := (s.wb.bus : Rat) / 1000000
  let t := f * 10 + 10 + s.effF Reg.WB_SLEW_DELAY_ALLOW
  let r := s.readLanes t
  let s := r.1.setF Reg.WB_STATUS_APPLIED r.2.2
  let tgt := match s.wb.entry with | some x => x.target f | none => 0
  let mean := match s.wb.entry with | some x => x.mean | none => 0
  let sh := match s.wb.entry with | some x => x.share s.shelf | none => (0, 0)
  let err : Rat := ((e - tgt : Int) : Rat)
  let dev : Rat := r.2.1
  let bal : Rat := ((mean - tgt : Int) : Rat)
  let c : Rat := (s.effF Reg.WB_REACT_KP : Rat) / 2 ^ 24 * err + s.wb.x
  let part := fun (d : Rat) => (if 0 ≤ d + bal + c then (sh.1 : Rat) else (sh.2 : Rat)) / 65536
  let unknown := s.socUnknown
  let auth : Rat := (s.effF Reg.WB_AUTH_AUTH_LIMIT * 100 : Nat) *
    (if unknown then min 1 ((s.effF Reg.WB_LIMITS_CONS_FRAC : Rat) / 100) else 1)
  let slew : Rat := (s.effF Reg.WB_SLEW_OUT_SLEW * 100 : Nat)
  let held := s.wbHeld
  let pfc := if held then 0 else clampRat (-auth) auth (part dev * dev * v)
  let leaves := !held && s.wb.wasHold
  let x0 := if leaves then 0 else s.wb.x
  let dl := s.storageLimit true
  let cl := s.storageLimit false
  let ffRaw := if held then 0 else pfc + part dev * bal * v
  let raw := if held then 0 else ffRaw + part dev * (c - s.wb.x + x0) * v
  let lim := if held then 0 else clampRat (-cl) dl raw
  let tot := slewRat (if leaves then 0 else s.wb.tot) lim slew
  let ff := slewRat (if leaves then 0 else s.wb.ff) (if held then 0 else clampRat (-cl) dl ffRaw) slew
  let dir := if held then 0 else (if dl < raw then 2 else 0) + (if raw < -cl then 1 else 0)
  let x := if held then (if tot = 0 then 0 else s.wb.x)
    else if tot ≠ raw && 0 < (raw - tot) * err then x0
    else x0 + (s.effF Reg.WB_REACT_KI : Rat) / 2 ^ 24 * err
  let reserve := dir ≠ 0 || (s.wb.reserve && !held)
  let mode := if held then 0 else if reserve then 3 else if r.2.2 ≠ 0 then 2 else 1
  let rating : Rat := (s.effF Reg.WB_AUTH_RATING * 100 : Nat)
  let thr : Rat := (s.effF Reg.WB_STEP_CFG_STEP_THRESH * 100 : Nat)
  let ahead := s.stepInstants.any fun u =>
    let d := s.stepDev u
    let p := clampRat (-rating) rating (part d * d * v)
    thr < (if p < pfc then pfc - p else p - pfc)
  let served := s.pairs.flatMap s.served
  let step := if ahead then ((List.range 4).filter (· ∈ served)).foldl (fun m k => m + 2 ^ k) 0 else 0
  let refs := (List.range 32).map fun n => s.wbWord n tot 0x600
  let ffs := (List.range 32).map fun n => s.wbWord n ff 0x620
  let own := s.busCurrent s.wb.force
  let s := (s.setS Reg.WB_FEED_I e).setS Reg.WB_TARGET_I tgt
  let s := s.setF Reg.WB_STATUS_SOC_UNKNOWN (ofBool unknown)
  { s.useFree with wb := { s.wb with
      x := x, tot := tot, ff := ff, wasHold := held, reserve := reserve,
      free := if dir = 0 then s.wb.free + 1 else 0,
      devs := ((e - tgt).natAbs :: s.wb.devs).take 2000,
      ownSum := s.wb.ownSum + own, ownFrames := s.wb.ownFrames + 1,
      out := some { mode := mode, tot := tot, ff := ff, step := step, dir := dir, refs := refs, ffs := ffs } } }

/-- A power in units of 0.1 kW, to nearest with ties to even, held in a signed 16-bit field. -/
def power16 (p : Rat) : Nat := unsign 16 (clampInt (-32768) 32767 (ratRound (p / 100)))

/-- The words, powers and STEP_AHEAD that the frame before computed take effect at the boundary of frame `f`. -/
def State.wbApply (s : State) (f : Nat) : State :=
  match s.wb.out with
  | none => s
  | some o =>
    let a := { s with wb := { s.wb with
      out := none, force := o.tot,
      refWord := (List.zip (List.range 32) o.refs).foldl (fun (m : Sparse Int) (w : Nat × Int) => Sparse.upd 0 m w.1 w.2) s.wb.refWord,
      ffWord := (List.zip (List.range 32) o.ffs).foldl (fun (m : Sparse Int) (w : Nat × Int) => Sparse.upd 0 m w.1 w.2) s.wb.ffWord } }
    let a := a.causeIf (s.getF Reg.WB_STATUS_MODE ≠ o.mode) 7 0
    let a := (a.setF Reg.WB_STATUS_MODE o.mode).setF Reg.WB_STATUS_RESERVE_DIR o.dir
    let a := (a.setF Reg.WB_P_OUT_P_TOT (power16 o.tot)).setF Reg.WB_P_OUT_P_FF (power16 o.ff)
    let n := a.wb.devs.length
    let mean := if n = 0 then 0 else (roundEven (a.wb.devs.foldl (· + ·) 0 : Nat) n).toNat
    let a := a.setSat Reg.WB_DEV20 mean
    let a := if n = 2000 && a.getF Reg.WB_DEV20_MAX < mean then a.setSat Reg.WB_DEV20_MAX mean else a
    let a := a.setF Reg.WB_STATUS_STEP_AHEAD o.step
    let a := (List.range 4).foldl (fun a c =>
      let b := (a.setF Reg.PWM_CONV_STAT_STEP_AHEAD (ofBool (bitOf o.step c)) c).showInhibit c
      if b.stepSignal c then b.stepOnset c (16 * s.frameTime f) else b) a
    (List.range 32).foldl (fun a n =>
      let b := a.capture (0xC0 + n) (s.frameTime f) (captureWord (Sparse.at 0 a.wb.refWord n) 0)
      b.capture (0xE0 + n) (s.frameTime f) (captureWord (Sparse.at 0 b.wb.ffWord n) 0)) a

/-- OVER_CEILING in frame `f` (R137): set once T has reached the ceiling current while the entry carries EXCESS, cleared when EXCESS
has been zero for a full grant interval. -/
def State.showCeiling (s : State) (f : Nat) : State :=
  let ex := match s.wb.entry with | some e => e.excess | none => 0
  let top : Bool := match s.wb.entry with | some e => decide ((e.ceil : Int) ≤ e.target f) | none => false
  if ex ≠ 0 then
    let a := { s with wb := { s.wb with calm := 0 } }
    if top then (a.causeIf (!s.isF Reg.WB_STATUS_OVER_CEILING) 7 1).setF Reg.WB_STATUS_OVER_CEILING 1 else a
  else
    let a := { s with wb := { s.wb with calm := s.wb.calm + 1 } }
    if 1000 < a.wb.calm then a.setF Reg.WB_STATUS_OVER_CEILING 0 else a

/-- The mean feed of the present interval in mA, and the mean of the shelf's own storage current over the frames it was computed in. -/
def State.loadMean (s : State) : Int := if s.wb.frames = 0 then 0 else roundEven s.wb.loadSum s.wb.frames
def State.ownMean (s : State) : Int := if s.wb.ownFrames = 0 then 0 else roundEven s.wb.ownSum s.wb.ownFrames

/-- Windbreak's part of the frame boundary `f` (R13, R118, R121): results of the frame before take effect and due entries come into
force. -/
def State.wbAtBoundary (s : State) (f : Nat) : State := (((s.wbApply f).applyEntries f).showMismatch).showCeiling f

/-- The capture sources of frame `f` (09 R211): L, I_feed, T and P_TOT in force. -/
def State.wbCapture (s : State) (f : Nat) : State :=
  let now := s.frameTime f
  let tgt := match s.wb.entry with | some x => x.target f | none => 0
  (((s.capture 0x140 now (unsign 32 s.frameLoad)).capture 0x141 now (unsign 32 s.feedI)).capture 0x142 now
    (unsign 32 tgt)).capture 0x143 now (unsign 32 (ratRound s.wb.force))

/-- WINDBREAK_COMPUTE (R128): every module measures in frame `f`, after the forecast of its boundary is in place (R15); the holder of
the lock computes. -/
def State.wbWork (s : State) (f : Nat) : State :=
  let a := (s.wbMeasure f).wbCapture f
  if s.isF Reg.TWN_STATUS_LOCK then a.wbCompute f else a

/-! ## Commands -/

/-- RESERVE_EXIT: no limit acted for 100 frames in a row (R134). -/
def execReserveExit (s : State) : Res :=
  .next <| if 100 ≤ s.wb.free then { s with wb := { s.wb with reserve := false } } else s

/-- HOLD of WB_CMD (R134). -/
def execWbHold (s : State) : Res := .next ((s.setF Reg.WB_STATUS_HOLD_CMD 1).journal (Reg.WB_CMD.addr 0 0) 1)

/-- RELEASE of WB_CMD (R134). -/
def execWbRelease (s : State) : Res := .next ((s.setF Reg.WB_STATUS_HOLD_CMD 0).journal (Reg.WB_CMD.addr 0 0) 2)

/-- CLEAR_MAX of WB_CMD (R138). -/
def execClearMax (s : State) : Res := .next ((s.setF Reg.WB_DEV20_MAX 0).journal (Reg.WB_CMD.addr 0 0) 3)

/-- The sums of SHARE are checked when an image or layer is applied (R123). -/
def State.shareSums (s : State) : State :=
  s.pairStrings.foldl (fun a k => if a.stringShare k = 65536 then a else a.event 0x0503 k [k, a.stringShare k]) s

/-- The share weights the active module reports in Wh (R127): W_DIS, W_CHG. -/
def State.weights (s : State) : Nat × Nat :=
  let one := fun (k : Nat) =>
    let eNom : Rat := (s.getF Reg.EST_S_CAP_FACT k * s.getF Reg.EST_S_CFG_CELLS k * s.getF Reg.EST_S_CFG_V_NOM k : Nat) /
      (36000000000 : Nat)
    let h : Rat := (s.getF Reg.EST_S_HEALTH_HEALTH k : Rat) / 10000
    match s.stringSoc k with
    | none => let w := (s.effF Reg.WB_LIMITS_CONS_ENERGY : Rat) / 1000 * eNom * h; (w, w)
    | some x =>
      let soc : Rat := (x : Rat) / 10000
      (h * max 0 (soc - (s.effF Reg.WB_LIMITS_SOC_FLOOR : Rat) / 100) * eNom,
        h * max 0 ((s.effF Reg.WB_LIMITS_SOC_MAX : Rat) / 100 - soc) * eNom)
  let ks := [0, 1].filter fun k => s.isF Reg.EST_S_CFG_EN k
  ((ratRound ((ks.map fun k => (one k).1).foldl (· + ·) 0)).toNat, (ratRound ((ks.map fun k => (one k).2).foldl (· + ·) 0)).toNat)

end Sys2Proof.Machine
end

