-- ==== Sys2Proof/Machine/Ledger.lean ====
section
/-!
DEFINITION. The ledger (12): groups, messages, logs, commit and application of entries, leases. Group 0 is the rack group,
1 the hall group. `now` is module time in ns.
-/

namespace Sys2Proof.Machine

/-- A group's state. -/
def State.grp (s : State) (g : Nat) : LdgGroup := if g = 0 then s.ldg.rack else s.ldg.hall

/-- A group takes a state. -/
def State.setGrp (s : State) (g : Nat) (x : LdgGroup) : State :=
  { s with ldg := if g = 0 then { s.ldg with rack := x } else { s.ldg with hall := x } }

/-! ## Settings (R275) -/

/-- HB in ns. -/
def State.hbNs (s : State) (g : Nat) : Nat :=
  if g = 0 then min 2000 (max 100 (s.getF Reg.LDG_RACK_TIME_HB)) * 1000
  else min 100 (max 2 (s.getF Reg.LDG_HALL_TIME_HB)) * 1000000

/-- ET_MIN in ns, at least four times HB. -/
def State.etNs (s : State) (g : Nat) : Nat :=
  max (4 * s.hbNs g) (if g = 0 then min 20000 (max 500 (s.getF Reg.LDG_RACK_TIME_ET_MIN)) * 1000
    else min 1000 (max 20 (s.getF Reg.LDG_HALL_TIME_ET_MIN)) * 1000000)

/-- LEASE_GUARD and the SYNC timeout in ns. -/
def leaseGuard (g : Nat) : Nat := if g = 0 then 100000 else 5000000
def syncNs (g : Nat) : Nat := if g = 0 then 5000000 else 250000000

/-! ## Entries (R277) -/

abbrev etNoop : Nat := 1
abbrev etMember : Nat := 2
abbrev etArbiter : Nat := 3
abbrev etVoice : Nat := 4
abbrev etRack : Nat := 5
abbrev etGrant : Nat := 6
abbrev etHallRecord : Nat := 7
abbrev etReport : Nat := 8
abbrev etContract : Nat := 9
abbrev etHall : Nat := 10
abbrev etSeat : Nat := 11

abbrev mLearner : Nat := 1
abbrev mVoice : Nat := 2
abbrev mSeat : Nat := 3
abbrev mArbiterSeat : Nat := 4

/-- The 24 header bytes that the CRC covers. -/
def LdgEntry.head (e : LdgEntry) : List Byte :=
  leBytes 8 e.index ++ leBytes 4 e.term ++ leBytes 1 e.etype ++ leBytes 1 e.group ++ leBytes 2 e.payload.length ++ leBytes 8 e.frame

/-- An entry as it is stored and sent. -/
def LdgEntry.bytes (e : LdgEntry) : List Byte :=
  e.head ++ leBytes 4 (crc32c (e.head ++ e.payload)) ++ leBytes 4 0 ++ e.payload

/-- The entries that bytes hold; none where one is cut short, too long or fails its CRC. -/
def parseEntries : Nat → List Byte → Option (List LdgEntry)
  | _, [] => some []
  | 0, _ => none
  | n + 1, bs =>
    let len := leAt bs 14 2
    if bs.length < 32 + len || 4064 < len then none
    else
      let e : LdgEntry := ⟨leAt bs 0 8, leAt bs 8 4, leAt bs 12 1, leAt bs 13 1, leAt bs 16 8, slice bs 32 len⟩
      if leAt bs 24 4 ≠ crc32c (slice bs 0 24 ++ e.payload) then none
      else (parseEntries n (bs.drop (32 + len))).map fun r => e :: r

/-- Whether an ETYPE belongs to a group. -/
def etypeOf (g et : Nat) : Bool :=
  et = etNoop || et = etMember || (if g = 0 then 3 ≤ et && et ≤ 7 else 8 ≤ et && et ≤ 11)

/-- Index and term of the last entry. -/
def LdgGroup.last (x : LdgGroup) : Nat × Nat :=
  match x.log.getLast? with
  | some e => (e.index, e.term)
  | none => x.base

/-- The entry at an index, if it is kept. -/
def LdgGroup.entry (x : LdgGroup) (i : Nat) : Option LdgEntry := if x.base.1 < i then x.log[i - x.base.1 - 1]? else none

/-- The term of the entry at an index, 0 before the first. -/
def LdgGroup.termAt (x : LdgGroup) (i : Nat) : Option Nat :=
  if i = x.base.1 then some x.base.2 else (x.entry i).map fun e => e.term

/-- The voters of a group (R271). -/
def LdgGroup.voters (x : LdgGroup) (g : Nat) : List Nat :=
  (x.members.filter fun m => if g = 0 then m.role = mVoice else m.role = mSeat || m.role = mArbiterSeat).map fun m => m.id

/-- Whether a number of voters is a majority of the group. -/
def LdgGroup.most (x : LdgGroup) (g n : Nat) : Bool := (x.voters g).length < 2 * n

/-- A member of a group. -/
def LdgGroup.memberOf (x : LdgGroup) (id : Nat) : Option LdgMember := x.members.find? fun m => m.id = id

/-! ## Messages (R273) -/

/-- A ledger message after its checks. -/
structure LdgMsg where
  typ : Nat
  group : Nat
  sender : Nat
  gen : Nat
  term : Nat
  epoch : Nat
  body : List Byte
  deriving DecidableEq, Repr

/-- Voice generation of a shelf. -/
def State.voiceGen (s : State) (shelf : Nat) : Nat := Sparse.at 0 s.ldg.gen shelf

/-- The number of a group: rack or hall domain. -/
def State.groupNo (s : State) (g : Nat) : Nat := if g = 0 then s.rackNo else s.getF Reg.LDG_CFG_HALL

/-- A message of a type with its header, and its tag while tags are sent (R225, R273). -/
def State.ldgMessage (s : State) (g typ : Nat) (body : List Byte) : List Byte :=
  let auth := s.isF Reg.HNT_CFG_AUTH_REQ
  let x := s.grp g
  let m := beBytes 2 0x414C ++ beBytes 1 1 ++ beBytes 1 typ ++ beBytes 1 (ofBool auth) ++ beBytes 1 g ++
    beBytes 2 (28 + body.length + if auth then 16 else 0) ++ beBytes 8 s.selfId ++ beBytes 2 (s.groupNo g) ++
    beBytes 2 (if g = 0 then s.voiceGen s.shelf else 0) ++ beBytes 4 x.term ++ beBytes 4 x.epoch ++ body
  if auth then m ++ netTag (s.rackKey.getD []) m else m

/-- Whether a ledger message can leave: the ledger runs, a link is up, and a key is there where tags are required. -/
def State.ledgerSpeaks (s : State) : Bool :=
  s.isF Reg.LDG_CFG_EN && s.netUp && !(s.isF Reg.HNT_CFG_AUTH_REQ && s.rackKey.isNone)

/-- A message goes to the group, or to one module, on the ports whose link is up. -/
def State.ldgSend (s : State) (g typ : Nat) (dest : Option Nat) (body : List Byte) : State :=
  if s.ledgerSpeaks then
    let m := (s.ldgMessage g typ body).map BitVec.toNat
    match dest with
    | none => s.emitPorts (if g = 0 then .ledgerRack else .ledgerHall)
        (s.ledgerPort :: ((if g = 0 then s.rackGroup else s.hallGroup).map BitVec.toNat ++ m))
    | some id => s.emitPorts .ledgerUnicast (s.ledgerPort :: id :: m)
  else s

/-- Bodies have these least lengths by TYPE. -/
def ldgBody (typ : Nat) : Nat := [0, 32, 20, 12, 4, 4, 16, 8, 20, 8, 12, 20, 4, 12].getD typ 0

/-- A message that arrives on a port, when it is one for this module (R225, R270, R273): the ledger runs, the link is up, the
header is whole, the tag is right where tags are required, and the group is the module's. Rack messages are taken from
admitted modules of the rack, after the module's own ADMIT point; a JOIN only from one that is ADMITTED, not SILENT (R241). -/
def State.ldgTake (s : State) (typ port : Nat) (m : List Byte) : Option LdgMsg :=
  let up := port < 2 && s.portUp port
  let g := beAt m 5 1
  let auth := bitOf (beAt m 4 1) 0
  let n := m.length - if auth then 16 else 0
  if !(s.isF Reg.LDG_CFG_EN && up && s.phase = phaseRun) then none
  else if !(beAt m 0 2 = 0x414C && beAt m 2 1 = 1 && beAt m 3 1 = typ && g ≤ 1 && beAt m 6 2 = m.length) then none
  else if n < 28 + ldgBody typ || !s.tagOk m || beAt m 16 2 ≠ s.groupNo g then none
  else
    let id := beAt m 8 8
    let known := match s.ptFind id with
      | some i => s.ptIn i && s.getF Reg.HNT_PT_STATE_ROLE i = roleModule && (typ ≠ 7 || s.ptState i = ptAdmitted)
      | none => false
    if (g = 0 && !known) || id = s.selfId then none
    else some ⟨typ, g, id, beAt m 18 2, beAt m 20 4, beAt m 24 4, slice m 28 (n - 28)⟩

/-! ## What the registers show -/

/-- Whether the module leads a group and has committed its NOOP (R276). -/
def LdgGroup.leads (x : LdgGroup) : Bool := x.role = .leader && 0 < x.noop && x.noop ≤ x.commit && !x.stepping

/-- Whether a voter holds its read lease at `now` (R283). -/
def State.leased (s : State) (g now : Nat) : Bool :=
  let x := s.grp g
  x.leads && match x.lease with
    | some t => decide (now ≤ t + s.etNs g - leaseGuard g)
    | none => false

/-- The arbiter shelves of the ARBITER entry in force: primary and deputy (R281, R289). -/
def State.arbiters (s : State) : Option (Nat × Nat) := s.ldg.arb

/-- The voice of a shelf. -/
def State.voiceOf (s : State) (shelf : Nat) : Option Nat :=
  (s.ldg.rack.members.find? fun m => m.role = mVoice && m.shelf = shelf).map fun m => m.id

/-- Whether the module is a voice of its rack. -/
def State.isVoice (s : State) : Bool := s.ldg.rack.member && !s.ldg.voiceLost && s.voiceOf s.shelf = some s.selfId

/-- LDG_STATUS, the member table and the leader bits of CPC_STATUS follow the groups (R462 causes on a change). -/
def State.showLedger (s : State) (now : Nat) : State :=
  let x := s.ldg.rack
  let h := s.ldg.hall
  let role := if !x.member then 0 else if x.role = .leader then 3 else if s.isVoice then 2 else 1
  let a := s.causeIf (s.getF Reg.LDG_STATUS_ROLE ≠ role) 8 5
  let a := a.causeIf (s.isF Reg.CPC_STATUS_RACK_LEADER ≠ x.leads) 8 0
  let a := a.causeIf (s.isF Reg.CPC_STATUS_HALL_LEADER ≠ h.leads) 8 1
  let a := (a.setF Reg.CPC_STATUS_RACK_LEADER (ofBool x.leads)).setF Reg.CPC_STATUS_HALL_LEADER (ofBool h.leads)
  let arb := match s.arbiters with
    | some p => s.isVoice && (p.1 = s.shelf || p.2 = s.shelf)
    | none => false
  let seat := h.members.any fun m => m.role = mSeat && m.id = s.selfId
  let a := (a.setF Reg.LDG_STATUS_ROLE role).setF Reg.LDG_STATUS_ARBITER (ofBool arb)
  let a := (a.setF Reg.LDG_STATUS_SEAT (ofBool seat)).setF Reg.LDG_STATUS_HALL_LEADER (ofBool (h.role = .leader))
  let a := (a.setF Reg.LDG_STATUS_LEASE (ofBool (s.leased 0 now))).setF Reg.LDG_STATUS_FORMING
    (ofBool (s.isF Reg.LDG_CFG_EN && !x.member))
  let a := (a.setF Reg.LDG_STATUS_VOICE_GEN (s.voiceGen s.shelf)).setF Reg.TWN_STATUS_VOICE (ofBool s.isVoice)
  let a := (a.set64 Reg.LDG_RACK_COMMIT_LO x.commit).set64 Reg.LDG_HALL_COMMIT_LO h.commit
  let a := (a.setF Reg.LDG_RACK_TERM x.term).setF Reg.LDG_HALL_TERM h.term
  let a := a.set64 Reg.LDG_LEADER_LO (x.leader.getD 0)
  let p := s.arbiters.getD (0xF, 0xF)
  let a := (a.setF Reg.LDG_ARB_PRIMARY p.1).setF Reg.LDG_ARB_DEPUTY p.2
  (List.range 16).foldl (fun a i =>
    match x.members[i]? with
    | none => ((a.set64 Reg.LDG_MB_ID_LO 0 i).wr (Reg.LDG_MB_STATE.addr i 0) 0#32).wr (Reg.LDG_MB_MATCH.addr i 0) 0#32
    | some m =>
      let ack := Sparse.find x.acks m.id
      let reach := match ack with
        | some k => decide (now ≤ k.2.2 + s.etNs 0)
        | none => false
      let b := (a.set64 Reg.LDG_MB_ID_LO m.id i).setF Reg.LDG_MB_STATE_ROLE m.role i
      let b := (b.setF Reg.LDG_MB_STATE_REACH (ofBool reach) i).setF Reg.LDG_MB_STATE_SHELF m.shelf i
      b.setF Reg.LDG_MB_MATCH (match ack with | some k => k.1 | none => 0) i) a

/-! ## Election times, terms -/

/-- A voter draws its election time between `lo` and `lo + span` ns from `now` (R275). -/
def State.drawElection (s : State) (g lo span now : Nat) : State :=
  let t := now + lo + s.freeVal (0x700 + g) % (span + 1)
  s.useFree.setGrp g { s.grp g with expire := some t }

/-- The usual range of the election time. -/
def State.drawUsual (s : State) (g now : Nat) : State := s.drawElection g (s.etNs g) (s.etNs g) now

/-- A greater term is adopted; a leader or candidate becomes a follower (R274). -/
def State.adoptTerm (s : State) (g term now : Nat) : State :=
  let x := s.grp g
  if x.term < term then
    let a := s.setGrp g { x with term := term, role := .follower, voted := none, votes := [], leader := none, lease := none, stepping := false }
    if x.role = .follower then a else a.drawUsual g now
  else s

/-! ## Sending entries (R273, R275) -/

/-- Body of an APPEND. -/
def State.appendBody (s : State) (g : Nat) (prev : Nat × Nat) (now part parts flags : Nat) (bs : List Byte) : List Byte :=
  beBytes 8 prev.1 ++ beBytes 4 prev.2 ++ beBytes 8 (s.grp g).commit ++ beBytes 8 (now / 10) ++ beBytes 1 part ++
    beBytes 1 parts ++ beBytes 1 flags ++ beBytes 1 0 ++ bs

/-- A heartbeat. -/
def State.heartbeat (s : State) (g now flags : Nat) : State :=
  s.ldgSend g 1 none (s.appendBody g (s.grp g).last now 0 1 flags [])

/-- Bytes in pieces of at most 1,380. -/
def ldgParts : Nat → List Byte → List (List Byte)
  | 0, _ => []
  | n + 1, bs => if bs.length ≤ 1380 then [bs] else bs.take 1380 :: ldgParts n (bs.drop 1380)

/-- Entry `e` is sent, in parts where it is long. -/
def State.sendEntry (s : State) (g : Nat) (dest : Option Nat) (e : LdgEntry) (now : Nat) : State :=
  let prev := (e.index - 1, ((s.grp g).termAt (e.index - 1)).getD 0)
  let ps := ldgParts 4 e.bytes
  ps.zipIdx.foldl (fun a p => a.ldgSend g 1 dest (a.appendBody g prev now p.2 ps.length 0 p.1)) s

/-- Payload of a MEMBER entry. -/
def memberPay (op role shelf incarnation id rack : Nat) : List Byte :=
  leBytes 1 op ++ leBytes 1 role ++ leBytes 1 shelf ++ leBytes 1 0 ++ leBytes 4 incarnation ++ leBytes 8 id ++ leBytes 2 rack ++ leBytes 6 0

/-- Where the latest entry of a type is kept: for VOICE, by shelf. -/
def LdgEntry.slot (e : LdgEntry) : Nat := if e.etype = etVoice then etVoice + 256 * leAt e.payload 0 1 else e.etype

/-- Whether an entry belongs to the applied state (R282): VOICE, ARBITER, RACK, GRANT, CONTRACT, HALL. -/
def LdgEntry.lasts (e : LdgEntry) : Bool := [etVoice, etArbiter, etRack, etGrant, etContract, etHall].contains e.etype

/-- The applied state as STATE messages to a member whose next entry has been discarded (R282): the membership and the latest
entries in a row, in the rack group those of the hall as well. -/
def State.sendState (s : State) (g dest : Nat) : State :=
  let x := s.grp g
  let mem := x.members.map fun m => LdgEntry.mk m.idx 0 etMember g 0 (memberPay 0 m.role m.shelf m.incarnation m.id m.rack)
  let held := (x.latest ++ if g = 0 then s.ldg.hall.latest else []).map Prod.snd
  let bs := (mem ++ held.filter LdgEntry.lasts).flatMap LdgEntry.bytes
  let ps := ldgParts (bs.length + 1) bs
  ps.zipIdx.foldl (fun a p => a.ldgSend g 11 (some dest) (beBytes 8 x.applied ++ beBytes 4 ((x.termAt x.applied).getD x.base.2) ++
    beBytes 4 (1380 * p.2) ++ beBytes 4 bs.length ++ p.1)) s

/-- The leader appends an entry and sends it (R273). A hall entry also goes into the leader's own rack log (R272). -/
def State.appendRack (s : State) (etype : Nat) (pay : List Byte) (now : Nat) : State :=
  let x := s.ldg.rack
  let e : LdgEntry := ⟨x.last.1 + 1, x.term, etype, 0, s.frame, pay⟩
  let a := s.setGrp 0 { x with log := x.log ++ [e], proposed := Sparse.insert x.proposed e.index now }
  a.sendEntry 0 none e now

/-- HALL_RECORD payloads: a hall entry, a hall vote (R277). -/
def recordOfEntry (e : LdgEntry) : List Byte := leBytes 8 0 ++ e.bytes
def recordOfVote (term candidate : Nat) : List Byte := leBytes 8 1 ++ leBytes 4 term ++ leBytes 8 candidate

/-- The hall leader appends an entry. -/
def State.appendHall (s : State) (etype : Nat) (pay : List Byte) (now : Nat) : State :=
  let x := s.ldg.hall
  let e : LdgEntry := ⟨x.last.1 + 1, x.term, etype, 1, s.frame, pay⟩
  let a := s.setGrp 1 { x with log := x.log ++ [e], proposed := Sparse.insert x.proposed e.index now }
  (a.sendEntry 1 none e now).appendRack etHallRecord (recordOfEntry e) now

/-- An entry is appended by the leader of its group. -/
def State.appendTo (s : State) (g etype : Nat) (pay : List Byte) (now : Nat) : State :=
  if g = 0 then s.appendRack etype pay now else s.appendHall etype pay now

/-- Payload of a VOICE entry. -/
def voicePay (shelf cause gen holder : Nat) : List Byte :=
  leBytes 1 shelf ++ leBytes 1 cause ++ leBytes 2 gen ++ leBytes 4 0 ++ leBytes 8 holder

/-- Whether the log holds an entry of a type that is not committed yet and satisfies a test. -/
def LdgGroup.waits (x : LdgGroup) (etype : Nat) (p : List Byte → Bool) : Bool :=
  x.log.any fun e => x.commit < e.index && e.etype = etype && p e.payload

/-- The leader becomes a follower after a final APPEND with STEP_DOWN (R276). -/
def State.stepDown (s : State) (g now : Nat) : State :=
  if (s.grp g).role = .leader then
    let a := s.heartbeat g now 1
    let x := a.grp g
    (a.setGrp g { x with role := .follower, leader := none, lease := none, noop := 0, stepping := false, stepHeard := true }).drawElection
      g 200000 500000 now
  else s

/-- The module becomes leader: it appends a NOOP of its term (R275, R276). -/
def State.becomeLeader (s : State) (g now : Nat) : State :=
  let x := s.grp g
  let a := s.setGrp g { x with role := .leader, leader := some s.selfId, noop := x.last.1 + 1, acks := [], lease := none, expire := none,
                               stepping := false, noLeader := none }
  let a := if g = 0 then a.bump Reg.LDG_ELECTIONS else a
  a.appendTo g etNoop [] now

/-- A vote is counted; a majority makes the candidate leader. -/
def State.countVote (s : State) (g id now : Nat) : State :=
  let x := s.grp g
  if x.role = .candidate && id ∈ x.voters g && id ∉ x.votes then
    let v := id :: x.votes
    let a := s.setGrp g { x with votes := v }
    if x.most g v.length then a.becomeLeader g now else a
  else s

/-! ## Membership and arbiters (R270, R285, R289) -/

/-- A MEMBER entry in the group of module `self`: the seat of a rack and the arbiter seat have one holder each (R270). -/
def LdgGroup.takeMember (x : LdgGroup) (self : Nat) (e : LdgEntry) : LdgGroup :=
  let p := e.payload
  let id := leAt p 8 8
  let one := fun (m : LdgMember) => leAt p 0 1 = 0 && m.role = leAt p 1 1 &&
    (m.role = mArbiterSeat || (m.role = mSeat && m.rack = leAt p 16 2))
  let rest := x.members.filter fun m => m.id ≠ id && !one m
  if leAt p 0 1 = 0 then
    { x with members := rest ++ [⟨id, leAt p 4 4, leAt p 1 1, leAt p 2 1, leAt p 16 2, e.index⟩], member := x.member || id = self }
  else { x with members := rest, member := x.member && id ≠ self }

/-- The shelves that have a voice, lowest first. -/
def State.voiceShelves (s : State) : List Nat := (List.range 8).filter fun k => (s.voiceOf k).isSome

/-- The leader keeps an ARBITER entry in force (R289). -/
def State.keepArbiters (s : State) (now : Nat) : State :=
  if !s.ldg.rack.leads then s
  else
    let l := s.voiceShelves.filter fun k => k ≠ s.shelf
    let want := (l.headD 0xF, (l.drop 1).headD 0xF)
    let same := fun (p : List Byte) => leAt p 0 1 = want.1 && leAt p 1 1 = want.2
    let now_ := match Sparse.find s.ldg.rack.latest etArbiter with | some e => same e.payload | none => l = []
    if now_ || s.ldg.rack.waits etArbiter same then s
    else s.appendRack etArbiter (leBytes 1 want.1 ++ leBytes 1 want.2 ++ leBytes 6 0) now

/-! ## Commit (R279, R281) -/

/-- A RACK entry's content (R278). -/
def parseRackEntry (idx : Nat) (p : List Byte) : RackEntry :=
  ⟨idx, leAt p 0 8, signed 32 (leAt p 8 4), signed 32 (leAt p 12 4), signed 32 (leAt p 16 4), leAt p 20 4, leAt p 24 4, leAt p 28 2,
   leAt p 32 4, (List.range (leAt p 30 1)).map fun k => (leAt p (40 + 12 * k) 1, leAt p (44 + 12 * k) 4, leAt p (48 + 12 * k) 4)⟩

/-- A proposer by PROPOSE learns that its entry committed. -/
def State.answerProposer (s : State) (g i : Nat) : State :=
  match Sparse.find (s.grp g).proposers i with
  | some id =>
    let a := s.ldgSend g 13 (some id) (beBytes 1 0 ++ beBytes 3 0 ++ beBytes 8 i)
    a.setGrp g { a.grp g with proposers := Sparse.erase (a.grp g).proposers i }
  | none => s

/-- A CONTRACT entry the module itself proposed is committed: the outcome of CONTRACT_SET (R248). -/
def State.contractResult (s : State) (code : Nat) : State :=
  ({ s with cpc := { s.cpc with setPay := none } }).cpcResult code

/-- A hall entry is committed. -/
def State.hallCommitted (s : State) (e : LdgEntry) : State :=
  let x := s.ldg.hall
  let a :=
    if e.etype = etMember then s.setGrp 1 (x.takeMember s.selfId e)
    else if e.etype = etSeat then
      let r := leAt e.payload 0 2
      let id := leAt e.payload 8 8
      let b := s.setGrp 1 { x with
        members := x.members.map fun m => if m.role = mSeat && m.rack = r then { m with id := id } else m
        member := x.member || id = s.selfId }
      { b with ldg := { b.ldg with seatTerm := Sparse.insert b.ldg.seatTerm r (leAt e.payload 4 4) } }
    else if e.etype = etContract && s.cpc.setPay = some e.payload then s.contractResult 1
    else s
  let a := a.setGrp 1 { a.grp 1 with latest := Sparse.insert (a.grp 1).latest e.slot e }
  a.answerProposer 1 e.index

/-- The hall group's commit index is learned (R281). -/
def State.learnHall (s : State) (c : Nat) : State :=
  let x := s.ldg.hall
  let c := min c x.last.1
  if c ≤ x.commit then s
  else (x.log.filter fun e => x.commit < e.index && e.index ≤ c).foldl (fun a e => a.hallCommitted e)
    (s.setGrp 1 { x with commit := c })

/-- The greatest index that a majority of voters holds, among a list of what each holds. -/
def mostHold (x : LdgGroup) (g : Nat) (held : Nat → Nat) : Nat :=
  let l := (x.voters g).map held
  l.foldl (fun m v => if m < v && x.most g (l.filter fun w => v ≤ w).length then v else m) 0

/-- The hall leader enters its own rack's seat where the committed one is of an older rack term (R288). -/
def State.seatSelf (s : State) (now : Nat) : State :=
  let x := s.ldg.hall
  let term := s.ldg.rack.term
  if x.leads && s.ldg.rack.leads && Sparse.at 0 s.ldg.seatTerm s.rackNo < term &&
      !x.waits etSeat (fun p => leAt p 0 2 = s.rackNo && leAt p 4 4 = term) then
    (s.appendHall etMember (memberPay 0 mSeat s.shelf s.hnt.incarnation s.selfId s.rackNo) now).appendHall etSeat
      (leBytes 2 s.rackNo ++ leBytes 2 0 ++ leBytes 4 term ++ leBytes 8 s.selfId) now
  else s

/-- The hall leader commits what a majority of seats acknowledges (R271, R279). -/
def State.advanceHall (s : State) (now : Nat) : State :=
  let x := s.ldg.hall
  if x.role ≠ .leader then s
  else
    let c := mostHold x 1 fun id => match Sparse.find x.acks id with | some k => k.1 | none => 0
    if c ≤ x.commit || x.termAt c ≠ some x.term then s
    else ((s.learnHall c).heartbeat 1 now 0).seatSelf now

/-- A HALL_RECORD entry is committed in the rack (R272): the hall log and votes follow in every member, and the seat holder
acknowledges the entry or casts the vote. -/
def State.hallRecordCommitted (s : State) (pay : List Byte) (now : Nat) : State :=
  let x := s.ldg.hall
  let acts := s.selfId ∈ x.voters 1
  if leAt pay 0 1 = 0 then
    match parseEntries 1 (pay.drop 8) with
    | some [e] =>
      let keep := x.log.filter fun y => y.index < e.index
      let held := x.entry e.index = some e
      let a := if held then s
        else s.setGrp 1 { x with log := keep ++ [e], base := if x.last.1 = 0 && x.log = [] then (e.index - 1, x.base.2) else x.base }
      if !acts then a
      else if x.role = .leader then
        let y := a.grp 1
        (a.setGrp 1 { y with acks := Sparse.insert y.acks s.selfId (e.index, now / 10, now) }).advanceHall now
      else match x.leader, x.seen with
        | some l, some k => a.ldgSend 1 2 (some l) (beBytes 8 e.index ++ beBytes 8 k.2.1 ++ beBytes 1 1 ++ beBytes 3 0)
        | _, _ => a
    | _ => s
  else
    let term := leAt pay 8 4
    let cand := leAt pay 12 8
    let a := if x.term ≤ term then s.setGrp 1 { x with term := term, voted := some cand } else s
    if !acts || term < x.term then a
    else if cand = s.selfId then a.countVote 1 cand now
    else a.ldgSend 1 4 (some cand) (beBytes 1 1 ++ beBytes 3 0)

/-- A VOICE entry is committed (R274, R290): generation and holder, and the roles of the shelf's modules. A leader whose own
shelf's voice moved steps down. -/
def State.voiceCommitted (s : State) (p : List Byte) (now : Nat) : State :=
  let shelf := leAt p 0 1
  let holder := leAt p 8 8
  let x := s.ldg.rack
  let a := s.setGrp 0 { x with members := x.members.map fun m =>
    if m.id = holder then { m with role := mVoice } else if m.shelf = shelf && m.role = mVoice then { m with role := mLearner } else m }
  let a := { a with ldg := { a.ldg with
    gen := Sparse.insert a.ldg.gen shelf (leAt p 2 2)
    holder := Sparse.insert a.ldg.holder shelf holder
    voiceLost := a.ldg.voiceLost && shelf ≠ s.shelf } }
  if shelf = s.shelf && holder ≠ s.selfId then (a.stepDown 0 now).stepDown 1 now else a

/-- A rack entry is committed: what takes effect in the ledger itself, and what carries its own frame or comes from the commit
(R118, R262, R267, R272). -/
def State.rackCommitted (s : State) (e : LdgEntry) (now : Nat) : State :=
  let x := s.ldg.rack
  let s := s.setGrp 0 { x with latest := Sparse.insert x.latest e.slot e }
  let x := s.ldg.rack
  let a :=
    if e.etype = etMember then (s.setGrp 0 (x.takeMember s.selfId e)).keepArbiters now
    else if e.etype = etVoice then (s.voiceCommitted e.payload now).keepArbiters now
    else if e.etype = etNoop then s.keepArbiters now
    else if e.etype = etRack then { s with wb := { s.wb with queue := s.wb.queue ++ [parseRackEntry e.index e.payload] } }
    else if e.etype = etGrant then
      let b := s.grantCommitted now e.payload
      if x.role = .leader && s.cpc.pendingGrant = some (leAt e.payload 0 8) then
        let c := { b with cpc := { b.cpc with pendingGrant := none } }
        if now ≤ c.frameTime (leAt e.payload 0 8) + 5000000 then c.sendGrants e.index e.payload else c
      else b
    else if e.etype = etHallRecord then s.hallRecordCommitted e.payload now
    else s
  a.answerProposer 0 e.index

/-- The rack's commit index is learned. -/
def State.learnRack (s : State) (c now : Nat) : State :=
  let x := s.ldg.rack
  let c := min c x.last.1
  if c ≤ x.commit then s
  else (x.log.filter fun e => x.commit < e.index && e.index ≤ c).foldl (fun a e => a.rackCommitted e now)
    (s.setGrp 0 { x with commit := c })

/-- The rack leader commits what a majority of voices, itself included, holds (R279), and tells the commit index. The entries
that a commit appends may commit in turn where the leader is the only voice. -/
def State.advanceRack : Nat → Nat → State → State
  | 0, _, s => s
  | n + 1, now, s =>
    let x := s.ldg.rack
    if x.role ≠ .leader then s
    else
      let c := mostHold x 0 fun id => if id = s.selfId then (if s.ldg.voiceLost then 0 else x.last.1) else
        match Sparse.find x.acks id with | some k => k.1 | none => 0
      if c ≤ x.commit || x.termAt c ≠ some x.term then s
      else
        let lat := match Sparse.find x.proposed c with | some t => min 0xFFFF ((now - t) / 1000) | none => 0
        let a := (s.setF Reg.LDG_COMMIT_LAT_LAST lat).setF Reg.LDG_COMMIT_LAT_MAX (max lat (s.getF Reg.LDG_COMMIT_LAT_MAX))
        let a := a.setGrp 0 { x with proposed := x.proposed.filter fun e => c < e.1 }
        State.advanceRack n now ((a.learnRack c now).heartbeat 0 now 0)

/-- The end of every ledger command: what can commit commits, and the registers follow. -/
def State.ldgDone (s : State) (now : Nat) : State := (State.advanceRack 8 now s).showLedger now

/-! ## Leases (R283) -/

/-- The lease follows the acknowledgements: the latest SENT, in ns, that a majority has acknowledged, the leader's own counted. -/
def State.showLease (s : State) (g now : Nat) : State :=
  let x := s.grp g
  if x.role ≠ .leader then s
  else
    let t := mostHold x g fun id => if id = s.selfId then now else
      match Sparse.find x.acks id with | some k => k.2.1 * 10 | none => 0
    if t = 0 then s
    else s.setGrp g { x with lease := match x.lease with | some l => some (max l t) | none => some t }

/-! ## Application (R281) -/

/-- A hall entry takes effect in frame `f`. -/
def State.applyHallEntry (s : State) (h : LdgEntry) (f : Nat) : State :=
  let b :=
    if h.etype = etHall then s.applyHall h.index h.payload f
    else if h.etype = etContract then s.applyContract h.index h.payload
    else if h.etype = etReport then s.applyReport h.frame h.payload
    else s
  (b.setGrp 1 { b.grp 1 with applied := h.index }).set64 Reg.LDG_HALL_APPLIED_LO h.index

/-- A rack entry takes effect in frame `f`. -/
def State.applyRackEntry (s : State) (e : LdgEntry) (f : Nat) : State :=
  let a :=
    if e.etype = etGrant then s.applyGrant e.index e.payload
    else if e.etype = etArbiter then { s with ldg := { s.ldg with arb := some (leAt e.payload 0 1, leAt e.payload 1 1) } }
    else if e.etype = etHallRecord && leAt e.payload 0 1 = 0 then
      match parseEntries 1 (e.payload.drop 8) with
      | some [h] => s.applyHallEntry h f
      | _ => s
    else s
  (a.setGrp 0 { a.grp 0 with applied := e.index }).set64 Reg.LDG_RACK_APPLIED_LO e.index

/-- Entries before the last 8,192 are discarded once applied (R282). -/
def LdgGroup.trim (x : LdgGroup) : LdgGroup :=
  let n := min (x.log.length - 8192) (x.applied - x.base.1)
  match x.log[n - 1]? with
  | some e => if n = 0 then x else { x with log := x.log.drop n, base := (e.index, e.term) }
  | none => x

/-- Committed entries not yet applied take effect at the boundary of frame `f`, in index order. -/
def State.ldgApply (s : State) (f : Nat) : State :=
  let x := s.ldg.rack
  let a := (x.log.filter fun e => x.applied < e.index && e.index ≤ x.commit).foldl (fun a e => a.applyRackEntry e f) s
  (a.setGrp 0 (a.grp 0).trim).dueCeilings f

/-- A running ledger's registers follow at a boundary at `now` (R281). -/
def State.ldgAtBoundary (s : State) (now : Nat) : State := if s.isF Reg.LDG_CFG_EN then s.showLedger now else s

end Sys2Proof.Machine
end

