-- ==== Sys2Proof/Machine/LedgerRx.lean ====
section
/-!
DEFINITION. The commands of the ledger (12): arriving messages, elections, leases, SYNC, joining, forming, the arbiters.
`now` is module time in ns, `port` 0 is ETHA and 1 ETHB, `frame` an Ethernet frame.
-/

namespace Sys2Proof.Machine

/-! ## APPEND and its acknowledgement (R272, R279) -/

/-- APPEND_ACK (R273). -/
def State.sendAck (s : State) (g dest matched sent ok : Nat) : State :=
  s.ldgSend g 2 (some dest) (beBytes 8 matched ++ beBytes 8 sent ++ beBytes 1 ok ++ beBytes 3 0)

/-- JOIN_ANS (R273). -/
def State.sendJoinAns (s : State) (g dest st : Nat) : State :=
  let x := s.grp g
  s.ldgSend g 8 (some dest) (beBytes 1 st ++ beBytes 3 0 ++ beBytes 8 (x.leader.getD 0) ++ beBytes 8 x.applied)

/-- Whether a message has a smaller term, or comes from a voice of an older generation than the latest committed (R274). -/
def State.ldgStale (s : State) (m : LdgMsg) : Bool :=
  let x := s.grp m.group
  m.term < x.term || (m.group = 0 && match x.memberOf m.sender with
    | some k => k.role = mVoice && m.gen < s.voiceGen k.shelf
    | none => false)

/-- The contract table's lowest rack. -/
def State.lowestRack (s : State) : Option Nat :=
  match s.cpc.contract with
  | some c => (c.racks.map Prod.fst).min?
  | none => none

/-- A rack leader that is not the committed holder of its rack's seat asks for it; a primary arbiter of the lowest rack likewise
for the hall arbiter seat (R270, R288). -/
def State.askSeat (s : State) : State :=
  let h := s.ldg.hall
  match h.leader with
  | none => s
  | some l =>
    if l = s.selfId then s
    else
      let held := h.members.any fun m => m.role = mSeat && m.rack = s.rackNo && m.id = s.selfId
      let a := if s.ldg.rack.leads && !held then
          s.ldgSend 1 12 (some l) (beBytes 1 etSeat ++ beBytes 3 0 ++
            (leBytes 2 s.rackNo ++ leBytes 2 0 ++ leBytes 4 s.ldg.rack.term ++ leBytes 8 s.selfId))
        else s
      let arb := match s.arbiters with | some p => s.isVoice && p.1 = s.shelf | none => false
      let has := h.members.any fun m => m.role = mArbiterSeat && m.id = s.selfId
      if arb && s.lowestRack = some s.rackNo && !has then
        a.ldgSend 1 12 (some l) (beBytes 1 etMember ++ beBytes 3 0 ++
          memberPay 0 mArbiterSeat s.shelf s.hnt.incarnation s.selfId s.rackNo)
      else a

/-- A HALL_RECORD goes into the module's own rack log: appended by the rack leader, else proposed to it (R272). -/
def State.recordHall (s : State) (pay : List Byte) (now : Nat) : State :=
  if s.ldg.rack.leads then s.appendRack etHallRecord pay now
  else match s.ldg.rack.leader with
    | some l => s.ldgSend 0 12 (some l) (beBytes 1 etHallRecord ++ beBytes 3 0 ++ pay)
    | none => s

/-- An entry of an APPEND goes into the rack log; entries that disagree are discarded (R279). -/
def LdgGroup.store (x : LdgGroup) (e : LdgEntry) : LdgGroup :=
  if e.index ≤ x.base.1 then x
  else match x.entry e.index with
    | some y => if y.term = e.term then x else { x with log := (x.log.filter fun z => z.index < e.index) ++ [e] }
    | none => { x with log := x.log ++ [e] }

/-- The whole entry bytes once the last part is here; none while parts are missing (R273). -/
def LdgGroup.takePart (x : LdgGroup) (part parts : Nat) (bs : List Byte) : LdgGroup × Option (List Byte) :=
  if parts ≤ 1 then ({ x with parts := [] }, some bs)
  else
    let have_ := if part = 0 then [] else x.parts
    if have_.length ≠ part then (x, none)
    else if part + 1 = parts then ({ x with parts := [] }, some ((have_ ++ [bs]).flatten))
    else ({ x with parts := have_ ++ [bs] }, none)

/-- Entries of an APPEND whose previous entry agrees are stored and acknowledged, and the commit index learned (R272, R279). -/
def State.storeEntries (s : State) (g : Nat) (from_ prev sent commit : Nat) (es : List LdgEntry) (now : Nat) : State :=
  let x := s.grp g
  let matched := prev + es.length
  if g = 0 then
    let a := s.setGrp 0 (es.foldl (fun y e => y.store e) x)
    (a.sendAck 0 from_ matched sent 1).learnRack (min commit matched) now
  else
    let fresh := es.filter fun e => (x.entry e.index).map (fun y => y.term) ≠ some e.term && x.base.1 < e.index
    let a := if fresh = [] then (if s.selfId ∈ x.voters 1 then s.sendAck 1 from_ matched sent 1 else s)
      else if s.selfId ∈ x.voters 1 || s.ldg.rack.leads then fresh.foldl (fun a e => a.recordHall (recordOfEntry e) now) s
      else s
    a.learnHall (min commit matched)

/-- An APPEND of the group's own epoch and not stale is taken: its sender leads (R275), its entries are stored. -/
def State.takeAppend (s : State) (m : LdgMsg) (now : Nat) : State :=
  let g := m.group
  let b := m.body
  let a := s.adoptTerm g m.term now
  let x := a.grp g
  let news := x.leader ≠ some m.sender
  let down := bitOf (beAt b 30 1) 0
  let sent := beAt b 20 8
  let copy := x.seen = some (m.sender, sent, beAt b 28 1) && beAt b 29 1 ≠ 1
  let x := { x with role := .follower, leader := some m.sender, heard := some now, stepHeard := down, noLeader := none, restarted := [],
                    best := (0, 0, 0), seen := some (m.sender, sent, beAt b 28 1) }
  let a := a.setGrp g x
  let a := if news && g = 0 then a.bump Reg.LDG_ELECTIONS else a
  let a := if down then a.drawElection g 200000 500000 now else a.drawUsual g now
  if copy then a
  else
    let t := (a.grp g).takePart (beAt b 28 1) (beAt b 29 1) (b.drop 32)
    let a := a.setGrp g t.1
    match t.2 with
    | none => a
    | some bs =>
      let y := a.grp g
      let prev := beAt b 0 8
      let agrees := prev < y.base.1 || y.termAt prev = some (beAt b 8 4)
      match parseEntries (bs.length + 1) bs with
      | some es => if agrees then a.storeEntries g m.sender prev sent (beAt b 12 8) es now else a.sendAck g m.sender y.commit sent 0
      | none => a.sendAck g m.sender y.commit sent 0

/-- The ARBITER entry of a rack group that the module is no longer of is in force no more. -/
def State.leaveArbiters (s : State) (g : Nat) : State := if g = 0 then { s with ldg := { s.ldg with arb := none } } else s

/-- A module of a group with another epoch (R286): a member answers; which group governs when two meet is known only by their
numbers of voices, then by the greater epoch. -/
def State.otherEpoch (s : State) (m : LdgMsg) : State :=
  let x := s.grp m.group
  if !x.member then (s.setGrp m.group { epoch := m.epoch, joinSince := x.joinSince, answers := x.answers, peers := x.peers }).leaveArbiters m.group
  else s.sendJoinAns m.group m.sender 1

/-- APPEND_RECEIVE (R274, R275, R279, R288). -/
def execAppendReceive (port now : Nat) (frame : List Byte) (s : State) : Res :=
  .next <| s.receive port s.ledgerPort frame fun message => match s.ldgTake 1 port message with
    | none => s
    | some m =>
      let x := s.grp m.group
      if m.epoch ≠ x.epoch && x.member then (s.otherEpoch m).ldgDone now
      else
        let a := if m.epoch ≠ x.epoch then s.otherEpoch m else s
        if a.ldgStale m then (a.sendAck m.group m.sender (a.grp m.group).commit (beAt m.body 20 8) 0).ldgDone now
        else
          let b := a.takeAppend m now
          (if m.group = 1 then b.askSeat else b).ldgDone now

/-- SYNCs of a leader without a lease that a majority has now acknowledged get their read index (R284); a new leader answers none
before the NOOP of its term is committed (R276). -/
def State.answerSyncs (s : State) (g : Nat) : State :=
  let x := s.grp g
  if !x.leads then s else
  let got := mostHold x g fun id => if id = s.selfId then 2 ^ 64 else
    match Sparse.find x.acks id with | some k => k.2.1 | none => 0
  s.ldg.syncs.foldl (fun a q =>
    match q.sent with
    | some t =>
      if q.group = g && t ≤ got then
        match q.from_ with
        | some id =>
          let b := a.ldgSend g 6 (some id) (beBytes 4 q.nonce ++ beBytes 8 x.commit ++ beBytes 1 1 ++ beBytes 3 0)
          { b with ldg := { b.ldg with syncs := b.ldg.syncs.filter fun r => r ≠ q } }
        | none =>
          { a with ldg := { a.ldg with syncs := a.ldg.syncs.map fun r => if r = q then { q with sent := none, index := some x.commit } else r } }
      else a
    | none => a) s

/-- APPEND_ACK_RECEIVE (R271, R274, R279, R283). -/
def execAppendAckReceive (port now : Nat) (frame : List Byte) (s : State) : Res :=
  .next <| s.receive port s.ledgerPort frame fun message => match s.ldgTake 2 port message with
    | none => s
    | some m =>
      let g := m.group
      if m.epoch ≠ (s.grp g).epoch then s
      else if (s.grp g).term < m.term then (s.adoptTerm g m.term now).ldgDone now
      else if s.ldgStale m || (s.grp g).role ≠ .leader then s
      else
        let x := s.grp g
        let matched := beAt m.body 0 8
        let sent := beAt m.body 8 8
        if beAt m.body 16 1 = 1 then
          let old := (Sparse.find x.acks m.sender).getD (0, 0, 0)
          let a := s.setGrp g { x with acks := Sparse.insert x.acks m.sender (max old.1 matched, max old.2.1 sent, now) }
          let a := a.showLease g now
          ((if g = 1 then a.advanceHall now else State.advanceRack 8 now a).answerSyncs g).ldgDone now
        else if matched < x.base.1 then (s.sendState g m.sender).ldgDone now
        else ((x.log.filter fun e => matched < e.index).foldl (fun a e => a.sendEntry g (some m.sender) e now) s).ldgDone now

/-! ## Elections (R275, R276) -/

/-- Whether the module may vote in a group: it is a voter and has applied its own MEMBER ADD (R285). -/
def State.mayVote (s : State) (g : Nat) : Bool :=
  let x := s.grp g
  (g = 1 || s.isVoice) && s.selfId ∈ x.voters g && match x.memberOf s.selfId with
    | some m => m.idx ≤ x.applied
    | none => false

/-- VOTE_REQ_RECEIVE (R272, R274, R275). -/
def execVoteReqReceive (port now : Nat) (frame : List Byte) (s : State) : Res :=
  .next <| s.receive port s.ledgerPort frame fun message => match s.ldgTake 3 port message with
    | none => s
    | some m =>
      let g := m.group
      let deny := fun (a : State) => a.ldgSend g 4 (some m.sender) (beBytes 1 0 ++ beBytes 3 0)
      if m.epoch ≠ (s.grp g).epoch then s.otherEpoch m
      else if s.ldgStale m then deny s
      else
        let a := s.adoptTerm g m.term now
        let x := a.grp g
        let cand := (beAt m.body 8 4, beAt m.body 0 8)
        let x := if x.best.1 < cand.1 || (x.best.1 = cand.1 && x.best.2.1 < cand.2) then { x with best := (cand.1, cand.2, m.sender) } else x
        let a := a.setGrp g x
        let current := x.last.2 < cand.1 || (x.last.2 = cand.1 && x.last.1 ≤ cand.2)
        let fresh := match x.heard with
          | some t => now < t + a.etNs g && !x.stepHeard
          | none => false
        let pending := g = 1 && a.ldg.rack.waits etHallRecord fun p => leAt p 0 1 = 1 && leAt p 8 4 = m.term
        if a.mayVote g && x.voted.isNone && !pending && current && !fresh then
          if g = 0 then ((a.setGrp 0 { x with voted := some m.sender }).ldgSend 0 4 (some m.sender) (beBytes 1 1 ++ beBytes 3 0)).ldgDone now
          else (a.recordHall (recordOfVote m.term m.sender) now).ldgDone now
        else (deny a).ldgDone now

/-- VOTE_RECEIVE (R271, R275). -/
def execVoteReceive (port now : Nat) (frame : List Byte) (s : State) : Res :=
  .next <| s.receive port s.ledgerPort frame fun message => match s.ldgTake 4 port message with
    | none => s
    | some m =>
      let g := m.group
      if m.epoch ≠ (s.grp g).epoch then s
      else if (s.grp g).term < m.term then (s.adoptTerm g m.term now).ldgDone now
      else if s.ldgStale m || beAt m.body 0 1 ≠ 1 then s
      else (s.countVote g m.sender now).ldgDone now

/-- ELECTION_TIMEOUT of a group at `now` (R275): the voter stands for election. -/
def execElectionTimeout (group now : Nat) (s : State) : Res :=
  .next <|
    let x := s.grp group
    let due := match x.expire with | some t => decide (t < now) | none => false
    if 2 ≤ group || !due || x.role = .leader || !s.mayVote group then s
    else
      let x := { x with role := .candidate, term := x.term + 1, votes := [], leader := none, lease := none,
                        voted := if group = 0 then some s.selfId else none,
                        noLeader := match x.noLeader with | some t => some t | none => some now }
      let a := (s.setGrp group x).drawUsual group now
      let a := a.ldgSend group 3 none (beBytes 8 x.last.1 ++ beBytes 4 x.last.2)
      (if group = 0 then a.countVote 0 s.selfId now else a.recordHall (recordOfVote x.term s.selfId) now).ldgDone now

/-- HEARTBEAT_SEND of a group at `now` (R275). -/
def execHeartbeatSend (group now : Nat) (s : State) : Res :=
  .next <|
    if 2 ≤ group || (s.grp group).role ≠ .leader then s
    else (((s.heartbeat group now 0).showLease group now).answerSyncs group).ldgDone now

/-- LEASE_END of a group at `now` (R283). -/
def execLeaseEnd (group now : Nat) (s : State) : Res :=
  .next <| match (s.grp group).lease with
    | some t =>
      if group < 2 && t + s.etNs group - leaseGuard group < now then
        (s.setGrp group { s.grp group with lease := none }).showLedger now
      else s
    | none => s

/-- STEP_DOWN of LDG_CMD (R276). -/
def execStepDown (now : Nat) (s : State) : Res := .next <| ((s.stepDown 0 now).stepDown 1 now).ldgDone now

/-! ## SYNC (R284) -/

/-- STATE of a path's SYNC: 1 BUSY, 2 DONE, 3 FAILED. -/
def State.syncState (s : State) (path v : Nat) : State := s.wrPath path (Reg.LDG_SYNC_STAT.addr 0 0) (BitVec.ofNat 32 v)

/-- A SYNC of a group by a path. -/
def State.startSync (s : State) (path g now : Nat) : State :=
  let x := s.grp g
  let nonce := s.ldg.nonce % 2 ^ 32
  let lead := x.role = .leader
  let q : SyncReq := ⟨path, g, nonce, if s.leased g now then some x.commit else none, now + syncNs g,
    if lead && !s.leased g now then some (now / 10) else none, none⟩
  let a := { s with ldg := { s.ldg with
    nonce := s.ldg.nonce + 1
    syncs := (s.ldg.syncs.filter fun (r : SyncReq) => !(r.path = path && r.from_.isNone)) ++ [q] } }
  let a := a.syncState path 1
  if s.leased g now then a
  else if lead then (a.heartbeat g now 0).answerSyncs g
  else match x.leader with
    | some l => a.ldgSend g 5 (some l) (beBytes 4 nonce)
    | none => a

/-- SYNC_RACK, SYNC_HALL of LDG_CMD on a path. -/
def execSyncRack (path now : Nat) (s : State) : Res := .next <| s.startSync path 0 now
def execSyncHall (path now : Nat) (s : State) : Res := .next <| s.startSync path 1 now

/-- SYNC_REQ_RECEIVE (R276, R284). -/
def execSyncReqReceive (port now : Nat) (frame : List Byte) (s : State) : Res :=
  .next <| s.receive port s.ledgerPort frame fun message => match s.ldgTake 5 port message with
    | none => s
    | some m =>
      let g := m.group
      let x := s.grp g
      if m.epoch ≠ x.epoch then s
      else if s.ldgStale m then s.ldgSend g 6 (some m.sender) (beBytes 4 (beAt m.body 0 4) ++ beBytes 8 0 ++ beBytes 1 0 ++ beBytes 3 0)
      else if x.term < m.term then (s.adoptTerm g m.term now).ldgDone now
      else if !x.leads then s
      else if s.leased g now then
        s.ldgSend g 6 (some m.sender) (beBytes 4 (beAt m.body 0 4) ++ beBytes 8 x.commit ++ beBytes 1 1 ++ beBytes 3 0)
      else
        let q : SyncReq := ⟨0, g, beAt m.body 0 4, none, now + syncNs g, some (now / 10), some m.sender⟩
        ({ s with ldg := { s.ldg with syncs := s.ldg.syncs ++ [q] } }).heartbeat g now 0

/-- SYNC_ANS_RECEIVE (R284). -/
def execSyncAnsReceive (port now : Nat) (frame : List Byte) (s : State) : Res :=
  .next <| s.receive port s.ledgerPort frame fun message => match s.ldgTake 6 port message with
    | none => s
    | some m =>
      if m.epoch ≠ (s.grp m.group).epoch || s.ldgStale m then s
      else if (s.grp m.group).term < m.term then (s.adoptTerm m.group m.term now).showLedger now
      else if beAt m.body 12 1 ≠ 1 then s
      else { s with ldg := { s.ldg with syncs := s.ldg.syncs.map fun q =>
        if q.group = m.group && q.nonce = beAt m.body 0 4 && q.from_.isNone && q.index.isNone then
          { q with index := some (beAt m.body 4 8), sent := none }
        else q } }

/-- A path's SYNC ends. -/
def State.endSync (s : State) (q : SyncReq) (code : Nat) : State :=
  (({ s with ldg := { s.ldg with syncs := s.ldg.syncs.filter fun r => r ≠ q } }).syncState q.path code).cause 8 6

/-- SYNC_DONE of a path (R284): the applied index has reached the read index. -/
def execSyncDone (path : Nat) (s : State) : Res :=
  .next <| match s.ldg.syncs.find? fun q => q.path = path && q.from_.isNone with
    | some q => match q.index with
      | some n =>
        if n ≤ (s.grp q.group).applied then
          let a := (s.wrPath path (Reg.LDG_SYNC_IDX_LO.addr 0 0) (BitVec.ofNat 32 n)).wrPath path (Reg.LDG_SYNC_IDX_HI.addr 0 0)
            (BitVec.ofNat 32 (n / 2 ^ 32))
          a.endSync q 2
        else s
      | none => s
    | none => s

/-- SYNC_TIMEOUT of a path at `now` (R284): the timeout passes first. -/
def execSyncTimeout (path now : Nat) (s : State) : Res :=
  .next <|
    let s := { s with ldg := { s.ldg with syncs := s.ldg.syncs.filter fun q => !(q.from_.isSome && q.until_ < now) } }
    match s.ldg.syncs.find? fun q => q.path = path && q.from_.isNone with
    | some q => if q.until_ < now then s.endSync q 3 else s
    | none => s

/-! ## Joining, forming, re-forming (R285 to R287) -/

/-- JOIN_RETRY of a group at `now` (R285): a module that is not a member sends JOIN, 10 ms or more after the one before. To the hall group only a rack leader does. -/
def execJoinRetry (group now : Nat) (s : State) : Res :=
  .next <|
    let x := s.grp group
    let early := x.joinAt.any fun t => now < t + 10000000
    if 2 ≤ group || x.member || early || s.phase ≠ phaseRun || !s.isF Reg.LDG_CFG_EN || (group = 1 && !s.ldg.rack.leads) then s
    else
      let a := s.setGrp group { x with
        joinSince := match x.joinSince with | some t => some t | none => some now
        joinAt := some now }
      let active := s.getF Reg.TWN_STATUS_STATE = 3
      (a.ldgSend group 7 none (beBytes 1 s.shelf ++ beBytes 1 (ofBool active) ++ beBytes 2 0 ++ beBytes 4 s.hnt.incarnation)).showLedger now

/-- The CAUSE byte of a VOICE entry, for which no rule gives a value: a free value. -/
def State.voiceCause (s : State) : Nat := s.freeVal 0x710 % 256

/-- The rack leader adds a joining module (R285), up to the group's 16 members (R270): as voice where its shelf has none, or where its own earlier incarnation was
the voice and it is the active module; else as learner. -/
def State.addMember (s : State) (id shelf incarnation : Nat) (active : Bool) (now : Nat) : State :=
  let x := s.ldg.rack
  let waiting := x.waits etMember fun p => leAt p 8 8 = id && leAt p 4 4 = incarnation
  let old := x.memberOf id
  let same := match old with | some m => m.incarnation = incarnation | none => false
  let toCome := x.waits etMember fun p => leAt p 0 1 = 0 && leAt p 1 1 = mVoice && leAt p 2 1 = shelf
  if !x.leads || waiting || same || (16 ≤ x.members.length && old.isNone) then s
  else
    let was := match old with | some m => m.role = mVoice | none => false
    let fresh := (s.voiceOf shelf).isNone && !toCome
    let role := if (was && active) || (!was && fresh) then mVoice else mLearner
    let a := s.appendRack etMember (memberPay 0 role shelf incarnation id s.rackNo) now
    if !was && fresh then
      a.useFree.appendRack etVoice (voicePay shelf s.voiceCause ((s.voiceGen shelf + 1) % 65536) id) now
    else a

/-- JOIN_RECEIVE (R285, R286). -/
def execJoinReceive (port now : Nat) (frame : List Byte) (s : State) : Res :=
  .next <| s.receive port s.ledgerPort frame fun message => match s.ldgTake 7 port message with
    | none => s
    | some m =>
      let g := m.group
      let s := if m.epoch = (s.grp g).epoch && (s.grp g).member then s.adoptTerm g m.term now else s
      let x := s.grp g
      let inc := beAt m.body 4 4
      let back := match x.memberOf m.sender with
        | some k => k.role = mVoice && k.incarnation ≠ inc && x.leader.isNone
        | none => false
      let a := s.setGrp g { x with
        peers := if m.sender ∈ x.peers then x.peers else m.sender :: x.peers
        restarted := if back && m.sender ∉ x.restarted then m.sender :: x.restarted else x.restarted }
      let a := a.sendJoinAns g m.sender (ofBool x.member)
      (if g = 0 then a.addMember m.sender (beAt m.body 0 1 % 8) inc (beAt m.body 1 1 = 1) now else a).ldgDone now

/-- JOIN_ANS_RECEIVE (R286): the answer is kept; a member that meets another epoch whose group governs abandons its own. The
other group's number of voices is not told, so which governs is a free value. -/
def execJoinAnsReceive (port now : Nat) (frame : List Byte) (s : State) : Res :=
  .next <| s.receive port s.ledgerPort frame fun message => match s.ldgTake 8 port message with
    | none => s
    | some m =>
      let g := m.group
      let s := if m.epoch = (s.grp g).epoch && (s.grp g).member then s.adoptTerm g m.term now else s
      let x := s.grp g
      let st := beAt m.body 0 1
      let lead := beAt m.body 4 8
      if x.member then
        if m.epoch ≠ x.epoch && st = 1 then
          let a := s.useFree
          if s.freeVal 0x720 % 2 = 1 then
            ((a.setGrp g { epoch := m.epoch, joinSince := some now, answers := [(m.sender, 1, now)] }).leaveArbiters g).ldgDone now
          else a
        else s.showLedger now
      else
        let a := s.setGrp g { x with
          answers := Sparse.insert x.answers m.sender (st, now)
          peers := if m.sender ∈ x.peers then x.peers else m.sender :: x.peers
          leader := if st = 1 && lead ≠ 0 then some lead else x.leader }
        (if g = 1 then a.askSeat else a).showLedger now

/-- The modules of the rack that are ADMITTED: identifier and shelf. -/
def State.rackModules (s : State) : List (Nat × Nat) :=
  (s.hnt.pt.filter fun e => s.ptState e.1 = ptAdmitted && s.getF Reg.HNT_PT_STATE_ROLE e.1 = roleModule).map fun e => (e.2.id, e.2.shelf)

/-- The module forms the group (R286): the epoch from the present frame number, itself the only voter and leader of term 1. Once its
NOOP is committed (R276) it proposes the entries that name it; a hall leader does so by `State.seatSelf`. -/
def State.formGroup (s : State) (g : Nat) (old : LdgGroup) (now : Nat) : State :=
  let self : LdgMember := ⟨s.selfId, s.hnt.incarnation, if g = 0 then mVoice else mSeat, s.shelf, s.rackNo, 0⟩
  let x : LdgGroup := { old with member := true, epoch := s.frame % 2 ^ 32, term := 1, members := [self], voted := some s.selfId, acks := [],
                                 answers := [], joinSince := none, noLeader := none, restarted := [], best := (0, 0, 0), proposers := [] }
  if g = 0 then
    let a := { s with ldg := { s.ldg with voiceLost := false, arb := none } }
    let a := State.advanceRack 8 now ((a.setGrp 0 x).becomeLeader 0 now)
    let a := a.appendRack etMember (memberPay 0 mVoice s.shelf s.hnt.incarnation s.selfId s.rackNo) now
    a.useFree.appendRack etVoice (voicePay s.shelf s.voiceCause ((s.voiceGen s.shelf + 1) % 65536) s.selfId) now
  else (s.setGrp 1 x).becomeLeader 1 now

/-- GROUP_FORM of a group at `now` (R286): for 50 ms every admitted module answered NO_GROUP or nothing, modules of more than
half of the shelves (racks of the hall) are seen, and this module's identifier is the lowest. -/
def execGroupForm (group now : Nat) (s : State) : Res :=
  .next <|
    let x := s.grp group
    let waited := match x.joinSince with | some t => decide (t + 50000000 < now) | none => false
    let mods := if group = 0 then s.rackModules else x.peers.map fun p => (p, p)
    let seen := ((s.shelf :: s.rackModules.map Prod.snd).dedup).length
    let enough := if group = 0 then s.getF Reg.LDG_CFG_SHELVES + 1 < 2 * seen
      else s.getF Reg.LDG_CFG_HALL_RACKS < 2 * (x.peers.length + 1)
    if 2 ≤ group || x.member || !waited || !s.isF Reg.LDG_CFG_EN || s.phase ≠ phaseRun || (group = 1 && !s.ldg.rack.leads) then s
    else if (x.answers.any fun e => e.2.1 = 1 && now ≤ e.2.2 + 50000000) || !enough || (mods.any fun p => p.1 < s.selfId) then s
    else (s.formGroup group {} now).ldgDone now

/-- GROUP_REFORM at `now` (R287): no leader for 100 ms, a majority of the voters restarted, and no log heard of is greater than
the module's own. -/
def execGroupReform (now : Nat) (s : State) : Res :=
  .next <|
    let x := s.ldg.rack
    let long := match x.noLeader with | some t => decide (t + 100000000 < now) | none => false
    let mine := (x.last.2, x.last.1)
    let less := x.best.1 < mine.1 || (x.best.1 = mine.1 && (x.best.2.1 < mine.2 || (x.best.2.1 = mine.2 && s.selfId < x.best.2.2)))
    if !x.member || !long || !s.isVoice || !x.most 0 x.restarted.length || !less then s
    else (s.formGroup 0 x now).ldgDone now

/-- An entry of a STATE message takes effect: one of the rack, or one of the hall that the rack's members hold (R282). -/
def State.takeState (s : State) (g : Nat) (e : LdgEntry) (now : Nat) : State :=
  if g = 0 && e.group = 0 then (s.rackCommitted e now).applyRackEntry e s.frame else (s.hallCommitted e).applyHallEntry e s.frame

/-- STATE_RECEIVE (R282): the parts are collected in order; once whole, the applied state is taken and the member goes on from
the index it carries. -/
def execStateReceive (port now : Nat) (frame : List Byte) (s : State) : Res :=
  .next <| s.receive port s.ledgerPort frame fun message => match s.ldgTake 11 port message with
    | none => s
    | some m =>
      let g := m.group
      let b := m.body
      let s := if m.epoch = (s.grp g).epoch then s.adoptTerm g m.term now else s
      let x := s.grp g
      let got := if beAt b 12 4 = 0 then [] else x.parts
      if m.epoch ≠ x.epoch || s.ldgStale m || got.flatten.length ≠ beAt b 12 4 || beAt b 0 8 ≤ x.commit then s
      else
        let all := got ++ [b.drop 20]
        if all.flatten.length < beAt b 16 4 then s.setGrp g { x with parts := all }
        else match parseEntries (all.flatten.length + 1) all.flatten with
          | none => s.setGrp g { x with parts := [] }
          | some es =>
            let y := { x with parts := [], log := [], base := (beAt b 0 8, beAt b 8 4), commit := beAt b 0 8, members := [] }
            let a := if g = 0 then s.bump Reg.LDG_STATE_XFERS else s
            let a := es.foldl (fun a e => a.takeState g e now) (a.setGrp g y)
            let a := a.setGrp g { a.grp g with applied := beAt b 0 8 }
            (a.set64 (if g = 0 then Reg.LDG_RACK_APPLIED_LO else Reg.LDG_HALL_APPLIED_LO) (beAt b 0 8)).ldgDone now

/-! ## PROPOSE (R273, R288) -/

/-- PROPOSE_RECEIVE (R273, R288); a contract that breaks R247 is refused. -/
def execProposeReceive (port now : Nat) (frame : List Byte) (s : State) : Res :=
  .next <| s.receive port s.ledgerPort frame fun message => match s.ldgTake 12 port message with
    | none => s
    | some m =>
      let g := m.group
      let x := s.grp g
      let et := beAt m.body 0 1
      let pay := m.body.drop 4
      let answer := fun (code : Nat) => s.ldgSend g 13 (some m.sender) (beBytes 1 code ++ beBytes 3 0 ++ beBytes 8 0)
      if m.epoch ≠ x.epoch then s.otherEpoch m
      else if s.ldgStale m then s
      else if x.term < m.term then (s.adoptTerm g m.term now).ldgDone now
      else if !x.leads then answer 2
      else if !etypeOf g et || et = etNoop || 4064 < pay.length then answer 1
      else if et = etContract && !tableOk (contractOfPay 0 pay).hall (contractOfPay 0 pay).racks then answer 1
      else if et = etSeat && leAt pay 4 4 ≤ Sparse.at 0 s.ldg.seatTerm (leAt pay 0 2) then answer 1
      else
        let rack := leAt pay 0 2
        let new := et = etSeat && !(x.members.any fun k => k.role = mSeat && k.rack = rack)
        let a := if new then s.appendTo g etMember (memberPay 0 mSeat 0 0 (leAt pay 8 8) rack) now else s
        let i := (a.grp g).last.1 + 1
        let a := a.setGrp g { a.grp g with proposers := Sparse.insert (a.grp g).proposers i m.sender }
        (a.appendTo g et pay now).ldgDone now

/-- PROPOSE_ANS_RECEIVE (R248, R273): the outcome of the module's own CONTRACT_SET. -/
def execProposeAnsReceive (port now : Nat) (frame : List Byte) (s : State) : Res :=
  .next <| s.receive port s.ledgerPort frame fun message => match s.ldgTake 13 port message with
    | none => s
    | some m =>
      let x := s.grp m.group
      let i := beAt m.body 4 8
      if m.epoch ≠ x.epoch || s.ldgStale m then s
      else if x.term < m.term then (s.adoptTerm m.group m.term now).showLedger now
      else if m.group = 0 || s.cpc.setPay.isNone then s
      else if beAt m.body 0 1 = 0 then
        match x.entry i with
        | some e => if e.etype = etContract && s.cpc.setPay = some e.payload then (s.contractResult 1).showLedger now else s
        | none => s
      else (s.contractResult 4).showLedger now

/-! ## The arbiters (R290, R369, R370) -/

/-- Whether the module is the arbiter that decides for a shelf: the primary, and the deputy for the primary's own shelf. -/
def State.decidesFor (s : State) (shelf : Nat) : Bool :=
  match s.arbiters with
  | some p => s.isVoice && if shelf = p.1 then p.2 = s.shelf else p.1 = s.shelf
  | none => false

/-- CLAIM_RECEIVE (R290, R370): an arbiter collects the claims of a shelf. -/
def execClaimReceive (port now : Nat) (frame : List Byte) (s : State) : Res :=
  .next <| s.receive port s.ledgerPort frame fun message => match s.ldgTake 9 port message with
    | none => s
    | some m =>
      let shelf := beAt m.body 0 1
      if m.group = 1 || m.epoch ≠ s.ldg.rack.epoch || s.ldgStale m || !s.isF Reg.LDG_STATUS_ARBITER || 8 ≤ shelf then s
      else
        let a := s.adoptTerm 0 m.term now
        let l := Sparse.at [] a.ldg.claims shelf
        let c : ClaimRec := ⟨m.sender, beAt m.body 1 1, beAt m.body 2 1, beAt m.body 3 1, now⟩
        ({ a with ldg := { a.ldg with claims := Sparse.upd [] a.ldg.claims shelf (l ++ [c]), decided := Sparse.erase a.ldg.decided shelf } }).showLedger now

/-- Whether a cause is one of a claimant that holds the lock. -/
def holdsLock (cause : Nat) : Bool := cause = 1 || cause = 2 || cause = 5 || cause = 6

/-- The module that the claims of a shelf move the voice to, if it moves (R370). Two lock-holding claimants without a TOOK_LOCK or
COMMANDED claim between them are not decided by any rule. -/
def State.decision (s : State) (shelf : Nat) (l : List ClaimRec) : Option Nat :=
  let held := l.filter fun c => holdsLock c.cause
  let voice := s.voiceOf shelf
  match held with
  | c :: r =>
    if r.all fun d => d.sender = c.sender then some c.sender
    else match (held.filter fun d => d.cause = 1 || d.cause = 6).getLast? with
      | some d => some d.sender
      | none => (held[s.freeVal 0x730 % held.length]?).map fun d => d.sender
  | [] => (l.find? fun c => c.cause = 4 && voice.isSome && voice ≠ some c.sender && (c.stake = 0 || c.binder = 0)).map fun c => c.sender

/-- A voice's move or stay is made known, and a leader commits it (R290). A leader whose own shelf's voice moves proposes nothing
after that entry (R276). -/
def State.heedDecide (s : State) (shelf gen holder now : Nat) : State :=
  let a := { s with ldg := { s.ldg with claims := Sparse.erase s.ldg.claims shelf, decided := Sparse.insert s.ldg.decided shelf now } }
  if gen ≤ s.voiceGen shelf then a
  else
    let a := if shelf = s.shelf && holder ≠ s.selfId && s.voiceOf shelf = some s.selfId then
        { a with ldg := { a.ldg with voiceLost := true } }
      else a
    let b := if s.ldg.rack.leads && !s.ldg.rack.waits etVoice (fun p => leAt p 0 1 = shelf && leAt p 2 2 = gen) then
        a.useFree.appendRack etVoice (voicePay shelf s.voiceCause gen holder) now
      else a
    let stop := fun (x : LdgGroup) => { x with stepping := x.stepping || x.role = .leader }
    if b.ldg.voiceLost then { b with ldg := { b.ldg with rack := stop b.ldg.rack, hall := stop b.ldg.hall } } else b

/-- An arbiter decides for a shelf: DECIDE to the rack (R290, R370). -/
def State.arbiterDecide (s : State) (shelf now : Nat) : State :=
  let l := Sparse.at [] s.ldg.claims shelf
  let now_ := s.voiceOf shelf
  let to_ := s.decision shelf l
  let moves := to_.isSome && to_ ≠ now_
  let gen := s.voiceGen shelf + if moves then 1 else 0
  let holder := if moves then to_.getD 0 else now_.getD 0
  let a := s.useFree.ldgSend 0 10 none (beBytes 1 shelf ++ beBytes 1 0 ++ beBytes 2 gen ++ beBytes 8 holder)
  a.heedDecide shelf gen holder now

/-- Instant of the first claim of a shelf not yet decided. -/
def State.firstClaim (s : State) (shelf : Nat) : Option Nat := ((Sparse.at [] s.ldg.claims shelf).head?).map fun c => c.at_

/-- ARBITER_WINDOW_END for a shelf at `now` (R370): 250 µs after the first claim. -/
def execArbiterWindowEnd (shelf now : Nat) (s : State) : Res :=
  .next <| match s.firstClaim shelf with
    | some t => if s.decidesFor shelf && t + 250000 < now then (s.arbiterDecide shelf now).ldgDone now else s
    | none => s

/-- DEPUTY_DECIDE_TIMEOUT for a shelf at `now` (R290): no DECIDE of the primary 400 µs after a CLAIM. -/
def execDeputyDecideTimeout (shelf now : Nat) (s : State) : Res :=
  .next <| match s.firstClaim shelf, s.arbiters with
    | some t, some p => if s.isVoice && p.2 = s.shelf && t + 400000 < now then (s.arbiterDecide shelf now).ldgDone now else s
    | _, _ => s

/-- DECIDE_RECEIVE (R290). -/
def execDecideReceive (port now : Nat) (frame : List Byte) (s : State) : Res :=
  .next <| s.receive port s.ledgerPort frame fun message => match s.ldgTake 10 port message with
    | none => s
    | some m =>
      if m.group = 1 || m.epoch ≠ s.ldg.rack.epoch || s.ldgStale m then s
      else ((s.adoptTerm 0 m.term now).heedDecide (beAt m.body 0 1) (beAt m.body 2 2) (beAt m.body 4 8) now).ldgDone now

end Sys2Proof.Machine
end

