-- ==== Sys2Proof/Machine/Coppice.lean ====
section
/-!
DEFINITION. Coppice at the grant and hall boundaries (11) and the rack entry (06 R125, R127, 12 R278). `f` is the frame of the
boundary; currents in mA, voltages in mV, powers in mW unless named otherwise.
-/

namespace Sys2Proof.Machine

/-! ## Shelf reports, the rack load and the window (R125, R127) -/

/-- E_NOM and E_NOW in Wh of the shelf's strings whose SoC is known (14 R330, 06 R125). -/
def State.shelfEnergy (s : State) : Nat × Int :=
  let ks := [0, 1].filter fun k => s.isF Reg.EST_S_CFG_EN k && (s.stringSoc k).isSome
  let cells := fun (k : Nat) => s.getF Reg.EST_S_CFG_CELLS k * s.getF Reg.EST_S_CFG_V_NOM k
  ((ks.map fun k => s.getF Reg.EST_S_CAP_FACT k * cells k / 36000000000).foldl (· + ·) 0,
    (ks.map fun k => roundEven (milli (s.str k).q * cells k) 36000000000).foldl (· + ·) 0)

/-- The shelf's own report. -/
def State.ownReport (s : State) : ShelfReport :=
  let w := s.weights
  let e := s.shelfEnergy
  ⟨s.shelf, w.1, w.2, s.ownMean, e.1, e.2, 0⟩

/-- The active module reports its shelf; a STANDBY that holds the voice sends on what its active passed to it (15 R371). Reports of
other shelves are taken, and older ones age. -/
def State.takeReports (s : State) (heard : List ShelfReport) : State :=
  let own := s.ownReport
  let active := s.isF Reg.TWN_STATUS_LOCK
  let new := heard.map (fun r => { r with age := 0 }) ++ (if active then [own] else [])
  let old := (s.wb.reports.map fun r => { r with age := r.age + 1 }).filter fun r => !(new.any fun x => x.shelf = r.shelf)
  let a := { s with wb := { s.wb with reports := old ++ new } }
  let send := fun (a : State) (r : ShelfReport) => a.emit .weightReport [r.shelf, r.wDis, r.wChg, unsign 32 r.current]
  if active then send a own
  else if s.isVoice then (heard.filter fun r => r.shelf = s.shelf).foldl send a
  else a

/-- The bus voltage averaged over the grant interval just ended, mV. -/
def State.busMean (s : State) : Int := if s.wb.frames = 0 then s.wb.bus else roundEven s.wb.busSum s.wb.frames

/-- The mean rack load of the interval joins the history; a new interval begins (R122): the feed, the own shelf's storage current, and
those that the other shelves reported; a module that does not hold the lock has its own shelf's from its active's report. -/
def State.closeInterval (s : State) : State :=
  let own := if s.isF Reg.TWN_STATUS_LOCK then s.ownMean else 0
  { s with wb := { s.wb with
    loads := ((s.loadMean + own + s.otherStorage) :: s.wb.loads).take 25500
    loadSum := 0, ownSum := 0, ownFrames := 0, busSum := 0, frames := 0 } }

/-- The active lane records with a period, whose JOB context is there (R125). -/
def State.signatures (s : State) : List LaneRec :=
  (List.range 64).filterMap fun l => match (s.wbLane l).active with
    | some r => if 0 < r.period && (s.ctxFind kindJob r.job).isSome then some r else none
    | none => none

/-- The window of M in grant intervals under a WB_TARGET_CFG: whole iterations of the job with the largest mean, else TARGET_WINDOW
(R125). -/
def State.window (s : State) (cfg : Nat) : Nat :=
  let w := max 1 (bitsOf cfg 24 8)
  match s.signatures with
  | [] => 100 * w
  | r :: rs =>
    let top := rs.foldl (fun (m : LaneRec) x => if m.mean < x.mean then x else m) r
    let k := max 1 (w * 1000000 / top.period)
    max 1 (k * top.period / 10000)

/-- Mean of a list of integers, to the nearest. -/
def meanInt (l : List Int) : Int := if l = [] then 0 else roundEven (l.foldl (· + ·) 0) l.length

/-- M in mA over a window. -/
def State.rackMean (s : State) (w : Nat) : Int := meanInt (s.wb.loads.take w)

/-- A power in units of 0.1 kW as a current in mA at `v` mV; a bus without a positive voltage leaves it open. -/
def State.ceilingCurrent (s : State) (k : Nat) (v : Int) : Nat :=
  if v ≤ 0 then s.freeVal 0x740 % 2 ^ 32 else (roundEven (k * 100 * 1000000 : Nat) v.toNat).toNat

/-- A current in mA at `v` mV as power in mW. -/
def powerMw (i v : Int) : Int := i * v / 1000

/-! ## The rack entry (R125, R126, R278) -/

/-- The shelf records of an entry: weights are zero after three intervals without a report (R127). -/
def State.shelfRecords (s : State) : List (Nat × Nat × Nat) :=
  (s.wb.reports.take 8).map fun r => if 3 ≤ r.age then (r.shelf, 0, 0) else (r.shelf, r.wDis, r.wChg)

/-- TRIM in mA under a WB_TARGET_CFG (R125); without a positive bus voltage it is left out. -/
def State.trim (s : State) (cfg ceil : Nat) (v : Int) : Int :=
  let tau := 10 * max 1 (bitsOf cfg 8 8)
  let gap := (s.wb.reports.map fun r => ((r.eNom * bitsOf cfg 16 8 : Nat) : Int) - 100 * r.eNow).foldl (· + ·) 0
  let lim : Int := ((bitsOf cfg 0 8 * ceil / 1000 : Nat) : Int)
  if v ≤ 0 then 0 else clampInt (-lim) lim (roundEven (gap * 36000000) (tau * v.toNat))

/-- The values of the next entry, effective from frame `e`, under settings WB_RAMP_LIMIT and WB_TARGET_CFG, with shelf records `sh`
(R119, R125). -/
def State.nextEntry (s : State) (set : Nat × Nat) (e : Nat) (v : Int) (sh : List (Nat × Nat × Nat)) : RackEntry :=
  let ceil := s.ceilingCurrent (s.getF Reg.CPC_CEILING) v
  let m := s.rackMean (s.window set.2)
  let trim := s.trim set.2 ceil v
  let want := min (m + trim) ceil
  let prev := min (match s.wb.entry with | some x => x.target e | none => m) (ceil : Int)
  let ramp := rampOf set.1
  let step : Int := ((ramp * ceil / 1000000 : Nat) : Int)
  let new := if prev < want then min want (prev + step) else max want (prev - step)
  ⟨0, e, m, prev, roundEven ((new - prev) * 65536) 1000, ceil, (max 0 (m + trim - ceil)).toNat, set.1, set.2, sh⟩

/-- An entry's payload (R278). -/
def RackEntry.payload (x : RackEntry) : List Byte :=
  leBytes 8 x.e ++ leBytes 4 (unsign 32 x.mean) ++ leBytes 4 (unsign 32 x.te) ++ leBytes 4 (unsign 32 x.slope) ++ leBytes 4 x.ceil ++
    leBytes 4 x.excess ++ leBytes 2 x.ramp ++ leBytes 1 x.shelves.length ++ leBytes 1 0 ++ leBytes 4 x.targetCfg ++ leBytes 4 0 ++
    x.shelves.flatMap fun r => leBytes 1 r.1 ++ leBytes 3 0 ++ leBytes 4 r.2.1 ++ leBytes 4 r.2.2

/-- Under LOCAL_TARGET the module puts its own values in force, with the settings and weights of the last entry (R119, R120). -/
def State.localTarget (s : State) (f : Nat) (v : Int) : State :=
  if s.isF Reg.WB_STATUS_LOCAL_TARGET then
    let sh := match s.wb.entry with | some x => x.shelves | none => []
    let e := { s.nextEntry s.targetUsed f v sh with idx := match s.wb.entry with | some x => x.idx | none => 0 }
    let a := { s with wb := { s.wb with entry := some e } }
    ((a.setS Reg.WB_MEAN_I e.mean).setF Reg.WB_CEILING_I e.ceil).setF Reg.WB_EXCESS_I e.excess
  else s

/-! ## Projection (R255) -/

/-- The mean over a window of `w` intervals of a job's power at frequency `x`, mW; in an interval before it entered the table it has
no grant and counts nothing. -/
def JobSlot.power (j : JobSlot) (w x : Nat) : Rat :=
  ((j.hist.take w).map fun (k : Nat × Nat) => (k.1 : Rat) + 1000 * j.sens * ((x : Rat) - (k.2 : Rat))).foldl (· + ·) 0 / w

/-- PRAW_j, mW. -/
def JobSlot.raw (j : JobSlot) (w : Nat) : Rat := ((j.hist.take w).map fun (k : Nat × Nat) => (k.1 : Rat)).foldl (· + ·) 0 / w

/-- P_MEAS of the job's packages in the interval that ends at frame `f`, summed, mW. -/
def State.jobPower (s : State) (j f : Nat) : Nat :=
  ((s.packagesOf j).flatMap fun i => ((s.partner i).telems.filter fun t =>
    t.job = j && t.time ≤ s.frameTime f / 10 && s.frameTime f / 10 < t.time + 1000000).map fun t => t.power).foldl (· + ·) 0

/-- S_j after the interval: the measurement of R255 once a whole window without a change follows one. -/
def State.measure (s : State) (j : JobSlot) (w : Nat) : JobSlot :=
  match j.hist with
  | (_, f0) :: (_, f1) :: _ =>
    if f0 ≠ f1 then
      match j.change with
      | some _ => { j with still := 1 }
      | none => { j with still := 1, change := some (f1, if w ≤ j.still then some ({ j with hist := j.hist.drop 1 }.raw w) else none) }
    else
      let j := { j with still := j.still + 1 }
      match j.change with
      | some (fb, before) =>
        if w ≤ j.still then
          let base : Rat := ((j.n * s.getF Reg.CPC_SENS_DEFAULT : Nat) : Rat) / 1000
          let sens := match before with
            | some m => if fb = f0 then j.sens
                else j.sens + ((j.raw w - m) / 1000 / ((f0 : Rat) - fb) - j.sens) / 8
            | none => j.sens
          { j with change := none, tuned := j.tuned || (before.isSome && fb ≠ f0), sens := if before.isSome then clampRat (base / 4) (4 * base) sens else sens }
        else j
      | none => j
  | _ => { j with still := j.still + 1 }

/-- Every job's books at the boundary of frame `f` (R253 to R255): packages, power history, sensitivity, counts. -/
def State.bookJobs (s : State) (f w : Nat) : State :=
  let a := State.enterWaiting 64 s.dropWaiting
  let a := a.cpc.jobs.foldl (fun a e =>
    let x := a.refreshJob e.2
    let x := { x with hist := ((a.jobPower x.job f, x.freq) :: x.hist).take 25500, unnamed := x.unnamed + 1, quiet := x.quiet + 1 }
    a.setJob e.1 (some (a.measure x w))) a
  let calm := if s.isF Reg.WB_STATUS_OVER_CEILING then 0 else s.cpc.calm + 1
  { a with cpc := { a.cpc with calm := calm, sinceLower := a.cpc.sinceLower + 1, sinceStep := a.cpc.sinceStep + 1 } }

/-- P_OTHER, mW, at `v` mV. -/
def State.otherPower (s : State) (w : Nat) (v : Int) : Rat :=
  max 0 ((powerMw (s.rackMean w) v : Rat) - (s.cpc.jobs.map fun e => e.2.raw w).foldl (· + ·) 0)

/-- P_RACK at the frequencies a choice gives, mW. -/
def State.rackPower (s : State) (w : Nat) (v : Int) (choice : Nat → JobSlot → Rat) : Rat :=
  s.otherPower w v + (s.cpc.jobs.map fun e => choice e.1 e.2).foldl (· + ·) 0

/-! ## Grants (R252, R256 to R260) -/

/-- Whether EXCESS reaches beyond the part that the rack lent (R252, R258). -/
def State.excessBeyondLoan (s : State) (v : Int) : Bool :=
  let ex : Int := match s.wb.entry with | some e => powerMw e.excess v | none => 0
  ((s.getF Reg.CPC_CONTRACT : Int) - s.getF Reg.CPC_CEILING) * 100000 < ex && 0 < ex

/-- K_r in mW. -/
def State.ceilingMw (s : State) : Rat := ((s.getF Reg.CPC_CEILING * 100000 : Nat) : Rat)

/-- What the rack has lent, in mW: its jobs are not slowed for it (R252). -/
def State.lentMw (s : State) : Rat := (((s.getF Reg.CPC_CONTRACT - s.getF Reg.CPC_CEILING) * 100000 : Nat) : Rat)

/-- Whether a step-down is in progress at this boundary (R252, R258). -/
def State.steps (s : State) (w : Nat) (v : Int) : Bool :=
  s.excessBeyondLoan v && s.ceilingMw + s.lentMw < s.rackPower w v fun _ j => j.power w j.freq

/-- The slots that step down: the jobs above their floors of the lowest such priority. -/
def State.stepSlots (s : State) : List Nat :=
  let l := s.cpc.jobs.filter fun e => e.2.floor < e.2.freq
  match (l.map fun e => e.2.prio).min? with
  | some p => (l.filter fun e => e.2.prio = p).map Prod.fst
  | none => []

/-- The mean of a lane's far points at the bus voltage for job `j`, mW, where its lane has FAR_VALID (R259). -/
def State.farPower (s : State) (j : Nat) (v : Int) : Option Rat :=
  ((List.range 64).filterMap fun l => match (s.wbLane l).active with
    | some r => if r.job = j && bitOf r.flags 1 && r.far ≠ [] then
        some ((((r.far.map Prod.fst).foldl (· + ·) 0 * 100 : Int) : Rat) / r.far.length * v / 1000) else none
    | none => none).head?

/-- The slots a raise may take: below the cap, no thermal-lag limit, not stepped. -/
def State.raisable (s : State) (stepped : List Nat) : List (Nat × JobSlot) :=
  s.cpc.jobs.filter fun e => e.2.freq < e.2.cap && e.2.limit.isNone && e.1 ∉ stepped

/-- Whether P_RACK with some slots raised stays within the margin, from the windows and from the far points (R259). -/
def State.raiseFits (s : State) (w : Nat) (v : Int) (raise : Nat) (slots : List Nat) : Bool :=
  let bound := s.ceilingMw * (1000 - s.getF Reg.CPC_ORDER_RAISE_MARGIN : Int) / 1000
  let up := fun (j : JobSlot) => j.limitTo (j.freq + raise)
  let near := s.rackPower w v fun k j => if k ∈ slots then j.power w (up j) else j.power w j.freq
  let far := s.rackPower w v fun k j =>
    if k ∈ slots then
      match s.farPower j.job v with
      | some p => p + 1000 * j.sens * ((up j : Rat) - j.freq)
      | none => j.power w (up j)
    else j.power w j.freq
  near ≤ bound && far ≤ bound

/-- The slots raised at this boundary: whole priorities, the highest first, as long as they fit (R259). -/
def State.raiseSlots (s : State) (w : Nat) (v : Int) (raise : Nat) (can : List (Nat × JobSlot)) : Nat → List Nat → List Nat
  | 0, acc => acc
  | p + 1, acc =>
    let l := (can.filter fun e => e.2.prio = p).map Prod.fst
    if l = [] then s.raiseSlots w v raise can p acc
    else if s.raiseFits w v raise (acc ++ l) then s.raiseSlots w v raise can p (acc ++ l)
    else acc

/-- A grant computed: slot, job with its new HELD, frequency, whether it is a step. -/
structure NewGrant where
  slot : Nat
  job : JobSlot
  freq : Nat
  step : Bool
  deriving DecidableEq, Repr

/-- Whether a job has an ADMITTED package (R241). -/
def State.hasAdmitted (s : State) (j : Nat) : Bool := (s.packagesOf j).any fun i => s.ptState i = ptAdmitted

/-- The new grants at a boundary (R256), of the jobs with an ADMITTED package (R241). -/
def State.newGrants (s : State) (w : Nat) (v : Int) : List NewGrant :=
  let hold := max 1 (s.getF Reg.CPC_GRANT_CFG_STEP_HOLD)
  let stepDue := s.steps w v && (!s.isF Reg.CPC_STATUS_STEPPING || hold ≤ s.cpc.sinceStep)
  let stepped := if stepDue then s.stepSlots else []
  let stepBy := s.quantized (s.getF Reg.CPC_GRANT_CFG_STEP_MHZ)
  let raise := s.quantized (s.getF Reg.CPC_GRANT_CFG_RAISE_MHZ)
  let can := s.raisable stepped
  let noExcess := match s.wb.entry with | some e => e.excess = 0 | none => true
  let mayRaise := noExcess && 2 ≤ s.cpc.calm && hold < s.cpc.sinceLower && !s.steps w v
  let raised := if mayRaise then s.raiseSlots w v raise can 8 [] else []
  (s.cpc.jobs.filter fun e => s.hasAdmitted e.2.job).map fun e =>
    let j := e.2
    let low := min j.freq (min (j.limit.getD j.freq) (if e.1 ∈ stepped then j.freq - stepBy else j.freq))
    let f := j.limitTo (if e.1 ∈ raised then j.freq + raise else low)
    ⟨e.1, { j with held := decide (f < j.cap) && j.limit.isNone && e.1 ∉ raised }, f, e.1 ∈ stepped⟩

/-- The grant entry of frame `f` (R261). -/
def State.grantPayload (s : State) (f : Nat) (gs : List NewGrant) : List Byte :=
  let accts := chosenAccounts (s.attribute (s.frameTime f / 10))
  leBytes 8 f ++ leBytes 8 (s.get64 Reg.CPC_HALL_IDX_LO) ++ leBytes 8 (s.get64 Reg.WB_ENTRY_IDX_LO) ++ leBytes 2 gs.length ++
    leBytes 2 accts.length ++ leBytes 4 0 ++
    (gs.flatMap fun g => leBytes 2 g.job.job ++ leBytes 2 g.freq ++ leBytes 1 g.job.order ++ leBytes 1 (ofBool g.step) ++
      leBytes 1 g.job.prio ++ leBytes 1 g.job.state) ++
    accts.flatMap fun e => leBytes 4 e.1 ++ leBytes 4 0 ++ leBytes 8 e.2.modelMj ++ leBytes 8 e.2.meas

/-- CPC_RECON_RATIO and the counts of R268; a model energy of zero leaves the ratio open. -/
def State.reconcile (s : State) (f : Nat) : State :=
  let m := s.attribute (s.frameTime f / 10)
  let meas := (m.map fun e => e.2.meas).foldl (· + ·) 0
  let model := (m.map fun e => e.2.model).foldl (· + ·) 0
  let ratio := if model = 0 then s.freeVal 0x750 % 2 ^ 32 else min (2 ^ 32 - 1) (roundEven (meas * 65536 * 1000000 : Nat) model).toNat
  let tol := s.getF Reg.CPC_RECON_CFG_RECON_TOL
  let out := (ratio : Int) * 100 < 65536 * (100 - (tol : Int)) || 65536 * (100 + (tol : Int)) < (ratio : Int) * 100
  let a := s.useFree.setF Reg.CPC_RECON_RATIO ratio
  let a := { a with cpc := { a.cpc with outside := if out then a.cpc.outside + 1 else 0, inside := if out then 0 else a.cpc.inside + 1 } }
  if max 1 (s.getF Reg.CPC_RECON_CFG_RECON_COUNT) ≤ a.cpc.inside then a.setF Reg.CPC_STATUS_MODEL_DRIFT 0 else a

/-! ## The hall (R248 to R250) -/

/-- HALL_INTERVAL in frames. -/
def State.hallFrames (s : State) : Nat := min 6000 (max 20 (s.getF Reg.CPC_HALL_CFG_HALL_INTERVAL)) * grantFrames

/-- M_r as power, 0.1 kW, at `v` mV. -/
def State.meanPower (s : State) (v : Int) : Nat :=
  match s.wb.entry with | some e => (powerMw e.mean v).toNat / 100000 | none => 0

/-- M_r of the interval joins the peaks of the last LEND_LOOKBACK seconds. -/
def State.notePeak (s : State) (f : Nat) (v : Int) : State :=
  let m := s.meanPower v
  let look := max 60 (s.getF Reg.CPC_LOOKBACK % 65536) * 100000
  { s with cpc := { s.cpc with peaks := (f, m) :: (s.cpc.peaks.filter fun p => m < p.2 && f ≤ p.1 + look) } }

/-- The rack's report at the boundary of frame `f` (R249), proposed to the hall group 10 grant intervals before a hall boundary. -/
def State.report (s : State) (f : Nat) (v : Int) (now : Nat) : State :=
  if !s.ldg.rack.leads || (f + 10 * grantFrames) % s.hallFrames ≠ 0 then s
  else
    let above := s.isF Reg.WB_STATUS_OVER_CEILING
    let held := s.cpc.jobs.any fun e => e.2.held
    let reached := match s.wb.entry with | some e => (e.ceil : Int) ≤ e.target f | none => false
    let reclaim := s.getF Reg.CPC_CEILING < s.getF Reg.CPC_CONTRACT && reached
    let ex := match s.wb.entry with | some e => (powerMw e.excess v).toNat / 100000 | none => 0
    let peak := (s.cpc.peaks.map Prod.snd).foldl max 0
    let pay := leBytes 2 s.rackNo ++ leBytes 1 (ofBool above + 2 * ofBool held + 4 * ofBool reclaim) ++ leBytes 1 0 ++
      leBytes 4 (s.meanPower v) ++ leBytes 4 peak ++ leBytes 4 ex
    let a := s.setF Reg.CPC_STATUS_RECLAIM (ofBool reclaim)
    if a.ldg.hall.leads then a.appendHall etReport pay now
    else match a.ldg.hall.leader with
      | some l => a.ldgSend 1 12 (some l) (beBytes 1 etReport ++ beBytes 3 0 ++ pay)
      | none => a

/-- The contract table of CPC_CT: rack, C_r, X_r. -/
def State.ownTable (s : State) : List (Nat × Nat × Nat) :=
  ((List.range 64).filter fun e => s.isF Reg.CPC_CT_A_EN e).map fun e =>
    (s.getF Reg.CPC_CT_A_RACK e, s.getF Reg.CPC_CT_B_CONTRACT e, s.getF Reg.CPC_CT_C_MAX e)

/-- Payload of a CONTRACT entry. -/
def contractPay (hall : Nat) (t : List (Nat × Nat × Nat)) : List Byte :=
  leBytes 4 hall ++ leBytes 2 t.length ++ leBytes 2 0 ++ t.flatMap fun r => leBytes 2 r.1 ++ leBytes 2 0 ++ leBytes 4 r.2.1 ++ leBytes 4 r.2.2

/-- Ceilings and loans of R250 in units of 0.1 kW: rack, K_r, loan. `margin` is LEND_MARGIN in 0.1 %. -/
def hallShares (hall margin : Nat) (racks : List (Nat × Nat × Nat)) (reports : List RackReport) : List (Nat × Nat × Int) :=
  let rep := fun (r : Nat) => reports.find? fun x => x.rack = r
  let lend := fun (x : Nat × Nat × Nat) => match rep x.1 with
    | none => 0
    | some p => if bitOf p.flags 2 then 0 else x.2.1 - p.peak - margin * x.2.1 / 1000
  let demand := fun (x : Nat × Nat × Nat) => match rep x.1 with
    | some p => if bitOf p.flags 0 || bitOf p.flags 1 then min (x.2.2 - x.2.1) (p.mean + margin * x.2.1 / 1000 - x.2.1) else 0
    | none => 0
  let sumC := (racks.map fun x => x.2.1).foldl (· + ·) 0
  let sumL := (racks.map lend).foldl (· + ·) 0
  let free := hall - sumC
  let pool := free + sumL
  let want := (racks.map demand).foldl (· + ·) 0
  let give := fun (x : Nat × Nat × Nat) => if want = 0 then 0 else min (demand x) (pool * demand x / want)
  let used := (racks.map give).foldl (· + ·) 0
  let from_ := used - free
  let take := fun (x : Nat × Nat × Nat) => if sumL = 0 then 0 else (from_ * lend x + sumL - 1) / sumL
  racks.map fun x => (x.1, x.2.1 + give x - take x, (give x : Int) - take x)

/-- Payload of a HALL entry. -/
def hallPay (eff expiry : Nat) (l : List (Nat × Nat × Int)) : List Byte :=
  leBytes 8 eff ++ leBytes 8 expiry ++ leBytes 2 l.length ++ leBytes 6 0 ++
    l.flatMap fun x => leBytes 2 x.1 ++ leBytes 2 0 ++ leBytes 4 x.2.1 ++ leBytes 4 (unsign 32 x.2.2)

/-- HALL_BOUNDARY at `now` (R248, R250): the hall leader proposes the hall entry of boundary H, the frame reached; without any
contract entry it proposes the table of its own region, where that keeps R247. -/
def execHallBoundary (now : Nat) (s : State) : Res :=
  .next <|
    let h := s.frame
    if !s.ldg.hall.leads || h % s.hallFrames ≠ 0 then s
    else
      let c := match s.cpc.nextContract with | some c => some c | none => s.cpc.contract
      match c with
      | none =>
        if s.ldg.hall.waits etContract (fun _ => true) || (Sparse.find s.ldg.hall.latest etContract).isSome
            || !tableOk (s.getF Reg.CPC_SET_HALL) s.ownTable then s
        else (s.appendHall etContract (contractPay (s.getF Reg.CPC_SET_HALL) s.ownTable) now).ldgDone now
      | some c =>
        let reports := s.cpc.reports.filter fun r => h ≤ r.frame + 3 * s.hallFrames
        let l := hallShares c.hall (s.getF Reg.CPC_HALL_CFG_LEND_MARGIN) c.racks reports
        let term := min 15 (max 2 (s.getF Reg.CPC_HALL_CFG_LOAN_TERM))
        (s.appendHall etHall (hallPay (h + 1000) (h + 1000 + term * 100000) l) now).ldgDone now

/-- CONTRACT_SET at `now` (R248). -/
def execContractSet (now : Nat) (s : State) : Res :=
  .next <|
    let t := s.ownTable
    let hall := s.getF Reg.CPC_SET_HALL
    if s.cpc.setPay.isSome then s.cpcResult 5
    else if hall < (t.map fun x => x.2.1).foldl (· + ·) 0 then s.cpcResult 2
    else if !tableOk hall t then s.cpcResult 3
    else if !s.ldg.hall.member || s.ldg.hall.leader.isNone then s.cpcResult 4
    else
      let pay := contractPay hall t
      let a := { (s.setF Reg.CPC_STATUS_CMD_RESULT 0) with cpc := { s.cpc with setPay := some pay } }
      if a.ldg.hall.leads then (a.appendHall etContract pay now).ldgDone now
      else match a.ldg.hall.leader with
        | some l => a.ldgSend 1 12 (some l) (beBytes 1 etContract ++ beBytes 3 0 ++ pay)
        | none => a

/-! ## The grant boundary (R15, R118, R125, R249, R256, R261) -/

/-- Coppice and the slow target at the grant boundary of frame `f`, module time `now`; `heard` are the other shelves' reports. -/
def State.coppiceAtBoundary (s : State) (f now : Nat) (heard : List ShelfReport) : State :=
  let v := s.busMean
  let a := (s.takeReports heard).closeInterval
  let whole := a.window a.targetUsed.2
  let w := max 1 (min whole a.wb.loads.length)
  let a := a.bookJobs f whole
  let gs := a.newGrants w v
  let stepping := a.steps w v
  let a := a.causeIf (stepping && !a.isF Reg.CPC_STATUS_STEPPING) 8 2
  let a := a.setF Reg.CPC_STATUS_STEPPING (ofBool stepping)
  let a := gs.foldl (fun a g => a.setJob g.slot (some g.job)) a
  let a := (a.reconcile f).notePeak f v
  let pay := a.grantPayload f gs
  let a := a.localTarget f v
  let a := if a.ldg.rack.leads then
      let entry := a.nextEntry a.ownTarget (f + 10) v a.shelfRecords
      let b := (a.appendRack etRack entry.payload now).appendRack etGrant pay now
      { b with cpc := { b.cpc with pendingGrant := some f } }
    else a
  (a.useFree.report f v now).ldgDone now

end Sys2Proof.Machine
end

