-- ==== Sys2Proof/Machine/Dvfs.lean ====
section
/-!
DEFINITION. The voltage-frequency sequencer of the Thicket dies and the thermal limits (17 R405 to R413, 21 R475). Instants
in ns, temperatures in 0.1 °C.
-/

namespace Sys2Proof.Machine

/-! ## The sequencer (R410 to R412) -/

/-- Core supply of an operating point in mV (07 R140). -/
def oppMv (o : Nat) : Nat := 550 + 100 * o

/-- The operating point the sequencer works towards on die `d`: TH_DIE_OPP in RUN once the module drives, OP0 in SHADOW and
while starting, held under the thermal ceiling (R406, R413). -/
def State.dieGoal (s : State) (d : Nat) : Nat :=
  let req := if s.getF Reg.PWR_STATUS_STATE = 0 && s.getF Reg.TWN_STATUS_STATE ≠ 0 then s.getF Reg.TH_DIE_OPP_OPP d else 0
  min req (3 - Sparse.at 0 s.pwr.lowered d)

/-- Step `k` of die `d` begins at `now` and takes `ns`. -/
def State.dvfsBegin (s : State) (d k now ns : Nat) : State :=
  let a := (s.setF Reg.PWR_DVFS_STAT_STEP k d).setF Reg.TH_DIE_STATUS_OPP_BUSY 1 d
  { a with pwr := { a.pwr with stepEnd := Sparse.upd 0 a.pwr.stepEnd d (now + ns) } }

/-- The sequencer plans die `d` towards its goal at `now` (R410): frequency down, voltage, frequency up, what has nothing to
change skipped. A request that meets a step under way waits for it (R411). -/
def State.dvfsPlan (s : State) (d now : Nat) : State :=
  if !s.dieRuns d then s
  else if s.getF Reg.PWR_DVFS_STAT_STEP d ≠ 0 then s.setF Reg.TH_DIE_STATUS_OPP_BUSY 1 d
  else
    let t := s.dieGoal d
    let f := s.getF Reg.PWR_DVFS_STAT_F_OP d
    let v := s.getF Reg.PWR_DVFS_STAT_V_OP d
    let a := s.setF Reg.PWR_DVFS_STAT_TARGET t d
    if t < f then a.dvfsBegin d 1 now 2000
    else if t ≠ v then
      let mv := if oppMv v < oppMv t then oppMv t - oppMv v else oppMv v - oppMv t
      a.dvfsBegin d 2 now (mv * 100 + 10000)
    else if f < t then a.dvfsBegin d 3 now 2000
    else
      let busy := s.isF Reg.TH_DIE_STATUS_OPP_BUSY d
      ((a.setF Reg.TH_DIE_STATUS_OPP t d).setF Reg.TH_DIE_STATUS_OPP_BUSY 0 d).causeIf busy 12 3

/-- The two dies are planned anew. -/
def State.dvfsPlanAll (s : State) (now : Nat) : State := (s.dvfsPlan 0 now).dvfsPlan 1 now

/-- DVFS_STEP_COMPLETE of die `d` at `now` (R410 to R412): the step in progress has had its time; the rest is planned. -/
def execDvfsStepComplete (d now : Nat) (s : State) : Res :=
  .next <|
    let k := s.getF Reg.PWR_DVFS_STAT_STEP d
    if 2 ≤ d || k = 0 || now < Sparse.at 0 s.pwr.stepEnd d then s
    else
      let t := s.getF Reg.PWR_DVFS_STAT_TARGET d
      let a := if k = 2 then s.setF Reg.PWR_DVFS_STAT_V_OP t d else s.setF Reg.PWR_DVFS_STAT_F_OP t d
      (a.setF Reg.PWR_DVFS_STAT_STEP 0 d).dvfsPlan d now

/-- The clocks of die `d` stop and its rail goes down. -/
def State.dieOff (s : State) (d : Nat) : State :=
  let a := s.setRunsAll [23 + 2 * d, 24 + 2 * d, 27 + d] false
  let a := (a.setF Reg.PWR_DVFS_STAT_STEP 0 d).setF Reg.TH_DIE_STATUS_ON 0 d
  a.setF Reg.TH_DIE_STATUS_OPP_BUSY 0 d

/-- Both dies run, one that was off from OP0, and move to their goals from `now` (07 R141). -/
def State.diesOn (s : State) (now : Nat) : State := ((s.dieOn 0).dieOn 1).dvfsPlanAll now

/-- Both dies stop. -/
def State.diesOff (s : State) : State := (s.dieOff 0).dieOff 1

/-! ## Thermal limits (R413, R475) -/

/-- THROTTLE_T in force, between 80 and 110 °C. -/
def State.throttleT (s : State) : Int := max 800 (min 1100 (s.getF Reg.PWR_THERM_THROTTLE_T))

/-- Whether 10 ms have passed since the ceiling of die `d` last moved. -/
def State.throttleDue (s : State) (d now : Nat) : Bool :=
  match Sparse.at none s.pwr.lowAt d with
  | some t => decide (t + 10000000 ≤ now)
  | none => true

/-- The ceiling of die `d` moves at `now` to `v` points below OP3. -/
def State.setDieCap (s : State) (d v now : Nat) : State :=
  let a := { s with pwr := { s.pwr with lowered := Sparse.upd 0 s.pwr.lowered d v,
                                        lowAt := Sparse.upd none s.pwr.lowAt d (some now) } }
  (a.setF Reg.PWR_DVFS_STAT_THROTTLED (ofBool (v ≠ 0)) d).dvfsPlan d now

/-- DIE_OVER_THROTTLE: the hottest sensor of die `d` reads `temp` (R413). -/
def execDieOverThrottle (d : Nat) (temp : Int) (now : Nat) (s : State) : Res :=
  .next <|
    if 2 ≤ d then s
    else
      let a := s.setS Reg.PWR_DVFS_STAT_T_DIE temp d
      let g := s.dieGoal d
      if s.throttleT < temp && 0 < g && s.throttleDue d now then
        let b := (a.setDieCap d (3 - (g - 1)) now).event 0x0D06 d [d, unsign 32 temp, g - 1]
        b.causeIf (!s.isF Reg.PWR_DVFS_STAT_THROTTLED d) 1 6
      else a

/-- DIE_THROTTLE_RESTORE: die `d` reads at most THROTTLE_T less 5 °C (R413). -/
def execDieThrottleRestore (d : Nat) (temp : Int) (now : Nat) (s : State) : Res :=
  .next <|
    if 2 ≤ d then s
    else
      let a := s.setS Reg.PWR_DVFS_STAT_T_DIE temp d
      let low := Sparse.at 0 s.pwr.lowered d
      if temp ≤ s.throttleT - 50 && 0 < low && s.throttleDue d now then
        let b := a.setDieCap d (low - 1) now
        if b.getF Reg.TH_DIE_OPP_OPP d ≤ 3 - (low - 1) then b.setDieCap d 0 now else b
      else a

/-- OVERTEMP: a Thicket die (0, 1) or the Hub (2) reads above SHUTDOWN_T: code 0x06, and a Thicket die is turned off, its
partitions stopping (R413, R475). -/
def execOvertemp (d : Nat) (temp : Int) (s : State) : Res :=
  .next <|
    let a := if d < 2 then s.setS Reg.PWR_DVFS_STAT_T_DIE temp d else s
    if 3 ≤ d || temp ≤ (s.getF Reg.PWR_THERM_SHUTDOWN_T : Int) then a
    else
      let a := (a.controlFault 0x06).event 0x0D07 d [d, unsign 32 temp]
      if d = 2 then a
      else
        let a := (List.range 16).foldl (fun (a : State) p =>
          if a.partState p = partRunning && (a.part p).cores.any (fun k => decide (k / 128 = d)) then
            (a.haltPart p).partEnter p partStopping
          else a) a
        ({ a with pwr := { a.pwr with burnt := putBit a.pwr.burnt d true } }).dieOff d

/-- STACK_OVERHEAT: the stack passes 95 °C, or cools again: refresh and bandwidth change, no other state (R475). -/
def execStackOverheat (hot : Bool) (s : State) : Res := .next { s with pwr := { s.pwr with stackHot := hot } }

end Sys2Proof.Machine
end

