-- ==== Sys2Proof/Machine/Log.lean ====
section
/-!
DEFINITION. The Yew log (18): records, the filter and repeat windows, queue and spill, programming and erasing of the flash, the
recovery of the write point, freezes, dumps and the read windows. Instants in ns.
-/

namespace Sys2Proof.Machine

/-! ## Records (R421, R422, R437) -/

/-- Severity of a code: 0 INFO, 1 NOTICE, 2 WARNING, 3 FAULT, 4 CRITICAL (R437, 19 R454). -/
def severity (code : Nat) : Nat :=
  if code ∈ [0x0102, 0x0301, 0x0302, 0x0303, 0x0304, 0x0C03, 0x0D02, 0x0D03, 0x0D07, 0x0E08] then 4
  else if code ∈ [0x0105, 0x0401, 0x0402, 0x0601, 0x0701, 0x0702, 0x0A02, 0x0A06, 0x0B06, 0x0C06, 0x0C07, 0x0C08, 0x0D04, 0x0D05,
      0x0E05] then 3
  else if code ∈ [0x0004, 0x0101, 0x0104, 0x0201, 0x0501, 0x0502, 0x0503, 0x0504, 0x0901, 0x0902, 0x0A01, 0x0A03, 0x0A04, 0x0A05,
      0x0B03, 0x0B07, 0x0C01, 0x0C02, 0x0D01, 0x0D08, 0x0E01, 0x0E06] then 2
  else if code ∈ [0x0006, 0x0106, 0x0403, 0x0505, 0x0B02, 0x0C04, 0x0C05, 0x0D06, 0x0E02, 0x0E03, 0x0E04, 0x0E07] then 1
  else 0

/-- Bytes of each value of a code's DATA; values beyond the list take 4. -/
def dataWidths (code : Nat) : List Nat :=
  match code with
  | 0x0002 => [8, 1, 8]
  | 0x0003 => [2, 4]
  | 0x0103 => [8]
  | 0x0502 => [8]
  | 0x0701 => [8]
  | 0x0A05 => [4, 8]
  | 0x0B06 => [4, 8]
  | 0x0D08 => [8]
  | _ => []

/-- The DATA of an event. -/
def dataBytes : List Nat → List Nat → List Byte
  | _, [] => []
  | [], v :: vs => leBytes 4 v ++ dataBytes [] vs
  | w :: ws, v :: vs => leBytes w v ++ dataBytes ws vs

/-- The base address of the register block that an event comes from, for the order of one LOG cycle (R423): LOG for the log's own
records, CFG for LOCKED_WRITE, CLK for TIME_FAULT, the partition page for CORE_FAULT, else the block of its group of codes. -/
def eventBase (code : Nat) : Nat :=
  if code = 0x0006 then 0x30000
  else if code = 0x0D08 then 0x10000
  else match code / 256 with
  | 0x00 => 0xE0000 | 0x01 => 0x30000 | 0x02 => 0x40000 | 0x03 => 0x50000 | 0x04 => 0x60000 | 0x05 => 0x70000 | 0x06 => 0x1000000
  | 0x07 => 0x100000 | 0x08 => 0x80000 | 0x09 => 0x90000 | 0x0A => 0xB0000 | 0x0B => 0xC0000 | 0x0C => 0xD0000 | 0x0D => 0x20000
  | _ => 0xF0000

/-- The fields of a record. -/
def recSeq (r : List Byte) : Nat := leAt r 8 8
def recSev (r : List Byte) : Nat := leAt r 0x14 1
def recGood (r : List Byte) : Bool := r.length = 64 && crc32c (r.take 60) = leAt r 60 4

/-- The record with a SEQ. -/
def withSeq (seq boot : Nat) (r : List Byte) : List Byte :=
  let m := r.take 8 ++ leBytes 8 seq ++ leBytes 2 boot ++ slice r 18 42
  m ++ leBytes 4 (crc32c m)

/-- TIME_SRC at present: 0 RELATIVE, 1 RTC, 2 PTP (R422). -/
def State.timeSrc (s : State) : Nat :=
  if s.isF Reg.CLK_STATUS_COUNTER_SET then 2 else if s.pwr.rtc.isSome then 1 else 0

/-- TIME in µs at module time `now`. -/
def State.logTime (s : State) (now : Nat) : Nat :=
  if s.isF Reg.CLK_STATUS_COUNTER_SET then s.utc now
  else match s.pwr.rtc with
    | some t => (t + (now / 1000 : Nat)).toNat
    | none => now / 1000

/-- A record as the engine builds it, without its SEQ; `time` and `src` are its TIME and TIME_SRC, `part` is a piece of its DATA
and `cont` tells whether it continues the record before (R421). -/
def State.buildRecord (s : State) (e : LogEvent) (time src : Nat) (cont : Bool) (part : List Byte) : List Byte :=
  let flags := s.tq % 4 + 4 * src + 16 * ofBool (e.code = 0x0302) + 32 * ofBool cont
  leBytes 8 time ++ leBytes 8 0 ++ leBytes 2 0 ++ leBytes 2 e.code ++ leBytes 1 (severity e.code) ++ leBytes 1 flags ++
    leBytes 2 e.source ++ leBytes 8 s.frame ++ (part ++ List.replicate 28 0#8).take 28 ++ leBytes 4 0

/-! ## Queue and spill (R427, R428) -/

/-- Base of the staging range, and its places. -/
abbrev stagingBase : Nat := 0x1000200000
abbrev stagingPlaces : Nat := 262144

/-- QUEUE and SPILL follow the queue. -/
def State.showQueue (s : State) : State :=
  let a := (s.setF Reg.LOG_STATUS_QUEUE s.log.queue.length).setF Reg.LOG_STATUS_SPILL (ofBool (s.log.spill ≠ []))
  a.setF Reg.LOG_SPILL s.log.spill.length

/-- The oldest queued record spills to the stack. -/
def State.spillOne (s : State) : State :=
  match s.log.queue with
  | [] => s
  | r :: rest =>
    let k := s.log.spillEnd
    ({ s with log := { s.log with queue := rest, spill := s.log.spill ++ [(k, r)],
                                  spillEnd := (k + 1) % stagingPlaces } }).stackWrite (stagingBase + 64 * k) r

/-- Whether the queue may spill. -/
def State.maySpill (s : State) : Bool :=
  s.isF Reg.CTX_STATUS_READY && !s.log.freezing && s.log.spill.length < stagingPlaces && s.isF Reg.LOG_STATUS_READY

/-- The queue spills what it holds above 384 records. -/
def State.spillDown (s : State) : State :=
  ((List.range (s.log.queue.length - 384)).foldl (fun (a : State) _ => if a.maySpill then a.spillOne else a) s).showQueue

/-- A list without the last element that satisfies a condition; none where none does. -/
def dropLastWith {α : Type} (p : α → Bool) (l : List α) : Option (List α) :=
  match l.reverse.findIdx? p with
  | some i => some ((l.reverse.eraseIdx i).reverse)
  | none => none

/-- A record is dropped or replaced. -/
def State.countDrop (s : State) : State :=
  let a := s.bump Reg.LOG_DROP
  if s.log.freezing then
    ({ a with log := { a.log with dropped := a.log.dropped + 1 } }).bump Reg.LOG_FREEZE_DROP
  else a

/-- A numbered record enters the queue, which spills first if it is full and may (R428); a fill above 384 raises the interrupt (R436). -/
def State.enqueue (s : State) (r : List Byte) : State :=
  let a := s.causeIf (3 ≤ recSev r) 3 0
  let a := if 512 ≤ a.log.queue.length then a.spillDown else a
  let a := a.causeIf (a.log.queue.length = 384) 3 1
  let put := fun (q : List (List Byte)) => { a with log := { a.log with queue := q ++ [r] } }
  if a.log.queue.length < 512 then (put a.log.queue).spillDown
  else if 3 ≤ recSev r then
    match dropLastWith (fun q => recSev q < recSev r) a.log.queue with
    | some q => (put q).countDrop.spillDown
    | none => a.countDrop
  else a.countDrop

/-- A record takes the next SEQ and enters the queue; before READY it waits without one (R426). -/
def State.addRecord (s : State) (r : List Byte) : State :=
  if s.isF Reg.LOG_STATUS_READY then
    ({ s with log := { s.log with next := s.log.next + 1 } }).enqueue (withSeq s.log.next s.log.boot r)
  else s.enqueue r

/-- An event is recorded with its TIME: one record, or several when its DATA is longer than 28 bytes. -/
def State.recordAt (s : State) (e : LogEvent) (time src : Nat) : State :=
  let bs := dataBytes (dataWidths e.code) e.data
  let n := max 1 ((bs.length + 27) / 28)
  (List.range n).foldl (fun (a : State) i => a.addRecord (a.buildRecord e time src (0 < i) (slice bs (28 * i) 28))) s

/-- An event is recorded at `now`. -/
def State.record_ (s : State) (e : LogEvent) (now : Nat) : State := s.recordAt e (s.logTime now) s.timeSrc

/-! ## Programming (R424, R427, R429) -/

/-- The sapwood block of a slot, and the slots of a block. -/
def blockOf (slot : Nat) : Nat := (slot - 8192) / 1024

/-- Whether sapwood block `b` holds anything other than erased slots. -/
def State.blockDirty (s : State) (b : Nat) : Bool :=
  b ∈ s.log.torn || s.log.flash.any fun e => 8192 + 1024 * b ≤ e.1 && e.1 < 8192 + 1024 * (b + 1)

/-- The records that wait for flash, in the order of programming: on hold-up FAULT and CRITICAL first (R429). -/
def State.waitingRecords (s : State) : List (List Byte) :=
  let l := s.log.spill.map Prod.snd ++ s.log.queue
  if s.isF Reg.PWR_STATUS_HOLDUP then (l.filter fun r => 3 ≤ recSev r) ++ l.filter fun r => recSev r < 3 else l

/-- Records of poisoned staging blocks are lost (R216, R429). -/
def State.dropPoisoned (s : State) : State :=
  let bad := fun (e : Nat × List Byte) => s.poisonedIn (stagingBase + 64 * e.1) 64
  let n := (s.log.spill.filter bad).length
  if n = 0 then s
  else (({ s with log := { s.log with spill := s.log.spill.filter fun e => !bad e } }).bumpBy Reg.LOG_LOST n).showQueue

/-- The engine takes up its next page, or the erase before it, when nothing holds it back. -/
def State.nextPage (s : State) : State :=
  let s := s.dropPoisoned
  let hold := s.isF Reg.PWR_STATUS_HOLDUP
  if !s.isF Reg.LOG_STATUS_READY || s.log.freezing || s.log.page ≠ [] || (s.log.erasing.isSome && !hold) || s.waitingRecords = [] then s
  else
    let w := s.log.slot
    if !hold && 8192 ≤ w && (w - 8192) % 1024 = 0 && s.blockDirty (blockOf w) then
      ({ s with log := { s.log with erasing := some (blockOf w) } }).setF Reg.LOG_STATUS_ERASING 1
    else { s with log := { s.log with page := (s.waitingRecords.take (4 - w % 4)).map recSeq } }

/-- FIRST_SEQ and LAST_SEQ follow the flash; `last` is the SEQ written last. -/
def State.showSeqs (s : State) (last : Nat) : State :=
  let sap := (s.log.flash.filter fun e => 8192 ≤ e.1 && recGood e.2).map fun e => recSeq e.2
  (s.set64 Reg.LOG_FIRST_SEQ_LO ((sap.min?).getD 0)).set64 Reg.LOG_LAST_SEQ_LO last

/-- A record is programmed at the write point. -/
def State.program (s : State) (r : List Byte) : State :=
  let w := s.log.slot
  let a := { s with log := { s.log with
    flash := Sparse.upd [] s.log.flash w r, slot := if w + 1 = 140288 then 8192 else w + 1 } }
  let a := if w = 8191 then a.setF Reg.LOG_STATUS_HEART_FULL 1 else a
  a.showSeqs (recSeq r)

/-- Whether a hold-up sends records to the power-fail block: an erase is suspended, or the write point has yet to be erased. -/
def State.toFailBlock (s : State) : Bool :=
  s.isF Reg.PWR_STATUS_HOLDUP && (s.log.erasing.isSome ||
    (8192 ≤ s.log.slot && (s.log.slot - 8192) % 1024 = 0 && s.blockDirty (blockOf s.log.slot)))

/-- A record reaches flash, on hold-up perhaps in the power-fail block (R429). -/
def State.toFlash (s : State) (r : List Byte) : State :=
  if s.toFailBlock then { s with log := { s.log with failBlock := s.log.failBlock ++ [r] } } else s.program r

/-- The flash is still: FROZEN (R433). -/
def State.freezeIfStill (s : State) (now : Nat) : State :=
  if s.log.freezing && s.log.frozenAt.isNone && s.log.page = [] && s.log.erasing.isNone then
    (({ s with log := { s.log with frozenAt := some now } }).setF Reg.LOG_STATUS_FROZEN 1).cause 3 2
  else s

/-- LOG_PAGE_PROGRAMMED at `now` (R426, R427): the page's records are in flash; moved power-fail records free their block. -/
def execLogPageProgrammed (now : Nat) (s : State) : Res :=
  .next <|
    if s.log.page = [] then s
    else
      let inPage := fun (r : List Byte) => decide (recSeq r ∈ s.log.page)
      let a := (s.waitingRecords.filter inPage).foldl State.toFlash s
      let a := { a with log := { a.log with
        page := [], queue := a.log.queue.filter fun r => !inPage r, spill := a.log.spill.filter fun e => !inPage e.2 } }
      let moved := a.log.failBlock.all fun r => !recGood r || a.log.flash.any fun e => recSeq e.2 = recSeq r
      let a := if a.isF Reg.PWR_STATUS_HOLDUP || !moved then a else { a with log := { a.log with failBlock := [] } }
      (a.showQueue.freezeIfStill now).nextPage

/-- LOG_BLOCK_ERASED at `now` (R424). -/
def execLogBlockErased (now : Nat) (s : State) : Res :=
  .next <|
    match s.log.erasing with
    | some b =>
      if s.isF Reg.PWR_STATUS_HOLDUP then s
      else
        let a := { s with log := { s.log with
          flash := Sparse.clear s.log.flash (8192 + 1024 * b) (8192 + 1024 * (b + 1)), torn := s.log.torn.filter (· ≠ b),
          erasing := none } }
        let a := (a.setF Reg.LOG_STATUS_ERASING 0).showSeqs (a.get64 Reg.LOG_LAST_SEQ_LO)
        (a.freezeIfStill now).nextPage
    | none => s

/-! ## Arrival (R422, R423, R431, R432) -/

/-- Codes that carry the log's own structure. -/
def ownCode (code : Nat) : Bool := 1 ≤ code && code ≤ 5

/-- Whether the filter lets a code through (R431). -/
def State.passes (s : State) (code : Nat) : Bool :=
  3 ≤ severity code || ownCode code || min 3 (s.getF Reg.LOG_LEVEL_MIN (code / 256)) ≤ severity code

/-- The end of a repeat window at `now`: one REPEAT record when something was held back. -/
def State.endWindow (s : State) (w : RepeatWin) (now : Nat) : State :=
  let a := { s with log := { s.log with windows := s.log.windows.filter fun x => !(x.code = w.code && x.source = w.source) } }
  if w.count = 0 then a else a.record_ ⟨0x0003, w.source, [w.code, w.count]⟩ now

/-- REPEAT_MS in ns. -/
def State.repeatNs (s : State) : Nat := s.getF Reg.LOG_CFG_REPEAT_MS * 1000000

/-- An event reaches the LOG domain at `now`. -/
def State.arrive (s : State) (now : Nat) (e : LogEvent) : State :=
  if !s.passes e.code then s.bump Reg.LOG_FILTERED
  else if 3 ≤ severity e.code || ownCode e.code || s.repeatNs = 0 then s.record_ e now
  else
    let fresh := fun (a : State) =>
      (({ a with log := { a.log with windows := a.log.windows ++ [RepeatWin.mk e.code e.source now 0] } }).record_ e now)
    match s.log.windows.find? fun x => x.code = e.code && x.source = e.source with
    | some w =>
      if now ≤ w.since + s.repeatNs then
        { s with log := { s.log with windows := s.log.windows.map fun x =>
            if x.code = e.code && x.source = e.source then { x with count := x.count + 1 } else x } }
      else fresh (s.endWindow w now)
    | none => fresh s

/-- Puts an event among those of one LOG cycle (R423). -/
def insertEvent (e : LogEvent) : List LogEvent → List LogEvent
  | [] => [e]
  | x :: xs =>
    if eventBase e.code < eventBase x.code || (eventBase e.code = eventBase x.code && e.source < x.source) then e :: x :: xs
    else x :: insertEvent e xs

/-- LOG_RECORD_ARRIVE at `now` (R422, R423, R427, R431, R432): the first `count` events on their way reach LOG in one cycle. -/
def execLogRecordArrive (count now : Nat) (s : State) : Res :=
  .next <|
    if !s.runs 39 then s
    else
      let es := (s.events.take count).foldl (fun (l : List LogEvent) e => insertEvent e l) []
      let a := { s with events := s.events.drop count }
      ((es.foldl (fun (a : State) e => a.arrive now e) a) : State).nextPage

/-- REPEAT_WINDOW_END of a code and source at `now` (R432). -/
def execRepeatWindowEnd (code source now : Nat) (s : State) : Res :=
  .next <|
    match s.log.windows.find? fun x => x.code = code && x.source = source with
    | some w => if w.since + s.repeatNs < now then (s.endWindow w now).nextPage else s
    | none => s

/-! ## Start-up (R426, R429, R430) -/

/-- The slot of the valid record with the greatest SEQ, and that SEQ and BOOT. -/
def State.newest (s : State) : Option (Nat × Nat × Nat) :=
  (s.log.flash.filter fun e => recGood e.2).foldl (fun (m : Option (Nat × Nat × Nat)) e =>
    match m with
    | some (_, q, _) => if q < recSeq e.2 then some (e.1, recSeq e.2, leAt e.2 16 2) else m
    | none => some (e.1, recSeq e.2, leAt e.2 16 2)) none

/-- The write point after slot `w`: the first erased slot of its block, or the first slot of the next block. -/
def State.writePoint (s : State) (w : Nat) : Nat :=
  let stop := if w < 8192 then 1024 * (w / 1024 + 1) else 8192 + 1024 * (blockOf w + 1)
  let used := (s.log.flash.filter fun e => w < e.1 && e.1 < stop).map Prod.fst
  let k := (((List.range (stop - (w + 1))).map (w + 1 + ·)).find? fun k => k ∉ used).getD stop
  if k = 140288 then 8192 else k

/-- Records in SEQ order. -/
def bySeq (l : List (List Byte)) : List (List Byte) := l.mergeSort fun a b => recSeq a ≤ recSeq b

/-- The engine finds the write point, BOOT and the next SEQ; then come the records of the power-fail block, the island's events, BOOT,
and what arrived meanwhile (R426, R430). -/
def State.logRecover (s : State) (now : Nat) : State :=
  if s.isF Reg.LOG_STATUS_READY || !s.runs 39 then s
  else
    let bad := (s.log.flash.filter fun e => !recGood e.2).length
    let fails := bySeq (s.log.failBlock.filter recGood)
    let top := match s.newest with | some (_, q, _) => q + 1 | none => 0
    let topF := ((fails.map recSeq).max?).map (· + 1) |>.getD 0
    let boots := (match s.newest with | some (_, _, b) => [b] | none => []) ++
      ((fails.getLast?).map fun r => leAt r 16 2).toList
    let boot := match boots.getLast? with | some b => (b + 1) % 65536 | none => 0
    let slot := match s.newest with | some (w, _, _) => s.writePoint w | none => 0
    let early := s.log.queue
    let a := { s with log := { s.log with next := max s.log.next (max top topF), boot := boot, slot := slot, queue := [] } }
    let a := (a.bumpBy Reg.LOG_CRC_SKIP bad).setF Reg.LOG_STATUS_READY 1
    let a := ((a.setF Reg.LOG_BOOT boot).setF Reg.LOG_STATUS_HEART_FULL (ofBool (8192 ≤ slot))).showSeqs (top - 1)
    let a := fails.foldl State.enqueue a
    let a := a.log.island.foldl (fun (a : State) e => a.recordAt e.2 e.1 (if a.pwr.rtc.isSome then 1 else 0)) a
    let a := a.bumpBy Reg.LOG_LOST a.log.lost
    let a := a.record_ ⟨0x0001, 0xFFFF, [(a.rd (Reg.PWR_RESET_CAUSE.addr 0 0)).toNat, a.getF Reg.PWR_STATUS_START_STEP,
      a.getF Reg.PWR_STATUS_ORDER, a.log.lost, a.log.islandDrop]⟩ now
    let a := { a with log := { a.log with island := [], islandDrop := 0, lost := 0 } }
    (early.foldl State.addRecord a).nextPage

/-- The power-fail record, ahead of every queued record (R396, R429). A freeze ends first, its FREEZE_DROP record being queued (R433). -/
def State.powerFail (s : State) (now : Nat) : State :=
  let a := { s with log := { s.log with freezing := false, frozenAt := none, page := [], dropped := 0 } }
  let a := a.setF Reg.LOG_STATUS_FROZEN 0
  let a := if s.log.freezing then (a.cause 3 3).record_ ⟨0x0004, 0xFFFF, [s.log.dropped]⟩ now else a
  if a.isF Reg.LOG_STATUS_READY then
    let e : LogEvent := ⟨0x0D02, 0xFFFF, [s.getF Reg.PWR_AUX_AUX_A, s.getF Reg.PWR_AUX_AUX_B, a.log.queue.length + a.log.spill.length]⟩
    let bs := dataBytes [] e.data
    let r := withSeq a.log.next a.log.boot (a.buildRecord e (a.logTime now) a.timeSrc false bs)
    ((({ a with log := { a.log with next := a.log.next + 1 } }).cause 3 0).toFlash r).nextPage
  else a

/-- What the log keeps through a cold or warm reset or into KEEP: the number of records that had not reached flash and the next SEQ
(R429). An erase under way has been interrupted. -/
def LogState.kept (l : LogState) : LogState :=
  { flash := l.flash, failBlock := l.failBlock, torn := match l.erasing with | some b => b :: l.torn | none => l.torn, next := l.next,
    lost := l.lost + l.queue.length + l.spill.length, island := l.island, islandDrop := l.islandDrop }

/-- What the log keeps through a power-on reset: its flash (R426). -/
def LogState.flashOnly (l : LogState) : LogState :=
  { flash := l.flash, failBlock := l.failBlock, torn := match l.erasing with | some b => b :: l.torn | none => l.torn }

/-- An event of the island while the module is in KEEP (R407, R430): held with its RTC time, up to 64. -/
def State.islandEvent (s : State) (e : LogEvent) (now : Nat) : State :=
  let l := s.log
  if l.island.length < 64 then
    { s with log := { l with island := l.island ++ [(((s.pwr.rtc.getD 0) + (now / 1000 : Nat)).toNat, e)] } }
  else { s with log := { l with islandDrop := l.islandDrop + 1 } }

/-- The log is erased at a life-cycle change (R425). -/
def State.logErase (s : State) : State :=
  let a := { s with log := { next := 0, boot := 0, slot := 0 } }
  let a := (((a.setF Reg.LOG_STATUS_HEART_FULL 0).setF Reg.LOG_STATUS_FROZEN 0).setF Reg.LOG_STATUS_ERASING 0).showSeqs 0
  (a.setF Reg.LOG_BOOT 0).showQueue

/-! ## Freezes (R433) -/

/-- CMD_RESULT of LOG_STATUS. -/
def State.logResult (s : State) (code : Nat) : State := s.setF Reg.LOG_STATUS_CMD_RESULT code

/-- LOG_FREEZE at `now`. -/
def execLogFreeze (now : Nat) (s : State) : Res :=
  .next <|
    if s.log.freezing then s.logResult 1
    else ((({ s with log := { s.log with freezing := true, dropped := 0 } }).logResult 1).freezeIfStill now)

/-- A freeze ends at `now`. -/
def State.endFreeze (s : State) (now : Nat) : State :=
  if s.log.freezing then
    let n := s.log.dropped
    let a := { s with log := { s.log with freezing := false, frozenAt := none, dropped := 0 } }
    let a := ((a.setF Reg.LOG_STATUS_FROZEN 0).cause 3 3).record_ ⟨0x0004, 0xFFFF, [n]⟩ now
    a.spillDown.nextPage
  else s

/-- LOG_UNFREEZE at `now`. -/
def execLogUnfreeze (now : Nat) (s : State) : Res := .next ((s.endFreeze now).logResult 1)

/-- FREEZE_MAX_ELAPSED at `now`. -/
def execFreezeMaxElapsed (now : Nat) (s : State) : Res :=
  .next <|
    match s.log.frozenAt with
    | some t => if t + min 60 (max 1 (s.getF Reg.LOG_CFG_FREEZE_MAX)) * 1000000000 < now then s.endFreeze now else s
    | none => s

/-! ## Reading (R434, R435) -/

/-- Whether a range lies in the host staging area or the general area (09 R198). -/
def dumpRange (a n : Nat) : Bool :=
  (0x1080000000 ≤ a && a + n ≤ 0x1200000000) || (0x1800000000 ≤ a && a + n ≤ 0x2000000000)

/-- DUMP (R435). -/
def execDump (s : State) : Res :=
  .next <|
    let addr := s.get64 Reg.LOG_DUMP_ADDR_LO
    let n := s.getF Reg.LOG_DUMP_COUNT
    if !s.isF Reg.LOG_STATUS_FROZEN || s.isF Reg.LOG_STATUS_DUMPING then s.logResult 2
    else if addr % 64 ≠ 0 || !dumpRange addr (64 * n) then s.logResult 3
    else (({ s with log := { s.log with dump := (addr, s.get64 Reg.LOG_DUMP_FROM_LO, n) } }).setF Reg.LOG_STATUS_DUMPING 1).logResult 1

/-- The good records of the power-fail block that have not been moved into the ring (R424). -/
def State.failHeld (s : State) : List (List Byte) :=
  s.log.failBlock.filter fun r => recGood r && !s.log.flash.any fun e => recSeq e.2 = recSeq r

/-- DUMP_COMPLETE: the records held in flash from the first SEQ on, in SEQ order, as stored; those whose CRC fails are
skipped and counted (R426, R435). -/
def execDumpComplete (s : State) : Res :=
  .next <|
    if s.isF Reg.LOG_STATUS_DUMPING then
      let d := s.log.dump
      let rs := (bySeq ((s.log.flash.map Prod.snd ++ s.failHeld).filter fun r => recGood r && d.2.1 ≤ recSeq r)).take d.2.2
      let bad := ((s.log.flash.map Prod.snd).filter fun r => !recGood r && d.2.1 ≤ recSeq r).length
      let a := (s.stackWrite d.1 rs.flatten).bumpBy Reg.LOG_CRC_SKIP bad
      ((a.setF Reg.LOG_DUMP_DONE rs.length).setF Reg.LOG_STATUS_DUMPING 0).cause 3 4
    else s

/-- CLEAR_COUNTS. -/
def execClearCounts (s : State) : Res :=
  .next <|
    ((((s.setF Reg.LOG_DROP 0).setF Reg.LOG_FREEZE_DROP 0).setF Reg.LOG_LOST 0).setF Reg.LOG_CRC_SKIP 0 |>.setF Reg.LOG_FILTERED 0).logResult 1

/-- A record shows in a path's window with LOG_RD_STAT. -/
def State.showRead (s : State) (path : Nat) (r : List Byte) (stat : Nat) : State :=
  ((List.range 16).foldl (fun (a : State) k =>
    a.wrPath path (Reg.LOG_RD_DATA.addr k 0) (BitVec.ofNat 32 (leAt r (4 * k) 4))) s).wrPath path (Reg.LOG_RD_STAT.addr 0 0)
      (BitVec.ofNat 32 stat)

/-- LOG_RD_LATCH on a path (R434): the record with SEQ `seq`, from the queue, the staging range or flash. Of a record in the power-fail
block AREA names neither of its two areas: a free value. -/
def execLogRdLatch (path seq : Nat) (s : State) : Res :=
  .next <|
    let s := s.dropPoisoned
    let ready := s.isF Reg.LOG_STATUS_READY
    match (s.log.spill.map Prod.snd ++ s.log.queue).find? fun r => ready && recSeq r = seq with
    | some r => s.showRead path r 8
    | none =>
      match s.log.flash.find? fun e => recGood e.2 && recSeq e.2 = seq with
      | some e => s.showRead path e.2 (4 * ofBool (8192 ≤ e.1))
      | none =>
        match s.failHeld.find? fun r => recSeq r = seq with
        | some r => s.useFree.showRead path r (4 * (s.freeVal 0x434 % 2))
        | none =>
        match s.log.flash.find? fun e => recSeq e.2 = seq with
        | some e => (s.bump Reg.LOG_CRC_SKIP).showRead path e.2 (2 + 4 * ofBool (8192 ≤ e.1))
        | none => s.wrPath path (Reg.LOG_RD_STAT.addr 0 0) 1#32

end Sys2Proof.Machine
end

