-- ==== Sys2Proof/Machine/Pack.lean ====
section
/-!
DEFINITION. The pack at work (13, 14): sweeps from boundary to close, balancing, gaps, authentication, and the commands of
Bramble.
-/

namespace Sys2Proof.Machine

/-! ## Authentication (R345, R346) -/

/-- The radio that serves position `p` in the present split. -/
def State.sideOf (s : State) (p : Nat) : Nat := if p < s.getF Reg.PKL_EFF_EFF_SPLIT then 0 else 1

/-- The wait for an AUTH_RESP of position `p` in ns (R346). -/
def State.authWait (s : State) (p : Nat) : Nat := s.enumWait (s.sideOf p) p + 10000000

/-- A challenge with a fresh nonce leaves for position `p`, for the `tries`-th time. -/
def State.challenge (s : State) (p tries now : Nat) : State :=
  let nonce := Config.randomBytes s.free 16
  let a := { s.useFree with pkl := { s.pkl with auth := some ⟨p, nonce, tries, now⟩, stepNo := s.pkl.stepNo + 1 } }
  a.radio (a.sideOf p) 1 0x16 p a.pkl.stepNo (nonce ++ beBytes 4 0)

/-- The next waiting position is challenged: at once before sweeps begin, else while the gap has room. When none waits, the
authentication that follows an enumeration is over and sweeps may begin (R304). -/
def State.authServe (s : State) (now : Nat) : State :=
  if s.pklPhase ≠ pklRun || !s.pklTx || s.pkl.auth.isSome || s.pkl.step.isSome then s
  else match s.pkl.authQ with
    | [] => if s.pkl.ready then s else { s with pkl := { s.pkl with ready := true, nextP := s.frame } }
    | p :: rest =>
      if s.pkl.ready && s.pkl.gapEnd < now + s.authWait p then s
      else ({ s with pkl := { s.pkl with authQ := rest } }).challenge p 1 now

/-- Position `p` passes or fails (R346). -/
def State.authResult (s : State) (p : Nat) (ok : Bool) (now : Nat) : State :=
  let a := { s with pkl := { s.pkl with auth := none } }
  let a := (a.setMapBit Reg.EST_AUTH_OK_LO p ok).setMapBit Reg.EST_AUTH_FAIL_LO p (!ok)
  let a := if ok then a else (a.event 0x0B06 p [p, a.idFound p]).cause 10 4
  (a.estStrings.foldl (fun (a : State) k => a.showLimits k) a).authServe now

/-- The TAG a node at position `p` with identifier `id` owes for a nonce; none when the slot may not act (R345, 19 R446). -/
def State.expectedTag (s : State) (nonce : List Byte) (p id : Nat) : Option (List Byte) :=
  let n := s.getF Reg.EST_CFG_PACK_KEY_SLOT
  if s.sslotMay n usePackHmac then
    let key := (Config.hmacSha256 (s.skeyOf n) (beBytes 8 id)).take 32
    some ((Config.hmacSha256 key (nonce ++ beBytes 8 id ++ beBytes 2 (s.getF Reg.PKL_CHAIN) ++ beBytes 1 p)).take 16)
  else none

/-- AUTH_RESP_RECEIVE of a PSDU at `now` (R345). -/
def execAuthRespReceive (now : Nat) (message : List Byte) (s : State) : Res :=
  .next <|
    let r := s.pklTakeDisc message
    match r.2, r.1.pkl.auth with
    | some m, some c =>
      let a := r.1
      if m.typ ≠ 0x17 || m.src ≠ c.pos || c.sentAt + a.authWait c.pos < now then a
      else
        let id := beAt m.body 0 8
        match a.expectedTag c.nonce c.pos id with
        | none => (a.misuse (a.getF Reg.EST_CFG_PACK_KEY_SLOT) usePackHmac).authResult c.pos false now
        | some tag => a.authResult c.pos (id = a.idFound c.pos && slice m.body 8 16 = tag) now
    | _, _ => r.1

/-- AUTH_TIMEOUT at `now` (R346): two repeats with new nonces, then AUTH_FAIL. -/
def execAuthTimeout (now : Nat) (s : State) : Res :=
  .next <| match s.pkl.auth with
    | none => s
    | some c =>
      if now ≤ c.sentAt + s.authWait c.pos then s
      else if c.tries < 3 then s.challenge c.pos (c.tries + 1) now
      else s.authResult c.pos false now

/-- AUTH_PERIOD_ELAPSED (R346): AUTH_PERIOD after the last time, every position is authenticated again in the coming gaps. -/
def execAuthPeriodElapsed (s : State) : Res :=
  .next <|
    if s.packReady && s.est.authAt + s.getF Reg.EST_DRIFT_CFG_AUTH_PERIOD * 3600000000000 ≤ s.est.clock then s.authAll else s

/-- AUTH of EST_CMD (R346). -/
def execEstAuth (s : State) : Res := .next <| if s.packReady then s.authAll else s.estBusy

/-! ## Enumeration (R302 to R304, R317) -/

/-- After a step: when no step runs, the positions that wait are authenticated. -/
def State.pklSettle (s : State) (now : Nat) : State :=
  if s.pkl.step.isNone && s.pkl.segment.isNone then s.authServe now else s

/-- ENUMERATE of PKL_CMD at `now` (R304). -/
def execEnumerate (now : Nat) (s : State) : Res := .next <| (s.enumerate true now).pklSettle now

/-- ENUM_ANS_RECEIVE of a PSDU by a radio at `now` (R302, R303). -/
def execEnumAnsReceive (radio now : Nat) (message : List Byte) (s : State) : Res :=
  .next <|
    let r := s.pklTakeDisc message
    let a := r.1
    match r.2 with
    | none => a
    | some m =>
      let id := beAt m.body 0 8
      let p := beAt m.body 8 1
      let rssi := signed 8 (beAt m.body 11 1)
      if m.typ ≠ 0x12 then a
      else match a.pkl.step with
        | none =>
          -- a module that only listens keeps its own copy (R295)
          let fits := (a.ndState p = ndPending && (a.idExp p = 0 || a.idExp p = id)) || (a.ndState p = ndLost && a.idFound p = id)
          if a.pklTx || !a.ndUsed p || !fits then a
          else
            let b := a.admitNode p id
            if b.pklPhase = pklEnum && (b.enumPos 0).isNone then b.enumEnd else b
        | some e =>
          if radio ≠ e.side then a
          else if e.slots ≠ 0 then
            { a with pkl := { a.pkl with step := some { e with answers := e.answers ++ [(rssi, id)] } } }
          else if e.sentAt + a.enumWait e.side e.pos < now then a
          else if p ≠ e.pos then (a.enumNext e false false now).pklSettle now
          else if e.target = 0 || e.target = id then ((a.admitNode p id).enumNext e true false now).pklSettle now
          else (a.set64 Reg.PKL_ND_ID_FOUND_LO id p).event 0x0A05 p [p, id]

/-- ENUM_STEP_TIMEOUT at `now` (R302): two repeats, then the side stops. -/
def execEnumStepTimeout (now : Nat) (s : State) : Res :=
  .next <| match s.pkl.step with
    | none => s
    | some e =>
      if e.slots ≠ 0 || now ≤ e.sentAt + s.enumWait e.side e.pos then s
      else if e.tries < 3 then s.enumSend { e with tries := e.tries + 1 } now
      else (s.enumNext e false true now).pklSettle now

/-- The answer an open step chooses (R303): the greatest RSSI, and the lowest identifier among equals. -/
def bestAnswer : List (Int × Nat) → Option (Int × Nat)
  | [] => none
  | x :: r => match bestAnswer r with
    | none => some x
    | some y => if y.1 < x.1 || (x.1 = y.1 && x.2 ≤ y.2) then some x else some y

/-- ENUM_OPEN_SLOTS_END at `now` (R303): SLOTS slots of 1 ms have passed since the request. -/
def execEnumOpenSlotsEnd (now : Nat) (s : State) : Res :=
  .next <| match s.pkl.step with
    | none => s
    | some e =>
      if e.slots = 0 || now < e.sentAt + e.slots * 1000000 then s
      else match bestAnswer e.answers with
        | some x => s.enumSend { e with target := x.2, slots := 0, answers := [], tries := 1 } now
        | none =>
          if e.slots < 128 then s.enumSend { e with slots := 2 * e.slots, answers := [] } now
          else (s.enumNext e false true now).pklSettle now

/-- The end of the present gap: 1 ms before the next P (R317). -/
def State.gapLimit (s : State) : Nat := s.pkl.p + s.getF Reg.PKL_EFF_PERIOD_EFF * 1000000 - 1000000

/-- The instant at which the nodes change to discovery mode: DISC_AT after T_s, where the sweep's SYNC set it (R299, R317). -/
def State.discFrom (s : State) : Nat := if s.pkl.discAt = 0xFFFF then 0 else s.sns.ts.getD s.pkl.p + s.pkl.discAt * 1000000

/-- DISCOVERY_GAP at `now` (R317, R346): the nodes are in discovery mode. -/
def execDiscoveryGap (now : Nat) (s : State) : Res :=
  .next <|
    if s.pklPhase ≠ pklRun || !s.pkl.disc || s.pkl.sweep || now < s.discFrom then s
    else
      let a := { s with pkl := { s.pkl with disc := false, gapEnd := s.gapLimit } }
      if a.lostSegment.isSome then (a.gapBegin now).pklSettle now else a.authServe now

/-- REENUM of PKL_CMD at `now` (R317): at once, or in the gap of a sweep in progress. -/
def execReenum (now : Nat) (s : State) : Res :=
  .next <|
    if s.pklPhase ≠ pklRun || s.lostSegment.isNone || s.pkl.step.isSome then s
    else if s.pkl.sweep then { s with pkl := { s.pkl with disc := true } }
    else (({ s with pkl := { s.pkl with gapEnd := s.gapLimit } }).gapBegin now).pklSettle now

/-- SLEEP of PKL_CMD (R320). -/
def execPklSleep (s : State) : Res := .next <| if s.pklPhase = pklOff then s else s.nodesSleep

/-- WAKE of PKL_CMD at `now` (R320). -/
def execPklWake (now : Nat) (s : State) : Res := .next <| if s.pklOn then (s.wakeNodes.enumGo 0 now).pklSettle now else s

/-- CLEAR of PKL_CMD: the block's counters and its flags to zero. -/
def execPklClear (s : State) : Res :=
  .next <|
    let a := (s.setF Reg.PKL_CRC_ERR 0).setF Reg.PKL_COMPLETIONS 0
    let a := (a.setF Reg.PKL_DISTURBED 0).setF Reg.PKL_STATUS_ENUM_INCOMPLETE 0
    (a.setF Reg.PKL_STATUS_PERIOD_RAISED 0).setF Reg.PKL_STATUS_LEAD_RAISED 0

/-! ## The schedule (R305, R306, R319, R323) -/

/-- GUARD in µs. -/
def State.guardUs (s : State) : Nat := min 2000 (max 100 (bitsOf s.pkl.sc 16 16))

/-- Slots of a primary pass over `c` positions next to its radio (R313). -/
def passSlots (c : Nat) : Nat := if c = 0 then 0 else 3 * c - 2

/-- S of R319: slots of the longer primary pass and of a completion pass of every position of the larger side. -/
def State.sweepSlots (s : State) : Nat :=
  let n := s.nodes
  let split := min n (s.getF Reg.PKL_EFF_EFF_SPLIT)
  max (passSlots split) (passSlots (n - split)) + 2 * n + 2 * max split (n - split) - 2

/-- LEAD_EFF and the effective period follow the schedule in force and the split (R306, R319). -/
def State.showEff (s : State) : State :=
  let n := s.nodes
  let split := min n (s.getF Reg.PKL_EFF_EFF_SPLIT)
  let h := max split (n - split)
  let leadMin := (124 + (h - 1) * 140 + s.guardUs + 9) / 10
  let lead := min 1000 (max 50 (bitsOf s.pkl.si 14 10))
  let eff := max lead leadMin
  let tMin := (eff * 10 + 200 + s.sweepSlots * 280 + 9999) / 10000
  let per := min 100 (max 2 (bitsOf s.pkl.sc 0 7))
  let a := (s.setF Reg.PKL_EFF_LEAD_EFF eff).setF Reg.PKL_EFF_PERIOD_EFF (10 * max per tMin)
  (a.setF Reg.PKL_STATUS_LEAD_RAISED (ofBool (lead < eff))).setF Reg.PKL_STATUS_PERIOD_RAISED (ofBool (per < tMin))

/-- DISC_AT of a sweep that leaves a gap, in ms after T_s: a free value between the end of the sweep's passes and the return to fast mode
1 ms before the next P (R317, R319). -/
def State.discDelay (s : State) (period : Nat) : Nat :=
  let lo := (200 + s.sweepSlots * 280 + 999) / 1000
  let hi := period - 1 - (s.getF Reg.PKL_EFF_LEAD_EFF + 99) / 100
  lo + s.freeVal 13 % (hi - lo + 1)

/-- SWEEP_BOUNDARY at module time `now` (R68, R305, R323): a sweep that is due begins. -/
def execSweepBoundary (now : Nat) (s : State) : Res :=
  .next <|
    if !s.pklOn || s.pklPhase ≠ pklRun || !s.pkl.ready || s.frame % 1000 ≠ 0 || s.cpc.grantAt ≠ some s.frame || s.frame < s.pkl.nextP then s
    else
      let back := match s.pkl.auth with | some c => c.pos :: s.pkl.authQ | none => s.pkl.authQ
      let a := { s with pkl := { s.pkl with
        si := s.getF Reg.SNS_SI_CFG, sc := s.getF Reg.PKL_SWEEP_CFG, step := none, segment := none, gapSides := [],
        auth := none, authQ := back, sweep := true, passDone := false, recs := [], p := now } }
      let a := a.showEff
      let a := a.setF Reg.PKL_SWEEP_NO (a.getF Reg.PKL_SWEEP_NO + 1)
      let period := a.getF Reg.PKL_EFF_PERIOD_EFF
      let gap := a.lostSegment.isSome || !back.isEmpty
      let disc := if gap then a.discDelay period else 0xFFFF
      let a := if gap then a.useFree else a
      let a := { a with pkl := { a.pkl with nextP := a.frame + period * 100, disc := gap, discAt := disc } }
      let a := a.fixSampleInstant now a.pkl.si (a.getF Reg.PKL_EFF_LEAD_EFF)
      let delay := (a.sns.ts.getD now - (now + 32000)) * 16 / 1000
      let body := beBytes 4 delay ++ beBytes 2 a.guardUs ++ beBytes 2 period ++ beBytes 2 disc ++ beBytes 2 0
      let num := a.getF Reg.PKL_SWEEP_NO
      (a.radio 0 0 0x01 0xFF num body).radio 1 0 0x01 0xFF num body

/-! ## Records (R308, R309, R314, R318) -/

/-- REPORT_RECEIVE by a radio (R313): the bytes from the access word on. -/
def execReportReceive (radio : Nat) (message : List Byte) (s : State) : Res :=
  .next <|
    let r := s.pklTakeFast message
    let a := r.1
    match r.2 with
    | none => a
    | some m =>
      if m.typ ≠ 0x02 || !a.pkl.sweep || m.num ≠ a.getF Reg.PKL_SWEEP_NO % 65536 || !a.ndUsed m.src ||
          a.ndState m.src < ndReached then a
      else { a with pkl := { a.pkl with
        recs := Sparse.upd none a.pkl.recs m.src (some ⟨radio % 2, a.pkl.passDone, m.body⟩) } }

/-- The record of position `p` in this sweep. -/
def State.nodeRec (s : State) (p : Nat) : Option NodeRec := Sparse.at none s.pkl.recs p

/-- STATUS, BLEED_WIN and OPEN of a record. -/
def NodeRec.status (r : NodeRec) : Nat := beAt r.bytes 0 1
def NodeRec.win (r : NodeRec) : Nat := beAt r.bytes 2 2
def NodeRec.opens (r : NodeRec) : Nat := beAt r.bytes 4 2

/-- The cells DISTURBED in this sweep, by string and number (R309): those whose switch was on in the window and their
neighbours. A node with BLEED_STUCK keeps its last BLEED_WIN. -/
def State.disturbed (s : State) : List (Nat × Nat) :=
  s.ndList.flatMap fun p =>
    let win := match s.nodeRec p with
      | some r => r.win
      | none => if 2 ≤ Sparse.at 0 s.pkl.stuck p then s.getF Reg.PKL_ND_BLEED_WIN p else 0
    let k := s.getF Reg.PKL_ND_MAP_STRING p
    (List.range (min 16 (s.getF Reg.PKL_ND_MAP_CELLS p))).flatMap fun i =>
      if bitOf win i then
        let n := s.getF Reg.PKL_ND_MAP_FIRST_CELL p + i
        (if n = 0 then [] else [(k, n - 1)]) ++ [(k, n), (k, n + 1)]
      else []

/-- The DISTURBED bits of position `p`. -/
def State.disturbedAt (s : State) (d : List (Nat × Nat)) (p : Nat) : Nat :=
  (List.range (min 16 (s.getF Reg.PKL_ND_MAP_CELLS p))).foldl (fun v i =>
    if d.contains (s.getF Reg.PKL_ND_MAP_STRING p, s.getF Reg.PKL_ND_MAP_FIRST_CELL p + i) then v + 2 ^ i else v) 0

/-- Position `p` is published in a sweep of sample instant `ts` (R308, R314, R315, R318): its record, or its last values with
STALE and their AGE. -/
def State.showNode (s : State) (ts : Nat) (d : List (Nat × Nat)) (p : Nat) : State :=
  let dist := s.disturbedAt d p
  let age := fun (a : State) => match Sparse.at none a.pkl.ts p with
    | some t => a.setSat Reg.PKL_ND_AGE ((ts - t) / 1000000) p
    | none => a
  match s.nodeRec p with
  | none =>
    if s.ndState p < ndReached then s
    else
      let a := s.setF Reg.PKL_ND_STAT_STALE 1 p
      age (a.setF Reg.PKL_ND_CELLFLAG_DISTURBED (a.getF Reg.PKL_ND_CELLFLAG_DISTURBED p ||| dist) p)
  | some r =>
    let a := (s.setF Reg.PKL_ND_STAT_VIA (r.radio + 1) p).setF Reg.PKL_ND_STAT_COMPLETED (ofBool r.completed) p
    let a := (a.setF Reg.PKL_ND_STAT_NODE_STATUS r.status p).setF Reg.PKL_ND_BLEED_WIN r.win p
    let a := (a.setF Reg.PKL_ND_STAT_STATE ndReached p).setF Reg.PKL_ND_STAT_MISSES 0 p
    let a := if bitOf r.status 1 || bitOf r.status 5 then
        { (a.setF Reg.PKL_ND_BLEED_RUN 0 p) with pkl := { a.pkl with bleed := Sparse.upd [] a.pkl.bleed p [] } }
      else a
    let temps := (List.range 4).map fun i => if bitOf (beAt r.bytes 1 1) i then beAt r.bytes (40 + i) 1 else 0x80
    let a := a.setF Reg.PKL_ND_TEMP (temps.zipIdx.foldl (fun v e => v + e.1 * 2 ^ (8 * e.2)) 0) p
    if bitOf r.status 0 || s.sns.deferred then
      let a := a.setF Reg.PKL_ND_STAT_STALE 1 p
      age (a.setF Reg.PKL_ND_CELLFLAG_DISTURBED (a.getF Reg.PKL_ND_CELLFLAG_DISTURBED p ||| dist) p)
    else
      let all := bitOf r.status 2 || bitOf r.status 3
      let cell := fun (i : Nat) => if all || bitOf r.opens i then 0xFFFF else beAt r.bytes (8 + 2 * i) 2
      let inv := (List.range 16).foldl (fun v i => if cell i = 0xFFFF then v + 2 ^ i else v) 0
      let a := (List.range 8).foldl (fun (a : State) i =>
        a.setF Reg.PKL_ND_CELL (cell (2 * i) + 65536 * cell (2 * i + 1)) p i) a
      let a := (a.setF Reg.PKL_ND_CELLFLAG_INVALID inv p).setF Reg.PKL_ND_CELLFLAG_DISTURBED dist p
      let a := { a with pkl := { a.pkl with ts := Sparse.upd none a.pkl.ts p (some ts) } }
      (a.setF Reg.PKL_ND_STAT_STALE 0 p).setF Reg.PKL_ND_AGE 0 p

/-- The sweep's results are published together (R314). -/
def State.publishSweep (s : State) : State :=
  let ts := s.sns.ts.getD s.pkl.p
  let d := s.disturbed
  let a := s.ndList.foldl (fun (a : State) p => a.showNode ts d p) s
  (a.set64 Reg.PKL_SWEEP_FRAME_LO (s.frameOf ts)).showPkl

/-- The positions of a list that gave no record in this sweep. -/
def State.missing (s : State) (ps : List Nat) : List Nat :=
  ps.filter fun p => ndReached ≤ s.ndState p && (s.nodeRec p).isNone

/-- A completion pass from a radio over missing positions (R314). -/
def State.complete (s : State) (side : Nat) (ps : List Nat) : State :=
  match ps.head?, ps.getLast? with
  | some a, some b =>
    if s.pklTx then
      (s.radio side 0 0x03 0xFF (s.getF Reg.PKL_SWEEP_NO) (beBytes 1 a ++ beBytes 1 b ++ beBytes 2 0)).bump Reg.PKL_COMPLETIONS
    else s
  | _, _ => s

/-- The end of the longer primary pass in ns (R313): slot 0 begins 200 µs after T_s, a slot lasts 280 µs. -/
def State.passEnd (s : State) : Nat :=
  let n := s.nodes
  let split := min n (s.getF Reg.PKL_EFF_EFF_SPLIT)
  s.sns.ts.getD s.pkl.p + 200000 + max (passSlots split) (passSlots (n - split)) * 280000

/-- Slots of the completion pass from a radio over the range of missing positions (R314). -/
def State.completeSlots (s : State) (side : Nat) (ps : List Nat) : Nat :=
  match ps.head?, ps.getLast? with
  | some a, some b => 2 * (if side = 0 then b + 1 else s.nodes - a) + 2 * (b + 1 - a) - 2
  | _, _ => 0

/-- PRIMARY_PASS_END at `now` (R314): the longer primary pass is over. -/
def execPrimaryPassEnd (now : Nat) (s : State) : Res :=
  .next <|
    if !s.pkl.sweep || s.pkl.passDone || now < s.passEnd then s
    else
      let split := s.getF Reg.PKL_EFF_EFF_SPLIT
      let a := s.publishSweep
      let head := s.missing (s.ndList.filter (· < split))
      let tail := s.missing (s.ndList.filter (split ≤ ·))
      let a := { a with pkl := { a.pkl with
        passDone := true, closeAt := s.passEnd + max (s.completeSlots 1 head) (s.completeSlots 0 tail) * 280000 } }
      (a.complete 1 head).complete 0 tail

/-! ## The close (R309 to R316) -/

/-- What a sweep leaves of position `p`: a miss, or what its record tells the log. `count`: the miss counts towards LOST. -/
def State.closeNode (s : State) (count : Bool) (p : Nat) : State :=
  match s.nodeRec p with
  | some r =>
    let st := r.status
    let a := if r.opens ≠ 0 || bitOf st 1 || bitOf st 2 || bitOf st 3 then s.event 0x0A04 p [p, st, r.opens] else s
    let n := if bitOf st 4 then Sparse.at 0 s.pkl.stuck p + 1 else 0
    let a := { a with pkl := { a.pkl with stuck := Sparse.upd 0 a.pkl.stuck p n } }
    if n = 2 then a.event 0x0A02 p [p, r.win] else a
  | none =>
    let st := s.ndState p
    if st < ndReached then s
    else if !count then if st = ndLost then s else s.setF Reg.PKL_ND_STAT_STATE ndUnreached p
    else
      let m := min 15 (s.getF Reg.PKL_ND_STAT_MISSES p + 1)
      let a := s.setF Reg.PKL_ND_STAT_MISSES m p
      if st = ndLost then a
      else if max 1 (a.getF Reg.PKL_CFG_LOST_SWEEPS) ≤ m then
        ((a.setF Reg.PKL_ND_STAT_STATE ndLost p).event 0x0A01 p [p, m]).cause 9 1
      else a.setF Reg.PKL_ND_STAT_STATE ndUnreached p

/-- The balancing decision (R311): cells well above the lowest of their string get BAL_STEP, the other cells zero. -/
def State.balance (s : State) : State :=
  [0, 1].foldl (fun (a : State) k =>
    let ps := a.strPos k
    let cells := ps.flatMap fun p =>
      if a.isF Reg.PKL_ND_STAT_STALE p || (a.nodeRec p).isNone then []
      else (List.range (min 16 (a.getF Reg.PKL_ND_MAP_CELLS p))).filterMap fun i =>
        if bitOf (a.getF Reg.PKL_ND_CELLFLAG_INVALID p) i || bitOf (a.getF Reg.PKL_ND_CELLFLAG_DISTURBED p) i then none
        else some (p, i, bitsOf (a.getF Reg.PKL_ND_CELL p (i / 2)) (16 * (i % 2)) 16)
    let low := (cells.map fun c => c.2.2).foldl min 65536
    ps.foldl (fun (a : State) p =>
      let mine := cells.filter fun c => c.1 = p
      if mine.isEmpty then a
      else
        let mask := mine.foldl (fun v c => v + 2 ^ c.2.1) 0
        let durs := (List.range 16).map fun i =>
          if mine.any fun c => c.2.1 = i && low + 10 * a.getF Reg.PKL_BAL_CFG_BAL_DELTA ≤ c.2.2 then
            a.getF Reg.PKL_BAL_CFG_BAL_STEP else 0
        { a with pkl := { a.pkl with bal := Sparse.upd none a.pkl.bal p (some ⟨mask, durs, 0⟩) } }) a) s

/-- The BALANCE frames of the gap after a close (R310): new ones and those not acknowledged, up to three times again. -/
def State.sendBalance (s : State) : State :=
  s.ndList.foldl (fun (a : State) p => match Sparse.at none a.pkl.bal p with
    | none => a
    | some b =>
      if 4 ≤ b.sent then
        ({ a with pkl := { a.pkl with bal := Sparse.upd none a.pkl.bal p none } }).event 0x0A03 p [p, b.mask]
      else
        let body := beBytes 2 b.mask ++ beBytes 2 0 ++ (b.durs.flatMap fun d => beBytes 2 d)
        ({ a with pkl := { a.pkl with bal := Sparse.upd none a.pkl.bal p (some { b with sent := b.sent + 1 }) } }).radio
          (a.sideOf p) 0 0x04 p (a.getF Reg.PKL_SWEEP_NO) body) s

/-- The timers of position `p` at a close: they paused in the sweep's window, and one that has run out stops (R307, R310). -/
def State.countBleed (s : State) (p : Nat) : State :=
  match Sparse.at [] s.pkl.bleed p with
  | [] => s
  | ends =>
    let ends := ends.map fun e => if e = 0 then 0 else e + (s.guardUs + 20) / 10
    let left := (List.range 16).foldl (fun v i =>
      if bitOf (s.getF Reg.PKL_ND_BLEED_RUN p) i && (ends.getD i 0 = 0 || s.frame < ends.getD i 0) then v + 2 ^ i else v) 0
    { (s.setF Reg.PKL_ND_BLEED_RUN left p) with pkl := { s.pkl with bleed := Sparse.upd [] s.pkl.bleed p ends } }

/-- The sweep closes (R314 to R316, R319): `count` tells whether misses count towards LOST. -/
def State.closeSweep (s : State) (count : Bool) : State :=
  let ts := s.sns.ts.getD s.pkl.p
  let a := s.ndList.foldl (fun (a : State) p => (a.closeNode count p).countBleed p) s
  let a := a.publishSweep
  let cells := a.ndList.foldl (fun n p =>
    let v := a.disturbedAt a.disturbed p
    n + ((List.range 16).filter fun i => bitOf v i).length) 0
  let a := a.bumpBy Reg.PKL_DISTURBED cells
  let n := a.pkl.balCount + 1
  let due := a.isF Reg.PKL_BAL_CFG_BAL_EN && max 1 (a.getF Reg.PKL_BAL_CFG_BAL_INTERVAL) ≤ n
  let a := { a with pkl := { a.pkl with balCount := if due then 0 else n } }
  let a := if due && a.pklTx then a.balance else a
  let a := if a.pklTx then a.sendBalance else a
  let a := (a.setF Reg.PKL_EFF_EFF_SPLIT a.splitNext).showEff
  let a := { a with pkl := { a.pkl with sweep := false, passDone := false, recs := [] } }
  let a := (a.estClose 0 ts).estClose 1 ts
  (a.publishRecord ts false).cause 9 0

/-- SWEEP_CLOSE at `now` (R314): the completion passes are over. -/
def execSweepClose (now : Nat) (s : State) : Res :=
  .next <| if s.pkl.sweep && s.pkl.passDone && s.pkl.closeAt ≤ now then s.closeSweep true else s

/-- The frames at which the timers that a node says are running run out: those of the BALANCE it acknowledges begin now (R310). -/
def State.bleedEnds (s : State) (p running : Nat) : List Nat :=
  let old := Sparse.at [] s.pkl.bleed p
  (List.range 16).map fun i =>
    if !bitOf running i then 0
    else match Sparse.at none s.pkl.bal p with
      | some b => if bitOf b.mask i then s.frame + 100000 * b.durs.getD i 0 else old.getD i 0
      | none => old.getD i 0

/-- BAL_ACK_RECEIVE: the bytes from the access word on (R310). -/
def execBalAckReceive (message : List Byte) (s : State) : Res :=
  .next <|
    let r := s.pklTakeFast message
    match r.2 with
    | none => r.1
    | some m =>
      if m.typ ≠ 0x05 || !r.1.ndUsed m.src then r.1
      else
        let a := r.1.setF Reg.PKL_ND_BLEED_RUN (beAt m.body 0 2) m.src
        { a with pkl := { a.pkl with
          bal := Sparse.upd none a.pkl.bal m.src none
          bleed := Sparse.upd [] a.pkl.bleed m.src (a.bleedEnds m.src (beAt m.body 0 2)) } }

/-- BAL_STOP of PKL_CMD (R311): zero to every timer in the next gap. -/
def execBalStop (s : State) : Res :=
  .next <|
    { s with pkl := { s.pkl with
      bal := s.ndList.foldl (fun m p => Sparse.upd none m p (some ⟨0xFFFF, List.replicate 16 0, 0⟩)) s.pkl.bal } }

/-- The module takes the lock (R295): it transmits, and a sweep in progress is published as it stands. -/
def State.pklTakeOver (s : State) (now : Nat) : State :=
  let a := s.showPkl
  let a := if a.pkl.sweep then a.closeSweep false else a
  if a.pklPhase = pklEnum && a.pkl.step.isNone then (a.enumGo 0 now).pklSettle now else a

/-- The module releases the lock (R295): nothing of its own is under way on the radios. -/
def State.pklRelease (s : State) : State :=
  ({ s with pkl := { s.pkl with step := none, segment := none, gapSides := [], auth := none, bal := [] } }).showPkl

end Sys2Proof.Machine
end

