-- ==== Sys2Proof/Machine/Shift.lean ====
section
/-!
DEFINITION. Module time moves with the frame counter (01 R12, 07 R145, 17 R414): when the counter takes another number, every instant
the module still waits for or measures from moves by as much, so that intervals stay as they are. Times that records, descriptors and
messages already carry stay as they were written.
-/

namespace Sys2Proof.Machine

/-- An instant moved by `d`. -/
def moved (d : Int) (t : Nat) : Nat := ((t : Int) + d).toNat

/-- Every unit of a group takes a new value. -/
def eachUnit {α : Type} [DecidableEq α] (d : α) (f : α → α) (m : Sparse α) : Sparse α :=
  (m.map fun e => (e.1, f e.2)).filter fun e => decide (e.2 ≠ d)

/-- Instants of a lane; `d` in 62.5 ps steps. -/
def LaneState.moved (d : Int) (x : LaneState) : LaneState :=
  let m := Machine.moved d
  { x with
    handed := x.handed.map fun e => (e.1, m e.2), grid := x.grid.map m, shedAt := x.shedAt.map m, readd := x.readd.map m,
    restart := x.restart.map m, last := x.last.map m, again := x.again.map m,
    pulse := x.pulse.map fun p => { p with start := m p.start }, prev := x.prev.map fun p => { p with start := m p.start },
    events := x.events.map fun e => (m e.1, m e.2) }

/-- Instants of a converter. -/
def ConvState.moved (d : Int) (x : ConvState) : ConvState :=
  let m := Machine.moved d
  { x with tb := m x.tb, sheds := x.sheds.map m, lastShed := x.lastShed.map m, reqAt := m x.reqAt, asks := x.asks.map fun e => (e.1, m e.2) }

/-- Instants of a partner; `d` in ns. -/
def Partner.moved (d : Int) (x : Partner) : Partner :=
  let m := Machine.moved d
  { x with
    got := x.got.map fun e => (e.1, m e.2.1, e.2.2), heard := m x.heard, silentAt := m x.silentAt,
    bucket := eachUnit none (fun b => b.map fun e => (e.1, m e.2)) x.bucket }

/-- Instants of a ledger group. -/
def LdgGroup.moved (d : Int) (x : LdgGroup) : LdgGroup :=
  let m := Machine.moved d
  { x with
    heard := x.heard.map m, expire := x.expire.map m, lease := x.lease.map m, joinSince := x.joinSince.map m, joinAt := x.joinAt.map m,
    noLeader := x.noLeader.map m, proposed := x.proposed.map fun e => (e.1, m e.2),
    acks := x.acks.map fun e => (e.1, (e.2.1, Machine.moved (d / 10) e.2.2.1, m e.2.2.2)) }

/-- The frame counter takes the number `f` (R12, R414): module time moves with it. -/
def State.setCounter (s : State) (f : Nat) : State :=
  let df : Int := (f : Int) - s.frame
  let d : Int := (f * 10000 : Nat) - (s.frameTime s.frame : Int)
  if df = 0 && d = 0 then s
  else
    let m := moved d
    let m16 := moved (d * 16)
    let m10 := moved (d / 10)
    { s with
      frame := f
      frameBase := 0
      sns := { s.sns with
        ft := eachUnit {} (fun x => { x with last := x.last.map m16, endNs := m x.endNs, stamp := x.stamp.map fun e => (m16 e.1, m16 e.2) }) s.sns.ft,
        adLast := eachUnit 0 m16 s.sns.adLast, adStamp := s.sns.adStamp.map fun e => (e.1, (m16 e.2.1, m16 e.2.2)), ts := s.sns.ts.map m }
      lt := { s.lt with
        tile := eachUnit {} (fun x => { x with stamp := x.stamp.map fun e => (m16 e.1, m16 e.2), settled := x.settled.map m16 }) s.lt.tile,
        lgSince := eachUnit 0 m16 s.lt.lgSince, lgEdges := eachUnit [] (fun l => l.map m16) s.lt.lgEdges,
        tmrDue := s.lt.tmrDue.map fun e => (e.1, m16 e.2), faults := s.lt.faults.map fun e => (e.1, m16 e.2) }
      pwm := { s.pwm with
        lane := eachUnit {} (LaneState.moved (d * 16)) s.pwm.lane,
        conv := eachUnit {} (ConvState.moved (d * 16)) s.pwm.conv,
        plan := s.pwm.plan.map fun e => (m16 e.1, m16 e.2),
        notch := s.pwm.notch.map fun e => (m16 e.1, m16 e.2),
        opening := s.pwm.opening.map fun e => (e.1, (e.2.1, m16 e.2.2)),
        notchSpan := s.pwm.notchSpan.map fun e => (m16 e.1, m16 e.2) }
      wb := { s.wb with
        entryFrame := moved df s.wb.entryFrame,
        lane := eachUnit {} (fun x => { x with scored := moved df x.scored }) s.wb.lane }
      th := { s.th with
        core := eachUnit {} (fun c => { c with wait := c.wait.map fun w => { w with expire := w.expire.map m10 } }) s.th.core,
        part := eachUnit {} (fun p => { p with restartAt := p.restartAt.map m, restarts := p.restarts.map m }) s.th.part,
        pubBy := s.th.pubBy.map fun e => (e.1, (m e.2.1, e.2.2)), fcbound := moved df s.th.fcbound,
        fcAt := s.th.fcAt.map (moved df) }
      cpc := { s.cpc with grantAt := s.cpc.grantAt.map (moved df) }
      irq := { s.irq with sentAt := eachUnit none (fun t => t.map m) s.irq.sentAt }
      hostWrite := s.hostWrite.map fun e => (e.1, e.2.1, m e.2.2)
      hnt := { s.hnt with
        pt := eachUnit {} (Partner.moved d) s.hnt.pt, annAt := s.hnt.annAt.map m, listenAt := m s.hnt.listenAt,
        bucket := eachUnit none (fun b => b.map fun e => (e.1, m e.2)) s.hnt.bucket,
        discAt := s.hnt.discAt.map fun e => (e.1, m e.2), lastSync := m s.hnt.lastSync, holdAt := m s.hnt.holdAt,
        heardBy := s.hnt.heardBy.map fun e => (e.1, e.2.1, e.2.2.1, m e.2.2.2), delayAt := s.hnt.delayAt.map m, netSince := m s.hnt.netSince,
        foreign := eachUnit none (fun x => x.map fun e => (e.1, m e.2)) s.hnt.foreign }
      ldg := { s.ldg with
        rack := s.ldg.rack.moved d, hall := s.ldg.hall.moved d,
        syncs := s.ldg.syncs.map fun q => { q with until_ := m q.until_, sent := q.sent.map m10 },
        claims := s.ldg.claims.map fun e => (e.1, e.2.map fun c => { c with at_ := m c.at_ }) }
      pkl := { s.pkl with
        step := s.pkl.step.map fun e => { e with sentAt := m e.sentAt }, gapEnd := m s.pkl.gapEnd, p := m s.pkl.p,
        closeAt := m s.pkl.closeAt,
        nextP := moved df s.pkl.nextP, ts := eachUnit none (fun t => t.map m) s.pkl.ts,
        auth := s.pkl.auth.map fun a => { a with sentAt := m a.sentAt } }
      est := { s.est with
        last := m s.est.last,
        str := eachUnit {} (fun x => { x with cells := eachUnit none (fun c => c.map fun e => (e.1, m e.2)) x.cells }) s.est.str }
      snap := { s.snap with boundary := s.snap.boundary.map (moved df) }
      log := { s.log with
        windows := s.log.windows.map fun w => { w with since := m w.since }, frozenAt := s.log.frozenAt.map m }
      twn := { s.twn with
        claimAt := m s.twn.claimAt, releasedAt := m s.twn.releasedAt, keeperAt := m s.twn.keeperAt,
        samples := s.twn.samples.map fun x => { x with at16 := m16 x.at16, stamp := (m16 x.stamp.1, m16 x.stamp.2) }, resyncAt := s.twn.resyncAt.map m,
        requestAt := s.twn.requestAt.map m, report := s.twn.report.map fun r => (m r.1, r.2), waitFrom := s.twn.waitFrom.map m,
        beatDone := eachUnit none (fun b => b.map m) s.twn.beatDone, beatF := s.twn.beatF.map (moved df), takeF := moved df s.twn.takeF }
      pwr := { s.pwr with
        stepAt := m s.pwr.stepAt, keepAt := s.pwr.keepAt.map m, wdtAt := s.pwr.wdtAt.map (· + d),
        lowAt := eachUnit none (fun t => t.map m) s.pwr.lowAt, stepEnd := eachUnit 0 m s.pwr.stepEnd,
        rtc := s.pwr.rtc.map (· - d / 1000), origin := m s.pwr.origin, imageAt := s.pwr.imageAt.map m, lostAt := s.pwr.lostAt.map (· + d) }
      sec := { s.sec with nonce := s.sec.nonce.map fun e => (e.1, m e.2) } }

end Sys2Proof.Machine
end

