-- ==== Sys2Proof/Machine/TwinCopy.lean ====
section
/-!
DEFINITION. The state copy (15 R356 to R359): the record the holder of the lock latches, what a module that follows takes from
it, the replay of its own samples and the comparison.
-/

namespace Sys2Proof.Machine

/-! ## Messages over TWIN -/

/-- First byte of what the model writes to its outbox for TWIN: what the message is. -/
abbrev twinRecord : Nat := 0x52
abbrev twinStake : Nat := 0x01
abbrev twinBinder : Nat := 0x02
abbrev twinSlot : Nat := 0x03
abbrev twinHealth : Nat := 0x04
abbrev twinResync : Nat := 0x05
abbrev twinForecast : Nat := 0x46
abbrev twinKeep : Nat := 0x4B

/-- Bytes go to the twin over TWIN, or a beat on Stake. -/
def State.toTwin (s : State) (what : Nat) (bs : List Byte) : State := s.emit .twin (what :: bs.map BitVec.toNat)

/-! ## The record (R357) -/

/-- A signed value in `n` bytes. -/
def leS (n : Nat) (x : Int) : List Byte := leBytes n (unsign (8 * n) x)

/-- A section: its header and its entries. -/
def section_ (kind count : Nat) (bs : List Byte) : List Byte :=
  leBytes 1 kind ++ leBytes 1 0 ++ leBytes 2 count ++ leBytes 4 bs.length ++ bs

/-- The entry of loop tile `t`. -/
def State.tileEntry (s : State) (t : Nat) : List Byte :=
  let x := s.tile t
  let k := s.comp t
  let flags := ofBool (s.isF Reg.LT_STAT_LOOP_FAULT t) + 2 * ofBool (s.bank t) + 4 * ofBool (s.isF Reg.LT_STAT_MISS t)
  leBytes 1 t ++ leBytes 1 flags ++ leBytes 1 (s.getF Reg.LT_MISS_MISS_COUNT t) ++ leBytes 1 0 ++ leS 4 (s.getS Reg.LT_OUT_U t) ++
    leS 4 (s.getS Reg.LT_RAMP_POS t) ++ leS 4 x.ff0 ++ leS 4 x.ff1 ++ leS 8 k.s1 ++ leS 8 k.s2 ++ leS 8 k.s3 ++ leS 8 k.si ++
    leBytes 4 0

/-- Timer `n` in 7 bytes at the instant `at16`: EXPIRED, CONFLICT, and the CORE cycles still to count, none when it does not run. -/
def State.timerBytes (s : State) (n at16 : Nat) : List Byte :=
  let left := match Sparse.find s.lt.tmrDue n with | some due => (due - at16 + 31) / 32 | none => 0
  leBytes 7 (ofBool (s.isF Reg.LT_TMR_STAT_EXPIRED n) + 2 * ofBool (s.isF Reg.LT_TMR_STAT_CONFLICT n) + 4 * left)

/-- The entry of logic tile `l` at the boundary `at16`: state, output, dwell counter, steps since it entered its state, and the
16 timers. -/
def State.logicEntry (s : State) (l at16 : Nat) : List Byte :=
  leBytes 1 l ++ leBytes 1 (s.getF Reg.LT_LG_STAT_STATE l) ++ leBytes 1 (ofBool (s.logicOut l)) ++ leBytes 1 0 ++
    leBytes 4 (s.getF Reg.LT_LG_STAT_CNT l) ++ leBytes 8 (at16 - Sparse.at 0 s.lt.lgSince l) ++
    (List.range 16).flatMap fun n => s.timerBytes n at16

/-- The entry of lane `n`. -/
def State.laneEntry (s : State) (n : Nat) : List Byte :=
  leBytes 1 n ++ leBytes 1 (s.laneSt n) ++ leBytes 2 0 ++ leBytes 4 (s.getF Reg.PWM_LANE_ONTIME n) ++ leBytes 8 0

/-- The protection entry. -/
def State.protectionEntry (s : State) : List Byte :=
  ((List.range 4).flatMap fun c =>
    leBytes 1 (s.shedLevel c) ++ leBytes 1 (s.shedTarget c) ++ leBytes 1 (s.getF Reg.PWM_CONV_STAT_PENDING c) ++ leBytes 13 0) ++
    leBytes 1 (s.getF Reg.PWM_GRP_TRIP_TRIP) ++ leBytes 2 (s.getF Reg.PWM_FLT_LATCH) ++ leBytes 1 (s.getF Reg.PWM_CTR_CLOSE) ++
    leBytes 60 0

/-- The scores of a forecast lane as bits, the newest lowest. -/
def scoreBits (l : List Bool) : Nat := (l.zipIdx.map fun e => if e.1 then 2 ^ e.2 else 0).foldl (· + ·) 0

/-- The Windbreak entry: X in 2^-24 mA, P_TOT and P_FF in 2^-32 W, MODE, STEP_AHEAD, entry index; the word pairs; of each lane
STATE, demotion, number of scores, HITS, the scores. -/
def State.wbEntry (s : State) : List Byte :=
  leS 8 (ratRound (s.wb.x * 2 ^ 24)) ++ leS 8 (ratRound (s.wb.tot * 2 ^ 32)) ++ leS 8 (ratRound (s.wb.ff * 2 ^ 32)) ++
    leBytes 1 (s.getF Reg.WB_STATUS_MODE) ++ leBytes 1 (s.getF Reg.WB_STATUS_STEP_AHEAD) ++ leBytes 6 0 ++
    leBytes 8 (s.get64 Reg.WB_ENTRY_IDX_LO) ++ leBytes 24 0 ++
    ((List.range 32).flatMap fun n => leS 4 (Sparse.at 0 s.wb.refWord n) ++ leS 4 (Sparse.at 0 s.wb.ffWord n)) ++
    ((List.range 64).flatMap fun l =>
      let x := s.wbLane l
      leBytes 1 (s.getF Reg.WB_LANE_STAT_STATE l) ++ leBytes 1 (ofBool x.demoted) ++ leBytes 1 x.scores.length ++
        leBytes 1 (s.getF Reg.WB_LANE_STAT_HITS l) ++ leBytes 2 (scoreBits x.scores) ++ leBytes 2 0)

/-- The record latched in frame `f` with FLAGS and journal. -/
def State.stateRecord (s : State) (f flags : Nat) (journal : List (Nat × Nat)) : List Byte :=
  let tiles := (List.range 96).filter fun t => (s.tile t).run
  let logic := (List.range 32).filter fun l => s.isE Reg.LT_LG_CTL_ENABLE l
  let lanes := (List.range 48).filter fun n => s.isE Reg.PWM_LANE_CFG_ENABLE n
  let body := section_ 1 tiles.length (tiles.flatMap s.tileEntry) ++
    section_ 2 logic.length (logic.flatMap fun l => s.logicEntry l (16 * s.frameTime f)) ++
    section_ 3 lanes.length (lanes.flatMap s.laneEntry) ++ section_ 4 1 s.protectionEntry ++ section_ 5 1 s.wbEntry ++
    section_ 6 journal.length (journal.flatMap fun e => leBytes 4 e.1 ++ leBytes 4 e.2)
  let head := fun (crc : Nat) => leBytes 8 f ++ leBytes 4 (32 + body.length) ++ leBytes 2 flags ++ leBytes 2 6 ++
    leBytes 4 (s.getF Reg.CFG_IMAGE_SERIAL) ++ leBytes 4 (s.getF Reg.CFG_LAYER_SERIAL) ++ leBytes 4 s.twn.sent ++ leBytes 4 crc
  head (crc32c (head 0 ++ body)) ++ body

/-- TWIN_STATE_SEND: the holder of the lock sends the record of frame `f`; `final` for the last of a commanded switch. The journal
takes at most 256 writes, the rest waits for the next record, which carries JOURNAL_LAG (R356 to R358). -/
def State.sendRecord (s : State) (f : Nat) (final : Bool) : State :=
  let now := s.twn.journal.take 256
  let rest := s.twn.journal.drop 256
  let flags := ofBool (s.twn.code ≠ 0) + 2 * ofBool final + 4 * s.getF Reg.TWN_STATUS_JOURNAL_LAG
  let a := s.toTwin twinRecord (s.stateRecord f flags now)
  let a := { a with twn := { a.twn with journal := rest, sent := s.twn.sent + 1 } }
  (a.bump Reg.TWN_COPY_TX).setF Reg.TWN_STATUS_JOURNAL_LAG (ofBool (rest ≠ []))

/-! ## Reading a record -/

/-- Whether a record is whole: its length and its CRC, taken with that field zero. -/
def recordGood (bs : List Byte) : Bool :=
  32 ≤ bs.length && leAt bs 8 4 = bs.length &&
    crc32c (bs.take 28 ++ leBytes 4 0 ++ bs.drop 32) = leAt bs 28 4

/-- The sections of a record from offset `o` on: kind, count, entries. -/
def sections (bs : List Byte) : Nat → Nat → List (Nat × Nat × List Byte)
  | 0, _ => []
  | n + 1, o => (leAt bs o 1, leAt bs (o + 2) 2, slice bs (o + 8) (leAt bs (o + 4) 4)) :: sections bs n (o + 8 + leAt bs (o + 4) 4)

/-- The entries, `n` bytes each, of a record's section of a kind. -/
def entries (bs : List Byte) (kind n : Nat) : List (List Byte) :=
  (sections bs (leAt bs 14 2) 32).flatMap fun e =>
    if e.1 = kind then (List.range e.2.1).map fun i => slice e.2.2 (n * i) n else []

/-- A signed field of a record. -/
def leSAt (bs : List Byte) (o n : Nat) : Int := signed (8 * n) (leAt bs o n)

/-- The journal of a record. -/
def recordJournal (bs : List Byte) : List (Nat × Nat) := (entries bs 6 8).map fun e => (leAt e 0 4, leAt e 4 4)

/-! ## Loading a record (R359, R364, R116) -/

/-- A loop tile takes its output, states, bank, ramp position and held feed-forward values, never its LOOP_FAULT. -/
def State.loadTile (s : State) (e : List Byte) : State :=
  let t := leAt e 0 1
  if t < 96 && (s.tile t).run then
    let a := s.setTile t { s.tile t with waiting := false, load := 0, ff0 := leSAt e 12 4, ff1 := leSAt e 16 4 }
    let a := (a.setS Reg.LT_OUT_U (leSAt e 4 4) t).setF Reg.LT_OUT_INVALID (ofBool (s.isF Reg.LT_STAT_LOOP_FAULT t)) t
    let a := (a.setS Reg.LT_RAMP_POS (leSAt e 8 4) t).setMapBit Reg.LT_BANK_ACT t (bitOf (leAt e 1 1) 1)
    a.setComp t ⟨leSAt e 20 8, leSAt e 28 8, leSAt e 36 8, leSAt e 44 8⟩
  else s

/-- Timer `n` takes what its 7 bytes say at the instant `at16`. -/
def State.loadTimer (s : State) (n at16 v : Nat) : State :=
  let left := v / 4
  let a := (s.setF Reg.LT_TMR_STAT_EXPIRED (v % 2) n).setF Reg.LT_TMR_STAT_CONFLICT (v / 2 % 2) n
  if left = 0 then a.timerHalt n
  else ({ a with lt := { a.lt with tmrDue := Sparse.insert a.lt.tmrDue n (at16 + 32 * left) } }).setF Reg.LT_TMR_STAT_RUNNING 1 n

/-- A logic tile takes its state, output, dwell counter and timers. -/
def State.loadLogic (s : State) (f : Nat) (e : List Byte) : State :=
  let l := leAt e 0 1
  if l < 32 && s.isE Reg.LT_LG_CTL_ENABLE l then
    let a := { s with lt := { s.lt with lgSince := Sparse.upd 0 s.lt.lgSince l (16 * s.frameTime f - leAt e 8 8) } }
    let a := (a.setF Reg.LT_LG_STAT_STATE (leAt e 1 1) l).setF Reg.LT_LG_STAT_CNT (leAt e 4 4) l
    let a := a.setF Reg.LT_LG_STAT_OUT (leAt e 2 1) l
    (List.range 16).foldl (fun (a : State) n => a.loadTimer n (16 * s.frameTime f) (leAt e (16 + 7 * n) 7)) a
  else s

/-- A lane takes its on-time and its state; HELD only where the module's own tile is in loop fault. -/
def State.loadLane (s : State) (e : List Byte) : State :=
  let n := leAt e 0 1
  let st := leAt e 1 1
  if n < 48 && (s.lane n).grid.isSome && !s.tripped (s.effF Reg.PWM_LANE_CFG_GROUP n) then
    let own := match s.tileOf n with | some t => s.isF Reg.LT_STAT_LOOP_FAULT t | none => false
    let a := s.setLane n { s.lane n with on := leAt e 4 4, applied := leAt e 4 4, readd := none, shedAt := none, waitP0 := false }
    (a.setF Reg.PWM_LANE_ONTIME (leAt e 4 4) n).setLaneSt n (if st = laneHeld && !own then laneRun else st)
  else s

/-- At the record's boundary `at16`: shed levels, which the phases follow also where the lane had not yet reached its commit (R111), the
trips and fault latches of either twin, the CLOSE bits; a drive that a tripped group holds open stays open. -/
def State.loadProtection (s : State) (at16 : Nat) (e : List Byte) : State :=
  let a := (List.range 4).foldl (fun (a : State) c =>
    let b := (a.setF Reg.PWM_CONV_STAT_LEVEL (leAt e (16 * c) 1) c).setF Reg.PWM_CONV_STAT_TARGET (leAt e (16 * c + 1) 1) c
    let b := b.setF Reg.PWM_CONV_STAT_PENDING (leAt e (16 * c + 2) 1) c
    b.setConv c { b.conv c with reqAt := 0, asks := if b.shedTarget c < b.shedLevel c then [(b.shedTarget c, 0)] else [] }) s
  let a := (List.range 4).foldl (fun (a : State) c => if a.suspended c then a else a.matchShed c (a.nextPhase0 c at16)) a
  let a := a.tripGroups (leAt e 64 1) 0 at16
  let a := a.setF Reg.PWM_FLT_LATCH (a.getF Reg.PWM_FLT_LATCH ||| leAt e 65 2)
  let closed := a.getF Reg.PWM_CTR_CLOSED
  let close := (List.range 4).foldl (fun m d => putBit m d (bitOf (leAt e 67 1) d && (bitOf closed d || !a.driveBarred d))) 0
  (a.setF Reg.PWM_CTR_CLOSE close).setF Reg.PWM_CTR_CLOSED close

/-- Windbreak's integrator, powers, words, mode, entry in force and lane scores (06 R134). -/
def State.loadWb (s : State) (e : List Byte) : State :=
  let word := fun (o : Nat) => (List.range 32).foldl (fun (m : Sparse Int) n => Sparse.upd 0 m n (leSAt e (64 + 8 * n + o) 4)) []
  let a := { s with wb := { s.wb with
    x := (leSAt e 0 8 : Rat) / 2 ^ 24, tot := (leSAt e 8 8 : Rat) / 2 ^ 32, force := (leSAt e 8 8 : Rat) / 2 ^ 32, ff := (leSAt e 16 8 : Rat) / 2 ^ 32,
    wasHold := leAt e 24 1 = 0, reserve := leAt e 24 1 = 3, out := none, refWord := word 0, ffWord := word 4 } }
  let a := (a.setF Reg.WB_STATUS_MODE (leAt e 24 1)).setF Reg.WB_STATUS_STEP_AHEAD (leAt e 25 1)
  let a := match a.wb.queue.find? fun x => x.idx = leAt e 32 8 && x.idx ≠ a.get64 Reg.WB_ENTRY_IDX_LO with
    | some x => ({ a with wb := { a.wb with queue := a.wb.queue.filter fun y => x.idx < y.idx } }).applyEntry x a.frame
    | none => a
  (List.range 64).foldl (fun (a : State) l =>
    let o := 320 + 8 * l
    let bits := leAt e (o + 4) 2
    let scores := (List.range (min 16 (leAt e (o + 2) 1))).map (bitOf bits)
    let x := { a.wbLane l with demoted := leAt e (o + 1) 1 = 1, scores := scores, used := [] }
    (((a.setWbLane l x).setF Reg.WB_LANE_STAT_STATE (leAt e o 1) l).setF Reg.WB_LANE_STAT_HITS (leAt e (o + 3) 1) l).setF
      Reg.WB_LANE_STAT_MISSES (scores.filter fun b => !b).length l) a

/-- The module takes the states of a record. -/
def State.loadRecord (s : State) (bs : List Byte) : State :=
  let a := (entries bs 1 56).foldl State.loadTile s
  let a := (entries bs 2 128).foldl (fun a e => a.loadLogic (leAt bs 0 8) e) a
  let a := (entries bs 3 16).foldl State.loadLane a
  let a := (entries bs 4 128).foldl (fun (a : State) e => a.loadProtection (16 * s.frameTime (leAt bs 0 8)) e) a
  (entries bs 5 832).foldl State.loadWb a

/-! ## The replay (R359, R364) -/

/-- A kept sample runs again: what the module's own sense ingress gave as it stood then, tile outputs and Windbreak words as
they stand now; no lane is touched. -/
def State.replaySample (s : State) (x : TileSample) : State :=
  let ins := List.zipWith (fun (o : Option Nat) (v : Int × Nat) =>
    match o with
    | none => v
    | some sid => match s.resolve portHops (x.tile / 24) sid with
      | some src => if src < 0x30 || (0xA0 ≤ src && src < 0xA8) then v else s.plainSource src
      | none => (0, flagInvalid)) (s.tileSrcs x.tile) x.ins
  { s.tileSample x.tile x.at16 x.stamp x.place x.upset x.sram ins with pwm := s.pwm }

/-- The kept samples from frame `f0` up to instant `t16` run again. -/
def State.replayUpTo (s : State) (f0 t16 : Nat) : State :=
  (s.twn.samples.filter fun x => 16 * s.frameTime f0 ≤ x.at16 && x.at16 < t16).foldl State.replaySample s

/-- Whether filter tile `t` filters a delta-sigma channel, directly or through other tiles. -/
def State.dsTile (s : State) : Nat → Nat → Bool
  | 0, _ => false
  | n + 1, t =>
    let i := s.effF Reg.SNS_FT_CFG_INPUT t
    i < 32 || (64 ≤ i && i < 112 && s.dsTile n (i - 64))

/-- Whether some input of loop tile `t` comes from neither a delta-sigma channel, a tile nor a Windbreak word. -/
def State.inexactInput (s : State) (t : Nat) : Bool :=
  (s.tileSrcs t).any fun o =>
    match o with
    | none => false
    | some sid => match s.resolve portHops (t / 24) sid with
      | some src => if src < 0x30 then !s.dsTile 48 src else 0xA0 ≤ src && src < 0xA8
      | none => false

/-- The loop tiles that need not agree exactly. -/
def State.inexactTiles (s : State) : List Nat :=
  s.reached 96 ((List.range 96).filter fun t => (s.tile t).run && s.inexactInput t)

/-- The differences of a replayed state with the entries of the record latched one frame later: mismatches and the greatest
difference of U. A tile in LOOP_FAULT in either record is not compared. -/
def State.compareRecord (s : State) (old new : List Byte) : Nat × Nat :=
  let faulted := ((entries old 1 56) ++ (entries new 1 56)).filterMap fun e =>
    if bitOf (leAt e 1 1) 0 then some (leAt e 0 1) else none
  let loose := s.inexactTiles
  let tol := s.getF Reg.TWN_SHADOW_CFG_SHADOW_TOL_AD
  (entries new 1 56).foldl (fun (m : Nat × Nat) e =>
    let t := leAt e 0 1
    if 96 ≤ t || !(s.tile t).run || t ∈ faulted then m
    else
      let du := (s.getS Reg.LT_OUT_U t - leSAt e 4 4).natAbs
      let di := ((s.comp t).si - leSAt e 44 8).natAbs
      let slack := if t ∈ loose then tol else 0
      (if slack < du || slack * 2 ^ 20 < di then m.1 + 1 else m.1, max m.2 du)) (0, 0)

/-- Whether the step from one state to another recorded a residue mismatch. -/
def residueIn (s t : State) : Bool := (t.events.drop s.events.length).any fun e => decide (e.code = 0x0301 ∨ e.code = 0x0302)

/-- The replay of the frame that ends with record `new`: health counts of the interval, and the mismatches. -/
def State.replayFrame (s : State) (new : List Byte) : State × Nat :=
  match s.twn.copy with
  | none => (s, 0)
  | some old =>
    let f := leAt old 0 8
    if f + 1 = leAt new 0 8 then
      let n := (s.twn.samples.filter fun x => 16 * s.frameTime f ≤ x.at16 && x.at16 < 16 * s.frameTime (f + 1)).length
      let a := s.replayUpTo f (16 * s.frameTime (f + 1))
      let m := a.compareRecord old new
      ({ a with twn := { a.twn with
          hSamples := s.twn.hSamples + n, hMismatch := s.twn.hMismatch + m.1, hMax := max s.twn.hMax m.2,
          hResidue := s.twn.hResidue || residueIn s a } }, m.1)
    else (s, 0)

/-! ## READY and DEGRADED (R374) -/

/-- Whether a STANDBY is READY at `now`. -/
def State.standbyReady (s : State) (now : Nat) : Bool :=
  (match s.twn.report with | some (t, v) => decide (v ≤ 1 ∧ now ≤ t + 20000000) | none => false) &&
    s.frame ≤ s.twn.appliedF + 1 && s.twn.serials = (s.getF Reg.CFG_IMAGE_SERIAL, s.getF Reg.CFG_LAYER_SERIAL)

/-- READY and DEGRADED follow what they show. -/
def State.showReady (s : State) (now : Nat) : State :=
  let st := s.getF Reg.TWN_STATUS_STATE
  let ready := if st = 2 then s.standbyReady now else st = 1 && s.twn.peerReady
  (s.readyIs ready).setF Reg.TWN_STATUS_DEGRADED (ofBool (st = 1 && !ready))

/-! ## A record arrives -/

/-- A good record is counted and its frame and serials kept. -/
def State.recordTaken (s : State) (bs : List Byte) : State :=
  let a := { s with twn := { s.twn with
    appliedF := leAt bs 0 8, serials := (leAt bs 16 4, leAt bs 20 4), hOk := s.twn.hOk + 1 } }
  (a.bump Reg.TWN_COPY_RX).setF Reg.TWN_PATHS_COPY_AGE 0

/-- The samples of a commanded taker run from the last record's frame on, and it goes live (R377). -/
def State.takerLive (s : State) : State :=
  let f := match s.twn.copy with | some bs => leAt bs 0 8 | none => s.frame
  let a := match s.twn.copy with | some bs => s.loadRecord bs | none => s
  let a := (a.twn.samples.filter fun x => 16 * s.frameTime f ≤ x.at16).foldl State.replaySample a
  { a with twn := { a.twn with samples := [], commanded := false, preLeft := some 0, applyJ := a.twn.applyJ ++ a.twn.faultJournal, faultJournal := [] } }

/-- STATE_RECORD_RECEIVE at `now` (R12, R358, R359, R377): a module that follows loads the record after replaying the frame
before it; a FAULTED record gives its journal only; the FINAL record of a commanded switch starts the taker. -/
def execStateRecordReceive (message : List Byte) (now : Nat) (s : State) : Res :=
  .next <|
    let st := s.getF Reg.TWN_STATUS_STATE
    let follows := (st = 2 || st = 5 || st = 3) && !s.isF Reg.TWN_STATUS_LOCK && s.twn.preLeft.isNone
    if !(follows || s.twn.commanded) then s
    else if !recordGood message then
      let a := { s.bump Reg.TWN_COPY_ERR with twn := { s.twn with hErr := s.twn.hErr + 1, good := 0 } }
      if a.twn.commanded && a.isF Reg.TWN_STATUS_LOCK then a.takerLive else a
    else
      let flags := leAt message 12 2
      let journal := recordJournal message
      let r := s.replayFrame message
      let a := (r.1.recordTaken message).setF Reg.TWN_STATUS_JOURNAL_LAG (ofBool (bitOf flags 2))
      let a := if bitOf flags 0 then { a with twn := { a.twn with faultJournal := a.twn.faultJournal ++ journal } }
        else
          let b := a.loadRecord message
          { b with twn := { b.twn with
              copy := some message, faultJournal := [], applyJ := b.twn.applyJ ++ journal,
              good := if st = 5 then (if r.2 = 0 then b.twn.good + 1 else 0) else 0,
              samples := b.twn.samples.filter fun x => 16 * s.frameTime (leAt message 0 8) ≤ x.at16 } }
      if bitOf flags 1 && a.twn.commanded then a.takerLive
      else if st = 3 then a
      else ((a.setCounter (leAt message 0 8)).setF Reg.CLK_STATUS_FOLLOWER 1).showReady now

end Sys2Proof.Machine
end

