-- ==== Sys2Proof/Machine/Twin.lean ====
section
/-!
DEFINITION. The twin unit (15): heartbeats and declarations, the interlock and the lock, switch-over, commands, the health report.
Instants in ns. Path 0 is Stake, 1 is Binder.
-/

namespace Sys2Proof.Machine

/-! ## Claims for the voice (R369) -/

/-- CLAIM with a cause goes to the arbiters of the rack. -/
def State.sendClaim (s : State) (cause : Nat) : State :=
  s.ldgSend 0 9 none (beBytes 1 s.shelf ++ beBytes 1 cause ++ beBytes 1 (s.getF Reg.TWN_PATHS_STAKE) ++
    beBytes 1 (s.getF Reg.TWN_PATHS_BINDER) ++ beBytes 4 0)

/-! ## Results and roles -/

/-- RESULT of TWN_STATUS is written. -/
def State.twinResult (s : State) (code : Nat) : State := (s.setF Reg.TWN_STATUS_RESULT code).cause 2 6

/-- The module's twin state. -/
def State.twinSt (s : State) : Nat := s.getF Reg.TWN_STATUS_STATE

/-- FORERUNNER mode is in force (R379). -/
def State.forerunner (s : State) : Bool := s.isF Reg.TWN_STATUS_FORERUNNER

/-- RESYNC begins at `now` (R376). -/
def State.startResync (s : State) (now : Nat) : State :=
  let a := { s with twn := { s.twn with resyncAt := some now, good := 0, samples := [], copy := none, report := none, waitFrom := none } }
  (a.shadow.twinState 5).toTwin twinResync []

/-- A module that finds its twin's claim asserted at the end of STARTING follows it (R351, R379). -/
def State.follow (s : State) (now : Nat) : State := if s.forerunner then s.startResync now else s.quarantine 0

/-- A standby is admitted or no longer is; a layer that waits for COMMIT is then staged by a standby only where none is admitted (R38). -/
def State.admitTwin (s : State) (b : Bool) : State :=
  if s.twn.admitted = b then s
  else
    let a := { s with twn := { s.twn with admitted := b } }
    if s.cfgSt = cfgChecking || s.cfgSt = cfgStaged then a.setF Reg.CFG_STATUS_TWIN_STAGED (ofBool !b) else a

/-! ## The interlock (R352 to R354) -/

/-- The module asserts its claim at `now`. -/
def State.assertClaim (s : State) (now : Nat) : State :=
  if s.twn.claim then s
  else ({ s with twn := { s.twn with claim := true, claimAt := now, keeperAt := now, waitFrom := none } }).line 0 true

/-- Filter tiles on DRIVEN groups see their clock pass between the twins: the window that holds the transfer carries INVALID
(R366). -/
def State.clockPasses (s : State) : State :=
  (List.range 48).foldl (fun (a : State) t =>
    let i := a.effF Reg.SNS_FT_CFG_INPUT t
    if i < 32 && a.ftRuns t && !a.isE Reg.SNS_GRP_CFG_MODE (i / 4) then
      let f := a.ft t
      match f.hist with
      | (v, fl) :: rest => a.setFt t { f with hist := (v, joinFlags fl flagInvalid) :: rest }
      | [] => a
    else a) s

/-- The module loses the lock at `now`: `why` 0 handover, 1 commanded, 2 keeper (R353, R355). Its power state becomes SHADOW. -/
def State.loseLock (s : State) (why now : Nat) : State :=
  let a := State.admitTwin { s with twn := { s.twn with claim := false, holder := false, switching := false, req := false } } false
  let a := ((a.setF Reg.TWN_STATUS_LOCK 0).cause 2 1).setF Reg.TWN_STATUS_DEGRADED 0
  let a := (((a.pwmLock false).pklRelease).showPins.senseDomains).clockPasses
  let a := (a.line 0 false).bump Reg.TWN_SWITCHES_RELEASED
  let a := a.event 0x0C05 0xFFFF (why :: s.peerData)
  a.shadow.diesOn now

/-- The former active after its lock is gone (R365, R375, R377): a commanded switch leaves it STANDBY, anything else in
QUARANTINE. -/
def State.afterLock (s : State) (commanded : Bool) : State :=
  if commanded && !s.twn.thenQuar then
    let a := { s with twn := { s.twn with samples := [], copy := none, report := none } }
    ((a.readyIs false).twinState 2).twinResult 1
  else
    let a := { s with twn := { s.twn with thenQuar := false } }
    let a := if commanded then a.twinResult 1 else a
    a.quarantine (if commanded then 3 else if s.twn.code ≠ 0 then 1 else 4)

/-- A request is sensed by a module that is to let go (R365, R377): the FINAL record goes first in a commanded switch. -/
def State.handOver (s : State) (now : Nat) : State :=
  let cmd := s.twn.switching
  let a := if cmd then s.sendRecord s.frame true else s
  let fault := s.twn.code ≠ 0
  (a.loseLock (if cmd && !fault then 1 else 0) now).afterLock (cmd && !fault)

/-- TWIN_CLAIM_SENSED at `now`: the sense logic finds the twin's claim asserted or released (R352, R353, R365, R351). -/
def execTwinClaimSensed (asserted : Bool) (now : Nat) (s : State) : Res :=
  .next <|
    let a := ({ s with twn := { s.twn with
      twinClaim := asserted, releasedAt := if asserted then s.twn.releasedAt else now } }).setF Reg.TWN_STATUS_TWIN_CLAIM (ofBool asserted)
    if !asserted then a
    else if a.isF Reg.TWN_STATUS_LOCK then if a.twn.code ≠ 0 || a.twn.switching then a.handOver now else a
    else if a.twn.claim && now < a.twn.claimAt + 100 && a.isF Reg.TWN_STATUS_SLOT then
      if a.twinSt = 0 then a.withdraw.follow now else a.withdraw
    else if a.twn.waitFrom.isSome then a.follow now
    else a

/-- The instant of the first period start after `now` of the last lane that drives, in ns (R368). -/
def State.lastLane (s : State) (now : Nat) : Nat :=
  ((List.range 48).map fun n =>
    let x := s.lane n
    match x.grid with
    | some g =>
      if s.laneSt n = laneRun || s.laneSt n = laneHeld || s.laneSt n = laneStarting then
        let t := now * 16
        (if t < g then g else g + ((t - g) / x.per + 1) * x.per) / 16
      else 0
    | none => 0).foldl max now

/-- LOCK_ACQUIRE at `now`: the twin's claim has been released for 100 ns since the own claim (R353); HOLDER sets and the module is
ACTIVE in RUN (R355, R365, R406). `failAt` is the instant of the fault or command the switch-over time counts from. -/
def execLockAcquire (now failAt : Nat) (s : State) : Res :=
  .next <|
    if s.isF Reg.TWN_STATUS_LOCK || !s.twn.claim || s.twn.twinClaim || now < max s.twn.claimAt s.twn.releasedAt + 100 then s
    else
      let took := s.twinSt = 3
      let keeper := s.getF Reg.TWN_LAST_CAUSE = 2 && (match s.twn.requestAt with | some t => decide (t < s.twn.releasedAt) | none => false)
      let cause := if keeper then 4 else s.getF Reg.TWN_LAST_CAUSE
      let a := { s with twn := { s.twn with holder := true, sent := 0, preLeft := none, requestAt := none, peerReady := false,
                                            journal := [] } }
      let a := if took then (a.admitTwin false).abandonLayer else a.admitTwin false
      let a := ((a.setF Reg.TWN_STATUS_LOCK 1).cause 2 1).setF Reg.CLK_STATUS_FOLLOWER 0
      let a := a.setF Reg.TWN_STATUS_JOURNAL_LAG 0
      let a := ((a.setF Reg.TWN_STATUS_LOCK_BLOCKED 0).twinState 1).showReady now
      let a := ((a.pwmLock true).showPins.senseDomains).clockPasses
      let a := ((a.pklTakeOver now).powerState 0)
      let a := if took then (a.setF Reg.TH_DIE_OPP_OPP 3 0).setF Reg.TH_DIE_OPP_OPP 3 1 else a
      let a := a.diesOn now
      if took then
        let a := (List.range 64).foldl (fun (a : State) l =>
          a.setWbLane l { a.wbLane l with active := none, staged := none, missed := 0, silent := true }) a
        let a := a.ctx.desc.foldl (fun (b : State) e => if e.2.kind = kindJob then b.showJobLane e.2.key else b) a
        let dur := (a.lastLane now - failAt) / 1000
        let a := ((a.bump Reg.TWN_SWITCHES_TAKEN).setF Reg.TWN_LAST_CAUSE cause).setSat Reg.TWN_LAST_DURATION dur
        (a.event 0x0C04 0xFFFF ([cause, dur] ++ a.peerData)).sendClaim (if cause = 3 then 6 else 1)
      else a

/-- KEEPER_EXPIRY at `now`: no refresh for 300 µs at least (R354). -/
def execKeeperExpiry (now : Nat) (s : State) : Res :=
  .next <|
    if s.twn.claim && s.twn.keeperAt + 300000 < now then
      if s.isF Reg.TWN_STATUS_LOCK then (s.loseLock 2 now).afterLock false else s.withdraw
    else s

/-! ## Start-up (R351, R387) -/

/-- SLOT_EXCHANGE at `now`, once the image is applied: `answer` is the twin's slot, shelf and module identifier, none
when none came in the 20 ms since (R387, 17 R400). -/
def execSlotExchange (answer : Option (Nat × Nat × Nat)) (now : Nat) (s : State) : Res :=
  .next <|
    if s.twinSt ≠ 0 || !s.cfg.running || s.twn.exchanged then s
    else
      let slot := s.getF Reg.TWN_STATUS_SLOT
      let a := ({ s with twn := { s.twn with exchanged := true } }).toTwin twinSlot (leBytes 1 slot ++ leBytes 1 s.shelf)
      match answer with
      | some (slot2, shelf2, id) =>
        let a := a.set64 Reg.TWN_PEER_ID_LO id
        if slot2 = slot || shelf2 ≠ s.shelf then
          ((a.setF Reg.SYS_STRAPS_SLOT_CLASH 1).event 0x0C08 0xFFFF ([slot, s.shelf, slot2, shelf2] ++ s.peerData)).quarantine 0
        else if a.twn.twinClaim then a.follow now
        else if slot = 0 then a.assertClaim now
        else { a with twn := { a.twn with waitFrom := some now } }
      | none =>
        if !(s.pwr.imageAt.any fun t => decide (t + 20000000 ≤ now)) then s
        else if a.twn.twinClaim then a.follow now
        else if slot = 0 then a.assertClaim now
        else { a with twn := { a.twn with waitFrom := some now } }

/-- LOCK_WAIT_ELAPSED at `now`: slot B claims after LOCK_WAIT without a claim of its twin (R351). -/
def execLockWaitElapsed (now : Nat) (s : State) : Res :=
  .next <|
    match s.twn.waitFrom with
    | some t =>
      if s.twinSt = 0 && !s.twn.twinClaim && max t s.twn.releasedAt + s.getF Reg.TWN_TIMES_LOCK_WAIT * 1000000 < now then s.assertClaim now
      else s
    | none => s

/-! ## Heartbeats (R360 to R363) -/

/-- MISS_LIMIT in force. -/
def State.missLimit (s : State) : Nat := min 8 (max 2 (s.getF Reg.TWN_CFG_MISS_LIMIT))

/-- BEAT_WIN in force, ns. -/
def State.beatWin (s : State) : Nat := 1000 * min 5 (max 1 (s.getF Reg.TWN_CFG_BEAT_WIN))

/-- The instant at which the twin's last regular beat up to `t` was due: 6.0 µs after the boundary of an even frame (R360), on the grid that
both modules share (R12; DEDUCED, log 100). -/
def State.beatDue (s : State) (t : Nat) : Option Nat :=
  if !s.counting || t < s.frameBase + 6000 then none
  else
    let f := s.frameOf (t - 6000)
    some (s.frameTime (f - f % 2) + 6000)

/-- The registers of a path. -/
def pathState (p : Nat) : Fld := if p = 0 then Reg.TWN_PATHS_STAKE else Reg.TWN_PATHS_BINDER
def pathMisses (p : Nat) : Fld := if p = 0 then Reg.TWN_PATHS_STAKE_MISSES else Reg.TWN_PATHS_BINDER_MISSES
def pathMissCount (p : Nat) : Fld := if p = 0 then Reg.TWN_BEAT_MISS_STAKE else Reg.TWN_BEAT_MISS_BINDER

/-- A beat leaves on both paths: `st` its STATE, NET_DOWN as the port says (R360). -/
def State.sendBeat (s : State) (st : Nat) (netDown : Bool) : State :=
  let flags := st * 32 + s.getF Reg.TWN_STATUS_LOCK * 16 + s.getF Reg.TWN_STATUS_READY * 8 + ofBool netDown * 4 + ofBool s.twn.req * 2
  let m := leBytes 1 0xB5 ++ leBytes 1 s.twn.beatNo ++ leBytes 1 flags ++ leBytes 1 s.twn.code
  let m := m ++ leBytes 1 (crc8 m)
  let a := (s.toTwin twinStake m).toTwin twinBinder m
  { a with twn := { a.twn with beatNo := (s.twn.beatNo + 1) % 256 } }

/-- BEAT_SEND at `now` (R360): the beat of an even frame is due 6 µs after its boundary, an extra beat once CODE, STATE or REQ has changed;
NET_DOWN once both rack ports have been down for 10 ms. A module whose keeper is not refreshed sends none. -/
def execBeatSend (now : Nat) (s : State) : Res :=
  .next <|
    let due : Bool := s.counting && s.frame % 2 = 0 && s.frameTime s.frame + 6000 ≤ now && s.twn.beatF ≠ some s.frame
    let told := (s.twn.code, s.twinSt, s.twn.req)
    let extra := s.twn.beatTold.any fun x => decide (x ≠ told)
    if s.twn.lockstep || 2 < s.getF Reg.PWR_STATUS_STATE || !s.runs 1 || !(due || extra) then s
    else
      let a := s.sendBeat s.twinSt (!s.netUp && s.hnt.netSince + 10000000 ≤ now)
      { a with twn := { a.twn with beatTold := some told, beatF := if due then some s.frame else s.twn.beatF } }

/-- A STANDBY enters TAKING: `cmd` in a commanded switch (R363, R377). -/
def State.enterTaking (s : State) (cmd : Bool) : State :=
  let a := { s with twn := { s.twn with commanded := cmd, preLeft := none, requestAt := none, takeF := s.frame } }
  let a := if cmd then (a.setF Reg.TWN_LAST_CODE 0).setF Reg.TWN_LAST_CAUSE 3 else a
  (a.setF Reg.TWN_STATUS_LOCK_BLOCKED 0).twinState 3

/-- TWIN_DECLARED at `now`: a control-class failure of the twin (R362, R363): `cause` 1 CODE, 2 SILENT. -/
def State.declare (s : State) (cause code now : Nat) : State :=
  if s.twn.declared then s
  else
    let a := { s with twn := { s.twn with declared := true, peerReady := false } }
    let a := a.admitTwin false
    let a := (a.setF Reg.TWN_LAST_CODE code).setF Reg.TWN_LAST_CAUSE cause
    let a := (a.event 0x0C03 0xFFFF ([cause, code, a.getF Reg.TWN_PATHS_STAKE, a.getF Reg.TWN_PATHS_BINDER] ++ s.peerData)).cause 2 2
    if s.twinSt = 2 then
      if s.isF Reg.TWN_CFG_AUTO_SWITCH && s.isF Reg.TWN_STATUS_READY then a.enterTaking false else a
    else if s.twinSt = 1 then (a.sendClaim 2).showReady now
    else a

/-- A commanded switch is abandoned by the active (R378). -/
def State.abandonSwitch (s : State) : State :=
  ({ s with twn := { s.twn with switching := false, req := false, thenQuar := false } }).twinResult 6

/-- BEAT_RECEIVE on a path at `now` (R360 to R363, R369, R377): a bad beat counts for nothing. -/
def execBeatReceive (path now : Nat) (message : List Byte) (s : State) : Res :=
  .next <|
    if 2 ≤ path || message.length ≠ 5 || leAt message 0 1 ≠ 0xB5 || crc8 (message.take 4) ≠ leAt message 4 1 then s
    else
      let seq := leAt message 1 1
      let flags := leAt message 2 1
      let code := leAt message 3 1
      let other := Sparse.at none s.twn.beats (1 - path)
      let clash := match other with
        | some (seq2, _, code2) => decide (seq2 = seq) && (decide (code = 0) != decide (code2 = 0))
        | none => false
      let a := { s with twn := { s.twn with
        beats := Sparse.upd none s.twn.beats path (some (seq, flags, code)), declared := s.twn.declared && code ≠ 0,
        beatDone := match s.beatDue now with
          | some d => if now ≤ d + s.beatWin then Sparse.upd none s.twn.beatDone path (some d) else s.twn.beatDone
          | none => s.twn.beatDone } }
      let a := (a.setF Reg.TWN_STATUS_LAST_CODE code).setF (pathMisses path) 0
      let a := a.setF (pathState path) (if code = 0 then 0 else 2)
      let a := if clash then
          let c := (match other with | some (_, _, x) => x | none => 0)
          let b := ((a.setF Reg.TWN_PATHS_STAKE 3).setF Reg.TWN_PATHS_BINDER 3).bump Reg.TWN_CONFLICTS
          (b.event 0x0C02 0xFFFF ([seq, if path = 0 then code else c, if path = 0 then c else code] ++ s.peerData)).cause 2 4
        else a
      let st2 := bitsOf flags 5 3
      let a := { a with twn := { a.twn with peerReady := st2 = 2 && bitOf flags 3 && code = 0 && !a.twn.declared } }
      let a := a.admitTwin (a.isF Reg.TWN_STATUS_LOCK && st2 = 2)
      let same := match other with | some (_, _, x) => decide (x = code) | none => false
      let a := if code ≠ 0 && !clash && (same || a.getF (pathState (1 - path)) = 1) then a.declare 1 code now else a
      let a := if a.twn.switching && a.isF Reg.TWN_STATUS_LOCK && st2 = 4 then a.abandonSwitch else a
      let down := bitOf flags 2
      let a := if a.twinSt = 2 && down && a.netUp && !a.isVoice && !a.twn.netLost then
          ({ a with twn := { a.twn with netLost := true } }).sendClaim 4
        else if !down then { a with twn := { a.twn with netLost := false } } else a
      let a := if a.twinSt = 2 && bitOf flags 1 && st2 = 1 then a.enterTaking true else a
      a.showReady now

/-- BEAT_MISS on a path at `now`: no good beat within BEAT_WIN of the time one was due (R361, R362); each due beat is missed once. One that
comes in the cycle in which BEAT_WIN ends has arrived (R16). -/
def execBeatMiss (path now : Nat) (s : State) : Res :=
  .next <|
    match if s.beatWin < now then s.beatDue (now - s.beatWin - 1) else none with
    | none => s
    | some d =>
      if 2 ≤ path || (Sparse.at none s.twn.beatDone path).any (fun x => decide (d ≤ x)) then s
      else
        let a := { s with twn := { s.twn with beatDone := Sparse.upd none s.twn.beatDone path (some d) } }
        let a := (a.bump (pathMissCount path)).bump (pathMisses path)
        let n := a.getF (pathMisses path)
        let a := if s.missLimit ≤ n && a.getF (pathState path) ≠ 1 then
            ((a.setF (pathState path) 1).event 0x0C01 0xFFFF ([path, n] ++ s.peerData)).cause 2 4
          else a
        let both := a.getF Reg.TWN_PATHS_STAKE = 1 && a.getF Reg.TWN_PATHS_BINDER = 1
        let code := if a.getF (pathState (1 - path)) = 2 then
            match Sparse.at none a.twn.beats (1 - path) with | some (_, _, c) => c | none => 0
          else 0
        if both then (a.declare 2 0 now).showReady now
        else if code ≠ 0 then (a.declare 1 code now).showReady now
        else a

/-! ## Switch-over (R364 to R367) -/

/-- LOCK_REQUEST at the boundary `now` of the present frame: after a pre-run that passed, or at once in a commanded switch (R365, R377). -/
def execLockRequest (now : Nat) (s : State) : Res :=
  .next <|
    if s.twinSt = 3 && !s.twn.claim && s.twn.requestAt.isNone && now = s.frameTime s.frame && s.twn.takeF < s.frame &&
        (s.twn.commanded || s.twn.preLeft = some 0) then
      (({ s with twn := { s.twn with requestAt := some now } }).assertClaim now)
    else s

/-- LOCK_BLOCKED at `now`: the lock has not come 1 ms after the request (R367). -/
def execLockBlocked (now : Nat) (s : State) : Res :=
  .next <|
    match s.twn.requestAt with
    | some t =>
      if s.twinSt = 3 && !s.isF Reg.TWN_STATUS_LOCK && t + 1000000 < now then
        let a := { s.withdraw with twn := { s.withdraw.twn with requestAt := none, preLeft := none, commanded := false, samples := [] } }
        let st2 := match Sparse.at none s.twn.beats 0 with | some (_, f, _) => bitsOf f 5 3 | none => 0
        let a := ((a.twinState 2).setF Reg.TWN_STATUS_LOCK_BLOCKED 1).sendClaim 3
        (a.event 0x0C06 0xFFFF (st2 :: s.peerData)).showReady now
      else s
    | none => s

/-- NET_BACK at `now`: the rack ports of an ACTIVE have been up for 1 s while its twin holds the voice (R369). -/
def execNetBack (now : Nat) (s : State) : Res :=
  .next <| if s.twinSt = 1 && s.netUp && s.hnt.netSince + 1000000000 < now && !s.isVoice && (s.voiceOf s.shelf).isSome then s.sendClaim 5 else s

/-- TWIN_LANE_CHANGE: one TWIN lane goes down or comes back (R356). -/
def execTwinLaneChange (down : Bool) (s : State) : Res := .next (s.setF Reg.TWN_PATHS_LANE_DOWN (ofBool down))

/-! ## Control-class faults that no other chapter raises (R360) -/

/-- LOCKSTEP: a supervisor pair disagrees; the keeper and the watchdog are no longer refreshed (R354, R399). -/
def execLockstep (s : State) : Res :=
  .next ({ s.controlFault 0x02 with twn := { (s.controlFault 0x02).twn with lockstep := true } })

/-- CLOCK_OUT_OF_RANGE (R360). -/
def execClockOutOfRange (s : State) : Res := .next (s.controlFault 0x03)

/-- RAIL_OUT_OF_RANGE (R360). -/
def execRailOutOfRange (s : State) : Res := .next (s.controlFault 0x04)

/-! ## Commands of TWN_CMD (R376 to R378) -/

/-- TAKING, RESYNC or a commanded switch runs. -/
def State.twinBusy (s : State) : Bool := s.twinSt = 3 || s.twinSt = 5 || s.twn.switching || s.twn.commanded

/-- TWN_ADMIT at `now` (R376, R379). -/
def execTwnAdmit (now : Nat) (s : State) : Res :=
  .next <|
    if s.twinBusy then s.twinResult 2
    else if s.twinSt ≠ 4 then s
    else if s.forerunner then s.twinResult 1
    else (s.twinResult 0).startResync now

/-- A commanded switch begins at the ACTIVE (R377). -/
def State.startSwitch (s : State) (thenQuar : Bool) : State :=
  if s.twinSt = 1 && s.isF Reg.TWN_STATUS_READY then
    ({ s with twn := { s.twn with switching := true, req := true, thenQuar := thenQuar } }).twinResult 0
  else s.twinResult 3

/-- TWN_SWITCH (R377). -/
def execTwnSwitch (s : State) : Res := .next <| if s.twinBusy then s.twinResult 2 else s.startSwitch false

/-- TWN_QUARANTINE (R378): an ACTIVE switches first; any other module enters QUARANTINE. -/
def execTwnQuarantine (s : State) : Res :=
  .next <|
    if s.twinBusy then s.twinResult 2
    else if s.twinSt = 1 then s.startSwitch true
    else if s.twinSt = 2 then (s.quarantine 3).twinResult 1
    else s

/-- TWN_CLEAR (R378). -/
def execTwnClear (s : State) : Res :=
  .next <|
    let a := (((s.setF Reg.TWN_COPY_TX 0).setF Reg.TWN_COPY_RX 0).setF Reg.TWN_COPY_ERR 0).setF Reg.TWN_BEAT_MISS 0
    ((a.setF Reg.TWN_CONFLICTS 0).setF Reg.TWN_SWITCHES 0).setF Reg.TWN_STATUS_RESULT 0

/-! ## The health report (R372, R373) -/

/-- Counters at a report: corrected and poisoned stack reads, corrected SRAM words. -/
def State.eccCounts (s : State) : List Nat :=
  [s.getF Reg.CTX_ECC_CE, s.getF Reg.CTX_ECC_UE, s.getF Reg.CTX_SRAM_CE]

/-- FAIL_BITS of the present interval. -/
def State.failBits (s : State) : Nat :=
  let ue := s.getF Reg.CTX_ECC_UE - s.twn.counts.getD 1 0
  let lanes := ((List.range 64).filter fun l => s.isE Reg.WB_LANE_CFG_EN l).length
  let serials := s.twn.serials ≠ (s.getF Reg.CFG_IMAGE_SERIAL, s.getF Reg.CFG_LAYER_SERIAL)
  let bits : List Bool := [s.twn.hMismatch ≠ 0, s.twn.hResidue, s.getF Reg.TWN_SHADOW_CFG_SHADOW_FC_TOL < s.twn.hFcMax, ue ≠ 0,
    s.twn.hSram ≠ 0, 8 < s.twn.hGap, serials, s.isF Reg.PWR_STATUS_HOLDUP || s.twn.code = 4, s.twn.code = 6,
    s.twn.lockstep || s.twn.code = 2, s.twn.hFc < lanes]
  (bits.zipIdx.map fun e => if e.1 then 2 ^ e.2 else 0).foldl (· + ·) 0

/-- VERDICT: 0 PASS, 1 DEGRADED, 2 FAIL (R373). -/
def State.verdict (s : State) : Nat :=
  let b := s.failBits
  if s.getF Reg.TWN_SHADOW_CFG_SHADOW_FAIL < s.twn.hMismatch || bitOf b 1 || bitOf b 4 || bitOf b 5 || bitOf b 6 || bitOf b 7 ||
      bitOf b 8 || bitOf b 9 then 2
  else if bitOf b 0 || bitOf b 2 || bitOf b 10 || bitOf b 3 then 1
  else 0

/-- The report's bytes; `tHub` in 0.1 °C. -/
def State.healthBytes (s : State) (tHub : Int) : List Byte :=
  let c := s.eccCounts
  let inc := fun i => min 65535 (c.getD i 0 - s.twn.counts.getD i 0)
  let m := leBytes 8 s.frame ++ leBytes 1 s.twinSt ++ leBytes 1 s.verdict ++ leBytes 2 s.failBits ++ leBytes 4 s.twn.hSamples ++
    leBytes 4 s.twn.hMismatch ++ leBytes 4 s.twn.hMax ++ leBytes 2 s.twn.hFc ++ leBytes 2 (min 65535 s.twn.hFcMax) ++
    leBytes 4 s.twn.hOk ++ leBytes 2 s.twn.hErr ++ leBytes 2 s.twn.hGap ++ leBytes 4 (s.ctx.scrub * 2 ^ 32 / (stackSize / 64)) ++
    leBytes 2 (inc 0) ++ leBytes 2 (inc 1) ++ leBytes 2 (inc 2) ++ leBytes 2 s.twn.hSram ++
    leBytes 4 (s.getF Reg.CFG_IMAGE_SERIAL) ++ leBytes 4 (s.getF Reg.CFG_LAYER_SERIAL) ++ leS 2 tHub ++ leBytes 2 0
  m ++ leBytes 4 (crc32c m)

/-- A report shows in TWN_HEALTH. -/
def State.showHealth (s : State) (bs : List Byte) : State :=
  (List.range 16).foldl (fun (a : State) k => a.setF Reg.TWN_HEALTH (leAt bs (4 * k) 4) k) s

/-- HEALTH_REPORT at `now`: published, shown, the interval's counts begin anew; with verdict FAIL a STANDBY sends CODE SELF and
enters QUARANTINE. -/
def State.healthReport (s : State) (tHub : Int) (now : Nat) : State :=
  let v := s.verdict
  let bs := s.healthBytes tHub
  let a := (s.toTwin twinHealth bs).showHealth bs
  let a := { a with twn := { a.twn with
    report := some (now, v), counts := s.eccCounts, hSamples := 0, hMismatch := 0, hMax := 0, hResidue := false, hFc := 0,
    hFcMax := 0, hOk := 0, hErr := 0, hGap := 0, hSram := 0 } }
  if v = 2 && s.twinSt = 2 then (a.controlFault 0x08).quarantine 0 else a.showReady now

/-- HEALTH_REPORT_RECEIVE at `now`: an ACTIVE shows its twin's report (R372, R374). -/
def execHealthReportReceive (message : List Byte) (now : Nat) (s : State) : Res :=
  .next <|
    if s.twinSt ≠ 1 || message.length ≠ 64 || crc32c (message.take 60) ≠ leAt message 60 4 then s
    else
      let bad := leAt message 9 1 = 2
      let a := (s.showHealth message).causeIf bad 2 5
      ({ a with twn := { a.twn with peerReady := a.twn.peerReady && !bad } }).showReady now

/-! ## The frame boundary (R354, R356, R358, R364) -/

/-- What the twin unit does at the boundary of frame `f`, once the frame's settings are in force: the keeper is refreshed, the
holder sends its record, a follower's age and gap count, the pre-run runs down. -/
def State.twinFrame (s : State) (f now : Nat) : State :=
  let a := s.setF Reg.TWN_STATUS_FORERUNNER (s.getF Reg.TWN_CFG_FORERUNNER)
  let a := if a.twn.lockstep then a else { a with twn := { a.twn with keeperAt := now } }
  let a := if a.isF Reg.TWN_STATUS_LOCK && a.twn.commanded then a.takerLive else a
  let a := if a.isF Reg.TWN_STATUS_LOCK then a.sendRecord f false else a.bump Reg.TWN_PATHS_COPY_AGE
  let run := if f ≤ a.twn.appliedF + 1 then 0 else a.twn.hRun + 1
  let a := { a with twn := { a.twn with
    hRun := run, hGap := max a.twn.hGap run, preLeft := a.twn.preLeft.map fun n => n - 1 } }
  a.showReady now

end Sys2Proof.Machine
end

