-- ==== Sys2Proof/Machine/Reset.lean ====
section
/-!
DEFINITION. What the three kinds of reset do to the state (17 R397, R398, 19 R453), what the fuses put into registers (19 R439,
R449, R452), and where start-up begins again.
-/

namespace Sys2Proof.Machine

/-! ## Fuses (19) -/

/-- The number of bits of LC_COUNT blown, when they are contiguous from bit 0 (R439). -/
def thermometer (count : Nat) : Option Nat := (List.range 10).find? fun n => count = 2 ^ n - 1

/-- The life-cycle state the fuses give (R439). -/
def fuseState (count : Nat) (retired : Bool) : Nat :=
  if retired then 4
  else match thermometer count with
    | some 0 => 0
    | some n => if n % 3 = 0 then 3 else n % 3
    | none => 4

/-- The returns used (R439). -/
def fuseReturns (count : Nat) : Nat := match thermometer count with | some n => n / 3 | none => 0

/-- The kind of a key slot by index (19, SEC_SLOT). -/
def slotKind (i : Nat) : Nat := if i < 8 then 0 else if i < 16 then 1 else 2

/-- SEC_SLOT of a slot shows what the fuses hold; a slot whose region failed its check is treated as revoked (R452). -/
def State.showSlot (s : State) (i : Nat) : State :=
  let w := Sparse.at 0 s.sec.fused i
  s.wr (Reg.SEC_SLOT.addr i 0) (BitVec.ofNat 32 (putBit (w + slotKind i * 2 ^ 28) 30 (bitOf w 30 || bitOf s.sec.bad (8 + i))))

/-- SEC_AGREE_PUB: x then y, zero in BLANK and RETIRED. -/
def State.showAgree (s : State) : State :=
  let pub := Config.agreePub s.sec.seed
  (List.range 24).foldl (fun (a : State) k =>
    a.wr (Reg.SEC_AGREE_PUB.addr k 0)
      (if s.lcState = 0 || s.lcState = 4 then 0#32 else BitVec.ofNat 32 (beAt pub (4 * k) 4))) s

/-- LCS_MIN_IMG and LCS_MIN_FW show the last word written (R449). -/
def State.showMins (s : State) : State :=
  (s.setF Reg.LCS_MIN_IMG (s.sec.minImg.getLast?.getD 0)).setF Reg.LCS_MIN_FW (s.sec.minFw.getLast?.getD 0)

/-- The registers take what the fuses hold; a life-cycle field that failed its check reads as RETIRED (R452). -/
def State.fuseRegs (s : State) : State :=
  let a := s.setF Reg.LCS_STATUS_STATE (if bitOf s.sec.bad 2 then 4 else fuseState s.sec.lcCount s.sec.retired)
  let a := (a.setF Reg.LCS_STATUS_RETURNS (fuseReturns s.sec.lcCount)).showMins
  ((List.range 24).foldl State.showSlot a).showAgree

/-- Fuses of identity or calibration that failed their check keep the module in the boot loader (R452). -/
def State.fuseHalt (s : State) : State :=
  if bitOf s.sec.bad 0 || bitOf s.sec.bad 1 then
    { s.setF Reg.PWR_STATUS_START_FAIL 4 with pwr := { s.pwr with stuck := true } }
  else s

/-- Whether a register shows identity or factory calibration from the fuses (03 R66, 10, 20). -/
def fuseWord (a : Nat) : Bool :=
  a = 0x4 || a = 0x8 || a = 0xC || a = 0x80008 || a = 0x8000C ||
    (0x41000 ≤ a && a < 0x41000 + 42 * 64 && (a % 64 = 0x10 || a % 64 = 0x14))

/-- What the island keeps through every reset: fuses, how their last check ended, and the firmware in flash. -/
def SecState.fuses (x : SecState) : SecState :=
  { vkey := x.vkey, skey := x.skey.filter fun e => 8 ≤ e.1, fused := x.fused, lcCount := x.lcCount, retired := x.retired,
    minImg := x.minImg, minFw := x.minFw, seed := x.seed, firmware := x.firmware, bootFuse := x.bootFuse, bad := x.bad }

/-! ## What a cold or warm reset keeps (00 R5, 17 R397) -/

/-- A word of the SYS, CLK or PWR block through a cold or warm reset: fields with code RW, RWL or W1C take their Reset value, what
hardware sets stays, for the domain AON does not restart. No register of the map has code RWS. -/
def resetWord (a : Nat) (v : Word) : Word :=
  match regRow? a with
  | some r =>
    let m := BitVec.ofNat 32 (r.rw ||| r.rwl ||| r.w1c)
    (v &&& ~~~m) ||| (BitVec.ofNat 32 r.reset &&& m)
  | none => 0#32

/-- The words kept: those of AON, PWR_RESET_CAUSE whole, fuse words; after KEEP also what the estimator and the CC channels show.
The contacts go high-impedance (R398), so SYS_PIN does not stay. -/
def State.keptRegs (s : State) (island : Bool) : Sparse Word :=
  s.regs.foldl (fun (m : Sparse Word) (e : Nat × Word) =>
    if e.1 = 0x20010 || fuseWord e.1 then Sparse.put regReset m e.1 e.2
    else if (e.1 < 0x30000 && !(0x1000 ≤ e.1 && e.1 < 0x1080)) || (island && 0xC0000 ≤ e.1 && e.1 < 0xD0000) then
      Sparse.put regReset m e.1 (resetWord e.1 e.2)
    else m) []

/-! ## Start-up positions (17 R398, R401, R402) -/

/-- Domains of the always-on island and the boot loader; those that the PLLs feed; those that FAST order runs from FAST. -/
abbrev islandDomains : List Nat := [12, 13, 29, 32, 33, 35, 36, 40]
abbrev pllDomains : List Nat := [1, 2, 11, 15, 16, 17, 18, 19, 20, 21, 22, 30, 34, 37, 38, 39]
abbrev fastDomains : List Nat := [1, 34, 39]

/-- Exactly the domains of a list run. -/
def State.onlyRuns (s : State) (ns : List Nat) : State :=
  ((s.setF Reg.PWR_DOM_STATUS_LO_RUNS 0).setF Reg.PWR_DOM_STATUS_HI_RUNS 0).setRunsAll ns true

/-- Every domain that the PLLs feed runs; HOSTP waits for PCIE_PERST_N (16 R392); the dies start at OP0. -/
def State.pllsOn (s : State) (now : Nat) : State :=
  let a := (s.setRunsAll pllDomains true).setF Reg.CLK_STATUS_PLL_LOCK 1
  (a.setRuns 14 (!s.host.perst)).diesOn now

/-- Start-up is at the regulators (START_STEP 1): the island runs, and in FAST order CORE, SEC and LOG run from FAST (R402). -/
def State.atRegulators (s : State) : State :=
  let a := s.onlyRuns islandDomains
  let a := (a.setF Reg.PWR_STATUS_START_STEP 1).setF Reg.CLK_STATUS_PLL_LOCK 0
  if s.isF Reg.PWR_STATUS_ORDER then a.setF Reg.CLK_STATUS_ON_FAST 0
  else (a.setRunsAll fastDomains true).setF Reg.CLK_STATUS_ON_FAST 1

/-- The step after the oscillators: memory in SEQUENCED order; in FAST order firmware verification goes on beside it. -/
def State.afterClocks (s : State) : State :=
  s.setF Reg.PWR_STATUS_START_STEP (if s.isF Reg.PWR_STATUS_ORDER then 3 else if s.pwr.fwRuns then 5 else 4)

/-- Start-up begins again from the step after the last step that holds (R398): regulators and oscillators hold while the PLLs are
locked. -/
def State.startAgain (s : State) (locked : Bool) : State :=
  if locked then ((s.onlyRuns islandDomains).pllsOn 0).afterClocks
  else if s.getF Reg.PWR_STATUS_START_STEP = 2 then s.atRegulators.setF Reg.PWR_STATUS_START_STEP 2
  else s.atRegulators

/-- The slot, and the twin's claim as the contact shows it, in TWN_STATUS. -/
def State.showTwin (s : State) : State :=
  (s.setF Reg.TWN_STATUS_SLOT (s.getF Reg.SYS_STRAPS_TWIN_SLOT)).setF Reg.TWN_STATUS_TWIN_CLAIM (ofBool s.twn.twinClaim)

/-- The claim on the interlock is released by every reset (R398). -/
def State.dropClaim (s : State) : State := if s.twn.claim then s.line 0 false else s

/-! ## Cold and warm reset (R397, R398) -/

/-- Module time begins anew: an instant of the old module time, counted from the reset at `now`. -/
def rebase (t : Option Int) (now : Nat) : Option Int := t.map (· - (now : Int))

/-- The state as a cold or warm reset, or the wake from KEEP, leaves it before start-up goes on: `island` tells that the island kept
its state through KEEP (R408). No field carries code RWS, so the two kinds of reset keep the same. INCARNATION goes up at each start (10 R238). -/
def State.restarted (s : State) (island : Bool) (now : Nat) : State :=
  { State.reset with
    regs := s.keptRegs island, outbox := s.dropClaim.outbox, free := s.free, pending := s.pending,
    waiting := s.waiting.filter fun x => x.path = 0,
    cfg := { slot0 := s.cfg.slot0, slot1 := s.cfg.slot1 },
    sns := if island then { ccAcc := s.sns.ccAcc, ccRem := s.sns.ccRem } else {},
    est := if island then { s.est with clock := s.est.clock + (now - s.est.last), last := 0 } else {},
    sec := s.sec.fuses,
    twn := { twinClaim := s.twn.twinClaim },
    pwr := { rtc := s.pwr.rtc.map (· + ((now / 1000 : Nat) : Int)), wdtAt := rebase s.pwr.wdtAt now, expiries := s.pwr.expiries,
             stackHot := s.pwr.stackHot, recover := s.pwr.recover, held := s.pwr.held, lostAt := rebase s.pwr.lostAt now },
    hnt := { incarnation := s.hnt.incarnation + 1 }, log := if island then s.log else s.log.kept,
    host := { perst := s.host.perst } }

/-- A cold or warm reset at `now`, entered and released: start-up goes on from the step that holds. -/
def State.resetAt (s : State) (now : Nat) : State :=
  let locked := s.isF Reg.CLK_STATUS_PLL_LOCK
  let a := s.restarted false now
  let a := ((a.setF Reg.SYS_FW_SERIAL 0).setF Reg.SYS_STRAPS_SLOT_CLASH 0).setF Reg.CLK_STEER 0
  let a := ((a.setF Reg.CLK_STATUS_COUNTER_SET 0).setF Reg.CLK_STATUS_SLEWING 0).setF Reg.CLK_STATUS_TIME_FAULT 0
  let a := ((a.setF Reg.CLK_STATUS_FOLLOWER 0).setF Reg.PWR_STATUS_STATE 0).setF Reg.PWR_STATUS_START_FAIL 0
  let a := ((a.setF Reg.CLK_STATUS_CC_LOCKED 0).setF Reg.PWR_STATUS_MEM_FAIL 0).setF Reg.PWR_START 0
  ((a.fuseRegs.showTwin).startAgain locked).fuseHalt

/-- A bit of PWR_RESET_CAUSE records the reset. -/
def State.because (s : State) (f : Fld) : State := s.setF f 1

/-! ## Power-on reset (R395, R397) -/

/-- Words that show identity and factory calibration, which the fuses hold. -/
def State.fuseWords (s : State) : Sparse Word := s.regs.filter fun e => fuseWord e.1

/-- Power-on reset: everything takes its reset value but fuses and flash; the straps are latched anew. `straps` is the word
SYS_STRAPS would show without a fuse override; `bad` the fuse regions that failed their check, by bit in the order of R452's table with the
key slots one by one: 0 identity, 1 calibration, 2 life cycle, 3 start-up, 4 device secrets, 5 serials, 8 to 31 the slots. -/
def State.powerOn (s : State) (straps bad : Nat) : State :=
  let base := { State.reset with
    regs := s.fuseWords.foldl (fun (m : Sparse Word) (e : Nat × Word) => Sparse.put regReset m e.1 e.2) State.reset.regs,
    outbox := s.dropClaim.outbox, free := s.free, pending := s.pending,
    cfg := { slot0 := s.cfg.slot0, slot1 := s.cfg.slot1 }, sec := { s.sec.fuses with bad := bad }, twn := { twinClaim := s.twn.twinClaim },
    hnt := { incarnation := s.hnt.incarnation + 1 }, log := s.log.flashOnly, host := { perst := s.host.perst }, pwr := { recover := bitOf straps 1 } }
  let order := if s.sec.bootFuse = 1 then 0 else if s.sec.bootFuse = 2 then 1 else ofBool (bitOf straps 3)
  let a := base.setF Reg.SYS_STRAPS (bitsOf straps 3 5 * 8 + order * 4 + bitsOf straps 1 1 * 2)
  let a := (a.setF Reg.PWR_STATUS_ORDER order).fuseRegs
  let a := (List.range 32).foldl (fun (b : State) r => if bitOf bad r then b.event 0x0E08 0xFFFF [r] else b) a
  let a := if thermometer s.sec.lcCount = none then a.event 0x0E08 0xFFFF [2] else a
  (a.showTwin.atRegulators).fuseHalt

end Sys2Proof.Machine
end

