-- ==== Sys2Proof/Machine/Lcs.lean ====
section
/-!
DEFINITION. The security island (19): the challenge, authorisation records and what they allow, the steps of a change of state,
enrolment and loading of keys, the lock, the debug unlock and the JTAG port.
-/

namespace Sys2Proof.Machine

/-! ## Results and nonces -/

/-- CMD_RESULT of LCS_STATUS: 1 DONE, 2 BUSY, 3 BAD_TOKEN, 4 SIGNATURE, 5 NOT_ALLOWED, 6 IN_SERVICE, 7 STALE_NONCE, 8 NO_SLOT. -/
def State.lcResult (s : State) (code : Nat) : State := (s.setF Reg.LCS_STATUS_CMD_RESULT code).cause 14 0

/-- A command while a change runs sets BUSY (19, LCS_CMD). -/
def State.lcDo (s : State) (f : State → State) : State := if s.isF Reg.LCS_STATUS_PENDING then s.lcResult 2 else f s

/-- LCS_NONCE shows 16 bytes. -/
def State.showNonce (s : State) (bs : List Byte) : State :=
  (List.range 4).foldl (fun (a : State) k => a.wr (Reg.LCS_NONCE.addr k 0) (BitVec.ofNat 32 (leAt bs (4 * k) 4))) s

/-- No nonce is in force. -/
def State.dropNonce (s : State) : State := { (s.showNonce []) with sec := { s.sec with nonce := none } }

/-- LC_CHALLENGE at `now` (R442): a new nonce; one still in force lapses unused. -/
def execLcChallenge (now : Nat) (s : State) : Res :=
  .next <| s.lcDo fun s =>
    let bs := Config.randomBytes s.free 16
    let a := (s.causeIf s.sec.nonce.isSome 14 1).useFree.showNonce bs
    ({ a with sec := { a.sec with nonce := some (bs, now) } }).lcResult 1

/-- NONCE_LAPSE at `now`: 60 s after the draw (R442). -/
def execNonceLapse (now : Nat) (s : State) : Res :=
  .next <|
    match s.sec.nonce with
    | some (_, t) => if t + 60000000000 < now then s.dropNonce.cause 14 1 else s
    | none => s

/-- Whether a record's NONCE is the one in force at `now`; one used in the instant it lapses counts as used (R442). -/
def State.nonceOk (s : State) (bs : List Byte) (now : Nat) : Bool :=
  match s.sec.nonce with
  | some (n, t) => n = bs && now ≤ t + 60000000000
  | none => false

/-! ## Authorisation records (R440, R441) -/

/-- An authorisation record with the firmware after it. -/
structure AuthRec where
  op : Nat
  target : Nat
  nonce : List Byte
  value : Nat
  slot1 : Nat
  slot2 : Nat
  signed : List Byte
  sig1 : List Byte
  sig2 : List Byte
  fw : List Byte
  deriving DecidableEq, Repr

/-- HNT_SELF_ID. -/
def State.selfId64 (s : State) : Nat := s.get64 Reg.HNT_SELF_ID_LO

/-- The bytes a command names, when they lie in the host staging area (09 R200). -/
def State.lcBytes (s : State) : Option (List Byte) :=
  let a := s.get64 Reg.LCS_SRC_ADDR_LO
  let n := s.getF Reg.LCS_SRC_LEN
  if 0x1080000000 ≤ a && a + n ≤ 0x1200000000 then some (s.readStack a n) else none

/-- The record at LCS_SRC_ADDR, when MAGIC, FORMAT, MODULE and length are right (R441, R443). -/
def State.lcRecord (s : State) : Option AuthRec :=
  match s.lcBytes with
  | none => none
  | some bs =>
    let fwLen := leAt bs 0x24 4
    let target := leAt bs 7 1
    let op := leAt bs 6 1
    if 256 ≤ bs.length && bs.length = 256 + fwLen && leAt bs 0 4 = 0x434C4641 && leAt bs 4 2 = 1 && leAt bs 8 8 = s.selfId64 &&
        (fwLen = 0 || (op = 1 && (target = 1 || target = 2))) then
      let fw := bs.drop 256
      some { op := op, target := target, nonce := slice bs 0x10 16, value := leAt bs 0x20 4, slot1 := leAt bs 0x28 1,
             slot2 := leAt bs 0x29 1, signed := bs.take 0x30 ++ fw, sig1 := slice bs 0x30 96, sig2 := slice bs 0x90 96, fw := fw }
    else none

/-- The signatures a record bears: slot and signature. -/
def AuthRec.sigs (r : AuthRec) : List (Nat × List Byte) :=
  (r.slot1, r.sig1) :: if r.slot2 = 0xFF then [] else [(r.slot2, r.sig2)]

/-- Who may sign: a named verification slot, or an enrolled one with a use. -/
inductive Signer where
  | slot (v : Nat)
  | enrolled (use : Nat)
  deriving DecidableEq, Repr

/-- Whether a slot is such a signer now (R440, R446). -/
def State.isSigner (s : State) (g : Signer) (v : Nat) : Bool :=
  match g with
  | .slot k => v = k && s.isF Reg.SEC_SLOT_VALID v && !s.isF Reg.SEC_SLOT_REVOKED v && s.lcState < 4
  | .enrolled use => 2 ≤ v && s.vslotMay v use

/-- Whether every signature verifies and every signer asked for has signed. -/
def State.signedBy (s : State) (r : AuthRec) (gs : List Signer) : Bool :=
  (r.sigs.all fun x => x.1 < 8 && Config.ecdsaVerify (s.vkeyOf x.1) r.signed x.2) &&
    gs.all fun g => r.sigs.any fun x => s.isSigner g x.1

/-- Signatures of slots that no signer asked for covers are recorded as SLOT_MISUSE (R446). -/
def State.misuses (s : State) (r : AuthRec) (gs : List Signer) (use : Nat) : State :=
  r.sigs.foldl (fun (a : State) x => if gs.any (fun g => s.isSigner g x.1) then a else a.misuse x.1 use) s

/-- The signers of a change of state; none for a change outside R440. -/
def changeSigners (src dst count : Nat) : Option (List Signer) :=
  match src, dst with
  | 0, 1 => some [.slot 0]
  | 1, 2 => some [.enrolled useLifecycle]
  | 2, 3 => some [.enrolled useLifecycle, .slot 1]
  | 3, 1 => if thermometer count = some 9 then none else some [.slot 1]
  | 0, 4 => some [.slot 1]
  | 3, 4 => some [.slot 1]
  | 1, 4 => some [.enrolled useLifecycle]
  | 2, 4 => some [.enrolled useLifecycle]
  | _, _ => none

/-- A refused CHANGE is recorded and changes nothing else (R443). -/
def State.lcRefuse (s : State) (op target code : Nat) : State := (s.event 0x0E01 0xFFFF [op, target, code]).lcResult code

/-- Whether a change may be made in the present service (R443). -/
def State.inService (s : State) : Bool :=
  s.isF Reg.TWN_STATUS_LOCK ||
    !(s.getF Reg.TWN_STATUS_STATE = 4 || (s.getF Reg.TWN_STATUS_STATE = 0 && (s.lcState = 0 || s.lcState = 1 || s.lcState = 3)))

/-- LC_CHANGE at `now` (R440 to R444). -/
def execLcChange (now : Nat) (s : State) : Res :=
  .next <| s.lcDo fun s =>
    let peek := s.lcBytes.getD []
    let refuse := s.lcRefuse (leAt peek 6 1) (leAt peek 7 1)
    if s.inService then refuse 6
    else match s.lcRecord with
      | none => refuse 3
      | some r =>
        if r.op ≠ 1 then refuse 3
        else match changeSigners s.lcState r.target s.sec.lcCount with
          | none => refuse 5
          | some gs =>
            if !s.nonceOk r.nonce now then refuse 7
            else if !s.signedBy r gs then (s.misuses r gs useLifecycle).lcRefuse r.op r.target 4
            else
              let a := s.dropNonce
              let a := { a with sec := { a.sec with change := some (r.target, r.fw) } }
              ((a.setF Reg.LCS_STATUS_PENDING 1).setF Reg.LCS_STATUS_STEP 1).lcResult 1

/-! ## The steps of a change (R444) -/

/-- Whether the registers of an address lie in the blocks whose memories R453 wipes. -/
def wipedWord (a : Nat) : Bool := (0x30000 ≤ a && a < 0xD0000) || (0x100000 ≤ a && a < 0x110000) || 0x120000 ≤ a

/-- Every volatile memory is wiped as at a reset, a debug unlock with them (R453); the log queue is counted first. -/
def State.wipeVolatile (s : State) (now : Nat) : State :=
  let a := s.endFreeze now
  let ready := a.isF Reg.CTX_STATUS_READY
  let lost := a.log.queue.length + a.log.spill.length
  let a := { a with
    regs := a.regs.filter fun e => !wipedWord e.1 || fuseWord e.1, eff := [], pathRegs := [], mem := [], poison := [],
    cfg := { slot0 := a.cfg.slot0, slot1 := a.cfg.slot1 }, sns := {}, lt := {}, pwm := {}, wb := {}, ctx := {}, th := {},
    hnt := { incarnation := a.hnt.incarnation }, ldg := {}, cpc := {}, pkl := {}, est := {}, snap := {},
    sec := { a.sec with skey := a.sec.skey.filter fun e => 8 ≤ e.1, loads := [], nonce := none },
    log := { a.log with queue := [], spill := [], page := [] } }
  let a := (a.bumpBy Reg.LOG_LOST lost).showQueue
  let a := (List.range 8).foldl (fun (b : State) k => b.showSlot (8 + k)) (a.dropNonce.setF Reg.LCS_STATUS_DEBUG 0)
  if ready then (a.setF Reg.CTX_STATUS_READY 1).setF Reg.CTX_STATUS_WIPING 0 else a

/-- A slot whose every fuse is blown. -/
def blownWord : Nat := 0xC00000FF

/-- A fused word of SEC_SLOT takes a value and shows. -/
def State.setFused (s : State) (i w : Nat) : State :=
  ({ s with sec := { s.sec with fused := Sparse.upd 0 s.sec.fused i w } }).showSlot i

/-- A slot is destroyed: every bit of its key and word is blown. -/
def State.destroySlot (s : State) (i : Nat) : State :=
  let a := if i < 8 then { s with sec := { s.sec with vkey := Sparse.upd [] s.sec.vkey i (List.replicate 96 0xFF#8) } }
    else { s with sec := { s.sec with skey := Sparse.upd [] s.sec.skey (i - 8) (List.replicate 32 0xFF#8) } }
  a.setFused i blownWord

/-- A slot's revoke fuse is blown. -/
def State.revokeSlot (s : State) (i : Nat) : State := s.setFused i (putBit (Sparse.at 0 s.sec.fused i) 30 true)

/-- Step 3: the fused secret slots are destroyed and V2 to V7 revoked; on a change to RETIRED V0 and V1 are destroyed too. -/
def State.destroyKeys (s : State) (target : Nat) : State :=
  let a := (List.range 8).foldl (fun (b : State) k => b.destroySlot (16 + k)) s
  let a := (List.range 6).foldl (fun (b : State) k => b.revokeSlot (2 + k)) a
  if target = 4 then (a.destroySlot 0).destroySlot 1 else a

/-- The record of SEQ `q` of a new heartwood takes its slot. -/
def State.heartRecord (s : State) (q : Nat) (e : LogEvent) (now : Nat) : State :=
  let bs := dataBytes (dataWidths e.code) e.data
  let r := withSeq q 0 (s.buildRecord e (s.logTime now) s.timeSrc false bs)
  { s with log := { s.log with flash := Sparse.upd [] s.log.flash q r } }

/-- LC_CHANGE_STEP_COMPLETE at `now` (R444): the step that STEP shows ends; the last ends in power-on reset. -/
def execLcChangeStepComplete (now : Nat) (s : State) : Res :=
  .next <|
    match s.sec.change with
    | none => s
    | some (target, fw) =>
      let next := fun (a : State) (k : Nat) => a.setF Reg.LCS_STATUS_STEP k
      match s.getF Reg.LCS_STATUS_STEP with
      | 1 => next s 2
      | 2 => next (s.wipeVolatile now) (if s.lcState = 2 || target = 4 then 3 else 4)
      | 3 => next (s.destroyKeys target) 4
      | 4 =>
        let a := if target = 4 then { s with sec := { s.sec with retired := true } }
          else { s with sec := { s.sec with lcCount := 2 * s.sec.lcCount + 1 } }
        next a.fuseRegs 5
      | 5 =>
        let a := { s with cfg := { s.cfg with slot0 := [], slot1 := [] }, sec := { s.sec with firmware := none } }
        next a.logErase 6
      | 6 => next { s with sec := { s.sec with firmware := if fw = [] then none else some fw } } 7
      | 7 =>
        let a := s.heartRecord 0 ⟨0x0005, 0xFFFF, [s.lcState]⟩ now
        let a := if s.sec.resumed then a.heartRecord 1 ⟨0x0E02, 0xFFFF, [5]⟩ now else a
        let straps := (s.rd (Reg.SYS_STRAPS.addr 0 0)).toNat
        let b := a.powerOn straps s.sec.bad
        let b := (b.setF Reg.PWR_STATUS_AUX_A_OK (s.getF Reg.PWR_STATUS_AUX_A_OK)).setF Reg.PWR_STATUS_AUX_B_OK
          (s.getF Reg.PWR_STATUS_AUX_B_OK)
        b.setF Reg.PWR_AUX (s.getF Reg.PWR_AUX)
      | _ => s

/-- The state that the first heartwood record holds; an empty heartwood is that of a BLANK module. -/
def State.heartState (s : State) : Nat :=
  let r := Sparse.at [] s.log.flash 0
  if recGood r && leAt r 0x12 2 = 5 then leAt r 0x20 4 else 0

/-- A change was interrupted after its fuse was blown: the fuses and the heartwood differ (R444). -/
def State.changeOwed (s : State) : Bool := decide (s.lcState ≠ s.heartState)

/-- LOG_RECOVER at `now` (18 R426, R429, R430): first the boot ROM compares the fuses with the heartwood and resumes a change that
was interrupted after its fuse was blown (R444). -/
def execLogRecover (now : Nat) (s : State) : Res :=
  .next <|
    if s.isF Reg.LCS_STATUS_PENDING then s
    else if s.runs 39 && !s.isF Reg.LOG_STATUS_READY && s.changeOwed then
      let a := { s with sec := { s.sec with resumed := true, change := some (s.lcState, []) } }
      (a.setF Reg.LCS_STATUS_PENDING 1).setF Reg.LCS_STATUS_STEP 5
    else s.logRecover now

/-! ## Lock, debug unlock, serials (R449 to R451) -/

/-- The life-cycle lock is taken (R450). -/
def State.takeLock (s : State) : State := s.setF Reg.LCS_STATUS_LOCK 1

/-- LC_LOCK: in PROVISIONED only (R438, R450). -/
def execLcLock (s : State) : Res :=
  .next <| s.lcDo fun s => if s.lcState = 1 then s.takeLock.lcResult 1 else s.lcResult 5

/-- A record of another OP than CHANGE is checked and used at `now`. -/
def State.withRecord (s : State) (ops : List Nat) (now : Nat) (f : AuthRec → State) : State :=
  match s.lcRecord with
  | none => s.lcResult 3
  | some r => if r.op ∉ ops then s.lcResult 3 else if !s.nonceOk r.nonce now then s.lcResult 7 else f r

/-- DEBUG_UNLOCK at `now` (R451). -/
def execDebugUnlock (now : Nat) (s : State) : Res :=
  .next <| s.lcDo fun s =>
    s.withRecord [2] now fun r =>
      let gs := if s.lcState = 3 then [Signer.slot 1] else [Signer.enrolled useDebug]
      if !s.signedBy r gs then (s.misuses r gs useDebug).lcResult 4
      else ((s.dropNonce.setF Reg.LCS_STATUS_DEBUG 1).event 0x0E06 0xFFFF [r.slot1]).lcResult 1

/-- RAISE_MIN at `now` (R449): OP 3 for images, 4 for firmware. -/
def execRaiseMin (now : Nat) (s : State) : Res :=
  .next <| s.lcDo fun s =>
    s.withRecord [3, 4] now fun r =>
      let img := r.op = 3
      let byV0 := !img && r.slot1 = 0 && s.vslotMay 0 useFirmware
      let gs := if byV0 then [Signer.slot 0] else [Signer.enrolled useLifecycle]
      let words := if img then s.sec.minImg else s.sec.minFw
      let running := if img then s.getF Reg.CFG_IMAGE_SERIAL else s.getF Reg.SYS_FW_SERIAL
      if !s.signedBy r gs then (s.misuses r gs useLifecycle).lcResult 4
      else if r.value ≤ words.getLast?.getD 0 || running < r.value || 16 ≤ words.length then s.lcResult 5
      else
        let a := s.dropNonce
        let a := if img then { a with sec := { a.sec with minImg := words ++ [r.value] } }
          else { a with sec := { a.sec with minFw := words ++ [r.value] } }
        (a.showMins.event 0x0E07 0xFFFF [r.op, r.value]).lcResult 1

/-! ## Keys (R445 to R448) -/

/-- The first slot of a list that was never written. -/
def State.freeSlot (s : State) (slots : List Nat) : Option Nat := slots.find? fun i => Sparse.at 0 s.sec.fused i = 0

/-- A slot's word once it holds a key with some uses. -/
def slotWord (uses : Nat) : Nat := 2 ^ 31 + uses % 256

/-- ENROL (R447), from the message at LCS_SRC_ADDR. -/
def execEnrol (s : State) : Res :=
  .next <| s.lcDo fun s =>
    if s.lcState ≠ 1 then s.lcResult 5
    else match s.lcBytes.bind Config.enrolParse with
      | none => s.lcResult 3
      | some r =>
        let done := fun (a : State) (i : Nat) => ((a.setFused i (slotWord r.uses)).event 0x0E03 0xFFFF [i, r.uses % 256]).lcResult 1
        if r.verify then
          let first := (List.range 6).all fun k => Sparse.at 0 s.sec.fused (2 + k) = 0
          let may := s.isSigner (.enrolled useLifecycle) r.signer || (first && s.isSigner (.slot 0) r.signer)
          if !may || !Config.ecdsaVerify (s.vkeyOf r.signer) r.signed r.signature then
            (if may then s else s.misuse r.signer useLifecycle).lcResult 4
          else match s.freeSlot [2, 3, 4, 5, 6, 7] with
            | none => s.lcResult 8
            | some i => done { s with sec := { s.sec with vkey := Sparse.upd [] s.sec.vkey i r.key } } i
        else match Config.gcmOpen (Config.ecdh s.sec.seed r.ephemeral) r.nonce r.aad r.cipher r.tag with
          | none => s.lcResult 4
          | some key =>
            match s.freeSlot [16, 17, 18, 19, 20, 21, 22, 23] with
            | none => s.lcResult 8
            | some i => done { s with sec := { s.sec with skey := Sparse.upd [] s.sec.skey (i - 8) key } } i

/-- REVOKE (R447), from the record at LCS_SRC_ADDR. -/
def execRevoke (s : State) : Res :=
  .next <| s.lcDo fun s =>
    if s.lcState ≠ 1 && s.lcState ≠ 2 then s.lcResult 5
    else match s.lcBytes.bind Config.revokeParse with
      | none => s.lcResult 3
      | some r =>
        let may := s.isSigner (.enrolled useLifecycle) r.signer
        if !may || r.signer = r.slot || !Config.ecdsaVerify (s.vkeyOf r.signer) r.signed r.signature then
          (if may then s else s.misuse r.signer useLifecycle).lcResult 4
        else if 24 ≤ r.slot || slotKind r.slot = 1 then s.lcResult 5
        else ((s.revokeSlot r.slot).event 0x0E04 0xFFFF [r.slot]).lcResult 1

/-- A loaded slot takes a key and its uses. -/
def State.putLoaded (s : State) (n : Nat) (key : List Byte) (uses : Nat) : State :=
  let a := { s with sec := { s.sec with skey := Sparse.upd [] s.sec.skey n key } }
  a.wr (Reg.SEC_SLOT.addr (8 + n) 0) (BitVec.ofNat 32 (slotWord uses + 2 ^ 28))

/-- Loads into occupied slots take effect at a frame boundary (R448). -/
def State.loadsAtBoundary (s : State) : State :=
  let a := s.sec.loads.foldl (fun (a : State) e =>
    match e.2 with | some (key, uses) => a.putLoaded e.1 key uses | none => a) s
  { a with sec := { a.sec with loads := [] } }

/-- LOAD_SLOT (R448). -/
def execLoadSlot (s : State) : Res :=
  .next <| s.lcDo fun s =>
    match s.lcBytes with
    | none => s.lcResult 3
    | some bs =>
      let n := leAt bs 0 1
      let uses := leAt bs 1 1
      let w := leAt bs 2 1
      if bs.length ≠ 64 || 8 ≤ n || leAt bs 3 1 ≠ 0 then s.lcResult 3
      else if w < 8 || !s.sslotMay w useWrap then (s.misuse (8 + w) useWrap).lcResult 4
      else match Config.gcmOpen (s.skeyOf w) (slice bs 4 12) (leBytes 8 s.selfId64 ++ bs.take 4) (slice bs 16 32) (slice bs 48 16) with
        | none => s.lcResult 4
        | some key =>
          if s.isF Reg.SEC_SLOT_VALID (8 + n) then
            ({ s with sec := { s.sec with loads := Sparse.upd none s.sec.loads n (some (key, uses)) } }).lcResult 1
          else (s.putLoaded n key uses).lcResult 1

/-- CLEAR_SLOT (R445): the loaded slot in bits 31:28 of LCS_SRC_LEN. -/
def execClearSlot (s : State) : Res :=
  .next <| s.lcDo fun s =>
    let n := s.getF Reg.LCS_SRC_LEN / 2 ^ 28
    if 8 ≤ n then s.lcResult 5
    else
      let a := { s with sec := { s.sec with skey := Sparse.erase s.sec.skey n, loads := Sparse.erase s.sec.loads n } }
      (a.showSlot (8 + n)).lcResult 1

/-! ## JTAG (R438, R451) -/

/-- The instruction that acts when `instr` is shifted in: 0 BYPASS, 1 IDCODE, 2 SAMPLE/PRELOAD, 3 one that drives contacts, 4 debug
access to cores. -/
def State.jtagActs (s : State) (instr : Nat) : Nat :=
  let open_ := s.lcState = 0 || s.isF Reg.LCS_STATUS_DEBUG
  let may := if s.lcState = 4 then instr ≤ 1 else instr ≤ 2 || (open_ && instr ≤ 4)
  let free := !s.isF Reg.TWN_STATUS_LOCK && !s.twn.twinClaim
  if may && (instr ≠ 3 || free) then instr else 0

/-- JTAG_INSTRUCTION. -/
def execJtagInstruction (instr : Nat) (s : State) : Res := .next (s.emit .jtag [s.jtagActs instr])

end Sys2Proof.Machine
end

