-- ==== Sys2Proof/Machine/Power.lean ====
section
/-!
DEFINITION. Power control (17): resets and their causes, start-up step by step, the supplies, the power states and the wake from
KEEP and SHIP. Instants in ns of module time; during start-up `now` counts from the origin of R398.
-/

namespace Sys2Proof.Machine

/-! ## Resets (R397 to R399) -/

/-- Input voltages and their flags: inputs A and B in 0.1 V, and whether each lies within its thresholds (R394). -/
structure Supply where
  a : Nat
  b : Nat
  okA : Bool
  okB : Bool
  deriving DecidableEq, Repr

/-- The supplies show in PWR_AUX and PWR_STATUS. -/
def State.showSupply (s : State) (x : Supply) : State :=
  let a := (s.setSat Reg.PWR_AUX_AUX_A x.a).setSat Reg.PWR_AUX_AUX_B x.b
  (a.setF Reg.PWR_STATUS_AUX_A_OK (ofBool x.okA)).setF Reg.PWR_STATUS_AUX_B_OK (ofBool x.okB)

/-- Whether an input that reads `volt` (0.1 V) may count as lost: below the greatest falling threshold or above the least overvoltage
disconnect (R394; each module's own thresholds lie somewhere between the limits, log 101). -/
def mayFail (volt : Nat) : Bool := volt < 365 || 610 < volt

/-- Whether an input that reads `volt` may count as good: from the least rising threshold up to `top`. -/
def mayRun (volt top : Nat) : Bool := 375 ≤ volt && volt ≤ top

/-- The supplies as the registers show them. -/
def State.supply (s : State) : Supply :=
  ⟨s.getF Reg.PWR_AUX_AUX_A, s.getF Reg.PWR_AUX_AUX_B, s.isF Reg.PWR_STATUS_AUX_A_OK, s.isF Reg.PWR_STATUS_AUX_B_OK⟩

/-- POWER_ON_RESET (R395, R397, R388, 19 R452): PG rises; `straps` as SYS_STRAPS has them, `bad` the fuse regions that failed. PG needs
an input above its rising threshold. -/
def execPowerOnReset (straps bad auxA auxB : Nat) (okA okB : Bool) (s : State) : Res :=
  .next <| if (okA || okB) && (!okA || mayRun auxA 630) && (!okB || mayRun auxB 630) then (s.powerOn straps bad).showSupply ⟨auxA, auxB, okA, okB⟩
    else s

/-- A module in SHIP or OFF answers to nothing but its own wake (R404, R409). -/
def State.dead (s : State) : Bool := s.pwr.ship || s.pwr.off

/-- RESET_PIN at `now`: RESET_N, or SVC_RESET_N with `svc`, was low for `lowNs`: a cold reset from 1 µs on (R397). -/
def execResetPin (svc : Bool) (lowNs now : Nat) (s : State) : Res :=
  .next <|
    if lowNs < 1000 || s.dead then s
    else if svc then (s.resetAt now).because Reg.PWR_RESET_CAUSE_SVC_RESET
    else (s.resetAt now).because Reg.PWR_RESET_CAUSE_RESET_PIN

/-- CMD_RESULT of PWR_STATUS: 1 DONE, 2 NOT_QUIET, 3 BAD_STATE, 4 BAD_CONFIRM. -/
def State.pwrResult (s : State) (code : Nat) : State := s.setF Reg.PWR_STATUS_CMD_RESULT code

/-- WARM_RESET at `now` (R397). -/
def execWarmReset (confirm now : Nat) (s : State) : Res :=
  .next <|
    if confirm ≠ 0xA5 then s.pwrResult 4
    else ((s.resetAt now).because Reg.PWR_RESET_CAUSE_CMD_WARM).pwrResult 1

/-- COLD_RESET at `now` (R397). -/
def execColdReset (confirm now : Nat) (s : State) : Res :=
  .next <|
    if confirm ≠ 0xA5 then s.pwrResult 4
    else ((s.resetAt now).because Reg.PWR_RESET_CAUSE_CMD_COLD).pwrResult 1

/-- WATCHDOG at `now` (R399): no refresh for PERIOD. An extra beat with code 0x05, then a warm reset; a cold one within 10 s of a warm
reset by the watchdog. -/
def execWatchdog (now : Nat) (s : State) : Res :=
  .next <|
    if !s.isF Reg.PWR_WDT_EN || !s.runs 35 || s.dead then s
    else
      let cold := match s.pwr.wdtAt with | some t => decide ((now : Int) ≤ t + 10000000000) | none => false
      let a := s.controlFault 0x05
      let a := if s.getF Reg.PWR_STATUS_STATE ≤ 2 then a.sendBeat a.twinSt false else a
      let a := a.resetAt now
      let a := { a with pwr := { a.pwr with wdtAt := if cold then none else some 0, expiries := s.pwr.expiries + 1 } }
      let a := a.event 0x0D03 0xFFFF [s.pwr.expiries + 1, ofBool cold]
      if cold then a.because Reg.PWR_RESET_CAUSE_WDT_COLD else a.because Reg.PWR_RESET_CAUSE_WDT_WARM

/-- HUB_OVERHEAT_RESET: the Hub reads `temp` (0.1 °C) at `now`: above 125 °C a cold reset, held until it reads below 100 °C
(21 R475). The reset's cause shows as CMD_COLD. -/
def execHubOverheatReset (temp : Int) (now : Nat) (s : State) : Res :=
  .next <|
    if s.dead then s
    else if s.pwr.held then
      if temp < 1000 then
        let a := { s with pwr := { s.pwr with held := false } }
        (a.setF Reg.PWR_STATUS_STATE 0).startAgain (s.isF Reg.CLK_STATUS_PLL_LOCK)
      else s
    else if 1250 < temp then
      let a := (s.resetAt now).because Reg.PWR_RESET_CAUSE_CMD_COLD
      let a := (a.event 0x0D07 2 [2, unsign 32 temp]).diesOff
      let a := (a.onlyRuns [29, 40]).setF Reg.PWR_STATUS_STATE 4
      { a with pwr := { a.pwr with held := true } }
    else s

/-- PCIE_PERST (16 R392, 20 R455): PCIE_PERST_N takes a level, or a function level reset does as much in one pulse. Only the endpoint
and HOSTP start again; accesses of the PCIe path that wait are discarded (R418). -/
def execPciePerst (asserted : Bool) (s : State) : Res :=
  .next <|
    if s.dead then s
    else
      let a := { s with irq := {}, waiting := s.waiting.filter fun x => x.path ≠ 0, latch := Sparse.erase s.latch 0,
                        held := Sparse.erase s.held 0, host := { s.host with perst := asserted, link := 2, d3 := false } }
      let a := (a.setF Reg.MEMWIN_BASE_LO 0).setF Reg.MEMWIN_BASE_HI 0
      a.setRuns 14 (!asserted && (a.isF Reg.CLK_STATUS_PLL_LOCK || a.getF Reg.PWR_STATUS_STATE = 3) && !a.pwr.held)

/-! ## Start-up (R400 to R403) -/

/-- SEQUENCED order is in force. -/
def State.sequenced (s : State) : Bool := s.isF Reg.PWR_STATUS_ORDER

/-- Start-up stands still: failed for good, held, or behind a change of life cycle that is being completed (R403, 19 R444, R452). -/
def State.startBlocked (s : State) : Bool := s.pwr.stuck || s.pwr.held || s.dead || s.isF Reg.LCS_STATUS_PENDING

/-- A failed step that completes in its repetition shows no failure any more. -/
def State.stepDone (s : State) (now : Nat) : State :=
  { s.setF Reg.PWR_STATUS_START_FAIL (if s.isF Reg.PWR_STATUS_MEM_FAIL then 3 else 0) with pwr := { s.pwr with stepAt := now } }

/-- STARTUP_STEP_COMPLETE (R398, R400 to R402) of step 1 REGULATORS, 2 OSCILLATORS, 3 MEMORY (after its wipe), 4 FIRMWARE at `now`;
`serial` is that of the copy that verified. In FAST order the firmware may verify before the PLLs lock; a change of life
cycle that is still to be completed comes first (19 R444). -/
def execStartupStepComplete (step serial now : Nat) (s : State) : Res :=
  .next <|
    let at_ := s.getF Reg.PWR_STATUS_START_STEP
    let clocks := s.isF Reg.CLK_STATUS_PLL_LOCK
    if s.startBlocked || now < s.pwr.stepAt then s
    else match step with
      | 1 => if at_ ≤ 1 then (s.setF Reg.PWR_STATUS_START_STEP 2).stepDone now else s
      | 2 => if at_ = 2 then ((s.pllsOn now).afterClocks).stepDone now else s
      | 3 =>
        if clocks && s.isF Reg.CTX_STATUS_READY && s.getF Reg.PWR_START_MEM_MS = 0 then
          let a := s.startMs Reg.PWR_START_MEM_MS (s.originMs now)
          if s.sequenced then if at_ = 3 then (a.setF Reg.PWR_STATUS_START_STEP 4).stepDone now else s else a
        else s
      | 4 =>
        if (at_ = 4 || (at_ ≤ 2 && !s.sequenced)) && !s.pwr.fwRuns && !s.changeOwed && s.sec.firmware.isSome && s.getF Reg.LCS_MIN_FW ≤ serial then
          let a := s.setF Reg.SYS_FW_SERIAL serial
          let a := { a with pwr := { a.pwr with fwRuns := true } }
          let a := if s.pwr.recover then a else a.setRuns 32 false
          if at_ = 4 then (a.setF Reg.PWR_STATUS_START_STEP 5).stepDone now else a
        else s
      | _ => s

/-- Every rail but the island's goes off (R403). -/
def State.railsOff (s : State) (domains : List Nat) : State :=
  (((s.diesOff).onlyRuns domains).setF Reg.CLK_STATUS_PLL_LOCK 0).setF Reg.PWR_STATUS_START_STEP 1

/-- STARTUP_STEP_TIMEOUT at `now` (R403): step 1 or 2 not ready within 20 ms: one repetition 1 s later, then AON, BOOT and SMB alone;
step 3: training failed (`wipe` false) or the wipe did not end within 100 ms: without the stack; step 4: neither firmware copy
verifies: the recovery port alone. -/
def execStartupStepTimeout (step : Nat) (wipe : Bool) (now : Nat) (s : State) : Res :=
  .next <|
    let at_ := s.getF Reg.PWR_STATUS_START_STEP
    if s.startBlocked then s
    else if (step = 1 && at_ ≤ 1) || (step = 2 && at_ = 2) then
      if now ≤ s.pwr.stepAt + 20000000 then s
      else
        let a := (s.setF Reg.PWR_STATUS_START_FAIL step).event 0x0D04 0xFFFF [step, step]
        if s.pwr.retried then { a.railsOff [32, 33, 40] with pwr := { a.pwr with stuck := true } }
        else
          { a.railsOff islandDomains with pwr := { a.pwr with retried := true, stepAt := now + 1000000000 } }
    else if step = 3 && s.isF Reg.CLK_STATUS_PLL_LOCK && !s.isF Reg.CTX_STATUS_READY && !s.isF Reg.PWR_STATUS_MEM_FAIL then
      if wipe && now ≤ s.pwr.stepAt + 100000000 then s
      else
        let a := ((s.setF Reg.PWR_STATUS_MEM_FAIL 1).setF Reg.PWR_STATUS_START_FAIL 3).setF Reg.CTX_STATUS_WIPING 0
        let a := (a.setF Reg.PWR_START_MEM_MS 0xFFFF).event 0x0D05 0xFFFF [ofBool wipe]
        if s.sequenced && at_ = 3 then { a.setF Reg.PWR_STATUS_START_STEP 4 with pwr := { a.pwr with stepAt := now } } else a
    else if step = 4 && !s.pwr.fwRuns && (at_ = 4 || (at_ ≤ 2 && !s.sequenced)) then
      let a := (s.setF Reg.PWR_STATUS_START_FAIL 4).event 0x0D04 0xFFFF [at_, 4]
      { a with pwr := { a.pwr with stuck := true } }
    else s

/-- CLK_SWITCH: CORE, SEC and LOG move from FAST to their PLLs, once these are locked (R402). -/
def execClkSwitch (s : State) : Res :=
  .next <| if s.isF Reg.CLK_STATUS_PLL_LOCK then s.setF Reg.CLK_STATUS_ON_FAST 0 else s

/-- RECOVERY_IMAGE_RECEIVE (R403, 16 J3): over J3 comes a full image for slot 0 or 1, under the checks of 02 R29, while RECOVER_N was low
at reset; or, where no firmware verifies, firmware for both copies (`slot` 2), which the next start-up verifies. -/
def execRecoveryImageReceive (slot : Nat) (image : List Byte) (s : State) : Res :=
  .next <|
    if !s.runs 32 || s.dead then s
    else if slot = 2 then
      if s.getF Reg.PWR_STATUS_START_FAIL = 4 then { s with sec := { s.sec with firmware := some image } } else s
    else if !s.isF Reg.SYS_STRAPS_RECOVER || 2 < slot || leAt image 8 1 = 2 then s
    else if s.cfg.running && s.cfg.fromSlot && s.getF Reg.CFG_STATUS_SLOT = slot then s.cfgError 0x14
    else
      let r := checkImage s image image.length false
      match r.image with
      | some _ =>
        { s with cfg := if slot = 0 then { s.cfg with slot0 := image } else { s.cfg with slot1 := image } }
      | none => s.cfgError r.code

/-! ## Supplies (R394 to R396, R482) -/

/-- An event of power control: held in AON while the module is in KEEP (R407). -/
def State.islandOr (s : State) (e : LogEvent) (now : Nat) : State :=
  if s.getF Reg.PWR_STATUS_STATE = 3 then s.islandEvent e now else s.event e.code e.source e.data

/-- The module is off: no domain runs, every output is high-impedance, nothing volatile is left (R395, R404). -/
def State.goOff (s : State) : State :=
  let a := (s.powerOn (s.rd (Reg.SYS_STRAPS.addr 0 0)).toNat s.sec.bad).onlyRuns []
  let a := { a with hnt := { incarnation := s.hnt.incarnation } }
  { a with events := [], pwr := { a.pwr with off := true } }

/-- AUX_LOST at `now`: input 0 (A) or 1 (B) falls below its threshold or is switched out for overvoltage, reading `volt` in 0.1 V. In
SHIP the loss of both takes the module to OFF (R409). -/
def execAuxLost (input volt now : Nat) (s : State) : Res :=
  .next <|
    if s.pwr.off || !mayFail volt then s
    else
      let x := s.supply
      let was := if input = 0 then x.okA else x.okB
      let y : Supply := if input = 0 then { x with a := volt, okA := false } else { x with b := volt, okB := false }
      let a := s.showSupply y
      let both : Bool := !y.okA && !y.okB && (x.okA || x.okB)
      let a := if both then { a with pwr := { a.pwr with lostAt := some (now : Int) } } else a
      if s.pwr.ship then if y.okA || y.okB then a else a.goOff
      else if was then (a.islandOr ⟨0x0D01, 0xFFFF, [input, volt]⟩ now).cause 1 4 else a

/-- AUX_RETURN: the input lies within its thresholds again, after an overvoltage below 60 V; a hold-up in progress ends (R394, R396). -/
def execAuxReturn (input volt : Nat) (s : State) : Res :=
  .next <|
    let x := s.supply
    let was := if input = 0 then x.a else x.b
    if s.pwr.off || !mayRun volt (if 610 < was then 599 else 630) then s
    else
      let y : Supply := if input = 0 then { x with a := volt, okA := true } else { x with b := volt, okB := true }
      let a := { s.showSupply y with pwr := { s.pwr with lostAt := none } }
      if a.isF Reg.PWR_STATUS_HOLDUP then
        let b := a.setF Reg.PWR_STATUS_HOLDUP 0
        if b.runs 39 then b.nextPage else b
      else a

/-- HOLDUP_START at `now`: both inputs have stayed below for 20 µs (R396, 18 R429). -/
def execHoldupStart (now : Nat) (s : State) : Res :=
  .next <|
    let since : Bool := match s.pwr.lostAt with | some t => decide (t + 20000 ≤ (now : Int)) | none => false
    if s.isF Reg.PWR_STATUS_HOLDUP || s.isF Reg.PWR_STATUS_AUX_A_OK || s.isF Reg.PWR_STATUS_AUX_B_OK || s.dead || !since then s
    else
      let a := ((s.setF Reg.PWR_STATUS_HOLDUP 1).controlFault 0x04).cause 1 5
      if a.runs 39 then a.powerFail now else a

/-- How long the hold-up lasts at least in ns, `mW` drawn as the inputs fell (R482). -/
def holdupMin (mW : Nat) : Nat := max 2000000 (370000000000 / max 1 mW)

/-- HOLDUP_END at `now`: the store, from which `mW` were drawn as both inputs fell, is below its limit: power-on reset, held until PG; the
claim is released (R395, R396, R482). -/
def execHoldupEnd (mW now : Nat) (s : State) : Res :=
  .next <|
    match s.pwr.lostAt with
    | some t => if s.isF Reg.PWR_STATUS_HOLDUP && t + holdupMin mW ≤ (now : Int) then s.goOff else s
    | none => s

/-! ## Power states (R404 to R409) -/

/-- PWR_HOLD (R405): in RUN only. Lanes whose partitions stop run REACTIVE (06 R132). -/
def execPwrHold (s : State) : Res :=
  .next <|
    if s.getF Reg.PWR_STATUS_STATE ≠ 0 then s.pwrResult 3
    else ((s.suspendParts.diesOff).powerState 2).pwrResult 1

/-- Every lane of every converter is IDLE or TRIPPED and every CLOSE bit clear (R407). -/
def State.quiet (s : State) : Bool :=
  ((List.range 48).all fun n => s.laneSt n = laneIdle || s.laneSt n = laneTripped) &&
    s.getF Reg.PWM_CTR_CLOSE = 0

/-- The record of KEEP's entry reaches flash before LOG stops; in a freeze or before READY it stays in the queue (R407, R433). -/
def State.keepRecord (s : State) (now : Nat) : State :=
  let e : LogEvent := ⟨0x0D09, 0xFFFF, [s.getF Reg.PWR_KEEP_CFG]⟩
  if !s.passes e.code then s.bump Reg.LOG_FILTERED
  else if !s.runs 39 then s
  else if !s.isF Reg.LOG_STATUS_READY || s.log.freezing then s.record_ e now
  else
    let r := withSeq s.log.next s.log.boot (s.buildRecord e (s.logTime now) s.timeSrc false (dataBytes [] e.data))
    ({ s with log := { s.log with next := s.log.next + 1 } }).program r

/-- Domains that run in KEEP (R404, R415). -/
abbrev keepDomains : List Nat := [12, 13, 14, 19, 29, 33, 40]

/-- The five steps of the entry to KEEP at `now` (R407). -/
def State.enterKeep (s : State) (now : Nat) : State :=
  let a := (s.stepDown 0 now).stepDown 1 now
  let a := if a.pklOn then a.setF Reg.PKL_STATUS_PHASE pklWatch else a
  let a := if s.isF Reg.TWN_STATUS_LOCK then
      let b := if s.twn.admitted then a.toTwin twinKeep [] else a
      b.loseLock 1 now
    else (a.sendBeat 4 false).withdraw
  let a := (a.keepRecord now).suspendParts.diesOff
  let a := (((a.onlyRuns keepDomains).setF Reg.CLK_STATUS_PLL_LOCK 0).setF Reg.CLK_STATUS_CC_LOCKED 0).powerState 3
  let a := (a.setRuns 14 (!a.host.perst)).setF Reg.CTX_STATUS_READY 0
  { a with mem := [], poison := [], log := a.log.kept, events := [], sec := a.sec.fuses, pwr := { a.pwr with keepAt := some now } }

/-- PWR_KEEP at `now` (R407). -/
def execPwrKeep (now : Nat) (s : State) : Res :=
  .next <|
    if 2 < s.getF Reg.PWR_STATUS_STATE then s.pwrResult 3
    else if s.isF Reg.TWN_STATUS_LOCK && !s.quiet then s.pwrResult 2
    else (s.enterKeep now).pwrResult 1

/-- A wake event of KEEP at `now` (R408): start-up from the regulators; the island keeps its state. -/
def State.wake (s : State) (f : Fld) (now : Nat) : State :=
  if s.getF Reg.PWR_STATUS_STATE ≠ 3 then s
  else
    let r := s.restarted true now
    let a := ((r.setF Reg.SYS_FW_SERIAL 0).setF Reg.SYS_STRAPS_SLOT_CLASH 0).setF Reg.CLK_STEER 0
    let a := ((a.setF Reg.CLK_STATUS_COUNTER_SET 0).setF Reg.CLK_STATUS_SLEWING 0).setF Reg.CLK_STATUS_TIME_FAULT 0
    let a := ((a.setF Reg.CLK_STATUS_FOLLOWER 0).setF Reg.PWR_STATUS_START_FAIL 0).setF Reg.PWR_STATUS_MEM_FAIL 0
    let a := a.setF Reg.CLK_STATUS_CC_LOCKED 0
    let a := (((a.setF Reg.PWR_START 0).fuseRegs.showTwin).atRegulators).fuseHalt
    (((a.powerState 0).because Reg.PWR_RESET_CAUSE_KEEP_WAKE).setF f 1).cause 12 2

/-- PWR_RUN at `now` (R405, R408): from HOLD, or the HOST wake of KEEP. -/
def execPwrRun (now : Nat) (s : State) : Res :=
  .next <|
    match s.getF Reg.PWR_STATUS_STATE with
    | 2 => ((s.powerState 0).diesOn now).pwrResult 1
    | 3 => (s.wake Reg.PWR_WAKE_HOST now).pwrResult 1
    | _ => s.pwrResult 3

/-- KEEP_TIMER_WAKE at `now`: KEEP has lasted WAKE_S (R408). -/
def execKeepTimerWake (now : Nat) (s : State) : Res :=
  .next <|
    let w := s.getF Reg.PWR_KEEP_CFG_WAKE_S
    match s.pwr.keepAt with
    | some t => if w ≠ 0 && t + w * 1000000000 ≤ now then s.wake Reg.PWR_WAKE_TIMER now else s
    | none => s

/-- KEEP_CURRENT_WAKE at `now`: the mean of CC channel `k` over its last full second of 64,000 blocks, in either direction (R408). -/
def execKeepCurrentWake (k now : Nat) (s : State) : Res :=
  .next <|
    let w := s.getF Reg.PWR_KEEP_CFG_WAKE_I
    if w ≠ 0 && w * 64000000 < (Sparse.at 0 s.sns.ccMean k).natAbs then s.wake Reg.PWR_WAKE_CURRENT now else s

/-- ALARM_RECEIVE at `now`: the PSDU of a node in watch (13 R299, R321): recorded, and a wake event. -/
def execAlarmReceive (now : Nat) (message : List Byte) (s : State) : Res :=
  .next <|
    let r := s.pklTakeDisc message
    match r.2 with
    | some m =>
      if m.typ ≠ 0x15 then r.1
      else
        let e : LogEvent := ⟨0x0A06, m.src, [m.src, beAt m.body 0 1, beAt m.body 1 1, beAt m.body 2 2]⟩
        (r.1.islandOr e now).wake Reg.PWR_WAKE_ALARM now
    | none => r.1

/-- SHIP_POWER_ENTRY at `now` (R409, 14 R347): the log has programmed everything; only the wake detector is left. -/
def execShipPowerEntry (now : Nat) (s : State) : Res :=
  .next <|
    if s.getF Reg.EST_STATUS_SHIP_STEP ≠ 6 || s.log.queue ≠ [] || s.log.spill ≠ [] || s.log.page ≠ [] || s.dead then s
    else
      let a := if s.isF Reg.TWN_STATUS_LOCK then s.loseLock 1 now else s.withdraw
      let a := (a.suspendParts.diesOff).onlyRuns [40]
      { a with mem := [], poison := [], events := [], sec := a.sec.fuses, pwr := { a.pwr with ship := true, rtc := none } }

/-- CHG_DETECT_WAKE: CHG_DETECT has been high for `highMs` in SHIP: power-on reset with SHIP_EXIT from 10 ms on (R409). -/
def execChgDetectWake (highMs straps bad : Nat) (s : State) : Res :=
  .next <|
    if s.pwr.ship && 10 ≤ highMs then
      ((s.powerOn straps bad).showSupply s.supply).because Reg.PWR_RESET_CAUSE_SHIP_EXIT
    else s

end Sys2Proof.Machine
end

