-- ==== Sys2Proof/Machine/HostIf.lean ====
section
/-!
DEFINITION. The host interface (20): interrupts and the lines that follow their causes, the PCIe link and power states, SMBus, and
the stack aperture BAR2.
-/

namespace Sys2Proof.Machine

/-! ## Interrupts (R461 to R463) -/

/-- Vector `v` qualifies apart from arming: what SYS_IRQ_PEND shows (R462). -/
def State.irqPends (s : State) (v : Nat) : Bool :=
  v < 15 && s.getF Reg.SYS_IRQ_CAUSE v &&& s.getF Reg.SYS_IRQ_CAUSE_EN v ≠ 0 && bitOf (s.getF Reg.SYS_IRQ_EN) v

/-- The endpoint can send messages: out of reset, its link up, in D0. -/
def State.endpointUp (s : State) : Bool := !s.host.perst && s.host.link = 0 && !s.host.d3 && s.runs 14

/-- Vector `v` is masked in the MSI-X table. -/
def State.irqMasked (s : State) (v : Nat) : Bool := bitOf s.irq.masked v || s.irq.functionMask

/-- Whether the holdoff since the last message of vector `v` still runs at `now` (R463). -/
def State.irqHeld (s : State) (v now : Nat) : Bool :=
  match Sparse.at none s.irq.sentAt v with
  | some t => decide (now < t + s.getF Reg.SYS_IRQ_HOLDOFF % 65536 * 1000)
  | none => false

/-- A vector that qualifies and is armed at `now` sends its message and is disarmed; masked, it sets its pending bit; within the holdoff it
is held back (R462, R463). A vector that no longer qualifies has no pending bit. -/
def State.irqTry (s : State) (v now : Nat) : State :=
  let q := s.irqPends v && bitOf s.irq.armed v
  if !q then { s with irq := { s.irq with pba := putBit s.irq.pba v false } }
  else if s.irqMasked v then { s with irq := { s.irq with pba := putBit s.irq.pba v true } }
  else if s.irqHeld v now then { s with irq := { s.irq with holdoff := putBit s.irq.holdoff v true } }
  else if !s.endpointUp then s
  else
    let a := s.emit .msix [v]
    { a with irq := { a.irq with armed := putBit a.irq.armed v false, pba := putBit a.irq.pba v false,
                                 holdoff := putBit a.irq.holdoff v false, sentAt := Sparse.upd none a.irq.sentAt v (some now) } }

/-- MSIX_SEND of a vector at `now` (R462). -/
def execMsixSend (v now : Nat) (s : State) : Res := .next (if v < 15 then s.irqTry v now else s)

/-- IRQ_ACK at `now`: each vector whose bit is 1 is armed, and sends again if it still qualifies (R462). -/
def execIrqAck (mask now : Nat) (s : State) : Res :=
  .next <| (List.range 15).foldl (fun (a : State) v =>
    if bitOf mask v then ({ a with irq := { a.irq with armed := putBit a.irq.armed v true } }).irqTry v now else a) s

/-- MSIX_UNMASK at `now`: the mask bit of vector `v` in the MSI-X table, or with `v` 16 the function mask, takes a value; what was pending and
still qualifies is sent (R463). -/
def execMsixUnmask (v : Nat) (masked : Bool) (now : Nat) (s : State) : Res :=
  .next <|
    if v = 16 then
      let a := { s with irq := { s.irq with functionMask := masked } }
      (List.range 15).foldl (fun (b : State) k => if bitOf s.irq.pba k then b.irqTry k now else b) a
    else if v < 16 then
      let a := { s with irq := { s.irq with masked := putBit s.irq.masked v masked } }
      if bitOf s.irq.pba v then a.irqTry v now else a
    else s

/-- IRQ_HOLDOFF_END of vector `v` at `now`: a message held back is sent, if the vector still qualifies (R463). -/
def execIrqHoldoffEnd (v now : Nat) (s : State) : Res :=
  .next <|
    if v < 15 && bitOf s.irq.holdoff v && !s.irqHeld v now then
      ({ s with irq := { s.irq with holdoff := putBit s.irq.holdoff v false } }).irqTry v now
    else s

/-! ## Lines (R464, R465, 16 R392) -/

/-- PCIE_WAKE_N is asserted (R464): in KEEP by vector 12 alone, whose bit 2 follows PWR_WAKE. -/
def State.pcieWake (s : State) : Bool :=
  let keep := s.getF Reg.PWR_STATUS_STATE = 3
  let causes := fun v => if keep && v = 12 then putBit (s.getF Reg.SYS_IRQ_CAUSE v) 2 (s.getF Reg.PWR_WAKE ≠ 0) else s.getF Reg.SYS_IRQ_CAUSE v
  (s.host.perst || s.host.link = 1) && (List.range 15).any fun v =>
    (!keep || v = 12) && bitOf (s.getF Reg.SYS_IRQ_WAKE) v && causes v &&& s.getF Reg.SYS_IRQ_CAUSE_EN v ≠ 0

/-- SMB_ALERT_N is asserted (R465). -/
def State.smbAlert (s : State) : Bool := s.getF Reg.SYS_IRQ_CAUSE 1 ≠ 0

/-- PCIE_CLKREQ_N is held low: from the release of every reset while the module is powered (16 R392). -/
def State.clkReq (s : State) : Bool := !s.dead && !s.pwr.held

/-- PCIE_LINK_STATE_CHANGE: the link is up in L0 (0), in L2 (1) or down (2) (R464). -/
def execPcieLinkStateChange (link : Nat) (s : State) : Res :=
  .next <| if s.host.perst && link ≠ 2 then s else { s with host := { s.host with link := min link 2 } }

/-- PCIE_POWER_STATE_WRITE: D3hot or D0; nothing else of the module stops (R455). -/
def execPciePowerStateWrite (d3 : Bool) (s : State) : Res :=
  .next <| if s.host.perst then s else { s with host := { s.host with d3 := d3 } }

/-! ## SMBus (R465, R469) -/

/-- The register and the clock domain of an SMBus command byte. -/
def smbRegister (cmd : Nat) : Option (Nat × Nat) :=
  match cmd with
  | 0x00 => some (0x0, 40) | 0x01 => some (0x4, 40) | 0x02 => some (0x8, 40) | 0x03 => some (0xC, 40)
  | 0x04 => some (0x80, 40) | 0x05 => some (0x20000, 40) | 0x06 => some (0x20014, 40) | 0x07 => some (0x20010, 40)
  | 0x08 => some (0x20020, 40) | 0x09 => some (0x20024, 40) | 0x0A => some (0xD0000, 1) | 0x0B => some (0xE0000, 39)
  | 0x0C => some (0xF0000, 34) | 0x0D => some (0x104, 40) | 0x0E => some (0x20030, 40) | 0x0F => some (0x20034, 40)
  | _ => none

/-- SMBUS_BLOCK_READ: value and flags; `stale`: the crossing failed, and the value is the one agreed last (R416, R469): a free value where
none has been. Any other command byte is not acknowledged. -/
def execSmbusBlockRead (cmd : Nat) (stale : Bool) (s : State) : Res :=
  .next <|
    if !s.runs 33 then s
    else match smbRegister cmd with
      | none => s
      | some (a, d) =>
        if !s.runs d then s.emit .smbus [0, 0, 0, 0, 1]
        else if stale then
          match Sparse.at none s.host.smbLast cmd with
          | some v => (s.crossingFailed d).emit .smbus ((leBytes 4 v).map BitVec.toNat ++ [2])
          | none => (s.useFree.crossingFailed d).emit .smbus ((leBytes 4 (s.freeVal 0x469)).map BitVec.toNat ++ [2])
        else
          let v := (s.rd a).toNat
          ({ s with host := { s.host with smbLast := Sparse.upd none s.host.smbLast cmd (some v) } }).emit .smbus
            ((leBytes 4 v).map BitVec.toNat ++ [0])

/-- SMBUS_ALERT_RESPONSE: the module's own address, 0x58 in slot A and 0x59 in slot B, while it asserts SMB_ALERT_N (R465, 16 R392). -/
def execSmbusAlertResponse (s : State) : Res :=
  .next <| if s.runs 33 && s.smbAlert then s.emit .smbus [0x58 + s.getF Reg.SYS_STRAPS_TWIN_SLOT] else s

/-! ## The stack aperture (09 R200, R216, R217, R220, R459, R460) -/

/-- The aperture's base. -/
def State.memBase (s : State) : Nat :=
  s.getF Reg.MEMWIN_BASE_LO_BASE_LO * 65536 + s.getF Reg.MEMWIN_BASE_HI_BASE_HI * 2 ^ 32

/-- Whether a host read of a block returns data (R200). -/
def State.hostReads (s : State) (a : Nat) : Bool :=
  a < stackSize && s.isF Reg.CTX_STATUS_READY && !(stackRange a = 2 || stackRange a = 3 || stackRange a = 4)

/-- Whether a host write to a block is applied (R200): not to the active slot of a model whose partition is RUNNING. -/
def State.hostWrites (s : State) (a : Nat) : Bool :=
  a < stackSize && s.isF Reg.CTX_STATUS_READY &&
    match stackRange a with
    | 0 => (s.desc (a / areaSize)).kind = kindJob && a % areaSize < 0x300000
    | 5 => true
    | 6 =>
      let i := slotOf a
      s.partState (i / 32) ≠ partRunning || bitOf (s.part (i / 32)).slot (i % 32 / 2) != decide (i % 2 = 1)
    | 8 => true
    | _ => false

/-- The pieces of a range that lie in one 64-byte block each: address and length. -/
def blockPieces (a n : Nat) : List (Nat × Nat) :=
  let first := a / 64
  let last := (a + n + 63) / 64
  ((List.range (last - first)).map fun k =>
    let lo := max a ((first + k) * 64)
    let hi := min (a + n) ((first + k + 1) * 64)
    (lo, hi - lo)).filter fun e => e.2 ≠ 0

/-- One block's part of a read, with its wrong symbols (R215): zeros where the range or poison says so (R216). -/
def State.hostRead1 (s : State) (e : Nat × Nat) (flaw : Flaw) : State × List Byte :=
  let zeros := List.replicate e.2 0#8
  if !s.hostReads e.1 then (s, zeros)
  else
    let r := s.readCheck (e.1 / 64) flaw
    if r.2 then ((r.1.bump Reg.CTX_HOST_POISON).cause 6 0, zeros) else (r.1, r.1.memBytes e.1 e.2)

/-- A read through BAR2: `bads` gives the wrong symbols of the blocks in order. -/
def State.bar2Read (s : State) (off n : Nat) (bads : List Flaw) : State :=
  let r := (blockPieces (s.memBase + off) n).zipIdx.foldl (fun (a : State × List Byte) e =>
    let x := a.1.hostRead1 e.1 (bads.getD e.2 [])
    (x.1, a.2 ++ x.2)) (s, [])
  r.1.emit .accessDone ([0, 2 ^ 26 + off] ++ r.2.map (·.toNat))

/-- One block's part of a write (R459, R217): applied, or discarded and counted. -/
def State.hostWrite1 (s : State) (a : Nat) (bs : List Byte) : State :=
  if !s.hostWrites a || (bs.length < 64 && Sparse.at false s.poison (a / 64)) then s.bump Reg.CTX_HOST_DENIED
  else s.stackWrite a bs

/-- A write through BAR2. -/
def State.bar2Write (s : State) (off : Nat) (bs : List Byte) : State :=
  let a := s.memBase + off
  (blockPieces a bs.length).foldl (fun (t : State) e => t.hostWrite1 e.1 (slice bs (e.1 - a) e.2)) s

/-- A BAR2 access that waits: the address counts from 2^26; a write's bytes stand in its value, the length in a leading 1. -/
def bar2Value (bs : List Byte) : Nat := ofLe bs + 2 ^ (8 * bs.length)

/-- The bytes a waiting write holds: `v` less its leading 1. -/
def bar2Bytes (v : Nat) : List Byte := leBytes (Nat.log2 v / 8) v

/-- An access of a path waits: what the path does next queues behind it (R10, R458). -/
def State.queued (s : State) (path : Nat) : Bool := s.waiting.any fun x => x.path = path

/-- Whether BAR decoding is on (R455): out of reset and in D0. -/
def State.decodes (s : State) : Bool := !s.host.perst && !s.host.d3

/-- BAR2_READ of `n` bytes at an offset of the aperture (R459): it waits while MEMC is stopped (R460). -/
def execBar2Read (off n : Nat) (bads : List (List (Nat × Nat))) (s : State) : Res :=
  .next <|
    if !s.decodes || 2 ^ 32 < off + n then s
    else if s.runs 22 && s.runs 14 && !s.queued 0 then s.bar2Read off n bads
    else { s with waiting := s.waiting ++ [⟨0, false, 2 ^ 26 + off, n, 4⟩] }

/-- BAR2_WRITE (R459, R460). -/
def execBar2Write (off : Nat) (bytes : List Byte) (s : State) : Res :=
  .next <|
    if !s.decodes || 2 ^ 32 < off + bytes.length then s
    else if s.runs 22 && s.runs 14 && !s.queued 0 then s.bar2Write off bytes
    else { s with waiting := s.waiting ++ [⟨0, true, 2 ^ 26 + off, bar2Value bytes, 4⟩] }

end Sys2Proof.Machine
end

