-- ==== Sys2Proof/Machine/Snap.lean ====
section
/-!
DEFINITION. What a read of a register answers (00 R4, R8, R9, 20 R470), the clock domain of each block, and SNAP (12 R292 to R294).
-/

namespace Sys2Proof.Machine

/-- The clock domain of the block that holds a BAR0 address (20, register index); none outside every block. -/
def blockDomain (a : Nat) : Option Nat :=
  let b := a / 65536
  if b ≤ 2 then some 40
  else if b = 6 then some 2
  else if b ≤ 0xD then some 1
  else if b = 0xE then some 39
  else if b = 0xF || b = 0x11 then some 34
  else if b = 0x10 then some 22
  else if b = 0x12 || b = 0x100 then some 1
  else if b = 0x101 || (0x180 ≤ b && b < 0x188) then some 24
  else if b = 0x201 || (0x280 ≤ b && b < 0x288) then some 26
  else if b = 0x300 then some 14
  else none

/-- Whether a block answers now: its domain runs, and in KEEP only SYS and PWR do (R408, R470). -/
def State.answers (s : State) (a : Nat) : Bool :=
  match blockDomain a with
  | some d => s.runs d && (s.getF Reg.PWR_STATUS_STATE ≠ 3 || a / 65536 = 0 || a / 65536 = 2) && !s.dead
  | none => true

/-- Registers that each access path sees for itself: results and windows (02 R42, 09, 12 R284, 14 R341, 18 R434, 03 R63). -/
def pathWord (a : Nat) : Bool :=
  a = Reg.CFG_OWN_RESULT_RESULT.addr 0 0 || a = Reg.CTX_RESULT.addr 0 0 || a = Reg.LDG_SYNC_STAT.addr 0 0 ||
    a = Reg.LDG_SYNC_IDX_LO.addr 0 0 || a = Reg.LDG_SYNC_IDX_HI.addr 0 0 || a = Reg.LOG_RD_STAT.addr 0 0 ||
    (Reg.LOG_RD_DATA.addr 0 0 ≤ a && a < Reg.LOG_RD_DATA.addr 16 0) ||
    (Reg.EST_REC.addr 1 0 ≤ a && a < Reg.EST_REC.addr 64 0) ||
    (List.range 2).any fun k => a = Reg.SNS_CC_ACC1.addr (40 + k) 0 || a = Reg.SNS_CC_ACC2.addr (40 + k) 0

/-- The value a register shows to a path, without any side effect. -/
def State.peek (s : State) (path a : Nat) : Word :=
  if pathWord a then s.rdPath path a
  else if a = 0x18 then BitVec.ofNat 32 s.frame
  else if a = 0x1C then BitVec.ofNat 32 (s.frame / 2 ^ 32)
  else if a = 0x40 then BitVec.ofNat 32 ((List.range 15).foldl (fun m v => putBit m v (s.irqPends v)) 0)
  else if a = 0x3000008 then BitVec.ofNat 32 (ofBool (s.isF Reg.CTX_STATUS_READY) * 2 ^ 31)
  else s.rd a

/-! ## SNAP -/

/-- The entries captured: COUNT, 512 at most. -/
def State.snapCount (s : State) : Nat := min 512 (s.getF Reg.SNAP_CTL_COUNT)

/-- SNAP_ARM (R292, R294). -/
def execSnapArm (s : State) : Res :=
  .next <|
    let st := s.getF Reg.SNAP_STATUS_STATE
    if st = 1 || st = 2 then s.setF Reg.SNAP_STATUS_BUSY 1
    else
      let src := s.getF Reg.SNAP_CTL_SRC
      let at_ := s.get64 Reg.SNAP_AT_LO
      let a := s.setF Reg.SNAP_STATUS_STATE 1
      let to_ := fun (b : State) (f : Option Nat) => { b with snap := { b.snap with boundary := f } }
      if src = 1 || src = 2 then to_ a none
      else if at_ = 0 then to_ a (some (s.frame + 1))
      else if at_ ≤ s.frame then to_ ((a.setF Reg.SNAP_STATUS_LATE_AT 1).cause 13 1) (some (s.frame + 1))
      else to_ a (some at_)

/-- SNAP_DISARM (R294). -/
def execSnapDisarm (s : State) : Res :=
  .next <|
    if s.getF Reg.SNAP_STATUS_STATE = 1 then
      { (s.setF Reg.SNAP_STATUS_STATE 0) with snap := { s.snap with boundary := none } }
    else s

/-- The register that entry `e` of the list names. -/
def State.snapAddr (s : State) (e : Nat) : Nat := bitsOf (s.getF Reg.SNAP_LIST e) 0 26 / 4 * 4

/-- The domain out of which entry `e` crosses, where that crossing failed (17 R416). -/
def State.snapFailed (s : State) (stale : List Nat) (e : Nat) : Option Nat :=
  (blockDomain (s.snapAddr e)).filter fun d => s.runs d && stale.contains e

/-- What entry `e` of the list latches: value, STOPPED, STALE (R293). A register that each path sees for itself has no value of its
own for SNAP; `stale` entries failed their crossing and show the value agreed last. -/
def State.snapEntry (s : State) (stale : List Nat) (e : Nat) : Word × Bool × Bool :=
  let a := s.snapAddr e
  if !(match blockDomain a with | some d => s.runs d | none => true) then (0#32, true, false)
  else if stale.contains e then (BitVec.ofNat 32 (Config.freeNat s.free (0x292 + e)), false, true)
  else if pathWord a then (BitVec.ofNat 32 (Config.freeNat s.free (0x292 + e)), false, false)
  else (s.peek 0 a, false, false)

/-- SNAP_CAPTURE: at the capture's boundary, or the first one after it where the counter was set past it, every listed register
latches its value, and failed crossings count (R292, R293). -/
def execSnapCapture (stale : List Nat) (s : State) : Res :=
  .next <|
    match s.snap.boundary with
    | some f =>
      if s.getF Reg.SNAP_STATUS_STATE = 1 && f ≤ s.frame then
        let vs := (List.range s.snapCount).map (s.snapEntry stale)
        let a := (List.range s.snapCount).foldl (fun (a : State) e => (s.snapFailed stale e).elim a a.crossingFailed) s
        { (a.useFree.setF Reg.SNAP_STATUS_STATE 2) with
          snap := { boundary := some s.frame, values := vs, rackIdx := s.get64 Reg.LDG_RACK_APPLIED_LO,
                    hallIdx := s.get64 Reg.LDG_HALL_APPLIED_LO } }
      else s
    | none => s

/-- A bit map of 512 entries is shown. -/
def State.showMap (s : State) (f : Fld) (bits : List Bool) : State :=
  (List.range 16).foldl (fun (a : State) k =>
    a.wr (f.addr k 0) (BitVec.ofNat 32 ((List.range 32).foldl (fun m n => putBit m n (bits.getD (32 * k + n) false)) 0))) s

/-- SNAP_COMPLETE: the capture replaces the one held, whole (R294). -/
def execSnapComplete (s : State) : Res :=
  .next <|
    if s.getF Reg.SNAP_STATUS_STATE ≠ 2 then s
    else
      let vs := s.snap.values
      let a := vs.zipIdx.foldl (fun (a : State) e => a.wr (Reg.SNAP_DATA.addr e.2 0) e.1.1) s
      let a := (a.showMap Reg.SNAP_STOPPED (vs.map fun v => v.2.1)).showMap Reg.SNAP_STALE (vs.map fun v => v.2.2)
      let a := (a.setF Reg.SNAP_STATUS_STOPPED_ANY (ofBool (vs.any fun v => v.2.1))).setF Reg.SNAP_STATUS_STALE_ANY
        (ofBool (vs.any fun v => v.2.2))
      let a := (a.set64 Reg.SNAP_FRAME_LO (s.snap.boundary.getD 0)).set64 Reg.SNAP_RACK_IDX_LO s.snap.rackIdx
      let a := (a.set64 Reg.SNAP_HALL_IDX_LO s.snap.hallIdx).setF Reg.SNAP_STATUS_STATE 3
      ({ a with snap := {} }).cause 13 0

end Sys2Proof.Machine
end

