-- ==== Sys2Proof/Machine/Layer.lean ====
section
/-!
DEFINITION. Applying configuration (02): the start-up load (R26, R27), COMMIT (R28, R30, R38), and the switch of a layer's regions at
the boundary B, or back again (R31 to R35; 04 R88, R94, 05 R103, R111, 07 R173).
-/

namespace Sys2Proof.Machine

/-! ## Settings in force -/

/-- Whether a setting waits for the frame boundary (01 R13): the control path's settings and the contacts' functions. -/
def staged (a : Nat) : Bool := (0x40000 ≤ a && a < 0x80000) || (0x1000 ≤ a && a < 0x1080)

/-- All staged settings come into force. -/
def State.takeAllEff (s : State) : State := { s with eff := s.regs.filter fun e => staged e.1 }

/-- The staged settings among some addresses come into force. -/
def State.takeEff (s : State) (as : List Nat) : State :=
  { s with eff := as.foldl (fun (m : Sparse Word) a => if staged a then Sparse.put regReset m a (s.rd a) else m) s.eff }

/-- What follows at once from a new word in the setting register `a` (14 R335, 17 R410, 13 R301). -/
def State.settingChanged (s : State) (a now : Nat) : State :=
  if a = Reg.EST_S_HEALTH_HEALTH.addr 0 0 then if s.isF Reg.EST_S_CFG_EN 0 then s.showString 0 else s
  else if a = Reg.EST_S_HEALTH_HEALTH.addr 1 0 then if s.isF Reg.EST_S_CFG_EN 1 then s.showString 1 else s
  else if a = Reg.TH_DIE_OPP.addr 0 0 then s.dvfsPlan 0 now
  else if a = Reg.TH_DIE_OPP.addr 1 0 then s.dvfsPlan 1 now
  else if a = Reg.PKL_CFG.addr 0 0 then if s.pklOn then s else s.setF Reg.PKL_STATUS_PHASE 0
  else s

/-! ## A full image (R26, R27) -/

/-- The claims of a region. -/
def CfgRegion.claimed (g : CfgRegion) (c : Nat) : Bool := g.claims.contains c

/-- A region's records are written to their registers on behalf of `path`. -/
def State.writeRegion (s : State) (path : Nat) (g : CfgRegion) : State :=
  s.putWrites path (g.recs.flatMap fun x => x.writes g.claimed g.region)

/-- A region takes the free resources it claims; a claim on one that a run-time owner holds meets CONFLICT (R42, R43). -/
def State.takeClaims (s : State) (g : CfgRegion) : State :=
  g.claims.foldl (fun (a : State) c =>
    let o := a.getF Reg.CFG_OWN_OWNER c
    if o = 0 then a.wr (Reg.CFG_OWN_OWNER.addr c 0) (BitVec.ofNat 32 (g.region + 1)) else a.conflict c o (g.region + 1)) s

/-- A ring that a region claims runs, changes or stops as its new words say; `old` is its CTX_CAP_CFG before. One whose range changes is
enabled anew, and its range checked (09 R210). -/
def State.ringTakes (s : State) (c : Nat) (old : Word) : State :=
  if 0x180 ≤ c && c < 0x1C0 then
    let r := c - 0x180
    let v := (s.rd (Reg.CTX_CAP_CFG.addr r 0)).toNat
    let a := s.wr (Reg.CTX_CAP_CFG.addr r 0) old
    (if a.isF Reg.CTX_CAP_CFG_EN r && a.capRange r ≠ a.capSpan r then a.capDisable r else a).capConfig r v
  else s

/-- A full image is applied at `now`: its records, its claims, its identity. `slot`: the flash slot it came from, none from the
shelf host through `path`. Enumeration of the pack begins (13 R304), and the share sums are checked (06 R123). -/
def State.applyFull (s : State) (i : CfgImage) (slot : Option Nat) (path now : Nat) : State :=
  let a := i.regions.foldl (fun (b : State) g => b.writeRegion path g) s
  let a := i.regions.foldl State.takeClaims a
  let a := i.regions.foldl (fun (b : State) g => g.claims.foldl (fun (c : State) r =>
    if c.getF Reg.CFG_OWN_OWNER r = g.region + 1 then c.ringTakes r 0#32 else c) b) a
  let a := { a with cfg := { a.cfg with
    running := true, noImage := false, fromSlot := slot.isSome, baseDigest := i.digest, active := i.regions, held := none,
    canRevert := false, oldWords := [], oldRegions := [] } }
  let a := ({ a with pwr := { a.pwr with imageAt := some now } }).startMs Reg.PWR_START_IMAGE_MS (s.originMs now)
  let a := (a.setF Reg.CFG_IMAGE_SERIAL i.serial).setF Reg.CFG_LAYER_SERIAL 0
  let a := a.setF Reg.CFG_STATUS_SLOT (slot.getD 0)
  let a := i.regions.foldl (fun (b : State) g => b.setF Reg.CFG_REGION_VER_VERSION g.version g.region) a
  let a := a.setF Reg.TWN_STATUS_FORERUNNER (a.getF Reg.TWN_CFG_FORERUNNER)
  let a := (a.setF Reg.PWR_STATUS_START_STEP 6).cause 12 1
  let a := { a.takeAllEff.shareSums with eff := a.eff }
  (a.dvfsPlanAll now).enumerate false now

/-- In FIELD the life-cycle lock is taken as soon as the image is applied, or at NO_IMAGE (19 R450). -/
def State.lockInField (s : State) : State := if s.lcState = 2 then s.takeLock else s

/-- The serial of a slot's image, greatest first matters; none where the header cannot be read (R26). -/
def slotSerial (img : List Byte) : Option Nat :=
  if slice img 0 4 = [0x41, 0x46, 0x51, 0x49] && leAt img 4 2 = 2 && leAt img 6 2 = 256 then some (leAt img 0x18 4) else none

/-- The order in which the slots are tried. -/
def slotOrder (s0 s1 : List Byte) : List Nat :=
  match slotSerial s0, slotSerial s1 with
  | some a, some b => if a < b then [1, 0] else [0, 1]
  | none, some _ => [1, 0]
  | _, _ => [0, 1]

/-- A slot fails its checks: the error shows and is recorded (R26), and so is a clash of ownership (R43). -/
def State.slotFails (s : State) (slot : Nat) (r : CheckResult) (img : List Byte) : State :=
  let a := (s.cfgError r.code).event 0x0101 0xFFFF [slot, r.code, leAt img 0x18 4]
  match r.clash with | some c => a.conflict c.1 c.2.1 c.2.2 | none => a

/-- A slot whose header passes checks 1 to 4 is copied into the staging buffer (R26). -/
def State.slotStaged (s : State) (img : List Byte) : State :=
  if checkHeader s img img.length true = 0 then { s with cfg := { s.cfg with staging := img } } else s

/-- STARTUP_IMAGE_LOAD at `now` (R26, R27, 17 R400 to R403). -/
def execStartupImageLoad (now : Nat) (s : State) : Res :=
  .next <|
    if s.getF Reg.PWR_STATUS_START_STEP ≠ 5 || !s.runs 1 || !s.runs 2 || s.isF Reg.CLK_STATUS_ON_FAST || s.startBlocked ||
        s.cfg.running || s.cfg.noImage then s
    else
      let img := fun (k : Nat) => if k = 0 then s.cfg.slot0 else s.cfg.slot1
      let check := fun (k : Nat) => checkImage s (img k) (img k).length true
      let order := slotOrder s.cfg.slot0 s.cfg.slot1
      let first := order.getD 0 0
      let second := order.getD 1 0
      let r1 := check first
      let done := fun (a : State) (i : CfgImage) (k : Nat) =>
        (a.applyFull i (some k) 5 now).lockInField
      match r1.image with
      | some i => done (s.slotStaged (img first)) i first
      | none =>
        let a := (s.slotStaged (img first)).slotFails first r1 (img first)
        let r2 := check second
        match r2.image with
        | some i => done (a.slotStaged (img second)) i second
        | none =>
          let a := (a.slotStaged (img second)).slotFails second r2 (img second)
          let e := if first = 0 then [r1.code, r2.code] else [r2.code, r1.code]
          let a := { a with cfg := { a.cfg with noImage := true } }
          let a := (a.setCfgSt cfgNoImage).event 0x0102 0xFFFF e
          ((a.setF Reg.PWR_STATUS_START_FAIL 5).setF Reg.PWR_START_IMAGE_MS 0xFFFF).lockInField

/-! ## COMMIT (R28, R30, R34, R38) -/

/-- The free resources that a layer claims are reserved for its regions until B (R42). -/
def State.reserve (s : State) (gs : List CfgRegion) : State :=
  (imageClaims gs).foldl (fun (a : State) c =>
    if a.getF Reg.CFG_OWN_OWNER c.1 = 0 then
      (a.setF Reg.CFG_OWN_OWNER (c.2 + 1) c.1).setF Reg.CFG_OWN_RESERVED 1 c.1
    else a) s

/-- A layer is committed at `now`: the lock of R34 begins and the inactive planes are written. -/
def State.commitLayer (s : State) (i : CfgImage) (now : Nat) : State :=
  let a := s.reserve i.regions
  let a := { a with cfg := { a.cfg with
    locked := i.regions.map CfgRegion.region, earliest := s.frameFrom (now + 640000), ownWritten := false, twinWritten := false,
    boundary := none } }
  let a := a.setCfgSt cfgWriting
  if a.twn.admitted then a.emit .commitToTwin [1, i.serial] else a

/-- CFG_COMMIT on a path at `now`. -/
def execCfgCommit (path now : Nat) (s : State) : Res :=
  .next <|
    if s.cfgPathRefused path then s.cfgError 0x16
    else if s.cfgSt ≠ cfgStaged then s.cfgError 0x13
    else match s.cfg.held with
      | none => s.cfgError 0x13
      | some i =>
        if i.kind = 1 then
          if s.cfg.running then s.cfgError 0x04 else (s.applyFull i none path now).setCfgSt cfgSwitched
        else if s.twn.admitted && !s.isF Reg.CFG_STATUS_TWIN_STAGED then s.cfgError 0x0E
        else match claimClash s true (i.regions.map CfgRegion.region) [] (imageClaims i.regions) with
          | some c =>
            let a := { s with cfg := { s.cfg with held := none } }
            ((a.cfgError 0x0D).setCfgSt cfgFailed).conflict c.1 c.2.1 c.2.2
          | none => s.commitLayer i now

/-! ## The planes at B (R31) -/

/-- The bits of a register that regions `rs` rule, with the claims of the regions listed. -/
def ruledBits (gs : List CfgRegion) (rs : List Nat) (a : Nat) : Nat :=
  rs.foldl (fun m r => m ||| recBits (fun c => gs.any fun g => g.region = r && g.claimed c) r a) 0

/-- The words of the old planes that REVERT brings back. -/
def State.planeWords (s : State) (both : List CfgRegion) (rs : List Nat) : Sparse Word :=
  s.regs.filter fun e => ruledBits both rs e.1 ≠ 0

/-- The ruled bits of every register go back to their Reset values. -/
def State.clearPlanes (s : State) (both : List CfgRegion) (rs : List Nat) : State :=
  (s.planeWords both rs).foldl (fun (a : State) (e : Nat × Word) =>
    a.wr e.1 (BitVec.ofNat 32 (maskInto e.2.toNat (ruledBits both rs e.1) (regReset e.1).toNat))) s

/-- The words of old planes are put back under the ruled bits. -/
def State.putPlanes (s : State) (both : List CfgRegion) (rs : List Nat) (ws : Sparse Word) : State :=
  ws.foldl (fun (a : State) (e : Nat × Word) =>
    a.wr e.1 (BitVec.ofNat 32 (maskInto (a.rd e.1).toNat (ruledBits both rs e.1) e.2.toNat))) s

/-- The five configuration words of lane `n`. -/
def laneWords (n : Nat) : List Nat := (List.range 5).map fun k => 0x61000 + 64 * n + 4 * k

/-- A lane that is on a period grid keeps its old plane until its period start (R31); `old` is the state before B. -/
def State.holdLane (s old : State) (n : Nat) : State :=
  if (old.lane n).grid.isSome && (laneWords n).any fun a => s.rd a ≠ old.rd a then
    let new := (laneWords n).map fun a => (a, (s.rd a).toNat)
    let a := (laneWords n).foldl (fun (b : State) w => b.wr w (old.rd w)) s
    { a with cfg := { a.cfg with lanePlanes := Sparse.insert a.cfg.lanePlanes n new } }
  else s

/-! ## What switches with the planes -/

/-- The number of delay terms in use (R33). -/
def TileCfg.terms (c : TileCfg) : Nat :=
  if c.b3 ≠ 0 || c.a3 ≠ 0 then 3 else if c.b2 ≠ 0 || c.a2 ≠ 0 then 2 else if c.b1 ≠ 0 || c.a1 ≠ 0 then 1 else 0

/-- Whether a region's records of loop tile `t` carry STATE_KEEP, of their own or, with INHERIT_DEFAULT, by the region's default (R21,
R22). A record with neither flag does not keep its state: whether R21 means such a record too is open (DESIGN CHOICE, log 97). -/
def CfgRegion.keeps (g : CfgRegion) (t : Nat) : Bool :=
  g.recs.any fun x => x.cls = 1 && x.target = t && (bitOf x.flags 0 || (bitOf x.flags 1 && bitOf g.flags 0))

/-- A running loop tile takes its new plane (R33); `old` is the state before B. -/
def State.tileSwitches (s old : State) (g : CfgRegion) (t : Nat) : State :=
  if !(old.tile t).run then s
  else if !s.isE Reg.LT_CTL_ENABLE t then
    { ({ s with eff := old.eff }).stopTile t with eff := s.eff }
  else
    let nb := if s.isE Reg.LT_CTL_SWAP_SRC t then s.bank t else bitOf (s.effF Reg.LT_BANK_SEL (t / 32)) (t % 32)
    let a := s.setMapBit Reg.LT_BANK_ACT t nb
    let before := old.tileCfg t (old.bank t)
    let after := a.tileCfg t nb
    let x := a.tile t
    let a := if x.starting || (g.keeps t && before.terms = after.terms && before.intEn = after.intEn) then a
      else a.setTile t { x with load := 2 }
    a

/-- The lane that tile `t` drives while it runs. -/
def State.drives (s : State) (t : Nat) : Option Nat :=
  if (s.tile t).run && s.isE Reg.LT_CTL_OUT_MODE t then some (s.effF Reg.LT_SRC_C_LANE t) else none

/-- Lane `n` under the new planes (R76, R106): one that loses its tile stops, one that gets one starts, and one that passes from tile to
tile goes on with its last on-time. `ts` are the tiles of the region. -/
def State.laneSwitches (s old : State) (ts : List Nat) (n : Nat) : State :=
  let was := ts.any fun t => old.drives t = some n
  let is := ts.any fun t => s.drives t = some n
  if was && !is then s.laneOfTileStops n
  else if is && !was then s.laneOfTileStarts n
  else if was && is then
    let a := s.setLane n { s.lane n with stop := (s.lane n).leave }
    if a.laneSt n = laneRun || a.laneSt n = laneHeld then a.setLaneSt n (a.laneOn n) else a
  else s

/-- A running filter tile restarts from zero, holding its last sample (R33). -/
def State.filterSwitches (s old : State) (t : Nat) : State :=
  if old.ftRuns t && s.ftRuns t then
    let x := s.ft t
    s.setFt t { x with hist := [], fir := [], count := 0, last := none, restarted := true }
  else s

/-- A FABRIC region switches at `at16`. -/
def State.fabricSwitches (s old : State) (g : CfgRegion) (at16 : Nat) : State :=
  let k := g.region - 3
  let ts := (List.range 24).map (24 * k + ·)
  let a := ts.foldl (fun (b : State) t => b.tileSwitches old g t) s
  let a := (List.range 48).foldl (fun (b : State) n => b.laneSwitches old ts n) a
  let a := (List.range 12).foldl (fun (b : State) i => b.filterSwitches old (12 * k + i)) a
  (List.range 8).foldl (fun (b : State) i => b.logicTakes (8 * k + i) at16 false) a

/-- A PWM region switches at `at16`: a new PERIOD or a new offset of a phase restarts the converter (05 R103). -/
def State.pwmSwitches (s old : State) (k at16 : Nat) : State :=
  let newOfs := fun (n : Nat) =>
    match Sparse.find s.cfg.lanePlanes n with
    | some ws => match ws.find? fun w => w.1 = Reg.PWM_LANE_OFS.addr n 0 with | some w => w.2 | none => old.getF Reg.PWM_LANE_OFS n
    | none => s.getF Reg.PWM_LANE_OFS n
  let phases := (old.phaseLanes k).filter fun n => (s.phaseLanes k).contains n
  let restart := (s.conv k).run &&
    (s.effF Reg.PWM_CONV_PERIOD k ≠ old.effF Reg.PWM_CONV_PERIOD k || phases.any fun n => newOfs n ≠ old.effF Reg.PWM_LANE_OFS n)
  if restart then
    let b := s.setConv k { s.conv k with tb := at16 }
    phases.foldl (fun (c : State) n =>
      if (c.lane n).grid.isSome && (c.lane n).phase then c.setLane n { c.lane n with restart := some at16 } else c) b
  else s

/-- The THICKET region switches: a partition whose words change stops, and is reloaded (07 R173). -/
def State.thicketSwitches (s old : State) : State :=
  (List.range 16).foldl (fun (a : State) p =>
    if a.partRegs p = old.partRegs p then a
    else
      let st := a.partState p
      if st = partRunning then
        let b := (a.haltPart p).partEnter p partStopping
        b.setPart p { b.part p with reload := true }
      else if st = partStopping then a.setPart p { a.part p with reload := true }
      else if st = partEmpty then a
      else a.reloadPart p) s

/-- The layer's regions free what they held and take what their new planes claim. -/
def State.claimsSwitch (s : State) (gs : List CfgRegion) (rs : List Nat) : State :=
  let a := (List.range 512).foldl (fun (b : State) c =>
    if rs.contains (b.getF Reg.CFG_OWN_OWNER c - 1) && b.getF Reg.CFG_OWN_OWNER c ≠ 0 then b.wr (Reg.CFG_OWN_OWNER.addr c 0) 0#32
    else b) s
  gs.foldl (fun (b : State) g => g.claims.foldl (fun (d : State) c =>
    if d.getF Reg.CFG_OWN_OWNER c = 0 then d.wr (Reg.CFG_OWN_OWNER.addr c 0) (BitVec.ofNat 32 (g.region + 1)) else d) b) a

/-- Every region of `gs` takes its new plane at `now` (R31): its records over the Reset values, or the words `back` of the old
planes. -/
def State.switchRegions (s : State) (gs : List CfgRegion) (back : Option (Sparse Word)) (now : Nat) : State :=
  let at16 := now * 16
  let rs := gs.map CfgRegion.region
  let was := s.cfg.active.filter fun g => rs.contains g.region
  let both := gs ++ was
  let a := s.clearPlanes both rs
  let a := match back with
    | none => gs.foldl (fun (b : State) g => b.writeRegion 5 g) a
    | some ws => a.putPlanes both rs ws
  let lanes := (List.range 48).filter fun n => rs.contains (8 + n / 12)
  let a := lanes.foldl (fun (b : State) n => b.holdLane s n) a
  let touched := ((s.planeWords both rs) ++ (a.planeWords both rs)).map Prod.fst
  let a := (a.takeEff touched).claimsSwitch gs rs
  let rings := both.flatMap fun g => g.claims
  let a := rings.foldl (fun (b : State) c => b.ringTakes c (s.rd (Reg.CTX_CAP_CFG.addr (c - 0x180) 0))) a
  let a := gs.foldl (fun (b : State) g =>
    if 3 ≤ g.region && g.region ≤ 6 then b.fabricSwitches s g at16
    else if 8 ≤ g.region && g.region ≤ 11 then b.pwmSwitches s (g.region - 8) at16
    else if g.region = 17 then b.thicketSwitches s
    else b) a
  let a := (((a.tilesAtBoundary).pwmAtBoundary at16).idleTimers).showPins
  let a := touched.foldl (fun (b : State) w => b.settingChanged w now) a
  let a := a.shareSums
  { a with cfg := { a.cfg with
    active := a.cfg.active.map fun g => (gs.find? fun q => q.region = g.region).getD g } }

/-- SWITCHED and the versions of the active planes show (R31, R35). -/
def State.showVersions (s : State) : State :=
  let a := { s with cfg := { s.cfg with switching := false } }
  let a := a.cfg.active.foldl (fun (b : State) g => b.setF Reg.CFG_REGION_VER_VERSION g.version g.region) a
  a.setCfgSt cfgSwitched

/-- They show for a layer at the first frame boundary at which no lane waits for its plane any more (R31). -/
def State.showSwitched (s : State) : State := if s.cfg.switching && s.cfg.lanePlanes = [] then s.showVersions else s

/-- LAYER_SWITCH at the boundary B, `now` in module time (R31 to R35): the loader's layer, or the old planes of a REVERT. -/
def execLayerSwitch (now : Nat) (s : State) : Res :=
  .next <|
    match s.cfg.boundary with
    | none => s
    | some b =>
      if s.frame < b || !(s.cfgSt = cfgArmed || s.cfgSt = cfgReverting) then s
      else
        let revert : Bool := s.cfgSt = cfgReverting
        let gs := if revert then s.cfg.oldRegions else match s.cfg.held with | some i => i.regions | none => []
        let rs := gs.map CfgRegion.region
        let was := s.cfg.active.filter fun g => rs.contains g.region
        let a := s.switchRegions gs (if revert then some s.cfg.oldWords else none) now
        let serial := match s.cfg.held with | some i => i.serial | none => 0
        let a := if revert then a else a.setF Reg.CFG_LAYER_SERIAL serial
        let a := { a with cfg := { a.cfg with
          held := none, locked := [], boundary := none, switching := true, canRevert := !revert,
          oldRegions := if revert then [] else was, oldWords := if revert then [] else s.planeWords (gs ++ was) rs } }
        let a := a.event 0x0103 0xFFFF [b, rs.foldl (fun m r => m + 2 ^ r) 0, a.getF Reg.CFG_LAYER_SERIAL]
        if revert then a.showVersions else a.showSwitched

end Sys2Proof.Machine
end

