-- ==== Sys2Proof/Machine/RegWrite.lean ====
section
/-!
DEFINITION. Register accesses (00 R3 to R10): what a write does under its access code, the locks and owners that refuse it, the
commands that some registers take, pairs, accesses that wait, and the access errors (20 R456).
-/

namespace Sys2Proof.Machine

/-- The state after a command, or the state before where the command stops. -/
def State.after (s : State) (r : Res) : State :=
  match r with
  | .next t => t
  | _ => s

/-! ## Command registers -/

/-- A value written to a register with code WO (R5): the command it names; other values are ignored. -/
def State.commandWrite (s : State) (path a v now : Nat) : State :=
  let cmd := bitsOf v 0 4
  let k := fun (f : Fld) => (a - f.base) / f.s1
  let go := s.after
  if a = Reg.CFG_CMD.addr 0 0 then
    match cmd with
    | 1 => go (execCfgStage path s) | 2 => go (execCfgCommit path now s) | 3 => go (execCfgAbort path s)
    | 4 => go (execCfgRevert path now s) | 5 => go (execCfgClear path s) | 6 => go (execCfgProgramSlot path (bitsOf v 4 4) s)
    | _ => s
  else if a = Reg.CFG_OWN_CLAIM.addr 0 0 then
    if bitOf v 24 then s.release path (bitsOf v 16 8) (bitsOf v 0 9) else s.claim path (bitsOf v 16 8) (bitsOf v 0 9)
  else if a = Reg.LT_RES_TEST.addr 0 0 then if bitOf v 31 then go (execResTestArm (bitsOf v 0 7) s) else s
  else if a / 65536 = 5 then
    match bitsOf v 0 2 with
    | 1 => go (execTimerStart path (k Reg.LT_TMR_CMD) now s) | 2 => go (execTimerStop path (k Reg.LT_TMR_CMD) s) | _ => s
  else if a = Reg.PWM_GRP_SWTRIP.addr 0 0 then
    (List.range 8).foldl (fun (b : State) g => if bitOf v g then b.after (execGroupSwtrip g now b) else b) s
  else if a / 65536 = 6 then go (execShedRequest (k Reg.PWM_CONV_CMD) (bitsOf v 0 3) (now * 16) s)
  else if a = Reg.WB_CMD.addr 0 0 then
    match bitsOf v 0 3 with
    | 1 => go (execWbHold s) | 2 => go (execWbRelease s) | 3 => go (execClearMax s)
    | 4 => go (execRestoreLane (bitsOf v 8 6) s) | _ => s
  else if a / 65536 = 0x100 then
    let p := k Reg.TH_PART_CMD
    match cmd with
    | 1 => go (execPartLoad p s) | 2 => go (execPartStart p s) | 3 => go (execPartStop p s) | 4 => go (execPartUnload p s)
    | 5 => go (execPartClear p s) | _ => s
  else if a = Reg.CTX_CMD.addr 0 0 then
    let i := bitsOf v 16 14
    match cmd with
    | 1 => go (execCtxAlloc path (bitsOf v 4 2) now s) | 2 => go (execCtxFree path i s) | 3 => go (execCtxPin path i s)
    | 4 => go (execCtxUnpin path i s) | 5 => go (execCtxRebuild path i s) | 6 => go (execCtxLookup path (bitsOf v 4 2) s)
    | _ => s
  else if a = Reg.HNT_CMD.addr 0 0 then
    match cmd with
    | 1 => go (execHntDiscover s) | 2 => go (execClearDrops s) | 3 => go (execForget (bitsOf v 16 9) s) | _ => s
  else if a = Reg.CPC_CMD.addr 0 0 then
    match cmd with | 1 => go (execContractSet now s) | 2 => go (execClearDrift s) | _ => s
  else if a = Reg.LDG_CMD.addr 0 0 then
    match cmd with
    | 1 => go (execSyncRack path now s) | 2 => go (execSyncHall path now s) | 3 => go (execStepDown now s) | _ => s
  else if a = Reg.SNAP_CMD.addr 0 0 then
    match bitsOf v 0 2 with | 1 => go (execSnapArm s) | 2 => go (execSnapDisarm s) | _ => s
  else if a = Reg.PKL_CMD.addr 0 0 then
    match cmd with
    | 1 => go (execEnumerate now s) | 2 => go (execReenum now s) | 3 => go (execPklSleep s) | 4 => go (execPklWake now s)
    | 5 => go (execBalStop s) | 6 => go (execPklClear s) | _ => s
  else if a = Reg.EST_CMD.addr 0 0 then
    let n := bitsOf v 8 1
    match cmd with
    | 1 => go (execEstRestore (bitOf v 9) s) | 2 => go (execEstWalk n s) | 3 => go (execWalkAbort n s) | 4 => go (execEstLearn n s)
    | 5 => go (execLearnAbort n s) | 6 => go (execEstAuth s) | 7 => go (execEstShip s) | 8 => go (execShipAbort now s) | _ => s
  else if a = Reg.TWN_CMD.addr 0 0 then
    match cmd with
    | 1 => go (execTwnAdmit now s) | 2 => go (execTwnSwitch s) | 3 => go (execTwnQuarantine s) | 4 => go (execTwnClear s) | _ => s
  else if a = Reg.PWR_CMD.addr 0 0 then
    match cmd with
    | 1 => go (execPwrHold s) | 2 => go (execPwrRun now s) | 3 => go (execPwrKeep now s)
    | 4 => go (execWarmReset (bitsOf v 8 8) now s) | 5 => go (execColdReset (bitsOf v 8 8) now s) | _ => s
  else if a = Reg.CLK_CMD.addr 0 0 then if cmd = 1 then go (execClkSwitch s) else s
  else if a = Reg.LOG_CMD.addr 0 0 then
    match cmd with
    | 1 => go (execLogFreeze now s) | 2 => go (execLogUnfreeze now s) | 3 => go (execDump s) | 4 => go (execClearCounts s) | _ => s
  else if a = Reg.LCS_CMD.addr 0 0 then
    match cmd with
    | 1 => go (execLcChallenge now s) | 2 => go (execLcChange now s) | 3 => go (execLcLock s) | 4 => go (execDebugUnlock now s)
    | 5 => go (execRaiseMin now s) | 6 => go (execEnrol s) | 7 => go (execRevoke s) | 8 => go (execLoadSlot s)
    | 9 => go (execClearSlot s) | _ => s
  else if a = Reg.SYS_IRQ_ACK.addr 0 0 then go (execIrqAck v now s)
  else s

/-- The registers with code WO. -/
def isCommand (a : Nat) : Bool :=
  [Reg.CFG_CMD, Reg.CFG_OWN_CLAIM, Reg.LT_RES_TEST, Reg.PWM_GRP_SWTRIP, Reg.WB_CMD, Reg.CTX_CMD, Reg.HNT_CMD, Reg.CPC_CMD,
    Reg.LDG_CMD, Reg.SNAP_CMD, Reg.PKL_CMD, Reg.EST_CMD, Reg.TWN_CMD, Reg.PWR_CMD, Reg.CLK_CMD, Reg.LOG_CMD, Reg.LCS_CMD,
    Reg.SYS_IRQ_ACK].any (fun f => f.addr 0 0 = a) ||
  (List.range 16).any (fun n => Reg.LT_TMR_CMD.addr n 0 = a || Reg.TH_PART_CMD.addr n 0 = a) ||
  (List.range 4).any fun c => Reg.PWM_CONV_CMD.addr c 0 = a

/-! ## Refusals -/

/-- A write refused under 02 R34, 04 R76, 05 R103 or 07 R162 is counted. -/
def State.lockedWrite (s : State) : State := s.bump Reg.CFG_LOCKED_WRITES

/-- The bits of a register that a committed layer locks (R34). -/
def State.layerBits (s : State) (a : Nat) : Nat :=
  if s.cfg.locked = [] then 0
  else
    let new := match s.cfg.held with | some i => i.regions | none => s.cfg.oldRegions
    ruledBits (s.cfg.active ++ new) s.cfg.locked a

/-- A tile's OUT_MODE or LANE would change while the tile is enabled (04 R76). -/
def State.laneChangeRefused (s : State) (a v : Nat) : Bool :=
  0x51000 ≤ a && a < 0x5D000 &&
    (let t := (a - 0x51000) / 512
     let x := (s.rd a).toNat ^^^ v
     (s.tile t).run && ((a = Reg.LT_CTL.addr t 0 && bitOf x 26) || (a = Reg.LT_SRC_C.addr t 0 && bitsOf x 24 6 ≠ 0)))

/-- A coefficient of the active bank, or of the bank that a staged selection makes active (04 R85). -/
def State.bankRefused (s : State) (a : Nat) : Option Nat :=
  if 0x51000 ≤ a && a < 0x5D000 then
    let t := (a - 0x51000) / 512
    let o := (a - 0x51000) % 512
    let b : Option Bool := if 0x40 ≤ o && o < 0x68 then some false else if 0x80 ≤ o && o < 0xA8 then some true else none
    match b with
    | none => none
    | some b =>
      let staged := if s.isE Reg.LT_CTL_SWAP_SRC t then s.bank t else s.mapBit Reg.LT_BANK_SEL t
      if b = s.bank t || b = staged then some t else none
  else none

/-- Whether converter `c` is enabled (05 R103). -/
def State.convOn (s : State) (c : Nat) : Bool := s.isE Reg.PWM_CONV_CFG_ENABLE c && s.phases c ≠ 0

/-- Whether lane `n` is enabled as a standalone lane (05 R102, R103). -/
def State.standaloneOn (s : State) (n : Nat) : Bool :=
  s.isE Reg.PWM_LANE_CFG_ENABLE n && s.isE Reg.PWM_LANE_CFG_STANDALONE n && s.phases (n / 12) ≤ n % 12

/-- A period or an offset of an enabled converter or standalone lane (05 R103). -/
def State.gridRefused (s : State) (a : Nat) : Bool :=
  (List.range 4).any (fun c => a = Reg.PWM_CONV_PERIOD.addr c 0 && s.convOn c) ||
  (List.range 48).any fun n =>
    (a = Reg.PWM_LANE_OFS.addr n 0 && (if n % 12 < s.phases (n / 12) then s.convOn (n / 12) else s.standaloneOn n)) ||
    (a = Reg.PWM_LANE_PERIOD.addr n 0 && s.standaloneOn n)

/-- A configuration word of a partition that is LOADING, READY or RUNNING (07 R162). -/
def State.partRefused (s : State) (a : Nat) : Bool :=
  0x1001000 ≤ a && a < 0x1002000 && (a - 0x1001000) % 256 < 4 * 39 &&
    (let st := s.partState ((a - 0x1001000) / 256)
     st = partLoading || st = partReady || st = partRunning)

/-! ## The plain write (R4 to R6) -/

/-- The bits of LT_BANK_SEL of the tiles whose bank a logic-tile signal selects: a write has no effect on them (04 R87). -/
def State.logicBanks (s : State) (a : Nat) : Nat :=
  if Reg.LT_BANK_SEL.addr 0 0 ≤ a && a ≤ Reg.LT_BANK_SEL.addr 2 0 then
    let k := (a - Reg.LT_BANK_SEL.addr 0 0) / 4
    ((List.range 32).map fun i => if s.isE Reg.LT_CTL_SWAP_SRC (32 * k + i) then 2 ^ i else 0).foldl (· + ·) 0
  else 0

/-- The bits of a word that a write may set, after the life-cycle lock and a layer's lock. -/
def State.writable (s : State) (row : RegRow) (a : Nat) : Nat :=
  let m := row.rw ||| (if s.isF Reg.LCS_STATUS_LOCK then 0 else row.rwl)
  m - (m &&& (s.layerBits a ||| s.logicBanks a))

/-- What a register with bits of code RW, RWL or W1C holds after a write of `v` (R5, R6). -/
def State.wordAfter (s : State) (row : RegRow) (a v : Nat) : Nat :=
  let old := (s.rd a).toNat
  regShape a (maskInto (old - (old &&& v &&& row.w1c)) (s.writable row a) v)

/-- Pending bits of vectors that stopped qualifying clear (20 R463). -/
def State.irqSettle (s : State) : State :=
  { s with irq := { s.irq with pba := (List.range 15).foldl (fun m v => putBit m v (bitOf m v && s.irqPends v)) s.irq.pba } }

/-- What a plain write leaves to do: status bits that summarise others, rings re-armed, orders accepted, services switched off. -/
def State.wordWritten (s : State) (a v now : Nat) : State :=
  let s := s.settingChanged a now
  if a = Reg.SNS_FAULT_DS.addr 0 0 || a = Reg.SNS_FAULT_OTH.addr 0 0 then s.snsStatus
  else if 0x51000 ≤ a && a < 0x5D000 && (a - 0x51000) % 512 = 0 then
    let t := (a - 0x51000) / 512
    if (s.tile t).cut && !bitOf v 31 then s.setTile t { s.tile t with zero := true } else s
  else if 0x51000 ≤ a && a < 0x5D000 && (a - 0x51000) % 512 = 0x100 then
    let t := (a - 0x51000) / 512
    s.setMapBit Reg.LT_MISS_SUM t (s.isF Reg.LT_STAT_MISS t)
  else if a < 0x10000 then s.irqSettle
  else if (orderOf a v).isSome && s.layerBits a = 0 then s.setF Reg.CPC_STATUS_BAD_ORDER 0
  else s

/-- The value that a firmware write leaves in force where a host write reached the register in the same cycle: the firmware's write
counts as the earlier one, so that the bits the host's write set stand (R7). -/
def State.sameCycle (s : State) (path a v now : Nat) (row : RegRow) : Nat :=
  match s.hostWrite with
  | some (b, h, t) =>
    if pathOwner path = 0x41 && b = a && t = now then maskInto v (row.rw ||| row.rwl) h else v
  | none => v

/-- A write under the access code of its register (R5, R7). -/
def State.plainWrite (s : State) (path a v now : Nat) (row : RegRow) : State :=
  let v := s.sameCycle path a v now row
  let s := if pathOwner path = 0x40 then { s with hostWrite := some (a, v, now) } else s
  let s := if row.rwl ≠ 0 && s.isF Reg.LCS_STATUS_LOCK then s.lockRefused path a v else s
  let locked := s.layerBits a &&& (row.rw ||| row.rwl) ≠ 0
  let b := if locked then s.lockedWrite else s
  let b := (b.wr a (BitVec.ofNat 32 (s.wordAfter row a v))).wordWritten a v now
  if 0x40000 ≤ a && a < 0x80000 && (!locked || s.writable row a ≠ 0) && (row.rw ||| row.rwl ||| row.w1c) ≠ 0 then b.journal a v
  else b

/-! ## Registers with owners (R41, 04 R96, 09 R210, 16 R390) -/

/-- A write to SYS_PIN of contact `i` (16 R390). -/
def State.pinWrite (s : State) (path i v : Nat) : State :=
  let o := s.getF Reg.CFG_OWN_OWNER i
  let runtime := o = 0x40 || o = 0x41
  let mine := o = pathOwner path
  let a := Reg.SYS_PIN.addr i 0
  let clear := bitOf v 30 && (mine || !runtime)
  let b := if clear then s.setF Reg.SYS_PIN_DENIED 0 i else s
  if mine then b.wr a (BitVec.ofNat 32 (maskInto (b.rd a).toNat (settable a) v))
  else if clear then b
  else b.setF Reg.SYS_PIN_DENIED 1 i

/-- A write to a register of general timer `n` (04 R96): by its owner alone. -/
def State.timerWrite (s : State) (path n a v now : Nat) (row : RegRow) : State :=
  let o := s.getF Reg.CFG_OWN_OWNER (0x170 + n)
  let runtime := o = 0x40 || o = 0x41
  if a = Reg.LT_TMR_STAT.addr n 0 then
    if bitOf v 29 && (o = pathOwner path || !runtime) then (s.setF Reg.LT_TMR_STAT_CONFLICT 0 n).journal a v
    else if o = pathOwner path then s
    else s.timerDenied n
  else if o ≠ pathOwner path then s.timerDenied n
  else if isCommand a then s.commandWrite path a v now
  else s.plainWrite path a v now row

/-- A write to a register of capture ring `r` (09 R210, R213): by its owner alone. -/
def State.ringWrite (s : State) (path r a v now : Nat) (row : RegRow) : State :=
  if s.getF Reg.CFG_OWN_OWNER (0x180 + r) ≠ pathOwner path then s.setF Reg.CTX_CAP_STAT_CONFLICT 1 r
  else if a = Reg.CTX_CAP_CFG.addr r 0 then s.capConfig r v
  else
    let b := s.plainWrite path a v now row
    if a = Reg.CTX_CAP_STAT.addr r 0 && bitOf v 29 && s.isF Reg.CTX_CAP_STAT_STOPPED r then b.capRearm r else b

/-- A write to PWM_CTR (05 R115): a 1 asks a drive to close, a 0 opens it. -/
def State.contactorWrite (s : State) (path v : Nat) : State :=
  (List.range 4).foldl (fun (b : State) d =>
    if bitOf v d then b.after (execContactorClose path d b)
    else if bitOf (b.getF Reg.PWM_CTR_CLOSE) d || bitOf (b.getF Reg.PWM_CTR_CLOSED) d then
      let c := (b.setF Reg.PWM_CTR_CLOSE (putBit (b.getF Reg.PWM_CTR_CLOSE) d false)).setF Reg.PWM_CTR_CLOSED
        (putBit (b.getF Reg.PWM_CTR_CLOSED) d false)
      c.journal (Reg.PWM_CTR.addr 0 0) (c.getF Reg.PWM_CTR_CLOSE)
    else b) s

/-- A write to PWM_GRP_TRIP (05 R114): REARM_REFUSED clears, then groups are released. -/
def State.tripWrite (s : State) (v : Nat) : State :=
  let b := if bitOf v 8 then s.setF Reg.PWM_GRP_TRIP_REARM_REFUSED 0 else s
  (List.range 8).foldl (fun (b : State) g => if bitOf v g then b.after (execGroupRelease g b) else b) b

/-! ## One register (R4 to R7) -/

/-- A 32-bit write reaches the register at `a`. -/
def State.regWrite (s : State) (path a v now : Nat) : State :=
  match regRow? a with
  | none => s
  | some row =>
    if 0x1000 ≤ a && a < 0x1080 then s.pinWrite path ((a - 0x1000) / 4) v
    else if 0x5F800 ≤ a && a < 0x5F900 then s.timerWrite path ((a - 0x5F800) / 16) a v now row
    else if 0x101000 ≤ a && a < 0x101800 then s.ringWrite path ((a - 0x101000) / 32) a v now row
    else if a = Reg.PWM_CTR.addr 0 0 then s.contactorWrite path v
    else if a = Reg.PWM_GRP_TRIP.addr 0 0 then s.tripWrite v
    else if isCommand a then s.commandWrite path a v now
    else if s.layerBits a ≠ 0 then s.plainWrite path a v now row
    else if s.laneChangeRefused a v || s.gridRefused a || s.partRefused a then s.lockedWrite
    else if (match orderOf a v with | some o => !orderOk o | none => false) then s.setF Reg.CPC_STATUS_BAD_ORDER 1
    else match s.bankRefused a with
      | some t => s.setF Reg.LT_STAT_BANK_BUSY 1 t
      | none => s.plainWrite path a v now row

/-! ## Pairs (R8, R9) -/

/-- The role of a register in a pair: 1 low word, 2 high word, 0 none. -/
def pairRole (a : Nat) : Nat := match regRow? a with | some r => r.pair | none => 0

/-- Both words of a pair are applied; the log latches a record when its number is complete (18 R434). -/
def State.pairApply (s : State) (path lo vlo vhi now : Nat) : State :=
  let a := (s.regWrite path lo vlo now).regWrite path (lo + 4) vhi now
  if lo = Reg.LOG_RD_SEQ_LO.addr 0 0 then a.after (execLogRdLatch path (vlo + 2 ^ 32 * vhi) a) else a

/-- A write on a path reaches a register whose domain runs: the low word of a pair is held, the high word applies both (R8, R9). -/
def State.wordWrite (s : State) (path a v now : Nat) : State :=
  match pairRole a with
  | 1 => { s with held := Sparse.insert s.held path (a, v) }
  | 2 =>
    match Sparse.find s.held path with
    | some (lo, vlo) =>
      if lo + 4 = a then ({ s with held := Sparse.erase s.held path }).pairApply path lo vlo v now
      else s.pairApply path (a - 4) 0 v now
    | none => s.pairApply path (a - 4) 0 v now
  | _ => s.regWrite path a v now

/-- A read on a path reaches a register whose domain runs: the new state and the value. The low word of a pair latches the high word
(R8); word 0 of what a path reads whole latches the other words (03 R63, 14 R341). -/
def State.wordRead (s : State) (path a : Nat) : State × Nat :=
  match pairRole a with
  | 1 => ({ s with latch := Sparse.insert s.latch path (a, (s.peek path (a + 4)).toNat) }, (s.peek path a).toNat)
  | 2 =>
    (s, match Sparse.find s.latch path with | some (lo, hi) => if lo + 4 = a then hi else 0 | none => 0)
  | _ =>
    if a = Reg.EST_REC.addr 0 0 then (s.estLatch path, (s.peek path a).toNat)
    else if a = Reg.SNS_CC_ACC0.addr 40 0 then (s.ccLatch path 0, s.ccWord 0 0)
    else if a = Reg.SNS_CC_ACC0.addr 41 0 then (s.ccLatch path 1, s.ccWord 1 0)
    else (s, (s.peek path a).toNat)

/-! ## Accesses (R3, R10, 20 R456) -/

/-- SYS_HIF_LAST shows an access error: 1 short write, 2 unaligned, 3 outside every block. -/
def State.hifLast (s : State) (path kind a : Nat) : State :=
  ((s.setF Reg.SYS_HIF_LAST_PATH path).setF Reg.SYS_HIF_LAST_KIND kind).setF Reg.SYS_HIF_LAST_OFFSET a

/-- A write of less than 32 bits (R3). -/
def State.shortAccess (s : State) (path a : Nat) : State :=
  ((s.bump Reg.SYS_HIF_ERR_SHORT).hifLast path 1 a).cause 0 0

/-- An access that is not aligned (R3). -/
def State.unalignedAccess (s : State) (path a : Nat) : State :=
  ((s.bump Reg.SYS_HIF_ERR_UNALIGNED).hifLast path 2 a).cause 0 1

/-- An access outside every block (R456). -/
def State.gapAccess (s : State) (path a : Nat) : State := ((s.bump Reg.SYS_HIF_GAP).hifLast path 3 a).cause 0 2

/-- The local-memory window that holds an address: die and offset. -/
def windowOf (a : Nat) : Option (Nat × Nat) :=
  if 0x1800000 ≤ a && a < 0x1880000 then some (0, a - 0x1800000)
  else if 0x2800000 ≤ a && a < 0x2880000 then some (1, a - 0x2800000)
  else none

/-- Whether an access is carried out now: its domain runs and nothing on its path waits (R10, 20 R458). -/
def State.free? (s : State) (path a : Nat) : Bool := s.answers a && !s.queued path

/-- Whether an access reaches BAR0 at all: the PCIe path needs BAR decoding (20 R455). -/
def State.reaches (s : State) (path : Nat) : Bool := path < 5 && (path ≠ 0 || s.decodes)

/-- The bytes an access takes: one, two, or a word (R3). -/
def accessBytes (size : Nat) : Nat := if size = 1 || size = 2 then size else 4

/-- The addressed bytes of a register's value (R3). -/
def addressedBytes (v addr size : Nat) : Nat := bitsOf v (8 * (addr % 4)) (8 * accessBytes size)

/-- An aligned access to an address inside a block, carried out. -/
def State.carryOut (s : State) (x : Access) (now : Nat) : State :=
  match windowOf x.addr with
  | some (die, off) => s.windowAccess x.path die off x.isWrite x.value (accessBytes x.size)
  | none =>
    if x.isWrite then s.wordWrite x.path x.addr x.value now
    else
      let r := s.wordRead x.path (x.addr / 4 * 4)
      r.1.emit .accessDone [x.path, x.addr, addressedBytes r.2 x.addr x.size]

/-- An access that is not aligned to its own size (R3, DEDUCED) changes nothing and is counted. The spec does not say what a read of
this kind answers: a free value (DESIGN CHOICE, log 14). -/
def State.unalignedEnd (s : State) (x : Access) : State :=
  let b := s.unalignedAccess x.path x.addr
  let b := if (blockDomain x.addr).isNone then b.gapAccess x.path x.addr else b
  if x.isWrite then b else b.useFree.emit .accessDone [x.path, x.addr, b.freeVal 3]

/-- An access arrives. -/
def State.access (s : State) (x : Access) (now : Nat) : State :=
  if !s.reaches x.path then s
  else if x.addr % accessBytes x.size ≠ 0 then s.unalignedEnd x
  else if (blockDomain x.addr).isNone then
    let b := s.gapAccess x.path x.addr
    if x.isWrite then b else b.emit .accessDone [x.path, x.addr, 0]
  else if x.isWrite && x.size < 4 then s.shortAccess x.path x.addr
  else if s.free? x.path x.addr then s.carryOut x now
  else { s with waiting := s.waiting ++ [x] }

/-- An access of `size` bytes: one that covers more than a word is carried out as successive accesses of a word each, in ascending order of
the addresses, the last perhaps shorter (20 R456). -/
def State.accesses (s : State) (path : Nat) (isWrite : Bool) (addr size value now : Nat) : State :=
  if size ≤ 4 then s.access ⟨path, isWrite, addr, value % 2 ^ 32, size⟩ now
  else (List.range ((size + 3) / 4)).foldl (fun (a : State) k =>
    a.access ⟨path, isWrite, addr + 4 * k, bitsOf value (32 * k) 32, min 4 (size - 4 * k)⟩ now) s

/-- REGISTER_WRITE of `value`, `size` bytes, on a path at `now` (R3 to R10, 20 R456). -/
def execRegisterWrite (path addr size value now : Nat) (s : State) : Res :=
  .next (s.accesses path true addr size value now)

/-- PAIR_LOW_READ of `size` bytes on a path (R3, R8, 20 R456). A read of any other register returns its value, and of a high word what the
path's latch holds (R9). -/
def execPairLowRead (path addr size : Nat) (s : State) : Res := .next (s.accesses path false addr size 0 0)

/-- PAIR_LOW_WRITE on a path (R8): held without effect. -/
def execPairLowWrite (path addr value now : Nat) (s : State) : Res :=
  .next <| if pairRole addr = 1 then s.access ⟨path, true, addr, value % 2 ^ 32, 4⟩ now else s

/-- PAIR_HIGH_WRITE on a path at `now` (R8, R9): applies both words. -/
def execPairHighWrite (path addr value now : Nat) (s : State) : Res :=
  .next <| if pairRole addr = 2 then s.access ⟨path, true, addr, value % 2 ^ 32, 4⟩ now else s

/-! ## Accesses that are commands of their own -/

/-- CC_ACC_READ: a read of SNS_CC_ACC0 of CC channel `k` on a path: the low word, with the other words latched (03 R63). -/
def execCcAccRead (path k : Nat) (s : State) : Res :=
  .next <| if k < 2 then s.access ⟨path, false, Reg.SNS_CC_ACC0.addr (40 + k) 0, 0, 4⟩ 0 else s

/-- EST_REC_READ: a read of EST_REC word 0 on a path (14 R341, R347). -/
def execEstRecRead (path : Nat) (s : State) : Res := .next (s.access ⟨path, false, Reg.EST_REC.addr 0 0, 0, 4⟩ 0)

/-- DIE_OPP_REQUEST: a write of TH_DIE_OPP of die `d` on a path (17 R406, R410); it waits while the die's page is stopped (R10). -/
def execDieOppRequest (path d opp now : Nat) (s : State) : Res :=
  .next <| if d < 2 then s.access ⟨path, true, Reg.TH_DIE_OPP.addr d 0, opp % 2 ^ 32, 4⟩ now else s

/-- LM_WINDOW_ACCESS: an access of a word on a path at byte offset `off` of the window of a die (07 R171); it waits while the die's mesh is
stopped (R10). -/
def execLmWindowAccess (path die off : Nat) (isWrite : Bool) (value : Nat) (s : State) : Res :=
  .next <|
    if die < 2 && off < lmSize then s.access ⟨path, isWrite, 0x1800000 + 0x1000000 * die + off, value % 2 ^ 32, 4⟩ 0 else s

end Sys2Proof.Machine
end

