-- ==== Sys2Proof/Machine/Mgmt.lean ====
section
/-!
DEFINITION. The management port (20 R466 to R468), and the completion of accesses that wait on a stopped domain (17 R418).
-/

namespace Sys2Proof.Machine

/-! ## Messages (R466) -/

/-- A management request: TYPE, whether a tag ends it, COUNT, REQUESTER, SEQ, OFFSET, the values of a WRITE. -/
structure MgmtReq where
  typ : Nat
  auth : Bool
  count : Nat
  requester : Nat
  seq : Nat
  offset : Nat
  values : List Nat
  deriving DecidableEq, Repr

/-- The fields of a message, whatever they hold. -/
def mgmtFields (m : List Byte) : MgmtReq :=
  { typ := beAt m 3 1, auth := bitOf (beAt m 4 1) 0, count := beAt m 5 1, requester := beAt m 8 8, seq := beAt m 16 4,
    offset := beAt m 20 4, values := (List.range (beAt m 5 1)).map fun k => beAt m (28 + 4 * k) 4 }

/-- Whether a message is a management request at all: its header is there, with MAGIC, VERSION and a request's TYPE. -/
def mgmtRequest (m : List Byte) (typ : Nat) : Bool :=
  28 ≤ m.length && beAt m 0 2 = 0x414D && beAt m 2 1 = 1 && beAt m 3 1 = typ

/-- Whether a request is well formed and stays within the range it may reach (R466, R467). -/
def MgmtReq.ok (q : MgmtReq) (m : List Byte) : Bool :=
  beAt m 4 1 < 2 && 1 ≤ q.count && q.count ≤ 64 && beAt m 24 4 = 0 && q.offset % 4 = 0 && q.offset + 4 * q.count ≤ 0x130000 &&
    beAt m 6 2 = m.length && m.length = 28 + (if q.typ = 2 then 4 * q.count else 0) + (if q.auth then 16 else 0)

/-- STATUS of a response. -/
abbrev mgmtDoneSt : Nat := 0
abbrev mgmtDenied : Nat := 1
abbrev mgmtBad : Nat := 2
abbrev mgmtAuth : Nat := 3

/-- The tag of a message under the management key, if that slot may act (R446, R466). -/
def State.mgmtTag (s : State) (m : List Byte) : Option (List Byte) :=
  let n := s.getF Reg.SYS_MGMT_CFG_KEY_SLOT
  if s.sslotMay n useNetHmac then some ((Config.hmacSha256 (s.skeyOf n) m).take 16) else none

/-- The response to a request: STATUS and, for a READ carried out, the values. It carries a tag when the request did and the key may
act. -/
def State.mgmtResponse (s : State) (q : MgmtReq) (status : Nat) (values : List Nat) : List Byte :=
  let vs := if q.typ = 1 && status = mgmtDoneSt then values.flatMap (beBytes 4) else []
  let head := fun (auth : Bool) => beBytes 2 0x414D ++ beBytes 1 1 ++ beBytes 1 (q.typ + 2) ++ beBytes 1 (ofBool auth) ++
    beBytes 1 q.count ++ beBytes 2 (28 + vs.length + if auth then 16 else 0) ++ beBytes 8 q.requester ++ beBytes 4 q.seq ++
    beBytes 4 q.offset ++ beBytes 1 status ++ beBytes 3 0 ++ vs
  match if q.auth then s.mgmtTag (head true) else none with
  | some tag => head true ++ tag
  | none => head false

/-- A response leaves. -/
def State.mgmtSend (s : State) (bs : List Byte) : State := s.emit .mgmt (bs.map (·.toNat))

/-! ## Carrying out (R467) -/

/-- A request is carried out from register `k` on, with what it read so far: the state, whether it has ended, its STATUS, and how far it
came. The fuel is the number of registers left. -/
def State.mgmtAccess (q : MgmtReq) (now : Nat) : Nat → Nat → List Nat → State → State × Bool × Nat × Nat × List Nat
  | 0, k, vs, s => (s, true, mgmtDoneSt, k, vs)
  | n + 1, k, vs, s =>
    let a := q.offset + 4 * k
    if q.typ = 2 && !bitOf (s.getF Reg.SYS_MGMT_WMASK) (a / 65536) then (s, true, mgmtDenied, k, vs)
    else if !s.answers a then (s, false, mgmtDoneSt, k, vs)
    else if q.typ = 2 then
      let refused := a = Reg.CFG_CMD.addr 0 0 && s.cfgPathRefused 1
      let b := s.wordWrite 1 a (q.values.getD k 0) now
      if refused then (b, true, mgmtDenied, k, vs) else State.mgmtAccess q now n (k + 1) vs b
    else
      let r := s.wordRead 1 a
      State.mgmtAccess q now n (k + 1) (vs ++ [r.2]) r.1

/-- The greatest SEQ accepted from a requester. -/
def HostState.greatestOf (h : HostState) (requester : Nat) : Option Nat := (h.greatest.find? fun e => e.1 = requester).map Prod.snd

/-- Serial-number order modulo 2^32. -/
def seqAfter (a b : Nat) : Bool := a ≠ b && (a + 2 ^ 32 - b) % 2 ^ 32 < 2 ^ 31

/-- A request has been carried out: the response is sent and kept, the last 32 of them; its SEQ is the greatest of its requester. -/
def State.mgmtEnd (s : State) (q : MgmtReq) (status : Nat) (values : List Nat) : State :=
  let bs := s.mgmtResponse q status values
  let kept := s.host.kept ++ [(q.requester, q.seq, bs)]
  let a := { s with host := { s.host with
    kept := kept.drop (kept.length - 32), greatest := (s.host.greatest.filter fun (e : Nat × Nat) => e.1 ≠ q.requester) ++ [(q.requester, q.seq)] } }
  (a.bump Reg.SYS_MGMT_REQS).mgmtSend bs

/-- A request at the front is taken up (R466 to R468): the state, and whether it is done with. -/
def State.mgmtTake (s : State) (m : List Byte) (now : Nat) : State × Bool :=
  let q := mgmtFields m
  let body := m.take (m.length - 16)
  let tagged := q.auth && (match s.mgmtTag body with | some t => decide (t = m.drop (m.length - 16)) | none => false)
  let answer := fun (t : State) (status : Nat) => (t.mgmtSend (t.mgmtResponse q status []), true)
  let go := fun (_ : Unit) =>
    let r := State.mgmtAccess q now (q.count - s.host.mgmtDone) s.host.mgmtDone s.host.mgmtValues s
    if r.1.host.waiting ≠ s.host.waiting then (r.1, false)
    else if r.2.1 then
      let a := { r.1 with host := { r.1.host with mgmtDone := 0, mgmtValues := [] } }
      (a.mgmtEnd q r.2.2.1 r.2.2.2.2, true)
    else ({ r.1 with host := { r.1.host with mgmtDone := r.2.2.2.1, mgmtValues := r.2.2.2.2 } }, false)
  if s.host.mgmtDone ≠ 0 then go ()
  else if !q.ok m then
    answer (if q.offset % 4 ≠ 0 then s.unalignedAccess 1 q.offset else s) mgmtBad
  else if s.isF Reg.SYS_MGMT_CFG_AUTH_REQ && !tagged then answer (s.cause 0 3) mgmtAuth
  else match s.host.kept.find? fun (e : Nat × Nat × List Byte) => e.1 = q.requester && e.2.1 = q.seq with
    | some e => (s.mgmtSend e.2.2, true)
    | none =>
      match s.host.greatestOf q.requester with
      | some g => if seqAfter q.seq g then go () else (s.bump Reg.SYS_MGMT_DROP, true)
      | none => go ()

/-- Requests are carried out one at a time, in the order of arrival (R468), until one waits on a stopped domain. The fuel is their
number. A request that resets the module ends with it. -/
def State.mgmtServe (now : Nat) : Nat → State → State
  | 0, s => s
  | n + 1, s =>
    match s.host.waiting with
    | [] => s
    | m :: rest =>
      let r := s.mgmtTake m now
      if r.2 then
        State.mgmtServe now n { r.1 with host := { r.1.host with waiting := rest } }
      else r.1

/-- The UDP port of register access. -/
def State.mgmtPort (s : State) : Nat := s.getF Reg.SYS_MGMT_CFG_MGMT_PORT

/-- A request arrives: the port answers while it is enabled and its domain runs (SYS_MGMT_CFG.EN). -/
def State.mgmtArrives (s : State) (typ : Nat) (m : List Byte) (now : Nat) : State :=
  if !mgmtRequest m typ || !s.isF Reg.SYS_MGMT_CFG_EN || !s.runs 17 || s.dead then s
  else
    let a := { s with host := { s.host with waiting := s.host.waiting ++ [m] } }
    if s.host.waiting = [] then State.mgmtServe now 1 a else a

/-- MGMT_READ: a READ request arrives (R467). -/
def execMgmtRead (frame : List Byte) (now : Nat) (s : State) : Res :=
  .next (s.receive 2 s.mgmtPort frame fun m => s.mgmtArrives 1 m now)

/-- MGMT_WRITE: a WRITE request arrives (R467). -/
def execMgmtWrite (frame : List Byte) (now : Nat) (s : State) : Res :=
  .next (s.receive 2 s.mgmtPort frame fun m => s.mgmtArrives 2 m now)

/-! ## Completion (R418, R457) -/

/-- Whether the domain of a waiting access runs again. -/
def State.ready (s : State) (x : Access) : Bool := if 2 ^ 26 ≤ x.addr then s.runs 22 && s.runs 14 else s.answers x.addr

/-- A waiting access is carried out; one through BAR2 counts its address from 2^26. -/
def State.endAccess (s : State) (x : Access) (bads : List Flaw) (now : Nat) : State :=
  if 2 ^ 26 ≤ x.addr then
    if x.isWrite then s.bar2Write (x.addr - 2 ^ 26) (bar2Bytes x.value) else s.bar2Read (x.addr - 2 ^ 26) x.value bads
  else s.carryOut x now

/-- STOPPED_DOMAIN_ACCESS_COMPLETE on a path at `now`: its oldest waiting access, or for the management port the request that waits,
goes on once the domain runs; `bads` are the wrong symbols of the blocks that a read of the stack finds (09 R215). -/
def execStoppedDomainAccessComplete (path : Nat) (bads : List (List (Nat × Nat))) (now : Nat) (s : State) : Res :=
  .next <|
    if path = 1 && s.host.waiting ≠ [] then State.mgmtServe now s.host.waiting.length s
    else match s.waiting.find? fun x => x.path = path with
      | some x => if s.ready x then ({ s with waiting := s.waiting.erase x }).endAccess x bads now else s
      | none => s

end Sys2Proof.Machine
end

