-- ==== Sys2Proof/Machine/Boundaries.lean ====
section
/-!
DEFINITION. The boundaries (01 R12 to R15): what a frame, a forecast and a grant boundary do, the pre-run of a module that takes over at
one (15 R364), and the end of RESYNC (15 R376). A frame boundary comes as FRAME_BOUNDARY, then FORECAST_BOUNDARY and GRANT_BOUNDARY where
the three coincide, in the order of R15; LAYER_SWITCH of that boundary follows the first of them.
-/

namespace Sys2Proof.Machine

/-! ## Settings in force (R13) -/

/-- The access path as which a journal entry is applied: 6 for the supervisor firmware's writes to what it owns, else 5 (15 R358). -/
def State.journalPath (s : State) (a v : Nat) : Nat :=
  if a = Reg.CFG_OWN_CLAIM.addr 0 0 then (if bitsOf v 16 8 = 0x41 then 6 else 5)
  else if 0x5F800 ≤ a && a < 0x5F900 then (if s.getF Reg.CFG_OWN_OWNER (0x170 + (a - 0x5F800) / 16) = 0x41 then 6 else 5)
  else 5

/-- The writes of a journal are applied in order at `now`. -/
def State.applyJournal (s : State) (j : List (Nat × Nat)) (now : Nat) : State :=
  j.foldl (fun (a : State) (e : Nat × Nat) => a.regWrite (a.journalPath e.1 e.2) e.1 e.2 now) s

/-- A filter tile that starts or stops begins afresh; `old` is the state before the boundary (03 R52). -/
def State.filtersAtBoundary (s old : State) : State :=
  (List.range 48).foldl (fun (a : State) t => if old.ftRuns t = a.ftRuns t then a else a.setFt t {}) s

/-- Every setting written since the last boundary takes effect at `at16` (R13; 04 R76, R86, R89, R91, R94, R96; 05 R98, R102). -/
def State.settingsAtBoundary (s : State) (at16 : Nat) : State :=
  let was := s.logicOn
  let a := (s.takeAllEff.filtersAtBoundary s).senseDomains
  let a := (a.tilesAtBoundary).logicAtBoundary was at16
  ((a.pwmAtBoundary at16).idleTimers).showPins

/-! ## The frame counter (R12, 17 R414) -/

/-- FRAME_COUNTER_SET at a boundary at `now`: the counter takes the whole frames of PTP time, once after a reset, and TIME_SET is
recorded (18 R422). -/
def State.counterSet (s : State) (ptpFrames now : Nat) : State :=
  if s.hnt.counterDue && s.ownGrid && !s.isF Reg.CLK_STATUS_COUNTER_SET then
    let earlier := s.logTime now
    let src := s.timeSrc
    let a := s.setCounter ptpFrames
    let a := { a with hnt := { a.hnt with counterDue := false }, pwr := { a.pwr with rtc := some (-((a.hnt.utcOff * 1000000 : Nat) : Int)) } }
    (a.setF Reg.CLK_STATUS_COUNTER_SET 1).event 0x0002 0xFFFF [earlier, src, a.utc (ptpFrames * 10000)]
  else s

/-- The frame that begins at `now`: zero at the first boundary of the PWM clock (17 R400), then one for each 10 µs. -/
def State.nextFrame (s : State) (now : Nat) : State :=
  if s.counting then { s with frame := max (s.frame + 1) (s.frameOf now) }
  else { s with frame := 0, frameBase := now, counting := true }

/-- FRAME_BOUNDARY at `now`; `ptpFrames` are the whole frames of PTP time at it (R12, R13, R15). `sram` is what the checks of the Hub's
SRAMs found since the last boundary beyond the loop tiles' words: SRAM, word, wrong bytes (09 R219; DESIGN CHOICE, log 98: no command of its
own reports them). -/
def execFrameBoundary (now ptpFrames : Nat) (sram : List (Nat × Nat × Nat)) (s : State) : Res :=
  .next <|
    if !s.runs 2 || s.dead then s
    else
      let s := sram.foldl (fun (b : State) e => b.sramWord 0xFFFF e.1 e.2.1 e.2.2) s
      let a := (s.nextFrame now).counterSet ptpFrames now
      let f := a.frame
      let t := a.frameTime f
      let j := a.twn.applyJ
      let a := ({ a with twn := { a.twn with applyJ := [] } }).applyJournal j t
      let a := (a.loadsAtBoundary).settingsAtBoundary (t * 16)
      let a := (((a.ldgApply f).ldgAtBoundary t).wbAtBoundary f).showSeen t
      let a := ((a.estFrame t).showSwitched).twinFrame f t
      if f % 25 = 0 then a else a.wbWork f

/-! ## The forecast boundary (R15, 07 R175) -/

/-- A lane record as Windbreak reads it and TWIN carries it (07 R174). -/
def LaneRec.bytes (r : LaneRec) : List Byte :=
  let point := fun (p : Int × Nat) => leBytes 2 p.2 ++ leBytes 2 (unsign 16 p.1)
  let pad := fun (n : Nat) (bs : List Byte) => (bs ++ List.replicate n 0#8).take n
  leBytes 2 r.job ++ leBytes 2 r.flags ++ leBytes 2 r.near.length ++ leBytes 2 r.far.length ++ leBytes 4 (unsign 32 r.mean) ++
    leBytes 4 r.period ++ leBytes 8 r.base ++ leBytes 1 r.model ++ List.replicate 39 0#8 ++ pad 640 (r.near.flatMap point) ++
    pad 800 (r.far.flatMap point) ++ List.replicate 32 0#8

/-- The staged record of lane `l` becomes active in frame `f`; a lane without one has missed a boundary (07 R175, 06 R132); the
JOB contexts show it (09 R203). A free lane is idle and publishes nothing (02 R41). -/
def State.publishLane (s : State) (l f : Nat) : State :=
  let x := s.wbLane l
  match if s.owned (0x1C0 + l) then x.staged else none with
  | some r =>
    let a := s.setWbLane l { x with active := some { r with base := f }, staged := none, missed := 0, silent := false }
    let a := (a.setF Reg.TH_LANE_STAT_PART r.part l).setF Reg.TH_LANE_STAT_VALID 1 l
    let a := a.setF Reg.TH_LANE_STAT_PUBS (a.getF Reg.TH_LANE_STAT_PUBS l + 1) l
    let a := match x.active with | some old => if old.job = r.job then a else a.showJobLane old.job | none => a
    a.showJobLane r.job
  | none => if x.active.isSome then s.setWbLane l { x with missed := x.missed + 1 } else s

/-- The greatest difference of the points that two records both hold, in 0.1 A. -/
def pointGap (a b : List (Int × Nat)) : Nat := ((List.zip a b).map fun e => (e.1.1 - e.2.1).natAbs).foldl max 0

/-- The standby compares the record it completed for a lane with the active's for the same boundary (15, the standby self-test). -/
def State.shadowForecast (s : State) (l : Nat) (theirs : List Byte) : State :=
  match (s.wbLane l).staged with
  | some r =>
    let q := readLane theirs 0
    let gap := max (pointGap r.near q.near) (pointGap r.far q.far)
    { s with twn := { s.twn with hFc := s.twn.hFc + 1, hFcMax := max s.twn.hFcMax gap } }
  | none => s

/-- In SHADOW the records that a module completed for a boundary are compared and published nowhere (07 R172). -/
def State.shadowLanes (s : State) (shadow : List (Nat × List Byte)) : State :=
  let a := if s.twinSt = 2 then shadow.foldl (fun (b : State) e => b.shadowForecast e.1 e.2) s else s
  (List.range 64).foldl (fun (b : State) l => b.setWbLane l { b.wbLane l with staged := none }) a

/-- FORECAST_BOUNDARY of the present frame (R15, 07 R148, R168, R175, R176, R195). `shadow` are the records of the active module that a
STANDBY has over TWIN, by lane. Windbreak then computes with the forecast of this boundary. -/
def execForecastBoundary (shadow : List (Nat × List Byte)) (s : State) : Res :=
  .next <|
    if s.frame % 25 ≠ 0 || s.th.fcAt = some s.frame || !s.counting || !s.runs 1 then s
    else
      let f := s.frame
      let a := if s.getF Reg.PWR_STATUS_STATE = 1 then s.shadowLanes shadow
        else (List.range 64).foldl (fun (b : State) l => b.publishLane l f) s
      let a := a.thicketBoundary (s.frameTime f)
      let a := if a.isF Reg.TWN_STATUS_LOCK && a.twn.admitted then
          (List.range 64).foldl (fun (b : State) l =>
            match (b.wbLane l).active with
            | some r => if r.base = f then b.toTwin twinForecast (leBytes 1 l ++ r.bytes) else b
            | none => b) a
        else a
      a.wbWork f

/-! ## The grant boundary (R15, 11 R256, 15 R372) -/

/-- GRANT_BOUNDARY of the present frame: once, after its settings and its forecast (R15). `heard` are the reports of the rack's other shelves, each its shelf, W_DIS, W_CHG in Wh, storage
current in mA, nominal and estimated energy in Wh; `tHub` is the Hub's temperature in 0.1 °C. -/
def execGrantBoundary (heard : List ((Nat × Nat × Nat) × Int × Nat × Int)) (tHub : Int) (s : State) : Res :=
  .next <|
    if s.frame % 1000 ≠ 0 || s.th.fcAt ≠ some s.frame || s.cpc.grantAt = some s.frame || !s.runs 1 then s
    else
      let f := s.frame
      let s : State := { s with cpc := { s.cpc with grantAt := some f } }
      let now := s.frameTime f
      let a := s.coppiceAtBoundary f now (heard.map fun r => ⟨r.1.1, r.1.2.1, r.1.2.2, r.2.1, r.2.2.1, r.2.2.2, 0⟩)
      if a.twinSt = 2 then a.healthReport tHub now else a

/-! ## Taking over (15 R364, 02 R37) -/

/-- TAKEOVER_PRE_RUN at F1, the present frame, which began after the module entered TAKING: the last record that was not FAULTED, the journals since, the replay up to F1; from then on
the tiles run live for PRE_RUN frames. A layer not yet switched is abandoned. -/
def execTakeoverPreRun (s : State) : Res :=
  .next <|
    if s.twinSt ≠ 3 || s.twn.commanded || s.twn.preLeft.isSome || s.twn.requestAt.isSome || s.isF Reg.TWN_STATUS_LOCK || s.frame ≤ s.twn.takeF then s
    else
      let t := s.frameTime s.frame
      let a := s.abandonLayer
      let a := match a.twn.copy with
        | some bs =>
          let b := (a.loadRecord bs).applyJournal a.twn.faultJournal t
          (b.settingsAtBoundary (t * 16)).replayUpTo (leAt bs 0 8) (t * 16)
        | none => a
      if a.twinSt = 3 then
        let n := min 50 (max 4 (a.getF Reg.TWN_CFG_PRE_RUN))
        let live := a.twn.samples.filter fun x => t * 16 ≤ x.at16
        live.foldl State.replaySample { a with twn := { a.twn with preLeft := some n, samples := [], faultJournal := [] } }
      else a

/-! ## The end of RESYNC (15 R376) -/

/-- A layer of the twin is checked and applied at once (02 R38); where a check fails, the state with the clash recorded (02 R43). -/
def State.resyncLayer (s : State) (img : List Byte) (now : Nat) : Except State State :=
  if leAt img 8 1 ≠ 2 then .error s
  else
    let r := checkImage s img img.length false
    match r.image with
    | none => .error (match r.clash with | some c => s.conflict c.1 c.2.1 c.2.2 | none => s)
    | some i =>
      let a := s.switchRegions i.regions none now
      let a := a.setF Reg.CFG_LAYER_SERIAL i.serial
      let a := { a with cfg := { a.cfg with switching := true, canRevert := false, oldRegions := [], oldWords := [] } }
      .ok (a.event 0x0103 0xFFFF [a.frame, i.regions.foldl (fun m g => m + 2 ^ g.region) 0, i.serial])

/-- The twin's layers, oldest first, that the module does not have yet. -/
def State.resyncLayers (now : Nat) : List (List Byte) → State → Except State State
  | [], s => .ok s
  | img :: more, s =>
    if leAt img 0x18 4 ≤ s.getF Reg.CFG_LAYER_SERIAL then State.resyncLayers now more s
    else match s.resyncLayer img now with
      | .ok a => State.resyncLayers now more a
      | .error a => .error a

/-- RESYNC ends in QUARANTINE with a result. -/
def State.resyncFails (s : State) (result : Nat) : State := (s.quarantine 0).twinResult result

/-- RESYNC_COMPLETE at `now`: what the twin sent, its image's SERIAL and digest, its FORERUNNER setting, its layers and, where it has come,
its latest estimator record, is compared and applied; with 100 good records in a row under it the module reports and becomes STANDBY.
While records are still to come, RESYNC goes on. -/
def execResyncComplete (serial : Nat) (digest : List Byte) (forerunner : Bool) (layers : List (List Byte)) (estimator : Option (List Byte))
    (tHub : Int) (now : Nat) (s : State) : Res :=
  .next <|
    match s.twn.resyncAt with
    | none => s
    | some since =>
      if s.twinSt ≠ 5 then s
      else if since + s.getF Reg.TWN_TIMES_RESYNC_MAX * 10000000 < now then s.resyncFails 7
      else if serial ≠ s.getF Reg.CFG_IMAGE_SERIAL || digest.take 16 ≠ s.cfg.baseDigest then s.resyncFails 4
      else if forerunner ≠ s.forerunner then s.resyncFails 5
      else match State.resyncLayers now layers s with
        | .error a => a.resyncFails 6
        | .ok a =>
          let new : Bool := a.getF Reg.CFG_LAYER_SERIAL ≠ s.getF Reg.CFG_LAYER_SERIAL
          let a := if new then { a with twn := { a.twn with good := 0 } } else a
          let a := match estimator with | some bs => a.applyRecord bs false now 0 | none => a
          if a.twn.good < 100 then a
          else
            let a := { a with twn := { a.twn with hMismatch := 0, hGap := a.twn.hRun } }
            let ok : Bool := a.verdict ≤ 1
            let a := a.healthReport tHub now
            if ok then
              ((({ a with twn := { a.twn with resyncAt := none } }).twinState 2).twinResult 1).showReady now
            else a.resyncFails 6

end Sys2Proof.Machine
end

