-- ==== Sys2Proof/Machine/Intake.lean ====
section
/-!
DEFINITION. Arriving HINT, TELEM and ACTIVITY messages (10 R226 to R233, 09 R205, R206). `now` is module time in ns, `port` 0
is ETHA and 1 ETHB, `frame` an Ethernet frame, `queued` the messages in the intake queue.
-/

namespace Sys2Proof.Machine

/-- Widths of the body's fields by TYPE (R226, R228, R229). -/
def bodyFields (typ : Nat) : List Nat :=
  match typ with
  | 1 => [2, 1, 1, 8, 4, 2, 2, 4, 4]
  | 2 => [2, 2, 4, 4, 8, 2, 1, 1]
  | _ => [2, 2, 4, 4, 4, 4, 4, 8]

/-- A body with each field turned to little-endian, padded with zeros to 44 bytes (R205). -/
def leBody : List Nat → List Byte → List Byte
  | [], _ => []
  | w :: ws, bs => (bs.take w).reverse ++ leBody ws (bs.drop w)

/-- The record of a message accepted at `now` in STREAM context `c` (R205). -/
def intakeRecord (typ c gap now : Nat) (m : List Byte) : List Byte :=
  let body := leBody (bodyFields typ) (m.drop 20)
  leBytes 8 (now / 10) ++ leBytes 4 0 ++ leBytes 4 (beAt m 16 4) ++ leBytes 1 typ ++
    leBytes 1 (gap + 2 * ofBool (beAt m 5 1 < 3)) ++ leBytes 2 c ++ body ++ leBytes (44 - body.length) 0

/-- The contexts of a message: STREAM, and JOB where it names one; none when one cannot be allocated (check 11). -/
def State.intakeContexts (s : State) (id job now : Nat) : State × Option (Nat × Option Nat) :=
  let there := (s.ctxOf kindStream id).toList ++ (s.ctxOf kindJob job).toList
  let x := s.ctxGet kindStream id now there
  if x.2.2 = 3 then (x.1, none)
  else if job = 0 then (x.1, some (x.2.1, none))
  else
    let y := x.1.ctxGet kindJob job now (x.2.1 :: there)
    if y.2.2 = 3 then (y.1, none) else (y.1, some (x.2.1, some y.2.1))

/-- A message of package `i` that passed checks 1 to 10 is accepted when its contexts are there: recorded, and its sender's
state follows (R206, R227, R231); its STREAM names the job of this message, or none (09 R203). The answer tells whether it was. -/
def State.intake (s : State) (typ i : Nat) (c : SeqClass) (port now : Nat) (m : List Byte) : State × Bool :=
  let id := beAt m 8 8
  let x := s.intakeContexts id (beAt m 20 2) now
  match x.2 with
  | none => (x.1.hntDrop 11, false)
  | some (st, job) =>
    let a := x.1.hintAccept i c m port now
    let a := (a.setF Reg.HNT_PT_STATE_CTX_VALID 1 i).setF Reg.HNT_PT_STATE_CTX st i
    let gap := match c with
      | .next k => ofBool (k ≠ 0)
      | _ => 0
    let r := intakeRecord typ st gap now m
    let a := (a.ctxRecordOrHold st (typ - 1) now r).nameParent st job
    let a := match typ, job with
      | 1, some j => a.ctxRecordOrHold j 0 now r
      | _, _ => a
    (a, true)

/-- HINT_RECEIVE (R226, R227, R231, R253). -/
def execHintReceive (port now queued : Nat) (frame : List Byte) (s : State) : Res :=
  .next <| s.receiveHint port frame fun message => match s.hintCheck 1 port now message queued with
    | .dropped a => a
    | .stranger a => a
    | .member a i c =>
      let r := a.intake 1 i c port now message
      if r.2 && beAt message 22 1 = 4 then r.1.endJob i (beAt message 20 2) else r.1

/-- TELEM_RECEIVE (R228, R231, R253, R254, R257). -/
def execTelemReceive (port now queued : Nat) (frame : List Byte) (s : State) : Res :=
  .next <| s.receiveHint port frame fun message => match s.hintCheck 2 port now message queued with
    | .dropped a => a
    | .stranger a => a
    | .member a i c =>
      let r := a.intake 2 i c port now message
      if !r.2 then r.1
      else
        let job := beAt message 20 2
        let freq := beAt message 22 2
        let p := r.1.partner i
        let b := r.1.setPartner i { p with
          job := if job = 0 then none else some job
          freq := freq
          ended := if p.ended = some job then p.ended else none
          telems := p.telems ++ [⟨now / 10, job, freq, beAt message 24 4, beAt message 32 8⟩]
          eBase := p.eBase }
        let b := b.dropWaiting
        if job = 0 then b else (b.nameJob job).reportLimit job freq (beAt message 43 1 % 4 ≠ 0)

/-- ACTIVITY_RECEIVE (R229, R231, R265). -/
def execActivityReceive (port now queued : Nat) (frame : List Byte) (s : State) : Res :=
  .next <| s.receiveHint port frame fun message => match s.hintCheck 3 port now message queued with
    | .dropped a => a
    | .stranger a => a
    | .member a i c =>
      let r := a.intake 3 i c port now message
      if !r.2 then r.1
      else
        let p := r.1.partner i
        r.1.setPartner i { p with acts := p.acts ++
          [⟨now / 10, beAt message 20 2, beAt message 24 4, beAt message 32 4, beAt message 36 4, beAt message 40 4⟩] }

end Sys2Proof.Machine
end

