-- ==== Sys2Proof/Machine/Dispatch.lean ====
section
/-!
DEFINITION. The meaning of every command: one arm per constructor.
-/

namespace Sys2Proof.Machine

def exec (i : Instr) (s : State) : Host.Outcome State Fault Refusal :=
  match i with
  | .registerWrite path addr size value now => Sys2Proof.Machine.execRegisterWrite path addr size value now s
  | .pairLowRead path addr size => Sys2Proof.Machine.execPairLowRead path addr size s
  | .pairLowWrite path addr value now => Sys2Proof.Machine.execPairLowWrite path addr value now s
  | .pairHighWrite path addr value now => Sys2Proof.Machine.execPairHighWrite path addr value now s
  | .stoppedDomainAccessComplete path bads now => Sys2Proof.Machine.execStoppedDomainAccessComplete path bads now s
  | .frameBoundary now ptpFrames sram => Sys2Proof.Machine.execFrameBoundary now ptpFrames sram s
  | .forecastBoundary shadow => Sys2Proof.Machine.execForecastBoundary shadow s
  | .grantBoundary heard tHub => Sys2Proof.Machine.execGrantBoundary heard tHub s
  | .sweepBoundary now => Sys2Proof.Machine.execSweepBoundary now s
  | .startupImageLoad now => Sys2Proof.Machine.execStartupImageLoad now s
  | .cfgStage path => Sys2Proof.Machine.execCfgStage path s
  | .cfgStageComplete => Sys2Proof.Machine.execCfgStageComplete s
  | .twinLayerStaged => Sys2Proof.Machine.execTwinLayerStaged s
  | .cfgCommit path now => Sys2Proof.Machine.execCfgCommit path now s
  | .planeWriteComplete twin region good now => Sys2Proof.Machine.execPlaneWriteComplete twin region good now s
  | .layerSwitch now => Sys2Proof.Machine.execLayerSwitch now s
  | .cfgAbort path => Sys2Proof.Machine.execCfgAbort path s
  | .cfgRevert path now => Sys2Proof.Machine.execCfgRevert path now s
  | .cfgClear path => Sys2Proof.Machine.execCfgClear path s
  | .cfgProgramSlot path slot => Sys2Proof.Machine.execCfgProgramSlot path slot s
  | .programSlotComplete => Sys2Proof.Machine.execProgramSlotComplete s
  | .ownClaim path owner resource => Sys2Proof.Machine.execOwnClaim path owner resource s
  | .ownRelease path owner resource => Sys2Proof.Machine.execOwnRelease path owner resource s
  | .stuck channel => Sys2Proof.Machine.execStuck channel s
  | .stuckClear channel => Sys2Proof.Machine.execStuckClear channel s
  | .clkLoss group => Sys2Proof.Machine.execClkLoss group s
  | .clkLossClear group => Sys2Proof.Machine.execClkLossClear group s
  | .filterTrigger tile at16 bits edge span stale => Sys2Proof.Machine.execFilterTrigger tile at16 bits edge span stale s
  | .limitComparator tile x => Sys2Proof.Machine.execLimitComparator tile x s
  | .adTrigger channel at16 => Sys2Proof.Machine.execAdTrigger channel at16 s
  | .adConversionDone channel code stale => Sys2Proof.Machine.execAdConversionDone channel code stale s
  | .ccBlock channel sum now => Sys2Proof.Machine.execCcBlock channel sum now s
  | .ccAccRead path channel => Sys2Proof.Machine.execCcAccRead path channel s
  | .packSampleInstant => Sys2Proof.Machine.execPackSampleInstant s
  | .notchOpen => Sys2Proof.Machine.execNotchOpen s
  | .notchClose => Sys2Proof.Machine.execNotchClose s
  | .loopTileSample tile at16 place upset sram => Sys2Proof.Machine.execLoopTileSample tile at16 place upset sram s
  | .deadlineMiss tile cause event at16 => Sys2Proof.Machine.execDeadlineMiss tile cause event at16 s
  | .faultShutdown tile at16 => Sys2Proof.Machine.execFaultShutdown tile at16 s
  | .resTestArm tile => Sys2Proof.Machine.execResTestArm tile s
  | .logicTileTransition tile at16 pins => Sys2Proof.Machine.execLogicTileTransition tile at16 pins s
  | .logicDwellReached tile at16 => Sys2Proof.Machine.execLogicDwellReached tile at16 s
  | .timerStart path timer now => Sys2Proof.Machine.execTimerStart path timer now s
  | .timerStop path timer => Sys2Proof.Machine.execTimerStop path timer s
  | .timerExpire timer at16 => Sys2Proof.Machine.execTimerExpire timer at16 s
  | .pwmPeriodStart lane at16 upset => Sys2Proof.Machine.execPwmPeriodStart lane at16 upset s
  | .shedRequest converter target at16 => Sys2Proof.Machine.execShedRequest converter target at16 s
  | .shedCommit converter at16 => Sys2Proof.Machine.execShedCommit converter at16 s
  | .readdCommit converter at16 => Sys2Proof.Machine.execReaddCommit converter at16 s
  | .stepSignal converter at16 => Sys2Proof.Machine.execStepSignal converter at16 s
  | .faultInput input lowPs now => Sys2Proof.Machine.execFaultInput input lowPs now s
  | .groupSwtrip group now => Sys2Proof.Machine.execGroupSwtrip group now s
  | .groupRelease group => Sys2Proof.Machine.execGroupRelease group s
  | .contactorOpen group now => Sys2Proof.Machine.execContactorOpen group now s
  | .contactorClose path drive => Sys2Proof.Machine.execContactorClose path drive s
  | .localTarget => Sys2Proof.Machine.execLocalTarget s
  | .feedBad => Sys2Proof.Machine.execFeedBad s
  | .feedRecovered => Sys2Proof.Machine.execFeedRecovered s
  | .laneAbsent lane => Sys2Proof.Machine.execLaneAbsent lane s
  | .laneStepScore lane ago span => Sys2Proof.Machine.execLaneStepScore lane ago span s
  | .reserveExit => Sys2Proof.Machine.execReserveExit s
  | .wbHold => Sys2Proof.Machine.execWbHold s
  | .wbRelease => Sys2Proof.Machine.execWbRelease s
  | .clearMax => Sys2Proof.Machine.execClearMax s
  | .restoreLane lane => Sys2Proof.Machine.execRestoreLane lane s
  | .scalarInstruction core now cycle upset => Sys2Proof.Machine.execScalarInstruction core now cycle upset s
  | .ecall core => Sys2Proof.Machine.execEcall core s
  | .ebreak core => Sys2Proof.Machine.execEbreak core s
  | .coreFault partition now => Sys2Proof.Machine.execCoreFault partition now s
  | .thSend core now upset => Sys2Proof.Machine.execThSend core now upset s
  | .thSendnb core upset => Sys2Proof.Machine.execThSendnb core upset s
  | .thRecv core now => Sys2Proof.Machine.execThRecv core now s
  | .thPeek core => Sys2Proof.Machine.execThPeek core s
  | .thWait core now => Sys2Proof.Machine.execThWait core now s
  | .thRelease core => Sys2Proof.Machine.execThRelease core s
  | .thCredits core => Sys2Proof.Machine.execThCredits core s
  | .thBarrier core now => Sys2Proof.Machine.execThBarrier core now s
  | .barrierTimeout core now => Sys2Proof.Machine.execBarrierTimeout core now s
  | .messageArrive core channel => Sys2Proof.Machine.execMessageArrive core channel s
  | .creditArrive core endpoint => Sys2Proof.Machine.execCreditArrive core endpoint s
  | .waitTimeout core now => Sys2Proof.Machine.execWaitTimeout core now s
  | .thDma core upset => Sys2Proof.Machine.execThDma core upset s
  | .dmaComplete core tag bad => Sys2Proof.Machine.execDmaComplete core tag bad s
  | .thDmawait core now => Sys2Proof.Machine.execThDmawait core now s
  | .thDmapoll core => Sys2Proof.Machine.execThDmapoll core s
  | .thPub core now upset => Sys2Proof.Machine.execThPub core now upset s
  | .thSlotsel core => Sys2Proof.Machine.execThSlotsel core s
  | .thTzero core => Sys2Proof.Machine.execThTzero core s
  | .thTld core upset => Sys2Proof.Machine.execThTld core upset s
  | .thTst core => Sys2Proof.Machine.execThTst core s
  | .thTmma core upset => Sys2Proof.Machine.execThTmma core upset s
  | .thTmmaT core upset => Sys2Proof.Machine.execThTmmaT core upset s
  | .thCvtE4m3F32 core upset => Sys2Proof.Machine.execThCvtE4m3F32 core upset s
  | .thCvtE5m2F32 core upset => Sys2Proof.Machine.execThCvtE5m2F32 core upset s
  | .thCvtBf16F32 core upset => Sys2Proof.Machine.execThCvtBf16F32 core upset s
  | .thCvtI8F32 core upset => Sys2Proof.Machine.execThCvtI8F32 core upset s
  | .thCvtQ12bF32 core upset => Sys2Proof.Machine.execThCvtQ12bF32 core upset s
  | .thCvtF32E4m3 core upset => Sys2Proof.Machine.execThCvtF32E4m3 core upset s
  | .thCvtF32E5m2 core upset => Sys2Proof.Machine.execThCvtF32E5m2 core upset s
  | .thCvtF32Bf16 core upset => Sys2Proof.Machine.execThCvtF32Bf16 core upset s
  | .thCvtF32I8 core upset => Sys2Proof.Machine.execThCvtF32I8 core upset s
  | .thCvtF32Q12b core upset => Sys2Proof.Machine.execThCvtF32Q12b core upset s
  | .partLoad partition => Sys2Proof.Machine.execPartLoad partition s
  | .partLoadComplete partition => Sys2Proof.Machine.execPartLoadComplete partition s
  | .partStart partition => Sys2Proof.Machine.execPartStart partition s
  | .partStop partition => Sys2Proof.Machine.execPartStop partition s
  | .partStopComplete partition => Sys2Proof.Machine.execPartStopComplete partition s
  | .partUnload partition => Sys2Proof.Machine.execPartUnload partition s
  | .partClear partition => Sys2Proof.Machine.execPartClear partition s
  | .partAutoRestart partition now => Sys2Proof.Machine.execPartAutoRestart partition now s
  | .partResume => Sys2Proof.Machine.execPartResume s
  | .lmWindowAccess path die offset isWrite value => Sys2Proof.Machine.execLmWindowAccess path die offset isWrite value s
  | .dieOppRequest path d opp now => Sys2Proof.Machine.execDieOppRequest path d opp now s
  | .dvfsStepComplete d now => Sys2Proof.Machine.execDvfsStepComplete d now s
  | .dieOverThrottle d temp now => Sys2Proof.Machine.execDieOverThrottle d temp now s
  | .dieThrottleRestore d temp now => Sys2Proof.Machine.execDieThrottleRestore d temp now s
  | .overtemp d temp => Sys2Proof.Machine.execOvertemp d temp s
  | .hubOverheatReset temp now => Sys2Proof.Machine.execHubOverheatReset temp now s
  | .ctxAlloc path kind now => Sys2Proof.Machine.execCtxAlloc path kind now s
  | .ctxFree path index => Sys2Proof.Machine.execCtxFree path index s
  | .ctxPin path index => Sys2Proof.Machine.execCtxPin path index s
  | .ctxUnpin path index => Sys2Proof.Machine.execCtxUnpin path index s
  | .ctxRebuild path index => Sys2Proof.Machine.execCtxRebuild path index s
  | .ctxLookup path kind => Sys2Proof.Machine.execCtxLookup path kind s
  | .contextWipeComplete index now => Sys2Proof.Machine.execContextWipeComplete index now s
  | .captureEnable path ring value => Sys2Proof.Machine.execCaptureEnable path ring value s
  | .captureBlockWrite ring lost => Sys2Proof.Machine.execCaptureBlockWrite ring lost s
  | .captureTrigger ring => Sys2Proof.Machine.execCaptureTrigger ring s
  | .capturePostDone ring => Sys2Proof.Machine.execCapturePostDone ring s
  | .scrubStep flaw => Sys2Proof.Machine.execScrubStep flaw s
  | .stackWipeComplete tenths => Sys2Proof.Machine.execStackWipeComplete tenths s
  | .bar2Read off n bads => Sys2Proof.Machine.execBar2Read off n bads s
  | .bar2Write off bytes => Sys2Proof.Machine.execBar2Write off bytes s
  | .hintReceive port now queued frame => Sys2Proof.Machine.execHintReceive port now queued frame s
  | .telemReceive port now queued frame => Sys2Proof.Machine.execTelemReceive port now queued frame s
  | .activityReceive port now queued frame => Sys2Proof.Machine.execActivityReceive port now queued frame s
  | .grantReceive port now frame => Sys2Proof.Machine.execGrantReceive port now frame s
  | .discoverReceive port now frame => Sys2Proof.Machine.execDiscoverReceive port now frame s
  | .announceReceive port now frame => Sys2Proof.Machine.execAnnounceReceive port now frame s
  | .announceSend now => Sys2Proof.Machine.execAnnounceSend now s
  | .partnerListen now => Sys2Proof.Machine.execPartnerListen now s
  | .admitPoint now => Sys2Proof.Machine.execAdmitPoint now s
  | .partnerSilent entry now => Sys2Proof.Machine.execPartnerSilent entry now s
  | .partnerLeft entry now => Sys2Proof.Machine.execPartnerLeft entry now s
  | .hntDiscover => Sys2Proof.Machine.execHntDiscover s
  | .clearDrops => Sys2Proof.Machine.execClearDrops s
  | .forget entry => Sys2Proof.Machine.execForget entry s
  | .ethLinkChange port up now => Sys2Proof.Machine.execEthLinkChange port up now s
  | .ptpSyncReceive port now domain t1 t2 delay => Sys2Proof.Machine.execPtpSyncReceive port now domain t1 t2 delay s
  | .ptpSyncLoss now => Sys2Proof.Machine.execPtpSyncLoss now s
  | .holdoverExpire now => Sys2Proof.Machine.execHoldoverExpire now s
  | .hallBoundary now => Sys2Proof.Machine.execHallBoundary now s
  | .loanExpiry => Sys2Proof.Machine.execLoanExpiry s
  | .loanGuardExpiry => Sys2Proof.Machine.execLoanGuardExpiry s
  | .limitClearElapsed slot => Sys2Proof.Machine.execLimitClearElapsed slot s
  | .jobTableTimeout slot => Sys2Proof.Machine.execJobTableTimeout slot s
  | .modelDrift => Sys2Proof.Machine.execModelDrift s
  | .grantCommitTimeout now => Sys2Proof.Machine.execGrantCommitTimeout now s
  | .contractSet now => Sys2Proof.Machine.execContractSet now s
  | .clearDrift => Sys2Proof.Machine.execClearDrift s
  | .appendReceive port now frame => Sys2Proof.Machine.execAppendReceive port now frame s
  | .appendAckReceive port now frame => Sys2Proof.Machine.execAppendAckReceive port now frame s
  | .voteReqReceive port now frame => Sys2Proof.Machine.execVoteReqReceive port now frame s
  | .voteReceive port now frame => Sys2Proof.Machine.execVoteReceive port now frame s
  | .syncReqReceive port now frame => Sys2Proof.Machine.execSyncReqReceive port now frame s
  | .syncAnsReceive port now frame => Sys2Proof.Machine.execSyncAnsReceive port now frame s
  | .syncDone path => Sys2Proof.Machine.execSyncDone path s
  | .syncTimeout path now => Sys2Proof.Machine.execSyncTimeout path now s
  | .joinReceive port now frame => Sys2Proof.Machine.execJoinReceive port now frame s
  | .joinAnsReceive port now frame => Sys2Proof.Machine.execJoinAnsReceive port now frame s
  | .joinRetry group now => Sys2Proof.Machine.execJoinRetry group now s
  | .groupForm group now => Sys2Proof.Machine.execGroupForm group now s
  | .groupReform now => Sys2Proof.Machine.execGroupReform now s
  | .heartbeatSend group now => Sys2Proof.Machine.execHeartbeatSend group now s
  | .electionTimeout group now => Sys2Proof.Machine.execElectionTimeout group now s
  | .leaseEnd group now => Sys2Proof.Machine.execLeaseEnd group now s
  | .stateReceive port now frame => Sys2Proof.Machine.execStateReceive port now frame s
  | .proposeReceive port now frame => Sys2Proof.Machine.execProposeReceive port now frame s
  | .proposeAnsReceive port now frame => Sys2Proof.Machine.execProposeAnsReceive port now frame s
  | .claimReceive port now frame => Sys2Proof.Machine.execClaimReceive port now frame s
  | .arbiterWindowEnd shelf now => Sys2Proof.Machine.execArbiterWindowEnd shelf now s
  | .deputyDecideTimeout shelf now => Sys2Proof.Machine.execDeputyDecideTimeout shelf now s
  | .decideReceive port now frame => Sys2Proof.Machine.execDecideReceive port now frame s
  | .syncRack path now => Sys2Proof.Machine.execSyncRack path now s
  | .syncHall path now => Sys2Proof.Machine.execSyncHall path now s
  | .stepDown now => Sys2Proof.Machine.execStepDown now s
  | .snapArm => Sys2Proof.Machine.execSnapArm s
  | .snapDisarm => Sys2Proof.Machine.execSnapDisarm s
  | .snapCapture stale => Sys2Proof.Machine.execSnapCapture stale s
  | .snapComplete => Sys2Proof.Machine.execSnapComplete s
  | .enumerate now => Sys2Proof.Machine.execEnumerate now s
  | .reenum now => Sys2Proof.Machine.execReenum now s
  | .pklSleep => Sys2Proof.Machine.execPklSleep s
  | .pklWake now => Sys2Proof.Machine.execPklWake now s
  | .balStop => Sys2Proof.Machine.execBalStop s
  | .pklClear => Sys2Proof.Machine.execPklClear s
  | .enumAnsReceive radio now message => Sys2Proof.Machine.execEnumAnsReceive radio now message s
  | .enumStepTimeout now => Sys2Proof.Machine.execEnumStepTimeout now s
  | .enumOpenSlotsEnd now => Sys2Proof.Machine.execEnumOpenSlotsEnd now s
  | .reportReceive radio message => Sys2Proof.Machine.execReportReceive radio message s
  | .primaryPassEnd now => Sys2Proof.Machine.execPrimaryPassEnd now s
  | .sweepClose now => Sys2Proof.Machine.execSweepClose now s
  | .balAckReceive message => Sys2Proof.Machine.execBalAckReceive message s
  | .discoveryGap now => Sys2Proof.Machine.execDiscoveryGap now s
  | .alarmReceive now message => Sys2Proof.Machine.execAlarmReceive now message s
  | .authRespReceive now message => Sys2Proof.Machine.execAuthRespReceive now message s
  | .authTimeout now => Sys2Proof.Machine.execAuthTimeout now s
  | .authPeriodElapsed => Sys2Proof.Machine.execAuthPeriodElapsed s
  | .estRestore force => Sys2Proof.Machine.execEstRestore force s
  | .restoreApply now => Sys2Proof.Machine.execRestoreApply now s
  | .estWalk string => Sys2Proof.Machine.execEstWalk string s
  | .walkBegin string => Sys2Proof.Machine.execWalkBegin string s
  | .walkAbort string => Sys2Proof.Machine.execWalkAbort string s
  | .walkMaxElapsed string => Sys2Proof.Machine.execWalkMaxElapsed string s
  | .estLearn string => Sys2Proof.Machine.execEstLearn string s
  | .learnAbort string => Sys2Proof.Machine.execLearnAbort string s
  | .learnTimeoutElapsed string => Sys2Proof.Machine.execLearnTimeoutElapsed string s
  | .drift string => Sys2Proof.Machine.execDrift string s
  | .estAuth => Sys2Proof.Machine.execEstAuth s
  | .estRecRead path => Sys2Proof.Machine.execEstRecRead path s
  | .estShip => Sys2Proof.Machine.execEstShip s
  | .shipQuiet now => Sys2Proof.Machine.execShipQuiet now s
  | .shipRecord => Sys2Proof.Machine.execShipRecord s
  | .shipRecordWaitEnd => Sys2Proof.Machine.execShipRecordWaitEnd s
  | .shipChgWaitEnd asserted now => Sys2Proof.Machine.execShipChgWaitEnd asserted now s
  | .shipPowerEntry now => Sys2Proof.Machine.execShipPowerEntry now s
  | .shipAbort now => Sys2Proof.Machine.execShipAbort now s
  | .chgDetectWake highMs straps bad => Sys2Proof.Machine.execChgDetectWake highMs straps bad s
  | .stateRecordReceive message now => Sys2Proof.Machine.execStateRecordReceive message now s
  | .beatSend now => Sys2Proof.Machine.execBeatSend now s
  | .beatReceive path now message => Sys2Proof.Machine.execBeatReceive path now message s
  | .beatMiss path now => Sys2Proof.Machine.execBeatMiss path now s
  | .takeoverPreRun => Sys2Proof.Machine.execTakeoverPreRun s
  | .lockRequest now => Sys2Proof.Machine.execLockRequest now s
  | .twinClaimSensed asserted now => Sys2Proof.Machine.execTwinClaimSensed asserted now s
  | .lockAcquire now failAt => Sys2Proof.Machine.execLockAcquire now failAt s
  | .keeperExpiry now => Sys2Proof.Machine.execKeeperExpiry now s
  | .lockBlocked now => Sys2Proof.Machine.execLockBlocked now s
  | .lockWaitElapsed now => Sys2Proof.Machine.execLockWaitElapsed now s
  | .slotExchange answer now => Sys2Proof.Machine.execSlotExchange answer now s
  | .twnAdmit now => Sys2Proof.Machine.execTwnAdmit now s
  | .resyncComplete serial digest forerunner layers estimator tHub now => Sys2Proof.Machine.execResyncComplete serial digest forerunner layers estimator tHub now s
  | .twnSwitch => Sys2Proof.Machine.execTwnSwitch s
  | .twnQuarantine => Sys2Proof.Machine.execTwnQuarantine s
  | .twnClear => Sys2Proof.Machine.execTwnClear s
  | .powerOnReset straps bad auxA auxB okA okB => Sys2Proof.Machine.execPowerOnReset straps bad auxA auxB okA okB s
  | .resetPin svc lowNs now => Sys2Proof.Machine.execResetPin svc lowNs now s
  | .pciePerst asserted => Sys2Proof.Machine.execPciePerst asserted s
  | .watchdog now => Sys2Proof.Machine.execWatchdog now s
  | .startupStepComplete step serial now => Sys2Proof.Machine.execStartupStepComplete step serial now s
  | .startupStepTimeout step wipe now => Sys2Proof.Machine.execStartupStepTimeout step wipe now s
  | .clkSwitch => Sys2Proof.Machine.execClkSwitch s
  | .auxLost input volt now => Sys2Proof.Machine.execAuxLost input volt now s
  | .auxReturn input volt => Sys2Proof.Machine.execAuxReturn input volt s
  | .holdupStart now => Sys2Proof.Machine.execHoldupStart now s
  | .holdupEnd mW now => Sys2Proof.Machine.execHoldupEnd mW now s
  | .pwrHold => Sys2Proof.Machine.execPwrHold s
  | .pwrRun now => Sys2Proof.Machine.execPwrRun now s
  | .pwrKeep now => Sys2Proof.Machine.execPwrKeep now s
  | .warmReset confirm now => Sys2Proof.Machine.execWarmReset confirm now s
  | .coldReset confirm now => Sys2Proof.Machine.execColdReset confirm now s
  | .keepTimerWake now => Sys2Proof.Machine.execKeepTimerWake now s
  | .keepCurrentWake k now => Sys2Proof.Machine.execKeepCurrentWake k now s
  | .logRecordArrive count now => Sys2Proof.Machine.execLogRecordArrive count now s
  | .repeatWindowEnd code source now => Sys2Proof.Machine.execRepeatWindowEnd code source now s
  | .logPageProgrammed now => Sys2Proof.Machine.execLogPageProgrammed now s
  | .logBlockErased now => Sys2Proof.Machine.execLogBlockErased now s
  | .logRecover now => Sys2Proof.Machine.execLogRecover now s
  | .logFreeze now => Sys2Proof.Machine.execLogFreeze now s
  | .logUnfreeze now => Sys2Proof.Machine.execLogUnfreeze now s
  | .freezeMaxElapsed now => Sys2Proof.Machine.execFreezeMaxElapsed now s
  | .dump => Sys2Proof.Machine.execDump s
  | .dumpComplete => Sys2Proof.Machine.execDumpComplete s
  | .clearCounts => Sys2Proof.Machine.execClearCounts s
  | .logRdLatch path seq => Sys2Proof.Machine.execLogRdLatch path seq s
  | .lcChallenge now => Sys2Proof.Machine.execLcChallenge now s
  | .nonceLapse now => Sys2Proof.Machine.execNonceLapse now s
  | .lcChange now => Sys2Proof.Machine.execLcChange now s
  | .lcChangeStepComplete now => Sys2Proof.Machine.execLcChangeStepComplete now s
  | .lcLock => Sys2Proof.Machine.execLcLock s
  | .debugUnlock now => Sys2Proof.Machine.execDebugUnlock now s
  | .raiseMin now => Sys2Proof.Machine.execRaiseMin now s
  | .enrol => Sys2Proof.Machine.execEnrol s
  | .revoke => Sys2Proof.Machine.execRevoke s
  | .loadSlot => Sys2Proof.Machine.execLoadSlot s
  | .clearSlot => Sys2Proof.Machine.execClearSlot s
  | .jtagInstruction instr => Sys2Proof.Machine.execJtagInstruction instr s
  | .irqAck mask now => Sys2Proof.Machine.execIrqAck mask now s
  | .msixSend v now => Sys2Proof.Machine.execMsixSend v now s
  | .msixUnmask v masked now => Sys2Proof.Machine.execMsixUnmask v masked now s
  | .irqHoldoffEnd v now => Sys2Proof.Machine.execIrqHoldoffEnd v now s
  | .mgmtRead frame now => Sys2Proof.Machine.execMgmtRead frame now s
  | .mgmtWrite frame now => Sys2Proof.Machine.execMgmtWrite frame now s
  | .smbusBlockRead cmd stale => Sys2Proof.Machine.execSmbusBlockRead cmd stale s
  | .smbusAlertResponse => Sys2Proof.Machine.execSmbusAlertResponse s
  | .faultInputRelease input => Sys2Proof.Machine.execFaultInputRelease input s
  | .twinLaneChange down => Sys2Proof.Machine.execTwinLaneChange down s
  | .netBack now => Sys2Proof.Machine.execNetBack now s
  | .ptpAnnounceReceive port now announce => Sys2Proof.Machine.execPtpAnnounceReceive port now announce s
  | .healthReportReceive message now => Sys2Proof.Machine.execHealthReportReceive message now s
  | .recoveryImageReceive slot image => Sys2Proof.Machine.execRecoveryImageReceive slot image s
  | .lockstep => Sys2Proof.Machine.execLockstep s
  | .clockOutOfRange => Sys2Proof.Machine.execClockOutOfRange s
  | .railOutOfRange => Sys2Proof.Machine.execRailOutOfRange s
  | .stackOverheat hot => Sys2Proof.Machine.execStackOverheat hot s
  | .pcieLinkStateChange link => Sys2Proof.Machine.execPcieLinkStateChange link s
  | .pciePowerStateWrite d3 => Sys2Proof.Machine.execPciePowerStateWrite d3 s
  | .icmpv6Receive port frame => Sys2Proof.Machine.execIcmpv6Receive port frame s

end Sys2Proof.Machine
end

