-- ==== Sys2Proof/Safety.lean ====
section
/-!
DEFINITION. What a good state is, and what statements say of two states, in the terms they use.
-/

namespace Sys2Proof.Machine

/-- The stack's bytes are in canonical form: addresses rising, no byte listed that an unlisted address reads as. -/
def Memory.wf (m : Sparse Byte) : Bool := Sparse.wf (fun _ => 0#8) m

/-- The register file, the settings in force, the stack and its poison marks are in canonical form: equal contents are equal data. -/
def State.canonical (s : State) : Bool :=
  Sparse.wf regReset s.regs && Sparse.wf regReset s.eff && Memory.wf s.mem && Sparse.wf (fun _ => false) s.poison

/-- What every step keeps: the canonical form of those and of the charge estimator's strings. -/
def State.inv (s : State) : Bool := s.canonical && Sparse.wf (fun _ => ({} : EstString)) s.est.str

/-- Command `c` completes at `s`: its meaning answers a next state, and `P` holds of it. -/
def Completes (c : Instr) (s : State) (P : State → Prop) : Prop := ∃ t, exec c s = .next t ∧ P t

/-- No register but those listed reads otherwise in `t` than in `s`. -/
def OnlyRegs (s t : State) (as : List Nat) : Prop := ∀ a, a ∉ as → t.rd a = s.rd a

/-- A field of a register takes a value, and the register's other bits stay. -/
def SetsField (s t : State) (f : Fld) (i v : Nat) (j : Nat := 0) : Prop := t.rd (f.addr i j) = f.into (s.rd (f.addr i j)) v

/-- Fields of the register at `a` take values, one after another, and the register's other bits stay. -/
def SetsFields (s t : State) (a : Nat) (fs : List (Fld × Nat)) : Prop := t.rd a = fs.foldl (fun w e => e.1.into w e.2) (s.rd a)

/-- A counter field counts `n` more and saturates at its width (R6's counters). -/
def Counts (s t : State) (f : Fld) (i n : Nat) (j : Nat := 0) : Prop := SetsField s t f i (min (s.getF f i j + n) (2 ^ f.w - 1)) j

/-- Cause bits of interrupt vector `v` are set (20 R461), and the vector's other causes stay. -/
def Raises (s t : State) (v : Nat) (bits : List Nat) : Prop :=
  t.getF Reg.SYS_IRQ_CAUSE v = bits.foldl (fun w b => putBit w b true) (s.getF Reg.SYS_IRQ_CAUSE v)

/-! ## Sense ingress -/

/-- Samples of a full window of filter tile `n` (03 R52). -/
def State.ftWindow (s : State) (n : Nat) : Nat := sincWindow (s.ftOrder n) (s.ftOsr n)

/-- Whether filter tile `n` takes a DS channel. -/
def State.ftDs (s : State) (n : Nat) : Bool := decide (s.effF Reg.SNS_FT_CFG_INPUT n < 32)

/-- Whether the clock of the DS channel that tile `n` takes, if it takes one, runs at a known frequency (R46, R47). -/
def State.ftClocked (s : State) (n : Nat) : Bool :=
  !s.ftDs n || (s.groupFreqOk (s.effF Reg.SNS_FT_CFG_INPUT n / 4) && !bitOf s.sns.noClock (s.effF Reg.SNS_FT_CFG_INPUT n / 4))

/-- Whether the module's own clock captures the bits of tile `n` (R46). -/
def State.ftOwn (s : State) (n : Nat) : Bool := s.ftDs n && s.ownClock (s.effF Reg.SNS_FT_CFG_INPUT n / 4)

/-- The end of tile `n`'s window for an event at `at16`, in steps: the first capture edge after it (R54). -/
def State.ftEnd (s : State) (n at16 edge : Nat) : Nat := at16 + if s.ftOwn n then s.toCapture (s.effF Reg.SNS_FT_CFG_INPUT n) at16 else edge

/-- Whether that window meets the last notch (R56). -/
def State.ftNotch (s : State) (n at16 edge span : Nat) : Bool :=
  s.ftDs n && s.meetsNotch ((s.ftEnd n at16 edge : Int) -
    (if s.ftOwn n then (s.ftWindow n - 1) * freqPeriod (s.effF Reg.SNS_GRP_CFG_FREQ (s.effF Reg.SNS_FT_CFG_INPUT n / 4)) else span)) (s.ftEnd n at16 edge)

/-- The newest window of tile `n` once `bits` have come on a DS input: ±2^23, newest first. -/
def State.ftHist (s : State) (n : Nat) (bits : List Bool) : List (Int × Nat) :=
  if s.ftDs n then ((bits.reverse.map fun (b : Bool) => ((if b then 2 ^ 23 else -(2 ^ 23) : Int), 0)) ++ (s.ft n).hist).take (s.ftWindow n)
  else (s.ft n).hist

/-- The sinc output of that window, calibrated on a DS input, and its flags (R52, R56, R65). -/
def State.sincSample (s : State) (n : Nat) (bits : List Bool) (notch : Bool) : Int × Nat :=
  let w := s.ftHist n bits
  let mean := sincMean (s.ftOrder n) (s.ftOsr n) (w.map (·.1))
  let norm := clampInt (-(2 ^ 23 - 1)) (2 ^ 23 - 1) mean
  let cal := if s.ftDs n then s.calChannel (s.effF Reg.SNS_FT_CFG_INPUT n) norm else (norm, false)
  (cal.1, joinFlags ((w.map (·.2)).foldl joinFlags (if notch then flagNotch else 0)) (if norm ≠ mean || cal.2 then flagSat else 0))

/-- Taps of tile `n`'s FIR stage. -/
def State.ftTaps (s : State) (n : Nat) : Nat := s.effF Reg.SNS_FT_CFG_FIR_TAPS n + 1

/-- Whether tile `n` publishes at its next kept event: without FIR always; with it once the taps are full, at every FIR_DEC-th (R52). -/
def State.ftDueNow (s : State) (n : Nat) : Bool :=
  !s.isE Reg.SNS_FT_CFG_FIR_EN n || (decide (s.ftTaps n ≤ (s.ft n).fir.length + 1) &&
    decide (((s.ft n).count + 1) % (s.effF Reg.SNS_FT_CFG_FIR_DEC n + 1) = 0))

/-- The sample that tile `n` publishes: the sinc output, or the FIR stage's over the newest sinc outputs (R52, R56). -/
def State.ftSample (s : State) (n : Nat) (bits : List Bool) (notch : Bool) : Int × Nat :=
  if s.isE Reg.SNS_FT_CFG_FIR_EN n then
    let xs := (s.sincSample n bits notch :: (s.ft n).fir).take (s.ftTaps n)
    let r := firOut (s.ftCoefs n (s.ftTaps n)) (xs.map (·.1))
    (r.1, joinFlags ((xs.map (·.2)).foldl joinFlags 0) (if r.2 then flagSat else 0))
  else s.sincSample n bits notch

/-- Tile `n` keeps a trigger event at `at16`: it runs on a clocked input, the instant is an event of its trigger, its window is full, and
the last kept event lies 500 ns back (R52, R54, R55). -/
def State.ftKeeps (s : State) (n at16 : Nat) (bits : List Bool) : Bool :=
  decide (n < 48) && s.ftRuns n && s.ftClocked n && s.isEvent (s.ftTrigger n) at16 && decide (s.ftWindow n ≤ (s.ftHist n bits).length) &&
    (s.ft n).last.all fun k => decide (k + 8000 ≤ at16)

/-- The channel that tile `n` takes, if it takes one, has STUCK or CLK_LOSS (R50). -/
def State.ftBad (s : State) (n : Nat) : Bool :=
  s.ftDs n && (bitOf s.sns.stuck (s.effF Reg.SNS_FT_CFG_INPUT n) || bitOf s.sns.loss (s.effF Reg.SNS_FT_CFG_INPUT n))

/-- SNS_FT_OUT of tile `n` shows a sample (R55, R56). -/
def ShowsSample (s t : State) (n : Nat) (x : Int × Nat) : Prop :=
  SetsFields s t (Reg.SNS_FT_OUT.addr n 0) [(Reg.SNS_FT_OUT_VALUE, unsign 24 x.1), (Reg.SNS_FT_OUT_INVALID, ofBool (bitOf x.2 0)),
    (Reg.SNS_FT_OUT_STALE, ofBool (bitOf x.2 1)), (Reg.SNS_FT_OUT_NOTCH, ofBool (bitOf x.2 2)), (Reg.SNS_FT_OUT_SAT, ofBool (bitOf x.2 3))]

/-- Samples of a full window of tile `n`'s limit comparator (R57). -/
def State.cmpWindow (s : State) (n : Nat) : Nat := sincWindow 2 (max 4 (s.effF Reg.SNS_FT_CMP_CFG_CMP_OSR n))

/-- Whether a block of CC channel `k` that ends at `now` is the one that contains T_s (R70). -/
def State.ccPacks (s : State) (k now : Nat) : Bool := bitOf s.sns.packWait k && s.sns.ts.all fun ts => decide (ts < now)

/-- What the comparator of tile `n` takes: a bit of a DS channel as ±2^23, else the sample (R57). -/
def State.cmpIn (s : State) (n : Nat) (x : Int) : Int := if s.ftDs n then (if x = 0 then -(2 ^ 23) else 2 ^ 23) else x

/-- The comparator's window once `x` has come (R57). -/
def State.cmpHist (s : State) (n : Nat) (x : Int) : List Int := (s.cmpIn n x :: (s.ft n).cmp).take (s.cmpWindow n)

/-- The comparator's mean with the sample `x`, calibrated on a DS channel (R57). -/
def State.cmpMean (s : State) (n : Nat) (x : Int) : Int :=
  let m := clampInt (-(2 ^ 23 - 1)) (2 ^ 23 - 1) (sincMean 2 (max 4 (s.effF Reg.SNS_FT_CMP_CFG_CMP_OSR n)) (s.cmpHist n x))
  if s.ftDs n then (s.calChannel (s.effF Reg.SNS_FT_CFG_INPUT n) m).1 else m

/-- A word of the settings latched for the present block of CC channel `k`: 0 CFG, 1 UGAIN, 2 UOFF, 3 COND (R67). -/
def State.ccWordOf (s : State) (k i : Nat) : Nat := ((Sparse.at (s.ccSettings k) s.sns.ccCal k)[i]?).getD 0

/-- The calibrated sum of a block of `r` millivolts, and whether it saturated (R60, R65). -/
def State.ccCalibrated (s : State) (k : Nat) (r : Int) : Int × Bool :=
  calibrate (s.getF Reg.SNS_CH_FGAIN (40 + k)) (s.ccWordOf k 1) (signed 24 (s.getF Reg.SNS_CH_FOFF (40 + k))) (signed 24 (s.ccWordOf k 2))
    (bitOf (s.ccWordOf k 0) 30) (min (r * 65536) (2 ^ 23 - 1))

/-- The mean current of that block in milliamperes: y × COND ÷ 2^32 to nearest, ties to even (R64). -/
def State.ccCurrent (s : State) (k : Nat) (r : Int) : Int :=
  roundEven ((s.ccCalibrated k r).1 * (s.ccWordOf k 3 : Int)) (2 ^ 32)

/-- The charge of a block with the remainder carried into it, before the division (R61). -/
def State.ccCharge (s : State) (k : Nat) (r : Int) : Int :=
  (s.ccCalibrated k r).1 * (s.ccWordOf k 3 : Int) + (Sparse.at 0 s.sns.ccRem k : Nat)

/-- The accumulator after a block: 72 bits, wrapping (R61, R62). -/
def State.ccNext (s : State) (k : Nat) (r : Int) : Int :=
  signed 72 (unsign 72 (Sparse.at 0 s.sns.ccAcc k + s.ccCharge k r / 16384000000))

/-! ## Quickset and the PWM engine -/

/-- Input `i` of loop tile `n` as it stands: 0 MEAS, 1 REF, 2 FF0, 3 FF1, 4 DIV (04 R71). -/
def State.tileIn (s : State) (n i : Nat) : Int × Nat := (s.tileIns n)[i]?.getD (0, flagInvalid)

/-- Loop tile `n` computes its next sample in plain working: it runs, is not parked, faulted, waiting, loading or armed, its reference
comes from the mesh, and its bank does not change (04 R72 to R90). -/
def State.tilePlain (s : State) (n : Nat) : Bool :=
  !s.keepsSamples && !s.laneless && (s.tile n).run && !s.isF Reg.LT_STAT_LOOP_FAULT n && !s.parked n && !(s.tile n).waiting &&
    (s.tile n).load = 0 && !(s.tile n).armed && !s.isE Reg.LT_CTL_REF_SRC n && !s.isE Reg.LT_CTL_OUT_MODE n &&
    !s.isE Reg.LT_CTL_SWAP_SRC n

/-- None of the first five inputs of tile `n` is INVALID. -/
def State.tileInsGood (s : State) (n : Nat) : Bool := (List.range 5).all fun i => !bitOf (s.tileIn n i).2 0

/-- A sample of tile `n` that was due at `due` shows as missed at `at16` (04 R82): overrun by the next (2), or past its deadline. -/
def State.late (s : State) (n cause due at16 : Nat) : Bool :=
  if cause = 2 then (s.measStamp n).any fun e => decide (due < e.2) else decide (s.deadline n due < at16)

/-- The sample that R72 and R73 give tile `n` for its inputs and states. -/
def State.tileResult (s : State) (n : Nat) : SampleOut :=
  tileCompute (s.tileCfg n (s.bank n)) (s.comp n) (s.tileIn n 0).1 (s.tileIn n 1).1 (s.tileIn n 2).1 (s.tileIn n 3).1 (s.tileIn n 4).1 0

/-- The registers that hold the compensator states of tile `n`. -/
def compRegs (n : Nat) : List Nat := (List.range 8).map fun k => Reg.LT_S1_LO.addr n 0 + 4 * k

/-- The dwell counter of logic tile `n` at `at16` (04 R93). -/
def State.dwellCount (s : State) (n at16 : Nat) : Nat :=
  min (2 ^ 24 - 1) ((at16 - Sparse.at 0 s.lt.lgSince n) / tickSteps (s.effF Reg.LT_LG_TICK_UNIT n))

/-- The transition of logic tile `n` that fires at `at16` (04 R93). -/
def State.fires (s : State) (n at16 : Nat) : Option Nat :=
  s.firing n (s.getF Reg.LT_LG_STAT_STATE n) (s.logicInputs n) (s.dwellCount n at16)

/-- The output that reaches lane `n` in time for its period start at `at16` (05 R75, R101). -/
def State.handedBy (s : State) (n at16 : Nat) : Option (Int × Nat) := ((s.lane n).handed.filter fun e => e.2 + 64 ≤ at16).getLast?

/-- The on-time that an output u asks of lane `n` (R101). -/
def State.onTimeOf (s : State) (n : Nat) (u : Int) : Nat := (roundEven (u * (s.lane n).per) (2 ^ 23)).toNat

/-- An on-time within the bounds that dead times and MIN_PULSE set (R99, R100). -/
def State.clampOn (s : State) (n on : Nat) : Nat :=
  max ((s.laneDt n).1 + (s.laneDt n).2.2) (min ((s.lane n).per - (s.laneDt n).2.1 - (s.laneDt n).2.2) on)

/-- `at16` is a period start of lane `n` after its last one (R102). -/
def State.startsAt (s : State) (n at16 : Nat) : Bool := decide (n < 48) && s.isStart n at16 && (s.lane n).last.all fun x => decide (x < at16)

/-- The shift of lane `n`'s rise at `at16` that the period before it has placed before the period start (R117). -/
def State.earlyRise (s : State) (n at16 : Nat) : Int := (s.lane n).pulse.elim 0 fun p => if p.start + p.per = at16 then min 0 p.next else 0

/-- Lane `n` is in plain running: in RUN on its grid, with no notch and nothing about to stop, shed, re-add or restart it. -/
def State.lanePlain (s : State) (n : Nat) : Bool :=
  s.laneSt n = laneRun && (s.lane n).restart.isNone && !(s.lane n).stop && (s.lane n).shedAt.isNone && (s.lane n).readd.isNone &&
    !(s.lane n).waitP0 && !(s.lane n).bad && (Sparse.find s.cfg.lanePlanes n).isNone && s.pwm.notch.isNone && s.pwm.plan.isNone &&
    (n % 12 ≠ 0 || !(s.lane n).phase || (List.range 12).all fun k => !(s.lane (n / 12 * 12 + k)).waitP0) && (s.laneDt n).1 + (s.laneDt n).2.1 + 2 * (s.laneDt n).2.2 ≤ (s.lane n).per

/-- The registers outside the lanes' and converters' own words read in `t` as in `s`, but for those listed. -/
def OutsideLanes (s t : State) (as : List Nat) : Prop :=
  ∀ a, (a < 0x61000 ∨ 0x61C00 ≤ a) → (∀ c, c < 4 → a ≠ Reg.PWM_CONV_STAT.addr c 0) → a ∉ as → t.rd a = s.rd a

/-- The lanes whose on-times a loop fault of tile `n` reaches, and the mask of their fault groups (04 R81). -/
def State.shutLanes (s : State) (n : Nat) : List Nat :=
  ((s.reached 96 [n]).filter fun q => s.isE Reg.LT_CTL_OUT_MODE q).map fun q => s.effF Reg.LT_SRC_C_LANE q

def State.shutMask (s : State) (n : Nat) : Nat :=
  (List.range 8).foldl (fun m g => putBit m g ((s.shutLanes n).any fun l => decide (s.effF Reg.PWM_LANE_CFG_GROUP l = g))) 0

/-- A write joins the journal of the module that holds the lock (15 R358), and nothing else of the twin unit changes. -/
def Journals (s t : State) (a v : Nat) : Prop :=
  t.twn = { s.twn with journal := s.twn.journal ++ if s.isF Reg.TWN_STATUS_LOCK then [(a, v)] else [] }

/-! ## Windbreak -/

/-- The step of lane `l` from `ago` frames back over `span` frames can be scored (06 R133): the lane is APPLIED or DEMOTED, the step took
at most 1 ms, MISS_WINDOW after it has passed, and it lies behind what has been scored. -/
def State.stepRipe (s : State) (l ago span : Nat) : Bool :=
  decide (l < 64) && (decide (s.getF Reg.WB_LANE_STAT_STATE l = lnApplied) || decide (s.getF Reg.WB_LANE_STAT_STATE l = lnDemoted)) &&
    decide (span ≤ 100) && decide (span ≤ ago) && decide (s.readAhead + s.missWindow ≤ 10 * ago) && decide ((s.wbLane l).scored + ago ≤ s.frame)

/-- The misses among lane `n`'s last 16 scores once one more has come (06 R133). -/
def State.missesAfter (s : State) (n : Nat) (hit : Bool) : Nat :=
  (((hit :: (s.wbLane n).scores).take 16).filter fun b => !b).length

/-! ## Thicket -/

/-- Core `k`, one of the 256, executes and does not wait, and the extension instruction `op` with its operands stands at its pc. -/
def State.standsAt (s : State) (k : Nat) (op : ThOp) (rd rs1 rs2 : Nat) : Bool :=
  decide (k < 256) && s.coreReady k && decide (s.fetch k = some (some (.ext op rd rs1 rs2), 4))

/-- Core `k`, one of the 256, executes and does not wait, and the instruction `i` of `len` bytes stands at its pc. -/
def State.standsInstr (s : State) (k : Nat) (i : Rv) (len : Nat) : Bool :=
  decide (k < 256) && s.coreReady k && decide (s.fetch k = some (some i, len))

/-- Core `k` is `c` with `v` in `rd` after an instruction of `len` bytes: the pc has passed it and it counts in instret. -/
def State.returns (s : State) (k rd v : Nat) (c : CoreState) (len : Nat := 4) : State :=
  s.setCore k { c.wx rd v with pc := (c.pc + len) % 2 ^ 64, instret := (c.instret + 1) % 2 ^ 64, wait := none }

/-- Core `k` waits at its instruction, at `now`: a timeout of zero waits without limit, another counts 10 ns units (07 R155). -/
def State.waits (s : State) (k now timeout : Nat) (what : WaitFor) (arg rd src len : Nat) : State :=
  s.setCore k { s.core k with wait := some ⟨what, arg, rd, src, len, if timeout = 0 then none else some (now / 10 + timeout)⟩ }

/-- Core `k` stands at an exception of a KIND and CAUSE (07 R170). -/
def State.stopsAt (s : State) (k kind cause : Nat) : State := s.setCore k { s.core k with run := .fault kind cause }

/-- The registers of a send: rs2 names endpoint `ep` and length `len`, the endpoint exists as `e`, and the length fits its slots (07 R151). -/
def CoreState.sendFits (c : CoreState) (rs2 ep len : Nat) (e : SendEnd) : Bool :=
  decide (ep < 32) && decide (len < 8192) && decide (c.rx rs2 = ep + len * 65536) && decide (Sparse.find c.send ep = some e) &&
    len % 8 = 0 && decide (8 ≤ len) && decide (len + 8 ≤ 2 ^ e.log2)

/-- `len` bytes at `a` can be a payload: aligned, in local memory, and not poisoned. -/
def CoreState.payloadAt (c : CoreState) (a len : Nat) : Bool := a % 8 = 0 && inLocal a len && !c.lmBad a len

/-- The logical number of core `k` in its partition. -/
def State.logicalOf (s : State) (k : Nat) : Nat := (s.partOf k).elim 0 fun p => (s.part p).logical k

/-- A message of `len` bytes at `a` has left on endpoint `ep` of core `k`: a credit less, the next sequence number, and the message in
flight on the channel (07 R150, R153). -/
def State.sentOn (s : State) (k ep a len : Nat) : State :=
  let c := s.core k
  let e := c.endAt ep
  let b := s.setCore k { c with send := Sparse.upd {} c.send ep { e with credits := e.credits - 1, seq := (e.seq + 1) % 2 ^ 32 } }
  let d := b.core e.core
  let r := d.ringAt e.ch
  b.setCore e.core { d with ring := Sparse.upd {} d.ring e.ch { r with flight := r.flight ++ [⟨c.lmBytes a len, s.logicalOf k, e.seq⟩] } }

/-- Ring `ch` of core `k` with one more slot returned. -/
def CoreState.tookSlot (c : CoreState) (ch : Nat) : CoreState :=
  { c with ring := Sparse.upd {} c.ring ch { c.ringAt ch with taken := (c.ringAt ch).taken + 1 } }

/-- The address of the oldest slot of channel `ch` that has not been returned (07 R150, R152). -/
def CoreState.nextSlot (c : CoreState) (ch : Nat) : Nat :=
  lmBase + (c.ringAt ch).base + (c.ringAt ch).taken % (c.ringAt ch).slots * 2 ^ (c.ringAt ch).log2

/-- Whether AUTO_RESTART restarts partition `p` after a fault at `now`: it is set, and fewer than four restarts fell in the last
10 minutes (07 R170). -/
def State.retries (s : State) (p now : Nat) : Bool :=
  (s.part p).cfgBit 28 && decide (((s.part p).restarts.filter fun x => now < x + tenMinutes).length < 4)

/-- The elements, with their flags, that a product leaves in tile `n` for operands at `pa` and `pb` (08 R183 to R185): element (i, j)
from its old pattern, row i of A and column j of B, or row j of B when it is read transposed. -/
def CoreState.products (c : CoreState) (n pa pb : Nat) (transposed : Bool) : List (Nat × Nat) :=
  let size := tfSize (tfA c.tfmt)
  let a := splitLe size 256 (c.lmBytes pa (256 * size))
  let b := splitLe size 256 (c.lmBytes pb (256 * size))
  (List.range 256).map fun e =>
    dotElem (tfA c.tfmt) (tfB c.tfmt) (tfShift c.tfmt) (c.acc n (e / 16) (e % 16)) (rowOf a (e / 16))
      (if transposed then rowOf b (e % 16) else colOf b (e % 16))

/-- The word of an extension instruction with rd, rs1 and rs2 zero (07 R146, the Base column; funct3 001 rounds stochastically). -/
def ThOp.base : ThOp → Nat
  | .send => 0x0000000B
  | .sendnb => 0x0200000B
  | .recv => 0x0000100B
  | .peek => 0x0200100B
  | .wait => 0x0400100B
  | .release => 0x0000200B
  | .credits => 0x0000300B
  | .barrier => 0x0000400B
  | .dma => 0x0000002B
  | .dmawait => 0x0000102B
  | .dmapoll => 0x0200102B
  | .pub => 0x0000202B
  | .slotsel => 0x0000402B
  | .tzero => 0x0000005B
  | .tld => 0x0000105B
  | .tst => 0x0200105B
  | .tmma => 0x0000205B
  | .tmmaT => 0x0200205B
  | .narrow f st => (match f with | .e4m3 => 0x0000007B | .e5m2 => 0x0200007B | .bf16 => 0x0400007B | .i8 => 0x0600007B | .q12b => 0x0800007B) +
      (if st then 0x1000 else 0)
  | .widen f => match f with | .e4m3 => 0x2000007B | .e5m2 => 0x2200007B | .bf16 => 0x2400007B | .i8 => 0x2600007B | .q12b => 0x2800007B

/-- The fields that R146 marks 0 for an instruction are zero, and a tensor instruction names tile 0 to 3. -/
def ThOp.fieldsOk (op : ThOp) (rd rs1 rs2 : Nat) : Bool :=
  decide (rd < 32) && decide (rs1 < 32) && decide (rs2 < 32) &&
    match op with
    | .peek | .credits | .dmapoll => rs2 = 0
    | .release => rd = 0 && rs2 = 0
    | .tzero => decide (rd < 4) && rs1 = 0 && rs2 = 0
    | .tld | .tst => decide (rd < 4) && rs2 = 0
    | .tmma | .tmmaT => decide (rd < 4)
    | .narrow _ _ | .widen _ => rd = 0
    | _ => true

/-- A core of a partition that starts (07 R168): its local memory, rings and endpoints as they are, everything else fresh. -/
def CoreState.freshRun (c : CoreState) : CoreState :=
  { run := .running, ecc := c.ecc, mem := c.mem, bad := c.bad, top := c.top, ring := c.ring, send := c.send, dma := c.dma }

/-! ## The memory stack's contexts -/

/-- Context `c` has lost its parent, and every context that named it has lost it (09 R208). -/
def State.orphaned (s : State) (c : Nat) : State :=
  (s.dropParent c).ctx.desc.foldl (fun a e => if e.2.parent = c then a.setDesc e.1 { a.desc e.1 with parent := 0xFFFF } else a) (s.dropParent c)

/-- CTX_COUNT_A and CTX_COUNT_B show how many descriptors are of each kind and pinned (09). -/
def CountsShown (t : State) : Prop :=
  let n := fun (p : Desc → Bool) => min 65535 (t.ctx.desc.filter fun e => p e.2).length
  t.getF Reg.CTX_COUNT_A_JOB = n (fun d => d.kind = kindJob) ∧ t.getF Reg.CTX_COUNT_A_STREAM = n (fun d => d.kind = kindStream) ∧
    t.getF Reg.CTX_COUNT_B_ACCOUNT = n (fun d => d.kind = kindAccount) ∧ t.getF Reg.CTX_COUNT_B_PINNED = n (fun d => d.pinned)

/-! ## The partner network -/

/-- The link of a port is up and the network is enabled (10 R223). -/
def State.hears (s : State) (port : Nat) : Bool :=
  decide (port < 2) && s.portUp port && s.isF Reg.HNT_CFG_EN

/-- A message of type `typ` is heard on a port, well formed, with its tag, in a phase that takes its type (10 R231, checks 1 to 3). -/
def State.takes (s : State) (typ port : Nat) (m : List Byte) : Bool :=
  s.hears port && hintFormOk m && decide (beAt m 3 1 = typ) && s.tagOk m &&
    (decide (s.phase = phaseRun) || (decide (s.phase = phaseListen) && decide (5 ≤ typ)))

/-- Moreover it comes from the admitted partner of entry `i`, whose role may send it, with a number of class `c` that is no copy and
no duplicate, and from no restart (10 R231, R232, R244). -/
def State.fromPartner (s : State) (typ port now : Nat) (m : List Byte) (i : Nat) (c : SeqClass) : Bool :=
  s.takes typ port m && decide (s.ptFind (beAt m 8 8) = some i) && s.ptIn i &&
    !(decide (s.getF Reg.HNT_PT_STATE_ROLE i = rolePackage) && (typ = 4 || typ = 5)) &&
    !(decide (s.getF Reg.HNT_PT_STATE_ROLE i = roleModule) && decide (typ ≤ 3)) &&
    !(decide (typ = 6) && decide (beAt m 24 4 ≠ (s.partner i).incarnation)) &&
    decide (c = (s.partner i).seqClass ((s.partner i).first || decide (s.ptState i = ptSilent)) (beAt m 16 4) now) &&
    decide (c ≠ .copy) && decide (c ≠ .duplicate)

/-- A message of type `typ` from a sender that is no admitted partner is heard (10 R231, R241). -/
def State.fromStranger (s : State) (typ port : Nat) (m : List Byte) : Bool :=
  s.takes typ port m && ((s.ptFind (beAt m 8 8)).filter s.ptIn).isNone &&
    !(decide (typ = 5) && (s.ptFind (beAt m 8 8)).any fun i => s.getF Reg.HNT_PT_STATE_ROLE i = rolePackage)

/-- The message is a copy of one heard on the other port from the same sender, which is not admitted, within 1 ms (10 R223, R242). -/
def State.strangerCopy (s : State) (port now : Nat) (m : List Byte) : Bool :=
  s.hnt.heardBy.any fun e => decide (e.1 = beAt m 8 8 ∧ e.2.1 = beAt m 16 4 ∧ e.2.2.1 ≠ port ∧ now ≤ e.2.2.2 + 1000000)

/-- A token of the port's bucket for senders not admitted is taken, and the message remembered (10 R223, R242). -/
def State.strangerHeard (s : State) (port now : Nat) (m : List Byte) (b : Option (Nat × Nat)) : State :=
  { s with hnt := { s.hnt with
    bucket := Sparse.upd none s.hnt.bucket port b
    heardBy := (s.hnt.heardBy.filter fun e => now ≤ e.2.2.2 + 1000000) ++ [(beAt m 8 8, beAt m 16 4, port, now)] } }

/-- The partner of entry `i` with a token of its bucket for `typ` taken. -/
def State.tokenTaken (s : State) (i typ : Nat) (b : Option (Nat × Nat)) : State :=
  s.setPartner i { s.partner i with bucket := Sparse.upd none (s.partner i).bucket typ b }

/-- The partner of entry `i` has its message of class `c` accepted at `now` from `port` (10 R232). -/
def State.numbered (s : State) (i port now : Nat) (c : SeqClass) (m : List Byte) : State :=
  s.setPartner i ((s.partner i).accept c (beAt m 16 4) port now)

/-- What an ANNOUNCE tells of its sender (10 R238). -/
def Partner.told (p : Partner) (m : List Byte) (now : Nat) : Partner :=
  { p with id := beAt m 8 8, rack := beAt m 20 2, incarnation := beAt m 24 4, shelf := beAt m 30 2, fMin := beAt m 32 2,
           fMax := beAt m 34 2, account := beAt m 36 4, addr := slice m 40 16, heard := now, saysJob := beAt m 28 2 }

/-! ## The ledger -/

/-- The registers that show the ledger: LDG_STATUS, the commit indexes, terms, leader, arbiters and member table, the leader bits of
CPC_STATUS and VOICE of TWN_STATUS, and the cause word of vector 8. -/
def ledgerRegs : List Nat :=
  [Reg.LDG_STATUS.addr 0 0, Reg.LDG_RACK_COMMIT_LO.addr 0 0, Reg.LDG_RACK_COMMIT_LO.addr 0 0 + 4, Reg.LDG_HALL_COMMIT_LO.addr 0 0,
    Reg.LDG_HALL_COMMIT_LO.addr 0 0 + 4, Reg.LDG_RACK_TERM.addr 0 0, Reg.LDG_HALL_TERM.addr 0 0, Reg.LDG_LEADER_LO.addr 0 0,
    Reg.LDG_LEADER_LO.addr 0 0 + 4, Reg.LDG_ARB.addr 0 0, Reg.CPC_STATUS.addr 0 0, Reg.TWN_STATUS.addr 0 0,
    Reg.SYS_IRQ_CAUSE.addr 8 0] ++ (List.range 64).map fun k => Reg.LDG_MB_ID_LO.addr 0 0 + 4 * k

/-- LDG_STATUS and its neighbours show the groups as they stand at `now` (12 R274, R279, R283). -/
def LedgerShown (t : State) (now : Nat) : Prop :=
  t.getF Reg.LDG_STATUS_ROLE = (if !t.ldg.rack.member then 0 else if t.ldg.rack.role = .leader then 3 else if t.isVoice then 2 else 1) ∧
    t.isF Reg.LDG_STATUS_LEASE = t.leased 0 now ∧ t.isF Reg.LDG_STATUS_HALL_LEADER = decide (t.ldg.hall.role = .leader) ∧
    t.isF Reg.CPC_STATUS_RACK_LEADER = t.ldg.rack.leads ∧ t.get64 Reg.LDG_RACK_COMMIT_LO = t.ldg.rack.commit % 2 ^ 64 ∧
    t.get64 Reg.LDG_HALL_COMMIT_LO = t.ldg.hall.commit % 2 ^ 64 ∧ t.getF Reg.LDG_RACK_TERM = t.ldg.rack.term % 2 ^ 32 ∧
    t.getF Reg.LDG_HALL_TERM = t.ldg.hall.term % 2 ^ 32

/-- What leaves on each port whose link is up, ETHA first (10 R223). -/
def State.onPorts (s : State) (kind : OutKind) (args : List Nat) : List Out :=
  (if s.isF Reg.HNT_STATUS_LINK_A then [⟨kind, 0 :: args⟩] else []) ++ (if s.isF Reg.HNT_STATUS_LINK_B then [⟨kind, 1 :: args⟩] else [])

/-- A hint protocol message to one partner, as it leaves (10 R222, R223). -/
def State.hintTo (s : State) (typ id : Nat) (body : List Byte) : List Out :=
  s.onPorts .hintUnicast (s.hintPort :: id :: (s.hintMessage typ body).map BitVec.toNat)

/-- A hint protocol message to the rack group, as it leaves. -/
def State.hintAll (s : State) (typ : Nat) (body : List Byte) : List Out :=
  s.onPorts .hintMulticast (s.hintPort :: (s.rackGroup.map BitVec.toNat ++ (s.hintMessage typ body).map BitVec.toNat))

/-- A ledger message to one module, as it leaves (12 R273). -/
def State.ledgerTo (s : State) (g typ dest : Nat) (body : List Byte) : List Out :=
  s.onPorts .ledgerUnicast (s.ledgerPort :: dest :: (s.ldgMessage g typ body).map BitVec.toNat)

/-- A ledger message to its whole group, as it leaves. -/
def State.ledgerAll (s : State) (g typ : Nat) (body : List Byte) : List Out :=
  s.onPorts (if g = 0 then .ledgerRack else .ledgerHall)
    (s.ledgerPort :: ((if g = 0 then s.rackGroup else s.hallGroup).map BitVec.toNat ++ (s.ldgMessage g typ body).map BitVec.toNat))

/-- The election time drawn at `now` between `lo` and `lo + span`: the draw is a free value (12 R275). -/
def State.drawn (s : State) (g lo span now : Nat) : Nat := now + lo + s.freeVal (0x700 + g) % (span + 1)

/-- The rack group does not lead, or holds nothing new that a majority has: no entry commits now (12 R279). -/
def State.rackQuiet (s : State) : Bool :=
  decide (s.ldg.rack.role ≠ .leader) ||
    decide (mostHold s.ldg.rack 0 (fun id => if id = s.selfId then (if s.ldg.voiceLost then 0 else s.ldg.rack.last.1) else
      match Sparse.find s.ldg.rack.acks id with | some k => k.1 | none => 0) ≤ s.ldg.rack.commit)

/-- A ledger message `m` of type `typ` on a port is one for this module, of its group's epoch, in term and generation not stale, and
with no greater term (12 R270, R273, R274). -/
def State.ledgerHears (s : State) (typ port : Nat) (message : List Byte) (m : LdgMsg) : Bool :=
  decide (s.ldgTake typ port message = some m) && decide (m.epoch = (s.grp m.group).epoch) && !s.ldgStale m &&
    decide (m.term = (s.grp m.group).term)

/-! ## The pack -/

/-- A Bramble frame as it leaves a radio (13 R295 to R298, R300): side 0 the head by RADA, mode 1 discovery; channel and power, and the
bytes on the air. -/
def State.radioOut (s : State) (side mode typ dst num : Nat) (payload : List Byte) : Out :=
  ⟨.radio, [side, mode, s.radioMhz side mode, s.getF Reg.PKL_RF_CFG_TX_DBM] ++
    (s.onAir mode (s.pklFrame typ side dst num payload)).map BitVec.toNat⟩

/-- A frame of a type is taken (13 R297 to R299): Bramble runs, the check held, its length is the type's, and its chain is the module's. -/
def State.hearsFrame (s : State) (good : Bool) (typ : Nat) (m : List Byte) : Bool :=
  s.pklOn && good && decide (pklLength typ = some (m.length - 8)) && decide (8 ≤ m.length) && decide (beAt m 0 1 = typ) &&
    decide (beAt m 2 2 = s.getF Reg.PKL_CHAIN % 65536)

/-- What a radio received in a mode is the frame `m` of a type, and is taken: in fast mode after the chain's access word and its length
byte, in discovery mode before its check sequence (13 R296, R297). -/
def State.hearsAir (s : State) (mode typ : Nat) (air m : List Byte) : Bool :=
  s.hearsFrame true typ m && air == s.onAir mode m && decide (m.length ≤ 64)

/-- The registers that summarise the positions: PKL_STATUS and the LOST and STALE maps. -/
def pklRegs : List Nat :=
  [Reg.PKL_STATUS.addr 0 0, Reg.PKL_LOST_LO.addr 0 0, Reg.PKL_LOST_HI.addr 0 0, Reg.PKL_STALE_LO.addr 0 0, Reg.PKL_STALE_HI.addr 0 0]

/-- The words of all 48 positions that hold the given fields. -/
def ndRegs (fs : List Fld) : List Nat := (List.range 48).flatMap fun p => fs.map fun f => f.addr p 0

/-- What an enumeration may write: the positions' states and identifiers, the summary, EFF_SPLIT, the authentication maps and vector 9. -/
def enumRegs : List Nat :=
  pklRegs ++ ndRegs [Reg.PKL_ND_STAT, Reg.PKL_ND_ID_FOUND_LO, Reg.PKL_ND_ID_FOUND_HI] ++
    [Reg.PKL_EFF.addr 0 0, Reg.EST_AUTH_OK_LO.addr 0 0, Reg.EST_AUTH_OK_HI.addr 0 0, Reg.EST_AUTH_FAIL_LO.addr 0 0,
      Reg.EST_AUTH_FAIL_HI.addr 0 0, Reg.SYS_IRQ_CAUSE.addr 9 0]

/-- Every position starts an enumeration: those of the chain PENDING with nothing else to show, the others empty. -/
def State.allPending (s t : State) : Bool :=
  (List.range 48).all fun p => decide (t.rd (Reg.PKL_ND_STAT.addr p 0) = if s.ndUsed p then 0x20000000#32 else 0#32)

/-- Position `p` shows the sweep in progress in `s` (13 R308, R314, R315, R318): its record's status and, unless the node had no SYNC or
the notch was deferred, its voltages; without a record its last values with STALE. -/
def State.recordShown (s t : State) (p : Nat) : Bool :=
  match s.nodeRec p with
  | some r =>
    decide (t.ndState p = ndReached) && decide (t.getF Reg.PKL_ND_STAT_MISSES p = 0) &&
      decide (t.getF Reg.PKL_ND_STAT_NODE_STATUS p = r.status) && decide (t.getF Reg.PKL_ND_BLEED_WIN p = r.win) &&
      t.isF Reg.PKL_ND_STAT_COMPLETED p == r.completed && decide (t.getF Reg.PKL_ND_STAT_VIA p = (r.radio + 1) % 4) &&
      (if bitOf r.status 0 || s.sns.deferred then
        t.isF Reg.PKL_ND_STAT_STALE p && (List.range 8).all fun i => t.rd (Reg.PKL_ND_CELL.addr p i) = s.rd (Reg.PKL_ND_CELL.addr p i)
      else
        !t.isF Reg.PKL_ND_STAT_STALE p && decide (t.getF Reg.PKL_ND_AGE p = 0) && (List.range 16).all fun i =>
          bitsOf (t.getF Reg.PKL_ND_CELL p (i / 2)) (16 * (i % 2)) 16 =
            if bitOf r.status 2 || bitOf r.status 3 || bitOf r.opens i then 0xFFFF else beAt r.bytes (8 + 2 * i) 2)
  | none =>
    decide (s.ndState p < ndReached) ||
      (t.isF Reg.PKL_ND_STAT_STALE p && (List.range 8).all fun i => t.rd (Reg.PKL_ND_CELL.addr p i) = s.rd (Reg.PKL_ND_CELL.addr p i))

/-- Position `p` gave no record in the sweep that closes (13 R315, R316): a miss more; UNREACHED, or LOST after LOST_SWEEPS of them. -/
def State.missCounted (s t : State) (p : Nat) : Bool :=
  (s.nodeRec p).isSome || decide (s.ndState p < ndReached) ||
    (decide (t.getF Reg.PKL_ND_STAT_MISSES p = min 15 (s.getF Reg.PKL_ND_STAT_MISSES p + 1)) &&
      decide (t.ndState p =
        if s.ndState p = ndLost || decide (max 1 (s.getF Reg.PKL_CFG_LOST_SWEEPS) ≤ min 15 (s.getF Reg.PKL_ND_STAT_MISSES p + 1)) then ndLost
        else ndUnreached))

/-- LEAD_MIN in frames and T_MIN in grant intervals for the schedule word `sc` and the split in force (13 R306, R319). -/
def State.leadMin (s : State) : Nat :=
  let split := min s.nodes (s.getF Reg.PKL_EFF_EFF_SPLIT)
  (124 + (max split (s.nodes - split) - 1) * 140 + min 2000 (max 100 (s.getF Reg.PKL_SWEEP_CFG_BLEED_GUARD)) + 9) / 10

/-! ## The charge estimator -/

/-- The registers that show the state of string `k`. -/
def estRegs (k : Nat) : List Nat :=
  [Reg.EST_S_STAT, Reg.EST_S_SOC, Reg.EST_S_Q, Reg.EST_S_QUNC, Reg.EST_S_CAP, Reg.EST_S_CAP_LEARNED, Reg.EST_S_AGE, Reg.EST_S_LIMITS,
    Reg.EST_S_VSTR, Reg.EST_S_HEALTH].map fun f => f.addr k 0

/-- The flags WALK and LEARN, the capacity learned and AUTH_HOLD of string `k` follow its state `x`; with no permission, AUTH_HOLD, or a
learning discharge under way, the charge limit is zero (14 R329, R337, R338, R346). -/
def State.stringShown (t : State) (k : Nat) (x : EstString) : Bool :=
  t.isF Reg.EST_S_STAT_WALK k == x.walkAt.isSome && t.isF Reg.EST_S_STAT_LEARN k == decide (x.learn ≠ 0) &&
    decide (t.getF Reg.EST_S_CAP_LEARNED k = x.learned % 2 ^ 32) && t.isF Reg.EST_S_STAT_AUTH_HOLD k == t.authHold k &&
    (!(t.authHold k || !t.isF Reg.EST_S_STAT_CHG_PERMIT k) || decide (t.getF Reg.EST_S_LIMITS_CHG k = 0)) &&
    (!(t.authHold k || !t.isF Reg.EST_S_STAT_DIS_PERMIT k) || decide (t.getF Reg.EST_S_LIMITS_DIS k = 0))

/-- The state of string `k` is replaced, and the rest of the estimator stays. -/
def SetsString (s t : State) (k : Nat) (x : EstString) : Prop := t.est = { s.est with str := Sparse.upd {} s.est.str k x }

/-- A restored string takes the record's override and RESTORED; without an anchor since reset its charge is known again by a restored
anchor (14 R343). -/
def State.restored (s t : State) (bs : List Byte) (k : Nat) : Bool :=
  t.isF Reg.EST_S_STAT_RESTORED k && decide (t.getF Reg.EST_S_HEALTH_HEALTH_OVR k = leAt bs (0x40 + 88 * k + 0x26) 2) &&
    ((s.str k).anchored || (!t.isF Reg.EST_S_STAT_UNKNOWN k && decide (t.getF Reg.EST_S_STAT_ANCHOR k = 3)))

/-! ## The twin -/

/-- The next beat: its number, STATE, LOCK, READY, NET_DOWN and REQ, CODE, and its CRC-8 (15 R360). -/
def State.beat (s : State) (netDown : Bool) : List Byte :=
  let m := [0xB5, s.twn.beatNo,
    s.getF Reg.TWN_STATUS_STATE * 32 + s.getF Reg.TWN_STATUS_LOCK * 16 + s.getF Reg.TWN_STATUS_READY * 8 + ofBool netDown * 4 +
      ofBool s.twn.req * 2, s.twn.code].map (BitVec.ofNat 8)
  m ++ [BitVec.ofNat 8 (crc8 m)]

/-- A beat is whole: five bytes, its mark and its CRC (15 R360). -/
def beatGood (m : List Byte) : Bool := decide (m.length = 5) && decide (leAt m 0 1 = 0xB5) && decide (crc8 (m.take 4) = leAt m 4 1)

/-- A CLAIM with a cause, as it leaves for the arbiters when the module can send ledger messages (15 R369). -/
def State.claims (s : State) (cause : Nat) : List Out :=
  if s.ledgerSpeaks then s.ledgerAll 0 9 (beBytes 1 s.shelf ++ beBytes 1 cause ++ beBytes 1 (s.getF Reg.TWN_PATHS_STAKE) ++
    beBytes 1 (s.getF Reg.TWN_PATHS_BINDER) ++ beBytes 4 0) else []

/-- The other path's last beat says the opposite about CODE under the same number (15 R361). -/
def State.beatsClash (s : State) (path seq code : Nat) : Bool :=
  match Sparse.at none s.twn.beats (1 - path) with
  | some (seq2, _, code2) => decide (seq2 = seq) && (decide (code = 0) != decide (code2 = 0))
  | none => false

/-- The words that show the twin unit, and vector 2. -/
def twinRegs : List Nat :=
  [Reg.TWN_STATUS.addr 0 0, Reg.TWN_PATHS.addr 0 0, Reg.TWN_LAST.addr 0 0, Reg.SYS_IRQ_CAUSE.addr 2 0]

/-- The module has let go of the lock (15 R353, R355): no claim, LOCK and DEGRADED clear, one more release counted, the lane drives
without the lock, the power state no longer RUN, and the release recorded with its reason first. -/
def State.released (s t : State) (why : Nat) : Prop :=
  t.twn.claim = false ∧ t.twn.holder = false ∧ t.isF Reg.TWN_STATUS_LOCK = false ∧ t.isF Reg.PWM_STATUS_LOCK = false ∧
    t.getF Reg.TWN_SWITCHES_RELEASED = min 65535 (s.getF Reg.TWN_SWITCHES_RELEASED + 1) ∧ t.getF Reg.PWR_STATUS_STATE ≠ 0 ∧
    bitOf (t.getF Reg.SYS_IRQ_CAUSE 2) 1 = true ∧ (s.outbox ++ [Out.mk .line [0, 0]]).isSublist t.outbox = true ∧
    t.events.contains (LogEvent.mk 0x0C05 0xFFFF (why :: s.peerData)) = true

/-! ## The log -/

/-- No record that waits in the staging range lies in a poisoned block (09 R216, 18 R429). -/
def State.spillSound (s : State) : Bool := !(s.log.spill.any fun e => s.poisonedIn (stagingBase + 64 * e.1) 64)

/-- The record that event `e` makes at `now`, with the next SEQ and BOOT (18 R421, R422, R426). -/
def State.nextRecord (s : State) (e : LogEvent) (now : Nat) : List Byte :=
  withSeq s.log.next s.log.boot (s.buildRecord e (s.logTime now) s.timeSrc false (dataBytes (dataWidths e.code) e.data))

/-- The log is at work and an event fits one record and the queue without a spill (18 R421, R426, R427). -/
def State.logRoom (s : State) (e : LogEvent) : Bool :=
  s.isF Reg.LOG_STATUS_READY && decide (s.log.queue.length < 384) && decide ((dataBytes (dataWidths e.code) e.data).length ≤ 28)

/-- The words that show the log's queue and flash, and vector 3. -/
def logRegs : List Nat :=
  [Reg.LOG_STATUS.addr 0 0, Reg.LOG_SPILL.addr 0 0, Reg.LOG_LOST.addr 0 0, Reg.LOG_FIRST_SEQ_LO.addr 0 0, Reg.LOG_FIRST_SEQ_HI.addr 0 0,
    Reg.LOG_LAST_SEQ_LO.addr 0 0, Reg.LOG_LAST_SEQ_HI.addr 0 0, Reg.SYS_IRQ_CAUSE.addr 3 0]

/-- A path's window shows a record and a status (18 R434). -/
def State.windowShows (s : State) (path : Nat) (r : List Byte) (stat : Nat) : Sparse Word :=
  Sparse.upd 0#32 ((List.range 16).foldl (fun m k =>
    Sparse.upd 0#32 m (path * 2 ^ 26 + Reg.LOG_RD_DATA.addr k 0) (BitVec.ofNat 32 (leAt r (4 * k) 4))) s.pathRegs)
      (path * 2 ^ 26 + Reg.LOG_RD_STAT.addr 0 0) (BitVec.ofNat 32 stat)

/-! ## The security island -/

/-- A slot takes a key's word, recorded with its uses, and the command ends DONE (19 R447). -/
def State.slotTaken (s t : State) (i uses : Nat) : Bool :=
  decide (t.sec.fused = Sparse.upd 0 s.sec.fused i (slotWord uses)) && decide (t.getF Reg.LCS_STATUS_CMD_RESULT = 1) &&
    decide (t.events = s.events ++ [LogEvent.mk 0x0E03 0xFFFF [i, uses % 256]]) &&
    t.isF Reg.SEC_SLOT_VALID i && decide (t.getF Reg.SEC_SLOT_USES i = uses % 256)

/-- ENROL with a message `bs` (19 R446, R447): malformed BAD_TOKEN; a key for verification takes the first free slot of V2 to V7 when an
enrolled life-cycle slot, or V0 while none is, signed it; a sealed secret takes the first free slot of S8 to S15; without a signature or a
tag SIGNATURE, without a slot NO_SLOT. -/
def State.enrolled (s t : State) (bs : List Byte) : Bool :=
  let ends := fun (n : Nat) => decide (t.getF Reg.LCS_STATUS_CMD_RESULT = n) && decide (t.sec = s.sec)
  match Config.enrolParse bs with
  | none => ends 3
  | some r =>
    if r.verify then
      let may := s.isSigner (.enrolled useLifecycle) r.signer ||
        ((List.range 6).all fun k => decide (Sparse.at 0 s.sec.fused (2 + k) = 0)) && s.isSigner (.slot 0) r.signer
      if may && Config.ecdsaVerify (s.vkeyOf r.signer) r.signed r.signature then
        match [2, 3, 4, 5, 6, 7].find? fun i => decide (Sparse.at 0 s.sec.fused i = 0) with
        | some i => s.slotTaken t i r.uses && decide (t.sec.vkey = Sparse.upd [] s.sec.vkey i r.key)
        | none => ends 8
      else ends 4
    else match Config.gcmOpen (Config.ecdh s.sec.seed r.ephemeral) r.nonce r.aad r.cipher r.tag with
      | none => ends 4
      | some key => match [16, 17, 18, 19, 20, 21, 22, 23].find? fun i => decide (Sparse.at 0 s.sec.fused i = 0) with
        | some i => s.slotTaken t i r.uses && decide (t.sec.skey = Sparse.upd [] s.sec.skey (i - 8) key)
        | none => ends 8

/-- REVOKE with a record `bs` (19 R447): the slot's revoke fuse blows when an enrolled life-cycle slot other than it signed. -/
def State.revoked (s t : State) (bs : List Byte) : Bool :=
  let ends := fun (n : Nat) => decide (t.getF Reg.LCS_STATUS_CMD_RESULT = n) && decide (t.sec = s.sec) && decide (t.events = s.events)
  match Config.revokeParse bs with
  | none => ends 3
  | some r =>
    if s.isSigner (.enrolled useLifecycle) r.signer && decide (r.signer ≠ r.slot) &&
        Config.ecdsaVerify (s.vkeyOf r.signer) r.signed r.signature then
      if 24 ≤ r.slot || (8 ≤ r.slot && decide (r.slot < 16)) then ends 5
      else
        decide (t.sec.fused = Sparse.upd 0 s.sec.fused r.slot (putBit (Sparse.at 0 s.sec.fused r.slot) 30 true)) &&
          t.isF Reg.SEC_SLOT_REVOKED r.slot && decide (t.getF Reg.LCS_STATUS_CMD_RESULT = 1) &&
          decide (t.events = s.events ++ [LogEvent.mk 0x0E04 0xFFFF [r.slot]])
    else
      decide (t.getF Reg.LCS_STATUS_CMD_RESULT = 4) && decide (t.sec = s.sec) &&
        decide (t.events = s.events ++
          if s.isSigner (.enrolled useLifecycle) r.signer then [] else [LogEvent.mk 0x0E05 0xFFFF [r.signer, useLifecycle]])

/-- LOAD_SLOT with a message `bs` (19 R448): the key unwraps under the wrapping slot or the command ends SIGNATURE; an empty slot takes it
at once, an occupied one at the next frame boundary. -/
def State.slotLoaded (s t : State) (bs : List Byte) : Bool :=
  let n := leAt bs 0 1
  match Config.gcmOpen (s.skeyOf (leAt bs 2 1)) (slice bs 4 12) (leBytes 8 (s.get64 Reg.HNT_SELF_ID_LO) ++ bs.take 4) (slice bs 16 32)
      (slice bs 48 16) with
  | none => decide (t.getF Reg.LCS_STATUS_CMD_RESULT = 4) && decide (t.sec = s.sec)
  | some key =>
    decide (t.getF Reg.LCS_STATUS_CMD_RESULT = 1) &&
      if s.isF Reg.SEC_SLOT_VALID (8 + n) then decide (t.sec = { s.sec with loads := Sparse.upd none s.sec.loads n (some (key, leAt bs 1 1)) })
      else decide (t.sec = { s.sec with skey := Sparse.upd [] s.sec.skey n key }) && t.isF Reg.SEC_SLOT_VALID (8 + n) &&
        decide (t.getF Reg.SEC_SLOT_USES (8 + n) = leAt bs 1 1 % 256)

/-! ## Resets and power -/

/-- What every reset leaves (17 R397, R398, 19 R453): no claim and no lock, every volatile memory and engine as at reset, the registers of
the control blocks at their Reset values; fuses, the images in flash and the log in flash stay, and so does the queue of commands. -/
def State.cleared (s t : State) : Prop :=
  t.twn.claim = false ∧ t.isF Reg.TWN_STATUS_LOCK = false ∧ t.frame = 0 ∧ t.mem = [] ∧ t.poison = [] ∧ t.eff = [] ∧ t.lt = {} ∧ t.pwm = {} ∧
    t.wb = {} ∧ t.ctx = {} ∧ t.th = {} ∧ t.hnt = { incarnation := t.hnt.incarnation } ∧ t.ldg = {} ∧ t.pkl = {} ∧ t.cfg = { slot0 := s.cfg.slot0, slot1 := s.cfg.slot1 } ∧
    { t.sec with bad := s.sec.bad } = s.sec.fuses ∧ t.log.flash = s.log.flash ∧ t.pending = s.pending

/-- The registers of SNS, LT, PWM and WB, calibration from the fuses apart, hold their Reset values. -/
def State.controlReset (t : State) : Prop := ∀ a, 0x40000 ≤ a → a < 0x80000 → fuseWord a = false → t.rd a = regReset a

/-- Start-up goes on from the step after the last that holds (17 R398). -/
def State.nextStep (s : State) : Nat :=
  if s.isF Reg.CLK_STATUS_PLL_LOCK then (if s.isF Reg.PWR_STATUS_ORDER then 3 else 4)
  else if s.getF Reg.PWR_STATUS_START_STEP = 2 then 2 else 1

/-- A cold or warm reset has been entered and released; its cause shows beside those recorded before (17 R397, R398). -/
def State.coldReset (s t : State) (cause : Fld) : Prop :=
  s.cleared t ∧ t.getF Reg.PWR_STATUS_START_STEP = s.nextStep ∧ t.isF Reg.CLK_STATUS_PLL_LOCK = s.isF Reg.CLK_STATUS_PLL_LOCK ∧
    t.rd 0x20010 = cause.into (s.rd 0x20010) 1 ∧ t.getF Reg.SYS_FW_SERIAL = 0 ∧
    t.sec.bad = s.sec.bad ∧ t.hnt.incarnation = s.hnt.incarnation + 1

/-- The module has woken from KEEP (17 R408): start-up from the regulators with the wake's event and cause; the estimator and the log go
on as the island kept them. -/
def State.woken (s t : State) (event : Fld) : Prop :=
  t.getF Reg.PWR_STATUS_STATE = 0 ∧ t.getF Reg.PWR_STATUS_START_STEP = 1 ∧ t.isF event = true ∧
    t.isF Reg.PWR_RESET_CAUSE_KEEP_WAKE = true ∧ bitOf (t.getF Reg.SYS_IRQ_CAUSE 12) 2 = true ∧ t.isF Reg.TWN_STATUS_LOCK = false ∧
    t.est.str = s.est.str ∧ t.sec = s.sec.fuses ∧ t.mem = [] ∧ t.pkl = {} ∧ t.pending = s.pending

/-- The module is in OFF: no domain runs and nothing volatile is left (17 R395, R404). -/
def State.isOff (s t : State) : Prop :=
  s.cleared t ∧ t.hnt.incarnation = s.hnt.incarnation ∧ t.pwr.off = true ∧ t.events = [] ∧ t.getF Reg.PWR_DOM_STATUS_LO_RUNS = 0 ∧ t.getF Reg.PWR_DOM_STATUS_HI_RUNS = 0

/-! ## Register accesses -/

/-- An aligned 32-bit access on a path is carried out now: the path takes accesses, the address lies in a block that answers, and nothing
waits on the path (00 R3, R10; 20 R455, R458). -/
def State.carries (s : State) (path a : Nat) : Bool :=
  path < 5 && (path ≠ 0 || (!s.host.perst && !s.host.d3)) && a % 4 = 0 && (blockDomain a).isSome && s.answers a &&
    !(s.waiting.any fun x => x.path = path)

/-- A register that a write changes by its access code alone (00 R5): no command, owner or service hangs on it. -/
def plainAddr (a : Nat) : Bool :=
  !((0x1000 ≤ a && a < 0x1080) || (0x5F800 ≤ a && a < 0x5F900) || (0x101000 ≤ a && a < 0x101800) || isCommand a ||
    (0x51000 ≤ a && a < 0x5D000 && ((a - 0x51000) % 512 = 0 || (a - 0x51000) % 512 = 0x100)) || (orderOf a 0).isSome || (windowOf a).isSome) &&
  !([Reg.PWM_CTR.addr 0 0, Reg.PWM_GRP_TRIP.addr 0 0, Reg.EST_S_HEALTH_HEALTH.addr 0 0, Reg.EST_S_HEALTH_HEALTH.addr 1 0,
    Reg.TH_DIE_OPP.addr 0 0, Reg.TH_DIE_OPP.addr 1 0, Reg.PKL_CFG.addr 0 0, Reg.SNS_FAULT_DS.addr 0 0,
    Reg.SNS_FAULT_OTH.addr 0 0].contains a)

/-- No rule refuses a write of `v` to the register at `a` (04 R76, R85; 05 R103; 07 R162). -/
def State.takesWrite (s : State) (a v : Nat) : Bool :=
  !(s.laneChangeRefused a v || s.gridRefused a || s.partRefused a) && (s.bankRefused a).isNone

/-- Bit `k` of a register after a write of `v` under its access codes (00 R5): RW, or RWL without the lock, takes the bit of `v`; W1C
clears under a 1; a bit that the register does not let a write change, or that a committed layer locks, stays. -/
def State.codeBit (s : State) (row : RegRow) (a v k : Nat) : Bool :=
  let lock := s.isF Reg.LCS_STATUS_LOCK
  if (bitOf row.rw k || (bitOf row.rwl k && !lock)) && !bitOf (s.layerBits a) k then bitOf v k
  else bitOf (s.rd a).toNat k && !(bitOf row.w1c k && bitOf v k)

/-- A management message (20 R466) without a tag. -/
def mgmtMsg (typ count requester seq offset status : Nat) (payload : List Byte) : List Byte :=
  [0x41#8, 0x4D#8, 1#8, BitVec.ofNat 8 typ, 0#8, BitVec.ofNat 8 count] ++ beBytes 2 (28 + payload.length) ++ beBytes 8 requester ++
    beBytes 4 seq ++ beBytes 4 offset ++ [BitVec.ofNat 8 status, 0#8, 0#8, 0#8] ++ payload

/-- The management port takes a request up at once: it is enabled, it runs, and no request waits (20 R466, R468). -/
def State.mgmtIdle (s : State) : Bool :=
  s.isF Reg.SYS_MGMT_CFG_EN && s.runs 17 && !s.dead && s.host.waiting = [] && s.host.mgmtDone = 0

/-- A request is new: none of its requester and SEQ is kept, and its SEQ is after the greatest accepted (20 R468). -/
def State.mgmtNew (s : State) (requester seq : Nat) : Bool :=
  (s.host.kept.all fun e => e.1 ≠ requester || e.2.1 ≠ seq) &&
    match s.host.greatestOf requester with | some g => g ≠ seq && (seq + 2 ^ 32 - g) % 2 ^ 32 < 2 ^ 31 | none => true

/-- What the port keeps after a request is carried out (20 R468). -/
def HostState.answered (h : HostState) (requester seq : Nat) (response : List Byte) : HostState :=
  let kept := h.kept ++ [(requester, seq, response)]
  { h with kept := kept.drop (kept.length - 32),
           greatest := (h.greatest.filter fun (e : Nat × Nat) => e.1 ≠ requester) ++ [(requester, seq)] }

/-! ## Pairs -/

/-- A pair of registers holds a 64-bit value (R8). -/
def SetsPair (t : State) (f : Fld) (i v : Nat) : Prop := t.get64 f i = v

end Sys2Proof.Machine
end

