-- ==== Sys2Proof/Certificates/Slice0/Obligations.lean ====
section
/-!
DEFINITION. The statements for the provers: what the commands of the block do, by the rules of the spec.
-/

open Sys2Proof Sys2Proof.Machine

/-- For every command c, state s and rest of a queue, step of s with c in front of the rest is exec of c on s with the rest as its queue. That a
step on an empty queue answers the same state is the model's choice (log entry 1), no rule of the spec. A command that a word spells stands
at the front of the queue after withFetchWord, and where a word spells none the state is unchanged. -/
def Obligations.StepRunsTheFrontCommand : Prop :=
  (∀ (c : Instr) (s : State) (rest : List Instr), step { s with pending := c :: rest } = exec c { s with pending := rest }) ∧
  (∀ s : State, s.pending = [] → step s = .next s) ∧
  (∀ (s : State) (nbits w : Nat), s.withFetchWord nbits w =
    match decodeTableWord nbits w with | some c => { s with pending := c :: s.pending } | none => s)

/-- State.reset has the invariant of StepsKeepTheCanonicalForm. Every register holds the value of its table's Reset column but DOM_STATUS, which
shows the domains of the island, and the words of the secret slots, which show their kind. The memory stack is zero and without poison, no
path holds a latched or a low word, every vector is armed with no cause set, and no command, access or message waits. Values that the spec
does not give are the model's (log entry 2) and are no clause here. -/
def Obligations.WhatResetLeaves : Prop :=
  State.reset.inv = true ∧
  (∀ a, (a < 0x20020 ∨ 0x20028 ≤ a) → (a < 0x110020 ∨ 0x110060 ≤ a) → State.reset.rd a = regReset a) ∧
  (∀ a, Sparse.at 0#8 State.reset.mem a = 0#8) ∧ (∀ b, Sparse.at false State.reset.poison b = false) ∧
  State.reset.latch = [] ∧ State.reset.held = [] ∧ State.reset.waiting = [] ∧ State.reset.pending = [] ∧
  (∀ v, v < 15 → bitOf State.reset.irq.armed v = true ∧ State.reset.getF Reg.SYS_IRQ_CAUSE v = 0) ∧
  State.reset.host.kept = [] ∧ State.reset.host.waiting = [] ∧
  (∀ d, d ∈ [12, 13, 29, 32, 33, 35, 36, 40] ↔ (1 ≤ d ∧ d ≤ 40 ∧ State.reset.runs d = true))

/-- For every state with the invariant, whatever command stands in front of the queue, the next state has it too: the register file, the
settings in force, the memory stack, its poison marks and the strings of the charge estimator list their keys in rising order, each once,
and list no value that an unlisted key reads as. Equal contents are then equal data, and a read after a write finds what was written. -/
def Obligations.StepsKeepTheCanonicalForm : Prop :=
  ∀ s t : State, s.inv = true → step s = .next t → t.inv = true

/-- Whatever command runs, in whatever state, and through every reset: LC_COUNT never falls, a module that is RETIRED stays RETIRED, a key slot
that was written, revoked or destroyed never reads as free again and a revoked one stays revoked, and the words of the minimum serials of
images and firmware stay as the first words of what is there after it. -/
def Obligations.FusesOnlyEverBlow : Prop :=
  ∀ s t : State, step s = .next t →
    s.sec.lcCount ≤ t.sec.lcCount ∧ (s.sec.retired = true → t.sec.retired = true) ∧
    (∀ i, Sparse.at 0 s.sec.fused i ≠ 0 → Sparse.at 0 t.sec.fused i ≠ 0) ∧
    (∀ i, bitOf (Sparse.at 0 s.sec.fused i) 30 = true → bitOf (Sparse.at 0 t.sec.fused i) 30 = true) ∧
    s.sec.minImg <+: t.sec.minImg ∧ s.sec.minFw <+: t.sec.minFw

/-- For every command and every state exec answers a next state, or, where the command names a core of 256 or more, the fault noSuchCore with
that number: no command is refused and no other fault occurs. R139 gives the array the cores 0 to 255 and no others; each of the commands of
the Thicket cores, given another number, stops so. -/
def Obligations.EveryCommandCompletesButForCoresAbove255 : Prop :=
  (∀ (c : Instr) (s : State), (∃ t, exec c s = .next t) ∨ ∃ k, 256 ≤ k ∧ exec c s = .fault (.noSuchCore k)) ∧
  (∀ (s : State) (k now cycle channel endpoint tag : Nat) (up : Option (Nat × Bool)) (bad : List (Nat × List (Nat × Nat))), 256 ≤ k →
    exec (.scalarInstruction k now cycle up) s = .fault (.noSuchCore k) ∧
    exec (.ecall k) s = .fault (.noSuchCore k) ∧
    exec (.ebreak k) s = .fault (.noSuchCore k) ∧
    exec (.thSend k now up) s = .fault (.noSuchCore k) ∧
    exec (.thSendnb k up) s = .fault (.noSuchCore k) ∧
    exec (.thRecv k now) s = .fault (.noSuchCore k) ∧
    exec (.thPeek k) s = .fault (.noSuchCore k) ∧
    exec (.thWait k now) s = .fault (.noSuchCore k) ∧
    exec (.thRelease k) s = .fault (.noSuchCore k) ∧
    exec (.thCredits k) s = .fault (.noSuchCore k) ∧
    exec (.thBarrier k now) s = .fault (.noSuchCore k) ∧
    exec (.barrierTimeout k now) s = .fault (.noSuchCore k) ∧
    exec (.messageArrive k channel) s = .fault (.noSuchCore k) ∧
    exec (.creditArrive k endpoint) s = .fault (.noSuchCore k) ∧
    exec (.waitTimeout k now) s = .fault (.noSuchCore k) ∧
    exec (.thDma k up) s = .fault (.noSuchCore k) ∧
    exec (.dmaComplete k tag bad) s = .fault (.noSuchCore k) ∧
    exec (.thDmawait k now) s = .fault (.noSuchCore k) ∧
    exec (.thDmapoll k) s = .fault (.noSuchCore k) ∧
    exec (.thPub k now up) s = .fault (.noSuchCore k) ∧
    exec (.thSlotsel k) s = .fault (.noSuchCore k) ∧
    exec (.thTzero k) s = .fault (.noSuchCore k) ∧
    exec (.thTld k up) s = .fault (.noSuchCore k) ∧
    exec (.thTst k) s = .fault (.noSuchCore k) ∧
    exec (.thTmma k up) s = .fault (.noSuchCore k) ∧
    exec (.thTmmaT k up) s = .fault (.noSuchCore k) ∧
    exec (.thCvtE4m3F32 k up) s = .fault (.noSuchCore k) ∧
    exec (.thCvtE5m2F32 k up) s = .fault (.noSuchCore k) ∧
    exec (.thCvtBf16F32 k up) s = .fault (.noSuchCore k) ∧
    exec (.thCvtI8F32 k up) s = .fault (.noSuchCore k) ∧
    exec (.thCvtQ12bF32 k up) s = .fault (.noSuchCore k) ∧
    exec (.thCvtF32E4m3 k up) s = .fault (.noSuchCore k) ∧
    exec (.thCvtF32E5m2 k up) s = .fault (.noSuchCore k) ∧
    exec (.thCvtF32Bf16 k up) s = .fault (.noSuchCore k) ∧
    exec (.thCvtF32I8 k up) s = .fault (.noSuchCore k) ∧
    exec (.thCvtF32Q12b k up) s = .fault (.noSuchCore k))

/-- For every state whose loader is at rest and whose policy allows it, STAGE copies the image at CFG_SRC_ADDR into the staging buffer, gives up
a held image and the way back of REVERT, and shows CHECKING; TWIN_STAGED is 1 exactly where no standby is admitted, and a layer goes to an
admitted standby. In CHECKING, the end of the checks holds the image and shows STAGED with its cause, or shows FAILED with the code of the
first check that failed. The standby that has staged the same layer sets TWIN_STAGED. Every other register and every other part of the state
stays. ABORT before COMMIT gives the staged image up and shows the rest state; CLEAR shows it with ERROR zero; PROGRAM_SLOT with a verified
full image erases the named slot, which is not the running one, and shows PROGRAMMING; its completion leaves the slot equal to the staging
buffer and STAGED with its cause. Every other register and part of the state stays. The rest state is IDLE here (an image runs, or none
yet). -/
def Obligations.CfgStageChecksAbortsClearsAndPrograms : Prop :=
  (∀ (s : State) (path : Nat),
      (s.canonical = true) →
      (s.cfgPathRefused path = false) →
      (s.cfgBusy = false) →
      ((s.cfg.running || s.cfg.noImage) = true) →
      (leAt s.sourceImage 8 1 = 1) →
      Completes (.cfgStage path) s fun t =>
        (SetsFields s t (Reg.CFG_STATUS_STATE.addr 0 0) [(Reg.CFG_STATUS_STATE, 2), (Reg.CFG_STATUS_TWIN_STAGED, ofBool (!s.twn.admitted))]) ∧
        (t.cfg = { s.cfg with staging := s.sourceImage, held := none, canRevert := false, oldWords := [] }) ∧
        (OnlyRegs s t [(Reg.CFG_STATUS_STATE.addr 0 0)]) ∧
        (t = { s with regs := t.regs, cfg := t.cfg })) ∧
  (∀ (s : State) (path : Nat),
      (s.canonical = true) →
      (s.cfgPathRefused path = false) →
      (s.cfgBusy = false) →
      ((s.cfg.running || s.cfg.noImage) = true) →
      (leAt s.sourceImage 8 1 = 2) →
      (s.isF Reg.CFG_POLICY_LAYER_EN = true) →
      (s.twn.admitted = true) →
      Completes (.cfgStage path) s fun t =>
        (SetsFields s t (Reg.CFG_STATUS_STATE.addr 0 0) [(Reg.CFG_STATUS_STATE, 2), (Reg.CFG_STATUS_TWIN_STAGED, 0)]) ∧
        (t.cfg = { s.cfg with staging := s.sourceImage, held := none, canRevert := false, oldWords := [] }) ∧
        (t.outbox = s.outbox ++ [Out.mk .layerToTwin (s.sourceImage.map BitVec.toNat)]) ∧
        (OnlyRegs s t [(Reg.CFG_STATUS_STATE.addr 0 0)]) ∧
        (t = { s with regs := t.regs, cfg := t.cfg, outbox := t.outbox })) ∧
  (∀ (s : State),
      (s.canonical = true) →
      (s.cfgSt = cfgChecking) →
      Completes (.cfgStageComplete) s fun t =>
        ((checkImage s s.cfg.staging s.cfg.staging.length s.cfg.noImage).image.elim (t.cfg = s.cfg ∧ SetsFields s t (Reg.CFG_STATUS_STATE.addr 0 0) [(Reg.CFG_STATUS_ERROR, (checkImage s s.cfg.staging s.cfg.staging.length s.cfg.noImage).code), (Reg.CFG_STATUS_STATE, 9)]) fun i => t.cfg = { s.cfg with held := some i } ∧ SetsField s t Reg.CFG_STATUS_STATE 0 3 ∧ Raises s t 4 [0] ∧ t.events = s.events) ∧
        (OnlyRegs s t [(Reg.CFG_STATUS_STATE.addr 0 0), (Reg.SYS_IRQ_CAUSE.addr 4 0), (Reg.CFG_CONFLICT_RESOURCE.addr 0 0)]) ∧
        (t = { s with regs := t.regs, cfg := t.cfg, events := t.events })) ∧
  (∀ (s : State),
      (s.canonical = true) →
      (s.twn.admitted = true) →
      (s.cfgSt = cfgChecking ∨ s.cfgSt = cfgStaged) →
      Completes (.twinLayerStaged) s fun t =>
        (SetsField s t Reg.CFG_STATUS_TWIN_STAGED 0 1) ∧
        (OnlyRegs s t [(Reg.CFG_STATUS_STATE.addr 0 0)]) ∧
        (t = { s with regs := t.regs })) ∧
  (∀ (s : State) (path : Nat),
      (s.canonical = true) →
      (s.cfgPathRefused path = false) →
      (s.cfgSt = cfgChecking ∨ s.cfgSt = cfgStaged) →
      (s.cfg.noImage = false) →
      Completes (.cfgAbort path) s fun t =>
        (SetsField s t Reg.CFG_STATUS_STATE 0 0) ∧
        (t.cfg = { s.cfg with held := none, staging := [] }) ∧
        (OnlyRegs s t [(Reg.CFG_STATUS_STATE.addr 0 0)]) ∧
        (t = { s with regs := t.regs, cfg := t.cfg })) ∧
  (∀ (s : State) (path : Nat),
      (s.canonical = true) →
      (s.cfgPathRefused path = false) →
      (s.cfgBusy = false) →
      (s.cfg.noImage = false) →
      Completes (.cfgClear path) s fun t =>
        (SetsFields s t (Reg.CFG_STATUS_STATE.addr 0 0) [(Reg.CFG_STATUS_STATE, 0), (Reg.CFG_STATUS_ERROR, 0)]) ∧
        (t.cfg = { s.cfg with held := none }) ∧
        (OnlyRegs s t [(Reg.CFG_STATUS_STATE.addr 0 0)]) ∧
        (t = { s with regs := t.regs, cfg := t.cfg })) ∧
  (∀ (s : State) (path slot : Nat),
      (s.canonical = true) →
      (s.cfgPathRefused path = false) →
      (s.isF Reg.CFG_POLICY_PROGRAM_EN = true) →
      (s.cfgSt = cfgStaged) →
      (s.holdsFull = true) →
      (slot < 2) →
      (s.cfg.running = false ∨ s.cfg.fromSlot = false ∨ s.getF Reg.CFG_STATUS_SLOT ≠ slot) →
      Completes (.cfgProgramSlot path slot) s fun t =>
        (SetsField s t Reg.CFG_STATUS_STATE 0 8) ∧
        (t.cfg = if slot = 0 then { s.cfg with slot0 := [], programSlot := 0 } else { s.cfg with slot1 := [], programSlot := 1 }) ∧
        (OnlyRegs s t [(Reg.CFG_STATUS_STATE.addr 0 0)]) ∧
        (t = { s with regs := t.regs, cfg := t.cfg })) ∧
  (∀ (s : State),
      (s.canonical = true) →
      (s.cfgSt = cfgProgramming) →
      Completes (.programSlotComplete) s fun t =>
        (SetsField s t Reg.CFG_STATUS_STATE 0 3) ∧
        (Raises s t 4 [0]) ∧
        (t.cfg = if s.cfg.programSlot = 0 then { s.cfg with slot0 := s.cfg.staging } else { s.cfg with slot1 := s.cfg.staging }) ∧
        (OnlyRegs s t [(Reg.CFG_STATUS_STATE.addr 0 0), (Reg.SYS_IRQ_CAUSE.addr 4 0)]) ∧
        (t = { s with regs := t.regs, cfg := t.cfg }))

/-- Through the management port while MGMT_EN is 0, each of STAGE, COMMIT, ABORT, REVERT, CLEAR and PROGRAM_SLOT leaves a state that differs in
CFG_STATUS.ERROR, which is 0x16, and in the cause bit of a loader error alone; STATE stays. The same holds of PROGRAM_SLOT through any path
while PROGRAM_EN is 0, and of STAGE of a LAYER image while LAYER_EN is 0 and the loader could take it: nothing is staged. -/
def Obligations.PolicyRefusesLoaderCommands : Prop :=
  (∀ (s : State),
      (s.canonical = true) →
      (s.isF Reg.CFG_POLICY_MGMT_EN = false) →
      Completes (.cfgStage 1) s fun t =>
        (SetsField s t Reg.CFG_STATUS_ERROR 0 22) ∧
        (Raises s t 4 [2]) ∧
        (t.cfgSt = s.cfgSt) ∧
        (OnlyRegs s t [(Reg.CFG_STATUS_STATE.addr 0 0), (Reg.SYS_IRQ_CAUSE.addr 4 0)]) ∧
        (t = { s with regs := t.regs })) ∧
  (∀ (s : State) (now : Nat),
      (s.canonical = true) →
      (s.isF Reg.CFG_POLICY_MGMT_EN = false) →
      Completes (.cfgCommit 1 now) s fun t =>
        (SetsField s t Reg.CFG_STATUS_ERROR 0 22) ∧
        (Raises s t 4 [2]) ∧
        (t.cfgSt = s.cfgSt) ∧
        (OnlyRegs s t [(Reg.CFG_STATUS_STATE.addr 0 0), (Reg.SYS_IRQ_CAUSE.addr 4 0)]) ∧
        (t = { s with regs := t.regs })) ∧
  (∀ (s : State),
      (s.canonical = true) →
      (s.isF Reg.CFG_POLICY_MGMT_EN = false) →
      Completes (.cfgAbort 1) s fun t =>
        (SetsField s t Reg.CFG_STATUS_ERROR 0 22) ∧
        (Raises s t 4 [2]) ∧
        (t.cfgSt = s.cfgSt) ∧
        (OnlyRegs s t [(Reg.CFG_STATUS_STATE.addr 0 0), (Reg.SYS_IRQ_CAUSE.addr 4 0)]) ∧
        (t = { s with regs := t.regs })) ∧
  (∀ (s : State) (now : Nat),
      (s.canonical = true) →
      (s.isF Reg.CFG_POLICY_MGMT_EN = false) →
      Completes (.cfgRevert 1 now) s fun t =>
        (SetsField s t Reg.CFG_STATUS_ERROR 0 22) ∧
        (Raises s t 4 [2]) ∧
        (t.cfgSt = s.cfgSt) ∧
        (OnlyRegs s t [(Reg.CFG_STATUS_STATE.addr 0 0), (Reg.SYS_IRQ_CAUSE.addr 4 0)]) ∧
        (t = { s with regs := t.regs })) ∧
  (∀ (s : State),
      (s.canonical = true) →
      (s.isF Reg.CFG_POLICY_MGMT_EN = false) →
      Completes (.cfgClear 1) s fun t =>
        (SetsField s t Reg.CFG_STATUS_ERROR 0 22) ∧
        (Raises s t 4 [2]) ∧
        (t.cfgSt = s.cfgSt) ∧
        (OnlyRegs s t [(Reg.CFG_STATUS_STATE.addr 0 0), (Reg.SYS_IRQ_CAUSE.addr 4 0)]) ∧
        (t = { s with regs := t.regs })) ∧
  (∀ (s : State) (slot : Nat),
      (s.canonical = true) →
      (s.isF Reg.CFG_POLICY_MGMT_EN = false) →
      Completes (.cfgProgramSlot 1 slot) s fun t =>
        (SetsField s t Reg.CFG_STATUS_ERROR 0 22) ∧
        (Raises s t 4 [2]) ∧
        (t.cfgSt = s.cfgSt) ∧
        (OnlyRegs s t [(Reg.CFG_STATUS_STATE.addr 0 0), (Reg.SYS_IRQ_CAUSE.addr 4 0)]) ∧
        (t = { s with regs := t.regs })) ∧
  (∀ (s : State) (path slot : Nat),
      (s.canonical = true) →
      (s.isF Reg.CFG_POLICY_PROGRAM_EN = false) →
      Completes (.cfgProgramSlot path slot) s fun t =>
        (SetsField s t Reg.CFG_STATUS_ERROR 0 22) ∧
        (Raises s t 4 [2]) ∧
        (t.cfgSt = s.cfgSt) ∧
        (OnlyRegs s t [(Reg.CFG_STATUS_STATE.addr 0 0), (Reg.SYS_IRQ_CAUSE.addr 4 0)]) ∧
        (t = { s with regs := t.regs })) ∧
  (∀ (s : State) (path : Nat),
      (s.canonical = true) →
      (s.isF Reg.CFG_POLICY_LAYER_EN = false) →
      (s.cfgBusy = false) →
      ((s.cfg.running || s.cfg.noImage) = true) →
      (leAt s.sourceImage 8 1 = 2) →
      Completes (.cfgStage path) s fun t =>
        (SetsField s t Reg.CFG_STATUS_ERROR 0 22) ∧
        (Raises s t 4 [2]) ∧
        (t.cfgSt = s.cfgSt) ∧
        (OnlyRegs s t [(Reg.CFG_STATUS_STATE.addr 0 0), (Reg.SYS_IRQ_CAUSE.addr 4 0)]) ∧
        (t = { s with regs := t.regs }))

/-- In STAGED with a layer that no claim forbids (and staged by an admitted standby), COMMIT locks the registers of the layer's regions, shows
WRITING and sets the earliest boundary: the first at least 64 frames (640,000 ns) after COMMIT. When the planes of the module, and of an
admitted standby, are written and read back, the loader shows ARMED with B: the greater of that boundary and the present one, or
CFG_SWITCH_FRAME where the host names a later one. A host that names an earlier one gets FAILED with 0x10; a read-back that does not match
gets FAILED with 0x11, ends the lock and the way back of REVERT, and is recorded. -/
def Obligations.CfgCommitOfALayer : Prop :=
  (∀ (s : State) (path now : Nat) (i : CfgImage),
      (s.canonical = true) →
      (s.cfgPathRefused path = false) →
      (s.cfgSt = cfgStaged) →
      (s.cfg.held = some i) →
      (i.kind = 2) →
      (s.twn.admitted = true → s.isF Reg.CFG_STATUS_TWIN_STAGED = true) →
      (claimClash s true (i.regions.map CfgRegion.region) [] (imageClaims i.regions) = none) →
      Completes (.cfgCommit path now) s fun t =>
        (SetsField s t Reg.CFG_STATUS_STATE 0 4) ∧
        (t.cfg = { s.cfg with locked := i.regions.map CfgRegion.region, earliest := s.frameFrom (now + 640000), ownWritten := false, twinWritten := false, boundary := none }) ∧
        (t.outbox = s.outbox ++ if s.twn.admitted then [Out.mk .commitToTwin [1, i.serial]] else []) ∧
        (∀ a, a < 0x31000 → a ∉ [(Reg.CFG_STATUS_STATE.addr 0 0)] → t.rd a = s.rd a) ∧
        (t = { s with regs := t.regs, cfg := t.cfg, outbox := t.outbox })) ∧
  (∀ (s : State) (region now : Nat),
      (s.canonical = true) →
      (s.cfgSt = cfgWriting) →
      (s.twn.admitted = false) →
      (s.get64 Reg.CFG_SWITCH_FRAME_LO = 0) →
      Completes (.planeWriteComplete false region true now) s fun t =>
        (SetsField s t Reg.CFG_STATUS_STATE 0 5) ∧
        (t.cfg = { s.cfg with ownWritten := true, boundary := some (max s.cfg.earliest (s.frameFrom now)) }) ∧
        (OnlyRegs s t [(Reg.CFG_STATUS_STATE.addr 0 0)]) ∧
        (t = { s with regs := t.regs, cfg := t.cfg })) ∧
  (∀ (s : State) (region now : Nat),
      (s.canonical = true) →
      (s.cfgSt = cfgWriting) →
      (s.twn.admitted = true) →
      (s.cfg.ownWritten = true) →
      (s.get64 Reg.CFG_SWITCH_FRAME_LO ≠ 0) →
      (max s.cfg.earliest (s.frameFrom now) ≤ s.get64 Reg.CFG_SWITCH_FRAME_LO) →
      Completes (.planeWriteComplete true region true now) s fun t =>
        (SetsField s t Reg.CFG_STATUS_STATE 0 5) ∧
        (t.cfg = { s.cfg with twinWritten := true, boundary := some (s.get64 Reg.CFG_SWITCH_FRAME_LO) }) ∧
        (t.outbox = s.outbox ++ [Out.mk .commitToTwin [2, s.get64 Reg.CFG_SWITCH_FRAME_LO]]) ∧
        (OnlyRegs s t [(Reg.CFG_STATUS_STATE.addr 0 0)]) ∧
        (t = { s with regs := t.regs, cfg := t.cfg, outbox := t.outbox })) ∧
  (∀ (s : State) (twin : Bool) (region now : Nat),
      (s.canonical = true) →
      (s.cfgSt = cfgWriting) →
      Completes (.planeWriteComplete twin region false now) s fun t =>
        (SetsFields s t (Reg.CFG_STATUS_STATE.addr 0 0) [(Reg.CFG_STATUS_ERROR, 17), (Reg.CFG_STATUS_STATE, 9)]) ∧
        (Raises s t 4 [2]) ∧
        (t.cfg = { s.cfg with locked := [], boundary := none, held := none, canRevert := false, oldWords := [] }) ∧
        (t.events = s.events ++ [LogEvent.mk 0x0105 0xFFFF [region, ofBool twin]]) ∧
        (∀ a, a < 0x31000 → a ∉ [(Reg.CFG_STATUS_STATE.addr 0 0), (Reg.SYS_IRQ_CAUSE.addr 4 0)] → t.rd a = s.rd a) ∧
        (t = { s with regs := t.regs, cfg := t.cfg, events := t.events }))

/-- COMMIT of a staged full image while no image runs applies it as the shelf host's image and shows SWITCHED. At start-up step 5,
STARTUP_IMAGE_LOAD tries the slots in the order of their serials (a slot whose header cannot be read comes last): the first whose image
passes the checks is applied, and in FIELD the lock is taken; where neither passes, the loader shows NO_IMAGE, both codes are recorded,
START_FAIL is 5 and START_IMAGE_MS is 0xFFFF. -/
def Obligations.CfgFullImageFromTheHost : Prop :=
  (∀ (s : State) (path now : Nat) (i : CfgImage),
      (s.canonical = true) →
      (s.cfgPathRefused path = false) →
      (s.cfgSt = cfgStaged) →
      (s.cfg.held = some i) →
      (i.kind = 1) →
      (s.cfg.running = false) →
      Completes (.cfgCommit path now) s fun t =>
        (t = (s.applyFull i none path now).setCfgSt cfgSwitched)) ∧
  (∀ (s : State) (now : Nat),
      (s.canonical = true) →
      (s.getF Reg.PWR_STATUS_START_STEP = 5) →
      (s.runs 1 = true) →
      (s.runs 2 = true) →
      (s.isF Reg.CLK_STATUS_ON_FAST = false) →
      (s.startBlocked = false) →
      (s.cfg.running = false) →
      (s.cfg.noImage = false) →
      (slotOrder s.cfg.slot0 s.cfg.slot1 = [0, 1]) →
      Completes (.startupImageLoad now) s fun t =>
        ((checkImage s s.cfg.slot0 s.cfg.slot0.length true).image.elim True fun i => t = ((s.slotStaged s.cfg.slot0).applyFull i (some 0) 5 now).lockInField) ∧
        ((checkImage s s.cfg.slot0 s.cfg.slot0.length true).image = none → (checkImage s s.cfg.slot1 s.cfg.slot1.length true).image.elim True fun i => t = ((((s.slotStaged s.cfg.slot0).slotFails 0 (checkImage s s.cfg.slot0 s.cfg.slot0.length true) s.cfg.slot0).slotStaged s.cfg.slot1).applyFull i (some 1) 5 now).lockInField) ∧
        ((checkImage s s.cfg.slot0 s.cfg.slot0.length true).image = none → (checkImage s s.cfg.slot1 s.cfg.slot1.length true).image = none → s.lcState ≠ 2 → t.cfg.noImage = true ∧ t.getF Reg.PWR_START_IMAGE_MS = 0xFFFF ∧ t.cfgSt = cfgNoImage ∧ t.getF Reg.PWR_STATUS_START_FAIL = 5 ∧ bitOf (t.getF Reg.SYS_IRQ_CAUSE 4) 2 = true ∧ bitOf (t.getF Reg.SYS_IRQ_CAUSE 4) 3 = true ∧ t.mem = s.mem ∧ t.pending = s.pending)) ∧
  (∀ (s : State) (now : Nat),
      (s.canonical = true) →
      (s.getF Reg.PWR_STATUS_START_STEP = 5) →
      (s.runs 1 = true) →
      (s.runs 2 = true) →
      (s.isF Reg.CLK_STATUS_ON_FAST = false) →
      (s.startBlocked = false) →
      (s.cfg.running = false) →
      (s.cfg.noImage = false) →
      (slotOrder s.cfg.slot0 s.cfg.slot1 = [1, 0]) →
      Completes (.startupImageLoad now) s fun t =>
        ((checkImage s s.cfg.slot1 s.cfg.slot1.length true).image.elim True fun i => t = ((s.slotStaged s.cfg.slot1).applyFull i (some 1) 5 now).lockInField) ∧
        ((checkImage s s.cfg.slot1 s.cfg.slot1.length true).image = none → (checkImage s s.cfg.slot0 s.cfg.slot0.length true).image.elim True fun i => t = ((((s.slotStaged s.cfg.slot1).slotFails 1 (checkImage s s.cfg.slot1 s.cfg.slot1.length true) s.cfg.slot1).slotStaged s.cfg.slot0).applyFull i (some 0) 5 now).lockInField) ∧
        ((checkImage s s.cfg.slot0 s.cfg.slot0.length true).image = none → (checkImage s s.cfg.slot1 s.cfg.slot1.length true).image = none → s.lcState ≠ 2 → t.cfg.noImage = true ∧ t.getF Reg.PWR_START_IMAGE_MS = 0xFFFF ∧ t.cfgSt = cfgNoImage ∧ t.getF Reg.PWR_STATUS_START_FAIL = 5 ∧ bitOf (t.getF Reg.SYS_IRQ_CAUSE 4) 2 = true ∧ bitOf (t.getF Reg.SYS_IRQ_CAUSE 4) 3 = true ∧ t.mem = s.mem ∧ t.pending = s.pending))

/-- REVERT, while it is available, locks the regions of the last layer, shows REVERTING and takes the first boundary at least 64 frames later,
which an admitted standby hears of. At the boundary B of an armed layer, LAYER_SWITCH switches its regions, shows the layer's serial in
CFG_LAYER_SERIAL, ends the lock and B, keeps the old planes for REVERT, and is recorded; SWITCHED and the versions show with the switch when
no lane waits for its period start, and wait for the lanes otherwise. The switch back of a REVERT puts the old words back, shows SWITCHED at
once and leaves no further way back. -/
def Obligations.RevertAndTheSwitchAtB : Prop :=
  (∀ (s : State) (path now : Nat),
      (s.canonical = true) →
      (s.cfgPathRefused path = false) →
      (s.cfgBusy = false) →
      (s.cfg.canRevert = true) →
      Completes (.cfgRevert path now) s fun t =>
        (SetsField s t Reg.CFG_STATUS_STATE 0 7) ∧
        (t.cfg = { s.cfg with boundary := some (s.frameFrom (now + 640000)), locked := s.cfg.oldRegions.map CfgRegion.region }) ∧
        (t.outbox = s.outbox ++ if s.twn.admitted then [Out.mk .commitToTwin [3, s.frameFrom (now + 640000)]] else []) ∧
        (OnlyRegs s t [(Reg.CFG_STATUS_STATE.addr 0 0)]) ∧
        (t = { s with regs := t.regs, cfg := t.cfg, outbox := t.outbox })) ∧
  (∀ (s : State) (now b : Nat) (i : CfgImage),
      (s.canonical = true) →
      (s.cfgSt = cfgArmed) →
      (s.cfg.boundary = some b) →
      (b ≤ s.frame) →
      (s.cfg.held = some i) →
      Completes (.layerSwitch now) s fun t =>
        (t.cfg.held = none) ∧
        (t.cfg.locked = []) ∧
        (t.cfg.boundary = none) ∧
        (t.cfg.canRevert = true) ∧
        (t.cfg.oldRegions = s.cfg.active.filter fun (g : CfgRegion) => (i.regions.map CfgRegion.region).contains g.region) ∧
        ((s.switchRegions i.regions none now).cfg.lanePlanes ≠ [] → t.cfg.switching = true ∧ t.regs = ((s.switchRegions i.regions none now).setF Reg.CFG_LAYER_SERIAL i.serial).regs ∧ t.getF Reg.CFG_LAYER_SERIAL = i.serial % 2 ^ 32) ∧
        ((s.switchRegions i.regions none now).cfg.lanePlanes = [] → t.cfg.switching = false ∧ t.cfgSt = cfgSwitched ∧ t.regs = ((s.switchRegions i.regions none now).setF Reg.CFG_LAYER_SERIAL i.serial).showVersions.regs) ∧
        (t.events = (s.switchRegions i.regions none now).events ++ [LogEvent.mk 0x0103 0xFFFF [b, (i.regions.map CfgRegion.region).foldl (fun m r => m + 2 ^ r) 0, i.serial % 2 ^ 32]])) ∧
  (∀ (s : State) (now b : Nat),
      (s.canonical = true) →
      (s.cfgSt = cfgReverting) →
      (s.cfg.boundary = some b) →
      (b ≤ s.frame) →
      Completes (.layerSwitch now) s fun t =>
        (t.cfg.locked = []) ∧
        (t.cfg.boundary = none) ∧
        (t.cfg.switching = false) ∧
        (t.cfgSt = cfgSwitched) ∧
        (t.cfg.canRevert = false) ∧
        (t.cfg.oldWords = []) ∧
        (t.regs = (s.switchRegions s.cfg.oldRegions (some s.cfg.oldWords) now).showVersions.regs))

/-- A run-time claim with the code of its path: on a free resource without a reservation it makes the claimant the OWNER and the path's result
GRANTED; on an owned or reserved one the owner keeps the resource, the path's result is CONFLICT, and CFG_CONFLICT, an event and a cause
record resource, holder and claimant. A release by the owner frees the resource. An enabled capture ring that is not STOPPED runs while it
has an owner, and a general timer that is released stops with EXPIRED at 0. A release by any other party gives NOT_OWNER and changes nothing
else. A code that is not the path's gives NOT_CLAIMABLE and changes nothing else. No other register, and no other path's result, changes.
(Without the lock, no journal entry is made.) -/
def Obligations.OwnershipClaims : Prop :=
  (∀ (s : State) (path owner resource : Nat),
      (s.canonical = true) →
      (owner = pathOwner path ∧ claimable resource = true) →
      (s.getF Reg.CFG_OWN_OWNER resource = 0 ∧ s.isF Reg.CFG_OWN_RESERVED resource = false) →
      (s.isF Reg.TWN_STATUS_LOCK = false) →
      Completes (.ownClaim path owner resource) s fun t =>
        (SetsField s t Reg.CFG_OWN_OWNER resource owner) ∧
        (t.pathRegs = (s.wrPath path (Reg.CFG_OWN_RESULT_RESULT.addr 0 0) 0#32).pathRegs) ∧
        (0x180 ≤ resource → resource < 0x1C0 → SetsField s t Reg.CTX_CAP_STAT_RUNNING ((resource - 0x180)) (ofBool (s.isF Reg.CTX_CAP_CFG_EN (resource - 0x180) && !s.isF Reg.CTX_CAP_STAT_STOPPED (resource - 0x180)))) ∧
        (OnlyRegs s t ((Reg.CFG_OWN_OWNER.addr resource 0) :: (if 0x180 ≤ resource ∧ resource < 0x1C0 then [(Reg.CTX_CAP_STAT.addr ((resource - 0x180)) 0)] else []))) ∧
        (t = { s with regs := t.regs, pathRegs := t.pathRegs })) ∧
  (∀ (s : State) (path owner resource : Nat),
      (s.canonical = true) →
      (owner = pathOwner path ∧ claimable resource = true) →
      (¬ (s.getF Reg.CFG_OWN_OWNER resource = 0 ∧ s.isF Reg.CFG_OWN_RESERVED resource = false)) →
      Completes (.ownClaim path owner resource) s fun t =>
        (t.rd (Reg.CFG_CONFLICT_RESOURCE.addr 0 0) = BitVec.ofNat 32 (resource + 2 ^ 16 * owner + 2 ^ 24 * s.getF Reg.CFG_OWN_OWNER resource)) ∧
        (Raises s t 4 [4]) ∧
        (t.pathRegs = (s.wrPath path (Reg.CFG_OWN_RESULT_RESULT.addr 0 0) 1#32).pathRegs) ∧
        (t.events = s.events ++ [LogEvent.mk 0x0106 0xFFFF [resource + 2 ^ 16 * owner + 2 ^ 24 * s.getF Reg.CFG_OWN_OWNER resource]]) ∧
        (OnlyRegs s t [(Reg.CFG_CONFLICT_RESOURCE.addr 0 0), (Reg.SYS_IRQ_CAUSE.addr 4 0)]) ∧
        (t = { s with regs := t.regs, pathRegs := t.pathRegs, events := t.events })) ∧
  (∀ (s : State) (path owner resource : Nat),
      (¬ (owner = pathOwner path ∧ claimable resource = true)) →
      Completes (.ownClaim path owner resource) s fun t =>
        (t.pathRegs = (s.wrPath path (Reg.CFG_OWN_RESULT_RESULT.addr 0 0) 2#32).pathRegs) ∧
        (t = { s with pathRegs := t.pathRegs })) ∧
  (∀ (s : State) (path owner resource : Nat),
      (s.canonical = true) →
      (owner = pathOwner path ∧ claimable resource = true) →
      (s.getF Reg.CFG_OWN_OWNER resource = owner ∧ s.isF Reg.CFG_OWN_RESERVED resource = false) →
      (s.isF Reg.TWN_STATUS_LOCK = true) →
      Completes (.ownRelease path owner resource) s fun t =>
        (SetsField s t Reg.CFG_OWN_OWNER resource 0) ∧
        (t.pathRegs = (s.wrPath path (Reg.CFG_OWN_RESULT_RESULT.addr 0 0) 0#32).pathRegs) ∧
        (t.twn.journal = s.twn.journal ++ [((Reg.CFG_OWN_CLAIM.addr 0 0), 2 ^ 24 + resource + 2 ^ 16 * owner)]) ∧
        (0x170 ≤ resource → resource < 0x180 → SetsFields s t (Reg.LT_TMR_STAT.addr ((resource - 0x170)) 0) [(Reg.LT_TMR_STAT_RUNNING, 0), (Reg.LT_TMR_STAT_EXPIRED, 0)]) ∧
        (0x180 ≤ resource → resource < 0x1C0 → SetsField s t Reg.CTX_CAP_STAT_RUNNING ((resource - 0x180)) 0) ∧
        (OnlyRegs s t ((Reg.CFG_OWN_OWNER.addr resource 0) :: (if 0x180 ≤ resource ∧ resource < 0x1C0 then [(Reg.CTX_CAP_STAT.addr ((resource - 0x180)) 0)] else if 0x170 ≤ resource ∧ resource < 0x180 then [(Reg.LT_TMR_STAT.addr ((resource - 0x170)) 0)] else []))) ∧
        (t = { s with regs := t.regs, pathRegs := t.pathRegs, twn := t.twn })) ∧
  (∀ (s : State) (path owner resource : Nat),
      (owner = pathOwner path ∧ claimable resource = true) →
      (s.getF Reg.CFG_OWN_OWNER resource ≠ owner) →
      Completes (.ownRelease path owner resource) s fun t =>
        (t.pathRegs = (s.wrPath path (Reg.CFG_OWN_RESULT_RESULT.addr 0 0) 3#32).pathRegs) ∧
        (t = { s with pathRegs := t.pathRegs }))

/-- STUCK on an enabled DS channel sets STUCK, the channel's bit of SNS_FAULT_DS and SNS_STATUS.FAULT, raises its cause where FAULT was 0, and
is recorded; its end clears the condition alone. CLK_LOSS stops the SENSE domain of the group; in RECEIVED mode every enabled channel of the
group takes CLK_LOSS and its fault bit. 64 timely edges end the condition for the group's channels, restart the domain, and measure the
clock (MEAS_KHZ: a free value, log entries 5 and 28). Nothing else changes. A trigger event (R54) of an enabled AD channel that has an
owner, whose last kept event lies 500 ns back starts a conversion; one that comes earlier is dropped and sets SKIP; any other instant, and a
channel not in use, changes nothing. A conversion that completes publishes the calibration of its code times 128 in SNS_CH_DATA and, where
it saturated, SAT and the channel's bit of SNS_FAULT_OTH; after a failed crossing SNS_CH_DATA shows the last value again, the sample carries
STALE, and CLK_XING_STALE of ADCL counts. Nothing else changes but what tiles and capture rings hold. -/
def Obligations.DeltaSigmaFaultsAndSarConversions : Prop :=
  (∀ (s : State) (channel : Nat),
      (s.canonical = true) →
      (s.dsWatched channel = true) →
      (bitOf s.sns.stuck channel = false) →
      Completes (.stuck channel) s fun t =>
        (SetsField s t Reg.SNS_CH_STAT_STUCK channel 1) ∧
        (SetsField s t Reg.SNS_FAULT_DS 0 (putBit (s.getF Reg.SNS_FAULT_DS) channel true)) ∧
        (SetsField s t Reg.SNS_STATUS_FAULT 0 1) ∧
        (s.isF Reg.SNS_STATUS_FAULT = false → Raises s t 1 [0]) ∧
        (t.sns = { s.sns with stuck := putBit s.sns.stuck channel true }) ∧
        (t.events = s.events ++ [LogEvent.mk 0x0201 channel [channel, 0]]) ∧
        (OnlyRegs s t [(Reg.SNS_CH_STAT_STUCK.addr channel 0), (Reg.SNS_FAULT_DS.addr 0 0), (Reg.SNS_STATUS.addr 0 0), (Reg.SYS_IRQ_CAUSE.addr 1 0)]) ∧
        (t = { s with regs := t.regs, sns := t.sns, events := t.events })) ∧
  (∀ (s : State) (channel : Nat),
      Completes (.stuckClear channel) s fun t =>
        (t.sns = { s.sns with stuck := putBit s.sns.stuck channel false }) ∧
        (t = { s with sns := t.sns })) ∧
  (∀ (s : State) (group : Nat),
      (s.canonical = true) →
      (group < 8) →
      (s.groupFreqOk group = true) →
      (s.ownClock group = false) →
      (s.groupChannels group ≠ []) →
      (s.isE Reg.SNS_GRP_CFG_MODE group = false) →
      Completes (.clkLoss group) s fun t =>
        (t.runs (3 + group) = false) ∧
        (SetsField s t Reg.PWR_DOM_STATUS_LO_RUNS 0 (putBit (s.getF Reg.PWR_DOM_STATUS_LO_RUNS) (2 + group) false)) ∧
        (t.sns = { s.sns with noClock := putBit s.sns.noClock group true }) ∧
        (OnlyRegs s t [(Reg.PWR_DOM_STATUS_LO_RUNS.addr 0 0)]) ∧
        (t = { s with regs := t.regs, sns := t.sns })) ∧
  (∀ (s : State) (group : Nat),
      (s.canonical = true) →
      (group < 8) →
      (s.groupFreqOk group = true) →
      (s.groupChannels group ≠ []) →
      (s.isE Reg.SNS_GRP_CFG_MODE group = true) →
      Completes (.clkLoss group) s fun t =>
        (t.runs (3 + group) = false) ∧
        (∀ n ∈ s.groupChannels group, t.isF Reg.SNS_CH_STAT_CLK_LOSS n = true ∧ bitOf (t.getF Reg.SNS_FAULT_DS) n = true ∧ bitOf t.sns.loss n = true) ∧
        (t.isF Reg.SNS_STATUS_FAULT = true) ∧
        (bitOf t.sns.noClock group = true) ∧
        (t.events = s.events ++ (s.groupChannels group).map fun n => LogEvent.mk 0x0201 n [n, 1]) ∧
        (OnlyRegs s t [(Reg.PWR_DOM_STATUS_LO_RUNS.addr 0 0), (Reg.SNS_FAULT_DS.addr 0 0), (Reg.SNS_STATUS.addr 0 0), (Reg.SYS_IRQ_CAUSE.addr 1 0), (Reg.SNS_CH_STAT_CLK_LOSS.addr (4 * group + 0) 0), (Reg.SNS_CH_STAT_CLK_LOSS.addr (4 * group + 1) 0), (Reg.SNS_CH_STAT_CLK_LOSS.addr (4 * group + 2) 0), (Reg.SNS_CH_STAT_CLK_LOSS.addr (4 * group + 3) 0)]) ∧
        (t = { s with regs := t.regs, sns := t.sns, events := t.events })) ∧
  (∀ (s : State) (group : Nat),
      (s.canonical = true) →
      (group < 8) →
      (s.groupFreqOk group = true) →
      (s.groupChannels group ≠ []) →
      Completes (.clkLossClear group) s fun t =>
        (t.runs (3 + group) = true) ∧
        (SetsField s t Reg.PWR_DOM_STATUS_LO_RUNS 0 (putBit (s.getF Reg.PWR_DOM_STATUS_LO_RUNS) (2 + group) true)) ∧
        (SetsField s t Reg.SNS_GRP_CFG_MEAS_KHZ group (s.freeVal 1)) ∧
        (t.sns = { s.sns with noClock := putBit s.sns.noClock group false, loss := (List.range 4).foldl (fun m k => putBit m (4 * group + k) false) s.sns.loss }) ∧
        (t.free = s.free + 1) ∧
        (OnlyRegs s t [(Reg.PWR_DOM_STATUS_LO_RUNS.addr 0 0), (Reg.SNS_GRP_CFG_MEAS_KHZ.addr group 0)]) ∧
        (t = { s with regs := t.regs, sns := t.sns, free := t.free })) ∧
  (∀ (s : State) (channel at16 : Nat),
      (s.canonical = true) →
      (channel < 8) →
      (s.channelOn (32 + channel) = true) →
      (s.isEvent (s.adTrigger channel) at16 = true) →
      ((s.sns.adLast.find channel).any (fun x => decide (at16 < x + 8000)) = false) →
      Completes (.adTrigger channel at16) s fun t =>
        (t.sns = { s.sns with adBusy := putBit s.sns.adBusy channel true, adLast := Sparse.insert s.sns.adLast channel at16 }) ∧
        (t = { s with sns := t.sns })) ∧
  (∀ (s : State) (channel at16 : Nat),
      (s.canonical = true) →
      (channel < 8) →
      (s.channelOn (32 + channel) = true) →
      (s.isEvent (s.adTrigger channel) at16 = true) →
      ((s.sns.adLast.find channel).any (fun x => decide (at16 < x + 8000)) = true) →
      Completes (.adTrigger channel at16) s fun t =>
        (SetsField s t Reg.SNS_CH_STAT_SKIP (32 + channel) 1) ∧
        (OnlyRegs s t [(Reg.SNS_CH_STAT_SKIP.addr (32 + channel) 0)]) ∧
        (t = { s with regs := t.regs, ctx := t.ctx })) ∧
  (∀ (s : State) (channel at16 : Nat),
      (8 ≤ channel ∨ s.channelOn (32 + channel) = false ∨ s.isEvent (s.adTrigger channel) at16 = false) →
      Completes (.adTrigger channel at16) s fun t =>
        (t = s)) ∧
  (∀ (s : State) (channel code : Nat) (stale : Bool),
      (bitOf s.sns.adBusy channel = false) →
      Completes (.adConversionDone channel code stale) s fun t =>
        (t = s)) ∧
  (∀ (s : State) (channel code : Nat),
      (s.canonical = true) →
      (channel < 8) →
      (bitOf s.sns.adBusy channel = true) →
      Completes (.adConversionDone channel code false) s fun t =>
        (SetsField s t Reg.SNS_CH_DATA (32 + channel) (unsign 32 (s.calChannel (32 + channel) (code % 65536 * 128 : Nat)).1)) ∧
        ((s.calChannel (32 + channel) (code % 65536 * 128 : Nat)).2 = true → SetsField s t Reg.SNS_CH_STAT_SAT (32 + channel) 1 ∧ SetsField s t Reg.SNS_FAULT_OTH_SAT 0 (putBit (s.getF Reg.SNS_FAULT_OTH_SAT) channel true) ∧ t.isF Reg.SNS_STATUS_FAULT = true) ∧
        (OnlyRegs s t [(Reg.SNS_CH_DATA.addr (32 + channel) 0), (Reg.SNS_CH_STAT.addr (32 + channel) 0), (Reg.SNS_FAULT_OTH.addr 0 0), (Reg.SNS_STATUS.addr 0 0), (Reg.SYS_IRQ_CAUSE.addr 1 0)]) ∧
        (t = { s with regs := t.regs, sns := t.sns, ctx := t.ctx })) ∧
  (∀ (s : State) (channel code : Nat) (v : Int) (f : Nat),
      (s.canonical = true) →
      (channel < 8) →
      (bitOf s.sns.adBusy channel = true) →
      (Sparse.at (0, 0) s.sns.adOut channel = (v, f)) →
      Completes (.adConversionDone channel code true) s fun t =>
        (SetsField s t Reg.SNS_CH_DATA (32 + channel) (unsign 32 v)) ∧
        (Counts s t Reg.CLK_XING_STALE 10 1) ∧
        ((Sparse.at (0, 0) t.sns.adOut channel) = (v, joinFlags f flagStale)) ∧
        ((s.calChannel (32 + channel) (code % 65536 * 128 : Nat)).2 = true → SetsField s t Reg.SNS_CH_STAT_SAT (32 + channel) 1 ∧ SetsField s t Reg.SNS_FAULT_OTH_SAT 0 (putBit (s.getF Reg.SNS_FAULT_OTH_SAT) channel true) ∧ t.isF Reg.SNS_STATUS_FAULT = true) ∧
        (OnlyRegs s t [(Reg.CLK_XING_STALE.addr 10 0), (Reg.SNS_CH_DATA.addr (32 + channel) 0), (Reg.SNS_CH_STAT.addr (32 + channel) 0), (Reg.SNS_FAULT_OTH.addr 0 0), (Reg.SNS_STATUS.addr 0 0), (Reg.SYS_IRQ_CAUSE.addr 1 0)]) ∧
        (t = { s with regs := t.regs, sns := t.sns, ctx := t.ctx }))

/-- For a filter tile on any input that runs on a clocked input, an event of its trigger with a full window, 500 ns or more after the last kept
event, publishes in SNS_FT_OUT the sample of the newest window: the sinc mean, calibrated on a DS input, or the FIR stage over it where that
is enabled and due, with NOTCH where the window met a notch, SAT where a value saturated, and the flags of the samples in it. While the
channel has STUCK or CLK_LOSS it publishes the last valid value with INVALID; after a failed crossing the last sample with STALE, and
CLK_XING_STALE of the channel's domain counts. An event less than 500 ns after the last on a primed tile is dropped and sets SKIP. A window
or FIR stage not yet full, or not due, publishes nothing. An instant that is no event, a tile that does not run and a FREQ that the module
does not know change nothing. The first bits after a lost clock start the domain before the event is judged. The limit comparator on a full
window sets its signals by comparing the order-2 mean, calibrated on a DS input, with CMP_HI and CMP_LO; a window not yet full only takes
the sample. Nothing else changes but the samples that tiles and capture rings hold. -/
def Obligations.FilterTileSamples : Prop :=
  (∀ (s : State) (tile at16 edge span : Nat) (bits : List Bool) (stale : Bool),
      (s.canonical = true) →
      (s.ftKeeps tile at16 bits = true) →
      (s.ftDueNow tile = true) →
      (s.ftBad tile = false) →
      (s.ftDs tile = true → stale = false) →
      Completes (.filterTrigger tile at16 bits edge span stale) s fun t =>
        (ShowsSample s t tile (s.ftSample tile bits (s.ftNotch tile at16 edge span))) ∧
        (OnlyRegs s t [(Reg.SNS_FT_OUT.addr tile 0), (Reg.SNS_FT_STAT.addr tile 0), (Reg.SNS_CH_STAT.addr (s.effF Reg.SNS_FT_CFG_INPUT tile) 0)]) ∧
        (t = { s with regs := t.regs, sns := t.sns, ctx := t.ctx })) ∧
  (∀ (s : State) (tile at16 edge span : Nat) (bits : List Bool) (stale : Bool),
      (s.canonical = true) →
      (s.ftKeeps tile at16 bits = true) →
      (s.ftDueNow tile = true) →
      (s.ftBad tile = true) →
      Completes (.filterTrigger tile at16 bits edge span stale) s fun t =>
        (ShowsSample s t tile (((s.ft tile).valid.getD (0, 0)).1, joinFlags ((s.ft tile).valid.getD (0, 0)).2 (if stale then 3 else 1))) ∧
        (stale = true → Counts s t Reg.CLK_XING_STALE (2 + s.effF Reg.SNS_FT_CFG_INPUT tile / 4) 1) ∧
        (OnlyRegs s t [(Reg.SNS_FT_OUT.addr tile 0), (Reg.SNS_FT_STAT.addr tile 0), (Reg.SNS_CH_STAT.addr (s.effF Reg.SNS_FT_CFG_INPUT tile) 0), (Reg.CLK_XING_STALE.addr (2 + s.effF Reg.SNS_FT_CFG_INPUT tile / 4) 0)]) ∧
        (t = { s with regs := t.regs, sns := t.sns, ctx := t.ctx })) ∧
  (∀ (s : State) (tile at16 edge span : Nat) (bits : List Bool),
      (s.canonical = true) →
      (s.ftKeeps tile at16 bits = true) →
      (s.ftDueNow tile = true) →
      (s.ftBad tile = false) →
      (s.ftDs tile = true) →
      Completes (.filterTrigger tile at16 bits edge span true) s fun t =>
        (ShowsSample s t tile (((s.ft tile).out.getD (0, 0)).1, joinFlags ((s.ft tile).out.getD (0, 0)).2 flagStale)) ∧
        (Counts s t Reg.CLK_XING_STALE (2 + s.effF Reg.SNS_FT_CFG_INPUT tile / 4) 1) ∧
        (OnlyRegs s t [(Reg.SNS_FT_OUT.addr tile 0), (Reg.SNS_FT_STAT.addr tile 0), (Reg.SNS_CH_STAT.addr (s.effF Reg.SNS_FT_CFG_INPUT tile) 0), (Reg.CLK_XING_STALE.addr (2 + s.effF Reg.SNS_FT_CFG_INPUT tile / 4) 0)]) ∧
        (t = { s with regs := t.regs, sns := t.sns, ctx := t.ctx })) ∧
  (∀ (s : State) (tile at16 edge span : Nat) (bits : List Bool) (stale : Bool),
      (s.canonical = true) →
      (s.ftKeeps tile at16 bits = true) →
      (s.ftDueNow tile = false) →
      Completes (.filterTrigger tile at16 bits edge span stale) s fun t =>
        (t.rd (Reg.SNS_FT_OUT.addr tile 0) = s.rd (Reg.SNS_FT_OUT.addr tile 0)) ∧
        (t.sns = { s.sns with ft := t.sns.ft }) ∧
        ((t.ft tile).count = (s.ft tile).count + 1) ∧
        ((t.ft tile).last = some at16) ∧
        ((t.ft tile).fir = (s.sincSample tile bits (s.ftNotch tile at16 edge span) :: (s.ft tile).fir).take (s.ftTaps tile)) ∧
        (OnlyRegs s t [(Reg.SNS_FT_STAT.addr tile 0), (Reg.SNS_CH_STAT.addr (s.effF Reg.SNS_FT_CFG_INPUT tile) 0)]) ∧
        (t = { s with regs := t.regs, sns := t.sns })) ∧
  (∀ (s : State) (tile at16 edge span : Nat) (bits : List Bool) (stale : Bool) (k : Nat),
      (s.canonical = true) →
      (tile < 48) →
      (s.ftRuns tile = true) →
      (s.ftClocked tile = true) →
      (s.isEvent (s.ftTrigger tile) at16 = true) →
      (s.ftWindow tile ≤ (s.ftHist tile bits).length) →
      (s.isE Reg.SNS_FT_CFG_FIR_EN tile = true → s.ftTaps tile ≤ (s.ft tile).fir.length + 1) →
      ((s.ft tile).last = some k) →
      (at16 < k + 8000) →
      Completes (.filterTrigger tile at16 bits edge span stale) s fun t =>
        (SetsField s t Reg.SNS_FT_STAT_SKIP tile 1) ∧
        ((t.ft tile) = { s.ft tile with hist := s.ftHist tile bits }) ∧
        (OnlyRegs s t [(Reg.SNS_FT_STAT.addr tile 0)]) ∧
        (t = { s with regs := t.regs, sns := t.sns, ctx := t.ctx })) ∧
  (∀ (s : State) (tile at16 edge span : Nat) (bits : List Bool) (stale : Bool),
      (s.ftRuns tile = true) →
      (s.ftClocked tile = true) →
      (s.isEvent (s.ftTrigger tile) at16 = true) →
      ((s.ftHist tile bits).length < s.ftWindow tile) →
      Completes (.filterTrigger tile at16 bits edge span stale) s fun t =>
        (t = s.setFt tile { s.ft tile with hist := s.ftHist tile bits }) ∧
        (t = { s with sns := t.sns })) ∧
  (∀ (s : State) (tile at16 edge span : Nat) (bits : List Bool) (stale : Bool),
      (s.ftRuns tile = false ∨ s.isEvent (s.ftTrigger tile) at16 = false ∨ (s.ftDs tile = true ∧ s.groupFreqOk (s.effF Reg.SNS_FT_CFG_INPUT tile / 4) = false)) →
      Completes (.filterTrigger tile at16 bits edge span stale) s fun t =>
        (t = s)) ∧
  (∀ (s : State) (tile at16 edge span : Nat) (bits : List Bool) (stale : Bool),
      (s.ftRuns tile = true) →
      (s.ftDs tile = true) →
      (s.groupFreqOk (s.effF Reg.SNS_FT_CFG_INPUT tile / 4) = true) →
      (bits ≠ []) →
      (s.isEvent (s.ftTrigger tile) at16 = true) →
      Completes (.filterTrigger tile at16 bits edge span stale) s fun t =>
        (exec (.filterTrigger tile at16 bits edge span stale) (s.edgeArrives (s.effF Reg.SNS_FT_CFG_INPUT tile / 4)) = .next t) ∧
        (bitOf t.sns.noClock (s.effF Reg.SNS_FT_CFG_INPUT tile / 4) = false)) ∧
  (∀ (s : State) (tile : Nat) (x : Int),
      (s.ftRuns tile = true) →
      (s.ftClocked tile = true) →
      (s.isE Reg.SNS_FT_CMP_CFG_CMP_EN tile = true) →
      (s.cmpWindow tile ≤ (s.ft tile).cmp.length + 1) →
      Completes (.limitComparator tile x) s fun t =>
        (t = s.setFt tile { s.ft tile with cmp := s.cmpHist tile x, high := decide (s.effS Reg.SNS_FT_CMP_HI tile < s.cmpMean tile x), low := decide (s.cmpMean tile x < s.effS Reg.SNS_FT_CMP_LO tile) }) ∧
        (t = { s with sns := t.sns })) ∧
  (∀ (s : State) (tile : Nat) (x : Int),
      (s.ftRuns tile = true) →
      (s.ftClocked tile = true) →
      (s.isE Reg.SNS_FT_CMP_CFG_CMP_EN tile = true) →
      ((s.ft tile).cmp.length + 1 < s.cmpWindow tile) →
      Completes (.limitComparator tile x) s fun t =>
        (t = s.setFt tile { s.ft tile with cmp := s.cmpIn tile x :: (s.ft tile).cmp }) ∧
        (t = { s with sns := t.sns })) ∧
  (∀ (s : State) (tile : Nat) (x : Int),
      (s.ftRuns tile = false ∨ s.isE Reg.SNS_FT_CMP_CFG_CMP_EN tile = false) →
      Completes (.limitComparator tile x) s fun t =>
        (t = s))

/-- A block of 128 clocks of CC0 or CC1, while it runs, with the settings latched for it: the accumulator takes the floor of (calibrated sum ×
COND + remainder) ÷ 16,384,000,000, wrapping at 72 bits, and the remainder is carried; SNS_CC_CUR is calibrated sum × COND ÷ 2^32 to nearest
even, SNS_CH_DATA the calibrated sum, ACC0 the accumulator's low word. A sum beyond ±100 mV sets OVR and its fault bit, a calibrated sum
that saturated sets SAT, an accumulator that wrapped sets WRAP. The settings in force now are latched for the next block. The block that
contains T_s, once T_s has passed, puts its current into SNS_PACK_I0 or SNS_PACK_I1 with its OVR flag; any other leaves those. A read of
ACC0 on a path answers the low word and latches the other two for that path alone, where the access is carried out at once. A channel that
does not run counts nothing. -/
def Obligations.CoulombCounters : Prop :=
  (∀ (s : State) (channel now : Nat) (sum : Int),
      (s.canonical = true) →
      (channel < 2) →
      (s.runs (12 + channel) = true) →
      Completes (.ccBlock channel sum now) s fun t =>
        (t.sns.ccAcc = Sparse.upd 0 s.sns.ccAcc channel (s.ccNext channel sum)) ∧
        (t.sns.ccRem = Sparse.upd 0 s.sns.ccRem channel (s.ccCharge channel sum % 16384000000).toNat) ∧
        (t.sns.ccCal = Sparse.insert s.sns.ccCal channel (s.ccSettings channel)) ∧
        (t.sns.packWait = if s.ccPacks channel now = true then putBit s.sns.packWait channel false else s.sns.packWait) ∧
        (SetsField s t Reg.SNS_CC_CUR (40 + channel) (unsign 32 (s.ccCurrent channel sum))) ∧
        (SetsField s t Reg.SNS_CH_DATA (40 + channel) (unsign 32 (s.ccCalibrated channel sum).1)) ∧
        (SetsField s t Reg.SNS_CC_ACC0 (40 + channel) (t.ccWord channel 0)) ∧
        ((100 < sum ∨ sum < -100) → t.isF Reg.SNS_CH_STAT_OVR (40 + channel) = true ∧ SetsField s t Reg.SNS_FAULT_OTH_OVR 0 (putBit (s.getF Reg.SNS_FAULT_OTH_OVR) channel true)) ∧
        ((s.ccCalibrated channel sum).2 = true → t.isF Reg.SNS_CH_STAT_SAT (40 + channel) = true) ∧
        (s.ccNext channel sum ≠ Sparse.at 0 s.sns.ccAcc channel + s.ccCharge channel sum / 16384000000 → t.isF Reg.SNS_CH_STAT_WRAP (40 + channel) = true) ∧
        (s.ccPacks channel now = true → SetsField s t (if channel = 0 then Reg.SNS_PACK_I0 else Reg.SNS_PACK_I1) 0 (unsign 32 (s.ccCurrent channel sum)) ∧ SetsField s t (if channel = 0 then Reg.SNS_PACK_FLAGS_CC0_OVR else Reg.SNS_PACK_FLAGS_CC1_OVR) 0 (ofBool (decide (100 < sum ∨ sum < -100)))) ∧
        (s.ccPacks channel now = false → t.rd (Reg.SNS_PACK_I0.addr 0 0) = s.rd (Reg.SNS_PACK_I0.addr 0 0) ∧ t.rd (Reg.SNS_PACK_I1.addr 0 0) = s.rd (Reg.SNS_PACK_I1.addr 0 0) ∧ t.rd (Reg.SNS_PACK_FLAGS_CC0_OVR.addr 0 0) = s.rd (Reg.SNS_PACK_FLAGS_CC0_OVR.addr 0 0)) ∧
        (OnlyRegs s t [(Reg.SNS_CC_CUR.addr (40 + channel) 0), (Reg.SNS_CH_DATA.addr (40 + channel) 0), (Reg.SNS_CC_ACC0.addr (40 + channel) 0), (Reg.SNS_CH_STAT.addr (40 + channel) 0), (Reg.SNS_FAULT_OTH.addr 0 0), (Reg.SNS_STATUS.addr 0 0), (Reg.SYS_IRQ_CAUSE.addr 1 0), (if channel = 0 then Reg.SNS_PACK_I0 else Reg.SNS_PACK_I1).addr 0 0, (Reg.SNS_PACK_FLAGS_CC0_OVR.addr 0 0)]) ∧
        (t = { s with regs := t.regs, sns := t.sns, ctx := t.ctx })) ∧
  (∀ (s : State) (channel now : Nat) (sum : Int),
      (2 ≤ channel ∨ s.runs (12 + channel) = false) →
      Completes (.ccBlock channel sum now) s fun t =>
        (t = s)) ∧
  (∀ (s : State) (path channel : Nat),
      (channel < 2) →
      (s.carries path (Reg.SNS_CC_ACC0.addr (40 + channel) 0) = true) →
      Completes (.ccAccRead path channel) s fun t =>
        (t.outbox = s.outbox ++ [Out.mk .accessDone [path, Reg.SNS_CC_ACC0.addr (40 + channel) 0, s.ccWord channel 0]]) ∧
        (t.pathRegs = ((s.wrPath path (Reg.SNS_CC_ACC1.addr (40 + channel) 0) (BitVec.ofNat 32 (s.ccWord channel 1))).wrPath path (Reg.SNS_CC_ACC2.addr (40 + channel) 0) (BitVec.ofNat 32 (s.ccWord channel 2))).pathRegs) ∧
        (t = { s with pathRegs := t.pathRegs, outbox := t.outbox }))

/-- For every state in canonical form, each CC channel and every block sum: the block completes, and SNS_CC_CUR of that channel then reads, as a
32-bit signed value (exactly, for every COND of 32 bits), y × COND ÷ 2^32 rounded to nearest with ties to even, where y is the calibrated
sum of the block and COND the setting latched for it; twice the distance from the exact quotient is at most one unit, and a tie gives an
even value. -/
def Obligations.TheCurrentOfABlock : Prop :=
  (∀ (s : State) (channel now : Nat) (sum : Int),
      (s.canonical = true) →
      (channel < 2) →
      (s.runs (12 + channel) = true) →
      Completes (.ccBlock channel sum now) s fun t =>
        (t.getF Reg.SNS_CC_CUR (40 + channel) = unsign 32 (s.ccCurrent channel sum)) ∧
        (s.ccWordOf channel 3 < 2 ^ 32 → signed 32 (t.getF Reg.SNS_CC_CUR (40 + channel)) = s.ccCurrent channel sum) ∧
        (2 * ((s.ccCalibrated channel sum).1 * (s.ccWordOf channel 3 : Int) - s.ccCurrent channel sum * 2 ^ 32).natAbs ≤ 2 ^ 32) ∧
        (2 * ((s.ccCalibrated channel sum).1 * (s.ccWordOf channel 3 : Int) - s.ccCurrent channel sum * 2 ^ 32).natAbs = 2 ^ 32 → s.ccCurrent channel sum % 2 = 0))

/-- A loop tile in plain working (running, reference from the mesh, no load, no bank change, value output) whose inputs are all valid computes
one sample: LT_OUT takes its output with INVALID clear, LT_ERR its error, the state registers the next states, MISS_COUNT zero, and the
sticky bits of LT_STAT only gain those the sample sets. A sample in which a result that it forms fails the residue check instead sets
RES_ERR, counts it and enters loop fault: LOOP_FAULT, its bit of LT_FAULT, INVALID, and the module's control-fault code 0x01 where it had
none; LT_OUT.U, LT_ERR and the states stay. A corrected word of the tile's SRAM is counted and changes nothing else of the sample; an
uncorrectable one is a loop fault. A MEAS source without a new sample gives none. A module that follows its twin keeps the sample and
changes nothing else. -/
def Obligations.LoopTileSample : Prop :=
  (∀ (s : State) (tile at16 place : Nat) (stamp : Nat × Nat),
      (s.canonical = true) →
      (tile < 96) →
      (s.tilePlain tile = true) →
      (s.tileInsGood tile = true) →
      (s.measStamp tile = some stamp) →
      (s.unsettled tile stamp.2 = true) →
      (at16 ≤ s.deadline tile stamp.2) →
      Completes (.loopTileSample tile at16 place 0 0) s fun t =>
        (SetsFields s t (Reg.LT_OUT.addr tile 0) [(Reg.LT_OUT_U, unsign 24 (s.tileResult tile).u), (Reg.LT_OUT_INVALID, 0)]) ∧
        (SetsField s t Reg.LT_ERR tile (unsign 32 (s.tileResult tile).e)) ∧
        (t.comp tile = (s.tileResult tile).comp) ∧
        (SetsField s t Reg.LT_MISS_MISS_COUNT tile 0) ∧
        ((s.tileResult tile).satOut = true → t.isF Reg.LT_STAT_SAT_OUT tile = true) ∧
        ((s.tileResult tile).intClamp = true → t.isF Reg.LT_STAT_INT_CLAMP tile = true) ∧
        ((s.tileResult tile).intHold = true → t.isF Reg.LT_STAT_INT_HOLD tile = true) ∧
        ((s.tileResult tile).divLow = true → t.isF Reg.LT_STAT_DIV_LOW tile = true) ∧
        ((t.tile tile).stamp = some stamp) ∧
        ((t.tile tile).settled = some stamp.2) ∧
        (OnlyRegs s t ([(Reg.LT_OUT.addr tile 0), (Reg.LT_ERR.addr tile 0), (Reg.LT_MISS.addr tile 0), (Reg.LT_STAT.addr tile 0)] ++ compRegs tile)) ∧
        (t = { s with regs := t.regs, lt := t.lt, ctx := t.ctx })) ∧
  (∀ (s : State) (tile at16 place : Nat) (stamp : Nat × Nat) (upset : Int),
      (s.canonical = true) →
      (tile < 96) →
      (s.keepsSamples = false) →
      ((s.tile tile).run = true) →
      (s.isF Reg.LT_STAT_LOOP_FAULT tile = false) →
      (s.parked tile = false) →
      (s.measStamp tile = some stamp) →
      (s.unsettled tile stamp.2 = true) →
      Completes (.loopTileSample tile at16 place upset 1) s fun t =>
        (exec (.loopTileSample tile at16 place upset 0) (s.bump Reg.CTX_SRAM_CE) = .next t)) ∧
  (∀ (s : State) (tile at16 place : Nat) (stamp : Nat × Nat) (upset : Int) (sram : Nat),
      (s.canonical = true) →
      (tile < 96) →
      (s.tilePlain tile = true) →
      (2 ≤ sram) →
      (s.measStamp tile = some stamp) →
      (s.unsettled tile stamp.2 = true) →
      (s.twn.preLeft = none) →
      (s.getF Reg.SNAP_STATUS_STATE ≠ 1) →
      Completes (.loopTileSample tile at16 place upset sram) s fun t =>
        (SetsField s t Reg.LT_STAT_LOOP_FAULT tile 1) ∧
        (SetsField s t Reg.LT_FAULT (tile / 32) (putBit (s.getF Reg.LT_FAULT (tile / 32)) (tile % 32) true)) ∧
        (SetsField s t Reg.LT_OUT_INVALID tile 1) ∧
        (Raises s t 1 [3]) ∧
        (t.twn = { s.twn with code := if s.twn.code = 0 then 1 else s.twn.code, hSram := s.twn.hSram + 1 }) ∧
        (t.events = s.events ++ [LogEvent.mk 0x0702 tile [0, tile]]) ∧
        (t.lt = { s.lt with faults := s.lt.faults ++ if s.isF Reg.TWN_STATUS_LOCK = true then [(tile, at16)] else [] }) ∧
        (OnlyRegs s t [(Reg.LT_STAT.addr tile 0), (Reg.LT_FAULT.addr (tile / 32) 0), (Reg.LT_OUT.addr tile 0), (Reg.SYS_IRQ_CAUSE.addr 1 0)]) ∧
        (t = { s with regs := t.regs, lt := t.lt, twn := t.twn, events := t.events })) ∧
  (∀ (s : State) (tile at16 place : Nat) (stamp : Nat × Nat) (upset : Int),
      (s.canonical = true) →
      (tile < 96) →
      (s.tilePlain tile = true) →
      (s.tileInsGood tile = true) →
      (upset % 255 ≠ 0) →
      ((s.tileCfg tile (s.bank tile)).forms false place = true) →
      (s.measStamp tile = some stamp) →
      (s.unsettled tile stamp.2 = true) →
      (at16 ≤ s.deadline tile stamp.2) →
      (s.twn.preLeft = none) →
      (s.getF Reg.SNAP_STATUS_STATE ≠ 1) →
      Completes (.loopTileSample tile at16 place upset 0) s fun t =>
        (SetsFields s t (Reg.LT_STAT.addr tile 0) [(Reg.LT_STAT_RES_ERR, 1), (Reg.LT_STAT_LOOP_FAULT, 1)]) ∧
        (Counts s t Reg.LT_RES_CNT tile 1) ∧
        (SetsField s t Reg.LT_FAULT (tile / 32) (putBit (s.getF Reg.LT_FAULT (tile / 32)) (tile % 32) true)) ∧
        (SetsField s t Reg.LT_OUT_INVALID tile 1) ∧
        (Raises s t 1 [3]) ∧
        (t.twn = { s.twn with code := if s.twn.code = 0 then 1 else s.twn.code }) ∧
        (t.events = s.events ++ [LogEvent.mk 0x0301 tile [tile, ofBool (s.bank tile), min (s.getF Reg.LT_RES_CNT tile + 1) (2 ^ 32 - 1)]]) ∧
        (t.lt.faults = s.lt.faults ++ if s.isF Reg.TWN_STATUS_LOCK = true then [(tile, at16)] else []) ∧
        (OnlyRegs s t [(Reg.LT_STAT.addr tile 0), (Reg.LT_RES_CNT.addr tile 0), (Reg.LT_FAULT.addr (tile / 32) 0), (Reg.LT_OUT.addr tile 0), (Reg.SYS_IRQ_CAUSE.addr 1 0)]) ∧
        (t = { s with regs := t.regs, lt := t.lt, twn := t.twn, events := t.events })) ∧
  (∀ (s : State) (tile at16 place sram : Nat) (stamp : Nat × Nat) (upset : Int),
      (s.keepsSamples = true) →
      (s.measStamp tile = some stamp) →
      (s.unsettled tile stamp.2 = true) →
      Completes (.loopTileSample tile at16 place upset sram) s fun t =>
        (t.twn = { s.twn with samples := (s.twn.samples.filter fun (x : TileSample) => at16 < x.at16 + 640000) ++ [TileSample.mk tile at16 stamp place upset sram (s.tileIns tile)] }) ∧
        (t = { s with twn := t.twn })) ∧
  (∀ (s : State) (tile at16 place sram : Nat) (upset : Int),
      ((s.measStamp tile).all (fun (e : Nat × Nat) => !s.unsettled tile e.2) = true) →
      Completes (.loopTileSample tile at16 place upset sram) s fun t =>
        (t = s))

/-- A deadline miss of a running, unparked, unfaulted tile is a sample, promised by an event of the trigger behind its MEAS, that has not
completed by its deadline or is overrun by the next; it sets MISS, its bit of LT_MISS_SUM, and counts in MISS_COUNT and MISS_TOTAL; on a
tile that is not CRITICAL nothing else happens. A sample that completes late or has an INVALID input is a miss likewise, the latter with
INVALID_IN. A sample that completed in time or was missed before, one awaited from a filter tile restarted at B, and one of a tile that does
not run are none. On a CRITICAL tile whose MISS_COUNT reaches 4 the tile enters loop fault, is recorded with the cause, and the module's
control-fault code is 0x01 where it had none. RES_TEST arms one injection on a running tile, and journals the write where the lock is held. -/
def Obligations.DeadlineMissesAndResidueTest : Prop :=
  (∀ (s : State) (tile cause event at16 due : Nat),
      (s.canonical = true) →
      (tile < 96) →
      ((s.tile tile).run = true) →
      ((s.tile tile).waiting = false) →
      (s.parked tile = false) →
      (s.isF Reg.LT_STAT_LOOP_FAULT tile = false) →
      (s.isE Reg.LT_CTL_CRITICAL tile = false) →
      (s.awaitsRestart tile = false) →
      (s.promised 96 (tile / 24) (s.effF Reg.LT_SRC_A_MEAS tile) event = some due) →
      (s.late tile cause due at16 = true) →
      (s.unsettled tile due = true) →
      Completes (.deadlineMiss tile cause event at16) s fun t =>
        (SetsField s t Reg.LT_STAT_MISS tile 1) ∧
        (SetsField s t Reg.LT_MISS_SUM (tile / 32) (putBit (s.getF Reg.LT_MISS_SUM (tile / 32)) (tile % 32) true)) ∧
        (SetsFields s t (Reg.LT_MISS.addr tile 0) [(Reg.LT_MISS_MISS_COUNT, min (s.getF Reg.LT_MISS_MISS_COUNT tile + 1) 255), (Reg.LT_MISS_MISS_TOTAL, min (s.getF Reg.LT_MISS_MISS_TOTAL tile + 1) (2 ^ 24 - 1))]) ∧
        (t.lt = (s.setTile tile { s.tile tile with settled := some due }).lt) ∧
        (OnlyRegs s t [(Reg.LT_STAT.addr tile 0), (Reg.LT_MISS_SUM.addr (tile / 32) 0), (Reg.LT_MISS.addr tile 0)]) ∧
        (t = { s with regs := t.regs, lt := t.lt, ctx := t.ctx })) ∧
  (∀ (s : State) (tile cause event at16 due : Nat),
      (s.canonical = true) →
      (tile < 96) →
      ((s.tile tile).run = true) →
      ((s.tile tile).waiting = false) →
      (s.parked tile = false) →
      (s.isF Reg.LT_STAT_LOOP_FAULT tile = false) →
      (s.isE Reg.LT_CTL_CRITICAL tile = true) →
      (s.isE Reg.LT_CTL_OUT_MODE tile = false) →
      (3 ≤ s.getF Reg.LT_MISS_MISS_COUNT tile) →
      (s.twn.preLeft = none) →
      (s.getF Reg.SNAP_STATUS_STATE ≠ 1) →
      (s.awaitsRestart tile = false) →
      (s.promised 96 (tile / 24) (s.effF Reg.LT_SRC_A_MEAS tile) event = some due) →
      (s.late tile cause due at16 = true) →
      (s.unsettled tile due = true) →
      Completes (.deadlineMiss tile cause event at16) s fun t =>
        (SetsFields s t (Reg.LT_STAT.addr tile 0) [(Reg.LT_STAT_MISS, 1), (Reg.LT_STAT_LOOP_FAULT, 1)]) ∧
        (SetsField s t Reg.LT_FAULT (tile / 32) (putBit (s.getF Reg.LT_FAULT (tile / 32)) (tile % 32) true)) ∧
        (SetsField s t Reg.LT_OUT_INVALID tile 1) ∧
        (Raises s t 1 [3]) ∧
        (t.twn = { s.twn with code := if s.twn.code = 0 then 1 else s.twn.code }) ∧
        (t.events = s.events ++ [LogEvent.mk 0x0303 tile [tile, min (s.getF Reg.LT_MISS_MISS_TOTAL tile + 1) (2 ^ 24 - 1), cause]]) ∧
        (OnlyRegs s t [(Reg.LT_STAT.addr tile 0), (Reg.LT_MISS_SUM.addr (tile / 32) 0), (Reg.LT_MISS.addr tile 0), (Reg.LT_FAULT.addr (tile / 32) 0), (Reg.LT_OUT.addr tile 0), (Reg.SYS_IRQ_CAUSE.addr 1 0)]) ∧
        (t = { s with regs := t.regs, lt := t.lt, twn := t.twn, events := t.events, ctx := t.ctx })) ∧
  (∀ (s : State) (tile cause event at16 : Nat),
      ((s.tile tile).run = false ∨ (s.tile tile).waiting = true ∨ s.parked tile = true ∨ s.isF Reg.LT_STAT_LOOP_FAULT tile = true ∨ s.awaitsRestart tile = true ∨ (s.promised 96 (tile / 24) (s.effF Reg.LT_SRC_A_MEAS tile) event).all (fun (d : Nat) => !(s.late tile cause d at16 && s.unsettled tile d)) = true) →
      Completes (.deadlineMiss tile cause event at16) s fun t =>
        (t = s)) ∧
  (∀ (s : State) (tile at16 place : Nat) (stamp : Nat × Nat) (upset : Int),
      (s.canonical = true) →
      (tile < 96) →
      (s.tilePlain tile = true) →
      (s.tileInsGood tile = true) →
      (s.isE Reg.LT_CTL_CRITICAL tile = false) →
      (s.measStamp tile = some stamp) →
      (s.unsettled tile stamp.2 = true) →
      (s.deadline tile stamp.2 < at16) →
      Completes (.loopTileSample tile at16 place upset 0) s fun t =>
        (SetsField s t Reg.LT_STAT_MISS tile 1) ∧
        (SetsField s t Reg.LT_MISS_SUM (tile / 32) (putBit (s.getF Reg.LT_MISS_SUM (tile / 32)) (tile % 32) true)) ∧
        (SetsFields s t (Reg.LT_MISS.addr tile 0) [(Reg.LT_MISS_MISS_COUNT, min (s.getF Reg.LT_MISS_MISS_COUNT tile + 1) 255), (Reg.LT_MISS_MISS_TOTAL, min (s.getF Reg.LT_MISS_MISS_TOTAL tile + 1) (2 ^ 24 - 1))]) ∧
        (OnlyRegs s t [(Reg.LT_STAT.addr tile 0), (Reg.LT_MISS_SUM.addr (tile / 32) 0), (Reg.LT_MISS.addr tile 0)]) ∧
        (t = { s with regs := t.regs, lt := t.lt, ctx := t.ctx })) ∧
  (∀ (s : State) (tile at16 place : Nat) (stamp : Nat × Nat) (upset : Int),
      (s.canonical = true) →
      (tile < 96) →
      (s.tilePlain tile = true) →
      (bitOf (s.tileIn tile 0).2 0 = true ∨ bitOf (s.tileIn tile 1).2 0 = true ∨ bitOf (s.tileIn tile 4).2 0 = true) →
      (s.isE Reg.LT_CTL_CRITICAL tile = false) →
      (s.twn.preLeft = none) →
      (s.measStamp tile = some stamp) →
      (s.unsettled tile stamp.2 = true) →
      Completes (.loopTileSample tile at16 place upset 0) s fun t =>
        (SetsFields s t (Reg.LT_STAT.addr tile 0) [(Reg.LT_STAT_INVALID_IN, 1), (Reg.LT_STAT_MISS, 1)]) ∧
        (SetsField s t Reg.LT_MISS_SUM (tile / 32) (putBit (s.getF Reg.LT_MISS_SUM (tile / 32)) (tile % 32) true)) ∧
        (SetsFields s t (Reg.LT_MISS.addr tile 0) [(Reg.LT_MISS_MISS_COUNT, min (s.getF Reg.LT_MISS_MISS_COUNT tile + 1) 255), (Reg.LT_MISS_MISS_TOTAL, min (s.getF Reg.LT_MISS_MISS_TOTAL tile + 1) (2 ^ 24 - 1))]) ∧
        (OnlyRegs s t [(Reg.LT_STAT.addr tile 0), (Reg.LT_MISS_SUM.addr (tile / 32) 0), (Reg.LT_MISS.addr tile 0)]) ∧
        (t = { s with regs := t.regs, lt := t.lt, ctx := t.ctx })) ∧
  (∀ (s : State) (tile : Nat),
      (tile < 96) →
      ((s.tile tile).run = true) →
      Completes (.resTestArm tile) s fun t =>
        (t.lt = (s.setTile tile { s.tile tile with armed := true }).lt) ∧
        (Journals s t ((Reg.LT_RES_TEST.addr 0 0)) (2 ^ 31 + tile)) ∧
        (t = { s with lt := t.lt, twn := t.twn }))

/-- An enabled logic tile whose inputs are allowed samples them: where a transition of its state holds, the first of them gives its STATE, CNT
is zero, SRC_ERR clear and the dwell begins again; where the output level stays, no other register changes. Where none holds only CNT and
SRC_ERR change, to the dwell count and to zero. A transition command first takes the sensed levels into every contact that the module does
not drive. START by the owner of an enabled timer sets RUNNING and clears EXPIRED; STOP clears both; a party that does not own the timer
sets CONFLICT alone. A oneshot timer that reaches zero, LOAD units of UNIT after its start, clears RUNNING and sets EXPIRED; a periodic one
reloads and, with no logic tile to see it, leaves EXPIRED at 0; before that instant nothing changes. T_s stores its frame in SNS_SI_LAST and
the deferral flag, makes both coulomb counters latch the block that holds it, and strobes every contact that carries SYNC_OUT. A loop fault
1 ms old that no switch-over took away, also of a tile disabled since, trips, and records with cause 3, the groups of the lanes its tile
reaches. -/
def Obligations.LogicTilesTimersAndTheSampleInstant : Prop :=
  (∀ (s : State) (tile at16 j : Nat),
      (s.canonical = true) →
      (tile < 32) →
      (s.isE Reg.LT_LG_CTL_ENABLE tile = true) →
      ((s.logicIds tile).all (s.inputAllowed (tile / 8)) = true) →
      (s.fires tile at16 = some j) →
      (bitOf (s.effF Reg.LT_LG_CTL_OUT_MAP tile) (s.effF Reg.LT_LG_TR_TO tile j) = s.logicOut tile) →
      Completes (.logicDwellReached tile at16) s fun t =>
        (SetsFields s t (Reg.LT_LG_STAT.addr tile 0) [(Reg.LT_LG_STAT_SRC_ERR, 0), (Reg.LT_LG_STAT_STATE, s.effF Reg.LT_LG_TR_TO tile j), (Reg.LT_LG_STAT_CNT, 0)]) ∧
        (t.lt = { s.lt with lgSince := Sparse.upd 0 s.lt.lgSince tile at16 }) ∧
        (OnlyRegs s t [(Reg.LT_LG_STAT.addr tile 0)]) ∧
        (t = { s with regs := t.regs, lt := t.lt })) ∧
  (∀ (s : State) (tile at16 : Nat),
      (s.canonical = true) →
      (tile < 32) →
      (s.isE Reg.LT_LG_CTL_ENABLE tile = true) →
      ((s.logicIds tile).all (s.inputAllowed (tile / 8)) = true) →
      (s.fires tile at16 = none) →
      Completes (.logicDwellReached tile at16) s fun t =>
        (SetsFields s t (Reg.LT_LG_STAT.addr tile 0) [(Reg.LT_LG_STAT_SRC_ERR, 0), (Reg.LT_LG_STAT_CNT, s.dwellCount tile at16)]) ∧
        (OnlyRegs s t [(Reg.LT_LG_STAT.addr tile 0)]) ∧
        (t = { s with regs := t.regs })) ∧
  (∀ (s : State) (tile at16 pins j : Nat),
      (s.canonical = true) →
      (tile < 32) →
      (s.isE Reg.LT_LG_CTL_ENABLE tile = true) →
      (((s.sensePins pins).logicIds tile).all ((s.sensePins pins).inputAllowed (tile / 8)) = true) →
      ((s.sensePins pins).fires tile at16 = some j) →
      (bitOf (s.effF Reg.LT_LG_CTL_OUT_MAP tile) (s.effF Reg.LT_LG_TR_TO tile j) = s.logicOut tile) →
      Completes (.logicTileTransition tile at16 pins) s fun t =>
        (SetsFields s t (Reg.LT_LG_STAT.addr tile 0) [(Reg.LT_LG_STAT_SRC_ERR, 0), (Reg.LT_LG_STAT_STATE, s.effF Reg.LT_LG_TR_TO tile j), (Reg.LT_LG_STAT_CNT, 0)]) ∧
        (t.lt = { s.lt with lgSince := Sparse.upd 0 s.lt.lgSince tile at16 }) ∧
        (∀ i ∈ List.range 32, t.getF Reg.SYS_PIN_LEVEL i = if s.pinDrives i then s.getF Reg.SYS_PIN_LEVEL i else ofBool (bitOf pins i)) ∧
        (∀ a, (a < 0x1000 ∨ 0x1080 ≤ a) → a ≠ (Reg.LT_LG_STAT.addr tile 0) → t.rd a = s.rd a) ∧
        (t = { s with regs := t.regs, lt := t.lt })) ∧
  (∀ (s : State) (path timer now : Nat),
      (s.canonical = true) →
      (timer < 16) →
      (s.owner (0x170 + timer) = pathOwner path) →
      (s.owned (0x170 + timer) = true) →
      (s.isE Reg.LT_TMR_CFG_EN timer = true) →
      Completes (.timerStart path timer now) s fun t =>
        (t.lt = { s.lt with tmrDue := Sparse.insert s.lt.tmrDue timer (16 * now + s.timerSpan timer) }) ∧
        (SetsFields s t (Reg.LT_TMR_STAT.addr timer 0) [(Reg.LT_TMR_STAT_RUNNING, 1), (Reg.LT_TMR_STAT_EXPIRED, 0)]) ∧
        (Journals s t ((Reg.LT_TMR_CMD.addr timer 0)) 1) ∧
        (OnlyRegs s t [(Reg.LT_TMR_STAT.addr timer 0)]) ∧
        (t = { s with regs := t.regs, lt := t.lt, twn := t.twn })) ∧
  (∀ (s : State) (path timer now : Nat),
      (timer < 16) →
      (s.owner (0x170 + timer) = pathOwner path) →
      (s.owned (0x170 + timer) = false ∨ s.isE Reg.LT_TMR_CFG_EN timer = false) →
      Completes (.timerStart path timer now) s fun t =>
        (Journals s t ((Reg.LT_TMR_CMD.addr timer 0)) 1) ∧
        (t = { s with twn := t.twn })) ∧
  (∀ (s : State) (path timer : Nat),
      (s.canonical = true) →
      (timer < 16) →
      (s.owner (0x170 + timer) = pathOwner path) →
      Completes (.timerStop path timer) s fun t =>
        (SetsFields s t (Reg.LT_TMR_STAT.addr timer 0) [(Reg.LT_TMR_STAT_RUNNING, 0), (Reg.LT_TMR_STAT_EXPIRED, 0)]) ∧
        (Journals s t ((Reg.LT_TMR_CMD.addr timer 0)) 2) ∧
        (t.lt = { s.lt with tmrDue := Sparse.erase s.lt.tmrDue timer }) ∧
        (OnlyRegs s t [(Reg.LT_TMR_STAT.addr timer 0)]) ∧
        (t = { s with regs := t.regs, lt := t.lt, twn := t.twn })) ∧
  (∀ (s : State) (path timer now : Nat),
      (s.canonical = true) →
      (timer < 16) →
      (¬ s.owner (0x170 + timer) = pathOwner path) →
      Completes (.timerStart path timer now) s fun t =>
        (SetsField s t Reg.LT_TMR_STAT_CONFLICT timer 1) ∧
        (OnlyRegs s t [(Reg.LT_TMR_STAT.addr timer 0)]) ∧
        (t = { s with regs := t.regs })) ∧
  (∀ (s : State) (path timer : Nat),
      (s.canonical = true) →
      (timer < 16) →
      (¬ s.owner (0x170 + timer) = pathOwner path) →
      Completes (.timerStop path timer) s fun t =>
        (SetsField s t Reg.LT_TMR_STAT_CONFLICT timer 1) ∧
        (OnlyRegs s t [(Reg.LT_TMR_STAT.addr timer 0)]) ∧
        (t = { s with regs := t.regs })) ∧
  (∀ (s : State) (timer at16 due : Nat),
      (s.canonical = true) →
      (timer < 16) →
      (s.isF Reg.LT_TMR_STAT_RUNNING timer = true) →
      (s.isE Reg.LT_TMR_CFG_MODE timer = false) →
      (Sparse.find s.lt.tmrDue timer = some due) →
      (due ≤ at16) →
      Completes (.timerExpire timer at16) s fun t =>
        (SetsFields s t (Reg.LT_TMR_STAT.addr timer 0) [(Reg.LT_TMR_STAT_RUNNING, 0), (Reg.LT_TMR_STAT_EXPIRED, 1)]) ∧
        (t.lt = { s.lt with tmrDue := Sparse.erase s.lt.tmrDue timer }) ∧
        (OnlyRegs s t [(Reg.LT_TMR_STAT.addr timer 0)]) ∧
        (t = { s with regs := t.regs, lt := t.lt })) ∧
  (∀ (s : State) (timer at16 due : Nat),
      (s.canonical = true) →
      (timer < 16) →
      (s.isF Reg.LT_TMR_STAT_RUNNING timer = true) →
      (s.isE Reg.LT_TMR_CFG_MODE timer = true) →
      (Sparse.find s.lt.tmrDue timer = some due) →
      (due ≤ at16) →
      ((List.range 32).all (fun l => !s.isE Reg.LT_LG_CTL_ENABLE l) = true) →
      Completes (.timerExpire timer at16) s fun t =>
        (SetsField s t Reg.LT_TMR_STAT_EXPIRED timer 0) ∧
        (t.lt = { s.lt with tmrDue := Sparse.insert s.lt.tmrDue timer (due + s.timerSpan timer) }) ∧
        (OnlyRegs s t [(Reg.LT_TMR_STAT.addr timer 0)]) ∧
        (t = { s with regs := t.regs, lt := t.lt })) ∧
  (∀ (s : State) (timer at16 : Nat),
      (s.isF Reg.LT_TMR_STAT_RUNNING timer = false ∨ (Sparse.find s.lt.tmrDue timer).all (fun (d : Nat) => decide (at16 < d)) = true) →
      Completes (.timerExpire timer at16) s fun t =>
        (t = s)) ∧
  (∀ (s : State) (ts : Nat),
      (s.canonical = true) →
      (s.sns.ts = some ts) →
      Completes (.packSampleInstant) s fun t =>
        (t.rd (Reg.SNS_SI_LAST_LO.addr 0 0) = BitVec.ofNat 32 (s.frameOf ts)) ∧
        (t.rd (Reg.SNS_SI_LAST_HI.addr 0 0) = BitVec.ofNat 32 (s.frameOf ts / 2 ^ 32)) ∧
        (SetsField s t Reg.SNS_PACK_FLAGS_NOTCH_DEFERRED 0 (ofBool s.sns.deferred)) ∧
        (t.sns = { s.sns with packWait := 3 }) ∧
        (t.outbox = s.outbox ++ ((List.range 4).filter fun i => decide (s.pinFunc i = 4) && s.pinDrives i).map fun i => Out.mk .syncOut [i, ts]) ∧
        (OnlyRegs s t [(Reg.SNS_SI_LAST_LO.addr 0 0), (Reg.SNS_SI_LAST_HI.addr 0 0), (Reg.SNS_PACK_FLAGS.addr 0 0)]) ∧
        (t = { s with regs := t.regs, sns := t.sns, outbox := t.outbox })) ∧
  (∀ (s : State) (tile at16 : Nat),
      (s.canonical = true) →
      (tile < 96) →
      (s.lt.faults.any (fun (e : Nat × Nat) => e.1 = tile && e.2 + 16000000 ≤ at16) = true) →
      (s.isF Reg.TWN_STATUS_LOCK = true) →
      Completes (.faultShutdown tile at16) s fun t =>
        (t.lt = { s.lt with faults := s.lt.faults.filter fun (e : Nat × Nat) => e.1 ≠ tile }) ∧
        (∀ g ∈ List.range 8, (s.shutLanes tile).any (fun n => decide (s.effF Reg.PWM_LANE_CFG_GROUP n = g)) = true → t.tripped g = true) ∧
        (t.events.take (s.events.length + 1) = s.events ++ [LogEvent.mk 0x0304 tile [tile, s.shutMask tile]]) ∧
        (OutsideLanes s t [(Reg.PWM_GRP_TRIP.addr 0 0), (Reg.PWM_STATUS.addr 0 0), (Reg.SYS_IRQ_CAUSE.addr 1 0)]) ∧
        (t = { s with regs := t.regs, lt := t.lt, pwm := t.pwm, snap := t.snap, events := t.events })) ∧
  (∀ (s : State) (tile at16 : Nat),
      (s.lt.faults.any (fun (e : Nat × Nat) => e.1 = tile && e.2 + 16000000 ≤ at16) = false ∨ s.isF Reg.TWN_STATUS_LOCK = false) →
      Completes (.faultShutdown tile at16) s fun t =>
        (t = s))

/-- A period start, after the last one, of a lane in plain running, driven by a tile: the last output handed over at least 4 ns (64 steps)
before it gives the raw on-time (output × period ÷ 2^23, nearest even), which LT_ONTIME of the tile shows; the lane's on-time is that value
held between DT_LH + MIN_PULSE and period − DT_HL − MIN_PULSE, which PWM_LANE_ONTIME shows and the pulse of the period carries with its dead
times; a value that was held back sets CLAMP and counts; an output handed over in the last 4 ns sets LATE. The period gives its events: its
start and the midpoint of its on-time. A residue mismatch in the duty mapping is a loop fault of the tile: the lane is HELD and its last raw
on-time serves, as it does without an output in time. An instant that is no period start of the lane, or not after the last, changes
nothing. No other register changes. -/
def Obligations.PwmPeriodStart : Prop :=
  (∀ (s : State) (lane at16 q k : Nat) (u : Int),
      (s.canonical = true) →
      (s.startsAt lane at16 = true) →
      (s.lanePlain lane = true) →
      (s.tileOf lane = some q) →
      (s.handedBy lane at16 = some (u, k)) →
      Completes (.pwmPeriodStart lane at16 0) s fun t =>
        (SetsField s t Reg.LT_ONTIME q (s.onTimeOf lane u)) ∧
        (SetsField s t Reg.PWM_LANE_ONTIME lane (s.clampOn lane (s.onTimeOf lane u))) ∧
        ((t.lane lane).pulse = some (Pulse.mk at16 (s.lane lane).per (s.clampOn lane (s.onTimeOf lane u)) (s.laneDt lane).1 (s.laneDt lane).2.1 (s.earlyRise lane at16) 0 0)) ∧
        ((t.lane lane).applied = (s.clampOn lane (s.onTimeOf lane u))) ∧
        ((t.lane lane).prev = (s.lane lane).pulse) ∧
        ((t.lane lane).last = some at16) ∧
        ((t.lane lane).events.head? = some (at16, at16 + (roundEven (s.clampOn lane (s.onTimeOf lane u)) 2).toNat)) ∧
        ((t.lane lane).on = s.onTimeOf lane u) ∧
        ((t.lane lane).handed = (s.lane lane).handed.filter fun (e : Int × Nat) => decide (at16 < e.2 + 64)) ∧
        (s.clampOn lane (s.onTimeOf lane u) ≠ s.onTimeOf lane u → t.isF Reg.PWM_LANE_STAT_CLAMP lane = true ∧ Counts s t Reg.PWM_LANE_CLAMPS lane 1) ∧
        ((∃ e ∈ (s.lane lane).handed, at16 < e.2 + 64 ∧ e.2 ≤ at16) → t.isF Reg.PWM_LANE_STAT_LATE lane = true) ∧
        (OnlyRegs s t [(Reg.LT_ONTIME.addr q 0), (Reg.PWM_LANE_ONTIME.addr lane 0), (Reg.PWM_LANE_STAT.addr lane 0), (Reg.PWM_LANE_CLAMPS.addr lane 0)]) ∧
        (t = { s with regs := t.regs, pwm := t.pwm })) ∧
  (∀ (s : State) (lane at16 q : Nat) (upset : Int),
      (s.canonical = true) →
      (s.startsAt lane at16 = true) →
      (s.lanePlain lane = true) →
      (s.tileOf lane = some q) →
      ((s.handedBy lane at16).isSome = true) →
      (upset % 255 ≠ 0) →
      (s.twn.preLeft = none) →
      (s.getF Reg.SNAP_STATUS_STATE ≠ 1) →
      Completes (.pwmPeriodStart lane at16 upset) s fun t =>
        (SetsFields s t (Reg.LT_STAT.addr q 0) [(Reg.LT_STAT_RES_ERR, 1), (Reg.LT_STAT_LOOP_FAULT, 1)]) ∧
        (Counts s t Reg.LT_RES_CNT q 1) ∧
        (SetsField s t Reg.LT_FAULT (q / 32) (putBit (s.getF Reg.LT_FAULT (q / 32)) (q % 32) true)) ∧
        (SetsField s t Reg.LT_OUT_INVALID q 1) ∧
        (Raises s t 1 [3]) ∧
        (t.laneSt lane = laneHeld) ∧
        (SetsField s t Reg.PWM_LANE_ONTIME lane (s.clampOn lane (s.lane lane).on)) ∧
        ((t.lane lane).pulse = some (Pulse.mk at16 (s.lane lane).per (s.clampOn lane (s.lane lane).on) (s.laneDt lane).1 (s.laneDt lane).2.1 (s.earlyRise lane at16) 0 0)) ∧
        ((t.lane lane).applied = (s.clampOn lane (s.lane lane).on)) ∧
        ((t.lane lane).prev = (s.lane lane).pulse) ∧
        ((t.lane lane).last = some at16) ∧
        ((t.lane lane).events.head? = some (at16, at16 + (roundEven (s.clampOn lane (s.lane lane).on) 2).toNat)) ∧
        (OnlyRegs s t [(Reg.LT_STAT.addr q 0), (Reg.LT_RES_CNT.addr q 0), (Reg.LT_FAULT.addr (q / 32) 0), (Reg.LT_OUT.addr q 0), (Reg.SYS_IRQ_CAUSE.addr 1 0), (Reg.PWM_LANE_ONTIME.addr lane 0), (Reg.PWM_LANE_STAT.addr lane 0), (Reg.PWM_LANE_CLAMPS.addr lane 0)]) ∧
        (t = { s with regs := t.regs, lt := t.lt, pwm := t.pwm, twn := t.twn, events := t.events })) ∧
  (∀ (s : State) (lane at16 : Nat) (upset : Int),
      (s.canonical = true) →
      (s.startsAt lane at16 = true) →
      (s.lanePlain lane = true) →
      (s.handedBy lane at16 = none) →
      Completes (.pwmPeriodStart lane at16 upset) s fun t =>
        (SetsField s t Reg.PWM_LANE_ONTIME lane (s.clampOn lane (s.lane lane).on)) ∧
        ((t.lane lane).pulse = some (Pulse.mk at16 (s.lane lane).per (s.clampOn lane (s.lane lane).on) (s.laneDt lane).1 (s.laneDt lane).2.1 (s.earlyRise lane at16) 0 0)) ∧
        ((t.lane lane).applied = (s.clampOn lane (s.lane lane).on)) ∧
        ((t.lane lane).prev = (s.lane lane).pulse) ∧
        ((t.lane lane).last = some at16) ∧
        ((t.lane lane).events.head? = some (at16, at16 + (roundEven (s.clampOn lane (s.lane lane).on) 2).toNat)) ∧
        (OnlyRegs s t [(Reg.PWM_LANE_ONTIME.addr lane 0), (Reg.PWM_LANE_STAT.addr lane 0), (Reg.PWM_LANE_CLAMPS.addr lane 0)]) ∧
        (t = { s with regs := t.regs, pwm := t.pwm })) ∧
  (∀ (s : State) (lane at16 : Nat) (upset : Int),
      (s.isStart lane at16 = false ∨ (s.lane lane).last.any (fun x => at16 ≤ x) = true) →
      Completes (.pwmPeriodStart lane at16 upset) s fun t =>
        (t = s))

/-- NOTCH_OPEN in a sweep that has fixed a notch around its T_s, while no lane sheds or re-adds and none is open, opens it, shows NOTCH_OPEN and
counts it; no other register changes. Where a lane of a converter sheds or re-adds it does not open: it is deferred for the sweep, counted
in PWM_NOTCH_DEF and recorded, and the transitions already moved for it count. Without a notch to open nothing changes. NOTCH_CLOSE ends the
notch and its status bit; only PWM_NOTCH_MOVED and the lanes' NOTCH_MOVED may follow. -/
def Obligations.TheSampleNotch : Prop :=
  (∀ (s : State) (t0 t1 : Nat),
      (s.canonical = true) →
      (s.pwm.plan = some (t0, t1)) →
      (s.pwm.notch = none) →
      (∀ n ∈ List.range 48, (s.lane n).shedAt.isNone = true ∧ (s.lane n).readd.isNone = true) →
      Completes (.notchOpen) s fun t =>
        (t.pwm.notch = some (t0, t1)) ∧
        (t.pwm.notchSpan = some (t0, t1)) ∧
        (t.pwm.plan = none) ∧
        (SetsField s t Reg.PWM_STATUS_NOTCH_OPEN 0 1) ∧
        (Counts s t Reg.PWM_NOTCH_CNT 0 1) ∧
        (OnlyRegs s t [(Reg.PWM_STATUS.addr 0 0), (Reg.PWM_NOTCH_CNT.addr 0 0)]) ∧
        (t = { s with regs := t.regs, pwm := t.pwm })) ∧
  (∀ (s : State) (t0 t1 : Nat) (n : Nat),
      (s.canonical = true) →
      (s.pwm.plan = some (t0, t1)) →
      (s.pwm.notch = none) →
      (((List.range 48).find? fun n => (s.lane n).shedAt.isSome || (s.lane n).readd.isSome) = some n) →
      Completes (.notchOpen) s fun t =>
        (Counts s t Reg.PWM_NOTCH_DEF 0 1) ∧
        (t.sns = { s.sns with deferred := true }) ∧
        (t.pwm.plan = none) ∧
        (t.pwm.notch = none) ∧
        (t.events = s.events ++ [LogEvent.mk 0x0403 (n / 12) [n / 12, s.getF Reg.PKL_SWEEP_NO]]) ∧
        (OutsideLanes s t [(Reg.PWM_STATUS.addr 0 0), (Reg.PWM_NOTCH_MOVED.addr 0 0), (Reg.PWM_NOTCH_DEF.addr 0 0)]) ∧
        (t = { s with regs := t.regs, pwm := t.pwm, sns := t.sns, events := t.events })) ∧
  (∀ (s : State),
      (s.pwm.plan = none ∨ s.pwm.notch.isSome = true) →
      Completes (.notchOpen) s fun t =>
        (t = s)) ∧
  (∀ (s : State) (t0 t1 : Nat),
      (s.canonical = true) →
      (s.pwm.notch = some (t0, t1)) →
      Completes (.notchClose) s fun t =>
        (t.pwm.notch = none) ∧
        (t.pwm.notchShift = []) ∧
        (SetsField s t Reg.PWM_STATUS_NOTCH_OPEN 0 0) ∧
        (OutsideLanes s t [(Reg.PWM_STATUS.addr 0 0), (Reg.PWM_NOTCH_MOVED.addr 0 0)]) ∧
        (t = { s with regs := t.regs, pwm := t.pwm }))

/-- A host's request for a level the converter may take sets TARGET and PENDING; any other is counted as discarded and sets nothing; the write
joins the journal of the lock holder. At a period start of phase 0, 100 ns after the request, with the gap since the last commit, no step
signal and nothing suspended, a pending shed commits one step: LEVEL is one more, PENDING tells whether TARGET is reached; the re-adds whose
request or cause lies 100 ns back bring LEVEL to their level at once; elsewhere nothing commits. A step signal that is not asserted only
shows in INHIBIT; one that is cancels a shed not yet committed: TARGET is LEVEL, PENDING 0 and ABORTS counts, and with ADD_ON_STEP it asks
for level 0. No other register changes. -/
def Obligations.PhaseShedding : Prop :=
  (∀ (s : State) (converter target at16 : Nat),
      (s.canonical = true) →
      (converter < 4) →
      (s.isE Reg.PWM_CONV_SHED_REQ_SRC converter = false) →
      (target < 8) →
      (target ≤ s.maxLevel converter) →
      (s.suspended converter = false) →
      (target ≤ min (s.shedLevel converter) (s.shedTarget converter) ∨ (s.stepSignal converter = false ∧ s.isE Reg.PWM_CONV_SHED_SHED_EN converter = true)) →
      Completes (.shedRequest converter target at16) s fun t =>
        (SetsFields s t (Reg.PWM_CONV_STAT.addr converter 0) [(Reg.PWM_CONV_STAT_TARGET, target), (Reg.PWM_CONV_STAT_PENDING, ofBool (target ≠ s.shedLevel converter))]) ∧
        (t.pwm = (s.askLevel converter target at16).pwm) ∧
        ((t.conv converter).reqAt = at16) ∧
        (Journals s t ((Reg.PWM_CONV_CMD.addr converter 0)) target) ∧
        (OnlyRegs s t [(Reg.PWM_CONV_STAT.addr converter 0)]) ∧
        (t = { s with regs := t.regs, pwm := t.pwm, twn := t.twn })) ∧
  (∀ (s : State) (converter target at16 : Nat),
      (s.canonical = true) →
      (converter < 4) →
      (s.isE Reg.PWM_CONV_SHED_REQ_SRC converter = false) →
      (s.maxLevel converter < target % 8 ∨ s.suspended converter = true ∨ (min (s.shedLevel converter) (s.shedTarget converter) < target % 8 ∧ (s.stepSignal converter = true ∨ s.isE Reg.PWM_CONV_SHED_SHED_EN converter = false))) →
      Completes (.shedRequest converter target at16) s fun t =>
        (Counts s t Reg.PWM_CONV_COUNT_DISCARDED converter 1) ∧
        (Journals s t ((Reg.PWM_CONV_CMD.addr converter 0)) (target % 8)) ∧
        (OnlyRegs s t [(Reg.PWM_CONV_COUNT.addr converter 0)]) ∧
        (t = { s with regs := t.regs, twn := t.twn })) ∧
  (∀ (s : State) (converter at16 : Nat),
      (s.canonical = true) →
      (s.phase0At converter at16 = true) →
      (s.shedLevel converter < s.shedTarget converter) →
      ((s.conv converter).reqAt + 1600 ≤ at16) →
      ((s.conv converter).lastShed.any (fun l => decide (at16 < l + s.shedGap converter * (s.lane (12 * converter)).per)) = false) →
      (s.stepSignal converter = false) →
      (s.suspended converter = false) →
      (s.isE Reg.PWM_CONV_SHED_SHED_EN converter = true) →
      (s.pwm.notch = none) →
      Completes (.shedCommit converter at16) s fun t =>
        (SetsFields s t (Reg.PWM_CONV_STAT.addr converter 0) [(Reg.PWM_CONV_STAT_LEVEL, s.shedLevel converter + 1), (Reg.PWM_CONV_STAT_PENDING, ofBool (s.shedTarget converter ≠ s.shedLevel converter + 1))]) ∧
        (t.pwm.conv = (s.setConv converter { s.conv converter with sheds := (s.conv converter).sheds ++ [at16], lastShed := some at16 }).pwm.conv) ∧
        (OnlyRegs s t [(Reg.PWM_CONV_STAT.addr converter 0)]) ∧
        (t = { s with regs := t.regs, pwm := t.pwm })) ∧
  (∀ (s : State) (converter at16 : Nat),
      (s.canonical = true) →
      (s.phase0At converter at16 = true) →
      (s.readdLevel converter at16 < s.shedLevel converter) →
      (s.suspended converter = false) →
      (s.pwm.notch = none) →
      Completes (.readdCommit converter at16) s fun t =>
        (SetsFields s t (Reg.PWM_CONV_STAT.addr converter 0) [(Reg.PWM_CONV_STAT_LEVEL, s.readdLevel converter at16), (Reg.PWM_CONV_STAT_PENDING, ofBool (s.shedTarget converter ≠ s.readdLevel converter at16))]) ∧
        (t.pwm.conv = (s.setConv converter { s.conv converter with sheds := (s.conv converter).sheds.take (s.readdLevel converter at16), asks := (s.conv converter).asks.filter fun (e : Nat × Nat) => decide (e.1 < s.readdLevel converter at16) }).pwm.conv) ∧
        (OnlyRegs s t [(Reg.PWM_CONV_STAT.addr converter 0)]) ∧
        (t = { s with regs := t.regs, pwm := t.pwm })) ∧
  (∀ (s : State) (converter at16 : Nat),
      (s.phase0At converter at16 = false ∨ s.shedTarget converter ≤ s.shedLevel converter ∨ at16 < (s.conv converter).reqAt + 1600 ∨ s.stepSignal converter = true ∨ s.suspended converter = true ∨ s.isE Reg.PWM_CONV_SHED_SHED_EN converter = false) →
      Completes (.shedCommit converter at16) s fun t =>
        (t = s)) ∧
  (∀ (s : State) (converter at16 : Nat),
      (s.phase0At converter at16 = false ∨ s.shedLevel converter ≤ s.readdLevel converter at16 ∨ s.suspended converter = true) →
      Completes (.readdCommit converter at16) s fun t =>
        (t = s)) ∧
  (∀ (s : State) (converter at16 : Nat),
      (s.canonical = true) →
      (converter < 4) →
      (s.stepSignal converter = false) →
      Completes (.stepSignal converter at16) s fun t =>
        (SetsField s t Reg.PWM_CONV_STAT_INHIBIT converter 0) ∧
        (OnlyRegs s t [(Reg.PWM_CONV_STAT.addr converter 0)]) ∧
        (t = { s with regs := t.regs })) ∧
  (∀ (s : State) (converter at16 : Nat),
      (s.canonical = true) →
      (converter < 4) →
      (s.stepSignal converter = true) →
      (s.shedLevel converter < s.shedTarget converter) →
      ((s.conv converter).sheds = []) →
      (s.isE Reg.PWM_CONV_SHED_ADD_ON_STEP converter = false) →
      Completes (.stepSignal converter at16) s fun t =>
        (SetsFields s t (Reg.PWM_CONV_STAT.addr converter 0) [(Reg.PWM_CONV_STAT_INHIBIT, 1), (Reg.PWM_CONV_STAT_TARGET, s.shedLevel converter), (Reg.PWM_CONV_STAT_PENDING, 0)]) ∧
        (Counts s t Reg.PWM_CONV_COUNT_ABORTS converter 1) ∧
        (t.pwm = (s.askLevel converter (s.shedLevel converter) at16).pwm) ∧
        (OnlyRegs s t [(Reg.PWM_CONV_STAT.addr converter 0), (Reg.PWM_CONV_COUNT.addr converter 0)]) ∧
        (t = { s with regs := t.regs, pwm := t.pwm })) ∧
  (∀ (s : State) (converter at16 : Nat),
      (s.canonical = true) →
      (converter < 4) →
      (s.stepSignal converter = true) →
      (0 < s.shedLevel converter) →
      (s.shedTarget converter = s.shedLevel converter) →
      ((s.conv converter).sheds = []) →
      (s.isE Reg.PWM_CONV_SHED_ADD_ON_STEP converter = true) →
      Completes (.stepSignal converter at16) s fun t =>
        (SetsFields s t (Reg.PWM_CONV_STAT.addr converter 0) [(Reg.PWM_CONV_STAT_INHIBIT, 1), (Reg.PWM_CONV_STAT_TARGET, 0), (Reg.PWM_CONV_STAT_PENDING, 1)]) ∧
        (t.pwm = (s.askLevel converter 0 at16).pwm) ∧
        (OnlyRegs s t [(Reg.PWM_CONV_STAT.addr converter 0)]) ∧
        (t = { s with regs := t.regs, pwm := t.pwm }))

/-- An enabled fault input that has an owner, low for FILT + 5 ns or more sets its RAW and LATCH bits, raises its cause, is recorded and trips
every group it names; up to FILT only RAW and FLT_ANY follow. Its release clears RAW. A software trip of an untripped group sets its TRIP
bit, ANY_TRIP and its cause, is recorded and turns every lane of the group off, TRIPPED and without a pulse. A release clears the TRIP bit
where no source of the group is asserted, else sets REARM_REFUSED alone. The trip and release writes join the journal of the lock holder.
Registers other than the named ones and the lanes' and converters' status do not change. (Log entry 34: between FILT and FILT + 5 ns the
input may act or not.) CTR_DLY after the trip of a group that names contactor drives, those drives and their CLOSE bits go to 0 and the
others stay; the cause is raised where one of them was closed. A close by the shelf host of a drive that no tripped group names sets its
CLOSE and CLOSED bits and joins the journal of the lock holder; one that a tripped group names, one from the firmware, and every drive in
NO_IMAGE stays as it is. No other register changes. -/
def Obligations.FaultInputsGroupsAndContactors : Prop :=
  (∀ (s : State) (input lowPs now : Nat),
      (s.canonical = true) →
      (input < 16) →
      (s.faultOn input = true) →
      (min 20 (s.effF Reg.PWM_FLT_CFG_FILT input) * 1000 + 5000 ≤ lowPs) →
      Completes (.faultInput input lowPs now) s fun t =>
        (SetsField s t Reg.PWM_FLT_RAW 0 (putBit (s.getF Reg.PWM_FLT_RAW) input true)) ∧
        (SetsField s t Reg.PWM_FLT_LATCH 0 (putBit (s.getF Reg.PWM_FLT_LATCH) input true)) ∧
        (t.isF Reg.PWM_STATUS_FLT_ANY = true) ∧
        (bitOf (t.getF Reg.SYS_IRQ_CAUSE 1) 1 = true) ∧
        (∀ g ∈ List.range 8, t.tripped g = (s.tripped g || bitOf (s.effF Reg.PWM_FLT_CFG_GROUPS input) g)) ∧
        (t.events = s.events ++ [LogEvent.mk 0x0401 input [input, s.effF Reg.PWM_FLT_CFG_GROUPS input]]) ∧
        (OutsideLanes s t [(Reg.PWM_GRP_TRIP.addr 0 0), (Reg.PWM_STATUS.addr 0 0), (Reg.PWM_FLT_RAW.addr 0 0), (Reg.PWM_FLT_LATCH.addr 0 0), (Reg.SYS_IRQ_CAUSE.addr 1 0)]) ∧
        (t = { s with regs := t.regs, pwm := t.pwm, snap := t.snap, events := t.events })) ∧
  (∀ (s : State) (input lowPs now : Nat),
      (s.canonical = true) →
      (input < 16) →
      (lowPs ≤ min 20 (s.effF Reg.PWM_FLT_CFG_FILT input) * 1000) →
      Completes (.faultInput input lowPs now) s fun t =>
        (SetsField s t Reg.PWM_FLT_RAW 0 (putBit (s.getF Reg.PWM_FLT_RAW) input true)) ∧
        (OnlyRegs s t [(Reg.PWM_FLT_RAW.addr 0 0), (Reg.PWM_STATUS.addr 0 0)]) ∧
        (t = { s with regs := t.regs })) ∧
  (∀ (s : State) (input : Nat),
      (s.canonical = true) →
      (input < 16) →
      Completes (.faultInputRelease input) s fun t =>
        (SetsField s t Reg.PWM_FLT_RAW 0 (putBit (s.getF Reg.PWM_FLT_RAW) input false)) ∧
        (t.isF Reg.PWM_STATUS_FLT_ANY = (List.range 16).any fun n => s.faultOn n && bitOf (t.getF Reg.PWM_FLT_RAW) n) ∧
        (OnlyRegs s t [(Reg.PWM_FLT_RAW.addr 0 0), (Reg.PWM_STATUS.addr 0 0)]) ∧
        (t = { s with regs := t.regs })) ∧
  (∀ (s : State) (group now : Nat),
      (s.canonical = true) →
      (group < 8) →
      (s.tripped group = false) →
      Completes (.groupSwtrip group now) s fun t =>
        (SetsField s t Reg.PWM_GRP_TRIP_TRIP 0 (putBit (s.getF Reg.PWM_GRP_TRIP_TRIP) group true)) ∧
        (SetsField s t Reg.PWM_STATUS_ANY_TRIP 0 1) ∧
        (Raises s t 1 [2]) ∧
        (t.events = s.events ++ [LogEvent.mk 0x0402 group [group, 2]]) ∧
        (Journals s t ((Reg.PWM_GRP_SWTRIP.addr 0 0)) (2 ^ group)) ∧
        (∀ n ∈ List.range 48, t.laneSt n = if s.effF Reg.PWM_LANE_CFG_GROUP n = group then laneTripped else s.laneSt n) ∧
        (t.pwm.opening = if s.effF Reg.PWM_GRP_CFG_CTR group = 0 then s.pwm.opening else Sparse.insert s.pwm.opening group (s.effF Reg.PWM_GRP_CFG_CTR group, 16 * now + 16000000 * s.effF Reg.PWM_GRP_CFG_CTR_DLY group)) ∧
        (OutsideLanes s t [(Reg.PWM_GRP_TRIP.addr 0 0), (Reg.PWM_STATUS.addr 0 0), (Reg.SYS_IRQ_CAUSE.addr 1 0)]) ∧
        (t = { s with regs := t.regs, pwm := t.pwm, snap := t.snap, events := t.events, twn := t.twn })) ∧
  (∀ (s : State) (group now : Nat),
      (group < 8) →
      (s.tripped group = true) →
      Completes (.groupSwtrip group now) s fun t =>
        (Journals s t ((Reg.PWM_GRP_SWTRIP.addr 0 0)) (2 ^ group)) ∧
        (t = { s with twn := t.twn })) ∧
  (∀ (s : State) (group : Nat),
      (s.canonical = true) →
      (group < 8) →
      (s.tripped group = true) →
      (s.groupSource group = false) →
      Completes (.groupRelease group) s fun t =>
        (SetsField s t Reg.PWM_GRP_TRIP_TRIP 0 (putBit (s.getF Reg.PWM_GRP_TRIP_TRIP) group false)) ∧
        (SetsField s t Reg.PWM_STATUS_ANY_TRIP 0 (ofBool (putBit (s.getF Reg.PWM_GRP_TRIP_TRIP) group false ≠ 0))) ∧
        (Journals s t ((Reg.PWM_GRP_TRIP.addr 0 0)) (2 ^ group)) ∧
        (OutsideLanes s t [(Reg.PWM_GRP_TRIP.addr 0 0), (Reg.PWM_STATUS.addr 0 0)]) ∧
        (t = { s with regs := t.regs, pwm := t.pwm, twn := t.twn })) ∧
  (∀ (s : State) (group : Nat),
      (s.canonical = true) →
      (group < 8) →
      (s.tripped group = true) →
      (s.groupSource group = true) →
      Completes (.groupRelease group) s fun t =>
        (SetsField s t Reg.PWM_GRP_TRIP_REARM_REFUSED 0 1) ∧
        (OnlyRegs s t [(Reg.PWM_GRP_TRIP.addr 0 0)]) ∧
        (t = { s with regs := t.regs })) ∧
  (∀ (s : State) (group now m due : Nat),
      (s.canonical = true) →
      (Sparse.find s.pwm.opening group = some (m, due)) →
      (due ≤ 16 * now) →
      Completes (.contactorOpen group now) s fun t =>
        (SetsFields s t (Reg.PWM_CTR.addr 0 0) [(Reg.PWM_CTR_CLOSED, s.getF Reg.PWM_CTR_CLOSED - (s.getF Reg.PWM_CTR_CLOSED &&& m)), (Reg.PWM_CTR_CLOSE, s.getF Reg.PWM_CTR_CLOSE - (s.getF Reg.PWM_CTR_CLOSE &&& m))]) ∧
        (s.getF Reg.PWM_CTR_CLOSED &&& m ≠ 0 → Raises s t 1 [7]) ∧
        (t.pwm = { s.pwm with opening := Sparse.erase s.pwm.opening group }) ∧
        (OnlyRegs s t [(Reg.PWM_CTR.addr 0 0), (Reg.SYS_IRQ_CAUSE.addr 1 0)]) ∧
        (t = { s with regs := t.regs, pwm := t.pwm })) ∧
  (∀ (s : State) (group now : Nat),
      ((Sparse.find s.pwm.opening group).all (fun (e : Nat × Nat) => 16 * now < e.2) = true) →
      Completes (.contactorOpen group now) s fun t =>
        (t = s)) ∧
  (∀ (s : State) (path drive : Nat),
      (s.canonical = true) →
      (drive < 4) →
      (pathOwner path = 0x40) →
      (s.driveBarred drive = false) →
      (s.cfg.noImage = false) →
      Completes (.contactorClose path drive) s fun t =>
        (SetsFields s t (Reg.PWM_CTR.addr 0 0) [(Reg.PWM_CTR_CLOSE, putBit (s.getF Reg.PWM_CTR_CLOSE) drive true), (Reg.PWM_CTR_CLOSED, putBit (s.getF Reg.PWM_CTR_CLOSED) drive true)]) ∧
        (Journals s t ((Reg.PWM_CTR.addr 0 0)) (putBit (s.getF Reg.PWM_CTR_CLOSE) drive true)) ∧
        (OnlyRegs s t [(Reg.PWM_CTR.addr 0 0)]) ∧
        (t = { s with regs := t.regs, twn := t.twn })) ∧
  (∀ (s : State) (path drive : Nat),
      (4 ≤ drive ∨ pathOwner path ≠ 0x40 ∨ s.driveBarred drive = true ∨ s.cfg.noImage = true) →
      Completes (.contactorClose path drive) s fun t =>
        (t = s))

/-- Ten thousand frames after the last entry was applied, with no committed entry waiting, LOCAL_TARGET is set, raises its cause and is recorded
with that entry's index. Eight frames without a good feed sample set FEED_BAD and raise its cause; eight with one clear it. HOLD and RELEASE
set and clear HOLD_CMD, CLEAR_MAX clears WB_DEV20_MAX, and each joins the journal of the lock holder. RESERVE_EXIT after 100 frames in which
no limit acted ends the reserve. No other register and no other part of the state changes. Once MISS_WINDOW around it has passed, a step
that the deviation of an APPLIED or DEMOTED lane took within 1 ms of forecast time, and that would move the shelf's forecast part beyond
STEP_THRESH, is scored once: a change of the rack load in its direction of at least MISS_SIZE per cent of it within MISS_WINDOW is a hit.
MISSES is the number of misses in the last 16 scores, HITS the hits in a row. A hit, and a miss that leaves MISSES below MISS_LIMIT, changes
nothing else of a lane that is not demoted; a miss by which MISSES reaches the limit demotes it: it shows DEMOTED, raises the cause and is
recorded. A demoted lane whose hits reach RESTORE_HITS returns to scoring and is recorded. Any other step is not scored. RESTORE_LANE ends a
demotion, is recorded and journaled. A lane not republished for four forecast boundaries, with no publication waiting, shows ABSENT. -/
def Obligations.WindbreakStatusAndLaneScoring : Prop :=
  (∀ (s : State),
      (s.canonical = true) →
      (s.wb.entryFrame + 10000 ≤ s.frame) →
      (s.wb.queue = []) →
      (s.isF Reg.WB_STATUS_LOCAL_TARGET = false) →
      Completes (.localTarget) s fun t =>
        (SetsField s t Reg.WB_STATUS_LOCAL_TARGET 0 1) ∧
        (Raises s t 7 [2]) ∧
        (t.events = s.events ++ [LogEvent.mk 0x0502 0xFFFF [s.wb.entry.elim 0 RackEntry.idx]]) ∧
        (OnlyRegs s t [(Reg.WB_STATUS.addr 0 0), (Reg.SYS_IRQ_CAUSE.addr 7 0)]) ∧
        (t = { s with regs := t.regs, events := t.events })) ∧
  (∀ (s : State),
      (s.frame < s.wb.entryFrame + 10000 ∨ s.wb.queue ≠ [] ∨ s.isF Reg.WB_STATUS_LOCAL_TARGET = true) →
      Completes (.localTarget) s fun t =>
        (t = s)) ∧
  (∀ (s : State),
      (s.canonical = true) →
      (8 ≤ s.wb.bad) →
      (s.isF Reg.WB_STATUS_FEED_BAD = false) →
      Completes (.feedBad) s fun t =>
        (SetsField s t Reg.WB_STATUS_FEED_BAD 0 1) ∧
        (Raises s t 7 [3]) ∧
        (OnlyRegs s t [(Reg.WB_STATUS.addr 0 0), (Reg.SYS_IRQ_CAUSE.addr 7 0)]) ∧
        (t = { s with regs := t.regs })) ∧
  (∀ (s : State),
      (s.canonical = true) →
      (8 ≤ s.wb.good) →
      Completes (.feedRecovered) s fun t =>
        (SetsField s t Reg.WB_STATUS_FEED_BAD 0 0) ∧
        (OnlyRegs s t [(Reg.WB_STATUS.addr 0 0)]) ∧
        (t = { s with regs := t.regs })) ∧
  (∀ (s : State),
      (100 ≤ s.wb.free) →
      Completes (.reserveExit) s fun t =>
        (t.wb = { s.wb with reserve := false }) ∧
        (t = { s with wb := t.wb })) ∧
  (∀ (s : State),
      (s.canonical = true) →
      Completes (.wbHold) s fun t =>
        (SetsField s t Reg.WB_STATUS_HOLD_CMD 0 1) ∧
        (Journals s t ((Reg.WB_CMD.addr 0 0)) 1) ∧
        (OnlyRegs s t [(Reg.WB_STATUS.addr 0 0)]) ∧
        (t = { s with regs := t.regs, twn := t.twn })) ∧
  (∀ (s : State),
      (s.canonical = true) →
      Completes (.wbRelease) s fun t =>
        (SetsField s t Reg.WB_STATUS_HOLD_CMD 0 0) ∧
        (Journals s t ((Reg.WB_CMD.addr 0 0)) 2) ∧
        (OnlyRegs s t [(Reg.WB_STATUS.addr 0 0)]) ∧
        (t = { s with regs := t.regs, twn := t.twn })) ∧
  (∀ (s : State),
      (s.canonical = true) →
      Completes (.clearMax) s fun t =>
        (SetsField s t Reg.WB_DEV20_MAX 0 0) ∧
        (Journals s t ((Reg.WB_CMD.addr 0 0)) 3) ∧
        (OnlyRegs s t [(Reg.WB_DEV20_MAX.addr 0 0)]) ∧
        (t = { s with regs := t.regs, twn := t.twn })) ∧
  (∀ (s : State) (lane : Nat),
      (s.canonical = true) →
      (lane < 64) →
      (4 ≤ (s.wbLane lane).missed) →
      ((s.wbLane lane).active.isSome = true) →
      ((s.wbLane lane).staged = none) →
      Completes (.laneAbsent lane) s fun t =>
        (SetsField s t Reg.WB_LANE_STAT_STATE lane 0) ∧
        (t.wb = (s.setWbLane lane { s.wbLane lane with silent := true, used := [] }).wb) ∧
        (OnlyRegs s t [(Reg.WB_LANE_STAT.addr lane 0)]) ∧
        (t = { s with regs := t.regs, wb := t.wb })) ∧
  (∀ (s : State) (lane : Nat),
      ((s.wbLane lane).missed < 4 ∨ (s.wbLane lane).active = none ∨ (s.wbLane lane).staged ≠ none) →
      Completes (.laneAbsent lane) s fun t =>
        (t = s)) ∧
  (∀ (s : State) (lane ago span : Nat) (d : Rat),
      (s.canonical = true) →
      (s.stepRipe lane ago span = true) →
      ((s.wbLane lane).stepOf ago span = some d) →
      (s.bigStep d = true) →
      ((s.wbLane lane).demoted = false) →
      ((s.stepHit ago d) = true ∨ s.missesAfter lane (s.stepHit ago d) < min 16 (max 1 (s.effF Reg.WB_MISS_CFG_MISS_LIMIT))) →
      Completes (.laneStepScore lane ago span) s fun t =>
        (SetsFields s t (Reg.WB_LANE_STAT.addr lane 0) [(Reg.WB_LANE_STAT_MISSES, s.missesAfter lane (s.stepHit ago d)), (Reg.WB_LANE_STAT_HITS, (if (s.stepHit ago d) = true then min 255 (s.getF Reg.WB_LANE_STAT_HITS lane + 1) else 0))]) ∧
        (t.wb = (s.setWbLane lane { s.wbLane lane with scored := s.frame - ago + span, scores := ((s.stepHit ago d) :: (s.wbLane lane).scores).take 16 }).wb) ∧
        (OnlyRegs s t [(Reg.WB_LANE_STAT.addr lane 0)]) ∧
        (t = { s with regs := t.regs, wb := t.wb })) ∧
  (∀ (s : State) (lane ago span : Nat) (d : Rat),
      (s.canonical = true) →
      (s.stepRipe lane ago span = true) →
      ((s.wbLane lane).stepOf ago span = some d) →
      (s.bigStep d = true) →
      ((s.wbLane lane).demoted = false) →
      ((s.stepHit ago d) = false) →
      (min 16 (max 1 (s.effF Reg.WB_MISS_CFG_MISS_LIMIT)) ≤ s.missesAfter lane (s.stepHit ago d)) →
      Completes (.laneStepScore lane ago span) s fun t =>
        (SetsFields s t (Reg.WB_LANE_STAT.addr lane 0) [(Reg.WB_LANE_STAT_MISSES, s.missesAfter lane (s.stepHit ago d)), (Reg.WB_LANE_STAT_HITS, 0), (Reg.WB_LANE_STAT_STATE, 3)]) ∧
        (Raises s t 7 [4]) ∧
        (t.events = s.events ++ [LogEvent.mk 0x0505 lane [lane, s.missesAfter lane (s.stepHit ago d)]]) ∧
        (t.wb = (s.setWbLane lane { s.wbLane lane with scored := s.frame - ago + span, scores := ((s.stepHit ago d) :: (s.wbLane lane).scores).take 16, demoted := true }).wb) ∧
        (OnlyRegs s t [(Reg.WB_LANE_STAT.addr lane 0), (Reg.SYS_IRQ_CAUSE.addr 7 0)]) ∧
        (t = { s with regs := t.regs, wb := t.wb, events := t.events })) ∧
  (∀ (s : State) (lane ago span : Nat) (d : Rat),
      (s.canonical = true) →
      (s.stepRipe lane ago span = true) →
      ((s.wbLane lane).stepOf ago span = some d) →
      (s.bigStep d = true) →
      ((s.wbLane lane).demoted = true) →
      Completes (.laneStepScore lane ago span) s fun t =>
        (SetsFields s t (Reg.WB_LANE_STAT.addr lane 0) [(Reg.WB_LANE_STAT_MISSES, s.missesAfter lane (s.stepHit ago d)), (Reg.WB_LANE_STAT_HITS, (if (s.stepHit ago d) = true then min 255 (s.getF Reg.WB_LANE_STAT_HITS lane + 1) else 0))]) ∧
        (t.wb = (s.setWbLane lane { s.wbLane lane with scored := s.frame - ago + span, scores := ((s.stepHit ago d) :: (s.wbLane lane).scores).take 16, demoted := decide ((if (s.stepHit ago d) = true then min 255 (s.getF Reg.WB_LANE_STAT_HITS lane + 1) else 0) < max 1 (s.effF Reg.WB_MISS_CFG_RESTORE_HITS)) }).wb) ∧
        (t.events = s.events ++ (if (if (s.stepHit ago d) = true then min 255 (s.getF Reg.WB_LANE_STAT_HITS lane + 1) else 0) < max 1 (s.effF Reg.WB_MISS_CFG_RESTORE_HITS) then [] else [LogEvent.mk 0x0506 lane [lane, 0]])) ∧
        (OnlyRegs s t [(Reg.WB_LANE_STAT.addr lane 0)]) ∧
        (t = { s with regs := t.regs, wb := t.wb, events := t.events })) ∧
  (∀ (s : State) (lane ago span : Nat),
      (s.stepRipe lane ago span = false ∨ ((s.wbLane lane).stepOf ago span).all (fun (d : Rat) => !s.bigStep d) = true) →
      Completes (.laneStepScore lane ago span) s fun t =>
        (t = s)) ∧
  (∀ (s : State) (lane : Nat),
      (lane < 64) →
      ((s.wbLane lane).demoted = true) →
      Completes (.restoreLane lane) s fun t =>
        (t.wb = (s.setWbLane lane { s.wbLane lane with demoted := false }).wb) ∧
        (t.events = s.events ++ [LogEvent.mk 0x0506 lane [lane, 1]]) ∧
        (Journals s t ((Reg.WB_CMD.addr 0 0)) (256 * lane + 4)) ∧
        (t = { s with wb := t.wb, events := t.events, twn := t.twn }))

/-- On a running core that does not wait, the base instruction at the pc completes. An integer operation writes its result to rd (x0 discards
it) and passes on; a taken branch and a jump set the pc, a jump with the address of the next instruction in rd; a load of local memory
writes rd, sign-extended where signed; a store writes its bytes and only them. lr holds its reservation, and sc writes and returns 0 where
the reservation stands, else returns 1 and writes nothing. A word that is no instruction, an access outside the map and a misaligned access
leave the core at an exception. An error that the access finds in local memory acts first. No other core and no other part of the state
changes. The base set computes as RISC-V has it (log 42). -/
def Obligations.ScalarInstructionsOfACore : Prop :=
  (∀ (s : State) (k now cycle len : Nat) (upset : Option (Nat × Bool)) (u : State) (op : AluOp) (w : Bool) (rd a b : Nat),
      (s.standsInstr k (.alu op w rd a b) len = true) →
      (u = s.lmUpset k upset) →
      Completes (.scalarInstruction k now cycle upset) s fun t =>
        (t = u.returns k rd (aluEval op w ((u.core k).rx a) ((u.core k).rx b)) (u.core k) len)) ∧
  (∀ (s : State) (k now cycle len : Nat) (upset : Option (Nat × Bool)) (u : State) (op : AluOp) (w : Bool) (rd a : Nat) (imm : Int),
      (s.standsInstr k (.aluImm op w rd a imm) len = true) →
      (u = s.lmUpset k upset) →
      Completes (.scalarInstruction k now cycle upset) s fun t =>
        (t = u.returns k rd (aluEval op w ((u.core k).rx a) (unsign 64 imm)) (u.core k) len)) ∧
  (∀ (s : State) (k now cycle len : Nat) (upset : Option (Nat × Bool)) (u : State) (op : BrOp) (a b : Nat) (imm : Int),
      (s.standsInstr k (.branch op a b imm) len = true) →
      (u = s.lmUpset k upset) →
      (brTaken op ((u.core k).rx a) ((u.core k).rx b) = true) →
      Completes (.scalarInstruction k now cycle upset) s fun t =>
        (t = u.setCore k { (u.core k) with pc := unsign 64 ((u.core k).pc + imm), instret := ((u.core k).instret + 1) % 2 ^ 64 })) ∧
  (∀ (s : State) (k now cycle len : Nat) (upset : Option (Nat × Bool)) (u : State) (op : BrOp) (a b : Nat) (imm : Int),
      (s.standsInstr k (.branch op a b imm) len = true) →
      (u = s.lmUpset k upset) →
      (brTaken op ((u.core k).rx a) ((u.core k).rx b) = false) →
      Completes (.scalarInstruction k now cycle upset) s fun t =>
        (t = u.setCore k { (u.core k) with pc := ((u.core k).pc + len) % 2 ^ 64, instret := ((u.core k).instret + 1) % 2 ^ 64 })) ∧
  (∀ (s : State) (k now cycle len : Nat) (upset : Option (Nat × Bool)) (u : State) (rd : Nat) (imm : Int),
      (s.standsInstr k (.jal rd imm) len = true) →
      (u = s.lmUpset k upset) →
      Completes (.scalarInstruction k now cycle upset) s fun t =>
        (t = u.setCore k { ((u.core k).wx rd ((u.core k).pc + len)) with pc := unsign 64 ((u.core k).pc + imm), instret := ((u.core k).instret + 1) % 2 ^ 64 })) ∧
  (∀ (s : State) (k now cycle len : Nat) (upset : Option (Nat × Bool)) (u : State) (rd rs1 : Nat) (imm : Int),
      (s.standsInstr k (.jalr rd rs1 imm) len = true) →
      (u = s.lmUpset k upset) →
      Completes (.scalarInstruction k now cycle upset) s fun t =>
        (t = u.setCore k { ((u.core k).wx rd ((u.core k).pc + len)) with pc := ((unsign 64 (((u.core k).rx rs1 : Int) + imm))) / 2 * 2, instret := ((u.core k).instret + 1) % 2 ^ 64 })) ∧
  (∀ (s : State) (k now cycle len : Nat) (upset : Option (Nat × Bool)) (u : State) (n : Nat) (sg : Bool) (rd rs1 a : Nat) (imm : Int),
      (s.standsInstr k (.load n sg rd rs1 imm) len = true) →
      (u = s.lmUpset k upset) →
      (a = ((unsign 64 (((u.core k).rx rs1 : Int) + imm)))) →
      (a % n = 0) →
      (inLocal a n = true) →
      ((u.core k).lmBad a n = false) →
      Completes (.scalarInstruction k now cycle upset) s fun t =>
        (t = u.returns k rd (if sg then unsign 64 (signed (8 * n) (ofLe ((u.core k).lmBytes a n))) else ofLe ((u.core k).lmBytes a n)) (u.core k) len)) ∧
  (∀ (s : State) (k now cycle len : Nat) (upset : Option (Nat × Bool)) (u : State) (n : Nat) (sg : Bool) (rd rs1 a : Nat) (imm : Int),
      (s.standsInstr k (.load n sg rd rs1 imm) len = true) →
      (u = s.lmUpset k upset) →
      (a = ((unsign 64 (((u.core k).rx rs1 : Int) + imm)))) →
      (a % n = 0) →
      (inLocal a n = true) →
      ((u.core k).lmBad a n = true) →
      Completes (.scalarInstruction k now cycle upset) s fun t =>
        (t = u.stopsAt k 2 0)) ∧
  (∀ (s : State) (k now cycle len : Nat) (upset : Option (Nat × Bool)) (u : State) (n : Nat) (sg : Bool) (rd rs1 a : Nat) (imm : Int),
      (s.standsInstr k (.load n sg rd rs1 imm) len = true) →
      (u = s.lmUpset k upset) →
      (a = ((unsign 64 (((u.core k).rx rs1 : Int) + imm)))) →
      (a % n ≠ 0) →
      Completes (.scalarInstruction k now cycle upset) s fun t =>
        (t = u.stopsAt k 1 4)) ∧
  (∀ (s : State) (k now cycle len : Nat) (upset : Option (Nat × Bool)) (u : State) (n rs1 rs2 a : Nat) (imm : Int),
      (s.standsInstr k (.store n rs1 rs2 imm) len = true) →
      (u = s.lmUpset k upset) →
      (a = ((unsign 64 (((u.core k).rx rs1 : Int) + imm)))) →
      (a % n = 0) →
      (inLocal a n = true) →
      Completes (.scalarInstruction k now cycle upset) s fun t =>
        (t = u.setCore k (((u.core k).lmWrite a (leBytes n ((u.core k).rx rs2))).retire len))) ∧
  (∀ (s : State) (k now cycle len : Nat) (upset : Option (Nat × Bool)) (u : State) (n rs1 rs2 a : Nat) (imm : Int),
      (s.standsInstr k (.store n rs1 rs2 imm) len = true) →
      (u = s.lmUpset k upset) →
      (a = ((unsign 64 (((u.core k).rx rs1 : Int) + imm)))) →
      (a % n ≠ 0 ∨ inLocal a n = false) →
      Completes (.scalarInstruction k now cycle upset) s fun t =>
        (t = u.stopsAt k 1 (if a % n ≠ 0 then 6 else 7))) ∧
  (∀ (s : State) (k now cycle len : Nat) (upset : Option (Nat × Bool)) (u : State) (n rd rs1 : Nat),
      (s.standsInstr k (.lr n rd rs1) len = true) →
      (u = s.lmUpset k upset) →
      ((u.core k).rx rs1 % n = 0) →
      (inLocal ((u.core k).rx rs1) n = true) →
      ((u.core k).lmBad ((u.core k).rx rs1) n = false) →
      Completes (.scalarInstruction k now cycle upset) s fun t =>
        (t = u.setCore k (({ (u.core k) with resv := some ((u.core k).rx rs1, n) }.wx rd (unsign 64 (signed (8 * n) (ofLe ((u.core k).lmBytes ((u.core k).rx rs1) n))))).retire len))) ∧
  (∀ (s : State) (k now cycle len : Nat) (upset : Option (Nat × Bool)) (u : State) (n rd rs1 rs2 : Nat),
      (s.standsInstr k (.sc n rd rs1 rs2) len = true) →
      (u = s.lmUpset k upset) →
      ((u.core k).rx rs1 % n = 0) →
      (inLocal ((u.core k).rx rs1) n = true) →
      ((u.core k).resv = some ((u.core k).rx rs1, n)) →
      Completes (.scalarInstruction k now cycle upset) s fun t =>
        (t = u.setCore k ((({ (u.core k) with resv := none }.lmWrite ((u.core k).rx rs1) (leBytes n ((u.core k).rx rs2))).wx rd 0).retire len))) ∧
  (∀ (s : State) (k now cycle len : Nat) (upset : Option (Nat × Bool)) (u : State) (n rd rs1 rs2 : Nat),
      (s.standsInstr k (.sc n rd rs1 rs2) len = true) →
      (u = s.lmUpset k upset) →
      ((u.core k).rx rs1 % n = 0) →
      (inLocal ((u.core k).rx rs1) n = true) →
      ((u.core k).resv ≠ some ((u.core k).rx rs1, n)) →
      Completes (.scalarInstruction k now cycle upset) s fun t =>
        (t = u.setCore k (({ (u.core k) with resv := none }.wx rd 1).retire len))) ∧
  (∀ (s : State) (k now cycle len : Nat) (upset : Option (Nat × Bool)) (u : State) (op : CsrOp) (im : Bool) (rd src csr old : Nat),
      (s.standsInstr k (.csr op im rd src csr) len = true) →
      (u = s.lmUpset k upset) →
      (op ≠ CsrOp.write) →
      (src = 0) →
      (u.csrRead k now cycle csr = some old) →
      Completes (.scalarInstruction k now cycle upset) s fun t =>
        (t = u.returns k rd old (u.core k) len)) ∧
  (∀ (s : State) (k now cycle len : Nat) (upset : Option (Nat × Bool)) (u : State) (op : CsrOp) (im : Bool) (rd src csr : Nat),
      (s.standsInstr k (.csr op im rd src csr) len = true) →
      (u = s.lmUpset k upset) →
      (u.csrRead k now cycle csr = none) →
      Completes (.scalarInstruction k now cycle upset) s fun t =>
        (t = u.stopsAt k 1 2)) ∧
  (∀ (s : State) (k now cycle len : Nat) (upset : Option (Nat × Bool)) (u : State) (op : AmoOp) (n rd rs1 rs2 : Nat),
      (s.standsInstr k (.amo op n rd rs1 rs2) len = true) →
      (u = s.lmUpset k upset) →
      ((u.core k).rx rs1 % n = 0) →
      (inLocal ((u.core k).rx rs1) n = true) →
      ((u.core k).lmBad ((u.core k).rx rs1) n = false) →
      Completes (.scalarInstruction k now cycle upset) s fun t =>
        (t = u.setCore k ((((u.core k).lmWrite ((u.core k).rx rs1) (leBytes n (amoEval op (8 * n) (ofLe ((u.core k).lmBytes ((u.core k).rx rs1) n)) ((u.core k).rx rs2)))).wx rd (unsign 64 (signed (8 * n) (ofLe ((u.core k).lmBytes ((u.core k).rx rs1) n))))).retire len))) ∧
  (∀ (s : State) (k now cycle len : Nat) (upset : Option (Nat × Bool)) (u : State) (d : Bool) (rd rs1 rs2 rm m : Nat),
      (s.standsInstr k (.fop .mul d rd rs1 rs2 rm) len = true) →
      (u = s.lmUpset k upset) →
      ((u.core k).mode rm = some m) →
      Completes (.scalarInstruction k now cycle upset) s fun t =>
        (t = u.setCore k (((u.core k).putF d rd ((fpFmt d).mulOp m ((u.core k).rf d rs1) ((u.core k).rf d rs2))).retire len))) ∧
  (∀ (s : State) (k now cycle len : Nat) (upset : Option (Nat × Bool)),
      (k < 256) →
      (s.coreReady k = true) →
      (s.fetch k = some (none, len)) →
      Completes (.scalarInstruction k now cycle upset) s fun t =>
        (t = s.stopsAt k 1 2)) ∧
  (∀ (s : State) (k now cycle : Nat) (upset : Option (Nat × Bool)),
      (k < 256) →
      (s.coreReady k = true) →
      (s.fetch k = none) →
      Completes (.scalarInstruction k now cycle upset) s fun t =>
        (t = s.stopsAt k 1 1))

/-- With endpoint, length and payload good and a credit there, both sends return 0, take one credit and the next sequence number, and put the
payload with the logical sender in flight on the channel. Without a credit th.sendnb returns 1 and th.send waits at most th_sendto. An
endpoint without a channel returns 2; a length that is no multiple of 8 from 8 to 2^SLOT_LOG2 - 8 returns 3; a misaligned payload is an
exception. Bits of rs2 that are to be zero and are not leave the code a free value of the state of the core (Config.coreVal, log 5): the
spec gives none. A credit that arrives counts. A wait that has expired returns 4 for a send, 0 for th.recv, -1 for th.wait and 1 for
th.dmawait. Errors found in local memory act first, and nothing else changes. -/
def Obligations.CoresSendMessages : Prop :=
  (∀ (s : State) (k rd rs1 rs2 : Nat) (upset : Option (Nat × Bool)) (u : State) (now : Nat) (ep len : Nat) (e : SendEnd),
      (s.standsAt k .send rd rs1 rs2 = true) →
      (u = s.lmUpset k upset) →
      ((u.core k).sendFits rs2 ep len e = true) →
      (0 < e.credits) →
      ((u.core k).payloadAt ((u.core k).rx rs1) len = true) →
      Completes (.thSend k now upset) s fun t =>
        (t = (u.sentOn k ep ((u.core k).rx rs1) len).returns k rd 0 ((u.sentOn k ep ((u.core k).rx rs1) len).core k))) ∧
  (∀ (s : State) (k rd rs1 rs2 : Nat) (upset : Option (Nat × Bool)) (u : State) (now : Nat) (ep len : Nat) (e : SendEnd),
      (s.standsAt k .send rd rs1 rs2 = true) →
      (u = s.lmUpset k upset) →
      ((u.core k).sendFits rs2 ep len e = true) →
      (0 < e.credits) →
      ((u.core k).rx rs1 % 8 ≠ 0) →
      Completes (.thSend k now upset) s fun t =>
        (t = u.setCore k { (u.core k) with run := .fault 1 4, wait := none })) ∧
  (∀ (s : State) (k rd rs1 rs2 : Nat) (upset : Option (Nat × Bool)) (u : State) (now : Nat) (ep len : Nat) (e : SendEnd),
      (s.standsAt k .send rd rs1 rs2 = true) →
      (u = s.lmUpset k upset) →
      ((u.core k).sendFits rs2 ep len e = true) →
      (e.credits = 0) →
      Completes (.thSend k now upset) s fun t =>
        (t = u.waits k now (u.core k).sendto .send ep rd ((u.core k).rx rs1) len)) ∧
  (∀ (s : State) (k rd rs1 rs2 : Nat) (upset : Option (Nat × Bool)) (u : State) (now : Nat) (ep len : Nat),
      (s.standsAt k .send rd rs1 rs2 = true) →
      (u = s.lmUpset k upset) →
      (ep < 32) →
      (len < 8192) →
      ((u.core k).rx rs2 = ep + len * 65536) →
      (Sparse.find (u.core k).send ep = none) →
      Completes (.thSend k now upset) s fun t =>
        (t = u.returns k rd 2 (u.core k))) ∧
  (∀ (s : State) (k rd rs1 rs2 : Nat) (upset : Option (Nat × Bool)) (u : State) (now : Nat) (ep len : Nat) (e : SendEnd),
      (s.standsAt k .send rd rs1 rs2 = true) →
      (u = s.lmUpset k upset) →
      (ep < 32) →
      (len < 8192) →
      ((u.core k).rx rs2 = ep + len * 65536) →
      (Sparse.find (u.core k).send ep = some e) →
      (len % 8 ≠ 0 ∨ len < 8 ∨ 2 ^ e.log2 < len + 8) →
      Completes (.thSend k now upset) s fun t =>
        (t = u.returns k rd 3 (u.core k))) ∧
  (∀ (s : State) (k rd rs1 rs2 : Nat) (upset : Option (Nat × Bool)) (u : State) (now : Nat) ,
      (s.standsAt k .send rd rs1 rs2 = true) →
      (u = s.lmUpset k upset) →
      ((u.core k).rx rs2 ≠ (u.core k).rx rs2 % 32 + bitsOf ((u.core k).rx rs2) 16 13 * 65536) →
      Completes (.thSend k now upset) s fun t =>
        (t = u.returns k rd (Config.coreVal 11 ((u.core k).rx rs2) (u.core k).instret) (u.core k))) ∧
  (∀ (s : State) (k rd rs1 rs2 : Nat) (upset : Option (Nat × Bool)) (u : State) (ep len : Nat) (e : SendEnd),
      (s.standsAt k .sendnb rd rs1 rs2 = true) →
      (u = s.lmUpset k upset) →
      ((u.core k).sendFits rs2 ep len e = true) →
      (0 < e.credits) →
      ((u.core k).payloadAt ((u.core k).rx rs1) len = true) →
      Completes (.thSendnb k upset) s fun t =>
        (t = (u.sentOn k ep ((u.core k).rx rs1) len).returns k rd 0 ((u.sentOn k ep ((u.core k).rx rs1) len).core k))) ∧
  (∀ (s : State) (k rd rs1 rs2 : Nat) (upset : Option (Nat × Bool)) (u : State) (ep len : Nat) (e : SendEnd),
      (s.standsAt k .sendnb rd rs1 rs2 = true) →
      (u = s.lmUpset k upset) →
      ((u.core k).sendFits rs2 ep len e = true) →
      (0 < e.credits) →
      ((u.core k).rx rs1 % 8 ≠ 0) →
      Completes (.thSendnb k upset) s fun t =>
        (t = u.setCore k { (u.core k) with run := .fault 1 4, wait := none })) ∧
  (∀ (s : State) (k rd rs1 rs2 : Nat) (upset : Option (Nat × Bool)) (u : State) (ep len : Nat) (e : SendEnd),
      (s.standsAt k .sendnb rd rs1 rs2 = true) →
      (u = s.lmUpset k upset) →
      ((u.core k).sendFits rs2 ep len e = true) →
      (e.credits = 0) →
      Completes (.thSendnb k upset) s fun t =>
        (t = u.returns k rd 1 (u.core k))) ∧
  (∀ (s : State) (k rd rs1 rs2 : Nat) (upset : Option (Nat × Bool)) (u : State) (ep len : Nat),
      (s.standsAt k .sendnb rd rs1 rs2 = true) →
      (u = s.lmUpset k upset) →
      (ep < 32) →
      (len < 8192) →
      ((u.core k).rx rs2 = ep + len * 65536) →
      (Sparse.find (u.core k).send ep = none) →
      Completes (.thSendnb k upset) s fun t =>
        (t = u.returns k rd 2 (u.core k))) ∧
  (∀ (s : State) (k rd rs1 rs2 : Nat) (upset : Option (Nat × Bool)) (u : State) (ep len : Nat) (e : SendEnd),
      (s.standsAt k .sendnb rd rs1 rs2 = true) →
      (u = s.lmUpset k upset) →
      (ep < 32) →
      (len < 8192) →
      ((u.core k).rx rs2 = ep + len * 65536) →
      (Sparse.find (u.core k).send ep = some e) →
      (len % 8 ≠ 0 ∨ len < 8 ∨ 2 ^ e.log2 < len + 8) →
      Completes (.thSendnb k upset) s fun t =>
        (t = u.returns k rd 3 (u.core k))) ∧
  (∀ (s : State) (k rd rs1 rs2 : Nat) (upset : Option (Nat × Bool)) (u : State) ,
      (s.standsAt k .sendnb rd rs1 rs2 = true) →
      (u = s.lmUpset k upset) →
      ((u.core k).rx rs2 ≠ (u.core k).rx rs2 % 32 + bitsOf ((u.core k).rx rs2) 16 13 * 65536) →
      Completes (.thSendnb k upset) s fun t =>
        (t = u.returns k rd (Config.coreVal 11 ((u.core k).rx rs2) (u.core k).instret) (u.core k))) ∧
  (∀ (s : State) (k ep : Nat) (c : CoreState),
      (k < 256) →
      (0 < ((s.core k).endAt ep).back) →
      ((s.core k).wait = none) →
      (c = { s.core k with send := Sparse.upd ({} : SendEnd) (s.core k).send ep { (s.core k).endAt ep with back := ((s.core k).endAt ep).back - 1, credits := ((s.core k).endAt ep).credits + 1 } }) →
      Completes (.creditArrive k ep) s fun t =>
        (t = s.setCore k c)) ∧
  (∀ (s : State) (k now d : Nat) (w : CoreWait),
      (k < 256) →
      ((s.core k).wait = some w) →
      (w.expire = some d) →
      (10 * d < now) →
      (w.what ≠ WaitFor.barrier) →
      Completes (.waitTimeout k now) s fun t =>
        (t = s.returns k w.rd (match w.what with | .send => 4 | .recv => 0 | .wait => 2 ^ 64 - 1 | _ => 1) (s.core k))) ∧
  (∀ (s : State) (k now : Nat),
      (k < 256) →
      ((s.core k).wait.all (fun (w : CoreWait) => w.what = WaitFor.barrier || w.expire.all (fun (d : Nat) => now ≤ 10 * d)) = true) →
      Completes (.waitTimeout k now) s fun t =>
        (t = s)) ∧
  (∀ (s : State) (k ep : Nat),
      (k < 256) →
      (((s.core k).endAt ep).back = 0) →
      Completes (.creditArrive k ep) s fun t =>
        (t = s))

/-- th.recv and th.peek return the address of the oldest slot not yet returned, which then counts as returned; with none th.peek returns 0 and
th.recv waits up to rs2. th.wait returns the lowest channel of the mask that holds a slot, and changes no ring, or waits. th.release frees
the oldest returned slot and sends its credit back, and does nothing without one. th.credits returns the credits of the endpoint. The oldest
message in flight lands in the next slot, with its header, and a core that waits for it goes on. No other part of the state changes. -/
def Obligations.CoresReceiveMessages : Prop :=
  (∀ (s : State) (k rd rs1 rs2 : Nat) (now : Nat),
      (s.standsAt k .recv rd rs1 rs2 = true) →
      ((s.core k).holds ((s.core k).rx rs1) = true) →
      Completes (.thRecv k now) s fun t =>
        (t = s.returns k rd ((s.core k).nextSlot ((s.core k).rx rs1)) ((s.core k).tookSlot ((s.core k).rx rs1)))) ∧
  (∀ (s : State) (k rd rs1 rs2 : Nat) (now : Nat),
      (s.standsAt k .recv rd rs1 rs2 = true) →
      ((s.core k).holds ((s.core k).rx rs1) = false) →
      Completes (.thRecv k now) s fun t =>
        (t = s.waits k now ((s.core k).rx rs2) .recv ((s.core k).rx rs1) rd 0 0)) ∧
  (∀ (s : State) (k rd rs1 rs2 : Nat) ,
      (s.standsAt k .peek rd rs1 rs2 = true) →
      ((s.core k).holds ((s.core k).rx rs1) = true) →
      Completes (.thPeek k) s fun t =>
        (t = s.returns k rd ((s.core k).nextSlot ((s.core k).rx rs1)) ((s.core k).tookSlot ((s.core k).rx rs1)))) ∧
  (∀ (s : State) (k rd rs1 rs2 : Nat) ,
      (s.standsAt k .peek rd rs1 rs2 = true) →
      ((s.core k).holds ((s.core k).rx rs1) = false) →
      Completes (.thPeek k) s fun t =>
        (t = s.returns k rd 0 (s.core k))) ∧
  (∀ (s : State) (k rd rs1 rs2 : Nat) (now ch : Nat),
      (s.standsAt k .wait rd rs1 rs2 = true) →
      (ch < 32) →
      (bitOf ((s.core k).rx rs1) ch = true) →
      ((s.core k).holds ch = true) →
      (((List.range ch).all fun (j : Nat) => !(bitOf ((s.core k).rx rs1) j && (s.core k).holds j)) = true) →
      Completes (.thWait k now) s fun t =>
        (t = s.returns k rd ch (s.core k))) ∧
  (∀ (s : State) (k rd rs1 rs2 : Nat) (now : Nat),
      (s.standsAt k .wait rd rs1 rs2 = true) →
      (((List.range 32).all fun (j : Nat) => !(bitOf ((s.core k).rx rs1) j && (s.core k).holds j)) = true) →
      Completes (.thWait k now) s fun t =>
        (t = s.waits k now ((s.core k).rx rs2) .wait ((s.core k).rx rs1) rd 0 0)) ∧
  (∀ (s : State) (k rd rs1 rs2 : Nat) (j ep : Nat) (r : Ring) (a : State),
      (s.standsAt k .release rd rs1 rs2 = true) →
      ((s.core k).rx rs1 < 32) →
      (r = (s.core k).ringAt ((s.core k).rx rs1)) →
      (r.freed < r.taken) →
      (r.srcCore = some (j, ep)) →
      (a = s.setCore k { (s.core k) with ring := Sparse.upd ({} : Ring) (s.core k).ring ((s.core k).rx rs1) { r with freed := r.freed + 1 } }) →
      Completes (.thRelease k) s fun t =>
        (let b : State := a.setCore j { a.core j with send := Sparse.upd ({} : SendEnd) (a.core j).send ep { (a.core j).endAt ep with back := ((a.core j).endAt ep).back + 1 } }; t = b.returns k 0 0 (b.core k))) ∧
  (∀ (s : State) (k rd rs1 rs2 : Nat) ,
      (s.standsAt k .release rd rs1 rs2 = true) →
      ((s.core k).rx rs1 < 32 → ((s.core k).ringAt ((s.core k).rx rs1)).taken ≤ ((s.core k).ringAt ((s.core k).rx rs1)).freed) →
      Completes (.thRelease k) s fun t =>
        (t = s.returns k 0 0 (s.core k))) ∧
  (∀ (s : State) (k rd rs1 rs2 : Nat) ,
      (s.standsAt k .credits rd rs1 rs2 = true) →
      ((s.core k).rx rs1 < 32) →
      Completes (.thCredits k) s fun t =>
        (t = s.returns k rd ((s.core k).endAt ((s.core k).rx rs1)).credits (s.core k))) ∧
  (∀ (s : State) (k ch : Nat) (m : ChanMsg) (rest : List ChanMsg),
      (k < 256) →
      ((s.core k).wait = none) →
      (((s.core k).ringAt ch).flight = m :: rest) →
      Completes (.messageArrive k ch) s fun t =>
        (t = s.setCore k (({ (s.core k) with ring := Sparse.upd ({} : Ring) (s.core k).ring ch { (s.core k).ringAt ch with flight := rest } }).land ch m))) ∧
  (∀ (s : State) (k ch : Nat) (m : ChanMsg) (rest : List ChanMsg) (w : CoreWait) (b : State),
      (k < 256) →
      ((s.core k).wait = some w) →
      (w.what = WaitFor.recv) →
      (w.arg = ch) →
      (((s.core k).ringAt ch).flight = m :: rest) →
      (b = s.setCore k (({ (s.core k) with ring := Sparse.upd ({} : Ring) (s.core k).ring ch { (s.core k).ringAt ch with flight := rest } }).land ch m)) →
      ((b.core k).wait = some w) →
      Completes (.messageArrive k ch) s fun t =>
        (t = b.returns k w.rd ((b.core k).nextSlot ch) ((b.core k).tookSlot ch)))

/-- A member that arrives while some other member has not arrived waits, up to its timeout, and stands among the arrivals. The last member to
arrive returns 0 with every member that waits, and the barrier is empty for its next round. A core that is no member, and a barrier without
an entry, return 2 at once. A member whose wait has expired withdraws its arrival and returns 1; until then, and for a core that waits at no
barrier, the timeout does nothing. -/
def Obligations.BarriersAndTheirTimeouts : Prop :=
  (∀ (s : State) (k rd rs1 rs2 : Nat) (now p : Nat),
      (s.standsAt k .barrier rd rs1 rs2 = true) →
      (s.partOf k = some p) →
      ((s.part p).members ((s.core k).rx rs1) = none) →
      Completes (.thBarrier k now) s fun t =>
        (t = s.returns k rd 2 (s.core k))) ∧
  (∀ (s : State) (k rd rs1 rs2 : Nat) (now p : Nat) (ms : List Nat),
      (s.standsAt k .barrier rd rs1 rs2 = true) →
      (s.partOf k = some p) →
      ((s.part p).members ((s.core k).rx rs1) = some ms) →
      (ms.contains ((s.part p).logical k) = false) →
      Completes (.thBarrier k now) s fun t =>
        (t = s.returns k rd 2 (s.core k))) ∧
  (∀ (s : State) (k rd rs1 rs2 : Nat) (now p : Nat) (ms : List Nat) (q : PartState) (a : State),
      (s.standsAt k .barrier rd rs1 rs2 = true) →
      (s.partOf k = some p) →
      ((s.part p).members ((s.core k).rx rs1) = some ms) →
      (ms.contains ((s.part p).logical k) = true) →
      (q = s.part p) →
      ((ms.all fun (i : Nat) => decide (i = q.logical k) || (Sparse.at [] q.arrive ((s.core k).rx rs1)).any fun (j : Nat) => decide (q.logical j = i)) = false) →
      (a = s.setPart p { q with arrive := Sparse.upd [] q.arrive ((s.core k).rx rs1) (Sparse.at [] q.arrive ((s.core k).rx rs1) ++ [k]) }) →
      Completes (.thBarrier k now) s fun t =>
        (t = a.waits k now ((s.core k).rx rs2) .barrier ((s.core k).rx rs1) rd 0 0)) ∧
  (∀ (s : State) (k rd rs1 rs2 : Nat) (now p : Nat) (ms ws : List Nat) (q : PartState) (a : State),
      (s.standsAt k .barrier rd rs1 rs2 = true) →
      (s.partOf k = some p) →
      ((s.part p).members ((s.core k).rx rs1) = some ms) →
      (ms.contains ((s.part p).logical k) = true) →
      (q = s.part p) →
      (ws = Sparse.at [] q.arrive ((s.core k).rx rs1)) →
      ((ms.all fun (i : Nat) => decide (i = q.logical k) || ws.any fun (j : Nat) => decide (q.logical j = i)) = true) →
      (a = ws.foldl (fun (x : State) (j : Nat) => (x.core j).wait.elim x fun (w : CoreWait) => x.returns j w.rd 0 (x.core j)) (s.setPart p { q with arrive := Sparse.upd [] q.arrive ((s.core k).rx rs1) [] })) →
      Completes (.thBarrier k now) s fun t =>
        (t = a.returns k rd 0 (a.core k))) ∧
  (∀ (s : State) (k now : Nat),
      (k < 256) →
      (s.partOf k = none ∨ (s.core k).wait.all (fun (w : CoreWait) => w.what ≠ WaitFor.barrier || w.expire.all (fun (d : Nat) => now ≤ 10 * d)) = true) →
      Completes (.barrierTimeout k now) s fun t =>
        (t = s)) ∧
  (∀ (s : State) (k now p d : Nat) (w : CoreWait) (a : State),
      (k < 256) →
      ((s.core k).wait = some w) →
      (s.partOf k = some p) →
      (w.what = WaitFor.barrier) →
      (w.expire = some d) →
      (10 * d < now) →
      (a = s.setPart p { s.part p with arrive := Sparse.upd [] (s.part p).arrive w.arg ((Sparse.at [] (s.part p).arrive w.arg).filter fun (j : Nat) => decide (j ≠ k)) }) →
      Completes (.barrierTimeout k now) s fun t =>
        (t = a.returns k w.rd 1 (a.core k)))

/-- On a running core, ecall with a7 zero makes it DONE; while another core of its partition is not, nothing else changes. An ecall with another
a7 leaves it at an ecall fault. ebreak halts it for the debugger while DEBUG_EN is set, and is a breakpoint exception otherwise. A core
fault of a running partition records the lowest faulting core with its kind, cause and pc in TH_PART_FAULT and TH_PART_EPC, is recorded in
the log, and the partition shows STOPPING: it owes a restart at 100 ms or later where AUTO_RESTART is set and fewer than four restarts fell
in the last 10 minutes, and ends FAULTED otherwise. -/
def Obligations.EndsOfARunAndCoreFaults : Prop :=
  (∀ (s : State) (k len p : Nat),
      (s.standsInstr k .ecall len = true) →
      ((s.core k).rx 17 = 0) →
      (s.partOf k = some p) →
      (((s.part p).cores.all fun (j : Nat) => decide (((s.setCore k { s.core k with run := .done, resv := none }).core j).run = CoreRun.done)) = false) →
      Completes (.ecall k) s fun t =>
        (t = s.setCore k { s.core k with run := .done, resv := none })) ∧
  (∀ (s : State) (k len : Nat),
      (s.standsInstr k .ecall len = true) →
      ((s.core k).rx 17 ≠ 0) →
      Completes (.ecall k) s fun t =>
        (t = s.stopsAt k 3 0)) ∧
  (∀ (s : State) (k len p : Nat),
      (s.standsInstr k .ebreak len = true) →
      (s.partOf k = some p) →
      ((s.part p).cfgBit 27 = true) →
      Completes (.ebreak k) s fun t =>
        (t = s.setCore k { s.core k with run := .debug })) ∧
  (∀ (s : State) (k len p : Nat),
      (s.standsInstr k .ebreak len = true) →
      (s.partOf k = some p) →
      ((s.part p).cfgBit 27 = false) →
      Completes (.ebreak k) s fun t =>
        (t = s.stopsAt k 1 3)) ∧
  (∀ (s : State) (p now k kd cs : Nat),
      (s.canonical = true) →
      (p < 16) →
      (s.partState p = partRunning) →
      (s.faultedCore p = some (k, kd, cs)) →
      Completes (.coreFault p now) s fun t =>
        (t.rd (Reg.TH_PART_FAULT.addr p 0) = BitVec.ofNat 32 (k * 2 ^ 24 + kd * 256 + cs)) ∧
        (SetsPair t Reg.TH_PART_EPC_LO p ((s.core k).pc % 2 ^ 64)) ∧
        (t.partState p = partStopping) ∧
        (t.events = s.events ++ [LogEvent.mk 0x0601 p [p, k, kd, cs, (s.core k).pc]]) ∧
        (Raises s t 5 [1]) ∧
        (SetsField s t Reg.TH_STATUS_RUNNING 0 (putBit (s.getF Reg.TH_STATUS_RUNNING) p false)) ∧
        (t.th = ((s.haltPart p).setPart p { (s.haltPart p).part p with faulting := !(s.retries p now), restarts := (s.part p).restarts.filter fun (x : Nat) => decide (now < x + tenMinutes), restartAt := if s.retries p now then some (now + 100000000) else none }).th) ∧
        (OnlyRegs s t [(Reg.TH_PART_FAULT.addr p 0), (Reg.TH_PART_EPC_LO.addr p 0), (Reg.TH_PART_EPC_HI.addr p 0), (Reg.TH_PART_STAT.addr p 0), (Reg.TH_STATUS.addr 0 0), (Reg.SYS_IRQ_CAUSE.addr 5 0)]) ∧
        (t = { s with regs := t.regs, th := t.th, events := t.events }))

/-- th.dma with a good descriptor address and a free tag stores the descriptor with the outcome of the whole check and returns 0; with a tag in
use it returns 1; a tag above 15 returns a free value of its operands (Config.coreVal, log 5) as the spec gives none. A WRITE that passed
the check, with no older READ of its slot to wait for, stores its 64-byte blocks to the stack when it completes; one that failed moves
nothing. A READ that passed it copies its blocks, sound ones, to local memory in order. A transfer that is complete or has to wait, and a
tag without one, is left alone. th.dmawait and th.dmapoll return NO_TAG without a transfer, the outcome of a complete one, which frees the
tag; while it runs th.dmapoll returns 1 and th.dmawait waits. The register file stays. -/
def Obligations.TransfersBetweenCoresAndStack : Prop :=
  (∀ (s : State) (k rd rs1 rs2 : Nat) (upset : Option (Nat × Bool)) (u : State) (v : State),
      (s.standsAt k .dma rd rs1 rs2 = true) →
      (u = s.lmUpset k upset) →
      ((u.core k).rx rs1 % 32 = 0) →
      (inLocal ((u.core k).rx rs1) 32 = true) →
      ((u.core k).lmBad ((u.core k).rx rs1) 32 = false) →
      ((u.core k).rx rs2 < 16) →
      (Sparse.at none (u.core k).dma ((u.core k).rx rs2) = none) →
      (v = { u with th := { u.th with issued := u.th.issued + 1 } }) →
      Completes (.thDma k upset) s fun t =>
        (t = v.returns k rd 0 { (u.core k) with dma := Sparse.upd none (u.core k).dma ((u.core k).rx rs2) (some { readDesc ((u.core k).lmBytes ((u.core k).rx rs1) 32) u.th.issued with code := u.dmaCheck k ((u.core k).lmBytes ((u.core k).rx rs1) 32) }) })) ∧
  (∀ (s : State) (k rd rs1 rs2 : Nat) (upset : Option (Nat × Bool)) (u : State) ,
      (s.standsAt k .dma rd rs1 rs2 = true) →
      (u = s.lmUpset k upset) →
      ((u.core k).rx rs1 % 32 = 0) →
      (inLocal ((u.core k).rx rs1) 32 = true) →
      ((u.core k).lmBad ((u.core k).rx rs1) 32 = false) →
      ((u.core k).rx rs2 < 16) →
      ((Sparse.at none (u.core k).dma ((u.core k).rx rs2)).isSome = true) →
      Completes (.thDma k upset) s fun t =>
        (t = u.returns k rd 1 (u.core k))) ∧
  (∀ (s : State) (k rd rs1 rs2 : Nat) (upset : Option (Nat × Bool)) (u : State) ,
      (s.standsAt k .dma rd rs1 rs2 = true) →
      (u = s.lmUpset k upset) →
      ((u.core k).rx rs1 % 32 = 0) →
      (inLocal ((u.core k).rx rs1) 32 = true) →
      ((u.core k).lmBad ((u.core k).rx rs1) 32 = false) →
      (16 ≤ (u.core k).rx rs2) →
      Completes (.thDma k upset) s fun t =>
        (t = u.returns k rd (Config.coreVal 12 ((u.core k).rx rs2) (u.core k).instret) (u.core k))) ∧
  (∀ (s : State) (k tag : Nat) (bad : List (Nat × List (Nat × Nat))) (d : Dma),
      (s.canonical = true) →
      (k < 256) →
      (Sparse.at none (s.core k).dma tag = some d) →
      (d.complete = false) →
      (d.code = 0) →
      (d.write = true) →
      (s.writeWaits d = false) →
      ((s.core k).wait = none) →
      Completes (.dmaComplete k tag bad) s fun t =>
        (t.th = (s.setCore k { s.core k with dma := Sparse.upd none (s.core k).dma tag (some { d with complete := true }) }).th) ∧
        (t.mem = (d.blocks.foldl (fun (m : State) (b : Nat × Nat) => m.stackWrite b.1 ((s.core k).lmBytes b.2 64)) s).mem) ∧
        (t.regs = s.regs) ∧
        (t = { s with th := t.th, mem := t.mem, poison := t.poison })) ∧
  (∀ (s : State) (k tag : Nat) (d : Dma) (a : State),
      (k < 256) →
      (Sparse.at none (s.core k).dma tag = some d) →
      (d.complete = false) →
      (d.code = 0) →
      (d.write = false) →
      (d.kept = []) →
      (d.blocks.all (fun (b : Nat × Nat) => !Sparse.at false s.poison (b.1 / 64)) = true) →
      ((s.core k).wait = none) →
      (a = d.blocks.foldl (fun (x : State) (b : Nat × Nat) => x.setCore k (((x.core k).lmWrite b.2 (x.memBytes b.1 64)).breakResv b.2 64)) s) →
      Completes (.dmaComplete k tag []) s fun t =>
        (t = a.setCore k { a.core k with dma := Sparse.upd none (a.core k).dma tag (some { d with complete := true }) })) ∧
  (∀ (s : State) (k tag : Nat) (bad : List (Nat × List (Nat × Nat))) (d : Dma),
      (k < 256) →
      (Sparse.at none (s.core k).dma tag = some d) →
      (d.complete = true ∨ d.code = 0 ∧ s.writeWaits d = true) →
      Completes (.dmaComplete k tag bad) s fun t =>
        (t = s)) ∧
  (∀ (s : State) (k tag : Nat) (bad : List (Nat × List (Nat × Nat))),
      (k < 256) →
      (Sparse.at none (s.core k).dma tag = none) →
      Completes (.dmaComplete k tag bad) s fun t =>
        (t = s)) ∧
  (∀ (s : State) (k tag : Nat) (bad : List (Nat × List (Nat × Nat))) (d : Dma),
      (k < 256) →
      (Sparse.at none (s.core k).dma tag = some d) →
      (d.complete = false) →
      (d.code ≠ 0) →
      ((s.core k).wait = none) →
      Completes (.dmaComplete k tag bad) s fun t =>
        (t = s.setCore k { s.core k with dma := Sparse.upd none (s.core k).dma tag (some { d with complete := true }) })) ∧
  (∀ (s : State) (k tag : Nat) (bad : List (Nat × List (Nat × Nat))) (d : Dma) (w : CoreWait) (a : State),
      (k < 256) →
      (Sparse.at none (s.core k).dma tag = some d) →
      (d.complete = false) →
      (d.code ≠ 0) →
      ((s.core k).wait = some w) →
      (w.what = WaitFor.dma) →
      (w.arg = tag) →
      (a = s.setCore k { s.core k with dma := Sparse.upd none (s.core k).dma tag (some { d with complete := true }) }) →
      Completes (.dmaComplete k tag bad) s fun t =>
        (t = a.returns k w.rd d.code { a.core k with dma := Sparse.upd none (a.core k).dma tag none })) ∧
  (∀ (s : State) (k rd rs1 rs2 : Nat) (now : Nat) (d : Dma),
      (s.standsAt k .dmawait rd rs1 rs2 = true) →
      (Sparse.at none (s.core k).dma ((s.core k).rx rs1) = some d) →
      (d.complete = true) →
      Completes (.thDmawait k now) s fun t =>
        (t = s.returns k rd d.code { (s.core k) with dma := Sparse.upd none (s.core k).dma ((s.core k).rx rs1) none })) ∧
  (∀ (s : State) (k rd rs1 rs2 : Nat) (now : Nat),
      (s.standsAt k .dmawait rd rs1 rs2 = true) →
      (Sparse.at none (s.core k).dma ((s.core k).rx rs1) = none) →
      Completes (.thDmawait k now) s fun t =>
        (t = s.returns k rd 5 (s.core k))) ∧
  (∀ (s : State) (k rd rs1 rs2 : Nat) (now : Nat) (d : Dma),
      (s.standsAt k .dmawait rd rs1 rs2 = true) →
      (Sparse.at none (s.core k).dma ((s.core k).rx rs1) = some d) →
      (d.complete = false) →
      Completes (.thDmawait k now) s fun t =>
        (t = s.waits k now ((s.core k).rx rs2) .dma ((s.core k).rx rs1) rd 0 0)) ∧
  (∀ (s : State) (k rd rs1 rs2 : Nat)  (d : Dma),
      (s.standsAt k .dmapoll rd rs1 rs2 = true) →
      (Sparse.at none (s.core k).dma ((s.core k).rx rs1) = some d) →
      (d.complete = true) →
      Completes (.thDmapoll k) s fun t =>
        (t = s.returns k rd d.code { (s.core k) with dma := Sparse.upd none (s.core k).dma ((s.core k).rx rs1) none })) ∧
  (∀ (s : State) (k rd rs1 rs2 : Nat) ,
      (s.standsAt k .dmapoll rd rs1 rs2 = true) →
      (Sparse.at none (s.core k).dma ((s.core k).rx rs1) = none) →
      Completes (.thDmapoll k) s fun t =>
        (t = s.returns k rd 5 (s.core k))) ∧
  (∀ (s : State) (k rd rs1 rs2 : Nat)  (d : Dma),
      (s.standsAt k .dmapoll rd rs1 rs2 = true) →
      (Sparse.at none (s.core k).dma ((s.core k).rx rs1) = some d) →
      (d.complete = false) →
      Completes (.thDmapoll k) s fun t =>
        (t = s.returns k rd 1 (s.core k)))

/-- th.pub of a good record for a lane of the partition stages it for the lane, remembers when and from which core it landed, and returns 0;
where no earlier record of the interval was missing nothing else changes. A lane outside the partition's mask returns 1; a record with more
than 160 near or 200 far points or not aligned to 64 bytes returns 2; neither stages anything. th.slotsel with a model below 16 and slot 0
or 1 stages the selection and returns 0; any other operand returns 1 and stages nothing. -/
def Obligations.PublicationAndSlotSelection : Prop :=
  (∀ (s : State) (k rd rs1 rs2 : Nat) (upset : Option (Nat × Bool)) (u : State) (now p : Nat) (r : LaneRec) (v : State),
      (s.standsAt k .pub rd rs1 rs2 = true) →
      (u = s.lmUpset k upset) →
      (u.partOf k = some p) →
      ((u.core k).rx rs2 < 64) →
      (bitOf ((u.part p).word (9 + (u.core k).rx rs2 / 32)) ((u.core k).rx rs2 % 32) = true) →
      ((u.core k).rx rs1 % 64 = 0) →
      (inLocal ((u.core k).rx rs1) 1536 = true) →
      ((u.core k).lmBad ((u.core k).rx rs1) 1536 = false) →
      (leAt ((u.core k).lmBytes ((u.core k).rx rs1) 1536) 4 2 ≤ 160) →
      (leAt ((u.core k).lmBytes ((u.core k).rx rs1) 1536) 6 2 ≤ 200) →
      (Sparse.find u.th.pubBy ((u.core k).rx rs2) = none) →
      ((u.wbLane ((u.core k).rx rs2)).missed = 0) →
      (r = readLane ((u.core k).lmBytes ((u.core k).rx rs1) 1536) p) →
      (v.th = { u.th with pubBy := Sparse.insert u.th.pubBy ((u.core k).rx rs2) (now, k) }) →
      (v.wb = (u.setWbLane ((u.core k).rx rs2) { u.wbLane ((u.core k).rx rs2) with staged := some r }).wb) →
      (v = { u with th := v.th, wb := v.wb }) →
      Completes (.thPub k now upset) s fun t =>
        (t = v.returns k rd 0 (u.core k))) ∧
  (∀ (s : State) (k rd rs1 rs2 : Nat) (upset : Option (Nat × Bool)) (u : State) (now p : Nat),
      (s.standsAt k .pub rd rs1 rs2 = true) →
      (u = s.lmUpset k upset) →
      (u.partOf k = some p) →
      (64 ≤ (u.core k).rx rs2 ∨ bitOf ((u.part p).word (9 + (u.core k).rx rs2 / 32)) ((u.core k).rx rs2 % 32) = false) →
      Completes (.thPub k now upset) s fun t =>
        (t = u.returns k rd 1 (u.core k))) ∧
  (∀ (s : State) (k rd rs1 rs2 : Nat) (upset : Option (Nat × Bool)) (u : State) (now p : Nat),
      (s.standsAt k .pub rd rs1 rs2 = true) →
      (u = s.lmUpset k upset) →
      (u.partOf k = some p) →
      ((u.core k).rx rs2 < 64) →
      (bitOf ((u.part p).word (9 + (u.core k).rx rs2 / 32)) ((u.core k).rx rs2 % 32) = true) →
      ((u.core k).rx rs1 % 64 ≠ 0) →
      Completes (.thPub k now upset) s fun t =>
        (t = u.returns k rd 2 (u.core k))) ∧
  (∀ (s : State) (k rd rs1 rs2 : Nat) (upset : Option (Nat × Bool)) (u : State) (now p : Nat),
      (s.standsAt k .pub rd rs1 rs2 = true) →
      (u = s.lmUpset k upset) →
      (u.partOf k = some p) →
      ((u.core k).rx rs2 < 64) →
      (bitOf ((u.part p).word (9 + (u.core k).rx rs2 / 32)) ((u.core k).rx rs2 % 32) = true) →
      ((u.core k).rx rs1 % 64 = 0) →
      (inLocal ((u.core k).rx rs1) 1536 = true) →
      ((u.core k).lmBad ((u.core k).rx rs1) 1536 = false) →
      (160 < leAt ((u.core k).lmBytes ((u.core k).rx rs1) 1536) 4 2 ∨ 200 < leAt ((u.core k).lmBytes ((u.core k).rx rs1) 1536) 6 2) →
      Completes (.thPub k now upset) s fun t =>
        (t = u.returns k rd 2 (u.core k))) ∧
  (∀ (s : State) (k rd rs1 rs2 : Nat) (p : Nat),
      (s.standsAt k .slotsel rd rs1 rs2 = true) →
      (s.partOf k = some p) →
      ((s.core k).rx rs1 < 16) →
      ((s.core k).rx rs2 < 2) →
      Completes (.thSlotsel k) s fun t =>
        (t = (s.setPart p { s.part p with sel := Sparse.upd none (s.part p).sel ((s.core k).rx rs1) (some ((s.core k).rx rs2)) }).returns k rd 0 (s.core k))) ∧
  (∀ (s : State) (k rd rs1 rs2 : Nat) (p : Nat),
      (s.standsAt k .slotsel rd rs1 rs2 = true) →
      (s.partOf k = some p) →
      (16 ≤ (s.core k).rx rs1 ∨ 2 ≤ (s.core k).rx rs2) →
      Completes (.thSlotsel k) s fun t =>
        (t = s.returns k rd 1 (s.core k)))

/-- th.tzero makes all 256 elements of the named tile zero; th.tld fills them with the 1,024 bytes at rs1; th.tst stores them there. With valid
operand formats and readable operands of 256 or 512 bytes, th.tmma gives every element (i, j) of the tile the value and flags that R183 to
R185 give its old pattern, row i of A and column j of B; th.tmma.t takes row j of B instead. Formats that do not go together raise an
illegal-instruction exception, a misaligned tile its exception. Other tiles, local memory and the rest of the state stay. -/
def Obligations.TensorTilesAndProducts : Prop :=
  (∀ (s : State) (k rd rs1 rs2 : Nat) ,
      (s.standsAt k .tzero rd rs1 rs2 = true) →
      Completes (.thTzero k) s fun t =>
        (t = s.returns k 0 0 ((s.core k).setAcc rd (List.replicate 256 0)))) ∧
  (∀ (s : State) (k rd rs1 rs2 : Nat) (upset : Option (Nat × Bool)) (u : State) ,
      (s.standsAt k .tld rd rs1 rs2 = true) →
      (u = s.lmUpset k upset) →
      ((u.core k).rx rs1 % 64 = 0) →
      (inLocal ((u.core k).rx rs1) 1024 = true) →
      ((u.core k).lmBad ((u.core k).rx rs1) 1024 = false) →
      Completes (.thTld k upset) s fun t =>
        (t = u.returns k 0 0 ((u.core k).setAcc rd (splitLe 4 256 ((u.core k).lmBytes ((u.core k).rx rs1) 1024))))) ∧
  (∀ (s : State) (k rd rs1 rs2 : Nat) ,
      (s.standsAt k .tst rd rs1 rs2 = true) →
      ((s.core k).rx rs1 % 64 = 0) →
      (inLocal ((s.core k).rx rs1) 1024 = true) →
      Completes (.thTst k) s fun t =>
        (t = s.returns k 0 0 ((s.core k).lmWrite ((s.core k).rx rs1) ((Sparse.range 0 (s.core k).tile (256 * rd) 256).flatMap (leBytes 4))))) ∧
  (∀ (s : State) (k rd rs1 rs2 : Nat) (upset : Option (Nat × Bool)) (u : State) ,
      (s.standsAt k .tld rd rs1 rs2 = true) →
      (u = s.lmUpset k upset) →
      ((u.core k).rx rs1 % 64 ≠ 0) →
      Completes (.thTld k upset) s fun t =>
        (t = u.stopsAt k 1 4)) ∧
  (∀ (s : State) (k rd rs1 rs2 : Nat) ,
      (s.standsAt k .tst rd rs1 rs2 = true) →
      ((s.core k).rx rs1 % 64 ≠ 0) →
      Completes (.thTst k) s fun t =>
        (t = s.stopsAt k 1 6)) ∧
  (∀ (s : State) (k rd rs1 rs2 : Nat) (upset : Option (Nat × Bool)) (u : State) ,
      (s.standsAt k .tmma rd rs1 rs2 = true) →
      (u = s.lmUpset k upset) →
      (tfOk (tfA (u.core k).tfmt) (tfB (u.core k).tfmt) = true) →
      ((u.core k).rx rs1 % 64 = 0) →
      (inLocal ((u.core k).rx rs1) (256 * tfSize (tfA (u.core k).tfmt)) = true) →
      ((u.core k).lmBad ((u.core k).rx rs1) (256 * tfSize (tfA (u.core k).tfmt)) = false) →
      ((u.core k).rx rs2 % 64 = 0) →
      (inLocal ((u.core k).rx rs2) (256 * tfSize (tfA (u.core k).tfmt)) = true) →
      ((u.core k).lmBad ((u.core k).rx rs2) (256 * tfSize (tfA (u.core k).tfmt)) = false) →
      Completes (.thTmma k upset) s fun t =>
        (∀ out ∈ [(u.core k).products rd ((u.core k).rx rs1) ((u.core k).rx rs2) false], t = u.returns k 0 0 (((u.core k).setAcc rd (out.map Prod.fst)).raise (out.foldl (fun (m : Nat) (o : Nat × Nat) => m ||| o.2) 0)))) ∧
  (∀ (s : State) (k rd rs1 rs2 : Nat) (upset : Option (Nat × Bool)) (u : State) ,
      (s.standsAt k .tmma rd rs1 rs2 = true) →
      (u = s.lmUpset k upset) →
      (tfOk (tfA (u.core k).tfmt) (tfB (u.core k).tfmt) = false) →
      Completes (.thTmma k upset) s fun t =>
        (t = u.stopsAt k 1 2)) ∧
  (∀ (s : State) (k rd rs1 rs2 : Nat) (upset : Option (Nat × Bool)) (u : State) ,
      (s.standsAt k .tmmaT rd rs1 rs2 = true) →
      (u = s.lmUpset k upset) →
      (tfOk (tfA (u.core k).tfmt) (tfB (u.core k).tfmt) = true) →
      ((u.core k).rx rs1 % 64 = 0) →
      (inLocal ((u.core k).rx rs1) (256 * tfSize (tfA (u.core k).tfmt)) = true) →
      ((u.core k).lmBad ((u.core k).rx rs1) (256 * tfSize (tfA (u.core k).tfmt)) = false) →
      ((u.core k).rx rs2 % 64 = 0) →
      (inLocal ((u.core k).rx rs2) (256 * tfSize (tfA (u.core k).tfmt)) = true) →
      ((u.core k).lmBad ((u.core k).rx rs2) (256 * tfSize (tfA (u.core k).tfmt)) = false) →
      Completes (.thTmmaT k upset) s fun t =>
        (∀ out ∈ [(u.core k).products rd ((u.core k).rx rs1) ((u.core k).rx rs2) true], t = u.returns k 0 0 (((u.core k).setAcc rd (out.map Prod.fst)).raise (out.foldl (fun (m : Nat) (o : Nat × Nat) => m ||| o.2) 0)))) ∧
  (∀ (s : State) (k rd rs1 rs2 : Nat) (upset : Option (Nat × Bool)) (u : State) ,
      (s.standsAt k .tmmaT rd rs1 rs2 = true) →
      (u = s.lmUpset k upset) →
      (tfOk (tfA (u.core k).tfmt) (tfB (u.core k).tfmt) = false) →
      Completes (.thTmmaT k upset) s fun t =>
        (t = u.stopsAt k 1 2))

/-- With both ranges aligned, below th_lmtop and not overlapping against R186, each of the ten conversions reads th_cvt_n elements at rs1,
writes the converted elements at rs2, joins their flags to fcsr and passes on. A narrowing one with funct3 001 rounds with the random
numbers of th_rng, four to a step, and leaves th_rng stepped; the others leave it. Where the ranges are not as R186 requires the core stands
at an exception and nothing is written. Nothing else changes. -/
def Obligations.ConversionsNarrowAndWiden : Prop :=
  (∀ (s : State) (k rd rs1 rs2 : Nat) (upset : Option (Nat × Bool)) (u : State) (o : List Byte × Nat),
      (s.standsAt k (.narrow .e4m3 false) rd rs1 rs2 = true) →
      (u = s.lmUpset k upset) →
      ((u.core k).cvtFault ((u.core k).rx rs1) (4 * (u.core k).cvtN) ((u.core k).rx rs2) (CvtFmt.bytes .e4m3 (u.core k).cvtN) true = none) →
      (o = narrowAll .e4m3 (tfCvtShift (u.core k).tfmt) ((splitLe 4 (u.core k).cvtN ((u.core k).lmBytes ((u.core k).rx rs1) (4 * (u.core k).cvtN))).map fun (x : Nat) => (x, none))) →
      Completes (.thCvtE4m3F32 k upset) s fun t =>
        (t = u.returns k 0 0 (((u.core k).lmWrite ((u.core k).rx rs2) o.1).raise o.2))) ∧
  (∀ (s : State) (k rd rs1 rs2 : Nat) (upset : Option (Nat × Bool)) (u : State) (o : List Byte × Nat),
      (s.standsAt k (.narrow .e4m3 true) rd rs1 rs2 = true) →
      (u = s.lmUpset k upset) →
      ((u.core k).cvtFault ((u.core k).rx rs1) (4 * (u.core k).cvtN) ((u.core k).rx rs2) (CvtFmt.bytes .e4m3 (u.core k).cvtN) true = none) →
      (o = narrowAll .e4m3 (tfCvtShift (u.core k).tfmt) ((splitLe 4 (u.core k).cvtN ((u.core k).lmBytes ((u.core k).rx rs1) (4 * (u.core k).cvtN))).zip ((rngRun ((u.core k).cvtN / 4) (u.core k).rng).1.map some))) →
      Completes (.thCvtE4m3F32 k upset) s fun t =>
        (t = u.returns k 0 0 { (((u.core k).lmWrite ((u.core k).rx rs2) o.1).raise o.2) with rng := (rngRun ((u.core k).cvtN / 4) (u.core k).rng).2 })) ∧
  (∀ (s : State) (k rd rs1 rs2 : Nat) (upset : Option (Nat × Bool)) (u : State) (o : List Byte × Nat),
      (s.standsAt k (.narrow .e5m2 false) rd rs1 rs2 = true) →
      (u = s.lmUpset k upset) →
      ((u.core k).cvtFault ((u.core k).rx rs1) (4 * (u.core k).cvtN) ((u.core k).rx rs2) (CvtFmt.bytes .e5m2 (u.core k).cvtN) true = none) →
      (o = narrowAll .e5m2 (tfCvtShift (u.core k).tfmt) ((splitLe 4 (u.core k).cvtN ((u.core k).lmBytes ((u.core k).rx rs1) (4 * (u.core k).cvtN))).map fun (x : Nat) => (x, none))) →
      Completes (.thCvtE5m2F32 k upset) s fun t =>
        (t = u.returns k 0 0 (((u.core k).lmWrite ((u.core k).rx rs2) o.1).raise o.2))) ∧
  (∀ (s : State) (k rd rs1 rs2 : Nat) (upset : Option (Nat × Bool)) (u : State) (o : List Byte × Nat),
      (s.standsAt k (.narrow .e5m2 true) rd rs1 rs2 = true) →
      (u = s.lmUpset k upset) →
      ((u.core k).cvtFault ((u.core k).rx rs1) (4 * (u.core k).cvtN) ((u.core k).rx rs2) (CvtFmt.bytes .e5m2 (u.core k).cvtN) true = none) →
      (o = narrowAll .e5m2 (tfCvtShift (u.core k).tfmt) ((splitLe 4 (u.core k).cvtN ((u.core k).lmBytes ((u.core k).rx rs1) (4 * (u.core k).cvtN))).zip ((rngRun ((u.core k).cvtN / 4) (u.core k).rng).1.map some))) →
      Completes (.thCvtE5m2F32 k upset) s fun t =>
        (t = u.returns k 0 0 { (((u.core k).lmWrite ((u.core k).rx rs2) o.1).raise o.2) with rng := (rngRun ((u.core k).cvtN / 4) (u.core k).rng).2 })) ∧
  (∀ (s : State) (k rd rs1 rs2 : Nat) (upset : Option (Nat × Bool)) (u : State) (o : List Byte × Nat),
      (s.standsAt k (.narrow .bf16 false) rd rs1 rs2 = true) →
      (u = s.lmUpset k upset) →
      ((u.core k).cvtFault ((u.core k).rx rs1) (4 * (u.core k).cvtN) ((u.core k).rx rs2) (CvtFmt.bytes .bf16 (u.core k).cvtN) true = none) →
      (o = narrowAll .bf16 (tfCvtShift (u.core k).tfmt) ((splitLe 4 (u.core k).cvtN ((u.core k).lmBytes ((u.core k).rx rs1) (4 * (u.core k).cvtN))).map fun (x : Nat) => (x, none))) →
      Completes (.thCvtBf16F32 k upset) s fun t =>
        (t = u.returns k 0 0 (((u.core k).lmWrite ((u.core k).rx rs2) o.1).raise o.2))) ∧
  (∀ (s : State) (k rd rs1 rs2 : Nat) (upset : Option (Nat × Bool)) (u : State) (o : List Byte × Nat),
      (s.standsAt k (.narrow .bf16 true) rd rs1 rs2 = true) →
      (u = s.lmUpset k upset) →
      ((u.core k).cvtFault ((u.core k).rx rs1) (4 * (u.core k).cvtN) ((u.core k).rx rs2) (CvtFmt.bytes .bf16 (u.core k).cvtN) true = none) →
      (o = narrowAll .bf16 (tfCvtShift (u.core k).tfmt) ((splitLe 4 (u.core k).cvtN ((u.core k).lmBytes ((u.core k).rx rs1) (4 * (u.core k).cvtN))).zip ((rngRun ((u.core k).cvtN / 4) (u.core k).rng).1.map some))) →
      Completes (.thCvtBf16F32 k upset) s fun t =>
        (t = u.returns k 0 0 { (((u.core k).lmWrite ((u.core k).rx rs2) o.1).raise o.2) with rng := (rngRun ((u.core k).cvtN / 4) (u.core k).rng).2 })) ∧
  (∀ (s : State) (k rd rs1 rs2 : Nat) (upset : Option (Nat × Bool)) (u : State) (o : List Byte × Nat),
      (s.standsAt k (.narrow .i8 false) rd rs1 rs2 = true) →
      (u = s.lmUpset k upset) →
      ((u.core k).cvtFault ((u.core k).rx rs1) (4 * (u.core k).cvtN) ((u.core k).rx rs2) (CvtFmt.bytes .i8 (u.core k).cvtN) true = none) →
      (o = narrowAll .i8 (tfCvtShift (u.core k).tfmt) ((splitLe 4 (u.core k).cvtN ((u.core k).lmBytes ((u.core k).rx rs1) (4 * (u.core k).cvtN))).map fun (x : Nat) => (x, none))) →
      Completes (.thCvtI8F32 k upset) s fun t =>
        (t = u.returns k 0 0 (((u.core k).lmWrite ((u.core k).rx rs2) o.1).raise o.2))) ∧
  (∀ (s : State) (k rd rs1 rs2 : Nat) (upset : Option (Nat × Bool)) (u : State) (o : List Byte × Nat),
      (s.standsAt k (.narrow .i8 true) rd rs1 rs2 = true) →
      (u = s.lmUpset k upset) →
      ((u.core k).cvtFault ((u.core k).rx rs1) (4 * (u.core k).cvtN) ((u.core k).rx rs2) (CvtFmt.bytes .i8 (u.core k).cvtN) true = none) →
      (o = narrowAll .i8 (tfCvtShift (u.core k).tfmt) ((splitLe 4 (u.core k).cvtN ((u.core k).lmBytes ((u.core k).rx rs1) (4 * (u.core k).cvtN))).zip ((rngRun ((u.core k).cvtN / 4) (u.core k).rng).1.map some))) →
      Completes (.thCvtI8F32 k upset) s fun t =>
        (t = u.returns k 0 0 { (((u.core k).lmWrite ((u.core k).rx rs2) o.1).raise o.2) with rng := (rngRun ((u.core k).cvtN / 4) (u.core k).rng).2 })) ∧
  (∀ (s : State) (k rd rs1 rs2 : Nat) (upset : Option (Nat × Bool)) (u : State) (o : List Byte × Nat),
      (s.standsAt k (.narrow .q12b false) rd rs1 rs2 = true) →
      (u = s.lmUpset k upset) →
      ((u.core k).cvtFault ((u.core k).rx rs1) (4 * (u.core k).cvtN) ((u.core k).rx rs2) (CvtFmt.bytes .q12b (u.core k).cvtN) true = none) →
      (o = narrowAll .q12b (tfCvtShift (u.core k).tfmt) ((splitLe 4 (u.core k).cvtN ((u.core k).lmBytes ((u.core k).rx rs1) (4 * (u.core k).cvtN))).map fun (x : Nat) => (x, none))) →
      Completes (.thCvtQ12bF32 k upset) s fun t =>
        (t = u.returns k 0 0 (((u.core k).lmWrite ((u.core k).rx rs2) o.1).raise o.2))) ∧
  (∀ (s : State) (k rd rs1 rs2 : Nat) (upset : Option (Nat × Bool)) (u : State) (o : List Byte × Nat),
      (s.standsAt k (.narrow .q12b true) rd rs1 rs2 = true) →
      (u = s.lmUpset k upset) →
      ((u.core k).cvtFault ((u.core k).rx rs1) (4 * (u.core k).cvtN) ((u.core k).rx rs2) (CvtFmt.bytes .q12b (u.core k).cvtN) true = none) →
      (o = narrowAll .q12b (tfCvtShift (u.core k).tfmt) ((splitLe 4 (u.core k).cvtN ((u.core k).lmBytes ((u.core k).rx rs1) (4 * (u.core k).cvtN))).zip ((rngRun ((u.core k).cvtN / 4) (u.core k).rng).1.map some))) →
      Completes (.thCvtQ12bF32 k upset) s fun t =>
        (t = u.returns k 0 0 { (((u.core k).lmWrite ((u.core k).rx rs2) o.1).raise o.2) with rng := (rngRun ((u.core k).cvtN / 4) (u.core k).rng).2 })) ∧
  (∀ (s : State) (k rd rs1 rs2 : Nat) (upset : Option (Nat × Bool)) (u : State) (o : List Nat × Nat),
      (s.standsAt k (.widen .e4m3) rd rs1 rs2 = true) →
      (u = s.lmUpset k upset) →
      ((u.core k).cvtFault ((u.core k).rx rs1) (CvtFmt.bytes .e4m3 (u.core k).cvtN) ((u.core k).rx rs2) (4 * (u.core k).cvtN) false = none) →
      (o = widenAll .e4m3 (tfCvtShift (u.core k).tfmt) (u.core k).cvtN ((u.core k).lmBytes ((u.core k).rx rs1) (CvtFmt.bytes .e4m3 (u.core k).cvtN))) →
      Completes (.thCvtF32E4m3 k upset) s fun t =>
        (t = u.returns k 0 0 (((u.core k).lmWrite ((u.core k).rx rs2) (o.1.flatMap (leBytes 4))).raise o.2))) ∧
  (∀ (s : State) (k rd rs1 rs2 : Nat) (upset : Option (Nat × Bool)) (u : State) (o : List Nat × Nat),
      (s.standsAt k (.widen .e5m2) rd rs1 rs2 = true) →
      (u = s.lmUpset k upset) →
      ((u.core k).cvtFault ((u.core k).rx rs1) (CvtFmt.bytes .e5m2 (u.core k).cvtN) ((u.core k).rx rs2) (4 * (u.core k).cvtN) false = none) →
      (o = widenAll .e5m2 (tfCvtShift (u.core k).tfmt) (u.core k).cvtN ((u.core k).lmBytes ((u.core k).rx rs1) (CvtFmt.bytes .e5m2 (u.core k).cvtN))) →
      Completes (.thCvtF32E5m2 k upset) s fun t =>
        (t = u.returns k 0 0 (((u.core k).lmWrite ((u.core k).rx rs2) (o.1.flatMap (leBytes 4))).raise o.2))) ∧
  (∀ (s : State) (k rd rs1 rs2 : Nat) (upset : Option (Nat × Bool)) (u : State) (o : List Nat × Nat),
      (s.standsAt k (.widen .bf16) rd rs1 rs2 = true) →
      (u = s.lmUpset k upset) →
      ((u.core k).cvtFault ((u.core k).rx rs1) (CvtFmt.bytes .bf16 (u.core k).cvtN) ((u.core k).rx rs2) (4 * (u.core k).cvtN) false = none) →
      (o = widenAll .bf16 (tfCvtShift (u.core k).tfmt) (u.core k).cvtN ((u.core k).lmBytes ((u.core k).rx rs1) (CvtFmt.bytes .bf16 (u.core k).cvtN))) →
      Completes (.thCvtF32Bf16 k upset) s fun t =>
        (t = u.returns k 0 0 (((u.core k).lmWrite ((u.core k).rx rs2) (o.1.flatMap (leBytes 4))).raise o.2))) ∧
  (∀ (s : State) (k rd rs1 rs2 : Nat) (upset : Option (Nat × Bool)) (u : State) (o : List Nat × Nat),
      (s.standsAt k (.widen .i8) rd rs1 rs2 = true) →
      (u = s.lmUpset k upset) →
      ((u.core k).cvtFault ((u.core k).rx rs1) (CvtFmt.bytes .i8 (u.core k).cvtN) ((u.core k).rx rs2) (4 * (u.core k).cvtN) false = none) →
      (o = widenAll .i8 (tfCvtShift (u.core k).tfmt) (u.core k).cvtN ((u.core k).lmBytes ((u.core k).rx rs1) (CvtFmt.bytes .i8 (u.core k).cvtN))) →
      Completes (.thCvtF32I8 k upset) s fun t =>
        (t = u.returns k 0 0 (((u.core k).lmWrite ((u.core k).rx rs2) (o.1.flatMap (leBytes 4))).raise o.2))) ∧
  (∀ (s : State) (k rd rs1 rs2 : Nat) (upset : Option (Nat × Bool)) (u : State) (o : List Nat × Nat),
      (s.standsAt k (.widen .q12b) rd rs1 rs2 = true) →
      (u = s.lmUpset k upset) →
      ((u.core k).cvtFault ((u.core k).rx rs1) (CvtFmt.bytes .q12b (u.core k).cvtN) ((u.core k).rx rs2) (4 * (u.core k).cvtN) false = none) →
      (o = widenAll .q12b (tfCvtShift (u.core k).tfmt) (u.core k).cvtN ((u.core k).lmBytes ((u.core k).rx rs1) (CvtFmt.bytes .q12b (u.core k).cvtN))) →
      Completes (.thCvtF32Q12b k upset) s fun t =>
        (t = u.returns k 0 0 (((u.core k).lmWrite ((u.core k).rx rs2) (o.1.flatMap (leBytes 4))).raise o.2))) ∧
  (∀ (s : State) (k rd rs1 rs2 kd cs : Nat) (upset : Option (Nat × Bool)) (u : State) (st : Bool),
      (s.standsAt k (.narrow .e4m3 st) rd rs1 rs2 = true) →
      (u = s.lmUpset k upset) →
      ((u.core k).cvtFault ((u.core k).rx rs1) (4 * (u.core k).cvtN) ((u.core k).rx rs2) (CvtFmt.bytes .e4m3 (u.core k).cvtN) true = some (kd, cs)) →
      Completes (.thCvtE4m3F32 k upset) s fun t =>
        (t = u.stopsAt k kd cs)) ∧
  (∀ (s : State) (k rd rs1 rs2 kd cs : Nat) (upset : Option (Nat × Bool)) (u : State) (st : Bool),
      (s.standsAt k (.narrow .e5m2 st) rd rs1 rs2 = true) →
      (u = s.lmUpset k upset) →
      ((u.core k).cvtFault ((u.core k).rx rs1) (4 * (u.core k).cvtN) ((u.core k).rx rs2) (CvtFmt.bytes .e5m2 (u.core k).cvtN) true = some (kd, cs)) →
      Completes (.thCvtE5m2F32 k upset) s fun t =>
        (t = u.stopsAt k kd cs)) ∧
  (∀ (s : State) (k rd rs1 rs2 kd cs : Nat) (upset : Option (Nat × Bool)) (u : State) (st : Bool),
      (s.standsAt k (.narrow .bf16 st) rd rs1 rs2 = true) →
      (u = s.lmUpset k upset) →
      ((u.core k).cvtFault ((u.core k).rx rs1) (4 * (u.core k).cvtN) ((u.core k).rx rs2) (CvtFmt.bytes .bf16 (u.core k).cvtN) true = some (kd, cs)) →
      Completes (.thCvtBf16F32 k upset) s fun t =>
        (t = u.stopsAt k kd cs)) ∧
  (∀ (s : State) (k rd rs1 rs2 kd cs : Nat) (upset : Option (Nat × Bool)) (u : State) (st : Bool),
      (s.standsAt k (.narrow .i8 st) rd rs1 rs2 = true) →
      (u = s.lmUpset k upset) →
      ((u.core k).cvtFault ((u.core k).rx rs1) (4 * (u.core k).cvtN) ((u.core k).rx rs2) (CvtFmt.bytes .i8 (u.core k).cvtN) true = some (kd, cs)) →
      Completes (.thCvtI8F32 k upset) s fun t =>
        (t = u.stopsAt k kd cs)) ∧
  (∀ (s : State) (k rd rs1 rs2 kd cs : Nat) (upset : Option (Nat × Bool)) (u : State) (st : Bool),
      (s.standsAt k (.narrow .q12b st) rd rs1 rs2 = true) →
      (u = s.lmUpset k upset) →
      ((u.core k).cvtFault ((u.core k).rx rs1) (4 * (u.core k).cvtN) ((u.core k).rx rs2) (CvtFmt.bytes .q12b (u.core k).cvtN) true = some (kd, cs)) →
      Completes (.thCvtQ12bF32 k upset) s fun t =>
        (t = u.stopsAt k kd cs)) ∧
  (∀ (s : State) (k rd rs1 rs2 kd cs : Nat) (upset : Option (Nat × Bool)) (u : State),
      (s.standsAt k (.widen .e4m3) rd rs1 rs2 = true) →
      (u = s.lmUpset k upset) →
      ((u.core k).cvtFault ((u.core k).rx rs1) (CvtFmt.bytes .e4m3 (u.core k).cvtN) ((u.core k).rx rs2) (4 * (u.core k).cvtN) false = some (kd, cs)) →
      Completes (.thCvtF32E4m3 k upset) s fun t =>
        (t = u.stopsAt k kd cs)) ∧
  (∀ (s : State) (k rd rs1 rs2 kd cs : Nat) (upset : Option (Nat × Bool)) (u : State),
      (s.standsAt k (.widen .e5m2) rd rs1 rs2 = true) →
      (u = s.lmUpset k upset) →
      ((u.core k).cvtFault ((u.core k).rx rs1) (CvtFmt.bytes .e5m2 (u.core k).cvtN) ((u.core k).rx rs2) (4 * (u.core k).cvtN) false = some (kd, cs)) →
      Completes (.thCvtF32E5m2 k upset) s fun t =>
        (t = u.stopsAt k kd cs)) ∧
  (∀ (s : State) (k rd rs1 rs2 kd cs : Nat) (upset : Option (Nat × Bool)) (u : State),
      (s.standsAt k (.widen .bf16) rd rs1 rs2 = true) →
      (u = s.lmUpset k upset) →
      ((u.core k).cvtFault ((u.core k).rx rs1) (CvtFmt.bytes .bf16 (u.core k).cvtN) ((u.core k).rx rs2) (4 * (u.core k).cvtN) false = some (kd, cs)) →
      Completes (.thCvtF32Bf16 k upset) s fun t =>
        (t = u.stopsAt k kd cs)) ∧
  (∀ (s : State) (k rd rs1 rs2 kd cs : Nat) (upset : Option (Nat × Bool)) (u : State),
      (s.standsAt k (.widen .i8) rd rs1 rs2 = true) →
      (u = s.lmUpset k upset) →
      ((u.core k).cvtFault ((u.core k).rx rs1) (CvtFmt.bytes .i8 (u.core k).cvtN) ((u.core k).rx rs2) (4 * (u.core k).cvtN) false = some (kd, cs)) →
      Completes (.thCvtF32I8 k upset) s fun t =>
        (t = u.stopsAt k kd cs)) ∧
  (∀ (s : State) (k rd rs1 rs2 kd cs : Nat) (upset : Option (Nat × Bool)) (u : State),
      (s.standsAt k (.widen .q12b) rd rs1 rs2 = true) →
      (u = s.lmUpset k upset) →
      ((u.core k).cvtFault ((u.core k).rx rs1) (CvtFmt.bytes .q12b (u.core k).cvtN) ((u.core k).rx rs2) (4 * (u.core k).cvtN) false = some (kd, cs)) →
      Completes (.thCvtF32Q12b k upset) s fun t =>
        (t = u.stopsAt k kd cs))

/-- For every extension instruction and all operands its encoding admits, the word Base + rd x 2^7 + rs1 x 2^15 + rs2 x 2^20 of R146 decodes to
that instruction with those operands. A word that decodes to an extension instruction is the word R146 gives it: no other encoding and no
non-zero field marked 0 does. Any other word of the opcodes 0x0B, 0x2B, 0x5B and 0x7B is no instruction, and a core that runs it raises an
illegal-instruction exception. The rule's example word 0x00C5950B is th.recv a0, a1, a2. -/
def Obligations.ExtensionEncodings : Prop :=
  (∀ (op : ThOp) (rd rs1 rs2 : Nat), op.fieldsOk rd rs1 rs2 = true →
    decode32 (op.base + rd * 2 ^ 7 + rs1 * 2 ^ 15 + rs2 * 2 ^ 20) = some (.ext op rd rs1 rs2)) ∧
  (∀ (w : Nat) (op : ThOp) (rd rs1 rs2 : Nat), w < 2 ^ 32 → decode32 w = some (.ext op rd rs1 rs2) →
    op.fieldsOk rd rs1 rs2 = true ∧ w = op.base + rd * 2 ^ 7 + rs1 * 2 ^ 15 + rs2 * 2 ^ 20) ∧
  (∀ (w : Nat) (r : Rv), w % 128 ∈ [0x0B, 0x2B, 0x5B, 0x7B] → decode32 w = some r → ∃ op rd rs1 rs2, r = .ext op rd rs1 rs2) ∧
  (∀ (s : State) (k now cycle : Nat) (upset : Option (Nat × Bool)), k < 256 → s.coreReady k = true → s.fetch k = some (none, 4) →
    exec (.scalarInstruction k now cycle upset) s = .next (s.stopsAt k 1 2)) ∧
  decode32 0x00C5950B = some (.ext .recv 10 11 12)

/-- LOAD in EMPTY, READY, STOPPED or FAULTED takes the partition's configuration words, wipes the cores it had, begins the checks of the image
at its source and shows LOADING; with EN clear it sets ERROR to 0x09 alone. The end of a good load writes the code to the code area and the
program's data and rings to every core, with each th_slot bit 0, and shows READY; a failed one shows its code and EMPTY with the cores
wiped. START waits for the next forecast boundary, STOP halts a RUNNING partition, ends a READY one and abandons a load, UNLOAD wipes it,
CLEAR makes FAULTED STOPPED. In any other state ERROR becomes 0x08 and nothing else changes. Every new state shows in TH_PART_STAT,
TH_STATUS and the partition causes. -/
def Obligations.PartitionCommands : Prop :=
  (∀ (s : State) (p : Nat) (r : Nat × Option Prog) (q : PartState),
      (s.canonical = true) →
      (p < 16) →
      (s.partState p = partEmpty ∨ s.partState p = partReady ∨ s.partState p = partStopped ∨ s.partState p = partFaulted) →
      (s.isF Reg.TH_PART_CFG_EN p = true) →
      (q = PartState.mk (s.partRegs p) none none false false false none (s.part p).restarts [] [] 0 0) →
      (r = s.progCheck q (if s.get64 Reg.TH_PART_SRC_LO p % 64 = 0 ∧ s.get64 Reg.TH_PART_SRC_LO p + s.getF Reg.TH_PART_LEN p ≤ stackSize then s.readStack (s.get64 Reg.TH_PART_SRC_LO p) (min (s.getF Reg.TH_PART_LEN p) (72 * 2 ^ 20)) else []) (s.getF Reg.TH_PART_LEN p)) →
      (r.1 ≠ 2) →
      Completes (.partLoad p) s fun t =>
        (t.th = ((s.wipeCores (s.part p).cores).setPart p { q with load := some r }).th) ∧
        (SetsFields s t (Reg.TH_PART_STAT.addr p 0) [(Reg.TH_PART_STAT_CORES, q.cores.length), (Reg.TH_PART_STAT_SUSPENDED, 0), (Reg.TH_PART_STAT_STATE, 1)]) ∧
        (SetsFields s t (Reg.TH_STATUS.addr 0 0) [(Reg.TH_STATUS_RUNNING, putBit (s.getF Reg.TH_STATUS_RUNNING) p false), (Reg.TH_STATUS_FAULTED, putBit (s.getF Reg.TH_STATUS_FAULTED) p false)]) ∧
        (Raises s t 5 [1]) ∧
        (OnlyRegs s t [(Reg.TH_PART_STAT.addr p 0), (Reg.TH_STATUS.addr 0 0), (Reg.SYS_IRQ_CAUSE.addr 5 0)]) ∧
        (t = { s with regs := t.regs, th := t.th })) ∧
  (∀ (s : State) (p : Nat),
      (s.canonical = true) →
      (p < 16) →
      (s.partState p = partEmpty) →
      (s.isF Reg.TH_PART_CFG_EN p = false) →
      Completes (.partLoad p) s fun t =>
        (SetsField s t Reg.TH_PART_STAT_ERROR p 9) ∧
        (OnlyRegs s t [(Reg.TH_PART_STAT.addr p 0)]) ∧
        (t = { s with regs := t.regs })) ∧
  (∀ (s : State) (p : Nat),
      (s.canonical = true) →
      (p < 16) →
      (s.partState p ≠ partEmpty ∧ s.partState p ≠ partReady ∧ s.partState p ≠ partStopped ∧ s.partState p ≠ partFaulted) →
      Completes (.partLoad p) s fun t =>
        (SetsField s t Reg.TH_PART_STAT_ERROR p 8) ∧
        (OnlyRegs s t [(Reg.TH_PART_STAT.addr p 0)]) ∧
        (t = { s with regs := t.regs })) ∧
  (∀ (s : State) (p code : Nat) (g : Prog),
      (s.canonical = true) →
      (p < 16) →
      (s.partState p = partLoading) →
      ((s.part p).load = some (code, some g)) →
      Completes (.partLoadComplete p) s fun t =>
        (t.th = ((s.setPart p { s.part p with load := none, prog := some g, start := (s.part p).cfgBit 29 }).prepare p).th) ∧
        (t.mem = Sparse.fill 0#8 s.mem (codeArea p) g.code) ∧
        (SetsFields s t (Reg.TH_PART_STAT.addr p 0) [(Reg.TH_PART_STAT_ERROR, code), (Reg.TH_PART_STAT_STATE, 2)]) ∧
        (SetsFields s t (Reg.TH_STATUS.addr 0 0) [(Reg.TH_STATUS_RUNNING, putBit (s.getF Reg.TH_STATUS_RUNNING) p false), (Reg.TH_STATUS_FAULTED, putBit (s.getF Reg.TH_STATUS_FAULTED) p false)]) ∧
        (Raises s t 5 [1]) ∧
        (OnlyRegs s t [(Reg.TH_PART_STAT.addr p 0), (Reg.TH_STATUS.addr 0 0), (Reg.SYS_IRQ_CAUSE.addr 5 0)]) ∧
        (t = { s with regs := t.regs, th := t.th, mem := t.mem, poison := t.poison })) ∧
  (∀ (s : State) (p code : Nat),
      (s.canonical = true) →
      (p < 16) →
      (s.partState p = partLoading) →
      ((s.part p).load = some (code, none)) →
      Completes (.partLoadComplete p) s fun t =>
        (t.th = ((s.wipeCores (s.part p).cores).setPart p { s.part p with load := none }).th) ∧
        (SetsFields s t (Reg.TH_PART_STAT.addr p 0) [(Reg.TH_PART_STAT_ERROR, code), (Reg.TH_PART_STAT_STATE, 0)]) ∧
        (SetsFields s t (Reg.TH_STATUS.addr 0 0) [(Reg.TH_STATUS_RUNNING, putBit (s.getF Reg.TH_STATUS_RUNNING) p false), (Reg.TH_STATUS_FAULTED, putBit (s.getF Reg.TH_STATUS_FAULTED) p false)]) ∧
        (Raises s t 5 [1]) ∧
        (OnlyRegs s t [(Reg.TH_PART_STAT.addr p 0), (Reg.TH_STATUS.addr 0 0), (Reg.SYS_IRQ_CAUSE.addr 5 0)]) ∧
        (t = { s with regs := t.regs, th := t.th })) ∧
  (∀ (s : State) (p : Nat),
      (s.canonical = true) →
      (p < 16) →
      (s.partState p = partReady) →
      Completes (.partStart p) s fun t =>
        (t = s.setPart p { s.part p with start := true })) ∧
  (∀ (s : State) (p : Nat),
      (s.canonical = true) →
      (p < 16) →
      (s.partState p = partStopped ∨ s.partState p = partFaulted) →
      Completes (.partStart p) s fun t =>
        (t.th = ((s.prepare p).setPart p { s.part p with start := true, restartAt := none }).th) ∧
        (SetsField s t Reg.TH_PART_STAT_SUSPENDED p 0) ∧
        (OnlyRegs s t [(Reg.TH_PART_STAT.addr p 0)]) ∧
        (t = { s with regs := t.regs, th := t.th })) ∧
  (∀ (s : State) (p : Nat),
      (s.canonical = true) →
      (p < 16) →
      (s.partState p ≠ partReady ∧ s.partState p ≠ partStopped ∧ s.partState p ≠ partFaulted) →
      Completes (.partStart p) s fun t =>
        (SetsField s t Reg.TH_PART_STAT_ERROR p 8) ∧
        (OnlyRegs s t [(Reg.TH_PART_STAT.addr p 0)]) ∧
        (t = { s with regs := t.regs })) ∧
  (∀ (s : State) (p : Nat),
      (s.canonical = true) →
      (p < 16) →
      (s.partState p = partRunning) →
      Completes (.partStop p) s fun t =>
        (t.th = (s.haltPart p).th) ∧
        (SetsFields s t (Reg.TH_PART_STAT.addr p 0) [(Reg.TH_PART_STAT_STATE, 4)]) ∧
        (SetsFields s t (Reg.TH_STATUS.addr 0 0) [(Reg.TH_STATUS_RUNNING, putBit (s.getF Reg.TH_STATUS_RUNNING) p false), (Reg.TH_STATUS_FAULTED, putBit (s.getF Reg.TH_STATUS_FAULTED) p false)]) ∧
        (Raises s t 5 [1]) ∧
        (OnlyRegs s t [(Reg.TH_PART_STAT.addr p 0), (Reg.TH_STATUS.addr 0 0), (Reg.SYS_IRQ_CAUSE.addr 5 0)]) ∧
        (t = { s with regs := t.regs, th := t.th })) ∧
  (∀ (s : State) (p : Nat),
      (s.canonical = true) →
      (p < 16) →
      (s.partState p = partReady) →
      Completes (.partStop p) s fun t =>
        (t.th = (s.setPart p { s.part p with start := false }).th) ∧
        (SetsFields s t (Reg.TH_PART_STAT.addr p 0) [(Reg.TH_PART_STAT_STATE, 5)]) ∧
        (SetsFields s t (Reg.TH_STATUS.addr 0 0) [(Reg.TH_STATUS_RUNNING, putBit (s.getF Reg.TH_STATUS_RUNNING) p false), (Reg.TH_STATUS_FAULTED, putBit (s.getF Reg.TH_STATUS_FAULTED) p false)]) ∧
        (Raises s t 5 [1]) ∧
        (OnlyRegs s t [(Reg.TH_PART_STAT.addr p 0), (Reg.TH_STATUS.addr 0 0), (Reg.SYS_IRQ_CAUSE.addr 5 0)]) ∧
        (t = { s with regs := t.regs, th := t.th })) ∧
  (∀ (s : State) (p : Nat),
      (s.canonical = true) →
      (p < 16) →
      (s.partState p = partLoading) →
      Completes (.partStop p) s fun t =>
        (t.th = ((s.wipeCores (s.part p).cores).setPart p { s.part p with load := none }).th) ∧
        (SetsFields s t (Reg.TH_PART_STAT.addr p 0) [(Reg.TH_PART_STAT_STATE, 0)]) ∧
        (SetsFields s t (Reg.TH_STATUS.addr 0 0) [(Reg.TH_STATUS_RUNNING, putBit (s.getF Reg.TH_STATUS_RUNNING) p false), (Reg.TH_STATUS_FAULTED, putBit (s.getF Reg.TH_STATUS_FAULTED) p false)]) ∧
        (Raises s t 5 [1]) ∧
        (OnlyRegs s t [(Reg.TH_PART_STAT.addr p 0), (Reg.TH_STATUS.addr 0 0), (Reg.SYS_IRQ_CAUSE.addr 5 0)]) ∧
        (t = { s with regs := t.regs, th := t.th })) ∧
  (∀ (s : State) (p : Nat),
      (s.canonical = true) →
      (p < 16) →
      (s.partState p ≠ partRunning ∧ s.partState p ≠ partReady ∧ s.partState p ≠ partLoading) →
      Completes (.partStop p) s fun t =>
        (SetsField s t Reg.TH_PART_STAT_ERROR p 8) ∧
        (OnlyRegs s t [(Reg.TH_PART_STAT.addr p 0)]) ∧
        (t = { s with regs := t.regs })) ∧
  (∀ (s : State) (p : Nat),
      (s.canonical = true) →
      (p < 16) →
      (s.partState p = partReady ∨ s.partState p = partStopped ∨ s.partState p = partFaulted) →
      Completes (.partUnload p) s fun t =>
        (t.th = ((s.wipeCores (s.part p).cores).setPart p { words := (s.part p).words, restarts := (s.part p).restarts }).th) ∧
        (SetsFields s t (Reg.TH_PART_STAT.addr p 0) [(Reg.TH_PART_STAT_SUSPENDED, 0), (Reg.TH_PART_STAT_STATE, 0)]) ∧
        (SetsFields s t (Reg.TH_STATUS.addr 0 0) [(Reg.TH_STATUS_RUNNING, putBit (s.getF Reg.TH_STATUS_RUNNING) p false), (Reg.TH_STATUS_FAULTED, putBit (s.getF Reg.TH_STATUS_FAULTED) p false)]) ∧
        (Raises s t 5 [1]) ∧
        (OnlyRegs s t [(Reg.TH_PART_STAT.addr p 0), (Reg.TH_STATUS.addr 0 0), (Reg.SYS_IRQ_CAUSE.addr 5 0)]) ∧
        (t = { s with regs := t.regs, th := t.th })) ∧
  (∀ (s : State) (p : Nat),
      (s.canonical = true) →
      (p < 16) →
      (s.partState p ≠ partReady ∧ s.partState p ≠ partStopped ∧ s.partState p ≠ partFaulted) →
      Completes (.partUnload p) s fun t =>
        (SetsField s t Reg.TH_PART_STAT_ERROR p 8) ∧
        (OnlyRegs s t [(Reg.TH_PART_STAT.addr p 0)]) ∧
        (t = { s with regs := t.regs })) ∧
  (∀ (s : State) (p : Nat),
      (s.canonical = true) →
      (p < 16) →
      (s.partState p = partFaulted) →
      Completes (.partClear p) s fun t =>
        (SetsFields s t (Reg.TH_PART_STAT.addr p 0) [(Reg.TH_PART_STAT_ERROR, 0), (Reg.TH_PART_STAT_STATE, 5)]) ∧
        (SetsFields s t (Reg.TH_STATUS.addr 0 0) [(Reg.TH_STATUS_RUNNING, putBit (s.getF Reg.TH_STATUS_RUNNING) p false), (Reg.TH_STATUS_FAULTED, putBit (s.getF Reg.TH_STATUS_FAULTED) p false)]) ∧
        (Raises s t 5 [1]) ∧
        (OnlyRegs s t [(Reg.TH_PART_STAT.addr p 0), (Reg.TH_STATUS.addr 0 0), (Reg.SYS_IRQ_CAUSE.addr 5 0)]) ∧
        (t = { s with regs := t.regs })) ∧
  (∀ (s : State) (p : Nat),
      (s.canonical = true) →
      (p < 16) →
      (s.partState p ≠ partFaulted) →
      Completes (.partClear p) s fun t =>
        (SetsField s t Reg.TH_PART_STAT_ERROR p 8) ∧
        (OnlyRegs s t [(Reg.TH_PART_STAT.addr p 0)]) ∧
        (t = { s with regs := t.regs }))

/-- A STOPPING partition whose cores have no transfer under way becomes STOPPED, or FAULTED where a fault stopped it. A partition that owes an
automatic restart, its dies running, starts every core at ENTRY at a forecast boundary not before the owed instant: it shows RUNNING, counts
in RESTARTS, raises the cause, and every core has a0 at its logical number and every other register zero. A suspended, STOPPED partition
with a kept image whose dies run is prepared again and waits for the boundary; PART_RESUME takes them in ascending order. PART_AUTO_RESTART
does nothing before its conditions hold. A window access to a core of its die whose partition is EMPTY, STOPPED or FAULTED, or has DEBUG_EN
set, reads or writes the four bytes; any other reads zero, writes nothing and counts in TH_LM_DENIED; it waits while the mesh is stopped, in
KEEP, or its path has an access waiting. An unaligned write is counted and changes nothing else. -/
def Obligations.PartitionStopsRestartsAndWindows : Prop :=
  (∀ (s : State) (p : Nat),
      (s.canonical = true) →
      (p < 16) →
      (s.partState p = partStopping) →
      (((s.part p).cores.any fun (k : Nat) => (s.core k).transfers) = false) →
      ((s.part p).reload = false) →
      ((s.part p).faulting = false) →
      Completes (.partStopComplete p) s fun t =>
        (t.th = (s.setPart p { s.part p with faulting := false }).th) ∧
        (SetsFields s t (Reg.TH_PART_STAT.addr p 0) [(Reg.TH_PART_STAT_STATE, 5)]) ∧
        (SetsFields s t (Reg.TH_STATUS.addr 0 0) [(Reg.TH_STATUS_RUNNING, putBit (s.getF Reg.TH_STATUS_RUNNING) p false), (Reg.TH_STATUS_FAULTED, putBit (s.getF Reg.TH_STATUS_FAULTED) p false)]) ∧
        (Raises s t 5 [1]) ∧
        (OnlyRegs s t [(Reg.TH_PART_STAT.addr p 0), (Reg.TH_STATUS.addr 0 0), (Reg.SYS_IRQ_CAUSE.addr 5 0)]) ∧
        (t = { s with regs := t.regs, th := t.th })) ∧
  (∀ (s : State) (p : Nat),
      (s.canonical = true) →
      (p < 16) →
      (s.partState p = partStopping) →
      (((s.part p).cores.any fun (k : Nat) => (s.core k).transfers) = false) →
      ((s.part p).reload = false) →
      ((s.part p).faulting = true) →
      Completes (.partStopComplete p) s fun t =>
        (t.th = (s.setPart p { s.part p with faulting := false }).th) ∧
        (SetsFields s t (Reg.TH_PART_STAT.addr p 0) [(Reg.TH_PART_STAT_STATE, 6)]) ∧
        (SetsFields s t (Reg.TH_STATUS.addr 0 0) [(Reg.TH_STATUS_RUNNING, putBit (s.getF Reg.TH_STATUS_RUNNING) p false), (Reg.TH_STATUS_FAULTED, putBit (s.getF Reg.TH_STATUS_FAULTED) p true)]) ∧
        (Raises s t 5 [0, 1]) ∧
        (OnlyRegs s t [(Reg.TH_PART_STAT.addr p 0), (Reg.TH_STATUS.addr 0 0), (Reg.SYS_IRQ_CAUSE.addr 5 0)]) ∧
        (t = { s with regs := t.regs, th := t.th })) ∧
  (∀ (s : State) (p now d : Nat) (g : Prog) (a : State),
      (s.canonical = true) →
      (p < 16) →
      ((s.part p).restartAt = some d) →
      (d ≤ now) →
      (s.frame % 25 = 0) →
      (s.partState p = partStopped) →
      (s.partDies p = true) →
      ((s.part p).prog = some g) →
      (a = s.prepare p) →
      Completes (.partAutoRestart p now) s fun t =>
        (t.th.core = ((a.part p).cores.zipIdx.foldl (fun (b : State) (e : Nat × Nat) => b.setCore e.1 { (b.core e.1).freshRun with pc := codeLo + g.entry, x := Sparse.upd 0 [] 10 e.2, rng := rngSeed ^^^ (e.2 + 1) }) a).th.core) ∧
        (t.partState p = partRunning) ∧
        (bitOf (t.getF Reg.TH_STATUS_RUNNING) p = true) ∧
        (Raises s t 5 [1, 2]) ∧
        (OnlyRegs s t [(Reg.TH_PART_STAT.addr p 0), (Reg.TH_STATUS.addr 0 0), (Reg.SYS_IRQ_CAUSE.addr 5 0)]) ∧
        (t = { s with regs := t.regs, th := t.th })) ∧
  (∀ (s : State) (p : Nat),
      (s.canonical = true) →
      (p < 16) →
      (∀ q ∈ List.range 16, s.isF Reg.TH_PART_STAT_SUSPENDED q = decide (q = p)) →
      (s.partState p = partStopped) →
      ((s.part p).prog.isSome = true) →
      (s.partDies p = true) →
      Completes (.partResume) s fun t =>
        (t.th = ((s.prepare p).setPart p { (s.prepare p).part p with start := true }).th) ∧
        (SetsField s t Reg.TH_PART_STAT_SUSPENDED p 0) ∧
        (OnlyRegs s t [(Reg.TH_PART_STAT.addr p 0)]) ∧
        (t = { s with regs := t.regs, th := t.th })) ∧
  (∀ (s : State),
      Completes (.partResume) s fun t =>
        (t = (List.range 16).foldl (fun (x : State) (q : Nat) => if x.isF Reg.TH_PART_STAT_SUSPENDED q && decide (x.partState q = partStopped) && (x.part q).prog.isSome && x.partDies q then (let y : State := x.prepare q; (y.setPart q { y.part q with start := true }).setF Reg.TH_PART_STAT_SUSPENDED 0 q) else x) s)) ∧
  (∀ (s : State) (p now : Nat),
      ((s.part p).restartAt.all (fun (d : Nat) => decide (now < d)) = true ∨ s.frame % 25 ≠ 0 ∨ s.partState p ≠ partStopped ∨ s.partDies p = false) →
      Completes (.partAutoRestart p now) s fun t =>
        (t = s)) ∧
  (∀ (s : State) (path die off value k : Nat) (isWrite : Bool),
      (die < 2) →
      (off < 524288) →
      (off % 4 = 0) →
      (s.reaches path = true) →
      (s.free? path (0x1800000 + 0x1000000 * die + off) = true) →
      (k = s.getF Reg.TH_LM_SEL_CORE die) →
      (k / 128 = die) →
      (s.windowOpen k = true) →
      (isWrite = false) →
      Completes (.lmWindowAccess path die off isWrite value) s fun t =>
        (t.outbox = s.outbox ++ [Out.mk .accessDone [path, 0x1800000 + 0x1000000 * die + off, ofLe ((s.core k).lmBytes (lmBase + off) 4)]]) ∧
        (t = { s with outbox := t.outbox })) ∧
  (∀ (s : State) (path die off value k : Nat) (isWrite : Bool),
      (die < 2) →
      (off < 524288) →
      (off % 4 = 0) →
      (s.reaches path = true) →
      (s.free? path (0x1800000 + 0x1000000 * die + off) = true) →
      (k = s.getF Reg.TH_LM_SEL_CORE die) →
      (k / 128 = die) →
      (s.windowOpen k = true) →
      (isWrite = true) →
      Completes (.lmWindowAccess path die off isWrite value) s fun t =>
        (t.th = (s.setCore k (((s.core k).lmWrite (lmBase + off) (leBytes 4 value)).breakResv (lmBase + off) 4)).th) ∧
        (t.outbox = s.outbox ++ [Out.mk .accessDone [path, 0x1800000 + 0x1000000 * die + off, value % 2 ^ 32]]) ∧
        (t = { s with th := t.th, outbox := t.outbox })) ∧
  (∀ (s : State) (path die off value k : Nat) (isWrite : Bool),
      (s.canonical = true) →
      (die < 2) →
      (off < 524288) →
      (off % 4 = 0) →
      (s.reaches path = true) →
      (s.free? path (0x1800000 + 0x1000000 * die + off) = true) →
      (k = s.getF Reg.TH_LM_SEL_CORE die) →
      (k / 128 ≠ die ∨ s.windowOpen k = false) →
      Completes (.lmWindowAccess path die off isWrite value) s fun t =>
        (Counts s t Reg.TH_LM_DENIED die 1) ∧
        (t.outbox = s.outbox ++ [Out.mk .accessDone [path, 0x1800000 + 0x1000000 * die + off, 0]]) ∧
        (OnlyRegs s t [(Reg.TH_LM_DENIED.addr die 0)]) ∧
        (t = { s with regs := t.regs, outbox := t.outbox })) ∧
  (∀ (s : State) (path die off value : Nat) (isWrite : Bool),
      (die < 2) →
      (off < 524288) →
      (off % 4 = 0) →
      (s.reaches path = true) →
      (s.free? path (0x1800000 + 0x1000000 * die + off) = false) →
      Completes (.lmWindowAccess path die off isWrite value) s fun t =>
        (t.waiting = s.waiting ++ [Access.mk path isWrite (0x1800000 + 0x1000000 * die + off) (value % 2 ^ 32) 4]) ∧
        (t = { s with waiting := t.waiting })) ∧
  (∀ (s : State) (path die off value : Nat),
      (s.canonical = true) →
      (die < 2) →
      (off < 524288) →
      (off % 4 ≠ 0) →
      (s.reaches path = true) →
      Completes (.lmWindowAccess path die off true value) s fun t =>
        (Counts s t Reg.SYS_HIF_ERR_UNALIGNED 0 1) ∧
        (SetsFields s t (Reg.SYS_HIF_LAST.addr 0 0) [(Reg.SYS_HIF_LAST_PATH, path), (Reg.SYS_HIF_LAST_KIND, 2), (Reg.SYS_HIF_LAST_OFFSET, 0x1800000 + 0x1000000 * die + off)]) ∧
        (Raises s t 0 [1]) ∧
        (OnlyRegs s t [(Reg.SYS_HIF_ERR_UNALIGNED.addr 0 0), (Reg.SYS_HIF_LAST.addr 0 0), (Reg.SYS_IRQ_CAUSE.addr 0 0)]) ∧
        (t = { s with regs := t.regs })) ∧
  (∀ (s : State) (path die off value : Nat) (isWrite : Bool),
      (2 ≤ die ∨ 524288 ≤ off ∨ s.reaches path = false) →
      Completes (.lmWindowAccess path die off isWrite value) s fun t =>
        (t = s))

/-- A context command that finds the stack not ready, or its context being wiped, answers BUSY and changes nothing else; one on a FREE context
answers NOT_FOUND, FREE of one BAD_KIND. ALLOC answers EXISTS for a present key, else takes the lowest FREE context with the next GEN and
both times now, or waits for its wipe, gives up the context eviction takes, or with none counts a failure and answers FULL. FREE takes the
context from its parent and its children, leaves it FREE with its GEN and WIPING, and every byte of its data area is zero. PIN and UNPIN set
and clear PINNED, PIN_LIMIT where PIN_MAX are pinned. REBUILD zeroes area, counts and poison. LOOKUP answers the context or NOT_FOUND. A
wipe that ends clears WIPING, and the key that waits gets the context, its held records in order. The result is the path's own, the counts
of CTX_COUNT show, and nothing else changes. -/
def Obligations.ContextCommands : Prop :=
  (∀ (s : State) (path kind now : Nat),
      (s.isF Reg.CTX_STATUS_READY = false) →
      Completes (.ctxAlloc path kind now) s fun t =>
        (t.pathRegs = Sparse.upd 0#32 s.pathRegs (path * 2 ^ 26 + 0x100010) (BitVec.ofNat 32 (0 % 16384 * 2 ^ 16 + 6))) ∧
        (t = { s with pathRegs := t.pathRegs })) ∧
  (∀ (s : State) (path kind now : Nat),
      (s.isF Reg.CTX_STATUS_READY = true) →
      (kind % 4 = 0) →
      Completes (.ctxAlloc path kind now) s fun t =>
        (t.pathRegs = Sparse.upd 0#32 s.pathRegs (path * 2 ^ 26 + 0x100010) (BitVec.ofNat 32 (0 % 16384 * 2 ^ 16 + 5))) ∧
        (t = { s with pathRegs := t.pathRegs })) ∧
  (∀ (s : State) (path kind now c : Nat),
      (s.isF Reg.CTX_STATUS_READY = true) →
      (kind % 4 ≠ 0) →
      (s.ctxFind (kind % 4) (s.get64 Reg.CTX_KEY_LO) = some c) →
      Completes (.ctxAlloc path kind now) s fun t =>
        (t.pathRegs = Sparse.upd 0#32 s.pathRegs (path * 2 ^ 26 + 0x100010) (BitVec.ofNat 32 (c % 16384 * 2 ^ 16 + 1))) ∧
        (t = { s with pathRegs := t.pathRegs })) ∧
  (∀ (s : State) (path kind now c bad : Nat),
      (s.canonical = true) →
      (s.isF Reg.CTX_STATUS_READY = true) →
      (kind % 4 ≠ 0) →
      (s.ctxFind (kind % 4) (s.get64 Reg.CTX_KEY_LO) = none) →
      (s.ctxWaits (kind % 4) (s.get64 Reg.CTX_KEY_LO) = none) →
      (s.ctxFree 16384 0 = some c) →
      ((s.desc c).wiping = false) →
      (bad = s.areaPoison c) →
      Completes (.ctxAlloc path kind now) s fun t =>
        (t.ctx = (s.setDesc c { kind := kind % 4, key := s.get64 Reg.CTX_KEY_LO, gen := ((s.desc c).gen + 1) % 2 ^ 32, lastTime := now / 10, created := now / 10, lane := (if kind % 4 = kindJob then s.jobLane (s.get64 Reg.CTX_KEY_LO) else (0xFF, 0xFF)).1, part := (if kind % 4 = kindJob then s.jobLane (s.get64 Reg.CTX_KEY_LO) else (0xFF, 0xFF)).2, poisonCnt := bad, poisoned := decide (bad ≠ 0) }).ctx) ∧
        (t.mem = (s.setDesc c { kind := kind % 4, key := s.get64 Reg.CTX_KEY_LO, gen := ((s.desc c).gen + 1) % 2 ^ 32, lastTime := now / 10, created := now / 10, lane := (if kind % 4 = kindJob then s.jobLane (s.get64 Reg.CTX_KEY_LO) else (0xFF, 0xFF)).1, part := (if kind % 4 = kindJob then s.jobLane (s.get64 Reg.CTX_KEY_LO) else (0xFF, 0xFF)).2, poisonCnt := bad, poisoned := decide (bad ≠ 0) }).mem) ∧
        (CountsShown t) ∧
        (SetsField s t Reg.CTX_STATUS_ALLOC_FULL 0 0) ∧
        (t.pathRegs = Sparse.upd 0#32 s.pathRegs (path * 2 ^ 26 + 0x100010) (BitVec.ofNat 32 (c % 16384 * 2 ^ 16 + 0))) ∧
        (OnlyRegs s t [(Reg.CTX_COUNT_A.addr 0 0), (Reg.CTX_COUNT_B.addr 0 0), (Reg.CTX_STATUS.addr 0 0)]) ∧
        (t = { s with regs := t.regs, ctx := t.ctx, mem := t.mem, pathRegs := t.pathRegs })) ∧
  (∀ (s : State) (path kind now c : Nat),
      (s.isF Reg.CTX_STATUS_READY = true) →
      (kind % 4 ≠ 0) →
      (s.ctxFind (kind % 4) (s.get64 Reg.CTX_KEY_LO) = none) →
      (s.ctxWaits (kind % 4) (s.get64 Reg.CTX_KEY_LO) = none) →
      (s.ctxFree 16384 0 = some c) →
      ((s.desc c).wiping = true) →
      Completes (.ctxAlloc path kind now) s fun t =>
        (t.ctx = { s.ctx with waitFor := Sparse.insert s.ctx.waitFor c (kind % 4, s.get64 Reg.CTX_KEY_LO) }) ∧
        (t.pathRegs = Sparse.upd 0#32 s.pathRegs (path * 2 ^ 26 + 0x100010) (BitVec.ofNat 32 (c % 16384 * 2 ^ 16 + 0))) ∧
        (t = { s with ctx := t.ctx, pathRegs := t.pathRegs })) ∧
  (∀ (s : State) (path kind now c : Nat) (g : State),
      (s.isF Reg.CTX_STATUS_READY = true) →
      (kind % 4 ≠ 0) →
      (s.ctxFind (kind % 4) (s.get64 Reg.CTX_KEY_LO) = none) →
      (s.ctxWaits (kind % 4) (s.get64 Reg.CTX_KEY_LO) = none) →
      (s.ctxFree 16384 0 = none) →
      (s.evictee now [] = some c) →
      (g = s.giveUp c) →
      Completes (.ctxAlloc path kind now) s fun t =>
        (t = ({ g with ctx := { g.ctx with waitFor := Sparse.insert g.ctx.waitFor c (kind % 4, s.get64 Reg.CTX_KEY_LO) } }).ctxResult path c 0)) ∧
  (∀ (s : State) (path kind now : Nat),
      (s.canonical = true) →
      (s.isF Reg.CTX_STATUS_READY = true) →
      (kind % 4 ≠ 0) →
      (s.ctxFind (kind % 4) (s.get64 Reg.CTX_KEY_LO) = none) →
      (s.ctxWaits (kind % 4) (s.get64 Reg.CTX_KEY_LO) = none) →
      (s.ctxFree 16384 0 = none) →
      (s.evictee now [] = none) →
      Completes (.ctxAlloc path kind now) s fun t =>
        (Counts s t Reg.CTX_ALLOC_FAIL 0 1) ∧
        (SetsField s t Reg.CTX_STATUS_ALLOC_FULL 0 1) ∧
        (Raises s t 6 [2]) ∧
        (t.pathRegs = Sparse.upd 0#32 s.pathRegs (path * 2 ^ 26 + 0x100010) (BitVec.ofNat 32 (0 % 16384 * 2 ^ 16 + 3))) ∧
        (OnlyRegs s t [(Reg.CTX_ALLOC_FAIL.addr 0 0), (Reg.CTX_STATUS.addr 0 0), (Reg.SYS_IRQ_CAUSE.addr 6 0)]) ∧
        (t = { s with regs := t.regs, pathRegs := t.pathRegs })) ∧
  (∀ (s : State) (path kind now c : Nat),
      (s.isF Reg.CTX_STATUS_READY = true) →
      (kind % 4 ≠ 0) →
      (s.ctxFind (kind % 4) (s.get64 Reg.CTX_KEY_LO) = none) →
      (s.ctxWaits (kind % 4) (s.get64 Reg.CTX_KEY_LO) = some c) →
      Completes (.ctxAlloc path kind now) s fun t =>
        (t.pathRegs = Sparse.upd 0#32 s.pathRegs (path * 2 ^ 26 + 0x100010) (BitVec.ofNat 32 (c % 16384 * 2 ^ 16 + 1))) ∧
        (t = { s with pathRegs := t.pathRegs })) ∧
  (∀ (s : State) (path c : Nat),
      (s.canonical = true) →
      (s.isF Reg.CTX_STATUS_READY = true) →
      (c < 16384) →
      ((s.desc c).wiping = false) →
      ((s.desc c).kind ≠ kindFree) →
      Completes (.ctxFree path c) s fun t =>
        (t.ctx = { ((s.orphaned c).setDesc c { gen := ((s.orphaned c).desc c).gen, wiping := true }).ctx with want := ((s.orphaned c).setDesc c { gen := ((s.orphaned c).desc c).gen, wiping := true }).ctx.want.filter fun (e : Nat × Nat) => decide (e.1 ≠ c) && decide (e.2 ≠ c) }) ∧
        (t.mem = (((s.orphaned c).setDesc c { gen := ((s.orphaned c).desc c).gen, wiping := true }).memWipe (c * 0x400000) 0x400000).mem) ∧
        (t.poison = (((s.orphaned c).setDesc c { gen := ((s.orphaned c).desc c).gen, wiping := true }).memWipe (c * 0x400000) 0x400000).poison) ∧
        (∀ a, c * 0x400000 ≤ a → a < (c + 1) * 0x400000 → Sparse.at 0#8 t.mem a = 0#8) ∧
        (CountsShown t) ∧
        (t.pathRegs = Sparse.upd 0#32 s.pathRegs (path * 2 ^ 26 + 0x100010) (BitVec.ofNat 32 (c % 16384 * 2 ^ 16 + 0))) ∧
        (OnlyRegs s t [(Reg.CTX_COUNT_A.addr 0 0), (Reg.CTX_COUNT_B.addr 0 0)]) ∧
        (t = { s with regs := t.regs, ctx := t.ctx, mem := t.mem, poison := t.poison, pathRegs := t.pathRegs })) ∧
  (∀ (s : State) (path c : Nat),
      (s.canonical = true) →
      (s.isF Reg.CTX_STATUS_READY = true) →
      (c < 16384) →
      ((s.desc c).wiping = false) →
      ((s.desc c).kind ≠ kindFree) →
      Completes (.ctxRebuild path c) s fun t =>
        (t.ctx = (s.setDesc c { s.desc c with count0 := 0, count1 := 0, count2 := 0, poisonCnt := 0, poisoned := false, wiping := true }).ctx) ∧
        (∀ a, c * 0x400000 ≤ a → a < (c + 1) * 0x400000 → Sparse.at 0#8 t.mem a = 0#8) ∧
        (t.pathRegs = Sparse.upd 0#32 s.pathRegs (path * 2 ^ 26 + 0x100010) (BitVec.ofNat 32 (c % 16384 * 2 ^ 16 + 0))) ∧
        (t = { s with ctx := t.ctx, mem := t.mem, poison := t.poison, pathRegs := t.pathRegs })) ∧
  (∀ (s : State) (path c : Nat),
      (s.canonical = true) →
      (s.isF Reg.CTX_STATUS_READY = true) →
      (c < 16384) →
      ((s.desc c).wiping = false) →
      ((s.desc c).kind ≠ kindFree) →
      ((s.desc c).pinned = false) →
      ((s.ctx.desc.filter fun (e : Nat × Desc) => e.2.pinned).length < s.getF Reg.CTX_EVICT_CFG_PIN_MAX) →
      Completes (.ctxPin path c) s fun t =>
        (t.ctx = (s.setDesc c { s.desc c with pinned := true }).ctx) ∧
        (t.mem = (s.setDesc c { s.desc c with pinned := true }).mem) ∧
        (CountsShown t) ∧
        (t.pathRegs = Sparse.upd 0#32 s.pathRegs (path * 2 ^ 26 + 0x100010) (BitVec.ofNat 32 (c % 16384 * 2 ^ 16 + 0))) ∧
        (OnlyRegs s t [(Reg.CTX_COUNT_A.addr 0 0), (Reg.CTX_COUNT_B.addr 0 0)]) ∧
        (t = { s with regs := t.regs, ctx := t.ctx, mem := t.mem, pathRegs := t.pathRegs })) ∧
  (∀ (s : State) (path c : Nat),
      (s.isF Reg.CTX_STATUS_READY = true) →
      (c < 16384) →
      ((s.desc c).wiping = false) →
      ((s.desc c).kind ≠ kindFree) →
      ((s.desc c).pinned = true) →
      Completes (.ctxPin path c) s fun t =>
        (t.pathRegs = Sparse.upd 0#32 s.pathRegs (path * 2 ^ 26 + 0x100010) (BitVec.ofNat 32 (c % 16384 * 2 ^ 16 + 0))) ∧
        (t = { s with pathRegs := t.pathRegs })) ∧
  (∀ (s : State) (path c : Nat),
      (s.isF Reg.CTX_STATUS_READY = true) →
      (c < 16384) →
      ((s.desc c).wiping = false) →
      ((s.desc c).kind ≠ kindFree) →
      ((s.desc c).pinned = false) →
      (s.getF Reg.CTX_EVICT_CFG_PIN_MAX ≤ (s.ctx.desc.filter fun (e : Nat × Desc) => e.2.pinned).length) →
      Completes (.ctxPin path c) s fun t =>
        (t.pathRegs = Sparse.upd 0#32 s.pathRegs (path * 2 ^ 26 + 0x100010) (BitVec.ofNat 32 (c % 16384 * 2 ^ 16 + 4))) ∧
        (t = { s with pathRegs := t.pathRegs })) ∧
  (∀ (s : State) (path c : Nat),
      (s.canonical = true) →
      (s.isF Reg.CTX_STATUS_READY = true) →
      (c < 16384) →
      ((s.desc c).wiping = false) →
      ((s.desc c).kind ≠ kindFree) →
      Completes (.ctxUnpin path c) s fun t =>
        (t.ctx = (s.setDesc c { s.desc c with pinned := false }).ctx) ∧
        (t.mem = (s.setDesc c { s.desc c with pinned := false }).mem) ∧
        (CountsShown t) ∧
        (t.pathRegs = Sparse.upd 0#32 s.pathRegs (path * 2 ^ 26 + 0x100010) (BitVec.ofNat 32 (c % 16384 * 2 ^ 16 + 0))) ∧
        (OnlyRegs s t [(Reg.CTX_COUNT_A.addr 0 0), (Reg.CTX_COUNT_B.addr 0 0)]) ∧
        (t = { s with regs := t.regs, ctx := t.ctx, mem := t.mem, pathRegs := t.pathRegs })) ∧
  (∀ (s : State) (path c : Nat),
      (c < 16384) →
      (s.isF Reg.CTX_STATUS_READY = false ∨ (s.desc c).wiping = true) →
      Completes (.ctxFree path c) s fun t =>
        (t.pathRegs = Sparse.upd 0#32 s.pathRegs (path * 2 ^ 26 + 0x100010) (BitVec.ofNat 32 (c % 16384 * 2 ^ 16 + 6))) ∧
        (t = { s with pathRegs := t.pathRegs })) ∧
  (∀ (s : State) (path c : Nat),
      (c < 16384) →
      (s.isF Reg.CTX_STATUS_READY = true) →
      ((s.desc c).wiping = false) →
      ((s.desc c).kind = kindFree) →
      Completes (.ctxFree path c) s fun t =>
        (t.pathRegs = Sparse.upd 0#32 s.pathRegs (path * 2 ^ 26 + 0x100010) (BitVec.ofNat 32 (c % 16384 * 2 ^ 16 + 5))) ∧
        (t = { s with pathRegs := t.pathRegs })) ∧
  (∀ (s : State) (path c : Nat),
      (c < 16384) →
      (s.isF Reg.CTX_STATUS_READY = false ∨ (s.desc c).wiping = true) →
      Completes (.ctxPin path c) s fun t =>
        (t.pathRegs = Sparse.upd 0#32 s.pathRegs (path * 2 ^ 26 + 0x100010) (BitVec.ofNat 32 (c % 16384 * 2 ^ 16 + 6))) ∧
        (t = { s with pathRegs := t.pathRegs })) ∧
  (∀ (s : State) (path c : Nat),
      (c < 16384) →
      (s.isF Reg.CTX_STATUS_READY = true) →
      ((s.desc c).wiping = false) →
      ((s.desc c).kind = kindFree) →
      Completes (.ctxPin path c) s fun t =>
        (t.pathRegs = Sparse.upd 0#32 s.pathRegs (path * 2 ^ 26 + 0x100010) (BitVec.ofNat 32 (c % 16384 * 2 ^ 16 + 2))) ∧
        (t = { s with pathRegs := t.pathRegs })) ∧
  (∀ (s : State) (path c : Nat),
      (c < 16384) →
      (s.isF Reg.CTX_STATUS_READY = false ∨ (s.desc c).wiping = true) →
      Completes (.ctxUnpin path c) s fun t =>
        (t.pathRegs = Sparse.upd 0#32 s.pathRegs (path * 2 ^ 26 + 0x100010) (BitVec.ofNat 32 (c % 16384 * 2 ^ 16 + 6))) ∧
        (t = { s with pathRegs := t.pathRegs })) ∧
  (∀ (s : State) (path c : Nat),
      (c < 16384) →
      (s.isF Reg.CTX_STATUS_READY = true) →
      ((s.desc c).wiping = false) →
      ((s.desc c).kind = kindFree) →
      Completes (.ctxUnpin path c) s fun t =>
        (t.pathRegs = Sparse.upd 0#32 s.pathRegs (path * 2 ^ 26 + 0x100010) (BitVec.ofNat 32 (c % 16384 * 2 ^ 16 + 2))) ∧
        (t = { s with pathRegs := t.pathRegs })) ∧
  (∀ (s : State) (path c : Nat),
      (c < 16384) →
      (s.isF Reg.CTX_STATUS_READY = false ∨ (s.desc c).wiping = true) →
      Completes (.ctxRebuild path c) s fun t =>
        (t.pathRegs = Sparse.upd 0#32 s.pathRegs (path * 2 ^ 26 + 0x100010) (BitVec.ofNat 32 (c % 16384 * 2 ^ 16 + 6))) ∧
        (t = { s with pathRegs := t.pathRegs })) ∧
  (∀ (s : State) (path c : Nat),
      (c < 16384) →
      (s.isF Reg.CTX_STATUS_READY = true) →
      ((s.desc c).wiping = false) →
      ((s.desc c).kind = kindFree) →
      Completes (.ctxRebuild path c) s fun t =>
        (t.pathRegs = Sparse.upd 0#32 s.pathRegs (path * 2 ^ 26 + 0x100010) (BitVec.ofNat 32 (c % 16384 * 2 ^ 16 + 2))) ∧
        (t = { s with pathRegs := t.pathRegs })) ∧
  (∀ (s : State) (path kind : Nat),
      (s.isF Reg.CTX_STATUS_READY = false) →
      Completes (.ctxLookup path kind) s fun t =>
        (t.pathRegs = Sparse.upd 0#32 s.pathRegs (path * 2 ^ 26 + 0x100010) (BitVec.ofNat 32 (0 % 16384 * 2 ^ 16 + 6))) ∧
        (t = { s with pathRegs := t.pathRegs })) ∧
  (∀ (s : State) (path kind c : Nat),
      (s.isF Reg.CTX_STATUS_READY = true) →
      (kind % 4 ≠ 0) →
      (s.ctxFind (kind % 4) (s.get64 Reg.CTX_KEY_LO) = some c) →
      Completes (.ctxLookup path kind) s fun t =>
        (t.pathRegs = Sparse.upd 0#32 s.pathRegs (path * 2 ^ 26 + 0x100010) (BitVec.ofNat 32 (c % 16384 * 2 ^ 16 + 0))) ∧
        (t = { s with pathRegs := t.pathRegs })) ∧
  (∀ (s : State) (path kind : Nat),
      (s.isF Reg.CTX_STATUS_READY = true) →
      (kind % 4 = 0 ∨ s.ctxFind (kind % 4) (s.get64 Reg.CTX_KEY_LO) = none) →
      Completes (.ctxLookup path kind) s fun t =>
        (t.pathRegs = Sparse.upd 0#32 s.pathRegs (path * 2 ^ 26 + 0x100010) (BitVec.ofNat 32 (0 % 16384 * 2 ^ 16 + 2))) ∧
        (t = { s with pathRegs := t.pathRegs })) ∧
  (∀ (s : State) (c now : Nat),
      (s.canonical = true) →
      ((s.desc c).wiping = true) →
      (Sparse.find s.ctx.waitFor c = none) →
      Completes (.contextWipeComplete c now) s fun t =>
        (t.ctx = (s.setDesc c { s.desc c with wiping := false }).ctx) ∧
        (t.mem = (s.setDesc c { s.desc c with wiping := false }).mem) ∧
        (t = { s with ctx := t.ctx, mem := t.mem })) ∧
  (∀ (s : State) (c now kind key : Nat) (a : State),
      (s.canonical = true) →
      ((s.desc c).wiping = true) →
      (Sparse.find s.ctx.waitFor c = some (kind, key)) →
      (Sparse.at [] s.ctx.held c = []) →
      (Sparse.at ({} : Desc) s.ctx.pend c = ({} : Desc)) →
      (s.ctx.want = []) →
      (s.areaPoison c = 0) →
      (a = s.setDesc c { s.desc c with wiping := false }) →
      Completes (.contextWipeComplete c now) s fun t =>
        (t.ctx = ({ a with ctx := { a.ctx with waitFor := Sparse.erase s.ctx.waitFor c, held := Sparse.erase s.ctx.held c, pend := Sparse.erase s.ctx.pend c } }.setDesc c { kind := kind, key := key, gen := ((a.desc c).gen + 1) % 2 ^ 32, lastTime := now / 10, created := now / 10, lane := (if kind = kindJob then s.jobLane key else (0xFF, 0xFF)).1, part := (if kind = kindJob then s.jobLane key else (0xFF, 0xFF)).2 }).ctx) ∧
        (CountsShown t) ∧
        (SetsField s t Reg.CTX_STATUS_ALLOC_FULL 0 0) ∧
        (OnlyRegs s t [(Reg.CTX_COUNT_A.addr 0 0), (Reg.CTX_COUNT_B.addr 0 0), (Reg.CTX_STATUS.addr 0 0)]) ∧
        (t = { s with regs := t.regs, ctx := t.ctx, mem := t.mem })) ∧
  (∀ (s : State) (c now kind key : Nat) (a b : State),
      ((s.desc c).wiping = true) →
      (Sparse.find s.ctx.waitFor c = some (kind, key)) →
      (a = s.setDesc c { s.desc c with wiping := false }) →
      (b = (Sparse.at [] s.ctx.held c).foldl (fun (x : State) (r : HeldRec) => x.ctxRecord c r.ring r.now r.bytes) (State.allot { a with ctx := { a.ctx with waitFor := Sparse.erase s.ctx.waitFor c, held := Sparse.erase s.ctx.held c, pend := Sparse.erase s.ctx.pend c } } c kind key now)) →
      Completes (.contextWipeComplete c now) s fun t =>
        (t = (b.setDesc c ((b.desc c).told (Sparse.at {} s.ctx.pend c))).parentsNamed)) ∧
  (∀ (s : State) (c now : Nat),
      ((s.desc c).wiping = false) →
      Completes (.contextWipeComplete c now) s fun t =>
        (t = s))

/-- A write of CTX_CAP_CFG by a party that does not own the ring sets CONFLICT alone; the owner's enables a ring whose range is good and whose
source exists, and refuses another with OVERLAP or RANGE. A running ring writes a block that is full or closed early at its HEAD, which
counts, with the samples an overflow lost counted; an open block stays. A rise of TRIG_SIG sets TRIGGERED and TRIG_BLOCK, the block open
now, and leaves POST blocks to go; after them the ring shows STOPPED and raises its cause. The scrubber reads the next block: a codeword
that one wrong symbol explains counts in CTX_ECC_CE; two or three poison the block, count in CTX_ECC_UE, show its address and raise the
cause; the block after it is next. The wipe of the stack leaves it all zero, every context FREE, READY set and WIPE_TIME at its duration. -/
def Obligations.CaptureRingsScrubbingAndTheWipe : Prop :=
  (∀ (s : State) (path r value : Nat),
      (s.canonical = true) →
      (r < 64) →
      (s.getF Reg.CFG_OWN_OWNER (0x180 + r) ≠ pathOwner path) →
      Completes (.captureEnable path r value) s fun t =>
        (SetsField s t Reg.CTX_CAP_STAT_CONFLICT r 1) ∧
        (OnlyRegs s t [(Reg.CTX_CAP_STAT.addr r 0)]) ∧
        (t = { s with regs := t.regs })) ∧
  (∀ (s : State) (path r value : Nat) (a : State),
      (s.canonical = true) →
      (r < 64) →
      (s.getF Reg.CFG_OWN_OWNER (0x180 + r) = pathOwner path) →
      (s.isF Reg.CTX_CAP_CFG_EN r = false) →
      (bitOf value 31 = true) →
      (a = s.wr (Reg.CTX_CAP_CFG.addr r 0) (BitVec.ofNat 32 (value &&& 0xFE0001FF))) →
      (a.capCheck r = 0) →
      (capSrcOk (value % 512) = true) →
      Completes (.captureEnable path r value) s fun t =>
        (t.rd (Reg.CTX_CAP_CFG.addr r 0) = BitVec.ofNat 32 (value &&& 0xFE0001FF)) ∧
        (SetsFields s t (Reg.CTX_CAP_STAT.addr r 0) [(Reg.CTX_CAP_STAT_RUNNING, 1), (Reg.CTX_CAP_STAT_DROPPED, 0)]) ∧
        (t.ctx = { s.ctx with cap := Sparse.erase s.ctx.cap r, post := Sparse.erase s.ctx.post r, span := Sparse.insert s.ctx.span r (a.capRange r), trig := putBit s.ctx.trig r false }) ∧
        (OnlyRegs s t [(Reg.CTX_CAP_CFG.addr r 0), (Reg.CTX_CAP_STAT.addr r 0)]) ∧
        (t = { s with regs := t.regs, ctx := t.ctx })) ∧
  (∀ (s : State) (path r value : Nat) (a : State),
      (s.canonical = true) →
      (r < 64) →
      (s.getF Reg.CFG_OWN_OWNER (0x180 + r) = pathOwner path) →
      (s.isF Reg.CTX_CAP_CFG_EN r = false) →
      (bitOf value 31 = true) →
      (a = s.wr (Reg.CTX_CAP_CFG.addr r 0) (BitVec.ofNat 32 (value &&& 0xFE0001FF))) →
      (a.capCheck r = 1 ∨ a.capCheck r = 2) →
      Completes (.captureEnable path r value) s fun t =>
        (t.isF Reg.CTX_CAP_CFG_EN r = false) ∧
        (SetsField s t Reg.CTX_CAP_STAT r (if a.capCheck r = 1 then (Reg.CTX_CAP_STAT_OVERLAP.into (s.rd (Reg.CTX_CAP_STAT.addr r 0)) 1).toNat else (Reg.CTX_CAP_STAT_RANGE.into (s.rd (Reg.CTX_CAP_STAT.addr r 0)) 1).toNat)) ∧
        (OnlyRegs s t [(Reg.CTX_CAP_CFG.addr r 0), (Reg.CTX_CAP_STAT.addr r 0)]) ∧
        (t = { s with regs := t.regs })) ∧
  (∀ (s : State) (path r value : Nat),
      (s.canonical = true) →
      (r < 64) →
      (s.getF Reg.CFG_OWN_OWNER (0x180 + r) = pathOwner path) →
      (bitOf value 31 = false) →
      Completes (.captureEnable path r value) s fun t =>
        (t.rd (Reg.CTX_CAP_CFG.addr r 0) = BitVec.ofNat 32 (value &&& 0xFE0001FF)) ∧
        (SetsField s t Reg.CTX_CAP_STAT_RUNNING r 0) ∧
        (t.ctx = { s.ctx with cap := Sparse.erase s.ctx.cap r, span := Sparse.erase s.ctx.span r, trig := putBit s.ctx.trig r false }) ∧
        (OnlyRegs s t [(Reg.CTX_CAP_CFG.addr r 0), (Reg.CTX_CAP_STAT.addr r 0)]) ∧
        (t = { s with regs := t.regs, ctx := t.ctx })) ∧
  (∀ (s : State) (path r value : Nat),
      (s.canonical = true) →
      (r < 64) →
      (s.getF Reg.CFG_OWN_OWNER (0x180 + r) = pathOwner path) →
      (s.isF Reg.CTX_CAP_CFG_EN r = true) →
      (bitOf value 31 = true) →
      (capSrcOk (value % 512) = true) →
      Completes (.captureEnable path r value) s fun t =>
        (t.rd (Reg.CTX_CAP_CFG.addr r 0) = BitVec.ofNat 32 (value &&& 0xFE0001FF)) ∧
        (OnlyRegs s t [(Reg.CTX_CAP_CFG.addr r 0)]) ∧
        (t = { s with regs := t.regs })) ∧
  (∀ (s : State) (r lost : Nat) (x : CapSample) (rest : List CapSample),
      (s.canonical = true) →
      (r < 64) →
      (s.isF Reg.CTX_CAP_STAT_RUNNING r = true) →
      (capBlock 14 (capLose (Sparse.at [] s.ctx.cap r) lost) = x :: rest) →
      (capCloses (x :: rest) = true) →
      (Sparse.find s.ctx.post r ≠ some 0) →
      Completes (.captureBlockWrite r lost) s fun t =>
        (t.mem = Sparse.fill 0#8 s.mem (captureBase + (s.capSpan r).1 * 65536 + s.get64 Reg.CTX_CAP_HEAD_LO r % ((s.capSpan r).2 * 1024) * 64) (leBytes 8 (x.time % 2 ^ 60 + (rest.length + 1) * 2 ^ 60) ++ (x :: rest).flatMap (fun (c : CapSample) => leBytes 4 c.word) ++ leBytes (56 - 4 * (rest.length + 1)) 0)) ∧
        (SetsPair t Reg.CTX_CAP_HEAD_LO r ((s.get64 Reg.CTX_CAP_HEAD_LO r + 1) % 2 ^ 64)) ∧
        (Counts s t Reg.CTX_CAP_STAT_DROPPED r (min lost (Sparse.at [] s.ctx.cap r).length)) ∧
        (t.ctx = { s.ctx with desc := t.ctx.desc, cap := Sparse.upd [] (Sparse.upd [] s.ctx.cap r (capLose (Sparse.at [] s.ctx.cap r) lost)) r ((capLose (Sparse.at [] s.ctx.cap r) lost).drop (rest.length + 1)), post := (Sparse.find s.ctx.post r).elim s.ctx.post fun (n : Nat) => Sparse.insert s.ctx.post r (n - 1) }) ∧
        (OnlyRegs s t [(Reg.CTX_CAP_HEAD_LO.addr r 0), (Reg.CTX_CAP_HEAD_HI.addr r 0), (Reg.CTX_CAP_STAT.addr r 0)]) ∧
        (t = { s with regs := t.regs, ctx := t.ctx, mem := t.mem, poison := t.poison })) ∧
  (∀ (s : State) (r lost : Nat),
      (s.canonical = true) →
      (r < 64) →
      (s.isF Reg.CTX_CAP_STAT_RUNNING r = true) →
      (capCloses (capBlock 14 (capLose (Sparse.at [] s.ctx.cap r) lost)) = false ∨ Sparse.find s.ctx.post r = some 0) →
      Completes (.captureBlockWrite r lost) s fun t =>
        (Counts s t Reg.CTX_CAP_STAT_DROPPED r (min lost (Sparse.at [] s.ctx.cap r).length)) ∧
        (t.ctx = { s.ctx with cap := Sparse.upd [] s.ctx.cap r (capLose (Sparse.at [] s.ctx.cap r) lost) }) ∧
        (OnlyRegs s t [(Reg.CTX_CAP_STAT.addr r 0)]) ∧
        (t = { s with regs := t.regs, ctx := t.ctx })) ∧
  (∀ (s : State) (r : Nat),
      (s.canonical = true) →
      (bitOf s.ctx.trig r = true) →
      (s.isF Reg.CTX_CAP_STAT_RUNNING r = true) →
      (s.isF Reg.CTX_CAP_CFG_MODE r = true) →
      (Sparse.find s.ctx.post r = none) →
      Completes (.captureTrigger r) s fun t =>
        (SetsField s t Reg.CTX_CAP_STAT_TRIGGERED r 1) ∧
        (SetsField s t Reg.CTX_CAP_TRIG_BLOCK r (s.get64 Reg.CTX_CAP_HEAD_LO r + (capClosed (Sparse.at [] s.ctx.cap r)).1)) ∧
        (t.ctx = { s.ctx with trig := putBit s.ctx.trig r false, post := Sparse.insert s.ctx.post r ((capClosed (Sparse.at [] s.ctx.cap r)).1 + 1 + s.getF Reg.CTX_CAP_POST r) }) ∧
        (OnlyRegs s t [(Reg.CTX_CAP_STAT.addr r 0), (Reg.CTX_CAP_TRIG_BLOCK.addr r 0)]) ∧
        (t = { s with regs := t.regs, ctx := t.ctx })) ∧
  (∀ (s : State) (r : Nat),
      (bitOf s.ctx.trig r = false ∨ s.isF Reg.CTX_CAP_STAT_RUNNING r = false ∨ s.isF Reg.CTX_CAP_CFG_MODE r = false ∨ Sparse.find s.ctx.post r ≠ none) →
      Completes (.captureTrigger r) s fun t =>
        (t = s)) ∧
  (∀ (s : State) (r : Nat),
      (Sparse.find s.ctx.post r ≠ some 0 ∨ s.isF Reg.CTX_CAP_STAT_RUNNING r = false) →
      Completes (.capturePostDone r) s fun t =>
        (t = s)) ∧
  (∀ (s : State) (r : Nat),
      (s.canonical = true) →
      (r < 64) →
      (s.isF Reg.CTX_CAP_STAT_RUNNING r = true) →
      (Sparse.find s.ctx.post r = some 0) →
      Completes (.capturePostDone r) s fun t =>
        (SetsFields s t (Reg.CTX_CAP_STAT.addr r 0) [(Reg.CTX_CAP_STAT_STOPPED, 1), (Reg.CTX_CAP_STAT_RUNNING, 0)]) ∧
        (Raises s t 6 [3]) ∧
        (OnlyRegs s t [(Reg.CTX_CAP_STAT.addr r 0), (Reg.SYS_IRQ_CAUSE.addr 6 0)]) ∧
        (t = { s with regs := t.regs })) ∧
  (∀ (s : State) (flaw : List (Nat × Nat)),
      (s.canonical = true) →
      (s.isF Reg.CTX_STATUS_READY = true) →
      (s.isF Reg.CTX_SCRUB_CFG_EN = true) →
      (rsDecode flaw = RsResult.clean ∨ Sparse.at false s.poison s.ctx.scrub = true) →
      Completes (.scrubStep flaw) s fun t =>
        (t.ctx = { s.ctx with scrub := (s.ctx.scrub + 1) % (stackSize / 64) }) ∧
        (t = { s with ctx := t.ctx })) ∧
  (∀ (s : State) (flaw : List (Nat × Nat)),
      (s.canonical = true) →
      (s.isF Reg.CTX_STATUS_READY = true) →
      (s.isF Reg.CTX_SCRUB_CFG_EN = true) →
      (rsDecode flaw = RsResult.corrected) →
      (Sparse.at false s.poison s.ctx.scrub = false) →
      Completes (.scrubStep flaw) s fun t =>
        (Counts s t Reg.CTX_ECC_CE 0 1) ∧
        (t.ctx = { s.ctx with scrub := (s.ctx.scrub + 1) % (stackSize / 64) }) ∧
        (OnlyRegs s t [(Reg.CTX_ECC_CE.addr 0 0)]) ∧
        (t = { s with regs := t.regs, ctx := t.ctx })) ∧
  (∀ (s : State) (flaw : List (Nat × Nat)),
      (s.canonical = true) →
      (s.isF Reg.CTX_STATUS_READY = true) →
      (s.isF Reg.CTX_SCRUB_CFG_EN = true) →
      (rsDecode flaw = RsResult.found) →
      (Sparse.at false s.poison s.ctx.scrub = false) →
      (3 ≤ stackRange (s.ctx.scrub * 64)) →
      Completes (.scrubStep flaw) s fun t =>
        (Counts s t Reg.CTX_ECC_UE 0 1) ∧
        (SetsPair t Reg.CTX_POISON_ADDR_LO 0 (s.ctx.scrub * 64 % 2 ^ 64)) ∧
        (Raises s t 6 [1]) ∧
        (t.events = s.events ++ [LogEvent.mk 0x0701 0xFFFF [s.ctx.scrub * 64, stackRange (s.ctx.scrub * 64)]]) ∧
        (t.poison = Sparse.upd false s.poison s.ctx.scrub true) ∧
        (t.ctx = { s.ctx with scrub := (s.ctx.scrub + 1) % (stackSize / 64) }) ∧
        (OnlyRegs s t [(Reg.CTX_ECC_UE.addr 0 0), (Reg.CTX_POISON_ADDR_LO.addr 0 0), (Reg.CTX_POISON_ADDR_HI.addr 0 0), (Reg.SYS_IRQ_CAUSE.addr 6 0)]) ∧
        (t = { s with regs := t.regs, ctx := t.ctx, poison := t.poison, events := t.events })) ∧
  (∀ (s : State) (flaw : List (Nat × Nat)) (c : Nat),
      (s.canonical = true) →
      (s.isF Reg.CTX_STATUS_READY = true) →
      (s.isF Reg.CTX_SCRUB_CFG_EN = true) →
      (rsDecode flaw = RsResult.found) →
      (Sparse.at false s.poison s.ctx.scrub = false) →
      (stackRange (s.ctx.scrub * 64) = 0) →
      (c = s.ctx.scrub * 64 / 0x400000) →
      ((s.desc c).kind ≠ kindFree) →
      Completes (.scrubStep flaw) s fun t =>
        (Counts s t Reg.CTX_ECC_UE 0 1) ∧
        (SetsPair t Reg.CTX_POISON_ADDR_LO 0 (s.ctx.scrub * 64 % 2 ^ 64)) ∧
        (Raises s t 6 [1]) ∧
        (t.events = s.events ++ [LogEvent.mk 0x0701 0xFFFF [s.ctx.scrub * 64, stackRange (s.ctx.scrub * 64)]]) ∧
        (t.poison = Sparse.upd false s.poison s.ctx.scrub true) ∧
        (t.ctx.desc = (s.setDesc c { s.desc c with poisoned := true, poisonCnt := min 0xFFFFFFFF ((s.desc c).poisonCnt + 1) }).ctx.desc) ∧
        (t.ctx.scrub = (s.ctx.scrub + 1) % (stackSize / 64)) ∧
        (OnlyRegs s t [(Reg.CTX_ECC_UE.addr 0 0), (Reg.CTX_POISON_ADDR_LO.addr 0 0), (Reg.CTX_POISON_ADDR_HI.addr 0 0), (Reg.SYS_IRQ_CAUSE.addr 6 0)]) ∧
        (t = { s with regs := t.regs, ctx := t.ctx, mem := t.mem, poison := t.poison, events := t.events })) ∧
  (∀ (s : State) (flaw : List (Nat × Nat)),
      (s.canonical = true) →
      (s.isF Reg.CTX_STATUS_READY = true) →
      (s.isF Reg.CTX_SCRUB_CFG_EN = true) →
      (rsDecode flaw = RsResult.beyond) →
      (Sparse.at false s.poison s.ctx.scrub = false) →
      Completes (.scrubStep flaw) s fun t =>
        (t.free = s.free + 1) ∧
        (s.freeVal 3 % 2 = 0 → t = { s with free := s.free + 1, ctx := { s.ctx with scrub := (s.ctx.scrub + 1) % (stackSize / 64) } })) ∧
  (∀ (s : State) (place d : Nat),
      (s.canonical = true) →
      (s.isF Reg.CTX_STATUS_READY = true) →
      (s.isF Reg.CTX_SCRUB_CFG_EN = true) →
      (place < 68) →
      (0 < d) →
      (d < 256) →
      (Sparse.at false s.poison s.ctx.scrub = false) →
      Completes (.scrubStep [(place, d)]) s fun t =>
        (Counts s t Reg.CTX_ECC_CE 0 1) ∧
        (t.ctx = { s.ctx with scrub := (s.ctx.scrub + 1) % (stackSize / 64) }) ∧
        (OnlyRegs s t [(Reg.CTX_ECC_CE.addr 0 0)]) ∧
        (t = { s with regs := t.regs, ctx := t.ctx })) ∧
  (∀ (s : State) (flaw : List (Nat × Nat)),
      (s.isF Reg.CTX_STATUS_READY = false ∨ s.isF Reg.CTX_SCRUB_CFG_EN = false) →
      Completes (.scrubStep flaw) s fun t =>
        (t = s)) ∧
  (∀ (s : State) (tenths : Nat),
      (s.isF Reg.CTX_STATUS_WIPING = false) →
      Completes (.stackWipeComplete tenths) s fun t =>
        (t = s)) ∧
  (∀ (s : State) (tenths : Nat),
      (s.canonical = true) →
      (s.isF Reg.CTX_STATUS_WIPING = true) →
      Completes (.stackWipeComplete tenths) s fun t =>
        (t.mem = []) ∧
        (t.poison = []) ∧
        (t.ctx = ({} : CtxState)) ∧
        (SetsFields s t (Reg.CTX_STATUS.addr 0 0) [(Reg.CTX_STATUS_READY, 1), (Reg.CTX_STATUS_WIPING, 0), (Reg.CTX_STATUS_WIPE_TIME, min tenths 65535)]) ∧
        (Raises s t 6 [4]) ∧
        (∀ r ∈ List.range 64, t.isF Reg.CTX_CAP_CFG_EN r = false ∧ t.isF Reg.CTX_CAP_STAT_RUNNING r = false) ∧
        (CountsShown t) ∧
        (∀ a, (a < 0x101000 ∨ 0x102000 ≤ a) → a ∉ [(Reg.CTX_STATUS.addr 0 0), (Reg.CTX_COUNT_A.addr 0 0), (Reg.CTX_COUNT_B.addr 0 0), (Reg.SYS_IRQ_CAUSE.addr 6 0)] → t.rd a = s.rd a) ∧
        (t = { s with regs := t.regs, ctx := t.ctx, mem := t.mem, poison := t.poison }))

/-- ARM while ARMED or CAPTURING sets BUSY alone. Else it shows ARMED: with SNAP_AT zero the boundary is the next, with a boundary that has
passed the next one with LATE_AT and its cause, with one to come that one; with SRC LOGIC or FAULT it waits for the source. DISARM ends an
armed capture. At its boundary the capture takes every listed register's value, STOPPED for a stopped domain with value zero, counts each
failed crossing out of its domain in CLK_XING_STALE, and changes no other register. Its end shows SNAP_DATA, the STOPPED and STALE maps, the
frame and both ledger indices together, and VALID with its cause. A STALE entry's value is a free value (log 5). -/
def Obligations.SnapArmsCapturesAndCompletes : Prop :=
  (∀ (s : State) (busy wait late : Bool),
      (s.canonical = true) →
      (busy = decide (s.getF Reg.SNAP_STATUS_STATE = 1 ∨ s.getF Reg.SNAP_STATUS_STATE = 2)) →
      (wait = decide (s.getF Reg.SNAP_CTL_SRC = 1 ∨ s.getF Reg.SNAP_CTL_SRC = 2)) →
      (late = (!busy && !wait && decide (s.get64 Reg.SNAP_AT_LO ≠ 0 ∧ s.get64 Reg.SNAP_AT_LO ≤ s.frame))) →
      Completes (.snapArm) s fun t =>
        (SetsFields s t (Reg.SNAP_STATUS.addr 0 0) [(Reg.SNAP_STATUS_BUSY, if busy then 1 else s.getF Reg.SNAP_STATUS_BUSY), (Reg.SNAP_STATUS_STATE, if busy then s.getF Reg.SNAP_STATUS_STATE else 1), (Reg.SNAP_STATUS_LATE_AT, if late then 1 else s.getF Reg.SNAP_STATUS_LATE_AT)]) ∧
        (t.getF Reg.SYS_IRQ_CAUSE 13 = if late then putBit (s.getF Reg.SYS_IRQ_CAUSE 13) 1 true else s.getF Reg.SYS_IRQ_CAUSE 13) ∧
        (t.snap = if busy then s.snap else { s.snap with boundary := if wait then none else if s.get64 Reg.SNAP_AT_LO = 0 ∨ late = true then some (s.frame + 1) else some (s.get64 Reg.SNAP_AT_LO) }) ∧
        (OnlyRegs s t [(Reg.SNAP_STATUS.addr 0 0), (Reg.SYS_IRQ_CAUSE.addr 13 0)]) ∧
        (t = { s with regs := t.regs, snap := t.snap })) ∧
  (∀ (s : State),
      (s.canonical = true) →
      (s.getF Reg.SNAP_STATUS_STATE = 1 ∨ s.getF Reg.SNAP_STATUS_STATE = 2) →
      Completes (.snapArm) s fun t =>
        (SetsField s t Reg.SNAP_STATUS_BUSY 0 1) ∧
        (OnlyRegs s t [(Reg.SNAP_STATUS.addr 0 0)]) ∧
        (t = { s with regs := t.regs })) ∧
  (∀ (s : State),
      (s.canonical = true) →
      (s.getF Reg.SNAP_STATUS_STATE ≠ 1) →
      (s.getF Reg.SNAP_STATUS_STATE ≠ 2) →
      (s.getF Reg.SNAP_CTL_SRC = 1 ∨ s.getF Reg.SNAP_CTL_SRC = 2) →
      Completes (.snapArm) s fun t =>
        (SetsField s t Reg.SNAP_STATUS_STATE 0 1) ∧
        (t.snap = { s.snap with boundary := none }) ∧
        (OnlyRegs s t [(Reg.SNAP_STATUS.addr 0 0)]) ∧
        (t = { s with regs := t.regs, snap := t.snap })) ∧
  (∀ (s : State),
      (s.canonical = true) →
      (s.getF Reg.SNAP_STATUS_STATE ≠ 1) →
      (s.getF Reg.SNAP_STATUS_STATE ≠ 2) →
      (s.getF Reg.SNAP_CTL_SRC ≠ 1) →
      (s.getF Reg.SNAP_CTL_SRC ≠ 2) →
      (s.get64 Reg.SNAP_AT_LO = 0) →
      Completes (.snapArm) s fun t =>
        (SetsField s t Reg.SNAP_STATUS_STATE 0 1) ∧
        (t.snap = { s.snap with boundary := some (s.frame + 1) }) ∧
        (OnlyRegs s t [(Reg.SNAP_STATUS.addr 0 0)]) ∧
        (t = { s with regs := t.regs, snap := t.snap })) ∧
  (∀ (s : State),
      (s.canonical = true) →
      (s.getF Reg.SNAP_STATUS_STATE ≠ 1) →
      (s.getF Reg.SNAP_STATUS_STATE ≠ 2) →
      (s.getF Reg.SNAP_CTL_SRC ≠ 1) →
      (s.getF Reg.SNAP_CTL_SRC ≠ 2) →
      (s.get64 Reg.SNAP_AT_LO ≠ 0) →
      (s.get64 Reg.SNAP_AT_LO ≤ s.frame) →
      Completes (.snapArm) s fun t =>
        (SetsFields s t (Reg.SNAP_STATUS.addr 0 0) [(Reg.SNAP_STATUS_STATE, 1), (Reg.SNAP_STATUS_LATE_AT, 1)]) ∧
        (Raises s t 13 [1]) ∧
        (t.snap = { s.snap with boundary := some (s.frame + 1) }) ∧
        (OnlyRegs s t [(Reg.SNAP_STATUS.addr 0 0), (Reg.SYS_IRQ_CAUSE.addr 13 0)]) ∧
        (t = { s with regs := t.regs, snap := t.snap })) ∧
  (∀ (s : State),
      (s.canonical = true) →
      (s.getF Reg.SNAP_STATUS_STATE ≠ 1) →
      (s.getF Reg.SNAP_STATUS_STATE ≠ 2) →
      (s.getF Reg.SNAP_CTL_SRC ≠ 1) →
      (s.getF Reg.SNAP_CTL_SRC ≠ 2) →
      (s.frame < s.get64 Reg.SNAP_AT_LO) →
      Completes (.snapArm) s fun t =>
        (SetsField s t Reg.SNAP_STATUS_STATE 0 1) ∧
        (t.snap = { s.snap with boundary := some (s.get64 Reg.SNAP_AT_LO) }) ∧
        (OnlyRegs s t [(Reg.SNAP_STATUS.addr 0 0)]) ∧
        (t = { s with regs := t.regs, snap := t.snap })) ∧
  (∀ (s : State),
      (s.canonical = true) →
      (s.getF Reg.SNAP_STATUS_STATE = 1) →
      Completes (.snapDisarm) s fun t =>
        (SetsField s t Reg.SNAP_STATUS_STATE 0 0) ∧
        (t.snap = { s.snap with boundary := none }) ∧
        (OnlyRegs s t [(Reg.SNAP_STATUS.addr 0 0)]) ∧
        (t = { s with regs := t.regs, snap := t.snap })) ∧
  (∀ (s : State) (stale : List Nat) (f : Nat),
      (s.canonical = true) →
      (s.snap.boundary = some f) →
      (s.getF Reg.SNAP_STATUS_STATE = 1) →
      (f ≤ s.frame) →
      Completes (.snapCapture stale) s fun t =>
        (SetsField s t Reg.SNAP_STATUS_STATE 0 2) ∧
        (t.free = s.free + 1) ∧
        (t.snap.values.length = min 512 (s.getF Reg.SNAP_CTL_COUNT)) ∧
        (∀ e a d, e < min 512 (s.getF Reg.SNAP_CTL_COUNT) → a = s.getF Reg.SNAP_LIST e % 2 ^ 26 / 4 * 4 → blockDomain a = some d → s.runs d = true → e ∉ stale → pathWord a = false → t.snap.values[e]? = some (s.peek 0 a, false, false)) ∧
        (∀ e a d, e < min 512 (s.getF Reg.SNAP_CTL_COUNT) → a = s.getF Reg.SNAP_LIST e % 2 ^ 26 / 4 * 4 → blockDomain a = some d → s.runs d = false → t.snap.values[e]? = some (0#32, true, false)) ∧
        (∀ d ∈ List.range 40, t.getF Reg.CLK_XING_STALE d = min 0xFFFFFFFF (s.getF Reg.CLK_XING_STALE d + ((List.range s.snapCount).filter fun (e : Nat) => decide (e ∈ stale ∧ blockDomain (s.getF Reg.SNAP_LIST e % 2 ^ 26 / 4 * 4) = some (d + 1) ∧ s.runs (d + 1) = true)).length)) ∧
        (t.snap.rackIdx = s.get64 Reg.LDG_RACK_APPLIED_LO) ∧
        (t.snap.hallIdx = s.get64 Reg.LDG_HALL_APPLIED_LO) ∧
        (OnlyRegs s t (Reg.SNAP_STATUS.addr 0 0 :: (List.range 40).map fun (d : Nat) => Reg.CLK_XING_STALE.addr d 0)) ∧
        (t = { s with regs := t.regs, snap := t.snap, free := t.free })) ∧
  (∀ (s : State) (stale : List Nat),
      (s.snap.boundary.all (fun (f : Nat) => decide (s.frame < f)) = true ∨ s.getF Reg.SNAP_STATUS_STATE ≠ 1) →
      Completes (.snapCapture stale) s fun t =>
        (t = s)) ∧
  (∀ (s : State),
      (s.getF Reg.SNAP_STATUS_STATE ≠ 1) →
      Completes (.snapDisarm) s fun t =>
        (t = s)) ∧
  (∀ (s : State),
      (s.getF Reg.SNAP_STATUS_STATE ≠ 2) →
      Completes (.snapComplete) s fun t =>
        (t = s)) ∧
  (∀ (s : State) (vs : List (Word × Bool × Bool)),
      (s.canonical = true) →
      (s.getF Reg.SNAP_STATUS_STATE = 2) →
      (vs = s.snap.values) →
      (vs.length ≤ 512) →
      Completes (.snapComplete) s fun t =>
        (∀ e ∈ List.range vs.length, t.rd (Reg.SNAP_DATA.addr e 0) = (vs.getD e (0#32, false, false)).1) ∧
        (∀ e ∈ List.range 512, t.getF Reg.SNAP_STOPPED (e / 32) / 2 ^ (e % 32) % 2 = ofBool (vs.getD e (0#32, false, false)).2.1 ∧ t.getF Reg.SNAP_STALE (e / 32) / 2 ^ (e % 32) % 2 = ofBool (vs.getD e (0#32, false, false)).2.2) ∧
        (SetsFields s t (Reg.SNAP_STATUS.addr 0 0) [(Reg.SNAP_STATUS_STOPPED_ANY, ofBool (vs.any fun (v : Word × Bool × Bool) => v.2.1)), (Reg.SNAP_STATUS_STALE_ANY, ofBool (vs.any fun (v : Word × Bool × Bool) => v.2.2)), (Reg.SNAP_STATUS_STATE, 3)]) ∧
        (SetsPair t Reg.SNAP_FRAME_LO 0 (s.snap.boundary.getD 0 % 2 ^ 64)) ∧
        (SetsPair t Reg.SNAP_RACK_IDX_LO 0 (s.snap.rackIdx % 2 ^ 64)) ∧
        (SetsPair t Reg.SNAP_HALL_IDX_LO 0 (s.snap.hallIdx % 2 ^ 64)) ∧
        (Raises s t 13 [0]) ∧
        (t.snap = ({} : SnapState)) ∧
        (∀ a, (a < 0x120000 ∨ 0x123000 ≤ a) → a ≠ (Reg.SYS_IRQ_CAUSE.addr 13 0) → t.rd a = s.rd a) ∧
        (t = { s with regs := t.regs, snap := t.snap })) ∧
  (∀ (s : State) (w : Word) (st sl : Bool),
      (s.canonical = true) →
      (s.getF Reg.SNAP_STATUS_STATE = 2) →
      (s.snap.values = [(w, st, sl)]) →
      Completes (.snapComplete) s fun t =>
        (t.rd (Reg.SNAP_DATA.addr 0 0) = w) ∧
        (t.rd (Reg.SNAP_STOPPED.addr 0 0) = BitVec.ofNat 32 (ofBool st)) ∧
        (t.rd (Reg.SNAP_STALE.addr 0 0) = BitVec.ofNat 32 (ofBool sl)) ∧
        (SetsFields s t (Reg.SNAP_STATUS.addr 0 0) [(Reg.SNAP_STATUS_STOPPED_ANY, ofBool st), (Reg.SNAP_STATUS_STALE_ANY, ofBool sl), (Reg.SNAP_STATUS_STATE, 3)]) ∧
        (SetsPair t Reg.SNAP_FRAME_LO 0 (s.snap.boundary.getD 0 % 2 ^ 64)) ∧
        (SetsPair t Reg.SNAP_RACK_IDX_LO 0 (s.snap.rackIdx % 2 ^ 64)) ∧
        (SetsPair t Reg.SNAP_HALL_IDX_LO 0 (s.snap.hallIdx % 2 ^ 64)) ∧
        (Raises s t 13 [0]) ∧
        (t.snap = ({} : SnapState)) ∧
        (∀ a, (a < 0x120000 ∨ 0x123000 ≤ a) → a ≠ (Reg.SYS_IRQ_CAUSE.addr 13 0) → t.rd a = s.rd a) ∧
        (t = { s with regs := t.regs, snap := t.snap }))

/-- Every type of hint protocol message is checked in the order of R231. A frame without a datagram for the hint protocol counts where the MAC
discards it and does nothing else; a message on a port that is down, or while the network is disabled, changes nothing. One whose form is
bad counts under code 0, one without the tag that is required under 1, one in phase WAIT under 3, one from a sender that is not admitted
under 2, and after a HINT, TELEM or ACTIVITY from one a unicast DISCOVER goes out and its instant is kept. A HINT that its sender's role may
not send counts under 12, a copy of a GRANT under 7, a HINT over its sender's rate under 5; a HINT without time quality under 8, with a bad
body under 9, without room under 10: these have taken their token. Nothing else changes. -/
def Obligations.ArrivingMessagesAreChecked : Prop :=
  (∀ (s : State) (port now queued : Nat) (frame : List Byte),
      (s.hintDatagram port frame = none) →
      Completes (.hintReceive port now queued frame) s fun t =>
        (t = s.macCount port frame)) ∧
  (∀ (s : State) (port now queued : Nat) (frame : List Byte),
      (s.hintDatagram port frame = none) →
      Completes (.telemReceive port now queued frame) s fun t =>
        (t = s.macCount port frame)) ∧
  (∀ (s : State) (port now queued : Nat) (frame : List Byte),
      (s.hintDatagram port frame = none) →
      Completes (.activityReceive port now queued frame) s fun t =>
        (t = s.macCount port frame)) ∧
  (∀ (s : State) (port now : Nat) (frame : List Byte),
      (s.hintDatagram port frame = none) →
      Completes (.grantReceive port now frame) s fun t =>
        (t = s.macCount port frame)) ∧
  (∀ (s : State) (port now : Nat) (frame : List Byte),
      (s.hintDatagram port frame = none) →
      Completes (.discoverReceive port now frame) s fun t =>
        (t = s.macCount port frame)) ∧
  (∀ (s : State) (port now : Nat) (frame : List Byte),
      (s.hintDatagram port frame = none) →
      Completes (.announceReceive port now frame) s fun t =>
        (t = s.macCount port frame)) ∧
  (∀ (s : State) (port now queued : Nat) (message : List Byte) (frame : List Byte),
      (s.canonical = true) →
      (s.hintDatagram port frame = some message) →
      (s.hears port = true) →
      (hintFormOk message = false) →
      Completes (.hintReceive port now queued frame) s fun t =>
        (Counts s t Reg.HNT_DROP 0 1) ∧
        (OnlyRegs s t [(Reg.HNT_DROP.addr 0 0)]) ∧
        (t = { s with regs := t.regs })) ∧
  (∀ (s : State) (port now queued : Nat) (message : List Byte) (frame : List Byte),
      (s.canonical = true) →
      (s.hintDatagram port frame = some message) →
      (s.hears port = true) →
      (hintFormOk message = true) →
      (beAt message 3 1 = 1) →
      (s.tagOk message = false) →
      (bitOf (beAt message 4 1) 0 = false) →
      Completes (.hintReceive port now queued frame) s fun t =>
        (Counts s t Reg.HNT_DROP 1 1) ∧
        (OnlyRegs s t [(Reg.HNT_DROP.addr 1 0)]) ∧
        (t = { s with regs := t.regs })) ∧
  (∀ (s : State) (port now queued : Nat) (message : List Byte) (frame : List Byte),
      (s.canonical = true) →
      (s.hintDatagram port frame = some message) →
      (s.hears port = true) →
      (hintFormOk message = true) →
      (beAt message 3 1 = 1) →
      (s.tagOk message = true) →
      (s.phase = phaseWait) →
      Completes (.hintReceive port now queued frame) s fun t =>
        (Counts s t Reg.HNT_DROP 3 1) ∧
        (OnlyRegs s t [(Reg.HNT_DROP.addr 3 0)]) ∧
        (t = { s with regs := t.regs })) ∧
  (∀ (s : State) (port now queued : Nat) (message : List Byte) (frame : List Byte),
      (s.hintDatagram port frame = some message) →
      (s.hears port = false) →
      Completes (.hintReceive port now queued frame) s fun t =>
        (t = s)) ∧
  (∀ (s : State) (port now queued : Nat) (message : List Byte) (frame : List Byte),
      (s.canonical = true) →
      (s.hintDatagram port frame = some message) →
      (s.hears port = true) →
      (hintFormOk message = false) →
      Completes (.telemReceive port now queued frame) s fun t =>
        (Counts s t Reg.HNT_DROP 0 1) ∧
        (OnlyRegs s t [(Reg.HNT_DROP.addr 0 0)]) ∧
        (t = { s with regs := t.regs })) ∧
  (∀ (s : State) (port now queued : Nat) (message : List Byte) (frame : List Byte),
      (s.canonical = true) →
      (s.hintDatagram port frame = some message) →
      (s.hears port = true) →
      (hintFormOk message = true) →
      (beAt message 3 1 = 2) →
      (s.tagOk message = false) →
      (bitOf (beAt message 4 1) 0 = false) →
      Completes (.telemReceive port now queued frame) s fun t =>
        (Counts s t Reg.HNT_DROP 1 1) ∧
        (OnlyRegs s t [(Reg.HNT_DROP.addr 1 0)]) ∧
        (t = { s with regs := t.regs })) ∧
  (∀ (s : State) (port now queued : Nat) (message : List Byte) (frame : List Byte),
      (s.canonical = true) →
      (s.hintDatagram port frame = some message) →
      (s.hears port = true) →
      (hintFormOk message = true) →
      (beAt message 3 1 = 2) →
      (s.tagOk message = true) →
      (s.phase = phaseWait) →
      Completes (.telemReceive port now queued frame) s fun t =>
        (Counts s t Reg.HNT_DROP 3 1) ∧
        (OnlyRegs s t [(Reg.HNT_DROP.addr 3 0)]) ∧
        (t = { s with regs := t.regs })) ∧
  (∀ (s : State) (port now queued : Nat) (message : List Byte) (frame : List Byte),
      (s.hintDatagram port frame = some message) →
      (s.hears port = false) →
      Completes (.telemReceive port now queued frame) s fun t =>
        (t = s)) ∧
  (∀ (s : State) (port now queued : Nat) (message : List Byte) (frame : List Byte),
      (s.canonical = true) →
      (s.hintDatagram port frame = some message) →
      (s.hears port = true) →
      (hintFormOk message = false) →
      Completes (.activityReceive port now queued frame) s fun t =>
        (Counts s t Reg.HNT_DROP 0 1) ∧
        (OnlyRegs s t [(Reg.HNT_DROP.addr 0 0)]) ∧
        (t = { s with regs := t.regs })) ∧
  (∀ (s : State) (port now queued : Nat) (message : List Byte) (frame : List Byte),
      (s.canonical = true) →
      (s.hintDatagram port frame = some message) →
      (s.hears port = true) →
      (hintFormOk message = true) →
      (beAt message 3 1 = 3) →
      (s.tagOk message = false) →
      (bitOf (beAt message 4 1) 0 = false) →
      Completes (.activityReceive port now queued frame) s fun t =>
        (Counts s t Reg.HNT_DROP 1 1) ∧
        (OnlyRegs s t [(Reg.HNT_DROP.addr 1 0)]) ∧
        (t = { s with regs := t.regs })) ∧
  (∀ (s : State) (port now queued : Nat) (message : List Byte) (frame : List Byte),
      (s.canonical = true) →
      (s.hintDatagram port frame = some message) →
      (s.hears port = true) →
      (hintFormOk message = true) →
      (beAt message 3 1 = 3) →
      (s.tagOk message = true) →
      (s.phase = phaseWait) →
      Completes (.activityReceive port now queued frame) s fun t =>
        (Counts s t Reg.HNT_DROP 3 1) ∧
        (OnlyRegs s t [(Reg.HNT_DROP.addr 3 0)]) ∧
        (t = { s with regs := t.regs })) ∧
  (∀ (s : State) (port now queued : Nat) (message : List Byte) (frame : List Byte),
      (s.hintDatagram port frame = some message) →
      (s.hears port = false) →
      Completes (.activityReceive port now queued frame) s fun t =>
        (t = s)) ∧
  (∀ (s : State) (port now : Nat) (message : List Byte) (frame : List Byte),
      (s.canonical = true) →
      (s.hintDatagram port frame = some message) →
      (s.hears port = true) →
      (hintFormOk message = false) →
      Completes (.grantReceive port now frame) s fun t =>
        (Counts s t Reg.HNT_DROP 0 1) ∧
        (OnlyRegs s t [(Reg.HNT_DROP.addr 0 0)]) ∧
        (t = { s with regs := t.regs })) ∧
  (∀ (s : State) (port now : Nat) (message : List Byte) (frame : List Byte),
      (s.canonical = true) →
      (s.hintDatagram port frame = some message) →
      (s.hears port = true) →
      (hintFormOk message = true) →
      (beAt message 3 1 = 4) →
      (s.tagOk message = false) →
      (bitOf (beAt message 4 1) 0 = false) →
      Completes (.grantReceive port now frame) s fun t =>
        (Counts s t Reg.HNT_DROP 1 1) ∧
        (OnlyRegs s t [(Reg.HNT_DROP.addr 1 0)]) ∧
        (t = { s with regs := t.regs })) ∧
  (∀ (s : State) (port now : Nat) (message : List Byte) (frame : List Byte),
      (s.canonical = true) →
      (s.hintDatagram port frame = some message) →
      (s.hears port = true) →
      (hintFormOk message = true) →
      (beAt message 3 1 = 4) →
      (s.tagOk message = true) →
      (s.phase = phaseWait) →
      Completes (.grantReceive port now frame) s fun t =>
        (Counts s t Reg.HNT_DROP 3 1) ∧
        (OnlyRegs s t [(Reg.HNT_DROP.addr 3 0)]) ∧
        (t = { s with regs := t.regs })) ∧
  (∀ (s : State) (port now : Nat) (message : List Byte) (frame : List Byte),
      (s.hintDatagram port frame = some message) →
      (s.hears port = false) →
      Completes (.grantReceive port now frame) s fun t =>
        (t = s)) ∧
  (∀ (s : State) (port now : Nat) (message : List Byte) (frame : List Byte),
      (s.canonical = true) →
      (s.hintDatagram port frame = some message) →
      (s.hears port = true) →
      (hintFormOk message = false) →
      Completes (.discoverReceive port now frame) s fun t =>
        (Counts s t Reg.HNT_DROP 0 1) ∧
        (OnlyRegs s t [(Reg.HNT_DROP.addr 0 0)]) ∧
        (t = { s with regs := t.regs })) ∧
  (∀ (s : State) (port now : Nat) (message : List Byte) (frame : List Byte),
      (s.canonical = true) →
      (s.hintDatagram port frame = some message) →
      (s.hears port = true) →
      (hintFormOk message = true) →
      (beAt message 3 1 = 5) →
      (s.tagOk message = false) →
      (bitOf (beAt message 4 1) 0 = false) →
      Completes (.discoverReceive port now frame) s fun t =>
        (Counts s t Reg.HNT_DROP 1 1) ∧
        (OnlyRegs s t [(Reg.HNT_DROP.addr 1 0)]) ∧
        (t = { s with regs := t.regs })) ∧
  (∀ (s : State) (port now : Nat) (message : List Byte) (frame : List Byte),
      (s.canonical = true) →
      (s.hintDatagram port frame = some message) →
      (s.hears port = true) →
      (hintFormOk message = true) →
      (beAt message 3 1 = 5) →
      (s.tagOk message = true) →
      (s.phase = phaseWait) →
      Completes (.discoverReceive port now frame) s fun t =>
        (Counts s t Reg.HNT_DROP 3 1) ∧
        (OnlyRegs s t [(Reg.HNT_DROP.addr 3 0)]) ∧
        (t = { s with regs := t.regs })) ∧
  (∀ (s : State) (port now : Nat) (message : List Byte) (frame : List Byte),
      (s.hintDatagram port frame = some message) →
      (s.hears port = false) →
      Completes (.discoverReceive port now frame) s fun t =>
        (t = s)) ∧
  (∀ (s : State) (port now : Nat) (message : List Byte) (frame : List Byte),
      (s.canonical = true) →
      (s.hintDatagram port frame = some message) →
      (s.hears port = true) →
      (hintFormOk message = false) →
      Completes (.announceReceive port now frame) s fun t =>
        (Counts s t Reg.HNT_DROP 0 1) ∧
        (OnlyRegs s t [(Reg.HNT_DROP.addr 0 0)]) ∧
        (t = { s with regs := t.regs })) ∧
  (∀ (s : State) (port now : Nat) (message : List Byte) (frame : List Byte),
      (s.canonical = true) →
      (s.hintDatagram port frame = some message) →
      (s.hears port = true) →
      (hintFormOk message = true) →
      (beAt message 3 1 = 6) →
      (s.tagOk message = false) →
      (bitOf (beAt message 4 1) 0 = false) →
      Completes (.announceReceive port now frame) s fun t =>
        (Counts s t Reg.HNT_DROP 1 1) ∧
        (OnlyRegs s t [(Reg.HNT_DROP.addr 1 0)]) ∧
        (t = { s with regs := t.regs })) ∧
  (∀ (s : State) (port now : Nat) (message : List Byte) (frame : List Byte),
      (s.canonical = true) →
      (s.hintDatagram port frame = some message) →
      (s.hears port = true) →
      (hintFormOk message = true) →
      (beAt message 3 1 = 6) →
      (s.tagOk message = true) →
      (s.phase = phaseWait) →
      Completes (.announceReceive port now frame) s fun t =>
        (Counts s t Reg.HNT_DROP 3 1) ∧
        (OnlyRegs s t [(Reg.HNT_DROP.addr 3 0)]) ∧
        (t = { s with regs := t.regs })) ∧
  (∀ (s : State) (port now : Nat) (message : List Byte) (frame : List Byte),
      (s.hintDatagram port frame = some message) →
      (s.hears port = false) →
      Completes (.announceReceive port now frame) s fun t =>
        (t = s)) ∧
  (∀ (s : State) (port now : Nat) (message : List Byte) (frame : List Byte),
      (s.canonical = true) →
      (s.hintDatagram port frame = some message) →
      (s.fromStranger 4 port message = true) →
      Completes (.grantReceive port now frame) s fun t =>
        (Counts s t Reg.HNT_DROP 2 1) ∧
        (OnlyRegs s t [(Reg.HNT_DROP.addr 2 0)]) ∧
        (t = { s with regs := t.regs })) ∧
  (∀ (s : State) (port now queued : Nat) (message : List Byte) (frame : List Byte),
      (s.canonical = true) →
      (s.hintDatagram port frame = some message) →
      (s.fromStranger 1 port message = true) →
      (Sparse.find s.hnt.discAt (beAt message 8 8) = none) →
      (s.speaks = true) →
      Completes (.hintReceive port now queued frame) s fun t =>
        (Counts s t Reg.HNT_DROP 2 1) ∧
        (t.outbox = s.outbox ++ s.hintTo 5 (beAt message 8 8) (beBytes 2 (s.getF Reg.HNT_CFG_RACK) ++ beBytes 2 s.discWindow ++ beBytes 2 s.discSlots ++ beBytes 2 0)) ∧
        (t.hnt = { s.hnt with discAt := Sparse.insert s.hnt.discAt (beAt message 8 8) now, seq := (s.hnt.seq + 1) % 2 ^ 32 }) ∧
        (OnlyRegs s t [(Reg.HNT_DROP.addr 2 0)]) ∧
        (t = { s with regs := t.regs, hnt := t.hnt, outbox := t.outbox })) ∧
  (∀ (s : State) (port now queued : Nat) (message : List Byte) (frame : List Byte),
      (s.canonical = true) →
      (s.hintDatagram port frame = some message) →
      (s.fromStranger 2 port message = true) →
      (Sparse.find s.hnt.discAt (beAt message 8 8) = none) →
      (s.speaks = true) →
      Completes (.telemReceive port now queued frame) s fun t =>
        (Counts s t Reg.HNT_DROP 2 1) ∧
        (t.outbox = s.outbox ++ s.hintTo 5 (beAt message 8 8) (beBytes 2 (s.getF Reg.HNT_CFG_RACK) ++ beBytes 2 s.discWindow ++ beBytes 2 s.discSlots ++ beBytes 2 0)) ∧
        (t.hnt = { s.hnt with discAt := Sparse.insert s.hnt.discAt (beAt message 8 8) now, seq := (s.hnt.seq + 1) % 2 ^ 32 }) ∧
        (OnlyRegs s t [(Reg.HNT_DROP.addr 2 0)]) ∧
        (t = { s with regs := t.regs, hnt := t.hnt, outbox := t.outbox })) ∧
  (∀ (s : State) (port now queued : Nat) (message : List Byte) (frame : List Byte),
      (s.canonical = true) →
      (s.hintDatagram port frame = some message) →
      (s.fromStranger 3 port message = true) →
      (Sparse.find s.hnt.discAt (beAt message 8 8) = none) →
      (s.speaks = true) →
      Completes (.activityReceive port now queued frame) s fun t =>
        (Counts s t Reg.HNT_DROP 2 1) ∧
        (t.outbox = s.outbox ++ s.hintTo 5 (beAt message 8 8) (beBytes 2 (s.getF Reg.HNT_CFG_RACK) ++ beBytes 2 s.discWindow ++ beBytes 2 s.discSlots ++ beBytes 2 0)) ∧
        (t.hnt = { s.hnt with discAt := Sparse.insert s.hnt.discAt (beAt message 8 8) now, seq := (s.hnt.seq + 1) % 2 ^ 32 }) ∧
        (OnlyRegs s t [(Reg.HNT_DROP.addr 2 0)]) ∧
        (t = { s with regs := t.regs, hnt := t.hnt, outbox := t.outbox })) ∧
  (∀ (s : State) (port now queued i : Nat) (message : List Byte) (frame : List Byte),
      (s.canonical = true) →
      (s.hintDatagram port frame = some message) →
      (s.takes 1 port message = true) →
      (s.ptFind (beAt message 8 8) = some i) →
      (s.ptIn i = true) →
      (s.getF Reg.HNT_PT_STATE_ROLE i = roleModule) →
      Completes (.hintReceive port now queued frame) s fun t =>
        (Counts s t Reg.HNT_DROP 12 1) ∧
        (OnlyRegs s t [(Reg.HNT_DROP.addr 12 0)]) ∧
        (t = { s with regs := t.regs })) ∧
  (∀ (s : State) (port now i : Nat) (message : List Byte) (frame : List Byte),
      (s.canonical = true) →
      (s.hintDatagram port frame = some message) →
      (s.takes 4 port message = true) →
      (s.ptFind (beAt message 8 8) = some i) →
      (s.ptIn i = true) →
      (s.getF Reg.HNT_PT_STATE_ROLE i = roleModule) →
      ((s.partner i).seqClass ((s.partner i).first || decide (s.ptState i = ptSilent)) (beAt message 16 4) now = SeqClass.copy) →
      Completes (.grantReceive port now frame) s fun t =>
        (Counts s t Reg.HNT_DROP 7 1) ∧
        (OnlyRegs s t [(Reg.HNT_DROP.addr 7 0)]) ∧
        (t = { s with regs := t.regs })) ∧
  (∀ (s : State) (port now queued i rate depth : Nat) (message : List Byte) (c : SeqClass) (frame : List Byte),
      (s.canonical = true) →
      (s.hintDatagram port frame = some message) →
      (s.fromPartner 1 port now message i c = true) →
      (s.rateOf 1 = some (rate, depth)) →
      (takeToken (Sparse.at none (s.partner i).bucket 1) rate depth now = none) →
      Completes (.hintReceive port now queued frame) s fun t =>
        (Counts s t Reg.HNT_DROP 5 1) ∧
        (OnlyRegs s t [(Reg.HNT_DROP.addr 5 0)]) ∧
        (t = { s with regs := t.regs })) ∧
  (∀ (s : State) (port now queued i rate depth : Nat) (message : List Byte) (c : SeqClass) (b : Option (Nat × Nat)) (frame : List Byte),
      (s.canonical = true) →
      (s.hintDatagram port frame = some message) →
      (s.fromPartner 1 port now message i c = true) →
      (s.rateOf 1 = some (rate, depth)) →
      (takeToken (Sparse.at none (s.partner i).bucket 1) rate depth now = some b) →
      (s.tq < 2) →
      Completes (.hintReceive port now queued frame) s fun t =>
        (Counts s t Reg.HNT_DROP 8 1) ∧
        (t.hnt = (s.tokenTaken i 1 b).hnt) ∧
        (OnlyRegs s t [(Reg.HNT_DROP.addr 8 0)]) ∧
        (t = { s with regs := t.regs, hnt := t.hnt })) ∧
  (∀ (s : State) (port now queued i rate depth : Nat) (message : List Byte) (c : SeqClass) (b : Option (Nat × Nat)) (frame : List Byte),
      (s.canonical = true) →
      (s.hintDatagram port frame = some message) →
      (s.fromPartner 1 port now message i c = true) →
      (s.rateOf 1 = some (rate, depth)) →
      (takeToken (Sparse.at none (s.partner i).bucket 1) rate depth now = some b) →
      (2 ≤ s.tq) →
      (hintTimeOk message now = false) →
      Completes (.hintReceive port now queued frame) s fun t =>
        (Counts s t Reg.HNT_DROP 9 1) ∧
        (t.hnt = (s.tokenTaken i 1 b).hnt) ∧
        (OnlyRegs s t [(Reg.HNT_DROP.addr 9 0)]) ∧
        (t = { s with regs := t.regs, hnt := t.hnt })) ∧
  (∀ (s : State) (port now queued i rate depth : Nat) (message : List Byte) (c : SeqClass) (b : Option (Nat × Nat)) (frame : List Byte),
      (s.canonical = true) →
      (s.hintDatagram port frame = some message) →
      (s.fromPartner 1 port now message i c = true) →
      (s.rateOf 1 = some (rate, depth)) →
      (takeToken (Sparse.at none (s.partner i).bucket 1) rate depth now = some b) →
      (2 ≤ s.tq) →
      (hintTimeOk message now = true) →
      (queueRoom 1 queued = false) →
      Completes (.hintReceive port now queued frame) s fun t =>
        (Counts s t Reg.HNT_DROP 10 1) ∧
        (t.hnt = (s.tokenTaken i 1 b).hnt) ∧
        (OnlyRegs s t [(Reg.HNT_DROP.addr 10 0)]) ∧
        (t = { s with regs := t.regs, hnt := t.hnt }))

/-- A message that passes the checks is accepted: its sender's entry shows its time quality and zero time since it, and its number is
remembered. LAST_SEQ and the gaps of its STREAM context follow it. A GRANT changes nothing else. A DISCOVER also schedules the module's
answer in its slot, unless one is pending. A HINT of a known context pair is written to the HINT ring of the STREAM context and of its JOB
context, and two records are counted for the next boundary message. A TELEM without a job is written to the TELEM ring and kept for
attribution; an ACTIVITY likewise; a message without a job takes the STREAM from its parent. No other register and nothing else changes. -/
def Obligations.AcceptedMessagesTakeEffect : Prop :=
  (∀ (s : State) (port now i : Nat) (message : List Byte) (c : SeqClass) (frame : List Byte),
      (s.canonical = true) →
      (s.hintDatagram port frame = some message) →
      (s.fromPartner 4 port now message i c = true) →
      (s.ptState i ≠ ptSilent) →
      Completes (.grantReceive port now frame) s fun t =>
        (SetsFields s t (Reg.HNT_PT_STATE.addr i 0) [(Reg.HNT_PT_STATE_TQ, beAt message 5 1)]) ∧
        (SetsField s t Reg.HNT_PT_SEEN i 0) ∧
        (t.hnt = (s.numbered i port now c message).hnt) ∧
        (t.ctx = ((s.ctxOf kindStream (beAt message 8 8)).elim s fun (st : Nat) => s.tellDesc st fun (d : Desc) => d.takeSeq c (beAt message 16 4)).ctx) ∧
        (t.mem = ((s.ctxOf kindStream (beAt message 8 8)).elim s fun (st : Nat) => s.tellDesc st fun (d : Desc) => d.takeSeq c (beAt message 16 4)).mem) ∧
        (t.poison = ((s.ctxOf kindStream (beAt message 8 8)).elim s fun (st : Nat) => s.tellDesc st fun (d : Desc) => d.takeSeq c (beAt message 16 4)).poison) ∧
        (OnlyRegs s t [(Reg.HNT_PT_STATE.addr i 0), (Reg.HNT_PT_SEEN.addr i 0)]) ∧
        (t = { s with regs := t.regs, hnt := t.hnt, ctx := t.ctx, mem := t.mem, poison := t.poison })) ∧
  (∀ (s : State) (port now i : Nat) (message : List Byte) (c : SeqClass) (frame : List Byte),
      (s.canonical = true) →
      (s.hintDatagram port frame = some message) →
      (s.fromPartner 5 port now message i c = true) →
      (s.ptState i ≠ ptSilent) →
      (s.hnt.annAt = none) →
      Completes (.discoverReceive port now frame) s fun t =>
        (SetsFields s t (Reg.HNT_PT_STATE.addr i 0) [(Reg.HNT_PT_STATE_TQ, beAt message 5 1)]) ∧
        (SetsField s t Reg.HNT_PT_SEEN i 0) ∧
        (t.hnt = { (s.numbered i port now c message).hnt with annAt := some (now + 10000000 + crc32c (beBytes 8 s.selfId) % max 1 (beAt message 24 2) * (beAt message 22 2 * 1000000) / max 1 (beAt message 24 2)) }) ∧
        (t.ctx = ((s.ctxOf kindStream (beAt message 8 8)).elim s fun (st : Nat) => s.tellDesc st fun (d : Desc) => d.takeSeq c (beAt message 16 4)).ctx) ∧
        (t.mem = ((s.ctxOf kindStream (beAt message 8 8)).elim s fun (st : Nat) => s.tellDesc st fun (d : Desc) => d.takeSeq c (beAt message 16 4)).mem) ∧
        (t.poison = ((s.ctxOf kindStream (beAt message 8 8)).elim s fun (st : Nat) => s.tellDesc st fun (d : Desc) => d.takeSeq c (beAt message 16 4)).poison) ∧
        (OnlyRegs s t [(Reg.HNT_PT_STATE.addr i 0), (Reg.HNT_PT_SEEN.addr i 0)]) ∧
        (t = { s with regs := t.regs, hnt := t.hnt, ctx := t.ctx, mem := t.mem, poison := t.poison })) ∧
  (∀ (s : State) (port now : Nat) (message : List Byte) (b : Option (Nat × Nat)) (frame : List Byte),
      (s.canonical = true) →
      (s.hintDatagram port frame = some message) →
      (s.fromStranger 5 port message = true) →
      (takeToken (Sparse.at none s.hnt.bucket port) 4000 512 now = some b) →
      (s.hnt.annAt = none) →
      (s.strangerCopy port now message = false) →
      Completes (.discoverReceive port now frame) s fun t =>
        (t.hnt = { (s.strangerHeard port now message b).hnt with annAt := some (s.answerAt now (beAt message 22 2) (beAt message 24 2)) }) ∧
        (t = { s with hnt := t.hnt })) ∧
  (∀ (s : State) (port now queued i rate depth st j : Nat) (message : List Byte) (c : SeqClass) (b : Option (Nat × Nat)) (frame : List Byte),
      (s.canonical = true) →
      (s.hintDatagram port frame = some message) →
      (s.fromPartner 1 port now message i c = true) →
      (s.rateOf 1 = some (rate, depth)) →
      (takeToken (Sparse.at none (s.partner i).bucket 1) rate depth now = some b) →
      (s.ptState i ≠ ptSilent) →
      (s.ctxFind kindStream (beAt message 8 8) = some st) →
      ((s.desc st).kind = kindStream) →
      (Sparse.find s.ctx.waitFor st = none) →
      (2 ≤ s.tq) →
      (hintTimeOk message now = true) →
      (queueRoom 1 queued = true) →
      (s.ctxFind kindJob (beAt message 20 2) = some j) →
      (Sparse.find s.ctx.waitFor j = none) →
      ((s.desc st).parent = j) →
      ((s.setDesc st ((s.desc st).takeSeq c (beAt message 16 4))).desc st = (s.desc st).takeSeq c (beAt message 16 4)) →
      ((((s.setDesc st ((s.desc st).takeSeq c (beAt message 16 4))).ctxRecord st 0 now (intakeRecord 1 st (match c with | .next k => ofBool (decide (k ≠ 0)) | _ => 0) now message)).desc st).parent = j) →
      (beAt message 22 1 ≠ 4) →
      Completes (.hintReceive port now queued frame) s fun t =>
        (SetsFields s t (Reg.HNT_PT_STATE.addr i 0) [(Reg.HNT_PT_STATE_TQ, beAt message 5 1), (Reg.HNT_PT_STATE_CTX_VALID, 1), (Reg.HNT_PT_STATE_CTX, st)]) ∧
        (SetsField s t Reg.HNT_PT_SEEN i 0) ∧
        (t.hnt = ((s.tokenTaken i 1 b).numbered i port now c message).hnt) ∧
        (t.th = { s.th with hints := s.th.hints + 2 }) ∧
        (t.ctx = (let y : State := (((s.setDesc st ((s.desc st).takeSeq c (beAt message 16 4))).ctxRecord st 0 now (intakeRecord 1 st (match c with | .next k => ofBool (decide (k ≠ 0)) | _ => 0) now message)).ctxRecord j 0 now (intakeRecord 1 st (match c with | .next k => ofBool (decide (k ≠ 0)) | _ => 0) now message)); { y with ctx := { y.ctx with want := Sparse.erase y.ctx.want st } } : State).ctx) ∧
        (t.mem = (let y : State := (((s.setDesc st ((s.desc st).takeSeq c (beAt message 16 4))).ctxRecord st 0 now (intakeRecord 1 st (match c with | .next k => ofBool (decide (k ≠ 0)) | _ => 0) now message)).ctxRecord j 0 now (intakeRecord 1 st (match c with | .next k => ofBool (decide (k ≠ 0)) | _ => 0) now message)); { y with ctx := { y.ctx with want := Sparse.erase y.ctx.want st } } : State).mem) ∧
        (t.poison = (let y : State := (((s.setDesc st ((s.desc st).takeSeq c (beAt message 16 4))).ctxRecord st 0 now (intakeRecord 1 st (match c with | .next k => ofBool (decide (k ≠ 0)) | _ => 0) now message)).ctxRecord j 0 now (intakeRecord 1 st (match c with | .next k => ofBool (decide (k ≠ 0)) | _ => 0) now message)); { y with ctx := { y.ctx with want := Sparse.erase y.ctx.want st } } : State).poison) ∧
        (OnlyRegs s t [(Reg.HNT_PT_STATE.addr i 0), (Reg.HNT_PT_SEEN.addr i 0)]) ∧
        (t = { s with regs := t.regs, hnt := t.hnt, th := t.th, ctx := t.ctx, mem := t.mem, poison := t.poison })) ∧
  (∀ (s : State) (port now queued i rate depth st : Nat) (message : List Byte) (c : SeqClass) (b : Option (Nat × Nat)) (a : State) (frame : List Byte),
      (s.canonical = true) →
      (s.hintDatagram port frame = some message) →
      (s.fromPartner 2 port now message i c = true) →
      (s.rateOf 2 = some (rate, depth)) →
      (takeToken (Sparse.at none (s.partner i).bucket 2) rate depth now = some b) →
      (s.ptState i ≠ ptSilent) →
      (s.ctxFind kindStream (beAt message 8 8) = some st) →
      ((s.desc st).kind = kindStream) →
      (Sparse.find s.ctx.waitFor st = none) →
      (s.cpc.waiting = []) →
      (s.isF Reg.CPC_STATUS_JOB_FULL = false) →
      (queueRoom 2 queued = true) →
      (beAt message 20 2 = 0) →
      (a = (s.tokenTaken i 2 b).numbered i port now c message) →
      Completes (.telemReceive port now queued frame) s fun t =>
        (SetsFields s t (Reg.HNT_PT_STATE.addr i 0) [(Reg.HNT_PT_STATE_TQ, beAt message 5 1), (Reg.HNT_PT_STATE_CTX_VALID, 1), (Reg.HNT_PT_STATE_CTX, st)]) ∧
        (SetsField s t Reg.HNT_PT_SEEN i 0) ∧
        (t.hnt = (a.setPartner i { a.partner i with job := none, freq := beAt message 22 2, ended := if (a.partner i).ended = some 0 then some 0 else none, telems := (a.partner i).telems ++ [Telem.mk (now / 10) 0 (beAt message 22 2) (beAt message 24 4) (beAt message 32 8)] }).hnt) ∧
        (t.ctx = ((let y : State := ((s.setDesc st ((s.desc st).takeSeq c (beAt message 16 4))).ctxRecord st 1 now (intakeRecord 2 st (match c with | .next k => ofBool (decide (k ≠ 0)) | _ => 0) now message)); { y with ctx := { y.ctx with want := Sparse.erase y.ctx.want st } } : State).dropParent st).ctx) ∧
        (t.mem = ((let y : State := ((s.setDesc st ((s.desc st).takeSeq c (beAt message 16 4))).ctxRecord st 1 now (intakeRecord 2 st (match c with | .next k => ofBool (decide (k ≠ 0)) | _ => 0) now message)); { y with ctx := { y.ctx with want := Sparse.erase y.ctx.want st } } : State).dropParent st).mem) ∧
        (t.poison = ((let y : State := ((s.setDesc st ((s.desc st).takeSeq c (beAt message 16 4))).ctxRecord st 1 now (intakeRecord 2 st (match c with | .next k => ofBool (decide (k ≠ 0)) | _ => 0) now message)); { y with ctx := { y.ctx with want := Sparse.erase y.ctx.want st } } : State).dropParent st).poison) ∧
        (OnlyRegs s t [(Reg.HNT_PT_STATE.addr i 0), (Reg.HNT_PT_SEEN.addr i 0)]) ∧
        (t = { s with regs := t.regs, hnt := t.hnt, ctx := t.ctx, mem := t.mem, poison := t.poison })) ∧
  (∀ (s : State) (port now queued i rate depth st : Nat) (message : List Byte) (c : SeqClass) (b : Option (Nat × Nat)) (a : State) (frame : List Byte),
      (s.canonical = true) →
      (s.hintDatagram port frame = some message) →
      (s.fromPartner 3 port now message i c = true) →
      (s.rateOf 3 = some (rate, depth)) →
      (takeToken (Sparse.at none (s.partner i).bucket 3) rate depth now = some b) →
      (s.ptState i ≠ ptSilent) →
      (s.ctxFind kindStream (beAt message 8 8) = some st) →
      ((s.desc st).kind = kindStream) →
      (Sparse.find s.ctx.waitFor st = none) →
      (queueRoom 3 queued = true) →
      (beAt message 20 2 = 0) →
      (a = (s.tokenTaken i 3 b).numbered i port now c message) →
      Completes (.activityReceive port now queued frame) s fun t =>
        (SetsFields s t (Reg.HNT_PT_STATE.addr i 0) [(Reg.HNT_PT_STATE_TQ, beAt message 5 1), (Reg.HNT_PT_STATE_CTX_VALID, 1), (Reg.HNT_PT_STATE_CTX, st)]) ∧
        (SetsField s t Reg.HNT_PT_SEEN i 0) ∧
        (t.hnt = (a.setPartner i { a.partner i with acts := (a.partner i).acts ++ [Activity.mk (now / 10) 0 (beAt message 24 4) (beAt message 32 4) (beAt message 36 4) (beAt message 40 4)] }).hnt) ∧
        (t.ctx = ((let y : State := ((s.setDesc st ((s.desc st).takeSeq c (beAt message 16 4))).ctxRecord st 2 now (intakeRecord 3 st (match c with | .next k => ofBool (decide (k ≠ 0)) | _ => 0) now message)); { y with ctx := { y.ctx with want := Sparse.erase y.ctx.want st } } : State).dropParent st).ctx) ∧
        (t.mem = ((let y : State := ((s.setDesc st ((s.desc st).takeSeq c (beAt message 16 4))).ctxRecord st 2 now (intakeRecord 3 st (match c with | .next k => ofBool (decide (k ≠ 0)) | _ => 0) now message)); { y with ctx := { y.ctx with want := Sparse.erase y.ctx.want st } } : State).dropParent st).mem) ∧
        (t.poison = ((let y : State := ((s.setDesc st ((s.desc st).takeSeq c (beAt message 16 4))).ctxRecord st 2 now (intakeRecord 3 st (match c with | .next k => ofBool (decide (k ≠ 0)) | _ => 0) now message)); { y with ctx := { y.ctx with want := Sparse.erase y.ctx.want st } } : State).dropParent st).poison) ∧
        (OnlyRegs s t [(Reg.HNT_PT_STATE.addr i 0), (Reg.HNT_PT_SEEN.addr i 0)]) ∧
        (t = { s with regs := t.regs, hnt := t.hnt, ctx := t.ctx, mem := t.mem, poison := t.poison }))

/-- A newcomer's ANNOUNCE takes the lowest empty entry with its identifier, role and time quality: ANNOUNCED before the ADMIT point; after it
ADMITTED where the rack is the module's own, REFUSED where it is not. A partner that announces LEAVING is LEFT. LISTEN sends DISCOVER and
plans the own ANNOUNCE; ANNOUNCE_SEND sends it when due. At the ADMIT point every ANNOUNCED entry of the own rack is ADMITTED and every
other REFUSED, and the phase is RUN. An ADMITTED partner unheard for SILENT_MS is SILENT, and after LOST_S more LEFT. FORGET empties an
entry. DISCOVER goes out on command, and CLEAR_DROPS zeroes the 16 counts. ADMITTED shows the number admitted. -/
def Obligations.PartnersComeAndGo : Prop :=
  (∀ (s : State) (port now i : Nat) (message : List Byte) (b : Option (Nat × Nat)) (frame : List Byte),
      (s.canonical = true) →
      (s.hintDatagram port frame = some message) →
      (s.fromStranger 6 port message = true) →
      (beAt message 22 1 = 1 ∨ beAt message 22 1 = 2) →
      (takeToken (Sparse.at none s.hnt.bucket port) 4000 512 now = some b) →
      (s.ptFind (beAt message 8 8) = none) →
      (i < 512) →
      (s.ptState i = ptEmpty) →
      (((List.range i).all fun (j : Nat) => decide (s.ptState j ≠ ptEmpty)) = true) →
      (beAt message 23 1 ≠ 2) →
      (s.strangerCopy port now message = false) →
      (s.phase = phaseListen) →
      Completes (.announceReceive port now frame) s fun t =>
        (SetsFields s t (Reg.HNT_PT_STATE.addr i 0) [(Reg.HNT_PT_STATE_ROLE, beAt message 22 1), (Reg.HNT_PT_STATE_TQ, beAt message 5 1), (Reg.HNT_PT_STATE_STATE, 1)]) ∧
        (SetsPair t Reg.HNT_PT_ID_LO i (beAt message 8 8)) ∧
        (SetsField s t Reg.HNT_PT_SEEN i 0) ∧
        (t.hnt = ((s.strangerHeard port now message b).setPartner i ((s.partner i).told message now)).hnt) ∧
        (OnlyRegs s t [(Reg.HNT_PT_STATE.addr i 0), (Reg.HNT_PT_SEEN.addr i 0), (Reg.HNT_PT_ID_LO.addr i 0), (Reg.HNT_PT_ID_HI.addr i 0)]) ∧
        (t = { s with regs := t.regs, hnt := t.hnt })) ∧
  (∀ (s : State) (port now i : Nat) (message : List Byte) (b : Option (Nat × Nat)) (frame : List Byte),
      (s.canonical = true) →
      (s.hintDatagram port frame = some message) →
      (s.fromStranger 6 port message = true) →
      (beAt message 22 1 = 1 ∨ beAt message 22 1 = 2) →
      (takeToken (Sparse.at none s.hnt.bucket port) 4000 512 now = some b) →
      (s.ptFind (beAt message 8 8) = none) →
      (i < 512) →
      (s.ptState i = ptEmpty) →
      (((List.range i).all fun (j : Nat) => decide (s.ptState j ≠ ptEmpty)) = true) →
      (beAt message 23 1 ≠ 2) →
      (s.strangerCopy port now message = false) →
      (s.phase = phaseRun) →
      (beAt message 20 2 = s.getF Reg.HNT_CFG_RACK) →
      Completes (.announceReceive port now frame) s fun t =>
        (SetsFields s t (Reg.HNT_PT_STATE.addr i 0) [(Reg.HNT_PT_STATE_ROLE, beAt message 22 1), (Reg.HNT_PT_STATE_TQ, beAt message 5 1), (Reg.HNT_PT_STATE_STATE, 2)]) ∧
        (SetsPair t Reg.HNT_PT_ID_LO i (beAt message 8 8)) ∧
        (SetsField s t Reg.HNT_PT_SEEN i 0) ∧
        (t.getF Reg.HNT_STATUS_ADMITTED = min 1023 ((List.range 512).filter t.ptIn).length) ∧
        (OnlyRegs s t [(Reg.HNT_PT_STATE.addr i 0), (Reg.HNT_PT_SEEN.addr i 0), (Reg.HNT_PT_ID_LO.addr i 0), (Reg.HNT_PT_ID_HI.addr i 0), (Reg.HNT_STATUS.addr 0 0)]) ∧
        (t = { s with regs := t.regs, hnt := t.hnt })) ∧
  (∀ (s : State) (port now i : Nat) (message : List Byte) (b : Option (Nat × Nat)) (frame : List Byte),
      (s.canonical = true) →
      (s.hintDatagram port frame = some message) →
      (s.fromStranger 6 port message = true) →
      (beAt message 22 1 = 1 ∨ beAt message 22 1 = 2) →
      (takeToken (Sparse.at none s.hnt.bucket port) 4000 512 now = some b) →
      (s.ptFind (beAt message 8 8) = none) →
      (i < 512) →
      (s.ptState i = ptEmpty) →
      (((List.range i).all fun (j : Nat) => decide (s.ptState j ≠ ptEmpty)) = true) →
      (beAt message 23 1 ≠ 2) →
      (s.strangerCopy port now message = false) →
      (s.phase = phaseRun) →
      (beAt message 20 2 ≠ s.getF Reg.HNT_CFG_RACK) →
      Completes (.announceReceive port now frame) s fun t =>
        (SetsFields s t (Reg.HNT_PT_STATE.addr i 0) [(Reg.HNT_PT_STATE_ROLE, beAt message 22 1), (Reg.HNT_PT_STATE_TQ, beAt message 5 1), (Reg.HNT_PT_STATE_STATE, 5)]) ∧
        (SetsPair t Reg.HNT_PT_ID_LO i (beAt message 8 8)) ∧
        (SetsField s t Reg.HNT_PT_SEEN i 0) ∧
        (t.hnt = ((s.strangerHeard port now message b).setPartner i ((s.partner i).told message now)).hnt) ∧
        (OnlyRegs s t [(Reg.HNT_PT_STATE.addr i 0), (Reg.HNT_PT_SEEN.addr i 0), (Reg.HNT_PT_ID_LO.addr i 0), (Reg.HNT_PT_ID_HI.addr i 0)]) ∧
        (t = { s with regs := t.regs, hnt := t.hnt })) ∧
  (∀ (s : State) (port now i rate depth : Nat) (message : List Byte) (c : SeqClass) (b : Option (Nat × Nat)) (a : State) (frame : List Byte),
      (s.canonical = true) →
      (s.hintDatagram port frame = some message) →
      (s.fromPartner 6 port now message i c = true) →
      (s.rateOf 6 = some (rate, depth)) →
      (takeToken (Sparse.at none (s.partner i).bucket 6) rate depth now = some b) →
      (s.ptState i ≠ ptSilent) →
      (beAt message 23 1 ≠ 2) →
      (a = (s.tokenTaken i 6 b).numbered i port now c message) →
      ((a.partner i).incarnation = beAt message 24 4) →
      Completes (.announceReceive port now frame) s fun t =>
        (SetsFields s t (Reg.HNT_PT_STATE.addr i 0) [(Reg.HNT_PT_STATE_TQ, beAt message 5 1), (Reg.HNT_PT_STATE_ROLE, beAt message 22 1)]) ∧
        (SetsPair t Reg.HNT_PT_ID_LO i (beAt message 8 8)) ∧
        (SetsField s t Reg.HNT_PT_SEEN i 0) ∧
        (t.hnt = (a.setPartner i ((a.partner i).told message now)).hnt) ∧
        (t.ctx = ((s.ctxOf kindStream (beAt message 8 8)).elim s fun (st : Nat) => s.tellDesc st fun (d : Desc) => d.takeSeq c (beAt message 16 4)).ctx) ∧
        (t.mem = ((s.ctxOf kindStream (beAt message 8 8)).elim s fun (st : Nat) => s.tellDesc st fun (d : Desc) => d.takeSeq c (beAt message 16 4)).mem) ∧
        (t.poison = ((s.ctxOf kindStream (beAt message 8 8)).elim s fun (st : Nat) => s.tellDesc st fun (d : Desc) => d.takeSeq c (beAt message 16 4)).poison) ∧
        (OnlyRegs s t [(Reg.HNT_PT_STATE.addr i 0), (Reg.HNT_PT_SEEN.addr i 0), (Reg.HNT_PT_ID_LO.addr i 0), (Reg.HNT_PT_ID_HI.addr i 0)]) ∧
        (t = { s with regs := t.regs, hnt := t.hnt, ctx := t.ctx, mem := t.mem, poison := t.poison })) ∧
  (∀ (s : State) (port now i rate depth : Nat) (message : List Byte) (c : SeqClass) (b : Option (Nat × Nat)) (a : State) (frame : List Byte),
      (s.canonical = true) →
      (s.hintDatagram port frame = some message) →
      (s.fromPartner 6 port now message i c = true) →
      (s.rateOf 6 = some (rate, depth)) →
      (takeToken (Sparse.at none (s.partner i).bucket 6) rate depth now = some b) →
      (s.ptState i ≠ ptSilent) →
      (beAt message 23 1 = 2) →
      (a = (s.tokenTaken i 6 b).numbered i port now c message) →
      ((a.partner i).incarnation = beAt message 24 4) →
      Completes (.announceReceive port now frame) s fun t =>
        (t.ptState i = ptLeft) ∧
        (t.getF Reg.HNT_STATUS_ADMITTED = min 1023 ((List.range 512).filter t.ptIn).length) ∧
        (OnlyRegs s t [(Reg.HNT_PT_STATE.addr i 0), (Reg.HNT_PT_SEEN.addr i 0), (Reg.HNT_PT_ID_LO.addr i 0), (Reg.HNT_PT_ID_HI.addr i 0), (Reg.HNT_STATUS.addr 0 0)]) ∧
        (t = { s with regs := t.regs, hnt := t.hnt, ctx := t.ctx, mem := t.mem, poison := t.poison })) ∧
  (∀ (s : State) (now d : Nat),
      (s.hnt.annAt = some d) →
      (d ≤ now) →
      (s.speaks = true) →
      Completes (.announceSend now) s fun t =>
        (t.outbox = s.outbox ++ s.hintAll 6 (beBytes 2 (s.getF Reg.HNT_CFG_RACK) ++ beBytes 1 2 ++ beBytes 1 (ofBool (decide (s.phase = phaseRun) && s.hnt.joined)) ++ beBytes 4 s.hnt.incarnation ++ beBytes 2 0 ++ beBytes 2 (s.getF Reg.SYS_STRAPS_SHELF_ID) ++ beBytes 2 0 ++ beBytes 2 0 ++ beBytes 4 0 ++ Config.unicastAddr)) ∧
        (t.hnt = { s.hnt with annAt := none, joined := true, seq := (s.hnt.seq + 1) % 2 ^ 32 }) ∧
        (t = { s with hnt := t.hnt, outbox := t.outbox })) ∧
  (∀ (s : State) (now : Nat),
      (s.canonical = true) →
      (s.phase = phaseWait) →
      (450000000 ≤ now) →
      (s.speaks = true) →
      Completes (.partnerListen now) s fun t =>
        (SetsField s t Reg.HNT_STATUS_PHASE 0 1) ∧
        (Raises s t 11 [0]) ∧
        (t.outbox = s.outbox ++ s.hintAll 5 (beBytes 2 (s.getF Reg.HNT_CFG_RACK) ++ beBytes 2 s.discWindow ++ beBytes 2 s.discSlots ++ beBytes 2 0)) ∧
        (t.hnt = { s.hnt with seq := (s.hnt.seq + 1) % 2 ^ 32, listenAt := now, annAt := some (s.answerAt now 500 1000) }) ∧
        (OnlyRegs s t [(Reg.HNT_STATUS.addr 0 0), (Reg.SYS_IRQ_CAUSE.addr 11 0)]) ∧
        (t = { s with regs := t.regs, hnt := t.hnt, outbox := t.outbox })) ∧
  (∀ (s : State),
      (s.speaks = true) →
      Completes (.hntDiscover) s fun t =>
        (t.outbox = s.outbox ++ s.hintAll 5 (beBytes 2 (s.getF Reg.HNT_CFG_RACK) ++ beBytes 2 s.discWindow ++ beBytes 2 s.discSlots ++ beBytes 2 0)) ∧
        (t.hnt = { s.hnt with seq := (s.hnt.seq + 1) % 2 ^ 32 }) ∧
        (t = { s with hnt := t.hnt, outbox := t.outbox })) ∧
  (∀ (s : State) (now : Nat),
      (s.canonical = true) →
      (s.phase = phaseListen) →
      (s.hnt.listenAt + (50 + s.discWindow) * 1000000 ≤ now) →
      Completes (.admitPoint now) s fun t =>
        (t.phase = phaseRun) ∧
        (Raises s t 11 [0]) ∧
        (∀ i ∈ List.range 512, t.ptState i = if s.ptState i = ptAnnounced then (if (s.partner i).rack = s.getF Reg.HNT_CFG_RACK then ptAdmitted else ptRefused) else s.ptState i) ∧
        (∀ a, (a < 0x81000 ∨ 0x83000 ≤ a) → a ∉ [(Reg.HNT_STATUS.addr 0 0), (Reg.SYS_IRQ_CAUSE.addr 11 0)] → t.rd a = s.rd a) ∧
        (t = { s with regs := t.regs, hnt := t.hnt })) ∧
  (∀ (s : State) (i now : Nat),
      (s.canonical = true) →
      (i < 512) →
      (s.ptState i = ptAdmitted) →
      ((s.partner i).heard + max 10 (s.getF Reg.HNT_TIMEOUTS_SILENT_MS) * 1000000 < now) →
      Completes (.partnerSilent i now) s fun t =>
        (SetsField s t Reg.HNT_PT_STATE_STATE i 3) ∧
        (t.hnt = (s.setPartner i { s.partner i with silentAt := now }).hnt) ∧
        (OnlyRegs s t [(Reg.HNT_PT_STATE.addr i 0)]) ∧
        (t = { s with regs := t.regs, hnt := t.hnt })) ∧
  (∀ (s : State) (i now : Nat),
      (s.canonical = true) →
      (i < 512) →
      (s.ptState i = ptSilent) →
      ((s.partner i).silentAt + max 1 (s.getF Reg.HNT_TIMEOUTS_LOST_S) * 1000000000 < now) →
      Completes (.partnerLeft i now) s fun t =>
        (SetsField s t Reg.HNT_PT_STATE_STATE i 4) ∧
        (t.getF Reg.HNT_STATUS_ADMITTED = min 1023 ((List.range 512).filter t.ptIn).length) ∧
        (OnlyRegs s t [(Reg.HNT_PT_STATE.addr i 0), (Reg.HNT_STATUS.addr 0 0)]) ∧
        (t = { s with regs := t.regs })) ∧
  (∀ (s : State),
      (s.canonical = true) →
      Completes (.clearDrops) s fun t =>
        (∀ k ∈ List.range 16, t.getF Reg.HNT_DROP k = 0) ∧
        (OnlyRegs s t [(Reg.HNT_DROP.addr 0 0), (Reg.HNT_DROP.addr 1 0), (Reg.HNT_DROP.addr 2 0), (Reg.HNT_DROP.addr 3 0), (Reg.HNT_DROP.addr 4 0), (Reg.HNT_DROP.addr 5 0), (Reg.HNT_DROP.addr 6 0), (Reg.HNT_DROP.addr 7 0), (Reg.HNT_DROP.addr 8 0), (Reg.HNT_DROP.addr 9 0), (Reg.HNT_DROP.addr 10 0), (Reg.HNT_DROP.addr 11 0), (Reg.HNT_DROP.addr 12 0), (Reg.HNT_DROP.addr 13 0), (Reg.HNT_DROP.addr 14 0), (Reg.HNT_DROP.addr 15 0)]) ∧
        (t = { s with regs := t.regs })) ∧
  (∀ (s : State) (i : Nat),
      (s.canonical = true) →
      (i < 512) →
      Completes (.forget i) s fun t =>
        (SetsPair t Reg.HNT_PT_ID_LO i 0) ∧
        (t.rd (Reg.HNT_PT_STATE.addr i 0) = 0#32) ∧
        (SetsField s t Reg.HNT_PT_SEEN i 0) ∧
        (t.hnt = (s.setPartner i {}).hnt) ∧
        (t.getF Reg.HNT_STATUS_ADMITTED = min 1023 ((List.range 512).filter t.ptIn).length) ∧
        (OnlyRegs s t [(Reg.HNT_PT_STATE.addr i 0), (Reg.HNT_PT_SEEN.addr i 0), (Reg.HNT_PT_ID_LO.addr i 0), (Reg.HNT_PT_ID_HI.addr i 0), (Reg.HNT_STATUS.addr 0 0)]) ∧
        (t = { s with regs := t.regs, hnt := t.hnt }))

/-- A link change shows in HNT_STATUS with its cause, and plans the JOINING not yet sent. A neighbour solicitation for an address of the port,
or an echo request to one, with its checksum right, is answered on its port; no other frame is. A Sync of another port or domain does
nothing; one taken asks for the delay every quarter of a second. A Sync of the selected master stores its saturated offset, counts the run
within 50 ns and the run beyond 500 ns: with 16 good in a row ACQUIRING or HOLDOVER becomes LOCKED; with 4 bad in a row LOCKED becomes
HOLDOVER with the run at zero; else TQ stays. Where the module aligns its own grid and is not in HOLDOVER, the Sync steers: CLK_STEER takes
a free value within 100 ppm (log entries 5 and 91) and SLEWING shows an offset beyond 100 ns; there an offset beyond one second of a set
counter shows TIME_FAULT and is recorded. A module that follows its twin only measures. CC_LOCKED goes with LOCKED, and HOLDOVER ends
SLEWING (log entry 91). A lost master, or more than a second without Sync, takes LOCKED to HOLDOVER, and the best master left is selected;
HOLDOVER ends in UNLOCKED past HOLDOVER_S; an Announce of the domain selects the best master, which takes UNLOCKED to ACQUIRING. -/
def Obligations.LinksAndTimeQuality : Prop :=
  (∀ (s : State) (port now : Nat) (up : Bool),
      (s.canonical = true) →
      (port < 2) →
      (s.isF (if port = 0 then Reg.HNT_STATUS_LINK_A else Reg.HNT_STATUS_LINK_B) ≠ up) →
      (up = true → (s.cfg.running && s.runs (15 + port)) = true) →
      Completes (.ethLinkChange port up now) s fun t =>
        (SetsField s t (if port = 0 then Reg.HNT_STATUS_LINK_A else Reg.HNT_STATUS_LINK_B) 0 (ofBool up)) ∧
        (Raises s t 11 [2]) ∧
        (t.hnt = { s.hnt with netSince := if t.netUp = s.netUp then s.hnt.netSince else now, annAt := if up && !(s.hnt.joined || decide (s.phase = phaseWait) || s.hnt.annAt.any (fun (x : Nat) => decide (now ≤ x))) then some (s.answerAt now 500 1000) else s.hnt.annAt }) ∧
        (OnlyRegs s t [(Reg.HNT_STATUS.addr 0 0), (Reg.SYS_IRQ_CAUSE.addr 11 0)]) ∧
        (t = { s with regs := t.regs, hnt := t.hnt })) ∧
  (∀ (s : State) (port now : Nat) (up : Bool),
      (2 ≤ port ∨ s.isF (if port = 0 then Reg.HNT_STATUS_LINK_A else Reg.HNT_STATUS_LINK_B) = up ∨ up = true ∧ (s.cfg.running && s.runs (15 + port)) = false) →
      Completes (.ethLinkChange port up now) s fun t =>
        (t = s)) ∧
  (∀ (s : State) (port : Nat) (frame : List Byte) (p : Packet),
      (port < 3) →
      (s.portUp port = true) →
      (framePacket frame = some p) →
      (p.next = 58) →
      (ipSum p.src p.dst 58 p.payload = 0xFFFF) →
      (beAt p.payload 0 1 = 128) →
      (p.dst ∈ s.portAddrs port) →
      Completes (.icmpv6Receive port frame) s fun t =>
        (t.outbox = s.outbox ++ [Out.mk .icmpAnswer (port :: (Packet.mk p.dst p.src 58 255 (beBytes 2 0x8100 ++ beBytes 2 (0xFFFF - ipSum p.dst p.src 58 (beBytes 2 0x8100 ++ beBytes 2 0 ++ p.payload.drop 4)) ++ p.payload.drop 4)).bytes.map BitVec.toNat)]) ∧
        (t = { s with outbox := t.outbox })) ∧
  (∀ (s : State) (port : Nat) (frame : List Byte) (p : Packet),
      (port < 3) →
      (s.portUp port = true) →
      (framePacket frame = some p) →
      (p.next = 58) →
      (ipSum p.src p.dst 58 p.payload = 0xFFFF) →
      (beAt p.payload 0 1 = 135) →
      (p.hop = 255) →
      (24 ≤ p.payload.length) →
      (slice p.payload 8 16 ∈ s.portAddrs port) →
      Completes (.icmpv6Receive port frame) s fun t =>
        (t.outbox = s.outbox ++ [Out.mk .icmpAnswer (port :: (Packet.mk (slice p.payload 8 16) p.src 58 255 (beBytes 2 0x8800 ++ beBytes 2 (0xFFFF - ipSum (slice p.payload 8 16) p.src 58 (beBytes 2 0x8800 ++ beBytes 2 0 ++ beBytes 4 0x60000000 ++ slice p.payload 8 16)) ++ beBytes 4 0x60000000 ++ slice p.payload 8 16)).bytes.map BitVec.toNat)]) ∧
        (t = { s with outbox := t.outbox })) ∧
  (∀ (s : State) (port : Nat) (frame : List Byte),
      ((framePacket frame).bind (s.icmpAnswer port) = none ∨ 3 ≤ port ∨ s.portUp port = false) →
      Completes (.icmpv6Receive port frame) s fun t =>
        (t = if port < 3 ∧ s.portUp port = true then s.macCount port frame else s)) ∧
  (∀ (s : State) (port now domain t1 t2 : Nat) (delay : Option (Nat × Nat)) (offset : Int),
      (s.canonical = true) →
      (s.isF Reg.HNT_PTP_STATUS_MASTER = true) →
      (s.getF Reg.HNT_PTP_STATUS_PORT = port) →
      (domain = s.getF Reg.HNT_PTP_CFG_DOMAIN) →
      (s.portUp port = true) →
      (offset = s.ptpOffset port t1 t2 delay) →
      (s.ownGrid = true) →
      ((s.tq = 1 ∨ s.tq = 2) ∧ 16 ≤ (if (-50 ≤ offset && offset ≤ 50) then min 255 (s.getF Reg.HNT_PTP_STATUS_GOOD_SYNCS + 1) else 0)) →
      (s.ownGrid = false ∨ s.isF Reg.CLK_STATUS_COUNTER_SET = false ∨ (-1000000000 ≤ offset ∧ offset ≤ 1000000000) ∨ s.isF Reg.CLK_STATUS_TIME_FAULT = true) →
      Completes (.ptpSyncReceive port now domain t1 t2 delay) s fun t =>
        (t.tq = 3) ∧
        (t.getF Reg.HNT_PTP_STATUS_TQ = 3) ∧
        (Raises s t 11 [1]) ∧
        (t.rd (Reg.HNT_PTP_OFFSET.addr 0 0) = BitVec.ofInt 32 (satSigned 32 offset)) ∧
        (SetsFields s t (Reg.CLK_STATUS.addr 0 0) [(Reg.CLK_STATUS_CC_LOCKED, 1), (Reg.CLK_STATUS_SLEWING, ofBool (!(-100 ≤ offset && offset ≤ 100)))]) ∧
        (SetsField s t Reg.CLK_STEER 0 (unsign 32 ((s.freeVal 0x414 % 20001 : Nat) - 10000))) ∧
        (t.free = s.free + 1) ∧
        (t.getF Reg.HNT_PTP_STATUS_GOOD_SYNCS = (if (-50 ≤ offset && offset ≤ 50) then min 255 (s.getF Reg.HNT_PTP_STATUS_GOOD_SYNCS + 1) else 0)) ∧
        (t.hnt = { s.hnt with lastSync := now, badRun := (if (-500 ≤ offset && offset ≤ 500) then 0 else s.hnt.badRun + 1), pathDelay := Sparse.upd 0 s.hnt.pathDelay port (s.pathDelay port t1 t2 delay), holdAt := if s.tq = 2 ∧ now = s.holdEnd then now else s.hnt.holdAt, delayAt := if !(s.hnt.delayAt.any fun (x : Nat) => decide (now < x + 250000000)) then some now else s.hnt.delayAt }) ∧
        (t.outbox = s.outbox ++ (if !(s.hnt.delayAt.any fun (x : Nat) => decide (now < x + 250000000)) then [Out.mk .ptpDelayReq [port]] else [])) ∧
        (OnlyRegs s t [(Reg.HNT_PTP_OFFSET.addr 0 0), (Reg.HNT_PTP_STATUS.addr 0 0), (Reg.CLK_STATUS.addr 0 0), (Reg.CLK_STEER.addr 0 0), (Reg.HNT_STATUS.addr 0 0), (Reg.SYS_IRQ_CAUSE.addr 11 0)]) ∧
        (t = { s with regs := t.regs, hnt := t.hnt, outbox := t.outbox, free := t.free })) ∧
  (∀ (s : State) (port now domain t1 t2 : Nat) (delay : Option (Nat × Nat)) (offset : Int),
      (s.canonical = true) →
      (s.isF Reg.HNT_PTP_STATUS_MASTER = true) →
      (s.getF Reg.HNT_PTP_STATUS_PORT = port) →
      (domain = s.getF Reg.HNT_PTP_CFG_DOMAIN) →
      (s.portUp port = true) →
      (offset = s.ptpOffset port t1 t2 delay) →
      (s.ownGrid = false) →
      ((s.tq = 1 ∨ s.tq = 2) ∧ 16 ≤ (if (-50 ≤ offset && offset ≤ 50) then min 255 (s.getF Reg.HNT_PTP_STATUS_GOOD_SYNCS + 1) else 0)) →
      (s.ownGrid = false ∨ s.isF Reg.CLK_STATUS_COUNTER_SET = false ∨ (-1000000000 ≤ offset ∧ offset ≤ 1000000000) ∨ s.isF Reg.CLK_STATUS_TIME_FAULT = true) →
      Completes (.ptpSyncReceive port now domain t1 t2 delay) s fun t =>
        (t.tq = 3) ∧
        (t.getF Reg.HNT_PTP_STATUS_TQ = 3) ∧
        (Raises s t 11 [1]) ∧
        (t.rd (Reg.HNT_PTP_OFFSET.addr 0 0) = BitVec.ofInt 32 (satSigned 32 offset)) ∧
        (SetsField s t Reg.CLK_STATUS_CC_LOCKED 0 1) ∧
        (t.getF Reg.HNT_PTP_STATUS_GOOD_SYNCS = (if (-50 ≤ offset && offset ≤ 50) then min 255 (s.getF Reg.HNT_PTP_STATUS_GOOD_SYNCS + 1) else 0)) ∧
        (t.hnt = { s.hnt with lastSync := now, badRun := (if (-500 ≤ offset && offset ≤ 500) then 0 else s.hnt.badRun + 1), pathDelay := Sparse.upd 0 s.hnt.pathDelay port (s.pathDelay port t1 t2 delay), holdAt := if s.tq = 2 ∧ now = s.holdEnd then now else s.hnt.holdAt, delayAt := if !(s.hnt.delayAt.any fun (x : Nat) => decide (now < x + 250000000)) then some now else s.hnt.delayAt }) ∧
        (t.outbox = s.outbox ++ (if !(s.hnt.delayAt.any fun (x : Nat) => decide (now < x + 250000000)) then [Out.mk .ptpDelayReq [port]] else [])) ∧
        (OnlyRegs s t [(Reg.HNT_PTP_OFFSET.addr 0 0), (Reg.HNT_PTP_STATUS.addr 0 0), (Reg.CLK_STATUS.addr 0 0), (Reg.HNT_STATUS.addr 0 0), (Reg.SYS_IRQ_CAUSE.addr 11 0)]) ∧
        (t = { s with regs := t.regs, hnt := t.hnt, outbox := t.outbox })) ∧
  (∀ (s : State) (port now domain t1 t2 : Nat) (delay : Option (Nat × Nat)) (offset : Int),
      (s.canonical = true) →
      (s.isF Reg.HNT_PTP_STATUS_MASTER = true) →
      (s.getF Reg.HNT_PTP_STATUS_PORT = port) →
      (domain = s.getF Reg.HNT_PTP_CFG_DOMAIN) →
      (s.portUp port = true) →
      (offset = s.ptpOffset port t1 t2 delay) →
      (s.tq = 3) →
      (4 ≤ (if (-500 ≤ offset && offset ≤ 500) then 0 else s.hnt.badRun + 1)) →
      (s.ownGrid = false ∨ s.isF Reg.CLK_STATUS_COUNTER_SET = false ∨ (-1000000000 ≤ offset ∧ offset ≤ 1000000000) ∨ s.isF Reg.CLK_STATUS_TIME_FAULT = true) →
      Completes (.ptpSyncReceive port now domain t1 t2 delay) s fun t =>
        (t.tq = 2) ∧
        (t.getF Reg.HNT_PTP_STATUS_TQ = 2) ∧
        (Raises s t 11 [1]) ∧
        (t.rd (Reg.HNT_PTP_OFFSET.addr 0 0) = BitVec.ofInt 32 (satSigned 32 offset)) ∧
        (SetsFields s t (Reg.CLK_STATUS.addr 0 0) [(Reg.CLK_STATUS_CC_LOCKED, 0), (Reg.CLK_STATUS_SLEWING, 0)]) ∧
        (t.getF Reg.HNT_PTP_STATUS_GOOD_SYNCS = 0) ∧
        (t.hnt = { s.hnt with lastSync := now, badRun := 0, pathDelay := Sparse.upd 0 s.hnt.pathDelay port (s.pathDelay port t1 t2 delay), holdAt := now, delayAt := if !(s.hnt.delayAt.any fun (x : Nat) => decide (now < x + 250000000)) then some now else s.hnt.delayAt }) ∧
        (t.outbox = s.outbox ++ (if !(s.hnt.delayAt.any fun (x : Nat) => decide (now < x + 250000000)) then [Out.mk .ptpDelayReq [port]] else [])) ∧
        (OnlyRegs s t [(Reg.HNT_PTP_OFFSET.addr 0 0), (Reg.HNT_PTP_STATUS.addr 0 0), (Reg.CLK_STATUS.addr 0 0), (Reg.HNT_STATUS.addr 0 0), (Reg.SYS_IRQ_CAUSE.addr 11 0)]) ∧
        (t = { s with regs := t.regs, hnt := t.hnt, outbox := t.outbox })) ∧
  (∀ (s : State) (port now domain t1 t2 : Nat) (delay : Option (Nat × Nat)) (offset : Int),
      (s.canonical = true) →
      (s.isF Reg.HNT_PTP_STATUS_MASTER = true) →
      (s.getF Reg.HNT_PTP_STATUS_PORT = port) →
      (domain = s.getF Reg.HNT_PTP_CFG_DOMAIN) →
      (s.portUp port = true) →
      (offset = s.ptpOffset port t1 t2 delay) →
      (s.ownGrid = true) →
      (s.tq = 0 ∨ (s.tq = 1 ∧ ¬ 16 ≤ (if (-50 ≤ offset && offset ≤ 50) then min 255 (s.getF Reg.HNT_PTP_STATUS_GOOD_SYNCS + 1) else 0)) ∨ (s.tq = 3 ∧ ¬ 4 ≤ (if (-500 ≤ offset && offset ≤ 500) then 0 else s.hnt.badRun + 1))) →
      (s.ownGrid = false ∨ s.isF Reg.CLK_STATUS_COUNTER_SET = false ∨ (-1000000000 ≤ offset ∧ offset ≤ 1000000000) ∨ s.isF Reg.CLK_STATUS_TIME_FAULT = true) →
      Completes (.ptpSyncReceive port now domain t1 t2 delay) s fun t =>
        (t.tq = s.tq) ∧
        (t.rd (Reg.HNT_PTP_OFFSET.addr 0 0) = BitVec.ofInt 32 (satSigned 32 offset)) ∧
        (SetsFields s t (Reg.CLK_STATUS.addr 0 0) [(Reg.CLK_STATUS_SLEWING, ofBool (!(-100 ≤ offset && offset ≤ 100)))]) ∧
        (SetsField s t Reg.CLK_STEER 0 (unsign 32 ((s.freeVal 0x414 % 20001 : Nat) - 10000))) ∧
        (t.free = s.free + 1) ∧
        (SetsField s t Reg.HNT_PTP_STATUS_GOOD_SYNCS 0 ((if (-50 ≤ offset && offset ≤ 50) then min 255 (s.getF Reg.HNT_PTP_STATUS_GOOD_SYNCS + 1) else 0))) ∧
        (t.hnt = { s.hnt with lastSync := now, badRun := (if (-500 ≤ offset && offset ≤ 500) then 0 else s.hnt.badRun + 1), pathDelay := Sparse.upd 0 s.hnt.pathDelay port (s.pathDelay port t1 t2 delay), holdAt := if s.tq = 2 ∧ now = s.holdEnd then now else s.hnt.holdAt, delayAt := if !(s.hnt.delayAt.any fun (x : Nat) => decide (now < x + 250000000)) then some now else s.hnt.delayAt }) ∧
        (t.outbox = s.outbox ++ (if !(s.hnt.delayAt.any fun (x : Nat) => decide (now < x + 250000000)) then [Out.mk .ptpDelayReq [port]] else [])) ∧
        (OnlyRegs s t [(Reg.HNT_PTP_OFFSET.addr 0 0), (Reg.HNT_PTP_STATUS.addr 0 0), (Reg.CLK_STATUS.addr 0 0), (Reg.CLK_STEER.addr 0 0)]) ∧
        (t = { s with regs := t.regs, hnt := t.hnt, outbox := t.outbox, free := t.free })) ∧
  (∀ (s : State) (port now domain t1 t2 : Nat) (delay : Option (Nat × Nat)) (offset : Int),
      (s.canonical = true) →
      (s.isF Reg.HNT_PTP_STATUS_MASTER = true) →
      (s.getF Reg.HNT_PTP_STATUS_PORT = port) →
      (domain = s.getF Reg.HNT_PTP_CFG_DOMAIN) →
      (s.portUp port = true) →
      (offset = s.ptpOffset port t1 t2 delay) →
      (s.ownGrid = false ∨ s.tq = 2) →
      (s.tq = 0 ∨ ((s.tq = 1 ∨ s.tq = 2) ∧ ¬ 16 ≤ (if (-50 ≤ offset && offset ≤ 50) then min 255 (s.getF Reg.HNT_PTP_STATUS_GOOD_SYNCS + 1) else 0)) ∨ (s.tq = 3 ∧ ¬ 4 ≤ (if (-500 ≤ offset && offset ≤ 500) then 0 else s.hnt.badRun + 1))) →
      (s.ownGrid = false ∨ s.isF Reg.CLK_STATUS_COUNTER_SET = false ∨ (-1000000000 ≤ offset ∧ offset ≤ 1000000000) ∨ s.isF Reg.CLK_STATUS_TIME_FAULT = true) →
      Completes (.ptpSyncReceive port now domain t1 t2 delay) s fun t =>
        (t.tq = s.tq) ∧
        (t.rd (Reg.HNT_PTP_OFFSET.addr 0 0) = BitVec.ofInt 32 (satSigned 32 offset)) ∧
        (SetsField s t Reg.HNT_PTP_STATUS_GOOD_SYNCS 0 ((if (-50 ≤ offset && offset ≤ 50) then min 255 (s.getF Reg.HNT_PTP_STATUS_GOOD_SYNCS + 1) else 0))) ∧
        (t.hnt = { s.hnt with lastSync := now, badRun := (if (-500 ≤ offset && offset ≤ 500) then 0 else s.hnt.badRun + 1), pathDelay := Sparse.upd 0 s.hnt.pathDelay port (s.pathDelay port t1 t2 delay), holdAt := if s.tq = 2 ∧ now = s.holdEnd then now else s.hnt.holdAt, delayAt := if !(s.hnt.delayAt.any fun (x : Nat) => decide (now < x + 250000000)) then some now else s.hnt.delayAt }) ∧
        (t.outbox = s.outbox ++ (if !(s.hnt.delayAt.any fun (x : Nat) => decide (now < x + 250000000)) then [Out.mk .ptpDelayReq [port]] else [])) ∧
        (OnlyRegs s t [(Reg.HNT_PTP_OFFSET.addr 0 0), (Reg.HNT_PTP_STATUS.addr 0 0)]) ∧
        (t = { s with regs := t.regs, hnt := t.hnt, outbox := t.outbox })) ∧
  (∀ (s : State) (port now domain t1 t2 : Nat) (delay : Option (Nat × Nat)) (offset : Int),
      (s.canonical = true) →
      (s.isF Reg.HNT_PTP_STATUS_MASTER = true) →
      (s.getF Reg.HNT_PTP_STATUS_PORT = port) →
      (domain = s.getF Reg.HNT_PTP_CFG_DOMAIN) →
      (s.portUp port = true) →
      (offset = s.ptpOffset port t1 t2 delay) →
      (s.ownGrid = true) →
      (s.isF Reg.CLK_STATUS_COUNTER_SET = true) →
      (¬ (-1000000000 ≤ offset ∧ offset ≤ 1000000000)) →
      (s.isF Reg.CLK_STATUS_TIME_FAULT = false) →
      (s.tq = 1) →
      Completes (.ptpSyncReceive port now domain t1 t2 delay) s fun t =>
        (t.tq = 1) ∧
        (SetsFields s t (Reg.CLK_STATUS.addr 0 0) [(Reg.CLK_STATUS_SLEWING, 1), (Reg.CLK_STATUS_TIME_FAULT, 1)]) ∧
        (t.events = s.events ++ [LogEvent.mk 0x0D08 0xFFFF [unsign 64 offset]]) ∧
        (SetsField s t Reg.CLK_STEER 0 (unsign 32 ((s.freeVal 0x414 % 20001 : Nat) - 10000))) ∧
        (t.free = s.free + 1) ∧
        (t.outbox = s.outbox ++ (if !(s.hnt.delayAt.any fun (x : Nat) => decide (now < x + 250000000)) then [Out.mk .ptpDelayReq [port]] else [])) ∧
        (OnlyRegs s t [(Reg.HNT_PTP_OFFSET.addr 0 0), (Reg.HNT_PTP_STATUS.addr 0 0), (Reg.CLK_STATUS.addr 0 0), (Reg.CLK_STEER.addr 0 0)]) ∧
        (t = { s with regs := t.regs, hnt := t.hnt, events := t.events, outbox := t.outbox, free := t.free })) ∧
  (∀ (s : State) (port now domain t1 t2 : Nat) (delay : Option (Nat × Nat)),
      (s.isF Reg.HNT_PTP_STATUS_MASTER = false ∨ s.getF Reg.HNT_PTP_STATUS_PORT ≠ port ∨ domain ≠ s.getF Reg.HNT_PTP_CFG_DOMAIN ∨ s.portUp port = false) →
      Completes (.ptpSyncReceive port now domain t1 t2 delay) s fun t =>
        (t = s)) ∧
  (∀ (s : State) (now : Nat),
      (s.canonical = true) →
      (s.masterLost now = false) →
      (s.hnt.lastSync + 1000000000 < now) →
      (s.tq = 3) →
      Completes (.ptpSyncLoss now) s fun t =>
        (t.tq = 2) ∧
        (t.getF Reg.HNT_PTP_STATUS_TQ = 2) ∧
        (Raises s t 11 [1]) ∧
        (SetsFields s t (Reg.CLK_STATUS.addr 0 0) [(Reg.CLK_STATUS_CC_LOCKED, 0), (Reg.CLK_STATUS_SLEWING, 0)]) ∧
        (t.getF Reg.HNT_PTP_STATUS_GOOD_SYNCS = 0) ∧
        (t.hnt = { s.hnt with holdAt := now, badRun := 0 }) ∧
        (OnlyRegs s t [(Reg.HNT_PTP_STATUS.addr 0 0), (Reg.HNT_STATUS.addr 0 0), (Reg.SYS_IRQ_CAUSE.addr 11 0), (Reg.CLK_STATUS.addr 0 0)]) ∧
        (t = { s with regs := t.regs, hnt := t.hnt })) ∧
  (∀ (s : State) (now : Nat),
      (s.canonical = true) →
      (s.masterLost now = true) →
      (s.tq = 3) →
      (s.bestMaster now = none) →
      Completes (.ptpSyncLoss now) s fun t =>
        (t.tq = 2) ∧
        (t.getF Reg.HNT_PTP_STATUS_TQ = 2) ∧
        (Raises s t 11 [1]) ∧
        (SetsFields s t (Reg.CLK_STATUS.addr 0 0) [(Reg.CLK_STATUS_CC_LOCKED, 0), (Reg.CLK_STATUS_SLEWING, 0)]) ∧
        (t.getF Reg.HNT_PTP_STATUS_GOOD_SYNCS = 0) ∧
        (t.isF Reg.HNT_PTP_STATUS_MASTER = false) ∧
        (t.hnt = { s.hnt with holdAt := now, badRun := 0 }) ∧
        (OnlyRegs s t [(Reg.HNT_PTP_STATUS.addr 0 0), (Reg.HNT_STATUS.addr 0 0), (Reg.SYS_IRQ_CAUSE.addr 11 0), (Reg.CLK_STATUS.addr 0 0)]) ∧
        (t = { s with regs := t.regs, hnt := t.hnt })) ∧
  (∀ (s : State) (now port : Nat) (x : PtpAnn),
      (s.canonical = true) →
      (s.masterLost now = true) →
      (s.tq = 3) →
      (s.bestMaster now = some (port, x)) →
      Completes (.ptpSyncLoss now) s fun t =>
        (t.tq = 2) ∧
        (t.getF Reg.HNT_PTP_STATUS_TQ = 2) ∧
        (Raises s t 11 [1]) ∧
        (SetsFields s t (Reg.CLK_STATUS.addr 0 0) [(Reg.CLK_STATUS_CC_LOCKED, 0), (Reg.CLK_STATUS_SLEWING, 0)]) ∧
        (t.getF Reg.HNT_PTP_STATUS_GOOD_SYNCS = 0) ∧
        (t.isF Reg.HNT_PTP_STATUS_MASTER = true) ∧
        (t.getF Reg.HNT_PTP_STATUS_PORT = port % 2) ∧
        (t.hnt = { s.hnt with holdAt := now, badRun := 0, utcOff := x.utcOffset }) ∧
        (OnlyRegs s t [(Reg.HNT_PTP_STATUS.addr 0 0), (Reg.HNT_STATUS.addr 0 0), (Reg.SYS_IRQ_CAUSE.addr 11 0), (Reg.CLK_STATUS.addr 0 0)]) ∧
        (t = { s with regs := t.regs, hnt := t.hnt })) ∧
  (∀ (s : State) (now : Nat),
      (s.masterLost now = false) →
      (now ≤ s.hnt.lastSync + 1000000000 ∨ s.tq ≠ 3) →
      Completes (.ptpSyncLoss now) s fun t =>
        (t = s)) ∧
  (∀ (s : State) (now : Nat),
      (s.canonical = true) →
      (s.tq = 2) →
      (s.hnt.holdAt + min 3600 (max 1 (s.getF Reg.HNT_PTP_CFG_HOLDOVER_S)) * 1000000000 < now) →
      Completes (.holdoverExpire now) s fun t =>
        (t.tq = 0) ∧
        (t.getF Reg.HNT_PTP_STATUS_TQ = 0) ∧
        (Raises s t 11 [1]) ∧
        (SetsField s t Reg.CLK_STATUS_CC_LOCKED 0 0) ∧
        (OnlyRegs s t [(Reg.HNT_PTP_STATUS.addr 0 0), (Reg.HNT_STATUS.addr 0 0), (Reg.SYS_IRQ_CAUSE.addr 11 0), (Reg.CLK_STATUS.addr 0 0)]) ∧
        (t = { s with regs := t.regs })) ∧
  (∀ (s : State) (now : Nat),
      (s.tq ≠ 2 ∨ now ≤ s.holdEnd) →
      Completes (.holdoverExpire now) s fun t =>
        (t = s)) ∧
  (∀ (s : State) (port now q : Nat) (announce x : PtpAnn) (a : State),
      (s.canonical = true) →
      (port < 2) →
      (s.portUp port = true) →
      (announce.domain = s.getF Reg.HNT_PTP_CFG_DOMAIN) →
      (s.masterLost now = false ∨ s.tq ≠ 3) →
      (a = { s with hnt := { s.hnt with foreign := Sparse.upd none s.hnt.foreign port (some (announce, now)) } }) →
      (a.bestMaster now = some (q, x)) →
      (s.tq = 0) →
      Completes (.ptpAnnounceReceive port now announce) s fun t =>
        (t.tq = 1) ∧
        (t.getF Reg.HNT_PTP_STATUS_TQ = 1) ∧
        (Raises s t 11 [1]) ∧
        (SetsField s t Reg.CLK_STATUS_CC_LOCKED 0 0) ∧
        (t.isF Reg.HNT_PTP_STATUS_MASTER = true) ∧
        (t.getF Reg.HNT_PTP_STATUS_PORT = q % 2) ∧
        (t.hnt = { a.hnt with utcOff := x.utcOffset, counterDue := s.hnt.counterDue || !s.isF Reg.CLK_STATUS_COUNTER_SET }) ∧
        (OnlyRegs s t [(Reg.HNT_PTP_STATUS.addr 0 0), (Reg.HNT_STATUS.addr 0 0), (Reg.SYS_IRQ_CAUSE.addr 11 0), (Reg.CLK_STATUS.addr 0 0)]) ∧
        (t = { s with regs := t.regs, hnt := t.hnt })) ∧
  (∀ (s : State) (port now q : Nat) (announce x : PtpAnn) (a : State),
      (s.canonical = true) →
      (port < 2) →
      (s.portUp port = true) →
      (announce.domain = s.getF Reg.HNT_PTP_CFG_DOMAIN) →
      (s.masterLost now = false ∨ s.tq ≠ 3) →
      (a = { s with hnt := { s.hnt with foreign := Sparse.upd none s.hnt.foreign port (some (announce, now)) } }) →
      (a.bestMaster now = some (q, x)) →
      (s.tq ≠ 0) →
      Completes (.ptpAnnounceReceive port now announce) s fun t =>
        (t.isF Reg.HNT_PTP_STATUS_MASTER = true) ∧
        (t.getF Reg.HNT_PTP_STATUS_PORT = q % 2) ∧
        (t.hnt = { a.hnt with utcOff := x.utcOffset }) ∧
        (OnlyRegs s t [(Reg.HNT_PTP_STATUS.addr 0 0)]) ∧
        (t = { s with regs := t.regs, hnt := t.hnt })) ∧
  (∀ (s : State) (port now : Nat) (announce : PtpAnn),
      (2 ≤ port ∨ s.portUp port = false ∨ announce.domain ≠ s.getF Reg.HNT_PTP_CFG_DOMAIN) →
      Completes (.ptpAnnounceReceive port now announce) s fun t =>
        (t = s))

/-- A job that none of its packages has named for 100 grant intervals leaves the table, and its packages name none. A limit not reported for
LIMIT_CLEAR intervals ends. RECON_COUNT intervals outside the band set MODEL_DRIFT, recorded with its cause; CLEAR_DRIFT clears it and both
counts. CLEAR_DRIFT answers BUSY while a CONTRACT_SET is pending. A grant not committed more than 5 ms after its boundary is given up. At
EXPIRY a ceiling above its contract, and LOAN_GUARD later one below it, returns to it. CONTRACT_SET answers BUSY, SUM, MAX or NO_LEADER with
its cause and does nothing more, or appends the table as a CONTRACT entry where it leads the hall and proposes it where it does not. At a
hall boundary the leader appends the HALL entry with the ceilings and loans of R250, and without any contract the contract of its own
region. -/
def Obligations.JobsLoansContractsAndTheHall : Prop :=
  (∀ (s : State) (slot : Nat),
      ((Sparse.find s.cpc.jobs slot).all (fun (x : JobSlot) => decide (x.unnamed < 100)) = true) →
      Completes (.jobTableTimeout slot) s fun t =>
        (t = s)) ∧
  (∀ (s : State) (slot : Nat),
      ((Sparse.find s.cpc.jobs slot).all (fun (x : JobSlot) => x.limit.isNone || decide (x.quiet < max 1 (s.getF Reg.CPC_ORDER_LIMIT_CLEAR))) = true) →
      Completes (.limitClearElapsed slot) s fun t =>
        (t = s)) ∧
  (∀ (s : State),
      (s.cpc.outside < max 1 (s.getF Reg.CPC_RECON_CFG_RECON_COUNT) ∨ s.isF Reg.CPC_STATUS_MODEL_DRIFT = true) →
      Completes (.modelDrift) s fun t =>
        (t = s)) ∧
  (∀ (s : State),
      (s.cpc.hallEntry.all (fun (h : HallEntry) => decide (s.frame < h.expiry ∨ s.getF Reg.CPC_CEILING ≤ s.getF Reg.CPC_CONTRACT)) = true) →
      Completes (.loanExpiry) s fun t =>
        (t = s)) ∧
  (∀ (s : State),
      (s.cpc.hallEntry.all (fun (h : HallEntry) => decide (s.frame < h.expiry + max 1 (s.getF Reg.CPC_HALL_CFG_LOAN_GUARD) * 100000 ∨ s.getF Reg.CPC_CONTRACT ≤ s.getF Reg.CPC_CEILING)) = true) →
      Completes (.loanGuardExpiry) s fun t =>
        (t = s)) ∧
  (∀ (s : State) (now : Nat),
      (s.ldg.hall.leads = false ∨ s.frame % s.hallFrames ≠ 0) →
      Completes (.hallBoundary now) s fun t =>
        (t = s)) ∧
  (∀ (s : State) (now : Nat) (u : State),
      (s.canonical = true) →
      (s.cpc.setPay = none) →
      (((s.ownTable.map fun (x : Nat × Nat × Nat) => x.2.1).foldl (· + ·) 0) ≤ s.getF Reg.CPC_SET_HALL) →
      ((s.ownTable.map Prod.fst).dedup.length = s.ownTable.length) →
      ((s.ownTable.any fun (x : Nat × Nat × Nat) => decide (x.2.2 < x.2.1)) = false) →
      (s.ldg.hall.member = true) →
      (s.ldg.hall.leads = true) →
      (s.ldg.hall.leader.isSome = true) →
      (u = State.appendHall { (s.setF Reg.CPC_STATUS_CMD_RESULT 0) with cpc := { s.cpc with setPay := some (contractPay (s.getF Reg.CPC_SET_HALL) s.ownTable) } } etContract (contractPay (s.getF Reg.CPC_SET_HALL) s.ownTable) now) →
      (u.rackQuiet = true) →
      Completes (.contractSet now) s fun t =>
        (t.ldg = u.ldg) ∧
        (t.outbox = u.outbox) ∧
        (t.cpc = u.cpc) ∧
        (t.getF Reg.CPC_STATUS_CMD_RESULT = 0) ∧
        (LedgerShown t now) ∧
        (OnlyRegs s t ledgerRegs) ∧
        (t = { s with regs := t.regs, ldg := t.ldg, outbox := t.outbox, cpc := t.cpc })) ∧
  (∀ (s : State) (slot k : Nat) (x : JobSlot),
      (s.canonical = true) →
      (k = slot) →
      (k < 64) →
      (Sparse.find s.cpc.jobs k = some x) →
      (100 ≤ x.unnamed) →
      Completes (.jobTableTimeout slot) s fun t =>
        (Sparse.find t.cpc.jobs k = none → t.rd (Reg.CPC_JOB_ID.addr k 0) = 0#32 ∧ t.rd (Reg.CPC_JOB_FREQ.addr k 0) = 0#32) ∧
        (t.cpc.jobs = Sparse.erase s.cpc.jobs k) ∧
        (t.cpc = { s.cpc with jobs := t.cpc.jobs }) ∧
        (t.hnt = ((s.packagesOf x.job).foldl (fun (a : State) (i : Nat) => a.setPartner i { a.partner i with job := none, ended := none }) s).hnt) ∧
        (t.getF Reg.CPC_STATUS_JOBS = t.cpc.jobs.length % 128) ∧
        (OnlyRegs s t [(Reg.CPC_JOB_ID.addr k 0), (Reg.CPC_JOB_FREQ.addr k 0), (Reg.CPC_JOB_RANGE.addr k 0), (Reg.CPC_JOB_SENS.addr k 0), (Reg.CPC_STATUS.addr 0 0)]) ∧
        (t = { s with regs := t.regs, cpc := t.cpc, hnt := t.hnt })) ∧
  (∀ (s : State) (slot k : Nat) (x : JobSlot),
      (s.canonical = true) →
      (k = slot) →
      (k < 64) →
      (Sparse.find s.cpc.jobs k = some x) →
      (x.limit.isSome = true) →
      (max 1 (s.getF Reg.CPC_ORDER_LIMIT_CLEAR) ≤ x.quiet) →
      Completes (.limitClearElapsed slot) s fun t =>
        (t.cpc = { s.cpc with jobs := Sparse.insert s.cpc.jobs k { x with limit := none } }) ∧
        (bitOf (t.getF Reg.CPC_JOB_FREQ_STATE k) 0 = false) ∧
        (t.getF Reg.CPC_JOB_FREQ_FREQ k = x.freq % 65536) ∧
        (OnlyRegs s t [(Reg.CPC_JOB_ID.addr k 0), (Reg.CPC_JOB_FREQ.addr k 0), (Reg.CPC_JOB_RANGE.addr k 0), (Reg.CPC_JOB_SENS.addr k 0), (Reg.CPC_STATUS.addr 0 0)]) ∧
        (t = { s with regs := t.regs, cpc := t.cpc })) ∧
  (∀ (s : State),
      (s.canonical = true) →
      (max 1 (s.getF Reg.CPC_RECON_CFG_RECON_COUNT) ≤ s.cpc.outside) →
      (s.isF Reg.CPC_STATUS_MODEL_DRIFT = false) →
      Completes (.modelDrift) s fun t =>
        (SetsField s t Reg.CPC_STATUS_MODEL_DRIFT 0 1) ∧
        (Raises s t 8 [3]) ∧
        (t.events = s.events ++ [LogEvent.mk 0x0901 0xFFFF [s.getF Reg.CPC_RECON_RATIO]]) ∧
        (OnlyRegs s t [(Reg.CPC_STATUS.addr 0 0), (Reg.SYS_IRQ_CAUSE.addr 8 0)]) ∧
        (t = { s with regs := t.regs, events := t.events })) ∧
  (∀ (s : State),
      (s.canonical = true) →
      (s.cpc.setPay.isSome = true) →
      Completes (.clearDrift) s fun t =>
        (SetsField s t Reg.CPC_STATUS_CMD_RESULT 0 5) ∧
        (Raises s t 8 [4]) ∧
        (OnlyRegs s t [(Reg.CPC_STATUS.addr 0 0), (Reg.SYS_IRQ_CAUSE.addr 8 0)]) ∧
        (t = { s with regs := t.regs })) ∧
  (∀ (s : State),
      (s.canonical = true) →
      (s.cpc.setPay = none) →
      Completes (.clearDrift) s fun t =>
        (SetsField s t Reg.CPC_STATUS_MODEL_DRIFT 0 0) ∧
        (t.cpc = { s.cpc with outside := 0, inside := 0 }) ∧
        (OnlyRegs s t [(Reg.CPC_STATUS.addr 0 0)]) ∧
        (t = { s with regs := t.regs, cpc := t.cpc })) ∧
  (∀ (s : State) (now g : Nat),
      (s.cpc.pendingGrant = some g) →
      (s.frameTime g + 5000000 < now) →
      Completes (.grantCommitTimeout now) s fun t =>
        (t.cpc = { s.cpc with pendingGrant := none }) ∧
        (t = { s with cpc := t.cpc })) ∧
  (∀ (s : State) (now : Nat),
      (s.cpc.pendingGrant.all (fun (g : Nat) => decide (now ≤ s.frameTime g + 5000000)) = true) →
      Completes (.grantCommitTimeout now) s fun t =>
        (t = s)) ∧
  (∀ (s : State) (h : HallEntry),
      (s.canonical = true) →
      (s.cpc.hallEntry = some h) →
      (h.expiry ≤ s.frame) →
      (s.getF Reg.CPC_CONTRACT < s.getF Reg.CPC_CEILING) →
      Completes (.loanExpiry) s fun t =>
        (SetsField s t Reg.CPC_CEILING 0 (s.getF Reg.CPC_CONTRACT)) ∧
        (SetsField s t Reg.CPC_LOAN 0 0) ∧
        (t.cpc = { s.cpc with ceilings := [] }) ∧
        (OnlyRegs s t [(Reg.CPC_CEILING.addr 0 0), (Reg.CPC_LOAN.addr 0 0)]) ∧
        (t = { s with regs := t.regs, cpc := t.cpc })) ∧
  (∀ (s : State) (h : HallEntry),
      (s.canonical = true) →
      (s.cpc.hallEntry = some h) →
      (h.expiry + max 1 (s.getF Reg.CPC_HALL_CFG_LOAN_GUARD) * 100000 ≤ s.frame) →
      (s.getF Reg.CPC_CEILING < s.getF Reg.CPC_CONTRACT) →
      Completes (.loanGuardExpiry) s fun t =>
        (SetsField s t Reg.CPC_CEILING 0 (s.getF Reg.CPC_CONTRACT)) ∧
        (SetsField s t Reg.CPC_LOAN 0 0) ∧
        (t.cpc = { s.cpc with ceilings := [] }) ∧
        (OnlyRegs s t [(Reg.CPC_CEILING.addr 0 0), (Reg.CPC_LOAN.addr 0 0)]) ∧
        (t = { s with regs := t.regs, cpc := t.cpc })) ∧
  (∀ (s : State) (now : Nat),
      (s.canonical = true) →
      (s.cpc.setPay.isSome = true) →
      Completes (.contractSet now) s fun t =>
        (SetsField s t Reg.CPC_STATUS_CMD_RESULT 0 5) ∧
        (Raises s t 8 [4]) ∧
        (OnlyRegs s t [(Reg.CPC_STATUS.addr 0 0), (Reg.SYS_IRQ_CAUSE.addr 8 0)]) ∧
        (t = { s with regs := t.regs })) ∧
  (∀ (s : State) (now : Nat),
      (s.canonical = true) →
      (s.cpc.setPay = none) →
      (s.getF Reg.CPC_SET_HALL < ((s.ownTable.map fun (x : Nat × Nat × Nat) => x.2.1).foldl (· + ·) 0)) →
      Completes (.contractSet now) s fun t =>
        (SetsField s t Reg.CPC_STATUS_CMD_RESULT 0 2) ∧
        (Raises s t 8 [4]) ∧
        (OnlyRegs s t [(Reg.CPC_STATUS.addr 0 0), (Reg.SYS_IRQ_CAUSE.addr 8 0)]) ∧
        (t = { s with regs := t.regs })) ∧
  (∀ (s : State) (now : Nat),
      (s.canonical = true) →
      (s.cpc.setPay = none) →
      (((s.ownTable.map fun (x : Nat × Nat × Nat) => x.2.1).foldl (· + ·) 0) ≤ s.getF Reg.CPC_SET_HALL) →
      ((s.ownTable.map Prod.fst).dedup.length ≠ s.ownTable.length ∨ (s.ownTable.any fun (x : Nat × Nat × Nat) => decide (x.2.2 < x.2.1)) = true) →
      Completes (.contractSet now) s fun t =>
        (SetsField s t Reg.CPC_STATUS_CMD_RESULT 0 3) ∧
        (Raises s t 8 [4]) ∧
        (OnlyRegs s t [(Reg.CPC_STATUS.addr 0 0), (Reg.SYS_IRQ_CAUSE.addr 8 0)]) ∧
        (t = { s with regs := t.regs })) ∧
  (∀ (s : State) (now : Nat),
      (s.canonical = true) →
      (s.cpc.setPay = none) →
      (((s.ownTable.map fun (x : Nat × Nat × Nat) => x.2.1).foldl (· + ·) 0) ≤ s.getF Reg.CPC_SET_HALL) →
      ((s.ownTable.map Prod.fst).dedup.length = s.ownTable.length) →
      ((s.ownTable.any fun (x : Nat × Nat × Nat) => decide (x.2.2 < x.2.1)) = false) →
      (s.ldg.hall.member = false ∨ s.ldg.hall.leader = none) →
      Completes (.contractSet now) s fun t =>
        (SetsField s t Reg.CPC_STATUS_CMD_RESULT 0 4) ∧
        (Raises s t 8 [4]) ∧
        (OnlyRegs s t [(Reg.CPC_STATUS.addr 0 0), (Reg.SYS_IRQ_CAUSE.addr 8 0)]) ∧
        (t = { s with regs := t.regs })) ∧
  (∀ (s : State) (now l : Nat),
      (s.canonical = true) →
      (s.cpc.setPay = none) →
      (((s.ownTable.map fun (x : Nat × Nat × Nat) => x.2.1).foldl (· + ·) 0) ≤ s.getF Reg.CPC_SET_HALL) →
      ((s.ownTable.map Prod.fst).dedup.length = s.ownTable.length) →
      ((s.ownTable.any fun (x : Nat × Nat × Nat) => decide (x.2.2 < x.2.1)) = false) →
      (s.ldg.hall.member = true) →
      (s.ldg.hall.leader = some l) →
      (s.ldg.hall.leads = false) →
      (s.ledgerSpeaks = true) →
      Completes (.contractSet now) s fun t =>
        (SetsField s t Reg.CPC_STATUS_CMD_RESULT 0 0) ∧
        (t.cpc = { s.cpc with setPay := some (contractPay (s.getF Reg.CPC_SET_HALL) s.ownTable) }) ∧
        (t.outbox = s.outbox ++ s.ledgerTo 1 12 l (beBytes 1 etContract ++ beBytes 3 0 ++ contractPay (s.getF Reg.CPC_SET_HALL) s.ownTable)) ∧
        (OnlyRegs s t [(Reg.CPC_STATUS.addr 0 0)]) ∧
        (t = { s with regs := t.regs, cpc := t.cpc, outbox := t.outbox })) ∧
  (∀ (s : State) (now : Nat) (c : Contract) (u : State),
      (s.canonical = true) →
      (s.ldg.hall.leads = true) →
      (s.frame % s.hallFrames = 0) →
      (s.cpc.nextContract = none) →
      (s.cpc.contract = some c) →
      (u = s.appendHall etHall (hallPay (s.frame + 1000) (s.frame + 1000 + min 15 (max 2 (s.getF Reg.CPC_HALL_CFG_LOAN_TERM)) * 100000) (hallShares c.hall (s.getF Reg.CPC_HALL_CFG_LEND_MARGIN) c.racks (s.cpc.reports.filter fun (r : RackReport) => decide (s.frame ≤ r.frame + 3 * s.hallFrames)))) now) →
      (u.rackQuiet = true) →
      Completes (.hallBoundary now) s fun t =>
        (t.ldg = u.ldg) ∧
        (t.outbox = u.outbox) ∧
        (u.ldg.hall.log.length = s.ldg.hall.log.length + 1) ∧
        ((u.ldg.hall.log.getLast?.map fun (e : LdgEntry) => e.etype) = some etHall) ∧
        (LedgerShown t now) ∧
        (OnlyRegs s t ledgerRegs) ∧
        (t = { s with regs := t.regs, ldg := t.ldg, outbox := t.outbox })) ∧
  (∀ (s : State) (now : Nat) (u : State),
      (s.canonical = true) →
      (s.ldg.hall.leads = true) →
      (s.frame % s.hallFrames = 0) →
      (s.cpc.nextContract = none) →
      (s.cpc.contract = none) →
      (s.ldg.hall.waits etContract (fun _ => true) = false) →
      (Sparse.find s.ldg.hall.latest etContract = none) →
      (((s.ownTable.map fun (x : Nat × Nat × Nat) => x.2.1).foldl (· + ·) 0) ≤ s.getF Reg.CPC_SET_HALL) →
      ((s.ownTable.map Prod.fst).dedup.length = s.ownTable.length) →
      ((s.ownTable.any fun (x : Nat × Nat × Nat) => decide (x.2.2 < x.2.1)) = false) →
      (u = s.appendHall etContract (contractPay (s.getF Reg.CPC_SET_HALL) s.ownTable) now) →
      (u.rackQuiet = true) →
      Completes (.hallBoundary now) s fun t =>
        (t.ldg = u.ldg) ∧
        (t.outbox = u.outbox) ∧
        (LedgerShown t now) ∧
        (OnlyRegs s t ledgerRegs) ∧
        (t = { s with regs := t.regs, ldg := t.ldg, outbox := t.outbox }))

/-- A frame without a datagram for the ledger port only counts where the MAC discards it, and a message that is not one for this module changes
nothing. An APPEND of the present term makes its sender the leader, restarts the election time, which is drawn anew (the draw is a free
value, log 5), stores the entries where PREV agrees, and is acknowledged. A leader notes an acknowledgement with MATCH, SENT and its
instant. A voter with a free vote, no fresh leader and no greater log votes once. A candidate counts votes from voters. A leader with its
lease answers SYNC_REQ with its commit index; an answer gives the SYNC its index. JOIN is answered. STATE parts are collected. A PROPOSE to
one that does not lead is answered 2; a refusal ends CONTRACT_SET. An arbiter collects CLAIMs, and a DECIDE with a committed generation
closes them. LDG_STATUS and the other ledger registers follow; no other register changes. -/
def Obligations.LedgerMessagesAreHeard : Prop :=
  (∀ (s : State) (port now : Nat) (message : List Byte) (frame : List Byte),
      (s.datagram port s.ledgerPort frame = some message) →
      (s.ldgTake 1 port message = none) →
      Completes (.appendReceive port now frame) s fun t =>
        (t = s)) ∧
  (∀ (s : State) (port now : Nat) (message : List Byte) (frame : List Byte),
      (s.datagram port s.ledgerPort frame = some message) →
      (s.ldgTake 2 port message = none) →
      Completes (.appendAckReceive port now frame) s fun t =>
        (t = s)) ∧
  (∀ (s : State) (port now : Nat) (message : List Byte) (frame : List Byte),
      (s.datagram port s.ledgerPort frame = some message) →
      (s.ldgTake 3 port message = none) →
      Completes (.voteReqReceive port now frame) s fun t =>
        (t = s)) ∧
  (∀ (s : State) (port now : Nat) (message : List Byte) (frame : List Byte),
      (s.datagram port s.ledgerPort frame = some message) →
      (s.ldgTake 4 port message = none) →
      Completes (.voteReceive port now frame) s fun t =>
        (t = s)) ∧
  (∀ (s : State) (port now : Nat) (message : List Byte) (frame : List Byte),
      (s.datagram port s.ledgerPort frame = some message) →
      (s.ldgTake 5 port message = none) →
      Completes (.syncReqReceive port now frame) s fun t =>
        (t = s)) ∧
  (∀ (s : State) (port now : Nat) (message : List Byte) (frame : List Byte),
      (s.datagram port s.ledgerPort frame = some message) →
      (s.ldgTake 7 port message = none) →
      Completes (.joinReceive port now frame) s fun t =>
        (t = s)) ∧
  (∀ (s : State) (port now : Nat) (message : List Byte) (frame : List Byte),
      (s.datagram port s.ledgerPort frame = some message) →
      (s.ldgTake 8 port message = none) →
      Completes (.joinAnsReceive port now frame) s fun t =>
        (t = s)) ∧
  (∀ (s : State) (port now : Nat) (message : List Byte) (frame : List Byte),
      (s.datagram port s.ledgerPort frame = some message) →
      (s.ldgTake 9 port message = none) →
      Completes (.claimReceive port now frame) s fun t =>
        (t = s)) ∧
  (∀ (s : State) (port now : Nat) (message : List Byte) (frame : List Byte),
      (s.datagram port s.ledgerPort frame = some message) →
      (s.ldgTake 10 port message = none) →
      Completes (.decideReceive port now frame) s fun t =>
        (t = s)) ∧
  (∀ (s : State) (port now : Nat) (message : List Byte) (frame : List Byte),
      (s.datagram port s.ledgerPort frame = some message) →
      (s.ldgTake 11 port message = none) →
      Completes (.stateReceive port now frame) s fun t =>
        (t = s)) ∧
  (∀ (s : State) (port now : Nat) (message : List Byte) (frame : List Byte),
      (s.datagram port s.ledgerPort frame = some message) →
      (s.ldgTake 12 port message = none) →
      Completes (.proposeReceive port now frame) s fun t =>
        (t = s)) ∧
  (∀ (s : State) (port now : Nat) (message : List Byte) (frame : List Byte),
      (s.datagram port s.ledgerPort frame = some message) →
      (s.ldgTake 13 port message = none) →
      Completes (.proposeAnsReceive port now frame) s fun t =>
        (t = s)) ∧
  (∀ (s : State) (port now : Nat) (message : List Byte) (frame : List Byte),
      (s.datagram port s.ledgerPort frame = some message) →
      (s.ldgTake 6 port message = none) →
      Completes (.syncAnsReceive port now frame) s fun t =>
        (t = s)) ∧
  (∀ (s : State) (port now : Nat) (frame : List Byte),
      (s.datagram port s.ledgerPort frame = none) →
      Completes (.appendReceive port now frame) s fun t =>
        (t = s.macCount port frame)) ∧
  (∀ (s : State) (port now : Nat) (frame : List Byte),
      (s.datagram port s.ledgerPort frame = none) →
      Completes (.appendAckReceive port now frame) s fun t =>
        (t = s.macCount port frame)) ∧
  (∀ (s : State) (port now : Nat) (frame : List Byte),
      (s.datagram port s.ledgerPort frame = none) →
      Completes (.voteReqReceive port now frame) s fun t =>
        (t = s.macCount port frame)) ∧
  (∀ (s : State) (port now : Nat) (frame : List Byte),
      (s.datagram port s.ledgerPort frame = none) →
      Completes (.voteReceive port now frame) s fun t =>
        (t = s.macCount port frame)) ∧
  (∀ (s : State) (port now : Nat) (frame : List Byte),
      (s.datagram port s.ledgerPort frame = none) →
      Completes (.syncReqReceive port now frame) s fun t =>
        (t = s.macCount port frame)) ∧
  (∀ (s : State) (port now : Nat) (frame : List Byte),
      (s.datagram port s.ledgerPort frame = none) →
      Completes (.joinReceive port now frame) s fun t =>
        (t = s.macCount port frame)) ∧
  (∀ (s : State) (port now : Nat) (frame : List Byte),
      (s.datagram port s.ledgerPort frame = none) →
      Completes (.joinAnsReceive port now frame) s fun t =>
        (t = s.macCount port frame)) ∧
  (∀ (s : State) (port now : Nat) (frame : List Byte),
      (s.datagram port s.ledgerPort frame = none) →
      Completes (.claimReceive port now frame) s fun t =>
        (t = s.macCount port frame)) ∧
  (∀ (s : State) (port now : Nat) (frame : List Byte),
      (s.datagram port s.ledgerPort frame = none) →
      Completes (.decideReceive port now frame) s fun t =>
        (t = s.macCount port frame)) ∧
  (∀ (s : State) (port now : Nat) (frame : List Byte),
      (s.datagram port s.ledgerPort frame = none) →
      Completes (.stateReceive port now frame) s fun t =>
        (t = s.macCount port frame)) ∧
  (∀ (s : State) (port now : Nat) (frame : List Byte),
      (s.datagram port s.ledgerPort frame = none) →
      Completes (.proposeReceive port now frame) s fun t =>
        (t = s.macCount port frame)) ∧
  (∀ (s : State) (port now : Nat) (frame : List Byte),
      (s.datagram port s.ledgerPort frame = none) →
      Completes (.proposeAnsReceive port now frame) s fun t =>
        (t = s.macCount port frame)) ∧
  (∀ (s : State) (port now : Nat) (frame : List Byte),
      (s.datagram port s.ledgerPort frame = none) →
      Completes (.syncAnsReceive port now frame) s fun t =>
        (t = s.macCount port frame)) ∧
  (∀ (s : State) (port now : Nat) (message : List Byte) (m : LdgMsg) (es : List LdgEntry) (frame : List Byte),
      (s.canonical = true) →
      (s.datagram port s.ledgerPort frame = some message) →
      (s.ledgerHears 1 port message m = true) →
      (m.group = 0) →
      (s.ledgerSpeaks = true) →
      (s.ldg.rack.leader = some m.sender) →
      (s.ldg.rack.seen ≠ some (m.sender, beAt m.body 20 8, beAt m.body 28 1)) →
      (beAt m.body 29 1 ≤ 1) →
      (parseEntries ((m.body.drop 32).length + 1) (m.body.drop 32) = some es) →
      (beAt m.body 0 8 < s.ldg.rack.base.1 ∨ s.ldg.rack.termAt (beAt m.body 0 8) = some (beAt m.body 8 4)) →
      (beAt m.body 12 8 ≤ s.ldg.rack.commit) →
      Completes (.appendReceive port now frame) s fun t =>
        (LedgerShown t now) ∧
        (OnlyRegs s t ledgerRegs) ∧
        (t.ldg = { s.ldg with rack := es.foldl LdgGroup.store { s.ldg.rack with role := .follower, leader := some m.sender, heard := some now, stepHeard := bitOf (beAt m.body 30 1) 0, noLeader := none, restarted := [], best := (0, 0, 0), seen := some (m.sender, beAt m.body 20 8, beAt m.body 28 1), parts := [], expire := some (if bitOf (beAt m.body 30 1) 0 then s.drawn 0 200000 500000 now else s.drawn 0 (s.etNs 0) (s.etNs 0) now) } }) ∧
        (t.free = s.free + 1) ∧
        (t.outbox = s.outbox ++ s.ledgerTo 0 2 m.sender (beBytes 8 (beAt m.body 0 8 + es.length) ++ beBytes 8 (beAt m.body 20 8) ++ beBytes 1 1 ++ beBytes 3 0)) ∧
        (t = { s with regs := t.regs, ldg := t.ldg, free := t.free, outbox := t.outbox })) ∧
  (∀ (s : State) (port now : Nat) (message : List Byte) (m : LdgMsg) (frame : List Byte),
      (s.canonical = true) →
      (s.datagram port s.ledgerPort frame = some message) →
      (s.ldgTake 1 port message = some m) →
      (m.group = 0) →
      (m.epoch = s.ldg.rack.epoch) →
      (s.ldgStale m = true) →
      (s.rackQuiet = true) →
      (s.ledgerSpeaks = true) →
      Completes (.appendReceive port now frame) s fun t =>
        (LedgerShown t now) ∧
        (OnlyRegs s t ledgerRegs) ∧
        (t.outbox = s.outbox ++ s.ledgerTo 0 2 m.sender (beBytes 8 s.ldg.rack.commit ++ beBytes 8 (beAt m.body 20 8) ++ beBytes 1 0 ++ beBytes 3 0)) ∧
        (t = { s with regs := t.regs, outbox := t.outbox })) ∧
  (∀ (s : State) (port now : Nat) (message : List Byte) (m : LdgMsg) (old : Nat × Nat × Nat) (u : State) (frame : List Byte),
      (s.canonical = true) →
      (s.datagram port s.ledgerPort frame = some message) →
      (s.ledgerHears 2 port message m = true) →
      (m.group = 0) →
      (s.ldg.rack.role = LdgRole.leader) →
      (beAt m.body 16 1 = 1) →
      (old = (Sparse.find s.ldg.rack.acks m.sender).getD (0, 0, 0)) →
      (s.ldg.syncs = []) →
      (u = (s.setGrp 0 { s.ldg.rack with acks := Sparse.insert s.ldg.rack.acks m.sender (max old.1 (beAt m.body 0 8), max old.2.1 (beAt m.body 8 8), now) }).showLease 0 now) →
      (u.rackQuiet = true) →
      Completes (.appendAckReceive port now frame) s fun t =>
        (LedgerShown t now) ∧
        (OnlyRegs s t ledgerRegs) ∧
        (t.ldg = u.ldg) ∧
        (t = { s with regs := t.regs, ldg := t.ldg })) ∧
  (∀ (s : State) (port now : Nat) (message : List Byte) (m : LdgMsg) (frame : List Byte),
      (s.canonical = true) →
      (s.datagram port s.ledgerPort frame = some message) →
      (s.ledgerHears 3 port message m = true) →
      (m.group = 0) →
      (s.ledgerSpeaks = true) →
      (s.mayVote 0 = true) →
      (s.ldg.rack.voted = none) →
      (s.ldg.rack.heard = none) →
      (s.ldg.rack.last.2 < beAt m.body 8 4 ∨ (s.ldg.rack.last.2 = beAt m.body 8 4 ∧ s.ldg.rack.last.1 ≤ beAt m.body 0 8)) →
      (s.ldg.rack.role ≠ LdgRole.leader) →
      Completes (.voteReqReceive port now frame) s fun t =>
        (LedgerShown t now) ∧
        (OnlyRegs s t ledgerRegs) ∧
        (t.ldg.rack.voted = some m.sender) ∧
        (t.ldg = { s.ldg with rack := { s.ldg.rack with voted := some m.sender, best := t.ldg.rack.best } }) ∧
        (t.outbox = s.outbox ++ s.ledgerTo 0 4 m.sender (beBytes 1 1 ++ beBytes 3 0)) ∧
        (t = { s with regs := t.regs, ldg := t.ldg, outbox := t.outbox })) ∧
  (∀ (s : State) (port now : Nat) (message : List Byte) (m : LdgMsg) (frame : List Byte),
      (s.canonical = true) →
      (s.datagram port s.ledgerPort frame = some message) →
      (s.ledgerHears 3 port message m = true) →
      (m.group = 0) →
      (s.ledgerSpeaks = true) →
      (s.ldg.rack.voted ≠ none) →
      (s.ldg.rack.role ≠ LdgRole.leader) →
      Completes (.voteReqReceive port now frame) s fun t =>
        (LedgerShown t now) ∧
        (OnlyRegs s t ledgerRegs) ∧
        (t.ldg = { s.ldg with rack := { s.ldg.rack with best := t.ldg.rack.best } }) ∧
        (t.outbox = s.outbox ++ s.ledgerTo 0 4 m.sender (beBytes 1 0 ++ beBytes 3 0)) ∧
        (t = { s with regs := t.regs, ldg := t.ldg, outbox := t.outbox })) ∧
  (∀ (s : State) (port now : Nat) (message : List Byte) (m : LdgMsg) (frame : List Byte),
      (s.canonical = true) →
      (s.datagram port s.ledgerPort frame = some message) →
      (s.ledgerHears 4 port message m = true) →
      (m.group = 0) →
      (beAt m.body 0 1 = 1) →
      (s.ldg.rack.role = LdgRole.candidate) →
      (m.sender ∈ s.ldg.rack.voters 0) →
      (m.sender ∉ s.ldg.rack.votes) →
      (s.ldg.rack.most 0 (s.ldg.rack.votes.length + 1) = false) →
      Completes (.voteReceive port now frame) s fun t =>
        (LedgerShown t now) ∧
        (OnlyRegs s t ledgerRegs) ∧
        (t.ldg = { s.ldg with rack := { s.ldg.rack with votes := m.sender :: s.ldg.rack.votes } }) ∧
        (t = { s with regs := t.regs, ldg := t.ldg })) ∧
  (∀ (s : State) (port now : Nat) (message : List Byte) (m : LdgMsg) (frame : List Byte),
      (s.canonical = true) →
      (s.datagram port s.ledgerPort frame = some message) →
      (s.ledgerHears 4 port message m = true) →
      (beAt m.body 0 1 ≠ 1) →
      Completes (.voteReceive port now frame) s fun t =>
        (t = s)) ∧
  (∀ (s : State) (port now : Nat) (message : List Byte) (m : LdgMsg) (u : State) (frame : List Byte),
      (s.canonical = true) →
      (s.datagram port s.ledgerPort frame = some message) →
      (s.ledgerHears 4 port message m = true) →
      (m.group = 0) →
      (beAt m.body 0 1 = 1) →
      (s.ldg.rack.role = LdgRole.candidate) →
      (m.sender ∈ s.ldg.rack.voters 0) →
      (m.sender ∉ s.ldg.rack.votes) →
      (s.ldg.rack.most 0 (s.ldg.rack.votes.length + 1) = true) →
      (u = (s.setGrp 0 { s.ldg.rack with votes := m.sender :: s.ldg.rack.votes }).becomeLeader 0 now) →
      (u.rackQuiet = true) →
      Completes (.voteReceive port now frame) s fun t =>
        (LedgerShown t now) ∧
        (OnlyRegs s t ledgerRegs) ∧
        (t.ldg = u.ldg) ∧
        (u.ldg.rack.role = LdgRole.leader) ∧
        (u.ldg.rack.leader = some s.selfId) ∧
        (u.ldg.rack.log = s.ldg.rack.log ++ [LdgEntry.mk (s.ldg.rack.last.1 + 1) s.ldg.rack.term etNoop 0 s.frame []]) ∧
        (u.ldg.rack.noop = s.ldg.rack.last.1 + 1) ∧
        (Counts s t Reg.LDG_ELECTIONS 0 1) ∧
        (t = { s with regs := t.regs, ldg := t.ldg, outbox := t.outbox })) ∧
  (∀ (s : State) (port now : Nat) (message : List Byte) (m : LdgMsg) (frame : List Byte),
      (s.canonical = true) →
      (s.datagram port s.ledgerPort frame = some message) →
      (s.ledgerHears 5 port message m = true) →
      (m.group = 0) →
      (s.ledgerSpeaks = true) →
      (s.ldg.rack.leads = true) →
      (s.leased 0 now = true) →
      Completes (.syncReqReceive port now frame) s fun t =>
        (t.outbox = s.outbox ++ s.ledgerTo 0 6 m.sender (beBytes 4 (beAt m.body 0 4) ++ beBytes 8 s.ldg.rack.commit ++ beBytes 1 1 ++ beBytes 3 0)) ∧
        (t = { s with outbox := t.outbox })) ∧
  (∀ (s : State) (port now : Nat) (message : List Byte) (m : LdgMsg) (frame : List Byte),
      (s.canonical = true) →
      (s.datagram port s.ledgerPort frame = some message) →
      (s.ledgerHears 5 port message m = true) →
      ((s.grp m.group).leads = false) →
      Completes (.syncReqReceive port now frame) s fun t =>
        (t = s)) ∧
  (∀ (s : State) (port now : Nat) (message : List Byte) (m : LdgMsg) (frame : List Byte),
      (s.datagram port s.ledgerPort frame = some message) →
      (s.ldgTake 6 port message = some m) →
      (m.epoch = (s.grp m.group).epoch) →
      (s.ldgStale m = false) →
      (beAt m.body 12 1 = 1) →
      Completes (.syncAnsReceive port now frame) s fun t =>
        (t.ldg = { s.ldg with syncs := s.ldg.syncs.map fun (q : SyncReq) => if q.group = m.group && q.nonce = beAt m.body 0 4 && q.from_.isNone && q.index.isNone then { q with index := some (beAt m.body 4 8), sent := none } else q }) ∧
        (t = { s with ldg := t.ldg })) ∧
  (∀ (s : State) (port now : Nat) (message : List Byte) (m : LdgMsg) (frame : List Byte),
      (s.canonical = true) →
      (s.datagram port s.ledgerPort frame = some message) →
      (s.ldgTake 7 port message = some m) →
      (m.group = 0) →
      (m.term ≤ s.ldg.rack.term) →
      (s.ledgerSpeaks = true) →
      (s.ldg.rack.leads = false) →
      (s.ldg.rack.role ≠ LdgRole.leader) →
      (s.ldg.rack.memberOf m.sender = none) →
      (m.sender ∉ s.ldg.rack.peers) →
      Completes (.joinReceive port now frame) s fun t =>
        (LedgerShown t now) ∧
        (OnlyRegs s t ledgerRegs) ∧
        (t.ldg = { s.ldg with rack := { s.ldg.rack with peers := m.sender :: s.ldg.rack.peers } }) ∧
        (t.outbox = s.outbox ++ s.ledgerTo 0 8 m.sender (beBytes 1 (ofBool s.ldg.rack.member) ++ beBytes 3 0 ++ beBytes 8 (s.ldg.rack.leader.getD 0) ++ beBytes 8 s.ldg.rack.applied)) ∧
        (t = { s with regs := t.regs, ldg := t.ldg, outbox := t.outbox })) ∧
  (∀ (s : State) (port now : Nat) (message : List Byte) (m : LdgMsg) (frame : List Byte),
      (s.canonical = true) →
      (s.datagram port s.ledgerPort frame = some message) →
      (s.ldgTake 8 port message = some m) →
      (m.group = 0) →
      (s.ldg.rack.member = false) →
      (m.sender ∉ s.ldg.rack.peers) →
      (beAt m.body 0 1 = 1) →
      (beAt m.body 4 8 ≠ 0) →
      Completes (.joinAnsReceive port now frame) s fun t =>
        (LedgerShown t now) ∧
        (OnlyRegs s t ledgerRegs) ∧
        (t.ldg = { s.ldg with rack := { s.ldg.rack with answers := Sparse.insert s.ldg.rack.answers m.sender (1, now), peers := m.sender :: s.ldg.rack.peers, leader := some (beAt m.body 4 8) } }) ∧
        (t = { s with regs := t.regs, ldg := t.ldg })) ∧
  (∀ (s : State) (port now : Nat) (message : List Byte) (m : LdgMsg) (frame : List Byte),
      (s.datagram port s.ledgerPort frame = some message) →
      (s.ldgTake 11 port message = some m) →
      (m.group = 0) →
      (m.term ≤ s.ldg.rack.term) →
      (m.epoch = s.ldg.rack.epoch) →
      (s.ldgStale m = false) →
      (beAt m.body 12 4 = 0) →
      (s.ldg.rack.commit < beAt m.body 0 8) →
      ((m.body.drop 20).length < beAt m.body 16 4) →
      Completes (.stateReceive port now frame) s fun t =>
        (t.ldg = { s.ldg with rack := { s.ldg.rack with parts := [m.body.drop 20] } }) ∧
        (t = { s with ldg := t.ldg })) ∧
  (∀ (s : State) (port now : Nat) (message : List Byte) (m : LdgMsg) (es : List LdgEntry) (v w : State) (frame : List Byte),
      (s.canonical = true) →
      (s.datagram port s.ledgerPort frame = some message) →
      (s.ldgTake 11 port message = some m) →
      (m.group = 0) →
      (m.term ≤ s.ldg.rack.term) →
      (m.epoch = s.ldg.rack.epoch) →
      (s.ldgStale m = false) →
      (beAt m.body 12 4 = 0) →
      (s.ldg.rack.commit < beAt m.body 0 8) →
      (beAt m.body 16 4 ≤ (m.body.drop 20).length) →
      (parseEntries ((m.body.drop 20).length + 1) (m.body.drop 20) = some es) →
      (v = es.foldl (fun (a : State) (e : LdgEntry) => a.takeState 0 e now) ((s.bump Reg.LDG_STATE_XFERS).setGrp 0 { s.ldg.rack with parts := [], log := [], base := (beAt m.body 0 8, beAt m.body 8 4), commit := beAt m.body 0 8, members := [] })) →
      (w = (v.setGrp 0 { v.grp 0 with applied := beAt m.body 0 8 }).set64 Reg.LDG_RACK_APPLIED_LO (beAt m.body 0 8)) →
      (w.ldg.rack.role ≠ LdgRole.leader) →
      Completes (.stateReceive port now frame) s fun t =>
        (t.ldg = w.ldg) ∧
        (t.ldg.rack.applied = beAt m.body 0 8) ∧
        (SetsPair t Reg.LDG_RACK_APPLIED_LO 0 (beAt m.body 0 8 % 2 ^ 64)) ∧
        (LedgerShown t now) ∧
        (OnlyRegs w t ledgerRegs)) ∧
  (∀ (s : State) (port now : Nat) (message : List Byte) (m : LdgMsg) (frame : List Byte),
      (s.canonical = true) →
      (s.datagram port s.ledgerPort frame = some message) →
      (s.ledgerHears 12 port message m = true) →
      (m.group = 0) →
      (s.ledgerSpeaks = true) →
      (s.ldg.rack.leads = false) →
      Completes (.proposeReceive port now frame) s fun t =>
        (t.outbox = s.outbox ++ s.ledgerTo 0 13 m.sender (beBytes 1 2 ++ beBytes 3 0 ++ beBytes 8 0)) ∧
        (t = { s with outbox := t.outbox })) ∧
  (∀ (s : State) (port now : Nat) (message : List Byte) (m : LdgMsg) (u : State) (frame : List Byte),
      (s.canonical = true) →
      (s.datagram port s.ledgerPort frame = some message) →
      (s.ledgerHears 12 port message m = true) →
      (m.group = 0) →
      (s.ldg.rack.leads = true) →
      (etypeOf 0 (beAt m.body 0 1) = true) →
      (beAt m.body 0 1 ≠ etNoop) →
      ((m.body.drop 4).length ≤ 4064) →
      (u = (s.setGrp 0 { s.ldg.rack with proposers := Sparse.insert s.ldg.rack.proposers (s.ldg.rack.last.1 + 1) m.sender }).appendRack (beAt m.body 0 1) (m.body.drop 4) now) →
      (u.rackQuiet = true) →
      Completes (.proposeReceive port now frame) s fun t =>
        (t.ldg = u.ldg) ∧
        (u.ldg.rack.log = s.ldg.rack.log ++ [LdgEntry.mk (s.ldg.rack.last.1 + 1) s.ldg.rack.term (beAt m.body 0 1) 0 s.frame (m.body.drop 4)]) ∧
        (LedgerShown t now) ∧
        (OnlyRegs s t ledgerRegs) ∧
        (t = { s with regs := t.regs, ldg := t.ldg, outbox := t.outbox })) ∧
  (∀ (s : State) (port now : Nat) (message : List Byte) (m : LdgMsg) (frame : List Byte),
      (s.canonical = true) →
      (s.datagram port s.ledgerPort frame = some message) →
      (s.ldgTake 13 port message = some m) →
      (m.group = 1) →
      (m.epoch = s.ldg.hall.epoch) →
      (s.ldgStale m = false) →
      (m.term = s.ldg.hall.term) →
      (s.cpc.setPay.isSome = true) →
      (beAt m.body 0 1 ≠ 0) →
      Completes (.proposeAnsReceive port now frame) s fun t =>
        (t.cpc = { s.cpc with setPay := none }) ∧
        (t.getF Reg.CPC_STATUS_CMD_RESULT = 4) ∧
        (bitOf (t.getF Reg.SYS_IRQ_CAUSE 8) 4 = true) ∧
        (LedgerShown t now) ∧
        (OnlyRegs s t ledgerRegs) ∧
        (t = { s with regs := t.regs, cpc := t.cpc })) ∧
  (∀ (s : State) (port now : Nat) (message : List Byte) (m : LdgMsg) (frame : List Byte),
      (s.canonical = true) →
      (s.datagram port s.ledgerPort frame = some message) →
      (s.ledgerHears 9 port message m = true) →
      (m.group = 0) →
      (s.isF Reg.LDG_STATUS_ARBITER = true) →
      (beAt m.body 0 1 < 8) →
      Completes (.claimReceive port now frame) s fun t =>
        (LedgerShown t now) ∧
        (OnlyRegs s t ledgerRegs) ∧
        (t.ldg = { s.ldg with claims := Sparse.upd [] s.ldg.claims (beAt m.body 0 1) (Sparse.at [] s.ldg.claims (beAt m.body 0 1) ++ [ClaimRec.mk m.sender (beAt m.body 1 1) (beAt m.body 2 1) (beAt m.body 3 1) now]), decided := Sparse.erase s.ldg.decided (beAt m.body 0 1) }) ∧
        (t = { s with regs := t.regs, ldg := t.ldg })) ∧
  (∀ (s : State) (port now : Nat) (message : List Byte) (m : LdgMsg) (frame : List Byte),
      (s.canonical = true) →
      (s.datagram port s.ledgerPort frame = some message) →
      (s.ledgerHears 10 port message m = true) →
      (m.group = 0) →
      (s.ldg.rack.role ≠ LdgRole.leader) →
      (beAt m.body 2 2 ≤ s.voiceGen (beAt m.body 0 1)) →
      Completes (.decideReceive port now frame) s fun t =>
        (LedgerShown t now) ∧
        (OnlyRegs s t ledgerRegs) ∧
        (t.ldg = { s.ldg with claims := Sparse.erase s.ldg.claims (beAt m.body 0 1), decided := Sparse.insert s.ldg.decided (beAt m.body 0 1) now }) ∧
        (t = { s with regs := t.regs, ldg := t.ldg })) ∧
  (∀ (s : State) (port now : Nat) (message : List Byte) (m : LdgMsg) (frame : List Byte),
      (s.canonical = true) →
      (s.datagram port s.ledgerPort frame = some message) →
      (s.ledgerHears 10 port message m = true) →
      (m.group = 0) →
      (s.ldg.rack.role ≠ LdgRole.leader) →
      (s.voiceGen (beAt m.body 0 1) < beAt m.body 2 2) →
      (beAt m.body 0 1 = s.shelf) →
      (beAt m.body 4 8 ≠ s.selfId) →
      (s.voiceOf s.shelf = some s.selfId) →
      Completes (.decideReceive port now frame) s fun t =>
        (LedgerShown t now) ∧
        (OnlyRegs s t ledgerRegs) ∧
        (t.ldg = { s.ldg with claims := Sparse.erase s.ldg.claims (beAt m.body 0 1), decided := Sparse.insert s.ldg.decided (beAt m.body 0 1) now, voiceLost := true, hall := { s.ldg.hall with stepping := s.ldg.hall.stepping || decide (s.ldg.hall.role = LdgRole.leader) } }) ∧
        (t = { s with regs := t.regs, ldg := t.ldg }))

/-- A voter whose election time passes becomes a candidate of the next term with its own vote and sends VOTE_REQ. A leader's heartbeat goes out
and its lease follows the acknowledgements; a lease ends at SENT plus ET_MIN less the guard. STEP_DOWN sends a last APPEND and follows. A
SYNC shows BUSY: a leader with a lease has its index at once, a follower asks the leader; it ends DONE with its index once applied, or
FAILED at its timeout, with its cause. A module that is no member sends JOIN; one for whom R286 holds forms the group: itself the only voter
and leader of term 1 of an epoch from the frame number. GROUP_REFORM does so under R287. An arbiter decides when the window ends, the deputy
after 400 us, and sends DECIDE. The election draw is a free value (log 5). -/
def Obligations.LedgerElectionsSyncsAndForming : Prop :=
  (∀ (s : State) (group now : Nat) (d : Nat),
      (s.canonical = true) →
      (group = 0) →
      (s.ldg.rack.expire = some d) →
      (d < now) →
      (s.ldg.rack.role ≠ LdgRole.leader) →
      (s.mayVote 0 = true) →
      (s.ledgerSpeaks = true) →
      (s.ldg.rack.most 0 1 = false) →
      Completes (.electionTimeout group now) s fun t =>
        (LedgerShown t now) ∧
        (OnlyRegs s t ledgerRegs) ∧
        (t.ldg = { s.ldg with rack := { s.ldg.rack with role := .candidate, term := s.ldg.rack.term + 1, votes := [s.selfId], leader := none, lease := none, voted := some s.selfId, noLeader := some (s.ldg.rack.noLeader.getD now), expire := some (s.drawn 0 (s.etNs 0) (s.etNs 0) now) } }) ∧
        (t.free = s.free + 1) ∧
        (t.outbox = s.outbox ++ (s.setGrp 0 { s.ldg.rack with term := s.ldg.rack.term + 1 }).ledgerAll 0 3 (beBytes 8 s.ldg.rack.last.1 ++ beBytes 4 s.ldg.rack.last.2)) ∧
        (t = { s with regs := t.regs, ldg := t.ldg, free := t.free, outbox := t.outbox })) ∧
  (∀ (s : State) (group now : Nat) (d l : Nat),
      (s.canonical = true) →
      (group = 1) →
      (s.ldg.hall.expire = some d) →
      (d < now) →
      (s.ldg.hall.role ≠ LdgRole.leader) →
      (s.mayVote 1 = true) →
      (s.ledgerSpeaks = true) →
      (s.ldg.rack.role ≠ LdgRole.leader) →
      (s.ldg.rack.leader = some l) →
      Completes (.electionTimeout group now) s fun t =>
        (LedgerShown t now) ∧
        (OnlyRegs s t ledgerRegs) ∧
        (t.ldg = { s.ldg with hall := { s.ldg.hall with role := .candidate, term := s.ldg.hall.term + 1, votes := [], leader := none, lease := none, voted := none, noLeader := some (s.ldg.hall.noLeader.getD now), expire := some (s.drawn 1 (s.etNs 1) (s.etNs 1) now) } }) ∧
        (t.free = s.free + 1) ∧
        (t.outbox = s.outbox ++ (s.setGrp 1 { s.ldg.hall with term := s.ldg.hall.term + 1 }).ledgerAll 1 3 (beBytes 8 s.ldg.hall.last.1 ++ beBytes 4 s.ldg.hall.last.2) ++ s.ledgerTo 0 12 l (beBytes 1 etHallRecord ++ beBytes 3 0 ++ recordOfVote (s.ldg.hall.term + 1) s.selfId)) ∧
        (t = { s with regs := t.regs, ldg := t.ldg, free := t.free, outbox := t.outbox })) ∧
  (∀ (s : State) (group now : Nat) (d : Nat),
      (s.canonical = true) →
      (group = 1) →
      (s.ldg.hall.expire = some d) →
      (d < now) →
      (s.ldg.hall.role ≠ LdgRole.leader) →
      (s.mayVote 1 = true) →
      (s.ledgerSpeaks = true) →
      (s.ldg.rack.leads = true) →
      (((s.setGrp 1 { s.ldg.hall with role := .candidate, term := s.ldg.hall.term + 1, votes := [], leader := none, lease := none, voted := none, noLeader := some (s.ldg.hall.noLeader.getD now), expire := some (s.drawn 1 (s.etNs 1) (s.etNs 1) now) }).appendRack etHallRecord (recordOfVote (s.ldg.hall.term + 1) s.selfId) now).rackQuiet = true) →
      Completes (.electionTimeout group now) s fun t =>
        (LedgerShown t now) ∧
        (OnlyRegs s t ledgerRegs) ∧
        (t.ldg = ((s.setGrp 1 { s.ldg.hall with role := .candidate, term := s.ldg.hall.term + 1, votes := [], leader := none, lease := none, voted := none, noLeader := some (s.ldg.hall.noLeader.getD now), expire := some (s.drawn 1 (s.etNs 1) (s.etNs 1) now) }).appendRack etHallRecord (recordOfVote (s.ldg.hall.term + 1) s.selfId) now).ldg) ∧
        (t.ldg.rack.log = s.ldg.rack.log ++ [LdgEntry.mk (s.ldg.rack.last.1 + 1) s.ldg.rack.term etHallRecord 0 s.frame (recordOfVote (s.ldg.hall.term + 1) s.selfId)]) ∧
        (t.ldg.hall.role = LdgRole.candidate) ∧
        (t.ldg.hall.term = s.ldg.hall.term + 1) ∧
        (t.free = s.free + 1) ∧
        (t = { s with regs := t.regs, ldg := t.ldg, free := t.free, outbox := t.outbox })) ∧
  (∀ (s : State) (group now : Nat) (u : State),
      (s.canonical = true) →
      (group < 2) →
      ((s.grp group).role = LdgRole.leader) →
      (s.ledgerSpeaks = true) →
      (s.ldg.syncs = []) →
      (u = s.showLease group now) →
      (u.rackQuiet = true) →
      Completes (.heartbeatSend group now) s fun t =>
        (LedgerShown t now) ∧
        (OnlyRegs s t ledgerRegs) ∧
        (t.ldg = u.ldg) ∧
        (t.outbox = s.outbox ++ s.ledgerAll group 1 (beBytes 8 (s.grp group).last.1 ++ beBytes 4 (s.grp group).last.2 ++ beBytes 8 (s.grp group).commit ++ beBytes 8 (now / 10) ++ beBytes 1 0 ++ beBytes 1 1 ++ beBytes 1 0 ++ beBytes 1 0)) ∧
        (t = { s with regs := t.regs, ldg := t.ldg, outbox := t.outbox })) ∧
  (∀ (s : State) (group now : Nat) (d : Nat),
      (s.canonical = true) →
      (group < 2) →
      ((s.grp group).lease = some d) →
      (d + s.etNs group - leaseGuard group < now) →
      Completes (.leaseEnd group now) s fun t =>
        (LedgerShown t now) ∧
        (OnlyRegs s t ledgerRegs) ∧
        (t.ldg = (s.setGrp group { s.grp group with lease := none }).ldg) ∧
        (t = { s with regs := t.regs, ldg := t.ldg })) ∧
  (∀ (s : State) (now : Nat),
      (s.canonical = true) →
      (s.ldg.rack.role = LdgRole.leader) →
      (s.ldg.hall.role ≠ LdgRole.leader) →
      (s.ledgerSpeaks = true) →
      Completes (.stepDown now) s fun t =>
        (LedgerShown t now) ∧
        (OnlyRegs s t ledgerRegs) ∧
        (t.ldg = { s.ldg with rack := { s.ldg.rack with role := .follower, leader := none, lease := none, noop := 0, stepping := false, stepHeard := true, expire := some (s.drawn 0 200000 500000 now) } }) ∧
        (t.free = s.free + 1) ∧
        (t.outbox = s.outbox ++ s.ledgerAll 0 1 (beBytes 8 s.ldg.rack.last.1 ++ beBytes 4 s.ldg.rack.last.2 ++ beBytes 8 s.ldg.rack.commit ++ beBytes 8 (now / 10) ++ beBytes 1 0 ++ beBytes 1 1 ++ beBytes 1 1 ++ beBytes 1 0)) ∧
        (t = { s with regs := t.regs, ldg := t.ldg, free := t.free, outbox := t.outbox })) ∧
  (∀ (s : State) (path now : Nat),
      (s.leased 0 now = true) →
      Completes (.syncRack path now) s fun t =>
        (t.ldg = { s.ldg with nonce := s.ldg.nonce + 1, syncs := (s.ldg.syncs.filter fun (r : SyncReq) => !(decide (r.path = path) && r.from_.isNone)) ++ [SyncReq.mk path 0 (s.ldg.nonce % 2 ^ 32) (some s.ldg.rack.commit) (now + syncNs 0) none none] }) ∧
        (t.pathRegs = Sparse.upd 0#32 s.pathRegs (path * 2 ^ 26 + 0xA0014) 1#32) ∧
        (t = { s with ldg := t.ldg, pathRegs := t.pathRegs })) ∧
  (∀ (s : State) (path now l : Nat),
      (s.ldg.rack.role ≠ LdgRole.leader) →
      (s.ldg.rack.leader = some l) →
      (s.ledgerSpeaks = true) →
      Completes (.syncRack path now) s fun t =>
        (t.ldg = { s.ldg with nonce := s.ldg.nonce + 1, syncs := (s.ldg.syncs.filter fun (r : SyncReq) => !(decide (r.path = path) && r.from_.isNone)) ++ [SyncReq.mk path 0 (s.ldg.nonce % 2 ^ 32) none (now + syncNs 0) none none] }) ∧
        (t.pathRegs = Sparse.upd 0#32 s.pathRegs (path * 2 ^ 26 + 0xA0014) 1#32) ∧
        (t.outbox = s.outbox ++ s.ledgerTo 0 5 l (beBytes 4 (s.ldg.nonce % 2 ^ 32))) ∧
        (t = { s with ldg := t.ldg, pathRegs := t.pathRegs, outbox := t.outbox })) ∧
  (∀ (s : State) (path now : Nat),
      (s.leased 1 now = true) →
      Completes (.syncHall path now) s fun t =>
        (t.ldg = { s.ldg with nonce := s.ldg.nonce + 1, syncs := (s.ldg.syncs.filter fun (r : SyncReq) => !(decide (r.path = path) && r.from_.isNone)) ++ [SyncReq.mk path 1 (s.ldg.nonce % 2 ^ 32) (some s.ldg.hall.commit) (now + syncNs 1) none none] }) ∧
        (t.pathRegs = Sparse.upd 0#32 s.pathRegs (path * 2 ^ 26 + 0xA0014) 1#32) ∧
        (t = { s with ldg := t.ldg, pathRegs := t.pathRegs })) ∧
  (∀ (s : State) (path now l : Nat),
      (s.ldg.hall.role ≠ LdgRole.leader) →
      (s.ldg.hall.leader = some l) →
      (s.ledgerSpeaks = true) →
      Completes (.syncHall path now) s fun t =>
        (t.ldg = { s.ldg with nonce := s.ldg.nonce + 1, syncs := (s.ldg.syncs.filter fun (r : SyncReq) => !(decide (r.path = path) && r.from_.isNone)) ++ [SyncReq.mk path 1 (s.ldg.nonce % 2 ^ 32) none (now + syncNs 1) none none] }) ∧
        (t.pathRegs = Sparse.upd 0#32 s.pathRegs (path * 2 ^ 26 + 0xA0014) 1#32) ∧
        (t.outbox = s.outbox ++ s.ledgerTo 1 5 l (beBytes 4 (s.ldg.nonce % 2 ^ 32))) ∧
        (t = { s with ldg := t.ldg, pathRegs := t.pathRegs, outbox := t.outbox })) ∧
  (∀ (s : State) (path n : Nat) (q : SyncReq),
      (s.canonical = true) →
      ((s.ldg.syncs.find? fun (r : SyncReq) => decide (r.path = path) && r.from_.isNone) = some q) →
      (q.index = some n) →
      (n ≤ (s.grp q.group).applied) →
      Completes (.syncDone path) s fun t =>
        (t.ldg = { s.ldg with syncs := s.ldg.syncs.filter fun (r : SyncReq) => decide (r ≠ q) }) ∧
        (t.pathRegs = Sparse.upd 0#32 (Sparse.upd 0#32 (Sparse.upd 0#32 s.pathRegs (path * 2 ^ 26 + 0xA0018) (BitVec.ofNat 32 n)) (path * 2 ^ 26 + 0xA001C) (BitVec.ofNat 32 (n / 2 ^ 32))) (q.path * 2 ^ 26 + 0xA0014) 2#32) ∧
        (Raises s t 8 [6]) ∧
        (OnlyRegs s t [(Reg.SYS_IRQ_CAUSE.addr 8 0)]) ∧
        (t = { s with regs := t.regs, ldg := t.ldg, pathRegs := t.pathRegs })) ∧
  (∀ (s : State) (path now : Nat) (q : SyncReq),
      (s.canonical = true) →
      ((s.ldg.syncs.any fun (r : SyncReq) => r.from_.isSome) = false) →
      ((s.ldg.syncs.find? fun (r : SyncReq) => decide (r.path = path) && r.from_.isNone) = some q) →
      (q.until_ < now) →
      Completes (.syncTimeout path now) s fun t =>
        (t.ldg = { s.ldg with syncs := s.ldg.syncs.filter fun (r : SyncReq) => decide (r ≠ q) }) ∧
        (t.pathRegs = Sparse.upd 0#32 s.pathRegs (q.path * 2 ^ 26 + 0xA0014) 3#32) ∧
        (Raises s t 8 [6]) ∧
        (OnlyRegs s t [(Reg.SYS_IRQ_CAUSE.addr 8 0)]) ∧
        (t = { s with regs := t.regs, ldg := t.ldg, pathRegs := t.pathRegs })) ∧
  (∀ (s : State) (group now : Nat),
      (s.canonical = true) →
      (group < 2) →
      ((s.grp group).member = false) →
      (s.phase = phaseRun) →
      (group = 1 → s.ldg.rack.leads = true) →
      ((s.grp group).joinAt.all (fun (x : Nat) => decide (x + 10000000 ≤ now)) = true) →
      (s.ledgerSpeaks = true) →
      Completes (.joinRetry group now) s fun t =>
        (LedgerShown t now) ∧
        (OnlyRegs s t ledgerRegs) ∧
        (t.ldg = (s.setGrp group { s.grp group with joinSince := some ((s.grp group).joinSince.getD now), joinAt := some now }).ldg) ∧
        (t.outbox = s.outbox ++ s.ledgerAll group 7 (beBytes 1 s.shelf ++ beBytes 1 (ofBool (decide (s.getF Reg.TWN_STATUS_STATE = 3))) ++ beBytes 2 0 ++ beBytes 4 s.hnt.incarnation)) ∧
        (t = { s with regs := t.regs, ldg := t.ldg, outbox := t.outbox })) ∧
  (∀ (s : State) (group now : Nat) (d : Nat),
      (s.canonical = true) →
      (group = 0) →
      (s.ldg.rack.member = false) →
      (s.ldg.rack.joinSince = some d) →
      (d + 50000000 < now) →
      (s.phase = phaseRun) →
      (s.isF Reg.LDG_CFG_EN = true) →
      ((s.ldg.rack.answers.any fun (e : Nat × Nat × Nat) => decide (e.2.1 = 1) && decide (now ≤ e.2.2 + 50000000)) = false) →
      (s.getF Reg.LDG_CFG_SHELVES + 1 < 2 * ((s.shelf :: s.rackModules.map Prod.snd).dedup).length) →
      ((s.rackModules.any fun (p : Nat × Nat) => decide (p.1 < s.selfId)) = false) →
      Completes (.groupForm group now) s fun t =>
        (t = (s.formGroup 0 {} now).ldgDone now) ∧
        ((s.formGroup 0 {} now).ldg.rack.member = true) ∧
        ((s.formGroup 0 {} now).ldg.rack.epoch = s.frame % 2 ^ 32) ∧
        ((s.formGroup 0 {} now).ldg.rack.term = 1) ∧
        ((s.formGroup 0 {} now).ldg.rack.role = LdgRole.leader) ∧
        ((s.formGroup 0 {} now).ldg.rack.leader = some s.selfId) ∧
        ((s.formGroup 0 {} now).ldg.rack.members = [LdgMember.mk s.selfId s.hnt.incarnation mVoice s.shelf s.rackNo 0]) ∧
        (LedgerShown t now)) ∧
  (∀ (s : State) (group now : Nat) (d : Nat),
      (s.canonical = true) →
      (group = 1) →
      (s.ldg.rack.leads = true) →
      (s.ldg.hall.member = false) →
      (s.ldg.hall.joinSince = some d) →
      (d + 50000000 < now) →
      (s.phase = phaseRun) →
      (s.isF Reg.LDG_CFG_EN = true) →
      ((s.ldg.hall.answers.any fun (e : Nat × Nat × Nat) => decide (e.2.1 = 1) && decide (now ≤ e.2.2 + 50000000)) = false) →
      (s.getF Reg.LDG_CFG_HALL_RACKS < 2 * (s.ldg.hall.peers.length + 1)) →
      ((s.ldg.hall.peers.any fun (p : Nat) => decide (p < s.selfId)) = false) →
      Completes (.groupForm group now) s fun t =>
        (t = (s.formGroup 1 {} now).ldgDone now) ∧
        ((s.formGroup 1 {} now).ldg.hall.member = true) ∧
        ((s.formGroup 1 {} now).ldg.hall.epoch = s.frame % 2 ^ 32) ∧
        ((s.formGroup 1 {} now).ldg.hall.term = 1) ∧
        ((s.formGroup 1 {} now).ldg.hall.role = LdgRole.leader) ∧
        ((s.formGroup 1 {} now).ldg.hall.leader = some s.selfId) ∧
        ((s.formGroup 1 {} now).ldg.hall.members = [LdgMember.mk s.selfId s.hnt.incarnation mSeat s.shelf s.rackNo 0]) ∧
        (LedgerShown t now)) ∧
  (∀ (s : State) (now d : Nat),
      (s.canonical = true) →
      (s.ldg.rack.member = true) →
      (s.ldg.rack.noLeader = some d) →
      (d + 100000000 < now) →
      (s.isVoice = true) →
      (s.ldg.rack.most 0 s.ldg.rack.restarted.length = true) →
      (s.ldg.rack.best.1 < s.ldg.rack.last.2) →
      Completes (.groupReform now) s fun t =>
        (t = (s.formGroup 0 s.ldg.rack now).ldgDone now) ∧
        (LedgerShown t now) ∧
        (s.ldg.rack.last.1 ≤ s.ldg.rack.commit → (s.formGroup 0 s.ldg.rack now).ldg.rack.member = true ∧ (s.formGroup 0 s.ldg.rack now).ldg.rack.epoch = s.frame % 2 ^ 32 ∧ (s.formGroup 0 s.ldg.rack now).ldg.rack.term = 1 ∧ (s.formGroup 0 s.ldg.rack now).ldg.rack.role = LdgRole.leader ∧ (s.formGroup 0 s.ldg.rack now).ldg.rack.members = [LdgMember.mk s.selfId s.hnt.incarnation mVoice s.shelf s.rackNo 0] ∧ (s.formGroup 0 s.ldg.rack now).ldg.rack.log.take s.ldg.rack.log.length = s.ldg.rack.log)) ∧
  (∀ (s : State) (shelf now h : Nat) (c : ClaimRec) (rest : List ClaimRec),
      (s.canonical = true) →
      (Sparse.at [] s.ldg.claims shelf = c :: rest) →
      (s.ledgerSpeaks = true) →
      (s.decision shelf (c :: rest) = none) →
      (s.voiceOf shelf = some h) →
      (s.ldg.rack.role ≠ LdgRole.leader) →
      (s.decidesFor shelf = true) →
      (c.at_ + 250000 < now) →
      Completes (.arbiterWindowEnd shelf now) s fun t =>
        (LedgerShown t now) ∧
        (OnlyRegs s t ledgerRegs) ∧
        (t.ldg = { s.ldg with claims := Sparse.erase s.ldg.claims shelf, decided := Sparse.insert s.ldg.decided shelf now }) ∧
        (t.outbox = s.outbox ++ s.ledgerAll 0 10 (beBytes 1 shelf ++ beBytes 1 0 ++ beBytes 2 (s.voiceGen shelf + 0) ++ beBytes 8 h)) ∧
        (t.free = s.free + 1) ∧
        (t = { s with regs := t.regs, ldg := t.ldg, outbox := t.outbox, free := t.free })) ∧
  (∀ (s : State) (shelf now h : Nat) (c : ClaimRec) (rest : List ClaimRec),
      (s.canonical = true) →
      (Sparse.at [] s.ldg.claims shelf = c :: rest) →
      (s.ledgerSpeaks = true) →
      (s.decision shelf (c :: rest) = none) →
      (s.voiceOf shelf = some h) →
      (s.ldg.rack.role ≠ LdgRole.leader) →
      (s.isVoice = true) →
      (s.arbiters.map Prod.snd = some s.shelf) →
      (c.at_ + 400000 < now) →
      Completes (.deputyDecideTimeout shelf now) s fun t =>
        (LedgerShown t now) ∧
        (OnlyRegs s t ledgerRegs) ∧
        (t.ldg = { s.ldg with claims := Sparse.erase s.ldg.claims shelf, decided := Sparse.insert s.ldg.decided shelf now }) ∧
        (t.outbox = s.outbox ++ s.ledgerAll 0 10 (beBytes 1 shelf ++ beBytes 1 0 ++ beBytes 2 (s.voiceGen shelf + 0) ++ beBytes 8 h)) ∧
        (t.free = s.free + 1) ∧
        (t = { s with regs := t.regs, ldg := t.ldg, outbox := t.outbox, free := t.free }))

/-- In a module that holds the lock, ENUMERATE makes every position of the chain PENDING, releases the identifiers, clears the authentication
maps and sends ENUM for the first position with its expected identifier, or ENUM_OPEN with SLOTS 16. WAKE sends WAKE from both radios and
does the same with the positions held. An ENUM_ANS in time and for its position admits the node and lets the other side take its step; when
none is PENDING enumeration ends. An answer to ENUM_OPEN is kept. A step without answer is repeated twice; then its side stops, and when
both have stopped the rest is LOST, ENUM_INCOMPLETE is set and the causes are raised. At the end of open slots the best answer is named, or
SLOTS doubles. REENUM asks for the gap of a sweep in progress, or starts at once from the side in turn. SLEEP sends SLEEP six times and
treats every timer as zero. -/
def Obligations.EnumerationStepByStep : Prop :=
  (∀ (s : State) (now i : Nat),
      (s.canonical = true) →
      (s.pklOn = true) →
      (s.pklTx = true) →
      (s.ndList.head? = some i) →
      (s.idExp i ≠ 0) →
      Completes (.enumerate now) s fun t =>
        (s.allPending t = true) ∧
        (t.pklPhase = pklEnum) ∧
        (t.getF Reg.PKL_STATUS_ENUM_INCOMPLETE = 0) ∧
        (t.getF Reg.PKL_STATUS_LOST = 0) ∧
        (t.rd (Reg.PKL_LOST_LO.addr 0 0) = 0#32) ∧
        (t.rd (Reg.PKL_STALE_LO.addr 0 0) = 0#32) ∧
        (t.rd (Reg.EST_AUTH_OK_LO.addr 0 0) = 0#32) ∧
        (t.rd (Reg.EST_AUTH_FAIL_LO.addr 0 0) = 0#32) ∧
        (((List.range 48).all fun q => decide (t.idFound q = 0)) = true) ∧
        (t.pkl = { s.pkl with step := some { side := 0, pos := i, target := s.idExp i, slots := 0, sentAt := now }, stepNo := s.pkl.stepNo + 1, began := putBit 0 0 true, held := false, stopped := 0, firstMiss := 0, segment := none, gapSides := [], ready := false, sweep := false, recs := [], ts := [], stuck := [], bal := [], auth := none, authQ := [] }) ∧
        (t.outbox = s.outbox ++ [s.radioOut 0 1 0x10 i ((s.pkl.stepNo + 1)) (beBytes 8 (s.idExp i) ++ beBytes 1 i ++ beBytes 3 0)]) ∧
        (OnlyRegs s t (enumRegs)) ∧
        (t = { s with regs := t.regs, pkl := t.pkl, outbox := t.outbox })) ∧
  (∀ (s : State) (now i : Nat),
      (s.canonical = true) →
      (s.pklOn = true) →
      (s.pklTx = true) →
      (s.ndList.head? = some i) →
      (s.idExp i = 0) →
      (s.isF Reg.PKL_CFG_OPEN_ENUM = true) →
      Completes (.enumerate now) s fun t =>
        (s.allPending t = true) ∧
        (t.pklPhase = pklEnum) ∧
        (t.getF Reg.PKL_STATUS_ENUM_INCOMPLETE = 0) ∧
        (t.getF Reg.PKL_STATUS_LOST = 0) ∧
        (t.rd (Reg.PKL_LOST_LO.addr 0 0) = 0#32) ∧
        (t.rd (Reg.PKL_STALE_LO.addr 0 0) = 0#32) ∧
        (t.rd (Reg.EST_AUTH_OK_LO.addr 0 0) = 0#32) ∧
        (t.rd (Reg.EST_AUTH_FAIL_LO.addr 0 0) = 0#32) ∧
        (((List.range 48).all fun q => decide (t.idFound q = 0)) = true) ∧
        (t.pkl = { s.pkl with step := some { side := 0, pos := i, target := 0, slots := 16, sentAt := now }, stepNo := s.pkl.stepNo + 1, began := putBit 0 0 true, held := false, stopped := 0, firstMiss := 0, segment := none, gapSides := [], ready := false, sweep := false, recs := [], ts := [], stuck := [], bal := [], auth := none, authQ := [] }) ∧
        (t.outbox = s.outbox ++ [s.radioOut 0 1 0x11 i ((s.pkl.stepNo + 1)) (beBytes 1 i ++ beBytes 1 16 ++ beBytes 2 0)]) ∧
        (OnlyRegs s t (enumRegs)) ∧
        (t = { s with regs := t.regs, pkl := t.pkl, outbox := t.outbox })) ∧
  (∀ (s : State) (now i : Nat),
      (s.canonical = true) →
      (s.pklOn = true) →
      (s.pklTx = true) →
      (s.ndList.head? = some i) →
      (s.idExp i = 0) →
      (s.idFound i ≠ 0) →
      Completes (.pklWake now) s fun t =>
        (s.allPending t = true) ∧
        (t.pklPhase = pklEnum) ∧
        (t.getF Reg.PKL_STATUS_ENUM_INCOMPLETE = 0) ∧
        (t.getF Reg.PKL_STATUS_LOST = 0) ∧
        (t.rd (Reg.PKL_LOST_LO.addr 0 0) = 0#32) ∧
        (t.rd (Reg.PKL_STALE_LO.addr 0 0) = 0#32) ∧
        (t.rd (Reg.EST_AUTH_OK_LO.addr 0 0) = 0#32) ∧
        (t.rd (Reg.EST_AUTH_FAIL_LO.addr 0 0) = 0#32) ∧
        (((List.range 48).all fun q => decide (t.idFound q = s.idFound q)) = true) ∧
        (t.pkl = { s.pkl with step := some { side := 0, pos := i, target := s.idFound i, slots := 0, sentAt := now }, stepNo := s.pkl.stepNo + 1, began := putBit 0 0 true, held := true, stopped := 0, firstMiss := 0, segment := none, gapSides := [], ready := false, sweep := false, recs := [], ts := [], stuck := [], bal := [], auth := none, authQ := [] }) ∧
        (t.outbox = s.outbox ++ [s.radioOut 0 1 0x14 0xFF s.pkl.stepNo (beBytes 4 0), s.radioOut 1 1 0x14 0xFF s.pkl.stepNo (beBytes 4 0), s.radioOut 0 1 0x10 i ((s.pkl.stepNo + 1)) (beBytes 8 (s.idFound i) ++ beBytes 1 i ++ beBytes 3 0)]) ∧
        (OnlyRegs s t (enumRegs)) ∧
        (t = { s with regs := t.regs, pkl := t.pkl, outbox := t.outbox })) ∧
  (∀ (s : State),
      (s.canonical = true) →
      (s.pklOn = true) →
      (s.pklTx = true) →
      (s.pklPhase ≠ pklOff) →
      Completes (.pklSleep) s fun t =>
        (t.pklPhase = pklSleeping) ∧
        (((List.range 48).all fun q => decide (t.getF Reg.PKL_ND_BLEED_RUN q = 0)) = true) ∧
        (t.pkl = { s.pkl with step := none, segment := none, gapSides := [], sweep := false, recs := [], bal := [], bleed := [], auth := none, disc := false }) ∧
        (t.outbox = s.outbox ++ [s.radioOut 0 1 0x13 0xFF s.pkl.stepNo (beBytes 4 0), s.radioOut 1 1 0x13 0xFF s.pkl.stepNo (beBytes 4 0), s.radioOut 0 1 0x13 0xFF s.pkl.stepNo (beBytes 4 0), s.radioOut 1 1 0x13 0xFF s.pkl.stepNo (beBytes 4 0), s.radioOut 0 1 0x13 0xFF s.pkl.stepNo (beBytes 4 0), s.radioOut 1 1 0x13 0xFF s.pkl.stepNo (beBytes 4 0)]) ∧
        (OnlyRegs s t (pklRegs ++ ndRegs [Reg.PKL_ND_BLEED])) ∧
        (t = { s with regs := t.regs, pkl := t.pkl, outbox := t.outbox })) ∧
  (∀ (s : State) (radio now : Nat) (air m : List Byte) (e : EnumStep) (j : Nat),
      (s.canonical = true) →
      (s.hearsAir 1 0x12 air m = true) →
      (s.pkl.step = some e) →
      (radio = e.side) →
      (e.side = 0) →
      (e.slots = 0) →
      (now ≤ e.sentAt + s.enumWait e.side e.pos) →
      (beAt (m.drop 8) 8 1 = e.pos) →
      (e.target = 0 ∨ e.target = beAt (m.drop 8) 0 8) →
      (e.pos < 48) →
      (s.pklTx = true) →
      (s.pkl.firstMiss = 0) →
      (bitOf s.pkl.stopped 1 = false) →
      (s.pkl.segment = none) →
      ((s.ndList.filter fun q => decide (q ≠ e.pos ∧ s.ndState q = ndPending)).getLast? = some j) →
      (s.idExp j ≠ 0) →
      Completes (.enumAnsReceive radio now air) s fun t =>
        (t.idFound e.pos = beAt (m.drop 8) 0 8) ∧
        (t.ndState e.pos = ndReached) ∧
        (t.getF Reg.PKL_ND_STAT_MISSES e.pos = 0) ∧
        (t.pkl = { s.pkl with step := some { side := 1, pos := j, target := s.idExp j, sentAt := now }, stepNo := s.pkl.stepNo + 1, began := putBit s.pkl.began 1 true, stopped := putBit s.pkl.stopped 0 (bitOf s.pkl.stopped 0) }) ∧
        (t.outbox = s.outbox ++ [s.radioOut 1 1 0x10 j ((s.pkl.stepNo + 1)) (beBytes 8 (s.idExp j) ++ beBytes 1 j ++ beBytes 3 0)]) ∧
        (OnlyRegs s t (enumRegs)) ∧
        (t = { s with regs := t.regs, pkl := t.pkl, outbox := t.outbox })) ∧
  (∀ (s : State) (radio now : Nat) (air m : List Byte) (e : EnumStep),
      (s.canonical = true) →
      (s.hearsAir 1 0x12 air m = true) →
      (s.pkl.step = some e) →
      (radio = e.side) →
      (e.slots = 0) →
      (now ≤ e.sentAt + s.enumWait e.side e.pos) →
      (beAt (m.drop 8) 8 1 = e.pos) →
      (e.target = 0 ∨ e.target = beAt (m.drop 8) 0 8) →
      (e.pos < 48) →
      (s.pkl.firstMiss = 0) →
      (s.pkl.stopped = 0) →
      (e.side < 2) →
      (s.pkl.segment = none) →
      ((s.ndList.all fun q => q = e.pos || decide (s.ndState q = ndReached)) = true) →
      (s.getF Reg.EST_CFG_AUTH_POLICY = 0) →
      (s.pkl.authQ = []) →
      (s.pkl.auth = none) →
      Completes (.enumAnsReceive radio now air) s fun t =>
        (t.idFound e.pos = beAt (m.drop 8) 0 8) ∧
        (t.ndState e.pos = ndReached) ∧
        (t.getF Reg.PKL_STATUS_ENUM_INCOMPLETE = 0) ∧
        (Raises s t 9 [2]) ∧
        (t.pkl.ready = true) ∧
        (t.pklPhase = pklRun) ∧
        (t.pkl.step = none) ∧
        (t.pkl.held = false) ∧
        (t.pkl.nextP = s.frame) ∧
        (t.getF Reg.PKL_EFF_EFF_SPLIT = t.splitNext) ∧
        (OnlyRegs s t (enumRegs)) ∧
        (t = { s with regs := t.regs, pkl := t.pkl })) ∧
  (∀ (s : State) (radio now : Nat) (air m : List Byte) (e : EnumStep),
      (s.hearsAir 1 0x12 air m = true) →
      (s.pkl.step = some e) →
      (radio = e.side) →
      (e.slots ≠ 0) →
      Completes (.enumAnsReceive radio now air) s fun t =>
        (t.pkl = { s.pkl with step := some { e with answers := e.answers ++ [(signed 8 (beAt (m.drop 8) 11 1), beAt (m.drop 8) 0 8)] } }) ∧
        (t = { s with pkl := t.pkl })) ∧
  (∀ (s : State) (now : Nat) (e : EnumStep),
      (s.pkl.step = some e) →
      (e.slots = 0) →
      (e.sentAt + s.enumWait e.side e.pos < now) →
      (e.tries < 3) →
      (s.pklTx = true) →
      Completes (.enumStepTimeout now) s fun t =>
        (t.pkl = { s.pkl with step := some { e with tries := e.tries + 1, sentAt := now }, stepNo := s.pkl.stepNo + 1 }) ∧
        (t.outbox = s.outbox ++ [s.radioOut e.side 1 0x10 e.pos ((s.pkl.stepNo + 1)) (beBytes 8 e.target ++ beBytes 1 e.pos ++ beBytes 3 0)]) ∧
        (t = { s with pkl := t.pkl, outbox := t.outbox })) ∧
  (∀ (s : State) (now : Nat) (e : EnumStep),
      (s.canonical = true) →
      (s.pkl.step = some e) →
      (e.slots = 0) →
      (e.side < 2) →
      (e.sentAt + s.enumWait e.side e.pos < now) →
      (3 ≤ e.tries) →
      (s.pkl.stopped = 2 ^ (1 - e.side)) →
      (s.pkl.held = true) →
      (s.pkl.segment = none) →
      ((s.ndList.filter fun q => decide (s.ndState q = ndPending)) ≠ []) →
      (s.getF Reg.EST_CFG_AUTH_POLICY = 0) →
      (s.pkl.authQ = []) →
      (s.pkl.auth = none) →
      Completes (.enumStepTimeout now) s fun t =>
        ((s.ndList.all fun q => decide (t.ndState q = if s.ndState q = ndPending then ndLost else s.ndState q)) = true) ∧
        (t.getF Reg.PKL_STATUS_ENUM_INCOMPLETE = 1) ∧
        (Raises s t 9 [3, 1, 2]) ∧
        (t.pkl.ready = true) ∧
        (t.pkl.stopped = 3) ∧
        (t.pklPhase = pklRun) ∧
        (t.pkl.step = none) ∧
        (t.pkl.held = false) ∧
        (t.pkl.nextP = s.frame) ∧
        (t.getF Reg.PKL_EFF_EFF_SPLIT = t.splitNext) ∧
        (OnlyRegs s t (enumRegs)) ∧
        (t = { s with regs := t.regs, pkl := t.pkl })) ∧
  (∀ (s : State) (now : Nat) (e : EnumStep) (x : Int × Nat),
      (s.pkl.step = some e) →
      (e.slots ≠ 0) →
      (e.sentAt + e.slots * 1000000 ≤ now) →
      (bestAnswer e.answers = some x) →
      (s.pklTx = true) →
      Completes (.enumOpenSlotsEnd now) s fun t =>
        (t.pkl = { s.pkl with step := some { e with target := x.2, slots := 0, answers := [], tries := 1, sentAt := now }, stepNo := s.pkl.stepNo + 1 }) ∧
        (t.outbox = s.outbox ++ [s.radioOut e.side 1 0x10 e.pos ((s.pkl.stepNo + 1)) (beBytes 8 x.2 ++ beBytes 1 e.pos ++ beBytes 3 0)]) ∧
        (t = { s with pkl := t.pkl, outbox := t.outbox })) ∧
  (∀ (s : State) (now : Nat) (e : EnumStep),
      (s.pkl.step = some e) →
      (e.slots ≠ 0) →
      (e.sentAt + e.slots * 1000000 ≤ now) →
      (e.answers = []) →
      (e.slots < 128) →
      (s.pklTx = true) →
      Completes (.enumOpenSlotsEnd now) s fun t =>
        (t.pkl = { s.pkl with step := some { e with slots := 2 * e.slots, sentAt := now }, stepNo := s.pkl.stepNo + 1 }) ∧
        (t.outbox = s.outbox ++ [s.radioOut e.side 1 0x11 e.pos ((s.pkl.stepNo + 1)) (beBytes 1 e.pos ++ beBytes 1 (2 * e.slots) ++ beBytes 2 0)]) ∧
        (t = { s with pkl := t.pkl, outbox := t.outbox })) ∧
  (∀ (s : State) (now : Nat),
      (s.pklOn = false) →
      Completes (.enumerate now) s fun t =>
        (t = s)) ∧
  (∀ (s : State) (now : Nat),
      (s.pklOn = false) →
      Completes (.pklWake now) s fun t =>
        (t = s)) ∧
  (∀ (s : State),
      (s.pklOn = false ∨ s.pklPhase = pklOff) →
      Completes (.pklSleep) s fun t =>
        (t = s)) ∧
  (∀ (s : State) (radio now : Nat) (air m : List Byte) (e : EnumStep),
      (s.hearsAir 1 0x12 air m = true) →
      (s.pkl.step = some e) →
      (radio ≠ e.side ∨ e.slots = 0 ∧ e.sentAt + s.enumWait e.side e.pos < now) →
      Completes (.enumAnsReceive radio now air) s fun t =>
        (t = s)) ∧
  (∀ (s : State) (radio now : Nat) (air m : List Byte) (e : EnumStep),
      (s.canonical = true) →
      (s.hearsAir 1 0x12 air m = true) →
      (s.pkl.step = some e) →
      (radio = e.side) →
      (e.slots = 0) →
      (now ≤ e.sentAt + s.enumWait e.side e.pos) →
      (beAt (m.drop 8) 8 1 = e.pos) →
      (e.target ≠ 0) →
      (e.target ≠ beAt (m.drop 8) 0 8) →
      (e.pos < 48) →
      Completes (.enumAnsReceive radio now air) s fun t =>
        (t.idFound e.pos = beAt (m.drop 8) 0 8) ∧
        (t.events = s.events ++ [LogEvent.mk 0x0A05 e.pos [e.pos, (beAt (m.drop 8) 0 8)]]) ∧
        (OnlyRegs s t [(Reg.PKL_ND_ID_FOUND_LO.addr e.pos 0), (Reg.PKL_ND_ID_FOUND_HI.addr e.pos 0)]) ∧
        (t = { s with regs := t.regs, events := t.events })) ∧
  (∀ (s : State) (radio now : Nat) (air m : List Byte),
      (s.hearsAir 1 0x12 air m = true) →
      (s.pkl.step = none) →
      (s.pklTx = true ∨ s.ndUsed (beAt (m.drop 8) 8 1) = false) →
      Completes (.enumAnsReceive radio now air) s fun t =>
        (t = s)) ∧
  (∀ (s : State) (radio now p : Nat) (air m : List Byte),
      (s.canonical = true) →
      (s.hearsAir 1 0x12 air m = true) →
      (s.pkl.step = none) →
      (s.pklTx = false) →
      (s.pklPhase ≠ pklEnum) →
      (beAt (m.drop 8) 8 1 = p) →
      (s.ndUsed p = true) →
      ((s.ndState p = ndPending ∧ (s.idExp p = 0 ∨ s.idExp p = beAt (m.drop 8) 0 8)) ∨ (s.ndState p = ndLost ∧ s.idFound p = beAt (m.drop 8) 0 8)) →
      Completes (.enumAnsReceive radio now air) s fun t =>
        (t.idFound p = beAt (m.drop 8) 0 8) ∧
        (t.ndState p = ndReached) ∧
        (t.getF Reg.PKL_ND_STAT_MISSES p = 0) ∧
        (OnlyRegs s t (enumRegs)) ∧
        (t = { s with regs := t.regs })) ∧
  (∀ (s : State) (radio now : Nat) (psdu : List Byte),
      (s.canonical = true) →
      (s.pklOn = true) →
      (127 < psdu.length ∨ psdu.length < 2 ∨ fcs16 (psdu.take (psdu.length - 2)) ≠ leAt psdu (psdu.length - 2) 2) →
      Completes (.enumAnsReceive radio now psdu) s fun t =>
        (Counts s t Reg.PKL_CRC_ERR 0 1) ∧
        (OnlyRegs s t [(Reg.PKL_CRC_ERR.addr 0 0)]) ∧
        (t = { s with regs := t.regs })) ∧
  (∀ (s : State) (now : Nat) (psdu : List Byte),
      (s.canonical = true) →
      (s.pklOn = true) →
      (127 < psdu.length ∨ psdu.length < 2 ∨ fcs16 (psdu.take (psdu.length - 2)) ≠ leAt psdu (psdu.length - 2) 2) →
      Completes (.authRespReceive now psdu) s fun t =>
        (Counts s t Reg.PKL_CRC_ERR 0 1) ∧
        (OnlyRegs s t [(Reg.PKL_CRC_ERR.addr 0 0)]) ∧
        (t = { s with regs := t.regs })) ∧
  (∀ (s : State) (now : Nat),
      (s.pkl.step = none) →
      Completes (.enumStepTimeout now) s fun t =>
        (t = s)) ∧
  (∀ (s : State) (now : Nat) (e : EnumStep),
      (s.pkl.step = some e) →
      (e.slots ≠ 0 ∨ now ≤ e.sentAt + s.enumWait e.side e.pos) →
      Completes (.enumStepTimeout now) s fun t =>
        (t = s)) ∧
  (∀ (s : State) (now : Nat) (e : EnumStep),
      (s.pkl.step = some e) →
      (e.slots = 0 ∨ now < e.sentAt + e.slots * 1000000) →
      Completes (.enumOpenSlotsEnd now) s fun t =>
        (t = s)) ∧
  (∀ (s : State) (now : Nat),
      (s.pkl.step = none) →
      Completes (.enumOpenSlotsEnd now) s fun t =>
        (t = s)) ∧
  (∀ (s : State) (now : Nat),
      (s.pklPhase ≠ pklRun ∨ s.lostSegment.isNone ∨ s.pkl.step.isSome) →
      Completes (.reenum now) s fun t =>
        (t = s)) ∧
  (∀ (s : State) (now : Nat) (g : Nat × Nat),
      (s.pklPhase = pklRun) →
      (s.lostSegment = some g) →
      (s.pkl.step = none) →
      (s.pkl.sweep = true) →
      Completes (.reenum now) s fun t =>
        (t.pkl = { s.pkl with disc := true }) ∧
        (t = { s with pkl := t.pkl })) ∧
  (∀ (s : State) (now : Nat) (g : Nat × Nat),
      (s.pklPhase = pklRun) →
      (s.lostSegment = some g) →
      (s.pkl.step = none) →
      (s.pkl.sweep = false) →
      (s.pklTx = true) →
      (s.pkl.turn = 0) →
      (s.sideReaches 0 g = true) →
      (s.sideReaches 1 g = true) →
      (s.idFound g.1 ≠ 0) →
      Completes (.reenum now) s fun t =>
        (t.pkl = { s.pkl with gapEnd := s.gapLimit, segment := some g, gapSides := [1], turn := 1, began := putBit s.pkl.began 0 true, step := some { side := 0, pos := g.1, target := s.idFound g.1, sentAt := now }, stepNo := s.pkl.stepNo + 1 }) ∧
        (t.outbox = s.outbox ++ [s.radioOut 0 1 0x10 g.1 ((s.pkl.stepNo + 1)) (beBytes 8 (s.idFound g.1) ++ beBytes 1 g.1 ++ beBytes 3 0)]) ∧
        (t = { s with pkl := t.pkl, outbox := t.outbox }))

/-- At a sweep boundary that is due SWEEP_NO counts, LEAD_EFF is the greater of LEAD and LEAD_MIN, the sample instant follows, and a SYNC leaves
both radios. A REPORT of the sweep is taken; one whose CRC is wrong is counted. At the end of the primary passes each position shows its
record, or its last values with STALE; COMPLETE leaves for missing ones. At the close misses count, LOST follows LOST_SWEEPS, and sweeps end
with their cause. BAL_ACK sets what runs; BAL_STOP queues zero for all; CLEAR clears the counters and flags. In a gap, or when none is LOST,
the next position that waits is challenged. An AUTH_RESP in time passes exactly when identifier and TAG are right; without one the challenge
repeats twice, then the position fails with its event and cause. AUTH and AUTH_PERIOD make all reached positions wait again; AUTH too early
answers busy. -/
def Obligations.SweepsBalancingAndPackAuthentication : Prop :=
  (∀ (s : State) (now : Nat),
      (s.pklOn = false ∨ s.pklPhase ≠ pklRun ∨ s.pkl.ready = false ∨ s.frame % 1000 ≠ 0 ∨ s.cpc.grantAt ≠ some s.frame ∨ s.frame < s.pkl.nextP) →
      Completes (.sweepBoundary now) s fun t =>
        (t = s)) ∧
  (∀ (s : State) (now : Nat) (g : Nat × Nat),
      (s.canonical = true) →
      (s.pklOn = true) →
      (s.pklPhase = pklRun) →
      (s.pkl.ready = true) →
      (s.frame % 1000 = 0) →
      (s.cpc.grantAt = some s.frame) →
      (s.pkl.nextP ≤ s.frame) →
      (s.lostSegment = some g) →
      (s.pkl.auth = none) →
      Completes (.sweepBoundary now) s fun t =>
        (t.getF Reg.PKL_SWEEP_NO = (s.getF Reg.PKL_SWEEP_NO + 1) % 2 ^ 32) ∧
        (t.getF Reg.PKL_EFF_LEAD_EFF = (max (min 1000 (max 50 (s.getF Reg.SNS_SI_CFG_LEAD))) s.leadMin)) ∧
        (t.pkl = { s.pkl with si := s.getF Reg.SNS_SI_CFG, sc := s.getF Reg.PKL_SWEEP_CFG, step := none, segment := none, gapSides := [], sweep := true, passDone := false, recs := [], p := now, disc := true, discAt := t.pkl.discAt, nextP := s.frame + t.getF Reg.PKL_EFF_PERIOD_EFF * 100 }) ∧
        ((200 + s.sweepSlots * 280 + 999) / 1000 ≤ t.pkl.discAt) ∧
        (t.pkl.discAt ≤ max ((200 + s.sweepSlots * 280 + 999) / 1000) (t.getF Reg.PKL_EFF_PERIOD_EFF - 1 - (t.getF Reg.PKL_EFF_LEAD_EFF + 99) / 100)) ∧
        (t.free = s.free + 1) ∧
        (t.pwm = { s.pwm with plan := if t.sns.notchLen = 0 then none else t.sns.ts.map fun x => (x * 16 - t.sns.notchLen * 500, x * 16 + t.sns.notchLen * 500) }) ∧
        (OnlyRegs s t [(Reg.PKL_EFF.addr 0 0), (Reg.PKL_STATUS.addr 0 0), (Reg.PKL_SWEEP_NO.addr 0 0)]) ∧
        (t = { s with regs := t.regs, sns := t.sns, pkl := t.pkl, pwm := t.pwm, outbox := t.outbox, free := t.free })) ∧
  (∀ (s : State) (now : Nat),
      (s.canonical = true) →
      (s.pklOn = true) →
      (s.pklTx = true) →
      (s.pklPhase = pklRun) →
      (s.pkl.ready = true) →
      (s.frame % 1000 = 0) →
      (s.cpc.grantAt = some s.frame) →
      (s.pkl.nextP ≤ s.frame) →
      (s.lostSegment = none) →
      (s.pkl.auth = none) →
      (s.pkl.authQ = []) →
      Completes (.sweepBoundary now) s fun t =>
        (t.getF Reg.PKL_SWEEP_NO = (s.getF Reg.PKL_SWEEP_NO + 1) % 2 ^ 32) ∧
        (t.getF Reg.PKL_EFF_LEAD_EFF = (max (min 1000 (max 50 (s.getF Reg.SNS_SI_CFG_LEAD))) s.leadMin)) ∧
        (t.isF Reg.PKL_STATUS_LEAD_RAISED = decide (min 1000 (max 50 (s.getF Reg.SNS_SI_CFG_LEAD)) < s.leadMin)) ∧
        (t.sns = { s.sns with ts := some (now + (max (min 1000 (max 50 (s.getF Reg.SNS_SI_CFG_LEAD))) s.leadMin) * 10000 + min 9999 (s.getF Reg.SNS_SI_CFG_PHASE)), notchLen := if bitOf (s.getF Reg.SNS_SI_CFG) 31 then min 48 (max 8 (bitsOf (s.getF Reg.SNS_SI_CFG) 24 6)) else 0, deferred := false, packRec := [] }) ∧
        (t.pwm = { s.pwm with plan := if t.sns.notchLen = 0 then none else t.sns.ts.map fun x => (x * 16 - t.sns.notchLen * 500, x * 16 + t.sns.notchLen * 500) }) ∧
        (t.pkl = { s.pkl with si := s.getF Reg.SNS_SI_CFG, sc := s.getF Reg.PKL_SWEEP_CFG, step := none, segment := none, gapSides := [], sweep := true, passDone := false, recs := [], p := now, disc := false, discAt := 0xFFFF, nextP := s.frame + t.getF Reg.PKL_EFF_PERIOD_EFF * 100 }) ∧
        (t.outbox = s.outbox ++ [t.radioOut 0 0 0x01 0xFF (t.getF Reg.PKL_SWEEP_NO) (beBytes 4 (((max (min 1000 (max 50 (s.getF Reg.SNS_SI_CFG_LEAD))) s.leadMin) * 10000 + min 9999 (s.getF Reg.SNS_SI_CFG_PHASE) - 32000) * 16 / 1000) ++ beBytes 2 (min 2000 (max 100 (s.getF Reg.PKL_SWEEP_CFG_BLEED_GUARD))) ++ beBytes 2 (t.getF Reg.PKL_EFF_PERIOD_EFF) ++ beBytes 2 0xFFFF ++ beBytes 2 0), t.radioOut 1 0 0x01 0xFF (t.getF Reg.PKL_SWEEP_NO) (beBytes 4 (((max (min 1000 (max 50 (s.getF Reg.SNS_SI_CFG_LEAD))) s.leadMin) * 10000 + min 9999 (s.getF Reg.SNS_SI_CFG_PHASE) - 32000) * 16 / 1000) ++ beBytes 2 (min 2000 (max 100 (s.getF Reg.PKL_SWEEP_CFG_BLEED_GUARD))) ++ beBytes 2 (t.getF Reg.PKL_EFF_PERIOD_EFF) ++ beBytes 2 0xFFFF ++ beBytes 2 0)]) ∧
        (OnlyRegs s t [(Reg.PKL_EFF.addr 0 0), (Reg.PKL_STATUS.addr 0 0), (Reg.PKL_SWEEP_NO.addr 0 0)]) ∧
        (t = { s with regs := t.regs, sns := t.sns, pkl := t.pkl, pwm := t.pwm, outbox := t.outbox })) ∧
  (∀ (s : State) (radio q : Nat) (air m : List Byte),
      (s.hearsAir 0 0x02 air m = true) →
      (s.pkl.sweep = true) →
      (beAt m 6 2 = s.getF Reg.PKL_SWEEP_NO % 65536) →
      (beAt m 5 1 = q) →
      (s.ndUsed q = true) →
      (ndReached ≤ s.ndState q) →
      Completes (.reportReceive radio air) s fun t =>
        (t.pkl = { s.pkl with recs := Sparse.upd none s.pkl.recs q (some ⟨radio % 2, s.pkl.passDone, m.drop 8⟩) }) ∧
        (t = { s with pkl := t.pkl })) ∧
  (∀ (s : State) (radio : Nat) (message : List Byte),
      (s.canonical = true) →
      (s.pklOn = true) →
      (message.take 4 = s.accessWord) →
      (beAt (message.drop 4) 0 1 < 8 ∨ 64 < beAt (message.drop 4) 0 1 ∨ (message.drop 4).length ≠ beAt (message.drop 4) 0 1 + 3 ∨ crc16 ((message.drop 4).take (beAt (message.drop 4) 0 1 + 1)) ≠ beAt (message.drop 4) (beAt (message.drop 4) 0 1 + 1) 2) →
      Completes (.reportReceive radio message) s fun t =>
        (Counts s t Reg.PKL_CRC_ERR 0 1) ∧
        (OnlyRegs s t [(Reg.PKL_CRC_ERR.addr 0 0)]) ∧
        (t = { s with regs := t.regs })) ∧
  (∀ (s : State) (radio : Nat) (message : List Byte),
      (s.pklOn = false ∨ message.take 4 ≠ s.accessWord) →
      Completes (.reportReceive radio message) s fun t =>
        (t = s)) ∧
  (∀ (s : State) (message : List Byte),
      (s.pklOn = false ∨ message.take 4 ≠ s.accessWord) →
      Completes (.balAckReceive message) s fun t =>
        (t = s)) ∧
  (∀ (s : State) (message : List Byte),
      (s.canonical = true) →
      (s.pklOn = true) →
      (message.take 4 = s.accessWord) →
      (beAt (message.drop 4) 0 1 < 8 ∨ 64 < beAt (message.drop 4) 0 1 ∨ (message.drop 4).length ≠ beAt (message.drop 4) 0 1 + 3 ∨ crc16 ((message.drop 4).take (beAt (message.drop 4) 0 1 + 1)) ≠ beAt (message.drop 4) (beAt (message.drop 4) 0 1 + 1) 2) →
      Completes (.balAckReceive message) s fun t =>
        (Counts s t Reg.PKL_CRC_ERR 0 1) ∧
        (OnlyRegs s t [(Reg.PKL_CRC_ERR.addr 0 0)]) ∧
        (t = { s with regs := t.regs })) ∧
  (∀ (s : State) (radio : Nat) (air m : List Byte),
      (s.hearsAir 0 0x02 air m = true) →
      (s.pkl.sweep = false ∨ beAt m 6 2 ≠ s.getF Reg.PKL_SWEEP_NO % 65536 ∨ s.ndUsed (beAt m 5 1) = false ∨ s.ndState (beAt m 5 1) < ndReached) →
      Completes (.reportReceive radio air) s fun t =>
        (t = s)) ∧
  (∀ (s : State) (now : Nat),
      (s.canonical = true) →
      (s.pkl.sweep = true) →
      (s.pkl.passDone = false) →
      (s.passEnd ≤ now) →
      Completes (.primaryPassEnd now) s fun t =>
        ((s.ndList.all fun q => s.recordShown t q) = true) ∧
        (t.pkl.passDone = true) ∧
        (t.pkl = { s.pkl with passDone := true, ts := t.pkl.ts, closeAt := s.passEnd + max (s.completeSlots 1 (s.missing (s.ndList.filter fun q => decide (q < s.getF Reg.PKL_EFF_EFF_SPLIT)))) (s.completeSlots 0 (s.missing (s.ndList.filter fun q => decide (s.getF Reg.PKL_EFF_EFF_SPLIT ≤ q)))) * 280000 }) ∧
        (t.get64 Reg.PKL_SWEEP_FRAME_LO = s.frameOf (s.sns.ts.getD s.pkl.p) % 2 ^ 64) ∧
        (∀ a, (a < 0xB0000 ∨ 0xD0000 ≤ a) → a ∉ [(Reg.SYS_IRQ_CAUSE.addr 9 0), (Reg.SYS_IRQ_CAUSE.addr 10 0)] → t.rd a = s.rd a) ∧
        (t = { s with regs := t.regs, pkl := t.pkl, outbox := t.outbox })) ∧
  (∀ (s : State) (now a b : Nat),
      (s.canonical = true) →
      (s.pkl.sweep = true) →
      (s.pkl.passDone = false) →
      (s.passEnd ≤ now) →
      (s.pklTx = true) →
      ((s.missing (s.ndList.filter fun q => decide (q < s.getF Reg.PKL_EFF_EFF_SPLIT))) = []) →
      ((s.missing (s.ndList.filter fun q => decide (s.getF Reg.PKL_EFF_EFF_SPLIT ≤ q))).head? = some a) →
      ((s.missing (s.ndList.filter fun q => decide (s.getF Reg.PKL_EFF_EFF_SPLIT ≤ q))).getLast? = some b) →
      Completes (.primaryPassEnd now) s fun t =>
        (t.outbox = s.outbox ++ [s.radioOut 0 0 0x03 0xFF ((s.getF Reg.PKL_SWEEP_NO)) (beBytes 1 a ++ beBytes 1 b ++ beBytes 2 0)]) ∧
        (Counts s t Reg.PKL_COMPLETIONS 0 1) ∧
        (∀ a, (a < 0xB0000 ∨ 0xD0000 ≤ a) → a ∉ [(Reg.SYS_IRQ_CAUSE.addr 9 0), (Reg.SYS_IRQ_CAUSE.addr 10 0)] → t.rd a = s.rd a) ∧
        (t = { s with regs := t.regs, pkl := t.pkl, outbox := t.outbox })) ∧
  (∀ (s : State) (now : Nat),
      (s.pkl.sweep = false ∨ s.pkl.passDone = true ∨ now < s.passEnd) →
      Completes (.primaryPassEnd now) s fun t =>
        (t = s)) ∧
  (∀ (s : State) (now : Nat),
      (s.pkl.sweep = false ∨ s.pkl.passDone = false ∨ now < s.pkl.closeAt) →
      Completes (.sweepClose now) s fun t =>
        (t = s)) ∧
  (∀ (s : State) (now : Nat),
      (s.canonical = true) →
      (s.pkl.sweep = true) →
      (s.pkl.passDone = true) →
      (s.pkl.closeAt ≤ now) →
      Completes (.sweepClose now) s fun t =>
        ((s.ndList.all fun q => s.recordShown t q && s.missCounted t q) = true) ∧
        (t.pkl.sweep = false) ∧
        (t.pkl.passDone = false) ∧
        (t.pkl.recs = []) ∧
        (bitOf (t.getF Reg.SYS_IRQ_CAUSE 9) 0 = true) ∧
        (t.getF Reg.PKL_EFF_EFF_SPLIT = t.splitNext % 64) ∧
        (∀ a, (a < 0xB0000 ∨ 0xD0000 ≤ a) → a ∉ [(Reg.SYS_IRQ_CAUSE.addr 9 0), (Reg.SYS_IRQ_CAUSE.addr 10 0)] → t.rd a = s.rd a) ∧
        (t = { s with regs := t.regs, pkl := t.pkl, est := t.est, events := t.events, outbox := t.outbox })) ∧
  (∀ (s : State) (q : Nat) (air m : List Byte),
      (s.canonical = true) →
      (s.hearsAir 0 0x05 air m = true) →
      (beAt m 5 1 = q) →
      (s.ndUsed q = true) →
      Completes (.balAckReceive air) s fun t =>
        (t.getF Reg.PKL_ND_BLEED_RUN q = beAt (m.drop 8) 0 2) ∧
        (t.getF Reg.PKL_ND_BLEED_WIN q = s.getF Reg.PKL_ND_BLEED_WIN q) ∧
        (t.pkl = { s.pkl with bal := Sparse.upd none s.pkl.bal q none, bleed := Sparse.upd [] s.pkl.bleed q (s.bleedEnds q (beAt (m.drop 8) 0 2)) }) ∧
        (OnlyRegs s t [(Reg.PKL_ND_BLEED.addr q 0)]) ∧
        (t = { s with regs := t.regs, pkl := t.pkl })) ∧
  (∀ (s : State),
      Completes (.balStop) s fun t =>
        (t.pkl = { s.pkl with bal := s.ndList.foldl (fun m q => Sparse.upd none m q (some (BalSend.mk 0xFFFF (List.replicate 16 0) 0))) s.pkl.bal }) ∧
        (t = { s with pkl := t.pkl })) ∧
  (∀ (s : State),
      (s.canonical = true) →
      Completes (.pklClear) s fun t =>
        (SetsField s t Reg.PKL_CRC_ERR 0 0) ∧
        (SetsField s t Reg.PKL_COMPLETIONS 0 0) ∧
        (SetsField s t Reg.PKL_DISTURBED 0 0) ∧
        (SetsFields s t (Reg.PKL_STATUS.addr 0 0) [(Reg.PKL_STATUS_ENUM_INCOMPLETE, 0), (Reg.PKL_STATUS_PERIOD_RAISED, 0), (Reg.PKL_STATUS_LEAD_RAISED, 0)]) ∧
        (OnlyRegs s t [(Reg.PKL_CRC_ERR.addr 0 0), (Reg.PKL_COMPLETIONS.addr 0 0), (Reg.PKL_DISTURBED.addr 0 0), (Reg.PKL_STATUS.addr 0 0)]) ∧
        (t = { s with regs := t.regs })) ∧
  (∀ (s : State) (now i : Nat) (r : List Nat),
      (s.pklPhase = pklRun) →
      (s.pkl.disc = true) →
      (s.pkl.sweep = false) →
      (s.discFrom ≤ now) →
      (s.lostSegment = none) →
      (s.pklTx = true) →
      (s.pkl.auth = none) →
      (s.pkl.step = none) →
      (s.pkl.authQ = i :: r) →
      (s.pkl.ready = true) →
      (now + s.authWait i ≤ s.gapLimit) →
      Completes (.discoveryGap now) s fun t =>
        (t.pkl = { s.pkl with disc := false, gapEnd := s.gapLimit, authQ := r, auth := some ⟨i, Config.randomBytes s.free 16, 1, now⟩, stepNo := s.pkl.stepNo + 1 }) ∧
        (t.outbox = s.outbox ++ [s.radioOut (s.sideOf i) 1 0x16 i ((s.pkl.stepNo + 1)) (Config.randomBytes s.free 16 ++ beBytes 4 0)]) ∧
        (t.free = s.free + 1) ∧
        (t = { s with pkl := t.pkl, outbox := t.outbox, free := t.free })) ∧
  (∀ (s : State) (now : Nat) (g : Nat × Nat),
      (s.pklPhase = pklRun) →
      (s.lostSegment = some g) →
      (s.pkl.step = none) →
      (s.pkl.disc = true) →
      (s.pkl.sweep = false) →
      (s.discFrom ≤ now) →
      (s.pklTx = true) →
      (s.pkl.turn = 0) →
      (s.sideReaches 0 g = true) →
      (s.sideReaches 1 g = true) →
      (s.idFound g.1 ≠ 0) →
      Completes (.discoveryGap now) s fun t =>
        (t.pkl = { s.pkl with disc := false, gapEnd := s.gapLimit, segment := some g, gapSides := [1], turn := 1, began := putBit s.pkl.began 0 true, step := some { side := 0, pos := g.1, target := s.idFound g.1, sentAt := now }, stepNo := s.pkl.stepNo + 1 }) ∧
        (t.outbox = s.outbox ++ [s.radioOut 0 1 0x10 g.1 ((s.pkl.stepNo + 1)) (beBytes 8 (s.idFound g.1) ++ beBytes 1 g.1 ++ beBytes 3 0)]) ∧
        (t = { s with pkl := t.pkl, outbox := t.outbox })) ∧
  (∀ (s : State) (now : Nat),
      (s.pklPhase ≠ pklRun ∨ s.pkl.disc = false ∨ s.pkl.sweep = true ∨ now < s.discFrom) →
      Completes (.discoveryGap now) s fun t =>
        (t = s)) ∧
  (∀ (s : State) (now : Nat) (air m : List Byte) (c : AuthRun),
      (s.canonical = true) →
      (s.hearsAir 1 0x17 air m = true) →
      (s.pkl.auth = some c) →
      (beAt m 5 1 = c.pos) →
      (c.pos < 48) →
      (now ≤ c.sentAt + s.authWait c.pos) →
      (s.pkl.authQ = []) →
      (s.pkl.ready = true) →
      (s.sslotMay (s.getF Reg.EST_CFG_PACK_KEY_SLOT) usePackHmac = true) →
      Completes (.authRespReceive now air) s fun t =>
        (t.mapBit Reg.EST_AUTH_OK_LO c.pos = decide ((beAt (m.drop 8) 0 8) = s.idFound c.pos ∧ slice (m.drop 8) 8 16 = ((Config.hmacSha256 ((Config.hmacSha256 (s.skeyOf (s.getF Reg.EST_CFG_PACK_KEY_SLOT)) (beBytes 8 (beAt (m.drop 8) 0 8))).take 32) (c.nonce ++ beBytes 8 (beAt (m.drop 8) 0 8) ++ beBytes 2 (s.getF Reg.PKL_CHAIN) ++ beBytes 1 c.pos)).take 16))) ∧
        (t.mapBit Reg.EST_AUTH_FAIL_LO c.pos = !decide ((beAt (m.drop 8) 0 8) = s.idFound c.pos ∧ slice (m.drop 8) 8 16 = ((Config.hmacSha256 ((Config.hmacSha256 (s.skeyOf (s.getF Reg.EST_CFG_PACK_KEY_SLOT)) (beBytes 8 (beAt (m.drop 8) 0 8))).take 32) (c.nonce ++ beBytes 8 (beAt (m.drop 8) 0 8) ++ beBytes 2 (s.getF Reg.PKL_CHAIN) ++ beBytes 1 c.pos)).take 16))) ∧
        (t.pkl = { s.pkl with auth := none }) ∧
        (t.events = s.events ++ if decide ((beAt (m.drop 8) 0 8) = s.idFound c.pos ∧ slice (m.drop 8) 8 16 = ((Config.hmacSha256 ((Config.hmacSha256 (s.skeyOf (s.getF Reg.EST_CFG_PACK_KEY_SLOT)) (beBytes 8 (beAt (m.drop 8) 0 8))).take 32) (c.nonce ++ beBytes 8 (beAt (m.drop 8) 0 8) ++ beBytes 2 (s.getF Reg.PKL_CHAIN) ++ beBytes 1 c.pos)).take 16)) then [] else [LogEvent.mk 0x0B06 c.pos [c.pos, (s.idFound c.pos)]]) ∧
        (OnlyRegs s t [(Reg.EST_AUTH_OK_LO.addr 0 0), (Reg.EST_AUTH_OK_HI.addr 0 0), (Reg.EST_AUTH_FAIL_LO.addr 0 0), (Reg.EST_AUTH_FAIL_HI.addr 0 0), (Reg.SYS_IRQ_CAUSE.addr 10 0), (Reg.EST_S_STAT.addr 0 0), (Reg.EST_S_STAT.addr 1 0), (Reg.EST_S_LIMITS.addr 0 0), (Reg.EST_S_LIMITS.addr 1 0)]) ∧
        (t = { s with regs := t.regs, pkl := t.pkl, events := t.events })) ∧
  (∀ (s : State) (now : Nat),
      (s.pkl.auth = none) →
      Completes (.authTimeout now) s fun t =>
        (t = s)) ∧
  (∀ (s : State) (now : Nat) (c : AuthRun),
      (s.pkl.auth = some c) →
      (now ≤ c.sentAt + s.authWait c.pos) →
      Completes (.authTimeout now) s fun t =>
        (t = s)) ∧
  (∀ (s : State) (now : Nat) (air m : List Byte),
      (s.hearsAir 1 0x17 air m = true) →
      (s.pkl.auth = none) →
      Completes (.authRespReceive now air) s fun t =>
        (t = s)) ∧
  (∀ (s : State) (now : Nat) (c : AuthRun),
      (s.pkl.auth = some c) →
      (c.sentAt + s.authWait c.pos < now) →
      (c.tries < 3) →
      (s.pklTx = true) →
      Completes (.authTimeout now) s fun t =>
        (t.pkl = { s.pkl with auth := some ⟨c.pos, Config.randomBytes s.free 16, c.tries + 1, now⟩, stepNo := s.pkl.stepNo + 1 }) ∧
        (t.outbox = s.outbox ++ [s.radioOut (s.sideOf c.pos) 1 0x16 c.pos ((s.pkl.stepNo + 1)) (Config.randomBytes s.free 16 ++ beBytes 4 0)]) ∧
        (t.free = s.free + 1) ∧
        (t = { s with pkl := t.pkl, outbox := t.outbox, free := t.free })) ∧
  (∀ (s : State) (now : Nat) (c : AuthRun),
      (s.canonical = true) →
      (s.pkl.auth = some c) →
      (c.sentAt + s.authWait c.pos < now) →
      (3 ≤ c.tries) →
      (c.pos < 48) →
      (s.pkl.authQ = []) →
      (s.pkl.ready = true) →
      Completes (.authTimeout now) s fun t =>
        (t.mapBit Reg.EST_AUTH_OK_LO c.pos = false) ∧
        (t.mapBit Reg.EST_AUTH_FAIL_LO c.pos = true) ∧
        (t.pkl = { s.pkl with auth := none }) ∧
        (Raises s t 10 [4]) ∧
        (t.events = s.events ++ [LogEvent.mk 0x0B06 c.pos [c.pos, (s.idFound c.pos)]]) ∧
        (OnlyRegs s t [(Reg.EST_AUTH_OK_LO.addr 0 0), (Reg.EST_AUTH_OK_HI.addr 0 0), (Reg.EST_AUTH_FAIL_LO.addr 0 0), (Reg.EST_AUTH_FAIL_HI.addr 0 0), (Reg.SYS_IRQ_CAUSE.addr 10 0), (Reg.EST_S_STAT.addr 0 0), (Reg.EST_S_STAT.addr 1 0), (Reg.EST_S_LIMITS.addr 0 0), (Reg.EST_S_LIMITS.addr 1 0)]) ∧
        (t = { s with regs := t.regs, pkl := t.pkl, events := t.events })) ∧
  (∀ (s : State),
      (s.packReady = false ∨ s.est.clock < s.est.authAt + s.getF Reg.EST_DRIFT_CFG_AUTH_PERIOD * 3600000000000) →
      Completes (.authPeriodElapsed) s fun t =>
        (t = s)) ∧
  (∀ (s : State),
      (s.packReady = true) →
      (s.getF Reg.EST_CFG_AUTH_POLICY = 0) →
      Completes (.estAuth) s fun t =>
        (t = s)) ∧
  (∀ (s : State),
      (s.packReady = true) →
      (s.est.authAt + s.getF Reg.EST_DRIFT_CFG_AUTH_PERIOD * 3600000000000 ≤ s.est.clock) →
      (s.getF Reg.EST_CFG_AUTH_POLICY ≠ 0) →
      Completes (.authPeriodElapsed) s fun t =>
        (t.pkl = { s.pkl with authQ := s.ndList.filter fun q => decide (s.ndState q = ndReached) }) ∧
        (t.est = { s.est with authAt := s.est.clock }) ∧
        (t = { s with pkl := t.pkl, est := t.est })) ∧
  (∀ (s : State),
      (s.packReady = true) →
      (s.getF Reg.EST_CFG_AUTH_POLICY ≠ 0) →
      Completes (.estAuth) s fun t =>
        (t.pkl = { s.pkl with authQ := s.ndList.filter fun q => decide (s.ndState q = ndReached) }) ∧
        (t.est = { s.est with authAt := s.est.clock }) ∧
        (t = { s with pkl := t.pkl, est := t.est })) ∧
  (∀ (s : State),
      (s.canonical = true) →
      (s.packReady = false) →
      Completes (.estAuth) s fun t =>
        (SetsField s t Reg.EST_STATUS_RESTORE_ERR 0 7) ∧
        (OnlyRegs s t [(Reg.EST_STATUS.addr 0 0)]) ∧
        (t = { s with regs := t.regs }))

/-- EST_WALK asks for a walk, WALK_BEGIN starts one whose conditions hold, WALK_ABORT and WALK_MAX abandon it with its flag, event and cause.
EST_LEARN arms a learning discharge, LEARN_ABORT and LEARN_TIMEOUT end it with LEARN_ABORT and its event. DRIFT sets its flag, event and
cause once the anchor is DRIFT_AGE old. A command that is not valid answers busy and changes nothing else. EST_RESTORE waits; when its waits
are over the record written is checked and either refused with the code of the first failed check, or restored: override, RESTORED, and a
restored anchor unless one was set since reset. A read of word 0 of EST_REC keeps words 1 to 63 for its path and sets RECORD_READ in ship
step 3. The string's registers follow. -/
def Obligations.WalksLearningAndRestore : Prop :=
  (∀ (s : State) (k : Nat),
      (s.canonical = true) →
      (s.estOn k = true) →
      ((s.str k).walkAt = none) →
      Completes (.estWalk k) s fun t =>
        (SetsString s t k { s.str k with walkReq := true }) ∧
        (t.stringShown k { s.str k with walkReq := true } = true) ∧
        (OnlyRegs s t (estRegs k)) ∧
        (t = { s with regs := t.regs, est := t.est })) ∧
  (∀ (s : State) (k : Nat),
      (s.canonical = true) →
      (s.estOn k = false ∨ (s.str k).walkAt.isSome = true) →
      Completes (.estWalk k) s fun t =>
        (SetsField s t Reg.EST_STATUS_RESTORE_ERR 0 7) ∧
        (OnlyRegs s t [(Reg.EST_STATUS.addr 0 0)]) ∧
        (t = { s with regs := t.regs })) ∧
  (∀ (s : State) (k : Nat),
      (s.canonical = true) →
      (s.estOn k = true) →
      (s.walkWanted k = true) →
      (100 ≤ s.effF Reg.WB_LIMITS_SOC_MAX) →
      (decide ((if s.getF Reg.WB_STATUS_APPLIED ≠ 0 then s.wb.ff else s.wb.tot) < 0) = true) →
      Completes (.walkBegin k) s fun t =>
        (SetsString s t k { s.str k with walkAt := some s.est.clock, walkReq := false }) ∧
        (t.stringShown k { s.str k with walkAt := some s.est.clock, walkReq := false } = true) ∧
        (OnlyRegs s t (estRegs k)) ∧
        (t = { s with regs := t.regs, est := t.est })) ∧
  (∀ (s : State) (k : Nat),
      (s.canonical = true) →
      (s.estOn k = true) →
      ((s.str k).walkAt.isSome = true ∨ (s.str k).walkReq = true) →
      Completes (.walkAbort k) s fun t =>
        (SetsString s t k { s.str k with walkAt := none, walkReq := false }) ∧
        (t.str k = { s.str k with walkAt := none, walkReq := false } → t.stringShown k { s.str k with walkAt := none, walkReq := false } = true) ∧
        (t.isF Reg.EST_S_STAT_WALK_ABANDON k = true) ∧
        (t.events = s.events ++ [LogEvent.mk 0x0B04 k [k, 1]]) ∧
        (Raises s t 10 [3]) ∧
        (OnlyRegs s t (estRegs k ++ [(Reg.SYS_IRQ_CAUSE.addr 10 0)])) ∧
        (t = { s with regs := t.regs, est := t.est, events := t.events })) ∧
  (∀ (s : State) (k : Nat),
      (s.canonical = true) →
      (s.estOn k = false ∨ ((s.str k).walkAt = none ∧ (s.str k).walkReq = false)) →
      Completes (.walkAbort k) s fun t =>
        (SetsField s t Reg.EST_STATUS_RESTORE_ERR 0 7) ∧
        (OnlyRegs s t [(Reg.EST_STATUS.addr 0 0)]) ∧
        (t = { s with regs := t.regs })) ∧
  (∀ (s : State) (k b : Nat),
      (s.canonical = true) →
      (k < 2) →
      ((s.str k).walkAt = some b) →
      (b + s.getF Reg.EST_DRIFT_CFG_WALK_MAX * 3600000000000 ≤ s.est.clock) →
      Completes (.walkMaxElapsed k) s fun t =>
        (SetsString s t k { s.str k with walkAt := none, walkReq := false }) ∧
        (t.str k = { s.str k with walkAt := none, walkReq := false } → t.stringShown k { s.str k with walkAt := none, walkReq := false } = true) ∧
        (t.isF Reg.EST_S_STAT_WALK_ABANDON k = true) ∧
        (t.events = s.events ++ [LogEvent.mk 0x0B04 k [k, 1]]) ∧
        (Raises s t 10 [3]) ∧
        (OnlyRegs s t (estRegs k ++ [(Reg.SYS_IRQ_CAUSE.addr 10 0)])) ∧
        (t = { s with regs := t.regs, est := t.est, events := t.events })) ∧
  (∀ (s : State) (k : Nat),
      (s.canonical = true) →
      (s.estOn k = true) →
      ((s.str k).learn = 0) →
      Completes (.estLearn k) s fun t =>
        (SetsString s t k { s.str k with learn := 1 }) ∧
        (t.stringShown k { s.str k with learn := 1 } = true) ∧
        (OnlyRegs s t (estRegs k)) ∧
        (t = { s with regs := t.regs, est := t.est })) ∧
  (∀ (s : State) (k : Nat),
      (s.canonical = true) →
      (s.estOn k = false ∨ (s.str k).learn ≠ 0) →
      Completes (.estLearn k) s fun t =>
        (SetsField s t Reg.EST_STATUS_RESTORE_ERR 0 7) ∧
        (OnlyRegs s t [(Reg.EST_STATUS.addr 0 0)]) ∧
        (t = { s with regs := t.regs })) ∧
  (∀ (s : State) (k : Nat),
      (s.canonical = true) →
      (s.estOn k = true) →
      ((s.str k).learn ≠ 0) →
      Completes (.learnAbort k) s fun t =>
        (SetsString s t k { s.str k with learn := 0 }) ∧
        (t.str k = { s.str k with learn := 0 } → t.stringShown k { s.str k with learn := 0 } = true) ∧
        (t.isF Reg.EST_S_STAT_LEARN_ABORT k = true) ∧
        (t.events = s.events ++ [LogEvent.mk 0x0B05 k [k, 2, (unsign 32 (milli (s.str k).learnD))]]) ∧
        (Raises s t 10 [3]) ∧
        (OnlyRegs s t (estRegs k ++ [(Reg.SYS_IRQ_CAUSE.addr 10 0)])) ∧
        (t = { s with regs := t.regs, est := t.est, events := t.events })) ∧
  (∀ (s : State) (k : Nat),
      (s.canonical = true) →
      (s.estOn k = false ∨ (s.str k).learn = 0) →
      Completes (.learnAbort k) s fun t =>
        (SetsField s t Reg.EST_STATUS_RESTORE_ERR 0 7) ∧
        (OnlyRegs s t [(Reg.EST_STATUS.addr 0 0)]) ∧
        (t = { s with regs := t.regs })) ∧
  (∀ (s : State) (k : Nat),
      (s.canonical = true) →
      (k < 2) →
      ((s.str k).learn = 2) →
      ((s.str k).learnAt + s.getF Reg.EST_LEARN_CFG_TIMEOUT * 3600000000000 ≤ s.est.clock) →
      Completes (.learnTimeoutElapsed k) s fun t =>
        (SetsString s t k { s.str k with learn := 0 }) ∧
        (t.str k = { s.str k with learn := 0 } → t.stringShown k { s.str k with learn := 0 } = true) ∧
        (t.isF Reg.EST_S_STAT_LEARN_ABORT k = true) ∧
        (t.events = s.events ++ [LogEvent.mk 0x0B05 k [k, 2, (unsign 32 (milli (s.str k).learnD))]]) ∧
        (Raises s t 10 [3]) ∧
        (OnlyRegs s t (estRegs k ++ [(Reg.SYS_IRQ_CAUSE.addr 10 0)])) ∧
        (t = { s with regs := t.regs, est := t.est, events := t.events })) ∧
  (∀ (s : State) (k : Nat),
      (s.canonical = true) →
      (s.estOn k = true) →
      (s.isF Reg.EST_S_STAT_DRIFT k = false) →
      (s.getF Reg.EST_DRIFT_CFG_DRIFT_AGE * 3600 ≤ s.ageS k) →
      Completes (.drift k) s fun t =>
        (t.isF Reg.EST_S_STAT_DRIFT k = true) ∧
        (t.events = s.events ++ [LogEvent.mk 0x0B03 k [k, (s.ageS k)]]) ∧
        (Raises s t 10 [1]) ∧
        (OnlyRegs s t (estRegs k ++ [(Reg.SYS_IRQ_CAUSE.addr 10 0)])) ∧
        (t = { s with regs := t.regs, events := t.events })) ∧
  (∀ (s : State) (force : Bool),
      (s.canonical = true) →
      (s.isF Reg.EST_CFG_EN = true) →
      (s.est.restore = none) →
      Completes (.estRestore force) s fun t =>
        (SetsFields s t (Reg.EST_STATUS.addr 0 0) [(Reg.EST_STATUS_RESTORE, 1), (Reg.EST_STATUS_RESTORE_ERR, 0)]) ∧
        (t.est = { s.est with restore := some (force, s.est.clock) }) ∧
        (OnlyRegs s t [(Reg.EST_STATUS.addr 0 0)]) ∧
        (t = { s with regs := t.regs, est := t.est })) ∧
  (∀ (s : State) (force : Bool),
      (s.canonical = true) →
      (s.isF Reg.EST_CFG_EN = false ∨ s.est.restore.isSome = true) →
      Completes (.estRestore force) s fun t =>
        (SetsField s t Reg.EST_STATUS_RESTORE_ERR 0 7) ∧
        (OnlyRegs s t [(Reg.EST_STATUS.addr 0 0)]) ∧
        (t = { s with regs := t.regs })) ∧
  (∀ (s : State) (now c since : Nat) (force : Bool),
      (s.canonical = true) →
      (s.est.restore = some (force, since)) →
      (s.packReady = true ∨ since + 5000000000 ≤ s.est.clock) →
      (decide (s.tq = tqLocked ∨ s.tq = tqHoldover) = true ∨ since + 10000000000 ≤ s.est.clock) →
      (s.recordCheck ((List.range 64).flatMap fun i => leBytes 4 (s.getF Reg.EST_RST i)) force (decide (s.tq = tqLocked ∨ s.tq = tqHoldover)) (s.utc now) = some c) →
      Completes (.restoreApply now) s fun t =>
        (SetsFields s t (Reg.EST_STATUS.addr 0 0) [(Reg.EST_STATUS_RESTORE, 3), (Reg.EST_STATUS_RESTORE_ERR, c)]) ∧
        (Raises s t 10 [2]) ∧
        (t.est = { s.est with restore := none }) ∧
        (OnlyRegs s t [(Reg.EST_STATUS.addr 0 0), (Reg.SYS_IRQ_CAUSE.addr 10 0)]) ∧
        (t = { s with regs := t.regs, est := t.est })) ∧
  (∀ (s : State) (now since : Nat) (force : Bool),
      (s.canonical = true) →
      (s.est.restore = some (force, since)) →
      (s.packReady = true ∨ since + 5000000000 ≤ s.est.clock) →
      (decide (s.tq = tqLocked ∨ s.tq = tqHoldover) = true ∨ since + 10000000000 ≤ s.est.clock) →
      (s.recordCheck ((List.range 64).flatMap fun i => leBytes 4 (s.getF Reg.EST_RST i)) force (decide (s.tq = tqLocked ∨ s.tq = tqHoldover)) (s.utc now) = none) →
      (Sparse.wf (fun _ => ({} : EstString)) s.est.str = true) →
      Completes (.restoreApply now) s fun t =>
        (t.getF Reg.EST_STATUS_RESTORE = 2) ∧
        (t.getF Reg.EST_STATUS_RESTORE_ERR = 0) ∧
        (bitOf (t.getF Reg.SYS_IRQ_CAUSE 10) 2 = true) ∧
        (t.est.restore = none) ∧
        (((List.range s.strCount).all fun k => s.restored t ((List.range 64).flatMap fun i => leBytes 4 (s.getF Reg.EST_RST i)) k) = true) ∧
        (OnlyRegs s t (estRegs 0 ++ estRegs 1 ++ [(Reg.EST_STATUS.addr 0 0), (Reg.SYS_IRQ_CAUSE.addr 10 0)])) ∧
        (t = { s with regs := t.regs, est := t.est, events := t.events })) ∧
  (∀ (s : State) (k : Nat),
      (s.estOn k = false ∨ s.walkWanted k = false ∨ s.effF Reg.WB_LIMITS_SOC_MAX < 100 ∨ (if s.getF Reg.WB_STATUS_APPLIED ≠ 0 then s.wb.ff else s.wb.tot) ≥ 0) →
      Completes (.walkBegin k) s fun t =>
        (t = s)) ∧
  (∀ (s : State) (k : Nat),
      ((s.str k).walkAt = none) →
      Completes (.walkMaxElapsed k) s fun t =>
        (t = s)) ∧
  (∀ (s : State) (k b : Nat),
      ((s.str k).walkAt = some b) →
      (s.est.clock < b + s.getF Reg.EST_DRIFT_CFG_WALK_MAX * 3600000000000) →
      Completes (.walkMaxElapsed k) s fun t =>
        (t = s)) ∧
  (∀ (s : State) (k : Nat),
      ((s.str k).learn ≠ 2 ∨ s.est.clock < (s.str k).learnAt + s.getF Reg.EST_LEARN_CFG_TIMEOUT * 3600000000000) →
      Completes (.learnTimeoutElapsed k) s fun t =>
        (t = s)) ∧
  (∀ (s : State) (k : Nat),
      (s.estOn k = false ∨ s.isF Reg.EST_S_STAT_DRIFT k = true ∨ s.ageS k < s.getF Reg.EST_DRIFT_CFG_DRIFT_AGE * 3600) →
      Completes (.drift k) s fun t =>
        (t = s)) ∧
  (∀ (s : State) (now : Nat),
      (s.est.restore = none) →
      Completes (.restoreApply now) s fun t =>
        (t = s)) ∧
  (∀ (s : State) (now since : Nat) (force : Bool),
      (s.est.restore = some (force, since)) →
      ((s.packReady = false ∧ s.est.clock < since + 5000000000) ∨ (decide (s.tq = tqLocked ∨ s.tq = tqHoldover) = false ∧ s.est.clock < since + 10000000000)) →
      Completes (.restoreApply now) s fun t =>
        (t = s)) ∧
  (∀ (s : State) (path : Nat),
      (s.reaches path = false) →
      Completes (.estRecRead path) s fun t =>
        (t = s)) ∧
  (∀ (s : State) (path : Nat),
      (s.reaches path = true) →
      (s.free? path (Reg.EST_REC.addr 0 0) = false) →
      Completes (.estRecRead path) s fun t =>
        (t.waiting = s.waiting ++ [Access.mk path false (Reg.EST_REC.addr 0 0) 0 4]) ∧
        (t = { s with waiting := t.waiting })) ∧
  (∀ (s : State) (path : Nat),
      (s.canonical = true) →
      (s.carries path (Reg.EST_REC.addr 0 0) = true) →
      Completes (.estRecRead path) s fun t =>
        (SetsField s t Reg.EST_STATUS_RECORD_READ 0 (if s.getF Reg.EST_STATUS_SHIP_STEP = 3 then 1 else s.getF Reg.EST_STATUS_RECORD_READ)) ∧
        (t.pathRegs = (List.range 63).foldl (fun m i => Sparse.upd 0#32 m (path * 2 ^ 26 + Reg.EST_REC.addr (i + 1) 0) (s.rd (Reg.EST_REC.addr (i + 1) 0))) s.pathRegs) ∧
        (t.outbox = s.outbox ++ [Out.mk .accessDone [path, Reg.EST_REC.addr 0 0, (s.peek path (Reg.EST_REC.addr 0 0)).toNat]]) ∧
        (OnlyRegs s t [(Reg.EST_STATUS.addr 0 0)]) ∧
        (t = { s with regs := t.regs, pathRegs := t.pathRegs, outbox := t.outbox }))

/-- SHIP holds Windbreak, clears RECORD_READ and enters step 1, and tells the twin where the module transmits; it answers busy in any other
state than idle or given up, or with the estimator off. When P_TOT is zero and every string is below 2 A the groups of SHIP_GRP trip and
step 2 follows; after 1 s without that the sequence is given up. 10 ms after the longest delay of those groups' contactors the record is
published with SHIP set, RECORD_READ is cleared and step 3 follows. Once it is read, or after SHIP_WAIT with an event, the nodes sleep and
step 4 follows. In step 5, CHG_DETECT low leads to step 6; still high after BUS_WAIT the sequence is given up. ABORT gives up steps 1 to 6.
Giving up releases the hold, enters step 7 and wakes the nodes that were sent to sleep. Every step raises its cause. -/
def Obligations.ShipMode : Prop :=
  (∀ (s : State),
      (s.canonical = true) →
      (s.isF Reg.EST_CFG_EN = true) →
      (s.getF Reg.EST_STATUS_SHIP_STEP = 0 ∨ s.getF Reg.EST_STATUS_SHIP_STEP = 7) →
      Completes (.estShip) s fun t =>
        (SetsFields s t (Reg.EST_STATUS.addr 0 0) [(Reg.EST_STATUS_SHIP_STEP, 1), (Reg.EST_STATUS_RECORD_READ, 0)]) ∧
        (Raises s t 10 [5]) ∧
        (SetsField s t Reg.WB_STATUS_HOLD_CMD 0 1) ∧
        (t.est = { s.est with shipAt := s.est.clock, slept := false }) ∧
        (t.outbox = s.outbox ++ if s.pklTx then [Out.mk .twin [0x53]] else []) ∧
        (OnlyRegs s t [(Reg.EST_STATUS.addr 0 0), (Reg.SYS_IRQ_CAUSE.addr 10 0), (Reg.WB_STATUS_HOLD_CMD.addr 0 0)]) ∧
        (t = { s with regs := t.regs, est := t.est, outbox := t.outbox })) ∧
  (∀ (s : State),
      (s.canonical = true) →
      (s.isF Reg.EST_CFG_EN = false ∨ (s.getF Reg.EST_STATUS_SHIP_STEP ≠ 0 ∧ s.getF Reg.EST_STATUS_SHIP_STEP ≠ 7)) →
      Completes (.estShip) s fun t =>
        (SetsField s t Reg.EST_STATUS_RESTORE_ERR 0 7) ∧
        (OnlyRegs s t [(Reg.EST_STATUS.addr 0 0)]) ∧
        (t = { s with regs := t.regs })) ∧
  (∀ (s : State) (now : Nat),
      (s.canonical = true) →
      (s.getF Reg.EST_STATUS_SHIP_STEP = 1) →
      (decide (s.wb.tot = 0) = true) →
      ((s.estStrings.all fun k => decide ((s.ccCur k).natAbs < 2000)) = true) →
      Completes (.shipQuiet now) s fun t =>
        (SetsFields s t (Reg.EST_STATUS.addr 0 0) [(Reg.EST_STATUS_SHIP_STEP, 2)]) ∧
        (Raises s t 10 [5]) ∧
        (t.est = { s.est with shipAt := s.est.clock }) ∧
        ((∀ g ∈ List.range 8, t.tripped g = (s.tripped g || bitOf (s.getF Reg.EST_SHIP_CFG_SHIP_GRP) g))) ∧
        (∀ a, a < 0x60000 → a ∉ [(Reg.SYS_IRQ_CAUSE.addr 10 0), (Reg.SYS_IRQ_CAUSE.addr 1 0)] → t.rd a = s.rd a) ∧
        (t = { s with regs := t.regs, est := t.est, events := t.events, pwm := t.pwm, snap := t.snap, twn := t.twn })) ∧
  (∀ (s : State) (now : Nat),
      (s.canonical = true) →
      (s.getF Reg.EST_STATUS_SHIP_STEP = 1) →
      (s.wb.tot ≠ 0 ∨ (s.estStrings.all fun k => decide ((s.ccCur k).natAbs < 2000)) = false) →
      (s.est.shipAt + 1000000000 ≤ s.est.clock) →
      (s.est.slept = false) →
      Completes (.shipQuiet now) s fun t =>
        (SetsFields s t (Reg.EST_STATUS.addr 0 0) [(Reg.EST_STATUS_SHIP_STEP, 7)]) ∧
        (Raises s t 10 [5]) ∧
        (SetsField s t Reg.WB_STATUS_HOLD_CMD 0 0) ∧
        (t.est = { s.est with shipAt := s.est.clock }) ∧
        (OnlyRegs s t [(Reg.EST_STATUS.addr 0 0), (Reg.SYS_IRQ_CAUSE.addr 10 0), (Reg.WB_STATUS_HOLD_CMD.addr 0 0)]) ∧
        (t = { s with regs := t.regs, est := t.est })) ∧
  (∀ (s : State),
      (s.canonical = true) →
      (s.getF Reg.EST_STATUS_SHIP_STEP = 2) →
      (s.est.shipAt + (s.shipDelay + 10) * 1000000 ≤ s.est.clock) →
      (s.isF Reg.EST_CFG_EN = true) →
      Completes (.shipRecord) s fun t =>
        (SetsFields s t (Reg.EST_STATUS.addr 0 0) [(Reg.EST_STATUS_SHIP_STEP, 3), (Reg.EST_STATUS_RECORD_READ, 0)]) ∧
        (Raises s t 10 [5]) ∧
        (((List.range 64).all fun i => decide (t.getF Reg.EST_REC i = leAt (s.record (s.sns.ts.getD s.est.last) true) (4 * i) 4 % 2 ^ 32)) = true) ∧
        (t.est = { s.est with seq := s.est.seq + 1, shipAt := s.est.clock }) ∧
        (OnlyRegs s t ([(Reg.EST_STATUS.addr 0 0), (Reg.SYS_IRQ_CAUSE.addr 10 0)] ++ (List.range 64).map fun i => Reg.EST_REC.addr i 0)) ∧
        (t = { s with regs := t.regs, est := t.est })) ∧
  (∀ (s : State),
      (s.canonical = true) →
      (s.getF Reg.EST_STATUS_SHIP_STEP = 3) →
      (s.isF Reg.EST_STATUS_RECORD_READ = true ∨ s.est.shipAt + s.getF Reg.EST_SHIP_CFG_SHIP_WAIT * 1000000000 < s.est.clock) →
      (s.pklOn = true) →
      Completes (.shipRecordWaitEnd) s fun t =>
        (SetsFields s t (Reg.EST_STATUS.addr 0 0) [(Reg.EST_STATUS_SHIP_STEP, 4)]) ∧
        (Raises s t 10 [5]) ∧
        (t.est = { s.est with slept := true, shipAt := s.est.clock }) ∧
        (t.pklPhase = pklSleeping) ∧
        (t.pkl = { s.pkl with step := none, segment := none, gapSides := [], sweep := false, recs := [], bal := [], auth := none, disc := false }) ∧
        (t.outbox.length = s.outbox.length + if s.pklTx then 6 else 0) ∧
        (t.events = s.events ++ if s.isF Reg.EST_STATUS_RECORD_READ then [] else [LogEvent.mk 0x0B07 0xFFFF [s.est.seq]]) ∧
        (OnlyRegs s t ([(Reg.EST_STATUS.addr 0 0), (Reg.SYS_IRQ_CAUSE.addr 10 0)] ++ pklRegs ++ ndRegs [Reg.PKL_ND_BLEED])) ∧
        (t = { s with regs := t.regs, est := t.est, pkl := t.pkl, events := t.events, outbox := t.outbox })) ∧
  (∀ (s : State) (asserted : Bool) (now : Nat),
      (s.canonical = true) →
      (s.getF Reg.EST_STATUS_SHIP_STEP = 5) →
      (asserted = false) →
      Completes (.shipChgWaitEnd asserted now) s fun t =>
        (SetsFields s t (Reg.EST_STATUS.addr 0 0) [(Reg.EST_STATUS_SHIP_STEP, 6)]) ∧
        (Raises s t 10 [5]) ∧
        (t.est = { s.est with shipAt := s.est.clock }) ∧
        (OnlyRegs s t [(Reg.EST_STATUS.addr 0 0), (Reg.SYS_IRQ_CAUSE.addr 10 0)]) ∧
        (t = { s with regs := t.regs, est := t.est })) ∧
  (∀ (s : State) (asserted : Bool) (now i : Nat),
      (s.canonical = true) →
      (s.getF Reg.EST_STATUS_SHIP_STEP = 5) →
      (asserted = true) →
      (s.est.shipAt + s.getF Reg.EST_SHIP_CFG_BUS_WAIT * 1000000000 ≤ s.est.clock) →
      (s.est.slept = true) →
      (s.pklOn = true) →
      (s.ndList.head? = some i) →
      Completes (.shipChgWaitEnd asserted now) s fun t =>
        (Raises s t 10 [5]) ∧
        (SetsField s t Reg.WB_STATUS_HOLD_CMD 0 0) ∧
        (t.getF Reg.EST_STATUS_SHIP_STEP = 7) ∧
        (t.est = { s.est with shipAt := s.est.clock, slept := false }) ∧
        (s.allPending t = true) ∧
        (t.pklPhase = pklEnum) ∧
        (t.pkl.held = true) ∧
        (t.outbox.length = s.outbox.length + (if s.pklTx then 3 else 0)) ∧
        (OnlyRegs s t ([(Reg.EST_STATUS.addr 0 0), (Reg.SYS_IRQ_CAUSE.addr 10 0), (Reg.WB_STATUS_HOLD_CMD.addr 0 0)] ++ enumRegs)) ∧
        (t = { s with regs := t.regs, est := t.est, pkl := t.pkl, outbox := t.outbox })) ∧
  (∀ (s : State) (now : Nat),
      (s.getF Reg.EST_STATUS_SHIP_STEP ≠ 1) →
      Completes (.shipQuiet now) s fun t =>
        (t = s)) ∧
  (∀ (s : State) (now : Nat),
      (s.getF Reg.EST_STATUS_SHIP_STEP = 1) →
      (s.wb.tot ≠ 0 ∨ (s.estStrings.all fun k => decide ((s.ccCur k).natAbs < 2000)) = false) →
      (s.est.clock < s.est.shipAt + 1000000000) →
      Completes (.shipQuiet now) s fun t =>
        (t = s)) ∧
  (∀ (s : State),
      (s.getF Reg.EST_STATUS_SHIP_STEP ≠ 2 ∨ s.est.clock < s.est.shipAt + (s.shipDelay + 10) * 1000000) →
      Completes (.shipRecord) s fun t =>
        (t = s)) ∧
  (∀ (s : State),
      (s.canonical = true) →
      (s.getF Reg.EST_STATUS_SHIP_STEP = 2) →
      (s.est.shipAt + (s.shipDelay + 10) * 1000000 ≤ s.est.clock) →
      (s.isF Reg.EST_CFG_EN = false) →
      Completes (.shipRecord) s fun t =>
        (SetsFields s t (Reg.EST_STATUS.addr 0 0) [(Reg.EST_STATUS_SHIP_STEP, 3), (Reg.EST_STATUS_RECORD_READ, 0)]) ∧
        (Raises s t 10 [5]) ∧
        (t.est = { s.est with shipAt := s.est.clock }) ∧
        (OnlyRegs s t [(Reg.EST_STATUS.addr 0 0), (Reg.SYS_IRQ_CAUSE.addr 10 0)]) ∧
        (t = { s with regs := t.regs, est := t.est })) ∧
  (∀ (s : State),
      (s.getF Reg.EST_STATUS_SHIP_STEP ≠ 3 ∨ (s.isF Reg.EST_STATUS_RECORD_READ = false ∧ s.est.clock ≤ s.est.shipAt + s.getF Reg.EST_SHIP_CFG_SHIP_WAIT * 1000000000)) →
      Completes (.shipRecordWaitEnd) s fun t =>
        (t = s)) ∧
  (∀ (s : State),
      (s.canonical = true) →
      (s.getF Reg.EST_STATUS_SHIP_STEP = 3) →
      (s.isF Reg.EST_STATUS_RECORD_READ = true) →
      (s.pklOn = false) →
      Completes (.shipRecordWaitEnd) s fun t =>
        (SetsFields s t (Reg.EST_STATUS.addr 0 0) [(Reg.EST_STATUS_SHIP_STEP, 4)]) ∧
        (Raises s t 10 [5]) ∧
        (t.est = { s.est with slept := true, shipAt := s.est.clock }) ∧
        (OnlyRegs s t [(Reg.EST_STATUS.addr 0 0), (Reg.SYS_IRQ_CAUSE.addr 10 0)]) ∧
        (t = { s with regs := t.regs, est := t.est })) ∧
  (∀ (s : State) (asserted : Bool) (now : Nat),
      (s.getF Reg.EST_STATUS_SHIP_STEP ≠ 5 ∨ (asserted = true ∧ s.est.clock < s.est.shipAt + s.getF Reg.EST_SHIP_CFG_BUS_WAIT * 1000000000)) →
      Completes (.shipChgWaitEnd asserted now) s fun t =>
        (t = s)) ∧
  (∀ (s : State) (asserted : Bool) (now : Nat),
      (s.canonical = true) →
      (s.getF Reg.EST_STATUS_SHIP_STEP = 5) →
      (asserted = true) →
      (s.est.shipAt + s.getF Reg.EST_SHIP_CFG_BUS_WAIT * 1000000000 ≤ s.est.clock) →
      (s.est.slept = false) →
      Completes (.shipChgWaitEnd asserted now) s fun t =>
        (SetsFields s t (Reg.EST_STATUS.addr 0 0) [(Reg.EST_STATUS_SHIP_STEP, 7)]) ∧
        (Raises s t 10 [5]) ∧
        (SetsField s t Reg.WB_STATUS_HOLD_CMD 0 0) ∧
        (t.est = { s.est with shipAt := s.est.clock }) ∧
        (OnlyRegs s t [(Reg.EST_STATUS.addr 0 0), (Reg.SYS_IRQ_CAUSE.addr 10 0), (Reg.WB_STATUS_HOLD_CMD.addr 0 0)]) ∧
        (t = { s with regs := t.regs, est := t.est })) ∧
  (∀ (s : State) (now i : Nat),
      (s.canonical = true) →
      (1 ≤ s.getF Reg.EST_STATUS_SHIP_STEP) →
      (s.getF Reg.EST_STATUS_SHIP_STEP ≤ 6) →
      (s.est.slept = true) →
      (s.pklOn = true) →
      (s.ndList.head? = some i) →
      Completes (.shipAbort now) s fun t =>
        (Raises s t 10 [5]) ∧
        (SetsField s t Reg.WB_STATUS_HOLD_CMD 0 0) ∧
        (t.getF Reg.EST_STATUS_SHIP_STEP = 7) ∧
        (t.est = { s.est with shipAt := s.est.clock, slept := false }) ∧
        (s.allPending t = true) ∧
        (t.pklPhase = pklEnum) ∧
        (t.pkl.held = true) ∧
        (OnlyRegs s t ([(Reg.EST_STATUS.addr 0 0), (Reg.SYS_IRQ_CAUSE.addr 10 0), (Reg.WB_STATUS_HOLD_CMD.addr 0 0)] ++ enumRegs)) ∧
        (t = { s with regs := t.regs, est := t.est, pkl := t.pkl, outbox := t.outbox })) ∧
  (∀ (s : State) (now : Nat),
      (s.canonical = true) →
      (1 ≤ s.getF Reg.EST_STATUS_SHIP_STEP) →
      (s.getF Reg.EST_STATUS_SHIP_STEP ≤ 6) →
      (s.est.slept = false) →
      Completes (.shipAbort now) s fun t =>
        (SetsFields s t (Reg.EST_STATUS.addr 0 0) [(Reg.EST_STATUS_SHIP_STEP, 7)]) ∧
        (Raises s t 10 [5]) ∧
        (SetsField s t Reg.WB_STATUS_HOLD_CMD 0 0) ∧
        (t.est = { s.est with shipAt := s.est.clock }) ∧
        (OnlyRegs s t [(Reg.EST_STATUS.addr 0 0), (Reg.SYS_IRQ_CAUSE.addr 10 0), (Reg.WB_STATUS_HOLD_CMD.addr 0 0)]) ∧
        (t = { s with regs := t.regs, est := t.est })) ∧
  (∀ (s : State) (now : Nat),
      (s.canonical = true) →
      (s.getF Reg.EST_STATUS_SHIP_STEP = 0 ∨ s.getF Reg.EST_STATUS_SHIP_STEP = 7) →
      Completes (.shipAbort now) s fun t =>
        (SetsField s t Reg.EST_STATUS_RESTORE_ERR 0 7) ∧
        (OnlyRegs s t [(Reg.EST_STATUS.addr 0 0)]) ∧
        (t = { s with regs := t.regs }))

/-- A request sets TH_DIE_OPP; a driving module works towards it, or the thermal ceiling if that is lower: frequency down in 2 µs, then voltage
at 10 mV/µs and 10 µs more, then frequency up in 2 µs. A step that ends shows the point reached, the next follows, and when nothing is left
the die shows its point, busy ends and the cause is raised. A request to a stopped die changes nothing. Above THROTTLE_T the ceiling falls
one point below the present goal and is recorded; at THROTTLE_T less 5 °C it rises one point; neither within 10 ms of the last move. Above
SHUTDOWN_T a die is turned off and CODE THERMAL is in force, for the Hub the code alone. Stack overheating changes refresh only. -/
def Obligations.OperatingPointsAndTemperature : Prop :=
  (∀ (s : State) (path d opp now : Nat),
      (s.canonical = true) →
      (d < 2) →
      (s.carries path (Reg.TH_DIE_OPP.addr d 0) = true) →
      (s.hostWrite = none) →
      (s.layerBits (Reg.TH_DIE_OPP.addr d 0) = 0) →
      (s.dieRuns d = true) →
      (s.getF Reg.PWR_DVFS_STAT_STEP d = 0) →
      (s.getF Reg.PWR_STATUS_STATE = 0) →
      (s.getF Reg.TWN_STATUS_STATE ≠ 0) →
      ((min (opp % 4) (3 - Sparse.at 0 s.pwr.lowered d)) < (s.getF Reg.PWR_DVFS_STAT_F_OP d)) →
      Completes (.dieOppRequest path d opp now) s fun t =>
        (SetsField s t Reg.TH_DIE_OPP_OPP d opp) ∧
        (t.hostWrite = if pathOwner path = 0x40 then some ((Reg.TH_DIE_OPP.addr d 0), opp % 2 ^ 32, now) else none) ∧
        (SetsFields s t (Reg.PWR_DVFS_STAT.addr d 0) [(Reg.PWR_DVFS_STAT_TARGET, (min (opp % 4) (3 - Sparse.at 0 s.pwr.lowered d))), (Reg.PWR_DVFS_STAT_STEP, 1)]) ∧
        (SetsField s t Reg.TH_DIE_STATUS_OPP_BUSY d 1) ∧
        (t.pwr = { s.pwr with stepEnd := Sparse.upd 0 s.pwr.stepEnd d (now + 2000) }) ∧
        (OnlyRegs s t [(Reg.TH_DIE_OPP.addr d 0), (Reg.PWR_DVFS_STAT.addr d 0), (Reg.TH_DIE_STATUS.addr d 0)]) ∧
        (t = { s with regs := t.regs, pwr := t.pwr, hostWrite := t.hostWrite })) ∧
  (∀ (s : State) (path d opp now : Nat),
      (s.canonical = true) →
      (d < 2) →
      (s.carries path (Reg.TH_DIE_OPP.addr d 0) = true) →
      (s.hostWrite = none) →
      (s.layerBits (Reg.TH_DIE_OPP.addr d 0) = 0) →
      (s.dieRuns d = true) →
      (s.getF Reg.PWR_DVFS_STAT_STEP d = 0) →
      (s.getF Reg.PWR_STATUS_STATE = 0) →
      (s.getF Reg.TWN_STATUS_STATE ≠ 0) →
      ((s.getF Reg.PWR_DVFS_STAT_F_OP d) ≤ (min (opp % 4) (3 - Sparse.at 0 s.pwr.lowered d))) →
      ((s.getF Reg.PWR_DVFS_STAT_V_OP d) < (min (opp % 4) (3 - Sparse.at 0 s.pwr.lowered d))) →
      Completes (.dieOppRequest path d opp now) s fun t =>
        (SetsField s t Reg.TH_DIE_OPP_OPP d opp) ∧
        (t.hostWrite = if pathOwner path = 0x40 then some ((Reg.TH_DIE_OPP.addr d 0), opp % 2 ^ 32, now) else none) ∧
        (SetsFields s t (Reg.PWR_DVFS_STAT.addr d 0) [(Reg.PWR_DVFS_STAT_TARGET, (min (opp % 4) (3 - Sparse.at 0 s.pwr.lowered d))), (Reg.PWR_DVFS_STAT_STEP, 2)]) ∧
        (SetsField s t Reg.TH_DIE_STATUS_OPP_BUSY d 1) ∧
        (t.pwr = { s.pwr with stepEnd := Sparse.upd 0 s.pwr.stepEnd d (now + ((100 * ((min (opp % 4) (3 - Sparse.at 0 s.pwr.lowered d)) - (s.getF Reg.PWR_DVFS_STAT_V_OP d))) * 100 + 10000)) }) ∧
        (OnlyRegs s t [(Reg.TH_DIE_OPP.addr d 0), (Reg.PWR_DVFS_STAT.addr d 0), (Reg.TH_DIE_STATUS.addr d 0)]) ∧
        (t = { s with regs := t.regs, pwr := t.pwr, hostWrite := t.hostWrite })) ∧
  (∀ (s : State) (path d opp now : Nat),
      (s.canonical = true) →
      (d < 2) →
      (s.carries path (Reg.TH_DIE_OPP.addr d 0) = true) →
      (s.hostWrite = none) →
      (s.layerBits (Reg.TH_DIE_OPP.addr d 0) = 0) →
      (s.dieRuns d = true) →
      (s.getF Reg.PWR_DVFS_STAT_STEP d = 0) →
      (s.getF Reg.PWR_STATUS_STATE = 0) →
      (s.getF Reg.TWN_STATUS_STATE ≠ 0) →
      ((s.getF Reg.PWR_DVFS_STAT_F_OP d) < (min (opp % 4) (3 - Sparse.at 0 s.pwr.lowered d))) →
      ((s.getF Reg.PWR_DVFS_STAT_V_OP d) = (min (opp % 4) (3 - Sparse.at 0 s.pwr.lowered d))) →
      Completes (.dieOppRequest path d opp now) s fun t =>
        (SetsField s t Reg.TH_DIE_OPP_OPP d opp) ∧
        (t.hostWrite = if pathOwner path = 0x40 then some ((Reg.TH_DIE_OPP.addr d 0), opp % 2 ^ 32, now) else none) ∧
        (SetsFields s t (Reg.PWR_DVFS_STAT.addr d 0) [(Reg.PWR_DVFS_STAT_TARGET, (min (opp % 4) (3 - Sparse.at 0 s.pwr.lowered d))), (Reg.PWR_DVFS_STAT_STEP, 3)]) ∧
        (SetsField s t Reg.TH_DIE_STATUS_OPP_BUSY d 1) ∧
        (t.pwr = { s.pwr with stepEnd := Sparse.upd 0 s.pwr.stepEnd d (now + 2000) }) ∧
        (OnlyRegs s t [(Reg.TH_DIE_OPP.addr d 0), (Reg.PWR_DVFS_STAT.addr d 0), (Reg.TH_DIE_STATUS.addr d 0)]) ∧
        (t = { s with regs := t.regs, pwr := t.pwr, hostWrite := t.hostWrite })) ∧
  (∀ (s : State) (path d opp now : Nat),
      (s.canonical = true) →
      (d < 2) →
      (s.carries path (Reg.TH_DIE_OPP.addr d 0) = true) →
      (s.hostWrite = none) →
      (s.layerBits (Reg.TH_DIE_OPP.addr d 0) = 0) →
      (s.dieRuns d = true) →
      (s.getF Reg.PWR_DVFS_STAT_STEP d ≠ 0) →
      Completes (.dieOppRequest path d opp now) s fun t =>
        (SetsField s t Reg.TH_DIE_OPP_OPP d opp) ∧
        (t.hostWrite = if pathOwner path = 0x40 then some ((Reg.TH_DIE_OPP.addr d 0), opp % 2 ^ 32, now) else none) ∧
        (SetsField s t Reg.TH_DIE_STATUS_OPP_BUSY d 1) ∧
        (OnlyRegs s t [(Reg.TH_DIE_OPP.addr d 0), (Reg.TH_DIE_STATUS.addr d 0)]) ∧
        (t = { s with regs := t.regs, hostWrite := t.hostWrite })) ∧
  (∀ (s : State) (path d opp now : Nat),
      (2 ≤ d ∨ s.reaches path = false) →
      Completes (.dieOppRequest path d opp now) s fun t =>
        (t = s)) ∧
  (∀ (s : State) (path d opp now : Nat),
      (d < 2) →
      (s.reaches path = true) →
      (s.free? path (Reg.TH_DIE_OPP.addr d 0) = false) →
      Completes (.dieOppRequest path d opp now) s fun t =>
        (t.waiting = s.waiting ++ [Access.mk path true (Reg.TH_DIE_OPP.addr d 0) (opp % 2 ^ 32) 4]) ∧
        (t = { s with waiting := t.waiting })) ∧
  (∀ (s : State) (path d opp now : Nat),
      (s.canonical = true) →
      (d < 2) →
      (s.carries path (Reg.TH_DIE_OPP.addr d 0) = true) →
      (s.hostWrite = none) →
      (s.layerBits (Reg.TH_DIE_OPP.addr d 0) = 0) →
      (s.dieRuns d = false) →
      Completes (.dieOppRequest path d opp now) s fun t =>
        (SetsField s t Reg.TH_DIE_OPP_OPP d opp) ∧
        (t.hostWrite = if pathOwner path = 0x40 then some ((Reg.TH_DIE_OPP.addr d 0), opp % 2 ^ 32, now) else none) ∧
        (OnlyRegs s t [(Reg.TH_DIE_OPP.addr d 0)]) ∧
        (t = { s with regs := t.regs, hostWrite := t.hostWrite })) ∧
  (∀ (s : State) (d now : Nat),
      (2 ≤ d ∨ s.getF Reg.PWR_DVFS_STAT_STEP d = 0 ∨ now < Sparse.at 0 s.pwr.stepEnd d) →
      Completes (.dvfsStepComplete d now) s fun t =>
        (t = s)) ∧
  (∀ (s : State) (d : Nat) (temp : Int) (now : Nat),
      (2 ≤ d) →
      Completes (.dieOverThrottle d temp now) s fun t =>
        (t = s)) ∧
  (∀ (s : State) (d : Nat) (temp : Int) (now : Nat),
      (2 ≤ d) →
      Completes (.dieThrottleRestore d temp now) s fun t =>
        (t = s)) ∧
  (∀ (s : State) (d : Nat) (temp : Int) (now : Nat),
      (s.canonical = true) →
      (d < 2) →
      (s.throttleT - 50 < temp ∨ Sparse.at 0 s.pwr.lowered d = 0 ∨ s.throttleDue d now = false) →
      Completes (.dieThrottleRestore d temp now) s fun t =>
        (SetsField s t Reg.PWR_DVFS_STAT_T_DIE d (unsign Reg.PWR_DVFS_STAT_T_DIE.w temp)) ∧
        (OnlyRegs s t [(Reg.PWR_DVFS_STAT.addr d 0)]) ∧
        (t = { s with regs := t.regs })) ∧
  (∀ (s : State) (d : Nat) (temp : Int),
      (s.canonical = true) →
      (d < 2) →
      (temp ≤ (s.getF Reg.PWR_THERM_SHUTDOWN_T : Int)) →
      Completes (.overtemp d temp) s fun t =>
        (SetsField s t Reg.PWR_DVFS_STAT_T_DIE d (unsign Reg.PWR_DVFS_STAT_T_DIE.w temp)) ∧
        (OnlyRegs s t [(Reg.PWR_DVFS_STAT.addr d 0)]) ∧
        (t = { s with regs := t.regs })) ∧
  (∀ (s : State) (d : Nat) (temp : Int),
      (3 ≤ d ∨ (d = 2 ∧ temp ≤ (s.getF Reg.PWR_THERM_SHUTDOWN_T : Int))) →
      Completes (.overtemp d temp) s fun t =>
        (t = s)) ∧
  (∀ (s : State) (d now : Nat),
      (s.canonical = true) →
      (d < 2) →
      (s.dieRuns d = true) →
      (s.getF Reg.PWR_STATUS_STATE = 0) →
      (s.getF Reg.TWN_STATUS_STATE ≠ 0) →
      (s.getF Reg.PWR_DVFS_STAT_STEP d ≠ 0) →
      (Sparse.at 0 s.pwr.stepEnd d ≤ now) →
      (s.dieGoal d = (s.getF Reg.PWR_DVFS_STAT_TARGET d)) →
      (s.getF Reg.PWR_DVFS_STAT_STEP d = 2) →
      ((s.getF Reg.PWR_DVFS_STAT_F_OP d) < (s.getF Reg.PWR_DVFS_STAT_TARGET d)) →
      Completes (.dvfsStepComplete d now) s fun t =>
        (SetsFields s t (Reg.PWR_DVFS_STAT.addr d 0) [(Reg.PWR_DVFS_STAT_V_OP, (s.getF Reg.PWR_DVFS_STAT_TARGET d)), (Reg.PWR_DVFS_STAT_STEP, 3)]) ∧
        (SetsField s t Reg.TH_DIE_STATUS_OPP_BUSY d 1) ∧
        (t.pwr = { s.pwr with stepEnd := Sparse.upd 0 s.pwr.stepEnd d (now + 2000) }) ∧
        (OnlyRegs s t [(Reg.PWR_DVFS_STAT.addr d 0), (Reg.TH_DIE_STATUS.addr d 0)]) ∧
        (t = { s with regs := t.regs, pwr := t.pwr })) ∧
  (∀ (s : State) (d now : Nat),
      (s.canonical = true) →
      (d < 2) →
      (s.dieRuns d = true) →
      (s.getF Reg.PWR_STATUS_STATE = 0) →
      (s.getF Reg.TWN_STATUS_STATE ≠ 0) →
      (s.getF Reg.PWR_DVFS_STAT_STEP d ≠ 0) →
      (Sparse.at 0 s.pwr.stepEnd d ≤ now) →
      (s.dieGoal d = (s.getF Reg.PWR_DVFS_STAT_TARGET d)) →
      (s.getF Reg.PWR_DVFS_STAT_STEP d = 3) →
      ((s.getF Reg.PWR_DVFS_STAT_V_OP d) = (s.getF Reg.PWR_DVFS_STAT_TARGET d)) →
      (s.isF Reg.TH_DIE_STATUS_OPP_BUSY d = true) →
      Completes (.dvfsStepComplete d now) s fun t =>
        (SetsFields s t (Reg.PWR_DVFS_STAT.addr d 0) [(Reg.PWR_DVFS_STAT_F_OP, (s.getF Reg.PWR_DVFS_STAT_TARGET d)), (Reg.PWR_DVFS_STAT_STEP, 0)]) ∧
        (SetsFields s t (Reg.TH_DIE_STATUS.addr d 0) [(Reg.TH_DIE_STATUS_OPP, (s.getF Reg.PWR_DVFS_STAT_TARGET d)), (Reg.TH_DIE_STATUS_OPP_BUSY, 0)]) ∧
        (Raises s t 12 [3]) ∧
        (OnlyRegs s t [(Reg.PWR_DVFS_STAT.addr d 0), (Reg.TH_DIE_STATUS.addr d 0), (Reg.SYS_IRQ_CAUSE.addr 12 0)]) ∧
        (t = { s with regs := t.regs })) ∧
  (∀ (s : State) (d : Nat) (temp : Int) (now : Nat),
      (s.canonical = true) →
      (d < 2) →
      (s.throttleT < temp) →
      (0 < s.dieGoal d) →
      (s.throttleDue d now = true) →
      Completes (.dieOverThrottle d temp now) s fun t =>
        (t.pwr.lowered = Sparse.upd 0 s.pwr.lowered d (3 - (s.dieGoal d - 1))) ∧
        (t.pwr.lowAt = Sparse.upd none s.pwr.lowAt d (some now)) ∧
        (t.getF Reg.PWR_DVFS_STAT_THROTTLED d = ofBool (decide ((3 - (s.dieGoal d - 1)) ≠ 0))) ∧
        (t.getF Reg.PWR_DVFS_STAT_T_DIE d = unsign Reg.PWR_DVFS_STAT_T_DIE.w temp) ∧
        (t.events = s.events ++ [LogEvent.mk 0x0D06 d [d, (unsign 32 temp), (s.dieGoal d - 1)]]) ∧
        (bitOf (t.getF Reg.SYS_IRQ_CAUSE 1) 6 = (bitOf (s.getF Reg.SYS_IRQ_CAUSE 1) 6 || !s.isF Reg.PWR_DVFS_STAT_THROTTLED d)) ∧
        (OnlyRegs s t [(Reg.PWR_DVFS_STAT.addr d 0), (Reg.TH_DIE_STATUS.addr d 0), (Reg.SYS_IRQ_CAUSE.addr 1 0), (Reg.SYS_IRQ_CAUSE.addr 12 0)]) ∧
        (t = { s with regs := t.regs, pwr := t.pwr, events := t.events })) ∧
  (∀ (s : State) (d : Nat) (temp : Int) (now : Nat),
      (s.canonical = true) →
      (d < 2) →
      (temp ≤ s.throttleT ∨ s.dieGoal d = 0 ∨ s.throttleDue d now = false) →
      Completes (.dieOverThrottle d temp now) s fun t =>
        (SetsField s t Reg.PWR_DVFS_STAT_T_DIE d (unsign Reg.PWR_DVFS_STAT_T_DIE.w temp)) ∧
        (OnlyRegs s t [(Reg.PWR_DVFS_STAT.addr d 0)]) ∧
        (t = { s with regs := t.regs })) ∧
  (∀ (s : State) (d : Nat) (temp : Int) (now : Nat),
      (s.canonical = true) →
      (d < 2) →
      (temp ≤ s.throttleT - 50) →
      (0 < Sparse.at 0 s.pwr.lowered d) →
      (s.throttleDue d now = true) →
      (4 - Sparse.at 0 s.pwr.lowered d < s.getF Reg.TH_DIE_OPP_OPP d) →
      Completes (.dieThrottleRestore d temp now) s fun t =>
        (t.pwr.lowered = Sparse.upd 0 s.pwr.lowered d (Sparse.at 0 s.pwr.lowered d - 1)) ∧
        (t.pwr.lowAt = Sparse.upd none s.pwr.lowAt d (some now)) ∧
        (t.getF Reg.PWR_DVFS_STAT_THROTTLED d = ofBool (decide ((Sparse.at 0 s.pwr.lowered d - 1) ≠ 0))) ∧
        (t.getF Reg.PWR_DVFS_STAT_T_DIE d = unsign Reg.PWR_DVFS_STAT_T_DIE.w temp) ∧
        (OnlyRegs s t [(Reg.PWR_DVFS_STAT.addr d 0), (Reg.TH_DIE_STATUS.addr d 0), (Reg.SYS_IRQ_CAUSE.addr 12 0)]) ∧
        (t = { s with regs := t.regs, pwr := t.pwr })) ∧
  (∀ (s : State) (d : Nat) (temp : Int),
      (s.canonical = true) →
      (d < 2) →
      ((s.getF Reg.PWR_THERM_SHUTDOWN_T : Int) < temp) →
      Completes (.overtemp d temp) s fun t =>
        (bitOf t.pwr.burnt d = true) ∧
        (t.getF Reg.TH_DIE_STATUS_ON d = 0) ∧
        (t.getF Reg.PWR_DVFS_STAT_T_DIE d = unsign Reg.PWR_DVFS_STAT_T_DIE.w temp) ∧
        (t.twn.code = (if s.twn.code = 0 then 6 else s.twn.code)) ∧
        (t.events.contains (LogEvent.mk 0x0D07 d [d, unsign 32 temp]) = true) ∧
        (t.runs (24 + 2 * d) = false)) ∧
  (∀ (s : State) (d : Nat) (temp : Int),
      (s.canonical = true) →
      (d = 2) →
      ((s.getF Reg.PWR_THERM_SHUTDOWN_T : Int) < temp) →
      Completes (.overtemp d temp) s fun t =>
        (t.twn.code = (if s.twn.code = 0 then 6 else s.twn.code)) ∧
        (t.events.contains (LogEvent.mk 0x0D07 2 [2, unsign 32 temp]) = true) ∧
        (t.pwr = s.pwr)) ∧
  (∀ (s : State) (hot : Bool),
      Completes (.stackOverheat hot) s fun t =>
        (t.pwr = { s.pwr with stackHot := hot }) ∧
        (t = { s with pwr := t.pwr }))

/-- A due beat leaves on both paths with the module's state. A bad beat counts for nothing. A good one without CODE clears its path's misses and
a declaration; a CODE that both paths carry is declared, and a READY standby with AUTO_SWITCH enters TAKING; two paths that contradict each
other show CONFLICT, count and are recorded. A missing beat counts; at MISS_LIMIT the path is SILENT, and when both are, the twin is
declared SILENT. The control-class faults take their CODE unless one stands. An ACTIVE shows a good health report and raises a cause at
FAIL. ADMIT, SWITCH and QUARANTINE answer BUSY while something runs, NOT_READY without a READY twin, and otherwise begin; CLEAR zeroes the
counters. An ACTIVE whose network is back claims the voice. -/
def Obligations.BeatsDeclarationsAndTwinCommands : Prop :=
  (∀ (s : State) (now : Nat),
      (s.twn.lockstep = false) →
      (s.getF Reg.PWR_STATUS_STATE ≤ 2) →
      (s.runs 1 = true) →
      ((s.counting = true ∧ s.frame % 2 = 0 ∧ s.frameTime s.frame + 6000 ≤ now ∧ s.twn.beatF ≠ some s.frame) ∨ ((s.twn.beatTold.any fun x => decide (x ≠ (s.twn.code, s.twinSt, s.twn.req))) = true)) →
      Completes (.beatSend now) s fun t =>
        (t.outbox = s.outbox ++ [Out.mk .twin (0x01 :: (s.beat (!s.netUp && decide (s.hnt.netSince + 10000000 ≤ now))).map BitVec.toNat), Out.mk .twin (0x02 :: (s.beat (!s.netUp && decide (s.hnt.netSince + 10000000 ≤ now))).map BitVec.toNat)]) ∧
        (t.twn = { s.twn with beatNo := (s.twn.beatNo + 1) % 256, beatTold := some (s.twn.code, s.twinSt, s.twn.req), beatF := if (s.counting = true ∧ s.frame % 2 = 0 ∧ s.frameTime s.frame + 6000 ≤ now ∧ s.twn.beatF ≠ some s.frame) then some s.frame else s.twn.beatF }) ∧
        (t = { s with twn := t.twn, outbox := t.outbox })) ∧
  (∀ (s : State) (now : Nat),
      (s.twn.lockstep = true ∨ 2 < s.getF Reg.PWR_STATUS_STATE ∨ s.runs 1 = false ∨ ¬ ((s.counting = true ∧ s.frame % 2 = 0 ∧ s.frameTime s.frame + 6000 ≤ now ∧ s.twn.beatF ≠ some s.frame) ∨ ((s.twn.beatTold.any fun x => decide (x ≠ (s.twn.code, s.twinSt, s.twn.req))) = true))) →
      Completes (.beatSend now) s fun t =>
        (t = s)) ∧
  (∀ (s : State) (path now : Nat) (message : List Byte),
      (2 ≤ path ∨ beatGood message = false) →
      Completes (.beatReceive path now message) s fun t =>
        (t = s)) ∧
  (∀ (s : State) (path now : Nat) (message : List Byte),
      (s.canonical = true) →
      (path < 2) →
      (beatGood message = true) →
      ((leAt message 3 1) = 0) →
      (s.beatsClash path (leAt message 1 1) (leAt message 3 1) = false) →
      Completes (.beatReceive path now message) s fun t =>
        (t.getF (pathState path) = 0) ∧
        (t.getF (pathMisses path) = 0) ∧
        (t.getF Reg.TWN_STATUS_LAST_CODE = 0) ∧
        (t.twn.beats = Sparse.upd none s.twn.beats path (some ((leAt message 1 1), (leAt message 2 1), (leAt message 3 1)))) ∧
        (t.twn.declared = false) ∧
        (t.twn.admitted = (s.isF Reg.TWN_STATUS_LOCK && decide (bitsOf (leAt message 2 1) 5 3 = 2))) ∧
        (OnlyRegs s t [(Reg.TWN_STATUS.addr 0 0), (Reg.TWN_PATHS.addr 0 0), (Reg.TWN_LAST.addr 0 0), (Reg.CFG_STATUS.addr 0 0), (Reg.SYS_IRQ_CAUSE.addr 2 0)]) ∧
        (t = { s with regs := t.regs, twn := t.twn, outbox := t.outbox })) ∧
  (∀ (s : State) (path now : Nat) (message : List Byte),
      (s.canonical = true) →
      (path < 2) →
      (beatGood message = true) →
      ((leAt message 3 1) ≠ 0) →
      (s.beatsClash path (leAt message 1 1) (leAt message 3 1) = false) →
      ((match Sparse.at none s.twn.beats (1 - path) with | some (_, _, c) => decide (c = (leAt message 3 1)) | none => false) = true ∨ s.getF (pathState (1 - path)) = 1) →
      (s.twinSt = 2) →
      (s.isF Reg.TWN_CFG_AUTO_SWITCH = true) →
      (s.isF Reg.TWN_STATUS_READY = true) →
      (s.twn.declared = false) →
      Completes (.beatReceive path now message) s fun t =>
        (t.twinSt = 3) ∧
        (t.twn.declared = true) ∧
        (t.getF Reg.TWN_LAST_CODE = (leAt message 3 1)) ∧
        (t.getF Reg.TWN_LAST_CAUSE = 1) ∧
        (bitOf (t.getF Reg.SYS_IRQ_CAUSE 2) 2 = true) ∧
        (t.events = s.events ++ [LogEvent.mk 0x0C03 0xFFFF ([1, (leAt message 3 1), t.getF Reg.TWN_PATHS_STAKE, t.getF Reg.TWN_PATHS_BINDER] ++ s.peerData)]) ∧
        (t.twn.beats = Sparse.upd none s.twn.beats path (some ((leAt message 1 1), (leAt message 2 1), (leAt message 3 1)))) ∧
        (OnlyRegs s t [(Reg.TWN_STATUS.addr 0 0), (Reg.TWN_PATHS.addr 0 0), (Reg.TWN_LAST.addr 0 0), (Reg.CFG_STATUS.addr 0 0), (Reg.SYS_IRQ_CAUSE.addr 2 0)]) ∧
        (t = { s with regs := t.regs, twn := t.twn, events := t.events })) ∧
  (∀ (s : State) (path now : Nat) (message : List Byte),
      (s.canonical = true) →
      (path < 2) →
      (beatGood message = true) →
      (s.beatsClash path (leAt message 1 1) (leAt message 3 1) = true) →
      Completes (.beatReceive path now message) s fun t =>
        (t.getF Reg.TWN_PATHS_STAKE = 3) ∧
        (t.getF Reg.TWN_PATHS_BINDER = 3) ∧
        (Counts s t Reg.TWN_CONFLICTS 0 1) ∧
        (bitOf (t.getF Reg.SYS_IRQ_CAUSE 2) 4 = true) ∧
        (t.events.length = s.events.length + 1) ∧
        (t.twn.beats = Sparse.upd none s.twn.beats path (some ((leAt message 1 1), (leAt message 2 1), (leAt message 3 1)))) ∧
        (OnlyRegs s t [(Reg.TWN_STATUS.addr 0 0), (Reg.TWN_PATHS.addr 0 0), (Reg.TWN_LAST.addr 0 0), (Reg.CFG_STATUS.addr 0 0), (Reg.SYS_IRQ_CAUSE.addr 2 0), (Reg.TWN_CONFLICTS.addr 0 0)]) ∧
        (t = { s with regs := t.regs, twn := t.twn, events := t.events, outbox := t.outbox })) ∧
  (∀ (s : State) (path now d : Nat),
      (s.canonical = true) →
      (path < 2) →
      (s.beatWin < now) →
      (s.beatDue (now - s.beatWin - 1) = some d) →
      ((Sparse.at none s.twn.beatDone path).any (fun x => decide (d ≤ x)) = false) →
      (s.getF (pathMisses path) + 1 < s.missLimit) →
      (s.getF (pathState path) ≠ 1 ∨ s.getF (pathState (1 - path)) ≠ 1) →
      (s.getF (pathState (1 - path)) ≠ 2) →
      Completes (.beatMiss path now) s fun t =>
        (Counts s t (pathMisses path) 0 1) ∧
        (Counts s t (pathMissCount path) 0 1) ∧
        (t.twn = { s.twn with beatDone := Sparse.upd none s.twn.beatDone path (some d) }) ∧
        (OnlyRegs s t [(Reg.TWN_PATHS.addr 0 0), (Reg.TWN_BEAT_MISS.addr 0 0)]) ∧
        (t = { s with regs := t.regs, twn := t.twn })) ∧
  (∀ (s : State) (path now : Nat),
      (2 ≤ path ∨ now ≤ s.beatWin ∨ s.beatDue (now - s.beatWin - 1) = none) →
      Completes (.beatMiss path now) s fun t =>
        (t = s)) ∧
  (∀ (s : State) (path now d e : Nat),
      (s.beatDue (now - s.beatWin - 1) = some d) →
      (Sparse.at none s.twn.beatDone path = some e) →
      (d ≤ e) →
      Completes (.beatMiss path now) s fun t =>
        (t = s)) ∧
  (∀ (s : State) (path now d seq fl code : Nat),
      (s.canonical = true) →
      (path < 2) →
      (s.beatWin < now) →
      (s.beatDue (now - s.beatWin - 1) = some d) →
      ((Sparse.at none s.twn.beatDone path).any (fun x => decide (d ≤ x)) = false) →
      (s.getF (pathMisses path) + 1 < s.missLimit) →
      (s.getF (pathState path) ≠ 1) →
      (s.getF (pathState (1 - path)) = 2) →
      (Sparse.at none s.twn.beats (1 - path) = some (seq, fl, code)) →
      (code ≠ 0) →
      (s.twinSt = 2) →
      (s.isF Reg.TWN_CFG_AUTO_SWITCH = true) →
      (s.isF Reg.TWN_STATUS_READY = true) →
      (s.twn.declared = false) →
      Completes (.beatMiss path now) s fun t =>
        (Counts s t (pathMisses path) 0 1) ∧
        (Counts s t (pathMissCount path) 0 1) ∧
        (t.twinSt = 3) ∧
        (t.getF Reg.TWN_LAST_CODE = code % 2 ^ Reg.TWN_LAST_CODE.w) ∧
        (t.getF Reg.TWN_LAST_CAUSE = 1) ∧
        (bitOf (t.getF Reg.SYS_IRQ_CAUSE 2) 2 = true) ∧
        (t.twn.declared = true) ∧
        (OnlyRegs s t [(Reg.TWN_STATUS.addr 0 0), (Reg.TWN_PATHS.addr 0 0), (Reg.TWN_LAST.addr 0 0), (Reg.CFG_STATUS.addr 0 0), (Reg.SYS_IRQ_CAUSE.addr 2 0), (Reg.TWN_BEAT_MISS.addr 0 0)]) ∧
        (t = { s with regs := t.regs, twn := t.twn, events := t.events })) ∧
  (∀ (s : State) (path now d : Nat),
      (s.canonical = true) →
      (path < 2) →
      (s.beatWin < now) →
      (s.beatDue (now - s.beatWin - 1) = some d) →
      ((Sparse.at none s.twn.beatDone path).any (fun x => decide (d ≤ x)) = false) →
      (s.missLimit ≤ s.getF (pathMisses path) + 1) →
      (s.getF (pathState path) ≠ 1) →
      (s.getF (pathState (1 - path)) = 1) →
      (s.twinSt = 2) →
      (s.isF Reg.TWN_CFG_AUTO_SWITCH = true) →
      (s.isF Reg.TWN_STATUS_READY = true) →
      (s.twn.declared = false) →
      Completes (.beatMiss path now) s fun t =>
        (t.getF Reg.TWN_PATHS_STAKE = 1) ∧
        (t.getF Reg.TWN_PATHS_BINDER = 1) ∧
        (t.twinSt = 3) ∧
        (t.getF Reg.TWN_LAST_CODE = 0) ∧
        (t.getF Reg.TWN_LAST_CAUSE = 2) ∧
        (bitOf (t.getF Reg.SYS_IRQ_CAUSE 2) 2 = true) ∧
        (bitOf (t.getF Reg.SYS_IRQ_CAUSE 2) 4 = true) ∧
        (Counts s t (pathMissCount path) 0 1) ∧
        (t.events = s.events ++ [LogEvent.mk 0x0C01 0xFFFF ([path, t.getF (pathMisses path)] ++ s.peerData), LogEvent.mk 0x0C03 0xFFFF ([2, 0, 1, 1] ++ s.peerData)]) ∧
        (OnlyRegs s t [(Reg.TWN_STATUS.addr 0 0), (Reg.TWN_PATHS.addr 0 0), (Reg.TWN_LAST.addr 0 0), (Reg.CFG_STATUS.addr 0 0), (Reg.SYS_IRQ_CAUSE.addr 2 0), (Reg.TWN_BEAT_MISS.addr 0 0)]) ∧
        (t = { s with regs := t.regs, twn := t.twn, events := t.events })) ∧
  (∀ (s : State),
      Completes (.lockstep) s fun t =>
        (t.twn = { s.twn with code := if s.twn.code = 0 then 2 else s.twn.code, lockstep := true }) ∧
        (t = { s with twn := t.twn })) ∧
  (∀ (s : State),
      Completes (.clockOutOfRange) s fun t =>
        (t.twn = { s.twn with code := if s.twn.code = 0 then 3 else s.twn.code }) ∧
        (t = { s with twn := t.twn })) ∧
  (∀ (s : State),
      Completes (.railOutOfRange) s fun t =>
        (t.twn = { s.twn with code := if s.twn.code = 0 then 4 else s.twn.code }) ∧
        (t = { s with twn := t.twn })) ∧
  (∀ (s : State) (down : Bool),
      (s.canonical = true) →
      Completes (.twinLaneChange down) s fun t =>
        (SetsField s t Reg.TWN_PATHS_LANE_DOWN 0 (ofBool down)) ∧
        (OnlyRegs s t [(Reg.TWN_PATHS.addr 0 0)]) ∧
        (t = { s with regs := t.regs })) ∧
  (∀ (s : State) (now : Nat),
      (s.twinSt ≠ 1 ∨ s.netUp = false ∨ now ≤ s.hnt.netSince + 1000000000 ∨ s.isVoice = true ∨ (s.voiceOf s.shelf) = none) →
      Completes (.netBack now) s fun t =>
        (t = s)) ∧
  (∀ (s : State) (now : Nat),
      (s.twinSt = 1) →
      (s.netUp = true) →
      (s.hnt.netSince + 1000000000 < now) →
      (s.isVoice = false) →
      ((s.voiceOf s.shelf).isSome = true) →
      Completes (.netBack now) s fun t =>
        (t.outbox = s.outbox ++ s.claims 5) ∧
        (t = { s with outbox := t.outbox })) ∧
  (∀ (s : State) (message : List Byte) (now : Nat),
      (s.canonical = true) →
      (s.twinSt = 1) →
      (message.length = 64) →
      (crc32c (message.take 60) = leAt message 60 4) →
      Completes (.healthReportReceive message now) s fun t =>
        (((List.range 16).all fun k => decide (t.getF Reg.TWN_HEALTH k = leAt message (4 * k) 4)) = true) ∧
        (bitOf (t.getF Reg.SYS_IRQ_CAUSE 2) 5 = (bitOf (s.getF Reg.SYS_IRQ_CAUSE 2) 5 || decide (leAt message 9 1 = 2))) ∧
        (t.twn = { s.twn with peerReady := s.twn.peerReady && decide (leAt message 9 1 ≠ 2) }) ∧
        (t.isF Reg.TWN_STATUS_READY = t.twn.peerReady) ∧
        (t.isF Reg.TWN_STATUS_DEGRADED = !t.twn.peerReady) ∧
        (OnlyRegs s t ([(Reg.TWN_STATUS.addr 0 0), (Reg.SYS_IRQ_CAUSE.addr 2 0)] ++ (List.range 16).map fun k => Reg.TWN_HEALTH.addr k 0)) ∧
        (t = { s with regs := t.regs, twn := t.twn })) ∧
  (∀ (s : State) (message : List Byte) (now : Nat),
      (s.twinSt ≠ 1 ∨ message.length ≠ 64 ∨ crc32c (message.take 60) ≠ leAt message 60 4) →
      Completes (.healthReportReceive message now) s fun t =>
        (t = s)) ∧
  (∀ (s : State) (now : Nat),
      (s.twinBusy = false) →
      (s.twinSt ≠ 4) →
      Completes (.twnAdmit now) s fun t =>
        (t = s)) ∧
  (∀ (s : State),
      (s.twinBusy = false) →
      (s.twinSt ≠ 1) →
      (s.twinSt ≠ 2) →
      Completes (.twnQuarantine) s fun t =>
        (t = s)) ∧
  (∀ (s : State) (now : Nat),
      (s.canonical = true) →
      (s.twinBusy = true) →
      Completes (.twnAdmit now) s fun t =>
        (SetsField s t Reg.TWN_STATUS_RESULT 0 2) ∧
        (Raises s t 2 [6]) ∧
        (OnlyRegs s t [(Reg.TWN_STATUS.addr 0 0), (Reg.SYS_IRQ_CAUSE.addr 2 0)]) ∧
        (t = { s with regs := t.regs })) ∧
  (∀ (s : State) (now : Nat),
      (s.canonical = true) →
      (s.twinBusy = false) →
      (s.twinSt = 4) →
      (s.forerunner = true) →
      Completes (.twnAdmit now) s fun t =>
        (SetsField s t Reg.TWN_STATUS_RESULT 0 1) ∧
        (Raises s t 2 [6]) ∧
        (OnlyRegs s t [(Reg.TWN_STATUS.addr 0 0), (Reg.SYS_IRQ_CAUSE.addr 2 0)]) ∧
        (t = { s with regs := t.regs })) ∧
  (∀ (s : State) (now : Nat),
      (s.canonical = true) →
      (s.twinBusy = false) →
      (s.twinSt = 4) →
      (s.forerunner = false) →
      Completes (.twnAdmit now) s fun t =>
        (t.twinSt = 5) ∧
        (t.getF Reg.TWN_STATUS_RESULT = 0) ∧
        (Raises s t 2 [6, 0]) ∧
        (t.twn = { s.twn with resyncAt := some now, good := 0, samples := [], copy := none, report := none, waitFrom := none }) ∧
        (t.outbox = s.outbox ++ [Out.mk .twin [0x05]]) ∧
        (s.isF Reg.TWN_STATUS_LOCK = true ∨ 2 < s.getF Reg.PWR_STATUS_STATE ∨ t.getF Reg.PWR_STATUS_STATE = 1) ∧
        (OnlyRegs s t [(Reg.TWN_STATUS.addr 0 0), (Reg.SYS_IRQ_CAUSE.addr 2 0), (Reg.PWR_STATUS.addr 0 0), (Reg.SYS_IRQ_CAUSE.addr 12 0), (Reg.PWR_DOM_STATUS_LO.addr 0 0), (Reg.PWR_DVFS_STAT.addr 0 0), (Reg.PWR_DVFS_STAT.addr 1 0), (Reg.TH_DIE_STATUS.addr 0 0), (Reg.TH_DIE_STATUS.addr 1 0)]) ∧
        (t = { s with regs := t.regs, twn := t.twn, th := t.th, outbox := t.outbox })) ∧
  (∀ (s : State),
      (s.canonical = true) →
      (s.twinBusy = true) →
      Completes (.twnSwitch) s fun t =>
        (SetsField s t Reg.TWN_STATUS_RESULT 0 2) ∧
        (Raises s t 2 [6]) ∧
        (OnlyRegs s t [(Reg.TWN_STATUS.addr 0 0), (Reg.SYS_IRQ_CAUSE.addr 2 0)]) ∧
        (t = { s with regs := t.regs })) ∧
  (∀ (s : State),
      (s.canonical = true) →
      (s.twinBusy = false) →
      (s.twinSt = 1) →
      (s.isF Reg.TWN_STATUS_READY = true) →
      Completes (.twnSwitch) s fun t =>
        (SetsField s t Reg.TWN_STATUS_RESULT 0 0) ∧
        (Raises s t 2 [6]) ∧
        (t.twn = { s.twn with switching := true, req := true, thenQuar := false }) ∧
        (OnlyRegs s t [(Reg.TWN_STATUS.addr 0 0), (Reg.SYS_IRQ_CAUSE.addr 2 0)]) ∧
        (t = { s with regs := t.regs, twn := t.twn })) ∧
  (∀ (s : State),
      (s.canonical = true) →
      (s.twinBusy = false) →
      (s.twinSt ≠ 1 ∨ s.isF Reg.TWN_STATUS_READY = false) →
      Completes (.twnSwitch) s fun t =>
        (SetsField s t Reg.TWN_STATUS_RESULT 0 3) ∧
        (Raises s t 2 [6]) ∧
        (OnlyRegs s t [(Reg.TWN_STATUS.addr 0 0), (Reg.SYS_IRQ_CAUSE.addr 2 0)]) ∧
        (t = { s with regs := t.regs })) ∧
  (∀ (s : State),
      (s.canonical = true) →
      (s.twinBusy = false) →
      (s.twinSt = 1) →
      (s.isF Reg.TWN_STATUS_READY = true) →
      Completes (.twnQuarantine) s fun t =>
        (SetsField s t Reg.TWN_STATUS_RESULT 0 0) ∧
        (Raises s t 2 [6]) ∧
        (t.twn = { s.twn with switching := true, req := true, thenQuar := true }) ∧
        (OnlyRegs s t [(Reg.TWN_STATUS.addr 0 0), (Reg.SYS_IRQ_CAUSE.addr 2 0)]) ∧
        (t = { s with regs := t.regs, twn := t.twn })) ∧
  (∀ (s : State),
      (s.canonical = true) →
      (s.twinBusy = false) →
      (s.twinSt = 2) →
      Completes (.twnQuarantine) s fun t =>
        (t.twinSt = 4) ∧
        (t.getF Reg.TWN_STATUS_RESULT = 1) ∧
        (s.isF Reg.TWN_STATUS_READY = true → Raises s t 2 [0, 3, 6]) ∧
        (s.isF Reg.TWN_STATUS_READY = false → Raises s t 2 [0, 6]) ∧
        (t.isF Reg.TWN_STATUS_READY = false) ∧
        (t.events = s.events ++ [LogEvent.mk 0x0C07 0xFFFF ([3, s.twn.code] ++ s.peerData)]) ∧
        (t.getF Reg.CLK_STATUS_FOLLOWER = 0) ∧
        (OnlyRegs s t [(Reg.TWN_STATUS.addr 0 0), (Reg.SYS_IRQ_CAUSE.addr 2 0), (Reg.PWR_STATUS.addr 0 0), (Reg.SYS_IRQ_CAUSE.addr 12 0), (Reg.PWR_DOM_STATUS_LO.addr 0 0), (Reg.PWR_DVFS_STAT.addr 0 0), (Reg.PWR_DVFS_STAT.addr 1 0), (Reg.TH_DIE_STATUS.addr 0 0), (Reg.TH_DIE_STATUS.addr 1 0), (Reg.CLK_STATUS.addr 0 0)]) ∧
        (t = { s with regs := t.regs, twn := t.twn, th := t.th, events := t.events, outbox := t.outbox })) ∧
  (∀ (s : State),
      (s.canonical = true) →
      Completes (.twnClear) s fun t =>
        (t.rd (Reg.TWN_COPY_TX.addr 0 0) = 0#32) ∧
        (t.rd (Reg.TWN_COPY_RX.addr 0 0) = 0#32) ∧
        (t.rd (Reg.TWN_COPY_ERR.addr 0 0) = 0#32) ∧
        (t.rd (Reg.TWN_BEAT_MISS.addr 0 0) = 0#32) ∧
        (t.rd (Reg.TWN_CONFLICTS.addr 0 0) = 0#32) ∧
        (t.rd (Reg.TWN_SWITCHES.addr 0 0) = 0#32) ∧
        (SetsField s t Reg.TWN_STATUS_RESULT 0 0) ∧
        (OnlyRegs s t [(Reg.TWN_COPY_TX.addr 0 0), (Reg.TWN_COPY_RX.addr 0 0), (Reg.TWN_COPY_ERR.addr 0 0), (Reg.TWN_BEAT_MISS.addr 0 0), (Reg.TWN_CONFLICTS.addr 0 0), (Reg.TWN_SWITCHES.addr 0 0), (Reg.TWN_STATUS.addr 0 0)]) ∧
        (t = { s with regs := t.regs }))

/-- At start-up the slots are exchanged: twins of one slot clash and go to QUARANTINE, slot A claims, slot B waits, and claims after LOCK_WAIT
without its twin's claim. A module takes the lock when the twin's claim has been released for 100 ns: LOCK, ACTIVE and RUN follow; a switch-
over is counted and recorded. A sensed claim makes a faulted or switching holder let go: a fault leaves it in QUARANTINE, a command STANDBY.
A keeper not refreshed for 300 µs loses the lock. A pre-run that passed asserts the claim at a boundary; without the lock 1 ms later the
module is STANDBY again with LOCK_BLOCKED. A bad record counts as an error; a FAULTED one gives its journal only; any other is loaded, with
its tiles' outputs and states, and kept. Counters, frame and COPY_AGE follow. -/
def Obligations.TheLockAndTheStateCopy : Prop :=
  (∀ (s : State) (message : List Byte) (now : Nat),
      (s.canonical = true) →
      ((s.twinSt = 2 ∨ s.twinSt = 5)) →
      (s.isF Reg.TWN_STATUS_LOCK = false) →
      (s.twn.preLeft = none) →
      (s.twn.commanded = false) →
      (recordGood message = false) →
      Completes (.stateRecordReceive message now) s fun t =>
        (Counts s t Reg.TWN_COPY_ERR 0 1) ∧
        (t.twn = { s.twn with hErr := s.twn.hErr + 1, good := 0 }) ∧
        (OnlyRegs s t [(Reg.TWN_COPY_ERR.addr 0 0)]) ∧
        (t = { s with regs := t.regs, twn := t.twn })) ∧
  (∀ (s : State) (message : List Byte) (now : Nat),
      (s.canonical = true) →
      ((s.twinSt = 2 ∨ s.twinSt = 5)) →
      (s.isF Reg.TWN_STATUS_LOCK = false) →
      (s.twn.preLeft = none) →
      (s.twn.commanded = false) →
      (recordGood message = true) →
      (s.twn.copy = none) →
      (bitOf (leAt message 12 2) 0 = true) →
      Completes (.stateRecordReceive message now) s fun t =>
        (Counts s t Reg.TWN_COPY_RX 0 1) ∧
        (t.twn.appliedF = leAt message 0 8) ∧
        (t.twn.serials = (leAt message 16 4, leAt message 20 4)) ∧
        (t.twn.hOk = s.twn.hOk + 1) ∧
        (t.frame = leAt message 0 8) ∧
        (t.getF Reg.CLK_STATUS_FOLLOWER = 1) ∧
        (t.getF Reg.TWN_PATHS_COPY_AGE = 0) ∧
        (t.isF Reg.TWN_STATUS_JOURNAL_LAG = bitOf (leAt message 12 2) 2) ∧
        (t.twn.faultJournal = s.twn.faultJournal ++ recordJournal message) ∧
        (t.twn.copy = none) ∧
        (t.twn.applyJ = s.twn.applyJ)) ∧
  (∀ (s : State) (message : List Byte) (now x : Nat) (e : List Byte),
      (s.canonical = true) →
      ((s.twinSt = 2 ∨ s.twinSt = 5)) →
      (s.isF Reg.TWN_STATUS_LOCK = false) →
      (s.twn.preLeft = none) →
      (s.twn.commanded = false) →
      (recordGood message = true) →
      (s.twn.copy = none) →
      (bitOf (leAt message 12 2) 0 = false) →
      (entries message 1 56 = [e]) →
      (leAt e 0 1 = x) →
      (x < 96) →
      ((s.tile x).run = true) →
      Completes (.stateRecordReceive message now) s fun t =>
        (Counts s t Reg.TWN_COPY_RX 0 1) ∧
        (t.twn.appliedF = leAt message 0 8) ∧
        (t.twn.serials = (leAt message 16 4, leAt message 20 4)) ∧
        (t.twn.hOk = s.twn.hOk + 1) ∧
        (t.frame = leAt message 0 8) ∧
        (t.getF Reg.CLK_STATUS_FOLLOWER = 1) ∧
        (t.getF Reg.TWN_PATHS_COPY_AGE = 0) ∧
        (t.isF Reg.TWN_STATUS_JOURNAL_LAG = bitOf (leAt message 12 2) 2) ∧
        (t.twn.copy = some message) ∧
        (t.twn.applyJ = s.twn.applyJ ++ recordJournal message) ∧
        (t.twn.faultJournal = []) ∧
        (t.getF Reg.LT_OUT_U x = leAt e 4 4 % 2 ^ 24) ∧
        (t.getS Reg.LT_RAMP_POS x = leSAt e 8 4) ∧
        (t.bank x = bitOf (leAt e 1 1) 1) ∧
        (t.comp x = Comp.mk (leSAt e 20 8) (leSAt e 28 8) (leSAt e 36 8) (leSAt e 44 8)) ∧
        (t.isF Reg.LT_STAT_LOOP_FAULT x = s.isF Reg.LT_STAT_LOOP_FAULT x)) ∧
  (∀ (s : State) (now : Nat),
      (s.twinSt = 3) →
      (s.twn.claim = false) →
      (s.twn.requestAt = none) →
      (now = s.frameTime s.frame) →
      (s.twn.takeF < s.frame) →
      (s.twn.commanded = true ∨ s.twn.preLeft = some 0) →
      Completes (.lockRequest now) s fun t =>
        (t.twn = { s.twn with requestAt := some now, claim := true, claimAt := now, keeperAt := now, waitFrom := none }) ∧
        (t.outbox = s.outbox ++ [Out.mk .line [0, 1]]) ∧
        (t = { s with twn := t.twn, outbox := t.outbox })) ∧
  (∀ (s : State) (now : Nat),
      (s.twinSt ≠ 3 ∨ s.twn.claim = true ∨ s.twn.requestAt.isSome ∨ now ≠ s.frameTime s.frame ∨ s.frame ≤ s.twn.takeF ∨ (s.twn.commanded = false ∧ s.twn.preLeft ≠ some 0)) →
      Completes (.lockRequest now) s fun t =>
        (t = s)) ∧
  (∀ (s : State) (asserted : Bool) (now : Nat),
      (s.canonical = true) →
      (asserted = false) →
      Completes (.twinClaimSensed asserted now) s fun t =>
        (t.twn = { s.twn with twinClaim := false, releasedAt := now }) ∧
        (SetsField s t Reg.TWN_STATUS_TWIN_CLAIM 0 0) ∧
        (OnlyRegs s t [(Reg.TWN_STATUS.addr 0 0)]) ∧
        (t = { s with regs := t.regs, twn := t.twn })) ∧
  (∀ (s : State) (asserted : Bool) (now : Nat),
      (s.canonical = true) →
      (asserted = true) →
      (s.isF Reg.TWN_STATUS_LOCK = true) →
      (s.twn.code ≠ 0) →
      Completes (.twinClaimSensed asserted now) s fun t =>
        (s.released t 0) ∧
        (t.twinSt = 4) ∧
        (t.twn.twinClaim = true) ∧
        (t.isF Reg.TWN_STATUS_TWIN_CLAIM = true)) ∧
  (∀ (s : State) (asserted : Bool) (now : Nat),
      (s.canonical = true) →
      (asserted = true) →
      (s.isF Reg.TWN_STATUS_LOCK = true) →
      (s.twn.code = 0) →
      (s.twn.switching = true) →
      (s.twn.thenQuar = false) →
      Completes (.twinClaimSensed asserted now) s fun t =>
        (s.released t 1) ∧
        (t.twinSt = 2) ∧
        (t.getF Reg.TWN_STATUS_RESULT = 1) ∧
        (t.isF Reg.TWN_STATUS_READY = false)) ∧
  (∀ (s : State) (asserted : Bool) (now : Nat),
      (s.canonical = true) →
      (asserted = true) →
      (s.isF Reg.TWN_STATUS_LOCK = true) →
      (s.twn.code = 0) →
      (s.twn.switching = true) →
      (s.twn.thenQuar = true) →
      Completes (.twinClaimSensed asserted now) s fun t =>
        (s.released t 1) ∧
        (t.twinSt = 4) ∧
        (t.getF Reg.TWN_STATUS_RESULT = 1)) ∧
  (∀ (s : State) (asserted : Bool) (now : Nat),
      (s.canonical = true) →
      (asserted = true) →
      (s.isF Reg.TWN_STATUS_LOCK = false) →
      (s.twn.claim = true) →
      (s.twn.holder = false) →
      (now < s.twn.claimAt + 100) →
      (s.isF Reg.TWN_STATUS_SLOT = true) →
      (s.twinSt ≠ 0) →
      Completes (.twinClaimSensed asserted now) s fun t =>
        (t.twn = { s.twn with twinClaim := true, claim := false }) ∧
        (SetsField s t Reg.TWN_STATUS_TWIN_CLAIM 0 1) ∧
        (t.outbox = s.outbox ++ [Out.mk .line [0, 0]]) ∧
        (OnlyRegs s t [(Reg.TWN_STATUS.addr 0 0)]) ∧
        (t = { s with regs := t.regs, twn := t.twn, outbox := t.outbox })) ∧
  (∀ (s : State) (asserted : Bool) (now : Nat),
      (s.canonical = true) →
      (asserted = true) →
      (s.isF Reg.TWN_STATUS_LOCK = false) →
      (s.twn.claim = true) →
      (s.twn.holder = false) →
      (now < s.twn.claimAt + 100) →
      (s.isF Reg.TWN_STATUS_SLOT = true) →
      (s.twinSt = 0) →
      (s.forerunner = false) →
      Completes (.twinClaimSensed asserted now) s fun t =>
        (t.twinSt = 4) ∧
        (t.twn.twinClaim = true) ∧
        (t.twn.claim = false) ∧
        (t.events = s.events ++ [LogEvent.mk 0x0C07 0xFFFF ([0, s.twn.code] ++ s.peerData)]) ∧
        (OnlyRegs s t [(Reg.TWN_STATUS.addr 0 0), (Reg.SYS_IRQ_CAUSE.addr 2 0), (Reg.PWR_STATUS.addr 0 0), (Reg.SYS_IRQ_CAUSE.addr 12 0), (Reg.PWR_DOM_STATUS_LO.addr 0 0), (Reg.PWR_DVFS_STAT.addr 0 0), (Reg.PWR_DVFS_STAT.addr 1 0), (Reg.TH_DIE_STATUS.addr 0 0), (Reg.TH_DIE_STATUS.addr 1 0), (Reg.CLK_STATUS.addr 0 0)]) ∧
        (t = { s with regs := t.regs, twn := t.twn, th := t.th, events := t.events, outbox := t.outbox })) ∧
  (∀ (s : State) (asserted : Bool) (now : Nat),
      (s.canonical = true) →
      (asserted = true) →
      (s.isF Reg.TWN_STATUS_LOCK = false) →
      (s.twn.claim = false) →
      (s.twn.waitFrom.isSome = true) →
      (s.forerunner = false) →
      Completes (.twinClaimSensed asserted now) s fun t =>
        (t.twinSt = 4) ∧
        (t.twn.twinClaim = true) ∧
        (t.twn.waitFrom = none) ∧
        (t.events = s.events ++ [LogEvent.mk 0x0C07 0xFFFF ([0, s.twn.code] ++ s.peerData)]) ∧
        (OnlyRegs s t [(Reg.TWN_STATUS.addr 0 0), (Reg.SYS_IRQ_CAUSE.addr 2 0), (Reg.PWR_STATUS.addr 0 0), (Reg.SYS_IRQ_CAUSE.addr 12 0), (Reg.PWR_DOM_STATUS_LO.addr 0 0), (Reg.PWR_DVFS_STAT.addr 0 0), (Reg.PWR_DVFS_STAT.addr 1 0), (Reg.TH_DIE_STATUS.addr 0 0), (Reg.TH_DIE_STATUS.addr 1 0), (Reg.CLK_STATUS.addr 0 0)]) ∧
        (t = { s with regs := t.regs, twn := t.twn, th := t.th, events := t.events, outbox := t.outbox })) ∧
  (∀ (s : State) (now failAt : Nat),
      (s.canonical = true) →
      (s.isF Reg.TWN_STATUS_LOCK = false) →
      (s.twn.claim = true) →
      (s.twn.twinClaim = false) →
      (max s.twn.claimAt s.twn.releasedAt + 100 ≤ now) →
      (s.twinSt ≠ 3) →
      Completes (.lockAcquire now failAt) s fun t =>
        (t.isF Reg.TWN_STATUS_LOCK = true) ∧
        (t.twinSt = 1) ∧
        (t.twn.holder = true) ∧
        (t.isF Reg.PWM_STATUS_LOCK = true) ∧
        (t.getF Reg.PWR_STATUS_STATE = 0) ∧
        (t.getF Reg.TWN_STATUS_LOCK_BLOCKED = 0) ∧
        (bitOf (t.getF Reg.SYS_IRQ_CAUSE 2) 1 = true) ∧
        (t.getF Reg.CLK_STATUS_FOLLOWER = 0) ∧
        (t.twn.journal = []) ∧
        (t.getF Reg.TWN_SWITCHES_TAKEN = s.getF Reg.TWN_SWITCHES_TAKEN)) ∧
  (∀ (s : State) (now failAt : Nat),
      (s.canonical = true) →
      (s.isF Reg.TWN_STATUS_LOCK = false) →
      (s.twn.claim = true) →
      (s.twn.twinClaim = false) →
      (max s.twn.claimAt s.twn.releasedAt + 100 ≤ now) →
      (s.twinSt = 3) →
      (s.getF Reg.TWN_LAST_CAUSE ≠ 2) →
      Completes (.lockAcquire now failAt) s fun t =>
        (t.isF Reg.TWN_STATUS_LOCK = true) ∧
        (t.twinSt = 1) ∧
        (t.twn.holder = true) ∧
        (t.isF Reg.PWM_STATUS_LOCK = true) ∧
        (t.getF Reg.PWR_STATUS_STATE = 0) ∧
        (t.getF Reg.TWN_STATUS_LOCK_BLOCKED = 0) ∧
        (bitOf (t.getF Reg.SYS_IRQ_CAUSE 2) 1 = true) ∧
        (t.getF Reg.CLK_STATUS_FOLLOWER = 0) ∧
        (Counts s t Reg.TWN_SWITCHES_TAKEN 0 1) ∧
        (t.getF Reg.TH_DIE_OPP_OPP 0 = 3) ∧
        (t.getF Reg.TH_DIE_OPP_OPP 1 = 3) ∧
        ((t.events.any fun e => decide (e.code = 0x0C04 ∧ e.data.head? = some (s.getF Reg.TWN_LAST_CAUSE))) = true)) ∧
  (∀ (s : State) (now : Nat),
      (s.canonical = true) →
      (s.twn.claim = true) →
      (s.twn.keeperAt + 300000 < now) →
      (s.isF Reg.TWN_STATUS_LOCK = true) →
      Completes (.keeperExpiry now) s fun t =>
        (s.released t 2) ∧
        (t.twinSt = 4)) ∧
  (∀ (s : State) (now : Nat),
      (s.twn.claim = true) →
      (s.twn.keeperAt + 300000 < now) →
      (s.isF Reg.TWN_STATUS_LOCK = false) →
      (s.twn.holder = false) →
      Completes (.keeperExpiry now) s fun t =>
        (t.twn = { s.twn with claim := false }) ∧
        (t.outbox = s.outbox ++ [Out.mk .line [0, 0]]) ∧
        (t = { s with twn := t.twn, outbox := t.outbox })) ∧
  (∀ (s : State) (now r : Nat),
      (s.canonical = true) →
      (s.twn.requestAt = some r) →
      (s.twinSt = 3) →
      (s.isF Reg.TWN_STATUS_LOCK = false) →
      (r + 1000000 < now) →
      (s.twn.claim = true) →
      (s.twn.holder = false) →
      Completes (.lockBlocked now) s fun t =>
        (t.twinSt = 2) ∧
        (t.isF Reg.TWN_STATUS_LOCK_BLOCKED = true) ∧
        (t.twn = { s.twn with claim := false, requestAt := none, preLeft := none, commanded := false, samples := [] }) ∧
        (t.outbox = s.outbox ++ [Out.mk .line [0, 0]] ++ s.claims 3) ∧
        (t.events.length = s.events.length + 1) ∧
        ((t.events.getLast?.map fun (e : LogEvent) => e.code) = some 0x0C06) ∧
        (OnlyRegs s t [(Reg.TWN_STATUS.addr 0 0), (Reg.SYS_IRQ_CAUSE.addr 2 0)]) ∧
        (t = { s with regs := t.regs, twn := t.twn, outbox := t.outbox, events := t.events })) ∧
  (∀ (s : State) (now w : Nat),
      (s.twn.waitFrom = some w) →
      (s.twinSt = 0) →
      (s.twn.twinClaim = false) →
      (max w s.twn.releasedAt + s.getF Reg.TWN_TIMES_LOCK_WAIT * 1000000 < now) →
      (s.twn.claim = false) →
      Completes (.lockWaitElapsed now) s fun t =>
        (t.twn = { s.twn with claim := true, claimAt := now, keeperAt := now, waitFrom := none }) ∧
        (t.outbox = s.outbox ++ [Out.mk .line [0, 1]]) ∧
        (t = { s with twn := t.twn, outbox := t.outbox })) ∧
  (∀ (s : State) (now failAt : Nat),
      (s.isF Reg.TWN_STATUS_LOCK = true ∨ s.twn.claim = false ∨ s.twn.twinClaim = true ∨ now < max s.twn.claimAt s.twn.releasedAt + 100) →
      Completes (.lockAcquire now failAt) s fun t =>
        (t = s)) ∧
  (∀ (s : State) (now : Nat),
      (s.twn.claim = false ∨ now ≤ s.twn.keeperAt + 300000) →
      Completes (.keeperExpiry now) s fun t =>
        (t = s)) ∧
  (∀ (s : State) (now : Nat),
      (s.twn.requestAt = none ∨ s.twinSt ≠ 3 ∨ s.isF Reg.TWN_STATUS_LOCK = true) →
      Completes (.lockBlocked now) s fun t =>
        (t = s)) ∧
  (∀ (s : State) (now r : Nat),
      (s.twn.requestAt = some r) →
      (now ≤ r + 1000000) →
      Completes (.lockBlocked now) s fun t =>
        (t = s)) ∧
  (∀ (s : State) (now : Nat),
      (s.twn.waitFrom = none ∨ s.twinSt ≠ 0 ∨ s.twn.twinClaim = true) →
      Completes (.lockWaitElapsed now) s fun t =>
        (t = s)) ∧
  (∀ (s : State) (now w : Nat),
      (s.twn.waitFrom = some w) →
      (now ≤ max w s.twn.releasedAt + s.getF Reg.TWN_TIMES_LOCK_WAIT * 1000000) →
      Completes (.lockWaitElapsed now) s fun t =>
        (t = s)) ∧
  (∀ (s : State) (a : Option (Nat × Nat × Nat)) (now : Nat),
      (s.twinSt ≠ 0 ∨ s.cfg.running = false ∨ s.twn.exchanged = true ∨ (a = none ∧ (s.pwr.imageAt.any fun t => decide (t + 20000000 ≤ now)) = false)) →
      Completes (.slotExchange a now) s fun t =>
        (t = s)) ∧
  (∀ (s : State) (a : Option (Nat × Nat × Nat)) (now : Nat) (x h d : Nat),
      (s.canonical = true) →
      (s.twinSt = 0) →
      (s.cfg.running = true) →
      (s.twn.exchanged = false) →
      (a = some (x, h, d)) →
      (x = s.getF Reg.TWN_STATUS_SLOT ∨ h ≠ s.shelf) →
      Completes (.slotExchange a now) s fun t =>
        (t.getF Reg.SYS_STRAPS_SLOT_CLASH = 1) ∧
        (t.twinSt = 4) ∧
        (t.get64 Reg.TWN_PEER_ID_LO = d % 2 ^ 64) ∧
        (t.twn.exchanged = true) ∧
        ((t.events.map fun (e : LogEvent) => e.code) = (s.events.map fun (e : LogEvent) => e.code) ++ [0x0C08, 0x0C07]) ∧
        (([Out.mk .twin (0x03 :: (leBytes 1 (s.getF Reg.TWN_STATUS_SLOT) ++ leBytes 1 s.shelf).map BitVec.toNat)] : List Out).isSublist t.outbox = true) ∧
        (OnlyRegs s t [(Reg.TWN_STATUS.addr 0 0), (Reg.SYS_IRQ_CAUSE.addr 2 0), (Reg.PWR_STATUS.addr 0 0), (Reg.SYS_IRQ_CAUSE.addr 12 0), (Reg.PWR_DOM_STATUS_LO.addr 0 0), (Reg.PWR_DVFS_STAT.addr 0 0), (Reg.PWR_DVFS_STAT.addr 1 0), (Reg.TH_DIE_STATUS.addr 0 0), (Reg.TH_DIE_STATUS.addr 1 0), (Reg.SYS_STRAPS.addr 0 0), (Reg.CLK_STATUS.addr 0 0), (Reg.TWN_PEER_ID_LO.addr 0 0), (Reg.TWN_PEER_ID_HI.addr 0 0)]) ∧
        (t = { s with regs := t.regs, twn := t.twn, th := t.th, events := t.events, outbox := t.outbox })) ∧
  (∀ (s : State) (a : Option (Nat × Nat × Nat)) (now : Nat),
      (s.twinSt = 0) →
      (s.cfg.running = true) →
      (s.twn.exchanged = false) →
      (a = none) →
      ((s.pwr.imageAt.any fun t => decide (t + 20000000 ≤ now)) = true) →
      (s.twn.twinClaim = false) →
      (s.getF Reg.TWN_STATUS_SLOT = 0) →
      (s.twn.claim = false) →
      Completes (.slotExchange a now) s fun t =>
        (t.twn = { s.twn with exchanged := true, claim := true, claimAt := now, keeperAt := now, waitFrom := none }) ∧
        (t.outbox = s.outbox ++ [Out.mk .twin (0x03 :: (leBytes 1 (s.getF Reg.TWN_STATUS_SLOT) ++ leBytes 1 s.shelf).map BitVec.toNat), Out.mk .line [0, 1]]) ∧
        (t = { s with twn := t.twn, outbox := t.outbox })) ∧
  (∀ (s : State) (a : Option (Nat × Nat × Nat)) (now : Nat),
      (s.twinSt = 0) →
      (s.cfg.running = true) →
      (s.twn.exchanged = false) →
      (a = none) →
      ((s.pwr.imageAt.any fun t => decide (t + 20000000 ≤ now)) = true) →
      (s.twn.twinClaim = false) →
      (s.getF Reg.TWN_STATUS_SLOT ≠ 0) →
      Completes (.slotExchange a now) s fun t =>
        (t.twn = { s.twn with exchanged := true, waitFrom := some now }) ∧
        (t.outbox = s.outbox ++ [Out.mk .twin (0x03 :: (leBytes 1 (s.getF Reg.TWN_STATUS_SLOT) ++ leBytes 1 s.shelf).map BitVec.toNat)]) ∧
        (t = { s with twn := t.twn, outbox := t.outbox }))

/-- An event below its group's level is counted as filtered. Any other becomes a record with the next SEQ at the end of the queue, unless a
repeat window holds it back, whose end records how many. A programmed page moves its records from the queue to the write point, and LAST_SEQ
follows. An erased block is empty and no longer torn; under a freeze the log is then FROZEN with its cause. A freeze holds the flash still;
its end records what was dropped and raises its cause. DUMP answers 2 where the log is not frozen and 3 for a bad range; else it runs, and
its end writes the records in SEQ order to the stack and counts them. A read window shows a record with its area (free for one in the power-
fail block) or why not. CLEAR_COUNTS zeroes the counters. -/
def Obligations.TheLogRecordsFreezesAndDumps : Prop :=
  (∀ (s : State) (count now : Nat) (e : LogEvent) (r : List LogEvent),
      (s.canonical = true) →
      (s.runs 39 = true) →
      (count = 1) →
      (s.events = e :: r) →
      (s.passes e.code = false) →
      Completes (.logRecordArrive count now) s fun t =>
        (Counts s t Reg.LOG_FILTERED 0 1) ∧
        (t.events = r) ∧
        (t.log.queue = s.log.queue) ∧
        (t.log.next = s.log.next) ∧
        (OnlyRegs s t (Reg.LOG_FILTERED.addr 0 0 :: logRegs)) ∧
        (t = { s with regs := t.regs, events := t.events, log := t.log })) ∧
  (∀ (s : State) (count now : Nat) (e : LogEvent) (r : List LogEvent),
      (s.canonical = true) →
      (s.runs 39 = true) →
      (count = 1) →
      (s.events = e :: r) →
      (s.passes e.code = true) →
      (3 ≤ severity e.code ∨ s.repeatNs = 0) →
      (s.logRoom e = true) →
      Completes (.logRecordArrive count now) s fun t =>
        (t.events = r) ∧
        (t.log.queue = s.log.queue ++ [s.nextRecord e now]) ∧
        (t.log.next = s.log.next + 1) ∧
        (t.getF Reg.LOG_STATUS_QUEUE = s.log.queue.length + 1) ∧
        (OnlyRegs s t (logRegs)) ∧
        (t = { s with regs := t.regs, events := t.events, log := t.log })) ∧
  (∀ (s : State) (count now : Nat) (e : LogEvent) (r : List LogEvent) (w : RepeatWin),
      (s.canonical = true) →
      (s.runs 39 = true) →
      (count = 1) →
      (s.events = e :: r) →
      (s.passes e.code = true) →
      (severity e.code < 3) →
      (ownCode e.code = false) →
      (s.repeatNs ≠ 0) →
      ((s.log.windows.find? fun (x : RepeatWin) => decide (x.code = e.code) && decide (x.source = e.source)) = some w) →
      (now ≤ w.since + s.repeatNs) →
      Completes (.logRecordArrive count now) s fun t =>
        (t.events = r) ∧
        (t.log.windows = s.log.windows.map fun (x : RepeatWin) => if x.code = e.code ∧ x.source = e.source then RepeatWin.mk x.code x.source x.since (x.count + 1) else x) ∧
        (t.log.queue = s.log.queue) ∧
        (OnlyRegs s t (logRegs)) ∧
        (t = { s with regs := t.regs, events := t.events, log := t.log })) ∧
  (∀ (s : State) (code source now : Nat) (w : RepeatWin),
      (s.canonical = true) →
      ((s.log.windows.find? fun (x : RepeatWin) => decide (x.code = code) && decide (x.source = source)) = some w) →
      (w.since + s.repeatNs < now) →
      (w.count ≠ 0) →
      (s.logRoom (LogEvent.mk 0x0003 w.source [w.code, w.count]) = true) →
      Completes (.repeatWindowEnd code source now) s fun t =>
        (t.log.windows = s.log.windows.filter fun (x : RepeatWin) => !(decide (x.code = w.code) && decide (x.source = w.source))) ∧
        (t.log.queue = s.log.queue ++ [s.nextRecord (LogEvent.mk 0x0003 w.source [w.code, w.count]) now]) ∧
        (t.log.next = s.log.next + 1) ∧
        (t.getF Reg.LOG_STATUS_QUEUE = s.log.queue.length + 1) ∧
        (OnlyRegs s t (logRegs)) ∧
        (t = { s with regs := t.regs, log := t.log })) ∧
  (∀ (s : State) (now : Nat) (r : List Byte) (q : List (List Byte)),
      (s.canonical = true) →
      (s.log.page = [recSeq r]) →
      (s.log.queue = r :: q) →
      (s.log.spill = []) →
      (q.all (fun x => decide (recSeq x ≠ recSeq r)) = true) →
      (s.isF Reg.PWR_STATUS_HOLDUP = false) →
      Completes (.logPageProgrammed now) s fun t =>
        (t.log.flash = Sparse.upd [] s.log.flash s.log.slot r) ∧
        (t.log.slot = (if s.log.slot + 1 = 140288 then 8192 else s.log.slot + 1)) ∧
        (t.log.queue = q) ∧
        (t.get64 Reg.LOG_LAST_SEQ_LO = recSeq r) ∧
        (t.getF Reg.LOG_STATUS_QUEUE = q.length % 1024) ∧
        (s.log.slot ≠ 8191 ∨ t.isF Reg.LOG_STATUS_HEART_FULL = true) ∧
        (OnlyRegs s t (logRegs)) ∧
        (t = { s with regs := t.regs, log := t.log })) ∧
  (∀ (s : State) (now : Nat) (rs q : List (List Byte)),
      (s.canonical = true) →
      (s.log.page = rs.map recSeq) →
      (rs ≠ []) →
      (s.log.queue = rs ++ q) →
      (s.log.spill = []) →
      (q.all (fun x => decide (recSeq x ∉ s.log.page)) = true) →
      (s.isF Reg.PWR_STATUS_HOLDUP = false) →
      Completes (.logPageProgrammed now) s fun t =>
        (t.log.flash = (rs.foldl State.program s).log.flash) ∧
        (t.log.slot = (rs.foldl State.program s).log.slot) ∧
        (t.log.queue = q) ∧
        (t.get64 Reg.LOG_LAST_SEQ_LO = (rs.getLast?.map recSeq).getD 0) ∧
        (t.getF Reg.LOG_STATUS_QUEUE = q.length % 1024) ∧
        (OnlyRegs s t (logRegs)) ∧
        (t = { s with regs := t.regs, log := t.log })) ∧
  (∀ (s : State) (now b : Nat),
      (s.canonical = true) →
      (s.log.erasing = some b) →
      (s.isF Reg.PWR_STATUS_HOLDUP = false) →
      Completes (.logBlockErased now) s fun t =>
        (t.log.flash = Sparse.clear s.log.flash (8192 + 1024 * b) (8192 + 1024 * (b + 1))) ∧
        (t.log.torn = s.log.torn.filter fun x => decide (x ≠ b)) ∧
        (OnlyRegs s t (logRegs)) ∧
        (t = { s with regs := t.regs, log := t.log })) ∧
  (∀ (s : State) (now b : Nat),
      (s.canonical = true) →
      (s.log.erasing = some b) →
      (s.isF Reg.PWR_STATUS_HOLDUP = false) →
      (s.log.freezing = true) →
      (s.log.frozenAt = none) →
      (s.log.page = []) →
      (s.spillSound = true) →
      Completes (.logBlockErased now) s fun t =>
        (t.log = { s.log with flash := Sparse.clear s.log.flash (8192 + 1024 * b) (8192 + 1024 * (b + 1)), torn := s.log.torn.filter fun x => decide (x ≠ b), erasing := none, frozenAt := some now }) ∧
        (t.isF Reg.LOG_STATUS_ERASING = false) ∧
        (t.isF Reg.LOG_STATUS_FROZEN = true) ∧
        (Raises s t 3 [2]) ∧
        (OnlyRegs s t (logRegs)) ∧
        (t = { s with regs := t.regs, log := t.log })) ∧
  (∀ (s : State) (now : Nat),
      (s.canonical = true) →
      (s.log.freezing = false) →
      (s.log.frozenAt = none) →
      (s.log.page = []) →
      (s.log.erasing = none) →
      Completes (.logFreeze now) s fun t =>
        (t.log = { s.log with freezing := true, dropped := 0, frozenAt := some now }) ∧
        (SetsFields s t (Reg.LOG_STATUS.addr 0 0) [(Reg.LOG_STATUS_CMD_RESULT, 1), (Reg.LOG_STATUS_FROZEN, 1)]) ∧
        (Raises s t 3 [2]) ∧
        (OnlyRegs s t [(Reg.LOG_STATUS.addr 0 0), (Reg.SYS_IRQ_CAUSE.addr 3 0)]) ∧
        (t = { s with regs := t.regs, log := t.log })) ∧
  (∀ (s : State) (now : Nat),
      (s.canonical = true) →
      (s.log.freezing = false) →
      (s.log.page ≠ [] ∨ s.log.erasing.isSome = true) →
      Completes (.logFreeze now) s fun t =>
        (t.log = { s.log with freezing := true, dropped := 0 }) ∧
        (SetsField s t Reg.LOG_STATUS_CMD_RESULT 0 1) ∧
        (OnlyRegs s t [(Reg.LOG_STATUS.addr 0 0)]) ∧
        (t = { s with regs := t.regs, log := t.log })) ∧
  (∀ (s : State) (now : Nat),
      (s.canonical = true) →
      (s.log.freezing = true) →
      (s.logRoom (LogEvent.mk 0x0004 0xFFFF [s.log.dropped]) = true) →
      Completes (.logUnfreeze now) s fun t =>
        (t.log.freezing = false) ∧
        (t.log.frozenAt = none) ∧
        (t.log.dropped = 0) ∧
        (t.isF Reg.LOG_STATUS_FROZEN = false) ∧
        (bitOf (t.getF Reg.SYS_IRQ_CAUSE 3) 3 = true) ∧
        (t.getF Reg.LOG_STATUS_CMD_RESULT = 1) ∧
        (t.log.queue = s.log.queue ++ [s.nextRecord (LogEvent.mk 0x0004 0xFFFF [s.log.dropped]) now]) ∧
        (t.log.next = s.log.next + 1) ∧
        (t.getF Reg.LOG_STATUS_QUEUE = s.log.queue.length + 1) ∧
        (OnlyRegs s t (logRegs)) ∧
        (t = { s with regs := t.regs, log := t.log })) ∧
  (∀ (s : State) (now : Nat),
      (s.canonical = true) →
      (s.log.freezing = false) →
      Completes (.logUnfreeze now) s fun t =>
        (SetsField s t Reg.LOG_STATUS_CMD_RESULT 0 1) ∧
        (OnlyRegs s t [(Reg.LOG_STATUS.addr 0 0)]) ∧
        (t = { s with regs := t.regs })) ∧
  (∀ (s : State) (now z : Nat),
      (s.canonical = true) →
      (s.log.frozenAt = some z) →
      (z + min 60 (max 1 (s.getF Reg.LOG_CFG_FREEZE_MAX)) * 1000000000 < now) →
      (s.log.freezing = true) →
      (s.logRoom (LogEvent.mk 0x0004 0xFFFF [s.log.dropped]) = true) →
      Completes (.freezeMaxElapsed now) s fun t =>
        (t.log.freezing = false) ∧
        (t.log.frozenAt = none) ∧
        (t.log.dropped = 0) ∧
        (t.isF Reg.LOG_STATUS_FROZEN = false) ∧
        (bitOf (t.getF Reg.SYS_IRQ_CAUSE 3) 3 = true) ∧
        (t.log.queue = s.log.queue ++ [s.nextRecord (LogEvent.mk 0x0004 0xFFFF [s.log.dropped]) now]) ∧
        (t.log.next = s.log.next + 1) ∧
        (t.getF Reg.LOG_STATUS_QUEUE = s.log.queue.length + 1) ∧
        (OnlyRegs s t (logRegs)) ∧
        (t = { s with regs := t.regs, log := t.log })) ∧
  (∀ (s : State),
      (s.canonical = true) →
      (s.isF Reg.LOG_STATUS_FROZEN = false ∨ s.isF Reg.LOG_STATUS_DUMPING = true) →
      Completes (.dump) s fun t =>
        (SetsField s t Reg.LOG_STATUS_CMD_RESULT 0 2) ∧
        (OnlyRegs s t [(Reg.LOG_STATUS.addr 0 0)]) ∧
        (t = { s with regs := t.regs })) ∧
  (∀ (s : State),
      (s.canonical = true) →
      (s.isF Reg.LOG_STATUS_FROZEN = true) →
      (s.isF Reg.LOG_STATUS_DUMPING = false) →
      (s.get64 Reg.LOG_DUMP_ADDR_LO % 64 ≠ 0 ∨ dumpRange (s.get64 Reg.LOG_DUMP_ADDR_LO) (64 * s.getF Reg.LOG_DUMP_COUNT) = false) →
      Completes (.dump) s fun t =>
        (SetsField s t Reg.LOG_STATUS_CMD_RESULT 0 3) ∧
        (OnlyRegs s t [(Reg.LOG_STATUS.addr 0 0)]) ∧
        (t = { s with regs := t.regs })) ∧
  (∀ (s : State),
      (s.canonical = true) →
      (s.isF Reg.LOG_STATUS_FROZEN = true) →
      (s.isF Reg.LOG_STATUS_DUMPING = false) →
      (s.get64 Reg.LOG_DUMP_ADDR_LO % 64 = 0) →
      (dumpRange (s.get64 Reg.LOG_DUMP_ADDR_LO) (64 * s.getF Reg.LOG_DUMP_COUNT) = true) →
      Completes (.dump) s fun t =>
        (SetsFields s t (Reg.LOG_STATUS.addr 0 0) [(Reg.LOG_STATUS_DUMPING, 1), (Reg.LOG_STATUS_CMD_RESULT, 1)]) ∧
        (t.log = { s.log with dump := (s.get64 Reg.LOG_DUMP_ADDR_LO, s.get64 Reg.LOG_DUMP_FROM_LO, s.getF Reg.LOG_DUMP_COUNT) }) ∧
        (OnlyRegs s t [(Reg.LOG_STATUS.addr 0 0)]) ∧
        (t = { s with regs := t.regs, log := t.log })) ∧
  (∀ (s : State),
      (s.canonical = true) →
      (s.isF Reg.LOG_STATUS_DUMPING = true) →
      Completes (.dumpComplete) s fun t =>
        (SetsField s t Reg.LOG_DUMP_DONE 0 (((bySeq ((s.log.flash.map Prod.snd ++ s.failHeld).filter fun (r : List Byte) => recGood r && decide (s.log.dump.2.1 ≤ recSeq r))).take s.log.dump.2.2).length)) ∧
        (SetsField s t Reg.LOG_STATUS_DUMPING 0 0) ∧
        (Raises s t 3 [4]) ∧
        (Counts s t Reg.LOG_CRC_SKIP 0 (((s.log.flash.map Prod.snd).filter fun (r : List Byte) => !recGood r && decide (s.log.dump.2.1 ≤ recSeq r)).length)) ∧
        (t.mem = (s.stackWrite s.log.dump.1 ((bySeq ((s.log.flash.map Prod.snd ++ s.failHeld).filter fun (r : List Byte) => recGood r && decide (s.log.dump.2.1 ≤ recSeq r))).take s.log.dump.2.2).flatten).mem) ∧
        (t.poison = (s.stackWrite s.log.dump.1 ((bySeq ((s.log.flash.map Prod.snd ++ s.failHeld).filter fun (r : List Byte) => recGood r && decide (s.log.dump.2.1 ≤ recSeq r))).take s.log.dump.2.2).flatten).poison) ∧
        (OnlyRegs s t [(Reg.LOG_DUMP_DONE.addr 0 0), (Reg.LOG_CRC_SKIP.addr 0 0), (Reg.LOG_STATUS.addr 0 0), (Reg.SYS_IRQ_CAUSE.addr 3 0)]) ∧
        (t = { s with regs := t.regs, mem := t.mem, poison := t.poison, ctx := t.ctx })) ∧
  (∀ (s : State) (count now : Nat),
      (s.runs 39 = false) →
      Completes (.logRecordArrive count now) s fun t =>
        (t = s)) ∧
  (∀ (s : State) (now : Nat),
      (s.log.page = []) →
      Completes (.logPageProgrammed now) s fun t =>
        (t = s)) ∧
  (∀ (s : State) (now : Nat),
      (s.log.erasing = none ∨ s.isF Reg.PWR_STATUS_HOLDUP = true) →
      Completes (.logBlockErased now) s fun t =>
        (t = s)) ∧
  (∀ (s : State) (code source now : Nat),
      ((s.log.windows.find? fun (x : RepeatWin) => decide (x.code = code) && decide (x.source = source)) = none) →
      Completes (.repeatWindowEnd code source now) s fun t =>
        (t = s)) ∧
  (∀ (s : State) (code source now : Nat) (w : RepeatWin),
      ((s.log.windows.find? fun (x : RepeatWin) => decide (x.code = code) && decide (x.source = source)) = some w) →
      (now ≤ w.since + s.repeatNs) →
      Completes (.repeatWindowEnd code source now) s fun t =>
        (t = s)) ∧
  (∀ (s : State) (now : Nat),
      (s.log.frozenAt = none) →
      Completes (.freezeMaxElapsed now) s fun t =>
        (t = s)) ∧
  (∀ (s : State) (now z : Nat),
      (s.log.frozenAt = some z) →
      (now ≤ z + min 60 (max 1 (s.getF Reg.LOG_CFG_FREEZE_MAX)) * 1000000000) →
      Completes (.freezeMaxElapsed now) s fun t =>
        (t = s)) ∧
  (∀ (s : State),
      (s.isF Reg.LOG_STATUS_DUMPING = false) →
      Completes (.dumpComplete) s fun t =>
        (t = s)) ∧
  (∀ (s : State),
      (s.canonical = true) →
      Completes (.clearCounts) s fun t =>
        (t.rd (Reg.LOG_DROP.addr 0 0) = 0#32) ∧
        (t.rd (Reg.LOG_FREEZE_DROP.addr 0 0) = 0#32) ∧
        (t.rd (Reg.LOG_LOST.addr 0 0) = 0#32) ∧
        (t.rd (Reg.LOG_CRC_SKIP.addr 0 0) = 0#32) ∧
        (t.rd (Reg.LOG_FILTERED.addr 0 0) = 0#32) ∧
        (SetsField s t Reg.LOG_STATUS_CMD_RESULT 0 1) ∧
        (OnlyRegs s t [(Reg.LOG_DROP.addr 0 0), (Reg.LOG_FREEZE_DROP.addr 0 0), (Reg.LOG_LOST.addr 0 0), (Reg.LOG_CRC_SKIP.addr 0 0), (Reg.LOG_FILTERED.addr 0 0), (Reg.LOG_STATUS.addr 0 0)]) ∧
        (t = { s with regs := t.regs })) ∧
  (∀ (s : State) (path seq : Nat) (r : List Byte),
      (s.spillSound = true) →
      (((s.log.spill.map Prod.snd ++ s.log.queue).find? fun (r : List Byte) => s.isF Reg.LOG_STATUS_READY && decide (recSeq r = seq)) = some r) →
      Completes (.logRdLatch path seq) s fun t =>
        (t.pathRegs = s.windowShows path r 8) ∧
        (t = { s with pathRegs := t.pathRegs })) ∧
  (∀ (s : State) (path seq w : Nat) (r : List Byte),
      (s.spillSound = true) →
      (((s.log.spill.map Prod.snd ++ s.log.queue).find? fun (r : List Byte) => s.isF Reg.LOG_STATUS_READY && decide (recSeq r = seq)) = none) →
      ((s.log.flash.find? fun (e : Nat × List Byte) => recGood e.2 && decide (recSeq e.2 = seq)) = some (w, r)) →
      Completes (.logRdLatch path seq) s fun t =>
        (t.pathRegs = s.windowShows path r (if 8192 ≤ w then 4 else 0)) ∧
        (t = { s with pathRegs := t.pathRegs })) ∧
  (∀ (s : State) (path seq w : Nat) (r : List Byte),
      (s.canonical = true) →
      (s.spillSound = true) →
      (((s.log.spill.map Prod.snd ++ s.log.queue).find? fun (r : List Byte) => s.isF Reg.LOG_STATUS_READY && decide (recSeq r = seq)) = none) →
      ((s.log.flash.find? fun (e : Nat × List Byte) => recGood e.2 && decide (recSeq e.2 = seq)) = none) →
      ((s.failHeld.find? fun (x : List Byte) => decide (recSeq x = seq)) = none) →
      ((s.log.flash.find? fun (e : Nat × List Byte) => decide (recSeq e.2 = seq)) = some (w, r)) →
      Completes (.logRdLatch path seq) s fun t =>
        (t.pathRegs = s.windowShows path r (if 8192 ≤ w then 6 else 2)) ∧
        (Counts s t Reg.LOG_CRC_SKIP 0 1) ∧
        (OnlyRegs s t [(Reg.LOG_CRC_SKIP.addr 0 0)]) ∧
        (t = { s with regs := t.regs, pathRegs := t.pathRegs })) ∧
  (∀ (s : State) (path seq : Nat) (r : List Byte),
      (s.spillSound = true) →
      (((s.log.spill.map Prod.snd ++ s.log.queue).find? fun (r : List Byte) => s.isF Reg.LOG_STATUS_READY && decide (recSeq r = seq)) = none) →
      ((s.log.flash.find? fun (e : Nat × List Byte) => recGood e.2 && decide (recSeq e.2 = seq)) = none) →
      ((s.failHeld.find? fun (x : List Byte) => decide (recSeq x = seq)) = some r) →
      Completes (.logRdLatch path seq) s fun t =>
        (t.pathRegs = s.windowShows path r 0 ∨ t.pathRegs = s.windowShows path r 4) ∧
        (t.free = s.free + 1) ∧
        (t = { s with pathRegs := t.pathRegs, free := t.free })) ∧
  (∀ (s : State) (path seq : Nat),
      (s.spillSound = true) →
      (((s.log.spill.map Prod.snd ++ s.log.queue).find? fun (r : List Byte) => s.isF Reg.LOG_STATUS_READY && decide (recSeq r = seq)) = none) →
      ((s.failHeld.find? fun (x : List Byte) => decide (recSeq x = seq)) = none) →
      ((s.log.flash.find? fun (e : Nat × List Byte) => decide (recSeq e.2 = seq)) = none) →
      Completes (.logRdLatch path seq) s fun t =>
        (t.pathRegs = Sparse.upd 0#32 s.pathRegs (path * 2 ^ 26 + Reg.LOG_RD_STAT.addr 0 0) 1#32) ∧
        (t = { s with pathRegs := t.pathRegs }))

/-- While a change runs every command of LCS_CMD but no step answers BUSY. LC_CHALLENGE draws a nonce, shown until it is used or lapses after 60
s. LC_CHANGE is refused IN_SERVICE, BAD_TOKEN, NOT_ALLOWED or STALE_NONCE with a record; where the signers that R440 asks for have signed it
uses the nonce and enters step 1, else SIGNATURE. The steps go on in order: volatile memories wiped, secret keys destroyed, the fuse blown,
images, firmware and log erased, new firmware, and power-on reset. DEBUG_UNLOCK and RAISE_MIN act where their signers signed; ENROL, REVOKE,
LOAD_SLOT and CLEAR_SLOT change their slots. The lock is taken in PROVISIONED only. JTAG gives BYPASS where an instruction is not open. The
log recovers its numbers and queues BOOT, unless fuses and heartwood differ: then the change is resumed. (Signatures and unwrapping are
free: log entry 6.) -/
def Obligations.LifeCycleKeysAndRecovery : Prop :=
  (∀ (s : State) (now : Nat),
      (s.canonical = true) →
      (s.isF Reg.LCS_STATUS_PENDING = true) →
      Completes (.lcChallenge now) s fun t =>
        (SetsField s t Reg.LCS_STATUS_CMD_RESULT 0 2) ∧
        (Raises s t 14 [0]) ∧
        (OnlyRegs s t [(Reg.LCS_STATUS.addr 0 0), (Reg.SYS_IRQ_CAUSE.addr 14 0)]) ∧
        (t = { s with regs := t.regs })) ∧
  (∀ (s : State) (now : Nat),
      (s.canonical = true) →
      (s.isF Reg.LCS_STATUS_PENDING = true) →
      Completes (.lcChange now) s fun t =>
        (SetsField s t Reg.LCS_STATUS_CMD_RESULT 0 2) ∧
        (Raises s t 14 [0]) ∧
        (OnlyRegs s t [(Reg.LCS_STATUS.addr 0 0), (Reg.SYS_IRQ_CAUSE.addr 14 0)]) ∧
        (t = { s with regs := t.regs })) ∧
  (∀ (s : State),
      (s.canonical = true) →
      (s.isF Reg.LCS_STATUS_PENDING = true) →
      Completes (.lcLock) s fun t =>
        (SetsField s t Reg.LCS_STATUS_CMD_RESULT 0 2) ∧
        (Raises s t 14 [0]) ∧
        (OnlyRegs s t [(Reg.LCS_STATUS.addr 0 0), (Reg.SYS_IRQ_CAUSE.addr 14 0)]) ∧
        (t = { s with regs := t.regs })) ∧
  (∀ (s : State) (now : Nat),
      (s.canonical = true) →
      (s.isF Reg.LCS_STATUS_PENDING = true) →
      Completes (.debugUnlock now) s fun t =>
        (SetsField s t Reg.LCS_STATUS_CMD_RESULT 0 2) ∧
        (Raises s t 14 [0]) ∧
        (OnlyRegs s t [(Reg.LCS_STATUS.addr 0 0), (Reg.SYS_IRQ_CAUSE.addr 14 0)]) ∧
        (t = { s with regs := t.regs })) ∧
  (∀ (s : State) (now : Nat),
      (s.canonical = true) →
      (s.isF Reg.LCS_STATUS_PENDING = true) →
      Completes (.raiseMin now) s fun t =>
        (SetsField s t Reg.LCS_STATUS_CMD_RESULT 0 2) ∧
        (Raises s t 14 [0]) ∧
        (OnlyRegs s t [(Reg.LCS_STATUS.addr 0 0), (Reg.SYS_IRQ_CAUSE.addr 14 0)]) ∧
        (t = { s with regs := t.regs })) ∧
  (∀ (s : State),
      (s.canonical = true) →
      (s.isF Reg.LCS_STATUS_PENDING = true) →
      Completes (.enrol) s fun t =>
        (SetsField s t Reg.LCS_STATUS_CMD_RESULT 0 2) ∧
        (Raises s t 14 [0]) ∧
        (OnlyRegs s t [(Reg.LCS_STATUS.addr 0 0), (Reg.SYS_IRQ_CAUSE.addr 14 0)]) ∧
        (t = { s with regs := t.regs })) ∧
  (∀ (s : State),
      (s.canonical = true) →
      (s.isF Reg.LCS_STATUS_PENDING = true) →
      Completes (.revoke) s fun t =>
        (SetsField s t Reg.LCS_STATUS_CMD_RESULT 0 2) ∧
        (Raises s t 14 [0]) ∧
        (OnlyRegs s t [(Reg.LCS_STATUS.addr 0 0), (Reg.SYS_IRQ_CAUSE.addr 14 0)]) ∧
        (t = { s with regs := t.regs })) ∧
  (∀ (s : State),
      (s.canonical = true) →
      (s.isF Reg.LCS_STATUS_PENDING = true) →
      Completes (.loadSlot) s fun t =>
        (SetsField s t Reg.LCS_STATUS_CMD_RESULT 0 2) ∧
        (Raises s t 14 [0]) ∧
        (OnlyRegs s t [(Reg.LCS_STATUS.addr 0 0), (Reg.SYS_IRQ_CAUSE.addr 14 0)]) ∧
        (t = { s with regs := t.regs })) ∧
  (∀ (s : State),
      (s.canonical = true) →
      (s.isF Reg.LCS_STATUS_PENDING = true) →
      Completes (.clearSlot) s fun t =>
        (SetsField s t Reg.LCS_STATUS_CMD_RESULT 0 2) ∧
        (Raises s t 14 [0]) ∧
        (OnlyRegs s t [(Reg.LCS_STATUS.addr 0 0), (Reg.SYS_IRQ_CAUSE.addr 14 0)]) ∧
        (t = { s with regs := t.regs })) ∧
  (∀ (s : State) (now : Nat),
      (s.canonical = true) →
      (s.isF Reg.LCS_STATUS_PENDING = false) →
      (s.sec.nonce = none) →
      Completes (.lcChallenge now) s fun t =>
        (SetsField s t Reg.LCS_STATUS_CMD_RESULT 0 1) ∧
        (Raises s t 14 [0]) ∧
        (t.sec = { s.sec with nonce := some ((Config.randomBytes s.free 16), now) }) ∧
        (((List.range 4).all fun k => decide (t.rd (Reg.LCS_NONCE.addr k 0) = BitVec.ofNat 32 (leAt (Config.randomBytes s.free 16) (4 * k) 4))) = true) ∧
        (t.free = s.free + 1) ∧
        (OnlyRegs s t ([(Reg.LCS_STATUS.addr 0 0), (Reg.SYS_IRQ_CAUSE.addr 14 0)] ++ (List.range 4).map fun k => Reg.LCS_NONCE.addr k 0)) ∧
        (t = { s with regs := t.regs, sec := t.sec, free := t.free })) ∧
  (∀ (s : State) (now d : Nat) (n : List Byte),
      (s.canonical = true) →
      (s.sec.nonce = some (n, d)) →
      (d + 60000000000 < now) →
      Completes (.nonceLapse now) s fun t =>
        (t.sec = { s.sec with nonce := none }) ∧
        (((List.range 4).all fun k => decide (t.rd (Reg.LCS_NONCE.addr k 0) = 0#32)) = true) ∧
        (Raises s t 14 [1]) ∧
        (OnlyRegs s t ([(Reg.SYS_IRQ_CAUSE.addr 14 0)] ++ (List.range 4).map fun k => Reg.LCS_NONCE.addr k 0)) ∧
        (t = { s with regs := t.regs, sec := t.sec })) ∧
  (∀ (s : State) (now : Nat),
      (s.canonical = true) →
      (s.isF Reg.LCS_STATUS_PENDING = false) →
      (s.inService = true) →
      Completes (.lcChange now) s fun t =>
        (SetsField s t Reg.LCS_STATUS_CMD_RESULT 0 6) ∧
        (Raises s t 14 [0]) ∧
        (t.events = s.events ++ [LogEvent.mk 0x0E01 0xFFFF [leAt (s.lcBytes.getD []) 6 1, leAt (s.lcBytes.getD []) 7 1, 6]]) ∧
        (OnlyRegs s t [(Reg.LCS_STATUS.addr 0 0), (Reg.SYS_IRQ_CAUSE.addr 14 0)]) ∧
        (t = { s with regs := t.regs, events := t.events })) ∧
  (∀ (s : State) (now : Nat),
      (s.canonical = true) →
      (s.isF Reg.LCS_STATUS_PENDING = false) →
      (s.inService = false) →
      (s.lcRecord = none ∨ (s.lcRecord.map fun (r : AuthRec) => decide (r.op = 1)) = some false) →
      Completes (.lcChange now) s fun t =>
        (SetsField s t Reg.LCS_STATUS_CMD_RESULT 0 3) ∧
        (Raises s t 14 [0]) ∧
        (t.events = s.events ++ [LogEvent.mk 0x0E01 0xFFFF [leAt (s.lcBytes.getD []) 6 1, leAt (s.lcBytes.getD []) 7 1, 3]]) ∧
        (OnlyRegs s t [(Reg.LCS_STATUS.addr 0 0), (Reg.SYS_IRQ_CAUSE.addr 14 0)]) ∧
        (t = { s with regs := t.regs, events := t.events })) ∧
  (∀ (s : State) (now : Nat) (r : AuthRec),
      (s.canonical = true) →
      (s.isF Reg.LCS_STATUS_PENDING = false) →
      (s.inService = false) →
      (s.lcRecord = some r) →
      (r.op = 1) →
      (changeSigners s.lcState r.target s.sec.lcCount = none) →
      Completes (.lcChange now) s fun t =>
        (SetsField s t Reg.LCS_STATUS_CMD_RESULT 0 5) ∧
        (Raises s t 14 [0]) ∧
        (t.events = s.events ++ [LogEvent.mk 0x0E01 0xFFFF [leAt (s.lcBytes.getD []) 6 1, leAt (s.lcBytes.getD []) 7 1, 5]]) ∧
        (OnlyRegs s t [(Reg.LCS_STATUS.addr 0 0), (Reg.SYS_IRQ_CAUSE.addr 14 0)]) ∧
        (t = { s with regs := t.regs, events := t.events })) ∧
  (∀ (s : State) (now : Nat) (r : AuthRec) (gs : List Signer),
      (s.canonical = true) →
      (s.isF Reg.LCS_STATUS_PENDING = false) →
      (s.inService = false) →
      (s.lcRecord = some r) →
      (r.op = 1) →
      (changeSigners s.lcState r.target s.sec.lcCount = some gs) →
      (s.nonceOk r.nonce now = false) →
      Completes (.lcChange now) s fun t =>
        (SetsField s t Reg.LCS_STATUS_CMD_RESULT 0 7) ∧
        (Raises s t 14 [0]) ∧
        (t.events = s.events ++ [LogEvent.mk 0x0E01 0xFFFF [leAt (s.lcBytes.getD []) 6 1, leAt (s.lcBytes.getD []) 7 1, 7]]) ∧
        (OnlyRegs s t [(Reg.LCS_STATUS.addr 0 0), (Reg.SYS_IRQ_CAUSE.addr 14 0)]) ∧
        (t = { s with regs := t.regs, events := t.events })) ∧
  (∀ (s : State) (now : Nat) (r : AuthRec) (gs : List Signer),
      (s.canonical = true) →
      (s.isF Reg.LCS_STATUS_PENDING = false) →
      (s.inService = false) →
      (s.lcRecord = some r) →
      (r.op = 1) →
      (changeSigners s.lcState r.target s.sec.lcCount = some gs) →
      (s.nonceOk r.nonce now = true) →
      Completes (.lcChange now) s fun t =>
        (t.sec = if s.signedBy r gs then { s.sec with nonce := none, change := some (r.target, r.fw) } else s.sec) ∧
        (t.isF Reg.LCS_STATUS_PENDING = s.signedBy r gs) ∧
        (t.getF Reg.LCS_STATUS_CMD_RESULT = if s.signedBy r gs then 1 else 4) ∧
        (t.getF Reg.LCS_STATUS_STEP = if s.signedBy r gs then 1 else s.getF Reg.LCS_STATUS_STEP) ∧
        (t.events.getLast? = if s.signedBy r gs then s.events.getLast? else some (LogEvent.mk 0x0E01 0xFFFF [r.op, r.target, 4])) ∧
        (OnlyRegs s t ([(Reg.LCS_STATUS.addr 0 0), (Reg.SYS_IRQ_CAUSE.addr 14 0)] ++ (List.range 4).map fun k => Reg.LCS_NONCE.addr k 0)) ∧
        (t = { s with regs := t.regs, sec := t.sec, events := t.events })) ∧
  (∀ (s : State) (now x : Nat) (fw : List Byte),
      (s.canonical = true) →
      (s.sec.change = some (x, fw)) →
      (s.getF Reg.LCS_STATUS_STEP = 1) →
      Completes (.lcChangeStepComplete now) s fun t =>
        (SetsField s t Reg.LCS_STATUS_STEP 0 2) ∧
        (OnlyRegs s t [(Reg.LCS_STATUS.addr 0 0)]) ∧
        (t = { s with regs := t.regs })) ∧
  (∀ (s : State) (now x : Nat) (fw : List Byte),
      (s.canonical = true) →
      (s.sec.change = some (x, fw)) →
      (s.getF Reg.LCS_STATUS_STEP = 2) →
      Completes (.lcChangeStepComplete now) s fun t =>
        (t.getF Reg.LCS_STATUS_STEP = if s.lcState = 2 ∨ x = 4 then 3 else 4) ∧
        (t.mem = []) ∧
        (t.poison = []) ∧
        (t.eff = []) ∧
        (t.pathRegs = []) ∧
        (t.th = ({} : ThState)) ∧
        (t.est = ({} : EstState)) ∧
        (t.log.queue = []) ∧
        (t.log.flash = s.log.flash) ∧
        (t.isF Reg.LCS_STATUS_DEBUG = false) ∧
        (t.sec.skey = s.sec.skey.filter fun (e : Nat × List Byte) => decide (8 ≤ e.1)) ∧
        (∀ a, wipedWord a = true → fuseWord a = false → a ≠ Reg.CTX_STATUS.addr 0 0 → t.rd a = regReset a)) ∧
  (∀ (s : State) (now x : Nat) (fw : List Byte),
      (s.canonical = true) →
      (s.sec.change = some (x, fw)) →
      (s.getF Reg.LCS_STATUS_STEP = 3) →
      Completes (.lcChangeStepComplete now) s fun t =>
        (((List.range 8).all fun k => decide (Sparse.at 0 t.sec.fused (16 + k) = blownWord) && decide (Sparse.at [] t.sec.skey (8 + k) = List.replicate 32 0xFF#8)) = true) ∧
        (((List.range 6).all fun k => bitOf (Sparse.at 0 t.sec.fused (2 + k)) 30) = true) ∧
        (x ≠ 4 ∨ (Sparse.at 0 t.sec.fused 0 = blownWord ∧ Sparse.at 0 t.sec.fused 1 = blownWord)) ∧
        (t.getF Reg.LCS_STATUS_STEP = 4) ∧
        (OnlyRegs s t ([(Reg.LCS_STATUS.addr 0 0)] ++ (List.range 24).map fun i => Reg.SEC_SLOT.addr i 0)) ∧
        (t = { s with regs := t.regs, sec := t.sec })) ∧
  (∀ (s : State) (now x : Nat) (fw : List Byte),
      (s.canonical = true) →
      (s.sec.change = some (x, fw)) →
      (s.getF Reg.LCS_STATUS_STEP = 4) →
      Completes (.lcChangeStepComplete now) s fun t =>
        (t.sec = if x = 4 then { s.sec with retired := true } else { s.sec with lcCount := 2 * s.sec.lcCount + 1 }) ∧
        (t.lcState = (if bitOf s.sec.bad 2 = true then 4 else fuseState t.sec.lcCount t.sec.retired)) ∧
        (t.getF Reg.LCS_STATUS_RETURNS = fuseReturns t.sec.lcCount) ∧
        (t.getF Reg.LCS_STATUS_STEP = 5) ∧
        (t = { s with regs := t.regs, sec := t.sec })) ∧
  (∀ (s : State) (now x : Nat) (fw : List Byte),
      (s.canonical = true) →
      (s.sec.change = some (x, fw)) →
      (s.getF Reg.LCS_STATUS_STEP = 5) →
      Completes (.lcChangeStepComplete now) s fun t =>
        (t.cfg = { s.cfg with slot0 := [], slot1 := [] }) ∧
        (t.sec = { s.sec with firmware := none }) ∧
        (t.log = ({} : LogState)) ∧
        (t.getF Reg.LCS_STATUS_STEP = 6) ∧
        (OnlyRegs s t ([(Reg.LCS_STATUS.addr 0 0)] ++ [Reg.LOG_BOOT.addr 0 0] ++ logRegs)) ∧
        (t = { s with regs := t.regs, cfg := t.cfg, sec := t.sec, log := t.log })) ∧
  (∀ (s : State) (now x : Nat) (fw : List Byte),
      (s.canonical = true) →
      (s.sec.change = some (x, fw)) →
      (s.getF Reg.LCS_STATUS_STEP = 6) →
      Completes (.lcChangeStepComplete now) s fun t =>
        (t.sec = { s.sec with firmware := if fw = [] then none else some fw }) ∧
        (SetsField s t Reg.LCS_STATUS_STEP 0 7) ∧
        (OnlyRegs s t [(Reg.LCS_STATUS.addr 0 0)]) ∧
        (t = { s with regs := t.regs, sec := t.sec })) ∧
  (∀ (s : State) (now x : Nat) (fw : List Byte),
      (s.canonical = true) →
      (s.sec.change = some (x, fw)) →
      (s.getF Reg.LCS_STATUS_STEP = 7) →
      Completes (.lcChangeStepComplete now) s fun t =>
        (t.sec.change = none) ∧
        (t.isF Reg.LCS_STATUS_PENDING = false) ∧
        (t.lcState = (if bitOf s.sec.bad 2 = true then 4 else fuseState s.sec.lcCount s.sec.retired)) ∧
        (t.getF Reg.PWR_STATUS_START_STEP = 1) ∧
        (t.getF Reg.PWR_AUX = s.getF Reg.PWR_AUX) ∧
        ((recSeq (Sparse.at [] t.log.flash 0), leAt (Sparse.at [] t.log.flash 0) 0x12 2, leAt (Sparse.at [] t.log.flash 0) 0x20 4) = (0, 5, s.lcState)) ∧
        (t.pending = s.pending)) ∧
  (∀ (s : State),
      (s.canonical = true) →
      (s.isF Reg.LCS_STATUS_PENDING = false) →
      (s.lcState = 1) →
      Completes (.lcLock) s fun t =>
        (SetsFields s t (Reg.LCS_STATUS.addr 0 0) [(Reg.LCS_STATUS_LOCK, 1), (Reg.LCS_STATUS_CMD_RESULT, 1)]) ∧
        (Raises s t 14 [0]) ∧
        (OnlyRegs s t [(Reg.LCS_STATUS.addr 0 0), (Reg.SYS_IRQ_CAUSE.addr 14 0)]) ∧
        (t = { s with regs := t.regs })) ∧
  (∀ (s : State),
      (s.canonical = true) →
      (s.isF Reg.LCS_STATUS_PENDING = false) →
      (s.lcState ≠ 1) →
      Completes (.lcLock) s fun t =>
        (SetsField s t Reg.LCS_STATUS_CMD_RESULT 0 5) ∧
        (Raises s t 14 [0]) ∧
        (OnlyRegs s t [(Reg.LCS_STATUS.addr 0 0), (Reg.SYS_IRQ_CAUSE.addr 14 0)]) ∧
        (t = { s with regs := t.regs })) ∧
  (∀ (s : State) (now : Nat) (r : AuthRec),
      (s.canonical = true) →
      (s.isF Reg.LCS_STATUS_PENDING = false) →
      (s.lcRecord = some r) →
      (r.op = 2) →
      (s.nonceOk r.nonce now = true) →
      Completes (.debugUnlock now) s fun t =>
        (t.isF Reg.LCS_STATUS_DEBUG = (s.isF Reg.LCS_STATUS_DEBUG || s.signedBy r (if s.lcState = 3 then [Signer.slot 1] else [Signer.enrolled useDebug]))) ∧
        (t.sec = if s.signedBy r (if s.lcState = 3 then [Signer.slot 1] else [Signer.enrolled useDebug]) then { s.sec with nonce := none } else s.sec) ∧
        (t.getF Reg.LCS_STATUS_CMD_RESULT = if s.signedBy r (if s.lcState = 3 then [Signer.slot 1] else [Signer.enrolled useDebug]) then 1 else 4) ∧
        (s.signedBy r (if s.lcState = 3 then [Signer.slot 1] else [Signer.enrolled useDebug]) = false ∨ t.events = s.events ++ [LogEvent.mk 0x0E06 0xFFFF [r.slot1]]) ∧
        (OnlyRegs s t ([(Reg.LCS_STATUS.addr 0 0), (Reg.SYS_IRQ_CAUSE.addr 14 0)] ++ (List.range 4).map fun k => Reg.LCS_NONCE.addr k 0)) ∧
        (t = { s with regs := t.regs, sec := t.sec, events := t.events })) ∧
  (∀ (s : State) (now : Nat),
      (s.canonical = true) →
      (s.isF Reg.LCS_STATUS_PENDING = false) →
      (s.lcRecord = none) →
      Completes (.debugUnlock now) s fun t =>
        (SetsField s t Reg.LCS_STATUS_CMD_RESULT 0 3) ∧
        (Raises s t 14 [0]) ∧
        (OnlyRegs s t [(Reg.LCS_STATUS.addr 0 0), (Reg.SYS_IRQ_CAUSE.addr 14 0)]) ∧
        (t = { s with regs := t.regs })) ∧
  (∀ (s : State) (now : Nat) (r : AuthRec),
      (s.canonical = true) →
      (s.isF Reg.LCS_STATUS_PENDING = false) →
      (s.lcRecord = some r) →
      (r.op = 3 ∨ r.op = 4) →
      (s.nonceOk r.nonce now = true) →
      ((if r.op = 3 then s.sec.minImg else s.sec.minFw).getLast?.getD 0 < r.value) →
      (r.value ≤ (if r.op = 3 then s.getF Reg.CFG_IMAGE_SERIAL else s.getF Reg.SYS_FW_SERIAL)) →
      ((if r.op = 3 then s.sec.minImg else s.sec.minFw).length < 16) →
      Completes (.raiseMin now) s fun t =>
        (t.sec = if s.signedBy r (if r.op = 4 ∧ r.slot1 = 0 ∧ s.vslotMay 0 useFirmware = true then [Signer.slot 0] else [Signer.enrolled useLifecycle]) then (if r.op = 3 then { s.sec with nonce := none, minImg := s.sec.minImg ++ [r.value] } else { s.sec with nonce := none, minFw := s.sec.minFw ++ [r.value] }) else s.sec) ∧
        (t.getF Reg.LCS_STATUS_CMD_RESULT = if s.signedBy r (if r.op = 4 ∧ r.slot1 = 0 ∧ s.vslotMay 0 useFirmware = true then [Signer.slot 0] else [Signer.enrolled useLifecycle]) then 1 else 4) ∧
        (s.signedBy r (if r.op = 4 ∧ r.slot1 = 0 ∧ s.vslotMay 0 useFirmware = true then [Signer.slot 0] else [Signer.enrolled useLifecycle]) = false ∨ (t.events = s.events ++ [LogEvent.mk 0x0E07 0xFFFF [r.op, r.value]] ∧ t.getF Reg.LCS_MIN_IMG = (t.sec.minImg.getLast?.getD 0) % 2 ^ 32 ∧ t.getF Reg.LCS_MIN_FW = (t.sec.minFw.getLast?.getD 0) % 2 ^ 32)) ∧
        (OnlyRegs s t ([(Reg.LCS_STATUS.addr 0 0), (Reg.SYS_IRQ_CAUSE.addr 14 0), (Reg.LCS_MIN_IMG.addr 0 0), (Reg.LCS_MIN_FW.addr 0 0)] ++ (List.range 4).map fun k => Reg.LCS_NONCE.addr k 0)) ∧
        (t = { s with regs := t.regs, sec := t.sec, events := t.events })) ∧
  (∀ (s : State) (bs : List Byte),
      (s.canonical = true) →
      (s.isF Reg.LCS_STATUS_PENDING = false) →
      (s.lcState = 1) →
      (s.lcBytes = some bs) →
      Completes (.enrol) s fun t =>
        (s.enrolled t bs = true) ∧
        (OnlyRegs s t ([(Reg.LCS_STATUS.addr 0 0), (Reg.SYS_IRQ_CAUSE.addr 14 0)] ++ (List.range 24).map fun i => Reg.SEC_SLOT.addr i 0)) ∧
        (t = { s with regs := t.regs, sec := t.sec, events := t.events })) ∧
  (∀ (s : State),
      (s.canonical = true) →
      (s.isF Reg.LCS_STATUS_PENDING = false) →
      (s.lcState ≠ 1) →
      Completes (.enrol) s fun t =>
        (SetsField s t Reg.LCS_STATUS_CMD_RESULT 0 5) ∧
        (Raises s t 14 [0]) ∧
        (OnlyRegs s t [(Reg.LCS_STATUS.addr 0 0), (Reg.SYS_IRQ_CAUSE.addr 14 0)]) ∧
        (t = { s with regs := t.regs })) ∧
  (∀ (s : State) (bs : List Byte),
      (s.canonical = true) →
      (s.isF Reg.LCS_STATUS_PENDING = false) →
      (s.lcState = 1 ∨ s.lcState = 2) →
      (s.lcBytes = some bs) →
      Completes (.revoke) s fun t =>
        (s.revoked t bs = true) ∧
        (OnlyRegs s t ([(Reg.LCS_STATUS.addr 0 0), (Reg.SYS_IRQ_CAUSE.addr 14 0)] ++ (List.range 24).map fun i => Reg.SEC_SLOT.addr i 0)) ∧
        (t = { s with regs := t.regs, sec := t.sec, events := t.events })) ∧
  (∀ (s : State) (bs : List Byte),
      (s.canonical = true) →
      (s.isF Reg.LCS_STATUS_PENDING = false) →
      (s.lcBytes = some bs) →
      (bs.length = 64) →
      (leAt bs 0 1 < 8) →
      (leAt bs 3 1 = 0) →
      (8 ≤ leAt bs 2 1) →
      (s.sslotMay (leAt bs 2 1) useWrap = true) →
      Completes (.loadSlot) s fun t =>
        (s.slotLoaded t bs = true) ∧
        (OnlyRegs s t ([(Reg.LCS_STATUS.addr 0 0), (Reg.SYS_IRQ_CAUSE.addr 14 0)] ++ (List.range 24).map fun i => Reg.SEC_SLOT.addr i 0)) ∧
        (t = { s with regs := t.regs, sec := t.sec })) ∧
  (∀ (s : State) (n : Nat),
      (s.canonical = true) →
      (s.isF Reg.LCS_STATUS_PENDING = false) →
      (s.getF Reg.LCS_SRC_LEN / 2 ^ 28 = n) →
      (n < 8) →
      Completes (.clearSlot) s fun t =>
        (SetsField s t Reg.LCS_STATUS_CMD_RESULT 0 1) ∧
        (Raises s t 14 [0]) ∧
        (t.sec = { s.sec with skey := Sparse.erase s.sec.skey n, loads := Sparse.erase s.sec.loads n }) ∧
        (t.rd (Reg.SEC_SLOT.addr (8 + n) 0) = (s.showSlot (8 + n)).rd (Reg.SEC_SLOT.addr (8 + n) 0)) ∧
        (OnlyRegs s t [(Reg.LCS_STATUS.addr 0 0), (Reg.SYS_IRQ_CAUSE.addr 14 0), (Reg.SEC_SLOT.addr (8 + n) 0)]) ∧
        (t = { s with regs := t.regs, sec := t.sec })) ∧
  (∀ (s : State),
      (s.canonical = true) →
      (s.isF Reg.LCS_STATUS_PENDING = false) →
      (8 ≤ s.getF Reg.LCS_SRC_LEN / 2 ^ 28) →
      Completes (.clearSlot) s fun t =>
        (SetsField s t Reg.LCS_STATUS_CMD_RESULT 0 5) ∧
        (Raises s t 14 [0]) ∧
        (OnlyRegs s t [(Reg.LCS_STATUS.addr 0 0), (Reg.SYS_IRQ_CAUSE.addr 14 0)]) ∧
        (t = { s with regs := t.regs })) ∧
  (∀ (s : State) (now : Nat),
      (s.sec.nonce = none) →
      Completes (.nonceLapse now) s fun t =>
        (t = s)) ∧
  (∀ (s : State) (now d : Nat) (n : List Byte),
      (s.sec.nonce = some (n, d)) →
      (now ≤ d + 60000000000) →
      Completes (.nonceLapse now) s fun t =>
        (t = s)) ∧
  (∀ (s : State) (now : Nat),
      (s.sec.change = none) →
      Completes (.lcChangeStepComplete now) s fun t =>
        (t = s)) ∧
  (∀ (s : State) (now : Nat),
      (s.isF Reg.LCS_STATUS_PENDING = true ∨ (s.changeOwed = false ∧ s.isF Reg.LOG_STATUS_READY = true) ∨ s.runs 39 = false) →
      Completes (.logRecover now) s fun t =>
        (t = s)) ∧
  (∀ (s : State),
      (s.canonical = true) →
      (s.isF Reg.LCS_STATUS_PENDING = false) →
      (s.lcState ≠ 1) →
      (s.lcState ≠ 2) →
      Completes (.revoke) s fun t =>
        (SetsField s t Reg.LCS_STATUS_CMD_RESULT 0 5) ∧
        (Raises s t 14 [0]) ∧
        (OnlyRegs s t [(Reg.LCS_STATUS.addr 0 0), (Reg.SYS_IRQ_CAUSE.addr 14 0)]) ∧
        (t = { s with regs := t.regs })) ∧
  (∀ (s : State),
      (s.canonical = true) →
      (s.isF Reg.LCS_STATUS_PENDING = false) →
      (s.lcState = 1 ∨ s.lcState = 2) →
      (s.lcBytes = none) →
      Completes (.revoke) s fun t =>
        (SetsField s t Reg.LCS_STATUS_CMD_RESULT 0 3) ∧
        (Raises s t 14 [0]) ∧
        (OnlyRegs s t [(Reg.LCS_STATUS.addr 0 0), (Reg.SYS_IRQ_CAUSE.addr 14 0)]) ∧
        (t = { s with regs := t.regs })) ∧
  (∀ (s : State),
      (s.canonical = true) →
      (s.isF Reg.LCS_STATUS_PENDING = false) →
      (s.lcState = 1) →
      (s.lcBytes = none) →
      Completes (.enrol) s fun t =>
        (SetsField s t Reg.LCS_STATUS_CMD_RESULT 0 3) ∧
        (Raises s t 14 [0]) ∧
        (OnlyRegs s t [(Reg.LCS_STATUS.addr 0 0), (Reg.SYS_IRQ_CAUSE.addr 14 0)]) ∧
        (t = { s with regs := t.regs })) ∧
  (∀ (s : State),
      (s.canonical = true) →
      (s.isF Reg.LCS_STATUS_PENDING = false) →
      (s.lcBytes = none) →
      Completes (.loadSlot) s fun t =>
        (SetsField s t Reg.LCS_STATUS_CMD_RESULT 0 3) ∧
        (Raises s t 14 [0]) ∧
        (OnlyRegs s t [(Reg.LCS_STATUS.addr 0 0), (Reg.SYS_IRQ_CAUSE.addr 14 0)]) ∧
        (t = { s with regs := t.regs })) ∧
  (∀ (s : State) (bs : List Byte),
      (s.canonical = true) →
      (s.isF Reg.LCS_STATUS_PENDING = false) →
      (s.lcBytes = some bs) →
      (bs.length ≠ 64 ∨ 8 ≤ leAt bs 0 1 ∨ leAt bs 3 1 ≠ 0) →
      Completes (.loadSlot) s fun t =>
        (SetsField s t Reg.LCS_STATUS_CMD_RESULT 0 3) ∧
        (Raises s t 14 [0]) ∧
        (OnlyRegs s t [(Reg.LCS_STATUS.addr 0 0), (Reg.SYS_IRQ_CAUSE.addr 14 0)]) ∧
        (t = { s with regs := t.regs })) ∧
  (∀ (s : State) (i : Nat),
      (i ≤ 1 ∨ (i = 2 ∧ s.lcState ≠ 4) ∨ (i = 4 ∧ (s.lcState = 0 ∨ (s.isF Reg.LCS_STATUS_DEBUG = true ∧ s.lcState ≠ 4)))) →
      Completes (.jtagInstruction i) s fun t =>
        (t.outbox = s.outbox ++ [Out.mk .jtag [i]]) ∧
        (t = { s with outbox := t.outbox })) ∧
  (∀ (s : State) (i : Nat),
      ((2 ≤ i ∧ s.lcState = 4) ∨ 5 ≤ i ∨ (3 ≤ i ∧ s.lcState ≠ 0 ∧ s.isF Reg.LCS_STATUS_DEBUG = false) ∨ (i = 3 ∧ (s.isF Reg.TWN_STATUS_LOCK = true ∨ s.twn.twinClaim = true))) →
      Completes (.jtagInstruction i) s fun t =>
        (t.outbox = s.outbox ++ [Out.mk .jtag [0]]) ∧
        (t = { s with outbox := t.outbox })) ∧
  (∀ (s : State) (now : Nat),
      (s.canonical = true) →
      (s.isF Reg.LCS_STATUS_PENDING = false) →
      (s.runs 39 = true) →
      (s.isF Reg.LOG_STATUS_READY = false) →
      (s.lcState ≠ s.heartState) →
      Completes (.logRecover now) s fun t =>
        (t.sec = { s.sec with resumed := true, change := some (s.lcState, []) }) ∧
        (SetsFields s t (Reg.LCS_STATUS.addr 0 0) [(Reg.LCS_STATUS_PENDING, 1), (Reg.LCS_STATUS_STEP, 5)]) ∧
        (OnlyRegs s t [(Reg.LCS_STATUS.addr 0 0)]) ∧
        (t = { s with regs := t.regs, sec := t.sec })) ∧
  (∀ (s : State) (now : Nat),
      (s.canonical = true) →
      (s.isF Reg.LCS_STATUS_PENDING = false) →
      (s.runs 39 = true) →
      (s.isF Reg.LOG_STATUS_READY = false) →
      (s.lcState = s.heartState) →
      (s.log.failBlock = []) →
      (s.log.island = []) →
      (s.log.queue = []) →
      (s.log.spill = []) →
      (s.log.lost = 0) →
      Completes (.logRecover now) s fun t =>
        (t.isF Reg.LOG_STATUS_READY = true) ∧
        (t.log.slot = (match s.newest with | some (w, _, _) => s.writePoint w | none => 0)) ∧
        (t.log.boot = (match s.newest with | some (_, _, b) => (b + 1) % 65536 | none => 0)) ∧
        (t.log.next = max s.log.next (match s.newest with | some (_, q, _) => q + 1 | none => 0) + 1) ∧
        ((t.log.queue.map fun r => leAt r 18 2) = [1]) ∧
        (t.getF Reg.LOG_BOOT = t.log.boot % 2 ^ 32) ∧
        (OnlyRegs s t (Reg.LOG_BOOT.addr 0 0 :: Reg.LOG_CRC_SKIP.addr 0 0 :: logRegs)) ∧
        (t = { s with regs := t.regs, log := t.log }))

/-- A power-on reset with an input within its thresholds, or CHG_DETECT high for 10 ms in SHIP, clears everything but fuses and flash, latches
the straps and starts at the regulators. A reset pin low for 1 µs, a confirmed command, the watchdog and an overheated Hub reset the module;
each sets its cause beside the earlier ones, and start-up goes on from the step after the last that holds. A wrong confirmation answers
BAD_CONFIRM, a shorter pulse changes nothing. The watchdog records its expiry, and resets cold within 10 s of its last warm one. The Hub
stays in reset until it has cooled. PERST restarts the endpoint alone. Steps 1 to 4 complete in order; step 1 or 2 that fails is repeated
once 1 s later, then given up; without memory or firmware the failure shows and is recorded. J3 takes firmware, or a full image that passes
the checks. -/
def Obligations.ResetsAndStartUp : Prop :=
  (∀ (s : State) (straps bad auxA auxB : Nat) (okA okB : Bool),
      (s.canonical = true) →
      (okA = true ∨ okB = true) →
      (okA = false ∨ mayRun auxA 630 = true) →
      (okB = false ∨ mayRun auxB 630 = true) →
      (bad = 0) →
      (thermometer s.sec.lcCount ≠ none) →
      Completes (.powerOnReset straps bad auxA auxB okA okB) s fun t =>
        (s.cleared t) ∧
        (t.controlReset) ∧
        (t.getF Reg.PWR_STATUS_START_STEP = 1) ∧
        (t.getF Reg.SYS_STRAPS_SHELF_ID = bitsOf straps 5 3) ∧
        (t.getF Reg.SYS_STRAPS_TWIN_SLOT = bitsOf straps 4 1) ∧
        (t.getF Reg.SYS_STRAPS_BOOTSEQ = t.getF Reg.PWR_STATUS_ORDER) ∧
        (t.isF Reg.PWR_STATUS_AUX_A_OK = okA) ∧
        (t.isF Reg.PWR_STATUS_AUX_B_OK = okB) ∧
        (t.getF Reg.PWR_AUX_AUX_A = min auxA 65535) ∧
        (t.getF Reg.PWR_STATUS_START_FAIL = 0) ∧
        (t.isF Reg.PWR_RESET_CAUSE_POWER_ON = (State.reset.isF Reg.PWR_RESET_CAUSE_POWER_ON)) ∧
        (t.events = [])) ∧
  (∀ (s : State) (straps bad auxA auxB : Nat) (okA okB : Bool),
      (s.canonical = true) →
      (okA = true ∨ okB = true) →
      (okA = false ∨ mayRun auxA 630 = true) →
      (okB = false ∨ mayRun auxB 630 = true) →
      (bitOf bad 0 = true ∨ bitOf bad 1 = true) →
      Completes (.powerOnReset straps bad auxA auxB okA okB) s fun t =>
        (t.getF Reg.PWR_STATUS_START_FAIL = 4) ∧
        (t.pwr.stuck = true) ∧
        (t.events.contains (LogEvent.mk 0x0E08 0xFFFF [if bitOf bad 0 then 0 else 1]) = true)) ∧
  (∀ (s : State) (straps bad auxA auxB : Nat) (okA okB : Bool),
      ((okA = false ∧ okB = false) ∨ (okA = true ∧ mayRun auxA 630 = false) ∨ (okB = true ∧ mayRun auxB 630 = false)) →
      Completes (.powerOnReset straps bad auxA auxB okA okB) s fun t =>
        (t = s)) ∧
  (∀ (s : State) (svc : Bool) (lowNs now : Nat),
      (s.canonical = true) →
      (1000 ≤ lowNs) →
      (s.dead = false) →
      (svc = true) →
      Completes (.resetPin svc lowNs now) s fun t =>
        (s.coldReset t Reg.PWR_RESET_CAUSE_SVC_RESET) ∧
        (t.controlReset)) ∧
  (∀ (s : State) (svc : Bool) (lowNs now : Nat),
      (s.canonical = true) →
      (1000 ≤ lowNs) →
      (s.dead = false) →
      (svc = false) →
      Completes (.resetPin svc lowNs now) s fun t =>
        (s.coldReset t Reg.PWR_RESET_CAUSE_RESET_PIN) ∧
        (t.controlReset)) ∧
  (∀ (s : State) (svc : Bool) (lowNs now : Nat),
      (lowNs < 1000 ∨ s.dead = true) →
      Completes (.resetPin svc lowNs now) s fun t =>
        (t = s)) ∧
  (∀ (s : State) (confirm now : Nat),
      (s.canonical = true) →
      (confirm = 0xA5) →
      Completes (.warmReset confirm now) s fun t =>
        (s.coldReset t Reg.PWR_RESET_CAUSE_CMD_WARM) ∧
        (t.controlReset) ∧
        (t.getF Reg.PWR_STATUS_CMD_RESULT = 1)) ∧
  (∀ (s : State) (confirm now : Nat),
      (s.canonical = true) →
      (confirm = 0xA5) →
      Completes (.coldReset confirm now) s fun t =>
        (s.coldReset t Reg.PWR_RESET_CAUSE_CMD_COLD) ∧
        (t.controlReset) ∧
        (t.getF Reg.PWR_STATUS_CMD_RESULT = 1)) ∧
  (∀ (s : State) (confirm now : Nat),
      (s.canonical = true) →
      (confirm ≠ 0xA5) →
      Completes (.warmReset confirm now) s fun t =>
        (SetsField s t Reg.PWR_STATUS_CMD_RESULT 0 4) ∧
        (OnlyRegs s t [(Reg.PWR_STATUS.addr 0 0)]) ∧
        (t = { s with regs := t.regs })) ∧
  (∀ (s : State) (confirm now : Nat),
      (s.canonical = true) →
      (confirm ≠ 0xA5) →
      Completes (.coldReset confirm now) s fun t =>
        (SetsField s t Reg.PWR_STATUS_CMD_RESULT 0 4) ∧
        (OnlyRegs s t [(Reg.PWR_STATUS.addr 0 0)]) ∧
        (t = { s with regs := t.regs })) ∧
  (∀ (s : State) (now : Nat),
      (s.canonical = true) →
      (s.isF Reg.PWR_WDT_EN = true) →
      (s.runs 35 = true) →
      (s.dead = false) →
      (s.pwr.wdtAt = none) →
      Completes (.watchdog now) s fun t =>
        (s.coldReset t Reg.PWR_RESET_CAUSE_WDT_WARM) ∧
        (t.controlReset) ∧
        (t.pwr.wdtAt = some 0) ∧
        (t.pwr.expiries = s.pwr.expiries + 1) ∧
        (t.events = [LogEvent.mk 0x0D03 0xFFFF [s.pwr.expiries + 1, 0]])) ∧
  (∀ (s : State) (now : Nat) (w : Int),
      (s.canonical = true) →
      (s.isF Reg.PWR_WDT_EN = true) →
      (s.runs 35 = true) →
      (s.dead = false) →
      (s.pwr.wdtAt = some w) →
      ((now : Int) ≤ w + 10000000000) →
      Completes (.watchdog now) s fun t =>
        (s.coldReset t Reg.PWR_RESET_CAUSE_WDT_COLD) ∧
        (t.controlReset) ∧
        (t.pwr.wdtAt = none) ∧
        (t.pwr.expiries = s.pwr.expiries + 1) ∧
        (t.events = [LogEvent.mk 0x0D03 0xFFFF [s.pwr.expiries + 1, 1]])) ∧
  (∀ (s : State) (temp : Int) (now : Nat),
      (s.canonical = true) →
      (s.dead = false) →
      (s.pwr.held = false) →
      (1250 < temp) →
      Completes (.hubOverheatReset temp now) s fun t =>
        (s.cleared t) ∧
        (t.controlReset) ∧
        (t.pwr.held = true) ∧
        (t.getF Reg.PWR_STATUS_STATE = 4) ∧
        (t.isF Reg.PWR_RESET_CAUSE_CMD_COLD = true) ∧
        (t.events = [LogEvent.mk 0x0D07 2 [2, unsign 32 temp]])) ∧
  (∀ (s : State) (temp : Int) (now : Nat),
      (s.canonical = true) →
      (s.dead = false) →
      (s.pwr.held = true) →
      (temp < 1000) →
      Completes (.hubOverheatReset temp now) s fun t =>
        (t.pwr.held = false) ∧
        (t.getF Reg.PWR_STATUS_STATE = 0) ∧
        (t.getF Reg.PWR_STATUS_START_STEP = s.nextStep)) ∧
  (∀ (s : State) (asserted : Bool),
      (s.canonical = true) →
      (s.dead = false) →
      Completes (.pciePerst asserted) s fun t =>
        (t.irq = ({} : IrqState)) ∧
        (t.waiting = s.waiting.filter fun (x : Access) => decide (x.path ≠ 0)) ∧
        (t.host = { s.host with perst := asserted, link := 2, d3 := false }) ∧
        (t.rd (Reg.MEMWIN_BASE_LO.addr 0 0) = 0#32) ∧
        (t.rd (Reg.MEMWIN_BASE_HI.addr 0 0) = 0#32) ∧
        (t.runs 14 = (!asserted && (s.isF Reg.CLK_STATUS_PLL_LOCK || decide (s.getF Reg.PWR_STATUS_STATE = 3)) && !s.pwr.held)) ∧
        (OnlyRegs s t [(Reg.MEMWIN_BASE_LO.addr 0 0), (Reg.MEMWIN_BASE_HI.addr 0 0), (Reg.PWR_DOM_STATUS_LO.addr 0 0)]) ∧
        (t = { s with regs := t.regs, irq := t.irq, waiting := t.waiting, latch := t.latch, held := t.held, host := t.host })) ∧
  (∀ (s : State) (step serial now : Nat),
      (s.canonical = true) →
      (s.startBlocked = false) →
      (s.pwr.stepAt ≤ now) →
      (step = 1) →
      (s.getF Reg.PWR_STATUS_START_STEP ≤ 1) →
      Completes (.startupStepComplete step serial now) s fun t =>
        (SetsFields s t (Reg.PWR_STATUS.addr 0 0) [(Reg.PWR_STATUS_START_STEP, 2), (Reg.PWR_STATUS_START_FAIL, if s.isF Reg.PWR_STATUS_MEM_FAIL then 3 else 0)]) ∧
        (t.pwr = { s.pwr with stepAt := now }) ∧
        (OnlyRegs s t [(Reg.PWR_STATUS.addr 0 0)]) ∧
        (t = { s with regs := t.regs, pwr := t.pwr })) ∧
  (∀ (s : State) (step serial now : Nat),
      (s.canonical = true) →
      (s.startBlocked = false) →
      (s.pwr.stepAt ≤ now) →
      (step = 2) →
      (s.getF Reg.PWR_STATUS_START_STEP = 2) →
      Completes (.startupStepComplete step serial now) s fun t =>
        (t.isF Reg.CLK_STATUS_PLL_LOCK = true) ∧
        (t.getF Reg.PWR_STATUS_START_STEP = (if s.isF Reg.PWR_STATUS_ORDER then 3 else 4)) ∧
        (t.runs 1 = true) ∧
        (t.runs 39 = true) ∧
        (t.runs 14 = !s.host.perst) ∧
        (t.pwr.stepAt = now) ∧
        (s.pwr.burnt ≠ 0 ∨ (t.isF Reg.TH_DIE_STATUS_ON 0 = true ∧ t.isF Reg.TH_DIE_STATUS_ON 1 = true))) ∧
  (∀ (s : State) (step serial now : Nat),
      (s.canonical = true) →
      (s.startBlocked = false) →
      (s.pwr.stepAt ≤ now) →
      (step = 3) →
      (s.isF Reg.CLK_STATUS_PLL_LOCK = true) →
      (s.isF Reg.CTX_STATUS_READY = true) →
      (s.getF Reg.PWR_START_MEM_MS = 0) →
      (s.sequenced = true) →
      (s.getF Reg.PWR_STATUS_START_STEP = 3) →
      Completes (.startupStepComplete step serial now) s fun t =>
        (SetsFields s t (Reg.PWR_STATUS.addr 0 0) [(Reg.PWR_STATUS_START_STEP, 4), (Reg.PWR_STATUS_START_FAIL, if s.isF Reg.PWR_STATUS_MEM_FAIL then 3 else 0)]) ∧
        (t.pwr = { s.pwr with stepAt := now }) ∧
        (SetsField s t Reg.PWR_START_MEM_MS 0 (min ((now - s.pwr.origin) / 1000000) 0xFFFE)) ∧
        (OnlyRegs s t [(Reg.PWR_STATUS.addr 0 0), (Reg.PWR_START.addr 0 0)]) ∧
        (t = { s with regs := t.regs, pwr := t.pwr })) ∧
  (∀ (s : State) (step serial now : Nat),
      (s.canonical = true) →
      (s.startBlocked = false) →
      (s.pwr.stepAt ≤ now) →
      (step = 3) →
      (s.isF Reg.CLK_STATUS_PLL_LOCK = true) →
      (s.isF Reg.CTX_STATUS_READY = true) →
      (s.getF Reg.PWR_START_MEM_MS = 0) →
      (s.sequenced = false) →
      Completes (.startupStepComplete step serial now) s fun t =>
        (SetsField s t Reg.PWR_START_MEM_MS 0 (min ((now - s.pwr.origin) / 1000000) 0xFFFE)) ∧
        (OnlyRegs s t [(Reg.PWR_START.addr 0 0)]) ∧
        (t = { s with regs := t.regs })) ∧
  (∀ (s : State) (step serial now : Nat),
      (s.canonical = true) →
      (s.startBlocked = false) →
      (s.pwr.stepAt ≤ now) →
      (step = 4) →
      (s.isF Reg.CLK_STATUS_PLL_LOCK = true) →
      (s.getF Reg.PWR_STATUS_START_STEP = 4) →
      (s.pwr.fwRuns = false) →
      (s.changeOwed = false) →
      (s.sec.firmware.isSome = true) →
      (s.getF Reg.LCS_MIN_FW ≤ serial) →
      Completes (.startupStepComplete step serial now) s fun t =>
        (SetsFields s t (Reg.PWR_STATUS.addr 0 0) [(Reg.PWR_STATUS_START_STEP, 5), (Reg.PWR_STATUS_START_FAIL, if s.isF Reg.PWR_STATUS_MEM_FAIL then 3 else 0)]) ∧
        (t.pwr = { s.pwr with fwRuns := true, stepAt := now }) ∧
        (SetsField s t Reg.SYS_FW_SERIAL 0 serial) ∧
        (s.pwr.recover = true ∨ t.runs 32 = false) ∧
        (OnlyRegs s t [(Reg.PWR_STATUS.addr 0 0), (Reg.SYS_FW_SERIAL.addr 0 0), (Reg.PWR_DOM_STATUS_LO.addr 0 0)]) ∧
        (t = { s with regs := t.regs, pwr := t.pwr })) ∧
  (∀ (s : State) (step : Nat) (wipe : Bool) (now : Nat),
      (s.canonical = true) →
      (s.startBlocked = false) →
      ((step = 1 ∧ s.getF Reg.PWR_STATUS_START_STEP ≤ 1) ∨ (step = 2 ∧ s.getF Reg.PWR_STATUS_START_STEP = 2)) →
      (s.pwr.stepAt + 20000000 < now) →
      (s.pwr.retried = false) →
      Completes (.startupStepTimeout step wipe now) s fun t =>
        (t.getF Reg.PWR_STATUS_START_FAIL = step) ∧
        (t.getF Reg.PWR_STATUS_START_STEP = 1) ∧
        (t.pwr = { s.pwr with retried := true, stepAt := now + 1000000000 }) ∧
        (t.events = s.events ++ [LogEvent.mk 0x0D04 0xFFFF [step, step]]) ∧
        (t = { s with regs := t.regs, pwr := t.pwr, events := t.events })) ∧
  (∀ (s : State) (step : Nat) (wipe : Bool) (now : Nat),
      (s.canonical = true) →
      (s.startBlocked = false) →
      ((step = 1 ∧ s.getF Reg.PWR_STATUS_START_STEP ≤ 1) ∨ (step = 2 ∧ s.getF Reg.PWR_STATUS_START_STEP = 2)) →
      (s.pwr.stepAt + 20000000 < now) →
      (s.pwr.retried = true) →
      Completes (.startupStepTimeout step wipe now) s fun t =>
        (t.getF Reg.PWR_STATUS_START_FAIL = step) ∧
        (t.pwr = { s.pwr with stuck := true }) ∧
        ((List.range 41).all (fun n => t.runs n == decide (n = 32 ∨ n = 33 ∨ n = 40) || decide (n = 0)) = true) ∧
        (t.events = s.events ++ [LogEvent.mk 0x0D04 0xFFFF [step, step]]) ∧
        (t = { s with regs := t.regs, pwr := t.pwr, events := t.events })) ∧
  (∀ (s : State) (step : Nat) (wipe : Bool) (now : Nat),
      (s.canonical = true) →
      (s.startBlocked = false) →
      (step = 3) →
      (s.isF Reg.CLK_STATUS_PLL_LOCK = true) →
      (s.isF Reg.CTX_STATUS_READY = false) →
      (s.isF Reg.PWR_STATUS_MEM_FAIL = false) →
      (wipe = false ∨ s.pwr.stepAt + 100000000 < now) →
      Completes (.startupStepTimeout step wipe now) s fun t =>
        (t.isF Reg.PWR_STATUS_MEM_FAIL = true) ∧
        (t.getF Reg.PWR_STATUS_START_FAIL = 3) ∧
        (t.getF Reg.PWR_START_MEM_MS = 0xFFFF) ∧
        (t.getF Reg.PWR_STATUS_START_STEP = (if s.sequenced ∧ s.getF Reg.PWR_STATUS_START_STEP = 3 then 4 else s.getF Reg.PWR_STATUS_START_STEP)) ∧
        (t.events = s.events ++ [LogEvent.mk 0x0D05 0xFFFF [ofBool wipe]]) ∧
        (OnlyRegs s t [(Reg.PWR_STATUS.addr 0 0), (Reg.PWR_START.addr 0 0), (Reg.CTX_STATUS.addr 0 0)]) ∧
        (t = { s with regs := t.regs, pwr := t.pwr, events := t.events })) ∧
  (∀ (s : State) (step : Nat) (wipe : Bool) (now : Nat),
      (s.canonical = true) →
      (s.startBlocked = false) →
      (step = 4) →
      (s.pwr.fwRuns = false) →
      (s.getF Reg.PWR_STATUS_START_STEP = 4 ∨ (s.getF Reg.PWR_STATUS_START_STEP ≤ 2 ∧ s.sequenced = false)) →
      Completes (.startupStepTimeout step wipe now) s fun t =>
        (SetsField s t Reg.PWR_STATUS_START_FAIL 0 4) ∧
        (t.pwr = { s.pwr with stuck := true }) ∧
        (t.events = s.events ++ [LogEvent.mk 0x0D04 0xFFFF [s.getF Reg.PWR_STATUS_START_STEP, 4]]) ∧
        (OnlyRegs s t [(Reg.PWR_STATUS.addr 0 0)]) ∧
        (t = { s with regs := t.regs, pwr := t.pwr, events := t.events })) ∧
  (∀ (s : State) (now : Nat),
      (s.isF Reg.PWR_WDT_EN = false ∨ s.runs 35 = false ∨ s.dead = true) →
      Completes (.watchdog now) s fun t =>
        (t = s)) ∧
  (∀ (s : State) (temp : Int) (now : Nat),
      (s.dead = true ∨ (s.pwr.held = true ∧ 1000 ≤ temp) ∨ (s.pwr.held = false ∧ temp ≤ 1250)) →
      Completes (.hubOverheatReset temp now) s fun t =>
        (t = s)) ∧
  (∀ (s : State) (asserted : Bool),
      (s.dead = true) →
      Completes (.pciePerst asserted) s fun t =>
        (t = s)) ∧
  (∀ (s : State) (step serial now : Nat),
      (s.startBlocked = true ∨ now < s.pwr.stepAt ∨ step = 0 ∨ 4 < step ∨ (step = 1 ∧ 1 < s.getF Reg.PWR_STATUS_START_STEP) ∨ (step = 2 ∧ s.getF Reg.PWR_STATUS_START_STEP ≠ 2) ∨ (step = 3 ∧ (s.isF Reg.CLK_STATUS_PLL_LOCK = false ∨ s.isF Reg.CTX_STATUS_READY = false)) ∨ (step = 4 ∧ (s.pwr.fwRuns = true ∨ s.changeOwed = true ∨ s.sec.firmware = none ∨ serial < s.getF Reg.LCS_MIN_FW))) →
      Completes (.startupStepComplete step serial now) s fun t =>
        (t = s)) ∧
  (∀ (s : State) (step serial now : Nat),
      (s.canonical = true) →
      (s.startBlocked = false) →
      (s.pwr.stepAt ≤ now) →
      (step = 4) →
      (s.getF Reg.PWR_STATUS_START_STEP ≤ 2) →
      (s.sequenced = false) →
      (s.pwr.fwRuns = false) →
      (s.changeOwed = false) →
      (s.sec.firmware.isSome = true) →
      (s.getF Reg.LCS_MIN_FW ≤ serial) →
      Completes (.startupStepComplete step serial now) s fun t =>
        (t.pwr = { s.pwr with fwRuns := true }) ∧
        (SetsField s t Reg.SYS_FW_SERIAL 0 serial) ∧
        (s.pwr.recover = true ∨ t.runs 32 = false) ∧
        (OnlyRegs s t [(Reg.SYS_FW_SERIAL.addr 0 0), (Reg.PWR_DOM_STATUS_LO.addr 0 0)]) ∧
        (t = { s with regs := t.regs, pwr := t.pwr })) ∧
  (∀ (s : State) (step : Nat) (wipe : Bool) (now : Nat),
      (s.startBlocked = true ∨ ((step = 1 ∨ step = 2) ∧ now ≤ s.pwr.stepAt + 20000000) ∨ (step = 3 ∧ (s.isF Reg.CLK_STATUS_PLL_LOCK = false ∨ s.isF Reg.CTX_STATUS_READY = true ∨ s.isF Reg.PWR_STATUS_MEM_FAIL = true ∨ (wipe = true ∧ now ≤ s.pwr.stepAt + 100000000))) ∨ (step = 4 ∧ (s.pwr.fwRuns = true ∨ (s.getF Reg.PWR_STATUS_START_STEP ≠ 4 ∧ (s.sequenced = true ∨ 2 < s.getF Reg.PWR_STATUS_START_STEP)))) ∨ step = 0 ∨ 4 < step) →
      Completes (.startupStepTimeout step wipe now) s fun t =>
        (t = s)) ∧
  (∀ (s : State),
      (s.isF Reg.CLK_STATUS_PLL_LOCK = false) →
      Completes (.clkSwitch) s fun t =>
        (t = s)) ∧
  (∀ (s : State) (slot : Nat) (image : List Byte),
      (s.runs 32 = false ∨ s.dead = true ∨ (slot = 2 ∧ s.getF Reg.PWR_STATUS_START_FAIL ≠ 4) ∨ (slot ≠ 2 ∧ (s.isF Reg.SYS_STRAPS_RECOVER = false ∨ 2 < slot ∨ leAt image 8 1 = 2))) →
      Completes (.recoveryImageReceive slot image) s fun t =>
        (t = s)) ∧
  (∀ (s : State),
      (s.canonical = true) →
      (s.isF Reg.CLK_STATUS_PLL_LOCK = true) →
      Completes (.clkSwitch) s fun t =>
        (SetsField s t Reg.CLK_STATUS_ON_FAST 0 0) ∧
        (OnlyRegs s t [(Reg.CLK_STATUS.addr 0 0)]) ∧
        (t = { s with regs := t.regs })) ∧
  (∀ (s : State) (slot : Nat) (image : List Byte),
      (s.runs 32 = true) →
      (s.dead = false) →
      (slot = 2) →
      (s.getF Reg.PWR_STATUS_START_FAIL = 4) →
      Completes (.recoveryImageReceive slot image) s fun t =>
        (t.sec = { s.sec with firmware := some image }) ∧
        (t = { s with sec := t.sec })) ∧
  (∀ (s : State) (slot : Nat) (image : List Byte),
      (s.canonical = true) →
      (s.runs 32 = true) →
      (s.dead = false) →
      (slot < 2) →
      (s.isF Reg.SYS_STRAPS_RECOVER = true) →
      (leAt image 8 1 ≠ 2) →
      (s.cfg.running = false) →
      Completes (.recoveryImageReceive slot image) s fun t =>
        (t.cfg = if (checkImage s image image.length false).image.isSome then (if slot = 0 then { s.cfg with slot0 := image } else { s.cfg with slot1 := image }) else s.cfg) ∧
        (t.getF Reg.CFG_STATUS_ERROR = if (checkImage s image image.length false).image.isSome then s.getF Reg.CFG_STATUS_ERROR else (checkImage s image image.length false).code % 2 ^ Reg.CFG_STATUS_ERROR.w) ∧
        (OnlyRegs s t [(Reg.CFG_STATUS.addr 0 0), (Reg.SYS_IRQ_CAUSE.addr 4 0)]) ∧
        (t = { s with regs := t.regs, cfg := t.cfg })) ∧
  (∀ (s : State) (highMs straps bad : Nat),
      (s.canonical = true) →
      (s.pwr.ship = true) →
      (10 ≤ highMs) →
      Completes (.chgDetectWake highMs straps bad) s fun t =>
        (s.cleared t) ∧
        (t.controlReset) ∧
        (t.isF Reg.PWR_RESET_CAUSE_SHIP_EXIT = true) ∧
        (t.getF Reg.PWR_STATUS_START_STEP = 1) ∧
        (t.pwr.ship = false) ∧
        (t.supply = s.supply))

/-- The loss or return of an input shows in PWR_AUX and PWR_STATUS; a loss is recorded with its cause, a return ends a hold-up. A hold-up with
both inputs lost puts CODE POWER in force with its cause and the log writes its power-fail record; its end turns the module off. HOLD stops
the dies from RUN; RUN ends it. KEEP lets go of the lock or the claim, stops every domain but the island's and the channels it keeps, and
loses the stack; it is refused NOT_QUIET while a lane runs or a contactor is closed in the module that holds the lock, and BAD_STATE
elsewhere. Timer, current, host and ALARM wake it: start-up begins with the event and causes shown. SHIP is entered in step 6 once the log
is in flash, and leaves the wake detector alone; losing both inputs there turns the module off. -/
def Obligations.SuppliesAndPowerStates : Prop :=
  (∀ (s : State) (input volt now : Nat),
      (s.canonical = true) →
      (s.pwr.off = false) →
      (mayFail volt = true) →
      (s.pwr.ship = false) →
      ((if input = 0 then s.isF Reg.PWR_STATUS_AUX_A_OK else s.isF Reg.PWR_STATUS_AUX_B_OK) = true) →
      (s.getF Reg.PWR_STATUS_STATE ≠ 3) →
      Completes (.auxLost input volt now) s fun t =>
        (SetsFields s t (Reg.PWR_AUX.addr 0 0) [(if input = 0 then Reg.PWR_AUX_AUX_A else Reg.PWR_AUX_AUX_B, min volt 65535)]) ∧
        (t.isF Reg.PWR_STATUS_AUX_A_OK = if input = 0 then false else s.isF Reg.PWR_STATUS_AUX_A_OK) ∧
        (t.isF Reg.PWR_STATUS_AUX_B_OK = if input = 0 then s.isF Reg.PWR_STATUS_AUX_B_OK else false) ∧
        (t.events = s.events ++ [LogEvent.mk 0x0D01 0xFFFF [input, volt]]) ∧
        (Raises s t 1 [4]) ∧
        (t.pwr = if (if input = 0 then s.isF Reg.PWR_STATUS_AUX_B_OK else s.isF Reg.PWR_STATUS_AUX_A_OK) = true then s.pwr else { s.pwr with lostAt := some (now : Int) }) ∧
        (OnlyRegs s t [(Reg.PWR_STATUS.addr 0 0), (Reg.PWR_AUX.addr 0 0), (Reg.SYS_IRQ_CAUSE.addr 1 0)]) ∧
        (t = { s with regs := t.regs, pwr := t.pwr, events := t.events })) ∧
  (∀ (s : State) (input volt now : Nat),
      (s.canonical = true) →
      (s.pwr.off = false) →
      (mayFail volt = true) →
      (s.pwr.ship = false) →
      ((if input = 0 then s.isF Reg.PWR_STATUS_AUX_A_OK else s.isF Reg.PWR_STATUS_AUX_B_OK) = true) →
      (s.getF Reg.PWR_STATUS_STATE = 3) →
      (s.log.island.length < 64) →
      Completes (.auxLost input volt now) s fun t =>
        (SetsFields s t (Reg.PWR_AUX.addr 0 0) [(if input = 0 then Reg.PWR_AUX_AUX_A else Reg.PWR_AUX_AUX_B, min volt 65535)]) ∧
        (t.isF Reg.PWR_STATUS_AUX_A_OK = if input = 0 then false else s.isF Reg.PWR_STATUS_AUX_A_OK) ∧
        (t.isF Reg.PWR_STATUS_AUX_B_OK = if input = 0 then s.isF Reg.PWR_STATUS_AUX_B_OK else false) ∧
        ((t.log.island.map Prod.snd) = (s.log.island.map Prod.snd) ++ [LogEvent.mk 0x0D01 0xFFFF [input, volt]]) ∧
        (Raises s t 1 [4]) ∧
        (t.pwr = if (if input = 0 then s.isF Reg.PWR_STATUS_AUX_B_OK else s.isF Reg.PWR_STATUS_AUX_A_OK) = true then s.pwr else { s.pwr with lostAt := some (now : Int) }) ∧
        (OnlyRegs s t [(Reg.PWR_STATUS.addr 0 0), (Reg.PWR_AUX.addr 0 0), (Reg.SYS_IRQ_CAUSE.addr 1 0)]) ∧
        (t = { s with regs := t.regs, pwr := t.pwr, log := t.log })) ∧
  (∀ (s : State) (input volt now : Nat),
      (s.canonical = true) →
      (s.pwr.off = false) →
      (mayFail volt = true) →
      (s.pwr.ship = true) →
      ((if input = 0 then s.isF Reg.PWR_STATUS_AUX_B_OK else s.isF Reg.PWR_STATUS_AUX_A_OK) = false) →
      Completes (.auxLost input volt now) s fun t =>
        (s.isOff t)) ∧
  (∀ (s : State) (input volt : Nat),
      (s.canonical = true) →
      (s.pwr.off = false) →
      (mayRun volt (if 610 < (if input = 0 then s.getF Reg.PWR_AUX_AUX_A else s.getF Reg.PWR_AUX_AUX_B) then 599 else 630) = true) →
      (s.isF Reg.PWR_STATUS_HOLDUP = false) →
      Completes (.auxReturn input volt) s fun t =>
        (SetsFields s t (Reg.PWR_AUX.addr 0 0) [(if input = 0 then Reg.PWR_AUX_AUX_A else Reg.PWR_AUX_AUX_B, min volt 65535)]) ∧
        (t.isF Reg.PWR_STATUS_AUX_A_OK = if input = 0 then true else s.isF Reg.PWR_STATUS_AUX_A_OK) ∧
        (t.isF Reg.PWR_STATUS_AUX_B_OK = if input = 0 then s.isF Reg.PWR_STATUS_AUX_B_OK else true) ∧
        (t.pwr = { s.pwr with lostAt := none }) ∧
        (OnlyRegs s t [(Reg.PWR_STATUS.addr 0 0), (Reg.PWR_AUX.addr 0 0)]) ∧
        (t = { s with regs := t.regs, pwr := t.pwr })) ∧
  (∀ (s : State) (input volt : Nat),
      (s.canonical = true) →
      (s.pwr.off = false) →
      (mayRun volt (if 610 < (if input = 0 then s.getF Reg.PWR_AUX_AUX_A else s.getF Reg.PWR_AUX_AUX_B) then 599 else 630) = true) →
      (s.isF Reg.PWR_STATUS_HOLDUP = true) →
      Completes (.auxReturn input volt) s fun t =>
        (SetsFields s t (Reg.PWR_AUX.addr 0 0) [(if input = 0 then Reg.PWR_AUX_AUX_A else Reg.PWR_AUX_AUX_B, min volt 65535)]) ∧
        (t.isF Reg.PWR_STATUS_AUX_A_OK = if input = 0 then true else s.isF Reg.PWR_STATUS_AUX_A_OK) ∧
        (t.isF Reg.PWR_STATUS_AUX_B_OK = if input = 0 then s.isF Reg.PWR_STATUS_AUX_B_OK else true) ∧
        (t.pwr = { s.pwr with lostAt := none }) ∧
        (t.isF Reg.PWR_STATUS_HOLDUP = false) ∧
        (OnlyRegs s t ([Reg.PWR_STATUS.addr 0 0, Reg.PWR_AUX.addr 0 0] ++ logRegs)) ∧
        (t = { s with regs := t.regs, pwr := t.pwr, log := t.log })) ∧
  (∀ (s : State) (now : Nat),
      (s.canonical = true) →
      (s.isF Reg.PWR_STATUS_HOLDUP = false) →
      (s.isF Reg.PWR_STATUS_AUX_A_OK = false) →
      (s.isF Reg.PWR_STATUS_AUX_B_OK = false) →
      ((s.pwr.lostAt.any fun t => decide (t + 20000 ≤ (now : Int))) = true) →
      (s.dead = false) →
      (s.runs 39 = false) →
      Completes (.holdupStart now) s fun t =>
        (SetsField s t Reg.PWR_STATUS_HOLDUP 0 1) ∧
        (Raises s t 1 [5]) ∧
        (t.twn = { s.twn with code := if s.twn.code = 0 then 4 else s.twn.code }) ∧
        (OnlyRegs s t [(Reg.PWR_STATUS.addr 0 0), (Reg.SYS_IRQ_CAUSE.addr 1 0)]) ∧
        (t = { s with regs := t.regs, twn := t.twn })) ∧
  (∀ (s : State) (now : Nat),
      (s.canonical = true) →
      (s.isF Reg.PWR_STATUS_HOLDUP = false) →
      (s.isF Reg.PWR_STATUS_AUX_A_OK = false) →
      (s.isF Reg.PWR_STATUS_AUX_B_OK = false) →
      ((s.pwr.lostAt.any fun t => decide (t + 20000 ≤ (now : Int))) = true) →
      (s.dead = false) →
      (s.runs 39 = true) →
      (s.isF Reg.LOG_STATUS_READY = true) →
      (s.log.freezing = false) →
      (s.log.erasing = none) →
      (s.log.slot < 8191) →
      Completes (.holdupStart now) s fun t =>
        (t.isF Reg.PWR_STATUS_HOLDUP = true) ∧
        (Raises s t 1 [5]) ∧
        (t.log.next = s.log.next + 1) ∧
        (t.log.slot = s.log.slot + 1) ∧
        (leAt (Sparse.at [] t.log.flash s.log.slot) 18 2 = 0x0D02) ∧
        (recSeq (Sparse.at [] t.log.flash s.log.slot) = s.log.next % 2 ^ 64) ∧
        (t.isF Reg.LOG_STATUS_FROZEN = false) ∧
        (bitOf (t.getF Reg.SYS_IRQ_CAUSE 3) 0 = true) ∧
        (OnlyRegs s t ([(Reg.PWR_STATUS.addr 0 0), (Reg.SYS_IRQ_CAUSE.addr 1 0)] ++ logRegs)) ∧
        (t = { s with regs := t.regs, twn := t.twn, log := t.log })) ∧
  (∀ (s : State) (mW now : Nat) (x : Int),
      (s.canonical = true) →
      (s.isF Reg.PWR_STATUS_HOLDUP = true) →
      (s.pwr.lostAt = some x) →
      (x + (max 2000000 (370000000000 / max 1 mW) : Nat) ≤ (now : Int)) →
      Completes (.holdupEnd mW now) s fun t =>
        (s.isOff t)) ∧
  (∀ (s : State) (input volt now : Nat),
      (s.pwr.off = true ∨ mayFail volt = false) →
      Completes (.auxLost input volt now) s fun t =>
        (t = s)) ∧
  (∀ (s : State) (input volt : Nat),
      (s.pwr.off = true ∨ mayRun volt (if 610 < (if input = 0 then s.getF Reg.PWR_AUX_AUX_A else s.getF Reg.PWR_AUX_AUX_B) then 599 else 630) = false) →
      Completes (.auxReturn input volt) s fun t =>
        (t = s)) ∧
  (∀ (s : State) (now : Nat),
      (s.isF Reg.PWR_STATUS_HOLDUP = true ∨ s.isF Reg.PWR_STATUS_AUX_A_OK = true ∨ s.isF Reg.PWR_STATUS_AUX_B_OK = true ∨ s.dead = true ∨ s.pwr.lostAt = none) →
      Completes (.holdupStart now) s fun t =>
        (t = s)) ∧
  (∀ (s : State) (mW now : Nat),
      (s.isF Reg.PWR_STATUS_HOLDUP = false ∨ s.pwr.lostAt = none) →
      Completes (.holdupEnd mW now) s fun t =>
        (t = s)) ∧
  (∀ (s : State) (now : Nat),
      (s.getF Reg.PWR_STATUS_STATE ≠ 3 ∨ s.pwr.keepAt = none ∨ s.getF Reg.PWR_KEEP_CFG_WAKE_S = 0) →
      Completes (.keepTimerWake now) s fun t =>
        (t = s)) ∧
  (∀ (s : State) (now k : Nat),
      (s.pwr.keepAt = some k) →
      (now < k + s.getF Reg.PWR_KEEP_CFG_WAKE_S * 1000000000) →
      Completes (.keepTimerWake now) s fun t =>
        (t = s)) ∧
  (∀ (s : State) (now : Nat),
      (s.getF Reg.EST_STATUS_SHIP_STEP ≠ 6 ∨ s.log.queue ≠ [] ∨ s.log.spill ≠ [] ∨ s.log.page ≠ [] ∨ s.dead = true) →
      Completes (.shipPowerEntry now) s fun t =>
        (t = s)) ∧
  (∀ (s : State) (highMs straps bad : Nat),
      (s.pwr.ship = false ∨ highMs < 10) →
      Completes (.chgDetectWake highMs straps bad) s fun t =>
        (t = s)) ∧
  (∀ (s : State),
      (s.canonical = true) →
      (s.getF Reg.PWR_STATUS_STATE = 0) →
      Completes (.pwrHold) s fun t =>
        (t.getF Reg.PWR_STATUS_STATE = 2) ∧
        (t.getF Reg.PWR_STATUS_CMD_RESULT = 1) ∧
        (Raises s t 12 [0]) ∧
        (t.isF Reg.TH_DIE_STATUS_ON 0 = false) ∧
        (t.isF Reg.TH_DIE_STATUS_ON 1 = false) ∧
        (t.dieRuns 0 = false) ∧
        (t.dieRuns 1 = false)) ∧
  (∀ (s : State),
      (s.canonical = true) →
      (s.getF Reg.PWR_STATUS_STATE ≠ 0) →
      Completes (.pwrHold) s fun t =>
        (SetsField s t Reg.PWR_STATUS_CMD_RESULT 0 3) ∧
        (OnlyRegs s t [(Reg.PWR_STATUS.addr 0 0)]) ∧
        (t = { s with regs := t.regs })) ∧
  (∀ (s : State) (now : Nat),
      (s.canonical = true) →
      (s.getF Reg.PWR_STATUS_STATE = 2) →
      Completes (.pwrRun now) s fun t =>
        (t.getF Reg.PWR_STATUS_STATE = 0) ∧
        (t.getF Reg.PWR_STATUS_CMD_RESULT = 1) ∧
        (bitOf (t.getF Reg.SYS_IRQ_CAUSE 12) 0 = true) ∧
        (s.pwr.burnt ≠ 0 ∨ (t.dieRuns 0 = true ∧ t.dieRuns 1 = true ∧ t.isF Reg.TH_DIE_STATUS_ON 0 = true))) ∧
  (∀ (s : State) (now : Nat),
      (s.canonical = true) →
      (s.getF Reg.PWR_STATUS_STATE = 3) →
      Completes (.pwrRun now) s fun t =>
        (s.woken t Reg.PWR_WAKE_HOST) ∧
        (t.getF Reg.PWR_STATUS_CMD_RESULT = 1)) ∧
  (∀ (s : State) (now : Nat),
      (s.canonical = true) →
      (s.getF Reg.PWR_STATUS_STATE ≠ 2) →
      (s.getF Reg.PWR_STATUS_STATE ≠ 3) →
      Completes (.pwrRun now) s fun t =>
        (SetsField s t Reg.PWR_STATUS_CMD_RESULT 0 3) ∧
        (OnlyRegs s t [(Reg.PWR_STATUS.addr 0 0)]) ∧
        (t = { s with regs := t.regs })) ∧
  (∀ (s : State) (now : Nat),
      (s.canonical = true) →
      (s.getF Reg.PWR_STATUS_STATE ≤ 2) →
      (s.isF Reg.TWN_STATUS_LOCK = false ∨ s.quiet = true) →
      Completes (.pwrKeep now) s fun t =>
        (t.getF Reg.PWR_STATUS_STATE = 3) ∧
        (t.getF Reg.PWR_STATUS_CMD_RESULT = 1) ∧
        (t.mem = []) ∧
        (t.poison = []) ∧
        (t.isF Reg.CLK_STATUS_PLL_LOCK = false) ∧
        (t.isF Reg.CTX_STATUS_READY = false) ∧
        (t.pwr.keepAt = some now) ∧
        (t.sec = s.sec.fuses) ∧
        (t.twn.claim = (s.twn.claim && !s.isF Reg.TWN_STATUS_LOCK && s.twn.holder)) ∧
        (t.isF Reg.TWN_STATUS_LOCK = false) ∧
        (t.runs 40 = true) ∧
        (t.runs 1 = false) ∧
        (t.runs 22 = false) ∧
        (s.pklOn = false ∨ t.pklPhase = pklWatch)) ∧
  (∀ (s : State) (now : Nat),
      (s.canonical = true) →
      (s.getF Reg.PWR_STATUS_STATE ≤ 2) →
      (s.isF Reg.TWN_STATUS_LOCK = true) →
      (s.quiet = false) →
      Completes (.pwrKeep now) s fun t =>
        (SetsField s t Reg.PWR_STATUS_CMD_RESULT 0 2) ∧
        (OnlyRegs s t [(Reg.PWR_STATUS.addr 0 0)]) ∧
        (t = { s with regs := t.regs })) ∧
  (∀ (s : State) (now : Nat),
      (s.canonical = true) →
      (2 < s.getF Reg.PWR_STATUS_STATE) →
      Completes (.pwrKeep now) s fun t =>
        (SetsField s t Reg.PWR_STATUS_CMD_RESULT 0 3) ∧
        (OnlyRegs s t [(Reg.PWR_STATUS.addr 0 0)]) ∧
        (t = { s with regs := t.regs })) ∧
  (∀ (s : State) (now k : Nat),
      (s.canonical = true) →
      (s.getF Reg.PWR_STATUS_STATE = 3) →
      (s.pwr.keepAt = some k) →
      (s.getF Reg.PWR_KEEP_CFG_WAKE_S ≠ 0) →
      (k + s.getF Reg.PWR_KEEP_CFG_WAKE_S * 1000000000 ≤ now) →
      Completes (.keepTimerWake now) s fun t =>
        (s.woken t Reg.PWR_WAKE_TIMER)) ∧
  (∀ (s : State) (k now : Nat),
      (s.canonical = true) →
      (s.getF Reg.PWR_STATUS_STATE = 3) →
      (s.getF Reg.PWR_KEEP_CFG_WAKE_I ≠ 0) →
      (s.getF Reg.PWR_KEEP_CFG_WAKE_I * 64000000 < (Sparse.at 0 s.sns.ccMean k).natAbs) →
      Completes (.keepCurrentWake k now) s fun t =>
        (s.woken t Reg.PWR_WAKE_CURRENT)) ∧
  (∀ (s : State) (k now : Nat),
      (s.getF Reg.PWR_STATUS_STATE ≠ 3 ∨ s.getF Reg.PWR_KEEP_CFG_WAKE_I = 0 ∨ (Sparse.at 0 s.sns.ccMean k).natAbs ≤ s.getF Reg.PWR_KEEP_CFG_WAKE_I * 64000000) →
      Completes (.keepCurrentWake k now) s fun t =>
        (t = s)) ∧
  (∀ (s : State) (now : Nat) (air m : List Byte),
      (s.hearsAir 1 0x15 air m = true) →
      (s.getF Reg.PWR_STATUS_STATE ≠ 3) →
      Completes (.alarmReceive now air) s fun t =>
        (t.events = s.events ++ [(LogEvent.mk 0x0A06 (beAt m 5 1) [beAt m 5 1, beAt (m.drop 8) 0 1, beAt (m.drop 8) 1 1, beAt (m.drop 8) 2 2])]) ∧
        (t = { s with events := t.events })) ∧
  (∀ (s : State) (now : Nat) (air m : List Byte),
      (s.canonical = true) →
      (s.hearsAir 1 0x15 air m = true) →
      (s.getF Reg.PWR_STATUS_STATE = 3) →
      (s.log.island.length < 64) →
      Completes (.alarmReceive now air) s fun t =>
        (s.woken t Reg.PWR_WAKE_ALARM) ∧
        ((t.log.island.map Prod.snd) = (s.log.island.map Prod.snd) ++ [(LogEvent.mk 0x0A06 (beAt m 5 1) [beAt m 5 1, beAt (m.drop 8) 0 1, beAt (m.drop 8) 1 1, beAt (m.drop 8) 2 2])])) ∧
  (∀ (s : State) (now : Nat),
      (s.canonical = true) →
      (s.getF Reg.EST_STATUS_SHIP_STEP = 6) →
      (s.log.queue = []) →
      (s.log.spill = []) →
      (s.log.page = []) →
      (s.dead = false) →
      Completes (.shipPowerEntry now) s fun t =>
        (t.pwr.ship = true) ∧
        (t.pwr.rtc = none) ∧
        (t.sec = s.sec.fuses) ∧
        (t.mem = []) ∧
        (t.isF Reg.TWN_STATUS_LOCK = false) ∧
        ((List.range 41).all (fun n => t.runs n == decide (n = 40) || decide (n = 0)) = true))

/-- A vector that qualifies, armed and unmasked, sends one message and is disarmed; masked, its pending bit sets; within the holdoff or with the
link down it waits; one that does not qualify has no pending bit. ACK arms a vector, which sends again if it still qualifies; unmasking
sends what was pending and still qualifies; the end of the holdoff sends what it held back. The link and D3hot change nothing else, and
PCIE_WAKE_N follows the link and the wake causes. SMBus returns the sixteen registers of R469, zeros with STOPPED for a stopped domain, a
free value with STALE where the crossing failed (log entry 5), which CLK_XING_STALE of its domain counts. The alert is answered with the
slot's address. BAR2 reads return the stack's bytes at the base, zeros from ranges that read as zero and, counted, from poisoned blocks;
writes reach the ranges R200 allows and are otherwise counted; a whole block clears poison. An access waits while MEMC is stopped; out of D0
nothing is taken. -/
def Obligations.HostInterruptsLinesSmbusAndAperture : Prop :=
  (∀ (s : State) (v now : Nat),
      (s.canonical = true) →
      (v < 15) →
      (s.getF Reg.SYS_IRQ_CAUSE v &&& s.getF Reg.SYS_IRQ_CAUSE_EN v ≠ 0) →
      (bitOf (s.getF Reg.SYS_IRQ_EN) v = true) →
      (bitOf s.irq.armed v = true) →
      (bitOf s.irq.masked v = false) →
      (s.irq.functionMask = false) →
      (s.irqHeld v now = false) →
      (s.host.perst = false) →
      (s.host.link = 0) →
      (s.host.d3 = false) →
      (s.runs 14 = true) →
      Completes (.msixSend v now) s fun t =>
        (t.outbox = s.outbox ++ [Out.mk .msix [v]]) ∧
        (t.irq = { s.irq with armed := putBit s.irq.armed v false, pba := putBit s.irq.pba v false, holdoff := putBit s.irq.holdoff v false, sentAt := Sparse.upd none s.irq.sentAt v (some now) }) ∧
        (t = { s with irq := t.irq, outbox := t.outbox })) ∧
  (∀ (s : State) (v now : Nat),
      (s.canonical = true) →
      (v < 15) →
      (s.getF Reg.SYS_IRQ_CAUSE v &&& s.getF Reg.SYS_IRQ_CAUSE_EN v ≠ 0) →
      (bitOf (s.getF Reg.SYS_IRQ_EN) v = true) →
      (bitOf s.irq.armed v = true) →
      (bitOf s.irq.masked v = true ∨ s.irq.functionMask = true) →
      Completes (.msixSend v now) s fun t =>
        (t.irq = { s.irq with pba := putBit s.irq.pba v true }) ∧
        (t = { s with irq := t.irq })) ∧
  (∀ (s : State) (v now : Nat),
      (s.canonical = true) →
      (v < 15) →
      ((s.getF Reg.SYS_IRQ_CAUSE v &&& s.getF Reg.SYS_IRQ_CAUSE_EN v = 0 ∨ bitOf (s.getF Reg.SYS_IRQ_EN) v = false) ∨ bitOf s.irq.armed v = false) →
      Completes (.msixSend v now) s fun t =>
        (t.irq = { s.irq with pba := putBit s.irq.pba v false }) ∧
        (t = { s with irq := t.irq })) ∧
  (∀ (s : State) (v now : Nat),
      (s.canonical = true) →
      (v < 15) →
      (s.getF Reg.SYS_IRQ_CAUSE v &&& s.getF Reg.SYS_IRQ_CAUSE_EN v ≠ 0) →
      (bitOf (s.getF Reg.SYS_IRQ_EN) v = true) →
      (bitOf s.irq.armed v = true) →
      (bitOf s.irq.masked v = false) →
      (s.irq.functionMask = false) →
      (s.irqHeld v now = false) →
      (s.host.perst = true ∨ s.host.link ≠ 0 ∨ s.host.d3 = true ∨ s.runs 14 = false) →
      Completes (.msixSend v now) s fun t =>
        (t = s)) ∧
  (∀ (s : State) (v now : Nat),
      (s.canonical = true) →
      (v < 15) →
      (s.getF Reg.SYS_IRQ_CAUSE v &&& s.getF Reg.SYS_IRQ_CAUSE_EN v ≠ 0) →
      (bitOf (s.getF Reg.SYS_IRQ_EN) v = true) →
      (bitOf s.irq.armed v = true) →
      (bitOf s.irq.masked v = false) →
      (s.irq.functionMask = false) →
      (s.irqHeld v now = true) →
      Completes (.msixSend v now) s fun t =>
        (t.irq = { s.irq with holdoff := putBit s.irq.holdoff v true }) ∧
        (t = { s with irq := t.irq })) ∧
  (∀ (s : State) (v now : Nat),
      (s.canonical = true) →
      (15 ≤ v) →
      Completes (.msixSend v now) s fun t =>
        (t = s)) ∧
  (∀ (s : State) (mask now v : Nat),
      (s.canonical = true) →
      (mask = 2 ^ v) →
      (v < 15) →
      (s.getF Reg.SYS_IRQ_CAUSE v &&& s.getF Reg.SYS_IRQ_CAUSE_EN v ≠ 0) →
      (bitOf (s.getF Reg.SYS_IRQ_EN) v = true) →
      (bitOf s.irq.masked v = false) →
      (s.irq.functionMask = false) →
      (s.irqHeld v now = false) →
      (s.host.perst = false) →
      (s.host.link = 0) →
      (s.host.d3 = false) →
      (s.runs 14 = true) →
      Completes (.irqAck mask now) s fun t =>
        (t.outbox = s.outbox ++ [Out.mk .msix [v]]) ∧
        (t.irq = { s.irq with armed := putBit (putBit s.irq.armed v true) v false, pba := putBit s.irq.pba v false, holdoff := putBit s.irq.holdoff v false, sentAt := Sparse.upd none s.irq.sentAt v (some now) }) ∧
        (t = { s with irq := t.irq, outbox := t.outbox })) ∧
  (∀ (s : State) (mask now : Nat),
      (s.canonical = true) →
      (∀ v ∈ List.range 15, bitOf mask v = true → s.irqPends v = false) →
      Completes (.irqAck mask now) s fun t =>
        (∀ v, v < 15 → bitOf t.irq.armed v = (bitOf s.irq.armed v || bitOf mask v)) ∧
        (∀ v, v < 15 → bitOf t.irq.pba v = (bitOf s.irq.pba v && !bitOf mask v)) ∧
        (t.irq.masked = s.irq.masked) ∧
        (t.irq.holdoff = s.irq.holdoff) ∧
        (t = { s with irq := t.irq })) ∧
  (∀ (s : State) (v : Nat) (masked : Bool) (now : Nat),
      (s.canonical = true) →
      (v < 16) →
      (bitOf s.irq.pba v = false) →
      Completes (.msixUnmask v masked now) s fun t =>
        (t.irq = { s.irq with masked := putBit s.irq.masked v masked }) ∧
        (t = { s with irq := t.irq })) ∧
  (∀ (s : State) (v : Nat) (masked : Bool) (now : Nat),
      (s.canonical = true) →
      (masked = false) →
      (bitOf s.irq.pba v = true) →
      (v < 15) →
      (s.getF Reg.SYS_IRQ_CAUSE v &&& s.getF Reg.SYS_IRQ_CAUSE_EN v ≠ 0) →
      (bitOf (s.getF Reg.SYS_IRQ_EN) v = true) →
      (bitOf s.irq.armed v = true) →
      (s.irq.functionMask = false) →
      (s.irqHeld v now = false) →
      (s.host.perst = false) →
      (s.host.link = 0) →
      (s.host.d3 = false) →
      (s.runs 14 = true) →
      Completes (.msixUnmask v masked now) s fun t =>
        (t.outbox = s.outbox ++ [Out.mk .msix [v]]) ∧
        (t.irq = { s.irq with masked := putBit s.irq.masked v false, armed := putBit s.irq.armed v false, pba := putBit s.irq.pba v false, holdoff := putBit s.irq.holdoff v false, sentAt := Sparse.upd none s.irq.sentAt v (some now) }) ∧
        (t = { s with irq := t.irq, outbox := t.outbox })) ∧
  (∀ (s : State) (v : Nat) (masked : Bool) (now : Nat),
      (s.canonical = true) →
      (masked = false) →
      (bitOf s.irq.pba v = true) →
      (v < 15) →
      ((s.getF Reg.SYS_IRQ_CAUSE v &&& s.getF Reg.SYS_IRQ_CAUSE_EN v = 0 ∨ bitOf (s.getF Reg.SYS_IRQ_EN) v = false)) →
      Completes (.msixUnmask v masked now) s fun t =>
        (t.irq = { s.irq with masked := putBit s.irq.masked v false, pba := putBit s.irq.pba v false }) ∧
        (t = { s with irq := t.irq })) ∧
  (∀ (s : State) (v : Nat) (masked : Bool) (now : Nat),
      (s.canonical = true) →
      (17 ≤ v) →
      Completes (.msixUnmask v masked now) s fun t =>
        (t = s)) ∧
  (∀ (s : State) (v : Nat) (masked : Bool) (now : Nat),
      (s.canonical = true) →
      (v = 16) →
      (masked = true ∨ s.irq.pba = 0) →
      Completes (.msixUnmask v masked now) s fun t =>
        (t.irq.functionMask = masked) ∧
        (t.irq.masked = s.irq.masked) ∧
        (t.irq.armed = s.irq.armed ∨ masked = true) ∧
        (t = { s with irq := t.irq, outbox := t.outbox })) ∧
  (∀ (s : State) (v k : Nat) (masked : Bool) (now : Nat),
      (s.canonical = true) →
      (v = 16) →
      (masked = false) →
      (k < 15) →
      (s.irq.pba = 2 ^ k) →
      (s.getF Reg.SYS_IRQ_CAUSE k &&& s.getF Reg.SYS_IRQ_CAUSE_EN k ≠ 0) →
      (bitOf (s.getF Reg.SYS_IRQ_EN) k = true) →
      (bitOf s.irq.armed k = true) →
      (bitOf s.irq.masked k = false) →
      (s.irqHeld k now = false) →
      (s.host.perst = false) →
      (s.host.link = 0) →
      (s.host.d3 = false) →
      (s.runs 14 = true) →
      Completes (.msixUnmask v masked now) s fun t =>
        (t.outbox = s.outbox ++ [Out.mk .msix [k]]) ∧
        (t.irq = { s.irq with functionMask := false, armed := putBit s.irq.armed k false, pba := putBit s.irq.pba k false, holdoff := putBit s.irq.holdoff k false, sentAt := Sparse.upd none s.irq.sentAt k (some now) }) ∧
        (t = { s with irq := t.irq, outbox := t.outbox })) ∧
  (∀ (s : State) (v now : Nat),
      (s.canonical = true) →
      (v < 15) →
      (bitOf s.irq.holdoff v = true) →
      (s.irqHeld v now = false) →
      (s.getF Reg.SYS_IRQ_CAUSE v &&& s.getF Reg.SYS_IRQ_CAUSE_EN v ≠ 0) →
      (bitOf (s.getF Reg.SYS_IRQ_EN) v = true) →
      (bitOf s.irq.armed v = true) →
      (bitOf s.irq.masked v = false) →
      (s.irq.functionMask = false) →
      (s.host.perst = false) →
      (s.host.link = 0) →
      (s.host.d3 = false) →
      (s.runs 14 = true) →
      Completes (.irqHoldoffEnd v now) s fun t =>
        (t.outbox = s.outbox ++ [Out.mk .msix [v]]) ∧
        (t.irq = { s.irq with armed := putBit s.irq.armed v false, pba := putBit s.irq.pba v false, holdoff := putBit (putBit s.irq.holdoff v false) v false, sentAt := Sparse.upd none s.irq.sentAt v (some now) }) ∧
        (t = { s with irq := t.irq, outbox := t.outbox })) ∧
  (∀ (s : State) (v now : Nat),
      (s.canonical = true) →
      (v < 15) →
      (bitOf s.irq.holdoff v = true) →
      (s.irqHeld v now = false) →
      ((s.getF Reg.SYS_IRQ_CAUSE v &&& s.getF Reg.SYS_IRQ_CAUSE_EN v = 0 ∨ bitOf (s.getF Reg.SYS_IRQ_EN) v = false)) →
      Completes (.irqHoldoffEnd v now) s fun t =>
        (t.irq = { s.irq with holdoff := putBit s.irq.holdoff v false, pba := putBit s.irq.pba v false }) ∧
        (t = { s with irq := t.irq })) ∧
  (∀ (s : State) (v now : Nat),
      (s.canonical = true) →
      (bitOf s.irq.holdoff v = false ∨ 15 ≤ v ∨ s.irqHeld v now = true) →
      Completes (.irqHoldoffEnd v now) s fun t =>
        (t = s)) ∧
  (∀ (s : State) (link : Nat),
      (s.canonical = true) →
      (link ≤ 2) →
      (s.host.perst = false ∨ link = 2) →
      Completes (.pcieLinkStateChange link) s fun t =>
        (t.host = { s.host with link := link }) ∧
        (link = 0 ∧ s.host.perst = false → t.pcieWake = false) ∧
        (∀ v ∈ List.range 15, (link = 1 ∨ s.host.perst = true) → s.getF Reg.PWR_STATUS_STATE ≠ 3 → bitOf (s.getF Reg.SYS_IRQ_WAKE) v = true → s.getF Reg.SYS_IRQ_CAUSE v &&& s.getF Reg.SYS_IRQ_CAUSE_EN v ≠ 0 → t.pcieWake = true) ∧
        (s.getF Reg.PWR_STATUS_STATE = 3 → bitOf (s.getF Reg.SYS_IRQ_WAKE) 12 = false → t.pcieWake = false) ∧
        (t = { s with host := t.host })) ∧
  (∀ (s : State) (link : Nat),
      (s.canonical = true) →
      (s.host.perst = true) →
      (link ≠ 2) →
      Completes (.pcieLinkStateChange link) s fun t =>
        (t = s)) ∧
  (∀ (s : State) (d3 : Bool),
      (s.canonical = true) →
      (s.host.perst = false) →
      Completes (.pciePowerStateWrite d3) s fun t =>
        (t.host = { s.host with d3 := d3 }) ∧
        (t = { s with host := t.host })) ∧
  (∀ (s : State) (d3 : Bool),
      (s.canonical = true) →
      (s.host.perst = true) →
      Completes (.pciePowerStateWrite d3) s fun t =>
        (t = s)) ∧
  (∀ (s : State) (cmd a d : Nat) (stale : Bool),
      (s.canonical = true) →
      (s.runs 33 = true) →
      ((cmd, a, d) ∈ ([(0x00, 0x0, 40), (0x01, 0x4, 40), (0x02, 0x8, 40), (0x03, 0xC, 40), (0x04, 0x80, 40), (0x05, 0x20000, 40), (0x06, 0x20014, 40), (0x07, 0x20010, 40), (0x08, 0x20020, 40), (0x09, 0x20024, 40), (0x0A, 0xD0000, 1), (0x0B, 0xE0000, 39), (0x0C, 0xF0000, 34), (0x0D, 0x104, 40), (0x0E, 0x20030, 40), (0x0F, 0x20034, 40)] : List (Nat × Nat × Nat))) →
      (s.runs d = false) →
      Completes (.smbusBlockRead cmd stale) s fun t =>
        (t.outbox = s.outbox ++ [Out.mk .smbus [0, 0, 0, 0, 1]]) ∧
        (t = { s with outbox := t.outbox })) ∧
  (∀ (s : State) (cmd a d : Nat) (stale : Bool),
      (s.canonical = true) →
      (s.runs 33 = true) →
      ((cmd, a, d) ∈ ([(0x00, 0x0, 40), (0x01, 0x4, 40), (0x02, 0x8, 40), (0x03, 0xC, 40), (0x04, 0x80, 40), (0x05, 0x20000, 40), (0x06, 0x20014, 40), (0x07, 0x20010, 40), (0x08, 0x20020, 40), (0x09, 0x20024, 40), (0x0A, 0xD0000, 1), (0x0B, 0xE0000, 39), (0x0C, 0xF0000, 34), (0x0D, 0x104, 40), (0x0E, 0x20030, 40), (0x0F, 0x20034, 40)] : List (Nat × Nat × Nat))) →
      (s.runs d = true) →
      (stale = false) →
      Completes (.smbusBlockRead cmd stale) s fun t =>
        (t.outbox = s.outbox ++ [Out.mk .smbus [(s.rd a).toNat % 256, (s.rd a).toNat / 256 % 256, (s.rd a).toNat / 65536 % 256, (s.rd a).toNat / 16777216 % 256, 0]]) ∧
        (t.host = { s.host with smbLast := Sparse.upd none s.host.smbLast cmd (some (s.rd a).toNat) }) ∧
        (t = { s with outbox := t.outbox, host := t.host })) ∧
  (∀ (s : State) (cmd a d : Nat) (stale : Bool),
      (s.canonical = true) →
      (s.runs 33 = true) →
      ((cmd, a, d) ∈ ([(0x00, 0x0, 40), (0x01, 0x4, 40), (0x02, 0x8, 40), (0x03, 0xC, 40), (0x04, 0x80, 40), (0x05, 0x20000, 40), (0x06, 0x20014, 40), (0x07, 0x20010, 40), (0x08, 0x20020, 40), (0x09, 0x20024, 40), (0x0A, 0xD0000, 1), (0x0B, 0xE0000, 39), (0x0C, 0xF0000, 34), (0x0D, 0x104, 40), (0x0E, 0x20030, 40), (0x0F, 0x20034, 40)] : List (Nat × Nat × Nat))) →
      (s.runs d = true) →
      (stale = true) →
      (Sparse.at none s.host.smbLast cmd = none) →
      Completes (.smbusBlockRead cmd stale) s fun t =>
        (t.outbox = s.outbox ++ [Out.mk .smbus (((leBytes 4 (s.freeVal 0x469)).map (fun (b : Byte) => b.toNat) ++ [2]))]) ∧
        (t.free = s.free + 1) ∧
        (Counts s t Reg.CLK_XING_STALE ((d - 1)) 1) ∧
        (OnlyRegs s t [(Reg.CLK_XING_STALE.addr ((d - 1)) 0)]) ∧
        (t = { s with regs := t.regs, outbox := t.outbox, free := t.free })) ∧
  (∀ (s : State) (cmd a d v : Nat) (stale : Bool),
      (s.canonical = true) →
      (s.runs 33 = true) →
      ((cmd, a, d) ∈ ([(0x00, 0x0, 40), (0x01, 0x4, 40), (0x02, 0x8, 40), (0x03, 0xC, 40), (0x04, 0x80, 40), (0x05, 0x20000, 40), (0x06, 0x20014, 40), (0x07, 0x20010, 40), (0x08, 0x20020, 40), (0x09, 0x20024, 40), (0x0A, 0xD0000, 1), (0x0B, 0xE0000, 39), (0x0C, 0xF0000, 34), (0x0D, 0x104, 40), (0x0E, 0x20030, 40), (0x0F, 0x20034, 40)] : List (Nat × Nat × Nat))) →
      (s.runs d = true) →
      (stale = true) →
      (Sparse.at none s.host.smbLast cmd = some v) →
      Completes (.smbusBlockRead cmd stale) s fun t =>
        (t.outbox = s.outbox ++ [Out.mk .smbus (((leBytes 4 v).map (fun (b : Byte) => b.toNat) ++ [2]))]) ∧
        (Counts s t Reg.CLK_XING_STALE ((d - 1)) 1) ∧
        (OnlyRegs s t [(Reg.CLK_XING_STALE.addr ((d - 1)) 0)]) ∧
        (t = { s with regs := t.regs, outbox := t.outbox })) ∧
  (∀ (s : State) (cmd : Nat) (stale : Bool),
      (s.canonical = true) →
      (s.runs 33 = false) →
      Completes (.smbusBlockRead cmd stale) s fun t =>
        (t = s)) ∧
  (∀ (s : State),
      (s.canonical = true) →
      (s.runs 33 = false) →
      Completes (.smbusAlertResponse) s fun t =>
        (t = s)) ∧
  (∀ (s : State) (cmd : Nat) (stale : Bool),
      (s.canonical = true) →
      (16 ≤ cmd) →
      Completes (.smbusBlockRead cmd stale) s fun t =>
        (t = s)) ∧
  (∀ (s : State),
      (s.canonical = true) →
      (s.runs 33 = true) →
      (s.getF Reg.SYS_IRQ_CAUSE 1 ≠ 0) →
      Completes (.smbusAlertResponse) s fun t =>
        (t.outbox = s.outbox ++ [Out.mk .smbus [0x58 + s.getF Reg.SYS_STRAPS_TWIN_SLOT]]) ∧
        (t = { s with outbox := t.outbox })) ∧
  (∀ (s : State),
      (s.canonical = true) →
      (s.getF Reg.SYS_IRQ_CAUSE 1 = 0) →
      Completes (.smbusAlertResponse) s fun t =>
        (t = s)) ∧
  (∀ (s : State) (off n a : Nat) (bads : List (List (Nat × Nat))),
      (s.canonical = true) →
      (s.host.perst = false) →
      (s.host.d3 = false) →
      (s.runs 22 = true) →
      (s.runs 14 = true) →
      ((s.waiting.any fun (x : Access) => decide (x.path = 0)) = false) →
      (a = s.getF Reg.MEMWIN_BASE_LO_BASE_LO * 65536 + s.getF Reg.MEMWIN_BASE_HI_BASE_HI * 2 ^ 32 + off) →
      (off + n ≤ 2 ^ 32) →
      (bads = []) →
      (s.isF Reg.CTX_STATUS_READY = true) →
      (a + n ≤ 2 ^ 37) →
      (((List.range n).all fun k => decide (stackRange (a + k) ∉ [2, 3, 4]) && !Sparse.at false s.poison ((a + k) / 64)) = true) →
      Completes (.bar2Read off n bads) s fun t =>
        (t.outbox = s.outbox ++ [Out.mk .accessDone (([0, 2 ^ 26 + off] ++ (s.memBytes a n).map fun (b : Byte) => b.toNat))]) ∧
        (t = { s with outbox := t.outbox })) ∧
  (∀ (s : State) (off n a : Nat) (bads : List (List (Nat × Nat))),
      (s.canonical = true) →
      (s.host.perst = false) →
      (s.host.d3 = false) →
      (s.runs 22 = true) →
      (s.runs 14 = true) →
      ((s.waiting.any fun (x : Access) => decide (x.path = 0)) = false) →
      (a = s.getF Reg.MEMWIN_BASE_LO_BASE_LO * 65536 + s.getF Reg.MEMWIN_BASE_HI_BASE_HI * 2 ^ 32 + off) →
      (off + n ≤ 2 ^ 32) →
      (0 < n) →
      (a % 64 + n ≤ 64) →
      ((stackRange a = 2 ∨ stackRange a = 3 ∨ stackRange a = 4 ∨ s.isF Reg.CTX_STATUS_READY = false)) →
      Completes (.bar2Read off n bads) s fun t =>
        (t.outbox = s.outbox ++ [Out.mk .accessDone (([0, 2 ^ 26 + off] ++ List.replicate n 0))]) ∧
        (t = { s with outbox := t.outbox })) ∧
  (∀ (s : State) (off n a : Nat) (bads : List (List (Nat × Nat))),
      (s.canonical = true) →
      (s.host.perst = false) →
      (s.host.d3 = false) →
      (s.runs 22 = true) →
      (s.runs 14 = true) →
      ((s.waiting.any fun (x : Access) => decide (x.path = 0)) = false) →
      (a = s.getF Reg.MEMWIN_BASE_LO_BASE_LO * 65536 + s.getF Reg.MEMWIN_BASE_HI_BASE_HI * 2 ^ 32 + off) →
      (off + n ≤ 2 ^ 32) →
      (0 < n) →
      (a % 64 + n ≤ 64) →
      (s.isF Reg.CTX_STATUS_READY = true) →
      (a + n ≤ 2 ^ 37) →
      (stackRange a ∉ [2, 3, 4]) →
      (Sparse.at false s.poison (a / 64) = true) →
      Completes (.bar2Read off n bads) s fun t =>
        (t.outbox = s.outbox ++ [Out.mk .accessDone (([0, 2 ^ 26 + off] ++ List.replicate n 0))]) ∧
        (Counts s t Reg.CTX_HOST_POISON 0 1) ∧
        (Raises s t 6 [0]) ∧
        (OnlyRegs s t [(Reg.CTX_HOST_POISON.addr 0 0), (Reg.SYS_IRQ_CAUSE.addr 6 0)]) ∧
        (t = { s with regs := t.regs, outbox := t.outbox })) ∧
  (∀ (s : State) (off n a : Nat) (bads : List (List (Nat × Nat))),
      (s.canonical = true) →
      (s.host.perst = false) →
      (s.host.d3 = false) →
      (s.runs 22 = true) →
      (s.runs 14 = true) →
      ((s.waiting.any fun (x : Access) => decide (x.path = 0)) = false) →
      (a = s.getF Reg.MEMWIN_BASE_LO_BASE_LO * 65536 + s.getF Reg.MEMWIN_BASE_HI_BASE_HI * 2 ^ 32 + off) →
      (off + n ≤ 2 ^ 32) →
      (0 < n) →
      (a % 64 + n ≤ 64) →
      (s.isF Reg.CTX_STATUS_READY = true) →
      (a + n ≤ 2 ^ 37) →
      (stackRange a ∉ [2, 3, 4]) →
      (Sparse.at false s.poison (a / 64) = false) →
      (rsDecode (bads.getD 0 []) = RsResult.corrected) →
      Completes (.bar2Read off n bads) s fun t =>
        (t.outbox = s.outbox ++ [Out.mk .accessDone (([0, 2 ^ 26 + off] ++ (s.memBytes a n).map fun (b : Byte) => b.toNat))]) ∧
        (Counts s t Reg.CTX_ECC_CE 0 1) ∧
        (OnlyRegs s t [(Reg.CTX_ECC_CE.addr 0 0)]) ∧
        (t = { s with regs := t.regs, outbox := t.outbox })) ∧
  (∀ (s : State) (off n a : Nat) (bads : List (List (Nat × Nat))),
      (s.canonical = true) →
      (s.host.perst = false) →
      (s.host.d3 = false) →
      (s.runs 22 = true) →
      (s.runs 14 = true) →
      ((s.waiting.any fun (x : Access) => decide (x.path = 0)) = false) →
      (a = s.getF Reg.MEMWIN_BASE_LO_BASE_LO * 65536 + s.getF Reg.MEMWIN_BASE_HI_BASE_HI * 2 ^ 32 + off) →
      (off + n ≤ 2 ^ 32) →
      (0 < n) →
      (a % 64 + n ≤ 64) →
      (s.isF Reg.CTX_STATUS_READY = true) →
      (a + n ≤ 2 ^ 37) →
      (stackRange a ∉ [2, 3, 4]) →
      (Sparse.at false s.poison (a / 64) = false) →
      (rsDecode (bads.getD 0 []) = RsResult.found) →
      Completes (.bar2Read off n bads) s fun t =>
        (t.outbox = s.outbox ++ [Out.mk .accessDone (([0, 2 ^ 26 + off] ++ List.replicate n 0))]) ∧
        (Sparse.at false t.poison (a / 64) = true) ∧
        (Counts s t Reg.CTX_HOST_POISON 0 1) ∧
        (bitOf (t.getF Reg.SYS_IRQ_CAUSE 6) 0 = true)) ∧
  (∀ (s : State) (off a : Nat) (bytes : List Byte),
      (s.canonical = true) →
      (s.host.perst = false) →
      (s.host.d3 = false) →
      (s.runs 22 = true) →
      (s.runs 14 = true) →
      ((s.waiting.any fun (x : Access) => decide (x.path = 0)) = false) →
      (a = s.getF Reg.MEMWIN_BASE_LO_BASE_LO * 65536 + s.getF Reg.MEMWIN_BASE_HI_BASE_HI * 2 ^ 32 + off) →
      (off + bytes.length ≤ 2 ^ 32) →
      (s.isF Reg.CTX_STATUS_READY = true) →
      (a + bytes.length ≤ 2 ^ 37) →
      (((List.range bytes.length).all fun k => decide (stackRange (a + k) = 5 ∨ stackRange (a + k) = 8) && !Sparse.at false s.poison ((a + k) / 64)) = true) →
      Completes (.bar2Write off bytes) s fun t =>
        (∀ k, k < bytes.length → Sparse.at 0#8 t.mem (a + k) = (bytes[k]?).getD 0#8) ∧
        (∀ b, (b < a ∨ a + bytes.length ≤ b) → Sparse.at 0#8 t.mem b = Sparse.at 0#8 s.mem b) ∧
        (t.memBytes a bytes.length = bytes) ∧
        (t = { s with mem := t.mem })) ∧
  (∀ (s : State) (off a : Nat) (bytes : List Byte),
      (s.canonical = true) →
      (s.host.perst = false) →
      (s.host.d3 = false) →
      (s.runs 22 = true) →
      (s.runs 14 = true) →
      ((s.waiting.any fun (x : Access) => decide (x.path = 0)) = false) →
      (a = s.getF Reg.MEMWIN_BASE_LO_BASE_LO * 65536 + s.getF Reg.MEMWIN_BASE_HI_BASE_HI * 2 ^ 32 + off) →
      (off + bytes.length ≤ 2 ^ 32) →
      (0 < bytes.length) →
      (a % 64 + bytes.length ≤ 64) →
      (stackRange a ∈ [1, 2, 3, 4, 7] ∨ s.isF Reg.CTX_STATUS_READY = false ∨ (stackRange a = 0 ∧ ((s.desc (a / 0x400000)).kind ≠ kindJob ∨ 0x300000 ≤ a % 0x400000)) ∨ (stackRange a = 6 ∧ s.partState (slotOf a / 32) = partRunning ∧ bitOf (s.part (slotOf a / 32)).slot (slotOf a % 32 / 2) = decide (slotOf a % 2 = 1)) ∨ (bytes.length < 64 ∧ Sparse.at false s.poison (a / 64) = true)) →
      Completes (.bar2Write off bytes) s fun t =>
        (Counts s t Reg.CTX_HOST_DENIED 0 1) ∧
        (OnlyRegs s t [(Reg.CTX_HOST_DENIED.addr 0 0)]) ∧
        (t = { s with regs := t.regs })) ∧
  (∀ (s : State) (off a : Nat) (bytes : List Byte),
      (s.canonical = true) →
      (s.host.perst = false) →
      (s.host.d3 = false) →
      (s.runs 22 = true) →
      (s.runs 14 = true) →
      ((s.waiting.any fun (x : Access) => decide (x.path = 0)) = false) →
      (a = s.getF Reg.MEMWIN_BASE_LO_BASE_LO * 65536 + s.getF Reg.MEMWIN_BASE_HI_BASE_HI * 2 ^ 32 + off) →
      (off + bytes.length ≤ 2 ^ 32) →
      (s.isF Reg.CTX_STATUS_READY = true) →
      (a % 64 + bytes.length ≤ 64) →
      (Sparse.at false s.poison (a / 64) = false) →
      ((stackRange a = 0 ∧ (s.desc (a / 0x400000)).kind = kindJob ∧ a % 0x400000 < 0x300000) ∨ (stackRange a = 6 ∧ (s.partState (slotOf a / 32) ≠ partRunning ∨ bitOf (s.part (slotOf a / 32)).slot (slotOf a % 32 / 2) ≠ decide (slotOf a % 2 = 1)))) →
      Completes (.bar2Write off bytes) s fun t =>
        (t.mem = Sparse.fill 0#8 s.mem a bytes) ∧
        (t = { s with mem := t.mem })) ∧
  (∀ (s : State) (off a : Nat) (bytes : List Byte),
      (s.canonical = true) →
      (s.host.perst = false) →
      (s.host.d3 = false) →
      (s.runs 22 = true) →
      (s.runs 14 = true) →
      ((s.waiting.any fun (x : Access) => decide (x.path = 0)) = false) →
      (a = s.getF Reg.MEMWIN_BASE_LO_BASE_LO * 65536 + s.getF Reg.MEMWIN_BASE_HI_BASE_HI * 2 ^ 32 + off) →
      (off + bytes.length ≤ 2 ^ 32) →
      (s.isF Reg.CTX_STATUS_READY = true) →
      (a % 64 = 0) →
      (bytes.length = 64) →
      (stackRange a = 5) →
      (Sparse.at false s.poison (a / 64) = true) →
      Completes (.bar2Write off bytes) s fun t =>
        (t.memBytes a 64 = bytes) ∧
        (Sparse.at false t.poison (a / 64) = false)) ∧
  (∀ (s : State) (off n : Nat) (bads : List (List (Nat × Nat))),
      (s.canonical = true) →
      (s.host.perst = false) →
      (s.host.d3 = false) →
      (off + n ≤ 2 ^ 32) →
      (s.runs 22 = false ∨ s.runs 14 = false ∨ (s.waiting.any fun (x : Access) => decide (x.path = 0)) = true) →
      Completes (.bar2Read off n bads) s fun t =>
        (t.waiting = s.waiting ++ [Access.mk 0 false (2 ^ 26 + off) n 4]) ∧
        (t = { s with waiting := t.waiting })) ∧
  (∀ (s : State) (off : Nat) (bytes : List Byte),
      (s.canonical = true) →
      (s.host.perst = false) →
      (s.host.d3 = false) →
      (off + bytes.length ≤ 2 ^ 32) →
      (s.runs 22 = false ∨ s.runs 14 = false ∨ (s.waiting.any fun (x : Access) => decide (x.path = 0)) = true) →
      Completes (.bar2Write off bytes) s fun t =>
        (t.waiting = s.waiting ++ [Access.mk 0 true (2 ^ 26 + off) (ofLe bytes + 2 ^ (8 * bytes.length)) 4]) ∧
        (t = { s with waiting := t.waiting })) ∧
  (∀ (s : State) (off n : Nat) (bads : List (List (Nat × Nat))),
      (s.canonical = true) →
      (s.host.perst = true ∨ s.host.d3 = true ∨ 2 ^ 32 < off + n) →
      Completes (.bar2Read off n bads) s fun t =>
        (t = s)) ∧
  (∀ (s : State) (off : Nat) (bytes : List Byte),
      (s.canonical = true) →
      (s.host.perst = true ∨ s.host.d3 = true ∨ 2 ^ 32 < off + bytes.length) →
      Completes (.bar2Write off bytes) s fun t =>
        (t = s))

/-- An aligned 32-bit write that reaches a plain register sets its RW bits, its RWL bits until the life-cycle lock, which then refuses and
records it, and clears W1C bits written 1; bits a committed layer locks stay and the write is counted; of a host and a firmware write in one
cycle the host bits stand; no other register changes. Eight bytes are two accesses. Writes in the SNS, LT, PWM and WB blocks join the
journal of the module that holds the lock. A write to an address without a register changes nothing; one that is short, unaligned or outside
every block is counted, shown in SYS_HIF_LAST and raises its cause; one to a stopped domain, or behind a waiting access of its path, waits.
A WO register runs the command its value names. Pins, timers and rings refuse other parties than their owner; a lane or output mode of a
running tile, a running converter's period and words of a loaded partition are refused and counted, coefficients of a bank in use set
BANK_BUSY, a bad ORDER sets BAD_ORDER. -/
def Obligations.RegisterWritesUnderTheirAccessCodes : Prop :=
  (∀ (s : State) (path addr size value now : Nat) (row : RegRow),
      (s.canonical = true) →
      (s.carries path addr = true) →
      (size = 4) →
      (value < 2 ^ 32) →
      (regRow? addr = some row) →
      (plainAddr addr = true) →
      (s.takesWrite addr value = true) →
      (row.pair = 0) →
      (row.sx = false) →
      (s.layerBits addr = 0) →
      (s.logicBanks addr = 0) →
      (s.hostWrite = none ∨ pathOwner path = 0x40) →
      Completes (.registerWrite path addr size value now) s fun t =>
        (((List.range 32).all fun k => decide (bitOf (t.rd addr).toNat k = s.codeBit row addr value k)) = true) ∧
        (t.events = s.events ++ (if row.rwl ≠ 0 ∧ s.isF Reg.LCS_STATUS_LOCK = true then [LogEvent.mk 0x0006 0xFFFF [addr, value, path]] else [])) ∧
        (t.twn = { s.twn with journal := s.twn.journal ++ (if 0x40000 ≤ addr ∧ addr < 0x80000 ∧ s.isF Reg.TWN_STATUS_LOCK = true ∧ row.rw ||| row.rwl ||| row.w1c ≠ 0 then [(addr, value)] else []) }) ∧
        (t.hostWrite = if pathOwner path = 0x40 then some (addr, value, now) else s.hostWrite) ∧
        (OnlyRegs s t [addr]) ∧
        (t = { s with regs := t.regs, events := t.events, irq := t.irq, twn := t.twn, hostWrite := t.hostWrite })) ∧
  (∀ (s : State) (path addr size value now : Nat) (row : RegRow) (h : Nat),
      (s.canonical = true) →
      (s.carries path addr = true) →
      (size = 4) →
      (value < 2 ^ 32) →
      (regRow? addr = some row) →
      (plainAddr addr = true) →
      (s.takesWrite addr value = true) →
      (row.pair = 0) →
      (row.sx = false) →
      (s.layerBits addr = 0) →
      (s.logicBanks addr = 0) →
      (pathOwner path = 0x41) →
      (s.hostWrite = some (addr, h, now)) →
      Completes (.registerWrite path addr size value now) s fun t =>
        (((List.range 32).all fun k => decide (bitOf (t.rd addr).toNat k = s.codeBit row addr (maskInto value (row.rw ||| row.rwl) h) k)) = true) ∧
        (OnlyRegs s t [addr]) ∧
        (t = { s with regs := t.regs, events := t.events, irq := t.irq, twn := t.twn })) ∧
  (∀ (s : State) (path addr size value now : Nat) (row : RegRow) (n : Nat),
      (s.canonical = true) →
      (s.carries path addr = true) →
      (size = 4) →
      (value < 2 ^ 32) →
      (regRow? addr = some row) →
      (n < 96) →
      (addr = Reg.LT_CTL.addr n 0) →
      (s.laneChangeRefused addr value = false) →
      (s.layerBits addr = 0) →
      (s.hostWrite = none ∨ pathOwner path = 0x40) →
      Completes (.registerWrite path addr size value now) s fun t =>
        (((List.range 32).all fun k => decide (bitOf (t.rd addr).toNat k = s.codeBit row addr value k)) = true) ∧
        (t.twn = { s.twn with journal := s.twn.journal ++ (if 0x40000 ≤ addr ∧ addr < 0x80000 ∧ s.isF Reg.TWN_STATUS_LOCK = true ∧ row.rw ||| row.rwl ||| row.w1c ≠ 0 then [(addr, value)] else []) }) ∧
        (t.hostWrite = if pathOwner path = 0x40 then some (addr, value, now) else s.hostWrite) ∧
        (t.lt = if (s.tile n).cut = true ∧ bitOf value 31 = false then { s.lt with tile := Sparse.upd {} s.lt.tile n { s.tile n with zero := true } } else s.lt) ∧
        (OnlyRegs s t [addr]) ∧
        (t = { s with regs := t.regs, events := t.events, irq := t.irq, twn := t.twn, hostWrite := t.hostWrite, lt := t.lt })) ∧
  (∀ (s : State) (path addr size value now : Nat) (row : RegRow),
      (s.canonical = true) →
      (s.carries path addr = true) →
      (size = 4) →
      (value < 2 ^ 32) →
      (regRow? addr = some row) →
      (plainAddr addr = true) →
      (s.takesWrite addr value = true) →
      (row.pair = 0) →
      (row.sx = false) →
      (s.layerBits addr &&& (row.rw ||| row.rwl) ≠ 0) →
      (addr ≠ Reg.CFG_LOCKED_WRITES.addr 0 0) →
      (s.logicBanks addr = 0) →
      (s.hostWrite = none ∨ pathOwner path = 0x40) →
      Completes (.registerWrite path addr size value now) s fun t =>
        (((List.range 32).all fun k => decide (bitOf (t.rd addr).toNat k = s.codeBit row addr value k)) = true) ∧
        (Counts s t Reg.CFG_LOCKED_WRITES 0 1) ∧
        (t.events = s.events ++ (if row.rwl ≠ 0 ∧ s.isF Reg.LCS_STATUS_LOCK = true then [LogEvent.mk 0x0006 0xFFFF [addr, value, path]] else [])) ∧
        (t.hostWrite = if pathOwner path = 0x40 then some (addr, value, now) else s.hostWrite) ∧
        (OnlyRegs s t [addr, (Reg.CFG_LOCKED_WRITES.addr 0 0)]) ∧
        (t = { s with regs := t.regs, events := t.events, irq := t.irq, twn := t.twn, hostWrite := t.hostWrite })) ∧
  (∀ (s : State) (path addr size value now : Nat),
      (s.canonical = true) →
      (s.carries path addr = true) →
      (size = 4) →
      (regRow? addr = none) →
      Completes (.registerWrite path addr size value now) s fun t =>
        (t = s)) ∧
  (∀ (s : State) (path addr size value now : Nat),
      (s.canonical = true) →
      (path < 5) →
      (path ≠ 0 ∨ (s.host.perst = false ∧ s.host.d3 = false)) →
      (addr % accessBytes size = 0) →
      (blockDomain addr ≠ none) →
      (size < 4) →
      Completes (.registerWrite path addr size value now) s fun t =>
        (Counts s t Reg.SYS_HIF_ERR_SHORT 0 1) ∧
        (SetsFields s t (Reg.SYS_HIF_LAST.addr 0 0) [(Reg.SYS_HIF_LAST_PATH, path), (Reg.SYS_HIF_LAST_KIND, 1), (Reg.SYS_HIF_LAST_OFFSET, addr)]) ∧
        (Raises s t 0 [0]) ∧
        (OnlyRegs s t [(Reg.SYS_HIF_ERR.addr 0 0), (Reg.SYS_HIF_LAST.addr 0 0), (Reg.SYS_IRQ_CAUSE.addr 0 0)]) ∧
        (t = { s with regs := t.regs })) ∧
  (∀ (s : State) (path addr size value now : Nat),
      (s.canonical = true) →
      (path < 5) →
      (path ≠ 0 ∨ (s.host.perst = false ∧ s.host.d3 = false)) →
      (addr % accessBytes size ≠ 0) →
      (blockDomain addr ≠ none) →
      (size ≤ 4) →
      Completes (.registerWrite path addr size value now) s fun t =>
        (Counts s t Reg.SYS_HIF_ERR_UNALIGNED 0 1) ∧
        (SetsFields s t (Reg.SYS_HIF_LAST.addr 0 0) [(Reg.SYS_HIF_LAST_PATH, path), (Reg.SYS_HIF_LAST_KIND, 2), (Reg.SYS_HIF_LAST_OFFSET, addr)]) ∧
        (Raises s t 0 [1]) ∧
        (OnlyRegs s t [(Reg.SYS_HIF_ERR.addr 0 0), (Reg.SYS_HIF_LAST.addr 0 0), (Reg.SYS_IRQ_CAUSE.addr 0 0)]) ∧
        (t = { s with regs := t.regs })) ∧
  (∀ (s : State) (path addr size value now : Nat),
      (s.canonical = true) →
      (path < 5) →
      (path ≠ 0 ∨ (s.host.perst = false ∧ s.host.d3 = false)) →
      (addr % accessBytes size ≠ 0) →
      (blockDomain addr = none) →
      (size ≤ 4) →
      Completes (.registerWrite path addr size value now) s fun t =>
        (Counts s t Reg.SYS_HIF_ERR_UNALIGNED 0 1) ∧
        (Counts s t Reg.SYS_HIF_GAP 0 1) ∧
        (SetsFields s t (Reg.SYS_HIF_LAST.addr 0 0) [(Reg.SYS_HIF_LAST_PATH, path), (Reg.SYS_HIF_LAST_KIND, 3), (Reg.SYS_HIF_LAST_OFFSET, addr)]) ∧
        (Raises s t 0 [1, 2]) ∧
        (OnlyRegs s t [(Reg.SYS_HIF_ERR.addr 0 0), (Reg.SYS_HIF_GAP.addr 0 0), (Reg.SYS_HIF_LAST.addr 0 0), (Reg.SYS_IRQ_CAUSE.addr 0 0)]) ∧
        (t = { s with regs := t.regs })) ∧
  (∀ (s : State) (path addr size value now : Nat),
      (s.canonical = true) →
      (size = 8) →
      (value < 2 ^ 64) →
      Completes (.registerWrite path addr size value now) s fun t =>
        ((match exec (.registerWrite path (addr + 4) 4 (value / 2 ^ 32) now) ((match exec (.registerWrite path addr 4 (value % 2 ^ 32) now) s with | .next u => u | _ => s)) with | .next u => decide (u = t) | _ => false) = true)) ∧
  (∀ (s : State) (path addr size value now : Nat),
      (s.canonical = true) →
      (path < 5) →
      (path ≠ 0 ∨ (s.host.perst = false ∧ s.host.d3 = false)) →
      (addr % accessBytes size = 0) →
      (blockDomain addr = none) →
      (size ≤ 4) →
      Completes (.registerWrite path addr size value now) s fun t =>
        (Counts s t Reg.SYS_HIF_GAP 0 1) ∧
        (SetsFields s t (Reg.SYS_HIF_LAST.addr 0 0) [(Reg.SYS_HIF_LAST_PATH, path), (Reg.SYS_HIF_LAST_KIND, 3), (Reg.SYS_HIF_LAST_OFFSET, addr)]) ∧
        (Raises s t 0 [2]) ∧
        (OnlyRegs s t [(Reg.SYS_HIF_GAP.addr 0 0), (Reg.SYS_HIF_LAST.addr 0 0), (Reg.SYS_IRQ_CAUSE.addr 0 0)]) ∧
        (t = { s with regs := t.regs })) ∧
  (∀ (s : State) (path addr size value now : Nat),
      (s.canonical = true) →
      (path < 5) →
      (path ≠ 0 ∨ (s.host.perst = false ∧ s.host.d3 = false)) →
      (addr % 4 = 0) →
      (blockDomain addr ≠ none) →
      (size = 4) →
      (value < 2 ^ 32) →
      (s.answers addr = false ∨ (s.waiting.any fun (x : Access) => decide (x.path = path)) = true) →
      Completes (.registerWrite path addr size value now) s fun t =>
        (t.waiting = s.waiting ++ [Access.mk path true addr value 4]) ∧
        (t = { s with waiting := t.waiting })) ∧
  (∀ (s : State) (path addr size value now : Nat),
      (s.canonical = true) →
      (5 ≤ path ∨ (path = 0 ∧ (s.host.perst = true ∨ s.host.d3 = true))) →
      (size ≤ 4) →
      Completes (.registerWrite path addr size value now) s fun t =>
        (t = s)) ∧
  (∀ (s : State) (path addr size value now : Nat) (f : Fld) (c : Instr),
      (s.canonical = true) →
      (s.carries path addr = true) →
      (size = 4) →
      (value < 2 ^ 32) →
      ((f, value, c) ∈ ([(Reg.CFG_CMD, 3, Instr.cfgAbort path), (Reg.CFG_CMD, 5, .cfgClear path), (Reg.TH_PART_CMD, 1, .partLoad 0), (Reg.CTX_CMD, 1, .ctxAlloc path 0 now), (Reg.HNT_CMD, 1, .hntDiscover), (Reg.CPC_CMD, 1, .contractSet now), (Reg.LDG_CMD, 3, .stepDown now), (Reg.SNAP_CMD, 1, .snapArm), (Reg.PKL_CMD, 1, .enumerate now), (Reg.EST_CMD, 6, .estAuth), (Reg.TWN_CMD, 2, .twnSwitch), (Reg.PWR_CMD, 2, .pwrRun now), (Reg.CLK_CMD, 1, .clkSwitch), (Reg.LOG_CMD, 1, .logFreeze now), (Reg.LCS_CMD, 3, .lcLock), (Reg.WB_CMD, 1, .wbHold), (Reg.SYS_IRQ_ACK, 8, .irqAck 8 now)] : List (Fld × Nat × Instr))) →
      (addr = f.addr 0 0) →
      Completes (.registerWrite path addr size value now) s fun t =>
        ((match exec (c) (s) with | .next u => decide (u = t) | _ => false) = true)) ∧
  (∀ (s : State) (path addr size value now : Nat),
      (s.canonical = true) →
      (s.carries path addr = true) →
      (size = 4) →
      (value < 2 ^ 32) →
      (0x1000 ≤ addr) →
      (addr < 0x1080) →
      (bitOf value 30 = false) →
      (s.getF Reg.CFG_OWN_OWNER ((addr - 0x1000) / 4) ≠ pathOwner path) →
      Completes (.registerWrite path addr size value now) s fun t =>
        (SetsField s t Reg.SYS_PIN_DENIED ((addr - 0x1000) / 4) 1) ∧
        (OnlyRegs s t [(Reg.SYS_PIN.addr (((addr - 0x1000) / 4)) 0)]) ∧
        (t = { s with regs := t.regs })) ∧
  (∀ (s : State) (path addr size value now : Nat),
      (s.canonical = true) →
      (s.carries path addr = true) →
      (size = 4) →
      (value < 2 ^ 32) →
      (0x5F800 ≤ addr) →
      (addr < 0x5F900) →
      ((addr - 0x5F800) % 16 ≠ 12) →
      (s.getF Reg.CFG_OWN_OWNER (0x170 + (addr - 0x5F800) / 16) ≠ pathOwner path) →
      Completes (.registerWrite path addr size value now) s fun t =>
        (SetsField s t Reg.LT_TMR_STAT_CONFLICT ((addr - 0x5F800) / 16) 1) ∧
        (OnlyRegs s t [(Reg.LT_TMR_STAT.addr (((addr - 0x5F800) / 16)) 0)]) ∧
        (t = { s with regs := t.regs })) ∧
  (∀ (s : State) (path addr size value now : Nat),
      (s.canonical = true) →
      (s.carries path addr = true) →
      (size = 4) →
      (value < 2 ^ 32) →
      (0x101000 ≤ addr) →
      (addr < 0x101800) →
      (regRow? addr ≠ none) →
      (s.getF Reg.CFG_OWN_OWNER (0x180 + (addr - 0x101000) / 32) ≠ pathOwner path) →
      Completes (.registerWrite path addr size value now) s fun t =>
        (SetsField s t Reg.CTX_CAP_STAT_CONFLICT ((addr - 0x101000) / 32) 1) ∧
        (OnlyRegs s t [(Reg.CTX_CAP_STAT.addr (((addr - 0x101000) / 32)) 0)]) ∧
        (t = { s with regs := t.regs })) ∧
  (∀ (s : State) (path addr size value now : Nat) (n : Nat),
      (s.canonical = true) →
      (s.carries path addr = true) →
      (size = 4) →
      (value < 2 ^ 32) →
      (n < 96) →
      (addr = Reg.LT_CTL.addr n 0) →
      (s.layerBits addr = 0) →
      ((s.tile n).run = true) →
      (bitOf (s.rd addr).toNat 26 ≠ bitOf value 26) →
      Completes (.registerWrite path addr size value now) s fun t =>
        (Counts s t Reg.CFG_LOCKED_WRITES 0 1) ∧
        (OnlyRegs s t [(Reg.CFG_LOCKED_WRITES.addr 0 0)]) ∧
        (t = { s with regs := t.regs })) ∧
  (∀ (s : State) (path addr size value now : Nat) (c : Nat),
      (s.canonical = true) →
      (s.carries path addr = true) →
      (size = 4) →
      (value < 2 ^ 32) →
      (c < 4) →
      (addr = Reg.PWM_CONV_PERIOD.addr c 0) →
      (s.convOn c = true) →
      (s.layerBits addr = 0) →
      Completes (.registerWrite path addr size value now) s fun t =>
        (Counts s t Reg.CFG_LOCKED_WRITES 0 1) ∧
        (OnlyRegs s t [(Reg.CFG_LOCKED_WRITES.addr 0 0)]) ∧
        (t = { s with regs := t.regs })) ∧
  (∀ (s : State) (path addr size value now : Nat) (p k : Nat),
      (s.canonical = true) →
      (s.carries path addr = true) →
      (size = 4) →
      (value < 2 ^ 32) →
      (p < 16) →
      (k < 39) →
      (s.layerBits addr = 0) →
      (addr = 0x1001000 + 256 * p + 4 * k) →
      (s.partState p = partLoading ∨ s.partState p = partReady ∨ s.partState p = partRunning) →
      Completes (.registerWrite path addr size value now) s fun t =>
        (Counts s t Reg.CFG_LOCKED_WRITES 0 1) ∧
        (OnlyRegs s t [(Reg.CFG_LOCKED_WRITES.addr 0 0)]) ∧
        (t = { s with regs := t.regs })) ∧
  (∀ (s : State) (path addr size value now : Nat) (n i : Nat),
      (s.canonical = true) →
      (s.carries path addr = true) →
      (size = 4) →
      (value < 2 ^ 32) →
      (n < 96) →
      (i < 10) →
      (s.isE Reg.LT_CTL_SWAP_SRC n = true) →
      (addr = 0x51000 + 512 * n + (if s.bank n = true then 0x80 else 0x40) + 4 * i) →
      (regRow? addr ≠ none) →
      (s.partRefused addr = false) →
      (s.layerBits addr = 0) →
      Completes (.registerWrite path addr size value now) s fun t =>
        (SetsField s t Reg.LT_STAT_BANK_BUSY n 1) ∧
        (OnlyRegs s t [(Reg.LT_STAT_BANK_BUSY.addr n 0)]) ∧
        (t = { s with regs := t.regs })) ∧
  (∀ (s : State) (path addr size value now : Nat),
      (s.canonical = true) →
      (s.carries path addr = true) →
      (size = 4) →
      (value < 2 ^ 32) →
      (addr = Reg.CPC_ORDER.addr 0 0) →
      (value / 2 ^ 24 ∉ [0x06, 0x09, 0x12, 0x18, 0x21, 0x24]) →
      (s.layerBits addr = 0) →
      Completes (.registerWrite path addr size value now) s fun t =>
        (SetsField s t Reg.CPC_STATUS_BAD_ORDER 0 1) ∧
        (OnlyRegs s t [(Reg.CPC_STATUS.addr 0 0)]) ∧
        (t = { s with regs := t.regs }))

/-- A read of one or two bytes returns the addressed bytes; an unaligned one is counted and answers a free value (log entry 14), one in no block
zero. Reading a pair's low word latches the high word for that path alone; a high word reads what the path latched for that pair, else zero.
A low word written is held without effect; the high word applies both, with a low word of zero where the path holds none or another pair's,
which then stays held. The management port carries out a READ or a WRITE of a register whose block SYS_MGMT_WMASK opens, answers, keeps the
response and counts it; another block is DENIED; one beyond its range is BAD_REQUEST; one without the tag that AUTH_REQ asks for gets AUTH
and raises its cause; a repeated request gets the kept response; an old SEQ is dropped and counted; a frame that is no datagram to the port
only counts; a request on a stopped domain waits. The oldest waiting access of a path goes on, exactly as if it came now, once its domain
runs. -/
def Obligations.PairsManagementPortAndWaitingAccesses : Prop :=
  (∀ (s : State) (path addr size : Nat),
      (s.canonical = true) →
      (s.carries path addr = true) →
      (size = 4) →
      (pathWord (addr) = false) →
      (pathWord (addr + 4) = false) →
      (addr ∉ [0x18, 0x40, 0x3000008]) →
      (windowOf (addr) = none) →
      (pairRole addr = 1) →
      Completes (.pairLowRead path addr size) s fun t =>
        (t.outbox = s.outbox ++ [Out.mk .accessDone [path, addr, (s.rd addr).toNat]]) ∧
        (t.latch = Sparse.insert s.latch path (addr, (s.rd (addr + 4)).toNat)) ∧
        (t = { s with latch := t.latch, outbox := t.outbox })) ∧
  (∀ (s : State) (path addr size : Nat),
      (s.canonical = true) →
      (s.carries path addr = true) →
      (size = 4) →
      (addr = 0x18) →
      Completes (.pairLowRead path addr size) s fun t =>
        (t.outbox = s.outbox ++ [Out.mk .accessDone [path, addr, s.frame % 2 ^ 32]]) ∧
        (t.latch = Sparse.insert s.latch path (addr, s.frame / 2 ^ 32 % 2 ^ 32)) ∧
        (t = { s with latch := t.latch, outbox := t.outbox })) ∧
  (∀ (s : State) (path addr size : Nat) (hi : Nat),
      (s.canonical = true) →
      (s.carries path addr = true) →
      (size = 4) →
      (pairRole addr = 2) →
      (windowOf (addr) = none) →
      (Sparse.find s.latch path = some (addr - 4, hi)) →
      Completes (.pairLowRead path addr size) s fun t =>
        (t.outbox = s.outbox ++ [Out.mk .accessDone [path, addr, hi % 2 ^ 32]]) ∧
        (t = { s with outbox := t.outbox })) ∧
  (∀ (s : State) (path addr size : Nat),
      (s.canonical = true) →
      (s.carries path addr = true) →
      (size = 4) →
      (pairRole addr = 2) →
      (windowOf (addr) = none) →
      ((Sparse.find s.latch path).map (fun (e : Nat × Nat) => e.1) ≠ some (addr - 4)) →
      Completes (.pairLowRead path addr size) s fun t =>
        (t.outbox = s.outbox ++ [Out.mk .accessDone [path, addr, 0]]) ∧
        (t = { s with outbox := t.outbox })) ∧
  (∀ (s : State) (path addr size : Nat),
      (s.canonical = true) →
      (s.carries path addr = true) →
      (size = 4) →
      (pathWord (addr) = false) →
      (pathWord (addr + 4) = false) →
      (addr ∉ [0x18, 0x40, 0x3000008]) →
      (windowOf (addr) = none) →
      (addr ≠ Reg.EST_REC.addr 0 0) →
      (addr ≠ Reg.SNS_CC_ACC0.addr 40 0) →
      (addr ≠ Reg.SNS_CC_ACC0.addr 41 0) →
      (addr ≠ 0x1C) →
      (pairRole (addr) = 0) →
      Completes (.pairLowRead path addr size) s fun t =>
        (t.outbox = s.outbox ++ [Out.mk .accessDone [path, addr, (s.rd addr).toNat]]) ∧
        (t = { s with outbox := t.outbox })) ∧
  (∀ (s : State) (path addr size : Nat),
      (s.canonical = true) →
      (size = 1 ∨ size = 2) →
      (addr % size = 0) →
      (s.carries path (addr / 4 * 4) = true) →
      (windowOf (addr) = none) →
      (pathWord (addr / 4 * 4) = false) →
      (pairRole (addr / 4 * 4) = 0) →
      (addr / 4 * 4 ∉ [0x1C, 0x40, 0x3000008]) →
      (addr / 4 * 4 ≠ Reg.EST_REC.addr 0 0) →
      (addr / 4 * 4 ≠ Reg.SNS_CC_ACC0.addr 40 0) →
      (addr / 4 * 4 ≠ Reg.SNS_CC_ACC0.addr 41 0) →
      Completes (.pairLowRead path addr size) s fun t =>
        (t.outbox = s.outbox ++ [Out.mk .accessDone [path, addr, bitsOf (s.rd (addr / 4 * 4)).toNat (8 * (addr % 4)) (8 * size)]]) ∧
        (t = { s with outbox := t.outbox })) ∧
  (∀ (s : State) (path addr size : Nat),
      (s.canonical = true) →
      (path < 5) →
      (path ≠ 0 ∨ (s.host.perst = false ∧ s.host.d3 = false)) →
      (addr % accessBytes size ≠ 0) →
      (blockDomain addr ≠ none) →
      (size ≤ 4) →
      Completes (.pairLowRead path addr size) s fun t =>
        (Counts s t Reg.SYS_HIF_ERR_UNALIGNED 0 1) ∧
        (SetsFields s t (Reg.SYS_HIF_LAST.addr 0 0) [(Reg.SYS_HIF_LAST_PATH, path), (Reg.SYS_HIF_LAST_KIND, 2), (Reg.SYS_HIF_LAST_OFFSET, addr)]) ∧
        (Raises s t 0 [1]) ∧
        (t.free = s.free + 1) ∧
        (t.outbox = s.outbox ++ [Out.mk .accessDone [path, addr, t.freeVal 3]]) ∧
        (OnlyRegs s t [(Reg.SYS_HIF_ERR.addr 0 0), (Reg.SYS_HIF_LAST.addr 0 0), (Reg.SYS_IRQ_CAUSE.addr 0 0)]) ∧
        (t = { s with regs := t.regs, free := t.free, outbox := t.outbox })) ∧
  (∀ (s : State) (path addr size : Nat),
      (s.canonical = true) →
      (path < 5) →
      (path ≠ 0 ∨ (s.host.perst = false ∧ s.host.d3 = false)) →
      (addr % accessBytes size = 0) →
      (blockDomain addr = none) →
      (size ≤ 4) →
      Completes (.pairLowRead path addr size) s fun t =>
        (Counts s t Reg.SYS_HIF_GAP 0 1) ∧
        (SetsFields s t (Reg.SYS_HIF_LAST.addr 0 0) [(Reg.SYS_HIF_LAST_PATH, path), (Reg.SYS_HIF_LAST_KIND, 3), (Reg.SYS_HIF_LAST_OFFSET, addr)]) ∧
        (Raises s t 0 [2]) ∧
        (t.outbox = s.outbox ++ [Out.mk .accessDone [path, addr, 0]]) ∧
        (OnlyRegs s t [(Reg.SYS_HIF_GAP.addr 0 0), (Reg.SYS_HIF_LAST.addr 0 0), (Reg.SYS_IRQ_CAUSE.addr 0 0)]) ∧
        (t = { s with regs := t.regs, outbox := t.outbox })) ∧
  (∀ (s : State) (path addr size : Nat),
      (s.canonical = true) →
      (path < 5) →
      (path ≠ 0 ∨ (s.host.perst = false ∧ s.host.d3 = false)) →
      (addr % accessBytes size = 0) →
      (blockDomain addr ≠ none) →
      (size ≤ 4) →
      (s.answers addr = false ∨ (s.waiting.any fun (x : Access) => decide (x.path = path)) = true) →
      Completes (.pairLowRead path addr size) s fun t =>
        (t.waiting = s.waiting ++ [Access.mk path false addr 0 size]) ∧
        (t = { s with waiting := t.waiting })) ∧
  (∀ (s : State) (path addr size : Nat),
      (s.canonical = true) →
      (5 ≤ path ∨ (path = 0 ∧ (s.host.perst = true ∨ s.host.d3 = true))) →
      (size ≤ 4) →
      Completes (.pairLowRead path addr size) s fun t =>
        (t = s)) ∧
  (∀ (s : State) (path addr value now : Nat),
      (pairRole addr ≠ 1) →
      Completes (.pairLowWrite path addr value now) s fun t =>
        (t = s)) ∧
  (∀ (s : State) (path addr value now : Nat),
      (pairRole addr ≠ 2) →
      Completes (.pairHighWrite path addr value now) s fun t =>
        (t = s)) ∧
  (∀ (s : State) (path addr value now : Nat),
      (s.canonical = true) →
      (s.carries path addr = true) →
      (pairRole addr = 1) →
      (value < 2 ^ 32) →
      (windowOf (addr) = none) →
      Completes (.pairLowWrite path addr value now) s fun t =>
        (t.held = Sparse.insert s.held path (addr, value)) ∧
        (t = { s with held := t.held })) ∧
  (∀ (s : State) (path addr value now vlo : Nat) (row lo : RegRow),
      (s.canonical = true) →
      (s.carries path addr = true) →
      (pairRole addr = 2) →
      (value < 2 ^ 32) →
      (regRow? addr = some row) →
      (row.rw = 0xFFFFFFFF) →
      (row.sx = false) →
      (regRow? (addr - 4) = some lo) →
      (lo.rw = 0xFFFFFFFF) →
      (lo.sx = false) →
      (plainAddr addr = true) →
      (plainAddr (addr - 4) = true) →
      (addr < 0x40000 ∨ 0x80000 ≤ addr) →
      (s.layerBits addr = 0) →
      (s.layerBits (addr - 4) = 0) →
      (s.partRefused addr = false) →
      (s.partRefused (addr - 4) = false) →
      (addr ≠ Reg.LOG_RD_SEQ_LO.addr 0 0 + 4) →
      (row.rwl = 0) →
      (lo.rwl = 0) →
      (s.logicBanks addr = 0) →
      (s.logicBanks (addr - 4) = 0) →
      (s.hostWrite = none ∨ pathOwner path = 0x40) →
      (Sparse.find s.held path = some (addr - 4, vlo)) →
      Completes (.pairHighWrite path addr value now) s fun t =>
        (t.rd addr = BitVec.ofNat 32 value) ∧
        (t.rd (addr - 4) = BitVec.ofNat 32 vlo) ∧
        (t.held = Sparse.erase s.held path) ∧
        (OnlyRegs s t [addr, addr - 4]) ∧
        (t = { s with regs := t.regs, held := t.held, hostWrite := t.hostWrite })) ∧
  (∀ (s : State) (path addr value now : Nat) (row lo : RegRow),
      (s.canonical = true) →
      (s.carries path addr = true) →
      (pairRole addr = 2) →
      (value < 2 ^ 32) →
      (regRow? addr = some row) →
      (row.rw = 0xFFFFFFFF) →
      (row.sx = false) →
      (regRow? (addr - 4) = some lo) →
      (lo.rw = 0xFFFFFFFF) →
      (lo.sx = false) →
      (plainAddr addr = true) →
      (plainAddr (addr - 4) = true) →
      (addr < 0x40000 ∨ 0x80000 ≤ addr) →
      (s.layerBits addr = 0) →
      (s.layerBits (addr - 4) = 0) →
      (s.partRefused addr = false) →
      (s.partRefused (addr - 4) = false) →
      (addr ≠ Reg.LOG_RD_SEQ_LO.addr 0 0 + 4) →
      (row.rwl = 0) →
      (lo.rwl = 0) →
      (s.logicBanks addr = 0) →
      (s.logicBanks (addr - 4) = 0) →
      (s.hostWrite = none ∨ pathOwner path = 0x40) →
      ((Sparse.find s.held path).map (fun (e : Nat × Nat) => e.1) ≠ some (addr - 4)) →
      Completes (.pairHighWrite path addr value now) s fun t =>
        (t.rd addr = BitVec.ofNat 32 value) ∧
        (t.rd (addr - 4) = 0#32) ∧
        (OnlyRegs s t [addr, addr - 4]) ∧
        (t = { s with regs := t.regs, hostWrite := t.hostWrite })) ∧
  (∀ (s : State) (requester seq offset now : Nat) (frame : List Byte),
      (s.canonical = true) →
      (s.datagram 2 s.mgmtPort frame = some (mgmtMsg 1 1 requester seq offset 0 [])) →
      (s.mgmtIdle = true) →
      (s.mgmtNew requester seq = true) →
      (s.isF Reg.SYS_MGMT_CFG_AUTH_REQ = false) →
      (requester < 2 ^ 64) →
      (seq < 2 ^ 32) →
      (offset % 4 = 0) →
      (offset + 4 ≤ 0x130000) →
      (pathWord (offset) = false) →
      (pathWord (offset + 4) = false) →
      (offset ∉ [0x18, 0x40, 0x3000008]) →
      (windowOf (offset) = none) →
      (offset ≠ Reg.EST_REC.addr 0 0) →
      (offset ≠ Reg.SNS_CC_ACC0.addr 40 0) →
      (offset ≠ Reg.SNS_CC_ACC0.addr 41 0) →
      (offset ≠ 0x1C) →
      (pairRole (offset) = 0) →
      (s.answers offset = true) →
      Completes (.mgmtRead frame now) s fun t =>
        (t.outbox = s.outbox ++ [Out.mk .mgmt (((mgmtMsg 3 1 requester seq offset 0 (beBytes 4 (s.rd offset).toNat)).map fun (b : Byte) => b.toNat))]) ∧
        (t.host = s.host.answered requester seq (mgmtMsg 3 1 requester seq offset 0 (beBytes 4 (s.rd offset).toNat))) ∧
        (Counts s t Reg.SYS_MGMT_REQS 0 1) ∧
        (OnlyRegs s t [(Reg.SYS_MGMT_REQS.addr 0 0)]) ∧
        (t = { s with regs := t.regs, host := t.host, outbox := t.outbox })) ∧
  (∀ (s : State) (requester seq offset value now : Nat) (row : RegRow) (frame : List Byte),
      (s.canonical = true) →
      (s.datagram 2 s.mgmtPort frame = some (mgmtMsg 2 1 requester seq offset 0 (beBytes 4 value))) →
      (s.mgmtIdle = true) →
      (s.mgmtNew requester seq = true) →
      (s.isF Reg.SYS_MGMT_CFG_AUTH_REQ = false) →
      (requester < 2 ^ 64) →
      (seq < 2 ^ 32) →
      (offset % 4 = 0) →
      (offset + 4 ≤ 0x130000) →
      (regRow? offset = some row) →
      (plainAddr offset = true) →
      (s.takesWrite offset value = true) →
      (row.pair = 0) →
      (row.sx = false) →
      (row.rwl = 0) →
      (s.layerBits offset = 0) →
      (value < 2 ^ 32) →
      (offset < 0x40000 ∨ 0x80000 ≤ offset) →
      (offset ≠ Reg.SYS_MGMT_REQS.addr 0 0) →
      (s.logicBanks offset = 0) →
      (bitOf (s.getF Reg.SYS_MGMT_WMASK) (offset / 65536) = true) →
      (s.answers offset = true) →
      Completes (.mgmtWrite frame now) s fun t =>
        (t.outbox = s.outbox ++ [Out.mk .mgmt (((mgmtMsg 4 1 requester seq offset 0 []).map fun (b : Byte) => b.toNat))]) ∧
        (t.host = s.host.answered requester seq (mgmtMsg 4 1 requester seq offset 0 [])) ∧
        (Counts s t Reg.SYS_MGMT_REQS 0 1) ∧
        (((List.range 32).all fun k => decide (bitOf (t.rd offset).toNat k = s.codeBit row offset value k)) = true) ∧
        (t.hostWrite = some (offset, value, now)) ∧
        (OnlyRegs s t [(Reg.SYS_MGMT_REQS.addr 0 0), offset]) ∧
        (t = { s with regs := t.regs, host := t.host, outbox := t.outbox, irq := t.irq, hostWrite := t.hostWrite })) ∧
  (∀ (s : State) (requester seq offset value now : Nat) (frame : List Byte),
      (s.canonical = true) →
      (s.datagram 2 s.mgmtPort frame = some (mgmtMsg 2 1 requester seq offset 0 (beBytes 4 value))) →
      (s.mgmtIdle = true) →
      (s.mgmtNew requester seq = true) →
      (s.isF Reg.SYS_MGMT_CFG_AUTH_REQ = false) →
      (requester < 2 ^ 64) →
      (seq < 2 ^ 32) →
      (offset % 4 = 0) →
      (offset + 4 ≤ 0x130000) →
      (value < 2 ^ 32) →
      (bitOf (s.getF Reg.SYS_MGMT_WMASK) (offset / 65536) = false) →
      Completes (.mgmtWrite frame now) s fun t =>
        (t.outbox = s.outbox ++ [Out.mk .mgmt (((mgmtMsg 4 1 requester seq offset 1 []).map fun (b : Byte) => b.toNat))]) ∧
        (t.host = s.host.answered requester seq (mgmtMsg 4 1 requester seq offset 1 [])) ∧
        (Counts s t Reg.SYS_MGMT_REQS 0 1) ∧
        (OnlyRegs s t [(Reg.SYS_MGMT_REQS.addr 0 0)]) ∧
        (t = { s with regs := t.regs, host := t.host, outbox := t.outbox })) ∧
  (∀ (s : State) (requester seq offset now : Nat) (frame : List Byte),
      (s.canonical = true) →
      (s.datagram 2 s.mgmtPort frame = some (mgmtMsg 1 1 requester seq offset 0 [])) →
      (s.mgmtIdle = true) →
      (s.mgmtNew requester seq = true) →
      (s.isF Reg.SYS_MGMT_CFG_AUTH_REQ = false) →
      (requester < 2 ^ 64) →
      (seq < 2 ^ 32) →
      (offset % 4 = 0) →
      (offset + 4 ≤ 0x130000) →
      (s.answers offset = false) →
      Completes (.mgmtRead frame now) s fun t =>
        (t.host = { s.host with waiting := [mgmtMsg 1 1 requester seq offset 0 []] }) ∧
        (t = { s with host := t.host })) ∧
  (∀ (s : State) (requester seq offset now : Nat) (frame : List Byte) (m : List Byte),
      (s.canonical = true) →
      (s.datagram 2 s.mgmtPort frame = some (mgmtMsg 1 1 requester seq offset 0 [])) →
      (s.mgmtIdle = true) →
      (s.isF Reg.SYS_MGMT_CFG_AUTH_REQ = false) →
      (requester < 2 ^ 64) →
      (seq < 2 ^ 32) →
      (offset % 4 = 0) →
      (offset + 4 ≤ 0x130000) →
      ((s.host.kept.find? fun (e : Nat × Nat × List Byte) => decide (e.1 = requester ∧ e.2.1 = seq)) = some (requester, seq, m)) →
      Completes (.mgmtRead frame now) s fun t =>
        (t.outbox = s.outbox ++ [Out.mk .mgmt (((m).map fun (b : Byte) => b.toNat))]) ∧
        (t.host = s.host) ∧
        (t = { s with outbox := t.outbox })) ∧
  (∀ (s : State) (requester seq offset now : Nat) (frame : List Byte) (g : Nat),
      (s.canonical = true) →
      (s.datagram 2 s.mgmtPort frame = some (mgmtMsg 1 1 requester seq offset 0 [])) →
      (s.mgmtIdle = true) →
      (s.isF Reg.SYS_MGMT_CFG_AUTH_REQ = false) →
      (requester < 2 ^ 64) →
      (seq < 2 ^ 32) →
      (offset % 4 = 0) →
      (offset + 4 ≤ 0x130000) →
      ((s.host.kept.all fun (e : Nat × Nat × List Byte) => decide (e.1 ≠ requester ∨ e.2.1 ≠ seq)) = true) →
      (s.host.greatestOf requester = some g) →
      ((seq + 2 ^ 32 - g) % 2 ^ 32 = 0 ∨ 2 ^ 31 ≤ (seq + 2 ^ 32 - g) % 2 ^ 32) →
      (g < 2 ^ 32) →
      Completes (.mgmtRead frame now) s fun t =>
        (Counts s t Reg.SYS_MGMT_DROP 0 1) ∧
        (OnlyRegs s t [(Reg.SYS_MGMT_DROP.addr 0 0)]) ∧
        (t = { s with regs := t.regs })) ∧
  (∀ (s : State) (requester seq offset now : Nat) (frame : List Byte),
      (s.canonical = true) →
      (s.datagram 2 s.mgmtPort frame = some (mgmtMsg 1 1 requester seq offset 0 [])) →
      (s.mgmtIdle = true) →
      (requester < 2 ^ 64) →
      (seq < 2 ^ 32) →
      (offset < 2 ^ 32) →
      (offset % 4 = 0) →
      (0x130000 < offset + 4) →
      Completes (.mgmtRead frame now) s fun t =>
        (t.outbox = s.outbox ++ [Out.mk .mgmt (((mgmtMsg 3 1 requester seq offset 2 []).map fun (b : Byte) => b.toNat))]) ∧
        (t.host = s.host) ∧
        (t = { s with outbox := t.outbox })) ∧
  (∀ (s : State) (requester seq offset now : Nat) (frame : List Byte),
      (s.canonical = true) →
      (s.datagram 2 s.mgmtPort frame = some (mgmtMsg 1 1 requester seq offset 0 [])) →
      (s.mgmtIdle = true) →
      (requester < 2 ^ 64) →
      (seq < 2 ^ 32) →
      (offset % 4 = 0) →
      (offset + 4 ≤ 0x130000) →
      (s.isF Reg.SYS_MGMT_CFG_AUTH_REQ = true) →
      Completes (.mgmtRead frame now) s fun t =>
        (t.outbox = s.outbox ++ [Out.mk .mgmt (((mgmtMsg 3 1 requester seq offset 3 []).map fun (b : Byte) => b.toNat))]) ∧
        (Raises s t 0 [3]) ∧
        (t.host = s.host) ∧
        (OnlyRegs s t [(Reg.SYS_IRQ_CAUSE.addr 0 0)]) ∧
        (t = { s with regs := t.regs, outbox := t.outbox })) ∧
  (∀ (s : State) (frame message : List Byte) (now : Nat),
      (s.datagram 2 s.mgmtPort frame = some message) →
      (s.isF Reg.SYS_MGMT_CFG_EN = false ∨ s.runs 17 = false ∨ s.dead = true ∨ mgmtRequest message 1 = false) →
      Completes (.mgmtRead frame now) s fun t =>
        (t = s)) ∧
  (∀ (s : State) (frame : List Byte) (now : Nat),
      (s.datagram 2 s.mgmtPort frame = none) →
      Completes (.mgmtRead frame now) s fun t =>
        (t = s.macCount 2 frame)) ∧
  (∀ (s : State) (frame message : List Byte) (now : Nat),
      (s.datagram 2 s.mgmtPort frame = some message) →
      (s.isF Reg.SYS_MGMT_CFG_EN = false ∨ s.runs 17 = false ∨ s.dead = true ∨ mgmtRequest message 2 = false) →
      Completes (.mgmtWrite frame now) s fun t =>
        (t = s)) ∧
  (∀ (s : State) (frame : List Byte) (now : Nat),
      (s.datagram 2 s.mgmtPort frame = none) →
      Completes (.mgmtWrite frame now) s fun t =>
        (t = s.macCount 2 frame)) ∧
  (∀ (s : State) (path : Nat) (bads : List (List (Nat × Nat))) (now : Nat) (x : Access) (rest : List Access),
      (s.canonical = true) →
      (x.path = path) →
      ((rest.any fun (y : Access) => decide (y.path = path)) = false) →
      (s.waiting = x :: rest) →
      (x.addr < 2 ^ 26) →
      (path ≠ 1 ∨ s.host.waiting = []) →
      (x.isWrite = true) →
      (x.value < 2 ^ 32) →
      (x.size = 4) →
      (({ s with waiting := rest } : State).carries path x.addr = true) →
      Completes (.stoppedDomainAccessComplete path bads now) s fun t =>
        ((match exec (.registerWrite path x.addr 4 x.value now) ({ s with waiting := rest }) with | .next u => decide (u = t) | _ => false) = true)) ∧
  (∀ (s : State) (path : Nat) (bads : List (List (Nat × Nat))) (now : Nat) (x : Access) (rest : List Access),
      (s.canonical = true) →
      (x.path = path) →
      ((rest.any fun (y : Access) => decide (y.path = path)) = false) →
      (s.waiting = x :: rest) →
      (x.addr < 2 ^ 26) →
      (path ≠ 1 ∨ s.host.waiting = []) →
      (x.isWrite = false) →
      (x.value = 0) →
      (x.size = 4) →
      (({ s with waiting := rest } : State).carries path x.addr = true) →
      Completes (.stoppedDomainAccessComplete path bads now) s fun t =>
        ((match exec (.pairLowRead path x.addr 4) ({ s with waiting := rest }) with | .next u => decide (u = t) | _ => false) = true)) ∧
  (∀ (s : State) (path : Nat) (bads : List (List (Nat × Nat))) (now : Nat) (x : Access) (rest : List Access),
      (s.canonical = true) →
      (x.path = path) →
      (s.waiting = x :: rest) →
      (x.addr < 2 ^ 26) →
      (path ≠ 1 ∨ s.host.waiting = []) →
      (s.answers x.addr = false) →
      Completes (.stoppedDomainAccessComplete path bads now) s fun t =>
        (t = s)) ∧
  (∀ (s : State) (path : Nat) (bads : List (List (Nat × Nat))) (now : Nat),
      (s.canonical = true) →
      (path ≠ 1 ∨ s.host.waiting = []) →
      ((s.waiting.any fun (y : Access) => decide (y.path = path)) = false) →
      Completes (.stoppedDomainAccessComplete path bads now) s fun t =>
        (t = s)) ∧
  (∀ (s : State) (path : Nat) (bads : List (List (Nat × Nat))) (now : Nat) (requester seq offset : Nat) (frame : List Byte),
      (s.canonical = true) →
      (path = 1) →
      (({ s with host := { s.host with waiting := [] } } : State).datagram 2 s.mgmtPort frame = some (mgmtMsg 1 1 requester seq offset 0 [])) →
      (s.host.waiting = [mgmtMsg 1 1 requester seq offset 0 []]) →
      (s.isF Reg.SYS_MGMT_CFG_EN = true) →
      (s.runs 17 = true) →
      (s.dead = false) →
      Completes (.stoppedDomainAccessComplete path bads now) s fun t =>
        ((match exec (.mgmtRead frame now) ({ s with host := { s.host with waiting := [] } }) with | .next u => decide (u = t) | _ => false) = true)) ∧
  (∀ (s : State) (path : Nat) (bads : List (List (Nat × Nat))) (now : Nat),
      (s.canonical = true) →
      (path = 0) →
      (s.runs 22 = true) →
      (s.runs 14 = true) →
      (s.waiting = [Access.mk 0 true (2 ^ 26 + 0x40) (ofLe [7#8, 8#8] + 2 ^ 16) 4]) →
      (s.host.perst = false) →
      (s.host.d3 = false) →
      Completes (.stoppedDomainAccessComplete path bads now) s fun t =>
        ((match exec (.bar2Write 0x40 [7#8, 8#8]) ({ s with waiting := [] }) with | .next u => decide (u = t) | _ => false) = true))

/-- A frame boundary advances the frame counter, from 0 at the first one, which takes PTP time once where it is due; it reports what the checks
of SRAM words found, and puts the settings written since the last boundary into force; a stopped domain has none. At a forecast boundary
every staged record of an owned lane becomes active with this frame as its base, its lane VALID and its publication counted, and an active
lane without one has missed a boundary; in SHADOW the staged records are dropped. At a grant boundary, once its forecast is done, the module
closes its interval, takes the other shelves' reports, counts intervals and notes the peak, and the rack leader appends a RACK entry
effective ten frames later and a GRANT entry of this frame. A module that takes over abandons a layer not yet switched, loads the last
record, replays the samples since, and runs live for PRE_RUN frames. RESYNC ends in QUARANTINE, recorded, with result 7 after its time, 4, 5
or 6 where images, FORERUNNER or a layer differ; it goes on below 100 good records, and with them the module reports and becomes STANDBY
with result 1. -/
def Obligations.FrameForecastAndGrantBoundariesTakeoverAndResync : Prop :=
  (∀ (s : State) (now ptpFrames : Nat) (sram : List (Nat × Nat × Nat)),
      (s.canonical = true) →
      (s.runs 2 = false ∨ s.dead = true) →
      Completes (.frameBoundary now ptpFrames sram) s fun t =>
        (t = s)) ∧
  (∀ (s : State) (now ptpFrames : Nat),
      (s.canonical = true) →
      (s.runs 2 = true) →
      (s.dead = false) →
      (s.twn.applyJ = []) →
      (s.hnt.counterDue = false) →
      Completes (.frameBoundary now ptpFrames []) s fun t =>
        (t.frame = if s.counting = true then max (s.frame + 1) (s.frameOf now) else 0) ∧
        (t.counting = true) ∧
        (∀ a, (0x40000 ≤ a ∧ a < 0x50000) ∨ (0x70000 ≤ a ∧ a < 0x80000) → Sparse.get regReset t.eff a = s.rd a) ∧
        (((List.range 16).all fun k => decide (Sparse.get regReset t.eff (0x41000 + 4 * k) = s.rd (0x41000 + 4 * k))) = true) ∧
        (t.getF Reg.TWN_STATUS_FORERUNNER = s.getF Reg.TWN_CFG_FORERUNNER) ∧
        (t.pending = s.pending) ∧
        (t.latch = s.latch) ∧
        (t.held = s.held)) ∧
  (∀ (s : State) (now ptpFrames : Nat),
      (s.canonical = true) →
      (s.runs 2 = true) →
      (s.dead = false) →
      (s.twn.applyJ = []) →
      (s.ownGrid = true) →
      (s.isF Reg.CLK_STATUS_COUNTER_SET = false) →
      (s.hnt.counterDue = true) →
      Completes (.frameBoundary now ptpFrames []) s fun t =>
        (t.frame = ptpFrames) ∧
        (t.isF Reg.CLK_STATUS_COUNTER_SET = true) ∧
        (t.hnt.counterDue = false) ∧
        (t.getF Reg.TWN_STATUS_FORERUNNER = s.getF Reg.TWN_CFG_FORERUNNER) ∧
        ((t.events.drop s.events.length).head?.map (fun (e : LogEvent) => e.code) = some 0x0002)) ∧
  (∀ (s : State) (now ptpFrames i w n : Nat),
      (s.canonical = true) →
      (s.runs 2 = true) →
      (s.dead = false) →
      Completes (.frameBoundary now ptpFrames [(i, w, n)]) s fun t =>
        ((match exec (.frameBoundary now ptpFrames []) (if n = 0 then s else if n = 1 then s.bump Reg.CTX_SRAM_CE else ({ s with twn := { s.twn with hSram := s.twn.hSram + 1 } }).event 0x0702 0xFFFF [i, w]) with | .next u => decide (u = t) | _ => false) = true)) ∧
  (∀ (s : State) (shadow : List (Nat × List Byte)),
      (s.canonical = true) →
      (s.frame % 25 ≠ 0 ∨ s.th.fcAt = some s.frame ∨ s.counting = false ∨ s.runs 1 = false) →
      Completes (.forecastBoundary shadow) s fun t =>
        (t = s)) ∧
  (∀ (s : State) (shadow : List (Nat × List Byte)),
      (s.canonical = true) →
      (s.frame % 25 = 0) →
      (s.th.fcAt ≠ some s.frame) →
      (s.counting = true) →
      (s.runs 1 = true) →
      (s.isF Reg.TWN_STATUS_LOCK = false) →
      (∀ p ∈ List.range 16, (s.part p).sel = [] ∧ (s.part p).start = false ∧ s.partState p ≠ partRunning) →
      (s.getF Reg.PWR_STATUS_STATE ≠ 1) →
      Completes (.forecastBoundary shadow) s fun t =>
        (∀ l ∈ List.range 64, s.owned (0x1C0 + l) = true → ∀ r ∈ (s.wbLane l).staged.toList, t.wbLane l = { s.wbLane l with active := some { r with base := s.frame }, staged := none, missed := 0, silent := false } ∧ t.isF Reg.TH_LANE_STAT_VALID l = true ∧ t.getF Reg.TH_LANE_STAT_PUBS l = (s.getF Reg.TH_LANE_STAT_PUBS l + 1) % 65536 ∧ t.getF Reg.TH_LANE_STAT_PART l = r.part % 16) ∧
        (∀ l ∈ List.range 64, (s.wbLane l).staged = none ∨ s.owned (0x1C0 + l) = false → (s.wbLane l).active.isSome = true → t.wbLane l = { s.wbLane l with missed := (s.wbLane l).missed + 1 }) ∧
        (t.th.fcbound = s.frame) ∧
        (t.th.fcAt = some s.frame) ∧
        (t.th.hints = 0) ∧
        (t.th.core = s.th.core) ∧
        (OnlyRegs s t (Reg.SNS_FEED_AGE.addr 0 0 :: Reg.TH_STATUS.addr 0 0 :: ((List.range 64).map fun l => Reg.TH_LANE_STAT.addr l 0) ++ (List.range 16).map fun p => Reg.TH_PART_STAT.addr p 0)) ∧
        (t = { s with regs := t.regs, wb := t.wb, th := t.th, ctx := t.ctx, mem := t.mem, events := t.events })) ∧
  (∀ (s : State) (shadow : List (Nat × List Byte)),
      (s.canonical = true) →
      (s.frame % 25 = 0) →
      (s.th.fcAt ≠ some s.frame) →
      (s.counting = true) →
      (s.runs 1 = true) →
      (s.isF Reg.TWN_STATUS_LOCK = false) →
      (∀ p ∈ List.range 16, (s.part p).sel = [] ∧ (s.part p).start = false ∧ s.partState p ≠ partRunning) →
      (s.getF Reg.PWR_STATUS_STATE = 1) →
      Completes (.forecastBoundary shadow) s fun t =>
        (∀ l ∈ List.range 64, t.wbLane l = { s.wbLane l with staged := none }) ∧
        (t.th.fcbound = s.frame) ∧
        (t.th.fcAt = some s.frame) ∧
        (t.th.hints = 0) ∧
        (t.th.core = s.th.core) ∧
        (OnlyRegs s t (Reg.SNS_FEED_AGE.addr 0 0 :: Reg.TH_STATUS.addr 0 0 :: (List.range 16).map fun p => Reg.TH_PART_STAT.addr p 0)) ∧
        (t = { s with regs := t.regs, wb := t.wb, th := t.th, twn := t.twn, ctx := t.ctx, mem := t.mem, events := t.events })) ∧
  (∀ (s : State) (heard : List ((Nat × Nat × Nat) × Int × Nat × Int)) (tHub : Int),
      (s.canonical = true) →
      (s.frame % 1000 ≠ 0 ∨ s.th.fcAt ≠ some s.frame ∨ s.cpc.grantAt = some s.frame ∨ s.runs 1 = false) →
      Completes (.grantBoundary heard tHub) s fun t =>
        (t = s)) ∧
  (∀ (s : State) (heard : List ((Nat × Nat × Nat) × Int × Nat × Int)) (tHub : Int),
      (s.canonical = true) →
      (s.frame % 1000 = 0) →
      (s.th.fcAt = some s.frame) →
      (s.cpc.grantAt ≠ some s.frame) →
      (s.runs 1 = true) →
      (s.cpc.jobs = []) →
      (s.cpc.waiting = []) →
      (s.isF Reg.WB_STATUS_LOCAL_TARGET = false) →
      (s.twinSt ≠ 2) →
      (s.ldg.rack.leads = false) →
      (s.ldg.rack.role ≠ LdgRole.leader) →
      Completes (.grantBoundary heard tHub) s fun t =>
        (t.cpc.calm = if s.isF Reg.WB_STATUS_OVER_CEILING = true then 0 else s.cpc.calm + 1) ∧
        (t.cpc.sinceLower = s.cpc.sinceLower + 1) ∧
        (t.cpc.sinceStep = s.cpc.sinceStep + 1) ∧
        (t.cpc.peaks.head? = some (s.frame, s.meanPower s.busMean)) ∧
        (t.wb.loads.length = min 25500 (s.wb.loads.length + 1)) ∧
        (t.wb.frames = 0 ∧ t.wb.loadSum = 0 ∧ t.wb.busSum = 0 ∧ t.wb.ownSum = 0 ∧ t.wb.ownFrames = 0) ∧
        (t.cpc.grantAt = some s.frame) ∧
        ((heard.all fun r => t.wb.reports.any fun (x : ShelfReport) => decide (x.shelf = r.1.1 ∧ x.age = 0)) = true) ∧
        (t.frame = s.frame) ∧
        (t.mem = s.mem) ∧
        (t.eff = s.eff) ∧
        (t.cpc.pendingGrant = s.cpc.pendingGrant)) ∧
  (∀ (s : State) (heard : List ((Nat × Nat × Nat) × Int × Nat × Int)) (tHub : Int),
      (s.canonical = true) →
      (s.frame % 1000 = 0) →
      (s.th.fcAt = some s.frame) →
      (s.cpc.grantAt ≠ some s.frame) →
      (s.runs 1 = true) →
      (s.cpc.jobs = []) →
      (s.cpc.waiting = []) →
      (s.isF Reg.WB_STATUS_LOCAL_TARGET = false) →
      (s.twinSt ≠ 2) →
      (s.ldg.rack.leads = true) →
      ((mostHold s.ldg.rack 0 fun (id : Nat) => if id = s.selfId then (if s.ldg.voiceLost = true then 0 else s.ldg.rack.last.1 + 2) else match Sparse.find s.ldg.rack.acks id with | some k => k.1 | none => 0) ≤ s.ldg.rack.commit) →
      ((s.frame + 10000) % s.hallFrames ≠ 0) →
      Completes (.grantBoundary heard tHub) s fun t =>
        (t.cpc.calm = if s.isF Reg.WB_STATUS_OVER_CEILING = true then 0 else s.cpc.calm + 1) ∧
        (t.cpc.sinceLower = s.cpc.sinceLower + 1) ∧
        (t.cpc.sinceStep = s.cpc.sinceStep + 1) ∧
        (t.cpc.peaks.head? = some (s.frame, s.meanPower s.busMean)) ∧
        (t.wb.loads.length = min 25500 (s.wb.loads.length + 1)) ∧
        (t.wb.frames = 0 ∧ t.wb.loadSum = 0 ∧ t.wb.busSum = 0 ∧ t.wb.ownSum = 0 ∧ t.wb.ownFrames = 0) ∧
        (t.cpc.grantAt = some s.frame) ∧
        ((heard.all fun r => t.wb.reports.any fun (x : ShelfReport) => decide (x.shelf = r.1.1 ∧ x.age = 0)) = true) ∧
        (t.frame = s.frame) ∧
        (t.mem = s.mem) ∧
        (t.eff = s.eff) ∧
        (t.cpc.pendingGrant = some s.frame) ∧
        (t.ldg.rack.log.take s.ldg.rack.log.length = s.ldg.rack.log) ∧
        (((t.ldg.rack.log.drop s.ldg.rack.log.length).map fun (e : LdgEntry) => (e.index, e.term, e.etype, leAt e.payload 0 8)) = [(s.ldg.rack.last.1 + 1, s.ldg.rack.term, etRack, (s.frame + 10) % 2 ^ 64), (s.ldg.rack.last.1 + 2, s.ldg.rack.term, etGrant, s.frame % 2 ^ 64)])) ∧
  (∀ (s : State),
      (s.canonical = true) →
      (s.twinSt ≠ 3 ∨ s.twn.commanded = true ∨ s.twn.preLeft ≠ none ∨ s.twn.requestAt ≠ none ∨ s.isF Reg.TWN_STATUS_LOCK = true ∨ s.frame ≤ s.twn.takeF) →
      Completes (.takeoverPreRun) s fun t =>
        (t = s)) ∧
  (∀ (s : State),
      (s.canonical = true) →
      (s.twn.takeF < s.frame) →
      (s.twinSt = 3) →
      (s.twn.commanded = false) →
      (s.twn.preLeft = none) →
      (s.twn.requestAt = none) →
      (s.isF Reg.TWN_STATUS_LOCK = false) →
      (s.cfg.boundary = none) →
      (s.cfgSt ≠ cfgWriting) →
      (s.cfgSt ≠ cfgChecking) →
      ((match s.cfg.held with | some i => i.kind | none => 0) ≠ 2) →
      (s.twn.copy = none) →
      ((s.twn.samples.all fun (x : TileSample) => decide (x.at16 < s.frameTime s.frame * 16)) = true) →
      Completes (.takeoverPreRun) s fun t =>
        (t.twn = { s.twn with preLeft := some (min 50 (max 4 (s.getF Reg.TWN_CFG_PRE_RUN))), samples := [], faultJournal := [] }) ∧
        (t = { s with twn := t.twn })) ∧
  (∀ (s : State) (serial : Nat),
      (s.canonical = true) →
      (s.twn.takeF < s.frame) →
      (s.twinSt = 3) →
      (s.twn.commanded = false) →
      (s.twn.preLeft = none) →
      (s.twn.requestAt = none) →
      (s.isF Reg.TWN_STATUS_LOCK = false) →
      (s.twn.copy = none) →
      (s.twn.samples = []) →
      (s.cfg.boundary.isSome = true) →
      (serial = (match s.cfg.held with | some i => i.serial | none => leAt s.cfg.staging 0x18 4)) →
      Completes (.takeoverPreRun) s fun t =>
        (t.cfgSt = cfgFailed) ∧
        (t.twn = { s.twn with preLeft := some (min 50 (max 4 (s.getF Reg.TWN_CFG_PRE_RUN))), samples := [], faultJournal := [] }) ∧
        (t.cfg.boundary = none) ∧
        (t.events = s.events ++ [LogEvent.mk 0x0104 0xFFFF [serial]]) ∧
        (t = { s with regs := t.regs, twn := t.twn, cfg := t.cfg, events := t.events })) ∧
  (∀ (s : State) (copy : Option (List Byte)),
      (s.canonical = true) →
      (s.twn.takeF < s.frame) →
      (s.twinSt = 3) →
      (s.twn.commanded = false) →
      (s.twn.preLeft = none) →
      (s.twn.requestAt = none) →
      (s.isF Reg.TWN_STATUS_LOCK = false) →
      (s.cfg.boundary = none) →
      (s.cfgSt ≠ cfgWriting) →
      (s.cfgSt ≠ cfgChecking) →
      ((match s.cfg.held with | some i => i.kind | none => 0) ≠ 2) →
      (s.twn.copy = copy) →
      Completes (.takeoverPreRun) s fun t =>
        (∀ u : State, u = (copy.elim s fun bs => (((s.loadRecord bs).applyJournal s.twn.faultJournal (s.frameTime s.frame)).settingsAtBoundary (s.frameTime s.frame * 16)).replayUpTo (leAt bs 0 8) (s.frameTime s.frame * 16)) → t = if u.twinSt = 3 then (u.twn.samples.filter fun x => s.frameTime s.frame * 16 ≤ x.at16).foldl State.replaySample { u with twn := { u.twn with preLeft := some (min 50 (max 4 (u.getF Reg.TWN_CFG_PRE_RUN))), samples := [], faultJournal := [] } } else u)) ∧
  (∀ (s : State) (serial : Nat) (digest : List Byte) (forerunner : Bool) (layers : List (List Byte)) (estimator : Option (List Byte)) (tHub : Int) (now : Nat),
      (s.canonical = true) →
      (s.twn.resyncAt = none ∨ s.twinSt ≠ 5) →
      Completes (.resyncComplete serial digest forerunner layers estimator tHub now) s fun t =>
        (t = s)) ∧
  (∀ (s : State) (serial : Nat) (digest : List Byte) (forerunner : Bool) (layers : List (List Byte)) (estimator : Option (List Byte)) (tHub : Int) (now : Nat) (since : Nat),
      (s.canonical = true) →
      (s.twn.resyncAt = some since) →
      (s.twinSt = 5) →
      (since + s.getF Reg.TWN_TIMES_RESYNC_MAX * 10000000 < now) →
      Completes (.resyncComplete serial digest forerunner layers estimator tHub now) s fun t =>
        (t.twinSt = 4) ∧
        (t.getF Reg.TWN_STATUS_RESULT = 7) ∧
        (t.isF Reg.TWN_STATUS_READY = false) ∧
        (t.twn.resyncAt = none) ∧
        ((t.events.drop s.events.length).map (fun (e : LogEvent) => e.code) = [0x0C07]) ∧
        (bitOf (t.getF Reg.SYS_IRQ_CAUSE 2) 6 = true) ∧
        (OnlyRegs s t [(Reg.TWN_STATUS.addr 0 0), (Reg.SYS_IRQ_CAUSE.addr 2 0), (Reg.SYS_IRQ_CAUSE.addr 12 0), (Reg.PWR_STATUS.addr 0 0), (Reg.CLK_STATUS.addr 0 0)]) ∧
        (t = { s with regs := t.regs, twn := t.twn, events := t.events, outbox := t.outbox })) ∧
  (∀ (s : State) (serial : Nat) (digest : List Byte) (forerunner : Bool) (layers : List (List Byte)) (estimator : Option (List Byte)) (tHub : Int) (now : Nat) (since : Nat),
      (s.canonical = true) →
      (s.twn.resyncAt = some since) →
      (s.twinSt = 5) →
      (now ≤ since + s.getF Reg.TWN_TIMES_RESYNC_MAX * 10000000) →
      (serial ≠ s.getF Reg.CFG_IMAGE_SERIAL ∨ digest.take 16 ≠ s.cfg.baseDigest) →
      Completes (.resyncComplete serial digest forerunner layers estimator tHub now) s fun t =>
        (t.twinSt = 4) ∧
        (t.getF Reg.TWN_STATUS_RESULT = 4) ∧
        (t.isF Reg.TWN_STATUS_READY = false) ∧
        (t.twn.resyncAt = none) ∧
        ((t.events.drop s.events.length).map (fun (e : LogEvent) => e.code) = [0x0C07]) ∧
        (bitOf (t.getF Reg.SYS_IRQ_CAUSE 2) 6 = true) ∧
        (OnlyRegs s t [(Reg.TWN_STATUS.addr 0 0), (Reg.SYS_IRQ_CAUSE.addr 2 0), (Reg.SYS_IRQ_CAUSE.addr 12 0), (Reg.PWR_STATUS.addr 0 0), (Reg.CLK_STATUS.addr 0 0)]) ∧
        (t = { s with regs := t.regs, twn := t.twn, events := t.events, outbox := t.outbox })) ∧
  (∀ (s : State) (serial : Nat) (digest : List Byte) (forerunner : Bool) (layers : List (List Byte)) (estimator : Option (List Byte)) (tHub : Int) (now : Nat) (since : Nat),
      (s.canonical = true) →
      (s.twn.resyncAt = some since) →
      (s.twinSt = 5) →
      (now ≤ since + s.getF Reg.TWN_TIMES_RESYNC_MAX * 10000000) →
      (serial = s.getF Reg.CFG_IMAGE_SERIAL) →
      (digest.take 16 = s.cfg.baseDigest) →
      (forerunner ≠ s.isF Reg.TWN_STATUS_FORERUNNER) →
      Completes (.resyncComplete serial digest forerunner layers estimator tHub now) s fun t =>
        (t.twinSt = 4) ∧
        (t.getF Reg.TWN_STATUS_RESULT = 5) ∧
        (t.isF Reg.TWN_STATUS_READY = false) ∧
        (t.twn.resyncAt = none) ∧
        ((t.events.drop s.events.length).map (fun (e : LogEvent) => e.code) = [0x0C07]) ∧
        (bitOf (t.getF Reg.SYS_IRQ_CAUSE 2) 6 = true) ∧
        (OnlyRegs s t [(Reg.TWN_STATUS.addr 0 0), (Reg.SYS_IRQ_CAUSE.addr 2 0), (Reg.SYS_IRQ_CAUSE.addr 12 0), (Reg.PWR_STATUS.addr 0 0), (Reg.CLK_STATUS.addr 0 0)]) ∧
        (t = { s with regs := t.regs, twn := t.twn, events := t.events, outbox := t.outbox })) ∧
  (∀ (s : State) (serial : Nat) (digest : List Byte) (forerunner : Bool) (layers : List (List Byte)) (estimator : Option (List Byte)) (tHub : Int) (now : Nat) (since : Nat) (img : List Byte),
      (s.canonical = true) →
      (s.twn.resyncAt = some since) →
      (s.twinSt = 5) →
      (now ≤ since + s.getF Reg.TWN_TIMES_RESYNC_MAX * 10000000) →
      (serial = s.getF Reg.CFG_IMAGE_SERIAL) →
      (digest.take 16 = s.cfg.baseDigest) →
      (forerunner = s.isF Reg.TWN_STATUS_FORERUNNER) →
      (layers = [img]) →
      (s.getF Reg.CFG_LAYER_SERIAL < leAt img 0x18 4) →
      (leAt img 8 1 ≠ 2 ∨ (checkImage s img img.length false).image = none) →
      Completes (.resyncComplete serial digest forerunner layers estimator tHub now) s fun t =>
        (t.twinSt = 4) ∧
        (t.getF Reg.TWN_STATUS_RESULT = 6) ∧
        (t.isF Reg.TWN_STATUS_READY = false) ∧
        (t.twn.resyncAt = none) ∧
        ((t.events.drop s.events.length).map (fun (e : LogEvent) => e.code) = [0x0C07]) ∧
        (bitOf (t.getF Reg.SYS_IRQ_CAUSE 2) 6 = true) ∧
        (OnlyRegs s t [(Reg.TWN_STATUS.addr 0 0), (Reg.SYS_IRQ_CAUSE.addr 2 0), (Reg.SYS_IRQ_CAUSE.addr 12 0), (Reg.PWR_STATUS.addr 0 0), (Reg.CLK_STATUS.addr 0 0)]) ∧
        (t = { s with regs := t.regs, twn := t.twn, events := t.events, outbox := t.outbox })) ∧
  (∀ (s : State) (serial : Nat) (digest : List Byte) (forerunner : Bool) (layers : List (List Byte)) (estimator : Option (List Byte)) (tHub : Int) (now : Nat) (since : Nat),
      (s.canonical = true) →
      (s.twn.resyncAt = some since) →
      (s.twinSt = 5) →
      (now ≤ since + s.getF Reg.TWN_TIMES_RESYNC_MAX * 10000000) →
      (serial = s.getF Reg.CFG_IMAGE_SERIAL) →
      (digest.take 16 = s.cfg.baseDigest) →
      (forerunner = s.isF Reg.TWN_STATUS_FORERUNNER) →
      (layers.all (fun (img : List Byte) => decide (leAt img 0x18 4 ≤ s.getF Reg.CFG_LAYER_SERIAL)) = true) →
      (estimator = none) →
      (s.twn.good < 100) →
      Completes (.resyncComplete serial digest forerunner layers estimator tHub now) s fun t =>
        (t = s)) ∧
  (∀ (s : State) (serial : Nat) (digest : List Byte) (forerunner : Bool) (layers : List (List Byte)) (estimator : Option (List Byte)) (tHub : Int) (now : Nat) (since : Nat) (u : State),
      (s.canonical = true) →
      (s.twn.resyncAt = some since) →
      (s.twinSt = 5) →
      (now ≤ since + s.getF Reg.TWN_TIMES_RESYNC_MAX * 10000000) →
      (serial = s.getF Reg.CFG_IMAGE_SERIAL) →
      (digest.take 16 = s.cfg.baseDigest) →
      (forerunner = s.isF Reg.TWN_STATUS_FORERUNNER) →
      (layers = []) →
      (estimator = none) →
      (100 ≤ s.twn.good) →
      (u = { s with twn := { s.twn with hMismatch := 0, hGap := s.twn.hRun } }) →
      (u.verdict ≤ 1) →
      Completes (.resyncComplete serial digest forerunner layers estimator tHub now) s fun t =>
        (t.twinSt = 2) ∧
        (t.getF Reg.TWN_STATUS_RESULT = 1) ∧
        (t.twn.resyncAt = none) ∧
        (t.twn.report = some (now, u.verdict)) ∧
        (((List.range 16).all fun k => decide (t.rd (Reg.TWN_HEALTH.addr k 0) = BitVec.ofNat 32 (leAt (u.healthBytes tHub) (4 * k) 4))) = true) ∧
        (t.outbox = s.outbox ++ [Out.mk .twin (twinHealth :: (u.healthBytes tHub).map fun (b : Byte) => b.toNat)]) ∧
        (bitOf (t.getF Reg.SYS_IRQ_CAUSE 2) 6 = true) ∧
        (OnlyRegs s t ([(Reg.TWN_STATUS.addr 0 0), (Reg.SYS_IRQ_CAUSE.addr 2 0)] ++ (List.range 16).map fun k => Reg.TWN_HEALTH.addr k 0)) ∧
        (t = { s with regs := t.regs, twn := t.twn, outbox := t.outbox }))
end

