-- ==== Sys2Proof/Laws/Sparse.lean ====
section
/-!
SUPPORT. Laws of sparse data: a key just written reads as written, every other key as before, and the canonical form is kept.
-/

namespace Sys2Proof

variable {α : Type}

theorem Sparse.rising_mono (b : Nat) (m : Sparse α) (h : Sparse.rising (some b) m = true) : Sparse.rising none m = true := by
  cases m with
  | nil => rfl
  | cons e m => simp_all [Sparse.rising]

theorem Sparse.rising_weaken {b c : Nat} (hbc : b ≤ c) (m : Sparse α) (h : Sparse.rising (some c) m = true) :
    Sparse.rising (some b) m = true := by
  cases m with
  | nil => rfl
  | cons e m =>
    simp [Sparse.rising] at *
    exact ⟨by omega, h.2⟩

/-- A key at or below every listed one's bound reads as unlisted. -/
theorem Sparse.get_of_rising (d : Nat → α) (m : Sparse α) {b k : Nat} (hk : k ≤ b) (h : Sparse.rising (some b) m = true) :
    Sparse.get d m k = d k := by
  cases m with
  | nil => rfl
  | cons e m =>
    simp [Sparse.rising] at h
    have h1 : ¬ e.1 = k := by omega
    have h2 : k < e.1 := by omega
    obtain ⟨j, v⟩ := e
    simp [Sparse.get, h1, h2]

@[simp] theorem Sparse.get_insert_same (d : Nat → α) (m : Sparse α) (k : Nat) (v : α) :
    Sparse.get d (Sparse.insert m k v) k = v := by
  induction m with
  | nil => simp [Sparse.insert, Sparse.get]
  | cons e m ih =>
    obtain ⟨j, w⟩ := e
    by_cases h1 : k < j
    · simp [Sparse.insert, Sparse.get, h1]
    · by_cases h2 : j = k
      · simp [Sparse.insert, Sparse.get, h2]
      · simp [Sparse.insert, Sparse.get, h1, h2, ih]

theorem Sparse.get_insert_ne (d : Nat → α) (m : Sparse α) {k q : Nat} (v : α) (hq : q ≠ k) :
    Sparse.get d (Sparse.insert m k v) q = Sparse.get d m q := by
  have hq' : ¬ k = q := fun h => hq h.symm
  induction m with
  | nil => simp [Sparse.insert, Sparse.get, hq']
  | cons e m ih =>
    obtain ⟨j, w⟩ := e
    by_cases h1 : k < j
    · by_cases h3 : q < k
      · have h4 : ¬ j = q := by omega
        have h5 : q < j := by omega
        simp [Sparse.insert, Sparse.get, h1, h3, hq', h4, h5]
      · simp [Sparse.insert, Sparse.get, h1, h3, hq']
    · by_cases h2 : j = k
      · subst h2
        simp [Sparse.insert, Sparse.get, hq']
      · simp [Sparse.insert, Sparse.get, h1, h2, ih]

theorem Sparse.get_erase_same (d : Nat → α) (m : Sparse α) (k : Nat) (h : Sparse.rising none m = true) :
    Sparse.get d (Sparse.erase m k) k = d k := by
  induction m with
  | nil => rfl
  | cons e m ih =>
    obtain ⟨j, w⟩ := e
    have hm : Sparse.rising (some j) m = true := by simpa [Sparse.rising] using h
    by_cases h1 : k < j
    · have h2 : ¬ j = k := by omega
      simp [Sparse.erase, Sparse.get, h1, h2]
    · by_cases h2 : j = k
      · subst h2
        simp [Sparse.erase, Sparse.get_of_rising d m (Nat.le_refl _) hm]
      · simp [Sparse.erase, Sparse.get, h1, h2, ih (Sparse.rising_mono j m hm)]

theorem Sparse.get_erase_ne (d : Nat → α) (m : Sparse α) {k q : Nat} (hq : q ≠ k) (h : Sparse.rising none m = true) :
    Sparse.get d (Sparse.erase m k) q = Sparse.get d m q := by
  have hq' : ¬ k = q := fun h => hq h.symm
  induction m with
  | nil => rfl
  | cons e m ih =>
    obtain ⟨j, w⟩ := e
    have hm : Sparse.rising (some j) m = true := by simpa [Sparse.rising] using h
    by_cases h1 : k < j
    · simp [Sparse.erase, h1]
    · by_cases h2 : j = k
      · subst h2
        by_cases h3 : q < j
        · simp [Sparse.erase, Sparse.get, hq', h3, Sparse.get_of_rising d m (Nat.le_of_lt h3) hm]
        · simp [Sparse.erase, Sparse.get, hq', h3]
      · simp [Sparse.erase, Sparse.get, h1, h2, ih (Sparse.rising_mono j m hm)]

theorem Sparse.rising_insert (b : Option Nat) (m : Sparse α) (k : Nat) (v : α) (h : Sparse.rising b m = true)
    (hb : ∀ x, b = some x → x < k) : Sparse.rising b (Sparse.insert m k v) = true := by
  induction m generalizing b with
  | nil => cases b <;> simp_all [Sparse.insert, Sparse.rising]
  | cons e m ih =>
    obtain ⟨j, w⟩ := e
    by_cases h1 : k < j
    · cases b <;> simp_all [Sparse.insert, Sparse.rising]
    · by_cases h2 : j = k
      · subst h2
        cases b <;> simp_all [Sparse.insert, Sparse.rising]
      · have hj : j < k := by omega
        rw [Sparse.insert, if_neg h1, if_neg h2]
        have hm : Sparse.rising (some j) m = true := by cases b <;> simp_all [Sparse.rising]
        have := ih (some j) hm (by simp [hj])
        cases b <;> simp_all [Sparse.rising]

theorem Sparse.rising_erase (b : Option Nat) (m : Sparse α) (k : Nat) (h : Sparse.rising b m = true) :
    Sparse.rising b (Sparse.erase m k) = true := by
  induction m generalizing b with
  | nil => cases b <;> simp_all [Sparse.erase]
  | cons e m ih =>
    obtain ⟨j, w⟩ := e
    by_cases h1 : k < j
    · simp_all [Sparse.erase]
    · by_cases h2 : j = k
      · subst h2
        cases b with
        | none => simp [Sparse.erase, Sparse.rising] at *; exact Sparse.rising_mono j m h
        | some x => simp [Sparse.erase, Sparse.rising] at *; exact Sparse.rising_weaken (by omega) m h.2
      · rw [Sparse.erase, if_neg h1, if_neg h2]
        have hm : Sparse.rising (some j) m = true := by cases b <;> simp_all [Sparse.rising]
        have := ih (some j) hm
        cases b <;> simp_all [Sparse.rising]

theorem Sparse.all_insert (p : Nat × α → Bool) (m : Sparse α) (k : Nat) (v : α) (h : m.all p = true) (hv : p (k, v) = true) :
    (Sparse.insert m k v).all p = true := by
  induction m with
  | nil => simp [Sparse.insert, hv]
  | cons e m ih =>
    obtain ⟨j, w⟩ := e
    simp only [List.all_cons, Bool.and_eq_true] at h
    unfold Sparse.insert
    split
    · simp [List.all_cons, hv, h.1, h.2]
    · split
      · simp [List.all_cons, hv, h.2]
      · simp [List.all_cons, h.1, ih h.2]

theorem Sparse.all_erase (p : Nat × α → Bool) (m : Sparse α) (k : Nat) (h : m.all p = true) :
    (Sparse.erase m k).all p = true := by
  induction m with
  | nil => rfl
  | cons e m ih =>
    obtain ⟨j, w⟩ := e
    simp only [List.all_cons, Bool.and_eq_true] at h
    unfold Sparse.erase
    split
    · simp [List.all_cons, h.1, h.2]
    · split
      · exact h.2
      · simp [List.all_cons, h.1, ih h.2]

theorem Sparse.rising_filter (p : Nat × α → Bool) (b : Option Nat) (m : Sparse α) (h : Sparse.rising b m = true) :
    Sparse.rising b (m.filter p) = true := by
  induction m generalizing b with
  | nil => simpa using h
  | cons e m ih =>
    obtain ⟨j, w⟩ := e
    have hm : Sparse.rising (some j) m = true := by
      cases b <;> simp_all [Sparse.rising]
    by_cases hp : p (j, w) = true
    · rw [List.filter_cons_of_pos hp]
      cases b with
      | none => simpa [Sparse.rising] using ih _ hm
      | some x =>
        have hx : x < j := by simp [Sparse.rising] at h; exact h.1
        simpa [Sparse.rising, hx] using ih _ hm
    · rw [List.filter_cons_of_neg hp]
      cases b with
      | none => exact ih _ (Sparse.rising_mono j m hm)
      | some x =>
        have hx : x < j := by simp [Sparse.rising] at h; exact h.1
        exact ih _ (Sparse.rising_weaken (Nat.le_of_lt hx) m hm)

section
variable [DecidableEq α]

/-- What a write leaves to read at its own key. -/
theorem Sparse.get_put_same (d : Nat → α) (m : Sparse α) (k : Nat) (v : α) (h : Sparse.wf d m = true) :
    Sparse.get d (Sparse.put d m k v) k = v := by
  simp only [Sparse.wf, Bool.and_eq_true] at h
  unfold Sparse.put
  split
  · next hv => rw [Sparse.get_erase_same d m k h.1, hv]
  · simp

/-- A write leaves every other key alone. -/
theorem Sparse.get_put_ne (d : Nat → α) (m : Sparse α) {k q : Nat} (v : α) (h : Sparse.wf d m = true) (hq : q ≠ k) :
    Sparse.get d (Sparse.put d m k v) q = Sparse.get d m q := by
  simp only [Sparse.wf, Bool.and_eq_true] at h
  unfold Sparse.put
  split
  · exact Sparse.get_erase_ne d m hq h.1
  · exact Sparse.get_insert_ne d m v hq

/-- A write keeps the canonical form. -/
theorem Sparse.wf_put (d : Nat → α) (m : Sparse α) (k : Nat) (v : α) (h : Sparse.wf d m = true) :
    Sparse.wf d (Sparse.put d m k v) = true := by
  simp only [Sparse.wf, Bool.and_eq_true] at *
  unfold Sparse.put
  split
  · exact ⟨Sparse.rising_erase none m k h.1, Sparse.all_erase _ m k h.2⟩
  · next hv => exact ⟨Sparse.rising_insert none m k v h.1 (by simp), Sparse.all_insert _ m k v h.2 (by simpa using hv)⟩

/-- Writing units one after another keeps the canonical form. -/
theorem Sparse.wf_fill (d : α) (m : Sparse α) (k : Nat) (vs : List α) (h : Sparse.wf (fun _ => d) m = true) :
    Sparse.wf (fun _ => d) (Sparse.fill d m k vs) = true := by
  induction vs generalizing m k with
  | nil => exact h
  | cons v vs ih => exact ih _ _ (Sparse.wf_put _ m k v h)

/-- Taking entries off keeps the canonical form. -/
theorem Sparse.wf_filter (d : Nat → α) (p : Nat × α → Bool) (m : Sparse α) (h : Sparse.wf d m = true) :
    Sparse.wf d (m.filter p) = true := by
  simp only [Sparse.wf, Bool.and_eq_true] at *
  refine ⟨Sparse.rising_filter p none m h.1, ?_⟩
  rw [List.all_eq_true] at *
  exact fun e he => h.2 e (List.mem_of_mem_filter he)

/-- A unit just written reads as written. -/
theorem Sparse.at_upd_same (d : α) (m : Sparse α) (k : Nat) (v : α) (h : Sparse.wf (fun _ => d) m = true) :
    Sparse.at d (Sparse.upd d m k v) k = v := Sparse.get_put_same _ m k v h

/-- A unit that takes a value other than its start reads as written, whatever the form of the list. -/
theorem Sparse.at_upd_same_of_ne (d : α) (m : Sparse α) (k : Nat) {v : α} (hv : v ≠ d) : Sparse.at d (Sparse.upd d m k v) k = v := by
  simp [Sparse.at, Sparse.upd, Sparse.put, hv]

/-- Every other unit reads as before. -/
theorem Sparse.at_upd_ne (d : α) (m : Sparse α) {k q : Nat} (v : α) (h : Sparse.wf (fun _ => d) m = true) (hq : q ≠ k) :
    Sparse.at d (Sparse.upd d m k v) q = Sparse.at d m q := Sparse.get_put_ne _ m v h hq

end

end Sys2Proof
end

