-- ==== Sys2Proof/Laws/Regs.lean ====
section
/-!
SUPPORT. Laws of the register file: a field reads as written, other fields and other registers as before, and every operation over
registers and over the stack keeps the canonical form.
-/

namespace Sys2Proof.Machine

/-! ## Fields of a word -/

/-- What a word with a replaced field is, bits above and below the field apart. -/
theorem Fld.into_toNat (f : Fld) (v : Word) (x : Nat) (h : f.lo + f.w ≤ 32) :
    (f.into v x).toNat = v.toNat / 2 ^ (f.lo + f.w) * 2 ^ (f.lo + f.w) + x % 2 ^ f.w * 2 ^ f.lo + v.toNat % 2 ^ f.lo := by
  have hv : v.toNat < 2 ^ 32 := v.isLt
  have hx : x % 2 ^ f.w < 2 ^ f.w := Nat.mod_lt _ (Nat.two_pow_pos _)
  have e1 : v.toNat = v.toNat / 2 ^ f.lo * 2 ^ f.lo + v.toNat % 2 ^ f.lo := (Nat.div_add_mod' _ _).symm
  have e2 : v.toNat / 2 ^ f.lo = v.toNat / 2 ^ f.lo / 2 ^ f.w * 2 ^ f.w + v.toNat / 2 ^ f.lo % 2 ^ f.w := (Nat.div_add_mod' _ _).symm
  have e3 : v.toNat / 2 ^ f.lo / 2 ^ f.w = v.toNat / 2 ^ (f.lo + f.w) := by rw [Nat.div_div_eq_div_mul, Nat.pow_add]
  have hl : v.toNat % 2 ^ f.lo < 2 ^ f.lo := Nat.mod_lt _ (Nat.two_pow_pos _)
  have e4 : v.toNat / 2 ^ f.lo * 2 ^ f.lo = v.toNat / 2 ^ (f.lo + f.w) * 2 ^ (f.lo + f.w) + v.toNat / 2 ^ f.lo % 2 ^ f.w * 2 ^ f.lo := by
    conv_lhs => rw [e2, e3]
    rw [Nat.add_mul, Nat.mul_assoc, ← Nat.pow_add, Nat.add_comm f.w f.lo]
  have hr : v.toNat / 2 ^ (f.lo + f.w) * 2 ^ (f.lo + f.w) + x % 2 ^ f.w * 2 ^ f.lo + v.toNat % 2 ^ f.lo < 2 ^ 32 := by
    have hb : x % 2 ^ f.w * 2 ^ f.lo + v.toNat % 2 ^ f.lo < 2 ^ (f.lo + f.w) := by
      rw [Nat.pow_add]
      calc x % 2 ^ f.w * 2 ^ f.lo + v.toNat % 2 ^ f.lo < x % 2 ^ f.w * 2 ^ f.lo + 2 ^ f.lo := by omega
        _ = (x % 2 ^ f.w + 1) * 2 ^ f.lo := by rw [Nat.add_mul, Nat.one_mul]
        _ ≤ 2 ^ f.w * 2 ^ f.lo := Nat.mul_le_mul_right _ hx
        _ = 2 ^ f.lo * 2 ^ f.w := Nat.mul_comm _ _
    have hd : v.toNat / 2 ^ (f.lo + f.w) < 2 ^ (32 - (f.lo + f.w)) := by
      rw [Nat.div_lt_iff_lt_mul (Nat.two_pow_pos _), ← Nat.pow_add, Nat.sub_add_cancel h]; exact hv
    calc _ < v.toNat / 2 ^ (f.lo + f.w) * 2 ^ (f.lo + f.w) + 2 ^ (f.lo + f.w) := by omega
      _ = (v.toNat / 2 ^ (f.lo + f.w) + 1) * 2 ^ (f.lo + f.w) := by rw [Nat.add_mul, Nat.one_mul]
      _ ≤ 2 ^ (32 - (f.lo + f.w)) * 2 ^ (f.lo + f.w) := Nat.mul_le_mul_right _ hd
      _ = 2 ^ 32 := by rw [← Nat.pow_add, Nat.sub_add_cancel h]
  have e5 : v.toNat - bitsOf v.toNat f.lo f.w * 2 ^ f.lo + x % 2 ^ f.w * 2 ^ f.lo =
      v.toNat / 2 ^ (f.lo + f.w) * 2 ^ (f.lo + f.w) + x % 2 ^ f.w * 2 ^ f.lo + v.toNat % 2 ^ f.lo := by
    unfold bitsOf
    omega
  rw [Fld.into, BitVec.toNat_ofNat, e5, Nat.mod_eq_of_lt hr]

/-- A replaced field reads as written. -/
theorem Fld.of_into (f : Fld) (v : Word) (x : Nat) (h : f.lo + f.w ≤ 32) : f.of (f.into v x) = x % 2 ^ f.w := by
  have hl : v.toNat % 2 ^ f.lo < 2 ^ f.lo := Nat.mod_lt _ (Nat.two_pow_pos _)
  rw [Fld.of, Fld.into_toNat f v x h, bitsOf, Nat.pow_add, Nat.mul_comm (2 ^ f.lo) (2 ^ f.w), ← Nat.mul_assoc, ← Nat.add_mul,
    Nat.add_comm, Nat.add_mul_div_right _ _ (Nat.two_pow_pos _), Nat.div_eq_of_lt hl, Nat.zero_add, Nat.add_comm,
    Nat.add_mul_mod_self_right, Nat.mod_mod]

/-- Another field of the same word reads as before. -/
theorem Fld.of_into_ne (f g : Fld) (v : Word) (x : Nat) (h : f.lo + f.w ≤ 32) (hd : g.lo + g.w ≤ f.lo ∨ f.lo + f.w ≤ g.lo) :
    g.of (f.into v x) = g.of v := by
  have hx : x % 2 ^ f.w < 2 ^ f.w := Nat.mod_lt _ (Nat.two_pow_pos _)
  have hl : v.toNat % 2 ^ f.lo < 2 ^ f.lo := Nat.mod_lt _ (Nat.two_pow_pos _)
  rw [Fld.of, Fld.of, Fld.into_toNat f v x h, bitsOf, bitsOf]
  rcases hd with hd | hd
  · have e : v.toNat / 2 ^ (f.lo + f.w) * 2 ^ (f.lo + f.w) + x % 2 ^ f.w * 2 ^ f.lo + v.toNat % 2 ^ f.lo =
        v.toNat % 2 ^ f.lo + (v.toNat / 2 ^ (f.lo + f.w) * 2 ^ f.w + x % 2 ^ f.w) * 2 ^ f.lo := by
      rw [Nat.add_mul, Nat.mul_assoc, ← Nat.pow_add, Nat.add_comm f.w f.lo]; omega
    have e2 : v.toNat = v.toNat % 2 ^ f.lo + v.toNat / 2 ^ f.lo * 2 ^ f.lo := (Nat.mod_add_div' _ _).symm
    obtain ⟨d, hdd⟩ := Nat.exists_eq_add_of_le hd
    have cut (y L : Nat) : (L + y * 2 ^ f.lo) / 2 ^ g.lo % 2 ^ g.w = L / 2 ^ g.lo % 2 ^ g.w := by
      have : y * 2 ^ f.lo = y * 2 ^ d * 2 ^ g.w * 2 ^ g.lo := by
        rw [hdd, Nat.pow_add, Nat.pow_add]; ring
      rw [this, Nat.add_mul_div_right _ _ (Nat.two_pow_pos _), Nat.add_mul_mod_self_right]
    rw [e, cut]
    conv_rhs => rw [e2, cut]
  · obtain ⟨d, hdd⟩ := Nat.exists_eq_add_of_le hd
    have hb : x % 2 ^ f.w * 2 ^ f.lo + v.toNat % 2 ^ f.lo < 2 ^ (f.lo + f.w) := by
      rw [Nat.pow_add]
      calc x % 2 ^ f.w * 2 ^ f.lo + v.toNat % 2 ^ f.lo < x % 2 ^ f.w * 2 ^ f.lo + 2 ^ f.lo := by omega
        _ = (x % 2 ^ f.w + 1) * 2 ^ f.lo := by rw [Nat.add_mul, Nat.one_mul]
        _ ≤ 2 ^ f.w * 2 ^ f.lo := Nat.mul_le_mul_right _ hx
        _ = 2 ^ f.lo * 2 ^ f.w := Nat.mul_comm _ _
    have e : (v.toNat / 2 ^ (f.lo + f.w) * 2 ^ (f.lo + f.w) + x % 2 ^ f.w * 2 ^ f.lo + v.toNat % 2 ^ f.lo) / 2 ^ g.lo =
        v.toNat / 2 ^ g.lo := by
      rw [hdd, Nat.pow_add _ _ d, ← Nat.div_div_eq_div_mul, ← Nat.div_div_eq_div_mul, Nat.add_assoc, Nat.add_comm,
        Nat.add_mul_div_right _ _ (Nat.two_pow_pos _), Nat.div_eq_of_lt hb, Nat.zero_add]
    rw [e]

/-! ## Registers -/

theorem State.canonical_iff (s : State) : s.canonical = true ↔
    Sparse.wf regReset s.regs = true ∧ Sparse.wf regReset s.eff = true ∧ Memory.wf s.mem = true ∧
      Sparse.wf (fun _ => false) s.poison = true := by
  simp [State.canonical, Bool.and_eq_true, and_assoc]

theorem State.regs_wf {s : State} (h : s.canonical = true) : Sparse.wf regReset s.regs = true := ((State.canonical_iff s).1 h).1

/-- A register reads as written. -/
theorem State.rd_wr_same {s : State} (h : s.canonical = true) (a : Nat) (v : Word) : (s.wr a v).rd a = v :=
  Sparse.get_put_same regReset s.regs a v (State.regs_wf h)

/-- Every other register reads as before. -/
theorem State.rd_wr_ne {s : State} (h : s.canonical = true) {a b : Nat} (v : Word) (hb : b ≠ a) : (s.wr a v).rd b = s.rd b :=
  Sparse.get_put_ne regReset s.regs v (State.regs_wf h) hb

/-- What any register reads after one write. -/
theorem State.rd_wr {s : State} (h : s.canonical = true) (a b : Nat) (v : Word) :
    (s.wr a v).rd b = if b = a then v else s.rd b := by
  split
  · next hb => subst hb; exact State.rd_wr_same h b v
  · next hb => exact State.rd_wr_ne h v hb

theorem State.canonical_wr {s : State} (h : s.canonical = true) (a : Nat) (v : Word) : (s.wr a v).canonical = true := by
  rw [State.canonical_iff] at *
  exact ⟨Sparse.wf_put regReset s.regs a v h.1, h.2⟩

theorem State.canonical_setF {s : State} (h : s.canonical = true) (f : Fld) (v i j : Nat) : (s.setF f v i j).canonical = true :=
  State.canonical_wr h _ _

/-- What any register reads after a field was set. -/
theorem State.rd_setF {s : State} (h : s.canonical = true) (f : Fld) (v i j b : Nat) :
    (s.setF f v i j).rd b = if b = f.addr i j then f.into (s.rd (f.addr i j)) v else s.rd b :=
  State.rd_wr h _ _ _

/-- A field reads as set. -/
theorem State.getF_setF {s : State} (h : s.canonical = true) (f : Fld) (v i j : Nat) (hw : f.lo + f.w ≤ 32) :
    (s.setF f v i j).getF f i j = v % 2 ^ f.w := by
  rw [State.getF, State.rd_setF h, if_pos rfl, Fld.of_into f _ _ hw]

/-- A field of another register, or another field of the same register, reads as before. -/
theorem State.getF_setF_ne {s : State} (h : s.canonical = true) (f g : Fld) (v i j k l : Nat) (hw : f.lo + f.w ≤ 32)
    (hd : g.addr k l ≠ f.addr i j ∨ g.lo + g.w ≤ f.lo ∨ f.lo + f.w ≤ g.lo) : (s.setF f v i j).getF g k l = s.getF g k l := by
  rw [State.getF, State.rd_setF h]
  split
  · next ha =>
    rcases hd with hd | hd
    · exact absurd ha hd
    · rw [Fld.of_into_ne f g _ _ hw hd, State.getF, ha]
  · rfl

/-- A one-bit field of another register, or another bit of the same register, reads as before. -/
theorem State.isF_setF_ne {s : State} (h : s.canonical = true) (f g : Fld) (v i j k l : Nat) (hw : f.lo + f.w ≤ 32)
    (hd : g.addr k l ≠ f.addr i j ∨ g.lo + g.w ≤ f.lo ∨ f.lo + f.w ≤ g.lo) : (s.setF f v i j).isF g k l = s.isF g k l := by
  simp only [State.isF, State.getF_setF_ne h f g v i j k l hw hd]

/-- A register that a statement lists alone may have changed: after one field was set, only its register has. -/
theorem State.onlyRegs_setF {s : State} (h : s.canonical = true) (f : Fld) (v i j : Nat) : OnlyRegs s (s.setF f v i j) [f.addr i j] := by
  intro a ha
  have : a ≠ f.addr i j := by simpa using ha
  rw [State.rd_setF h, if_neg this]

/-! ## The stack -/

/-- Every memory operation keeps the canonical form of the stack. -/
theorem Memory.wf_write (m : Sparse Byte) (a : Nat) (bs : List Byte) (h : Memory.wf m = true) :
    Memory.wf (Sparse.fill 0#8 m a bs) = true := Sparse.wf_fill _ m a bs h

theorem Memory.wf_clear (m : Sparse Byte) (lo hi : Nat) (h : Memory.wf m = true) : Memory.wf (Sparse.clear m lo hi) = true :=
  Sparse.wf_filter _ _ m h

theorem State.canonical_memWrite {s : State} (h : s.canonical = true) (a : Nat) (bs : List Byte) :
    (s.memWrite a bs).canonical = true := by
  rw [State.canonical_iff] at *
  exact ⟨h.1, h.2.1, Memory.wf_write s.mem a bs h.2.2.1, h.2.2.2⟩

theorem State.canonical_memWipe {s : State} (h : s.canonical = true) (a n : Nat) : (s.memWipe a n).canonical = true := by
  rw [State.canonical_iff] at *
  exact ⟨h.1, h.2.1, Memory.wf_clear s.mem _ _ h.2.2.1, Sparse.wf_filter _ _ s.poison h.2.2.2⟩

/-- A byte reads as before unless the write covers it. -/
theorem Sparse.at_fill_out (d : Byte) (m : Sparse Byte) (k q : Nat) (vs : List Byte) (h : Sparse.wf (fun _ => d) m = true)
    (hq : q < k ∨ k + vs.length ≤ q) : Sparse.at d (Sparse.fill d m k vs) q = Sparse.at d m q := by
  induction vs generalizing m k with
  | nil => rfl
  | cons v vs ih =>
    have h1 : q < k + 1 ∨ k + 1 + vs.length ≤ q := by simp at hq; omega
    rw [Sparse.fill, ih (Sparse.upd d m k v) (k + 1) (Sparse.wf_put _ m k v h) h1]
    exact Sparse.at_upd_ne d m v h (by simp at hq; omega)

/-- A write to the stack leaves every byte outside it alone. -/
theorem State.memWrite_out {s : State} (h : s.canonical = true) (a q : Nat) (bs : List Byte) (hq : q < a ∨ a + bs.length ≤ q) :
    (s.memWrite a bs).memBytes q 1 = s.memBytes q 1 := by
  have hm : Sparse.wf (fun _ => 0#8) s.mem = true := ((State.canonical_iff s).1 h).2.2.1
  simp [State.memBytes, State.memWrite, Sparse.range, Sparse.at_fill_out _ _ _ _ _ hm hq]

end Sys2Proof.Machine
end

