-- ==== Sys2Proof/Laws/State.lean ====
section
/-!
SUPPORT. What the named operations leave of each field of the state: one lemma per field per operation.
-/

namespace Sys2Proof.Machine

/-! ## wr -/

@[simp] theorem State.wr_eff (s : State) (a : Nat) (v : Word) : (s.wr a v).eff = s.eff := rfl
@[simp] theorem State.wr_pathRegs (s : State) (a : Nat) (v : Word) : (s.wr a v).pathRegs = s.pathRegs := rfl
@[simp] theorem State.wr_latch (s : State) (a : Nat) (v : Word) : (s.wr a v).latch = s.latch := rfl
@[simp] theorem State.wr_held (s : State) (a : Nat) (v : Word) : (s.wr a v).held = s.held := rfl
@[simp] theorem State.wr_waiting (s : State) (a : Nat) (v : Word) : (s.wr a v).waiting = s.waiting := rfl
@[simp] theorem State.wr_frame (s : State) (a : Nat) (v : Word) : (s.wr a v).frame = s.frame := rfl
@[simp] theorem State.wr_counting (s : State) (a : Nat) (v : Word) : (s.wr a v).counting = s.counting := rfl
@[simp] theorem State.wr_frameBase (s : State) (a : Nat) (v : Word) : (s.wr a v).frameBase = s.frameBase := rfl
@[simp] theorem State.wr_hostWrite (s : State) (a : Nat) (v : Word) : (s.wr a v).hostWrite = s.hostWrite := rfl
@[simp] theorem State.wr_irq (s : State) (a : Nat) (v : Word) : (s.wr a v).irq = s.irq := rfl
@[simp] theorem State.wr_mem (s : State) (a : Nat) (v : Word) : (s.wr a v).mem = s.mem := rfl
@[simp] theorem State.wr_poison (s : State) (a : Nat) (v : Word) : (s.wr a v).poison = s.poison := rfl
@[simp] theorem State.wr_cfg (s : State) (a : Nat) (v : Word) : (s.wr a v).cfg = s.cfg := rfl
@[simp] theorem State.wr_sns (s : State) (a : Nat) (v : Word) : (s.wr a v).sns = s.sns := rfl
@[simp] theorem State.wr_lt (s : State) (a : Nat) (v : Word) : (s.wr a v).lt = s.lt := rfl
@[simp] theorem State.wr_pwm (s : State) (a : Nat) (v : Word) : (s.wr a v).pwm = s.pwm := rfl
@[simp] theorem State.wr_wb (s : State) (a : Nat) (v : Word) : (s.wr a v).wb = s.wb := rfl
@[simp] theorem State.wr_ctx (s : State) (a : Nat) (v : Word) : (s.wr a v).ctx = s.ctx := rfl
@[simp] theorem State.wr_th (s : State) (a : Nat) (v : Word) : (s.wr a v).th = s.th := rfl
@[simp] theorem State.wr_hnt (s : State) (a : Nat) (v : Word) : (s.wr a v).hnt = s.hnt := rfl
@[simp] theorem State.wr_ldg (s : State) (a : Nat) (v : Word) : (s.wr a v).ldg = s.ldg := rfl
@[simp] theorem State.wr_cpc (s : State) (a : Nat) (v : Word) : (s.wr a v).cpc = s.cpc := rfl
@[simp] theorem State.wr_pkl (s : State) (a : Nat) (v : Word) : (s.wr a v).pkl = s.pkl := rfl
@[simp] theorem State.wr_est (s : State) (a : Nat) (v : Word) : (s.wr a v).est = s.est := rfl
@[simp] theorem State.wr_snap (s : State) (a : Nat) (v : Word) : (s.wr a v).snap = s.snap := rfl
@[simp] theorem State.wr_sec (s : State) (a : Nat) (v : Word) : (s.wr a v).sec = s.sec := rfl
@[simp] theorem State.wr_twn (s : State) (a : Nat) (v : Word) : (s.wr a v).twn = s.twn := rfl
@[simp] theorem State.wr_pwr (s : State) (a : Nat) (v : Word) : (s.wr a v).pwr = s.pwr := rfl
@[simp] theorem State.wr_log (s : State) (a : Nat) (v : Word) : (s.wr a v).log = s.log := rfl
@[simp] theorem State.wr_host (s : State) (a : Nat) (v : Word) : (s.wr a v).host = s.host := rfl
@[simp] theorem State.wr_events (s : State) (a : Nat) (v : Word) : (s.wr a v).events = s.events := rfl
@[simp] theorem State.wr_outbox (s : State) (a : Nat) (v : Word) : (s.wr a v).outbox = s.outbox := rfl
@[simp] theorem State.wr_free (s : State) (a : Nat) (v : Word) : (s.wr a v).free = s.free := rfl
@[simp] theorem State.wr_pending (s : State) (a : Nat) (v : Word) : (s.wr a v).pending = s.pending := rfl

/-! ## setF -/

@[simp] theorem State.setF_eff (s : State) (f : Fld) (v i j : Nat) : (s.setF f v i j).eff = s.eff := rfl
@[simp] theorem State.setF_pathRegs (s : State) (f : Fld) (v i j : Nat) : (s.setF f v i j).pathRegs = s.pathRegs := rfl
@[simp] theorem State.setF_latch (s : State) (f : Fld) (v i j : Nat) : (s.setF f v i j).latch = s.latch := rfl
@[simp] theorem State.setF_held (s : State) (f : Fld) (v i j : Nat) : (s.setF f v i j).held = s.held := rfl
@[simp] theorem State.setF_waiting (s : State) (f : Fld) (v i j : Nat) : (s.setF f v i j).waiting = s.waiting := rfl
@[simp] theorem State.setF_frame (s : State) (f : Fld) (v i j : Nat) : (s.setF f v i j).frame = s.frame := rfl
@[simp] theorem State.setF_counting (s : State) (f : Fld) (v i j : Nat) : (s.setF f v i j).counting = s.counting := rfl
@[simp] theorem State.setF_frameBase (s : State) (f : Fld) (v i j : Nat) : (s.setF f v i j).frameBase = s.frameBase := rfl
@[simp] theorem State.setF_hostWrite (s : State) (f : Fld) (v i j : Nat) : (s.setF f v i j).hostWrite = s.hostWrite := rfl
@[simp] theorem State.setF_irq (s : State) (f : Fld) (v i j : Nat) : (s.setF f v i j).irq = s.irq := rfl
@[simp] theorem State.setF_mem (s : State) (f : Fld) (v i j : Nat) : (s.setF f v i j).mem = s.mem := rfl
@[simp] theorem State.setF_poison (s : State) (f : Fld) (v i j : Nat) : (s.setF f v i j).poison = s.poison := rfl
@[simp] theorem State.setF_cfg (s : State) (f : Fld) (v i j : Nat) : (s.setF f v i j).cfg = s.cfg := rfl
@[simp] theorem State.setF_sns (s : State) (f : Fld) (v i j : Nat) : (s.setF f v i j).sns = s.sns := rfl
@[simp] theorem State.setF_lt (s : State) (f : Fld) (v i j : Nat) : (s.setF f v i j).lt = s.lt := rfl
@[simp] theorem State.setF_pwm (s : State) (f : Fld) (v i j : Nat) : (s.setF f v i j).pwm = s.pwm := rfl
@[simp] theorem State.setF_wb (s : State) (f : Fld) (v i j : Nat) : (s.setF f v i j).wb = s.wb := rfl
@[simp] theorem State.setF_ctx (s : State) (f : Fld) (v i j : Nat) : (s.setF f v i j).ctx = s.ctx := rfl
@[simp] theorem State.setF_th (s : State) (f : Fld) (v i j : Nat) : (s.setF f v i j).th = s.th := rfl
@[simp] theorem State.setF_hnt (s : State) (f : Fld) (v i j : Nat) : (s.setF f v i j).hnt = s.hnt := rfl
@[simp] theorem State.setF_ldg (s : State) (f : Fld) (v i j : Nat) : (s.setF f v i j).ldg = s.ldg := rfl
@[simp] theorem State.setF_cpc (s : State) (f : Fld) (v i j : Nat) : (s.setF f v i j).cpc = s.cpc := rfl
@[simp] theorem State.setF_pkl (s : State) (f : Fld) (v i j : Nat) : (s.setF f v i j).pkl = s.pkl := rfl
@[simp] theorem State.setF_est (s : State) (f : Fld) (v i j : Nat) : (s.setF f v i j).est = s.est := rfl
@[simp] theorem State.setF_snap (s : State) (f : Fld) (v i j : Nat) : (s.setF f v i j).snap = s.snap := rfl
@[simp] theorem State.setF_sec (s : State) (f : Fld) (v i j : Nat) : (s.setF f v i j).sec = s.sec := rfl
@[simp] theorem State.setF_twn (s : State) (f : Fld) (v i j : Nat) : (s.setF f v i j).twn = s.twn := rfl
@[simp] theorem State.setF_pwr (s : State) (f : Fld) (v i j : Nat) : (s.setF f v i j).pwr = s.pwr := rfl
@[simp] theorem State.setF_log (s : State) (f : Fld) (v i j : Nat) : (s.setF f v i j).log = s.log := rfl
@[simp] theorem State.setF_host (s : State) (f : Fld) (v i j : Nat) : (s.setF f v i j).host = s.host := rfl
@[simp] theorem State.setF_events (s : State) (f : Fld) (v i j : Nat) : (s.setF f v i j).events = s.events := rfl
@[simp] theorem State.setF_outbox (s : State) (f : Fld) (v i j : Nat) : (s.setF f v i j).outbox = s.outbox := rfl
@[simp] theorem State.setF_free (s : State) (f : Fld) (v i j : Nat) : (s.setF f v i j).free = s.free := rfl
@[simp] theorem State.setF_pending (s : State) (f : Fld) (v i j : Nat) : (s.setF f v i j).pending = s.pending := rfl

/-! ## wrPath -/

@[simp] theorem State.wrPath_regs (s : State) (p a : Nat) (v : Word) : (s.wrPath p a v).regs = s.regs := rfl
@[simp] theorem State.wrPath_eff (s : State) (p a : Nat) (v : Word) : (s.wrPath p a v).eff = s.eff := rfl
@[simp] theorem State.wrPath_latch (s : State) (p a : Nat) (v : Word) : (s.wrPath p a v).latch = s.latch := rfl
@[simp] theorem State.wrPath_held (s : State) (p a : Nat) (v : Word) : (s.wrPath p a v).held = s.held := rfl
@[simp] theorem State.wrPath_waiting (s : State) (p a : Nat) (v : Word) : (s.wrPath p a v).waiting = s.waiting := rfl
@[simp] theorem State.wrPath_frame (s : State) (p a : Nat) (v : Word) : (s.wrPath p a v).frame = s.frame := rfl
@[simp] theorem State.wrPath_counting (s : State) (p a : Nat) (v : Word) : (s.wrPath p a v).counting = s.counting := rfl
@[simp] theorem State.wrPath_frameBase (s : State) (p a : Nat) (v : Word) : (s.wrPath p a v).frameBase = s.frameBase := rfl
@[simp] theorem State.wrPath_hostWrite (s : State) (p a : Nat) (v : Word) : (s.wrPath p a v).hostWrite = s.hostWrite := rfl
@[simp] theorem State.wrPath_irq (s : State) (p a : Nat) (v : Word) : (s.wrPath p a v).irq = s.irq := rfl
@[simp] theorem State.wrPath_mem (s : State) (p a : Nat) (v : Word) : (s.wrPath p a v).mem = s.mem := rfl
@[simp] theorem State.wrPath_poison (s : State) (p a : Nat) (v : Word) : (s.wrPath p a v).poison = s.poison := rfl
@[simp] theorem State.wrPath_cfg (s : State) (p a : Nat) (v : Word) : (s.wrPath p a v).cfg = s.cfg := rfl
@[simp] theorem State.wrPath_sns (s : State) (p a : Nat) (v : Word) : (s.wrPath p a v).sns = s.sns := rfl
@[simp] theorem State.wrPath_lt (s : State) (p a : Nat) (v : Word) : (s.wrPath p a v).lt = s.lt := rfl
@[simp] theorem State.wrPath_pwm (s : State) (p a : Nat) (v : Word) : (s.wrPath p a v).pwm = s.pwm := rfl
@[simp] theorem State.wrPath_wb (s : State) (p a : Nat) (v : Word) : (s.wrPath p a v).wb = s.wb := rfl
@[simp] theorem State.wrPath_ctx (s : State) (p a : Nat) (v : Word) : (s.wrPath p a v).ctx = s.ctx := rfl
@[simp] theorem State.wrPath_th (s : State) (p a : Nat) (v : Word) : (s.wrPath p a v).th = s.th := rfl
@[simp] theorem State.wrPath_hnt (s : State) (p a : Nat) (v : Word) : (s.wrPath p a v).hnt = s.hnt := rfl
@[simp] theorem State.wrPath_ldg (s : State) (p a : Nat) (v : Word) : (s.wrPath p a v).ldg = s.ldg := rfl
@[simp] theorem State.wrPath_cpc (s : State) (p a : Nat) (v : Word) : (s.wrPath p a v).cpc = s.cpc := rfl
@[simp] theorem State.wrPath_pkl (s : State) (p a : Nat) (v : Word) : (s.wrPath p a v).pkl = s.pkl := rfl
@[simp] theorem State.wrPath_est (s : State) (p a : Nat) (v : Word) : (s.wrPath p a v).est = s.est := rfl
@[simp] theorem State.wrPath_snap (s : State) (p a : Nat) (v : Word) : (s.wrPath p a v).snap = s.snap := rfl
@[simp] theorem State.wrPath_sec (s : State) (p a : Nat) (v : Word) : (s.wrPath p a v).sec = s.sec := rfl
@[simp] theorem State.wrPath_twn (s : State) (p a : Nat) (v : Word) : (s.wrPath p a v).twn = s.twn := rfl
@[simp] theorem State.wrPath_pwr (s : State) (p a : Nat) (v : Word) : (s.wrPath p a v).pwr = s.pwr := rfl
@[simp] theorem State.wrPath_log (s : State) (p a : Nat) (v : Word) : (s.wrPath p a v).log = s.log := rfl
@[simp] theorem State.wrPath_host (s : State) (p a : Nat) (v : Word) : (s.wrPath p a v).host = s.host := rfl
@[simp] theorem State.wrPath_events (s : State) (p a : Nat) (v : Word) : (s.wrPath p a v).events = s.events := rfl
@[simp] theorem State.wrPath_outbox (s : State) (p a : Nat) (v : Word) : (s.wrPath p a v).outbox = s.outbox := rfl
@[simp] theorem State.wrPath_free (s : State) (p a : Nat) (v : Word) : (s.wrPath p a v).free = s.free := rfl
@[simp] theorem State.wrPath_pending (s : State) (p a : Nat) (v : Word) : (s.wrPath p a v).pending = s.pending := rfl

/-! ## emit -/

@[simp] theorem State.emit_regs (s : State) (kd : OutKind) (as : List Nat) : (s.emit kd as).regs = s.regs := rfl
@[simp] theorem State.emit_eff (s : State) (kd : OutKind) (as : List Nat) : (s.emit kd as).eff = s.eff := rfl
@[simp] theorem State.emit_pathRegs (s : State) (kd : OutKind) (as : List Nat) : (s.emit kd as).pathRegs = s.pathRegs := rfl
@[simp] theorem State.emit_latch (s : State) (kd : OutKind) (as : List Nat) : (s.emit kd as).latch = s.latch := rfl
@[simp] theorem State.emit_held (s : State) (kd : OutKind) (as : List Nat) : (s.emit kd as).held = s.held := rfl
@[simp] theorem State.emit_waiting (s : State) (kd : OutKind) (as : List Nat) : (s.emit kd as).waiting = s.waiting := rfl
@[simp] theorem State.emit_frame (s : State) (kd : OutKind) (as : List Nat) : (s.emit kd as).frame = s.frame := rfl
@[simp] theorem State.emit_counting (s : State) (kd : OutKind) (as : List Nat) : (s.emit kd as).counting = s.counting := rfl
@[simp] theorem State.emit_frameBase (s : State) (kd : OutKind) (as : List Nat) : (s.emit kd as).frameBase = s.frameBase := rfl
@[simp] theorem State.emit_hostWrite (s : State) (kd : OutKind) (as : List Nat) : (s.emit kd as).hostWrite = s.hostWrite := rfl
@[simp] theorem State.emit_irq (s : State) (kd : OutKind) (as : List Nat) : (s.emit kd as).irq = s.irq := rfl
@[simp] theorem State.emit_mem (s : State) (kd : OutKind) (as : List Nat) : (s.emit kd as).mem = s.mem := rfl
@[simp] theorem State.emit_poison (s : State) (kd : OutKind) (as : List Nat) : (s.emit kd as).poison = s.poison := rfl
@[simp] theorem State.emit_cfg (s : State) (kd : OutKind) (as : List Nat) : (s.emit kd as).cfg = s.cfg := rfl
@[simp] theorem State.emit_sns (s : State) (kd : OutKind) (as : List Nat) : (s.emit kd as).sns = s.sns := rfl
@[simp] theorem State.emit_lt (s : State) (kd : OutKind) (as : List Nat) : (s.emit kd as).lt = s.lt := rfl
@[simp] theorem State.emit_pwm (s : State) (kd : OutKind) (as : List Nat) : (s.emit kd as).pwm = s.pwm := rfl
@[simp] theorem State.emit_wb (s : State) (kd : OutKind) (as : List Nat) : (s.emit kd as).wb = s.wb := rfl
@[simp] theorem State.emit_ctx (s : State) (kd : OutKind) (as : List Nat) : (s.emit kd as).ctx = s.ctx := rfl
@[simp] theorem State.emit_th (s : State) (kd : OutKind) (as : List Nat) : (s.emit kd as).th = s.th := rfl
@[simp] theorem State.emit_hnt (s : State) (kd : OutKind) (as : List Nat) : (s.emit kd as).hnt = s.hnt := rfl
@[simp] theorem State.emit_ldg (s : State) (kd : OutKind) (as : List Nat) : (s.emit kd as).ldg = s.ldg := rfl
@[simp] theorem State.emit_cpc (s : State) (kd : OutKind) (as : List Nat) : (s.emit kd as).cpc = s.cpc := rfl
@[simp] theorem State.emit_pkl (s : State) (kd : OutKind) (as : List Nat) : (s.emit kd as).pkl = s.pkl := rfl
@[simp] theorem State.emit_est (s : State) (kd : OutKind) (as : List Nat) : (s.emit kd as).est = s.est := rfl
@[simp] theorem State.emit_snap (s : State) (kd : OutKind) (as : List Nat) : (s.emit kd as).snap = s.snap := rfl
@[simp] theorem State.emit_sec (s : State) (kd : OutKind) (as : List Nat) : (s.emit kd as).sec = s.sec := rfl
@[simp] theorem State.emit_twn (s : State) (kd : OutKind) (as : List Nat) : (s.emit kd as).twn = s.twn := rfl
@[simp] theorem State.emit_pwr (s : State) (kd : OutKind) (as : List Nat) : (s.emit kd as).pwr = s.pwr := rfl
@[simp] theorem State.emit_log (s : State) (kd : OutKind) (as : List Nat) : (s.emit kd as).log = s.log := rfl
@[simp] theorem State.emit_host (s : State) (kd : OutKind) (as : List Nat) : (s.emit kd as).host = s.host := rfl
@[simp] theorem State.emit_events (s : State) (kd : OutKind) (as : List Nat) : (s.emit kd as).events = s.events := rfl
@[simp] theorem State.emit_free (s : State) (kd : OutKind) (as : List Nat) : (s.emit kd as).free = s.free := rfl
@[simp] theorem State.emit_pending (s : State) (kd : OutKind) (as : List Nat) : (s.emit kd as).pending = s.pending := rfl

/-! ## event -/

@[simp] theorem State.event_regs (s : State) (c o : Nat) (d : List Nat) : (s.event c o d).regs = s.regs := rfl
@[simp] theorem State.event_eff (s : State) (c o : Nat) (d : List Nat) : (s.event c o d).eff = s.eff := rfl
@[simp] theorem State.event_pathRegs (s : State) (c o : Nat) (d : List Nat) : (s.event c o d).pathRegs = s.pathRegs := rfl
@[simp] theorem State.event_latch (s : State) (c o : Nat) (d : List Nat) : (s.event c o d).latch = s.latch := rfl
@[simp] theorem State.event_held (s : State) (c o : Nat) (d : List Nat) : (s.event c o d).held = s.held := rfl
@[simp] theorem State.event_waiting (s : State) (c o : Nat) (d : List Nat) : (s.event c o d).waiting = s.waiting := rfl
@[simp] theorem State.event_frame (s : State) (c o : Nat) (d : List Nat) : (s.event c o d).frame = s.frame := rfl
@[simp] theorem State.event_counting (s : State) (c o : Nat) (d : List Nat) : (s.event c o d).counting = s.counting := rfl
@[simp] theorem State.event_frameBase (s : State) (c o : Nat) (d : List Nat) : (s.event c o d).frameBase = s.frameBase := rfl
@[simp] theorem State.event_hostWrite (s : State) (c o : Nat) (d : List Nat) : (s.event c o d).hostWrite = s.hostWrite := rfl
@[simp] theorem State.event_irq (s : State) (c o : Nat) (d : List Nat) : (s.event c o d).irq = s.irq := rfl
@[simp] theorem State.event_mem (s : State) (c o : Nat) (d : List Nat) : (s.event c o d).mem = s.mem := rfl
@[simp] theorem State.event_poison (s : State) (c o : Nat) (d : List Nat) : (s.event c o d).poison = s.poison := rfl
@[simp] theorem State.event_cfg (s : State) (c o : Nat) (d : List Nat) : (s.event c o d).cfg = s.cfg := rfl
@[simp] theorem State.event_sns (s : State) (c o : Nat) (d : List Nat) : (s.event c o d).sns = s.sns := rfl
@[simp] theorem State.event_lt (s : State) (c o : Nat) (d : List Nat) : (s.event c o d).lt = s.lt := rfl
@[simp] theorem State.event_pwm (s : State) (c o : Nat) (d : List Nat) : (s.event c o d).pwm = s.pwm := rfl
@[simp] theorem State.event_wb (s : State) (c o : Nat) (d : List Nat) : (s.event c o d).wb = s.wb := rfl
@[simp] theorem State.event_ctx (s : State) (c o : Nat) (d : List Nat) : (s.event c o d).ctx = s.ctx := rfl
@[simp] theorem State.event_th (s : State) (c o : Nat) (d : List Nat) : (s.event c o d).th = s.th := rfl
@[simp] theorem State.event_hnt (s : State) (c o : Nat) (d : List Nat) : (s.event c o d).hnt = s.hnt := rfl
@[simp] theorem State.event_ldg (s : State) (c o : Nat) (d : List Nat) : (s.event c o d).ldg = s.ldg := rfl
@[simp] theorem State.event_cpc (s : State) (c o : Nat) (d : List Nat) : (s.event c o d).cpc = s.cpc := rfl
@[simp] theorem State.event_pkl (s : State) (c o : Nat) (d : List Nat) : (s.event c o d).pkl = s.pkl := rfl
@[simp] theorem State.event_est (s : State) (c o : Nat) (d : List Nat) : (s.event c o d).est = s.est := rfl
@[simp] theorem State.event_snap (s : State) (c o : Nat) (d : List Nat) : (s.event c o d).snap = s.snap := rfl
@[simp] theorem State.event_sec (s : State) (c o : Nat) (d : List Nat) : (s.event c o d).sec = s.sec := rfl
@[simp] theorem State.event_twn (s : State) (c o : Nat) (d : List Nat) : (s.event c o d).twn = s.twn := rfl
@[simp] theorem State.event_pwr (s : State) (c o : Nat) (d : List Nat) : (s.event c o d).pwr = s.pwr := rfl
@[simp] theorem State.event_log (s : State) (c o : Nat) (d : List Nat) : (s.event c o d).log = s.log := rfl
@[simp] theorem State.event_host (s : State) (c o : Nat) (d : List Nat) : (s.event c o d).host = s.host := rfl
@[simp] theorem State.event_outbox (s : State) (c o : Nat) (d : List Nat) : (s.event c o d).outbox = s.outbox := rfl
@[simp] theorem State.event_free (s : State) (c o : Nat) (d : List Nat) : (s.event c o d).free = s.free := rfl
@[simp] theorem State.event_pending (s : State) (c o : Nat) (d : List Nat) : (s.event c o d).pending = s.pending := rfl

/-! ## memWrite -/

@[simp] theorem State.memWrite_regs (s : State) (a : Nat) (bs : List Byte) : (s.memWrite a bs).regs = s.regs := rfl
@[simp] theorem State.memWrite_eff (s : State) (a : Nat) (bs : List Byte) : (s.memWrite a bs).eff = s.eff := rfl
@[simp] theorem State.memWrite_pathRegs (s : State) (a : Nat) (bs : List Byte) : (s.memWrite a bs).pathRegs = s.pathRegs := rfl
@[simp] theorem State.memWrite_latch (s : State) (a : Nat) (bs : List Byte) : (s.memWrite a bs).latch = s.latch := rfl
@[simp] theorem State.memWrite_held (s : State) (a : Nat) (bs : List Byte) : (s.memWrite a bs).held = s.held := rfl
@[simp] theorem State.memWrite_waiting (s : State) (a : Nat) (bs : List Byte) : (s.memWrite a bs).waiting = s.waiting := rfl
@[simp] theorem State.memWrite_frame (s : State) (a : Nat) (bs : List Byte) : (s.memWrite a bs).frame = s.frame := rfl
@[simp] theorem State.memWrite_counting (s : State) (a : Nat) (bs : List Byte) : (s.memWrite a bs).counting = s.counting := rfl
@[simp] theorem State.memWrite_frameBase (s : State) (a : Nat) (bs : List Byte) : (s.memWrite a bs).frameBase = s.frameBase := rfl
@[simp] theorem State.memWrite_hostWrite (s : State) (a : Nat) (bs : List Byte) : (s.memWrite a bs).hostWrite = s.hostWrite := rfl
@[simp] theorem State.memWrite_irq (s : State) (a : Nat) (bs : List Byte) : (s.memWrite a bs).irq = s.irq := rfl
@[simp] theorem State.memWrite_poison (s : State) (a : Nat) (bs : List Byte) : (s.memWrite a bs).poison = s.poison := rfl
@[simp] theorem State.memWrite_cfg (s : State) (a : Nat) (bs : List Byte) : (s.memWrite a bs).cfg = s.cfg := rfl
@[simp] theorem State.memWrite_sns (s : State) (a : Nat) (bs : List Byte) : (s.memWrite a bs).sns = s.sns := rfl
@[simp] theorem State.memWrite_lt (s : State) (a : Nat) (bs : List Byte) : (s.memWrite a bs).lt = s.lt := rfl
@[simp] theorem State.memWrite_pwm (s : State) (a : Nat) (bs : List Byte) : (s.memWrite a bs).pwm = s.pwm := rfl
@[simp] theorem State.memWrite_wb (s : State) (a : Nat) (bs : List Byte) : (s.memWrite a bs).wb = s.wb := rfl
@[simp] theorem State.memWrite_ctx (s : State) (a : Nat) (bs : List Byte) : (s.memWrite a bs).ctx = s.ctx := rfl
@[simp] theorem State.memWrite_th (s : State) (a : Nat) (bs : List Byte) : (s.memWrite a bs).th = s.th := rfl
@[simp] theorem State.memWrite_hnt (s : State) (a : Nat) (bs : List Byte) : (s.memWrite a bs).hnt = s.hnt := rfl
@[simp] theorem State.memWrite_ldg (s : State) (a : Nat) (bs : List Byte) : (s.memWrite a bs).ldg = s.ldg := rfl
@[simp] theorem State.memWrite_cpc (s : State) (a : Nat) (bs : List Byte) : (s.memWrite a bs).cpc = s.cpc := rfl
@[simp] theorem State.memWrite_pkl (s : State) (a : Nat) (bs : List Byte) : (s.memWrite a bs).pkl = s.pkl := rfl
@[simp] theorem State.memWrite_est (s : State) (a : Nat) (bs : List Byte) : (s.memWrite a bs).est = s.est := rfl
@[simp] theorem State.memWrite_snap (s : State) (a : Nat) (bs : List Byte) : (s.memWrite a bs).snap = s.snap := rfl
@[simp] theorem State.memWrite_sec (s : State) (a : Nat) (bs : List Byte) : (s.memWrite a bs).sec = s.sec := rfl
@[simp] theorem State.memWrite_twn (s : State) (a : Nat) (bs : List Byte) : (s.memWrite a bs).twn = s.twn := rfl
@[simp] theorem State.memWrite_pwr (s : State) (a : Nat) (bs : List Byte) : (s.memWrite a bs).pwr = s.pwr := rfl
@[simp] theorem State.memWrite_log (s : State) (a : Nat) (bs : List Byte) : (s.memWrite a bs).log = s.log := rfl
@[simp] theorem State.memWrite_host (s : State) (a : Nat) (bs : List Byte) : (s.memWrite a bs).host = s.host := rfl
@[simp] theorem State.memWrite_events (s : State) (a : Nat) (bs : List Byte) : (s.memWrite a bs).events = s.events := rfl
@[simp] theorem State.memWrite_outbox (s : State) (a : Nat) (bs : List Byte) : (s.memWrite a bs).outbox = s.outbox := rfl
@[simp] theorem State.memWrite_free (s : State) (a : Nat) (bs : List Byte) : (s.memWrite a bs).free = s.free := rfl
@[simp] theorem State.memWrite_pending (s : State) (a : Nat) (bs : List Byte) : (s.memWrite a bs).pending = s.pending := rfl

/-! ## memWipe -/

@[simp] theorem State.memWipe_regs (s : State) (a n : Nat) : (s.memWipe a n).regs = s.regs := rfl
@[simp] theorem State.memWipe_eff (s : State) (a n : Nat) : (s.memWipe a n).eff = s.eff := rfl
@[simp] theorem State.memWipe_pathRegs (s : State) (a n : Nat) : (s.memWipe a n).pathRegs = s.pathRegs := rfl
@[simp] theorem State.memWipe_latch (s : State) (a n : Nat) : (s.memWipe a n).latch = s.latch := rfl
@[simp] theorem State.memWipe_held (s : State) (a n : Nat) : (s.memWipe a n).held = s.held := rfl
@[simp] theorem State.memWipe_waiting (s : State) (a n : Nat) : (s.memWipe a n).waiting = s.waiting := rfl
@[simp] theorem State.memWipe_frame (s : State) (a n : Nat) : (s.memWipe a n).frame = s.frame := rfl
@[simp] theorem State.memWipe_counting (s : State) (a n : Nat) : (s.memWipe a n).counting = s.counting := rfl
@[simp] theorem State.memWipe_frameBase (s : State) (a n : Nat) : (s.memWipe a n).frameBase = s.frameBase := rfl
@[simp] theorem State.memWipe_hostWrite (s : State) (a n : Nat) : (s.memWipe a n).hostWrite = s.hostWrite := rfl
@[simp] theorem State.memWipe_irq (s : State) (a n : Nat) : (s.memWipe a n).irq = s.irq := rfl
@[simp] theorem State.memWipe_cfg (s : State) (a n : Nat) : (s.memWipe a n).cfg = s.cfg := rfl
@[simp] theorem State.memWipe_sns (s : State) (a n : Nat) : (s.memWipe a n).sns = s.sns := rfl
@[simp] theorem State.memWipe_lt (s : State) (a n : Nat) : (s.memWipe a n).lt = s.lt := rfl
@[simp] theorem State.memWipe_pwm (s : State) (a n : Nat) : (s.memWipe a n).pwm = s.pwm := rfl
@[simp] theorem State.memWipe_wb (s : State) (a n : Nat) : (s.memWipe a n).wb = s.wb := rfl
@[simp] theorem State.memWipe_ctx (s : State) (a n : Nat) : (s.memWipe a n).ctx = s.ctx := rfl
@[simp] theorem State.memWipe_th (s : State) (a n : Nat) : (s.memWipe a n).th = s.th := rfl
@[simp] theorem State.memWipe_hnt (s : State) (a n : Nat) : (s.memWipe a n).hnt = s.hnt := rfl
@[simp] theorem State.memWipe_ldg (s : State) (a n : Nat) : (s.memWipe a n).ldg = s.ldg := rfl
@[simp] theorem State.memWipe_cpc (s : State) (a n : Nat) : (s.memWipe a n).cpc = s.cpc := rfl
@[simp] theorem State.memWipe_pkl (s : State) (a n : Nat) : (s.memWipe a n).pkl = s.pkl := rfl
@[simp] theorem State.memWipe_est (s : State) (a n : Nat) : (s.memWipe a n).est = s.est := rfl
@[simp] theorem State.memWipe_snap (s : State) (a n : Nat) : (s.memWipe a n).snap = s.snap := rfl
@[simp] theorem State.memWipe_sec (s : State) (a n : Nat) : (s.memWipe a n).sec = s.sec := rfl
@[simp] theorem State.memWipe_twn (s : State) (a n : Nat) : (s.memWipe a n).twn = s.twn := rfl
@[simp] theorem State.memWipe_pwr (s : State) (a n : Nat) : (s.memWipe a n).pwr = s.pwr := rfl
@[simp] theorem State.memWipe_log (s : State) (a n : Nat) : (s.memWipe a n).log = s.log := rfl
@[simp] theorem State.memWipe_host (s : State) (a n : Nat) : (s.memWipe a n).host = s.host := rfl
@[simp] theorem State.memWipe_events (s : State) (a n : Nat) : (s.memWipe a n).events = s.events := rfl
@[simp] theorem State.memWipe_outbox (s : State) (a n : Nat) : (s.memWipe a n).outbox = s.outbox := rfl
@[simp] theorem State.memWipe_free (s : State) (a n : Nat) : (s.memWipe a n).free = s.free := rfl
@[simp] theorem State.memWipe_pending (s : State) (a n : Nat) : (s.memWipe a n).pending = s.pending := rfl

/-! ## useFree -/

@[simp] theorem State.useFree_regs (s : State) : (s.useFree).regs = s.regs := rfl
@[simp] theorem State.useFree_eff (s : State) : (s.useFree).eff = s.eff := rfl
@[simp] theorem State.useFree_pathRegs (s : State) : (s.useFree).pathRegs = s.pathRegs := rfl
@[simp] theorem State.useFree_latch (s : State) : (s.useFree).latch = s.latch := rfl
@[simp] theorem State.useFree_held (s : State) : (s.useFree).held = s.held := rfl
@[simp] theorem State.useFree_waiting (s : State) : (s.useFree).waiting = s.waiting := rfl
@[simp] theorem State.useFree_frame (s : State) : (s.useFree).frame = s.frame := rfl
@[simp] theorem State.useFree_counting (s : State) : (s.useFree).counting = s.counting := rfl
@[simp] theorem State.useFree_frameBase (s : State) : (s.useFree).frameBase = s.frameBase := rfl
@[simp] theorem State.useFree_hostWrite (s : State) : (s.useFree).hostWrite = s.hostWrite := rfl
@[simp] theorem State.useFree_irq (s : State) : (s.useFree).irq = s.irq := rfl
@[simp] theorem State.useFree_mem (s : State) : (s.useFree).mem = s.mem := rfl
@[simp] theorem State.useFree_poison (s : State) : (s.useFree).poison = s.poison := rfl
@[simp] theorem State.useFree_cfg (s : State) : (s.useFree).cfg = s.cfg := rfl
@[simp] theorem State.useFree_sns (s : State) : (s.useFree).sns = s.sns := rfl
@[simp] theorem State.useFree_lt (s : State) : (s.useFree).lt = s.lt := rfl
@[simp] theorem State.useFree_pwm (s : State) : (s.useFree).pwm = s.pwm := rfl
@[simp] theorem State.useFree_wb (s : State) : (s.useFree).wb = s.wb := rfl
@[simp] theorem State.useFree_ctx (s : State) : (s.useFree).ctx = s.ctx := rfl
@[simp] theorem State.useFree_th (s : State) : (s.useFree).th = s.th := rfl
@[simp] theorem State.useFree_hnt (s : State) : (s.useFree).hnt = s.hnt := rfl
@[simp] theorem State.useFree_ldg (s : State) : (s.useFree).ldg = s.ldg := rfl
@[simp] theorem State.useFree_cpc (s : State) : (s.useFree).cpc = s.cpc := rfl
@[simp] theorem State.useFree_pkl (s : State) : (s.useFree).pkl = s.pkl := rfl
@[simp] theorem State.useFree_est (s : State) : (s.useFree).est = s.est := rfl
@[simp] theorem State.useFree_snap (s : State) : (s.useFree).snap = s.snap := rfl
@[simp] theorem State.useFree_sec (s : State) : (s.useFree).sec = s.sec := rfl
@[simp] theorem State.useFree_twn (s : State) : (s.useFree).twn = s.twn := rfl
@[simp] theorem State.useFree_pwr (s : State) : (s.useFree).pwr = s.pwr := rfl
@[simp] theorem State.useFree_log (s : State) : (s.useFree).log = s.log := rfl
@[simp] theorem State.useFree_host (s : State) : (s.useFree).host = s.host := rfl
@[simp] theorem State.useFree_events (s : State) : (s.useFree).events = s.events := rfl
@[simp] theorem State.useFree_outbox (s : State) : (s.useFree).outbox = s.outbox := rfl
@[simp] theorem State.useFree_pending (s : State) : (s.useFree).pending = s.pending := rfl

/-! ## cause -/

@[simp] theorem State.cause_eff (s : State) (vec bit : Nat) : (s.cause vec bit).eff = s.eff := rfl
@[simp] theorem State.cause_pathRegs (s : State) (vec bit : Nat) : (s.cause vec bit).pathRegs = s.pathRegs := rfl
@[simp] theorem State.cause_latch (s : State) (vec bit : Nat) : (s.cause vec bit).latch = s.latch := rfl
@[simp] theorem State.cause_held (s : State) (vec bit : Nat) : (s.cause vec bit).held = s.held := rfl
@[simp] theorem State.cause_waiting (s : State) (vec bit : Nat) : (s.cause vec bit).waiting = s.waiting := rfl
@[simp] theorem State.cause_frame (s : State) (vec bit : Nat) : (s.cause vec bit).frame = s.frame := rfl
@[simp] theorem State.cause_counting (s : State) (vec bit : Nat) : (s.cause vec bit).counting = s.counting := rfl
@[simp] theorem State.cause_frameBase (s : State) (vec bit : Nat) : (s.cause vec bit).frameBase = s.frameBase := rfl
@[simp] theorem State.cause_hostWrite (s : State) (vec bit : Nat) : (s.cause vec bit).hostWrite = s.hostWrite := rfl
@[simp] theorem State.cause_irq (s : State) (vec bit : Nat) : (s.cause vec bit).irq = s.irq := rfl
@[simp] theorem State.cause_mem (s : State) (vec bit : Nat) : (s.cause vec bit).mem = s.mem := rfl
@[simp] theorem State.cause_poison (s : State) (vec bit : Nat) : (s.cause vec bit).poison = s.poison := rfl
@[simp] theorem State.cause_cfg (s : State) (vec bit : Nat) : (s.cause vec bit).cfg = s.cfg := rfl
@[simp] theorem State.cause_sns (s : State) (vec bit : Nat) : (s.cause vec bit).sns = s.sns := rfl
@[simp] theorem State.cause_lt (s : State) (vec bit : Nat) : (s.cause vec bit).lt = s.lt := rfl
@[simp] theorem State.cause_pwm (s : State) (vec bit : Nat) : (s.cause vec bit).pwm = s.pwm := rfl
@[simp] theorem State.cause_wb (s : State) (vec bit : Nat) : (s.cause vec bit).wb = s.wb := rfl
@[simp] theorem State.cause_ctx (s : State) (vec bit : Nat) : (s.cause vec bit).ctx = s.ctx := rfl
@[simp] theorem State.cause_th (s : State) (vec bit : Nat) : (s.cause vec bit).th = s.th := rfl
@[simp] theorem State.cause_hnt (s : State) (vec bit : Nat) : (s.cause vec bit).hnt = s.hnt := rfl
@[simp] theorem State.cause_ldg (s : State) (vec bit : Nat) : (s.cause vec bit).ldg = s.ldg := rfl
@[simp] theorem State.cause_cpc (s : State) (vec bit : Nat) : (s.cause vec bit).cpc = s.cpc := rfl
@[simp] theorem State.cause_pkl (s : State) (vec bit : Nat) : (s.cause vec bit).pkl = s.pkl := rfl
@[simp] theorem State.cause_est (s : State) (vec bit : Nat) : (s.cause vec bit).est = s.est := rfl
@[simp] theorem State.cause_snap (s : State) (vec bit : Nat) : (s.cause vec bit).snap = s.snap := rfl
@[simp] theorem State.cause_sec (s : State) (vec bit : Nat) : (s.cause vec bit).sec = s.sec := rfl
@[simp] theorem State.cause_twn (s : State) (vec bit : Nat) : (s.cause vec bit).twn = s.twn := rfl
@[simp] theorem State.cause_pwr (s : State) (vec bit : Nat) : (s.cause vec bit).pwr = s.pwr := rfl
@[simp] theorem State.cause_log (s : State) (vec bit : Nat) : (s.cause vec bit).log = s.log := rfl
@[simp] theorem State.cause_host (s : State) (vec bit : Nat) : (s.cause vec bit).host = s.host := rfl
@[simp] theorem State.cause_events (s : State) (vec bit : Nat) : (s.cause vec bit).events = s.events := rfl
@[simp] theorem State.cause_outbox (s : State) (vec bit : Nat) : (s.cause vec bit).outbox = s.outbox := rfl
@[simp] theorem State.cause_free (s : State) (vec bit : Nat) : (s.cause vec bit).free = s.free := rfl
@[simp] theorem State.cause_pending (s : State) (vec bit : Nat) : (s.cause vec bit).pending = s.pending := rfl

/-! ## Reads through operations that write no register -/

theorem State.rd_congr {s t : State} (h : t.regs = s.regs) (a : Nat) : t.rd a = s.rd a := by simp [State.rd, h]

@[simp] theorem State.wrPath_rd (s : State) (p a : Nat) (v : Word) (b : Nat) : (s.wrPath p a v).rd b = s.rd b := rfl
@[simp] theorem State.wrPath_getF (s : State) (p a : Nat) (v : Word) (g : Fld) (k l : Nat) : (s.wrPath p a v).getF g k l = s.getF g k l := rfl
@[simp] theorem State.emit_rd (s : State) (kd : OutKind) (as : List Nat) (b : Nat) : (s.emit kd as).rd b = s.rd b := rfl
@[simp] theorem State.emit_getF (s : State) (kd : OutKind) (as : List Nat) (g : Fld) (k l : Nat) : (s.emit kd as).getF g k l = s.getF g k l := rfl
@[simp] theorem State.event_rd (s : State) (c o : Nat) (d : List Nat) (b : Nat) : (s.event c o d).rd b = s.rd b := rfl
@[simp] theorem State.event_getF (s : State) (c o : Nat) (d : List Nat) (g : Fld) (k l : Nat) : (s.event c o d).getF g k l = s.getF g k l := rfl
@[simp] theorem State.memWrite_rd (s : State) (a : Nat) (bs : List Byte) (b : Nat) : (s.memWrite a bs).rd b = s.rd b := rfl
@[simp] theorem State.memWrite_getF (s : State) (a : Nat) (bs : List Byte) (g : Fld) (k l : Nat) : (s.memWrite a bs).getF g k l = s.getF g k l := rfl
@[simp] theorem State.memWipe_rd (s : State) (a n : Nat) (b : Nat) : (s.memWipe a n).rd b = s.rd b := rfl
@[simp] theorem State.memWipe_getF (s : State) (a n : Nat) (g : Fld) (k l : Nat) : (s.memWipe a n).getF g k l = s.getF g k l := rfl
@[simp] theorem State.useFree_rd (s : State) (b : Nat) : (s.useFree).rd b = s.rd b := rfl
@[simp] theorem State.useFree_getF (s : State) (g : Fld) (k l : Nat) : (s.useFree).getF g k l = s.getF g k l := rfl
@[simp] theorem State.wr_memBytes (s : State) (a : Nat) (v : Word) (b n : Nat) : (s.wr a v).memBytes b n = s.memBytes b n := rfl
@[simp] theorem State.setF_memBytes (s : State) (f : Fld) (v i j : Nat) (b n : Nat) : (s.setF f v i j).memBytes b n = s.memBytes b n := rfl
@[simp] theorem State.wrPath_memBytes (s : State) (p a : Nat) (v : Word) (b n : Nat) : (s.wrPath p a v).memBytes b n = s.memBytes b n := rfl
@[simp] theorem State.emit_memBytes (s : State) (kd : OutKind) (as : List Nat) (b n : Nat) : (s.emit kd as).memBytes b n = s.memBytes b n := rfl
@[simp] theorem State.event_memBytes (s : State) (c o : Nat) (d : List Nat) (b n : Nat) : (s.event c o d).memBytes b n = s.memBytes b n := rfl
@[simp] theorem State.useFree_memBytes (s : State) (b n : Nat) : (s.useFree).memBytes b n = s.memBytes b n := rfl
@[simp] theorem State.cause_memBytes (s : State) (vec bit : Nat) (b n : Nat) : (s.cause vec bit).memBytes b n = s.memBytes b n := rfl
@[simp] theorem State.wrPath_canonical (s : State) (p a : Nat) (v : Word) : (s.wrPath p a v).canonical = s.canonical := rfl
@[simp] theorem State.emit_canonical (s : State) (kd : OutKind) (as : List Nat) : (s.emit kd as).canonical = s.canonical := rfl
@[simp] theorem State.event_canonical (s : State) (c o : Nat) (d : List Nat) : (s.event c o d).canonical = s.canonical := rfl
@[simp] theorem State.useFree_canonical (s : State) : (s.useFree).canonical = s.canonical := rfl

end Sys2Proof.Machine
end

