-- ==== Sys2Proof/WellFormed.lean ====
section
/-!
DEFINITION. Well-formed commands: every operand that numbers a unit of the block names one that exists (00_scope R1, and the rule of each
kind of unit): access paths, tiles, lanes, converters, contacts, cores, partitions, rings, contexts, registers of BAR0. Times, measured
values and messages are free.
-/

namespace Sys2Proof

/-- Whether every unit that a command names exists. -/
def Instr.wf : Instr → Bool
  | .registerWrite path addr size value _ => decide (path < 5) && decide (addr < 67108864) && (size = 1 || size = 2 || size = 4) && decide (value < 4294967296)
  | .pairLowRead path addr size => decide (path < 5) && decide (addr < 67108864) && (size = 1 || size = 2 || size = 4)
  | .pairLowWrite path addr value _ => decide (path < 5) && decide (addr < 67108864) && decide (value < 4294967296)
  | .pairHighWrite path addr value _ => decide (path < 5) && decide (addr < 67108864) && decide (value < 4294967296)
  | .stoppedDomainAccessComplete path _ _ => decide (path < 5)
  | .frameBoundary _ _ _ => true
  | .forecastBoundary _ => true
  | .grantBoundary _ _ => true
  | .sweepBoundary _ => true
  | .startupImageLoad _ => true
  | .cfgStage path => decide (path < 5)
  | .cfgStageComplete => true
  | .twinLayerStaged => true
  | .cfgCommit path _ => decide (path < 5)
  | .planeWriteComplete _ region _ _ => decide (region < 20)
  | .layerSwitch _ => true
  | .cfgAbort path => decide (path < 5)
  | .cfgRevert path _ => decide (path < 5)
  | .cfgClear path => decide (path < 5)
  | .cfgProgramSlot path slot => decide (path < 5) && decide (slot < 2)
  | .programSlotComplete => true
  | .ownClaim path owner resource => decide (path < 5) && decide (owner < 256) && decide (resource < 512)
  | .ownRelease path owner resource => decide (path < 5) && decide (owner < 256) && decide (resource < 512)
  | .stuck channel => decide (channel < 32)
  | .stuckClear channel => decide (channel < 32)
  | .clkLoss group => decide (group < 8)
  | .clkLossClear group => decide (group < 8)
  | .filterTrigger tile _ _ _ _ _ => decide (tile < 48)
  | .limitComparator tile _ => decide (tile < 48)
  | .adTrigger channel _ => decide (channel < 8)
  | .adConversionDone channel _ _ => decide (channel < 8)
  | .ccBlock channel _ _ => decide (channel < 2)
  | .ccAccRead path channel => decide (path < 5) && decide (channel < 2)
  | .packSampleInstant => true
  | .notchOpen => true
  | .notchClose => true
  | .loopTileSample tile _ _ _ _ => decide (tile < 96)
  | .deadlineMiss tile _ _ _ => decide (tile < 96)
  | .faultShutdown tile _ => decide (tile < 96)
  | .resTestArm tile => decide (tile < 96)
  | .logicTileTransition tile _ _ => decide (tile < 32)
  | .logicDwellReached tile _ => decide (tile < 32)
  | .timerStart path timer _ => decide (path < 5) && decide (timer < 16)
  | .timerStop path timer => decide (path < 5) && decide (timer < 16)
  | .timerExpire timer _ => decide (timer < 16)
  | .pwmPeriodStart lane _ _ => decide (lane < 48)
  | .shedRequest converter target _ => decide (converter < 4) && decide (target < 7)
  | .shedCommit converter _ => decide (converter < 4)
  | .readdCommit converter _ => decide (converter < 4)
  | .stepSignal converter _ => decide (converter < 4)
  | .faultInput input _ _ => decide (input < 16)
  | .groupSwtrip group _ => decide (group < 8)
  | .groupRelease group => decide (group < 8)
  | .contactorOpen group _ => decide (group < 8)
  | .contactorClose path drive => decide (path < 5) && decide (drive < 4)
  | .localTarget => true
  | .feedBad => true
  | .feedRecovered => true
  | .laneAbsent lane => decide (lane < 64)
  | .laneStepScore lane _ _ => decide (lane < 64)
  | .reserveExit => true
  | .wbHold => true
  | .wbRelease => true
  | .clearMax => true
  | .restoreLane lane => decide (lane < 64)
  | .scalarInstruction core _ _ _ => decide (core < 256)
  | .ecall core => decide (core < 256)
  | .ebreak core => decide (core < 256)
  | .coreFault partition _ => decide (partition < 16)
  | .thSend core _ _ => decide (core < 256)
  | .thSendnb core _ => decide (core < 256)
  | .thRecv core _ => decide (core < 256)
  | .thPeek core => decide (core < 256)
  | .thWait core _ => decide (core < 256)
  | .thRelease core => decide (core < 256)
  | .thCredits core => decide (core < 256)
  | .thBarrier core _ => decide (core < 256)
  | .barrierTimeout core _ => decide (core < 256)
  | .messageArrive core channel => decide (core < 256) && decide (channel < 32)
  | .creditArrive core endpoint => decide (core < 256) && decide (endpoint < 32)
  | .waitTimeout core _ => decide (core < 256)
  | .thDma core _ => decide (core < 256)
  | .dmaComplete core tag _ => decide (core < 256) && decide (tag < 16)
  | .thDmawait core _ => decide (core < 256)
  | .thDmapoll core => decide (core < 256)
  | .thPub core _ _ => decide (core < 256)
  | .thSlotsel core => decide (core < 256)
  | .thTzero core => decide (core < 256)
  | .thTld core _ => decide (core < 256)
  | .thTst core => decide (core < 256)
  | .thTmma core _ => decide (core < 256)
  | .thTmmaT core _ => decide (core < 256)
  | .thCvtE4m3F32 core _ => decide (core < 256)
  | .thCvtE5m2F32 core _ => decide (core < 256)
  | .thCvtBf16F32 core _ => decide (core < 256)
  | .thCvtI8F32 core _ => decide (core < 256)
  | .thCvtQ12bF32 core _ => decide (core < 256)
  | .thCvtF32E4m3 core _ => decide (core < 256)
  | .thCvtF32E5m2 core _ => decide (core < 256)
  | .thCvtF32Bf16 core _ => decide (core < 256)
  | .thCvtF32I8 core _ => decide (core < 256)
  | .thCvtF32Q12b core _ => decide (core < 256)
  | .partLoad partition => decide (partition < 16)
  | .partLoadComplete partition => decide (partition < 16)
  | .partStart partition => decide (partition < 16)
  | .partStop partition => decide (partition < 16)
  | .partStopComplete partition => decide (partition < 16)
  | .partUnload partition => decide (partition < 16)
  | .partClear partition => decide (partition < 16)
  | .partAutoRestart partition _ => decide (partition < 16)
  | .partResume => true
  | .lmWindowAccess path die _ _ value => decide (path < 5) && decide (die < 2) && decide (value < 4294967296)
  | .dieOppRequest path d opp _ => decide (path < 5) && decide (d < 2) && decide (opp < 4)
  | .dvfsStepComplete d _ => decide (d < 2)
  | .dieOverThrottle d _ _ => decide (d < 2)
  | .dieThrottleRestore d _ _ => decide (d < 2)
  | .overtemp d _ => decide (d < 2)
  | .hubOverheatReset _ _ => true
  | .ctxAlloc path kind _ => decide (path < 5) && decide (kind < 4)
  | .ctxFree path index => decide (path < 5) && decide (index < 16384)
  | .ctxPin path index => decide (path < 5) && decide (index < 16384)
  | .ctxUnpin path index => decide (path < 5) && decide (index < 16384)
  | .ctxRebuild path index => decide (path < 5) && decide (index < 16384)
  | .ctxLookup path kind => decide (path < 5) && decide (kind < 4)
  | .contextWipeComplete index _ => decide (index < 16384)
  | .captureEnable path ring value => decide (path < 5) && decide (ring < 64) && decide (value < 4294967296)
  | .captureBlockWrite ring _ => decide (ring < 64)
  | .captureTrigger ring => decide (ring < 64)
  | .capturePostDone ring => decide (ring < 64)
  | .scrubStep _ => true
  | .stackWipeComplete _ => true
  | .bar2Read _ _ _ => true
  | .bar2Write _ _ => true
  | .hintReceive port _ _ _ => decide (port < 2)
  | .telemReceive port _ _ _ => decide (port < 2)
  | .activityReceive port _ _ _ => decide (port < 2)
  | .grantReceive port _ _ => decide (port < 2)
  | .discoverReceive port _ _ => decide (port < 2)
  | .announceReceive port _ _ => decide (port < 2)
  | .announceSend _ => true
  | .partnerListen _ => true
  | .admitPoint _ => true
  | .partnerSilent entry _ => decide (entry < 512)
  | .partnerLeft entry _ => decide (entry < 512)
  | .hntDiscover => true
  | .clearDrops => true
  | .forget entry => decide (entry < 512)
  | .ethLinkChange port _ _ => decide (port < 2)
  | .ptpSyncReceive port _ _ _ _ _ => decide (port < 2)
  | .ptpSyncLoss _ => true
  | .holdoverExpire _ => true
  | .hallBoundary _ => true
  | .loanExpiry => true
  | .loanGuardExpiry => true
  | .limitClearElapsed slot => decide (slot < 64)
  | .jobTableTimeout slot => decide (slot < 64)
  | .modelDrift => true
  | .grantCommitTimeout _ => true
  | .contractSet _ => true
  | .clearDrift => true
  | .appendReceive port _ _ => decide (port < 2)
  | .appendAckReceive port _ _ => decide (port < 2)
  | .voteReqReceive port _ _ => decide (port < 2)
  | .voteReceive port _ _ => decide (port < 2)
  | .syncReqReceive port _ _ => decide (port < 2)
  | .syncAnsReceive port _ _ => decide (port < 2)
  | .syncDone path => decide (path < 5)
  | .syncTimeout path _ => decide (path < 5)
  | .joinReceive port _ _ => decide (port < 2)
  | .joinAnsReceive port _ _ => decide (port < 2)
  | .joinRetry group _ => decide (group < 2)
  | .groupForm group _ => decide (group < 2)
  | .groupReform _ => true
  | .heartbeatSend group _ => decide (group < 2)
  | .electionTimeout group _ => decide (group < 2)
  | .leaseEnd group _ => decide (group < 2)
  | .stateReceive port _ _ => decide (port < 2)
  | .proposeReceive port _ _ => decide (port < 2)
  | .proposeAnsReceive port _ _ => decide (port < 2)
  | .claimReceive port _ _ => decide (port < 2)
  | .arbiterWindowEnd shelf _ => decide (shelf < 65536)
  | .deputyDecideTimeout shelf _ => decide (shelf < 65536)
  | .decideReceive port _ _ => decide (port < 2)
  | .syncRack path _ => decide (path < 5)
  | .syncHall path _ => decide (path < 5)
  | .stepDown _ => true
  | .snapArm => true
  | .snapDisarm => true
  | .snapCapture _ => true
  | .snapComplete => true
  | .enumerate _ => true
  | .reenum _ => true
  | .pklSleep => true
  | .pklWake _ => true
  | .balStop => true
  | .pklClear => true
  | .enumAnsReceive radio _ _ => decide (radio < 2)
  | .enumStepTimeout _ => true
  | .enumOpenSlotsEnd _ => true
  | .reportReceive radio _ => decide (radio < 2)
  | .primaryPassEnd _ => true
  | .sweepClose _ => true
  | .balAckReceive _ => true
  | .discoveryGap _ => true
  | .alarmReceive _ _ => true
  | .authRespReceive _ _ => true
  | .authTimeout _ => true
  | .authPeriodElapsed => true
  | .estRestore _ => true
  | .restoreApply _ => true
  | .estWalk string => decide (string < 2)
  | .walkBegin string => decide (string < 2)
  | .walkAbort string => decide (string < 2)
  | .walkMaxElapsed string => decide (string < 2)
  | .estLearn string => decide (string < 2)
  | .learnAbort string => decide (string < 2)
  | .learnTimeoutElapsed string => decide (string < 2)
  | .drift string => decide (string < 2)
  | .estAuth => true
  | .estRecRead path => decide (path < 5)
  | .estShip => true
  | .shipQuiet _ => true
  | .shipRecord => true
  | .shipRecordWaitEnd => true
  | .shipChgWaitEnd _ _ => true
  | .shipPowerEntry _ => true
  | .shipAbort _ => true
  | .chgDetectWake _ _ _ => true
  | .stateRecordReceive _ _ => true
  | .beatSend _ => true
  | .beatReceive path _ _ => decide (path < 2)
  | .beatMiss path _ => decide (path < 2)
  | .takeoverPreRun => true
  | .lockRequest _ => true
  | .twinClaimSensed _ _ => true
  | .lockAcquire _ _ => true
  | .keeperExpiry _ => true
  | .lockBlocked _ => true
  | .lockWaitElapsed _ => true
  | .slotExchange _ _ => true
  | .twnAdmit _ => true
  | .resyncComplete _ _ _ _ _ _ _ => true
  | .twnSwitch => true
  | .twnQuarantine => true
  | .twnClear => true
  | .powerOnReset _ _ _ _ _ _ => true
  | .resetPin _ _ _ => true
  | .pciePerst _ => true
  | .watchdog _ => true
  | .startupStepComplete step _ _ => decide (step < 7)
  | .startupStepTimeout step _ _ => decide (step < 7)
  | .clkSwitch => true
  | .auxLost input _ _ => decide (input < 2)
  | .auxReturn input _ => decide (input < 2)
  | .holdupStart _ => true
  | .holdupEnd _ _ => true
  | .pwrHold => true
  | .pwrRun _ => true
  | .pwrKeep _ => true
  | .warmReset confirm _ => decide (confirm < 256)
  | .coldReset confirm _ => decide (confirm < 256)
  | .keepTimerWake _ => true
  | .keepCurrentWake _ _ => true
  | .logRecordArrive _ _ => true
  | .repeatWindowEnd _ _ _ => true
  | .logPageProgrammed _ => true
  | .logBlockErased _ => true
  | .logRecover _ => true
  | .logFreeze _ => true
  | .logUnfreeze _ => true
  | .freezeMaxElapsed _ => true
  | .dump => true
  | .dumpComplete => true
  | .clearCounts => true
  | .logRdLatch path _ => decide (path < 5)
  | .lcChallenge _ => true
  | .nonceLapse _ => true
  | .lcChange _ => true
  | .lcChangeStepComplete _ => true
  | .lcLock => true
  | .debugUnlock _ => true
  | .raiseMin _ => true
  | .enrol => true
  | .revoke => true
  | .loadSlot => true
  | .clearSlot => true
  | .jtagInstruction _ => true
  | .irqAck mask _ => decide (mask < 32768)
  | .msixSend v _ => decide (v < 17)
  | .msixUnmask v _ _ => decide (v < 17)
  | .irqHoldoffEnd v _ => decide (v < 17)
  | .mgmtRead _ _ => true
  | .mgmtWrite _ _ => true
  | .smbusBlockRead cmd _ => decide (cmd < 256)
  | .smbusAlertResponse => true
  | .faultInputRelease input => decide (input < 16)
  | .twinLaneChange _ => true
  | .netBack _ => true
  | .ptpAnnounceReceive port _ _ => decide (port < 2)
  | .healthReportReceive _ _ => true
  | .recoveryImageReceive slot _ => decide (slot < 3)
  | .lockstep => true
  | .clockOutOfRange => true
  | .railOutOfRange => true
  | .stackOverheat _ => true
  | .pcieLinkStateChange link => decide (link < 3)
  | .pciePowerStateWrite _ => true
  | .icmpv6Receive port _ => decide (port < 3)

end Sys2Proof
end

