-- ==== Sys2Proof/Tests/Slice0.lean ====
section
/-!
SUPPORT. Tests: ill-formed commands are refused, the spec's worked examples come out as printed, and every clause of the statements of
Certificates/Slice0/Obligations.lean that has hypotheses has a state and operands that meet them: test_meets_<statement>, its conjuncts in
the order of those clauses, further ones at other values.
-/

open Sys2Proof Sys2Proof.Machine

section

set_option linter.unusedVariables false
set_option maxRecDepth 100000
set_option Elab.async false

/-! ## Ill-formed commands: each operand that numbers a unit, one beyond the last -/

theorem test_ill_formed_refused_1 : ([
    .registerWrite 5 0 4 0 0, .registerWrite 0 67108864 4 0 0, .registerWrite 0 0 4 4294967296 0, .registerWrite 0 0 3 0 0,
    .pairLowRead 5 0 4, .pairLowRead 0 67108864 4, .pairLowRead 0 0 3, .pairLowWrite 5 0 0 0,
    .pairLowWrite 0 67108864 0 0, .pairLowWrite 0 0 4294967296 0, .pairHighWrite 5 0 0 0, .pairHighWrite 0 67108864 0 0,
    .pairHighWrite 0 0 4294967296 0, .stoppedDomainAccessComplete 5 [] 0, .cfgStage 5, .cfgCommit 5 0,
    .planeWriteComplete false 20 false 0, .cfgAbort 5, .cfgRevert 5 0, .cfgClear 5,
    .cfgProgramSlot 5 0, .cfgProgramSlot 0 2, .ownClaim 5 0 0, .ownClaim 0 256 0] : List Instr).all (fun c => !c.wf) = true := by decide +kernel

theorem test_ill_formed_refused_2 : ([
    .ownClaim 0 0 512, .ownRelease 5 0 0, .ownRelease 0 256 0, .ownRelease 0 0 512,
    .stuck 32, .stuckClear 32, .clkLoss 8, .clkLossClear 8,
    .filterTrigger 48 0 [] 0 0 false, .limitComparator 48 0, .adTrigger 8 0, .adConversionDone 8 0 false,
    .ccBlock 2 0 0, .ccAccRead 5 0, .ccAccRead 0 2, .loopTileSample 96 0 0 0 0,
    .deadlineMiss 96 0 0 0, .faultShutdown 96 0, .resTestArm 96, .logicTileTransition 32 0 0,
    .logicDwellReached 32 0, .timerStart 5 0 0, .timerStart 0 16 0, .timerStop 5 0] : List Instr).all (fun c => !c.wf) = true := by decide +kernel

theorem test_ill_formed_refused_3 : ([
    .timerStop 0 16, .timerExpire 16 0, .pwmPeriodStart 48 0 0, .shedRequest 4 0 0,
    .shedRequest 0 7 0, .shedCommit 4 0, .readdCommit 4 0, .stepSignal 4 0,
    .faultInput 16 0 0, .groupSwtrip 8 0, .groupRelease 8, .contactorOpen 8 0,
    .contactorClose 5 0, .contactorClose 0 4, .laneAbsent 64, .laneStepScore 64 0 0,
    .restoreLane 64, .scalarInstruction 256 0 0 none, .ecall 256, .ebreak 256,
    .coreFault 16 0, .thSend 256 0 none, .thSendnb 256 none, .thRecv 256 0] : List Instr).all (fun c => !c.wf) = true := by decide +kernel

theorem test_ill_formed_refused_4 : ([
    .thPeek 256, .thWait 256 0, .thRelease 256, .thCredits 256,
    .thBarrier 256 0, .barrierTimeout 256 0, .messageArrive 256 0, .messageArrive 0 32,
    .creditArrive 256 0, .creditArrive 0 32, .waitTimeout 256 0, .thDma 256 none,
    .dmaComplete 256 0 [], .dmaComplete 0 16 [], .thDmawait 256 0, .thDmapoll 256,
    .thPub 256 0 none, .thSlotsel 256, .thTzero 256, .thTld 256 none,
    .thTst 256, .thTmma 256 none, .thTmmaT 256 none, .thCvtE4m3F32 256 none] : List Instr).all (fun c => !c.wf) = true := by decide +kernel

theorem test_ill_formed_refused_5 : ([
    .thCvtE5m2F32 256 none, .thCvtBf16F32 256 none, .thCvtI8F32 256 none, .thCvtQ12bF32 256 none,
    .thCvtF32E4m3 256 none, .thCvtF32E5m2 256 none, .thCvtF32Bf16 256 none, .thCvtF32I8 256 none,
    .thCvtF32Q12b 256 none, .partLoad 16, .partLoadComplete 16, .partStart 16,
    .partStop 16, .partStopComplete 16, .partUnload 16, .partClear 16,
    .partAutoRestart 16 0, .lmWindowAccess 5 0 0 false 0, .lmWindowAccess 0 2 0 false 0, .lmWindowAccess 0 0 0 false 4294967296,
    .dieOppRequest 5 0 0 0, .dieOppRequest 0 2 0 0, .dieOppRequest 0 0 4 0, .dvfsStepComplete 2 0] : List Instr).all (fun c => !c.wf) = true := by decide +kernel

theorem test_ill_formed_refused_6 : ([
    .dieOverThrottle 2 0 0, .dieThrottleRestore 2 0 0, .overtemp 2 0, .ctxAlloc 5 0 0,
    .ctxAlloc 0 4 0, .ctxFree 5 0, .ctxFree 0 16384, .ctxPin 5 0,
    .ctxPin 0 16384, .ctxUnpin 5 0, .ctxUnpin 0 16384, .ctxRebuild 5 0,
    .ctxRebuild 0 16384, .ctxLookup 5 0, .ctxLookup 0 4, .contextWipeComplete 16384 0,
    .captureEnable 5 0 0, .captureEnable 0 64 0, .captureEnable 0 0 4294967296, .captureBlockWrite 64 0,
    .captureTrigger 64, .capturePostDone 64, .hintReceive 2 0 0 [], .telemReceive 2 0 0 []] : List Instr).all (fun c => !c.wf) = true := by decide +kernel

theorem test_ill_formed_refused_7 : ([
    .activityReceive 2 0 0 [], .grantReceive 2 0 [], .discoverReceive 2 0 [], .announceReceive 2 0 [],
    .partnerSilent 512 0, .partnerLeft 512 0, .forget 512, .ethLinkChange 2 false 0,
    .ptpSyncReceive 2 0 0 0 0 none, .limitClearElapsed 64, .jobTableTimeout 64, .appendReceive 2 0 [],
    .appendAckReceive 2 0 [], .voteReqReceive 2 0 [], .voteReceive 2 0 [], .syncReqReceive 2 0 [],
    .syncAnsReceive 2 0 [], .syncDone 5, .syncTimeout 5 0, .joinReceive 2 0 [],
    .joinAnsReceive 2 0 [], .joinRetry 2 0, .groupForm 2 0, .heartbeatSend 2 0] : List Instr).all (fun c => !c.wf) = true := by decide +kernel

theorem test_ill_formed_refused_8 : ([
    .electionTimeout 2 0, .leaseEnd 2 0, .stateReceive 2 0 [], .proposeReceive 2 0 [],
    .proposeAnsReceive 2 0 [], .claimReceive 2 0 [], .arbiterWindowEnd 65536 0, .deputyDecideTimeout 65536 0,
    .decideReceive 2 0 [], .syncRack 5 0, .syncHall 5 0, .enumAnsReceive 2 0 [],
    .reportReceive 2 [], .estWalk 2, .walkBegin 2, .walkAbort 2,
    .walkMaxElapsed 2, .estLearn 2, .learnAbort 2, .learnTimeoutElapsed 2,
    .drift 2, .estRecRead 5, .beatReceive 2 0 [], .beatMiss 2 0] : List Instr).all (fun c => !c.wf) = true := by decide +kernel

theorem test_ill_formed_refused_9 : ([
    .startupStepComplete 7 0 0, .startupStepTimeout 7 false 0, .auxLost 2 0 0, .auxReturn 2 0,
    .warmReset 256 0, .coldReset 256 0, .logRdLatch 5 0, .irqAck 32768 0,
    .msixSend 17 0, .msixUnmask 17 false 0, .irqHoldoffEnd 17 0, .smbusBlockRead 256 false,
    .faultInputRelease 16, .ptpAnnounceReceive 2 0 ⟨0, 0, 0, 0, 0, 0, 0, 0, 0, 0⟩, .recoveryImageReceive 3 [], .pcieLinkStateChange 3,
    .icmpv6Receive 3 []] : List Instr).all (fun c => !c.wf) = true := by decide +kernel

/-! ## Worked examples of the spec -/

/-- 08, the worked example of R189: 42.3 A and -223.4 A give EXP 135 and the bytes 0x52, 0x51, 0x90. -/
theorem test_q12b_example :
    (q12Block ((fmtS.val 0x42293333, none) :: (fmtS.val 0xC35F6666, none) :: List.replicate 30 (.zero false, none))).1.take 7 =
      [135#8, 0#8, 0#8, 0#8, 0x52#8, 0x51#8, 0x90#8] := by decide +kernel

/-- 08, the worked example of R190: 0.3 narrows to E4M3 0x2A to nearest, and stochastically from r = 26,215 up. -/
theorem test_e4m3_stochastic_example :
    (toE4m3.run 0 none 0x3E99999A).1 = 0x2A ∧ (toE4m3.run 0 (some 26215) 0x3E99999A).1 = 0x2A ∧
      (toE4m3.run 0 (some 26214) 0x3E99999A).1 = 0x29 := by decide +kernel

/-- 13 R295: the nine ASCII bytes "123456789" give CRC-16 0x29B1. -/
theorem test_crc16_check_value : crc16 ((List.range 9).map fun k => BitVec.ofNat 8 (0x31 + k)) = 0x29B1 := by decide +kernel

/-- 15: the nine ASCII bytes "123456789" give CRC-8 0xF4. -/
theorem test_crc8_check_value : crc8 ((List.range 9).map fun k => BitVec.ofNat 8 (0x31 + k)) = 0xF4 := by decide +kernel

/-- 13: with GUARD 500 µs a chain of 16 nodes split at 8 gives LEAD_MIN 161. -/
theorem test_lead_min_example :
    (((State.reset.setF Reg.PKL_CFG_NODES 16).setF Reg.PKL_EFF_EFF_SPLIT 8).setF Reg.PKL_SWEEP_CFG_BLEED_GUARD 500).leadMin = 161 := by
  decide +kernel

/-- 03, the worked example of CC0: 657,390 units give 10.000 mV, 655,360, with a factory gain 0x4014_7AE1, UGAIN 0x3FBE_B9A0 and offsets
of +350 and -120. -/
theorem test_cc0_calibration_example : (calibrate 0x40147AE1 0x3FBEB9A0 350 (-120) false 657390).1 = 655360 := by decide +kernel

/-- 17, the worked example of R410: OP0 to OP3 moves the rail first, for 40 µs. -/
theorem test_dvfs_example :
    (match execDieOppRequest 1 0 3 0 (((State.reset.setRuns 23 true).setRuns 24 true).setF Reg.TWN_STATUS_STATE 1) with
      | .next t => decide (t.getF Reg.PWR_DVFS_STAT_STEP 0 = 2 ∧ Sparse.at 0 t.pwr.stepEnd 0 = 40000)
      | _ => false) = true := by decide +kernel

/-- 03 R52: order 3 and OSR 16 give a window of 46 clocks. -/
theorem test_sinc_window_example : sincWindow 3 16 = 46 := by decide +kernel

/-! ## The statements' hypotheses are met -/

/-- 09: a module whose contexts are all taken: context 9 by a STREAM, the others by the jobs of kind 3. -/
def fullModule : State :=
  (((({ State.reset with ctx := { State.reset.ctx with
    desc := (List.range 16384).map fun (n : Nat) => (n, ({ kind := if n = 9 then 1 else 3, key := n, lastTime := 1 } : Desc)) } }).setF
      Reg.CTX_STATUS_READY 1).setF Reg.CTX_KEY_LO 70000).setF Reg.CTX_EVICT_CFG_IDLE_MIN 1)

theorem reads_range {α : Type} (d : Nat → α) (g : Nat → α) (n : Nat) :
    ∀ a k, a ≤ k → k < a + n → Sparse.get d ((List.range' a n).map fun i => (i, g i)) k = g k := by
  induction n with
  | zero => intro a k h1 h2; omega
  | succ n ih =>
    intro a k h1 h2
    rw [List.range'_succ, List.map_cons, Sparse.get]
    split
    · next h => rw [h]
    · next h =>
      split
      · omega
      · exact ih (a + 1) k (by omega) (by omega)

theorem fullModule_taken (c : Nat) (h : c < 16384) : (fullModule.desc c).kind ≠ kindFree := by
  have e : fullModule.desc c = { kind := if c = 9 then 1 else 3, key := c, lastTime := 1 } := by
    show Sparse.get _ ((List.range 16384).map fun (n : Nat) => (n, ({ kind := if n = 9 then 1 else 3, key := n, lastTime := 1 } : Desc))) c = _
    rw [List.range_eq_range']
    exact reads_range _ _ _ _ _ (by omega) (by omega)
  rw [e]
  split <;> simp [kindFree]

theorem fullModule_no_free (n : Nat) : ∀ c, c + n ≤ 16384 → fullModule.ctxFree n c = none := by
  induction n with
  | zero => intro c _; rfl
  | succ n ih =>
    intro c h
    rw [State.ctxFree, if_neg (by simp [fullModule_taken c (by omega)])]
    exact ih (c + 1) (by omega)

theorem fullModule_ready : fullModule.isF Reg.CTX_STATUS_READY = true := by decide +kernel
theorem fullModule_absent : fullModule.ctxFind (3 % 4) (fullModule.get64 Reg.CTX_KEY_LO) = none := by decide +kernel
theorem fullModule_waits : fullModule.ctxWaits (3 % 4) (fullModule.get64 Reg.CTX_KEY_LO) = none := by decide +kernel

theorem test_meets_StepRunsTheFrontCommand_2 : State.reset.pending = [] := rfl

theorem test_meets_StepsKeepTheCanonicalForm :
    (fun (s : State) => s.inv = true ∧ ∃ t, step s = .next t) { State.reset with pending := [.hntDiscover] } := ⟨by decide +kernel, _, rfl⟩

theorem test_meets_FusesOnlyEverBlow :
    (fun (s : State) => (∃ t, step s = .next t) ∧ s.sec.retired = true ∧ Sparse.at 0 s.sec.fused 3 ≠ 0 ∧ bitOf (Sparse.at 0 s.sec.fused 3) 30 = true)
      { State.reset with pending := [.hntDiscover], sec := { State.reset.sec with retired := true, fused := [(3, 0xC00000FF)] } } :=
    ⟨⟨_, rfl⟩, by decide +kernel⟩

theorem test_meets_ContextCommands_6 :
    (fun (s : State) (path kind now c : Nat) (g : State) => (s.isF Reg.CTX_STATUS_READY = true) ∧ (kind % 4 ≠ 0) ∧ (s.ctxFind (kind % 4) (s.get64 Reg.CTX_KEY_LO) = none) ∧ (s.ctxWaits (kind % 4) (s.get64 Reg.CTX_KEY_LO) = none) ∧ (s.ctxFree 16384 0 = none) ∧ (s.evictee now [] = some c) ∧ (g = s.giveUp c)) fullModule 0 3 500000000000 9 (fullModule.giveUp 9) :=
  ⟨fullModule_ready, by decide, fullModule_absent, fullModule_waits, fullModule_no_free 16384 0 (by omega), by decide +kernel, rfl⟩

theorem test_meets_ContextCommands_7 :
    (fun (s : State) (path kind now : Nat) => (s.canonical = true) ∧ (s.isF Reg.CTX_STATUS_READY = true) ∧ (kind % 4 ≠ 0) ∧ (s.ctxFind (kind % 4) (s.get64 Reg.CTX_KEY_LO) = none) ∧ (s.ctxWaits (kind % 4) (s.get64 Reg.CTX_KEY_LO) = none) ∧ (s.ctxFree 16384 0 = none) ∧ (s.evictee now [] = none)) fullModule 0 3 500 :=
  ⟨by decide +kernel, fullModule_ready, by decide, fullModule_absent, fullModule_waits, fullModule_no_free 16384 0 (by omega), by decide +kernel⟩

theorem test_meets_CfgStageChecksAbortsClearsAndPrograms :
    ((fun (s : State) (path : Nat) => (s.canonical = true) ∧ (s.cfgPathRefused path = false) ∧ (s.cfgBusy = false) ∧ ((s.cfg.running || s.cfg.noImage) = true) ∧ (leAt s.sourceImage 8 1 = 1)) (((({ State.reset with cfg := { State.reset.cfg with running := true } }).setF Reg.CFG_SRC_LEN 64).memWrite 8 [1#8])) 0) ∧
    ((fun (s : State) (path : Nat) => (s.canonical = true) ∧ (s.cfgPathRefused path = false) ∧ (s.cfgBusy = false) ∧ ((s.cfg.running || s.cfg.noImage) = true) ∧ (leAt s.sourceImage 8 1 = 2) ∧ (s.isF Reg.CFG_POLICY_LAYER_EN = true) ∧ (s.twn.admitted = true)) (((({ State.reset with cfg := { State.reset.cfg with running := true }, twn := { State.reset.twn with admitted := true } }).setF Reg.CFG_SRC_LEN 64).memWrite 8 [2#8])) 0) ∧
    ((fun (s : State) => (s.canonical = true) ∧ (s.cfgSt = cfgChecking)) ((State.reset.setF Reg.CFG_STATUS_STATE 2))) ∧
    ((fun (s : State) => (s.canonical = true) ∧ (s.twn.admitted = true) ∧ (s.cfgSt = cfgChecking ∨ s.cfgSt = cfgStaged)) (({ (State.reset.setF Reg.CFG_STATUS_STATE 3) with twn := { State.reset.twn with admitted := true } }))) ∧
    ((fun (s : State) (path : Nat) => (s.canonical = true) ∧ (s.cfgPathRefused path = false) ∧ (s.cfgSt = cfgChecking ∨ s.cfgSt = cfgStaged) ∧ (s.cfg.noImage = false)) ((State.reset.setF Reg.CFG_STATUS_STATE 3)) 0) ∧
    ((fun (s : State) (path : Nat) => (s.canonical = true) ∧ (s.cfgPathRefused path = false) ∧ (s.cfgBusy = false) ∧ (s.cfg.noImage = false)) (((State.reset.setF Reg.CFG_STATUS_STATE 9).setF Reg.CFG_STATUS_ERROR 5)) 2) ∧
    ((fun (s : State) (path slot : Nat) => (s.canonical = true) ∧ (s.cfgPathRefused path = false) ∧ (s.isF Reg.CFG_POLICY_PROGRAM_EN = true) ∧ (s.cfgSt = cfgStaged) ∧ (s.holdsFull = true) ∧ (slot < 2) ∧ (s.cfg.running = false ∨ s.cfg.fromSlot = false ∨ s.getF Reg.CFG_STATUS_SLOT ≠ slot)) (({ (State.reset.setF Reg.CFG_STATUS_STATE 3) with cfg := { State.reset.cfg with held := some ⟨1, 7, 0, [], []⟩, running := true } })) 0 1) ∧
    ((fun (s : State) => (s.canonical = true) ∧ (s.cfgSt = cfgProgramming)) ((State.reset.setF Reg.CFG_STATUS_STATE 8))) := by
  repeat refine And.intro (by decide +kernel) ?_
  decide +kernel

theorem test_meets_PolicyRefusesLoaderCommands :
    ((fun (s : State) => (s.canonical = true) ∧ (s.isF Reg.CFG_POLICY_MGMT_EN = false)) (State.reset)) ∧
    ((fun (s : State) (now : Nat) => (s.canonical = true) ∧ (s.isF Reg.CFG_POLICY_MGMT_EN = false)) (State.reset) 9) ∧
    ((fun (s : State) => (s.canonical = true) ∧ (s.isF Reg.CFG_POLICY_MGMT_EN = false)) (State.reset)) ∧
    ((fun (s : State) (now : Nat) => (s.canonical = true) ∧ (s.isF Reg.CFG_POLICY_MGMT_EN = false)) (State.reset) 9) ∧
    ((fun (s : State) => (s.canonical = true) ∧ (s.isF Reg.CFG_POLICY_MGMT_EN = false)) (State.reset)) ∧
    ((fun (s : State) (slot : Nat) => (s.canonical = true) ∧ (s.isF Reg.CFG_POLICY_MGMT_EN = false)) (State.reset) 1) ∧
    ((fun (s : State) (path slot : Nat) => (s.canonical = true) ∧ (s.isF Reg.CFG_POLICY_PROGRAM_EN = false)) ((State.reset.setF Reg.CFG_POLICY_PROGRAM_EN 0)) 0 1) ∧
    ((fun (s : State) (path : Nat) => (s.canonical = true) ∧ (s.isF Reg.CFG_POLICY_LAYER_EN = false) ∧ (s.cfgBusy = false) ∧ ((s.cfg.running || s.cfg.noImage) = true) ∧ (leAt s.sourceImage 8 1 = 2)) ((((({ State.reset with cfg := { State.reset.cfg with running := true } }).setF Reg.CFG_SRC_LEN 64).memWrite 8 [2#8]).setF Reg.CFG_POLICY_LAYER_EN 0)) 0) := by
  repeat refine And.intro (by decide +kernel) ?_
  decide +kernel

theorem test_meets_CfgCommitOfALayer :
    ((fun (s : State) (path now : Nat) (i : CfgImage) => (s.canonical = true) ∧ (s.cfgPathRefused path = false) ∧ (s.cfgSt = cfgStaged) ∧ (s.cfg.held = some i) ∧ (i.kind = 2) ∧ (s.twn.admitted = true → s.isF Reg.CFG_STATUS_TWIN_STAGED = true) ∧ (claimClash s true (i.regions.map CfgRegion.region) [] (imageClaims i.regions) = none)) (({ (State.reset.setF Reg.CFG_STATUS_STATE 3) with cfg := { State.reset.cfg with held := some ⟨2, 7, 0, [], []⟩, running := true } })) 0 1000 ⟨2, 7, 0, [], []⟩) ∧
    ((fun (s : State) (region now : Nat) => (s.canonical = true) ∧ (s.cfgSt = cfgWriting) ∧ (s.twn.admitted = false) ∧ (s.get64 Reg.CFG_SWITCH_FRAME_LO = 0)) ((State.reset.setF Reg.CFG_STATUS_STATE 4)) 3 20000) ∧
    ((fun (s : State) (region now : Nat) => (s.canonical = true) ∧ (s.cfgSt = cfgWriting) ∧ (s.twn.admitted = true) ∧ (s.cfg.ownWritten = true) ∧ (s.get64 Reg.CFG_SWITCH_FRAME_LO ≠ 0) ∧ (max s.cfg.earliest (s.frameFrom now) ≤ s.get64 Reg.CFG_SWITCH_FRAME_LO)) (({ (State.reset.setF Reg.CFG_STATUS_STATE 4).set64 Reg.CFG_SWITCH_FRAME_LO 100 with cfg := { State.reset.cfg with ownWritten := true }, twn := { State.reset.twn with admitted := true } })) 3 20000) ∧
    ((fun (s : State) (twin : Bool) (region now : Nat) => (s.canonical = true) ∧ (s.cfgSt = cfgWriting)) ((State.reset.setF Reg.CFG_STATUS_STATE 4)) true 3 20000) := by
  repeat refine And.intro (by decide +kernel) ?_
  decide +kernel

theorem test_meets_CfgFullImageFromTheHost :
    ((fun (s : State) (path now : Nat) (i : CfgImage) => (s.canonical = true) ∧ (s.cfgPathRefused path = false) ∧ (s.cfgSt = cfgStaged) ∧ (s.cfg.held = some i) ∧ (i.kind = 1) ∧ (s.cfg.running = false)) (({ (State.reset.setF Reg.CFG_STATUS_STATE 3) with cfg := { State.reset.cfg with held := some ⟨1, 7, 0, [], []⟩, noImage := true } })) 0 1000 ⟨1, 7, 0, [], []⟩) ∧
    ((fun (s : State) (now : Nat) => (s.canonical = true) ∧ (s.getF Reg.PWR_STATUS_START_STEP = 5) ∧ (s.runs 1 = true) ∧ (s.runs 2 = true) ∧ (s.isF Reg.CLK_STATUS_ON_FAST = false) ∧ (s.startBlocked = false) ∧ (s.cfg.running = false) ∧ (s.cfg.noImage = false) ∧ (slotOrder s.cfg.slot0 s.cfg.slot1 = [0, 1])) (({ (((State.reset.setF Reg.PWR_STATUS_START_STEP 5).setRunsAll [1, 2] true).setF Reg.CLK_STATUS_ON_FAST 0) with cfg := { State.reset.cfg with slot0 := [0x41#8, 0x46#8, 0x51#8, 0x49#8, 2#8, 0#8, 0#8, 1#8] } })) 1000) ∧
    ((fun (s : State) (now : Nat) => (s.canonical = true) ∧ (s.getF Reg.PWR_STATUS_START_STEP = 5) ∧ (s.runs 1 = true) ∧ (s.runs 2 = true) ∧ (s.isF Reg.CLK_STATUS_ON_FAST = false) ∧ (s.startBlocked = false) ∧ (s.cfg.running = false) ∧ (s.cfg.noImage = false) ∧ (slotOrder s.cfg.slot0 s.cfg.slot1 = [1, 0])) (({ (((State.reset.setF Reg.PWR_STATUS_START_STEP 5).setRunsAll [1, 2] true).setF Reg.CLK_STATUS_ON_FAST 0) with cfg := { State.reset.cfg with slot1 := [0x41#8, 0x46#8, 0x51#8, 0x49#8, 2#8, 0#8, 0#8, 1#8] } })) 1000) := by
  repeat refine And.intro (by decide +kernel) ?_
  decide +kernel

theorem test_meets_RevertAndTheSwitchAtB :
    ((fun (s : State) (path now : Nat) => (s.canonical = true) ∧ (s.cfgPathRefused path = false) ∧ (s.cfgBusy = false) ∧ (s.cfg.canRevert = true)) ({ State.reset with cfg := { State.reset.cfg with canRevert := true } }) 0 123) ∧
    ((fun (s : State) (now b : Nat) (i : CfgImage) => (s.canonical = true) ∧ (s.cfgSt = cfgArmed) ∧ (s.cfg.boundary = some b) ∧ (b ≤ s.frame) ∧ (s.cfg.held = some i)) (({ (State.reset.setF Reg.CFG_STATUS_STATE 5) with frame := 100, cfg := { State.reset.cfg with held := some ⟨2, 7, 0, [], []⟩, boundary := some 90, running := true } })) 1000000 90 ⟨2, 7, 0, [], []⟩) ∧
    ((fun (s : State) (now b : Nat) => (s.canonical = true) ∧ (s.cfgSt = cfgReverting) ∧ (s.cfg.boundary = some b) ∧ (b ≤ s.frame)) (({ (State.reset.setF Reg.CFG_STATUS_STATE 7) with frame := 100, cfg := { State.reset.cfg with boundary := some 90, running := true } })) 1000000 90) := by
  repeat refine And.intro (by decide +kernel) ?_
  decide +kernel

theorem test_meets_OwnershipClaims :
    ((fun (s : State) (path owner resource : Nat) => (s.canonical = true) ∧ (owner = pathOwner path ∧ claimable resource = true) ∧ (s.getF Reg.CFG_OWN_OWNER resource = 0 ∧ s.isF Reg.CFG_OWN_RESERVED resource = false) ∧ (s.isF Reg.TWN_STATUS_LOCK = false)) (State.reset.setF Reg.CTX_CAP_CFG_EN 1 2) 0 0x40 0x182) ∧
    ((fun (s : State) (path owner resource : Nat) => (s.canonical = true) ∧ (owner = pathOwner path ∧ claimable resource = true) ∧ (s.getF Reg.CFG_OWN_OWNER resource = 0 ∧ s.isF Reg.CFG_OWN_RESERVED resource = false) ∧ (s.isF Reg.TWN_STATUS_LOCK = false)) (State.reset) 0 0x40 0x100) ∧
    ((fun (s : State) (path owner resource : Nat) => (s.canonical = true) ∧ (owner = pathOwner path ∧ claimable resource = true) ∧ (¬ (s.getF Reg.CFG_OWN_OWNER resource = 0 ∧ s.isF Reg.CFG_OWN_RESERVED resource = false))) ((State.reset.setF Reg.CFG_OWN_OWNER 0x10 0x100)) 0 0x40 0x100) ∧
    ((fun (s : State) (path owner resource : Nat) => (¬ (owner = pathOwner path ∧ claimable resource = true))) (State.reset) 0 0x41 0x100) ∧
    ((fun (s : State) (path owner resource : Nat) => (s.canonical = true) ∧ (owner = pathOwner path ∧ claimable resource = true) ∧ (s.getF Reg.CFG_OWN_OWNER resource = owner ∧ s.isF Reg.CFG_OWN_RESERVED resource = false) ∧ (s.isF Reg.TWN_STATUS_LOCK = true)) ((((State.reset.setF Reg.CFG_OWN_OWNER 0x40 0x172).setF Reg.LT_TMR_STAT_RUNNING 1 2).setF Reg.TWN_STATUS_LOCK 1)) 0 0x40 0x172) ∧
    ((fun (s : State) (path owner resource : Nat) => (s.canonical = true) ∧ (owner = pathOwner path ∧ claimable resource = true) ∧ (s.getF Reg.CFG_OWN_OWNER resource = owner ∧ s.isF Reg.CFG_OWN_RESERVED resource = false) ∧ (s.isF Reg.TWN_STATUS_LOCK = true)) (((State.reset.setF Reg.CFG_OWN_OWNER 0x40 0x100).setF Reg.TWN_STATUS_LOCK 1)) 0 0x40 0x100) ∧
    ((fun (s : State) (path owner resource : Nat) => (owner = pathOwner path ∧ claimable resource = true) ∧ (s.getF Reg.CFG_OWN_OWNER resource ≠ owner)) (State.reset) 0 0x40 0x100) := by
  repeat refine And.intro (by decide +kernel) ?_
  decide +kernel

theorem test_meets_DeltaSigmaFaultsAndSarConversions :
    ((fun (s : State) (channel : Nat) => (s.canonical = true) ∧ (s.dsWatched channel = true) ∧ (bitOf s.sns.stuck channel = false)) ((((State.reset.setF Reg.CFG_OWN_OWNER 0x10 325).setF Reg.SNS_CH_CFG_ENABLE 1 5).takeAllEff)) 5) ∧
    ((fun (s : State) (group : Nat) => (s.canonical = true) ∧ (group < 8) ∧ (s.groupFreqOk group = true) ∧ (s.ownClock group = false) ∧ (s.groupChannels group ≠ []) ∧ (s.isE Reg.SNS_GRP_CFG_MODE group = false)) (((State.reset.setF Reg.SNS_CH_CFG_ENABLE 1 5).takeAllEff)) 1) ∧
    ((fun (s : State) (group : Nat) => (s.canonical = true) ∧ (group < 8) ∧ (s.groupFreqOk group = true) ∧ (s.groupChannels group ≠ []) ∧ (s.isE Reg.SNS_GRP_CFG_MODE group = true)) (((((State.reset.setF Reg.SNS_CH_CFG_ENABLE 1 5).setF Reg.SNS_CH_CFG_ENABLE 1 6).setF Reg.SNS_GRP_CFG_MODE 1 1).takeAllEff)) 1) ∧
    ((fun (s : State) (group : Nat) => (s.canonical = true) ∧ (group < 8) ∧ (s.groupFreqOk group = true) ∧ (s.groupChannels group ≠ [])) (((State.reset.setF Reg.SNS_CH_CFG_ENABLE 1 5).takeAllEff)) 1) ∧
    ((fun (s : State) (channel at16 : Nat) => (s.canonical = true) ∧ (channel < 8) ∧ (s.channelOn (32 + channel) = true) ∧ (s.isEvent (s.adTrigger channel) at16 = true) ∧ ((s.sns.adLast.find channel).any (fun x => decide (at16 < x + 8000)) = false)) (({ (((((State.reset.setF Reg.CFG_OWN_OWNER 0x10 354).setF Reg.SNS_CH_CFG_ENABLE 1 34).setF Reg.SNS_CH_TRIG_SRC 1 34).takeAllEff)) with counting := true } : State)) 2 160000) ∧
    ((fun (s : State) (channel at16 : Nat) => (s.canonical = true) ∧ (channel < 8) ∧ (s.channelOn (32 + channel) = true) ∧ (s.isEvent (s.adTrigger channel) at16 = true) ∧ ((s.sns.adLast.find channel).any (fun x => decide (at16 < x + 8000)) = true)) (({ ((((State.reset.setF Reg.CFG_OWN_OWNER 0x10 354).setF Reg.SNS_CH_CFG_ENABLE 1 34).setF Reg.SNS_CH_TRIG_SRC 1 34).takeAllEff) with counting := true, sns := { State.reset.sns with adLast := [(2, 159000)] } })) 2 160000) ∧
    ((fun (s : State) (channel at16 : Nat) => (8 ≤ channel ∨ s.channelOn (32 + channel) = false ∨ s.isEvent (s.adTrigger channel) at16 = false)) (State.reset) 2 160000) ∧
    ((fun (s : State) (channel code : Nat) (stale : Bool) => (bitOf s.sns.adBusy channel = false)) (State.reset) 2 160000 true) ∧
    ((fun (s : State) (channel code : Nat) => (s.canonical = true) ∧ (channel < 8) ∧ (bitOf s.sns.adBusy channel = true)) (({ State.reset with sns := { State.reset.sns with adBusy := 4 } })) 2 1000) ∧
    ((fun (s : State) (channel code : Nat) => (s.canonical = true) ∧ (channel < 8) ∧ (bitOf s.sns.adBusy channel = true)) (({ State.reset.setF Reg.SNS_CH_FOFF 0x800000 34 with sns := { State.reset.sns with adBusy := 4 } })) 2 65535) ∧
    ((fun (s : State) (channel code : Nat) (v : Int) (f : Nat) => (s.canonical = true) ∧ (channel < 8) ∧ (bitOf s.sns.adBusy channel = true) ∧ (Sparse.at (0, 0) s.sns.adOut channel = (v, f))) (({ State.reset with sns := { State.reset.sns with adBusy := 4, adOut := [(2, (-7, 4))] } })) 2 1000 (-7) 4) ∧
    ((fun (s : State) (channel code : Nat) (v : Int) (f : Nat) => (s.canonical = true) ∧ (channel < 8) ∧ (bitOf s.sns.adBusy channel = true) ∧ (Sparse.at (0, 0) s.sns.adOut channel = (v, f))) (({ State.reset.setF Reg.SNS_CH_FOFF 0x800000 34 with sns := { State.reset.sns with adBusy := 4, adOut := [(2, (-7, 4))] } })) 2 65535 (-7) 4) := by
  repeat refine And.intro (by decide +kernel) ?_
  decide +kernel

theorem test_meets_FilterTileSamples :
    ((fun (s : State) (tile at16 edge span : Nat) (bits : List Bool) (stale : Bool) => (s.canonical = true) ∧ (s.ftKeeps tile at16 bits = true) ∧ (s.ftDueNow tile = true) ∧ (s.ftBad tile = false) ∧ (s.ftDs tile = true → stale = false)) (({ (((((((((State.reset.setF Reg.CFG_OWN_OWNER 0x10 325).setF Reg.SNS_FT_CFG_ENABLE 1 3).setF Reg.SNS_FT_CFG_INPUT 5 3).setF Reg.SNS_FT_CFG_ORDER 2 3).setF Reg.SNS_FT_CFG_OSR_M1 7 3).setF Reg.SNS_FT_TRIG_SRC 1 3).setF Reg.SNS_CH_CFG_ENABLE 1 5).takeAllEff)) with counting := true } : State)) 3 160000 0 0 ((List.range 30).map fun k => decide (k % 3 = 0)) false) ∧
    ((fun (s : State) (tile at16 edge span : Nat) (bits : List Bool) (stale : Bool) => (s.canonical = true) ∧ (s.ftKeeps tile at16 bits = true) ∧ (s.ftDueNow tile = true) ∧ (s.ftBad tile = false) ∧ (s.ftDs tile = true → stale = false)) (({ (((((((((((State.reset.setF Reg.CFG_OWN_OWNER 0x10 325).setF Reg.SNS_FT_CFG_ENABLE 1 3).setF Reg.SNS_FT_CFG_INPUT 5 3).setF Reg.SNS_FT_CFG_ORDER 2 3).setF Reg.SNS_FT_CFG_OSR_M1 7 3).setF Reg.SNS_FT_TRIG_SRC 1 3).setF Reg.SNS_CH_CFG_ENABLE 1 5).setF Reg.SNS_FT_CFG_FIR_EN 1 3).setF Reg.SNS_FT_CFG_FIR_TAPS 1 3).takeAllEff).setFt 3 { fir := [(3, 4)] }) with counting := true } : State)) 3 160000 0 0 ((List.range 30).map fun k => decide (k % 3 = 0)) false) ∧
    ((fun (s : State) (tile at16 edge span : Nat) (bits : List Bool) (stale : Bool) => (s.canonical = true) ∧ (s.ftKeeps tile at16 bits = true) ∧ (s.ftDueNow tile = true) ∧ (s.ftBad tile = false) ∧ (s.ftDs tile = true → stale = false)) (({ ((((((((((State.reset.setF Reg.CFG_OWN_OWNER 0x10 325).setF Reg.SNS_FT_CFG_ENABLE 1 3).setF Reg.SNS_FT_CFG_INPUT 5 3).setF Reg.SNS_FT_CFG_ORDER 2 3).setF Reg.SNS_FT_CFG_OSR_M1 7 3).setF Reg.SNS_FT_TRIG_SRC 1 3).setF Reg.SNS_CH_CFG_ENABLE 1 5).setF Reg.SNS_FT_CFG_INPUT 70 3).takeAllEff).setFt 3 { hist := List.replicate 22 (9, 1) }) with counting := true } : State)) 3 160000 0 0 [] true) ∧
    ((fun (s : State) (tile at16 edge span : Nat) (bits : List Bool) (stale : Bool) => (s.canonical = true) ∧ (s.ftKeeps tile at16 bits = true) ∧ (s.ftDueNow tile = true) ∧ (s.ftBad tile = true)) (({ (((((((((State.reset.setF Reg.CFG_OWN_OWNER 0x10 325).setF Reg.SNS_FT_CFG_ENABLE 1 3).setF Reg.SNS_FT_CFG_INPUT 5 3).setF Reg.SNS_FT_CFG_ORDER 2 3).setF Reg.SNS_FT_CFG_OSR_M1 7 3).setF Reg.SNS_FT_TRIG_SRC 1 3).setF Reg.SNS_CH_CFG_ENABLE 1 5).takeAllEff).setFt 3 { valid := some (77, 4) }) with counting := true, sns := { (((((((((State.reset.setF Reg.CFG_OWN_OWNER 0x10 325).setF Reg.SNS_FT_CFG_ENABLE 1 3).setF Reg.SNS_FT_CFG_INPUT 5 3).setF Reg.SNS_FT_CFG_ORDER 2 3).setF Reg.SNS_FT_CFG_OSR_M1 7 3).setF Reg.SNS_FT_TRIG_SRC 1 3).setF Reg.SNS_CH_CFG_ENABLE 1 5).takeAllEff).setFt 3 { valid := some (77, 4) }).sns with stuck := 32 } } : State)) 3 160000 0 0 ((List.range 30).map fun k => decide (k % 3 = 0)) true) ∧
    ((fun (s : State) (tile at16 edge span : Nat) (bits : List Bool) => (s.canonical = true) ∧ (s.ftKeeps tile at16 bits = true) ∧ (s.ftDueNow tile = true) ∧ (s.ftBad tile = false) ∧ (s.ftDs tile = true)) (({ (((((((((State.reset.setF Reg.CFG_OWN_OWNER 0x10 325).setF Reg.SNS_FT_CFG_ENABLE 1 3).setF Reg.SNS_FT_CFG_INPUT 5 3).setF Reg.SNS_FT_CFG_ORDER 2 3).setF Reg.SNS_FT_CFG_OSR_M1 7 3).setF Reg.SNS_FT_TRIG_SRC 1 3).setF Reg.SNS_CH_CFG_ENABLE 1 5).takeAllEff).setFt 3 { out := some (-5, 4) }) with counting := true } : State)) 3 160000 0 0 ((List.range 30).map fun k => decide (k % 3 = 0))) ∧
    ((fun (s : State) (tile at16 edge span : Nat) (bits : List Bool) (stale : Bool) => (s.canonical = true) ∧ (s.ftKeeps tile at16 bits = true) ∧ (s.ftDueNow tile = false)) (({ (((((((((((State.reset.setF Reg.CFG_OWN_OWNER 0x10 325).setF Reg.SNS_FT_CFG_ENABLE 1 3).setF Reg.SNS_FT_CFG_INPUT 5 3).setF Reg.SNS_FT_CFG_ORDER 2 3).setF Reg.SNS_FT_CFG_OSR_M1 7 3).setF Reg.SNS_FT_TRIG_SRC 1 3).setF Reg.SNS_CH_CFG_ENABLE 1 5).setF Reg.SNS_FT_CFG_FIR_EN 1 3).setF Reg.SNS_FT_CFG_FIR_TAPS 3 3).takeAllEff)) with counting := true } : State)) 3 160000 0 0 ((List.range 30).map fun k => decide (k % 3 = 0)) false) ∧
    ((fun (s : State) (tile at16 edge span : Nat) (bits : List Bool) (stale : Bool) (k : Nat) => (s.canonical = true) ∧ (tile < 48) ∧ (s.ftRuns tile = true) ∧ (s.ftClocked tile = true) ∧ (s.isEvent (s.ftTrigger tile) at16 = true) ∧ (s.ftWindow tile ≤ (s.ftHist tile bits).length) ∧ (s.isE Reg.SNS_FT_CFG_FIR_EN tile = true → s.ftTaps tile ≤ (s.ft tile).fir.length + 1) ∧ ((s.ft tile).last = some k) ∧ (at16 < k + 8000)) (({ (((((((((State.reset.setF Reg.CFG_OWN_OWNER 0x10 325).setF Reg.SNS_FT_CFG_ENABLE 1 3).setF Reg.SNS_FT_CFG_INPUT 5 3).setF Reg.SNS_FT_CFG_ORDER 2 3).setF Reg.SNS_FT_CFG_OSR_M1 7 3).setF Reg.SNS_FT_TRIG_SRC 1 3).setF Reg.SNS_CH_CFG_ENABLE 1 5).takeAllEff).setFt 3 { last := some 159000 }) with counting := true } : State)) 3 160000 0 0 ((List.range 30).map fun k => decide (k % 3 = 0)) false 159000) ∧
    ((fun (s : State) (tile at16 edge span : Nat) (bits : List Bool) (stale : Bool) => (s.ftRuns tile = true) ∧ (s.ftClocked tile = true) ∧ (s.isEvent (s.ftTrigger tile) at16 = true) ∧ ((s.ftHist tile bits).length < s.ftWindow tile)) (({ (((((((((State.reset.setF Reg.CFG_OWN_OWNER 0x10 325).setF Reg.SNS_FT_CFG_ENABLE 1 3).setF Reg.SNS_FT_CFG_INPUT 5 3).setF Reg.SNS_FT_CFG_ORDER 2 3).setF Reg.SNS_FT_CFG_OSR_M1 7 3).setF Reg.SNS_FT_TRIG_SRC 1 3).setF Reg.SNS_CH_CFG_ENABLE 1 5).takeAllEff)) with counting := true } : State)) 3 160000 0 0 [true, false] false) ∧
    ((fun (s : State) (tile at16 edge span : Nat) (bits : List Bool) (stale : Bool) => (s.ftRuns tile = false ∨ s.isEvent (s.ftTrigger tile) at16 = false ∨ (s.ftDs tile = true ∧ s.groupFreqOk (s.effF Reg.SNS_FT_CFG_INPUT tile / 4) = false))) (({ ((((((((State.reset.setF Reg.SNS_FT_CFG_ENABLE 1 3).setF Reg.SNS_FT_CFG_INPUT 5 3).setF Reg.SNS_FT_CFG_ORDER 2 3).setF Reg.SNS_FT_CFG_OSR_M1 7 3).setF Reg.SNS_FT_TRIG_SRC 1 3).setF Reg.SNS_CH_CFG_ENABLE 1 5).takeAllEff)) with counting := true } : State)) 3 160000 0 0 ((List.range 30).map fun k => decide (k % 3 = 0)) false) ∧
    ((fun (s : State) (tile at16 edge span : Nat) (bits : List Bool) (stale : Bool) => (s.ftRuns tile = true) ∧ (s.ftDs tile = true) ∧ (s.groupFreqOk (s.effF Reg.SNS_FT_CFG_INPUT tile / 4) = true) ∧ (bits ≠ []) ∧ (s.isEvent (s.ftTrigger tile) at16 = true)) (({ ((((((((State.reset.setF Reg.CFG_OWN_OWNER 0x10 325).setF Reg.SNS_FT_CFG_ENABLE 1 3).setF Reg.SNS_FT_CFG_INPUT 5 3).setF Reg.SNS_FT_CFG_ORDER 2 3).setF Reg.SNS_FT_CFG_OSR_M1 7 3).setF Reg.SNS_FT_TRIG_SRC 1 3).setF Reg.SNS_CH_CFG_ENABLE 1 5).takeAllEff) with counting := true, sns := { State.reset.sns with noClock := 2 } } : State)) 3 160000 0 0 ((List.range 30).map fun k => decide (k % 3 = 0)) false) ∧
    ((fun (s : State) (tile : Nat) (x : Int) => (s.ftRuns tile = true) ∧ (s.ftClocked tile = true) ∧ (s.isE Reg.SNS_FT_CMP_CFG_CMP_EN tile = true) ∧ (s.cmpWindow tile ≤ (s.ft tile).cmp.length + 1)) ((((((State.reset.setF Reg.SNS_FT_CFG_ENABLE 1 3).setF Reg.SNS_FT_CFG_INPUT 66 3).setF Reg.SNS_FT_CMP_CFG_CMP_EN 1 3).takeAllEff).setFt 3 { cmp := [5, 5, 5, 5, 5, 5, 5, 5] })) 3 700) ∧
    ((fun (s : State) (tile : Nat) (x : Int) => (s.ftRuns tile = true) ∧ (s.ftClocked tile = true) ∧ (s.isE Reg.SNS_FT_CMP_CFG_CMP_EN tile = true) ∧ (s.cmpWindow tile ≤ (s.ft tile).cmp.length + 1)) ((((((((State.reset.setF Reg.CFG_OWN_OWNER 0x10 325).setF Reg.SNS_FT_CFG_ENABLE 1 3).setF Reg.SNS_FT_CFG_INPUT 5 3).setF Reg.SNS_CH_CFG_ENABLE 1 5).setF Reg.SNS_FT_CMP_CFG_CMP_EN 1 3).takeAllEff).setFt 3 { cmp := [5, 5, 5, 5, 5, 5, 5, 5] })) 3 1) ∧
    ((fun (s : State) (tile : Nat) (x : Int) => (s.ftRuns tile = true) ∧ (s.ftClocked tile = true) ∧ (s.isE Reg.SNS_FT_CMP_CFG_CMP_EN tile = true) ∧ ((s.ft tile).cmp.length + 1 < s.cmpWindow tile)) (((((State.reset.setF Reg.SNS_FT_CFG_ENABLE 1 3).setF Reg.SNS_FT_CFG_INPUT 66 3).setF Reg.SNS_FT_CMP_CFG_CMP_EN 1 3).takeAllEff)) 3 700) ∧
    ((fun (s : State) (tile : Nat) (x : Int) => (s.ftRuns tile = false ∨ s.isE Reg.SNS_FT_CMP_CFG_CMP_EN tile = false)) (State.reset) 3 700) := by
  repeat refine And.intro (by decide +kernel) ?_
  decide +kernel

theorem test_meets_CoulombCounters :
    ((fun (s : State) (channel now : Nat) (sum : Int) => (s.canonical = true) ∧ (channel < 2) ∧ (s.runs (12 + channel) = true)) (((State.reset.setF Reg.SNS_CC_COND 1000 40).takeAllEff.setRuns 12 true)) 0 5000 30) ∧
    ((fun (s : State) (channel now : Nat) (sum : Int) => (s.canonical = true) ∧ (channel < 2) ∧ (s.runs (12 + channel) = true)) (((State.reset.setF Reg.SNS_CC_COND 1000000 41).takeAllEff.setRuns 13 true)) 1 5000 (-120)) ∧
    ((fun (s : State) (channel now : Nat) (sum : Int) => (s.canonical = true) ∧ (channel < 2) ∧ (s.runs (12 + channel) = true)) (({ ((State.reset.setF Reg.SNS_CC_COND 1000000 41).takeAllEff.setRuns 13 true) with sns := { State.reset.sns with packWait := 3, ccAcc := [(1, 2 ^ 71 - 1)] } })) 1 5000 127) ∧
    ((fun (s : State) (channel now : Nat) (sum : Int) => (2 ≤ channel ∨ s.runs (12 + channel) = false)) ((State.reset.setRuns 12 false)) 0 5 9) ∧
    ((fun (s : State) (path channel : Nat) => (channel < 2) ∧ (s.carries path (Reg.SNS_CC_ACC0.addr (40 + channel) 0) = true)) (({ (State.reset.setRuns 12 true).setRuns 1 true with sns := { State.reset.sns with ccAcc := [(0, -5)] } })) 2 0) := by
  repeat refine And.intro (by decide +kernel) ?_
  decide +kernel

theorem test_meets_TheCurrentOfABlock :
    ((fun (s : State) (channel now : Nat) (sum : Int) => (s.canonical = true) ∧ (channel < 2) ∧ (s.runs (12 + channel) = true)) (((State.reset.setF Reg.SNS_CC_COND 1000 40).takeAllEff.setRuns 12 true)) 0 5000 30) ∧
    ((fun (s : State) (channel now : Nat) (sum : Int) => (s.canonical = true) ∧ (channel < 2) ∧ (s.runs (12 + channel) = true)) (((State.reset.setF Reg.SNS_CC_COND 0xFFFFFFFF 41).takeAllEff.setRuns 13 true)) 1 5000 (-128)) := by
  repeat refine And.intro (by decide +kernel) ?_
  decide +kernel

theorem test_meets_LoopTileSample :
    ((fun (s : State) (tile at16 place : Nat) (stamp : Nat × Nat) => (s.canonical = true) ∧ (tile < 96) ∧ (s.tilePlain tile = true) ∧ (s.tileInsGood tile = true) ∧ (s.measStamp tile = some stamp) ∧ (s.unsettled tile stamp.2 = true) ∧ (at16 ≤ s.deadline tile stamp.2)) (((((((((((((((((((State.reset.setF Reg.LT_CTL_ENABLE 1 5).setF Reg.LT_CTL_INT_EN 1 5).setF Reg.LT_CTL_DIV_EN 1 5).setF Reg.LT_SRC_A_MEAS 0x46 5).setF Reg.LT_SRC_A_REF 0x1FF 5).setF Reg.LT_SRC_B_FF0 0x1FF 5).setF Reg.LT_SRC_B_FF1 0x1FF 5).setF Reg.LT_SRC_C_DIV 0x46 5).setF Reg.LT_OUT_MAX 4000 5).setF Reg.LT_INT_MAX 3000 5).setF Reg.LT_BKA_B0 0x8000000 5).setF Reg.LT_BKA_B1 0x300000 5).setF Reg.LT_BKA_KI 0x300000 5).takeAllEff).setF Reg.LT_OUT_U 0xFF8000 6).setF Reg.LT_OUT_INVALID 0 6).setTile 5 { run := true }).setTile 6 { run := true, stamp := some (9000, 26400) })) 5 32000 2 (9000, 32000)) ∧
    ((fun (s : State) (tile at16 place : Nat) (stamp : Nat × Nat) (upset : Int) => (s.canonical = true) ∧ (tile < 96) ∧ (s.keepsSamples = false) ∧ ((s.tile tile).run = true) ∧ (s.isF Reg.LT_STAT_LOOP_FAULT tile = false) ∧ (s.parked tile = false) ∧ (s.measStamp tile = some stamp) ∧ (s.unsettled tile stamp.2 = true)) (((((((((((((((((((State.reset.setF Reg.LT_CTL_ENABLE 1 5).setF Reg.LT_CTL_INT_EN 1 5).setF Reg.LT_CTL_DIV_EN 1 5).setF Reg.LT_SRC_A_MEAS 0x46 5).setF Reg.LT_SRC_A_REF 0x1FF 5).setF Reg.LT_SRC_B_FF0 0x1FF 5).setF Reg.LT_SRC_B_FF1 0x1FF 5).setF Reg.LT_SRC_C_DIV 0x46 5).setF Reg.LT_OUT_MAX 4000 5).setF Reg.LT_INT_MAX 3000 5).setF Reg.LT_BKA_B0 0x8000000 5).setF Reg.LT_BKA_B1 0x300000 5).setF Reg.LT_BKA_KI 0x300000 5).takeAllEff).setF Reg.LT_OUT_U 0xFF8000 6).setF Reg.LT_OUT_INVALID 0 6).setTile 5 { run := true }).setTile 6 { run := true, stamp := some (9000, 26400) })) 5 32000 2 (9000, 32000) 0) ∧
    ((fun (s : State) (tile at16 place : Nat) (stamp : Nat × Nat) (upset : Int) (sram : Nat) => (s.canonical = true) ∧ (tile < 96) ∧ (s.tilePlain tile = true) ∧ (2 ≤ sram) ∧ (s.measStamp tile = some stamp) ∧ (s.unsettled tile stamp.2 = true) ∧ (s.twn.preLeft = none) ∧ (s.getF Reg.SNAP_STATUS_STATE ≠ 1)) (((((((((((((((((((State.reset.setF Reg.LT_CTL_ENABLE 1 5).setF Reg.LT_CTL_INT_EN 1 5).setF Reg.LT_CTL_DIV_EN 1 5).setF Reg.LT_SRC_A_MEAS 0x46 5).setF Reg.LT_SRC_A_REF 0x1FF 5).setF Reg.LT_SRC_B_FF0 0x1FF 5).setF Reg.LT_SRC_B_FF1 0x1FF 5).setF Reg.LT_SRC_C_DIV 0x46 5).setF Reg.LT_OUT_MAX 4000 5).setF Reg.LT_INT_MAX 3000 5).setF Reg.LT_BKA_B0 0x8000000 5).setF Reg.LT_BKA_B1 0x300000 5).setF Reg.LT_BKA_KI 0x300000 5).takeAllEff).setF Reg.LT_OUT_U 0xFF8000 6).setF Reg.LT_OUT_INVALID 0 6).setTile 5 { run := true }).setTile 6 { run := true, stamp := some (9000, 26400) })) 5 32000 2 (9000, 32000) 0 2) ∧
    ((fun (s : State) (tile at16 place : Nat) (stamp : Nat × Nat) (upset : Int) => (s.canonical = true) ∧ (tile < 96) ∧ (s.tilePlain tile = true) ∧ (s.tileInsGood tile = true) ∧ (upset % 255 ≠ 0) ∧ ((s.tileCfg tile (s.bank tile)).forms false place = true) ∧ (s.measStamp tile = some stamp) ∧ (s.unsettled tile stamp.2 = true) ∧ (at16 ≤ s.deadline tile stamp.2) ∧ (s.twn.preLeft = none) ∧ (s.getF Reg.SNAP_STATUS_STATE ≠ 1)) (((((((((((((((((((State.reset.setF Reg.LT_CTL_ENABLE 1 5).setF Reg.LT_CTL_INT_EN 1 5).setF Reg.LT_CTL_DIV_EN 1 5).setF Reg.LT_SRC_A_MEAS 0x46 5).setF Reg.LT_SRC_A_REF 0x1FF 5).setF Reg.LT_SRC_B_FF0 0x1FF 5).setF Reg.LT_SRC_B_FF1 0x1FF 5).setF Reg.LT_SRC_C_DIV 0x46 5).setF Reg.LT_OUT_MAX 4000 5).setF Reg.LT_INT_MAX 3000 5).setF Reg.LT_BKA_B0 0x8000000 5).setF Reg.LT_BKA_B1 0x300000 5).setF Reg.LT_BKA_KI 0x300000 5).takeAllEff).setF Reg.LT_OUT_U 0xFF8000 6).setF Reg.LT_OUT_INVALID 0 6).setTile 5 { run := true }).setTile 6 { run := true, stamp := some (9000, 26400) })) 5 32000 2 (9000, 32000) 7) ∧
    ((fun (s : State) (tile at16 place : Nat) (stamp : Nat × Nat) (upset : Int) => (s.canonical = true) ∧ (tile < 96) ∧ (s.tilePlain tile = true) ∧ (s.tileInsGood tile = true) ∧ (upset % 255 ≠ 0) ∧ ((s.tileCfg tile (s.bank tile)).forms false place = true) ∧ (s.measStamp tile = some stamp) ∧ (s.unsettled tile stamp.2 = true) ∧ (at16 ≤ s.deadline tile stamp.2) ∧ (s.twn.preLeft = none) ∧ (s.getF Reg.SNAP_STATUS_STATE ≠ 1)) (((((((((((((((((((State.reset.setF Reg.LT_CTL_ENABLE 1 5).setF Reg.LT_CTL_INT_EN 1 5).setF Reg.LT_CTL_DIV_EN 1 5).setF Reg.LT_SRC_A_MEAS 0x46 5).setF Reg.LT_SRC_A_REF 0x1FF 5).setF Reg.LT_SRC_B_FF0 0x1FF 5).setF Reg.LT_SRC_B_FF1 0x1FF 5).setF Reg.LT_SRC_C_DIV 0x46 5).setF Reg.LT_OUT_MAX 4000 5).setF Reg.LT_INT_MAX 3000 5).setF Reg.LT_BKA_B0 0x8000000 5).setF Reg.LT_BKA_B1 0x300000 5).setF Reg.LT_BKA_KI 0x300000 5).takeAllEff).setF Reg.LT_OUT_U 0xFF8000 6).setF Reg.LT_OUT_INVALID 0 6).setTile 5 { run := true }).setTile 6 { run := true, stamp := some (9000, 26400) })) 5 32000 14 (9000, 32000) 1) ∧
    ((fun (s : State) (tile at16 place : Nat) (stamp : Nat × Nat) (upset : Int) => (s.canonical = true) ∧ (tile < 96) ∧ (s.tilePlain tile = true) ∧ (s.tileInsGood tile = true) ∧ (upset % 255 ≠ 0) ∧ ((s.tileCfg tile (s.bank tile)).forms false place = true) ∧ (s.measStamp tile = some stamp) ∧ (s.unsettled tile stamp.2 = true) ∧ (at16 ≤ s.deadline tile stamp.2) ∧ (s.twn.preLeft = none) ∧ (s.getF Reg.SNAP_STATUS_STATE ≠ 1)) (((((((((((((((((((State.reset.setF Reg.LT_CTL_ENABLE 1 5).setF Reg.LT_CTL_INT_EN 1 5).setF Reg.LT_CTL_DIV_EN 1 5).setF Reg.LT_SRC_A_MEAS 0x46 5).setF Reg.LT_SRC_A_REF 0x1FF 5).setF Reg.LT_SRC_B_FF0 0x1FF 5).setF Reg.LT_SRC_B_FF1 0x1FF 5).setF Reg.LT_SRC_C_DIV 0x46 5).setF Reg.LT_OUT_MAX 4000 5).setF Reg.LT_INT_MAX 3000 5).setF Reg.LT_BKA_B0 0x8000000 5).setF Reg.LT_BKA_B1 0x300000 5).setF Reg.LT_BKA_KI 0x300000 5).takeAllEff).setF Reg.LT_OUT_U 0xFF8000 6).setF Reg.LT_OUT_INVALID 0 6).setTile 5 { run := true }).setTile 6 { run := true, stamp := some (9000, 26400) })) 5 32000 22 (9000, 32000) (-3)) ∧
    ((fun (s : State) (tile at16 place sram : Nat) (stamp : Nat × Nat) (upset : Int) => (s.keepsSamples = true) ∧ (s.measStamp tile = some stamp) ∧ (s.unsettled tile stamp.2 = true)) ((((((((((((((((((((State.reset.setF Reg.LT_CTL_ENABLE 1 5).setF Reg.LT_CTL_INT_EN 1 5).setF Reg.LT_CTL_DIV_EN 1 5).setF Reg.LT_SRC_A_MEAS 0x46 5).setF Reg.LT_SRC_A_REF 0x1FF 5).setF Reg.LT_SRC_B_FF0 0x1FF 5).setF Reg.LT_SRC_B_FF1 0x1FF 5).setF Reg.LT_SRC_C_DIV 0x46 5).setF Reg.LT_OUT_MAX 4000 5).setF Reg.LT_INT_MAX 3000 5).setF Reg.LT_BKA_B0 0x8000000 5).setF Reg.LT_BKA_B1 0x300000 5).setF Reg.LT_BKA_KI 0x300000 5).takeAllEff).setF Reg.LT_OUT_U 0xFF8000 6).setF Reg.LT_OUT_INVALID 0 6).setTile 5 { run := true }).setTile 6 { run := true, stamp := some (9000, 26400) }).setF Reg.TWN_STATUS_STATE 2)) 5 32000 2 0 (9000, 32000) 0) ∧
    ((fun (s : State) (tile at16 place sram : Nat) (upset : Int) => ((s.measStamp tile).all (fun (e : Nat × Nat) => !s.unsettled tile e.2) = true)) (State.reset) 5 32000 2 0 7) := by
  repeat refine And.intro (by decide +kernel) ?_
  decide +kernel

theorem test_meets_DeadlineMissesAndResidueTest :
    ((fun (s : State) (tile cause event at16 due : Nat) => (s.canonical = true) ∧ (tile < 96) ∧ ((s.tile tile).run = true) ∧ ((s.tile tile).waiting = false) ∧ (s.parked tile = false) ∧ (s.isF Reg.LT_STAT_LOOP_FAULT tile = false) ∧ (s.isE Reg.LT_CTL_CRITICAL tile = false) ∧ (s.awaitsRestart tile = false) ∧ (s.promised 96 (tile / 24) (s.effF Reg.LT_SRC_A_MEAS tile) event = some due) ∧ (s.late tile cause due at16 = true) ∧ (s.unsettled tile due = true)) (({ (((((((State.reset.setF Reg.LT_CTL_ENABLE 1 5).setF Reg.LT_CTL_ENABLE 1 6).setF Reg.LT_SRC_A_MEAS 0x46 5).setF Reg.LT_SRC_A_MEAS 0xA2 6).setF Reg.SNS_CH_TRIG_SRC 1 34).takeAllEff).setTile 5 { run := true }).setTile 6 { run := true } with counting := true } : State)) 5 0 0 99000 10400) ∧
    ((fun (s : State) (tile cause event at16 due : Nat) => (s.canonical = true) ∧ (tile < 96) ∧ ((s.tile tile).run = true) ∧ ((s.tile tile).waiting = false) ∧ (s.parked tile = false) ∧ (s.isF Reg.LT_STAT_LOOP_FAULT tile = false) ∧ (s.isE Reg.LT_CTL_CRITICAL tile = false) ∧ (s.awaitsRestart tile = false) ∧ (s.promised 96 (tile / 24) (s.effF Reg.LT_SRC_A_MEAS tile) event = some due) ∧ (s.late tile cause due at16 = true) ∧ (s.unsettled tile due = true)) ((({ (((((((State.reset.setF Reg.LT_CTL_ENABLE 1 5).setF Reg.LT_CTL_ENABLE 1 6).setF Reg.LT_SRC_A_MEAS 0x46 5).setF Reg.LT_SRC_A_MEAS 0xA2 6).setF Reg.SNS_CH_TRIG_SRC 1 34).takeAllEff).setTile 5 { run := true }).setTile 6 { run := true } with counting := true } : State).setTile 6 { run := true, stamp := some (9000, 26400) })) 5 2 0 30000 10400) ∧
    ((fun (s : State) (tile cause event at16 due : Nat) => (s.canonical = true) ∧ (tile < 96) ∧ ((s.tile tile).run = true) ∧ ((s.tile tile).waiting = false) ∧ (s.parked tile = false) ∧ (s.isF Reg.LT_STAT_LOOP_FAULT tile = false) ∧ (s.isE Reg.LT_CTL_CRITICAL tile = true) ∧ (s.isE Reg.LT_CTL_OUT_MODE tile = false) ∧ (3 ≤ s.getF Reg.LT_MISS_MISS_COUNT tile) ∧ (s.twn.preLeft = none) ∧ (s.getF Reg.SNAP_STATUS_STATE ≠ 1) ∧ (s.awaitsRestart tile = false) ∧ (s.promised 96 (tile / 24) (s.effF Reg.LT_SRC_A_MEAS tile) event = some due) ∧ (s.late tile cause due at16 = true) ∧ (s.unsettled tile due = true)) ((({ ((((((((State.reset.setF Reg.LT_CTL_ENABLE 1 5).setF Reg.LT_CTL_ENABLE 1 6).setF Reg.LT_SRC_A_MEAS 0x46 5).setF Reg.LT_SRC_A_MEAS 0xA2 6).setF Reg.SNS_CH_TRIG_SRC 1 34).setF Reg.LT_CTL_CRITICAL 1 5).takeAllEff).setTile 5 { run := true }).setTile 6 { run := true } with counting := true } : State).setF Reg.LT_MISS_MISS_COUNT 3 5)) 5 1 0 99000 10400) ∧
    ((fun (s : State) (tile cause event at16 : Nat) => ((s.tile tile).run = false ∨ (s.tile tile).waiting = true ∨ s.parked tile = true ∨ s.isF Reg.LT_STAT_LOOP_FAULT tile = true ∨ s.awaitsRestart tile = true ∨ (s.promised 96 (tile / 24) (s.effF Reg.LT_SRC_A_MEAS tile) event).all (fun (d : Nat) => !(s.late tile cause d at16 && s.unsettled tile d)) = true)) (({ (((((((State.reset.setF Reg.LT_CTL_ENABLE 1 5).setF Reg.LT_CTL_ENABLE 1 6).setF Reg.LT_SRC_A_MEAS 0x46 5).setF Reg.LT_SRC_A_MEAS 0xA2 6).setF Reg.SNS_CH_TRIG_SRC 1 34).takeAllEff).setTile 5 { run := true }).setTile 6 { run := true } with counting := true } : State)) 5 0 0 9000) ∧
    ((fun (s : State) (tile at16 place : Nat) (stamp : Nat × Nat) (upset : Int) => (s.canonical = true) ∧ (tile < 96) ∧ (s.tilePlain tile = true) ∧ (s.tileInsGood tile = true) ∧ (s.isE Reg.LT_CTL_CRITICAL tile = false) ∧ (s.measStamp tile = some stamp) ∧ (s.unsettled tile stamp.2 = true) ∧ (s.deadline tile stamp.2 < at16)) (((((((((((((((((((State.reset.setF Reg.LT_CTL_ENABLE 1 5).setF Reg.LT_CTL_INT_EN 1 5).setF Reg.LT_CTL_DIV_EN 1 5).setF Reg.LT_SRC_A_MEAS 0x46 5).setF Reg.LT_SRC_A_REF 0x1FF 5).setF Reg.LT_SRC_B_FF0 0x1FF 5).setF Reg.LT_SRC_B_FF1 0x1FF 5).setF Reg.LT_SRC_C_DIV 0x46 5).setF Reg.LT_OUT_MAX 4000 5).setF Reg.LT_INT_MAX 3000 5).setF Reg.LT_BKA_B0 0x8000000 5).setF Reg.LT_BKA_B1 0x300000 5).setF Reg.LT_BKA_KI 0x300000 5).takeAllEff).setF Reg.LT_OUT_U 0xFF8000 6).setF Reg.LT_OUT_INVALID 0 6).setTile 5 { run := true }).setTile 6 { run := true, stamp := some (9000, 26400) })) 5 99000 2 (9000, 32000) 0) ∧
    ((fun (s : State) (tile at16 place : Nat) (stamp : Nat × Nat) (upset : Int) => (s.canonical = true) ∧ (tile < 96) ∧ (s.tilePlain tile = true) ∧ (bitOf (s.tileIn tile 0).2 0 = true ∨ bitOf (s.tileIn tile 1).2 0 = true ∨ bitOf (s.tileIn tile 4).2 0 = true) ∧ (s.isE Reg.LT_CTL_CRITICAL tile = false) ∧ (s.twn.preLeft = none) ∧ (s.measStamp tile = some stamp) ∧ (s.unsettled tile stamp.2 = true)) ((((((((((((((((((((State.reset.setF Reg.LT_CTL_ENABLE 1 5).setF Reg.LT_CTL_INT_EN 1 5).setF Reg.LT_CTL_DIV_EN 1 5).setF Reg.LT_SRC_A_MEAS 0x46 5).setF Reg.LT_SRC_A_REF 0x1FF 5).setF Reg.LT_SRC_B_FF0 0x1FF 5).setF Reg.LT_SRC_B_FF1 0x1FF 5).setF Reg.LT_SRC_C_DIV 0x46 5).setF Reg.LT_OUT_MAX 4000 5).setF Reg.LT_INT_MAX 3000 5).setF Reg.LT_BKA_B0 0x8000000 5).setF Reg.LT_BKA_B1 0x300000 5).setF Reg.LT_BKA_KI 0x300000 5).takeAllEff).setF Reg.LT_OUT_U 0xFF8000 6).setF Reg.LT_OUT_INVALID 0 6).setTile 5 { run := true }).setTile 6 { run := true, stamp := some (9000, 26400) }).setF Reg.LT_OUT_INVALID 1 6)) 5 32000 2 (9000, 32000) 0) ∧
    ((fun (s : State) (tile : Nat) => (tile < 96) ∧ ((s.tile tile).run = true)) (((((((((((((((((((State.reset.setF Reg.LT_CTL_ENABLE 1 5).setF Reg.LT_CTL_INT_EN 1 5).setF Reg.LT_CTL_DIV_EN 1 5).setF Reg.LT_SRC_A_MEAS 0x46 5).setF Reg.LT_SRC_A_REF 0x1FF 5).setF Reg.LT_SRC_B_FF0 0x1FF 5).setF Reg.LT_SRC_B_FF1 0x1FF 5).setF Reg.LT_SRC_C_DIV 0x46 5).setF Reg.LT_OUT_MAX 4000 5).setF Reg.LT_INT_MAX 3000 5).setF Reg.LT_BKA_B0 0x8000000 5).setF Reg.LT_BKA_B1 0x300000 5).setF Reg.LT_BKA_KI 0x300000 5).takeAllEff).setF Reg.LT_OUT_U 0xFF8000 6).setF Reg.LT_OUT_INVALID 0 6).setTile 5 { run := true }).setTile 6 { run := true, stamp := some (9000, 26400) })) 5) ∧
    ((fun (s : State) (tile : Nat) => (tile < 96) ∧ ((s.tile tile).run = true)) ((((((((((((((((((((State.reset.setF Reg.LT_CTL_ENABLE 1 5).setF Reg.LT_CTL_INT_EN 1 5).setF Reg.LT_CTL_DIV_EN 1 5).setF Reg.LT_SRC_A_MEAS 0x46 5).setF Reg.LT_SRC_A_REF 0x1FF 5).setF Reg.LT_SRC_B_FF0 0x1FF 5).setF Reg.LT_SRC_B_FF1 0x1FF 5).setF Reg.LT_SRC_C_DIV 0x46 5).setF Reg.LT_OUT_MAX 4000 5).setF Reg.LT_INT_MAX 3000 5).setF Reg.LT_BKA_B0 0x8000000 5).setF Reg.LT_BKA_B1 0x300000 5).setF Reg.LT_BKA_KI 0x300000 5).takeAllEff).setF Reg.LT_OUT_U 0xFF8000 6).setF Reg.LT_OUT_INVALID 0 6).setTile 5 { run := true }).setTile 6 { run := true, stamp := some (9000, 26400) }).setF Reg.TWN_STATUS_LOCK 1)) 5) := by
  repeat refine And.intro (by decide +kernel) ?_
  decide +kernel

theorem test_meets_LogicTilesTimersAndTheSampleInstant :
    ((fun (s : State) (tile at16 j : Nat) => (s.canonical = true) ∧ (tile < 32) ∧ (s.isE Reg.LT_LG_CTL_ENABLE tile = true) ∧ ((s.logicIds tile).all (s.inputAllowed (tile / 8)) = true) ∧ (s.fires tile at16 = some j) ∧ (bitOf (s.effF Reg.LT_LG_CTL_OUT_MAP tile) (s.effF Reg.LT_LG_TR_TO tile j) = s.logicOut tile)) ((((((((((((((State.reset.setF Reg.LT_LG_CTL_ENABLE 1 3).setF Reg.LT_LG_TR_EN 1 3).setF Reg.LT_LG_TR_TO 2 3).setF Reg.LT_LG_IN_EVEN 0x1FF 3 0).setF Reg.LT_LG_IN_EVEN 0x1FF 3 1).setF Reg.LT_LG_IN_EVEN 0x1FF 3 2).setF Reg.LT_LG_IN_EVEN 0x1FF 3 3).setF Reg.LT_LG_IN_ODD 0x1FF 3 0).setF Reg.LT_LG_IN_ODD 0x1FF 3 1).setF Reg.LT_LG_IN_ODD 0x1FF 3 2).setF Reg.LT_LG_IN_ODD 0x1FF 3 3).takeAllEff).setF Reg.LT_LG_STAT_CNT 9 3).setF Reg.LT_LG_STAT_SRC_ERR 1 3) 3 7777 0) ∧
    ((fun (s : State) (tile at16 : Nat) => (s.canonical = true) ∧ (tile < 32) ∧ (s.isE Reg.LT_LG_CTL_ENABLE tile = true) ∧ ((s.logicIds tile).all (s.inputAllowed (tile / 8)) = true) ∧ (s.fires tile at16 = none)) ((((((((((((State.reset.setF Reg.LT_LG_CTL_ENABLE 1 3).setF Reg.LT_LG_IN_EVEN 0x1FF 3 0).setF Reg.LT_LG_IN_EVEN 0x1FF 3 1).setF Reg.LT_LG_IN_EVEN 0x1FF 3 2).setF Reg.LT_LG_IN_EVEN 0x1FF 3 3).setF Reg.LT_LG_IN_ODD 0x1FF 3 0).setF Reg.LT_LG_IN_ODD 0x1FF 3 1).setF Reg.LT_LG_IN_ODD 0x1FF 3 2).setF Reg.LT_LG_IN_ODD 0x1FF 3 3).takeAllEff))) 3 7777) ∧
    ((fun (s : State) (tile at16 pins j : Nat) => (s.canonical = true) ∧ (tile < 32) ∧ (s.isE Reg.LT_LG_CTL_ENABLE tile = true) ∧ (((s.sensePins pins).logicIds tile).all ((s.sensePins pins).inputAllowed (tile / 8)) = true) ∧ ((s.sensePins pins).fires tile at16 = some j) ∧ (bitOf (s.effF Reg.LT_LG_CTL_OUT_MAP tile) (s.effF Reg.LT_LG_TR_TO tile j) = s.logicOut tile)) ((((((((((((((State.reset.setF Reg.LT_LG_CTL_ENABLE 1 3).setF Reg.LT_LG_TR_EN 1 3).setF Reg.LT_LG_TR_TO 2 3).setF Reg.LT_LG_IN_EVEN 0x1FF 3 0).setF Reg.LT_LG_IN_EVEN 0x1FF 3 1).setF Reg.LT_LG_IN_EVEN 0x1FF 3 2).setF Reg.LT_LG_IN_EVEN 0x1FF 3 3).setF Reg.LT_LG_IN_ODD 0x1FF 3 0).setF Reg.LT_LG_IN_ODD 0x1FF 3 1).setF Reg.LT_LG_IN_ODD 0x1FF 3 2).setF Reg.LT_LG_IN_ODD 0x1FF 3 3).takeAllEff).setF Reg.LT_LG_STAT_CNT 9 3)) 3 7777 0xF0F 0) ∧
    ((fun (s : State) (path timer now : Nat) => (s.canonical = true) ∧ (timer < 16) ∧ (s.owner (0x170 + timer) = pathOwner path) ∧ (s.owned (0x170 + timer) = true) ∧ (s.isE Reg.LT_TMR_CFG_EN timer = true)) ((((State.reset.setF Reg.LT_TMR_CFG_EN 1 4).takeAllEff).setF Reg.CFG_OWN_OWNER 0x40 0x174)) 0 4 5000) ∧
    ((fun (s : State) (path timer now : Nat) => (timer < 16) ∧ (s.owner (0x170 + timer) = pathOwner path) ∧ (s.owned (0x170 + timer) = false ∨ s.isE Reg.LT_TMR_CFG_EN timer = false)) ((State.reset.setF Reg.CFG_OWN_OWNER 0x40 0x174)) 0 4 5000) ∧
    ((fun (s : State) (path timer : Nat) => (s.canonical = true) ∧ (timer < 16) ∧ (s.owner (0x170 + timer) = pathOwner path)) (((((State.reset.setF Reg.LT_TMR_CFG_EN 1 4).takeAllEff).setF Reg.CFG_OWN_OWNER 0x40 0x174).setF Reg.LT_TMR_STAT_RUNNING 1 4)) 0 4) ∧
    ((fun (s : State) (path timer now : Nat) => (s.canonical = true) ∧ (timer < 16) ∧ (¬ s.owner (0x170 + timer) = pathOwner path)) ((((State.reset.setF Reg.LT_TMR_CFG_EN 1 4).takeAllEff).setF Reg.CFG_OWN_OWNER 0x40 0x174)) 2 4 5000) ∧
    ((fun (s : State) (path timer : Nat) => (s.canonical = true) ∧ (timer < 16) ∧ (¬ s.owner (0x170 + timer) = pathOwner path)) ((((State.reset.setF Reg.LT_TMR_CFG_EN 1 4).takeAllEff).setF Reg.CFG_OWN_OWNER 0x40 0x174)) 2 4) ∧
    ((fun (s : State) (timer at16 due : Nat) => (s.canonical = true) ∧ (timer < 16) ∧ (s.isF Reg.LT_TMR_STAT_RUNNING timer = true) ∧ (s.isE Reg.LT_TMR_CFG_MODE timer = false) ∧ (Sparse.find s.lt.tmrDue timer = some due) ∧ (due ≤ at16)) (({ (((State.reset.setF Reg.LT_TMR_CFG_EN 1 4).takeAllEff).setF Reg.CFG_OWN_OWNER 0x40 0x174).setF Reg.LT_TMR_STAT_RUNNING 1 4 with lt := { State.reset.lt with tmrDue := [(4, 90)] } } : State)) 4 100 90) ∧
    ((fun (s : State) (timer at16 due : Nat) => (s.canonical = true) ∧ (timer < 16) ∧ (s.isF Reg.LT_TMR_STAT_RUNNING timer = true) ∧ (s.isE Reg.LT_TMR_CFG_MODE timer = true) ∧ (Sparse.find s.lt.tmrDue timer = some due) ∧ (due ≤ at16) ∧ ((List.range 32).all (fun l => !s.isE Reg.LT_LG_CTL_ENABLE l) = true)) (({ (((State.reset.setF Reg.LT_TMR_CFG_EN 1 4).setF Reg.LT_TMR_CFG_MODE 1 4).takeAllEff).setF Reg.LT_TMR_STAT_RUNNING 1 4 with lt := { State.reset.lt with tmrDue := [(4, 90)] } } : State)) 4 100 90) ∧
    ((fun (s : State) (timer at16 : Nat) => (s.isF Reg.LT_TMR_STAT_RUNNING timer = false ∨ (Sparse.find s.lt.tmrDue timer).all (fun (d : Nat) => decide (at16 < d)) = true)) ((((State.reset.setF Reg.LT_TMR_CFG_EN 1 4).takeAllEff).setF Reg.CFG_OWN_OWNER 0x40 0x174)) 4 100) ∧
    ((fun (s : State) (ts : Nat) => (s.canonical = true) ∧ (s.sns.ts = some ts)) (({ ((((State.reset.setF Reg.SYS_PIN_FUNC 4 0).takeAllEff).setF Reg.CFG_OWN_OWNER 16 0).setF Reg.TWN_STATUS_LOCK 1) with sns := { State.reset.sns with ts := some 123450000 } })) 123450000) ∧
    ((fun (s : State) (tile at16 : Nat) => (s.canonical = true) ∧ (tile < 96) ∧ (s.lt.faults.any (fun (e : Nat × Nat) => e.1 = tile && e.2 + 16000000 ≤ at16) = true) ∧ (s.isF Reg.TWN_STATUS_LOCK = true)) (({ (((((((State.reset.setF Reg.LT_CTL_ENABLE 1 5).setF Reg.LT_CTL_OUT_MODE 1 5).setF Reg.LT_SRC_C_LANE 7 5).setF Reg.PWM_LANE_CFG_GROUP 2 7).takeAllEff)).setF Reg.LT_STAT_LOOP_FAULT 1 5).setF Reg.TWN_STATUS_LOCK 1 with lt := { State.reset.lt with faults := [(5, 100)] } } : State)) 5 16000100) ∧
    ((fun (s : State) (tile at16 : Nat) => (s.lt.faults.any (fun (e : Nat × Nat) => e.1 = tile && e.2 + 16000000 ≤ at16) = false ∨ s.isF Reg.TWN_STATUS_LOCK = false)) (State.reset) 5 16000100) := by
  repeat refine And.intro (by decide +kernel) ?_
  decide +kernel

theorem test_meets_PwmPeriodStart :
    ((fun (s : State) (lane at16 q k : Nat) (u : Int) => (s.canonical = true) ∧ (s.startsAt lane at16 = true) ∧ (s.lanePlain lane = true) ∧ (s.tileOf lane = some q) ∧ (s.handedBy lane at16 = some (u, k))) (((((((((((((State.reset.setF Reg.LT_CTL_ENABLE 1 5).setF Reg.LT_CTL_OUT_MODE 1 5).setF Reg.LT_SRC_C_LANE 7 5).setF Reg.PWM_LANE_DT_DT_LH 320 7).setF Reg.PWM_LANE_DT_DT_HL 320 7).setF Reg.PWM_LANE_MINP 160 7).takeAllEff)).setF Reg.PWM_LANE_STAT_STATE 2 7).setTile 5 { run := true }).setLane 7 { grid := some 1000, per := 160000, phase := true, on := 3000, handed := [(4000000, 160900), (9, 161000)] }))) 7 161000 5 160900 4000000) ∧
    ((fun (s : State) (lane at16 q k : Nat) (u : Int) => (s.canonical = true) ∧ (s.startsAt lane at16 = true) ∧ (s.lanePlain lane = true) ∧ (s.tileOf lane = some q) ∧ (s.handedBy lane at16 = some (u, k))) (((((((((((((State.reset.setF Reg.LT_CTL_ENABLE 1 5).setF Reg.LT_CTL_OUT_MODE 1 5).setF Reg.LT_SRC_C_LANE 7 5).setF Reg.PWM_LANE_DT_DT_LH 320 7).setF Reg.PWM_LANE_DT_DT_HL 320 7).setF Reg.PWM_LANE_MINP 160 7).takeAllEff)).setF Reg.PWM_LANE_STAT_STATE 2 7).setTile 5 { run := true }).setLane 7 { pulse := some ⟨1000, 160000, 3000, 320, 320, 0, 0, -50⟩, grid := some 1000, per := 160000, phase := true, on := 3000, handed := [(4000000, 160900), (9, 161000)] }))) 7 161000 5 160900 4000000) ∧
    ((fun (s : State) (lane at16 q : Nat) (upset : Int) => (s.canonical = true) ∧ (s.startsAt lane at16 = true) ∧ (s.lanePlain lane = true) ∧ (s.tileOf lane = some q) ∧ ((s.handedBy lane at16).isSome = true) ∧ (upset % 255 ≠ 0) ∧ (s.twn.preLeft = none) ∧ (s.getF Reg.SNAP_STATUS_STATE ≠ 1)) (((((((((((((State.reset.setF Reg.LT_CTL_ENABLE 1 5).setF Reg.LT_CTL_OUT_MODE 1 5).setF Reg.LT_SRC_C_LANE 7 5).setF Reg.PWM_LANE_DT_DT_LH 320 7).setF Reg.PWM_LANE_DT_DT_HL 320 7).setF Reg.PWM_LANE_MINP 160 7).takeAllEff)).setF Reg.PWM_LANE_STAT_STATE 2 7).setTile 5 { run := true }).setLane 7 { grid := some 1000, per := 160000, phase := true, on := 3000, handed := [(4000000, 160900), (9, 161000)] }))) 7 161000 5 4) ∧
    ((fun (s : State) (lane at16 : Nat) (upset : Int) => (s.canonical = true) ∧ (s.startsAt lane at16 = true) ∧ (s.lanePlain lane = true) ∧ (s.handedBy lane at16 = none)) (((((((((((((State.reset.setF Reg.LT_CTL_ENABLE 1 5).setF Reg.LT_CTL_OUT_MODE 1 5).setF Reg.LT_SRC_C_LANE 7 5).setF Reg.PWM_LANE_DT_DT_LH 320 7).setF Reg.PWM_LANE_DT_DT_HL 320 7).setF Reg.PWM_LANE_MINP 160 7).takeAllEff)).setF Reg.PWM_LANE_STAT_STATE 2 7).setTile 5 { run := true }).setLane 7 { grid := some 1000, per := 160000, phase := true, on := 3000, handed := [] }))) 7 161000 0) ∧
    ((fun (s : State) (lane at16 : Nat) (upset : Int) => (s.isStart lane at16 = false ∨ (s.lane lane).last.any (fun x => at16 ≤ x) = true)) (((((((((((((State.reset.setF Reg.LT_CTL_ENABLE 1 5).setF Reg.LT_CTL_OUT_MODE 1 5).setF Reg.LT_SRC_C_LANE 7 5).setF Reg.PWM_LANE_DT_DT_LH 320 7).setF Reg.PWM_LANE_DT_DT_HL 320 7).setF Reg.PWM_LANE_MINP 160 7).takeAllEff)).setF Reg.PWM_LANE_STAT_STATE 2 7).setTile 5 { run := true }).setLane 7 { grid := some 1001, per := 160000, phase := true, on := 3000, handed := [(4000000, 160900), (9, 161000)] }))) 7 161000 0) := by
  repeat refine And.intro (by decide +kernel) ?_
  decide +kernel

theorem test_meets_TheSampleNotch :
    ((fun (s : State) (t0 t1 : Nat) => (s.canonical = true) ∧ (s.pwm.plan = some (t0, t1)) ∧ (s.pwm.notch = none) ∧ (∀ n ∈ List.range 48, (s.lane n).shedAt.isNone = true ∧ (s.lane n).readd.isNone = true)) ({ State.reset with pwm := { State.reset.pwm with plan := some (1592000, 1608000) } }) 1592000 1608000) ∧
    ((fun (s : State) (t0 t1 : Nat) (n : Nat) => (s.canonical = true) ∧ (s.pwm.plan = some (t0, t1)) ∧ (s.pwm.notch = none) ∧ (((List.range 48).find? fun n => (s.lane n).shedAt.isSome || (s.lane n).readd.isSome) = some n)) ((({ State.reset with pwm := { State.reset.pwm with plan := some (1592000, 1608000) } }).setLane 14 { shedAt := some 5 })) 1592000 1608000 14) ∧
    ((fun (s : State) => (s.pwm.plan = none ∨ s.pwm.notch.isSome = true)) (State.reset)) ∧
    ((fun (s : State) (t0 t1 : Nat) => (s.canonical = true) ∧ (s.pwm.notch = some (t0, t1))) ((({ State.reset with pwm := { State.reset.pwm with notch := some (1000, 9000) } }).setF Reg.PWM_STATUS_NOTCH_OPEN 1)) 1000 9000) := by
  repeat refine And.intro (by decide +kernel) ?_
  decide +kernel

theorem test_meets_PhaseShedding :
    ((fun (s : State) (converter target at16 : Nat) => (s.canonical = true) ∧ (converter < 4) ∧ (s.isE Reg.PWM_CONV_SHED_REQ_SRC converter = false) ∧ (target < 8) ∧ (target ≤ s.maxLevel converter) ∧ (s.suspended converter = false) ∧ (target ≤ min (s.shedLevel converter) (s.shedTarget converter) ∨ (s.stepSignal converter = false ∧ s.isE Reg.PWM_CONV_SHED_SHED_EN converter = true))) ((((((((State.reset.setF Reg.PWM_CONV_CFG_ENABLE 1 1).setF Reg.PWM_CONV_CFG_PHASES 4 1).setF Reg.PWM_CONV_PERIOD 160000 1).setF Reg.PWM_CONV_SHED_SHED_EN 1 1).setF Reg.PWM_CONV_SHED_MAX_LEVEL 3 1).setF Reg.PWM_CONV_SEQ_LANES 8 1 0).takeAllEff)) 1 2 500) ∧
    ((fun (s : State) (converter target at16 : Nat) => (s.canonical = true) ∧ (converter < 4) ∧ (s.isE Reg.PWM_CONV_SHED_REQ_SRC converter = false) ∧ (s.maxLevel converter < target % 8 ∨ s.suspended converter = true ∨ (min (s.shedLevel converter) (s.shedTarget converter) < target % 8 ∧ (s.stepSignal converter = true ∨ s.isE Reg.PWM_CONV_SHED_SHED_EN converter = false)))) ((((((((State.reset.setF Reg.PWM_CONV_CFG_ENABLE 1 1).setF Reg.PWM_CONV_CFG_PHASES 4 1).setF Reg.PWM_CONV_PERIOD 160000 1).setF Reg.PWM_CONV_SHED_SHED_EN 1 1).setF Reg.PWM_CONV_SHED_MAX_LEVEL 3 1).setF Reg.PWM_CONV_SEQ_LANES 8 1 0).takeAllEff)) 1 5 500) ∧
    ((fun (s : State) (converter target at16 : Nat) => (s.canonical = true) ∧ (converter < 4) ∧ (s.isE Reg.PWM_CONV_SHED_REQ_SRC converter = false) ∧ (s.maxLevel converter < target % 8 ∨ s.suspended converter = true ∨ (min (s.shedLevel converter) (s.shedTarget converter) < target % 8 ∧ (s.stepSignal converter = true ∨ s.isE Reg.PWM_CONV_SHED_SHED_EN converter = false)))) (((((((((State.reset.setF Reg.PWM_CONV_CFG_ENABLE 1 1).setF Reg.PWM_CONV_CFG_PHASES 4 1).setF Reg.PWM_CONV_PERIOD 160000 1).setF Reg.PWM_CONV_SHED_SHED_EN 1 1).setF Reg.PWM_CONV_SHED_MAX_LEVEL 3 1).setF Reg.PWM_CONV_SEQ_LANES 8 1 0).takeAllEff).setF Reg.PWM_CONV_STAT_STEP_AHEAD 1 1)) 1 2 500) ∧
    ((fun (s : State) (converter at16 : Nat) => (s.canonical = true) ∧ (s.phase0At converter at16 = true) ∧ (s.shedLevel converter < s.shedTarget converter) ∧ ((s.conv converter).reqAt + 1600 ≤ at16) ∧ ((s.conv converter).lastShed.any (fun l => decide (at16 < l + s.shedGap converter * (s.lane (12 * converter)).per)) = false) ∧ (s.stepSignal converter = false) ∧ (s.suspended converter = false) ∧ (s.isE Reg.PWM_CONV_SHED_SHED_EN converter = true) ∧ (s.pwm.notch = none)) (((((((((((State.reset.setF Reg.PWM_CONV_CFG_ENABLE 1 1).setF Reg.PWM_CONV_CFG_PHASES 4 1).setF Reg.PWM_CONV_PERIOD 160000 1).setF Reg.PWM_CONV_SHED_SHED_EN 1 1).setF Reg.PWM_CONV_SHED_MAX_LEVEL 3 1).setF Reg.PWM_CONV_SEQ_LANES 8 1 0).takeAllEff).setConv 1 { run := true, tb := 0 }).setLane 12 { grid := some 0, per := 160000, phase := true }).setF Reg.PWM_CONV_STAT_TARGET 1 1)) 1 320000) ∧
    ((fun (s : State) (converter at16 : Nat) => (s.canonical = true) ∧ (s.phase0At converter at16 = true) ∧ (s.readdLevel converter at16 < s.shedLevel converter) ∧ (s.suspended converter = false) ∧ (s.pwm.notch = none)) ((((((((((((State.reset.setF Reg.PWM_CONV_CFG_ENABLE 1 1).setF Reg.PWM_CONV_CFG_PHASES 4 1).setF Reg.PWM_CONV_PERIOD 160000 1).setF Reg.PWM_CONV_SHED_SHED_EN 1 1).setF Reg.PWM_CONV_SHED_MAX_LEVEL 3 1).setF Reg.PWM_CONV_SEQ_LANES 8 1 0).takeAllEff).setConv 1 { run := true, tb := 0, asks := [(1, 500), (0, 319000)] }).setLane 12 { grid := some 0, per := 160000, phase := true }).setF Reg.PWM_CONV_STAT_TARGET 1 1).setF Reg.PWM_CONV_STAT_LEVEL 3 1)) 1 320000) ∧
    ((fun (s : State) (converter at16 : Nat) => (s.phase0At converter at16 = false ∨ s.shedTarget converter ≤ s.shedLevel converter ∨ at16 < (s.conv converter).reqAt + 1600 ∨ s.stepSignal converter = true ∨ s.suspended converter = true ∨ s.isE Reg.PWM_CONV_SHED_SHED_EN converter = false)) (State.reset) 1 320000) ∧
    ((fun (s : State) (converter at16 : Nat) => (s.phase0At converter at16 = false ∨ s.shedLevel converter ≤ s.readdLevel converter at16 ∨ s.suspended converter = true)) (State.reset) 1 320000) ∧
    ((fun (s : State) (converter at16 : Nat) => (s.canonical = true) ∧ (converter < 4) ∧ (s.stepSignal converter = false)) (((((((((State.reset.setF Reg.PWM_CONV_CFG_ENABLE 1 1).setF Reg.PWM_CONV_CFG_PHASES 4 1).setF Reg.PWM_CONV_PERIOD 160000 1).setF Reg.PWM_CONV_SHED_SHED_EN 1 1).setF Reg.PWM_CONV_SHED_MAX_LEVEL 3 1).setF Reg.PWM_CONV_SEQ_LANES 8 1 0).takeAllEff).setF Reg.PWM_CONV_STAT_INHIBIT 1 1)) 1 9) ∧
    ((fun (s : State) (converter at16 : Nat) => (s.canonical = true) ∧ (converter < 4) ∧ (s.stepSignal converter = true) ∧ (s.shedLevel converter < s.shedTarget converter) ∧ ((s.conv converter).sheds = []) ∧ (s.isE Reg.PWM_CONV_SHED_ADD_ON_STEP converter = false)) ((((((((((State.reset.setF Reg.PWM_CONV_CFG_ENABLE 1 1).setF Reg.PWM_CONV_CFG_PHASES 4 1).setF Reg.PWM_CONV_PERIOD 160000 1).setF Reg.PWM_CONV_SHED_SHED_EN 1 1).setF Reg.PWM_CONV_SHED_MAX_LEVEL 3 1).setF Reg.PWM_CONV_SEQ_LANES 8 1 0).takeAllEff).setF Reg.PWM_CONV_STAT_STEP_AHEAD 1 1).setF Reg.PWM_CONV_STAT_TARGET 2 1)) 1 9) ∧
    ((fun (s : State) (converter at16 : Nat) => (s.canonical = true) ∧ (converter < 4) ∧ (s.stepSignal converter = true) ∧ (0 < s.shedLevel converter) ∧ (s.shedTarget converter = s.shedLevel converter) ∧ ((s.conv converter).sheds = []) ∧ (s.isE Reg.PWM_CONV_SHED_ADD_ON_STEP converter = true)) (((((((State.reset.setF Reg.PWM_CONV_CFG_ENABLE 1 1).setF Reg.PWM_CONV_SHED_ADD_ON_STEP 1 1).takeAllEff).setF Reg.PWM_CONV_STAT_STEP_AHEAD 1 1).setF Reg.PWM_CONV_STAT_TARGET 2 1).setF Reg.PWM_CONV_STAT_LEVEL 2 1)) 1 9) := by
  repeat refine And.intro (by decide +kernel) ?_
  decide +kernel

theorem test_meets_FaultInputsGroupsAndContactors :
    ((fun (s : State) (input lowPs now : Nat) => (s.canonical = true) ∧ (input < 16) ∧ (s.faultOn input = true) ∧ (min 20 (s.effF Reg.PWM_FLT_CFG_FILT input) * 1000 + 5000 ≤ lowPs)) (((((State.reset.setF Reg.CFG_OWN_OWNER 0x10 307).setF Reg.PWM_FLT_CFG_ENABLE 1 3).setF Reg.PWM_FLT_CFG_GROUPS 6 3).takeAllEff)) 3 30000 7) ∧
    ((fun (s : State) (input lowPs now : Nat) => (s.canonical = true) ∧ (input < 16) ∧ (lowPs ≤ min 20 (s.effF Reg.PWM_FLT_CFG_FILT input) * 1000)) (((((State.reset.setF Reg.CFG_OWN_OWNER 0x10 307).setF Reg.PWM_FLT_CFG_ENABLE 1 3).setF Reg.PWM_FLT_CFG_FILT 4 3).takeAllEff)) 3 3000 7) ∧
    ((fun (s : State) (input : Nat) => (s.canonical = true) ∧ (input < 16)) ((((((State.reset.setF Reg.CFG_OWN_OWNER 0x10 307).setF Reg.PWM_FLT_CFG_ENABLE 1 3).takeAllEff).setF Reg.PWM_FLT_RAW 8).setF Reg.PWM_STATUS_FLT_ANY 1)) 3) ∧
    ((fun (s : State) (group now : Nat) => (s.canonical = true) ∧ (group < 8) ∧ (s.tripped group = false)) (((State.reset.setF Reg.PWM_LANE_CFG_GROUP 2 7).takeAllEff)) 2 9) ∧
    ((fun (s : State) (group now : Nat) => (s.canonical = true) ∧ (group < 8) ∧ (s.tripped group = false)) ((((((State.reset.setF Reg.PWM_LANE_CFG_GROUP 2 7).setF Reg.PWM_GRP_CFG_CTR 5 2).setF Reg.PWM_GRP_CFG_CTR_DLY 3 2).takeAllEff).setF Reg.TWN_STATUS_LOCK 1)) 2 9) ∧
    ((fun (s : State) (group now : Nat) => (group < 8) ∧ (s.tripped group = true)) ((State.reset.setF Reg.PWM_GRP_TRIP_TRIP 4)) 2 9) ∧
    ((fun (s : State) (group : Nat) => (s.canonical = true) ∧ (group < 8) ∧ (s.tripped group = true) ∧ (s.groupSource group = false)) ((((State.reset.setF Reg.PWM_LANE_CFG_GROUP 2 7).takeAllEff).setF Reg.PWM_GRP_TRIP_TRIP 4)) 2) ∧
    ((fun (s : State) (group : Nat) => (s.canonical = true) ∧ (group < 8) ∧ (s.tripped group = true) ∧ (s.groupSource group = true)) (((((((State.reset.setF Reg.CFG_OWN_OWNER 0x10 307).setF Reg.PWM_FLT_CFG_ENABLE 1 3).setF Reg.PWM_FLT_CFG_GROUPS 4 3).takeAllEff).setF Reg.PWM_FLT_RAW 8).setF Reg.PWM_GRP_TRIP_TRIP 4)) 2) ∧
    ((fun (s : State) (group now m due : Nat) => (s.canonical = true) ∧ (Sparse.find s.pwm.opening group = some (m, due)) ∧ (due ≤ 16 * now)) ((({ State.reset with pwm := { State.reset.pwm with opening := [(2, (3, 9))] } }).setF Reg.PWM_CTR_CLOSED 6).setF Reg.PWM_CTR_CLOSE 6) 2 1 3 9) ∧
    ((fun (s : State) (group now : Nat) => ((Sparse.find s.pwm.opening group).all (fun (e : Nat × Nat) => 16 * now < e.2) = true)) (State.reset) 2 1) ∧
    ((fun (s : State) (path drive : Nat) => (s.canonical = true) ∧ (drive < 4) ∧ (pathOwner path = 0x40) ∧ (s.driveBarred drive = false) ∧ (s.cfg.noImage = false)) (State.reset) 0 2) ∧
    ((fun (s : State) (path drive : Nat) => (s.canonical = true) ∧ (drive < 4) ∧ (pathOwner path = 0x40) ∧ (s.driveBarred drive = false) ∧ (s.cfg.noImage = false)) ((State.reset.setF Reg.TWN_STATUS_LOCK 1)) 0 2) ∧
    ((fun (s : State) (path drive : Nat) => (4 ≤ drive ∨ pathOwner path ≠ 0x40 ∨ s.driveBarred drive = true ∨ s.cfg.noImage = true)) (State.reset) 2 2) := by
  repeat refine And.intro (by decide +kernel) ?_
  decide +kernel

theorem test_meets_WindbreakStatusAndLaneScoring :
    ((fun (s : State) => (s.canonical = true) ∧ (s.wb.entryFrame + 10000 ≤ s.frame) ∧ (s.wb.queue = []) ∧ (s.isF Reg.WB_STATUS_LOCAL_TARGET = false)) ({ State.reset with frame := 10000 })) ∧
    ((fun (s : State) => (s.frame < s.wb.entryFrame + 10000 ∨ s.wb.queue ≠ [] ∨ s.isF Reg.WB_STATUS_LOCAL_TARGET = true)) (State.reset)) ∧
    ((fun (s : State) => (s.canonical = true) ∧ (8 ≤ s.wb.bad) ∧ (s.isF Reg.WB_STATUS_FEED_BAD = false)) ({ State.reset with wb := { State.reset.wb with bad := 8 } })) ∧
    ((fun (s : State) => (s.canonical = true) ∧ (8 ≤ s.wb.good)) (({ State.reset with wb := { State.reset.wb with good := 8 } }).setF Reg.WB_STATUS_FEED_BAD 1)) ∧
    ((fun (s : State) => (100 ≤ s.wb.free)) ({ State.reset with wb := { State.reset.wb with free := 100, reserve := true } })) ∧
    ((fun (s : State) => (s.canonical = true)) (State.reset)) ∧
    ((fun (s : State) => (s.canonical = true)) ((State.reset.setF Reg.WB_STATUS_HOLD_CMD 1).setF Reg.TWN_STATUS_LOCK 1)) ∧
    ((fun (s : State) => (s.canonical = true)) ((State.reset.setF Reg.WB_DEV20_MAX 9))) ∧
    ((fun (s : State) (lane : Nat) => (s.canonical = true) ∧ (lane < 64) ∧ (4 ≤ (s.wbLane lane).missed) ∧ ((s.wbLane lane).active.isSome = true) ∧ ((s.wbLane lane).staged = none)) (((State.reset.setWbLane 3 { active := some ⟨1, 0, 0, 0, 0, 0, [], [], 0⟩, missed := 4 }).setF Reg.WB_LANE_STAT_STATE 2 3)) 3) ∧
    ((fun (s : State) (lane : Nat) => ((s.wbLane lane).missed < 4 ∨ (s.wbLane lane).active = none ∨ (s.wbLane lane).staged ≠ none)) (State.reset) 3) ∧
    ((fun (s : State) (lane ago span : Nat) (d : Rat) => (s.canonical = true) ∧ (s.stepRipe lane ago span = true) ∧ ((s.wbLane lane).stepOf ago span = some d) ∧ (s.bigStep d = true) ∧ ((s.wbLane lane).demoted = false) ∧ ((s.stepHit ago d) = true ∨ s.missesAfter lane (s.stepHit ago d) < min 16 (max 1 (s.effF Reg.WB_MISS_CFG_MISS_LIMIT)))) ((((({ State.reset with frame := 200, wb := { State.reset.wb with entry := some ⟨1, 0, 0, 0, 0, 0, 0, 0, 0, [(0, 10, 10)]⟩, frameLoads := ((List.range 220).map fun (k : Nat) => (10000 * (220 - k : Nat) : Int)) } }).setWbLane 3 { active := some ⟨1, 0, 0, 0, 0, 0, [], [], 0⟩, scores := [], demoted := false, used := List.replicate 50 1000000 ++ List.replicate 70 0 }).setF Reg.WB_LANE_STAT_STATE 2 3).takeAllEff)) 3 110 100 1000000) ∧
    ((fun (s : State) (lane ago span : Nat) (d : Rat) => (s.canonical = true) ∧ (s.stepRipe lane ago span = true) ∧ ((s.wbLane lane).stepOf ago span = some d) ∧ (s.bigStep d = true) ∧ ((s.wbLane lane).demoted = false) ∧ ((s.stepHit ago d) = true ∨ s.missesAfter lane (s.stepHit ago d) < min 16 (max 1 (s.effF Reg.WB_MISS_CFG_MISS_LIMIT)))) ((((({ State.reset with frame := 200, wb := { State.reset.wb with entry := some ⟨1, 0, 0, 0, 0, 0, 0, 0, 0, [(0, 10, 10)]⟩, frameLoads := [] } }).setWbLane 3 { active := some ⟨1, 0, 0, 0, 0, 0, [], [], 0⟩, scores := [true, false], demoted := false, used := List.replicate 50 1000000 ++ List.replicate 70 0 }).setF Reg.WB_LANE_STAT_STATE 2 3).takeAllEff)) 3 110 100 1000000) ∧
    ((fun (s : State) (lane ago span : Nat) (d : Rat) => (s.canonical = true) ∧ (s.stepRipe lane ago span = true) ∧ ((s.wbLane lane).stepOf ago span = some d) ∧ (s.bigStep d = true) ∧ ((s.wbLane lane).demoted = false) ∧ ((s.stepHit ago d) = true ∨ s.missesAfter lane (s.stepHit ago d) < min 16 (max 1 (s.effF Reg.WB_MISS_CFG_MISS_LIMIT)))) ((((({ State.reset with frame := 200, wb := { State.reset.wb with entry := some ⟨1, 0, 0, 0, 0, 0, 0, 0, 0, [(0, 10, 10)]⟩, frameLoads := ((List.range 220).map fun (k : Nat) => (10000 * (220 - k : Nat) : Int)) } }).setWbLane 3 { active := some ⟨1, 0, 0, 0, 0, 0, [], [], 0⟩, scores := List.replicate 15 false, demoted := false, used := List.replicate 50 1000000 ++ List.replicate 70 0 }).setF Reg.WB_LANE_STAT_STATE 2 3).takeAllEff)) 3 110 100 1000000) ∧
    ((fun (s : State) (lane ago span : Nat) (d : Rat) => (s.canonical = true) ∧ (s.stepRipe lane ago span = true) ∧ ((s.wbLane lane).stepOf ago span = some d) ∧ (s.bigStep d = true) ∧ ((s.wbLane lane).demoted = false) ∧ ((s.stepHit ago d) = false) ∧ (min 16 (max 1 (s.effF Reg.WB_MISS_CFG_MISS_LIMIT)) ≤ s.missesAfter lane (s.stepHit ago d))) ((((({ State.reset with frame := 200, wb := { State.reset.wb with entry := some ⟨1, 0, 0, 0, 0, 0, 0, 0, 0, [(0, 10, 10)]⟩, frameLoads := [] } }).setWbLane 3 { active := some ⟨1, 0, 0, 0, 0, 0, [], [], 0⟩, scores := List.replicate 15 false, demoted := false, used := List.replicate 50 1000000 ++ List.replicate 70 0 }).setF Reg.WB_LANE_STAT_STATE 2 3).takeAllEff)) 3 110 100 1000000) ∧
    ((fun (s : State) (lane ago span : Nat) (d : Rat) => (s.canonical = true) ∧ (s.stepRipe lane ago span = true) ∧ ((s.wbLane lane).stepOf ago span = some d) ∧ (s.bigStep d = true) ∧ ((s.wbLane lane).demoted = true)) ((((({ State.reset with frame := 200, wb := { State.reset.wb with entry := some ⟨1, 0, 0, 0, 0, 0, 0, 0, 0, [(0, 10, 10)]⟩, frameLoads := ((List.range 220).map fun (k : Nat) => (10000 * (220 - k : Nat) : Int)) } }).setWbLane 3 { active := some ⟨1, 0, 0, 0, 0, 0, [], [], 0⟩, scores := [], demoted := true, used := List.replicate 50 1000000 ++ List.replicate 70 0 }).setF Reg.WB_LANE_STAT_STATE 3 3).takeAllEff)) 3 110 100 1000000) ∧
    ((fun (s : State) (lane ago span : Nat) (d : Rat) => (s.canonical = true) ∧ (s.stepRipe lane ago span = true) ∧ ((s.wbLane lane).stepOf ago span = some d) ∧ (s.bigStep d = true) ∧ ((s.wbLane lane).demoted = true)) (((((({ State.reset with frame := 200, wb := { State.reset.wb with entry := some ⟨1, 0, 0, 0, 0, 0, 0, 0, 0, [(0, 10, 10)]⟩, frameLoads := ((List.range 220).map fun (k : Nat) => (10000 * (220 - k : Nat) : Int)) } }).setWbLane 3 { active := some ⟨1, 0, 0, 0, 0, 0, [], [], 0⟩, scores := [], demoted := true, used := List.replicate 50 1000000 ++ List.replicate 70 0 }).setF Reg.WB_LANE_STAT_STATE 3 3).takeAllEff).setF Reg.WB_LANE_STAT_HITS 7 3)) 3 110 100 1000000) ∧
    ((fun (s : State) (lane ago span : Nat) => (s.stepRipe lane ago span = false ∨ ((s.wbLane lane).stepOf ago span).all (fun (d : Rat) => !s.bigStep d) = true)) (State.reset) 3 110 100) ∧
    ((fun (s : State) (lane : Nat) => (lane < 64) ∧ ((s.wbLane lane).demoted = true)) ((State.reset.setWbLane 3 { demoted := true })) 3) := by
  repeat refine And.intro (by decide +kernel) ?_
  decide +kernel

theorem test_meets_ScalarInstructionsOfACore :
    ((fun (s : State) (k now cycle len : Nat) (upset : Option (Nat × Bool)) (u : State) (op : AluOp) (w : Bool) (rd a b : Nat) => (s.standsInstr k (.alu op w rd a b) len = true) ∧ (u = s.lmUpset k upset)) ((({ State.reset with th := { State.reset.th with core := [(3, { run := .running, pc := 0x100000000, x := [(11, 7), (12, 9)] })], part := [(0, { words := [2 ^ 31, 8] })] } }).memWrite 0x1040000000 [51#8, 133#8, 197#8, 0#8])) 3 1000 77 4 none ((({ State.reset with th := { State.reset.th with core := [(3, { run := .running, pc := 0x100000000, x := [(11, 7), (12, 9)] })], part := [(0, { words := [2 ^ 31, 8] })] } }).memWrite 0x1040000000 [51#8, 133#8, 197#8, 0#8]).lmUpset 3 none) .add false 10 11 12) ∧
    ((fun (s : State) (k now cycle len : Nat) (upset : Option (Nat × Bool)) (u : State) (op : AluOp) (w : Bool) (rd a : Nat) (imm : Int) => (s.standsInstr k (.aluImm op w rd a imm) len = true) ∧ (u = s.lmUpset k upset)) ((({ State.reset with th := { State.reset.th with core := [(3, { run := .running, pc := 0x100000000, x := [(11, 7)] })], part := [(0, { words := [2 ^ 31, 8] })] } }).memWrite 0x1040000000 [19#8, 133#8, 245#8, 255#8])) 3 1000 77 4 none ((({ State.reset with th := { State.reset.th with core := [(3, { run := .running, pc := 0x100000000, x := [(11, 7)] })], part := [(0, { words := [2 ^ 31, 8] })] } }).memWrite 0x1040000000 [19#8, 133#8, 245#8, 255#8]).lmUpset 3 none) .add false 10 11 (-1)) ∧
    ((fun (s : State) (k now cycle len : Nat) (upset : Option (Nat × Bool)) (u : State) (op : BrOp) (a b : Nat) (imm : Int) => (s.standsInstr k (.branch op a b imm) len = true) ∧ (u = s.lmUpset k upset) ∧ (brTaken op ((u.core k).rx a) ((u.core k).rx b) = true)) ((({ State.reset with th := { State.reset.th with core := [(3, { run := .running, pc := 0x100000000, x := [(11, 7), (12, 7)] })], part := [(0, { words := [2 ^ 31, 8] })] } }).memWrite 0x1040000000 [99#8, 132#8, 197#8, 0#8])) 3 1000 77 4 none ((({ State.reset with th := { State.reset.th with core := [(3, { run := .running, pc := 0x100000000, x := [(11, 7), (12, 7)] })], part := [(0, { words := [2 ^ 31, 8] })] } }).memWrite 0x1040000000 [99#8, 132#8, 197#8, 0#8]).lmUpset 3 none) .eq 11 12 8) ∧
    ((fun (s : State) (k now cycle len : Nat) (upset : Option (Nat × Bool)) (u : State) (op : BrOp) (a b : Nat) (imm : Int) => (s.standsInstr k (.branch op a b imm) len = true) ∧ (u = s.lmUpset k upset) ∧ (brTaken op ((u.core k).rx a) ((u.core k).rx b) = false)) ((({ State.reset with th := { State.reset.th with core := [(3, { run := .running, pc := 0x100000000, x := [(11, 7), (12, 8)] })], part := [(0, { words := [2 ^ 31, 8] })] } }).memWrite 0x1040000000 [99#8, 132#8, 197#8, 0#8])) 3 1000 77 4 none ((({ State.reset with th := { State.reset.th with core := [(3, { run := .running, pc := 0x100000000, x := [(11, 7), (12, 8)] })], part := [(0, { words := [2 ^ 31, 8] })] } }).memWrite 0x1040000000 [99#8, 132#8, 197#8, 0#8]).lmUpset 3 none) .eq 11 12 8) ∧
    ((fun (s : State) (k now cycle len : Nat) (upset : Option (Nat × Bool)) (u : State) (rd : Nat) (imm : Int) => (s.standsInstr k (.jal rd imm) len = true) ∧ (u = s.lmUpset k upset)) ((({ State.reset with th := { State.reset.th with core := [(3, { run := .running, pc := 0x100000000, x := [] })], part := [(0, { words := [2 ^ 31, 8] })] } }).memWrite 0x1040000000 [239#8, 0#8, 128#8, 0#8])) 3 1000 77 4 none ((({ State.reset with th := { State.reset.th with core := [(3, { run := .running, pc := 0x100000000, x := [] })], part := [(0, { words := [2 ^ 31, 8] })] } }).memWrite 0x1040000000 [239#8, 0#8, 128#8, 0#8]).lmUpset 3 none) 1 8) ∧
    ((fun (s : State) (k now cycle len : Nat) (upset : Option (Nat × Bool)) (u : State) (rd rs1 : Nat) (imm : Int) => (s.standsInstr k (.jalr rd rs1 imm) len = true) ∧ (u = s.lmUpset k upset)) ((({ State.reset with th := { State.reset.th with core := [(3, { run := .running, pc := 0x100000000, x := [(11, 0x100000001)] })], part := [(0, { words := [2 ^ 31, 8] })] } }).memWrite 0x1040000000 [103#8, 133#8, 133#8, 0#8])) 3 1000 77 4 none ((({ State.reset with th := { State.reset.th with core := [(3, { run := .running, pc := 0x100000000, x := [(11, 0x100000001)] })], part := [(0, { words := [2 ^ 31, 8] })] } }).memWrite 0x1040000000 [103#8, 133#8, 133#8, 0#8]).lmUpset 3 none) 10 11 8) ∧
    ((fun (s : State) (k now cycle len : Nat) (upset : Option (Nat × Bool)) (u : State) (n : Nat) (sg : Bool) (rd rs1 a : Nat) (imm : Int) => (s.standsInstr k (.load n sg rd rs1 imm) len = true) ∧ (u = s.lmUpset k upset) ∧ (a = ((unsign 64 (((u.core k).rx rs1 : Int) + imm)))) ∧ (a % n = 0) ∧ (inLocal a n = true) ∧ ((u.core k).lmBad a n = false)) ((({ State.reset with th := { State.reset.th with core := [(3, { run := .running, pc := 0x100000000, x := [(11, 0x10000000)], mem := [(4, 0x80#8)] })], part := [(0, { words := [2 ^ 31, 8] })] } }).memWrite 0x1040000000 [3#8, 133#8, 69#8, 0#8])) 3 1000 77 4 none ((({ State.reset with th := { State.reset.th with core := [(3, { run := .running, pc := 0x100000000, x := [(11, 0x10000000)], mem := [(4, 0x80#8)] })], part := [(0, { words := [2 ^ 31, 8] })] } }).memWrite 0x1040000000 [3#8, 133#8, 69#8, 0#8]).lmUpset 3 none) 1 true 10 11 0x10000004 4) ∧
    ((fun (s : State) (k now cycle len : Nat) (upset : Option (Nat × Bool)) (u : State) (n : Nat) (sg : Bool) (rd rs1 a : Nat) (imm : Int) => (s.standsInstr k (.load n sg rd rs1 imm) len = true) ∧ (u = s.lmUpset k upset) ∧ (a = ((unsign 64 (((u.core k).rx rs1 : Int) + imm)))) ∧ (a % n = 0) ∧ (inLocal a n = true) ∧ ((u.core k).lmBad a n = true)) ((({ State.reset with th := { State.reset.th with core := [(3, { run := .running, pc := 0x100000000, x := [(11, 0x10000000)], bad := [(0, true)] })], part := [(0, { words := [2 ^ 31, 8] })] } }).memWrite 0x1040000000 [3#8, 133#8, 69#8, 0#8])) 3 1000 77 4 none ((({ State.reset with th := { State.reset.th with core := [(3, { run := .running, pc := 0x100000000, x := [(11, 0x10000000)], bad := [(0, true)] })], part := [(0, { words := [2 ^ 31, 8] })] } }).memWrite 0x1040000000 [3#8, 133#8, 69#8, 0#8]).lmUpset 3 none) 1 true 10 11 0x10000004 4) ∧
    ((fun (s : State) (k now cycle len : Nat) (upset : Option (Nat × Bool)) (u : State) (n : Nat) (sg : Bool) (rd rs1 a : Nat) (imm : Int) => (s.standsInstr k (.load n sg rd rs1 imm) len = true) ∧ (u = s.lmUpset k upset) ∧ (a = ((unsign 64 (((u.core k).rx rs1 : Int) + imm)))) ∧ (a % n ≠ 0)) ((({ State.reset with th := { State.reset.th with core := [(3, { run := .running, pc := 0x100000000, x := [(11, 0x10000000)] })], part := [(0, { words := [2 ^ 31, 8] })] } }).memWrite 0x1040000000 [3#8, 181#8, 69#8, 0#8])) 3 1000 77 4 none ((({ State.reset with th := { State.reset.th with core := [(3, { run := .running, pc := 0x100000000, x := [(11, 0x10000000)] })], part := [(0, { words := [2 ^ 31, 8] })] } }).memWrite 0x1040000000 [3#8, 181#8, 69#8, 0#8]).lmUpset 3 none) 8 true 10 11 0x10000004 4) ∧
    ((fun (s : State) (k now cycle len : Nat) (upset : Option (Nat × Bool)) (u : State) (n rs1 rs2 a : Nat) (imm : Int) => (s.standsInstr k (.store n rs1 rs2 imm) len = true) ∧ (u = s.lmUpset k upset) ∧ (a = ((unsign 64 (((u.core k).rx rs1 : Int) + imm)))) ∧ (a % n = 0) ∧ (inLocal a n = true)) ((({ State.reset with th := { State.reset.th with core := [(3, { run := .running, pc := 0x100000000, x := [(11, 0x10000008), (12, 4386)] })], part := [(0, { words := [2 ^ 31, 8] })] } }).memWrite 0x1040000000 [35#8, 176#8, 197#8, 0#8])) 3 1000 77 4 none ((({ State.reset with th := { State.reset.th with core := [(3, { run := .running, pc := 0x100000000, x := [(11, 0x10000008), (12, 4386)] })], part := [(0, { words := [2 ^ 31, 8] })] } }).memWrite 0x1040000000 [35#8, 176#8, 197#8, 0#8]).lmUpset 3 none) 8 11 12 0x10000008 0) ∧
    ((fun (s : State) (k now cycle len : Nat) (upset : Option (Nat × Bool)) (u : State) (n rs1 rs2 a : Nat) (imm : Int) => (s.standsInstr k (.store n rs1 rs2 imm) len = true) ∧ (u = s.lmUpset k upset) ∧ (a = ((unsign 64 (((u.core k).rx rs1 : Int) + imm)))) ∧ (a % n ≠ 0 ∨ inLocal a n = false)) ((({ State.reset with th := { State.reset.th with core := [(3, { run := .running, pc := 0x100000000, x := [(11, 0x10000004), (12, 4386)] })], part := [(0, { words := [2 ^ 31, 8] })] } }).memWrite 0x1040000000 [35#8, 176#8, 197#8, 0#8])) 3 1000 77 4 none ((({ State.reset with th := { State.reset.th with core := [(3, { run := .running, pc := 0x100000000, x := [(11, 0x10000004), (12, 4386)] })], part := [(0, { words := [2 ^ 31, 8] })] } }).memWrite 0x1040000000 [35#8, 176#8, 197#8, 0#8]).lmUpset 3 none) 8 11 12 0x10000004 0) ∧
    ((fun (s : State) (k now cycle len : Nat) (upset : Option (Nat × Bool)) (u : State) (n rd rs1 : Nat) => (s.standsInstr k (.lr n rd rs1) len = true) ∧ (u = s.lmUpset k upset) ∧ ((u.core k).rx rs1 % n = 0) ∧ (inLocal ((u.core k).rx rs1) n = true) ∧ ((u.core k).lmBad ((u.core k).rx rs1) n = false)) ((({ State.reset with th := { State.reset.th with core := [(3, { run := .running, pc := 0x100000000, x := [(11, 0x10000008)], mem := [(8, 0x80#8)] })], part := [(0, { words := [2 ^ 31, 8] })] } }).memWrite 0x1040000000 [47#8, 165#8, 5#8, 16#8])) 3 1000 77 4 none ((({ State.reset with th := { State.reset.th with core := [(3, { run := .running, pc := 0x100000000, x := [(11, 0x10000008)], mem := [(8, 0x80#8)] })], part := [(0, { words := [2 ^ 31, 8] })] } }).memWrite 0x1040000000 [47#8, 165#8, 5#8, 16#8]).lmUpset 3 none) 4 10 11) ∧
    ((fun (s : State) (k now cycle len : Nat) (upset : Option (Nat × Bool)) (u : State) (n rd rs1 rs2 : Nat) => (s.standsInstr k (.sc n rd rs1 rs2) len = true) ∧ (u = s.lmUpset k upset) ∧ ((u.core k).rx rs1 % n = 0) ∧ (inLocal ((u.core k).rx rs1) n = true) ∧ ((u.core k).resv = some ((u.core k).rx rs1, n))) ((({ State.reset with th := { State.reset.th with core := [(3, { run := .running, pc := 0x100000000, x := [(11, 0x10000008), (12, 5)], resv := some (0x10000008, 4) })], part := [(0, { words := [2 ^ 31, 8] })] } }).memWrite 0x1040000000 [47#8, 165#8, 197#8, 24#8])) 3 1000 77 4 none ((({ State.reset with th := { State.reset.th with core := [(3, { run := .running, pc := 0x100000000, x := [(11, 0x10000008), (12, 5)], resv := some (0x10000008, 4) })], part := [(0, { words := [2 ^ 31, 8] })] } }).memWrite 0x1040000000 [47#8, 165#8, 197#8, 24#8]).lmUpset 3 none) 4 10 11 12) ∧
    ((fun (s : State) (k now cycle len : Nat) (upset : Option (Nat × Bool)) (u : State) (n rd rs1 rs2 : Nat) => (s.standsInstr k (.sc n rd rs1 rs2) len = true) ∧ (u = s.lmUpset k upset) ∧ ((u.core k).rx rs1 % n = 0) ∧ (inLocal ((u.core k).rx rs1) n = true) ∧ ((u.core k).resv ≠ some ((u.core k).rx rs1, n))) ((({ State.reset with th := { State.reset.th with core := [(3, { run := .running, pc := 0x100000000, x := [(11, 0x10000008), (12, 5)] })], part := [(0, { words := [2 ^ 31, 8] })] } }).memWrite 0x1040000000 [47#8, 165#8, 197#8, 24#8])) 3 1000 77 4 none ((({ State.reset with th := { State.reset.th with core := [(3, { run := .running, pc := 0x100000000, x := [(11, 0x10000008), (12, 5)] })], part := [(0, { words := [2 ^ 31, 8] })] } }).memWrite 0x1040000000 [47#8, 165#8, 197#8, 24#8]).lmUpset 3 none) 4 10 11 12) ∧
    ((fun (s : State) (k now cycle len : Nat) (upset : Option (Nat × Bool)) (u : State) (op : CsrOp) (im : Bool) (rd src csr old : Nat) => (s.standsInstr k (.csr op im rd src csr) len = true) ∧ (u = s.lmUpset k upset) ∧ (op ≠ CsrOp.write) ∧ (src = 0) ∧ (u.csrRead k now cycle csr = some old)) ((({ State.reset with th := { State.reset.th with core := [(3, { run := .running, pc := 0x100000000, x := [] })], part := [(0, { words := [2 ^ 31, 8] })] } }).memWrite 0x1040000000 [115#8, 37#8, 0#8, 204#8])) 3 1000 77 4 none ((({ State.reset with th := { State.reset.th with core := [(3, { run := .running, pc := 0x100000000, x := [] })], part := [(0, { words := [2 ^ 31, 8] })] } }).memWrite 0x1040000000 [115#8, 37#8, 0#8, 204#8]).lmUpset 3 none) .set false 10 0 0xCC0 0x100003) ∧
    ((fun (s : State) (k now cycle len : Nat) (upset : Option (Nat × Bool)) (u : State) (op : CsrOp) (im : Bool) (rd src csr : Nat) => (s.standsInstr k (.csr op im rd src csr) len = true) ∧ (u = s.lmUpset k upset) ∧ (u.csrRead k now cycle csr = none)) ((({ State.reset with th := { State.reset.th with core := [(3, { run := .running, pc := 0x100000000, x := [] })], part := [(0, { words := [2 ^ 31, 8] })] } }).memWrite 0x1040000000 [115#8, 37#8, 0#8, 48#8])) 3 1000 77 4 none ((({ State.reset with th := { State.reset.th with core := [(3, { run := .running, pc := 0x100000000, x := [] })], part := [(0, { words := [2 ^ 31, 8] })] } }).memWrite 0x1040000000 [115#8, 37#8, 0#8, 48#8]).lmUpset 3 none) .set false 10 0 0x300) ∧
    ((fun (s : State) (k now cycle len : Nat) (upset : Option (Nat × Bool)) (u : State) (op : AmoOp) (n rd rs1 rs2 : Nat) => (s.standsInstr k (.amo op n rd rs1 rs2) len = true) ∧ (u = s.lmUpset k upset) ∧ ((u.core k).rx rs1 % n = 0) ∧ (inLocal ((u.core k).rx rs1) n = true) ∧ ((u.core k).lmBad ((u.core k).rx rs1) n = false)) ((({ State.reset with th := { State.reset.th with core := [(3, { run := .running, pc := 0x100000000, x := [(11, 0x10000008), (12, 5)], mem := [(8, 0x80#8)] })], part := [(0, { words := [2 ^ 31, 8] })] } }).memWrite 0x1040000000 [47#8, 165#8, 197#8, 0#8])) 3 1000 77 4 none ((({ State.reset with th := { State.reset.th with core := [(3, { run := .running, pc := 0x100000000, x := [(11, 0x10000008), (12, 5)], mem := [(8, 0x80#8)] })], part := [(0, { words := [2 ^ 31, 8] })] } }).memWrite 0x1040000000 [47#8, 165#8, 197#8, 0#8]).lmUpset 3 none) .add 4 10 11 12) ∧
    ((fun (s : State) (k now cycle len : Nat) (upset : Option (Nat × Bool)) (u : State) (d : Bool) (rd rs1 rs2 rm m : Nat) => (s.standsInstr k (.fop .mul d rd rs1 rs2 rm) len = true) ∧ (u = s.lmUpset k upset) ∧ ((u.core k).mode rm = some m)) ((({ State.reset with th := { State.reset.th with core := [(3, { run := .running, pc := 0x100000000, x := [], f := [(11, 0x4008000000000000), (12, 0x4000000000000000)] })], part := [(0, { words := [2 ^ 31, 8] })] } }).memWrite 0x1040000000 [83#8, 245#8, 197#8, 18#8])) 3 1000 77 4 none ((({ State.reset with th := { State.reset.th with core := [(3, { run := .running, pc := 0x100000000, x := [], f := [(11, 0x4008000000000000), (12, 0x4000000000000000)] })], part := [(0, { words := [2 ^ 31, 8] })] } }).memWrite 0x1040000000 [83#8, 245#8, 197#8, 18#8]).lmUpset 3 none) true 10 11 12 7 0) ∧
    ((fun (s : State) (k now cycle len : Nat) (upset : Option (Nat × Bool)) => (k < 256) ∧ (s.coreReady k = true) ∧ (s.fetch k = some (none, len))) ((({ State.reset with th := { State.reset.th with core := [(3, { run := .running, pc := 0x100000000, x := [] })], part := [(0, { words := [2 ^ 31, 8] })] } }).memWrite 0x1040000000 [127#8, 0#8, 0#8, 0#8])) 3 0 0 4 none) ∧
    ((fun (s : State) (k now cycle : Nat) (upset : Option (Nat × Bool)) => (k < 256) ∧ (s.coreReady k = true) ∧ (s.fetch k = none)) ((({ State.reset with th := { State.reset.th with core := [(3, { run := .running, pc := 0x100000000, x := [] })], part := [(0, { words := [2 ^ 31, 0] })] } }).memWrite 0x1040000000 [127#8, 0#8, 0#8, 0#8])) 3 0 0 none) := by
  repeat refine And.intro (by decide +kernel) ?_
  decide +kernel

theorem test_meets_CoresSendMessages :
    ((fun (s : State) (k rd rs1 rs2 : Nat) (upset : Option (Nat × Bool)) (u : State) (now : Nat) (ep len : Nat) (e : SendEnd) => (s.standsAt k .send rd rs1 rs2 = true) ∧ (u = s.lmUpset k upset) ∧ ((u.core k).sendFits rs2 ep len e = true) ∧ (0 < e.credits) ∧ ((u.core k).payloadAt ((u.core k).rx rs1) len = true)) ((({ State.reset with th := { State.reset.th with core := [(3, { run := .running, pc := 0x100000000, x := [(11, 0x10000010), (12, 5 + 16 * 65536)], send := [(5, { core := 4, ch := 2, log2 := 6, credits := 2, seq := 8 })], mem := [(16, 7#8)], sendto := 50 })], part := [(0, { words := [2 ^ 31, 24] })] } }).memWrite 0x1040000000 [11#8, 133#8, 197#8, 0#8])) 3 10 11 12 (none) ((({ State.reset with th := { State.reset.th with core := [(3, { run := .running, pc := 0x100000000, x := [(11, 0x10000010), (12, 5 + 16 * 65536)], send := [(5, { core := 4, ch := 2, log2 := 6, credits := 2, seq := 8 })], mem := [(16, 7#8)], sendto := 50 })], part := [(0, { words := [2 ^ 31, 24] })] } }).memWrite 0x1040000000 [11#8, 133#8, 197#8, 0#8]).lmUpset 3 (none)) 1000 5 16 ⟨4, 2, 6, 2, 0, 8⟩) ∧
    ((fun (s : State) (k rd rs1 rs2 : Nat) (upset : Option (Nat × Bool)) (u : State) (now : Nat) (ep len : Nat) (e : SendEnd) => (s.standsAt k .send rd rs1 rs2 = true) ∧ (u = s.lmUpset k upset) ∧ ((u.core k).sendFits rs2 ep len e = true) ∧ (0 < e.credits) ∧ ((u.core k).rx rs1 % 8 ≠ 0)) ((({ State.reset with th := { State.reset.th with core := [(3, { run := .running, pc := 0x100000000, x := [(11, 0x10000011), (12, 5 + 16 * 65536)], send := [(5, { core := 4, ch := 2, log2 := 6, credits := 2, seq := 8 })], mem := [(16, 7#8)], sendto := 50 })], part := [(0, { words := [2 ^ 31, 24] })] } }).memWrite 0x1040000000 [11#8, 133#8, 197#8, 0#8])) 3 10 11 12 (none) ((({ State.reset with th := { State.reset.th with core := [(3, { run := .running, pc := 0x100000000, x := [(11, 0x10000011), (12, 5 + 16 * 65536)], send := [(5, { core := 4, ch := 2, log2 := 6, credits := 2, seq := 8 })], mem := [(16, 7#8)], sendto := 50 })], part := [(0, { words := [2 ^ 31, 24] })] } }).memWrite 0x1040000000 [11#8, 133#8, 197#8, 0#8]).lmUpset 3 (none)) 1000 5 16 ⟨4, 2, 6, 2, 0, 8⟩) ∧
    ((fun (s : State) (k rd rs1 rs2 : Nat) (upset : Option (Nat × Bool)) (u : State) (now : Nat) (ep len : Nat) (e : SendEnd) => (s.standsAt k .send rd rs1 rs2 = true) ∧ (u = s.lmUpset k upset) ∧ ((u.core k).sendFits rs2 ep len e = true) ∧ (e.credits = 0)) ((({ State.reset with th := { State.reset.th with core := [(3, { run := .running, pc := 0x100000000, x := [(11, 0x10000010), (12, 5 + 16 * 65536)], send := [(5, { core := 4, ch := 2, log2 := 6, credits := 0, seq := 8 })], mem := [(16, 7#8)], sendto := 50 })], part := [(0, { words := [2 ^ 31, 24] })] } }).memWrite 0x1040000000 [11#8, 133#8, 197#8, 0#8])) 3 10 11 12 (none) ((({ State.reset with th := { State.reset.th with core := [(3, { run := .running, pc := 0x100000000, x := [(11, 0x10000010), (12, 5 + 16 * 65536)], send := [(5, { core := 4, ch := 2, log2 := 6, credits := 0, seq := 8 })], mem := [(16, 7#8)], sendto := 50 })], part := [(0, { words := [2 ^ 31, 24] })] } }).memWrite 0x1040000000 [11#8, 133#8, 197#8, 0#8]).lmUpset 3 (none)) 1000 5 16 ⟨4, 2, 6, 0, 0, 8⟩) ∧
    ((fun (s : State) (k rd rs1 rs2 : Nat) (upset : Option (Nat × Bool)) (u : State) (now : Nat) (ep len : Nat) => (s.standsAt k .send rd rs1 rs2 = true) ∧ (u = s.lmUpset k upset) ∧ (ep < 32) ∧ (len < 8192) ∧ ((u.core k).rx rs2 = ep + len * 65536) ∧ (Sparse.find (u.core k).send ep = none)) ((({ State.reset with th := { State.reset.th with core := [(3, { run := .running, pc := 0x100000000, x := [(11, 0x10000010), (12, 6 + 16 * 65536)], send := [(5, { core := 4, ch := 2, log2 := 6, credits := 2, seq := 8 })], mem := [(16, 7#8)], sendto := 50 })], part := [(0, { words := [2 ^ 31, 24] })] } }).memWrite 0x1040000000 [11#8, 133#8, 197#8, 0#8])) 3 10 11 12 (none) ((({ State.reset with th := { State.reset.th with core := [(3, { run := .running, pc := 0x100000000, x := [(11, 0x10000010), (12, 6 + 16 * 65536)], send := [(5, { core := 4, ch := 2, log2 := 6, credits := 2, seq := 8 })], mem := [(16, 7#8)], sendto := 50 })], part := [(0, { words := [2 ^ 31, 24] })] } }).memWrite 0x1040000000 [11#8, 133#8, 197#8, 0#8]).lmUpset 3 (none)) 1000 6 16) ∧
    ((fun (s : State) (k rd rs1 rs2 : Nat) (upset : Option (Nat × Bool)) (u : State) (now : Nat) (ep len : Nat) (e : SendEnd) => (s.standsAt k .send rd rs1 rs2 = true) ∧ (u = s.lmUpset k upset) ∧ (ep < 32) ∧ (len < 8192) ∧ ((u.core k).rx rs2 = ep + len * 65536) ∧ (Sparse.find (u.core k).send ep = some e) ∧ (len % 8 ≠ 0 ∨ len < 8 ∨ 2 ^ e.log2 < len + 8)) ((({ State.reset with th := { State.reset.th with core := [(3, { run := .running, pc := 0x100000000, x := [(11, 0x10000010), (12, 5 + 64 * 65536)], send := [(5, { core := 4, ch := 2, log2 := 6, credits := 2, seq := 8 })], mem := [(16, 7#8)], sendto := 50 })], part := [(0, { words := [2 ^ 31, 24] })] } }).memWrite 0x1040000000 [11#8, 133#8, 197#8, 0#8])) 3 10 11 12 (none) ((({ State.reset with th := { State.reset.th with core := [(3, { run := .running, pc := 0x100000000, x := [(11, 0x10000010), (12, 5 + 64 * 65536)], send := [(5, { core := 4, ch := 2, log2 := 6, credits := 2, seq := 8 })], mem := [(16, 7#8)], sendto := 50 })], part := [(0, { words := [2 ^ 31, 24] })] } }).memWrite 0x1040000000 [11#8, 133#8, 197#8, 0#8]).lmUpset 3 (none)) 1000 5 64 ⟨4, 2, 6, 2, 0, 8⟩) ∧
    ((fun (s : State) (k rd rs1 rs2 : Nat) (upset : Option (Nat × Bool)) (u : State) (now : Nat)  => (s.standsAt k .send rd rs1 rs2 = true) ∧ (u = s.lmUpset k upset) ∧ ((u.core k).rx rs2 ≠ (u.core k).rx rs2 % 32 + bitsOf ((u.core k).rx rs2) 16 13 * 65536)) ((({ State.reset with th := { State.reset.th with core := [(3, { run := .running, pc := 0x100000000, x := [(11, 0x10000010), (12, 5 + 32 + 16 * 65536)], send := [(5, { core := 4, ch := 2, log2 := 6, credits := 2, seq := 8 })], mem := [(16, 7#8)], sendto := 50 })], part := [(0, { words := [2 ^ 31, 24] })] } }).memWrite 0x1040000000 [11#8, 133#8, 197#8, 0#8])) 3 10 11 12 (none) ((({ State.reset with th := { State.reset.th with core := [(3, { run := .running, pc := 0x100000000, x := [(11, 0x10000010), (12, 5 + 32 + 16 * 65536)], send := [(5, { core := 4, ch := 2, log2 := 6, credits := 2, seq := 8 })], mem := [(16, 7#8)], sendto := 50 })], part := [(0, { words := [2 ^ 31, 24] })] } }).memWrite 0x1040000000 [11#8, 133#8, 197#8, 0#8]).lmUpset 3 (none)) 1000) ∧
    ((fun (s : State) (k rd rs1 rs2 : Nat) (upset : Option (Nat × Bool)) (u : State) (ep len : Nat) (e : SendEnd) => (s.standsAt k .sendnb rd rs1 rs2 = true) ∧ (u = s.lmUpset k upset) ∧ ((u.core k).sendFits rs2 ep len e = true) ∧ (0 < e.credits) ∧ ((u.core k).payloadAt ((u.core k).rx rs1) len = true)) ((({ State.reset with th := { State.reset.th with core := [(3, { run := .running, pc := 0x100000000, x := [(11, 0x10000010), (12, 5 + 16 * 65536)], send := [(5, { core := 4, ch := 2, log2 := 6, credits := 2, seq := 8 })], mem := [(16, 7#8)], sendto := 50 })], part := [(0, { words := [2 ^ 31, 24] })] } }).memWrite 0x1040000000 [11#8, 133#8, 197#8, 2#8])) 3 10 11 12 (none) ((({ State.reset with th := { State.reset.th with core := [(3, { run := .running, pc := 0x100000000, x := [(11, 0x10000010), (12, 5 + 16 * 65536)], send := [(5, { core := 4, ch := 2, log2 := 6, credits := 2, seq := 8 })], mem := [(16, 7#8)], sendto := 50 })], part := [(0, { words := [2 ^ 31, 24] })] } }).memWrite 0x1040000000 [11#8, 133#8, 197#8, 2#8]).lmUpset 3 (none)) 5 16 ⟨4, 2, 6, 2, 0, 8⟩) ∧
    ((fun (s : State) (k rd rs1 rs2 : Nat) (upset : Option (Nat × Bool)) (u : State) (ep len : Nat) (e : SendEnd) => (s.standsAt k .sendnb rd rs1 rs2 = true) ∧ (u = s.lmUpset k upset) ∧ ((u.core k).sendFits rs2 ep len e = true) ∧ (0 < e.credits) ∧ ((u.core k).rx rs1 % 8 ≠ 0)) ((({ State.reset with th := { State.reset.th with core := [(3, { run := .running, pc := 0x100000000, x := [(11, 0x10000011), (12, 5 + 16 * 65536)], send := [(5, { core := 4, ch := 2, log2 := 6, credits := 2, seq := 8 })], mem := [(16, 7#8)], sendto := 50 })], part := [(0, { words := [2 ^ 31, 24] })] } }).memWrite 0x1040000000 [11#8, 133#8, 197#8, 2#8])) 3 10 11 12 (none) ((({ State.reset with th := { State.reset.th with core := [(3, { run := .running, pc := 0x100000000, x := [(11, 0x10000011), (12, 5 + 16 * 65536)], send := [(5, { core := 4, ch := 2, log2 := 6, credits := 2, seq := 8 })], mem := [(16, 7#8)], sendto := 50 })], part := [(0, { words := [2 ^ 31, 24] })] } }).memWrite 0x1040000000 [11#8, 133#8, 197#8, 2#8]).lmUpset 3 (none)) 5 16 ⟨4, 2, 6, 2, 0, 8⟩) ∧
    ((fun (s : State) (k rd rs1 rs2 : Nat) (upset : Option (Nat × Bool)) (u : State) (ep len : Nat) (e : SendEnd) => (s.standsAt k .sendnb rd rs1 rs2 = true) ∧ (u = s.lmUpset k upset) ∧ ((u.core k).sendFits rs2 ep len e = true) ∧ (e.credits = 0)) ((({ State.reset with th := { State.reset.th with core := [(3, { run := .running, pc := 0x100000000, x := [(11, 0x10000010), (12, 5 + 16 * 65536)], send := [(5, { core := 4, ch := 2, log2 := 6, credits := 0, seq := 8 })], mem := [(16, 7#8)], sendto := 50 })], part := [(0, { words := [2 ^ 31, 24] })] } }).memWrite 0x1040000000 [11#8, 133#8, 197#8, 2#8])) 3 10 11 12 (none) ((({ State.reset with th := { State.reset.th with core := [(3, { run := .running, pc := 0x100000000, x := [(11, 0x10000010), (12, 5 + 16 * 65536)], send := [(5, { core := 4, ch := 2, log2 := 6, credits := 0, seq := 8 })], mem := [(16, 7#8)], sendto := 50 })], part := [(0, { words := [2 ^ 31, 24] })] } }).memWrite 0x1040000000 [11#8, 133#8, 197#8, 2#8]).lmUpset 3 (none)) 5 16 ⟨4, 2, 6, 0, 0, 8⟩) ∧
    ((fun (s : State) (k rd rs1 rs2 : Nat) (upset : Option (Nat × Bool)) (u : State) (ep len : Nat) => (s.standsAt k .sendnb rd rs1 rs2 = true) ∧ (u = s.lmUpset k upset) ∧ (ep < 32) ∧ (len < 8192) ∧ ((u.core k).rx rs2 = ep + len * 65536) ∧ (Sparse.find (u.core k).send ep = none)) ((({ State.reset with th := { State.reset.th with core := [(3, { run := .running, pc := 0x100000000, x := [(11, 0x10000010), (12, 6 + 16 * 65536)], send := [(5, { core := 4, ch := 2, log2 := 6, credits := 2, seq := 8 })], mem := [(16, 7#8)], sendto := 50 })], part := [(0, { words := [2 ^ 31, 24] })] } }).memWrite 0x1040000000 [11#8, 133#8, 197#8, 2#8])) 3 10 11 12 (none) ((({ State.reset with th := { State.reset.th with core := [(3, { run := .running, pc := 0x100000000, x := [(11, 0x10000010), (12, 6 + 16 * 65536)], send := [(5, { core := 4, ch := 2, log2 := 6, credits := 2, seq := 8 })], mem := [(16, 7#8)], sendto := 50 })], part := [(0, { words := [2 ^ 31, 24] })] } }).memWrite 0x1040000000 [11#8, 133#8, 197#8, 2#8]).lmUpset 3 (none)) 6 16) ∧
    ((fun (s : State) (k rd rs1 rs2 : Nat) (upset : Option (Nat × Bool)) (u : State) (ep len : Nat) (e : SendEnd) => (s.standsAt k .sendnb rd rs1 rs2 = true) ∧ (u = s.lmUpset k upset) ∧ (ep < 32) ∧ (len < 8192) ∧ ((u.core k).rx rs2 = ep + len * 65536) ∧ (Sparse.find (u.core k).send ep = some e) ∧ (len % 8 ≠ 0 ∨ len < 8 ∨ 2 ^ e.log2 < len + 8)) ((({ State.reset with th := { State.reset.th with core := [(3, { run := .running, pc := 0x100000000, x := [(11, 0x10000010), (12, 5 + 64 * 65536)], send := [(5, { core := 4, ch := 2, log2 := 6, credits := 2, seq := 8 })], mem := [(16, 7#8)], sendto := 50 })], part := [(0, { words := [2 ^ 31, 24] })] } }).memWrite 0x1040000000 [11#8, 133#8, 197#8, 2#8])) 3 10 11 12 (none) ((({ State.reset with th := { State.reset.th with core := [(3, { run := .running, pc := 0x100000000, x := [(11, 0x10000010), (12, 5 + 64 * 65536)], send := [(5, { core := 4, ch := 2, log2 := 6, credits := 2, seq := 8 })], mem := [(16, 7#8)], sendto := 50 })], part := [(0, { words := [2 ^ 31, 24] })] } }).memWrite 0x1040000000 [11#8, 133#8, 197#8, 2#8]).lmUpset 3 (none)) 5 64 ⟨4, 2, 6, 2, 0, 8⟩) ∧
    ((fun (s : State) (k rd rs1 rs2 : Nat) (upset : Option (Nat × Bool)) (u : State)  => (s.standsAt k .sendnb rd rs1 rs2 = true) ∧ (u = s.lmUpset k upset) ∧ ((u.core k).rx rs2 ≠ (u.core k).rx rs2 % 32 + bitsOf ((u.core k).rx rs2) 16 13 * 65536)) ((({ State.reset with th := { State.reset.th with core := [(3, { run := .running, pc := 0x100000000, x := [(11, 0x10000010), (12, 5 + 32 + 16 * 65536)], send := [(5, { core := 4, ch := 2, log2 := 6, credits := 2, seq := 8 })], mem := [(16, 7#8)], sendto := 50 })], part := [(0, { words := [2 ^ 31, 24] })] } }).memWrite 0x1040000000 [11#8, 133#8, 197#8, 2#8])) 3 10 11 12 (none) ((({ State.reset with th := { State.reset.th with core := [(3, { run := .running, pc := 0x100000000, x := [(11, 0x10000010), (12, 5 + 32 + 16 * 65536)], send := [(5, { core := 4, ch := 2, log2 := 6, credits := 2, seq := 8 })], mem := [(16, 7#8)], sendto := 50 })], part := [(0, { words := [2 ^ 31, 24] })] } }).memWrite 0x1040000000 [11#8, 133#8, 197#8, 2#8]).lmUpset 3 (none))) ∧
    ((fun (s : State) (k ep : Nat) (c : CoreState) => (k < 256) ∧ (0 < ((s.core k).endAt ep).back) ∧ ((s.core k).wait = none) ∧ (c = { s.core k with send := Sparse.upd ({} : SendEnd) (s.core k).send ep { (s.core k).endAt ep with back := ((s.core k).endAt ep).back - 1, credits := ((s.core k).endAt ep).credits + 1 } })) ((({ State.reset with th := { State.reset.th with core := [(3, { run := .running, pc := 0x100000000, x := [], send := [(5, { core := 4, ch := 2, log2 := 6, back := 2 })] })], part := [(0, { words := [2 ^ 31, 8] })] } }).memWrite 0x1040000000 [0#8, 0#8, 0#8, 0#8])) 3 5 ({ run := .running, pc := 0x100000000, send := [(5, { core := 4, ch := 2, log2 := 6, back := 1, credits := 1 })] })) ∧
    ((fun (s : State) (k now d : Nat) (w : CoreWait) => (k < 256) ∧ ((s.core k).wait = some w) ∧ (w.expire = some d) ∧ (10 * d < now) ∧ (w.what ≠ WaitFor.barrier)) ((({ State.reset with th := { State.reset.th with core := [(3, { run := .running, pc := 0x100000000, x := [], wait := some ⟨.wait, 3, 10, 0, 0, some 100⟩ })], part := [(0, { words := [2 ^ 31, 8] })] } }).memWrite 0x1040000000 [0#8, 0#8, 0#8, 0#8])) 3 1001 100 ⟨.wait, 3, 10, 0, 0, some 100⟩) ∧
    ((fun (s : State) (k now : Nat) => (k < 256) ∧ ((s.core k).wait.all (fun (w : CoreWait) => w.what = WaitFor.barrier || w.expire.all (fun (d : Nat) => now ≤ 10 * d)) = true)) ((({ State.reset with th := { State.reset.th with core := [(3, { run := .running, pc := 0x100000000, x := [], wait := some ⟨.wait, 3, 10, 0, 0, some 100⟩ })], part := [(0, { words := [2 ^ 31, 8] })] } }).memWrite 0x1040000000 [0#8, 0#8, 0#8, 0#8])) 3 1000) ∧
    ((fun (s : State) (k ep : Nat) => (k < 256) ∧ (((s.core k).endAt ep).back = 0)) ((({ State.reset with th := { State.reset.th with core := [(3, { run := .running, pc := 0x100000000, x := [] })], part := [(0, { words := [2 ^ 31, 8] })] } }).memWrite 0x1040000000 [0#8, 0#8, 0#8, 0#8])) 3 5) := by
  repeat refine And.intro (by decide +kernel) ?_
  decide +kernel

theorem test_meets_CoresReceiveMessages :
    ((fun (s : State) (k rd rs1 rs2 : Nat) (now : Nat) => (s.standsAt k .recv rd rs1 rs2 = true) ∧ ((s.core k).holds ((s.core k).rx rs1) = true)) ((({ State.reset with th := { State.reset.th with core := [(3, { run := .running, pc := 0x100000000, x := [(11, 2), (12, 0)], ring := [(2, { base := 0x7F000, slots := 4, log2 := 6, arrived := 5, taken := 4, freed := 3, srcCore := some (4, 6) })] }), (4, { send := [(6, { core := 3, ch := 2, log2 := 6 })] })], part := [(0, { words := [2 ^ 31, 8] })] } }).memWrite 0x1040000000 [11#8, 149#8, 197#8, 0#8])) 3 10 11 12 1000) ∧
    ((fun (s : State) (k rd rs1 rs2 : Nat) (now : Nat) => (s.standsAt k .recv rd rs1 rs2 = true) ∧ ((s.core k).holds ((s.core k).rx rs1) = false)) ((({ State.reset with th := { State.reset.th with core := [(3, { run := .running, pc := 0x100000000, x := [(11, 2), (12, 40)], ring := [(2, { base := 0x7F000, slots := 4, log2 := 6, arrived := 5, taken := 5, freed := 3, srcCore := some (4, 6) })] }), (4, { send := [(6, { core := 3, ch := 2, log2 := 6 })] })], part := [(0, { words := [2 ^ 31, 8] })] } }).memWrite 0x1040000000 [11#8, 149#8, 197#8, 0#8])) 3 10 11 12 1000) ∧
    ((fun (s : State) (k rd rs1 rs2 : Nat)  => (s.standsAt k .peek rd rs1 rs2 = true) ∧ ((s.core k).holds ((s.core k).rx rs1) = true)) ((({ State.reset with th := { State.reset.th with core := [(3, { run := .running, pc := 0x100000000, x := [(11, 2)], ring := [(2, { base := 0x7F000, slots := 4, log2 := 6, arrived := 5, taken := 4, freed := 3, srcCore := some (4, 6) })] }), (4, { send := [(6, { core := 3, ch := 2, log2 := 6 })] })], part := [(0, { words := [2 ^ 31, 8] })] } }).memWrite 0x1040000000 [11#8, 149#8, 5#8, 2#8])) 3 10 11 0) ∧
    ((fun (s : State) (k rd rs1 rs2 : Nat)  => (s.standsAt k .peek rd rs1 rs2 = true) ∧ ((s.core k).holds ((s.core k).rx rs1) = false)) ((({ State.reset with th := { State.reset.th with core := [(3, { run := .running, pc := 0x100000000, x := [(11, 2)], ring := [(2, { base := 0x7F000, slots := 4, log2 := 6, arrived := 5, taken := 5, freed := 3, srcCore := some (4, 6) })] }), (4, { send := [(6, { core := 3, ch := 2, log2 := 6 })] })], part := [(0, { words := [2 ^ 31, 8] })] } }).memWrite 0x1040000000 [11#8, 149#8, 5#8, 2#8])) 3 10 11 0) ∧
    ((fun (s : State) (k rd rs1 rs2 : Nat) (now ch : Nat) => (s.standsAt k .wait rd rs1 rs2 = true) ∧ (ch < 32) ∧ (bitOf ((s.core k).rx rs1) ch = true) ∧ ((s.core k).holds ch = true) ∧ (((List.range ch).all fun (j : Nat) => !(bitOf ((s.core k).rx rs1) j && (s.core k).holds j)) = true)) ((({ State.reset with th := { State.reset.th with core := [(3, { run := .running, pc := 0x100000000, x := [(11, 6), (12, 0)], ring := [(2, { base := 0x7F000, slots := 4, log2 := 6, arrived := 5, taken := 4, freed := 3, srcCore := some (4, 6) })] }), (4, { send := [(6, { core := 3, ch := 2, log2 := 6 })] })], part := [(0, { words := [2 ^ 31, 8] })] } }).memWrite 0x1040000000 [11#8, 149#8, 197#8, 4#8])) 3 10 11 12 1000 2) ∧
    ((fun (s : State) (k rd rs1 rs2 : Nat) (now : Nat) => (s.standsAt k .wait rd rs1 rs2 = true) ∧ (((List.range 32).all fun (j : Nat) => !(bitOf ((s.core k).rx rs1) j && (s.core k).holds j)) = true)) ((({ State.reset with th := { State.reset.th with core := [(3, { run := .running, pc := 0x100000000, x := [(11, 2), (12, 0)], ring := [(2, { base := 0x7F000, slots := 4, log2 := 6, arrived := 5, taken := 4, freed := 3, srcCore := some (4, 6) })] }), (4, { send := [(6, { core := 3, ch := 2, log2 := 6 })] })], part := [(0, { words := [2 ^ 31, 8] })] } }).memWrite 0x1040000000 [11#8, 149#8, 197#8, 4#8])) 3 10 11 12 1000) ∧
    ((fun (s : State) (k rd rs1 rs2 : Nat) (j ep : Nat) (r : Ring) (a : State) => (s.standsAt k .release rd rs1 rs2 = true) ∧ ((s.core k).rx rs1 < 32) ∧ (r = (s.core k).ringAt ((s.core k).rx rs1)) ∧ (r.freed < r.taken) ∧ (r.srcCore = some (j, ep)) ∧ (a = s.setCore k { (s.core k) with ring := Sparse.upd ({} : Ring) (s.core k).ring ((s.core k).rx rs1) { r with freed := r.freed + 1 } })) ((({ State.reset with th := { State.reset.th with core := [(3, { run := .running, pc := 0x100000000, x := [(11, 2)], ring := [(2, { base := 0x7F000, slots := 4, log2 := 6, arrived := 5, taken := 4, freed := 3, srcCore := some (4, 6) })] }), (4, { send := [(6, { core := 3, ch := 2, log2 := 6 })] })], part := [(0, { words := [2 ^ 31, 8] })] } }).memWrite 0x1040000000 [11#8, 160#8, 5#8, 0#8])) 3 0 11 0 4 6 ⟨0x7F000, 4, 6, 5, 4, 3, [], some (4, 6)⟩ ((({ State.reset with th := { State.reset.th with core := [(3, { run := .running, pc := 0x100000000, x := [(11, 2)], ring := [(2, { base := 0x7F000, slots := 4, log2 := 6, arrived := 5, taken := 4, freed := 3, srcCore := some (4, 6) })] }), (4, { send := [(6, { core := 3, ch := 2, log2 := 6 })] })], part := [(0, { words := [2 ^ 31, 8] })] } }).memWrite 0x1040000000 [11#8, 160#8, 5#8, 0#8]).setCore 3 { run := .running, pc := 0x100000000, x := [(11, 2)], ring := [(2, { base := 0x7F000, slots := 4, log2 := 6, arrived := 5, taken := 4, freed := 4, srcCore := some (4, 6) })] })) ∧
    ((fun (s : State) (k rd rs1 rs2 : Nat)  => (s.standsAt k .release rd rs1 rs2 = true) ∧ ((s.core k).rx rs1 < 32 → ((s.core k).ringAt ((s.core k).rx rs1)).taken ≤ ((s.core k).ringAt ((s.core k).rx rs1)).freed)) ((({ State.reset with th := { State.reset.th with core := [(3, { run := .running, pc := 0x100000000, x := [(11, 2)], ring := [(2, { base := 0x7F000, slots := 4, log2 := 6, arrived := 5, taken := 4, freed := 4, srcCore := some (4, 6) })] }), (4, { send := [(6, { core := 3, ch := 2, log2 := 6 })] })], part := [(0, { words := [2 ^ 31, 8] })] } }).memWrite 0x1040000000 [11#8, 160#8, 5#8, 0#8])) 3 0 11 0) ∧
    ((fun (s : State) (k rd rs1 rs2 : Nat)  => (s.standsAt k .credits rd rs1 rs2 = true) ∧ ((s.core k).rx rs1 < 32)) ((({ State.reset with th := { State.reset.th with core := [(3, { run := .running, pc := 0x100000000, x := [(11, 2)], ring := [(2, { base := 0x7F000, slots := 4, log2 := 6, arrived := 5, taken := 4, freed := 3, srcCore := some (4, 6) })] }), (4, { send := [(6, { core := 3, ch := 2, log2 := 6 })] })], part := [(0, { words := [2 ^ 31, 8] })] } }).memWrite 0x1040000000 [11#8, 181#8, 5#8, 0#8])) 3 10 11 0) ∧
    ((fun (s : State) (k ch : Nat) (m : ChanMsg) (rest : List ChanMsg) => (k < 256) ∧ ((s.core k).wait = none) ∧ (((s.core k).ringAt ch).flight = m :: rest)) ((({ State.reset with th := { State.reset.th with core := [(3, { run := .running, pc := 0x100000000, x := [], ring := [(2, { base := 0x7F000, slots := 4, log2 := 6, flight := [⟨[1#8], 4, 8⟩], srcCore := some (4, 6) })] })], part := [(0, { words := [2 ^ 31, 8] })] } }).memWrite 0x1040000000 [0#8, 0#8, 0#8, 0#8])) 3 2 ⟨[1#8], 4, 8⟩ []) ∧
    ((fun (s : State) (k ch : Nat) (m : ChanMsg) (rest : List ChanMsg) (w : CoreWait) (b : State) => (k < 256) ∧ ((s.core k).wait = some w) ∧ (w.what = WaitFor.recv) ∧ (w.arg = ch) ∧ (((s.core k).ringAt ch).flight = m :: rest) ∧ (b = s.setCore k (({ (s.core k) with ring := Sparse.upd ({} : Ring) (s.core k).ring ch { (s.core k).ringAt ch with flight := rest } }).land ch m)) ∧ ((b.core k).wait = some w)) ((({ State.reset with th := { State.reset.th with core := [(3, { run := .running, pc := 0x100000000, x := [], ring := [(2, { base := 0x7F000, slots := 4, log2 := 6, flight := [⟨[1#8], 4, 8⟩], srcCore := some (4, 6) })], wait := some ⟨.recv, 2, 10, 0, 0, none⟩ })], part := [(0, { words := [2 ^ 31, 8] })] } }).memWrite 0x1040000000 [0#8, 0#8, 0#8, 0#8])) 3 2 ⟨[1#8], 4, 8⟩ [] ⟨.recv, 2, 10, 0, 0, none⟩ ((({ State.reset with th := { State.reset.th with core := [(3, { run := .running, pc := 0x100000000, x := [], ring := [(2, { base := 0x7F000, slots := 4, log2 := 6, flight := [⟨[1#8], 4, 8⟩], srcCore := some (4, 6) })], wait := some ⟨.recv, 2, 10, 0, 0, none⟩ })], part := [(0, { words := [2 ^ 31, 8] })] } }).memWrite 0x1040000000 [0#8, 0#8, 0#8, 0#8]).setCore 3 (({ (({ State.reset with th := { State.reset.th with core := [(3, { run := .running, pc := 0x100000000, x := [], ring := [(2, { base := 0x7F000, slots := 4, log2 := 6, flight := [⟨[1#8], 4, 8⟩], srcCore := some (4, 6) })], wait := some ⟨.recv, 2, 10, 0, 0, none⟩ })], part := [(0, { words := [2 ^ 31, 8] })] } }).memWrite 0x1040000000 [0#8, 0#8, 0#8, 0#8]).core 3 with ring := [(2, { base := 0x7F000, slots := 4, log2 := 6, srcCore := some (4, 6) })] } : CoreState).land 2 ⟨[1#8], 4, 8⟩))) := by
  repeat refine And.intro (by decide +kernel) ?_
  decide +kernel

theorem test_meets_BarriersAndTheirTimeouts :
    ((fun (s : State) (k rd rs1 rs2 : Nat) (now p : Nat) => (s.standsAt k .barrier rd rs1 rs2 = true) ∧ (s.partOf k = some p) ∧ ((s.part p).members ((s.core k).rx rs1) = none)) ((({ State.reset with th := { State.reset.th with core := [(3, { run := .running, pc := 0x100000000, x := [(11, 5)] })], part := [(0, { words := [2 ^ 31, 24], prog := some ⟨0, [], [], [], [3], true, false, []⟩, arrive := [] })] } }).memWrite 0x1040000000 [11#8, 197#8, 197#8, 0#8])) 3 10 11 12 1000 0) ∧
    ((fun (s : State) (k rd rs1 rs2 : Nat) (now p : Nat) (ms : List Nat) => (s.standsAt k .barrier rd rs1 rs2 = true) ∧ (s.partOf k = some p) ∧ ((s.part p).members ((s.core k).rx rs1) = some ms) ∧ (ms.contains ((s.part p).logical k) = false)) ((({ State.reset with th := { State.reset.th with core := [(3, { run := .running, pc := 0x100000000, x := [(11, 0), (12, 90)] })], part := [(0, { words := [2 ^ 31, 24], prog := some ⟨0, [], [], [], [2], true, false, []⟩, arrive := [] })] } }).memWrite 0x1040000000 [11#8, 197#8, 197#8, 0#8])) 3 10 11 12 1000 0 [1]) ∧
    ((fun (s : State) (k rd rs1 rs2 : Nat) (now p : Nat) (ms : List Nat) (q : PartState) (a : State) => (s.standsAt k .barrier rd rs1 rs2 = true) ∧ (s.partOf k = some p) ∧ ((s.part p).members ((s.core k).rx rs1) = some ms) ∧ (ms.contains ((s.part p).logical k) = true) ∧ (q = s.part p) ∧ ((ms.all fun (i : Nat) => decide (i = q.logical k) || (Sparse.at [] q.arrive ((s.core k).rx rs1)).any fun (j : Nat) => decide (q.logical j = i)) = false) ∧ (a = s.setPart p { q with arrive := Sparse.upd [] q.arrive ((s.core k).rx rs1) (Sparse.at [] q.arrive ((s.core k).rx rs1) ++ [k]) })) ((({ State.reset with th := { State.reset.th with core := [(3, { run := .running, pc := 0x100000000, x := [(11, 0), (12, 90)] })], part := [(0, { words := [2 ^ 31, 24], prog := some ⟨0, [], [], [], [3], true, false, []⟩, arrive := [] })] } }).memWrite 0x1040000000 [11#8, 197#8, 197#8, 0#8])) 3 10 11 12 1000 0 [0, 1] ((({ State.reset with th := { State.reset.th with core := [(3, { run := .running, pc := 0x100000000, x := [(11, 0), (12, 90)] })], part := [(0, { words := [2 ^ 31, 24], prog := some ⟨0, [], [], [], [3], true, false, []⟩, arrive := [] })] } }).memWrite 0x1040000000 [11#8, 197#8, 197#8, 0#8]).part 0) ((({ State.reset with th := { State.reset.th with core := [(3, { run := .running, pc := 0x100000000, x := [(11, 0), (12, 90)] })], part := [(0, { words := [2 ^ 31, 24], prog := some ⟨0, [], [], [], [3], true, false, []⟩, arrive := [] })] } }).memWrite 0x1040000000 [11#8, 197#8, 197#8, 0#8]).setPart 0 { ((({ State.reset with th := { State.reset.th with core := [(3, { run := .running, pc := 0x100000000, x := [(11, 0), (12, 90)] })], part := [(0, { words := [2 ^ 31, 24], prog := some ⟨0, [], [], [], [3], true, false, []⟩, arrive := [] })] } }).memWrite 0x1040000000 [11#8, 197#8, 197#8, 0#8]).part 0) with arrive := [(0, [3])] })) ∧
    ((fun (s : State) (k rd rs1 rs2 : Nat) (now p : Nat) (ms ws : List Nat) (q : PartState) (a : State) => (s.standsAt k .barrier rd rs1 rs2 = true) ∧ (s.partOf k = some p) ∧ ((s.part p).members ((s.core k).rx rs1) = some ms) ∧ (ms.contains ((s.part p).logical k) = true) ∧ (q = s.part p) ∧ (ws = Sparse.at [] q.arrive ((s.core k).rx rs1)) ∧ ((ms.all fun (i : Nat) => decide (i = q.logical k) || ws.any fun (j : Nat) => decide (q.logical j = i)) = true) ∧ (a = ws.foldl (fun (x : State) (j : Nat) => (x.core j).wait.elim x fun (w : CoreWait) => x.returns j w.rd 0 (x.core j)) (s.setPart p { q with arrive := Sparse.upd [] q.arrive ((s.core k).rx rs1) [] }))) ((({ State.reset with th := { State.reset.th with core := [(3, { run := .running, pc := 0x100000000, x := [(11, 0), (12, 90)] }), (4, { run := .running, pc := 0x100000000, wait := some ⟨.barrier, 0, 9, 0, 0, none⟩ })], part := [(0, { words := [2 ^ 31, 24], prog := some ⟨0, [], [], [], [3], true, false, []⟩, arrive := [(0, [4])] })] } }).memWrite 0x1040000000 [11#8, 197#8, 197#8, 0#8])) 3 10 11 12 1000 0 [0, 1] [4] ((({ State.reset with th := { State.reset.th with core := [(3, { run := .running, pc := 0x100000000, x := [(11, 0), (12, 90)] }), (4, { run := .running, pc := 0x100000000, wait := some ⟨.barrier, 0, 9, 0, 0, none⟩ })], part := [(0, { words := [2 ^ 31, 24], prog := some ⟨0, [], [], [], [3], true, false, []⟩, arrive := [(0, [4])] })] } }).memWrite 0x1040000000 [11#8, 197#8, 197#8, 0#8]).part 0) (((({ State.reset with th := { State.reset.th with core := [(3, { run := .running, pc := 0x100000000, x := [(11, 0), (12, 90)] }), (4, { run := .running, pc := 0x100000000, wait := some ⟨.barrier, 0, 9, 0, 0, none⟩ })], part := [(0, { words := [2 ^ 31, 24], prog := some ⟨0, [], [], [], [3], true, false, []⟩, arrive := [] })] } }).memWrite 0x1040000000 [11#8, 197#8, 197#8, 0#8])).returns 4 9 0 (((({ State.reset with th := { State.reset.th with core := [(3, { run := .running, pc := 0x100000000, x := [(11, 0), (12, 90)] }), (4, { run := .running, pc := 0x100000000, wait := some ⟨.barrier, 0, 9, 0, 0, none⟩ })], part := [(0, { words := [2 ^ 31, 24], prog := some ⟨0, [], [], [], [3], true, false, []⟩, arrive := [] })] } }).memWrite 0x1040000000 [11#8, 197#8, 197#8, 0#8])).core 4))) ∧
    ((fun (s : State) (k rd rs1 rs2 : Nat) (now p : Nat) (ms ws : List Nat) (q : PartState) (a : State) => (s.standsAt k .barrier rd rs1 rs2 = true) ∧ (s.partOf k = some p) ∧ ((s.part p).members ((s.core k).rx rs1) = some ms) ∧ (ms.contains ((s.part p).logical k) = true) ∧ (q = s.part p) ∧ (ws = Sparse.at [] q.arrive ((s.core k).rx rs1)) ∧ ((ms.all fun (i : Nat) => decide (i = q.logical k) || ws.any fun (j : Nat) => decide (q.logical j = i)) = true) ∧ (a = ws.foldl (fun (x : State) (j : Nat) => (x.core j).wait.elim x fun (w : CoreWait) => x.returns j w.rd 0 (x.core j)) (s.setPart p { q with arrive := Sparse.upd [] q.arrive ((s.core k).rx rs1) [] }))) ((({ State.reset with th := { State.reset.th with core := [(3, { run := .running, pc := 0x100000000, x := [(11, 0), (12, 90)] })], part := [(0, { words := [2 ^ 31, 24], prog := some ⟨0, [], [], [], [1], true, false, []⟩, arrive := [] })] } }).memWrite 0x1040000000 [11#8, 197#8, 197#8, 0#8])) 3 10 11 12 1000 0 [0] [] ((({ State.reset with th := { State.reset.th with core := [(3, { run := .running, pc := 0x100000000, x := [(11, 0), (12, 90)] })], part := [(0, { words := [2 ^ 31, 24], prog := some ⟨0, [], [], [], [1], true, false, []⟩, arrive := [] })] } }).memWrite 0x1040000000 [11#8, 197#8, 197#8, 0#8]).part 0) ((({ State.reset with th := { State.reset.th with core := [(3, { run := .running, pc := 0x100000000, x := [(11, 0), (12, 90)] })], part := [(0, { words := [2 ^ 31, 24], prog := some ⟨0, [], [], [], [1], true, false, []⟩, arrive := [] })] } }).memWrite 0x1040000000 [11#8, 197#8, 197#8, 0#8]))) ∧
    ((fun (s : State) (k now : Nat) => (k < 256) ∧ (s.partOf k = none ∨ (s.core k).wait.all (fun (w : CoreWait) => w.what ≠ WaitFor.barrier || w.expire.all (fun (d : Nat) => now ≤ 10 * d)) = true)) ((({ State.reset with th := { State.reset.th with core := [(3, { run := .running, pc := 0x100000000, x := [], wait := some ⟨.barrier, 0, 10, 0, 0, some 100⟩ })], part := [(0, { words := [2 ^ 31, 8], arrive := [(0, [3, 4])] })] } }).memWrite 0x1040000000 [0#8, 0#8, 0#8, 0#8])) 3 1000) ∧
    ((fun (s : State) (k now p d : Nat) (w : CoreWait) (a : State) => (k < 256) ∧ ((s.core k).wait = some w) ∧ (s.partOf k = some p) ∧ (w.what = WaitFor.barrier) ∧ (w.expire = some d) ∧ (10 * d < now) ∧ (a = s.setPart p { s.part p with arrive := Sparse.upd [] (s.part p).arrive w.arg ((Sparse.at [] (s.part p).arrive w.arg).filter fun (j : Nat) => decide (j ≠ k)) })) ((({ State.reset with th := { State.reset.th with core := [(3, { run := .running, pc := 0x100000000, x := [], wait := some ⟨.barrier, 0, 10, 0, 0, some 100⟩ })], part := [(0, { words := [2 ^ 31, 8], arrive := [(0, [3, 4])] })] } }).memWrite 0x1040000000 [0#8, 0#8, 0#8, 0#8])) 3 1001 0 100 ⟨.barrier, 0, 10, 0, 0, some 100⟩ ((({ State.reset with th := { State.reset.th with core := [(3, { run := .running, pc := 0x100000000, x := [], wait := some ⟨.barrier, 0, 10, 0, 0, some 100⟩ })], part := [(0, { words := [2 ^ 31, 8], arrive := [(0, [4])] })] } }).memWrite 0x1040000000 [0#8, 0#8, 0#8, 0#8]))) := by
  repeat refine And.intro (by decide +kernel) ?_
  decide +kernel

theorem test_meets_EndsOfARunAndCoreFaults :
    ((fun (s : State) (k len p : Nat) => (s.standsInstr k .ecall len = true) ∧ ((s.core k).rx 17 = 0) ∧ (s.partOf k = some p) ∧ (((s.part p).cores.all fun (j : Nat) => decide (((s.setCore k { s.core k with run := .done, resv := none }).core j).run = CoreRun.done)) = false)) ((({ State.reset with th := { State.reset.th with core := [(3, { run := .running, pc := 0x100000000, x := [] })], part := [(0, { words := [2 ^ 31, 24] })] } }).memWrite 0x1040000000 [115#8, 0#8, 0#8, 0#8])) 3 4 0) ∧
    ((fun (s : State) (k len : Nat) => (s.standsInstr k .ecall len = true) ∧ ((s.core k).rx 17 ≠ 0)) ((({ State.reset with th := { State.reset.th with core := [(3, { run := .running, pc := 0x100000000, x := [(17, 1)] })], part := [(0, { words := [2 ^ 31, 8] })] } }).memWrite 0x1040000000 [115#8, 0#8, 0#8, 0#8])) 3 4) ∧
    ((fun (s : State) (k len p : Nat) => (s.standsInstr k .ebreak len = true) ∧ (s.partOf k = some p) ∧ ((s.part p).cfgBit 27 = true)) ((({ State.reset with th := { State.reset.th with core := [(3, { run := .running, pc := 0x100000000, x := [] })], part := [(0, { words := [2 ^ 31 + 2 ^ 27, 8] })] } }).memWrite 0x1040000000 [115#8, 0#8, 16#8, 0#8])) 3 4 0) ∧
    ((fun (s : State) (k len p : Nat) => (s.standsInstr k .ebreak len = true) ∧ (s.partOf k = some p) ∧ ((s.part p).cfgBit 27 = false)) ((({ State.reset with th := { State.reset.th with core := [(3, { run := .running, pc := 0x100000000, x := [] })], part := [(0, { words := [2 ^ 31, 8] })] } }).memWrite 0x1040000000 [115#8, 0#8, 16#8, 0#8])) 3 4 0) ∧
    ((fun (s : State) (p now k kd cs : Nat) => (s.canonical = true) ∧ (p < 16) ∧ (s.partState p = partRunning) ∧ (s.faultedCore p = some (k, kd, cs))) ((({ State.reset with th := { State.reset.th with core := [(3, { run := .fault 1 2, pc := 0x100000000, x := [] })], part := [(0, { words := [2 ^ 31, 8] })] } }).memWrite 0x1040000000 [0#8, 0#8, 0#8, 0#8]).setF Reg.TH_PART_STAT_STATE 3 0) 0 1000 3 1 2) := by
  repeat refine And.intro (by decide +kernel) ?_
  decide +kernel

theorem test_meets_TransfersBetweenCoresAndStack :
    ((fun (s : State) (k rd rs1 rs2 : Nat) (upset : Option (Nat × Bool)) (u : State) (v : State) => (s.standsAt k .dma rd rs1 rs2 = true) ∧ (u = s.lmUpset k upset) ∧ ((u.core k).rx rs1 % 32 = 0) ∧ (inLocal ((u.core k).rx rs1) 32 = true) ∧ ((u.core k).lmBad ((u.core k).rx rs1) 32 = false) ∧ ((u.core k).rx rs2 < 16) ∧ (Sparse.at none (u.core k).dma ((u.core k).rx rs2) = none) ∧ (v = { u with th := { u.th with issued := u.th.issued + 1 } })) ((({ State.reset with th := { State.reset.th with core := [(3, { run := .running, pc := 0x100000000, x := [(11, 268435712), (12, 3)], mem := Sparse.fill 0#8 [] 0x100 (beBytes 32 0x0000000012000000001000104000000001000100000000000000000000000000) })], part := [(0, { words := [2 ^ 31, 8, 0, 0, 0, 0, 0, 0, 0, 0, 0, 0, 0, 0, 0, 0, 0, 0, 0, 0, 0, 0, 0, 2 ^ 31 + 2 ^ 30 + 0x120000, 16] })] } }).memWrite 0x1040000000 [43#8, 133#8, 197#8, 0#8])) 3 10 11 12 (none) ((({ State.reset with th := { State.reset.th with core := [(3, { run := .running, pc := 0x100000000, x := [(11, 268435712), (12, 3)], mem := Sparse.fill 0#8 [] 0x100 (beBytes 32 0x0000000012000000001000104000000001000100000000000000000000000000) })], part := [(0, { words := [2 ^ 31, 8, 0, 0, 0, 0, 0, 0, 0, 0, 0, 0, 0, 0, 0, 0, 0, 0, 0, 0, 0, 0, 0, 2 ^ 31 + 2 ^ 30 + 0x120000, 16] })] } }).memWrite 0x1040000000 [43#8, 133#8, 197#8, 0#8]).lmUpset 3 (none)) ((({ State.reset with th := { State.reset.th with core := [(3, { run := .running, pc := 0x100000000, x := [(11, 268435712), (12, 3)], mem := Sparse.fill 0#8 [] 0x100 (beBytes 32 0x0000000012000000001000104000000001000100000000000000000000000000) })], part := [(0, { words := [2 ^ 31, 8, 0, 0, 0, 0, 0, 0, 0, 0, 0, 0, 0, 0, 0, 0, 0, 0, 0, 0, 0, 0, 0, 2 ^ 31 + 2 ^ 30 + 0x120000, 16] })], issued := 1 } }).memWrite 0x1040000000 [43#8, 133#8, 197#8, 0#8]))) ∧
    ((fun (s : State) (k rd rs1 rs2 : Nat) (upset : Option (Nat × Bool)) (u : State)  => (s.standsAt k .dma rd rs1 rs2 = true) ∧ (u = s.lmUpset k upset) ∧ ((u.core k).rx rs1 % 32 = 0) ∧ (inLocal ((u.core k).rx rs1) 32 = true) ∧ ((u.core k).lmBad ((u.core k).rx rs1) 32 = false) ∧ ((u.core k).rx rs2 < 16) ∧ ((Sparse.at none (u.core k).dma ((u.core k).rx rs2)).isSome = true)) ((({ State.reset with th := { State.reset.th with core := [(3, { run := .running, pc := 0x100000000, x := [(11, 268435712), (12, 3)], mem := Sparse.fill 0#8 [] 0x100 (beBytes 32 0x0000000012000000001000104000000001000100000000000000000000000000), dma := [(3, some ⟨0x1200000000, 0x10001000, 64, true, 1, 0, 0, 0, 0, false, []⟩)] })], part := [(0, { words := [2 ^ 31, 8, 0, 0, 0, 0, 0, 0, 0, 0, 0, 0, 0, 0, 0, 0, 0, 0, 0, 0, 0, 0, 0, 2 ^ 31 + 2 ^ 30 + 0x120000, 16] })] } }).memWrite 0x1040000000 [43#8, 133#8, 197#8, 0#8])) 3 10 11 12 (none) ((({ State.reset with th := { State.reset.th with core := [(3, { run := .running, pc := 0x100000000, x := [(11, 268435712), (12, 3)], mem := Sparse.fill 0#8 [] 0x100 (beBytes 32 0x0000000012000000001000104000000001000100000000000000000000000000), dma := [(3, some ⟨0x1200000000, 0x10001000, 64, true, 1, 0, 0, 0, 0, false, []⟩)] })], part := [(0, { words := [2 ^ 31, 8, 0, 0, 0, 0, 0, 0, 0, 0, 0, 0, 0, 0, 0, 0, 0, 0, 0, 0, 0, 0, 0, 2 ^ 31 + 2 ^ 30 + 0x120000, 16] })] } }).memWrite 0x1040000000 [43#8, 133#8, 197#8, 0#8]).lmUpset 3 (none))) ∧
    ((fun (s : State) (k rd rs1 rs2 : Nat) (upset : Option (Nat × Bool)) (u : State)  => (s.standsAt k .dma rd rs1 rs2 = true) ∧ (u = s.lmUpset k upset) ∧ ((u.core k).rx rs1 % 32 = 0) ∧ (inLocal ((u.core k).rx rs1) 32 = true) ∧ ((u.core k).lmBad ((u.core k).rx rs1) 32 = false) ∧ (16 ≤ (u.core k).rx rs2)) ((({ State.reset with th := { State.reset.th with core := [(3, { run := .running, pc := 0x100000000, x := [(11, 268435712), (12, 16)], mem := Sparse.fill 0#8 [] 0x100 (beBytes 32 0x0000000012000000001000104000000001000100000000000000000000000000) })], part := [(0, { words := [2 ^ 31, 8, 0, 0, 0, 0, 0, 0, 0, 0, 0, 0, 0, 0, 0, 0, 0, 0, 0, 0, 0, 0, 0, 2 ^ 31 + 2 ^ 30 + 0x120000, 16] })] } }).memWrite 0x1040000000 [43#8, 133#8, 197#8, 0#8])) 3 10 11 12 (none) ((({ State.reset with th := { State.reset.th with core := [(3, { run := .running, pc := 0x100000000, x := [(11, 268435712), (12, 16)], mem := Sparse.fill 0#8 [] 0x100 (beBytes 32 0x0000000012000000001000104000000001000100000000000000000000000000) })], part := [(0, { words := [2 ^ 31, 8, 0, 0, 0, 0, 0, 0, 0, 0, 0, 0, 0, 0, 0, 0, 0, 0, 0, 0, 0, 0, 0, 2 ^ 31 + 2 ^ 30 + 0x120000, 16] })] } }).memWrite 0x1040000000 [43#8, 133#8, 197#8, 0#8]).lmUpset 3 (none))) ∧
    ((fun (s : State) (k tag : Nat) (bad : List (Nat × List (Nat × Nat))) (d : Dma) => (s.canonical = true) ∧ (k < 256) ∧ (Sparse.at none (s.core k).dma tag = some d) ∧ (d.complete = false) ∧ (d.code = 0) ∧ (d.write = true) ∧ (s.writeWaits d = false) ∧ ((s.core k).wait = none)) ((({ State.reset with th := { State.reset.th with core := [(3, { run := .running, pc := 0x100000000, x := [], mem := [(0x1000, 7#8)], dma := [(3, some ⟨0x1200000000, 0x10001000, 64, true, 1, 0, 0, 0, 0, false, []⟩)] })], part := [(0, { words := [2 ^ 31, 8] })] } }).memWrite 0x1040000000 [0#8, 0#8, 0#8, 0#8])) 3 3 [] ⟨0x1200000000, 0x10001000, 64, true, 1, 0, 0, 0, 0, false, []⟩) ∧
    ((fun (s : State) (k tag : Nat) (d : Dma) (a : State) => (k < 256) ∧ (Sparse.at none (s.core k).dma tag = some d) ∧ (d.complete = false) ∧ (d.code = 0) ∧ (d.write = false) ∧ (d.kept = []) ∧ (d.blocks.all (fun (b : Nat × Nat) => !Sparse.at false s.poison (b.1 / 64)) = true) ∧ ((s.core k).wait = none) ∧ (a = d.blocks.foldl (fun (x : State) (b : Nat × Nat) => x.setCore k (((x.core k).lmWrite b.2 (x.memBytes b.1 64)).breakResv b.2 64)) s)) ((((({ State.reset with th := { State.reset.th with core := [(3, { run := .running, pc := 0x100000000, x := [], dma := [(3, some ⟨0x1200000000, 0x10001000, 64, false, 1, 0, 0, 0, 0, false, []⟩)] })], part := [(0, { words := [2 ^ 31, 8] })] } }).memWrite 0x1040000000 [0#8, 0#8, 0#8, 0#8])).stackWrite 0x1200000000 [7#8])) 3 3 ⟨0x1200000000, 0x10001000, 64, false, 1, 0, 0, 0, 0, false, []⟩ ((((({ State.reset with th := { State.reset.th with core := [(3, { run := .running, pc := 0x100000000, x := [], dma := [(3, some ⟨0x1200000000, 0x10001000, 64, false, 1, 0, 0, 0, 0, false, []⟩)] })], part := [(0, { words := [2 ^ 31, 8] })] } }).memWrite 0x1040000000 [0#8, 0#8, 0#8, 0#8])).stackWrite 0x1200000000 [7#8]).setCore 3 (((((((({ State.reset with th := { State.reset.th with core := [(3, { run := .running, pc := 0x100000000, x := [], dma := [(3, some ⟨0x1200000000, 0x10001000, 64, false, 1, 0, 0, 0, 0, false, []⟩)] })], part := [(0, { words := [2 ^ 31, 8] })] } }).memWrite 0x1040000000 [0#8, 0#8, 0#8, 0#8])).stackWrite 0x1200000000 [7#8])).core 3).lmWrite 0x10001000 (((((({ State.reset with th := { State.reset.th with core := [(3, { run := .running, pc := 0x100000000, x := [], dma := [(3, some ⟨0x1200000000, 0x10001000, 64, false, 1, 0, 0, 0, 0, false, []⟩)] })], part := [(0, { words := [2 ^ 31, 8] })] } }).memWrite 0x1040000000 [0#8, 0#8, 0#8, 0#8])).stackWrite 0x1200000000 [7#8])).memBytes 0x1200000000 64)).breakResv 0x10001000 64))) ∧
    ((fun (s : State) (k tag : Nat) (bad : List (Nat × List (Nat × Nat))) (d : Dma) => (k < 256) ∧ (Sparse.at none (s.core k).dma tag = some d) ∧ (d.complete = true ∨ d.code = 0 ∧ s.writeWaits d = true)) ((({ State.reset with th := { State.reset.th with core := [(3, { run := .running, pc := 0x100000000, x := [], dma := [(3, some ⟨0x1200000000, 0x10001000, 64, true, 1, 0, 0, 0, 0, true, []⟩)] })], part := [(0, { words := [2 ^ 31, 8] })] } }).memWrite 0x1040000000 [0#8, 0#8, 0#8, 0#8])) 3 3 [] ⟨0x1200000000, 0x10001000, 64, true, 1, 0, 0, 0, 0, true, []⟩) ∧
    ((fun (s : State) (k tag : Nat) (bad : List (Nat × List (Nat × Nat))) => (k < 256) ∧ (Sparse.at none (s.core k).dma tag = none)) ((({ State.reset with th := { State.reset.th with core := [(3, { run := .running, pc := 0x100000000, x := [] })], part := [(0, { words := [2 ^ 31, 8] })] } }).memWrite 0x1040000000 [0#8, 0#8, 0#8, 0#8])) 3 3 []) ∧
    ((fun (s : State) (k tag : Nat) (bad : List (Nat × List (Nat × Nat))) (d : Dma) => (k < 256) ∧ (Sparse.at none (s.core k).dma tag = some d) ∧ (d.complete = false) ∧ (d.code ≠ 0) ∧ ((s.core k).wait = none)) ((({ State.reset with th := { State.reset.th with core := [(3, { run := .running, pc := 0x100000000, x := [], dma := [(3, some ⟨0x1200000000, 0x10001000, 64, true, 1, 0, 0, 2, 0, false, []⟩)] })], part := [(0, { words := [2 ^ 31, 8] })] } }).memWrite 0x1040000000 [0#8, 0#8, 0#8, 0#8])) 3 3 [] ⟨0x1200000000, 0x10001000, 64, true, 1, 0, 0, 2, 0, false, []⟩) ∧
    ((fun (s : State) (k tag : Nat) (bad : List (Nat × List (Nat × Nat))) (d : Dma) (w : CoreWait) (a : State) => (k < 256) ∧ (Sparse.at none (s.core k).dma tag = some d) ∧ (d.complete = false) ∧ (d.code ≠ 0) ∧ ((s.core k).wait = some w) ∧ (w.what = WaitFor.dma) ∧ (w.arg = tag) ∧ (a = s.setCore k { s.core k with dma := Sparse.upd none (s.core k).dma tag (some { d with complete := true }) })) ((({ State.reset with th := { State.reset.th with core := [(3, { run := .running, pc := 0x100000000, x := [], wait := some ⟨.dma, 3, 10, 0, 0, none⟩, dma := [(3, some ⟨0x1200000000, 0x10001000, 64, true, 1, 0, 0, 2, 0, false, []⟩)] })], part := [(0, { words := [2 ^ 31, 8] })] } }).memWrite 0x1040000000 [0#8, 0#8, 0#8, 0#8])) 3 3 [] ⟨0x1200000000, 0x10001000, 64, true, 1, 0, 0, 2, 0, false, []⟩ ⟨.dma, 3, 10, 0, 0, none⟩ ((({ State.reset with th := { State.reset.th with core := [(3, { run := .running, pc := 0x100000000, x := [], wait := some ⟨.dma, 3, 10, 0, 0, none⟩, dma := [(3, some ⟨0x1200000000, 0x10001000, 64, true, 1, 0, 0, 2, 0, true, []⟩)] })], part := [(0, { words := [2 ^ 31, 8] })] } }).memWrite 0x1040000000 [0#8, 0#8, 0#8, 0#8]))) ∧
    ((fun (s : State) (k rd rs1 rs2 : Nat) (now : Nat) (d : Dma) => (s.standsAt k .dmawait rd rs1 rs2 = true) ∧ (Sparse.at none (s.core k).dma ((s.core k).rx rs1) = some d) ∧ (d.complete = true)) ((({ State.reset with th := { State.reset.th with core := [(3, { run := .running, pc := 0x100000000, x := [(11, 3), (12, 9)], dma := [(3, some ⟨0x1200000000, 0x10001000, 64, false, 1, 0, 0, 4, 0, true, []⟩)] })], part := [(0, { words := [2 ^ 31, 8] })] } }).memWrite 0x1040000000 [43#8, 149#8, 197#8, 0#8])) 3 10 11 12 1000 ⟨0x1200000000, 0x10001000, 64, false, 1, 0, 0, 4, 0, true, []⟩) ∧
    ((fun (s : State) (k rd rs1 rs2 : Nat) (now : Nat) => (s.standsAt k .dmawait rd rs1 rs2 = true) ∧ (Sparse.at none (s.core k).dma ((s.core k).rx rs1) = none)) ((({ State.reset with th := { State.reset.th with core := [(3, { run := .running, pc := 0x100000000, x := [(11, 3), (12, 9)], dma := [] })], part := [(0, { words := [2 ^ 31, 8] })] } }).memWrite 0x1040000000 [43#8, 149#8, 197#8, 0#8])) 3 10 11 12 1000) ∧
    ((fun (s : State) (k rd rs1 rs2 : Nat) (now : Nat) (d : Dma) => (s.standsAt k .dmawait rd rs1 rs2 = true) ∧ (Sparse.at none (s.core k).dma ((s.core k).rx rs1) = some d) ∧ (d.complete = false)) ((({ State.reset with th := { State.reset.th with core := [(3, { run := .running, pc := 0x100000000, x := [(11, 3), (12, 9)], dma := [(3, some ⟨0x1200000000, 0x10001000, 64, false, 1, 0, 0, 0, 0, false, []⟩)] })], part := [(0, { words := [2 ^ 31, 8] })] } }).memWrite 0x1040000000 [43#8, 149#8, 197#8, 0#8])) 3 10 11 12 1000 ⟨0x1200000000, 0x10001000, 64, false, 1, 0, 0, 0, 0, false, []⟩) ∧
    ((fun (s : State) (k rd rs1 rs2 : Nat)  (d : Dma) => (s.standsAt k .dmapoll rd rs1 rs2 = true) ∧ (Sparse.at none (s.core k).dma ((s.core k).rx rs1) = some d) ∧ (d.complete = true)) ((({ State.reset with th := { State.reset.th with core := [(3, { run := .running, pc := 0x100000000, x := [(11, 3), (12, 9)], dma := [(3, some ⟨0x1200000000, 0x10001000, 64, false, 1, 0, 0, 4, 0, true, []⟩)] })], part := [(0, { words := [2 ^ 31, 8] })] } }).memWrite 0x1040000000 [43#8, 149#8, 5#8, 2#8])) 3 10 11 0  ⟨0x1200000000, 0x10001000, 64, false, 1, 0, 0, 4, 0, true, []⟩) ∧
    ((fun (s : State) (k rd rs1 rs2 : Nat)  => (s.standsAt k .dmapoll rd rs1 rs2 = true) ∧ (Sparse.at none (s.core k).dma ((s.core k).rx rs1) = none)) ((({ State.reset with th := { State.reset.th with core := [(3, { run := .running, pc := 0x100000000, x := [(11, 3), (12, 9)], dma := [] })], part := [(0, { words := [2 ^ 31, 8] })] } }).memWrite 0x1040000000 [43#8, 149#8, 5#8, 2#8])) 3 10 11 0) ∧
    ((fun (s : State) (k rd rs1 rs2 : Nat)  (d : Dma) => (s.standsAt k .dmapoll rd rs1 rs2 = true) ∧ (Sparse.at none (s.core k).dma ((s.core k).rx rs1) = some d) ∧ (d.complete = false)) ((({ State.reset with th := { State.reset.th with core := [(3, { run := .running, pc := 0x100000000, x := [(11, 3), (12, 9)], dma := [(3, some ⟨0x1200000000, 0x10001000, 64, false, 1, 0, 0, 0, 0, false, []⟩)] })], part := [(0, { words := [2 ^ 31, 8] })] } }).memWrite 0x1040000000 [43#8, 149#8, 5#8, 2#8])) 3 10 11 0  ⟨0x1200000000, 0x10001000, 64, false, 1, 0, 0, 0, 0, false, []⟩) := by
  repeat refine And.intro (by decide +kernel) ?_
  decide +kernel

theorem test_meets_PublicationAndSlotSelection :
    ((fun (s : State) (k rd rs1 rs2 : Nat) (upset : Option (Nat × Bool)) (u : State) (now p : Nat) (r : LaneRec) (v : State) => (s.standsAt k .pub rd rs1 rs2 = true) ∧ (u = s.lmUpset k upset) ∧ (u.partOf k = some p) ∧ ((u.core k).rx rs2 < 64) ∧ (bitOf ((u.part p).word (9 + (u.core k).rx rs2 / 32)) ((u.core k).rx rs2 % 32) = true) ∧ ((u.core k).rx rs1 % 64 = 0) ∧ (inLocal ((u.core k).rx rs1) 1536 = true) ∧ ((u.core k).lmBad ((u.core k).rx rs1) 1536 = false) ∧ (leAt ((u.core k).lmBytes ((u.core k).rx rs1) 1536) 4 2 ≤ 160) ∧ (leAt ((u.core k).lmBytes ((u.core k).rx rs1) 1536) 6 2 ≤ 200) ∧ (Sparse.find u.th.pubBy ((u.core k).rx rs2) = none) ∧ ((u.wbLane ((u.core k).rx rs2)).missed = 0) ∧ (r = readLane ((u.core k).lmBytes ((u.core k).rx rs1) 1536) p) ∧ (v.th = { u.th with pubBy := Sparse.insert u.th.pubBy ((u.core k).rx rs2) (now, k) }) ∧ (v.wb = (u.setWbLane ((u.core k).rx rs2) { u.wbLane ((u.core k).rx rs2) with staged := some r }).wb) ∧ (v = { u with th := v.th, wb := v.wb })) ((({ State.reset with th := { State.reset.th with core := [(3, { run := .running, pc := 0x100000000, x := [(11, 268436480), (12, 5)], mem := [(0x404, 2#8)] })], part := [(0, { words := [2 ^ 31, 8, 0, 0, 0, 0, 0, 0, 0, 32] })] } }).memWrite 0x1040000000 [43#8, 165#8, 197#8, 0#8])) 3 10 11 12 (none) ((({ State.reset with th := { State.reset.th with core := [(3, { run := .running, pc := 0x100000000, x := [(11, 268436480), (12, 5)], mem := [(0x404, 2#8)] })], part := [(0, { words := [2 ^ 31, 8, 0, 0, 0, 0, 0, 0, 0, 32] })] } }).memWrite 0x1040000000 [43#8, 165#8, 197#8, 0#8]).lmUpset 3 (none)) 1000 0 (readLane (((({ State.reset with th := { State.reset.th with core := [(3, { run := .running, pc := 0x100000000, x := [(11, 268436480), (12, 5)], mem := [(0x404, 2#8)] })], part := [(0, { words := [2 ^ 31, 8, 0, 0, 0, 0, 0, 0, 0, 32] })] } }).memWrite 0x1040000000 [43#8, 165#8, 197#8, 0#8]).core 3).lmBytes 0x10000400 1536) 0) (({ (({ State.reset with th := { State.reset.th with core := [(3, { run := .running, pc := 0x100000000, x := [(11, 268436480), (12, 5)], mem := [(0x404, 2#8)] })], part := [(0, { words := [2 ^ 31, 8, 0, 0, 0, 0, 0, 0, 0, 32] })] } }).memWrite 0x1040000000 [43#8, 165#8, 197#8, 0#8]) with th := { (({ State.reset with th := { State.reset.th with core := [(3, { run := .running, pc := 0x100000000, x := [(11, 268436480), (12, 5)], mem := [(0x404, 2#8)] })], part := [(0, { words := [2 ^ 31, 8, 0, 0, 0, 0, 0, 0, 0, 32] })] } }).memWrite 0x1040000000 [43#8, 165#8, 197#8, 0#8]).th with pubBy := [(5, (1000, 3))] } }).setWbLane 5 { staged := some (readLane (((({ State.reset with th := { State.reset.th with core := [(3, { run := .running, pc := 0x100000000, x := [(11, 268436480), (12, 5)], mem := [(0x404, 2#8)] })], part := [(0, { words := [2 ^ 31, 8, 0, 0, 0, 0, 0, 0, 0, 32] })] } }).memWrite 0x1040000000 [43#8, 165#8, 197#8, 0#8]).core 3).lmBytes 0x10000400 1536) 0) })) ∧
    ((fun (s : State) (k rd rs1 rs2 : Nat) (upset : Option (Nat × Bool)) (u : State) (now p : Nat) => (s.standsAt k .pub rd rs1 rs2 = true) ∧ (u = s.lmUpset k upset) ∧ (u.partOf k = some p) ∧ (64 ≤ (u.core k).rx rs2 ∨ bitOf ((u.part p).word (9 + (u.core k).rx rs2 / 32)) ((u.core k).rx rs2 % 32) = false)) ((({ State.reset with th := { State.reset.th with core := [(3, { run := .running, pc := 0x100000000, x := [(11, 268436480), (12, 6)], mem := [(0x404, 2#8)] })], part := [(0, { words := [2 ^ 31, 8, 0, 0, 0, 0, 0, 0, 0, 32] })] } }).memWrite 0x1040000000 [43#8, 165#8, 197#8, 0#8])) 3 10 11 12 (none) ((({ State.reset with th := { State.reset.th with core := [(3, { run := .running, pc := 0x100000000, x := [(11, 268436480), (12, 6)], mem := [(0x404, 2#8)] })], part := [(0, { words := [2 ^ 31, 8, 0, 0, 0, 0, 0, 0, 0, 32] })] } }).memWrite 0x1040000000 [43#8, 165#8, 197#8, 0#8]).lmUpset 3 (none)) 1000 0) ∧
    ((fun (s : State) (k rd rs1 rs2 : Nat) (upset : Option (Nat × Bool)) (u : State) (now p : Nat) => (s.standsAt k .pub rd rs1 rs2 = true) ∧ (u = s.lmUpset k upset) ∧ (u.partOf k = some p) ∧ ((u.core k).rx rs2 < 64) ∧ (bitOf ((u.part p).word (9 + (u.core k).rx rs2 / 32)) ((u.core k).rx rs2 % 32) = true) ∧ ((u.core k).rx rs1 % 64 ≠ 0)) ((({ State.reset with th := { State.reset.th with core := [(3, { run := .running, pc := 0x100000000, x := [(11, 268436512), (12, 5)], mem := [(0x404, 2#8)] })], part := [(0, { words := [2 ^ 31, 8, 0, 0, 0, 0, 0, 0, 0, 32] })] } }).memWrite 0x1040000000 [43#8, 165#8, 197#8, 0#8])) 3 10 11 12 (none) ((({ State.reset with th := { State.reset.th with core := [(3, { run := .running, pc := 0x100000000, x := [(11, 268436512), (12, 5)], mem := [(0x404, 2#8)] })], part := [(0, { words := [2 ^ 31, 8, 0, 0, 0, 0, 0, 0, 0, 32] })] } }).memWrite 0x1040000000 [43#8, 165#8, 197#8, 0#8]).lmUpset 3 (none)) 1000 0) ∧
    ((fun (s : State) (k rd rs1 rs2 : Nat) (upset : Option (Nat × Bool)) (u : State) (now p : Nat) => (s.standsAt k .pub rd rs1 rs2 = true) ∧ (u = s.lmUpset k upset) ∧ (u.partOf k = some p) ∧ ((u.core k).rx rs2 < 64) ∧ (bitOf ((u.part p).word (9 + (u.core k).rx rs2 / 32)) ((u.core k).rx rs2 % 32) = true) ∧ ((u.core k).rx rs1 % 64 = 0) ∧ (inLocal ((u.core k).rx rs1) 1536 = true) ∧ ((u.core k).lmBad ((u.core k).rx rs1) 1536 = false) ∧ (160 < leAt ((u.core k).lmBytes ((u.core k).rx rs1) 1536) 4 2 ∨ 200 < leAt ((u.core k).lmBytes ((u.core k).rx rs1) 1536) 6 2)) ((({ State.reset with th := { State.reset.th with core := [(3, { run := .running, pc := 0x100000000, x := [(11, 268436480), (12, 5)], mem := [(0x404, 161#8)] })], part := [(0, { words := [2 ^ 31, 8, 0, 0, 0, 0, 0, 0, 0, 32] })] } }).memWrite 0x1040000000 [43#8, 165#8, 197#8, 0#8])) 3 10 11 12 (none) ((({ State.reset with th := { State.reset.th with core := [(3, { run := .running, pc := 0x100000000, x := [(11, 268436480), (12, 5)], mem := [(0x404, 161#8)] })], part := [(0, { words := [2 ^ 31, 8, 0, 0, 0, 0, 0, 0, 0, 32] })] } }).memWrite 0x1040000000 [43#8, 165#8, 197#8, 0#8]).lmUpset 3 (none)) 1000 0) ∧
    ((fun (s : State) (k rd rs1 rs2 : Nat) (p : Nat) => (s.standsAt k .slotsel rd rs1 rs2 = true) ∧ (s.partOf k = some p) ∧ ((s.core k).rx rs1 < 16) ∧ ((s.core k).rx rs2 < 2)) ((({ State.reset with th := { State.reset.th with core := [(3, { run := .running, pc := 0x100000000, x := [(11, 15), (12, 1)] })], part := [(0, { words := [2 ^ 31, 8] })] } }).memWrite 0x1040000000 [43#8, 197#8, 197#8, 0#8])) 3 10 11 12 0) ∧
    ((fun (s : State) (k rd rs1 rs2 : Nat) (p : Nat) => (s.standsAt k .slotsel rd rs1 rs2 = true) ∧ (s.partOf k = some p) ∧ (16 ≤ (s.core k).rx rs1 ∨ 2 ≤ (s.core k).rx rs2)) ((({ State.reset with th := { State.reset.th with core := [(3, { run := .running, pc := 0x100000000, x := [(11, 15), (12, 2)] })], part := [(0, { words := [2 ^ 31, 8] })] } }).memWrite 0x1040000000 [43#8, 197#8, 197#8, 0#8])) 3 10 11 12 0) ∧
    ((fun (s : State) (k rd rs1 rs2 : Nat) (p : Nat) => (s.standsAt k .slotsel rd rs1 rs2 = true) ∧ (s.partOf k = some p) ∧ (16 ≤ (s.core k).rx rs1 ∨ 2 ≤ (s.core k).rx rs2)) ((({ State.reset with th := { State.reset.th with core := [(3, { run := .running, pc := 0x100000000, x := [(11, 16), (12, 1)] })], part := [(0, { words := [2 ^ 31, 8] })] } }).memWrite 0x1040000000 [43#8, 197#8, 197#8, 0#8])) 3 10 11 12 0) := by
  repeat refine And.intro (by decide +kernel) ?_
  decide +kernel

theorem test_meets_TensorTilesAndProducts :
    ((fun (s : State) (k rd rs1 rs2 : Nat)  => (s.standsAt k .tzero rd rs1 rs2 = true)) ((({ State.reset with th := { State.reset.th with core := [(3, { run := .running, pc := 0x100000000, x := [], tile := [(600, 9)] })], part := [(0, { words := [2 ^ 31, 8] })] } }).memWrite 0x1040000000 [91#8, 1#8, 0#8, 0#8])) 3 2 0 0) ∧
    ((fun (s : State) (k rd rs1 rs2 : Nat) (upset : Option (Nat × Bool)) (u : State)  => (s.standsAt k .tld rd rs1 rs2 = true) ∧ (u = s.lmUpset k upset) ∧ ((u.core k).rx rs1 % 64 = 0) ∧ (inLocal ((u.core k).rx rs1) 1024 = true) ∧ ((u.core k).lmBad ((u.core k).rx rs1) 1024 = false)) ((({ State.reset with th := { State.reset.th with core := [(3, { run := .running, pc := 0x100000000, x := [(11, 268436480)], mem := [(0x404, 9#8)] })], part := [(0, { words := [2 ^ 31, 8] })] } }).memWrite 0x1040000000 [91#8, 145#8, 5#8, 0#8])) 3 2 11 0 none ((({ State.reset with th := { State.reset.th with core := [(3, { run := .running, pc := 0x100000000, x := [(11, 268436480)], mem := [(0x404, 9#8)] })], part := [(0, { words := [2 ^ 31, 8] })] } }).memWrite 0x1040000000 [91#8, 145#8, 5#8, 0#8]).lmUpset 3 none)) ∧
    ((fun (s : State) (k rd rs1 rs2 : Nat)  => (s.standsAt k .tst rd rs1 rs2 = true) ∧ ((s.core k).rx rs1 % 64 = 0) ∧ (inLocal ((s.core k).rx rs1) 1024 = true)) ((({ State.reset with th := { State.reset.th with core := [(3, { run := .running, pc := 0x100000000, x := [(11, 268436480)], tile := [(600, 9)] })], part := [(0, { words := [2 ^ 31, 8] })] } }).memWrite 0x1040000000 [91#8, 145#8, 5#8, 2#8])) 3 2 11 0) ∧
    ((fun (s : State) (k rd rs1 rs2 : Nat) (upset : Option (Nat × Bool)) (u : State)  => (s.standsAt k .tld rd rs1 rs2 = true) ∧ (u = s.lmUpset k upset) ∧ ((u.core k).rx rs1 % 64 ≠ 0)) ((({ State.reset with th := { State.reset.th with core := [(3, { run := .running, pc := 0x100000000, x := [(11, 268436484)] })], part := [(0, { words := [2 ^ 31, 8] })] } }).memWrite 0x1040000000 [91#8, 145#8, 5#8, 0#8])) 3 2 11 0 none ((({ State.reset with th := { State.reset.th with core := [(3, { run := .running, pc := 0x100000000, x := [(11, 268436484)] })], part := [(0, { words := [2 ^ 31, 8] })] } }).memWrite 0x1040000000 [91#8, 145#8, 5#8, 0#8]).lmUpset 3 none)) ∧
    ((fun (s : State) (k rd rs1 rs2 : Nat)  => (s.standsAt k .tst rd rs1 rs2 = true) ∧ ((s.core k).rx rs1 % 64 ≠ 0)) ((({ State.reset with th := { State.reset.th with core := [(3, { run := .running, pc := 0x100000000, x := [(11, 268436484)] })], part := [(0, { words := [2 ^ 31, 8] })] } }).memWrite 0x1040000000 [91#8, 145#8, 5#8, 2#8])) 3 2 11 0) ∧
    ((fun (s : State) (k rd rs1 rs2 : Nat) (upset : Option (Nat × Bool)) (u : State)  => (s.standsAt k .tmma rd rs1 rs2 = true) ∧ (u = s.lmUpset k upset) ∧ (tfOk (tfA (u.core k).tfmt) (tfB (u.core k).tfmt) = true) ∧ ((u.core k).rx rs1 % 64 = 0) ∧ (inLocal ((u.core k).rx rs1) (256 * tfSize (tfA (u.core k).tfmt)) = true) ∧ ((u.core k).lmBad ((u.core k).rx rs1) (256 * tfSize (tfA (u.core k).tfmt)) = false) ∧ ((u.core k).rx rs2 % 64 = 0) ∧ (inLocal ((u.core k).rx rs2) (256 * tfSize (tfA (u.core k).tfmt)) = true) ∧ ((u.core k).lmBad ((u.core k).rx rs2) (256 * tfSize (tfA (u.core k).tfmt)) = false)) ((({ State.reset with th := { State.reset.th with core := [(3, { run := .running, pc := 0x100000000, x := [(11, 268436480), (12, 268437504)], tfmt := 0x33, mem := [(0x400, 3#8), (0x401, 2#8), (0x800, 5#8), (0x810, 4#8)] })], part := [(0, { words := [2 ^ 31, 8] })] } }).memWrite 0x1040000000 [91#8, 161#8, 197#8, 0#8])) 3 2 11 12 none ((({ State.reset with th := { State.reset.th with core := [(3, { run := .running, pc := 0x100000000, x := [(11, 268436480), (12, 268437504)], tfmt := 0x33, mem := [(0x400, 3#8), (0x401, 2#8), (0x800, 5#8), (0x810, 4#8)] })], part := [(0, { words := [2 ^ 31, 8] })] } }).memWrite 0x1040000000 [91#8, 161#8, 197#8, 0#8]).lmUpset 3 none)) ∧
    ((fun (s : State) (k rd rs1 rs2 : Nat) (upset : Option (Nat × Bool)) (u : State)  => (s.standsAt k .tmma rd rs1 rs2 = true) ∧ (u = s.lmUpset k upset) ∧ (tfOk (tfA (u.core k).tfmt) (tfB (u.core k).tfmt) = false)) ((({ State.reset with th := { State.reset.th with core := [(3, { run := .running, pc := 0x100000000, x := [], tfmt := 0x30 })], part := [(0, { words := [2 ^ 31, 8] })] } }).memWrite 0x1040000000 [91#8, 161#8, 197#8, 0#8])) 3 2 11 12 none ((({ State.reset with th := { State.reset.th with core := [(3, { run := .running, pc := 0x100000000, x := [], tfmt := 0x30 })], part := [(0, { words := [2 ^ 31, 8] })] } }).memWrite 0x1040000000 [91#8, 161#8, 197#8, 0#8]).lmUpset 3 none)) ∧
    ((fun (s : State) (k rd rs1 rs2 : Nat) (upset : Option (Nat × Bool)) (u : State)  => (s.standsAt k .tmmaT rd rs1 rs2 = true) ∧ (u = s.lmUpset k upset) ∧ (tfOk (tfA (u.core k).tfmt) (tfB (u.core k).tfmt) = true) ∧ ((u.core k).rx rs1 % 64 = 0) ∧ (inLocal ((u.core k).rx rs1) (256 * tfSize (tfA (u.core k).tfmt)) = true) ∧ ((u.core k).lmBad ((u.core k).rx rs1) (256 * tfSize (tfA (u.core k).tfmt)) = false) ∧ ((u.core k).rx rs2 % 64 = 0) ∧ (inLocal ((u.core k).rx rs2) (256 * tfSize (tfA (u.core k).tfmt)) = true) ∧ ((u.core k).lmBad ((u.core k).rx rs2) (256 * tfSize (tfA (u.core k).tfmt)) = false)) ((({ State.reset with th := { State.reset.th with core := [(3, { run := .running, pc := 0x100000000, x := [(11, 268436480), (12, 268437504)], tfmt := 0x33, mem := [(0x400, 3#8), (0x401, 2#8), (0x800, 5#8), (0x810, 4#8)] })], part := [(0, { words := [2 ^ 31, 8] })] } }).memWrite 0x1040000000 [91#8, 161#8, 197#8, 2#8])) 3 2 11 12 none ((({ State.reset with th := { State.reset.th with core := [(3, { run := .running, pc := 0x100000000, x := [(11, 268436480), (12, 268437504)], tfmt := 0x33, mem := [(0x400, 3#8), (0x401, 2#8), (0x800, 5#8), (0x810, 4#8)] })], part := [(0, { words := [2 ^ 31, 8] })] } }).memWrite 0x1040000000 [91#8, 161#8, 197#8, 2#8]).lmUpset 3 none)) ∧
    ((fun (s : State) (k rd rs1 rs2 : Nat) (upset : Option (Nat × Bool)) (u : State)  => (s.standsAt k .tmmaT rd rs1 rs2 = true) ∧ (u = s.lmUpset k upset) ∧ (tfOk (tfA (u.core k).tfmt) (tfB (u.core k).tfmt) = false)) ((({ State.reset with th := { State.reset.th with core := [(3, { run := .running, pc := 0x100000000, x := [], tfmt := 0x30 })], part := [(0, { words := [2 ^ 31, 8] })] } }).memWrite 0x1040000000 [91#8, 161#8, 197#8, 2#8])) 3 2 11 12 none ((({ State.reset with th := { State.reset.th with core := [(3, { run := .running, pc := 0x100000000, x := [], tfmt := 0x30 })], part := [(0, { words := [2 ^ 31, 8] })] } }).memWrite 0x1040000000 [91#8, 161#8, 197#8, 2#8]).lmUpset 3 none)) := by
  repeat refine And.intro (by decide +kernel) ?_
  decide +kernel

theorem test_meets_ConversionsNarrowAndWiden :
    ((fun (s : State) (k rd rs1 rs2 : Nat) (upset : Option (Nat × Bool)) (u : State) (o : List Byte × Nat) => (s.standsAt k (.narrow .e4m3 false) rd rs1 rs2 = true) ∧ (u = s.lmUpset k upset) ∧ ((u.core k).cvtFault ((u.core k).rx rs1) (4 * (u.core k).cvtN) ((u.core k).rx rs2) (CvtFmt.bytes .e4m3 (u.core k).cvtN) true = none) ∧ (o = narrowAll .e4m3 (tfCvtShift (u.core k).tfmt) ((splitLe 4 (u.core k).cvtN ((u.core k).lmBytes ((u.core k).rx rs1) (4 * (u.core k).cvtN))).map fun (x : Nat) => (x, none)))) ((({ State.reset with th := { State.reset.th with core := [(3, { run := .running, pc := 0x100000000, x := [(11, 268436480), (12, 268437504)], rng := 77, cvtN := 32, mem := [(0x402, 0x80#8), (0x403, 0x3F#8)] })], part := [(0, { words := [2 ^ 31, 8] })] } }).memWrite 0x1040000000 [123#8, 128#8, 197#8, 0#8])) 3 0 11 12 none ((({ State.reset with th := { State.reset.th with core := [(3, { run := .running, pc := 0x100000000, x := [(11, 268436480), (12, 268437504)], rng := 77, cvtN := 32, mem := [(0x402, 0x80#8), (0x403, 0x3F#8)] })], part := [(0, { words := [2 ^ 31, 8] })] } }).memWrite 0x1040000000 [123#8, 128#8, 197#8, 0#8]).lmUpset 3 none) (narrowAll .e4m3 (tfCvtShift ((({ State.reset with th := { State.reset.th with core := [(3, { run := .running, pc := 0x100000000, x := [(11, 268436480), (12, 268437504)], rng := 77, cvtN := 32, mem := [(0x402, 0x80#8), (0x403, 0x3F#8)] })], part := [(0, { words := [2 ^ 31, 8] })] } }).memWrite 0x1040000000 [123#8, 128#8, 197#8, 0#8]).core 3).tfmt) ((splitLe 4 ((({ State.reset with th := { State.reset.th with core := [(3, { run := .running, pc := 0x100000000, x := [(11, 268436480), (12, 268437504)], rng := 77, cvtN := 32, mem := [(0x402, 0x80#8), (0x403, 0x3F#8)] })], part := [(0, { words := [2 ^ 31, 8] })] } }).memWrite 0x1040000000 [123#8, 128#8, 197#8, 0#8]).core 3).cvtN (((({ State.reset with th := { State.reset.th with core := [(3, { run := .running, pc := 0x100000000, x := [(11, 268436480), (12, 268437504)], rng := 77, cvtN := 32, mem := [(0x402, 0x80#8), (0x403, 0x3F#8)] })], part := [(0, { words := [2 ^ 31, 8] })] } }).memWrite 0x1040000000 [123#8, 128#8, 197#8, 0#8]).core 3).lmBytes (((({ State.reset with th := { State.reset.th with core := [(3, { run := .running, pc := 0x100000000, x := [(11, 268436480), (12, 268437504)], rng := 77, cvtN := 32, mem := [(0x402, 0x80#8), (0x403, 0x3F#8)] })], part := [(0, { words := [2 ^ 31, 8] })] } }).memWrite 0x1040000000 [123#8, 128#8, 197#8, 0#8]).core 3).rx 11) (4 * ((({ State.reset with th := { State.reset.th with core := [(3, { run := .running, pc := 0x100000000, x := [(11, 268436480), (12, 268437504)], rng := 77, cvtN := 32, mem := [(0x402, 0x80#8), (0x403, 0x3F#8)] })], part := [(0, { words := [2 ^ 31, 8] })] } }).memWrite 0x1040000000 [123#8, 128#8, 197#8, 0#8]).core 3).cvtN))).map fun (x : Nat) => (x, none)))) ∧
    ((fun (s : State) (k rd rs1 rs2 : Nat) (upset : Option (Nat × Bool)) (u : State) (o : List Byte × Nat) => (s.standsAt k (.narrow .e4m3 true) rd rs1 rs2 = true) ∧ (u = s.lmUpset k upset) ∧ ((u.core k).cvtFault ((u.core k).rx rs1) (4 * (u.core k).cvtN) ((u.core k).rx rs2) (CvtFmt.bytes .e4m3 (u.core k).cvtN) true = none) ∧ (o = narrowAll .e4m3 (tfCvtShift (u.core k).tfmt) ((splitLe 4 (u.core k).cvtN ((u.core k).lmBytes ((u.core k).rx rs1) (4 * (u.core k).cvtN))).zip ((rngRun ((u.core k).cvtN / 4) (u.core k).rng).1.map some)))) ((({ State.reset with th := { State.reset.th with core := [(3, { run := .running, pc := 0x100000000, x := [(11, 268436480), (12, 268437504)], rng := 77, cvtN := 32, mem := [(0x402, 0x80#8), (0x403, 0x3F#8)] })], part := [(0, { words := [2 ^ 31, 8] })] } }).memWrite 0x1040000000 [123#8, 144#8, 197#8, 0#8])) 3 0 11 12 none ((({ State.reset with th := { State.reset.th with core := [(3, { run := .running, pc := 0x100000000, x := [(11, 268436480), (12, 268437504)], rng := 77, cvtN := 32, mem := [(0x402, 0x80#8), (0x403, 0x3F#8)] })], part := [(0, { words := [2 ^ 31, 8] })] } }).memWrite 0x1040000000 [123#8, 144#8, 197#8, 0#8]).lmUpset 3 none) (narrowAll .e4m3 (tfCvtShift ((({ State.reset with th := { State.reset.th with core := [(3, { run := .running, pc := 0x100000000, x := [(11, 268436480), (12, 268437504)], rng := 77, cvtN := 32, mem := [(0x402, 0x80#8), (0x403, 0x3F#8)] })], part := [(0, { words := [2 ^ 31, 8] })] } }).memWrite 0x1040000000 [123#8, 144#8, 197#8, 0#8]).core 3).tfmt) ((splitLe 4 ((({ State.reset with th := { State.reset.th with core := [(3, { run := .running, pc := 0x100000000, x := [(11, 268436480), (12, 268437504)], rng := 77, cvtN := 32, mem := [(0x402, 0x80#8), (0x403, 0x3F#8)] })], part := [(0, { words := [2 ^ 31, 8] })] } }).memWrite 0x1040000000 [123#8, 144#8, 197#8, 0#8]).core 3).cvtN (((({ State.reset with th := { State.reset.th with core := [(3, { run := .running, pc := 0x100000000, x := [(11, 268436480), (12, 268437504)], rng := 77, cvtN := 32, mem := [(0x402, 0x80#8), (0x403, 0x3F#8)] })], part := [(0, { words := [2 ^ 31, 8] })] } }).memWrite 0x1040000000 [123#8, 144#8, 197#8, 0#8]).core 3).lmBytes (((({ State.reset with th := { State.reset.th with core := [(3, { run := .running, pc := 0x100000000, x := [(11, 268436480), (12, 268437504)], rng := 77, cvtN := 32, mem := [(0x402, 0x80#8), (0x403, 0x3F#8)] })], part := [(0, { words := [2 ^ 31, 8] })] } }).memWrite 0x1040000000 [123#8, 144#8, 197#8, 0#8]).core 3).rx 11) (4 * ((({ State.reset with th := { State.reset.th with core := [(3, { run := .running, pc := 0x100000000, x := [(11, 268436480), (12, 268437504)], rng := 77, cvtN := 32, mem := [(0x402, 0x80#8), (0x403, 0x3F#8)] })], part := [(0, { words := [2 ^ 31, 8] })] } }).memWrite 0x1040000000 [123#8, 144#8, 197#8, 0#8]).core 3).cvtN))).zip ((rngRun (((({ State.reset with th := { State.reset.th with core := [(3, { run := .running, pc := 0x100000000, x := [(11, 268436480), (12, 268437504)], rng := 77, cvtN := 32, mem := [(0x402, 0x80#8), (0x403, 0x3F#8)] })], part := [(0, { words := [2 ^ 31, 8] })] } }).memWrite 0x1040000000 [123#8, 144#8, 197#8, 0#8]).core 3).cvtN / 4) ((({ State.reset with th := { State.reset.th with core := [(3, { run := .running, pc := 0x100000000, x := [(11, 268436480), (12, 268437504)], rng := 77, cvtN := 32, mem := [(0x402, 0x80#8), (0x403, 0x3F#8)] })], part := [(0, { words := [2 ^ 31, 8] })] } }).memWrite 0x1040000000 [123#8, 144#8, 197#8, 0#8]).core 3).rng).1.map some)))) ∧
    ((fun (s : State) (k rd rs1 rs2 : Nat) (upset : Option (Nat × Bool)) (u : State) (o : List Byte × Nat) => (s.standsAt k (.narrow .e5m2 false) rd rs1 rs2 = true) ∧ (u = s.lmUpset k upset) ∧ ((u.core k).cvtFault ((u.core k).rx rs1) (4 * (u.core k).cvtN) ((u.core k).rx rs2) (CvtFmt.bytes .e5m2 (u.core k).cvtN) true = none) ∧ (o = narrowAll .e5m2 (tfCvtShift (u.core k).tfmt) ((splitLe 4 (u.core k).cvtN ((u.core k).lmBytes ((u.core k).rx rs1) (4 * (u.core k).cvtN))).map fun (x : Nat) => (x, none)))) ((({ State.reset with th := { State.reset.th with core := [(3, { run := .running, pc := 0x100000000, x := [(11, 268436480), (12, 268437504)], rng := 77, cvtN := 32, mem := [(0x402, 0x80#8), (0x403, 0x3F#8)] })], part := [(0, { words := [2 ^ 31, 8] })] } }).memWrite 0x1040000000 [123#8, 128#8, 197#8, 2#8])) 3 0 11 12 none ((({ State.reset with th := { State.reset.th with core := [(3, { run := .running, pc := 0x100000000, x := [(11, 268436480), (12, 268437504)], rng := 77, cvtN := 32, mem := [(0x402, 0x80#8), (0x403, 0x3F#8)] })], part := [(0, { words := [2 ^ 31, 8] })] } }).memWrite 0x1040000000 [123#8, 128#8, 197#8, 2#8]).lmUpset 3 none) (narrowAll .e5m2 (tfCvtShift ((({ State.reset with th := { State.reset.th with core := [(3, { run := .running, pc := 0x100000000, x := [(11, 268436480), (12, 268437504)], rng := 77, cvtN := 32, mem := [(0x402, 0x80#8), (0x403, 0x3F#8)] })], part := [(0, { words := [2 ^ 31, 8] })] } }).memWrite 0x1040000000 [123#8, 128#8, 197#8, 2#8]).core 3).tfmt) ((splitLe 4 ((({ State.reset with th := { State.reset.th with core := [(3, { run := .running, pc := 0x100000000, x := [(11, 268436480), (12, 268437504)], rng := 77, cvtN := 32, mem := [(0x402, 0x80#8), (0x403, 0x3F#8)] })], part := [(0, { words := [2 ^ 31, 8] })] } }).memWrite 0x1040000000 [123#8, 128#8, 197#8, 2#8]).core 3).cvtN (((({ State.reset with th := { State.reset.th with core := [(3, { run := .running, pc := 0x100000000, x := [(11, 268436480), (12, 268437504)], rng := 77, cvtN := 32, mem := [(0x402, 0x80#8), (0x403, 0x3F#8)] })], part := [(0, { words := [2 ^ 31, 8] })] } }).memWrite 0x1040000000 [123#8, 128#8, 197#8, 2#8]).core 3).lmBytes (((({ State.reset with th := { State.reset.th with core := [(3, { run := .running, pc := 0x100000000, x := [(11, 268436480), (12, 268437504)], rng := 77, cvtN := 32, mem := [(0x402, 0x80#8), (0x403, 0x3F#8)] })], part := [(0, { words := [2 ^ 31, 8] })] } }).memWrite 0x1040000000 [123#8, 128#8, 197#8, 2#8]).core 3).rx 11) (4 * ((({ State.reset with th := { State.reset.th with core := [(3, { run := .running, pc := 0x100000000, x := [(11, 268436480), (12, 268437504)], rng := 77, cvtN := 32, mem := [(0x402, 0x80#8), (0x403, 0x3F#8)] })], part := [(0, { words := [2 ^ 31, 8] })] } }).memWrite 0x1040000000 [123#8, 128#8, 197#8, 2#8]).core 3).cvtN))).map fun (x : Nat) => (x, none)))) ∧
    ((fun (s : State) (k rd rs1 rs2 : Nat) (upset : Option (Nat × Bool)) (u : State) (o : List Byte × Nat) => (s.standsAt k (.narrow .e5m2 true) rd rs1 rs2 = true) ∧ (u = s.lmUpset k upset) ∧ ((u.core k).cvtFault ((u.core k).rx rs1) (4 * (u.core k).cvtN) ((u.core k).rx rs2) (CvtFmt.bytes .e5m2 (u.core k).cvtN) true = none) ∧ (o = narrowAll .e5m2 (tfCvtShift (u.core k).tfmt) ((splitLe 4 (u.core k).cvtN ((u.core k).lmBytes ((u.core k).rx rs1) (4 * (u.core k).cvtN))).zip ((rngRun ((u.core k).cvtN / 4) (u.core k).rng).1.map some)))) ((({ State.reset with th := { State.reset.th with core := [(3, { run := .running, pc := 0x100000000, x := [(11, 268436480), (12, 268437504)], rng := 77, cvtN := 32, mem := [(0x402, 0x80#8), (0x403, 0x3F#8)] })], part := [(0, { words := [2 ^ 31, 8] })] } }).memWrite 0x1040000000 [123#8, 144#8, 197#8, 2#8])) 3 0 11 12 none ((({ State.reset with th := { State.reset.th with core := [(3, { run := .running, pc := 0x100000000, x := [(11, 268436480), (12, 268437504)], rng := 77, cvtN := 32, mem := [(0x402, 0x80#8), (0x403, 0x3F#8)] })], part := [(0, { words := [2 ^ 31, 8] })] } }).memWrite 0x1040000000 [123#8, 144#8, 197#8, 2#8]).lmUpset 3 none) (narrowAll .e5m2 (tfCvtShift ((({ State.reset with th := { State.reset.th with core := [(3, { run := .running, pc := 0x100000000, x := [(11, 268436480), (12, 268437504)], rng := 77, cvtN := 32, mem := [(0x402, 0x80#8), (0x403, 0x3F#8)] })], part := [(0, { words := [2 ^ 31, 8] })] } }).memWrite 0x1040000000 [123#8, 144#8, 197#8, 2#8]).core 3).tfmt) ((splitLe 4 ((({ State.reset with th := { State.reset.th with core := [(3, { run := .running, pc := 0x100000000, x := [(11, 268436480), (12, 268437504)], rng := 77, cvtN := 32, mem := [(0x402, 0x80#8), (0x403, 0x3F#8)] })], part := [(0, { words := [2 ^ 31, 8] })] } }).memWrite 0x1040000000 [123#8, 144#8, 197#8, 2#8]).core 3).cvtN (((({ State.reset with th := { State.reset.th with core := [(3, { run := .running, pc := 0x100000000, x := [(11, 268436480), (12, 268437504)], rng := 77, cvtN := 32, mem := [(0x402, 0x80#8), (0x403, 0x3F#8)] })], part := [(0, { words := [2 ^ 31, 8] })] } }).memWrite 0x1040000000 [123#8, 144#8, 197#8, 2#8]).core 3).lmBytes (((({ State.reset with th := { State.reset.th with core := [(3, { run := .running, pc := 0x100000000, x := [(11, 268436480), (12, 268437504)], rng := 77, cvtN := 32, mem := [(0x402, 0x80#8), (0x403, 0x3F#8)] })], part := [(0, { words := [2 ^ 31, 8] })] } }).memWrite 0x1040000000 [123#8, 144#8, 197#8, 2#8]).core 3).rx 11) (4 * ((({ State.reset with th := { State.reset.th with core := [(3, { run := .running, pc := 0x100000000, x := [(11, 268436480), (12, 268437504)], rng := 77, cvtN := 32, mem := [(0x402, 0x80#8), (0x403, 0x3F#8)] })], part := [(0, { words := [2 ^ 31, 8] })] } }).memWrite 0x1040000000 [123#8, 144#8, 197#8, 2#8]).core 3).cvtN))).zip ((rngRun (((({ State.reset with th := { State.reset.th with core := [(3, { run := .running, pc := 0x100000000, x := [(11, 268436480), (12, 268437504)], rng := 77, cvtN := 32, mem := [(0x402, 0x80#8), (0x403, 0x3F#8)] })], part := [(0, { words := [2 ^ 31, 8] })] } }).memWrite 0x1040000000 [123#8, 144#8, 197#8, 2#8]).core 3).cvtN / 4) ((({ State.reset with th := { State.reset.th with core := [(3, { run := .running, pc := 0x100000000, x := [(11, 268436480), (12, 268437504)], rng := 77, cvtN := 32, mem := [(0x402, 0x80#8), (0x403, 0x3F#8)] })], part := [(0, { words := [2 ^ 31, 8] })] } }).memWrite 0x1040000000 [123#8, 144#8, 197#8, 2#8]).core 3).rng).1.map some)))) ∧
    ((fun (s : State) (k rd rs1 rs2 : Nat) (upset : Option (Nat × Bool)) (u : State) (o : List Byte × Nat) => (s.standsAt k (.narrow .bf16 false) rd rs1 rs2 = true) ∧ (u = s.lmUpset k upset) ∧ ((u.core k).cvtFault ((u.core k).rx rs1) (4 * (u.core k).cvtN) ((u.core k).rx rs2) (CvtFmt.bytes .bf16 (u.core k).cvtN) true = none) ∧ (o = narrowAll .bf16 (tfCvtShift (u.core k).tfmt) ((splitLe 4 (u.core k).cvtN ((u.core k).lmBytes ((u.core k).rx rs1) (4 * (u.core k).cvtN))).map fun (x : Nat) => (x, none)))) ((({ State.reset with th := { State.reset.th with core := [(3, { run := .running, pc := 0x100000000, x := [(11, 268436480), (12, 268437504)], rng := 77, cvtN := 32, mem := [(0x402, 0x80#8), (0x403, 0x3F#8)] })], part := [(0, { words := [2 ^ 31, 8] })] } }).memWrite 0x1040000000 [123#8, 128#8, 197#8, 4#8])) 3 0 11 12 none ((({ State.reset with th := { State.reset.th with core := [(3, { run := .running, pc := 0x100000000, x := [(11, 268436480), (12, 268437504)], rng := 77, cvtN := 32, mem := [(0x402, 0x80#8), (0x403, 0x3F#8)] })], part := [(0, { words := [2 ^ 31, 8] })] } }).memWrite 0x1040000000 [123#8, 128#8, 197#8, 4#8]).lmUpset 3 none) (narrowAll .bf16 (tfCvtShift ((({ State.reset with th := { State.reset.th with core := [(3, { run := .running, pc := 0x100000000, x := [(11, 268436480), (12, 268437504)], rng := 77, cvtN := 32, mem := [(0x402, 0x80#8), (0x403, 0x3F#8)] })], part := [(0, { words := [2 ^ 31, 8] })] } }).memWrite 0x1040000000 [123#8, 128#8, 197#8, 4#8]).core 3).tfmt) ((splitLe 4 ((({ State.reset with th := { State.reset.th with core := [(3, { run := .running, pc := 0x100000000, x := [(11, 268436480), (12, 268437504)], rng := 77, cvtN := 32, mem := [(0x402, 0x80#8), (0x403, 0x3F#8)] })], part := [(0, { words := [2 ^ 31, 8] })] } }).memWrite 0x1040000000 [123#8, 128#8, 197#8, 4#8]).core 3).cvtN (((({ State.reset with th := { State.reset.th with core := [(3, { run := .running, pc := 0x100000000, x := [(11, 268436480), (12, 268437504)], rng := 77, cvtN := 32, mem := [(0x402, 0x80#8), (0x403, 0x3F#8)] })], part := [(0, { words := [2 ^ 31, 8] })] } }).memWrite 0x1040000000 [123#8, 128#8, 197#8, 4#8]).core 3).lmBytes (((({ State.reset with th := { State.reset.th with core := [(3, { run := .running, pc := 0x100000000, x := [(11, 268436480), (12, 268437504)], rng := 77, cvtN := 32, mem := [(0x402, 0x80#8), (0x403, 0x3F#8)] })], part := [(0, { words := [2 ^ 31, 8] })] } }).memWrite 0x1040000000 [123#8, 128#8, 197#8, 4#8]).core 3).rx 11) (4 * ((({ State.reset with th := { State.reset.th with core := [(3, { run := .running, pc := 0x100000000, x := [(11, 268436480), (12, 268437504)], rng := 77, cvtN := 32, mem := [(0x402, 0x80#8), (0x403, 0x3F#8)] })], part := [(0, { words := [2 ^ 31, 8] })] } }).memWrite 0x1040000000 [123#8, 128#8, 197#8, 4#8]).core 3).cvtN))).map fun (x : Nat) => (x, none)))) ∧
    ((fun (s : State) (k rd rs1 rs2 : Nat) (upset : Option (Nat × Bool)) (u : State) (o : List Byte × Nat) => (s.standsAt k (.narrow .bf16 true) rd rs1 rs2 = true) ∧ (u = s.lmUpset k upset) ∧ ((u.core k).cvtFault ((u.core k).rx rs1) (4 * (u.core k).cvtN) ((u.core k).rx rs2) (CvtFmt.bytes .bf16 (u.core k).cvtN) true = none) ∧ (o = narrowAll .bf16 (tfCvtShift (u.core k).tfmt) ((splitLe 4 (u.core k).cvtN ((u.core k).lmBytes ((u.core k).rx rs1) (4 * (u.core k).cvtN))).zip ((rngRun ((u.core k).cvtN / 4) (u.core k).rng).1.map some)))) ((({ State.reset with th := { State.reset.th with core := [(3, { run := .running, pc := 0x100000000, x := [(11, 268436480), (12, 268437504)], rng := 77, cvtN := 32, mem := [(0x402, 0x80#8), (0x403, 0x3F#8)] })], part := [(0, { words := [2 ^ 31, 8] })] } }).memWrite 0x1040000000 [123#8, 144#8, 197#8, 4#8])) 3 0 11 12 none ((({ State.reset with th := { State.reset.th with core := [(3, { run := .running, pc := 0x100000000, x := [(11, 268436480), (12, 268437504)], rng := 77, cvtN := 32, mem := [(0x402, 0x80#8), (0x403, 0x3F#8)] })], part := [(0, { words := [2 ^ 31, 8] })] } }).memWrite 0x1040000000 [123#8, 144#8, 197#8, 4#8]).lmUpset 3 none) (narrowAll .bf16 (tfCvtShift ((({ State.reset with th := { State.reset.th with core := [(3, { run := .running, pc := 0x100000000, x := [(11, 268436480), (12, 268437504)], rng := 77, cvtN := 32, mem := [(0x402, 0x80#8), (0x403, 0x3F#8)] })], part := [(0, { words := [2 ^ 31, 8] })] } }).memWrite 0x1040000000 [123#8, 144#8, 197#8, 4#8]).core 3).tfmt) ((splitLe 4 ((({ State.reset with th := { State.reset.th with core := [(3, { run := .running, pc := 0x100000000, x := [(11, 268436480), (12, 268437504)], rng := 77, cvtN := 32, mem := [(0x402, 0x80#8), (0x403, 0x3F#8)] })], part := [(0, { words := [2 ^ 31, 8] })] } }).memWrite 0x1040000000 [123#8, 144#8, 197#8, 4#8]).core 3).cvtN (((({ State.reset with th := { State.reset.th with core := [(3, { run := .running, pc := 0x100000000, x := [(11, 268436480), (12, 268437504)], rng := 77, cvtN := 32, mem := [(0x402, 0x80#8), (0x403, 0x3F#8)] })], part := [(0, { words := [2 ^ 31, 8] })] } }).memWrite 0x1040000000 [123#8, 144#8, 197#8, 4#8]).core 3).lmBytes (((({ State.reset with th := { State.reset.th with core := [(3, { run := .running, pc := 0x100000000, x := [(11, 268436480), (12, 268437504)], rng := 77, cvtN := 32, mem := [(0x402, 0x80#8), (0x403, 0x3F#8)] })], part := [(0, { words := [2 ^ 31, 8] })] } }).memWrite 0x1040000000 [123#8, 144#8, 197#8, 4#8]).core 3).rx 11) (4 * ((({ State.reset with th := { State.reset.th with core := [(3, { run := .running, pc := 0x100000000, x := [(11, 268436480), (12, 268437504)], rng := 77, cvtN := 32, mem := [(0x402, 0x80#8), (0x403, 0x3F#8)] })], part := [(0, { words := [2 ^ 31, 8] })] } }).memWrite 0x1040000000 [123#8, 144#8, 197#8, 4#8]).core 3).cvtN))).zip ((rngRun (((({ State.reset with th := { State.reset.th with core := [(3, { run := .running, pc := 0x100000000, x := [(11, 268436480), (12, 268437504)], rng := 77, cvtN := 32, mem := [(0x402, 0x80#8), (0x403, 0x3F#8)] })], part := [(0, { words := [2 ^ 31, 8] })] } }).memWrite 0x1040000000 [123#8, 144#8, 197#8, 4#8]).core 3).cvtN / 4) ((({ State.reset with th := { State.reset.th with core := [(3, { run := .running, pc := 0x100000000, x := [(11, 268436480), (12, 268437504)], rng := 77, cvtN := 32, mem := [(0x402, 0x80#8), (0x403, 0x3F#8)] })], part := [(0, { words := [2 ^ 31, 8] })] } }).memWrite 0x1040000000 [123#8, 144#8, 197#8, 4#8]).core 3).rng).1.map some)))) ∧
    ((fun (s : State) (k rd rs1 rs2 : Nat) (upset : Option (Nat × Bool)) (u : State) (o : List Byte × Nat) => (s.standsAt k (.narrow .i8 false) rd rs1 rs2 = true) ∧ (u = s.lmUpset k upset) ∧ ((u.core k).cvtFault ((u.core k).rx rs1) (4 * (u.core k).cvtN) ((u.core k).rx rs2) (CvtFmt.bytes .i8 (u.core k).cvtN) true = none) ∧ (o = narrowAll .i8 (tfCvtShift (u.core k).tfmt) ((splitLe 4 (u.core k).cvtN ((u.core k).lmBytes ((u.core k).rx rs1) (4 * (u.core k).cvtN))).map fun (x : Nat) => (x, none)))) ((({ State.reset with th := { State.reset.th with core := [(3, { run := .running, pc := 0x100000000, x := [(11, 268436480), (12, 268437504)], rng := 77, cvtN := 32, mem := [(0x402, 0x80#8), (0x403, 0x3F#8)] })], part := [(0, { words := [2 ^ 31, 8] })] } }).memWrite 0x1040000000 [123#8, 128#8, 197#8, 6#8])) 3 0 11 12 none ((({ State.reset with th := { State.reset.th with core := [(3, { run := .running, pc := 0x100000000, x := [(11, 268436480), (12, 268437504)], rng := 77, cvtN := 32, mem := [(0x402, 0x80#8), (0x403, 0x3F#8)] })], part := [(0, { words := [2 ^ 31, 8] })] } }).memWrite 0x1040000000 [123#8, 128#8, 197#8, 6#8]).lmUpset 3 none) (narrowAll .i8 (tfCvtShift ((({ State.reset with th := { State.reset.th with core := [(3, { run := .running, pc := 0x100000000, x := [(11, 268436480), (12, 268437504)], rng := 77, cvtN := 32, mem := [(0x402, 0x80#8), (0x403, 0x3F#8)] })], part := [(0, { words := [2 ^ 31, 8] })] } }).memWrite 0x1040000000 [123#8, 128#8, 197#8, 6#8]).core 3).tfmt) ((splitLe 4 ((({ State.reset with th := { State.reset.th with core := [(3, { run := .running, pc := 0x100000000, x := [(11, 268436480), (12, 268437504)], rng := 77, cvtN := 32, mem := [(0x402, 0x80#8), (0x403, 0x3F#8)] })], part := [(0, { words := [2 ^ 31, 8] })] } }).memWrite 0x1040000000 [123#8, 128#8, 197#8, 6#8]).core 3).cvtN (((({ State.reset with th := { State.reset.th with core := [(3, { run := .running, pc := 0x100000000, x := [(11, 268436480), (12, 268437504)], rng := 77, cvtN := 32, mem := [(0x402, 0x80#8), (0x403, 0x3F#8)] })], part := [(0, { words := [2 ^ 31, 8] })] } }).memWrite 0x1040000000 [123#8, 128#8, 197#8, 6#8]).core 3).lmBytes (((({ State.reset with th := { State.reset.th with core := [(3, { run := .running, pc := 0x100000000, x := [(11, 268436480), (12, 268437504)], rng := 77, cvtN := 32, mem := [(0x402, 0x80#8), (0x403, 0x3F#8)] })], part := [(0, { words := [2 ^ 31, 8] })] } }).memWrite 0x1040000000 [123#8, 128#8, 197#8, 6#8]).core 3).rx 11) (4 * ((({ State.reset with th := { State.reset.th with core := [(3, { run := .running, pc := 0x100000000, x := [(11, 268436480), (12, 268437504)], rng := 77, cvtN := 32, mem := [(0x402, 0x80#8), (0x403, 0x3F#8)] })], part := [(0, { words := [2 ^ 31, 8] })] } }).memWrite 0x1040000000 [123#8, 128#8, 197#8, 6#8]).core 3).cvtN))).map fun (x : Nat) => (x, none)))) ∧
    ((fun (s : State) (k rd rs1 rs2 : Nat) (upset : Option (Nat × Bool)) (u : State) (o : List Byte × Nat) => (s.standsAt k (.narrow .i8 true) rd rs1 rs2 = true) ∧ (u = s.lmUpset k upset) ∧ ((u.core k).cvtFault ((u.core k).rx rs1) (4 * (u.core k).cvtN) ((u.core k).rx rs2) (CvtFmt.bytes .i8 (u.core k).cvtN) true = none) ∧ (o = narrowAll .i8 (tfCvtShift (u.core k).tfmt) ((splitLe 4 (u.core k).cvtN ((u.core k).lmBytes ((u.core k).rx rs1) (4 * (u.core k).cvtN))).zip ((rngRun ((u.core k).cvtN / 4) (u.core k).rng).1.map some)))) ((({ State.reset with th := { State.reset.th with core := [(3, { run := .running, pc := 0x100000000, x := [(11, 268436480), (12, 268437504)], rng := 77, cvtN := 32, mem := [(0x402, 0x80#8), (0x403, 0x3F#8)] })], part := [(0, { words := [2 ^ 31, 8] })] } }).memWrite 0x1040000000 [123#8, 144#8, 197#8, 6#8])) 3 0 11 12 none ((({ State.reset with th := { State.reset.th with core := [(3, { run := .running, pc := 0x100000000, x := [(11, 268436480), (12, 268437504)], rng := 77, cvtN := 32, mem := [(0x402, 0x80#8), (0x403, 0x3F#8)] })], part := [(0, { words := [2 ^ 31, 8] })] } }).memWrite 0x1040000000 [123#8, 144#8, 197#8, 6#8]).lmUpset 3 none) (narrowAll .i8 (tfCvtShift ((({ State.reset with th := { State.reset.th with core := [(3, { run := .running, pc := 0x100000000, x := [(11, 268436480), (12, 268437504)], rng := 77, cvtN := 32, mem := [(0x402, 0x80#8), (0x403, 0x3F#8)] })], part := [(0, { words := [2 ^ 31, 8] })] } }).memWrite 0x1040000000 [123#8, 144#8, 197#8, 6#8]).core 3).tfmt) ((splitLe 4 ((({ State.reset with th := { State.reset.th with core := [(3, { run := .running, pc := 0x100000000, x := [(11, 268436480), (12, 268437504)], rng := 77, cvtN := 32, mem := [(0x402, 0x80#8), (0x403, 0x3F#8)] })], part := [(0, { words := [2 ^ 31, 8] })] } }).memWrite 0x1040000000 [123#8, 144#8, 197#8, 6#8]).core 3).cvtN (((({ State.reset with th := { State.reset.th with core := [(3, { run := .running, pc := 0x100000000, x := [(11, 268436480), (12, 268437504)], rng := 77, cvtN := 32, mem := [(0x402, 0x80#8), (0x403, 0x3F#8)] })], part := [(0, { words := [2 ^ 31, 8] })] } }).memWrite 0x1040000000 [123#8, 144#8, 197#8, 6#8]).core 3).lmBytes (((({ State.reset with th := { State.reset.th with core := [(3, { run := .running, pc := 0x100000000, x := [(11, 268436480), (12, 268437504)], rng := 77, cvtN := 32, mem := [(0x402, 0x80#8), (0x403, 0x3F#8)] })], part := [(0, { words := [2 ^ 31, 8] })] } }).memWrite 0x1040000000 [123#8, 144#8, 197#8, 6#8]).core 3).rx 11) (4 * ((({ State.reset with th := { State.reset.th with core := [(3, { run := .running, pc := 0x100000000, x := [(11, 268436480), (12, 268437504)], rng := 77, cvtN := 32, mem := [(0x402, 0x80#8), (0x403, 0x3F#8)] })], part := [(0, { words := [2 ^ 31, 8] })] } }).memWrite 0x1040000000 [123#8, 144#8, 197#8, 6#8]).core 3).cvtN))).zip ((rngRun (((({ State.reset with th := { State.reset.th with core := [(3, { run := .running, pc := 0x100000000, x := [(11, 268436480), (12, 268437504)], rng := 77, cvtN := 32, mem := [(0x402, 0x80#8), (0x403, 0x3F#8)] })], part := [(0, { words := [2 ^ 31, 8] })] } }).memWrite 0x1040000000 [123#8, 144#8, 197#8, 6#8]).core 3).cvtN / 4) ((({ State.reset with th := { State.reset.th with core := [(3, { run := .running, pc := 0x100000000, x := [(11, 268436480), (12, 268437504)], rng := 77, cvtN := 32, mem := [(0x402, 0x80#8), (0x403, 0x3F#8)] })], part := [(0, { words := [2 ^ 31, 8] })] } }).memWrite 0x1040000000 [123#8, 144#8, 197#8, 6#8]).core 3).rng).1.map some)))) ∧
    ((fun (s : State) (k rd rs1 rs2 : Nat) (upset : Option (Nat × Bool)) (u : State) (o : List Byte × Nat) => (s.standsAt k (.narrow .q12b false) rd rs1 rs2 = true) ∧ (u = s.lmUpset k upset) ∧ ((u.core k).cvtFault ((u.core k).rx rs1) (4 * (u.core k).cvtN) ((u.core k).rx rs2) (CvtFmt.bytes .q12b (u.core k).cvtN) true = none) ∧ (o = narrowAll .q12b (tfCvtShift (u.core k).tfmt) ((splitLe 4 (u.core k).cvtN ((u.core k).lmBytes ((u.core k).rx rs1) (4 * (u.core k).cvtN))).map fun (x : Nat) => (x, none)))) ((({ State.reset with th := { State.reset.th with core := [(3, { run := .running, pc := 0x100000000, x := [(11, 268436480), (12, 268437504)], rng := 77, cvtN := 32, mem := [(0x402, 0x80#8), (0x403, 0x3F#8)] })], part := [(0, { words := [2 ^ 31, 8] })] } }).memWrite 0x1040000000 [123#8, 128#8, 197#8, 8#8])) 3 0 11 12 none ((({ State.reset with th := { State.reset.th with core := [(3, { run := .running, pc := 0x100000000, x := [(11, 268436480), (12, 268437504)], rng := 77, cvtN := 32, mem := [(0x402, 0x80#8), (0x403, 0x3F#8)] })], part := [(0, { words := [2 ^ 31, 8] })] } }).memWrite 0x1040000000 [123#8, 128#8, 197#8, 8#8]).lmUpset 3 none) (narrowAll .q12b (tfCvtShift ((({ State.reset with th := { State.reset.th with core := [(3, { run := .running, pc := 0x100000000, x := [(11, 268436480), (12, 268437504)], rng := 77, cvtN := 32, mem := [(0x402, 0x80#8), (0x403, 0x3F#8)] })], part := [(0, { words := [2 ^ 31, 8] })] } }).memWrite 0x1040000000 [123#8, 128#8, 197#8, 8#8]).core 3).tfmt) ((splitLe 4 ((({ State.reset with th := { State.reset.th with core := [(3, { run := .running, pc := 0x100000000, x := [(11, 268436480), (12, 268437504)], rng := 77, cvtN := 32, mem := [(0x402, 0x80#8), (0x403, 0x3F#8)] })], part := [(0, { words := [2 ^ 31, 8] })] } }).memWrite 0x1040000000 [123#8, 128#8, 197#8, 8#8]).core 3).cvtN (((({ State.reset with th := { State.reset.th with core := [(3, { run := .running, pc := 0x100000000, x := [(11, 268436480), (12, 268437504)], rng := 77, cvtN := 32, mem := [(0x402, 0x80#8), (0x403, 0x3F#8)] })], part := [(0, { words := [2 ^ 31, 8] })] } }).memWrite 0x1040000000 [123#8, 128#8, 197#8, 8#8]).core 3).lmBytes (((({ State.reset with th := { State.reset.th with core := [(3, { run := .running, pc := 0x100000000, x := [(11, 268436480), (12, 268437504)], rng := 77, cvtN := 32, mem := [(0x402, 0x80#8), (0x403, 0x3F#8)] })], part := [(0, { words := [2 ^ 31, 8] })] } }).memWrite 0x1040000000 [123#8, 128#8, 197#8, 8#8]).core 3).rx 11) (4 * ((({ State.reset with th := { State.reset.th with core := [(3, { run := .running, pc := 0x100000000, x := [(11, 268436480), (12, 268437504)], rng := 77, cvtN := 32, mem := [(0x402, 0x80#8), (0x403, 0x3F#8)] })], part := [(0, { words := [2 ^ 31, 8] })] } }).memWrite 0x1040000000 [123#8, 128#8, 197#8, 8#8]).core 3).cvtN))).map fun (x : Nat) => (x, none)))) ∧
    ((fun (s : State) (k rd rs1 rs2 : Nat) (upset : Option (Nat × Bool)) (u : State) (o : List Byte × Nat) => (s.standsAt k (.narrow .q12b true) rd rs1 rs2 = true) ∧ (u = s.lmUpset k upset) ∧ ((u.core k).cvtFault ((u.core k).rx rs1) (4 * (u.core k).cvtN) ((u.core k).rx rs2) (CvtFmt.bytes .q12b (u.core k).cvtN) true = none) ∧ (o = narrowAll .q12b (tfCvtShift (u.core k).tfmt) ((splitLe 4 (u.core k).cvtN ((u.core k).lmBytes ((u.core k).rx rs1) (4 * (u.core k).cvtN))).zip ((rngRun ((u.core k).cvtN / 4) (u.core k).rng).1.map some)))) ((({ State.reset with th := { State.reset.th with core := [(3, { run := .running, pc := 0x100000000, x := [(11, 268436480), (12, 268437504)], rng := 77, cvtN := 32, mem := [(0x402, 0x80#8), (0x403, 0x3F#8)] })], part := [(0, { words := [2 ^ 31, 8] })] } }).memWrite 0x1040000000 [123#8, 144#8, 197#8, 8#8])) 3 0 11 12 none ((({ State.reset with th := { State.reset.th with core := [(3, { run := .running, pc := 0x100000000, x := [(11, 268436480), (12, 268437504)], rng := 77, cvtN := 32, mem := [(0x402, 0x80#8), (0x403, 0x3F#8)] })], part := [(0, { words := [2 ^ 31, 8] })] } }).memWrite 0x1040000000 [123#8, 144#8, 197#8, 8#8]).lmUpset 3 none) (narrowAll .q12b (tfCvtShift ((({ State.reset with th := { State.reset.th with core := [(3, { run := .running, pc := 0x100000000, x := [(11, 268436480), (12, 268437504)], rng := 77, cvtN := 32, mem := [(0x402, 0x80#8), (0x403, 0x3F#8)] })], part := [(0, { words := [2 ^ 31, 8] })] } }).memWrite 0x1040000000 [123#8, 144#8, 197#8, 8#8]).core 3).tfmt) ((splitLe 4 ((({ State.reset with th := { State.reset.th with core := [(3, { run := .running, pc := 0x100000000, x := [(11, 268436480), (12, 268437504)], rng := 77, cvtN := 32, mem := [(0x402, 0x80#8), (0x403, 0x3F#8)] })], part := [(0, { words := [2 ^ 31, 8] })] } }).memWrite 0x1040000000 [123#8, 144#8, 197#8, 8#8]).core 3).cvtN (((({ State.reset with th := { State.reset.th with core := [(3, { run := .running, pc := 0x100000000, x := [(11, 268436480), (12, 268437504)], rng := 77, cvtN := 32, mem := [(0x402, 0x80#8), (0x403, 0x3F#8)] })], part := [(0, { words := [2 ^ 31, 8] })] } }).memWrite 0x1040000000 [123#8, 144#8, 197#8, 8#8]).core 3).lmBytes (((({ State.reset with th := { State.reset.th with core := [(3, { run := .running, pc := 0x100000000, x := [(11, 268436480), (12, 268437504)], rng := 77, cvtN := 32, mem := [(0x402, 0x80#8), (0x403, 0x3F#8)] })], part := [(0, { words := [2 ^ 31, 8] })] } }).memWrite 0x1040000000 [123#8, 144#8, 197#8, 8#8]).core 3).rx 11) (4 * ((({ State.reset with th := { State.reset.th with core := [(3, { run := .running, pc := 0x100000000, x := [(11, 268436480), (12, 268437504)], rng := 77, cvtN := 32, mem := [(0x402, 0x80#8), (0x403, 0x3F#8)] })], part := [(0, { words := [2 ^ 31, 8] })] } }).memWrite 0x1040000000 [123#8, 144#8, 197#8, 8#8]).core 3).cvtN))).zip ((rngRun (((({ State.reset with th := { State.reset.th with core := [(3, { run := .running, pc := 0x100000000, x := [(11, 268436480), (12, 268437504)], rng := 77, cvtN := 32, mem := [(0x402, 0x80#8), (0x403, 0x3F#8)] })], part := [(0, { words := [2 ^ 31, 8] })] } }).memWrite 0x1040000000 [123#8, 144#8, 197#8, 8#8]).core 3).cvtN / 4) ((({ State.reset with th := { State.reset.th with core := [(3, { run := .running, pc := 0x100000000, x := [(11, 268436480), (12, 268437504)], rng := 77, cvtN := 32, mem := [(0x402, 0x80#8), (0x403, 0x3F#8)] })], part := [(0, { words := [2 ^ 31, 8] })] } }).memWrite 0x1040000000 [123#8, 144#8, 197#8, 8#8]).core 3).rng).1.map some)))) ∧
    ((fun (s : State) (k rd rs1 rs2 : Nat) (upset : Option (Nat × Bool)) (u : State) (o : List Nat × Nat) => (s.standsAt k (.widen .e4m3) rd rs1 rs2 = true) ∧ (u = s.lmUpset k upset) ∧ ((u.core k).cvtFault ((u.core k).rx rs1) (CvtFmt.bytes .e4m3 (u.core k).cvtN) ((u.core k).rx rs2) (4 * (u.core k).cvtN) false = none) ∧ (o = widenAll .e4m3 (tfCvtShift (u.core k).tfmt) (u.core k).cvtN ((u.core k).lmBytes ((u.core k).rx rs1) (CvtFmt.bytes .e4m3 (u.core k).cvtN)))) ((({ State.reset with th := { State.reset.th with core := [(3, { run := .running, pc := 0x100000000, x := [(11, 268436480), (12, 268437504)], cvtN := 32, mem := [(0x402, 0x80#8), (0x403, 0x3F#8)] })], part := [(0, { words := [2 ^ 31, 8] })] } }).memWrite 0x1040000000 [123#8, 128#8, 197#8, 32#8])) 3 0 11 12 none ((({ State.reset with th := { State.reset.th with core := [(3, { run := .running, pc := 0x100000000, x := [(11, 268436480), (12, 268437504)], cvtN := 32, mem := [(0x402, 0x80#8), (0x403, 0x3F#8)] })], part := [(0, { words := [2 ^ 31, 8] })] } }).memWrite 0x1040000000 [123#8, 128#8, 197#8, 32#8]).lmUpset 3 none) (widenAll .e4m3 (tfCvtShift ((({ State.reset with th := { State.reset.th with core := [(3, { run := .running, pc := 0x100000000, x := [(11, 268436480), (12, 268437504)], cvtN := 32, mem := [(0x402, 0x80#8), (0x403, 0x3F#8)] })], part := [(0, { words := [2 ^ 31, 8] })] } }).memWrite 0x1040000000 [123#8, 128#8, 197#8, 32#8]).core 3).tfmt) ((({ State.reset with th := { State.reset.th with core := [(3, { run := .running, pc := 0x100000000, x := [(11, 268436480), (12, 268437504)], cvtN := 32, mem := [(0x402, 0x80#8), (0x403, 0x3F#8)] })], part := [(0, { words := [2 ^ 31, 8] })] } }).memWrite 0x1040000000 [123#8, 128#8, 197#8, 32#8]).core 3).cvtN (((({ State.reset with th := { State.reset.th with core := [(3, { run := .running, pc := 0x100000000, x := [(11, 268436480), (12, 268437504)], cvtN := 32, mem := [(0x402, 0x80#8), (0x403, 0x3F#8)] })], part := [(0, { words := [2 ^ 31, 8] })] } }).memWrite 0x1040000000 [123#8, 128#8, 197#8, 32#8]).core 3).lmBytes (((({ State.reset with th := { State.reset.th with core := [(3, { run := .running, pc := 0x100000000, x := [(11, 268436480), (12, 268437504)], cvtN := 32, mem := [(0x402, 0x80#8), (0x403, 0x3F#8)] })], part := [(0, { words := [2 ^ 31, 8] })] } }).memWrite 0x1040000000 [123#8, 128#8, 197#8, 32#8]).core 3).rx 11) (CvtFmt.bytes .e4m3 ((({ State.reset with th := { State.reset.th with core := [(3, { run := .running, pc := 0x100000000, x := [(11, 268436480), (12, 268437504)], cvtN := 32, mem := [(0x402, 0x80#8), (0x403, 0x3F#8)] })], part := [(0, { words := [2 ^ 31, 8] })] } }).memWrite 0x1040000000 [123#8, 128#8, 197#8, 32#8]).core 3).cvtN)))) ∧
    ((fun (s : State) (k rd rs1 rs2 : Nat) (upset : Option (Nat × Bool)) (u : State) (o : List Nat × Nat) => (s.standsAt k (.widen .e5m2) rd rs1 rs2 = true) ∧ (u = s.lmUpset k upset) ∧ ((u.core k).cvtFault ((u.core k).rx rs1) (CvtFmt.bytes .e5m2 (u.core k).cvtN) ((u.core k).rx rs2) (4 * (u.core k).cvtN) false = none) ∧ (o = widenAll .e5m2 (tfCvtShift (u.core k).tfmt) (u.core k).cvtN ((u.core k).lmBytes ((u.core k).rx rs1) (CvtFmt.bytes .e5m2 (u.core k).cvtN)))) ((({ State.reset with th := { State.reset.th with core := [(3, { run := .running, pc := 0x100000000, x := [(11, 268436480), (12, 268437504)], cvtN := 32, mem := [(0x402, 0x80#8), (0x403, 0x3F#8)] })], part := [(0, { words := [2 ^ 31, 8] })] } }).memWrite 0x1040000000 [123#8, 128#8, 197#8, 34#8])) 3 0 11 12 none ((({ State.reset with th := { State.reset.th with core := [(3, { run := .running, pc := 0x100000000, x := [(11, 268436480), (12, 268437504)], cvtN := 32, mem := [(0x402, 0x80#8), (0x403, 0x3F#8)] })], part := [(0, { words := [2 ^ 31, 8] })] } }).memWrite 0x1040000000 [123#8, 128#8, 197#8, 34#8]).lmUpset 3 none) (widenAll .e5m2 (tfCvtShift ((({ State.reset with th := { State.reset.th with core := [(3, { run := .running, pc := 0x100000000, x := [(11, 268436480), (12, 268437504)], cvtN := 32, mem := [(0x402, 0x80#8), (0x403, 0x3F#8)] })], part := [(0, { words := [2 ^ 31, 8] })] } }).memWrite 0x1040000000 [123#8, 128#8, 197#8, 34#8]).core 3).tfmt) ((({ State.reset with th := { State.reset.th with core := [(3, { run := .running, pc := 0x100000000, x := [(11, 268436480), (12, 268437504)], cvtN := 32, mem := [(0x402, 0x80#8), (0x403, 0x3F#8)] })], part := [(0, { words := [2 ^ 31, 8] })] } }).memWrite 0x1040000000 [123#8, 128#8, 197#8, 34#8]).core 3).cvtN (((({ State.reset with th := { State.reset.th with core := [(3, { run := .running, pc := 0x100000000, x := [(11, 268436480), (12, 268437504)], cvtN := 32, mem := [(0x402, 0x80#8), (0x403, 0x3F#8)] })], part := [(0, { words := [2 ^ 31, 8] })] } }).memWrite 0x1040000000 [123#8, 128#8, 197#8, 34#8]).core 3).lmBytes (((({ State.reset with th := { State.reset.th with core := [(3, { run := .running, pc := 0x100000000, x := [(11, 268436480), (12, 268437504)], cvtN := 32, mem := [(0x402, 0x80#8), (0x403, 0x3F#8)] })], part := [(0, { words := [2 ^ 31, 8] })] } }).memWrite 0x1040000000 [123#8, 128#8, 197#8, 34#8]).core 3).rx 11) (CvtFmt.bytes .e5m2 ((({ State.reset with th := { State.reset.th with core := [(3, { run := .running, pc := 0x100000000, x := [(11, 268436480), (12, 268437504)], cvtN := 32, mem := [(0x402, 0x80#8), (0x403, 0x3F#8)] })], part := [(0, { words := [2 ^ 31, 8] })] } }).memWrite 0x1040000000 [123#8, 128#8, 197#8, 34#8]).core 3).cvtN)))) ∧
    ((fun (s : State) (k rd rs1 rs2 : Nat) (upset : Option (Nat × Bool)) (u : State) (o : List Nat × Nat) => (s.standsAt k (.widen .bf16) rd rs1 rs2 = true) ∧ (u = s.lmUpset k upset) ∧ ((u.core k).cvtFault ((u.core k).rx rs1) (CvtFmt.bytes .bf16 (u.core k).cvtN) ((u.core k).rx rs2) (4 * (u.core k).cvtN) false = none) ∧ (o = widenAll .bf16 (tfCvtShift (u.core k).tfmt) (u.core k).cvtN ((u.core k).lmBytes ((u.core k).rx rs1) (CvtFmt.bytes .bf16 (u.core k).cvtN)))) ((({ State.reset with th := { State.reset.th with core := [(3, { run := .running, pc := 0x100000000, x := [(11, 268436480), (12, 268437504)], cvtN := 32, mem := [(0x402, 0x80#8), (0x403, 0x3F#8)] })], part := [(0, { words := [2 ^ 31, 8] })] } }).memWrite 0x1040000000 [123#8, 128#8, 197#8, 36#8])) 3 0 11 12 none ((({ State.reset with th := { State.reset.th with core := [(3, { run := .running, pc := 0x100000000, x := [(11, 268436480), (12, 268437504)], cvtN := 32, mem := [(0x402, 0x80#8), (0x403, 0x3F#8)] })], part := [(0, { words := [2 ^ 31, 8] })] } }).memWrite 0x1040000000 [123#8, 128#8, 197#8, 36#8]).lmUpset 3 none) (widenAll .bf16 (tfCvtShift ((({ State.reset with th := { State.reset.th with core := [(3, { run := .running, pc := 0x100000000, x := [(11, 268436480), (12, 268437504)], cvtN := 32, mem := [(0x402, 0x80#8), (0x403, 0x3F#8)] })], part := [(0, { words := [2 ^ 31, 8] })] } }).memWrite 0x1040000000 [123#8, 128#8, 197#8, 36#8]).core 3).tfmt) ((({ State.reset with th := { State.reset.th with core := [(3, { run := .running, pc := 0x100000000, x := [(11, 268436480), (12, 268437504)], cvtN := 32, mem := [(0x402, 0x80#8), (0x403, 0x3F#8)] })], part := [(0, { words := [2 ^ 31, 8] })] } }).memWrite 0x1040000000 [123#8, 128#8, 197#8, 36#8]).core 3).cvtN (((({ State.reset with th := { State.reset.th with core := [(3, { run := .running, pc := 0x100000000, x := [(11, 268436480), (12, 268437504)], cvtN := 32, mem := [(0x402, 0x80#8), (0x403, 0x3F#8)] })], part := [(0, { words := [2 ^ 31, 8] })] } }).memWrite 0x1040000000 [123#8, 128#8, 197#8, 36#8]).core 3).lmBytes (((({ State.reset with th := { State.reset.th with core := [(3, { run := .running, pc := 0x100000000, x := [(11, 268436480), (12, 268437504)], cvtN := 32, mem := [(0x402, 0x80#8), (0x403, 0x3F#8)] })], part := [(0, { words := [2 ^ 31, 8] })] } }).memWrite 0x1040000000 [123#8, 128#8, 197#8, 36#8]).core 3).rx 11) (CvtFmt.bytes .bf16 ((({ State.reset with th := { State.reset.th with core := [(3, { run := .running, pc := 0x100000000, x := [(11, 268436480), (12, 268437504)], cvtN := 32, mem := [(0x402, 0x80#8), (0x403, 0x3F#8)] })], part := [(0, { words := [2 ^ 31, 8] })] } }).memWrite 0x1040000000 [123#8, 128#8, 197#8, 36#8]).core 3).cvtN)))) ∧
    ((fun (s : State) (k rd rs1 rs2 : Nat) (upset : Option (Nat × Bool)) (u : State) (o : List Nat × Nat) => (s.standsAt k (.widen .i8) rd rs1 rs2 = true) ∧ (u = s.lmUpset k upset) ∧ ((u.core k).cvtFault ((u.core k).rx rs1) (CvtFmt.bytes .i8 (u.core k).cvtN) ((u.core k).rx rs2) (4 * (u.core k).cvtN) false = none) ∧ (o = widenAll .i8 (tfCvtShift (u.core k).tfmt) (u.core k).cvtN ((u.core k).lmBytes ((u.core k).rx rs1) (CvtFmt.bytes .i8 (u.core k).cvtN)))) ((({ State.reset with th := { State.reset.th with core := [(3, { run := .running, pc := 0x100000000, x := [(11, 268436480), (12, 268437504)], cvtN := 32, mem := [(0x402, 0x80#8), (0x403, 0x3F#8)] })], part := [(0, { words := [2 ^ 31, 8] })] } }).memWrite 0x1040000000 [123#8, 128#8, 197#8, 38#8])) 3 0 11 12 none ((({ State.reset with th := { State.reset.th with core := [(3, { run := .running, pc := 0x100000000, x := [(11, 268436480), (12, 268437504)], cvtN := 32, mem := [(0x402, 0x80#8), (0x403, 0x3F#8)] })], part := [(0, { words := [2 ^ 31, 8] })] } }).memWrite 0x1040000000 [123#8, 128#8, 197#8, 38#8]).lmUpset 3 none) (widenAll .i8 (tfCvtShift ((({ State.reset with th := { State.reset.th with core := [(3, { run := .running, pc := 0x100000000, x := [(11, 268436480), (12, 268437504)], cvtN := 32, mem := [(0x402, 0x80#8), (0x403, 0x3F#8)] })], part := [(0, { words := [2 ^ 31, 8] })] } }).memWrite 0x1040000000 [123#8, 128#8, 197#8, 38#8]).core 3).tfmt) ((({ State.reset with th := { State.reset.th with core := [(3, { run := .running, pc := 0x100000000, x := [(11, 268436480), (12, 268437504)], cvtN := 32, mem := [(0x402, 0x80#8), (0x403, 0x3F#8)] })], part := [(0, { words := [2 ^ 31, 8] })] } }).memWrite 0x1040000000 [123#8, 128#8, 197#8, 38#8]).core 3).cvtN (((({ State.reset with th := { State.reset.th with core := [(3, { run := .running, pc := 0x100000000, x := [(11, 268436480), (12, 268437504)], cvtN := 32, mem := [(0x402, 0x80#8), (0x403, 0x3F#8)] })], part := [(0, { words := [2 ^ 31, 8] })] } }).memWrite 0x1040000000 [123#8, 128#8, 197#8, 38#8]).core 3).lmBytes (((({ State.reset with th := { State.reset.th with core := [(3, { run := .running, pc := 0x100000000, x := [(11, 268436480), (12, 268437504)], cvtN := 32, mem := [(0x402, 0x80#8), (0x403, 0x3F#8)] })], part := [(0, { words := [2 ^ 31, 8] })] } }).memWrite 0x1040000000 [123#8, 128#8, 197#8, 38#8]).core 3).rx 11) (CvtFmt.bytes .i8 ((({ State.reset with th := { State.reset.th with core := [(3, { run := .running, pc := 0x100000000, x := [(11, 268436480), (12, 268437504)], cvtN := 32, mem := [(0x402, 0x80#8), (0x403, 0x3F#8)] })], part := [(0, { words := [2 ^ 31, 8] })] } }).memWrite 0x1040000000 [123#8, 128#8, 197#8, 38#8]).core 3).cvtN)))) ∧
    ((fun (s : State) (k rd rs1 rs2 : Nat) (upset : Option (Nat × Bool)) (u : State) (o : List Nat × Nat) => (s.standsAt k (.widen .q12b) rd rs1 rs2 = true) ∧ (u = s.lmUpset k upset) ∧ ((u.core k).cvtFault ((u.core k).rx rs1) (CvtFmt.bytes .q12b (u.core k).cvtN) ((u.core k).rx rs2) (4 * (u.core k).cvtN) false = none) ∧ (o = widenAll .q12b (tfCvtShift (u.core k).tfmt) (u.core k).cvtN ((u.core k).lmBytes ((u.core k).rx rs1) (CvtFmt.bytes .q12b (u.core k).cvtN)))) ((({ State.reset with th := { State.reset.th with core := [(3, { run := .running, pc := 0x100000000, x := [(11, 268436480), (12, 268437504)], cvtN := 32, mem := [(0x402, 0x80#8), (0x403, 0x3F#8)] })], part := [(0, { words := [2 ^ 31, 8] })] } }).memWrite 0x1040000000 [123#8, 128#8, 197#8, 40#8])) 3 0 11 12 none ((({ State.reset with th := { State.reset.th with core := [(3, { run := .running, pc := 0x100000000, x := [(11, 268436480), (12, 268437504)], cvtN := 32, mem := [(0x402, 0x80#8), (0x403, 0x3F#8)] })], part := [(0, { words := [2 ^ 31, 8] })] } }).memWrite 0x1040000000 [123#8, 128#8, 197#8, 40#8]).lmUpset 3 none) (widenAll .q12b (tfCvtShift ((({ State.reset with th := { State.reset.th with core := [(3, { run := .running, pc := 0x100000000, x := [(11, 268436480), (12, 268437504)], cvtN := 32, mem := [(0x402, 0x80#8), (0x403, 0x3F#8)] })], part := [(0, { words := [2 ^ 31, 8] })] } }).memWrite 0x1040000000 [123#8, 128#8, 197#8, 40#8]).core 3).tfmt) ((({ State.reset with th := { State.reset.th with core := [(3, { run := .running, pc := 0x100000000, x := [(11, 268436480), (12, 268437504)], cvtN := 32, mem := [(0x402, 0x80#8), (0x403, 0x3F#8)] })], part := [(0, { words := [2 ^ 31, 8] })] } }).memWrite 0x1040000000 [123#8, 128#8, 197#8, 40#8]).core 3).cvtN (((({ State.reset with th := { State.reset.th with core := [(3, { run := .running, pc := 0x100000000, x := [(11, 268436480), (12, 268437504)], cvtN := 32, mem := [(0x402, 0x80#8), (0x403, 0x3F#8)] })], part := [(0, { words := [2 ^ 31, 8] })] } }).memWrite 0x1040000000 [123#8, 128#8, 197#8, 40#8]).core 3).lmBytes (((({ State.reset with th := { State.reset.th with core := [(3, { run := .running, pc := 0x100000000, x := [(11, 268436480), (12, 268437504)], cvtN := 32, mem := [(0x402, 0x80#8), (0x403, 0x3F#8)] })], part := [(0, { words := [2 ^ 31, 8] })] } }).memWrite 0x1040000000 [123#8, 128#8, 197#8, 40#8]).core 3).rx 11) (CvtFmt.bytes .q12b ((({ State.reset with th := { State.reset.th with core := [(3, { run := .running, pc := 0x100000000, x := [(11, 268436480), (12, 268437504)], cvtN := 32, mem := [(0x402, 0x80#8), (0x403, 0x3F#8)] })], part := [(0, { words := [2 ^ 31, 8] })] } }).memWrite 0x1040000000 [123#8, 128#8, 197#8, 40#8]).core 3).cvtN)))) ∧
    ((fun (s : State) (k rd rs1 rs2 kd cs : Nat) (upset : Option (Nat × Bool)) (u : State) (st : Bool) => (s.standsAt k (.narrow .e4m3 st) rd rs1 rs2 = true) ∧ (u = s.lmUpset k upset) ∧ ((u.core k).cvtFault ((u.core k).rx rs1) (4 * (u.core k).cvtN) ((u.core k).rx rs2) (CvtFmt.bytes .e4m3 (u.core k).cvtN) true = some (kd, cs))) ((({ State.reset with th := { State.reset.th with core := [(3, { run := .running, pc := 0x100000000, x := [(11, 268436480), (12, 268436545)], cvtN := 32 })], part := [(0, { words := [2 ^ 31, 8] })] } }).memWrite 0x1040000000 [123#8, 128#8, 197#8, 0#8])) 3 0 11 12 1 7 none ((({ State.reset with th := { State.reset.th with core := [(3, { run := .running, pc := 0x100000000, x := [(11, 268436480), (12, 268436545)], cvtN := 32 })], part := [(0, { words := [2 ^ 31, 8] })] } }).memWrite 0x1040000000 [123#8, 128#8, 197#8, 0#8]).lmUpset 3 none) false) ∧
    ((fun (s : State) (k rd rs1 rs2 kd cs : Nat) (upset : Option (Nat × Bool)) (u : State) (st : Bool) => (s.standsAt k (.narrow .e5m2 st) rd rs1 rs2 = true) ∧ (u = s.lmUpset k upset) ∧ ((u.core k).cvtFault ((u.core k).rx rs1) (4 * (u.core k).cvtN) ((u.core k).rx rs2) (CvtFmt.bytes .e5m2 (u.core k).cvtN) true = some (kd, cs))) ((({ State.reset with th := { State.reset.th with core := [(3, { run := .running, pc := 0x100000000, x := [(11, 268436480), (12, 268436545)], cvtN := 32 })], part := [(0, { words := [2 ^ 31, 8] })] } }).memWrite 0x1040000000 [123#8, 128#8, 197#8, 2#8])) 3 0 11 12 1 7 none ((({ State.reset with th := { State.reset.th with core := [(3, { run := .running, pc := 0x100000000, x := [(11, 268436480), (12, 268436545)], cvtN := 32 })], part := [(0, { words := [2 ^ 31, 8] })] } }).memWrite 0x1040000000 [123#8, 128#8, 197#8, 2#8]).lmUpset 3 none) false) ∧
    ((fun (s : State) (k rd rs1 rs2 kd cs : Nat) (upset : Option (Nat × Bool)) (u : State) (st : Bool) => (s.standsAt k (.narrow .bf16 st) rd rs1 rs2 = true) ∧ (u = s.lmUpset k upset) ∧ ((u.core k).cvtFault ((u.core k).rx rs1) (4 * (u.core k).cvtN) ((u.core k).rx rs2) (CvtFmt.bytes .bf16 (u.core k).cvtN) true = some (kd, cs))) ((({ State.reset with th := { State.reset.th with core := [(3, { run := .running, pc := 0x100000000, x := [(11, 268436480), (12, 268436545)], cvtN := 32 })], part := [(0, { words := [2 ^ 31, 8] })] } }).memWrite 0x1040000000 [123#8, 128#8, 197#8, 4#8])) 3 0 11 12 1 7 none ((({ State.reset with th := { State.reset.th with core := [(3, { run := .running, pc := 0x100000000, x := [(11, 268436480), (12, 268436545)], cvtN := 32 })], part := [(0, { words := [2 ^ 31, 8] })] } }).memWrite 0x1040000000 [123#8, 128#8, 197#8, 4#8]).lmUpset 3 none) false) ∧
    ((fun (s : State) (k rd rs1 rs2 kd cs : Nat) (upset : Option (Nat × Bool)) (u : State) (st : Bool) => (s.standsAt k (.narrow .i8 st) rd rs1 rs2 = true) ∧ (u = s.lmUpset k upset) ∧ ((u.core k).cvtFault ((u.core k).rx rs1) (4 * (u.core k).cvtN) ((u.core k).rx rs2) (CvtFmt.bytes .i8 (u.core k).cvtN) true = some (kd, cs))) ((({ State.reset with th := { State.reset.th with core := [(3, { run := .running, pc := 0x100000000, x := [(11, 268436480), (12, 268436545)], cvtN := 32 })], part := [(0, { words := [2 ^ 31, 8] })] } }).memWrite 0x1040000000 [123#8, 128#8, 197#8, 6#8])) 3 0 11 12 1 7 none ((({ State.reset with th := { State.reset.th with core := [(3, { run := .running, pc := 0x100000000, x := [(11, 268436480), (12, 268436545)], cvtN := 32 })], part := [(0, { words := [2 ^ 31, 8] })] } }).memWrite 0x1040000000 [123#8, 128#8, 197#8, 6#8]).lmUpset 3 none) false) ∧
    ((fun (s : State) (k rd rs1 rs2 kd cs : Nat) (upset : Option (Nat × Bool)) (u : State) (st : Bool) => (s.standsAt k (.narrow .q12b st) rd rs1 rs2 = true) ∧ (u = s.lmUpset k upset) ∧ ((u.core k).cvtFault ((u.core k).rx rs1) (4 * (u.core k).cvtN) ((u.core k).rx rs2) (CvtFmt.bytes .q12b (u.core k).cvtN) true = some (kd, cs))) ((({ State.reset with th := { State.reset.th with core := [(3, { run := .running, pc := 0x100000000, x := [(11, 268436480), (12, 268436545)], cvtN := 32 })], part := [(0, { words := [2 ^ 31, 8] })] } }).memWrite 0x1040000000 [123#8, 128#8, 197#8, 8#8])) 3 0 11 12 1 7 none ((({ State.reset with th := { State.reset.th with core := [(3, { run := .running, pc := 0x100000000, x := [(11, 268436480), (12, 268436545)], cvtN := 32 })], part := [(0, { words := [2 ^ 31, 8] })] } }).memWrite 0x1040000000 [123#8, 128#8, 197#8, 8#8]).lmUpset 3 none) false) ∧
    ((fun (s : State) (k rd rs1 rs2 kd cs : Nat) (upset : Option (Nat × Bool)) (u : State) => (s.standsAt k (.widen .e4m3) rd rs1 rs2 = true) ∧ (u = s.lmUpset k upset) ∧ ((u.core k).cvtFault ((u.core k).rx rs1) (CvtFmt.bytes .e4m3 (u.core k).cvtN) ((u.core k).rx rs2) (4 * (u.core k).cvtN) false = some (kd, cs))) ((({ State.reset with th := { State.reset.th with core := [(3, { run := .running, pc := 0x100000000, x := [(11, 268436480), (12, 268436545)], cvtN := 32 })], part := [(0, { words := [2 ^ 31, 8] })] } }).memWrite 0x1040000000 [123#8, 128#8, 197#8, 32#8])) 3 0 11 12 1 7 none ((({ State.reset with th := { State.reset.th with core := [(3, { run := .running, pc := 0x100000000, x := [(11, 268436480), (12, 268436545)], cvtN := 32 })], part := [(0, { words := [2 ^ 31, 8] })] } }).memWrite 0x1040000000 [123#8, 128#8, 197#8, 32#8]).lmUpset 3 none)) ∧
    ((fun (s : State) (k rd rs1 rs2 kd cs : Nat) (upset : Option (Nat × Bool)) (u : State) => (s.standsAt k (.widen .e5m2) rd rs1 rs2 = true) ∧ (u = s.lmUpset k upset) ∧ ((u.core k).cvtFault ((u.core k).rx rs1) (CvtFmt.bytes .e5m2 (u.core k).cvtN) ((u.core k).rx rs2) (4 * (u.core k).cvtN) false = some (kd, cs))) ((({ State.reset with th := { State.reset.th with core := [(3, { run := .running, pc := 0x100000000, x := [(11, 268436480), (12, 268436545)], cvtN := 32 })], part := [(0, { words := [2 ^ 31, 8] })] } }).memWrite 0x1040000000 [123#8, 128#8, 197#8, 34#8])) 3 0 11 12 1 7 none ((({ State.reset with th := { State.reset.th with core := [(3, { run := .running, pc := 0x100000000, x := [(11, 268436480), (12, 268436545)], cvtN := 32 })], part := [(0, { words := [2 ^ 31, 8] })] } }).memWrite 0x1040000000 [123#8, 128#8, 197#8, 34#8]).lmUpset 3 none)) ∧
    ((fun (s : State) (k rd rs1 rs2 kd cs : Nat) (upset : Option (Nat × Bool)) (u : State) => (s.standsAt k (.widen .bf16) rd rs1 rs2 = true) ∧ (u = s.lmUpset k upset) ∧ ((u.core k).cvtFault ((u.core k).rx rs1) (CvtFmt.bytes .bf16 (u.core k).cvtN) ((u.core k).rx rs2) (4 * (u.core k).cvtN) false = some (kd, cs))) ((({ State.reset with th := { State.reset.th with core := [(3, { run := .running, pc := 0x100000000, x := [(11, 268436480), (12, 268436545)], cvtN := 32 })], part := [(0, { words := [2 ^ 31, 8] })] } }).memWrite 0x1040000000 [123#8, 128#8, 197#8, 36#8])) 3 0 11 12 1 7 none ((({ State.reset with th := { State.reset.th with core := [(3, { run := .running, pc := 0x100000000, x := [(11, 268436480), (12, 268436545)], cvtN := 32 })], part := [(0, { words := [2 ^ 31, 8] })] } }).memWrite 0x1040000000 [123#8, 128#8, 197#8, 36#8]).lmUpset 3 none)) ∧
    ((fun (s : State) (k rd rs1 rs2 kd cs : Nat) (upset : Option (Nat × Bool)) (u : State) => (s.standsAt k (.widen .i8) rd rs1 rs2 = true) ∧ (u = s.lmUpset k upset) ∧ ((u.core k).cvtFault ((u.core k).rx rs1) (CvtFmt.bytes .i8 (u.core k).cvtN) ((u.core k).rx rs2) (4 * (u.core k).cvtN) false = some (kd, cs))) ((({ State.reset with th := { State.reset.th with core := [(3, { run := .running, pc := 0x100000000, x := [(11, 268436480), (12, 268436545)], cvtN := 32 })], part := [(0, { words := [2 ^ 31, 8] })] } }).memWrite 0x1040000000 [123#8, 128#8, 197#8, 38#8])) 3 0 11 12 1 7 none ((({ State.reset with th := { State.reset.th with core := [(3, { run := .running, pc := 0x100000000, x := [(11, 268436480), (12, 268436545)], cvtN := 32 })], part := [(0, { words := [2 ^ 31, 8] })] } }).memWrite 0x1040000000 [123#8, 128#8, 197#8, 38#8]).lmUpset 3 none)) ∧
    ((fun (s : State) (k rd rs1 rs2 kd cs : Nat) (upset : Option (Nat × Bool)) (u : State) => (s.standsAt k (.widen .q12b) rd rs1 rs2 = true) ∧ (u = s.lmUpset k upset) ∧ ((u.core k).cvtFault ((u.core k).rx rs1) (CvtFmt.bytes .q12b (u.core k).cvtN) ((u.core k).rx rs2) (4 * (u.core k).cvtN) false = some (kd, cs))) ((({ State.reset with th := { State.reset.th with core := [(3, { run := .running, pc := 0x100000000, x := [(11, 268436480), (12, 268436545)], cvtN := 32 })], part := [(0, { words := [2 ^ 31, 8] })] } }).memWrite 0x1040000000 [123#8, 128#8, 197#8, 40#8])) 3 0 11 12 1 7 none ((({ State.reset with th := { State.reset.th with core := [(3, { run := .running, pc := 0x100000000, x := [(11, 268436480), (12, 268436545)], cvtN := 32 })], part := [(0, { words := [2 ^ 31, 8] })] } }).memWrite 0x1040000000 [123#8, 128#8, 197#8, 40#8]).lmUpset 3 none)) := by
  repeat refine And.intro (by decide +kernel) ?_
  decide +kernel

theorem test_meets_ExtensionEncodings :
    (ThOp.fieldsOk (.narrow .q12b true) 0 31 31 = true) ∧
    ((0x0800107B < 2 ^ 32) ∧ decode32 0x0800107B = some (.ext (.narrow .q12b true) 0 0 0)) ∧
    ((0x2800007B % 128 ∈ [0x0B, 0x2B, 0x5B, 0x7B]) ∧ decode32 0x2800007B = some (.ext (.widen .q12b) 0 0 0)) ∧
    ((fun (s : State) => s.coreReady 3 = true ∧ s.fetch 3 = some (none, 4)) ((({ State.reset with th := { State.reset.th with core := [(3, { run := .running, pc := 0x100000000, x := [] })], part := [(0, { words := [2 ^ 31, 8] })] } }).memWrite 0x1040000000 [127#8, 0#8, 0#8, 0#8]))) := by
  repeat refine And.intro (by decide +kernel) ?_
  decide +kernel

theorem test_meets_PartitionCommands :
    ((fun (s : State) (p : Nat) (r : Nat × Option Prog) (q : PartState) => (s.canonical = true) ∧ (p < 16) ∧ (s.partState p = partEmpty ∨ s.partState p = partReady ∨ s.partState p = partStopped ∨ s.partState p = partFaulted) ∧ (s.isF Reg.TH_PART_CFG_EN p = true) ∧ (q = PartState.mk (s.partRegs p) none none false false false none (s.part p).restarts [] [] 0 0) ∧ (r = s.progCheck q (if s.get64 Reg.TH_PART_SRC_LO p % 64 = 0 ∧ s.get64 Reg.TH_PART_SRC_LO p + s.getF Reg.TH_PART_LEN p ≤ stackSize then s.readStack (s.get64 Reg.TH_PART_SRC_LO p) (min (s.getF Reg.TH_PART_LEN p) (72 * 2 ^ 20)) else []) (s.getF Reg.TH_PART_LEN p)) ∧ (r.1 ≠ 2)) ((({ State.reset with th := { State.reset.th with core := [(3, { mem := [(5, 1#8)] })], part := [(2, { words := [2 ^ 31 + 2 ^ 29, 8] })] } }).setF Reg.TH_PART_STAT_STATE 0 2).setF Reg.TH_PART_CFG_EN 1 2) 2 (1, none) (PartState.mk (((({ State.reset with th := { State.reset.th with core := [(3, { mem := [(5, 1#8)] })], part := [(2, { words := [2 ^ 31 + 2 ^ 29, 8] })] } }).setF Reg.TH_PART_STAT_STATE 0 2).setF Reg.TH_PART_CFG_EN 1 2).partRegs 2) none none false false false none [] [] [] 0 0)) ∧
    ((fun (s : State) (p : Nat) => (s.canonical = true) ∧ (p < 16) ∧ (s.partState p = partEmpty) ∧ (s.isF Reg.TH_PART_CFG_EN p = false)) ((({ State.reset with th := { State.reset.th with core := [(3, {  })], part := [(2, { words := [2 ^ 31 + 2 ^ 29, 8] })] } }).setF Reg.TH_PART_STAT_STATE 0 2)) 2) ∧
    ((fun (s : State) (p : Nat) => (s.canonical = true) ∧ (p < 16) ∧ (s.partState p ≠ partEmpty ∧ s.partState p ≠ partReady ∧ s.partState p ≠ partStopped ∧ s.partState p ≠ partFaulted)) ((({ State.reset with th := { State.reset.th with core := [(3, {  })], part := [(2, { words := [2 ^ 31 + 2 ^ 29, 8] })] } }).setF Reg.TH_PART_STAT_STATE 3 2)) 2) ∧
    ((fun (s : State) (p code : Nat) (g : Prog) => (s.canonical = true) ∧ (p < 16) ∧ (s.partState p = partLoading) ∧ ((s.part p).load = some (code, some g))) ((({ State.reset with th := { State.reset.th with core := [(3, {  })], part := [(2, { words := [2 ^ 31 + 2 ^ 29, 8], load := some (0, some ⟨8, [1#8, 2#8], [7#8], [], [], true, false, List.replicate 48 0⟩) })] } }).setF Reg.TH_PART_STAT_STATE 1 2)) 2 0 ⟨8, [1#8, 2#8], [7#8], [], [], true, false, List.replicate 48 0⟩) ∧
    ((fun (s : State) (p code : Nat) => (s.canonical = true) ∧ (p < 16) ∧ (s.partState p = partLoading) ∧ ((s.part p).load = some (code, none))) ((({ State.reset with th := { State.reset.th with core := [(3, { mem := [(5, 1#8)] })], part := [(2, { words := [2 ^ 31 + 2 ^ 29, 8], load := some (3, none) })] } }).setF Reg.TH_PART_STAT_STATE 1 2)) 2 3) ∧
    ((fun (s : State) (p : Nat) => (s.canonical = true) ∧ (p < 16) ∧ (s.partState p = partReady)) ((({ State.reset with th := { State.reset.th with core := [(3, {  })], part := [(2, { words := [2 ^ 31 + 2 ^ 29, 8], prog := some ⟨8, [1#8, 2#8], [7#8], [], [], true, false, List.replicate 48 0⟩ })] } }).setF Reg.TH_PART_STAT_STATE 2 2)) 2) ∧
    ((fun (s : State) (p : Nat) => (s.canonical = true) ∧ (p < 16) ∧ (s.partState p = partStopped ∨ s.partState p = partFaulted)) ((({ State.reset with th := { State.reset.th with core := [(3, {  })], part := [(2, { words := [2 ^ 31 + 2 ^ 29, 8], prog := some ⟨8, [1#8, 2#8], [7#8], [], [], true, false, List.replicate 48 0⟩ })] } }).setF Reg.TH_PART_STAT_STATE 5 2)) 2) ∧
    ((fun (s : State) (p : Nat) => (s.canonical = true) ∧ (p < 16) ∧ (s.partState p ≠ partReady ∧ s.partState p ≠ partStopped ∧ s.partState p ≠ partFaulted)) ((({ State.reset with th := { State.reset.th with core := [(3, {  })], part := [(2, { words := [2 ^ 31 + 2 ^ 29, 8] })] } }).setF Reg.TH_PART_STAT_STATE 0 2)) 2) ∧
    ((fun (s : State) (p : Nat) => (s.canonical = true) ∧ (p < 16) ∧ (s.partState p = partRunning)) ((({ State.reset with th := { State.reset.th with core := [(3, { run := .running, resv := some (1, 4) })], part := [(2, { words := [2 ^ 31 + 2 ^ 29, 8], arrive := [(0, [3])], sel := [(1, some 1)] })] } }).setF Reg.TH_PART_STAT_STATE 3 2).setF Reg.TH_STATUS_RUNNING 4) 2) ∧
    ((fun (s : State) (p : Nat) => (s.canonical = true) ∧ (p < 16) ∧ (s.partState p = partReady)) ((({ State.reset with th := { State.reset.th with core := [(3, {  })], part := [(2, { words := [2 ^ 31 + 2 ^ 29, 8], start := true })] } }).setF Reg.TH_PART_STAT_STATE 2 2)) 2) ∧
    ((fun (s : State) (p : Nat) => (s.canonical = true) ∧ (p < 16) ∧ (s.partState p = partLoading)) ((({ State.reset with th := { State.reset.th with core := [(3, { mem := [(5, 1#8)] })], part := [(2, { words := [2 ^ 31 + 2 ^ 29, 8], load := some (3, none) })] } }).setF Reg.TH_PART_STAT_STATE 1 2)) 2) ∧
    ((fun (s : State) (p : Nat) => (s.canonical = true) ∧ (p < 16) ∧ (s.partState p ≠ partRunning ∧ s.partState p ≠ partReady ∧ s.partState p ≠ partLoading)) ((({ State.reset with th := { State.reset.th with core := [(3, {  })], part := [(2, { words := [2 ^ 31 + 2 ^ 29, 8] })] } }).setF Reg.TH_PART_STAT_STATE 5 2)) 2) ∧
    ((fun (s : State) (p : Nat) => (s.canonical = true) ∧ (p < 16) ∧ (s.partState p = partReady ∨ s.partState p = partStopped ∨ s.partState p = partFaulted)) ((({ State.reset with th := { State.reset.th with core := [(3, { mem := [(5, 1#8)] })], part := [(2, { words := [2 ^ 31 + 2 ^ 29, 8], prog := some ⟨8, [1#8, 2#8], [7#8], [], [], true, false, List.replicate 48 0⟩, slot := 3 })] } }).setF Reg.TH_PART_STAT_STATE 5 2)) 2) ∧
    ((fun (s : State) (p : Nat) => (s.canonical = true) ∧ (p < 16) ∧ (s.partState p ≠ partReady ∧ s.partState p ≠ partStopped ∧ s.partState p ≠ partFaulted)) ((({ State.reset with th := { State.reset.th with core := [(3, {  })], part := [(2, { words := [2 ^ 31 + 2 ^ 29, 8] })] } }).setF Reg.TH_PART_STAT_STATE 3 2)) 2) ∧
    ((fun (s : State) (p : Nat) => (s.canonical = true) ∧ (p < 16) ∧ (s.partState p = partFaulted)) ((({ State.reset with th := { State.reset.th with core := [(3, {  })], part := [(2, { words := [2 ^ 31 + 2 ^ 29, 8] })] } }).setF Reg.TH_PART_STAT_STATE 6 2)) 2) ∧
    ((fun (s : State) (p : Nat) => (s.canonical = true) ∧ (p < 16) ∧ (s.partState p ≠ partFaulted)) ((({ State.reset with th := { State.reset.th with core := [(3, {  })], part := [(2, { words := [2 ^ 31 + 2 ^ 29, 8] })] } }).setF Reg.TH_PART_STAT_STATE 3 2)) 2) := by
  repeat refine And.intro (by decide +kernel) ?_
  decide +kernel

theorem test_meets_PartitionStopsRestartsAndWindows :
    ((fun (s : State) (p : Nat) => (s.canonical = true) ∧ (p < 16) ∧ (s.partState p = partStopping) ∧ (((s.part p).cores.any fun (k : Nat) => (s.core k).transfers) = false) ∧ ((s.part p).reload = false) ∧ ((s.part p).faulting = false)) ((({ State.reset with th := { State.reset.th with core := [(3, {  })], part := [(2, { words := [2 ^ 31 + 2 ^ 29, 8] })] } }).setF Reg.TH_PART_STAT_STATE 4 2)) 2) ∧
    ((fun (s : State) (p : Nat) => (s.canonical = true) ∧ (p < 16) ∧ (s.partState p = partStopping) ∧ (((s.part p).cores.any fun (k : Nat) => (s.core k).transfers) = false) ∧ ((s.part p).reload = false) ∧ ((s.part p).faulting = true)) ((({ State.reset with th := { State.reset.th with core := [(3, {  })], part := [(2, { words := [2 ^ 31 + 2 ^ 29, 8], faulting := true })] } }).setF Reg.TH_PART_STAT_STATE 4 2)) 2) ∧
    ((fun (s : State) (p now d : Nat) (g : Prog) (a : State) => (s.canonical = true) ∧ (p < 16) ∧ ((s.part p).restartAt = some d) ∧ (d ≤ now) ∧ (s.frame % 25 = 0) ∧ (s.partState p = partStopped) ∧ (s.partDies p = true) ∧ ((s.part p).prog = some g) ∧ (a = s.prepare p)) ((({ State.reset with th := { State.reset.th with core := [(3, {  })], part := [(2, { words := [2 ^ 31 + 2 ^ 29, 8], prog := some ⟨8, [1#8, 2#8], [7#8], [], [], true, false, List.replicate 48 0⟩, restartAt := some 7 })] } }).setF Reg.TH_PART_STAT_STATE 5 2).setRuns 23 true |>.setRuns 24 true) 2 1000 7 ⟨8, [1#8, 2#8], [7#8], [], [], true, false, List.replicate 48 0⟩ (((({ State.reset with th := { State.reset.th with core := [(3, {  })], part := [(2, { words := [2 ^ 31 + 2 ^ 29, 8], prog := some ⟨8, [1#8, 2#8], [7#8], [], [], true, false, List.replicate 48 0⟩, restartAt := some 7 })] } }).setF Reg.TH_PART_STAT_STATE 5 2).setRuns 23 true |>.setRuns 24 true).prepare 2)) ∧
    ((fun (s : State) (p : Nat) => (s.canonical = true) ∧ (p < 16) ∧ (∀ q ∈ List.range 16, s.isF Reg.TH_PART_STAT_SUSPENDED q = decide (q = p)) ∧ (s.partState p = partStopped) ∧ ((s.part p).prog.isSome = true) ∧ (s.partDies p = true)) (((({ State.reset with th := { State.reset.th with core := [(3, {  })], part := [(2, { words := [2 ^ 31 + 2 ^ 29, 8], prog := some ⟨8, [1#8, 2#8], [7#8], [], [], true, false, List.replicate 48 0⟩ })] } }).setF Reg.TH_PART_STAT_STATE 5 2).setRuns 23 true |>.setRuns 24 true).setF Reg.TH_PART_STAT_SUSPENDED 1 2) 2) ∧
    ((fun (s : State) (p now : Nat) => ((s.part p).restartAt.all (fun (d : Nat) => decide (now < d)) = true ∨ s.frame % 25 ≠ 0 ∨ s.partState p ≠ partStopped ∨ s.partDies p = false)) ((({ State.reset with th := { State.reset.th with core := [(3, {  })], part := [(2, { words := [2 ^ 31 + 2 ^ 29, 8], prog := some ⟨8, [1#8, 2#8], [7#8], [], [], true, false, List.replicate 48 0⟩, restartAt := some 7 })] } }).setF Reg.TH_PART_STAT_STATE 5 2)) 2 1000) ∧
    ((fun (s : State) (path die off value k : Nat) (isWrite : Bool) => (die < 2) ∧ (off < 524288) ∧ (off % 4 = 0) ∧ (s.reaches path = true) ∧ (s.free? path (0x1800000 + 0x1000000 * die + off) = true) ∧ (k = s.getF Reg.TH_LM_SEL_CORE die) ∧ (k / 128 = die) ∧ (s.windowOpen k = true) ∧ (isWrite = false)) ((({ State.reset with th := { State.reset.th with core := [(3, { mem := [(8, 9#8)] })], part := [(2, { words := [2 ^ 31 + 2 ^ 29, 8] })] } }).setF Reg.TH_PART_STAT_STATE 5 2).setRuns 24 true |>.setF Reg.TH_LM_SEL_CORE 3) 1 0 8 0 3 false) ∧
    ((fun (s : State) (path die off value k : Nat) (isWrite : Bool) => (die < 2) ∧ (off < 524288) ∧ (off % 4 = 0) ∧ (s.reaches path = true) ∧ (s.free? path (0x1800000 + 0x1000000 * die + off) = true) ∧ (k = s.getF Reg.TH_LM_SEL_CORE die) ∧ (k / 128 = die) ∧ (s.windowOpen k = true) ∧ (isWrite = true)) ((({ State.reset with th := { State.reset.th with core := [(3, { mem := [(8, 9#8)] })], part := [(2, { words := [2 ^ 31 + 2 ^ 29, 8] })] } }).setF Reg.TH_PART_STAT_STATE 5 2).setRuns 24 true |>.setF Reg.TH_LM_SEL_CORE 3) 1 0 8 77 3 true) ∧
    ((fun (s : State) (path die off value k : Nat) (isWrite : Bool) => (s.canonical = true) ∧ (die < 2) ∧ (off < 524288) ∧ (off % 4 = 0) ∧ (s.reaches path = true) ∧ (s.free? path (0x1800000 + 0x1000000 * die + off) = true) ∧ (k = s.getF Reg.TH_LM_SEL_CORE die) ∧ (k / 128 ≠ die ∨ s.windowOpen k = false)) ((({ State.reset with th := { State.reset.th with core := [(3, { mem := [(8, 9#8)] })], part := [(2, { words := [2 ^ 31 + 2 ^ 29, 8] })] } }).setF Reg.TH_PART_STAT_STATE 3 2).setRuns 24 true |>.setF Reg.TH_LM_SEL_CORE 3) 1 0 8 77 3 true) ∧
    ((fun (s : State) (path die off value : Nat) (isWrite : Bool) => (die < 2) ∧ (off < 524288) ∧ (off % 4 = 0) ∧ (s.reaches path = true) ∧ (s.free? path (0x1800000 + 0x1000000 * die + off) = false)) ((({ State.reset with th := { State.reset.th with core := [(3, {  })], part := [(2, { words := [2 ^ 31 + 2 ^ 29, 8] })] } }).setF Reg.TH_PART_STAT_STATE 3 2).setRuns 26 false) 1 1 8 77 true) ∧
    ((fun (s : State) (path die off value : Nat) => (s.canonical = true) ∧ (die < 2) ∧ (off < 524288) ∧ (off % 4 ≠ 0) ∧ (s.reaches path = true)) ((({ State.reset with th := { State.reset.th with core := [(3, {  })], part := [(2, { words := [2 ^ 31 + 2 ^ 29, 8] })] } }).setF Reg.TH_PART_STAT_STATE 3 2)) 1 1 10 77) ∧
    ((fun (s : State) (path die off value : Nat) (isWrite : Bool) => (2 ≤ die ∨ 524288 ≤ off ∨ s.reaches path = false)) ((({ State.reset with th := { State.reset.th with core := [(3, {  })], part := [(2, { words := [2 ^ 31 + 2 ^ 29, 8] })] } }).setF Reg.TH_PART_STAT_STATE 3 2)) 1 2 8 77 true) ∧
    ((fun (s : State) (path die off value : Nat) (isWrite : Bool) => (2 ≤ die ∨ 524288 ≤ off ∨ s.reaches path = false)) ((({ State.reset with th := { State.reset.th with core := [(3, {  })], part := [(2, { words := [2 ^ 31 + 2 ^ 29, 8] })] } }).setF Reg.TH_PART_STAT_STATE 3 2)) 1 0 524288 77 true) ∧
    ((fun (s : State) (path die off value : Nat) (isWrite : Bool) => (2 ≤ die ∨ 524288 ≤ off ∨ s.reaches path = false)) ((({ State.reset with th := { State.reset.th with core := [(3, {  })], part := [(2, { words := [2 ^ 31 + 2 ^ 29, 8] })] } }).setF Reg.TH_PART_STAT_STATE 3 2)) 5 0 8 77 true) := by
  repeat refine And.intro (by decide +kernel) ?_
  decide +kernel

theorem test_meets_ContextCommands :
    ((fun (s : State) (path kind now : Nat) => (s.isF Reg.CTX_STATUS_READY = false)) (((({ State.reset with ctx := { State.reset.ctx with desc := [(5, { kind := 2, key := 9, lastTime := 1000 })] } }).setF Reg.CTX_STATUS_READY 0))) 0 2 5) ∧
    ((fun (s : State) (path kind now : Nat) => (s.isF Reg.CTX_STATUS_READY = true) ∧ (kind % 4 = 0)) (((({ State.reset with ctx := { State.reset.ctx with desc := [(5, { kind := 2, key := 9, lastTime := 1000 })] } }).setF Reg.CTX_STATUS_READY 1))) 0 4 5) ∧
    ((fun (s : State) (path kind now c : Nat) => (s.isF Reg.CTX_STATUS_READY = true) ∧ (kind % 4 ≠ 0) ∧ (s.ctxFind (kind % 4) (s.get64 Reg.CTX_KEY_LO) = some c)) (((({ State.reset with ctx := { State.reset.ctx with desc := [(5, { kind := 2, key := 9, lastTime := 1000 })] } }).setF Reg.CTX_STATUS_READY 1).setF Reg.CTX_KEY_LO 9)) 0 2 5 5) ∧
    ((fun (s : State) (path kind now c bad : Nat) => (s.canonical = true) ∧ (s.isF Reg.CTX_STATUS_READY = true) ∧ (kind % 4 ≠ 0) ∧ (s.ctxFind (kind % 4) (s.get64 Reg.CTX_KEY_LO) = none) ∧ (s.ctxWaits (kind % 4) (s.get64 Reg.CTX_KEY_LO) = none) ∧ (s.ctxFree 16384 0 = some c) ∧ ((s.desc c).wiping = false) ∧ (bad = s.areaPoison c)) (((({ State.reset with ctx := { State.reset.ctx with desc := [(0, { kind := 1, key := 3 }), (5, { kind := 2, key := 9 })] } }).setF Reg.CTX_STATUS_READY 1).setF Reg.CTX_KEY_LO 7)) 0 2 500 1 0) ∧
    ((fun (s : State) (path kind now c : Nat) => (s.isF Reg.CTX_STATUS_READY = true) ∧ (kind % 4 ≠ 0) ∧ (s.ctxFind (kind % 4) (s.get64 Reg.CTX_KEY_LO) = none) ∧ (s.ctxWaits (kind % 4) (s.get64 Reg.CTX_KEY_LO) = none) ∧ (s.ctxFree 16384 0 = some c) ∧ ((s.desc c).wiping = true)) (((({ State.reset with ctx := { State.reset.ctx with desc := [(0, { wiping := true })] } }).setF Reg.CTX_STATUS_READY 1).setF Reg.CTX_KEY_LO 7)) 0 2 500 0) ∧
    ((fun (s : State) (path kind now c : Nat) => (s.isF Reg.CTX_STATUS_READY = true) ∧ (kind % 4 ≠ 0) ∧ (s.ctxFind (kind % 4) (s.get64 Reg.CTX_KEY_LO) = none) ∧ (s.ctxWaits (kind % 4) (s.get64 Reg.CTX_KEY_LO) = some c)) (((({ State.reset with ctx := { State.reset.ctx with desc := [(5, { wiping := true })], waitFor := [(5, (2, 7))] } }).setF Reg.CTX_STATUS_READY 1).setF Reg.CTX_KEY_LO 7)) 0 2 500 5) ∧
    ((fun (s : State) (path c : Nat) => (s.canonical = true) ∧ (s.isF Reg.CTX_STATUS_READY = true) ∧ (c < 16384) ∧ ((s.desc c).wiping = false) ∧ ((s.desc c).kind ≠ kindFree)) (((({ State.reset with ctx := { State.reset.ctx with desc := [(5, { kind := 2, key := 9, children := 1, members := 1 }), (6, { kind := 1, key := 4, parent := 5 })] } }).setF Reg.CTX_STATUS_READY 1).memWrite 0x1400010 [9#8])) 0 5) ∧
    ((fun (s : State) (path c : Nat) => (s.canonical = true) ∧ (s.isF Reg.CTX_STATUS_READY = true) ∧ (c < 16384) ∧ ((s.desc c).wiping = false) ∧ ((s.desc c).kind ≠ kindFree)) (((({ State.reset with ctx := { State.reset.ctx with desc := [(5, { kind := 2, key := 9, count2 := 1 })] } }).setF Reg.CTX_STATUS_READY 1).memWrite 0x1400010 [9#8])) 0 5) ∧
    ((fun (s : State) (path c : Nat) => (s.canonical = true) ∧ (s.isF Reg.CTX_STATUS_READY = true) ∧ (c < 16384) ∧ ((s.desc c).wiping = false) ∧ ((s.desc c).kind ≠ kindFree) ∧ ((s.desc c).pinned = false) ∧ ((s.ctx.desc.filter fun (e : Nat × Desc) => e.2.pinned).length < s.getF Reg.CTX_EVICT_CFG_PIN_MAX)) (((({ State.reset with ctx := { State.reset.ctx with desc := [(5, { kind := 2, key := 9, lastTime := 1000 })] } }).setF Reg.CTX_STATUS_READY 1).setF Reg.CTX_EVICT_CFG_PIN_MAX 4)) 0 5) ∧
    ((fun (s : State) (path c : Nat) => (s.isF Reg.CTX_STATUS_READY = true) ∧ (c < 16384) ∧ ((s.desc c).wiping = false) ∧ ((s.desc c).kind ≠ kindFree) ∧ ((s.desc c).pinned = true)) (((({ State.reset with ctx := { State.reset.ctx with desc := [(5, { kind := 2, key := 9, pinned := true })] } }).setF Reg.CTX_STATUS_READY 1))) 0 5) ∧
    ((fun (s : State) (path c : Nat) => (s.isF Reg.CTX_STATUS_READY = true) ∧ (c < 16384) ∧ ((s.desc c).wiping = false) ∧ ((s.desc c).kind ≠ kindFree) ∧ ((s.desc c).pinned = false) ∧ (s.getF Reg.CTX_EVICT_CFG_PIN_MAX ≤ (s.ctx.desc.filter fun (e : Nat × Desc) => e.2.pinned).length)) (((({ State.reset with ctx := { State.reset.ctx with desc := [(5, { kind := 2, key := 9, lastTime := 1000 })] } }).setF Reg.CTX_STATUS_READY 1).setF Reg.CTX_EVICT_CFG_PIN_MAX 0)) 0 5) ∧
    ((fun (s : State) (path c : Nat) => (s.canonical = true) ∧ (s.isF Reg.CTX_STATUS_READY = true) ∧ (c < 16384) ∧ ((s.desc c).wiping = false) ∧ ((s.desc c).kind ≠ kindFree)) (((({ State.reset with ctx := { State.reset.ctx with desc := [(5, { kind := 2, key := 9, pinned := true })] } }).setF Reg.CTX_STATUS_READY 1))) 0 5) ∧
    ((fun (s : State) (path c : Nat) => (c < 16384) ∧ (s.isF Reg.CTX_STATUS_READY = false ∨ (s.desc c).wiping = true)) (((({ State.reset with ctx := { State.reset.ctx with desc := [(5, { wiping := true })] } }).setF Reg.CTX_STATUS_READY 1))) 0 5) ∧
    ((fun (s : State) (path c : Nat) => (c < 16384) ∧ (s.isF Reg.CTX_STATUS_READY = true) ∧ ((s.desc c).wiping = false) ∧ ((s.desc c).kind = kindFree)) (((({ State.reset with ctx := { State.reset.ctx with desc := [(5, { kind := 2, key := 9, lastTime := 1000 })] } }).setF Reg.CTX_STATUS_READY 1))) 0 6) ∧
    ((fun (s : State) (path c : Nat) => (c < 16384) ∧ (s.isF Reg.CTX_STATUS_READY = false ∨ (s.desc c).wiping = true)) (((({ State.reset with ctx := { State.reset.ctx with desc := [(5, { wiping := true })] } }).setF Reg.CTX_STATUS_READY 1))) 0 5) ∧
    ((fun (s : State) (path c : Nat) => (c < 16384) ∧ (s.isF Reg.CTX_STATUS_READY = true) ∧ ((s.desc c).wiping = false) ∧ ((s.desc c).kind = kindFree)) (((({ State.reset with ctx := { State.reset.ctx with desc := [(5, { kind := 2, key := 9, lastTime := 1000 })] } }).setF Reg.CTX_STATUS_READY 1))) 0 6) ∧
    ((fun (s : State) (path c : Nat) => (c < 16384) ∧ (s.isF Reg.CTX_STATUS_READY = false ∨ (s.desc c).wiping = true)) (((({ State.reset with ctx := { State.reset.ctx with desc := [(5, { wiping := true })] } }).setF Reg.CTX_STATUS_READY 1))) 0 5) ∧
    ((fun (s : State) (path c : Nat) => (c < 16384) ∧ (s.isF Reg.CTX_STATUS_READY = true) ∧ ((s.desc c).wiping = false) ∧ ((s.desc c).kind = kindFree)) (((({ State.reset with ctx := { State.reset.ctx with desc := [(5, { kind := 2, key := 9, lastTime := 1000 })] } }).setF Reg.CTX_STATUS_READY 1))) 0 6) ∧
    ((fun (s : State) (path c : Nat) => (c < 16384) ∧ (s.isF Reg.CTX_STATUS_READY = false ∨ (s.desc c).wiping = true)) (((({ State.reset with ctx := { State.reset.ctx with desc := [(5, { wiping := true })] } }).setF Reg.CTX_STATUS_READY 1))) 0 5) ∧
    ((fun (s : State) (path c : Nat) => (c < 16384) ∧ (s.isF Reg.CTX_STATUS_READY = true) ∧ ((s.desc c).wiping = false) ∧ ((s.desc c).kind = kindFree)) (((({ State.reset with ctx := { State.reset.ctx with desc := [(5, { kind := 2, key := 9, lastTime := 1000 })] } }).setF Reg.CTX_STATUS_READY 1))) 0 6) ∧
    ((fun (s : State) (path kind : Nat) => (s.isF Reg.CTX_STATUS_READY = false)) (((({ State.reset with ctx := { State.reset.ctx with desc := [(5, { kind := 2, key := 9, lastTime := 1000 })] } }).setF Reg.CTX_STATUS_READY 0))) 0 2) ∧
    ((fun (s : State) (path kind c : Nat) => (s.isF Reg.CTX_STATUS_READY = true) ∧ (kind % 4 ≠ 0) ∧ (s.ctxFind (kind % 4) (s.get64 Reg.CTX_KEY_LO) = some c)) (((({ State.reset with ctx := { State.reset.ctx with desc := [(5, { kind := 2, key := 9, lastTime := 1000 })] } }).setF Reg.CTX_STATUS_READY 1).setF Reg.CTX_KEY_LO 9)) 0 2 5) ∧
    ((fun (s : State) (path kind : Nat) => (s.isF Reg.CTX_STATUS_READY = true) ∧ (kind % 4 = 0 ∨ s.ctxFind (kind % 4) (s.get64 Reg.CTX_KEY_LO) = none)) (((({ State.reset with ctx := { State.reset.ctx with desc := [(5, { kind := 2, key := 9, lastTime := 1000 })] } }).setF Reg.CTX_STATUS_READY 1).setF Reg.CTX_KEY_LO 9)) 0 1) ∧
    ((fun (s : State) (c now : Nat) => (s.canonical = true) ∧ ((s.desc c).wiping = true) ∧ (Sparse.find s.ctx.waitFor c = none)) (((({ State.reset with ctx := { State.reset.ctx with desc := [(5, { wiping := true, gen := 3 })] } }).setF Reg.CTX_STATUS_READY 1))) 5 77) ∧
    ((fun (s : State) (c now kind key : Nat) (a : State) => (s.canonical = true) ∧ ((s.desc c).wiping = true) ∧ (Sparse.find s.ctx.waitFor c = some (kind, key)) ∧ (Sparse.at [] s.ctx.held c = []) ∧ (Sparse.at ({} : Desc) s.ctx.pend c = ({} : Desc)) ∧ (s.ctx.want = []) ∧ (s.areaPoison c = 0) ∧ (a = s.setDesc c { s.desc c with wiping := false })) (((({ State.reset with ctx := { State.reset.ctx with desc := [(5, { wiping := true, gen := 3 })], waitFor := [(5, (2, 7))] } }).setF Reg.CTX_STATUS_READY 1))) 5 70 2 7 (((({ State.reset with ctx := { State.reset.ctx with desc := [(5, { wiping := true, gen := 3 })], waitFor := [(5, (2, 7))] } }).setF Reg.CTX_STATUS_READY 1)).setDesc 5 { gen := 3 })) ∧
    ((fun (s : State) (c now kind key : Nat) (a b : State) => ((s.desc c).wiping = true) ∧ (Sparse.find s.ctx.waitFor c = some (kind, key)) ∧ (a = s.setDesc c { s.desc c with wiping := false }) ∧ (b = (Sparse.at [] s.ctx.held c).foldl (fun (x : State) (r : HeldRec) => x.ctxRecord c r.ring r.now r.bytes) (State.allot { a with ctx := { a.ctx with waitFor := Sparse.erase s.ctx.waitFor c, held := Sparse.erase s.ctx.held c, pend := Sparse.erase s.ctx.pend c } } c kind key now))) (((({ State.reset with ctx := { State.reset.ctx with desc := [(5, { wiping := true, gen := 3 })], waitFor := [(5, (2, 7))], held := [(5, [⟨1, 60, leBytes 64 77⟩])], pend := [(5, { lastSeq := 4 })] } }).setF Reg.CTX_STATUS_READY 1))) 5 70 2 7 (((({ State.reset with ctx := { State.reset.ctx with desc := [(5, { wiping := true, gen := 3 })], waitFor := [(5, (2, 7))], held := [(5, [⟨1, 60, leBytes 64 77⟩])], pend := [(5, { lastSeq := 4 })] } }).setF Reg.CTX_STATUS_READY 1)).setDesc 5 { gen := 3 }) ((State.allot (((({ State.reset with ctx := { State.reset.ctx with desc := [(5, { wiping := true, gen := 3 })] } }).setF Reg.CTX_STATUS_READY 1)).setDesc 5 { gen := 3 }) 5 2 7 70).ctxRecord 5 1 60 (leBytes 64 77))) ∧
    ((fun (s : State) (c now : Nat) => ((s.desc c).wiping = false)) (((({ State.reset with ctx := { State.reset.ctx with desc := [(5, { kind := 2, key := 9, lastTime := 1000 })] } }).setF Reg.CTX_STATUS_READY 1))) 5 70) := by
  repeat refine And.intro (by decide +kernel) ?_
  decide +kernel

theorem test_meets_CaptureRingsScrubbingAndTheWipe :
    ((fun (s : State) (path r value : Nat) => (s.canonical = true) ∧ (r < 64) ∧ (s.getF Reg.CFG_OWN_OWNER (0x180 + r) ≠ pathOwner path)) (State.reset) 0 2 0x80000000) ∧
    ((fun (s : State) (path r value : Nat) (a : State) => (s.canonical = true) ∧ (r < 64) ∧ (s.getF Reg.CFG_OWN_OWNER (0x180 + r) = pathOwner path) ∧ (s.isF Reg.CTX_CAP_CFG_EN r = false) ∧ (bitOf value 31 = true) ∧ (a = s.wr (Reg.CTX_CAP_CFG.addr r 0) (BitVec.ofNat 32 (value &&& 0xFE0001FF))) ∧ (a.capCheck r = 0) ∧ (capSrcOk (value % 512) = true)) (((((State.reset.setF Reg.CFG_OWN_OWNER 0x40 0x182).setF Reg.CTX_CAP_SIZE 2 2).setF Reg.CTX_CAP_BASE 4 2).setF Reg.CTX_CAP_STAT_DROPPED 7 2)) 0 2 0x80000141 (((((State.reset.setF Reg.CFG_OWN_OWNER 0x40 0x182).setF Reg.CTX_CAP_SIZE 2 2).setF Reg.CTX_CAP_BASE 4 2).setF Reg.CTX_CAP_STAT_DROPPED 7 2).wr (Reg.CTX_CAP_CFG.addr 2 0) 0x80000141#32)) ∧
    ((fun (s : State) (path r value : Nat) (a : State) => (s.canonical = true) ∧ (r < 64) ∧ (s.getF Reg.CFG_OWN_OWNER (0x180 + r) = pathOwner path) ∧ (s.isF Reg.CTX_CAP_CFG_EN r = false) ∧ (bitOf value 31 = true) ∧ (a = s.wr (Reg.CTX_CAP_CFG.addr r 0) (BitVec.ofNat 32 (value &&& 0xFE0001FF))) ∧ (a.capCheck r = 1 ∨ a.capCheck r = 2)) ((State.reset.setF Reg.CFG_OWN_OWNER 0x40 0x182)) 0 2 0x80000141 ((State.reset.setF Reg.CFG_OWN_OWNER 0x40 0x182).wr (Reg.CTX_CAP_CFG.addr 2 0) 0x80000141#32)) ∧
    ((fun (s : State) (path r value : Nat) => (s.canonical = true) ∧ (r < 64) ∧ (s.getF Reg.CFG_OWN_OWNER (0x180 + r) = pathOwner path) ∧ (bitOf value 31 = false)) (((((State.reset.setF Reg.CFG_OWN_OWNER 0x40 0x182).setF Reg.CTX_CAP_SIZE 2 2).setF Reg.CTX_CAP_BASE 4 2).setF Reg.CTX_CAP_STAT_RUNNING 1 2)) 0 2 0x141) ∧
    ((fun (s : State) (path r value : Nat) => (s.canonical = true) ∧ (r < 64) ∧ (s.getF Reg.CFG_OWN_OWNER (0x180 + r) = pathOwner path) ∧ (s.isF Reg.CTX_CAP_CFG_EN r = true) ∧ (bitOf value 31 = true) ∧ (capSrcOk (value % 512) = true)) (((((State.reset.setF Reg.CFG_OWN_OWNER 0x40 0x182).setF Reg.CTX_CAP_SIZE 2 2).setF Reg.CTX_CAP_BASE 4 2).setF Reg.CTX_CAP_CFG_EN 1 2)) 0 2 0x80000141) ∧
    ((fun (s : State) (r lost : Nat) (x : CapSample) (rest : List CapSample) => (s.canonical = true) ∧ (r < 64) ∧ (s.isF Reg.CTX_CAP_STAT_RUNNING r = true) ∧ (capBlock 14 (capLose (Sparse.at [] s.ctx.cap r) lost) = x :: rest) ∧ (capCloses (x :: rest) = true) ∧ (Sparse.find s.ctx.post r ≠ some 0)) ((({ State.reset with ctx := { State.reset.ctx with cap := [(2, [⟨5, 6, false⟩, ⟨7, 8, true⟩, ⟨9, 9, false⟩])], post := [(2, 3)], span := [(2, (4, 2))] } }).setF Reg.CTX_CAP_STAT_RUNNING 1 2)) 2 0 ⟨5, 6, false⟩ [⟨7, 8, true⟩]) ∧
    ((fun (s : State) (r lost : Nat) (x : CapSample) (rest : List CapSample) => (s.canonical = true) ∧ (r < 64) ∧ (s.isF Reg.CTX_CAP_STAT_RUNNING r = true) ∧ (capBlock 14 (capLose (Sparse.at [] s.ctx.cap r) lost) = x :: rest) ∧ (capCloses (x :: rest) = true) ∧ (Sparse.find s.ctx.post r ≠ some 0)) ((({ State.reset with ctx := { State.reset.ctx with cap := [(2, [⟨5, 6, false⟩, ⟨7, 8, false⟩, ⟨9, 9, false⟩])], post := [], span := [(2, (4, 2))] } }).setF Reg.CTX_CAP_STAT_RUNNING 1 2)) 2 1 ⟨5, 6, false⟩ [⟨7, 8, true⟩]) ∧
    ((fun (s : State) (r lost : Nat) => (s.canonical = true) ∧ (r < 64) ∧ (s.isF Reg.CTX_CAP_STAT_RUNNING r = true) ∧ (capCloses (capBlock 14 (capLose (Sparse.at [] s.ctx.cap r) lost)) = false ∨ Sparse.find s.ctx.post r = some 0)) ((({ State.reset with ctx := { State.reset.ctx with cap := [(2, [⟨5, 6, false⟩, ⟨7, 8, false⟩])], post := [], span := [(2, (4, 2))] } }).setF Reg.CTX_CAP_STAT_RUNNING 1 2)) 2 0) ∧
    ((fun (s : State) (r lost : Nat) => (s.canonical = true) ∧ (r < 64) ∧ (s.isF Reg.CTX_CAP_STAT_RUNNING r = true) ∧ (capCloses (capBlock 14 (capLose (Sparse.at [] s.ctx.cap r) lost)) = false ∨ Sparse.find s.ctx.post r = some 0)) ((({ State.reset with ctx := { State.reset.ctx with cap := [(2, [⟨5, 6, true⟩, ⟨7, 8, false⟩])], post := [(2, 0)], span := [(2, (4, 2))] } }).setF Reg.CTX_CAP_STAT_RUNNING 1 2)) 2 1) ∧
    ((fun (s : State) (r lost : Nat) => (s.canonical = true) ∧ (r < 64) ∧ (s.isF Reg.CTX_CAP_STAT_RUNNING r = true) ∧ (capCloses (capBlock 14 (capLose (Sparse.at [] s.ctx.cap r) lost)) = false ∨ Sparse.find s.ctx.post r = some 0)) ((({ State.reset with ctx := { State.reset.ctx with cap := [(2, [⟨5, 6, true⟩])], post := [], span := [(2, (4, 2))] } }).setF Reg.CTX_CAP_STAT_RUNNING 1 2)) 2 7) ∧
    ((fun (s : State) (r : Nat) => (s.canonical = true) ∧ (bitOf s.ctx.trig r = true) ∧ (s.isF Reg.CTX_CAP_STAT_RUNNING r = true) ∧ (s.isF Reg.CTX_CAP_CFG_MODE r = true) ∧ (Sparse.find s.ctx.post r = none)) ((((((({ State.reset with ctx := { State.reset.ctx with trig := 4, cap := [(2, [⟨5, 6, true⟩])] } }.setF Reg.CTX_CAP_STAT_RUNNING 1 2).setF Reg.CTX_CAP_CFG_MODE 1 2).setF Reg.CTX_CAP_CFG_TRIG_SIG 3 2).setF Reg.LT_LG_STAT_OUT 1 3).setF Reg.CTX_CAP_HEAD_LO 12 2).setF Reg.CTX_CAP_POST 5 2)) 2) ∧
    ((fun (s : State) (r : Nat) => (bitOf s.ctx.trig r = false ∨ s.isF Reg.CTX_CAP_STAT_RUNNING r = false ∨ s.isF Reg.CTX_CAP_CFG_MODE r = false ∨ Sparse.find s.ctx.post r ≠ none)) (State.reset) 2) ∧
    ((fun (s : State) (r : Nat) => (Sparse.find s.ctx.post r ≠ some 0 ∨ s.isF Reg.CTX_CAP_STAT_RUNNING r = false)) ((({ State.reset with ctx := { State.reset.ctx with cap := [(2, [])], post := [(2, 3)], span := [(2, (4, 2))] } }).setF Reg.CTX_CAP_STAT_RUNNING 1 2)) 2) ∧
    ((fun (s : State) (r : Nat) => (s.canonical = true) ∧ (r < 64) ∧ (s.isF Reg.CTX_CAP_STAT_RUNNING r = true) ∧ (Sparse.find s.ctx.post r = some 0)) ((({ State.reset with ctx := { State.reset.ctx with post := [(2, 0)] } }).setF Reg.CTX_CAP_STAT_RUNNING 1 2)) 2) ∧
    ((fun (s : State) (flaw : List (Nat × Nat)) => (s.canonical = true) ∧ (s.isF Reg.CTX_STATUS_READY = true) ∧ (s.isF Reg.CTX_SCRUB_CFG_EN = true) ∧ (rsDecode flaw = RsResult.clean ∨ Sparse.at false s.poison s.ctx.scrub = true)) (({ State.reset with ctx := { State.reset.ctx with scrub := 0x7FFFFFFF } }.setF Reg.CTX_STATUS_READY 1 |>.setF Reg.CTX_SCRUB_CFG_EN 1)) []) ∧
    ((fun (s : State) (flaw : List (Nat × Nat)) => (s.canonical = true) ∧ (s.isF Reg.CTX_STATUS_READY = true) ∧ (s.isF Reg.CTX_SCRUB_CFG_EN = true) ∧ (rsDecode flaw = RsResult.corrected) ∧ (Sparse.at false s.poison s.ctx.scrub = false)) (({ State.reset with ctx := { State.reset.ctx with scrub := 5 } }.setF Reg.CTX_STATUS_READY 1 |>.setF Reg.CTX_SCRUB_CFG_EN 1)) [(67, 0x80)]) ∧
    ((fun (s : State) (flaw : List (Nat × Nat)) => (s.canonical = true) ∧ (s.isF Reg.CTX_STATUS_READY = true) ∧ (s.isF Reg.CTX_SCRUB_CFG_EN = true) ∧ (rsDecode flaw = RsResult.corrected) ∧ (Sparse.at false s.poison s.ctx.scrub = false)) (({ State.reset with ctx := { State.reset.ctx with scrub := 5 } }.setF Reg.CTX_STATUS_READY 1 |>.setF Reg.CTX_SCRUB_CFG_EN 1)) [(0, 1)]) ∧
    ((fun (s : State) (flaw : List (Nat × Nat)) => (s.canonical = true) ∧ (s.isF Reg.CTX_STATUS_READY = true) ∧ (s.isF Reg.CTX_SCRUB_CFG_EN = true) ∧ (rsDecode flaw = RsResult.found) ∧ (Sparse.at false s.poison s.ctx.scrub = false) ∧ (3 ≤ stackRange (s.ctx.scrub * 64))) (({ State.reset with ctx := { State.reset.ctx with scrub := 0x60000000 } }.setF Reg.CTX_STATUS_READY 1 |>.setF Reg.CTX_SCRUB_CFG_EN 1)) [(0, 1), (67, 1)]) ∧
    ((fun (s : State) (flaw : List (Nat × Nat)) (c : Nat) => (s.canonical = true) ∧ (s.isF Reg.CTX_STATUS_READY = true) ∧ (s.isF Reg.CTX_SCRUB_CFG_EN = true) ∧ (rsDecode flaw = RsResult.found) ∧ (Sparse.at false s.poison s.ctx.scrub = false) ∧ (stackRange (s.ctx.scrub * 64) = 0) ∧ (c = s.ctx.scrub * 64 / 0x400000) ∧ ((s.desc c).kind ≠ kindFree)) (({ State.reset with ctx := { State.reset.ctx with desc := [(5, { kind := 2, key := 9 })], scrub := 0x50001 } }.setF Reg.CTX_STATUS_READY 1 |>.setF Reg.CTX_SCRUB_CFG_EN 1)) [(1, 1), (2, 2), (3, 3)] 5) ∧
    ((fun (s : State) (flaw : List (Nat × Nat)) => (s.canonical = true) ∧ (s.isF Reg.CTX_STATUS_READY = true) ∧ (s.isF Reg.CTX_SCRUB_CFG_EN = true) ∧ (rsDecode flaw = RsResult.beyond) ∧ (Sparse.at false s.poison s.ctx.scrub = false)) (({ State.reset with ctx := { State.reset.ctx with scrub := 5 } }.setF Reg.CTX_STATUS_READY 1 |>.setF Reg.CTX_SCRUB_CFG_EN 1)) [(1, 1), (2, 2), (3, 3), (4, 4)]) ∧
    ((fun (s : State) (place d : Nat) => (s.canonical = true) ∧ (s.isF Reg.CTX_STATUS_READY = true) ∧ (s.isF Reg.CTX_SCRUB_CFG_EN = true) ∧ (place < 68) ∧ (0 < d) ∧ (d < 256) ∧ (Sparse.at false s.poison s.ctx.scrub = false)) (({ State.reset with ctx := { State.reset.ctx with scrub := 5 } }.setF Reg.CTX_STATUS_READY 1 |>.setF Reg.CTX_SCRUB_CFG_EN 1)) 67 255) ∧
    ((fun (s : State) (flaw : List (Nat × Nat)) => (s.isF Reg.CTX_STATUS_READY = false ∨ s.isF Reg.CTX_SCRUB_CFG_EN = false)) (State.reset) [(1, 1)]) ∧
    ((fun (s : State) (tenths : Nat) => (s.isF Reg.CTX_STATUS_WIPING = false)) ((State.reset.setF Reg.CTX_STATUS_WIPING 0)) 3) ∧
    ((fun (s : State) (tenths : Nat) => (s.canonical = true) ∧ (s.isF Reg.CTX_STATUS_WIPING = true)) ((((State.reset.memWrite 5 [1#8]).setF Reg.CTX_CAP_CFG_EN 1 3).setF Reg.CTX_STATUS_WIPING 1)) 843) := by
  repeat refine And.intro (by decide +kernel) ?_
  decide +kernel

theorem test_meets_SnapArmsCapturesAndCompletes :
    ((fun (s : State) (busy wait late : Bool) => (s.canonical = true) ∧ (busy = decide (s.getF Reg.SNAP_STATUS_STATE = 1 ∨ s.getF Reg.SNAP_STATUS_STATE = 2)) ∧ (wait = decide (s.getF Reg.SNAP_CTL_SRC = 1 ∨ s.getF Reg.SNAP_CTL_SRC = 2)) ∧ (late = (!busy && !wait && decide (s.get64 Reg.SNAP_AT_LO ≠ 0 ∧ s.get64 Reg.SNAP_AT_LO ≤ s.frame)))) (({ State.reset with frame := 9 }.setF Reg.SNAP_AT_LO 10)) false false false) ∧
    ((fun (s : State) (busy wait late : Bool) => (s.canonical = true) ∧ (busy = decide (s.getF Reg.SNAP_STATUS_STATE = 1 ∨ s.getF Reg.SNAP_STATUS_STATE = 2)) ∧ (wait = decide (s.getF Reg.SNAP_CTL_SRC = 1 ∨ s.getF Reg.SNAP_CTL_SRC = 2)) ∧ (late = (!busy && !wait && decide (s.get64 Reg.SNAP_AT_LO ≠ 0 ∧ s.get64 Reg.SNAP_AT_LO ≤ s.frame)))) (({ State.reset with frame := 9 }.setF Reg.SNAP_AT_LO 9)) false false true) ∧
    ((fun (s : State) (busy wait late : Bool) => (s.canonical = true) ∧ (busy = decide (s.getF Reg.SNAP_STATUS_STATE = 1 ∨ s.getF Reg.SNAP_STATUS_STATE = 2)) ∧ (wait = decide (s.getF Reg.SNAP_CTL_SRC = 1 ∨ s.getF Reg.SNAP_CTL_SRC = 2)) ∧ (late = (!busy && !wait && decide (s.get64 Reg.SNAP_AT_LO ≠ 0 ∧ s.get64 Reg.SNAP_AT_LO ≤ s.frame)))) ((State.reset.setF Reg.SNAP_STATUS_STATE 2)) true false false) ∧
    ((fun (s : State) => (s.canonical = true) ∧ (s.getF Reg.SNAP_STATUS_STATE = 1 ∨ s.getF Reg.SNAP_STATUS_STATE = 2)) ((State.reset.setF Reg.SNAP_STATUS_STATE 1))) ∧
    ((fun (s : State) => (s.canonical = true) ∧ (s.getF Reg.SNAP_STATUS_STATE ≠ 1) ∧ (s.getF Reg.SNAP_STATUS_STATE ≠ 2) ∧ (s.getF Reg.SNAP_CTL_SRC = 1 ∨ s.getF Reg.SNAP_CTL_SRC = 2)) ((State.reset.setF Reg.SNAP_CTL_SRC 2))) ∧
    ((fun (s : State) => (s.canonical = true) ∧ (s.getF Reg.SNAP_STATUS_STATE ≠ 1) ∧ (s.getF Reg.SNAP_STATUS_STATE ≠ 2) ∧ (s.getF Reg.SNAP_CTL_SRC ≠ 1) ∧ (s.getF Reg.SNAP_CTL_SRC ≠ 2) ∧ (s.get64 Reg.SNAP_AT_LO = 0)) ((State.reset))) ∧
    ((fun (s : State) => (s.canonical = true) ∧ (s.getF Reg.SNAP_STATUS_STATE ≠ 1) ∧ (s.getF Reg.SNAP_STATUS_STATE ≠ 2) ∧ (s.getF Reg.SNAP_CTL_SRC ≠ 1) ∧ (s.getF Reg.SNAP_CTL_SRC ≠ 2) ∧ (s.get64 Reg.SNAP_AT_LO ≠ 0) ∧ (s.get64 Reg.SNAP_AT_LO ≤ s.frame)) (({ State.reset with frame := 9 }.setF Reg.SNAP_AT_LO 9))) ∧
    ((fun (s : State) => (s.canonical = true) ∧ (s.getF Reg.SNAP_STATUS_STATE ≠ 1) ∧ (s.getF Reg.SNAP_STATUS_STATE ≠ 2) ∧ (s.getF Reg.SNAP_CTL_SRC ≠ 1) ∧ (s.getF Reg.SNAP_CTL_SRC ≠ 2) ∧ (s.frame < s.get64 Reg.SNAP_AT_LO)) (({ State.reset with frame := 9 }.setF Reg.SNAP_AT_LO 10))) ∧
    ((fun (s : State) => (s.canonical = true) ∧ (s.getF Reg.SNAP_STATUS_STATE = 1)) ((State.reset.setF Reg.SNAP_STATUS_STATE 1))) ∧
    ((fun (s : State) (stale : List Nat) (f : Nat) => (s.canonical = true) ∧ (s.snap.boundary = some f) ∧ (s.getF Reg.SNAP_STATUS_STATE = 1) ∧ (f ≤ s.frame)) (((({ State.reset with snap := { State.reset.snap with boundary := some 4 }, frame := 4 }.setF Reg.SNAP_STATUS_STATE 1).setF Reg.SNAP_CTL_COUNT 3).setF Reg.CLK_XING_STALE 0xFFFFFFFF 38)) [1] 4) ∧
    ((fun (s : State) (stale : List Nat) (f : Nat) => (s.canonical = true) ∧ (s.snap.boundary = some f) ∧ (s.getF Reg.SNAP_STATUS_STATE = 1) ∧ (f ≤ s.frame)) (((({ State.reset with snap := { State.reset.snap with boundary := some 4 }, frame := 4 }.setF Reg.SNAP_STATUS_STATE 1).setF Reg.SNAP_CTL_COUNT 3).setF Reg.SNAP_LIST 0x20000 2)) [0, 2] 4) ∧
    ((fun (s : State) (stale : List Nat) => (s.snap.boundary.all (fun (f : Nat) => decide (s.frame < f)) = true ∨ s.getF Reg.SNAP_STATUS_STATE ≠ 1)) (State.reset) []) ∧
    ((fun (s : State) => (s.getF Reg.SNAP_STATUS_STATE ≠ 1)) (State.reset)) ∧
    ((fun (s : State) => (s.getF Reg.SNAP_STATUS_STATE ≠ 2)) (State.reset)) ∧
    ((fun (s : State) (vs : List (Word × Bool × Bool)) => (s.canonical = true) ∧ (s.getF Reg.SNAP_STATUS_STATE = 2) ∧ (vs = s.snap.values) ∧ (vs.length ≤ 512)) (({ State.reset with snap := { State.reset.snap with boundary := some 4, values := (List.range 40).map fun (e : Nat) => (BitVec.ofNat 32 (3 * e), decide (e % 3 = 0), decide (e % 5 = 1)), rackIdx := 5, hallIdx := 6 } }.setF Reg.SNAP_STATUS_STATE 2)) ((List.range 40).map fun (e : Nat) => (BitVec.ofNat 32 (3 * e), decide (e % 3 = 0), decide (e % 5 = 1)))) ∧
    ((fun (s : State) (w : Word) (st sl : Bool) => (s.canonical = true) ∧ (s.getF Reg.SNAP_STATUS_STATE = 2) ∧ (s.snap.values = [(w, st, sl)])) (({ State.reset with snap := { State.reset.snap with boundary := some 4, values := [(7#32, false, true)], rackIdx := 5, hallIdx := 6 } }.setF Reg.SNAP_STATUS_STATE 2)) 7#32 false true) := by
  repeat refine And.intro (by decide +kernel) ?_
  decide +kernel

theorem test_meets_ArrivingMessagesAreChecked :
    ((fun (s : State) (port now queued : Nat) (frame : List Byte) => (s.hintDatagram port frame = none)) ((((((State.reset.setF Reg.HNT_CFG_EN 1).setF Reg.HNT_CFG_AUTH_REQ 0).setF Reg.HNT_STATUS_LINK_A 1).setF Reg.HNT_STATUS_PHASE 2).setF Reg.HNT_STATUS_TQ 3)) 0 5000 0 (beBytes 64 0x00000000000000000000000081000000000000000000000000000000000000000000000000000000000000000000000000000000000000000000000000000000)) ∧
    ((fun (s : State) (port now queued : Nat) (frame : List Byte) => (s.hintDatagram port frame = none)) ((((((State.reset.setF Reg.HNT_CFG_EN 1).setF Reg.HNT_CFG_AUTH_REQ 0).setF Reg.HNT_STATUS_LINK_A 1).setF Reg.HNT_STATUS_PHASE 2).setF Reg.HNT_STATUS_TQ 3)) 0 5000 0 (beBytes 64 0x00000000000000000000000081000000000000000000000000000000000000000000000000000000000000000000000000000000000000000000000000000000)) ∧
    ((fun (s : State) (port now queued : Nat) (frame : List Byte) => (s.hintDatagram port frame = none)) ((((((State.reset.setF Reg.HNT_CFG_EN 1).setF Reg.HNT_CFG_AUTH_REQ 0).setF Reg.HNT_STATUS_LINK_A 1).setF Reg.HNT_STATUS_PHASE 2).setF Reg.HNT_STATUS_TQ 3)) 0 5000 0 (beBytes 64 0x00000000000000000000000081000000000000000000000000000000000000000000000000000000000000000000000000000000000000000000000000000000)) ∧
    ((fun (s : State) (port now : Nat) (frame : List Byte) => (s.hintDatagram port frame = none)) ((((((State.reset.setF Reg.HNT_CFG_EN 1).setF Reg.HNT_CFG_AUTH_REQ 0).setF Reg.HNT_STATUS_LINK_A 1).setF Reg.HNT_STATUS_PHASE 2).setF Reg.HNT_STATUS_TQ 3)) 0 5000 (beBytes 64 0x00000000000000000000000081000000000000000000000000000000000000000000000000000000000000000000000000000000000000000000000000000000)) ∧
    ((fun (s : State) (port now : Nat) (frame : List Byte) => (s.hintDatagram port frame = none)) ((((((State.reset.setF Reg.HNT_CFG_EN 1).setF Reg.HNT_CFG_AUTH_REQ 0).setF Reg.HNT_STATUS_LINK_A 1).setF Reg.HNT_STATUS_PHASE 2).setF Reg.HNT_STATUS_TQ 3)) 0 5000 (beBytes 64 0x00000000000000000000000081000000000000000000000000000000000000000000000000000000000000000000000000000000000000000000000000000000)) ∧
    ((fun (s : State) (port now : Nat) (frame : List Byte) => (s.hintDatagram port frame = none)) ((((((State.reset.setF Reg.HNT_CFG_EN 1).setF Reg.HNT_CFG_AUTH_REQ 0).setF Reg.HNT_STATUS_LINK_A 1).setF Reg.HNT_STATUS_PHASE 2).setF Reg.HNT_STATUS_TQ 3)) 0 5000 (beBytes 64 0x00000000000000000000000081000000000000000000000000000000000000000000000000000000000000000000000000000000000000000000000000000000)) ∧
    ((fun (s : State) (port now queued : Nat) (message : List Byte) (frame : List Byte) => (s.canonical = true) ∧ (s.hintDatagram port frame = some message) ∧ (s.hears port = true) ∧ (hintFormOk message = false)) ((((((State.reset.setF Reg.HNT_CFG_EN 1).setF Reg.HNT_CFG_AUTH_REQ 0).setF Reg.HNT_STATUS_LINK_A 1).setF Reg.HNT_STATUS_PHASE 2).setF Reg.HNT_STATUS_TQ 3)) 0 5000 0 (beBytes 48 0x414601010003000700000000000000090000000500000000000000000000000000000000000000000000000000000000) (beBytes 110 0x00000000000000000000000086DD60000000003811FFFE800000000000000000000000000009FE800000000000000000000000000000B8A0B8A000384ED3414601010003000700000000000000090000000500000000000000000000000000000000000000000000000000000000)) ∧
    ((fun (s : State) (port now queued : Nat) (message : List Byte) (frame : List Byte) => (s.canonical = true) ∧ (s.hintDatagram port frame = some message) ∧ (s.hears port = true) ∧ (hintFormOk message = true) ∧ (beAt message 3 1 = 1) ∧ (s.tagOk message = false) ∧ (bitOf (beAt message 4 1) 0 = false)) (((((((State.reset.setF Reg.HNT_CFG_EN 1).setF Reg.HNT_CFG_AUTH_REQ 0).setF Reg.HNT_STATUS_LINK_A 1).setF Reg.HNT_STATUS_PHASE 2).setF Reg.HNT_STATUS_TQ 3).setF Reg.HNT_CFG_AUTH_REQ 1)) 0 5000 0 (beBytes 48 0x414601010003003000000000000000090000000500000000000000000000000000000000000000000000000000000000) (beBytes 110 0x00000000000000000000000086DD60000000003811FFFE800000000000000000000000000009FE800000000000000000000000000000B8A0B8A000384EAA414601010003003000000000000000090000000500000000000000000000000000000000000000000000000000000000)) ∧
    ((fun (s : State) (port now queued : Nat) (message : List Byte) (frame : List Byte) => (s.canonical = true) ∧ (s.hintDatagram port frame = some message) ∧ (s.hears port = true) ∧ (hintFormOk message = true) ∧ (beAt message 3 1 = 1) ∧ (s.tagOk message = true) ∧ (s.phase = phaseWait)) (((((((State.reset.setF Reg.HNT_CFG_EN 1).setF Reg.HNT_CFG_AUTH_REQ 0).setF Reg.HNT_STATUS_LINK_A 1).setF Reg.HNT_STATUS_PHASE 2).setF Reg.HNT_STATUS_TQ 3).setF Reg.HNT_STATUS_PHASE 0)) 0 5000 0 (beBytes 48 0x414601010003003000000000000000090000000500000000000000000000000000000000000000000000000000000000) (beBytes 110 0x00000000000000000000000086DD60000000003811FFFE800000000000000000000000000009FE800000000000000000000000000000B8A0B8A000384EAA414601010003003000000000000000090000000500000000000000000000000000000000000000000000000000000000)) ∧
    ((fun (s : State) (port now queued : Nat) (message : List Byte) (frame : List Byte) => (s.hintDatagram port frame = some message) ∧ (s.hears port = false)) (State.reset) 0 5000 0 (beBytes 48 0x414601010003003000000000000000090000000500000000000000000000000000000000000000000000000000000000) (beBytes 110 0x00000000000000000000000086DD60000000003811FFFE800000000000000000000000000009FE800000000000000000000000000000B8A0B8A000384EAA414601010003003000000000000000090000000500000000000000000000000000000000000000000000000000000000)) ∧
    ((fun (s : State) (port now queued : Nat) (message : List Byte) (frame : List Byte) => (s.canonical = true) ∧ (s.hintDatagram port frame = some message) ∧ (s.hears port = true) ∧ (hintFormOk message = false)) ((((((State.reset.setF Reg.HNT_CFG_EN 1).setF Reg.HNT_CFG_AUTH_REQ 0).setF Reg.HNT_STATUS_LINK_A 1).setF Reg.HNT_STATUS_PHASE 2).setF Reg.HNT_STATUS_TQ 3)) 0 5000 0 (beBytes 44 0x4146010200030007000000000000000900000005000000000000000000000000000000000000000000000000) (beBytes 106 0x00000000000000000000000086DD60000000003411FFFE800000000000000000000000000009FE800000000000000000000000000000B8A0B8A000344EDA4146010200030007000000000000000900000005000000000000000000000000000000000000000000000000)) ∧
    ((fun (s : State) (port now queued : Nat) (message : List Byte) (frame : List Byte) => (s.canonical = true) ∧ (s.hintDatagram port frame = some message) ∧ (s.hears port = true) ∧ (hintFormOk message = true) ∧ (beAt message 3 1 = 2) ∧ (s.tagOk message = false) ∧ (bitOf (beAt message 4 1) 0 = false)) (((((((State.reset.setF Reg.HNT_CFG_EN 1).setF Reg.HNT_CFG_AUTH_REQ 0).setF Reg.HNT_STATUS_LINK_A 1).setF Reg.HNT_STATUS_PHASE 2).setF Reg.HNT_STATUS_TQ 3).setF Reg.HNT_CFG_AUTH_REQ 1)) 0 5000 0 (beBytes 44 0x414601020003002C000000000000000900000005000000000000000000000000000000000000000000000000) (beBytes 106 0x00000000000000000000000086DD60000000003411FFFE800000000000000000000000000009FE800000000000000000000000000000B8A0B8A000344EB5414601020003002C000000000000000900000005000000000000000000000000000000000000000000000000)) ∧
    ((fun (s : State) (port now queued : Nat) (message : List Byte) (frame : List Byte) => (s.canonical = true) ∧ (s.hintDatagram port frame = some message) ∧ (s.hears port = true) ∧ (hintFormOk message = true) ∧ (beAt message 3 1 = 2) ∧ (s.tagOk message = true) ∧ (s.phase = phaseWait)) (((((((State.reset.setF Reg.HNT_CFG_EN 1).setF Reg.HNT_CFG_AUTH_REQ 0).setF Reg.HNT_STATUS_LINK_A 1).setF Reg.HNT_STATUS_PHASE 2).setF Reg.HNT_STATUS_TQ 3).setF Reg.HNT_STATUS_PHASE 0)) 0 5000 0 (beBytes 44 0x414601020003002C000000000000000900000005000000000000000000000000000000000000000000000000) (beBytes 106 0x00000000000000000000000086DD60000000003411FFFE800000000000000000000000000009FE800000000000000000000000000000B8A0B8A000344EB5414601020003002C000000000000000900000005000000000000000000000000000000000000000000000000)) ∧
    ((fun (s : State) (port now queued : Nat) (message : List Byte) (frame : List Byte) => (s.hintDatagram port frame = some message) ∧ (s.hears port = false)) (State.reset) 0 5000 0 (beBytes 44 0x414601020003002C000000000000000900000005000000000000000000000000000000000000000000000000) (beBytes 106 0x00000000000000000000000086DD60000000003411FFFE800000000000000000000000000009FE800000000000000000000000000000B8A0B8A000344EB5414601020003002C000000000000000900000005000000000000000000000000000000000000000000000000)) ∧
    ((fun (s : State) (port now queued : Nat) (message : List Byte) (frame : List Byte) => (s.canonical = true) ∧ (s.hintDatagram port frame = some message) ∧ (s.hears port = true) ∧ (hintFormOk message = false)) ((((((State.reset.setF Reg.HNT_CFG_EN 1).setF Reg.HNT_CFG_AUTH_REQ 0).setF Reg.HNT_STATUS_LINK_A 1).setF Reg.HNT_STATUS_PHASE 2).setF Reg.HNT_STATUS_TQ 3)) 0 5000 0 (beBytes 52 0x41460103000300070000000000000009000000050000000000000000000000000000000000000000000000000000000000000000) (beBytes 114 0x00000000000000000000000086DD60000000003C11FFFE800000000000000000000000000009FE800000000000000000000000000000B8A0B8A0003C4EC941460103000300070000000000000009000000050000000000000000000000000000000000000000000000000000000000000000)) ∧
    ((fun (s : State) (port now queued : Nat) (message : List Byte) (frame : List Byte) => (s.canonical = true) ∧ (s.hintDatagram port frame = some message) ∧ (s.hears port = true) ∧ (hintFormOk message = true) ∧ (beAt message 3 1 = 3) ∧ (s.tagOk message = false) ∧ (bitOf (beAt message 4 1) 0 = false)) (((((((State.reset.setF Reg.HNT_CFG_EN 1).setF Reg.HNT_CFG_AUTH_REQ 0).setF Reg.HNT_STATUS_LINK_A 1).setF Reg.HNT_STATUS_PHASE 2).setF Reg.HNT_STATUS_TQ 3).setF Reg.HNT_CFG_AUTH_REQ 1)) 0 5000 0 (beBytes 52 0x41460103000300340000000000000009000000050000000000000000000000000000000000000000000000000000000000000000) (beBytes 114 0x00000000000000000000000086DD60000000003C11FFFE800000000000000000000000000009FE800000000000000000000000000000B8A0B8A0003C4E9C41460103000300340000000000000009000000050000000000000000000000000000000000000000000000000000000000000000)) ∧
    ((fun (s : State) (port now queued : Nat) (message : List Byte) (frame : List Byte) => (s.canonical = true) ∧ (s.hintDatagram port frame = some message) ∧ (s.hears port = true) ∧ (hintFormOk message = true) ∧ (beAt message 3 1 = 3) ∧ (s.tagOk message = true) ∧ (s.phase = phaseWait)) (((((((State.reset.setF Reg.HNT_CFG_EN 1).setF Reg.HNT_CFG_AUTH_REQ 0).setF Reg.HNT_STATUS_LINK_A 1).setF Reg.HNT_STATUS_PHASE 2).setF Reg.HNT_STATUS_TQ 3).setF Reg.HNT_STATUS_PHASE 0)) 0 5000 0 (beBytes 52 0x41460103000300340000000000000009000000050000000000000000000000000000000000000000000000000000000000000000) (beBytes 114 0x00000000000000000000000086DD60000000003C11FFFE800000000000000000000000000009FE800000000000000000000000000000B8A0B8A0003C4E9C41460103000300340000000000000009000000050000000000000000000000000000000000000000000000000000000000000000)) ∧
    ((fun (s : State) (port now queued : Nat) (message : List Byte) (frame : List Byte) => (s.hintDatagram port frame = some message) ∧ (s.hears port = false)) (State.reset) 0 5000 0 (beBytes 52 0x41460103000300340000000000000009000000050000000000000000000000000000000000000000000000000000000000000000) (beBytes 114 0x00000000000000000000000086DD60000000003C11FFFE800000000000000000000000000009FE800000000000000000000000000000B8A0B8A0003C4E9C41460103000300340000000000000009000000050000000000000000000000000000000000000000000000000000000000000000)) ∧
    ((fun (s : State) (port now : Nat) (message : List Byte) (frame : List Byte) => (s.canonical = true) ∧ (s.hintDatagram port frame = some message) ∧ (s.hears port = true) ∧ (hintFormOk message = false)) ((((((State.reset.setF Reg.HNT_CFG_EN 1).setF Reg.HNT_CFG_AUTH_REQ 0).setF Reg.HNT_STATUS_LINK_A 1).setF Reg.HNT_STATUS_PHASE 2).setF Reg.HNT_STATUS_TQ 3)) 0 5000 (beBytes 48 0x414601040003000700000000000000090000000500000000000000000000000000000000000000000000000000000000) (beBytes 110 0x00000000000000000000000086DD60000000003811FFFE800000000000000000000000000009FE800000000000000000000000000000B8A0B8A000384ED0414601040003000700000000000000090000000500000000000000000000000000000000000000000000000000000000)) ∧
    ((fun (s : State) (port now : Nat) (message : List Byte) (frame : List Byte) => (s.canonical = true) ∧ (s.hintDatagram port frame = some message) ∧ (s.hears port = true) ∧ (hintFormOk message = true) ∧ (beAt message 3 1 = 4) ∧ (s.tagOk message = false) ∧ (bitOf (beAt message 4 1) 0 = false)) (((((((State.reset.setF Reg.HNT_CFG_EN 1).setF Reg.HNT_CFG_AUTH_REQ 0).setF Reg.HNT_STATUS_LINK_A 1).setF Reg.HNT_STATUS_PHASE 2).setF Reg.HNT_STATUS_TQ 3).setF Reg.HNT_CFG_AUTH_REQ 1)) 0 5000 (beBytes 48 0x414601040003003000000000000000090000000500000000000000000000000000000000000000000000000000000000) (beBytes 110 0x00000000000000000000000086DD60000000003811FFFE800000000000000000000000000009FE800000000000000000000000000000B8A0B8A000384EA7414601040003003000000000000000090000000500000000000000000000000000000000000000000000000000000000)) ∧
    ((fun (s : State) (port now : Nat) (message : List Byte) (frame : List Byte) => (s.canonical = true) ∧ (s.hintDatagram port frame = some message) ∧ (s.hears port = true) ∧ (hintFormOk message = true) ∧ (beAt message 3 1 = 4) ∧ (s.tagOk message = true) ∧ (s.phase = phaseWait)) (((((((State.reset.setF Reg.HNT_CFG_EN 1).setF Reg.HNT_CFG_AUTH_REQ 0).setF Reg.HNT_STATUS_LINK_A 1).setF Reg.HNT_STATUS_PHASE 2).setF Reg.HNT_STATUS_TQ 3).setF Reg.HNT_STATUS_PHASE 0)) 0 5000 (beBytes 48 0x414601040003003000000000000000090000000500000000000000000000000000000000000000000000000000000000) (beBytes 110 0x00000000000000000000000086DD60000000003811FFFE800000000000000000000000000009FE800000000000000000000000000000B8A0B8A000384EA7414601040003003000000000000000090000000500000000000000000000000000000000000000000000000000000000)) ∧
    ((fun (s : State) (port now : Nat) (message : List Byte) (frame : List Byte) => (s.hintDatagram port frame = some message) ∧ (s.hears port = false)) (State.reset) 0 5000 (beBytes 48 0x414601040003003000000000000000090000000500000000000000000000000000000000000000000000000000000000) (beBytes 110 0x00000000000000000000000086DD60000000003811FFFE800000000000000000000000000009FE800000000000000000000000000000B8A0B8A000384EA7414601040003003000000000000000090000000500000000000000000000000000000000000000000000000000000000)) ∧
    ((fun (s : State) (port now : Nat) (message : List Byte) (frame : List Byte) => (s.canonical = true) ∧ (s.hintDatagram port frame = some message) ∧ (s.hears port = true) ∧ (hintFormOk message = false)) ((((((State.reset.setF Reg.HNT_CFG_EN 1).setF Reg.HNT_CFG_AUTH_REQ 0).setF Reg.HNT_STATUS_LINK_A 1).setF Reg.HNT_STATUS_PHASE 2).setF Reg.HNT_STATUS_TQ 3)) 0 5000 (beBytes 28 0x41460105000300070000000000000009000000050000000000000000) (beBytes 90 0x00000000000000000000000086DD60000000002411FFFE800000000000000000000000000009FE800000000000000000000000000000B8A0B8A000244EF741460105000300070000000000000009000000050000000000000000)) ∧
    ((fun (s : State) (port now : Nat) (message : List Byte) (frame : List Byte) => (s.canonical = true) ∧ (s.hintDatagram port frame = some message) ∧ (s.hears port = true) ∧ (hintFormOk message = true) ∧ (beAt message 3 1 = 5) ∧ (s.tagOk message = false) ∧ (bitOf (beAt message 4 1) 0 = false)) (((((((State.reset.setF Reg.HNT_CFG_EN 1).setF Reg.HNT_CFG_AUTH_REQ 0).setF Reg.HNT_STATUS_LINK_A 1).setF Reg.HNT_STATUS_PHASE 2).setF Reg.HNT_STATUS_TQ 3).setF Reg.HNT_CFG_AUTH_REQ 1)) 0 5000 (beBytes 28 0x414601050003001C0000000000000009000000050000000000000000) (beBytes 90 0x00000000000000000000000086DD60000000002411FFFE800000000000000000000000000009FE800000000000000000000000000000B8A0B8A000244EE2414601050003001C0000000000000009000000050000000000000000)) ∧
    ((fun (s : State) (port now : Nat) (message : List Byte) (frame : List Byte) => (s.canonical = true) ∧ (s.hintDatagram port frame = some message) ∧ (s.hears port = true) ∧ (hintFormOk message = true) ∧ (beAt message 3 1 = 5) ∧ (s.tagOk message = true) ∧ (s.phase = phaseWait)) (((((((State.reset.setF Reg.HNT_CFG_EN 1).setF Reg.HNT_CFG_AUTH_REQ 0).setF Reg.HNT_STATUS_LINK_A 1).setF Reg.HNT_STATUS_PHASE 2).setF Reg.HNT_STATUS_TQ 3).setF Reg.HNT_STATUS_PHASE 0)) 0 5000 (beBytes 28 0x414601050003001C0000000000000009000000050000000000000000) (beBytes 90 0x00000000000000000000000086DD60000000002411FFFE800000000000000000000000000009FE800000000000000000000000000000B8A0B8A000244EE2414601050003001C0000000000000009000000050000000000000000)) ∧
    ((fun (s : State) (port now : Nat) (message : List Byte) (frame : List Byte) => (s.hintDatagram port frame = some message) ∧ (s.hears port = false)) (State.reset) 0 5000 (beBytes 28 0x414601050003001C0000000000000009000000050000000000000000) (beBytes 90 0x00000000000000000000000086DD60000000002411FFFE800000000000000000000000000009FE800000000000000000000000000000B8A0B8A000244EE2414601050003001C0000000000000009000000050000000000000000)) ∧
    ((fun (s : State) (port now : Nat) (message : List Byte) (frame : List Byte) => (s.canonical = true) ∧ (s.hintDatagram port frame = some message) ∧ (s.hears port = true) ∧ (hintFormOk message = false)) ((((((State.reset.setF Reg.HNT_CFG_EN 1).setF Reg.HNT_CFG_AUTH_REQ 0).setF Reg.HNT_STATUS_LINK_A 1).setF Reg.HNT_STATUS_PHASE 2).setF Reg.HNT_STATUS_TQ 3)) 0 5000 (beBytes 56 0x4146010600030007000000000000000900000005000000000000000000000000000000000000000000000000000000000000000000000000) (beBytes 118 0x00000000000000000000000086DD60000000004011FFFE800000000000000000000000000009FE800000000000000000000000000000B8A0B8A000404EBE4146010600030007000000000000000900000005000000000000000000000000000000000000000000000000000000000000000000000000)) ∧
    ((fun (s : State) (port now : Nat) (message : List Byte) (frame : List Byte) => (s.canonical = true) ∧ (s.hintDatagram port frame = some message) ∧ (s.hears port = true) ∧ (hintFormOk message = true) ∧ (beAt message 3 1 = 6) ∧ (s.tagOk message = false) ∧ (bitOf (beAt message 4 1) 0 = false)) (((((((State.reset.setF Reg.HNT_CFG_EN 1).setF Reg.HNT_CFG_AUTH_REQ 0).setF Reg.HNT_STATUS_LINK_A 1).setF Reg.HNT_STATUS_PHASE 2).setF Reg.HNT_STATUS_TQ 3).setF Reg.HNT_CFG_AUTH_REQ 1)) 0 5000 (beBytes 56 0x4146010600030038000000000000000900000005000000000000000000000000000000000000000000000000000000000000000000000000) (beBytes 118 0x00000000000000000000000086DD60000000004011FFFE800000000000000000000000000009FE800000000000000000000000000000B8A0B8A000404E8D4146010600030038000000000000000900000005000000000000000000000000000000000000000000000000000000000000000000000000)) ∧
    ((fun (s : State) (port now : Nat) (message : List Byte) (frame : List Byte) => (s.canonical = true) ∧ (s.hintDatagram port frame = some message) ∧ (s.hears port = true) ∧ (hintFormOk message = true) ∧ (beAt message 3 1 = 6) ∧ (s.tagOk message = true) ∧ (s.phase = phaseWait)) (((((((State.reset.setF Reg.HNT_CFG_EN 1).setF Reg.HNT_CFG_AUTH_REQ 0).setF Reg.HNT_STATUS_LINK_A 1).setF Reg.HNT_STATUS_PHASE 2).setF Reg.HNT_STATUS_TQ 3).setF Reg.HNT_STATUS_PHASE 0)) 0 5000 (beBytes 56 0x4146010600030038000000000000000900000005000000000000000000000000000000000000000000000000000000000000000000000000) (beBytes 118 0x00000000000000000000000086DD60000000004011FFFE800000000000000000000000000009FE800000000000000000000000000000B8A0B8A000404E8D4146010600030038000000000000000900000005000000000000000000000000000000000000000000000000000000000000000000000000)) ∧
    ((fun (s : State) (port now : Nat) (message : List Byte) (frame : List Byte) => (s.hintDatagram port frame = some message) ∧ (s.hears port = false)) (State.reset) 0 5000 (beBytes 56 0x4146010600030038000000000000000900000005000000000000000000000000000000000000000000000000000000000000000000000000) (beBytes 118 0x00000000000000000000000086DD60000000004011FFFE800000000000000000000000000009FE800000000000000000000000000000B8A0B8A000404E8D4146010600030038000000000000000900000005000000000000000000000000000000000000000000000000000000000000000000000000)) ∧
    ((fun (s : State) (port now : Nat) (message : List Byte) (frame : List Byte) => (s.canonical = true) ∧ (s.hintDatagram port frame = some message) ∧ (s.fromStranger 4 port message = true)) ((((((State.reset.setF Reg.HNT_CFG_EN 1).setF Reg.HNT_CFG_AUTH_REQ 0).setF Reg.HNT_STATUS_LINK_A 1).setF Reg.HNT_STATUS_PHASE 2).setF Reg.HNT_STATUS_TQ 3)) 0 5000 (beBytes 48 0x414601040003003000000000000000090000000500000000000000000000000000000000000000000000000000000000) (beBytes 110 0x00000000000000000000000086DD60000000003811FFFE800000000000000000000000000009FE800000000000000000000000000000B8A0B8A000384EA7414601040003003000000000000000090000000500000000000000000000000000000000000000000000000000000000)) ∧
    ((fun (s : State) (port now queued : Nat) (message : List Byte) (frame : List Byte) => (s.canonical = true) ∧ (s.hintDatagram port frame = some message) ∧ (s.fromStranger 1 port message = true) ∧ (Sparse.find s.hnt.discAt (beAt message 8 8) = none) ∧ (s.speaks = true)) ((((((State.reset.setF Reg.HNT_CFG_EN 1).setF Reg.HNT_CFG_AUTH_REQ 0).setF Reg.HNT_STATUS_LINK_A 1).setF Reg.HNT_STATUS_PHASE 2).setF Reg.HNT_STATUS_TQ 3)) 0 5000 0 (beBytes 48 0x414601010003003000000000000000090000000500000000000000000000000000000000000000000000000000000000) (beBytes 110 0x00000000000000000000000086DD60000000003811FFFE800000000000000000000000000009FE800000000000000000000000000000B8A0B8A000384EAA414601010003003000000000000000090000000500000000000000000000000000000000000000000000000000000000)) ∧
    ((fun (s : State) (port now queued : Nat) (message : List Byte) (frame : List Byte) => (s.canonical = true) ∧ (s.hintDatagram port frame = some message) ∧ (s.fromStranger 2 port message = true) ∧ (Sparse.find s.hnt.discAt (beAt message 8 8) = none) ∧ (s.speaks = true)) ((((((State.reset.setF Reg.HNT_CFG_EN 1).setF Reg.HNT_CFG_AUTH_REQ 0).setF Reg.HNT_STATUS_LINK_A 1).setF Reg.HNT_STATUS_PHASE 2).setF Reg.HNT_STATUS_TQ 3)) 0 5000 0 (beBytes 44 0x414601020003002C000000000000000900000005000000000000000000000000000000000000000000000000) (beBytes 106 0x00000000000000000000000086DD60000000003411FFFE800000000000000000000000000009FE800000000000000000000000000000B8A0B8A000344EB5414601020003002C000000000000000900000005000000000000000000000000000000000000000000000000)) ∧
    ((fun (s : State) (port now queued : Nat) (message : List Byte) (frame : List Byte) => (s.canonical = true) ∧ (s.hintDatagram port frame = some message) ∧ (s.fromStranger 3 port message = true) ∧ (Sparse.find s.hnt.discAt (beAt message 8 8) = none) ∧ (s.speaks = true)) ((((((State.reset.setF Reg.HNT_CFG_EN 1).setF Reg.HNT_CFG_AUTH_REQ 0).setF Reg.HNT_STATUS_LINK_A 1).setF Reg.HNT_STATUS_PHASE 2).setF Reg.HNT_STATUS_TQ 3)) 0 5000 0 (beBytes 52 0x41460103000300340000000000000009000000050000000000000000000000000000000000000000000000000000000000000000) (beBytes 114 0x00000000000000000000000086DD60000000003C11FFFE800000000000000000000000000009FE800000000000000000000000000000B8A0B8A0003C4E9C41460103000300340000000000000009000000050000000000000000000000000000000000000000000000000000000000000000)) ∧
    ((fun (s : State) (port now queued i : Nat) (message : List Byte) (frame : List Byte) => (s.canonical = true) ∧ (s.hintDatagram port frame = some message) ∧ (s.takes 1 port message = true) ∧ (s.ptFind (beAt message 8 8) = some i) ∧ (s.ptIn i = true) ∧ (s.getF Reg.HNT_PT_STATE_ROLE i = roleModule)) ((((({ (((((State.reset.setF Reg.HNT_CFG_EN 1).setF Reg.HNT_CFG_AUTH_REQ 0).setF Reg.HNT_STATUS_LINK_A 1).setF Reg.HNT_STATUS_PHASE 2).setF Reg.HNT_STATUS_TQ 3) with hnt := { (((((State.reset.setF Reg.HNT_CFG_EN 1).setF Reg.HNT_CFG_AUTH_REQ 0).setF Reg.HNT_STATUS_LINK_A 1).setF Reg.HNT_STATUS_PHASE 2).setF Reg.HNT_STATUS_TQ 3).hnt with pt := [(3, { id := 9, first := false, lastSeq := 4, got := [(4, 100, 1)], incarnation := 7 })] } }).setF Reg.HNT_PT_ID_LO 9 3).setF Reg.HNT_PT_STATE_STATE 2 3).setF Reg.HNT_PT_STATE_ROLE 2 3)) 0 5000 0 3 (beBytes 48 0x414601010003003000000000000000090000000500000000000000000000000000000000000000000000000000000000) (beBytes 110 0x00000000000000000000000086DD60000000003811FFFE800000000000000000000000000009FE800000000000000000000000000000B8A0B8A000384EAA414601010003003000000000000000090000000500000000000000000000000000000000000000000000000000000000)) ∧
    ((fun (s : State) (port now i : Nat) (message : List Byte) (frame : List Byte) => (s.canonical = true) ∧ (s.hintDatagram port frame = some message) ∧ (s.takes 4 port message = true) ∧ (s.ptFind (beAt message 8 8) = some i) ∧ (s.ptIn i = true) ∧ (s.getF Reg.HNT_PT_STATE_ROLE i = roleModule) ∧ ((s.partner i).seqClass ((s.partner i).first || decide (s.ptState i = ptSilent)) (beAt message 16 4) now = SeqClass.copy)) ((((({ (((((State.reset.setF Reg.HNT_CFG_EN 1).setF Reg.HNT_CFG_AUTH_REQ 0).setF Reg.HNT_STATUS_LINK_A 1).setF Reg.HNT_STATUS_PHASE 2).setF Reg.HNT_STATUS_TQ 3) with hnt := { (((((State.reset.setF Reg.HNT_CFG_EN 1).setF Reg.HNT_CFG_AUTH_REQ 0).setF Reg.HNT_STATUS_LINK_A 1).setF Reg.HNT_STATUS_PHASE 2).setF Reg.HNT_STATUS_TQ 3).hnt with pt := [(3, { id := 9, first := false, lastSeq := 4, got := [(4, 100, 1)], incarnation := 7 })] } }).setF Reg.HNT_PT_ID_LO 9 3).setF Reg.HNT_PT_STATE_STATE 2 3).setF Reg.HNT_PT_STATE_ROLE 2 3)) 0 5000 3 (beBytes 48 0x414601040003003000000000000000090000000400000000000000000000000000000000000000000000000000000000) (beBytes 110 0x00000000000000000000000086DD60000000003811FFFE800000000000000000000000000009FE800000000000000000000000000000B8A0B8A000384EA8414601040003003000000000000000090000000400000000000000000000000000000000000000000000000000000000)) ∧
    ((fun (s : State) (port now queued i rate depth : Nat) (message : List Byte) (c : SeqClass) (frame : List Byte) => (s.canonical = true) ∧ (s.hintDatagram port frame = some message) ∧ (s.fromPartner 1 port now message i c = true) ∧ (s.rateOf 1 = some (rate, depth)) ∧ (takeToken (Sparse.at none (s.partner i).bucket 1) rate depth now = none)) ((((({ (((((State.reset.setF Reg.HNT_CFG_EN 1).setF Reg.HNT_CFG_AUTH_REQ 0).setF Reg.HNT_STATUS_LINK_A 1).setF Reg.HNT_STATUS_PHASE 2).setF Reg.HNT_STATUS_TQ 3) with hnt := { (((((State.reset.setF Reg.HNT_CFG_EN 1).setF Reg.HNT_CFG_AUTH_REQ 0).setF Reg.HNT_STATUS_LINK_A 1).setF Reg.HNT_STATUS_PHASE 2).setF Reg.HNT_STATUS_TQ 3).hnt with pt := [(3, { id := 9, first := false, lastSeq := 4, got := [(4, 100, 1)], incarnation := 7 , bucket := [(1, some (0, 5000))] })] } }).setF Reg.HNT_PT_ID_LO 9 3).setF Reg.HNT_PT_STATE_STATE 2 3).setF Reg.HNT_PT_STATE_ROLE 1 3)) 0 5000 0 3 64 16 (beBytes 48 0x414601010003003000000000000000090000000500000000000000000000000000000000000000000000000000000000) (.next 0) (beBytes 110 0x00000000000000000000000086DD60000000003811FFFE800000000000000000000000000009FE800000000000000000000000000000B8A0B8A000384EAA414601010003003000000000000000090000000500000000000000000000000000000000000000000000000000000000)) ∧
    ((fun (s : State) (port now queued i rate depth : Nat) (message : List Byte) (c : SeqClass) (b : Option (Nat × Nat)) (frame : List Byte) => (s.canonical = true) ∧ (s.hintDatagram port frame = some message) ∧ (s.fromPartner 1 port now message i c = true) ∧ (s.rateOf 1 = some (rate, depth)) ∧ (takeToken (Sparse.at none (s.partner i).bucket 1) rate depth now = some b) ∧ (s.tq < 2)) (((((({ (((((State.reset.setF Reg.HNT_CFG_EN 1).setF Reg.HNT_CFG_AUTH_REQ 0).setF Reg.HNT_STATUS_LINK_A 1).setF Reg.HNT_STATUS_PHASE 2).setF Reg.HNT_STATUS_TQ 3) with hnt := { (((((State.reset.setF Reg.HNT_CFG_EN 1).setF Reg.HNT_CFG_AUTH_REQ 0).setF Reg.HNT_STATUS_LINK_A 1).setF Reg.HNT_STATUS_PHASE 2).setF Reg.HNT_STATUS_TQ 3).hnt with pt := [(3, { id := 9, first := false, lastSeq := 4, got := [(4, 100, 1)], incarnation := 7 })] } }).setF Reg.HNT_PT_ID_LO 9 3).setF Reg.HNT_PT_STATE_STATE 2 3).setF Reg.HNT_PT_STATE_ROLE 1 3).setF Reg.HNT_STATUS_TQ 1)) 0 5000 0 3 64 16 (beBytes 48 0x414601010003003000000000000000090000000500000000000000000000000000000000000000000000000000000000) (.next 0) (some (15000000000, 5000)) (beBytes 110 0x00000000000000000000000086DD60000000003811FFFE800000000000000000000000000009FE800000000000000000000000000000B8A0B8A000384EAA414601010003003000000000000000090000000500000000000000000000000000000000000000000000000000000000)) ∧
    ((fun (s : State) (port now queued i rate depth : Nat) (message : List Byte) (c : SeqClass) (b : Option (Nat × Nat)) (frame : List Byte) => (s.canonical = true) ∧ (s.hintDatagram port frame = some message) ∧ (s.fromPartner 1 port now message i c = true) ∧ (s.rateOf 1 = some (rate, depth)) ∧ (takeToken (Sparse.at none (s.partner i).bucket 1) rate depth now = some b) ∧ (2 ≤ s.tq) ∧ (hintTimeOk message now = false)) (((((({ (((((State.reset.setF Reg.HNT_CFG_EN 1).setF Reg.HNT_CFG_AUTH_REQ 0).setF Reg.HNT_STATUS_LINK_A 1).setF Reg.HNT_STATUS_PHASE 2).setF Reg.HNT_STATUS_TQ 3) with hnt := { (((((State.reset.setF Reg.HNT_CFG_EN 1).setF Reg.HNT_CFG_AUTH_REQ 0).setF Reg.HNT_STATUS_LINK_A 1).setF Reg.HNT_STATUS_PHASE 2).setF Reg.HNT_STATUS_TQ 3).hnt with pt := [(3, { id := 9, first := false, lastSeq := 4, got := [(4, 100, 1)], incarnation := 7 })] } }).setF Reg.HNT_PT_ID_LO 9 3).setF Reg.HNT_PT_STATE_STATE 2 3).setF Reg.HNT_PT_STATE_ROLE 1 3).setF Reg.HNT_STATUS_TQ 3)) 0 5000 0 3 64 16 (beBytes 48 0x414601010003003000000000000000090000000500000000000000000000000000000000000000000000000000000000) (.next 0) (some (15000000000, 5000)) (beBytes 110 0x00000000000000000000000086DD60000000003811FFFE800000000000000000000000000009FE800000000000000000000000000000B8A0B8A000384EAA414601010003003000000000000000090000000500000000000000000000000000000000000000000000000000000000)) ∧
    ((fun (s : State) (port now queued i rate depth : Nat) (message : List Byte) (c : SeqClass) (b : Option (Nat × Nat)) (frame : List Byte) => (s.canonical = true) ∧ (s.hintDatagram port frame = some message) ∧ (s.fromPartner 1 port now message i c = true) ∧ (s.rateOf 1 = some (rate, depth)) ∧ (takeToken (Sparse.at none (s.partner i).bucket 1) rate depth now = some b) ∧ (2 ≤ s.tq) ∧ (hintTimeOk message now = true) ∧ (queueRoom 1 queued = false)) (((((({ (((((State.reset.setF Reg.HNT_CFG_EN 1).setF Reg.HNT_CFG_AUTH_REQ 0).setF Reg.HNT_STATUS_LINK_A 1).setF Reg.HNT_STATUS_PHASE 2).setF Reg.HNT_STATUS_TQ 3) with hnt := { (((((State.reset.setF Reg.HNT_CFG_EN 1).setF Reg.HNT_CFG_AUTH_REQ 0).setF Reg.HNT_STATUS_LINK_A 1).setF Reg.HNT_STATUS_PHASE 2).setF Reg.HNT_STATUS_TQ 3).hnt with pt := [(3, { id := 9, first := false, lastSeq := 4, got := [(4, 100, 1)], incarnation := 7 })] } }).setF Reg.HNT_PT_ID_LO 9 3).setF Reg.HNT_PT_STATE_STATE 2 3).setF Reg.HNT_PT_STATE_ROLE 1 3).setF Reg.HNT_STATUS_TQ 3)) 0 5000 4096 3 64 16 (beBytes 48 0x414601010003003000000000000000090000000500010100000000000000000000000000000000000000000000000000) (.next 0) (some (15000000000, 5000)) (beBytes 110 0x00000000000000000000000086DD60000000003811FFFE800000000000000000000000000009FE800000000000000000000000000000B8A0B8A000384DA9414601010003003000000000000000090000000500010100000000000000000000000000000000000000000000000000)) := by
  repeat refine And.intro (by decide +kernel) ?_
  decide +kernel

theorem test_meets_AcceptedMessagesTakeEffect :
    ((fun (s : State) (port now i : Nat) (message : List Byte) (c : SeqClass) (frame : List Byte) => (s.canonical = true) ∧ (s.hintDatagram port frame = some message) ∧ (s.fromPartner 4 port now message i c = true) ∧ (s.ptState i ≠ ptSilent)) ((((({ ({ (((((State.reset.setF Reg.HNT_CFG_EN 1).setF Reg.HNT_CFG_AUTH_REQ 0).setF Reg.HNT_STATUS_LINK_A 1).setF Reg.HNT_STATUS_PHASE 2).setF Reg.HNT_STATUS_TQ 3) with ctx := { (((((State.reset.setF Reg.HNT_CFG_EN 1).setF Reg.HNT_CFG_AUTH_REQ 0).setF Reg.HNT_STATUS_LINK_A 1).setF Reg.HNT_STATUS_PHASE 2).setF Reg.HNT_STATUS_TQ 3).ctx with desc := [(4, { kind := 1, key := 9, parent := 5 }), (5, { kind := 2, key := 1, children := 1, members := 1 })] } }) with hnt := { ({ (((((State.reset.setF Reg.HNT_CFG_EN 1).setF Reg.HNT_CFG_AUTH_REQ 0).setF Reg.HNT_STATUS_LINK_A 1).setF Reg.HNT_STATUS_PHASE 2).setF Reg.HNT_STATUS_TQ 3) with ctx := { (((((State.reset.setF Reg.HNT_CFG_EN 1).setF Reg.HNT_CFG_AUTH_REQ 0).setF Reg.HNT_STATUS_LINK_A 1).setF Reg.HNT_STATUS_PHASE 2).setF Reg.HNT_STATUS_TQ 3).ctx with desc := [(4, { kind := 1, key := 9, parent := 5 }), (5, { kind := 2, key := 1, children := 1, members := 1 })] } }).hnt with pt := [(3, { id := 9, first := false, lastSeq := 4, got := [(4, 100, 1)], incarnation := 7 })] } }).setF Reg.HNT_PT_ID_LO 9 3).setF Reg.HNT_PT_STATE_STATE 2 3).setF Reg.HNT_PT_STATE_ROLE 2 3)) 0 5000 3 (beBytes 48 0x414601040003003000000000000000090000000500000000000000000000000000000000000000000000000000000000) (.next 0) (beBytes 110 0x00000000000000000000000086DD60000000003811FFFE800000000000000000000000000009FE800000000000000000000000000000B8A0B8A000384EA7414601040003003000000000000000090000000500000000000000000000000000000000000000000000000000000000)) ∧
    ((fun (s : State) (port now i : Nat) (message : List Byte) (c : SeqClass) (frame : List Byte) => (s.canonical = true) ∧ (s.hintDatagram port frame = some message) ∧ (s.fromPartner 5 port now message i c = true) ∧ (s.ptState i ≠ ptSilent) ∧ (s.hnt.annAt = none)) ((((({ (((((State.reset.setF Reg.HNT_CFG_EN 1).setF Reg.HNT_CFG_AUTH_REQ 0).setF Reg.HNT_STATUS_LINK_A 1).setF Reg.HNT_STATUS_PHASE 2).setF Reg.HNT_STATUS_TQ 3) with hnt := { (((((State.reset.setF Reg.HNT_CFG_EN 1).setF Reg.HNT_CFG_AUTH_REQ 0).setF Reg.HNT_STATUS_LINK_A 1).setF Reg.HNT_STATUS_PHASE 2).setF Reg.HNT_STATUS_TQ 3).hnt with pt := [(3, { id := 9, first := false, lastSeq := 4, got := [(4, 100, 1)], incarnation := 7 })] } }).setF Reg.HNT_PT_ID_LO 9 3).setF Reg.HNT_PT_STATE_STATE 2 3).setF Reg.HNT_PT_STATE_ROLE 2 3)) 0 5000 3 (beBytes 28 0x414601050003001C000000000000000900000005000001F403E80000) (.next 0) (beBytes 90 0x00000000000000000000000086DD60000000002411FFFE800000000000000000000000000009FE800000000000000000000000000000B8A0B8A000244906414601050003001C000000000000000900000005000001F403E80000)) ∧
    ((fun (s : State) (port now : Nat) (message : List Byte) (b : Option (Nat × Nat)) (frame : List Byte) => (s.canonical = true) ∧ (s.hintDatagram port frame = some message) ∧ (s.fromStranger 5 port message = true) ∧ (takeToken (Sparse.at none s.hnt.bucket port) 4000 512 now = some b) ∧ (s.hnt.annAt = none) ∧ (s.strangerCopy port now message = false)) ((((((State.reset.setF Reg.HNT_CFG_EN 1).setF Reg.HNT_CFG_AUTH_REQ 0).setF Reg.HNT_STATUS_LINK_A 1).setF Reg.HNT_STATUS_PHASE 2).setF Reg.HNT_STATUS_TQ 3)) 0 5000 (beBytes 28 0x414601050003001C000000000000000900000005000001F403E80000) (some (511000000000, 5000)) (beBytes 90 0x00000000000000000000000086DD60000000002411FFFE800000000000000000000000000009FE800000000000000000000000000000B8A0B8A000244906414601050003001C000000000000000900000005000001F403E80000)) ∧
    ((fun (s : State) (port now queued i rate depth st j : Nat) (message : List Byte) (c : SeqClass) (b : Option (Nat × Nat)) (frame : List Byte) => (s.canonical = true) ∧ (s.hintDatagram port frame = some message) ∧ (s.fromPartner 1 port now message i c = true) ∧ (s.rateOf 1 = some (rate, depth)) ∧ (takeToken (Sparse.at none (s.partner i).bucket 1) rate depth now = some b) ∧ (s.ptState i ≠ ptSilent) ∧ (s.ctxFind kindStream (beAt message 8 8) = some st) ∧ ((s.desc st).kind = kindStream) ∧ (Sparse.find s.ctx.waitFor st = none) ∧ (2 ≤ s.tq) ∧ (hintTimeOk message now = true) ∧ (queueRoom 1 queued = true) ∧ (s.ctxFind kindJob (beAt message 20 2) = some j) ∧ (Sparse.find s.ctx.waitFor j = none) ∧ ((s.desc st).parent = j) ∧ ((s.setDesc st ((s.desc st).takeSeq c (beAt message 16 4))).desc st = (s.desc st).takeSeq c (beAt message 16 4)) ∧ ((((s.setDesc st ((s.desc st).takeSeq c (beAt message 16 4))).ctxRecord st 0 now (intakeRecord 1 st (match c with | .next k => ofBool (decide (k ≠ 0)) | _ => 0) now message)).desc st).parent = j) ∧ (beAt message 22 1 ≠ 4)) (({ (((({ (((((State.reset.setF Reg.HNT_CFG_EN 1).setF Reg.HNT_CFG_AUTH_REQ 0).setF Reg.HNT_STATUS_LINK_A 1).setF Reg.HNT_STATUS_PHASE 2).setF Reg.HNT_STATUS_TQ 3) with hnt := { (((((State.reset.setF Reg.HNT_CFG_EN 1).setF Reg.HNT_CFG_AUTH_REQ 0).setF Reg.HNT_STATUS_LINK_A 1).setF Reg.HNT_STATUS_PHASE 2).setF Reg.HNT_STATUS_TQ 3).hnt with pt := [(3, { id := 9, first := false, lastSeq := 4, got := [(4, 100, 1)], incarnation := 7 })] } }).setF Reg.HNT_PT_ID_LO 9 3).setF Reg.HNT_PT_STATE_STATE 2 3).setF Reg.HNT_PT_STATE_ROLE 1 3) with ctx := { (((({ (((((State.reset.setF Reg.HNT_CFG_EN 1).setF Reg.HNT_CFG_AUTH_REQ 0).setF Reg.HNT_STATUS_LINK_A 1).setF Reg.HNT_STATUS_PHASE 2).setF Reg.HNT_STATUS_TQ 3) with hnt := { (((((State.reset.setF Reg.HNT_CFG_EN 1).setF Reg.HNT_CFG_AUTH_REQ 0).setF Reg.HNT_STATUS_LINK_A 1).setF Reg.HNT_STATUS_PHASE 2).setF Reg.HNT_STATUS_TQ 3).hnt with pt := [(3, { id := 9, first := false, lastSeq := 4, got := [(4, 100, 1)], incarnation := 7 })] } }).setF Reg.HNT_PT_ID_LO 9 3).setF Reg.HNT_PT_STATE_STATE 2 3).setF Reg.HNT_PT_STATE_ROLE 1 3).ctx with desc := [(4, { kind := 1, key := 9, parent := 5 }), (5, { kind := 2, key := 1, children := 1, members := 1 })] } })) 0 5000 0 3 64 16 4 5 (beBytes 48 0x414601010003003000000000000000090000000500010100000000000000000000000000000000000000000000000000) (.next 0) (some (15000000000, 5000)) (beBytes 110 0x00000000000000000000000086DD60000000003811FFFE800000000000000000000000000009FE800000000000000000000000000000B8A0B8A000384DA9414601010003003000000000000000090000000500010100000000000000000000000000000000000000000000000000)) ∧
    ((fun (s : State) (port now queued i rate depth st : Nat) (message : List Byte) (c : SeqClass) (b : Option (Nat × Nat)) (a : State) (frame : List Byte) => (s.canonical = true) ∧ (s.hintDatagram port frame = some message) ∧ (s.fromPartner 2 port now message i c = true) ∧ (s.rateOf 2 = some (rate, depth)) ∧ (takeToken (Sparse.at none (s.partner i).bucket 2) rate depth now = some b) ∧ (s.ptState i ≠ ptSilent) ∧ (s.ctxFind kindStream (beAt message 8 8) = some st) ∧ ((s.desc st).kind = kindStream) ∧ (Sparse.find s.ctx.waitFor st = none) ∧ (s.cpc.waiting = []) ∧ (s.isF Reg.CPC_STATUS_JOB_FULL = false) ∧ (queueRoom 2 queued = true) ∧ (beAt message 20 2 = 0) ∧ (a = (s.tokenTaken i 2 b).numbered i port now c message)) (({ (((({ (((((State.reset.setF Reg.HNT_CFG_EN 1).setF Reg.HNT_CFG_AUTH_REQ 0).setF Reg.HNT_STATUS_LINK_A 1).setF Reg.HNT_STATUS_PHASE 2).setF Reg.HNT_STATUS_TQ 3) with hnt := { (((((State.reset.setF Reg.HNT_CFG_EN 1).setF Reg.HNT_CFG_AUTH_REQ 0).setF Reg.HNT_STATUS_LINK_A 1).setF Reg.HNT_STATUS_PHASE 2).setF Reg.HNT_STATUS_TQ 3).hnt with pt := [(3, { id := 9, first := false, lastSeq := 4, got := [(4, 100, 1)], incarnation := 7 })] } }).setF Reg.HNT_PT_ID_LO 9 3).setF Reg.HNT_PT_STATE_STATE 2 3).setF Reg.HNT_PT_STATE_ROLE 1 3) with ctx := { (((({ (((((State.reset.setF Reg.HNT_CFG_EN 1).setF Reg.HNT_CFG_AUTH_REQ 0).setF Reg.HNT_STATUS_LINK_A 1).setF Reg.HNT_STATUS_PHASE 2).setF Reg.HNT_STATUS_TQ 3) with hnt := { (((((State.reset.setF Reg.HNT_CFG_EN 1).setF Reg.HNT_CFG_AUTH_REQ 0).setF Reg.HNT_STATUS_LINK_A 1).setF Reg.HNT_STATUS_PHASE 2).setF Reg.HNT_STATUS_TQ 3).hnt with pt := [(3, { id := 9, first := false, lastSeq := 4, got := [(4, 100, 1)], incarnation := 7 })] } }).setF Reg.HNT_PT_ID_LO 9 3).setF Reg.HNT_PT_STATE_STATE 2 3).setF Reg.HNT_PT_STATE_ROLE 1 3).ctx with desc := [(4, { kind := 1, key := 9, parent := 5 }), (5, { kind := 2, key := 1, children := 1, members := 1 })] } })) 0 5000 0 3 256 16 4 (beBytes 44 0x414601020003002C000000000000000900000005000007000000000000000000000000000000000000000000) (.next 0) (some (15000000000, 5000)) ((({ (((({ (((((State.reset.setF Reg.HNT_CFG_EN 1).setF Reg.HNT_CFG_AUTH_REQ 0).setF Reg.HNT_STATUS_LINK_A 1).setF Reg.HNT_STATUS_PHASE 2).setF Reg.HNT_STATUS_TQ 3) with hnt := { (((((State.reset.setF Reg.HNT_CFG_EN 1).setF Reg.HNT_CFG_AUTH_REQ 0).setF Reg.HNT_STATUS_LINK_A 1).setF Reg.HNT_STATUS_PHASE 2).setF Reg.HNT_STATUS_TQ 3).hnt with pt := [(3, { id := 9, first := false, lastSeq := 4, got := [(4, 100, 1)], incarnation := 7 })] } }).setF Reg.HNT_PT_ID_LO 9 3).setF Reg.HNT_PT_STATE_STATE 2 3).setF Reg.HNT_PT_STATE_ROLE 1 3) with ctx := { (((({ (((((State.reset.setF Reg.HNT_CFG_EN 1).setF Reg.HNT_CFG_AUTH_REQ 0).setF Reg.HNT_STATUS_LINK_A 1).setF Reg.HNT_STATUS_PHASE 2).setF Reg.HNT_STATUS_TQ 3) with hnt := { (((((State.reset.setF Reg.HNT_CFG_EN 1).setF Reg.HNT_CFG_AUTH_REQ 0).setF Reg.HNT_STATUS_LINK_A 1).setF Reg.HNT_STATUS_PHASE 2).setF Reg.HNT_STATUS_TQ 3).hnt with pt := [(3, { id := 9, first := false, lastSeq := 4, got := [(4, 100, 1)], incarnation := 7 })] } }).setF Reg.HNT_PT_ID_LO 9 3).setF Reg.HNT_PT_STATE_STATE 2 3).setF Reg.HNT_PT_STATE_ROLE 1 3).ctx with desc := [(4, { kind := 1, key := 9, parent := 5 }), (5, { kind := 2, key := 1, children := 1, members := 1 })] } }).tokenTaken 3 2 (some (15000000000, 5000))).numbered 3 0 5000 (.next 0) (beBytes 44 0x414601020003002C000000000000000900000005000007000000000000000000000000000000000000000000)) (beBytes 106 0x00000000000000000000000086DD60000000003411FFFE800000000000000000000000000009FE800000000000000000000000000000B8A0B8A0003447B5414601020003002C000000000000000900000005000007000000000000000000000000000000000000000000)) ∧
    ((fun (s : State) (port now queued i rate depth st : Nat) (message : List Byte) (c : SeqClass) (b : Option (Nat × Nat)) (a : State) (frame : List Byte) => (s.canonical = true) ∧ (s.hintDatagram port frame = some message) ∧ (s.fromPartner 3 port now message i c = true) ∧ (s.rateOf 3 = some (rate, depth)) ∧ (takeToken (Sparse.at none (s.partner i).bucket 3) rate depth now = some b) ∧ (s.ptState i ≠ ptSilent) ∧ (s.ctxFind kindStream (beAt message 8 8) = some st) ∧ ((s.desc st).kind = kindStream) ∧ (Sparse.find s.ctx.waitFor st = none) ∧ (queueRoom 3 queued = true) ∧ (beAt message 20 2 = 0) ∧ (a = (s.tokenTaken i 3 b).numbered i port now c message)) (({ (((({ (((((State.reset.setF Reg.HNT_CFG_EN 1).setF Reg.HNT_CFG_AUTH_REQ 0).setF Reg.HNT_STATUS_LINK_A 1).setF Reg.HNT_STATUS_PHASE 2).setF Reg.HNT_STATUS_TQ 3) with hnt := { (((((State.reset.setF Reg.HNT_CFG_EN 1).setF Reg.HNT_CFG_AUTH_REQ 0).setF Reg.HNT_STATUS_LINK_A 1).setF Reg.HNT_STATUS_PHASE 2).setF Reg.HNT_STATUS_TQ 3).hnt with pt := [(3, { id := 9, first := false, lastSeq := 4, got := [(4, 100, 1)], incarnation := 7 })] } }).setF Reg.HNT_PT_ID_LO 9 3).setF Reg.HNT_PT_STATE_STATE 2 3).setF Reg.HNT_PT_STATE_ROLE 1 3) with ctx := { (((({ (((((State.reset.setF Reg.HNT_CFG_EN 1).setF Reg.HNT_CFG_AUTH_REQ 0).setF Reg.HNT_STATUS_LINK_A 1).setF Reg.HNT_STATUS_PHASE 2).setF Reg.HNT_STATUS_TQ 3) with hnt := { (((((State.reset.setF Reg.HNT_CFG_EN 1).setF Reg.HNT_CFG_AUTH_REQ 0).setF Reg.HNT_STATUS_LINK_A 1).setF Reg.HNT_STATUS_PHASE 2).setF Reg.HNT_STATUS_TQ 3).hnt with pt := [(3, { id := 9, first := false, lastSeq := 4, got := [(4, 100, 1)], incarnation := 7 })] } }).setF Reg.HNT_PT_ID_LO 9 3).setF Reg.HNT_PT_STATE_STATE 2 3).setF Reg.HNT_PT_STATE_ROLE 1 3).ctx with desc := [(4, { kind := 1, key := 9, parent := 5 }), (5, { kind := 2, key := 1, children := 1, members := 1 })] } })) 0 5000 0 3 256 16 4 (beBytes 52 0x41460103000300340000000000000009000000050000000000000009000000000000000000000000000000000000000000000000) (.next 0) (some (15000000000, 5000)) ((({ (((({ (((((State.reset.setF Reg.HNT_CFG_EN 1).setF Reg.HNT_CFG_AUTH_REQ 0).setF Reg.HNT_STATUS_LINK_A 1).setF Reg.HNT_STATUS_PHASE 2).setF Reg.HNT_STATUS_TQ 3) with hnt := { (((((State.reset.setF Reg.HNT_CFG_EN 1).setF Reg.HNT_CFG_AUTH_REQ 0).setF Reg.HNT_STATUS_LINK_A 1).setF Reg.HNT_STATUS_PHASE 2).setF Reg.HNT_STATUS_TQ 3).hnt with pt := [(3, { id := 9, first := false, lastSeq := 4, got := [(4, 100, 1)], incarnation := 7 })] } }).setF Reg.HNT_PT_ID_LO 9 3).setF Reg.HNT_PT_STATE_STATE 2 3).setF Reg.HNT_PT_STATE_ROLE 1 3) with ctx := { (((({ (((((State.reset.setF Reg.HNT_CFG_EN 1).setF Reg.HNT_CFG_AUTH_REQ 0).setF Reg.HNT_STATUS_LINK_A 1).setF Reg.HNT_STATUS_PHASE 2).setF Reg.HNT_STATUS_TQ 3) with hnt := { (((((State.reset.setF Reg.HNT_CFG_EN 1).setF Reg.HNT_CFG_AUTH_REQ 0).setF Reg.HNT_STATUS_LINK_A 1).setF Reg.HNT_STATUS_PHASE 2).setF Reg.HNT_STATUS_TQ 3).hnt with pt := [(3, { id := 9, first := false, lastSeq := 4, got := [(4, 100, 1)], incarnation := 7 })] } }).setF Reg.HNT_PT_ID_LO 9 3).setF Reg.HNT_PT_STATE_STATE 2 3).setF Reg.HNT_PT_STATE_ROLE 1 3).ctx with desc := [(4, { kind := 1, key := 9, parent := 5 }), (5, { kind := 2, key := 1, children := 1, members := 1 })] } }).tokenTaken 3 3 (some (15000000000, 5000))).numbered 3 0 5000 (.next 0) (beBytes 52 0x41460103000300340000000000000009000000050000000000000009000000000000000000000000000000000000000000000000)) (beBytes 114 0x00000000000000000000000086DD60000000003C11FFFE800000000000000000000000000009FE800000000000000000000000000000B8A0B8A0003C4E9341460103000300340000000000000009000000050000000000000009000000000000000000000000000000000000000000000000)) := by
  repeat refine And.intro (by decide +kernel) ?_
  decide +kernel

theorem test_meets_PartnersComeAndGo :
    ((fun (s : State) (port now i : Nat) (message : List Byte) (b : Option (Nat × Nat)) (frame : List Byte) => (s.canonical = true) ∧ (s.hintDatagram port frame = some message) ∧ (s.fromStranger 6 port message = true) ∧ (beAt message 22 1 = 1 ∨ beAt message 22 1 = 2) ∧ (takeToken (Sparse.at none s.hnt.bucket port) 4000 512 now = some b) ∧ (s.ptFind (beAt message 8 8) = none) ∧ (i < 512) ∧ (s.ptState i = ptEmpty) ∧ (((List.range i).all fun (j : Nat) => decide (s.ptState j ≠ ptEmpty)) = true) ∧ (beAt message 23 1 ≠ 2) ∧ (s.strangerCopy port now message = false) ∧ (s.phase = phaseListen)) (((((((State.reset.setF Reg.HNT_CFG_EN 1).setF Reg.HNT_CFG_AUTH_REQ 0).setF Reg.HNT_STATUS_LINK_A 1).setF Reg.HNT_STATUS_PHASE 2).setF Reg.HNT_STATUS_TQ 3).setF Reg.HNT_STATUS_PHASE 1)) 0 5000 0 (beBytes 56 0x4146010600030038000000000000000900000005000002000000000700000000000000000000000000000000000000000000000000000000) (some (511000000000, 5000)) (beBytes 118 0x00000000000000000000000086DD60000000004011FFFE800000000000000000000000000009FE800000000000000000000000000000B8A0B8A000404C864146010600030038000000000000000900000005000002000000000700000000000000000000000000000000000000000000000000000000)) ∧
    ((fun (s : State) (port now i : Nat) (message : List Byte) (b : Option (Nat × Nat)) (frame : List Byte) => (s.canonical = true) ∧ (s.hintDatagram port frame = some message) ∧ (s.fromStranger 6 port message = true) ∧ (beAt message 22 1 = 1 ∨ beAt message 22 1 = 2) ∧ (takeToken (Sparse.at none s.hnt.bucket port) 4000 512 now = some b) ∧ (s.ptFind (beAt message 8 8) = none) ∧ (i < 512) ∧ (s.ptState i = ptEmpty) ∧ (((List.range i).all fun (j : Nat) => decide (s.ptState j ≠ ptEmpty)) = true) ∧ (beAt message 23 1 ≠ 2) ∧ (s.strangerCopy port now message = false) ∧ (s.phase = phaseRun) ∧ (beAt message 20 2 = s.getF Reg.HNT_CFG_RACK)) ((((((State.reset.setF Reg.HNT_CFG_EN 1).setF Reg.HNT_CFG_AUTH_REQ 0).setF Reg.HNT_STATUS_LINK_A 1).setF Reg.HNT_STATUS_PHASE 2).setF Reg.HNT_STATUS_TQ 3)) 0 5000 0 (beBytes 56 0x4146010600030038000000000000000900000005000002000000000700000000000000000000000000000000000000000000000000000000) (some (511000000000, 5000)) (beBytes 118 0x00000000000000000000000086DD60000000004011FFFE800000000000000000000000000009FE800000000000000000000000000000B8A0B8A000404C864146010600030038000000000000000900000005000002000000000700000000000000000000000000000000000000000000000000000000)) ∧
    ((fun (s : State) (port now i : Nat) (message : List Byte) (b : Option (Nat × Nat)) (frame : List Byte) => (s.canonical = true) ∧ (s.hintDatagram port frame = some message) ∧ (s.fromStranger 6 port message = true) ∧ (beAt message 22 1 = 1 ∨ beAt message 22 1 = 2) ∧ (takeToken (Sparse.at none s.hnt.bucket port) 4000 512 now = some b) ∧ (s.ptFind (beAt message 8 8) = none) ∧ (i < 512) ∧ (s.ptState i = ptEmpty) ∧ (((List.range i).all fun (j : Nat) => decide (s.ptState j ≠ ptEmpty)) = true) ∧ (beAt message 23 1 ≠ 2) ∧ (s.strangerCopy port now message = false) ∧ (s.phase = phaseRun) ∧ (beAt message 20 2 ≠ s.getF Reg.HNT_CFG_RACK)) ((((((State.reset.setF Reg.HNT_CFG_EN 1).setF Reg.HNT_CFG_AUTH_REQ 0).setF Reg.HNT_STATUS_LINK_A 1).setF Reg.HNT_STATUS_PHASE 2).setF Reg.HNT_STATUS_TQ 3)) 0 5000 0 (beBytes 56 0x4146010600030038000000000000000900000005000302000000000700000000000000000000000000000000000000000000000000000000) (some (511000000000, 5000)) (beBytes 118 0x00000000000000000000000086DD60000000004011FFFE800000000000000000000000000009FE800000000000000000000000000000B8A0B8A000404C834146010600030038000000000000000900000005000302000000000700000000000000000000000000000000000000000000000000000000)) ∧
    ((fun (s : State) (port now i rate depth : Nat) (message : List Byte) (c : SeqClass) (b : Option (Nat × Nat)) (a : State) (frame : List Byte) => (s.canonical = true) ∧ (s.hintDatagram port frame = some message) ∧ (s.fromPartner 6 port now message i c = true) ∧ (s.rateOf 6 = some (rate, depth)) ∧ (takeToken (Sparse.at none (s.partner i).bucket 6) rate depth now = some b) ∧ (s.ptState i ≠ ptSilent) ∧ (beAt message 23 1 ≠ 2) ∧ (a = (s.tokenTaken i 6 b).numbered i port now c message) ∧ ((a.partner i).incarnation = beAt message 24 4)) ((((({ (((((State.reset.setF Reg.HNT_CFG_EN 1).setF Reg.HNT_CFG_AUTH_REQ 0).setF Reg.HNT_STATUS_LINK_A 1).setF Reg.HNT_STATUS_PHASE 2).setF Reg.HNT_STATUS_TQ 3) with hnt := { (((((State.reset.setF Reg.HNT_CFG_EN 1).setF Reg.HNT_CFG_AUTH_REQ 0).setF Reg.HNT_STATUS_LINK_A 1).setF Reg.HNT_STATUS_PHASE 2).setF Reg.HNT_STATUS_TQ 3).hnt with pt := [(3, { id := 9, first := false, lastSeq := 4, got := [(4, 100, 1)], incarnation := 7 })] } }).setF Reg.HNT_PT_ID_LO 9 3).setF Reg.HNT_PT_STATE_STATE 2 3).setF Reg.HNT_PT_STATE_ROLE 2 3)) 0 5000 3 4 4 (beBytes 56 0x4146010600030038000000000000000900000005000002000000000700000000000000000000000000000000000000000000000000000000) (.next 0) (some (3000000000, 5000)) (((((({ (((((State.reset.setF Reg.HNT_CFG_EN 1).setF Reg.HNT_CFG_AUTH_REQ 0).setF Reg.HNT_STATUS_LINK_A 1).setF Reg.HNT_STATUS_PHASE 2).setF Reg.HNT_STATUS_TQ 3) with hnt := { (((((State.reset.setF Reg.HNT_CFG_EN 1).setF Reg.HNT_CFG_AUTH_REQ 0).setF Reg.HNT_STATUS_LINK_A 1).setF Reg.HNT_STATUS_PHASE 2).setF Reg.HNT_STATUS_TQ 3).hnt with pt := [(3, { id := 9, first := false, lastSeq := 4, got := [(4, 100, 1)], incarnation := 7 })] } }).setF Reg.HNT_PT_ID_LO 9 3).setF Reg.HNT_PT_STATE_STATE 2 3).setF Reg.HNT_PT_STATE_ROLE 2 3).tokenTaken 3 6 (some (3000000000, 5000))).numbered 3 0 5000 (.next 0) (beBytes 56 0x4146010600030038000000000000000900000005000002000000000700000000000000000000000000000000000000000000000000000000)) (beBytes 118 0x00000000000000000000000086DD60000000004011FFFE800000000000000000000000000009FE800000000000000000000000000000B8A0B8A000404C864146010600030038000000000000000900000005000002000000000700000000000000000000000000000000000000000000000000000000)) ∧
    ((fun (s : State) (port now i rate depth : Nat) (message : List Byte) (c : SeqClass) (b : Option (Nat × Nat)) (a : State) (frame : List Byte) => (s.canonical = true) ∧ (s.hintDatagram port frame = some message) ∧ (s.fromPartner 6 port now message i c = true) ∧ (s.rateOf 6 = some (rate, depth)) ∧ (takeToken (Sparse.at none (s.partner i).bucket 6) rate depth now = some b) ∧ (s.ptState i ≠ ptSilent) ∧ (beAt message 23 1 = 2) ∧ (a = (s.tokenTaken i 6 b).numbered i port now c message) ∧ ((a.partner i).incarnation = beAt message 24 4)) ((((({ (((((State.reset.setF Reg.HNT_CFG_EN 1).setF Reg.HNT_CFG_AUTH_REQ 0).setF Reg.HNT_STATUS_LINK_A 1).setF Reg.HNT_STATUS_PHASE 2).setF Reg.HNT_STATUS_TQ 3) with hnt := { (((((State.reset.setF Reg.HNT_CFG_EN 1).setF Reg.HNT_CFG_AUTH_REQ 0).setF Reg.HNT_STATUS_LINK_A 1).setF Reg.HNT_STATUS_PHASE 2).setF Reg.HNT_STATUS_TQ 3).hnt with pt := [(3, { id := 9, first := false, lastSeq := 4, got := [(4, 100, 1)], incarnation := 7 })] } }).setF Reg.HNT_PT_ID_LO 9 3).setF Reg.HNT_PT_STATE_STATE 2 3).setF Reg.HNT_PT_STATE_ROLE 2 3)) 0 5000 3 4 4 (beBytes 56 0x4146010600030038000000000000000900000005000002020000000700000000000000000000000000000000000000000000000000000000) (.next 0) (some (3000000000, 5000)) (((((({ (((((State.reset.setF Reg.HNT_CFG_EN 1).setF Reg.HNT_CFG_AUTH_REQ 0).setF Reg.HNT_STATUS_LINK_A 1).setF Reg.HNT_STATUS_PHASE 2).setF Reg.HNT_STATUS_TQ 3) with hnt := { (((((State.reset.setF Reg.HNT_CFG_EN 1).setF Reg.HNT_CFG_AUTH_REQ 0).setF Reg.HNT_STATUS_LINK_A 1).setF Reg.HNT_STATUS_PHASE 2).setF Reg.HNT_STATUS_TQ 3).hnt with pt := [(3, { id := 9, first := false, lastSeq := 4, got := [(4, 100, 1)], incarnation := 7 })] } }).setF Reg.HNT_PT_ID_LO 9 3).setF Reg.HNT_PT_STATE_STATE 2 3).setF Reg.HNT_PT_STATE_ROLE 2 3).tokenTaken 3 6 (some (3000000000, 5000))).numbered 3 0 5000 (.next 0) (beBytes 56 0x4146010600030038000000000000000900000005000002020000000700000000000000000000000000000000000000000000000000000000)) (beBytes 118 0x00000000000000000000000086DD60000000004011FFFE800000000000000000000000000009FE800000000000000000000000000000B8A0B8A000404C844146010600030038000000000000000900000005000002020000000700000000000000000000000000000000000000000000000000000000)) ∧
    ((fun (s : State) (now d : Nat) => (s.hnt.annAt = some d) ∧ (d ≤ now) ∧ (s.speaks = true)) (({ (((((State.reset.setF Reg.HNT_CFG_EN 1).setF Reg.HNT_CFG_AUTH_REQ 0).setF Reg.HNT_STATUS_LINK_A 1).setF Reg.HNT_STATUS_PHASE 2).setF Reg.HNT_STATUS_TQ 3) with hnt := { (((((State.reset.setF Reg.HNT_CFG_EN 1).setF Reg.HNT_CFG_AUTH_REQ 0).setF Reg.HNT_STATUS_LINK_A 1).setF Reg.HNT_STATUS_PHASE 2).setF Reg.HNT_STATUS_TQ 3).hnt with annAt := some 5 } })) 6 5) ∧
    ((fun (s : State) (now : Nat) => (s.canonical = true) ∧ (s.phase = phaseWait) ∧ (450000000 ≤ now) ∧ (s.speaks = true)) (((((((State.reset.setF Reg.HNT_CFG_EN 1).setF Reg.HNT_CFG_AUTH_REQ 0).setF Reg.HNT_STATUS_LINK_A 1).setF Reg.HNT_STATUS_PHASE 2).setF Reg.HNT_STATUS_TQ 3).setF Reg.HNT_STATUS_PHASE 0)) 450000000) ∧
    ((fun (s : State) => (s.speaks = true)) ((((((State.reset.setF Reg.HNT_CFG_EN 1).setF Reg.HNT_CFG_AUTH_REQ 0).setF Reg.HNT_STATUS_LINK_A 1).setF Reg.HNT_STATUS_PHASE 2).setF Reg.HNT_STATUS_TQ 3))) ∧
    ((fun (s : State) (now : Nat) => (s.canonical = true) ∧ (s.phase = phaseListen) ∧ (s.hnt.listenAt + (50 + s.discWindow) * 1000000 ≤ now)) (((((({ (((((State.reset.setF Reg.HNT_CFG_EN 1).setF Reg.HNT_CFG_AUTH_REQ 0).setF Reg.HNT_STATUS_LINK_A 1).setF Reg.HNT_STATUS_PHASE 2).setF Reg.HNT_STATUS_TQ 3) with hnt := { (((((State.reset.setF Reg.HNT_CFG_EN 1).setF Reg.HNT_CFG_AUTH_REQ 0).setF Reg.HNT_STATUS_LINK_A 1).setF Reg.HNT_STATUS_PHASE 2).setF Reg.HNT_STATUS_TQ 3).hnt with pt := [(3, { id := 9 })] } }).setF Reg.HNT_PT_ID_LO 9 3).setF Reg.HNT_PT_STATE_STATE 1 3).setF Reg.HNT_PT_STATE_ROLE 2 3).setF Reg.HNT_STATUS_PHASE 1)) 10000000000) ∧
    ((fun (s : State) (i now : Nat) => (s.canonical = true) ∧ (i < 512) ∧ (s.ptState i = ptAdmitted) ∧ ((s.partner i).heard + max 10 (s.getF Reg.HNT_TIMEOUTS_SILENT_MS) * 1000000 < now)) ((((({ (((((State.reset.setF Reg.HNT_CFG_EN 1).setF Reg.HNT_CFG_AUTH_REQ 0).setF Reg.HNT_STATUS_LINK_A 1).setF Reg.HNT_STATUS_PHASE 2).setF Reg.HNT_STATUS_TQ 3) with hnt := { (((((State.reset.setF Reg.HNT_CFG_EN 1).setF Reg.HNT_CFG_AUTH_REQ 0).setF Reg.HNT_STATUS_LINK_A 1).setF Reg.HNT_STATUS_PHASE 2).setF Reg.HNT_STATUS_TQ 3).hnt with pt := [(3, { id := 9, first := false, lastSeq := 4, got := [(4, 100, 1)], incarnation := 7 })] } }).setF Reg.HNT_PT_ID_LO 9 3).setF Reg.HNT_PT_STATE_STATE 2 3).setF Reg.HNT_PT_STATE_ROLE 1 3)) 3 10000000000000) ∧
    ((fun (s : State) (i now : Nat) => (s.canonical = true) ∧ (i < 512) ∧ (s.ptState i = ptSilent) ∧ ((s.partner i).silentAt + max 1 (s.getF Reg.HNT_TIMEOUTS_LOST_S) * 1000000000 < now)) ((((({ (((((State.reset.setF Reg.HNT_CFG_EN 1).setF Reg.HNT_CFG_AUTH_REQ 0).setF Reg.HNT_STATUS_LINK_A 1).setF Reg.HNT_STATUS_PHASE 2).setF Reg.HNT_STATUS_TQ 3) with hnt := { (((((State.reset.setF Reg.HNT_CFG_EN 1).setF Reg.HNT_CFG_AUTH_REQ 0).setF Reg.HNT_STATUS_LINK_A 1).setF Reg.HNT_STATUS_PHASE 2).setF Reg.HNT_STATUS_TQ 3).hnt with pt := [(3, { id := 9, first := false, lastSeq := 4, got := [(4, 100, 1)], incarnation := 7 })] } }).setF Reg.HNT_PT_ID_LO 9 3).setF Reg.HNT_PT_STATE_STATE 3 3).setF Reg.HNT_PT_STATE_ROLE 1 3)) 3 10000000000000) ∧
    ((fun (s : State) => (s.canonical = true)) (((((((State.reset.setF Reg.HNT_CFG_EN 1).setF Reg.HNT_CFG_AUTH_REQ 0).setF Reg.HNT_STATUS_LINK_A 1).setF Reg.HNT_STATUS_PHASE 2).setF Reg.HNT_STATUS_TQ 3).setF Reg.HNT_DROP 4 3))) ∧
    ((fun (s : State) (i : Nat) => (s.canonical = true) ∧ (i < 512)) ((((({ (((((State.reset.setF Reg.HNT_CFG_EN 1).setF Reg.HNT_CFG_AUTH_REQ 0).setF Reg.HNT_STATUS_LINK_A 1).setF Reg.HNT_STATUS_PHASE 2).setF Reg.HNT_STATUS_TQ 3) with hnt := { (((((State.reset.setF Reg.HNT_CFG_EN 1).setF Reg.HNT_CFG_AUTH_REQ 0).setF Reg.HNT_STATUS_LINK_A 1).setF Reg.HNT_STATUS_PHASE 2).setF Reg.HNT_STATUS_TQ 3).hnt with pt := [(3, { id := 9, first := false, lastSeq := 4, got := [(4, 100, 1)], incarnation := 7 })] } }).setF Reg.HNT_PT_ID_LO 9 3).setF Reg.HNT_PT_STATE_STATE 2 3).setF Reg.HNT_PT_STATE_ROLE 1 3)) 3) := by
  repeat refine And.intro (by decide +kernel) ?_
  decide +kernel

theorem test_meets_LinksAndTimeQuality :
    ((fun (s : State) (port now : Nat) (up : Bool) => (s.canonical = true) ∧ (port < 2) ∧ (s.isF (if port = 0 then Reg.HNT_STATUS_LINK_A else Reg.HNT_STATUS_LINK_B) ≠ up) ∧ (up = true → (s.cfg.running && s.runs (15 + port)) = true)) ((({ (State.reset.setF Reg.HNT_STATUS_PHASE 2) with cfg := { State.reset.cfg with running := true } }.setRuns 15 true).setRuns 16 true)) 1 70 true) ∧
    ((fun (s : State) (port now : Nat) (up : Bool) => (s.canonical = true) ∧ (port < 2) ∧ (s.isF (if port = 0 then Reg.HNT_STATUS_LINK_A else Reg.HNT_STATUS_LINK_B) ≠ up) ∧ (up = true → (s.cfg.running && s.runs (15 + port)) = true)) ((((((State.reset.setF Reg.HNT_CFG_EN 1).setF Reg.HNT_CFG_AUTH_REQ 0).setF Reg.HNT_STATUS_LINK_A 1).setF Reg.HNT_STATUS_PHASE 2).setF Reg.HNT_STATUS_TQ 3)) 0 70 false) ∧
    ((fun (s : State) (port now : Nat) (up : Bool) => (s.canonical = true) ∧ (port < 2) ∧ (s.isF (if port = 0 then Reg.HNT_STATUS_LINK_A else Reg.HNT_STATUS_LINK_B) ≠ up) ∧ (up = true → (s.cfg.running && s.runs (15 + port)) = true)) (((({ (State.reset.setF Reg.HNT_STATUS_PHASE 2) with cfg := { State.reset.cfg with running := true } }.setRuns 15 true).setRuns 16 true).setF Reg.HNT_STATUS_PHASE 1)) 0 70 true) ∧
    ((fun (s : State) (port now : Nat) (up : Bool) => (2 ≤ port ∨ s.isF (if port = 0 then Reg.HNT_STATUS_LINK_A else Reg.HNT_STATUS_LINK_B) = up ∨ up = true ∧ (s.cfg.running && s.runs (15 + port)) = false)) ((((((State.reset.setF Reg.HNT_CFG_EN 1).setF Reg.HNT_CFG_AUTH_REQ 0).setF Reg.HNT_STATUS_LINK_A 1).setF Reg.HNT_STATUS_PHASE 2).setF Reg.HNT_STATUS_TQ 3)) 0 70 true) ∧
    ((fun (s : State) (port : Nat) (frame : List Byte) (p : Packet) => (port < 3) ∧ (s.portUp port = true) ∧ (framePacket frame = some p) ∧ (p.next = 58) ∧ (ipSum p.src p.dst 58 p.payload = 0xFFFF) ∧ (beAt p.payload 0 1 = 128) ∧ (p.dst ∈ s.portAddrs port)) (State.reset) 2 (beBytes 65 0x00000000000000000000000086DD60000000000B3AFFFE800000000000000000000000000009FE800000000000000000000000000000800072A400010002070809) ((framePacket (beBytes 65 0x00000000000000000000000086DD60000000000B3AFFFE800000000000000000000000000009FE800000000000000000000000000000800072A400010002070809)).getD ⟨[], [], 0, 0, []⟩)) ∧
    ((fun (s : State) (port : Nat) (frame : List Byte) (p : Packet) => (port < 3) ∧ (s.portUp port = true) ∧ (framePacket frame = some p) ∧ (p.next = 58) ∧ (ipSum p.src p.dst 58 p.payload = 0xFFFF) ∧ (beAt p.payload 0 1 = 135) ∧ (p.hop = 255) ∧ (24 ≤ p.payload.length) ∧ (slice p.payload 8 16 ∈ s.portAddrs port)) ((((((State.reset.setF Reg.HNT_CFG_EN 1).setF Reg.HNT_CFG_AUTH_REQ 0).setF Reg.HNT_STATUS_LINK_A 1).setF Reg.HNT_STATUS_PHASE 2).setF Reg.HNT_STATUS_TQ 3)) 0 (beBytes 78 0x00000000000000000000000086DD6000000000183AFFFE800000000000000000000000000009FE80000000000000000000000000000087007D2100000000FE800000000000000000000000000000) ((framePacket (beBytes 78 0x00000000000000000000000086DD6000000000183AFFFE800000000000000000000000000009FE80000000000000000000000000000087007D2100000000FE800000000000000000000000000000)).getD ⟨[], [], 0, 0, []⟩)) ∧
    ((fun (s : State) (port : Nat) (frame : List Byte) => ((framePacket frame).bind (s.icmpAnswer port) = none ∨ 3 ≤ port ∨ s.portUp port = false)) ((((((State.reset.setF Reg.HNT_CFG_EN 1).setF Reg.HNT_CFG_AUTH_REQ 0).setF Reg.HNT_STATUS_LINK_A 1).setF Reg.HNT_STATUS_PHASE 2).setF Reg.HNT_STATUS_TQ 3)) 0 (beBytes 64 0x00000000000000000000000081000000000000000000000000000000000000000000000000000000000000000000000000000000000000000000000000000000)) ∧
    ((fun (s : State) (port : Nat) (frame : List Byte) => ((framePacket frame).bind (s.icmpAnswer port) = none ∨ 3 ≤ port ∨ s.portUp port = false)) ((((((State.reset.setF Reg.HNT_CFG_EN 1).setF Reg.HNT_CFG_AUTH_REQ 0).setF Reg.HNT_STATUS_LINK_A 1).setF Reg.HNT_STATUS_PHASE 2).setF Reg.HNT_STATUS_TQ 3)) 1 (beBytes 65 0x00000000000000000000000086DD60000000000B3AFFFE800000000000000000000000000009FE800000000000000000000000000000800072A400010002070809)) ∧
    ((fun (s : State) (port now domain t1 t2 : Nat) (delay : Option (Nat × Nat)) (offset : Int) => (s.canonical = true) ∧ (s.isF Reg.HNT_PTP_STATUS_MASTER = true) ∧ (s.getF Reg.HNT_PTP_STATUS_PORT = port) ∧ (domain = s.getF Reg.HNT_PTP_CFG_DOMAIN) ∧ (s.portUp port = true) ∧ (offset = s.ptpOffset port t1 t2 delay) ∧ (s.ownGrid = true) ∧ ((s.tq = 1 ∨ s.tq = 2) ∧ 16 ≤ (if (-50 ≤ offset && offset ≤ 50) then min 255 (s.getF Reg.HNT_PTP_STATUS_GOOD_SYNCS + 1) else 0)) ∧ (s.ownGrid = false ∨ s.isF Reg.CLK_STATUS_COUNTER_SET = false ∨ (-1000000000 ≤ offset ∧ offset ≤ 1000000000) ∨ s.isF Reg.CLK_STATUS_TIME_FAULT = true)) ((((((((((State.reset.setF Reg.HNT_CFG_EN 1).setF Reg.HNT_CFG_AUTH_REQ 0).setF Reg.HNT_STATUS_LINK_A 1).setF Reg.HNT_STATUS_PHASE 2).setF Reg.HNT_STATUS_TQ 3).setF Reg.HNT_PTP_STATUS_MASTER 1).setF Reg.HNT_STATUS_TQ 2).setF Reg.HNT_PTP_STATUS_GOOD_SYNCS 14).setF Reg.HNT_PTP_STATUS_GOOD_SYNCS 15)) 0 77 0 2000000000 1999999950 none (-50)) ∧
    ((fun (s : State) (port now domain t1 t2 : Nat) (delay : Option (Nat × Nat)) (offset : Int) => (s.canonical = true) ∧ (s.isF Reg.HNT_PTP_STATUS_MASTER = true) ∧ (s.getF Reg.HNT_PTP_STATUS_PORT = port) ∧ (domain = s.getF Reg.HNT_PTP_CFG_DOMAIN) ∧ (s.portUp port = true) ∧ (offset = s.ptpOffset port t1 t2 delay) ∧ (s.ownGrid = false) ∧ ((s.tq = 1 ∨ s.tq = 2) ∧ 16 ≤ (if (-50 ≤ offset && offset ≤ 50) then min 255 (s.getF Reg.HNT_PTP_STATUS_GOOD_SYNCS + 1) else 0)) ∧ (s.ownGrid = false ∨ s.isF Reg.CLK_STATUS_COUNTER_SET = false ∨ (-1000000000 ≤ offset ∧ offset ≤ 1000000000) ∨ s.isF Reg.CLK_STATUS_TIME_FAULT = true)) (((((((((((State.reset.setF Reg.HNT_CFG_EN 1).setF Reg.HNT_CFG_AUTH_REQ 0).setF Reg.HNT_STATUS_LINK_A 1).setF Reg.HNT_STATUS_PHASE 2).setF Reg.HNT_STATUS_TQ 3).setF Reg.HNT_PTP_STATUS_MASTER 1).setF Reg.HNT_STATUS_TQ 2).setF Reg.HNT_PTP_STATUS_GOOD_SYNCS 14).setF Reg.HNT_PTP_STATUS_GOOD_SYNCS 15).setF Reg.TWN_STATUS_STATE 2)) 0 77 0 2000000000 2000000050 none (50)) ∧
    ((fun (s : State) (port now domain t1 t2 : Nat) (delay : Option (Nat × Nat)) (offset : Int) => (s.canonical = true) ∧ (s.isF Reg.HNT_PTP_STATUS_MASTER = true) ∧ (s.getF Reg.HNT_PTP_STATUS_PORT = port) ∧ (domain = s.getF Reg.HNT_PTP_CFG_DOMAIN) ∧ (s.portUp port = true) ∧ (offset = s.ptpOffset port t1 t2 delay) ∧ (s.tq = 3) ∧ (4 ≤ (if (-500 ≤ offset && offset ≤ 500) then 0 else s.hnt.badRun + 1)) ∧ (s.ownGrid = false ∨ s.isF Reg.CLK_STATUS_COUNTER_SET = false ∨ (-1000000000 ≤ offset ∧ offset ≤ 1000000000) ∨ s.isF Reg.CLK_STATUS_TIME_FAULT = true)) (({ (((((((((((State.reset.setF Reg.HNT_CFG_EN 1).setF Reg.HNT_CFG_AUTH_REQ 0).setF Reg.HNT_STATUS_LINK_A 1).setF Reg.HNT_STATUS_PHASE 2).setF Reg.HNT_STATUS_TQ 3).setF Reg.HNT_PTP_STATUS_MASTER 1).setF Reg.HNT_STATUS_TQ 2).setF Reg.HNT_PTP_STATUS_GOOD_SYNCS 14).setF Reg.HNT_STATUS_TQ 3).setF Reg.CLK_STATUS_CC_LOCKED 1).setF Reg.CLK_STATUS_SLEWING 1) with hnt := { State.reset.hnt with badRun := 3 } })) 0 77 0 2000000000 2000000501 none (501)) ∧
    ((fun (s : State) (port now domain t1 t2 : Nat) (delay : Option (Nat × Nat)) (offset : Int) => (s.canonical = true) ∧ (s.isF Reg.HNT_PTP_STATUS_MASTER = true) ∧ (s.getF Reg.HNT_PTP_STATUS_PORT = port) ∧ (domain = s.getF Reg.HNT_PTP_CFG_DOMAIN) ∧ (s.portUp port = true) ∧ (offset = s.ptpOffset port t1 t2 delay) ∧ (s.ownGrid = true) ∧ (s.tq = 0 ∨ (s.tq = 1 ∧ ¬ 16 ≤ (if (-50 ≤ offset && offset ≤ 50) then min 255 (s.getF Reg.HNT_PTP_STATUS_GOOD_SYNCS + 1) else 0)) ∨ (s.tq = 3 ∧ ¬ 4 ≤ (if (-500 ≤ offset && offset ≤ 500) then 0 else s.hnt.badRun + 1))) ∧ (s.ownGrid = false ∨ s.isF Reg.CLK_STATUS_COUNTER_SET = false ∨ (-1000000000 ≤ offset ∧ offset ≤ 1000000000) ∨ s.isF Reg.CLK_STATUS_TIME_FAULT = true)) ((((((((((State.reset.setF Reg.HNT_CFG_EN 1).setF Reg.HNT_CFG_AUTH_REQ 0).setF Reg.HNT_STATUS_LINK_A 1).setF Reg.HNT_STATUS_PHASE 2).setF Reg.HNT_STATUS_TQ 3).setF Reg.HNT_PTP_STATUS_MASTER 1).setF Reg.HNT_STATUS_TQ 2).setF Reg.HNT_PTP_STATUS_GOOD_SYNCS 14).setF Reg.HNT_STATUS_TQ 3)) 0 77 0 2000000000 2000000500 none (500)) ∧
    ((fun (s : State) (port now domain t1 t2 : Nat) (delay : Option (Nat × Nat)) (offset : Int) => (s.canonical = true) ∧ (s.isF Reg.HNT_PTP_STATUS_MASTER = true) ∧ (s.getF Reg.HNT_PTP_STATUS_PORT = port) ∧ (domain = s.getF Reg.HNT_PTP_CFG_DOMAIN) ∧ (s.portUp port = true) ∧ (offset = s.ptpOffset port t1 t2 delay) ∧ (s.ownGrid = true) ∧ (s.tq = 0 ∨ (s.tq = 1 ∧ ¬ 16 ≤ (if (-50 ≤ offset && offset ≤ 50) then min 255 (s.getF Reg.HNT_PTP_STATUS_GOOD_SYNCS + 1) else 0)) ∨ (s.tq = 3 ∧ ¬ 4 ≤ (if (-500 ≤ offset && offset ≤ 500) then 0 else s.hnt.badRun + 1))) ∧ (s.ownGrid = false ∨ s.isF Reg.CLK_STATUS_COUNTER_SET = false ∨ (-1000000000 ≤ offset ∧ offset ≤ 1000000000) ∨ s.isF Reg.CLK_STATUS_TIME_FAULT = true)) (((((((((((State.reset.setF Reg.HNT_CFG_EN 1).setF Reg.HNT_CFG_AUTH_REQ 0).setF Reg.HNT_STATUS_LINK_A 1).setF Reg.HNT_STATUS_PHASE 2).setF Reg.HNT_STATUS_TQ 3).setF Reg.HNT_PTP_STATUS_MASTER 1).setF Reg.HNT_STATUS_TQ 2).setF Reg.HNT_PTP_STATUS_GOOD_SYNCS 14).setF Reg.HNT_STATUS_TQ 0).setF Reg.HNT_PTP_STATUS_GOOD_SYNCS 20)) 0 77 0 2000000000 1999999949 none (-51)) ∧
    ((fun (s : State) (port now domain t1 t2 : Nat) (delay : Option (Nat × Nat)) (offset : Int) => (s.canonical = true) ∧ (s.isF Reg.HNT_PTP_STATUS_MASTER = true) ∧ (s.getF Reg.HNT_PTP_STATUS_PORT = port) ∧ (domain = s.getF Reg.HNT_PTP_CFG_DOMAIN) ∧ (s.portUp port = true) ∧ (offset = s.ptpOffset port t1 t2 delay) ∧ (s.ownGrid = true) ∧ (s.tq = 0 ∨ (s.tq = 1 ∧ ¬ 16 ≤ (if (-50 ≤ offset && offset ≤ 50) then min 255 (s.getF Reg.HNT_PTP_STATUS_GOOD_SYNCS + 1) else 0)) ∨ (s.tq = 3 ∧ ¬ 4 ≤ (if (-500 ≤ offset && offset ≤ 500) then 0 else s.hnt.badRun + 1))) ∧ (s.ownGrid = false ∨ s.isF Reg.CLK_STATUS_COUNTER_SET = false ∨ (-1000000000 ≤ offset ∧ offset ≤ 1000000000) ∨ s.isF Reg.CLK_STATUS_TIME_FAULT = true)) ((((((((((State.reset.setF Reg.HNT_CFG_EN 1).setF Reg.HNT_CFG_AUTH_REQ 0).setF Reg.HNT_STATUS_LINK_A 1).setF Reg.HNT_STATUS_PHASE 2).setF Reg.HNT_STATUS_TQ 3).setF Reg.HNT_PTP_STATUS_MASTER 1).setF Reg.HNT_STATUS_TQ 2).setF Reg.HNT_PTP_STATUS_GOOD_SYNCS 14).setF Reg.HNT_STATUS_TQ 1)) 0 77 0 2000000000 2000000050 none (50)) ∧
    ((fun (s : State) (port now domain t1 t2 : Nat) (delay : Option (Nat × Nat)) (offset : Int) => (s.canonical = true) ∧ (s.isF Reg.HNT_PTP_STATUS_MASTER = true) ∧ (s.getF Reg.HNT_PTP_STATUS_PORT = port) ∧ (domain = s.getF Reg.HNT_PTP_CFG_DOMAIN) ∧ (s.portUp port = true) ∧ (offset = s.ptpOffset port t1 t2 delay) ∧ (s.ownGrid = false ∨ s.tq = 2) ∧ (s.tq = 0 ∨ ((s.tq = 1 ∨ s.tq = 2) ∧ ¬ 16 ≤ (if (-50 ≤ offset && offset ≤ 50) then min 255 (s.getF Reg.HNT_PTP_STATUS_GOOD_SYNCS + 1) else 0)) ∨ (s.tq = 3 ∧ ¬ 4 ≤ (if (-500 ≤ offset && offset ≤ 500) then 0 else s.hnt.badRun + 1))) ∧ (s.ownGrid = false ∨ s.isF Reg.CLK_STATUS_COUNTER_SET = false ∨ (-1000000000 ≤ offset ∧ offset ≤ 1000000000) ∨ s.isF Reg.CLK_STATUS_TIME_FAULT = true)) (((((((((State.reset.setF Reg.HNT_CFG_EN 1).setF Reg.HNT_CFG_AUTH_REQ 0).setF Reg.HNT_STATUS_LINK_A 1).setF Reg.HNT_STATUS_PHASE 2).setF Reg.HNT_STATUS_TQ 3).setF Reg.HNT_PTP_STATUS_MASTER 1).setF Reg.HNT_STATUS_TQ 2).setF Reg.HNT_PTP_STATUS_GOOD_SYNCS 14)) 0 77 0 2000000000 2000000050 none (50)) ∧
    ((fun (s : State) (port now domain t1 t2 : Nat) (delay : Option (Nat × Nat)) (offset : Int) => (s.canonical = true) ∧ (s.isF Reg.HNT_PTP_STATUS_MASTER = true) ∧ (s.getF Reg.HNT_PTP_STATUS_PORT = port) ∧ (domain = s.getF Reg.HNT_PTP_CFG_DOMAIN) ∧ (s.portUp port = true) ∧ (offset = s.ptpOffset port t1 t2 delay) ∧ (s.ownGrid = false ∨ s.tq = 2) ∧ (s.tq = 0 ∨ ((s.tq = 1 ∨ s.tq = 2) ∧ ¬ 16 ≤ (if (-50 ≤ offset && offset ≤ 50) then min 255 (s.getF Reg.HNT_PTP_STATUS_GOOD_SYNCS + 1) else 0)) ∨ (s.tq = 3 ∧ ¬ 4 ≤ (if (-500 ≤ offset && offset ≤ 500) then 0 else s.hnt.badRun + 1))) ∧ (s.ownGrid = false ∨ s.isF Reg.CLK_STATUS_COUNTER_SET = false ∨ (-1000000000 ≤ offset ∧ offset ≤ 1000000000) ∨ s.isF Reg.CLK_STATUS_TIME_FAULT = true)) (((((((((((State.reset.setF Reg.HNT_CFG_EN 1).setF Reg.HNT_CFG_AUTH_REQ 0).setF Reg.HNT_STATUS_LINK_A 1).setF Reg.HNT_STATUS_PHASE 2).setF Reg.HNT_STATUS_TQ 3).setF Reg.HNT_PTP_STATUS_MASTER 1).setF Reg.HNT_STATUS_TQ 2).setF Reg.HNT_PTP_STATUS_GOOD_SYNCS 14).setF Reg.HNT_STATUS_TQ 3).setF Reg.TWN_STATUS_STATE 2)) 0 77 0 2000000000 2000000501 none (501)) ∧
    ((fun (s : State) (port now domain t1 t2 : Nat) (delay : Option (Nat × Nat)) (offset : Int) => (s.canonical = true) ∧ (s.isF Reg.HNT_PTP_STATUS_MASTER = true) ∧ (s.getF Reg.HNT_PTP_STATUS_PORT = port) ∧ (domain = s.getF Reg.HNT_PTP_CFG_DOMAIN) ∧ (s.portUp port = true) ∧ (offset = s.ptpOffset port t1 t2 delay) ∧ (s.ownGrid = false ∨ s.tq = 2) ∧ (s.tq = 0 ∨ ((s.tq = 1 ∨ s.tq = 2) ∧ ¬ 16 ≤ (if (-50 ≤ offset && offset ≤ 50) then min 255 (s.getF Reg.HNT_PTP_STATUS_GOOD_SYNCS + 1) else 0)) ∨ (s.tq = 3 ∧ ¬ 4 ≤ (if (-500 ≤ offset && offset ≤ 500) then 0 else s.hnt.badRun + 1))) ∧ (s.ownGrid = false ∨ s.isF Reg.CLK_STATUS_COUNTER_SET = false ∨ (-1000000000 ≤ offset ∧ offset ≤ 1000000000) ∨ s.isF Reg.CLK_STATUS_TIME_FAULT = true)) (({ ((((((((State.reset.setF Reg.HNT_CFG_EN 1).setF Reg.HNT_CFG_AUTH_REQ 0).setF Reg.HNT_STATUS_LINK_A 1).setF Reg.HNT_STATUS_PHASE 2).setF Reg.HNT_STATUS_TQ 3).setF Reg.HNT_PTP_STATUS_MASTER 1).setF Reg.HNT_STATUS_TQ 2).setF Reg.HNT_PTP_STATUS_GOOD_SYNCS 14) with hnt := { State.reset.hnt with delayAt := some 76 } })) 0 77 0 2000000000 2000000050 none (50)) ∧
    ((fun (s : State) (port now domain t1 t2 : Nat) (delay : Option (Nat × Nat)) (offset : Int) => (s.canonical = true) ∧ (s.isF Reg.HNT_PTP_STATUS_MASTER = true) ∧ (s.getF Reg.HNT_PTP_STATUS_PORT = port) ∧ (domain = s.getF Reg.HNT_PTP_CFG_DOMAIN) ∧ (s.portUp port = true) ∧ (offset = s.ptpOffset port t1 t2 delay) ∧ (s.ownGrid = true) ∧ (s.isF Reg.CLK_STATUS_COUNTER_SET = true) ∧ (¬ (-1000000000 ≤ offset ∧ offset ≤ 1000000000)) ∧ (s.isF Reg.CLK_STATUS_TIME_FAULT = false) ∧ (s.tq = 1)) (((((((((((State.reset.setF Reg.HNT_CFG_EN 1).setF Reg.HNT_CFG_AUTH_REQ 0).setF Reg.HNT_STATUS_LINK_A 1).setF Reg.HNT_STATUS_PHASE 2).setF Reg.HNT_STATUS_TQ 3).setF Reg.HNT_PTP_STATUS_MASTER 1).setF Reg.HNT_STATUS_TQ 2).setF Reg.HNT_PTP_STATUS_GOOD_SYNCS 14).setF Reg.HNT_STATUS_TQ 1).setF Reg.CLK_STATUS_COUNTER_SET 1)) 0 77 0 2000000000 3000000001 none (1000000001)) ∧
    ((fun (s : State) (port now domain t1 t2 : Nat) (delay : Option (Nat × Nat)) => (s.isF Reg.HNT_PTP_STATUS_MASTER = false ∨ s.getF Reg.HNT_PTP_STATUS_PORT ≠ port ∨ domain ≠ s.getF Reg.HNT_PTP_CFG_DOMAIN ∨ s.portUp port = false)) (((((((((State.reset.setF Reg.HNT_CFG_EN 1).setF Reg.HNT_CFG_AUTH_REQ 0).setF Reg.HNT_STATUS_LINK_A 1).setF Reg.HNT_STATUS_PHASE 2).setF Reg.HNT_STATUS_TQ 3).setF Reg.HNT_PTP_STATUS_MASTER 1).setF Reg.HNT_STATUS_TQ 2).setF Reg.HNT_PTP_STATUS_GOOD_SYNCS 14)) 0 77 9 100 101 none) ∧
    ((fun (s : State) (now : Nat) => (s.canonical = true) ∧ (s.masterLost now = false) ∧ (s.hnt.lastSync + 1000000000 < now) ∧ (s.tq = 3)) (({ (((((((((State.reset.setF Reg.HNT_CFG_EN 1).setF Reg.HNT_CFG_AUTH_REQ 0).setF Reg.HNT_STATUS_LINK_A 1).setF Reg.HNT_STATUS_PHASE 2).setF Reg.HNT_STATUS_TQ 3).setF Reg.HNT_PTP_STATUS_MASTER 1).setF Reg.HNT_STATUS_TQ 2).setF Reg.HNT_PTP_STATUS_GOOD_SYNCS 14).setF Reg.HNT_STATUS_TQ 3) with hnt := { State.reset.hnt with foreign := [(0, some (⟨0, 128, 6, 0x20, 5, 128, 77, 1, 1000000000, 37⟩, 70))] } })) 1000000001) ∧
    ((fun (s : State) (now : Nat) => (s.canonical = true) ∧ (s.masterLost now = true) ∧ (s.tq = 3) ∧ (s.bestMaster now = none)) ((((((((((State.reset.setF Reg.HNT_CFG_EN 1).setF Reg.HNT_CFG_AUTH_REQ 0).setF Reg.HNT_STATUS_LINK_A 1).setF Reg.HNT_STATUS_PHASE 2).setF Reg.HNT_STATUS_TQ 3).setF Reg.HNT_PTP_STATUS_MASTER 1).setF Reg.HNT_STATUS_TQ 2).setF Reg.HNT_PTP_STATUS_GOOD_SYNCS 14).setF Reg.HNT_STATUS_TQ 3)) 77) ∧
    ((fun (s : State) (now port : Nat) (x : PtpAnn) => (s.canonical = true) ∧ (s.masterLost now = true) ∧ (s.tq = 3) ∧ (s.bestMaster now = some (port, x))) (({ (((((((((State.reset.setF Reg.HNT_CFG_EN 1).setF Reg.HNT_CFG_AUTH_REQ 0).setF Reg.HNT_STATUS_LINK_A 1).setF Reg.HNT_STATUS_PHASE 2).setF Reg.HNT_STATUS_TQ 3).setF Reg.HNT_PTP_STATUS_MASTER 1).setF Reg.HNT_STATUS_TQ 2).setF Reg.HNT_PTP_STATUS_GOOD_SYNCS 14).setF Reg.HNT_STATUS_TQ 3) with hnt := { State.reset.hnt with foreign := [(1, some (⟨0, 128, 6, 0x20, 5, 128, 77, 1, 1000000000, 37⟩, 70))] } })) 77 1 ⟨0, 128, 6, 0x20, 5, 128, 77, 1, 1000000000, 37⟩) ∧
    ((fun (s : State) (now : Nat) => (s.masterLost now = false) ∧ (now ≤ s.hnt.lastSync + 1000000000 ∨ s.tq ≠ 3)) (({ (((((((((State.reset.setF Reg.HNT_CFG_EN 1).setF Reg.HNT_CFG_AUTH_REQ 0).setF Reg.HNT_STATUS_LINK_A 1).setF Reg.HNT_STATUS_PHASE 2).setF Reg.HNT_STATUS_TQ 3).setF Reg.HNT_PTP_STATUS_MASTER 1).setF Reg.HNT_STATUS_TQ 2).setF Reg.HNT_PTP_STATUS_GOOD_SYNCS 14).setF Reg.HNT_STATUS_TQ 3) with hnt := { State.reset.hnt with foreign := [(0, some (⟨0, 128, 6, 0x20, 5, 128, 77, 1, 1000000000, 37⟩, 70))] } })) 1000000000) ∧
    ((fun (s : State) (now : Nat) => (s.canonical = true) ∧ (s.tq = 2) ∧ (s.hnt.holdAt + min 3600 (max 1 (s.getF Reg.HNT_PTP_CFG_HOLDOVER_S)) * 1000000000 < now)) (((((((((State.reset.setF Reg.HNT_CFG_EN 1).setF Reg.HNT_CFG_AUTH_REQ 0).setF Reg.HNT_STATUS_LINK_A 1).setF Reg.HNT_STATUS_PHASE 2).setF Reg.HNT_STATUS_TQ 3).setF Reg.HNT_PTP_STATUS_MASTER 1).setF Reg.HNT_STATUS_TQ 2).setF Reg.HNT_PTP_STATUS_GOOD_SYNCS 14)) 3600000000001) ∧
    ((fun (s : State) (now : Nat) => (s.tq ≠ 2 ∨ now ≤ s.holdEnd)) (((((((((State.reset.setF Reg.HNT_CFG_EN 1).setF Reg.HNT_CFG_AUTH_REQ 0).setF Reg.HNT_STATUS_LINK_A 1).setF Reg.HNT_STATUS_PHASE 2).setF Reg.HNT_STATUS_TQ 3).setF Reg.HNT_PTP_STATUS_MASTER 1).setF Reg.HNT_STATUS_TQ 2).setF Reg.HNT_PTP_STATUS_GOOD_SYNCS 14)) 10000000000) ∧
    ((fun (s : State) (port now q : Nat) (announce x : PtpAnn) (a : State) => (s.canonical = true) ∧ (port < 2) ∧ (s.portUp port = true) ∧ (announce.domain = s.getF Reg.HNT_PTP_CFG_DOMAIN) ∧ (s.masterLost now = false ∨ s.tq ≠ 3) ∧ (a = { s with hnt := { s.hnt with foreign := Sparse.upd none s.hnt.foreign port (some (announce, now)) } }) ∧ (a.bestMaster now = some (q, x)) ∧ (s.tq = 0)) (((((((State.reset.setF Reg.HNT_CFG_EN 1).setF Reg.HNT_CFG_AUTH_REQ 0).setF Reg.HNT_STATUS_LINK_A 1).setF Reg.HNT_STATUS_PHASE 2).setF Reg.HNT_STATUS_TQ 3).setF Reg.HNT_STATUS_TQ 0)) 0 77 0 ⟨0, 128, 6, 0x20, 5, 128, 77, 1, 1000000000, 37⟩ ⟨0, 128, 6, 0x20, 5, 128, 77, 1, 1000000000, 37⟩ ({ ((((((State.reset.setF Reg.HNT_CFG_EN 1).setF Reg.HNT_CFG_AUTH_REQ 0).setF Reg.HNT_STATUS_LINK_A 1).setF Reg.HNT_STATUS_PHASE 2).setF Reg.HNT_STATUS_TQ 3).setF Reg.HNT_STATUS_TQ 0) with hnt := { ((((((State.reset.setF Reg.HNT_CFG_EN 1).setF Reg.HNT_CFG_AUTH_REQ 0).setF Reg.HNT_STATUS_LINK_A 1).setF Reg.HNT_STATUS_PHASE 2).setF Reg.HNT_STATUS_TQ 3).setF Reg.HNT_STATUS_TQ 0).hnt with foreign := [(0, some (⟨0, 128, 6, 0x20, 5, 128, 77, 1, 1000000000, 37⟩, 77))] } })) ∧
    ((fun (s : State) (port now q : Nat) (announce x : PtpAnn) (a : State) => (s.canonical = true) ∧ (port < 2) ∧ (s.portUp port = true) ∧ (announce.domain = s.getF Reg.HNT_PTP_CFG_DOMAIN) ∧ (s.masterLost now = false ∨ s.tq ≠ 3) ∧ (a = { s with hnt := { s.hnt with foreign := Sparse.upd none s.hnt.foreign port (some (announce, now)) } }) ∧ (a.bestMaster now = some (q, x)) ∧ (s.tq ≠ 0)) ((((((State.reset.setF Reg.HNT_CFG_EN 1).setF Reg.HNT_CFG_AUTH_REQ 0).setF Reg.HNT_STATUS_LINK_A 1).setF Reg.HNT_STATUS_PHASE 2).setF Reg.HNT_STATUS_TQ 3)) 0 77 0 ⟨0, 128, 6, 0x20, 5, 128, 77, 1, 1000000000, 37⟩ ⟨0, 128, 6, 0x20, 5, 128, 77, 1, 1000000000, 37⟩ ({ (((((State.reset.setF Reg.HNT_CFG_EN 1).setF Reg.HNT_CFG_AUTH_REQ 0).setF Reg.HNT_STATUS_LINK_A 1).setF Reg.HNT_STATUS_PHASE 2).setF Reg.HNT_STATUS_TQ 3) with hnt := { (((((State.reset.setF Reg.HNT_CFG_EN 1).setF Reg.HNT_CFG_AUTH_REQ 0).setF Reg.HNT_STATUS_LINK_A 1).setF Reg.HNT_STATUS_PHASE 2).setF Reg.HNT_STATUS_TQ 3).hnt with foreign := [(0, some (⟨0, 128, 6, 0x20, 5, 128, 77, 1, 1000000000, 37⟩, 77))] } })) ∧
    ((fun (s : State) (port now : Nat) (announce : PtpAnn) => (2 ≤ port ∨ s.portUp port = false ∨ announce.domain ≠ s.getF Reg.HNT_PTP_CFG_DOMAIN)) ((((((State.reset.setF Reg.HNT_CFG_EN 1).setF Reg.HNT_CFG_AUTH_REQ 0).setF Reg.HNT_STATUS_LINK_A 1).setF Reg.HNT_STATUS_PHASE 2).setF Reg.HNT_STATUS_TQ 3)) 1 77 ⟨0, 128, 6, 0x20, 5, 128, 77, 1, 1000000000, 37⟩) := by
  repeat refine And.intro (by decide +kernel) ?_
  decide +kernel

theorem test_meets_JobsLoansContractsAndTheHall :
    ((fun (s : State) (slot : Nat) => ((Sparse.find s.cpc.jobs slot).all (fun (x : JobSlot) => decide (x.unnamed < 100)) = true)) ((State.reset.setJob 3 (some { job := 7, n := 2, freq := 1500, unnamed := 100, limit := some 1400, quiet := 200, sens := 1 }))) 4) ∧
    ((fun (s : State) (slot : Nat) => ((Sparse.find s.cpc.jobs slot).all (fun (x : JobSlot) => x.limit.isNone || decide (x.quiet < max 1 (s.getF Reg.CPC_ORDER_LIMIT_CLEAR))) = true)) ((State.reset.setJob 3 (some { job := 7, n := 2, freq := 1500, unnamed := 100, limit := some 1400, quiet := 200, sens := 1 }))) 4) ∧
    ((fun (s : State) => (s.cpc.outside < max 1 (s.getF Reg.CPC_RECON_CFG_RECON_COUNT) ∨ s.isF Reg.CPC_STATUS_MODEL_DRIFT = true)) (State.reset)) ∧
    ((fun (s : State) => (s.cpc.hallEntry.all (fun (h : HallEntry) => decide (s.frame < h.expiry ∨ s.getF Reg.CPC_CEILING ≤ s.getF Reg.CPC_CONTRACT)) = true)) (({ State.reset with cpc := { State.reset.cpc with hallEntry := some ⟨9, 100, 5000, []⟩ }, frame := 6000 }))) ∧
    ((fun (s : State) => (s.cpc.hallEntry.all (fun (h : HallEntry) => decide (s.frame < h.expiry + max 1 (s.getF Reg.CPC_HALL_CFG_LOAN_GUARD) * 100000 ∨ s.getF Reg.CPC_CONTRACT ≤ s.getF Reg.CPC_CEILING)) = true)) (({ State.reset with cpc := { State.reset.cpc with hallEntry := some ⟨9, 100, 5000, []⟩ }, frame := 6000 }))) ∧
    ((fun (s : State) (now : Nat) => (s.ldg.hall.leads = false ∨ s.frame % s.hallFrames ≠ 0)) (State.reset) 5000) ∧
    ((fun (s : State) (now : Nat) (u : State) => (s.canonical = true) ∧ (s.cpc.setPay = none) ∧ (((s.ownTable.map fun (x : Nat × Nat × Nat) => x.2.1).foldl (· + ·) 0) ≤ s.getF Reg.CPC_SET_HALL) ∧ ((s.ownTable.map Prod.fst).dedup.length = s.ownTable.length) ∧ ((s.ownTable.any fun (x : Nat × Nat × Nat) => decide (x.2.2 < x.2.1)) = false) ∧ (s.ldg.hall.member = true) ∧ (s.ldg.hall.leads = true) ∧ (s.ldg.hall.leader.isSome = true) ∧ (u = State.appendHall { (s.setF Reg.CPC_STATUS_CMD_RESULT 0) with cpc := { s.cpc with setPay := some (contractPay (s.getF Reg.CPC_SET_HALL) s.ownTable) } } etContract (contractPay (s.getF Reg.CPC_SET_HALL) s.ownTable) now) ∧ (u.rackQuiet = true)) (((((((((((((((({ State.reset with ldg := { State.reset.ldg with hall := { State.reset.ldg.hall with member := true, epoch := 5, term := 2, role := .leader, leader := some 4, members := [⟨4, 0, 3, 0, 0, 0⟩, ⟨9, 0, 3, 2, 0, 0⟩], log := [⟨1, 2, 1, 0, 0, []⟩], noop := 1, commit := 1 } }, hnt := { State.reset.hnt with pt := [(3, { id := 9, shelf := 2 })] } }).setF Reg.HNT_CFG_EN 1).setF Reg.HNT_CFG_AUTH_REQ 0).setF Reg.HNT_STATUS_LINK_A 1).setF Reg.HNT_STATUS_PHASE 2).setF Reg.LDG_CFG_EN 1).setF Reg.HNT_SELF_ID_LO 4).setF Reg.HNT_PT_ID_LO 9 3).setF Reg.HNT_PT_STATE_STATE 2 3).setF Reg.HNT_PT_STATE_ROLE 2 3).setF Reg.CPC_CT_A_EN 1 0).setF Reg.CPC_CT_A_RACK 0 0).setF Reg.CPC_CT_B_CONTRACT 1200 0).setF Reg.CPC_CT_C_MAX 1500 0).setF Reg.CPC_SET_HALL 2000)) 5000 (State.appendHall { (((((((((((((((({ State.reset with ldg := { State.reset.ldg with hall := { State.reset.ldg.hall with member := true, epoch := 5, term := 2, role := .leader, leader := some 4, members := [⟨4, 0, 3, 0, 0, 0⟩, ⟨9, 0, 3, 2, 0, 0⟩], log := [⟨1, 2, 1, 0, 0, []⟩], noop := 1, commit := 1 } }, hnt := { State.reset.hnt with pt := [(3, { id := 9, shelf := 2 })] } }).setF Reg.HNT_CFG_EN 1).setF Reg.HNT_CFG_AUTH_REQ 0).setF Reg.HNT_STATUS_LINK_A 1).setF Reg.HNT_STATUS_PHASE 2).setF Reg.LDG_CFG_EN 1).setF Reg.HNT_SELF_ID_LO 4).setF Reg.HNT_PT_ID_LO 9 3).setF Reg.HNT_PT_STATE_STATE 2 3).setF Reg.HNT_PT_STATE_ROLE 2 3).setF Reg.CPC_CT_A_EN 1 0).setF Reg.CPC_CT_A_RACK 0 0).setF Reg.CPC_CT_B_CONTRACT 1200 0).setF Reg.CPC_CT_C_MAX 1500 0).setF Reg.CPC_SET_HALL 2000).setF Reg.CPC_STATUS_CMD_RESULT 0) with cpc := { ((((((((((((((({ State.reset with ldg := { State.reset.ldg with hall := { State.reset.ldg.hall with member := true, epoch := 5, term := 2, role := .leader, leader := some 4, members := [⟨4, 0, 3, 0, 0, 0⟩, ⟨9, 0, 3, 2, 0, 0⟩], log := [⟨1, 2, 1, 0, 0, []⟩], noop := 1, commit := 1 } }, hnt := { State.reset.hnt with pt := [(3, { id := 9, shelf := 2 })] } }).setF Reg.HNT_CFG_EN 1).setF Reg.HNT_CFG_AUTH_REQ 0).setF Reg.HNT_STATUS_LINK_A 1).setF Reg.HNT_STATUS_PHASE 2).setF Reg.LDG_CFG_EN 1).setF Reg.HNT_SELF_ID_LO 4).setF Reg.HNT_PT_ID_LO 9 3).setF Reg.HNT_PT_STATE_STATE 2 3).setF Reg.HNT_PT_STATE_ROLE 2 3).setF Reg.CPC_CT_A_EN 1 0).setF Reg.CPC_CT_A_RACK 0 0).setF Reg.CPC_CT_B_CONTRACT 1200 0).setF Reg.CPC_CT_C_MAX 1500 0).setF Reg.CPC_SET_HALL 2000).cpc with setPay := some (contractPay (((((((((((((((({ State.reset with ldg := { State.reset.ldg with hall := { State.reset.ldg.hall with member := true, epoch := 5, term := 2, role := .leader, leader := some 4, members := [⟨4, 0, 3, 0, 0, 0⟩, ⟨9, 0, 3, 2, 0, 0⟩], log := [⟨1, 2, 1, 0, 0, []⟩], noop := 1, commit := 1 } }, hnt := { State.reset.hnt with pt := [(3, { id := 9, shelf := 2 })] } }).setF Reg.HNT_CFG_EN 1).setF Reg.HNT_CFG_AUTH_REQ 0).setF Reg.HNT_STATUS_LINK_A 1).setF Reg.HNT_STATUS_PHASE 2).setF Reg.LDG_CFG_EN 1).setF Reg.HNT_SELF_ID_LO 4).setF Reg.HNT_PT_ID_LO 9 3).setF Reg.HNT_PT_STATE_STATE 2 3).setF Reg.HNT_PT_STATE_ROLE 2 3).setF Reg.CPC_CT_A_EN 1 0).setF Reg.CPC_CT_A_RACK 0 0).setF Reg.CPC_CT_B_CONTRACT 1200 0).setF Reg.CPC_CT_C_MAX 1500 0).setF Reg.CPC_SET_HALL 2000).getF Reg.CPC_SET_HALL) ((((((((((((((({ State.reset with ldg := { State.reset.ldg with hall := { State.reset.ldg.hall with member := true, epoch := 5, term := 2, role := .leader, leader := some 4, members := [⟨4, 0, 3, 0, 0, 0⟩, ⟨9, 0, 3, 2, 0, 0⟩], log := [⟨1, 2, 1, 0, 0, []⟩], noop := 1, commit := 1 } }, hnt := { State.reset.hnt with pt := [(3, { id := 9, shelf := 2 })] } }).setF Reg.HNT_CFG_EN 1).setF Reg.HNT_CFG_AUTH_REQ 0).setF Reg.HNT_STATUS_LINK_A 1).setF Reg.HNT_STATUS_PHASE 2).setF Reg.LDG_CFG_EN 1).setF Reg.HNT_SELF_ID_LO 4).setF Reg.HNT_PT_ID_LO 9 3).setF Reg.HNT_PT_STATE_STATE 2 3).setF Reg.HNT_PT_STATE_ROLE 2 3).setF Reg.CPC_CT_A_EN 1 0).setF Reg.CPC_CT_A_RACK 0 0).setF Reg.CPC_CT_B_CONTRACT 1200 0).setF Reg.CPC_CT_C_MAX 1500 0).setF Reg.CPC_SET_HALL 2000).ownTable) } } etContract (contractPay (((((((((((((((({ State.reset with ldg := { State.reset.ldg with hall := { State.reset.ldg.hall with member := true, epoch := 5, term := 2, role := .leader, leader := some 4, members := [⟨4, 0, 3, 0, 0, 0⟩, ⟨9, 0, 3, 2, 0, 0⟩], log := [⟨1, 2, 1, 0, 0, []⟩], noop := 1, commit := 1 } }, hnt := { State.reset.hnt with pt := [(3, { id := 9, shelf := 2 })] } }).setF Reg.HNT_CFG_EN 1).setF Reg.HNT_CFG_AUTH_REQ 0).setF Reg.HNT_STATUS_LINK_A 1).setF Reg.HNT_STATUS_PHASE 2).setF Reg.LDG_CFG_EN 1).setF Reg.HNT_SELF_ID_LO 4).setF Reg.HNT_PT_ID_LO 9 3).setF Reg.HNT_PT_STATE_STATE 2 3).setF Reg.HNT_PT_STATE_ROLE 2 3).setF Reg.CPC_CT_A_EN 1 0).setF Reg.CPC_CT_A_RACK 0 0).setF Reg.CPC_CT_B_CONTRACT 1200 0).setF Reg.CPC_CT_C_MAX 1500 0).setF Reg.CPC_SET_HALL 2000).getF Reg.CPC_SET_HALL) ((((((((((((((({ State.reset with ldg := { State.reset.ldg with hall := { State.reset.ldg.hall with member := true, epoch := 5, term := 2, role := .leader, leader := some 4, members := [⟨4, 0, 3, 0, 0, 0⟩, ⟨9, 0, 3, 2, 0, 0⟩], log := [⟨1, 2, 1, 0, 0, []⟩], noop := 1, commit := 1 } }, hnt := { State.reset.hnt with pt := [(3, { id := 9, shelf := 2 })] } }).setF Reg.HNT_CFG_EN 1).setF Reg.HNT_CFG_AUTH_REQ 0).setF Reg.HNT_STATUS_LINK_A 1).setF Reg.HNT_STATUS_PHASE 2).setF Reg.LDG_CFG_EN 1).setF Reg.HNT_SELF_ID_LO 4).setF Reg.HNT_PT_ID_LO 9 3).setF Reg.HNT_PT_STATE_STATE 2 3).setF Reg.HNT_PT_STATE_ROLE 2 3).setF Reg.CPC_CT_A_EN 1 0).setF Reg.CPC_CT_A_RACK 0 0).setF Reg.CPC_CT_B_CONTRACT 1200 0).setF Reg.CPC_CT_C_MAX 1500 0).setF Reg.CPC_SET_HALL 2000).ownTable) 5000)) ∧
    ((fun (s : State) (slot k : Nat) (x : JobSlot) => (s.canonical = true) ∧ (k = slot) ∧ (k < 64) ∧ (Sparse.find s.cpc.jobs k = some x) ∧ (100 ≤ x.unnamed)) ((State.reset.setJob 3 (some { job := 7, n := 2, freq := 1500, unnamed := 100, limit := some 1400, quiet := 200, sens := 1 }))) 3 3 { job := 7, n := 2, freq := 1500, unnamed := 100, limit := some 1400, quiet := 200, sens := 1 }) ∧
    ((fun (s : State) (slot k : Nat) (x : JobSlot) => (s.canonical = true) ∧ (k = slot) ∧ (k < 64) ∧ (Sparse.find s.cpc.jobs k = some x) ∧ (x.limit.isSome = true) ∧ (max 1 (s.getF Reg.CPC_ORDER_LIMIT_CLEAR) ≤ x.quiet)) ((State.reset.setJob 3 (some { job := 7, n := 2, freq := 1500, unnamed := 100, limit := some 1400, quiet := 200, sens := 1 }))) 3 3 { job := 7, n := 2, freq := 1500, unnamed := 100, limit := some 1400, quiet := 200, sens := 1 }) ∧
    ((fun (s : State) => (s.canonical = true) ∧ (max 1 (s.getF Reg.CPC_RECON_CFG_RECON_COUNT) ≤ s.cpc.outside) ∧ (s.isF Reg.CPC_STATUS_MODEL_DRIFT = false)) (({ State.reset with cpc := { State.reset.cpc with outside := 70000 }, frame := 6000 }))) ∧
    ((fun (s : State) => (s.canonical = true) ∧ (s.cpc.setPay.isSome = true)) (({ State.reset with cpc := { State.reset.cpc with setPay := some [] }, frame := 6000 }))) ∧
    ((fun (s : State) => (s.canonical = true) ∧ (s.cpc.setPay = none)) (({ State.reset with cpc := { State.reset.cpc with outside := 70000 }, frame := 6000 }).setF Reg.CPC_STATUS_MODEL_DRIFT 1)) ∧
    ((fun (s : State) (now g : Nat) => (s.cpc.pendingGrant = some g) ∧ (s.frameTime g + 5000000 < now)) (({ State.reset with cpc := { State.reset.cpc with pendingGrant := some 1000 }, frame := 6000 })) 150000001 1000) ∧
    ((fun (s : State) (now : Nat) => (s.cpc.pendingGrant.all (fun (g : Nat) => decide (now ≤ s.frameTime g + 5000000)) = true)) (({ State.reset with cpc := { State.reset.cpc with pendingGrant := some 1000 }, frame := 6000 })) 5000000) ∧
    ((fun (s : State) (h : HallEntry) => (s.canonical = true) ∧ (s.cpc.hallEntry = some h) ∧ (h.expiry ≤ s.frame) ∧ (s.getF Reg.CPC_CONTRACT < s.getF Reg.CPC_CEILING)) ((((({ State.reset with cpc := { State.reset.cpc with hallEntry := some ⟨9, 100, 5000, []⟩ }, frame := 6000 }).setF Reg.CPC_CONTRACT 1000).setF Reg.CPC_CEILING 1200).setF Reg.CPC_LOAN 200)) ⟨9, 100, 5000, []⟩) ∧
    ((fun (s : State) (h : HallEntry) => (s.canonical = true) ∧ (s.cpc.hallEntry = some h) ∧ (h.expiry + max 1 (s.getF Reg.CPC_HALL_CFG_LOAN_GUARD) * 100000 ≤ s.frame) ∧ (s.getF Reg.CPC_CEILING < s.getF Reg.CPC_CONTRACT)) (((({ State.reset with cpc := { State.reset.cpc with hallEntry := some ⟨9, 100, 5000, []⟩ }, frame := 9900000 }).setF Reg.CPC_CONTRACT 1000).setF Reg.CPC_CEILING 900)) ⟨9, 100, 5000, []⟩) ∧
    ((fun (s : State) (now : Nat) => (s.canonical = true) ∧ (s.cpc.setPay.isSome = true)) (({ State.reset with cpc := { State.reset.cpc with setPay := some [] }, frame := 6000 })) 5000) ∧
    ((fun (s : State) (now : Nat) => (s.canonical = true) ∧ (s.cpc.setPay = none) ∧ (s.getF Reg.CPC_SET_HALL < ((s.ownTable.map fun (x : Nat × Nat × Nat) => x.2.1).foldl (· + ·) 0))) (((((State.reset.setF Reg.CPC_CT_A_EN 1 0).setF Reg.CPC_CT_A_RACK 0 0).setF Reg.CPC_CT_B_CONTRACT 1200 0).setF Reg.CPC_CT_C_MAX 1500 0)) 5000) ∧
    ((fun (s : State) (now : Nat) => (s.canonical = true) ∧ (s.cpc.setPay = none) ∧ (((s.ownTable.map fun (x : Nat × Nat × Nat) => x.2.1).foldl (· + ·) 0) ≤ s.getF Reg.CPC_SET_HALL) ∧ ((s.ownTable.map Prod.fst).dedup.length ≠ s.ownTable.length ∨ (s.ownTable.any fun (x : Nat × Nat × Nat) => decide (x.2.2 < x.2.1)) = true)) (((((((State.reset.setF Reg.CPC_CT_A_EN 1 0).setF Reg.CPC_CT_A_RACK 0 0).setF Reg.CPC_CT_B_CONTRACT 1200 0).setF Reg.CPC_CT_C_MAX 1500 0).setF Reg.CPC_CT_C_MAX 1100 0).setF Reg.CPC_SET_HALL 2000)) 5000) ∧
    ((fun (s : State) (now : Nat) => (s.canonical = true) ∧ (s.cpc.setPay = none) ∧ (((s.ownTable.map fun (x : Nat × Nat × Nat) => x.2.1).foldl (· + ·) 0) ≤ s.getF Reg.CPC_SET_HALL) ∧ ((s.ownTable.map Prod.fst).dedup.length = s.ownTable.length) ∧ ((s.ownTable.any fun (x : Nat × Nat × Nat) => decide (x.2.2 < x.2.1)) = false) ∧ (s.ldg.hall.member = false ∨ s.ldg.hall.leader = none)) ((((((State.reset.setF Reg.CPC_CT_A_EN 1 0).setF Reg.CPC_CT_A_RACK 0 0).setF Reg.CPC_CT_B_CONTRACT 1200 0).setF Reg.CPC_CT_C_MAX 1500 0).setF Reg.CPC_SET_HALL 2000)) 5000) ∧
    ((fun (s : State) (now l : Nat) => (s.canonical = true) ∧ (s.cpc.setPay = none) ∧ (((s.ownTable.map fun (x : Nat × Nat × Nat) => x.2.1).foldl (· + ·) 0) ≤ s.getF Reg.CPC_SET_HALL) ∧ ((s.ownTable.map Prod.fst).dedup.length = s.ownTable.length) ∧ ((s.ownTable.any fun (x : Nat × Nat × Nat) => decide (x.2.2 < x.2.1)) = false) ∧ (s.ldg.hall.member = true) ∧ (s.ldg.hall.leader = some l) ∧ (s.ldg.hall.leads = false) ∧ (s.ledgerSpeaks = true)) (((((((((((((((({ State.reset with ldg := { State.reset.ldg with hall := { State.reset.ldg.hall with member := true, epoch := 5, term := 2, leader := some 9, members := [⟨4, 0, 2, 0, 0, 0⟩, ⟨9, 0, 2, 2, 0, 0⟩] } }, hnt := { State.reset.hnt with pt := [(3, { id := 9, shelf := 2 })] } }).setF Reg.HNT_CFG_EN 1).setF Reg.HNT_CFG_AUTH_REQ 0).setF Reg.HNT_STATUS_LINK_A 1).setF Reg.HNT_STATUS_PHASE 2).setF Reg.LDG_CFG_EN 1).setF Reg.HNT_SELF_ID_LO 4).setF Reg.HNT_PT_ID_LO 9 3).setF Reg.HNT_PT_STATE_STATE 2 3).setF Reg.HNT_PT_STATE_ROLE 2 3).setF Reg.CPC_CT_A_EN 1 0).setF Reg.CPC_CT_A_RACK 0 0).setF Reg.CPC_CT_B_CONTRACT 1200 0).setF Reg.CPC_CT_C_MAX 1500 0).setF Reg.CPC_SET_HALL 2000)) 5000 9) ∧
    ((fun (s : State) (now : Nat) (c : Contract) (u : State) => (s.canonical = true) ∧ (s.ldg.hall.leads = true) ∧ (s.frame % s.hallFrames = 0) ∧ (s.cpc.nextContract = none) ∧ (s.cpc.contract = some c) ∧ (u = s.appendHall etHall (hallPay (s.frame + 1000) (s.frame + 1000 + min 15 (max 2 (s.getF Reg.CPC_HALL_CFG_LOAN_TERM)) * 100000) (hallShares c.hall (s.getF Reg.CPC_HALL_CFG_LEND_MARGIN) c.racks (s.cpc.reports.filter fun (r : RackReport) => decide (s.frame ≤ r.frame + 3 * s.hallFrames)))) now) ∧ (u.rackQuiet = true)) ((((((((((({ State.reset with ldg := { State.reset.ldg with hall := { State.reset.ldg.hall with member := true, epoch := 5, term := 2, role := .leader, leader := some 4, members := [⟨4, 0, 3, 0, 0, 0⟩, ⟨9, 0, 3, 2, 0, 0⟩], log := [⟨1, 2, 1, 0, 0, []⟩], noop := 1, commit := 1 } }, hnt := { State.reset.hnt with pt := [(3, { id := 9, shelf := 2 })] }, frame := 0, cpc := { State.reset.cpc with contract := some ⟨3, 2400, [(0, 1200, 1500)]⟩ } }).setF Reg.HNT_CFG_EN 1).setF Reg.HNT_CFG_AUTH_REQ 0).setF Reg.HNT_STATUS_LINK_A 1).setF Reg.HNT_STATUS_PHASE 2).setF Reg.LDG_CFG_EN 1).setF Reg.HNT_SELF_ID_LO 4).setF Reg.HNT_PT_ID_LO 9 3).setF Reg.HNT_PT_STATE_STATE 2 3).setF Reg.HNT_PT_STATE_ROLE 2 3)) 5000 ⟨3, 2400, [(0, 1200, 1500)]⟩ ((((((((((({ State.reset with ldg := { State.reset.ldg with hall := { State.reset.ldg.hall with member := true, epoch := 5, term := 2, role := .leader, leader := some 4, members := [⟨4, 0, 3, 0, 0, 0⟩, ⟨9, 0, 3, 2, 0, 0⟩], log := [⟨1, 2, 1, 0, 0, []⟩], noop := 1, commit := 1 } }, hnt := { State.reset.hnt with pt := [(3, { id := 9, shelf := 2 })] }, frame := 0, cpc := { State.reset.cpc with contract := some ⟨3, 2400, [(0, 1200, 1500)]⟩ } }).setF Reg.HNT_CFG_EN 1).setF Reg.HNT_CFG_AUTH_REQ 0).setF Reg.HNT_STATUS_LINK_A 1).setF Reg.HNT_STATUS_PHASE 2).setF Reg.LDG_CFG_EN 1).setF Reg.HNT_SELF_ID_LO 4).setF Reg.HNT_PT_ID_LO 9 3).setF Reg.HNT_PT_STATE_STATE 2 3).setF Reg.HNT_PT_STATE_ROLE 2 3).appendHall etHall (hallPay 1000 (1000 + min 15 (max 2 (State.reset.getF Reg.CPC_HALL_CFG_LOAN_TERM)) * 100000) (hallShares 2400 (State.reset.getF Reg.CPC_HALL_CFG_LEND_MARGIN) [(0, 1200, 1500)] [])) 5000)) ∧
    ((fun (s : State) (now : Nat) (u : State) => (s.canonical = true) ∧ (s.ldg.hall.leads = true) ∧ (s.frame % s.hallFrames = 0) ∧ (s.cpc.nextContract = none) ∧ (s.cpc.contract = none) ∧ (s.ldg.hall.waits etContract (fun _ => true) = false) ∧ (Sparse.find s.ldg.hall.latest etContract = none) ∧ (((s.ownTable.map fun (x : Nat × Nat × Nat) => x.2.1).foldl (· + ·) 0) ≤ s.getF Reg.CPC_SET_HALL) ∧ ((s.ownTable.map Prod.fst).dedup.length = s.ownTable.length) ∧ ((s.ownTable.any fun (x : Nat × Nat × Nat) => decide (x.2.2 < x.2.1)) = false) ∧ (u = s.appendHall etContract (contractPay (s.getF Reg.CPC_SET_HALL) s.ownTable) now) ∧ (u.rackQuiet = true)) ((((((((((({ State.reset with ldg := { State.reset.ldg with hall := { State.reset.ldg.hall with member := true, epoch := 5, term := 2, role := .leader, leader := some 4, members := [⟨4, 0, 3, 0, 0, 0⟩, ⟨9, 0, 3, 2, 0, 0⟩], log := [⟨1, 2, 1, 0, 0, []⟩], noop := 1, commit := 1 } }, hnt := { State.reset.hnt with pt := [(3, { id := 9, shelf := 2 })] } }).setF Reg.HNT_CFG_EN 1).setF Reg.HNT_CFG_AUTH_REQ 0).setF Reg.HNT_STATUS_LINK_A 1).setF Reg.HNT_STATUS_PHASE 2).setF Reg.LDG_CFG_EN 1).setF Reg.HNT_SELF_ID_LO 4).setF Reg.HNT_PT_ID_LO 9 3).setF Reg.HNT_PT_STATE_STATE 2 3).setF Reg.HNT_PT_STATE_ROLE 2 3)) 5000 ((((((((((({ State.reset with ldg := { State.reset.ldg with hall := { State.reset.ldg.hall with member := true, epoch := 5, term := 2, role := .leader, leader := some 4, members := [⟨4, 0, 3, 0, 0, 0⟩, ⟨9, 0, 3, 2, 0, 0⟩], log := [⟨1, 2, 1, 0, 0, []⟩], noop := 1, commit := 1 } }, hnt := { State.reset.hnt with pt := [(3, { id := 9, shelf := 2 })] } }).setF Reg.HNT_CFG_EN 1).setF Reg.HNT_CFG_AUTH_REQ 0).setF Reg.HNT_STATUS_LINK_A 1).setF Reg.HNT_STATUS_PHASE 2).setF Reg.LDG_CFG_EN 1).setF Reg.HNT_SELF_ID_LO 4).setF Reg.HNT_PT_ID_LO 9 3).setF Reg.HNT_PT_STATE_STATE 2 3).setF Reg.HNT_PT_STATE_ROLE 2 3).appendHall etContract (contractPay (State.reset.getF Reg.CPC_SET_HALL) []) 5000)) := by
  repeat refine And.intro (by decide +kernel) ?_
  decide +kernel

theorem test_meets_LedgerMessagesAreHeard :
    ((fun (s : State) (port now : Nat) (message : List Byte) (frame : List Byte) => (s.datagram port s.ledgerPort frame = some message) ∧ (s.ldgTake 1 port message = none)) ((State.reset.setF Reg.HNT_SELF_ID_LO 4)) 0 5000 (beBytes 60 0x414C01010000003C00000000000000090000000000000002000000050000000000000000000000000000000000000000000000000000000000000000) (beBytes 122 0x00000000000000000000000086DD60000000004411FFFE800000000000000000000000000009FE800000000000000000000000000004B8A1B8A100444E7B414C01010000003C00000000000000090000000000000002000000050000000000000000000000000000000000000000000000000000000000000000)) ∧
    ((fun (s : State) (port now : Nat) (message : List Byte) (frame : List Byte) => (s.datagram port s.ledgerPort frame = some message) ∧ (s.ldgTake 2 port message = none)) ((State.reset.setF Reg.HNT_SELF_ID_LO 4)) 0 5000 (beBytes 48 0x414C01020000003000000000000000090000000000000002000000050000000000000000000000000000000000000000) (beBytes 110 0x00000000000000000000000086DD60000000003811FFFE800000000000000000000000000009FE800000000000000000000000000004B8A1B8A100384E9E414C01020000003000000000000000090000000000000002000000050000000000000000000000000000000000000000)) ∧
    ((fun (s : State) (port now : Nat) (message : List Byte) (frame : List Byte) => (s.datagram port s.ledgerPort frame = some message) ∧ (s.ldgTake 3 port message = none)) ((State.reset.setF Reg.HNT_SELF_ID_LO 4)) 0 5000 (beBytes 40 0x414C0103000000280000000000000009000000000000000200000005000000000000000000000000) (beBytes 102 0x00000000000000000000000086DD60000000003011FFFE800000000000000000000000000009FE800000000000000000000000000004B8A1B8A100304EB5414C0103000000280000000000000009000000000000000200000005000000000000000000000000)) ∧
    ((fun (s : State) (port now : Nat) (message : List Byte) (frame : List Byte) => (s.datagram port s.ledgerPort frame = some message) ∧ (s.ldgTake 4 port message = none)) ((State.reset.setF Reg.HNT_SELF_ID_LO 4)) 0 5000 (beBytes 32 0x414C010400000020000000000000000900000000000000020000000500000000) (beBytes 94 0x00000000000000000000000086DD60000000002811FFFE800000000000000000000000000009FE800000000000000000000000000004B8A1B8A100284ECC414C010400000020000000000000000900000000000000020000000500000000)) ∧
    ((fun (s : State) (port now : Nat) (message : List Byte) (frame : List Byte) => (s.datagram port s.ledgerPort frame = some message) ∧ (s.ldgTake 5 port message = none)) ((State.reset.setF Reg.HNT_SELF_ID_LO 4)) 0 5000 (beBytes 32 0x414C010500000020000000000000000900000000000000020000000500000000) (beBytes 94 0x00000000000000000000000086DD60000000002811FFFE800000000000000000000000000009FE800000000000000000000000000004B8A1B8A100284ECB414C010500000020000000000000000900000000000000020000000500000000)) ∧
    ((fun (s : State) (port now : Nat) (message : List Byte) (frame : List Byte) => (s.datagram port s.ledgerPort frame = some message) ∧ (s.ldgTake 7 port message = none)) ((State.reset.setF Reg.HNT_SELF_ID_LO 4)) 0 5000 (beBytes 36 0x414C01070000002400000000000000090000000000000002000000050000000000000000) (beBytes 98 0x00000000000000000000000086DD60000000002C11FFFE800000000000000000000000000009FE800000000000000000000000000004B8A1B8A1002C4EBD414C01070000002400000000000000090000000000000002000000050000000000000000)) ∧
    ((fun (s : State) (port now : Nat) (message : List Byte) (frame : List Byte) => (s.datagram port s.ledgerPort frame = some message) ∧ (s.ldgTake 8 port message = none)) ((State.reset.setF Reg.HNT_SELF_ID_LO 4)) 0 5000 (beBytes 48 0x414C01080000003000000000000000090000000000000002000000050000000000000000000000000000000000000000) (beBytes 110 0x00000000000000000000000086DD60000000003811FFFE800000000000000000000000000009FE800000000000000000000000000004B8A1B8A100384E98414C01080000003000000000000000090000000000000002000000050000000000000000000000000000000000000000)) ∧
    ((fun (s : State) (port now : Nat) (message : List Byte) (frame : List Byte) => (s.datagram port s.ledgerPort frame = some message) ∧ (s.ldgTake 9 port message = none)) ((State.reset.setF Reg.HNT_SELF_ID_LO 4)) 0 5000 (beBytes 36 0x414C01090000002400000000000000090000000000000002000000050000000000000000) (beBytes 98 0x00000000000000000000000086DD60000000002C11FFFE800000000000000000000000000009FE800000000000000000000000000004B8A1B8A1002C4EBB414C01090000002400000000000000090000000000000002000000050000000000000000)) ∧
    ((fun (s : State) (port now : Nat) (message : List Byte) (frame : List Byte) => (s.datagram port s.ledgerPort frame = some message) ∧ (s.ldgTake 10 port message = none)) ((State.reset.setF Reg.HNT_SELF_ID_LO 4)) 0 5000 (beBytes 40 0x414C010A000000280000000000000009000000000000000200000005000000000000000000000000) (beBytes 102 0x00000000000000000000000086DD60000000003011FFFE800000000000000000000000000009FE800000000000000000000000000004B8A1B8A100304EAE414C010A000000280000000000000009000000000000000200000005000000000000000000000000)) ∧
    ((fun (s : State) (port now : Nat) (message : List Byte) (frame : List Byte) => (s.datagram port s.ledgerPort frame = some message) ∧ (s.ldgTake 11 port message = none)) ((State.reset.setF Reg.HNT_SELF_ID_LO 4)) 0 5000 (beBytes 48 0x414C010B0000003000000000000000090000000000000002000000050000000000000000000000000000000000000000) (beBytes 110 0x00000000000000000000000086DD60000000003811FFFE800000000000000000000000000009FE800000000000000000000000000004B8A1B8A100384E95414C010B0000003000000000000000090000000000000002000000050000000000000000000000000000000000000000)) ∧
    ((fun (s : State) (port now : Nat) (message : List Byte) (frame : List Byte) => (s.datagram port s.ledgerPort frame = some message) ∧ (s.ldgTake 12 port message = none)) ((State.reset.setF Reg.HNT_SELF_ID_LO 4)) 0 5000 (beBytes 32 0x414C010C00000020000000000000000900000000000000020000000500000000) (beBytes 94 0x00000000000000000000000086DD60000000002811FFFE800000000000000000000000000009FE800000000000000000000000000004B8A1B8A100284EC4414C010C00000020000000000000000900000000000000020000000500000000)) ∧
    ((fun (s : State) (port now : Nat) (message : List Byte) (frame : List Byte) => (s.datagram port s.ledgerPort frame = some message) ∧ (s.ldgTake 13 port message = none)) ((State.reset.setF Reg.HNT_SELF_ID_LO 4)) 0 5000 (beBytes 40 0x414C010D000000280000000000000009000000000000000200000005000000000000000000000000) (beBytes 102 0x00000000000000000000000086DD60000000003011FFFE800000000000000000000000000009FE800000000000000000000000000004B8A1B8A100304EAB414C010D000000280000000000000009000000000000000200000005000000000000000000000000)) ∧
    ((fun (s : State) (port now : Nat) (message : List Byte) (frame : List Byte) => (s.datagram port s.ledgerPort frame = some message) ∧ (s.ldgTake 6 port message = none)) ((State.reset.setF Reg.HNT_SELF_ID_LO 4)) 0 5000 (beBytes 44 0x414C01060000002C000000000000000900000000000000020000000500000000000000000000000000000000) (beBytes 106 0x00000000000000000000000086DD60000000003411FFFE800000000000000000000000000009FE800000000000000000000000000004B8A1B8A100344EA6414C01060000002C000000000000000900000000000000020000000500000000000000000000000000000000)) ∧
    ((fun (s : State) (port now : Nat) (frame : List Byte) => (s.datagram port s.ledgerPort frame = none)) (State.reset) 0 5000 (beBytes 64 0x00000000000000000000000081000000000000000000000000000000000000000000000000000000000000000000000000000000000000000000000000000000)) ∧
    ((fun (s : State) (port now : Nat) (frame : List Byte) => (s.datagram port s.ledgerPort frame = none)) (State.reset) 0 5000 (beBytes 64 0x00000000000000000000000081000000000000000000000000000000000000000000000000000000000000000000000000000000000000000000000000000000)) ∧
    ((fun (s : State) (port now : Nat) (frame : List Byte) => (s.datagram port s.ledgerPort frame = none)) (State.reset) 0 5000 (beBytes 64 0x00000000000000000000000081000000000000000000000000000000000000000000000000000000000000000000000000000000000000000000000000000000)) ∧
    ((fun (s : State) (port now : Nat) (frame : List Byte) => (s.datagram port s.ledgerPort frame = none)) (State.reset) 0 5000 (beBytes 64 0x00000000000000000000000081000000000000000000000000000000000000000000000000000000000000000000000000000000000000000000000000000000)) ∧
    ((fun (s : State) (port now : Nat) (frame : List Byte) => (s.datagram port s.ledgerPort frame = none)) (State.reset) 0 5000 (beBytes 64 0x00000000000000000000000081000000000000000000000000000000000000000000000000000000000000000000000000000000000000000000000000000000)) ∧
    ((fun (s : State) (port now : Nat) (frame : List Byte) => (s.datagram port s.ledgerPort frame = none)) (State.reset) 0 5000 (beBytes 64 0x00000000000000000000000081000000000000000000000000000000000000000000000000000000000000000000000000000000000000000000000000000000)) ∧
    ((fun (s : State) (port now : Nat) (frame : List Byte) => (s.datagram port s.ledgerPort frame = none)) (State.reset) 0 5000 (beBytes 64 0x00000000000000000000000081000000000000000000000000000000000000000000000000000000000000000000000000000000000000000000000000000000)) ∧
    ((fun (s : State) (port now : Nat) (frame : List Byte) => (s.datagram port s.ledgerPort frame = none)) (State.reset) 0 5000 (beBytes 64 0x00000000000000000000000081000000000000000000000000000000000000000000000000000000000000000000000000000000000000000000000000000000)) ∧
    ((fun (s : State) (port now : Nat) (frame : List Byte) => (s.datagram port s.ledgerPort frame = none)) (State.reset) 0 5000 (beBytes 64 0x00000000000000000000000081000000000000000000000000000000000000000000000000000000000000000000000000000000000000000000000000000000)) ∧
    ((fun (s : State) (port now : Nat) (frame : List Byte) => (s.datagram port s.ledgerPort frame = none)) (State.reset) 0 5000 (beBytes 64 0x00000000000000000000000081000000000000000000000000000000000000000000000000000000000000000000000000000000000000000000000000000000)) ∧
    ((fun (s : State) (port now : Nat) (frame : List Byte) => (s.datagram port s.ledgerPort frame = none)) (State.reset) 0 5000 (beBytes 64 0x00000000000000000000000081000000000000000000000000000000000000000000000000000000000000000000000000000000000000000000000000000000)) ∧
    ((fun (s : State) (port now : Nat) (frame : List Byte) => (s.datagram port s.ledgerPort frame = none)) (State.reset) 0 5000 (beBytes 64 0x00000000000000000000000081000000000000000000000000000000000000000000000000000000000000000000000000000000000000000000000000000000)) ∧
    ((fun (s : State) (port now : Nat) (frame : List Byte) => (s.datagram port s.ledgerPort frame = none)) (State.reset) 0 5000 (beBytes 64 0x00000000000000000000000081000000000000000000000000000000000000000000000000000000000000000000000000000000000000000000000000000000)) ∧
    ((fun (s : State) (port now : Nat) (message : List Byte) (m : LdgMsg) (es : List LdgEntry) (frame : List Byte) => (s.canonical = true) ∧ (s.datagram port s.ledgerPort frame = some message) ∧ (s.ledgerHears 1 port message m = true) ∧ (m.group = 0) ∧ (s.ledgerSpeaks = true) ∧ (s.ldg.rack.leader = some m.sender) ∧ (s.ldg.rack.seen ≠ some (m.sender, beAt m.body 20 8, beAt m.body 28 1)) ∧ (beAt m.body 29 1 ≤ 1) ∧ (parseEntries ((m.body.drop 32).length + 1) (m.body.drop 32) = some es) ∧ (beAt m.body 0 8 < s.ldg.rack.base.1 ∨ s.ldg.rack.termAt (beAt m.body 0 8) = some (beAt m.body 8 4)) ∧ (beAt m.body 12 8 ≤ s.ldg.rack.commit)) ((((((((((({ State.reset with ldg := { State.reset.ldg with rack := { State.reset.ldg.rack with member := true, epoch := 5, term := 2, leader := some 9, members := [⟨4, 0, 2, 0, 0, 0⟩, ⟨9, 0, 2, 2, 0, 0⟩] } }, hnt := { State.reset.hnt with pt := [(3, { id := 9, shelf := 2 })] } }).setF Reg.HNT_CFG_EN 1).setF Reg.HNT_CFG_AUTH_REQ 0).setF Reg.HNT_STATUS_LINK_A 1).setF Reg.HNT_STATUS_PHASE 2).setF Reg.LDG_CFG_EN 1).setF Reg.HNT_SELF_ID_LO 4).setF Reg.HNT_PT_ID_LO 9 3).setF Reg.HNT_PT_STATE_STATE 2 3).setF Reg.HNT_PT_STATE_ROLE 2 3)) 0 5000 (beBytes 60 0x414C01010000003C00000000000000090000000000000002000000050000000000000000000000000000000000000000000000000000004D00010000) ⟨1, 0, 9, 0, 2, 5, (beBytes 32 0x0000000000000000000000000000000000000000000000000000004D00010000)⟩ [] (beBytes 122 0x00000000000000000000000086DD60000000004411FFFE800000000000000000000000000009FE800000000000000000000000000004B8A1B8A100444E2D414C01010000003C00000000000000090000000000000002000000050000000000000000000000000000000000000000000000000000004D00010000)) ∧
    ((fun (s : State) (port now : Nat) (message : List Byte) (m : LdgMsg) (frame : List Byte) => (s.canonical = true) ∧ (s.datagram port s.ledgerPort frame = some message) ∧ (s.ldgTake 1 port message = some m) ∧ (m.group = 0) ∧ (m.epoch = s.ldg.rack.epoch) ∧ (s.ldgStale m = true) ∧ (s.rackQuiet = true) ∧ (s.ledgerSpeaks = true)) ((((((((((({ State.reset with ldg := { State.reset.ldg with rack := { State.reset.ldg.rack with member := true, epoch := 5, term := 2, leader := some 9, members := [⟨4, 0, 2, 0, 0, 0⟩, ⟨9, 0, 2, 2, 0, 0⟩] } }, hnt := { State.reset.hnt with pt := [(3, { id := 9, shelf := 2 })] } }).setF Reg.HNT_CFG_EN 1).setF Reg.HNT_CFG_AUTH_REQ 0).setF Reg.HNT_STATUS_LINK_A 1).setF Reg.HNT_STATUS_PHASE 2).setF Reg.LDG_CFG_EN 1).setF Reg.HNT_SELF_ID_LO 4).setF Reg.HNT_PT_ID_LO 9 3).setF Reg.HNT_PT_STATE_STATE 2 3).setF Reg.HNT_PT_STATE_ROLE 2 3)) 0 5000 (beBytes 60 0x414C01010000003C00000000000000090000000000000001000000050000000000000000000000000000000000000000000000000000004D00010000) ⟨1, 0, 9, 0, 1, 5, (beBytes 32 0x0000000000000000000000000000000000000000000000000000004D00010000)⟩ (beBytes 122 0x00000000000000000000000086DD60000000004411FFFE800000000000000000000000000009FE800000000000000000000000000004B8A1B8A100444E2E414C01010000003C00000000000000090000000000000001000000050000000000000000000000000000000000000000000000000000004D00010000)) ∧
    ((fun (s : State) (port now : Nat) (message : List Byte) (m : LdgMsg) (old : Nat × Nat × Nat) (u : State) (frame : List Byte) => (s.canonical = true) ∧ (s.datagram port s.ledgerPort frame = some message) ∧ (s.ledgerHears 2 port message m = true) ∧ (m.group = 0) ∧ (s.ldg.rack.role = LdgRole.leader) ∧ (beAt m.body 16 1 = 1) ∧ (old = (Sparse.find s.ldg.rack.acks m.sender).getD (0, 0, 0)) ∧ (s.ldg.syncs = []) ∧ (u = (s.setGrp 0 { s.ldg.rack with acks := Sparse.insert s.ldg.rack.acks m.sender (max old.1 (beAt m.body 0 8), max old.2.1 (beAt m.body 8 8), now) }).showLease 0 now) ∧ (u.rackQuiet = true)) ((((((((((({ State.reset with ldg := { State.reset.ldg with rack := { State.reset.ldg.rack with member := true, epoch := 5, term := 2, role := .leader, leader := some 4, members := [⟨4, 0, 2, 0, 0, 0⟩, ⟨9, 0, 2, 2, 0, 0⟩], log := [⟨1, 2, 1, 0, 0, []⟩], noop := 1, commit := 1 } }, hnt := { State.reset.hnt with pt := [(3, { id := 9, shelf := 2 })] } }).setF Reg.HNT_CFG_EN 1).setF Reg.HNT_CFG_AUTH_REQ 0).setF Reg.HNT_STATUS_LINK_A 1).setF Reg.HNT_STATUS_PHASE 2).setF Reg.LDG_CFG_EN 1).setF Reg.HNT_SELF_ID_LO 4).setF Reg.HNT_PT_ID_LO 9 3).setF Reg.HNT_PT_STATE_STATE 2 3).setF Reg.HNT_PT_STATE_ROLE 2 3)) 0 5000 (beBytes 48 0x414C01020000003000000000000000090000000000000002000000050000000000000001000000000000012C01000000) ⟨2, 0, 9, 0, 2, 5, (beBytes 20 0x0000000000000001000000000000012C01000000)⟩ (0, 0, 0) ((((((((((((({ State.reset with ldg := { State.reset.ldg with rack := { State.reset.ldg.rack with member := true, epoch := 5, term := 2, role := .leader, leader := some 4, members := [⟨4, 0, 2, 0, 0, 0⟩, ⟨9, 0, 2, 2, 0, 0⟩], log := [⟨1, 2, 1, 0, 0, []⟩], noop := 1, commit := 1 } }, hnt := { State.reset.hnt with pt := [(3, { id := 9, shelf := 2 })] } }).setF Reg.HNT_CFG_EN 1).setF Reg.HNT_CFG_AUTH_REQ 0).setF Reg.HNT_STATUS_LINK_A 1).setF Reg.HNT_STATUS_PHASE 2).setF Reg.LDG_CFG_EN 1).setF Reg.HNT_SELF_ID_LO 4).setF Reg.HNT_PT_ID_LO 9 3).setF Reg.HNT_PT_STATE_STATE 2 3).setF Reg.HNT_PT_STATE_ROLE 2 3).setGrp 0 { ((((((((((({ State.reset with ldg := { State.reset.ldg with rack := { State.reset.ldg.rack with member := true, epoch := 5, term := 2, role := .leader, leader := some 4, members := [⟨4, 0, 2, 0, 0, 0⟩, ⟨9, 0, 2, 2, 0, 0⟩], log := [⟨1, 2, 1, 0, 0, []⟩], noop := 1, commit := 1 } }, hnt := { State.reset.hnt with pt := [(3, { id := 9, shelf := 2 })] } }).setF Reg.HNT_CFG_EN 1).setF Reg.HNT_CFG_AUTH_REQ 0).setF Reg.HNT_STATUS_LINK_A 1).setF Reg.HNT_STATUS_PHASE 2).setF Reg.LDG_CFG_EN 1).setF Reg.HNT_SELF_ID_LO 4).setF Reg.HNT_PT_ID_LO 9 3).setF Reg.HNT_PT_STATE_STATE 2 3).setF Reg.HNT_PT_STATE_ROLE 2 3).grp 0) with acks := [(9, (1, 300, 5000))] })).showLease 0 5000) (beBytes 110 0x00000000000000000000000086DD60000000003811FFFE800000000000000000000000000009FE800000000000000000000000000004B8A1B8A100384C71414C01020000003000000000000000090000000000000002000000050000000000000001000000000000012C01000000)) ∧
    ((fun (s : State) (port now : Nat) (message : List Byte) (m : LdgMsg) (frame : List Byte) => (s.canonical = true) ∧ (s.datagram port s.ledgerPort frame = some message) ∧ (s.ledgerHears 3 port message m = true) ∧ (m.group = 0) ∧ (s.ledgerSpeaks = true) ∧ (s.mayVote 0 = true) ∧ (s.ldg.rack.voted = none) ∧ (s.ldg.rack.heard = none) ∧ (s.ldg.rack.last.2 < beAt m.body 8 4 ∨ (s.ldg.rack.last.2 = beAt m.body 8 4 ∧ s.ldg.rack.last.1 ≤ beAt m.body 0 8)) ∧ (s.ldg.rack.role ≠ LdgRole.leader)) ((((((((((({ State.reset with ldg := { State.reset.ldg with rack := { State.reset.ldg.rack with member := true, epoch := 5, term := 2, leader := some 9, members := [⟨4, 0, 2, 0, 0, 0⟩, ⟨9, 0, 2, 2, 0, 0⟩] } }, hnt := { State.reset.hnt with pt := [(3, { id := 9, shelf := 2 })] } }).setF Reg.HNT_CFG_EN 1).setF Reg.HNT_CFG_AUTH_REQ 0).setF Reg.HNT_STATUS_LINK_A 1).setF Reg.HNT_STATUS_PHASE 2).setF Reg.LDG_CFG_EN 1).setF Reg.HNT_SELF_ID_LO 4).setF Reg.HNT_PT_ID_LO 9 3).setF Reg.HNT_PT_STATE_STATE 2 3).setF Reg.HNT_PT_STATE_ROLE 2 3)) 0 5000 (beBytes 40 0x414C0103000000280000000000000009000000000000000200000005000000000000000100000002) ⟨3, 0, 9, 0, 2, 5, (beBytes 12 0x000000000000000100000002)⟩ (beBytes 102 0x00000000000000000000000086DD60000000003011FFFE800000000000000000000000000009FE800000000000000000000000000004B8A1B8A100304EB2414C0103000000280000000000000009000000000000000200000005000000000000000100000002)) ∧
    ((fun (s : State) (port now : Nat) (message : List Byte) (m : LdgMsg) (frame : List Byte) => (s.canonical = true) ∧ (s.datagram port s.ledgerPort frame = some message) ∧ (s.ledgerHears 3 port message m = true) ∧ (m.group = 0) ∧ (s.ledgerSpeaks = true) ∧ (s.ldg.rack.voted ≠ none) ∧ (s.ldg.rack.role ≠ LdgRole.leader)) ((((((((((({ State.reset with ldg := { State.reset.ldg with rack := { State.reset.ldg.rack with member := true, epoch := 5, term := 2, voted := some 9, members := [⟨4, 0, 2, 0, 0, 0⟩, ⟨9, 0, 2, 2, 0, 0⟩] } }, hnt := { State.reset.hnt with pt := [(3, { id := 9, shelf := 2 })] } }).setF Reg.HNT_CFG_EN 1).setF Reg.HNT_CFG_AUTH_REQ 0).setF Reg.HNT_STATUS_LINK_A 1).setF Reg.HNT_STATUS_PHASE 2).setF Reg.LDG_CFG_EN 1).setF Reg.HNT_SELF_ID_LO 4).setF Reg.HNT_PT_ID_LO 9 3).setF Reg.HNT_PT_STATE_STATE 2 3).setF Reg.HNT_PT_STATE_ROLE 2 3)) 0 5000 (beBytes 40 0x414C0103000000280000000000000009000000000000000200000005000000000000000100000002) ⟨3, 0, 9, 0, 2, 5, (beBytes 12 0x000000000000000100000002)⟩ (beBytes 102 0x00000000000000000000000086DD60000000003011FFFE800000000000000000000000000009FE800000000000000000000000000004B8A1B8A100304EB2414C0103000000280000000000000009000000000000000200000005000000000000000100000002)) ∧
    ((fun (s : State) (port now : Nat) (message : List Byte) (m : LdgMsg) (frame : List Byte) => (s.canonical = true) ∧ (s.datagram port s.ledgerPort frame = some message) ∧ (s.ledgerHears 4 port message m = true) ∧ (m.group = 0) ∧ (beAt m.body 0 1 = 1) ∧ (s.ldg.rack.role = LdgRole.candidate) ∧ (m.sender ∈ s.ldg.rack.voters 0) ∧ (m.sender ∉ s.ldg.rack.votes) ∧ (s.ldg.rack.most 0 (s.ldg.rack.votes.length + 1) = false)) ((((((((((({ State.reset with ldg := { State.reset.ldg with rack := { State.reset.ldg.rack with member := true, epoch := 5, term := 2, role := .candidate, members := [⟨4, 0, 2, 0, 0, 0⟩, ⟨9, 0, 2, 2, 0, 0⟩] } }, hnt := { State.reset.hnt with pt := [(3, { id := 9, shelf := 2 })] } }).setF Reg.HNT_CFG_EN 1).setF Reg.HNT_CFG_AUTH_REQ 0).setF Reg.HNT_STATUS_LINK_A 1).setF Reg.HNT_STATUS_PHASE 2).setF Reg.LDG_CFG_EN 1).setF Reg.HNT_SELF_ID_LO 4).setF Reg.HNT_PT_ID_LO 9 3).setF Reg.HNT_PT_STATE_STATE 2 3).setF Reg.HNT_PT_STATE_ROLE 2 3)) 0 5000 (beBytes 32 0x414C010400000020000000000000000900000000000000020000000501000000) ⟨4, 0, 9, 0, 2, 5, [1#8, 0#8, 0#8, 0#8]⟩ (beBytes 94 0x00000000000000000000000086DD60000000002811FFFE800000000000000000000000000009FE800000000000000000000000000004B8A1B8A100284DCC414C010400000020000000000000000900000000000000020000000501000000)) ∧
    ((fun (s : State) (port now : Nat) (message : List Byte) (m : LdgMsg) (frame : List Byte) => (s.canonical = true) ∧ (s.datagram port s.ledgerPort frame = some message) ∧ (s.ledgerHears 4 port message m = true) ∧ (beAt m.body 0 1 ≠ 1)) ((((((((((({ State.reset with ldg := { State.reset.ldg with rack := { State.reset.ldg.rack with member := true, epoch := 5, term := 2, role := .candidate, members := [⟨4, 0, 2, 0, 0, 0⟩, ⟨9, 0, 2, 2, 0, 0⟩] } }, hnt := { State.reset.hnt with pt := [(3, { id := 9, shelf := 2 })] } }).setF Reg.HNT_CFG_EN 1).setF Reg.HNT_CFG_AUTH_REQ 0).setF Reg.HNT_STATUS_LINK_A 1).setF Reg.HNT_STATUS_PHASE 2).setF Reg.LDG_CFG_EN 1).setF Reg.HNT_SELF_ID_LO 4).setF Reg.HNT_PT_ID_LO 9 3).setF Reg.HNT_PT_STATE_STATE 2 3).setF Reg.HNT_PT_STATE_ROLE 2 3)) 0 5000 (beBytes 32 0x414C010400000020000000000000000900000000000000020000000500000000) ⟨4, 0, 9, 0, 2, 5, [0#8, 0#8, 0#8, 0#8]⟩ (beBytes 94 0x00000000000000000000000086DD60000000002811FFFE800000000000000000000000000009FE800000000000000000000000000004B8A1B8A100284ECC414C010400000020000000000000000900000000000000020000000500000000)) ∧
    ((fun (s : State) (port now : Nat) (message : List Byte) (m : LdgMsg) (u : State) (frame : List Byte) => (s.canonical = true) ∧ (s.datagram port s.ledgerPort frame = some message) ∧ (s.ledgerHears 4 port message m = true) ∧ (m.group = 0) ∧ (beAt m.body 0 1 = 1) ∧ (s.ldg.rack.role = LdgRole.candidate) ∧ (m.sender ∈ s.ldg.rack.voters 0) ∧ (m.sender ∉ s.ldg.rack.votes) ∧ (s.ldg.rack.most 0 (s.ldg.rack.votes.length + 1) = true) ∧ (u = (s.setGrp 0 { s.ldg.rack with votes := m.sender :: s.ldg.rack.votes }).becomeLeader 0 now) ∧ (u.rackQuiet = true)) ((((((((((({ State.reset with ldg := { State.reset.ldg with rack := { State.reset.ldg.rack with member := true, epoch := 5, term := 2, role := .candidate, votes := [4], members := [⟨4, 0, 2, 0, 0, 0⟩, ⟨9, 0, 2, 2, 0, 0⟩, ⟨11, 0, 2, 3, 0, 0⟩] } }, hnt := { State.reset.hnt with pt := [(3, { id := 9, shelf := 2 })] } }).setF Reg.HNT_CFG_EN 1).setF Reg.HNT_CFG_AUTH_REQ 0).setF Reg.HNT_STATUS_LINK_A 1).setF Reg.HNT_STATUS_PHASE 2).setF Reg.LDG_CFG_EN 1).setF Reg.HNT_SELF_ID_LO 4).setF Reg.HNT_PT_ID_LO 9 3).setF Reg.HNT_PT_STATE_STATE 2 3).setF Reg.HNT_PT_STATE_ROLE 2 3)) 0 5000 (beBytes 32 0x414C010400000020000000000000000900000000000000020000000501000000) ⟨4, 0, 9, 0, 2, 5, [1#8, 0#8, 0#8, 0#8]⟩ (((((((((((({ State.reset with ldg := { State.reset.ldg with rack := { State.reset.ldg.rack with member := true, epoch := 5, term := 2, role := .candidate, votes := [9, 4], members := [⟨4, 0, 2, 0, 0, 0⟩, ⟨9, 0, 2, 2, 0, 0⟩, ⟨11, 0, 2, 3, 0, 0⟩] } }, hnt := { State.reset.hnt with pt := [(3, { id := 9, shelf := 2 })] } }).setF Reg.HNT_CFG_EN 1).setF Reg.HNT_CFG_AUTH_REQ 0).setF Reg.HNT_STATUS_LINK_A 1).setF Reg.HNT_STATUS_PHASE 2).setF Reg.LDG_CFG_EN 1).setF Reg.HNT_SELF_ID_LO 4).setF Reg.HNT_PT_ID_LO 9 3).setF Reg.HNT_PT_STATE_STATE 2 3).setF Reg.HNT_PT_STATE_ROLE 2 3)).becomeLeader 0 5000) (beBytes 94 0x00000000000000000000000086DD60000000002811FFFE800000000000000000000000000009FE800000000000000000000000000004B8A1B8A100284DCC414C010400000020000000000000000900000000000000020000000501000000)) ∧
    ((fun (s : State) (port now : Nat) (message : List Byte) (m : LdgMsg) (frame : List Byte) => (s.canonical = true) ∧ (s.datagram port s.ledgerPort frame = some message) ∧ (s.ledgerHears 5 port message m = true) ∧ (m.group = 0) ∧ (s.ledgerSpeaks = true) ∧ (s.ldg.rack.leads = true) ∧ (s.leased 0 now = true)) ((((((((((({ State.reset with ldg := { State.reset.ldg with rack := { State.reset.ldg.rack with member := true, epoch := 5, term := 2, role := .leader, leader := some 4, members := [⟨4, 0, 2, 0, 0, 0⟩, ⟨9, 0, 2, 2, 0, 0⟩], log := [⟨1, 2, 1, 0, 0, []⟩], noop := 1, commit := 1, lease := some 1000 } }, hnt := { State.reset.hnt with pt := [(3, { id := 9, shelf := 2 })] } }).setF Reg.HNT_CFG_EN 1).setF Reg.HNT_CFG_AUTH_REQ 0).setF Reg.HNT_STATUS_LINK_A 1).setF Reg.HNT_STATUS_PHASE 2).setF Reg.LDG_CFG_EN 1).setF Reg.HNT_SELF_ID_LO 4).setF Reg.HNT_PT_ID_LO 9 3).setF Reg.HNT_PT_STATE_STATE 2 3).setF Reg.HNT_PT_STATE_ROLE 2 3)) 0 5000 (beBytes 32 0x414C010500000020000000000000000900000000000000020000000500000006) ⟨5, 0, 9, 0, 2, 5, [0#8, 0#8, 0#8, 6#8]⟩ (beBytes 94 0x00000000000000000000000086DD60000000002811FFFE800000000000000000000000000009FE800000000000000000000000000004B8A1B8A100284EC5414C010500000020000000000000000900000000000000020000000500000006)) ∧
    ((fun (s : State) (port now : Nat) (message : List Byte) (m : LdgMsg) (frame : List Byte) => (s.canonical = true) ∧ (s.datagram port s.ledgerPort frame = some message) ∧ (s.ledgerHears 5 port message m = true) ∧ ((s.grp m.group).leads = false)) ((((((((((({ State.reset with ldg := { State.reset.ldg with rack := { State.reset.ldg.rack with member := true, epoch := 5, term := 2, leader := some 9, members := [⟨4, 0, 2, 0, 0, 0⟩, ⟨9, 0, 2, 2, 0, 0⟩] } }, hnt := { State.reset.hnt with pt := [(3, { id := 9, shelf := 2 })] } }).setF Reg.HNT_CFG_EN 1).setF Reg.HNT_CFG_AUTH_REQ 0).setF Reg.HNT_STATUS_LINK_A 1).setF Reg.HNT_STATUS_PHASE 2).setF Reg.LDG_CFG_EN 1).setF Reg.HNT_SELF_ID_LO 4).setF Reg.HNT_PT_ID_LO 9 3).setF Reg.HNT_PT_STATE_STATE 2 3).setF Reg.HNT_PT_STATE_ROLE 2 3)) 0 5000 (beBytes 32 0x414C010500000020000000000000000900000000000000020000000500000006) ⟨5, 0, 9, 0, 2, 5, [0#8, 0#8, 0#8, 6#8]⟩ (beBytes 94 0x00000000000000000000000086DD60000000002811FFFE800000000000000000000000000009FE800000000000000000000000000004B8A1B8A100284EC5414C010500000020000000000000000900000000000000020000000500000006)) ∧
    ((fun (s : State) (port now : Nat) (message : List Byte) (m : LdgMsg) (frame : List Byte) => (s.datagram port s.ledgerPort frame = some message) ∧ (s.ldgTake 6 port message = some m) ∧ (m.epoch = (s.grp m.group).epoch) ∧ (s.ldgStale m = false) ∧ (beAt m.body 12 1 = 1)) ((((((((((({ State.reset with ldg := { State.reset.ldg with rack := { State.reset.ldg.rack with member := true, epoch := 5, term := 2, leader := some 9, members := [⟨4, 0, 2, 0, 0, 0⟩, ⟨9, 0, 2, 2, 0, 0⟩] }, syncs := [⟨1, 0, 6, none, 9000, none, none⟩] }, hnt := { State.reset.hnt with pt := [(3, { id := 9, shelf := 2 })] } }).setF Reg.HNT_CFG_EN 1).setF Reg.HNT_CFG_AUTH_REQ 0).setF Reg.HNT_STATUS_LINK_A 1).setF Reg.HNT_STATUS_PHASE 2).setF Reg.LDG_CFG_EN 1).setF Reg.HNT_SELF_ID_LO 4).setF Reg.HNT_PT_ID_LO 9 3).setF Reg.HNT_PT_STATE_STATE 2 3).setF Reg.HNT_PT_STATE_ROLE 2 3)) 0 5000 (beBytes 44 0x414C01060000002C000000000000000900000000000000020000000500000006000000000000000301000000) ⟨6, 0, 9, 0, 2, 5, (beBytes 16 0x00000006000000000000000301000000)⟩ (beBytes 106 0x00000000000000000000000086DD60000000003411FFFE800000000000000000000000000009FE800000000000000000000000000004B8A1B8A100344D9D414C01060000002C000000000000000900000000000000020000000500000006000000000000000301000000)) ∧
    ((fun (s : State) (port now : Nat) (message : List Byte) (m : LdgMsg) (frame : List Byte) => (s.canonical = true) ∧ (s.datagram port s.ledgerPort frame = some message) ∧ (s.ldgTake 7 port message = some m) ∧ (m.group = 0) ∧ (m.term ≤ s.ldg.rack.term) ∧ (s.ledgerSpeaks = true) ∧ (s.ldg.rack.leads = false) ∧ (s.ldg.rack.role ≠ LdgRole.leader) ∧ (s.ldg.rack.memberOf m.sender = none) ∧ (m.sender ∉ s.ldg.rack.peers)) ((((((((((({ State.reset with ldg := { State.reset.ldg with rack := { State.reset.ldg.rack with member := true, epoch := 5, term := 2, leader := some 9, members := [⟨4, 0, 2, 0, 0, 0⟩] } }, hnt := { State.reset.hnt with pt := [(3, { id := 9, shelf := 2 })] } }).setF Reg.HNT_CFG_EN 1).setF Reg.HNT_CFG_AUTH_REQ 0).setF Reg.HNT_STATUS_LINK_A 1).setF Reg.HNT_STATUS_PHASE 2).setF Reg.LDG_CFG_EN 1).setF Reg.HNT_SELF_ID_LO 4).setF Reg.HNT_PT_ID_LO 9 3).setF Reg.HNT_PT_STATE_STATE 2 3).setF Reg.HNT_PT_STATE_ROLE 2 3)) 0 5000 (beBytes 36 0x414C01070000002400000000000000090000000000000002000000050201000000000000) ⟨7, 0, 9, 0, 2, 5, [2#8, 1#8, 0#8, 0#8, 0#8, 0#8, 0#8, 0#8]⟩ (beBytes 98 0x00000000000000000000000086DD60000000002C11FFFE800000000000000000000000000009FE800000000000000000000000000004B8A1B8A1002C4CBC414C01070000002400000000000000090000000000000002000000050201000000000000)) ∧
    ((fun (s : State) (port now : Nat) (message : List Byte) (m : LdgMsg) (frame : List Byte) => (s.canonical = true) ∧ (s.datagram port s.ledgerPort frame = some message) ∧ (s.ldgTake 8 port message = some m) ∧ (m.group = 0) ∧ (s.ldg.rack.member = false) ∧ (m.sender ∉ s.ldg.rack.peers) ∧ (beAt m.body 0 1 = 1) ∧ (beAt m.body 4 8 ≠ 0)) ((((((((((({ State.reset with hnt := { State.reset.hnt with pt := [(3, { id := 9, shelf := 2 })] } }).setF Reg.HNT_CFG_EN 1).setF Reg.HNT_CFG_AUTH_REQ 0).setF Reg.HNT_STATUS_LINK_A 1).setF Reg.HNT_STATUS_PHASE 2).setF Reg.LDG_CFG_EN 1).setF Reg.HNT_SELF_ID_LO 4).setF Reg.HNT_PT_ID_LO 9 3).setF Reg.HNT_PT_STATE_STATE 2 3).setF Reg.HNT_PT_STATE_ROLE 2 3)) 0 5000 (beBytes 48 0x414C01080000003000000000000000090000000000000002000000050100000000000000000000090000000000000000) ⟨8, 0, 9, 0, 2, 5, (beBytes 20 0x0100000000000000000000090000000000000000)⟩ (beBytes 110 0x00000000000000000000000086DD60000000003811FFFE800000000000000000000000000009FE800000000000000000000000000004B8A1B8A100384D8F414C01080000003000000000000000090000000000000002000000050100000000000000000000090000000000000000)) ∧
    ((fun (s : State) (port now : Nat) (message : List Byte) (m : LdgMsg) (frame : List Byte) => (s.datagram port s.ledgerPort frame = some message) ∧ (s.ldgTake 11 port message = some m) ∧ (m.group = 0) ∧ (m.term ≤ s.ldg.rack.term) ∧ (m.epoch = s.ldg.rack.epoch) ∧ (s.ldgStale m = false) ∧ (beAt m.body 12 4 = 0) ∧ (s.ldg.rack.commit < beAt m.body 0 8) ∧ ((m.body.drop 20).length < beAt m.body 16 4)) ((((((((((({ State.reset with ldg := { State.reset.ldg with rack := { State.reset.ldg.rack with member := true, epoch := 5, term := 2, leader := some 9, members := [⟨4, 0, 2, 0, 0, 0⟩, ⟨9, 0, 2, 2, 0, 0⟩] } }, hnt := { State.reset.hnt with pt := [(3, { id := 9, shelf := 2 })] } }).setF Reg.HNT_CFG_EN 1).setF Reg.HNT_CFG_AUTH_REQ 0).setF Reg.HNT_STATUS_LINK_A 1).setF Reg.HNT_STATUS_PHASE 2).setF Reg.LDG_CFG_EN 1).setF Reg.HNT_SELF_ID_LO 4).setF Reg.HNT_PT_ID_LO 9 3).setF Reg.HNT_PT_STATE_STATE 2 3).setF Reg.HNT_PT_STATE_ROLE 2 3)) 0 5000 (beBytes 51 0x414C010B000000330000000000000009000000000000000200000005000000000000000700000002000000000000005A616263) ⟨11, 0, 9, 0, 2, 5, (beBytes 23 0x000000000000000700000002000000000000005A616263)⟩ (beBytes 113 0x00000000000000000000000086DD60000000003B11FFFE800000000000000000000000000009FE800000000000000000000000000004B8A1B8A1003B89C6414C010B000000330000000000000009000000000000000200000005000000000000000700000002000000000000005A616263)) ∧
    ((fun (s : State) (port now : Nat) (message : List Byte) (m : LdgMsg) (es : List LdgEntry) (v w : State) (frame : List Byte) => (s.canonical = true) ∧ (s.datagram port s.ledgerPort frame = some message) ∧ (s.ldgTake 11 port message = some m) ∧ (m.group = 0) ∧ (m.term ≤ s.ldg.rack.term) ∧ (m.epoch = s.ldg.rack.epoch) ∧ (s.ldgStale m = false) ∧ (beAt m.body 12 4 = 0) ∧ (s.ldg.rack.commit < beAt m.body 0 8) ∧ (beAt m.body 16 4 ≤ (m.body.drop 20).length) ∧ (parseEntries ((m.body.drop 20).length + 1) (m.body.drop 20) = some es) ∧ (v = es.foldl (fun (a : State) (e : LdgEntry) => a.takeState 0 e now) ((s.bump Reg.LDG_STATE_XFERS).setGrp 0 { s.ldg.rack with parts := [], log := [], base := (beAt m.body 0 8, beAt m.body 8 4), commit := beAt m.body 0 8, members := [] })) ∧ (w = (v.setGrp 0 { v.grp 0 with applied := beAt m.body 0 8 }).set64 Reg.LDG_RACK_APPLIED_LO (beAt m.body 0 8)) ∧ (w.ldg.rack.role ≠ LdgRole.leader)) ((((((((((({ State.reset with ldg := { State.reset.ldg with rack := { State.reset.ldg.rack with member := true, epoch := 5, term := 2, leader := some 9, members := [⟨4, 0, 2, 0, 0, 0⟩, ⟨9, 0, 2, 2, 0, 0⟩] } }, hnt := { State.reset.hnt with pt := [(3, { id := 9, shelf := 2 })] } }).setF Reg.HNT_CFG_EN 1).setF Reg.HNT_CFG_AUTH_REQ 0).setF Reg.HNT_STATUS_LINK_A 1).setF Reg.HNT_STATUS_PHASE 2).setF Reg.LDG_CFG_EN 1).setF Reg.HNT_SELF_ID_LO 4).setF Reg.HNT_PT_ID_LO 9 3).setF Reg.HNT_PT_STATE_STATE 2 3).setF Reg.HNT_PT_STATE_ROLE 2 3)) 0 5000 (beBytes 48 0x414C010B0000003000000000000000090000000000000002000000050000000000000007000000020000000000000000) ⟨11, 0, 9, 0, 2, 5, (beBytes 20 0x0000000000000007000000020000000000000000)⟩ [] (((((((((((({ State.reset with ldg := { State.reset.ldg with rack := { State.reset.ldg.rack with member := true, epoch := 5, term := 2, leader := some 9, members := [⟨4, 0, 2, 0, 0, 0⟩, ⟨9, 0, 2, 2, 0, 0⟩] } }, hnt := { State.reset.hnt with pt := [(3, { id := 9, shelf := 2 })] } }).setF Reg.HNT_CFG_EN 1).setF Reg.HNT_CFG_AUTH_REQ 0).setF Reg.HNT_STATUS_LINK_A 1).setF Reg.HNT_STATUS_PHASE 2).setF Reg.LDG_CFG_EN 1).setF Reg.HNT_SELF_ID_LO 4).setF Reg.HNT_PT_ID_LO 9 3).setF Reg.HNT_PT_STATE_STATE 2 3).setF Reg.HNT_PT_STATE_ROLE 2 3).bump Reg.LDG_STATE_XFERS).setGrp 0 { ((((((((((({ State.reset with ldg := { State.reset.ldg with rack := { State.reset.ldg.rack with member := true, epoch := 5, term := 2, leader := some 9, members := [⟨4, 0, 2, 0, 0, 0⟩, ⟨9, 0, 2, 2, 0, 0⟩] } }, hnt := { State.reset.hnt with pt := [(3, { id := 9, shelf := 2 })] } }).setF Reg.HNT_CFG_EN 1).setF Reg.HNT_CFG_AUTH_REQ 0).setF Reg.HNT_STATUS_LINK_A 1).setF Reg.HNT_STATUS_PHASE 2).setF Reg.LDG_CFG_EN 1).setF Reg.HNT_SELF_ID_LO 4).setF Reg.HNT_PT_ID_LO 9 3).setF Reg.HNT_PT_STATE_STATE 2 3).setF Reg.HNT_PT_STATE_ROLE 2 3).grp 0) with base := (7, 2), commit := 7, members := [] }) (((((((((((((({ State.reset with ldg := { State.reset.ldg with rack := { State.reset.ldg.rack with member := true, epoch := 5, term := 2, leader := some 9, members := [⟨4, 0, 2, 0, 0, 0⟩, ⟨9, 0, 2, 2, 0, 0⟩] } }, hnt := { State.reset.hnt with pt := [(3, { id := 9, shelf := 2 })] } }).setF Reg.HNT_CFG_EN 1).setF Reg.HNT_CFG_AUTH_REQ 0).setF Reg.HNT_STATUS_LINK_A 1).setF Reg.HNT_STATUS_PHASE 2).setF Reg.LDG_CFG_EN 1).setF Reg.HNT_SELF_ID_LO 4).setF Reg.HNT_PT_ID_LO 9 3).setF Reg.HNT_PT_STATE_STATE 2 3).setF Reg.HNT_PT_STATE_ROLE 2 3).bump Reg.LDG_STATE_XFERS).setGrp 0 { ((((((((((({ State.reset with ldg := { State.reset.ldg with rack := { State.reset.ldg.rack with member := true, epoch := 5, term := 2, leader := some 9, members := [⟨4, 0, 2, 0, 0, 0⟩, ⟨9, 0, 2, 2, 0, 0⟩] } }, hnt := { State.reset.hnt with pt := [(3, { id := 9, shelf := 2 })] } }).setF Reg.HNT_CFG_EN 1).setF Reg.HNT_CFG_AUTH_REQ 0).setF Reg.HNT_STATUS_LINK_A 1).setF Reg.HNT_STATUS_PHASE 2).setF Reg.LDG_CFG_EN 1).setF Reg.HNT_SELF_ID_LO 4).setF Reg.HNT_PT_ID_LO 9 3).setF Reg.HNT_PT_STATE_STATE 2 3).setF Reg.HNT_PT_STATE_ROLE 2 3).grp 0) with base := (7, 2), commit := 7, members := [], applied := 7 })).set64 Reg.LDG_RACK_APPLIED_LO 7) (beBytes 110 0x00000000000000000000000086DD60000000003811FFFE800000000000000000000000000009FE800000000000000000000000000004B8A1B8A100384E8C414C010B0000003000000000000000090000000000000002000000050000000000000007000000020000000000000000)) ∧
    ((fun (s : State) (port now : Nat) (message : List Byte) (m : LdgMsg) (frame : List Byte) => (s.canonical = true) ∧ (s.datagram port s.ledgerPort frame = some message) ∧ (s.ledgerHears 12 port message m = true) ∧ (m.group = 0) ∧ (s.ledgerSpeaks = true) ∧ (s.ldg.rack.leads = false)) ((((((((((({ State.reset with ldg := { State.reset.ldg with rack := { State.reset.ldg.rack with member := true, epoch := 5, term := 2, leader := some 9, members := [⟨4, 0, 2, 0, 0, 0⟩, ⟨9, 0, 2, 2, 0, 0⟩] } }, hnt := { State.reset.hnt with pt := [(3, { id := 9, shelf := 2 })] } }).setF Reg.HNT_CFG_EN 1).setF Reg.HNT_CFG_AUTH_REQ 0).setF Reg.HNT_STATUS_LINK_A 1).setF Reg.HNT_STATUS_PHASE 2).setF Reg.LDG_CFG_EN 1).setF Reg.HNT_SELF_ID_LO 4).setF Reg.HNT_PT_ID_LO 9 3).setF Reg.HNT_PT_STATE_STATE 2 3).setF Reg.HNT_PT_STATE_ROLE 2 3)) 0 5000 (beBytes 32 0x414C010C00000020000000000000000900000000000000020000000505000000) ⟨12, 0, 9, 0, 2, 5, [5#8, 0#8, 0#8, 0#8]⟩ (beBytes 94 0x00000000000000000000000086DD60000000002811FFFE800000000000000000000000000009FE800000000000000000000000000004B8A1B8A1002849C4414C010C00000020000000000000000900000000000000020000000505000000)) ∧
    ((fun (s : State) (port now : Nat) (message : List Byte) (m : LdgMsg) (u : State) (frame : List Byte) => (s.canonical = true) ∧ (s.datagram port s.ledgerPort frame = some message) ∧ (s.ledgerHears 12 port message m = true) ∧ (m.group = 0) ∧ (s.ldg.rack.leads = true) ∧ (etypeOf 0 (beAt m.body 0 1) = true) ∧ (beAt m.body 0 1 ≠ etNoop) ∧ ((m.body.drop 4).length ≤ 4064) ∧ (u = (s.setGrp 0 { s.ldg.rack with proposers := Sparse.insert s.ldg.rack.proposers (s.ldg.rack.last.1 + 1) m.sender }).appendRack (beAt m.body 0 1) (m.body.drop 4) now) ∧ (u.rackQuiet = true)) ((((((((((({ State.reset with ldg := { State.reset.ldg with rack := { State.reset.ldg.rack with member := true, epoch := 5, term := 2, role := .leader, leader := some 4, members := [⟨4, 0, 2, 0, 0, 0⟩, ⟨9, 0, 2, 2, 0, 0⟩], log := [⟨1, 2, 1, 0, 0, []⟩], noop := 1, commit := 1 } }, hnt := { State.reset.hnt with pt := [(3, { id := 9, shelf := 2 })] } }).setF Reg.HNT_CFG_EN 1).setF Reg.HNT_CFG_AUTH_REQ 0).setF Reg.HNT_STATUS_LINK_A 1).setF Reg.HNT_STATUS_PHASE 2).setF Reg.LDG_CFG_EN 1).setF Reg.HNT_SELF_ID_LO 4).setF Reg.HNT_PT_ID_LO 9 3).setF Reg.HNT_PT_STATE_STATE 2 3).setF Reg.HNT_PT_STATE_ROLE 2 3)) 0 5000 (beBytes 32 0x414C010C00000020000000000000000900000000000000020000000505000000) ⟨12, 0, 9, 0, 2, 5, [5#8, 0#8, 0#8, 0#8]⟩ (((((((((((({ State.reset with ldg := { State.reset.ldg with rack := { State.reset.ldg.rack with member := true, epoch := 5, term := 2, role := .leader, leader := some 4, members := [⟨4, 0, 2, 0, 0, 0⟩, ⟨9, 0, 2, 2, 0, 0⟩], log := [⟨1, 2, 1, 0, 0, []⟩], noop := 1, commit := 1 } }, hnt := { State.reset.hnt with pt := [(3, { id := 9, shelf := 2 })] } }).setF Reg.HNT_CFG_EN 1).setF Reg.HNT_CFG_AUTH_REQ 0).setF Reg.HNT_STATUS_LINK_A 1).setF Reg.HNT_STATUS_PHASE 2).setF Reg.LDG_CFG_EN 1).setF Reg.HNT_SELF_ID_LO 4).setF Reg.HNT_PT_ID_LO 9 3).setF Reg.HNT_PT_STATE_STATE 2 3).setF Reg.HNT_PT_STATE_ROLE 2 3).setGrp 0 { ((((((((((({ State.reset with ldg := { State.reset.ldg with rack := { State.reset.ldg.rack with member := true, epoch := 5, term := 2, role := .leader, leader := some 4, members := [⟨4, 0, 2, 0, 0, 0⟩, ⟨9, 0, 2, 2, 0, 0⟩], log := [⟨1, 2, 1, 0, 0, []⟩], noop := 1, commit := 1 } }, hnt := { State.reset.hnt with pt := [(3, { id := 9, shelf := 2 })] } }).setF Reg.HNT_CFG_EN 1).setF Reg.HNT_CFG_AUTH_REQ 0).setF Reg.HNT_STATUS_LINK_A 1).setF Reg.HNT_STATUS_PHASE 2).setF Reg.LDG_CFG_EN 1).setF Reg.HNT_SELF_ID_LO 4).setF Reg.HNT_PT_ID_LO 9 3).setF Reg.HNT_PT_STATE_STATE 2 3).setF Reg.HNT_PT_STATE_ROLE 2 3).grp 0) with proposers := [(2, 9)] }).appendRack 5 [] 5000) (beBytes 94 0x00000000000000000000000086DD60000000002811FFFE800000000000000000000000000009FE800000000000000000000000000004B8A1B8A1002849C4414C010C00000020000000000000000900000000000000020000000505000000)) ∧
    ((fun (s : State) (port now : Nat) (message : List Byte) (m : LdgMsg) (frame : List Byte) => (s.canonical = true) ∧ (s.datagram port s.ledgerPort frame = some message) ∧ (s.ldgTake 13 port message = some m) ∧ (m.group = 1) ∧ (m.epoch = s.ldg.hall.epoch) ∧ (s.ldgStale m = false) ∧ (m.term = s.ldg.hall.term) ∧ (s.cpc.setPay.isSome = true) ∧ (beAt m.body 0 1 ≠ 0)) ((((((((((({ State.reset with ldg := { State.reset.ldg with hall := { State.reset.ldg.hall with epoch := 5 } }, hnt := { State.reset.hnt with pt := [(3, { id := 9, shelf := 2 })] }, cpc := { State.reset.cpc with setPay := some [] } }).setF Reg.HNT_CFG_EN 1).setF Reg.HNT_CFG_AUTH_REQ 0).setF Reg.HNT_STATUS_LINK_A 1).setF Reg.HNT_STATUS_PHASE 2).setF Reg.LDG_CFG_EN 1).setF Reg.HNT_SELF_ID_LO 4).setF Reg.HNT_PT_ID_LO 9 3).setF Reg.HNT_PT_STATE_STATE 2 3).setF Reg.HNT_PT_STATE_ROLE 2 3)) 0 5000 (beBytes 40 0x414C010D000100280000000000000009000000000000000000000005020000000000000000000000) ⟨13, 1, 9, 0, 0, 5, (beBytes 12 0x020000000000000000000000)⟩ (beBytes 102 0x00000000000000000000000086DD60000000003011FFFE800000000000000000000000000009FE800000000000000000000000000004B8A1B8A100304CAC414C010D000100280000000000000009000000000000000000000005020000000000000000000000)) ∧
    ((fun (s : State) (port now : Nat) (message : List Byte) (m : LdgMsg) (frame : List Byte) => (s.canonical = true) ∧ (s.datagram port s.ledgerPort frame = some message) ∧ (s.ledgerHears 9 port message m = true) ∧ (m.group = 0) ∧ (s.isF Reg.LDG_STATUS_ARBITER = true) ∧ (beAt m.body 0 1 < 8)) (((((((((((({ State.reset with ldg := { State.reset.ldg with rack := { State.reset.ldg.rack with member := true, epoch := 5, term := 2, leader := some 9, members := [⟨4, 0, 2, 0, 0, 0⟩, ⟨9, 0, 2, 2, 0, 0⟩] } }, hnt := { State.reset.hnt with pt := [(3, { id := 9, shelf := 2 })] } }).setF Reg.HNT_CFG_EN 1).setF Reg.HNT_CFG_AUTH_REQ 0).setF Reg.HNT_STATUS_LINK_A 1).setF Reg.HNT_STATUS_PHASE 2).setF Reg.LDG_CFG_EN 1).setF Reg.HNT_SELF_ID_LO 4).setF Reg.HNT_PT_ID_LO 9 3).setF Reg.HNT_PT_STATE_STATE 2 3).setF Reg.HNT_PT_STATE_ROLE 2 3).setF Reg.LDG_STATUS_ARBITER 1)) 0 5000 (beBytes 36 0x414C01090000002400000000000000090000000000000002000000050201010000000000) ⟨9, 0, 9, 0, 2, 5, [2#8, 1#8, 1#8, 0#8, 0#8, 0#8, 0#8, 0#8]⟩ (beBytes 98 0x00000000000000000000000086DD60000000002C11FFFE800000000000000000000000000009FE800000000000000000000000000004B8A1B8A1002C4BBA414C01090000002400000000000000090000000000000002000000050201010000000000)) ∧
    ((fun (s : State) (port now : Nat) (message : List Byte) (m : LdgMsg) (frame : List Byte) => (s.canonical = true) ∧ (s.datagram port s.ledgerPort frame = some message) ∧ (s.ledgerHears 10 port message m = true) ∧ (m.group = 0) ∧ (s.ldg.rack.role ≠ LdgRole.leader) ∧ (beAt m.body 2 2 ≤ s.voiceGen (beAt m.body 0 1))) ((((((((((({ State.reset with ldg := { State.reset.ldg with rack := { State.reset.ldg.rack with member := true, epoch := 5, term := 2, leader := some 9, members := [⟨4, 0, 2, 0, 0, 0⟩, ⟨9, 0, 2, 2, 0, 0⟩] } }, hnt := { State.reset.hnt with pt := [(3, { id := 9, shelf := 2 })] } }).setF Reg.HNT_CFG_EN 1).setF Reg.HNT_CFG_AUTH_REQ 0).setF Reg.HNT_STATUS_LINK_A 1).setF Reg.HNT_STATUS_PHASE 2).setF Reg.LDG_CFG_EN 1).setF Reg.HNT_SELF_ID_LO 4).setF Reg.HNT_PT_ID_LO 9 3).setF Reg.HNT_PT_STATE_STATE 2 3).setF Reg.HNT_PT_STATE_ROLE 2 3)) 0 5000 (beBytes 40 0x414C010A000000280000000000000009000000000000000200000005020000000000000000000009) ⟨10, 0, 9, 0, 2, 5, (beBytes 12 0x020000000000000000000009)⟩ (beBytes 102 0x00000000000000000000000086DD60000000003011FFFE800000000000000000000000000009FE800000000000000000000000000004B8A1B8A100304CA5414C010A000000280000000000000009000000000000000200000005020000000000000000000009)) ∧
    ((fun (s : State) (port now : Nat) (message : List Byte) (m : LdgMsg) (frame : List Byte) => (s.canonical = true) ∧ (s.datagram port s.ledgerPort frame = some message) ∧ (s.ledgerHears 10 port message m = true) ∧ (m.group = 0) ∧ (s.ldg.rack.role ≠ LdgRole.leader) ∧ (s.voiceGen (beAt m.body 0 1) < beAt m.body 2 2) ∧ (beAt m.body 0 1 = s.shelf) ∧ (beAt m.body 4 8 ≠ s.selfId) ∧ (s.voiceOf s.shelf = some s.selfId)) ((((((((((({ State.reset with ldg := { State.reset.ldg with rack := { State.reset.ldg.rack with member := true, epoch := 5, term := 2, leader := some 9, members := [⟨4, 0, 2, 0, 0, 0⟩, ⟨9, 0, 2, 2, 0, 0⟩] } }, hnt := { State.reset.hnt with pt := [(3, { id := 9, shelf := 2 })] } }).setF Reg.HNT_CFG_EN 1).setF Reg.HNT_CFG_AUTH_REQ 0).setF Reg.HNT_STATUS_LINK_A 1).setF Reg.HNT_STATUS_PHASE 2).setF Reg.LDG_CFG_EN 1).setF Reg.HNT_SELF_ID_LO 4).setF Reg.HNT_PT_ID_LO 9 3).setF Reg.HNT_PT_STATE_STATE 2 3).setF Reg.HNT_PT_STATE_ROLE 2 3)) 0 5000 (beBytes 40 0x414C010A000000280000000000000009000000000000000200000005000000010000000000000009) ⟨10, 0, 9, 0, 2, 5, (beBytes 12 0x000000010000000000000009)⟩ (beBytes 102 0x00000000000000000000000086DD60000000003011FFFE800000000000000000000000000009FE800000000000000000000000000004B8A1B8A100304EA4414C010A000000280000000000000009000000000000000200000005000000010000000000000009)) := by
  repeat refine And.intro (by decide +kernel) ?_
  decide +kernel

theorem test_meets_LedgerElectionsSyncsAndForming :
    ((fun (s : State) (group now : Nat) (d : Nat) => (s.canonical = true) ∧ (group = 0) ∧ (s.ldg.rack.expire = some d) ∧ (d < now) ∧ (s.ldg.rack.role ≠ LdgRole.leader) ∧ (s.mayVote 0 = true) ∧ (s.ledgerSpeaks = true) ∧ (s.ldg.rack.most 0 1 = false)) ((((((((((({ State.reset with ldg := { State.reset.ldg with rack := { State.reset.ldg.rack with member := true, epoch := 5, term := 2, leader := some 9, expire := some 4000, members := [⟨4, 0, 2, 0, 0, 0⟩, ⟨9, 0, 2, 2, 0, 0⟩] } }, hnt := { State.reset.hnt with pt := [(3, { id := 9, shelf := 2 })] } }).setF Reg.HNT_CFG_EN 1).setF Reg.HNT_CFG_AUTH_REQ 0).setF Reg.HNT_STATUS_LINK_A 1).setF Reg.HNT_STATUS_PHASE 2).setF Reg.LDG_CFG_EN 1).setF Reg.HNT_SELF_ID_LO 4).setF Reg.HNT_PT_ID_LO 9 3).setF Reg.HNT_PT_STATE_STATE 2 3).setF Reg.HNT_PT_STATE_ROLE 2 3)) 0 5000 4000) ∧
    ((fun (s : State) (group now : Nat) (d l : Nat) => (s.canonical = true) ∧ (group = 1) ∧ (s.ldg.hall.expire = some d) ∧ (d < now) ∧ (s.ldg.hall.role ≠ LdgRole.leader) ∧ (s.mayVote 1 = true) ∧ (s.ledgerSpeaks = true) ∧ (s.ldg.rack.role ≠ LdgRole.leader) ∧ (s.ldg.rack.leader = some l)) ((((((((((({ State.reset with ldg := { State.reset.ldg with rack := { State.reset.ldg.rack with member := true, epoch := 5, term := 2, leader := some 9, members := [⟨4, 0, 2, 0, 0, 0⟩, ⟨9, 0, 2, 2, 0, 0⟩] }, hall := { State.reset.ldg.hall with member := true, epoch := 5, term := 2, expire := some 4000, members := [⟨4, 0, 3, 0, 0, 0⟩, ⟨9, 0, 3, 2, 1, 0⟩] } }, hnt := { State.reset.hnt with pt := [(3, { id := 9, shelf := 2 })] } }).setF Reg.HNT_CFG_EN 1).setF Reg.HNT_CFG_AUTH_REQ 0).setF Reg.HNT_STATUS_LINK_A 1).setF Reg.HNT_STATUS_PHASE 2).setF Reg.LDG_CFG_EN 1).setF Reg.HNT_SELF_ID_LO 4).setF Reg.HNT_PT_ID_LO 9 3).setF Reg.HNT_PT_STATE_STATE 2 3).setF Reg.HNT_PT_STATE_ROLE 2 3)) 1 5000 4000 9) ∧
    ((fun (s : State) (group now : Nat) (d : Nat) => (s.canonical = true) ∧ (group = 1) ∧ (s.ldg.hall.expire = some d) ∧ (d < now) ∧ (s.ldg.hall.role ≠ LdgRole.leader) ∧ (s.mayVote 1 = true) ∧ (s.ledgerSpeaks = true) ∧ (s.ldg.rack.leads = true) ∧ (((s.setGrp 1 { s.ldg.hall with role := .candidate, term := s.ldg.hall.term + 1, votes := [], leader := none, lease := none, voted := none, noLeader := some (s.ldg.hall.noLeader.getD now), expire := some (s.drawn 1 (s.etNs 1) (s.etNs 1) now) }).appendRack etHallRecord (recordOfVote (s.ldg.hall.term + 1) s.selfId) now).rackQuiet = true)) ((((((((((({ State.reset with ldg := { State.reset.ldg with rack := { State.reset.ldg.rack with member := true, epoch := 5, term := 2, role := .leader, leader := some 4, members := [⟨4, 0, 2, 0, 0, 0⟩, ⟨9, 0, 2, 2, 0, 0⟩], log := [⟨1, 2, 1, 0, 0, []⟩], noop := 1, commit := 1 }, hall := { State.reset.ldg.hall with member := true, epoch := 5, term := 2, expire := some 4000, members := [⟨4, 0, 3, 0, 0, 0⟩, ⟨9, 0, 3, 2, 1, 0⟩] } }, hnt := { State.reset.hnt with pt := [(3, { id := 9, shelf := 2 })] } }).setF Reg.HNT_CFG_EN 1).setF Reg.HNT_CFG_AUTH_REQ 0).setF Reg.HNT_STATUS_LINK_A 1).setF Reg.HNT_STATUS_PHASE 2).setF Reg.LDG_CFG_EN 1).setF Reg.HNT_SELF_ID_LO 4).setF Reg.HNT_PT_ID_LO 9 3).setF Reg.HNT_PT_STATE_STATE 2 3).setF Reg.HNT_PT_STATE_ROLE 2 3)) 1 5000 4000) ∧
    ((fun (s : State) (group now : Nat) (u : State) => (s.canonical = true) ∧ (group < 2) ∧ ((s.grp group).role = LdgRole.leader) ∧ (s.ledgerSpeaks = true) ∧ (s.ldg.syncs = []) ∧ (u = s.showLease group now) ∧ (u.rackQuiet = true)) ((((((((((({ State.reset with ldg := { State.reset.ldg with rack := { State.reset.ldg.rack with member := true, epoch := 5, term := 2, role := .leader, leader := some 4, members := [⟨4, 0, 2, 0, 0, 0⟩, ⟨9, 0, 2, 2, 0, 0⟩], log := [⟨1, 2, 1, 0, 0, []⟩], noop := 1, commit := 1 } }, hnt := { State.reset.hnt with pt := [(3, { id := 9, shelf := 2 })] } }).setF Reg.HNT_CFG_EN 1).setF Reg.HNT_CFG_AUTH_REQ 0).setF Reg.HNT_STATUS_LINK_A 1).setF Reg.HNT_STATUS_PHASE 2).setF Reg.LDG_CFG_EN 1).setF Reg.HNT_SELF_ID_LO 4).setF Reg.HNT_PT_ID_LO 9 3).setF Reg.HNT_PT_STATE_STATE 2 3).setF Reg.HNT_PT_STATE_ROLE 2 3)) 0 5000 ((((((((((({ State.reset with ldg := { State.reset.ldg with rack := { State.reset.ldg.rack with member := true, epoch := 5, term := 2, role := .leader, leader := some 4, members := [⟨4, 0, 2, 0, 0, 0⟩, ⟨9, 0, 2, 2, 0, 0⟩], log := [⟨1, 2, 1, 0, 0, []⟩], noop := 1, commit := 1 } }, hnt := { State.reset.hnt with pt := [(3, { id := 9, shelf := 2 })] } }).setF Reg.HNT_CFG_EN 1).setF Reg.HNT_CFG_AUTH_REQ 0).setF Reg.HNT_STATUS_LINK_A 1).setF Reg.HNT_STATUS_PHASE 2).setF Reg.LDG_CFG_EN 1).setF Reg.HNT_SELF_ID_LO 4).setF Reg.HNT_PT_ID_LO 9 3).setF Reg.HNT_PT_STATE_STATE 2 3).setF Reg.HNT_PT_STATE_ROLE 2 3).showLease 0 5000)) ∧
    ((fun (s : State) (group now : Nat) (u : State) => (s.canonical = true) ∧ (group < 2) ∧ ((s.grp group).role = LdgRole.leader) ∧ (s.ledgerSpeaks = true) ∧ (s.ldg.syncs = []) ∧ (u = s.showLease group now) ∧ (u.rackQuiet = true)) ((((((((((({ State.reset with ldg := { State.reset.ldg with hall := { State.reset.ldg.hall with member := true, epoch := 5, term := 2, role := .leader, leader := some 4, members := [⟨4, 0, 3, 0, 0, 0⟩, ⟨9, 0, 2, 2, 0, 0⟩], log := [⟨1, 2, 1, 0, 0, []⟩], noop := 1, commit := 1 } }, hnt := { State.reset.hnt with pt := [(3, { id := 9, shelf := 2 })] } }).setF Reg.HNT_CFG_EN 1).setF Reg.HNT_CFG_AUTH_REQ 0).setF Reg.HNT_STATUS_LINK_A 1).setF Reg.HNT_STATUS_PHASE 2).setF Reg.LDG_CFG_EN 1).setF Reg.HNT_SELF_ID_LO 4).setF Reg.HNT_PT_ID_LO 9 3).setF Reg.HNT_PT_STATE_STATE 2 3).setF Reg.HNT_PT_STATE_ROLE 2 3)) 1 5000 ((((((((((({ State.reset with ldg := { State.reset.ldg with hall := { State.reset.ldg.hall with member := true, epoch := 5, term := 2, role := .leader, leader := some 4, members := [⟨4, 0, 3, 0, 0, 0⟩, ⟨9, 0, 2, 2, 0, 0⟩], log := [⟨1, 2, 1, 0, 0, []⟩], noop := 1, commit := 1 } }, hnt := { State.reset.hnt with pt := [(3, { id := 9, shelf := 2 })] } }).setF Reg.HNT_CFG_EN 1).setF Reg.HNT_CFG_AUTH_REQ 0).setF Reg.HNT_STATUS_LINK_A 1).setF Reg.HNT_STATUS_PHASE 2).setF Reg.LDG_CFG_EN 1).setF Reg.HNT_SELF_ID_LO 4).setF Reg.HNT_PT_ID_LO 9 3).setF Reg.HNT_PT_STATE_STATE 2 3).setF Reg.HNT_PT_STATE_ROLE 2 3).showLease 1 5000)) ∧
    ((fun (s : State) (group now : Nat) (d : Nat) => (s.canonical = true) ∧ (group < 2) ∧ ((s.grp group).lease = some d) ∧ (d + s.etNs group - leaseGuard group < now)) ((((((((((({ State.reset with ldg := { State.reset.ldg with rack := { State.reset.ldg.rack with member := true, epoch := 5, term := 2, role := .leader, leader := some 4, members := [⟨4, 0, 2, 0, 0, 0⟩, ⟨9, 0, 2, 2, 0, 0⟩], log := [⟨1, 2, 1, 0, 0, []⟩], noop := 1, commit := 1, lease := some 1000 } }, hnt := { State.reset.hnt with pt := [(3, { id := 9, shelf := 2 })] } }).setF Reg.HNT_CFG_EN 1).setF Reg.HNT_CFG_AUTH_REQ 0).setF Reg.HNT_STATUS_LINK_A 1).setF Reg.HNT_STATUS_PHASE 2).setF Reg.LDG_CFG_EN 1).setF Reg.HNT_SELF_ID_LO 4).setF Reg.HNT_PT_ID_LO 9 3).setF Reg.HNT_PT_STATE_STATE 2 3).setF Reg.HNT_PT_STATE_ROLE 2 3)) 0 99000000 1000) ∧
    ((fun (s : State) (now : Nat) => (s.canonical = true) ∧ (s.ldg.rack.role = LdgRole.leader) ∧ (s.ldg.hall.role ≠ LdgRole.leader) ∧ (s.ledgerSpeaks = true)) ((((((((((({ State.reset with ldg := { State.reset.ldg with rack := { State.reset.ldg.rack with member := true, epoch := 5, term := 2, role := .leader, leader := some 4, members := [⟨4, 0, 2, 0, 0, 0⟩, ⟨9, 0, 2, 2, 0, 0⟩], log := [⟨1, 2, 1, 0, 0, []⟩], noop := 1, commit := 1, lease := some 1000 } }, hnt := { State.reset.hnt with pt := [(3, { id := 9, shelf := 2 })] } }).setF Reg.HNT_CFG_EN 1).setF Reg.HNT_CFG_AUTH_REQ 0).setF Reg.HNT_STATUS_LINK_A 1).setF Reg.HNT_STATUS_PHASE 2).setF Reg.LDG_CFG_EN 1).setF Reg.HNT_SELF_ID_LO 4).setF Reg.HNT_PT_ID_LO 9 3).setF Reg.HNT_PT_STATE_STATE 2 3).setF Reg.HNT_PT_STATE_ROLE 2 3)) 5000) ∧
    ((fun (s : State) (path now : Nat) => (s.leased 0 now = true)) ((((((((((({ State.reset with ldg := { State.reset.ldg with rack := { State.reset.ldg.rack with member := true, epoch := 5, term := 2, role := .leader, leader := some 4, members := [⟨4, 0, 2, 0, 0, 0⟩, ⟨9, 0, 2, 2, 0, 0⟩], log := [⟨1, 2, 1, 0, 0, []⟩], noop := 1, commit := 1, lease := some 1000 } }, hnt := { State.reset.hnt with pt := [(3, { id := 9, shelf := 2 })] } }).setF Reg.HNT_CFG_EN 1).setF Reg.HNT_CFG_AUTH_REQ 0).setF Reg.HNT_STATUS_LINK_A 1).setF Reg.HNT_STATUS_PHASE 2).setF Reg.LDG_CFG_EN 1).setF Reg.HNT_SELF_ID_LO 4).setF Reg.HNT_PT_ID_LO 9 3).setF Reg.HNT_PT_STATE_STATE 2 3).setF Reg.HNT_PT_STATE_ROLE 2 3)) 1 5000) ∧
    ((fun (s : State) (path now l : Nat) => (s.ldg.rack.role ≠ LdgRole.leader) ∧ (s.ldg.rack.leader = some l) ∧ (s.ledgerSpeaks = true)) ((((((((((({ State.reset with ldg := { State.reset.ldg with rack := { State.reset.ldg.rack with member := true, epoch := 5, term := 2, leader := some 9, members := [⟨4, 0, 2, 0, 0, 0⟩, ⟨9, 0, 2, 2, 0, 0⟩] } }, hnt := { State.reset.hnt with pt := [(3, { id := 9, shelf := 2 })] } }).setF Reg.HNT_CFG_EN 1).setF Reg.HNT_CFG_AUTH_REQ 0).setF Reg.HNT_STATUS_LINK_A 1).setF Reg.HNT_STATUS_PHASE 2).setF Reg.LDG_CFG_EN 1).setF Reg.HNT_SELF_ID_LO 4).setF Reg.HNT_PT_ID_LO 9 3).setF Reg.HNT_PT_STATE_STATE 2 3).setF Reg.HNT_PT_STATE_ROLE 2 3)) 1 5000 9) ∧
    ((fun (s : State) (path now : Nat) => (s.leased 1 now = true)) ((((((((((({ State.reset with ldg := { State.reset.ldg with hall := { State.reset.ldg.hall with member := true, epoch := 5, term := 2, role := .leader, leader := some 4, members := [⟨4, 0, 3, 0, 0, 0⟩, ⟨9, 0, 2, 2, 0, 0⟩], log := [⟨1, 2, 1, 0, 0, []⟩], noop := 1, commit := 1, lease := some 1000 } }, hnt := { State.reset.hnt with pt := [(3, { id := 9, shelf := 2 })] } }).setF Reg.HNT_CFG_EN 1).setF Reg.HNT_CFG_AUTH_REQ 0).setF Reg.HNT_STATUS_LINK_A 1).setF Reg.HNT_STATUS_PHASE 2).setF Reg.LDG_CFG_EN 1).setF Reg.HNT_SELF_ID_LO 4).setF Reg.HNT_PT_ID_LO 9 3).setF Reg.HNT_PT_STATE_STATE 2 3).setF Reg.HNT_PT_STATE_ROLE 2 3)) 1 5000) ∧
    ((fun (s : State) (path now l : Nat) => (s.ldg.hall.role ≠ LdgRole.leader) ∧ (s.ldg.hall.leader = some l) ∧ (s.ledgerSpeaks = true)) ((((((((((({ State.reset with ldg := { State.reset.ldg with hall := { State.reset.ldg.hall with member := true, epoch := 5, term := 2, leader := some 9, members := [⟨4, 0, 2, 0, 0, 0⟩, ⟨9, 0, 2, 2, 0, 0⟩] } }, hnt := { State.reset.hnt with pt := [(3, { id := 9, shelf := 2 })] } }).setF Reg.HNT_CFG_EN 1).setF Reg.HNT_CFG_AUTH_REQ 0).setF Reg.HNT_STATUS_LINK_A 1).setF Reg.HNT_STATUS_PHASE 2).setF Reg.LDG_CFG_EN 1).setF Reg.HNT_SELF_ID_LO 4).setF Reg.HNT_PT_ID_LO 9 3).setF Reg.HNT_PT_STATE_STATE 2 3).setF Reg.HNT_PT_STATE_ROLE 2 3)) 1 5000 9) ∧
    ((fun (s : State) (path n : Nat) (q : SyncReq) => (s.canonical = true) ∧ ((s.ldg.syncs.find? fun (r : SyncReq) => decide (r.path = path) && r.from_.isNone) = some q) ∧ (q.index = some n) ∧ (n ≤ (s.grp q.group).applied)) ((((((((((({ State.reset with ldg := { State.reset.ldg with rack := { State.reset.ldg.rack with member := true, epoch := 5, term := 2, leader := some 9, members := [⟨4, 0, 2, 0, 0, 0⟩, ⟨9, 0, 2, 2, 0, 0⟩], applied := 6 }, syncs := [⟨1, 0, 6, some 6, 9000, none, none⟩] }, hnt := { State.reset.hnt with pt := [(3, { id := 9, shelf := 2 })] } }).setF Reg.HNT_CFG_EN 1).setF Reg.HNT_CFG_AUTH_REQ 0).setF Reg.HNT_STATUS_LINK_A 1).setF Reg.HNT_STATUS_PHASE 2).setF Reg.LDG_CFG_EN 1).setF Reg.HNT_SELF_ID_LO 4).setF Reg.HNT_PT_ID_LO 9 3).setF Reg.HNT_PT_STATE_STATE 2 3).setF Reg.HNT_PT_STATE_ROLE 2 3)) 1 6 ⟨1, 0, 6, some 6, 9000, none, none⟩) ∧
    ((fun (s : State) (path now : Nat) (q : SyncReq) => (s.canonical = true) ∧ ((s.ldg.syncs.any fun (r : SyncReq) => r.from_.isSome) = false) ∧ ((s.ldg.syncs.find? fun (r : SyncReq) => decide (r.path = path) && r.from_.isNone) = some q) ∧ (q.until_ < now)) ((((((((((({ State.reset with ldg := { State.reset.ldg with rack := { State.reset.ldg.rack with member := true, epoch := 5, term := 2, leader := some 9, members := [⟨4, 0, 2, 0, 0, 0⟩, ⟨9, 0, 2, 2, 0, 0⟩], applied := 6 }, syncs := [⟨1, 0, 6, none, 9000, none, none⟩] }, hnt := { State.reset.hnt with pt := [(3, { id := 9, shelf := 2 })] } }).setF Reg.HNT_CFG_EN 1).setF Reg.HNT_CFG_AUTH_REQ 0).setF Reg.HNT_STATUS_LINK_A 1).setF Reg.HNT_STATUS_PHASE 2).setF Reg.LDG_CFG_EN 1).setF Reg.HNT_SELF_ID_LO 4).setF Reg.HNT_PT_ID_LO 9 3).setF Reg.HNT_PT_STATE_STATE 2 3).setF Reg.HNT_PT_STATE_ROLE 2 3)) 1 9001 ⟨1, 0, 6, none, 9000, none, none⟩) ∧
    ((fun (s : State) (group now : Nat) => (s.canonical = true) ∧ (group < 2) ∧ ((s.grp group).member = false) ∧ (s.phase = phaseRun) ∧ (group = 1 → s.ldg.rack.leads = true) ∧ ((s.grp group).joinAt.all (fun (x : Nat) => decide (x + 10000000 ≤ now)) = true) ∧ (s.ledgerSpeaks = true)) ((((((((((({ State.reset with hnt := { State.reset.hnt with pt := [(3, { id := 9, shelf := 2 })] } }).setF Reg.HNT_CFG_EN 1).setF Reg.HNT_CFG_AUTH_REQ 0).setF Reg.HNT_STATUS_LINK_A 1).setF Reg.HNT_STATUS_PHASE 2).setF Reg.LDG_CFG_EN 1).setF Reg.HNT_SELF_ID_LO 4).setF Reg.HNT_PT_ID_LO 9 3).setF Reg.HNT_PT_STATE_STATE 2 3).setF Reg.HNT_PT_STATE_ROLE 2 3)) 0 5000) ∧
    ((fun (s : State) (group now : Nat) => (s.canonical = true) ∧ (group < 2) ∧ ((s.grp group).member = false) ∧ (s.phase = phaseRun) ∧ (group = 1 → s.ldg.rack.leads = true) ∧ ((s.grp group).joinAt.all (fun (x : Nat) => decide (x + 10000000 ≤ now)) = true) ∧ (s.ledgerSpeaks = true)) ((((((((((({ State.reset with ldg := { State.reset.ldg with rack := { State.reset.ldg.rack with member := true, epoch := 5, term := 2, role := .leader, leader := some 4, members := [⟨4, 0, 2, 0, 0, 0⟩, ⟨9, 0, 2, 2, 0, 0⟩], log := [⟨1, 2, 1, 0, 0, []⟩], noop := 1, commit := 1 } }, hnt := { State.reset.hnt with pt := [(3, { id := 9, shelf := 2 })] } }).setF Reg.HNT_CFG_EN 1).setF Reg.HNT_CFG_AUTH_REQ 0).setF Reg.HNT_STATUS_LINK_A 1).setF Reg.HNT_STATUS_PHASE 2).setF Reg.LDG_CFG_EN 1).setF Reg.HNT_SELF_ID_LO 4).setF Reg.HNT_PT_ID_LO 9 3).setF Reg.HNT_PT_STATE_STATE 2 3).setF Reg.HNT_PT_STATE_ROLE 2 3)) 1 5000) ∧
    ((fun (s : State) (group now : Nat) (d : Nat) => (s.canonical = true) ∧ (group = 0) ∧ (s.ldg.rack.member = false) ∧ (s.ldg.rack.joinSince = some d) ∧ (d + 50000000 < now) ∧ (s.phase = phaseRun) ∧ (s.isF Reg.LDG_CFG_EN = true) ∧ ((s.ldg.rack.answers.any fun (e : Nat × Nat × Nat) => decide (e.2.1 = 1) && decide (now ≤ e.2.2 + 50000000)) = false) ∧ (s.getF Reg.LDG_CFG_SHELVES + 1 < 2 * ((s.shelf :: s.rackModules.map Prod.snd).dedup).length) ∧ ((s.rackModules.any fun (p : Nat × Nat) => decide (p.1 < s.selfId)) = false)) ((((((((((({ State.reset with ldg := { State.reset.ldg with rack := { State.reset.ldg.rack with joinSince := some 5 } }, hnt := { State.reset.hnt with pt := [(3, { id := 9, shelf := 2 })] } }).setF Reg.HNT_CFG_EN 1).setF Reg.HNT_CFG_AUTH_REQ 0).setF Reg.HNT_STATUS_LINK_A 1).setF Reg.HNT_STATUS_PHASE 2).setF Reg.LDG_CFG_EN 1).setF Reg.HNT_SELF_ID_LO 4).setF Reg.HNT_PT_ID_LO 9 3).setF Reg.HNT_PT_STATE_STATE 2 3).setF Reg.HNT_PT_STATE_ROLE 2 3)) 0 90000000 5) ∧
    ((fun (s : State) (group now : Nat) (d : Nat) => (s.canonical = true) ∧ (group = 1) ∧ (s.ldg.rack.leads = true) ∧ (s.ldg.hall.member = false) ∧ (s.ldg.hall.joinSince = some d) ∧ (d + 50000000 < now) ∧ (s.phase = phaseRun) ∧ (s.isF Reg.LDG_CFG_EN = true) ∧ ((s.ldg.hall.answers.any fun (e : Nat × Nat × Nat) => decide (e.2.1 = 1) && decide (now ≤ e.2.2 + 50000000)) = false) ∧ (s.getF Reg.LDG_CFG_HALL_RACKS < 2 * (s.ldg.hall.peers.length + 1)) ∧ ((s.ldg.hall.peers.any fun (p : Nat) => decide (p < s.selfId)) = false)) (((((((((((({ State.reset with ldg := { State.reset.ldg with rack := { State.reset.ldg.rack with member := true, epoch := 5, term := 2, role := .leader, leader := some 4, members := [⟨4, 0, 2, 0, 0, 0⟩, ⟨9, 0, 2, 2, 0, 0⟩], log := [⟨1, 2, 1, 0, 0, []⟩], noop := 1, commit := 1 }, hall := { State.reset.ldg.hall with joinSince := some 5, peers := [9] } }, hnt := { State.reset.hnt with pt := [(3, { id := 9, shelf := 2 })] } }).setF Reg.HNT_CFG_EN 1).setF Reg.HNT_CFG_AUTH_REQ 0).setF Reg.HNT_STATUS_LINK_A 1).setF Reg.HNT_STATUS_PHASE 2).setF Reg.LDG_CFG_EN 1).setF Reg.HNT_SELF_ID_LO 4).setF Reg.HNT_PT_ID_LO 9 3).setF Reg.HNT_PT_STATE_STATE 2 3).setF Reg.HNT_PT_STATE_ROLE 2 3).setF Reg.LDG_CFG_HALL_RACKS 2)) 1 90000000 5) ∧
    ((fun (s : State) (now d : Nat) => (s.canonical = true) ∧ (s.ldg.rack.member = true) ∧ (s.ldg.rack.noLeader = some d) ∧ (d + 100000000 < now) ∧ (s.isVoice = true) ∧ (s.ldg.rack.most 0 s.ldg.rack.restarted.length = true) ∧ (s.ldg.rack.best.1 < s.ldg.rack.last.2)) ((((((((((({ State.reset with ldg := { State.reset.ldg with rack := { State.reset.ldg.rack with member := true, epoch := 5, term := 2, noLeader := some 5, restarted := [9, 4], commit := 1, log := [⟨1, 2, 1, 0, 0, []⟩], members := [⟨4, 0, 2, 0, 0, 0⟩, ⟨9, 0, 2, 2, 0, 0⟩] } }, hnt := { State.reset.hnt with pt := [(3, { id := 9, shelf := 2 })] } }).setF Reg.HNT_CFG_EN 1).setF Reg.HNT_CFG_AUTH_REQ 0).setF Reg.HNT_STATUS_LINK_A 1).setF Reg.HNT_STATUS_PHASE 2).setF Reg.LDG_CFG_EN 1).setF Reg.HNT_SELF_ID_LO 4).setF Reg.HNT_PT_ID_LO 9 3).setF Reg.HNT_PT_STATE_STATE 2 3).setF Reg.HNT_PT_STATE_ROLE 2 3)) 900000000 5) ∧
    ((fun (s : State) (shelf now h : Nat) (c : ClaimRec) (rest : List ClaimRec) => (s.canonical = true) ∧ (Sparse.at [] s.ldg.claims shelf = c :: rest) ∧ (s.ledgerSpeaks = true) ∧ (s.decision shelf (c :: rest) = none) ∧ (s.voiceOf shelf = some h) ∧ (s.ldg.rack.role ≠ LdgRole.leader) ∧ (s.decidesFor shelf = true) ∧ (c.at_ + 250000 < now)) ((((((((((({ State.reset with ldg := { State.reset.ldg with rack := { State.reset.ldg.rack with member := true, epoch := 5, term := 2, leader := some 9, members := [⟨4, 0, 2, 0, 0, 0⟩, ⟨9, 0, 2, 2, 0, 0⟩] }, arb := some (0, 2), claims := [(2, [⟨11, 3, 1, 1, 100⟩])] }, hnt := { State.reset.hnt with pt := [(3, { id := 9, shelf := 2 })] } }).setF Reg.HNT_CFG_EN 1).setF Reg.HNT_CFG_AUTH_REQ 0).setF Reg.HNT_STATUS_LINK_A 1).setF Reg.HNT_STATUS_PHASE 2).setF Reg.LDG_CFG_EN 1).setF Reg.HNT_SELF_ID_LO 4).setF Reg.HNT_PT_ID_LO 9 3).setF Reg.HNT_PT_STATE_STATE 2 3).setF Reg.HNT_PT_STATE_ROLE 2 3)) 2 900000 9 ⟨11, 3, 1, 1, 100⟩ []) ∧
    ((fun (s : State) (shelf now h : Nat) (c : ClaimRec) (rest : List ClaimRec) => (s.canonical = true) ∧ (Sparse.at [] s.ldg.claims shelf = c :: rest) ∧ (s.ledgerSpeaks = true) ∧ (s.decision shelf (c :: rest) = none) ∧ (s.voiceOf shelf = some h) ∧ (s.ldg.rack.role ≠ LdgRole.leader) ∧ (s.isVoice = true) ∧ (s.arbiters.map Prod.snd = some s.shelf) ∧ (c.at_ + 400000 < now)) ((((((((((({ State.reset with ldg := { State.reset.ldg with rack := { State.reset.ldg.rack with member := true, epoch := 5, term := 2, leader := some 9, members := [⟨4, 0, 2, 0, 0, 0⟩, ⟨9, 0, 2, 2, 0, 0⟩] }, arb := some (2, 0), claims := [(2, [⟨11, 3, 1, 1, 100⟩])] }, hnt := { State.reset.hnt with pt := [(3, { id := 9, shelf := 2 })] } }).setF Reg.HNT_CFG_EN 1).setF Reg.HNT_CFG_AUTH_REQ 0).setF Reg.HNT_STATUS_LINK_A 1).setF Reg.HNT_STATUS_PHASE 2).setF Reg.LDG_CFG_EN 1).setF Reg.HNT_SELF_ID_LO 4).setF Reg.HNT_PT_ID_LO 9 3).setF Reg.HNT_PT_STATE_STATE 2 3).setF Reg.HNT_PT_STATE_ROLE 2 3)) 2 900000 9 ⟨11, 3, 1, 1, 100⟩ []) := by
  repeat refine And.intro (by decide +kernel) ?_
  decide +kernel

theorem test_meets_EnumerationStepByStep :
    ((fun (s : State) (now i : Nat) => (s.canonical = true) ∧ (s.pklOn = true) ∧ (s.pklTx = true) ∧ (s.ndList.head? = some i) ∧ (s.idExp i ≠ 0)) ((((((((((((((((((((State.reset.setF Reg.PKL_CFG_EN 1).setF Reg.PKL_CFG_NODES 3).setF Reg.PKL_CFG_LOST_SWEEPS 3).setF Reg.PKL_CHAIN 4660).setF Reg.TWN_STATUS_LOCK 1).setF Reg.PKL_ND_MAP_EN 1 0).setF Reg.PKL_ND_MAP_CELLS 2 0).setF Reg.PKL_ND_MAP_FIRST_CELL 0 0).setF Reg.PKL_ND_MAP_EN 1 1).setF Reg.PKL_ND_MAP_CELLS 2 1).setF Reg.PKL_ND_MAP_FIRST_CELL 2 1).setF Reg.PKL_ND_MAP_EN 1 2).setF Reg.PKL_ND_MAP_CELLS 2 2).setF Reg.PKL_ND_MAP_FIRST_CELL 4 2).setF Reg.PKL_ND_ID_EXP_LO 7 0).setF Reg.PKL_ND_ID_FOUND_LO 3 1).setF Reg.PKL_ND_STAT_STATE 2 0).setF Reg.PKL_ND_STAT_STATE 2 1).setF Reg.PKL_ND_STAT_STATE 4 2)) 5000 0) ∧
    ((fun (s : State) (now i : Nat) => (s.canonical = true) ∧ (s.pklOn = true) ∧ (s.pklTx = true) ∧ (s.ndList.head? = some i) ∧ (s.idExp i = 0) ∧ (s.isF Reg.PKL_CFG_OPEN_ENUM = true)) ((((((((((((((((State.reset.setF Reg.PKL_CFG_EN 1).setF Reg.PKL_CFG_NODES 3).setF Reg.PKL_CFG_LOST_SWEEPS 3).setF Reg.PKL_CHAIN 4660).setF Reg.TWN_STATUS_LOCK 1).setF Reg.PKL_ND_MAP_EN 1 0).setF Reg.PKL_ND_MAP_CELLS 2 0).setF Reg.PKL_ND_MAP_FIRST_CELL 0 0).setF Reg.PKL_ND_MAP_EN 1 1).setF Reg.PKL_ND_MAP_CELLS 2 1).setF Reg.PKL_ND_MAP_FIRST_CELL 2 1).setF Reg.PKL_ND_MAP_EN 1 2).setF Reg.PKL_ND_MAP_CELLS 2 2).setF Reg.PKL_ND_MAP_FIRST_CELL 4 2).setF Reg.PKL_CFG_OPEN_ENUM 1)) 5000 0) ∧
    ((fun (s : State) (now i : Nat) => (s.canonical = true) ∧ (s.pklOn = true) ∧ (s.pklTx = true) ∧ (s.ndList.head? = some i) ∧ (s.idExp i = 0) ∧ (s.idFound i ≠ 0)) (((((((((((((((((((State.reset.setF Reg.PKL_CFG_EN 1).setF Reg.PKL_CFG_NODES 3).setF Reg.PKL_CFG_LOST_SWEEPS 3).setF Reg.PKL_CHAIN 4660).setF Reg.TWN_STATUS_LOCK 1).setF Reg.PKL_ND_MAP_EN 1 0).setF Reg.PKL_ND_MAP_CELLS 2 0).setF Reg.PKL_ND_MAP_FIRST_CELL 0 0).setF Reg.PKL_ND_MAP_EN 1 1).setF Reg.PKL_ND_MAP_CELLS 2 1).setF Reg.PKL_ND_MAP_FIRST_CELL 2 1).setF Reg.PKL_ND_MAP_EN 1 2).setF Reg.PKL_ND_MAP_CELLS 2 2).setF Reg.PKL_ND_MAP_FIRST_CELL 4 2).setF Reg.PKL_ND_ID_FOUND_LO 3 0).setF Reg.PKL_ND_STAT_STATE 2 0).setF Reg.PKL_ND_STAT_STATE 2 1).setF Reg.PKL_ND_STAT_STATE 4 2)) 5000 0) ∧
    ((fun (s : State) => (s.canonical = true) ∧ (s.pklOn = true) ∧ (s.pklTx = true) ∧ (s.pklPhase ≠ pklOff)) (((((((((((((((((({ State.reset with pkl := { State.reset.pkl with sweep := true } }).setF Reg.PKL_CFG_EN 1).setF Reg.PKL_CFG_NODES 3).setF Reg.PKL_CFG_LOST_SWEEPS 3).setF Reg.PKL_CHAIN 4660).setF Reg.TWN_STATUS_LOCK 1).setF Reg.PKL_ND_MAP_EN 1 0).setF Reg.PKL_ND_MAP_CELLS 2 0).setF Reg.PKL_ND_MAP_FIRST_CELL 0 0).setF Reg.PKL_ND_MAP_EN 1 1).setF Reg.PKL_ND_MAP_CELLS 2 1).setF Reg.PKL_ND_MAP_FIRST_CELL 2 1).setF Reg.PKL_ND_MAP_EN 1 2).setF Reg.PKL_ND_MAP_CELLS 2 2).setF Reg.PKL_ND_MAP_FIRST_CELL 4 2).setF Reg.PKL_STATUS_PHASE 2).setF Reg.PKL_ND_BLEED_RUN 3 1))) ∧
    ((fun (s : State) (radio now : Nat) (air m : List Byte) (e : EnumStep) (j : Nat) => (s.canonical = true) ∧ (s.hearsAir 1 0x12 air m = true) ∧ (s.pkl.step = some e) ∧ (radio = e.side) ∧ (e.side = 0) ∧ (e.slots = 0) ∧ (now ≤ e.sentAt + s.enumWait e.side e.pos) ∧ (beAt (m.drop 8) 8 1 = e.pos) ∧ (e.target = 0 ∨ e.target = beAt (m.drop 8) 0 8) ∧ (e.pos < 48) ∧ (s.pklTx = true) ∧ (s.pkl.firstMiss = 0) ∧ (bitOf s.pkl.stopped 1 = false) ∧ (s.pkl.segment = none) ∧ ((s.ndList.filter fun q => decide (q ≠ e.pos ∧ s.ndState q = ndPending)).getLast? = some j) ∧ (s.idExp j ≠ 0)) ((((((((((((((((((((({ State.reset with pkl := { State.reset.pkl with step := some { side := 0, pos := 0, target := 0, sentAt := 100 } } }).setF Reg.PKL_CFG_EN 1).setF Reg.PKL_CFG_NODES 3).setF Reg.PKL_CFG_LOST_SWEEPS 3).setF Reg.PKL_CHAIN 4660).setF Reg.TWN_STATUS_LOCK 1).setF Reg.PKL_ND_MAP_EN 1 0).setF Reg.PKL_ND_MAP_CELLS 2 0).setF Reg.PKL_ND_MAP_FIRST_CELL 0 0).setF Reg.PKL_ND_MAP_EN 1 1).setF Reg.PKL_ND_MAP_CELLS 2 1).setF Reg.PKL_ND_MAP_FIRST_CELL 2 1).setF Reg.PKL_ND_MAP_EN 1 2).setF Reg.PKL_ND_MAP_CELLS 2 2).setF Reg.PKL_ND_MAP_FIRST_CELL 4 2).setF Reg.PKL_STATUS_PHASE 1).setF Reg.PKL_ND_STAT_STATE 1 0).setF Reg.PKL_ND_STAT_STATE 1 1).setF Reg.PKL_ND_STAT_STATE 1 2).setF Reg.PKL_ND_ID_EXP_LO 9 2)) 0 5000 (State.onAir (State.reset.setF Reg.PKL_CHAIN 0x1234) 1 (beBytes 24 0x12001234FE000001000000000000004D0000000000000000)) (beBytes 24 0x12001234FE000001000000000000004D0000000000000000) { side := 0, pos := 0, target := 0, sentAt := 100 } 2) ∧
    ((fun (s : State) (radio now : Nat) (air m : List Byte) (e : EnumStep) => (s.canonical = true) ∧ (s.hearsAir 1 0x12 air m = true) ∧ (s.pkl.step = some e) ∧ (radio = e.side) ∧ (e.slots = 0) ∧ (now ≤ e.sentAt + s.enumWait e.side e.pos) ∧ (beAt (m.drop 8) 8 1 = e.pos) ∧ (e.target = 0 ∨ e.target = beAt (m.drop 8) 0 8) ∧ (e.pos < 48) ∧ (s.pkl.firstMiss = 0) ∧ (s.pkl.stopped = 0) ∧ (e.side < 2) ∧ (s.pkl.segment = none) ∧ ((s.ndList.all fun q => q = e.pos || decide (s.ndState q = ndReached)) = true) ∧ (s.getF Reg.EST_CFG_AUTH_POLICY = 0) ∧ (s.pkl.authQ = []) ∧ (s.pkl.auth = none)) ((((((((((((((((((((({ State.reset with pkl := { State.reset.pkl with step := some { side := 0, pos := 0, target := 0, sentAt := 100 } } }).setF Reg.PKL_CFG_EN 1).setF Reg.PKL_CFG_NODES 3).setF Reg.PKL_CFG_LOST_SWEEPS 3).setF Reg.PKL_CHAIN 4660).setF Reg.TWN_STATUS_LOCK 1).setF Reg.PKL_ND_MAP_EN 1 0).setF Reg.PKL_ND_MAP_CELLS 2 0).setF Reg.PKL_ND_MAP_FIRST_CELL 0 0).setF Reg.PKL_ND_MAP_EN 1 1).setF Reg.PKL_ND_MAP_CELLS 2 1).setF Reg.PKL_ND_MAP_FIRST_CELL 2 1).setF Reg.PKL_ND_MAP_EN 1 2).setF Reg.PKL_ND_MAP_CELLS 2 2).setF Reg.PKL_ND_MAP_FIRST_CELL 4 2).setF Reg.PKL_STATUS_PHASE 1).setF Reg.EST_CFG_AUTH_POLICY 0).setF Reg.PKL_ND_STAT_STATE 1 0).setF Reg.PKL_ND_STAT_STATE 2 1).setF Reg.PKL_ND_STAT_STATE 2 2)) 0 5000 (State.onAir (State.reset.setF Reg.PKL_CHAIN 0x1234) 1 (beBytes 24 0x12001234FE000001000000000000004D0000000000000000)) (beBytes 24 0x12001234FE000001000000000000004D0000000000000000) { side := 0, pos := 0, target := 0, sentAt := 100 }) ∧
    ((fun (s : State) (radio now : Nat) (air m : List Byte) (e : EnumStep) => (s.hearsAir 1 0x12 air m = true) ∧ (s.pkl.step = some e) ∧ (radio = e.side) ∧ (e.slots ≠ 0)) ((((((((((((((((({ State.reset with pkl := { State.reset.pkl with step := some { side := 0, pos := 0, target := 0, sentAt := 100 , slots := 16 } } }).setF Reg.PKL_CFG_EN 1).setF Reg.PKL_CFG_NODES 3).setF Reg.PKL_CFG_LOST_SWEEPS 3).setF Reg.PKL_CHAIN 4660).setF Reg.TWN_STATUS_LOCK 1).setF Reg.PKL_ND_MAP_EN 1 0).setF Reg.PKL_ND_MAP_CELLS 2 0).setF Reg.PKL_ND_MAP_FIRST_CELL 0 0).setF Reg.PKL_ND_MAP_EN 1 1).setF Reg.PKL_ND_MAP_CELLS 2 1).setF Reg.PKL_ND_MAP_FIRST_CELL 2 1).setF Reg.PKL_ND_MAP_EN 1 2).setF Reg.PKL_ND_MAP_CELLS 2 2).setF Reg.PKL_ND_MAP_FIRST_CELL 4 2).setF Reg.PKL_STATUS_PHASE 1)) 0 5000 (State.onAir (State.reset.setF Reg.PKL_CHAIN 0x1234) 1 (beBytes 24 0x12001234FE000001000000000000004D000000C800000000)) (beBytes 24 0x12001234FE000001000000000000004D000000C800000000) { side := 0, pos := 0, target := 0, sentAt := 100 , slots := 16 }) ∧
    ((fun (s : State) (now : Nat) (e : EnumStep) => (s.pkl.step = some e) ∧ (e.slots = 0) ∧ (e.sentAt + s.enumWait e.side e.pos < now) ∧ (e.tries < 3) ∧ (s.pklTx = true)) ((((((((((((((((({ State.reset with pkl := { State.reset.pkl with step := some { side := 0, pos := 0, target := 0, sentAt := 100 } } }).setF Reg.PKL_CFG_EN 1).setF Reg.PKL_CFG_NODES 3).setF Reg.PKL_CFG_LOST_SWEEPS 3).setF Reg.PKL_CHAIN 4660).setF Reg.TWN_STATUS_LOCK 1).setF Reg.PKL_ND_MAP_EN 1 0).setF Reg.PKL_ND_MAP_CELLS 2 0).setF Reg.PKL_ND_MAP_FIRST_CELL 0 0).setF Reg.PKL_ND_MAP_EN 1 1).setF Reg.PKL_ND_MAP_CELLS 2 1).setF Reg.PKL_ND_MAP_FIRST_CELL 2 1).setF Reg.PKL_ND_MAP_EN 1 2).setF Reg.PKL_ND_MAP_CELLS 2 2).setF Reg.PKL_ND_MAP_FIRST_CELL 4 2).setF Reg.PKL_STATUS_PHASE 1)) 4000000 { side := 0, pos := 0, target := 0, sentAt := 100 }) ∧
    ((fun (s : State) (now : Nat) (e : EnumStep) => (s.canonical = true) ∧ (s.pkl.step = some e) ∧ (e.slots = 0) ∧ (e.side < 2) ∧ (e.sentAt + s.enumWait e.side e.pos < now) ∧ (3 ≤ e.tries) ∧ (s.pkl.stopped = 2 ^ (1 - e.side)) ∧ (s.pkl.held = true) ∧ (s.pkl.segment = none) ∧ ((s.ndList.filter fun q => decide (s.ndState q = ndPending)) ≠ []) ∧ (s.getF Reg.EST_CFG_AUTH_POLICY = 0) ∧ (s.pkl.authQ = []) ∧ (s.pkl.auth = none)) ((((((((((((((((((((({ State.reset with pkl := { State.reset.pkl with step := some { side := 0, pos := 0, target := 0, sentAt := 100 , tries := 3 }, stopped := 2, held := true } }).setF Reg.PKL_CFG_EN 1).setF Reg.PKL_CFG_NODES 3).setF Reg.PKL_CFG_LOST_SWEEPS 3).setF Reg.PKL_CHAIN 4660).setF Reg.TWN_STATUS_LOCK 1).setF Reg.PKL_ND_MAP_EN 1 0).setF Reg.PKL_ND_MAP_CELLS 2 0).setF Reg.PKL_ND_MAP_FIRST_CELL 0 0).setF Reg.PKL_ND_MAP_EN 1 1).setF Reg.PKL_ND_MAP_CELLS 2 1).setF Reg.PKL_ND_MAP_FIRST_CELL 2 1).setF Reg.PKL_ND_MAP_EN 1 2).setF Reg.PKL_ND_MAP_CELLS 2 2).setF Reg.PKL_ND_MAP_FIRST_CELL 4 2).setF Reg.PKL_STATUS_PHASE 1).setF Reg.EST_CFG_AUTH_POLICY 0).setF Reg.PKL_ND_STAT_STATE 1 0).setF Reg.PKL_ND_STAT_STATE 1 1).setF Reg.PKL_ND_STAT_STATE 2 2)) 4000000 { side := 0, pos := 0, target := 0, sentAt := 100 , tries := 3 }) ∧
    ((fun (s : State) (now : Nat) (e : EnumStep) (x : Int × Nat) => (s.pkl.step = some e) ∧ (e.slots ≠ 0) ∧ (e.sentAt + e.slots * 1000000 ≤ now) ∧ (bestAnswer e.answers = some x) ∧ (s.pklTx = true)) ((((((((((((((((({ State.reset with pkl := { State.reset.pkl with step := some { side := 0, pos := 0, target := 0, sentAt := 100 , slots := 16, answers := [(-70, 5), (-60, 9), (-60, 8)] } } }).setF Reg.PKL_CFG_EN 1).setF Reg.PKL_CFG_NODES 3).setF Reg.PKL_CFG_LOST_SWEEPS 3).setF Reg.PKL_CHAIN 4660).setF Reg.TWN_STATUS_LOCK 1).setF Reg.PKL_ND_MAP_EN 1 0).setF Reg.PKL_ND_MAP_CELLS 2 0).setF Reg.PKL_ND_MAP_FIRST_CELL 0 0).setF Reg.PKL_ND_MAP_EN 1 1).setF Reg.PKL_ND_MAP_CELLS 2 1).setF Reg.PKL_ND_MAP_FIRST_CELL 2 1).setF Reg.PKL_ND_MAP_EN 1 2).setF Reg.PKL_ND_MAP_CELLS 2 2).setF Reg.PKL_ND_MAP_FIRST_CELL 4 2).setF Reg.PKL_STATUS_PHASE 1)) 50000000 { side := 0, pos := 0, target := 0, sentAt := 100 , slots := 16, answers := [(-70, 5), (-60, 9), (-60, 8)] } (-60, 8)) ∧
    ((fun (s : State) (now : Nat) (e : EnumStep) => (s.pkl.step = some e) ∧ (e.slots ≠ 0) ∧ (e.sentAt + e.slots * 1000000 ≤ now) ∧ (e.answers = []) ∧ (e.slots < 128) ∧ (s.pklTx = true)) ((((((((((((((((({ State.reset with pkl := { State.reset.pkl with step := some { side := 0, pos := 0, target := 0, sentAt := 100 , slots := 16 } } }).setF Reg.PKL_CFG_EN 1).setF Reg.PKL_CFG_NODES 3).setF Reg.PKL_CFG_LOST_SWEEPS 3).setF Reg.PKL_CHAIN 4660).setF Reg.TWN_STATUS_LOCK 1).setF Reg.PKL_ND_MAP_EN 1 0).setF Reg.PKL_ND_MAP_CELLS 2 0).setF Reg.PKL_ND_MAP_FIRST_CELL 0 0).setF Reg.PKL_ND_MAP_EN 1 1).setF Reg.PKL_ND_MAP_CELLS 2 1).setF Reg.PKL_ND_MAP_FIRST_CELL 2 1).setF Reg.PKL_ND_MAP_EN 1 2).setF Reg.PKL_ND_MAP_CELLS 2 2).setF Reg.PKL_ND_MAP_FIRST_CELL 4 2).setF Reg.PKL_STATUS_PHASE 1)) 50000000 { side := 0, pos := 0, target := 0, sentAt := 100 , slots := 16 }) ∧
    ((fun (s : State) (now : Nat) => (s.pklOn = false)) (State.reset) 9) ∧
    ((fun (s : State) (now : Nat) => (s.pklOn = false)) (State.reset) 9) ∧
    ((fun (s : State) => (s.pklOn = false ∨ s.pklPhase = pklOff)) (State.reset)) ∧
    ((fun (s : State) (radio now : Nat) (air m : List Byte) (e : EnumStep) => (s.hearsAir 1 0x12 air m = true) ∧ (s.pkl.step = some e) ∧ (radio ≠ e.side ∨ e.slots = 0 ∧ e.sentAt + s.enumWait e.side e.pos < now)) (((((((((((((((((((({ State.reset with pkl := { State.reset.pkl with step := some { side := 0, pos := 0, target := 0, sentAt := 100 } } }).setF Reg.PKL_CFG_EN 1).setF Reg.PKL_CFG_NODES 3).setF Reg.PKL_CFG_LOST_SWEEPS 3).setF Reg.PKL_CHAIN 4660).setF Reg.TWN_STATUS_LOCK 1).setF Reg.PKL_ND_MAP_EN 1 0).setF Reg.PKL_ND_MAP_CELLS 2 0).setF Reg.PKL_ND_MAP_FIRST_CELL 0 0).setF Reg.PKL_ND_MAP_EN 1 1).setF Reg.PKL_ND_MAP_CELLS 2 1).setF Reg.PKL_ND_MAP_FIRST_CELL 2 1).setF Reg.PKL_ND_MAP_EN 1 2).setF Reg.PKL_ND_MAP_CELLS 2 2).setF Reg.PKL_ND_MAP_FIRST_CELL 4 2).setF Reg.PKL_STATUS_PHASE 1).setF Reg.PKL_ND_STAT_STATE 1 0).setF Reg.PKL_ND_STAT_STATE 1 1).setF Reg.PKL_ND_STAT_STATE 1 2)) 1 5000 (State.onAir (State.reset.setF Reg.PKL_CHAIN 0x1234) 1 (beBytes 24 0x12001234FE000001000000000000004D0000000000000000)) (beBytes 24 0x12001234FE000001000000000000004D0000000000000000) { side := 0, pos := 0, target := 0, sentAt := 100 }) ∧
    ((fun (s : State) (radio now : Nat) (air m : List Byte) (e : EnumStep) => (s.canonical = true) ∧ (s.hearsAir 1 0x12 air m = true) ∧ (s.pkl.step = some e) ∧ (radio = e.side) ∧ (e.slots = 0) ∧ (now ≤ e.sentAt + s.enumWait e.side e.pos) ∧ (beAt (m.drop 8) 8 1 = e.pos) ∧ (e.target ≠ 0) ∧ (e.target ≠ beAt (m.drop 8) 0 8) ∧ (e.pos < 48)) (((((((((((((((((((({ State.reset with pkl := { State.reset.pkl with step := some { side := 0, pos := 0, target := 5, sentAt := 100 } } }).setF Reg.PKL_CFG_EN 1).setF Reg.PKL_CFG_NODES 3).setF Reg.PKL_CFG_LOST_SWEEPS 3).setF Reg.PKL_CHAIN 4660).setF Reg.TWN_STATUS_LOCK 1).setF Reg.PKL_ND_MAP_EN 1 0).setF Reg.PKL_ND_MAP_CELLS 2 0).setF Reg.PKL_ND_MAP_FIRST_CELL 0 0).setF Reg.PKL_ND_MAP_EN 1 1).setF Reg.PKL_ND_MAP_CELLS 2 1).setF Reg.PKL_ND_MAP_FIRST_CELL 2 1).setF Reg.PKL_ND_MAP_EN 1 2).setF Reg.PKL_ND_MAP_CELLS 2 2).setF Reg.PKL_ND_MAP_FIRST_CELL 4 2).setF Reg.PKL_STATUS_PHASE 1).setF Reg.PKL_ND_STAT_STATE 1 0).setF Reg.PKL_ND_STAT_STATE 1 1).setF Reg.PKL_ND_STAT_STATE 1 2)) 0 5000 (State.onAir (State.reset.setF Reg.PKL_CHAIN 0x1234) 1 (beBytes 24 0x12001234FE000001000000000000004D0000000000000000)) (beBytes 24 0x12001234FE000001000000000000004D0000000000000000) { side := 0, pos := 0, target := 5, sentAt := 100 }) ∧
    ((fun (s : State) (radio now : Nat) (air m : List Byte) => (s.hearsAir 1 0x12 air m = true) ∧ (s.pkl.step = none) ∧ (s.pklTx = true ∨ s.ndUsed (beAt (m.drop 8) 8 1) = false)) (((((((((((((((((((State.reset.setF Reg.PKL_CFG_EN 1).setF Reg.PKL_CFG_NODES 3).setF Reg.PKL_CFG_LOST_SWEEPS 3).setF Reg.PKL_CHAIN 4660).setF Reg.TWN_STATUS_LOCK 1).setF Reg.PKL_ND_MAP_EN 1 0).setF Reg.PKL_ND_MAP_CELLS 2 0).setF Reg.PKL_ND_MAP_FIRST_CELL 0 0).setF Reg.PKL_ND_MAP_EN 1 1).setF Reg.PKL_ND_MAP_CELLS 2 1).setF Reg.PKL_ND_MAP_FIRST_CELL 2 1).setF Reg.PKL_ND_MAP_EN 1 2).setF Reg.PKL_ND_MAP_CELLS 2 2).setF Reg.PKL_ND_MAP_FIRST_CELL 4 2).setF Reg.PKL_STATUS_PHASE 2).setF Reg.PKL_ND_STAT_STATE 2 0).setF Reg.PKL_ND_STAT_STATE 2 1).setF Reg.PKL_ND_STAT_STATE 4 2)) 0 5000 (State.onAir (State.reset.setF Reg.PKL_CHAIN 0x1234) 1 (beBytes 24 0x12001234FE000001000000000000004D0000000000000000)) (beBytes 24 0x12001234FE000001000000000000004D0000000000000000)) ∧
    ((fun (s : State) (radio now p : Nat) (air m : List Byte) => (s.canonical = true) ∧ (s.hearsAir 1 0x12 air m = true) ∧ (s.pkl.step = none) ∧ (s.pklTx = false) ∧ (s.pklPhase ≠ pklEnum) ∧ (beAt (m.drop 8) 8 1 = p) ∧ (s.ndUsed p = true) ∧ ((s.ndState p = ndPending ∧ (s.idExp p = 0 ∨ s.idExp p = beAt (m.drop 8) 0 8)) ∨ (s.ndState p = ndLost ∧ s.idFound p = beAt (m.drop 8) 0 8))) (((((((((((((((((((((State.reset.setF Reg.PKL_CFG_EN 1).setF Reg.PKL_CFG_NODES 3).setF Reg.PKL_CFG_LOST_SWEEPS 3).setF Reg.PKL_CHAIN 4660).setF Reg.TWN_STATUS_LOCK 1).setF Reg.PKL_ND_MAP_EN 1 0).setF Reg.PKL_ND_MAP_CELLS 2 0).setF Reg.PKL_ND_MAP_FIRST_CELL 0 0).setF Reg.PKL_ND_MAP_EN 1 1).setF Reg.PKL_ND_MAP_CELLS 2 1).setF Reg.PKL_ND_MAP_FIRST_CELL 2 1).setF Reg.PKL_ND_MAP_EN 1 2).setF Reg.PKL_ND_MAP_CELLS 2 2).setF Reg.PKL_ND_MAP_FIRST_CELL 4 2).setF Reg.PKL_STATUS_PHASE 2).setF Reg.PKL_ND_STAT_STATE 2 0).setF Reg.PKL_ND_STAT_STATE 2 1).setF Reg.PKL_ND_STAT_STATE 4 2).setF Reg.TWN_STATUS_LOCK 0).setF Reg.PKL_ND_ID_FOUND_LO 77 2)) 0 5000 2 (State.onAir (State.reset.setF Reg.PKL_CHAIN 0x1234) 1 (beBytes 24 0x12001234FE000001000000000000004D0200000000000000)) (beBytes 24 0x12001234FE000001000000000000004D0200000000000000)) ∧
    ((fun (s : State) (radio now : Nat) (psdu : List Byte) => (s.canonical = true) ∧ (s.pklOn = true) ∧ (127 < psdu.length ∨ psdu.length < 2 ∨ fcs16 (psdu.take (psdu.length - 2)) ≠ leAt psdu (psdu.length - 2) 2)) (((((((((((((((State.reset.setF Reg.PKL_CFG_EN 1).setF Reg.PKL_CFG_NODES 3).setF Reg.PKL_CFG_LOST_SWEEPS 3).setF Reg.PKL_CHAIN 4660).setF Reg.TWN_STATUS_LOCK 1).setF Reg.PKL_ND_MAP_EN 1 0).setF Reg.PKL_ND_MAP_CELLS 2 0).setF Reg.PKL_ND_MAP_FIRST_CELL 0 0).setF Reg.PKL_ND_MAP_EN 1 1).setF Reg.PKL_ND_MAP_CELLS 2 1).setF Reg.PKL_ND_MAP_FIRST_CELL 2 1).setF Reg.PKL_ND_MAP_EN 1 2).setF Reg.PKL_ND_MAP_CELLS 2 2).setF Reg.PKL_ND_MAP_FIRST_CELL 4 2)) 0 9 [1#8]) ∧
    ((fun (s : State) (now : Nat) (psdu : List Byte) => (s.canonical = true) ∧ (s.pklOn = true) ∧ (127 < psdu.length ∨ psdu.length < 2 ∨ fcs16 (psdu.take (psdu.length - 2)) ≠ leAt psdu (psdu.length - 2) 2)) (((((((((((((((State.reset.setF Reg.PKL_CFG_EN 1).setF Reg.PKL_CFG_NODES 3).setF Reg.PKL_CFG_LOST_SWEEPS 3).setF Reg.PKL_CHAIN 4660).setF Reg.TWN_STATUS_LOCK 1).setF Reg.PKL_ND_MAP_EN 1 0).setF Reg.PKL_ND_MAP_CELLS 2 0).setF Reg.PKL_ND_MAP_FIRST_CELL 0 0).setF Reg.PKL_ND_MAP_EN 1 1).setF Reg.PKL_ND_MAP_CELLS 2 1).setF Reg.PKL_ND_MAP_FIRST_CELL 2 1).setF Reg.PKL_ND_MAP_EN 1 2).setF Reg.PKL_ND_MAP_CELLS 2 2).setF Reg.PKL_ND_MAP_FIRST_CELL 4 2)) 9 [1#8]) ∧
    ((fun (s : State) (now : Nat) => (s.pkl.step = none)) (State.reset) 9) ∧
    ((fun (s : State) (now : Nat) (e : EnumStep) => (s.pkl.step = some e) ∧ (e.slots ≠ 0 ∨ now ≤ e.sentAt + s.enumWait e.side e.pos)) ((((((((((((((((({ State.reset with pkl := { State.reset.pkl with step := some { side := 0, pos := 0, target := 0, sentAt := 100 } } }).setF Reg.PKL_CFG_EN 1).setF Reg.PKL_CFG_NODES 3).setF Reg.PKL_CFG_LOST_SWEEPS 3).setF Reg.PKL_CHAIN 4660).setF Reg.TWN_STATUS_LOCK 1).setF Reg.PKL_ND_MAP_EN 1 0).setF Reg.PKL_ND_MAP_CELLS 2 0).setF Reg.PKL_ND_MAP_FIRST_CELL 0 0).setF Reg.PKL_ND_MAP_EN 1 1).setF Reg.PKL_ND_MAP_CELLS 2 1).setF Reg.PKL_ND_MAP_FIRST_CELL 2 1).setF Reg.PKL_ND_MAP_EN 1 2).setF Reg.PKL_ND_MAP_CELLS 2 2).setF Reg.PKL_ND_MAP_FIRST_CELL 4 2).setF Reg.PKL_STATUS_PHASE 1)) 9 { side := 0, pos := 0, target := 0, sentAt := 100 }) ∧
    ((fun (s : State) (now : Nat) (e : EnumStep) => (s.pkl.step = some e) ∧ (e.slots = 0 ∨ now < e.sentAt + e.slots * 1000000)) ((((((((((((((((({ State.reset with pkl := { State.reset.pkl with step := some { side := 0, pos := 0, target := 0, sentAt := 100 } } }).setF Reg.PKL_CFG_EN 1).setF Reg.PKL_CFG_NODES 3).setF Reg.PKL_CFG_LOST_SWEEPS 3).setF Reg.PKL_CHAIN 4660).setF Reg.TWN_STATUS_LOCK 1).setF Reg.PKL_ND_MAP_EN 1 0).setF Reg.PKL_ND_MAP_CELLS 2 0).setF Reg.PKL_ND_MAP_FIRST_CELL 0 0).setF Reg.PKL_ND_MAP_EN 1 1).setF Reg.PKL_ND_MAP_CELLS 2 1).setF Reg.PKL_ND_MAP_FIRST_CELL 2 1).setF Reg.PKL_ND_MAP_EN 1 2).setF Reg.PKL_ND_MAP_CELLS 2 2).setF Reg.PKL_ND_MAP_FIRST_CELL 4 2).setF Reg.PKL_STATUS_PHASE 1)) 9 { side := 0, pos := 0, target := 0, sentAt := 100 }) ∧
    ((fun (s : State) (now : Nat) => (s.pkl.step = none)) (State.reset) 9) ∧
    ((fun (s : State) (now : Nat) => (s.pklPhase ≠ pklRun ∨ s.lostSegment.isNone ∨ s.pkl.step.isSome)) (State.reset) 9) ∧
    ((fun (s : State) (now : Nat) (g : Nat × Nat) => (s.pklPhase = pklRun) ∧ (s.lostSegment = some g) ∧ (s.pkl.step = none) ∧ (s.pkl.sweep = true)) (((((((((((((((((((({ State.reset with pkl := { State.reset.pkl with sweep := true } }).setF Reg.PKL_CFG_EN 1).setF Reg.PKL_CFG_NODES 3).setF Reg.PKL_CFG_LOST_SWEEPS 3).setF Reg.PKL_CHAIN 4660).setF Reg.TWN_STATUS_LOCK 1).setF Reg.PKL_ND_MAP_EN 1 0).setF Reg.PKL_ND_MAP_CELLS 2 0).setF Reg.PKL_ND_MAP_FIRST_CELL 0 0).setF Reg.PKL_ND_MAP_EN 1 1).setF Reg.PKL_ND_MAP_CELLS 2 1).setF Reg.PKL_ND_MAP_FIRST_CELL 2 1).setF Reg.PKL_ND_MAP_EN 1 2).setF Reg.PKL_ND_MAP_CELLS 2 2).setF Reg.PKL_ND_MAP_FIRST_CELL 4 2).setF Reg.PKL_STATUS_PHASE 2).setF Reg.PKL_ND_STAT_STATE 2 0).setF Reg.PKL_ND_STAT_STATE 4 1).setF Reg.PKL_ND_STAT_STATE 4 2)) 5000 (1, 2)) ∧
    ((fun (s : State) (now : Nat) (g : Nat × Nat) => (s.pklPhase = pklRun) ∧ (s.lostSegment = some g) ∧ (s.pkl.step = none) ∧ (s.pkl.sweep = false) ∧ (s.pklTx = true) ∧ (s.pkl.turn = 0) ∧ (s.sideReaches 0 g = true) ∧ (s.sideReaches 1 g = true) ∧ (s.idFound g.1 ≠ 0)) ((((((((((((((((((((({ State.reset with pkl := { State.reset.pkl with p := 7 } }).setF Reg.PKL_CFG_EN 1).setF Reg.PKL_CFG_NODES 3).setF Reg.PKL_CFG_LOST_SWEEPS 3).setF Reg.PKL_CHAIN 4660).setF Reg.TWN_STATUS_LOCK 1).setF Reg.PKL_ND_MAP_EN 1 0).setF Reg.PKL_ND_MAP_CELLS 2 0).setF Reg.PKL_ND_MAP_FIRST_CELL 0 0).setF Reg.PKL_ND_MAP_EN 1 1).setF Reg.PKL_ND_MAP_CELLS 2 1).setF Reg.PKL_ND_MAP_FIRST_CELL 2 1).setF Reg.PKL_ND_MAP_EN 1 2).setF Reg.PKL_ND_MAP_CELLS 2 2).setF Reg.PKL_ND_MAP_FIRST_CELL 4 2).setF Reg.PKL_STATUS_PHASE 2).setF Reg.PKL_ND_STAT_STATE 2 0).setF Reg.PKL_ND_STAT_STATE 4 1).setF Reg.PKL_ND_STAT_STATE 4 2).setF Reg.PKL_ND_ID_FOUND_LO 3 1)) 5000 (1, 2)) := by
  repeat refine And.intro (by decide +kernel) ?_
  decide +kernel

theorem test_meets_SweepsBalancingAndPackAuthentication :
    ((fun (s : State) (now : Nat) => (s.pklOn = false ∨ s.pklPhase ≠ pklRun ∨ s.pkl.ready = false ∨ s.frame % 1000 ≠ 0 ∨ s.cpc.grantAt ≠ some s.frame ∨ s.frame < s.pkl.nextP)) (State.reset) 9) ∧
    ((fun (s : State) (now : Nat) (g : Nat × Nat) => (s.canonical = true) ∧ (s.pklOn = true) ∧ (s.pklPhase = pklRun) ∧ (s.pkl.ready = true) ∧ (s.frame % 1000 = 0) ∧ (s.cpc.grantAt = some s.frame) ∧ (s.pkl.nextP ≤ s.frame) ∧ (s.lostSegment = some g) ∧ (s.pkl.auth = none)) (((((((((((((((((((((({ State.reset with pkl := { State.reset.pkl with ready := true }, cpc := { State.reset.cpc with grantAt := some 0 } }).setF Reg.PKL_CFG_EN 1).setF Reg.PKL_CFG_NODES 3).setF Reg.PKL_CFG_LOST_SWEEPS 3).setF Reg.PKL_CHAIN 4660).setF Reg.TWN_STATUS_LOCK 1).setF Reg.PKL_ND_MAP_EN 1 0).setF Reg.PKL_ND_MAP_CELLS 2 0).setF Reg.PKL_ND_MAP_FIRST_CELL 0 0).setF Reg.PKL_ND_MAP_EN 1 1).setF Reg.PKL_ND_MAP_CELLS 2 1).setF Reg.PKL_ND_MAP_FIRST_CELL 2 1).setF Reg.PKL_ND_MAP_EN 1 2).setF Reg.PKL_ND_MAP_CELLS 2 2).setF Reg.PKL_ND_MAP_FIRST_CELL 4 2).setF Reg.PKL_STATUS_PHASE 2).setF Reg.PKL_ND_STAT_STATE 2 0).setF Reg.PKL_ND_STAT_STATE 2 1).setF Reg.PKL_ND_STAT_STATE 2 2).setF Reg.PKL_ND_STAT_STATE 4 2).setF Reg.SNS_SI_CFG_LEAD 200)) 7000000 (2, 2)) ∧
    ((fun (s : State) (now : Nat) => (s.canonical = true) ∧ (s.pklOn = true) ∧ (s.pklTx = true) ∧ (s.pklPhase = pklRun) ∧ (s.pkl.ready = true) ∧ (s.frame % 1000 = 0) ∧ (s.cpc.grantAt = some s.frame) ∧ (s.pkl.nextP ≤ s.frame) ∧ (s.lostSegment = none) ∧ (s.pkl.auth = none) ∧ (s.pkl.authQ = [])) (((((((((((((((((((((((({ State.reset with pkl := { State.reset.pkl with ready := true }, cpc := { State.reset.cpc with grantAt := some 0 } }).setF Reg.PKL_CFG_EN 1).setF Reg.PKL_CFG_NODES 3).setF Reg.PKL_CFG_LOST_SWEEPS 3).setF Reg.PKL_CHAIN 4660).setF Reg.TWN_STATUS_LOCK 1).setF Reg.PKL_ND_MAP_EN 1 0).setF Reg.PKL_ND_MAP_CELLS 2 0).setF Reg.PKL_ND_MAP_FIRST_CELL 0 0).setF Reg.PKL_ND_MAP_EN 1 1).setF Reg.PKL_ND_MAP_CELLS 2 1).setF Reg.PKL_ND_MAP_FIRST_CELL 2 1).setF Reg.PKL_ND_MAP_EN 1 2).setF Reg.PKL_ND_MAP_CELLS 2 2).setF Reg.PKL_ND_MAP_FIRST_CELL 4 2).setF Reg.PKL_STATUS_PHASE 2).setF Reg.PKL_ND_STAT_STATE 2 0).setF Reg.PKL_ND_STAT_STATE 2 1).setF Reg.PKL_ND_STAT_STATE 2 2).setF Reg.SNS_SI_CFG_LEAD 200).setF Reg.SNS_SI_CFG_PHASE 5).setF Reg.PKL_EFF_EFF_SPLIT 2).setF Reg.PKL_SWEEP_CFG 32768010)) 7000000) ∧
    ((fun (s : State) (radio q : Nat) (air m : List Byte) => (s.hearsAir 0 0x02 air m = true) ∧ (s.pkl.sweep = true) ∧ (beAt m 6 2 = s.getF Reg.PKL_SWEEP_NO % 65536) ∧ (beAt m 5 1 = q) ∧ (s.ndUsed q = true) ∧ (ndReached ≤ s.ndState q)) (((((((((((((((((((((({ State.reset with pkl := { State.reset.pkl with sweep := true, recs := [(0, some (NodeRec.mk 0 false (beBytes 44 0x00010001000000008CA08CB00000000000000000000000000000000000000000000000000000000032000000)))] } }).setF Reg.PKL_CFG_EN 1).setF Reg.PKL_CFG_NODES 3).setF Reg.PKL_CFG_LOST_SWEEPS 3).setF Reg.PKL_CHAIN 4660).setF Reg.TWN_STATUS_LOCK 1).setF Reg.PKL_ND_MAP_EN 1 0).setF Reg.PKL_ND_MAP_CELLS 2 0).setF Reg.PKL_ND_MAP_FIRST_CELL 0 0).setF Reg.PKL_ND_MAP_EN 1 1).setF Reg.PKL_ND_MAP_CELLS 2 1).setF Reg.PKL_ND_MAP_FIRST_CELL 2 1).setF Reg.PKL_ND_MAP_EN 1 2).setF Reg.PKL_ND_MAP_CELLS 2 2).setF Reg.PKL_ND_MAP_FIRST_CELL 4 2).setF Reg.PKL_STATUS_PHASE 2).setF Reg.PKL_EFF_EFF_SPLIT 2).setF Reg.PKL_SWEEP_NO 5).setF Reg.PKL_ND_STAT_STATE 2 0).setF Reg.PKL_ND_STAT_STATE 2 1).setF Reg.PKL_ND_STAT_STATE 2 2)) 0 1 (State.onAir (State.reset.setF Reg.PKL_CHAIN 0x1234) 0 (beBytes 52 0x02001234FE01000500010001000000008CA08CB00000000000000000000000000000000000000000000000000000000032000000)) (beBytes 52 0x02001234FE01000500010001000000008CA08CB00000000000000000000000000000000000000000000000000000000032000000)) ∧
    ((fun (s : State) (radio : Nat) (message : List Byte) => (s.canonical = true) ∧ (s.pklOn = true) ∧ (message.take 4 = s.accessWord) ∧ (beAt (message.drop 4) 0 1 < 8 ∨ 64 < beAt (message.drop 4) 0 1 ∨ (message.drop 4).length ≠ beAt (message.drop 4) 0 1 + 3 ∨ crc16 ((message.drop 4).take (beAt (message.drop 4) 0 1 + 1)) ≠ beAt (message.drop 4) (beAt (message.drop 4) 0 1 + 1) 2)) (((((((((((((((((((((({ State.reset with pkl := { State.reset.pkl with sweep := true, recs := [(0, some (NodeRec.mk 0 false (beBytes 44 0x00010001000000008CA08CB00000000000000000000000000000000000000000000000000000000032000000)))] } }).setF Reg.PKL_CFG_EN 1).setF Reg.PKL_CFG_NODES 3).setF Reg.PKL_CFG_LOST_SWEEPS 3).setF Reg.PKL_CHAIN 4660).setF Reg.TWN_STATUS_LOCK 1).setF Reg.PKL_ND_MAP_EN 1 0).setF Reg.PKL_ND_MAP_CELLS 2 0).setF Reg.PKL_ND_MAP_FIRST_CELL 0 0).setF Reg.PKL_ND_MAP_EN 1 1).setF Reg.PKL_ND_MAP_CELLS 2 1).setF Reg.PKL_ND_MAP_FIRST_CELL 2 1).setF Reg.PKL_ND_MAP_EN 1 2).setF Reg.PKL_ND_MAP_CELLS 2 2).setF Reg.PKL_ND_MAP_FIRST_CELL 4 2).setF Reg.PKL_STATUS_PHASE 2).setF Reg.PKL_EFF_EFF_SPLIT 2).setF Reg.PKL_SWEEP_NO 5).setF Reg.PKL_ND_STAT_STATE 2 0).setF Reg.PKL_ND_STAT_STATE 2 1).setF Reg.PKL_ND_STAT_STATE 2 2)) 0 [0x3D#8, 0x9A#8, 0x12#8, 0x34#8, 1#8]) ∧
    ((fun (s : State) (radio : Nat) (message : List Byte) => (s.pklOn = false ∨ message.take 4 ≠ s.accessWord)) (((((((((((((((((((((({ State.reset with pkl := { State.reset.pkl with sweep := true, recs := [(0, some (NodeRec.mk 0 false (beBytes 44 0x00010001000000008CA08CB00000000000000000000000000000000000000000000000000000000032000000)))] } }).setF Reg.PKL_CFG_EN 1).setF Reg.PKL_CFG_NODES 3).setF Reg.PKL_CFG_LOST_SWEEPS 3).setF Reg.PKL_CHAIN 4660).setF Reg.TWN_STATUS_LOCK 1).setF Reg.PKL_ND_MAP_EN 1 0).setF Reg.PKL_ND_MAP_CELLS 2 0).setF Reg.PKL_ND_MAP_FIRST_CELL 0 0).setF Reg.PKL_ND_MAP_EN 1 1).setF Reg.PKL_ND_MAP_CELLS 2 1).setF Reg.PKL_ND_MAP_FIRST_CELL 2 1).setF Reg.PKL_ND_MAP_EN 1 2).setF Reg.PKL_ND_MAP_CELLS 2 2).setF Reg.PKL_ND_MAP_FIRST_CELL 4 2).setF Reg.PKL_STATUS_PHASE 2).setF Reg.PKL_EFF_EFF_SPLIT 2).setF Reg.PKL_SWEEP_NO 5).setF Reg.PKL_ND_STAT_STATE 2 0).setF Reg.PKL_ND_STAT_STATE 2 1).setF Reg.PKL_ND_STAT_STATE 2 2)) 0 [1#8]) ∧
    ((fun (s : State) (message : List Byte) => (s.pklOn = false ∨ message.take 4 ≠ s.accessWord)) (((((((((((((((((((((({ State.reset with pkl := { State.reset.pkl with sweep := true, recs := [(0, some (NodeRec.mk 0 false (beBytes 44 0x00010001000000008CA08CB00000000000000000000000000000000000000000000000000000000032000000)))] } }).setF Reg.PKL_CFG_EN 1).setF Reg.PKL_CFG_NODES 3).setF Reg.PKL_CFG_LOST_SWEEPS 3).setF Reg.PKL_CHAIN 4660).setF Reg.TWN_STATUS_LOCK 1).setF Reg.PKL_ND_MAP_EN 1 0).setF Reg.PKL_ND_MAP_CELLS 2 0).setF Reg.PKL_ND_MAP_FIRST_CELL 0 0).setF Reg.PKL_ND_MAP_EN 1 1).setF Reg.PKL_ND_MAP_CELLS 2 1).setF Reg.PKL_ND_MAP_FIRST_CELL 2 1).setF Reg.PKL_ND_MAP_EN 1 2).setF Reg.PKL_ND_MAP_CELLS 2 2).setF Reg.PKL_ND_MAP_FIRST_CELL 4 2).setF Reg.PKL_STATUS_PHASE 2).setF Reg.PKL_EFF_EFF_SPLIT 2).setF Reg.PKL_SWEEP_NO 5).setF Reg.PKL_ND_STAT_STATE 2 0).setF Reg.PKL_ND_STAT_STATE 2 1).setF Reg.PKL_ND_STAT_STATE 2 2)) [1#8]) ∧
    ((fun (s : State) (message : List Byte) => (s.canonical = true) ∧ (s.pklOn = true) ∧ (message.take 4 = s.accessWord) ∧ (beAt (message.drop 4) 0 1 < 8 ∨ 64 < beAt (message.drop 4) 0 1 ∨ (message.drop 4).length ≠ beAt (message.drop 4) 0 1 + 3 ∨ crc16 ((message.drop 4).take (beAt (message.drop 4) 0 1 + 1)) ≠ beAt (message.drop 4) (beAt (message.drop 4) 0 1 + 1) 2)) (((((((((((((((((((((({ State.reset with pkl := { State.reset.pkl with sweep := true, recs := [(0, some (NodeRec.mk 0 false (beBytes 44 0x00010001000000008CA08CB00000000000000000000000000000000000000000000000000000000032000000)))] } }).setF Reg.PKL_CFG_EN 1).setF Reg.PKL_CFG_NODES 3).setF Reg.PKL_CFG_LOST_SWEEPS 3).setF Reg.PKL_CHAIN 4660).setF Reg.TWN_STATUS_LOCK 1).setF Reg.PKL_ND_MAP_EN 1 0).setF Reg.PKL_ND_MAP_CELLS 2 0).setF Reg.PKL_ND_MAP_FIRST_CELL 0 0).setF Reg.PKL_ND_MAP_EN 1 1).setF Reg.PKL_ND_MAP_CELLS 2 1).setF Reg.PKL_ND_MAP_FIRST_CELL 2 1).setF Reg.PKL_ND_MAP_EN 1 2).setF Reg.PKL_ND_MAP_CELLS 2 2).setF Reg.PKL_ND_MAP_FIRST_CELL 4 2).setF Reg.PKL_STATUS_PHASE 2).setF Reg.PKL_EFF_EFF_SPLIT 2).setF Reg.PKL_SWEEP_NO 5).setF Reg.PKL_ND_STAT_STATE 2 0).setF Reg.PKL_ND_STAT_STATE 2 1).setF Reg.PKL_ND_STAT_STATE 2 2)) [0x3D#8, 0x9A#8, 0x12#8, 0x34#8, 1#8]) ∧
    ((fun (s : State) (radio : Nat) (air m : List Byte) => (s.hearsAir 0 0x02 air m = true) ∧ (s.pkl.sweep = false ∨ beAt m 6 2 ≠ s.getF Reg.PKL_SWEEP_NO % 65536 ∨ s.ndUsed (beAt m 5 1) = false ∨ s.ndState (beAt m 5 1) < ndReached)) (((((((((((((((((((((({ State.reset with pkl := { State.reset.pkl with sweep := true, recs := [(0, some (NodeRec.mk 0 false (beBytes 44 0x00010001000000008CA08CB00000000000000000000000000000000000000000000000000000000032000000)))] } }).setF Reg.PKL_CFG_EN 1).setF Reg.PKL_CFG_NODES 3).setF Reg.PKL_CFG_LOST_SWEEPS 3).setF Reg.PKL_CHAIN 4660).setF Reg.TWN_STATUS_LOCK 1).setF Reg.PKL_ND_MAP_EN 1 0).setF Reg.PKL_ND_MAP_CELLS 2 0).setF Reg.PKL_ND_MAP_FIRST_CELL 0 0).setF Reg.PKL_ND_MAP_EN 1 1).setF Reg.PKL_ND_MAP_CELLS 2 1).setF Reg.PKL_ND_MAP_FIRST_CELL 2 1).setF Reg.PKL_ND_MAP_EN 1 2).setF Reg.PKL_ND_MAP_CELLS 2 2).setF Reg.PKL_ND_MAP_FIRST_CELL 4 2).setF Reg.PKL_STATUS_PHASE 2).setF Reg.PKL_EFF_EFF_SPLIT 2).setF Reg.PKL_SWEEP_NO 5).setF Reg.PKL_ND_STAT_STATE 2 0).setF Reg.PKL_ND_STAT_STATE 2 1).setF Reg.PKL_ND_STAT_STATE 2 2)) 0 (State.onAir (State.reset.setF Reg.PKL_CHAIN 0x1234) 0 (beBytes 52 0x02001234FE01000900010001000000008CA08CB00000000000000000000000000000000000000000000000000000000032000000)) (beBytes 52 0x02001234FE01000900010001000000008CA08CB00000000000000000000000000000000000000000000000000000000032000000)) ∧
    ((fun (s : State) (now : Nat) => (s.canonical = true) ∧ (s.pkl.sweep = true) ∧ (s.pkl.passDone = false) ∧ (s.passEnd ≤ now)) (((((((((((((((((((((({ State.reset with pkl := { State.reset.pkl with sweep := true, recs := [(0, some (NodeRec.mk 0 false (beBytes 44 0x00010001000000008CA08CB00000000000000000000000000000000000000000000000000000000032000000)))], p := 50000 } }).setF Reg.PKL_CFG_EN 1).setF Reg.PKL_CFG_NODES 3).setF Reg.PKL_CFG_LOST_SWEEPS 3).setF Reg.PKL_CHAIN 4660).setF Reg.TWN_STATUS_LOCK 1).setF Reg.PKL_ND_MAP_EN 1 0).setF Reg.PKL_ND_MAP_CELLS 2 0).setF Reg.PKL_ND_MAP_FIRST_CELL 0 0).setF Reg.PKL_ND_MAP_EN 1 1).setF Reg.PKL_ND_MAP_CELLS 2 1).setF Reg.PKL_ND_MAP_FIRST_CELL 2 1).setF Reg.PKL_ND_MAP_EN 1 2).setF Reg.PKL_ND_MAP_CELLS 2 2).setF Reg.PKL_ND_MAP_FIRST_CELL 4 2).setF Reg.PKL_STATUS_PHASE 2).setF Reg.PKL_EFF_EFF_SPLIT 2).setF Reg.PKL_SWEEP_NO 5).setF Reg.PKL_ND_STAT_STATE 2 0).setF Reg.PKL_ND_STAT_STATE 2 1).setF Reg.PKL_ND_STAT_STATE 2 2)) 9000000) ∧
    ((fun (s : State) (now a b : Nat) => (s.canonical = true) ∧ (s.pkl.sweep = true) ∧ (s.pkl.passDone = false) ∧ (s.passEnd ≤ now) ∧ (s.pklTx = true) ∧ ((s.missing (s.ndList.filter fun q => decide (q < s.getF Reg.PKL_EFF_EFF_SPLIT))) = []) ∧ ((s.missing (s.ndList.filter fun q => decide (s.getF Reg.PKL_EFF_EFF_SPLIT ≤ q))).head? = some a) ∧ ((s.missing (s.ndList.filter fun q => decide (s.getF Reg.PKL_EFF_EFF_SPLIT ≤ q))).getLast? = some b)) (((((((((((((((((((((({ State.reset with pkl := { State.reset.pkl with sweep := true, recs := [(0, some (NodeRec.mk 0 false (beBytes 44 0x00010001000000008CA08CB00000000000000000000000000000000000000000000000000000000032000000))), (1, some (NodeRec.mk 0 false (beBytes 44 0x00010001000000008CA08CB00000000000000000000000000000000000000000000000000000000032000000)))], p := 50000 } }).setF Reg.PKL_CFG_EN 1).setF Reg.PKL_CFG_NODES 3).setF Reg.PKL_CFG_LOST_SWEEPS 3).setF Reg.PKL_CHAIN 4660).setF Reg.TWN_STATUS_LOCK 1).setF Reg.PKL_ND_MAP_EN 1 0).setF Reg.PKL_ND_MAP_CELLS 2 0).setF Reg.PKL_ND_MAP_FIRST_CELL 0 0).setF Reg.PKL_ND_MAP_EN 1 1).setF Reg.PKL_ND_MAP_CELLS 2 1).setF Reg.PKL_ND_MAP_FIRST_CELL 2 1).setF Reg.PKL_ND_MAP_EN 1 2).setF Reg.PKL_ND_MAP_CELLS 2 2).setF Reg.PKL_ND_MAP_FIRST_CELL 4 2).setF Reg.PKL_STATUS_PHASE 2).setF Reg.PKL_EFF_EFF_SPLIT 2).setF Reg.PKL_SWEEP_NO 5).setF Reg.PKL_ND_STAT_STATE 2 0).setF Reg.PKL_ND_STAT_STATE 2 1).setF Reg.PKL_ND_STAT_STATE 2 2)) 9000000 2 2) ∧
    ((fun (s : State) (now : Nat) => (s.pkl.sweep = false ∨ s.pkl.passDone = true ∨ now < s.passEnd)) (((((((((((((((((((((({ State.reset with pkl := { State.reset.pkl with sweep := true, recs := [(0, some (NodeRec.mk 0 false (beBytes 44 0x00010001000000008CA08CB00000000000000000000000000000000000000000000000000000000032000000)))], p := 50000 } }).setF Reg.PKL_CFG_EN 1).setF Reg.PKL_CFG_NODES 3).setF Reg.PKL_CFG_LOST_SWEEPS 3).setF Reg.PKL_CHAIN 4660).setF Reg.TWN_STATUS_LOCK 1).setF Reg.PKL_ND_MAP_EN 1 0).setF Reg.PKL_ND_MAP_CELLS 2 0).setF Reg.PKL_ND_MAP_FIRST_CELL 0 0).setF Reg.PKL_ND_MAP_EN 1 1).setF Reg.PKL_ND_MAP_CELLS 2 1).setF Reg.PKL_ND_MAP_FIRST_CELL 2 1).setF Reg.PKL_ND_MAP_EN 1 2).setF Reg.PKL_ND_MAP_CELLS 2 2).setF Reg.PKL_ND_MAP_FIRST_CELL 4 2).setF Reg.PKL_STATUS_PHASE 2).setF Reg.PKL_EFF_EFF_SPLIT 2).setF Reg.PKL_SWEEP_NO 5).setF Reg.PKL_ND_STAT_STATE 2 0).setF Reg.PKL_ND_STAT_STATE 2 1).setF Reg.PKL_ND_STAT_STATE 2 2)) 9) ∧
    ((fun (s : State) (now : Nat) => (s.pkl.sweep = false ∨ s.pkl.passDone = false ∨ now < s.pkl.closeAt)) (((((((((((((((((((((({ State.reset with pkl := { State.reset.pkl with sweep := true, recs := [(0, some (NodeRec.mk 0 false (beBytes 44 0x00010001000000008CA08CB00000000000000000000000000000000000000000000000000000000032000000)))], p := 50000 } }).setF Reg.PKL_CFG_EN 1).setF Reg.PKL_CFG_NODES 3).setF Reg.PKL_CFG_LOST_SWEEPS 3).setF Reg.PKL_CHAIN 4660).setF Reg.TWN_STATUS_LOCK 1).setF Reg.PKL_ND_MAP_EN 1 0).setF Reg.PKL_ND_MAP_CELLS 2 0).setF Reg.PKL_ND_MAP_FIRST_CELL 0 0).setF Reg.PKL_ND_MAP_EN 1 1).setF Reg.PKL_ND_MAP_CELLS 2 1).setF Reg.PKL_ND_MAP_FIRST_CELL 2 1).setF Reg.PKL_ND_MAP_EN 1 2).setF Reg.PKL_ND_MAP_CELLS 2 2).setF Reg.PKL_ND_MAP_FIRST_CELL 4 2).setF Reg.PKL_STATUS_PHASE 2).setF Reg.PKL_EFF_EFF_SPLIT 2).setF Reg.PKL_SWEEP_NO 5).setF Reg.PKL_ND_STAT_STATE 2 0).setF Reg.PKL_ND_STAT_STATE 2 1).setF Reg.PKL_ND_STAT_STATE 2 2)) 9) ∧
    ((fun (s : State) (now : Nat) => (s.canonical = true) ∧ (s.pkl.sweep = true) ∧ (s.pkl.passDone = true) ∧ (s.pkl.closeAt ≤ now)) (((((((((((((((((((((({ State.reset with pkl := { State.reset.pkl with sweep := true, recs := [(0, some (NodeRec.mk 0 false (beBytes 44 0x00010001000000008CA08CB00000000000000000000000000000000000000000000000000000000032000000)))], p := 50000, passDone := true } }).setF Reg.PKL_CFG_EN 1).setF Reg.PKL_CFG_NODES 3).setF Reg.PKL_CFG_LOST_SWEEPS 3).setF Reg.PKL_CHAIN 4660).setF Reg.TWN_STATUS_LOCK 1).setF Reg.PKL_ND_MAP_EN 1 0).setF Reg.PKL_ND_MAP_CELLS 2 0).setF Reg.PKL_ND_MAP_FIRST_CELL 0 0).setF Reg.PKL_ND_MAP_EN 1 1).setF Reg.PKL_ND_MAP_CELLS 2 1).setF Reg.PKL_ND_MAP_FIRST_CELL 2 1).setF Reg.PKL_ND_MAP_EN 1 2).setF Reg.PKL_ND_MAP_CELLS 2 2).setF Reg.PKL_ND_MAP_FIRST_CELL 4 2).setF Reg.PKL_STATUS_PHASE 2).setF Reg.PKL_EFF_EFF_SPLIT 2).setF Reg.PKL_SWEEP_NO 5).setF Reg.PKL_ND_STAT_STATE 2 0).setF Reg.PKL_ND_STAT_STATE 2 1).setF Reg.PKL_ND_STAT_STATE 2 2)) 9) ∧
    ((fun (s : State) (q : Nat) (air m : List Byte) => (s.canonical = true) ∧ (s.hearsAir 0 0x05 air m = true) ∧ (beAt m 5 1 = q) ∧ (s.ndUsed q = true)) (((((((((((((((((((({ State.reset with pkl := { State.reset.pkl with bal := [(1, some (BalSend.mk 3 [5, 5] 1))] } }).setF Reg.PKL_CFG_EN 1).setF Reg.PKL_CFG_NODES 3).setF Reg.PKL_CFG_LOST_SWEEPS 3).setF Reg.PKL_CHAIN 4660).setF Reg.TWN_STATUS_LOCK 1).setF Reg.PKL_ND_MAP_EN 1 0).setF Reg.PKL_ND_MAP_CELLS 2 0).setF Reg.PKL_ND_MAP_FIRST_CELL 0 0).setF Reg.PKL_ND_MAP_EN 1 1).setF Reg.PKL_ND_MAP_CELLS 2 1).setF Reg.PKL_ND_MAP_FIRST_CELL 2 1).setF Reg.PKL_ND_MAP_EN 1 2).setF Reg.PKL_ND_MAP_CELLS 2 2).setF Reg.PKL_ND_MAP_FIRST_CELL 4 2).setF Reg.PKL_STATUS_PHASE 2).setF Reg.PKL_ND_STAT_STATE 2 0).setF Reg.PKL_ND_STAT_STATE 2 1).setF Reg.PKL_ND_STAT_STATE 2 2)) 1 (State.onAir (State.reset.setF Reg.PKL_CHAIN 0x1234) 0 (beBytes 12 0x05001234FE01000500030000)) (beBytes 12 0x05001234FE01000500030000)) ∧
    ((fun (s : State) => (s.canonical = true)) (((((((((((((((((State.reset.setF Reg.PKL_CFG_EN 1).setF Reg.PKL_CFG_NODES 3).setF Reg.PKL_CFG_LOST_SWEEPS 3).setF Reg.PKL_CHAIN 4660).setF Reg.TWN_STATUS_LOCK 1).setF Reg.PKL_ND_MAP_EN 1 0).setF Reg.PKL_ND_MAP_CELLS 2 0).setF Reg.PKL_ND_MAP_FIRST_CELL 0 0).setF Reg.PKL_ND_MAP_EN 1 1).setF Reg.PKL_ND_MAP_CELLS 2 1).setF Reg.PKL_ND_MAP_FIRST_CELL 2 1).setF Reg.PKL_ND_MAP_EN 1 2).setF Reg.PKL_ND_MAP_CELLS 2 2).setF Reg.PKL_ND_MAP_FIRST_CELL 4 2).setF Reg.PKL_CRC_ERR 4).setF Reg.PKL_STATUS_LEAD_RAISED 1))) ∧
    ((fun (s : State) (now i : Nat) (r : List Nat) => (s.pklPhase = pklRun) ∧ (s.pkl.disc = true) ∧ (s.pkl.sweep = false) ∧ (s.discFrom ≤ now) ∧ (s.lostSegment = none) ∧ (s.pklTx = true) ∧ (s.pkl.auth = none) ∧ (s.pkl.step = none) ∧ (s.pkl.authQ = i :: r) ∧ (s.pkl.ready = true) ∧ (now + s.authWait i ≤ s.gapLimit)) ((((((((((((((((((((({ State.reset with pkl := { State.reset.pkl with ready := true, disc := true, authQ := [1] } }).setF Reg.PKL_CFG_EN 1).setF Reg.PKL_CFG_NODES 3).setF Reg.PKL_CFG_LOST_SWEEPS 3).setF Reg.PKL_CHAIN 4660).setF Reg.TWN_STATUS_LOCK 1).setF Reg.PKL_ND_MAP_EN 1 0).setF Reg.PKL_ND_MAP_CELLS 2 0).setF Reg.PKL_ND_MAP_FIRST_CELL 0 0).setF Reg.PKL_ND_MAP_EN 1 1).setF Reg.PKL_ND_MAP_CELLS 2 1).setF Reg.PKL_ND_MAP_FIRST_CELL 2 1).setF Reg.PKL_ND_MAP_EN 1 2).setF Reg.PKL_ND_MAP_CELLS 2 2).setF Reg.PKL_ND_MAP_FIRST_CELL 4 2).setF Reg.PKL_STATUS_PHASE 2).setF Reg.PKL_ND_STAT_STATE 2 0).setF Reg.PKL_ND_STAT_STATE 2 1).setF Reg.PKL_ND_STAT_STATE 2 2).setF Reg.PKL_EFF_PERIOD_EFF 100)) 5000 1 []) ∧
    ((fun (s : State) (now : Nat) (g : Nat × Nat) => (s.pklPhase = pklRun) ∧ (s.lostSegment = some g) ∧ (s.pkl.step = none) ∧ (s.pkl.disc = true) ∧ (s.pkl.sweep = false) ∧ (s.discFrom ≤ now) ∧ (s.pklTx = true) ∧ (s.pkl.turn = 0) ∧ (s.sideReaches 0 g = true) ∧ (s.sideReaches 1 g = true) ∧ (s.idFound g.1 ≠ 0)) ((((((((((((((((((((({ State.reset with pkl := { State.reset.pkl with disc := true } }).setF Reg.PKL_CFG_EN 1).setF Reg.PKL_CFG_NODES 3).setF Reg.PKL_CFG_LOST_SWEEPS 3).setF Reg.PKL_CHAIN 4660).setF Reg.TWN_STATUS_LOCK 1).setF Reg.PKL_ND_MAP_EN 1 0).setF Reg.PKL_ND_MAP_CELLS 2 0).setF Reg.PKL_ND_MAP_FIRST_CELL 0 0).setF Reg.PKL_ND_MAP_EN 1 1).setF Reg.PKL_ND_MAP_CELLS 2 1).setF Reg.PKL_ND_MAP_FIRST_CELL 2 1).setF Reg.PKL_ND_MAP_EN 1 2).setF Reg.PKL_ND_MAP_CELLS 2 2).setF Reg.PKL_ND_MAP_FIRST_CELL 4 2).setF Reg.PKL_STATUS_PHASE 2).setF Reg.PKL_ND_STAT_STATE 2 0).setF Reg.PKL_ND_STAT_STATE 4 1).setF Reg.PKL_ND_STAT_STATE 4 2).setF Reg.PKL_ND_ID_FOUND_LO 3 1)) 5000 (1, 2)) ∧
    ((fun (s : State) (now : Nat) => (s.pklPhase ≠ pklRun ∨ s.pkl.disc = false ∨ s.pkl.sweep = true ∨ now < s.discFrom)) (((((((((((((((((((State.reset.setF Reg.PKL_CFG_EN 1).setF Reg.PKL_CFG_NODES 3).setF Reg.PKL_CFG_LOST_SWEEPS 3).setF Reg.PKL_CHAIN 4660).setF Reg.TWN_STATUS_LOCK 1).setF Reg.PKL_ND_MAP_EN 1 0).setF Reg.PKL_ND_MAP_CELLS 2 0).setF Reg.PKL_ND_MAP_FIRST_CELL 0 0).setF Reg.PKL_ND_MAP_EN 1 1).setF Reg.PKL_ND_MAP_CELLS 2 1).setF Reg.PKL_ND_MAP_FIRST_CELL 2 1).setF Reg.PKL_ND_MAP_EN 1 2).setF Reg.PKL_ND_MAP_CELLS 2 2).setF Reg.PKL_ND_MAP_FIRST_CELL 4 2).setF Reg.PKL_STATUS_PHASE 2).setF Reg.PKL_ND_STAT_STATE 2 0).setF Reg.PKL_ND_STAT_STATE 2 1).setF Reg.PKL_ND_STAT_STATE 2 2)) 9) ∧
    ((fun (s : State) (now : Nat) (air m : List Byte) (c : AuthRun) => (s.canonical = true) ∧ (s.hearsAir 1 0x17 air m = true) ∧ (s.pkl.auth = some c) ∧ (beAt m 5 1 = c.pos) ∧ (c.pos < 48) ∧ (now ≤ c.sentAt + s.authWait c.pos) ∧ (s.pkl.authQ = []) ∧ (s.pkl.ready = true) ∧ (s.sslotMay (s.getF Reg.EST_CFG_PACK_KEY_SLOT) usePackHmac = true)) (((((((((((((((((((((((({ State.reset with pkl := { State.reset.pkl with ready := true, auth := some ⟨1, [7#8], 1, 100⟩ } }).setF Reg.PKL_CFG_EN 1).setF Reg.PKL_CFG_NODES 3).setF Reg.PKL_CFG_LOST_SWEEPS 3).setF Reg.PKL_CHAIN 4660).setF Reg.TWN_STATUS_LOCK 1).setF Reg.PKL_ND_MAP_EN 1 0).setF Reg.PKL_ND_MAP_CELLS 2 0).setF Reg.PKL_ND_MAP_FIRST_CELL 0 0).setF Reg.PKL_ND_MAP_EN 1 1).setF Reg.PKL_ND_MAP_CELLS 2 1).setF Reg.PKL_ND_MAP_FIRST_CELL 2 1).setF Reg.PKL_ND_MAP_EN 1 2).setF Reg.PKL_ND_MAP_CELLS 2 2).setF Reg.PKL_ND_MAP_FIRST_CELL 4 2).setF Reg.PKL_STATUS_PHASE 2).setF Reg.PKL_ND_STAT_STATE 2 0).setF Reg.PKL_ND_STAT_STATE 2 1).setF Reg.PKL_ND_STAT_STATE 2 2).setF Reg.SEC_SLOT_VALID 1 8).setF Reg.SEC_SLOT_REVOKED 0 8).setF Reg.SEC_SLOT_USES 65535 8).setF Reg.LCS_STATUS_STATE 2)) 5000 (State.onAir (State.reset.setF Reg.PKL_CHAIN 0x1234) 1 (beBytes 32 0x17001234FE010001000000000000004D00000000000000000000000000000000)) (beBytes 32 0x17001234FE010001000000000000004D00000000000000000000000000000000) ⟨1, [7#8], 1, 100⟩) ∧
    ((fun (s : State) (now : Nat) => (s.pkl.auth = none)) (State.reset) 9) ∧
    ((fun (s : State) (now : Nat) (c : AuthRun) => (s.pkl.auth = some c) ∧ (now ≤ c.sentAt + s.authWait c.pos)) (((((((((((((((((((({ State.reset with pkl := { State.reset.pkl with ready := true, auth := some ⟨1, [7#8], 1, 100⟩ } }).setF Reg.PKL_CFG_EN 1).setF Reg.PKL_CFG_NODES 3).setF Reg.PKL_CFG_LOST_SWEEPS 3).setF Reg.PKL_CHAIN 4660).setF Reg.TWN_STATUS_LOCK 1).setF Reg.PKL_ND_MAP_EN 1 0).setF Reg.PKL_ND_MAP_CELLS 2 0).setF Reg.PKL_ND_MAP_FIRST_CELL 0 0).setF Reg.PKL_ND_MAP_EN 1 1).setF Reg.PKL_ND_MAP_CELLS 2 1).setF Reg.PKL_ND_MAP_FIRST_CELL 2 1).setF Reg.PKL_ND_MAP_EN 1 2).setF Reg.PKL_ND_MAP_CELLS 2 2).setF Reg.PKL_ND_MAP_FIRST_CELL 4 2).setF Reg.PKL_STATUS_PHASE 2).setF Reg.PKL_ND_STAT_STATE 2 0).setF Reg.PKL_ND_STAT_STATE 2 1).setF Reg.PKL_ND_STAT_STATE 2 2)) 9 ⟨1, [7#8], 1, 100⟩) ∧
    ((fun (s : State) (now : Nat) (air m : List Byte) => (s.hearsAir 1 0x17 air m = true) ∧ (s.pkl.auth = none)) (((((((((((((((State.reset.setF Reg.PKL_CFG_EN 1).setF Reg.PKL_CFG_NODES 3).setF Reg.PKL_CFG_LOST_SWEEPS 3).setF Reg.PKL_CHAIN 4660).setF Reg.TWN_STATUS_LOCK 1).setF Reg.PKL_ND_MAP_EN 1 0).setF Reg.PKL_ND_MAP_CELLS 2 0).setF Reg.PKL_ND_MAP_FIRST_CELL 0 0).setF Reg.PKL_ND_MAP_EN 1 1).setF Reg.PKL_ND_MAP_CELLS 2 1).setF Reg.PKL_ND_MAP_FIRST_CELL 2 1).setF Reg.PKL_ND_MAP_EN 1 2).setF Reg.PKL_ND_MAP_CELLS 2 2).setF Reg.PKL_ND_MAP_FIRST_CELL 4 2)) 9 (State.onAir (State.reset.setF Reg.PKL_CHAIN 0x1234) 1 (beBytes 32 0x17001234FE010001000000000000000000000000000000000000000000000000)) (beBytes 32 0x17001234FE010001000000000000000000000000000000000000000000000000)) ∧
    ((fun (s : State) (now : Nat) (c : AuthRun) => (s.pkl.auth = some c) ∧ (c.sentAt + s.authWait c.pos < now) ∧ (c.tries < 3) ∧ (s.pklTx = true)) (((((((((((((((((((({ State.reset with pkl := { State.reset.pkl with ready := true, auth := some ⟨1, [7#8], 1, 100⟩ } }).setF Reg.PKL_CFG_EN 1).setF Reg.PKL_CFG_NODES 3).setF Reg.PKL_CFG_LOST_SWEEPS 3).setF Reg.PKL_CHAIN 4660).setF Reg.TWN_STATUS_LOCK 1).setF Reg.PKL_ND_MAP_EN 1 0).setF Reg.PKL_ND_MAP_CELLS 2 0).setF Reg.PKL_ND_MAP_FIRST_CELL 0 0).setF Reg.PKL_ND_MAP_EN 1 1).setF Reg.PKL_ND_MAP_CELLS 2 1).setF Reg.PKL_ND_MAP_FIRST_CELL 2 1).setF Reg.PKL_ND_MAP_EN 1 2).setF Reg.PKL_ND_MAP_CELLS 2 2).setF Reg.PKL_ND_MAP_FIRST_CELL 4 2).setF Reg.PKL_STATUS_PHASE 2).setF Reg.PKL_ND_STAT_STATE 2 0).setF Reg.PKL_ND_STAT_STATE 2 1).setF Reg.PKL_ND_STAT_STATE 2 2)) 50000000 ⟨1, [7#8], 1, 100⟩) ∧
    ((fun (s : State) (now : Nat) (c : AuthRun) => (s.canonical = true) ∧ (s.pkl.auth = some c) ∧ (c.sentAt + s.authWait c.pos < now) ∧ (3 ≤ c.tries) ∧ (c.pos < 48) ∧ (s.pkl.authQ = []) ∧ (s.pkl.ready = true)) (((((((((((((((((((({ State.reset with pkl := { State.reset.pkl with ready := true, auth := some ⟨1, [7#8], 3, 100⟩ } }).setF Reg.PKL_CFG_EN 1).setF Reg.PKL_CFG_NODES 3).setF Reg.PKL_CFG_LOST_SWEEPS 3).setF Reg.PKL_CHAIN 4660).setF Reg.TWN_STATUS_LOCK 1).setF Reg.PKL_ND_MAP_EN 1 0).setF Reg.PKL_ND_MAP_CELLS 2 0).setF Reg.PKL_ND_MAP_FIRST_CELL 0 0).setF Reg.PKL_ND_MAP_EN 1 1).setF Reg.PKL_ND_MAP_CELLS 2 1).setF Reg.PKL_ND_MAP_FIRST_CELL 2 1).setF Reg.PKL_ND_MAP_EN 1 2).setF Reg.PKL_ND_MAP_CELLS 2 2).setF Reg.PKL_ND_MAP_FIRST_CELL 4 2).setF Reg.PKL_STATUS_PHASE 2).setF Reg.PKL_ND_STAT_STATE 2 0).setF Reg.PKL_ND_STAT_STATE 2 1).setF Reg.PKL_ND_STAT_STATE 2 2)) 50000000 ⟨1, [7#8], 3, 100⟩) ∧
    ((fun (s : State) => (s.packReady = false ∨ s.est.clock < s.est.authAt + s.getF Reg.EST_DRIFT_CFG_AUTH_PERIOD * 3600000000000)) (((((((((((((((State.reset.setF Reg.PKL_CFG_EN 1).setF Reg.PKL_CFG_NODES 3).setF Reg.PKL_CFG_LOST_SWEEPS 3).setF Reg.PKL_CHAIN 4660).setF Reg.TWN_STATUS_LOCK 1).setF Reg.PKL_ND_MAP_EN 1 0).setF Reg.PKL_ND_MAP_CELLS 2 0).setF Reg.PKL_ND_MAP_FIRST_CELL 0 0).setF Reg.PKL_ND_MAP_EN 1 1).setF Reg.PKL_ND_MAP_CELLS 2 1).setF Reg.PKL_ND_MAP_FIRST_CELL 2 1).setF Reg.PKL_ND_MAP_EN 1 2).setF Reg.PKL_ND_MAP_CELLS 2 2).setF Reg.PKL_ND_MAP_FIRST_CELL 4 2))) ∧
    ((fun (s : State) => (s.packReady = true) ∧ (s.getF Reg.EST_CFG_AUTH_POLICY = 0)) ((((((((((((((((((((({ State.reset with pkl := { State.reset.pkl with ready := true } }).setF Reg.PKL_CFG_EN 1).setF Reg.PKL_CFG_NODES 3).setF Reg.PKL_CFG_LOST_SWEEPS 3).setF Reg.PKL_CHAIN 4660).setF Reg.TWN_STATUS_LOCK 1).setF Reg.PKL_ND_MAP_EN 1 0).setF Reg.PKL_ND_MAP_CELLS 2 0).setF Reg.PKL_ND_MAP_FIRST_CELL 0 0).setF Reg.PKL_ND_MAP_EN 1 1).setF Reg.PKL_ND_MAP_CELLS 2 1).setF Reg.PKL_ND_MAP_FIRST_CELL 2 1).setF Reg.PKL_ND_MAP_EN 1 2).setF Reg.PKL_ND_MAP_CELLS 2 2).setF Reg.PKL_ND_MAP_FIRST_CELL 4 2).setF Reg.PKL_STATUS_PHASE 2).setF Reg.PKL_ND_STAT_STATE 2 0).setF Reg.PKL_ND_STAT_STATE 2 1).setF Reg.PKL_ND_STAT_STATE 2 2).setF Reg.EST_CFG_AUTH_POLICY 0))) ∧
    ((fun (s : State) => (s.packReady = true) ∧ (s.est.authAt + s.getF Reg.EST_DRIFT_CFG_AUTH_PERIOD * 3600000000000 ≤ s.est.clock) ∧ (s.getF Reg.EST_CFG_AUTH_POLICY ≠ 0)) ((((((((((((((((((((({ State.reset with pkl := { State.reset.pkl with ready := true }, est := { State.reset.est with clock := 36000000000000000000 } }).setF Reg.PKL_CFG_EN 1).setF Reg.PKL_CFG_NODES 3).setF Reg.PKL_CFG_LOST_SWEEPS 3).setF Reg.PKL_CHAIN 4660).setF Reg.TWN_STATUS_LOCK 1).setF Reg.PKL_ND_MAP_EN 1 0).setF Reg.PKL_ND_MAP_CELLS 2 0).setF Reg.PKL_ND_MAP_FIRST_CELL 0 0).setF Reg.PKL_ND_MAP_EN 1 1).setF Reg.PKL_ND_MAP_CELLS 2 1).setF Reg.PKL_ND_MAP_FIRST_CELL 2 1).setF Reg.PKL_ND_MAP_EN 1 2).setF Reg.PKL_ND_MAP_CELLS 2 2).setF Reg.PKL_ND_MAP_FIRST_CELL 4 2).setF Reg.PKL_STATUS_PHASE 2).setF Reg.PKL_ND_STAT_STATE 2 0).setF Reg.PKL_ND_STAT_STATE 2 1).setF Reg.PKL_ND_STAT_STATE 2 2).setF Reg.EST_CFG_AUTH_POLICY 1))) ∧
    ((fun (s : State) => (s.packReady = true) ∧ (s.getF Reg.EST_CFG_AUTH_POLICY ≠ 0)) ((((((((((((((((((((({ State.reset with pkl := { State.reset.pkl with ready := true } }).setF Reg.PKL_CFG_EN 1).setF Reg.PKL_CFG_NODES 3).setF Reg.PKL_CFG_LOST_SWEEPS 3).setF Reg.PKL_CHAIN 4660).setF Reg.TWN_STATUS_LOCK 1).setF Reg.PKL_ND_MAP_EN 1 0).setF Reg.PKL_ND_MAP_CELLS 2 0).setF Reg.PKL_ND_MAP_FIRST_CELL 0 0).setF Reg.PKL_ND_MAP_EN 1 1).setF Reg.PKL_ND_MAP_CELLS 2 1).setF Reg.PKL_ND_MAP_FIRST_CELL 2 1).setF Reg.PKL_ND_MAP_EN 1 2).setF Reg.PKL_ND_MAP_CELLS 2 2).setF Reg.PKL_ND_MAP_FIRST_CELL 4 2).setF Reg.PKL_STATUS_PHASE 2).setF Reg.PKL_ND_STAT_STATE 2 0).setF Reg.PKL_ND_STAT_STATE 2 1).setF Reg.PKL_ND_STAT_STATE 2 2).setF Reg.EST_CFG_AUTH_POLICY 1))) ∧
    ((fun (s : State) => (s.canonical = true) ∧ (s.packReady = false)) (State.reset)) := by
  repeat refine And.intro (by decide +kernel) ?_
  decide +kernel

theorem test_meets_WalksLearningAndRestore :
    ((fun (s : State) (k : Nat) => (s.canonical = true) ∧ (s.estOn k = true) ∧ ((s.str k).walkAt = none)) ((((((({ State.reset with est := { State.reset.est with str := [(0, { cap := 50000, through := 1 })] } }).setF Reg.EST_CFG_EN 1).setF Reg.EST_CFG_WALK_PERMIT 1).setF Reg.EST_S_CFG_EN 1).setF Reg.EST_S_CFG_CELLS 2).setF Reg.EST_S_CAP_FACT 60000)) 0) ∧
    ((fun (s : State) (k : Nat) => (s.canonical = true) ∧ (s.estOn k = false ∨ (s.str k).walkAt.isSome = true)) (State.reset) 0) ∧
    ((fun (s : State) (k : Nat) => (s.canonical = true) ∧ (s.estOn k = true) ∧ (s.walkWanted k = true) ∧ (100 ≤ s.effF Reg.WB_LIMITS_SOC_MAX) ∧ (decide ((if s.getF Reg.WB_STATUS_APPLIED ≠ 0 then s.wb.ff else s.wb.tot) < 0) = true)) (({ (((((({ State.reset with est := { State.reset.est with str := [(0, { cap := 50000, walkReq := true })] } }).setF Reg.EST_CFG_EN 1).setF Reg.EST_CFG_WALK_PERMIT 1).setF Reg.EST_S_CFG_EN 1).setF Reg.EST_S_CFG_CELLS 2).setF Reg.EST_S_CAP_FACT 60000) with wb := { State.reset.wb with tot := -1 }, eff := [(Reg.WB_LIMITS_SOC_MAX.addr 0 0, Reg.WB_LIMITS_SOC_MAX.into 0#32 100)] })) 0) ∧
    ((fun (s : State) (k : Nat) => (s.canonical = true) ∧ (s.estOn k = true) ∧ ((s.str k).walkAt.isSome = true ∨ (s.str k).walkReq = true)) ((((((({ State.reset with est := { State.reset.est with str := [(0, { cap := 50000, walkAt := some 5 })] } }).setF Reg.EST_CFG_EN 1).setF Reg.EST_CFG_WALK_PERMIT 1).setF Reg.EST_S_CFG_EN 1).setF Reg.EST_S_CFG_CELLS 2).setF Reg.EST_S_CAP_FACT 60000)) 0) ∧
    ((fun (s : State) (k : Nat) => (s.canonical = true) ∧ (s.estOn k = false ∨ ((s.str k).walkAt = none ∧ (s.str k).walkReq = false))) (State.reset) 0) ∧
    ((fun (s : State) (k b : Nat) => (s.canonical = true) ∧ (k < 2) ∧ ((s.str k).walkAt = some b) ∧ (b + s.getF Reg.EST_DRIFT_CFG_WALK_MAX * 3600000000000 ≤ s.est.clock)) ((((((({ State.reset with est := { State.reset.est with str := [(0, { cap := 50000, walkAt := some 5 })], clock := 1080000000000000 } }).setF Reg.EST_CFG_EN 1).setF Reg.EST_CFG_WALK_PERMIT 1).setF Reg.EST_S_CFG_EN 1).setF Reg.EST_S_CFG_CELLS 2).setF Reg.EST_S_CAP_FACT 60000)) 0 5) ∧
    ((fun (s : State) (k : Nat) => (s.canonical = true) ∧ (s.estOn k = true) ∧ ((s.str k).learn = 0)) ((((((({ State.reset with est := { State.reset.est with str := [(0, { cap := 50000, through := 1 })] } }).setF Reg.EST_CFG_EN 1).setF Reg.EST_CFG_WALK_PERMIT 1).setF Reg.EST_S_CFG_EN 1).setF Reg.EST_S_CFG_CELLS 2).setF Reg.EST_S_CAP_FACT 60000)) 0) ∧
    ((fun (s : State) (k : Nat) => (s.canonical = true) ∧ (s.estOn k = false ∨ (s.str k).learn ≠ 0)) (State.reset) 0) ∧
    ((fun (s : State) (k : Nat) => (s.canonical = true) ∧ (s.estOn k = true) ∧ ((s.str k).learn ≠ 0)) ((((((({ State.reset with est := { State.reset.est with str := [(0, { cap := 50000, learn := 2, learnD := 500000 })] } }).setF Reg.EST_CFG_EN 1).setF Reg.EST_CFG_WALK_PERMIT 1).setF Reg.EST_S_CFG_EN 1).setF Reg.EST_S_CFG_CELLS 2).setF Reg.EST_S_CAP_FACT 60000)) 0) ∧
    ((fun (s : State) (k : Nat) => (s.canonical = true) ∧ (s.estOn k = false ∨ (s.str k).learn = 0)) (State.reset) 0) ∧
    ((fun (s : State) (k : Nat) => (s.canonical = true) ∧ (k < 2) ∧ ((s.str k).learn = 2) ∧ ((s.str k).learnAt + s.getF Reg.EST_LEARN_CFG_TIMEOUT * 3600000000000 ≤ s.est.clock)) ((((((({ State.reset with est := { State.reset.est with str := [(0, { cap := 50000, learn := 2, learnD := 500000 })], clock := 1080000000000000 } }).setF Reg.EST_CFG_EN 1).setF Reg.EST_CFG_WALK_PERMIT 1).setF Reg.EST_S_CFG_EN 1).setF Reg.EST_S_CFG_CELLS 2).setF Reg.EST_S_CAP_FACT 60000)) 0) ∧
    ((fun (s : State) (k : Nat) => (s.canonical = true) ∧ (s.estOn k = true) ∧ (s.isF Reg.EST_S_STAT_DRIFT k = false) ∧ (s.getF Reg.EST_DRIFT_CFG_DRIFT_AGE * 3600 ≤ s.ageS k)) ((((((({ State.reset with est := { State.reset.est with str := [(0, { cap := 50000, through := 1 })], clock := 359996400000000000 } }).setF Reg.EST_CFG_EN 1).setF Reg.EST_CFG_WALK_PERMIT 1).setF Reg.EST_S_CFG_EN 1).setF Reg.EST_S_CFG_CELLS 2).setF Reg.EST_S_CAP_FACT 60000)) 0) ∧
    ((fun (s : State) (force : Bool) => (s.canonical = true) ∧ (s.isF Reg.EST_CFG_EN = true) ∧ (s.est.restore = none)) ((((((({ State.reset with est := { State.reset.est with str := [(0, { cap := 50000, through := 1 })] } }).setF Reg.EST_CFG_EN 1).setF Reg.EST_CFG_WALK_PERMIT 1).setF Reg.EST_S_CFG_EN 1).setF Reg.EST_S_CFG_CELLS 2).setF Reg.EST_S_CAP_FACT 60000)) true) ∧
    ((fun (s : State) (force : Bool) => (s.canonical = true) ∧ (s.isF Reg.EST_CFG_EN = false ∨ s.est.restore.isSome = true)) ((State.reset.setF Reg.EST_CFG_EN 0)) true) ∧
    ((fun (s : State) (now c since : Nat) (force : Bool) => (s.canonical = true) ∧ (s.est.restore = some (force, since)) ∧ (s.packReady = true ∨ since + 5000000000 ≤ s.est.clock) ∧ (decide (s.tq = tqLocked ∨ s.tq = tqHoldover) = true ∨ since + 10000000000 ≤ s.est.clock) ∧ (s.recordCheck ((List.range 64).flatMap fun i => leBytes 4 (s.getF Reg.EST_RST i)) force (decide (s.tq = tqLocked ∨ s.tq = tqHoldover)) (s.utc now) = some c)) ((((((({ State.reset with est := { State.reset.est with str := [(0, { cap := 50000, through := 1 })], restore := some (false, 5), clock := 20000000000 } }).setF Reg.EST_CFG_EN 1).setF Reg.EST_CFG_WALK_PERMIT 1).setF Reg.EST_S_CFG_EN 1).setF Reg.EST_S_CFG_CELLS 2).setF Reg.EST_S_CAP_FACT 60000)) 7000 1 5 false) ∧
    ((fun (s : State) (now since : Nat) (force : Bool) => (s.canonical = true) ∧ (s.est.restore = some (force, since)) ∧ (s.packReady = true ∨ since + 5000000000 ≤ s.est.clock) ∧ (decide (s.tq = tqLocked ∨ s.tq = tqHoldover) = true ∨ since + 10000000000 ≤ s.est.clock) ∧ (s.recordCheck ((List.range 64).flatMap fun i => leBytes 4 (s.getF Reg.EST_RST i)) force (decide (s.tq = tqLocked ∨ s.tq = tqHoldover)) (s.utc now) = none) ∧ (Sparse.wf (fun _ => ({} : EstString)) s.est.str = true)) ((((((((((((((({ State.reset with est := { State.reset.est with str := [(0, { cap := 50000, through := 1 })], restore := some (true, 5), clock := 20000000000 } }).setF Reg.EST_CFG_EN 1).setF Reg.EST_CFG_WALK_PERMIT 1).setF Reg.EST_S_CFG_EN 1).setF Reg.EST_S_CFG_CELLS 2).setF Reg.EST_S_CAP_FACT 60000).setF Reg.EST_RST 1397048897 0).setF Reg.EST_RST 16777217 1).setF Reg.EST_RST 16777216 3).setF Reg.EST_RST 2 16).setF Reg.EST_RST 30000 17).setF Reg.EST_RST 50000 20).setF Reg.EST_RST 589824000 25).setF Reg.EST_RST 2848991657 63)) 7000 5 true) ∧
    ((fun (s : State) (k : Nat) => (s.estOn k = false ∨ s.walkWanted k = false ∨ s.effF Reg.WB_LIMITS_SOC_MAX < 100 ∨ (if s.getF Reg.WB_STATUS_APPLIED ≠ 0 then s.wb.ff else s.wb.tot) ≥ 0)) (State.reset) 0) ∧
    ((fun (s : State) (k : Nat) => ((s.str k).walkAt = none)) (State.reset) 0) ∧
    ((fun (s : State) (k b : Nat) => ((s.str k).walkAt = some b) ∧ (s.est.clock < b + s.getF Reg.EST_DRIFT_CFG_WALK_MAX * 3600000000000)) ((((((({ State.reset with est := { State.reset.est with str := [(0, { cap := 50000, walkAt := some 5 })] } }).setF Reg.EST_CFG_EN 1).setF Reg.EST_CFG_WALK_PERMIT 1).setF Reg.EST_S_CFG_EN 1).setF Reg.EST_S_CFG_CELLS 2).setF Reg.EST_S_CAP_FACT 60000)) 0 5) ∧
    ((fun (s : State) (k : Nat) => ((s.str k).learn ≠ 2 ∨ s.est.clock < (s.str k).learnAt + s.getF Reg.EST_LEARN_CFG_TIMEOUT * 3600000000000)) (State.reset) 0) ∧
    ((fun (s : State) (k : Nat) => (s.estOn k = false ∨ s.isF Reg.EST_S_STAT_DRIFT k = true ∨ s.ageS k < s.getF Reg.EST_DRIFT_CFG_DRIFT_AGE * 3600)) (State.reset) 0) ∧
    ((fun (s : State) (now : Nat) => (s.est.restore = none)) (State.reset) 7) ∧
    ((fun (s : State) (now since : Nat) (force : Bool) => (s.est.restore = some (force, since)) ∧ ((s.packReady = false ∧ s.est.clock < since + 5000000000) ∨ (decide (s.tq = tqLocked ∨ s.tq = tqHoldover) = false ∧ s.est.clock < since + 10000000000))) ((((((({ State.reset with est := { State.reset.est with str := [(0, { cap := 50000, through := 1 })], restore := some (false, 5), clock := 7 } }).setF Reg.EST_CFG_EN 1).setF Reg.EST_CFG_WALK_PERMIT 1).setF Reg.EST_S_CFG_EN 1).setF Reg.EST_S_CFG_CELLS 2).setF Reg.EST_S_CAP_FACT 60000)) 7000 5 false) ∧
    ((fun (s : State) (path : Nat) => (s.reaches path = false)) (State.reset) 5) ∧
    ((fun (s : State) (path : Nat) => (s.reaches path = true) ∧ (s.free? path (Reg.EST_REC.addr 0 0) = false)) (({ State.reset with waiting := [Access.mk 1 false 0 0 4] })) 1) ∧
    ((fun (s : State) (path : Nat) => (s.canonical = true) ∧ (s.carries path (Reg.EST_REC.addr 0 0) = true)) (((((((((({ State.reset with est := { State.reset.est with str := [(0, { cap := 50000, through := 1 })] } }).setF Reg.EST_CFG_EN 1).setF Reg.EST_CFG_WALK_PERMIT 1).setF Reg.EST_S_CFG_EN 1).setF Reg.EST_S_CFG_CELLS 2).setF Reg.EST_S_CAP_FACT 60000).setF Reg.EST_STATUS_SHIP_STEP 3).setF Reg.EST_REC 77 5).setRuns 1 true)) 2) := by
  repeat refine And.intro (by decide +kernel) ?_
  decide +kernel

theorem test_meets_ShipMode :
    ((fun (s : State) => (s.canonical = true) ∧ (s.isF Reg.EST_CFG_EN = true) ∧ (s.getF Reg.EST_STATUS_SHIP_STEP = 0 ∨ s.getF Reg.EST_STATUS_SHIP_STEP = 7)) (((((((((({ State.reset with est := { State.reset.est with clock := 90000000000 } }).setF Reg.EST_CFG_EN 1).setF Reg.EST_CFG_WALK_PERMIT 1).setF Reg.EST_S_CFG_EN 1).setF Reg.EST_S_CFG_CELLS 2).setF Reg.EST_S_CAP_FACT 60000).setF Reg.EST_STATUS_SHIP_STEP 0).setF Reg.TWN_STATUS_LOCK 1).setF Reg.EST_STATUS_RECORD_READ 1))) ∧
    ((fun (s : State) => (s.canonical = true) ∧ (s.isF Reg.EST_CFG_EN = false ∨ (s.getF Reg.EST_STATUS_SHIP_STEP ≠ 0 ∧ s.getF Reg.EST_STATUS_SHIP_STEP ≠ 7))) (((((((({ State.reset with est := { State.reset.est with clock := 90000000000 } }).setF Reg.EST_CFG_EN 1).setF Reg.EST_CFG_WALK_PERMIT 1).setF Reg.EST_S_CFG_EN 1).setF Reg.EST_S_CFG_CELLS 2).setF Reg.EST_S_CAP_FACT 60000).setF Reg.EST_STATUS_SHIP_STEP 3))) ∧
    ((fun (s : State) (now : Nat) => (s.canonical = true) ∧ (s.getF Reg.EST_STATUS_SHIP_STEP = 1) ∧ (decide (s.wb.tot = 0) = true) ∧ ((s.estStrings.all fun k => decide ((s.ccCur k).natAbs < 2000)) = true)) ((((((((({ State.reset with est := { State.reset.est with clock := 90000000000 } }).setF Reg.EST_CFG_EN 1).setF Reg.EST_CFG_WALK_PERMIT 1).setF Reg.EST_S_CFG_EN 1).setF Reg.EST_S_CFG_CELLS 2).setF Reg.EST_S_CAP_FACT 60000).setF Reg.EST_STATUS_SHIP_STEP 1).setF Reg.EST_SHIP_CFG_SHIP_GRP 6)) 7000) ∧
    ((fun (s : State) (now : Nat) => (s.canonical = true) ∧ (s.getF Reg.EST_STATUS_SHIP_STEP = 1) ∧ (s.wb.tot ≠ 0 ∨ (s.estStrings.all fun k => decide ((s.ccCur k).natAbs < 2000)) = false) ∧ (s.est.shipAt + 1000000000 ≤ s.est.clock) ∧ (s.est.slept = false)) (({ ((((((({ State.reset with est := { State.reset.est with clock := 90000000000 } }).setF Reg.EST_CFG_EN 1).setF Reg.EST_CFG_WALK_PERMIT 1).setF Reg.EST_S_CFG_EN 1).setF Reg.EST_S_CFG_CELLS 2).setF Reg.EST_S_CAP_FACT 60000).setF Reg.EST_STATUS_SHIP_STEP 1) with wb := { State.reset.wb with tot := -1 } })) 7000) ∧
    ((fun (s : State) => (s.canonical = true) ∧ (s.getF Reg.EST_STATUS_SHIP_STEP = 2) ∧ (s.est.shipAt + (s.shipDelay + 10) * 1000000 ≤ s.est.clock) ∧ (s.isF Reg.EST_CFG_EN = true)) ((((((((({ State.reset with est := { State.reset.est with clock := 90000000000 } }).setF Reg.EST_CFG_EN 1).setF Reg.EST_CFG_WALK_PERMIT 1).setF Reg.EST_S_CFG_EN 1).setF Reg.EST_S_CFG_CELLS 2).setF Reg.EST_S_CAP_FACT 60000).setF Reg.EST_STATUS_SHIP_STEP 2).setF Reg.EST_STATUS_RECORD_READ 1))) ∧
    ((fun (s : State) => (s.canonical = true) ∧ (s.getF Reg.EST_STATUS_SHIP_STEP = 3) ∧ (s.isF Reg.EST_STATUS_RECORD_READ = true ∨ s.est.shipAt + s.getF Reg.EST_SHIP_CFG_SHIP_WAIT * 1000000000 < s.est.clock) ∧ (s.pklOn = true)) ((((((((((({ State.reset with est := { State.reset.est with clock := 90000000000 } }).setF Reg.EST_CFG_EN 1).setF Reg.EST_CFG_WALK_PERMIT 1).setF Reg.EST_S_CFG_EN 1).setF Reg.EST_S_CFG_CELLS 2).setF Reg.EST_S_CAP_FACT 60000).setF Reg.EST_STATUS_SHIP_STEP 3).setF Reg.PKL_CFG_EN 1).setF Reg.PKL_CFG_NODES 3).setF Reg.EST_SHIP_CFG_SHIP_WAIT 10))) ∧
    ((fun (s : State) (asserted : Bool) (now : Nat) => (s.canonical = true) ∧ (s.getF Reg.EST_STATUS_SHIP_STEP = 5) ∧ (asserted = false)) (((((((({ State.reset with est := { State.reset.est with clock := 90000000000 } }).setF Reg.EST_CFG_EN 1).setF Reg.EST_CFG_WALK_PERMIT 1).setF Reg.EST_S_CFG_EN 1).setF Reg.EST_S_CFG_CELLS 2).setF Reg.EST_S_CAP_FACT 60000).setF Reg.EST_STATUS_SHIP_STEP 5)) false 7000) ∧
    ((fun (s : State) (asserted : Bool) (now i : Nat) => (s.canonical = true) ∧ (s.getF Reg.EST_STATUS_SHIP_STEP = 5) ∧ (asserted = true) ∧ (s.est.shipAt + s.getF Reg.EST_SHIP_CFG_BUS_WAIT * 1000000000 ≤ s.est.clock) ∧ (s.est.slept = true) ∧ (s.pklOn = true) ∧ (s.ndList.head? = some i)) (((((((((((({ State.reset with est := { State.reset.est with slept := true, clock := 90000000000 } }).setF Reg.EST_CFG_EN 1).setF Reg.EST_CFG_WALK_PERMIT 1).setF Reg.EST_S_CFG_EN 1).setF Reg.EST_S_CFG_CELLS 2).setF Reg.EST_S_CAP_FACT 60000).setF Reg.EST_STATUS_SHIP_STEP 5).setF Reg.PKL_CFG_EN 1).setF Reg.PKL_CFG_NODES 3).setF Reg.PKL_ND_MAP_EN 1).setF Reg.EST_SHIP_CFG_BUS_WAIT 10)) true 7000 0) ∧
    ((fun (s : State) (now : Nat) => (s.getF Reg.EST_STATUS_SHIP_STEP ≠ 1)) (State.reset) 7) ∧
    ((fun (s : State) (now : Nat) => (s.getF Reg.EST_STATUS_SHIP_STEP = 1) ∧ (s.wb.tot ≠ 0 ∨ (s.estStrings.all fun k => decide ((s.ccCur k).natAbs < 2000)) = false) ∧ (s.est.clock < s.est.shipAt + 1000000000)) (({ ((((((({ State.reset with est := { State.reset.est with clock := 90000000000 } }).setF Reg.EST_CFG_EN 1).setF Reg.EST_CFG_WALK_PERMIT 1).setF Reg.EST_S_CFG_EN 1).setF Reg.EST_S_CFG_CELLS 2).setF Reg.EST_S_CAP_FACT 60000).setF Reg.EST_STATUS_SHIP_STEP 1) with wb := { State.reset.wb with tot := -1 }, est := { State.reset.est with shipAt := 5 } })) 7000) ∧
    ((fun (s : State) => (s.getF Reg.EST_STATUS_SHIP_STEP ≠ 2 ∨ s.est.clock < s.est.shipAt + (s.shipDelay + 10) * 1000000)) (State.reset)) ∧
    ((fun (s : State) => (s.canonical = true) ∧ (s.getF Reg.EST_STATUS_SHIP_STEP = 2) ∧ (s.est.shipAt + (s.shipDelay + 10) * 1000000 ≤ s.est.clock) ∧ (s.isF Reg.EST_CFG_EN = false)) ((((((((({ State.reset with est := { State.reset.est with clock := 90000000000 } }).setF Reg.EST_CFG_EN 1).setF Reg.EST_CFG_WALK_PERMIT 1).setF Reg.EST_S_CFG_EN 1).setF Reg.EST_S_CFG_CELLS 2).setF Reg.EST_S_CAP_FACT 60000).setF Reg.EST_STATUS_SHIP_STEP 2).setF Reg.EST_CFG_EN 0))) ∧
    ((fun (s : State) => (s.getF Reg.EST_STATUS_SHIP_STEP ≠ 3 ∨ (s.isF Reg.EST_STATUS_RECORD_READ = false ∧ s.est.clock ≤ s.est.shipAt + s.getF Reg.EST_SHIP_CFG_SHIP_WAIT * 1000000000))) (State.reset)) ∧
    ((fun (s : State) => (s.canonical = true) ∧ (s.getF Reg.EST_STATUS_SHIP_STEP = 3) ∧ (s.isF Reg.EST_STATUS_RECORD_READ = true) ∧ (s.pklOn = false)) (((((((((({ State.reset with est := { State.reset.est with clock := 90000000000 } }).setF Reg.EST_CFG_EN 1).setF Reg.EST_CFG_WALK_PERMIT 1).setF Reg.EST_S_CFG_EN 1).setF Reg.EST_S_CFG_CELLS 2).setF Reg.EST_S_CAP_FACT 60000).setF Reg.EST_STATUS_SHIP_STEP 3).setF Reg.EST_STATUS_RECORD_READ 1).setF Reg.PKL_CFG_EN 0))) ∧
    ((fun (s : State) (asserted : Bool) (now : Nat) => (s.getF Reg.EST_STATUS_SHIP_STEP ≠ 5 ∨ (asserted = true ∧ s.est.clock < s.est.shipAt + s.getF Reg.EST_SHIP_CFG_BUS_WAIT * 1000000000))) (State.reset) true 7) ∧
    ((fun (s : State) (asserted : Bool) (now : Nat) => (s.canonical = true) ∧ (s.getF Reg.EST_STATUS_SHIP_STEP = 5) ∧ (asserted = true) ∧ (s.est.shipAt + s.getF Reg.EST_SHIP_CFG_BUS_WAIT * 1000000000 ≤ s.est.clock) ∧ (s.est.slept = false)) ((((((((({ State.reset with est := { State.reset.est with clock := 90000000000 } }).setF Reg.EST_CFG_EN 1).setF Reg.EST_CFG_WALK_PERMIT 1).setF Reg.EST_S_CFG_EN 1).setF Reg.EST_S_CFG_CELLS 2).setF Reg.EST_S_CAP_FACT 60000).setF Reg.EST_STATUS_SHIP_STEP 5).setF Reg.EST_SHIP_CFG_BUS_WAIT 10)) true 7000) ∧
    ((fun (s : State) (now i : Nat) => (s.canonical = true) ∧ (1 ≤ s.getF Reg.EST_STATUS_SHIP_STEP) ∧ (s.getF Reg.EST_STATUS_SHIP_STEP ≤ 6) ∧ (s.est.slept = true) ∧ (s.pklOn = true) ∧ (s.ndList.head? = some i)) ((((((((((({ State.reset with est := { State.reset.est with slept := true, clock := 90000000000 } }).setF Reg.EST_CFG_EN 1).setF Reg.EST_CFG_WALK_PERMIT 1).setF Reg.EST_S_CFG_EN 1).setF Reg.EST_S_CFG_CELLS 2).setF Reg.EST_S_CAP_FACT 60000).setF Reg.EST_STATUS_SHIP_STEP 5).setF Reg.PKL_CFG_EN 1).setF Reg.PKL_CFG_NODES 3).setF Reg.PKL_ND_MAP_EN 1)) 7000 0) ∧
    ((fun (s : State) (now : Nat) => (s.canonical = true) ∧ (1 ≤ s.getF Reg.EST_STATUS_SHIP_STEP) ∧ (s.getF Reg.EST_STATUS_SHIP_STEP ≤ 6) ∧ (s.est.slept = false)) (((((((({ State.reset with est := { State.reset.est with clock := 90000000000 } }).setF Reg.EST_CFG_EN 1).setF Reg.EST_CFG_WALK_PERMIT 1).setF Reg.EST_S_CFG_EN 1).setF Reg.EST_S_CFG_CELLS 2).setF Reg.EST_S_CAP_FACT 60000).setF Reg.EST_STATUS_SHIP_STEP 2)) 7000) ∧
    ((fun (s : State) (now : Nat) => (s.canonical = true) ∧ (s.getF Reg.EST_STATUS_SHIP_STEP = 0 ∨ s.getF Reg.EST_STATUS_SHIP_STEP = 7)) (State.reset) 7000) := by
  repeat refine And.intro (by decide +kernel) ?_
  decide +kernel

theorem test_meets_OperatingPointsAndTemperature :
    ((fun (s : State) (path d opp now : Nat) => (s.canonical = true) ∧ (d < 2) ∧ (s.carries path (Reg.TH_DIE_OPP.addr d 0) = true) ∧ (s.hostWrite = none) ∧ (s.layerBits (Reg.TH_DIE_OPP.addr d 0) = 0) ∧ (s.dieRuns d = true) ∧ (s.getF Reg.PWR_DVFS_STAT_STEP d = 0) ∧ (s.getF Reg.PWR_STATUS_STATE = 0) ∧ (s.getF Reg.TWN_STATUS_STATE ≠ 0) ∧ ((min (opp % 4) (3 - Sparse.at 0 s.pwr.lowered d)) < (s.getF Reg.PWR_DVFS_STAT_F_OP d))) ((((((((((State.reset.setRunsAll [23, 24, 27] true).setF Reg.PWR_DVFS_STAT_STEP 0 0).setF Reg.PWR_DVFS_STAT_F_OP 2 0).setF Reg.PWR_DVFS_STAT_V_OP 2 0).setF Reg.TH_DIE_OPP_OPP 0 0).setF Reg.TWN_STATUS_STATE 1).setF Reg.PWR_STATUS_STATE 0).setF Reg.PWR_THERM_THROTTLE_T 900).setF Reg.PWR_THERM_SHUTDOWN_T 1100)) 3 0 1 5000) ∧
    ((fun (s : State) (path d opp now : Nat) => (s.canonical = true) ∧ (d < 2) ∧ (s.carries path (Reg.TH_DIE_OPP.addr d 0) = true) ∧ (s.hostWrite = none) ∧ (s.layerBits (Reg.TH_DIE_OPP.addr d 0) = 0) ∧ (s.dieRuns d = true) ∧ (s.getF Reg.PWR_DVFS_STAT_STEP d = 0) ∧ (s.getF Reg.PWR_STATUS_STATE = 0) ∧ (s.getF Reg.TWN_STATUS_STATE ≠ 0) ∧ ((s.getF Reg.PWR_DVFS_STAT_F_OP d) ≤ (min (opp % 4) (3 - Sparse.at 0 s.pwr.lowered d))) ∧ ((s.getF Reg.PWR_DVFS_STAT_V_OP d) < (min (opp % 4) (3 - Sparse.at 0 s.pwr.lowered d)))) ((((((((((State.reset.setRunsAll [23, 24, 27] true).setF Reg.PWR_DVFS_STAT_STEP 0 0).setF Reg.PWR_DVFS_STAT_F_OP 0 0).setF Reg.PWR_DVFS_STAT_V_OP 0 0).setF Reg.TH_DIE_OPP_OPP 0 0).setF Reg.TWN_STATUS_STATE 1).setF Reg.PWR_STATUS_STATE 0).setF Reg.PWR_THERM_THROTTLE_T 900).setF Reg.PWR_THERM_SHUTDOWN_T 1100)) 1 0 3 5000) ∧
    ((fun (s : State) (path d opp now : Nat) => (s.canonical = true) ∧ (d < 2) ∧ (s.carries path (Reg.TH_DIE_OPP.addr d 0) = true) ∧ (s.hostWrite = none) ∧ (s.layerBits (Reg.TH_DIE_OPP.addr d 0) = 0) ∧ (s.dieRuns d = true) ∧ (s.getF Reg.PWR_DVFS_STAT_STEP d = 0) ∧ (s.getF Reg.PWR_STATUS_STATE = 0) ∧ (s.getF Reg.TWN_STATUS_STATE ≠ 0) ∧ ((s.getF Reg.PWR_DVFS_STAT_F_OP d) < (min (opp % 4) (3 - Sparse.at 0 s.pwr.lowered d))) ∧ ((s.getF Reg.PWR_DVFS_STAT_V_OP d) = (min (opp % 4) (3 - Sparse.at 0 s.pwr.lowered d)))) ((((((((((State.reset.setRunsAll [23, 24, 27] true).setF Reg.PWR_DVFS_STAT_STEP 0 0).setF Reg.PWR_DVFS_STAT_F_OP 0 0).setF Reg.PWR_DVFS_STAT_V_OP 3 0).setF Reg.TH_DIE_OPP_OPP 0 0).setF Reg.TWN_STATUS_STATE 1).setF Reg.PWR_STATUS_STATE 0).setF Reg.PWR_THERM_THROTTLE_T 900).setF Reg.PWR_THERM_SHUTDOWN_T 1100)) 1 0 3 5000) ∧
    ((fun (s : State) (path d opp now : Nat) => (s.canonical = true) ∧ (d < 2) ∧ (s.carries path (Reg.TH_DIE_OPP.addr d 0) = true) ∧ (s.hostWrite = none) ∧ (s.layerBits (Reg.TH_DIE_OPP.addr d 0) = 0) ∧ (s.dieRuns d = true) ∧ (s.getF Reg.PWR_DVFS_STAT_STEP d ≠ 0)) ((((((((((State.reset.setRunsAll [23, 24, 27] true).setF Reg.PWR_DVFS_STAT_STEP 2 0).setF Reg.PWR_DVFS_STAT_F_OP 0 0).setF Reg.PWR_DVFS_STAT_V_OP 0 0).setF Reg.TH_DIE_OPP_OPP 0 0).setF Reg.TWN_STATUS_STATE 1).setF Reg.PWR_STATUS_STATE 0).setF Reg.PWR_THERM_THROTTLE_T 900).setF Reg.PWR_THERM_SHUTDOWN_T 1100)) 1 0 3 5000) ∧
    ((fun (s : State) (path d opp now : Nat) => (2 ≤ d ∨ s.reaches path = false)) (State.reset) 0 1 3 5000) ∧
    ((fun (s : State) (path d opp now : Nat) => (d < 2) ∧ (s.reaches path = true) ∧ (s.free? path (Reg.TH_DIE_OPP.addr d 0) = false)) (State.reset) 1 1 3 5000) ∧
    ((fun (s : State) (path d opp now : Nat) => (s.canonical = true) ∧ (d < 2) ∧ (s.carries path (Reg.TH_DIE_OPP.addr d 0) = true) ∧ (s.hostWrite = none) ∧ (s.layerBits (Reg.TH_DIE_OPP.addr d 0) = 0) ∧ (s.dieRuns d = false)) ((((((((((State.reset.setRunsAll [24] true).setF Reg.PWR_DVFS_STAT_STEP 0 0).setF Reg.PWR_DVFS_STAT_F_OP 0 0).setF Reg.PWR_DVFS_STAT_V_OP 0 0).setF Reg.TH_DIE_OPP_OPP 0 0).setF Reg.TWN_STATUS_STATE 1).setF Reg.PWR_STATUS_STATE 0).setF Reg.PWR_THERM_THROTTLE_T 900).setF Reg.PWR_THERM_SHUTDOWN_T 1100)) 3 0 1 5000) ∧
    ((fun (s : State) (d now : Nat) => (2 ≤ d ∨ s.getF Reg.PWR_DVFS_STAT_STEP d = 0 ∨ now < Sparse.at 0 s.pwr.stepEnd d)) (State.reset) 0 5000) ∧
    ((fun (s : State) (d : Nat) (temp : Int) (now : Nat) => (2 ≤ d)) (State.reset) 2 0 5000) ∧
    ((fun (s : State) (d : Nat) (temp : Int) (now : Nat) => (2 ≤ d)) (State.reset) 2 0 5000) ∧
    ((fun (s : State) (d : Nat) (temp : Int) (now : Nat) => (s.canonical = true) ∧ (d < 2) ∧ (s.throttleT - 50 < temp ∨ Sparse.at 0 s.pwr.lowered d = 0 ∨ s.throttleDue d now = false)) ((((((((((State.reset.setRunsAll [23, 24, 27] true).setF Reg.PWR_DVFS_STAT_STEP 0 0).setF Reg.PWR_DVFS_STAT_F_OP 3 0).setF Reg.PWR_DVFS_STAT_V_OP 3 0).setF Reg.TH_DIE_OPP_OPP 3 0).setF Reg.TWN_STATUS_STATE 1).setF Reg.PWR_STATUS_STATE 0).setF Reg.PWR_THERM_THROTTLE_T 900).setF Reg.PWR_THERM_SHUTDOWN_T 1100)) 0 850 50000000) ∧
    ((fun (s : State) (d : Nat) (temp : Int) => (s.canonical = true) ∧ (d < 2) ∧ (temp ≤ (s.getF Reg.PWR_THERM_SHUTDOWN_T : Int))) ((((((((((State.reset.setRunsAll [23, 24, 27] true).setF Reg.PWR_DVFS_STAT_STEP 0 0).setF Reg.PWR_DVFS_STAT_F_OP 3 0).setF Reg.PWR_DVFS_STAT_V_OP 3 0).setF Reg.TH_DIE_OPP_OPP 3 0).setF Reg.TWN_STATUS_STATE 1).setF Reg.PWR_STATUS_STATE 0).setF Reg.PWR_THERM_THROTTLE_T 900).setF Reg.PWR_THERM_SHUTDOWN_T 1100)) 0 850) ∧
    ((fun (s : State) (d : Nat) (temp : Int) => (3 ≤ d ∨ (d = 2 ∧ temp ≤ (s.getF Reg.PWR_THERM_SHUTDOWN_T : Int)))) (State.reset) 4 850) ∧
    ((fun (s : State) (d now : Nat) => (s.canonical = true) ∧ (d < 2) ∧ (s.dieRuns d = true) ∧ (s.getF Reg.PWR_STATUS_STATE = 0) ∧ (s.getF Reg.TWN_STATUS_STATE ≠ 0) ∧ (s.getF Reg.PWR_DVFS_STAT_STEP d ≠ 0) ∧ (Sparse.at 0 s.pwr.stepEnd d ≤ now) ∧ (s.dieGoal d = (s.getF Reg.PWR_DVFS_STAT_TARGET d)) ∧ (s.getF Reg.PWR_DVFS_STAT_STEP d = 2) ∧ ((s.getF Reg.PWR_DVFS_STAT_F_OP d) < (s.getF Reg.PWR_DVFS_STAT_TARGET d))) (((((((((((State.reset.setRunsAll [23, 24, 27] true).setF Reg.PWR_DVFS_STAT_STEP 2 0).setF Reg.PWR_DVFS_STAT_F_OP 0 0).setF Reg.PWR_DVFS_STAT_V_OP 0 0).setF Reg.TH_DIE_OPP_OPP 3 0).setF Reg.TWN_STATUS_STATE 1).setF Reg.PWR_STATUS_STATE 0).setF Reg.PWR_THERM_THROTTLE_T 900).setF Reg.PWR_THERM_SHUTDOWN_T 1100).setF Reg.PWR_DVFS_STAT_TARGET 3 0)) 0 50000) ∧
    ((fun (s : State) (d now : Nat) => (s.canonical = true) ∧ (d < 2) ∧ (s.dieRuns d = true) ∧ (s.getF Reg.PWR_STATUS_STATE = 0) ∧ (s.getF Reg.TWN_STATUS_STATE ≠ 0) ∧ (s.getF Reg.PWR_DVFS_STAT_STEP d ≠ 0) ∧ (Sparse.at 0 s.pwr.stepEnd d ≤ now) ∧ (s.dieGoal d = (s.getF Reg.PWR_DVFS_STAT_TARGET d)) ∧ (s.getF Reg.PWR_DVFS_STAT_STEP d = 3) ∧ ((s.getF Reg.PWR_DVFS_STAT_V_OP d) = (s.getF Reg.PWR_DVFS_STAT_TARGET d)) ∧ (s.isF Reg.TH_DIE_STATUS_OPP_BUSY d = true)) ((((((((((((State.reset.setRunsAll [23, 24, 27] true).setF Reg.PWR_DVFS_STAT_STEP 3 0).setF Reg.PWR_DVFS_STAT_F_OP 0 0).setF Reg.PWR_DVFS_STAT_V_OP 3 0).setF Reg.TH_DIE_OPP_OPP 3 0).setF Reg.TWN_STATUS_STATE 1).setF Reg.PWR_STATUS_STATE 0).setF Reg.PWR_THERM_THROTTLE_T 900).setF Reg.PWR_THERM_SHUTDOWN_T 1100).setF Reg.PWR_DVFS_STAT_TARGET 3 0).setF Reg.TH_DIE_STATUS_OPP_BUSY 1 0)) 0 50000) ∧
    ((fun (s : State) (d : Nat) (temp : Int) (now : Nat) => (s.canonical = true) ∧ (d < 2) ∧ (s.throttleT < temp) ∧ (0 < s.dieGoal d) ∧ (s.throttleDue d now = true)) ((((((((((State.reset.setRunsAll [23, 24, 27] true).setF Reg.PWR_DVFS_STAT_STEP 0 0).setF Reg.PWR_DVFS_STAT_F_OP 3 0).setF Reg.PWR_DVFS_STAT_V_OP 3 0).setF Reg.TH_DIE_OPP_OPP 3 0).setF Reg.TWN_STATUS_STATE 1).setF Reg.PWR_STATUS_STATE 0).setF Reg.PWR_THERM_THROTTLE_T 900).setF Reg.PWR_THERM_SHUTDOWN_T 1100)) 0 950 50000000) ∧
    ((fun (s : State) (d : Nat) (temp : Int) (now : Nat) => (s.canonical = true) ∧ (d < 2) ∧ (temp ≤ s.throttleT ∨ s.dieGoal d = 0 ∨ s.throttleDue d now = false)) ((((((((((State.reset.setRunsAll [23, 24, 27] true).setF Reg.PWR_DVFS_STAT_STEP 0 0).setF Reg.PWR_DVFS_STAT_F_OP 3 0).setF Reg.PWR_DVFS_STAT_V_OP 3 0).setF Reg.TH_DIE_OPP_OPP 3 0).setF Reg.TWN_STATUS_STATE 1).setF Reg.PWR_STATUS_STATE 0).setF Reg.PWR_THERM_THROTTLE_T 900).setF Reg.PWR_THERM_SHUTDOWN_T 1100)) 0 850 50000000) ∧
    ((fun (s : State) (d : Nat) (temp : Int) (now : Nat) => (s.canonical = true) ∧ (d < 2) ∧ (temp ≤ s.throttleT - 50) ∧ (0 < Sparse.at 0 s.pwr.lowered d) ∧ (s.throttleDue d now = true) ∧ (4 - Sparse.at 0 s.pwr.lowered d < s.getF Reg.TH_DIE_OPP_OPP d)) ((((((((((({ State.reset with pwr := { State.reset.pwr with lowered := [(0, 2)] } }).setRunsAll [23, 24, 27] true).setF Reg.PWR_DVFS_STAT_STEP 0 0).setF Reg.PWR_DVFS_STAT_F_OP 1 0).setF Reg.PWR_DVFS_STAT_V_OP 1 0).setF Reg.TH_DIE_OPP_OPP 3 0).setF Reg.TWN_STATUS_STATE 1).setF Reg.PWR_STATUS_STATE 0).setF Reg.PWR_THERM_THROTTLE_T 900).setF Reg.PWR_THERM_SHUTDOWN_T 1100)) 0 800 50000000) ∧
    ((fun (s : State) (d : Nat) (temp : Int) => (s.canonical = true) ∧ (d < 2) ∧ ((s.getF Reg.PWR_THERM_SHUTDOWN_T : Int) < temp)) ((((((((((State.reset.setRunsAll [23, 24, 27] true).setF Reg.PWR_DVFS_STAT_STEP 0 0).setF Reg.PWR_DVFS_STAT_F_OP 3 0).setF Reg.PWR_DVFS_STAT_V_OP 3 0).setF Reg.TH_DIE_OPP_OPP 3 0).setF Reg.TWN_STATUS_STATE 1).setF Reg.PWR_STATUS_STATE 0).setF Reg.PWR_THERM_THROTTLE_T 900).setF Reg.PWR_THERM_SHUTDOWN_T 1100)) 0 1200) ∧
    ((fun (s : State) (d : Nat) (temp : Int) => (s.canonical = true) ∧ (d = 2) ∧ ((s.getF Reg.PWR_THERM_SHUTDOWN_T : Int) < temp)) ((((((((((State.reset.setRunsAll [23, 24, 27] true).setF Reg.PWR_DVFS_STAT_STEP 0 0).setF Reg.PWR_DVFS_STAT_F_OP 3 0).setF Reg.PWR_DVFS_STAT_V_OP 3 0).setF Reg.TH_DIE_OPP_OPP 3 0).setF Reg.TWN_STATUS_STATE 1).setF Reg.PWR_STATUS_STATE 0).setF Reg.PWR_THERM_THROTTLE_T 900).setF Reg.PWR_THERM_SHUTDOWN_T 1100)) 2 1200) := by
  repeat refine And.intro (by decide +kernel) ?_
  decide +kernel

theorem test_meets_BeatsDeclarationsAndTwinCommands :
    ((fun (s : State) (now : Nat) => (s.twn.lockstep = false) ∧ (s.getF Reg.PWR_STATUS_STATE ≤ 2) ∧ (s.runs 1 = true) ∧ ((s.counting = true ∧ s.frame % 2 = 0 ∧ s.frameTime s.frame + 6000 ≤ now ∧ s.twn.beatF ≠ some s.frame) ∨ ((s.twn.beatTold.any fun x => decide (x ≠ (s.twn.code, s.twinSt, s.twn.req))) = true))) ((((((({ State.reset with twn := { State.reset.twn with beatNo := 200, code := 3 }, counting := true, frame := 4 }).setF Reg.TWN_CFG_AUTO_SWITCH 1).setF Reg.TWN_CFG_MISS_LIMIT 3).setF Reg.TWN_STATUS_STATE 2).setF Reg.PWR_STATUS_STATE 1).setRuns 1 true)) 20000000) ∧
    ((fun (s : State) (now : Nat) => (s.twn.lockstep = true ∨ 2 < s.getF Reg.PWR_STATUS_STATE ∨ s.runs 1 = false ∨ ¬ ((s.counting = true ∧ s.frame % 2 = 0 ∧ s.frameTime s.frame + 6000 ≤ now ∧ s.twn.beatF ≠ some s.frame) ∨ ((s.twn.beatTold.any fun x => decide (x ≠ (s.twn.code, s.twinSt, s.twn.req))) = true)))) (((State.reset.setF Reg.TWN_CFG_AUTO_SWITCH 1).setF Reg.TWN_CFG_MISS_LIMIT 3)) 7) ∧
    ((fun (s : State) (path now : Nat) (message : List Byte) => (2 ≤ path ∨ beatGood message = false)) (State.reset) 0 5000 [1#8]) ∧
    ((fun (s : State) (path now : Nat) (message : List Byte) => (s.canonical = true) ∧ (path < 2) ∧ (beatGood message = true) ∧ ((leAt message 3 1) = 0) ∧ (s.beatsClash path (leAt message 1 1) (leAt message 3 1) = false)) ((((((({ State.reset with twn := { State.reset.twn with declared := true } }).setF Reg.TWN_CFG_AUTO_SWITCH 1).setF Reg.TWN_CFG_MISS_LIMIT 3).setF Reg.TWN_STATUS_STATE 2).setF Reg.TWN_PATHS_STAKE 1).setF Reg.TWN_PATHS_STAKE_MISSES 4)) 0 5000 [181#8, 7#8, 32#8, 0#8, 110#8]) ∧
    ((fun (s : State) (path now : Nat) (message : List Byte) => (s.canonical = true) ∧ (path < 2) ∧ (beatGood message = true) ∧ ((leAt message 3 1) ≠ 0) ∧ (s.beatsClash path (leAt message 1 1) (leAt message 3 1) = false) ∧ ((match Sparse.at none s.twn.beats (1 - path) with | some (_, _, c) => decide (c = (leAt message 3 1)) | none => false) = true ∨ s.getF (pathState (1 - path)) = 1) ∧ (s.twinSt = 2) ∧ (s.isF Reg.TWN_CFG_AUTO_SWITCH = true) ∧ (s.isF Reg.TWN_STATUS_READY = true) ∧ (s.twn.declared = false)) (((((({ State.reset with twn := { State.reset.twn with beats := [(1, some (7, 0x20, 4))] } }).setF Reg.TWN_CFG_AUTO_SWITCH 1).setF Reg.TWN_CFG_MISS_LIMIT 3).setF Reg.TWN_STATUS_STATE 2).setF Reg.TWN_STATUS_READY 1)) 0 5000 [181#8, 7#8, 32#8, 4#8, 114#8]) ∧
    ((fun (s : State) (path now : Nat) (message : List Byte) => (s.canonical = true) ∧ (path < 2) ∧ (beatGood message = true) ∧ (s.beatsClash path (leAt message 1 1) (leAt message 3 1) = true)) ((((({ State.reset with twn := { State.reset.twn with beats := [(1, some (7, 0x20, 0))] } }).setF Reg.TWN_CFG_AUTO_SWITCH 1).setF Reg.TWN_CFG_MISS_LIMIT 3).setF Reg.TWN_STATUS_STATE 2)) 0 5000 [181#8, 7#8, 32#8, 4#8, 114#8]) ∧
    ((fun (s : State) (path now d : Nat) => (s.canonical = true) ∧ (path < 2) ∧ (s.beatWin < now) ∧ (s.beatDue (now - s.beatWin - 1) = some d) ∧ ((Sparse.at none s.twn.beatDone path).any (fun x => decide (d ≤ x)) = false) ∧ (s.getF (pathMisses path) + 1 < s.missLimit) ∧ (s.getF (pathState path) ≠ 1 ∨ s.getF (pathState (1 - path)) ≠ 1) ∧ (s.getF (pathState (1 - path)) ≠ 2)) (((({ State.reset with twn := { State.reset.twn with  }, counting := true }).setF Reg.TWN_CFG_AUTO_SWITCH 1).setF Reg.TWN_CFG_MISS_LIMIT 3)) 0 5000000 4986000) ∧
    ((fun (s : State) (path now : Nat) => (2 ≤ path ∨ now ≤ s.beatWin ∨ s.beatDue (now - s.beatWin - 1) = none)) (((State.reset.setF Reg.TWN_CFG_AUTO_SWITCH 1).setF Reg.TWN_CFG_MISS_LIMIT 3)) 0 7) ∧
    ((fun (s : State) (path now d e : Nat) => (s.beatDue (now - s.beatWin - 1) = some d) ∧ (Sparse.at none s.twn.beatDone path = some e) ∧ (d ≤ e)) (((({ State.reset with twn := { State.reset.twn with beatDone := [(0, some 9999999)] }, counting := true }).setF Reg.TWN_CFG_AUTO_SWITCH 1).setF Reg.TWN_CFG_MISS_LIMIT 3)) 0 5000000 4986000 9999999) ∧
    ((fun (s : State) (path now d seq fl code : Nat) => (s.canonical = true) ∧ (path < 2) ∧ (s.beatWin < now) ∧ (s.beatDue (now - s.beatWin - 1) = some d) ∧ ((Sparse.at none s.twn.beatDone path).any (fun x => decide (d ≤ x)) = false) ∧ (s.getF (pathMisses path) + 1 < s.missLimit) ∧ (s.getF (pathState path) ≠ 1) ∧ (s.getF (pathState (1 - path)) = 2) ∧ (Sparse.at none s.twn.beats (1 - path) = some (seq, fl, code)) ∧ (code ≠ 0) ∧ (s.twinSt = 2) ∧ (s.isF Reg.TWN_CFG_AUTO_SWITCH = true) ∧ (s.isF Reg.TWN_STATUS_READY = true) ∧ (s.twn.declared = false)) ((((((({ State.reset with twn := { State.reset.twn with beats := [(1, some (7, 0x20, 4))] }, counting := true }).setF Reg.TWN_CFG_AUTO_SWITCH 1).setF Reg.TWN_CFG_MISS_LIMIT 3).setF Reg.TWN_STATUS_STATE 2).setF Reg.TWN_STATUS_READY 1).setF Reg.TWN_PATHS_BINDER 2)) 0 5000000 4986000 7 0x20 4) ∧
    ((fun (s : State) (path now d : Nat) => (s.canonical = true) ∧ (path < 2) ∧ (s.beatWin < now) ∧ (s.beatDue (now - s.beatWin - 1) = some d) ∧ ((Sparse.at none s.twn.beatDone path).any (fun x => decide (d ≤ x)) = false) ∧ (s.missLimit ≤ s.getF (pathMisses path) + 1) ∧ (s.getF (pathState path) ≠ 1) ∧ (s.getF (pathState (1 - path)) = 1) ∧ (s.twinSt = 2) ∧ (s.isF Reg.TWN_CFG_AUTO_SWITCH = true) ∧ (s.isF Reg.TWN_STATUS_READY = true) ∧ (s.twn.declared = false)) (((((((({ State.reset with twn := { State.reset.twn with  }, counting := true }).setF Reg.TWN_CFG_AUTO_SWITCH 1).setF Reg.TWN_CFG_MISS_LIMIT 3).setF Reg.TWN_STATUS_STATE 2).setF Reg.TWN_STATUS_READY 1).setF Reg.TWN_PATHS_BINDER 1).setF Reg.TWN_PATHS_STAKE_MISSES 2)) 0 5000000 4986000) ∧
    ((fun (s : State) (down : Bool) => (s.canonical = true)) (State.reset) true) ∧
    ((fun (s : State) (now : Nat) => (s.twinSt ≠ 1 ∨ s.netUp = false ∨ now ≤ s.hnt.netSince + 1000000000 ∨ s.isVoice = true ∨ (s.voiceOf s.shelf) = none)) (State.reset) 7) ∧
    ((fun (s : State) (now : Nat) => (s.twinSt = 1) ∧ (s.netUp = true) ∧ (s.hnt.netSince + 1000000000 < now) ∧ (s.isVoice = false) ∧ ((s.voiceOf s.shelf).isSome = true)) ((({ (((((((((({ State.reset with ldg := { State.reset.ldg with rack := { State.reset.ldg.rack with member := true, epoch := 5, term := 2, leader := some 9, members := [⟨4, 0, 2, 0, 0, 0⟩, ⟨9, 0, 2, 2, 0, 0⟩] } }, hnt := { State.reset.hnt with pt := [(3, { id := 9, shelf := 2 })] } }).setF Reg.HNT_CFG_EN 1).setF Reg.HNT_CFG_AUTH_REQ 0).setF Reg.HNT_STATUS_LINK_A 1).setF Reg.HNT_STATUS_PHASE 2).setF Reg.LDG_CFG_EN 1).setF Reg.HNT_SELF_ID_LO 4).setF Reg.HNT_PT_ID_LO 9 3).setF Reg.HNT_PT_STATE_STATE 2 3).setF Reg.HNT_PT_STATE_ROLE 2 3) with ldg := { (((((((((({ State.reset with ldg := { State.reset.ldg with rack := { State.reset.ldg.rack with member := true, epoch := 5, term := 2, leader := some 9, members := [⟨4, 0, 2, 0, 0, 0⟩, ⟨9, 0, 2, 2, 0, 0⟩] } }, hnt := { State.reset.hnt with pt := [(3, { id := 9, shelf := 2 })] } }).setF Reg.HNT_CFG_EN 1).setF Reg.HNT_CFG_AUTH_REQ 0).setF Reg.HNT_STATUS_LINK_A 1).setF Reg.HNT_STATUS_PHASE 2).setF Reg.LDG_CFG_EN 1).setF Reg.HNT_SELF_ID_LO 4).setF Reg.HNT_PT_ID_LO 9 3).setF Reg.HNT_PT_STATE_STATE 2 3).setF Reg.HNT_PT_STATE_ROLE 2 3).ldg with rack := { (((((((((({ State.reset with ldg := { State.reset.ldg with rack := { State.reset.ldg.rack with member := true, epoch := 5, term := 2, leader := some 9, members := [⟨4, 0, 2, 0, 0, 0⟩, ⟨9, 0, 2, 2, 0, 0⟩] } }, hnt := { State.reset.hnt with pt := [(3, { id := 9, shelf := 2 })] } }).setF Reg.HNT_CFG_EN 1).setF Reg.HNT_CFG_AUTH_REQ 0).setF Reg.HNT_STATUS_LINK_A 1).setF Reg.HNT_STATUS_PHASE 2).setF Reg.LDG_CFG_EN 1).setF Reg.HNT_SELF_ID_LO 4).setF Reg.HNT_PT_ID_LO 9 3).setF Reg.HNT_PT_STATE_STATE 2 3).setF Reg.HNT_PT_STATE_ROLE 2 3).ldg.rack with members := [⟨9, 0, 2, 0, 0, 0⟩] } } }).setF Reg.TWN_STATUS_STATE 1)) 9000000000) ∧
    ((fun (s : State) (message : List Byte) (now : Nat) => (s.canonical = true) ∧ (s.twinSt = 1) ∧ (message.length = 64) ∧ (crc32c (message.take 60) = leAt message 60 4)) ((((({ State.reset with twn := { State.reset.twn with peerReady := true } }).setF Reg.TWN_CFG_AUTO_SWITCH 1).setF Reg.TWN_CFG_MISS_LIMIT 3).setF Reg.TWN_STATUS_STATE 1)) (beBytes 64 0x0000000000000000000200000000000000000000000000000000000000000000000000000000000000000000000000000000000000000000000000003D705B28) 5000) ∧
    ((fun (s : State) (message : List Byte) (now : Nat) => (s.twinSt ≠ 1 ∨ message.length ≠ 64 ∨ crc32c (message.take 60) ≠ leAt message 60 4)) ((((State.reset.setF Reg.TWN_CFG_AUTO_SWITCH 1).setF Reg.TWN_CFG_MISS_LIMIT 3).setF Reg.TWN_STATUS_STATE 1)) [] 5000) ∧
    ((fun (s : State) (now : Nat) => (s.twinBusy = false) ∧ (s.twinSt ≠ 4)) ((((State.reset.setF Reg.TWN_CFG_AUTO_SWITCH 1).setF Reg.TWN_CFG_MISS_LIMIT 3).setF Reg.TWN_STATUS_STATE 2)) 5000) ∧
    ((fun (s : State) => (s.twinBusy = false) ∧ (s.twinSt ≠ 1) ∧ (s.twinSt ≠ 2)) ((((State.reset.setF Reg.TWN_CFG_AUTO_SWITCH 1).setF Reg.TWN_CFG_MISS_LIMIT 3).setF Reg.TWN_STATUS_STATE 4))) ∧
    ((fun (s : State) (now : Nat) => (s.canonical = true) ∧ (s.twinBusy = true)) ((((State.reset.setF Reg.TWN_CFG_AUTO_SWITCH 1).setF Reg.TWN_CFG_MISS_LIMIT 3).setF Reg.TWN_STATUS_STATE 5)) 5000) ∧
    ((fun (s : State) (now : Nat) => (s.canonical = true) ∧ (s.twinBusy = false) ∧ (s.twinSt = 4) ∧ (s.forerunner = true)) (((((State.reset.setF Reg.TWN_CFG_AUTO_SWITCH 1).setF Reg.TWN_CFG_MISS_LIMIT 3).setF Reg.TWN_STATUS_STATE 4).setF Reg.TWN_STATUS_FORERUNNER 1)) 5000) ∧
    ((fun (s : State) (now : Nat) => (s.canonical = true) ∧ (s.twinBusy = false) ∧ (s.twinSt = 4) ∧ (s.forerunner = false)) ((((({ State.reset with twn := { State.reset.twn with good := 3 } }).setF Reg.TWN_CFG_AUTO_SWITCH 1).setF Reg.TWN_CFG_MISS_LIMIT 3).setF Reg.TWN_STATUS_STATE 4)) 5000) ∧
    ((fun (s : State) => (s.canonical = true) ∧ (s.twinBusy = true)) ((((State.reset.setF Reg.TWN_CFG_AUTO_SWITCH 1).setF Reg.TWN_CFG_MISS_LIMIT 3).setF Reg.TWN_STATUS_STATE 3))) ∧
    ((fun (s : State) => (s.canonical = true) ∧ (s.twinBusy = false) ∧ (s.twinSt = 1) ∧ (s.isF Reg.TWN_STATUS_READY = true)) (((((State.reset.setF Reg.TWN_CFG_AUTO_SWITCH 1).setF Reg.TWN_CFG_MISS_LIMIT 3).setF Reg.TWN_STATUS_STATE 1).setF Reg.TWN_STATUS_READY 1))) ∧
    ((fun (s : State) => (s.canonical = true) ∧ (s.twinBusy = false) ∧ (s.twinSt ≠ 1 ∨ s.isF Reg.TWN_STATUS_READY = false)) ((((State.reset.setF Reg.TWN_CFG_AUTO_SWITCH 1).setF Reg.TWN_CFG_MISS_LIMIT 3).setF Reg.TWN_STATUS_STATE 2))) ∧
    ((fun (s : State) => (s.canonical = true) ∧ (s.twinBusy = false) ∧ (s.twinSt = 1) ∧ (s.isF Reg.TWN_STATUS_READY = true)) (((((State.reset.setF Reg.TWN_CFG_AUTO_SWITCH 1).setF Reg.TWN_CFG_MISS_LIMIT 3).setF Reg.TWN_STATUS_STATE 1).setF Reg.TWN_STATUS_READY 1))) ∧
    ((fun (s : State) => (s.canonical = true) ∧ (s.twinBusy = false) ∧ (s.twinSt = 2)) (((((({ State.reset with twn := { State.reset.twn with samples := [] } }).setF Reg.TWN_CFG_AUTO_SWITCH 1).setF Reg.TWN_CFG_MISS_LIMIT 3).setF Reg.TWN_STATUS_STATE 2).setF Reg.TWN_STATUS_READY 1))) ∧
    ((fun (s : State) => (s.canonical = true)) (((((State.reset.setF Reg.TWN_CFG_AUTO_SWITCH 1).setF Reg.TWN_CFG_MISS_LIMIT 3).setF Reg.TWN_CONFLICTS 3).setF Reg.TWN_STATUS_RESULT 6))) := by
  repeat refine And.intro (by decide +kernel) ?_
  decide +kernel

theorem test_meets_TheLockAndTheStateCopy :
    ((fun (s : State) (message : List Byte) (now : Nat) => (s.canonical = true) ∧ ((s.twinSt = 2 ∨ s.twinSt = 5)) ∧ (s.isF Reg.TWN_STATUS_LOCK = false) ∧ (s.twn.preLeft = none) ∧ (s.twn.commanded = false) ∧ (recordGood message = false)) ((((({ State.reset with twn := { State.reset.twn with good := 3 } }).setF Reg.TWN_CFG_AUTO_SWITCH 1).setF Reg.TWN_CFG_MISS_LIMIT 3).setF Reg.TWN_STATUS_STATE 2)) [1#8] 5000) ∧
    ((fun (s : State) (message : List Byte) (now : Nat) => (s.canonical = true) ∧ ((s.twinSt = 2 ∨ s.twinSt = 5)) ∧ (s.isF Reg.TWN_STATUS_LOCK = false) ∧ (s.twn.preLeft = none) ∧ (s.twn.commanded = false) ∧ (recordGood message = true) ∧ (s.twn.copy = none) ∧ (bitOf (leAt message 12 2) 0 = true)) ((((({ State.reset with twn := { State.reset.twn with good := 3 } }).setF Reg.TWN_CFG_AUTO_SWITCH 1).setF Reg.TWN_CFG_MISS_LIMIT 3).setF Reg.TWN_STATUS_STATE 2)) (beBytes 48 0x09000000000000003000000001000100030000000400000000000000F154CDD506000100080000000010060005000000) 5000) ∧
    ((fun (s : State) (message : List Byte) (now x : Nat) (e : List Byte) => (s.canonical = true) ∧ ((s.twinSt = 2 ∨ s.twinSt = 5)) ∧ (s.isF Reg.TWN_STATUS_LOCK = false) ∧ (s.twn.preLeft = none) ∧ (s.twn.commanded = false) ∧ (recordGood message = true) ∧ (s.twn.copy = none) ∧ (bitOf (leAt message 12 2) 0 = false) ∧ (entries message 1 56 = [e]) ∧ (leAt e 0 1 = x) ∧ (x < 96) ∧ ((s.tile x).run = true)) (((((({ State.reset with twn := { State.reset.twn with good := 3 } }).setF Reg.TWN_CFG_AUTO_SWITCH 1).setF Reg.TWN_CFG_MISS_LIMIT 3).setF Reg.TWN_STATUS_STATE 2).setTile 5 { State.reset.tile 5 with run := true })) (beBytes 112 0x09000000000000007000000000000200030000000400000000000000C8F580C8010001003800000005020000D20400000000000000000000000000004D000000000000000000000000000000000000000000000000000000000000000000000006000100080000000010060005000000) 5000 5 (beBytes 56 0x05020000D20400000000000000000000000000004D0000000000000000000000000000000000000000000000000000000000000000000000)) ∧
    ((fun (s : State) (now : Nat) => (s.twinSt = 3) ∧ (s.twn.claim = false) ∧ (s.twn.requestAt = none) ∧ (now = s.frameTime s.frame) ∧ (s.twn.takeF < s.frame) ∧ (s.twn.commanded = true ∨ s.twn.preLeft = some 0)) ((((({ State.reset with twn := { State.reset.twn with preLeft := some 0 }, frame := 4 }).setF Reg.TWN_CFG_AUTO_SWITCH 1).setF Reg.TWN_CFG_MISS_LIMIT 3).setF Reg.TWN_STATUS_STATE 3)) 40000) ∧
    ((fun (s : State) (now : Nat) => (s.twinSt ≠ 3 ∨ s.twn.claim = true ∨ s.twn.requestAt.isSome ∨ now ≠ s.frameTime s.frame ∨ s.frame ≤ s.twn.takeF ∨ (s.twn.commanded = false ∧ s.twn.preLeft ≠ some 0))) (((State.reset.setF Reg.TWN_CFG_AUTO_SWITCH 1).setF Reg.TWN_CFG_MISS_LIMIT 3)) 40000) ∧
    ((fun (s : State) (asserted : Bool) (now : Nat) => (s.canonical = true) ∧ (asserted = false)) ((((({ State.reset with twn := { State.reset.twn with twinClaim := true } }).setF Reg.TWN_CFG_AUTO_SWITCH 1).setF Reg.TWN_CFG_MISS_LIMIT 3).setF Reg.TWN_STATUS_TWIN_CLAIM 1)) false 5000) ∧
    ((fun (s : State) (asserted : Bool) (now : Nat) => (s.canonical = true) ∧ (asserted = true) ∧ (s.isF Reg.TWN_STATUS_LOCK = true) ∧ (s.twn.code ≠ 0)) (((((({ State.reset with twn := { State.reset.twn with code := 3, claim := true, holder := true } }).setF Reg.TWN_CFG_AUTO_SWITCH 1).setF Reg.TWN_CFG_MISS_LIMIT 3).setF Reg.TWN_STATUS_STATE 1).setF Reg.TWN_STATUS_LOCK 1)) true 5000) ∧
    ((fun (s : State) (asserted : Bool) (now : Nat) => (s.canonical = true) ∧ (asserted = true) ∧ (s.isF Reg.TWN_STATUS_LOCK = true) ∧ (s.twn.code = 0) ∧ (s.twn.switching = true) ∧ (s.twn.thenQuar = false)) (((((({ State.reset with twn := { State.reset.twn with claim := true, holder := true, switching := true } }).setF Reg.TWN_CFG_AUTO_SWITCH 1).setF Reg.TWN_CFG_MISS_LIMIT 3).setF Reg.TWN_STATUS_STATE 1).setF Reg.TWN_STATUS_LOCK 1)) true 5000) ∧
    ((fun (s : State) (asserted : Bool) (now : Nat) => (s.canonical = true) ∧ (asserted = true) ∧ (s.isF Reg.TWN_STATUS_LOCK = true) ∧ (s.twn.code = 0) ∧ (s.twn.switching = true) ∧ (s.twn.thenQuar = true)) (((((({ State.reset with twn := { State.reset.twn with claim := true, holder := true, switching := true, thenQuar := true } }).setF Reg.TWN_CFG_AUTO_SWITCH 1).setF Reg.TWN_CFG_MISS_LIMIT 3).setF Reg.TWN_STATUS_STATE 1).setF Reg.TWN_STATUS_LOCK 1)) true 5000) ∧
    ((fun (s : State) (asserted : Bool) (now : Nat) => (s.canonical = true) ∧ (asserted = true) ∧ (s.isF Reg.TWN_STATUS_LOCK = false) ∧ (s.twn.claim = true) ∧ (s.twn.holder = false) ∧ (now < s.twn.claimAt + 100) ∧ (s.isF Reg.TWN_STATUS_SLOT = true) ∧ (s.twinSt ≠ 0)) (((((({ State.reset with twn := { State.reset.twn with claim := true, claimAt := 4950 } }).setF Reg.TWN_CFG_AUTO_SWITCH 1).setF Reg.TWN_CFG_MISS_LIMIT 3).setF Reg.TWN_STATUS_STATE 3).setF Reg.TWN_STATUS_SLOT 1)) true 5000) ∧
    ((fun (s : State) (asserted : Bool) (now : Nat) => (s.canonical = true) ∧ (asserted = true) ∧ (s.isF Reg.TWN_STATUS_LOCK = false) ∧ (s.twn.claim = true) ∧ (s.twn.holder = false) ∧ (now < s.twn.claimAt + 100) ∧ (s.isF Reg.TWN_STATUS_SLOT = true) ∧ (s.twinSt = 0) ∧ (s.forerunner = false)) ((((({ State.reset with twn := { State.reset.twn with claim := true, claimAt := 4950 } }).setF Reg.TWN_CFG_AUTO_SWITCH 1).setF Reg.TWN_CFG_MISS_LIMIT 3).setF Reg.TWN_STATUS_SLOT 1)) true 5000) ∧
    ((fun (s : State) (asserted : Bool) (now : Nat) => (s.canonical = true) ∧ (asserted = true) ∧ (s.isF Reg.TWN_STATUS_LOCK = false) ∧ (s.twn.claim = false) ∧ (s.twn.waitFrom.isSome = true) ∧ (s.forerunner = false)) (((({ State.reset with twn := { State.reset.twn with waitFrom := some 5 } }).setF Reg.TWN_CFG_AUTO_SWITCH 1).setF Reg.TWN_CFG_MISS_LIMIT 3)) true 5000) ∧
    ((fun (s : State) (now failAt : Nat) => (s.canonical = true) ∧ (s.isF Reg.TWN_STATUS_LOCK = false) ∧ (s.twn.claim = true) ∧ (s.twn.twinClaim = false) ∧ (max s.twn.claimAt s.twn.releasedAt + 100 ≤ now) ∧ (s.twinSt ≠ 3)) ((((({ State.reset with twn := { State.reset.twn with claim := true } }).setF Reg.TWN_CFG_AUTO_SWITCH 1).setF Reg.TWN_CFG_MISS_LIMIT 3).setF Reg.TWN_SWITCHES_TAKEN 3)) 5000 0) ∧
    ((fun (s : State) (now failAt : Nat) => (s.canonical = true) ∧ (s.isF Reg.TWN_STATUS_LOCK = false) ∧ (s.twn.claim = true) ∧ (s.twn.twinClaim = false) ∧ (max s.twn.claimAt s.twn.releasedAt + 100 ≤ now) ∧ (s.twinSt = 3) ∧ (s.getF Reg.TWN_LAST_CAUSE ≠ 2)) (((((({ State.reset with twn := { State.reset.twn with claim := true, requestAt := some 3 } }).setF Reg.TWN_CFG_AUTO_SWITCH 1).setF Reg.TWN_CFG_MISS_LIMIT 3).setF Reg.TWN_STATUS_STATE 3).setF Reg.TWN_LAST_CAUSE 1)) 5000 0) ∧
    ((fun (s : State) (now : Nat) => (s.canonical = true) ∧ (s.twn.claim = true) ∧ (s.twn.keeperAt + 300000 < now) ∧ (s.isF Reg.TWN_STATUS_LOCK = true)) (((((({ State.reset with twn := { State.reset.twn with claim := true, holder := true, keeperAt := 5 } }).setF Reg.TWN_CFG_AUTO_SWITCH 1).setF Reg.TWN_CFG_MISS_LIMIT 3).setF Reg.TWN_STATUS_STATE 1).setF Reg.TWN_STATUS_LOCK 1)) 400000) ∧
    ((fun (s : State) (now : Nat) => (s.twn.claim = true) ∧ (s.twn.keeperAt + 300000 < now) ∧ (s.isF Reg.TWN_STATUS_LOCK = false) ∧ (s.twn.holder = false)) ((((({ State.reset with twn := { State.reset.twn with claim := true, keeperAt := 5 } }).setF Reg.TWN_CFG_AUTO_SWITCH 1).setF Reg.TWN_CFG_MISS_LIMIT 3).setF Reg.TWN_STATUS_STATE 3)) 400000) ∧
    ((fun (s : State) (now r : Nat) => (s.canonical = true) ∧ (s.twn.requestAt = some r) ∧ (s.twinSt = 3) ∧ (s.isF Reg.TWN_STATUS_LOCK = false) ∧ (r + 1000000 < now) ∧ (s.twn.claim = true) ∧ (s.twn.holder = false)) ((((({ State.reset with twn := { State.reset.twn with claim := true, requestAt := some 5 } }).setF Reg.TWN_CFG_AUTO_SWITCH 1).setF Reg.TWN_CFG_MISS_LIMIT 3).setF Reg.TWN_STATUS_STATE 3)) 2000000 5) ∧
    ((fun (s : State) (now w : Nat) => (s.twn.waitFrom = some w) ∧ (s.twinSt = 0) ∧ (s.twn.twinClaim = false) ∧ (max w s.twn.releasedAt + s.getF Reg.TWN_TIMES_LOCK_WAIT * 1000000 < now) ∧ (s.twn.claim = false)) (((({ State.reset with twn := { State.reset.twn with waitFrom := some 5 } }).setF Reg.TWN_CFG_AUTO_SWITCH 1).setF Reg.TWN_CFG_MISS_LIMIT 3)) 900000000000 5) ∧
    ((fun (s : State) (now failAt : Nat) => (s.isF Reg.TWN_STATUS_LOCK = true ∨ s.twn.claim = false ∨ s.twn.twinClaim = true ∨ now < max s.twn.claimAt s.twn.releasedAt + 100)) (((State.reset.setF Reg.TWN_CFG_AUTO_SWITCH 1).setF Reg.TWN_CFG_MISS_LIMIT 3)) 5 5) ∧
    ((fun (s : State) (now : Nat) => (s.twn.claim = false ∨ now ≤ s.twn.keeperAt + 300000)) (((State.reset.setF Reg.TWN_CFG_AUTO_SWITCH 1).setF Reg.TWN_CFG_MISS_LIMIT 3)) 5) ∧
    ((fun (s : State) (now : Nat) => (s.twn.requestAt = none ∨ s.twinSt ≠ 3 ∨ s.isF Reg.TWN_STATUS_LOCK = true)) (((State.reset.setF Reg.TWN_CFG_AUTO_SWITCH 1).setF Reg.TWN_CFG_MISS_LIMIT 3)) 5) ∧
    ((fun (s : State) (now r : Nat) => (s.twn.requestAt = some r) ∧ (now ≤ r + 1000000)) ((((({ State.reset with twn := { State.reset.twn with requestAt := some 5 } }).setF Reg.TWN_CFG_AUTO_SWITCH 1).setF Reg.TWN_CFG_MISS_LIMIT 3).setF Reg.TWN_STATUS_STATE 3)) 5 5) ∧
    ((fun (s : State) (now : Nat) => (s.twn.waitFrom = none ∨ s.twinSt ≠ 0 ∨ s.twn.twinClaim = true)) (((State.reset.setF Reg.TWN_CFG_AUTO_SWITCH 1).setF Reg.TWN_CFG_MISS_LIMIT 3)) 5) ∧
    ((fun (s : State) (now w : Nat) => (s.twn.waitFrom = some w) ∧ (now ≤ max w s.twn.releasedAt + s.getF Reg.TWN_TIMES_LOCK_WAIT * 1000000)) (((({ State.reset with twn := { State.reset.twn with waitFrom := some 5 } }).setF Reg.TWN_CFG_AUTO_SWITCH 1).setF Reg.TWN_CFG_MISS_LIMIT 3)) 5 5) ∧
    ((fun (s : State) (a : Option (Nat × Nat × Nat)) (now : Nat) => (s.twinSt ≠ 0 ∨ s.cfg.running = false ∨ s.twn.exchanged = true ∨ (a = none ∧ (s.pwr.imageAt.any fun t => decide (t + 20000000 ≤ now)) = false))) (((State.reset.setF Reg.TWN_CFG_AUTO_SWITCH 1).setF Reg.TWN_CFG_MISS_LIMIT 3)) none 5) ∧
    ((fun (s : State) (a : Option (Nat × Nat × Nat)) (now : Nat) (x h d : Nat) => (s.canonical = true) ∧ (s.twinSt = 0) ∧ (s.cfg.running = true) ∧ (s.twn.exchanged = false) ∧ (a = some (x, h, d)) ∧ (x = s.getF Reg.TWN_STATUS_SLOT ∨ h ≠ s.shelf)) (((({ State.reset with twn := { State.reset.twn with claimAt := 0 }, pwr := { State.reset.pwr with imageAt := some 0 }, cfg := { State.reset.cfg with running := true } }).setF Reg.TWN_CFG_AUTO_SWITCH 1).setF Reg.TWN_CFG_MISS_LIMIT 3)) (some (0, 0, 77)) 5000 0 0 77) ∧
    ((fun (s : State) (a : Option (Nat × Nat × Nat)) (now : Nat) => (s.twinSt = 0) ∧ (s.cfg.running = true) ∧ (s.twn.exchanged = false) ∧ (a = none) ∧ ((s.pwr.imageAt.any fun t => decide (t + 20000000 ≤ now)) = true) ∧ (s.twn.twinClaim = false) ∧ (s.getF Reg.TWN_STATUS_SLOT = 0) ∧ (s.twn.claim = false)) (((({ State.reset with twn := { State.reset.twn with claimAt := 0 }, pwr := { State.reset.pwr with imageAt := some 0 }, cfg := { State.reset.cfg with running := true } }).setF Reg.TWN_CFG_AUTO_SWITCH 1).setF Reg.TWN_CFG_MISS_LIMIT 3)) none 50000000) ∧
    ((fun (s : State) (a : Option (Nat × Nat × Nat)) (now : Nat) => (s.twinSt = 0) ∧ (s.cfg.running = true) ∧ (s.twn.exchanged = false) ∧ (a = none) ∧ ((s.pwr.imageAt.any fun t => decide (t + 20000000 ≤ now)) = true) ∧ (s.twn.twinClaim = false) ∧ (s.getF Reg.TWN_STATUS_SLOT ≠ 0)) ((((({ State.reset with twn := { State.reset.twn with claimAt := 0 }, pwr := { State.reset.pwr with imageAt := some 0 }, cfg := { State.reset.cfg with running := true } }).setF Reg.TWN_CFG_AUTO_SWITCH 1).setF Reg.TWN_CFG_MISS_LIMIT 3).setF Reg.TWN_STATUS_SLOT 1)) none 50000000) := by
  repeat refine And.intro (by decide +kernel) ?_
  decide +kernel

theorem test_meets_TheLogRecordsFreezesAndDumps :
    ((fun (s : State) (count now : Nat) (e : LogEvent) (r : List LogEvent) => (s.canonical = true) ∧ (s.runs 39 = true) ∧ (count = 1) ∧ (s.events = e :: r) ∧ (s.passes e.code = false)) ((((({ State.reset with log := { State.reset.log with next := 5 }, events := [⟨0x0101, 3, [1]⟩] }).setRunsAll [39] true).setF Reg.LOG_STATUS_READY 1).setF Reg.LOG_LEVEL_MIN 3 1)) 1 5000 ⟨0x0101, 3, [1]⟩ []) ∧
    ((fun (s : State) (count now : Nat) (e : LogEvent) (r : List LogEvent) => (s.canonical = true) ∧ (s.runs 39 = true) ∧ (count = 1) ∧ (s.events = e :: r) ∧ (s.passes e.code = true) ∧ (3 ≤ severity e.code ∨ s.repeatNs = 0) ∧ (s.logRoom e = true)) (((({ State.reset with log := { State.reset.log with next := 5 }, events := [⟨0x0102, 3, [1, 2]⟩] }).setRunsAll [39] true).setF Reg.LOG_STATUS_READY 1)) 1 5000 ⟨0x0102, 3, [1, 2]⟩ []) ∧
    ((fun (s : State) (count now : Nat) (e : LogEvent) (r : List LogEvent) (w : RepeatWin) => (s.canonical = true) ∧ (s.runs 39 = true) ∧ (count = 1) ∧ (s.events = e :: r) ∧ (s.passes e.code = true) ∧ (severity e.code < 3) ∧ (ownCode e.code = false) ∧ (s.repeatNs ≠ 0) ∧ ((s.log.windows.find? fun (x : RepeatWin) => decide (x.code = e.code) && decide (x.source = e.source)) = some w) ∧ (now ≤ w.since + s.repeatNs)) ((((({ State.reset with log := { State.reset.log with windows := [⟨0x0101, 3, 4000, 2⟩] }, events := [⟨0x0101, 3, [1]⟩] }).setRunsAll [39] true).setF Reg.LOG_STATUS_READY 1).setF Reg.LOG_CFG_REPEAT_MS 10)) 1 5000 ⟨0x0101, 3, [1]⟩ [] ⟨0x0101, 3, 4000, 2⟩) ∧
    ((fun (s : State) (code source now : Nat) (w : RepeatWin) => (s.canonical = true) ∧ ((s.log.windows.find? fun (x : RepeatWin) => decide (x.code = code) && decide (x.source = source)) = some w) ∧ (w.since + s.repeatNs < now) ∧ (w.count ≠ 0) ∧ (s.logRoom (LogEvent.mk 0x0003 w.source [w.code, w.count]) = true)) ((((({ State.reset with log := { State.reset.log with windows := [⟨0x0101, 3, 4000, 2⟩] } }).setRunsAll [39] true).setF Reg.LOG_STATUS_READY 1).setF Reg.LOG_CFG_REPEAT_MS 10)) 0x0101 3 50000000 ⟨0x0101, 3, 4000, 2⟩) ∧
    ((fun (s : State) (now : Nat) (r : List Byte) (q : List (List Byte)) => (s.canonical = true) ∧ (s.log.page = [recSeq r]) ∧ (s.log.queue = r :: q) ∧ (s.log.spill = []) ∧ (q.all (fun x => decide (recSeq x ≠ recSeq r)) = true) ∧ (s.isF Reg.PWR_STATUS_HOLDUP = false)) (((({ State.reset with log := { State.reset.log with page := [5], queue := [(beBytes 64 0x00000000000000000500000000000000000001010200000000000000000000000000000000000000000000000000000000000000000000000000000016F15490), (beBytes 64 0x000000000000000006000000000000000000010102000000000000000000000000000000000000000000000000000000000000000000000000000000199A0B79)], slot := 8191 } }).setRunsAll [39] true).setF Reg.LOG_STATUS_READY 1)) 5000 (beBytes 64 0x00000000000000000500000000000000000001010200000000000000000000000000000000000000000000000000000000000000000000000000000016F15490) [(beBytes 64 0x000000000000000006000000000000000000010102000000000000000000000000000000000000000000000000000000000000000000000000000000199A0B79)]) ∧
    ((fun (s : State) (now : Nat) (rs q : List (List Byte)) => (s.canonical = true) ∧ (s.log.page = rs.map recSeq) ∧ (rs ≠ []) ∧ (s.log.queue = rs ++ q) ∧ (s.log.spill = []) ∧ (q.all (fun x => decide (recSeq x ∉ s.log.page)) = true) ∧ (s.isF Reg.PWR_STATUS_HOLDUP = false)) (((({ State.reset with log := { State.reset.log with page := [5, 6], queue := [(beBytes 64 0x00000000000000000500000000000000000001010200000000000000000000000000000000000000000000000000000000000000000000000000000016F15490), (beBytes 64 0x000000000000000006000000000000000000010102000000000000000000000000000000000000000000000000000000000000000000000000000000199A0B79)], slot := 8191 } }).setRunsAll [39] true).setF Reg.LOG_STATUS_READY 1)) 5000 [(beBytes 64 0x00000000000000000500000000000000000001010200000000000000000000000000000000000000000000000000000000000000000000000000000016F15490), (beBytes 64 0x000000000000000006000000000000000000010102000000000000000000000000000000000000000000000000000000000000000000000000000000199A0B79)] []) ∧
    ((fun (s : State) (now b : Nat) => (s.canonical = true) ∧ (s.log.erasing = some b) ∧ (s.isF Reg.PWR_STATUS_HOLDUP = false)) (((({ State.reset with log := { State.reset.log with erasing := some 1, torn := [1], flash := [(9216, (beBytes 64 0x00000000000000000500000000000000000001010200000000000000000000000000000000000000000000000000000000000000000000000000000016F15490))] } }).setRunsAll [39] true).setF Reg.LOG_STATUS_READY 1)) 5000 1) ∧
    ((fun (s : State) (now b : Nat) => (s.canonical = true) ∧ (s.log.erasing = some b) ∧ (s.isF Reg.PWR_STATUS_HOLDUP = false) ∧ (s.log.freezing = true) ∧ (s.log.frozenAt = none) ∧ (s.log.page = []) ∧ (s.spillSound = true)) (((({ State.reset with log := { State.reset.log with erasing := some 1, freezing := true } }).setRunsAll [39] true).setF Reg.LOG_STATUS_READY 1)) 5000 1) ∧
    ((fun (s : State) (now : Nat) => (s.canonical = true) ∧ (s.log.freezing = false) ∧ (s.log.frozenAt = none) ∧ (s.log.page = []) ∧ (s.log.erasing = none)) (((({ State.reset with log := { State.reset.log with next := 5 } }).setRunsAll [39] true).setF Reg.LOG_STATUS_READY 1)) 5000) ∧
    ((fun (s : State) (now : Nat) => (s.canonical = true) ∧ (s.log.freezing = false) ∧ (s.log.page ≠ [] ∨ s.log.erasing.isSome = true)) (((({ State.reset with log := { State.reset.log with page := [5] } }).setRunsAll [39] true).setF Reg.LOG_STATUS_READY 1)) 5000) ∧
    ((fun (s : State) (now : Nat) => (s.canonical = true) ∧ (s.log.freezing = true) ∧ (s.logRoom (LogEvent.mk 0x0004 0xFFFF [s.log.dropped]) = true)) ((((({ State.reset with log := { State.reset.log with freezing := true, dropped := 3, frozenAt := some 7 } }).setRunsAll [39] true).setF Reg.LOG_STATUS_READY 1).setF Reg.LOG_STATUS_FROZEN 1)) 5000) ∧
    ((fun (s : State) (now : Nat) => (s.canonical = true) ∧ (s.log.freezing = false)) (((({ State.reset with log := { State.reset.log with next := 5 } }).setRunsAll [39] true).setF Reg.LOG_STATUS_READY 1)) 5000) ∧
    ((fun (s : State) (now z : Nat) => (s.canonical = true) ∧ (s.log.frozenAt = some z) ∧ (z + min 60 (max 1 (s.getF Reg.LOG_CFG_FREEZE_MAX)) * 1000000000 < now) ∧ (s.log.freezing = true) ∧ (s.logRoom (LogEvent.mk 0x0004 0xFFFF [s.log.dropped]) = true)) ((((({ State.reset with log := { State.reset.log with freezing := true, dropped := 3, frozenAt := some 7 } }).setRunsAll [39] true).setF Reg.LOG_STATUS_READY 1).setF Reg.LOG_STATUS_FROZEN 1)) 70000000000 7) ∧
    ((fun (s : State) => (s.canonical = true) ∧ (s.isF Reg.LOG_STATUS_FROZEN = false ∨ s.isF Reg.LOG_STATUS_DUMPING = true)) (((({ State.reset with log := { State.reset.log with next := 5 } }).setRunsAll [39] true).setF Reg.LOG_STATUS_READY 1))) ∧
    ((fun (s : State) => (s.canonical = true) ∧ (s.isF Reg.LOG_STATUS_FROZEN = true) ∧ (s.isF Reg.LOG_STATUS_DUMPING = false) ∧ (s.get64 Reg.LOG_DUMP_ADDR_LO % 64 ≠ 0 ∨ dumpRange (s.get64 Reg.LOG_DUMP_ADDR_LO) (64 * s.getF Reg.LOG_DUMP_COUNT) = false)) ((((({ State.reset with log := { State.reset.log with next := 5 } }).setRunsAll [39] true).setF Reg.LOG_STATUS_READY 1).setF Reg.LOG_STATUS_FROZEN 1))) ∧
    ((fun (s : State) => (s.canonical = true) ∧ (s.isF Reg.LOG_STATUS_FROZEN = true) ∧ (s.isF Reg.LOG_STATUS_DUMPING = false) ∧ (s.get64 Reg.LOG_DUMP_ADDR_LO % 64 = 0) ∧ (dumpRange (s.get64 Reg.LOG_DUMP_ADDR_LO) (64 * s.getF Reg.LOG_DUMP_COUNT) = true)) (((((((({ State.reset with log := { State.reset.log with next := 5 } }).setRunsAll [39] true).setF Reg.LOG_STATUS_READY 1).setF Reg.LOG_STATUS_FROZEN 1).setF Reg.LOG_DUMP_ADDR_LO 2147483648).setF Reg.LOG_DUMP_ADDR_HI 16).setF Reg.LOG_DUMP_COUNT 2))) ∧
    ((fun (s : State) => (s.canonical = true) ∧ (s.isF Reg.LOG_STATUS_DUMPING = true)) ((((({ State.reset with log := { State.reset.log with dump := (0x1080000000, 5, 2), flash := [(3, (beBytes 64 0x000000000000000006000000000000000000010102000000000000000000000000000000000000000000000000000000000000000000000000000000199A0B79)), (9216, (beBytes 64 0x00000000000000000500000000000000000001010200000000000000000000000000000000000000000000000000000000000000000000000000000016F15490))] } }).setRunsAll [39] true).setF Reg.LOG_STATUS_READY 1).setF Reg.LOG_STATUS_DUMPING 1))) ∧
    ((fun (s : State) (count now : Nat) => (s.runs 39 = false)) ((State.reset.setRuns 39 false)) 1 5) ∧
    ((fun (s : State) (now : Nat) => (s.log.page = [])) (State.reset) 5) ∧
    ((fun (s : State) (now : Nat) => (s.log.erasing = none ∨ s.isF Reg.PWR_STATUS_HOLDUP = true)) (State.reset) 5) ∧
    ((fun (s : State) (code source now : Nat) => ((s.log.windows.find? fun (x : RepeatWin) => decide (x.code = code) && decide (x.source = source)) = none)) (State.reset) 1 2 5) ∧
    ((fun (s : State) (code source now : Nat) (w : RepeatWin) => ((s.log.windows.find? fun (x : RepeatWin) => decide (x.code = code) && decide (x.source = source)) = some w) ∧ (now ≤ w.since + s.repeatNs)) ((((({ State.reset with log := { State.reset.log with windows := [⟨0x0101, 3, 4000, 2⟩] } }).setRunsAll [39] true).setF Reg.LOG_STATUS_READY 1).setF Reg.LOG_CFG_REPEAT_MS 10)) 0x0101 3 5 ⟨0x0101, 3, 4000, 2⟩) ∧
    ((fun (s : State) (now : Nat) => (s.log.frozenAt = none)) (State.reset) 5) ∧
    ((fun (s : State) (now z : Nat) => (s.log.frozenAt = some z) ∧ (now ≤ z + min 60 (max 1 (s.getF Reg.LOG_CFG_FREEZE_MAX)) * 1000000000)) (((({ State.reset with log := { State.reset.log with freezing := true, frozenAt := some 7 } }).setRunsAll [39] true).setF Reg.LOG_STATUS_READY 1)) 9 7) ∧
    ((fun (s : State) => (s.isF Reg.LOG_STATUS_DUMPING = false)) (State.reset)) ∧
    ((fun (s : State) => (s.canonical = true)) ((((({ State.reset with log := { State.reset.log with next := 5 } }).setRunsAll [39] true).setF Reg.LOG_STATUS_READY 1).setF Reg.LOG_DROP 4))) ∧
    ((fun (s : State) (path seq : Nat) (r : List Byte) => (s.spillSound = true) ∧ (((s.log.spill.map Prod.snd ++ s.log.queue).find? fun (r : List Byte) => s.isF Reg.LOG_STATUS_READY && decide (recSeq r = seq)) = some r)) (((({ State.reset with log := { State.reset.log with queue := [(beBytes 64 0x00000000000000000500000000000000000001010200000000000000000000000000000000000000000000000000000000000000000000000000000016F15490)] } }).setRunsAll [39] true).setF Reg.LOG_STATUS_READY 1)) 2 5 (beBytes 64 0x00000000000000000500000000000000000001010200000000000000000000000000000000000000000000000000000000000000000000000000000016F15490)) ∧
    ((fun (s : State) (path seq w : Nat) (r : List Byte) => (s.spillSound = true) ∧ (((s.log.spill.map Prod.snd ++ s.log.queue).find? fun (r : List Byte) => s.isF Reg.LOG_STATUS_READY && decide (recSeq r = seq)) = none) ∧ ((s.log.flash.find? fun (e : Nat × List Byte) => recGood e.2 && decide (recSeq e.2 = seq)) = some (w, r))) (((({ State.reset with log := { State.reset.log with flash := [(9216, (beBytes 64 0x00000000000000000500000000000000000001010200000000000000000000000000000000000000000000000000000000000000000000000000000016F15490))] } }).setRunsAll [39] true).setF Reg.LOG_STATUS_READY 1)) 2 5 9216 (beBytes 64 0x00000000000000000500000000000000000001010200000000000000000000000000000000000000000000000000000000000000000000000000000016F15490)) ∧
    ((fun (s : State) (path seq w : Nat) (r : List Byte) => (s.canonical = true) ∧ (s.spillSound = true) ∧ (((s.log.spill.map Prod.snd ++ s.log.queue).find? fun (r : List Byte) => s.isF Reg.LOG_STATUS_READY && decide (recSeq r = seq)) = none) ∧ ((s.log.flash.find? fun (e : Nat × List Byte) => recGood e.2 && decide (recSeq e.2 = seq)) = none) ∧ ((s.failHeld.find? fun (x : List Byte) => decide (recSeq x = seq)) = none) ∧ ((s.log.flash.find? fun (e : Nat × List Byte) => decide (recSeq e.2 = seq)) = some (w, r))) (((({ State.reset with log := { State.reset.log with flash := [(9216, (beBytes 64 0x00000000000000000500000000000000000001010200000000000000000000000000000000000000000000000000000000000000000000000000000016F15400))] } }).setRunsAll [39] true).setF Reg.LOG_STATUS_READY 1)) 2 5 9216 (beBytes 64 0x00000000000000000500000000000000000001010200000000000000000000000000000000000000000000000000000000000000000000000000000016F15400)) ∧
    ((fun (s : State) (path seq : Nat) (r : List Byte) => (s.spillSound = true) ∧ (((s.log.spill.map Prod.snd ++ s.log.queue).find? fun (r : List Byte) => s.isF Reg.LOG_STATUS_READY && decide (recSeq r = seq)) = none) ∧ ((s.log.flash.find? fun (e : Nat × List Byte) => recGood e.2 && decide (recSeq e.2 = seq)) = none) ∧ ((s.failHeld.find? fun (x : List Byte) => decide (recSeq x = seq)) = some r)) (((({ State.reset with log := { State.reset.log with failBlock := [(beBytes 64 0x00000000000000000500000000000000000001010200000000000000000000000000000000000000000000000000000000000000000000000000000016F15490)] } }).setRunsAll [39] true).setF Reg.LOG_STATUS_READY 1)) 2 5 (beBytes 64 0x00000000000000000500000000000000000001010200000000000000000000000000000000000000000000000000000000000000000000000000000016F15490)) ∧
    ((fun (s : State) (path seq : Nat) => (s.spillSound = true) ∧ (((s.log.spill.map Prod.snd ++ s.log.queue).find? fun (r : List Byte) => s.isF Reg.LOG_STATUS_READY && decide (recSeq r = seq)) = none) ∧ ((s.failHeld.find? fun (x : List Byte) => decide (recSeq x = seq)) = none) ∧ ((s.log.flash.find? fun (e : Nat × List Byte) => decide (recSeq e.2 = seq)) = none)) (((({ State.reset with log := { State.reset.log with next := 5 } }).setRunsAll [39] true).setF Reg.LOG_STATUS_READY 1)) 2 5) := by
  repeat refine And.intro (by decide +kernel) ?_
  decide +kernel

theorem test_meets_LifeCycleKeysAndRecovery :
    ((fun (s : State) (now : Nat) => (s.canonical = true) ∧ (s.isF Reg.LCS_STATUS_PENDING = true)) ((State.reset.setF Reg.LCS_STATUS_PENDING 1)) 5000) ∧
    ((fun (s : State) (now : Nat) => (s.canonical = true) ∧ (s.isF Reg.LCS_STATUS_PENDING = true)) ((State.reset.setF Reg.LCS_STATUS_PENDING 1)) 5000) ∧
    ((fun (s : State) => (s.canonical = true) ∧ (s.isF Reg.LCS_STATUS_PENDING = true)) ((State.reset.setF Reg.LCS_STATUS_PENDING 1))) ∧
    ((fun (s : State) (now : Nat) => (s.canonical = true) ∧ (s.isF Reg.LCS_STATUS_PENDING = true)) ((State.reset.setF Reg.LCS_STATUS_PENDING 1)) 5000) ∧
    ((fun (s : State) (now : Nat) => (s.canonical = true) ∧ (s.isF Reg.LCS_STATUS_PENDING = true)) ((State.reset.setF Reg.LCS_STATUS_PENDING 1)) 5000) ∧
    ((fun (s : State) => (s.canonical = true) ∧ (s.isF Reg.LCS_STATUS_PENDING = true)) ((State.reset.setF Reg.LCS_STATUS_PENDING 1))) ∧
    ((fun (s : State) => (s.canonical = true) ∧ (s.isF Reg.LCS_STATUS_PENDING = true)) ((State.reset.setF Reg.LCS_STATUS_PENDING 1))) ∧
    ((fun (s : State) => (s.canonical = true) ∧ (s.isF Reg.LCS_STATUS_PENDING = true)) ((State.reset.setF Reg.LCS_STATUS_PENDING 1))) ∧
    ((fun (s : State) => (s.canonical = true) ∧ (s.isF Reg.LCS_STATUS_PENDING = true)) ((State.reset.setF Reg.LCS_STATUS_PENDING 1))) ∧
    ((fun (s : State) (now : Nat) => (s.canonical = true) ∧ (s.isF Reg.LCS_STATUS_PENDING = false) ∧ (s.sec.nonce = none)) (State.reset) 5000) ∧
    ((fun (s : State) (now d : Nat) (n : List Byte) => (s.canonical = true) ∧ (s.sec.nonce = some (n, d)) ∧ (d + 60000000000 < now)) ((((({ State.reset with sec := { State.reset.sec with nonce := some (List.replicate 16 0#8, 100) } }).setF Reg.LCS_SRC_ADDR_LO 2147483648).setF Reg.LCS_SRC_ADDR_HI 16).setF Reg.LCS_SRC_LEN 256)) 70000000000 100 (List.replicate 16 0#8)) ∧
    ((fun (s : State) (now : Nat) => (s.canonical = true) ∧ (s.isF Reg.LCS_STATUS_PENDING = false) ∧ (s.inService = true)) ((State.reset.setF Reg.TWN_STATUS_LOCK 1)) 5000) ∧
    ((fun (s : State) (now : Nat) => (s.canonical = true) ∧ (s.isF Reg.LCS_STATUS_PENDING = false) ∧ (s.inService = false) ∧ (s.lcRecord = none ∨ (s.lcRecord.map fun (r : AuthRec) => decide (r.op = 1)) = some false)) (((((State.reset.setF Reg.LCS_SRC_ADDR_LO 2147483648).setF Reg.LCS_SRC_ADDR_HI 16).setF Reg.LCS_SRC_LEN 256).setF Reg.TWN_STATUS_STATE 4)) 5000) ∧
    ((fun (s : State) (now : Nat) (r : AuthRec) => (s.canonical = true) ∧ (s.isF Reg.LCS_STATUS_PENDING = false) ∧ (s.inService = false) ∧ (s.lcRecord = some r) ∧ (r.op = 1) ∧ (changeSigners s.lcState r.target s.sec.lcCount = none)) (((((({ State.reset with mem := [(0x1080000000, 65#8), (0x1080000001, 70#8), (0x1080000002, 76#8), (0x1080000003, 67#8), (0x1080000004, 1#8), (0x1080000006, 1#8), (0x1080000007, 2#8), (0x1080000029, 255#8)] }).setF Reg.LCS_SRC_ADDR_LO 2147483648).setF Reg.LCS_SRC_ADDR_HI 16).setF Reg.LCS_SRC_LEN 256).setF Reg.TWN_STATUS_STATE 4)) 5000 (((((({ State.reset with mem := [(0x1080000000, 65#8), (0x1080000001, 70#8), (0x1080000002, 76#8), (0x1080000003, 67#8), (0x1080000004, 1#8), (0x1080000006, 1#8), (0x1080000007, 2#8), (0x1080000029, 255#8)] }).setF Reg.LCS_SRC_ADDR_LO 2147483648).setF Reg.LCS_SRC_ADDR_HI 16).setF Reg.LCS_SRC_LEN 256).setF Reg.TWN_STATUS_STATE 4).lcRecord.getD ⟨0, 0, [], 0, 0, 0, [], [], [], []⟩)) ∧
    ((fun (s : State) (now : Nat) (r : AuthRec) (gs : List Signer) => (s.canonical = true) ∧ (s.isF Reg.LCS_STATUS_PENDING = false) ∧ (s.inService = false) ∧ (s.lcRecord = some r) ∧ (r.op = 1) ∧ (changeSigners s.lcState r.target s.sec.lcCount = some gs) ∧ (s.nonceOk r.nonce now = false)) (((((({ State.reset with mem := [(0x1080000000, 65#8), (0x1080000001, 70#8), (0x1080000002, 76#8), (0x1080000003, 67#8), (0x1080000004, 1#8), (0x1080000006, 1#8), (0x1080000007, 1#8), (0x1080000029, 255#8)] }).setF Reg.LCS_SRC_ADDR_LO 2147483648).setF Reg.LCS_SRC_ADDR_HI 16).setF Reg.LCS_SRC_LEN 256).setF Reg.TWN_STATUS_STATE 4)) 5000 (((((({ State.reset with mem := [(0x1080000000, 65#8), (0x1080000001, 70#8), (0x1080000002, 76#8), (0x1080000003, 67#8), (0x1080000004, 1#8), (0x1080000006, 1#8), (0x1080000007, 1#8), (0x1080000029, 255#8)], sec := { State.reset.sec with nonce := some (List.replicate 16 0#8, 100) } }).setF Reg.LCS_SRC_ADDR_LO 2147483648).setF Reg.LCS_SRC_ADDR_HI 16).setF Reg.LCS_SRC_LEN 256).setF Reg.TWN_STATUS_STATE 4).lcRecord.getD ⟨0, 0, [], 0, 0, 0, [], [], [], []⟩) [Signer.slot 0]) ∧
    ((fun (s : State) (now : Nat) (r : AuthRec) (gs : List Signer) => (s.canonical = true) ∧ (s.isF Reg.LCS_STATUS_PENDING = false) ∧ (s.inService = false) ∧ (s.lcRecord = some r) ∧ (r.op = 1) ∧ (changeSigners s.lcState r.target s.sec.lcCount = some gs) ∧ (s.nonceOk r.nonce now = true)) (((((({ State.reset with mem := [(0x1080000000, 65#8), (0x1080000001, 70#8), (0x1080000002, 76#8), (0x1080000003, 67#8), (0x1080000004, 1#8), (0x1080000006, 1#8), (0x1080000007, 1#8), (0x1080000029, 255#8)], sec := { State.reset.sec with nonce := some (List.replicate 16 0#8, 100) } }).setF Reg.LCS_SRC_ADDR_LO 2147483648).setF Reg.LCS_SRC_ADDR_HI 16).setF Reg.LCS_SRC_LEN 256).setF Reg.TWN_STATUS_STATE 4)) 5000 (((((({ State.reset with mem := [(0x1080000000, 65#8), (0x1080000001, 70#8), (0x1080000002, 76#8), (0x1080000003, 67#8), (0x1080000004, 1#8), (0x1080000006, 1#8), (0x1080000007, 1#8), (0x1080000029, 255#8)], sec := { State.reset.sec with nonce := some (List.replicate 16 0#8, 100) } }).setF Reg.LCS_SRC_ADDR_LO 2147483648).setF Reg.LCS_SRC_ADDR_HI 16).setF Reg.LCS_SRC_LEN 256).setF Reg.TWN_STATUS_STATE 4).lcRecord.getD ⟨0, 0, [], 0, 0, 0, [], [], [], []⟩) [Signer.slot 0]) ∧
    ((fun (s : State) (now x : Nat) (fw : List Byte) => (s.canonical = true) ∧ (s.sec.change = some (x, fw)) ∧ (s.getF Reg.LCS_STATUS_STEP = 1)) (((((((({ State.reset with sec := { State.reset.sec with lcCount := 3, change := some (3, [7#8]) } }).setF Reg.LCS_SRC_ADDR_LO 2147483648).setF Reg.LCS_SRC_ADDR_HI 16).setF Reg.LCS_SRC_LEN 256).setF Reg.LCS_STATUS_STATE 2).setF Reg.LCS_STATUS_PENDING 1).setF Reg.LCS_STATUS_STEP 1)) 5000 3 [7#8]) ∧
    ((fun (s : State) (now x : Nat) (fw : List Byte) => (s.canonical = true) ∧ (s.sec.change = some (x, fw)) ∧ (s.getF Reg.LCS_STATUS_STEP = 2)) (((((((({ State.reset with sec := { State.reset.sec with lcCount := 3, change := some (3, [7#8]) } }).setF Reg.LCS_SRC_ADDR_LO 2147483648).setF Reg.LCS_SRC_ADDR_HI 16).setF Reg.LCS_SRC_LEN 256).setF Reg.LCS_STATUS_STATE 2).setF Reg.LCS_STATUS_PENDING 1).setF Reg.LCS_STATUS_STEP 2)) 5000 3 [7#8]) ∧
    ((fun (s : State) (now x : Nat) (fw : List Byte) => (s.canonical = true) ∧ (s.sec.change = some (x, fw)) ∧ (s.getF Reg.LCS_STATUS_STEP = 3)) (((((((({ State.reset with sec := { State.reset.sec with lcCount := 3, change := some (3, [7#8]) } }).setF Reg.LCS_SRC_ADDR_LO 2147483648).setF Reg.LCS_SRC_ADDR_HI 16).setF Reg.LCS_SRC_LEN 256).setF Reg.LCS_STATUS_STATE 2).setF Reg.LCS_STATUS_PENDING 1).setF Reg.LCS_STATUS_STEP 3)) 5000 3 [7#8]) ∧
    ((fun (s : State) (now x : Nat) (fw : List Byte) => (s.canonical = true) ∧ (s.sec.change = some (x, fw)) ∧ (s.getF Reg.LCS_STATUS_STEP = 4)) (((((((({ State.reset with sec := { State.reset.sec with lcCount := 3, change := some (3, [7#8]) } }).setF Reg.LCS_SRC_ADDR_LO 2147483648).setF Reg.LCS_SRC_ADDR_HI 16).setF Reg.LCS_SRC_LEN 256).setF Reg.LCS_STATUS_STATE 2).setF Reg.LCS_STATUS_PENDING 1).setF Reg.LCS_STATUS_STEP 4)) 5000 3 [7#8]) ∧
    ((fun (s : State) (now x : Nat) (fw : List Byte) => (s.canonical = true) ∧ (s.sec.change = some (x, fw)) ∧ (s.getF Reg.LCS_STATUS_STEP = 5)) (((((((({ State.reset with sec := { State.reset.sec with lcCount := 3, change := some (3, [7#8]) }, log := { State.reset.log with next := 7 } }).setF Reg.LCS_SRC_ADDR_LO 2147483648).setF Reg.LCS_SRC_ADDR_HI 16).setF Reg.LCS_SRC_LEN 256).setF Reg.LCS_STATUS_STATE 2).setF Reg.LCS_STATUS_PENDING 1).setF Reg.LCS_STATUS_STEP 5)) 5000 3 [7#8]) ∧
    ((fun (s : State) (now x : Nat) (fw : List Byte) => (s.canonical = true) ∧ (s.sec.change = some (x, fw)) ∧ (s.getF Reg.LCS_STATUS_STEP = 6)) (((((((({ State.reset with sec := { State.reset.sec with lcCount := 3, change := some (3, [7#8]) } }).setF Reg.LCS_SRC_ADDR_LO 2147483648).setF Reg.LCS_SRC_ADDR_HI 16).setF Reg.LCS_SRC_LEN 256).setF Reg.LCS_STATUS_STATE 2).setF Reg.LCS_STATUS_PENDING 1).setF Reg.LCS_STATUS_STEP 6)) 5000 3 [7#8]) ∧
    ((fun (s : State) (now x : Nat) (fw : List Byte) => (s.canonical = true) ∧ (s.sec.change = some (x, fw)) ∧ (s.getF Reg.LCS_STATUS_STEP = 7)) (((((((((({ State.reset with sec := { State.reset.sec with lcCount := 1, change := some (1, []) } }).setF Reg.LCS_SRC_ADDR_LO 2147483648).setF Reg.LCS_SRC_ADDR_HI 16).setF Reg.LCS_SRC_LEN 256).setF Reg.LCS_STATUS_STATE 1).setF Reg.LCS_STATUS_PENDING 1).setF Reg.LCS_STATUS_STEP 7).setF Reg.PWR_AUX_AUX_A 480).setF Reg.PWR_STATUS_AUX_A_OK 1)) 5000 1 []) ∧
    ((fun (s : State) => (s.canonical = true) ∧ (s.isF Reg.LCS_STATUS_PENDING = false) ∧ (s.lcState = 1)) ((State.reset.setF Reg.LCS_STATUS_STATE 1))) ∧
    ((fun (s : State) => (s.canonical = true) ∧ (s.isF Reg.LCS_STATUS_PENDING = false) ∧ (s.lcState ≠ 1)) (State.reset)) ∧
    ((fun (s : State) (now : Nat) (r : AuthRec) => (s.canonical = true) ∧ (s.isF Reg.LCS_STATUS_PENDING = false) ∧ (s.lcRecord = some r) ∧ (r.op = 2) ∧ (s.nonceOk r.nonce now = true)) ((((({ State.reset with mem := [(0x1080000000, 65#8), (0x1080000001, 70#8), (0x1080000002, 76#8), (0x1080000003, 67#8), (0x1080000004, 1#8), (0x1080000006, 2#8), (0x1080000029, 255#8)], sec := { State.reset.sec with nonce := some (List.replicate 16 0#8, 100) } }).setF Reg.LCS_SRC_ADDR_LO 2147483648).setF Reg.LCS_SRC_ADDR_HI 16).setF Reg.LCS_SRC_LEN 256)) 5000 ((((({ State.reset with mem := [(0x1080000000, 65#8), (0x1080000001, 70#8), (0x1080000002, 76#8), (0x1080000003, 67#8), (0x1080000004, 1#8), (0x1080000006, 2#8), (0x1080000029, 255#8)], sec := { State.reset.sec with nonce := some (List.replicate 16 0#8, 100) } }).setF Reg.LCS_SRC_ADDR_LO 2147483648).setF Reg.LCS_SRC_ADDR_HI 16).setF Reg.LCS_SRC_LEN 256).lcRecord.getD ⟨0, 0, [], 0, 0, 0, [], [], [], []⟩)) ∧
    ((fun (s : State) (now : Nat) => (s.canonical = true) ∧ (s.isF Reg.LCS_STATUS_PENDING = false) ∧ (s.lcRecord = none)) ((((State.reset.setF Reg.LCS_SRC_ADDR_LO 2147483648).setF Reg.LCS_SRC_ADDR_HI 16).setF Reg.LCS_SRC_LEN 256)) 5000) ∧
    ((fun (s : State) (now : Nat) (r : AuthRec) => (s.canonical = true) ∧ (s.isF Reg.LCS_STATUS_PENDING = false) ∧ (s.lcRecord = some r) ∧ (r.op = 3 ∨ r.op = 4) ∧ (s.nonceOk r.nonce now = true) ∧ ((if r.op = 3 then s.sec.minImg else s.sec.minFw).getLast?.getD 0 < r.value) ∧ (r.value ≤ (if r.op = 3 then s.getF Reg.CFG_IMAGE_SERIAL else s.getF Reg.SYS_FW_SERIAL)) ∧ ((if r.op = 3 then s.sec.minImg else s.sec.minFw).length < 16)) (((((({ State.reset with mem := [(0x1080000000, 65#8), (0x1080000001, 70#8), (0x1080000002, 76#8), (0x1080000003, 67#8), (0x1080000004, 1#8), (0x1080000006, 3#8), (0x1080000020, 4#8), (0x1080000029, 255#8)], sec := { State.reset.sec with nonce := some (List.replicate 16 0#8, 100) } }).setF Reg.LCS_SRC_ADDR_LO 2147483648).setF Reg.LCS_SRC_ADDR_HI 16).setF Reg.LCS_SRC_LEN 256).setF Reg.CFG_IMAGE_SERIAL 9)) 5000 ((((({ State.reset with mem := [(0x1080000000, 65#8), (0x1080000001, 70#8), (0x1080000002, 76#8), (0x1080000003, 67#8), (0x1080000004, 1#8), (0x1080000006, 3#8), (0x1080000020, 4#8), (0x1080000029, 255#8)], sec := { State.reset.sec with nonce := some (List.replicate 16 0#8, 100) } }).setF Reg.LCS_SRC_ADDR_LO 2147483648).setF Reg.LCS_SRC_ADDR_HI 16).setF Reg.LCS_SRC_LEN 256).lcRecord.getD ⟨0, 0, [], 0, 0, 0, [], [], [], []⟩)) ∧
    ((fun (s : State) (bs : List Byte) => (s.canonical = true) ∧ (s.isF Reg.LCS_STATUS_PENDING = false) ∧ (s.lcState = 1) ∧ (s.lcBytes = some bs)) (((((State.reset.setF Reg.LCS_SRC_ADDR_LO 2147483648).setF Reg.LCS_SRC_ADDR_HI 16).setF Reg.LCS_SRC_LEN 2).setF Reg.LCS_STATUS_STATE 1)) [0#8, 0#8]) ∧
    ((fun (s : State) => (s.canonical = true) ∧ (s.isF Reg.LCS_STATUS_PENDING = false) ∧ (s.lcState ≠ 1)) (State.reset)) ∧
    ((fun (s : State) (bs : List Byte) => (s.canonical = true) ∧ (s.isF Reg.LCS_STATUS_PENDING = false) ∧ (s.lcState = 1 ∨ s.lcState = 2) ∧ (s.lcBytes = some bs)) (((((State.reset.setF Reg.LCS_SRC_ADDR_LO 2147483648).setF Reg.LCS_SRC_ADDR_HI 16).setF Reg.LCS_SRC_LEN 2).setF Reg.LCS_STATUS_STATE 1)) [0#8, 0#8]) ∧
    ((fun (s : State) (bs : List Byte) => (s.canonical = true) ∧ (s.isF Reg.LCS_STATUS_PENDING = false) ∧ (s.lcBytes = some bs) ∧ (bs.length = 64) ∧ (leAt bs 0 1 < 8) ∧ (leAt bs 3 1 = 0) ∧ (8 ≤ leAt bs 2 1) ∧ (s.sslotMay (leAt bs 2 1) useWrap = true)) ((((((({ State.reset with mem := [(0x1080000000, 1#8), (0x1080000001, 3#8), (0x1080000002, 8#8)] }).setF Reg.LCS_SRC_ADDR_LO 2147483648).setF Reg.LCS_SRC_ADDR_HI 16).setF Reg.LCS_SRC_LEN 64).setF Reg.SEC_SLOT_VALID 1 16).setF Reg.SEC_SLOT_USES 255 16)) ([1#8, 3#8, 8#8] ++ List.replicate 61 0#8)) ∧
    ((fun (s : State) (n : Nat) => (s.canonical = true) ∧ (s.isF Reg.LCS_STATUS_PENDING = false) ∧ (s.getF Reg.LCS_SRC_LEN / 2 ^ 28 = n) ∧ (n < 8)) (((((({ State.reset with sec := { State.reset.sec with skey := [(2, [5#8])] } }).setF Reg.LCS_SRC_ADDR_LO 2147483648).setF Reg.LCS_SRC_ADDR_HI 16).setF Reg.LCS_SRC_LEN 536870912).setF Reg.SEC_SLOT_VALID 1 10)) 2) ∧
    ((fun (s : State) => (s.canonical = true) ∧ (s.isF Reg.LCS_STATUS_PENDING = false) ∧ (8 ≤ s.getF Reg.LCS_SRC_LEN / 2 ^ 28)) ((((State.reset.setF Reg.LCS_SRC_ADDR_LO 2147483648).setF Reg.LCS_SRC_ADDR_HI 16).setF Reg.LCS_SRC_LEN 2415919104))) ∧
    ((fun (s : State) (now : Nat) => (s.sec.nonce = none)) (State.reset) 5) ∧
    ((fun (s : State) (now d : Nat) (n : List Byte) => (s.sec.nonce = some (n, d)) ∧ (now ≤ d + 60000000000)) ((((({ State.reset with sec := { State.reset.sec with nonce := some (List.replicate 16 0#8, 100) } }).setF Reg.LCS_SRC_ADDR_LO 2147483648).setF Reg.LCS_SRC_ADDR_HI 16).setF Reg.LCS_SRC_LEN 256)) 700 100 (List.replicate 16 0#8)) ∧
    ((fun (s : State) (now : Nat) => (s.sec.change = none)) (State.reset) 5) ∧
    ((fun (s : State) (now : Nat) => (s.isF Reg.LCS_STATUS_PENDING = true ∨ (s.changeOwed = false ∧ s.isF Reg.LOG_STATUS_READY = true) ∨ s.runs 39 = false)) ((State.reset.setRuns 39 false)) 5) ∧
    ((fun (s : State) => (s.canonical = true) ∧ (s.isF Reg.LCS_STATUS_PENDING = false) ∧ (s.lcState ≠ 1) ∧ (s.lcState ≠ 2)) (State.reset)) ∧
    ((fun (s : State) => (s.canonical = true) ∧ (s.isF Reg.LCS_STATUS_PENDING = false) ∧ (s.lcState = 1 ∨ s.lcState = 2) ∧ (s.lcBytes = none)) ((State.reset.setF Reg.LCS_STATUS_STATE 1))) ∧
    ((fun (s : State) => (s.canonical = true) ∧ (s.isF Reg.LCS_STATUS_PENDING = false) ∧ (s.lcState = 1) ∧ (s.lcBytes = none)) ((State.reset.setF Reg.LCS_STATUS_STATE 1))) ∧
    ((fun (s : State) => (s.canonical = true) ∧ (s.isF Reg.LCS_STATUS_PENDING = false) ∧ (s.lcBytes = none)) (State.reset)) ∧
    ((fun (s : State) (bs : List Byte) => (s.canonical = true) ∧ (s.isF Reg.LCS_STATUS_PENDING = false) ∧ (s.lcBytes = some bs) ∧ (bs.length ≠ 64 ∨ 8 ≤ leAt bs 0 1 ∨ leAt bs 3 1 ≠ 0)) ((((State.reset.setF Reg.LCS_SRC_ADDR_LO 2147483648).setF Reg.LCS_SRC_ADDR_HI 16).setF Reg.LCS_SRC_LEN 2)) [0#8, 0#8]) ∧
    ((fun (s : State) (i : Nat) => (i ≤ 1 ∨ (i = 2 ∧ s.lcState ≠ 4) ∨ (i = 4 ∧ (s.lcState = 0 ∨ (s.isF Reg.LCS_STATUS_DEBUG = true ∧ s.lcState ≠ 4))))) (State.reset) 2) ∧
    ((fun (s : State) (i : Nat) => ((2 ≤ i ∧ s.lcState = 4) ∨ 5 ≤ i ∨ (3 ≤ i ∧ s.lcState ≠ 0 ∧ s.isF Reg.LCS_STATUS_DEBUG = false) ∨ (i = 3 ∧ (s.isF Reg.TWN_STATUS_LOCK = true ∨ s.twn.twinClaim = true)))) ((State.reset.setF Reg.LCS_STATUS_STATE 4)) 2) ∧
    ((fun (s : State) (now : Nat) => (s.canonical = true) ∧ (s.isF Reg.LCS_STATUS_PENDING = false) ∧ (s.runs 39 = true) ∧ (s.isF Reg.LOG_STATUS_READY = false) ∧ (s.lcState ≠ s.heartState)) (((State.reset.setRunsAll [39] true).setF Reg.LCS_STATUS_STATE 1)) 5000) ∧
    ((fun (s : State) (now : Nat) => (s.canonical = true) ∧ (s.isF Reg.LCS_STATUS_PENDING = false) ∧ (s.runs 39 = true) ∧ (s.isF Reg.LOG_STATUS_READY = false) ∧ (s.lcState = s.heartState) ∧ (s.log.failBlock = []) ∧ (s.log.island = []) ∧ (s.log.queue = []) ∧ (s.log.spill = []) ∧ (s.log.lost = 0)) ((((({ State.reset with log := { State.reset.log with next := 2 } }).setRunsAll [39] true).setF Reg.LOG_STATUS_READY 1).setF Reg.LOG_STATUS_READY 0)) 5000) := by
  repeat refine And.intro (by decide +kernel) ?_
  decide +kernel

theorem test_meets_ResetsAndStartUp :
    ((fun (s : State) (straps bad auxA auxB : Nat) (okA okB : Bool) => (s.canonical = true) ∧ (okA = true ∨ okB = true) ∧ (okA = false ∨ mayRun auxA 630 = true) ∧ (okB = false ∨ mayRun auxB 630 = true) ∧ (bad = 0) ∧ (thermometer s.sec.lcCount ≠ none)) (((((({ State.reset with mem := [(5, 7#8)], frame := 9, twn := { State.reset.twn with claim := true }, log := { State.reset.log with flash := [(3, [1#8])] } }).setF Reg.CLK_STATUS_PLL_LOCK 1).setF Reg.PWR_STATUS_START_STEP 4).setF Reg.PWR_RESET_CAUSE_POWER_ON 1).setF Reg.LT_OUT_MAX 5 3)) 0x70 0 480 0 true false) ∧
    ((fun (s : State) (straps bad auxA auxB : Nat) (okA okB : Bool) => (s.canonical = true) ∧ (okA = true ∨ okB = true) ∧ (okA = false ∨ mayRun auxA 630 = true) ∧ (okB = false ∨ mayRun auxB 630 = true) ∧ (bitOf bad 0 = true ∨ bitOf bad 1 = true)) (((((({ State.reset with mem := [(5, 7#8)], frame := 9, twn := { State.reset.twn with claim := true }, log := { State.reset.log with flash := [(3, [1#8])] } }).setF Reg.CLK_STATUS_PLL_LOCK 1).setF Reg.PWR_STATUS_START_STEP 4).setF Reg.PWR_RESET_CAUSE_POWER_ON 1).setF Reg.LT_OUT_MAX 5 3)) 0x70 3 480 0 true false) ∧
    ((fun (s : State) (straps bad auxA auxB : Nat) (okA okB : Bool) => ((okA = false ∧ okB = false) ∨ (okA = true ∧ mayRun auxA 630 = false) ∨ (okB = true ∧ mayRun auxB 630 = false))) (State.reset) 0 0 0 0 false false) ∧
    ((fun (s : State) (svc : Bool) (lowNs now : Nat) => (s.canonical = true) ∧ (1000 ≤ lowNs) ∧ (s.dead = false) ∧ (svc = true)) (((((({ State.reset with mem := [(5, 7#8)], frame := 9, twn := { State.reset.twn with claim := true }, log := { State.reset.log with flash := [(3, [1#8])] } }).setF Reg.CLK_STATUS_PLL_LOCK 1).setF Reg.PWR_STATUS_START_STEP 4).setF Reg.PWR_RESET_CAUSE_POWER_ON 1).setF Reg.LT_OUT_MAX 5 3)) true 1000 5000) ∧
    ((fun (s : State) (svc : Bool) (lowNs now : Nat) => (s.canonical = true) ∧ (1000 ≤ lowNs) ∧ (s.dead = false) ∧ (svc = false)) (((((({ State.reset with mem := [(5, 7#8)], frame := 9, twn := { State.reset.twn with claim := true }, log := { State.reset.log with flash := [(3, [1#8])] } }).setF Reg.CLK_STATUS_PLL_LOCK 1).setF Reg.PWR_STATUS_START_STEP 4).setF Reg.PWR_RESET_CAUSE_POWER_ON 1).setF Reg.LT_OUT_MAX 5 3)) false 1000 5000) ∧
    ((fun (s : State) (svc : Bool) (lowNs now : Nat) => (lowNs < 1000 ∨ s.dead = true)) (State.reset) false 999 5000) ∧
    ((fun (s : State) (confirm now : Nat) => (s.canonical = true) ∧ (confirm = 0xA5)) (((((({ State.reset with mem := [(5, 7#8)], frame := 9, twn := { State.reset.twn with claim := true }, log := { State.reset.log with flash := [(3, [1#8])] } }).setF Reg.CLK_STATUS_PLL_LOCK 1).setF Reg.PWR_STATUS_START_STEP 4).setF Reg.PWR_RESET_CAUSE_POWER_ON 1).setF Reg.LT_OUT_MAX 5 3)) 0xA5 5000) ∧
    ((fun (s : State) (confirm now : Nat) => (s.canonical = true) ∧ (confirm = 0xA5)) (((((({ State.reset with mem := [(5, 7#8)], frame := 9, twn := { State.reset.twn with claim := true }, log := { State.reset.log with flash := [(3, [1#8])] } }).setF Reg.CLK_STATUS_PLL_LOCK 1).setF Reg.PWR_STATUS_START_STEP 4).setF Reg.PWR_RESET_CAUSE_POWER_ON 1).setF Reg.LT_OUT_MAX 5 3)) 0xA5 5000) ∧
    ((fun (s : State) (confirm now : Nat) => (s.canonical = true) ∧ (confirm ≠ 0xA5)) (State.reset) 0x5A 5000) ∧
    ((fun (s : State) (confirm now : Nat) => (s.canonical = true) ∧ (confirm ≠ 0xA5)) (State.reset) 0x5A 5000) ∧
    ((fun (s : State) (now : Nat) => (s.canonical = true) ∧ (s.isF Reg.PWR_WDT_EN = true) ∧ (s.runs 35 = true) ∧ (s.dead = false) ∧ (s.pwr.wdtAt = none)) ((((((({ State.reset with mem := [(5, 7#8)], frame := 9, twn := { State.reset.twn with claim := true }, log := { State.reset.log with flash := [(3, [1#8])] } }).setF Reg.CLK_STATUS_PLL_LOCK 1).setF Reg.PWR_STATUS_START_STEP 4).setF Reg.PWR_RESET_CAUSE_POWER_ON 1).setF Reg.LT_OUT_MAX 5 3).setF Reg.PWR_WDT_EN 1)) 5000) ∧
    ((fun (s : State) (now : Nat) (w : Int) => (s.canonical = true) ∧ (s.isF Reg.PWR_WDT_EN = true) ∧ (s.runs 35 = true) ∧ (s.dead = false) ∧ (s.pwr.wdtAt = some w) ∧ ((now : Int) ≤ w + 10000000000)) ((((((({ State.reset with pwr := { State.reset.pwr with wdtAt := some 0, expiries := 1 }, mem := [(5, 7#8)], frame := 9, twn := { State.reset.twn with claim := true }, log := { State.reset.log with flash := [(3, [1#8])] } }).setF Reg.CLK_STATUS_PLL_LOCK 1).setF Reg.PWR_STATUS_START_STEP 4).setF Reg.PWR_RESET_CAUSE_POWER_ON 1).setF Reg.LT_OUT_MAX 5 3).setF Reg.PWR_WDT_EN 1)) 5000 0) ∧
    ((fun (s : State) (temp : Int) (now : Nat) => (s.canonical = true) ∧ (s.dead = false) ∧ (s.pwr.held = false) ∧ (1250 < temp)) (((((({ State.reset with mem := [(5, 7#8)], frame := 9, twn := { State.reset.twn with claim := true }, log := { State.reset.log with flash := [(3, [1#8])] } }).setF Reg.CLK_STATUS_PLL_LOCK 1).setF Reg.PWR_STATUS_START_STEP 4).setF Reg.PWR_RESET_CAUSE_POWER_ON 1).setF Reg.LT_OUT_MAX 5 3)) 1300 5000) ∧
    ((fun (s : State) (temp : Int) (now : Nat) => (s.canonical = true) ∧ (s.dead = false) ∧ (s.pwr.held = true) ∧ (temp < 1000)) (((((({ State.reset with pwr := { State.reset.pwr with held := true }, mem := [(5, 7#8)], frame := 9, twn := { State.reset.twn with claim := true }, log := { State.reset.log with flash := [(3, [1#8])] } }).setF Reg.CLK_STATUS_PLL_LOCK 1).setF Reg.PWR_STATUS_START_STEP 4).setF Reg.PWR_RESET_CAUSE_POWER_ON 1).setF Reg.LT_OUT_MAX 5 3)) 900 5000) ∧
    ((fun (s : State) (asserted : Bool) => (s.canonical = true) ∧ (s.dead = false)) ((((((({ State.reset with mem := [(5, 7#8)], frame := 9, twn := { State.reset.twn with claim := true }, log := { State.reset.log with flash := [(3, [1#8])] } }).setF Reg.CLK_STATUS_PLL_LOCK 1).setF Reg.PWR_STATUS_START_STEP 4).setF Reg.PWR_RESET_CAUSE_POWER_ON 1).setF Reg.LT_OUT_MAX 5 3).setF Reg.MEMWIN_BASE_LO_BASE_LO 5)) false) ∧
    ((fun (s : State) (step serial now : Nat) => (s.canonical = true) ∧ (s.startBlocked = false) ∧ (s.pwr.stepAt ≤ now) ∧ (step = 1) ∧ (s.getF Reg.PWR_STATUS_START_STEP ≤ 1)) ((({ State.reset with mem := [(5, 7#8)], frame := 9, twn := { State.reset.twn with claim := true }, log := { State.reset.log with flash := [(3, [1#8])] } }).setF Reg.PWR_STATUS_START_STEP 1)) 1 0 5000) ∧
    ((fun (s : State) (step serial now : Nat) => (s.canonical = true) ∧ (s.startBlocked = false) ∧ (s.pwr.stepAt ≤ now) ∧ (step = 2) ∧ (s.getF Reg.PWR_STATUS_START_STEP = 2)) ((({ State.reset with mem := [(5, 7#8)], frame := 9, twn := { State.reset.twn with claim := true }, log := { State.reset.log with flash := [(3, [1#8])] } }).setF Reg.PWR_STATUS_START_STEP 2)) 2 0 5000) ∧
    ((fun (s : State) (step serial now : Nat) => (s.canonical = true) ∧ (s.startBlocked = false) ∧ (s.pwr.stepAt ≤ now) ∧ (step = 3) ∧ (s.isF Reg.CLK_STATUS_PLL_LOCK = true) ∧ (s.isF Reg.CTX_STATUS_READY = true) ∧ (s.getF Reg.PWR_START_MEM_MS = 0) ∧ (s.sequenced = true) ∧ (s.getF Reg.PWR_STATUS_START_STEP = 3)) (((((({ State.reset with mem := [(5, 7#8)], frame := 9, twn := { State.reset.twn with claim := true }, log := { State.reset.log with flash := [(3, [1#8])] } }).setF Reg.CLK_STATUS_PLL_LOCK 1).setF Reg.CTX_STATUS_READY 1).setF Reg.PWR_STATUS_ORDER 1).setF Reg.PWR_STATUS_START_STEP 3)) 3 0 5000000) ∧
    ((fun (s : State) (step serial now : Nat) => (s.canonical = true) ∧ (s.startBlocked = false) ∧ (s.pwr.stepAt ≤ now) ∧ (step = 3) ∧ (s.isF Reg.CLK_STATUS_PLL_LOCK = true) ∧ (s.isF Reg.CTX_STATUS_READY = true) ∧ (s.getF Reg.PWR_START_MEM_MS = 0) ∧ (s.sequenced = false)) (((((({ State.reset with mem := [(5, 7#8)], frame := 9, twn := { State.reset.twn with claim := true }, log := { State.reset.log with flash := [(3, [1#8])] } }).setF Reg.CLK_STATUS_PLL_LOCK 1).setF Reg.CTX_STATUS_READY 1).setF Reg.PWR_STATUS_ORDER 0).setF Reg.PWR_STATUS_START_STEP 4)) 3 0 5000000) ∧
    ((fun (s : State) (step serial now : Nat) => (s.canonical = true) ∧ (s.startBlocked = false) ∧ (s.pwr.stepAt ≤ now) ∧ (step = 4) ∧ (s.isF Reg.CLK_STATUS_PLL_LOCK = true) ∧ (s.getF Reg.PWR_STATUS_START_STEP = 4) ∧ (s.pwr.fwRuns = false) ∧ (s.changeOwed = false) ∧ (s.sec.firmware.isSome = true) ∧ (s.getF Reg.LCS_MIN_FW ≤ serial)) (((({ State.reset with mem := [(5, 7#8)], frame := 9, twn := { State.reset.twn with claim := true }, log := { State.reset.log with flash := [(3, [1#8])] } }).setF Reg.CLK_STATUS_PLL_LOCK 1).setF Reg.PWR_STATUS_START_STEP 4)) 4 3 5000) ∧
    ((fun (s : State) (step : Nat) (wipe : Bool) (now : Nat) => (s.canonical = true) ∧ (s.startBlocked = false) ∧ ((step = 1 ∧ s.getF Reg.PWR_STATUS_START_STEP ≤ 1) ∨ (step = 2 ∧ s.getF Reg.PWR_STATUS_START_STEP = 2)) ∧ (s.pwr.stepAt + 20000000 < now) ∧ (s.pwr.retried = false)) ((({ State.reset with mem := [(5, 7#8)], frame := 9, twn := { State.reset.twn with claim := true }, log := { State.reset.log with flash := [(3, [1#8])] } }).setF Reg.PWR_STATUS_START_STEP 1)) 1 false 30000000) ∧
    ((fun (s : State) (step : Nat) (wipe : Bool) (now : Nat) => (s.canonical = true) ∧ (s.startBlocked = false) ∧ ((step = 1 ∧ s.getF Reg.PWR_STATUS_START_STEP ≤ 1) ∨ (step = 2 ∧ s.getF Reg.PWR_STATUS_START_STEP = 2)) ∧ (s.pwr.stepAt + 20000000 < now) ∧ (s.pwr.retried = true)) ((({ State.reset with pwr := { State.reset.pwr with retried := true }, mem := [(5, 7#8)], frame := 9, twn := { State.reset.twn with claim := true }, log := { State.reset.log with flash := [(3, [1#8])] } }).setF Reg.PWR_STATUS_START_STEP 2)) 2 false 30000000) ∧
    ((fun (s : State) (step : Nat) (wipe : Bool) (now : Nat) => (s.canonical = true) ∧ (s.startBlocked = false) ∧ (step = 3) ∧ (s.isF Reg.CLK_STATUS_PLL_LOCK = true) ∧ (s.isF Reg.CTX_STATUS_READY = false) ∧ (s.isF Reg.PWR_STATUS_MEM_FAIL = false) ∧ (wipe = false ∨ s.pwr.stepAt + 100000000 < now)) ((((({ State.reset with mem := [(5, 7#8)], frame := 9, twn := { State.reset.twn with claim := true }, log := { State.reset.log with flash := [(3, [1#8])] } }).setF Reg.CLK_STATUS_PLL_LOCK 1).setF Reg.PWR_STATUS_ORDER 1).setF Reg.PWR_STATUS_START_STEP 3)) 3 true 300000000) ∧
    ((fun (s : State) (step : Nat) (wipe : Bool) (now : Nat) => (s.canonical = true) ∧ (s.startBlocked = false) ∧ (step = 4) ∧ (s.pwr.fwRuns = false) ∧ (s.getF Reg.PWR_STATUS_START_STEP = 4 ∨ (s.getF Reg.PWR_STATUS_START_STEP ≤ 2 ∧ s.sequenced = false))) ((({ State.reset with mem := [(5, 7#8)], frame := 9, twn := { State.reset.twn with claim := true }, log := { State.reset.log with flash := [(3, [1#8])] } }).setF Reg.PWR_STATUS_START_STEP 4)) 4 false 5000) ∧
    ((fun (s : State) (step : Nat) (wipe : Bool) (now : Nat) => (s.canonical = true) ∧ (s.startBlocked = false) ∧ (step = 4) ∧ (s.pwr.fwRuns = false) ∧ (s.getF Reg.PWR_STATUS_START_STEP = 4 ∨ (s.getF Reg.PWR_STATUS_START_STEP ≤ 2 ∧ s.sequenced = false))) ((({ State.reset with mem := [(5, 7#8)], frame := 9, twn := { State.reset.twn with claim := true }, log := { State.reset.log with flash := [(3, [1#8])] } }).setF Reg.PWR_STATUS_START_STEP 1)) 4 false 5000) ∧
    ((fun (s : State) (now : Nat) => (s.isF Reg.PWR_WDT_EN = false ∨ s.runs 35 = false ∨ s.dead = true)) ((State.reset.setF Reg.PWR_WDT_EN 0)) 5) ∧
    ((fun (s : State) (temp : Int) (now : Nat) => (s.dead = true ∨ (s.pwr.held = true ∧ 1000 ≤ temp) ∨ (s.pwr.held = false ∧ temp ≤ 1250))) (State.reset) 600 5) ∧
    ((fun (s : State) (asserted : Bool) => (s.dead = true)) (({ State.reset with pwr := { State.reset.pwr with ship := true } })) true) ∧
    ((fun (s : State) (step serial now : Nat) => (s.startBlocked = true ∨ now < s.pwr.stepAt ∨ step = 0 ∨ 4 < step ∨ (step = 1 ∧ 1 < s.getF Reg.PWR_STATUS_START_STEP) ∨ (step = 2 ∧ s.getF Reg.PWR_STATUS_START_STEP ≠ 2) ∨ (step = 3 ∧ (s.isF Reg.CLK_STATUS_PLL_LOCK = false ∨ s.isF Reg.CTX_STATUS_READY = false)) ∨ (step = 4 ∧ (s.pwr.fwRuns = true ∨ s.changeOwed = true ∨ s.sec.firmware = none ∨ serial < s.getF Reg.LCS_MIN_FW)))) (State.reset) 7 0 5) ∧
    ((fun (s : State) (step serial now : Nat) => (s.canonical = true) ∧ (s.startBlocked = false) ∧ (s.pwr.stepAt ≤ now) ∧ (step = 4) ∧ (s.getF Reg.PWR_STATUS_START_STEP ≤ 2) ∧ (s.sequenced = false) ∧ (s.pwr.fwRuns = false) ∧ (s.changeOwed = false) ∧ (s.sec.firmware.isSome = true) ∧ (s.getF Reg.LCS_MIN_FW ≤ serial)) (((({ State.reset with mem := [(5, 7#8)], frame := 9, twn := { State.reset.twn with claim := true }, log := { State.reset.log with flash := [(3, [1#8])] } }).setF Reg.PWR_STATUS_ORDER 0).setF Reg.PWR_STATUS_START_STEP 2)) 4 3 5000) ∧
    ((fun (s : State) (step : Nat) (wipe : Bool) (now : Nat) => (s.startBlocked = true ∨ ((step = 1 ∨ step = 2) ∧ now ≤ s.pwr.stepAt + 20000000) ∨ (step = 3 ∧ (s.isF Reg.CLK_STATUS_PLL_LOCK = false ∨ s.isF Reg.CTX_STATUS_READY = true ∨ s.isF Reg.PWR_STATUS_MEM_FAIL = true ∨ (wipe = true ∧ now ≤ s.pwr.stepAt + 100000000))) ∨ (step = 4 ∧ (s.pwr.fwRuns = true ∨ (s.getF Reg.PWR_STATUS_START_STEP ≠ 4 ∧ (s.sequenced = true ∨ 2 < s.getF Reg.PWR_STATUS_START_STEP)))) ∨ step = 0 ∨ 4 < step)) (State.reset) 1 false 5) ∧
    ((fun (s : State) => (s.isF Reg.CLK_STATUS_PLL_LOCK = false)) ((State.reset.setF Reg.CLK_STATUS_PLL_LOCK 0))) ∧
    ((fun (s : State) (slot : Nat) (image : List Byte) => (s.runs 32 = false ∨ s.dead = true ∨ (slot = 2 ∧ s.getF Reg.PWR_STATUS_START_FAIL ≠ 4) ∨ (slot ≠ 2 ∧ (s.isF Reg.SYS_STRAPS_RECOVER = false ∨ 2 < slot ∨ leAt image 8 1 = 2)))) (State.reset) 5 []) ∧
    ((fun (s : State) => (s.canonical = true) ∧ (s.isF Reg.CLK_STATUS_PLL_LOCK = true)) (((({ State.reset with mem := [(5, 7#8)], frame := 9, twn := { State.reset.twn with claim := true }, log := { State.reset.log with flash := [(3, [1#8])] } }).setF Reg.CLK_STATUS_PLL_LOCK 1).setF Reg.CLK_STATUS_ON_FAST 1))) ∧
    ((fun (s : State) (slot : Nat) (image : List Byte) => (s.runs 32 = true) ∧ (s.dead = false) ∧ (slot = 2) ∧ (s.getF Reg.PWR_STATUS_START_FAIL = 4)) ((({ State.reset with mem := [(5, 7#8)], frame := 9, twn := { State.reset.twn with claim := true }, log := { State.reset.log with flash := [(3, [1#8])] } }).setF Reg.PWR_STATUS_START_FAIL 4)) 2 [1#8]) ∧
    ((fun (s : State) (slot : Nat) (image : List Byte) => (s.canonical = true) ∧ (s.runs 32 = true) ∧ (s.dead = false) ∧ (slot < 2) ∧ (s.isF Reg.SYS_STRAPS_RECOVER = true) ∧ (leAt image 8 1 ≠ 2) ∧ (s.cfg.running = false)) ((({ State.reset with mem := [(5, 7#8)], frame := 9, twn := { State.reset.twn with claim := true }, log := { State.reset.log with flash := [(3, [1#8])] } }).setF Reg.SYS_STRAPS_RECOVER 1)) 0 [1#8]) ∧
    ((fun (s : State) (highMs straps bad : Nat) => (s.canonical = true) ∧ (s.pwr.ship = true) ∧ (10 ≤ highMs)) ((({ State.reset with pwr := { State.reset.pwr with ship := true }, mem := [(5, 7#8)], frame := 9, twn := { State.reset.twn with claim := true }, log := { State.reset.log with flash := [(3, [1#8])] } }).setF Reg.PWR_AUX_AUX_A 470)) 10 0 0) := by
  repeat refine And.intro (by decide +kernel) ?_
  decide +kernel

theorem test_meets_SuppliesAndPowerStates :
    ((fun (s : State) (input volt now : Nat) => (s.canonical = true) ∧ (s.pwr.off = false) ∧ (mayFail volt = true) ∧ (s.pwr.ship = false) ∧ ((if input = 0 then s.isF Reg.PWR_STATUS_AUX_A_OK else s.isF Reg.PWR_STATUS_AUX_B_OK) = true) ∧ (s.getF Reg.PWR_STATUS_STATE ≠ 3)) ((({ State.reset with mem := [(5, 7#8)], frame := 9, twn := { State.reset.twn with claim := true }, log := { State.reset.log with flash := [(3, [1#8])] } }).setF Reg.PWR_STATUS_AUX_A_OK 1)) 0 300 5000) ∧
    ((fun (s : State) (input volt now : Nat) => (s.canonical = true) ∧ (s.pwr.off = false) ∧ (mayFail volt = true) ∧ (s.pwr.ship = false) ∧ ((if input = 0 then s.isF Reg.PWR_STATUS_AUX_A_OK else s.isF Reg.PWR_STATUS_AUX_B_OK) = true) ∧ (s.getF Reg.PWR_STATUS_STATE = 3) ∧ (s.log.island.length < 64)) (((({ State.reset with mem := [(5, 7#8)], frame := 9, twn := { State.reset.twn with claim := true }, log := { State.reset.log with flash := [(3, [1#8])] } }).setF Reg.PWR_STATUS_AUX_B_OK 1).setF Reg.PWR_STATUS_STATE 3)) 1 300 5000) ∧
    ((fun (s : State) (input volt now : Nat) => (s.canonical = true) ∧ (s.pwr.off = false) ∧ (mayFail volt = true) ∧ (s.pwr.ship = true) ∧ ((if input = 0 then s.isF Reg.PWR_STATUS_AUX_B_OK else s.isF Reg.PWR_STATUS_AUX_A_OK) = false)) ((({ State.reset with pwr := { State.reset.pwr with ship := true }, mem := [(5, 7#8)], frame := 9, twn := { State.reset.twn with claim := true }, log := { State.reset.log with flash := [(3, [1#8])] } }).setF Reg.PWR_STATUS_AUX_A_OK 1)) 0 300 5000) ∧
    ((fun (s : State) (input volt : Nat) => (s.canonical = true) ∧ (s.pwr.off = false) ∧ (mayRun volt (if 610 < (if input = 0 then s.getF Reg.PWR_AUX_AUX_A else s.getF Reg.PWR_AUX_AUX_B) then 599 else 630) = true) ∧ (s.isF Reg.PWR_STATUS_HOLDUP = false)) ((({ State.reset with mem := [(5, 7#8)], frame := 9, twn := { State.reset.twn with claim := true }, log := { State.reset.log with flash := [(3, [1#8])] } }).setF Reg.PWR_STATUS_AUX_A_OK 1)) 1 480) ∧
    ((fun (s : State) (input volt : Nat) => (s.canonical = true) ∧ (s.pwr.off = false) ∧ (mayRun volt (if 610 < (if input = 0 then s.getF Reg.PWR_AUX_AUX_A else s.getF Reg.PWR_AUX_AUX_B) then 599 else 630) = true) ∧ (s.isF Reg.PWR_STATUS_HOLDUP = true)) ((({ State.reset with mem := [(5, 7#8)], frame := 9, twn := { State.reset.twn with claim := true }, log := { State.reset.log with flash := [(3, [1#8])] } }).setF Reg.PWR_STATUS_HOLDUP 1)) 1 480) ∧
    ((fun (s : State) (now : Nat) => (s.canonical = true) ∧ (s.isF Reg.PWR_STATUS_HOLDUP = false) ∧ (s.isF Reg.PWR_STATUS_AUX_A_OK = false) ∧ (s.isF Reg.PWR_STATUS_AUX_B_OK = false) ∧ ((s.pwr.lostAt.any fun t => decide (t + 20000 ≤ (now : Int))) = true) ∧ (s.dead = false) ∧ (s.runs 39 = false)) (({ State.reset with pwr := { State.reset.pwr with lostAt := some 0 }, mem := [(5, 7#8)], frame := 9, twn := { State.reset.twn with claim := true }, log := { State.reset.log with flash := [(3, [1#8])] } })) 50000) ∧
    ((fun (s : State) (now : Nat) => (s.canonical = true) ∧ (s.isF Reg.PWR_STATUS_HOLDUP = false) ∧ (s.isF Reg.PWR_STATUS_AUX_A_OK = false) ∧ (s.isF Reg.PWR_STATUS_AUX_B_OK = false) ∧ ((s.pwr.lostAt.any fun t => decide (t + 20000 ≤ (now : Int))) = true) ∧ (s.dead = false) ∧ (s.runs 39 = true) ∧ (s.isF Reg.LOG_STATUS_READY = true) ∧ (s.log.freezing = false) ∧ (s.log.erasing = none) ∧ (s.log.slot < 8191)) (((({ State.reset with pwr := { State.reset.pwr with lostAt := some 0 }, mem := [(5, 7#8)], frame := 9, twn := { State.reset.twn with claim := true }, log := { State.reset.log with flash := [(3, [1#8])] } }).setF Reg.LOG_STATUS_READY 1).setRunsAll [39] true)) 50000) ∧
    ((fun (s : State) (mW now : Nat) (x : Int) => (s.canonical = true) ∧ (s.isF Reg.PWR_STATUS_HOLDUP = true) ∧ (s.pwr.lostAt = some x) ∧ (x + (max 2000000 (370000000000 / max 1 mW) : Nat) ≤ (now : Int))) ((({ State.reset with pwr := { State.reset.pwr with lostAt := some 5 }, mem := [(5, 7#8)], frame := 9, twn := { State.reset.twn with claim := true }, log := { State.reset.log with flash := [(3, [1#8])] } }).setF Reg.PWR_STATUS_HOLDUP 1)) 100000 5000000 5) ∧
    ((fun (s : State) (input volt now : Nat) => (s.pwr.off = true ∨ mayFail volt = false)) (State.reset) 0 480 5) ∧
    ((fun (s : State) (input volt : Nat) => (s.pwr.off = true ∨ mayRun volt (if 610 < (if input = 0 then s.getF Reg.PWR_AUX_AUX_A else s.getF Reg.PWR_AUX_AUX_B) then 599 else 630) = false)) (State.reset) 0 300) ∧
    ((fun (s : State) (now : Nat) => (s.isF Reg.PWR_STATUS_HOLDUP = true ∨ s.isF Reg.PWR_STATUS_AUX_A_OK = true ∨ s.isF Reg.PWR_STATUS_AUX_B_OK = true ∨ s.dead = true ∨ s.pwr.lostAt = none)) (State.reset) 5) ∧
    ((fun (s : State) (mW now : Nat) => (s.isF Reg.PWR_STATUS_HOLDUP = false ∨ s.pwr.lostAt = none)) (State.reset) 5 5) ∧
    ((fun (s : State) (now : Nat) => (s.getF Reg.PWR_STATUS_STATE ≠ 3 ∨ s.pwr.keepAt = none ∨ s.getF Reg.PWR_KEEP_CFG_WAKE_S = 0)) (State.reset) 5) ∧
    ((fun (s : State) (now k : Nat) => (s.pwr.keepAt = some k) ∧ (now < k + s.getF Reg.PWR_KEEP_CFG_WAKE_S * 1000000000)) ((((({ State.reset with pwr := { State.reset.pwr with keepAt := some 5 }, mem := [(5, 7#8)], frame := 9, twn := { State.reset.twn with claim := true }, log := { State.reset.log with flash := [(3, [1#8])] } }).setF Reg.PWR_STATUS_STATE 3).setF Reg.PWR_KEEP_CFG_WAKE_S 60).setF Reg.PWR_KEEP_CFG_WAKE_I 2)) 7 5) ∧
    ((fun (s : State) (now : Nat) => (s.getF Reg.EST_STATUS_SHIP_STEP ≠ 6 ∨ s.log.queue ≠ [] ∨ s.log.spill ≠ [] ∨ s.log.page ≠ [] ∨ s.dead = true)) (State.reset) 5) ∧
    ((fun (s : State) (highMs straps bad : Nat) => (s.pwr.ship = false ∨ highMs < 10)) (State.reset) 10 0 0) ∧
    ((fun (s : State) => (s.canonical = true) ∧ (s.getF Reg.PWR_STATUS_STATE = 0)) (((({ State.reset with mem := [(5, 7#8)], frame := 9, twn := { State.reset.twn with claim := true }, log := { State.reset.log with flash := [(3, [1#8])] } }).setF Reg.PWR_STATUS_STATE 0).setF Reg.TH_DIE_STATUS_ON 1 0))) ∧
    ((fun (s : State) => (s.canonical = true) ∧ (s.getF Reg.PWR_STATUS_STATE ≠ 0)) ((({ State.reset with mem := [(5, 7#8)], frame := 9, twn := { State.reset.twn with claim := true }, log := { State.reset.log with flash := [(3, [1#8])] } }).setF Reg.PWR_STATUS_STATE 1))) ∧
    ((fun (s : State) (now : Nat) => (s.canonical = true) ∧ (s.getF Reg.PWR_STATUS_STATE = 2)) ((({ State.reset with mem := [(5, 7#8)], frame := 9, twn := { State.reset.twn with claim := true }, log := { State.reset.log with flash := [(3, [1#8])] } }).setF Reg.PWR_STATUS_STATE 2)) 5000) ∧
    ((fun (s : State) (now : Nat) => (s.canonical = true) ∧ (s.getF Reg.PWR_STATUS_STATE = 3)) ((((({ State.reset with pwr := { State.reset.pwr with keepAt := some 5 }, mem := [(5, 7#8)], frame := 9, twn := { State.reset.twn with claim := true }, log := { State.reset.log with flash := [(3, [1#8])] } }).setF Reg.PWR_STATUS_STATE 3).setF Reg.PWR_KEEP_CFG_WAKE_S 60).setF Reg.PWR_KEEP_CFG_WAKE_I 2)) 5000) ∧
    ((fun (s : State) (now : Nat) => (s.canonical = true) ∧ (s.getF Reg.PWR_STATUS_STATE ≠ 2) ∧ (s.getF Reg.PWR_STATUS_STATE ≠ 3)) ((({ State.reset with mem := [(5, 7#8)], frame := 9, twn := { State.reset.twn with claim := true }, log := { State.reset.log with flash := [(3, [1#8])] } }).setF Reg.PWR_STATUS_STATE 1)) 5000) ∧
    ((fun (s : State) (now : Nat) => (s.canonical = true) ∧ (s.getF Reg.PWR_STATUS_STATE ≤ 2) ∧ (s.isF Reg.TWN_STATUS_LOCK = false ∨ s.quiet = true)) ((((({ State.reset with mem := [(5, 7#8)], frame := 9, twn := { State.reset.twn with claim := true }, log := { State.reset.log with flash := [(3, [1#8])] } }).setF Reg.PWR_STATUS_STATE 0).setF Reg.PKL_CFG_EN 1).setF Reg.PKL_CFG_NODES 3)) 5000) ∧
    ((fun (s : State) (now : Nat) => (s.canonical = true) ∧ (s.getF Reg.PWR_STATUS_STATE ≤ 2) ∧ (s.isF Reg.TWN_STATUS_LOCK = true) ∧ (s.quiet = false)) (((({ State.reset with mem := [(5, 7#8)], frame := 9, twn := { State.reset.twn with claim := true }, log := { State.reset.log with flash := [(3, [1#8])] } }).setF Reg.TWN_STATUS_LOCK 1).setF Reg.PWM_CTR_CLOSE 1)) 5000) ∧
    ((fun (s : State) (now : Nat) => (s.canonical = true) ∧ (2 < s.getF Reg.PWR_STATUS_STATE)) ((((({ State.reset with pwr := { State.reset.pwr with keepAt := some 5 }, mem := [(5, 7#8)], frame := 9, twn := { State.reset.twn with claim := true }, log := { State.reset.log with flash := [(3, [1#8])] } }).setF Reg.PWR_STATUS_STATE 3).setF Reg.PWR_KEEP_CFG_WAKE_S 60).setF Reg.PWR_KEEP_CFG_WAKE_I 2)) 5000) ∧
    ((fun (s : State) (now k : Nat) => (s.canonical = true) ∧ (s.getF Reg.PWR_STATUS_STATE = 3) ∧ (s.pwr.keepAt = some k) ∧ (s.getF Reg.PWR_KEEP_CFG_WAKE_S ≠ 0) ∧ (k + s.getF Reg.PWR_KEEP_CFG_WAKE_S * 1000000000 ≤ now)) ((((({ State.reset with pwr := { State.reset.pwr with keepAt := some 5 }, mem := [(5, 7#8)], frame := 9, twn := { State.reset.twn with claim := true }, log := { State.reset.log with flash := [(3, [1#8])] } }).setF Reg.PWR_STATUS_STATE 3).setF Reg.PWR_KEEP_CFG_WAKE_S 60).setF Reg.PWR_KEEP_CFG_WAKE_I 2)) 70000000000 5) ∧
    ((fun (s : State) (k now : Nat) => (s.canonical = true) ∧ (s.getF Reg.PWR_STATUS_STATE = 3) ∧ (s.getF Reg.PWR_KEEP_CFG_WAKE_I ≠ 0) ∧ (s.getF Reg.PWR_KEEP_CFG_WAKE_I * 64000000 < (Sparse.at 0 s.sns.ccMean k).natAbs)) ((((({ State.reset with pwr := { State.reset.pwr with keepAt := some 5 }, mem := [(5, 7#8)], sns := { State.reset.sns with ccMean := [(1, -150000000)] }, frame := 9, twn := { State.reset.twn with claim := true }, log := { State.reset.log with flash := [(3, [1#8])] } }).setF Reg.PWR_STATUS_STATE 3).setF Reg.PWR_KEEP_CFG_WAKE_S 60).setF Reg.PWR_KEEP_CFG_WAKE_I 2)) 1 5000) ∧
    ((fun (s : State) (k now : Nat) => (s.getF Reg.PWR_STATUS_STATE ≠ 3 ∨ s.getF Reg.PWR_KEEP_CFG_WAKE_I = 0 ∨ (Sparse.at 0 s.sns.ccMean k).natAbs ≤ s.getF Reg.PWR_KEEP_CFG_WAKE_I * 64000000)) ((((({ State.reset with pwr := { State.reset.pwr with keepAt := some 5 }, mem := [(5, 7#8)], frame := 9, twn := { State.reset.twn with claim := true }, log := { State.reset.log with flash := [(3, [1#8])] } }).setF Reg.PWR_STATUS_STATE 3).setF Reg.PWR_KEEP_CFG_WAKE_S 60).setF Reg.PWR_KEEP_CFG_WAKE_I 2)) 0 5000) ∧
    ((fun (s : State) (now : Nat) (air m : List Byte) => (s.hearsAir 1 0x15 air m = true) ∧ (s.getF Reg.PWR_STATUS_STATE ≠ 3)) ((((({ State.reset with mem := [(5, 7#8)], frame := 9, twn := { State.reset.twn with claim := true }, log := { State.reset.log with flash := [(3, [1#8])] } }).setF Reg.PKL_CFG_EN 1).setF Reg.PKL_CFG_NODES 3).setF Reg.PKL_CHAIN 4660)) 5000 (State.onAir State.reset 1 (beBytes 12 0x15001234FE03000101020009)) (beBytes 12 0x15001234FE03000101020009)) ∧
    ((fun (s : State) (now : Nat) (air m : List Byte) => (s.canonical = true) ∧ (s.hearsAir 1 0x15 air m = true) ∧ (s.getF Reg.PWR_STATUS_STATE = 3) ∧ (s.log.island.length < 64)) (((((((({ State.reset with pwr := { State.reset.pwr with keepAt := some 5 }, mem := [(5, 7#8)], frame := 9, twn := { State.reset.twn with claim := true }, log := { State.reset.log with flash := [(3, [1#8])] } }).setF Reg.PWR_STATUS_STATE 3).setF Reg.PWR_KEEP_CFG_WAKE_S 60).setF Reg.PWR_KEEP_CFG_WAKE_I 2).setF Reg.PKL_CFG_EN 1).setF Reg.PKL_CFG_NODES 3).setF Reg.PKL_CHAIN 4660)) 5000 (State.onAir State.reset 1 (beBytes 12 0x15001234FE03000101020009)) (beBytes 12 0x15001234FE03000101020009)) ∧
    ((fun (s : State) (now : Nat) => (s.canonical = true) ∧ (s.getF Reg.EST_STATUS_SHIP_STEP = 6) ∧ (s.log.queue = []) ∧ (s.log.spill = []) ∧ (s.log.page = []) ∧ (s.dead = false)) ((({ State.reset with mem := [(5, 7#8)], frame := 9, twn := { State.reset.twn with claim := true }, log := { State.reset.log with flash := [(3, [1#8])] } }).setF Reg.EST_STATUS_SHIP_STEP 6)) 5000) := by
  repeat refine And.intro (by decide +kernel) ?_
  decide +kernel

theorem test_meets_HostInterruptsLinesSmbusAndAperture :
    ((fun (s : State) (v now : Nat) => (s.canonical = true) ∧ (v < 15) ∧ (s.getF Reg.SYS_IRQ_CAUSE v &&& s.getF Reg.SYS_IRQ_CAUSE_EN v ≠ 0) ∧ (bitOf (s.getF Reg.SYS_IRQ_EN) v = true) ∧ (bitOf s.irq.armed v = true) ∧ (bitOf s.irq.masked v = false) ∧ (s.irq.functionMask = false) ∧ (s.irqHeld v now = false) ∧ (s.host.perst = false) ∧ (s.host.link = 0) ∧ (s.host.d3 = false) ∧ (s.runs 14 = true)) ({ ((((State.reset.setRuns 14 true).setF Reg.SYS_IRQ_CAUSE 1 0).setF Reg.SYS_IRQ_CAUSE_EN 1 0).setF Reg.SYS_IRQ_EN 1) with host := { (((((State.reset.setRuns 14 true).setF Reg.SYS_IRQ_CAUSE 1 0).setF Reg.SYS_IRQ_CAUSE_EN 1 0).setF Reg.SYS_IRQ_EN 1)).host with perst := false, link := 0 }, irq := { (((((State.reset.setRuns 14 true).setF Reg.SYS_IRQ_CAUSE 1 0).setF Reg.SYS_IRQ_CAUSE_EN 1 0).setF Reg.SYS_IRQ_EN 1)).irq with masked := 0 } }) 0 5000) ∧
    ((fun (s : State) (v now : Nat) => (s.canonical = true) ∧ (v < 15) ∧ (s.getF Reg.SYS_IRQ_CAUSE v &&& s.getF Reg.SYS_IRQ_CAUSE_EN v ≠ 0) ∧ (bitOf (s.getF Reg.SYS_IRQ_EN) v = true) ∧ (bitOf s.irq.armed v = true) ∧ (bitOf s.irq.masked v = false) ∧ (s.irq.functionMask = false) ∧ (s.irqHeld v now = false) ∧ (s.host.perst = false) ∧ (s.host.link = 0) ∧ (s.host.d3 = false) ∧ (s.runs 14 = true)) ({ ((((State.reset.setRuns 14 true).setF Reg.SYS_IRQ_CAUSE 8 14).setF Reg.SYS_IRQ_CAUSE_EN 12 14).setF Reg.SYS_IRQ_EN 16384) with host := { (((((State.reset.setRuns 14 true).setF Reg.SYS_IRQ_CAUSE 8 14).setF Reg.SYS_IRQ_CAUSE_EN 12 14).setF Reg.SYS_IRQ_EN 16384)).host with perst := false, link := 0 }, irq := { (((((State.reset.setRuns 14 true).setF Reg.SYS_IRQ_CAUSE 8 14).setF Reg.SYS_IRQ_CAUSE_EN 12 14).setF Reg.SYS_IRQ_EN 16384)).irq with masked := 0 } }) 14 5000) ∧
    ((fun (s : State) (v now : Nat) => (s.canonical = true) ∧ (v < 15) ∧ (s.getF Reg.SYS_IRQ_CAUSE v &&& s.getF Reg.SYS_IRQ_CAUSE_EN v ≠ 0) ∧ (bitOf (s.getF Reg.SYS_IRQ_EN) v = true) ∧ (bitOf s.irq.armed v = true) ∧ (bitOf s.irq.masked v = true ∨ s.irq.functionMask = true)) ({ ((((State.reset.setRuns 14 true).setF Reg.SYS_IRQ_CAUSE 1 0).setF Reg.SYS_IRQ_CAUSE_EN 1 0).setF Reg.SYS_IRQ_EN 1) with host := { (((((State.reset.setRuns 14 true).setF Reg.SYS_IRQ_CAUSE 1 0).setF Reg.SYS_IRQ_CAUSE_EN 1 0).setF Reg.SYS_IRQ_EN 1)).host with perst := false, link := 0 }, irq := { (((((State.reset.setRuns 14 true).setF Reg.SYS_IRQ_CAUSE 1 0).setF Reg.SYS_IRQ_CAUSE_EN 1 0).setF Reg.SYS_IRQ_EN 1)).irq with masked := 0, functionMask := true } }) 0 5000) ∧
    ((fun (s : State) (v now : Nat) => (s.canonical = true) ∧ (v < 15) ∧ ((s.getF Reg.SYS_IRQ_CAUSE v &&& s.getF Reg.SYS_IRQ_CAUSE_EN v = 0 ∨ bitOf (s.getF Reg.SYS_IRQ_EN) v = false) ∨ bitOf s.irq.armed v = false)) ({ ((((State.reset.setRuns 14 true).setF Reg.SYS_IRQ_CAUSE 1 0).setF Reg.SYS_IRQ_CAUSE_EN 1 0).setF Reg.SYS_IRQ_EN 1) with host := { (((((State.reset.setRuns 14 true).setF Reg.SYS_IRQ_CAUSE 1 0).setF Reg.SYS_IRQ_CAUSE_EN 1 0).setF Reg.SYS_IRQ_EN 1)).host with perst := false, link := 0 }, irq := { (((((State.reset.setRuns 14 true).setF Reg.SYS_IRQ_CAUSE 1 0).setF Reg.SYS_IRQ_CAUSE_EN 1 0).setF Reg.SYS_IRQ_EN 1)).irq with masked := 0, armed := 0, pba := 1 } }) 0 5000) ∧
    ((fun (s : State) (v now : Nat) => (s.canonical = true) ∧ (v < 15) ∧ (s.getF Reg.SYS_IRQ_CAUSE v &&& s.getF Reg.SYS_IRQ_CAUSE_EN v ≠ 0) ∧ (bitOf (s.getF Reg.SYS_IRQ_EN) v = true) ∧ (bitOf s.irq.armed v = true) ∧ (bitOf s.irq.masked v = false) ∧ (s.irq.functionMask = false) ∧ (s.irqHeld v now = false) ∧ (s.host.perst = true ∨ s.host.link ≠ 0 ∨ s.host.d3 = true ∨ s.runs 14 = false)) ({ ((((State.reset.setRuns 14 true).setF Reg.SYS_IRQ_CAUSE 1 0).setF Reg.SYS_IRQ_CAUSE_EN 1 0).setF Reg.SYS_IRQ_EN 1) with host := { (((((State.reset.setRuns 14 true).setF Reg.SYS_IRQ_CAUSE 1 0).setF Reg.SYS_IRQ_CAUSE_EN 1 0).setF Reg.SYS_IRQ_EN 1)).host with perst := false, link := 1 }, irq := { (((((State.reset.setRuns 14 true).setF Reg.SYS_IRQ_CAUSE 1 0).setF Reg.SYS_IRQ_CAUSE_EN 1 0).setF Reg.SYS_IRQ_EN 1)).irq with masked := 0 } }) 0 5000) ∧
    ((fun (s : State) (v now : Nat) => (s.canonical = true) ∧ (v < 15) ∧ (s.getF Reg.SYS_IRQ_CAUSE v &&& s.getF Reg.SYS_IRQ_CAUSE_EN v ≠ 0) ∧ (bitOf (s.getF Reg.SYS_IRQ_EN) v = true) ∧ (bitOf s.irq.armed v = true) ∧ (bitOf s.irq.masked v = false) ∧ (s.irq.functionMask = false) ∧ (s.irqHeld v now = true)) (({ ((((State.reset.setRuns 14 true).setF Reg.SYS_IRQ_CAUSE 1 0).setF Reg.SYS_IRQ_CAUSE_EN 1 0).setF Reg.SYS_IRQ_EN 1) with host := { (((((State.reset.setRuns 14 true).setF Reg.SYS_IRQ_CAUSE 1 0).setF Reg.SYS_IRQ_CAUSE_EN 1 0).setF Reg.SYS_IRQ_EN 1)).host with perst := false, link := 0 }, irq := { (((((State.reset.setRuns 14 true).setF Reg.SYS_IRQ_CAUSE 1 0).setF Reg.SYS_IRQ_CAUSE_EN 1 0).setF Reg.SYS_IRQ_EN 1)).irq with masked := 0, sentAt := [(0, some 4500)] } } : State).setF Reg.SYS_IRQ_HOLDOFF 100) 0 5000) ∧
    ((fun (s : State) (v now : Nat) => (s.canonical = true) ∧ (15 ≤ v)) ({ ((((State.reset.setRuns 14 true).setF Reg.SYS_IRQ_CAUSE 1 0).setF Reg.SYS_IRQ_CAUSE_EN 1 0).setF Reg.SYS_IRQ_EN 1) with host := { (((((State.reset.setRuns 14 true).setF Reg.SYS_IRQ_CAUSE 1 0).setF Reg.SYS_IRQ_CAUSE_EN 1 0).setF Reg.SYS_IRQ_EN 1)).host with perst := false, link := 0 }, irq := { (((((State.reset.setRuns 14 true).setF Reg.SYS_IRQ_CAUSE 1 0).setF Reg.SYS_IRQ_CAUSE_EN 1 0).setF Reg.SYS_IRQ_EN 1)).irq with masked := 0 } }) 15 5000) ∧
    ((fun (s : State) (mask now v : Nat) => (s.canonical = true) ∧ (mask = 2 ^ v) ∧ (v < 15) ∧ (s.getF Reg.SYS_IRQ_CAUSE v &&& s.getF Reg.SYS_IRQ_CAUSE_EN v ≠ 0) ∧ (bitOf (s.getF Reg.SYS_IRQ_EN) v = true) ∧ (bitOf s.irq.masked v = false) ∧ (s.irq.functionMask = false) ∧ (s.irqHeld v now = false) ∧ (s.host.perst = false) ∧ (s.host.link = 0) ∧ (s.host.d3 = false) ∧ (s.runs 14 = true)) ({ ((((State.reset.setRuns 14 true).setF Reg.SYS_IRQ_CAUSE 1 0).setF Reg.SYS_IRQ_CAUSE_EN 1 0).setF Reg.SYS_IRQ_EN 1) with host := { (((((State.reset.setRuns 14 true).setF Reg.SYS_IRQ_CAUSE 1 0).setF Reg.SYS_IRQ_CAUSE_EN 1 0).setF Reg.SYS_IRQ_EN 1)).host with perst := false, link := 0 }, irq := { (((((State.reset.setRuns 14 true).setF Reg.SYS_IRQ_CAUSE 1 0).setF Reg.SYS_IRQ_CAUSE_EN 1 0).setF Reg.SYS_IRQ_EN 1)).irq with masked := 0, armed := 0 } }) 1 5000 0) ∧
    ((fun (s : State) (mask now : Nat) => (s.canonical = true) ∧ (∀ v ∈ List.range 15, bitOf mask v = true → s.irqPends v = false)) ({ ((((State.reset.setRuns 14 true).setF Reg.SYS_IRQ_CAUSE 1 0).setF Reg.SYS_IRQ_CAUSE_EN 1 0).setF Reg.SYS_IRQ_EN 0) with host := { (((((State.reset.setRuns 14 true).setF Reg.SYS_IRQ_CAUSE 1 0).setF Reg.SYS_IRQ_CAUSE_EN 1 0).setF Reg.SYS_IRQ_EN 0)).host with perst := false, link := 0 }, irq := { (((((State.reset.setRuns 14 true).setF Reg.SYS_IRQ_CAUSE 1 0).setF Reg.SYS_IRQ_CAUSE_EN 1 0).setF Reg.SYS_IRQ_EN 0)).irq with masked := 0, armed := 0, pba := 3 } }) 0x7FFF 5000) ∧
    ((fun (s : State) (v : Nat) (masked : Bool) (now : Nat) => (s.canonical = true) ∧ (v < 16) ∧ (bitOf s.irq.pba v = false)) ({ ((((State.reset.setRuns 14 true).setF Reg.SYS_IRQ_CAUSE 1 0).setF Reg.SYS_IRQ_CAUSE_EN 1 0).setF Reg.SYS_IRQ_EN 1) with host := { (((((State.reset.setRuns 14 true).setF Reg.SYS_IRQ_CAUSE 1 0).setF Reg.SYS_IRQ_CAUSE_EN 1 0).setF Reg.SYS_IRQ_EN 1)).host with perst := false, link := 0 }, irq := { (((((State.reset.setRuns 14 true).setF Reg.SYS_IRQ_CAUSE 1 0).setF Reg.SYS_IRQ_CAUSE_EN 1 0).setF Reg.SYS_IRQ_EN 1)).irq with masked := 0 } }) 15 true 5000) ∧
    ((fun (s : State) (v : Nat) (masked : Bool) (now : Nat) => (s.canonical = true) ∧ (masked = false) ∧ (bitOf s.irq.pba v = true) ∧ (v < 15) ∧ (s.getF Reg.SYS_IRQ_CAUSE v &&& s.getF Reg.SYS_IRQ_CAUSE_EN v ≠ 0) ∧ (bitOf (s.getF Reg.SYS_IRQ_EN) v = true) ∧ (bitOf s.irq.armed v = true) ∧ (s.irq.functionMask = false) ∧ (s.irqHeld v now = false) ∧ (s.host.perst = false) ∧ (s.host.link = 0) ∧ (s.host.d3 = false) ∧ (s.runs 14 = true)) ({ ((((State.reset.setRuns 14 true).setF Reg.SYS_IRQ_CAUSE 1 0).setF Reg.SYS_IRQ_CAUSE_EN 1 0).setF Reg.SYS_IRQ_EN 1) with host := { (((((State.reset.setRuns 14 true).setF Reg.SYS_IRQ_CAUSE 1 0).setF Reg.SYS_IRQ_CAUSE_EN 1 0).setF Reg.SYS_IRQ_EN 1)).host with perst := false, link := 0 }, irq := { (((((State.reset.setRuns 14 true).setF Reg.SYS_IRQ_CAUSE 1 0).setF Reg.SYS_IRQ_CAUSE_EN 1 0).setF Reg.SYS_IRQ_EN 1)).irq with masked := 1, pba := 1 } }) 0 false 5000) ∧
    ((fun (s : State) (v : Nat) (masked : Bool) (now : Nat) => (s.canonical = true) ∧ (masked = false) ∧ (bitOf s.irq.pba v = true) ∧ (v < 15) ∧ ((s.getF Reg.SYS_IRQ_CAUSE v &&& s.getF Reg.SYS_IRQ_CAUSE_EN v = 0 ∨ bitOf (s.getF Reg.SYS_IRQ_EN) v = false))) ({ ((((State.reset.setRuns 14 true).setF Reg.SYS_IRQ_CAUSE 1 0).setF Reg.SYS_IRQ_CAUSE_EN 1 0).setF Reg.SYS_IRQ_EN 0) with host := { (((((State.reset.setRuns 14 true).setF Reg.SYS_IRQ_CAUSE 1 0).setF Reg.SYS_IRQ_CAUSE_EN 1 0).setF Reg.SYS_IRQ_EN 0)).host with perst := false, link := 0 }, irq := { (((((State.reset.setRuns 14 true).setF Reg.SYS_IRQ_CAUSE 1 0).setF Reg.SYS_IRQ_CAUSE_EN 1 0).setF Reg.SYS_IRQ_EN 0)).irq with masked := 0, pba := 1 } }) 0 false 5000) ∧
    ((fun (s : State) (v : Nat) (masked : Bool) (now : Nat) => (s.canonical = true) ∧ (17 ≤ v)) ({ ((((State.reset.setRuns 14 true).setF Reg.SYS_IRQ_CAUSE 1 0).setF Reg.SYS_IRQ_CAUSE_EN 1 0).setF Reg.SYS_IRQ_EN 1) with host := { (((((State.reset.setRuns 14 true).setF Reg.SYS_IRQ_CAUSE 1 0).setF Reg.SYS_IRQ_CAUSE_EN 1 0).setF Reg.SYS_IRQ_EN 1)).host with perst := false, link := 0 }, irq := { (((((State.reset.setRuns 14 true).setF Reg.SYS_IRQ_CAUSE 1 0).setF Reg.SYS_IRQ_CAUSE_EN 1 0).setF Reg.SYS_IRQ_EN 1)).irq with masked := 0 } }) 17 true 5000) ∧
    ((fun (s : State) (v : Nat) (masked : Bool) (now : Nat) => (s.canonical = true) ∧ (v = 16) ∧ (masked = true ∨ s.irq.pba = 0)) ({ ((((State.reset.setRuns 14 true).setF Reg.SYS_IRQ_CAUSE 1 0).setF Reg.SYS_IRQ_CAUSE_EN 1 0).setF Reg.SYS_IRQ_EN 1) with host := { (((((State.reset.setRuns 14 true).setF Reg.SYS_IRQ_CAUSE 1 0).setF Reg.SYS_IRQ_CAUSE_EN 1 0).setF Reg.SYS_IRQ_EN 1)).host with perst := false, link := 0 }, irq := { (((((State.reset.setRuns 14 true).setF Reg.SYS_IRQ_CAUSE 1 0).setF Reg.SYS_IRQ_CAUSE_EN 1 0).setF Reg.SYS_IRQ_EN 1)).irq with masked := 0, functionMask := true } }) 16 false 5000) ∧
    ((fun (s : State) (v k : Nat) (masked : Bool) (now : Nat) => (s.canonical = true) ∧ (v = 16) ∧ (masked = false) ∧ (k < 15) ∧ (s.irq.pba = 2 ^ k) ∧ (s.getF Reg.SYS_IRQ_CAUSE k &&& s.getF Reg.SYS_IRQ_CAUSE_EN k ≠ 0) ∧ (bitOf (s.getF Reg.SYS_IRQ_EN) k = true) ∧ (bitOf s.irq.armed k = true) ∧ (bitOf s.irq.masked k = false) ∧ (s.irqHeld k now = false) ∧ (s.host.perst = false) ∧ (s.host.link = 0) ∧ (s.host.d3 = false) ∧ (s.runs 14 = true)) ({ ((((State.reset.setRuns 14 true).setF Reg.SYS_IRQ_CAUSE 1 0).setF Reg.SYS_IRQ_CAUSE_EN 1 0).setF Reg.SYS_IRQ_EN 1) with host := { (((((State.reset.setRuns 14 true).setF Reg.SYS_IRQ_CAUSE 1 0).setF Reg.SYS_IRQ_CAUSE_EN 1 0).setF Reg.SYS_IRQ_EN 1)).host with perst := false, link := 0 }, irq := { (((((State.reset.setRuns 14 true).setF Reg.SYS_IRQ_CAUSE 1 0).setF Reg.SYS_IRQ_CAUSE_EN 1 0).setF Reg.SYS_IRQ_EN 1)).irq with masked := 0, functionMask := true, pba := 1 } }) 16 0 false 5000) ∧
    ((fun (s : State) (v now : Nat) => (s.canonical = true) ∧ (v < 15) ∧ (bitOf s.irq.holdoff v = true) ∧ (s.irqHeld v now = false) ∧ (s.getF Reg.SYS_IRQ_CAUSE v &&& s.getF Reg.SYS_IRQ_CAUSE_EN v ≠ 0) ∧ (bitOf (s.getF Reg.SYS_IRQ_EN) v = true) ∧ (bitOf s.irq.armed v = true) ∧ (bitOf s.irq.masked v = false) ∧ (s.irq.functionMask = false) ∧ (s.host.perst = false) ∧ (s.host.link = 0) ∧ (s.host.d3 = false) ∧ (s.runs 14 = true)) (({ ((((State.reset.setRuns 14 true).setF Reg.SYS_IRQ_CAUSE 1 0).setF Reg.SYS_IRQ_CAUSE_EN 1 0).setF Reg.SYS_IRQ_EN 1) with host := { (((((State.reset.setRuns 14 true).setF Reg.SYS_IRQ_CAUSE 1 0).setF Reg.SYS_IRQ_CAUSE_EN 1 0).setF Reg.SYS_IRQ_EN 1)).host with perst := false, link := 0 }, irq := { (((((State.reset.setRuns 14 true).setF Reg.SYS_IRQ_CAUSE 1 0).setF Reg.SYS_IRQ_CAUSE_EN 1 0).setF Reg.SYS_IRQ_EN 1)).irq with masked := 0, holdoff := 1, sentAt := [(0, some 4500)] } } : State).setF Reg.SYS_IRQ_HOLDOFF 100) 0 500000) ∧
    ((fun (s : State) (v now : Nat) => (s.canonical = true) ∧ (v < 15) ∧ (bitOf s.irq.holdoff v = true) ∧ (s.irqHeld v now = false) ∧ ((s.getF Reg.SYS_IRQ_CAUSE v &&& s.getF Reg.SYS_IRQ_CAUSE_EN v = 0 ∨ bitOf (s.getF Reg.SYS_IRQ_EN) v = false))) ({ ((((State.reset.setRuns 14 true).setF Reg.SYS_IRQ_CAUSE 1 0).setF Reg.SYS_IRQ_CAUSE_EN 1 0).setF Reg.SYS_IRQ_EN 0) with host := { (((((State.reset.setRuns 14 true).setF Reg.SYS_IRQ_CAUSE 1 0).setF Reg.SYS_IRQ_CAUSE_EN 1 0).setF Reg.SYS_IRQ_EN 0)).host with perst := false, link := 0 }, irq := { (((((State.reset.setRuns 14 true).setF Reg.SYS_IRQ_CAUSE 1 0).setF Reg.SYS_IRQ_CAUSE_EN 1 0).setF Reg.SYS_IRQ_EN 0)).irq with masked := 0, holdoff := 1 } }) 0 5000) ∧
    ((fun (s : State) (v now : Nat) => (s.canonical = true) ∧ (bitOf s.irq.holdoff v = false ∨ 15 ≤ v ∨ s.irqHeld v now = true)) ({ ((((State.reset.setRuns 14 true).setF Reg.SYS_IRQ_CAUSE 1 0).setF Reg.SYS_IRQ_CAUSE_EN 1 0).setF Reg.SYS_IRQ_EN 1) with host := { (((((State.reset.setRuns 14 true).setF Reg.SYS_IRQ_CAUSE 1 0).setF Reg.SYS_IRQ_CAUSE_EN 1 0).setF Reg.SYS_IRQ_EN 1)).host with perst := false, link := 0 }, irq := { (((((State.reset.setRuns 14 true).setF Reg.SYS_IRQ_CAUSE 1 0).setF Reg.SYS_IRQ_CAUSE_EN 1 0).setF Reg.SYS_IRQ_EN 1)).irq with masked := 0 } }) 0 5000) ∧
    ((fun (s : State) (link : Nat) => (s.canonical = true) ∧ (link ≤ 2) ∧ (s.host.perst = false ∨ link = 2)) (({ ((((State.reset.setRuns 14 true).setF Reg.SYS_IRQ_CAUSE 1 0).setF Reg.SYS_IRQ_CAUSE_EN 1 0).setF Reg.SYS_IRQ_EN 1) with host := { (((((State.reset.setRuns 14 true).setF Reg.SYS_IRQ_CAUSE 1 0).setF Reg.SYS_IRQ_CAUSE_EN 1 0).setF Reg.SYS_IRQ_EN 1)).host with perst := false, link := 0 }, irq := { (((((State.reset.setRuns 14 true).setF Reg.SYS_IRQ_CAUSE 1 0).setF Reg.SYS_IRQ_CAUSE_EN 1 0).setF Reg.SYS_IRQ_EN 1)).irq with masked := 0 } } : State).setF Reg.SYS_IRQ_WAKE 1) 1) ∧
    ((fun (s : State) (link : Nat) => (s.canonical = true) ∧ (link ≤ 2) ∧ (s.host.perst = false ∨ link = 2)) ({ ((((State.reset.setRuns 14 true).setF Reg.SYS_IRQ_CAUSE 1 0).setF Reg.SYS_IRQ_CAUSE_EN 1 0).setF Reg.SYS_IRQ_EN 1) with host := { (((((State.reset.setRuns 14 true).setF Reg.SYS_IRQ_CAUSE 1 0).setF Reg.SYS_IRQ_CAUSE_EN 1 0).setF Reg.SYS_IRQ_EN 1)).host with perst := false, link := 0 }, irq := { (((((State.reset.setRuns 14 true).setF Reg.SYS_IRQ_CAUSE 1 0).setF Reg.SYS_IRQ_CAUSE_EN 1 0).setF Reg.SYS_IRQ_EN 1)).irq with masked := 0 } }) 0) ∧
    ((fun (s : State) (link : Nat) => (s.canonical = true) ∧ (s.host.perst = true) ∧ (link ≠ 2)) (State.reset) 0) ∧
    ((fun (s : State) (d3 : Bool) => (s.canonical = true) ∧ (s.host.perst = false)) ({ ((((State.reset.setRuns 14 true).setF Reg.SYS_IRQ_CAUSE 1 0).setF Reg.SYS_IRQ_CAUSE_EN 1 0).setF Reg.SYS_IRQ_EN 1) with host := { (((((State.reset.setRuns 14 true).setF Reg.SYS_IRQ_CAUSE 1 0).setF Reg.SYS_IRQ_CAUSE_EN 1 0).setF Reg.SYS_IRQ_EN 1)).host with perst := false, link := 0 }, irq := { (((((State.reset.setRuns 14 true).setF Reg.SYS_IRQ_CAUSE 1 0).setF Reg.SYS_IRQ_CAUSE_EN 1 0).setF Reg.SYS_IRQ_EN 1)).irq with masked := 0 } }) true) ∧
    ((fun (s : State) (d3 : Bool) => (s.canonical = true) ∧ (s.host.perst = true)) (State.reset) true) ∧
    ((fun (s : State) (cmd a d : Nat) (stale : Bool) => (s.canonical = true) ∧ (s.runs 33 = true) ∧ ((cmd, a, d) ∈ ([(0x00, 0x0, 40), (0x01, 0x4, 40), (0x02, 0x8, 40), (0x03, 0xC, 40), (0x04, 0x80, 40), (0x05, 0x20000, 40), (0x06, 0x20014, 40), (0x07, 0x20010, 40), (0x08, 0x20020, 40), (0x09, 0x20024, 40), (0x0A, 0xD0000, 1), (0x0B, 0xE0000, 39), (0x0C, 0xF0000, 34), (0x0D, 0x104, 40), (0x0E, 0x20030, 40), (0x0F, 0x20034, 40)] : List (Nat × Nat × Nat))) ∧ (s.runs d = false)) (State.reset) 0xA 0xD0000 1 false) ∧
    ((fun (s : State) (cmd a d : Nat) (stale : Bool) => (s.canonical = true) ∧ (s.runs 33 = true) ∧ ((cmd, a, d) ∈ ([(0x00, 0x0, 40), (0x01, 0x4, 40), (0x02, 0x8, 40), (0x03, 0xC, 40), (0x04, 0x80, 40), (0x05, 0x20000, 40), (0x06, 0x20014, 40), (0x07, 0x20010, 40), (0x08, 0x20020, 40), (0x09, 0x20024, 40), (0x0A, 0xD0000, 1), (0x0B, 0xE0000, 39), (0x0C, 0xF0000, 34), (0x0D, 0x104, 40), (0x0E, 0x20030, 40), (0x0F, 0x20034, 40)] : List (Nat × Nat × Nat))) ∧ (s.runs d = true) ∧ (stale = false)) (State.reset) 8 0x20020 40 false) ∧
    ((fun (s : State) (cmd a d : Nat) (stale : Bool) => (s.canonical = true) ∧ (s.runs 33 = true) ∧ ((cmd, a, d) ∈ ([(0x00, 0x0, 40), (0x01, 0x4, 40), (0x02, 0x8, 40), (0x03, 0xC, 40), (0x04, 0x80, 40), (0x05, 0x20000, 40), (0x06, 0x20014, 40), (0x07, 0x20010, 40), (0x08, 0x20020, 40), (0x09, 0x20024, 40), (0x0A, 0xD0000, 1), (0x0B, 0xE0000, 39), (0x0C, 0xF0000, 34), (0x0D, 0x104, 40), (0x0E, 0x20030, 40), (0x0F, 0x20034, 40)] : List (Nat × Nat × Nat))) ∧ (s.runs d = true) ∧ (stale = false)) (State.reset) 0 0 40 false) ∧
    ((fun (s : State) (cmd a d : Nat) (stale : Bool) => (s.canonical = true) ∧ (s.runs 33 = true) ∧ ((cmd, a, d) ∈ ([(0x00, 0x0, 40), (0x01, 0x4, 40), (0x02, 0x8, 40), (0x03, 0xC, 40), (0x04, 0x80, 40), (0x05, 0x20000, 40), (0x06, 0x20014, 40), (0x07, 0x20010, 40), (0x08, 0x20020, 40), (0x09, 0x20024, 40), (0x0A, 0xD0000, 1), (0x0B, 0xE0000, 39), (0x0C, 0xF0000, 34), (0x0D, 0x104, 40), (0x0E, 0x20030, 40), (0x0F, 0x20034, 40)] : List (Nat × Nat × Nat))) ∧ (s.runs d = true) ∧ (stale = true) ∧ (Sparse.at none s.host.smbLast cmd = none)) (State.reset) 5 0x20000 40 true) ∧
    ((fun (s : State) (cmd a d v : Nat) (stale : Bool) => (s.canonical = true) ∧ (s.runs 33 = true) ∧ ((cmd, a, d) ∈ ([(0x00, 0x0, 40), (0x01, 0x4, 40), (0x02, 0x8, 40), (0x03, 0xC, 40), (0x04, 0x80, 40), (0x05, 0x20000, 40), (0x06, 0x20014, 40), (0x07, 0x20010, 40), (0x08, 0x20020, 40), (0x09, 0x20024, 40), (0x0A, 0xD0000, 1), (0x0B, 0xE0000, 39), (0x0C, 0xF0000, 34), (0x0D, 0x104, 40), (0x0E, 0x20030, 40), (0x0F, 0x20034, 40)] : List (Nat × Nat × Nat))) ∧ (s.runs d = true) ∧ (stale = true) ∧ (Sparse.at none s.host.smbLast cmd = some v)) (({ State.reset with host := { State.reset.host with smbLast := [(5, some 77)] } })) 5 0x20000 40 77 true) ∧
    ((fun (s : State) (cmd : Nat) (stale : Bool) => (s.canonical = true) ∧ (s.runs 33 = false)) ((State.reset.setRuns 33 false)) 1 false) ∧
    ((fun (s : State) => (s.canonical = true) ∧ (s.runs 33 = false)) ((State.reset.setRuns 33 false))) ∧
    ((fun (s : State) (cmd : Nat) (stale : Bool) => (s.canonical = true) ∧ (16 ≤ cmd)) (State.reset) 16 false) ∧
    ((fun (s : State) => (s.canonical = true) ∧ (s.runs 33 = true) ∧ (s.getF Reg.SYS_IRQ_CAUSE 1 ≠ 0)) (State.reset.setF Reg.SYS_IRQ_CAUSE 4 1)) ∧
    ((fun (s : State) => (s.canonical = true) ∧ (s.getF Reg.SYS_IRQ_CAUSE 1 = 0)) (State.reset)) ∧
    ((fun (s : State) (off n a : Nat) (bads : List (List (Nat × Nat))) => (s.canonical = true) ∧ (s.host.perst = false) ∧ (s.host.d3 = false) ∧ (s.runs 22 = true) ∧ (s.runs 14 = true) ∧ ((s.waiting.any fun (x : Access) => decide (x.path = 0)) = false) ∧ (a = s.getF Reg.MEMWIN_BASE_LO_BASE_LO * 65536 + s.getF Reg.MEMWIN_BASE_HI_BASE_HI * 2 ^ 32 + off) ∧ (off + n ≤ 2 ^ 32) ∧ (bads = []) ∧ (s.isF Reg.CTX_STATUS_READY = true) ∧ (a + n ≤ 2 ^ 37) ∧ (((List.range n).all fun k => decide (stackRange (a + k) ∉ [2, 3, 4]) && !Sparse.at false s.poison ((a + k) / 64)) = true)) ((((({ ((State.reset.setRuns 14 true).setRuns 22 true) with host := { State.reset.host with perst := false }, mem := [(0x1080000013, 7#8), (0x1080000044, 9#8)] } : State).setF Reg.CTX_STATUS_READY 1).setF Reg.MEMWIN_BASE_LO_BASE_LO 32768).setF Reg.MEMWIN_BASE_HI_BASE_HI 16)) 0x10 100 0x1080000010 []) ∧
    ((fun (s : State) (off n a : Nat) (bads : List (List (Nat × Nat))) => (s.canonical = true) ∧ (s.host.perst = false) ∧ (s.host.d3 = false) ∧ (s.runs 22 = true) ∧ (s.runs 14 = true) ∧ ((s.waiting.any fun (x : Access) => decide (x.path = 0)) = false) ∧ (a = s.getF Reg.MEMWIN_BASE_LO_BASE_LO * 65536 + s.getF Reg.MEMWIN_BASE_HI_BASE_HI * 2 ^ 32 + off) ∧ (off + n ≤ 2 ^ 32) ∧ (0 < n) ∧ (a % 64 + n ≤ 64) ∧ ((stackRange a = 2 ∨ stackRange a = 3 ∨ stackRange a = 4 ∨ s.isF Reg.CTX_STATUS_READY = false))) (((((({ ((State.reset.setRuns 14 true).setRuns 22 true) with host := { State.reset.host with perst := false }, mem := [(0x1080000013, 7#8), (0x1080000044, 9#8)] } : State).setF Reg.CTX_STATUS_READY 1).setF Reg.MEMWIN_BASE_LO_BASE_LO 32768).setF Reg.MEMWIN_BASE_HI_BASE_HI 16).setF Reg.MEMWIN_BASE_LO_BASE_LO 16384)) 0x10 4 0x1040000010 []) ∧
    ((fun (s : State) (off n a : Nat) (bads : List (List (Nat × Nat))) => (s.canonical = true) ∧ (s.host.perst = false) ∧ (s.host.d3 = false) ∧ (s.runs 22 = true) ∧ (s.runs 14 = true) ∧ ((s.waiting.any fun (x : Access) => decide (x.path = 0)) = false) ∧ (a = s.getF Reg.MEMWIN_BASE_LO_BASE_LO * 65536 + s.getF Reg.MEMWIN_BASE_HI_BASE_HI * 2 ^ 32 + off) ∧ (off + n ≤ 2 ^ 32) ∧ (0 < n) ∧ (a % 64 + n ≤ 64) ∧ (s.isF Reg.CTX_STATUS_READY = true) ∧ (a + n ≤ 2 ^ 37) ∧ (stackRange a ∉ [2, 3, 4]) ∧ (Sparse.at false s.poison (a / 64) = true)) ((((({ ((State.reset.setRuns 14 true).setRuns 22 true) with host := { State.reset.host with perst := false }, mem := [(0x1080000013, 7#8), (0x1080000044, 9#8)], poison := [((0x1080000000 / 64), true)] } : State).setF Reg.CTX_STATUS_READY 1).setF Reg.MEMWIN_BASE_LO_BASE_LO 32768).setF Reg.MEMWIN_BASE_HI_BASE_HI 16)) 0x10 4 0x1080000010 []) ∧
    ((fun (s : State) (off n a : Nat) (bads : List (List (Nat × Nat))) => (s.canonical = true) ∧ (s.host.perst = false) ∧ (s.host.d3 = false) ∧ (s.runs 22 = true) ∧ (s.runs 14 = true) ∧ ((s.waiting.any fun (x : Access) => decide (x.path = 0)) = false) ∧ (a = s.getF Reg.MEMWIN_BASE_LO_BASE_LO * 65536 + s.getF Reg.MEMWIN_BASE_HI_BASE_HI * 2 ^ 32 + off) ∧ (off + n ≤ 2 ^ 32) ∧ (0 < n) ∧ (a % 64 + n ≤ 64) ∧ (s.isF Reg.CTX_STATUS_READY = true) ∧ (a + n ≤ 2 ^ 37) ∧ (stackRange a ∉ [2, 3, 4]) ∧ (Sparse.at false s.poison (a / 64) = false) ∧ (rsDecode (bads.getD 0 []) = RsResult.corrected)) ((((({ ((State.reset.setRuns 14 true).setRuns 22 true) with host := { State.reset.host with perst := false }, mem := [(0x1080000013, 7#8), (0x1080000044, 9#8)] } : State).setF Reg.CTX_STATUS_READY 1).setF Reg.MEMWIN_BASE_LO_BASE_LO 32768).setF Reg.MEMWIN_BASE_HI_BASE_HI 16)) 0x10 4 0x1080000010 [[(3, 9)]]) ∧
    ((fun (s : State) (off n a : Nat) (bads : List (List (Nat × Nat))) => (s.canonical = true) ∧ (s.host.perst = false) ∧ (s.host.d3 = false) ∧ (s.runs 22 = true) ∧ (s.runs 14 = true) ∧ ((s.waiting.any fun (x : Access) => decide (x.path = 0)) = false) ∧ (a = s.getF Reg.MEMWIN_BASE_LO_BASE_LO * 65536 + s.getF Reg.MEMWIN_BASE_HI_BASE_HI * 2 ^ 32 + off) ∧ (off + n ≤ 2 ^ 32) ∧ (0 < n) ∧ (a % 64 + n ≤ 64) ∧ (s.isF Reg.CTX_STATUS_READY = true) ∧ (a + n ≤ 2 ^ 37) ∧ (stackRange a ∉ [2, 3, 4]) ∧ (Sparse.at false s.poison (a / 64) = false) ∧ (rsDecode (bads.getD 0 []) = RsResult.found)) ((((({ ((State.reset.setRuns 14 true).setRuns 22 true) with host := { State.reset.host with perst := false }, mem := [(0x1080000013, 7#8), (0x1080000044, 9#8)] } : State).setF Reg.CTX_STATUS_READY 1).setF Reg.MEMWIN_BASE_LO_BASE_LO 32768).setF Reg.MEMWIN_BASE_HI_BASE_HI 16)) 0x10 4 0x1080000010 [[(3, 9), (4, 1), (5, 1)]]) ∧
    ((fun (s : State) (off a : Nat) (bytes : List Byte) => (s.canonical = true) ∧ (s.host.perst = false) ∧ (s.host.d3 = false) ∧ (s.runs 22 = true) ∧ (s.runs 14 = true) ∧ ((s.waiting.any fun (x : Access) => decide (x.path = 0)) = false) ∧ (a = s.getF Reg.MEMWIN_BASE_LO_BASE_LO * 65536 + s.getF Reg.MEMWIN_BASE_HI_BASE_HI * 2 ^ 32 + off) ∧ (off + bytes.length ≤ 2 ^ 32) ∧ (s.isF Reg.CTX_STATUS_READY = true) ∧ (a + bytes.length ≤ 2 ^ 37) ∧ (((List.range bytes.length).all fun k => decide (stackRange (a + k) = 5 ∨ stackRange (a + k) = 8) && !Sparse.at false s.poison ((a + k) / 64)) = true)) ((((({ ((State.reset.setRuns 14 true).setRuns 22 true) with host := { State.reset.host with perst := false }, mem := [(0x1080000013, 7#8), (0x1080000044, 9#8)] } : State).setF Reg.CTX_STATUS_READY 1).setF Reg.MEMWIN_BASE_LO_BASE_LO 32768).setF Reg.MEMWIN_BASE_HI_BASE_HI 16)) 0x3E 0x108000003E (leBytes 70 0x123456789)) ∧
    ((fun (s : State) (off a : Nat) (bytes : List Byte) => (s.canonical = true) ∧ (s.host.perst = false) ∧ (s.host.d3 = false) ∧ (s.runs 22 = true) ∧ (s.runs 14 = true) ∧ ((s.waiting.any fun (x : Access) => decide (x.path = 0)) = false) ∧ (a = s.getF Reg.MEMWIN_BASE_LO_BASE_LO * 65536 + s.getF Reg.MEMWIN_BASE_HI_BASE_HI * 2 ^ 32 + off) ∧ (off + bytes.length ≤ 2 ^ 32) ∧ (0 < bytes.length) ∧ (a % 64 + bytes.length ≤ 64) ∧ (stackRange a ∈ [1, 2, 3, 4, 7] ∨ s.isF Reg.CTX_STATUS_READY = false ∨ (stackRange a = 0 ∧ ((s.desc (a / 0x400000)).kind ≠ kindJob ∨ 0x300000 ≤ a % 0x400000)) ∨ (stackRange a = 6 ∧ s.partState (slotOf a / 32) = partRunning ∧ bitOf (s.part (slotOf a / 32)).slot (slotOf a % 32 / 2) = decide (slotOf a % 2 = 1)) ∨ (bytes.length < 64 ∧ Sparse.at false s.poison (a / 64) = true))) ((((({ ((State.reset.setRuns 14 true).setRuns 22 true) with host := { State.reset.host with perst := false }, mem := [(0x1080000013, 7#8), (0x1080000044, 9#8)], poison := [((0x1080000000 / 64), true)] } : State).setF Reg.CTX_STATUS_READY 1).setF Reg.MEMWIN_BASE_LO_BASE_LO 32768).setF Reg.MEMWIN_BASE_HI_BASE_HI 16)) 0x10 0x1080000010 [1#8]) ∧
    ((fun (s : State) (off a : Nat) (bytes : List Byte) => (s.canonical = true) ∧ (s.host.perst = false) ∧ (s.host.d3 = false) ∧ (s.runs 22 = true) ∧ (s.runs 14 = true) ∧ ((s.waiting.any fun (x : Access) => decide (x.path = 0)) = false) ∧ (a = s.getF Reg.MEMWIN_BASE_LO_BASE_LO * 65536 + s.getF Reg.MEMWIN_BASE_HI_BASE_HI * 2 ^ 32 + off) ∧ (off + bytes.length ≤ 2 ^ 32) ∧ (0 < bytes.length) ∧ (a % 64 + bytes.length ≤ 64) ∧ (stackRange a ∈ [1, 2, 3, 4, 7] ∨ s.isF Reg.CTX_STATUS_READY = false ∨ (stackRange a = 0 ∧ ((s.desc (a / 0x400000)).kind ≠ kindJob ∨ 0x300000 ≤ a % 0x400000)) ∨ (stackRange a = 6 ∧ s.partState (slotOf a / 32) = partRunning ∧ bitOf (s.part (slotOf a / 32)).slot (slotOf a % 32 / 2) = decide (slotOf a % 2 = 1)) ∨ (bytes.length < 64 ∧ Sparse.at false s.poison (a / 64) = true))) (((((({ ((State.reset.setRuns 14 true).setRuns 22 true) with host := { State.reset.host with perst := false } } : State).setF Reg.CTX_STATUS_READY 1).setF Reg.MEMWIN_BASE_LO_BASE_LO 32768).setF Reg.MEMWIN_BASE_HI_BASE_HI 16).setF Reg.MEMWIN_BASE_LO_BASE_LO 16384)) 0 0x1040000000 (List.replicate 64 1#8)) ∧
    ((fun (s : State) (off a : Nat) (bytes : List Byte) => (s.canonical = true) ∧ (s.host.perst = false) ∧ (s.host.d3 = false) ∧ (s.runs 22 = true) ∧ (s.runs 14 = true) ∧ ((s.waiting.any fun (x : Access) => decide (x.path = 0)) = false) ∧ (a = s.getF Reg.MEMWIN_BASE_LO_BASE_LO * 65536 + s.getF Reg.MEMWIN_BASE_HI_BASE_HI * 2 ^ 32 + off) ∧ (off + bytes.length ≤ 2 ^ 32) ∧ (s.isF Reg.CTX_STATUS_READY = true) ∧ (a % 64 + bytes.length ≤ 64) ∧ (Sparse.at false s.poison (a / 64) = false) ∧ ((stackRange a = 0 ∧ (s.desc (a / 0x400000)).kind = kindJob ∧ a % 0x400000 < 0x300000) ∨ (stackRange a = 6 ∧ (s.partState (slotOf a / 32) ≠ partRunning ∨ bitOf (s.part (slotOf a / 32)).slot (slotOf a % 32 / 2) ≠ decide (slotOf a % 2 = 1))))) ((((((({ ((State.reset.setRuns 14 true).setRuns 22 true) with host := { State.reset.host with perst := false } } : State).setF Reg.CTX_STATUS_READY 1).setF Reg.MEMWIN_BASE_LO_BASE_LO 32768).setF Reg.MEMWIN_BASE_HI_BASE_HI 16).setF Reg.MEMWIN_BASE_LO_BASE_LO 0).setF Reg.MEMWIN_BASE_HI_BASE_HI 18)) 3 0x1200000003 [5#8]) ∧
    ((fun (s : State) (off a : Nat) (bytes : List Byte) => (s.canonical = true) ∧ (s.host.perst = false) ∧ (s.host.d3 = false) ∧ (s.runs 22 = true) ∧ (s.runs 14 = true) ∧ ((s.waiting.any fun (x : Access) => decide (x.path = 0)) = false) ∧ (a = s.getF Reg.MEMWIN_BASE_LO_BASE_LO * 65536 + s.getF Reg.MEMWIN_BASE_HI_BASE_HI * 2 ^ 32 + off) ∧ (off + bytes.length ≤ 2 ^ 32) ∧ (s.isF Reg.CTX_STATUS_READY = true) ∧ (a % 64 + bytes.length ≤ 64) ∧ (Sparse.at false s.poison (a / 64) = false) ∧ ((stackRange a = 0 ∧ (s.desc (a / 0x400000)).kind = kindJob ∧ a % 0x400000 < 0x300000) ∨ (stackRange a = 6 ∧ (s.partState (slotOf a / 32) ≠ partRunning ∨ bitOf (s.part (slotOf a / 32)).slot (slotOf a % 32 / 2) ≠ decide (slotOf a % 2 = 1))))) ((((((({ ((State.reset.setRuns 14 true).setRuns 22 true) with ctx := { State.reset.ctx with desc := [(2, { kind := 2 })] }, host := { State.reset.host with perst := false } } : State).setF Reg.CTX_STATUS_READY 1).setF Reg.MEMWIN_BASE_LO_BASE_LO 32768).setF Reg.MEMWIN_BASE_HI_BASE_HI 16).setF Reg.MEMWIN_BASE_LO_BASE_LO 128).setF Reg.MEMWIN_BASE_HI_BASE_HI 0)) 3 0x800003 [5#8]) ∧
    ((fun (s : State) (off a : Nat) (bytes : List Byte) => (s.canonical = true) ∧ (s.host.perst = false) ∧ (s.host.d3 = false) ∧ (s.runs 22 = true) ∧ (s.runs 14 = true) ∧ ((s.waiting.any fun (x : Access) => decide (x.path = 0)) = false) ∧ (a = s.getF Reg.MEMWIN_BASE_LO_BASE_LO * 65536 + s.getF Reg.MEMWIN_BASE_HI_BASE_HI * 2 ^ 32 + off) ∧ (off + bytes.length ≤ 2 ^ 32) ∧ (s.isF Reg.CTX_STATUS_READY = true) ∧ (a % 64 = 0) ∧ (bytes.length = 64) ∧ (stackRange a = 5) ∧ (Sparse.at false s.poison (a / 64) = true)) ((((({ ((State.reset.setRuns 14 true).setRuns 22 true) with host := { State.reset.host with perst := false }, mem := [(0x1080000013, 7#8), (0x1080000044, 9#8)], poison := [((0x1080000000 / 64), true)] } : State).setF Reg.CTX_STATUS_READY 1).setF Reg.MEMWIN_BASE_LO_BASE_LO 32768).setF Reg.MEMWIN_BASE_HI_BASE_HI 16)) 0 0x1080000000 (List.replicate 64 3#8)) ∧
    ((fun (s : State) (off n : Nat) (bads : List (List (Nat × Nat))) => (s.canonical = true) ∧ (s.host.perst = false) ∧ (s.host.d3 = false) ∧ (off + n ≤ 2 ^ 32) ∧ (s.runs 22 = false ∨ s.runs 14 = false ∨ (s.waiting.any fun (x : Access) => decide (x.path = 0)) = true)) ({ ((((State.reset.setRuns 14 true).setF Reg.SYS_IRQ_CAUSE 1 0).setF Reg.SYS_IRQ_CAUSE_EN 1 0).setF Reg.SYS_IRQ_EN 1) with host := { (((((State.reset.setRuns 14 true).setF Reg.SYS_IRQ_CAUSE 1 0).setF Reg.SYS_IRQ_CAUSE_EN 1 0).setF Reg.SYS_IRQ_EN 1)).host with perst := false, link := 0 }, irq := { (((((State.reset.setRuns 14 true).setF Reg.SYS_IRQ_CAUSE 1 0).setF Reg.SYS_IRQ_CAUSE_EN 1 0).setF Reg.SYS_IRQ_EN 1)).irq with masked := 0 } }) 64 4 []) ∧
    ((fun (s : State) (off : Nat) (bytes : List Byte) => (s.canonical = true) ∧ (s.host.perst = false) ∧ (s.host.d3 = false) ∧ (off + bytes.length ≤ 2 ^ 32) ∧ (s.runs 22 = false ∨ s.runs 14 = false ∨ (s.waiting.any fun (x : Access) => decide (x.path = 0)) = true)) ({ ((((State.reset.setRuns 14 true).setF Reg.SYS_IRQ_CAUSE 1 0).setF Reg.SYS_IRQ_CAUSE_EN 1 0).setF Reg.SYS_IRQ_EN 1) with host := { (((((State.reset.setRuns 14 true).setF Reg.SYS_IRQ_CAUSE 1 0).setF Reg.SYS_IRQ_CAUSE_EN 1 0).setF Reg.SYS_IRQ_EN 1)).host with perst := false, link := 0 }, irq := { (((((State.reset.setRuns 14 true).setF Reg.SYS_IRQ_CAUSE 1 0).setF Reg.SYS_IRQ_CAUSE_EN 1 0).setF Reg.SYS_IRQ_EN 1)).irq with masked := 0 } }) 64 [1#8, 2#8]) ∧
    ((fun (s : State) (off n : Nat) (bads : List (List (Nat × Nat))) => (s.canonical = true) ∧ (s.host.perst = true ∨ s.host.d3 = true ∨ 2 ^ 32 < off + n)) (State.reset) 64 4 []) ∧
    ((fun (s : State) (off : Nat) (bytes : List Byte) => (s.canonical = true) ∧ (s.host.perst = true ∨ s.host.d3 = true ∨ 2 ^ 32 < off + bytes.length)) (State.reset) 64 [1#8]) := by
  repeat refine And.intro (by decide +kernel) ?_
  decide +kernel

theorem test_meets_RegisterWritesUnderTheirAccessCodes :
    ((fun (s : State) (path addr size value now : Nat) (row : RegRow) => (s.canonical = true) ∧ (s.carries path addr = true) ∧ (size = 4) ∧ (value < 2 ^ 32) ∧ (regRow? addr = some row) ∧ (plainAddr addr = true) ∧ (s.takesWrite addr value = true) ∧ (row.pair = 0) ∧ (row.sx = false) ∧ (s.layerBits addr = 0) ∧ (s.logicBanks addr = 0) ∧ (s.hostWrite = none ∨ pathOwner path = 0x40)) (({ State.reset with host := { State.reset.host with perst := false } } : State)) 0 0x44 4 0xFFFFFFFF 5000 ((regRow? 0x44).getD ⟨0, 0, 0, 0, 0, 0, 0, 0, 0, false, 0⟩)) ∧
    ((fun (s : State) (path addr size value now : Nat) (row : RegRow) => (s.canonical = true) ∧ (s.carries path addr = true) ∧ (size = 4) ∧ (value < 2 ^ 32) ∧ (regRow? addr = some row) ∧ (plainAddr addr = true) ∧ (s.takesWrite addr value = true) ∧ (row.pair = 0) ∧ (row.sx = false) ∧ (s.layerBits addr = 0) ∧ (s.logicBanks addr = 0) ∧ (s.hostWrite = none ∨ pathOwner path = 0x40)) (((({ (State.reset.setRuns 1 true) with host := { State.reset.host with perst := false } } : State)).setF Reg.LCS_STATUS_LOCK 0)) 2 0x60 4 0x80000005 5000 ((regRow? 0x60).getD ⟨0, 0, 0, 0, 0, 0, 0, 0, 0, false, 0⟩)) ∧
    ((fun (s : State) (path addr size value now : Nat) (row : RegRow) => (s.canonical = true) ∧ (s.carries path addr = true) ∧ (size = 4) ∧ (value < 2 ^ 32) ∧ (regRow? addr = some row) ∧ (plainAddr addr = true) ∧ (s.takesWrite addr value = true) ∧ (row.pair = 0) ∧ (row.sx = false) ∧ (s.layerBits addr = 0) ∧ (s.logicBanks addr = 0) ∧ (s.hostWrite = none ∨ pathOwner path = 0x40)) (((({ (State.reset.setRuns 1 true) with host := { State.reset.host with perst := false } } : State)).setF Reg.LCS_STATUS_LOCK 1)) 2 0x60 4 0x80000005 5000 ((regRow? 0x60).getD ⟨0, 0, 0, 0, 0, 0, 0, 0, 0, false, 0⟩)) ∧
    ((fun (s : State) (path addr size value now : Nat) (row : RegRow) => (s.canonical = true) ∧ (s.carries path addr = true) ∧ (size = 4) ∧ (value < 2 ^ 32) ∧ (regRow? addr = some row) ∧ (plainAddr addr = true) ∧ (s.takesWrite addr value = true) ∧ (row.pair = 0) ∧ (row.sx = false) ∧ (s.layerBits addr = 0) ∧ (s.logicBanks addr = 0) ∧ (s.hostWrite = none ∨ pathOwner path = 0x40)) ((({ (State.reset.setRuns 1 true) with host := { State.reset.host with perst := false } } : State).setF Reg.SYS_IRQ_CAUSE 7 1)) 1 0x104 4 0x5 5000 ((regRow? 0x104).getD ⟨0, 0, 0, 0, 0, 0, 0, 0, 0, false, 0⟩)) ∧
    ((fun (s : State) (path addr size value now : Nat) (row : RegRow) => (s.canonical = true) ∧ (s.carries path addr = true) ∧ (size = 4) ∧ (value < 2 ^ 32) ∧ (regRow? addr = some row) ∧ (plainAddr addr = true) ∧ (s.takesWrite addr value = true) ∧ (row.pair = 0) ∧ (row.sx = false) ∧ (s.layerBits addr = 0) ∧ (s.logicBanks addr = 0) ∧ (s.hostWrite = none ∨ pathOwner path = 0x40)) ((({ (State.reset.setRuns 1 true) with host := { State.reset.host with perst := false } } : State).setF Reg.TWN_STATUS_LOCK 1)) 1 0x41008 4 0x12345 5000 ((regRow? 0x41008).getD ⟨0, 0, 0, 0, 0, 0, 0, 0, 0, false, 0⟩)) ∧
    ((fun (s : State) (path addr size value now : Nat) (row : RegRow) => (s.canonical = true) ∧ (s.carries path addr = true) ∧ (size = 4) ∧ (value < 2 ^ 32) ∧ (regRow? addr = some row) ∧ (plainAddr addr = true) ∧ (s.takesWrite addr value = true) ∧ (row.pair = 0) ∧ (row.sx = false) ∧ (s.layerBits addr = 0) ∧ (s.logicBanks addr = 0) ∧ (s.hostWrite = none ∨ pathOwner path = 0x40)) (({ (State.reset.setRuns 1 true) with host := { State.reset.host with perst := false } } : State)) 3 0x90000 4 0xFFFFFFFF 5000 ((regRow? 0x90000).getD ⟨0, 0, 0, 0, 0, 0, 0, 0, 0, false, 0⟩)) ∧
    ((fun (s : State) (path addr size value now : Nat) (row : RegRow) (h : Nat) => (s.canonical = true) ∧ (s.carries path addr = true) ∧ (size = 4) ∧ (value < 2 ^ 32) ∧ (regRow? addr = some row) ∧ (plainAddr addr = true) ∧ (s.takesWrite addr value = true) ∧ (row.pair = 0) ∧ (row.sx = false) ∧ (s.layerBits addr = 0) ∧ (s.logicBanks addr = 0) ∧ (pathOwner path = 0x41) ∧ (s.hostWrite = some (addr, h, now))) (({ State.reset with host := { State.reset.host with perst := false }, hostWrite := some (0x44, 9, 5000) } : State)) 2 0x44 4 0xFFFFFFF0 5000 ((regRow? 0x44).getD ⟨0, 0, 0, 0, 0, 0, 0, 0, 0, false, 0⟩) 9) ∧
    ((fun (s : State) (path addr size value now : Nat) (row : RegRow) (n : Nat) => (s.canonical = true) ∧ (s.carries path addr = true) ∧ (size = 4) ∧ (value < 2 ^ 32) ∧ (regRow? addr = some row) ∧ (n < 96) ∧ (addr = Reg.LT_CTL.addr n 0) ∧ (s.laneChangeRefused addr value = false) ∧ (s.layerBits addr = 0) ∧ (s.hostWrite = none ∨ pathOwner path = 0x40)) (({ (State.reset.setRuns 1 true) with host := { State.reset.host with perst := false } } : State)) 1 0x51600 4 0x80000000 5000 ((regRow? 0x51600).getD ⟨0, 0, 0, 0, 0, 0, 0, 0, 0, false, 0⟩) 3) ∧
    ((fun (s : State) (path addr size value now : Nat) (row : RegRow) (n : Nat) => (s.canonical = true) ∧ (s.carries path addr = true) ∧ (size = 4) ∧ (value < 2 ^ 32) ∧ (regRow? addr = some row) ∧ (n < 96) ∧ (addr = Reg.LT_CTL.addr n 0) ∧ (s.laneChangeRefused addr value = false) ∧ (s.layerBits addr = 0) ∧ (s.hostWrite = none ∨ pathOwner path = 0x40)) (({ (State.reset.setRuns 1 true) with host := { State.reset.host with perst := false }, lt := { State.reset.lt with tile := [(3, { cut := true })] } } : State)) 1 0x51600 4 0x4000000 5000 ((regRow? 0x51600).getD ⟨0, 0, 0, 0, 0, 0, 0, 0, 0, false, 0⟩) 3) ∧
    ((fun (s : State) (path addr size value now : Nat) (row : RegRow) => (s.canonical = true) ∧ (s.carries path addr = true) ∧ (size = 4) ∧ (value < 2 ^ 32) ∧ (regRow? addr = some row) ∧ (plainAddr addr = true) ∧ (s.takesWrite addr value = true) ∧ (row.pair = 0) ∧ (row.sx = false) ∧ (s.layerBits addr &&& (row.rw ||| row.rwl) ≠ 0) ∧ (addr ≠ Reg.CFG_LOCKED_WRITES.addr 0 0) ∧ (s.logicBanks addr = 0) ∧ (s.hostWrite = none ∨ pathOwner path = 0x40)) (({ (State.reset.setRuns 1 true) with host := { State.reset.host with perst := false }, cfg := { State.reset.cfg with locked := [1], active := [⟨1, 0, 0, []⟩] } } : State)) 1 0x41000 4 0x12345 5000 ((regRow? 0x41000).getD ⟨0, 0, 0, 0, 0, 0, 0, 0, 0, false, 0⟩)) ∧
    ((fun (s : State) (path addr size value now : Nat) => (s.canonical = true) ∧ (s.carries path addr = true) ∧ (size = 4) ∧ (regRow? addr = none)) (({ State.reset with host := { State.reset.host with perst := false } } : State)) 1 0x2C 4 9 5000) ∧
    ((fun (s : State) (path addr size value now : Nat) => (s.canonical = true) ∧ (path < 5) ∧ (path ≠ 0 ∨ (s.host.perst = false ∧ s.host.d3 = false)) ∧ (addr % accessBytes size = 0) ∧ (blockDomain addr ≠ none) ∧ (size < 4)) (({ State.reset with host := { State.reset.host with perst := false } } : State)) 0 0x44 2 9 5000) ∧
    ((fun (s : State) (path addr size value now : Nat) => (s.canonical = true) ∧ (path < 5) ∧ (path ≠ 0 ∨ (s.host.perst = false ∧ s.host.d3 = false)) ∧ (addr % accessBytes size ≠ 0) ∧ (blockDomain addr ≠ none) ∧ (size ≤ 4)) (({ State.reset with host := { State.reset.host with perst := false } } : State)) 4 0x46 4 9 5000) ∧
    ((fun (s : State) (path addr size value now : Nat) => (s.canonical = true) ∧ (path < 5) ∧ (path ≠ 0 ∨ (s.host.perst = false ∧ s.host.d3 = false)) ∧ (addr % accessBytes size ≠ 0) ∧ (blockDomain addr ≠ none) ∧ (size ≤ 4)) (({ State.reset with host := { State.reset.host with perst := false } } : State)) 4 0x45 2 9 5000) ∧
    ((fun (s : State) (path addr size value now : Nat) => (s.canonical = true) ∧ (path < 5) ∧ (path ≠ 0 ∨ (s.host.perst = false ∧ s.host.d3 = false)) ∧ (addr % accessBytes size ≠ 0) ∧ (blockDomain addr = none) ∧ (size ≤ 4)) (({ State.reset with host := { State.reset.host with perst := false } } : State)) 4 0x130002 4 9 5000) ∧
    ((fun (s : State) (path addr size value now : Nat) => (s.canonical = true) ∧ (size = 8) ∧ (value < 2 ^ 64)) (({ State.reset with host := { State.reset.host with perst := false } } : State)) 1 0x44 8 0x500000009 5000) ∧
    ((fun (s : State) (path addr size value now : Nat) => (s.canonical = true) ∧ (path < 5) ∧ (path ≠ 0 ∨ (s.host.perst = false ∧ s.host.d3 = false)) ∧ (addr % accessBytes size = 0) ∧ (blockDomain addr = none) ∧ (size ≤ 4)) (({ State.reset with host := { State.reset.host with perst := false } } : State)) 4 0x130000 4 9 5000) ∧
    ((fun (s : State) (path addr size value now : Nat) => (s.canonical = true) ∧ (path < 5) ∧ (path ≠ 0 ∨ (s.host.perst = false ∧ s.host.d3 = false)) ∧ (addr % 4 = 0) ∧ (blockDomain addr ≠ none) ∧ (size = 4) ∧ (value < 2 ^ 32) ∧ (s.answers addr = false ∨ (s.waiting.any fun (x : Access) => decide (x.path = path)) = true)) (({ State.reset with host := { State.reset.host with perst := false } } : State)) 1 0x30008 4 9 5000) ∧
    ((fun (s : State) (path addr size value now : Nat) => (s.canonical = true) ∧ (5 ≤ path ∨ (path = 0 ∧ (s.host.perst = true ∨ s.host.d3 = true))) ∧ (size ≤ 4)) (State.reset) 0 0x44 4 9 5000) ∧
    ((fun (s : State) (path addr size value now : Nat) (f : Fld) (c : Instr) => (s.canonical = true) ∧ (s.carries path addr = true) ∧ (size = 4) ∧ (value < 2 ^ 32) ∧ ((f, value, c) ∈ ([(Reg.CFG_CMD, 3, Instr.cfgAbort path), (Reg.CFG_CMD, 5, .cfgClear path), (Reg.TH_PART_CMD, 1, .partLoad 0), (Reg.CTX_CMD, 1, .ctxAlloc path 0 now), (Reg.HNT_CMD, 1, .hntDiscover), (Reg.CPC_CMD, 1, .contractSet now), (Reg.LDG_CMD, 3, .stepDown now), (Reg.SNAP_CMD, 1, .snapArm), (Reg.PKL_CMD, 1, .enumerate now), (Reg.EST_CMD, 6, .estAuth), (Reg.TWN_CMD, 2, .twnSwitch), (Reg.PWR_CMD, 2, .pwrRun now), (Reg.CLK_CMD, 1, .clkSwitch), (Reg.LOG_CMD, 1, .logFreeze now), (Reg.LCS_CMD, 3, .lcLock), (Reg.WB_CMD, 1, .wbHold), (Reg.SYS_IRQ_ACK, 8, .irqAck 8 now)] : List (Fld × Nat × Instr))) ∧ (addr = f.addr 0 0)) (((({ (State.reset.setRuns 1 true) with host := { State.reset.host with perst := false } } : State)).setF Reg.CFG_STATUS_STATE 1)) 1 0xB0004 4 1 5000 Reg.PKL_CMD (.enumerate 5000)) ∧
    ((fun (s : State) (path addr size value now : Nat) => (s.canonical = true) ∧ (s.carries path addr = true) ∧ (size = 4) ∧ (value < 2 ^ 32) ∧ (0x1000 ≤ addr) ∧ (addr < 0x1080) ∧ (bitOf value 30 = false) ∧ (s.getF Reg.CFG_OWN_OWNER ((addr - 0x1000) / 4) ≠ pathOwner path)) (((({ State.reset with host := { State.reset.host with perst := false } } : State)).setF Reg.CFG_OWN_OWNER 0x41 2)) 1 0x1008 4 0x1000000 5000) ∧
    ((fun (s : State) (path addr size value now : Nat) => (s.canonical = true) ∧ (s.carries path addr = true) ∧ (size = 4) ∧ (value < 2 ^ 32) ∧ (0x5F800 ≤ addr) ∧ (addr < 0x5F900) ∧ ((addr - 0x5F800) % 16 ≠ 12) ∧ (s.getF Reg.CFG_OWN_OWNER (0x170 + (addr - 0x5F800) / 16) ≠ pathOwner path)) (({ (State.reset.setRuns 1 true) with host := { State.reset.host with perst := false } } : State)) 1 0x5F824 4 77 5000) ∧
    ((fun (s : State) (path addr size value now : Nat) => (s.canonical = true) ∧ (s.carries path addr = true) ∧ (size = 4) ∧ (value < 2 ^ 32) ∧ (0x101000 ≤ addr) ∧ (addr < 0x101800) ∧ (regRow? addr ≠ none) ∧ (s.getF Reg.CFG_OWN_OWNER (0x180 + (addr - 0x101000) / 32) ≠ pathOwner path)) (({ (State.reset.setRuns 22 true) with host := { State.reset.host with perst := false } } : State)) 1 0x101024 4 77 5000) ∧
    ((fun (s : State) (path addr size value now : Nat) (n : Nat) => (s.canonical = true) ∧ (s.carries path addr = true) ∧ (size = 4) ∧ (value < 2 ^ 32) ∧ (n < 96) ∧ (addr = Reg.LT_CTL.addr n 0) ∧ (s.layerBits addr = 0) ∧ ((s.tile n).run = true) ∧ (bitOf (s.rd addr).toNat 26 ≠ bitOf value 26)) (({ (State.reset.setRuns 1 true) with host := { State.reset.host with perst := false }, lt := { State.reset.lt with tile := [(3, { run := true })] } } : State)) 1 0x51600 4 0x4000000 5000 3) ∧
    ((fun (s : State) (path addr size value now : Nat) (c : Nat) => (s.canonical = true) ∧ (s.carries path addr = true) ∧ (size = 4) ∧ (value < 2 ^ 32) ∧ (c < 4) ∧ (addr = Reg.PWM_CONV_PERIOD.addr c 0) ∧ (s.convOn c = true) ∧ (s.layerBits addr = 0)) (({ ({ (State.reset.setRuns 2 true) with host := { State.reset.host with perst := false } } : State) with eff := [(0x60140, 0x84000000#32)] } : State)) 1 0x60144 4 77 5000 1) ∧
    ((fun (s : State) (path addr size value now : Nat) (p k : Nat) => (s.canonical = true) ∧ (s.carries path addr = true) ∧ (size = 4) ∧ (value < 2 ^ 32) ∧ (p < 16) ∧ (k < 39) ∧ (s.layerBits addr = 0) ∧ (addr = 0x1001000 + 256 * p + 4 * k) ∧ (s.partState p = partLoading ∨ s.partState p = partReady ∨ s.partState p = partRunning)) (((({ (State.reset.setRuns 1 true) with host := { State.reset.host with perst := false } } : State)).setF Reg.TH_PART_STAT_STATE 2 3)) 1 0x1001304 4 77 5000 3 1) ∧
    ((fun (s : State) (path addr size value now : Nat) (n i : Nat) => (s.canonical = true) ∧ (s.carries path addr = true) ∧ (size = 4) ∧ (value < 2 ^ 32) ∧ (n < 96) ∧ (i < 10) ∧ (s.isE Reg.LT_CTL_SWAP_SRC n = true) ∧ (addr = 0x51000 + 512 * n + (if s.bank n = true then 0x80 else 0x40) + 4 * i) ∧ (regRow? addr ≠ none) ∧ (s.partRefused addr = false) ∧ (s.layerBits addr = 0)) (({ ({ (State.reset.setRuns 1 true) with host := { State.reset.host with perst := false } } : State) with eff := [(0x51600, 0xFFFFFFFF#32)] } : State)) 1 0x51640 4 77 5000 3 0) ∧
    ((fun (s : State) (path addr size value now : Nat) => (s.canonical = true) ∧ (s.carries path addr = true) ∧ (size = 4) ∧ (value < 2 ^ 32) ∧ (addr = Reg.CPC_ORDER.addr 0 0) ∧ (value / 2 ^ 24 ∉ [0x06, 0x09, 0x12, 0x18, 0x21, 0x24]) ∧ (s.layerBits addr = 0)) (({ (State.reset.setRuns 1 true) with host := { State.reset.host with perst := false } } : State)) 1 0x90010 4 0x15000000 5000) := by
  repeat refine And.intro (by decide +kernel) ?_
  decide +kernel

theorem test_meets_PairsManagementPortAndWaitingAccesses :
    ((fun (s : State) (path addr size : Nat) => (s.canonical = true) ∧ (s.carries path addr = true) ∧ (size = 4) ∧ (pathWord (addr) = false) ∧ (pathWord (addr + 4) = false) ∧ (addr ∉ [0x18, 0x40, 0x3000008]) ∧ (windowOf (addr) = none) ∧ (pairRole addr = 1)) (((({ (State.reset.setRuns 34 true) with host := { State.reset.host with perst := false } } : State)).setF Reg.LCS_SRC_ADDR_HI 9)) 1 0xF0008 4) ∧
    ((fun (s : State) (path addr size : Nat) => (s.canonical = true) ∧ (s.carries path addr = true) ∧ (size = 4) ∧ (addr = 0x18)) (({ State.reset with host := { State.reset.host with perst := false }, frame := 0x500000007 } : State)) 1 0x18 4) ∧
    ((fun (s : State) (path addr size : Nat) (hi : Nat) => (s.canonical = true) ∧ (s.carries path addr = true) ∧ (size = 4) ∧ (pairRole addr = 2) ∧ (windowOf (addr) = none) ∧ (Sparse.find s.latch path = some (addr - 4, hi))) (({ (State.reset.setRuns 34 true) with host := { State.reset.host with perst := false }, latch := [(1, (0xF0008, 77))] } : State)) 1 0xF000C 4 77) ∧
    ((fun (s : State) (path addr size : Nat) => (s.canonical = true) ∧ (s.carries path addr = true) ∧ (size = 4) ∧ (pairRole addr = 2) ∧ (windowOf (addr) = none) ∧ ((Sparse.find s.latch path).map (fun (e : Nat × Nat) => e.1) ≠ some (addr - 4))) (({ (State.reset.setRuns 34 true) with host := { State.reset.host with perst := false }, latch := [(0, (0xF0008, 77))] } : State)) 1 0xF000C 4) ∧
    ((fun (s : State) (path addr size : Nat) => (s.canonical = true) ∧ (s.carries path addr = true) ∧ (size = 4) ∧ (pathWord (addr) = false) ∧ (pathWord (addr + 4) = false) ∧ (addr ∉ [0x18, 0x40, 0x3000008]) ∧ (windowOf (addr) = none) ∧ (addr ≠ Reg.EST_REC.addr 0 0) ∧ (addr ≠ Reg.SNS_CC_ACC0.addr 40 0) ∧ (addr ≠ Reg.SNS_CC_ACC0.addr 41 0) ∧ (addr ≠ 0x1C) ∧ (pairRole (addr) = 0)) (({ State.reset with host := { State.reset.host with perst := false } } : State)) 0 0x44 4) ∧
    ((fun (s : State) (path addr size : Nat) => (s.canonical = true) ∧ (size = 1 ∨ size = 2) ∧ (addr % size = 0) ∧ (s.carries path (addr / 4 * 4) = true) ∧ (windowOf (addr) = none) ∧ (pathWord (addr / 4 * 4) = false) ∧ (pairRole (addr / 4 * 4) = 0) ∧ (addr / 4 * 4 ∉ [0x1C, 0x40, 0x3000008]) ∧ (addr / 4 * 4 ≠ Reg.EST_REC.addr 0 0) ∧ (addr / 4 * 4 ≠ Reg.SNS_CC_ACC0.addr 40 0) ∧ (addr / 4 * 4 ≠ Reg.SNS_CC_ACC0.addr 41 0)) (({ (State.reset.setRuns 34 true) with host := { State.reset.host with perst := false } } : State)) 1 0x46 2) ∧
    ((fun (s : State) (path addr size : Nat) => (s.canonical = true) ∧ (size = 1 ∨ size = 2) ∧ (addr % size = 0) ∧ (s.carries path (addr / 4 * 4) = true) ∧ (windowOf (addr) = none) ∧ (pathWord (addr / 4 * 4) = false) ∧ (pairRole (addr / 4 * 4) = 0) ∧ (addr / 4 * 4 ∉ [0x1C, 0x40, 0x3000008]) ∧ (addr / 4 * 4 ≠ Reg.EST_REC.addr 0 0) ∧ (addr / 4 * 4 ≠ Reg.SNS_CC_ACC0.addr 40 0) ∧ (addr / 4 * 4 ≠ Reg.SNS_CC_ACC0.addr 41 0)) ((({ State.reset with host := { State.reset.host with perst := false } } : State).setF Reg.SYS_IRQ_CAUSE 0x1234 1)) 0 0x105 1) ∧
    ((fun (s : State) (path addr size : Nat) => (s.canonical = true) ∧ (path < 5) ∧ (path ≠ 0 ∨ (s.host.perst = false ∧ s.host.d3 = false)) ∧ (addr % accessBytes size ≠ 0) ∧ (blockDomain addr ≠ none) ∧ (size ≤ 4)) (({ State.reset with host := { State.reset.host with perst := false } } : State)) 0 0x46 4) ∧
    ((fun (s : State) (path addr size : Nat) => (s.canonical = true) ∧ (path < 5) ∧ (path ≠ 0 ∨ (s.host.perst = false ∧ s.host.d3 = false)) ∧ (addr % accessBytes size = 0) ∧ (blockDomain addr = none) ∧ (size ≤ 4)) (({ State.reset with host := { State.reset.host with perst := false } } : State)) 0 0x130000 4) ∧
    ((fun (s : State) (path addr size : Nat) => (s.canonical = true) ∧ (path < 5) ∧ (path ≠ 0 ∨ (s.host.perst = false ∧ s.host.d3 = false)) ∧ (addr % accessBytes size = 0) ∧ (blockDomain addr ≠ none) ∧ (size ≤ 4) ∧ (s.answers addr = false ∨ (s.waiting.any fun (x : Access) => decide (x.path = path)) = true)) (({ State.reset with host := { State.reset.host with perst := false } } : State)) 1 0x30008 4) ∧
    ((fun (s : State) (path addr size : Nat) => (s.canonical = true) ∧ (5 ≤ path ∨ (path = 0 ∧ (s.host.perst = true ∨ s.host.d3 = true))) ∧ (size ≤ 4)) (State.reset) 0 0x44 4) ∧
    ((fun (s : State) (path addr value now : Nat) => (pairRole addr ≠ 1)) (({ State.reset with host := { State.reset.host with perst := false } } : State)) 1 0x44 5 5000) ∧
    ((fun (s : State) (path addr value now : Nat) => (pairRole addr ≠ 2)) (({ State.reset with host := { State.reset.host with perst := false } } : State)) 1 0x44 5 5000) ∧
    ((fun (s : State) (path addr value now : Nat) => (s.canonical = true) ∧ (s.carries path addr = true) ∧ (pairRole addr = 1) ∧ (value < 2 ^ 32) ∧ (windowOf (addr) = none)) (({ (State.reset.setRuns 34 true) with host := { State.reset.host with perst := false } } : State)) 1 0xF0008 77 5000) ∧
    ((fun (s : State) (path addr value now vlo : Nat) (row lo : RegRow) => (s.canonical = true) ∧ (s.carries path addr = true) ∧ (pairRole addr = 2) ∧ (value < 2 ^ 32) ∧ (regRow? addr = some row) ∧ (row.rw = 0xFFFFFFFF) ∧ (row.sx = false) ∧ (regRow? (addr - 4) = some lo) ∧ (lo.rw = 0xFFFFFFFF) ∧ (lo.sx = false) ∧ (plainAddr addr = true) ∧ (plainAddr (addr - 4) = true) ∧ (addr < 0x40000 ∨ 0x80000 ≤ addr) ∧ (s.layerBits addr = 0) ∧ (s.layerBits (addr - 4) = 0) ∧ (s.partRefused addr = false) ∧ (s.partRefused (addr - 4) = false) ∧ (addr ≠ Reg.LOG_RD_SEQ_LO.addr 0 0 + 4) ∧ (row.rwl = 0) ∧ (lo.rwl = 0) ∧ (s.logicBanks addr = 0) ∧ (s.logicBanks (addr - 4) = 0) ∧ (s.hostWrite = none ∨ pathOwner path = 0x40) ∧ (Sparse.find s.held path = some (addr - 4, vlo))) (({ (State.reset.setRuns 34 true) with host := { State.reset.host with perst := false }, held := [(1, (0xF0008, 77))] } : State)) 1 0xF000C 5 5000 77 ((regRow? 0xF000C).getD ⟨0, 0, 0, 0, 0, 0, 0, 0, 0, false, 0⟩) ((regRow? 0xF0008).getD ⟨0, 0, 0, 0, 0, 0, 0, 0, 0, false, 0⟩)) ∧
    ((fun (s : State) (path addr value now : Nat) (row lo : RegRow) => (s.canonical = true) ∧ (s.carries path addr = true) ∧ (pairRole addr = 2) ∧ (value < 2 ^ 32) ∧ (regRow? addr = some row) ∧ (row.rw = 0xFFFFFFFF) ∧ (row.sx = false) ∧ (regRow? (addr - 4) = some lo) ∧ (lo.rw = 0xFFFFFFFF) ∧ (lo.sx = false) ∧ (plainAddr addr = true) ∧ (plainAddr (addr - 4) = true) ∧ (addr < 0x40000 ∨ 0x80000 ≤ addr) ∧ (s.layerBits addr = 0) ∧ (s.layerBits (addr - 4) = 0) ∧ (s.partRefused addr = false) ∧ (s.partRefused (addr - 4) = false) ∧ (addr ≠ Reg.LOG_RD_SEQ_LO.addr 0 0 + 4) ∧ (row.rwl = 0) ∧ (lo.rwl = 0) ∧ (s.logicBanks addr = 0) ∧ (s.logicBanks (addr - 4) = 0) ∧ (s.hostWrite = none ∨ pathOwner path = 0x40) ∧ ((Sparse.find s.held path).map (fun (e : Nat × Nat) => e.1) ≠ some (addr - 4))) (((({ (State.reset.setRuns 34 true) with host := { State.reset.host with perst := false }, held := [(1, (0x120010, 77))] } : State)).setF Reg.LCS_SRC_ADDR_LO 9)) 1 0xF000C 5 5000 ((regRow? 0xF000C).getD ⟨0, 0, 0, 0, 0, 0, 0, 0, 0, false, 0⟩) ((regRow? 0xF0008).getD ⟨0, 0, 0, 0, 0, 0, 0, 0, 0, false, 0⟩)) ∧
    ((fun (s : State) (requester seq offset now : Nat) (frame : List Byte) => (s.canonical = true) ∧ (s.datagram 2 s.mgmtPort frame = some (mgmtMsg 1 1 requester seq offset 0 [])) ∧ (s.mgmtIdle = true) ∧ (s.mgmtNew requester seq = true) ∧ (s.isF Reg.SYS_MGMT_CFG_AUTH_REQ = false) ∧ (requester < 2 ^ 64) ∧ (seq < 2 ^ 32) ∧ (offset % 4 = 0) ∧ (offset + 4 ≤ 0x130000) ∧ (pathWord (offset) = false) ∧ (pathWord (offset + 4) = false) ∧ (offset ∉ [0x18, 0x40, 0x3000008]) ∧ (windowOf (offset) = none) ∧ (offset ≠ Reg.EST_REC.addr 0 0) ∧ (offset ≠ Reg.SNS_CC_ACC0.addr 40 0) ∧ (offset ≠ Reg.SNS_CC_ACC0.addr 41 0) ∧ (offset ≠ 0x1C) ∧ (pairRole (offset) = 0) ∧ (s.answers offset = true)) ((((({ (State.reset.setRuns 17 true) with host := { State.reset.host with perst := false } } : State).setF Reg.SYS_MGMT_CFG_EN 1).setF Reg.SYS_MGMT_CFG_AUTH_REQ 0).setF Reg.SYS_IRQ_CAUSE 7 1)) 5 6 0x104 5000 (beBytes 90 0x00000000000000000000000086DD60000000002411FFFE800000000000000000000000000009FE800000000000000000000000000000B8A2B8A200244DDC414D01010001001C0000000000000005000000060000010400000000)) ∧
    ((fun (s : State) (requester seq offset value now : Nat) (row : RegRow) (frame : List Byte) => (s.canonical = true) ∧ (s.datagram 2 s.mgmtPort frame = some (mgmtMsg 2 1 requester seq offset 0 (beBytes 4 value))) ∧ (s.mgmtIdle = true) ∧ (s.mgmtNew requester seq = true) ∧ (s.isF Reg.SYS_MGMT_CFG_AUTH_REQ = false) ∧ (requester < 2 ^ 64) ∧ (seq < 2 ^ 32) ∧ (offset % 4 = 0) ∧ (offset + 4 ≤ 0x130000) ∧ (regRow? offset = some row) ∧ (plainAddr offset = true) ∧ (s.takesWrite offset value = true) ∧ (row.pair = 0) ∧ (row.sx = false) ∧ (row.rwl = 0) ∧ (s.layerBits offset = 0) ∧ (value < 2 ^ 32) ∧ (offset < 0x40000 ∨ 0x80000 ≤ offset) ∧ (offset ≠ Reg.SYS_MGMT_REQS.addr 0 0) ∧ (s.logicBanks offset = 0) ∧ (bitOf (s.getF Reg.SYS_MGMT_WMASK) (offset / 65536) = true) ∧ (s.answers offset = true)) ((((({ (State.reset.setRuns 17 true) with host := { State.reset.host with perst := false } } : State).setF Reg.SYS_MGMT_CFG_EN 1).setF Reg.SYS_MGMT_CFG_AUTH_REQ 0).setF Reg.SYS_MGMT_WMASK 1)) 5 6 0x44 0xFFFFFFFF 5000 ((regRow? 0x44).getD ⟨0, 0, 0, 0, 0, 0, 0, 0, 0, false, 0⟩) (beBytes 94 0x00000000000000000000000086DD60000000002811FFFE800000000000000000000000000009FE800000000000000000000000000000B8A2B8A200284E8F414D0102000100200000000000000005000000060000004400000000FFFFFFFF)) ∧
    ((fun (s : State) (requester seq offset value now : Nat) (frame : List Byte) => (s.canonical = true) ∧ (s.datagram 2 s.mgmtPort frame = some (mgmtMsg 2 1 requester seq offset 0 (beBytes 4 value))) ∧ (s.mgmtIdle = true) ∧ (s.mgmtNew requester seq = true) ∧ (s.isF Reg.SYS_MGMT_CFG_AUTH_REQ = false) ∧ (requester < 2 ^ 64) ∧ (seq < 2 ^ 32) ∧ (offset % 4 = 0) ∧ (offset + 4 ≤ 0x130000) ∧ (value < 2 ^ 32) ∧ (bitOf (s.getF Reg.SYS_MGMT_WMASK) (offset / 65536) = false)) ((((({ (State.reset.setRuns 17 true) with host := { State.reset.host with perst := false } } : State).setF Reg.SYS_MGMT_CFG_EN 1).setF Reg.SYS_MGMT_CFG_AUTH_REQ 0).setF Reg.SYS_MGMT_WMASK 0)) 5 6 0x44 9 5000 (beBytes 94 0x00000000000000000000000086DD60000000002811FFFE800000000000000000000000000009FE800000000000000000000000000000B8A2B8A200284E86414D010200010020000000000000000500000006000000440000000000000009)) ∧
    ((fun (s : State) (requester seq offset now : Nat) (frame : List Byte) => (s.canonical = true) ∧ (s.datagram 2 s.mgmtPort frame = some (mgmtMsg 1 1 requester seq offset 0 [])) ∧ (s.mgmtIdle = true) ∧ (s.mgmtNew requester seq = true) ∧ (s.isF Reg.SYS_MGMT_CFG_AUTH_REQ = false) ∧ (requester < 2 ^ 64) ∧ (seq < 2 ^ 32) ∧ (offset % 4 = 0) ∧ (offset + 4 ≤ 0x130000) ∧ (s.answers offset = false)) (((({ (State.reset.setRuns 17 true) with host := { State.reset.host with perst := false } } : State).setF Reg.SYS_MGMT_CFG_EN 1).setF Reg.SYS_MGMT_CFG_AUTH_REQ 0)) 5 6 0x30008 5000 (beBytes 90 0x00000000000000000000000086DD60000000002411FFFE800000000000000000000000000009FE800000000000000000000000000000B8A2B8A200244ED5414D01010001001C0000000000000005000000060003000800000000)) ∧
    ((fun (s : State) (requester seq offset now : Nat) (frame : List Byte) (m : List Byte) => (s.canonical = true) ∧ (s.datagram 2 s.mgmtPort frame = some (mgmtMsg 1 1 requester seq offset 0 [])) ∧ (s.mgmtIdle = true) ∧ (s.isF Reg.SYS_MGMT_CFG_AUTH_REQ = false) ∧ (requester < 2 ^ 64) ∧ (seq < 2 ^ 32) ∧ (offset % 4 = 0) ∧ (offset + 4 ≤ 0x130000) ∧ ((s.host.kept.find? fun (e : Nat × Nat × List Byte) => decide (e.1 = requester ∧ e.2.1 = seq)) = some (requester, seq, m))) (((({ (State.reset.setRuns 17 true) with host := { State.reset.host with perst := false, kept := [(5, 6, [1#8, 2#8])] } } : State).setF Reg.SYS_MGMT_CFG_EN 1).setF Reg.SYS_MGMT_CFG_AUTH_REQ 0)) 5 6 0x44 5000 (beBytes 90 0x00000000000000000000000086DD60000000002411FFFE800000000000000000000000000009FE800000000000000000000000000000B8A2B8A200244E9C414D01010001001C0000000000000005000000060000004400000000) [1#8, 2#8]) ∧
    ((fun (s : State) (requester seq offset now : Nat) (frame : List Byte) (g : Nat) => (s.canonical = true) ∧ (s.datagram 2 s.mgmtPort frame = some (mgmtMsg 1 1 requester seq offset 0 [])) ∧ (s.mgmtIdle = true) ∧ (s.isF Reg.SYS_MGMT_CFG_AUTH_REQ = false) ∧ (requester < 2 ^ 64) ∧ (seq < 2 ^ 32) ∧ (offset % 4 = 0) ∧ (offset + 4 ≤ 0x130000) ∧ ((s.host.kept.all fun (e : Nat × Nat × List Byte) => decide (e.1 ≠ requester ∨ e.2.1 ≠ seq)) = true) ∧ (s.host.greatestOf requester = some g) ∧ ((seq + 2 ^ 32 - g) % 2 ^ 32 = 0 ∨ 2 ^ 31 ≤ (seq + 2 ^ 32 - g) % 2 ^ 32) ∧ (g < 2 ^ 32)) (((({ (State.reset.setRuns 17 true) with host := { State.reset.host with perst := false, greatest := [(5, 7)] } } : State).setF Reg.SYS_MGMT_CFG_EN 1).setF Reg.SYS_MGMT_CFG_AUTH_REQ 0)) 5 6 0x44 5000 (beBytes 90 0x00000000000000000000000086DD60000000002411FFFE800000000000000000000000000009FE800000000000000000000000000000B8A2B8A200244E9C414D01010001001C0000000000000005000000060000004400000000) 7) ∧
    ((fun (s : State) (requester seq offset now : Nat) (frame : List Byte) => (s.canonical = true) ∧ (s.datagram 2 s.mgmtPort frame = some (mgmtMsg 1 1 requester seq offset 0 [])) ∧ (s.mgmtIdle = true) ∧ (requester < 2 ^ 64) ∧ (seq < 2 ^ 32) ∧ (offset < 2 ^ 32) ∧ (offset % 4 = 0) ∧ (0x130000 < offset + 4)) (((({ (State.reset.setRuns 17 true) with host := { State.reset.host with perst := false } } : State).setF Reg.SYS_MGMT_CFG_EN 1).setF Reg.SYS_MGMT_CFG_AUTH_REQ 0)) 5 6 0x130000 5000 (beBytes 90 0x00000000000000000000000086DD60000000002411FFFE800000000000000000000000000009FE800000000000000000000000000000B8A2B8A200244ECD414D01010001001C0000000000000005000000060013000000000000)) ∧
    ((fun (s : State) (requester seq offset now : Nat) (frame : List Byte) => (s.canonical = true) ∧ (s.datagram 2 s.mgmtPort frame = some (mgmtMsg 1 1 requester seq offset 0 [])) ∧ (s.mgmtIdle = true) ∧ (requester < 2 ^ 64) ∧ (seq < 2 ^ 32) ∧ (offset % 4 = 0) ∧ (offset + 4 ≤ 0x130000) ∧ (s.isF Reg.SYS_MGMT_CFG_AUTH_REQ = true)) ((((({ (State.reset.setRuns 17 true) with host := { State.reset.host with perst := false } } : State).setF Reg.SYS_MGMT_CFG_EN 1).setF Reg.SYS_MGMT_CFG_AUTH_REQ 0).setF Reg.SYS_MGMT_CFG_AUTH_REQ 1)) 5 6 0x44 5000 (beBytes 90 0x00000000000000000000000086DD60000000002411FFFE800000000000000000000000000009FE800000000000000000000000000000B8A2B8A200244E9C414D01010001001C0000000000000005000000060000004400000000)) ∧
    ((fun (s : State) (frame message : List Byte) (now : Nat) => (s.datagram 2 s.mgmtPort frame = some message) ∧ (s.isF Reg.SYS_MGMT_CFG_EN = false ∨ s.runs 17 = false ∨ s.dead = true ∨ mgmtRequest message 1 = false)) (State.reset) (beBytes 90 0x00000000000000000000000086DD60000000002411FFFE800000000000000000000000000009FE800000000000000000000000000000B8A2B8A200244E9C414D01010001001C0000000000000005000000060000004400000000) (beBytes 28 0x414D01010001001C0000000000000005000000060000004400000000) 5000) ∧
    ((fun (s : State) (frame message : List Byte) (now : Nat) => (s.datagram 2 s.mgmtPort frame = some message) ∧ (s.isF Reg.SYS_MGMT_CFG_EN = false ∨ s.runs 17 = false ∨ s.dead = true ∨ mgmtRequest message 1 = false)) (((({ (State.reset.setRuns 17 true) with host := { State.reset.host with perst := false } } : State).setF Reg.SYS_MGMT_CFG_EN 1).setF Reg.SYS_MGMT_CFG_AUTH_REQ 0)) (beBytes 90 0x00000000000000000000000086DD60000000002411FFFE800000000000000000000000000009FE800000000000000000000000000000B8A2B8A200244E9B414D01020001001C0000000000000005000000060000004400000000) (beBytes 28 0x414D01020001001C0000000000000005000000060000004400000000) 5000) ∧
    ((fun (s : State) (frame : List Byte) (now : Nat) => (s.datagram 2 s.mgmtPort frame = none)) (((({ (State.reset.setRuns 17 true) with host := { State.reset.host with perst := false } } : State).setF Reg.SYS_MGMT_CFG_EN 1).setF Reg.SYS_MGMT_CFG_AUTH_REQ 0)) (beBytes 64 0x00000000000000000000000081000000000000000000000000000000000000000000000000000000000000000000000000000000000000000000000000000000) 5000) ∧
    ((fun (s : State) (frame message : List Byte) (now : Nat) => (s.datagram 2 s.mgmtPort frame = some message) ∧ (s.isF Reg.SYS_MGMT_CFG_EN = false ∨ s.runs 17 = false ∨ s.dead = true ∨ mgmtRequest message 2 = false)) (State.reset) (beBytes 90 0x00000000000000000000000086DD60000000002411FFFE800000000000000000000000000009FE800000000000000000000000000000B8A2B8A200244E9B414D01020001001C0000000000000005000000060000004400000000) (beBytes 28 0x414D01020001001C0000000000000005000000060000004400000000) 5000) ∧
    ((fun (s : State) (frame message : List Byte) (now : Nat) => (s.datagram 2 s.mgmtPort frame = some message) ∧ (s.isF Reg.SYS_MGMT_CFG_EN = false ∨ s.runs 17 = false ∨ s.dead = true ∨ mgmtRequest message 2 = false)) (((({ (State.reset.setRuns 17 true) with host := { State.reset.host with perst := false } } : State).setF Reg.SYS_MGMT_CFG_EN 1).setF Reg.SYS_MGMT_CFG_AUTH_REQ 0)) (beBytes 90 0x00000000000000000000000086DD60000000002411FFFE800000000000000000000000000009FE800000000000000000000000000000B8A2B8A200244E9C414D01010001001C0000000000000005000000060000004400000000) (beBytes 28 0x414D01010001001C0000000000000005000000060000004400000000) 5000) ∧
    ((fun (s : State) (frame : List Byte) (now : Nat) => (s.datagram 2 s.mgmtPort frame = none)) (((({ (State.reset.setRuns 17 true) with host := { State.reset.host with perst := false } } : State).setF Reg.SYS_MGMT_CFG_EN 1).setF Reg.SYS_MGMT_CFG_AUTH_REQ 0)) (beBytes 64 0x00000000000000000000000081000000000000000000000000000000000000000000000000000000000000000000000000000000000000000000000000000000) 5000) ∧
    ((fun (s : State) (path : Nat) (bads : List (List (Nat × Nat))) (now : Nat) (x : Access) (rest : List Access) => (s.canonical = true) ∧ (x.path = path) ∧ ((rest.any fun (y : Access) => decide (y.path = path)) = false) ∧ (s.waiting = x :: rest) ∧ (x.addr < 2 ^ 26) ∧ (path ≠ 1 ∨ s.host.waiting = []) ∧ (x.isWrite = true) ∧ (x.value < 2 ^ 32) ∧ (x.size = 4) ∧ (({ s with waiting := rest } : State).carries path x.addr = true)) (({ State.reset with host := { State.reset.host with perst := false }, waiting := [Access.mk 1 true 0x44 5 4, Access.mk 3 false 0x44 0 4] } : State)) 1 [] 5000 (Access.mk 1 true 0x44 5 4) [Access.mk 3 false 0x44 0 4]) ∧
    ((fun (s : State) (path : Nat) (bads : List (List (Nat × Nat))) (now : Nat) (x : Access) (rest : List Access) => (s.canonical = true) ∧ (x.path = path) ∧ ((rest.any fun (y : Access) => decide (y.path = path)) = false) ∧ (s.waiting = x :: rest) ∧ (x.addr < 2 ^ 26) ∧ (path ≠ 1 ∨ s.host.waiting = []) ∧ (x.isWrite = false) ∧ (x.value = 0) ∧ (x.size = 4) ∧ (({ s with waiting := rest } : State).carries path x.addr = true)) (({ State.reset with host := { State.reset.host with perst := false }, waiting := [Access.mk 1 false 0x44 0 4, Access.mk 3 false 0x44 0 4] } : State)) 1 [] 5000 (Access.mk 1 false 0x44 0 4) [Access.mk 3 false 0x44 0 4]) ∧
    ((fun (s : State) (path : Nat) (bads : List (List (Nat × Nat))) (now : Nat) (x : Access) (rest : List Access) => (s.canonical = true) ∧ (x.path = path) ∧ (s.waiting = x :: rest) ∧ (x.addr < 2 ^ 26) ∧ (path ≠ 1 ∨ s.host.waiting = []) ∧ (s.answers x.addr = false)) (({ State.reset with host := { State.reset.host with perst := false }, waiting := [Access.mk 1 true 0x30008 5 4, Access.mk 3 false 0x44 0 4] } : State)) 1 [] 5000 (Access.mk 1 true 0x30008 5 4) [Access.mk 3 false 0x44 0 4]) ∧
    ((fun (s : State) (path : Nat) (bads : List (List (Nat × Nat))) (now : Nat) => (s.canonical = true) ∧ (path ≠ 1 ∨ s.host.waiting = []) ∧ ((s.waiting.any fun (y : Access) => decide (y.path = path)) = false)) (State.reset) 1 [] 5000) ∧
    ((fun (s : State) (path : Nat) (bads : List (List (Nat × Nat))) (now : Nat) (requester seq offset : Nat) (frame : List Byte) => (s.canonical = true) ∧ (path = 1) ∧ (({ s with host := { s.host with waiting := [] } } : State).datagram 2 s.mgmtPort frame = some (mgmtMsg 1 1 requester seq offset 0 [])) ∧ (s.host.waiting = [mgmtMsg 1 1 requester seq offset 0 []]) ∧ (s.isF Reg.SYS_MGMT_CFG_EN = true) ∧ (s.runs 17 = true) ∧ (s.dead = false)) (((({ (State.reset.setRuns 17 true) with host := { State.reset.host with perst := false, waiting := [mgmtMsg 1 1 5 6 0x44 0 []] } } : State).setF Reg.SYS_MGMT_CFG_EN 1).setF Reg.SYS_MGMT_CFG_AUTH_REQ 0)) 1 [] 5000 5 6 0x44 (beBytes 90 0x00000000000000000000000086DD60000000002411FFFE800000000000000000000000000009FE800000000000000000000000000000B8A2B8A200244E9C414D01010001001C0000000000000005000000060000004400000000)) ∧
    ((fun (s : State) (path : Nat) (bads : List (List (Nat × Nat))) (now : Nat) => (s.canonical = true) ∧ (path = 0) ∧ (s.runs 22 = true) ∧ (s.runs 14 = true) ∧ (s.waiting = [Access.mk 0 true (2 ^ 26 + 0x40) (ofLe [7#8, 8#8] + 2 ^ 16) 4]) ∧ (s.host.perst = false) ∧ (s.host.d3 = false)) ((({ ((State.reset.setRuns 14 true).setRuns 22 true) with host := { State.reset.host with perst := false }, waiting := [Access.mk 0 true (2 ^ 26 + 0x40) (ofLe [7#8, 8#8] + 2 ^ 16) 4] } : State).setF Reg.CTX_STATUS_READY 1)) 0 [] 5000) := by
  repeat refine And.intro (by decide +kernel) ?_
  decide +kernel

theorem test_meets_FrameForecastAndGrantBoundariesTakeoverAndResync :
    ((fun (s : State) (now ptpFrames : Nat) (sram : List (Nat × Nat × Nat)) => (s.canonical = true) ∧ (s.runs 2 = false ∨ s.dead = true)) (State.reset) 5000 0 [(1, 2, 2)]) ∧
    ((fun (s : State) (now ptpFrames : Nat) => (s.canonical = true) ∧ (s.runs 2 = true) ∧ (s.dead = false) ∧ (s.twn.applyJ = []) ∧ (s.hnt.counterDue = false)) (((State.reset.setRuns 2 true).wr 0x41008 5#32)) 5000 0) ∧
    ((fun (s : State) (now ptpFrames : Nat) => (s.canonical = true) ∧ (s.runs 2 = true) ∧ (s.dead = false) ∧ (s.twn.applyJ = []) ∧ (s.hnt.counterDue = false)) (((State.reset.setRuns 2 true).wr 0x41008 5#32)) 1234567 0) ∧
    ((fun (s : State) (now ptpFrames : Nat) => (s.canonical = true) ∧ (s.runs 2 = true) ∧ (s.dead = false) ∧ (s.twn.applyJ = []) ∧ (s.hnt.counterDue = false)) (({ ((State.reset.setRuns 2 true).wr 0x41008 5#32) with counting := true, frame := 7, frameBase := 4 } : State)) 1234567 0) ∧
    ((fun (s : State) (now ptpFrames : Nat) => (s.canonical = true) ∧ (s.runs 2 = true) ∧ (s.dead = false) ∧ (s.twn.applyJ = []) ∧ (s.ownGrid = true) ∧ (s.isF Reg.CLK_STATUS_COUNTER_SET = false) ∧ (s.hnt.counterDue = true)) (({ State.reset with hnt := { State.reset.hnt with counterDue := true } }.setRuns 2 true).setF Reg.TWN_STATUS_LOCK 1) 5000 777) ∧
    ((fun (s : State) (now ptpFrames i w n : Nat) => (s.canonical = true) ∧ (s.runs 2 = true) ∧ (s.dead = false)) (((State.reset.setRuns 2 true).wr 0x41008 5#32)) 5000 0 1 2 2) ∧
    ((fun (s : State) (now ptpFrames i w n : Nat) => (s.canonical = true) ∧ (s.runs 2 = true) ∧ (s.dead = false)) (((State.reset.setRuns 2 true).wr 0x41008 5#32)) 5000 0 1 2 1) ∧
    ((fun (s : State) (now ptpFrames i w n : Nat) => (s.canonical = true) ∧ (s.runs 2 = true) ∧ (s.dead = false)) (((State.reset.setRuns 2 true).wr 0x41008 5#32)) 5000 0 1 2 0) ∧
    ((fun (s : State) (shadow : List (Nat × List Byte)) => (s.canonical = true) ∧ (s.frame % 25 ≠ 0 ∨ s.th.fcAt = some s.frame ∨ s.counting = false ∨ s.runs 1 = false)) ({ State.reset with frame := 26 }) []) ∧
    ((fun (s : State) (shadow : List (Nat × List Byte)) => (s.canonical = true) ∧ (s.frame % 25 = 0) ∧ (s.th.fcAt ≠ some s.frame) ∧ (s.counting = true) ∧ (s.runs 1 = true) ∧ (s.isF Reg.TWN_STATUS_LOCK = false) ∧ (∀ p ∈ List.range 16, (s.part p).sel = [] ∧ (s.part p).start = false ∧ s.partState p ≠ partRunning) ∧ (s.getF Reg.PWR_STATUS_STATE ≠ 1)) (((({ State.reset with counting := true, frame := 25, wb := { State.reset.wb with lane := [(3, { staged := some ⟨7, 3, 100, 5000, 0, 1, [(5, 6)], [], 2⟩, missed := 3 }), (4, { active := some ⟨7, 3, 100, 5000, 0, 1, [], [], 2⟩ })] } }).setRuns 1 true).setF Reg.CFG_OWN_OWNER 0x12 0x1C3)) []) ∧
    ((fun (s : State) (shadow : List (Nat × List Byte)) => (s.canonical = true) ∧ (s.frame % 25 = 0) ∧ (s.th.fcAt ≠ some s.frame) ∧ (s.counting = true) ∧ (s.runs 1 = true) ∧ (s.isF Reg.TWN_STATUS_LOCK = false) ∧ (∀ p ∈ List.range 16, (s.part p).sel = [] ∧ (s.part p).start = false ∧ s.partState p ≠ partRunning) ∧ (s.getF Reg.PWR_STATUS_STATE ≠ 1)) (((({ State.reset with counting := true, frame := 25, ctx := { State.reset.ctx with desc := [(9, { kind := 2, key := 7 })] }, wb := { State.reset.wb with lane := [(3, { staged := some ⟨7, 3, 100, 5000, 0, 1, [(5, 6)], [], 2⟩, missed := 3 }), (4, { active := some ⟨7, 3, 100, 5000, 0, 1, [], [], 2⟩ })] } }).setRuns 1 true).setF Reg.CFG_OWN_OWNER 0x12 0x1C3)) []) ∧
    ((fun (s : State) (shadow : List (Nat × List Byte)) => (s.canonical = true) ∧ (s.frame % 25 = 0) ∧ (s.th.fcAt ≠ some s.frame) ∧ (s.counting = true) ∧ (s.runs 1 = true) ∧ (s.isF Reg.TWN_STATUS_LOCK = false) ∧ (∀ p ∈ List.range 16, (s.part p).sel = [] ∧ (s.part p).start = false ∧ s.partState p ≠ partRunning) ∧ (s.getF Reg.PWR_STATUS_STATE = 1)) (((({ State.reset with counting := true, frame := 25, wb := { State.reset.wb with lane := [(3, { staged := some ⟨7, 3, 100, 5000, 0, 1, [(5, 6)], [], 2⟩, missed := 3 }), (4, { active := some ⟨7, 3, 100, 5000, 0, 1, [], [], 2⟩ })] } }).setRuns 1 true).setF Reg.CFG_OWN_OWNER 0x12 0x1C3).setF Reg.PWR_STATUS_STATE 1) []) ∧
    ((fun (s : State) (heard : List ((Nat × Nat × Nat) × Int × Nat × Int)) (tHub : Int) => (s.canonical = true) ∧ (s.frame % 1000 ≠ 0 ∨ s.th.fcAt ≠ some s.frame ∨ s.cpc.grantAt = some s.frame ∨ s.runs 1 = false)) ({ State.reset with frame := 1001 }) [] 0) ∧
    ((fun (s : State) (heard : List ((Nat × Nat × Nat) × Int × Nat × Int)) (tHub : Int) => (s.canonical = true) ∧ (s.frame % 1000 = 0) ∧ (s.th.fcAt = some s.frame) ∧ (s.cpc.grantAt ≠ some s.frame) ∧ (s.runs 1 = true) ∧ (s.cpc.jobs = []) ∧ (s.cpc.waiting = []) ∧ (s.isF Reg.WB_STATUS_LOCAL_TARGET = false) ∧ (s.twinSt ≠ 2) ∧ (s.ldg.rack.leads = false) ∧ (s.ldg.rack.role ≠ LdgRole.leader)) (({ State.reset with frame := 2000, th := { State.reset.th with fcAt := some 2000 }, wb := { State.reset.wb with loads := [5], frames := 10, loadSum := 70 } }.setRuns 1 true)) [((3, 100, 200), -5, 1000, 900)] 350) ∧
    ((fun (s : State) (heard : List ((Nat × Nat × Nat) × Int × Nat × Int)) (tHub : Int) => (s.canonical = true) ∧ (s.frame % 1000 = 0) ∧ (s.th.fcAt = some s.frame) ∧ (s.cpc.grantAt ≠ some s.frame) ∧ (s.runs 1 = true) ∧ (s.cpc.jobs = []) ∧ (s.cpc.waiting = []) ∧ (s.isF Reg.WB_STATUS_LOCAL_TARGET = false) ∧ (s.twinSt ≠ 2) ∧ (s.ldg.rack.leads = true) ∧ ((mostHold s.ldg.rack 0 fun (id : Nat) => if id = s.selfId then (if s.ldg.voiceLost = true then 0 else s.ldg.rack.last.1 + 2) else match Sparse.find s.ldg.rack.acks id with | some k => k.1 | none => 0) ≤ s.ldg.rack.commit) ∧ ((s.frame + 10000) % s.hallFrames ≠ 0)) (((((((((((({ State.reset with ldg := { State.reset.ldg with rack := { State.reset.ldg.rack with member := true, epoch := 5, term := 2, role := .leader, leader := some 4, members := [⟨4, 0, 2, 0, 0, 0⟩, ⟨9, 0, 2, 2, 0, 0⟩], log := [⟨1, 2, 1, 0, 0, []⟩], noop := 1, commit := 1 } }, hnt := { State.reset.hnt with pt := [(3, { id := 9, shelf := 2 })] }, frame := 2000, th := { State.reset.th with fcAt := some 2000 } }).setF Reg.HNT_CFG_EN 1).setF Reg.HNT_CFG_AUTH_REQ 0).setF Reg.HNT_STATUS_LINK_A 1).setF Reg.HNT_STATUS_PHASE 2).setF Reg.LDG_CFG_EN 1).setF Reg.HNT_SELF_ID_LO 4).setF Reg.HNT_PT_ID_LO 9 3).setF Reg.HNT_PT_STATE_STATE 2 3).setF Reg.HNT_PT_STATE_ROLE 2 3).setRuns 1 true)) [((3, 100, 200), -5, 1000, 900)] 350) ∧
    ((fun (s : State) => (s.canonical = true) ∧ (s.twinSt ≠ 3 ∨ s.twn.commanded = true ∨ s.twn.preLeft ≠ none ∨ s.twn.requestAt ≠ none ∨ s.isF Reg.TWN_STATUS_LOCK = true ∨ s.frame ≤ s.twn.takeF)) (State.reset)) ∧
    ((fun (s : State) => (s.canonical = true) ∧ (s.twn.takeF < s.frame) ∧ (s.twinSt = 3) ∧ (s.twn.commanded = false) ∧ (s.twn.preLeft = none) ∧ (s.twn.requestAt = none) ∧ (s.isF Reg.TWN_STATUS_LOCK = false) ∧ (s.cfg.boundary = none) ∧ (s.cfgSt ≠ cfgWriting) ∧ (s.cfgSt ≠ cfgChecking) ∧ ((match s.cfg.held with | some i => i.kind | none => 0) ≠ 2) ∧ (s.twn.copy = none) ∧ ((s.twn.samples.all fun (x : TileSample) => decide (x.at16 < s.frameTime s.frame * 16)) = true)) (((((({ State.reset with twn := { State.reset.twn with faultJournal := [(0x41008, 5)] }, frame := 1 }).setF Reg.TWN_CFG_AUTO_SWITCH 1).setF Reg.TWN_CFG_MISS_LIMIT 3).setF Reg.TWN_STATUS_STATE 3).setF Reg.TWN_CFG_PRE_RUN 2))) ∧
    ((fun (s : State) (serial : Nat) => (s.canonical = true) ∧ (s.twn.takeF < s.frame) ∧ (s.twinSt = 3) ∧ (s.twn.commanded = false) ∧ (s.twn.preLeft = none) ∧ (s.twn.requestAt = none) ∧ (s.isF Reg.TWN_STATUS_LOCK = false) ∧ (s.twn.copy = none) ∧ (s.twn.samples = []) ∧ (s.cfg.boundary.isSome = true) ∧ (serial = (match s.cfg.held with | some i => i.serial | none => leAt s.cfg.staging 0x18 4))) (((((({ State.reset with twn := { State.reset.twn with  }, frame := 1, cfg := { State.reset.cfg with boundary := some 9, staging := List.replicate 64 7#8 } }).setF Reg.TWN_CFG_AUTO_SWITCH 1).setF Reg.TWN_CFG_MISS_LIMIT 3).setF Reg.TWN_STATUS_STATE 3).setF Reg.CFG_STATUS_STATE 5)) 0x07070707) ∧
    ((fun (s : State) (copy : Option (List Byte)) => (s.canonical = true) ∧ (s.twn.takeF < s.frame) ∧ (s.twinSt = 3) ∧ (s.twn.commanded = false) ∧ (s.twn.preLeft = none) ∧ (s.twn.requestAt = none) ∧ (s.isF Reg.TWN_STATUS_LOCK = false) ∧ (s.cfg.boundary = none) ∧ (s.cfgSt ≠ cfgWriting) ∧ (s.cfgSt ≠ cfgChecking) ∧ ((match s.cfg.held with | some i => i.kind | none => 0) ≠ 2) ∧ (s.twn.copy = copy)) ((((({ State.reset with twn := { State.reset.twn with copy := some [] }, frame := 1 }).setF Reg.TWN_CFG_AUTO_SWITCH 1).setF Reg.TWN_CFG_MISS_LIMIT 3).setF Reg.TWN_STATUS_STATE 3)) (some [])) ∧
    ((fun (s : State) (copy : Option (List Byte)) => (s.canonical = true) ∧ (s.twn.takeF < s.frame) ∧ (s.twinSt = 3) ∧ (s.twn.commanded = false) ∧ (s.twn.preLeft = none) ∧ (s.twn.requestAt = none) ∧ (s.isF Reg.TWN_STATUS_LOCK = false) ∧ (s.cfg.boundary = none) ∧ (s.cfgSt ≠ cfgWriting) ∧ (s.cfgSt ≠ cfgChecking) ∧ ((match s.cfg.held with | some i => i.kind | none => 0) ≠ 2) ∧ (s.twn.copy = copy)) ((((({ State.reset with twn := { State.reset.twn with  }, frame := 1 }).setF Reg.TWN_CFG_AUTO_SWITCH 1).setF Reg.TWN_CFG_MISS_LIMIT 3).setF Reg.TWN_STATUS_STATE 3)) none) ∧
    ((fun (s : State) (serial : Nat) (digest : List Byte) (forerunner : Bool) (layers : List (List Byte)) (estimator : Option (List Byte)) (tHub : Int) (now : Nat) => (s.canonical = true) ∧ (s.twn.resyncAt = none ∨ s.twinSt ≠ 5)) (State.reset) 9 [] false [] none 350 5000) ∧
    ((fun (s : State) (serial : Nat) (digest : List Byte) (forerunner : Bool) (layers : List (List Byte)) (estimator : Option (List Byte)) (tHub : Int) (now : Nat) (since : Nat) => (s.canonical = true) ∧ (s.twn.resyncAt = some since) ∧ (s.twinSt = 5) ∧ (since + s.getF Reg.TWN_TIMES_RESYNC_MAX * 10000000 < now)) ((((((({ State.reset with twn := { State.reset.twn with resyncAt := some 1000 } }).setF Reg.TWN_CFG_AUTO_SWITCH 1).setF Reg.TWN_CFG_MISS_LIMIT 3).setF Reg.TWN_STATUS_STATE 5).setF Reg.TWN_TIMES_RESYNC_MAX 60).setF Reg.CFG_IMAGE_SERIAL 9)) 9 [] false [] none 350 700000000 1000) ∧
    ((fun (s : State) (serial : Nat) (digest : List Byte) (forerunner : Bool) (layers : List (List Byte)) (estimator : Option (List Byte)) (tHub : Int) (now : Nat) (since : Nat) => (s.canonical = true) ∧ (s.twn.resyncAt = some since) ∧ (s.twinSt = 5) ∧ (now ≤ since + s.getF Reg.TWN_TIMES_RESYNC_MAX * 10000000) ∧ (serial ≠ s.getF Reg.CFG_IMAGE_SERIAL ∨ digest.take 16 ≠ s.cfg.baseDigest)) ((((((({ State.reset with twn := { State.reset.twn with resyncAt := some 1000 } }).setF Reg.TWN_CFG_AUTO_SWITCH 1).setF Reg.TWN_CFG_MISS_LIMIT 3).setF Reg.TWN_STATUS_STATE 5).setF Reg.TWN_TIMES_RESYNC_MAX 60).setF Reg.CFG_IMAGE_SERIAL 9)) 8 [] false [] none 350 5000 1000) ∧
    ((fun (s : State) (serial : Nat) (digest : List Byte) (forerunner : Bool) (layers : List (List Byte)) (estimator : Option (List Byte)) (tHub : Int) (now : Nat) (since : Nat) => (s.canonical = true) ∧ (s.twn.resyncAt = some since) ∧ (s.twinSt = 5) ∧ (now ≤ since + s.getF Reg.TWN_TIMES_RESYNC_MAX * 10000000) ∧ (serial = s.getF Reg.CFG_IMAGE_SERIAL) ∧ (digest.take 16 = s.cfg.baseDigest) ∧ (forerunner ≠ s.isF Reg.TWN_STATUS_FORERUNNER)) ((((((({ State.reset with twn := { State.reset.twn with resyncAt := some 1000 } }).setF Reg.TWN_CFG_AUTO_SWITCH 1).setF Reg.TWN_CFG_MISS_LIMIT 3).setF Reg.TWN_STATUS_STATE 5).setF Reg.TWN_TIMES_RESYNC_MAX 60).setF Reg.CFG_IMAGE_SERIAL 9)) 9 [] true [] none 350 5000 1000) ∧
    ((fun (s : State) (serial : Nat) (digest : List Byte) (forerunner : Bool) (layers : List (List Byte)) (estimator : Option (List Byte)) (tHub : Int) (now : Nat) (since : Nat) (img : List Byte) => (s.canonical = true) ∧ (s.twn.resyncAt = some since) ∧ (s.twinSt = 5) ∧ (now ≤ since + s.getF Reg.TWN_TIMES_RESYNC_MAX * 10000000) ∧ (serial = s.getF Reg.CFG_IMAGE_SERIAL) ∧ (digest.take 16 = s.cfg.baseDigest) ∧ (forerunner = s.isF Reg.TWN_STATUS_FORERUNNER) ∧ (layers = [img]) ∧ (s.getF Reg.CFG_LAYER_SERIAL < leAt img 0x18 4) ∧ (leAt img 8 1 ≠ 2 ∨ (checkImage s img img.length false).image = none)) ((((((({ State.reset with twn := { State.reset.twn with resyncAt := some 1000 } }).setF Reg.TWN_CFG_AUTO_SWITCH 1).setF Reg.TWN_CFG_MISS_LIMIT 3).setF Reg.TWN_STATUS_STATE 5).setF Reg.TWN_TIMES_RESYNC_MAX 60).setF Reg.CFG_IMAGE_SERIAL 9)) 9 [] false [List.replicate 32 1#8] none 350 5000 1000 (List.replicate 32 1#8)) ∧
    ((fun (s : State) (serial : Nat) (digest : List Byte) (forerunner : Bool) (layers : List (List Byte)) (estimator : Option (List Byte)) (tHub : Int) (now : Nat) (since : Nat) => (s.canonical = true) ∧ (s.twn.resyncAt = some since) ∧ (s.twinSt = 5) ∧ (now ≤ since + s.getF Reg.TWN_TIMES_RESYNC_MAX * 10000000) ∧ (serial = s.getF Reg.CFG_IMAGE_SERIAL) ∧ (digest.take 16 = s.cfg.baseDigest) ∧ (forerunner = s.isF Reg.TWN_STATUS_FORERUNNER) ∧ (layers.all (fun (img : List Byte) => decide (leAt img 0x18 4 ≤ s.getF Reg.CFG_LAYER_SERIAL)) = true) ∧ (estimator = none) ∧ (s.twn.good < 100)) ((((((({ State.reset with twn := { State.reset.twn with resyncAt := some 1000, good := 99 } }).setF Reg.TWN_CFG_AUTO_SWITCH 1).setF Reg.TWN_CFG_MISS_LIMIT 3).setF Reg.TWN_STATUS_STATE 5).setF Reg.TWN_TIMES_RESYNC_MAX 60).setF Reg.CFG_IMAGE_SERIAL 9)) 9 [] false [List.replicate 32 0#8] none 350 5000 1000) ∧
    ((fun (s : State) (serial : Nat) (digest : List Byte) (forerunner : Bool) (layers : List (List Byte)) (estimator : Option (List Byte)) (tHub : Int) (now : Nat) (since : Nat) (u : State) => (s.canonical = true) ∧ (s.twn.resyncAt = some since) ∧ (s.twinSt = 5) ∧ (now ≤ since + s.getF Reg.TWN_TIMES_RESYNC_MAX * 10000000) ∧ (serial = s.getF Reg.CFG_IMAGE_SERIAL) ∧ (digest.take 16 = s.cfg.baseDigest) ∧ (forerunner = s.isF Reg.TWN_STATUS_FORERUNNER) ∧ (layers = []) ∧ (estimator = none) ∧ (100 ≤ s.twn.good) ∧ (u = { s with twn := { s.twn with hMismatch := 0, hGap := s.twn.hRun } }) ∧ (u.verdict ≤ 1)) ((((((({ State.reset with twn := { State.reset.twn with resyncAt := some 1000, good := 100, serials := (9, 0), hMismatch := 5 } }).setF Reg.TWN_CFG_AUTO_SWITCH 1).setF Reg.TWN_CFG_MISS_LIMIT 3).setF Reg.TWN_STATUS_STATE 5).setF Reg.TWN_TIMES_RESYNC_MAX 60).setF Reg.CFG_IMAGE_SERIAL 9)) 9 [] false [] none 350 5000 1000 { ((((((({ State.reset with twn := { State.reset.twn with resyncAt := some 1000, good := 100, serials := (9, 0), hMismatch := 5 } }).setF Reg.TWN_CFG_AUTO_SWITCH 1).setF Reg.TWN_CFG_MISS_LIMIT 3).setF Reg.TWN_STATUS_STATE 5).setF Reg.TWN_TIMES_RESYNC_MAX 60).setF Reg.CFG_IMAGE_SERIAL 9) : State) with twn := { ((((((({ State.reset with twn := { State.reset.twn with resyncAt := some 1000, good := 100, serials := (9, 0), hMismatch := 5 } }).setF Reg.TWN_CFG_AUTO_SWITCH 1).setF Reg.TWN_CFG_MISS_LIMIT 3).setF Reg.TWN_STATUS_STATE 5).setF Reg.TWN_TIMES_RESYNC_MAX 60).setF Reg.CFG_IMAGE_SERIAL 9) : State).twn with hMismatch := 0, hGap := 0 } }) := by
  repeat refine And.intro (by decide +kernel) ?_
  decide +kernel

end
end

section

/-!
PROOFS. Every step keeps the canonical form. `State.inv` says that the lists of a state are canonical. `State.Canon` says the same
part by part, and each operation of the model gets one rule: it keeps `State.Canon`. The rules stand in the order of the model's
files, and a rule follows the cases of its operation. `Res.Canon.exec` puts those of the commands together.
-/

namespace Sys2Proof.Machine

/- Several hundred small theorems: elaborated one after another, since a thread for each does not fit in memory. -/
set_option Elab.async false

/-- The parts of a state that `State.inv` speaks of are in canonical form. -/
structure State.Canon (s : State) : Prop where
  regs : Sparse.wf regReset s.regs = true
  eff : Sparse.wf regReset s.eff = true
  mem : Memory.wf s.mem = true
  poison : Sparse.wf (fun _ => false) s.poison = true
  str : Sparse.wf (fun _ => ({} : EstString)) s.est.str = true

theorem State.inv_iff_canon {s : State} : s.inv = true ↔ s.Canon := by
  simp only [State.inv, Bool.and_eq_true, State.canonical_iff]
  exact ⟨fun ⟨⟨hregs, heff, hmem, hpoison⟩, hstr⟩ => ⟨hregs, heff, hmem, hpoison, hstr⟩,
    fun ⟨hregs, heff, hmem, hpoison, hstr⟩ => ⟨⟨hregs, heff, hmem, hpoison⟩, hstr⟩⟩

/-- A command's answer is in canonical form: a fault leaves no state to speak of. -/
def Res.Canon : Res → Prop
  | .next t => t.Canon
  | _ => True

theorem Res.Canon.next {t : State} (h : t.Canon) : Res.Canon (.next t) := h

theorem Res.Canon.fault {f : Fault} : Res.Canon (.fault f) := trivial

theorem Res.Canon.ite {c : Prop} {_ : Decidable c} {a b : Res} (ha : Res.Canon a) (hb : Res.Canon b) :
    Res.Canon (if c then a else b) := by
  split
  · exact ha
  · exact hb

namespace State.Canon

/-- A state that differs in other parts alone. -/
theorem frame {a : State} (h :
    a.Canon) {pathRegs latch held waiting frame counting frameBase hostWrite irq cfg sns lt pwm wb ctx th
    hnt ldg cpc pkl est snap sec twn pwr log host events outbox free pending} (hstr : est.str = a.est.str := by rfl) :
    (State.mk a.regs a.eff pathRegs latch held waiting frame counting frameBase hostWrite irq a.mem a.poison cfg sns lt pwm wb ctx
      th hnt ldg cpc pkl est snap sec twn pwr log host events outbox free pending).Canon :=
  ⟨h.regs, h.eff, h.mem, h.poison, hstr ▸ h.str⟩

theorem ite {c : Prop} {_ : Decidable c} {a b : State} (ha : a.Canon) (hb : b.Canon) : (if c then a else b).Canon := by
  split
  · exact ha
  · exact hb

theorem iteFst {β : Type} {c : Prop} {_ : Decidable c} {a b : State × β} (ha : a.1.Canon) (hb : b.1.Canon) :
    (if c then a else b).1.Canon := by
  split
  · exact ha
  · exact hb

/-- A state that an operation may have been done to. -/
theorem ifThen {c : Prop} {_ : Decidable c} {a b : State} (hb : a.Canon → b.Canon) (ha : a.Canon) :
    (if c then b else a).Canon :=
  .ite (hb ha) ha

theorem ifElse {c : Prop} {_ : Decidable c} {a b : State} (hb : a.Canon → b.Canon) (ha : a.Canon) :
    (if c then a else b).Canon :=
  .ite ha (hb ha)

/-- A state that several cases go on from: its own form is shown once. -/
theorem via {a b : State} (hb : a.Canon → b.Canon) (ha : a.Canon) : b.Canon := hb ha

theorem foldl {α : Type} {f : State → α → State} {l : List α} {s : State} (h : s.Canon)
    (hf : ∀ a x, a.Canon → (f a x).Canon) : (l.foldl f s).Canon := by
  induction l generalizing s with
  | nil => exact h
  | cons x l ih => exact ih (hf s x h)

theorem foldlFst {α β : Type} {f : State × β → α → State × β} {l : List α} {r : State × β} (h : r.1.Canon)
    (hf : ∀ a x, a.1.Canon → (f a x).1.Canon) : (l.foldl f r).1.Canon := by
  induction l generalizing r with
  | nil => exact h
  | cons x l ih => exact ih (hf r x h)

end State.Canon

variable {s : State}

/-! ### Sys2Proof/Machine/Ops.lean -/

theorem State.Canon.wr {a v} (h : s.Canon) : (s.wr a v).Canon :=
  { h with regs := Sparse.wf_put _ _ _ _ h.regs }

theorem State.Canon.setF {f v i j} (h : s.Canon) : (s.setF f v i j).Canon := .wr h

theorem State.Canon.setS {f v i j} (h : s.Canon) : (s.setS f v i j).Canon := .setF h

theorem State.Canon.setSat {f v i j} (h : s.Canon) : (s.setSat f v i j).Canon := .setF h

theorem State.Canon.bumpBy {f n i j} (h : s.Canon) : (s.bumpBy f n i j).Canon := .setSat h

theorem State.Canon.bump {f i j} (h : s.Canon) : (s.bump f i j).Canon := .bumpBy h

theorem State.Canon.crossingFailed {d} (h : s.Canon) : (s.crossingFailed d).Canon := .bump h

theorem State.Canon.set64 {f v i j} (h : s.Canon) : (s.set64 f v i j).Canon := .wr <| .wr h

theorem State.Canon.setMapBit {f n b} (h : s.Canon) : (s.setMapBit f n b).Canon := .setF h

theorem State.Canon.wrPath {path a v} (h : s.Canon) : (s.wrPath path a v).Canon := .frame h

theorem State.Canon.emit {k args} (h : s.Canon) : (s.emit k args).Canon := .frame h

theorem State.Canon.event {code source data} (h : s.Canon) : (s.event code source data).Canon := .frame h

theorem State.Canon.cause {vector bit} (h : s.Canon) : (s.cause vector bit).Canon := .setF h

theorem State.Canon.causeIf {b vector bit} (h : s.Canon) : (s.causeIf b vector bit).Canon := .ite (.cause h) h

theorem State.Canon.snapTrigger {src} (h : s.Canon) : (s.snapTrigger src).Canon := .ite (.frame h) h

theorem State.Canon.journal {a v} (h : s.Canon) : (s.journal a v).Canon := .ite (.frame h) h

theorem State.Canon.useFree (h : s.Canon) : s.useFree.Canon := .frame h

theorem State.Canon.memWrite {a bs} (h : s.Canon) : (s.memWrite a bs).Canon :=
  { h with mem := Memory.wf_write _ _ _ h.mem }

theorem State.Canon.memWipe {a n} (h : s.Canon) : (s.memWipe a n).Canon :=
  { h with mem := Memory.wf_clear _ _ _ h.mem, poison := Sparse.wf_filter _ _ _ h.poison }

theorem State.Canon.startMs {f ms} (h : s.Canon) : (s.startMs f ms).Canon := .setF h

theorem State.Canon.setRuns {n b} (h : s.Canon) : (s.setRuns n b).Canon := .ite (.setF h) <| .setF h

theorem State.Canon.setRunsAll {ns b} (h : s.Canon) : (s.setRunsAll ns b).Canon := .foldl h fun _ _ => .setRuns

/-! ### Sys2Proof/Machine/Keys.lean -/

theorem State.Canon.misuse {slot use} (h : s.Canon) : (s.misuse slot use).Canon := .event h

/-! ### Sys2Proof/Machine/Image.lean -/

theorem State.Canon.lockRefused {path a v} (h : s.Canon) : (s.lockRefused path a v).Canon := .event h

theorem State.Canon.putWrite {path w} (h : s.Canon) : (s.putWrite path w).Canon := by
  unfold State.putWrite
  split
  · exact .ite (.setF <| .wr h) <| .setF h
  · exact .wr <| .ite (.lockRefused h) h

theorem State.Canon.putWrites {path ws} (h : s.Canon) : (s.putWrites path ws).Canon := .foldl h fun _ _ => .putWrite

/-! ### Sys2Proof/Machine/Cfg.lean -/

theorem State.Canon.setCfgSt {v} (h : s.Canon) : (s.setCfgSt v).Canon :=
  .ite (.cause <| .setF h) <| .ite (.cause <| .setF h) <| .ite (.cause <| .setF h) <| .ite (.cause <| .setF h) <|
    .setF h

theorem State.Canon.cfgError {code} (h : s.Canon) : (s.cfgError code).Canon := .cause <| .setF h

theorem State.Canon.conflict {resource holder claimant} (h : s.Canon) : (s.conflict resource holder claimant).Canon :=
  .cause <| .event <| .wr h

theorem Res.Canon.execCfgStage {path} (h : s.Canon) : Res.Canon (execCfgStage path s) :=
  .next <| .ite (.cfgError h) <| .ite (.cfgError h) <| .ite (.cfgError h) <| .ifThen .emit <| .setF <| .setCfgSt <|
    .frame h

theorem Res.Canon.execCfgStageComplete (h : s.Canon) : Res.Canon (execCfgStageComplete s) := by
  refine .next <| .ite ?_ h
  dsimp only
  split
  · exact .setCfgSt <| .frame h
  · refine .ifThen .misuse ?_
    split
    · exact .conflict <| .setCfgSt <| .cfgError h
    · exact .setCfgSt <| .cfgError h

theorem Res.Canon.execTwinLayerStaged (h : s.Canon) : Res.Canon (execTwinLayerStaged s) := .next <| .ite (.setF h) h

theorem Res.Canon.execCfgAbort {path} (h : s.Canon) : Res.Canon (execCfgAbort path s) :=
  .next <| .ite (.cfgError h) <| .ite (.setCfgSt <| .frame h) <| .cfgError h

theorem Res.Canon.execCfgClear {path} (h : s.Canon) : Res.Canon (execCfgClear path s) :=
  .next <| .ite (.cfgError h) <| .ite (.cfgError h) <| .setF <| .setCfgSt <| .frame h

theorem Res.Canon.execCfgProgramSlot {path slot} (h : s.Canon) : Res.Canon (execCfgProgramSlot path slot s) :=
  .next <| .ite (.cfgError h) <| .ite (.cfgError h) <| .ite (.cfgError h) <| .setCfgSt <| .frame h

theorem Res.Canon.execProgramSlotComplete (h : s.Canon) : Res.Canon (execProgramSlotComplete s) :=
  .next <| .ite (.setCfgSt <| .frame h) h

theorem Res.Canon.execCfgRevert {path now} (h : s.Canon) : Res.Canon (execCfgRevert path now s) :=
  .next <| .ite (.cfgError h) <| .ite (.cfgError h) <| .ite (.cfgError h) <| .ifThen .emit <| .setCfgSt <| .frame h

theorem State.Canon.dropReservations (h : s.Canon) : s.dropReservations.Canon := .foldl h fun _ _ ha => .ite (.wr ha) ha

theorem State.Canon.dropLayer (h : s.Canon) : s.dropLayer.Canon := .dropReservations <| .frame h

theorem Res.Canon.execPlaneWriteComplete {twin region good now} (h : s.Canon) :
    Res.Canon (execPlaneWriteComplete twin region good now s) :=
  .next <| .ite h <| .ite (.event <| .setCfgSt <| .cfgError <| .frame <| .dropLayer h) <|
    .ifThen (fun ha => .ite (.setCfgSt <| .cfgError <| .dropLayer ha) <| .ifThen .emit <| .setCfgSt <| .frame ha) <|
    .frame h

theorem State.Canon.abandonLayer (h : s.Canon) : s.abandonLayer.Canon :=
  .ite (.event <| .setCfgSt <| .cfgError <| .dropLayer h) h

theorem State.Canon.ownResult {path code} (h : s.Canon) : (s.ownResult path code).Canon := .wrPath h

theorem State.Canon.unitOwned {resource owned} (h : s.Canon) : (s.unitOwned resource owned).Canon :=
  .ite (.setF h) <| .ite (.setF <| .setF h) h

theorem State.Canon.claim {path owner resource} (h : s.Canon) : (s.claim path owner resource).Canon :=
  .ite (.ownResult h) <| .ite (.journal <| .ownResult <| .unitOwned <| .setF h) <| .ownResult <| .conflict h

theorem State.Canon.release {path owner resource} (h : s.Canon) : (s.release path owner resource).Canon :=
  .ite (.ownResult h) <| .ite (.journal <| .ownResult <| .unitOwned <| .setF h) <| .ownResult h

theorem Res.Canon.execOwnClaim {path owner resource} (h : s.Canon) : Res.Canon (execOwnClaim path owner resource s) :=
  .next <| .claim h

theorem Res.Canon.execOwnRelease {path owner resource} (h : s.Canon) : Res.Canon (execOwnRelease path owner resource s) :=
  .next <| .release h

/-! ### Sys2Proof/Machine/Ctx.lean -/

theorem State.Canon.setPoison {blk b} (h : s.Canon) : ({ s with poison := Sparse.upd false s.poison blk b } : State).Canon :=
  { h with poison := Sparse.wf_put _ _ _ _ h.poison }

/-- A state with the stack wiped that differs from one in canonical form in other parts alone. -/
theorem State.Canon.emptied {a : State} (h :
    a.Canon) {pathRegs latch held waiting frame counting frameBase hostWrite irq cfg sns lt pwm wb
    ctx th hnt ldg cpc pkl est snap sec twn pwr log host events outbox free pending} (hstr : est.str = a.est.str := by rfl) :
    (State.mk a.regs a.eff pathRegs latch held waiting frame counting frameBase hostWrite irq [] [] cfg sns lt pwm wb ctx th hnt ldg
      cpc pkl est snap sec twn pwr log host events outbox free pending).Canon :=
  ⟨h.regs, h.eff, rfl, rfl, hstr ▸ h.str⟩

theorem State.Canon.setDesc {c d} (h : s.Canon) : (s.setDesc c d).Canon := .memWrite <| .frame h

theorem State.Canon.showCounts (h : s.Canon) : s.showCounts.Canon := .setSat <| .setSat <| .setSat <| .setSat h

theorem State.Canon.dropParent {c} (h : s.Canon) : (s.dropParent c).Canon := .ite h <| .setDesc <| .setDesc h

theorem State.Canon.setParent {c p} (h : s.Canon) : (s.setParent c p).Canon :=
  .ite h <| .setDesc <| .setDesc <| .dropParent h

theorem State.Canon.nameParent {c p} (h : s.Canon) : (s.nameParent c p).Canon := by
  unfold State.nameParent
  dsimp only
  split
  · exact .ite (.frame h) <| .dropParent <| .frame h
  · exact .ite (.frame <| .frame h) <| .setParent <| .frame h

theorem State.Canon.tellDesc {c f} (h : s.Canon) : (s.tellDesc c f).Canon := .ite (.frame h) <| .setDesc h

theorem State.Canon.giveUp {c} (h : s.Canon) : (s.giveUp c).Canon :=
  .showCounts <| .memWipe <| .frame <| .setDesc <| .foldl (.dropParent h) fun _ _ ha => .ite (.setDesc ha) ha

theorem State.Canon.showJobLane {job} (h : s.Canon) : (s.showJobLane job).Canon := by
  unfold State.showJobLane
  split
  · exact .ite h <| .setDesc h
  · exact h

theorem State.Canon.allot {c kind key now} (h : s.Canon) : (s.allot c kind key now).Canon :=
  .setF <| .showCounts <| .setDesc h

theorem State.Canon.waitWipe {c kind key} (h : s.Canon) : (s.waitWipe c kind key).Canon := .frame h

theorem State.Canon.ctxGet {kind key now arriving} (h : s.Canon) : (s.ctxGet kind key now arriving).1.Canon := by
  unfold State.ctxGet
  split
  · exact h
  · split
    · exact .ite (.waitWipe h) <| .allot h
    · split
      · exact .waitWipe <| .giveUp h
      · exact .cause <| .setF <| .bump h

theorem State.Canon.blockWritten {blk} (h : s.Canon) : (s.blockWritten blk).Canon :=
  .ite (.via (fun ha => .ite (.setDesc ha) ha) <| .setPoison h) h

theorem State.Canon.stackWrite {addr bs} (h : s.Canon) : (s.stackWrite addr bs).Canon :=
  .foldl (.memWrite h) fun _ _ => .blockWritten

theorem State.Canon.ctxRecord {c ring now bs} (h : s.Canon) : (s.ctxRecord c ring now bs).Canon :=
  .setDesc <| .ifThen (fun ha => .frame ha) <| .stackWrite h

theorem State.Canon.ctxRecordOrHold {c ring now bs} (h : s.Canon) : (s.ctxRecordOrHold c ring now bs).Canon :=
  .ite (.ite (.frame h) <| .bump h) <| .ctxRecord h

theorem State.Canon.ctxResult {path index code} (h : s.Canon) : (s.ctxResult path index code).Canon := .wrPath h

theorem Res.Canon.execCtxAlloc {path kind now} (h : s.Canon) : Res.Canon (execCtxAlloc path kind now s) :=
  .next <| .ite (.ctxResult h) <| .ite (.ctxResult h) <| .ctxResult <| .ctxGet h

theorem Res.Canon.execCtxFree {path c} (h : s.Canon) : Res.Canon (execCtxFree path c s) :=
  .next <| .ite (.ctxResult h) <| .ite (.ctxResult h) <| .ctxResult <| .giveUp h

theorem Res.Canon.execCtxPin {path c} (h : s.Canon) : Res.Canon (execCtxPin path c s) :=
  .next <| .ite (.ctxResult h) <| .ite (.ctxResult h) <| .ite (.ctxResult h) <| .ite (.ctxResult h) <| .ctxResult <|
    .showCounts <| .setDesc h

theorem Res.Canon.execCtxUnpin {path c} (h : s.Canon) : Res.Canon (execCtxUnpin path c s) :=
  .next <| .ite (.ctxResult h) <| .ite (.ctxResult h) <| .ctxResult <| .showCounts <| .setDesc h

theorem Res.Canon.execCtxRebuild {path c} (h : s.Canon) : Res.Canon (execCtxRebuild path c s) :=
  .next <| .ite (.ctxResult h) <| .ite (.ctxResult h) <| .ctxResult <| .memWipe <| .setDesc h

theorem Res.Canon.execCtxLookup {path kind} (h : s.Canon) : Res.Canon (execCtxLookup path kind s) := by
  refine .next <| .ite (.ctxResult h) ?_
  split
  · exact .ite (.ctxResult h) <| .ctxResult h
  · exact .ctxResult h

theorem State.Canon.parentsNamed (h : s.Canon) : s.parentsNamed.Canon := .foldl h fun _ _ => .nameParent

theorem Res.Canon.execContextWipeComplete {c now} (h : s.Canon) : Res.Canon (execContextWipeComplete c now s) := by
  refine .next <| .ite h ?_
  dsimp only
  split
  · exact .setDesc h
  · exact .parentsNamed <| .setDesc <| .foldl (.allot <| .frame <| .setDesc h) fun _ _ => .ctxRecord

theorem State.Canon.poisonBlock {blk} (h : s.Canon) : (s.poisonBlock blk).Canon :=
  .ite (.setDesc <| .cause <| .event <| .set64 <| .bump h) <|
    .via (fun ha => .ite (.setDesc ha) ha) <| .setPoison <| .cause <| .event <| .set64 <| .bump h

theorem State.Canon.readCheck {blk flaw} (h : s.Canon) : (s.readCheck blk flaw).1.Canon := by
  refine .iteFst h ?_
  split
  · exact h
  · exact .bump h
  · exact .poisonBlock h
  · exact .iteFst (.poisonBlock <| .useFree h) <| .useFree h

theorem Res.Canon.execScrubStep {flaw} (h : s.Canon) : Res.Canon (execScrubStep flaw s) :=
  .next <| .ite h <| .frame <| .readCheck h

theorem State.Canon.stackCleared (h : s.Canon) : s.stackCleared.Canon :=
  .showCounts <| .foldl (.emptied h) fun _ _ ha => .setF <| .setF ha

theorem Res.Canon.execStackWipeComplete {tenths} (h : s.Canon) : Res.Canon (execStackWipeComplete tenths s) :=
  .next <| .ite h <| .cause <| .setSat <| .setF <| .setF <| .stackCleared h

theorem State.Canon.capEnable {r} (h : s.Canon) : (s.capEnable r).Canon := by
  unfold State.capEnable
  split
  · exact .ite (.frame <| .setF <| .setF h) <| .setF h
  · exact .setF <| .setF h
  · exact .setF <| .setF h

theorem State.Canon.capDisable {r} (h : s.Canon) : (s.capDisable r).Canon := .frame <| .setF <| .setF h

theorem State.Canon.capConfig {r value} (h : s.Canon) : (s.capConfig r value).Canon :=
  .ite (.capDisable <| .wr h) <| .ite (.capEnable <| .wr h) <| .ite (.wr h) <| .capDisable <| .wr h

theorem Res.Canon.execCaptureEnable {path r value} (h : s.Canon) : Res.Canon (execCaptureEnable path r value s) :=
  .next <| .ite h <| .ite (.setF h) <| .capConfig h

theorem State.Canon.putEff {a v} (h : s.Canon) : ({ s with eff := Sparse.put regReset s.eff a v } : State).Canon :=
  { h with eff := Sparse.wf_put _ _ _ _ h.eff }

theorem State.Canon.withEff {t : State} (h : s.Canon) (ht : t.Canon) : ({ s with eff := t.eff } : State).Canon :=
  { h with eff := ht.eff }

theorem State.Canon.capture {src now word cut} (h : s.Canon) : (s.capture src now word cut).Canon :=
  .foldl h fun _ _ ha => .ite (.frame ha) ha

theorem State.Canon.captureSkip {src} (h : s.Canon) : (s.captureSkip src).Canon := by
  refine .foldl h fun _ _ ha => .ite ?_ ha
  split
  · exact .frame ha
  · exact ha

theorem Res.Canon.execCaptureBlockWrite {r lost} (h : s.Canon) : Res.Canon (execCaptureBlockWrite r lost s) := by
  refine .next <| .ite h ?_
  dsimp only
  split
  · exact .frame <| .bumpBy h
  · exact .ite (.frame <| .bumpBy h) <| .frame <| .set64 <| .stackWrite <| .frame <| .bumpBy h

theorem State.Canon.captureRise {l} (h : s.Canon) : (s.captureRise l).Canon :=
  .foldl h fun _ _ ha => .ite (.frame ha) ha

theorem Res.Canon.execCaptureTrigger {r} (h : s.Canon) : Res.Canon (execCaptureTrigger r s) :=
  .next <| .ite (.frame <| .setF <| .setF <| .frame h) h

theorem Res.Canon.execCapturePostDone {r} (h : s.Canon) : Res.Canon (execCapturePostDone r s) :=
  .next <| .ite (.cause <| .setF <| .setF h) h

theorem State.Canon.capRearm {r} (h : s.Canon) : (s.capRearm r).Canon := .ifThen .setF <| .frame <| .setF h

/-! ### Sys2Proof/Machine/Scalar.lean -/

theorem State.Canon.setCore {n c} (h : s.Canon) : (s.setCore n c).Canon := .frame h

theorem State.Canon.setPart {p q} (h : s.Canon) : (s.setPart p q).Canon := .frame h

theorem State.Canon.partEnter {p st} (h : s.Canon) : (s.partEnter p st).Canon :=
  .causeIf <| .causeIf <| .setF <| .setF <| .setF h

theorem State.Canon.lmUpset {k upset} (h : s.Canon) : (s.lmUpset k upset).Canon := by
  unfold State.lmUpset
  dsimp only
  split
  · exact h
  · exact .ite (.bump <| .setCore h) h
  · exact .ite (.bump <| .setCore <| .useFree h) h

theorem State.Canon.coreTrap {k kind cause} (h : s.Canon) : (s.coreTrap k kind cause).Canon := .setCore h

theorem State.Canon.ran {k len target} (h : s.Canon) : (s.ran k len target).Canon := by
  unfold State.ran
  split
  · exact .setCore h
  · exact .setCore h
  · exact .coreTrap h

theorem Res.Canon.execScalarInstruction {k now cycle upset} (h : s.Canon) :
    Res.Canon (execScalarInstruction k now cycle upset s) := by
  refine .ite .fault <| .next <| .ite h ?_
  split
  · exact .coreTrap h
  · exact .coreTrap h
  · exact .ite h <| .ran <| .lmUpset h

/-! ### Sys2Proof/Machine/Thicket.lean -/

theorem Res.Canon.onExt {k op f} (h : s.Canon) (hf : ∀ a rd rs1 rs2, a.Canon → (f a rd rs1 rs2).Canon) :
    Res.Canon (s.onExt k op f) :=
  .ite .fault <| .next <| .ite h <| by
    split
    · exact .ite (hf _ _ _ _ h) h
    · exact h

theorem State.Canon.give {k rd v} (h : s.Canon) : (s.give k rd v).Canon := .setCore h

theorem State.Canon.await {k now timeout w} (h : s.Canon) : (s.await k now timeout w).Canon := .setCore h

theorem State.Canon.wipeCores {ks} (h : s.Canon) : (s.wipeCores ks).Canon := .foldl h fun _ _ => .setCore

theorem State.Canon.prepare {p} (h : s.Canon) : (s.prepare p).Canon := by
  unfold State.prepare
  dsimp only
  split
  · exact h
  · exact .foldl h fun _ _ => .setCore

theorem State.Canon.beginRun {p} (h : s.Canon) : (s.beginRun p).Canon := by
  unfold State.beginRun
  dsimp only
  split
  · exact h
  · exact .partEnter <| .setPart <| .foldl h fun _ _ => .setCore

theorem State.Canon.reloadPart {p} (h : s.Canon) : (s.reloadPart p).Canon := by
  unfold State.reloadPart
  extract_lets _ _ q _ _ _ a
  have ha : a.Canon := .setF <| .setPart <| .wipeCores <| .setF h
  split
  · exact .ite (.partEnter <| .setPart <| .prepare ha) <| .partEnter <| .setPart ha
  · exact .partEnter ha

theorem State.Canon.stopDone {p} (h : s.Canon) : (s.stopDone p).Canon :=
  .ite (.ite (.reloadPart h) <| .partEnter <| .setPart h) h

theorem State.Canon.haltPart {p} (h : s.Canon) : (s.haltPart p).Canon := .setPart <| .foldl h fun _ _ => .setCore

theorem Res.Canon.execEcall {k} (h : s.Canon) : Res.Canon (execEcall k s) := by
  refine .ite .fault <| .next <| .ite (.ite ?_ <| .coreTrap h) h
  dsimp only
  split
  · exact .setCore h
  · exact .ite (.stopDone <| .partEnter <| .setCore h) <| .setCore h

theorem Res.Canon.execEbreak {k} (h : s.Canon) : Res.Canon (execEbreak k s) := by
  refine .ite .fault <| .next <| .ite ?_ h
  split
  · exact .ite (.setCore h) <| .coreTrap h
  · exact h

theorem Res.Canon.execCoreFault {p now} (h : s.Canon) : Res.Canon (execCoreFault p now s) := by
  refine .next <| .ite h ?_
  split
  · exact h
  · exact .partEnter <| .setPart <| .haltPart <| .event <| .set64 <| .wr h

theorem State.Canon.sendNow {k ep addr len rd} (h : s.Canon) : (s.sendNow k ep addr len rd).Canon :=
  .ite (.setCore h) <| .ite (.setCore h) <| .ite (.setCore h) <| .give <| .setCore <| .setCore h

theorem Res.Canon.execThSend {k now upset} (h : s.Canon) : Res.Canon (execThSend k now upset s) := by
  refine .onExt h fun _ _ _ _ ha => ?_
  dsimp only
  split
  · exact .give <| .lmUpset ha
  · exact .give <| .lmUpset ha
  · exact .ite (.sendNow <| .lmUpset ha) <| .await <| .lmUpset ha

theorem Res.Canon.execThSendnb {k upset} (h : s.Canon) : Res.Canon (execThSendnb k upset s) := by
  refine .onExt h fun _ _ _ _ ha => ?_
  dsimp only
  split
  · exact .give <| .lmUpset ha
  · exact .give <| .lmUpset ha
  · exact .ite (.sendNow <| .lmUpset ha) <| .give <| .lmUpset ha

theorem State.Canon.takeSlot {k ch rd} (h : s.Canon) : (s.takeSlot k ch rd).Canon := .give <| .setCore h

theorem Res.Canon.execThRecv {k now} (h : s.Canon) : Res.Canon (execThRecv k now s) :=
  .onExt h fun _ _ _ _ ha => .ite (.takeSlot ha) <| .await ha

theorem Res.Canon.execThPeek {k} (h : s.Canon) : Res.Canon (execThPeek k s) :=
  .onExt h fun _ _ _ _ ha => .ite (.takeSlot ha) <| .give ha

theorem Res.Canon.execThWait {k now} (h : s.Canon) : Res.Canon (execThWait k now s) := by
  refine .onExt h fun _ _ _ _ ha => ?_
  dsimp only
  split
  · exact .give ha
  · exact .await ha

theorem Res.Canon.execThRelease {k} (h : s.Canon) : Res.Canon (execThRelease k s) := by
  refine .onExt h fun _ _ _ _ ha => .ite (.give ?_) <| .give ha
  split
  · exact .setCore <| .setCore ha
  · exact .setCore ha

theorem Res.Canon.execThCredits {k} (h : s.Canon) : Res.Canon (execThCredits k s) := .onExt h fun _ _ _ _ => .give

theorem State.Canon.wakeRecv {k ch} (h : s.Canon) : (s.wakeRecv k ch).Canon := by
  unfold State.wakeRecv
  dsimp only
  split
  · exact .ite (.takeSlot h) <| .ite (.give h) h
  · exact h

theorem Res.Canon.execMessageArrive {k ch} (h : s.Canon) : Res.Canon (execMessageArrive k ch s) := by
  refine .ite .fault <| .next ?_
  dsimp only
  split
  · exact h
  · exact .wakeRecv <| .setCore h

theorem Res.Canon.execCreditArrive {k ep} (h : s.Canon) : Res.Canon (execCreditArrive k ep s) := by
  refine .ite .fault <| .next <| .ite h ?_
  dsimp only
  split
  · exact .ite (.sendNow <| .setCore h) <| .setCore h
  · exact .setCore h

theorem Res.Canon.execWaitTimeout {k now} (h : s.Canon) : Res.Canon (execWaitTimeout k now s) := by
  refine .ite .fault <| .next ?_
  split
  · exact h
  · refine .ite h ?_
    split
    · exact .give h
    · exact .give h
    · exact .give h
    · exact .give h
    · exact h

theorem Res.Canon.execThBarrier {k now} (h : s.Canon) : Res.Canon (execThBarrier k now s) := by
  refine .onExt h fun _ _ _ _ ha => ?_
  dsimp only
  split
  · exact ha
  · split
    · exact .give ha
    · refine .ite (.give ha) <| .ite (.give <| .foldl (.setPart ha) fun _ _ hb => ?_) <| .await <| .setPart ha
      split
      · exact .give hb
      · exact hb

theorem Res.Canon.execBarrierTimeout {k now} (h : s.Canon) : Res.Canon (execBarrierTimeout k now s) := by
  refine .ite .fault <| .next ?_
  split
  · exact .ite (.give <| .setPart h) h
  · exact h

theorem Res.Canon.execThDma {k upset} (h : s.Canon) : Res.Canon (execThDma k upset s) :=
  .onExt h fun _ _ _ _ ha =>
    .ite (.coreTrap <| .lmUpset ha) <| .ite (.coreTrap <| .lmUpset ha) <| .ite (.coreTrap <| .lmUpset ha) <|
      .ite (.give <| .lmUpset ha) <| .ite (.give <| .lmUpset ha) <| .give <| .setCore <| .frame <| .lmUpset ha

theorem State.Canon.keepReads {slot} (h : s.Canon) : (s.keepReads slot).Canon := .frame h

theorem State.Canon.readBlock {k stack localAddr flaw kept} (h : s.Canon) : (s.readBlock k stack localAddr flaw kept).1.Canon :=
  .iteFst (.setCore <| .readCheck h) <| .setCore <| .readCheck h

theorem State.Canon.moveBlocks {k d bad} (h : s.Canon) : (s.moveBlocks k d bad).1.Canon :=
  .foldlFst h fun _ _ ha => .iteFst (.stackWrite ha) <| .readBlock ha

theorem Res.Canon.execDmaComplete {k tag bad} (h : s.Canon) : Res.Canon (execDmaComplete k tag bad s) := by
  refine .ite .fault <| .next ?_
  split
  · exact h
  · exact .ite h <|
      .via
        (fun ha => by
          dsimp only
          split
          · exact .ite (.give <| .setCore <| .setCore ha) <| .setCore ha
          · exact .setCore ha) <| .iteFst (.moveBlocks h) h

theorem State.Canon.dmaResult {k rd tag} {pending : State} (h : s.Canon) (hpending : pending.Canon) :
    (s.dmaResult k rd tag pending).Canon := by
  unfold State.dmaResult
  dsimp only
  split
  · exact .give h
  · exact .ite (.give <| .setCore h) hpending

theorem Res.Canon.execThDmawait {k now} (h : s.Canon) : Res.Canon (execThDmawait k now s) :=
  .onExt h fun _ _ _ _ ha => .dmaResult ha <| .await ha

theorem Res.Canon.execThDmapoll {k} (h : s.Canon) : Res.Canon (execThDmapoll k s) :=
  .onExt h fun _ _ _ _ ha => .dmaResult ha <| .give ha

theorem State.Canon.stageLane {k lane now r} (h : s.Canon) : (s.stageLane k lane now r).Canon :=
  .ite h <| .ifThen (fun ha => .cause <| .bump ha) <| .frame h

theorem Res.Canon.execThPub {k now upset} (h : s.Canon) : Res.Canon (execThPub k now upset s) := by
  refine .onExt h fun _ _ _ _ ha => ?_
  dsimp only
  split
  · exact .lmUpset ha
  · exact .ite (.give <| .lmUpset ha) <| .ite (.give <| .lmUpset ha) <| .ite (.coreTrap <| .lmUpset ha) <|
      .ite (.coreTrap <| .lmUpset ha) <| .ite (.give <| .lmUpset ha) <| .give <| .stageLane <| .lmUpset ha

theorem Res.Canon.execThSlotsel {k} (h : s.Canon) : Res.Canon (execThSlotsel k s) := by
  refine .onExt h fun _ _ _ _ ha => ?_
  dsimp only
  split
  · exact ha
  · exact .ite (.give <| .setPart ha) <| .give ha

/-! ### Sys2Proof/Machine/Tensor.lean -/

theorem Res.Canon.execThTzero {k} (h : s.Canon) : Res.Canon (execThTzero k s) :=
  .onExt h fun _ _ _ _ ha => .give <| .setCore ha

theorem Res.Canon.execThTld {k upset} (h : s.Canon) : Res.Canon (execThTld k upset s) := by
  refine .onExt h fun _ _ _ _ ha => ?_
  dsimp only
  split
  · exact .coreTrap <| .lmUpset ha
  · exact .give <| .setCore <| .lmUpset ha

theorem Res.Canon.execThTst {k} (h : s.Canon) : Res.Canon (execThTst k s) := by
  refine .onExt h fun _ _ _ _ ha => ?_
  dsimp only
  split
  · exact .coreTrap ha
  · exact .give <| .setCore ha

theorem State.Canon.product {k t pa pb transposed} (h : s.Canon) : (s.product k t pa pb transposed).Canon := by
  refine .ite (.coreTrap h) ?_
  split
  · exact .coreTrap h
  · exact .coreTrap h
  · exact .give <| .setCore h

theorem Res.Canon.execThTmma {k upset} (h : s.Canon) : Res.Canon (execThTmma k upset s) :=
  .onExt h fun _ _ _ _ ha => .product <| .lmUpset ha

theorem Res.Canon.execThTmmaT {k upset} (h : s.Canon) : Res.Canon (execThTmmaT k upset s) :=
  .onExt h fun _ _ _ _ ha => .product <| .lmUpset ha

theorem State.Canon.narrow {k f stochastic src dst} (h : s.Canon) : (s.narrow k f stochastic src dst).Canon := by
  unfold State.narrow
  dsimp only
  split
  · exact .coreTrap h
  · exact .give <| .setCore h

theorem State.Canon.widen {k f src dst} (h : s.Canon) : (s.widen k f src dst).Canon := by
  unfold State.widen
  dsimp only
  split
  · exact .coreTrap h
  · exact .give <| .setCore h

theorem Res.Canon.onNarrow {k f upset} (h : s.Canon) : Res.Canon (s.onNarrow k f upset) := by
  refine .ite .fault <| .next <| .ite h ?_
  split
  · exact .ite (.narrow <| .lmUpset h) h
  · exact h

theorem Res.Canon.onWiden {k f upset} (h : s.Canon) : Res.Canon (s.onWiden k f upset) :=
  .onExt h fun _ _ _ _ ha => .widen <| .lmUpset ha

theorem Res.Canon.execThCvtE4m3F32 {k upset} (h : s.Canon) : Res.Canon (execThCvtE4m3F32 k upset s) := .onNarrow h

theorem Res.Canon.execThCvtE5m2F32 {k upset} (h : s.Canon) : Res.Canon (execThCvtE5m2F32 k upset s) := .onNarrow h

theorem Res.Canon.execThCvtBf16F32 {k upset} (h : s.Canon) : Res.Canon (execThCvtBf16F32 k upset s) := .onNarrow h

theorem Res.Canon.execThCvtI8F32 {k upset} (h : s.Canon) : Res.Canon (execThCvtI8F32 k upset s) := .onNarrow h

theorem Res.Canon.execThCvtQ12bF32 {k upset} (h : s.Canon) : Res.Canon (execThCvtQ12bF32 k upset s) := .onNarrow h

theorem Res.Canon.execThCvtF32E4m3 {k upset} (h : s.Canon) : Res.Canon (execThCvtF32E4m3 k upset s) := .onWiden h

theorem Res.Canon.execThCvtF32E5m2 {k upset} (h : s.Canon) : Res.Canon (execThCvtF32E5m2 k upset s) := .onWiden h

theorem Res.Canon.execThCvtF32Bf16 {k upset} (h : s.Canon) : Res.Canon (execThCvtF32Bf16 k upset s) := .onWiden h

theorem Res.Canon.execThCvtF32I8 {k upset} (h : s.Canon) : Res.Canon (execThCvtF32I8 k upset s) := .onWiden h

theorem Res.Canon.execThCvtF32Q12b {k upset} (h : s.Canon) : Res.Canon (execThCvtF32Q12b k upset s) := .onWiden h

/-! ### Sys2Proof/Machine/Part.lean -/

theorem State.Canon.partBusy {p} (h : s.Canon) : (s.partBusy p).Canon := .setF h

theorem Res.Canon.execPartLoad {p} (h : s.Canon) : Res.Canon (execPartLoad p s) :=
  .next <| .ite h <| .ite (.partBusy h) <| .ite (.setF h) <| .partEnter <| .setF <| .setF <| .setPart <|
    .ifThen .misuse <| .wipeCores h

theorem Res.Canon.execPartLoadComplete {p} (h : s.Canon) : Res.Canon (execPartLoadComplete p s) := by
  refine .next <| .ite h ?_
  split
  · exact h
  · exact .partEnter <| .setF <| .prepare <| .stackWrite <| .setPart h
  · exact .partEnter <| .setF <| .setPart <| .wipeCores h

theorem Res.Canon.execPartStart {p} (h : s.Canon) : Res.Canon (execPartStart p s) :=
  .next <| .ite h <| .ite (.setPart h) <| .ite (.setF <| .setPart <| .prepare h) <| .partBusy h

theorem Res.Canon.execPartStop {p} (h : s.Canon) : Res.Canon (execPartStop p s) :=
  .next <| .ite h <| .ite (.partEnter <| .haltPart h) <| .ite (.partEnter <| .setPart h) <|
    .ite (.partEnter <| .setPart <| .wipeCores h) <| .partBusy h

theorem Res.Canon.execPartStopComplete {p} (h : s.Canon) : Res.Canon (execPartStopComplete p s) := .next <| .stopDone h

theorem Res.Canon.execPartUnload {p} (h : s.Canon) : Res.Canon (execPartUnload p s) :=
  .next <| .ite h <| .ite (.partEnter <| .setF <| .setPart <| .wipeCores h) <| .partBusy h

theorem Res.Canon.execPartClear {p} (h : s.Canon) : Res.Canon (execPartClear p s) :=
  .next <| .ite h <| .ite (.partEnter <| .setF h) <| .partBusy h

theorem State.Canon.showRestarts {p now} (h : s.Canon) : (s.showRestarts p now).Canon := .setSat <| .setPart h

theorem Res.Canon.execPartAutoRestart {p now} (h : s.Canon) : Res.Canon (execPartAutoRestart p now s) := by
  refine .next ?_
  dsimp only
  split
  · exact h
  · exact .ite (.cause <| .showRestarts <| .beginRun <| .setPart <| .prepare h) h

theorem State.Canon.suspendParts (h : s.Canon) : s.suspendParts.Canon :=
  .foldl h fun _ _ ha => .ite (.setF <| .partEnter <| .haltPart ha) ha

theorem Res.Canon.execPartResume (h : s.Canon) : Res.Canon (execPartResume s) :=
  .next <| .foldl h fun _ _ ha => .ite (.setF <| .setPart <| .prepare ha) ha

theorem State.Canon.applySlots {p} (h : s.Canon) : (s.applySlots p).1.Canon := by
  refine .foldlFst h fun _ _ ha => ?_
  split
  · exact ha
  · exact .iteFst (.setPart ha) <| .iteFst ha <| .frame <| .keepReads <| .setPart ha

theorem State.Canon.boundaryMessages {p changed} (h : s.Canon) : (s.boundaryMessages p changed).Canon :=
  .ite (.setPart <| .foldl h fun _ _ ha => .ite (.wakeRecv <| .setCore ha) ha) h

theorem State.Canon.thicketBoundary {now} (h : s.Canon) : (s.thicketBoundary now).Canon :=
  .frame <| .foldl (.frame h) fun _ _ ha => .ifThen .beginRun <| .showRestarts <| .boundaryMessages <| .applySlots ha

theorem State.Canon.windowAccess {path die off isWrite value size} (h : s.Canon) :
    (s.windowAccess path die off isWrite value size).Canon :=
  .ite (.ite (.emit <| .setCore h) <| .emit h) <| .emit <| .bump h

/-! ### Sys2Proof/Machine/Net.lean -/

theorem State.Canon.macCount {port frame} (h : s.Canon) : (s.macCount port frame).Canon := .ite (.frame h) h

theorem State.Canon.receive {port udpPort frame act} (h : s.Canon) (hact : ∀ m, (act m).Canon) :
    (s.receive port udpPort frame act).Canon := by
  unfold State.receive
  split
  · exact hact _
  · exact .macCount h

theorem State.Canon.receiveHint {port frame act} (h : s.Canon) (hact : ∀ m, (act m).Canon) :
    (s.receiveHint port frame act).Canon := by
  unfold State.receiveHint
  split
  · exact hact _
  · exact .macCount h

theorem State.Canon.emitPorts {kind args} (h : s.Canon) : (s.emitPorts kind args).Canon :=
  .ifThen .emit <| .ite (.emit h) h

/-! ### Sys2Proof/Machine/Hint.lean -/

theorem State.Canon.hintSend {typ dest body} (h : s.Canon) : (s.hintSend typ dest body).Canon := by
  refine .ite (.frame ?_) h
  split
  · exact .emitPorts h
  · exact .emitPorts h

theorem State.Canon.sendDiscover {dest} (h : s.Canon) : (s.sendDiscover dest).Canon := .hintSend h

theorem State.Canon.askSender {id now} (h : s.Canon) : (s.askSender id now).Canon := .ite (.sendDiscover <| .frame h) h

theorem State.Canon.sendAnnounce (h : s.Canon) : s.sendAnnounce.Canon := .frame <| .hintSend h

theorem State.Canon.setPartner {i p} (h : s.Canon) : (s.setPartner i p).Canon := .frame h

theorem State.Canon.showAdmitted (h : s.Canon) : s.showAdmitted.Canon := .setSat h

theorem State.Canon.admitPartner {i} (h : s.Canon) : (s.admitPartner i).Canon := .showAdmitted <| .setF <| .setPartner h

theorem State.Canon.hntDrop {code} (h : s.Canon) : (s.hntDrop code).Canon := .bump h

/-- The state that the checks of a message leave is in canonical form. -/
def Checked.Canon : Checked → Prop
  | .dropped a | .member a _ _ | .stranger a => a.Canon

theorem Checked.Canon.dropped {a : State} (h : a.Canon) : Checked.Canon (.dropped a) := h

theorem Checked.Canon.stranger {a : State} (h : a.Canon) : Checked.Canon (.stranger a) := h

theorem Checked.Canon.ite {c : Prop} {_ : Decidable c} {a b : Checked} (ha : a.Canon) (hb : b.Canon) :
    (if c then a else b).Canon := by
  split
  · exact ha
  · exact hb

theorem Checked.Canon.hintCheck {typ port now m queued} (h : s.Canon) : (s.hintCheck typ port now m queued).Canon := by
  refine .ite (.dropped h) <| .ite (.dropped <| .hntDrop h) <| .ite (.dropped h) <|
    .ite (.dropped <| .ite (.misuse <| .hntDrop h) <| .hntDrop h) <| .ite (.dropped <| .hntDrop h) ?_
  dsimp only
  split
  · refine .ite (.dropped <| .ite (.askSender <| .hntDrop h) <| .hntDrop h) <| .ite (.dropped <| .hntDrop h) <|
      .ite (.dropped <| .hntDrop h) <| .ite (.dropped <| .hntDrop h) ?_
    split
    · exact .dropped <| .hntDrop h
    · exact .stranger <| .frame h
  · refine .ite (.dropped <| .hntDrop h) ?_
    split
    · exact .dropped <| .hntDrop h
    · rename_i a htok
      have ha : a.Canon := by
        cases hr : s.rateOf typ with
        | none =>
          obtain rfl : s = a := by simpa [hr] using htok
          exact h
        | some r =>
          simp only [hr] at htok
          rcases ite_eq_iff.1 htok with ⟨-, htok⟩ | ⟨-, htok⟩
          · obtain rfl := Option.some.inj htok
            exact h
          · obtain ⟨b, -, rfl⟩ := Option.map_eq_some_iff.1 htok
            exact .setPartner h
      split
      · exact .dropped <| .hntDrop ha
      · exact .dropped <| .askSender <| .hntDrop ha
      · exact .ite (.dropped <| .hntDrop ha) <| .ite (.dropped <| .hntDrop ha) <| .ite (.dropped <| .hntDrop ha) ha

theorem State.Canon.hintAccept {i c m port now} (h : s.Canon) : (s.hintAccept i c m port now).Canon := by
  refine .ifThen (fun ha => .showAdmitted <| .setF ha) <| .setF <| .setF <| .setPartner ?_
  split
  · exact .tellDesc h
  · exact h

theorem Res.Canon.execGrantReceive {port now frame} (h : s.Canon) : Res.Canon (execGrantReceive port now frame s) := by
  refine .next <| .receiveHint h fun m => ?_
  have hk : (s.hintCheck 4 port now m 0).Canon := .hintCheck h
  revert hk
  cases s.hintCheck 4 port now m 0 with
  | dropped a => exact id
  | stranger a => exact id
  | member a i c => exact fun ha => .hintAccept ha

theorem State.Canon.scheduleAnswer {now m} (h : s.Canon) : (s.scheduleAnswer now m).Canon := .ite h <| .frame h

theorem Res.Canon.execDiscoverReceive {port now frame} (h : s.Canon) : Res.Canon (execDiscoverReceive port now frame s) := by
  refine .next <| .receiveHint h fun m => ?_
  have hk : (s.hintCheck 5 port now m 0).Canon := .hintCheck h
  revert hk
  cases s.hintCheck 5 port now m 0 with
  | dropped a => exact id
  | stranger a => exact fun ha => .scheduleAnswer ha
  | member a i c => exact fun ha => .scheduleAnswer <| .hintAccept ha

theorem State.Canon.takeAnnounce {i now m} (h : s.Canon) : (s.takeAnnounce i now m).Canon :=
  .setF <| .setF <| .setF <| .set64 <| .setPartner h

theorem State.Canon.restartSeen {i m} (h : s.Canon) : (s.restartSeen i m).Canon := .event h

theorem State.Canon.announceStranger {port now m} (h : s.Canon) : (s.announceStranger port now m).Canon := by
  unfold State.announceStranger
  extract_lets entry
  clear_value entry
  cases entry with
  | none => exact h
  | some i =>
    exact .via (fun ha => .ite (.setF ha) <| .ite (.setF ha) <| .ite (.setPartner <| .admitPartner ha) <| .setF ha) <|
      .ifThen .restartSeen <| .takeAnnounce h

theorem State.Canon.announceMember {i c port now m} (h : s.Canon) : (s.announceMember i c port now m).Canon :=
  .ifThen (fun ha => .showAdmitted <| .setF ha) <| .ifThen (fun ha => .restartSeen <| .setPartner ha) <|
    .takeAnnounce <| .hintAccept h

theorem Res.Canon.execAnnounceReceive {port now frame} (h : s.Canon) : Res.Canon (execAnnounceReceive port now frame s) := by
  refine .next <| .receiveHint h fun m => ?_
  have hk : (s.hintCheck 6 port now m 0).Canon := .hintCheck h
  revert hk
  cases s.hintCheck 6 port now m 0 with
  | dropped a => exact id
  | stranger a => exact fun ha => .announceStranger ha
  | member a i c => exact fun ha => .announceMember ha

theorem Res.Canon.execAnnounceSend {now} (h : s.Canon) : Res.Canon (execAnnounceSend now s) := by
  refine .next ?_
  split
  · exact .ite (.sendAnnounce <| .frame h) h
  · exact h

theorem State.Canon.enterPhase {p} (h : s.Canon) : (s.enterPhase p).Canon := .cause <| .setF h

theorem Res.Canon.execPartnerListen {now} (h : s.Canon) : Res.Canon (execPartnerListen now s) :=
  .next <| .ite h <| .frame <| .sendDiscover <| .enterPhase h

theorem Res.Canon.execAdmitPoint {now} (h : s.Canon) : Res.Canon (execAdmitPoint now s) :=
  .next <| .ite h <| .enterPhase <| .foldl h fun _ _ ha => .ite (.ite (.admitPartner ha) <| .setF ha) ha

theorem Res.Canon.execPartnerSilent {i now} (h : s.Canon) : Res.Canon (execPartnerSilent i now s) :=
  .next <| .ite (.setPartner <| .setF h) h

theorem Res.Canon.execPartnerLeft {i now} (h : s.Canon) : Res.Canon (execPartnerLeft i now s) :=
  .next <| .ite (.showAdmitted <| .setF h) h

theorem Res.Canon.execHntDiscover (h : s.Canon) : Res.Canon (execHntDiscover s) := .next <| .sendDiscover h

theorem Res.Canon.execClearDrops (h : s.Canon) : Res.Canon (execClearDrops s) := .next <| .foldl h fun _ _ => .setF

theorem Res.Canon.execForget {i} (h : s.Canon) : Res.Canon (execForget i s) :=
  .next <| .ite (.showAdmitted <| .setPartner <| .setF <| .wr <| .set64 h) h

theorem State.Canon.showSeen {now} (h : s.Canon) : (s.showSeen now).Canon :=
  .foldl h fun _ _ ha => .ite ha <| .setSat ha

theorem State.Canon.linkAnnounce {now} (h : s.Canon) : (s.linkAnnounce now).Canon := .ite h <| .frame h

theorem Res.Canon.execEthLinkChange {port up now} (h : s.Canon) : Res.Canon (execEthLinkChange port up now s) :=
  .next <| .ite h <| .ifThen .linkAnnounce <| .ifElse (fun ha => .frame ha) <| .cause <| .setF h

theorem Res.Canon.execIcmpv6Receive {port frame} (h : s.Canon) : Res.Canon (execIcmpv6Receive port frame s) := by
  refine .next <| .ite h ?_
  split
  · exact .emit h
  · exact .macCount h

theorem State.Canon.setTq {q} (h : s.Canon) : (s.setTq q).Canon := .ite h <| .cause <| .setF <| .setF <| .setF h

theorem State.Canon.enterHoldover {now} (h : s.Canon) : (s.enterHoldover now).Canon :=
  .setF <| .frame <| .setF <| .setTq h

theorem State.Canon.steer {offset} (h : s.Canon) : (s.steer offset).Canon := .ite h <| .setF <| .setS <| .useFree h

theorem State.Canon.askDelay {port now} (h : s.Canon) : (s.askDelay port now).Canon := .ite h <| .emit <| .frame h

theorem Res.Canon.execPtpSyncReceive {port now domain t1 t2 delay} (h : s.Canon) :
    Res.Canon (execPtpSyncReceive port now domain t1 t2 delay s) :=
  .next <| .ite h <| .askDelay <| .steer <| .via (fun ha => .ite (.enterHoldover ha) <| .ite (.setTq ha) ha) <|
    .ifThen (fun ha => .event <| .setF ha) <| .frame <| .setF <| .setS <| .frame h

theorem State.Canon.selectMaster {now} (h : s.Canon) : (s.selectMaster now).Canon := by
  unfold State.selectMaster
  split
  · exact .setF h
  · exact .ifThen (fun ha => .frame <| .setTq ha) <| .setF <| .setF <| .frame h

theorem State.Canon.loseTime {now} (h : s.Canon) : (s.loseTime now).Canon := .ite (.enterHoldover h) h

theorem Res.Canon.execPtpSyncLoss {now} (h : s.Canon) : Res.Canon (execPtpSyncLoss now s) :=
  .next <| .ite (.selectMaster <| .loseTime h) <| .ite (.loseTime h) h

theorem Res.Canon.execHoldoverExpire {now} (h : s.Canon) : Res.Canon (execHoldoverExpire now s) :=
  .next <| .ite (.setTq h) h

theorem Res.Canon.execPtpAnnounceReceive {port now announce} (h : s.Canon) :
    Res.Canon (execPtpAnnounceReceive port now announce s) :=
  .next <| .ite h <| .selectMaster <| .frame <| .ite (.loseTime h) h

/-! ### Sys2Proof/Machine/Sense.lean -/

theorem State.Canon.setFt {t x} (h : s.Canon) : (s.setFt t x).Canon := .frame h

theorem State.Canon.feedTiles {src x} (h : s.Canon) : (s.feedTiles src x).Canon :=
  .foldl h fun _ _ ha => .ite (.setFt ha) ha

theorem State.Canon.publish {t v flags end16 due} (h : s.Canon) : (s.publish t v flags end16 due).Canon :=
  .feedTiles <| .capture <| .setFt <| .setF <| .setF <| .setF <| .setF <| .setS <| .setFt h

theorem State.Canon.snsStatus (h : s.Canon) : s.snsStatus.Canon := .causeIf <| .setF h

theorem State.Canon.senseDomains (h : s.Canon) : s.senseDomains.Canon :=
  .foldl h fun _ _ ha => .ifThen (fun hb => .setF <| .useFree hb) <| .setRuns ha

theorem State.Canon.edgeArrives {g} (h : s.Canon) : (s.edgeArrives g).Canon := .ite (.senseDomains <| .frame h) h

theorem Res.Canon.execFilterTrigger {t at16 bits edge span stale} (h : s.Canon) :
    Res.Canon (execFilterTrigger t at16 bits edge span stale s) :=
  .next <| .ite h <|
    .ifElse
      (fun ha =>
        .ite (.ite (.captureSkip <| .setF ha) ha) <|
          .ifElse (fun hb => .publish <| .ifThen (fun hc => .frame hc) <| .ite (.crossingFailed hb) hb) <|
          .ifThen .setF <| .setFt <| .ite (.setF ha) ha) <| .setFt <| .ite (.edgeArrives h) h

theorem Res.Canon.execLimitComparator {t x} (h : s.Canon) : Res.Canon (execLimitComparator t x s) :=
  .next <| .ite h <| .via (fun ha => .ite (.setFt ha) <| .setFt ha) <| .ite (.edgeArrives h) h

theorem Res.Canon.execStuck {n} (h : s.Canon) : Res.Canon (execStuck n s) :=
  .next <| .ite (.event <| .snsStatus <| .setF <| .setF <| .frame h) h

theorem Res.Canon.execStuckClear {n} (h : s.Canon) : Res.Canon (execStuckClear n s) := .next <| .frame h

theorem Res.Canon.execClkLoss {g} (h : s.Canon) : Res.Canon (execClkLoss g s) :=
  .next <| .ite h <|
    .ifThen (fun ha => .snsStatus <| .foldl ha fun _ _ hb => .event <| .setF <| .setF <| .frame hb) <| .setRuns <|
    .frame h

theorem Res.Canon.execClkLossClear {g} (h : s.Canon) : Res.Canon (execClkLossClear g s) :=
  .next <| .ifThen (fun ha => .useFree <| .setF <| .setRuns ha) <| .frame h

theorem Res.Canon.execAdTrigger {k at16} (h : s.Canon) : Res.Canon (execAdTrigger k at16 s) :=
  .next <| .ite h <| .ite (.captureSkip <| .setF h) <| .frame h

theorem Res.Canon.execAdConversionDone {k code stale} (h : s.Canon) : Res.Canon (execAdConversionDone k code stale s) :=
  .next <| .ite h <| .feedTiles <| .setS <| .capture <| .ifThen (fun ha => .snsStatus <| .setF <| .setF ha) <|
    .frame <| .ifThen .crossingFailed <| .frame h

theorem Res.Canon.execCcBlock {k r now} (h : s.Canon) : Res.Canon (execCcBlock k r now s) :=
  .next <| .ite h <| .feedTiles <| .capture <| .via (fun ha => .ite (.frame ha) <| .frame ha) <|
    .ifThen (fun ha => .via (fun hb => .ite (.setF hb) <| .setF hb) <| .ite (.setS ha) <| .setS ha) <|
    .ifThen (fun ha => .snsStatus <| .setF <| .setF ha) <| .ifThen .setF <| .ifThen .setF <| .setF <| .setS <|
    .setS <| .frame h

theorem State.Canon.ccLatch {path k} (h : s.Canon) : (s.ccLatch path k).Canon := .wrPath <| .wrPath h

theorem State.Canon.fixSampleInstant {pNs si lead} (h : s.Canon) : (s.fixSampleInstant pNs si lead).Canon := .frame h

/-! ### Sys2Proof/Machine/Lt.lean -/

theorem State.Canon.setTile {t x} (h : s.Canon) : (s.setTile t x).Canon := .frame h

theorem State.Canon.setComp {t k} (h : s.Canon) : (s.setComp t k).Canon := .set64 <| .set64 <| .set64 <| .set64 h

theorem State.Canon.controlFault {code} (h : s.Canon) : (s.controlFault code).Canon := .ite (.frame h) h

theorem State.Canon.twinState {st} (h : s.Canon) : (s.twinState st).Canon := .ite h <| .cause <| .setF h

theorem State.Canon.line {which level} (h : s.Canon) : (s.line which level).Canon := .emit h

theorem State.Canon.withdraw (h : s.Canon) : s.withdraw.Canon := .ite (.line <| .frame h) h

theorem State.Canon.powerState {v} (h : s.Canon) : (s.powerState v).Canon := .ite h <| .cause <| .setF h

theorem State.Canon.wipeDie {d} (h : s.Canon) : (s.wipeDie d).Canon := .frame h

theorem State.Canon.dieOn {d} (h : s.Canon) : (s.dieOn d).Canon :=
  .ite h <| .setF <| .setF <| .setF <| .setF <| .setF <| .setF <| .setF <| .setRunsAll <| .wipeDie h

theorem State.Canon.shadow (h : s.Canon) : s.shadow.Canon :=
  .ite h <| .ifThen (fun ha => .dieOn <| .dieOn ha) <| .powerState h

theorem State.Canon.readyIs {ready} (h : s.Canon) : (s.readyIs ready).Canon := .ite h <| .cause <| .setF h

theorem State.Canon.quarantine {why} (h : s.Canon) : (s.quarantine why).Canon :=
  .event <| .twinState <| .setF <| .readyIs <| .shadow <| .frame <| .withdraw h

theorem State.Canon.preRunFail (h : s.Canon) : s.preRunFail.Canon := .ite (.quarantine h) h

theorem State.Canon.loopFault {t at16} (h : s.Canon) : (s.loopFault t at16).Canon :=
  .preRunFail <| .controlFault <| .snapTrigger <| .cause <| .setF <| .ifThen .setF <| .ifThen (fun ha => .frame ha) <|
    .setMapBit <| .setF h

theorem State.Canon.residueFault {t at16 bank} (h : s.Canon) : (s.residueFault t at16 bank).Canon :=
  .event <| .loopFault <| .bump <| .setF h

theorem State.Canon.tileMiss {t cause at16} (h : s.Canon) : (s.tileMiss t cause at16).Canon :=
  .ifThen (fun ha => .event <| .loopFault ha) <| .ifThen .preRunFail <| .captureSkip <| .bump <| .bump <|
    .setMapBit <| .setF h

theorem State.Canon.flagIf {b f i} (h : s.Canon) : (s.flagIf b f i).Canon := .ite (.setF h) h

theorem State.Canon.setLane {n x} (h : s.Canon) : (s.setLane n x).Canon := .frame h

theorem State.Canon.handLane {n u at16} (h : s.Canon) : (s.handLane n u at16).Canon := .setLane h

theorem State.Canon.firstSample {t meas} (h : s.Canon) : (s.firstSample t meas).Canon := .ifThen .setS <| .setTile h

theorem State.Canon.sramWord {inst sram word wrong} (h : s.Canon) : (s.sramWord inst sram word wrong).Canon :=
  .ite h <| .ite (.bump h) <| .event <| .frame h

theorem State.Canon.tileSample {t at16 stamp place upset sram ins} (h : s.Canon) :
    (s.tileSample t at16 stamp place upset sram ins).Canon :=
  .ite h <| .ite (.sramWord <| .loopFault h) <|
    .ifElse
      (fun ha =>
        .ite (.ifThen .preRunFail <| .tileMiss <| .setF <| .ite (.firstSample ha) ha) <|
          .ite (.tileMiss <| .ite (.firstSample ha) ha) <|
          .ite (.event <| .loopFault <| .bump <| .setF <| .setTile ha) <| .ite (.residueFault ha) <|
          .ifThen (fun hb => .handLane <| .setF hb) <| .flagIf <| .flagIf <| .flagIf <| .flagIf <| .flagIf <|
          .flagIf <| .setF <| .capture <| .setF <| .setS <| .setS <| .setComp <| .setMapBit <| .ifThen .setS <|
          .setTile ha) <| .setTile <| .sramWord h

theorem Res.Canon.execLoopTileSample {t at16 place upset sram} (h : s.Canon) :
    Res.Canon (execLoopTileSample t at16 place upset sram s) := by
  refine .next ?_
  split
  · exact h
  · exact .ite h <| .ite (.frame h) <| .ifThen (fun ha => .frame ha) <| .tileSample h

theorem Res.Canon.execDeadlineMiss {t cause event at16} (h : s.Canon) : Res.Canon (execDeadlineMiss t cause event at16 s) := by
  refine .next <| .ite h ?_
  split
  · exact h
  · exact .ite (.tileMiss <| .setTile h) h

theorem Res.Canon.execResTestArm {t} (h : s.Canon) : Res.Canon (execResTestArm t s) :=
  .next <| .ite (.journal <| .setTile h) h

theorem State.Canon.refuseEnable {t} (h : s.Canon) : (s.refuseEnable t).Canon := .putEff <| .setF h

theorem State.Canon.laneOfTileStarts {n} (h : s.Canon) : (s.laneOfTileStarts n).Canon := .ite (.setF <| .setLane h) h

theorem State.Canon.laneOfTileStops {n} (h : s.Canon) : (s.laneOfTileStops n).Canon := .ite (.setLane h) h

theorem State.Canon.startTile {t} (h : s.Canon) : (s.startTile t).Canon :=
  .ite (.refuseEnable <| .setF h) <| .ite (.refuseEnable <| .setF h) <| .setMapBit <| .setF <|
    .ifThen .laneOfTileStarts <| .setF <| .setComp <| .setTile h

theorem State.Canon.stopTile {t} (h : s.Canon) : (s.stopTile t).Canon :=
  .setMapBit <| .setF <| .setF <| .setF <| .setF <| .setComp <| .ifThen .laneOfTileStops <| .setTile h

theorem State.Canon.sourceStop {t} (h : s.Canon) : (s.sourceStop t).Canon :=
  .refuseEnable <| .setF <| .ite (.setTile h) <| .stopTile h

theorem State.Canon.tileLeaves {t} (h : s.Canon) : (s.tileLeaves t).Canon :=
  .ite (.stopTile h) <| .ite h <| .ifElse .sourceStop <| .ite (.setTile h) h

theorem State.Canon.tilesAtBoundary (h : s.Canon) : s.tilesAtBoundary.Canon :=
  .foldl (.foldl (.foldl h fun _ _ ha => .ite (.tileLeaves ha) ha) fun _ _ ha => .ite (.startTile ha) ha) fun _ _ ha =>
    .ite (.ifThen .setTile <| .setMapBit ha) ha

/-! ### Sys2Proof/Machine/Pwm.lean -/

theorem State.Canon.setConv {c x} (h : s.Canon) : (s.setConv c x).Canon := .frame h

theorem State.Canon.setLaneSt {n st} (h : s.Canon) : (s.setLaneSt n st).Canon := .setF <| .setF h

theorem State.Canon.notchMove {n} (h : s.Canon) : (s.notchMove n).Canon := by
  unfold State.notchMove
  split
  · dsimp only
    split
    · exact .frame <| .setLane h
    · exact .setLane h
  · exact h

theorem State.Canon.countMoved {n k} (h : s.Canon) : (s.countMoved n k).Canon := .ite h <| .setF <| .bumpBy h

theorem State.Canon.settleNotch {t} (h : s.Canon) : (s.settleNotch t).Canon := by
  refine .setF <| .frame <| .foldl h fun _ _ ha => ?_
  split
  · exact .countMoved <| .setLane ha
  · exact ha

theorem State.Canon.deferNotch {c} (h : s.Canon) : (s.deferNotch c).Canon := .frame <| .event <| .bump h

theorem State.Canon.shedMeetsNotch {c at16} (h : s.Canon) : (s.shedMeetsNotch c at16).Canon := by
  unfold State.shedMeetsNotch
  split
  · exact .ite (.deferNotch <| .settleNotch h) h
  · exact h

theorem Res.Canon.execNotchOpen (h : s.Canon) : Res.Canon (execNotchOpen s) := by
  refine .next ?_
  split
  · exact h
  · refine .ite h ?_
    split
    · exact .deferNotch <| .settleNotch h
    · exact .foldl (.bump <| .setF <| .frame h) fun _ _ => .notchMove

theorem Res.Canon.execNotchClose (h : s.Canon) : Res.Canon (execNotchClose s) := by
  refine .next ?_
  split
  · exact .settleNotch h
  · exact h

theorem State.Canon.laneBad {n} (h : s.Canon) : (s.laneBad n).Canon := .setF h

theorem State.Canon.joinGrid {n b phase} (h : s.Canon) : (s.joinGrid n b phase).Canon :=
  .ite (.laneBad h) <| .ifElse .setLaneSt <| .setLane h

theorem State.Canon.leaveGrid {n again} (h : s.Canon) : (s.leaveGrid n again).Canon := .ite (.setLane h) h

theorem State.Canon.takeLanePlane {n} (h : s.Canon) : (s.takeLanePlane n).Canon := by
  unfold State.takeLanePlane
  split
  · exact h
  · exact .frame <| .foldl h fun _ _ ha => .putEff <| .wr ha

theorem State.Canon.pulseEnds {n} (h : s.Canon) : (s.pulseEnds n).Canon := .ifThen .countMoved <| .setLane h

theorem State.Canon.startPulse {n at16 on} (h : s.Canon) : (s.startPulse n at16 on).Canon :=
  .notchMove <| .ifThen (fun ha => .bump <| .setF ha) <| .setF <| .setLane <| .pulseEnds h

theorem State.Canon.offPeriod {n} (h : s.Canon) : (s.offPeriod n).Canon := .pulseEnds h

theorem State.Canon.offNow {n} (h : s.Canon) : (s.offNow n).Canon := .setLane h

theorem State.Canon.readdTile {n on} (h : s.Canon) : (s.readdTile n on).Canon := by
  unfold State.readdTile
  split
  · exact h
  · exact .setTile h

theorem State.Canon.takeOnTime {n at16 upset} (h : s.Canon) : (s.takeOnTime n at16 upset).Canon := by
  refine .ifThen .setF ?_
  split
  · exact .setLane h
  · split
    · exact .residueFault <| .setLane h
    · refine .ifThen .setLaneSt ?_
      split
      · exact .setF <| .setLane <| .setLane h
      · exact .setLane <| .setLane h

theorem State.Canon.lanePeriod {n at16 upset} (h : s.Canon) : (s.lanePeriod n at16 upset).Canon :=
  .ite (.offPeriod h) <| .ite (.offPeriod <| .setLaneSt <| .setLane h) <|
    .ite (.offPeriod <| .setLaneSt <| .laneBad <| .setLane h) <|
    .via
      (fun ha => by
        dsimp only
        split
        · exact .ite (.startPulse <| .readdTile <| .setLaneSt <| .setLane ha) <| .offPeriod ha
        · exact .ite (.offPeriod ha) <| .ite (.offPeriod <| .takeOnTime ha) <| .startPulse <| .takeOnTime ha) <|
    .ite (.setLaneSt <| .setLane h) h

theorem State.Canon.laneEvents {n at16} (h : s.Canon) : (s.laneEvents n at16).Canon := .ite (.setLane h) h

theorem State.Canon.phase0Start {c at16} (h : s.Canon) : (s.phase0Start c at16).Canon :=
  .ifThen .shedMeetsNotch <| .foldl h fun _ _ ha => .ite (.setLane ha) ha

theorem State.Canon.restartLane {n b} (h : s.Canon) : (s.restartLane n b).Canon :=
  .ite (.offPeriod <| .setLaneSt <| .laneBad <| .setLane h) <|
    .ite (.offPeriod <| .ifElse .setLaneSt <| .setLane h) <| .ite (.offPeriod <| .setLane h) <| .offPeriod <|
    .setLane h

theorem State.Canon.laneEnds {n} (h : s.Canon) : (s.laneEnds n).Canon := by
  unfold State.laneEnds
  extract_lets x a a'
  have ha : a'.Canon := .ifElse .setLaneSt <| .offPeriod <| .setLane h
  split
  · exact .joinGrid ha
  · exact ha

theorem Res.Canon.execPwmPeriodStart {n at16 upset} (h : s.Canon) : Res.Canon (execPwmPeriodStart n at16 upset s) :=
  .next <| .ite h <|
    .via
      (fun ha => by
        dsimp only
        split
        · exact .restartLane ha
        · exact .via (fun hb => .ite (.laneEnds hb) <| .laneEvents <| .lanePeriod hb) <| .ite (.phase0Start ha) ha) <|
    .takeLanePlane <| .setLane h

theorem State.Canon.setTarget {c tgt} (h : s.Canon) : (s.setTarget c tgt).Canon := .setF <| .setF h

theorem State.Canon.askLevel {c tgt at16} (h : s.Canon) : (s.askLevel c tgt at16).Canon := .setConv <| .setTarget h

theorem State.Canon.requestShed {c at16 tgt} (h : s.Canon) : (s.requestShed c at16 tgt).Canon :=
  .ite (.bump h) <| .askLevel h

theorem Res.Canon.execShedRequest {c tgt at16} (h : s.Canon) : Res.Canon (execShedRequest c tgt at16 s) :=
  .next <| .ite h <| .journal <| .requestShed h

theorem State.Canon.matchLane {n at16 own} (h : s.Canon) : (s.matchLane n at16 own).Canon :=
  .ite h <| .ite (.ite (.setLane h) <| .ite h <| .setLane h) <| .ite (.setLane h) <| .ite (.setLane h) h

theorem State.Canon.matchShed {c at16} (h : s.Canon) : (s.matchShed c at16).Canon := .foldl h fun _ _ => .matchLane

theorem State.Canon.setLevel {c lev at16} (h : s.Canon) : (s.setLevel c lev at16).Canon :=
  .setF <| .matchShed <| .setF h

theorem Res.Canon.execShedCommit {c at16} (h : s.Canon) : Res.Canon (execShedCommit c at16 s) :=
  .next <| .ite (.shedMeetsNotch <| .setLevel <| .setConv h) h

theorem Res.Canon.execReaddCommit {c at16} (h : s.Canon) : Res.Canon (execReaddCommit c at16 s) :=
  .next <| .ite (.shedMeetsNotch <| .setLevel <| .setConv h) h

theorem State.Canon.showInhibit {c} (h : s.Canon) : (s.showInhibit c).Canon := .setF h

theorem State.Canon.stepOnset {c at16} (h : s.Canon) : (s.stepOnset c at16).Canon :=
  .ifThen .askLevel <|
    .via
      (fun ha => by
        split
        · exact .ite (.setLevel <| .setF <| .setConv ha) ha
        · exact ha) <| .ite (.bump <| .askLevel h) h

theorem Res.Canon.execStepSignal {c at16} (h : s.Canon) : Res.Canon (execStepSignal c at16 s) :=
  .next <| .ite h <| .ite (.stepOnset <| .showInhibit h) <| .showInhibit h

theorem State.Canon.laneAtBoundary {n at16} (h : s.Canon) : (s.laneAtBoundary n at16).Canon := by
  unfold State.laneAtBoundary
  dsimp only
  split
  · exact .leaveGrid h
  · exact .ite (.joinGrid h) <| .ite (.ite h <| .leaveGrid h) <| .ite h <| .leaveGrid h

theorem State.Canon.tripLane {n} (h : s.Canon) : (s.tripLane n).Canon := .setLaneSt <| .offNow <| .setLane h

theorem State.Canon.convAtBoundary {c at16} (h : s.Canon) : (s.convAtBoundary c at16).Canon :=
  .ite h <| .ite (.setConv h) <| .setConv h

theorem State.Canon.pwmAtBoundary {at16} (h : s.Canon) : (s.pwmAtBoundary at16).Canon :=
  .foldl
      (.foldl (.foldl (.foldl h fun _ _ => .convAtBoundary) fun _ _ => .laneAtBoundary) fun _ _ ha =>
        .ite (.tripLane ha) ha)
      fun _ _ ha => .ite (.matchShed ha) ha

theorem State.Canon.tripGroup {g why at16} (h : s.Canon) : (s.tripGroup g why at16).Canon :=
  .ite h <| .ifElse (fun ha => .frame ha) <| .foldl (.ifElse .event <| .snapTrigger <| .cause <| .setF <| .setF h) fun _ _ ha =>
      .ite (.tripLane ha) ha

theorem State.Canon.tripGroups {mask why at16} (h : s.Canon) : (s.tripGroups mask why at16).Canon :=
  .foldl h fun _ _ ha => .ite (.tripGroup ha) ha

theorem State.Canon.showFltAny (h : s.Canon) : s.showFltAny.Canon := .setF h

theorem Res.Canon.execFaultInput {n lowPs now} (h : s.Canon) : Res.Canon (execFaultInput n lowPs now s) :=
  .next <| .ite h <| .ifThen (fun ha => .tripGroups <| .event <| .cause <| .setF ha) <| .ifThen .useFree <|
    .showFltAny <| .setF h

theorem Res.Canon.execFaultInputRelease {n} (h : s.Canon) : Res.Canon (execFaultInputRelease n s) :=
  .next <| .ite h <| .showFltAny <| .setF h

theorem Res.Canon.execGroupSwtrip {g now} (h : s.Canon) : Res.Canon (execGroupSwtrip g now s) :=
  .next <| .ite (.journal <| .tripGroup h) h

theorem State.Canon.untripLane {n own} (h : s.Canon) : (s.untripLane n own).Canon :=
  .ite (.setLaneSt h) <| .ite (.setLaneSt h) <| .ite (.setLaneSt h) <| .setLaneSt <| .ite (.setLane h) <| .setLane h

theorem State.Canon.releaseGroup {g} (h : s.Canon) : (s.releaseGroup g).Canon :=
  .ite h <| .ite (.setF h) <| .foldl (.setF <| .setF h) fun _ _ ha => .ite (.untripLane ha) ha

theorem Res.Canon.execGroupRelease {g} (h : s.Canon) : Res.Canon (execGroupRelease g s) :=
  .next <| .ite (.ifThen .journal <| .releaseGroup h) h

theorem Res.Canon.execContactorOpen {g now} (h : s.Canon) : Res.Canon (execContactorOpen g now s) := by
  refine .next ?_
  split
  · exact h
  · exact .ite h <| .causeIf <| .setF <| .setF <| .frame h

theorem Res.Canon.execContactorClose {path d} (h : s.Canon) : Res.Canon (execContactorClose path d s) :=
  .next <| .ite h <| .journal <| .setF <| .setF h

theorem State.Canon.pwmLock {held} (h : s.Canon) : (s.pwmLock held).Canon :=
  .ifThen (fun ha => .foldl ha fun _ _ => .offNow) <| .frame <| .setF h

/-! ### Sys2Proof/Machine/Pkl.lean -/

theorem State.Canon.showPkl (h : s.Canon) : s.showPkl.Canon :=
  .setF <| .setF <| .setF <| .foldl h fun _ _ ha => .setMapBit <| .setMapBit ha

theorem State.Canon.radio {side mode typ dst num payload} (h : s.Canon) : (s.radio side mode typ dst num payload).Canon :=
  .ite (.emit h) h

theorem State.Canon.pklTake {good bs} (h : s.Canon) : (s.pklTake good bs).1.Canon :=
  .iteFst h <| .iteFst (.bump h) <| .iteFst (.bump h) <| .iteFst h h

theorem State.Canon.pklTakeFast {air} (h : s.Canon) : (s.pklTakeFast air).1.Canon := .iteFst h <| .pklTake h

theorem State.Canon.pklTakeDisc {psdu} (h : s.Canon) : (s.pklTakeDisc psdu).1.Canon := .pklTake h

theorem State.Canon.enumSend {e now} (h : s.Canon) : (s.enumSend e now).Canon :=
  .ite (.radio <| .frame h) <| .radio <| .frame h

theorem State.Canon.enumBegin {side p now} (h : s.Canon) : (s.enumBegin side p now).Canon := .enumSend <| .frame h

theorem State.Canon.sendWake (h : s.Canon) : s.sendWake.Canon := .radio <| .radio h

theorem State.Canon.sendSleep (h : s.Canon) : s.sendSleep.Canon := .foldl h fun _ _ ha => .radio <| .radio ha

theorem State.Canon.authAll (h : s.Canon) : s.authAll.Canon := .ite h <| .frame h

theorem State.Canon.enumEnd (h : s.Canon) : s.enumEnd.Canon :=
  .showPkl <| .frame <| .authAll <| .frame <| .setF <| .setF <| .cause <| .causeIf <| .causeIf <| .setF <| .foldl h fun _ _ ha =>
      .setF ha

theorem State.Canon.enumReset {release} (h : s.Canon) : (s.enumReset release).Canon :=
  .showPkl <| .frame <| .setF <| .setF <| .setF <| .setF <| .setF <| .setF <| .foldl h fun _ _ ha =>
      .ifThen .set64 <| .setF ha

theorem State.Canon.wakeNodes (h : s.Canon) : s.wakeNodes.Canon := .ite (.enumReset <| .sendWake h) h

theorem State.Canon.enumGo {side now} (h : s.Canon) : (s.enumGo side now).Canon := by
  refine .ite
      (.ifThen
          (fun ha => by
            split
            · exact .enumBegin ha
            · exact .enumEnd ha) <| .wakeNodes h) <| .ite (.enumEnd h) ?_
  split
  · exact .ite (.enumBegin h) h
  · exact .enumEnd h

theorem State.Canon.enumerate {release now} (h : s.Canon) : (s.enumerate release now).Canon :=
  .ite h <| .enumGo <| .enumReset h

theorem State.Canon.segmentDone (h : s.Canon) : s.segmentDone.Canon := .ifThen .authAll <| .frame h

theorem State.Canon.gapGo {now} (h : s.Canon) : (s.gapGo now).Canon := by
  unfold State.gapGo
  split
  · dsimp only
    split
    · exact .segmentDone <| .frame h
    · exact .ite (.frame <| .frame h) <| .ite (.frame <| .enumBegin <| .frame h) <| .frame h
  · exact .segmentDone h

theorem State.Canon.gapBegin {now} (h : s.Canon) : (s.gapBegin now).Canon := by
  unfold State.gapBegin
  split
  · exact h
  · exact .gapGo <| .frame h

theorem State.Canon.enumNext {e taken missed now} (h : s.Canon) : (s.enumNext e taken missed now).Canon :=
  .ite (.gapGo h) <| .enumGo <| .frame h

theorem State.Canon.admitNode {p id} (h : s.Canon) : (s.admitNode p id).Canon := .showPkl <| .setF <| .setF <| .set64 h

theorem State.Canon.nodesSleep (h : s.Canon) : s.nodesSleep.Canon :=
  .ite h <| .frame <| .foldl (.setF <| .sendSleep h) fun _ _ => .setF

/-! ### Sys2Proof/Machine/Est.lean -/

theorem State.Canon.setStr {k x} (h : s.Canon) : (s.setStr k x).Canon :=
  { h with str := Sparse.wf_put _ _ _ _ h.str }

theorem State.Canon.showLimits {k} (h : s.Canon) : (s.showLimits k).Canon := .setSat <| .setSat <| .setF <| .setF h

theorem State.Canon.showString {k} (h : s.Canon) : (s.showString k).Canon :=
  .showLimits <| .setF <| .setF <| .setF <| .setSat <| .setF <| .setSat <| .setF <| .setF <| .setSat <| .setF <|
    .setSat <| .setF h

theorem State.Canon.walkEnd {k done} (h : s.Canon) : (s.walkEnd k done).Canon :=
  .showString <| .cause <| .event <| .setF <| .setStr h

theorem State.Canon.learnEnd {k outcome} (h : s.Canon) : (s.learnEnd k outcome).Canon :=
  .showString <| .cause <| .event <| .setF <| .setStr h

theorem State.Canon.learnCheck {k} (h : s.Canon) : (s.learnCheck k).Canon := .ite (.learnEnd h) h

theorem State.Canon.estCount {k} (h : s.Canon) : (s.estCount k).Canon :=
  .ite (.setStr h) <| .showString <| .learnCheck <| .ifThen .setF <| .ifThen .setF <| .setStr h

theorem State.Canon.shipStep {n} (h : s.Canon) : (s.shipStep n).Canon := .frame <| .cause <| .setF h

theorem State.Canon.estFrame {now} (h : s.Canon) : (s.estFrame now).Canon :=
  .ifThen .shipStep <| .estCount <| .estCount <| .frame h

theorem State.Canon.setAnchor {k full} (h : s.Canon) : (s.setAnchor k full).Canon :=
  .via (fun ha => .ite (.ite (.setStr ha) ha) <| .ite (.ite (.learnEnd <| .setStr ha) <| .learnEnd ha) ha) <|
    .ifThen .walkEnd <| .cause <| .setF <| .setF <| .setF <| .setF <| .setF <| .setF <| .setStr <|
    .ifThen (fun ha => .event <| .setF ha) <| .event h

theorem State.Canon.estClose {k ts} (h : s.Canon) : (s.estClose k ts).Canon := by
  refine .ite h <| .showString <| .learnCheck <| .ifThen .learnEnd <| .setF <| .setStr <| .ifThen .useFree ?_
  split
  · exact .setStr h
  · exact .via (fun ha => .ite (.ifThen .setAnchor <| .setF ha) <| .ite (.setF ha) ha) <|
      .via (fun ha => .ite (.ifThen .setAnchor <| .setF ha) <| .ite (.setF ha) ha) <| .setF <| .setF <| .setStr h

theorem State.Canon.publishRecord {ts ship} (h : s.Canon) : (s.publishRecord ts ship).Canon :=
  .ite h <| .frame <| .foldl h fun _ _ => .setF

theorem State.Canon.restoreString {bs k g gap} (h : s.Canon) : (s.restoreString bs k g gap).Canon :=
  .showString <| .setF <| .ifElse (fun ha => .setF <| .setF ha) <| .setF <| .setStr <| .ite (.learnEnd h) h

theorem State.Canon.applyRecord {bs force now gap} (h : s.Canon) : (s.applyRecord bs force now gap).Canon := by
  unfold State.applyRecord
  dsimp only
  split
  · exact .cause <| .setF <| .setF h
  · exact .cause <| .setF <| .setF <| .foldl h fun _ _ => .restoreString

theorem State.Canon.estBusy (h : s.Canon) : s.estBusy.Canon := .setF h

theorem Res.Canon.execEstRestore {force} (h : s.Canon) : Res.Canon (execEstRestore force s) :=
  .next <| .ite (.estBusy h) <| .frame <| .setF <| .setF h

theorem Res.Canon.execRestoreApply {now} (h : s.Canon) : Res.Canon (execRestoreApply now s) := by
  refine .next ?_
  split
  · exact h
  · exact .ite (.applyRecord <| .frame h) h

theorem Res.Canon.execEstWalk {k} (h : s.Canon) : Res.Canon (execEstWalk k s) :=
  .next <| .ite (.estBusy h) <| .showString <| .setStr h

theorem Res.Canon.execWalkBegin {k} (h : s.Canon) : Res.Canon (execWalkBegin k s) :=
  .next <| .ite (.showString <| .setStr h) h

theorem Res.Canon.execWalkAbort {k} (h : s.Canon) : Res.Canon (execWalkAbort k s) :=
  .next <| .ite (.walkEnd h) <| .estBusy h

theorem Res.Canon.execWalkMaxElapsed {k} (h : s.Canon) : Res.Canon (execWalkMaxElapsed k s) := by
  refine .next ?_
  split
  · exact .ite (.walkEnd h) h
  · exact h

theorem Res.Canon.execEstLearn {k} (h : s.Canon) : Res.Canon (execEstLearn k s) :=
  .next <| .ite (.showString <| .setStr h) <| .estBusy h

theorem Res.Canon.execLearnAbort {k} (h : s.Canon) : Res.Canon (execLearnAbort k s) :=
  .next <| .ite (.learnEnd h) <| .estBusy h

theorem Res.Canon.execLearnTimeoutElapsed {k} (h : s.Canon) : Res.Canon (execLearnTimeoutElapsed k s) :=
  .next <| .ite (.learnEnd h) h

theorem Res.Canon.execDrift {k} (h : s.Canon) : Res.Canon (execDrift k s) :=
  .next <| .ite (.showString <| .cause <| .event <| .setF h) h

theorem State.Canon.estLatch {path} (h : s.Canon) : (s.estLatch path).Canon :=
  .ifThen .setF <| .foldl h fun _ _ => .wrPath

theorem Res.Canon.execEstShip (h : s.Canon) : Res.Canon (execEstShip s) :=
  .next <| .ite (.estBusy h) <| .ifThen .emit <| .frame <| .setF <| .setF <| .shipStep h

theorem State.Canon.shipGiveUp {now} (h : s.Canon) : (s.shipGiveUp now).Canon :=
  .ifThen (fun ha => .enumGo <| .wakeNodes <| .frame ha) <| .shipStep <| .setF h

theorem Res.Canon.execShipQuiet {now} (h : s.Canon) : Res.Canon (execShipQuiet now s) :=
  .next <| .ite h <| .ite (.shipStep <| .tripGroups h) <| .ite (.shipGiveUp h) h

theorem Res.Canon.execShipRecord (h : s.Canon) : Res.Canon (execShipRecord s) :=
  .next <| .ite (.shipStep <| .setF <| .publishRecord h) h

theorem Res.Canon.execShipRecordWaitEnd (h : s.Canon) : Res.Canon (execShipRecordWaitEnd s) :=
  .next <| .ite (.shipStep <| .frame <| .nodesSleep <| .ite h <| .event h) h

theorem Res.Canon.execShipChgWaitEnd {asserted now} (h : s.Canon) : Res.Canon (execShipChgWaitEnd asserted now s) :=
  .next <| .ite h <| .ite (.shipStep h) <| .ite (.shipGiveUp h) h

theorem Res.Canon.execShipAbort {now} (h : s.Canon) : Res.Canon (execShipAbort now s) :=
  .next <| .ite (.shipGiveUp h) <| .estBusy h

/-! ### Sys2Proof/Machine/Jobs.lean -/

theorem State.Canon.showJob {k} (h : s.Canon) : (s.showJob k).Canon := by
  unfold State.showJob
  split
  · exact .wr <| .wr <| .wr <| .wr h
  · exact .setSat <| .setF <| .setF <| .setF <| .setF <| .setF <| .setF <| .setSat <| .setF h

theorem State.Canon.setJob {k x} (h : s.Canon) : (s.setJob k x).Canon := .setF <| .showJob <| .frame h

theorem State.Canon.enterJob {j k} (h : s.Canon) : (s.enterJob j k).Canon := .setJob h

theorem State.Canon.showWaiting (h : s.Canon) : s.showWaiting.Canon := .setF h

theorem State.Canon.dropWaiting (h : s.Canon) : s.dropWaiting.Canon := .showWaiting <| .frame h

theorem State.Canon.waitJob {j} (h : s.Canon) : (s.waitJob j).Canon := by
  unfold State.waitJob
  dsimp only
  split
  · exact .frame h
  · exact .showWaiting <| .event <| .frame h

theorem State.Canon.nameJob {j} (h : s.Canon) : (s.nameJob j).Canon := by
  unfold State.nameJob
  split
  · split
    · exact .setJob h
    · exact h
  · split
    · exact .ite (.enterJob h) <| .waitJob h
    · exact .waitJob h

theorem State.Canon.leaveJob {k} (h : s.Canon) : (s.leaveJob k).Canon := by
  unfold State.leaveJob
  split
  · exact h
  · exact .setJob <| .foldl h fun _ _ => .setPartner

theorem Res.Canon.execJobTableTimeout {k} (h : s.Canon) : Res.Canon (execJobTableTimeout k s) := by
  refine .next ?_
  split
  · exact .ite (.leaveJob h) h
  · exact h

theorem State.Canon.enterWaiting {n} (h : s.Canon) : (State.enterWaiting n s).Canon := by
  induction n generalizing s with
  | zero => exact h
  | succ n ih =>
    unfold State.enterWaiting
    split
    · exact ih <| .showWaiting <| .ifElse .enterJob <| .frame h
    · exact h

theorem State.Canon.endJob {i j} (h : s.Canon) : (s.endJob i j).Canon := by
  unfold State.endJob
  dsimp only
  split
  · exact .ite (.setPartner h) <| .leaveJob <| .setPartner h
  · exact .dropWaiting <| .setPartner h

theorem State.Canon.reportLimit {j freq limited} (h : s.Canon) : (s.reportLimit j freq limited).Canon := by
  unfold State.reportLimit
  split
  · exact h
  · split
    · exact h
    · exact .ite h <| .setJob h

theorem Res.Canon.execLimitClearElapsed {k} (h : s.Canon) : Res.Canon (execLimitClearElapsed k s) := by
  refine .next ?_
  split
  · exact .ite (.setJob h) h
  · exact h

theorem State.Canon.recordAccount {now frame freq r} (h : s.Canon) : (s.recordAccount now frame freq r).Canon :=
  .ifElse (fun ha => .tellDesc <| .ctxRecordOrHold ha) <| .ctxGet h

theorem State.Canon.settle {g} (h : s.Canon) : (s.settle g).Canon := .foldl h fun _ _ => .setPartner

theorem State.Canon.grantCommitted {now pay} (h : s.Canon) : (s.grantCommitted now pay).Canon := by
  refine .settle <| .set64 <| .foldl (.foldl h fun _ _ => .recordAccount) fun _ _ ha => ?_
  split
  · split
    · exact .nameParent ha
    · exact ha
  · exact ha

theorem State.Canon.sendGrants {idx pay} (h : s.Canon) : (s.sendGrants idx pay).Canon := .foldl h fun _ _ => .hintSend

theorem State.Canon.applyGrant {idx pay} (h : s.Canon) : (s.applyGrant idx pay).Canon := by
  refine .frame <| .set64 <| .foldl h fun _ _ ha => ?_
  split
  · exact ha
  · split
    · exact ha
    · exact .setJob ha

theorem Res.Canon.execModelDrift (h : s.Canon) : Res.Canon (execModelDrift s) :=
  .next <| .ite (.cause <| .event <| .setF h) h

theorem State.Canon.cpcResult {code} (h : s.Canon) : (s.cpcResult code).Canon := .cause <| .setF h

theorem Res.Canon.execClearDrift (h : s.Canon) : Res.Canon (execClearDrift s) :=
  .next <| .ite (.cpcResult h) <| .frame <| .setF h

theorem Res.Canon.execGrantCommitTimeout {now} (h : s.Canon) : Res.Canon (execGrantCommitTimeout now s) := by
  refine .next ?_
  split
  · exact .ite (.frame h) h
  · exact h

theorem State.Canon.setCeiling {k} (h : s.Canon) : (s.setCeiling k).Canon := .setS <| .setF h

theorem State.Canon.showContract (h : s.Canon) : s.showContract.Canon := by
  unfold State.showContract
  split
  · exact h
  · split
    · exact .setF <| .setF <| .setF h
    · exact .setF <| .setF <| .setF h

theorem State.Canon.enforceHall {kind late f} (h : s.Canon) : (s.enforceHall kind late f).Canon := by
  refine .via (fun ha => .ite (.setCeiling <| .frame ha) <| .setCeiling <| .frame ha) <| .set64 <| .frame ?_
  split
  · exact .ite (.showContract <| .frame h) h
  · exact h

theorem State.Canon.dueCeilings {f} (h : s.Canon) : (s.dueCeilings f).Canon :=
  .foldl (.frame <| .foldl (.frame h) fun _ _ => .enforceHall) fun _ _ => .setCeiling

theorem State.Canon.applyHall {idx pay f} (h : s.Canon) : (s.applyHall idx pay f).Canon :=
  .ite (.frame h) <| .enforceHall h

theorem State.Canon.applyContract {idx pay} (h : s.Canon) : (s.applyContract idx pay).Canon := .ite (.frame h) h

theorem State.Canon.applyReport {frame pay} (h : s.Canon) : (s.applyReport frame pay).Canon := .frame h

theorem Res.Canon.execLoanExpiry (h : s.Canon) : Res.Canon (execLoanExpiry s) := by
  refine .next ?_
  split
  · exact .ite (.setCeiling <| .frame h) h
  · exact h

theorem Res.Canon.execLoanGuardExpiry (h : s.Canon) : Res.Canon (execLoanGuardExpiry s) := by
  refine .next ?_
  split
  · exact .ite (.setCeiling <| .frame h) h
  · exact h

/-! ### Sys2Proof/Machine/Logic.lean -/

theorem Res.Canon.execPackSampleInstant (h : s.Canon) : Res.Canon (execPackSampleInstant s) := by
  refine .next ?_
  split
  · exact h
  · exact .foldl (.setF <| .set64 <| .frame h) fun _ _ ha => .ite (.emit ha) ha

theorem State.Canon.showPins (h : s.Canon) : s.showPins.Canon :=
  .foldl h fun _ _ ha => .ite (.setF <| .setF ha) <| .ite (.setF <| .setF ha) <| .setF ha

theorem State.Canon.sensePins {levels} (h : s.Canon) : (s.sensePins levels).Canon :=
  .foldl h fun _ _ ha => .ite ha <| .setF ha

theorem State.Canon.timerStart {n at16} (h : s.Canon) : (s.timerStart n at16).Canon :=
  .ite (.setF <| .setF <| .frame h) h

theorem State.Canon.timerHalt {n} (h : s.Canon) : (s.timerHalt n).Canon := .setF <| .frame h

theorem State.Canon.timerDenied {n} (h : s.Canon) : (s.timerDenied n).Canon := .setF h

theorem Res.Canon.execTimerStart {path n now} (h : s.Canon) : Res.Canon (execTimerStart path n now s) :=
  .next <| .ite h <| .ite (.timerDenied h) <| .journal <| .timerStart h

theorem Res.Canon.execTimerStop {path n} (h : s.Canon) : Res.Canon (execTimerStop path n s) :=
  .next <| .ite h <| .ite (.timerDenied h) <| .journal <| .setF <| .timerHalt h

theorem State.Canon.signalRises {l at16} (h : s.Canon) : (s.signalRises l at16).Canon :=
  .captureRise <|
    .foldl
      (.foldl (.foldl h fun _ _ ha => .ite (.tripGroup ha) ha) fun _ _ ha =>
        .ite (.ifThen .requestShed <| .ite (.requestShed ha) ha) ha)
      fun _ _ ha => .ite (.timerStart ha) ha

theorem State.Canon.setLogicOut {l v at16} (h : s.Canon) : (s.setLogicOut l v at16).Canon :=
  .ite h <| .showPins <| .foldl (.ifThen .snapTrigger <| .ifThen .signalRises <| .frame <| .setF h) fun _ _ ha =>
      .showInhibit ha

theorem State.Canon.enterLogic {l st at16} (h : s.Canon) : (s.enterLogic l st at16).Canon :=
  .setLogicOut <| .setF <| .setF <| .frame h

theorem State.Canon.logicEval {l at16} (h : s.Canon) : (s.logicEval l at16).Canon := by
  refine .ite h ?_
  dsimp only
  split
  · exact .enterLogic <| .setF h
  · exact .setF <| .setF h

theorem Res.Canon.execLogicTileTransition {l at16 pins} (h : s.Canon) : Res.Canon (execLogicTileTransition l at16 pins s) :=
  .next <| .logicEval <| .sensePins h

theorem State.Canon.logicCycle {at16} (h : s.Canon) : (s.logicCycle at16).Canon := .foldl h fun _ _ => .enterLogic

theorem Res.Canon.execTimerExpire {n at16} (h : s.Canon) : Res.Canon (execTimerExpire n at16 s) := by
  refine .next ?_
  split
  · exact h
  · exact .ite h <| .ite (.setF <| .logicCycle <| .setF <| .frame h) <| .setF <| .timerHalt h

theorem Res.Canon.execLogicDwellReached {l at16} (h : s.Canon) : Res.Canon (execLogicDwellReached l at16 s) :=
  .next <| .logicEval h

theorem State.Canon.logicTakes {l at16 goesOn} (h : s.Canon) : (s.logicTakes l at16 goesOn).Canon :=
  .ite (.setLogicOut <| .setF <| .setF h) <| .ite (.setLogicOut h) <| .enterLogic <| .setF h

theorem State.Canon.logicAtBoundary {was at16} (h : s.Canon) : (s.logicAtBoundary was at16).Canon :=
  .foldl h fun _ _ => .logicTakes

theorem State.Canon.idleTimers (h : s.Canon) : s.idleTimers.Canon :=
  .foldl h fun _ _ ha => .ite (.setF <| .timerHalt ha) <| .ite (.timerHalt ha) ha

theorem Res.Canon.execFaultShutdown {t at16} (h : s.Canon) : Res.Canon (execFaultShutdown t at16 s) :=
  .next <| .ite (.tripGroups <| .event <| .frame h) h

/-! ### Sys2Proof/Machine/Wb.lean -/

theorem State.Canon.setWbLane {l x} (h : s.Canon) : (s.setWbLane l x).Canon := .frame h

theorem State.Canon.showMismatch (h : s.Canon) : s.showMismatch.Canon := .setF <| .ite (.event h) h

theorem State.Canon.applyEntry {e f} (h : s.Canon) : (s.applyEntry e f).Canon :=
  .setSat <| .setSat <| .setF <| .setS <| .setF <| .set64 <| .setF <| .frame h

theorem State.Canon.applyEntries {f} (h : s.Canon) : (s.applyEntries f).Canon :=
  .foldl (.frame h) fun _ _ => .applyEntry

theorem Res.Canon.execLocalTarget (h : s.Canon) : Res.Canon (execLocalTarget s) :=
  .next <| .ite (.cause <| .event <| .setF h) h

theorem State.Canon.takeFeed {f} (h : s.Canon) : (s.takeFeed f).Canon := by
  unfold State.takeFeed
  extract_lets t x a
  have ha : a.Canon := .ite (.setSat h) h
  clear_value x a
  split
  · exact .ite (.frame ha) <| .frame ha
  · exact .frame ha

theorem State.Canon.takeBus (h : s.Canon) : s.takeBus.Canon := .ite (.frame h) <| .ite (.event <| .frame h) <| .frame h

theorem Res.Canon.execFeedBad (h : s.Canon) : Res.Canon (execFeedBad s) := .next <| .ite (.cause <| .setF h) h

theorem Res.Canon.execFeedRecovered (h : s.Canon) : Res.Canon (execFeedRecovered s) := .next <| .ite (.setF h) h

theorem State.Canon.readLanes {t} (h : s.Canon) : (s.readLanes t).1.Canon :=
  .foldlFst h fun _ _ ha =>
    .via
        (fun hb => by
          dsimp only
          split
          · exact .setS <| .setS <| .ite hb <| .setWbLane hb
          · exact hb) <| .ifThen .setWbLane <| .setF <| .setF ha

theorem Res.Canon.execLaneAbsent {l} (h : s.Canon) : Res.Canon (execLaneAbsent l s) :=
  .next <| .ite (.setF <| .setWbLane h) h

theorem State.Canon.scoreLane {l hit} (h : s.Canon) : (s.scoreLane l hit).Canon :=
  .via
      (fun ha =>
        .ite (.cause <| .event <| .setF <| .setWbLane <| .setWbLane ha) <|
          .ite (.event <| .setWbLane <| .setWbLane ha) <| .setWbLane ha) <| .setF <| .setF h

theorem Res.Canon.execLaneStepScore {l ago span} (h : s.Canon) : Res.Canon (execLaneStepScore l ago span s) := by
  refine .next <| .ite h ?_
  split
  · exact h
  · exact .ite (.scoreLane <| .setWbLane h) h

theorem Res.Canon.execRestoreLane {l} (h : s.Canon) : Res.Canon (execRestoreLane l s) :=
  .next <| .ite (.journal <| .event <| .setWbLane h) h

theorem State.Canon.wbMeasure {f} (h : s.Canon) : (s.wbMeasure f).Canon := .frame <| .takeBus <| .takeFeed h

theorem State.Canon.wbCompute {f} (h : s.Canon) : (s.wbCompute f).Canon :=
  .frame <| .useFree <| .setF <| .setS <| .setS <| .setF <| .readLanes h

theorem State.Canon.wbApply {f} (h : s.Canon) : (s.wbApply f).Canon := by
  unfold State.wbApply
  split
  · exact h
  · exact .foldl
        (.foldl (.setF <| .ifThen .setSat <| .setSat <| .setF <| .setF <| .setF <| .setF <| .causeIf <| .frame h) fun _ _ ha =>
          .ifThen .stepOnset <| .showInhibit <| .setF ha)
        fun _ _ ha => .capture <| .capture ha

theorem State.Canon.showCeiling {f} (h : s.Canon) : (s.showCeiling f).Canon :=
  .ite (.ifThen (fun ha => .setF <| .causeIf ha) <| .frame h) <| .ifThen .setF <| .frame h

theorem State.Canon.wbAtBoundary {f} (h : s.Canon) : (s.wbAtBoundary f).Canon :=
  .showCeiling <| .showMismatch <| .applyEntries <| .wbApply h

theorem State.Canon.wbCapture {f} (h : s.Canon) : (s.wbCapture f).Canon :=
  .capture <| .capture <| .capture <| .capture h

theorem State.Canon.wbWork {f} (h : s.Canon) : (s.wbWork f).Canon := .ifThen .wbCompute <| .wbCapture <| .wbMeasure h

theorem Res.Canon.execReserveExit (h : s.Canon) : Res.Canon (execReserveExit s) := .next <| .ite (.frame h) h

theorem Res.Canon.execWbHold (h : s.Canon) : Res.Canon (execWbHold s) := .next <| .journal <| .setF h

theorem Res.Canon.execWbRelease (h : s.Canon) : Res.Canon (execWbRelease s) := .next <| .journal <| .setF h

theorem Res.Canon.execClearMax (h : s.Canon) : Res.Canon (execClearMax s) := .next <| .journal <| .setF h

theorem State.Canon.shareSums (h : s.Canon) : s.shareSums.Canon := .foldl h fun _ _ ha => .ite ha <| .event ha

/-! ### Sys2Proof/Machine/Ledger.lean -/

theorem State.Canon.setGrp {g x} (h : s.Canon) : (s.setGrp g x).Canon := .frame h

theorem State.Canon.ldgSend {g typ dest body} (h : s.Canon) : (s.ldgSend g typ dest body).Canon := by
  refine .ite ?_ h
  dsimp only
  split
  · exact .emitPorts h
  · exact .emitPorts h

theorem State.Canon.showLedger {now} (h : s.Canon) : (s.showLedger now).Canon := by
  refine .foldl
      (.setF <| .setF <| .set64 <| .setF <| .setF <| .set64 <| .set64 <| .setF <| .setF <| .setF <| .setF <| .setF <|
        .setF <| .setF <| .setF <| .setF <| .setF <| .causeIf <| .causeIf <| .causeIf h)
      fun _ _ ha => ?_
  split
  · exact .wr <| .wr <| .set64 ha
  · exact .setF <| .setF <| .setF <| .setF <| .set64 ha

theorem State.Canon.drawElection {g lo span now} (h : s.Canon) : (s.drawElection g lo span now).Canon :=
  .setGrp <| .useFree h

theorem State.Canon.drawUsual {g now} (h : s.Canon) : (s.drawUsual g now).Canon := .drawElection h

theorem State.Canon.adoptTerm {g term now} (h : s.Canon) : (s.adoptTerm g term now).Canon :=
  .ite (.ifElse .drawUsual <| .setGrp h) h

theorem State.Canon.heartbeat {g now flags} (h : s.Canon) : (s.heartbeat g now flags).Canon := .ldgSend h

theorem State.Canon.sendEntry {g dest e now} (h : s.Canon) : (s.sendEntry g dest e now).Canon :=
  .foldl h fun _ _ => .ldgSend

theorem State.Canon.sendState {g dest} (h : s.Canon) : (s.sendState g dest).Canon := .foldl h fun _ _ => .ldgSend

theorem State.Canon.appendRack {etype pay now} (h : s.Canon) : (s.appendRack etype pay now).Canon :=
  .sendEntry <| .setGrp h

theorem State.Canon.appendHall {etype pay now} (h : s.Canon) : (s.appendHall etype pay now).Canon :=
  .appendRack <| .sendEntry <| .setGrp h

theorem State.Canon.appendTo {g etype pay now} (h : s.Canon) : (s.appendTo g etype pay now).Canon :=
  .ite (.appendRack h) <| .appendHall h

theorem State.Canon.stepDown {g now} (h : s.Canon) : (s.stepDown g now).Canon :=
  .ite (.drawElection <| .setGrp <| .heartbeat h) h

theorem State.Canon.becomeLeader {g now} (h : s.Canon) : (s.becomeLeader g now).Canon :=
  .appendTo <| .ifThen .bump <| .setGrp h

theorem State.Canon.countVote {g id now} (h : s.Canon) : (s.countVote g id now).Canon :=
  .ite (.ifThen .becomeLeader <| .setGrp h) h

theorem State.Canon.keepArbiters {now} (h : s.Canon) : (s.keepArbiters now).Canon := .ite h <| .ite h <| .appendRack h

theorem State.Canon.answerProposer {g i} (h : s.Canon) : (s.answerProposer g i).Canon := by
  unfold State.answerProposer
  split
  · exact .setGrp <| .ldgSend h
  · exact h

theorem State.Canon.contractResult {code} (h : s.Canon) : (s.contractResult code).Canon := .cpcResult <| .frame h

theorem State.Canon.hallCommitted {e} (h : s.Canon) : (s.hallCommitted e).Canon :=
  .answerProposer <| .setGrp <| .ite (.setGrp h) <| .ite (.frame <| .setGrp h) <| .ite (.contractResult h) h

theorem State.Canon.learnHall {c} (h : s.Canon) : (s.learnHall c).Canon :=
  .ite h <| .foldl (.setGrp h) fun _ _ => .hallCommitted

theorem State.Canon.seatSelf {now} (h : s.Canon) : (s.seatSelf now).Canon := .ite (.appendHall <| .appendHall h) h

theorem State.Canon.advanceHall {now} (h : s.Canon) : (s.advanceHall now).Canon :=
  .ite h <| .ite h <| .seatSelf <| .heartbeat <| .learnHall h

theorem State.Canon.hallRecordCommitted {pay now} (h : s.Canon) : (s.hallRecordCommitted pay now).Canon := by
  refine .ite ?_ <| .ifElse (fun ha => .ite (.countVote ha) <| .ldgSend ha) <| .ite (.setGrp h) h
  split
  · exact .ifElse
        (fun ha =>
          .ite (.advanceHall <| .setGrp ha) <| by
            split
            · exact .ldgSend ha
            · exact ha) <| .ite h <| .setGrp h
  · exact h

theorem State.Canon.voiceCommitted {p now} (h : s.Canon) : (s.voiceCommitted p now).Canon :=
  .ifThen (fun ha => .stepDown <| .stepDown ha) <| .frame <| .setGrp h

theorem State.Canon.rackCommitted {e now} (h : s.Canon) : (s.rackCommitted e now).Canon :=
  .answerProposer <| .ite (.keepArbiters <| .setGrp <| .setGrp h) <|
    .ite (.keepArbiters <| .voiceCommitted <| .setGrp h) <| .ite (.keepArbiters <| .setGrp h) <|
    .ite (.frame <| .setGrp h) <|
    .ite (.ifThen (fun ha => .ifThen .sendGrants <| .frame ha) <| .grantCommitted <| .setGrp h) <|
    .ite (.hallRecordCommitted <| .setGrp h) <| .setGrp h

theorem State.Canon.learnRack {c now} (h : s.Canon) : (s.learnRack c now).Canon :=
  .ite h <| .foldl (.setGrp h) fun _ _ => .rackCommitted

theorem State.Canon.advanceRack {n now} (h : s.Canon) : (State.advanceRack n now s).Canon := by
  induction n generalizing s with
  | zero => exact h
  | succ n ih => exact .ite h <| .ite h <| ih <| .heartbeat <| .learnRack <| .setGrp <| .setF <| .setF h

theorem State.Canon.ldgDone {now} (h : s.Canon) : (s.ldgDone now).Canon := .showLedger <| .advanceRack h

theorem State.Canon.showLease {g now} (h : s.Canon) : (s.showLease g now).Canon := .ite h <| .ite h <| .setGrp h

theorem State.Canon.applyHallEntry {entry f} (h : s.Canon) : (s.applyHallEntry entry f).Canon :=
  .set64 <| .setGrp <| .ite (.applyHall h) <| .ite (.applyContract h) <| .ite (.applyReport h) h

theorem State.Canon.applyRackEntry {e f} (h : s.Canon) : (s.applyRackEntry e f).Canon := by
  refine .set64 <| .setGrp <| .ite (.applyGrant h) <| .ite (.frame h) <| .ite ?_ h
  split
  · exact .applyHallEntry h
  · exact h

theorem State.Canon.ldgApply {f} (h : s.Canon) : (s.ldgApply f).Canon :=
  .dueCeilings <| .setGrp <| .foldl h fun _ _ => .applyRackEntry

theorem State.Canon.ldgAtBoundary {now} (h : s.Canon) : (s.ldgAtBoundary now).Canon := .ite (.showLedger h) h

/-! ### Sys2Proof/Machine/LedgerRx.lean -/

theorem State.Canon.sendAck {g dest matched sent ok} (h : s.Canon) : (s.sendAck g dest matched sent ok).Canon :=
  .ldgSend h

theorem State.Canon.sendJoinAns {g dest st} (h : s.Canon) : (s.sendJoinAns g dest st).Canon := by
  unfold State.sendJoinAns
  exact .ldgSend h

theorem State.Canon.askSeat (h : s.Canon) : s.askSeat.Canon := by
  unfold State.askSeat
  dsimp only
  split
  · exact h
  · exact .ite h <| .ifThen .ldgSend <| .ite (.ldgSend h) h

theorem State.Canon.recordHall {pay now} (h : s.Canon) : (s.recordHall pay now).Canon := by
  refine .ite (.appendRack h) ?_
  split
  · exact .ldgSend h
  · exact h

theorem State.Canon.storeEntries {g from_ prev sent commit es now} (h : s.Canon) :
    (s.storeEntries g from_ prev sent commit es now).Canon :=
  .ite (.learnRack <| .sendAck <| .setGrp h) <| .learnHall <| .ite (.ite (.sendAck h) h) <|
    .ite (.foldl h fun _ _ => .recordHall) h

theorem State.Canon.takeAppend {m now} (h : s.Canon) : (s.takeAppend m now).Canon := by
  unfold State.takeAppend
  extract_lets g b a x news down sent copy x' a₁ a₂ a₃ t a₄
  have ha : a₃.Canon :=
    .via (fun ha => .ite (.drawElection ha) <| .drawUsual ha) <| .ifThen .bump <| .setGrp <| .adoptTerm h
  have hb : a₄.Canon := .setGrp ha
  refine .ite ha ?_
  clear_value a₄
  split
  · exact hb
  · split
    · exact .ite (.storeEntries hb) <| .sendAck hb
    · exact .sendAck hb

theorem State.Canon.leaveArbiters {g} (h : s.Canon) : (s.leaveArbiters g).Canon := .ite (.frame h) h

theorem State.Canon.otherEpoch {m} (h : s.Canon) : (s.otherEpoch m).Canon :=
  .ite (.leaveArbiters <| .setGrp h) <| .sendJoinAns h

theorem Res.Canon.execAppendReceive {port now frame} (h : s.Canon) : Res.Canon (execAppendReceive port now frame s) := by
  refine .next <| .receive h fun _ => ?_
  split
  · exact h
  · exact .ite (.ldgDone <| .otherEpoch h) <|
      .via (fun ha => .ite (.ldgDone <| .sendAck ha) <| .ldgDone <| .ifThen .askSeat <| .takeAppend ha) <|
      .ite (.otherEpoch h) h

theorem State.Canon.answerSyncs {g} (h : s.Canon) : (s.answerSyncs g).Canon := by
  refine .ite h <| .foldl h fun _ _ ha => ?_
  split
  · refine .ite ?_ ha
    split
    · exact .frame <| .ldgSend ha
    · exact .frame ha
  · exact ha

theorem Res.Canon.execAppendAckReceive {port now frame} (h : s.Canon) : Res.Canon (execAppendAckReceive port now frame s) := by
  refine .next <| .receive h fun _ => ?_
  split
  · exact h
  · exact .ite h <| .ite (.ldgDone <| .adoptTerm h) <| .ite h <|
      .ite
        (.ldgDone <| .answerSyncs <| .ite (.advanceHall <| .showLease <| .setGrp h) <| .advanceRack <| .showLease <|
          .setGrp h) <| .ite (.ldgDone <| .sendState h) <| .ldgDone <| .foldl h fun _ _ => .sendEntry

theorem Res.Canon.execVoteReqReceive {port now frame} (h : s.Canon) : Res.Canon (execVoteReqReceive port now frame s) := by
  refine .next <| .receive h fun _ => ?_
  split
  · exact h
  · exact .ite (.otherEpoch h) <| .ite (.ldgSend h) <|
      .ite
        (.ite (.ldgDone <| .ldgSend <| .setGrp <| .setGrp <| .adoptTerm h) <| .ldgDone <| .recordHall <| .setGrp <|
          .adoptTerm h) <| .ldgDone <| .ldgSend <| .setGrp <| .adoptTerm h

theorem Res.Canon.execVoteReceive {port now frame} (h : s.Canon) : Res.Canon (execVoteReceive port now frame s) := by
  refine .next <| .receive h fun _ => ?_
  split
  · exact h
  · exact .ite h <| .ite (.ldgDone <| .adoptTerm h) <| .ite h <| .ldgDone <| .countVote h

theorem Res.Canon.execElectionTimeout {group now} (h : s.Canon) : Res.Canon (execElectionTimeout group now s) :=
  .next <| .ite h <| .ldgDone <| .via (fun ha => .ite (.countVote <| .ldgSend ha) <| .recordHall <| .ldgSend ha) <|
    .drawUsual <| .setGrp h

theorem Res.Canon.execHeartbeatSend {group now} (h : s.Canon) : Res.Canon (execHeartbeatSend group now s) :=
  .next <| .ite h <| .ldgDone <| .answerSyncs <| .showLease <| .heartbeat h

theorem Res.Canon.execLeaseEnd {group now} (h : s.Canon) : Res.Canon (execLeaseEnd group now s) := by
  refine .next ?_
  split
  · exact .ite (.showLedger <| .setGrp h) h
  · exact h

theorem Res.Canon.execStepDown {now} (h : s.Canon) : Res.Canon (execStepDown now s) :=
  .next <| .ldgDone <| .stepDown <| .stepDown h

theorem State.Canon.syncState {path v} (h : s.Canon) : (s.syncState path v).Canon := .wrPath h

theorem State.Canon.startSync {path g now} (h : s.Canon) : (s.startSync path g now).Canon :=
  .ifElse
      (fun ha =>
        .ite (.answerSyncs <| .heartbeat ha) <| by
          split
          · exact .ldgSend ha
          · exact ha) <| .syncState <| .frame h

theorem Res.Canon.execSyncRack {path now} (h : s.Canon) : Res.Canon (execSyncRack path now s) := .next <| .startSync h

theorem Res.Canon.execSyncHall {path now} (h : s.Canon) : Res.Canon (execSyncHall path now s) := .next <| .startSync h

theorem Res.Canon.execSyncReqReceive {port now frame} (h : s.Canon) : Res.Canon (execSyncReqReceive port now frame s) := by
  refine .next <| .receive h fun _ => ?_
  split
  · exact h
  · exact .ite h <| .ite (.ldgSend h) <| .ite (.ldgDone <| .adoptTerm h) <| .ite h <| .ite (.ldgSend h) <|
      .heartbeat <| .frame h

theorem Res.Canon.execSyncAnsReceive {port now frame} (h : s.Canon) : Res.Canon (execSyncAnsReceive port now frame s) := by
  refine .next <| .receive h fun _ => ?_
  split
  · exact h
  · exact .ite h <| .ite (.showLedger <| .adoptTerm h) <| .ite h <| .frame h

theorem State.Canon.endSync {q code} (h : s.Canon) : (s.endSync q code).Canon := .cause <| .syncState <| .frame h

theorem Res.Canon.execSyncDone {path} (h : s.Canon) : Res.Canon (execSyncDone path s) := by
  refine .next ?_
  split
  · split
    · exact .ite (.endSync <| .wrPath <| .wrPath h) h
    · exact h
  · exact h

theorem Res.Canon.execSyncTimeout {path now} (h : s.Canon) : Res.Canon (execSyncTimeout path now s) := by
  refine .next ?_
  dsimp only
  split
  · exact .ite (.endSync <| .frame h) <| .frame h
  · exact .frame h

theorem Res.Canon.execJoinRetry {group now} (h : s.Canon) : Res.Canon (execJoinRetry group now s) :=
  .next <| .ite h <| .showLedger <| .ldgSend <| .setGrp h

theorem State.Canon.addMember {id shelf incarnation active now} (h : s.Canon) :
    (s.addMember id shelf incarnation active now).Canon :=
  .ite h <| .ifThen (fun ha => .appendRack <| .useFree ha) <| .appendRack h

theorem Res.Canon.execJoinReceive {port now frame} (h : s.Canon) : Res.Canon (execJoinReceive port now frame s) := by
  refine .next <| .receive h fun _ => ?_
  split
  · exact h
  · exact .ldgDone <| .ifThen .addMember <| .sendJoinAns <| .setGrp <| .ite (.adoptTerm h) h

theorem Res.Canon.execJoinAnsReceive {port now frame} (h : s.Canon) : Res.Canon (execJoinAnsReceive port now frame s) := by
  refine .next <| .receive h fun _ => ?_
  split
  · exact h
  · exact .via
        (fun ha =>
          .ite
              (.ite (.ifThen (fun hb => .ldgDone <| .leaveArbiters <| .setGrp hb) <| .useFree ha) <| .showLedger ha) <|
            .showLedger <| .ifThen .askSeat <| .setGrp ha) <| .ite (.adoptTerm h) h

theorem State.Canon.formGroup {g old now} (h : s.Canon) : (s.formGroup g old now).Canon :=
  .ite (.appendRack <| .useFree <| .appendRack <| .advanceRack <| .becomeLeader <| .setGrp <| .frame h) <|
    .becomeLeader <| .setGrp h

theorem Res.Canon.execGroupForm {group now} (h : s.Canon) : Res.Canon (execGroupForm group now s) :=
  .next <| .ite h <| .ite h <| .ldgDone <| .formGroup h

theorem Res.Canon.execGroupReform {now} (h : s.Canon) : Res.Canon (execGroupReform now s) :=
  .next <| .ite h <| .ldgDone <| .formGroup h

theorem State.Canon.takeState {g e now} (h : s.Canon) : (s.takeState g e now).Canon :=
  .ite (.applyRackEntry <| .rackCommitted h) <| .applyHallEntry <| .hallCommitted h

theorem Res.Canon.execStateReceive {port now frame} (h : s.Canon) : Res.Canon (execStateReceive port now frame s) := by
  refine .next <| .receive h fun _ => ?_
  split
  · exact h
  · exact .ifElse
        (fun ha =>
          .ite (.setGrp ha) <| by
            split
            · exact .setGrp ha
            · exact .ldgDone <| .set64 <| .setGrp <| .foldl (.setGrp <| .ite (.bump ha) ha) fun _ _ => .takeState) <|
      .ite (.adoptTerm h) h

theorem Res.Canon.execProposeReceive {port now frame} (h : s.Canon) : Res.Canon (execProposeReceive port now frame s) := by
  refine .next <| .receive h fun _ => ?_
  split
  · exact h
  · exact .ite (.otherEpoch h) <| .ite h <| .ite (.ldgDone <| .adoptTerm h) <| .ite (.ldgSend h) <|
      .ite (.ldgSend h) <| .ite (.ldgSend h) <| .ite (.ldgSend h) <| .ldgDone <| .appendTo <| .setGrp <|
      .ite (.appendTo h) h

theorem Res.Canon.execProposeAnsReceive {port now frame} (h : s.Canon) : Res.Canon (execProposeAnsReceive port now frame s) := by
  refine .next <| .receive h fun _ => ?_
  split
  · exact h
  · refine .ite h <| .ite (.showLedger <| .adoptTerm h) <| .ite h <| .ite ?_ <| .showLedger <| .contractResult h
    split
    · exact .ite (.showLedger <| .contractResult h) h
    · exact h

theorem Res.Canon.execClaimReceive {port now frame} (h : s.Canon) : Res.Canon (execClaimReceive port now frame s) := by
  refine .next <| .receive h fun _ => ?_
  split
  · exact h
  · exact .ite h <| .showLedger <| .frame <| .adoptTerm h

theorem State.Canon.heedDecide {shelf gen holder now} (h : s.Canon) : (s.heedDecide shelf gen holder now).Canon :=
  .ifElse
      (fun ha =>
        .ifThen (fun hb => .frame hb) <| .ifThen (fun hb => .appendRack <| .useFree hb) <| .ite (.frame ha) ha) <|
    .frame h

theorem State.Canon.arbiterDecide {shelf now} (h : s.Canon) : (s.arbiterDecide shelf now).Canon :=
  .heedDecide <| .ldgSend <| .useFree h

theorem Res.Canon.execArbiterWindowEnd {shelf now} (h : s.Canon) : Res.Canon (execArbiterWindowEnd shelf now s) := by
  refine .next ?_
  split
  · exact .ite (.ldgDone <| .arbiterDecide h) h
  · exact h

theorem Res.Canon.execDeputyDecideTimeout {shelf now} (h : s.Canon) : Res.Canon (execDeputyDecideTimeout shelf now s) := by
  refine .next ?_
  split
  · exact .ite (.ldgDone <| .arbiterDecide h) h
  · exact h

theorem Res.Canon.execDecideReceive {port now frame} (h : s.Canon) : Res.Canon (execDecideReceive port now frame s) := by
  refine .next <| .receive h fun _ => ?_
  split
  · exact h
  · exact .ite h <| .ldgDone <| .heedDecide <| .adoptTerm h

/-! ### Sys2Proof/Machine/Coppice.lean -/

theorem State.Canon.takeReports {heard} (h : s.Canon) : (s.takeReports heard).Canon :=
  .ite (.emit <| .frame h) <| .ite (.foldl (.frame h) fun _ _ => .emit) <| .frame h

theorem State.Canon.closeInterval (h : s.Canon) : s.closeInterval.Canon := .frame h

theorem State.Canon.localTarget {f v} (h : s.Canon) : (s.localTarget f v).Canon :=
  .ite (.setF <| .setF <| .setS <| .frame h) h

theorem State.Canon.bookJobs {f w} (h : s.Canon) : (s.bookJobs f w).Canon :=
  .frame <| .foldl (.enterWaiting <| .dropWaiting h) fun _ _ => .setJob

theorem State.Canon.reconcile {f} (h : s.Canon) : (s.reconcile f).Canon :=
  .ifThen .setF <| .frame <| .setF <| .useFree h

theorem State.Canon.notePeak {f v} (h : s.Canon) : (s.notePeak f v).Canon := .frame h

theorem State.Canon.report {f v now} (h : s.Canon) : (s.report f v now).Canon := by
  refine .ite h <| .ite (.appendHall <| .setF h) ?_
  split
  · exact .ldgSend <| .setF h
  · exact .setF h

theorem Res.Canon.execHallBoundary {now} (h : s.Canon) : Res.Canon (execHallBoundary now s) := by
  refine .next <| .ite h ?_
  extract_lets c
  clear_value c
  cases c with
  | none => exact .ite h <| .ldgDone <| .appendHall h
  | some c => exact .ldgDone <| .appendHall h

theorem Res.Canon.execContractSet {now} (h : s.Canon) : Res.Canon (execContractSet now s) :=
  .next <| .ite (.cpcResult h) <| .ite (.cpcResult h) <| .ite (.cpcResult h) <| .ite (.cpcResult h) <|
    .via
      (fun ha =>
        .ite (.ldgDone <| .appendHall ha) <| by
          split
          · exact .ldgSend ha
          · exact ha) <| .frame <| .setF h

theorem State.Canon.coppiceAtBoundary {f now heard} (h : s.Canon) : (s.coppiceAtBoundary f now heard).Canon :=
  .ldgDone <| .report <| .useFree <| .ifThen (fun ha => .frame <| .appendRack <| .appendRack ha) <| .localTarget <|
    .notePeak <| .reconcile <| .foldl (.setF <| .causeIf <| .bookJobs <| .closeInterval <| .takeReports h) fun _ _ ha =>
      .setJob ha

/-! ### Sys2Proof/Machine/Dvfs.lean -/

theorem State.Canon.dvfsBegin {d k now ns} (h : s.Canon) : (s.dvfsBegin d k now ns).Canon := .frame <| .setF <| .setF h

theorem State.Canon.dvfsPlan {d now} (h : s.Canon) : (s.dvfsPlan d now).Canon :=
  .ite h <| .ite (.setF h) <| .ite (.dvfsBegin <| .setF h) <| .ite (.dvfsBegin <| .setF h) <|
    .ite (.dvfsBegin <| .setF h) <| .causeIf <| .setF <| .setF <| .setF h

theorem State.Canon.dvfsPlanAll {now} (h : s.Canon) : (s.dvfsPlanAll now).Canon := .dvfsPlan <| .dvfsPlan h

theorem Res.Canon.execDvfsStepComplete {d now} (h : s.Canon) : Res.Canon (execDvfsStepComplete d now s) :=
  .next <| .ite h <| .dvfsPlan <| .setF <| .ite (.setF h) <| .setF h

theorem State.Canon.dieOff {d} (h : s.Canon) : (s.dieOff d).Canon := .setF <| .setF <| .setF <| .setRunsAll h

theorem State.Canon.diesOn {now} (h : s.Canon) : (s.diesOn now).Canon := .dvfsPlanAll <| .dieOn <| .dieOn h

theorem State.Canon.diesOff (h : s.Canon) : s.diesOff.Canon := .dieOff <| .dieOff h

theorem State.Canon.setDieCap {d v now} (h : s.Canon) : (s.setDieCap d v now).Canon := .dvfsPlan <| .setF <| .frame h

theorem Res.Canon.execDieOverThrottle {d temp now} (h : s.Canon) : Res.Canon (execDieOverThrottle d temp now s) :=
  .next <| .ite h <| .ifThen (fun ha => .causeIf <| .event <| .setDieCap ha) <| .setS h

theorem Res.Canon.execDieThrottleRestore {d temp now} (h : s.Canon) : Res.Canon (execDieThrottleRestore d temp now s) :=
  .next <| .ite h <| .ifThen (fun ha => .ifThen .setDieCap <| .setDieCap ha) <| .setS h

theorem Res.Canon.execOvertemp {d temp} (h : s.Canon) : Res.Canon (execOvertemp d temp s) :=
  .next <|
    .ifElse
      (fun ha =>
        .ifElse (fun hb => .dieOff <| .frame <| .foldl hb fun _ _ hc => .ite (.partEnter <| .haltPart hc) hc) <|
          .event <| .controlFault ha) <| .ite (.setS h) h

theorem Res.Canon.execStackOverheat {hot} (h : s.Canon) : Res.Canon (execStackOverheat hot s) := .next <| .frame h

/-! ### Sys2Proof/Machine/Log.lean -/

theorem State.Canon.showQueue (h : s.Canon) : s.showQueue.Canon := .setF <| .setF <| .setF h

theorem State.Canon.spillOne (h : s.Canon) : s.spillOne.Canon := by
  unfold State.spillOne
  split
  · exact h
  · exact .stackWrite <| .frame h

theorem State.Canon.spillDown (h : s.Canon) : s.spillDown.Canon :=
  .showQueue <| .foldl h fun _ _ ha => .ite (.spillOne ha) ha

theorem State.Canon.countDrop (h : s.Canon) : s.countDrop.Canon := .ifThen (fun ha => .bump <| .frame ha) <| .bump h

theorem State.Canon.enqueue {r} (h : s.Canon) : (s.enqueue r).Canon :=
  .via
      (fun ha =>
        .ite (.spillDown <| .frame <| .causeIf ha) <|
          .ite
            (by
              split
              · exact .spillDown <| .countDrop <| .frame <| .causeIf ha
              · exact .countDrop <| .causeIf ha) <| .countDrop <| .causeIf ha) <| .ifThen .spillDown <| .causeIf h

theorem State.Canon.addRecord {r} (h : s.Canon) : (s.addRecord r).Canon := .ite (.enqueue <| .frame h) <| .enqueue h

theorem State.Canon.recordAt {e time src} (h : s.Canon) : (s.recordAt e time src).Canon :=
  .foldl h fun _ _ => .addRecord

theorem State.Canon.record_ {e now} (h : s.Canon) : (s.record_ e now).Canon := .recordAt h

theorem State.Canon.dropPoisoned (h : s.Canon) : s.dropPoisoned.Canon := .ite h <| .showQueue <| .bumpBy <| .frame h

theorem State.Canon.nextPage (h : s.Canon) : s.nextPage.Canon :=
  .ifElse (fun ha => .ite (.setF <| .frame ha) <| .frame ha) <| .dropPoisoned h

theorem State.Canon.showSeqs {last} (h : s.Canon) : (s.showSeqs last).Canon := .set64 <| .set64 h

theorem State.Canon.program {r} (h : s.Canon) : (s.program r).Canon := .showSeqs <| .ifThen .setF <| .frame h

theorem State.Canon.toFlash {r} (h : s.Canon) : (s.toFlash r).Canon := .ite (.frame h) <| .program h

theorem State.Canon.freezeIfStill {now} (h : s.Canon) : (s.freezeIfStill now).Canon :=
  .ite (.cause <| .setF <| .frame h) h

theorem Res.Canon.execLogPageProgrammed {now} (h : s.Canon) : Res.Canon (execLogPageProgrammed now s) :=
  .next <| .ite h <| .nextPage <| .freezeIfStill <| .showQueue <| .ifElse (fun ha => .frame ha) <| .frame <|
    .foldl h fun _ _ => .toFlash

theorem Res.Canon.execLogBlockErased {now} (h : s.Canon) : Res.Canon (execLogBlockErased now s) := by
  refine .next ?_
  split
  · exact .ite h <| .nextPage <| .freezeIfStill <| .showSeqs <| .setF <| .frame h
  · exact h

theorem State.Canon.endWindow {w now} (h : s.Canon) : (s.endWindow w now).Canon := .ifElse .record_ <| .frame h

theorem State.Canon.arrive {now e} (h : s.Canon) : (s.arrive now e).Canon := by
  refine .ite (.bump h) <| .ite (.record_ h) ?_
  dsimp only
  split
  · exact .ite (.frame h) <| .record_ <| .frame <| .endWindow h
  · exact .record_ <| .frame h

theorem Res.Canon.execLogRecordArrive {count now} (h : s.Canon) : Res.Canon (execLogRecordArrive count now s) :=
  .next <| .ite h <| .nextPage <| .foldl (.frame h) fun _ _ => .arrive

theorem Res.Canon.execRepeatWindowEnd {code source now} (h : s.Canon) : Res.Canon (execRepeatWindowEnd code source now s) := by
  refine .next ?_
  split
  · exact .ite (.nextPage <| .endWindow h) h
  · exact h

theorem State.Canon.logRecover {now} (h : s.Canon) : (s.logRecover now).Canon :=
  .ite h <| .nextPage <|
    .foldl
      (.frame <| .record_ <| .bumpBy <|
        .foldl (.foldl (.showSeqs <| .setF <| .setF <| .setF <| .bumpBy <| .frame h) fun _ _ => .enqueue) fun _ _ ha =>
          .recordAt ha)
      fun _ _ => .addRecord

theorem State.Canon.powerFail {now} (h : s.Canon) : (s.powerFail now).Canon :=
  .ifThen (fun ha => .nextPage <| .toFlash <| .cause <| .frame ha) <| .ifThen (fun ha => .record_ <| .cause ha) <|
    .setF <| .frame h

theorem State.Canon.islandEvent {e now} (h : s.Canon) : (s.islandEvent e now).Canon := .ite (.frame h) <| .frame h

theorem State.Canon.logErase (h : s.Canon) : s.logErase.Canon :=
  .showQueue <| .setF <| .showSeqs <| .setF <| .setF <| .setF <| .frame h

theorem State.Canon.logResult {code} (h : s.Canon) : (s.logResult code).Canon := .setF h

theorem Res.Canon.execLogFreeze {now} (h : s.Canon) : Res.Canon (execLogFreeze now s) :=
  .next <| .ite (.logResult h) <| .freezeIfStill <| .logResult <| .frame h

theorem State.Canon.endFreeze {now} (h : s.Canon) : (s.endFreeze now).Canon :=
  .ite (.nextPage <| .spillDown <| .record_ <| .cause <| .setF <| .frame h) h

theorem Res.Canon.execLogUnfreeze {now} (h : s.Canon) : Res.Canon (execLogUnfreeze now s) :=
  .next <| .logResult <| .endFreeze h

theorem Res.Canon.execFreezeMaxElapsed {now} (h : s.Canon) : Res.Canon (execFreezeMaxElapsed now s) := by
  refine .next ?_
  split
  · exact .ite (.endFreeze h) h
  · exact h

theorem Res.Canon.execDump (h : s.Canon) : Res.Canon (execDump s) :=
  .next <| .ite (.logResult h) <| .ite (.logResult h) <| .logResult <| .setF <| .frame h

theorem Res.Canon.execDumpComplete (h : s.Canon) : Res.Canon (execDumpComplete s) :=
  .next <| .ite (.cause <| .setF <| .setF <| .bumpBy <| .stackWrite h) h

theorem Res.Canon.execClearCounts (h : s.Canon) : Res.Canon (execClearCounts s) :=
  .next <| .logResult <| .setF <| .setF <| .setF <| .setF <| .setF h

theorem State.Canon.showRead {path r stat} (h : s.Canon) : (s.showRead path r stat).Canon :=
  .wrPath <| .foldl h fun _ _ => .wrPath

theorem Res.Canon.execLogRdLatch {path seq} (h : s.Canon) : Res.Canon (execLogRdLatch path seq s) := by
  refine .next ?_
  dsimp only
  split
  · exact .showRead <| .dropPoisoned h
  · split
    · exact .showRead <| .dropPoisoned h
    · split
      · exact .showRead <| .useFree <| .dropPoisoned h
      · split
        · exact .showRead <| .bump <| .dropPoisoned h
        · exact .wrPath <| .dropPoisoned h

/-! ### Sys2Proof/Machine/Pack.lean -/

theorem State.Canon.challenge {p tries now} (h : s.Canon) : (s.challenge p tries now).Canon :=
  .radio <| .frame <| .useFree h

theorem State.Canon.authServe {now} (h : s.Canon) : (s.authServe now).Canon := by
  refine .ite h ?_
  split
  · exact .ite h <| .frame h
  · exact .ite h <| .challenge <| .frame h

theorem State.Canon.authResult {p ok now} (h : s.Canon) : (s.authResult p ok now).Canon :=
  .authServe <| .foldl (.ifElse (fun ha => .cause <| .event ha) <| .setMapBit <| .setMapBit <| .frame h) fun _ _ ha =>
      .showLimits ha

theorem Res.Canon.execAuthRespReceive {now message} (h : s.Canon) : Res.Canon (execAuthRespReceive now message s) := by
  refine .next ?_
  dsimp only
  split
  · refine .ite (.pklTakeDisc h) ?_
    split
    · exact .authResult <| .misuse <| .pklTakeDisc h
    · exact .authResult <| .pklTakeDisc h
  · exact .pklTakeDisc h

theorem Res.Canon.execAuthTimeout {now} (h : s.Canon) : Res.Canon (execAuthTimeout now s) := by
  refine .next ?_
  split
  · exact h
  · exact .ite h <| .ite (.challenge h) <| .authResult h

theorem Res.Canon.execAuthPeriodElapsed (h : s.Canon) : Res.Canon (execAuthPeriodElapsed s) :=
  .next <| .ite (.authAll h) h

theorem Res.Canon.execEstAuth (h : s.Canon) : Res.Canon (execEstAuth s) := .next <| .ite (.authAll h) <| .estBusy h

theorem State.Canon.pklSettle {now} (h : s.Canon) : (s.pklSettle now).Canon := .ite (.authServe h) h

theorem Res.Canon.execEnumerate {now} (h : s.Canon) : Res.Canon (execEnumerate now s) :=
  .next <| .pklSettle <| .enumerate h

theorem Res.Canon.execEnumAnsReceive {radio now message} (h : s.Canon) : Res.Canon (execEnumAnsReceive radio now message s) := by
  refine .next ?_
  dsimp only
  split
  · exact .pklTakeDisc h
  · refine .ite (.pklTakeDisc h) ?_
    split
    · exact .ite (.pklTakeDisc h) <| .ifThen .enumEnd <| .admitNode <| .pklTakeDisc h
    · exact .ite (.pklTakeDisc h) <| .ite (.frame <| .pklTakeDisc h) <| .ite (.pklTakeDisc h) <|
        .ite (.pklSettle <| .enumNext <| .pklTakeDisc h) <|
        .ite (.pklSettle <| .enumNext <| .admitNode <| .pklTakeDisc h) <| .event <| .set64 <| .pklTakeDisc h

theorem Res.Canon.execEnumStepTimeout {now} (h : s.Canon) : Res.Canon (execEnumStepTimeout now s) := by
  refine .next ?_
  split
  · exact h
  · exact .ite h <| .ite (.enumSend h) <| .pklSettle <| .enumNext h

theorem Res.Canon.execEnumOpenSlotsEnd {now} (h : s.Canon) : Res.Canon (execEnumOpenSlotsEnd now s) := by
  refine .next ?_
  split
  · exact h
  · refine .ite h ?_
    split
    · exact .enumSend h
    · exact .ite (.enumSend h) <| .pklSettle <| .enumNext h

theorem Res.Canon.execDiscoveryGap {now} (h : s.Canon) : Res.Canon (execDiscoveryGap now s) :=
  .next <| .ite h <| .ite (.pklSettle <| .gapBegin <| .frame h) <| .authServe <| .frame h

theorem Res.Canon.execReenum {now} (h : s.Canon) : Res.Canon (execReenum now s) :=
  .next <| .ite h <| .ite (.frame h) <| .pklSettle <| .gapBegin <| .frame h

theorem Res.Canon.execPklSleep (h : s.Canon) : Res.Canon (execPklSleep s) := .next <| .ite h <| .nodesSleep h

theorem Res.Canon.execPklWake {now} (h : s.Canon) : Res.Canon (execPklWake now s) :=
  .next <| .ite (.pklSettle <| .enumGo <| .wakeNodes h) h

theorem Res.Canon.execPklClear (h : s.Canon) : Res.Canon (execPklClear s) :=
  .next <| .setF <| .setF <| .setF <| .setF <| .setF <| .setF h

theorem State.Canon.showEff (h : s.Canon) : s.showEff.Canon := .setF <| .setF <| .setF <| .setF h

theorem Res.Canon.execSweepBoundary {now} (h : s.Canon) : Res.Canon (execSweepBoundary now s) :=
  .next <| .ite h <| .radio <| .radio <| .fixSampleInstant <| .frame <| .ifThen .useFree <| .setF <| .showEff <|
    .frame h

theorem Res.Canon.execReportReceive {radio message} (h : s.Canon) : Res.Canon (execReportReceive radio message s) := by
  refine .next ?_
  dsimp only
  split
  · exact .pklTakeFast h
  · exact .ite (.pklTakeFast h) <| .frame <| .pklTakeFast h

theorem State.Canon.showNode {ts d p} (h : s.Canon) : (s.showNode ts d p).Canon := by
  unfold State.showNode
  extract_lets dist age
  have hage : ∀ {a : State}, a.Canon → (age a).Canon := fun {a} ha => by
    dsimp only [age]
    split
    · exact .setSat ha
    · exact ha
  split
  · exact .ite h <| hage <| .setF <| .setF h
  · exact .via (fun ha => .ite (hage <| .setF <| .setF ha) <|
        .setF <| .setF <| .frame <| .setF <| .setF <| .foldl ha fun _ _ => .setF) <|
      .setF <| .ifThen (fun ha => .frame <| .setF ha) <| .setF <| .setF <| .setF <| .setF <| .setF <| .setF h

theorem State.Canon.publishSweep (h : s.Canon) : s.publishSweep.Canon :=
  .showPkl <| .set64 <| .foldl h fun _ _ => .showNode

theorem State.Canon.complete {side ps} (h : s.Canon) : (s.complete side ps).Canon := by
  unfold State.complete
  split
  · exact .ite (.bump <| .radio h) h
  · exact h

theorem Res.Canon.execPrimaryPassEnd {now} (h : s.Canon) : Res.Canon (execPrimaryPassEnd now s) :=
  .next <| .ite h <| .complete <| .complete <| .frame <| .publishSweep h

theorem State.Canon.closeNode {count p} (h : s.Canon) : (s.closeNode count p).Canon := by
  unfold State.closeNode
  split
  · exact .ifThen .event <| .frame <| .ite (.event h) h
  · exact .ite h <| .ite (.ite h <| .setF h) <| .ifElse (fun ha => .ite (.cause <| .event <| .setF ha) <| .setF ha) <|
      .setF h

theorem State.Canon.balance (h : s.Canon) : s.balance.Canon :=
  .foldl h fun _ _ ha => .foldl ha fun _ _ hb => .ite hb <| .frame hb

theorem State.Canon.sendBalance (h : s.Canon) : s.sendBalance.Canon := by
  refine .foldl h fun _ _ ha => ?_
  split
  · exact ha
  · exact .ite (.event <| .frame ha) <| .radio <| .frame ha

theorem State.Canon.countBleed {p} (h : s.Canon) : (s.countBleed p).Canon := by
  unfold State.countBleed
  split
  · exact h
  · exact .frame <| .setF h

theorem State.Canon.closeSweep {count} (h : s.Canon) : (s.closeSweep count).Canon :=
  .cause <| .publishRecord <| .estClose <| .estClose <| .frame <| .showEff <| .setF <| .ifThen .sendBalance <|
    .ifThen .balance <| .frame <| .bumpBy <| .publishSweep <| .foldl h fun _ _ ha => .countBleed <| .closeNode ha

theorem Res.Canon.execSweepClose {now} (h : s.Canon) : Res.Canon (execSweepClose now s) :=
  .next <| .ite (.closeSweep h) h

theorem Res.Canon.execBalAckReceive {message} (h : s.Canon) : Res.Canon (execBalAckReceive message s) := by
  refine .next ?_
  dsimp only
  split
  · exact .pklTakeFast h
  · exact .ite (.pklTakeFast h) <| .frame <| .setF <| .pklTakeFast h

theorem Res.Canon.execBalStop (h : s.Canon) : Res.Canon (execBalStop s) := .next <| .frame h

theorem State.Canon.pklTakeOver {now} (h : s.Canon) : (s.pklTakeOver now).Canon :=
  .ifThen (fun ha => .pklSettle <| .enumGo ha) <| .ifThen .closeSweep <| .showPkl h

theorem State.Canon.pklRelease (h : s.Canon) : s.pklRelease.Canon := .showPkl <| .frame h

/-! ### Sys2Proof/Machine/Shift.lean -/

theorem rising_map_snd {α : Type} (f : α → α) (b : Option Nat) (m : Sparse α) :
    Sparse.rising b (m.map fun e => (e.1, f e.2)) = Sparse.rising b m := by
  induction m generalizing b with
  | nil => cases b <;> rfl
  | cons e m ih => cases b <;> simp [Sparse.rising, ih]

theorem eachUnit_wf {α : Type} [DecidableEq α] (d : α) (f : α → α) (m : Sparse α) (h : Sparse.wf (fun _ => d) m = true) :
    Sparse.wf (fun _ => d) (eachUnit d f m) = true := by
  simp only [Sparse.wf, Bool.and_eq_true] at h ⊢
  refine ⟨Sparse.rising_filter _ _ _ ((rising_map_snd f none m).trans h.1), ?_⟩
  simp [eachUnit]

theorem State.Canon.setCounter {f} (h : s.Canon) : (s.setCounter f).Canon := by
  refine .ite h ⟨h.regs, h.eff, h.mem, h.poison, ?_⟩
  dsimp only
  exact eachUnit_wf _ _ _ h.str

/-! ### Sys2Proof/Machine/TwinCopy.lean -/

theorem State.Canon.toTwin {what bs} (h : s.Canon) : (s.toTwin what bs).Canon := .emit h

theorem State.Canon.sendRecord {f final} (h : s.Canon) : (s.sendRecord f final).Canon :=
  .setF <| .bump <| .frame <| .toTwin h

theorem State.Canon.loadTile {e} (h : s.Canon) : (s.loadTile e).Canon :=
  .ite (.setComp <| .setMapBit <| .setS <| .setF <| .setS <| .setTile h) h

theorem State.Canon.loadTimer {n at16 v} (h : s.Canon) : (s.loadTimer n at16 v).Canon :=
  .via (fun ha => .ite (.timerHalt ha) <| .setF <| .frame ha) <| .setF <| .setF h

theorem State.Canon.loadLogic {f e} (h : s.Canon) : (s.loadLogic f e).Canon :=
  .ite (.foldl (.setF <| .setF <| .setF <| .frame h) fun _ _ => .loadTimer) h

theorem State.Canon.loadLane {e} (h : s.Canon) : (s.loadLane e).Canon := .ite (.setLaneSt <| .setF <| .setLane h) h

theorem State.Canon.loadProtection {at16 e} (h : s.Canon) : (s.loadProtection at16 e).Canon :=
  .setF <| .setF <| .setF <| .tripGroups <| .foldl (.foldl h fun _ _ ha => .setConv <| .setF <| .setF <| .setF ha) fun _ _ ha =>
      .ite ha <| .matchShed ha

theorem State.Canon.loadWb {e} (h : s.Canon) : (s.loadWb e).Canon :=
  .foldl
      (.via
          (fun ha => by
            split
            · exact .applyEntry <| .frame ha
            · exact ha) <| .setF <| .setF <| .frame h)
      fun _ _ ha => .setF <| .setF <| .setF <| .setWbLane ha

theorem State.Canon.loadRecord {bs} (h : s.Canon) : (s.loadRecord bs).Canon :=
  .foldl
      (.foldl (.foldl (.foldl (.foldl h fun _ _ => .loadTile) fun _ _ => .loadLogic) fun _ _ => .loadLane) fun _ _ ha =>
        .loadProtection ha)
      fun _ _ => .loadWb

theorem State.Canon.replaySample {x} (h : s.Canon) : (s.replaySample x).Canon := .frame <| .tileSample h

theorem State.Canon.replayUpTo {f0 t16} (h : s.Canon) : (s.replayUpTo f0 t16).Canon := .foldl h fun _ _ => .replaySample

theorem State.Canon.replayFrame {new} (h : s.Canon) : (s.replayFrame new).1.Canon := by
  unfold State.replayFrame
  split
  · exact h
  · exact .iteFst (.frame <| .replayUpTo h) h

theorem State.Canon.showReady {now} (h : s.Canon) : (s.showReady now).Canon := .setF <| .readyIs h

theorem State.Canon.recordTaken {bs} (h : s.Canon) : (s.recordTaken bs).Canon := .setF <| .bump <| .frame h

theorem State.Canon.takerLive (h : s.Canon) : s.takerLive.Canon := by
  refine .frame <| .foldl ?_ fun _ _ => .replaySample
  split
  · exact .loadRecord h
  · exact h

theorem Res.Canon.execStateRecordReceive {message now} (h : s.Canon) : Res.Canon (execStateRecordReceive message now s) :=
  .next <| .ite h <| .ite (.ifThen .takerLive <| .frame <| .bump h) <|
    .via (fun ha => .ite (.takerLive ha) <| .ite ha <| .showReady <| .setF <| .setCounter ha) <|
    .via (fun ha => .ite (.frame ha) <| .frame <| .loadRecord ha) <| .setF <| .recordTaken <| .replayFrame h

/-! ### Sys2Proof/Machine/Twin.lean -/

theorem State.Canon.sendClaim {cause} (h : s.Canon) : (s.sendClaim cause).Canon := .ldgSend h

theorem State.Canon.twinResult {code} (h : s.Canon) : (s.twinResult code).Canon := .cause <| .setF h

theorem State.Canon.startResync {now} (h : s.Canon) : (s.startResync now).Canon :=
  .toTwin <| .twinState <| .shadow <| .frame h

theorem State.Canon.follow {now} (h : s.Canon) : (s.follow now).Canon := .ite (.startResync h) <| .quarantine h

theorem State.Canon.admitTwin {b} (h : s.Canon) : (s.admitTwin b).Canon := .ite h <| .ifThen .setF <| .frame h

theorem State.Canon.assertClaim {now} (h : s.Canon) : (s.assertClaim now).Canon := .ite h <| .line <| .frame h

theorem State.Canon.clockPasses (h : s.Canon) : s.clockPasses.Canon := by
  refine .foldl h fun _ _ ha => .ite ?_ ha
  dsimp only
  split
  · exact .setFt ha
  · exact ha

theorem State.Canon.loseLock {why now} (h : s.Canon) : (s.loseLock why now).Canon :=
  .diesOn <| .shadow <| .event <| .bump <| .line <| .clockPasses <| .senseDomains <| .showPins <| .pklRelease <|
    .pwmLock <| .setF <| .cause <| .setF <| .admitTwin <| .frame h

theorem State.Canon.afterLock {commanded} (h : s.Canon) : (s.afterLock commanded).Canon :=
  .ite (.twinResult <| .twinState <| .readyIs <| .frame h) <| .quarantine <| .ifThen .twinResult <| .frame h

theorem State.Canon.handOver {now} (h : s.Canon) : (s.handOver now).Canon :=
  .afterLock <| .loseLock <| .ite (.sendRecord h) h

theorem Res.Canon.execTwinClaimSensed {asserted now} (h : s.Canon) : Res.Canon (execTwinClaimSensed asserted now s) :=
  .next <|
    .ifElse
      (fun ha =>
        .ite (.ite (.handOver ha) ha) <| .ite (.ite (.follow <| .withdraw ha) <| .withdraw ha) <| .ite (.follow ha) ha) <|
    .setF <| .frame h

theorem Res.Canon.execLockAcquire {now failAt} (h : s.Canon) : Res.Canon (execLockAcquire now failAt s) :=
  .next <| .ite h <|
    .ifThen
      (fun ha =>
        .sendClaim <| .event <| .setSat <| .setF <| .bump <| .foldl (.foldl ha fun _ _ => .setWbLane) fun _ _ hb =>
            .ite (.showJobLane hb) hb) <| .diesOn <| .ifThen (fun ha => .setF <| .setF ha) <| .powerState <|
    .pklTakeOver <| .clockPasses <| .senseDomains <| .showPins <| .pwmLock <| .showReady <| .twinState <| .setF <|
    .setF <| .setF <| .cause <| .setF <| .ite (.abandonLayer <| .admitTwin <| .frame h) <| .admitTwin <| .frame h

theorem Res.Canon.execKeeperExpiry {now} (h : s.Canon) : Res.Canon (execKeeperExpiry now s) :=
  .next <| .ite (.ite (.afterLock <| .loseLock h) <| .withdraw h) h

theorem Res.Canon.execSlotExchange {answer now} (h : s.Canon) : Res.Canon (execSlotExchange answer now s) :=
  .next <| .ite h <|
    .via
      (fun ha => by
        dsimp only
        split
        · exact .ite (.quarantine <| .event <| .setF <| .set64 ha) <| .ite (.follow <| .set64 ha) <|
            .ite (.assertClaim <| .set64 ha) <| .frame <| .set64 ha
        · exact .ite h <| .ite (.follow ha) <| .ite (.assertClaim ha) <| .frame ha) <| .toTwin <| .frame h

theorem Res.Canon.execLockWaitElapsed {now} (h : s.Canon) : Res.Canon (execLockWaitElapsed now s) := by
  refine .next ?_
  split
  · exact .ite (.assertClaim h) h
  · exact h

theorem State.Canon.sendBeat {st netDown} (h : s.Canon) : (s.sendBeat st netDown).Canon :=
  .frame <| .toTwin <| .toTwin h

theorem Res.Canon.execBeatSend {now} (h : s.Canon) : Res.Canon (execBeatSend now s) :=
  .next <| .ite h <| .frame <| .sendBeat h

theorem State.Canon.enterTaking {cmd} (h : s.Canon) : (s.enterTaking cmd).Canon :=
  .twinState <| .setF <| .ifThen (fun ha => .setF <| .setF ha) <| .frame h

theorem State.Canon.declare {cause code now} (h : s.Canon) : (s.declare cause code now).Canon :=
  .ite h <| .via (fun ha => .ite (.ite (.enterTaking ha) ha) <| .ite (.showReady <| .sendClaim ha) ha) <| .cause <|
    .event <| .setF <| .setF <| .admitTwin <| .frame h

theorem State.Canon.abandonSwitch (h : s.Canon) : s.abandonSwitch.Canon := .twinResult <| .frame h

theorem Res.Canon.execBeatReceive {path now message} (h : s.Canon) : Res.Canon (execBeatReceive path now message s) :=
  .next <| .ite h <| .showReady <| .ifThen .enterTaking <|
    .via (fun ha => .ite (.sendClaim <| .frame ha) <| .ite (.frame ha) ha) <| .ifThen .abandonSwitch <|
    .ifThen .declare <| .admitTwin <| .frame <| .ifThen (fun ha => .cause <| .event <| .bump <| .setF <| .setF ha) <|
    .setF <| .setF <| .setF <| .frame h

theorem Res.Canon.execBeatMiss {path now} (h : s.Canon) : Res.Canon (execBeatMiss path now s) := by
  refine .next ?_
  split
  · exact h
  · exact .ite h <| .via (fun ha => .ite (.showReady <| .declare ha) <| .ite (.showReady <| .declare ha) ha) <|
      .ifThen (fun ha => .cause <| .event <| .setF ha) <| .bump <| .bump <| .frame h

theorem Res.Canon.execLockRequest {now} (h : s.Canon) : Res.Canon (execLockRequest now s) :=
  .next <| .ite (.assertClaim <| .frame h) h

theorem Res.Canon.execLockBlocked {now} (h : s.Canon) : Res.Canon (execLockBlocked now s) := by
  refine .next ?_
  split
  · exact .ite (.showReady <| .event <| .sendClaim <| .setF <| .twinState <| .frame <| .withdraw h) h
  · exact h

theorem Res.Canon.execNetBack {now} (h : s.Canon) : Res.Canon (execNetBack now s) := .next <| .ite (.sendClaim h) h

theorem Res.Canon.execTwinLaneChange {down} (h : s.Canon) : Res.Canon (execTwinLaneChange down s) := .next <| .setF h

theorem Res.Canon.execLockstep (h : s.Canon) : Res.Canon (execLockstep s) := .next <| .frame <| .controlFault h

theorem Res.Canon.execClockOutOfRange (h : s.Canon) : Res.Canon (execClockOutOfRange s) := .next <| .controlFault h

theorem Res.Canon.execRailOutOfRange (h : s.Canon) : Res.Canon (execRailOutOfRange s) := .next <| .controlFault h

theorem Res.Canon.execTwnAdmit {now} (h : s.Canon) : Res.Canon (execTwnAdmit now s) :=
  .next <| .ite (.twinResult h) <| .ite h <| .ite (.twinResult h) <| .startResync <| .twinResult h

theorem State.Canon.startSwitch {thenQuar} (h : s.Canon) : (s.startSwitch thenQuar).Canon :=
  .ite (.twinResult <| .frame h) <| .twinResult h

theorem Res.Canon.execTwnSwitch (h : s.Canon) : Res.Canon (execTwnSwitch s) :=
  .next <| .ite (.twinResult h) <| .startSwitch h

theorem Res.Canon.execTwnQuarantine (h : s.Canon) : Res.Canon (execTwnQuarantine s) :=
  .next <| .ite (.twinResult h) <| .ite (.startSwitch h) <| .ite (.twinResult <| .quarantine h) h

theorem Res.Canon.execTwnClear (h : s.Canon) : Res.Canon (execTwnClear s) :=
  .next <| .setF <| .setF <| .setF <| .setF <| .setF <| .setF <| .setF h

theorem State.Canon.showHealth {bs} (h : s.Canon) : (s.showHealth bs).Canon := .foldl h fun _ _ => .setF

theorem State.Canon.healthReport {tHub now} (h : s.Canon) : (s.healthReport tHub now).Canon :=
  .via (fun ha => .ite (.quarantine <| .controlFault <| .frame ha) <| .showReady <| .frame ha) <| .showHealth <|
    .toTwin h

theorem Res.Canon.execHealthReportReceive {message now} (h : s.Canon) : Res.Canon (execHealthReportReceive message now s) :=
  .next <| .ite h <| .showReady <| .frame <| .causeIf <| .showHealth h

theorem State.Canon.twinFrame {f now} (h : s.Canon) : (s.twinFrame f now).Canon :=
  .showReady <| .frame <| .via (fun ha => .ite (.sendRecord ha) <| .bump ha) <| .ifThen .takerLive <|
    .ifElse (fun ha => .frame ha) <| .setF h

/-! ### Sys2Proof/Machine/Reset.lean -/

theorem State.Canon.showSlot {i} (h : s.Canon) : (s.showSlot i).Canon := .wr h

theorem State.Canon.showAgree (h : s.Canon) : s.showAgree.Canon := .foldl h fun _ _ => .wr

theorem State.Canon.showMins (h : s.Canon) : s.showMins.Canon := .setF <| .setF h

theorem State.Canon.fuseRegs (h : s.Canon) : s.fuseRegs.Canon := by
  unfold State.fuseRegs
  exact .showAgree <| .foldl (.showMins <| .setF <| .setF h) fun _ _ => .showSlot

theorem State.Canon.fuseHalt (h : s.Canon) : s.fuseHalt.Canon := .ite (.frame <| .setF h) h

theorem State.Canon.onlyRuns {ns} (h : s.Canon) : (s.onlyRuns ns).Canon := .setRunsAll <| .setF <| .setF h

theorem State.Canon.pllsOn {now} (h : s.Canon) : (s.pllsOn now).Canon := .diesOn <| .setRuns <| .setF <| .setRunsAll h

theorem State.Canon.atRegulators (h : s.Canon) : s.atRegulators.Canon :=
  .via (fun ha => .ite (.setF ha) <| .setF <| .setRunsAll ha) <| .setF <| .setF <| .onlyRuns h

theorem State.Canon.afterClocks (h : s.Canon) : s.afterClocks.Canon := .setF h

theorem State.Canon.startAgain {locked} (h : s.Canon) : (s.startAgain locked).Canon :=
  .ite (.afterClocks <| .pllsOn <| .onlyRuns h) <| .ite (.setF <| .atRegulators h) <| .atRegulators h

theorem State.Canon.showTwin (h : s.Canon) : s.showTwin.Canon := .setF <| .setF h

/-- A list built by operations that keep the canonical form has it. -/
theorem Sparse.wf_foldl {α β : Type} [DecidableEq α] {d : Nat → α} {l : List β} {g : Sparse α → β → Sparse α} {m : Sparse α}
    (h : Sparse.wf d m = true) (hg : ∀ m x, Sparse.wf d m = true → Sparse.wf d (g m x) = true) :
    Sparse.wf d (l.foldl g m) = true := by
  induction l generalizing m with
  | nil => exact h
  | cons x l ih => exact ih (hg m x h)

theorem State.Canon.keptRegs {island} : Sparse.wf regReset (s.keptRegs island) = true :=
  Sparse.wf_foldl rfl fun m e hm => by
    split
    · exact Sparse.wf_put _ _ _ _ hm
    · split
      · exact Sparse.wf_put _ _ _ _ hm
      · exact hm

theorem State.Canon.reset : State.reset.Canon where
  regs := by decide +kernel
  eff := rfl
  mem := rfl
  poison := rfl
  str := rfl

theorem State.Canon.restarted {island now} (h : s.Canon) : (s.restarted island now).Canon := by
  refine ⟨State.Canon.keptRegs, rfl, rfl, rfl, ?_⟩
  cases island with
  | false => rfl
  | true => exact h.str

theorem State.Canon.resetAt {now} (h : s.Canon) : (s.resetAt now).Canon :=
  .fuseHalt <| .startAgain <| .showTwin <| .fuseRegs <| .setF <| .setF <| .setF <| .setF <| .setF <| .setF <| .setF <|
    .setF <| .setF <| .setF <| .setF <| .setF <| .restarted h

theorem State.Canon.because {f} (h : s.Canon) : (s.because f).Canon := .setF h

theorem State.Canon.fusedRegs : Sparse.wf regReset
    (s.fuseWords.foldl (fun (m : Sparse Word) (e : Nat × Word) => Sparse.put regReset m e.1 e.2) State.reset.regs) = true :=
  Sparse.wf_foldl State.Canon.reset.regs fun _ _ hm => Sparse.wf_put _ _ _ _ hm

theorem State.Canon.powerOn {straps bad} : (s.powerOn straps bad).Canon :=
  .fuseHalt <| .atRegulators <| .showTwin <| .ifThen .event <|
    .foldl (.fuseRegs <| .setF <| .setF ⟨State.Canon.fusedRegs, rfl, rfl, rfl, rfl⟩) fun _ _ => .ifThen .event

/-! ### Sys2Proof/Machine/Lcs.lean -/

theorem State.Canon.lcResult {code} (h : s.Canon) : (s.lcResult code).Canon := .cause <| .setF h

theorem State.Canon.lcDo {f} (h : s.Canon) (hf : ∀ a, a.Canon → (f a).Canon) : (s.lcDo f).Canon :=
  .ite (.lcResult h) <| hf _ h

theorem State.Canon.showNonce {bs} (h : s.Canon) : (s.showNonce bs).Canon := .foldl h fun _ _ => .wr

theorem State.Canon.dropNonce (h : s.Canon) : s.dropNonce.Canon := .frame <| .showNonce h

theorem Res.Canon.execLcChallenge {now} (h : s.Canon) : Res.Canon (execLcChallenge now s) :=
  .next <| .lcDo h fun _ ha => .lcResult <| .frame <| .showNonce <| .useFree <| .causeIf ha

theorem Res.Canon.execNonceLapse {now} (h : s.Canon) : Res.Canon (execNonceLapse now s) := by
  refine .next ?_
  split
  · exact .ite (.cause <| .dropNonce h) h
  · exact h

theorem State.Canon.misuses {r gs use} (h : s.Canon) : (s.misuses r gs use).Canon :=
  .foldl h fun _ _ ha => .ite ha <| .misuse ha

theorem State.Canon.lcRefuse {op target code} (h : s.Canon) : (s.lcRefuse op target code).Canon := .lcResult <| .event h

theorem Res.Canon.execLcChange {now} (h : s.Canon) : Res.Canon (execLcChange now s) := by
  refine .next <| .lcDo h fun _ ha => .ite (.lcRefuse ha) ?_
  split
  · exact .lcRefuse ha
  · refine .ite (.lcRefuse ha) ?_
    split
    · exact .lcRefuse ha
    · exact .ite (.lcRefuse ha) <| .ite (.lcRefuse <| .misuses ha) <| .lcResult <| .setF <| .setF <| .frame <|
        .dropNonce ha

theorem State.Canon.wiped {p : Nat × Word → Bool} (h :
    s.Canon) {pathRegs latch held waiting frame counting frameBase hostWrite irq cfg sns lt
    pwm wb ctx th hnt ldg cpc pkl est snap sec twn pwr log host events outbox free pending} (hstr : est.str = [] := by rfl) :
    (State.mk (s.regs.filter p) [] pathRegs latch held waiting frame counting frameBase hostWrite irq [] [] cfg sns lt pwm wb ctx th hnt ldg
      cpc pkl est snap sec twn pwr log host events outbox free pending).Canon :=
  ⟨Sparse.wf_filter _ _ _ h.regs, rfl, rfl, rfl, hstr ▸ rfl⟩

theorem State.Canon.wipeVolatile {now} (h : s.Canon) : (s.wipeVolatile now).Canon :=
  .ifThen (fun ha => .setF <| .setF ha) <|
    .foldl (.setF <| .dropNonce <| .showQueue <| .bumpBy <| .wiped <| .endFreeze h) fun _ _ => .showSlot

theorem State.Canon.setFused {i w} (h : s.Canon) : (s.setFused i w).Canon := .showSlot <| .frame h

theorem State.Canon.destroySlot {i} (h : s.Canon) : (s.destroySlot i).Canon := .setFused <| .ite (.frame h) <| .frame h

theorem State.Canon.revokeSlot {i} (h : s.Canon) : (s.revokeSlot i).Canon := .setFused h

theorem State.Canon.destroyKeys {target} (h : s.Canon) : (s.destroyKeys target).Canon :=
  .ifThen (fun ha => .destroySlot <| .destroySlot ha) <| .foldl (.foldl h fun _ _ => .destroySlot) fun _ _ ha =>
      .revokeSlot ha

theorem State.Canon.heartRecord {q e now} (h : s.Canon) : (s.heartRecord q e now).Canon := .frame h

theorem Res.Canon.execLcChangeStepComplete {now} (h : s.Canon) : Res.Canon (execLcChangeStepComplete now s) := by
  refine .next ?_
  split
  · exact h
  · dsimp only
    split
    · exact .setF h
    · exact .setF <| .wipeVolatile h
    · exact .setF <| .destroyKeys h
    · exact .setF <| .fuseRegs <| .ite (.frame h) <| .frame h
    · exact .setF <| .logErase <| .frame h
    · exact .setF <| .frame h
    · exact .setF <| .setF <| .setF <| .powerOn
    · exact h

theorem Res.Canon.execLogRecover {now} (h : s.Canon) : Res.Canon (execLogRecover now s) :=
  .next <| .ite h <| .ite (.setF <| .setF <| .frame h) <| .logRecover h

theorem State.Canon.takeLock (h : s.Canon) : s.takeLock.Canon := .setF h

theorem Res.Canon.execLcLock (h : s.Canon) : Res.Canon (execLcLock s) :=
  .next <| .lcDo h fun _ ha => .ite (.lcResult <| .takeLock ha) <| .lcResult ha

theorem State.Canon.withRecord {ops now f} (h : s.Canon) (hf : ∀ r, (f r).Canon) : (s.withRecord ops now f).Canon := by
  unfold State.withRecord
  split
  · exact .lcResult h
  · exact .ite (.lcResult h) <| .ite (.lcResult h) <| hf _

theorem Res.Canon.execDebugUnlock {now} (h : s.Canon) : Res.Canon (execDebugUnlock now s) :=
  .next <| .lcDo h fun _ ha =>
      .withRecord ha fun _ => .ite (.lcResult <| .misuses ha) <| .lcResult <| .event <| .setF <| .dropNonce ha

theorem Res.Canon.execRaiseMin {now} (h : s.Canon) : Res.Canon (execRaiseMin now s) :=
  .next <| .lcDo h fun _ ha =>
      .withRecord ha fun _ =>
        .ite (.lcResult <| .misuses ha) <| .ite (.lcResult ha) <| .lcResult <| .event <| .showMins <|
          .ite (.frame <| .dropNonce ha) <| .frame <| .dropNonce ha

theorem Res.Canon.execEnrol (h : s.Canon) : Res.Canon (execEnrol s) := by
  refine .next <| .lcDo h fun _ ha => .ite (.lcResult ha) ?_
  split
  · exact .lcResult ha
  · refine .ite (.ite (.lcResult <| .ite ha <| .misuse ha) ?_) ?_
    · split
      · exact .lcResult ha
      · exact .lcResult <| .event <| .setFused <| .frame ha
    · split
      · exact .lcResult ha
      · split
        · exact .lcResult ha
        · exact .lcResult <| .event <| .setFused <| .frame ha

theorem Res.Canon.execRevoke (h : s.Canon) : Res.Canon (execRevoke s) := by
  refine .next <| .lcDo h fun _ ha => .ite (.lcResult ha) ?_
  split
  · exact .lcResult ha
  · exact .ite (.lcResult <| .ite ha <| .misuse ha) <| .ite (.lcResult ha) <| .lcResult <| .event <| .revokeSlot ha

theorem State.Canon.putLoaded {n key uses} (h : s.Canon) : (s.putLoaded n key uses).Canon := .wr <| .frame h

theorem State.Canon.loadsAtBoundary (h : s.Canon) : s.loadsAtBoundary.Canon := by
  refine .frame <| .foldl h fun _ _ ha => ?_
  split
  · exact .putLoaded ha
  · exact ha

theorem Res.Canon.execLoadSlot (h : s.Canon) : Res.Canon (execLoadSlot s) := by
  refine .next <| .lcDo h fun _ ha => ?_
  split
  · exact .lcResult ha
  · refine .ite (.lcResult ha) <| .ite (.lcResult <| .misuse ha) ?_
    split
    · exact .lcResult ha
    · exact .ite (.lcResult <| .frame ha) <| .lcResult <| .putLoaded ha

theorem Res.Canon.execClearSlot (h : s.Canon) : Res.Canon (execClearSlot s) :=
  .next <| .lcDo h fun _ ha => .ite (.lcResult ha) <| .lcResult <| .showSlot <| .frame ha

theorem Res.Canon.execJtagInstruction {instr} (h : s.Canon) : Res.Canon (execJtagInstruction instr s) :=
  .next <| .emit h

/-! ### Sys2Proof/Machine/Power.lean -/

theorem State.Canon.showSupply {x} (h : s.Canon) : (s.showSupply x).Canon := .setF <| .setF <| .setSat <| .setSat h

theorem Res.Canon.execPowerOnReset {straps bad auxA auxB okA okB} (h : s.Canon) :
    Res.Canon (execPowerOnReset straps bad auxA auxB okA okB s) :=
  .next <| .ite (.showSupply <| .powerOn) h

theorem Res.Canon.execResetPin {svc lowNs now} (h : s.Canon) : Res.Canon (execResetPin svc lowNs now s) :=
  .next <| .ite h <| .ite (.because <| .resetAt h) <| .because <| .resetAt h

theorem State.Canon.pwrResult {code} (h : s.Canon) : (s.pwrResult code).Canon := .setF h

theorem Res.Canon.execWarmReset {confirm now} (h : s.Canon) : Res.Canon (execWarmReset confirm now s) :=
  .next <| .ite (.pwrResult h) <| .pwrResult <| .because <| .resetAt h

theorem Res.Canon.execColdReset {confirm now} (h : s.Canon) : Res.Canon (execColdReset confirm now s) :=
  .next <| .ite (.pwrResult h) <| .pwrResult <| .because <| .resetAt h

theorem Res.Canon.execWatchdog {now} (h : s.Canon) : Res.Canon (execWatchdog now s) :=
  .next <| .ite h <|
    .via
      (fun ha => .ite (.because <| .event <| .frame <| .resetAt ha) <| .because <| .event <| .frame <| .resetAt ha) <|
    .ifThen .sendBeat <| .controlFault h

theorem Res.Canon.execHubOverheatReset {temp now} (h : s.Canon) : Res.Canon (execHubOverheatReset temp now s) :=
  .next <| .ite h <| .ite (.ite (.startAgain <| .setF <| .frame h) h) <|
    .ite (.frame <| .setF <| .onlyRuns <| .diesOff <| .event <| .because <| .resetAt h) h

theorem Res.Canon.execPciePerst {asserted} (h : s.Canon) : Res.Canon (execPciePerst asserted s) :=
  .next <| .ite h <| .setRuns <| .setF <| .setF <| .frame h

theorem State.Canon.stepDone {now} (h : s.Canon) : (s.stepDone now).Canon := .frame <| .setF h

theorem Res.Canon.execStartupStepComplete {step serial now} (h : s.Canon) :
    Res.Canon (execStartupStepComplete step serial now s) := by
  refine .next <| .ite h ?_
  split
  · exact .ite (.stepDone <| .setF h) h
  · exact .ite (.stepDone <| .afterClocks <| .pllsOn h) h
  · exact .ite (.ifThen (fun ha => .ite (.stepDone <| .setF ha) h) <| .startMs h) h
  · exact .ite (.ifThen (fun ha => .stepDone <| .setF ha) <| .ifElse .setRuns <| .frame <| .setF h) h
  · exact h

theorem State.Canon.railsOff {domains} (h : s.Canon) : (s.railsOff domains).Canon :=
  .setF <| .setF <| .onlyRuns <| .diesOff h

theorem Res.Canon.execStartupStepTimeout {step wipe now} (h : s.Canon) : Res.Canon (execStartupStepTimeout step wipe now s) :=
  .next <| .ite h <|
    .ite (.ite h <| .via (fun ha => .ite (.frame <| .railsOff ha) <| .frame <| .railsOff ha) <| .event <| .setF h) <|
    .ite (.ite h <| .ifThen (fun ha => .frame <| .setF ha) <| .event <| .setF <| .setF <| .setF <| .setF h) <|
    .ite (.frame <| .event <| .setF h) h

theorem Res.Canon.execClkSwitch (h : s.Canon) : Res.Canon (execClkSwitch s) := .next <| .ite (.setF h) h

theorem Res.Canon.execRecoveryImageReceive {slot image} (h : s.Canon) : Res.Canon (execRecoveryImageReceive slot image s) := by
  refine .next <| .ite h <| .ite (.ite (.frame h) h) <| .ite h <| .ite (.cfgError h) ?_
  dsimp only
  split
  · exact .frame h
  · exact .cfgError h

theorem State.Canon.islandOr {e now} (h : s.Canon) : (s.islandOr e now).Canon := .ite (.islandEvent h) <| .event h

theorem State.Canon.goOff : s.goOff.Canon := .frame <| .frame <| .onlyRuns <| .powerOn

theorem Res.Canon.execAuxLost {input volt now} (h : s.Canon) : Res.Canon (execAuxLost input volt now s) :=
  .next <| .ite h <| .via (fun ha => .ite (.ite ha .goOff) <| .ite (.cause <| .islandOr ha) ha) <|
    .ifThen (fun ha => .frame ha) <| .showSupply h

theorem Res.Canon.execAuxReturn {input volt} (h : s.Canon) : Res.Canon (execAuxReturn input volt s) :=
  .next <| .ite h <| .ifThen (fun ha => .ifThen .nextPage <| .setF ha) <| .frame <| .showSupply h

theorem Res.Canon.execHoldupStart {now} (h : s.Canon) : Res.Canon (execHoldupStart now s) :=
  .next <| .ite h <| .ifThen .powerFail <| .cause <| .controlFault <| .setF h

theorem Res.Canon.execHoldupEnd {mW now} (h : s.Canon) : Res.Canon (execHoldupEnd mW now s) := by
  refine .next ?_
  split
  · exact .ite .goOff h
  · exact h

theorem Res.Canon.execPwrHold (h : s.Canon) : Res.Canon (execPwrHold s) :=
  .next <| .ite (.pwrResult h) <| .pwrResult <| .powerState <| .diesOff <| .suspendParts h

theorem State.Canon.keepRecord {now} (h : s.Canon) : (s.keepRecord now).Canon :=
  .ite (.bump h) <| .ite h <| .ite (.record_ h) <| .program <| .frame h

theorem State.Canon.enterKeep {now} (h : s.Canon) : (s.enterKeep now).Canon :=
  .emptied <| .setF <| .setRuns <| .powerState <| .setF <| .setF <| .onlyRuns <| .diesOff <| .suspendParts <| .keepRecord <|
    .via (fun ha => .ite (.loseLock <| .ite (.toTwin ha) ha) <| .withdraw <| .sendBeat ha) <|
    .ifThen .setF <| .stepDown <| .stepDown h

theorem Res.Canon.execPwrKeep {now} (h : s.Canon) : Res.Canon (execPwrKeep now s) :=
  .next <| .ite (.pwrResult h) <| .ite (.pwrResult h) <| .pwrResult <| .enterKeep h

theorem State.Canon.wake {f now} (h : s.Canon) : (s.wake f now).Canon :=
  .ite h <| .cause <| .setF <| .because <| .powerState <| .fuseHalt <| .atRegulators <| .showTwin <| .fuseRegs <|
    .setF <| .setF <| .setF <| .setF <| .setF <| .setF <| .setF <| .setF <| .setF <| .setF <| .setF <| .restarted h

theorem Res.Canon.execPwrRun {now} (h : s.Canon) : Res.Canon (execPwrRun now s) := by
  refine .next ?_
  split
  · exact .pwrResult <| .diesOn <| .powerState h
  · exact .pwrResult <| .wake h
  · exact .pwrResult h

theorem Res.Canon.execKeepTimerWake {now} (h : s.Canon) : Res.Canon (execKeepTimerWake now s) := by
  refine .next ?_
  dsimp only
  split
  · exact .ite (.wake h) h
  · exact h

theorem Res.Canon.execKeepCurrentWake {k now} (h : s.Canon) : Res.Canon (execKeepCurrentWake k now s) :=
  .next <| .ite (.wake h) h

theorem Res.Canon.execAlarmReceive {now message} (h : s.Canon) : Res.Canon (execAlarmReceive now message s) := by
  refine .next ?_
  dsimp only
  split
  · exact .ite (.pklTakeDisc h) <| .wake <| .islandOr <| .pklTakeDisc h
  · exact .pklTakeDisc h

theorem Res.Canon.execShipPowerEntry {now} (h : s.Canon) : Res.Canon (execShipPowerEntry now s) :=
  .next <| .ite h <| .emptied <| .onlyRuns <| .diesOff <| .suspendParts <| .ite (.loseLock h) <| .withdraw h

theorem Res.Canon.execChgDetectWake {highMs straps bad} (h : s.Canon) : Res.Canon (execChgDetectWake highMs straps bad s) :=
  .next <| .ite (.because <| .showSupply <| .powerOn) h

/-! ### Sys2Proof/Machine/HostIf.lean -/

theorem State.Canon.irqTry {v now} (h : s.Canon) : (s.irqTry v now).Canon :=
  .ite (.frame h) <| .ite (.frame h) <| .ite (.frame h) <| .ite h <| .frame <| .emit h

theorem Res.Canon.execMsixSend {v now} (h : s.Canon) : Res.Canon (execMsixSend v now s) := .next <| .ite (.irqTry h) h

theorem Res.Canon.execIrqAck {mask now} (h : s.Canon) : Res.Canon (execIrqAck mask now s) :=
  .next <| .foldl h fun _ _ ha => .ite (.irqTry <| .frame ha) ha

theorem Res.Canon.execMsixUnmask {v masked now} (h : s.Canon) : Res.Canon (execMsixUnmask v masked now s) :=
  .next <| .ite (.foldl (.frame h) fun _ _ ha => .ite (.irqTry ha) ha) <| .ite (.ifThen .irqTry <| .frame h) h

theorem Res.Canon.execIrqHoldoffEnd {v now} (h : s.Canon) : Res.Canon (execIrqHoldoffEnd v now s) :=
  .next <| .ite (.irqTry <| .frame h) h

theorem Res.Canon.execPcieLinkStateChange {link} (h : s.Canon) : Res.Canon (execPcieLinkStateChange link s) :=
  .next <| .ite h <| .frame h

theorem Res.Canon.execPciePowerStateWrite {d3} (h : s.Canon) : Res.Canon (execPciePowerStateWrite d3 s) :=
  .next <| .ite h <| .frame h

theorem Res.Canon.execSmbusBlockRead {cmd stale} (h : s.Canon) : Res.Canon (execSmbusBlockRead cmd stale s) := by
  refine .next <| .ite h ?_
  split
  · exact h
  · refine .ite (.emit h) <| .ite ?_ <| .emit <| .frame h
    split
    · exact .emit <| .crossingFailed h
    · exact .emit <| .crossingFailed <| .useFree h

theorem Res.Canon.execSmbusAlertResponse (h : s.Canon) : Res.Canon (execSmbusAlertResponse s) :=
  .next <| .ite (.emit h) h

theorem State.Canon.hostRead1 {e flaw} (h : s.Canon) : (s.hostRead1 e flaw).1.Canon :=
  .iteFst h <| .iteFst (.cause <| .bump <| .readCheck h) <| .readCheck h

theorem State.Canon.bar2Read {off n bads} (h : s.Canon) : (s.bar2Read off n bads).Canon :=
  .emit <| .foldlFst h fun _ _ => .hostRead1

theorem State.Canon.hostWrite1 {a bs} (h : s.Canon) : (s.hostWrite1 a bs).Canon := .ite (.bump h) <| .stackWrite h

theorem State.Canon.bar2Write {off bs} (h : s.Canon) : (s.bar2Write off bs).Canon := .foldl h fun _ _ => .hostWrite1

theorem Res.Canon.execBar2Read {off n bads} (h : s.Canon) : Res.Canon (execBar2Read off n bads s) :=
  .next <| .ite h <| .ite (.bar2Read h) <| .frame h

theorem Res.Canon.execBar2Write {off bytes} (h : s.Canon) : Res.Canon (execBar2Write off bytes s) :=
  .next <| .ite h <| .ite (.bar2Write h) <| .frame h

/-! ### Sys2Proof/Machine/Snap.lean -/

theorem Res.Canon.execSnapArm (h : s.Canon) : Res.Canon (execSnapArm s) :=
  .next <| .ite (.setF h) <| .ite (.frame <| .setF h) <| .ite (.frame <| .setF h) <|
    .ite (.frame <| .cause <| .setF <| .setF h) <| .frame <| .setF h

theorem Res.Canon.execSnapDisarm (h : s.Canon) : Res.Canon (execSnapDisarm s) := .next <| .ite (.frame <| .setF h) h

theorem Res.Canon.execSnapCapture {stale} (h : s.Canon) : Res.Canon (execSnapCapture stale s) := by
  refine .next ?_
  split
  · refine .ite (.frame <| .setF <| .useFree <| .foldl h fun a e ha => ?_) h
    cases s.snapFailed stale e with
    | none => exact ha
    | some d => exact .crossingFailed ha
  · exact h

theorem State.Canon.showMap {f bits} (h : s.Canon) : (s.showMap f bits).Canon := .foldl h fun _ _ => .wr

theorem Res.Canon.execSnapComplete (h : s.Canon) : Res.Canon (execSnapComplete s) :=
  .next <| .ite h <| .cause <| .frame <| .setF <| .set64 <| .set64 <| .set64 <| .setF <| .setF <| .showMap <|
    .showMap <| .foldl h fun _ _ => .wr

/-! ### Sys2Proof/Machine/Layer.lean -/

theorem State.Canon.takeAllEff (h : s.Canon) : s.takeAllEff.Canon := { h with eff := Sparse.wf_filter _ _ _ h.regs }

theorem State.Canon.takeEff {as} (h : s.Canon) : (s.takeEff as).Canon := by
  refine { h with eff := Sparse.wf_foldl h.eff fun m a hm => ?_ }
  split
  · exact Sparse.wf_put _ _ _ _ hm
  · exact hm

theorem State.Canon.settingChanged {a now} (h : s.Canon) : (s.settingChanged a now).Canon :=
  .ite (.ite (.showString h) h) <| .ite (.ite (.showString h) h) <| .ite (.dvfsPlan h) <| .ite (.dvfsPlan h) <|
    .ite (.ite h <| .setF h) h

theorem State.Canon.writeRegion {path g} (h : s.Canon) : (s.writeRegion path g).Canon := .putWrites h

theorem State.Canon.takeClaims {g} (h : s.Canon) : (s.takeClaims g).Canon :=
  .foldl h fun _ _ ha => .ite (.wr ha) <| .conflict ha

theorem State.Canon.ringTakes {c old} (h : s.Canon) : (s.ringTakes c old).Canon :=
  .ite (.capConfig <| .ifThen .capDisable <| .wr h) h

theorem State.Canon.applyFull {i slot path now} (h : s.Canon) : (s.applyFull i slot path now).Canon :=
  .via (fun ha => .enumerate <| .dvfsPlanAll <| .withEff (.shareSums <| .takeAllEff ha) ha) <|
    .cause <| .setF <| .setF <|
    .foldl
      (.setF <| .setF <| .setF <| .startMs <| .frame <| .frame <|
        .foldl (.foldl (.foldl h fun _ _ => .writeRegion) fun _ _ => .takeClaims) fun _ _ ha =>
          .foldl ha fun _ _ => .ifThen .ringTakes)
      fun _ _ => .setF

theorem State.Canon.lockInField (h : s.Canon) : s.lockInField.Canon := .ite (.takeLock h) h

theorem State.Canon.slotFails {slot r img} (h : s.Canon) : (s.slotFails slot r img).Canon := by
  unfold State.slotFails
  extract_lets a
  have ha : a.Canon := .event <| .cfgError h
  split
  · exact .conflict ha
  · exact ha

theorem State.Canon.slotStaged {img} (h : s.Canon) : (s.slotStaged img).Canon := .ite (.frame h) h

theorem Res.Canon.execStartupImageLoad {now} (h : s.Canon) : Res.Canon (execStartupImageLoad now s) := by
  refine .next <| .ite h ?_
  dsimp only
  split
  · exact .lockInField <| .applyFull <| .slotStaged h
  · exact .via
        (fun ha => by
          split
          · exact .lockInField <| .applyFull <| .slotStaged ha
          · exact .lockInField <| .setF <| .setF <| .event <| .setCfgSt <| .frame <| .slotFails <| .slotStaged ha) <|
      .slotFails <| .slotStaged h

theorem State.Canon.reserve {gs} (h : s.Canon) : (s.reserve gs).Canon :=
  .foldl h fun _ _ ha => .ite (.setF <| .setF ha) ha

theorem State.Canon.commitLayer {i now} (h : s.Canon) : (s.commitLayer i now).Canon :=
  .ifThen .emit <| .setCfgSt <| .frame <| .reserve h

theorem Res.Canon.execCfgCommit {path now} (h : s.Canon) : Res.Canon (execCfgCommit path now s) := by
  refine .next <| .ite (.cfgError h) <| .ite (.cfgError h) ?_
  split
  · exact .cfgError h
  · refine .ite (.ite (.cfgError h) <| .setCfgSt <| .applyFull h) <| .ite (.cfgError h) ?_
    split
    · exact .conflict <| .setCfgSt <| .cfgError <| .frame h
    · exact .commitLayer h

theorem State.Canon.clearPlanes {both rs} (h : s.Canon) : (s.clearPlanes both rs).Canon := .foldl h fun _ _ => .wr

theorem State.Canon.putPlanes {both rs ws} (h : s.Canon) : (s.putPlanes both rs ws).Canon := .foldl h fun _ _ => .wr

theorem State.Canon.holdLane {old n} (h : s.Canon) : (s.holdLane old n).Canon :=
  .ite (.frame <| .foldl h fun _ _ => .wr) h

theorem State.Canon.tileSwitches {old : State} {g t} (h : s.Canon) (hold : old.Canon) : (s.tileSwitches old g t).Canon :=
  .ite h <| .ite (.withEff (.stopTile <| .withEff h hold) h) <| .ite (.setMapBit h) <| .setTile <| .setMapBit h

theorem State.Canon.laneSwitches {old ts n} (h : s.Canon) : (s.laneSwitches old ts n).Canon :=
  .ite (.laneOfTileStops h) <| .ite (.laneOfTileStarts h) <| .ite (.ifThen .setLaneSt <| .setLane h) h

theorem State.Canon.filterSwitches {old t} (h : s.Canon) : (s.filterSwitches old t).Canon := .ite (.setFt h) h

theorem State.Canon.fabricSwitches {old : State} {g at16} (h : s.Canon) (hold : old.Canon) :
    (s.fabricSwitches old g at16).Canon :=
  .foldl
      (.foldl (.foldl (.foldl h fun _ _ ha => .tileSwitches ha hold) fun _ _ => .laneSwitches) fun _ _ ha =>
        .filterSwitches ha)
      fun _ _ => .logicTakes

theorem State.Canon.pwmSwitches {old k at16} (h : s.Canon) : (s.pwmSwitches old k at16).Canon :=
  .ite (.foldl (.setConv h) fun _ _ ha => .ite (.setLane ha) ha) h

theorem State.Canon.thicketSwitches {old} (h : s.Canon) : (s.thicketSwitches old).Canon :=
  .foldl h fun _ _ ha =>
    .ite ha <| .ite (.setPart <| .partEnter <| .haltPart ha) <| .ite (.setPart ha) <| .ite ha <| .reloadPart ha

theorem State.Canon.claimsSwitch {gs rs} (h : s.Canon) : (s.claimsSwitch gs rs).Canon :=
  .foldl (.foldl h fun _ _ ha => .ite (.wr ha) ha) fun _ _ ha => .foldl ha fun _ _ hb => .ite (.wr hb) hb

theorem State.Canon.switchRegions {gs back now} (h : s.Canon) : (s.switchRegions gs back now).Canon := by
  refine .frame <| .shareSums <|
    .foldl
      (.showPins <| .idleTimers <| .pwmAtBoundary <| .tilesAtBoundary <|
        .foldl (.foldl (.claimsSwitch <| .takeEff <| .foldl ?_ fun _ _ => .holdLane) fun _ _ => .ringTakes) fun _ _ ha =>
          .ite (.fabricSwitches ha h) <| .ite (.pwmSwitches ha) <| .ite (.thicketSwitches ha) ha)
      fun _ _ => .settingChanged
  split
  · exact .foldl (.clearPlanes h) fun _ _ => .writeRegion
  · exact .putPlanes <| .clearPlanes h

theorem State.Canon.showVersions (h : s.Canon) : s.showVersions.Canon := by
  unfold State.showVersions
  exact .setCfgSt <| .foldl (.frame h) fun _ _ => .setF

theorem State.Canon.showSwitched (h : s.Canon) : s.showSwitched.Canon := .ite (.showVersions h) h

theorem Res.Canon.execLayerSwitch {now} (h : s.Canon) : Res.Canon (execLayerSwitch now s) := by
  refine .next ?_
  split
  · exact h
  · exact .ite h <|
      .via (fun ha => .ite (.showVersions <| .event <| .frame ha) <| .showSwitched <| .event <| .frame ha) <|
      .ifElse .setF <| .switchRegions h

/-! ### Sys2Proof/Machine/RegWrite.lean -/

theorem State.Canon.after {r} (h : s.Canon) (hr : Res.Canon r) : (s.after r).Canon := by
  unfold State.after
  split
  · exact hr
  · exact h

theorem State.Canon.commandWrite {path a v now} (h : s.Canon) : (s.commandWrite path a v now).Canon := by
  refine .ite ?_ <| .ite (.ite (.release h) <| .claim h) <| .ite (.ite (.after h <| .execResTestArm h) h) <|
    .ite ?_ <| .ite (.foldl h fun _ _ ha => .ite (.after ha <| .execGroupSwtrip ha) ha) <|
    .ite (.after h <| .execShedRequest h) <| .ite ?_ <| .ite ?_ <| .ite ?_ <| .ite ?_ <| .ite ?_ <| .ite ?_ <|
    .ite ?_ <| .ite ?_ <| .ite ?_ <| .ite ?_ <| .ite ?_ <| .ite (.ite (.after h <| .execClkSwitch h) h) <| .ite ?_ <|
    .ite ?_ <| .ite (.after h <| .execIrqAck h) h
  · split
    · exact .after h <| .execCfgStage h
    · exact .after h <| .execCfgCommit h
    · exact .after h <| .execCfgAbort h
    · exact .after h <| .execCfgRevert h
    · exact .after h <| .execCfgClear h
    · exact .after h <| .execCfgProgramSlot h
    · exact h
  · split
    · exact .after h <| .execTimerStart h
    · exact .after h <| .execTimerStop h
    · exact h
  · split
    · exact .after h <| .execWbHold h
    · exact .after h <| .execWbRelease h
    · exact .after h <| .execClearMax h
    · exact .after h <| .execRestoreLane h
    · exact h
  · dsimp only
    split
    · exact .after h <| .execPartLoad h
    · exact .after h <| .execPartStart h
    · exact .after h <| .execPartStop h
    · exact .after h <| .execPartUnload h
    · exact .after h <| .execPartClear h
    · exact h
  · dsimp only
    split
    · exact .after h <| .execCtxAlloc h
    · exact .after h <| .execCtxFree h
    · exact .after h <| .execCtxPin h
    · exact .after h <| .execCtxUnpin h
    · exact .after h <| .execCtxRebuild h
    · exact .after h <| .execCtxLookup h
    · exact h
  · split
    · exact .after h <| .execHntDiscover h
    · exact .after h <| .execClearDrops h
    · exact .after h <| .execForget h
    · exact h
  · split
    · exact .after h <| .execContractSet h
    · exact .after h <| .execClearDrift h
    · exact h
  · split
    · exact .after h <| .execSyncRack h
    · exact .after h <| .execSyncHall h
    · exact .after h <| .execStepDown h
    · exact h
  · split
    · exact .after h <| .execSnapArm h
    · exact .after h <| .execSnapDisarm h
    · exact h
  · split
    · exact .after h <| .execEnumerate h
    · exact .after h <| .execReenum h
    · exact .after h <| .execPklSleep h
    · exact .after h <| .execPklWake h
    · exact .after h <| .execBalStop h
    · exact .after h <| .execPklClear h
    · exact h
  · dsimp only
    split
    · exact .after h <| .execEstRestore h
    · exact .after h <| .execEstWalk h
    · exact .after h <| .execWalkAbort h
    · exact .after h <| .execEstLearn h
    · exact .after h <| .execLearnAbort h
    · exact .after h <| .execEstAuth h
    · exact .after h <| .execEstShip h
    · exact .after h <| .execShipAbort h
    · exact h
  · split
    · exact .after h <| .execTwnAdmit h
    · exact .after h <| .execTwnSwitch h
    · exact .after h <| .execTwnQuarantine h
    · exact .after h <| .execTwnClear h
    · exact h
  · split
    · exact .after h <| .execPwrHold h
    · exact .after h <| .execPwrRun h
    · exact .after h <| .execPwrKeep h
    · exact .after h <| .execWarmReset h
    · exact .after h <| .execColdReset h
    · exact h
  · split
    · exact .after h <| .execLogFreeze h
    · exact .after h <| .execLogUnfreeze h
    · exact .after h <| .execDump h
    · exact .after h <| .execClearCounts h
    · exact h
  · split
    · exact .after h <| .execLcChallenge h
    · exact .after h <| .execLcChange h
    · exact .after h <| .execLcLock h
    · exact .after h <| .execDebugUnlock h
    · exact .after h <| .execRaiseMin h
    · exact .after h <| .execEnrol h
    · exact .after h <| .execRevoke h
    · exact .after h <| .execLoadSlot h
    · exact .after h <| .execClearSlot h
    · exact h

theorem State.Canon.lockedWrite (h : s.Canon) : s.lockedWrite.Canon := .bump h

theorem State.Canon.irqSettle (h : s.Canon) : s.irqSettle.Canon := .frame h

theorem State.Canon.wordWritten {a v now} (h : s.Canon) : (s.wordWritten a v now).Canon :=
  .ite (.snsStatus <| .settingChanged h) <| .ite (.ite (.setTile <| .settingChanged h) <| .settingChanged h) <|
    .ite (.setMapBit <| .settingChanged h) <| .ite (.irqSettle <| .settingChanged h) <|
    .ite (.setF <| .settingChanged h) <| .settingChanged h

theorem State.Canon.plainWrite {path a v now row} (h : s.Canon) : (s.plainWrite path a v now row).Canon :=
  .ifThen .journal <| .wordWritten <| .wr <| .ifThen .lockedWrite <| .ifThen .lockRefused <| .ite (.frame h) h

theorem State.Canon.pinWrite {path i v} (h : s.Canon) : (s.pinWrite path i v).Canon :=
  .via (fun ha => .ite (.wr ha) <| .ite ha <| .setF ha) <| .ite (.setF h) h

theorem State.Canon.timerWrite {path n a v now row} (h : s.Canon) : (s.timerWrite path n a v now row).Canon :=
  .ite (.ite (.journal <| .setF h) <| .ite h <| .timerDenied h) <| .ite (.timerDenied h) <| .ite (.commandWrite h) <|
    .plainWrite h

theorem State.Canon.ringWrite {path r a v now row} (h : s.Canon) : (s.ringWrite path r a v now row).Canon :=
  .ite (.setF h) <| .ite (.capConfig h) <| .ifThen .capRearm <| .plainWrite h

theorem State.Canon.contactorWrite {path v} (h : s.Canon) : (s.contactorWrite path v).Canon :=
  .foldl h fun _ _ ha => .ite (.after ha <| .execContactorClose ha) <| .ite (.journal <| .setF <| .setF ha) ha

theorem State.Canon.tripWrite {v} (h : s.Canon) : (s.tripWrite v).Canon :=
  .foldl (.ite (.setF h) h) fun _ _ ha => .ite (.after ha <| .execGroupRelease ha) ha

theorem State.Canon.regWrite {path a v now} (h : s.Canon) : (s.regWrite path a v now).Canon := by
  unfold State.regWrite
  split
  · exact h
  · refine .ite (.pinWrite h) <| .ite (.timerWrite h) <| .ite (.ringWrite h) <| .ite (.contactorWrite h) <|
      .ite (.tripWrite h) <| .ite (.commandWrite h) <| .ite (.plainWrite h) <| .ite (.lockedWrite h) <|
      .ite (.setF h) ?_
    split
    · exact .setF h
    · exact .plainWrite h

theorem State.Canon.pairApply {path lo vlo vhi now} (h : s.Canon) : (s.pairApply path lo vlo vhi now).Canon :=
  .ifThen (fun ha => .after ha <| .execLogRdLatch ha) <| .regWrite <| .regWrite h

theorem State.Canon.wordWrite {path a v now} (h : s.Canon) : (s.wordWrite path a v now).Canon := by
  unfold State.wordWrite
  split
  · exact .frame h
  · split
    · exact .ite (.pairApply <| .frame h) <| .pairApply h
    · exact .pairApply h
  · exact .regWrite h

theorem State.Canon.wordRead {path a} (h : s.Canon) : (s.wordRead path a).1.Canon := by
  unfold State.wordRead
  split
  · exact .frame h
  · exact h
  · exact .iteFst (.estLatch h) <| .iteFst (.ccLatch h) <| .iteFst (.ccLatch h) h

theorem State.Canon.hifLast {path kind a} (h : s.Canon) : (s.hifLast path kind a).Canon := .setF <| .setF <| .setF h

theorem State.Canon.shortAccess {path a} (h : s.Canon) : (s.shortAccess path a).Canon := .cause <| .hifLast <| .bump h

theorem State.Canon.unalignedAccess {path a} (h : s.Canon) : (s.unalignedAccess path a).Canon :=
  .cause <| .hifLast <| .bump h

theorem State.Canon.gapAccess {path a} (h : s.Canon) : (s.gapAccess path a).Canon := .cause <| .hifLast <| .bump h

theorem State.Canon.carryOut {x now} (h : s.Canon) : (s.carryOut x now).Canon := by
  unfold State.carryOut
  split
  · exact .windowAccess h
  · exact .ite (.wordWrite h) <| .emit <| .wordRead h

theorem State.Canon.unalignedEnd {x} (h : s.Canon) : (s.unalignedEnd x).Canon :=
  .ifElse (fun ha => .emit <| .useFree ha) <| .ifThen .gapAccess <| .unalignedAccess h

theorem State.Canon.access {x now} (h : s.Canon) : (s.access x now).Canon :=
  .ite h <| .ite (.unalignedEnd h) <| .ite (.ifElse .emit <| .gapAccess h) <| .ite (.shortAccess h) <|
    .ite (.carryOut h) <| .frame h

theorem State.Canon.accesses {path isWrite addr size value now} (h : s.Canon) :
    (s.accesses path isWrite addr size value now).Canon :=
  .ite (.access h) <| .foldl h fun _ _ => .access

theorem Res.Canon.execRegisterWrite {path addr size value now} (h : s.Canon) :
    Res.Canon (execRegisterWrite path addr size value now s) :=
  .next <| .accesses h

theorem Res.Canon.execPairLowRead {path addr size} (h : s.Canon) : Res.Canon (execPairLowRead path addr size s) :=
  .next <| .accesses h

theorem Res.Canon.execPairLowWrite {path addr value now} (h : s.Canon) : Res.Canon (execPairLowWrite path addr value now s) :=
  .next <| .ite (.access h) h

theorem Res.Canon.execPairHighWrite {path addr value now} (h : s.Canon) : Res.Canon (execPairHighWrite path addr value now s) :=
  .next <| .ite (.access h) h

theorem Res.Canon.execCcAccRead {path k} (h : s.Canon) : Res.Canon (execCcAccRead path k s) :=
  .next <| .ite (.access h) h

theorem Res.Canon.execEstRecRead {path} (h : s.Canon) : Res.Canon (execEstRecRead path s) := .next <| .access h

theorem Res.Canon.execDieOppRequest {path d opp now} (h : s.Canon) : Res.Canon (execDieOppRequest path d opp now s) :=
  .next <| .ite (.access h) h

theorem Res.Canon.execLmWindowAccess {path die off isWrite value} (h : s.Canon) :
    Res.Canon (execLmWindowAccess path die off isWrite value s) :=
  .next <| .ite (.access h) h

/-! ### Sys2Proof/Machine/Mgmt.lean -/

theorem State.Canon.mgmtSend {bs} (h : s.Canon) : (s.mgmtSend bs).Canon := .emit h

theorem State.Canon.mgmtAccess {q now n k vs} (h : s.Canon) : (State.mgmtAccess q now n k vs s).1.Canon := by
  induction n generalizing k vs s with
  | zero => exact h
  | succ n ih =>
    exact .iteFst h <| .iteFst h <| .iteFst (.iteFst (.wordWrite h) <| ih <| .wordWrite h) <| ih <| .wordRead h

theorem State.Canon.mgmtEnd {q status values} (h : s.Canon) : (s.mgmtEnd q status values).Canon :=
  .mgmtSend <| .bump <| .frame h

theorem State.Canon.mgmtTake {m now} (h : s.Canon) : (s.mgmtTake m now).1.Canon := by
  refine .iteFst (.iteFst (.mgmtAccess h) <| .iteFst (.mgmtEnd <| .frame <| .mgmtAccess h) <| .frame <| .mgmtAccess h) <|
    .iteFst (.mgmtSend <| .ite (.unalignedAccess h) h) <| .iteFst (.mgmtSend <| .cause h) ?_
  split
  · exact .mgmtSend h
  · split
    · exact .iteFst
          (.iteFst (.mgmtAccess h) <| .iteFst (.mgmtEnd <| .frame <| .mgmtAccess h) <| .frame <| .mgmtAccess h) <|
        .bump h
    · exact .iteFst (.mgmtAccess h) <| .iteFst (.mgmtEnd <| .frame <| .mgmtAccess h) <| .frame <| .mgmtAccess h

theorem State.Canon.mgmtServe {now n} (h : s.Canon) : (State.mgmtServe now n s).Canon := by
  induction n generalizing s with
  | zero => exact h
  | succ n ih =>
    unfold State.mgmtServe
    split
    · exact h
    · exact .ite (ih <| .frame <| .mgmtTake h) <| .mgmtTake h

theorem State.Canon.mgmtArrives {typ m now} (h : s.Canon) : (s.mgmtArrives typ m now).Canon :=
  .ite h <| .ifThen .mgmtServe <| .frame h

theorem Res.Canon.execMgmtRead {frame now} (h : s.Canon) : Res.Canon (execMgmtRead frame now s) :=
  .next <| .receive h fun _ => .mgmtArrives h

theorem Res.Canon.execMgmtWrite {frame now} (h : s.Canon) : Res.Canon (execMgmtWrite frame now s) :=
  .next <| .receive h fun _ => .mgmtArrives h

theorem State.Canon.endAccess {x bads now} (h : s.Canon) : (s.endAccess x bads now).Canon :=
  .ite (.ite (.bar2Write h) <| .bar2Read h) <| .carryOut h

theorem Res.Canon.execStoppedDomainAccessComplete {path bads now} (h : s.Canon) :
    Res.Canon (execStoppedDomainAccessComplete path bads now s) := by
  refine .next <| .ite (.mgmtServe h) ?_
  split
  · exact .ite (.endAccess <| .frame h) h
  · exact h

/-! ### Sys2Proof/Machine/Boundaries.lean -/

theorem State.Canon.applyJournal {j now} (h : s.Canon) : (s.applyJournal j now).Canon := .foldl h fun _ _ => .regWrite

theorem State.Canon.filtersAtBoundary {old} (h : s.Canon) : (s.filtersAtBoundary old).Canon :=
  .foldl h fun _ _ ha => .ite ha <| .setFt ha

theorem State.Canon.settingsAtBoundary {at16} (h : s.Canon) : (s.settingsAtBoundary at16).Canon :=
  .showPins <| .idleTimers <| .pwmAtBoundary <| .logicAtBoundary <| .tilesAtBoundary <| .senseDomains <|
    .filtersAtBoundary <| .takeAllEff h

theorem State.Canon.counterSet {ptpFrames now} (h : s.Canon) : (s.counterSet ptpFrames now).Canon :=
  .ite (.event <| .setF <| .frame <| .setCounter h) h

theorem State.Canon.nextFrame {now} (h : s.Canon) : (s.nextFrame now).Canon := .ite (.frame h) <| .frame h

theorem Res.Canon.execFrameBoundary {now ptpFrames sram} (h : s.Canon) : Res.Canon (execFrameBoundary now ptpFrames sram s) :=
  .next <| .ite h <| .ifElse .wbWork <| .twinFrame <| .showSwitched <| .estFrame <| .showSeen <| .wbAtBoundary <|
    .ldgAtBoundary <| .ldgApply <| .settingsAtBoundary <| .loadsAtBoundary <| .applyJournal <| .frame <|
    .counterSet <| .nextFrame <| .foldl h fun _ _ => .sramWord

theorem State.Canon.publishLane {l f} (h : s.Canon) : (s.publishLane l f).Canon := by
  unfold State.publishLane
  dsimp only
  split
  · exact .showJobLane <|
      .via
        (fun ha => by
          split
          · exact .ite (.setF ha) <| .showJobLane <| .setF ha
          · exact .setF ha) <| .setF <| .setF <| .setWbLane h
  · exact .ite (.setWbLane h) h

theorem State.Canon.shadowForecast {l theirs} (h : s.Canon) : (s.shadowForecast l theirs).Canon := by
  unfold State.shadowForecast
  split
  · exact .frame h
  · exact h

theorem State.Canon.shadowLanes {shadow} (h : s.Canon) : (s.shadowLanes shadow).Canon :=
  .foldl (.ite (.foldl h fun _ _ => .shadowForecast) h) fun _ _ => .setWbLane

theorem Res.Canon.execForecastBoundary {shadow} (h : s.Canon) : Res.Canon (execForecastBoundary shadow s) :=
  .next <| .ite h <| .wbWork <|
    .ifThen
      (fun ha =>
        .foldl ha fun _ _ hb => by
          split
          · exact .ite (.toTwin hb) hb
          · exact hb) <| .thicketBoundary <| .ite (.shadowLanes h) <| .foldl h fun _ _ => .publishLane

theorem Res.Canon.execGrantBoundary {heard tHub} (h : s.Canon) : Res.Canon (execGrantBoundary heard tHub s) :=
  .next <| .ite h <| .ifThen .healthReport <| .coppiceAtBoundary <| .frame h

theorem Res.Canon.execTakeoverPreRun (h : s.Canon) : Res.Canon (execTakeoverPreRun s) := by
  refine .next <| .ite h <| .ifThen (fun ha => .foldl (.frame ha) fun _ _ => .replaySample) ?_
  split
  · exact .replayUpTo <| .settingsAtBoundary <| .applyJournal <| .loadRecord <| .abandonLayer h
  · exact .abandonLayer h

theorem State.Canon.resyncFails {result} (h : s.Canon) : (s.resyncFails result).Canon := .twinResult <| .quarantine h

/-- The state that checking and applying the twin's layers leaves is in canonical form. -/
def ResyncCanon : Except State State → Prop
  | .ok a | .error a => a.Canon

theorem ResyncCanon.resyncLayer {img now} (h : s.Canon) : ResyncCanon (s.resyncLayer img now) := by
  unfold State.resyncLayer
  split
  · exact h
  · dsimp only
    split
    · split
      · exact State.Canon.conflict h
      · exact h
    · exact State.Canon.event <| .frame <| .setF <| .switchRegions h

theorem ResyncCanon.resyncLayers {now layers} (h : s.Canon) : ResyncCanon (State.resyncLayers now layers s) := by
  induction layers generalizing s with
  | nil => exact h
  | cons img more ih =>
    unfold State.resyncLayers
    split
    · exact ih h
    · have hk : ResyncCanon (s.resyncLayer img now) := .resyncLayer h
      revert hk
      cases s.resyncLayer img now with
      | ok a => exact fun ha => ih ha
      | error a => exact id

theorem Res.Canon.execResyncComplete {serial digest forerunner layers estimator tHub now} (h : s.Canon) :
    Res.Canon (execResyncComplete serial digest forerunner layers estimator tHub now s) := by
  refine .next ?_
  split
  · exact h
  · refine .ite h <| .ite (.resyncFails h) <| .ite (.resyncFails h) <| .ite (.resyncFails h) ?_
    have hk : ResyncCanon (State.resyncLayers now layers s) := .resyncLayers h
    revert hk
    cases State.resyncLayers now layers s with
    | error a => exact fun ha => .resyncFails ha
    | ok a =>
      intro ha
      refine .via (fun hb => .ite hb <|
        .via (fun hc => .ite (.showReady <| .twinResult <| .twinState <| .frame hc) <| .resyncFails hc) <|
          .healthReport <| .frame hb) ?_
      split
      · exact .applyRecord <| .ifThen (fun hb => .frame hb) ha
      · exact .ifThen (fun hb => .frame hb) ha

/-! ### Sys2Proof/Machine/Intake.lean -/

theorem State.Canon.intakeContexts {id job now} (h : s.Canon) : (s.intakeContexts id job now).1.Canon :=
  .iteFst (.ctxGet h) <| .iteFst (.ctxGet h) <| .iteFst (.ctxGet <| .ctxGet h) <| .ctxGet <| .ctxGet h

theorem State.Canon.intake {typ i c port now m} (h : s.Canon) : (s.intake typ i c port now m).1.Canon := by
  unfold State.intake
  extract_lets id x
  have hx : x.1.Canon := .intakeContexts h
  split
  · exact .hntDrop hx
  · dsimp only
    split
    · exact .ctxRecordOrHold <| .nameParent <| .ctxRecordOrHold <| .setF <| .setF <| .hintAccept hx
    · exact .nameParent <| .ctxRecordOrHold <| .setF <| .setF <| .hintAccept hx

theorem Res.Canon.execHintReceive {port now queued frame} (h : s.Canon) :
    Res.Canon (execHintReceive port now queued frame s) := by
  refine .next <| .receiveHint h fun m => ?_
  have hk : (s.hintCheck 1 port now m queued).Canon := .hintCheck h
  revert hk
  cases s.hintCheck 1 port now m queued with
  | dropped a => exact id
  | stranger a => exact id
  | member a i c => exact fun ha => .ifThen .endJob <| .intake ha

theorem Res.Canon.execTelemReceive {port now queued frame} (h : s.Canon) :
    Res.Canon (execTelemReceive port now queued frame s) := by
  refine .next <| .receiveHint h fun m => ?_
  have hk : (s.hintCheck 2 port now m queued).Canon := .hintCheck h
  revert hk
  cases s.hintCheck 2 port now m queued with
  | dropped a => exact id
  | stranger a => exact id
  | member a i c =>
    exact fun ha =>
      .ifElse (fun hb => .ifElse (fun hc => .reportLimit <| .nameJob hc) <| .dropWaiting <| .setPartner hb) <| .intake ha

theorem Res.Canon.execActivityReceive {port now queued frame} (h : s.Canon) :
    Res.Canon (execActivityReceive port now queued frame s) := by
  refine .next <| .receiveHint h fun m => ?_
  have hk : (s.hintCheck 3 port now m queued).Canon := .hintCheck h
  revert hk
  cases s.hintCheck 3 port now m queued with
  | dropped a => exact id
  | stranger a => exact id
  | member a i c => exact fun ha => .ifElse .setPartner <| .intake ha

/-! ### Every command and every step -/

theorem Res.Canon.exec {c} (h : s.Canon) : Res.Canon (exec c s) := by
  cases c with
  | registerWrite => exact .execRegisterWrite h
  | pairLowRead => exact .execPairLowRead h
  | pairLowWrite => exact .execPairLowWrite h
  | pairHighWrite => exact .execPairHighWrite h
  | stoppedDomainAccessComplete => exact .execStoppedDomainAccessComplete h
  | frameBoundary => exact .execFrameBoundary h
  | forecastBoundary => exact .execForecastBoundary h
  | grantBoundary => exact .execGrantBoundary h
  | sweepBoundary => exact .execSweepBoundary h
  | startupImageLoad => exact .execStartupImageLoad h
  | cfgStage => exact .execCfgStage h
  | cfgStageComplete => exact .execCfgStageComplete h
  | twinLayerStaged => exact .execTwinLayerStaged h
  | cfgCommit => exact .execCfgCommit h
  | planeWriteComplete => exact .execPlaneWriteComplete h
  | layerSwitch => exact .execLayerSwitch h
  | cfgAbort => exact .execCfgAbort h
  | cfgRevert => exact .execCfgRevert h
  | cfgClear => exact .execCfgClear h
  | cfgProgramSlot => exact .execCfgProgramSlot h
  | programSlotComplete => exact .execProgramSlotComplete h
  | ownClaim => exact .execOwnClaim h
  | ownRelease => exact .execOwnRelease h
  | stuck => exact .execStuck h
  | stuckClear => exact .execStuckClear h
  | clkLoss => exact .execClkLoss h
  | clkLossClear => exact .execClkLossClear h
  | filterTrigger => exact .execFilterTrigger h
  | limitComparator => exact .execLimitComparator h
  | adTrigger => exact .execAdTrigger h
  | adConversionDone => exact .execAdConversionDone h
  | ccBlock => exact .execCcBlock h
  | ccAccRead => exact .execCcAccRead h
  | packSampleInstant => exact .execPackSampleInstant h
  | notchOpen => exact .execNotchOpen h
  | notchClose => exact .execNotchClose h
  | loopTileSample => exact .execLoopTileSample h
  | deadlineMiss => exact .execDeadlineMiss h
  | faultShutdown => exact .execFaultShutdown h
  | resTestArm => exact .execResTestArm h
  | logicTileTransition => exact .execLogicTileTransition h
  | logicDwellReached => exact .execLogicDwellReached h
  | timerStart => exact .execTimerStart h
  | timerStop => exact .execTimerStop h
  | timerExpire => exact .execTimerExpire h
  | pwmPeriodStart => exact .execPwmPeriodStart h
  | shedRequest => exact .execShedRequest h
  | shedCommit => exact .execShedCommit h
  | readdCommit => exact .execReaddCommit h
  | stepSignal => exact .execStepSignal h
  | faultInput => exact .execFaultInput h
  | groupSwtrip => exact .execGroupSwtrip h
  | groupRelease => exact .execGroupRelease h
  | contactorOpen => exact .execContactorOpen h
  | contactorClose => exact .execContactorClose h
  | localTarget => exact .execLocalTarget h
  | feedBad => exact .execFeedBad h
  | feedRecovered => exact .execFeedRecovered h
  | laneAbsent => exact .execLaneAbsent h
  | laneStepScore => exact .execLaneStepScore h
  | reserveExit => exact .execReserveExit h
  | wbHold => exact .execWbHold h
  | wbRelease => exact .execWbRelease h
  | clearMax => exact .execClearMax h
  | restoreLane => exact .execRestoreLane h
  | scalarInstruction => exact .execScalarInstruction h
  | ecall => exact .execEcall h
  | ebreak => exact .execEbreak h
  | coreFault => exact .execCoreFault h
  | thSend => exact .execThSend h
  | thSendnb => exact .execThSendnb h
  | thRecv => exact .execThRecv h
  | thPeek => exact .execThPeek h
  | thWait => exact .execThWait h
  | thRelease => exact .execThRelease h
  | thCredits => exact .execThCredits h
  | thBarrier => exact .execThBarrier h
  | barrierTimeout => exact .execBarrierTimeout h
  | messageArrive => exact .execMessageArrive h
  | creditArrive => exact .execCreditArrive h
  | waitTimeout => exact .execWaitTimeout h
  | thDma => exact .execThDma h
  | dmaComplete => exact .execDmaComplete h
  | thDmawait => exact .execThDmawait h
  | thDmapoll => exact .execThDmapoll h
  | thPub => exact .execThPub h
  | thSlotsel => exact .execThSlotsel h
  | thTzero => exact .execThTzero h
  | thTld => exact .execThTld h
  | thTst => exact .execThTst h
  | thTmma => exact .execThTmma h
  | thTmmaT => exact .execThTmmaT h
  | thCvtE4m3F32 => exact .execThCvtE4m3F32 h
  | thCvtE5m2F32 => exact .execThCvtE5m2F32 h
  | thCvtBf16F32 => exact .execThCvtBf16F32 h
  | thCvtI8F32 => exact .execThCvtI8F32 h
  | thCvtQ12bF32 => exact .execThCvtQ12bF32 h
  | thCvtF32E4m3 => exact .execThCvtF32E4m3 h
  | thCvtF32E5m2 => exact .execThCvtF32E5m2 h
  | thCvtF32Bf16 => exact .execThCvtF32Bf16 h
  | thCvtF32I8 => exact .execThCvtF32I8 h
  | thCvtF32Q12b => exact .execThCvtF32Q12b h
  | partLoad => exact .execPartLoad h
  | partLoadComplete => exact .execPartLoadComplete h
  | partStart => exact .execPartStart h
  | partStop => exact .execPartStop h
  | partStopComplete => exact .execPartStopComplete h
  | partUnload => exact .execPartUnload h
  | partClear => exact .execPartClear h
  | partAutoRestart => exact .execPartAutoRestart h
  | partResume => exact .execPartResume h
  | lmWindowAccess => exact .execLmWindowAccess h
  | dieOppRequest => exact .execDieOppRequest h
  | dvfsStepComplete => exact .execDvfsStepComplete h
  | dieOverThrottle => exact .execDieOverThrottle h
  | dieThrottleRestore => exact .execDieThrottleRestore h
  | overtemp => exact .execOvertemp h
  | hubOverheatReset => exact .execHubOverheatReset h
  | ctxAlloc => exact .execCtxAlloc h
  | ctxFree => exact .execCtxFree h
  | ctxPin => exact .execCtxPin h
  | ctxUnpin => exact .execCtxUnpin h
  | ctxRebuild => exact .execCtxRebuild h
  | ctxLookup => exact .execCtxLookup h
  | contextWipeComplete => exact .execContextWipeComplete h
  | captureEnable => exact .execCaptureEnable h
  | captureBlockWrite => exact .execCaptureBlockWrite h
  | captureTrigger => exact .execCaptureTrigger h
  | capturePostDone => exact .execCapturePostDone h
  | scrubStep => exact .execScrubStep h
  | stackWipeComplete => exact .execStackWipeComplete h
  | bar2Read => exact .execBar2Read h
  | bar2Write => exact .execBar2Write h
  | hintReceive => exact .execHintReceive h
  | telemReceive => exact .execTelemReceive h
  | activityReceive => exact .execActivityReceive h
  | grantReceive => exact .execGrantReceive h
  | discoverReceive => exact .execDiscoverReceive h
  | announceReceive => exact .execAnnounceReceive h
  | announceSend => exact .execAnnounceSend h
  | partnerListen => exact .execPartnerListen h
  | admitPoint => exact .execAdmitPoint h
  | partnerSilent => exact .execPartnerSilent h
  | partnerLeft => exact .execPartnerLeft h
  | hntDiscover => exact .execHntDiscover h
  | clearDrops => exact .execClearDrops h
  | forget => exact .execForget h
  | ethLinkChange => exact .execEthLinkChange h
  | ptpSyncReceive => exact .execPtpSyncReceive h
  | ptpSyncLoss => exact .execPtpSyncLoss h
  | holdoverExpire => exact .execHoldoverExpire h
  | hallBoundary => exact .execHallBoundary h
  | loanExpiry => exact .execLoanExpiry h
  | loanGuardExpiry => exact .execLoanGuardExpiry h
  | limitClearElapsed => exact .execLimitClearElapsed h
  | jobTableTimeout => exact .execJobTableTimeout h
  | modelDrift => exact .execModelDrift h
  | grantCommitTimeout => exact .execGrantCommitTimeout h
  | contractSet => exact .execContractSet h
  | clearDrift => exact .execClearDrift h
  | appendReceive => exact .execAppendReceive h
  | appendAckReceive => exact .execAppendAckReceive h
  | voteReqReceive => exact .execVoteReqReceive h
  | voteReceive => exact .execVoteReceive h
  | syncReqReceive => exact .execSyncReqReceive h
  | syncAnsReceive => exact .execSyncAnsReceive h
  | syncDone => exact .execSyncDone h
  | syncTimeout => exact .execSyncTimeout h
  | joinReceive => exact .execJoinReceive h
  | joinAnsReceive => exact .execJoinAnsReceive h
  | joinRetry => exact .execJoinRetry h
  | groupForm => exact .execGroupForm h
  | groupReform => exact .execGroupReform h
  | heartbeatSend => exact .execHeartbeatSend h
  | electionTimeout => exact .execElectionTimeout h
  | leaseEnd => exact .execLeaseEnd h
  | stateReceive => exact .execStateReceive h
  | proposeReceive => exact .execProposeReceive h
  | proposeAnsReceive => exact .execProposeAnsReceive h
  | claimReceive => exact .execClaimReceive h
  | arbiterWindowEnd => exact .execArbiterWindowEnd h
  | deputyDecideTimeout => exact .execDeputyDecideTimeout h
  | decideReceive => exact .execDecideReceive h
  | syncRack => exact .execSyncRack h
  | syncHall => exact .execSyncHall h
  | stepDown => exact .execStepDown h
  | snapArm => exact .execSnapArm h
  | snapDisarm => exact .execSnapDisarm h
  | snapCapture => exact .execSnapCapture h
  | snapComplete => exact .execSnapComplete h
  | enumerate => exact .execEnumerate h
  | reenum => exact .execReenum h
  | pklSleep => exact .execPklSleep h
  | pklWake => exact .execPklWake h
  | balStop => exact .execBalStop h
  | pklClear => exact .execPklClear h
  | enumAnsReceive => exact .execEnumAnsReceive h
  | enumStepTimeout => exact .execEnumStepTimeout h
  | enumOpenSlotsEnd => exact .execEnumOpenSlotsEnd h
  | reportReceive => exact .execReportReceive h
  | primaryPassEnd => exact .execPrimaryPassEnd h
  | sweepClose => exact .execSweepClose h
  | balAckReceive => exact .execBalAckReceive h
  | discoveryGap => exact .execDiscoveryGap h
  | alarmReceive => exact .execAlarmReceive h
  | authRespReceive => exact .execAuthRespReceive h
  | authTimeout => exact .execAuthTimeout h
  | authPeriodElapsed => exact .execAuthPeriodElapsed h
  | estRestore => exact .execEstRestore h
  | restoreApply => exact .execRestoreApply h
  | estWalk => exact .execEstWalk h
  | walkBegin => exact .execWalkBegin h
  | walkAbort => exact .execWalkAbort h
  | walkMaxElapsed => exact .execWalkMaxElapsed h
  | estLearn => exact .execEstLearn h
  | learnAbort => exact .execLearnAbort h
  | learnTimeoutElapsed => exact .execLearnTimeoutElapsed h
  | drift => exact .execDrift h
  | estAuth => exact .execEstAuth h
  | estRecRead => exact .execEstRecRead h
  | estShip => exact .execEstShip h
  | shipQuiet => exact .execShipQuiet h
  | shipRecord => exact .execShipRecord h
  | shipRecordWaitEnd => exact .execShipRecordWaitEnd h
  | shipChgWaitEnd => exact .execShipChgWaitEnd h
  | shipPowerEntry => exact .execShipPowerEntry h
  | shipAbort => exact .execShipAbort h
  | chgDetectWake => exact .execChgDetectWake h
  | stateRecordReceive => exact .execStateRecordReceive h
  | beatSend => exact .execBeatSend h
  | beatReceive => exact .execBeatReceive h
  | beatMiss => exact .execBeatMiss h
  | takeoverPreRun => exact .execTakeoverPreRun h
  | lockRequest => exact .execLockRequest h
  | twinClaimSensed => exact .execTwinClaimSensed h
  | lockAcquire => exact .execLockAcquire h
  | keeperExpiry => exact .execKeeperExpiry h
  | lockBlocked => exact .execLockBlocked h
  | lockWaitElapsed => exact .execLockWaitElapsed h
  | slotExchange => exact .execSlotExchange h
  | twnAdmit => exact .execTwnAdmit h
  | resyncComplete => exact .execResyncComplete h
  | twnSwitch => exact .execTwnSwitch h
  | twnQuarantine => exact .execTwnQuarantine h
  | twnClear => exact .execTwnClear h
  | powerOnReset => exact .execPowerOnReset h
  | resetPin => exact .execResetPin h
  | pciePerst => exact .execPciePerst h
  | watchdog => exact .execWatchdog h
  | startupStepComplete => exact .execStartupStepComplete h
  | startupStepTimeout => exact .execStartupStepTimeout h
  | clkSwitch => exact .execClkSwitch h
  | auxLost => exact .execAuxLost h
  | auxReturn => exact .execAuxReturn h
  | holdupStart => exact .execHoldupStart h
  | holdupEnd => exact .execHoldupEnd h
  | pwrHold => exact .execPwrHold h
  | pwrRun => exact .execPwrRun h
  | pwrKeep => exact .execPwrKeep h
  | warmReset => exact .execWarmReset h
  | coldReset => exact .execColdReset h
  | keepTimerWake => exact .execKeepTimerWake h
  | keepCurrentWake => exact .execKeepCurrentWake h
  | logRecordArrive => exact .execLogRecordArrive h
  | repeatWindowEnd => exact .execRepeatWindowEnd h
  | logPageProgrammed => exact .execLogPageProgrammed h
  | logBlockErased => exact .execLogBlockErased h
  | logRecover => exact .execLogRecover h
  | logFreeze => exact .execLogFreeze h
  | logUnfreeze => exact .execLogUnfreeze h
  | freezeMaxElapsed => exact .execFreezeMaxElapsed h
  | dump => exact .execDump h
  | dumpComplete => exact .execDumpComplete h
  | clearCounts => exact .execClearCounts h
  | logRdLatch => exact .execLogRdLatch h
  | lcChallenge => exact .execLcChallenge h
  | nonceLapse => exact .execNonceLapse h
  | lcChange => exact .execLcChange h
  | lcChangeStepComplete => exact .execLcChangeStepComplete h
  | lcLock => exact .execLcLock h
  | debugUnlock => exact .execDebugUnlock h
  | raiseMin => exact .execRaiseMin h
  | enrol => exact .execEnrol h
  | revoke => exact .execRevoke h
  | loadSlot => exact .execLoadSlot h
  | clearSlot => exact .execClearSlot h
  | jtagInstruction => exact .execJtagInstruction h
  | irqAck => exact .execIrqAck h
  | msixSend => exact .execMsixSend h
  | msixUnmask => exact .execMsixUnmask h
  | irqHoldoffEnd => exact .execIrqHoldoffEnd h
  | mgmtRead => exact .execMgmtRead h
  | mgmtWrite => exact .execMgmtWrite h
  | smbusBlockRead => exact .execSmbusBlockRead h
  | smbusAlertResponse => exact .execSmbusAlertResponse h
  | faultInputRelease => exact .execFaultInputRelease h
  | twinLaneChange => exact .execTwinLaneChange h
  | netBack => exact .execNetBack h
  | ptpAnnounceReceive => exact .execPtpAnnounceReceive h
  | healthReportReceive => exact .execHealthReportReceive h
  | recoveryImageReceive => exact .execRecoveryImageReceive h
  | lockstep => exact .execLockstep h
  | clockOutOfRange => exact .execClockOutOfRange h
  | railOutOfRange => exact .execRailOutOfRange h
  | stackOverheat => exact .execStackOverheat h
  | pcieLinkStateChange => exact .execPcieLinkStateChange h
  | pciePowerStateWrite => exact .execPciePowerStateWrite h
  | icmpv6Receive => exact .execIcmpv6Receive h

theorem Res.Canon.step (h : s.Canon) : Res.Canon (step s) := by
  unfold Machine.step
  split
  · exact h
  · exact .exec <| .frame h

/-- Settles O3: `State.inv` is `State.Canon`, which every operation over the state keeps and so every command. -/
theorem stepsKeepTheCanonicalForm : Obligations.StepsKeepTheCanonicalForm := by
  intro s t hs hst
  have h : Res.Canon (step s) := .step (State.inv_iff_canon.1 hs)
  rw [hst] at h
  exact State.inv_iff_canon.2 h

end Sys2Proof.Machine

end

section

/-!
PROOFS. What reset leaves, and what an idle management port may still hold. `State.reset` is a concrete state: its few listed words
are named once, and every other key reads as its default.
-/

namespace Sys2Proof.Machine

theorem Sparse.get_of_not_listed {α : Type} {d : Nat → α} {m : Sparse α} {k : Nat} (h : ∀ e ∈ m, e.1 ≠ k) :
    Sparse.get d m k = d k := by
  induction m with
  | nil => rfl
  | cons e m ih =>
    obtain ⟨hne, hm⟩ := List.forall_mem_cons.1 h
    simp only [Sparse.get, if_neg hne]
    split
    · rfl
    · exact ih hm

/-- The words that reset lists are those of DOM_STATUS and of the secret slots. -/
theorem resetWords_addr {e : Nat × Word} (h : e ∈ resetWords) :
    (0x20020 ≤ e.1 ∧ e.1 < 0x20028) ∨ (0x110020 ≤ e.1 ∧ e.1 < 0x110060) := by
  revert e
  decide +kernel

theorem reset_rd {a : Nat} (hdom : a < 0x20020 ∨ 0x20028 ≤ a) (hslot : a < 0x110020 ∨ 0x110060 ≤ a) :
    State.reset.rd a = regReset a := by
  refine Sparse.get_of_not_listed fun e he hea => ?_
  have haddr := resetWords_addr he
  omega

theorem reset_vector_armed {v : Nat} (h : v < 15) :
    bitOf State.reset.irq.armed v = true ∧ State.reset.getF Reg.SYS_IRQ_CAUSE v = 0 := by
  revert v
  decide +kernel

theorem islandDomains_range {d : Nat} (h : d ∈ [12, 13, 29, 32, 33, 35, 36, 40]) : 1 ≤ d ∧ d ≤ 40 := by
  revert d
  decide

theorem reset_runs {d : Nat} (hpos : 1 ≤ d) (hle : d ≤ 40) :
    State.reset.runs d = true ↔ d ∈ [12, 13, 29, 32, 33, 35, 36, 40] := by
  replace hle := Nat.lt_succ_of_le hle
  revert d
  decide +kernel

theorem mem_islandDomains_iff {d : Nat} :
    d ∈ [12, 13, 29, 32, 33, 35, 36, 40] ↔ 1 ≤ d ∧ d ≤ 40 ∧ State.reset.runs d = true := by
  constructor
  · intro h
    obtain ⟨hpos, hle⟩ := islandDomains_range h
    exact ⟨hpos, hle, (reset_runs hpos hle).2 h⟩
  · rintro ⟨hpos, hle, h⟩
    exact (reset_runs hpos hle).1 h

/-- Settles O2: the invariant is `State.Canon.reset`, and what is no word of DOM_STATUS or of a secret slot reads its Reset value. -/
theorem whatResetLeaves : Obligations.WhatResetLeaves :=
  ⟨State.inv_iff_canon.2 State.Canon.reset, fun _ => reset_rd, fun _ => rfl, fun _ => rfl, rfl, rfl, rfl, rfl,
    fun _ => reset_vector_armed, rfl, rfl, fun _ => mem_islandDomains_iff⟩

/-- The management port is enabled, runs and has no request, and in `mgmtValues` a value still stands. -/
def leftoverRead : State :=
  (({ State.reset.setRuns 17 true with host := { mgmtValues := [7] } } : State).setF Reg.SYS_MGMT_CFG_EN 1).setF
    Reg.SYS_MGMT_CFG_AUTH_REQ 0

/-- Requester 5 asks the management port with SEQ 6 for the register at 0x104: Ethernet, IPv6 and UDP headers, then the request. -/
def readFrame : List Byte :=
  beBytes 14 0x86DD ++ beBytes 40 0x60000000002411FFFE800000000000000000000000000009FE800000000000000000000000000000 ++
    beBytes 8 0xB8A2B8A200244DDC ++ mgmtMsg 1 1 5 6 0x104 0 []

theorem exec_mgmtRead {s : State} {frame : List Byte} {now : Nat} :
    exec (.mgmtRead frame now) s = .next (s.receive 2 s.mgmtPort frame fun m => s.mgmtArrives 1 m now) := rfl

/-- The response carries the value that stood there before the register's own. -/
theorem leftoverRead_answers_two_values :
    (leftoverRead.receive 2 leftoverRead.mgmtPort readFrame fun m => leftoverRead.mgmtArrives 1 m 5000).outbox =
      [Out.mk .mgmt ((mgmtMsg 3 1 5 6 0x104 0 (beBytes 4 7 ++ beBytes 4 0)).map fun b => b.toNat)] := by
  decide +kernel

/-- Refutes O59: `State.mgmtIdle` asks that no request waits and that `mgmtDone` is 0, but not that `mgmtValues` is empty; a READ then
answers what stands there too, so that its response is not the one of the clause. -/
theorem not_pairsManagementPortAndWaitingAccesses : ¬ Obligations.PairsManagementPortAndWaitingAccesses := by
  rintro ⟨-, -, -, -, -, -, -, -, -, -, -, -, -, -, -, hread, -⟩
  have hcase := hread leftoverRead 5 6 0x104 5000 readFrame
  iterate 19 specialize hcase (by decide +kernel)
  obtain ⟨t, hexec, hout, -⟩ := hcase
  rw [exec_mgmtRead] at hexec
  cases hexec
  rw [leftoverRead_answers_two_values] at hout
  exact absurd hout (by decide +kernel)

end Sys2Proof.Machine

end

section

/-!
PROOFS. The loader's commands and the run-time claims (02 R27 to R43, R481). The relations that the statements are written in, `OnlyRegs`,
`SetsFields` and `Raises`, each get a rule per register write, so that a chain of writes is followed link by link. Above them stands
what each shared operation of the loader and of the owners writes, and what each command does in the case that its hypotheses name.
-/

namespace Sys2Proof.Machine

/-! ## Cause words -/

theorem Fld.of_lt (f : Fld) (v : Word) : f.of v < 2 ^ f.w := Nat.mod_lt _ (Nat.two_pow_pos _)

/-- A bit set in a word of `w` bits leaves a word of `w` bits: below the bit's place and above it nothing carries. -/
theorem putBit_true_lt {v n w : Nat} (hv : v < 2 ^ w) (hn : n < w) : putBit v n true < 2 ^ w := by
  obtain ⟨k, rfl⟩ : ∃ k, w = n + 1 + k := ⟨w - (n + 1), by omega⟩
  unfold putBit
  split
  · exact hv
  · next hbit =>
    have hclear : v / 2 ^ n % 2 = 0 := by simp [bitOf] at hbit; omega
    have hpow : 2 ^ (n + 1 + k) = 2 * 2 ^ k * 2 ^ n := by ring
    have hhigh : v / 2 ^ n < 2 * 2 ^ k := by rwa [Nat.div_lt_iff_lt_mul (Nat.two_pow_pos n), ← hpow]
    rw [if_pos rfl, hpow, ← Nat.div_lt_iff_lt_mul (Nat.two_pow_pos n), Nat.add_div_right _ (Nat.two_pow_pos n)]
    omega

/-! ## The relations of the statements, write by write -/

section
variable {s t u : State} {as bs : List Nat} {f : Fld} {i j a v : Nat}

theorem OnlyRegs.refl : OnlyRegs s s as := fun _ _ => rfl

theorem OnlyRegs.trans (hst : OnlyRegs s t as) (htu : OnlyRegs t u as) : OnlyRegs s u as :=
  fun a ha => (htu a ha).trans (hst a ha)

theorem OnlyRegs.mono (h : OnlyRegs s t as) (hsub : as ⊆ bs) : OnlyRegs s t bs := fun a ha => h a fun hmem => ha (hsub hmem)

theorem OnlyRegs.getF (h : OnlyRegs s t as) (ha : f.addr i j ∉ as) : t.getF f i j = s.getF f i j := by
  rw [State.getF, State.getF, h _ ha]

theorem OnlyRegs.isF (h : OnlyRegs s t as) (ha : f.addr i j ∉ as) : t.isF f i j = s.isF f i j := by
  rw [State.isF, State.isF, h.getF ha]

theorem OnlyRegs.wr {w : Word} (h : OnlyRegs s t as) (ht : t.canonical = true) (ha : a ∈ as) : OnlyRegs s (t.wr a w) as :=
  fun b hb => by rw [State.rd_wr_ne ht w (ne_of_mem_of_not_mem ha hb).symm, h b hb]

theorem OnlyRegs.emit {k : OutKind} {args : List Nat} : OnlyRegs t (t.emit k args) as := fun _ _ => rfl

theorem OnlyRegs.setF (h : OnlyRegs s t as) (ht : t.canonical = true) (ha : f.addr i j ∈ as) :
    OnlyRegs s (t.setF f v i j) as :=
  h.wr ht ha

theorem OnlyRegs.cause {vector bit : Nat} (h : OnlyRegs s t as) (ht : t.canonical = true)
    (ha : Reg.SYS_IRQ_CAUSE.addr vector 0 ∈ as) : OnlyRegs s (t.cause vector bit) as :=
  h.setF ht ha

/-- The states differ in registers alone. -/
def RegsAlone (s t : State) : Prop := t = { s with regs := t.regs }

theorem RegsAlone.refl : RegsAlone s s := rfl

theorem RegsAlone.wr {w : Word} (h : RegsAlone s t) : RegsAlone s (t.wr a w) := by
  unfold RegsAlone at h
  generalize t.regs = regs at h
  subst h
  rfl

theorem RegsAlone.setF (h : RegsAlone s t) : RegsAlone s (t.setF f v i j) := h.wr

theorem RegsAlone.cause {vector bit : Nat} (h : RegsAlone s t) : RegsAlone s (t.cause vector bit) := h.setF

theorem RegsAlone.cfg (h : RegsAlone s t) : t.cfg = s.cfg := by
  unfold RegsAlone at h
  rw [h]

theorem RegsAlone.events (h : RegsAlone s t) : t.events = s.events := by
  unfold RegsAlone at h
  rw [h]

theorem RegsAlone.withCfg {c : CfgState} (h : RegsAlone { s with cfg := c } t) : t = { s with regs := t.regs, cfg := t.cfg } := by
  unfold RegsAlone at h
  generalize t.regs = regs at h
  subst h
  rfl

/-- What leaves the module adds the outbox to the parts that differ. -/
theorem emit_of_regsCfgAlone {k : OutKind} {args : List Nat} (h : t = { s with regs := t.regs, cfg := t.cfg }) :
    (t.emit k args).outbox = s.outbox ++ [⟨k, args⟩] ∧
      t.emit k args =
        { s with regs := (t.emit k args).regs, cfg := (t.emit k args).cfg, outbox := (t.emit k args).outbox } := by
  generalize t.regs = regs, t.cfg = cfg at h
  subst h
  exact ⟨rfl, rfl⟩

/-- The states differ in registers and in the events that set out for the log alone. -/
def RegsEventsAlone (s t : State) : Prop := t = { s with regs := t.regs, events := t.events }

theorem RegsAlone.orEvents (h : RegsAlone s t) : RegsEventsAlone s t := by
  unfold RegsAlone at h
  generalize t.regs = regs at h
  subst h
  rfl

theorem RegsEventsAlone.event {code source : Nat} {data : List Nat} (h : RegsEventsAlone s t) :
    RegsEventsAlone s (t.event code source data) := by
  unfold RegsEventsAlone at h
  generalize t.regs = regs, t.events = events at h
  subst h
  rfl

theorem RegsEventsAlone.thenRegs (h : RegsEventsAlone s t) (htu : RegsAlone t u) : RegsEventsAlone s u := by
  unfold RegsAlone at htu
  unfold RegsEventsAlone at h
  generalize t.regs = regs, t.events = events at h
  subst h
  generalize u.regs = regs at htu
  subst htu
  rfl

theorem RegsEventsAlone.cfg (h : RegsEventsAlone s t) : t.cfg = s.cfg := by
  unfold RegsEventsAlone at h
  rw [h]

theorem RegsEventsAlone.withCfg {c : CfgState} (h : RegsEventsAlone { s with cfg := c } t) :
    t = { s with regs := t.regs, cfg := t.cfg, events := t.events } := by
  unfold RegsEventsAlone at h
  generalize t.regs = regs, t.events = events at h
  subst h
  rfl

theorem SetsFields.refl : SetsFields s s a [] := rfl

theorem SetsFields.setF {fs : List (Fld × Nat)} (h : SetsFields s t a fs) (ht : t.canonical = true) (ha : f.addr i j = a) :
    SetsFields s (t.setF f v i j) a (fs ++ [(f, v)]) := by
  subst ha
  simp only [SetsFields, State.rd_setF ht, if_pos, List.foldl_append, List.foldl_cons, List.foldl_nil] at h ⊢
  rw [h]

/-- What follows in other registers leaves the fields as set. -/
theorem SetsFields.thenOnly {fs : List (Fld × Nat)} (h : SetsFields s t a fs) (htu : OnlyRegs t u as) (ha : a ∉ as) :
    SetsFields s u a fs :=
  (htu a ha).trans h

theorem SetsField.setF (hs : s.canonical = true) : SetsField s (s.setF f v i j) f i v j := SetsFields.refl.setF hs rfl

theorem SetsField.thenOnly (h : SetsField s t f i v j) (htu : OnlyRegs t u as) (ha : f.addr i j ∉ as) : SetsField s u f i v j :=
  (htu _ ha).trans h

theorem Raises.none (h : OnlyRegs s t as) {vector : Nat} (ha : Reg.SYS_IRQ_CAUSE.addr vector 0 ∉ as) : Raises s t vector [] :=
  h.getF ha

theorem Raises.cause {vector bit : Nat} {bits : List Nat} (h : Raises s t vector bits) (ht : t.canonical = true) (hbit : bit < 32) :
    Raises s (t.cause vector bit) vector (bits ++ [bit]) := by
  have hword : putBit (t.getF Reg.SYS_IRQ_CAUSE vector) bit true < 2 ^ Reg.SYS_IRQ_CAUSE.w :=
    putBit_true_lt (Fld.of_lt Reg.SYS_IRQ_CAUSE _) hbit
  rw [Raises, State.cause, State.getF_setF ht _ _ _ _ (by decide), Nat.mod_eq_of_lt hword, h]
  simp

end

/-! ## What the loader's shared operations write -/

/-- The word of CFG_STATUS. -/
abbrev cfgStatusAddr : Nat := Reg.CFG_STATUS_STATE.addr 0 0

/-- The cause word of the loader's vector. -/
abbrev cfgCauseAddr : Nat := Reg.SYS_IRQ_CAUSE.addr 4 0

section
variable {s : State} {code v : Nat}

theorem State.canonical_cause (hs : s.canonical = true) {vector bit : Nat} : (s.cause vector bit).canonical = true :=
  State.canonical_setF hs _ _ _ _

theorem State.canonical_cfgError (hs : s.canonical = true) : (s.cfgError code).canonical = true :=
  State.canonical_cause (State.canonical_setF hs _ _ _ _)

theorem State.onlyRegs_cfgError (hs : s.canonical = true) : OnlyRegs s (s.cfgError code) [cfgStatusAddr, cfgCauseAddr] :=
  (OnlyRegs.refl.setF hs (by decide)).cause (State.canonical_setF hs _ _ _ _) (by decide)

theorem State.setsField_cfgError (hs : s.canonical = true) : SetsField s (s.cfgError code) Reg.CFG_STATUS_ERROR 0 code :=
  (SetsField.setF hs).thenOnly (as := [cfgCauseAddr])
    (OnlyRegs.refl.cause (State.canonical_setF hs _ _ _ _) (by decide)) (by decide)

theorem State.raises_cfgError (hs : s.canonical = true) : Raises s (s.cfgError code) 4 [2] :=
  (Raises.none (State.onlyRegs_setF hs _ _ _ _) (by decide)).cause (State.canonical_setF hs _ _ _ _) (by decide)

theorem State.cfgSt_cfgError (hs : s.canonical = true) : (s.cfgError code).cfgSt = s.cfgSt := by
  have hcause : OnlyRegs (s.setF Reg.CFG_STATUS_ERROR code) (s.cfgError code) [cfgCauseAddr] :=
    OnlyRegs.refl.cause (State.canonical_setF hs _ _ _ _) (by decide)
  rw [State.cfgSt, hcause.getF (by decide), State.getF_setF_ne hs _ _ _ _ _ _ _ (by decide) (by decide), State.cfgSt]

/-- A state that raises no cause is shown by its field alone. -/
theorem State.setCfgSt_quiet (hv : v ∉ [cfgStaged, cfgSwitched, cfgFailed, cfgNoImage]) :
    s.setCfgSt v = s.setF Reg.CFG_STATUS_STATE v := by
  simp only [List.mem_cons, List.not_mem_nil, or_false, not_or] at hv
  obtain ⟨hstaged, hswitched, hfailed, hnoImage⟩ := hv
  simp only [State.setCfgSt, if_neg hstaged, if_neg hswitched, if_neg hfailed, if_neg hnoImage]

theorem State.onlyRegs_setCfgSt_staged (hs : s.canonical = true) :
    OnlyRegs s (s.setCfgSt cfgStaged) [cfgStatusAddr, cfgCauseAddr] :=
  (OnlyRegs.refl.setF hs (by decide)).cause (State.canonical_setF hs _ _ _ _) (by decide)

theorem State.setsField_setCfgSt_staged (hs : s.canonical = true) :
    SetsField s (s.setCfgSt cfgStaged) Reg.CFG_STATUS_STATE 0 3 :=
  (SetsField.setF hs).thenOnly (as := [cfgCauseAddr])
    (OnlyRegs.refl.cause (State.canonical_setF hs _ _ _ _) (by decide)) (by decide)

theorem State.raises_setCfgSt_staged (hs : s.canonical = true) : Raises s (s.setCfgSt cfgStaged) 4 [0] :=
  (Raises.none (State.onlyRegs_setF hs _ _ _ _) (by decide)).cause (State.canonical_setF hs _ _ _ _) (by decide)

theorem State.regsAlone_setCfgSt_staged : RegsAlone s (s.setCfgSt cfgStaged) := RegsAlone.refl.setF.cause

/-- The rest state is IDLE where an image runs or none has yet been looked for. -/
theorem State.cfgRest_idle (himage : s.cfg.noImage = false) : s.cfgRest = 0 := by simp [State.cfgRest, himage]

end

/-! ## The recorded conflict (R43) -/

section
variable {s : State} {resource holder claimant : Nat}

theorem State.onlyRegs_conflict (hs : s.canonical = true) :
    OnlyRegs s (s.conflict resource holder claimant) [Reg.CFG_CONFLICT_RESOURCE.addr 0 0, cfgCauseAddr] :=
  OnlyRegs.cause (t := State.event _ _ _ _) (OnlyRegs.refl.wr hs (by decide)) (State.canonical_wr hs _ _) (by decide)

theorem State.rd_conflict (hs : s.canonical = true) :
    (s.conflict resource holder claimant).rd (Reg.CFG_CONFLICT_RESOURCE.addr 0 0) =
      BitVec.ofNat 32 (resource + 2 ^ 16 * claimant + 2 ^ 24 * holder) := by
  have hcause : OnlyRegs (s.wr (Reg.CFG_CONFLICT_RESOURCE.addr 0 0) (BitVec.ofNat 32 (resource + 2 ^ 16 * claimant + 2 ^ 24 * holder)))
      (s.conflict resource holder claimant) [cfgCauseAddr] :=
    OnlyRegs.cause (t := State.event _ _ _ _) OnlyRegs.refl (State.canonical_wr hs _ _) (by decide)
  rw [hcause _ (by decide), State.rd_wr_same hs]

theorem State.raises_conflict (hs : s.canonical = true) : Raises s (s.conflict resource holder claimant) 4 [4] :=
  Raises.cause (t := State.event _ _ _ _) (bits := [])
    (Raises.none (as := [Reg.CFG_CONFLICT_RESOURCE.addr 0 0]) (OnlyRegs.refl.wr hs (by decide)) (by decide))
    (State.canonical_wr hs _ _) (by decide)

end

/-! ## Loader commands that the policy refuses (R481) -/

/-- What a refusal by CFG_POLICY leaves: ERROR 0x16 and the cause of a loader error, with STATE as it was. -/
def PolicyRefused (s t : State) : Prop :=
  SetsField s t Reg.CFG_STATUS_ERROR 0 22 ∧ Raises s t 4 [2] ∧ t.cfgSt = s.cfgSt ∧
    OnlyRegs s t [cfgStatusAddr, cfgCauseAddr] ∧ RegsAlone s t

section
variable {s : State} {path now slot : Nat}

theorem policyRefused_cfgError (hs : s.canonical = true) : PolicyRefused s (s.cfgError 0x16) :=
  ⟨State.setsField_cfgError hs, State.raises_cfgError hs, State.cfgSt_cfgError hs, State.onlyRegs_cfgError hs,
    .cause <| .setF .refl⟩

theorem completes_policyRefused {c : Instr} (hs : s.canonical = true) (hexec : exec c s = .next (s.cfgError 0x16)) :
    Completes c s (PolicyRefused s) :=
  ⟨s.cfgError 0x16, hexec, policyRefused_cfgError hs⟩

theorem State.cfgPathRefused_mgmt (hmgmt : s.isF Reg.CFG_POLICY_MGMT_EN = false) : s.cfgPathRefused 1 = true := by
  simp [State.cfgPathRefused, hmgmt]

theorem exec_cfgStage_pathRefused (h : s.cfgPathRefused path = true) : exec (.cfgStage path) s = .next (s.cfgError 0x16) :=
  congrArg Host.Outcome.next (if_pos h)

theorem exec_cfgCommit_pathRefused (h : s.cfgPathRefused path = true) : exec (.cfgCommit path now) s = .next (s.cfgError 0x16) :=
  congrArg Host.Outcome.next (if_pos h)

theorem exec_cfgAbort_pathRefused (h : s.cfgPathRefused path = true) : exec (.cfgAbort path) s = .next (s.cfgError 0x16) :=
  congrArg Host.Outcome.next (if_pos h)

theorem exec_cfgRevert_pathRefused (h : s.cfgPathRefused path = true) : exec (.cfgRevert path now) s = .next (s.cfgError 0x16) :=
  congrArg Host.Outcome.next (if_pos h)

theorem exec_cfgClear_pathRefused (h : s.cfgPathRefused path = true) : exec (.cfgClear path) s = .next (s.cfgError 0x16) :=
  congrArg Host.Outcome.next (if_pos h)

theorem exec_cfgProgramSlot_policyRefused (h : s.cfgPathRefused path = true ∨ s.isF Reg.CFG_POLICY_PROGRAM_EN = false) :
    exec (.cfgProgramSlot path slot) s = .next (s.cfgError 0x16) :=
  congrArg Host.Outcome.next (if_pos (by simpa using h))

/-- A layer that LAYER_EN forbids is refused on a refused path too, and with the same code. -/
theorem exec_cfgStage_layerRefused (hpolicy : s.isF Reg.CFG_POLICY_LAYER_EN = false) (hbusy : s.cfgBusy = false)
    (himage : (s.cfg.running || s.cfg.noImage) = true) (hlayer : leAt s.sourceImage 8 1 = 2) :
    exec (.cfgStage path) s = .next (s.cfgError 0x16) := by
  show execCfgStage path s = _
  simp [execCfgStage, hpolicy, hbusy, himage, hlayer]

end

/-- Settles O7: each command's answer is `State.cfgError 0x16`, whose writes are those of `PolicyRefused`. -/
theorem policyRefusesLoaderCommands : Obligations.PolicyRefusesLoaderCommands :=
  ⟨fun _ hs hmgmt => completes_policyRefused hs (exec_cfgStage_pathRefused (State.cfgPathRefused_mgmt hmgmt)),
    fun _ _ hs hmgmt => completes_policyRefused hs (exec_cfgCommit_pathRefused (State.cfgPathRefused_mgmt hmgmt)),
    fun _ hs hmgmt => completes_policyRefused hs (exec_cfgAbort_pathRefused (State.cfgPathRefused_mgmt hmgmt)),
    fun _ _ hs hmgmt => completes_policyRefused hs (exec_cfgRevert_pathRefused (State.cfgPathRefused_mgmt hmgmt)),
    fun _ hs hmgmt => completes_policyRefused hs (exec_cfgClear_pathRefused (State.cfgPathRefused_mgmt hmgmt)),
    fun _ _ hs hmgmt => completes_policyRefused hs (exec_cfgProgramSlot_policyRefused (.inl (State.cfgPathRefused_mgmt hmgmt))),
    fun _ _ _ hs hprogram => completes_policyRefused hs (exec_cfgProgramSlot_policyRefused (.inr hprogram)),
    fun _ _ hs hpolicy hbusy himage hlayer =>
      completes_policyRefused hs (exec_cfgStage_layerRefused hpolicy hbusy himage hlayer)⟩

/-! ## STAGE, its checks, ABORT, CLEAR and PROGRAM_SLOT (R28, R29, R38) -/

/-- STAGE has copied the image and begun the checks. -/
def State.stageBegun (s : State) : State :=
  (({ s with cfg := { s.cfg with staging := s.sourceImage, held := none, canRevert := false, oldWords := [] } } : State).setF
    Reg.CFG_STATUS_STATE cfgChecking).setF Reg.CFG_STATUS_TWIN_STAGED (ofBool (!s.twn.admitted))

/-- The conflict that a failed check found, if one, is recorded. -/
def State.recordClash (s : State) (clash : Option (Nat × Nat × Nat)) : State :=
  match clash with
  | some c => s.conflict c.1 c.2.1 c.2.2
  | none => s

/-- A failed signature by a slot that may not sign images is recorded; `old` is the state in which the check found it. -/
def State.recordMisuse (s old : State) (code slot : Nat) : State :=
  if code = 5 && !old.vslotMay slot useImage then s.misuse slot useImage else s

/-- The checks of a staged image have found a fault. -/
def State.checkFailed (s : State) (r : CheckResult) (img : List Byte) : State :=
  (((s.cfgError r.code).setCfgSt cfgFailed).recordClash r.clash).recordMisuse s r.code (leAt img (leAt img 0x38 4 + 2) 1)

/-- The checks of a staged image end. -/
def State.checked (s : State) (r : CheckResult) (img : List Byte) : State :=
  match r.image with
  | some i => ({ s with cfg := { s.cfg with held := some i } } : State).setCfgSt cfgStaged
  | none => s.checkFailed r img

section
variable {s : State} {path slot : Nat}

theorem State.setsFields_stageBegun (hs : s.canonical = true) :
    SetsFields s s.stageBegun cfgStatusAddr
      [(Reg.CFG_STATUS_STATE, 2), (Reg.CFG_STATUS_TWIN_STAGED, ofBool (!s.twn.admitted))] :=
  (SetsFields.refl.setF hs rfl).setF (State.canonical_setF hs _ _ _ _) rfl

theorem State.onlyRegs_stageBegun (hs : s.canonical = true) : OnlyRegs s s.stageBegun [cfgStatusAddr] :=
  (OnlyRegs.refl.setF hs (by decide)).setF (State.canonical_setF hs _ _ _ _) (by decide)

theorem State.stageBegun_frame : s.stageBegun = { s with regs := s.stageBegun.regs, cfg := s.stageBegun.cfg } :=
  RegsAlone.withCfg (.setF <| .setF .refl)

theorem exec_cfgStage_accepted (hpath : s.cfgPathRefused path = false) (hbusy : s.cfgBusy = false)
    (himage : (s.cfg.running || s.cfg.noImage) = true)
    (hlayer : leAt s.sourceImage 8 1 = 2 → s.isF Reg.CFG_POLICY_LAYER_EN = true) :
    exec (.cfgStage path) s = .next
      (if s.twn.admitted && leAt s.sourceImage 8 1 = 2 then s.stageBegun.emit .layerToTwin (s.sourceImage.map BitVec.toNat)
       else s.stageBegun) := by
  show execCfgStage path s = _
  have hpolicy : ¬ (leAt s.sourceImage 8 1 = 2 && !s.isF Reg.CFG_POLICY_LAYER_EN) = true := by simpa using hlayer
  simp only [execCfgStage, hpath, hbusy, himage, if_neg hpolicy, Bool.false_or, Bool.not_true, Bool.false_eq_true, if_false]
  rfl

theorem State.onlyRegs_recordClash (hs : s.canonical = true) {clash : Option (Nat × Nat × Nat)} :
    OnlyRegs s (s.recordClash clash) [Reg.CFG_CONFLICT_RESOURCE.addr 0 0, cfgCauseAddr] := by
  cases clash with
  | none => exact .refl
  | some c => exact State.onlyRegs_conflict hs

theorem State.recordMisuse_regs {old : State} {code : Nat} : (s.recordMisuse old code slot).regs = s.regs := by
  unfold State.recordMisuse
  split <;> rfl

theorem RegsEventsAlone.recordClash {t : State} {clash : Option (Nat × Nat × Nat)} (h : RegsEventsAlone s t) :
    RegsEventsAlone s (t.recordClash clash) := by
  cases clash with
  | none => exact h
  | some c => exact RegsEventsAlone.thenRegs (.event <| h.thenRegs <| .wr .refl) (.cause .refl)

theorem RegsEventsAlone.recordMisuse {t old : State} {code : Nat} (h : RegsEventsAlone s t) :
    RegsEventsAlone s (t.recordMisuse old code slot) := by
  unfold State.recordMisuse
  split
  · exact h.event
  · exact h

section
variable {r : CheckResult} {img : List Byte}

theorem State.canonical_setCfgSt_failed (hs : s.canonical = true) : (s.setCfgSt cfgFailed).canonical = true :=
  State.canonical_cause (State.canonical_setF hs _ _ _ _)

/-- What records a failed check writes no register of the loader's status. -/
theorem State.onlyRegs_checkFailed_after (hs : s.canonical = true) :
    OnlyRegs ((s.cfgError r.code).setCfgSt cfgFailed) (s.checkFailed r img)
      [Reg.CFG_CONFLICT_RESOURCE.addr 0 0, cfgCauseAddr] := by
  have hclash := State.onlyRegs_recordClash (clash := r.clash)
    (State.canonical_setCfgSt_failed (State.canonical_cfgError (code := r.code) hs))
  intro a ha
  rw [← hclash a ha, State.rd, State.rd, State.checkFailed, State.recordMisuse_regs]

theorem State.setsFields_checkFailed (hs : s.canonical = true) :
    SetsFields s (s.checkFailed r img) cfgStatusAddr [(Reg.CFG_STATUS_ERROR, r.code), (Reg.CFG_STATUS_STATE, 9)] := by
  have herror : SetsFields s (s.cfgError r.code) cfgStatusAddr [(Reg.CFG_STATUS_ERROR, r.code)] := State.setsField_cfgError hs
  have hstate := herror.setF (f := Reg.CFG_STATUS_STATE) (v := 9) (State.canonical_cfgError hs) rfl
  have hcause : OnlyRegs ((s.cfgError r.code).setF Reg.CFG_STATUS_STATE 9) ((s.cfgError r.code).setCfgSt cfgFailed)
      [cfgCauseAddr] :=
    OnlyRegs.refl.cause (State.canonical_setF (State.canonical_cfgError hs) _ _ _ _) (by decide)
  exact (hstate.thenOnly hcause (by decide)).thenOnly (State.onlyRegs_checkFailed_after hs) (by decide)

theorem State.onlyRegs_checkFailed (hs : s.canonical = true) :
    OnlyRegs s (s.checkFailed r img) [cfgStatusAddr, cfgCauseAddr, Reg.CFG_CONFLICT_RESOURCE.addr 0 0] := by
  have hfailed : OnlyRegs s ((s.cfgError r.code).setCfgSt cfgFailed) [cfgStatusAddr, cfgCauseAddr] :=
    ((State.onlyRegs_cfgError hs).setF (State.canonical_cfgError hs) (by decide)).cause
      (State.canonical_setF (State.canonical_cfgError hs) _ _ _ _) (by decide)
  exact (hfailed.mono (by decide)).trans ((State.onlyRegs_checkFailed_after hs).mono (by decide))

theorem State.regsEventsAlone_checkFailed : RegsEventsAlone s (s.checkFailed r img) :=
  .recordMisuse <| .recordClash <| RegsAlone.orEvents <| .cause <| .setF <| .cause <| .setF .refl

theorem State.checked_passed {i : CfgImage} (hr : r.image = some i) :
    s.checked r img = ({ s with cfg := { s.cfg with held := some i } } : State).setCfgSt cfgStaged := by
  rw [State.checked, hr]

theorem State.checked_failed (hr : r.image = none) : s.checked r img = s.checkFailed r img := by
  rw [State.checked, hr]

/-- The status word at the end of the checks: STAGED with its cause and the image held, or FAILED with the code of the failed check. -/
theorem State.checked_status (hs : s.canonical = true) :
    r.image.elim
      ((s.checked r img).cfg = s.cfg ∧
        SetsFields s (s.checked r img) cfgStatusAddr [(Reg.CFG_STATUS_ERROR, r.code), (Reg.CFG_STATUS_STATE, 9)])
      (fun i => (s.checked r img).cfg = { s.cfg with held := some i } ∧
        SetsField s (s.checked r img) Reg.CFG_STATUS_STATE 0 3 ∧ Raises s (s.checked r img) 4 [0] ∧
        (s.checked r img).events = s.events) := by
  cases hr : r.image with
  | none =>
    rw [State.checked_failed hr]
    exact ⟨State.regsEventsAlone_checkFailed.cfg, State.setsFields_checkFailed hs⟩
  | some i =>
    rw [State.checked_passed hr]
    exact ⟨State.regsAlone_setCfgSt_staged.cfg, State.setsField_setCfgSt_staged hs, State.raises_setCfgSt_staged hs,
      State.regsAlone_setCfgSt_staged.events⟩

theorem State.onlyRegs_checked (hs : s.canonical = true) :
    OnlyRegs s (s.checked r img) [cfgStatusAddr, cfgCauseAddr, Reg.CFG_CONFLICT_RESOURCE.addr 0 0] := by
  cases hr : r.image with
  | none =>
    rw [State.checked_failed hr]
    exact State.onlyRegs_checkFailed hs
  | some i =>
    rw [State.checked_passed hr]
    exact OnlyRegs.mono (State.onlyRegs_setCfgSt_staged hs) (by decide)

theorem State.checked_frame :
    s.checked r img = { s with
      regs := (s.checked r img).regs, cfg := (s.checked r img).cfg, events := (s.checked r img).events } := by
  cases hr : r.image with
  | none =>
    rw [State.checked_failed hr]
    exact State.regsEventsAlone_checkFailed.withCfg
  | some i =>
    rw [State.checked_passed hr]
    exact State.regsAlone_setCfgSt_staged.orEvents.withCfg

end

theorem exec_cfgStageComplete_checking (hst : s.cfgSt = cfgChecking) :
    exec .cfgStageComplete s =
      .next (s.checked (checkImage s s.cfg.staging s.cfg.staging.length s.cfg.noImage) s.cfg.staging) :=
  congrArg Host.Outcome.next (if_pos hst)

theorem exec_twinLayerStaged_admitted (hadmitted : s.twn.admitted = true) (hst : s.cfgSt = cfgChecking ∨ s.cfgSt = cfgStaged) :
    exec .twinLayerStaged s = .next (s.setF Reg.CFG_STATUS_TWIN_STAGED 1) :=
  congrArg Host.Outcome.next (if_pos (by simpa [hadmitted] using hst))

theorem exec_cfgAbort_staged (hpath : s.cfgPathRefused path = false) (hst : s.cfgSt = cfgChecking ∨ s.cfgSt = cfgStaged)
    (himage : s.cfg.noImage = false) :
    exec (.cfgAbort path) s = .next
      (({ s with cfg := { s.cfg with held := none, staging := [] } } : State).setF Reg.CFG_STATUS_STATE cfgIdle) := by
  have hbefore : (s.cfgSt = 1 || s.cfgSt = cfgChecking || s.cfgSt = cfgStaged) = true := by
    rcases hst with hst | hst <;> simp [hst]
  show execCfgAbort path s = _
  rw [execCfgAbort, if_neg (by simp [hpath]), if_pos hbefore, State.cfgRest_idle himage, State.setCfgSt_quiet (by decide)]

theorem exec_cfgClear_resting (hpath : s.cfgPathRefused path = false) (hbusy : s.cfgBusy = false)
    (himage : s.cfg.noImage = false) :
    exec (.cfgClear path) s = .next
      ((({ s with cfg := { s.cfg with held := none } } : State).setF Reg.CFG_STATUS_STATE cfgIdle).setF Reg.CFG_STATUS_ERROR 0) := by
  show execCfgClear path s = _
  rw [execCfgClear, if_neg (by simp [hpath]), if_neg (by simp [hbusy]), State.cfgRest_idle himage,
    State.setCfgSt_quiet (by decide)]

/-- The loader's record once slot `slot` is erased for programming. -/
def CfgState.eraseSlot (c : CfgState) (slot : Nat) : CfgState :=
  if slot = 0 then { c with slot0 := [], programSlot := 0 } else { c with slot1 := [], programSlot := 1 }

/-- The loader's record once the slot being programmed holds the staging buffer. -/
def CfgState.fillSlot (c : CfgState) : CfgState :=
  if c.programSlot = 0 then { c with slot0 := c.staging } else { c with slot1 := c.staging }

theorem exec_cfgProgramSlot_accepted (hpath : s.cfgPathRefused path = false) (hpolicy : s.isF Reg.CFG_POLICY_PROGRAM_EN = true)
    (hst : s.cfgSt = cfgStaged) (hheld : s.holdsFull = true) (hslot : slot < 2)
    (hother : s.cfg.running = false ∨ s.cfg.fromSlot = false ∨ s.getF Reg.CFG_STATUS_SLOT ≠ slot) :
    exec (.cfgProgramSlot path slot) s = .next
      (({ s with cfg := s.cfg.eraseSlot slot } : State).setF Reg.CFG_STATUS_STATE cfgProgramming) := by
  have hfree : ¬ (s.cfg.running && s.cfg.fromSlot && s.getF Reg.CFG_STATUS_SLOT = slot) = true := by
    rcases hother with h | h | h <;> simp [h]
  show execCfgProgramSlot path slot s = _
  rw [execCfgProgramSlot, if_neg (by simp [hpath, hpolicy]), if_neg (by simp [hst, hheld, hslot]), if_neg hfree]
  exact congrArg Host.Outcome.next (State.setCfgSt_quiet (by decide))

theorem exec_programSlotComplete_programming (hst : s.cfgSt = cfgProgramming) :
    exec .programSlotComplete s = .next (({ s with cfg := s.cfg.fillSlot } : State).setCfgSt cfgStaged) :=
  congrArg Host.Outcome.next (if_pos hst)

end

/-- Settles O6: the answer of each command in the case named is one chain of writes to CFG_STATUS and the loader's cause word, which the
rules above follow. -/
theorem cfgStageChecksAbortsClearsAndPrograms : Obligations.CfgStageChecksAbortsClearsAndPrograms := by
  refine ⟨?stageFull, ?stageLayer, ?checks, ?twin, ?abort, ?clear, ?program, ?programmed⟩
  case stageFull =>
    intro s path hs hpath hbusy himage hkind
    have hexec := exec_cfgStage_accepted hpath hbusy himage (by simp [hkind])
    rw [if_neg (by simp [hkind])] at hexec
    exact ⟨_, hexec, State.setsFields_stageBegun hs, rfl, State.onlyRegs_stageBegun hs, State.stageBegun_frame⟩
  case stageLayer =>
    intro s path hs hpath hbusy himage hkind hpolicy hadmitted
    have hexec := exec_cfgStage_accepted hpath hbusy himage fun _ => hpolicy
    rw [if_pos (by simp [hkind, hadmitted])] at hexec
    have hstatus := State.setsFields_stageBegun hs
    rw [hadmitted, show ofBool (!true) = 0 from rfl] at hstatus
    obtain ⟨houtbox, hframe⟩ := emit_of_regsCfgAlone s.stageBegun_frame
    exact ⟨_, hexec, hstatus.thenOnly (as := []) .emit (by decide), rfl, houtbox, (State.onlyRegs_stageBegun hs).trans .emit,
      hframe⟩
  case checks =>
    intro s hs hst
    exact ⟨_, exec_cfgStageComplete_checking hst, State.checked_status hs, State.onlyRegs_checked hs, State.checked_frame⟩
  case twin =>
    intro s hs hadmitted hst
    exact ⟨_, exec_twinLayerStaged_admitted hadmitted hst, SetsField.setF hs, State.onlyRegs_setF hs _ _ _ _,
      RegsAlone.refl.setF⟩
  case abort =>
    intro s path hs hpath hst himage
    exact ⟨_, exec_cfgAbort_staged hpath hst himage, SetsField.setF hs, rfl, State.onlyRegs_setF hs _ _ _ _,
      RegsAlone.refl.setF.withCfg⟩
  case clear =>
    intro s path hs hpath hbusy himage
    have hstate := State.canonical_setF hs Reg.CFG_STATUS_STATE cfgIdle 0 0
    exact ⟨_, exec_cfgClear_resting hpath hbusy himage, (SetsFields.refl.setF hs rfl).setF hstate rfl, rfl,
      (State.onlyRegs_setF hs Reg.CFG_STATUS_STATE _ _ _).setF hstate (by decide), RegsAlone.refl.setF.setF.withCfg⟩
  case program =>
    intro s path slot hs hpath hpolicy hst hheld hslot hother
    exact ⟨_, exec_cfgProgramSlot_accepted hpath hpolicy hst hheld hslot hother, SetsField.setF hs, rfl,
      State.onlyRegs_setF hs _ _ _ _, RegsAlone.refl.setF.withCfg⟩
  case programmed =>
    intro s hs hst
    exact ⟨_, exec_programSlotComplete_programming hst, State.setsField_setCfgSt_staged hs, State.raises_setCfgSt_staged hs,
      State.regsAlone_setCfgSt_staged.cfg, State.onlyRegs_setCfgSt_staged hs, State.regsAlone_setCfgSt_staged.withCfg⟩

/-! ## Run-time claims and releases (R41 to R43) -/

theorem claimable_lt {resource : Nat} (h : claimable resource = true) : resource < 0x200 := by
  simp [claimable] at h
  omega

section
variable {s t : State} {path owner resource code a v : Nat}

theorem State.journal_unlocked (h : s.isF Reg.TWN_STATUS_LOCK = false) : s.journal a v = s := if_neg (by simp [h])

theorem State.journal_locked (h : s.isF Reg.TWN_STATUS_LOCK = true) :
    s.journal a v = { s with twn := { s.twn with journal := s.twn.journal ++ [(a, v)] } } :=
  if_pos h

/-! The unit behind a resource follows its owner: a capture ring always (09 R210), a general timer when it is released (04 R96). -/

theorem State.unitOwned_ring {owned : Bool} (hlo : 0x180 ≤ resource) (hhi : resource < 0x1C0) :
    s.unitOwned resource owned = s.setF Reg.CTX_CAP_STAT_RUNNING
      (ofBool (owned && s.isF Reg.CTX_CAP_CFG_EN (resource - 0x180) && !s.isF Reg.CTX_CAP_STAT_STOPPED (resource - 0x180)))
      (resource - 0x180) :=
  if_pos (by simp [hlo, hhi])

theorem State.unitOwned_timerReleased (hlo : 0x170 ≤ resource) (hhi : resource < 0x180) :
    s.unitOwned resource false =
      (s.setF Reg.LT_TMR_STAT_RUNNING 0 (resource - 0x170)).setF Reg.LT_TMR_STAT_EXPIRED 0 (resource - 0x170) := by
  rw [State.unitOwned, if_neg (by simp; omega), if_pos (by simp [hlo, hhi])]

theorem State.unitOwned_other {owned : Bool} (hring : ¬ (0x180 ≤ resource ∧ resource < 0x1C0))
    (htimer : ¬ (0x170 ≤ resource ∧ resource < 0x180 ∧ owned = false)) : s.unitOwned resource owned = s := by
  rw [State.unitOwned, if_neg (by simpa using hring), if_neg (by simpa [and_assoc] using htimer)]

/-- The registers of the unit that gains or loses its owner. -/
def unitRegs (resource : Nat) (owned : Bool) : List Nat :=
  if 0x180 ≤ resource ∧ resource < 0x1C0 then [Reg.CTX_CAP_STAT.addr (resource - 0x180) 0]
  else if 0x170 ≤ resource ∧ resource < 0x180 ∧ owned = false then [Reg.LT_TMR_STAT.addr (resource - 0x170) 0]
  else []

theorem State.onlyRegs_unitOwned (hs : s.canonical = true) {owned : Bool} :
    OnlyRegs s (s.unitOwned resource owned) (unitRegs resource owned) := by
  unfold unitRegs
  split
  · next hring =>
    rw [State.unitOwned_ring hring.1 hring.2]
    exact State.onlyRegs_setF hs _ _ _ _
  · next hring =>
    split
    · next htimer =>
      obtain ⟨hlo, hhi, rfl⟩ := htimer
      rw [State.unitOwned_timerReleased hlo hhi]
      exact (State.onlyRegs_setF hs _ _ _ _).setF (State.canonical_setF hs _ _ _ _) (List.mem_singleton_self _)
    · next htimer =>
      rw [State.unitOwned_other hring htimer]
      exact .refl

theorem RegsAlone.unitOwned {owned : Bool} (h : RegsAlone s t) : RegsAlone s (t.unitOwned resource owned) := by
  unfold State.unitOwned
  split
  · exact h.setF
  · split
    · exact h.setF.setF
    · exact h

/-- A resource takes an owner code, and the unit behind it follows. -/
def State.giveOwner (s : State) (owner resource : Nat) (owned : Bool) : State :=
  (s.setF Reg.CFG_OWN_OWNER owner resource).unitOwned resource owned

/-- The registers of the units that follow an owner lie from 0x5F800 to 0x5FFFF and from 0x101000 on: an address of another block is
none of them. -/
theorem not_mem_unitRegs {owned : Bool} (hclaimable : claimable resource = true)
    (ha : a < 0x5F800 ∨ (0x60000 ≤ a ∧ a < 0x101000)) : a ∉ unitRegs resource owned := by
  have hlt := claimable_lt hclaimable
  unfold unitRegs
  split
  · simp only [List.mem_singleton, Fld.addr]
    omega
  · split
    · simp only [List.mem_singleton, Fld.addr]
      omega
    · simp

theorem State.regsAlone_giveOwner {owned : Bool} : RegsAlone s (s.giveOwner owner resource owned) := RegsAlone.refl.setF.unitOwned

theorem State.onlyRegs_giveOwner (hs : s.canonical = true) {owned : Bool} :
    OnlyRegs s (s.giveOwner owner resource owned) (Reg.CFG_OWN_OWNER.addr resource 0 :: unitRegs resource owned) :=
  ((State.onlyRegs_setF hs Reg.CFG_OWN_OWNER owner resource 0).mono (by simp)).trans
    ((State.onlyRegs_unitOwned (State.canonical_setF hs _ _ _ _)).mono (List.subset_cons_self _ _))

theorem State.setsField_giveOwner (hs : s.canonical = true) (hclaimable : claimable resource = true) {owned : Bool} :
    SetsField s (s.giveOwner owner resource owned) Reg.CFG_OWN_OWNER resource owner := by
  have hlt := claimable_lt hclaimable
  refine (SetsField.setF hs).thenOnly (State.onlyRegs_unitOwned (State.canonical_setF hs _ _ _ _)) ?_
  exact not_mem_unitRegs hclaimable (.inl (by simp only [Fld.addr]; omega))

theorem State.isF_lock_giveOwner (hs : s.canonical = true) (hclaimable : claimable resource = true) {owned : Bool} :
    (s.giveOwner owner resource owned).isF Reg.TWN_STATUS_LOCK = s.isF Reg.TWN_STATUS_LOCK := by
  have hlt := claimable_lt hclaimable
  refine (State.onlyRegs_giveOwner hs).isF ?_
  rw [List.mem_cons, not_or]
  exact ⟨by simp only [Fld.addr]; omega, not_mem_unitRegs hclaimable (.inr (by decide))⟩

/-- A capture ring with an owner runs where it is enabled and not STOPPED; one without does not run. -/
theorem State.setsField_giveOwner_ring (hs : s.canonical = true) {owned : Bool} (hlo : 0x180 ≤ resource) (hhi : resource < 0x1C0) :
    SetsField s (s.giveOwner owner resource owned) Reg.CTX_CAP_STAT_RUNNING (resource - 0x180)
      (ofBool (owned && s.isF Reg.CTX_CAP_CFG_EN (resource - 0x180) && !s.isF Reg.CTX_CAP_STAT_STOPPED (resource - 0x180))) := by
  have howner := State.onlyRegs_setF hs Reg.CFG_OWN_OWNER owner resource 0
  rw [State.giveOwner, State.unitOwned_ring hlo hhi, howner.isF (by simp only [List.mem_singleton, Fld.addr]; omega),
    howner.isF (by simp only [List.mem_singleton, Fld.addr]; omega), SetsField, State.rd_setF (State.canonical_setF hs _ _ _ _),
    if_pos rfl, howner _ (by simp only [List.mem_singleton, Fld.addr]; omega)]

theorem State.setsField_giveOwner_ring_claimed (hs : s.canonical = true) (hlo : 0x180 ≤ resource) (hhi : resource < 0x1C0) :
    SetsField s (s.giveOwner owner resource true) Reg.CTX_CAP_STAT_RUNNING (resource - 0x180)
      (ofBool (s.isF Reg.CTX_CAP_CFG_EN (resource - 0x180) && !s.isF Reg.CTX_CAP_STAT_STOPPED (resource - 0x180))) := by
  simpa only [Bool.true_and] using State.setsField_giveOwner_ring (owner := owner) (owned := true) hs hlo hhi

theorem State.setsField_giveOwner_ring_released (hs : s.canonical = true) (hlo : 0x180 ≤ resource) (hhi : resource < 0x1C0) :
    SetsField s (s.giveOwner owner resource false) Reg.CTX_CAP_STAT_RUNNING (resource - 0x180) 0 :=
  State.setsField_giveOwner_ring (owned := false) hs hlo hhi

/-- A general timer that is released is idle with EXPIRED at 0. -/
theorem State.setsFields_giveOwner_timer (hs : s.canonical = true) (hlo : 0x170 ≤ resource) (hhi : resource < 0x180) :
    SetsFields s (s.giveOwner owner resource false) (Reg.LT_TMR_STAT.addr (resource - 0x170) 0)
      [(Reg.LT_TMR_STAT_RUNNING, 0), (Reg.LT_TMR_STAT_EXPIRED, 0)] := by
  have howner := State.canonical_setF hs Reg.CFG_OWN_OWNER owner resource 0
  have hkept : SetsFields s (s.setF Reg.CFG_OWN_OWNER owner resource) (Reg.LT_TMR_STAT.addr (resource - 0x170) 0) [] :=
    SetsFields.refl.thenOnly (State.onlyRegs_setF hs _ _ _ _) (by simp only [List.mem_singleton, Fld.addr]; omega)
  rw [State.giveOwner, State.unitOwned_timerReleased hlo hhi]
  exact (hkept.setF howner (by simp only [Fld.addr])).setF (State.canonical_setF howner _ _ _ _) (by simp only [Fld.addr])

/-! The result of a claim or release is written for its path alone. -/

theorem RegsAlone.ownResult (h : RegsAlone s t) :
    (t.ownResult path code).pathRegs = (s.wrPath path (Reg.CFG_OWN_RESULT_RESULT.addr 0 0) (BitVec.ofNat 32 code)).pathRegs ∧
      t.ownResult path code =
        { s with regs := (t.ownResult path code).regs, pathRegs := (t.ownResult path code).pathRegs } := by
  unfold RegsAlone at h
  generalize t.regs = regs at h
  subst h
  exact ⟨rfl, rfl⟩

theorem RegsEventsAlone.ownResult (h : RegsEventsAlone s t) :
    (t.ownResult path code).pathRegs = (s.wrPath path (Reg.CFG_OWN_RESULT_RESULT.addr 0 0) (BitVec.ofNat 32 code)).pathRegs ∧
      t.ownResult path code = { s with
        regs := (t.ownResult path code).regs
        pathRegs := (t.ownResult path code).pathRegs
        events := (t.ownResult path code).events } := by
  unfold RegsEventsAlone at h
  generalize t.regs = regs, t.events = events at h
  subst h
  exact ⟨rfl, rfl⟩

theorem State.regsEventsAlone_conflict {holder claimant : Nat} : RegsEventsAlone s (s.conflict resource holder claimant) :=
  RegsEventsAlone.recordClash (clash := some (resource, holder, claimant)) RegsAlone.refl.orEvents

/-! What a claim and a release do in each of their cases. -/

theorem State.claim_notClaimable (h : ¬ (owner = pathOwner path ∧ claimable resource = true)) :
    s.claim path owner resource = s.ownResult path 2 :=
  if_pos (by simpa [imp_iff_not_or] using h)

theorem State.claim_free (hcode : owner = pathOwner path ∧ claimable resource = true)
    (hfree : s.getF Reg.CFG_OWN_OWNER resource = 0 ∧ s.isF Reg.CFG_OWN_RESERVED resource = false) :
    s.claim path owner resource =
      ((s.giveOwner owner resource true).ownResult path 0).journal (Reg.CFG_OWN_CLAIM.addr 0 0) (resource + 2 ^ 16 * owner) := by
  rw [State.claim, if_neg (by simp [hcode]), if_pos (by simp [hfree]), State.giveOwner]

theorem State.claim_owned (hcode : owner = pathOwner path ∧ claimable resource = true)
    (howned : ¬ (s.getF Reg.CFG_OWN_OWNER resource = 0 ∧ s.isF Reg.CFG_OWN_RESERVED resource = false)) :
    s.claim path owner resource = (s.conflict resource (s.getF Reg.CFG_OWN_OWNER resource) owner).ownResult path 1 := by
  rw [State.claim, if_neg (by simp [hcode]), if_neg (by simpa using howned)]

theorem State.release_own (hcode : owner = pathOwner path ∧ claimable resource = true)
    (hown : s.getF Reg.CFG_OWN_OWNER resource = owner ∧ s.isF Reg.CFG_OWN_RESERVED resource = false) :
    s.release path owner resource =
      ((s.giveOwner 0 resource false).ownResult path 0).journal (Reg.CFG_OWN_CLAIM.addr 0 0)
        (2 ^ 24 + resource + 2 ^ 16 * owner) := by
  rw [State.release, if_neg (by simp [hcode]), if_pos (by simp [hown]), State.giveOwner]

theorem State.release_notOwn (hcode : owner = pathOwner path ∧ claimable resource = true)
    (hown : s.getF Reg.CFG_OWN_OWNER resource ≠ owner) : s.release path owner resource = s.ownResult path 3 := by
  rw [State.release, if_neg (by simp [hcode]), if_neg (by simp [hown])]

theorem exec_ownClaim : exec (.ownClaim path owner resource) s = .next (s.claim path owner resource) := rfl

theorem exec_ownRelease : exec (.ownRelease path owner resource) s = .next (s.release path owner resource) := rfl

theorem unitRegs_owned : unitRegs resource true =
    if 0x180 ≤ resource ∧ resource < 0x1C0 then [Reg.CTX_CAP_STAT.addr (resource - 0x180) 0] else [] := by
  simp [unitRegs]

theorem unitRegs_released : unitRegs resource false =
    if 0x180 ≤ resource ∧ resource < 0x1C0 then [Reg.CTX_CAP_STAT.addr (resource - 0x180) 0]
    else if 0x170 ≤ resource ∧ resource < 0x180 then [Reg.LT_TMR_STAT.addr (resource - 0x170) 0] else [] := by
  simp [unitRegs]

/-- The journal of the holder takes an entry, beside what differs already. -/
theorem journal_of_regsPathAlone (h : t = { s with regs := t.regs, pathRegs := t.pathRegs })
    (hlock : t.isF Reg.TWN_STATUS_LOCK = true) :
    (t.journal a v).twn.journal = s.twn.journal ++ [(a, v)] ∧
      t.journal a v =
        { s with regs := (t.journal a v).regs, pathRegs := (t.journal a v).pathRegs, twn := (t.journal a v).twn } := by
  rw [State.journal_locked hlock]
  generalize t.regs = regs, t.pathRegs = pathRegs at h
  subst h
  exact ⟨rfl, rfl⟩

theorem OnlyRegs.journal : OnlyRegs s (s.journal a v) [] := by
  unfold State.journal
  split <;> exact .refl

theorem State.journal_pathRegs : (s.journal a v).pathRegs = s.pathRegs := by
  unfold State.journal
  split <;> rfl

theorem OnlyRegs.ownResult : OnlyRegs s (s.ownResult path code) [] := fun _ _ => rfl

theorem OnlyRegs.ownResult_journal : OnlyRegs s ((s.ownResult path code).journal a v) [] :=
  OnlyRegs.ownResult.trans .journal

end

/-- Settles O11: a granted claim or release is `State.giveOwner` with a result for its path, a refused claim `State.conflict` with one,
and every other answer the result alone. -/
theorem ownershipClaims : Obligations.OwnershipClaims := by
  refine ⟨?granted, ?conflict, ?notClaimable, ?released, ?notOwner⟩
  case granted =>
    intro s path owner resource hs hcode hfree hlock
    have hunlocked : ((s.giveOwner owner resource true).ownResult path 0).isF Reg.TWN_STATUS_LOCK = false :=
      (State.isF_lock_giveOwner hs hcode.2).trans hlock
    have hexec : exec (.ownClaim path owner resource) s = .next ((s.giveOwner owner resource true).ownResult path 0) := by
      rw [exec_ownClaim, State.claim_free hcode hfree, State.journal_unlocked hunlocked]
    obtain ⟨hpath, hframe⟩ := (State.regsAlone_giveOwner (s := s) (owner := owner) (resource := resource) (owned := true)).ownResult
      (path := path) (code := 0)
    refine ⟨_, hexec, (State.setsField_giveOwner hs hcode.2).thenOnly .ownResult (by simp), hpath, fun hlo hhi => ?ring, ?others,
      hframe⟩
    case ring => exact (State.setsField_giveOwner_ring_claimed hs hlo hhi).thenOnly .ownResult (by simp)
    case others =>
      rw [← unitRegs_owned]
      exact (State.onlyRegs_giveOwner hs).trans (OnlyRegs.ownResult.mono (List.nil_subset _))
  case conflict =>
    intro s path owner resource hs hcode howned
    have hexec : exec (.ownClaim path owner resource) s =
        .next ((s.conflict resource (s.getF Reg.CFG_OWN_OWNER resource) owner).ownResult path 1) := by
      rw [exec_ownClaim, State.claim_owned hcode howned]
    obtain ⟨hpath, hframe⟩ := (State.regsEventsAlone_conflict (s := s) (resource := resource)).ownResult
    exact ⟨_, hexec, State.rd_conflict hs, State.raises_conflict hs, hpath, rfl, State.onlyRegs_conflict hs, hframe⟩
  case notClaimable =>
    intro s path owner resource hcode
    exact ⟨_, exec_ownClaim.trans (congrArg _ (State.claim_notClaimable hcode)), rfl, rfl⟩
  case released =>
    intro s path owner resource hs hcode hown hlock
    have hlocked := (State.isF_lock_giveOwner (owner := 0) (owned := false) hs hcode.2).trans hlock
    obtain ⟨hpath, hframe⟩ := (State.regsAlone_giveOwner (s := s) (owner := 0) (resource := resource) (owned := false)).ownResult
      (path := path) (code := 0)
    obtain ⟨hjournal, hframe⟩ := journal_of_regsPathAlone hframe hlocked
      (a := Reg.CFG_OWN_CLAIM.addr 0 0) (v := 2 ^ 24 + resource + 2 ^ 16 * owner)
    have hexec := (exec_ownRelease (s := s)).trans (congrArg _ (State.release_own hcode hown))
    refine ⟨_, hexec, (State.setsField_giveOwner hs hcode.2).thenOnly .ownResult_journal (by simp),
      State.journal_pathRegs.trans hpath, hjournal, fun hlo hhi => ?timer, fun hlo hhi => ?ring, ?others, hframe⟩
    case timer => exact (State.setsFields_giveOwner_timer hs hlo hhi).thenOnly .ownResult_journal (by simp)
    case ring => exact (State.setsField_giveOwner_ring_released hs hlo hhi).thenOnly .ownResult_journal (by simp)
    case others =>
      rw [← unitRegs_released]
      exact (State.onlyRegs_giveOwner hs).trans (OnlyRegs.ownResult_journal.mono (List.nil_subset _))
  case notOwner =>
    intro s path owner resource hcode hown
    exact ⟨_, exec_ownRelease.trans (congrArg _ (State.release_notOwn hcode hown)), rfl, rfl⟩

end Sys2Proof.Machine

end

section

/-!
PROOFS. Sense ingress (03): the coulomb counters (R60 to R70). `Writes` follows a chain of register writes link by link: which registers
may read otherwise at its end, and that the lists are still canonical there.
-/

namespace Sys2Proof.Machine

/-! ## Chains of register writes -/

/-- From `s` to `t` only the registers listed read otherwise, and the lists of `t` are in canonical form. -/
structure Writes (s t : State) (as : List Nat) : Prop where
  canonical : t.canonical = true
  only : OnlyRegs s t as

section
variable {s t u : State} {as bs : List Nat} {f g : Fld} {i j k l a v vector bit : Nat}

theorem Writes.refl (hs : s.canonical = true) : Writes s s as := ⟨hs, .refl⟩

theorem Writes.trans (hst : Writes s t as) (htu : Writes t u as) : Writes s u as := ⟨htu.canonical, hst.only.trans htu.only⟩

theorem Writes.mono (h : Writes s t as) (hsub : as ⊆ bs) : Writes s t bs := ⟨h.canonical, h.only.mono hsub⟩

theorem Writes.append (hst : Writes s t as) (htu : Writes t u bs) : Writes s u (as ++ bs) :=
  (hst.mono (List.subset_append_left _ _)).trans (htu.mono (List.subset_append_right _ _))

/-- What differs in other parts than registers, settings, stack and poison is no write. -/
theorem Writes.frame (h : Writes s t as) (hregs : u.regs = t.regs := by rfl) (heff : u.eff = t.eff := by rfl)
    (hmem : u.mem = t.mem := by rfl) (hpoison : u.poison = t.poison := by rfl) : Writes s u as := by
  refine ⟨?_, fun b hb => (State.rd_congr hregs b).trans (h.only b hb)⟩
  have ht := h.canonical
  rwa [State.canonical_iff, ← hregs, ← heff, ← hmem, ← hpoison, ← State.canonical_iff] at ht

theorem Writes.wr {w : Word} (h : Writes s t as) (ha : a ∈ as) : Writes s (t.wr a w) as :=
  ⟨State.canonical_wr h.canonical a w, h.only.wr h.canonical ha⟩

theorem Writes.setF (h : Writes s t as) (ha : f.addr i j ∈ as) : Writes s (t.setF f v i j) as := h.wr ha

theorem Writes.setS {x : Int} (h : Writes s t as) (ha : f.addr i j ∈ as) : Writes s (t.setS f x i j) as := h.wr ha

theorem Writes.cause (h : Writes s t as) (ha : Reg.SYS_IRQ_CAUSE.addr vector 0 ∈ as) : Writes s (t.cause vector bit) as :=
  h.setF ha

theorem Writes.causeIf {b : Bool} (h : Writes s t as) (ha : Reg.SYS_IRQ_CAUSE.addr vector 0 ∈ as) :
    Writes s (t.causeIf b vector bit) as := by
  unfold State.causeIf
  split
  · exact h.cause ha
  · exact h

theorem Writes.ite {c : Prop} {_ : Decidable c} (ht : Writes s t as) (hu : Writes s u as) : Writes s (if c then t else u) as := by
  split
  · exact ht
  · exact hu

theorem Writes.foldl {α : Type} {step : State → α → State} {xs : List α} (h : Writes s t as)
    (hstep : ∀ b x, Writes s b as → Writes s (step b x) as) : Writes s (xs.foldl step t) as :=
  List.foldlRecOn xs step h fun b hb x _ => hstep b x hb

theorem Writes.rd (h : Writes s t as) (ha : a ∉ as) : t.rd a = s.rd a := h.only a ha

theorem Writes.getF (h : Writes s t as) (ha : f.addr i j ∉ as) : t.getF f i j = s.getF f i j := h.only.getF ha

theorem Writes.isF (h : Writes s t as) (ha : f.addr i j ∉ as) : t.isF f i j = s.isF f i j := h.only.isF ha

/-- A field that one write of a chain sets reads so at the chain's end. -/
theorem Writes.setsField (hst : Writes s t as) (htu : Writes (t.setF f v i j) u bs) (has : f.addr i j ∉ as)
    (hbs : f.addr i j ∉ bs) : SetsField s u f i v j := by
  rw [SetsField, htu.rd hbs, State.rd_setF hst.canonical, if_pos rfl, hst.rd has]

/-- A flag stays 1 while other fields are set. -/
theorem State.isF_setF_of_isF (hs : s.canonical = true) (hg : s.isF g k l = true)
    (hd : g.addr k l ≠ f.addr i j ∨ g.lo + g.w ≤ f.lo ∨ f.lo + f.w ≤ g.lo) (hw : f.lo + f.w ≤ 32) :
    (s.setF f v i j).isF g k l = true :=
  (State.isF_setF_ne hs f g v i j k l hw hd).trans hg

theorem State.isF_setF_one (hs : s.canonical = true) (hlo : f.lo < 32) (hw : f.w = 1) : (s.setF f 1 i j).isF f i j = true := by
  simp [State.isF, State.getF_setF hs f 1 i j (by omega), hw]

end

/-! ## Words with a bit set or cleared -/

/-- A bit that takes a value changes what lies from its place on in that one bit, and nothing below its place. -/
theorem putBit_div_mod (v n : Nat) (b : Bool) :
    putBit v n b / 2 ^ n = v / 2 ^ n - v / 2 ^ n % 2 + ofBool b ∧ putBit v n b % 2 ^ n = v % 2 ^ n := by
  have hpos : 0 < 2 ^ n := Nat.two_pow_pos n
  unfold putBit
  split
  · next hsame =>
    refine ⟨?_, rfl⟩
    have hbit : v / 2 ^ n % 2 = ofBool b := by
      subst hsame
      simp only [bitOf, ofBool, decide_eq_true_eq]
      split <;> omega
    generalize v / 2 ^ n = q at hbit ⊢
    omega
  · next hdiff =>
    split
    · next hset =>
      subst hset
      refine ⟨?_, Nat.add_mod_right _ _⟩
      simp [bitOf] at hdiff
      rw [Nat.add_div_right _ hpos]
      simp [ofBool, hdiff]
    · next hclear =>
      obtain rfl : b = false := by simpa using hclear
      simp [bitOf] at hdiff
      obtain ⟨u, rfl⟩ : ∃ u, v = u + 2 ^ n := by
        refine ⟨v - 2 ^ n, (Nat.sub_add_cancel (Nat.le_of_not_lt fun hlt => ?_)).symm⟩
        simp [Nat.div_eq_of_lt hlt] at hdiff
      rw [Nat.add_div_right _ hpos] at hdiff ⊢
      rw [Nat.add_sub_cancel, hdiff]
      exact ⟨rfl, (Nat.add_mod_right _ _).symm⟩

theorem bitOf_putBit_same {v n : Nat} {b : Bool} : bitOf (putBit v n b) n = b := by
  rw [bitOf, (putBit_div_mod v n b).1]
  cases b <;> simp [ofBool] <;> omega

theorem bitOf_putBit_ne {v n m : Nat} {b : Bool} (hne : m ≠ n) : bitOf (putBit v n b) m = bitOf v m := by
  obtain ⟨hdiv, hmod⟩ := putBit_div_mod v n b
  rcases Nat.lt_or_gt_of_ne hne with hlt | hgt
  · obtain ⟨d, rfl⟩ : ∃ d, n = m + (1 + d) := ⟨n - m - 1, by omega⟩
    have hlow (x : Nat) : x / 2 ^ m % 2 = x % 2 ^ (m + (1 + d)) / 2 ^ m % 2 := by
      rw [Nat.pow_add, Nat.mod_mul_right_div_self, Nat.pow_add, Nat.pow_one, Nat.mod_mul_right_mod]
    rw [bitOf, bitOf, hlow, hmod, ← hlow]
  · obtain ⟨d, rfl⟩ : ∃ d, m = n + (1 + d) := ⟨m - n - 1, by omega⟩
    have hhigh (x : Nat) : x / 2 ^ (n + (1 + d)) = x / 2 ^ n / 2 / 2 ^ d := by
      rw [Nat.pow_add, Nat.pow_add, Nat.pow_one, Nat.div_div_eq_div_mul, Nat.div_div_eq_div_mul]
    have hhalf : (v / 2 ^ n - v / 2 ^ n % 2 + ofBool b) / 2 = v / 2 ^ n / 2 := by
      have hbit : ofBool b < 2 := by cases b <;> decide
      generalize v / 2 ^ n = q
      omega
    rw [bitOf, bitOf, hhigh, hdiv, hhalf, ← hhigh]

theorem putBit_true_ne_zero {v n : Nat} : putBit v n true ≠ 0 := by
  intro h
  have hbit : bitOf (putBit v n true) n = true := bitOf_putBit_same
  rw [h] at hbit
  simp [bitOf] at hbit

/-! ## The fault words of the block and SNS_STATUS -/

section
variable {s t : State}

/-- SNS_STATUS and the cause word of its interrupt. -/
abbrev snsStatusRegs : List Nat := [Reg.SNS_STATUS.addr 0 0, Reg.SYS_IRQ_CAUSE.addr 1 0]

theorem State.writes_snsStatus (hs : s.canonical = true) : Writes s s.snsStatus snsStatusRegs :=
  .causeIf (.setF (.refl hs) (by decide)) (by decide)

/-- Where a fault bit stands, SNS_STATUS shows it, and its interrupt's cause is raised unless it stood before. -/
theorem State.snsStatus_of_fault
    (hfault : s.getF Reg.SNS_FAULT_DS ≠ 0 ∨ s.getF Reg.SNS_FAULT_OTH ≠ 0) :
    s.snsStatus = (s.setF Reg.SNS_STATUS_FAULT 1).causeIf (!s.isF Reg.SNS_STATUS_FAULT) 1 0 := by
  have hany : (decide (s.getF Reg.SNS_FAULT_DS ≠ 0) || decide (s.getF Reg.SNS_FAULT_OTH ≠ 0)) = true := by simpa using hfault
  simp only [State.snsStatus, hany, Bool.true_and]
  rfl

theorem State.setsField_snsStatus (hs : s.canonical = true)
    (hfault : s.getF Reg.SNS_FAULT_DS ≠ 0 ∨ s.getF Reg.SNS_FAULT_OTH ≠ 0) : SetsField s s.snsStatus Reg.SNS_STATUS_FAULT 0 1 := by
  rw [State.snsStatus_of_fault hfault]
  exact (Writes.refl hs).setsField (as := []) (bs := [Reg.SYS_IRQ_CAUSE.addr 1 0])
    (.causeIf (.refl (State.canonical_setF hs _ _ _ _)) (by decide)) (by decide) (by decide)

theorem State.isF_fault_snsStatus (hs : s.canonical = true)
    (hfault : s.getF Reg.SNS_FAULT_DS ≠ 0 ∨ s.getF Reg.SNS_FAULT_OTH ≠ 0) : s.snsStatus.isF Reg.SNS_STATUS_FAULT = true := by
  rw [State.isF, State.getF, State.setsField_snsStatus hs hfault, Fld.of_into _ _ _ (by decide)]
  rfl

theorem State.raises_snsStatus (hs : s.canonical = true)
    (hfault : s.getF Reg.SNS_FAULT_DS ≠ 0 ∨ s.getF Reg.SNS_FAULT_OTH ≠ 0) (hquiet : s.isF Reg.SNS_STATUS_FAULT = false) :
    Raises s s.snsStatus 1 [0] := by
  rw [State.snsStatus_of_fault hfault, hquiet]
  exact Raises.cause (bits := []) (.none (State.onlyRegs_setF hs _ _ _ _) (by decide)) (State.canonical_setF hs _ _ _ _) (by decide)

/-! ## Samples that go on to tiles and capture rings -/

/-- The states differ in the samples that tiles hold alone. -/
def TilesAlone (s t : State) : Prop := t = { s with sns := { s.sns with ft := t.sns.ft } }

/-- The states differ in the samples that capture rings hold alone. -/
def RingsAlone (s t : State) : Prop := t = { s with ctx := t.ctx }

theorem State.feedTiles_tilesAlone {src : Nat} {x : Int × Nat} : TilesAlone s (s.feedTiles src x) := by
  refine List.foldlRecOn (motive := TilesAlone s) _ _ rfl fun b hb n _ => ?_
  unfold TilesAlone at hb ⊢
  generalize b.sns.ft = tiles at hb
  subst hb
  split <;> rfl

theorem State.capture_ringsAlone {src now word : Nat} {cut : Bool} : RingsAlone s (s.capture src now word cut) := by
  refine List.foldlRecOn (motive := RingsAlone s) _ _ rfl fun b hb n _ => ?_
  unfold RingsAlone at hb ⊢
  generalize b.ctx = rings at hb
  subst hb
  split <;> rfl

theorem State.captureSkip_ringsAlone {src : Nat} : RingsAlone s (s.captureSkip src) := by
  refine List.foldlRecOn (motive := RingsAlone s) _ _ rfl fun b hb n _ => ?_
  unfold RingsAlone at hb ⊢
  generalize b.ctx = rings at hb
  subst hb
  split
  · split <;> rfl
  · rfl

end

/-! ## Coulomb counters (R60 to R70) -/

/-- The states differ in registers, in what the sense block holds beside them, and in the samples of capture rings alone. -/
def SenseAlone (s t : State) : Prop := t = { s with regs := t.regs, sns := t.sns, ctx := t.ctx }

section
variable {s t u : State} {f : Fld} {i j v : Nat}

theorem SenseAlone.trans (hst : SenseAlone s t) (htu : SenseAlone t u) : SenseAlone s u := by
  unfold SenseAlone at hst htu ⊢
  generalize t.regs = regs, t.sns = sns, t.ctx = ctx at hst
  subst hst
  generalize u.regs = regs, u.sns = sns, u.ctx = ctx at htu
  subst htu
  rfl

theorem RegsAlone.orSense (h : RegsAlone s t) : SenseAlone s t := by
  unfold RegsAlone at h
  generalize t.regs = regs at h
  subst h
  rfl

theorem RingsAlone.orSense (h : RingsAlone s t) : SenseAlone s t := by
  unfold RingsAlone at h
  generalize t.ctx = ctx at h
  subst h
  rfl

theorem TilesAlone.orSense (h : TilesAlone s t) : SenseAlone s t := by
  unfold TilesAlone at h
  generalize t.sns.ft = tiles at h
  subst h
  rfl

theorem SenseAlone.sns {x : SnsState} : SenseAlone s { s with sns := x } := rfl

theorem SenseAlone.ite {c : Prop} {_ : Decidable c} (ht : SenseAlone s t) (hu : SenseAlone s u) :
    SenseAlone s (if c then t else u) := by
  split
  · exact ht
  · exact hu

theorem RegsAlone.ite {c : Prop} {_ : Decidable c} (ht : RegsAlone s t) (hu : RegsAlone s u) :
    RegsAlone s (if c then t else u) := by
  split
  · exact ht
  · exact hu

theorem RegsAlone.causeIf {b : Bool} {vector bit : Nat} (h : RegsAlone s t) : RegsAlone s (t.causeIf b vector bit) := .ite h.cause h

theorem RegsAlone.snsStatus (h : RegsAlone s t) : RegsAlone s t.snsStatus := .causeIf h.setF

end

/-- A block of CC channel `k` has been counted: its accumulator and remainder, the settings for the next block, and T_s where it lay in
this one (R61, R62, R67, R70). -/
def State.ccCounted (s : State) (k : Nat) (r : Int) (now : Nat) : State :=
  { s with sns := { s.sns with
    ccAcc := Sparse.upd 0 s.sns.ccAcc k (s.ccNext k r)
    ccRem := Sparse.upd 0 s.sns.ccRem k (s.ccCharge k r % 16384000000).toNat
    ccCal := Sparse.insert s.sns.ccCal k (s.ccSettings k)
    packWait := if s.ccPacks k now then putBit s.sns.packWait k false else s.sns.packWait } }

/-- CC channel `k` shows a block's current, its calibrated sum and the accumulator (R63, R64). -/
def State.ccShown (s : State) (k : Nat) (cur cal : Int) : State :=
  ((s.setS Reg.SNS_CC_CUR cur (40 + k)).setS Reg.SNS_CH_DATA cal (40 + k)).setF Reg.SNS_CC_ACC0 (s.ccWord k 0) (40 + k)

/-- CC channel `k` shows a sum beyond its range. -/
def State.ccOver (s : State) (k : Nat) : State :=
  ((s.setF Reg.SNS_CH_STAT_OVR 1 (40 + k)).setF Reg.SNS_FAULT_OTH_OVR (putBit (s.getF Reg.SNS_FAULT_OTH_OVR) k true)).snsStatus

/-- CC channel `k` shows a saturated sum, an accumulator that wrapped, and a sum beyond its range. -/
def State.ccFlagged (s : State) (k : Nat) (sat : Bool) (acc sum : Int) (beyond : Bool) : State :=
  let s := if sat then s.setF Reg.SNS_CH_STAT_SAT 1 (40 + k) else s
  let s := if acc ≠ sum then s.setF Reg.SNS_CH_STAT_WRAP 1 (40 + k) else s
  if beyond then s.ccOver k else s

/-- The current of the block that contains T_s, with its OVR flag, joins the pack record (R70). -/
def State.ccPacked (s : State) (k : Nat) (cur : Int) (beyond : Bool) : State :=
  let s := if k = 0 then s.setS Reg.SNS_PACK_I0 cur else s.setS Reg.SNS_PACK_I1 cur
  if k = 0 then s.setF Reg.SNS_PACK_FLAGS_CC0_OVR (ofBool beyond) else s.setF Reg.SNS_PACK_FLAGS_CC1_OVR (ofBool beyond)

/-- The block joins the second under way, or completes it (17 R408). -/
def State.ccSeconds (s : State) (k : Nat) (cur : Int) : State :=
  let sec : Nat × Int := Sparse.at (0, 0) s.sns.ccSecond k
  if sec.1 + 1 < 64000 then { s with sns := { s.sns with ccSecond := Sparse.upd (0, 0) s.sns.ccSecond k (sec.1 + 1, sec.2 + cur) } }
  else { s with sns := { s.sns with
    ccSecond := Sparse.upd (0, 0) s.sns.ccSecond k (0, 0), ccMean := Sparse.upd 0 s.sns.ccMean k (sec.2 + cur) } }

/-- A block's sum goes on to capture rings and tiles. -/
def State.ccFed (s : State) (k now : Nat) (cal : Int × Bool) : State :=
  let flags := (if cal.2 then flagSat else 0) + if s.meetsNotch (((now : Int) - 15625) * 16) (now * 16 : Nat) then flagNotch else 0
  (s.capture (0x144 + k) now (captureWord cal.1 flags)).feedTiles (40 + k) (cal.1, flags)

/-- Whether a block's sum of `r` millivolts lies beyond the range (R60). -/
def ccBeyond (r : Int) : Bool := 100 < r || r < -100

/-- A block of CC channel `k` has been counted, and its values and flags are shown. -/
def State.ccReported (s : State) (k : Nat) (r : Int) (now : Nat) : State :=
  ((s.ccCounted k r now).ccShown k (s.ccCurrent k r) (s.ccCalibrated k r).1).ccFlagged k (s.ccCalibrated k r).2 (s.ccNext k r)
    (Sparse.at 0 s.sns.ccAcc k + s.ccCharge k r / 16384000000) (ccBeyond r)

/-- What a block of CC channel `k` leaves in registers. -/
def State.ccRecorded (s : State) (k : Nat) (r : Int) (now : Nat) : State :=
  if s.ccPacks k now then (s.ccReported k r now).ccPacked k (s.ccCurrent k r) (ccBeyond r) else s.ccReported k r now

section
variable {s t : State} {k now path : Nat} {r : Int}

theorem exec_ccBlock_running (hk : k < 2) (hruns : s.runs (12 + k) = true) :
    exec (.ccBlock k r now) s =
      .next (((s.ccRecorded k r now).ccSeconds k (s.ccCurrent k r)).ccFed k now (s.ccCalibrated k r)) := by
  show execCcBlock k r now s = _
  have hpacks : s.ccPacks k now = (bitOf s.sns.packWait k && match s.sns.ts with | some ts => decide (ts < now) | none => true) := by
    unfold State.ccPacks
    cases s.sns.ts <;> rfl
  rw [execCcBlock, if_neg (by simp [hruns, hk]), State.ccRecorded, State.ccReported, State.ccCounted, hpacks]
  rfl


/-! The registers that each part writes. -/

abbrev ccShownRegs (k : Nat) : List Nat := [Reg.SNS_CC_CUR.addr (40 + k) 0, Reg.SNS_CH_DATA.addr (40 + k) 0, Reg.SNS_CC_ACC0.addr (40 + k) 0]

abbrev ccFlagRegs (k : Nat) : List Nat := Reg.SNS_CH_STAT.addr (40 + k) 0 :: Reg.SNS_FAULT_OTH.addr 0 0 :: snsStatusRegs

abbrev ccPackRegs (k : Nat) : List Nat :=
  [(if k = 0 then Reg.SNS_PACK_I0 else Reg.SNS_PACK_I1).addr 0 0, Reg.SNS_PACK_FLAGS_CC0_OVR.addr 0 0]

theorem State.writes_ccShown {cur cal : Int} (hs : s.canonical = true) : Writes s (s.ccShown k cur cal) (ccShownRegs k) :=
  .setF (.setS (.setS (.refl hs) (by simp)) (by simp)) (by simp)

theorem State.writes_ccOver (hs : s.canonical = true) : Writes s (s.ccOver k) (ccFlagRegs k) :=
  have hfault := ((Writes.refl hs).setF (f := Reg.SNS_CH_STAT_OVR) (v := 1) (i := 40 + k) (as := ccFlagRegs k) (by simp [Fld.addr])).setF
    (f := Reg.SNS_FAULT_OTH_OVR) (v := putBit (s.getF Reg.SNS_FAULT_OTH_OVR) k true) (i := 0) (j := 0) (by simp [Fld.addr])
  hfault.trans ((State.writes_snsStatus hfault.canonical).mono (by simp))

theorem State.writes_ccFlagged {sat beyond : Bool} {acc sum : Int} (hs : s.canonical = true) :
    Writes s (s.ccFlagged k sat acc sum beyond) (ccFlagRegs k) := by
  unfold State.ccFlagged
  extract_lets a b
  have ha : Writes s a (ccFlagRegs k) := .ite (.setF (.refl hs) (by simp [Fld.addr])) (.refl hs)
  have hb : Writes s b (ccFlagRegs k) := .ite (.setF ha (by simp [Fld.addr])) ha
  exact .ite (hb.trans (State.writes_ccOver hb.canonical)) hb

theorem State.writes_ccPacked {cur : Int} {beyond : Bool} (hs : s.canonical = true) :
    Writes s (s.ccPacked k cur beyond) (ccPackRegs k) := by
  unfold State.ccPacked
  by_cases hk : k = 0
  · simp only [hk, if_true]
    exact .setF (.setS (.refl hs) (by decide)) (by decide)
  · simp only [if_neg hk]
    exact .setF (.setS (.refl hs) (by simp [hk])) (by simp [Fld.addr])

end

section
variable {s t u w : State} {k now path : Nat} {r : Int} {as bs : List Nat} {f : Fld} {i j v : Nat}

/-- A field set in one part of a chain reads so at its end. -/
theorem SetsField.within (h : SetsField t u f i v j) (hst : Writes s t as) (huw : Writes u w bs) (has : f.addr i j ∉ as)
    (hbs : f.addr i j ∉ bs) : SetsField s w f i v j := by
  rw [SetsField, huw.rd hbs, h, hst.rd has]

theorem SetsField.isF (h : SetsField s t f i 1 j) (hlo : f.lo < 32) (hw : f.w = 1) : t.isF f i j = true := by
  rw [State.isF, State.getF, h, Fld.of_into f _ _ (by omega), hw]
  rfl

/-! What each part shows. -/

theorem State.setsField_ccShown_cur {cur cal : Int} (hs : s.canonical = true) :
    SetsField s (s.ccShown k cur cal) Reg.SNS_CC_CUR (40 + k) (unsign 32 cur) :=
  (Writes.refl hs).setsField (as := []) (bs := [Reg.SNS_CH_DATA.addr (40 + k) 0, Reg.SNS_CC_ACC0.addr (40 + k) 0])
    (.setF (.setS (.refl (State.canonical_setF hs _ _ _ _)) (by simp)) (by simp)) (by simp) (by simp [Fld.addr])

theorem State.setsField_ccShown_data {cur cal : Int} (hs : s.canonical = true) :
    SetsField s (s.ccShown k cur cal) Reg.SNS_CH_DATA (40 + k) (unsign 32 cal) :=
  have hcur : Writes s (s.setS Reg.SNS_CC_CUR cur (40 + k)) [Reg.SNS_CC_CUR.addr (40 + k) 0] := .setS (.refl hs) (by simp)
  hcur.setsField (bs := [Reg.SNS_CC_ACC0.addr (40 + k) 0])
    (.setF (.refl (State.canonical_setF hcur.canonical _ _ _ _)) (by simp)) (by simp [Fld.addr]) (by simp [Fld.addr])

theorem State.setsField_ccShown_acc {cur cal : Int} (hs : s.canonical = true) :
    SetsField s (s.ccShown k cur cal) Reg.SNS_CC_ACC0 (40 + k) (s.ccWord k 0) :=
  have hdata : Writes s ((s.setS Reg.SNS_CC_CUR cur (40 + k)).setS Reg.SNS_CH_DATA cal (40 + k))
      [Reg.SNS_CC_CUR.addr (40 + k) 0, Reg.SNS_CH_DATA.addr (40 + k) 0] := .setS (.setS (.refl hs) (by simp)) (by simp)
  hdata.setsField (bs := []) (.refl (State.canonical_setF hdata.canonical _ _ _ _)) (by simp [Fld.addr]) (by simp)

/-- After OVR, a sum beyond the range writes the fault words alone. -/
theorem State.writes_ccOver_afterFlag (hs : s.canonical = true) :
    Writes (s.setF Reg.SNS_CH_STAT_OVR 1 (40 + k)) (s.ccOver k) (Reg.SNS_FAULT_OTH.addr 0 0 :: snsStatusRegs) :=
  have hfault := (Writes.refl (State.canonical_setF hs _ _ _ _)).setF (f := Reg.SNS_FAULT_OTH_OVR) (i := 0) (j := 0) (by decide)
  hfault.trans ((State.writes_snsStatus hfault.canonical).mono (by decide))

theorem State.isF_ccOver (hs : s.canonical = true) : (s.ccOver k).isF Reg.SNS_CH_STAT_OVR (40 + k) = true :=
  ((State.writes_ccOver_afterFlag hs).isF (by simp [Fld.addr]; omega)).trans (State.isF_setF_one hs (by decide) rfl)

theorem State.setsField_ccOver (hs : s.canonical = true) :
    SetsField s (s.ccOver k) Reg.SNS_FAULT_OTH_OVR 0 (putBit (s.getF Reg.SNS_FAULT_OTH_OVR) k true) :=
  have hovr : Writes s (s.setF Reg.SNS_CH_STAT_OVR 1 (40 + k)) [Reg.SNS_CH_STAT.addr (40 + k) 0] :=
    .setF (.refl hs) (by simp [Fld.addr])
  hovr.setsField (State.writes_snsStatus (State.canonical_setF hovr.canonical _ _ _ _)) (by simp [Fld.addr]; omega) (by decide)

/-- Of the flags of CC channel `k`, those that a sum beyond the range leaves alone. -/
theorem State.isF_ccOver_ne (hs : s.canonical = true) (hf : s.isF f (40 + k) = true)
    (hd : f.lo + f.w ≤ Reg.SNS_CH_STAT_OVR.lo) (haddr : f.addr (40 + k) 0 = Reg.SNS_CH_STAT.addr (40 + k) 0) :
    (s.ccOver k).isF f (40 + k) = true := by
  exact ((State.writes_ccOver_afterFlag hs).isF (by rw [haddr]; simp [Fld.addr]; omega)).trans
    (State.isF_setF_of_isF hs hf (.inr (.inl hd)) (by decide))

section
variable {sat beyond : Bool} {acc sum : Int}

theorem State.ccFlagged_over (hs : s.canonical = true) (hbeyond : beyond = true) :
    (s.ccFlagged k sat acc sum beyond).isF Reg.SNS_CH_STAT_OVR (40 + k) = true ∧
      SetsField s (s.ccFlagged k sat acc sum beyond) Reg.SNS_FAULT_OTH_OVR 0 (putBit (s.getF Reg.SNS_FAULT_OTH_OVR) k true) := by
  unfold State.ccFlagged
  extract_lets a b
  have ha : Writes s a [Reg.SNS_CH_STAT.addr (40 + k) 0] := .ite (.setF (.refl hs) (by simp [Fld.addr])) (.refl hs)
  have hb : Writes s b [Reg.SNS_CH_STAT.addr (40 + k) 0] := .ite (.setF ha (by simp [Fld.addr])) ha
  have hnot : Reg.SNS_FAULT_OTH_OVR.addr 0 0 ∉ [Reg.SNS_CH_STAT.addr (40 + k) 0] := by simp [Fld.addr]; omega
  rw [if_pos hbeyond, ← hb.getF hnot]
  exact ⟨State.isF_ccOver hb.canonical, (State.setsField_ccOver hb.canonical).within hb (.refl (as := []) (State.writes_ccOver
    hb.canonical).canonical) hnot (by simp)⟩

theorem State.ccFlagged_wrap (hs : s.canonical = true) (hwrap : acc ≠ sum) :
    (s.ccFlagged k sat acc sum beyond).isF Reg.SNS_CH_STAT_WRAP (40 + k) = true := by
  unfold State.ccFlagged
  extract_lets a b
  have ha : Writes s a [Reg.SNS_CH_STAT.addr (40 + k) 0] := .ite (.setF (.refl hs) (by simp [Fld.addr])) (.refl hs)
  have hb : Writes s b [Reg.SNS_CH_STAT.addr (40 + k) 0] := .ite (.setF ha (by simp [Fld.addr])) ha
  have hset : b.isF Reg.SNS_CH_STAT_WRAP (40 + k) = true := by
    rw [show b = _ from if_pos hwrap]
    exact State.isF_setF_one ha.canonical (by decide) rfl
  split
  · exact State.isF_ccOver_ne hb.canonical hset (by decide) rfl
  · exact hset

theorem State.ccFlagged_sat (hs : s.canonical = true) (hsat : sat = true) :
    (s.ccFlagged k sat acc sum beyond).isF Reg.SNS_CH_STAT_SAT (40 + k) = true := by
  unfold State.ccFlagged
  extract_lets a b
  have ha : Writes s a [Reg.SNS_CH_STAT.addr (40 + k) 0] := .ite (.setF (.refl hs) (by simp [Fld.addr])) (.refl hs)
  have hb : Writes s b [Reg.SNS_CH_STAT.addr (40 + k) 0] := .ite (.setF ha (by simp [Fld.addr])) ha
  have hset : a.isF Reg.SNS_CH_STAT_SAT (40 + k) = true := by
    rw [show a = _ from if_pos hsat]
    exact State.isF_setF_one hs (by decide) rfl
  have hkept : b.isF Reg.SNS_CH_STAT_SAT (40 + k) = true := by
    by_cases hwrap : acc ≠ sum
    · rw [show b = _ from if_pos hwrap]
      exact State.isF_setF_of_isF ha.canonical hset (.inr (.inr (by decide))) (by decide)
    · rwa [show b = _ from if_neg hwrap]
  split
  · exact State.isF_ccOver_ne hb.canonical hkept (by decide) rfl
  · exact hkept

end

theorem State.setsField_ccPacked {cur : Int} {beyond : Bool} (hs : s.canonical = true) :
    SetsField s (s.ccPacked k cur beyond) (if k = 0 then Reg.SNS_PACK_I0 else Reg.SNS_PACK_I1) 0 (unsign 32 cur) ∧
      SetsField s (s.ccPacked k cur beyond) (if k = 0 then Reg.SNS_PACK_FLAGS_CC0_OVR else Reg.SNS_PACK_FLAGS_CC1_OVR) 0
        (ofBool beyond) := by
  unfold State.ccPacked
  split
  · have hcur : Writes s (s.setS Reg.SNS_PACK_I0 cur) [Reg.SNS_PACK_I0.addr 0 0] := .setS (.refl hs) (by decide)
    exact ⟨(Writes.refl hs).setsField (as := []) (bs := [Reg.SNS_PACK_FLAGS.addr 0 0]) (.setF (.refl hcur.canonical) (by decide))
      (by decide) (by decide), hcur.setsField (bs := []) (.refl (State.canonical_setF hcur.canonical _ _ _ _)) (by decide) (by decide)⟩
  · have hcur : Writes s (s.setS Reg.SNS_PACK_I1 cur) [Reg.SNS_PACK_I1.addr 0 0] := .setS (.refl hs) (by decide)
    exact ⟨(Writes.refl hs).setsField (as := []) (bs := [Reg.SNS_PACK_FLAGS.addr 0 0]) (.setF (.refl hcur.canonical) (by decide))
      (by decide) (by decide), hcur.setsField (bs := []) (.refl (State.canonical_setF hcur.canonical _ _ _ _)) (by decide) (by decide)⟩

/-! The block as a whole. -/

theorem ccBeyond_eq : ccBeyond r = decide (100 < r ∨ r < -100) := (Bool.decide_or _ _).symm

theorem ccBeyond_of (h : 100 < r ∨ r < -100) : ccBeyond r = true := by simpa [ccBeyond] using h

theorem State.writes_ccCounted (hs : s.canonical = true) : Writes s (s.ccCounted k r now) [] := (Writes.refl hs).frame

theorem State.writes_ccReported (hs : s.canonical = true) :
    Writes s (s.ccReported k r now) (ccShownRegs k ++ ccFlagRegs k) :=
  have hcounted := State.writes_ccCounted (k := k) (r := r) (now := now) hs
  have hshown := (State.writes_ccShown (k := k) (cur := s.ccCurrent k r) (cal := (s.ccCalibrated k r).1) hcounted.canonical)
  (hcounted.append hshown).append (State.writes_ccFlagged hshown.canonical)

theorem State.writes_ccRecorded_last (hs : s.canonical = true) :
    Writes (s.ccReported k r now) (s.ccRecorded k r now) (ccPackRegs k) :=
  have hreported := (State.writes_ccReported (k := k) (r := r) (now := now) hs).canonical
  .ite (State.writes_ccPacked hreported) (.refl hreported)

theorem RegsAlone.ccOver (h : RegsAlone s t) : RegsAlone s (t.ccOver k) := .snsStatus h.setF.setF

theorem RegsAlone.ccFlagged {sat beyond : Bool} {acc sum : Int} (h : RegsAlone s t) :
    RegsAlone s (t.ccFlagged k sat acc sum beyond) := by
  unfold State.ccFlagged
  extract_lets a b
  have ha : RegsAlone s a := .ite h.setF h
  have hb : RegsAlone s b := .ite ha.setF ha
  exact .ite hb.ccOver hb

theorem RegsAlone.ccPacked {cur : Int} {beyond : Bool} (h : RegsAlone s t) : RegsAlone s (t.ccPacked k cur beyond) := by
  unfold State.ccPacked
  split
  · exact h.setF.setF
  · exact h.setF.setF

theorem State.regsAlone_ccRecorded : RegsAlone (s.ccCounted k r now) (s.ccRecorded k r now) :=
  have hreported : RegsAlone (s.ccCounted k r now) (s.ccReported k r now) := .ccFlagged <| .setF <| .setF <| .setF .refl
  .ite hreported.ccPacked hreported

theorem RegsAlone.sns (h : RegsAlone s t) : t.sns = s.sns := by
  unfold RegsAlone at h
  rw [h]

/-- What a block leaves beside registers in the state that goes on to tiles and capture rings. -/
theorem State.ccFed_ccSeconds {cur : Int} {cal : Int × Bool} :
    ∃ sns ctx, (s.ccSeconds k cur).ccFed k now cal = { s with sns := sns, ctx := ctx } ∧ sns.ccAcc = s.sns.ccAcc ∧
      sns.ccRem = s.sns.ccRem ∧ sns.ccCal = s.sns.ccCal ∧ sns.packWait = s.sns.packWait := by
  have hseconds : ∃ a b, s.ccSeconds k cur = { s with sns := { s.sns with ccSecond := a, ccMean := b } } := by
    unfold State.ccSeconds
    dsimp only
    split
    · exact ⟨_, s.sns.ccMean, rfl⟩
    · exact ⟨_, _, rfl⟩
  obtain ⟨a, b, hseconds⟩ := hseconds
  rw [hseconds, State.ccFed, State.feedTiles_tilesAlone, State.capture_ringsAlone]
  exact ⟨_, _, rfl, rfl, rfl, rfl, rfl⟩

end

/-! ## The current of a block (R64) -/

section
variable {s : State} {k : Nat} {r n : Int} {d : Nat}

theorem roundEven_spec (hd : 0 < d) :
    2 * (n - roundEven n d * d).natAbs ≤ d ∧ (2 * (n - roundEven n d * d).natAbs = d → roundEven n d % 2 = 0) := by
  have hpos : (0 : Int) < d := by exact_mod_cast hd
  have hdiv := Int.mul_ediv_add_emod n d
  have hlo := Int.emod_nonneg n hpos.ne'
  have hhi := Int.emod_lt_of_pos n hpos
  have hzero : n - n / d * d = n % d := by linarith [mul_comm (d : Int) (n / d)]
  have hone : n - (n / d + 1) * d = n % d - d := by linarith [add_mul (n / (d : Int)) 1 d, one_mul (d : Int)]
  unfold roundEven
  dsimp only
  split
  · rw [hzero]; omega
  · split
    · rw [hone]; omega
    · split
      · rw [hzero]; omega
      · rw [hone]; omega

theorem clampInt_mem {lo hi x : Int} (h : lo ≤ hi) : lo ≤ clampInt lo hi x ∧ clampInt lo hi x ≤ hi := by
  unfold clampInt
  split
  · omega
  · split <;> omega

/-- A calibrated sample is one of 24 bits (R65). -/
theorem calibrate_range {fgain ugain : Nat} {foff uoff x : Int} {pol : Bool} :
    -(2 ^ 23 - 1) ≤ (calibrate fgain ugain foff uoff pol x).1 ∧ (calibrate fgain ugain foff uoff pol x).1 ≤ 2 ^ 23 - 1 :=
  clampInt_mem (by decide)

theorem signed_unsign_32 {x : Int} (hlo : -2 ^ 31 ≤ x) (hhi : x < 2 ^ 31) : signed 32 (unsign 32 x) = x := by
  unfold signed unsign
  split <;> omega

/-- With a COND of 32 bits the current is no greater than the calibrated sum. -/
theorem State.ccCurrent_range (hcond : s.ccWordOf k 3 < 2 ^ 32) : -2 ^ 31 ≤ s.ccCurrent k r ∧ s.ccCurrent k r < 2 ^ 31 := by
  have hnear := (roundEven_spec (n := (s.ccCalibrated k r).1 * (s.ccWordOf k 3 : Int)) (d := 2 ^ 32) (by decide)).1
  obtain ⟨hlo, hhi⟩ : -(2 ^ 23 - 1) ≤ (s.ccCalibrated k r).1 ∧ (s.ccCalibrated k r).1 ≤ 2 ^ 23 - 1 := calibrate_range
  change 2 * (_ - s.ccCurrent k r * _).natAbs ≤ _ at hnear
  have hcond' : (s.ccWordOf k 3 : Int) ≤ 2 ^ 32 - 1 := by omega
  have hprodHi : (s.ccCalibrated k r).1 * (s.ccWordOf k 3 : Int) ≤ (2 ^ 23 - 1) * (2 ^ 32 - 1) := by nlinarith
  have hprodLo : -((2 ^ 23 - 1) * (2 ^ 32 - 1)) ≤ (s.ccCalibrated k r).1 * (s.ccWordOf k 3 : Int) := by nlinarith
  generalize (s.ccCalibrated k r).1 * (s.ccWordOf k 3 : Int) = x at hnear hprodHi hprodLo
  omega

end

section
variable {s t u w : State} {k now path : Nat} {r : Int} {as bs : List Nat} {f : Fld} {a i j v : Nat}

/-- The words of the pack record lie below those of the channels. -/
theorem not_mem_ccPackRegs (ha : 0x40038 < a) : a ∉ ccPackRegs k := by
  by_cases hk : k = 0 <;> simp [hk, Fld.addr] <;> omega

theorem State.writes_ccRecorded (hs : s.canonical = true) :
    Writes s (s.ccRecorded k r now) (ccShownRegs k ++ ccFlagRegs k ++ ccPackRegs k) :=
  (State.writes_ccReported hs).append (State.writes_ccRecorded_last hs)

/-- What a block shows of its values stays when its flags and the pack record are written. -/
theorem State.setsField_ccRecorded (hs : s.canonical = true)
    (h : SetsField (s.ccCounted k r now) ((s.ccCounted k r now).ccShown k (s.ccCurrent k r) (s.ccCalibrated k r).1) f (40 + k) v)
    (hflags : f.addr (40 + k) 0 ∉ ccFlagRegs k) (hpack : f.addr (40 + k) 0 ∉ ccPackRegs k) :
    SetsField s (s.ccRecorded k r now) f (40 + k) v := by
  have hcounted := State.writes_ccCounted (k := k) (r := r) (now := now) hs
  have hshown := (State.writes_ccShown (k := k) (cur := s.ccCurrent k r) (cal := (s.ccCalibrated k r).1) hcounted.canonical).canonical
  refine h.within hcounted (bs := ccFlagRegs k ++ ccPackRegs k) ?_ (by simp) (by simp only [List.mem_append, not_or]; exact ⟨hflags, hpack⟩)
  exact (State.writes_ccFlagged hshown).append (State.writes_ccRecorded_last hs)

theorem State.ccRecorded_cur (hs : s.canonical = true) :
    SetsField s (s.ccRecorded k r now) Reg.SNS_CC_CUR (40 + k) (unsign 32 (s.ccCurrent k r)) :=
  State.setsField_ccRecorded hs (State.setsField_ccShown_cur (State.writes_ccCounted hs).canonical)
    (by simp [Fld.addr]; omega) (not_mem_ccPackRegs (by simp [Fld.addr]; omega))

theorem State.ccRecorded_data (hs : s.canonical = true) :
    SetsField s (s.ccRecorded k r now) Reg.SNS_CH_DATA (40 + k) (unsign 32 (s.ccCalibrated k r).1) :=
  State.setsField_ccRecorded hs (State.setsField_ccShown_data (State.writes_ccCounted hs).canonical)
    (by simp [Fld.addr]; omega) (not_mem_ccPackRegs (by simp [Fld.addr]; omega))

theorem State.ccRecorded_acc (hs : s.canonical = true) :
    SetsField s (s.ccRecorded k r now) Reg.SNS_CC_ACC0 (40 + k) ((s.ccCounted k r now).ccWord k 0) :=
  State.setsField_ccRecorded hs (State.setsField_ccShown_acc (State.writes_ccCounted hs).canonical)
    (by simp [Fld.addr]; omega) (not_mem_ccPackRegs (by simp [Fld.addr]; omega))

/-- The flags of a block stay when the pack record is written. -/
theorem State.isF_ccRecorded (hs : s.canonical = true) (h : (s.ccReported k r now).isF f (40 + k) = true)
    (haddr : f.addr (40 + k) 0 = Reg.SNS_CH_STAT.addr (40 + k) 0) : (s.ccRecorded k r now).isF f (40 + k) = true :=
  ((State.writes_ccRecorded_last hs).isF (not_mem_ccPackRegs (by rw [haddr]; simp [Fld.addr]; omega))).trans h

theorem State.writes_ccShown_counted (hs : s.canonical = true) :
    Writes s ((s.ccCounted k r now).ccShown k (s.ccCurrent k r) (s.ccCalibrated k r).1) (ccShownRegs k) :=
  have hcounted := State.writes_ccCounted (k := k) (r := r) (now := now) hs
  hcounted.append (State.writes_ccShown hcounted.canonical)

theorem State.ccRecorded_over (hs : s.canonical = true) (hover : 100 < r ∨ r < -100) :
    (s.ccRecorded k r now).isF Reg.SNS_CH_STAT_OVR (40 + k) = true ∧
      SetsField s (s.ccRecorded k r now) Reg.SNS_FAULT_OTH_OVR 0 (putBit (s.getF Reg.SNS_FAULT_OTH_OVR) k true) := by
  have hshown := State.writes_ccShown_counted (k := k) (r := r) (now := now) hs
  obtain ⟨hovr, hfault⟩ := State.ccFlagged_over (k := k) (sat := (s.ccCalibrated k r).2) (acc := s.ccNext k r)
    (sum := Sparse.at 0 s.sns.ccAcc k + s.ccCharge k r / 16384000000) hshown.canonical (ccBeyond_of hover)
  have hnot : Reg.SNS_FAULT_OTH_OVR.addr 0 0 ∉ ccShownRegs k := by simp [Fld.addr]; omega
  rw [hshown.getF hnot] at hfault
  exact ⟨State.isF_ccRecorded hs hovr rfl, hfault.within hshown (State.writes_ccRecorded_last hs) hnot (not_mem_ccPackRegs (by decide))⟩

theorem State.ccRecorded_sat (hs : s.canonical = true) (hsat : (s.ccCalibrated k r).2 = true) :
    (s.ccRecorded k r now).isF Reg.SNS_CH_STAT_SAT (40 + k) = true :=
  State.isF_ccRecorded hs (State.ccFlagged_sat (State.writes_ccShown_counted hs).canonical hsat) rfl

theorem State.ccRecorded_wrap (hs : s.canonical = true)
    (hwrap : s.ccNext k r ≠ Sparse.at 0 s.sns.ccAcc k + s.ccCharge k r / 16384000000) :
    (s.ccRecorded k r now).isF Reg.SNS_CH_STAT_WRAP (40 + k) = true :=
  State.isF_ccRecorded hs (State.ccFlagged_wrap (State.writes_ccShown_counted hs).canonical hwrap) rfl

/-- The pack record takes the current of the block that contains T_s, and nothing from any other (R70). -/
theorem State.ccRecorded_pack (hs : s.canonical = true) (hpacks : s.ccPacks k now = true) :
    SetsField s (s.ccRecorded k r now) (if k = 0 then Reg.SNS_PACK_I0 else Reg.SNS_PACK_I1) 0 (unsign 32 (s.ccCurrent k r)) ∧
      SetsField s (s.ccRecorded k r now) (if k = 0 then Reg.SNS_PACK_FLAGS_CC0_OVR else Reg.SNS_PACK_FLAGS_CC1_OVR) 0
        (ofBool (decide (100 < r ∨ r < -100))) := by
  have hreported := State.writes_ccReported (k := k) (r := r) (now := now) hs
  rw [State.ccRecorded, if_pos hpacks, ← ccBeyond_eq]
  obtain ⟨hcur, hovr⟩ := State.setsField_ccPacked (k := k) (cur := s.ccCurrent k r) (beyond := ccBeyond r) hreported.canonical
  have hend := Writes.refl (as := []) (State.writes_ccPacked (k := k) (cur := s.ccCurrent k r) (beyond := ccBeyond r)
    hreported.canonical).canonical
  exact ⟨hcur.within hreported hend (by split <;> simp [Fld.addr] <;> omega) (by simp),
    hovr.within hreported hend (by split <;> simp [Fld.addr] <;> omega) (by simp)⟩

theorem State.ccRecorded_noPack (hs : s.canonical = true) (hpacks : s.ccPacks k now = false) :
    Writes s (s.ccRecorded k r now) (ccShownRegs k ++ ccFlagRegs k) := by
  rw [State.ccRecorded, if_neg (by simp [hpacks])]
  exact State.writes_ccReported hs

/-! ## The read of an accumulator (R63) -/

theorem unsign_lt {n : Nat} {x : Int} : unsign n x < 2 ^ n := by
  have hpos : (0 : Int) < 2 ^ n := by positivity
  have hlt := Int.emod_lt_of_pos x hpos
  have hnonneg := Int.emod_nonneg x hpos.ne'
  zify [unsign]
  rwa [Int.toNat_of_nonneg hnonneg]

theorem State.wordRead_ccAcc (hk : k < 2) :
    s.wordRead path (Reg.SNS_CC_ACC0.addr (40 + k) 0) = (s.ccLatch path k, s.ccWord k 0) := by
  obtain rfl | rfl : k = 0 ∨ k = 1 := by omega
  · rw [State.wordRead, show pairRole (Reg.SNS_CC_ACC0.addr (40 + 0) 0) = 0 by decide +kernel]
    rfl
  · rw [State.wordRead, show pairRole (Reg.SNS_CC_ACC0.addr (40 + 1) 0) = 0 by decide +kernel]
    rfl

theorem exec_ccAccRead (hk : k < 2) (hcarries : s.carries path (Reg.SNS_CC_ACC0.addr (40 + k) 0) = true) :
    exec (.ccAccRead path k) s = .next
      ((s.ccLatch path k).emit .accessDone [path, Reg.SNS_CC_ACC0.addr (40 + k) 0, s.ccWord k 0]) := by
  have hword : addressedBytes (s.ccWord k 0) (Reg.SNS_CC_ACC0.addr (40 + k) 0) 4 = s.ccWord k 0 := by
    have hmod : Reg.SNS_CC_ACC0.addr (40 + k) 0 % 4 = 0 := by simp [Fld.addr]; omega
    rw [addressedBytes, hmod]
    exact (congrArg (· % 2 ^ 32) (Nat.div_one _)).trans (Nat.mod_eq_of_lt unsign_lt)
  simp only [State.carries, Bool.and_eq_true, decide_eq_true_eq, Bool.not_eq_true'] at hcarries
  obtain ⟨⟨⟨⟨⟨hpath, hdecodes⟩, halign⟩, hblock⟩, hanswers⟩, hqueue⟩ := hcarries
  have hreaches : s.reaches path = true := by simpa [State.reaches, State.decodes, hpath] using hdecodes
  have hfree : s.free? path (Reg.SNS_CC_ACC0.addr (40 + k) 0) = true := by simp [State.free?, State.queued, hanswers, hqueue]
  have hwindow : windowOf (Reg.SNS_CC_ACC0.addr (40 + k) 0) = none := by
    rw [windowOf, if_neg (by simp [Fld.addr]; omega), if_neg (by simp [Fld.addr]; omega)]
  have hword4 : Reg.SNS_CC_ACC0.addr (40 + k) 0 / 4 * 4 = Reg.SNS_CC_ACC0.addr (40 + k) 0 := by omega
  show execCcAccRead path k s = _
  rw [execCcAccRead, if_pos hk, State.access, if_neg (by simp [hreaches]), if_neg (by simpa [accessBytes] using halign),
    if_neg (by simpa [← Option.isSome_iff_ne_none] using hblock), if_neg (by simp), if_pos hfree, State.carryOut]
  simp only [hwindow, Bool.false_eq_true, if_false, hword4, State.wordRead_ccAcc hk, hword]

end

/-- Settles O14: a block's command is `State.ccRecorded`, whose parts the rules above follow, and what goes on to tiles and rings; a read
is `State.ccLatch` with the low word. -/
theorem coulombCounters : Obligations.CoulombCounters := by
  refine ⟨?block, ?stopped, ?read⟩
  case block =>
    intro s k now r hs hk hruns
    obtain ⟨sns, ctx, hend, hacc, hrem, hcal, hwait⟩ :=
      State.ccFed_ccSeconds (s := s.ccRecorded k r now) (k := k) (now := now) (cur := s.ccCurrent k r) (cal := s.ccCalibrated k r)
    have hsns : (s.ccRecorded k r now).sns = (s.ccCounted k r now).sns := State.regsAlone_ccRecorded.sns
    rw [hsns] at hacc hrem hcal hwait
    refine ⟨{ s.ccRecorded k r now with sns := sns, ctx := ctx }, hend ▸ exec_ccBlock_running hk hruns, hacc, hrem, hcal, hwait,
      State.ccRecorded_cur hs, State.ccRecorded_data hs, ?acc, State.ccRecorded_over hs, State.ccRecorded_sat hs,
      State.ccRecorded_wrap hs, State.ccRecorded_pack hs, fun hpacks => ?noPack, ?only, ?frame⟩
    case acc =>
      have hword : (s.ccCounted k r now).ccWord k 0 = ({ s.ccRecorded k r now with sns := sns, ctx := ctx } : State).ccWord k 0 := by
        rw [State.ccWord, State.ccWord, ← hacc]
      exact hword ▸ State.ccRecorded_acc hs
    case noPack =>
      have hsame := State.ccRecorded_noPack (r := r) hs hpacks
      refine ⟨hsame.rd ?_, hsame.rd ?_, hsame.rd ?_⟩ <;> simp [Fld.addr] <;> omega
    case only => exact (State.writes_ccRecorded hs).only
    case frame =>
      have hframe := (State.regsAlone_ccRecorded (s := s) (k := k) (r := r) (now := now))
      unfold RegsAlone at hframe
      rw [hframe]
      rfl
  case stopped =>
    intro s k now r hstop
    exact ⟨s, congrArg Host.Outcome.next (if_pos (by simpa using hstop)), rfl⟩
  case read =>
    intro s path k hk hcarries
    exact ⟨_, exec_ccAccRead hk hcarries, rfl, rfl, rfl⟩

/-- Settles O15: the word shows `State.ccCurrent`, which `roundEven_spec` sets against the exact quotient. -/
theorem theCurrentOfABlock : Obligations.TheCurrentOfABlock := by
  intro s k now r hs hk hruns
  have hcur := State.ccRecorded_cur (k := k) (r := r) (now := now) hs
  have hget : (s.ccRecorded k r now).getF Reg.SNS_CC_CUR (40 + k) = unsign 32 (s.ccCurrent k r) := by
    rw [State.getF, hcur, Fld.of_into _ _ _ (by decide), Nat.mod_eq_of_lt unsign_lt]
  obtain ⟨sns, ctx, hend, -⟩ :=
    State.ccFed_ccSeconds (s := s.ccRecorded k r now) (k := k) (now := now) (cur := s.ccCurrent k r) (cal := s.ccCalibrated k r)
  obtain ⟨hnear, htie⟩ := roundEven_spec (n := (s.ccCalibrated k r).1 * (s.ccWordOf k 3 : Int)) (d := 2 ^ 32) (by decide)
  refine ⟨{ s.ccRecorded k r now with sns := sns, ctx := ctx }, hend ▸ exec_ccBlock_running hk hruns, hget, fun hcond => ?_,
    hnear, htie⟩
  obtain ⟨hlo, hhi⟩ := State.ccCurrent_range (r := r) hcond
  exact (congrArg (signed 32) hget).trans (signed_unsign_32 hlo hhi)

end Sys2Proof.Machine

end

section

/-!
PROOFS. Sense ingress (03): the delta-sigma faults and clocks (R46, R47, R50) and the SAR conversions (R54, R58, R59). A fault is shown in
its channel's flag and its bit of a fault word (`State.faultShown`), which SNS_STATUS then follows.
-/

namespace Sys2Proof.Machine

theorem putBit_false_le {v n : Nat} : putBit v n false ≤ v := by
  unfold putBit
  split
  · exact Nat.le_refl v
  · exact Nat.sub_le v _

theorem putBit_lt {v n w : Nat} {b : Bool} (hv : v < 2 ^ w) (hn : n < w) : putBit v n b < 2 ^ w := by
  cases b
  · exact putBit_false_le.trans_lt hv
  · exact putBit_true_lt hv hn

/-! ## A fault of a channel -/

/-- Flag `f` of channel `c` is set, and bit `k` of fault word `g`. -/
def State.faultShown (s : State) (f : Fld) (c : Nat) (g : Fld) (k : Nat) : State :=
  (s.setF f 1 c).setF g (putBit (s.getF g) k true)

section
variable {s t u : State} {f g : Fld} {c k n : Nat} {as bs : List Nat}

theorem Writes.faultShown (h : Writes s t as) (hf : f.addr c 0 ∈ as) (hg : g.addr 0 0 ∈ as) : Writes s (t.faultShown f c g k) as :=
  .setF (.setF h hf) hg

theorem State.setsField_faultShown_flag (hs : s.canonical = true) (hne : f.addr c 0 ≠ g.addr 0 0) :
    SetsField s (s.faultShown f c g k) f c 1 :=
  (Writes.refl hs).setsField (as := []) (bs := [g.addr 0 0]) (.setF (.refl (State.canonical_setF hs _ _ _ _)) (by simp)) (by simp)
    (by simpa using hne)

theorem State.setsField_faultShown_word (hs : s.canonical = true) (hne : f.addr c 0 ≠ g.addr 0 0) :
    SetsField s (s.faultShown f c g k) g 0 (putBit (s.getF g) k true) :=
  have hflag : Writes s (s.setF f 1 c) [f.addr c 0] := .setF (.refl hs) (by simp)
  hflag.setsField (bs := []) (.refl (State.canonical_setF hflag.canonical _ _ _ _)) (by simpa using hne.symm) (by simp)

theorem SetsField.getF {i v : Nat} (h : SetsField s t f i v) (hv : v < 2 ^ f.w) (hw : f.lo + f.w ≤ 32) : t.getF f i = v := by
  rw [State.getF, h, Fld.of_into f _ _ hw, Nat.mod_eq_of_lt hv]

theorem State.getF_faultShown (hs : s.canonical = true) (hne : f.addr c 0 ≠ g.addr 0 0) (hw : g.lo + g.w ≤ 32) (hk : k < g.w) :
    (s.faultShown f c g k).getF g = putBit (s.getF g) k true :=
  (State.setsField_faultShown_word hs hne).getF (putBit_lt (Fld.of_lt g _) hk) hw

/-- A word of which some field is not zero is not zero. -/
theorem State.getF_word_ne_zero {i : Nat} {word : Fld} (hword : word.lo = 0 ∧ word.w = 32) (haddr : g.addr i 0 = word.addr i 0)
    (h : s.getF g i ≠ 0) : s.getF word i ≠ 0 := by
  intro hzero
  have hrd : (s.rd (g.addr i 0)).toNat = 0 := by
    have hlt := (s.rd (g.addr i 0)).isLt
    rw [State.getF, Fld.of, hword.1, hword.2, bitsOf, ← haddr] at hzero
    omega
  exact h (by simp [State.getF, Fld.of, hrd, bitsOf])

/-- What a fault of a channel's flag `f` and fault word `g` leaves, SNS_STATUS with it. -/
theorem State.fault_snsStatus (hs : s.canonical = true) (hf : 0x4101C ≤ f.addr c 0) (hg : g.addr 0 0 = 0x40040 ∨ g.addr 0 0 = 0x40044)
    (hw : g.lo + g.w ≤ 32) (hk : k < g.w) :
    Writes s (s.faultShown f c g k).snsStatus (f.addr c 0 :: g.addr 0 0 :: snsStatusRegs) ∧
      SetsField s (s.faultShown f c g k).snsStatus f c 1 ∧
      SetsField s (s.faultShown f c g k).snsStatus g 0 (putBit (s.getF g) k true) ∧
      SetsField s (s.faultShown f c g k).snsStatus Reg.SNS_STATUS_FAULT 0 1 ∧
      (s.isF Reg.SNS_STATUS_FAULT = false → Raises s (s.faultShown f c g k).snsStatus 1 [0]) := by
  have hne : f.addr c 0 ≠ g.addr 0 0 := by omega
  have hshown : Writes s (s.faultShown f c g k) [f.addr c 0, g.addr 0 0] := .faultShown (.refl hs) (by simp) (by simp)
  have hword : (s.faultShown f c g k).getF g ≠ 0 := by
    rw [State.getF_faultShown hs hne hw hk]
    exact putBit_true_ne_zero
  have hfault : (s.faultShown f c g k).getF Reg.SNS_FAULT_DS ≠ 0 ∨ (s.faultShown f c g k).getF Reg.SNS_FAULT_OTH ≠ 0 :=
    hg.imp (State.getF_word_ne_zero ⟨rfl, rfl⟩ · hword) (State.getF_word_ne_zero ⟨rfl, rfl⟩ · hword)
  have hstatus := State.writes_snsStatus hshown.canonical
  have hquietAddr : Reg.SNS_STATUS_FAULT.addr 0 0 ∉ [f.addr c 0, g.addr 0 0] := by simp [Fld.addr] at hf hg ⊢; omega
  have hcauseAddr : Reg.SYS_IRQ_CAUSE.addr 1 0 ∉ [f.addr c 0, g.addr 0 0] := by simp [Fld.addr] at hf hg ⊢; omega
  have hflagNot : f.addr c 0 ∉ snsStatusRegs := by simp [Fld.addr] at hf ⊢; omega
  have hwordNot : g.addr 0 0 ∉ snsStatusRegs := by simp [Fld.addr] at hg ⊢; omega
  refine ⟨(hshown.mono (by simp)).trans (hstatus.mono (by simp)),
    (State.setsField_faultShown_flag hs hne).within (.refl hs) hstatus (List.not_mem_nil) hflagNot,
    (State.setsField_faultShown_word hs hne).within (.refl hs) hstatus (List.not_mem_nil) hwordNot,
    (State.setsField_snsStatus hshown.canonical hfault).within hshown (.refl hstatus.canonical) hquietAddr (List.not_mem_nil),
    fun hquiet => ?_⟩
  rw [Raises, ← hshown.getF hcauseAddr]
  exact State.raises_snsStatus hshown.canonical hfault ((hshown.isF hquietAddr).trans hquiet)

theorem RegsAlone.faultShown (h : RegsAlone s t) : RegsAlone s (t.faultShown f c g k) := h.setF.setF

end

/-! ## Delta-sigma inputs (R46, R47, R50) -/

section
variable {s t : State} {n g d : Nat} {b : Bool}

theorem exec_stuck_watched (hwatched : s.dsWatched n = true) (hstuck : bitOf s.sns.stuck n = false) :
    exec (.stuck n) s = .next
      ((({ s with sns := { s.sns with stuck := putBit s.sns.stuck n true } } : State).faultShown Reg.SNS_CH_STAT_STUCK n Reg.SNS_FAULT_DS
        n).snsStatus.event 0x0201 n [n, 0]) :=
  congrArg Host.Outcome.next (if_pos (by simp [hwatched, hstuck]))

theorem State.dsWatched_lt (h : s.dsWatched n = true) : n < 32 := by
  simp [State.dsWatched] at h
  exact h.1.1

theorem State.runs_setRuns (hs : s.canonical = true) (hlo : 1 ≤ d) (hhi : d ≤ 32) : (s.setRuns d b).runs d = b := by
  have hbit : putBit (s.getF Reg.PWR_DOM_STATUS_LO_RUNS) (d - 1) b < 2 ^ 32 := putBit_lt (Fld.of_lt _ _) (by omega)
  rw [State.runs, State.setRuns, if_pos hhi, if_pos hhi, State.getF_setF hs _ _ _ _ (by decide), Nat.mod_eq_of_lt hbit, bitOf_putBit_same]

theorem State.runs_congr (h : t.rd (Reg.PWR_DOM_STATUS_LO_RUNS.addr 0 0) = s.rd (Reg.PWR_DOM_STATUS_LO_RUNS.addr 0 0)) (hhi : d ≤ 32) :
    t.runs d = s.runs d := by
  rw [State.runs, State.runs, if_pos hhi, if_pos hhi, State.getF, State.getF, h]

/-- Clock group `g` has lost its clock: its SENSE domain stops (R46). -/
def State.clockLost (s : State) (g : Nat) : State :=
  ({ s with sns := { s.sns with noClock := putBit s.sns.noClock g true } } : State).setRuns (3 + g) false

/-- Channel `n` takes CLK_LOSS (R50). -/
def State.lossShown (s : State) (n : Nat) : State :=
  (({ s with sns := { s.sns with loss := putBit s.sns.loss n true } } : State).faultShown Reg.SNS_CH_STAT_CLK_LOSS n Reg.SNS_FAULT_DS
    n).event 0x0201 n [n, 1]

theorem State.setRuns_eff : (s.setRuns d b).eff = s.eff := by
  unfold State.setRuns
  split <;> rfl

theorem State.isE_congr {f : Fld} (h : t.eff = s.eff) : t.isE f g = s.isE f g := by
  rw [State.isE, State.effF, h, State.isE, State.effF]

theorem State.groupChannels_congr (h : t.eff = s.eff) : t.groupChannels g = s.groupChannels g := by
  simp only [State.groupChannels, State.isE_congr h]

theorem exec_clkLoss (hfreq : s.groupFreqOk g = true) (hown : s.ownClock g = false) (hgroup : s.groupChannels g ≠ []) :
    exec (.clkLoss g) s = .next
      (if s.isE Reg.SNS_GRP_CFG_MODE g then ((s.groupChannels g).foldl State.lossShown (s.clockLost g)).snsStatus else s.clockLost g) := by
  have heff : (s.clockLost g).eff = s.eff := State.setRuns_eff
  show execClkLoss g s = _
  rw [execClkLoss, if_neg (by simp [hfreq, hown, hgroup]), ← State.isE_congr heff, ← State.groupChannels_congr heff]
  rfl

/-- Channel `n` shows CLK_LOSS, its fault bit stands, and the condition is held. -/
def State.showsLoss (s : State) (n : Nat) : Prop :=
  s.isF Reg.SNS_CH_STAT_CLK_LOSS n = true ∧ bitOf (s.getF Reg.SNS_FAULT_DS) n = true ∧ bitOf s.sns.loss n = true

theorem State.clkLoss_addr_ne (hn : n < 32) : Reg.SNS_CH_STAT_CLK_LOSS.addr n 0 ≠ Reg.SNS_FAULT_DS.addr 0 0 := by
  simp [Fld.addr]
  omega

theorem Writes.lossShown {as : List Nat} (h : Writes s t as) (hn : Reg.SNS_CH_STAT_CLK_LOSS.addr n 0 ∈ as)
    (hf : Reg.SNS_FAULT_DS.addr 0 0 ∈ as) : Writes s (t.lossShown n) as :=
  (Writes.faultShown (h.frame (u := { t with sns := { t.sns with loss := putBit t.sns.loss n true } })) hn hf).frame

theorem State.lossShown_showsLoss (hs : s.canonical = true) (hn : n < 32) : (s.lossShown n).showsLoss n := by
  have hloss : ({ s with sns := { s.sns with loss := putBit s.sns.loss n true } } : State).canonical = true := hs
  have hne := State.clkLoss_addr_ne hn
  have hword : (s.lossShown n).getF Reg.SNS_FAULT_DS = putBit (s.getF Reg.SNS_FAULT_DS) n true :=
    State.getF_faultShown hloss hne (by decide) hn
  have hflag : (s.lossShown n).isF Reg.SNS_CH_STAT_CLK_LOSS n = true :=
    (State.setsField_faultShown_flag hloss hne (k := n)).isF (by decide) rfl
  refine ⟨hflag, ?_, bitOf_putBit_same⟩
  rw [hword, bitOf_putBit_same]

/-- CLK_LOSS of another channel leaves what a channel shows. -/
theorem State.showsLoss.lossShown {m : Nat} (h : s.showsLoss m) (hs : s.canonical = true) (hn : n < 32) : (s.lossShown n).showsLoss m := by
  by_cases hm : m = n
  · subst hm
    exact State.lossShown_showsLoss hs hn
  · obtain ⟨hflag, hword, hloss⟩ := h
    have hcanon : ({ s with sns := { s.sns with loss := putBit s.sns.loss n true } } : State).canonical = true := hs
    have hwrites : Writes s (s.lossShown n) [Reg.SNS_CH_STAT_CLK_LOSS.addr n 0, Reg.SNS_FAULT_DS.addr 0 0] :=
      .lossShown (.refl hs) (by simp) (by simp)
    have hget : (s.lossShown n).getF Reg.SNS_FAULT_DS = putBit (s.getF Reg.SNS_FAULT_DS) n true :=
      State.getF_faultShown hcanon (State.clkLoss_addr_ne hn) (by decide) hn
    refine ⟨(hwrites.isF (by simp [Fld.addr]; omega)).trans hflag, ?_, (bitOf_putBit_ne hm).trans hloss⟩
    rw [hget, bitOf_putBit_ne hm, hword]

/-- What CLK_LOSS of several channels leaves. -/
theorem State.foldl_lossShown {ns : List Nat} {as : List Nat} (hs : s.canonical = true)
    (hns : ∀ n ∈ ns, n < 32 ∧ Reg.SNS_CH_STAT_CLK_LOSS.addr n 0 ∈ as) (hf : Reg.SNS_FAULT_DS.addr 0 0 ∈ as) :
    Writes s (ns.foldl State.lossShown s) as ∧ (∀ n ∈ ns, (ns.foldl State.lossShown s).showsLoss n) ∧
      (∀ n, s.showsLoss n → (ns.foldl State.lossShown s).showsLoss n) ∧
      (ns.foldl State.lossShown s).events = s.events ++ ns.map (fun n => LogEvent.mk 0x0201 n [n, 1]) ∧
      ∃ regs loss events,
        ns.foldl State.lossShown s = { s with regs := regs, sns := { s.sns with loss := loss }, events := events } := by
  induction ns generalizing s with
  | nil => exact ⟨.refl hs, by simp, fun _ h => h, by simp, s.regs, s.sns.loss, s.events, rfl⟩
  | cons m ns ih =>
    obtain ⟨hm, hmem⟩ := hns m (by simp)
    have hstep : Writes s (s.lossShown m) as := .lossShown (.refl hs) hmem hf
    obtain ⟨hwrites, hall, hkeep, hevents, regs, loss, events, hframe⟩ := ih hstep.canonical fun n hn => hns n (by simp [hn])
    rw [List.foldl_cons]
    refine ⟨hstep.trans hwrites, ?_, fun n h => hkeep n (h.lossShown hs hm), ?_, regs, loss, events, hframe⟩
    · intro n hn
      rcases List.mem_cons.1 hn with rfl | hn
      · exact hkeep n (State.lossShown_showsLoss hs hm)
      · exact hall n hn
    · rw [hevents]
      simp [State.lossShown, State.event, State.faultShown, State.setF, State.wr]

/-- Clock group `g` has its clock again: its channels are out of CLK_LOSS (R46, R50). -/
def State.clockBack (s : State) (g : Nat) : State :=
  { s with sns := { s.sns with
    noClock := putBit s.sns.noClock g false
    loss := (List.range 4).foldl (fun m k => putBit m (4 * g + k) false) s.sns.loss } }

theorem exec_clkLossClear (hfreq : s.groupFreqOk g = true) (hgroup : s.groupChannels g ≠ []) :
    exec (.clkLossClear g) s = .next
      (((s.clockBack g).setRuns (3 + g) true).setF Reg.SNS_GRP_CFG_MEAS_KHZ (s.freeVal 1) g).useFree :=
  congrArg Host.Outcome.next (if_pos (by simpa using And.intro hfreq hgroup))

theorem State.setRuns_lo (hd : d ≤ 32) :
    s.setRuns d b = s.setF Reg.PWR_DOM_STATUS_LO_RUNS (putBit (s.getF Reg.PWR_DOM_STATUS_LO_RUNS) (d - 1) b) :=
  if_pos hd

theorem State.writes_clockLost (hs : s.canonical = true) (hg : g < 8) :
    Writes s (s.clockLost g) [Reg.PWR_DOM_STATUS_LO_RUNS.addr 0 0] := by
  rw [State.clockLost, State.setRuns_lo (by omega)]
  exact .setF (.frame (.refl hs)) (by simp)

theorem State.regsAlone_setRuns : RegsAlone s (s.setRuns d b) := .ite (.setF .refl) (.setF .refl)

theorem State.mem_groupChannels (hn : n ∈ s.groupChannels g) : ∃ k < 4, n = 4 * g + k := by
  simp only [State.groupChannels, List.mem_filter, List.mem_map, List.mem_range] at hn
  obtain ⟨⟨k, hk, rfl⟩, -⟩ := hn
  exact ⟨k, hk, rfl⟩

/-- The words in which the channels of clock group `g` show CLK_LOSS. -/
abbrev groupStatRegs (g : Nat) : List Nat :=
  [Reg.SNS_CH_STAT_CLK_LOSS.addr (4 * g + 0) 0, Reg.SNS_CH_STAT_CLK_LOSS.addr (4 * g + 1) 0,
    Reg.SNS_CH_STAT_CLK_LOSS.addr (4 * g + 2) 0, Reg.SNS_CH_STAT_CLK_LOSS.addr (4 * g + 3) 0]

theorem State.mem_groupStatRegs (hn : n ∈ s.groupChannels g) : Reg.SNS_CH_STAT_CLK_LOSS.addr n 0 ∈ groupStatRegs g := by
  obtain ⟨k, hk, rfl⟩ := State.mem_groupChannels hn
  obtain rfl | rfl | rfl | rfl : k = 0 ∨ k = 1 ∨ k = 2 ∨ k = 3 := by omega
  all_goals simp

end

/-! ## SAR channels (R54, R58, R59) -/

/-- A sample after a failed crossing carries STALE. -/
theorem joinFlags_stale_ne_zero {f : Nat} : joinFlags f flagStale ≠ 0 := by
  intro h
  have hbit : Nat.testBit ((f ||| 2) % 2 ^ 4) 1 = true := by
    rw [Nat.testBit_mod_two_pow, Nat.testBit_or]
    simp [Nat.testBit]
  rw [show (f ||| 2) % 2 ^ 4 = 0 from h] at hbit
  simp at hbit

/-- The sample that a completed conversion publishes: the calibrated code, or after a failed crossing the last one, STALE. -/
def State.adSample (s : State) (k code : Nat) (stale : Bool) : Int × Nat :=
  let last := Sparse.at (0, 0) s.sns.adOut k
  let r := s.calChannel (32 + k) (code % 65536 * 128 : Nat)
  let at16 := Sparse.at 0 s.sns.adLast k
  let notch := s.meetsNotch ((at16 : Int) - 2400) at16
  let flags := (if notch then flagNotch else 0) + (if r.2 then flagSat else 0)
  if stale then (last.1, joinFlags last.2 flagStale) else (r.1, flags)

/-- A completed conversion is taken: the channel is free again, a failed crossing counts, and the sample is kept. -/
def State.adTaken (s : State) (k code : Nat) (stale : Bool) : State :=
  let out := s.adSample k code stale
  let at16 := Sparse.at 0 s.sns.adLast k
  let s := { s with sns := { s.sns with adBusy := putBit s.sns.adBusy k false } }
  let s := if stale then s.crossingFailed 11 else s
  { s with sns := { s.sns with
    adOut := Sparse.upd (0, 0) s.sns.adOut k out, adStamp := Sparse.insert s.sns.adStamp k (at16 + 4800, at16 + 4800)
    packRec := if (s.adTrigger k).src = 4 then Sparse.insert s.sns.packRec (64 + k) out else s.sns.packRec } }

/-- A conversion that saturated is shown as a fault of its channel. -/
def State.adChecked (s : State) (k : Nat) (sat : Bool) : State :=
  if sat then (s.faultShown Reg.SNS_CH_STAT_SAT (32 + k) Reg.SNS_FAULT_OTH_SAT k).snsStatus else s

/-- A sample of AD channel `k` goes on to capture rings, SNS_CH_DATA and tiles. -/
def State.adPublished (s : State) (k at16 : Nat) (out : Int × Nat) : State :=
  ((s.capture (0xA0 + k) (at16 / 16 + 300) (captureWord out.1 out.2) (bitOf out.2 0)).setS Reg.SNS_CH_DATA out.1 (32 + k)).feedTiles
    (32 + k) out

section
variable {s : State} {k code at16 : Nat} {stale : Bool}

theorem exec_adConversionDone_busy (hbusy : bitOf s.sns.adBusy k = true) :
    exec (.adConversionDone k code stale) s = .next
      (((s.adTaken k code stale).adChecked k (s.calChannel (32 + k) (code % 65536 * 128 : Nat)).2).adPublished k
        (Sparse.at 0 s.sns.adLast k) (s.adSample k code stale)) := by
  show execAdConversionDone k code stale s = _
  rw [execAdConversionDone, if_neg (by simp [hbusy])]
  cases stale <;> rfl

/-- A sample published is SNS_CH_DATA and what tiles and capture rings hold. -/
theorem State.adPublished_frame {out : Int × Nat} :
    ∃ ctx tiles, s.adPublished k at16 out =
      { s.setS Reg.SNS_CH_DATA out.1 (32 + k) with ctx := ctx, sns := { s.sns with ft := tiles } } := by
  rw [State.adPublished, State.feedTiles_tilesAlone, State.capture_ringsAlone]
  exact ⟨_, _, rfl⟩

theorem State.writes_adPublished {out : Int × Nat} (hs : s.canonical = true) :
    Writes s (s.adPublished k at16 out) [Reg.SNS_CH_DATA.addr (32 + k) 0] := by
  obtain ⟨ctx, tiles, h⟩ := State.adPublished_frame (s := s) (k := k) (at16 := at16) (out := out)
  rw [h]
  exact (Writes.setS (f := Reg.SNS_CH_DATA) (i := 32 + k) (j := 0) (.refl hs) (by simp)).frame

theorem State.setsField_adPublished {out : Int × Nat} (hs : s.canonical = true) :
    SetsField s (s.adPublished k at16 out) Reg.SNS_CH_DATA (32 + k) (unsign 32 out.1) := by
  obtain ⟨ctx, tiles, h⟩ := State.adPublished_frame (s := s) (k := k) (at16 := at16) (out := out)
  rw [h]
  exact SetsField.setF hs

theorem State.senseAlone_adPublished {out : Int × Nat} : SenseAlone s (s.adPublished k at16 out) := by
  obtain ⟨ctx, tiles, h⟩ := State.adPublished_frame (s := s) (k := k) (at16 := at16) (out := out)
  rw [h]
  rfl

theorem Writes.adTaken (hs : s.canonical = true) : Writes s (s.adTaken k code stale) (if stale then [Reg.CLK_XING_STALE.addr 10 0] else []) := by
  cases stale
  · exact (Writes.refl hs).frame
  · exact (Writes.setF (f := Reg.CLK_XING_STALE) (i := 10) (j := 0) (.refl hs) (by simp)).frame

theorem State.senseAlone_adTaken : SenseAlone s (s.adTaken k code stale) := by cases stale <;> rfl

/-- The registers of AD channel `k` that a saturated conversion may write. -/
abbrev adCheckRegs (k : Nat) : List Nat :=
  Reg.SNS_CH_STAT.addr (32 + k) 0 :: Reg.SNS_FAULT_OTH.addr 0 0 :: snsStatusRegs

theorem State.adChecked_shows (hs : s.canonical = true) (hk : k < 8) {sat : Bool} :
    Writes s (s.adChecked k sat) (adCheckRegs k) ∧
      (sat = true → SetsField s (s.adChecked k sat) Reg.SNS_CH_STAT_SAT (32 + k) 1 ∧
        SetsField s (s.adChecked k sat) Reg.SNS_FAULT_OTH_SAT 0 (putBit (s.getF Reg.SNS_FAULT_OTH_SAT) k true) ∧
        (s.adChecked k sat).isF Reg.SNS_STATUS_FAULT = true) := by
  obtain ⟨hwrites, hflag, hword, hstatus, -⟩ := State.fault_snsStatus (f := Reg.SNS_CH_STAT_SAT) (c := 32 + k)
    (g := Reg.SNS_FAULT_OTH_SAT) (k := k) hs (by simp [Fld.addr]) (.inr rfl) (by decide) hk
  cases sat
  · exact ⟨.refl hs, nofun⟩
  · exact ⟨hwrites, fun _ => ⟨hflag, hword, hstatus.isF (by decide) rfl⟩⟩

theorem State.regsAlone_adChecked {sat : Bool} : RegsAlone s (s.adChecked k sat) := .ite (.snsStatus <| .faultShown .refl) .refl

/-- What a completed conversion shows, whether its crossing failed or not. -/
theorem State.adDone_shows (hs : s.canonical = true) (hk : k < 8) {sat : Bool} {out : Int × Nat} :
    SetsField s (((s.adTaken k code stale).adChecked k sat).adPublished k at16 out) Reg.SNS_CH_DATA (32 + k) (unsign 32 out.1) ∧
      (sat = true →
        SetsField s (((s.adTaken k code stale).adChecked k sat).adPublished k at16 out) Reg.SNS_CH_STAT_SAT (32 + k) 1 ∧
        SetsField s (((s.adTaken k code stale).adChecked k sat).adPublished k at16 out) Reg.SNS_FAULT_OTH_SAT 0
          (putBit (s.getF Reg.SNS_FAULT_OTH_SAT) k true) ∧
        (((s.adTaken k code stale).adChecked k sat).adPublished k at16 out).isF Reg.SNS_STATUS_FAULT = true) ∧
      OnlyRegs s (((s.adTaken k code stale).adChecked k sat).adPublished k at16 out)
        ((if stale then [Reg.CLK_XING_STALE.addr 10 0] else []) ++ Reg.SNS_CH_DATA.addr (32 + k) 0 :: adCheckRegs k) := by
  have htaken := Writes.adTaken (k := k) (code := code) (stale := stale) hs
  obtain ⟨hchecked, hsat⟩ := State.adChecked_shows (sat := sat) htaken.canonical hk
  have hpublished := State.writes_adPublished (k := k) (at16 := at16) (out := out) hchecked.canonical
  have hxing (a : Nat) (ha : 0x40000 ≤ a) : a ∉ if stale then [Reg.CLK_XING_STALE.addr 10 0] else [] := by
    cases stale <;> simp [Fld.addr]
    omega
  refine ⟨?data, fun h => ?sat, ?only⟩
  case data =>
    refine (State.setsField_adPublished hchecked.canonical).within (htaken.append hchecked) (.refl hpublished.canonical) ?_ List.not_mem_nil
    simp only [List.mem_append, not_or]
    exact ⟨hxing _ (by simp [Fld.addr]; omega), by simp [Fld.addr]; omega⟩
  case sat =>
    obtain ⟨hflag, hword, hstatus⟩ := hsat h
    rw [htaken.getF (hxing _ (by decide))] at hword
    exact ⟨hflag.within htaken hpublished (hxing _ (by simp [Fld.addr]; omega)) (by simp [Fld.addr]),
      hword.within htaken hpublished (hxing _ (by decide)) (by simp [Fld.addr]; omega),
      (hpublished.isF (by simp [Fld.addr]; omega)).trans hstatus⟩
  case only =>
    refine ((htaken.append hchecked).append hpublished).only.mono ?_
    intro a ha
    simp only [List.mem_append, List.mem_cons] at ha ⊢
    tauto

end

/-- Settles O12: a DS fault is `State.faultShown` with SNS_STATUS after it, a clock's loss and return `State.setRuns`, and a conversion
`State.adTaken`, `State.adChecked` and `State.adPublished`, each followed by the rules above. -/
theorem deltaSigmaFaultsAndSarConversions : Obligations.DeltaSigmaFaultsAndSarConversions := by
  refine ⟨?stuck, ?stuckClear, ?lossDriven, ?lossReceived, ?lossClear, ?started, ?dropped, ?noTrigger, ?notBusy, ?done, ?doneStale⟩
  case stuck =>
    intro s n hs hwatched hstuck
    have hn := State.dsWatched_lt hwatched
    obtain ⟨hwrites, hflag, hword, hstatus, hraises⟩ := State.fault_snsStatus
      (s := { s with sns := { s.sns with stuck := putBit s.sns.stuck n true } }) (f := Reg.SNS_CH_STAT_STUCK) (c := n)
      (g := Reg.SNS_FAULT_DS) (k := n) hs (by simp [Fld.addr]) (.inl rfl) (by decide) hn
    have hframe : RegsAlone { s with sns := { s.sns with stuck := putBit s.sns.stuck n true } } _ :=
      .snsStatus (.faultShown (f := Reg.SNS_CH_STAT_STUCK) (c := n) (g := Reg.SNS_FAULT_DS) (k := n) .refl)
    have hsns := hframe.sns
    have hevents := hframe.events
    refine ⟨_, exec_stuck_watched hwatched hstuck, hflag, hword, hstatus, hraises, hsns, ?_, hwrites.only, ?_⟩
    · exact congrArg (· ++ [LogEvent.mk 0x0201 n [n, 0]]) hevents
    · unfold RegsAlone at hframe
      rw [hframe]
      rfl
  case stuckClear => exact fun s n => ⟨_, rfl, rfl, rfl⟩
  case lossDriven =>
    intro s g hs hg hfreq hown hgroup hmode
    have hexec := exec_clkLoss hfreq hown hgroup
    rw [if_neg (by simp [hmode])] at hexec
    have hstopped : s.clockLost g = _ := State.setRuns_lo (by omega)
    rw [show 3 + g - 1 = 2 + g by omega] at hstopped
    refine ⟨s.clockLost g, hexec, State.runs_setRuns hs (by omega) (by omega), ?_, ?_, (State.writes_clockLost hs hg).only, ?_⟩
    · rw [hstopped]
      exact SetsField.setF hs
    · rw [hstopped]
      rfl
    · rw [hstopped]
      rfl
  case lossReceived =>
    intro s g hs hg hfreq hgroup hmode
    have hexec := exec_clkLoss hfreq (by simp [State.ownClock, hmode]) hgroup
    rw [if_pos hmode] at hexec
    have hlost : Writes s (s.clockLost g) [Reg.PWR_DOM_STATUS_LO_RUNS.addr 0 0] := State.writes_clockLost hs hg
    obtain ⟨hwrites, hall, -, hevents, regs, loss, events, hframe⟩ := State.foldl_lossShown (s := s.clockLost g)
      (ns := s.groupChannels g) (as := Reg.SNS_FAULT_DS.addr 0 0 :: groupStatRegs g) hlost.canonical
      (fun n hn => ⟨by obtain ⟨k, hk, rfl⟩ := State.mem_groupChannels hn; omega, by simp [State.mem_groupStatRegs hn]⟩) (by simp)
    generalize (s.groupChannels g).foldl State.lossShown (s.clockLost g) = u at hexec hwrites hall hevents hframe
    obtain ⟨n, hn⟩ := List.exists_mem_of_ne_nil _ hgroup
    have hfault : u.getF Reg.SNS_FAULT_DS ≠ 0 := by
      intro hzero
      have hbit := (hall n hn).2.1
      rw [hzero] at hbit
      simp [bitOf] at hbit
    have hstatus := State.writes_snsStatus hwrites.canonical
    have hcommon : RegsAlone u u.snsStatus := .snsStatus .refl
    have hlostSns : (s.clockLost g).sns = { s.sns with noClock := putBit s.sns.noClock g true } := State.regsAlone_setRuns.sns
    refine ⟨_, hexec, ?runs, fun n hn => ?shown, State.isF_fault_snsStatus hwrites.canonical (.inl hfault), ?noClock, ?events, ?only, ?frame⟩
    case runs =>
      rw [State.runs_congr ((hwrites.append hstatus).rd (by simp [Fld.addr]; omega)) (by omega)]
      exact State.runs_setRuns hs (by omega) (by omega)
    case shown =>
      obtain ⟨hflag, hword, hloss⟩ := hall n hn
      refine ⟨(hstatus.isF (by simp [Fld.addr]; omega)).trans hflag, ?_, ?_⟩
      · rwa [hstatus.getF (by decide)]
      · rwa [hcommon.sns]
    case noClock =>
      rw [hcommon.sns, hframe]
      exact (congrArg (bitOf ·.noClock g) hlostSns).trans bitOf_putBit_same
    case events =>
      rw [hcommon.events, hevents]
      exact congrArg (· ++ _) State.regsAlone_setRuns.events
    case only =>
      refine ((hlost.append hwrites).append hstatus).only.mono ?_
      intro a ha
      simp only [List.mem_append, List.mem_cons] at ha ⊢
      tauto
    case frame =>
      have hrest : ∃ regs sns, s.clockLost g = { s with regs := regs, sns := sns } := ⟨_, _, State.setRuns_lo (by omega)⟩
      obtain ⟨regs', sns', hrest⟩ := hrest
      unfold RegsAlone at hcommon
      rw [hcommon, hframe, hrest]
  case lossClear =>
    intro s g hs hg hfreq hgroup
    have hback : Writes s (s.clockBack g) [] := .frame (.refl hs)
    have hrest : (s.clockBack g).setRuns (3 + g) true = _ := State.setRuns_lo (by omega)
    rw [show 3 + g - 1 = 2 + g by omega] at hrest
    have hruns : Writes s ((s.clockBack g).setRuns (3 + g) true) [Reg.PWR_DOM_STATUS_LO_RUNS.addr 0 0] := by
      rw [hrest]
      exact .setF (.frame (.refl hs)) (by simp)
    have hmeas : Writes ((s.clockBack g).setRuns (3 + g) true) _ [Reg.SNS_GRP_CFG_MEAS_KHZ.addr g 0] :=
      .setF (f := Reg.SNS_GRP_CFG_MEAS_KHZ) (i := g) (j := 0) (v := s.freeVal 1) (.refl hruns.canonical) (by simp)
    have hne : Reg.PWR_DOM_STATUS_LO_RUNS.addr 0 0 ∉ [Reg.SNS_GRP_CFG_MEAS_KHZ.addr g 0] := by
      simp [Fld.addr]
      omega
    refine ⟨_, exec_clkLossClear hfreq hgroup, ?runs, ?domain, ?meas, ?_, by rw [hrest]; rfl, (hruns.append hmeas).only, ?frame⟩
    case runs =>
      exact (State.runs_congr (hmeas.rd hne) (by omega)).trans (State.runs_setRuns hback.canonical (by omega) (by omega))
    case domain =>
      have hset : SetsField (s.clockBack g) ((s.clockBack g).setRuns (3 + g) true) Reg.PWR_DOM_STATUS_LO_RUNS 0
          (putBit (s.getF Reg.PWR_DOM_STATUS_LO_RUNS) (2 + g) true) := by
        rw [hrest]
        exact SetsField.setF hback.canonical
      exact hset.within hback hmeas.frame (by simp) hne
    case meas =>
      exact (SetsField.setF hruns.canonical).within hruns (Writes.frame (as := []) (.refl hmeas.canonical)) (by simp [Fld.addr]; omega)
        (by simp)
    · rw [hrest]
      rfl
    case frame =>
      rw [hrest]
      rfl
  case started =>
    intro s k at16 hs hk hon hevent hlast
    refine ⟨_, (congrArg Host.Outcome.next (if_neg (by simp [hk, hon, hevent]))).trans
      (congrArg Host.Outcome.next (if_neg (by simpa using hlast))), rfl, rfl⟩
  case dropped =>
    intro s k at16 hs hk hon hevent hlast
    have hrings := State.captureSkip_ringsAlone (s := s.setF Reg.SNS_CH_STAT_SKIP 1 (32 + k)) (src := 0xA0 + k)
    refine ⟨_, (congrArg Host.Outcome.next (if_neg (by simp [hk, hon, hevent]))).trans
      (congrArg Host.Outcome.next (if_pos hlast)), ?_, ?_, ?_⟩
    · rw [hrings]
      exact SetsField.setF hs
    · rw [hrings]
      exact State.onlyRegs_setF hs _ _ _ _
    · rw [hrings]
      rfl
  case noTrigger =>
    intro s k at16 hnone
    exact ⟨s, congrArg Host.Outcome.next (if_pos (by simpa [or_assoc] using hnone)), rfl⟩
  case notBusy =>
    exact fun s k code stale hidle => ⟨s, congrArg Host.Outcome.next (if_pos (by simp [hidle])), rfl⟩
  case done =>
    intro s k code hs hk hbusy
    obtain ⟨hdata, hsat, honly⟩ := State.adDone_shows (code := code) (stale := false) (at16 := Sparse.at 0 s.sns.adLast k)
      (sat := (s.calChannel (32 + k) (code % 65536 * 128 : Nat)).2) (out := s.adSample k code false) hs hk
    exact ⟨_, exec_adConversionDone_busy hbusy, hdata, hsat, honly,
      (State.senseAlone_adTaken.trans State.regsAlone_adChecked.orSense).trans State.senseAlone_adPublished⟩
  case doneStale =>
    intro s k code v f hs hk hbusy hlast
    have hsample : s.adSample k code true = (v, joinFlags f flagStale) := by
      rw [State.adSample, hlast]
      rfl
    obtain ⟨hdata, hsat, honly⟩ := State.adDone_shows (code := code) (stale := true) (at16 := Sparse.at 0 s.sns.adLast k)
      (sat := (s.calChannel (32 + k) (code % 65536 * 128 : Nat)).2) (out := s.adSample k code true) hs hk
    refine ⟨_, exec_adConversionDone_busy hbusy, ?_, ?count, ?kept, hsat, honly,
      (State.senseAlone_adTaken.trans State.regsAlone_adChecked.orSense).trans State.senseAlone_adPublished⟩
    · rwa [hsample] at hdata ⊢
    case count =>
      have hidle : Writes s { s with sns := { s.sns with adBusy := putBit s.sns.adBusy k false } } [] := .frame (.refl hs)
      have htaken : Counts s (s.adTaken k code true) Reg.CLK_XING_STALE 10 1 := SetsField.setF hidle.canonical
      have hwrites := Writes.adTaken (k := k) (code := code) (stale := true) hs
      obtain ⟨hchecked, -⟩ := State.adChecked_shows (sat := (s.calChannel (32 + k) (code % 65536 * 128 : Nat)).2) hwrites.canonical hk
      have hpublished := State.writes_adPublished (k := k) (at16 := Sparse.at 0 s.sns.adLast k) (out := s.adSample k code true)
        hchecked.canonical
      exact SetsField.within htaken (.refl hs) (hchecked.append hpublished) List.not_mem_nil (by simp [Fld.addr]; omega)
    case kept =>
      obtain ⟨ctx, tiles, hframe⟩ := State.adPublished_frame (s := (s.adTaken k code true).adChecked k
        (s.calChannel (32 + k) (code % 65536 * 128 : Nat)).2) (k := k) (at16 := Sparse.at 0 s.sns.adLast k) (out := s.adSample k code true)
      have hchecked : ((s.adTaken k code true).adChecked k (s.calChannel (32 + k) (code % 65536 * 128 : Nat)).2).sns =
        (s.adTaken k code true).sns := State.regsAlone_adChecked.sns
      rw [hframe, hchecked, ← hsample]
      refine Sparse.at_upd_same_of_ne _ _ _ ?_
      rw [hsample]
      exact fun h => joinFlags_stale_ne_zero (congrArg Prod.snd h)

end Sys2Proof.Machine

end

section

/-!
PROOFS. Sense ingress (03): filter tiles (R52 to R56) and the limit comparator (R57). A trigger event is `State.ftEdged`, which may start
the domain, then `State.ftJudged`: the window is taken, an early event is dropped, and a kept one is worked and, when due, published.
-/

namespace Sys2Proof.Machine

/-! ## What a tile holds -/

section
variable {s t : State} {n at16 : Nat} {x : FtState}

/-- A tile reads as it was set, where that is not how every tile starts. -/
theorem State.ft_setFt (hx : x ≠ {}) : (s.setFt n x).ft n = x := Sparse.at_upd_same_of_ne _ _ _ hx

theorem FtState.ne_start_of_last (hx : x.last.isSome = true) : x ≠ {} := fun h => by
  rw [h] at hx
  exact nomatch hx

theorem FtState.ne_start_of_hist (hx : x.hist ≠ []) : x ≠ {} := fun h => hx (congrArg FtState.hist h)

theorem State.ftWindow_pos : 0 < s.ftWindow n := Nat.succ_pos _

end

/-! ## A trigger event of a filter tile (R52 to R56) -/

/-- The bits of a DS input that come with an event are edges of its group's clock (R46). -/
def State.ftEdged (s : State) (n : Nat) (bits : List Bool) : State :=
  if s.ftDs n && bits ≠ [] then s.edgeArrives (s.effF Reg.SNS_FT_CFG_INPUT n / 4) else s

/-- What tile `n` holds once an event is kept. -/
def State.ftNext (s : State) (n at16 : Nat) (bits : List Bool) (notch : Bool) : FtState :=
  { s.ft n with
    hist := s.ftHist n bits, last := some at16, count := (s.ft n).count + 1
    fir := (s.sincSample n bits notch :: (s.ft n).fir).take (s.ftTaps n) }

/-- Whether the calibration of a DS input's mean saturates (R65). -/
def State.ftCalSat (s : State) (n : Nat) (bits : List Bool) : Bool :=
  s.ftDs n && (s.calChannel (s.effF Reg.SNS_FT_CFG_INPUT n)
    (clampInt (-(2 ^ 23 - 1)) (2 ^ 23 - 1) (sincMean (s.ftOrder n) (s.ftOsr n) ((s.ftHist n bits).map (·.1))))).2

/-- A channel whose calibration saturated shows SAT. -/
def State.ftCalShown (s : State) (n : Nat) (sat : Bool) : State :=
  if sat then s.setF Reg.SNS_CH_STAT_SAT 1 (s.effF Reg.SNS_FT_CFG_INPUT n) else s

/-- A tile whose sample saturated shows SAT. -/
def State.ftSatShown (s : State) (n : Nat) (sat : Bool) : State :=
  if sat then s.setF Reg.SNS_FT_STAT_SAT 1 n else s

/-- The window of tile `n` with the bits that have come. -/
def State.ftTaken (s : State) (n : Nat) (bits : List Bool) : State := s.setFt n { s.ft n with hist := s.ftHist n bits }

/-- A kept event is worked: the tile's stages take its window, and what saturated is shown. -/
def State.ftWorked (s : State) (n at16 : Nat) (bits : List Bool) (notch : Bool) : State :=
  (((s.ftTaken n bits).ftCalShown n (s.ftCalSat n bits)).setFt n (s.ftNext n at16 bits notch)).ftSatShown n
    (bitOf (s.ftSample n bits notch).2 3)

/-- What tile `n` publishes (R50, R56): the last valid value with INVALID, the last sample with STALE, or its sample. -/
def State.ftOut (s : State) (n : Nat) (bits : List Bool) (notch fails : Bool) : Int × Nat :=
  if s.ftBad n then
    (((s.ft n).valid.getD (0, 0)).1, joinFlags ((s.ft n).valid.getD (0, 0)).2 (flagInvalid + if fails then flagStale else 0))
  else if fails then (((s.ft n).out.getD (0, 0)).1, joinFlags ((s.ft n).out.getD (0, 0)).2 flagStale)
  else s.ftSample n bits notch

/-- A failed crossing counts for the domain of tile `n`'s channel. -/
def State.ftCrossed (s : State) (n : Nat) (fails : Bool) : State :=
  if fails then s.crossingFailed (3 + s.effF Reg.SNS_FT_CFG_INPUT n / 4) else s

/-- A sample taken at T_s joins the pack record (R70). -/
def State.ftPacked (s : State) (n : Nat) (out : Int × Nat) : State :=
  if (s.ftTrigger n).src = 4 then { s with sns := { s.sns with packRec := Sparse.insert s.sns.packRec n out } } else s

/-- A sample of tile `n` is published. -/
def State.ftPublished (s : State) (n at16 end16 : Nat) (fails : Bool) (out : Int × Nat) : State :=
  let a := (s.ftCrossed n fails).ftPacked n out
  a.publish n out.1 out.2 end16 (a.ftDue 48 n at16)

/-- Whether an event at `at16` comes less than 500 ns after the last kept one (R55). -/
def State.ftLate (s : State) (n at16 : Nat) : Bool := (s.ft n).last.any fun k => decide (at16 < k + 8000)

/-- Whether tile `n` has its window and its taps (R55). -/
def State.ftPrimed (s : State) (n : Nat) (bits : List Bool) : Bool :=
  decide (s.ftWindow n ≤ (s.ftHist n bits).length) && (!s.isE Reg.SNS_FT_CFG_FIR_EN n || decide (s.ftTaps n ≤ (s.ft n).fir.length + 1))

/-- What a trigger event does once its bits have come. -/
def State.ftJudged (s : State) (n at16 : Nat) (bits : List Bool) (edge span : Nat) (stale : Bool) : State :=
  let notch := s.ftNotch n at16 edge span
  let fails := s.ftDs n && stale
  if (s.ftHist n bits).length < s.ftWindow n then s.ftTaken n bits
  else if s.ftLate n at16 then
    if s.ftPrimed n bits then ((s.ftTaken n bits).setF Reg.SNS_FT_STAT_SKIP 1 n).captureSkip n else s.ftTaken n bits
  else if s.ftDueNow n then (s.ftWorked n at16 bits notch).ftPublished n at16 (s.ftEnd n at16 edge) fails (s.ftOut n bits notch fails)
  else s.ftWorked n at16 bits notch

section
variable {s t : State} {n at16 edge span g : Nat} {bits : List Bool} {stale notch : Bool}

theorem State.ft_ftTaken (hfull : s.ftWindow n ≤ (s.ftHist n bits).length) :
    (s.ftTaken n bits).ft n = { s.ft n with hist := s.ftHist n bits } := by
  refine State.ft_setFt (FtState.ne_start_of_hist fun h => ?_)
  rw [show s.ftHist n bits = [] from h] at hfull
  exact absurd State.ftWindow_pos (Nat.not_lt_of_le hfull)

theorem State.ftCoefs_congr {taps : Nat} (h : t.eff = s.eff) : t.ftCoefs n taps = s.ftCoefs n taps := by
  simp only [State.ftCoefs, State.effF, h]

theorem State.ftLate_eq : s.ftLate n at16 = (match (s.ft n).last with | some k => decide (at16 < k + 8000) | none => false) := by
  rw [State.ftLate]
  cases (s.ft n).last <;> rfl

theorem State.eff_ftCalShown {sat : Bool} : (s.ftCalShown n sat).eff = s.eff := by
  cases sat <;> rfl

theorem State.ft_ftCalShown {sat : Bool} : (s.ftCalShown n sat).ft n = s.ft n := by
  cases sat <;> rfl

theorem State.eff_ftWorked : (s.ftWorked n at16 bits notch).eff = s.eff := by
  unfold State.ftWorked State.ftSatShown
  split <;> exact State.eff_ftCalShown

theorem State.eff_ftCrossed {fails : Bool} : (s.ftCrossed n fails).eff = s.eff := by
  cases fails <;> rfl

theorem State.effF_congr {f : Fld} {i j : Nat} (h : t.eff = s.eff) : t.effF f i j = s.effF f i j := by
  rw [State.effF, h, State.effF]

/-- A tile publishes unless its FIR stage lacks taps or is not due. -/
theorem State.ftDueNow_eq : s.ftDueNow n =
    !(s.isE Reg.SNS_FT_CFG_FIR_EN n && (decide ((s.ftNext n at16 bits notch).fir.length < s.ftTaps n) ||
      decide ((s.ftNext n at16 bits notch).count % (s.effF Reg.SNS_FT_CFG_FIR_DEC n + 1) ≠ 0))) := by
  have htaps : decide ((s.ftNext n at16 bits notch).fir.length < s.ftTaps n) = !decide (s.ftTaps n ≤ (s.ft n).fir.length + 1) := by
    rw [← decide_not, decide_eq_decide]
    simp [State.ftNext]
  rw [htaps, State.ftDueNow, decide_not, Bool.not_and, Bool.not_or, Bool.not_not, Bool.not_not]
  rfl

/-- The flags and the value that the stages of tile `n` give. -/
theorem State.ftSample_eq (hfir : t.ftCoefs n (s.ftTaps n) = s.ftCoefs n (s.ftTaps n)) :
    s.ftSample n bits notch =
      let r := if s.isE Reg.SNS_FT_CFG_FIR_EN n then firOut (t.ftCoefs n (s.ftTaps n)) ((s.ftNext n at16 bits notch).fir.map (·.1))
        else ((s.sincSample n bits notch).1, false)
      (r.1, if s.isE Reg.SNS_FT_CFG_FIR_EN n then
        joinFlags (((s.ftNext n at16 bits notch).fir.map (·.2)).foldl joinFlags 0) (if r.2 then flagSat else 0)
        else (s.sincSample n bits notch).2) := by
  rw [hfir, State.ftSample]
  split <;> rfl

/-- The SENSE domains are registers and free values. -/
theorem State.senseDomains_frame : ∃ r fr, s.senseDomains = { s with regs := r, free := fr } := by
  refine List.foldlRecOn (motive := fun (u : State) => ∃ (r : Sparse Word) (fr : Nat), u = { s with regs := r, free := fr }) _ _
    ⟨s.regs, s.free, rfl⟩ ?_
  rintro _ ⟨r, fr, rfl⟩ g -
  have hruns (b : Bool) : RegsAlone _ (({ s with regs := r, free := fr } : State).setRuns (3 + g) b) := State.regsAlone_setRuns
  unfold RegsAlone at hruns
  dsimp only
  split
  · rw [hruns]
    exact ⟨_, _, rfl⟩
  · rw [hruns]
    exact ⟨_, _, rfl⟩

theorem State.edgeArrives_frame (h : bitOf s.sns.noClock g = true) :
    ∃ r fr, s.edgeArrives g = { s with regs := r, free := fr, sns := { s.sns with noClock := putBit s.sns.noClock g false } } := by
  obtain ⟨r, fr, h'⟩ := State.senseDomains_frame (s := { s with sns := { s.sns with noClock := putBit s.sns.noClock g false } })
  exact ⟨r, fr, (if_pos h).trans h'⟩

theorem State.edgeArrives_clocked (h : bitOf s.sns.noClock g = false) : s.edgeArrives g = s := if_neg (by simp [h])

theorem State.ftEdged_frame :
    ∃ r fr nc, s.ftEdged n bits = { s with regs := r, free := fr, sns := { s.sns with noClock := nc } } := by
  unfold State.ftEdged
  split
  · cases h : bitOf s.sns.noClock (s.effF Reg.SNS_FT_CFG_INPUT n / 4)
    · exact ⟨_, _, _, State.edgeArrives_clocked h⟩
    · obtain ⟨r, fr, h'⟩ := State.edgeArrives_frame h
      exact ⟨r, fr, _, h'⟩
  · exact ⟨_, _, _, rfl⟩

theorem and_ite_snd {α : Type} {b : Bool} {x y : α × Bool} : (b && (if b = true then x else y).2) = (b && x.2) := by
  cases b <;> rfl

theorem exec_filterTrigger_event (hruns : s.ftRuns n = true)
    (hfreq : (s.ftDs n && !s.groupFreqOk (s.effF Reg.SNS_FT_CFG_INPUT n / 4)) = false)
    (hevent : s.isEvent (s.ftTrigger n) at16 = true) :
    exec (.filterTrigger n at16 bits edge span stale) s = .next ((s.ftEdged n bits).ftJudged n at16 bits edge span stale) := by
  obtain ⟨r, fr, nc, hedged⟩ := State.ftEdged_frame (s := s) (n := n) (bits := bits)
  have hoff : (!s.ftRuns n || (s.ftDs n && !s.groupFreqOk (s.effF Reg.SNS_FT_CFG_INPUT n / 4)) ||
      !s.isEvent (s.ftTrigger n) at16) = false := by
    rw [hruns, hfreq, hevent]
    rfl
  refine congrArg Host.Outcome.next ((if_neg (Bool.eq_false_iff.1 hoff)).trans ?_)
  extract_lets +onlyGivenNames u
  have hsrc : s.effF Reg.SNS_FT_CFG_INPUT n = u.effF Reg.SNS_FT_CFG_INPUT n := by
    rw [show u = _ from hedged]
    rfl
  have htrig : s.ftTrigger n = u.ftTrigger n := by
    rw [show u = _ from hedged]
    rfl
  have hu : s.ftEdged n bits = u := rfl
  rw [hu, hsrc, htrig]
  clear_value u
  clear hu hsrc htrig hedged hoff hfreq hevent hruns
  by_cases hfull : (u.ftHist n bits).length < u.ftWindow n
  · rw [State.ftJudged, if_pos hfull]
    exact if_pos hfull
  rw [State.ftJudged, if_neg hfull, State.ftLate_eq]
  refine (if_neg hfull).trans (if_congr Iff.rfl rfl ?_)
  extract_lets bad mean norm cal sat inFlags flags a f b c res outFlags d fails e valid last out held packed
  have ha : a = (u.ftTaken n bits).ftCalShown n (u.ftCalSat n bits) :=
    congrArg (fun c : Bool => (u.ftTaken n bits).ftCalShown n c) and_ite_snd
  have hb : b = u.ftNext n at16 bits (u.ftNotch n at16 edge span) := by
    have hft : f = { u.ft n with hist := u.ftHist n bits } := by
      rw [show f = a.ft n from rfl, ha, State.ft_ftCalShown, State.ft_ftTaken (Nat.le_of_not_lt hfull)]
    rw [show b = { f with fir := b.fir, count := b.count, last := b.last } from rfl, hft]
    rfl
  have hcoefs : c.ftCoefs n (u.ftTaps n) = u.ftCoefs n (u.ftTaps n) := by
    refine State.ftCoefs_congr ?_
    rw [show c.eff = a.eff from rfl, ha, State.eff_ftCalShown]
    rfl
  have hstages : (res.1, outFlags) = u.ftSample n bits (u.ftNotch n at16 edge span) := by
    rw [State.ftSample_eq (at16 := at16) hcoefs, ← hb]
    rfl
  have hworked : d = u.ftWorked n at16 bits (u.ftNotch n at16 edge span) := by
    rw [State.ftWorked, ← hstages, ← ha, ← hb]
    rfl
  have hout : out = u.ftOut n bits (u.ftNotch n at16 edge span) fails := by
    have hvalid : valid = (u.ft n).valid.getD (0, 0) := by rw [show valid = b.valid.getD (0, 0) from rfl, hb]; rfl
    have hlast : last = (u.ft n).out.getD (0, 0) := by rw [show last = b.out.getD (0, 0) from rfl, hb]; rfl
    rw [State.ftOut, ← hstages, ← hvalid, ← hlast]
    rfl
  have hbase : d.eff = u.eff := by rw [hworked, State.eff_ftWorked]
  have hcrossed : e = d.ftCrossed n fails := by
    rw [State.ftCrossed, State.effF_congr hbase]
  have hpacked : packed = (d.ftCrossed n fails).ftPacked n out := by
    rw [State.ftPacked, State.ftTrigger, State.effF_congr (State.eff_ftCrossed.trans hbase), ← hcrossed]
    rfl
  rw [State.ftDueNow_eq (at16 := at16) (bits := bits) (notch := u.ftNotch n at16 edge span), ← hb, ← hworked,
    show u.ftOut n bits (u.ftNotch n at16 edge span) (u.ftDs n && stale) = out from hout.symm, State.ftPublished,
    show (u.ftDs n && stale) = fails from rfl, ← hpacked]
  cases hdue : u.isE Reg.SNS_FT_CFG_FIR_EN n && (decide (b.fir.length < u.ftTaps n) ||
    decide (b.count % (u.effF Reg.SNS_FT_CFG_FIR_DEC n + 1) ≠ 0))
  · exact if_neg (Bool.eq_false_iff.1 hdue)
  · exact if_pos hdue
end

/-! ## What an event leaves -/

section
variable {s t : State} {n at16 end16 due edge span g flags : Nat} {bits : List Bool} {stale notch sat fails : Bool} {v : Int} {out : Int × Nat}

/-- SNS_FT_OUT of tile `n` takes a sample. -/
def State.ftShown (s : State) (n : Nat) (v : Int) (flags : Nat) : State :=
  ((((s.setS Reg.SNS_FT_OUT_VALUE v n).setF Reg.SNS_FT_OUT_INVALID (ofBool (bitOf flags 0)) n).setF
    Reg.SNS_FT_OUT_STALE (ofBool (bitOf flags 1)) n).setF Reg.SNS_FT_OUT_NOTCH (ofBool (bitOf flags 2)) n).setF
    Reg.SNS_FT_OUT_SAT (ofBool (bitOf flags 3)) n

theorem State.regsAlone_ftShown : RegsAlone s (s.ftShown n v flags) := .setF <| .setF <| .setF <| .setF <| .setF .refl

/-- The states differ in the samples that tiles and capture rings hold alone. -/
def HoldsAlone (s t : State) : Prop := t = { s with sns := { s.sns with ft := t.sns.ft }, ctx := t.ctx }

theorem HoldsAlone.trans {u : State} (hst : HoldsAlone s t) (htu : HoldsAlone t u) : HoldsAlone s u := by
  unfold HoldsAlone at hst htu ⊢
  generalize t.sns.ft = tiles, t.ctx = ctx at hst
  subst hst
  generalize u.sns.ft = tiles, u.ctx = ctx at htu
  subst htu
  rfl

theorem HoldsAlone.setFt {x : FtState} : HoldsAlone s (s.setFt n x) := rfl

theorem TilesAlone.holds (h : TilesAlone s t) : HoldsAlone s t := by
  unfold TilesAlone at h
  generalize t.sns.ft = tiles at h
  subst h
  rfl

theorem RingsAlone.holds (h : RingsAlone s t) : HoldsAlone s t := by
  unfold RingsAlone at h
  generalize t.ctx = ctx at h
  subst h
  rfl

theorem HoldsAlone.writes {u : State} {as : List Nat} (h : HoldsAlone t u) (hst : Writes s t as) : Writes s u as := by
  unfold HoldsAlone at h
  rw [h]
  exact hst.frame

/-- A sample published is SNS_FT_OUT and what tiles and capture rings hold. -/
theorem State.publish_holds : ∃ x, HoldsAlone ((s.setFt n x).ftShown n v flags) (s.publish n v flags end16 due) := by
  unfold State.publish
  extract_lets f endNs a value invalid stale notch shown g fed
  have hfed : HoldsAlone shown fed := .trans .setFt State.capture_ringsAlone.holds
  exact ⟨_, hfed.trans State.feedTiles_tilesAlone.holds⟩

theorem State.writes_ftShown (hs : s.canonical = true) : Writes s (s.ftShown n v flags) [Reg.SNS_FT_OUT.addr n 0] :=
  .setF (.setF (.setF (.setF (.setS (.refl hs) (by simp [Fld.addr])) (by simp [Fld.addr])) (by simp [Fld.addr]))
    (by simp [Fld.addr])) (by simp [Fld.addr])

theorem State.showsSample_ftShown (hs : s.canonical = true) : ShowsSample s (s.ftShown n v flags) n (v, flags) := by
  unfold State.ftShown State.setS ShowsSample
  have h1 : SetsFields s (s.setF Reg.SNS_FT_OUT_VALUE (unsign 24 v) n) (Reg.SNS_FT_OUT.addr n 0) [(Reg.SNS_FT_OUT_VALUE, unsign 24 v)] :=
    .setF .refl hs rfl
  have c1 := State.canonical_setF hs Reg.SNS_FT_OUT_VALUE (unsign 24 v) n 0
  have h2 := h1.setF (f := Reg.SNS_FT_OUT_INVALID) (v := ofBool (bitOf flags 0)) (i := n) (j := 0) c1 rfl
  have c2 := State.canonical_setF c1 Reg.SNS_FT_OUT_INVALID (ofBool (bitOf flags 0)) n 0
  have h3 := h2.setF (f := Reg.SNS_FT_OUT_STALE) (v := ofBool (bitOf flags 1)) (i := n) (j := 0) c2 rfl
  have c3 := State.canonical_setF c2 Reg.SNS_FT_OUT_STALE (ofBool (bitOf flags 1)) n 0
  have h4 := h3.setF (f := Reg.SNS_FT_OUT_NOTCH) (v := ofBool (bitOf flags 2)) (i := n) (j := 0) c3 rfl
  have c4 := State.canonical_setF c3 Reg.SNS_FT_OUT_NOTCH (ofBool (bitOf flags 2)) n 0
  exact h4.setF (f := Reg.SNS_FT_OUT_SAT) (v := ofBool (bitOf flags 3)) (i := n) (j := 0) c4 rfl

theorem Writes.ftCalShown {as : List Nat} (h : Writes s t as) (ha : Reg.SNS_CH_STAT.addr (t.effF Reg.SNS_FT_CFG_INPUT n) 0 ∈ as) :
    Writes s (t.ftCalShown n sat) as := .ite (.setF h ha) h

theorem Writes.ftSatShown {as : List Nat} (h : Writes s t as) (ha : Reg.SNS_FT_STAT.addr n 0 ∈ as) :
    Writes s (t.ftSatShown n sat) as := .ite (.setF h ha) h

/-- The words of tile `n` and its channel that show a saturated sample. -/
abbrev State.ftSatRegs (s : State) (n : Nat) : List Nat :=
  [Reg.SNS_FT_STAT.addr n 0, Reg.SNS_CH_STAT.addr (s.effF Reg.SNS_FT_CFG_INPUT n) 0]

theorem State.writes_ftWorked (hs : s.canonical = true) : Writes s (s.ftWorked n at16 bits notch) (s.ftSatRegs n) := by
  have htaken : Writes s (s.ftTaken n bits) (s.ftSatRegs n) := .frame (.refl hs)
  have hcal : Writes s ((s.ftTaken n bits).ftCalShown n (s.ftCalSat n bits)) (s.ftSatRegs n) :=
    .ftCalShown htaken (List.mem_cons_of_mem _ List.mem_cons_self)
  exact .ftSatShown hcal.frame List.mem_cons_self

/-- Work on an event is registers and what the tile holds. -/
theorem State.ftWorked_frame : ∃ regs tiles, s.ftWorked n at16 bits notch = { s with regs := regs, sns := { s.sns with ft := tiles } } := by
  unfold State.ftWorked State.ftSatShown State.ftCalShown
  split <;> split <;> exact ⟨_, _, rfl⟩

theorem State.ft_ftWorked : (s.ftWorked n at16 bits notch).ft n = s.ftNext n at16 bits notch := by
  have hset (a : State) : (a.setFt n (s.ftNext n at16 bits notch)).ft n = s.ftNext n at16 bits notch :=
    State.ft_setFt (FtState.ne_start_of_last rfl)
  unfold State.ftWorked State.ftSatShown
  split
  · exact hset _
  · exact hset _

theorem HoldsAlone.orSense (h : HoldsAlone s t) : SenseAlone s t := by
  unfold HoldsAlone at h
  rw [h]
  rfl

theorem HoldsAlone.noClock (h : HoldsAlone s t) : t.sns.noClock = s.sns.noClock := by
  unfold HoldsAlone at h
  rw [h]

theorem State.ftPacked_eq : ∃ pack, s.ftPacked n out = { s with sns := { s.sns with packRec := pack } } := by
  unfold State.ftPacked
  split
  · exact ⟨_, rfl⟩
  · exact ⟨s.sns.packRec, rfl⟩

/-- The registers that count a failed crossing. -/
abbrev ftXingRegs (d : Nat) (fails : Bool) : List Nat := if fails then [Reg.CLK_XING_STALE.addr d 0] else []

theorem State.writes_ftCrossed (hs : s.canonical = true) :
    Writes s (s.ftCrossed n fails) (ftXingRegs (2 + s.effF Reg.SNS_FT_CFG_INPUT n / 4) fails) := by
  cases fails
  · exact .refl hs
  · have hidx : 3 + s.effF Reg.SNS_FT_CFG_INPUT n / 4 - 1 = 2 + s.effF Reg.SNS_FT_CFG_INPUT n / 4 := by omega
    have hset : s.crossingFailed (3 + s.effF Reg.SNS_FT_CFG_INPUT n / 4) = s.bump Reg.CLK_XING_STALE _ := congrArg (s.bump Reg.CLK_XING_STALE ·) hidx
    rw [State.ftCrossed, if_pos rfl, hset]
    exact .setF (.refl hs) (by simp)

theorem State.counts_ftCrossed (hs : s.canonical = true) :
    Counts s (s.ftCrossed n true) Reg.CLK_XING_STALE (2 + s.effF Reg.SNS_FT_CFG_INPUT n / 4) 1 := by
  have hidx : 3 + s.effF Reg.SNS_FT_CFG_INPUT n / 4 - 1 = 2 + s.effF Reg.SNS_FT_CFG_INPUT n / 4 := by omega
  rw [← hidx]
  exact SetsField.setF hs

/-- The counters of failed crossings lie below the tiles' words. -/
theorem State.ftXing_lt : Reg.CLK_XING_STALE.addr (2 + s.effF Reg.SNS_FT_CFG_INPUT n / 4) 0 < 0x40000 := by
  have hinput : s.effF Reg.SNS_FT_CFG_INPUT n < 2 ^ Reg.SNS_FT_CFG_INPUT.w := Fld.of_lt _ _
  have hwidth : (2 : Nat) ^ Reg.SNS_FT_CFG_INPUT.w ≤ 256 := by decide
  simp [Fld.addr]
  omega

theorem not_mem_ftXingRegs {a : Nat} (ha : 0x40000 ≤ a) : a ∉ ftXingRegs (2 + s.effF Reg.SNS_FT_CFG_INPUT n / 4) fails := by
  have hlt := State.ftXing_lt (s := s) (n := n)
  cases fails
  · exact List.not_mem_nil
  · exact fun h => absurd (List.mem_singleton.1 h) (Nat.ne_of_gt (Nat.lt_of_lt_of_le hlt ha))

/-- What the publication of a sample leaves. -/
theorem State.ftPublished_shows (hs : s.canonical = true) :
    Writes s (s.ftPublished n at16 end16 fails out)
        (ftXingRegs (2 + s.effF Reg.SNS_FT_CFG_INPUT n / 4) fails ++ [Reg.SNS_FT_OUT.addr n 0]) ∧
      ShowsSample s (s.ftPublished n at16 end16 fails out) n out ∧
      (fails = true → Counts s (s.ftPublished n at16 end16 fails out) Reg.CLK_XING_STALE (2 + s.effF Reg.SNS_FT_CFG_INPUT n / 4) 1) := by
  obtain ⟨pack, hpacked⟩ := State.ftPacked_eq (s := s.ftCrossed n fails) (n := n) (out := out)
  obtain ⟨x, hpublish⟩ := State.publish_holds (s := (s.ftCrossed n fails).ftPacked n out) (n := n) (v := out.1) (flags := out.2)
    (end16 := end16) (due := ((s.ftCrossed n fails).ftPacked n out).ftDue 48 n at16)
  have hcrossed := State.writes_ftCrossed (n := n) (fails := fails) hs
  have hready : Writes s (((s.ftCrossed n fails).ftPacked n out).setFt n x) (ftXingRegs (2 + s.effF Reg.SNS_FT_CFG_INPUT n / 4) fails) := by
    rw [hpacked]
    exact hcrossed.frame
  have hshown := State.writes_ftShown (n := n) (v := out.1) (flags := out.2) hready.canonical
  have hend : Writes (((s.ftCrossed n fails).ftPacked n out).setFt n x) (s.ftPublished n at16 end16 fails out) [Reg.SNS_FT_OUT.addr n 0] :=
    hpublish.writes hshown
  have hnot : Reg.SNS_FT_OUT.addr n 0 ∉ ftXingRegs (2 + s.effF Reg.SNS_FT_CFG_INPUT n / 4) fails :=
    not_mem_ftXingRegs (by simp [Fld.addr]; omega)
  refine ⟨hready.append hend, ?shown, ?count⟩
  case shown =>
    have hsample := State.showsSample_ftShown (n := n) (v := out.1) (flags := out.2) hready.canonical
    rw [ShowsSample, SetsFields, hready.rd hnot] at hsample
    exact SetsFields.thenOnly hsample (hpublish.writes (as := []) (.refl hshown.canonical)).only List.not_mem_nil
  case count =>
    rintro rfl
    have hpack : Writes (s.ftCrossed n true) (((s.ftCrossed n true).ftPacked n out).setFt n x) [] := by
      rw [hpacked]
      exact .frame (.refl hcrossed.canonical)
    exact SetsField.within (State.counts_ftCrossed hs) (.refl hs) (hpack.append hend) List.not_mem_nil
      fun h => hnot (by simp [List.mem_singleton.1 h])

theorem State.senseAlone_ftPublished : SenseAlone s (s.ftPublished n at16 end16 fails out) := by
  obtain ⟨pack, hpacked⟩ := State.ftPacked_eq (s := s.ftCrossed n fails) (n := n) (out := out)
  obtain ⟨x, hpublish⟩ := State.publish_holds (s := (s.ftCrossed n fails).ftPacked n out) (n := n) (v := out.1) (flags := out.2)
    (end16 := end16) (due := ((s.ftCrossed n fails).ftPacked n out).ftDue 48 n at16)
  have hcrossed : SenseAlone s (s.ftCrossed n fails) := .ite (RegsAlone.setF .refl).orSense RegsAlone.refl.orSense
  have hready : SenseAlone (s.ftCrossed n fails) (((s.ftCrossed n fails).ftPacked n out).setFt n x) := by
    rw [hpacked]
    exact .sns
  exact ((hcrossed.trans hready).trans State.regsAlone_ftShown.orSense).trans hpublish.orSense

theorem State.noClock_ftPublished : (s.ftPublished n at16 end16 fails out).sns.noClock = s.sns.noClock := by
  obtain ⟨pack, hpacked⟩ := State.ftPacked_eq (s := s.ftCrossed n fails) (n := n) (out := out)
  obtain ⟨x, hpublish⟩ := State.publish_holds (s := (s.ftCrossed n fails).ftPacked n out) (n := n) (v := out.1) (flags := out.2)
    (end16 := end16) (due := ((s.ftCrossed n fails).ftPacked n out).ftDue 48 n at16)
  have hcrossed : RegsAlone s (s.ftCrossed n fails) := .ite (.setF .refl) .refl
  have hkept : (s.ftCrossed n fails).sns.noClock = s.sns.noClock := by rw [hcrossed.sns]
  rw [State.ftPublished, hpublish.noClock, State.regsAlone_ftShown.sns, hpacked]
  exact hkept

end

/-! ## The first bits after a lost clock (R46) -/

/-- A write at another key leaves what a list shows there, where it is not the start value, whatever the form of the list. -/
theorem get_erase_of_ne_start {α : Type} (d : Nat → α) (m : Sparse α) {k q : Nat} (hq : q ≠ k) (h : Sparse.get d m q ≠ d q) :
    Sparse.get d (Sparse.erase m k) q = Sparse.get d m q := by
  induction m with
  | nil => rfl
  | cons e m ih =>
    obtain ⟨j, w⟩ := e
    unfold Sparse.erase
    split
    · rfl
    · split
      · next hkj hjk =>
        subst hjk
        simp only [Sparse.get] at h ⊢
        rw [if_neg (Ne.symm hq)] at h ⊢
        split at h
        · exact absurd rfl h
        · next hlt => rw [if_neg hlt]
      · simp only [Sparse.get] at h ⊢
        split
        · rfl
        · next hjq =>
          rw [if_neg hjq] at h
          split
          · rfl
          · next hlt =>
            rw [if_neg hlt] at h
            exact ih h

section
variable {s t : State} {n at16 g a b : Nat}

theorem State.rd_wr_of_ne_reset {w : Word} (hb : b ≠ a) (h : s.rd b ≠ regReset b) : (s.wr a w).rd b = s.rd b := by
  show Sparse.get regReset (Sparse.put regReset s.regs a w) b = _
  unfold Sparse.put
  split
  · exact get_erase_of_ne_start _ _ hb h
  · exact Sparse.get_insert_ne _ _ _ hb

/-- The words where the first edge of a clock leaves what does not read as after a reset: all from 0x30000 on but the clock groups'. -/
def KeptReads (s t : State) : Prop := ∀ b, 0x30000 ≤ b → b < 0x40100 ∨ 0x40120 ≤ b → s.rd b ≠ regReset b → t.rd b = s.rd b

theorem KeptReads.setF {f : Fld} {i j v : Nat} (h : KeptReads s t) (ha : f.addr i j < 0x30000 ∨ 0x40100 ≤ f.addr i j ∧ f.addr i j < 0x40120) :
    KeptReads s (t.setF f v i j) := by
  intro b hlo hhi hb
  have hread := h b hlo hhi hb
  rw [← hread] at hb ⊢
  exact State.rd_wr_of_ne_reset (by omega) hb

theorem KeptReads.frame {u : State} (h : KeptReads s t) (hu : u.regs = t.regs) : KeptReads s u :=
  fun b hlo hhi hb => (State.rd_congr hu b).trans (h b hlo hhi hb)

theorem State.keptReads_senseDomains : KeptReads s s.senseDomains := by
  refine List.foldlRecOn (motive := KeptReads s) _ _ (fun _ _ _ _ => rfl) fun t ht g hg => ?_
  have hg8 : g < 8 := List.mem_range.1 hg
  have hruns (on : Bool) : KeptReads s (t.setRuns (3 + g) on) := by
    rw [State.setRuns_lo (by omega)]
    exact ht.setF (.inl (by simp [Fld.addr]))
  dsimp only
  split
  · exact (KeptReads.frame (hruns _) rfl).setF (.inr (by simp [Fld.addr]; omega))
  · exact hruns _

/-- The first edge of a lost clock takes NO_CLOCK off; beside that it is registers and free values. -/
theorem State.edgeArrives_lost (h : bitOf s.sns.noClock g = true) : KeptReads s (s.edgeArrives g) := by
  rw [State.edgeArrives, if_pos h]
  exact State.keptReads_senseDomains (s := { s with sns := { s.sns with noClock := putBit s.sns.noClock g false } })

/-- A field that is not 0, where a reset leaves 0, does not read as after a reset. -/
theorem State.rd_ne_reset {f : Fld} {i j : Nat} (hreset : f.of (regReset (f.addr i j)) = 0) (h : s.getF f i j ≠ 0) :
    s.rd (f.addr i j) ≠ regReset (f.addr i j) := fun heq => h (by rw [State.getF, heq, hreset])

theorem KeptReads.getF {f : Fld} {i j : Nat} (h : KeptReads s t) (hreset : f.of (regReset (f.addr i j)) = 0) (hne : s.getF f i j ≠ 0)
    (ha : 0x30000 ≤ f.addr i j) (hb : f.addr i j < 0x40100 ∨ 0x40120 ≤ f.addr i j) : t.rd (f.addr i j) = s.rd (f.addr i j) :=
  h _ ha hb (State.rd_ne_reset hreset hne)

theorem ownerReset : ∀ c < 40, Reg.CFG_OWN_OWNER.of (regReset (Reg.CFG_OWN_OWNER.addr (0x140 + c) 0)) = 0 := by decide +kernel

theorem laneStateReset : ∀ lane < 64, Reg.PWM_LANE_STAT_STATE.of (regReset (Reg.PWM_LANE_STAT_STATE.addr lane 0)) = 0 := by
  decide +kernel

theorem KeptReads.channelOn {c : Nat} (h : KeptReads s t) (heff : t.eff = s.eff) (hc : c < 40) (hon : s.channelOn c = true) :
    t.channelOn c = true := by
  simp only [State.channelOn, Bool.and_eq_true] at hon ⊢
  obtain ⟨henable, howned⟩ := hon
  refine ⟨(State.isE_congr heff).trans henable, ?_⟩
  have howner : s.owner (0x140 + c) ≠ 0 := by
    simp only [State.owned, Bool.and_eq_true, decide_eq_true_eq] at howned
    exact howned.1
  have hrd := h.getF (ownerReset c hc) howner (by simp [Fld.addr]; omega) (by simp [Fld.addr]; omega)
  have hreserved : t.rd (Reg.CFG_OWN_RESERVED.addr (0x140 + c) 0) = s.rd (Reg.CFG_OWN_RESERVED.addr (0x140 + c) 0) := hrd
  rw [State.owned, State.owner, State.getF, hrd, State.isF, State.getF, hreserved]
  exact howned

theorem KeptReads.ftRuns (h : KeptReads s t) (heff : t.eff = s.eff) (hruns : s.ftRuns n = true) : t.ftRuns n = true := by
  simp only [State.ftRuns, State.isE_congr heff, State.effF_congr heff, Bool.and_eq_true] at hruns ⊢
  obtain ⟨henable, hinput⟩ := hruns
  refine ⟨henable, ?_⟩
  split at hinput
  · next hc =>
    rw [if_pos hc]
    exact h.channelOn heff hc hinput
  · next hc =>
    rw [if_neg hc]
    exact hinput

theorem KeptReads.laneGives {lane : Nat} (h : KeptReads s t) (hpwm : t.pwm = s.pwm) (hlane : lane < 64) (hgives : s.laneGives lane = true) :
    t.laneGives lane = true := by
  have hstate : s.getF Reg.PWM_LANE_STAT_STATE lane ≠ 0 := by
    intro hzero
    simp [State.laneGives, hzero] at hgives
  have hrd := h.getF (laneStateReset lane hlane) hstate (by simp [Fld.addr]; omega) (by simp [Fld.addr]; omega)
  rwa [State.laneGives, hpwm, State.getF, hrd]

theorem State.isEvent_kept {r : Sparse Word} {fr nc : Nat} {trig : Trigger}
    (h : KeptReads s { s with regs := r, free := fr, sns := { s.sns with noClock := nc } }) (hlane : trig.lane < 64)
    (hevent : s.isEvent trig at16 = true) :
    ({ s with regs := r, free := fr, sns := { s.sns with noClock := nc } } : State).isEvent trig at16 = true := by
  unfold State.isEvent at hevent ⊢
  split at hevent
  · exact hevent
  · exact hevent
  · rw [Bool.and_eq_true] at hevent ⊢
    exact ⟨h.laneGives rfl hlane hevent.1, hevent.2⟩
  · rw [Bool.and_eq_true] at hevent ⊢
    exact ⟨h.laneGives rfl hlane hevent.1, hevent.2⟩
  · exact hevent
  · exact absurd hevent Bool.false_ne_true

theorem State.ftTrigger_lane : (s.ftTrigger n).lane < 64 := Nat.mod_lt _ (by decide)

/-- The state after the first edge of a DS tile's clock takes the same event. -/
theorem State.edgeArrives_takes (hruns : s.ftRuns n = true)
    (hevent : s.isEvent (s.ftTrigger n) at16 = true) :
    (s.edgeArrives g).eff = s.eff ∧ (s.edgeArrives g).ftRuns n = true ∧ (s.edgeArrives g).isEvent ((s.edgeArrives g).ftTrigger n) at16 = true ∧
      bitOf (s.edgeArrives g).sns.noClock g = false := by
  cases hlost : bitOf s.sns.noClock g
  · rw [State.edgeArrives_clocked hlost]
    exact ⟨rfl, hruns, hevent, hlost⟩
  · obtain ⟨r, fr, hframe⟩ := State.edgeArrives_frame hlost
    have hkept := State.edgeArrives_lost hlost
    rw [hframe] at hkept ⊢
    exact ⟨rfl, hkept.ftRuns rfl hruns, State.isEvent_kept hkept State.ftTrigger_lane hevent, bitOf_putBit_same⟩

end

/-! ## The cases of an event -/

section
variable {s t : State} {n at16 edge span g : Nat} {bits : List Bool} {stale notch : Bool}

theorem State.ftClocked_freq (h : s.ftClocked n = true) :
    (s.ftDs n && !s.groupFreqOk (s.effF Reg.SNS_FT_CFG_INPUT n / 4)) = false := by
  rw [State.ftClocked] at h
  cases hds : s.ftDs n
  · rfl
  · rw [hds] at h
    simp at h
    simp [h.1]

/-- On a clocked input no edge starts a domain. -/
theorem State.edgeArrives_ftClocked (h : s.ftClocked n = true) :
    (if s.ftDs n then s.edgeArrives (s.effF Reg.SNS_FT_CFG_INPUT n / 4) else s) = s := by
  split
  · next hds =>
    rw [State.ftClocked, hds] at h
    simp at h
    exact State.edgeArrives_clocked h.2
  · rfl

theorem State.ftEdged_clocked (h : s.ftClocked n = true) : s.ftEdged n bits = s := by
  unfold State.ftEdged
  split
  · next hbits =>
    rw [Bool.and_eq_true] at hbits
    exact (if_pos hbits.1).symm.trans (State.edgeArrives_ftClocked h)
  · rfl

theorem exec_filterTrigger_clocked (hruns : s.ftRuns n = true) (hclocked : s.ftClocked n = true)
    (hevent : s.isEvent (s.ftTrigger n) at16 = true) :
    exec (.filterTrigger n at16 bits edge span stale) s = .next (s.ftJudged n at16 bits edge span stale) := by
  rw [exec_filterTrigger_event hruns (State.ftClocked_freq hclocked) hevent, State.ftEdged_clocked hclocked]

/-- A kept event is worked and, when due, published. -/
theorem exec_filterTrigger_kept (hkeeps : s.ftKeeps n at16 bits = true) :
    exec (.filterTrigger n at16 bits edge span stale) s = .next
      (if s.ftDueNow n then
        (s.ftWorked n at16 bits (s.ftNotch n at16 edge span)).ftPublished n at16 (s.ftEnd n at16 edge) (s.ftDs n && stale)
          (s.ftOut n bits (s.ftNotch n at16 edge span) (s.ftDs n && stale))
        else s.ftWorked n at16 bits (s.ftNotch n at16 edge span)) := by
  simp only [State.ftKeeps, Bool.and_eq_true, decide_eq_true_eq] at hkeeps
  obtain ⟨⟨⟨⟨⟨-, hruns⟩, hclocked⟩, hevent⟩, hfull⟩, hlast⟩ := hkeeps
  have hlate : s.ftLate n at16 = false := by
    rw [State.ftLate]
    cases hold : (s.ft n).last with
    | none => rfl
    | some k =>
      rw [hold] at hlast
      simpa using hlast
  rw [exec_filterTrigger_clocked hruns hclocked hevent, State.ftJudged, if_neg (Nat.not_lt_of_le hfull), hlate]
  rfl

/-- What a due event of a tile leaves. -/
theorem State.ftDone_shows {end16 : Nat} {fails : Bool} {out : Int × Nat} (hs : s.canonical = true) :
    ShowsSample s ((s.ftWorked n at16 bits notch).ftPublished n at16 end16 fails out) n out ∧
      (fails = true → Counts s ((s.ftWorked n at16 bits notch).ftPublished n at16 end16 fails out) Reg.CLK_XING_STALE
        (2 + s.effF Reg.SNS_FT_CFG_INPUT n / 4) 1) ∧
      OnlyRegs s ((s.ftWorked n at16 bits notch).ftPublished n at16 end16 fails out)
        (Reg.SNS_FT_OUT.addr n 0 :: s.ftSatRegs n ++ ftXingRegs (2 + s.effF Reg.SNS_FT_CFG_INPUT n / 4) fails) ∧
      SenseAlone s ((s.ftWorked n at16 bits notch).ftPublished n at16 end16 fails out) := by
  have hworked := State.writes_ftWorked (n := n) (at16 := at16) (bits := bits) (notch := notch) hs
  have hinput : (s.ftWorked n at16 bits notch).effF Reg.SNS_FT_CFG_INPUT n = s.effF Reg.SNS_FT_CFG_INPUT n :=
    State.effF_congr State.eff_ftWorked
  obtain ⟨hpublished, hsample, hcount⟩ := State.ftPublished_shows (s := s.ftWorked n at16 bits notch) (n := n) (at16 := at16)
    (end16 := end16) (fails := fails) (out := out) hworked.canonical
  rw [hinput] at hpublished hcount
  refine ⟨?sample, fun hfails => ?count, (hworked.append hpublished).only.mono ?_, ?frame⟩
  case sample =>
    rwa [ShowsSample, SetsFields, hworked.rd (by simp [Fld.addr]; omega)] at hsample
  case count =>
    have hnot : Reg.CLK_XING_STALE.addr (2 + s.effF Reg.SNS_FT_CFG_INPUT n / 4) 0 ∉ s.ftSatRegs n := by
      have hlt := State.ftXing_lt (s := s) (n := n)
      intro h
      rcases List.mem_cons.1 h with h | h
      · rw [h] at hlt
        simp [Fld.addr] at hlt
        omega
      · rw [List.mem_singleton.1 h] at hlt
        simp [Fld.addr] at hlt
        omega
    have hcount := hcount hfails
    rwa [Counts, SetsField, hworked.rd hnot, hworked.getF hnot] at hcount
  · intro a ha
    simp only [List.mem_append, List.mem_cons] at ha ⊢
    tauto
  case frame =>
    obtain ⟨regs, tiles, hframe⟩ := State.ftWorked_frame (s := s) (n := n) (at16 := at16) (bits := bits) (notch := notch)
    refine .trans ?_ State.senseAlone_ftPublished
    rw [hframe]
    rfl

theorem State.noClock_ftJudged : (s.ftJudged n at16 bits edge span stale).sns.noClock = s.sns.noClock := by
  have hworked : (s.ftWorked n at16 bits (s.ftNotch n at16 edge span)).sns.noClock = s.sns.noClock := by
    obtain ⟨regs, tiles, hframe⟩ := State.ftWorked_frame (s := s) (n := n) (at16 := at16) (bits := bits)
      (notch := s.ftNotch n at16 edge span)
    rw [hframe]
  unfold State.ftJudged
  dsimp only
  split
  · rfl
  · split
    · split
      · exact State.captureSkip_ringsAlone.holds.noClock
      · rfl
    · split
      · exact State.noClock_ftPublished.trans hworked
      · exact hworked

end

/-! ## The limit comparator (R57) -/

section
variable {s : State} {n : Nat} {x : Int}

/-- What tile `n` holds once its comparator has taken a sample. -/
def State.cmpNext (s : State) (n : Nat) (x : Int) : FtState :=
  if (s.cmpHist n x).length < s.cmpWindow n then { s.ft n with cmp := s.cmpHist n x }
  else { s.ft n with
    cmp := s.cmpHist n x, high := decide (s.effS Reg.SNS_FT_CMP_HI n < s.cmpMean n x), low := decide (s.cmpMean n x < s.effS Reg.SNS_FT_CMP_LO n) }

theorem exec_limitComparator_clocked (hruns : s.ftRuns n = true) (hclocked : s.ftClocked n = true)
    (hen : s.isE Reg.SNS_FT_CMP_CFG_CMP_EN n = true) :
    exec (.limitComparator n x) s = .next (s.setFt n (s.cmpNext n x)) := by
  have hds {α : Type} (a b : α) : (if s.effF Reg.SNS_FT_CFG_INPUT n < 32 then a else b) = if s.ftDs n then a else b :=
    (ite_congr (by simp [State.ftDs]) (fun _ => rfl) fun _ => rfl)
  have hon : (!(s.ftRuns n && s.isE Reg.SNS_FT_CMP_CFG_CMP_EN n) ||
      (s.ftDs n && !s.groupFreqOk (s.effF Reg.SNS_FT_CFG_INPUT n / 4))) = false := by
    rw [hruns, hen, State.ftClocked_freq hclocked]
    rfl
  have hedge : (if s.effF Reg.SNS_FT_CFG_INPUT n < 32 then s.edgeArrives (s.effF Reg.SNS_FT_CFG_INPUT n / 4) else s) = s := by
    rw [hds]
    exact State.edgeArrives_ftClocked hclocked
  refine congrArg Host.Outcome.next ((if_neg (Bool.eq_false_iff.1 hon)).trans ?_)
  extract_lets +onlyGivenNames u
  rw [show u = s from hedge]
  extract_lets osr v f hist norm y
  have hhist : hist = s.cmpHist n x := by rw [State.cmpHist, State.cmpIn, ← hds]; rfl
  have hy : y = s.cmpMean n x := by rw [State.cmpMean, ← hhist, ← hds]
  rw [State.cmpNext, ← hhist, ← hy]
  exact (apply_ite (s.setFt n) _ _ _).symm

end

/-- Settles O13: a trigger event is `State.ftEdged` and `State.ftJudged`, whose kept cases are `State.ftWorked` and
`State.ftPublished`; the comparator takes `State.cmpNext`. -/
theorem filterTileSamples : Obligations.FilterTileSamples := by
  refine ⟨?sample, ?invalid, ?crossing, ?notDue, ?skip, ?filling, ?none, ?started, ?compared, ?comparing, ?idle⟩
  case sample =>
    intro s n at16 edge span bits stale hs hkeeps hdue hbad hfresh
    have hfails : (s.ftDs n && stale) = false := by
      cases hds : s.ftDs n
      · rfl
      · exact hfresh hds
    refine ⟨_, exec_filterTrigger_kept hkeeps, ?_⟩
    rw [if_pos hdue, hfails, State.ftOut, if_neg (by simp [hbad]), if_neg (by simp)]
    obtain ⟨hsample, -, honly, hframe⟩ := State.ftDone_shows (n := n) (at16 := at16) (bits := bits)
      (notch := s.ftNotch n at16 edge span) (end16 := s.ftEnd n at16 edge) (fails := false)
      (out := s.ftSample n bits (s.ftNotch n at16 edge span)) hs
    exact ⟨hsample, honly.mono (by simp [ftXingRegs]), hframe⟩
  case invalid =>
    intro s n at16 edge span bits stale hs hkeeps hdue hbad
    have hds : s.ftDs n = true := by
      rw [State.ftBad, Bool.and_eq_true] at hbad
      exact hbad.1
    refine ⟨_, exec_filterTrigger_kept hkeeps, ?_⟩
    rw [if_pos hdue, hds, Bool.true_and, State.ftOut, if_pos hbad]
    obtain ⟨hsample, hcount, honly, hframe⟩ := State.ftDone_shows (n := n) (at16 := at16) (bits := bits)
      (notch := s.ftNotch n at16 edge span) (end16 := s.ftEnd n at16 edge) (fails := stale)
      (out := (((s.ft n).valid.getD (0, 0)).1, joinFlags ((s.ft n).valid.getD (0, 0)).2 (flagInvalid + if stale then flagStale else 0))) hs
    refine ⟨?_, hcount, honly.mono ?_, hframe⟩
    · cases stale <;> exact hsample
    · cases stale <;> simp [ftXingRegs]
  case crossing =>
    intro s n at16 edge span bits hs hkeeps hdue hbad hds
    refine ⟨_, exec_filterTrigger_kept hkeeps, ?_⟩
    rw [if_pos hdue, hds, Bool.true_and, State.ftOut, if_neg (by simp [hbad]), if_pos rfl]
    obtain ⟨hsample, hcount, honly, hframe⟩ := State.ftDone_shows (n := n) (at16 := at16) (bits := bits)
      (notch := s.ftNotch n at16 edge span) (end16 := s.ftEnd n at16 edge) (fails := true)
      (out := (((s.ft n).out.getD (0, 0)).1, joinFlags ((s.ft n).out.getD (0, 0)).2 flagStale)) hs
    exact ⟨hsample, hcount rfl, honly.mono (by simp [ftXingRegs]), hframe⟩
  case notDue =>
    intro s n at16 edge span bits stale hs hkeeps hdue
    refine ⟨_, exec_filterTrigger_kept hkeeps, ?_⟩
    rw [if_neg (by simp [hdue])]
    have hworked := State.writes_ftWorked (n := n) (at16 := at16) (bits := bits) (notch := s.ftNotch n at16 edge span) hs
    obtain ⟨regs, tiles, hframe⟩ := State.ftWorked_frame (s := s) (n := n) (at16 := at16) (bits := bits)
      (notch := s.ftNotch n at16 edge span)
    have hft := State.ft_ftWorked (s := s) (n := n) (at16 := at16) (bits := bits) (notch := s.ftNotch n at16 edge span)
    refine ⟨hworked.rd (by simp [Fld.addr]; omega), ?_, by rw [hft]; rfl, by rw [hft]; rfl, by rw [hft]; rfl, hworked.only, ?_⟩
    · rw [hframe]
    · rw [hframe]
  case skip =>
    intro s n at16 edge span bits stale k hs hn hruns hclocked hevent hfull htaps hlast hearly
    have hlate : s.ftLate n at16 = true := by simp [State.ftLate, hlast, hearly]
    have hprimed : s.ftPrimed n bits = true := by
      rw [State.ftPrimed, Bool.and_eq_true, decide_eq_true hfull]
      refine ⟨rfl, ?_⟩
      cases hfir : s.isE Reg.SNS_FT_CFG_FIR_EN n
      · rfl
      · exact decide_eq_true (htaps hfir)
    refine ⟨_, exec_filterTrigger_clocked hruns hclocked hevent, ?_⟩
    rw [State.ftJudged, if_neg (Nat.not_lt_of_le hfull), if_pos hlate, if_pos hprimed, State.captureSkip_ringsAlone]
    have htaken : Writes s (s.ftTaken n bits) [] := .frame (.refl hs)
    have hskip : Writes (s.ftTaken n bits) ((s.ftTaken n bits).setF Reg.SNS_FT_STAT_SKIP 1 n) [Reg.SNS_FT_STAT.addr n 0] :=
      .setF (.refl htaken.canonical) (by simp [Fld.addr])
    refine ⟨?_, ?_, (htaken.append hskip).frame.only, rfl⟩
    · exact (SetsField.setF htaken.canonical).within htaken (Writes.frame (as := []) (.refl hskip.canonical)) List.not_mem_nil List.not_mem_nil
    · exact State.ft_ftTaken hfull
  case filling =>
    intro s n at16 edge span bits stale hruns hclocked hevent hfill
    refine ⟨_, exec_filterTrigger_clocked hruns hclocked hevent, ?_⟩
    rw [State.ftJudged, if_pos hfill]
    exact ⟨rfl, rfl⟩
  case none =>
    intro s n at16 edge span bits stale hnone
    refine ⟨s, congrArg Host.Outcome.next (if_pos ?_), rfl⟩
    rcases hnone with h | h | ⟨hds, hfreq⟩
    · simp [h]
    · simp [h]
    · have hds : decide (s.effF Reg.SNS_FT_CFG_INPUT n < 32) = true := hds
      simp [hfreq, hds]
  case started =>
    intro s n at16 edge span bits stale hruns hds hfreq hbits hevent
    obtain ⟨heff, hruns', hevent', hclock⟩ := State.edgeArrives_takes (g := s.effF Reg.SNS_FT_CFG_INPUT n / 4) hruns hevent
    have hedged : s.ftEdged n bits = s.edgeArrives (s.effF Reg.SNS_FT_CFG_INPUT n / 4) := if_pos (by simp [hds, hbits])
    have hclocked : (s.edgeArrives (s.effF Reg.SNS_FT_CFG_INPUT n / 4)).ftClocked n = true := by
      rw [State.ftClocked, State.groupFreqOk, State.effF_congr heff, State.effF_congr heff, hclock, ← State.groupFreqOk, hfreq]
      simp
    refine ⟨_, exec_filterTrigger_event hruns (by simp [hfreq]) hevent, ?_⟩
    rw [hedged]
    exact ⟨exec_filterTrigger_clocked hruns' hclocked hevent', by rw [State.noClock_ftJudged, hclock]⟩
  case compared =>
    intro s n x hruns hclocked hen hfull
    refine ⟨_, exec_limitComparator_clocked hruns hclocked hen, ?_⟩
    rw [State.cmpNext, if_neg (by simp [State.cmpHist, hfull])]
    exact ⟨rfl, rfl⟩
  case comparing =>
    intro s n x hruns hclocked hen hfill
    refine ⟨_, exec_limitComparator_clocked hruns hclocked hen, ?_⟩
    have hhist : s.cmpHist n x = s.cmpIn n x :: (s.ft n).cmp := List.take_of_length_le (by simpa using hfill.le)
    rw [State.cmpNext, if_pos (by rw [hhist]; simpa using hfill), hhist]
    exact ⟨rfl, rfl⟩
  case idle =>
    intro s n x hidle
    refine ⟨s, congrArg Host.Outcome.next (if_pos ?_), rfl⟩
    rcases hidle with h | h <;> simp [h]

end Sys2Proof.Machine

end

section

/-!
PROOFS. The partner network (10): links, neighbour answers and time quality (R222, R223, R234, R235; 17 R414). `Wrote` follows a chain of
writes to named fields: what any register reads at its end is what the listed writes make of what it read before.
-/

namespace Sys2Proof.Machine

/-! ## Chains of writes to named fields -/

/-- The writes of a list (field, number of its register, value) that go to the register at `a`. -/
def writesAt (a : Nat) (ws : List (Fld × Nat × Nat)) : List (Fld × Nat) :=
  ws.filterMap fun e => if e.1.addr e.2.1 0 = a then some (e.1, e.2.2) else none

/-- From `s` to `t` the fields listed are written one after another and no other register changes; the lists of `t` are in canonical form. -/
structure Wrote (s t : State) (ws : List (Fld × Nat × Nat)) : Prop where
  canonical : t.canonical = true
  sets : ∀ a, SetsFields s t a (writesAt a ws)

/-- What a field reads after writes to its register. -/
def Fld.after (f : Fld) : Nat → List (Fld × Nat) → Nat
  | x, [] => x
  | x, (g, v) :: fs => f.after (if g = f then v % 2 ^ f.w else x) fs

/-- Every write is to the field itself or leaves it alone. -/
def Fld.apart (f : Fld) (fs : List (Fld × Nat)) : Bool :=
  fs.all fun e => decide (e.1.lo + e.1.w ≤ 32) && (decide (e.1 = f) || decide (f.lo + f.w ≤ e.1.lo) || decide (e.1.lo + e.1.w ≤ f.lo))

section
variable {s t u : State} {ws : List (Fld × Nat × Nat)} {f : Fld} {i v a : Nat} {as : List Nat}

theorem writesAt_append {xs : List (Fld × Nat × Nat)} : writesAt a (ws ++ xs) = writesAt a ws ++ writesAt a xs := List.filterMap_append

theorem Wrote.refl (hs : s.canonical = true) : Wrote s s [] := ⟨hs, fun _ => rfl⟩

theorem Wrote.setF (h : Wrote s t ws) : Wrote s (t.setF f v i) (ws ++ [(f, i, v)]) := by
  refine ⟨State.canonical_setF h.canonical f v i 0, fun a => ?_⟩
  rw [writesAt_append]
  by_cases ha : f.addr i 0 = a
  · rw [show writesAt a [(f, i, v)] = [(f, v)] by simp [writesAt, ha]]
    exact (h.sets a).setF h.canonical ha
  · rw [show writesAt a [(f, i, v)] = [] by simp [writesAt, ha], List.append_nil]
    exact (h.sets a).thenOnly (State.onlyRegs_setF h.canonical f v i 0) (by simpa using Ne.symm ha)

/-- What differs in other parts than registers, settings, stack and poison is no write. -/
theorem Wrote.frame (h : Wrote s t ws) (hregs : u.regs = t.regs := by rfl) (heff : u.eff = t.eff := by rfl)
    (hmem : u.mem = t.mem := by rfl) (hpoison : u.poison = t.poison := by rfl) : Wrote s u ws :=
  ⟨(Writes.frame (as := []) (.refl h.canonical) hregs heff hmem hpoison).canonical,
    fun a => (State.rd_congr hregs a).trans (h.sets a)⟩

theorem Wrote.event {code source : Nat} {data : List Nat} (h : Wrote s t ws) : Wrote s (t.event code source data) ws := h.frame

theorem Wrote.rd (h : Wrote s t ws) (ha : writesAt a ws = []) : t.rd a = s.rd a := by
  have hsets := h.sets a
  rwa [ha] at hsets

theorem Wrote.getF_same (h : Wrote s t ws) (ha : writesAt (f.addr i 0) ws = []) : t.getF f i = s.getF f i := by
  rw [State.getF, h.rd ha, State.getF]

theorem Wrote.cause {vector bit : Nat} (h : Wrote s t ws) (ha : writesAt (Reg.SYS_IRQ_CAUSE.addr vector 0) ws = []) :
    Wrote s (t.cause vector bit) (ws ++ [(Reg.SYS_IRQ_CAUSE, vector, putBit (s.getF Reg.SYS_IRQ_CAUSE vector) bit true)]) := by
  rw [State.cause, h.getF_same ha]
  exact h.setF

theorem Wrote.only (h : Wrote s t ws) (hin : (ws.all fun e => as.contains (e.1.addr e.2.1 0)) = true) : OnlyRegs s t as := by
  refine fun a ha => h.rd (List.filterMap_eq_nil_iff.2 fun e he => if_neg ?_)
  rintro rfl
  exact ha (List.contains_iff_mem.1 (List.all_eq_true.1 hin e he))

theorem Fld.of_foldl_into {fs : List (Fld × Nat)} {w : Word} (h : f.apart fs = true) :
    f.of (fs.foldl (fun w e => e.1.into w e.2) w) = f.after (f.of w) fs := by
  induction fs generalizing w with
  | nil => rfl
  | cons e fs ih =>
    obtain ⟨g, v⟩ := e
    rw [Fld.apart, List.all_cons, Bool.and_eq_true] at h
    obtain ⟨hg, hfs⟩ := h
    simp only [Bool.and_eq_true, Bool.or_eq_true, decide_eq_true_eq] at hg
    obtain ⟨hwidth, hsame⟩ := hg
    rw [List.foldl_cons, ih hfs, Fld.after]
    by_cases hgf : g = f
    · subst hgf
      rw [if_pos rfl, Fld.of_into g w v hwidth]
    · rw [if_neg hgf, Fld.of_into_ne g f w v hwidth (by simpa [hgf] using hsame)]

/-- A field reads at the end of a chain what the writes to its register make of it. -/
theorem Wrote.getF (h : Wrote s t ws) (hapart : f.apart (writesAt (f.addr i 0) ws) = true) :
    t.getF f i = f.after (s.getF f i) (writesAt (f.addr i 0) ws) := by
  rw [State.getF, h.sets, Fld.of_foldl_into hapart, State.getF]

theorem Wrote.raises {vector bit : Nat} (h : Wrote s t ws) (hbit : bit < 32)
    (ha : writesAt (Reg.SYS_IRQ_CAUSE.addr vector 0) ws = [(Reg.SYS_IRQ_CAUSE, putBit (s.getF Reg.SYS_IRQ_CAUSE vector) bit true)]) :
    Raises s t vector [bit] := by
  have hword : putBit (s.getF Reg.SYS_IRQ_CAUSE vector) bit true < 2 ^ 32 := putBit_true_lt (Fld.of_lt Reg.SYS_IRQ_CAUSE _) hbit
  rw [Raises, State.getF, h.sets, ha, List.foldl_cons, List.foldl_nil, Fld.of_into _ _ _ (by decide)]
  exact Nat.mod_eq_of_lt hword

/-- A register whose one field is all of it reads as the integer it was given. -/
theorem Fld.into_word (hf : f.lo = 0 ∧ f.w = 32) {w : Word} {x : Int} : f.into w (unsign 32 x) = BitVec.ofInt 32 x := by
  have hof : f.of (f.into w (unsign 32 x)) = unsign 32 x := by
    rw [Fld.of_into f _ _ (by omega), hf.2, Nat.mod_eq_of_lt unsign_lt]
  apply BitVec.eq_of_toNat_eq
  rw [BitVec.toNat_ofInt]
  have hlt := (f.into w (unsign 32 x)).isLt
  rw [Fld.of, hf.1, hf.2, bitsOf] at hof
  simp only [unsign] at hof ⊢
  omega

end

/-! ## The time quality (R235) -/

/-- The writes with which the time quality takes the value `q`: its fields, CC_LOCKED and the cause. -/
abbrev State.tqWrites (s : State) (q : Nat) : List (Fld × Nat × Nat) :=
  [(Reg.HNT_STATUS_TQ, 0, q), (Reg.HNT_PTP_STATUS_TQ, 0, q), (Reg.CLK_STATUS_CC_LOCKED, 0, ofBool (q = 3)),
    (Reg.SYS_IRQ_CAUSE, 11, putBit (s.getF Reg.SYS_IRQ_CAUSE 11) 1 true)]

/-- The writes with which LOCKED goes to HOLDOVER. -/
abbrev State.holdoverWrites (s : State) : List (Fld × Nat × Nat) :=
  s.tqWrites 2 ++ [(Reg.CLK_STATUS_SLEWING, 0, 0), (Reg.HNT_PTP_STATUS_GOOD_SYNCS, 0, 0)]

/-- The writes with which an offset steers. -/
abbrev State.steerWrites (s : State) (offset : Int) : List (Fld × Nat × Nat) :=
  [(Reg.CLK_STEER, 0, unsign 32 ((s.freeVal 0x414 % 20001 : Nat) - 10000)),
    (Reg.CLK_STATUS_SLEWING, 0, ofBool (!(-100 ≤ offset && offset ≤ 100)))]

/-- The states differ in registers and in what is given for the network, the outbox, the free values and the events. -/
def Timed (s t : State) (hnt : HntState) (outbox : List Out) (free : Nat) (events : List LogEvent) : Prop :=
  t = { s with regs := t.regs, hnt := hnt, outbox := outbox, free := free, events := events }

/-- The states differ in registers and in what is given for the network alone. -/
abbrev HntAlone (s t : State) (hnt : HntState) : Prop := Timed s t hnt s.outbox s.free s.events

/-- The network's part where a Delay_Req leaves when a quarter of a second has passed. -/
def HntState.asked (h : HntState) (now : Nat) : HntState :=
  { h with delayAt := if !(h.delayAt.any fun (x : Nat) => decide (now < x + 250000000)) then some now else h.delayAt }

/-- The Delay_Req that leaves, or nothing. -/
def HntState.asks (h : HntState) (port now : Nat) : List Out :=
  if !(h.delayAt.any fun (x : Nat) => decide (now < x + 250000000)) then [Out.mk .ptpDelayReq [port]] else []

section
variable {s t u : State} {ws : List (Fld × Nat × Nat)} {q now port : Nat} {offset : Int} {hnt : HntState} {outbox : List Out} {free : Nat}
  {events : List LogEvent}

theorem Timed.refl : HntAlone s s s.hnt := rfl

theorem Timed.hnt_eq (h : Timed s t hnt outbox free events) : t.hnt = hnt := congrArg State.hnt h

theorem Timed.outbox_eq (h : Timed s t hnt outbox free events) : t.outbox = outbox := congrArg State.outbox h

theorem Timed.free_eq (h : Timed s t hnt outbox free events) : t.free = free := congrArg State.free h

theorem Timed.events_eq (h : Timed s t hnt outbox free events) : t.events = events := congrArg State.events h

theorem Timed.frame (h : Timed s t hnt outbox free events) :
    t = { s with regs := t.regs, hnt := t.hnt, events := t.events, outbox := t.outbox, free := t.free } := by
  rw [h.hnt_eq, h.outbox_eq, h.free_eq, h.events_eq]
  exact h

theorem Timed.frame_quiet (h : Timed s t hnt outbox free s.events) :
    t = { s with regs := t.regs, hnt := t.hnt, outbox := t.outbox, free := t.free } := by
  rw [h.hnt_eq, h.outbox_eq, h.free_eq]
  exact h

theorem Timed.frame_outbox (h : Timed s t hnt outbox s.free s.events) :
    t = { s with regs := t.regs, hnt := t.hnt, outbox := t.outbox } := by
  rw [h.hnt_eq, h.outbox_eq]
  exact h

theorem Timed.frame_hnt (h : HntAlone s t hnt) : t = { s with regs := t.regs, hnt := t.hnt } := by
  rw [h.hnt_eq]
  exact h

theorem Timed.regs (h : Timed s t hnt outbox free events) (hu : RegsAlone t u) : Timed s u hnt outbox free events := by
  unfold Timed RegsAlone at *
  generalize t.regs = regs at h
  subst h
  exact hu

theorem Timed.setHnt {x : HntState} (h : Timed s t hnt outbox free events) : Timed s { t with hnt := x } x outbox free events := by
  unfold Timed at *
  generalize t.regs = regs at h
  subst h
  rfl

theorem Timed.event {code source : Nat} {data : List Nat} (h : Timed s t hnt outbox free events) :
    Timed s (t.event code source data) hnt outbox free (events ++ [LogEvent.mk code source data]) := by
  unfold Timed at *
  generalize t.regs = regs at h
  subst h
  rfl

theorem Wrote.setTq (h : Wrote s t ws) (hne : t.tq ≠ q) (hfresh : writesAt (Reg.SYS_IRQ_CAUSE.addr 11 0) ws = []) :
    Wrote s (t.setTq q) (ws ++ s.tqWrites q) := by
  have hcause : writesAt (Reg.SYS_IRQ_CAUSE.addr 11 0) (ws ++ [(Reg.HNT_STATUS_TQ, 0, q)] ++ [(Reg.HNT_PTP_STATUS_TQ, 0, q)] ++
      [(Reg.CLK_STATUS_CC_LOCKED, 0, ofBool (q = 3))]) = [] := by
    rw [writesAt_append, writesAt_append, writesAt_append, hfresh]
    rfl
  rw [State.setTq, if_neg hne]
  have hmoved := h.setF.setF.setF.cause (bit := 1) hcause
  rwa [List.append_assoc, List.append_assoc, List.append_assoc] at hmoved

theorem State.regsAlone_setTq : RegsAlone s (s.setTq q) := .ite .refl (.cause <| .setF <| .setF <| .setF .refl)

theorem Wrote.enterHoldover (h : Wrote s t ws) (hne : t.tq ≠ 2) (hfresh : writesAt (Reg.SYS_IRQ_CAUSE.addr 11 0) ws = []) :
    Wrote s (t.enterHoldover now) (ws ++ s.holdoverWrites) := by
  have hslewing : Wrote s ((t.setTq tqHoldover).setF Reg.CLK_STATUS_SLEWING 0) _ := (h.setTq hne hfresh).setF
  have hend : Wrote s (t.enterHoldover now) _ := Wrote.setF (f := Reg.HNT_PTP_STATUS_GOOD_SYNCS) (i := 0) (v := 0) hslewing.frame
  rwa [List.append_assoc, List.append_assoc] at hend

theorem Timed.enterHoldover (h : Timed s t hnt outbox free events) :
    Timed s (t.enterHoldover now) { hnt with holdAt := now, badRun := 0 } outbox free events := by
  have hslewing : Timed s ((t.setTq tqHoldover).setF Reg.CLK_STATUS_SLEWING 0) hnt outbox free events :=
    h.regs State.regsAlone_setTq.setF
  rw [← hslewing.hnt_eq]
  exact hslewing.setHnt.regs (.setF .refl)

theorem State.steer_off (h : s.ownGrid = false ∨ s.tq = 2) : s.steer offset = s := by
  refine if_pos ?_
  rcases h with h | h
  · rw [h]; rfl
  · simp [h]

theorem Wrote.steer (h : Wrote s t ws) (hgrid : t.ownGrid = true) (hq : t.tq ≠ 2) (hfree : t.free = s.free) :
    Wrote s (t.steer offset) (ws ++ s.steerWrites offset) := by
  have hsteer : Wrote s (t.useFree.setS Reg.CLK_STEER ((t.freeVal 0x414 % 20001 : Nat) - 10000)) _ :=
    Wrote.setF (f := Reg.CLK_STEER) (i := 0) (v := unsign 32 ((t.freeVal 0x414 % 20001 : Nat) - 10000)) h.frame
  have hval : t.freeVal 0x414 = s.freeVal 0x414 := by rw [State.freeVal, hfree, State.freeVal]
  have hend := hsteer.setF (f := Reg.CLK_STATUS_SLEWING) (i := 0) (v := ofBool (!(-100 ≤ offset && offset ≤ 100)))
  rw [State.steer, if_neg (by simp [hgrid, hq]), hval]
  rwa [List.append_assoc, hval] at hend

theorem Timed.steer (h : Timed s t hnt outbox free events) (hgrid : t.ownGrid = true) (hq : t.tq ≠ 2) :
    Timed s (t.steer offset) hnt outbox (free + 1) events := by
  have hfree : Timed s t.useFree hnt outbox (free + 1) events := by
    unfold Timed at *
    generalize t.regs = regs at h
    subst h
    rfl
  rw [State.steer, if_neg (by simp [hgrid, hq])]
  exact hfree.regs (.setF <| .setF .refl)

/-- A Delay_Req leaves where a quarter of a second has passed. -/
theorem State.askDelay_eq : s.askDelay port now = { s with hnt := s.hnt.asked now, outbox := s.outbox ++ s.hnt.asks port now } := by
  unfold HntState.asked HntState.asks
  cases hsoon : s.hnt.delayAt.any fun (x : Nat) => decide (now < x + 250000000)
  · exact if_neg (by simp [hsoon])
  · exact (if_pos hsoon).trans (by simp)

theorem Timed.askDelay (h : Timed s t hnt outbox free events) :
    Timed s (t.askDelay port now) (hnt.asked now) (outbox ++ hnt.asks port now) free events := by
  rw [State.askDelay_eq]
  unfold Timed at *
  generalize t.regs = regs at h
  subst h
  rfl

theorem Wrote.askDelay (h : Wrote s t ws) : Wrote s (t.askDelay port now) ws := by
  rw [State.askDelay_eq]
  exact h.frame

/-- Registers of another word than TQ's and the two of TWN_STATUS leave the time quality and the grid. -/
theorem Wrote.tq (h : Wrote s t ws) (hapart : Reg.HNT_STATUS_TQ.apart (writesAt (Reg.HNT_STATUS_TQ.addr 0 0) ws) = true) :
    t.tq = Reg.HNT_STATUS_TQ.after s.tq (writesAt (Reg.HNT_STATUS_TQ.addr 0 0) ws) := h.getF hapart

theorem Wrote.ownGrid (h : Wrote s t ws) (hfresh : writesAt (Reg.TWN_STATUS_STATE.addr 0 0) ws = []) : t.ownGrid = s.ownGrid := by
  rw [State.ownGrid, State.ownGrid, h.getF_same hfresh, State.isF, State.isF, h.getF_same (f := Reg.TWN_STATUS_LOCK) hfresh]

end

/-! ## A Sync of the selected master (R234, R235) -/

/-- The run of Syncs within 50 ns that an offset gives. -/
abbrev State.goodRun (s : State) (offset : Int) : Nat :=
  if -50 ≤ offset && offset ≤ 50 then min 255 (s.getF Reg.HNT_PTP_STATUS_GOOD_SYNCS + 1) else 0

/-- The run of Syncs beyond 500 ns that an offset gives. -/
def State.farRun (s : State) (offset : Int) : Nat := if !(-500 ≤ offset && offset ≤ 500) then s.hnt.badRun + 1 else 0

/-- A Sync is measured: its offset, its runs and its path delay. -/
def State.syncMeasured (s : State) (port now t1 t2 : Nat) (delay : Option (Nat × Nat)) : State :=
  let offset := s.ptpOffset port t1 t2 delay
  let a := { s with hnt := { s.hnt with
    lastSync := now, pathDelay := Sparse.upd 0 s.hnt.pathDelay port (s.pathDelay port t1 t2 delay)
    holdAt := if s.tq = tqHoldover && now = s.holdEnd then now else s.hnt.holdAt } }
  let a := (a.setS Reg.HNT_PTP_OFFSET (satSigned 32 offset)).setF Reg.HNT_PTP_STATUS_GOOD_SYNCS (s.goodRun offset)
  { a with hnt := { a.hnt with badRun := s.farRun offset } }

/-- Whether an offset shows TIME_FAULT: beyond a second of a set counter, on the module's own grid, where none stands. -/
def State.faultsTime (s : State) (offset : Int) : Bool :=
  s.ownGrid && s.isF Reg.CLK_STATUS_COUNTER_SET && !(-1000000000 ≤ offset && offset ≤ 1000000000) && !s.isF Reg.CLK_STATUS_TIME_FAULT

/-- TIME_FAULT is shown and recorded. -/
def State.timeFault (s : State) (offset : Int) : State := (s.setF Reg.CLK_STATUS_TIME_FAULT 1).event 0x0D08 0xFFFF [unsign 64 offset]

/-- Whether a Sync takes LOCKED to HOLDOVER. -/
def State.losesTime (s : State) (offset : Int) : Bool := s.tq = tqLocked && 4 ≤ s.farRun offset

/-- Whether a Sync takes ACQUIRING or HOLDOVER to LOCKED. -/
def State.locksTime (s : State) (offset : Int) : Bool := (s.tq = tqAcquiring || s.tq = tqHoldover) && 16 ≤ s.goodRun offset

section
variable {s t : State} {port now domain t1 t2 : Nat} {delay : Option (Nat × Nat)} {offset : Int}

theorem exec_ptpSync_selected (hmaster : s.isF Reg.HNT_PTP_STATUS_MASTER = true) (hport : s.getF Reg.HNT_PTP_STATUS_PORT = port)
    (hdomain : domain = s.getF Reg.HNT_PTP_CFG_DOMAIN) (hup : s.portUp port = true) (hoffset : offset = s.ptpOffset port t1 t2 delay) :
    exec (.ptpSyncReceive port now domain t1 t2 delay) s = .next
      (let m := s.syncMeasured port now t1 t2 delay
      let a := if s.faultsTime offset then m.timeFault offset else m
      let b := if s.losesTime offset then a.enterHoldover now else if s.locksTime offset then a.setTq 3 else a
      (b.steer offset).askDelay port now) := by
  subst hoffset
  exact congrArg Host.Outcome.next ((if_neg (by simp [hmaster, hport, hdomain, hup])).trans rfl)

theorem State.farRun_eq : s.farRun offset = if -500 ≤ offset && offset ≤ 500 then 0 else s.hnt.badRun + 1 := by
  rw [State.farRun]
  cases -500 ≤ offset && offset ≤ 500 <;> rfl

/-- What a measured Sync leaves in the network's part. -/
def State.hntMeasured (s : State) (port now t1 t2 : Nat) (delay : Option (Nat × Nat)) (offset : Int) : HntState :=
  { s.hnt with
    lastSync := now, badRun := if -500 ≤ offset && offset ≤ 500 then 0 else s.hnt.badRun + 1
    pathDelay := Sparse.upd 0 s.hnt.pathDelay port (s.pathDelay port t1 t2 delay)
    holdAt := if s.tq = 2 ∧ now = s.holdEnd then now else s.hnt.holdAt }

theorem State.hntAlone_syncMeasured : HntAlone s (s.syncMeasured port now t1 t2 delay)
    (s.hntMeasured port now t1 t2 delay (s.ptpOffset port t1 t2 delay)) := by
  have hhold : (if s.tq = tqHoldover && now = s.holdEnd then now else s.hnt.holdAt) =
      if s.tq = 2 ∧ now = s.holdEnd then now else s.hnt.holdAt := if_congr (by simp) rfl rfl
  rw [State.hntMeasured, ← State.farRun_eq, ← hhold]
  rfl

theorem State.wrote_syncMeasured (hs : s.canonical = true) : Wrote s (s.syncMeasured port now t1 t2 delay)
    [(Reg.HNT_PTP_OFFSET, 0, unsign 32 (satSigned 32 (s.ptpOffset port t1 t2 delay))),
      (Reg.HNT_PTP_STATUS_GOOD_SYNCS, 0, s.goodRun (s.ptpOffset port t1 t2 delay))] := by
  refine Wrote.frame (t := (({ s with hnt := _ } : State).setS Reg.HNT_PTP_OFFSET _).setF Reg.HNT_PTP_STATUS_GOOD_SYNCS _) ?_
  exact (Wrote.frame (.refl hs)).setF.setF

theorem State.faultsTime_off (h : s.ownGrid = false ∨ s.isF Reg.CLK_STATUS_COUNTER_SET = false ∨
    (-1000000000 ≤ offset ∧ offset ≤ 1000000000) ∨ s.isF Reg.CLK_STATUS_TIME_FAULT = true) : s.faultsTime offset = false := by
  rw [State.faultsTime]
  rcases h with h | h | ⟨hlo, hhi⟩ | h
  · simp [h]
  · simp [h]
  · simp [hlo, hhi]
  · simp [h]

theorem State.losesTime_iff : s.losesTime offset = true ↔ s.tq = 3 ∧ 4 ≤ if -500 ≤ offset && offset ≤ 500 then 0 else s.hnt.badRun + 1 := by
  rw [State.losesTime, State.farRun_eq, Bool.and_eq_true, decide_eq_true_eq, decide_eq_true_eq]

theorem State.locksTime_iff : s.locksTime offset = true ↔ (s.tq = 1 ∨ s.tq = 2) ∧ 16 ≤ s.goodRun offset := by
  rw [State.locksTime, Bool.and_eq_true, Bool.or_eq_true, decide_eq_true_eq, decide_eq_true_eq, decide_eq_true_eq]

theorem State.goodRun_lt : s.goodRun offset < 256 := by
  unfold State.goodRun
  split <;> omega

/-- A Sync that takes ACQUIRING or HOLDOVER to LOCKED. -/
theorem exec_ptpSync_locks (hmaster : s.isF Reg.HNT_PTP_STATUS_MASTER = true) (hport : s.getF Reg.HNT_PTP_STATUS_PORT = port)
    (hdomain : domain = s.getF Reg.HNT_PTP_CFG_DOMAIN) (hup : s.portUp port = true) (hoffset : offset = s.ptpOffset port t1 t2 delay)
    (hlocks : (s.tq = 1 ∨ s.tq = 2) ∧ 16 ≤ s.goodRun offset) (hfault : s.faultsTime offset = false) :
    exec (.ptpSyncReceive port now domain t1 t2 delay) s = .next
      ((((s.syncMeasured port now t1 t2 delay).setTq 3).steer offset).askDelay port now) := by
  have hloses : s.losesTime offset = false := by
    rw [Bool.eq_false_iff, ne_eq, State.losesTime_iff]
    omega
  rw [exec_ptpSync_selected hmaster hport hdomain hup hoffset, hfault, hloses, State.locksTime_iff.2 hlocks]
  simp only [Bool.false_eq_true, if_false, if_true]

theorem State.wrote_syncLocked (hs : s.canonical = true) (hq : s.tq ≠ 3) : Wrote s ((s.syncMeasured port now t1 t2 delay).setTq 3)
    ([(Reg.HNT_PTP_OFFSET, 0, unsign 32 (satSigned 32 (s.ptpOffset port t1 t2 delay))),
      (Reg.HNT_PTP_STATUS_GOOD_SYNCS, 0, s.goodRun (s.ptpOffset port t1 t2 delay))] ++ s.tqWrites 3) := by
  have hm := State.wrote_syncMeasured (port := port) (now := now) (t1 := t1) (t2 := t2) (delay := delay) hs
  have htq : (s.syncMeasured port now t1 t2 delay).tq = s.tq := hm.tq rfl
  exact hm.setTq (htq ▸ hq) rfl

/-- A Sync that takes LOCKED to HOLDOVER. -/
theorem exec_ptpSync_loses (hmaster : s.isF Reg.HNT_PTP_STATUS_MASTER = true) (hport : s.getF Reg.HNT_PTP_STATUS_PORT = port)
    (hdomain : domain = s.getF Reg.HNT_PTP_CFG_DOMAIN) (hup : s.portUp port = true) (hoffset : offset = s.ptpOffset port t1 t2 delay)
    (hloses : s.tq = 3 ∧ 4 ≤ if -500 ≤ offset && offset ≤ 500 then 0 else s.hnt.badRun + 1) (hfault : s.faultsTime offset = false) :
    exec (.ptpSyncReceive port now domain t1 t2 delay) s = .next
      ((((s.syncMeasured port now t1 t2 delay).enterHoldover now).steer offset).askDelay port now) := by
  rw [exec_ptpSync_selected hmaster hport hdomain hup hoffset, hfault, State.losesTime_iff.2 hloses]
  simp only [Bool.false_eq_true, if_false, if_true]

/-- A Sync that leaves the time quality. -/
theorem exec_ptpSync_stays (hmaster : s.isF Reg.HNT_PTP_STATUS_MASTER = true) (hport : s.getF Reg.HNT_PTP_STATUS_PORT = port)
    (hdomain : domain = s.getF Reg.HNT_PTP_CFG_DOMAIN) (hup : s.portUp port = true) (hoffset : offset = s.ptpOffset port t1 t2 delay)
    (hloses : ¬(s.tq = 3 ∧ 4 ≤ if -500 ≤ offset && offset ≤ 500 then 0 else s.hnt.badRun + 1))
    (hlocks : ¬((s.tq = 1 ∨ s.tq = 2) ∧
      16 ≤ if -50 ≤ offset && offset ≤ 50 then min 255 (s.getF Reg.HNT_PTP_STATUS_GOOD_SYNCS + 1) else 0)) :
    exec (.ptpSyncReceive port now domain t1 t2 delay) s = .next
      (((if s.faultsTime offset then (s.syncMeasured port now t1 t2 delay).timeFault offset
        else s.syncMeasured port now t1 t2 delay).steer offset).askDelay port now) := by
  rw [exec_ptpSync_selected hmaster hport hdomain hup hoffset, Bool.eq_false_iff.2 (mt State.losesTime_iff.1 hloses),
    Bool.eq_false_iff.2 (mt State.locksTime_iff.1 hlocks)]
  simp only [Bool.false_eq_true, if_false]

/-- The bits of SLEWING and TIME_FAULT are set in either order. -/
theorem slewing_timeFault_comm {w : Word} :
    Reg.CLK_STATUS_SLEWING.into (Reg.CLK_STATUS_TIME_FAULT.into w 1) 1 = Reg.CLK_STATUS_TIME_FAULT.into (Reg.CLK_STATUS_SLEWING.into w 1) 1 := by
  apply BitVec.eq_of_toNat_eq
  rw [Fld.into_toNat _ _ _ (by decide), Fld.into_toNat _ _ _ (by decide), Fld.into_toNat _ _ _ (by decide), Fld.into_toNat _ _ _ (by decide)]
  have hlt := w.isLt
  norm_num
  omega

theorem State.wrote_timeFault {ws : List (Fld × Nat × Nat)} (h : Wrote s t ws) :
    Wrote s (t.timeFault offset) (ws ++ [(Reg.CLK_STATUS_TIME_FAULT, 0, 1)]) := by
  have hset : Wrote s (t.setF Reg.CLK_STATUS_TIME_FAULT 1) (ws ++ [(Reg.CLK_STATUS_TIME_FAULT, 0, 1)]) := h.setF
  exact hset.event

theorem Timed.timeFault {hnt : HntState} {outbox : List Out} {free : Nat} {events : List LogEvent} (h : Timed s t hnt outbox free events) :
    Timed s (t.timeFault offset) hnt outbox free (events ++ [LogEvent.mk 0x0D08 0xFFFF [unsign 64 offset]]) := (h.regs (.setF .refl)).event

end

/-! ## The selection of a master (R234, R235) -/

/-- A master is shown as selected on its port. -/
def State.masterShown (s : State) (port : Nat) (x : PtpAnn) : State :=
  (({ s with hnt := { s.hnt with utcOff := x.utcOffset } }).setF Reg.HNT_PTP_STATUS_MASTER 1).setF Reg.HNT_PTP_STATUS_PORT port

/-- The frame counter waits to be set, where `due` holds. -/
def State.awaitCounter (s : State) (due : Bool) : State := { s with hnt := { s.hnt with counterDue := s.hnt.counterDue || due } }

section
variable {s t : State} {port now : Nat} {x : PtpAnn} {ws : List (Fld × Nat × Nat)} {hnt : HntState} {outbox : List Out} {free : Nat}
  {events : List LogEvent}

theorem State.bestMaster_congr (h : t.hnt.foreign = s.hnt.foreign) : t.bestMaster now = s.bestMaster now := by
  simp only [State.bestMaster, State.master, h]

theorem State.selectMaster_none (h : s.bestMaster now = none) : s.selectMaster now = s.setF Reg.HNT_PTP_STATUS_MASTER 0 := by
  rw [State.selectMaster, h]

theorem State.selectMaster_some (h : s.bestMaster now = some (port, x)) (hq : s.tq ≠ 0) : s.selectMaster now = s.masterShown port x := by
  rw [State.selectMaster, h]
  exact if_neg hq

/-- A selection takes UNLOCKED to ACQUIRING, and a counter not yet set waits to be. -/
theorem State.selectMaster_unlocked (h : s.bestMaster now = some (port, x)) (hq : s.tq = 0) :
    s.selectMaster now = ((s.masterShown port x).setTq 1).awaitCounter (!s.isF Reg.CLK_STATUS_COUNTER_SET) := by
  rw [State.selectMaster, h]
  exact if_pos hq

theorem Wrote.awaitCounter {due : Bool} (h : Wrote s t ws) : Wrote s (t.awaitCounter due) ws := h.frame

theorem Timed.awaitCounter {due : Bool} (h : Timed s t hnt outbox free events) :
    Timed s (t.awaitCounter due) { hnt with counterDue := hnt.counterDue || due } outbox free events := by
  rw [← h.hnt_eq]
  exact h.setHnt

theorem Wrote.masterShown (h : Wrote s t ws) :
    Wrote s (t.masterShown port x) (ws ++ [(Reg.HNT_PTP_STATUS_MASTER, 0, 1), (Reg.HNT_PTP_STATUS_PORT, 0, port)]) := by
  have hframe : Wrote s { t with hnt := { t.hnt with utcOff := x.utcOffset } } ws := h.frame
  have hshown := (hframe.setF (f := Reg.HNT_PTP_STATUS_MASTER) (i := 0) (v := 1)).setF (f := Reg.HNT_PTP_STATUS_PORT) (i := 0) (v := port)
  rwa [List.append_assoc] at hshown

theorem Timed.masterShown (h : Timed s t hnt outbox free events) :
    Timed s (t.masterShown port x) { hnt with utcOff := x.utcOffset } outbox free events := by
  rw [← h.hnt_eq]
  exact h.setHnt.regs (.setF <| .setF .refl)

theorem exec_ptpSyncLoss_lost (hlost : s.masterLost now = true) (hq : s.tq = 3) :
    exec (.ptpSyncLoss now) s = .next ((s.enterHoldover now).selectMaster now) :=
  congrArg Host.Outcome.next ((if_pos hlost).trans (congrArg (State.selectMaster · now) (if_pos hq)))

theorem State.bestMaster_enterHoldover : (s.enterHoldover now).bestMaster now = s.bestMaster now :=
  State.bestMaster_congr (by rw [(Timed.refl (s := s)).enterHoldover.hnt_eq])

theorem exec_ptpAnnounce_heard {announce : PtpAnn} (hport : port < 2) (hup : s.portUp port = true)
    (hdomain : announce.domain = s.getF Reg.HNT_PTP_CFG_DOMAIN) (hkept : s.masterLost now = false ∨ s.tq ≠ 3) :
    exec (.ptpAnnounceReceive port now announce) s = .next
      (({ s with hnt := { s.hnt with foreign := Sparse.upd none s.hnt.foreign port (some (announce, now)) } }).selectMaster now) := by
  have hsame : (if s.masterLost now then s.loseTime now else s) = s := by
    split
    · next hlost =>
      rcases hkept with h | h
      · rw [h] at hlost
        exact absurd hlost Bool.false_ne_true
      · exact if_neg h
    · rfl
  refine congrArg Host.Outcome.next ((if_neg (by simp [hup, hdomain]; omega)).trans ?_)
  extract_lets +onlyGivenNames u
  rw [show u = s from hsame]

end

/-! ## Links and neighbour answers (R222, R223) -/

/-- The link bit of a rack port. -/
abbrev linkField (port : Nat) : Fld := if port = 0 then Reg.HNT_STATUS_LINK_A else Reg.HNT_STATUS_LINK_B

section
variable {s t : State} {port now : Nat} {up : Bool} {frame : List Byte} {p r : Packet} {ws : List (Fld × Nat × Nat)}

theorem State.icmpAnswer_echo (hnext : p.next = 58) (hsum : ipSum p.src p.dst 58 p.payload = 0xFFFF) (htype : beAt p.payload 0 1 = 128)
    (hdst : p.dst ∈ s.portAddrs port) :
    s.icmpAnswer port p = some ⟨p.dst, p.src, 58, 255, beBytes 2 0x8100 ++ beBytes 2 (0xFFFF - ipSum p.dst p.src 58
      (beBytes 2 0x8100 ++ beBytes 2 0 ++ p.payload.drop 4)) ++ p.payload.drop 4⟩ := by
  unfold State.icmpAnswer
  dsimp only
  rw [if_neg (by simp [hnext, hsum]), if_neg (by simp [htype]), if_pos (by simp [htype, hdst])]
  rfl

theorem State.icmpAnswer_solicited (hnext : p.next = 58) (hsum : ipSum p.src p.dst 58 p.payload = 0xFFFF) (htype : beAt p.payload 0 1 = 135)
    (hhop : p.hop = 255) (hlen : 24 ≤ p.payload.length) (htarget : slice p.payload 8 16 ∈ s.portAddrs port) :
    s.icmpAnswer port p = some ⟨slice p.payload 8 16, p.src, 58, 255, beBytes 2 0x8800 ++ beBytes 2 (0xFFFF -
      ipSum (slice p.payload 8 16) p.src 58 (beBytes 2 0x8800 ++ beBytes 2 0 ++ beBytes 4 0x60000000 ++ slice p.payload 8 16)) ++
      beBytes 4 0x60000000 ++ slice p.payload 8 16⟩ := by
  unfold State.icmpAnswer
  dsimp only
  rw [if_neg (by simp [hnext, hsum]), if_pos (by simp [htype, hhop, hlen, htarget])]
  rfl

theorem exec_icmpv6_answered (hport : port < 3) (hup : s.portUp port = true) (hframe : framePacket frame = some p)
    (hanswer : s.icmpAnswer port p = some r) :
    exec (.icmpv6Receive port frame) s = .next (s.emit .icmpAnswer (port :: r.bytes.map BitVec.toNat)) := by
  refine congrArg Host.Outcome.next ((if_neg (by simp [hup]; omega)).trans ?_)
  rw [hframe, Option.bind_some, hanswer]

end

/-! ## A link change (R223, R239) -/

/-- The link of a rack port is shown with its cause. -/
def State.linkShown (s : State) (port : Nat) (up : Bool) : State := (s.setF (linkField port) (ofBool up)).cause 11 2

/-- Whether the JOINING not yet sent is to be planned. -/
def State.plansJoining (s : State) (now : Nat) : Bool :=
  !(s.hnt.joined || decide (s.phase = phaseWait) || s.hnt.annAt.any fun (x : Nat) => decide (now ≤ x))

/-- The own ANNOUNCE is due as given. -/
def State.setAnnAt (s : State) (due : Option Nat) : State := { s with hnt := { s.hnt with annAt := due } }

section
variable {s t : State} {port now : Nat} {up : Bool}

theorem State.wrote_linkShown (hs : s.canonical = true) (hport : port < 2) : Wrote s (s.linkShown port up)
    [(linkField port, 0, ofBool up), (Reg.SYS_IRQ_CAUSE, 11, putBit (s.getF Reg.SYS_IRQ_CAUSE 11) 2 true)] := by
  have hshown : Wrote s (s.setF (linkField port) (ofBool up)) [(linkField port, 0, ofBool up)] := (Wrote.refl hs).setF
  obtain rfl | rfl : port = 0 ∨ port = 1 := by omega
  · exact hshown.cause rfl
  · exact hshown.cause rfl

theorem Wrote.setAnnAt {ws : List (Fld × Nat × Nat)} {due : Option Nat} (h : Wrote s t ws) : Wrote s (t.setAnnAt due) ws := h.frame

theorem Timed.setAnnAt {hnt : HntState} {due : Option Nat} (h : HntAlone s t hnt) :
    HntAlone s (t.setAnnAt due) (t.setAnnAt due).hnt := h.setHnt

theorem State.netUp_congr (h : t.regs = s.regs) : t.netUp = s.netUp := by
  have hlink (f : Fld) : t.isF f = s.isF f := by rw [State.isF, State.getF, State.rd_congr h, State.isF, State.getF]
  rw [State.netUp, hlink, hlink, State.netUp]

theorem State.linkAnnounce_eq : s.linkAnnounce now =
    s.setAnnAt (if s.plansJoining now then some (s.answerAt now 500 1000) else s.hnt.annAt) := by
  unfold State.plansJoining
  cases hplan : s.hnt.joined || decide (s.phase = phaseWait) || s.hnt.annAt.any fun (x : Nat) => decide (now ≤ x)
  · exact if_neg (Bool.eq_false_iff.1 hplan)
  · exact if_pos hplan

/-- The link is shown, and the time since when the network is up or down starts afresh where that changes. -/
def State.linkSeen (s : State) (port now : Nat) (up : Bool) : State :=
  { s.linkShown port up with hnt := { s.hnt with
    netSince := if (s.linkShown port up).netUp = s.netUp then s.hnt.netSince else now } }

theorem State.hnt_linkSeen {due : Option Nat} : ((s.linkSeen port now up).setAnnAt due).hnt = { s.hnt with
    netSince := if ((s.linkSeen port now up).setAnnAt due).netUp = s.netUp then s.hnt.netSince else now, annAt := due } := by
  have hnet := State.netUp_congr (s := s.linkShown port up) (t := (s.linkSeen port now up).setAnnAt due) rfl
  rw [hnet]
  rfl

theorem State.wrote_linkSeen (hs : s.canonical = true) (hport : port < 2) : Wrote s (s.linkSeen port now up)
    [(linkField port, 0, ofBool up), (Reg.SYS_IRQ_CAUSE, 11, putBit (s.getF Reg.SYS_IRQ_CAUSE 11) 2 true)] :=
  (State.wrote_linkShown hs hport).frame

/-- What the plan of a JOINING rests on, but the links, is as before. -/
theorem State.linkSeen_plans (hs : s.canonical = true) (hport : port < 2) :
    (s.linkSeen port now up).plansJoining now = s.plansJoining now ∧
      (s.linkSeen port now up).answerAt now 500 1000 = s.answerAt now 500 1000 := by
  have hwrote := State.wrote_linkSeen (now := now) (up := up) hs hport
  have hphase : (s.linkSeen port now up).phase = s.phase := by
    obtain rfl | rfl : port = 0 ∨ port = 1 := by omega
    · exact hwrote.getF rfl
    · exact hwrote.getF rfl
  have hid : (s.linkSeen port now up).selfId = s.selfId := by
    obtain rfl | rfl : port = 0 ∨ port = 1 := by omega
    · rw [State.selfId, State.get64, hwrote.rd rfl, hwrote.rd rfl, State.selfId, State.get64]
    · rw [State.selfId, State.get64, hwrote.rd rfl, hwrote.rd rfl, State.selfId, State.get64]
  constructor
  · rw [State.plansJoining, hphase]
    rfl
  · rw [State.answerAt, hid, State.answerAt]

theorem State.linkSeen_announce (hs : s.canonical = true) (hport : port < 2) :
    (if up then (s.linkSeen port now up).linkAnnounce now else s.linkSeen port now up) =
      (s.linkSeen port now up).setAnnAt (if up && s.plansJoining now then some (s.answerAt now 500 1000) else s.hnt.annAt) := by
  obtain ⟨hplans, hanswer⟩ := State.linkSeen_plans (now := now) (up := up) hs hport
  cases up
  · rfl
  · rw [if_pos rfl, State.linkAnnounce_eq, hplans, hanswer]
    rfl

theorem exec_ethLinkChange (hport : port < 2) (hnew : s.isF (linkField port) ≠ up)
    (hrun : up = true → (s.cfg.running && s.runs (15 + port)) = true) :
    exec (.ethLinkChange port up now) s = .next
      (if up then (s.linkSeen port now up).linkAnnounce now else s.linkSeen port now up) := by
  have hseen : (if (s.linkShown port up).netUp = s.netUp then s.linkShown port up
      else { s.linkShown port up with hnt := { (s.linkShown port up).hnt with netSince := now } }) = s.linkSeen port now up := by
    unfold State.linkSeen
    split <;> rfl
  have hdown : (up && !(s.cfg.running && s.runs (15 + port))) = false := by
    cases up
    · rfl
    · rw [hrun rfl]
      rfl
  refine congrArg Host.Outcome.next ((if_neg ?_).trans ?_)
  · rw [hdown]
    simpa [hnew] using hport
  · extract_lets +onlyGivenNames a hnt b
    rw [show b = s.linkSeen port now up from hseen]

end

/-- Settles O42: a Sync is `State.syncMeasured` and what follows it, a loss `State.enterHoldover`, a selection `State.masterShown`; each is
followed by `Wrote` in the registers and by `Timed` beside them. -/
theorem linksAndTimeQuality : Obligations.LinksAndTimeQuality := by
  refine ⟨?link, ?linkSame, ?echo, ?solicited, ?other, ?locksOwn, ?locksTwin, ?loses, ?steers, ?measures, ?faults, ?unselected,
    ?silent, ?lostNone, ?lostBest, ?kept, ?expires, ?holds, ?acquires, ?selects, ?unheard⟩
  case locksOwn =>
    intro s port now domain t1 t2 delay offset hs hmaster hport hdomain hup hoffset hown hlocks hfault
    have hset := State.wrote_syncLocked (port := port) (now := now) (t1 := t1) (t2 := t2) (delay := delay) hs (by omega)
    have hhnt := (State.hntAlone_syncMeasured (s := s) (port := port) (now := now) (t1 := t1) (t2 := t2) (delay := delay)).regs
      (State.regsAlone_setTq (q := 3))
    rw [← hoffset] at hset hhnt
    have hgrid := (hset.ownGrid rfl).trans hown
    have hq : ((s.syncMeasured port now t1 t2 delay).setTq 3).tq = 3 := hset.tq rfl
    have hend := (hset.steer (offset := offset) hgrid (by omega) hhnt.free_eq).askDelay (port := port) (now := now)
    have hleft := (hhnt.steer (offset := offset) hgrid (by omega)).askDelay (port := port) (now := now)
    exact ⟨_, exec_ptpSync_locks hmaster hport hdomain hup hoffset hlocks (State.faultsTime_off hfault),
      hend.tq rfl, hend.getF rfl, hend.raises (by decide) rfl, (hend.sets _).trans (Fld.into_word ⟨rfl, rfl⟩), hend.sets _, hend.sets _,
      hleft.free_eq, (hend.getF rfl).trans (Nat.mod_eq_of_lt State.goodRun_lt), hleft.hnt_eq, hleft.outbox_eq, hend.only rfl,
      hleft.frame_quiet⟩
  case locksTwin =>
    intro s port now domain t1 t2 delay offset hs hmaster hport hdomain hup hoffset hown hlocks hfault
    have hset := State.wrote_syncLocked (port := port) (now := now) (t1 := t1) (t2 := t2) (delay := delay) hs (by omega)
    have hhnt := (State.hntAlone_syncMeasured (s := s) (port := port) (now := now) (t1 := t1) (t2 := t2) (delay := delay)).regs
      (State.regsAlone_setTq (q := 3))
    rw [← hoffset] at hset hhnt
    have hgrid := (hset.ownGrid rfl).trans hown
    have hend := hset.askDelay (port := port) (now := now)
    have hleft := hhnt.askDelay (port := port) (now := now)
    refine ⟨_, exec_ptpSync_locks hmaster hport hdomain hup hoffset hlocks (State.faultsTime_off hfault), ?_⟩
    rw [State.steer_off (.inl hgrid)]
    exact ⟨hend.tq rfl, hend.getF rfl, hend.raises (by decide) rfl, (hend.sets _).trans (Fld.into_word ⟨rfl, rfl⟩), hend.sets _,
      (hend.getF rfl).trans (Nat.mod_eq_of_lt State.goodRun_lt), hleft.hnt_eq, hleft.outbox_eq, hend.only rfl, hleft.frame_outbox⟩
  case loses =>
    intro s port now domain t1 t2 delay offset hs hmaster hport hdomain hup hoffset htq hbad hfault
    have hm := State.wrote_syncMeasured (port := port) (now := now) (t1 := t1) (t2 := t2) (delay := delay) hs
    have hset := hm.enterHoldover (now := now) (by rw [hm.tq rfl]; exact fun h => absurd (htq.symm.trans h) (by decide)) rfl
    have hhnt := (State.hntAlone_syncMeasured (s := s) (port := port) (now := now) (t1 := t1) (t2 := t2) (delay := delay)).enterHoldover
      (now := now)
    rw [← hoffset] at hset hhnt
    have hend := hset.askDelay (port := port) (now := now)
    have hleft := hhnt.askDelay (port := port) (now := now)
    refine ⟨_, exec_ptpSync_loses hmaster hport hdomain hup hoffset ⟨htq, hbad⟩ (State.faultsTime_off hfault), ?_⟩
    rw [State.steer_off (.inr (hset.tq rfl))]
    exact ⟨hend.tq rfl, hend.getF rfl, hend.raises (by decide) rfl, (hend.sets _).trans (Fld.into_word ⟨rfl, rfl⟩), hend.sets _,
      hend.getF rfl, hleft.hnt_eq, hleft.outbox_eq, hend.only rfl, hleft.frame_outbox⟩
  case steers =>
    intro s port now domain t1 t2 delay offset hs hmaster hport hdomain hup hoffset hown hstays hfault
    have hm := State.wrote_syncMeasured (port := port) (now := now) (t1 := t1) (t2 := t2) (delay := delay) hs
    have hhnt := State.hntAlone_syncMeasured (s := s) (port := port) (now := now) (t1 := t1) (t2 := t2) (delay := delay)
    rw [← hoffset] at hm hhnt
    have hgrid := (hm.ownGrid rfl).trans hown
    have hq : (s.syncMeasured port now t1 t2 delay).tq = s.tq := hm.tq rfl
    have hend := (hm.steer (offset := offset) hgrid (by omega) hhnt.free_eq).askDelay (port := port) (now := now)
    have hleft := (hhnt.steer (offset := offset) hgrid (by omega)).askDelay (port := port) (now := now)
    refine ⟨_, exec_ptpSync_stays hmaster hport hdomain hup hoffset (by omega) (by omega), ?_⟩
    rw [State.faultsTime_off hfault, if_neg Bool.false_ne_true]
    exact ⟨hend.tq rfl, (hend.sets _).trans (Fld.into_word ⟨rfl, rfl⟩), hend.sets _, hend.sets _, hleft.free_eq, hend.sets _,
      hleft.hnt_eq, hleft.outbox_eq, hend.only rfl, hleft.frame_quiet⟩
  case measures =>
    intro s port now domain t1 t2 delay offset hs hmaster hport hdomain hup hoffset hoff hstays hfault
    have hm := State.wrote_syncMeasured (port := port) (now := now) (t1 := t1) (t2 := t2) (delay := delay) hs
    have hhnt := State.hntAlone_syncMeasured (s := s) (port := port) (now := now) (t1 := t1) (t2 := t2) (delay := delay)
    rw [← hoffset] at hm hhnt
    have hend := hm.askDelay (port := port) (now := now)
    have hleft := hhnt.askDelay (port := port) (now := now)
    refine ⟨_, exec_ptpSync_stays hmaster hport hdomain hup hoffset (by omega) (by omega), ?_⟩
    rw [State.faultsTime_off hfault, if_neg Bool.false_ne_true, State.steer_off (hoff.imp (hm.ownGrid rfl).trans (hm.tq rfl).trans)]
    exact ⟨hend.tq rfl, (hend.sets _).trans (Fld.into_word ⟨rfl, rfl⟩), hend.sets _, hleft.hnt_eq, hleft.outbox_eq, hend.only rfl,
      hleft.frame_outbox⟩
  case faults =>
    intro s port now domain t1 t2 delay offset hs hmaster hport hdomain hup hoffset hown hset hfar hquiet htq
    have hfault : s.faultsTime offset = true := by simpa [State.faultsTime, hown, hset, hquiet, Decidable.imp_iff_not_or] using hfar
    have hrun : (if -50 ≤ offset && offset ≤ 50 then min 255 (s.getF Reg.HNT_PTP_STATUS_GOOD_SYNCS + 1) else 0) = 0 := if_neg (by simp; omega)
    have hm := State.wrote_timeFault (offset := offset)
      (State.wrote_syncMeasured (port := port) (now := now) (t1 := t1) (t2 := t2) (delay := delay) hs)
    have hhnt := (State.hntAlone_syncMeasured (s := s) (port := port) (now := now) (t1 := t1) (t2 := t2) (delay := delay)).timeFault
      (offset := offset)
    have hgrid := (hm.ownGrid rfl).trans hown
    have hq : ((s.syncMeasured port now t1 t2 delay).timeFault offset).tq = s.tq := hm.tq rfl
    have hend := (hm.steer (offset := offset) hgrid (by omega) hhnt.free_eq).askDelay (port := port) (now := now)
    have hleft := (hhnt.steer (offset := offset) hgrid (by omega)).askDelay (port := port) (now := now)
    refine ⟨_, exec_ptpSync_stays hmaster hport hdomain hup hoffset (by omega) (by omega), ?_⟩
    rw [hfault, if_pos rfl]
    refine ⟨(hend.tq rfl).trans htq, (hend.sets _).trans ?_, hleft.events_eq, hend.sets _, hleft.free_eq, hleft.outbox_eq, hend.only rfl,
      hleft.frame⟩
    have hslew : ofBool (!(-100 ≤ offset && offset ≤ 100)) = 1 := by
      rw [show (decide (-100 ≤ offset) && decide (offset ≤ 100)) = false by simp; omega]
      rfl
    show Reg.CLK_STATUS_SLEWING.into (Reg.CLK_STATUS_TIME_FAULT.into (s.rd (Reg.CLK_STATUS.addr 0 0)) 1) (ofBool _) = _
    rw [hslew]
    exact slewing_timeFault_comm
  case unselected =>
    intro s port now domain t1 t2 delay hnone
    refine ⟨s, congrArg Host.Outcome.next (if_pos ?_), rfl⟩
    rcases hnone with h | h | h | h <;> simp [h]
  case link =>
    intro s port now up hs hport hnew hrun
    have hwrote := State.wrote_linkSeen (now := now) (up := up) hs hport
    have hseen : HntAlone s (s.linkSeen port now up) (s.linkSeen port now up).hnt :=
      (Timed.refl.regs (u := s.linkShown port up) (.cause <| .setF .refl)).setHnt
    refine ⟨_, exec_ethLinkChange hport hnew hrun, ?_⟩
    rw [State.linkSeen_announce hs hport]
    have hlast := hwrote.setAnnAt (due := if up && s.plansJoining now then some (s.answerAt now 500 1000) else s.hnt.annAt)
    have hleft := hseen.setAnnAt (due := if up && s.plansJoining now then some (s.answerAt now 500 1000) else s.hnt.annAt)
    have hhnt := State.hnt_linkSeen (s := s) (port := port) (now := now) (up := up)
      (due := if up && s.plansJoining now then some (s.answerAt now 500 1000) else s.hnt.annAt)
    obtain rfl | rfl : port = 0 ∨ port = 1 := by omega
    · exact ⟨hlast.sets _, hlast.raises (by decide) rfl, hhnt, hlast.only rfl, hleft.frame_hnt⟩
    · exact ⟨hlast.sets _, hlast.raises (by decide) rfl, hhnt, hlast.only rfl, hleft.frame_hnt⟩
  case linkSame =>
    intro s port now up hnone
    refine ⟨s, congrArg Host.Outcome.next (if_pos ?_), rfl⟩
    rcases hnone with h | h | ⟨hup, hrun⟩
    · simp [h]
    · simp [h]
    · rw [hrun, hup]
      simp
  case echo =>
    intro s port frame p hport hup hframe hnext hsum htype hdst
    exact ⟨_, exec_icmpv6_answered hport hup hframe (State.icmpAnswer_echo hnext hsum htype hdst), rfl, rfl⟩
  case solicited =>
    intro s port frame p hport hup hframe hnext hsum htype hhop hlen htarget
    exact ⟨_, exec_icmpv6_answered hport hup hframe (State.icmpAnswer_solicited hnext hsum htype hhop hlen htarget), rfl, rfl⟩
  case other =>
    intro s port frame hnone
    by_cases hon : port < 3 ∧ s.portUp port = true
    · have hanswer : (framePacket frame).bind (s.icmpAnswer port) = none := by
        rcases hnone with h | h | h
        · exact h
        · omega
        · exact absurd (h.symm.trans hon.2) Bool.false_ne_true
      refine ⟨s.macCount port frame, congrArg Host.Outcome.next ((if_neg (by simp [hon.2]; omega)).trans ?_), (if_pos hon).symm⟩
      rw [hanswer]
    · refine ⟨s, congrArg Host.Outcome.next (if_pos ?_), (if_neg hon).symm⟩
      rw [not_and_or, Nat.not_lt, Bool.not_eq_true] at hon
      rcases hon with h | h <;> simp [h]
  case silent =>
    intro s now hs hkept hlate htq
    have hset := (Wrote.refl hs).enterHoldover (now := now) (by rw [htq]; decide) rfl
    have hleft := (Timed.refl (s := s)).enterHoldover (now := now)
    have hlose : s.loseTime now = s.enterHoldover now := if_pos htq
    refine ⟨s.enterHoldover now, congrArg Host.Outcome.next (((if_neg (by simp [hkept])).trans (if_pos hlate)).trans hlose), ?_⟩
    exact ⟨hset.tq rfl, hset.getF rfl, hset.raises (by decide) rfl, hset.sets _, hset.getF rfl, hleft.hnt_eq, hset.only rfl, hleft.frame_hnt⟩
  case lostNone =>
    intro s now hs hlost htq hbest
    have hset := ((Wrote.refl hs).enterHoldover (now := now) (by rw [htq]; decide) rfl).setF
      (f := Reg.HNT_PTP_STATUS_MASTER) (i := 0) (v := 0)
    have hleft := ((Timed.refl (s := s)).enterHoldover (now := now)).regs (.setF (f := Reg.HNT_PTP_STATUS_MASTER) (i := 0) (j := 0) (v := 0) .refl)
    refine ⟨_, exec_ptpSyncLoss_lost hlost htq, ?_⟩
    rw [State.selectMaster_none (State.bestMaster_enterHoldover.trans hbest)]
    have hmaster : ((s.enterHoldover now).setF Reg.HNT_PTP_STATUS_MASTER 0).getF Reg.HNT_PTP_STATUS_MASTER = 0 := hset.getF rfl
    exact ⟨hset.tq rfl, hset.getF rfl, hset.raises (by decide) rfl, hset.sets _, hset.getF rfl, decide_eq_false (by rw [hmaster]; decide),
      hleft.hnt_eq, hset.only rfl, hleft.frame_hnt⟩
  case lostBest =>
    intro s now port x hs hlost htq hbest
    have hlose := (Wrote.refl hs).enterHoldover (now := now) (by rw [htq]; decide) rfl
    have hq : (s.enterHoldover now).tq = 2 := hlose.tq rfl
    have hset := hlose.masterShown (port := port) (x := x)
    have hleft := ((Timed.refl (s := s)).enterHoldover (now := now)).masterShown (port := port) (x := x)
    refine ⟨_, exec_ptpSyncLoss_lost hlost htq, ?_⟩
    rw [State.selectMaster_some (State.bestMaster_enterHoldover.trans hbest) (by rw [hq]; decide)]
    exact ⟨hset.tq rfl, hset.getF rfl, hset.raises (by decide) rfl, hset.sets _, hset.getF rfl, decide_eq_true (hset.getF rfl), hset.getF rfl,
      hleft.hnt_eq, hset.only rfl, hleft.frame_hnt⟩
  case kept =>
    intro s now hkept hnone
    refine ⟨s, congrArg Host.Outcome.next ((if_neg (by simp [hkept])).trans ?_), rfl⟩
    split
    · next hlate => exact if_neg (show ¬s.tq = 3 by omega)
    · rfl
  case expires =>
    intro s now hs htq hend
    have hset := (Wrote.refl hs).setTq (q := 0) (by rw [htq]; decide) rfl
    exact ⟨s.setTq 0, congrArg Host.Outcome.next (if_pos ((Bool.and_eq_true ..).mpr ⟨decide_eq_true htq, decide_eq_true hend⟩)),
      hset.tq rfl, hset.getF rfl, hset.raises (by decide) rfl, hset.sets _, hset.only rfl, State.regsAlone_setTq⟩
  case holds =>
    intro s now hnone
    refine ⟨s, congrArg Host.Outcome.next (if_neg ?_), rfl⟩
    rcases hnone with h | h
    · simp [h]
    · simp
      omega
  case acquires =>
    intro s port now q announce x a hs hport hup hdomain hkept ha hbest htq
    have haw : Wrote s a [] := by
      rw [ha]
      exact (Wrote.refl hs).frame
    have hatq : a.tq = 0 := (haw.tq rfl).trans htq
    have hshown := haw.masterShown (port := q) (x := x)
    have hsq : (a.masterShown q x).tq = 0 := (hshown.tq rfl).trans htq
    have hset := hshown.setTq (q := 1) (by omega) rfl
    have haleft : HntAlone s a a.hnt := by
      rw [ha]
      exact Timed.refl.setHnt
    have hleft := (haleft.masterShown (port := q) (x := x)).regs (State.regsAlone_setTq (q := 1))
    have hcounter : a.isF Reg.CLK_STATUS_COUNTER_SET = s.isF Reg.CLK_STATUS_COUNTER_SET := by rw [State.isF, haw.getF_same rfl, State.isF]
    have hdue : a.hnt.counterDue = s.hnt.counterDue := by rw [ha]
    refine ⟨_, exec_ptpAnnounce_heard hport hup hdomain hkept, ?_⟩
    rw [← ha, State.selectMaster_unlocked hbest hatq]
    have hlast := hleft.awaitCounter (due := !a.isF Reg.CLK_STATUS_COUNTER_SET)
    have hend := hset.awaitCounter (due := !a.isF Reg.CLK_STATUS_COUNTER_SET)
    refine ⟨hend.tq rfl, hend.getF rfl, hend.raises (by decide) rfl, hend.sets _, decide_eq_true (hend.getF rfl), hend.getF rfl,
      hlast.hnt_eq.trans ?_, hend.only rfl, hlast.frame_hnt⟩
    rw [hcounter, hdue]
  case selects =>
    intro s port now q announce x a hs hport hup hdomain hkept ha hbest htq
    have haw : Wrote s a [] := by
      rw [ha]
      exact (Wrote.refl hs).frame
    have hset := haw.masterShown (port := q) (x := x)
    have haleft : HntAlone s a a.hnt := by
      rw [ha]
      exact Timed.refl.setHnt
    have hleft := haleft.masterShown (port := q) (x := x)
    refine ⟨_, exec_ptpAnnounce_heard hport hup hdomain hkept, ?_⟩
    rw [← ha, State.selectMaster_some hbest (by rw [haw.tq rfl]; exact htq)]
    exact ⟨decide_eq_true (hset.getF rfl), hset.getF rfl, hleft.hnt_eq, hset.only rfl, hleft.frame_hnt⟩
  case unheard =>
    intro s port now announce hnone
    refine ⟨s, congrArg Host.Outcome.next (if_pos ?_), rfl⟩
    rcases hnone with h | h | h <;> simp [h]

end Sys2Proof.Machine

end

section
/-! PROOFS. The close of a sweep uses a free value for a string without a valid temperature (O47, log entry 5): `estClose` then calls
`useFree`. The obligation's clause of the close lists what may change, and the count of the uses is not listed. -/

namespace Sys2Proof.Machine

/-! ## The uses of free values only grow -/

/-- Free values have been used `n` times or more. -/
structure FreeUsed (n : Nat) (s : State) : Prop where
  le : n ≤ s.free

namespace FreeUsed

variable {n k : Nat} {s : State}

theorem ite {c : Prop} {_ : Decidable c} {t u : State} (ht : FreeUsed n t) (hu : FreeUsed n u) : FreeUsed n (if c then t else u) := by
  split
  · exact ht
  · exact hu

/-- A state that an operation may have been done to. -/
theorem ifThen {c : Prop} {_ : Decidable c} {t u : State} (hu : FreeUsed n t → FreeUsed n u) (ht : FreeUsed n t) :
    FreeUsed n (if c then u else t) :=
  .ite (hu ht) ht

/-- A state that several cases go on from. -/
theorem via {t u : State} (hu : FreeUsed n t → FreeUsed n u) (ht : FreeUsed n t) : FreeUsed n u := hu ht

theorem foldl {α : Type} {f : State → α → State} {l : List α} (h : FreeUsed n s)
    (hf : ∀ t x, FreeUsed n t → FreeUsed n (f t x)) : FreeUsed n (l.foldl f s) := by
  induction l generalizing s with
  | nil => exact h
  | cons x l ih => exact ih (hf s x h)

theorem setF {f : Fld} {v i j : Nat} (h : FreeUsed n s) : FreeUsed n (s.setF f v i j) := ⟨h.le⟩

theorem setSat {f : Fld} {v i j : Nat} (h : FreeUsed n s) : FreeUsed n (s.setSat f v i j) := .setF h

theorem cause {vector bit : Nat} (h : FreeUsed n s) : FreeUsed n (s.cause vector bit) := .setF h

theorem event {code source : Nat} {data : List Nat} (h : FreeUsed n s) : FreeUsed n (s.event code source data) := ⟨h.le⟩

theorem est {x : EstState} (h : FreeUsed n s) : FreeUsed n { s with est := x } := ⟨h.le⟩

theorem setStr {x : EstString} (h : FreeUsed n s) : FreeUsed n (s.setStr k x) := .est h

theorem useFreeIf {c : Prop} {_ : Decidable c} (h : FreeUsed n s) :
    FreeUsed (if c then n + 1 else n) (if c then s.useFree else s) := by
  split
  · exact ⟨Nat.succ_le_succ h.le⟩
  · exact h

/-! ## The estimator at a close -/

theorem showLimits (h : FreeUsed n s) : FreeUsed n (s.showLimits k) := .setSat <| .setSat <| .setF <| .setF h

theorem showString (h : FreeUsed n s) : FreeUsed n (s.showString k) :=
  .showLimits <| .setF <| .setF <| .setF <| .setSat <| .setF <| .setSat <| .setF <| .setF <| .setSat <| .setF <| .setSat <| .setF h

theorem walkEnd {done : Bool} (h : FreeUsed n s) : FreeUsed n (s.walkEnd k done) :=
  .showString <| .cause <| .event <| .setF <| .setStr h

theorem learnEnd {outcome : Nat} (h : FreeUsed n s) : FreeUsed n (s.learnEnd k outcome) :=
  .showString <| .cause <| .event <| .setF <| .setStr h

theorem learnCheck (h : FreeUsed n s) : FreeUsed n (s.learnCheck k) := .ite (.learnEnd h) h

theorem setAnchor {full : Bool} (h : FreeUsed n s) : FreeUsed n (s.setAnchor k full) :=
  .via (fun ha => .ite (.ite (.setStr ha) ha) <| .ite (.ite (.learnEnd <| .setStr ha) <| .learnEnd ha) ha) <|
    .ifThen .walkEnd <| .cause <| .setF <| .setF <| .setF <| .setF <| .setF <| .setF <| .setStr <|
    .ifThen (fun ha => .event <| .setF ha) <| .event h

theorem publishRecord {ts : Nat} {ship : Bool} (h : FreeUsed n s) : FreeUsed n (s.publishRecord ts ship) :=
  .ite h <| .est <| .foldl h fun _ _ => .setF

/-- A string that is estimated uses a free value for D(T) where it has no valid temperature. -/
theorem estCloseOn {ts : Nat} (hon : s.estOn k = true) (h : FreeUsed n s) :
    FreeUsed (if (s.temps k).isEmpty then n + 1 else n) (s.estClose k ts) := by
  unfold State.estClose
  rw [hon]
  refine .showString <| .learnCheck <| .ifThen .learnEnd <| .setF <| .setStr <| .useFreeIf ?_
  split
  · exact .setStr h
  · exact .via (fun ha => .ite (.ifThen .setAnchor <| .setF ha) <| .ite (.setF ha) ha) <|
      .via (fun ha => .ite (.ifThen .setAnchor <| .setF ha) <| .ite (.setF ha) ha) <| .setF <| .setF <| .setStr h

theorem estClose {ts : Nat} (h : FreeUsed n s) : FreeUsed n (s.estClose k ts) := by
  by_cases hon : s.estOn k = true
  · exact ⟨(show n ≤ if (s.temps k).isEmpty then n + 1 else n by split <;> omega).trans (estCloseOn hon h).le⟩
  · simpa [State.estClose, hon] using h

end FreeUsed

/-! ## The refuting close -/

/-- A chain of one position without temperature sensors, string 0 estimated, after its passes. -/
def coldChain : State :=
  { ((((State.reset.setF Reg.PKL_CFG_EN 1).setF Reg.PKL_CFG_NODES 1).setF Reg.PKL_ND_MAP_EN 1).setF Reg.EST_CFG_EN 1).setF
      Reg.EST_S_CFG_EN 1 with
    pkl := { sweep := true, passDone := true } }

/-- What follows when the estimator closes string 0 without a valid temperature. -/
theorem freeUsed_afterClose {s : State} {ts ts' ts'' : Nat} (hon : s.estOn 0 = true) (hcold : s.temps 0 = []) :
    FreeUsed 1 ((((s.estClose 0 ts).estClose 1 ts').publishRecord ts'' false).cause 9 0) := by
  have hclosed : FreeUsed 1 (s.estClose 0 ts) := by simpa [hcold] using FreeUsed.estCloseOn (n := 0) (ts := ts) hon ⟨Nat.zero_le _⟩
  exact .cause <| .publishRecord <| .estClose hclosed

theorem freeUsed_coldChain_closeSweep : FreeUsed 1 (coldChain.closeSweep true) := by
  unfold State.closeSweep
  exact freeUsed_afterClose (by decide +kernel) (by decide +kernel)

/-- A close that is due is carried out. -/
theorem exec_sweepClose_of_due {s : State} {now : Nat} (hsweep : s.pkl.sweep = true) (hpass : s.pkl.passDone = true)
    (hdue : s.pkl.closeAt ≤ now) : exec (.sweepClose now) s = .next (s.closeSweep true) :=
  congrArg Host.Outcome.next (if_pos (by simp [hsweep, hpass, hdue]))

/-- Refutes O47: the clause of the sweep's close lists what may change and leaves out the uses of free values, but an estimated string
without a valid temperature uses one for D(T). -/
theorem not_sweepsBalancingAndPackAuthentication : ¬ Obligations.SweepsBalancingAndPackAuthentication := by
  unfold Obligations.SweepsBalancingAndPackAuthentication
  rintro ⟨-, -, -, -, -, -, -, -, -, -, -, -, -, hclose, -⟩
  obtain ⟨t, ht, -, -, -, -, -, -, -, hframe⟩ := hclose coldChain 0 (by decide +kernel) rfl rfl (Nat.zero_le _)
  have hrun : coldChain.closeSweep true = t := Host.Outcome.next.inj ((exec_sweepClose_of_due rfl rfl (Nat.zero_le _)).symm.trans ht)
  have hkept : t.free = 0 := by rw [hframe]; rfl
  have hused : 1 ≤ t.free := hrun ▸ freeUsed_coldChain_closeSweep.le
  omega

end Sys2Proof.Machine
end

section

/-!
PROOFS. The loop tiles' deadline misses and the residue test (04 R79 to R84). A miss writes LT_STAT, LT_MISS_SUM and the two counters
(`State.missed`), a loop fault LT_STAT, LT_FAULT, LT_OUT and the module's alarm cause (`State.faulted`); both are followed by `Wrote`.
-/

namespace Sys2Proof.Machine

/-! ## Chains of writes: what they write to a register -/

section
variable {s t : State} {ws : List (Fld × Nat × Nat)} {fs : List (Fld × Nat)} {f : Fld} {i n v a : Nat}

theorem writesAt_nil : writesAt a [] = [] := rfl

/-! The conditions on addresses are inequalities, which `omega` decides once `Fld.addr` is unfolded. -/

theorem writesAt_cons_same (hle : f.addr i 0 ≤ a) (hge : a ≤ f.addr i 0) : writesAt a ((f, i, v) :: ws) = (f, v) :: writesAt a ws :=
  List.filterMap_cons_some (if_pos (Nat.le_antisymm hle hge))

theorem writesAt_cons_other (h : f.addr i 0 < a ∨ a < f.addr i 0) : writesAt a ((f, i, v) :: ws) = writesAt a ws :=
  List.filterMap_cons_none (if_neg (Nat.ne_iff_lt_or_gt.2 h))

theorem Wrote.setsFields (h : Wrote s t ws) (ha : writesAt a ws = fs) : SetsFields s t a fs := ha ▸ h.sets a

theorem Wrote.setsField (h : Wrote s t ws) (ha : writesAt (f.addr i 0) ws = [(f, v)]) : SetsField s t f i v := h.setsFields ha

theorem Wrote.setMapBit {b : Bool} (h : Wrote s t ws) (ha : writesAt (f.addr (n / 32) 0) ws = []) :
    Wrote s (t.setMapBit f n b) (ws ++ [(f, n / 32, putBit (s.getF f (n / 32)) (n % 32) b)]) := by
  rw [State.setMapBit, h.getF_same ha]
  exact h.setF

theorem Wrote.bump (h : Wrote s t ws) (hsame : t.getF f i = s.getF f i) :
    Wrote s (t.bump f i) (ws ++ [(f, i, min (s.getF f i + 1) (2 ^ f.w - 1))]) := by
  rw [State.bump, State.bumpBy, hsame]
  exact h.setF

end

section
variable {s t : State}

theorem RegsAlone.eff (h : RegsAlone s t) : t.eff = s.eff := by
  unfold RegsAlone at h
  rw [h]

theorem RegsAlone.twn (h : RegsAlone s t) : t.twn = s.twn := by
  unfold RegsAlone at h
  rw [h]

end

/-! ## A missed sample (R82, R83) -/

/-- A missed sample is shown and counted, and the block that records the tile closes. -/
def State.missed (s : State) (n : Nat) : State :=
  ((((s.setF Reg.LT_STAT_MISS 1 n).setMapBit Reg.LT_MISS_SUM n true).bump Reg.LT_MISS_MISS_COUNT n).bump Reg.LT_MISS_MISS_TOTAL n).captureSkip
    (0x40 + n)

/-- What a missed sample leads to once it is counted: on a CRITICAL tile a pre-run fails, and the fourth in a row is a loop fault. -/
def State.missJudged (s : State) (n cause at16 : Nat) : State :=
  let a := if s.isE Reg.LT_CTL_CRITICAL n then s.preRunFail else s
  if 4 ≤ a.getF Reg.LT_MISS_MISS_COUNT n && a.isE Reg.LT_CTL_CRITICAL n then
    (a.loopFault n at16).event 0x0303 n [n, a.getF Reg.LT_MISS_MISS_TOTAL n, cause]
  else a

/-- The writes of a missed sample. -/
abbrev State.missWrites (s : State) (n : Nat) : List (Fld × Nat × Nat) :=
  [(Reg.LT_STAT_MISS, n, 1), (Reg.LT_MISS_SUM, n / 32, putBit (s.getF Reg.LT_MISS_SUM (n / 32)) (n % 32) true),
    (Reg.LT_MISS_MISS_COUNT, n, min (s.getF Reg.LT_MISS_MISS_COUNT n + 1) 255),
    (Reg.LT_MISS_MISS_TOTAL, n, min (s.getF Reg.LT_MISS_MISS_TOTAL n + 1) (2 ^ 24 - 1))]

section
variable {s t u : State} {ws : List (Fld × Nat × Nat)} {n cause at16 due : Nat}

theorem writesAt_missWrites_stat : writesAt (Reg.LT_STAT.addr n 0) (s.missWrites n) = [(Reg.LT_STAT_MISS, 1)] := by
  simp (disch := (simp only [Fld.addr]; omega)) only [writesAt_cons_other, writesAt_cons_same, writesAt_nil]

theorem writesAt_missWrites_sum : writesAt (Reg.LT_MISS_SUM.addr (n / 32) 0) (s.missWrites n) =
    [(Reg.LT_MISS_SUM, putBit (s.getF Reg.LT_MISS_SUM (n / 32)) (n % 32) true)] := by
  simp (disch := (simp only [Fld.addr]; omega)) only [writesAt_cons_other, writesAt_cons_same, writesAt_nil]

theorem writesAt_missWrites_counts : writesAt (Reg.LT_MISS.addr n 0) (s.missWrites n) =
    [(Reg.LT_MISS_MISS_COUNT, min (s.getF Reg.LT_MISS_MISS_COUNT n + 1) 255),
      (Reg.LT_MISS_MISS_TOTAL, min (s.getF Reg.LT_MISS_MISS_TOTAL n + 1) (2 ^ 24 - 1))] := by
  simp (disch := (simp only [Fld.addr]; omega)) only [writesAt_cons_other, writesAt_cons_same, writesAt_nil]

theorem writesAt_missWrites_fault : writesAt (Reg.LT_FAULT.addr (n / 32) 0) (s.missWrites n) = [] := by
  simp (disch := (simp only [Fld.addr]; omega)) only [writesAt_cons_other, writesAt_nil]

theorem writesAt_missWrites_cause : writesAt (Reg.SYS_IRQ_CAUSE.addr 1 0) (s.missWrites n) = [] := by
  simp (disch := (simp only [Fld.addr]; omega)) only [writesAt_cons_other, writesAt_nil]

theorem writesAt_missWrites_out : writesAt (Reg.LT_OUT.addr n 0) (s.missWrites n) = [] := by
  simp (disch := (simp only [Fld.addr]; omega)) only [writesAt_cons_other, writesAt_nil]

theorem RingsAlone.wrote (h : Wrote s t ws) (hu : RingsAlone t u) : Wrote s u ws := by
  unfold RingsAlone at hu
  rw [hu]
  exact h.frame

theorem Wrote.missed (h : Wrote s t ws) (hsum : writesAt (Reg.LT_MISS_SUM.addr (n / 32) 0) ws = [])
    (hcounts : writesAt (Reg.LT_MISS.addr n 0) ws = []) : Wrote s (t.missed n) (ws ++ s.missWrites n) := by
  replace hcounts : writesAt (Reg.LT_MISS_MISS_COUNT.addr n 0) ws = [] := hcounts
  have hflag : Wrote s (t.setF Reg.LT_STAT_MISS 1 n) _ := h.setF
  have hshown := hflag.setMapBit (f := Reg.LT_MISS_SUM) (n := n) (b := true) <| by
    simp (disch := (simp only [Fld.addr]; omega)) only [writesAt_append, hsum, writesAt_cons_other, writesAt_nil, List.append_nil]
  have hcount := hshown.bump (f := Reg.LT_MISS_MISS_COUNT) (i := n) <| hshown.getF_same <| by
    simp (disch := (simp only [Fld.addr]; omega)) only [writesAt_append, hcounts, writesAt_cons_other, writesAt_nil, List.append_nil]
  have hwrites : writesAt (Reg.LT_MISS_MISS_TOTAL.addr n 0) (ws ++ (s.missWrites n).dropLast) =
      [(Reg.LT_MISS_MISS_COUNT, min (s.getF Reg.LT_MISS_MISS_COUNT n + 1) 255)] := by
    replace hcounts : writesAt (Reg.LT_MISS_MISS_TOTAL.addr n 0) ws = [] := hcounts
    simp (disch := (simp only [Fld.addr]; omega)) only [writesAt_append, hcounts, List.dropLast, writesAt_cons_other, writesAt_cons_same,
      writesAt_nil, List.nil_append]
  simp only [List.append_assoc, List.cons_append, List.nil_append] at hcount
  have hkept := hcount.getF (f := Reg.LT_MISS_MISS_TOTAL) (i := n) (hwrites ▸ rfl)
  have htotal := hcount.bump (f := Reg.LT_MISS_MISS_TOTAL) (i := n) (hkept.trans (hwrites ▸ rfl))
  simp only [List.append_assoc, List.cons_append, List.nil_append] at htotal
  exact RingsAlone.wrote htotal State.captureSkip_ringsAlone

theorem State.missed_alone : s.missed n = { s with regs := (s.missed n).regs, ctx := (s.missed n).ctx } := by
  have hrings : RingsAlone _ (s.missed n) := State.captureSkip_ringsAlone
  unfold RingsAlone at hrings
  generalize (s.missed n).ctx = rings at hrings
  rw [hrings]
  rfl

theorem State.isE_missed {f : Fld} {i : Nat} : (s.missed n).isE f i = s.isE f i := by
  rw [State.missed_alone]
  rfl

theorem State.tileMiss_eq : s.tileMiss n cause at16 = (s.missed n).missJudged n cause at16 := rfl

theorem State.tileMiss_uncritical (hcrit : s.isE Reg.LT_CTL_CRITICAL n = false) : s.tileMiss n cause at16 = s.missed n := by
  rw [State.tileMiss_eq, State.missJudged]
  simp [State.isE_missed, hcrit]

theorem State.preRunFail_idle (hpre : s.twn.preLeft = none) : s.preRunFail = s := if_neg (by simp [hpre])

theorem State.twn_missed : (s.missed n).twn = s.twn := by rw [State.missed_alone]

theorem State.tileMiss_fourth (hcrit : s.isE Reg.LT_CTL_CRITICAL n = true) (hpre : s.twn.preLeft = none)
    (hcount : 4 ≤ (s.missed n).getF Reg.LT_MISS_MISS_COUNT n) :
    s.tileMiss n cause at16 =
      ((s.missed n).loopFault n at16).event 0x0303 n [n, (s.missed n).getF Reg.LT_MISS_MISS_TOTAL n, cause] := by
  rw [State.tileMiss_eq, State.missJudged]
  have hrun : (s.missed n).preRunFail = s.missed n := State.preRunFail_idle (by rw [State.twn_missed, hpre])
  simp [State.isE_missed, hcrit, hrun, hcount]

theorem State.getF_missed_count (hs : s.canonical = true) :
    (s.missed n).getF Reg.LT_MISS_MISS_COUNT n = min (s.getF Reg.LT_MISS_MISS_COUNT n + 1) 255 := by
  have hmissed : Wrote s (s.missed n) (s.missWrites n) := (Wrote.refl hs).missed rfl rfl
  have hwrites : writesAt (Reg.LT_MISS_MISS_COUNT.addr n 0) (s.missWrites n) = _ := writesAt_missWrites_counts
  rw [hmissed.getF (hwrites ▸ rfl), hwrites]
  exact Nat.mod_eq_of_lt (Nat.lt_succ_of_le (Nat.min_le_right _ _))

theorem State.getF_missed_total (hs : s.canonical = true) :
    (s.missed n).getF Reg.LT_MISS_MISS_TOTAL n = min (s.getF Reg.LT_MISS_MISS_TOTAL n + 1) (2 ^ 24 - 1) := by
  have hmissed : Wrote s (s.missed n) (s.missWrites n) := (Wrote.refl hs).missed rfl rfl
  have hwrites : writesAt (Reg.LT_MISS_MISS_TOTAL.addr n 0) (s.missWrites n) = _ := writesAt_missWrites_counts
  rw [hmissed.getF (hwrites ▸ rfl), hwrites]
  exact Nat.mod_eq_of_lt (Nat.lt_succ_of_le (Nat.min_le_right _ _))

/-! ## A loop fault (R80) -/

/-- Tile `n` shows LOOP_FAULT, in its own register and in the map of all tiles. -/
def State.faultShownIn (s : State) (n : Nat) : State := (s.setF Reg.LT_STAT_LOOP_FAULT 1 n).setMapBit Reg.LT_FAULT n true

/-- While the lock is held the millisecond of R81 begins. -/
def State.faultTimed (s : State) (n at16 : Nat) : State :=
  if s.isF Reg.TWN_STATUS_LOCK then { s with lt := { s.lt with faults := s.lt.faults ++ [(n, at16)] } } else s

/-- The running lane of tile `n` is HELD (R106). -/
def State.laneHeldBy (s : State) (n : Nat) : State :=
  let l := s.effF Reg.LT_SRC_C_LANE n
  if s.isE Reg.LT_CTL_OUT_MODE n && s.getF Reg.PWM_LANE_STAT_STATE l = 2 then s.setF Reg.PWM_LANE_STAT_STATE 5 l else s

/-- A loop fault of tile `n`, of a tile without a lane and a module that runs neither a pre-run nor an armed capture. -/
def State.faulted (s : State) (n at16 : Nat) : State :=
  ((((s.faultShownIn n).faultTimed n at16).setF Reg.LT_OUT_INVALID 1 n).cause 1 3).controlFault 0x01

/-- The writes of a loop fault. -/
abbrev State.faultWrites (s : State) (n : Nat) : List (Fld × Nat × Nat) :=
  [(Reg.LT_STAT_LOOP_FAULT, n, 1), (Reg.LT_FAULT, n / 32, putBit (s.getF Reg.LT_FAULT (n / 32)) (n % 32) true), (Reg.LT_OUT_INVALID, n, 1),
    (Reg.SYS_IRQ_CAUSE, 1, putBit (s.getF Reg.SYS_IRQ_CAUSE 1) 3 true)]

theorem writesAt_faultWrites_stat : writesAt (Reg.LT_STAT.addr n 0) (s.faultWrites n) = [(Reg.LT_STAT_LOOP_FAULT, 1)] := by
  simp (disch := (simp only [Fld.addr]; omega)) only [writesAt_cons_other, writesAt_cons_same, writesAt_nil]

theorem writesAt_faultWrites_map : writesAt (Reg.LT_FAULT.addr (n / 32) 0) (s.faultWrites n) =
    [(Reg.LT_FAULT, putBit (s.getF Reg.LT_FAULT (n / 32)) (n % 32) true)] := by
  simp (disch := (simp only [Fld.addr]; omega)) only [writesAt_cons_other, writesAt_cons_same, writesAt_nil]

theorem writesAt_faultWrites_out : writesAt (Reg.LT_OUT.addr n 0) (s.faultWrites n) = [(Reg.LT_OUT_INVALID, 1)] := by
  simp (disch := (simp only [Fld.addr]; omega)) only [writesAt_cons_other, writesAt_cons_same, writesAt_nil]

theorem writesAt_faultWrites_cause : writesAt (Reg.SYS_IRQ_CAUSE.addr 1 0) (s.faultWrites n) =
    [(Reg.SYS_IRQ_CAUSE, putBit (s.getF Reg.SYS_IRQ_CAUSE 1) 3 true)] := by
  simp (disch := (simp only [Fld.addr]; omega)) only [writesAt_cons_other, writesAt_cons_same, writesAt_nil]

theorem State.loopFault_stages : s.loopFault n at16 =
    ((((((s.faultShownIn n).faultTimed n at16).laneHeldBy n).setF Reg.LT_OUT_INVALID 1 n).cause 1 3).snapTrigger 2
      |>.controlFault 0x01).preRunFail := rfl

theorem State.controlFault_eq {code : Nat} :
    s.controlFault code = { s with twn := { s.twn with code := if s.twn.code = 0 then code else s.twn.code } } := by
  unfold State.controlFault
  split <;> rfl

theorem State.faultTimed_eq : s.faultTimed n at16 =
    { s with lt := { s.lt with faults := s.lt.faults ++ if s.isF Reg.TWN_STATUS_LOCK then [(n, at16)] else [] } } := by
  unfold State.faultTimed
  split <;> simp

theorem State.faultTimed_eff : (s.faultTimed n at16).eff = s.eff := by rw [State.faultTimed_eq]

theorem State.faultTimed_twn : (s.faultTimed n at16).twn = s.twn := by rw [State.faultTimed_eq]

theorem State.snapTrigger_unarmed {src : Nat} (h : s.getF Reg.SNAP_STATUS_STATE ≠ 1) : s.snapTrigger src = s := if_neg (by simp [h])

theorem Wrote.controlFault {code : Nat} (h : Wrote s t ws) : Wrote s (t.controlFault code) ws := by
  rw [State.controlFault_eq]
  exact h.frame

theorem Wrote.faultTimed (h : Wrote s t ws) : Wrote s (t.faultTimed n at16) ws := by
  rw [State.faultTimed_eq]
  exact h.frame

theorem Wrote.faultShownIn (h : Wrote s t ws) (hmap : writesAt (Reg.LT_FAULT.addr (n / 32) 0) ws = []) :
    Wrote s (t.faultShownIn n) (ws ++ (s.faultWrites n).take 2) := by
  have hflag : Wrote s (t.setF Reg.LT_STAT_LOOP_FAULT 1 n) _ := h.setF
  have hshown : Wrote s (t.faultShownIn n) _ := hflag.setMapBit <| by
    simp (disch := (simp only [Fld.addr]; omega)) only [writesAt_append, hmap, writesAt_cons_other, writesAt_nil, List.append_nil]
  rw [List.append_assoc] at hshown
  exact hshown

/-- Tile registers, the map of faulted tiles and the cause word of the module's alarms are all that a loop fault writes. -/
theorem Wrote.faultRaised (h : Wrote s t ws) (hmap : writesAt (Reg.LT_FAULT.addr (n / 32) 0) ws = [])
    (hcause : writesAt (Reg.SYS_IRQ_CAUSE.addr 1 0) ws = []) :
    Wrote s ((((t.faultShownIn n).faultTimed n at16).setF Reg.LT_OUT_INVALID 1 n).cause 1 3) (ws ++ s.faultWrites n) := by
  have htimed : Wrote s ((t.faultShownIn n).faultTimed n at16) _ := (h.faultShownIn hmap).faultTimed
  have hinvalid : Wrote s (State.setF _ Reg.LT_OUT_INVALID 1 n) _ := htimed.setF
  have hraised := hinvalid.cause (vector := 1) (bit := 3) <| by
    simp (disch := (simp only [Fld.addr]; omega)) only [writesAt_append, hcause, List.take, writesAt_cons_other, writesAt_nil,
      List.append_nil]
  rw [List.append_assoc, List.append_assoc] at hraised
  exact hraised

theorem Wrote.faulted (h : Wrote s t ws) (hmap : writesAt (Reg.LT_FAULT.addr (n / 32) 0) ws = [])
    (hcause : writesAt (Reg.SYS_IRQ_CAUSE.addr 1 0) ws = []) : Wrote s (t.faulted n at16) (ws ++ s.faultWrites n) :=
  (h.faultRaised hmap hcause).controlFault

theorem State.regsAlone_faultShownIn : RegsAlone s (s.faultShownIn n) := RegsAlone.refl.setF.setF

theorem State.isF_lock_faultShownIn (hs : s.canonical = true) (hn : n < 96) :
    (s.faultShownIn n).isF Reg.TWN_STATUS_LOCK = s.isF Reg.TWN_STATUS_LOCK := by
  have hshown : Wrote s (s.faultShownIn n) ((s.faultWrites n).take 2) := (Wrote.refl hs).faultShownIn rfl
  rw [State.isF, hshown.getF_same, State.isF]
  simp (disch := (simp only [Fld.addr]; omega)) only [List.take, writesAt_cons_other, writesAt_nil]

/-- What a loop fault leaves of the parts beside the registers. -/
theorem State.faulted_frame (hs : s.canonical = true) (hn : n < 96) :
    s.faulted n at16 = { s with
      regs := (s.faulted n at16).regs
      lt := { s.lt with faults := s.lt.faults ++ if s.isF Reg.TWN_STATUS_LOCK then [(n, at16)] else [] }
      twn := { s.twn with code := if s.twn.code = 0 then 1 else s.twn.code } } := by
  have hshown : RegsAlone s (s.faultShownIn n) := State.regsAlone_faultShownIn
  have hraised : RegsAlone ((s.faultShownIn n).faultTimed n at16)
      ((((s.faultShownIn n).faultTimed n at16).setF Reg.LT_OUT_INVALID 1 n).cause 1 3) := RegsAlone.refl.setF.cause
  unfold State.faulted
  rw [State.controlFault_eq]
  generalize (((s.faultShownIn n).faultTimed n at16).setF Reg.LT_OUT_INVALID 1 n).cause 1 3 = u at hraised
  rw [State.faultTimed_eq, State.isF_lock_faultShownIn hs hn] at hraised
  unfold RegsAlone at hshown hraised
  rw [hshown] at hraised
  rw [hraised]

theorem State.laneHeldBy_value (hmode : s.isE Reg.LT_CTL_OUT_MODE n = false) : s.laneHeldBy n = s := if_neg (by simp [hmode])

theorem State.loopFault_eq (hs : s.canonical = true) (hn : n < 96) (hmode : s.isE Reg.LT_CTL_OUT_MODE n = false)
    (hpre : s.twn.preLeft = none) (hsnap : s.getF Reg.SNAP_STATUS_STATE ≠ 1) : s.loopFault n at16 = s.faulted n at16 := by
  have hlane : ((s.faultShownIn n).faultTimed n at16).laneHeldBy n = (s.faultShownIn n).faultTimed n at16 :=
    State.laneHeldBy_value ((State.isE_congr (State.faultTimed_eff.trans State.regsAlone_faultShownIn.eff)).trans hmode)
  have hraised : Wrote s ((((s.faultShownIn n).faultTimed n at16).setF Reg.LT_OUT_INVALID 1 n).cause 1 3) (s.faultWrites n) :=
    (Wrote.refl hs).faultRaised rfl rfl
  have htwn : ((((s.faultShownIn n).faultTimed n at16).setF Reg.LT_OUT_INVALID 1 n).cause 1 3).twn = s.twn :=
    (RegsAlone.refl.setF.cause.twn.trans State.faultTimed_twn).trans State.regsAlone_faultShownIn.twn
  rw [State.loopFault_stages, hlane, State.snapTrigger_unarmed, State.preRunFail_idle, State.faulted]
  · rw [State.controlFault_eq, htwn]
    exact hpre
  · rwa [hraised.getF_same]
    simp (disch := (simp only [Fld.addr]; omega)) only [writesAt_cons_other, writesAt_nil]

theorem State.journal_eq {a v : Nat} : s.journal a v =
    { s with twn := { s.twn with journal := s.twn.journal ++ if s.isF Reg.TWN_STATUS_LOCK then [(a, v)] else [] } } := by
  unfold State.journal
  split <;> simp

/-! ## Which commands miss a sample -/

/-- The sample of tile `n` that was due at `due` counts as completed or missed. -/
def State.sampleSettled (s : State) (n due : Nat) : State := s.setTile n { s.tile n with settled := some due }

theorem exec_deadlineMiss {event : Nat} : exec (.deadlineMiss n cause event at16) s = .next
    (if !(s.tile n).run || (s.tile n).waiting || s.parked n || s.isF Reg.LT_STAT_LOOP_FAULT n || s.awaitsRestart n then s
    else (s.promised 96 (n / 24) (s.effF Reg.LT_SRC_A_MEAS n) event).elim s fun due =>
      if s.late n cause due at16 && s.unsettled n due then (s.sampleSettled n due).tileMiss n cause at16 else s) := by
  refine congrArg Host.Outcome.next (if_congr Iff.rfl rfl ?_)
  cases s.promised 96 (n / 24) (s.effF Reg.LT_SRC_A_MEAS n) event with
  | none => rfl
  | some due => cases hstamp : s.measStamp n <;> simp only [State.late, hstamp] <;> rfl

theorem State.tile_sampleSettled : (s.sampleSettled n due).tile n = { s.tile n with settled := some due } :=
  Sparse.at_upd_same_of_ne _ _ _ (fun h => by simpa using congrArg LtTile.settled h)

/-- A tile in plain working takes the sample that its MEAS source published. -/
theorem exec_loopTileSample_plain {place : Nat} {upset : Int} {stamp : Nat × Nat} (hplain : s.tilePlain n = true)
    (hstamp : s.measStamp n = some stamp) (hopen : s.unsettled n stamp.2 = true) :
    exec (.loopTileSample n at16 place upset 0) s = .next (s.tileSample n at16 stamp place upset 0 (s.tileIns n)) := by
  simp only [State.tilePlain, Bool.and_eq_true, Bool.not_eq_true', and_assoc] at hplain
  obtain ⟨hkeeps, hlaneless, -⟩ := hplain
  show execLoopTileSample n at16 place upset 0 s = _
  simp [execLoopTileSample, hstamp, hopen, hkeeps, hlaneless]

section
variable {place : Nat} {upset : Int} {stamp : Nat × Nat}

/-- Some input that a sample needs is INVALID (R84). -/
def State.tileInsBad (s : State) (n : Nat) : Bool := bitOf (s.tileIn n 0).2 0 || bitOf (s.tileIn n 1).2 0 || bitOf (s.tileIn n 4).2 0

theorem State.tileInsBad_of_good (hgood : s.tileInsGood n = true) : s.tileInsBad n = false := by
  simp only [State.tileInsGood, List.all_eq_true, List.mem_range, Bool.not_eq_true'] at hgood
  simp [State.tileInsBad, hgood]

/-- A sample with an INVALID input: a miss with INVALID_IN, which a pre-run does not survive where the input is MEAS. -/
def State.invalidMissed (s : State) (n at16 : Nat) (meas : Int × Nat) : State :=
  let a := (s.setF Reg.LT_STAT_INVALID_IN 1 n).tileMiss n 3 at16
  if bitOf meas.2 0 then a.preRunFail else a

/-- The two ways in which a sample of plain working is missed. -/
theorem State.tileSample_missed (hplain : s.tilePlain n = true) (hmiss : s.tileInsBad n = true ∨ s.deadline n stamp.2 < at16) :
    s.tileSample n at16 stamp place upset 0 (s.tileIns n) =
      if s.tileInsBad n then (s.sampleSettled n stamp.2).invalidMissed n at16 (s.tileIn n 0)
      else (s.sampleSettled n stamp.2).tileMiss n 1 at16 := by
  simp only [State.tilePlain, Bool.and_eq_true, Bool.not_eq_true', and_assoc] at hplain
  obtain ⟨-, -, hrun, hfault, hparked, hwaiting, -⟩ := hplain
  unfold State.tileSample
  extract_lets x s1 s2 x2 input meas ramp refIn f0 f1 div bad first invalid
  rw [if_neg (by simp [x, hrun, hfault, hparked]), if_neg (by decide)]
  have hwait : x2.waiting = false := (congrArg LtTile.waiting State.tile_sampleSettled).trans hwaiting
  have hfirst : first = s.sampleSettled n stamp.2 := if_neg (by simp [hwait])
  have hbad : bad = s.tileInsBad n := rfl
  rw [if_neg (by simp [hwait]), hbad]
  split
  · show (if bitOf meas.2 0 then ((first.setF Reg.LT_STAT_INVALID_IN 1 n).tileMiss n 3 at16).preRunFail
      else (first.setF Reg.LT_STAT_INVALID_IN 1 n).tileMiss n 3 at16) = _
    rw [hfirst]
    rfl
  · next hgood =>
    have hlate : s2.deadline n stamp.2 < at16 := hmiss.resolve_left hgood
    rw [if_pos hlate, if_neg (by simp [hwait])]
    rfl

theorem State.invalidMissed_uncritical {meas : Int × Nat} (hcrit : s.isE Reg.LT_CTL_CRITICAL n = false) (hpre : s.twn.preLeft = none) :
    s.invalidMissed n at16 meas = (s.setF Reg.LT_STAT_INVALID_IN 1 n).missed n := by
  have hmiss : (s.setF Reg.LT_STAT_INVALID_IN 1 n).tileMiss n 3 at16 = (s.setF Reg.LT_STAT_INVALID_IN 1 n).missed n :=
    State.tileMiss_uncritical hcrit
  rw [State.invalidMissed, hmiss, State.preRunFail_idle (by rw [State.twn_missed]; exact hpre), ite_self]

end

/-- A miss alone: MISS, the map of tiles with a miss, and the counters. -/
theorem Wrote.missShown (h : Wrote s t (s.missWrites n)) :
    SetsField s t Reg.LT_STAT_MISS n 1 ∧
      SetsField s t Reg.LT_MISS_SUM (n / 32) (putBit (s.getF Reg.LT_MISS_SUM (n / 32)) (n % 32) true) ∧
      SetsFields s t (Reg.LT_MISS.addr n 0)
        [(Reg.LT_MISS_MISS_COUNT, min (s.getF Reg.LT_MISS_MISS_COUNT n + 1) 255),
          (Reg.LT_MISS_MISS_TOTAL, min (s.getF Reg.LT_MISS_MISS_TOTAL n + 1) (2 ^ 24 - 1))] ∧
      OnlyRegs s t [Reg.LT_STAT.addr n 0, Reg.LT_MISS_SUM.addr (n / 32) 0, Reg.LT_MISS.addr n 0] :=
  ⟨h.setsField writesAt_missWrites_stat, h.setsField writesAt_missWrites_sum, h.setsFields writesAt_missWrites_counts,
    h.only (by simp [Fld.addr])⟩

theorem Wrote.sampleSettled (h : Wrote s t ws) : Wrote s (t.sampleSettled n due) ws := h.frame

theorem State.sampleSettled_missed_frame :
    (s.sampleSettled n due).missed n =
      { s with
        regs := ((s.sampleSettled n due).missed n).regs
        lt := (s.sampleSettled n due).lt
        ctx := ((s.sampleSettled n due).missed n).ctx } := by
  rw [State.missed_alone]
  rfl

/-- The states differ in the register file, the tiles' part and the samples that capture rings hold alone. -/
def MissAlone (s t : State) : Prop := t = { s with regs := t.regs, lt := t.lt, ctx := t.ctx }

/-- They may differ in the first control-fault code of the module, too. -/
def FaultAlone (s t : State) : Prop :=
  t = { s with regs := t.regs, lt := t.lt, ctx := t.ctx, twn := { s.twn with code := if s.twn.code = 0 then 1 else s.twn.code } }

theorem State.lt_sampleSettled_missed : ((s.sampleSettled n due).missed n).lt = (s.sampleSettled n due).lt := by
  rw [State.sampleSettled_missed_frame]

theorem MissAlone.sampleSettled_missed : MissAlone s ((s.sampleSettled n due).missed n) := by
  rw [MissAlone, State.lt_sampleSettled_missed]
  exact State.sampleSettled_missed_frame

theorem MissAlone.faulted (h : MissAlone s t) (ht : t.canonical = true) (hn : n < 96) : FaultAlone s (t.faulted n at16) := by
  have hfaulted := State.faulted_frame (at16 := at16) ht hn
  unfold FaultAlone
  generalize t.faulted n at16 = u at hfaulted ⊢
  generalize u.regs = regs at hfaulted
  subst hfaulted
  unfold MissAlone at h
  rw [h]

theorem FaultAlone.twn (h : FaultAlone s t) : t.twn = { s.twn with code := if s.twn.code = 0 then 1 else s.twn.code } := by
  unfold FaultAlone at h
  rw [h]

theorem FaultAlone.event {code source : Nat} {data : List Nat} (h : FaultAlone s t) :
    (t.event code source data).events = s.events ++ [LogEvent.mk code source data] ∧
      t.event code source data =
        { s with
          regs := (t.event code source data).regs
          lt := (t.event code source data).lt
          twn := (t.event code source data).twn
          events := (t.event code source data).events
          ctx := (t.event code source data).ctx } := by
  unfold FaultAlone at h
  generalize t.regs = regs, t.lt = lt, t.ctx = ctx at h
  subst h
  exact ⟨rfl, rfl⟩

/-- A sample that is late and still open is missed. -/
theorem exec_deadlineMiss_late {event : Nat} (hrun : (s.tile n).run = true) (hwaiting : (s.tile n).waiting = false)
    (hparked : s.parked n = false) (hfault : s.isF Reg.LT_STAT_LOOP_FAULT n = false) (hawaits : s.awaitsRestart n = false)
    (hpromised : s.promised 96 (n / 24) (s.effF Reg.LT_SRC_A_MEAS n) event = some due) (hlate : s.late n cause due at16 = true)
    (hopen : s.unsettled n due = true) :
    exec (.deadlineMiss n cause event at16) s = .next ((s.sampleSettled n due).tileMiss n cause at16) := by
  rw [exec_deadlineMiss, if_neg (by simp [hrun, hwaiting, hparked, hfault, hawaits]), hpromised, Option.elim_some,
    if_pos (by simp [hlate, hopen])]

theorem State.getF_snap_missed (hs : s.canonical = true) (hn : n < 96) :
    (s.missed n).getF Reg.SNAP_STATUS_STATE = s.getF Reg.SNAP_STATUS_STATE := by
  have hmissed : Wrote s (s.missed n) (s.missWrites n) := (Wrote.refl hs).missed rfl rfl
  refine hmissed.getF_same ?_
  simp (disch := (simp only [Fld.addr]; omega)) only [writesAt_cons_other, writesAt_nil]

/-- The fourth miss in a row of a CRITICAL tile without a lane: the miss, then the loop fault. -/
theorem State.tileMiss_faulted (hs : s.canonical = true) (hn : n < 96) (hcrit : s.isE Reg.LT_CTL_CRITICAL n = true)
    (hmode : s.isE Reg.LT_CTL_OUT_MODE n = false) (hpre : s.twn.preLeft = none) (hsnap : s.getF Reg.SNAP_STATUS_STATE ≠ 1)
    (hcount : 3 ≤ s.getF Reg.LT_MISS_MISS_COUNT n) :
    s.tileMiss n cause at16 = ((s.missed n).faulted n at16).event 0x0303 n
      [n, min (s.getF Reg.LT_MISS_MISS_TOTAL n + 1) (2 ^ 24 - 1), cause] := by
  have hmissed : Wrote s (s.missed n) (s.missWrites n) := (Wrote.refl hs).missed rfl rfl
  have hfour : 4 ≤ (s.missed n).getF Reg.LT_MISS_MISS_COUNT n := by
    rw [State.getF_missed_count hs]
    omega
  have hfaulted : (s.missed n).loopFault n at16 = (s.missed n).faulted n at16 :=
    State.loopFault_eq hmissed.canonical hn (State.isE_missed.trans hmode) (by rw [State.twn_missed, hpre])
      (by rwa [State.getF_snap_missed hs hn])
  rw [State.tileMiss_fourth hcrit hpre hfour, hfaulted, State.getF_missed_total hs]

end

/-- Settles O17: a miss is `State.missed` of a tile whose sample counts as settled, the fourth in a row `State.faulted` with its record; what
each register takes is read off their lists of writes. -/
theorem deadlineMissesAndResidueTest : Obligations.DeadlineMissesAndResidueTest := by
  refine ⟨?late, ?fourth, ?none, ?completesLate, ?invalid, ?test⟩
  case late =>
    intro s n cause event at16 due hs _ hrun hwaiting hparked hfault hcrit hawaits hpromised hlate hopen
    have hmiss : (s.sampleSettled n due).tileMiss n cause at16 = (s.sampleSettled n due).missed n := State.tileMiss_uncritical hcrit
    have hexec := exec_deadlineMiss_late hrun hwaiting hparked hfault hawaits hpromised hlate hopen
    rw [hmiss] at hexec
    have hwrote : Wrote s ((s.sampleSettled n due).missed n) (s.missWrites n) := (Wrote.refl hs).sampleSettled.missed rfl rfl
    obtain ⟨hflag, hsum, hcounts, honly⟩ := hwrote.missShown
    exact ⟨_, hexec, hflag, hsum, hcounts, State.lt_sampleSettled_missed, honly, MissAlone.sampleSettled_missed⟩
  case fourth =>
    intro s n cause event at16 due hs hn hrun hwaiting hparked hfault hcrit hmode hcount hpre hsnap hawaits hpromised hlate hopen
    have hexec := exec_deadlineMiss_late hrun hwaiting hparked hfault hawaits hpromised hlate hopen
    have hmiss := State.tileMiss_faulted (s := s.sampleSettled n due) (cause := cause) (at16 := at16) hs hn hcrit hmode hpre hsnap hcount
    rw [hmiss] at hexec
    have hmissed : Wrote s ((s.sampleSettled n due).missed n) (s.missWrites n) := (Wrote.refl hs).sampleSettled.missed rfl rfl
    have hwrote := (hmissed.faulted (n := n) (at16 := at16) writesAt_missWrites_fault writesAt_missWrites_cause).event (code := 0x0303)
      (source := n) (data := [n, min (s.getF Reg.LT_MISS_MISS_TOTAL n + 1) (2 ^ 24 - 1), cause])
    have hfaulted : FaultAlone s (((s.sampleSettled n due).missed n).faulted n at16) :=
      MissAlone.sampleSettled_missed.faulted hmissed.canonical hn
    obtain ⟨hevents, hframe⟩ := hfaulted.event
    refine ⟨_, hexec, hwrote.setsFields ?stat, hwrote.setsField ?map, hwrote.setsField ?out, hwrote.raises (by decide) ?cause,
      hfaulted.twn, hevents, hwrote.only (by simp [Fld.addr]), hframe⟩
    case stat => rw [writesAt_append, writesAt_missWrites_stat, writesAt_faultWrites_stat]; rfl
    case map => rw [writesAt_append, writesAt_missWrites_fault, writesAt_faultWrites_map]; rfl
    case out =>
      show writesAt (Reg.LT_OUT.addr n 0) _ = _
      rw [writesAt_append, writesAt_missWrites_out, writesAt_faultWrites_out]; rfl
    case cause => rw [writesAt_append, writesAt_missWrites_cause, writesAt_faultWrites_cause]; rfl
  case none =>
    intro s n cause event at16 hnone
    refine ⟨s, ?_, rfl⟩
    rw [exec_deadlineMiss]
    rcases hnone with h | h | h | h | h | h
    case inr.inr.inr.inr.inr =>
      cases hpromised : s.promised 96 (n / 24) (s.effF Reg.LT_SRC_A_MEAS n) event with
      | none => exact congrArg Host.Outcome.next (ite_self s)
      | some due =>
        have hsettled : (s.late n cause due at16 && s.unsettled n due) = false := by
          simpa only [hpromised, Option.all_some, Bool.not_eq_true'] using h
        rw [Option.elim_some, hsettled, if_neg Bool.false_ne_true, ite_self]
    all_goals rw [if_pos (by simp [h])]
  case completesLate =>
    intro s n at16 place stamp upset hs _ hplain hgood hcrit hstamp hopen hlate
    have hmiss : (s.sampleSettled n stamp.2).tileMiss n 1 at16 = (s.sampleSettled n stamp.2).missed n := State.tileMiss_uncritical hcrit
    have hexec := exec_loopTileSample_plain (at16 := at16) (place := place) (upset := upset) hplain hstamp hopen
    rw [State.tileSample_missed hplain (.inr hlate), State.tileInsBad_of_good hgood, if_neg Bool.false_ne_true, hmiss] at hexec
    have hwrote : Wrote s ((s.sampleSettled n stamp.2).missed n) (s.missWrites n) := (Wrote.refl hs).sampleSettled.missed rfl rfl
    obtain ⟨hflag, hsum, hcounts, honly⟩ := hwrote.missShown
    exact ⟨_, hexec, hflag, hsum, hcounts, honly, MissAlone.sampleSettled_missed⟩
  case invalid =>
    intro s n at16 place stamp upset hs _ hplain hbad hcrit hpre hstamp hopen
    have hinvalid : s.tileInsBad n = true := by simpa [State.tileInsBad, or_assoc] using hbad
    have hmiss := State.invalidMissed_uncritical (s := s.sampleSettled n stamp.2) (at16 := at16) (meas := s.tileIn n 0) hcrit hpre
    have hexec := exec_loopTileSample_plain (at16 := at16) (place := place) (upset := upset) hplain hstamp hopen
    rw [State.tileSample_missed hplain (.inl hinvalid), if_pos hinvalid, hmiss] at hexec
    have hflag : Wrote s ((s.sampleSettled n stamp.2).setF Reg.LT_STAT_INVALID_IN 1 n) [(Reg.LT_STAT_INVALID_IN, n, 1)] :=
      (Wrote.refl hs).sampleSettled.setF
    have hstat : writesAt (Reg.LT_STAT.addr n 0) [(Reg.LT_STAT_INVALID_IN, n, 1)] = [(Reg.LT_STAT_INVALID_IN, 1)] :=
      writesAt_cons_same (Nat.le_refl _) (Nat.le_refl _)
    have hsum : writesAt (Reg.LT_MISS_SUM.addr (n / 32) 0) [(Reg.LT_STAT_INVALID_IN, n, 1)] = [] :=
      writesAt_cons_other (by simp only [Fld.addr]; omega)
    have hcounts : writesAt (Reg.LT_MISS.addr n 0) [(Reg.LT_STAT_INVALID_IN, n, 1)] = [] :=
      writesAt_cons_other (by simp only [Fld.addr]; omega)
    have hwrote := hflag.missed hsum hcounts
    refine ⟨_, hexec, hwrote.setsFields ?stat, hwrote.setsField ?map, hwrote.setsFields ?counts, hwrote.only (by simp [Fld.addr]), ?frame⟩
    case stat => rw [writesAt_append, hstat, writesAt_missWrites_stat]; rfl
    case map => rw [writesAt_append, hsum, writesAt_missWrites_sum]; rfl
    case counts => rw [writesAt_append, hcounts, writesAt_missWrites_counts]; rfl
    case frame =>
      rw [State.missed_alone]
      rfl
  case test =>
    intro s n hn hrun
    have hexec : exec (.resTestArm n) s =
        .next ((s.setTile n { s.tile n with armed := true }).journal (Reg.LT_RES_TEST.addr 0 0) (2 ^ 31 + n)) :=
      congrArg Host.Outcome.next (if_pos (by simp [hn, hrun]))
    have hjournal := State.journal_eq (s := s.setTile n { s.tile n with armed := true }) (a := Reg.LT_RES_TEST.addr 0 0) (v := 2 ^ 31 + n)
    rw [hjournal] at hexec
    exact ⟨_, hexec, rfl, rfl, rfl⟩

end Sys2Proof.Machine

end

section

/-!
PROOFS. Logic tiles, general timers, the sample instant and the shutdown behind a loop fault (04 R81, R93, R95, R96; 03 R70; 13 R322).
-/

namespace Sys2Proof.Machine

/-! ## What the registers and the tiles' part alone change -/

/-- The states differ in the register file and the tiles' part alone. -/
def LtAlone (s t : State) : Prop := t = { s with regs := t.regs, lt := t.lt }

section
variable {s t : State} {ws : List (Fld × Nat × Nat)} {f : Fld} {i j v a : Nat}

theorem LtAlone.refl : LtAlone s s := rfl

theorem LtAlone.setLt {x : LtState} (h : LtAlone s t) : LtAlone s { t with lt := x } := by
  unfold LtAlone at h
  generalize t.regs = regs, t.lt = lt at h
  subst h
  rfl

theorem LtAlone.setF (h : LtAlone s t) : LtAlone s (t.setF f v i j) := by
  unfold LtAlone at h
  generalize t.regs = regs, t.lt = lt at h
  subst h
  rfl

theorem RegsAlone.ltAlone (h : RegsAlone s t) : LtAlone s t := by
  unfold RegsAlone at h
  rw [h]
  rfl

theorem RegsAlone.lt (h : RegsAlone s t) : t.lt = s.lt := by
  unfold RegsAlone at h
  rw [h]

theorem LtAlone.trans {u : State} (hst : LtAlone s t) (htu : LtAlone t u) : LtAlone s u := by
  unfold LtAlone at hst htu ⊢
  rw [hst] at htu
  exact htu

theorem LtAlone.eff (h : LtAlone s t) : t.eff = s.eff := by
  unfold LtAlone at h
  rw [h]

theorem LtAlone.twn (h : LtAlone s t) : t.twn = s.twn := by
  unfold LtAlone at h
  rw [h]

theorem LtAlone.journal (h : LtAlone s t) :
    t.journal a v = { s with regs := (t.journal a v).regs, lt := (t.journal a v).lt, twn := (t.journal a v).twn } := by
  rw [State.journal_eq]
  unfold LtAlone at h
  generalize t.regs = regs, t.lt = lt at h
  subst h
  rfl

theorem State.journal_lt : (s.journal a v).lt = s.lt := by rw [State.journal_eq]

theorem Wrote.journal (h : Wrote s t ws) : Wrote s (t.journal a v) ws := by
  rw [State.journal_eq]
  exact h.frame

theorem Wrote.journals (h : Wrote s t ws) (hlock : writesAt (Reg.TWN_STATUS_LOCK.addr 0 0) ws = []) (htwn : t.twn = s.twn) :
    Journals s (t.journal a v) a v := by
  rw [Journals, State.journal_eq, State.isF, h.getF_same hlock, State.isF]
  simp only [htwn]

end

/-! ## General timers (R96) -/

section
variable {s t : State} {n path now at16 due v w : Nat}

/-- Timer `n` is to expire at `due`. -/
def State.timerCounts (s : State) (n due : Nat) : State :=
  { s with lt := { s.lt with tmrDue := Sparse.insert s.lt.tmrDue n due } }

theorem exec_timerStart_owner (hn : n < 16) (howner : s.owner (0x170 + n) = pathOwner path) :
    exec (.timerStart path n now) s = .next ((s.timerStart n (16 * now)).journal (Reg.LT_TMR_CMD.addr n 0) 1) :=
  congrArg Host.Outcome.next ((if_neg (by omega)).trans (if_neg (by simp [howner])))

theorem exec_timerStart_other (hn : n < 16) (howner : ¬ s.owner (0x170 + n) = pathOwner path) :
    exec (.timerStart path n now) s = .next (s.timerDenied n) :=
  congrArg Host.Outcome.next ((if_neg (by omega)).trans (if_pos howner))

theorem exec_timerStop_owner (hn : n < 16) (howner : s.owner (0x170 + n) = pathOwner path) :
    exec (.timerStop path n) s =
      .next (((s.timerHalt n).setF Reg.LT_TMR_STAT_EXPIRED 0 n).journal (Reg.LT_TMR_CMD.addr n 0) 2) :=
  congrArg Host.Outcome.next ((if_neg (by omega)).trans (if_neg (by simp [howner])))

theorem exec_timerStop_other (hn : n < 16) (howner : ¬ s.owner (0x170 + n) = pathOwner path) :
    exec (.timerStop path n) s = .next (s.timerDenied n) :=
  congrArg Host.Outcome.next ((if_neg (by omega)).trans (if_pos howner))

/-- A timer whose time has come. -/
theorem exec_timerExpire_due (hn : n < 16) (hrun : s.isF Reg.LT_TMR_STAT_RUNNING n = true)
    (hfind : Sparse.find s.lt.tmrDue n = some due) (hdue : due ≤ at16) :
    exec (.timerExpire n at16) s = .next
      (if s.isE Reg.LT_TMR_CFG_MODE n then
        ((((s.timerCounts n (due + s.timerSpan n)).setF Reg.LT_TMR_STAT_EXPIRED 1 n).logicCycle due).setF Reg.LT_TMR_STAT_EXPIRED 0 n)
      else (s.timerHalt n).setF Reg.LT_TMR_STAT_EXPIRED 1 n) := by
  show execTimerExpire n at16 s = _
  simp only [execTimerExpire, hfind]
  rw [if_neg (by simp [hn, hrun, hdue])]
  rfl

/-- A timer that does not run, or whose time has not come. -/
theorem exec_timerExpire_early (h : s.isF Reg.LT_TMR_STAT_RUNNING n = false ∨
      (Sparse.find s.lt.tmrDue n).all (fun (d : Nat) => decide (at16 < d)) = true) : exec (.timerExpire n at16) s = .next s := by
  show execTimerExpire n at16 s = _
  cases hfind : Sparse.find s.lt.tmrDue n with
  | none => simp only [execTimerExpire, hfind]
  | some due =>
    simp only [execTimerExpire, hfind]
    rw [hfind] at h
    rw [if_pos]
    rcases h with hidle | hlater
    · simp [hidle]
    · simp only [Option.all_some] at hlater
      simp [hlater]

theorem State.timerStart_counts (howned : s.owned (0x170 + n) = true) (hen : s.isE Reg.LT_TMR_CFG_EN n = true) :
    s.timerStart n at16 =
      ((s.timerCounts n (at16 + s.timerSpan n)).setF Reg.LT_TMR_STAT_RUNNING 1 n).setF Reg.LT_TMR_STAT_EXPIRED 0 n :=
  if_pos (by simp [howned, hen])

theorem State.timerStart_off (h : s.owned (0x170 + n) = false ∨ s.isE Reg.LT_TMR_CFG_EN n = false) : s.timerStart n at16 = s :=
  if_neg (by rcases h with h | h <;> simp [h])

theorem writesAt_timer : writesAt (Reg.LT_TMR_STAT.addr n 0) [(Reg.LT_TMR_STAT_RUNNING, n, v), (Reg.LT_TMR_STAT_EXPIRED, n, w)] =
    [(Reg.LT_TMR_STAT_RUNNING, v), (Reg.LT_TMR_STAT_EXPIRED, w)] := by
  simp (disch := (simp only [Fld.addr]; omega)) only [writesAt_cons_same, writesAt_nil]

theorem writesAt_timer_lock (hn : n < 16) :
    writesAt (Reg.TWN_STATUS_LOCK.addr 0 0) [(Reg.LT_TMR_STAT_RUNNING, n, v), (Reg.LT_TMR_STAT_EXPIRED, n, w)] = [] := by
  simp (disch := (simp only [Fld.addr]; omega)) only [writesAt_cons_other, writesAt_nil]

/-- RUNNING and EXPIRED of a timer, written in this order. -/
theorem Wrote.timerShown (h : Wrote s t [(Reg.LT_TMR_STAT_RUNNING, n, v), (Reg.LT_TMR_STAT_EXPIRED, n, w)]) :
    SetsFields s t (Reg.LT_TMR_STAT.addr n 0) [(Reg.LT_TMR_STAT_RUNNING, v), (Reg.LT_TMR_STAT_EXPIRED, w)] ∧
      OnlyRegs s t [Reg.LT_TMR_STAT.addr n 0] :=
  ⟨h.setsFields writesAt_timer, h.only (by simp [Fld.addr])⟩

theorem State.wrote_timerHalt (hs : s.canonical = true) :
    Wrote s ((s.timerHalt n).setF Reg.LT_TMR_STAT_EXPIRED v n) [(Reg.LT_TMR_STAT_RUNNING, n, 0), (Reg.LT_TMR_STAT_EXPIRED, n, v)] :=
  (Wrote.refl hs).frame.setF.setF

theorem LtAlone.timerHalt (h : LtAlone s t) : LtAlone s (t.timerHalt n) := h.setLt.setF

/-- The flag that is set and cleared again in one command reads as cleared. -/
theorem expired_pulse {x : Word} : Reg.LT_TMR_STAT_EXPIRED.into (Reg.LT_TMR_STAT_EXPIRED.into x 1) 0 = Reg.LT_TMR_STAT_EXPIRED.into x 0 := by
  apply BitVec.eq_of_toNat_eq
  rw [Fld.into_toNat _ _ _ (by decide), Fld.into_toNat _ _ _ (by decide), Fld.into_toNat _ _ _ (by decide)]
  have hlt := x.isLt
  norm_num
  omega

/-- Without an enabled logic tile a cycle of them changes nothing. -/
theorem State.logicCycle_idle (h : (List.range 32).all (fun l => !s.isE Reg.LT_LG_CTL_ENABLE l) = true) : s.logicCycle at16 = s := by
  have hnone : ∀ l ∈ List.range 32, s.isE Reg.LT_LG_CTL_ENABLE l = false := by simpa using h
  unfold State.logicCycle
  rw [List.filterMap_eq_nil_iff.2 fun l hl => if_neg (by simp [hnone l hl])]
  rfl

theorem Wrote.timerCounts (h : Wrote s t ws) : Wrote s (t.timerCounts n due) ws := h.frame

theorem LtAlone.timerCounts (h : LtAlone s t) : LtAlone s (t.timerCounts n due) := h.setLt

theorem State.logicCycle_timerCounts_idle (h : (List.range 32).all (fun l => !s.isE Reg.LT_LG_CTL_ENABLE l) = true) :
    ((s.timerCounts n due).setF Reg.LT_TMR_STAT_EXPIRED v n).logicCycle at16 = (s.timerCounts n due).setF Reg.LT_TMR_STAT_EXPIRED v n := by
  have heff : ((s.timerCounts n due).setF Reg.LT_TMR_STAT_EXPIRED v n).eff = s.eff := LtAlone.refl.timerCounts.setF.eff
  refine State.logicCycle_idle ?_
  simp only [State.isE_congr heff]
  exact h

end

/-! ## The sample instant (03 R70, 13 R322) -/

section
variable {s t : State} {ts i : Nat} {is : List Nat}

theorem State.pinFunc_congr (heff : t.eff = s.eff) (howner : t.owner i = s.owner i) : t.pinFunc i = s.pinFunc i := by
  simp only [State.pinFunc, howner, State.effF_congr heff]

theorem State.pinDrives_congr (heff : t.eff = s.eff) (howner : t.owner i = s.owner i)
    (hlock : t.isF Reg.TWN_STATUS_LOCK = s.isF Reg.TWN_STATUS_LOCK) : t.pinDrives i = s.pinDrives i := by
  simp only [State.pinDrives, State.pinFunc_congr heff howner, State.isE_congr heff, hlock]

/-- T_s is stored, with the deferral flag, and both coulomb counters are to latch the block that holds it. -/
def State.instantTaken (s : State) (ts : Nat) : State :=
  (({ s with sns := { s.sns with packWait := 3 } } : State).set64 Reg.SNS_SI_LAST_LO (s.frameOf ts)).setF Reg.SNS_PACK_FLAGS_NOTCH_DEFERRED
    (ofBool s.sns.deferred)

/-- Whether contact `i` carries SYNC_OUT and drives. -/
def State.syncsAt (s : State) (i : Nat) : Bool := decide (s.pinFunc i = 4) && s.pinDrives i

/-- The contacts of a list that carry SYNC_OUT strobe. -/
def State.strobes (s : State) (ts : Nat) (is : List Nat) : State :=
  is.foldl (fun (a : State) i => if a.syncsAt i then a.emit .syncOut [i, ts] else a) s

theorem exec_packSampleInstant (hts : s.sns.ts = some ts) :
    exec .packSampleInstant s = .next ((s.instantTaken ts).strobes ts (List.range 4)) := by
  show execPackSampleInstant s = _
  simp only [execPackSampleInstant, State.instantTaken, State.strobes, State.syncsAt, hts]
  rfl

theorem State.strobes_eq : s.strobes ts is =
    { s with outbox := s.outbox ++ (is.filter s.syncsAt).map fun i => Out.mk .syncOut [i, ts] } := by
  induction is generalizing s with
  | nil => simp [State.strobes]
  | cons i is ih =>
    have hstep : s.strobes ts (i :: is) = State.strobes (if s.syncsAt i then s.emit .syncOut [i, ts] else s) ts is := rfl
    have hkept : (s.emit .syncOut [i, ts]).syncsAt = s.syncsAt := rfl
    rw [hstep]
    cases hsyncs : s.syncsAt i with
    | true => rw [if_pos rfl, ih, hkept, List.filter_cons_of_pos hsyncs]; simp [State.emit]
    | false => rw [if_neg Bool.false_ne_true, ih, List.filter_cons_of_neg (by simp [hsyncs])]

theorem Writes.set64 {f : Fld} {as : List Nat} {v i j : Nat} (h : Writes s t as) (hlo : f.addr i j ∈ as) (hhi : f.addr i j + 4 ∈ as) :
    Writes s (t.set64 f v i j) as := (h.wr hlo).wr hhi

theorem State.writes_instantTaken (hs : s.canonical = true) :
    Writes s (s.instantTaken ts) [Reg.SNS_SI_LAST_LO.addr 0 0, Reg.SNS_SI_LAST_HI.addr 0 0, Reg.SNS_PACK_FLAGS.addr 0 0] :=
  .setF (.set64 (.frame (.refl hs)) (by decide) (by decide)) (by decide)

theorem State.rd_set64 (hs : s.canonical = true) {f : Fld} {v i j : Nat} :
    (s.set64 f v i j).rd (f.addr i j) = BitVec.ofNat 32 v ∧ (s.set64 f v i j).rd (f.addr i j + 4) = BitVec.ofNat 32 (v / 2 ^ 32) := by
  have hlow := State.canonical_wr hs (f.addr i j) (BitVec.ofNat 32 v)
  exact ⟨(State.rd_wr_ne hlow _ (by omega)).trans (State.rd_wr_same hs _ _), State.rd_wr_same hlow _ _⟩

/-- The two words of SNS_SI_LAST and the deferral flag. -/
theorem State.rd_instantTaken (hs : s.canonical = true) :
    (s.instantTaken ts).rd (Reg.SNS_SI_LAST_LO.addr 0 0) = BitVec.ofNat 32 (s.frameOf ts) ∧
      (s.instantTaken ts).rd (Reg.SNS_SI_LAST_HI.addr 0 0) = BitVec.ofNat 32 (s.frameOf ts / 2 ^ 32) ∧
      SetsField s (s.instantTaken ts) Reg.SNS_PACK_FLAGS_NOTCH_DEFERRED 0 (ofBool s.sns.deferred) := by
  have hwait : ({ s with sns := { s.sns with packWait := 3 } } : State).canonical = true := hs
  have hpair : Writes s (({ s with sns := { s.sns with packWait := 3 } } : State).set64 Reg.SNS_SI_LAST_LO (s.frameOf ts))
      [Reg.SNS_SI_LAST_LO.addr 0 0, Reg.SNS_SI_LAST_HI.addr 0 0] := .set64 (.frame (.refl hs)) (by decide) (by decide)
  obtain ⟨hlow, hhigh⟩ := State.rd_set64 hwait (f := Reg.SNS_SI_LAST_LO) (v := s.frameOf ts) (i := 0) (j := 0)
  have hflag := State.onlyRegs_setF hpair.canonical Reg.SNS_PACK_FLAGS_NOTCH_DEFERRED (ofBool s.sns.deferred) 0 0
  refine ⟨(hflag _ (by decide)).trans hlow, (hflag _ (by decide)).trans hhigh, ?_⟩
  exact hpair.setsField (bs := []) (.refl (State.canonical_setF hpair.canonical _ _ _ _)) (by decide) (by decide)

/-- The contacts that strobe are those that carried SYNC_OUT before. -/
theorem State.syncsAt_instantTaken (hs : s.canonical = true) (hi : i < 4) : (s.instantTaken ts).syncsAt i = s.syncsAt i := by
  have hwrites := State.writes_instantTaken (ts := ts) hs
  have howner : (s.instantTaken ts).owner i = s.owner i := hwrites.getF (by
    simp only [List.mem_cons, List.not_mem_nil, or_false, Fld.addr]
    omega)
  have heff : (s.instantTaken ts).eff = s.eff := rfl
  rw [State.syncsAt, State.pinFunc_congr heff howner, State.pinDrives_congr heff howner (hwrites.isF (by decide)), State.syncsAt]

end

/-! ## Sensed contacts (16 R389) -/

/-- The words of the contacts. -/
def pinRegs : List Nat := (List.range 32).map fun i => Reg.SYS_PIN.addr i 0

/-- Contact `i` takes its sensed level where the module does not drive it. -/
def State.sensePin (s : State) (levels i : Nat) : State :=
  if s.pinDrives i then s else s.setF Reg.SYS_PIN_LEVEL (ofBool (bitOf levels i)) i

section
variable {s t : State} {levels i k : Nat} {is : List Nat}

theorem State.sensePins_eq : s.sensePins levels = (List.range 32).foldl (fun a i => a.sensePin levels i) s := rfl

theorem mem_pinRegs (hi : i < 32) : Reg.SYS_PIN_LEVEL.addr i 0 ∈ pinRegs := List.mem_map.2 ⟨i, List.mem_range.2 hi, rfl⟩

theorem not_mem_pinRegs {a : Nat} (ha : a < 0x1000 ∨ 0x1080 ≤ a) : a ∉ pinRegs := by
  intro hmem
  obtain ⟨i, hi, rfl⟩ := List.mem_map.1 hmem
  have hlt := List.mem_range.1 hi
  simp only [Fld.addr] at ha
  omega

/-- From `s` to `t` contacts' words alone change. -/
structure Senses (s t : State) : Prop where
  writes : Writes s t pinRegs
  alone : RegsAlone s t

theorem RegsAlone.trans {u : State} (hst : RegsAlone s t) (htu : RegsAlone t u) : RegsAlone s u := by
  unfold RegsAlone at hst htu ⊢
  rw [hst] at htu
  rw [htu]

theorem Senses.refl (hs : s.canonical = true) : Senses s s := ⟨.refl hs, .refl⟩

theorem Senses.sensePin (h : Senses s t) (hi : i < 32) : Senses s (t.sensePin levels i) := by
  unfold State.sensePin
  split
  · exact h
  · exact ⟨h.writes.setF (mem_pinRegs hi), h.alone.setF⟩

theorem Senses.pinDrives (h : Senses s t) : t.pinDrives i = s.pinDrives i :=
  State.pinDrives_congr h.alone.eff (h.writes.getF (not_mem_pinRegs (.inr (by simp only [Fld.addr]; omega))))
    (h.writes.isF (not_mem_pinRegs (.inr (by decide))))

theorem State.getF_sensePin (hs : s.canonical = true) : (s.sensePin levels i).getF Reg.SYS_PIN_LEVEL k =
    if k = i ∧ s.pinDrives k = false then ofBool (bitOf levels k) else s.getF Reg.SYS_PIN_LEVEL k := by
  unfold State.sensePin
  by_cases hki : k = i
  · subst hki
    cases hdrives : s.pinDrives k with
    | true => simp
    | false =>
      have hbit : ofBool (bitOf levels k) < 2 := by cases bitOf levels k <;> decide
      rw [if_neg Bool.false_ne_true, State.getF_setF hs _ _ _ _ (by decide), if_pos ⟨rfl, rfl⟩]
      exact Nat.mod_eq_of_lt hbit
  · rw [if_neg (c := k = i ∧ _) (fun h => hki h.1)]
    split
    · rfl
    · exact State.getF_setF_ne hs _ _ _ _ _ _ _ (by decide) (.inl (by simp only [Fld.addr]; omega))

/-- A contact of the list takes its sensed level where the module does not drive it; every other keeps its own. -/
theorem State.sensed (hs : s.canonical = true) (his : ∀ i ∈ is, i < 32) :
    Senses s (is.foldl (fun a i => a.sensePin levels i) s) ∧
      ∀ k, (is.foldl (fun a i => a.sensePin levels i) s).getF Reg.SYS_PIN_LEVEL k =
        if k ∈ is ∧ s.pinDrives k = false then ofBool (bitOf levels k) else s.getF Reg.SYS_PIN_LEVEL k := by
  induction is generalizing s with
  | nil => exact ⟨.refl hs, fun k => by simp⟩
  | cons i is ih =>
    obtain ⟨hi, his⟩ := List.forall_mem_cons.1 his
    have hfirst : Senses s (s.sensePin levels i) := (Senses.refl hs).sensePin hi
    obtain ⟨hrest, hlevels⟩ := ih hfirst.writes.canonical his
    refine ⟨⟨hfirst.writes.trans hrest.writes, hfirst.alone.trans hrest.alone⟩, fun k => ?_⟩
    rw [List.foldl_cons, hlevels, hfirst.pinDrives, State.getF_sensePin hs]
    cases s.pinDrives k with
    | true => simp
    | false =>
      simp only [and_true, List.mem_cons, or_comm (a := k = i)]
      by_cases hmem : k ∈ is
      · simp [hmem]
      · simp [hmem]

/-- The contacts take their sensed levels. -/
theorem State.senses_sensePins (hs : s.canonical = true) :
    Senses s (s.sensePins levels) ∧ ∀ k ∈ List.range 32, (s.sensePins levels).getF Reg.SYS_PIN_LEVEL k =
      if s.pinDrives k then s.getF Reg.SYS_PIN_LEVEL k else ofBool (bitOf levels k) := by
  obtain ⟨hsenses, hlevels⟩ := State.sensed (levels := levels) hs (fun i hi => List.mem_range.1 hi)
  rw [State.sensePins_eq]
  refine ⟨hsenses, fun k hk => (hlevels k).trans ?_⟩
  cases s.pinDrives k <;> simp [List.mem_range.1 hk]

end

/-! ## Logic tiles (R93, R95) -/

section
variable {s t : State} {ws : List (Fld × Nat × Nat)} {l at16 v k id j st : Nat}

/-- What the inputs of logic tiles read is the same in `t` as in `s`: settings, samples and lanes, every register outside the logic tiles'
own, and the tiles' outputs. -/
structure InputsKept (s t : State) : Prop where
  eff : t.eff = s.eff
  sns : t.sns = s.sns
  pwm : t.pwm = s.pwm
  getF : ∀ (g : Fld) (i : Nat), g.addr i 0 < 0x5D060 ∨ 0x5E060 ≤ g.addr i 0 → t.getF g i = s.getF g i
  logicOut : ∀ k, t.logicOut k = s.logicOut k

theorem InputsKept.isF {g : Fld} {i : Nat} (h : InputsKept s t) (hg : g.addr i 0 < 0x5D060 ∨ 0x5E060 ≤ g.addr i 0) :
    t.isF g i = s.isF g i := by
  rw [State.isF, h.getF g i hg, State.isF]

theorem InputsKept.owner {i : Nat} (h : InputsKept s t) (hi : i < 0x200) : t.owner i = s.owner i :=
  h.getF _ _ (.inl (by simp only [Fld.addr]; omega))

theorem InputsKept.contactIn (h : InputsKept s t) : t.contactIn k = s.contactIn k := by
  have hfind : ((List.range 32).find? fun i => t.pinFunc i = 1 && t.effF Reg.SYS_PIN_SIG i = k) =
      (List.range 32).find? fun i => s.pinFunc i = 1 && s.effF Reg.SYS_PIN_SIG i = k :=
    List.find?_congr fun i hi => by
      have hlt := List.mem_range.1 hi
      rw [State.pinFunc_congr h.eff (h.owner (by omega)), State.effF_congr h.eff]
  unfold State.contactIn
  rw [hfind]
  split
  · next i hi =>
    have hlt : i < 32 := List.mem_range.1 (List.mem_of_find?_eq_some hi)
    exact h.isF (.inl (by simp only [Fld.addr]; omega))
  · rfl

theorem InputsKept.plainInput (h : InputsKept s t) : t.plainInput id = s.plainInput id := by
  unfold State.plainInput
  split
  · simp only [State.ft, h.sns]
  split
  · rw [h.sns]
  split
  · exact h.isF (.inl (by simp only [Fld.addr]; omega))
  split
  · exact h.logicOut _
  split
  · exact h.contactIn
  split
  · exact h.isF (.inr (by simp only [Fld.addr]; omega))
  split
  · rw [State.tripped, h.getF _ _ (.inr (by decide)), State.tripped]
  split
  · exact h.isF (.inr (by decide))
  split
  · rw [h.pwm]
  · rfl

theorem InputsKept.inputAllowed (h : InputsKept s t) : t.inputAllowed k id = s.inputAllowed k id := by
  unfold State.inputAllowed
  split
  · rfl
  split
  · rfl
  split
  · rfl
  split
  · next htimer =>
    simp only [Bool.and_eq_true, decide_eq_true_eq] at htimer
    rw [h.owner (by omega)]
  · rfl

theorem State.portOk_congr {i dir format : Nat} (heff : t.eff = s.eff) : t.portOk k i dir format = s.portOk k i dir format := by
  have hport : t.isE Reg.LT_PORT_EN k i = s.isE Reg.LT_PORT_EN k i := by rw [State.isE, State.effF_congr heff, State.isE]
  simp only [State.portOk, State.isE_congr heff, hport, State.effF_congr heff]

theorem InputsKept.level {n : Nat} (h : InputsKept s t) : t.level n k id = s.level n k id := by
  induction n generalizing k id with
  | zero => rfl
  | succ n ih =>
    simp only [State.level, State.portOk_congr h.eff, h.inputAllowed, h.plainInput, ih, State.effF_congr h.eff]

/-- The inputs, their permission, and the transition that fires from a state at a count. -/
theorem InputsKept.logicInputs (h : InputsKept s t) : t.logicInputs l = s.logicInputs l := by
  simp only [State.logicInputs, State.logicIds, h.level, State.effF_congr h.eff]

theorem InputsKept.firing {ins cnt : Nat} (h : InputsKept s t) : t.firing l st ins cnt = s.firing l st ins cnt := by
  simp only [State.firing, State.isE, State.effF_congr h.eff]

/-- SRC_ERR of a logic tile is no input of any. -/
theorem InputsKept.setSrcErr (hs : s.canonical = true) (hl : l < 32) : InputsKept s (s.setF Reg.LT_LG_STAT_SRC_ERR v l) where
  eff := State.setF_eff ..
  sns := State.setF_sns ..
  pwm := State.setF_pwm ..
  getF g i hg := State.getF_setF_ne hs _ _ _ _ _ _ _ (by decide) (.inl (by simp only [Fld.addr] at hg ⊢; omega))
  logicOut k := State.isF_setF_ne hs _ _ _ _ _ _ _ (by decide) (.inr (by decide))

theorem InputsKept.dwellCount (h : InputsKept s t) (hlt : t.lt = s.lt) : t.dwellCount l at16 = s.dwellCount l at16 := by
  simp only [State.dwellCount, hlt, State.effF_congr h.eff]

theorem InputsKept.fires (h : InputsKept s t) (hstate : t.getF Reg.LT_LG_STAT_STATE l = s.getF Reg.LT_LG_STAT_STATE l) (hlt : t.lt = s.lt) :
    t.fires l at16 = s.fires l at16 := by
  rw [State.fires, hstate, h.logicInputs, h.dwellCount hlt, h.firing, State.fires]

theorem State.fires_setSrcErr (hs : s.canonical = true) (hl : l < 32) :
    (s.setF Reg.LT_LG_STAT_SRC_ERR v l).fires l at16 = s.fires l at16 :=
  (InputsKept.setSrcErr hs hl).fires (State.getF_setF_ne hs _ _ _ _ _ _ _ (by decide) (.inr (by decide))) (State.setF_lt ..)

/-- Logic tile `l` stands in state `st` since `at16` with CNT zero, its output level as it was. -/
def State.logicStands (s : State) (l st at16 : Nat) : State :=
  (({ s with lt := { s.lt with lgSince := Sparse.upd 0 s.lt.lgSince l at16 } } : State).setF Reg.LT_LG_STAT_STATE st l).setF Reg.LT_LG_STAT_CNT 0 l

theorem Wrote.logicStands (h : Wrote s t ws) :
    Wrote s (t.logicStands l st at16) (ws ++ [(Reg.LT_LG_STAT_STATE, l, st), (Reg.LT_LG_STAT_CNT, l, 0)]) := by
  have hwrote := ((h.frame (u := { t with lt := { t.lt with lgSince := Sparse.upd 0 t.lt.lgSince l at16 } })).setF
    (f := Reg.LT_LG_STAT_STATE) (i := l) (v := st)).setF (f := Reg.LT_LG_STAT_CNT) (i := l) (v := 0)
  rwa [List.append_assoc] at hwrote

theorem LtAlone.logicStands (h : LtAlone s t) : LtAlone s (t.logicStands l st at16) := h.setLt.setF.setF

theorem State.logicStands_eff : (s.logicStands l st at16).eff = s.eff := LtAlone.refl.logicStands.eff

theorem State.logicStands_lt : (s.logicStands l st at16).lt = { s.lt with lgSince := Sparse.upd 0 s.lt.lgSince l at16 } := rfl

theorem writesAt_logicStands : writesAt (Reg.LT_LG_STAT.addr l 0) [(Reg.LT_LG_STAT_STATE, l, st), (Reg.LT_LG_STAT_CNT, l, 0)] =
    [(Reg.LT_LG_STAT_STATE, st), (Reg.LT_LG_STAT_CNT, 0)] := by
  simp (disch := (simp only [Fld.addr]; omega)) only [writesAt_cons_same, writesAt_nil]

theorem State.logicStands_logicOut (hs : s.canonical = true) : (s.logicStands l st at16).logicOut l = s.logicOut l := by
  have hwrites : writesAt (Reg.LT_LG_STAT_OUT.addr l 0) [(Reg.LT_LG_STAT_STATE, l, st), (Reg.LT_LG_STAT_CNT, l, 0)] =
      [(Reg.LT_LG_STAT_STATE, st), (Reg.LT_LG_STAT_CNT, 0)] := writesAt_logicStands
  have hout := (Wrote.refl hs).logicStands (l := l) (st := st) (at16 := at16)
  rw [List.nil_append] at hout
  have hkept := hout.getF (f := Reg.LT_LG_STAT_OUT) (i := l) (by rw [hwrites]; rfl)
  rw [hwrites] at hkept
  exact congrArg (fun x => decide (x = 1)) hkept

theorem State.setLogicOut_same {b : Bool} (h : s.logicOut l = b) : s.setLogicOut l b at16 = s := if_pos h

theorem State.enterLogic_eq : s.enterLogic l st at16 =
    (s.logicStands l st at16).setLogicOut l (bitOf ((s.logicStands l st at16).effF Reg.LT_LG_CTL_OUT_MAP l) st) at16 := rfl

/-- A state of the same output level moves no output. -/
theorem State.enterLogic_sameLevel (hs : s.canonical = true) (hlevel : bitOf (s.effF Reg.LT_LG_CTL_OUT_MAP l) st = s.logicOut l) :
    s.enterLogic l st at16 = s.logicStands l st at16 := by
  rw [State.enterLogic_eq, State.effF_congr State.logicStands_eff, hlevel, State.setLogicOut_same (State.logicStands_logicOut hs)]

/-- Logic tile `l`, with its inputs allowed, takes the transition that fires, or counts on. -/
def State.logicTaken (s : State) (l at16 : Nat) : State :=
  match s.fires l at16 with
  | some j => s.enterLogic l (s.effF Reg.LT_LG_TR_TO l j) at16
  | none => s.setF Reg.LT_LG_STAT_CNT (s.dwellCount l at16) l

theorem State.logicTaken_fires (h : s.fires l at16 = some j) :
    s.logicTaken l at16 = s.enterLogic l (s.effF Reg.LT_LG_TR_TO l j) at16 := by rw [State.logicTaken, h]

theorem State.logicTaken_rests (h : s.fires l at16 = none) :
    s.logicTaken l at16 = s.setF Reg.LT_LG_STAT_CNT (s.dwellCount l at16) l := by rw [State.logicTaken, h]

/-- The evaluation of an enabled logic tile: SRC_ERR shows whether its inputs are allowed. -/
theorem State.logicEval_eq : s.logicEval l at16 =
    if 32 ≤ l || !s.isE Reg.LT_LG_CTL_ENABLE l then s
    else (s.setF Reg.LT_LG_STAT_SRC_ERR (ofBool !((s.logicIds l).all (s.inputAllowed (l / 8)))) l).logicTaken l at16 := by
  unfold State.logicEval
  generalize s.setF Reg.LT_LG_STAT_SRC_ERR (ofBool !((s.logicIds l).all (s.inputAllowed (l / 8)))) l = u
  refine if_congr Iff.rfl rfl ?_
  dsimp only
  cases hfires : u.fires l at16 with
  | some j =>
    rw [State.logicTaken_fires hfires]
    unfold State.fires State.dwellCount at hfires
    simp only [hfires]
  | none =>
    rw [State.logicTaken_rests hfires]
    unfold State.fires State.dwellCount at hfires
    simp only [hfires, State.dwellCount]

theorem State.logicEval_allowed (hl : l < 32) (hen : s.isE Reg.LT_LG_CTL_ENABLE l = true)
    (hallowed : (s.logicIds l).all (s.inputAllowed (l / 8)) = true) :
    s.logicEval l at16 = (s.setF Reg.LT_LG_STAT_SRC_ERR 0 l).logicTaken l at16 := by
  have hclear : ofBool (!true) = 0 := rfl
  rw [State.logicEval_eq, if_neg (by simp [hl, hen]), hallowed, hclear]

/-- A transition of the state's own output level fires. -/
theorem State.logicEval_fires (hs : s.canonical = true) (hl : l < 32) (hen : s.isE Reg.LT_LG_CTL_ENABLE l = true)
    (hallowed : (s.logicIds l).all (s.inputAllowed (l / 8)) = true) (hfires : s.fires l at16 = some j)
    (hlevel : bitOf (s.effF Reg.LT_LG_CTL_OUT_MAP l) (s.effF Reg.LT_LG_TR_TO l j) = s.logicOut l) :
    s.logicEval l at16 = (s.setF Reg.LT_LG_STAT_SRC_ERR 0 l).logicStands l (s.effF Reg.LT_LG_TR_TO l j) at16 := by
  have hkept : InputsKept s (s.setF Reg.LT_LG_STAT_SRC_ERR 0 l) := .setSrcErr hs hl
  rw [State.logicEval_allowed hl hen hallowed, State.logicTaken_fires ((State.fires_setSrcErr hs hl).trans hfires),
    State.effF_congr hkept.eff]
  refine State.enterLogic_sameLevel (State.canonical_setF hs _ _ _ _) ?_
  rw [State.effF_congr hkept.eff, hlevel, hkept.logicOut]

/-- No transition fires. -/
theorem State.logicEval_rests (hs : s.canonical = true) (hl : l < 32) (hen : s.isE Reg.LT_LG_CTL_ENABLE l = true)
    (hallowed : (s.logicIds l).all (s.inputAllowed (l / 8)) = true) (hfires : s.fires l at16 = none) :
    s.logicEval l at16 = (s.setF Reg.LT_LG_STAT_SRC_ERR 0 l).setF Reg.LT_LG_STAT_CNT (s.dwellCount l at16) l := by
  have hkept : InputsKept s (s.setF Reg.LT_LG_STAT_SRC_ERR 0 l) := .setSrcErr hs hl
  rw [State.logicEval_allowed hl hen hallowed, State.logicTaken_rests ((State.fires_setSrcErr hs hl).trans hfires),
    hkept.dwellCount (State.setF_lt ..)]

theorem writesAt_logicEntered : writesAt (Reg.LT_LG_STAT.addr l 0)
    [(Reg.LT_LG_STAT_SRC_ERR, l, 0), (Reg.LT_LG_STAT_STATE, l, st), (Reg.LT_LG_STAT_CNT, l, 0)] =
      [(Reg.LT_LG_STAT_SRC_ERR, 0), (Reg.LT_LG_STAT_STATE, st), (Reg.LT_LG_STAT_CNT, 0)] := by
  simp (disch := (simp only [Fld.addr]; omega)) only [writesAt_cons_same, writesAt_nil]

theorem writesAt_logicRests : writesAt (Reg.LT_LG_STAT.addr l 0) [(Reg.LT_LG_STAT_SRC_ERR, l, 0), (Reg.LT_LG_STAT_CNT, l, v)] =
    [(Reg.LT_LG_STAT_SRC_ERR, 0), (Reg.LT_LG_STAT_CNT, v)] := by
  simp (disch := (simp only [Fld.addr]; omega)) only [writesAt_cons_same, writesAt_nil]

theorem writesAt_logicEntered_other {a : Nat} (ha : a ≠ Reg.LT_LG_STAT.addr l 0) :
    writesAt a [(Reg.LT_LG_STAT_SRC_ERR, l, 0), (Reg.LT_LG_STAT_STATE, l, st), (Reg.LT_LG_STAT_CNT, l, 0)] = [] := by
  simp only [Fld.addr] at ha
  simp (disch := (simp only [Fld.addr]; omega)) only [writesAt_cons_other, writesAt_nil]

/-- The transition that fires gives STATE, CNT and SRC_ERR, and the dwell begins again. -/
theorem State.logicEval_enters (hs : s.canonical = true) (hl : l < 32) (hen : s.isE Reg.LT_LG_CTL_ENABLE l = true)
    (hallowed : (s.logicIds l).all (s.inputAllowed (l / 8)) = true) (hfires : s.fires l at16 = some j)
    (hlevel : bitOf (s.effF Reg.LT_LG_CTL_OUT_MAP l) (s.effF Reg.LT_LG_TR_TO l j) = s.logicOut l) :
    Wrote s (s.logicEval l at16)
        [(Reg.LT_LG_STAT_SRC_ERR, l, 0), (Reg.LT_LG_STAT_STATE, l, s.effF Reg.LT_LG_TR_TO l j), (Reg.LT_LG_STAT_CNT, l, 0)] ∧
      (s.logicEval l at16).lt = { s.lt with lgSince := Sparse.upd 0 s.lt.lgSince l at16 } ∧ LtAlone s (s.logicEval l at16) := by
  rw [State.logicEval_fires hs hl hen hallowed hfires hlevel]
  exact ⟨(Wrote.refl hs).setF.logicStands, by rw [State.logicStands_lt, State.setF_lt], LtAlone.refl.setF.logicStands⟩

end

/-! ## The groups that trip behind a loop fault (R81) -/

/-- The words of the lanes' and converters' states, and those of a trip beside PWM_GRP_TRIP. -/
def tripRegs : List Nat :=
  ((List.range 48).map fun n => Reg.PWM_LANE_STAT.addr n 0) ++ ((List.range 4).map fun c => Reg.PWM_CONV_STAT.addr c 0) ++
    [Reg.PWM_STATUS.addr 0 0, Reg.SYS_IRQ_CAUSE.addr 1 0]

/-- From `s` to `t` the registers `as`, the lanes' part, the capture and the events alone change, and no event is lost. -/
structure Trips (as : List Nat) (s t : State) : Prop where
  writes : Writes s t as
  alone : t = { s with regs := t.regs, pwm := t.pwm, snap := t.snap, events := t.events }
  logged : s.events <+: t.events

section
variable {s t u : State} {as bs gs ns : List Nat} {f : Fld} {g i j k n v at16 why vector bit src code source mask : Nat} {data : List Nat}

theorem laneState_mem_tripRegs (hn : n < 48) : Reg.PWM_LANE_STAT_STATE.addr n 0 ∈ tripRegs :=
  List.mem_append_left _ (List.mem_append_left _ (List.mem_map.2 ⟨n, List.mem_range.2 hn, rfl⟩))

theorem active_mem_tripRegs (hn : n < 4) : Reg.PWM_CONV_STAT_ACTIVE.addr n 0 ∈ tripRegs :=
  List.mem_append_left _ (List.mem_append_right _ (List.mem_map.2 ⟨n, List.mem_range.2 hn, rfl⟩))

theorem Trips.refl (hs : s.canonical = true) : Trips as s s := ⟨.refl hs, rfl, List.prefix_rfl⟩

theorem Trips.mono (h : Trips as s t) (hsub : as ⊆ bs) : Trips bs s t := ⟨h.writes.mono hsub, h.alone, h.logged⟩

theorem Trips.trans (hst : Trips as s t) (htu : Trips as t u) : Trips as s u := by
  refine ⟨hst.writes.trans htu.writes, ?_, hst.logged.trans htu.logged⟩
  have halone := htu.alone
  rw [hst.alone] at halone
  exact halone

theorem Trips.setF (h : Trips as s t) (ha : f.addr i j ∈ as) : Trips as s (t.setF f v i j) := by
  refine ⟨h.writes.setF ha, ?_, h.logged⟩
  rw [h.alone]
  rfl

theorem Trips.cause (h : Trips as s t) (ha : Reg.SYS_IRQ_CAUSE.addr vector 0 ∈ as) : Trips as s (t.cause vector bit) := h.setF ha

theorem Trips.setPwm {x : PwmState} (h : Trips as s t) : Trips as s { t with pwm := x } := by
  refine ⟨h.writes.frame, ?_, h.logged⟩
  rw [h.alone]

theorem Trips.setSnap {x : SnapState} (h : Trips as s t) : Trips as s { t with snap := x } := by
  refine ⟨h.writes.frame, ?_, h.logged⟩
  rw [h.alone]

theorem Trips.event (h : Trips as s t) : Trips as s (t.event code source data) := by
  refine ⟨h.writes.frame, ?_, h.logged.trans (List.prefix_append _ _)⟩
  rw [h.alone]
  rfl

theorem Trips.ite {c : Prop} {_ : Decidable c} (ht : Trips as s t) (hu : Trips as s u) : Trips as s (if c then t else u) := by
  split
  · exact ht
  · exact hu

theorem Trips.snapTrigger (h : Trips as s t) : Trips as s (t.snapTrigger src) := .ite h.setSnap h

theorem Trips.setLane {x : LaneState} (h : Trips as s t) : Trips as s (t.setLane n x) := h.setPwm

theorem Trips.setLaneSt (h : Trips tripRegs s t) (hn : n < 48) : Trips tripRegs s (t.setLaneSt n v) := by
  have hconv : n / 12 < 4 := by omega
  unfold State.setLaneSt
  exact .setF (.setF h (laneState_mem_tripRegs hn)) (active_mem_tripRegs hconv)

theorem Trips.tripLane (h : Trips tripRegs s t) (hn : n < 48) : Trips tripRegs s (t.tripLane n) := h.setLane.setLane.setLaneSt hn

theorem Trips.lt (h : Trips as s t) : t.lt = s.lt := by rw [h.alone]

theorem Trips.frame (h : Trips as u t) (hu : u = { s with lt := u.lt, events := u.events }) :
    t = { s with regs := t.regs, lt := t.lt, pwm := t.pwm, snap := t.snap, events := t.events } := by
  rw [h.lt]
  exact h.alone.trans (by rw [hu])

/-- A trip of group `g` shows in PWM_STATUS, as a cause and in the record of its own. -/
def State.tripShown (s : State) (g why : Nat) : State :=
  let a := ((s.setF Reg.PWM_STATUS_ANY_TRIP 1).cause 1 2).snapTrigger 2
  if why = 0 then a else a.event 0x0402 g [g, why]

/-- The lanes of group `g` trip. -/
def State.tripLanes (s : State) (g : Nat) : State :=
  (List.range 48).foldl (fun a n => if a.effF Reg.PWM_LANE_CFG_GROUP n = g then a.tripLane n else a) s

/-- The contactor drives that group `g` names are to open. -/
def State.opensLater (s : State) (g at16 : Nat) : State :=
  if s.effF Reg.PWM_GRP_CFG_CTR g = 0 then s
  else { s with pwm := { s.pwm with
    opening := Sparse.insert s.pwm.opening g (s.effF Reg.PWM_GRP_CFG_CTR g, at16 + 16000000 * s.effF Reg.PWM_GRP_CFG_CTR_DLY g) } }

theorem State.tripGroup_eq : s.tripGroup g why at16 =
    if s.tripped g then s
    else (((s.setF Reg.PWM_GRP_TRIP_TRIP (putBit (s.getF Reg.PWM_GRP_TRIP_TRIP) g true)).tripShown g why).tripLanes g).opensLater g at16 :=
  rfl

theorem Trips.tripShown (h : Trips tripRegs s t) : Trips tripRegs s (t.tripShown g why) :=
  have hshown := ((h.setF (f := Reg.PWM_STATUS_ANY_TRIP) (i := 0) (j := 0) (v := 1) (by decide)).cause (vector := 1) (bit := 2)
    (by decide)).snapTrigger (src := 2)
  .ite hshown hshown.event

theorem Trips.foldl {α : Type} {step : State → α → State} {xs : List α} (h : Trips as s t)
    (hstep : ∀ b, ∀ x ∈ xs, Trips as s b → Trips as s (step b x)) : Trips as s (xs.foldl step t) :=
  List.foldlRecOn xs step h fun b hb x hx => hstep b x hx hb

theorem Trips.tripLanes (h : Trips tripRegs s t) : Trips tripRegs s (t.tripLanes g) :=
  h.foldl fun _ _ hn hb => .ite (hb.tripLane (List.mem_range.1 hn)) hb

theorem Trips.opensLater (h : Trips as s t) : Trips as s (t.opensLater g at16) := .ite h h.setPwm

/-- What a trip of a group changes. -/
theorem Trips.tripGroup (h : Trips (Reg.PWM_GRP_TRIP.addr 0 0 :: tripRegs) s t) :
    Trips (Reg.PWM_GRP_TRIP.addr 0 0 :: tripRegs) s (t.tripGroup g why at16) := by
  rw [State.tripGroup_eq]
  refine .ite h ?_
  have hset : Trips (Reg.PWM_GRP_TRIP.addr 0 0 :: tripRegs) s
      (t.setF Reg.PWM_GRP_TRIP_TRIP (putBit (t.getF Reg.PWM_GRP_TRIP_TRIP) g true)) := h.setF List.mem_cons_self
  exact hset.trans (((Trips.refl hset.writes.canonical).tripShown.tripLanes.opensLater).mono (List.subset_cons_self _ _))

theorem tripWord_not_mem_tripRegs : Reg.PWM_GRP_TRIP.addr 0 0 ∉ tripRegs := by decide

/-- A group that trips is tripped, and every other is tripped as before. -/
theorem State.tripped_tripGroup (hs : s.canonical = true) (hg : g < 8) :
    (s.tripGroup g why at16).tripped k = (s.tripped k || decide (k = g)) := by
  rw [State.tripGroup_eq]
  cases htripped : s.tripped g with
  | true =>
    rw [if_pos rfl]
    by_cases hk : k = g
    · simp [hk, htripped]
    · simp [hk]
  | false =>
    rw [if_neg Bool.false_ne_true]
    have hset := State.canonical_setF hs Reg.PWM_GRP_TRIP_TRIP (putBit (s.getF Reg.PWM_GRP_TRIP_TRIP) g true) 0 0
    have hrest := ((Trips.refl hset).tripShown (g := g) (why := why)).tripLanes (g := g) |>.opensLater (g := g) (at16 := at16)
    have hlt : putBit (s.getF Reg.PWM_GRP_TRIP_TRIP) g true < 2 ^ 8 := putBit_true_lt (Fld.of_lt Reg.PWM_GRP_TRIP_TRIP _) hg
    rw [State.tripped, hrest.writes.getF (f := Reg.PWM_GRP_TRIP_TRIP) tripWord_not_mem_tripRegs,
      State.getF_setF hs _ _ _ _ (by decide), Nat.mod_eq_of_lt hlt]
    by_cases hk : k = g
    · simp [hk, bitOf_putBit_same]
    · simp [hk, bitOf_putBit_ne hk, State.tripped]

/-- The groups of the mask among those of the list trip; a tripped one stays tripped. -/
theorem Trips.tripGroups (h : Trips (Reg.PWM_GRP_TRIP.addr 0 0 :: tripRegs) s t) :
    Trips (Reg.PWM_GRP_TRIP.addr 0 0 :: tripRegs) s (t.tripGroups mask why at16) :=
  h.foldl fun _ _ _ hb => .ite hb.tripGroup hb

theorem State.tripped_foldl_tripGroup (hs : s.canonical = true) (hgs : ∀ g ∈ gs, g < 8)
    (hk : s.tripped k = true ∨ (k ∈ gs ∧ bitOf mask k = true)) :
    (gs.foldl (fun a g => if bitOf mask g then a.tripGroup g why at16 else a) s).tripped k = true := by
  induction gs generalizing s with
  | nil => simpa using hk
  | cons g gs ih =>
    obtain ⟨hg, hgs⟩ := List.forall_mem_cons.1 hgs
    rw [List.foldl_cons]
    cases hbit : bitOf mask g with
    | true =>
      rw [if_pos rfl]
      have htrips : Trips (Reg.PWM_GRP_TRIP.addr 0 0 :: tripRegs) s (s.tripGroup g why at16) := (Trips.refl hs).tripGroup
      refine ih htrips.writes.canonical hgs ?_
      rw [State.tripped_tripGroup hs hg]
      rcases hk with hk | ⟨hmem, hk⟩
      · simp [hk]
      · rcases List.mem_cons.1 hmem with rfl | hmem
        · simp
        · exact .inr ⟨hmem, hk⟩
    | false =>
      refine ih hs hgs (hk.imp_right fun ⟨hmem, hset⟩ => ⟨(List.mem_cons.1 hmem).resolve_left ?_, hset⟩)
      rintro rfl
      rw [hbit] at hset
      exact absurd hset Bool.false_ne_true

theorem bitOf_foldl_putBit {p : Nat → Bool} {m : Nat} :
    bitOf (gs.foldl (fun m g => putBit m g (p g)) m) k = if k ∈ gs then p k else bitOf m k := by
  induction gs generalizing m with
  | nil => rfl
  | cons g gs ih =>
    rw [List.foldl_cons, ih]
    by_cases hk : k = g
    · simp [hk, bitOf_putBit_same]
    · simp [hk, bitOf_putBit_ne hk]

/-- The mask of a shutdown names the groups of the lanes that the tile reaches. -/
theorem State.bitOf_shutMask (hg : g ∈ List.range 8) :
    bitOf (s.shutMask n) g = (s.shutLanes n).any fun l => decide (s.effF Reg.PWM_LANE_CFG_GROUP l = g) := by
  rw [State.shutMask, bitOf_foldl_putBit, if_pos hg]

/-- The loop fault of tile `n` waits for no shutdown any more. -/
def State.faultsDropped (s : State) (n : Nat) : State :=
  { s with lt := { s.lt with faults := s.lt.faults.filter fun e => e.1 ≠ n } }

theorem State.resolve_congr (heff : t.eff = s.eff) : t.resolve n k i = s.resolve n k i := by
  induction n generalizing k i with
  | zero => rfl
  | succ n ih => simp only [State.resolve, State.portOk_congr heff, State.effF_congr heff, ih]

theorem State.feeders_congr (heff : t.eff = s.eff) : t.feeders n = s.feeders n := by
  have hsource : t.sourceTile (n / 24) = s.sourceTile (n / 24) := funext fun i => by
    simp only [State.sourceTile, State.resolve_congr heff]
  simp only [State.feeders, hsource, State.isE_congr heff, State.effF_congr heff]

theorem State.reached_faultsDropped {ts : List Nat} : (s.faultsDropped n).reached k ts = s.reached k ts := by
  induction k generalizing ts with
  | zero => rfl
  | succ k ih =>
    have heff : (s.faultsDropped n).eff = s.eff := rfl
    have htile : (s.faultsDropped n).tile = s.tile := rfl
    simp only [State.reached, ih, htile, State.feeders_congr heff]

theorem State.shutMask_faultsDropped : (s.faultsDropped n).shutMask k = s.shutMask k := by
  simp only [State.shutMask, State.shutLanes, State.reached_faultsDropped]
  rfl

theorem exec_faultShutdown_trips (hfault : s.lt.faults.any (fun e => e.1 = n && e.2 + 16000000 ≤ at16) = true)
    (hlock : s.isF Reg.TWN_STATUS_LOCK = true) :
    exec (.faultShutdown n at16) s =
      .next (((s.faultsDropped n).event 0x0304 n [n, s.shutMask n]).tripGroups (s.shutMask n) 3 at16) := by
  rw [← State.shutMask_faultsDropped]
  exact congrArg Host.Outcome.next (if_pos (by simp only [hfault, hlock, Bool.and_self]))

theorem exec_faultShutdown_idle
    (h : s.lt.faults.any (fun e => e.1 = n && e.2 + 16000000 ≤ at16) = false ∨ s.isF Reg.TWN_STATUS_LOCK = false) :
    exec (.faultShutdown n at16) s = .next s := by
  refine congrArg Host.Outcome.next (if_neg ?_)
  rcases h with h | h
  · simp only [h, Bool.false_and, Bool.false_eq_true, not_false_eq_true]
  · simp only [h, Bool.and_false, Bool.false_eq_true, not_false_eq_true]

/-- The registers of a trip lie among the lanes' and converters' own words, but for three. -/
theorem Trips.outsideLanes (h : Trips (Reg.PWM_GRP_TRIP.addr 0 0 :: tripRegs) s t) :
    OutsideLanes s t [Reg.PWM_GRP_TRIP.addr 0 0, Reg.PWM_STATUS.addr 0 0, Reg.SYS_IRQ_CAUSE.addr 1 0] := by
  intro a hlane hconv ha
  refine h.writes.rd fun hmem => ?_
  simp only [List.mem_cons, List.not_mem_nil, or_false, not_or] at ha
  obtain ⟨htrip, hstatus, hcause⟩ := ha
  simp only [tripRegs, List.mem_cons, List.mem_append, List.mem_map, List.mem_range, List.not_mem_nil, or_false] at hmem
  rcases hmem with hmem | (⟨n, hn, rfl⟩ | ⟨c, hc, rfl⟩) | hmem | hmem
  · exact htrip hmem
  · simp only [Fld.addr] at hlane
    omega
  · exact hconv c hc rfl
  · exact hstatus hmem
  · exact hcause hmem

end

/-! ## O18 -/

/-- Settles O18: an evaluation of a logic tile, a timer's command and T_s are read off the writes they come to; a shutdown is followed
through the trips of its groups, of which none takes a trip back. -/
theorem logicTilesTimersAndTheSampleInstant : Obligations.LogicTilesTimersAndTheSampleInstant := by
  unfold Obligations.LogicTilesTimersAndTheSampleInstant
  refine ⟨?fires, ?rests, ?senses, ?start, ?startOff, ?stop, ?startDenied, ?stopDenied, ?oneshot, ?periodic, ?early, ?instant, ?shutdown, ?none⟩
  case fires =>
    intro s l at16 j hs hl hen hallowed hfires hlevel
    obtain ⟨hwrote, hlt, halone⟩ := State.logicEval_enters hs hl hen hallowed hfires hlevel
    exact ⟨_, rfl, hwrote.setsFields writesAt_logicEntered, hlt, hwrote.only (by simp [Fld.addr]), halone⟩
  case rests =>
    intro s l at16 hs hl hen hallowed hfires
    have hwrote : Wrote s (s.logicEval l at16) [(Reg.LT_LG_STAT_SRC_ERR, l, 0), (Reg.LT_LG_STAT_CNT, l, s.dwellCount l at16)] := by
      rw [State.logicEval_rests hs hl hen hallowed hfires]
      exact (Wrote.refl hs).setF.setF
    have halone : RegsAlone s (s.logicEval l at16) := by
      rw [State.logicEval_rests hs hl hen hallowed hfires]
      exact RegsAlone.refl.setF.setF
    exact ⟨_, rfl, hwrote.setsFields writesAt_logicRests, hwrote.only (by simp [Fld.addr]), halone⟩
  case senses =>
    intro s l at16 pins j hs hl hen hallowed hfires hlevel
    obtain ⟨hsenses, hlevels⟩ := State.senses_sensePins (levels := pins) hs
    have hstat : Reg.LT_LG_STAT.addr l 0 ∉ pinRegs := not_mem_pinRegs (.inr (by simp only [Fld.addr]; omega))
    have heff := hsenses.alone.eff
    have hlevel : bitOf ((s.sensePins pins).effF Reg.LT_LG_CTL_OUT_MAP l) ((s.sensePins pins).effF Reg.LT_LG_TR_TO l j) =
        (s.sensePins pins).logicOut l := by
      rw [State.effF_congr heff, State.effF_congr heff, hlevel, State.logicOut, State.logicOut]
      exact (hsenses.writes.isF (f := Reg.LT_LG_STAT_OUT) hstat).symm
    obtain ⟨hwrote, hlt, halone⟩ := State.logicEval_enters hsenses.writes.canonical hl ((State.isE_congr heff).trans hen) hallowed hfires hlevel
    refine ⟨_, rfl, ?stat, ?lt, fun i hi => ?pin, fun a hpin hne => ?frame, hsenses.alone.ltAlone.trans halone⟩
    case stat =>
      have hsets := hwrote.setsFields writesAt_logicEntered
      rwa [SetsFields, hsenses.writes.rd hstat, State.effF_congr heff] at hsets
    case lt => rw [hlt, hsenses.alone.lt]
    case pin =>
      have hi32 := List.mem_range.1 hi
      exact (hwrote.getF_same (writesAt_logicEntered_other (by simp only [Fld.addr]; omega))).trans (hlevels i hi)
    case frame => exact (hwrote.rd (writesAt_logicEntered_other hne)).trans (hsenses.writes.rd (not_mem_pinRegs hpin))
  case start =>
    intro s path n now hs hn howner howned hen
    have hexec := exec_timerStart_owner (now := now) hn howner
    rw [State.timerStart_counts howned hen] at hexec
    have hwrote : Wrote s (((s.timerCounts n (16 * now + s.timerSpan n)).setF Reg.LT_TMR_STAT_RUNNING 1 n).setF Reg.LT_TMR_STAT_EXPIRED 0 n)
        [(Reg.LT_TMR_STAT_RUNNING, n, 1), (Reg.LT_TMR_STAT_EXPIRED, n, 0)] := (Wrote.refl hs).timerCounts.setF.setF
    have halone : LtAlone s (((s.timerCounts n (16 * now + s.timerSpan n)).setF Reg.LT_TMR_STAT_RUNNING 1 n).setF
        Reg.LT_TMR_STAT_EXPIRED 0 n) := LtAlone.refl.timerCounts.setF.setF
    obtain ⟨hshown, honly⟩ := hwrote.journal.timerShown
    exact ⟨_, hexec, State.journal_lt, hshown, hwrote.journals (writesAt_timer_lock hn) halone.twn, honly, halone.journal⟩
  case startOff =>
    intro s path n now hn howner hoff
    have hexec := exec_timerStart_owner (now := now) hn howner
    rw [State.timerStart_off hoff, State.journal_eq] at hexec
    exact ⟨_, hexec, rfl, rfl⟩
  case stop =>
    intro s path n hs hn howner
    have hwrote := State.wrote_timerHalt (n := n) (v := 0) hs
    have halone : LtAlone s ((s.timerHalt n).setF Reg.LT_TMR_STAT_EXPIRED 0 n) := LtAlone.refl.timerHalt.setF
    obtain ⟨hshown, honly⟩ := hwrote.journal.timerShown
    exact ⟨_, exec_timerStop_owner hn howner, hshown, hwrote.journals (writesAt_timer_lock hn) halone.twn, State.journal_lt, honly,
      halone.journal⟩
  case startDenied =>
    intro s path n now hs hn howner
    exact ⟨_, exec_timerStart_other hn howner, SetsField.setF hs, State.onlyRegs_setF hs _ _ _ _, RegsAlone.refl.setF⟩
  case stopDenied =>
    intro s path n hs hn howner
    exact ⟨_, exec_timerStop_other hn howner, SetsField.setF hs, State.onlyRegs_setF hs _ _ _ _, RegsAlone.refl.setF⟩
  case oneshot =>
    intro s n at16 due hs hn hrun hmode hfind hdue
    have hexec := exec_timerExpire_due hn hrun hfind hdue
    rw [hmode, if_neg Bool.false_ne_true] at hexec
    obtain ⟨hshown, honly⟩ := (State.wrote_timerHalt (n := n) (v := 1) hs).timerShown
    exact ⟨_, hexec, hshown, rfl, honly, LtAlone.refl.timerHalt.setF⟩
  case periodic =>
    intro s n at16 due hs hn hrun hmode hfind hdue hidle
    have hexec := exec_timerExpire_due hn hrun hfind hdue
    rw [hmode, if_pos rfl, State.logicCycle_timerCounts_idle hidle] at hexec
    have hwrote : Wrote s (((s.timerCounts n (due + s.timerSpan n)).setF Reg.LT_TMR_STAT_EXPIRED 1 n).setF Reg.LT_TMR_STAT_EXPIRED 0 n)
        [(Reg.LT_TMR_STAT_EXPIRED, n, 1), (Reg.LT_TMR_STAT_EXPIRED, n, 0)] := (Wrote.refl hs).timerCounts.setF.setF
    refine ⟨_, hexec, ?_, rfl, hwrote.only (by simp [Fld.addr]), LtAlone.refl.timerCounts.setF.setF⟩
    have hpulse : SetsFields s _ (Reg.LT_TMR_STAT_EXPIRED.addr n 0) [(Reg.LT_TMR_STAT_EXPIRED, 1), (Reg.LT_TMR_STAT_EXPIRED, 0)] :=
      hwrote.setsFields (by simp (disch := (simp only [Fld.addr]; omega)) only [writesAt_cons_same, writesAt_nil])
    exact hpulse.trans expired_pulse
  case early =>
    intro s n at16 hearly
    exact ⟨s, exec_timerExpire_early hearly, rfl⟩
  case instant =>
    intro s ts hs hts
    have hwrites := State.writes_instantTaken (ts := ts) hs
    obtain ⟨hlow, hhigh, hflag⟩ := State.rd_instantTaken (ts := ts) hs
    have hexec := exec_packSampleInstant hts
    have hsyncs : (List.range 4).filter (s.instantTaken ts).syncsAt = (List.range 4).filter s.syncsAt :=
      List.filter_congr fun i hi => State.syncsAt_instantTaken hs (List.mem_range.1 hi)
    rw [State.strobes_eq, hsyncs] at hexec
    exact ⟨_, hexec, hlow, hhigh, hflag, rfl, rfl, hwrites.only, rfl⟩
  case shutdown =>
    intro s n at16 hs _ hfault hlock
    have hstart : ((s.faultsDropped n).event 0x0304 n [n, s.shutMask n]).canonical = true := hs
    have htrips := (Trips.refl hstart).tripGroups (mask := s.shutMask n) (why := 3) (at16 := at16)
    refine ⟨_, exec_faultShutdown_trips hfault hlock, ?lt, fun g hg hlane => ?trips, ?logged, htrips.outsideLanes, ?frame⟩
    case lt => exact htrips.lt
    case trips =>
      exact State.tripped_foldl_tripGroup hstart (fun g hg => List.mem_range.1 hg) (.inr ⟨hg, (State.bitOf_shutMask hg).trans hlane⟩)
    case logged =>
      have htake := List.prefix_iff_eq_take.1 htrips.logged
      have hlength : ((s.faultsDropped n).event 0x0304 n [n, s.shutMask n]).events.length = s.events.length + 1 := List.length_append
      rw [hlength] at htake
      exact htake.symm
    case frame => exact htrips.frame rfl
  case none =>
    intro s n at16 hidle
    exact ⟨s, exec_faultShutdown_idle hidle, rfl⟩

end Sys2Proof.Machine
end

section

/-!
PROOFS. Phase shedding (05 R107 to R111). O21 asks for the canonical form of the register file, the settings, the stack and its poison, but
not of the list of converters. Where that list names a converter twice, a state of the converter that equals the default takes the first
entry off, and the second one shows.
-/

namespace Sys2Proof.Machine

/-- Converter 0 is listed twice: at rest, and with a request of instant 5. -/
def converterTwice : State := { State.reset with pwm := { conv := [(0, {}), (0, { reqAt := 5 })] } }

/-- A request that the converter may take, at instant 0, leaves converter 0 at rest; what reads then is the second entry. -/
theorem converterTwice_requested :
    (((converterTwice.requestShed 0 0 0).journal (Reg.PWM_CONV_CMD.addr 0 0) 0).conv 0).reqAt = 5 := by
  decide +kernel

/-- A request of the host to a converter whose requests are the host's. -/
theorem exec_shedRequest_host {s : State} {c tgt at16 : Nat} (hc : c < 4) (hsrc : s.isE Reg.PWM_CONV_SHED_REQ_SRC c = false) :
    exec (.shedRequest c tgt at16) s =
      .next ((s.requestShed c at16 (tgt % 8 : Nat)).journal (Reg.PWM_CONV_CMD.addr c 0) (tgt % 8)) :=
  congrArg Host.Outcome.next (if_neg (by simp [hc, hsrc]))

/-- Refutes O21: the first clause has converter `converter` hold the instant of the request, but in a list that names the converter twice a
request that leaves it as by default, here for level 0 at instant 0, lets the second entry show. -/
theorem not_phaseShedding : ¬ Obligations.PhaseShedding := by
  unfold Obligations.PhaseShedding
  rintro ⟨hrequest, -⟩
  obtain ⟨t, hexec, -, -, hat, -⟩ := hrequest converterTwice 0 0 0 (by decide +kernel) (by decide) (by decide +kernel) (by decide)
    (Nat.zero_le _) (by decide +kernel) (.inl (Nat.zero_le _))
  rw [exec_shedRequest_host (by decide) (by decide +kernel)] at hexec
  cases hexec
  exact absurd (converterTwice_requested.symm.trans hat) (by decide)

end Sys2Proof.Machine
end

section

/-!
PROOFS. Fault inputs, fault groups and contactor drives (05 R112 to R115). A trip begins with its words of the group, of PWM_STATUS and of
the causes (`State.tripBegun`), which `Wrote` follows; then it works on lanes, which `LanesWorked` follows, and so does a release.
-/

namespace Sys2Proof.Machine

/-! ## Work on lanes -/

/-- The words of the lanes' and converters' states. -/
def laneStatWords : List Nat :=
  ((List.range 48).map fun n => Reg.PWM_LANE_STAT.addr n 0) ++ (List.range 4).map fun c => Reg.PWM_CONV_STAT.addr c 0

/-- From `s` to `t` the words of lanes' and converters' states and the PWM engine's part alone change. -/
structure LanesWorked (s t : State) : Prop where
  writes : Writes s t laneStatWords
  alone : t = { s with regs := t.regs, pwm := t.pwm }

section
variable {s t u : State} {ns gs as bs cs : List Nat} {f : Fld} {g i j k n v at16 why mask : Nat}

theorem not_mem_laneStatWords {a : Nat} (hlane : a < 0x61000 ∨ 0x61C00 ≤ a) (hconv : ∀ c, c < 4 → a ≠ Reg.PWM_CONV_STAT.addr c 0) :
    a ∉ laneStatWords := by
  simp only [laneStatWords, List.mem_append, List.mem_map, List.mem_range]
  rintro (⟨n, hn, rfl⟩ | ⟨c, hc, rfl⟩)
  · simp only [Fld.addr] at hlane
    omega
  · exact hconv c hc rfl

theorem LanesWorked.refl (hs : s.canonical = true) : LanesWorked s s := ⟨.refl hs, rfl⟩

theorem LanesWorked.setPwm {x : PwmState} (h : LanesWorked s t) : LanesWorked s { t with pwm := x } := by
  refine ⟨h.writes.frame, ?_⟩
  rw [h.alone]

theorem LanesWorked.setLane {x : LaneState} (h : LanesWorked s t) : LanesWorked s (t.setLane n x) := h.setPwm

theorem LanesWorked.setF (h : LanesWorked s t) (ha : f.addr i j ∈ laneStatWords) : LanesWorked s (t.setF f v i j) := by
  refine ⟨h.writes.setF ha, ?_⟩
  rw [h.alone]
  rfl

theorem LanesWorked.setLaneSt (h : LanesWorked s t) (hn : n < 48) : LanesWorked s (t.setLaneSt n v) := by
  have hlane : Reg.PWM_LANE_STAT.addr n 0 ∈ laneStatWords := List.mem_append_left _ (List.mem_map.2 ⟨n, List.mem_range.2 hn, rfl⟩)
  have hconv : Reg.PWM_CONV_STAT.addr (n / 12) 0 ∈ laneStatWords :=
    List.mem_append_right _ (List.mem_map.2 ⟨n / 12, List.mem_range.2 (by omega), rfl⟩)
  exact .setF (.setF h hlane) hconv

theorem LanesWorked.ite {c : Prop} {_ : Decidable c} (ht : LanesWorked s t) (hu : LanesWorked s u) :
    LanesWorked s (if c then t else u) := by
  split
  · exact ht
  · exact hu

theorem LanesWorked.foldl {α : Type} {step : State → α → State} {xs : List α} (h : LanesWorked s t)
    (hstep : ∀ b, ∀ x ∈ xs, LanesWorked s b → LanesWorked s (step b x)) : LanesWorked s (xs.foldl step t) :=
  List.foldlRecOn xs step h fun b hb x hx => hstep b x hx hb

theorem LanesWorked.tripLane (h : LanesWorked s t) (hn : n < 48) : LanesWorked s (t.tripLane n) := h.setLane.setLane.setLaneSt hn

theorem LanesWorked.tripLanes (h : LanesWorked s t) : LanesWorked s (t.tripLanes g) :=
  h.foldl fun _ _ hn hb => .ite (hb.tripLane (List.mem_range.1 hn)) hb

theorem LanesWorked.opensLater (h : LanesWorked s t) : LanesWorked s (t.opensLater g at16) := .ite h h.setPwm

theorem LanesWorked.untripLane {own : Bool} (h : LanesWorked s t) (hn : n < 48) : LanesWorked s (t.untripLane n own) :=
  .ite (h.setLaneSt hn) <| .ite (h.setLaneSt hn) <| .ite (h.setLaneSt hn) <| .setLaneSt (.ite h.setLane h.setLane) hn

theorem LanesWorked.eff (h : LanesWorked s t) : t.eff = s.eff := by rw [h.alone]

theorem LanesWorked.twn (h : LanesWorked s t) : t.twn = s.twn := by rw [h.alone]

theorem LanesWorked.events (h : LanesWorked s t) : t.events = s.events := by rw [h.alone]

theorem tripWord_not_mem_laneStatWords : Reg.PWM_GRP_TRIP.addr 0 0 ∉ laneStatWords := by decide

theorem LanesWorked.tripped (h : LanesWorked s t) : t.tripped g = s.tripped g := by
  rw [State.tripped, h.writes.getF (f := Reg.PWM_GRP_TRIP_TRIP) tripWord_not_mem_laneStatWords, State.tripped]

/-- Work on lanes after writes elsewhere. -/
theorem LanesWorked.outsideLanes (hst : OnlyRegs s t as) (htu : LanesWorked t u) : OutsideLanes s u as := fun a hlane hconv ha =>
  (htu.writes.rd (not_mem_laneStatWords hlane hconv)).trans (hst a ha)

theorem OutsideLanes.trans (hst : OnlyRegs s t as) (htu : OutsideLanes t u bs) (has : as ⊆ cs) (hbs : bs ⊆ cs) : OutsideLanes s u cs :=
  fun a hlane hconv ha => (htu a hlane hconv fun hmem => ha (hbs hmem)).trans (hst a fun hmem => ha (has hmem))

/-! ## The lanes of a group that trips (R114) -/

theorem State.laneSt_tripLane (hs : s.canonical = true) :
    (s.tripLane n).laneSt k = if k = n then laneTripped else s.laneSt k := by
  have hoff : ((s.setLane n { s.lane n with readd := none, waitP0 := false, own := false, shedAt := none, handed := [] }).offNow
    n).canonical = true := hs
  have hconv : Reg.PWM_LANE_STAT_STATE.addr k 0 ≠ Reg.PWM_CONV_STAT_ACTIVE.addr (n / 12) 0 := by
    simp only [Fld.addr]
    omega
  rw [State.tripLane, State.laneSt, State.setLaneSt,
    State.getF_setF_ne (State.canonical_setF hoff _ _ _ _) _ _ _ _ _ _ _ (by decide) (.inl hconv)]
  split
  · next hk => rw [hk, State.getF_setF hoff _ _ _ _ (by decide)]; rfl
  · next hk =>
    rw [State.getF_setF_ne hoff _ _ _ _ _ _ _ (by decide) (.inl (by simp only [Fld.addr]; omega))]
    rfl

theorem State.laneSt_foldl_tripLane (hs : s.canonical = true) (hns : ∀ n ∈ ns, n < 48) :
    (ns.foldl (fun a n => if a.effF Reg.PWM_LANE_CFG_GROUP n = g then a.tripLane n else a) s).laneSt k =
      if k ∈ ns ∧ s.effF Reg.PWM_LANE_CFG_GROUP k = g then laneTripped else s.laneSt k := by
  induction ns generalizing s with
  | nil => simp
  | cons n ns ih =>
    obtain ⟨hn, hns⟩ := List.forall_mem_cons.1 hns
    rw [List.foldl_cons]
    by_cases hgroup : s.effF Reg.PWM_LANE_CFG_GROUP n = g
    · have hwork : LanesWorked s (s.tripLane n) := (LanesWorked.refl hs).tripLane hn
      rw [if_pos hgroup, ih hwork.writes.canonical hns, State.effF_congr hwork.eff, State.laneSt_tripLane hs]
      by_cases hk : k = n
      · simp [hk, hgroup]
      · simp [hk]
    · rw [if_neg hgroup, ih hs hns]
      by_cases hk : k = n
      · simp [hk, hgroup]
      · simp [hk]

/-- Every lane of the group is TRIPPED, and every other as before. -/
theorem State.laneSt_tripLanes (hs : s.canonical = true) (hk : k ∈ List.range 48) :
    (s.tripLanes g).laneSt k = if s.effF Reg.PWM_LANE_CFG_GROUP k = g then laneTripped else s.laneSt k := by
  rw [State.tripLanes, State.laneSt_foldl_tripLane hs fun _ => List.mem_range.1]
  simp only [hk, true_and]

theorem State.setLaneSt_pwm : (s.setLaneSt n v).pwm = s.pwm := by
  unfold State.setLaneSt
  dsimp only
  rw [State.setF_pwm, State.setF_pwm]

theorem State.opening_tripLane : (s.tripLane n).pwm.opening = s.pwm.opening := by
  rw [State.tripLane, State.setLaneSt_pwm]
  rfl

theorem State.opening_tripLanes : (s.tripLanes g).pwm.opening = s.pwm.opening := by
  unfold State.tripLanes
  refine List.foldlRecOn (motive := fun a : State => a.pwm.opening = s.pwm.opening) _ _ rfl fun a ha n _ => ?_
  split
  · rw [State.opening_tripLane, ha]
  · exact ha

/-! ## Trips of groups (R112, R113) -/

/-- The trip of group `g` is shown. -/
def State.tripBegun (s : State) (g why : Nat) : State :=
  (s.setF Reg.PWM_GRP_TRIP_TRIP (putBit (s.getF Reg.PWM_GRP_TRIP_TRIP) g true)).tripShown g why

/-- The writes that show it. -/
abbrev State.tripWrites (s : State) (g : Nat) : List (Fld × Nat × Nat) :=
  [(Reg.PWM_GRP_TRIP_TRIP, 0, putBit (s.getF Reg.PWM_GRP_TRIP_TRIP) g true), (Reg.PWM_STATUS_ANY_TRIP, 0, 1),
    (Reg.SYS_IRQ_CAUSE, 1, putBit (s.getF Reg.SYS_IRQ_CAUSE 1) 2 true)]

theorem State.tripGroup_untripped (h : s.tripped g = false) :
    s.tripGroup g why at16 = ((s.tripBegun g why).tripLanes g).opensLater g at16 := by
  rw [State.tripGroup_eq, h, if_neg Bool.false_ne_true, State.tripBegun]

theorem State.tripGroup_tripped (h : s.tripped g = true) : s.tripGroup g why at16 = s := by
  rw [State.tripGroup_eq, h, if_pos rfl]

theorem Wrote.snapTrigger {ws : List (Fld × Nat × Nat)} {src : Nat} (h : Wrote s t ws) : Wrote s (t.snapTrigger src) ws := by
  unfold State.snapTrigger
  split
  · exact h.frame
  · exact h

theorem State.wrote_tripBegun (hs : s.canonical = true) : Wrote s (s.tripBegun g why) (s.tripWrites g) := by
  have hgroup : Wrote s (s.setF Reg.PWM_GRP_TRIP_TRIP (putBit (s.getF Reg.PWM_GRP_TRIP_TRIP) g true)) _ := (Wrote.refl hs).setF
  have hshown := ((hgroup.setF (f := Reg.PWM_STATUS_ANY_TRIP) (i := 0) (v := 1)).cause (vector := 1) (bit := 2) rfl).snapTrigger (src := 2)
  unfold State.tripBegun State.tripShown
  dsimp only
  split
  · exact hshown
  · exact hshown.event

theorem State.snapTrigger_alone {src : Nat} : s.snapTrigger src = { s with snap := (s.snapTrigger src).snap } := by
  unfold State.snapTrigger
  split <;> rfl

/-- What else a trip begins with: the capture that it may trigger, and a record of its own unless the cause has one. -/
theorem State.tripBegun_alone : s.tripBegun g why = { s with
    regs := (s.tripBegun g why).regs
    snap := (s.tripBegun g why).snap
    events := s.events ++ if why = 0 then [] else [LogEvent.mk 0x0402 g [g, why]] } := by
  unfold State.tripBegun State.tripShown
  dsimp only
  rw [State.snapTrigger_alone]
  split
  · rw [List.append_nil]; rfl
  · rfl

/-! ## Trips of the groups of a mask -/

/-- A fault input is shown: FLT_ANY and the cause of the inputs. -/
structure FaultShows (s : State) : Prop where
  any : s.isF Reg.PWM_STATUS_FLT_ANY = true
  cause : bitOf (s.getF Reg.SYS_IRQ_CAUSE 1) 1 = true

theorem FaultShows.lanesWorked (h : FaultShows s) (hwork : LanesWorked s t) : FaultShows t where
  any := (hwork.writes.isF (by decide)).trans h.any
  cause := (congrArg (bitOf · 1) (hwork.writes.getF (by decide))).trans h.cause

theorem FaultShows.tripBegun (h : FaultShows s) (hs : s.canonical = true) : FaultShows (s.tripBegun g why) := by
  have hwrote : Wrote s (s.tripBegun g why) (s.tripWrites g) := State.wrote_tripBegun hs
  have hraises : Raises s (s.tripBegun g why) 1 [2] := hwrote.raises (by decide) rfl
  refine ⟨?_, ?_⟩
  · exact (congrArg (fun x => decide (x = 1)) (hwrote.getF rfl)).trans h.any
  · rw [hraises]
    exact (bitOf_putBit_ne (by decide)).trans h.cause

theorem State.lanesWorked_tripGroup (hs : s.canonical = true) (h : s.tripped g = false) :
    LanesWorked (s.tripBegun g why) (s.tripGroup g why at16) := by
  rw [State.tripGroup_untripped h]
  exact (LanesWorked.refl (State.wrote_tripBegun hs).canonical).tripLanes.opensLater

theorem FaultShows.tripGroup (h : FaultShows s) (hs : s.canonical = true) : FaultShows (s.tripGroup g why at16) := by
  cases htripped : s.tripped g with
  | true => rwa [State.tripGroup_tripped htripped]
  | false => exact (h.tripBegun hs).lanesWorked (State.lanesWorked_tripGroup hs htripped)

theorem State.tripGroup_events (h : s.tripped g = false) (hs : s.canonical = true) :
    (s.tripGroup g why at16).events = s.events ++ if why = 0 then [] else [LogEvent.mk 0x0402 g [g, why]] := by
  rw [(State.lanesWorked_tripGroup hs h).events, State.tripBegun_alone]

theorem State.tripGroup_events_silent (hs : s.canonical = true) : (s.tripGroup g 0 at16).events = s.events := by
  cases htripped : s.tripped g with
  | true => rw [State.tripGroup_tripped htripped]
  | false => rw [State.tripGroup_events htripped hs, if_pos rfl, List.append_nil]

/-- What holds through the trip of any group holds through those of a mask. -/
theorem State.tripGroups_rec {P : State → Prop} (hs : s.canonical = true) (h : P s)
    (hstep : ∀ a g, a.canonical = true → P a → P (a.tripGroup g why at16)) : P (s.tripGroups mask why at16) := by
  unfold State.tripGroups
  refine (List.foldlRecOn (motive := fun a => a.canonical = true ∧ P a) _ _ ⟨hs, h⟩ fun a ha g _ => ?_).2
  split
  · exact ⟨(Trips.tripGroup (.refl ha.1)).writes.canonical, hstep a g ha.1 ha.2⟩
  · exact ha

theorem FaultShows.tripGroups (h : FaultShows s) (hs : s.canonical = true) : FaultShows (s.tripGroups mask why at16) :=
  State.tripGroups_rec hs h fun _ _ ha hshows => hshows.tripGroup ha

theorem State.tripGroups_events_silent (hs : s.canonical = true) : (s.tripGroups mask 0 at16).events = s.events :=
  State.tripGroups_rec (P := fun a => a.events = s.events) hs rfl fun _ _ ha hevents => (State.tripGroup_events_silent ha).trans hevents

theorem State.tripped_foldl_tripGroup_eq (hs : s.canonical = true) (hgs : ∀ g ∈ gs, g < 8) :
    (gs.foldl (fun a g => if bitOf mask g then a.tripGroup g why at16 else a) s).tripped k =
      (s.tripped k || (decide (k ∈ gs) && bitOf mask k)) := by
  induction gs generalizing s with
  | nil => simp
  | cons g gs ih =>
    obtain ⟨hg, hgs⟩ := List.forall_mem_cons.1 hgs
    rw [List.foldl_cons]
    cases hbit : bitOf mask g with
    | true =>
      have htrips : Trips (Reg.PWM_GRP_TRIP.addr 0 0 :: tripRegs) s (s.tripGroup g why at16) := (Trips.refl hs).tripGroup
      rw [if_pos rfl, ih htrips.writes.canonical hgs, State.tripped_tripGroup hs hg]
      by_cases hk : k = g
      · simp [hk, hbit]
      · simp [hk]
    | false =>
      rw [if_neg Bool.false_ne_true, ih hs hgs]
      by_cases hk : k = g
      · simp [hk, hbit]
      · simp [hk]

/-- The groups of the mask are tripped, and every other as before. -/
theorem State.tripped_tripGroups (hs : s.canonical = true) (hk : k ∈ List.range 8) :
    (s.tripGroups mask why at16).tripped k = (s.tripped k || bitOf mask k) := by
  rw [State.tripGroups, State.tripped_foldl_tripGroup_eq hs fun _ => List.mem_range.1, decide_eq_true hk, Bool.true_and]

/-! ## The group that trips: its lanes and its contactor drives -/

theorem State.laneSt_tripGroup (hs : s.canonical = true) (h : s.tripped g = false) (hk : k ∈ List.range 48) :
    (s.tripGroup g why at16).laneSt k = if s.effF Reg.PWM_LANE_CFG_GROUP k = g then laneTripped else s.laneSt k := by
  have hwrote : Wrote s (s.tripBegun g why) (s.tripWrites g) := State.wrote_tripBegun hs
  have hlanes : ((s.tripBegun g why).tripLanes g).laneSt k = _ := State.laneSt_tripLanes hwrote.canonical hk
  have hopens : (((s.tripBegun g why).tripLanes g).opensLater g at16).laneSt k = ((s.tripBegun g why).tripLanes g).laneSt k := by
    unfold State.opensLater
    split <;> rfl
  have heff : (s.tripBegun g why).eff = s.eff := by rw [State.tripBegun_alone]
  have hkept : (s.tripBegun g why).laneSt k = s.laneSt k := hwrote.getF_same (by
    simp (disch := (simp only [Fld.addr]; omega)) only [writesAt_cons_other, writesAt_nil])
  rw [State.tripGroup_untripped h, hopens, hlanes, State.effF_congr heff, hkept]

/-- The drives that the group names are to open CTR_DLY later. -/
theorem State.opening_tripGroup (hs : s.canonical = true) (h : s.tripped g = false) :
    (s.tripGroup g why at16).pwm.opening =
      if s.effF Reg.PWM_GRP_CFG_CTR g = 0 then s.pwm.opening
      else Sparse.insert s.pwm.opening g (s.effF Reg.PWM_GRP_CFG_CTR g, at16 + 16000000 * s.effF Reg.PWM_GRP_CFG_CTR_DLY g) := by
  have hlanes := (LanesWorked.refl (State.wrote_tripBegun (g := g) (why := why) hs).canonical).tripLanes (g := g)
  have hpwm : (s.tripBegun g why).pwm = s.pwm := by rw [State.tripBegun_alone]
  have heff : ((s.tripBegun g why).tripLanes g).eff = s.eff := by rw [hlanes.eff, State.tripBegun_alone]
  have hopening : ((s.tripBegun g why).tripLanes g).pwm.opening = s.pwm.opening := by rw [State.opening_tripLanes, hpwm]
  rw [State.tripGroup_untripped h, State.opensLater, State.effF_congr heff, State.effF_congr heff]
  split
  · exact hopening
  · rw [hopening]

/-! ## The journal -/

theorem RegsAlone.journal {a w : Nat} (h : RegsAlone s t) :
    t.journal a w = { s with regs := (t.journal a w).regs, twn := (t.journal a w).twn } := by
  rw [State.journal_eq, h]

theorem Trips.twn (h : Trips as s t) : t.twn = s.twn := by rw [h.alone]

theorem Trips.withTwn {x : TwnState} (h : Trips as s t) :
    ({ t with twn := x } : State) = { s with regs := t.regs, pwm := t.pwm, snap := t.snap, events := t.events, twn := x } := by
  rw [h.alone]

theorem Trips.afterRecord (hst : RegsEventsAlone s t) (htu : Trips as t u) :
    u = { s with regs := u.regs, pwm := u.pwm, snap := u.snap, events := u.events } := by
  unfold RegsEventsAlone at hst
  have halone := htu.alone
  rw [hst] at halone
  exact halone

theorem LanesWorked.withTwn {x : TwnState} (h : LanesWorked t u) (halone : RegsAlone s t) :
    ({ u with twn := x } : State) = { s with regs := u.regs, pwm := u.pwm, twn := x } := by
  rw [h.alone, halone]

theorem Writes.journals {a w : Nat} (h : Writes s t as) (hlock : Reg.TWN_STATUS_LOCK.addr 0 0 ∉ as) (htwn : t.twn = s.twn) :
    Journals s (t.journal a w) a w := by
  rw [Journals, State.journal_eq, h.isF hlock, htwn]

/-! ## Fault inputs -/

/-- Whether an enabled fault input is low. -/
def State.anyInput (s : State) : Bool := (List.range 16).any fun n => s.faultOn n && bitOf (s.getF Reg.PWM_FLT_RAW) n

/-- RAW shows the level of fault input `n`, and FLT_ANY follows. -/
def State.inputShown (s : State) (n : Nat) (low : Bool) : State :=
  (s.setF Reg.PWM_FLT_RAW (putBit (s.getF Reg.PWM_FLT_RAW) n low)).showFltAny

/-- Fault input `n` is latched, raises its cause and is recorded. -/
def State.inputLatched (s : State) (n groups : Nat) : State :=
  ((s.setF Reg.PWM_FLT_LATCH (putBit (s.getF Reg.PWM_FLT_LATCH) n true)).cause 1 1).event 0x0401 n [n, groups]

section
variable {lowPs now : Nat} {low : Bool}

theorem exec_faultInput_acts (hn : n < 16) (hon : s.faultOn n = true)
    (hlong : min 20 (s.effF Reg.PWM_FLT_CFG_FILT n) * 1000 + 5000 ≤ lowPs) :
    exec (.faultInput n lowPs now) s = .next (((s.inputShown n true).inputLatched n (s.effF Reg.PWM_FLT_CFG_GROUPS n)).tripGroups
      (s.effF Reg.PWM_FLT_CFG_GROUPS n) 0 (16 * now)) := by
  have hpast : min 20 (s.effF Reg.PWM_FLT_CFG_FILT n) * 1000 < lowPs := by omega
  show execFaultInput n lowPs now s = _
  simp only [execFaultInput, if_neg (Nat.not_le.2 hn), hon, hpast, Nat.not_lt.2 hlong]
  rfl

theorem exec_faultInput_ignored (hn : n < 16) (hshort : lowPs ≤ min 20 (s.effF Reg.PWM_FLT_CFG_FILT n) * 1000) :
    exec (.faultInput n lowPs now) s = .next (s.inputShown n true) := by
  show execFaultInput n lowPs now s = _
  simp only [execFaultInput, if_neg (Nat.not_le.2 hn), Nat.not_lt.2 hshort, decide_false, Bool.and_false, Bool.false_and,
    if_neg Bool.false_ne_true]
  rfl

theorem exec_faultInputRelease (hn : n < 16) : exec (.faultInputRelease n) s = .next (s.inputShown n false) :=
  congrArg Host.Outcome.next (if_neg (Nat.not_le.2 hn))

/-- The writes by which the level of an input shows. -/
abbrev State.inputWrites (s : State) (n : Nat) (low : Bool) : List (Fld × Nat × Nat) :=
  [(Reg.PWM_FLT_RAW, 0, putBit (s.getF Reg.PWM_FLT_RAW) n low),
    (Reg.PWM_STATUS_FLT_ANY, 0, ofBool (s.setF Reg.PWM_FLT_RAW (putBit (s.getF Reg.PWM_FLT_RAW) n low)).anyInput)]

theorem State.wrote_inputShown (hs : s.canonical = true) : Wrote s (s.inputShown n low) (s.inputWrites n low) :=
  (Wrote.refl hs).setF.setF

theorem Wrote.inputLatched {ws : List (Fld × Nat × Nat)} {groups : Nat} (h : Wrote s t ws)
    (hlatch : writesAt (Reg.PWM_FLT_LATCH.addr 0 0) ws = []) (hcause : writesAt (Reg.SYS_IRQ_CAUSE.addr 1 0) ws = []) :
    Wrote s (t.inputLatched n groups) (ws ++ [(Reg.PWM_FLT_LATCH, 0, putBit (s.getF Reg.PWM_FLT_LATCH) n true),
      (Reg.SYS_IRQ_CAUSE, 1, putBit (s.getF Reg.SYS_IRQ_CAUSE 1) 1 true)]) := by
  have hlatched := (h.setF (f := Reg.PWM_FLT_LATCH) (i := 0) (v := putBit (s.getF Reg.PWM_FLT_LATCH) n true)).cause (vector := 1) (bit := 1)
    (by rw [writesAt_append, hcause]; rfl)
  rw [List.append_assoc] at hlatched
  rw [State.inputLatched, h.getF_same hlatch]
  exact hlatched.event

theorem State.inputLatched_events {groups : Nat} :
    (s.inputLatched n groups).events = s.events ++ [LogEvent.mk 0x0401 n [n, groups]] := by
  rw [State.inputLatched, State.event, State.cause_events, State.setF_events]

theorem State.inputShown_alone : RegsAlone s (s.inputShown n low) := RegsAlone.refl.setF.setF

theorem State.faultOn_setRaw (hs : s.canonical = true) (hk : k ∈ List.range 16) : (s.setF Reg.PWM_FLT_RAW v).faultOn k = s.faultOn k := by
  have hlt := List.mem_range.1 hk
  have howner : (s.setF Reg.PWM_FLT_RAW v).getF Reg.CFG_OWN_OWNER (0x130 + k) = s.getF Reg.CFG_OWN_OWNER (0x130 + k) :=
    State.getF_setF_ne hs _ _ _ _ _ _ _ (by decide) (.inl (by simp only [Fld.addr]; omega))
  have hreserved : (s.setF Reg.PWM_FLT_RAW v).isF Reg.CFG_OWN_RESERVED (0x130 + k) = s.isF Reg.CFG_OWN_RESERVED (0x130 + k) :=
    State.isF_setF_ne hs _ _ _ _ _ _ _ (by decide) (.inl (by simp only [Fld.addr]; omega))
  rw [State.faultOn, State.isE_congr (State.setF_eff ..), State.owned, State.owner, howner, hreserved]
  rfl

theorem State.getF_raw_inputShown (hs : s.canonical = true) (hn : n < 16) :
    (s.inputShown n low).getF Reg.PWM_FLT_RAW = putBit (s.getF Reg.PWM_FLT_RAW) n low := by
  have hlt : putBit (s.getF Reg.PWM_FLT_RAW) n low < 2 ^ 32 := putBit_lt (Fld.of_lt Reg.PWM_FLT_RAW _) (by omega)
  rw [(State.wrote_inputShown hs).getF rfl]
  exact Nat.mod_eq_of_lt hlt

/-- FLT_ANY tells whether an enabled input is low. -/
theorem State.isF_fltAny_inputShown (hs : s.canonical = true) : (s.inputShown n low).isF Reg.PWM_STATUS_FLT_ANY =
    (List.range 16).any fun k => s.faultOn k && bitOf ((s.inputShown n low).getF Reg.PWM_FLT_RAW) k := by
  have hset := State.canonical_setF hs Reg.PWM_FLT_RAW (putBit (s.getF Reg.PWM_FLT_RAW) n low) 0 0
  have hraw : (s.inputShown n low).getF Reg.PWM_FLT_RAW = (s.setF Reg.PWM_FLT_RAW (putBit (s.getF Reg.PWM_FLT_RAW) n low)).getF
      Reg.PWM_FLT_RAW := State.getF_setF_ne hset _ _ _ _ _ _ _ (by decide) (.inl (by decide))
  have hflag (b : Bool) : decide (ofBool b % 2 ^ 1 = 1) = b := by cases b <;> rfl
  rw [State.isF, State.inputShown, State.showFltAny, State.getF_setF hset _ _ _ _ (by decide), hflag, ← State.showFltAny,
    ← State.inputShown, hraw, Bool.eq_iff_iff]
  simp only [List.any_eq_true]
  exact exists_congr fun k => and_congr_right fun hk => by rw [State.faultOn_setRaw hs hk]

/-- An enabled input that is low shows in FLT_ANY, and the latched one in its cause. -/
theorem State.faultShows_inputLatched {groups : Nat} (hs : s.canonical = true) (hn : n < 16) (hon : s.faultOn n = true) :
    FaultShows ((s.inputShown n true).inputLatched n groups) := by
  have hshown : Wrote s (s.inputShown n true) (s.inputWrites n true) := State.wrote_inputShown hs
  have hlatched := (Wrote.refl hshown.canonical).inputLatched (n := n) (groups := groups) rfl rfl
  have hraises : Raises _ _ 1 [1] := hlatched.raises (by decide) rfl
  refine ⟨?_, ?_⟩
  · rw [State.isF, hlatched.getF_same rfl, ← State.isF, State.isF_fltAny_inputShown hs]
    refine List.any_eq_true.2 ⟨n, List.mem_range.2 hn, ?_⟩
    rw [hon, State.getF_raw_inputShown hs hn, bitOf_putBit_same, Bool.and_self]
  · rw [hraises]
    exact bitOf_putBit_same

theorem State.inputLatched_alone {groups : Nat} : RegsEventsAlone s ((s.inputShown n low).inputLatched n groups) :=
  (RegsEventsAlone.thenRegs State.inputShown_alone.orEvents (.cause (.setF .refl))).event

end

/-! ## Release of a group (R114) -/

/-- Group `g` is no longer tripped, and ANY_TRIP follows. -/
def State.groupFreed (s : State) (g : Nat) : State :=
  let a := s.setF Reg.PWM_GRP_TRIP_TRIP (putBit (s.getF Reg.PWM_GRP_TRIP_TRIP) g false)
  a.setF Reg.PWM_STATUS_ANY_TRIP (ofBool (a.getF Reg.PWM_GRP_TRIP_TRIP ≠ 0))

/-- The lanes that no tripped group holds any more restart; `alone` are the converters of which no phase runs. -/
def State.untripLanes (s : State) (alone : List Nat) : State :=
  (List.range 48).foldl (fun a n =>
    if a.laneSt n = laneTripped && !a.tripped (a.effF Reg.PWM_LANE_CFG_GROUP n) then a.untripLane n (n / 12 ∈ alone) else a) s

/-- Group `g` is released. -/
def State.groupReleased (s : State) (g : Nat) : State :=
  (s.groupFreed g).untripLanes ((List.range 4).filter fun c => (s.groupFreed g).runningPhases c = [])

theorem State.releaseGroup_free (htripped : s.tripped g = true) (hsource : s.groupSource g = false) :
    s.releaseGroup g = s.groupReleased g := by
  rw [State.releaseGroup, htripped, hsource, if_neg (by decide), if_neg (by decide)]
  rfl

theorem State.releaseGroup_held (htripped : s.tripped g = true) (hsource : s.groupSource g = true) :
    s.releaseGroup g = s.setF Reg.PWM_GRP_TRIP_REARM_REFUSED 1 := by
  rw [State.releaseGroup, htripped, hsource, if_neg (by decide), if_pos rfl]

theorem LanesWorked.untripLanes {alone : List Nat} (h : LanesWorked s t) : LanesWorked s (t.untripLanes alone) :=
  h.foldl fun _ _ hn hb => .ite (hb.untripLane (List.mem_range.1 hn)) hb

/-- The writes of a release. -/
abbrev State.freeWrites (s : State) (g : Nat) : List (Fld × Nat × Nat) :=
  [(Reg.PWM_GRP_TRIP_TRIP, 0, putBit (s.getF Reg.PWM_GRP_TRIP_TRIP) g false),
    (Reg.PWM_STATUS_ANY_TRIP, 0, ofBool (putBit (s.getF Reg.PWM_GRP_TRIP_TRIP) g false ≠ 0))]

theorem State.getF_trip_set (hs : s.canonical = true) (hg : g < 8) {b : Bool} :
    (s.setF Reg.PWM_GRP_TRIP_TRIP (putBit (s.getF Reg.PWM_GRP_TRIP_TRIP) g b)).getF Reg.PWM_GRP_TRIP_TRIP =
      putBit (s.getF Reg.PWM_GRP_TRIP_TRIP) g b := by
  have hlt : putBit (s.getF Reg.PWM_GRP_TRIP_TRIP) g b < 2 ^ 8 := putBit_lt (Fld.of_lt Reg.PWM_GRP_TRIP_TRIP _) hg
  rw [State.getF_setF hs _ _ _ _ (by decide)]
  exact Nat.mod_eq_of_lt hlt

theorem State.wrote_groupFreed (hs : s.canonical = true) (hg : g < 8) : Wrote s (s.groupFreed g) (s.freeWrites g) := by
  rw [State.groupFreed, State.getF_trip_set hs hg]
  exact (Wrote.refl hs).setF.setF

theorem State.groupFreed_alone : RegsAlone s (s.groupFreed g) := RegsAlone.refl.setF.setF

theorem State.tripped_groupFreed (hs : s.canonical = true) (hg : g < 8) : (s.groupFreed g).tripped g = false := by
  have hset := State.canonical_setF hs Reg.PWM_GRP_TRIP_TRIP (putBit (s.getF Reg.PWM_GRP_TRIP_TRIP) g false) 0 0
  rw [State.tripped, State.groupFreed, State.getF_setF_ne hset _ _ _ _ _ _ _ (by decide) (.inl (by decide)), State.getF_trip_set hs hg,
    bitOf_putBit_same]

theorem State.lanesWorked_groupReleased (hs : s.canonical = true) (hg : g < 8) : LanesWorked (s.groupFreed g) (s.groupReleased g) :=
  (LanesWorked.refl (State.wrote_groupFreed hs hg).canonical).untripLanes

theorem exec_groupRelease_free (hs : s.canonical = true) (hg : g < 8) (htripped : s.tripped g = true) (hsource : s.groupSource g = false) :
    exec (.groupRelease g) s = .next ((s.groupReleased g).journal (Reg.PWM_GRP_TRIP.addr 0 0) (2 ^ g)) := by
  have hfree : (s.groupReleased g).tripped g = false := (State.lanesWorked_groupReleased hs hg).tripped.trans (State.tripped_groupFreed hs hg)
  show execGroupRelease g s = _
  simp only [execGroupRelease, if_pos hg, State.releaseGroup_free htripped hsource, htripped, hfree]
  rfl

theorem exec_groupRelease_held (hs : s.canonical = true) (hg : g < 8) (htripped : s.tripped g = true) (hsource : s.groupSource g = true) :
    exec (.groupRelease g) s = .next (s.setF Reg.PWM_GRP_TRIP_REARM_REFUSED 1) := by
  have hheld : (s.setF Reg.PWM_GRP_TRIP_REARM_REFUSED 1).tripped g = true := by
    rw [State.tripped, State.getF_setF_ne hs _ _ _ _ _ _ _ (by decide) (.inr (by decide)), ← State.tripped, htripped]
  show execGroupRelease g s = _
  simp only [execGroupRelease, if_pos hg, State.releaseGroup_held htripped hsource, htripped, hheld]
  rfl

theorem exec_groupSwtrip {now : Nat} (hg : g < 8) :
    exec (.groupSwtrip g now) s = .next ((s.tripGroup g 2 (16 * now)).journal (Reg.PWM_GRP_SWTRIP.addr 0 0) (2 ^ g)) :=
  congrArg Host.Outcome.next (if_pos hg)

/-! ## Contactor drives (R115) -/

section
variable {now m due path d : Nat}

/-- The drives of mask `m` open, with their CLOSE bits. -/
def State.drivesOpened (s : State) (m : Nat) : State :=
  (s.setF Reg.PWM_CTR_CLOSED (s.getF Reg.PWM_CTR_CLOSED - (s.getF Reg.PWM_CTR_CLOSED &&& m))).setF Reg.PWM_CTR_CLOSE
    (s.getF Reg.PWM_CTR_CLOSE - (s.getF Reg.PWM_CTR_CLOSE &&& m))

/-- No drives wait any more for the trip of group `g`. -/
def State.openingDone (s : State) (g : Nat) : State := { s with pwm := { s.pwm with opening := Sparse.erase s.pwm.opening g } }

/-- Drive `d` closes. -/
def State.driveClosed (s : State) (d : Nat) : State :=
  (s.setF Reg.PWM_CTR_CLOSE (putBit (s.getF Reg.PWM_CTR_CLOSE) d true)).setF Reg.PWM_CTR_CLOSED
    (putBit (s.getF Reg.PWM_CTR_CLOSED) d true)

theorem exec_contactorOpen_due (hfind : Sparse.find s.pwm.opening g = some (m, due)) (hdue : due ≤ 16 * now) :
    exec (.contactorOpen g now) s =
      .next (((s.openingDone g).drivesOpened m).causeIf (s.getF Reg.PWM_CTR_CLOSED &&& m ≠ 0) 1 7) := by
  show execContactorOpen g now s = _
  simp only [execContactorOpen, hfind, if_neg (Nat.not_lt.2 hdue)]
  rfl

theorem exec_contactorOpen_early (h : (Sparse.find s.pwm.opening g).all (fun (e : Nat × Nat) => 16 * now < e.2) = true) :
    exec (.contactorOpen g now) s = .next s := by
  show execContactorOpen g now s = _
  cases hfind : Sparse.find s.pwm.opening g with
  | none => simp only [execContactorOpen, hfind]
  | some e =>
    rw [hfind, Option.all_some, decide_eq_true_eq] at h
    simp only [execContactorOpen, hfind, if_pos h]

theorem exec_contactorClose_taken (hd : d < 4) (hpath : pathOwner path = 0x40) (hbarred : s.driveBarred d = false)
    (himage : s.cfg.noImage = false) :
    exec (.contactorClose path d) s =
      .next ((s.driveClosed d).journal (Reg.PWM_CTR.addr 0 0) ((s.driveClosed d).getF Reg.PWM_CTR_CLOSE)) :=
  congrArg Host.Outcome.next (if_neg (by simp [hd, hpath, hbarred, himage]))

theorem exec_contactorClose_refused (h : 4 ≤ d ∨ pathOwner path ≠ 0x40 ∨ s.driveBarred d = true ∨ s.cfg.noImage = true) :
    exec (.contactorClose path d) s = .next s :=
  congrArg Host.Outcome.next (if_pos (by simpa [or_assoc] using h))

theorem State.wrote_drivesOpened (h : Wrote s t []) : Wrote s (t.drivesOpened m)
    [(Reg.PWM_CTR_CLOSED, 0, s.getF Reg.PWM_CTR_CLOSED - (s.getF Reg.PWM_CTR_CLOSED &&& m)),
      (Reg.PWM_CTR_CLOSE, 0, s.getF Reg.PWM_CTR_CLOSE - (s.getF Reg.PWM_CTR_CLOSE &&& m))] := by
  rw [State.drivesOpened, h.getF_same rfl, h.getF_same rfl]
  exact h.setF.setF

theorem State.wrote_driveClosed (hs : s.canonical = true) : Wrote s (s.driveClosed d)
    [(Reg.PWM_CTR_CLOSE, 0, putBit (s.getF Reg.PWM_CTR_CLOSE) d true), (Reg.PWM_CTR_CLOSED, 0, putBit (s.getF Reg.PWM_CTR_CLOSED) d true)] :=
  (Wrote.refl hs).setF.setF

theorem State.getF_close_driveClosed (hs : s.canonical = true) (hd : d < 4) :
    (s.driveClosed d).getF Reg.PWM_CTR_CLOSE = putBit (s.getF Reg.PWM_CTR_CLOSE) d true := by
  have hlt : putBit (s.getF Reg.PWM_CTR_CLOSE) d true < 2 ^ 4 := putBit_true_lt (Fld.of_lt Reg.PWM_CTR_CLOSE _) hd
  rw [(State.wrote_driveClosed hs).getF rfl]
  exact Nat.mod_eq_of_lt hlt

end

end

/-! ## O22 -/

/-- Settles O22: an input's level, a trip and a release begin with writes that `Wrote` lists, from which each field named is read off; the
work on lanes that follows writes lanes' and converters' status words alone, and the trips of a mask keep what the input has shown. -/
theorem faultInputsGroupsAndContactors : Obligations.FaultInputsGroupsAndContactors := by
  unfold Obligations.FaultInputsGroupsAndContactors
  refine ⟨?acts, ?ignored, ?released, ?trips, ?tripped, ?frees, ?held, ?opens, ?early, ?closes, ?refused⟩
  case acts =>
    intro s n lowPs now hs hn hon hlong
    have hwrote := (State.wrote_inputShown (n := n) (low := true) hs).inputLatched (n := n) (groups := s.effF Reg.PWM_FLT_CFG_GROUPS n) rfl rfl
    have htrips := (Trips.refl hwrote.canonical).tripGroups (mask := s.effF Reg.PWM_FLT_CFG_GROUPS n) (why := 0) (at16 := 16 * now)
    have hshown := (State.faultShows_inputLatched (groups := s.effF Reg.PWM_FLT_CFG_GROUPS n) hs hn hon).tripGroups
      (mask := s.effF Reg.PWM_FLT_CFG_GROUPS n) (why := 0) (at16 := 16 * now) hwrote.canonical
    refine ⟨_, exec_faultInput_acts hn hon hlong, (hwrote.setsField rfl).thenOnly htrips.writes.only (by decide),
      (hwrote.setsField rfl).thenOnly htrips.writes.only (by decide), hshown.any, hshown.cause, fun g hg => ?groups, ?events,
      OutsideLanes.trans (hwrote.only rfl) htrips.outsideLanes (List.Subset.refl _) (by decide), htrips.afterRecord State.inputLatched_alone⟩
    case groups =>
      have hkept : State.tripped _ g = s.tripped g := congrArg (bitOf · g) (hwrote.getF_same (f := Reg.PWM_GRP_TRIP_TRIP) rfl)
      rw [State.tripped_tripGroups hwrote.canonical hg, hkept]
    case events =>
      rw [State.tripGroups_events_silent hwrote.canonical, State.inputLatched_events, State.inputShown_alone.events]
  case ignored =>
    intro s n lowPs now hs hn hshort
    have hwrote : Wrote s (s.inputShown n true) (s.inputWrites n true) := State.wrote_inputShown hs
    exact ⟨_, exec_faultInput_ignored hn hshort, hwrote.setsField rfl, hwrote.only rfl, State.inputShown_alone⟩
  case released =>
    intro s n hs hn
    have hwrote : Wrote s (s.inputShown n false) (s.inputWrites n false) := State.wrote_inputShown hs
    exact ⟨_, exec_faultInputRelease hn, hwrote.setsField rfl, State.isF_fltAny_inputShown hs, hwrote.only rfl, State.inputShown_alone⟩
  case trips =>
    intro s g now hs hg huntripped
    have hwrote : Wrote s (s.tripBegun g 2) (s.tripWrites g) := State.wrote_tripBegun hs
    have hwork : LanesWorked (s.tripBegun g 2) (s.tripGroup g 2 (16 * now)) := State.lanesWorked_tripGroup hs huntripped
    have htrips : Trips (Reg.PWM_GRP_TRIP.addr 0 0 :: tripRegs) s (s.tripGroup g 2 (16 * now)) := (Trips.refl hs).tripGroup
    have hexec := exec_groupSwtrip (s := s) (now := now) hg
    have hjournals := htrips.writes.journals (a := Reg.PWM_GRP_SWTRIP.addr 0 0) (w := 2 ^ g) (by decide) htrips.twn
    rw [State.journal_eq] at hexec hjournals
    exact ⟨_, hexec, (hwrote.setsField rfl).thenOnly hwork.writes.only (by decide),
      (hwrote.setsField rfl).thenOnly hwork.writes.only (by decide),
      (hwork.writes.getF (by decide)).trans (hwrote.raises (by decide) rfl), State.tripGroup_events huntripped hs, hjournals,
      fun n hn => State.laneSt_tripGroup hs huntripped hn, State.opening_tripGroup hs huntripped, htrips.outsideLanes, htrips.withTwn⟩
  case tripped =>
    intro s g now hg htripped
    have hexec := exec_groupSwtrip (s := s) (now := now) hg
    rw [State.tripGroup_tripped htripped, State.journal_eq] at hexec
    exact ⟨_, hexec, rfl, rfl⟩
  case frees =>
    intro s g hs hg htripped hsource
    have hwrote := State.wrote_groupFreed (g := g) hs hg
    have hwork := State.lanesWorked_groupReleased hs hg
    have honly : OnlyRegs s (s.groupFreed g) [Reg.PWM_GRP_TRIP.addr 0 0, Reg.PWM_STATUS.addr 0 0] := hwrote.only rfl
    have houtside := LanesWorked.outsideLanes honly hwork
    have hwrites := (Writes.mk hwrote.canonical honly).append hwork.writes
    have hexec := exec_groupRelease_free hs hg htripped hsource
    have hjournals := hwrites.journals (a := Reg.PWM_GRP_TRIP.addr 0 0) (w := 2 ^ g) (by decide) (hwork.twn.trans State.groupFreed_alone.twn)
    rw [State.journal_eq] at hexec hjournals
    exact ⟨_, hexec, (hwrote.setsField rfl).thenOnly hwork.writes.only (by decide),
      (hwrote.setsField rfl).thenOnly hwork.writes.only (by decide), hjournals,
      houtside, hwork.withTwn State.groupFreed_alone⟩
  case held =>
    intro s g hs hg htripped hsource
    exact ⟨_, exec_groupRelease_held hs hg htripped hsource, SetsField.setF hs, State.onlyRegs_setF hs _ _ _ _, RegsAlone.refl.setF⟩
  case opens =>
    intro s g now m due hs hfind hdue
    have hwrote := State.wrote_drivesOpened (m := m) ((Wrote.refl hs).frame (u := s.openingDone g))
    have hcause : Writes ((s.openingDone g).drivesOpened m)
        (((s.openingDone g).drivesOpened m).causeIf (s.getF Reg.PWM_CTR_CLOSED &&& m ≠ 0) 1 7) [Reg.SYS_IRQ_CAUSE.addr 1 0] :=
      .causeIf (.refl hwrote.canonical) (by decide)
    have halone : RegsAlone (s.openingDone g)
        (((s.openingDone g).drivesOpened m).causeIf (s.getF Reg.PWM_CTR_CLOSED &&& m ≠ 0) 1 7) := .causeIf (.setF (.setF .refl))
    refine ⟨_, exec_contactorOpen_due hfind hdue, (hwrote.setsFields rfl).thenOnly hcause.only (by decide), fun hclosed => ?_, ?_,
      OnlyRegs.trans (hwrote.only rfl) (hcause.only.mono (by decide)), ?_⟩
    · rw [State.causeIf, if_pos (decide_eq_true hclosed)]
      exact (hwrote.cause rfl).raises (by decide) rfl
    · rw [halone]
      rfl
    · rw [halone]
      rfl
  case early =>
    intro s g now hearly
    exact ⟨s, exec_contactorOpen_early hearly, rfl⟩
  case closes =>
    intro s path d hs hd hpath hbarred himage
    have hexec := exec_contactorClose_taken hd hpath hbarred himage
    have hwrote := State.wrote_driveClosed (d := d) hs
    have halone : RegsAlone s (s.driveClosed d) := RegsAlone.refl.setF.setF
    rw [State.getF_close_driveClosed hs hd] at hexec
    exact ⟨_, hexec, hwrote.journal.setsFields rfl, hwrote.journals rfl halone.twn, hwrote.journal.only rfl, halone.journal⟩
  case refused =>
    intro s path d hrefused
    exact ⟨s, exec_contactorClose_refused hrefused, rfl⟩

end Sys2Proof.Machine
end

section

/-!
PROOFS. Windbreak's status bits and commands, and the scoring of forecast lanes (06 R120, R122, R129 to R134, R138). Scoring marks the lane
before it scores it, and so works on a list of lanes that it has written: O23 asks no canonical form of that list, but a lane with a step to
score holds deviations, differs so from a lane at its start, and reads as written in any list.
-/

namespace Sys2Proof

theorem Sparse.insert_insert {α : Type} (m : Sparse α) (k : Nat) (v w : α) :
    Sparse.insert (Sparse.insert m k v) k w = Sparse.insert m k w := by
  induction m with
  | nil => simp [Sparse.insert]
  | cons e m ih =>
    obtain ⟨j, x⟩ := e
    rcases Nat.lt_trichotomy k j with hlt | rfl | hgt
    · simp [Sparse.insert, hlt]
    · simp [Sparse.insert]
    · have hne : j ≠ k := Nat.ne_of_lt hgt
      simp [Sparse.insert, Nat.not_lt_of_gt hgt, hne, ih]

/-- Of two values that a unit takes, neither as at its start, the second stands, whatever the form of the list. -/
theorem Sparse.upd_upd_of_ne {α : Type} [DecidableEq α] (d : α) (m : Sparse α) (k : Nat) {v w : α} (hv : v ≠ d) (hw : w ≠ d) :
    Sparse.upd d (Sparse.upd d m k v) k w = Sparse.upd d m k w := by
  simp only [Sparse.upd, Sparse.put, if_neg hv, if_neg hw, Sparse.insert_insert]

end Sys2Proof

namespace Sys2Proof.Machine

/-! ## Status bits and commands (R120, R122, R134, R138) -/

section
variable {s : State}

theorem State.events_event {code source : Nat} {data : List Nat} :
    (s.event code source data).events = s.events ++ [LogEvent.mk code source data] := rfl

theorem exec_localTarget_due (hframes : s.wb.entryFrame + 10000 ≤ s.frame) (hqueue : s.wb.queue = [])
    (hclear : s.isF Reg.WB_STATUS_LOCAL_TARGET = false) :
    exec .localTarget s =
      .next (((s.setF Reg.WB_STATUS_LOCAL_TARGET 1).event 0x0502 0xFFFF [s.wb.entry.elim 0 RackEntry.idx]).cause 7 2) := by
  refine (congrArg Host.Outcome.next (if_pos (by simp [hframes, hqueue, hclear]))).trans ?_
  cases s.wb.entry <;> rfl

theorem exec_localTarget_idle
    (h : s.frame < s.wb.entryFrame + 10000 ∨ s.wb.queue ≠ [] ∨ s.isF Reg.WB_STATUS_LOCAL_TARGET = true) :
    exec .localTarget s = .next s := by
  refine congrArg Host.Outcome.next (if_neg ?_)
  simp only [Bool.and_eq_true, decide_eq_true_eq, List.isEmpty_iff, Bool.not_eq_true', not_and, Bool.not_eq_false]
  rcases h with hearly | hwaits | hset
  · exact fun hframes => absurd hframes.1 (Nat.not_le_of_lt hearly)
  · exact fun hqueue => absurd hqueue.2 hwaits
  · exact fun _ => hset

theorem exec_feedBad_due (hbad : 8 ≤ s.wb.bad) (hclear : s.isF Reg.WB_STATUS_FEED_BAD = false) :
    exec .feedBad s = .next ((s.setF Reg.WB_STATUS_FEED_BAD 1).cause 7 3) :=
  congrArg Host.Outcome.next (if_pos (by simp [hbad, hclear]))

theorem exec_feedRecovered_due (hgood : 8 ≤ s.wb.good) : exec .feedRecovered s = .next (s.setF Reg.WB_STATUS_FEED_BAD 0) :=
  congrArg Host.Outcome.next (if_pos hgood)

theorem exec_reserveExit_due (hfree : 100 ≤ s.wb.free) : exec .reserveExit s = .next { s with wb := { s.wb with reserve := false } } :=
  congrArg Host.Outcome.next (if_pos hfree)

/-- A command of WB_CMD that sets one field and joins the journal. -/
theorem completes_setF_journal {c : Instr} {f : Fld} {v w : Nat} (hs : s.canonical = true) (hf : f.addr 0 0 ≠ Reg.TWN_STATUS_LOCK.addr 0 0)
    (hexec : exec c s = .next ((s.setF f v).journal (Reg.WB_CMD.addr 0 0) w)) :
    Completes c s fun t => SetsField s t f 0 v ∧ Journals s t (Reg.WB_CMD.addr 0 0) w ∧ OnlyRegs s t [f.addr 0 0] ∧
      t = { s with regs := t.regs, twn := t.twn } := by
  have hwrites : Writes s (s.setF f v) [f.addr 0 0] := (Writes.refl hs).setF (List.mem_singleton_self _)
  have hjournals := hwrites.journals (a := Reg.WB_CMD.addr 0 0) (w := w) (by simpa using hf.symm) rfl
  rw [State.journal_eq] at hexec hjournals
  exact ⟨_, hexec, SetsField.setF hs, hjournals, hwrites.only, rfl⟩

end

/-! ## What a lane holds -/

section
variable {s : State} {l ago span upTo : Nat} {d : Rat} {hit : Bool} {x y : WbLane}

theorem WbLane.ne_start_of_used (h : x.used ≠ []) : x ≠ {} := fun hx => h (congrArg WbLane.used hx)

theorem WbLane.used_of_stepOf (h : x.stepOf ago span = some d) : x.used ≠ [] := by
  intro hused
  simp [WbLane.stepOf, hused] at h

theorem State.wbLane_setWbLane (hx : x ≠ {}) : (s.setWbLane l x).wbLane l = x := Sparse.at_upd_same_of_ne _ _ _ hx

theorem State.setWbLane_setWbLane (hx : x ≠ {}) (hy : y ≠ {}) : (s.setWbLane l x).setWbLane l y = s.setWbLane l y := by
  simp only [State.setWbLane, Sparse.upd_upd_of_ne _ _ _ hx hy]

theorem State.setF_setWbLane {f : Fld} {v i j : Nat} : (s.setWbLane l x).setF f v i j = (s.setF f v i j).setWbLane l x := rfl

theorem Wrote.setWbLane {t : State} {ws : List (Fld × Nat × Nat)} (h : Wrote s t ws) : Wrote s (t.setWbLane l x) ws := h.frame

theorem RegsAlone.wb_setWbLane {t : State} (h : RegsAlone s t) : (t.setWbLane l x).wb = (s.setWbLane l x).wb := by
  unfold RegsAlone at h
  rw [h]
  rfl

theorem RegsAlone.setWbLane {t : State} (h : RegsAlone s t) :
    t.setWbLane l x = { s with regs := (t.setWbLane l x).regs, wb := (t.setWbLane l x).wb } := by
  unfold RegsAlone at h
  generalize t.regs = regs at h
  subst h
  rfl

/-! ## Absence and RESTORE_LANE (R132, R133) -/

theorem exec_laneAbsent_due (hl : l < 64) (hmissed : 4 ≤ (s.wbLane l).missed) (hactive : (s.wbLane l).active.isSome = true)
    (hstaged : (s.wbLane l).staged = none) :
    exec (.laneAbsent l) s =
      .next ((s.setWbLane l { s.wbLane l with silent := true, used := [] }).setF Reg.WB_LANE_STAT_STATE 0 l) :=
  congrArg Host.Outcome.next (if_pos (by simp [hl, hmissed, hactive, hstaged]))

theorem exec_laneAbsent_idle (h : (s.wbLane l).missed < 4 ∨ (s.wbLane l).active = none ∨ (s.wbLane l).staged ≠ none) :
    exec (.laneAbsent l) s = .next s := by
  refine congrArg Host.Outcome.next (if_neg ?_)
  simp only [Bool.and_eq_true, decide_eq_true_eq, Option.isNone_iff_eq_none]
  rintro ⟨⟨⟨-, hmissed⟩, hactive⟩, hstaged⟩
  rcases h with hfew | hnone | hsome
  · omega
  · simp [hnone] at hactive
  · exact hsome hstaged

theorem exec_restoreLane_demoted (hl : l < 64) (hdemoted : (s.wbLane l).demoted = true) :
    exec (.restoreLane l) s =
      .next (((s.setWbLane l { s.wbLane l with demoted := false }).event 0x0506 l [l, 1]).journal (Reg.WB_CMD.addr 0 0) (256 * l + 4)) :=
  congrArg Host.Outcome.next (if_pos (by simp [hl, hdemoted]))

/-! ## Scores (R133) -/

/-- HITS of lane `l` once a score has come. -/
def State.hitsAfter (s : State) (l : Nat) (hit : Bool) : Nat :=
  if hit = true then min 255 (s.getF Reg.WB_LANE_STAT_HITS l + 1) else 0

/-- A lane that has a score more; its steps are scored up to frame `upTo`. -/
def WbLane.withScore (x : WbLane) (hit : Bool) (upTo : Nat) (demoted : Bool) : WbLane :=
  { x with scored := upTo, scores := (hit :: x.scores).take 16, demoted := demoted }

/-- MISSES and HITS of lane `l` show a score, and the lane holds `x`. -/
def State.scoreShown (s : State) (l misses hits : Nat) (x : WbLane) : State :=
  ((s.setF Reg.WB_LANE_STAT_MISSES misses l).setF Reg.WB_LANE_STAT_HITS hits l).setWbLane l x

/-- Lane `l` shows DEMOTED, raises the cause and is recorded. -/
def State.demotionShown (s : State) (l misses : Nat) : State :=
  ((s.setF Reg.WB_LANE_STAT_STATE lnDemoted l).event 0x0505 l [l, misses]).cause 7 4

/-- The return of lane `l` to scoring is recorded, unless its hits fall short. -/
def State.returnRecorded (s : State) (l hits needed : Nat) : State := if hits < needed then s else s.event 0x0506 l [l, 0]

/-- Whether a score demotes lane `l`. -/
def State.scoreDemotes (s : State) (l : Nat) (hit : Bool) : Bool :=
  !(s.wbLane l).demoted && !hit && decide (min 16 (max 1 (s.effF Reg.WB_MISS_CFG_MISS_LIMIT)) ≤ s.missesAfter l hit)

/-- Whether a score ends the demotion of lane `l`. -/
def State.scoreRestores (s : State) (l : Nat) (hit : Bool) : Bool :=
  (s.wbLane l).demoted && decide (max 1 (s.effF Reg.WB_MISS_CFG_RESTORE_HITS) ≤ s.hitsAfter l hit)

theorem State.scoreLane_eq : s.scoreLane l hit =
    if s.scoreDemotes l hit then
      ((s.scoreShown l (s.missesAfter l hit) (s.hitsAfter l hit)
        ((s.wbLane l).withScore hit (s.wbLane l).scored (s.wbLane l).demoted)).setWbLane l
          ((s.wbLane l).withScore hit (s.wbLane l).scored true)).demotionShown l (s.missesAfter l hit)
    else if s.scoreRestores l hit then
      ((s.scoreShown l (s.missesAfter l hit) (s.hitsAfter l hit)
        ((s.wbLane l).withScore hit (s.wbLane l).scored (s.wbLane l).demoted)).setWbLane l
          ((s.wbLane l).withScore hit (s.wbLane l).scored false)).event 0x0506 l [l, 0]
    else s.scoreShown l (s.missesAfter l hit) (s.hitsAfter l hit)
      ((s.wbLane l).withScore hit (s.wbLane l).scored (s.wbLane l).demoted) := rfl

theorem State.wb_scoreShown {misses hits : Nat} : (s.scoreShown l misses hits x).wb = (s.setWbLane l x).wb :=
  RegsAlone.refl.setF.setF.wb_setWbLane

theorem State.scoreShown_alone {misses hits : Nat} : s.scoreShown l misses hits x =
    { s with regs := (s.scoreShown l misses hits x).regs, wb := (s.scoreShown l misses hits x).wb } :=
  RegsAlone.refl.setF.setF.setWbLane

theorem State.setWbLane_scoreShown {misses hits : Nat} (hx : x ≠ {}) (hy : y ≠ {}) :
    (s.scoreShown l misses hits x).setWbLane l y = s.scoreShown l misses hits y := State.setWbLane_setWbLane hx hy

theorem State.scoreShown_setWbLane {misses hits : Nat} (hx : x ≠ {}) (hy : y ≠ {}) :
    (s.setWbLane l x).scoreShown l misses hits y = s.scoreShown l misses hits y := by
  rw [State.scoreShown, State.setF_setWbLane, State.setF_setWbLane, State.setWbLane_setWbLane hx hy, State.scoreShown]

/-! ## Scores of a step that is marked as scored -/

/-- The steps of a lane are scored up to frame `upTo`. -/
def WbLane.marked (x : WbLane) (upTo : Nat) : WbLane := { x with scored := upTo }

theorem WbLane.scored_marked : (x.marked upTo).scored = upTo := rfl

theorem WbLane.demoted_marked : (x.marked upTo).demoted = x.demoted := rfl

theorem WbLane.withScore_marked {n : Nat} {demoted : Bool} : (x.marked upTo).withScore hit n demoted = x.withScore hit n demoted := rfl

section
variable (hused : (s.wbLane l).used ≠ [])
include hused

theorem State.wbLane_marked : (s.setWbLane l ((s.wbLane l).marked upTo)).wbLane l = (s.wbLane l).marked upTo :=
  State.wbLane_setWbLane (WbLane.ne_start_of_used hused)

theorem State.missesAfter_marked : (s.setWbLane l ((s.wbLane l).marked upTo)).missesAfter l hit = s.missesAfter l hit := by
  rw [State.missesAfter, State.wbLane_marked hused]
  rfl

theorem State.scoreDemotes_marked : (s.setWbLane l ((s.wbLane l).marked upTo)).scoreDemotes l hit = s.scoreDemotes l hit := by
  rw [State.scoreDemotes, State.missesAfter_marked hused, State.wbLane_marked hused]
  rfl

theorem State.scoreRestores_marked : (s.setWbLane l ((s.wbLane l).marked upTo)).scoreRestores l hit = s.scoreRestores l hit := by
  rw [State.scoreRestores, State.wbLane_marked hused]
  rfl

/-- The score of a marked step writes the lane's words and the lane as if it wrote the lane once. -/
theorem State.scoreLane_marked : (s.setWbLane l ((s.wbLane l).marked upTo)).scoreLane l hit =
    if s.scoreDemotes l hit then
      (s.scoreShown l (s.missesAfter l hit) (s.hitsAfter l hit) ((s.wbLane l).withScore hit upTo true)).demotionShown l (s.missesAfter l hit)
    else if s.scoreRestores l hit then
      (s.scoreShown l (s.missesAfter l hit) (s.hitsAfter l hit) ((s.wbLane l).withScore hit upTo false)).event 0x0506 l [l, 0]
    else s.scoreShown l (s.missesAfter l hit) (s.hitsAfter l hit) ((s.wbLane l).withScore hit upTo (s.wbLane l).demoted) := by
  have hhits : (s.setWbLane l ((s.wbLane l).marked upTo)).hitsAfter l hit = s.hitsAfter l hit := rfl
  have hmarked : (s.wbLane l).marked upTo ≠ {} := WbLane.ne_start_of_used hused
  have hscored {demoted : Bool} : (s.wbLane l).withScore hit upTo demoted ≠ {} := WbLane.ne_start_of_used hused
  rw [State.scoreLane_eq, State.missesAfter_marked hused, hhits, State.scoreDemotes_marked hused, State.scoreRestores_marked hused,
    State.wbLane_marked hused]
  simp only [WbLane.scored_marked, WbLane.demoted_marked, WbLane.withScore_marked, State.scoreShown_setWbLane hmarked hscored,
    State.setWbLane_scoreShown hscored hscored]

end

/-! ## LANE_STEP_SCORE (R133) -/

/-- The guard of LANE_STEP_SCORE. -/
theorem State.not_stepRipe : (!s.stepRipe l ago span) =
    (decide (64 ≤ l) ||
      !(decide (s.getF Reg.WB_LANE_STAT_STATE l = lnApplied) || decide (s.getF Reg.WB_LANE_STAT_STATE l = lnDemoted)) ||
      decide (100 < span) || decide (ago < span) || decide (10 * ago < s.readAhead + s.missWindow) ||
      decide (s.frame < (s.wbLane l).scored + ago)) := by
  simp only [State.stepRipe, Bool.not_and, ← decide_not, Nat.not_lt, Nat.not_le]

theorem exec_laneStepScore : exec (.laneStepScore l ago span) s = .next (if !s.stepRipe l ago span then s else
    ((s.wbLane l).stepOf ago span).elim s fun d => if s.bigStep d then
      (s.setWbLane l ((s.wbLane l).marked (s.frame - ago + span))).scoreLane l (s.stepHit ago d) else s) := by
  rw [State.not_stepRipe]
  show execLaneStepScore l ago span s = _
  unfold execLaneStepScore
  dsimp only
  cases (s.wbLane l).stepOf ago span <;> rfl

theorem exec_laneStepScore_scored (hripe : s.stepRipe l ago span = true) (hstep : (s.wbLane l).stepOf ago span = some d)
    (hbig : s.bigStep d = true) : exec (.laneStepScore l ago span) s =
      .next ((s.setWbLane l ((s.wbLane l).marked (s.frame - ago + span))).scoreLane l (s.stepHit ago d)) := by
  rw [exec_laneStepScore, hripe, hstep, Option.elim_some, Bool.not_true, if_neg Bool.false_ne_true, if_pos hbig]

theorem exec_laneStepScore_unscored
    (h : s.stepRipe l ago span = false ∨ ((s.wbLane l).stepOf ago span).all (fun (d : Rat) => !s.bigStep d) = true) :
    exec (.laneStepScore l ago span) s = .next s := by
  rw [exec_laneStepScore]
  refine congrArg Host.Outcome.next (ite_eq_left_iff.2 fun hripe => ?_)
  have hsmall := h.resolve_left (by simpa using hripe)
  cases hstep : (s.wbLane l).stepOf ago span with
  | none => rfl
  | some d =>
    rw [hstep, Option.all_some, Bool.not_eq_true'] at hsmall
    exact if_neg (Bool.eq_false_iff.1 hsmall)

/-! ## What a score writes -/

theorem State.hitsAfter_miss (h : hit = false) : s.hitsAfter l hit = 0 := if_neg (Bool.eq_false_iff.1 h)

/-- The writes of a score. -/
abbrev scoreWrites (l misses hits : Nat) : List (Fld × Nat × Nat) :=
  [(Reg.WB_LANE_STAT_MISSES, l, misses), (Reg.WB_LANE_STAT_HITS, l, hits)]

/-- The writes of a score that demotes. -/
abbrev State.demotionWrites (s : State) (l misses hits : Nat) : List (Fld × Nat × Nat) :=
  [(Reg.WB_LANE_STAT_MISSES, l, misses), (Reg.WB_LANE_STAT_HITS, l, hits), (Reg.WB_LANE_STAT_STATE, l, lnDemoted),
    (Reg.SYS_IRQ_CAUSE, 7, putBit (s.getF Reg.SYS_IRQ_CAUSE 7) 4 true)]

section
variable {misses hits : Nat}

theorem State.wrote_scoreShown (hs : s.canonical = true) : Wrote s (s.scoreShown l misses hits x) (scoreWrites l misses hits) :=
  (Wrote.refl hs).setF.setF.setWbLane

theorem writesAt_scoreWrites_lane : writesAt (Reg.WB_LANE_STAT.addr l 0) (scoreWrites l misses hits) =
    [(Reg.WB_LANE_STAT_MISSES, misses), (Reg.WB_LANE_STAT_HITS, hits)] := by
  simp (disch := (simp only [Fld.addr]; omega)) only [writesAt_cons_same, writesAt_nil]

theorem State.wrote_demotionShown (hs : s.canonical = true) :
    Wrote s ((s.scoreShown l misses hits x).demotionShown l misses) (s.demotionWrites l misses hits) := by
  refine (State.wrote_scoreShown hs).setF.event.cause ?_
  simp (disch := (simp only [Fld.addr]; omega)) only [writesAt_append, writesAt_cons_other, writesAt_nil, List.nil_append]

theorem writesAt_demotionWrites_lane : writesAt (Reg.WB_LANE_STAT.addr l 0) (s.demotionWrites l misses hits) =
    [(Reg.WB_LANE_STAT_MISSES, misses), (Reg.WB_LANE_STAT_HITS, hits), (Reg.WB_LANE_STAT_STATE, lnDemoted)] := by
  simp (disch := (simp only [Fld.addr]; omega)) only [writesAt_cons_other, writesAt_cons_same, writesAt_nil]

theorem writesAt_demotionWrites_cause : writesAt (Reg.SYS_IRQ_CAUSE.addr 7 0) (s.demotionWrites l misses hits) =
    [(Reg.SYS_IRQ_CAUSE, putBit (s.getF Reg.SYS_IRQ_CAUSE 7) 4 true)] := by
  simp (disch := (simp only [Fld.addr]; omega)) only [writesAt_cons_other, writesAt_cons_same, writesAt_nil]

/-! ## What shows a demotion and its end -/

theorem Wrote.returnRecorded {t : State} {ws : List (Fld × Nat × Nat)} {needed : Nat} (h : Wrote s t ws) :
    Wrote s (t.returnRecorded l hits needed) ws := by
  unfold State.returnRecorded
  split
  · exact h
  · exact h.event

theorem State.wb_returnRecorded {needed : Nat} : (s.returnRecorded l hits needed).wb = s.wb := by
  unfold State.returnRecorded
  split
  · rfl
  · exact State.event_wb _ _ _ _

theorem State.events_returnRecorded {needed : Nat} : (s.returnRecorded l hits needed).events =
    s.events ++ if hits < needed then [] else [LogEvent.mk 0x0506 l [l, 0]] := by
  unfold State.returnRecorded
  split
  · exact (List.append_nil _).symm
  · exact State.events_event

theorem State.returnRecorded_alone {needed : Nat} : RegsEventsAlone s (s.returnRecorded l hits needed) := by
  unfold State.returnRecorded
  split
  · exact RegsAlone.refl.orEvents
  · exact RegsAlone.refl.orEvents.event

theorem State.wb_demotionShown : (s.demotionShown l misses).wb = s.wb := by
  rw [State.demotionShown, State.cause_wb, State.event_wb, State.setF_wb]

theorem State.events_demotionShown : (s.demotionShown l misses).events = s.events ++ [LogEvent.mk 0x0505 l [l, misses]] := by
  rw [State.demotionShown, State.cause_events, State.events_event, State.setF_events]

theorem State.demotionShown_alone : RegsEventsAlone s (s.demotionShown l misses) :=
  (RegsAlone.refl.setF.orEvents.event).thenRegs (.cause .refl)

theorem State.events_scoreShown : (s.scoreShown l misses hits x).events = s.events := by rw [State.scoreShown_alone]

theorem RegsEventsAlone.afterWb {t u : State} (hst : t = { s with regs := t.regs, wb := t.wb }) (htu : RegsEventsAlone t u) :
    u = { s with regs := u.regs, wb := u.wb, events := u.events } := by
  unfold RegsEventsAlone at htu
  have hwb : u.wb = t.wb := by rw [htu]
  rw [hst] at htu
  rw [hwb]
  exact htu

/-! ## The three outcomes of a score -/

theorem State.scoreLane_marked_kept (hused : (s.wbLane l).used ≠ []) (hdemoted : (s.wbLane l).demoted = false)
    (hkept : hit = true ∨ s.missesAfter l hit < min 16 (max 1 (s.effF Reg.WB_MISS_CFG_MISS_LIMIT))) :
    (s.setWbLane l ((s.wbLane l).marked upTo)).scoreLane l hit =
      s.scoreShown l (s.missesAfter l hit) (s.hitsAfter l hit) ((s.wbLane l).withScore hit upTo (s.wbLane l).demoted) := by
  have hno : s.scoreDemotes l hit = false := by
    rw [State.scoreDemotes, Bool.and_eq_false_iff, Bool.and_eq_false_iff, decide_eq_false_iff_not, Nat.not_le]
    exact hkept.imp (fun h => .inr (by rw [h]; rfl)) id
  have hstays : s.scoreRestores l hit = false := by rw [State.scoreRestores, hdemoted, Bool.false_and]
  rw [State.scoreLane_marked hused, hno, hstays, if_neg Bool.false_ne_true, if_neg Bool.false_ne_true]

theorem State.scoreLane_marked_demotes (hused : (s.wbLane l).used ≠ []) (hdemoted : (s.wbLane l).demoted = false)
    (hmiss : hit = false) (hlimit : min 16 (max 1 (s.effF Reg.WB_MISS_CFG_MISS_LIMIT)) ≤ s.missesAfter l hit) :
    (s.setWbLane l ((s.wbLane l).marked upTo)).scoreLane l hit =
      (s.scoreShown l (s.missesAfter l hit) 0 ((s.wbLane l).withScore hit upTo true)).demotionShown l (s.missesAfter l hit) := by
  have hdemotes : s.scoreDemotes l hit = true := by
    rw [State.scoreDemotes, hdemoted, decide_eq_true hlimit, hmiss]
    rfl
  rw [State.scoreLane_marked hused, hdemotes, if_pos rfl, State.hitsAfter_miss hmiss]

theorem State.scoreLane_marked_demoted (hused : (s.wbLane l).used ≠ []) (hdemoted : (s.wbLane l).demoted = true) :
    (s.setWbLane l ((s.wbLane l).marked upTo)).scoreLane l hit =
      (s.scoreShown l (s.missesAfter l hit) (s.hitsAfter l hit)
        ((s.wbLane l).withScore hit upTo (decide (s.hitsAfter l hit < max 1 (s.effF Reg.WB_MISS_CFG_RESTORE_HITS))))).returnRecorded l
          (s.hitsAfter l hit) (max 1 (s.effF Reg.WB_MISS_CFG_RESTORE_HITS)) := by
  have hno : s.scoreDemotes l hit = false := by rw [State.scoreDemotes, hdemoted, Bool.not_true, Bool.false_and, Bool.false_and]
  rw [State.scoreLane_marked hused, hno, if_neg Bool.false_ne_true, State.scoreRestores, hdemoted, Bool.true_and, State.returnRecorded]
  by_cases hfew : s.hitsAfter l hit < max 1 (s.effF Reg.WB_MISS_CFG_RESTORE_HITS)
  · rw [decide_eq_true hfew, decide_eq_false (Nat.not_le.2 hfew), if_pos hfew, if_neg Bool.false_ne_true]
  · rw [decide_eq_false hfew, decide_eq_true (Nat.not_lt.1 hfew), if_neg hfew, if_pos rfl]

end

end

/-! ## O23 -/

/-- Settles O23: a status bit and a command of WB_CMD write one field, a score the fields of the lane's word; a score works on the lane as
marked, which reads as written, and what it writes to the lane last overwrites the mark. -/
theorem windbreakStatusAndLaneScoring : Obligations.WindbreakStatusAndLaneScoring := by
  unfold Obligations.WindbreakStatusAndLaneScoring
  refine ⟨?target, ?targetIdle, ?bad, ?good, ?reserve, ?hold, ?release, ?clearMax, ?absent, ?absentIdle, ?kept, ?demotes, ?demoted,
    ?unscored, ?restore⟩
  case target =>
    intro s hs hframes hqueue hclear
    have hwrote := ((Wrote.refl hs).setF (f := Reg.WB_STATUS_LOCAL_TARGET) (i := 0) (v := 1)).event (code := 0x0502) (source := 0xFFFF)
      (data := [s.wb.entry.elim 0 RackEntry.idx]) |>.cause (vector := 7) (bit := 2) rfl
    refine ⟨_, exec_localTarget_due hframes hqueue hclear, hwrote.setsField rfl, hwrote.raises (by decide) rfl, ?_, hwrote.only rfl,
      (RegsAlone.refl.setF.orEvents.event).thenRegs (.cause .refl)⟩
    rw [State.cause_events, State.events_event, State.setF_events]
  case targetIdle =>
    intro s hidle
    exact ⟨s, exec_localTarget_idle hidle, rfl⟩
  case bad =>
    intro s hs hbad hclear
    have hwrote := ((Wrote.refl hs).setF (f := Reg.WB_STATUS_FEED_BAD) (i := 0) (v := 1)).cause (vector := 7) (bit := 3) rfl
    exact ⟨_, exec_feedBad_due hbad hclear, hwrote.setsField rfl, hwrote.raises (by decide) rfl, hwrote.only rfl, RegsAlone.refl.setF.cause⟩
  case good =>
    intro s hs hgood
    exact ⟨_, exec_feedRecovered_due hgood, SetsField.setF hs, State.onlyRegs_setF hs _ _ _ _, RegsAlone.refl.setF⟩
  case reserve =>
    intro s hfree
    exact ⟨_, exec_reserveExit_due hfree, rfl, rfl⟩
  case hold => exact fun s hs => completes_setF_journal hs (by decide) rfl
  case release => exact fun s hs => completes_setF_journal hs (by decide) rfl
  case clearMax => exact fun s hs => completes_setF_journal hs (by decide) rfl
  case absent =>
    intro s l hs hl hmissed hactive hstaged
    have hexec := exec_laneAbsent_due hl hmissed hactive hstaged
    rw [State.setF_setWbLane] at hexec
    have halone : RegsAlone s (s.setF Reg.WB_LANE_STAT_STATE 0 l) := .setF .refl
    have hwrote : Wrote s (s.setF Reg.WB_LANE_STAT_STATE 0 l) [(Reg.WB_LANE_STAT_STATE, l, 0)] := (Wrote.refl hs).setF
    exact ⟨_, hexec, hwrote.setWbLane.setsField (by simp [writesAt]), halone.wb_setWbLane, hwrote.setWbLane.only (by simp [Fld.addr]),
      halone.setWbLane⟩
  case absentIdle =>
    intro s l hidle
    exact ⟨s, exec_laneAbsent_idle hidle, rfl⟩
  case kept =>
    intro s l ago span d hs hripe hstep hbig hdemoted hkept
    have hexec := exec_laneStepScore_scored hripe hstep hbig
    rw [State.scoreLane_marked_kept (WbLane.used_of_stepOf hstep) hdemoted hkept] at hexec
    exact ⟨_, hexec, (State.wrote_scoreShown hs).setsFields writesAt_scoreWrites_lane, State.wb_scoreShown,
      (State.wrote_scoreShown hs).only (by simp [Fld.addr]), State.scoreShown_alone⟩
  case demotes =>
    intro s l ago span d hs hripe hstep hbig hdemoted hmiss hlimit
    have hexec := exec_laneStepScore_scored hripe hstep hbig
    rw [State.scoreLane_marked_demotes (WbLane.used_of_stepOf hstep) hdemoted hmiss hlimit] at hexec
    refine ⟨_, hexec, (State.wrote_demotionShown hs).setsFields writesAt_demotionWrites_lane,
      (State.wrote_demotionShown hs).raises (by decide) writesAt_demotionWrites_cause, ?events, ?wb,
      (State.wrote_demotionShown hs).only (by simp [Fld.addr]), State.demotionShown_alone.afterWb State.scoreShown_alone⟩
    case events => rw [State.events_demotionShown, State.events_scoreShown]
    case wb =>
      rw [State.wb_demotionShown]
      exact State.wb_scoreShown
  case demoted =>
    intro s l ago span d hs hripe hstep hbig hdemoted
    have hexec := exec_laneStepScore_scored hripe hstep hbig
    rw [State.scoreLane_marked_demoted (WbLane.used_of_stepOf hstep) hdemoted] at hexec
    refine ⟨_, hexec, (State.wrote_scoreShown hs).returnRecorded.setsFields writesAt_scoreWrites_lane, ?wb, ?events,
      (State.wrote_scoreShown hs).returnRecorded.only (by simp [Fld.addr]), State.returnRecorded_alone.afterWb State.scoreShown_alone⟩
    case wb =>
      rw [State.wb_returnRecorded]
      exact State.wb_scoreShown
    case events =>
      rw [State.events_returnRecorded, State.events_scoreShown]
      rfl
  case unscored =>
    intro s l ago span hunscored
    exact ⟨s, exec_laneStepScore_unscored hunscored, rfl⟩
  case restore =>
    intro s l hl hdemoted
    have hexec := exec_restoreLane_demoted hl hdemoted
    rw [State.journal_eq] at hexec
    exact ⟨_, hexec, rfl, rfl, rfl, rfl⟩

end Sys2Proof.Machine
end

section

/-!
PROOFS. The encodings of the cores' extension (07 R146). A word of the four opcodes is its fields: opcode, rd, funct3, rs1, rs2 and funct7.
Each extension instruction has an opcode, a funct3 and a funct7 of its own, and the decoder takes a word to the instruction that has the
word's.
-/

namespace Sys2Proof.Machine

/-! ## Fields of a word -/

/-- The word of the register format with these fields. -/
def fieldsWord (opc rd f3 rs1 rs2 f7 : Nat) : Nat :=
  opc + rd * 2 ^ 7 + f3 * 2 ^ 12 + rs1 * 2 ^ 15 + rs2 * 2 ^ 20 + f7 * 2 ^ 25

theorem bitsOf_lt {v lo w : Nat} : bitsOf v lo w < 2 ^ w := Nat.mod_lt _ (Nat.two_pow_pos w)

/-- A word is the word of its fields. -/
theorem eq_fieldsWord {w : Nat} (hw : w < 2 ^ 32) :
    w = fieldsWord (bitsOf w 0 7) (bitsOf w 7 5) (bitsOf w 12 3) (bitsOf w 15 5) (bitsOf w 20 5) (bitsOf w 25 7) := by
  simp only [fieldsWord, bitsOf]
  omega

section
variable {opc rd f3 rs1 rs2 f7 : Nat} (hopc : opc < 128) (hrd : rd < 32) (hf3 : f3 < 8) (hrs1 : rs1 < 32) (hrs2 : rs2 < 32)
include hopc

theorem bitsOf_fieldsWord_opcode : bitsOf (fieldsWord opc rd f3 rs1 rs2 f7) 0 7 = opc := by
  simp only [fieldsWord, bitsOf]
  omega

include hrd

theorem bitsOf_fieldsWord_rd : bitsOf (fieldsWord opc rd f3 rs1 rs2 f7) 7 5 = rd := by
  simp only [fieldsWord, bitsOf]
  omega

include hf3

theorem bitsOf_fieldsWord_funct3 : bitsOf (fieldsWord opc rd f3 rs1 rs2 f7) 12 3 = f3 := by
  simp only [fieldsWord, bitsOf]
  omega

include hrs1

theorem bitsOf_fieldsWord_rs1 : bitsOf (fieldsWord opc rd f3 rs1 rs2 f7) 15 5 = rs1 := by
  simp only [fieldsWord, bitsOf]
  omega

include hrs2

theorem bitsOf_fieldsWord_rs2 : bitsOf (fieldsWord opc rd f3 rs1 rs2 f7) 20 5 = rs2 := by
  simp only [fieldsWord, bitsOf]
  omega

theorem bitsOf_fieldsWord_funct7 (hf7 : f7 < 128) : bitsOf (fieldsWord opc rd f3 rs1 rs2 f7) 25 7 = f7 := by
  simp only [fieldsWord, bitsOf]
  omega

end

/-! ## The fixed fields of an extension instruction -/

/-- The opcode of an extension instruction: messages, the Hub, the tensor unit, conversions (R146). -/
def ThOp.opcode : ThOp → Nat
  | .send | .sendnb | .recv | .peek | .wait | .release | .credits | .barrier => 0x0B
  | .dma | .dmawait | .dmapoll | .pub | .slotsel => 0x2B
  | .tzero | .tld | .tst | .tmma | .tmmaT => 0x5B
  | .narrow _ _ | .widen _ => 0x7B

/-- Its funct3 (R146). -/
def ThOp.funct3 : ThOp → Nat
  | .send | .sendnb | .dma | .tzero | .widen _ => 0
  | .recv | .peek | .wait | .dmawait | .dmapoll | .tld | .tst => 1
  | .release | .pub | .tmma | .tmmaT => 2
  | .credits => 3
  | .barrier | .slotsel => 4
  | .narrow _ st => ofBool st

/-- The code of a format in funct7 of a conversion (R146). -/
def CvtFmt.code : CvtFmt → Nat
  | .e4m3 => 0
  | .e5m2 => 1
  | .bf16 => 2
  | .i8 => 3
  | .q12b => 4

/-- Its funct7 (R146). -/
def ThOp.funct7 : ThOp → Nat
  | .sendnb | .peek | .dmapoll | .tst | .tmmaT => 1
  | .wait => 2
  | .narrow f _ => f.code
  | .widen f => 16 + f.code
  | _ => 0

theorem ThOp.base_eq (op : ThOp) : op.base = op.opcode + op.funct3 * 2 ^ 12 + op.funct7 * 2 ^ 25 := by
  cases op with
  | narrow f st => cases f <;> cases st <;> rfl
  | widen f => cases f <;> rfl
  | _ => rfl

theorem ThOp.word_eq (op : ThOp) (rd rs1 rs2 : Nat) :
    op.base + rd * 2 ^ 7 + rs1 * 2 ^ 15 + rs2 * 2 ^ 20 = fieldsWord op.opcode rd op.funct3 rs1 rs2 op.funct7 := by
  rw [op.base_eq, fieldsWord]
  omega

theorem ThOp.opcode_mem (op : ThOp) : op.opcode ∈ [0x0B, 0x2B, 0x5B, 0x7B] := by cases op <;> simp [ThOp.opcode]

theorem ThOp.opcode_lt (op : ThOp) : op.opcode < 128 := by cases op <;> simp [ThOp.opcode]

theorem ThOp.funct3_lt (op : ThOp) : op.funct3 < 8 := by
  cases op with
  | narrow f st => cases st <;> simp [ThOp.funct3, ofBool]
  | _ => simp [ThOp.funct3]

theorem CvtFmt.code_lt (f : CvtFmt) : f.code < 5 := by cases f <;> decide

theorem ThOp.funct7_lt (op : ThOp) : op.funct7 < 128 := by
  cases op with
  | narrow f st => exact Nat.lt_trans f.code_lt (by decide)
  | widen f => exact Nat.lt_trans (Nat.add_lt_add_left f.code_lt 16) (by decide)
  | _ => decide

theorem ThOp.fieldsOk_lt {op : ThOp} {rd rs1 rs2 : Nat} (h : op.fieldsOk rd rs1 rs2 = true) : rd < 32 ∧ rs1 < 32 ∧ rs2 < 32 := by
  simp only [ThOp.fieldsOk, Bool.and_eq_true, decide_eq_true_eq] at h
  exact ⟨h.1.1.1, h.1.1.2, h.1.2⟩

/-! ## The decoder on the four opcodes -/

theorem cvtFmt?_code (f : CvtFmt) : cvtFmt? f.code = some f := by cases f <;> rfl

theorem cvtFmt?_eq_some {n : Nat} {f : CvtFmt} (h : cvtFmt? n = some f) : n = f.code := by
  unfold cvtFmt? at h
  split at h <;> simp at h <;> subst h <;> rfl

section
variable {w : Nat}

/-- What the decoder makes of a word with the fixed fields of `op`: `op` with the word's operands, if they are as R146 has them. -/
theorem ext?_of_fields {op : ThOp} (hopc : bitsOf w 0 7 = op.opcode) (hf3 : bitsOf w 12 3 = op.funct3) (hf7 : bitsOf w 25 7 = op.funct7) :
    ext? w = if op.fieldsOk (bitsOf w 7 5) (bitsOf w 15 5) (bitsOf w 20 5) then
      some (.ext op (bitsOf w 7 5) (bitsOf w 15 5) (bitsOf w 20 5)) else none := by
  have hrd : bitsOf w 7 5 < 32 := bitsOf_lt
  have hrs1 : bitsOf w 15 5 < 32 := bitsOf_lt
  have hrs2 : bitsOf w 20 5 < 32 := bitsOf_lt
  cases op with
  | narrow f st => cases f <;> cases st <;> simp [ext?, ThOp.opcode, ThOp.funct3, ThOp.funct7, ThOp.fieldsOk, CvtFmt.code, cvtFmt?, ofBool, hopc, hf3, hf7, hrd, hrs1, hrs2]
  | widen f => cases f <;> simp [ext?, ThOp.opcode, ThOp.funct3, ThOp.funct7, ThOp.fieldsOk, CvtFmt.code, cvtFmt?, hopc, hf3, hf7, hrd, hrs1, hrs2]
  | _ => simp [ext?, ThOp.opcode, ThOp.funct3, ThOp.funct7, ThOp.fieldsOk, hopc, hf3, hf7, hrd, hrs1, hrs2, Nat.lt_succ_iff]

/-- A word that the decoder of the extension takes has the fixed fields of an instruction. -/
theorem fields_of_ext? {r : Rv} (h : ext? w = some r) :
    ∃ op : ThOp, bitsOf w 0 7 = op.opcode ∧ bitsOf w 12 3 = op.funct3 ∧ bitsOf w 25 7 = op.funct7 := by
  unfold ext? at h
  dsimp only at h
  split at h
  case h_1 hopc hf7 hf3 => exact ⟨.send, hopc, hf3, hf7⟩
  case h_2 hopc hf7 hf3 => exact ⟨.sendnb, hopc, hf3, hf7⟩
  case h_3 hopc hf7 hf3 => exact ⟨.recv, hopc, hf3, hf7⟩
  case h_4 hopc hf7 hf3 => exact ⟨.peek, hopc, hf3, hf7⟩
  case h_5 hopc hf7 hf3 => exact ⟨.wait, hopc, hf3, hf7⟩
  case h_6 hopc hf7 hf3 => exact ⟨.release, hopc, hf3, hf7⟩
  case h_7 hopc hf7 hf3 => exact ⟨.credits, hopc, hf3, hf7⟩
  case h_8 hopc hf7 hf3 => exact ⟨.barrier, hopc, hf3, hf7⟩
  case h_9 hopc hf7 hf3 => exact ⟨.dma, hopc, hf3, hf7⟩
  case h_10 hopc hf7 hf3 => exact ⟨.dmawait, hopc, hf3, hf7⟩
  case h_11 hopc hf7 hf3 => exact ⟨.dmapoll, hopc, hf3, hf7⟩
  case h_12 hopc hf7 hf3 => exact ⟨.pub, hopc, hf3, hf7⟩
  case h_13 hopc hf7 hf3 => exact ⟨.slotsel, hopc, hf3, hf7⟩
  case h_14 hopc hf7 hf3 => exact ⟨.tzero, hopc, hf3, hf7⟩
  case h_15 hopc hf7 hf3 => exact ⟨.tld, hopc, hf3, hf7⟩
  case h_16 hopc hf7 hf3 => exact ⟨.tst, hopc, hf3, hf7⟩
  case h_17 hopc hf7 hf3 => exact ⟨.tmma, hopc, hf3, hf7⟩
  case h_18 hopc hf7 hf3 => exact ⟨.tmmaT, hopc, hf3, hf7⟩
  case h_19 hopc =>
    split at h
    case h_1 f hf =>
      have hcode := cvtFmt?_eq_some hf
      split at h
      · next hlow =>
        simp only [Option.ite_none_right_eq_some, Bool.and_eq_true, decide_eq_true_eq] at h
        refine ⟨.narrow f (bitsOf w 12 3 = 1), hopc, ?_, by simp only [ThOp.funct7]; omega⟩
        simp only [ThOp.funct3, ofBool, decide_eq_true_eq]
        split <;> omega
      · simp only [Option.ite_none_right_eq_some, Bool.and_eq_true, decide_eq_true_eq] at h
        exact ⟨.widen f, hopc, h.2.1.1, by simp only [ThOp.funct7]; omega⟩
    case h_2 => simp at h
  case h_20 => simp at h

/-- A word that the decoder of the extension takes has the fixed fields of its instruction and operands as R146 admits them. -/
theorem eq_of_ext? {r : Rv} (h : ext? w = some r) : ∃ op : ThOp, bitsOf w 0 7 = op.opcode ∧ bitsOf w 12 3 = op.funct3 ∧
    bitsOf w 25 7 = op.funct7 ∧ op.fieldsOk (bitsOf w 7 5) (bitsOf w 15 5) (bitsOf w 20 5) = true ∧
    r = .ext op (bitsOf w 7 5) (bitsOf w 15 5) (bitsOf w 20 5) := by
  obtain ⟨op, hopc, hf3, hf7⟩ := fields_of_ext? h
  rw [ext?_of_fields hopc hf3 hf7, Option.ite_none_right_eq_some, Option.some.injEq] at h
  exact ⟨op, hopc, hf3, hf7, h.1, h.2.symm⟩

theorem ext?_word {op : ThOp} {rd rs1 rs2 : Nat} (hok : op.fieldsOk rd rs1 rs2 = true) :
    ext? (op.base + rd * 2 ^ 7 + rs1 * 2 ^ 15 + rs2 * 2 ^ 20) = some (.ext op rd rs1 rs2) := by
  obtain ⟨hrd, hrs1, hrs2⟩ := ThOp.fieldsOk_lt hok
  have hopc := op.opcode_lt
  have hf3 := op.funct3_lt
  rw [op.word_eq, ext?_of_fields (bitsOf_fieldsWord_opcode hopc) (bitsOf_fieldsWord_funct3 hopc hrd hf3)
    (bitsOf_fieldsWord_funct7 hopc hrd hf3 hrs1 hrs2 op.funct7_lt), bitsOf_fieldsWord_rd hopc hrd,
    bitsOf_fieldsWord_rs1 hopc hrd hf3 hrs1, bitsOf_fieldsWord_rs2 hopc hrd hf3 hrs1 hrs2, if_pos hok]

/-! ## The other opcodes -/

theorem aluImm?_ne_ext {wd : Bool} {op : ThOp} {rd rs1 rs2 : Nat} : aluImm? wd w ≠ some (.ext op rd rs1 rs2) := by
  unfold aluImm?
  grind

theorem atomic?_ne_ext {op : ThOp} {rd rs1 rs2 : Nat} : atomic? w ≠ some (.ext op rd rs1 rs2) := by
  unfold atomic?
  grind [Option.map_eq_some_iff]

theorem fp?_ne_ext {op : ThOp} {rd rs1 rs2 : Nat} : fp? w ≠ some (.ext op rd rs1 rs2) := by
  unfold fp?
  grind

/-- The four opcodes of R146 decode by the extension's encodings alone. -/
theorem decode32_of_opcode (h : bitsOf w 0 7 ∈ [0x0B, 0x2B, 0x5B, 0x7B]) : decode32 w = ext? w := by
  simp only [List.mem_cons, List.not_mem_nil, or_false] at h
  rcases h with h | h | h | h <;> simp [decode32, h]

/-- No other opcode decodes to an instruction of the extension. -/
theorem ext?_of_decode32 {op : ThOp} {rd rs1 rs2 : Nat} (h : decode32 w = some (.ext op rd rs1 rs2)) :
    ext? w = some (.ext op rd rs1 rs2) := by
  unfold decode32 at h
  grind [Option.map_eq_some_iff, aluImm?_ne_ext, atomic?_ne_ext, fp?_ne_ext]

end

theorem exec_scalarInstruction_illegal {s : State} {k now cycle len : Nat} {upset : Option (Nat × Bool)} (hk : k < 256)
    (hready : s.coreReady k = true) (hfetch : s.fetch k = some (none, len)) :
    exec (.scalarInstruction k now cycle upset) s = .next (s.stopsAt k 1 2) := by
  simp only [exec, execScalarInstruction, if_neg (Nat.not_le_of_lt hk), hready, hfetch]
  rfl

/-! ## O33 -/

/-- Settles O33: a word of the four opcodes is its fields, and each instruction has fixed fields of its own. -/
theorem extensionEncodings : Obligations.ExtensionEncodings := by
  unfold Obligations.ExtensionEncodings
  refine ⟨?encoded, ?decoded, ?others, ?illegal, by decide⟩
  case encoded =>
    intro op rd rs1 rs2 hok
    have hopc : bitsOf (op.base + rd * 2 ^ 7 + rs1 * 2 ^ 15 + rs2 * 2 ^ 20) 0 7 = op.opcode := by
      rw [op.word_eq, bitsOf_fieldsWord_opcode op.opcode_lt]
    rw [decode32_of_opcode (hopc ▸ op.opcode_mem), ext?_word hok]
  case decoded =>
    intro w op rd rs1 rs2 hw hdecode
    obtain ⟨op', hopc, hf3, hf7, hok, heq⟩ := eq_of_ext? (ext?_of_decode32 hdecode)
    obtain ⟨rfl, rfl, rfl, rfl⟩ := Rv.ext.inj heq
    refine ⟨hok, ?_⟩
    rw [op.word_eq, ← hopc, ← hf3, ← hf7]
    exact eq_fieldsWord hw
  case others =>
    intro w r hopc hdecode
    rw [decode32_of_opcode (by simpa [bitsOf] using hopc)] at hdecode
    obtain ⟨op, -, -, -, -, rfl⟩ := eq_of_ext? hdecode
    exact ⟨op, _, _, _, rfl⟩
  case illegal =>
    intro s k now cycle upset hk hready hfetch
    exact exec_scalarInstruction_illegal hk hready hfetch

end Sys2Proof.Machine
end

section

/-!
PROOFS. The Thicket cores as their commands meet them (07 R139, R142). One command a core's number, one stop for a number above 255. Then
the rules that the commands' proofs share: what a core reads after it took a state, and how an instruction ends. The statements ask no
canonical form of the list of cores, and none is needed: a core that runs or waits is not as it starts, so what it takes is listed, and
reads as written in any list.
-/

namespace Sys2Proof

/-- Of two values that a unit takes, the second stands, whatever the form of the list, if the first is not as at its start. -/
theorem Sparse.upd_upd_of_first_ne {α : Type} [DecidableEq α] (d : α) (m : Sparse α) (k : Nat) {v : α} (hv : v ≠ d) (w : α) :
    Sparse.upd d (Sparse.upd d m k v) k w = Sparse.upd d m k w := by
  by_cases hw : w = d
  · subst hw
    simp only [Sparse.upd, Sparse.put, if_neg hv, if_pos]
    induction m with
    | nil => simp [Sparse.insert, Sparse.erase]
    | cons e m ih =>
      obtain ⟨j, x⟩ := e
      rcases Nat.lt_trichotomy k j with hlt | rfl | hgt
      · simp [Sparse.insert, Sparse.erase, hlt]
      · simp [Sparse.insert, Sparse.erase]
      · simp [Sparse.insert, Sparse.erase, Nat.not_lt_of_gt hgt, Nat.ne_of_lt hgt, ih]
  · exact Sparse.upd_upd_of_ne d m k hv hw

end Sys2Proof

namespace Sys2Proof.Machine

/-! ## Commands of cores (R139) -/

/-- The core that a command of the Thicket cores names. -/
def Instr.coreNumber : Instr → Option Nat
  | .scalarInstruction k .. | .ecall k | .ebreak k | .thSend k .. | .thSendnb k _ | .thRecv k _ | .thPeek k | .thWait k _
  | .thRelease k | .thCredits k | .thBarrier k _ | .barrierTimeout k _ | .messageArrive k _ | .creditArrive k _ | .waitTimeout k _
  | .thDma k _ | .dmaComplete k .. | .thDmawait k _ | .thDmapoll k | .thPub k .. | .thSlotsel k | .thTzero k | .thTld k _ | .thTst k
  | .thTmma k _ | .thTmmaT k _ | .thCvtE4m3F32 k _ | .thCvtE5m2F32 k _ | .thCvtBf16F32 k _ | .thCvtI8F32 k _ | .thCvtQ12bF32 k _
  | .thCvtF32E4m3 k _ | .thCvtF32E5m2 k _ | .thCvtF32Bf16 k _ | .thCvtF32I8 k _ | .thCvtF32Q12b k _ => some k
  | _ => none

/-- A command completes, but one that names a core which the array has not stops with its number. -/
theorem exec_eq_of_coreNumber (c : Instr) (s : State) : ∃ t, exec c s = match Instr.coreNumber c with
    | none => .next t
    | some k => if 256 ≤ k then .fault (.noSuchCore k) else .next t := by
  cases c <;> exact ⟨_, rfl⟩

theorem exec_of_noSuchCore {c : Instr} {s : State} {k : Nat} (hk : 256 ≤ k) (h : Instr.coreNumber c = some k) :
    exec c s = .fault (.noSuchCore k) := by
  obtain ⟨t, ht⟩ := exec_eq_of_coreNumber c s
  simpa only [h, if_pos hk] using ht

/-! ## O5 -/

/-- Settles O5: a command names no core and completes, or it names one, and stops where that is above 255. -/
theorem everyCommandCompletesButForCoresAbove255 : Obligations.EveryCommandCompletesButForCoresAbove255 := by
  unfold Obligations.EveryCommandCompletesButForCoresAbove255
  refine ⟨fun c s => ?_, fun s k now cycle channel endpoint tag up bad hk => ?_⟩
  · obtain ⟨t, ht⟩ := exec_eq_of_coreNumber c s
    cases hcore : Instr.coreNumber c with
    | none => exact .inl ⟨t, by simpa only [hcore] using ht⟩
    | some k =>
      by_cases hk : 256 ≤ k
      · exact .inr ⟨k, hk, exec_of_noSuchCore hk hcore⟩
      · exact .inl ⟨t, by simpa only [hcore, if_neg hk] using ht⟩
  · and_intros <;> exact exec_of_noSuchCore hk rfl

end Sys2Proof.Machine
end

section

/-!
PROOFS. The rules that the proofs of the cores' instructions share: what a core reads after it took a state, what an error in local memory
leaves, and how an instruction that stands at the pc begins and ends (07 R143, R155).
-/

namespace Sys2Proof.Machine

section
variable {s : State} {k rd rs1 rs2 v now timeout len : Nat} {c d : CoreState} {op : ThOp} {i : Rv} {upset : Option (Nat × Bool)}

/-! ## What a core holds -/

theorem CoreState.ne_start_of_run (h : c.run ≠ .off) : c ≠ {} := fun hc => h (congrArg CoreState.run hc)

theorem CoreState.ne_start_of_wait (h : c.wait ≠ none) : c ≠ {} := fun hc => h (congrArg CoreState.wait hc)

theorem CoreState.ne_start_of_dma (h : c.dma ≠ []) : c ≠ {} := fun hc => h (congrArg CoreState.dma hc)

theorem CoreState.ne_start_of_ring (h : c.ring ≠ []) : c ≠ {} := fun hc => h (congrArg CoreState.ring hc)

theorem State.core_setCore (hc : c ≠ {}) : (s.setCore k c).core k = c := Sparse.at_upd_same_of_ne _ _ _ hc

/-- Of two states that a core takes the second stands. -/
theorem State.setCore_setCore (hc : c ≠ {}) : (s.setCore k c).setCore k d = s.setCore k d := by
  simp only [State.setCore, Sparse.upd_upd_of_first_ne _ _ _ hc]

theorem CoreState.wx_pc : (c.wx rd v).pc = c.pc := by
  unfold CoreState.wx
  split <;> rfl

theorem CoreState.wx_instret : (c.wx rd v).instret = c.instret := by
  unfold CoreState.wx
  split <;> rfl

theorem CoreState.wx_run : (c.wx rd v).run = c.run := by
  unfold CoreState.wx
  split <;> rfl

theorem CoreState.wx_wait : (c.wx rd v).wait = c.wait := by
  unfold CoreState.wx
  split <;> rfl

/-! ## How an instruction ends -/

theorem State.give_eq : s.give k rd v = s.returns k rd v (s.core k) := by
  simp only [State.give, State.returns, CoreState.retire, CoreState.wx_pc, CoreState.wx_instret]

/-- An instruction that leaves the core as `c` and returns a value. -/
theorem State.give_setCore (hc : c ≠ {}) : (s.setCore k c).give k rd v = s.returns k rd v c := by
  simp only [State.give_eq, State.returns, State.core_setCore hc, State.setCore_setCore hc]

/-- A core that does not wait returns a value where it takes one and passes on. -/
theorem State.returns_eq (hwait : c.wait = none) : s.returns k rd v c len = s.setCore k ((c.wx rd v).retire len) := by
  simp only [State.returns, CoreState.retire, CoreState.wx_pc, CoreState.wx_instret]
  congr 2
  rw [← hwait, ← CoreState.wx_wait]

/-! ## An error that an access finds in local memory (R143) -/

/-- A running core that does not wait keeps what it runs and waits for. -/
theorem State.lmUpset_core (hrun : (s.core k).run = .running) :
    ((s.lmUpset k upset).core k).run = .running ∧ ((s.lmUpset k upset).core k).wait = (s.core k).wait := by
  have hkeeps : ∀ (t : State) (c : CoreState) (f : Fld) (n : Nat), t.th = s.th → c.run = .running → c.wait = (s.core k).wait →
      (((t.setCore k c).bump f n).core k).run = .running ∧ (((t.setCore k c).bump f n).core k).wait = (s.core k).wait := by
    intro t c f n ht hc hwait
    have hcore : ((t.setCore k c).bump f n).core k = c := State.core_setCore (CoreState.ne_start_of_run (by simp [hc]))
    rw [hcore]
    exact ⟨hc, hwait⟩
  unfold State.lmUpset
  split
  · exact ⟨hrun, rfl⟩
  · dsimp only
    split
    · exact hkeeps _ _ _ _ rfl hrun rfl
    · exact ⟨hrun, rfl⟩
  · dsimp only
    split
    · exact hkeeps _ _ _ _ rfl hrun rfl
    · exact ⟨hrun, rfl⟩

/-! ## The instruction at the pc -/

theorem State.run_of_coreReady (h : s.coreReady k = true) : (s.core k).run = .running := by
  simp only [State.coreReady, Bool.and_eq_true, decide_eq_true_eq] at h
  exact h.1

theorem State.wait_of_coreReady (h : s.coreReady k = true) : (s.core k).wait = none := by
  simp only [State.coreReady, Bool.and_eq_true, Option.isNone_iff_eq_none] at h
  exact h.2

theorem State.standsAt_iff : s.standsAt k op rd rs1 rs2 = true ↔
    k < 256 ∧ s.coreReady k = true ∧ s.fetch k = some (some (.ext op rd rs1 rs2), 4) := by
  simp only [State.standsAt, Bool.and_eq_true, decide_eq_true_eq, and_assoc]

theorem State.standsInstr_iff : s.standsInstr k i len = true ↔ k < 256 ∧ s.coreReady k = true ∧ s.fetch k = some (some i, len) := by
  simp only [State.standsInstr, Bool.and_eq_true, decide_eq_true_eq, and_assoc]

theorem State.run_of_standsAt (h : s.standsAt k op rd rs1 rs2 = true) : (s.core k).run = .running :=
  State.run_of_coreReady (State.standsAt_iff.1 h).2.1

/-- A core whose instruction meets an error in local memory is not as it starts. -/
theorem State.core_lmUpset_ne_start (h : s.standsAt k op rd rs1 rs2 = true) : (s.lmUpset k upset).core k ≠ {} :=
  CoreState.ne_start_of_run (by simp [(State.lmUpset_core (upset := upset) (State.run_of_standsAt h)).1])

theorem State.core_ne_start (h : s.standsAt k op rd rs1 rs2 = true) : s.core k ≠ {} :=
  CoreState.ne_start_of_run (by simp [State.run_of_standsAt h])

/-- An extension instruction that stands at the pc has its effect. -/
theorem State.onExt_eq {f : State → Nat → Nat → Nat → State} (h : s.standsAt k op rd rs1 rs2 = true) :
    s.onExt k op f = .next (f s rd rs1 rs2) := by
  obtain ⟨hk, hready, hfetch⟩ := State.standsAt_iff.1 h
  simp [State.onExt, Nat.not_le_of_lt hk, hready, hfetch]

/-- A command of a core that the array has completes. -/
theorem exec_core {t : State} (hk : k < 256) : (if 256 ≤ k then Host.Outcome.fault (Fault.noSuchCore k) else .next t : Res) = .next t :=
  if_neg (Nat.not_le_of_lt hk)

end

/-- A command that answers a state completes there. -/
theorem completes_of_eq {c : Instr} {s t u : State} (hexec : exec c s = .next u) (h : u = t) : Completes c s fun x => x = t :=
  ⟨u, hexec, h⟩

/-- An extension instruction that stands at the pc completes with its effect. -/
theorem completes_onExt {c : Instr} {op : ThOp} {s t : State} {k rd rs1 rs2 : Nat} {f : State → Nat → Nat → Nat → State}
    (hexec : exec c s = s.onExt k op f) (hstands : s.standsAt k op rd rs1 rs2 = true) (h : f s rd rs1 rs2 = t) :
    Completes c s fun x => x = t :=
  completes_of_eq (hexec.trans (State.onExt_eq hstands)) h

end Sys2Proof.Machine
end

section

/-!
PROOFS. The rings of a core (07 R150 to R153): th.recv, th.peek, th.wait, th.release and th.credits, and a message that lands.
-/

namespace Sys2Proof.Machine

section
variable {s : State} {k rd ch : Nat} {c : CoreState} {w : CoreWait} {m : ChanMsg}

/-- What is inserted is listed. -/
theorem Sparse.insert_ne_nil {α : Type} (l : Sparse α) (n : Nat) (v : α) : Sparse.insert l n v ≠ [] := by
  cases l with
  | nil => simp [Sparse.insert]
  | cons e es =>
    simp only [Sparse.insert]
    split
    · simp
    · split <;> simp

/-- A slot in which a message has landed is listed. -/
theorem CoreState.land_ring_ne_nil : (c.land ch m).ring ≠ [] := by
  have hslot : ({ c.ringAt ch with arrived := (c.ringAt ch).arrived + 1 } : Ring) ≠ {} := fun h =>
    Nat.succ_ne_zero _ (congrArg Ring.arrived h)
  simp only [CoreState.land, Sparse.upd, Sparse.put, if_neg hslot]
  exact Sparse.insert_ne_nil _ _ _

theorem CoreState.land_wait : (c.land ch m).wait = c.wait := by
  simp only [CoreState.land, CoreState.breakResv, CoreState.lmWrite]
  split
  · split <;> rfl
  · rfl

theorem State.takeSlot_eq (hc : (s.core k).tookSlot ch ≠ {}) :
    s.takeSlot k ch rd = s.returns k rd ((s.core k).nextSlot ch) ((s.core k).tookSlot ch) := State.give_setCore hc

theorem CoreState.tookSlot_ne_start_of_run (h : c.run = .running) : c.tookSlot ch ≠ {} :=
  CoreState.ne_start_of_run (by simp [CoreState.tookSlot, h])

theorem CoreState.tookSlot_ne_start_of_wait (h : c.wait = some w) : c.tookSlot ch ≠ {} :=
  CoreState.ne_start_of_wait (by simp [CoreState.tookSlot, h])

/-- The lowest channel of a mask that holds a slot (R152). -/
theorem CoreState.lowest_eq_some {mask : Nat} (hch : ch < 32) (hmask : bitOf mask ch = true) (hholds : c.holds ch = true)
    (hbelow : ((List.range ch).all fun j => !(bitOf mask j && c.holds j)) = true) : c.lowest mask = some ch := by
  rw [CoreState.lowest, List.find?_range_eq_some]
  refine ⟨by simp [hmask, hholds], List.mem_range.2 hch, fun j hj => ?_⟩
  exact List.all_eq_true.1 hbelow j (List.mem_range.2 hj)

theorem CoreState.lowest_eq_none {mask : Nat} (h : ((List.range 32).all fun j => !(bitOf mask j && c.holds j)) = true) :
    c.lowest mask = none := by
  rw [CoreState.lowest, List.find?_eq_none]
  intro j hj
  exact (Bool.not_eq_true _).mpr ((Bool.not_eq_true' _).mp (List.all_eq_true.1 h j hj))

end

/-- Settles O26: each instruction on the rings is a return or a wait of the core, and a message that lands wakes a core that waits for it. -/
theorem coresReceiveMessages : Obligations.CoresReceiveMessages := by
  unfold Obligations.CoresReceiveMessages
  refine ⟨?recv, ?recvWaits, ?peek, ?peekNone, ?wait, ?waitWaits, ?release, ?releaseNone, ?credits, ?lands, ?wakes⟩
  case recv =>
    intro s k rd rs1 rs2 now hstands hholds
    exact completes_onExt (execThRecv.eq_1 _ _ _) hstands
      ((if_pos hholds).trans (State.takeSlot_eq (CoreState.tookSlot_ne_start_of_run (State.run_of_standsAt hstands))))
  case recvWaits =>
    intro s k rd rs1 rs2 now hstands hholds
    exact completes_onExt (execThRecv.eq_1 _ _ _) hstands (if_neg (Bool.eq_false_iff.1 hholds))
  case peek =>
    intro s k rd rs1 rs2 hstands hholds
    exact completes_onExt (execThPeek.eq_1 _ _) hstands
      ((if_pos hholds).trans (State.takeSlot_eq (CoreState.tookSlot_ne_start_of_run (State.run_of_standsAt hstands))))
  case peekNone =>
    intro s k rd rs1 rs2 hstands hholds
    exact completes_onExt (execThPeek.eq_1 _ _) hstands ((if_neg (Bool.eq_false_iff.1 hholds)).trans State.give_eq)
  case wait =>
    intro s k rd rs1 rs2 now ch hstands hch hmask hholds hbelow
    exact completes_onExt (execThWait.eq_1 _ _ _) hstands (by simp only [CoreState.lowest_eq_some hch hmask hholds hbelow, State.give_eq])
  case waitWaits =>
    intro s k rd rs1 rs2 now hstands hnone
    exact completes_onExt (execThWait.eq_1 _ _ _) hstands (by simp only [CoreState.lowest_eq_none hnone]; rfl)
  case release =>
    intro s k rd rs1 rs2 j ep r a hstands hch hr htaken hsrc ha
    subst hr ha
    exact completes_onExt (execThRelease.eq_1 _ _) hstands (by simp only [hch, htaken, hsrc, decide_true, Bool.and_self, if_true, State.give_eq])
  case releaseNone =>
    intro s k rd rs1 rs2 hstands hnone
    refine completes_onExt (execThRelease.eq_1 _ _) hstands ((if_neg ?_).trans State.give_eq)
    simp only [Bool.and_eq_true, decide_eq_true_eq]
    exact fun ⟨hch, htaken⟩ => Nat.not_lt_of_le (hnone hch) htaken
  case credits =>
    intro s k rd rs1 rs2 hstands hch
    exact completes_onExt (execThCredits.eq_1 _ _) hstands (by simp only [if_pos hch, State.give_eq])
  case lands =>
    intro s k ch m rest hk hwait hflight
    refine completes_of_eq (exec_core hk) ?_
    simp only [hflight, State.wakeRecv, State.core_setCore (CoreState.ne_start_of_ring CoreState.land_ring_ne_nil), CoreState.land_wait,
      hwait]
  case wakes =>
    intro s k ch m rest w b hk hwait hwhat harg hflight hb hwaitB
    refine completes_of_eq (exec_core hk) ?_
    subst hb
    simp only [hflight, State.wakeRecv, hwaitB, hwhat, harg, decide_true, Bool.and_self, if_true,
      State.takeSlot_eq (CoreState.tookSlot_ne_start_of_wait hwaitB)]

end Sys2Proof.Machine
end

section

/-!
PROOFS. Barriers and their timeouts (07 R156, R157).
-/

namespace Sys2Proof.Machine

section
variable {s : State} {k now d : Nat} {w : CoreWait}

/-- A core that waits goes on with 0 when its barrier is passed; one that does not wait is left alone (R156). -/
def State.goesOn (s : State) (j : Nat) : State := (s.core j).wait.elim s fun w => s.returns j w.rd 0 (s.core j)

/-- Passing a barrier releases each core whose arrival stands. -/
theorem State.foldl_goesOn (ws : List Nat) :
    (ws.foldl (fun a j => match (a.core j).wait with
      | some w => a.give j w.rd 0
      | none => a) s) = ws.foldl State.goesOn s := by
  refine congrArg (fun f => ws.foldl f s) (funext fun a => funext fun j => ?_)
  unfold State.goesOn
  cases (a.core j).wait with
  | none => rfl
  | some w => exact State.give_eq

theorem CoreWait.expired_iff : w.expired now = true ↔ ∃ d, w.expire = some d ∧ 10 * d < now := by
  unfold CoreWait.expired
  split <;> simp [*]

/-- A core that has no partition, waits at no barrier, or whose time is not past, is left alone (R157). -/
theorem execBarrierTimeout_idle (hk : k < 256)
    (h : s.partOf k = none ∨
      (s.core k).wait.all (fun w => w.what ≠ WaitFor.barrier || w.expire.all fun d => now ≤ 10 * d) = true) :
    execBarrierTimeout k now s = .next s := by
  refine (exec_core hk).trans (congrArg _ ?_)
  split
  · rename_i w p hwait hpart
    refine if_neg fun hexpired => ?_
    obtain ⟨hwhat, hexp⟩ := Bool.and_eq_true_iff.1 hexpired
    obtain ⟨d, hd, hpast⟩ := CoreWait.expired_iff.1 hexp
    rcases h with hnone | hall
    · simp [hnone] at hpart
    · simp_all
      omega
  · rfl

end

/-- Settles O27: an arrival either completes the member set or joins it, and a wait that has expired withdraws. -/
theorem barriersAndTheirTimeouts : Obligations.BarriersAndTheirTimeouts := by
  unfold Obligations.BarriersAndTheirTimeouts
  refine ⟨?noEntry, ?stranger, ?arrives, ?passes, ?idle, ?withdraws⟩
  case noEntry =>
    intro s k rd rs1 rs2 now p hstands hpart hmembers
    exact completes_onExt (execThBarrier.eq_1 _ _ _) hstands (by simp only [hpart, hmembers, State.give_eq])
  case stranger =>
    intro s k rd rs1 rs2 now p ms hstands hpart hmembers hnot
    exact completes_onExt (execThBarrier.eq_1 _ _ _) hstands
      (by simp only [hpart, hmembers, hnot, Bool.not_false, if_true, State.give_eq])
  case arrives =>
    intro s k rd rs1 rs2 now p ms q a hstands hpart hmembers hmember hq hmissing ha
    subst hq ha
    refine completes_onExt (execThBarrier.eq_1 _ _ _) hstands ?_
    simp only [hpart, hmembers, hmember, hmissing, Bool.not_true, Bool.false_eq_true, if_false]
    rfl
  case passes =>
    intro s k rd rs1 rs2 now p ms ws q a hstands hpart hmembers hmember hq hws hall ha
    subst hq hws ha
    refine completes_onExt (execThBarrier.eq_1 _ _ _) hstands ?_
    simp only [hpart, hmembers, hmember, hall, Bool.not_true, Bool.false_eq_true, if_false, if_true]
    exact (congrArg (fun b => b.give k rd 0) (State.foldl_goesOn _)).trans State.give_eq
  case idle =>
    intro s k now hk hidle
    exact completes_of_eq (execBarrierTimeout_idle hk hidle) rfl
  case withdraws =>
    intro s k now p d w a hk hwait hpart hwhat hexpire hpast ha
    subst ha
    refine completes_of_eq (exec_core hk) ?_
    have hexpired : w.expired now = true := CoreWait.expired_iff.2 ⟨d, hexpire, hpast⟩
    simp only [hwait, hpart, hwhat, hexpired, decide_true, Bool.and_self, if_true, State.give_eq]

end Sys2Proof.Machine
end

section

/-!
PROOFS. Publication and slot selection (07 R148, R174, R175).
-/

namespace Sys2Proof.Machine

section
variable {s : State} {k now lane : Nat} {r : LaneRec}

/-- The first record of a lane in a cycle, of an interval that missed none, is staged and nothing else changes (R175). -/
theorem State.stageLane_of_first (hfirst : Sparse.find s.th.pubBy lane = none) (hmissed : (s.wbLane lane).missed = 0) :
    s.stageLane k lane now r =
      { s with th := { s.th with pubBy := Sparse.insert s.th.pubBy lane (now, k) },
               wb := (s.setWbLane lane { s.wbLane lane with staged := some r }).wb } := by
  simp only [State.stageLane, hfirst]
  refine (if_neg Bool.false_ne_true).trans ((if_neg ?_).trans rfl)
  have hmissed : (Sparse.at {} s.wb.lane lane).missed = 0 := hmissed
  simp [hmissed]

end

/-- Settles O30: the checks of th.pub and th.slotsel in their order, each with its code. -/
theorem publicationAndSlotSelection : Obligations.PublicationAndSlotSelection := by
  unfold Obligations.PublicationAndSlotSelection
  refine ⟨?staged, ?lane, ?misaligned, ?points, ?selected, ?operand⟩
  case staged =>
    intro s k rd rs1 rs2 upset u now p r v hstands hu hpart hlane hmask halign hin hbad hnear hfar hfirst hmissed hr hth hwb hv
    subst hu hr
    refine completes_onExt (execThPub.eq_1 _ _ _ _) hstands ?_
    simp only [hpart, hlane, hmask, halign, hin, hbad, Nat.not_lt_of_le hnear, Nat.not_lt_of_le hfar, decide_true, decide_false,
      Bool.and_self, Bool.or_self, Bool.not_true, Bool.false_eq_true, if_false, ne_eq, not_true_eq_false,
      State.stageLane_of_first hfirst hmissed, State.give_eq]
    rw [hv, hth, hwb]
    rfl
  case lane =>
    intro s k rd rs1 rs2 upset u now p hstands hu hpart hlane
    subst hu
    refine completes_onExt (execThPub.eq_1 _ _ _ _) hstands ?_
    simp only [hpart]
    refine (if_pos ?_).trans State.give_eq
    rcases hlane with hlane | hlane
    · simp [Nat.not_lt_of_le hlane]
    · simp [hlane]
  case misaligned =>
    intro s k rd rs1 rs2 upset u now p hstands hu hpart hlane hmask halign
    subst hu
    refine completes_onExt (execThPub.eq_1 _ _ _ _) hstands ?_
    simp only [hpart, hlane, hmask, decide_true, Bool.and_self, Bool.not_true, Bool.false_eq_true, if_false, if_pos halign,
      State.give_eq]
  case points =>
    intro s k rd rs1 rs2 upset u now p hstands hu hpart hlane hmask halign hin hbad hpoints
    subst hu
    refine completes_onExt (execThPub.eq_1 _ _ _ _) hstands ?_
    have hmany := (Bool.or_eq_true _ _).symm ▸ (hpoints.imp decide_eq_true decide_eq_true)
    simp only [hpart, hlane, hmask, halign, hin, hbad, decide_true, Bool.and_self, Bool.not_true, Bool.false_eq_true, if_false,
      ne_eq, not_true_eq_false]
    exact (if_pos hmany).trans State.give_eq
  case selected =>
    intro s k rd rs1 rs2 p hstands hpart hmodel hslot
    refine completes_onExt (execThSlotsel.eq_1 _ _) hstands ?_
    simp only [hpart, hmodel, hslot, decide_true, Bool.and_self, if_true, State.give_eq]
    rfl
  case operand =>
    intro s k rd rs1 rs2 p hstands hpart hoperand
    refine completes_onExt (execThSlotsel.eq_1 _ _) hstands ?_
    simp only [hpart]
    refine (if_neg ?_).trans State.give_eq
    simp only [Bool.and_eq_true, decide_eq_true_eq]
    omega

end Sys2Proof.Machine
end

section

/-!
PROOFS. Accumulator tiles and products (07 R147; 08 R181 to R185).
-/

namespace Sys2Proof.Machine

section
variable {s : State} {k n a b len : Nat} {write : Bool} {c : CoreState} {upset : Option (Nat × Bool)}

/-- An aligned access inside local memory is made when it is a write, or reads nothing poisoned. -/
theorem CoreState.tensorFault_eq_none (halign : a % 64 = 0) (hin : inLocal a len = true) (hbad : write = false → c.lmBad a len = false) :
    c.tensorFault a len write = none := by
  cases write with
  | true => simp [CoreState.tensorFault, halign, hin]
  | false => simp [CoreState.tensorFault, halign, hin, hbad rfl]

theorem CoreState.tensorFault_of_misaligned (halign : a % 64 ≠ 0) :
    c.tensorFault a len write = some (kindException, if write then 6 else 4) := if_pos halign

theorem CoreState.setAcc_ne_start {t : Nat} {vs : List Nat} (h : c.run = .running) : c.setAcc t vs ≠ {} :=
  CoreState.ne_start_of_run (by simp [CoreState.setAcc, h])

theorem CoreState.raise_setAcc_ne_start {t fl : Nat} {vs : List Nat} (h : c.run = .running) : (c.setAcc t vs).raise fl ≠ {} :=
  CoreState.ne_start_of_run (by simp [CoreState.raise, CoreState.setAcc, h])

/-- A pair of formats that do not go together is an illegal instruction (R181). -/
theorem State.product_of_formats {transposed : Bool} (h : tfOk (tfA (s.core k).tfmt) (tfB (s.core k).tfmt) = false) :
    s.product k n a b transposed = s.stopsAt k 1 2 := if_pos (by simp [h])

/-- Formats that go together have operands of one size (R181, R182). -/
theorem tfSize_eq_of_ok {f g : Nat} (h : tfOk f g = true) : tfSize g = tfSize f := by
  simp only [tfOk, Bool.or_eq_true, Bool.and_eq_true, decide_eq_true_eq] at h
  have hsame : g = 2 ↔ f = 2 := by omega
  simp only [tfSize, hsame]

/-- A product of operands that can be read is added to its tile (R183 to R185). -/
theorem State.product_of_readable {transposed : Bool} (hrun : (s.core k).run = .running)
    (hok : tfOk (tfA (s.core k).tfmt) (tfB (s.core k).tfmt) = true)
    (ha : (s.core k).tensorFault a (256 * tfSize (tfA (s.core k).tfmt)) false = none)
    (hb : (s.core k).tensorFault b (256 * tfSize (tfA (s.core k).tfmt)) false = none) :
    s.product k n a b transposed =
      s.returns k 0 0 (((s.core k).setAcc n (((s.core k).products n a b transposed).map Prod.fst)).raise
        (((s.core k).products n a b transposed).foldl (fun m o => m ||| o.2) 0)) := by
  simp only [State.product, CoreState.products, tfSize_eq_of_ok hok, hok, ha, hb, Bool.not_true, Bool.false_eq_true, if_false]
  rw [State.give_setCore (CoreState.raise_setAcc_ne_start hrun)]

end

/-- Settles O31: each access is made or is the fault of its first obstacle, and a product adds to its tile. -/
theorem tensorTilesAndProducts : Obligations.TensorTilesAndProducts := by
  unfold Obligations.TensorTilesAndProducts
  refine ⟨?zero, ?load, ?store, ?loadMisaligned, ?storeMisaligned, ?product, ?formats, ?productT, ?formatsT⟩
  case zero =>
    intro s k rd rs1 rs2 hstands
    exact completes_onExt (execThTzero.eq_1 _ _) hstands
      (State.give_setCore (CoreState.setAcc_ne_start (State.run_of_standsAt hstands)))
  case load =>
    intro s k rd rs1 rs2 upset u hstands hu halign hin hbad
    subst hu
    refine completes_onExt (execThTld.eq_1 _ _ _) hstands ?_
    simp only [CoreState.tensorFault_eq_none halign hin fun _ => hbad]
    exact State.give_setCore (CoreState.setAcc_ne_start (State.lmUpset_core (State.run_of_standsAt hstands)).1)
  case store =>
    intro s k rd rs1 rs2 hstands halign hin
    refine completes_onExt (execThTst.eq_1 _ _) hstands ?_
    simp only [CoreState.tensorFault_eq_none (write := true) halign hin nofun]
    exact State.give_setCore (CoreState.ne_start_of_run (by simp [CoreState.lmWrite, State.run_of_standsAt hstands]))
  case loadMisaligned =>
    intro s k rd rs1 rs2 upset u hstands hu halign
    subst hu
    refine completes_onExt (execThTld.eq_1 _ _ _) hstands ?_
    simp only [CoreState.tensorFault_of_misaligned halign]
    rfl
  case storeMisaligned =>
    intro s k rd rs1 rs2 hstands halign
    refine completes_onExt (execThTst.eq_1 _ _) hstands ?_
    simp only [CoreState.tensorFault_of_misaligned halign]
    rfl
  case product =>
    intro s k rd rs1 rs2 upset u hstands hu hok halignA hinA hbadA halignB hinB hbadB
    subst hu
    refine ⟨_, (execThTmma.eq_1 _ _ _).trans (State.onExt_eq hstands), List.forall_mem_singleton.2 ?_⟩
    exact State.product_of_readable (State.lmUpset_core (State.run_of_standsAt hstands)).1 hok
      (CoreState.tensorFault_eq_none halignA hinA fun _ => hbadA) (CoreState.tensorFault_eq_none halignB hinB fun _ => hbadB)
  case formats =>
    intro s k rd rs1 rs2 upset u hstands hu hok
    subst hu
    exact completes_onExt (execThTmma.eq_1 _ _ _) hstands (State.product_of_formats hok)
  case productT =>
    intro s k rd rs1 rs2 upset u hstands hu hok halignA hinA hbadA halignB hinB hbadB
    subst hu
    refine ⟨_, (execThTmmaT.eq_1 _ _ _).trans (State.onExt_eq hstands), List.forall_mem_singleton.2 ?_⟩
    exact State.product_of_readable (State.lmUpset_core (State.run_of_standsAt hstands)).1 hok
      (CoreState.tensorFault_eq_none halignA hinA fun _ => hbadA) (CoreState.tensorFault_eq_none halignB hinB fun _ => hbadB)
  case formatsT =>
    intro s k rd rs1 rs2 upset u hstands hu hok
    subst hu
    exact completes_onExt (execThTmmaT.eq_1 _ _ _) hstands (State.product_of_formats hok)

end Sys2Proof.Machine
end

section

/-!
PROOFS. Scalar instructions (07 R142 to R145): an instruction that stands at the pc ends as its own meaning says.
-/

namespace Sys2Proof.Machine

section
variable {s t : State} {k now cycle len a n rd v old csr misaligned outside : Nat} {upset : Option (Nat × Bool)} {i : Rv} {c : CoreState}

/-- An instruction without a command of its own acts on what an error in local memory has left, and ends. -/
theorem execScalarInstruction_eq (hstands : s.standsInstr k i len = true) (hown : i.own = false) :
    exec (.scalarInstruction k now cycle upset) s =
      .next ((s.lmUpset k upset).ran k len ((s.lmUpset k upset).scalar k now cycle i len)) := by
  obtain ⟨hk, hready, hfetch⟩ := State.standsInstr_iff.1 hstands
  refine (exec_core hk).trans (congrArg _ ?_)
  simp only [hready, hfetch, hown, Bool.not_true, Bool.false_eq_true, if_false]

theorem completes_scalar (hstands : s.standsInstr k i len = true) (hown : i.own = false)
    (h : (s.lmUpset k upset).ran k len ((s.lmUpset k upset).scalar k now cycle i len) = t) :
    Completes (.scalarInstruction k now cycle upset) s fun x => x = t :=
  completes_of_eq (execScalarInstruction_eq hstands hown) h

/-- An instruction that writes `v` to `rd` and passes on. -/
theorem State.returns_lmUpset (hstands : s.standsInstr k i len = true) :
    (s.lmUpset k upset).returns k rd v ((s.lmUpset k upset).core k) len =
      (s.lmUpset k upset).ran k len (.ok (((s.lmUpset k upset).core k).wx rd v)) := by
  obtain ⟨-, hready, -⟩ := State.standsInstr_iff.1 hstands
  exact State.returns_eq ((State.lmUpset_core (State.run_of_coreReady hready)).2.trans (State.wait_of_coreReady hready))

/-! ## Accesses (R143) -/

theorem State.coreLoad_local (halign : a % n = 0) (hin : inLocal a n = true) (hbad : (s.core k).lmBad a n = false) :
    s.coreLoad k a n = .ok (ofLe ((s.core k).lmBytes a n)) := by
  simp [State.coreLoad, halign, hin, hbad]

theorem State.coreLoad_poisoned (halign : a % n = 0) (hin : inLocal a n = true) (hbad : (s.core k).lmBad a n = true) :
    s.coreLoad k a n = .bad kindEcc 0 := by
  simp [State.coreLoad, halign, hin, hbad]

theorem State.coreLoad_misaligned (halign : a % n ≠ 0) : s.coreLoad k a n = .bad kindException 4 := if_pos halign

theorem CoreState.store_local (halign : a % n = 0) (hin : inLocal a n = true) : c.store a n v = .ok (c.lmWrite a (leBytes n v)) := by
  simp [CoreState.store, halign, hin]

theorem CoreState.store_bad (h : a % n ≠ 0 ∨ inLocal a n = false) :
    c.store a n v = .trap kindException (if a % n ≠ 0 then 6 else 7) := by
  unfold CoreState.store
  split
  · rfl
  · simp [h.resolve_left ‹_›]

theorem CoreState.atomicLoad_local (halign : a % n = 0) (hin : inLocal a n = true) (hbad : c.lmBad a n = false) :
    c.atomicLoad a n misaligned outside = .ok (ofLe (c.lmBytes a n)) := by
  simp [CoreState.atomicLoad, halign, hin, hbad]

/-! ## What each instruction does -/

theorem State.scalar_branch {op : BrOp} {rs1 rs2 : Nat} {imm : Int} :
    s.scalar k now cycle (.branch op rs1 rs2 imm) len =
      if brTaken op ((s.core k).rx rs1) ((s.core k).rx rs2) then .jump (s.core k) (unsign 64 ((s.core k).pc + imm))
      else .ok (s.core k) := rfl

/-- `sc` in local memory stores where its reservation stands, and gives it up in any case. -/
theorem State.scalar_sc {rs1 rs2 : Nat} (halign : (s.core k).rx rs1 % n = 0) (hin : inLocal ((s.core k).rx rs1) n = true) :
    s.scalar k now cycle (.sc n rd rs1 rs2) len =
      if (s.core k).resv = some ((s.core k).rx rs1, n)
      then .ok (({ s.core k with resv := none }.lmWrite ((s.core k).rx rs1) (leBytes n ((s.core k).rx rs2))).wx rd 0)
      else .ok ({ s.core k with resv := none }.wx rd 1) :=
  (if_neg (not_not_intro halign)).trans (if_neg (by simp [hin]))

/-- A CSR that is only read stays (R145). -/
theorem State.scalar_csr_read {op : CsrOp} {im : Bool} (hop : op ≠ .write) (hread : s.csrRead k now cycle csr = some old) :
    s.scalar k now cycle (.csr op im rd 0 csr) len = .ok ((s.core k).wx rd old) := by
  simp [State.scalar, hread, hop]

theorem State.scalar_csr_none {op : CsrOp} {im : Bool} {src : Nat} (hread : s.csrRead k now cycle csr = none) :
    s.scalar k now cycle (.csr op im rd src csr) len = illegal := by
  simp only [State.scalar, hread]

end

/-- Settles O24: each instruction's end, and the exceptions of the fetch. -/
theorem scalarInstructionsOfACore : Obligations.ScalarInstructionsOfACore := by
  unfold Obligations.ScalarInstructionsOfACore
  refine ⟨?alu, ?aluImm, ?taken, ?notTaken, ?jal, ?jalr, ?load, ?loadPoisoned, ?loadMisaligned, ?store, ?storeBad, ?lr, ?sc, ?scFails,
    ?csr, ?csrNone, ?amo, ?mul, ?illegal, ?noFetch⟩
  case alu =>
    intro s k now cycle len upset u op w rd a b hstands hu
    subst hu
    exact completes_scalar hstands rfl (State.returns_lmUpset hstands).symm
  case aluImm =>
    intro s k now cycle len upset u op w rd a imm hstands hu
    subst hu
    exact completes_scalar hstands rfl (State.returns_lmUpset hstands).symm
  case taken =>
    intro s k now cycle len upset u op a b imm hstands hu htaken
    subst hu
    exact completes_scalar hstands rfl (by rw [State.scalar_branch, if_pos htaken]; rfl)
  case notTaken =>
    intro s k now cycle len upset u op a b imm hstands hu htaken
    subst hu
    exact completes_scalar hstands rfl (by rw [State.scalar_branch, if_neg (by simp [htaken])]; rfl)
  case jal =>
    intro s k now cycle len upset u rd imm hstands hu
    subst hu
    refine completes_scalar hstands rfl ?_
    simp only [State.scalar, State.ran, CoreState.wx_instret]
  case jalr =>
    intro s k now cycle len upset u rd rs1 imm hstands hu
    subst hu
    refine completes_scalar hstands rfl ?_
    simp only [State.scalar, State.ran, CoreState.wx_instret, CoreState.ea]
  case load =>
    intro s k now cycle len upset u n sg rd rs1 a imm hstands hu ha halign hin hbad
    subst hu ha
    refine completes_scalar hstands rfl ?_
    simp only [State.scalar, CoreState.ea, State.coreLoad_local halign hin hbad]
    exact (State.returns_lmUpset hstands).symm
  case loadPoisoned =>
    intro s k now cycle len upset u n sg rd rs1 a imm hstands hu ha halign hin hbad
    subst hu ha
    refine completes_scalar hstands rfl ?_
    simp only [State.scalar, CoreState.ea, State.coreLoad_poisoned halign hin hbad]
    rfl
  case loadMisaligned =>
    intro s k now cycle len upset u n sg rd rs1 a imm hstands hu ha halign
    subst hu ha
    refine completes_scalar hstands rfl ?_
    simp only [State.scalar, CoreState.ea, State.coreLoad_misaligned halign]
    rfl
  case store =>
    intro s k now cycle len upset u n rs1 rs2 a imm hstands hu ha halign hin
    subst hu ha
    refine completes_scalar hstands rfl ?_
    simp only [State.scalar, CoreState.ea, CoreState.store_local halign hin]
    rfl
  case storeBad =>
    intro s k now cycle len upset u n rs1 rs2 a imm hstands hu ha hbad
    subst hu ha
    refine completes_scalar hstands rfl ?_
    simp only [State.scalar, CoreState.ea, CoreState.store_bad hbad]
    rfl
  case lr =>
    intro s k now cycle len upset u n rd rs1 hstands hu halign hin hbad
    subst hu
    refine completes_scalar hstands rfl ?_
    simp only [State.scalar, CoreState.atomicLoad_local halign hin hbad]
    rfl
  case sc =>
    intro s k now cycle len upset u n rd rs1 rs2 hstands hu halign hin hresv
    subst hu
    exact completes_scalar hstands rfl (by rw [State.scalar_sc halign hin, if_pos hresv]; rfl)
  case scFails =>
    intro s k now cycle len upset u n rd rs1 rs2 hstands hu halign hin hresv
    subst hu
    exact completes_scalar hstands rfl (by rw [State.scalar_sc halign hin, if_neg hresv]; rfl)
  case csr =>
    intro s k now cycle len upset u op im rd src csr old hstands hu hop hsrc hread
    subst hu hsrc
    refine completes_scalar hstands rfl ?_
    rw [State.scalar_csr_read hop hread]
    exact (State.returns_lmUpset hstands).symm
  case csrNone =>
    intro s k now cycle len upset u op im rd src csr hstands hu hread
    subst hu
    exact completes_scalar hstands rfl (by rw [State.scalar_csr_none hread]; rfl)
  case amo =>
    intro s k now cycle len upset u op n rd rs1 rs2 hstands hu halign hin hbad
    subst hu
    refine completes_scalar hstands rfl ?_
    simp only [State.scalar, CoreState.atomicLoad_local halign hin hbad]
    rfl
  case mul =>
    intro s k now cycle len upset u d rd rs1 rs2 rm m hstands hu hmode
    subst hu
    refine completes_scalar hstands rfl ?_
    simp only [State.scalar, CoreState.rounded, hmode]
    rfl
  case illegal =>
    intro s k now cycle len upset hk hready hfetch
    exact completes_of_eq (exec_scalarInstruction_illegal hk hready hfetch) rfl
  case noFetch =>
    intro s k now cycle upset hk hready hfetch
    refine completes_of_eq (exec_core hk) ?_
    simp only [hready, hfetch, Bool.not_true, Bool.false_eq_true, if_false]
    rfl

end Sys2Proof.Machine
end

section

/-!
PROOFS. Sends, core faults and transfers (07 R151, R159, R170): three statements that a state of the module refutes. Core 0 is partition 0's
in each.
-/

namespace Sys2Proof.Machine

/-- Partition 0's configuration words: enabled, with core 0. -/
def core0Words : List Nat := [2 ^ 31, 1]

/-- What a command's answer leaves of the core `k`. -/
def Res.core (r : Res) (k : Nat) : Option CoreState :=
  match r with
  | .next t => some (t.core k)
  | _ => none

/-- What a command's answer leaves in the register at `a`. -/
def Res.rd (r : Res) (a : Nat) : Option (BitVec 32) :=
  match r with
  | .next t => some (t.rd a)
  | _ => none

/-- What a command's answer leaves of the descriptor of context `c`. -/
def Res.desc (r : Res) (c : Nat) : Option Desc :=
  match r with
  | .next t => some (t.desc c)
  | _ => none

/-! ## O25: the sends -/

/-- Core 0 stands at th.send a0, a1, a2 with 8 bytes of local memory for endpoint 0. Its list of endpoints is out of order: a read of
endpoint 0 ends at endpoint 1, and a search finds endpoint 0 with a credit. -/
def endpointsOutOfOrder : State :=
  { State.reset with
    mem := [(codeArea 0, 0x0B#8), (codeArea 0 + 1, 0x85#8), (codeArea 0 + 2, 0xC5#8)]
    th := { State.reset.th with
      part := [(0, { words := core0Words })]
      core := [(0, { run := .running, pc := codeLo, x := [(11, lmBase), (12, 8 * 65536)],
                     send := [(1, {}), (0, { log2 := 6, credits := 1 })] })] } }

theorem endpointsOutOfOrder_stands : endpointsOutOfOrder.standsAt 0 .send 10 11 12 = true := by decide +kernel

/-- The send waits for a credit. -/
theorem endpointsOutOfOrder_waits :
    (Res.core (exec (.thSend 0 0 none) endpointsOutOfOrder) 0).map (fun c => c.wait.isSome) = some true := by
  decide +kernel

/-- Refutes O25: the first clause has a send with a credit leave, but in a list of endpoints that is out of order the endpoint that a search
finds with a credit reads without one, and the send waits. -/
theorem not_coresSendMessages : ¬ Obligations.CoresSendMessages := by
  unfold Obligations.CoresSendMessages
  rintro ⟨hsends, -⟩
  obtain ⟨t, hexec, ht⟩ := hsends endpointsOutOfOrder 0 10 11 12 none (endpointsOutOfOrder.lmUpset 0 none) 0 0 8
    { log2 := 6, credits := 1 } endpointsOutOfOrder_stands rfl (by decide +kernel) Nat.one_pos (by decide +kernel)
  have hgoes : (t.core 0).wait.isSome = false := by
    rw [ht]
    decide +kernel
  have hwaits : (t.core 0).wait.isSome = true :=
    Option.some.inj ((congrArg (fun r => (Res.core r 0).map fun c : CoreState => c.wait.isSome) hexec).symm.trans endpointsOutOfOrder_waits)
  exact Bool.false_ne_true (hgoes.symm.trans hwaits)

/-! ## O28: a core fault -/

/-- Partition 0 runs, its core stands at an exception, and TH_STATUS still shows it FAULTED. -/
def runsShownFaulted : State :=
  { (State.reset.setF Reg.TH_PART_STAT_STATE partRunning 0).setF Reg.TH_STATUS_FAULTED 1 with
    th := { State.reset.th with
      part := [(0, { words := core0Words })]
      core := [(0, { run := .fault kindException 2 })] } }

theorem runsShownFaulted_status : Res.rd (exec (.coreFault 0 0) runsShownFaulted) (Reg.TH_STATUS_RUNNING.addr 0 0) = some 0#32 := by
  decide +kernel

/-- Refutes O28: the last clause has a core fault leave the bits of TH_STATUS outside RUNNING, but the partition's FAULTED bit goes to zero as
well, which a state that shows the running partition FAULTED tells. -/
theorem not_endsOfARunAndCoreFaults : ¬ Obligations.EndsOfARunAndCoreFaults := by
  unfold Obligations.EndsOfARunAndCoreFaults
  rintro ⟨-, -, -, -, hfault⟩
  obtain ⟨t, hexec, -, -, -, -, -, hstatus, -⟩ :=
    hfault runsShownFaulted 0 0 0 kindException 2 (by decide +kernel) (by decide) (by decide +kernel) (by decide +kernel)
  have hcleared : t.rd (Reg.TH_STATUS_RUNNING.addr 0 0) = 0#32 :=
    Option.some.inj ((congrArg (Res.rd · _) hexec).symm.trans runsShownFaulted_status)
  exact absurd (hcleared.symm.trans hstatus) (by decide +kernel)

/-! ## O29: the end of a transfer -/

/-- A WRITE of 64 bytes to context 0's first block is under way, and that block, alone of the context, is poisoned. -/
def writesPoisonedBlock : State :=
  { State.reset with
    poison := [(0, true)]
    ctx := { State.reset.ctx with desc := [(0, { kind := kindJob, poisoned := true, poisonCnt := 1 })] }
    th := { State.reset.th with
      part := [(0, { words := core0Words })]
      core := [(0, { run := .running,
                     dma := [(0, some { stack := 0, localAddr := lmBase, len := 64, write := true, rows := 1, stackStride := 0,
                                        localStride := 0, code := 0, order := 0 })] })] } }

theorem writesPoisonedBlock_desc :
    (Res.desc (exec (.dmaComplete 0 0 []) writesPoisonedBlock) 0).map Desc.poisoned = some false := by
  decide +kernel

/-- Refutes O29: the clause of a WRITE that completes leaves the contexts as they are, but the poison that it clears leaves the poison count of
the block's context, too. -/
theorem not_transfersBetweenCoresAndStack : ¬ Obligations.TransfersBetweenCoresAndStack := by
  unfold Obligations.TransfersBetweenCoresAndStack
  rintro ⟨-, -, -, hwrites, -⟩
  obtain ⟨t, hexec, -, -, -, hframe⟩ := hwrites writesPoisonedBlock 0 0 [] _ (by decide +kernel) (by decide) rfl rfl rfl rfl
    (by decide +kernel) rfl
  have hkept : (t.desc 0).poisoned = true := by rw [hframe]; rfl
  have hcleared := writesPoisonedBlock_desc
  simp [hexec, Res.desc, hkept] at hcleared

end Sys2Proof.Machine
end

section

/-!
PROOFS. Commands of a partition (07 R162 to R169). A command works on the cores and the partition alone (`ThAlone`), writes fields of
TH_PART_STAT, and mostly enters a state (`State.partEnter`), which four registers show.
-/

namespace Sys2Proof.Machine

/-! ## What stays outside the array -/

/-- From `s` to `t` the array alone changes. -/
def ThAlone (s t : State) : Prop := t = { s with th := t.th }

section
variable {s t u : State} {p k : Nat} {c : CoreState} {q : PartState} {ks : List Nat} {ws : List (Fld × Nat × Nat)}

theorem ThAlone.refl : ThAlone s s := rfl

theorem ThAlone.setCore (h : ThAlone s t) : ThAlone s (t.setCore k c) := by
  unfold ThAlone at h
  generalize t.th = th at h
  subst h
  rfl

theorem ThAlone.setPart (h : ThAlone s t) : ThAlone s (t.setPart p q) := by
  unfold ThAlone at h
  generalize t.th = th at h
  subst h
  rfl

theorem ThAlone.foldl {α : Type} {step : State → α → State} {xs : List α} (hstep : ∀ b x, ThAlone s b → ThAlone s (step b x)) :
    ThAlone s (xs.foldl step s) :=
  List.foldlRecOn xs step .refl fun b hb x _ => hstep b x hb

theorem State.thAlone_wipeCores : ThAlone s (s.wipeCores ks) := .foldl fun _ _ => .setCore

theorem State.thAlone_haltPart : ThAlone s (s.haltPart p) := .setPart <| .foldl fun _ _ => .setCore

theorem State.thAlone_prepare : ThAlone s (s.prepare p) := by
  unfold State.prepare
  dsimp only
  split
  · exact .refl
  · exact .foldl fun _ _ => .setCore

theorem ThAlone.wrote (h : ThAlone t u) (hw : Wrote s t ws) : Wrote s u ws := by
  unfold ThAlone at h
  rw [h]
  exact hw.frame

/-- What is done to the array, and then to the register file. -/
theorem ThAlone.thenRegs (h : ThAlone s t) (hu : RegsAlone t u) : u.th = t.th ∧ u = { s with regs := u.regs, th := u.th } := by
  unfold ThAlone at h
  unfold RegsAlone at hu
  generalize t.th = th at h
  generalize u.regs = regs at hu
  subst h
  subst hu
  exact ⟨rfl, rfl⟩

end

/-- What is done to the array and the stack, and then to the register file. -/
theorem RegsAlone.thenStack {s t : State} {th : ThState} {m : Sparse Byte} {poison : Sparse Bool}
    (h : RegsAlone { s with th := th, mem := m, poison := poison } t) :
    t.th = th ∧ t.mem = m ∧ t = { s with regs := t.regs, th := t.th, mem := t.mem, poison := t.poison } := by
  unfold RegsAlone at h
  generalize t.regs = regs at h
  subst h
  exact ⟨rfl, rfl, rfl⟩

/-! ## TH_PART_STAT and the entry into a state (R163) -/

/-- The fields of TH_PART_STAT that a command writes beside STATE. -/
def partStatField (f : Fld) : Bool :=
  f = Reg.TH_PART_STAT_ERROR || f = Reg.TH_PART_STAT_SUSPENDED || f = Reg.TH_PART_STAT_CORES

/-- Writes to fields of TH_PART_STAT of partition `p`. -/
def partStatWrites (p : Nat) (fs : List (Fld × Nat)) : List (Fld × Nat × Nat) := fs.map fun e => (e.1, p, e.2)

/-- The writes of an entry into a state that is neither RUNNING nor FAULTED, from another state. -/
def State.enterWrites (s : State) (p st : Nat) : List (Fld × Nat × Nat) :=
  [(Reg.TH_PART_STAT_STATE, p, st), (Reg.TH_STATUS_RUNNING, 0, putBit (s.getF Reg.TH_STATUS_RUNNING) p false),
    (Reg.TH_STATUS_FAULTED, 0, putBit (s.getF Reg.TH_STATUS_FAULTED) p false),
    (Reg.SYS_IRQ_CAUSE, 5, putBit (s.getF Reg.SYS_IRQ_CAUSE 5) 1 true)]

section
variable {s t u : State} {p st a : Nat} {fs : List (Fld × Nat)}

theorem partStatField_addr {f : Fld} (h : partStatField f = true) : f.addr p 0 = Reg.TH_PART_STAT.addr p 0 := by
  simp only [partStatField, Bool.or_eq_true, decide_eq_true_eq] at h
  rcases h with (rfl | rfl) | rfl <;> rfl

theorem writesAt_partStatWrites (hfs : fs.all (fun e => partStatField e.1) = true) :
    writesAt (Reg.TH_PART_STAT.addr p 0) (partStatWrites p fs) = fs := by
  rw [writesAt, partStatWrites, List.filterMap_map]
  refine (List.filterMap_congr (g := some) fun e he => ?_).trans List.filterMap_some
  exact if_pos (partStatField_addr (List.all_eq_true.1 hfs e he))

theorem writesAt_partStatWrites_other (hfs : fs.all (fun e => partStatField e.1) = true) (ha : a ≠ Reg.TH_PART_STAT.addr p 0) :
    writesAt a (partStatWrites p fs) = [] := by
  rw [writesAt, partStatWrites, List.filterMap_map]
  refine List.filterMap_eq_nil_iff.2 fun e he => if_neg fun heq => ha ?_
  exact heq.symm.trans (partStatField_addr (List.all_eq_true.1 hfs e he))

theorem Fld.after_of_ne {f : Fld} {x : Nat} (h : ∀ e ∈ fs, e.1 ≠ f) : f.after x fs = x := by
  induction fs with
  | nil => rfl
  | cons e fs ih =>
    rw [Fld.after, if_neg (h e List.mem_cons_self)]
    exact ih fun e he => h e (List.mem_cons_of_mem _ he)

theorem partStatField_apart {f : Fld} {v : Nat} (h : partStatField f = true) :
    f ≠ Reg.TH_PART_STAT_STATE ∧ Reg.TH_PART_STAT_STATE.apart [(f, v)] = true := by
  simp only [partStatField, Bool.or_eq_true, decide_eq_true_eq] at h
  rcases h with (rfl | rfl) | rfl <;> exact ⟨by decide, rfl⟩

/-- The other fields of TH_PART_STAT leave the partition's state. -/
theorem Wrote.partState (h : Wrote s t (partStatWrites p fs)) (hfs : fs.all (fun e => partStatField e.1) = true) :
    t.partState p = s.partState p := by
  have hfield := List.all_eq_true.1 hfs
  have hwrites : writesAt (Reg.TH_PART_STAT_STATE.addr p 0) (partStatWrites p fs) = fs := writesAt_partStatWrites hfs
  have hapart : Reg.TH_PART_STAT_STATE.apart fs = true :=
    List.all_eq_true.2 fun e he => by simpa [Fld.apart] using (partStatField_apart (v := e.2) (hfield e he)).2
  rw [State.partState, h.getF (hwrites.symm ▸ hapart), hwrites,
    Fld.after_of_ne fun e he => (partStatField_apart (v := e.2) (hfield e he)).1]
  rfl

theorem Wrote.partEnter (h : Wrote s t (partStatWrites p fs)) (hfs : fs.all (fun e => partStatField e.1) = true)
    (hne : s.partState p ≠ st) (hrun : st ≠ partRunning) (hfault : st ≠ partFaulted) :
    Wrote s (t.partEnter p st) (partStatWrites p fs ++ s.enterWrites p st) := by
  have hstatus : writesAt (Reg.TH_STATUS.addr 0 0) (partStatWrites p fs) = [] :=
    writesAt_partStatWrites_other hfs (by simp only [Fld.addr]; omega)
  have hcause : writesAt (Reg.SYS_IRQ_CAUSE.addr 5 0) (partStatWrites p fs) = [] :=
    writesAt_partStatWrites_other hfs (by simp only [Fld.addr]; omega)
  have hstate := h.setF (f := Reg.TH_PART_STAT_STATE) (i := p) (v := st)
  have hwrites : writesAt (Reg.TH_STATUS.addr 0 0) (partStatWrites p fs ++ [(Reg.TH_PART_STAT_STATE, p, st)]) = [] := by
    rw [writesAt_append, hstatus, List.nil_append, writesAt_cons_other (by simp only [Fld.addr]; omega), writesAt_nil]
  have hgetRun : (t.setF Reg.TH_PART_STAT_STATE st p).getF Reg.TH_STATUS_RUNNING = s.getF Reg.TH_STATUS_RUNNING :=
    hstate.getF_same hwrites
  have hrunning := hstate.setF (f := Reg.TH_STATUS_RUNNING) (i := 0) (v := putBit (s.getF Reg.TH_STATUS_RUNNING) p false)
  have hgetFault : ((t.setF Reg.TH_PART_STAT_STATE st p).setF Reg.TH_STATUS_RUNNING
      (putBit (s.getF Reg.TH_STATUS_RUNNING) p false)).getF Reg.TH_STATUS_FAULTED = s.getF Reg.TH_STATUS_FAULTED := by
    have hlist : writesAt (Reg.TH_STATUS_FAULTED.addr 0 0) (partStatWrites p fs ++ [(Reg.TH_PART_STAT_STATE, p, st)] ++
        [(Reg.TH_STATUS_RUNNING, 0, putBit (s.getF Reg.TH_STATUS_RUNNING) p false)]) =
        [(Reg.TH_STATUS_RUNNING, putBit (s.getF Reg.TH_STATUS_RUNNING) p false)] :=
      writesAt_append.trans (congrArg (· ++ _) hwrites)
    rw [hrunning.getF (hlist ▸ rfl), hlist]
    rfl
  have hentered := (hrunning.setF (f := Reg.TH_STATUS_FAULTED) (i := 0) (v := putBit (s.getF Reg.TH_STATUS_FAULTED) p false)).cause
    (vector := 5) (bit := 1) (by
      rw [writesAt_append, writesAt_append, writesAt_append, hcause]
      simp (disch := (simp only [Fld.addr]; omega)) only [writesAt_cons_other, writesAt_nil, List.append_nil])
  simp only [State.partEnter, hrun, hfault, decide_false, hgetRun, hgetFault, State.causeIf, Bool.false_eq_true, if_false,
    h.partState hfs, hne.symm, ne_eq, not_false_eq_true, decide_true, if_true]
  simp only [List.append_assoc] at hentered
  exact hentered

/-- What an entry into a state that is neither RUNNING nor FAULTED shows. -/
theorem Wrote.entered (h : Wrote s t (partStatWrites p fs)) (hfs : fs.all (fun e => partStatField e.1) = true)
    (hne : s.partState p ≠ st) (hrun : st ≠ partRunning) (hfault : st ≠ partFaulted) :
    SetsFields s (t.partEnter p st) (Reg.TH_PART_STAT.addr p 0) (fs ++ [(Reg.TH_PART_STAT_STATE, st)]) ∧
      SetsFields s (t.partEnter p st) (Reg.TH_STATUS.addr 0 0)
        [(Reg.TH_STATUS_RUNNING, putBit (s.getF Reg.TH_STATUS_RUNNING) p false),
          (Reg.TH_STATUS_FAULTED, putBit (s.getF Reg.TH_STATUS_FAULTED) p false)] ∧
      Raises s (t.partEnter p st) 5 [1] ∧
      OnlyRegs s (t.partEnter p st) [Reg.TH_PART_STAT.addr p 0, Reg.TH_STATUS.addr 0 0, Reg.SYS_IRQ_CAUSE.addr 5 0] := by
  have hw := h.partEnter hfs hne hrun hfault
  have hstatus : writesAt (Reg.TH_STATUS.addr 0 0) (partStatWrites p fs) = [] :=
    writesAt_partStatWrites_other hfs (by simp only [Fld.addr]; omega)
  have hcause : writesAt (Reg.SYS_IRQ_CAUSE.addr 5 0) (partStatWrites p fs) = [] :=
    writesAt_partStatWrites_other hfs (by simp only [Fld.addr]; omega)
  refine ⟨hw.setsFields ?_, hw.setsFields ?_, hw.raises (by decide) ?_, hw.only ?_⟩
  · rw [writesAt_append, writesAt_partStatWrites hfs, State.enterWrites]
    simp (disch := (simp only [Fld.addr]; omega)) only [writesAt_cons_other, writesAt_cons_same, writesAt_nil]
  · rw [writesAt_append, hstatus, State.enterWrites]
    simp (disch := (simp only [Fld.addr]; omega)) only [writesAt_cons_other, writesAt_cons_same, writesAt_nil, List.nil_append]
  · rw [writesAt_append, hcause, State.enterWrites]
    simp (disch := (simp only [Fld.addr]; omega)) only [writesAt_cons_other, writesAt_cons_same, writesAt_nil, List.nil_append]
  · rw [List.all_append, Bool.and_eq_true]
    refine ⟨?_, by simp [State.enterWrites, Fld.addr]⟩
    rw [partStatWrites, List.all_map, List.all_eq_true]
    intro e he
    simp [partStatField_addr (List.all_eq_true.1 hfs e he)]

theorem RegsAlone.partEnter (h : RegsAlone s t) : RegsAlone s (t.partEnter p st) :=
  .causeIf <| .causeIf <| .setF <| .setF <| .setF h

/-- What an entry into such a state leaves when before it the array and fields of TH_PART_STAT alone changed. -/
theorem ThAlone.entered (hth : ThAlone s u) (hregs : RegsAlone u t) :
    (t.partEnter p st).th = u.th ∧
      t.partEnter p st = { s with regs := (t.partEnter p st).regs, th := (t.partEnter p st).th } :=
  hth.thenRegs hregs.partEnter

/-- A command that is not for the present state, or not enabled, shows its code in ERROR (R163). -/
theorem State.partError_shown {code : Nat} (hs : s.canonical = true) :
    SetsField s (s.setF Reg.TH_PART_STAT_ERROR code p) Reg.TH_PART_STAT_ERROR p code ∧
      OnlyRegs s (s.setF Reg.TH_PART_STAT_ERROR code p) [Reg.TH_PART_STAT.addr p 0] ∧
      s.setF Reg.TH_PART_STAT_ERROR code p = { s with regs := (s.setF Reg.TH_PART_STAT_ERROR code p).regs } :=
  ⟨(State.rd_setF hs _ _ _ _ _).trans (if_pos rfl), State.onlyRegs_setF hs _ _ _ _, rfl⟩

end

end Sys2Proof.Machine
end

section

/-!
PROOFS. LOAD and its end, START, STOP, UNLOAD and CLEAR (07 R162 to R169; 08 R197).
-/

namespace Sys2Proof.Machine

/-! ## The code that a load writes (R197) -/

section
variable {s t u : State} {p addr blk : Nat} {bs : List Byte} {m : Sparse Byte} {poison : Sparse Bool}

/-- From `s` to `t` the poison alone changes, and the lists stay in canonical form. -/
def PoisonAlone (s t : State) : Prop := t = { s with poison := t.poison } ∧ t.canonical = true

/-- A block beyond the contexts loses its poison, and no descriptor changes. -/
theorem PoisonAlone.blockWritten (h : PoisonAlone s t) (hblk : contexts ≤ blk * 64 / areaSize) : PoisonAlone s (t.blockWritten blk) := by
  obtain ⟨halone, hcanon⟩ := h
  unfold State.blockWritten
  split
  · have hbeyond : ¬ blk * 64 / areaSize < contexts := Nat.not_lt_of_le hblk
    simp only [hbeyond, decide_false, Bool.false_and, Bool.false_eq_true, if_false]
    obtain ⟨hregs, heff, hmem, hpoison⟩ := (State.canonical_iff t).1 hcanon
    refine ⟨?_, (State.canonical_iff _).2 ⟨hregs, heff, hmem, Sparse.wf_put (fun _ => false) t.poison blk false hpoison⟩⟩
    generalize t.poison = poison at halone
    subst halone
    rfl
  · exact ⟨halone, hcanon⟩

/-- A write beyond the contexts stores its bytes and takes poison off. -/
theorem State.stackWrite_beyond (hs : s.canonical = true) (haddr : contexts * areaSize ≤ addr) :
    PoisonAlone (s.memWrite addr bs) (s.stackWrite addr bs) := by
  refine List.foldlRecOn (motive := PoisonAlone (s.memWrite addr bs)) _ _ ⟨rfl, State.canonical_memWrite hs addr bs⟩ fun b hb e he => ?_
  refine hb.blockWritten ?_
  have hfirst : (addr + 63) / 64 ≤ e.1 := by
    have hcond := (List.mem_filter.1 he).2
    simp only [Bool.and_eq_true, decide_eq_true_eq] at hcond
    exact hcond.1.2
  simp only [areaSize, contexts] at *
  omega

/-- A state with another stack. -/
def State.withStack (s : State) (m : Sparse Byte) (poison : Sparse Bool) : State := { s with mem := m, poison := poison }

/-- The preparation of a partition's cores does not touch the stack. -/
theorem State.prepare_withStack :
    (s.withStack m poison).prepare p = { s with th := (s.prepare p).th, mem := m, poison := poison } := by
  have hpart : (s.withStack m poison).part p = s.part p := rfl
  have hcomm : (s.withStack m poison).prepare p = (s.prepare p).withStack m poison := by
    unfold State.prepare
    rw [hpart]
    dsimp only
    split
    · rfl
    · exact List.foldl_hom (fun x : State => x.withStack m poison) fun _ _ => rfl
  exact hcomm.trans (congrArg (fun x : State => x.withStack m poison) State.thAlone_prepare)

end

/-! ## The commands in the states that R163 lists for them -/

section
variable {s : State} {p code : Nat} {g : Prog} {q : PartState}

/-- What a load of partition `p` reads of its image (R162). -/
def State.loadImage (s : State) (p : Nat) : List Byte :=
  if s.get64 Reg.TH_PART_SRC_LO p % 64 = 0 ∧ s.get64 Reg.TH_PART_SRC_LO p + s.getF Reg.TH_PART_LEN p ≤ stackSize then
    s.readStack (s.get64 Reg.TH_PART_SRC_LO p) (min (s.getF Reg.TH_PART_LEN p) (72 * 2 ^ 20))
  else []

/-- The configuration words that a load takes into force (R162). -/
def State.loadWords (s : State) (p : Nat) : PartState := { words := s.partRegs p, restarts := (s.part p).restarts }

/-- The state in which a load of partition `p` has begun its checks, whose outcome is `r`. -/
def State.loadBegun (s : State) (p : Nat) (r : Nat × Option Prog) : State :=
  ((((s.wipeCores (s.part p).cores).setPart p { s.loadWords p with load := some r }).setF Reg.TH_PART_STAT_CORES
    (s.loadWords p).cores.length p).setF Reg.TH_PART_STAT_SUSPENDED 0 p).partEnter p partLoading

theorem exec_partLoad_accepted (hp : p < 16)
    (hstate : s.partState p = partEmpty ∨ s.partState p = partReady ∨ s.partState p = partStopped ∨ s.partState p = partFaulted)
    (hen : s.isF Reg.TH_PART_CFG_EN p = true)
    (hsigned : (s.progCheck (s.loadWords p) (s.loadImage p) (s.getF Reg.TH_PART_LEN p)).1 ≠ 2) :
    exec (.partLoad p) s =
      .next (s.loadBegun p (s.progCheck (s.loadWords p) (s.loadImage p) (s.getF Reg.TH_PART_LEN p))) := by
  have hlisted : (decide (s.partState p = partEmpty) || decide (s.partState p = partReady) || decide (s.partState p = partStopped) ||
      decide (s.partState p = partFaulted)) = true := by
    simpa [or_assoc] using hstate
  show execPartLoad p s = _
  unfold State.loadImage State.loadWords at hsigned
  simp only [execPartLoad, Nat.not_le_of_lt hp, hlisted, hen, Bool.not_true, Bool.false_eq_true, if_false, Bool.and_eq_true,
    decide_eq_true_eq, hsigned, false_and]
  rfl

theorem exec_partLoad_disabled (hp : p < 16) (hstate : s.partState p = partEmpty) (hen : s.isF Reg.TH_PART_CFG_EN p = false) :
    exec (.partLoad p) s = .next (s.setF Reg.TH_PART_STAT_ERROR 9 p) := by
  show execPartLoad p s = _
  simp only [execPartLoad, Nat.not_le_of_lt hp, hstate, hen, decide_true, Bool.true_or, Bool.not_true, Bool.not_false, Bool.false_eq_true,
    if_false, if_true]

theorem exec_partLoad_busy (hp : p < 16)
    (hstate : s.partState p ≠ partEmpty ∧ s.partState p ≠ partReady ∧ s.partState p ≠ partStopped ∧ s.partState p ≠ partFaulted) :
    exec (.partLoad p) s = .next (s.partBusy p) := by
  obtain ⟨hempty, hready, hstopped, hfaulted⟩ := hstate
  show execPartLoad p s = _
  simp only [execPartLoad, Nat.not_le_of_lt hp, hempty, hready, hstopped, hfaulted, decide_false, Bool.or_self, Bool.not_false, if_false,
    if_true]

/-- Partition `p` with the program of a good load kept. -/
def State.loadedPart (s : State) (p : Nat) (g : Prog) : PartState :=
  { s.part p with load := none, prog := some g, start := (s.part p).cfgBit 29 }

/-- A load that ends well keeps the program, and its code and data are written. -/
theorem exec_partLoadComplete_good (hstate : s.partState p = partLoading) (hload : (s.part p).load = some (code, some g)) :
    exec (.partLoadComplete p) s = .next (((((s.setPart p (s.loadedPart p g)).stackWrite (codeArea p) g.code).prepare p).setF
      Reg.TH_PART_STAT_ERROR code p).partEnter p partReady) := by
  show execPartLoadComplete p s = _
  simp only [execPartLoadComplete, hstate, hload, ne_eq, not_true_eq_false, if_false]
  rfl

theorem exec_partLoadComplete_failed (hstate : s.partState p = partLoading) (hload : (s.part p).load = some (code, none)) :
    exec (.partLoadComplete p) s = .next ((((s.wipeCores (s.part p).cores).setPart p { s.part p with load := none }).setF
      Reg.TH_PART_STAT_ERROR code p).partEnter p partEmpty) := by
  show execPartLoadComplete p s = _
  simp only [execPartLoadComplete, hstate, hload, ne_eq, not_true_eq_false, if_false]

theorem exec_partStart_ready (hp : p < 16) (hstate : s.partState p = partReady) :
    exec (.partStart p) s = .next (s.setPart p { s.part p with start := true }) := by
  show execPartStart p s = _
  simp only [execPartStart, Nat.not_le_of_lt hp, hstate, if_false, if_true]

theorem exec_partStart_stopped (hp : p < 16) (hstate : s.partState p = partStopped ∨ s.partState p = partFaulted) :
    exec (.partStart p) s = .next (((s.prepare p).setPart p { s.part p with start := true, restartAt := none }).setF
      Reg.TH_PART_STAT_SUSPENDED 0 p) := by
  have hready : s.partState p ≠ partReady := by rcases hstate with h | h <;> simp [h]
  have hlisted : (decide (s.partState p = partStopped) || decide (s.partState p = partFaulted)) = true := by simpa using hstate
  show execPartStart p s = _
  simp only [execPartStart, Nat.not_le_of_lt hp, hready, hlisted, if_false, if_true]

theorem exec_partStart_busy (hp : p < 16)
    (hstate : s.partState p ≠ partReady ∧ s.partState p ≠ partStopped ∧ s.partState p ≠ partFaulted) :
    exec (.partStart p) s = .next (s.partBusy p) := by
  obtain ⟨hready, hstopped, hfaulted⟩ := hstate
  show execPartStart p s = _
  simp only [execPartStart, Nat.not_le_of_lt hp, hready, hstopped, hfaulted, decide_false, Bool.or_self, Bool.false_eq_true, if_false]

theorem exec_partStop_running (hp : p < 16) (hstate : s.partState p = partRunning) :
    exec (.partStop p) s = .next ((s.haltPart p).partEnter p partStopping) := by
  show execPartStop p s = _
  simp only [execPartStop, Nat.not_le_of_lt hp, hstate, if_false, if_true]

theorem exec_partStop_ready (hp : p < 16) (hstate : s.partState p = partReady) :
    exec (.partStop p) s = .next ((s.setPart p { s.part p with start := false }).partEnter p partStopped) := by
  show execPartStop p s = _
  have hrunning : partReady ≠ partRunning := by decide
  simp only [execPartStop, Nat.not_le_of_lt hp, hstate, hrunning, if_false, if_true]

theorem exec_partStop_loading (hp : p < 16) (hstate : s.partState p = partLoading) :
    exec (.partStop p) s =
      .next (((s.wipeCores (s.part p).cores).setPart p { s.part p with load := none }).partEnter p partEmpty) := by
  show execPartStop p s = _
  have hrunning : partLoading ≠ partRunning := by decide
  have hready : partLoading ≠ partReady := by decide
  simp only [execPartStop, Nat.not_le_of_lt hp, hstate, hrunning, hready, if_false, if_true]

theorem exec_partStop_busy (hp : p < 16)
    (hstate : s.partState p ≠ partRunning ∧ s.partState p ≠ partReady ∧ s.partState p ≠ partLoading) :
    exec (.partStop p) s = .next (s.partBusy p) := by
  obtain ⟨hrunning, hready, hloading⟩ := hstate
  show execPartStop p s = _
  simp only [execPartStop, Nat.not_le_of_lt hp, hrunning, hready, hloading, if_false]

theorem exec_partUnload_listed (hp : p < 16)
    (hstate : s.partState p = partReady ∨ s.partState p = partStopped ∨ s.partState p = partFaulted) :
    exec (.partUnload p) s = .next ((((s.wipeCores (s.part p).cores).setPart p
      { words := (s.part p).words, restarts := (s.part p).restarts }).setF Reg.TH_PART_STAT_SUSPENDED 0 p).partEnter p partEmpty) := by
  have hlisted : (decide (s.partState p = partReady) || decide (s.partState p = partStopped) || decide (s.partState p = partFaulted)) =
      true := by
    simpa [or_assoc] using hstate
  show execPartUnload p s = _
  simp only [execPartUnload, Nat.not_le_of_lt hp, hlisted, if_false, if_true]

theorem exec_partUnload_busy (hp : p < 16)
    (hstate : s.partState p ≠ partReady ∧ s.partState p ≠ partStopped ∧ s.partState p ≠ partFaulted) :
    exec (.partUnload p) s = .next (s.partBusy p) := by
  obtain ⟨hready, hstopped, hfaulted⟩ := hstate
  show execPartUnload p s = _
  simp only [execPartUnload, Nat.not_le_of_lt hp, hready, hstopped, hfaulted, decide_false, Bool.or_self, Bool.false_eq_true, if_false]

theorem exec_partClear_faulted (hp : p < 16) (hstate : s.partState p = partFaulted) :
    exec (.partClear p) s = .next ((s.setF Reg.TH_PART_STAT_ERROR 0 p).partEnter p partStopped) := by
  show execPartClear p s = _
  simp only [execPartClear, Nat.not_le_of_lt hp, hstate, if_false, if_true]

theorem exec_partClear_busy (hp : p < 16) (hstate : s.partState p ≠ partFaulted) :
    exec (.partClear p) s = .next (s.partBusy p) := by
  show execPartClear p s = _
  simp only [execPartClear, Nat.not_le_of_lt hp, hstate, if_false]

/-- A command that works on the array, writes fields of TH_PART_STAT and enters a state that is neither RUNNING nor FAULTED. -/
theorem completes_entered {c : Instr} {t u : State} {st : Nat} {fs : List (Fld × Nat)} (hexec : exec c s = .next (t.partEnter p st))
    (hth : ThAlone s u) (hregs : RegsAlone u t) (hwrote : Wrote s t (partStatWrites p fs))
    (hfs : fs.all (fun e => partStatField e.1) = true) (hne : s.partState p ≠ st) (hrun : st ≠ partRunning) (hfault : st ≠ partFaulted) :
    Completes c s fun t => t.th = u.th ∧
      SetsFields s t (Reg.TH_PART_STAT.addr p 0) (fs ++ [(Reg.TH_PART_STAT_STATE, st)]) ∧
      SetsFields s t (Reg.TH_STATUS.addr 0 0) [(Reg.TH_STATUS_RUNNING, putBit (s.getF Reg.TH_STATUS_RUNNING) p false),
        (Reg.TH_STATUS_FAULTED, putBit (s.getF Reg.TH_STATUS_FAULTED) p false)] ∧
      Raises s t 5 [1] ∧
      OnlyRegs s t [Reg.TH_PART_STAT.addr p 0, Reg.TH_STATUS.addr 0 0, Reg.SYS_IRQ_CAUSE.addr 5 0] ∧
      t = { s with regs := t.regs, th := t.th } := by
  obtain ⟨hstat, hstatus, hraises, honly⟩ := hwrote.entered hfs hne hrun hfault
  obtain ⟨hu, hframe⟩ := hth.entered hregs (p := p) (st := st)
  exact ⟨_, hexec, hu, hstat, hstatus, hraises, honly, hframe⟩

/-- A command that is not for the present state (R163). -/
theorem completes_busy {c : Instr} (hs : s.canonical = true) (hexec : exec c s = .next (s.partBusy p)) :
    Completes c s fun t => SetsField s t Reg.TH_PART_STAT_ERROR p 8 ∧ OnlyRegs s t [Reg.TH_PART_STAT.addr p 0] ∧
      t = { s with regs := t.regs } :=
  ⟨_, hexec, State.partError_shown hs⟩

/-- The end of a good load leaves the array, the code area and its poison as R167 and R197 have it. -/
theorem State.loaded_frame (hs : s.canonical = true) (g : Prog) :
    ∃ poison, ((s.setPart p (s.loadedPart p g)).stackWrite (codeArea p) g.code).prepare p =
        { s with th := ((s.setPart p (s.loadedPart p g)).prepare p).th, mem := Sparse.fill 0#8 s.mem (codeArea p) g.code,
                 poison := poison } ∧
      (((s.setPart p (s.loadedPart p g)).stackWrite (codeArea p) g.code).prepare p).canonical = true := by
  obtain ⟨halone, hcanon⟩ := State.stackWrite_beyond (bs := g.code) (s := s.setPart p (s.loadedPart p g)) (addr := codeArea p) hs
    (by simp only [codeArea, contexts, areaSize]; omega)
  generalize (s.setPart p (s.loadedPart p g)).stackWrite (codeArea p) g.code = w at halone hcanon
  generalize w.poison = poison at halone
  subst halone
  have hprepared := State.prepare_withStack (s := s.setPart p (s.loadedPart p g)) (p := p) (poison := poison)
    (m := Sparse.fill 0#8 s.mem (codeArea p) g.code)
  exact ⟨poison, hprepared, hprepared ▸ hcanon⟩

end

/-- Settles O34: in the states listed each command works on the array and shows the state that it enters; in others it shows its code. -/
theorem partitionCommands : Obligations.PartitionCommands := by
  unfold Obligations.PartitionCommands
  refine ⟨?load, ?loadDisabled, ?loadBusy, ?loaded, ?loadFailed, ?startReady, ?startStopped, ?startBusy, ?stopRunning, ?stopReady,
    ?stopLoading, ?stopBusy, ?unload, ?unloadBusy, ?clear, ?clearBusy⟩
  case load =>
    intro s p r q hs hp hstate hen hq hr hsigned
    subst hq hr
    have hth : ThAlone s ((s.wipeCores (s.part p).cores).setPart p { s.loadWords p with
        load := some (s.progCheck (s.loadWords p) (s.loadImage p) (s.getF Reg.TH_PART_LEN p)) }) := State.thAlone_wipeCores.setPart
    exact completes_entered (fs := [(Reg.TH_PART_STAT_CORES, _), (Reg.TH_PART_STAT_SUSPENDED, 0)])
      (exec_partLoad_accepted hp hstate hen hsigned) hth (.setF <| .setF .refl) (hth.wrote (.refl hs)).setF.setF rfl
      (by rcases hstate with h | h | h | h <;> simp [h]) (by decide) (by decide)
  case loadDisabled =>
    intro s p hs hp hstate hen
    exact ⟨_, exec_partLoad_disabled hp hstate hen, State.partError_shown hs⟩
  case loadBusy =>
    intro s p hs hp hstate
    exact completes_busy hs (exec_partLoad_busy hp hstate)
  case loaded =>
    intro s p code g hs hp hstate hload
    obtain ⟨poison, hloaded, hcanon⟩ := State.loaded_frame (p := p) hs g
    have hexec := exec_partLoadComplete_good hstate hload
    rw [hloaded] at hexec hcanon
    have hwrote : Wrote s _ [] := ⟨hcanon, fun _ => rfl⟩
    obtain ⟨hstat, hstatus, hraises, honly⟩ := Wrote.entered (fs := [(Reg.TH_PART_STAT_ERROR, code)]) (st := partReady) (p := p)
      hwrote.setF rfl (by simp [hstate]) (by decide) (by decide)
    obtain ⟨hth, hmem, hframe⟩ := RegsAlone.thenStack (RegsAlone.partEnter (p := p) (st := partReady) (.setF .refl))
    exact ⟨_, hexec, hth, hmem, hstat, hstatus, hraises, honly, hframe⟩
  case loadFailed =>
    intro s p code hs hp hstate hload
    have hth : ThAlone s ((s.wipeCores (s.part p).cores).setPart p { s.part p with load := none }) := State.thAlone_wipeCores.setPart
    exact completes_entered (fs := [(Reg.TH_PART_STAT_ERROR, code)]) (exec_partLoadComplete_failed hstate hload) hth (.setF .refl)
      (hth.wrote (.refl hs)).setF rfl (by simp [hstate]) (by decide) (by decide)
  case startReady =>
    intro s p hs hp hstate
    exact completes_of_eq (exec_partStart_ready hp hstate) rfl
  case startStopped =>
    intro s p hs hp hstate
    have hth : ThAlone s ((s.prepare p).setPart p { s.part p with start := true, restartAt := none }) := State.thAlone_prepare.setPart
    have hwrote := (hth.wrote (.refl hs)).setF (f := Reg.TH_PART_STAT_SUSPENDED) (i := p) (v := 0)
    obtain ⟨hu, hframe⟩ := hth.thenRegs (u := State.setF _ Reg.TH_PART_STAT_SUSPENDED 0 p) (.setF .refl)
    exact ⟨_, exec_partStart_stopped hp hstate, hu, hwrote.setsField (writesAt_cons_same (Nat.le_refl _) (Nat.le_refl _)),
      hwrote.only (by simp [Fld.addr]), hframe⟩
  case startBusy =>
    intro s p hs hp hstate
    exact completes_busy hs (exec_partStart_busy hp hstate)
  case stopRunning =>
    intro s p hs hp hstate
    exact completes_entered (fs := []) (exec_partStop_running hp hstate) State.thAlone_haltPart .refl
      (State.thAlone_haltPart.wrote (.refl hs)) rfl (by simp [hstate]) (by decide) (by decide)
  case stopReady =>
    intro s p hs hp hstate
    have hth : ThAlone s (s.setPart p { s.part p with start := false }) := ThAlone.refl.setPart
    exact completes_entered (fs := []) (exec_partStop_ready hp hstate) hth .refl (hth.wrote (.refl hs)) rfl (by simp [hstate]) (by decide)
      (by decide)
  case stopLoading =>
    intro s p hs hp hstate
    have hth : ThAlone s ((s.wipeCores (s.part p).cores).setPart p { s.part p with load := none }) := State.thAlone_wipeCores.setPart
    exact completes_entered (fs := []) (exec_partStop_loading hp hstate) hth .refl (hth.wrote (.refl hs)) rfl (by simp [hstate]) (by decide)
      (by decide)
  case stopBusy =>
    intro s p hs hp hstate
    exact completes_busy hs (exec_partStop_busy hp hstate)
  case unload =>
    intro s p hs hp hstate
    have hth : ThAlone s ((s.wipeCores (s.part p).cores).setPart p { words := (s.part p).words, restarts := (s.part p).restarts }) :=
      State.thAlone_wipeCores.setPart
    exact completes_entered (fs := [(Reg.TH_PART_STAT_SUSPENDED, 0)]) (exec_partUnload_listed hp hstate) hth (.setF .refl)
      (hth.wrote (.refl hs)).setF rfl (by rcases hstate with h | h | h <;> simp [h]) (by decide) (by decide)
  case unloadBusy =>
    intro s p hs hp hstate
    exact completes_busy hs (exec_partUnload_busy hp hstate)
  case clear =>
    intro s p hs hp hstate
    obtain ⟨hstat, hstatus, hraises, honly⟩ := Wrote.entered (fs := [(Reg.TH_PART_STAT_ERROR, 0)]) (st := partStopped) (p := p)
      (Wrote.refl hs).setF rfl (by simp [hstate]) (by decide) (by decide)
    exact ⟨_, exec_partClear_faulted hp hstate, hstat, hstatus, hraises, honly,
      RegsAlone.partEnter (.setF .refl)⟩
  case clearBusy =>
    intro s p hs hp hstate
    exact completes_busy hs (exec_partClear_busy hp hstate)

end Sys2Proof.Machine
end

section

/-!
PROOFS. The voltage-frequency sequencer (17 R406, R410 to R412): what a plan begins, and the fields that it writes.
-/

namespace Sys2Proof.Machine

/-! ## Fields of a word, written again -/

section
variable {f : Fld} {w : Word} {x y : Nat}

/-- Above and below a replaced field the word stays. -/
theorem Fld.into_outside (h : f.lo + f.w ≤ 32) :
    (f.into w x).toNat / 2 ^ (f.lo + f.w) = w.toNat / 2 ^ (f.lo + f.w) ∧ (f.into w x).toNat % 2 ^ f.lo = w.toNat % 2 ^ f.lo := by
  have hx : x % 2 ^ f.w + 1 ≤ 2 ^ f.w := Nat.mod_lt _ (Nat.two_pow_pos _)
  have hl : w.toNat % 2 ^ f.lo < 2 ^ f.lo := Nat.mod_lt _ (Nat.two_pow_pos _)
  have hfield : x % 2 ^ f.w * 2 ^ f.lo + w.toNat % 2 ^ f.lo < 2 ^ (f.lo + f.w) := by
    have hmul := Nat.mul_le_mul_right (2 ^ f.lo) hx
    rw [Nat.pow_add, Nat.mul_comm (2 ^ f.lo)]
    rw [Nat.add_mul, Nat.one_mul] at hmul
    omega
  rw [Fld.into_toNat f w x h, Nat.add_assoc]
  refine ⟨?_, ?_⟩
  · rw [Nat.add_comm, Nat.add_mul_div_right _ _ (Nat.two_pow_pos _), Nat.div_eq_of_lt hfield, Nat.zero_add]
  · rw [Nat.pow_add, Nat.mul_left_comm, ← Nat.add_assoc, Nat.mul_comm (x % 2 ^ f.w), ← Nat.mul_add, Nat.mul_add_mod, Nat.mod_mod]

/-- Of two writes of a field the second stands. -/
theorem Fld.into_into (h : f.lo + f.w ≤ 32) : f.into (f.into w x) y = f.into w y := by
  obtain ⟨habove, hbelow⟩ := Fld.into_outside (w := w) (x := x) h
  apply BitVec.eq_of_toNat_eq
  rw [Fld.into_toNat _ _ _ h, habove, hbelow, Fld.into_toNat _ _ _ h]

/-- A write of what the field holds changes nothing. -/
theorem Fld.into_of_eq (h : f.lo + f.w ≤ 32) (hx : x % 2 ^ f.w = f.of w) : f.into w x = w := by
  apply BitVec.eq_of_toNat_eq
  rw [Fld.into_toNat _ _ _ h, hx, Fld.of, bitsOf, Nat.pow_add, ← Nat.div_div_eq_div_mul, ← Nat.mul_assoc, Nat.mul_comm _ (2 ^ f.lo),
    Nat.mul_assoc, Nat.mul_comm (w.toNat / 2 ^ f.lo % 2 ^ f.w), ← Nat.mul_add, Nat.mul_comm _ (2 ^ f.w), Nat.div_add_mod, Nat.div_add_mod]

end

/-! ## What a plan does -/

section
variable {s t : State} {d k now ns : Nat} {ws : List (Fld × Nat × Nat)}

theorem State.dvfsPlan_stopped (hruns : s.dieRuns d = false) : s.dvfsPlan d now = s := by
  simp [State.dvfsPlan, hruns]

theorem State.dvfsPlan_waits (hruns : s.dieRuns d = true) (hstep : s.getF Reg.PWR_DVFS_STAT_STEP d ≠ 0) :
    s.dvfsPlan d now = s.setF Reg.TH_DIE_STATUS_OPP_BUSY 1 d := by
  simp [State.dvfsPlan, hruns, hstep]

theorem State.dvfsPlan_down (hruns : s.dieRuns d = true) (hstep : s.getF Reg.PWR_DVFS_STAT_STEP d = 0)
    (hdown : s.dieGoal d < s.getF Reg.PWR_DVFS_STAT_F_OP d) :
    s.dvfsPlan d now = (s.setF Reg.PWR_DVFS_STAT_TARGET (s.dieGoal d) d).dvfsBegin d 1 now 2000 := by
  simp [State.dvfsPlan, hruns, hstep, hdown]

/-- The supply moves up by 100 mV a point. -/
theorem State.dvfsPlan_voltageUp (hruns : s.dieRuns d = true) (hstep : s.getF Reg.PWR_DVFS_STAT_STEP d = 0)
    (hdown : s.getF Reg.PWR_DVFS_STAT_F_OP d ≤ s.dieGoal d) (hup : s.getF Reg.PWR_DVFS_STAT_V_OP d < s.dieGoal d) :
    s.dvfsPlan d now = (s.setF Reg.PWR_DVFS_STAT_TARGET (s.dieGoal d) d).dvfsBegin d 2 now
      (100 * (s.dieGoal d - s.getF Reg.PWR_DVFS_STAT_V_OP d) * 100 + 10000) := by
  have hrise : oppMv (s.getF Reg.PWR_DVFS_STAT_V_OP d) < oppMv (s.dieGoal d) := by simp only [oppMv]; omega
  have hmv : oppMv (s.dieGoal d) - oppMv (s.getF Reg.PWR_DVFS_STAT_V_OP d) = 100 * (s.dieGoal d - s.getF Reg.PWR_DVFS_STAT_V_OP d) := by
    simp only [oppMv]
    omega
  simp only [State.dvfsPlan, hruns, hstep, Nat.not_lt_of_le hdown, (Nat.ne_of_lt hup).symm, hrise, hmv, Bool.not_true, Bool.false_eq_true,
    ne_eq, not_true_eq_false, not_false_eq_true, if_false, if_true]

theorem State.dvfsPlan_up (hruns : s.dieRuns d = true) (hstep : s.getF Reg.PWR_DVFS_STAT_STEP d = 0)
    (hvolt : s.getF Reg.PWR_DVFS_STAT_V_OP d = s.dieGoal d) (hup : s.getF Reg.PWR_DVFS_STAT_F_OP d < s.dieGoal d) :
    s.dvfsPlan d now = (s.setF Reg.PWR_DVFS_STAT_TARGET (s.dieGoal d) d).dvfsBegin d 3 now 2000 := by
  simp [State.dvfsPlan, hruns, hstep, Nat.not_lt_of_lt hup, hvolt, hup]

theorem State.dvfsPlan_reached (hruns : s.dieRuns d = true) (hstep : s.getF Reg.PWR_DVFS_STAT_STEP d = 0)
    (hvolt : s.getF Reg.PWR_DVFS_STAT_V_OP d = s.dieGoal d) (hfreq : s.getF Reg.PWR_DVFS_STAT_F_OP d = s.dieGoal d) :
    s.dvfsPlan d now = (((s.setF Reg.PWR_DVFS_STAT_TARGET (s.dieGoal d) d).setF Reg.TH_DIE_STATUS_OPP (s.dieGoal d) d).setF
      Reg.TH_DIE_STATUS_OPP_BUSY 0 d).causeIf (s.isF Reg.TH_DIE_STATUS_OPP_BUSY d) 12 3 := by
  simp [State.dvfsPlan, hruns, hstep, hvolt, hfreq]

/-- The step of die `d` ends at `x`. -/
def State.stepsUntil (s : State) (d x : Nat) : State := { s with pwr := { s.pwr with stepEnd := Sparse.upd 0 s.pwr.stepEnd d x } }

theorem State.dvfsBegin_eq :
    s.dvfsBegin d k now ns = ((s.setF Reg.PWR_DVFS_STAT_STEP k d).setF Reg.TH_DIE_STATUS_OPP_BUSY 1 d).stepsUntil d (now + ns) := rfl

theorem State.stepsUntil_pwr {x : Nat} :
    (s.stepsUntil d x).pwr = { s.pwr with stepEnd := Sparse.upd 0 s.pwr.stepEnd d x } := rfl

theorem State.stepsUntil_hostWrite {x : Nat} : (s.stepsUntil d x).hostWrite = s.hostWrite := rfl

theorem State.dvfsBegin_pwr : (s.dvfsBegin d k now ns).pwr = { s.pwr with stepEnd := Sparse.upd 0 s.pwr.stepEnd d (now + ns) } := by
  rw [State.dvfsBegin_eq, State.stepsUntil_pwr, State.setF_pwr, State.setF_pwr]

theorem State.dvfsBegin_hostWrite : (s.dvfsBegin d k now ns).hostWrite = s.hostWrite := by
  rw [State.dvfsBegin_eq, State.stepsUntil_hostWrite, State.setF_hostWrite, State.setF_hostWrite]

theorem Wrote.stepEnd {x : Sparse Nat} (h : Wrote s t ws) : Wrote s { t with pwr := { t.pwr with stepEnd := x } } ws := h.frame

theorem Writes.stepEnd {as : List Nat} {x : Sparse Nat} (h : Writes s t as) :
    Writes s { t with pwr := { t.pwr with stepEnd := x } } as := h.frame

theorem Wrote.dvfsBegin (h : Wrote s t ws) :
    Wrote s (t.dvfsBegin d k now ns) (ws ++ [(Reg.PWR_DVFS_STAT_STEP, d, k), (Reg.TH_DIE_STATUS_OPP_BUSY, d, 1)]) := by
  have hwrote := (h.setF (f := Reg.PWR_DVFS_STAT_STEP) (i := d) (v := k)).setF (f := Reg.TH_DIE_STATUS_OPP_BUSY) (i := d) (v := 1)
  rw [List.append_assoc] at hwrote
  exact hwrote.stepEnd

/-- What a plan may write. -/
def dvfsRegs (d : Nat) : List Nat := [Reg.PWR_DVFS_STAT.addr d 0, Reg.TH_DIE_STATUS.addr d 0, Reg.SYS_IRQ_CAUSE.addr 12 0]

/-- From `s` to `t` registers and the sequencer's instants alone change. -/
def StepAlone (s t : State) : Prop := t = { s with regs := t.regs, pwr := { s.pwr with stepEnd := t.pwr.stepEnd } }

theorem StepAlone.refl : StepAlone s s := rfl

theorem StepAlone.setF {f : Fld} {v i j : Nat} (h : StepAlone s t) : StepAlone s (t.setF f v i j) := by
  unfold StepAlone at h
  generalize t.regs = regs at h
  generalize t.pwr.stepEnd = stepEnd at h
  subst h
  rfl

theorem StepAlone.stepEnd {x : Sparse Nat} (h : StepAlone s t) : StepAlone s { t with pwr := { t.pwr with stepEnd := x } } := by
  unfold StepAlone at h
  generalize t.regs = regs at h
  generalize t.pwr.stepEnd = stepEnd at h
  subst h
  rfl

theorem StepAlone.dvfsBegin (h : StepAlone s t) : StepAlone s (t.dvfsBegin d k now ns) := .stepEnd <| .setF <| .setF h

theorem StepAlone.ite {c : Prop} {_ : Decidable c} {u : State} (ht : StepAlone s t) (hu : StepAlone s u) :
    StepAlone s (if c then t else u) := by
  split
  · exact ht
  · exact hu

theorem State.stepAlone_dvfsPlan : StepAlone s (s.dvfsPlan d now) :=
  .ite .refl <| .ite (.setF .refl) <| .ite (.dvfsBegin <| .setF .refl) <| .ite (.dvfsBegin <| .setF .refl) <|
    .ite (.dvfsBegin <| .setF .refl) <| .ite (.setF <| .setF <| .setF <| .setF .refl) <| .setF <| .setF <| .setF .refl

theorem Writes.dvfsBegin (h : Writes s t (dvfsRegs d)) : Writes s (t.dvfsBegin d k now ns) (dvfsRegs d) := by
  have hstep : Writes s (t.setF Reg.PWR_DVFS_STAT_STEP k d) (dvfsRegs d) := h.setF (by simp [dvfsRegs, Fld.addr])
  have hbusy := hstep.setF (f := Reg.TH_DIE_STATUS_OPP_BUSY) (v := 1) (i := d) (j := 0) (by simp [dvfsRegs, Fld.addr])
  exact hbusy.stepEnd

theorem State.writes_dvfsPlan (hs : s.canonical = true) : Writes s (s.dvfsPlan d now) (dvfsRegs d) := by
  have htarget : Writes s (s.setF Reg.PWR_DVFS_STAT_TARGET (s.dieGoal d) d) (dvfsRegs d) :=
    (Writes.refl hs).setF (by simp [dvfsRegs, Fld.addr])
  have hopp : Writes s ((s.setF Reg.PWR_DVFS_STAT_TARGET (s.dieGoal d) d).setF Reg.TH_DIE_STATUS_OPP (s.dieGoal d) d) (dvfsRegs d) :=
    htarget.setF (by simp [dvfsRegs, Fld.addr])
  refine .ite (.refl hs) <| .ite ((Writes.refl hs).setF ?_) <| .ite htarget.dvfsBegin <| .ite htarget.dvfsBegin <|
    .ite htarget.dvfsBegin <| .causeIf (hopp.setF ?_) ?_ <;> simp [dvfsRegs, Fld.addr]

end

end Sys2Proof.Machine
end

section

/-!
PROOFS. A write of TH_DIE_OPP (17 R406, R410): the access is carried out, its register takes the point, and the sequencer plans.
-/

namespace Sys2Proof.Machine

section
variable {s : State} {path d opp now v : Nat}

/-! ## The register and its row -/

/-- The row of TH_DIE_OPP: two bits of code RW. -/
def dieOppRow : RegRow := ⟨0x1010004, 16777216, 2, 4, 1, 0x3, 0x0, 0x0, 0x0, false, 0⟩

theorem regRow?_dieOpp (hd : d < 2) : regRow? (Reg.TH_DIE_OPP.addr d 0) = some dieOppRow := by
  rcases (by omega : d = 0 ∨ d = 1) with rfl | rfl <;> decide +kernel

theorem isCommand_dieOpp (hd : d < 2) : isCommand (Reg.TH_DIE_OPP.addr d 0) = false := by
  rcases (by omega : d = 0 ∨ d = 1) with rfl | rfl <;> decide +kernel

theorem blockDomain_dieOpp (hd : d < 2) : (blockDomain (Reg.TH_DIE_OPP.addr d 0)).isNone = false := by
  rcases (by omega : d = 0 ∨ d = 1) with rfl | rfl <;> decide +kernel

theorem windowOf_dieOpp (hd : d < 2) : windowOf (Reg.TH_DIE_OPP.addr d 0) = none := by
  rcases (by omega : d = 0 ∨ d = 1) with rfl | rfl <;> decide +kernel

theorem orderOf_dieOpp (hd : d < 2) : orderOf (Reg.TH_DIE_OPP.addr d 0) v = none := by
  rcases (by omega : d = 0 ∨ d = 1) with rfl | rfl <;> rfl

theorem pairRole_dieOpp (hd : d < 2) : pairRole (Reg.TH_DIE_OPP.addr d 0) = 0 := by
  rw [pairRole, regRow?_dieOpp hd]
  rfl

/-- Nothing but a layer refuses a write of TH_DIE_OPP. -/
theorem State.takesWrite_dieOpp (hd : d < 2) :
    s.laneChangeRefused (Reg.TH_DIE_OPP.addr d 0) v = false ∧ s.gridRefused (Reg.TH_DIE_OPP.addr d 0) = false ∧
      s.partRefused (Reg.TH_DIE_OPP.addr d 0) = false ∧ s.bankRefused (Reg.TH_DIE_OPP.addr d 0) = none ∧
      s.logicBanks (Reg.TH_DIE_OPP.addr d 0) = 0 := by
  have hlow : 0x1010004 ≤ Reg.TH_DIE_OPP.addr d 0 := by simp only [Fld.addr]; omega
  refine ⟨?lane, ?grid, ?part, ?bank, ?logic⟩
  case lane => simp [State.laneChangeRefused, show ¬ Reg.TH_DIE_OPP.addr d 0 < 0x5D000 by omega]
  case grid =>
    have hper : ∀ c, c < 4 → Reg.TH_DIE_OPP.addr d 0 ≠ Reg.PWM_CONV_PERIOD.addr c 0 := fun c hc => by simp only [Fld.addr]; omega
    have hlane : ∀ n, n < 48 → Reg.TH_DIE_OPP.addr d 0 ≠ Reg.PWM_LANE_OFS.addr n 0 ∧
        Reg.TH_DIE_OPP.addr d 0 ≠ Reg.PWM_LANE_PERIOD.addr n 0 := fun n hn => by simp only [Fld.addr]; omega
    simp only [State.gridRefused, Bool.or_eq_false_iff, List.any_eq_false, List.mem_range]
    exact ⟨fun c hc => by simp [hper c hc], fun n hn => by simp [hlane n hn]⟩
  case part => simp [State.partRefused, show ¬ Reg.TH_DIE_OPP.addr d 0 < 0x1002000 by omega]
  case bank => simp [State.bankRefused, show ¬ Reg.TH_DIE_OPP.addr d 0 < 0x5D000 by omega]
  case logic => exact if_neg (by simp [Fld.addr]; omega)

/-! ## The write -/

/-- A state with another write of the host remembered (R7). -/
def State.withHost (s : State) (h : Option (Nat × Nat × Nat)) : State := { s with hostWrite := h }

/-- A request of a point for die `d` has reached TH_DIE_OPP. -/
def State.oppRequested (s : State) (path d opp now : Nat) : State :=
  (s.withHost (if pathOwner path = 0x40 then some (Reg.TH_DIE_OPP.addr d 0, opp % 2 ^ 32, now) else none)).setF Reg.TH_DIE_OPP_OPP opp d

/-- A word under a mask of its two low bits takes those bits. -/
theorem maskInto_three {old : Word} : BitVec.ofNat 32 (maskInto old.toNat 3 (opp % 2 ^ 32)) = Reg.TH_DIE_OPP_OPP.into old opp := by
  have hand : ∀ n : Nat, n &&& 3 = n % 4 := fun n => Nat.and_two_pow_sub_one_eq_mod n 2
  simp [maskInto, hand, Fld.into, bitsOf]

theorem State.wordAfter_dieOpp (hd : d < 2) (hlayer : s.layerBits (Reg.TH_DIE_OPP.addr d 0) = 0) :
    BitVec.ofNat 32 (s.wordAfter dieOppRow (Reg.TH_DIE_OPP.addr d 0) (opp % 2 ^ 32)) =
      Reg.TH_DIE_OPP_OPP.into (s.rd (Reg.TH_DIE_OPP.addr d 0)) opp := by
  obtain ⟨-, -, -, -, hlogic⟩ := State.takesWrite_dieOpp (s := s) (v := 0) hd
  have hwritable : s.writable dieOppRow (Reg.TH_DIE_OPP.addr d 0) = 3 := by
    simp [State.writable, dieOppRow, hlayer, hlogic]
  rw [State.wordAfter, hwritable, regShape, regRow?_dieOpp hd]
  simp only [dieOppRow, Nat.and_zero, Nat.sub_zero, Bool.false_eq_true, if_false]
  exact maskInto_three

/-- What follows a write of TH_DIE_OPP is the sequencer's plan. -/
theorem State.wordWritten_dieOpp (hd : d < 2) : s.wordWritten (Reg.TH_DIE_OPP.addr d 0) v now = s.dvfsPlan d now := by
  have hchanged : s.settingChanged (Reg.TH_DIE_OPP.addr d 0) now = s.dvfsPlan d now := by
    rcases (by omega : d = 0 ∨ d = 1) with rfl | rfl <;> simp [State.settingChanged, Fld.addr]
  have hlow : 0x1010004 ≤ Reg.TH_DIE_OPP.addr d 0 := by simp only [Fld.addr]; omega
  have hds : Reg.TH_DIE_OPP.addr d 0 ≠ Reg.SNS_FAULT_DS.addr 0 0 := by simp only [Fld.addr]; omega
  have hoth : Reg.TH_DIE_OPP.addr d 0 ≠ Reg.SNS_FAULT_OTH.addr 0 0 := by simp only [Fld.addr]; omega
  have htile : ¬ Reg.TH_DIE_OPP.addr d 0 < 0x5D000 := by omega
  have hirq : ¬ Reg.TH_DIE_OPP.addr d 0 < 0x10000 := by omega
  simp only [State.wordWritten, hchanged, orderOf_dieOpp hd, hds, hoth, htile, hirq, decide_false, Bool.or_self, Bool.and_false,
    Bool.false_and, Option.isSome_none, Bool.false_eq_true, if_false]

theorem State.plainWrite_dieOpp (hd : d < 2) (hhost : s.hostWrite = none) (hlayer : s.layerBits (Reg.TH_DIE_OPP.addr d 0) = 0) :
    s.plainWrite path (Reg.TH_DIE_OPP.addr d 0) (opp % 2 ^ 32) now dieOppRow = (s.oppRequested path d opp now).dvfsPlan d now := by
  have hcycle : s.sameCycle path (Reg.TH_DIE_OPP.addr d 0) (opp % 2 ^ 32) now dieOppRow = opp % 2 ^ 32 := by
    simp only [State.sameCycle, hhost]
  have hkept : (if pathOwner path = 0x40 then { s with hostWrite := some (Reg.TH_DIE_OPP.addr d 0, opp % 2 ^ 32, now) } else s : State) =
      s.withHost (if pathOwner path = 0x40 then some (Reg.TH_DIE_OPP.addr d 0, opp % 2 ^ 32, now) else none) := by
    split
    · rfl
    · rw [← hhost]
      rfl
  have hhigh : ¬ Reg.TH_DIE_OPP.addr d 0 < 0x80000 := by simp only [Fld.addr]; omega
  simp only [State.plainWrite, hcycle, hkept, State.oppRequested]
  generalize (if pathOwner path = 0x40 then some (Reg.TH_DIE_OPP.addr d 0, opp % 2 ^ 32, now) else none) = host
  have hlayerHost : (s.withHost host).layerBits (Reg.TH_DIE_OPP.addr d 0) = 0 := hlayer
  generalize s.withHost host = u at hlayerHost
  have hrwl : dieOppRow.rwl = 0 := rfl
  simp only [hrwl, hhigh, hlayerHost, Nat.zero_and, decide_false, ne_eq, not_true_eq_false, Bool.false_and, Bool.and_false,
    Bool.false_eq_true, if_false, State.wordAfter_dieOpp hd hlayerHost, State.wordWritten_dieOpp hd]
  rfl

theorem State.wordWrite_dieOpp (hd : d < 2) (hhost : s.hostWrite = none) (hlayer : s.layerBits (Reg.TH_DIE_OPP.addr d 0) = 0) :
    s.wordWrite path (Reg.TH_DIE_OPP.addr d 0) (opp % 2 ^ 32) now = (s.oppRequested path d opp now).dvfsPlan d now := by
  obtain ⟨hlane, hgrid, hpart, hbank, -⟩ := State.takesWrite_dieOpp (s := s) (v := opp % 2 ^ 32) hd
  have hpin : ¬ Reg.TH_DIE_OPP.addr d 0 < 0x1080 := by simp only [Fld.addr]; omega
  have htimer : ¬ Reg.TH_DIE_OPP.addr d 0 < 0x5F900 := by simp only [Fld.addr]; omega
  have hring : ¬ Reg.TH_DIE_OPP.addr d 0 < 0x101800 := by simp only [Fld.addr]; omega
  have hctr : Reg.TH_DIE_OPP.addr d 0 ≠ Reg.PWM_CTR.addr 0 0 := by simp only [Fld.addr]; omega
  have htrip : Reg.TH_DIE_OPP.addr d 0 ≠ Reg.PWM_GRP_TRIP.addr 0 0 := by simp only [Fld.addr]; omega
  simp only [State.wordWrite, pairRole_dieOpp hd, State.regWrite, regRow?_dieOpp hd, hpin, htimer, hring, hctr, htrip,
    isCommand_dieOpp hd, hlayer, hlane, hgrid, hpart, orderOf_dieOpp hd, hbank, decide_false, Bool.and_false, Bool.or_self,
    Bool.false_eq_true, ne_eq, not_true_eq_false, if_false]
  exact State.plainWrite_dieOpp hd hhost hlayer

/-! ## The access -/

theorem dieOpp_aligned : Reg.TH_DIE_OPP.addr d 0 % accessBytes 4 = 0 := by
  show Reg.TH_DIE_OPP.addr d 0 % 4 = 0
  simp only [Fld.addr]
  omega

theorem exec_dieOppRequest_access (hd : d < 2) (hreaches : s.reaches path = true) :
    exec (.dieOppRequest path d opp now) s = .next
      (if s.free? path (Reg.TH_DIE_OPP.addr d 0) then s.wordWrite path (Reg.TH_DIE_OPP.addr d 0) (opp % 2 ^ 32) now
        else { s with waiting := s.waiting ++ [⟨path, true, Reg.TH_DIE_OPP.addr d 0, opp % 2 ^ 32, 4⟩] }) := by
  show execDieOppRequest path d opp now s = _
  simp only [execDieOppRequest, hd, if_true, State.access, hreaches, dieOpp_aligned, blockDomain_dieOpp hd, State.carryOut,
    windowOf_dieOpp hd, Nat.lt_irrefl, decide_false, Bool.and_false, Bool.not_true, Bool.false_eq_true, ne_eq, not_true_eq_false, if_false]

/-- A request that its path carries now reaches TH_DIE_OPP, and the sequencer plans. -/
theorem exec_dieOppRequest_carried (hd : d < 2) (hcarries : s.carries path (Reg.TH_DIE_OPP.addr d 0) = true)
    (hhost : s.hostWrite = none) (hlayer : s.layerBits (Reg.TH_DIE_OPP.addr d 0) = 0) :
    exec (.dieOppRequest path d opp now) s = .next ((s.oppRequested path d opp now).dvfsPlan d now) := by
  simp only [State.carries, Bool.and_eq_true, decide_eq_true_eq, Bool.not_eq_true'] at hcarries
  obtain ⟨⟨⟨⟨⟨hpath, hdecodes⟩, -⟩, -⟩, hanswers⟩, hqueue⟩ := hcarries
  have hreaches : s.reaches path = true := by simpa [State.reaches, State.decodes, hpath] using hdecodes
  have hfree : s.free? path (Reg.TH_DIE_OPP.addr d 0) = true := by simp [State.free?, State.queued, hanswers, hqueue]
  rw [exec_dieOppRequest_access hd hreaches, if_pos hfree, State.wordWrite_dieOpp hd hhost hlayer]

theorem exec_dieOppRequest_ignored (h : 2 ≤ d ∨ s.reaches path = false) : exec (.dieOppRequest path d opp now) s = .next s := by
  show execDieOppRequest path d opp now s = _
  refine congrArg Host.Outcome.next ?_
  split
  · next hd => exact if_pos (by simp [h.resolve_left (Nat.not_le_of_lt hd)])
  · rfl

end

end Sys2Proof.Machine
end

section

/-!
PROOFS. What a request of an operating point begins (17 R406, R410, R411).
-/

namespace Sys2Proof.Machine

section
variable {s t : State} {path d opp now k ns g a : Nat} {f : Fld} {ws : List (Fld × Nat × Nat)}

/-! ## What the sequencer reads once the request stands -/

theorem State.wrote_oppRequested (hs : s.canonical = true) : Wrote s (s.oppRequested path d opp now) [(Reg.TH_DIE_OPP_OPP, d, opp)] :=
  Wrote.setF (t := s.withHost _) (ws := []) (Wrote.refl hs).frame

theorem State.oppRequested_frame : (s.oppRequested path d opp now).pwr = s.pwr ∧
    (s.oppRequested path d opp now).hostWrite =
      (if pathOwner path = 0x40 then some (Reg.TH_DIE_OPP.addr d 0, opp % 2 ^ 32, now) else none) ∧
    s.oppRequested path d opp now =
      { s with regs := (s.oppRequested path d opp now).regs, hostWrite := (s.oppRequested path d opp now).hostWrite } := ⟨rfl, rfl, rfl⟩

theorem StepAlone.requested {u : State} (hu : u = { s with regs := u.regs, hostWrite := u.hostWrite }) (h : StepAlone u t) :
    t = { s with regs := t.regs, pwr := t.pwr, hostWrite := t.hostWrite } := by
  unfold StepAlone at h
  generalize t.regs = regs at h
  generalize t.pwr.stepEnd = stepEnd at h
  generalize u.regs = uregs at hu
  generalize u.hostWrite = host at hu
  subst h hu
  rfl

theorem RegsAlone.requested {u : State} (hu : u = { s with regs := u.regs, hostWrite := u.hostWrite }) (h : RegsAlone u t) :
    t = { s with regs := t.regs, hostWrite := t.hostWrite } := by
  unfold RegsAlone at h
  generalize t.regs = regs at h
  generalize u.regs = uregs at hu
  generalize u.hostWrite = host at hu
  subst h hu
  rfl

theorem State.getF_oppRequested (hs : s.canonical = true) (hne : Reg.TH_DIE_OPP.addr d 0 ≠ f.addr d 0) :
    (s.oppRequested path d opp now).getF f d = s.getF f d :=
  (State.wrote_oppRequested hs).getF_same (writesAt_cons_other (Nat.lt_or_gt_of_ne hne))

/-- The domains that run are those before. -/
theorem Wrote.dieRuns (h : Wrote s t ws) (hd : d < 2) (hdom : writesAt (Reg.PWR_DOM_STATUS_LO.addr 0 0) ws = []) :
    t.dieRuns d = s.dieRuns d := by
  have hsame : t.rd (Reg.PWR_DOM_STATUS_LO_RUNS.addr 0 0) = s.rd (Reg.PWR_DOM_STATUS_LO_RUNS.addr 0 0) := h.rd hdom
  rw [State.dieRuns, State.dieRuns, State.runs_congr hsame (by omega), State.runs_congr hsame (by omega)]

theorem State.dieRuns_oppRequested (hs : s.canonical = true) (hd : d < 2) :
    (s.oppRequested path d opp now).dieRuns d = s.dieRuns d :=
  (State.wrote_oppRequested hs).dieRuns hd (writesAt_cons_other (by simp only [Fld.addr]; omega))

/-- A driving module works towards the point requested, under the thermal ceiling. -/
theorem State.dieGoal_oppRequested (hs : s.canonical = true) (hrun : s.getF Reg.PWR_STATUS_STATE = 0)
    (hdrives : s.getF Reg.TWN_STATUS_STATE ≠ 0) :
    (s.oppRequested path d opp now).dieGoal d = min (opp % 4) (3 - Sparse.at 0 s.pwr.lowered d) := by
  have hw := State.wrote_oppRequested (path := path) (d := d) (opp := opp) (now := now) hs
  have hstate : (s.oppRequested path d opp now).getF Reg.PWR_STATUS_STATE = 0 :=
    (hw.getF_same (writesAt_cons_other (by simp only [Fld.addr]; omega))).trans hrun
  have htwin : (s.oppRequested path d opp now).getF Reg.TWN_STATUS_STATE = s.getF Reg.TWN_STATUS_STATE :=
    hw.getF_same (writesAt_cons_other (by simp only [Fld.addr]; omega))
  have hopp : (s.oppRequested path d opp now).getF Reg.TH_DIE_OPP_OPP d = opp % 4 :=
    State.getF_setF (s := s.withHost _) hs _ _ _ _ (by decide)
  obtain ⟨hpwr, -⟩ := State.oppRequested_frame (s := s) (path := path) (d := d) (opp := opp) (now := now)
  simp only [State.dieGoal, hstate, htwin, hdrives, hopp, hpwr, decide_true, ne_eq, not_false_eq_true, Bool.and_self, if_true]

/-! ## What a request shows -/

/-- A request whose plan begins a step. -/
theorem completes_oppBegun (hs : s.canonical = true) (hexec : exec (.dieOppRequest path d opp now) s =
      .next (((s.oppRequested path d opp now).setF Reg.PWR_DVFS_STAT_TARGET g d).dvfsBegin d k now ns)) :
    Completes (.dieOppRequest path d opp now) s fun t => SetsField s t Reg.TH_DIE_OPP_OPP d opp ∧
      t.hostWrite = (if pathOwner path = 0x40 then some (Reg.TH_DIE_OPP.addr d 0, opp % 2 ^ 32, now) else none) ∧
      SetsFields s t (Reg.PWR_DVFS_STAT.addr d 0) [(Reg.PWR_DVFS_STAT_TARGET, g), (Reg.PWR_DVFS_STAT_STEP, k)] ∧
      SetsField s t Reg.TH_DIE_STATUS_OPP_BUSY d 1 ∧
      t.pwr = { s.pwr with stepEnd := Sparse.upd 0 s.pwr.stepEnd d (now + ns) } ∧
      OnlyRegs s t [Reg.TH_DIE_OPP.addr d 0, Reg.PWR_DVFS_STAT.addr d 0, Reg.TH_DIE_STATUS.addr d 0] ∧
      t = { s with regs := t.regs, pwr := t.pwr, hostWrite := t.hostWrite } := by
  have hw := ((State.wrote_oppRequested (path := path) (d := d) (opp := opp) (now := now) hs).setF
    (f := Reg.PWR_DVFS_STAT_TARGET) (i := d) (v := g)).dvfsBegin (d := d) (k := k) (now := now) (ns := ns)
  obtain ⟨hpwr, hhost, hframe⟩ := State.oppRequested_frame (s := s) (path := path) (d := d) (opp := opp) (now := now)
  refine ⟨_, hexec, hw.setsField ?_, by rw [State.dvfsBegin_hostWrite, State.setF_hostWrite, hhost], hw.setsFields ?_, hw.setsField ?_,
    by rw [State.dvfsBegin_pwr, State.setF_pwr, hpwr], hw.only (by simp [Fld.addr]), StepAlone.requested hframe (.dvfsBegin <| .setF .refl)⟩ <;>
    simp (disch := (simp only [Fld.addr]; omega)) only [List.cons_append, List.nil_append, writesAt_cons_other, writesAt_cons_same,
      writesAt_nil]

/-- A request that meets a step under way waits for it. -/
theorem completes_oppWaits (hs : s.canonical = true) (hexec : exec (.dieOppRequest path d opp now) s =
      .next ((s.oppRequested path d opp now).setF Reg.TH_DIE_STATUS_OPP_BUSY 1 d)) :
    Completes (.dieOppRequest path d opp now) s fun t => SetsField s t Reg.TH_DIE_OPP_OPP d opp ∧
      t.hostWrite = (if pathOwner path = 0x40 then some (Reg.TH_DIE_OPP.addr d 0, opp % 2 ^ 32, now) else none) ∧
      SetsField s t Reg.TH_DIE_STATUS_OPP_BUSY d 1 ∧
      OnlyRegs s t [Reg.TH_DIE_OPP.addr d 0, Reg.TH_DIE_STATUS.addr d 0] ∧
      t = { s with regs := t.regs, hostWrite := t.hostWrite } := by
  have hw := (State.wrote_oppRequested (path := path) (d := d) (opp := opp) (now := now) hs).setF
    (f := Reg.TH_DIE_STATUS_OPP_BUSY) (i := d) (v := 1)
  refine ⟨_, hexec, hw.setsField ?_, rfl, hw.setsField ?_, hw.only (by simp [Fld.addr]), RegsAlone.requested rfl (.setF .refl)⟩ <;>
    simp (disch := (simp only [Fld.addr]; omega)) only [List.cons_append, List.nil_append, writesAt_cons_other, writesAt_cons_same,
      writesAt_nil]

end

end Sys2Proof.Machine
end

section

/-!
PROOFS. The end of a sequencer's step (17 R410 to R412) and the thermal ceiling (R413).
-/

namespace Sys2Proof.Machine

section
variable {s t u a : State} {d now v x : Nat} {temp : Int} {f g : Fld} {w : Word} {ws : List (Fld × Nat × Nat)}

/-! ## The end of a step -/

/-- The goal of a die depends on the module's state, the request and the ceiling. -/
theorem Wrote.dieGoal (h : Wrote s t ws) (hlow : t.pwr.lowered = s.pwr.lowered)
    (hrun : writesAt (Reg.PWR_STATUS.addr 0 0) ws = []) (htwin : writesAt (Reg.TWN_STATUS.addr 0 0) ws = [])
    (hopp : writesAt (Reg.TH_DIE_OPP.addr d 0) ws = []) : t.dieGoal d = s.dieGoal d := by
  have hr : t.getF Reg.PWR_STATUS_STATE = s.getF Reg.PWR_STATUS_STATE := h.getF_same hrun
  have ht : t.getF Reg.TWN_STATUS_STATE = s.getF Reg.TWN_STATUS_STATE := h.getF_same htwin
  have ho : t.getF Reg.TH_DIE_OPP_OPP d = s.getF Reg.TH_DIE_OPP_OPP d := h.getF_same hopp
  simp only [State.dieGoal, hr, ht, ho, hlow]

/-- A step's end shows the point that it reached, in the voltage or the frequency, and no step. -/
def State.stepEnded (s : State) (f : Fld) (d : Nat) : State :=
  (s.setF f (s.getF Reg.PWR_DVFS_STAT_TARGET d) d).setF Reg.PWR_DVFS_STAT_STEP 0 d

/-- A field of PWR_DVFS_STAT that shows a point reached. -/
def pointField (f : Fld) : Bool := f = Reg.PWR_DVFS_STAT_V_OP || f = Reg.PWR_DVFS_STAT_F_OP

theorem pointField_iff : pointField f = true ↔ f = Reg.PWR_DVFS_STAT_V_OP ∨ f = Reg.PWR_DVFS_STAT_F_OP := by simp [pointField]

theorem State.wrote_stepEnded (hs : s.canonical = true) : Wrote s (s.stepEnded f d)
    [(f, d, s.getF Reg.PWR_DVFS_STAT_TARGET d), (Reg.PWR_DVFS_STAT_STEP, d, 0)] := (Wrote.refl hs).setF.setF

theorem State.stepEnded_pwr : (s.stepEnded f d).pwr = s.pwr := by
  rw [State.stepEnded, State.setF_pwr, State.setF_pwr]

theorem State.regsAlone_stepEnded : RegsAlone s (s.stepEnded f d) := .setF <| .setF .refl

/-- A plan that keeps the target changes nothing in its field. -/
theorem Fld.target_kept (hf : pointField f = true) :
    Reg.PWR_DVFS_STAT_TARGET.into (Reg.PWR_DVFS_STAT_STEP.into (f.into w v) 0) (Reg.PWR_DVFS_STAT_TARGET.of w) =
      Reg.PWR_DVFS_STAT_STEP.into (f.into w v) 0 := by
  refine Fld.into_of_eq (by decide) ?_
  rw [Nat.mod_eq_of_lt (Fld.of_lt _ _), Fld.of_into_ne _ _ _ _ (by decide) (by decide)]
  rcases pointField_iff.1 hf with rfl | rfl <;> exact (Fld.of_into_ne _ _ _ _ (by decide) (by decide)).symm

/-- What the sequencer plans on after a step's end. -/
theorem State.stepEnded_reads (hs : s.canonical = true) (hd : d < 2) (hf : pointField f = true) :
    (s.stepEnded f d).dieRuns d = s.dieRuns d ∧ (s.stepEnded f d).dieGoal d = s.dieGoal d ∧
      (s.stepEnded f d).getF Reg.PWR_DVFS_STAT_STEP d = 0 ∧
      (s.stepEnded f d).getF f d = s.getF Reg.PWR_DVFS_STAT_TARGET d ∧
      (s.stepEnded f d).isF Reg.TH_DIE_STATUS_OPP_BUSY d = s.isF Reg.TH_DIE_STATUS_OPP_BUSY d := by
  have hw := State.wrote_stepEnded (f := f) (d := d) hs
  have hlt : s.getF Reg.PWR_DVFS_STAT_TARGET d < 4 := Fld.of_lt _ _
  have haddr : f.addr d 0 = 0x20030 + 4 * d := by rcases pointField_iff.1 hf with rfl | rfl <;> rfl
  have hnone : ∀ x, x < 0x20030 ∨ 0x20038 ≤ x →
      writesAt x [(f, d, s.getF Reg.PWR_DVFS_STAT_TARGET d), (Reg.PWR_DVFS_STAT_STEP, d, 0)] = [] := by
    intro x hx
    rw [writesAt_cons_other (by omega), writesAt_cons_other (by simp only [Fld.addr]; omega), writesAt_nil]
  have hcanon : (s.setF f (s.getF Reg.PWR_DVFS_STAT_TARGET d) d).canonical = true := State.canonical_setF hs _ _ _ _
  refine ⟨hw.dieRuns hd (hnone _ (by simp [Fld.addr])),
    hw.dieGoal (by rw [State.stepEnded_pwr]) (hnone _ (by simp [Fld.addr])) (hnone _ (by simp [Fld.addr])) (hnone _ (by simp only [Fld.addr]; omega)), State.getF_setF hcanon _ _ _ _ (by decide), ?_, ?_⟩
  · rcases pointField_iff.1 hf with rfl | rfl <;>
      exact (State.getF_setF_ne hcanon _ _ _ _ _ _ _ (by decide) (.inr (by decide))).trans
        ((State.getF_setF hs _ _ _ _ (by decide)).trans (Nat.mod_eq_of_lt hlt))
  · have hbusy : (s.stepEnded f d).getF Reg.TH_DIE_STATUS_OPP_BUSY d = s.getF Reg.TH_DIE_STATUS_OPP_BUSY d :=
      hw.getF_same (hnone _ (by simp only [Fld.addr]; omega))
    rw [State.isF, hbusy, State.isF]

theorem exec_dvfsStepComplete_idle
    (h : 2 ≤ d ∨ s.getF Reg.PWR_DVFS_STAT_STEP d = 0 ∨ now < Sparse.at 0 s.pwr.stepEnd d) :
    exec (.dvfsStepComplete d now) s = .next s :=
  congrArg Host.Outcome.next (if_pos (by simpa [or_assoc] using h))

theorem exec_dvfsStepComplete_ended (hd : d < 2) (hstep : s.getF Reg.PWR_DVFS_STAT_STEP d ≠ 0)
    (hdue : Sparse.at 0 s.pwr.stepEnd d ≤ now) :
    exec (.dvfsStepComplete d now) s = .next ((s.stepEnded (if s.getF Reg.PWR_DVFS_STAT_STEP d = 2 then Reg.PWR_DVFS_STAT_V_OP
      else Reg.PWR_DVFS_STAT_F_OP) d).dvfsPlan d now) := by
  show execDvfsStepComplete d now s = _
  refine congrArg Host.Outcome.next ((if_neg ?_).trans ?_)
  · simp only [Bool.or_eq_true, decide_eq_true_eq]
    omega
  · split <;> rfl

/-- After the voltage the frequency goes up. -/
theorem State.afterVoltage (hs : s.canonical = true) (hd : d < 2) (hruns : s.dieRuns d = true)
    (hgoal : s.dieGoal d = s.getF Reg.PWR_DVFS_STAT_TARGET d)
    (hup : s.getF Reg.PWR_DVFS_STAT_F_OP d < s.getF Reg.PWR_DVFS_STAT_TARGET d) :
    (s.stepEnded Reg.PWR_DVFS_STAT_V_OP d).dvfsPlan d now = ((s.stepEnded Reg.PWR_DVFS_STAT_V_OP d).setF Reg.PWR_DVFS_STAT_TARGET
      (s.getF Reg.PWR_DVFS_STAT_TARGET d) d).dvfsBegin d 3 now 2000 := by
  obtain ⟨hrunsEnd, hgoalEnd, hstep, hvolt, -⟩ := State.stepEnded_reads (f := Reg.PWR_DVFS_STAT_V_OP) hs hd rfl
  have hfreq : (s.stepEnded Reg.PWR_DVFS_STAT_V_OP d).getF Reg.PWR_DVFS_STAT_F_OP d = s.getF Reg.PWR_DVFS_STAT_F_OP d :=
    (State.getF_setF_ne (State.canonical_setF hs _ _ _ _) _ _ _ _ _ _ _ (by decide) (.inr (by decide))).trans
      (State.getF_setF_ne hs _ _ _ _ _ _ _ (by decide) (.inr (by decide)))
  have hgoalT := hgoalEnd.trans hgoal
  rw [State.dvfsPlan_up (hrunsEnd.trans hruns) hstep (hvolt.trans hgoalT.symm) (by omega), hgoalT]

/-- After the frequency nothing is left. -/
theorem State.afterFrequency (hs : s.canonical = true) (hd : d < 2) (hruns : s.dieRuns d = true)
    (hgoal : s.dieGoal d = s.getF Reg.PWR_DVFS_STAT_TARGET d)
    (hvolt : s.getF Reg.PWR_DVFS_STAT_V_OP d = s.getF Reg.PWR_DVFS_STAT_TARGET d)
    (hbusy : s.isF Reg.TH_DIE_STATUS_OPP_BUSY d = true) :
    (s.stepEnded Reg.PWR_DVFS_STAT_F_OP d).dvfsPlan d now = ((((s.stepEnded Reg.PWR_DVFS_STAT_F_OP d).setF Reg.PWR_DVFS_STAT_TARGET
      (s.getF Reg.PWR_DVFS_STAT_TARGET d) d).setF Reg.TH_DIE_STATUS_OPP (s.getF Reg.PWR_DVFS_STAT_TARGET d) d).setF
        Reg.TH_DIE_STATUS_OPP_BUSY 0 d).cause 12 3 := by
  obtain ⟨hrunsEnd, hgoalEnd, hstep, hfreq, hbusyEnd⟩ := State.stepEnded_reads (f := Reg.PWR_DVFS_STAT_F_OP) hs hd rfl
  have hvoltEnd : (s.stepEnded Reg.PWR_DVFS_STAT_F_OP d).getF Reg.PWR_DVFS_STAT_V_OP d = s.getF Reg.PWR_DVFS_STAT_V_OP d :=
    (State.getF_setF_ne (State.canonical_setF hs _ _ _ _) _ _ _ _ _ _ _ (by decide) (.inr (by decide))).trans
      (State.getF_setF_ne hs _ _ _ _ _ _ _ (by decide) (.inr (by decide)))
  have hgoalT := hgoalEnd.trans hgoal
  rw [State.dvfsPlan_reached (hrunsEnd.trans hruns) hstep (hvoltEnd.trans (hvolt.trans hgoalT.symm)) (hfreq.trans hgoalT.symm), hgoalT,
    hbusyEnd, hbusy]
  rfl

/-! ## What a plan keeps -/

/-- From `s` to `t` field `f` of index `d` reads the same, and the lists stay in canonical form. -/
def KeepsField (s t : State) (f : Fld) (d : Nat) : Prop := t.canonical = true ∧ t.getF f d = s.getF f d

theorem KeepsField.refl (hs : s.canonical = true) : KeepsField s s f d := ⟨hs, rfl⟩

theorem KeepsField.setF {i : Nat} (h : KeepsField s t f d) (hw : g.lo + g.w ≤ 32)
    (hapart : f.addr d 0 ≠ g.addr i 0 ∨ f.lo + f.w ≤ g.lo ∨ g.lo + g.w ≤ f.lo) : KeepsField s (t.setF g v i) f d :=
  ⟨State.canonical_setF h.1 _ _ _ _, (State.getF_setF_ne h.1 _ _ _ _ _ _ _ hw hapart).trans h.2⟩

theorem KeepsField.stepsUntil (h : KeepsField s t f d) : KeepsField s (t.stepsUntil d x) f d := h

theorem KeepsField.ite {c : Prop} {_ : Decidable c} (ht : KeepsField s t f d) (hu : KeepsField s u f d) :
    KeepsField s (if c then t else u) f d := by
  split
  · exact ht
  · exact hu

/-- A field of PWR_DVFS_STAT that the sequencer leaves alone. -/
def thermalField (f : Fld) : Bool := f = Reg.PWR_DVFS_STAT_THROTTLED || f = Reg.PWR_DVFS_STAT_T_DIE

theorem thermalField_apart (hf : thermalField f = true) : f.addr d 0 = 0x20030 + 4 * d ∧ f.lo + f.w ≤ 24 := by
  simp only [thermalField, Bool.or_eq_true, decide_eq_true_eq] at hf
  rcases hf with rfl | rfl <;> exact ⟨rfl, by decide⟩

theorem State.keepsField_dvfsPlan (hs : s.canonical = true) (hf : thermalField f = true) : KeepsField s (s.dvfsPlan d now) f d := by
  obtain ⟨haddr, hbits⟩ := thermalField_apart (d := d) hf
  have hbusy : ∀ {t : State} {v : Nat}, KeepsField s t f d → KeepsField s (t.setF Reg.TH_DIE_STATUS_OPP_BUSY v d) f d := fun h =>
    h.setF (by decide) (.inl (by rw [haddr]; simp only [Fld.addr]; omega))
  have htarget : KeepsField s (s.setF Reg.PWR_DVFS_STAT_TARGET (s.dieGoal d) d) f d :=
    (KeepsField.refl hs).setF (by decide) (.inr (.inl (hbits.trans (by decide))))
  have hbegin : ∀ {k ns : Nat}, KeepsField s ((s.setF Reg.PWR_DVFS_STAT_TARGET (s.dieGoal d) d).dvfsBegin d k now ns) f d :=
    (hbusy (htarget.setF (by decide) (.inr (.inl hbits)))).stepsUntil
  have hdone : KeepsField s (((s.setF Reg.PWR_DVFS_STAT_TARGET (s.dieGoal d) d).setF Reg.TH_DIE_STATUS_OPP (s.dieGoal d) d).setF
      Reg.TH_DIE_STATUS_OPP_BUSY 0 d) f d :=
    hbusy (htarget.setF (by decide) (.inl (by rw [haddr]; simp only [Fld.addr]; omega)))
  exact .ite (.refl hs) <| .ite (hbusy (.refl hs)) <| .ite hbegin <| .ite hbegin <| .ite hbegin <|
    .ite (hdone.setF (by decide) (.inl (by rw [haddr]; simp only [Fld.addr]; omega))) hdone

/-! ## The ceiling (R413) -/

/-- From `s` to `t` registers and the power part alone change. -/
def PwrAlone (s t : State) : Prop := t = { s with regs := t.regs, pwr := t.pwr }

theorem StepAlone.orPwr (h : StepAlone s t) : PwrAlone s t := by
  unfold StepAlone at h
  generalize t.regs = regs at h
  generalize t.pwr.stepEnd = stepEnd at h
  subst h
  rfl

/-- The ceiling of die `d` is `v` points below OP3 since `now`, and PWR_DVFS_STAT says whether it binds. -/
def State.capShown (s : State) (d v now : Nat) : State :=
  ({ s with pwr := { s.pwr with lowered := Sparse.upd 0 s.pwr.lowered d v, lowAt := Sparse.upd none s.pwr.lowAt d (some now) } } :
    State).setF Reg.PWR_DVFS_STAT_THROTTLED (ofBool (v ≠ 0)) d

theorem State.setDieCap_eq : s.setDieCap d v now = (s.capShown d v now).dvfsPlan d now := rfl

theorem StepAlone.pwr (h : StepAlone s t) : t.pwr.lowered = s.pwr.lowered ∧ t.pwr.lowAt = s.pwr.lowAt := by
  unfold StepAlone at h
  generalize t.regs = regs at h
  generalize t.pwr.stepEnd = stepEnd at h
  subst h
  exact ⟨rfl, rfl⟩

theorem State.capShown_frame : PwrAlone s (s.capShown d v now) ∧
    (s.capShown d v now).pwr.lowered = Sparse.upd 0 s.pwr.lowered d v ∧
    (s.capShown d v now).pwr.lowAt = Sparse.upd none s.pwr.lowAt d (some now) := ⟨rfl, rfl, rfl⟩

theorem PwrAlone.trans (hst : PwrAlone s t) (htu : PwrAlone t u) : PwrAlone s u := by
  unfold PwrAlone at *
  generalize u.regs = regs at htu
  generalize u.pwr = pwr at htu
  generalize t.regs = tregs at hst
  generalize t.pwr = tpwr at hst
  subst htu hst
  rfl

theorem RegsAlone.orPwr (h : RegsAlone s t) : PwrAlone s t := by
  unfold RegsAlone at h
  generalize t.regs = regs at h
  subst h
  rfl

/-- A move of the ceiling: its point, its instant, its flag, the die's temperature as before, and what the plan may write. -/
theorem State.setDieCap_shown (hs : s.canonical = true) :
    (s.setDieCap d v now).pwr.lowered = Sparse.upd 0 s.pwr.lowered d v ∧
      (s.setDieCap d v now).pwr.lowAt = Sparse.upd none s.pwr.lowAt d (some now) ∧
      (s.setDieCap d v now).getF Reg.PWR_DVFS_STAT_THROTTLED d = ofBool (v ≠ 0) ∧
      (s.setDieCap d v now).getF Reg.PWR_DVFS_STAT_T_DIE d = s.getF Reg.PWR_DVFS_STAT_T_DIE d ∧
      Writes s (s.setDieCap d v now) (dvfsRegs d) ∧ PwrAlone s (s.setDieCap d v now) := by
  obtain ⟨hframe, hlowered, hlowAt⟩ := State.capShown_frame (s := s) (d := d) (v := v) (now := now)
  have hplan : StepAlone (s.capShown d v now) (s.setDieCap d v now) := State.stepAlone_dvfsPlan
  have hshown : Writes s (s.capShown d v now) (dvfsRegs d) := Writes.setF (Writes.refl hs).frame (by simp [dvfsRegs, Fld.addr])
  have hthrottled : (s.capShown d v now).getF Reg.PWR_DVFS_STAT_THROTTLED d = ofBool (v ≠ 0) % 2 :=
    State.getF_setF (s := { s with pwr := _ }) hs _ _ _ _ (by decide)
  have htemp : (s.capShown d v now).getF Reg.PWR_DVFS_STAT_T_DIE d = s.getF Reg.PWR_DVFS_STAT_T_DIE d :=
    State.getF_setF_ne (s := { s with pwr := _ }) hs _ _ _ _ _ _ _ (by decide) (.inr (by decide))
  refine ⟨hplan.pwr.1.trans hlowered, hplan.pwr.2.trans hlowAt, ?_, ?_, ?_, hframe.trans hplan.orPwr⟩
  · refine (State.keepsField_dvfsPlan hshown.canonical rfl).2.trans (hthrottled.trans ?_)
    cases decide (v ≠ 0) <;> rfl
  · exact (State.keepsField_dvfsPlan hshown.canonical rfl).2.trans htemp
  · exact hshown.trans (State.writes_dvfsPlan hshown.canonical)

end

end Sys2Proof.Machine
end

section

/-!
PROOFS. The temperature commands (17 R413, 21 R475), and O50.
-/

namespace Sys2Proof.Machine

section
variable {s t u : State} {d e now p v : Nat} {temp : Int} {f : Fld} {b : Bool}

/-! ## Over the throttle's temperature, and back -/

/-- PWR_DVFS_STAT shows the temperature of die `d`. -/
def State.tempShown (s : State) (d : Nat) (temp : Int) : State := s.setS Reg.PWR_DVFS_STAT_T_DIE temp d

/-- The temperature of a die has risen above THROTTLE_T: the ceiling falls, which is recorded. -/
def State.throttled (s : State) (d : Nat) (temp : Int) (now : Nat) : State :=
  ((s.tempShown d temp).setDieCap d (3 - (s.dieGoal d - 1)) now).event 0x0D06 d [d, unsign 32 temp, s.dieGoal d - 1]

theorem State.tempShown_reads (hs : s.canonical = true) : (s.tempShown d temp).canonical = true ∧
    (s.tempShown d temp).getF Reg.PWR_DVFS_STAT_T_DIE d = unsign Reg.PWR_DVFS_STAT_T_DIE.w temp ∧
    Writes s (s.tempShown d temp) [Reg.PWR_DVFS_STAT.addr d 0] ∧ RegsAlone s (s.tempShown d temp) := by
  refine ⟨State.canonical_setF hs _ _ _ _, ?_, (Writes.refl hs).setF (by simp [Fld.addr]), .setF .refl⟩
  refine (State.getF_setF hs _ _ _ _ (by decide)).trans (Nat.mod_eq_of_lt ?_)
  exact unsign_lt

/-- A command that shows the temperature alone. -/
theorem completes_tempShown {c : Instr} (hs : s.canonical = true) (hexec : exec c s = .next (s.tempShown d temp)) :
    Completes c s fun t => SetsField s t Reg.PWR_DVFS_STAT_T_DIE d (unsign Reg.PWR_DVFS_STAT_T_DIE.w temp) ∧
      OnlyRegs s t [Reg.PWR_DVFS_STAT.addr d 0] ∧ t = { s with regs := t.regs } :=
  ⟨_, hexec, (State.rd_setF hs _ _ _ _ _).trans (if_pos rfl), State.onlyRegs_setF hs _ _ _ _, RegsAlone.refl.setF⟩

theorem exec_dieOverThrottle_over (hd : d < 2) (hhot : s.throttleT < temp) (hgoal : 0 < s.dieGoal d)
    (hdue : s.throttleDue d now = true) :
    exec (.dieOverThrottle d temp now) s =
      .next ((s.throttled d temp now).causeIf (!s.isF Reg.PWR_DVFS_STAT_THROTTLED d) 1 6) :=
  congrArg Host.Outcome.next ((if_neg (Nat.not_le_of_lt hd)).trans (if_pos (by simp [hhot, hgoal, hdue])))

theorem exec_dieOverThrottle_under (hd : d < 2) (hunder : temp ≤ s.throttleT ∨ s.dieGoal d = 0 ∨ s.throttleDue d now = false) :
    exec (.dieOverThrottle d temp now) s = .next (s.tempShown d temp) := by
  refine congrArg Host.Outcome.next ((if_neg (Nat.not_le_of_lt hd)).trans (if_neg ?_))
  simp only [Bool.and_eq_true, decide_eq_true_eq, and_assoc]
  rintro ⟨hhot, hgoal, hdue⟩
  rcases hunder with h | h | h
  · omega
  · omega
  · exact absurd (hdue.symm.trans h) (by decide)

theorem exec_dieThrottleRestore_kept (hd : d < 2)
    (hkept : s.throttleT - 50 < temp ∨ Sparse.at 0 s.pwr.lowered d = 0 ∨ s.throttleDue d now = false) :
    exec (.dieThrottleRestore d temp now) s = .next (s.tempShown d temp) := by
  refine congrArg Host.Outcome.next ((if_neg (Nat.not_le_of_lt hd)).trans (if_neg ?_))
  simp only [Bool.and_eq_true, decide_eq_true_eq, and_assoc]
  rintro ⟨hcool, hlow, hdue⟩
  rcases hkept with h | h | h
  · omega
  · omega
  · exact absurd (hdue.symm.trans h) (by decide)

/-- A ceiling that still binds after it rose stays one point higher. -/
theorem exec_dieThrottleRestore_restored (hs : s.canonical = true) (hd : d < 2) (hcool : temp ≤ s.throttleT - 50)
    (hlow : 0 < Sparse.at 0 s.pwr.lowered d) (hdue : s.throttleDue d now = true)
    (hbinds : 4 - Sparse.at 0 s.pwr.lowered d < s.getF Reg.TH_DIE_OPP_OPP d) :
    exec (.dieThrottleRestore d temp now) s =
      .next ((s.tempShown d temp).setDieCap d (Sparse.at 0 s.pwr.lowered d - 1) now) := by
  obtain ⟨hcanon, -, hwrites, -⟩ := State.tempShown_reads (d := d) (temp := temp) hs
  obtain ⟨-, -, -, -, hcap, -⟩ := State.setDieCap_shown (d := d) (v := Sparse.at 0 s.pwr.lowered d - 1) (now := now) hcanon
  have hopp : ((s.tempShown d temp).setDieCap d (Sparse.at 0 s.pwr.lowered d - 1) now).getF Reg.TH_DIE_OPP_OPP d =
      s.getF Reg.TH_DIE_OPP_OPP d :=
    (hcap.getF (by simp [dvfsRegs, Fld.addr]; omega)).trans (hwrites.getF (by simp [Fld.addr]; omega))
  refine congrArg Host.Outcome.next ((if_neg (Nat.not_le_of_lt hd)).trans ((if_pos (by simp [hcool, hlow, hdue])).trans (if_neg ?_)))
  refine Nat.not_le_of_lt (lt_of_le_of_lt ?_ (hbinds.trans_eq hopp.symm))
  omega

/-! ## Over the shutdown's temperature (R475) -/

/-- A reading above SHUTDOWN_T sets the code of the control fault and is recorded. -/
def State.overheated (s : State) (d : Nat) (temp : Int) : State := (s.controlFault 0x06).event 0x0D07 d [d, unsign 32 temp]

/-- The running partitions with a core on die `d` stop. -/
def State.haltDie (s : State) (d : Nat) : State :=
  (List.range 16).foldl (fun a p =>
    if a.partState p = partRunning && (a.part p).cores.any (fun k => decide (k / 128 = d)) then (a.haltPart p).partEnter p partStopping
    else a) s

/-- Die `d` has been turned off by heat. -/
def State.burns (s : State) (d : Nat) : State := { s with pwr := { s.pwr with burnt := putBit s.pwr.burnt d true } }

theorem exec_overtemp_die (hd : d < 2) (hhot : (s.getF Reg.PWR_THERM_SHUTDOWN_T : Int) < temp) :
    exec (.overtemp d temp) s = .next ((((s.tempShown d temp).overheated d temp).haltDie d).burns d |>.dieOff d) := by
  show execOvertemp d temp s = _
  have hcond : (decide (3 ≤ d) || decide (temp ≤ (s.getF Reg.PWR_THERM_SHUTDOWN_T : Int))) = false := by
    simp only [Bool.or_eq_false_iff, decide_eq_false_iff_not]
    omega
  have hne : d ≠ 2 := by omega
  simp only [execOvertemp, hd, hcond, hne, Bool.false_eq_true, if_false, if_true]
  rfl

theorem exec_overtemp_hub (hhot : (s.getF Reg.PWR_THERM_SHUTDOWN_T : Int) < temp) :
    exec (.overtemp 2 temp) s = .next (s.overheated 2 temp) := by
  show execOvertemp 2 temp s = _
  have hcond : (decide (3 ≤ 2) || decide (temp ≤ (s.getF Reg.PWR_THERM_SHUTDOWN_T : Int))) = false := by
    simp only [Bool.or_eq_false_iff, decide_eq_false_iff_not]
    omega
  simp only [execOvertemp, hcond, Bool.false_eq_true, if_false, if_true, Nat.lt_irrefl]
  rfl

theorem exec_overtemp_cool (hd : d < 2) (hcool : temp ≤ (s.getF Reg.PWR_THERM_SHUTDOWN_T : Int)) :
    exec (.overtemp d temp) s = .next (s.tempShown d temp) :=
  congrArg Host.Outcome.next ((if_pos (by simp [hcool])).trans (if_pos hd))

theorem exec_overtemp_other (h : 3 ≤ d ∨ (d = 2 ∧ temp ≤ (s.getF Reg.PWR_THERM_SHUTDOWN_T : Int))) :
    exec (.overtemp d temp) s = .next s := by
  refine congrArg Host.Outcome.next ((if_pos ?_).trans (if_neg ?_))
  · rcases h with h | ⟨-, h⟩ <;> simp [h]
  · omega

theorem State.overheated_reads : (s.overheated d temp).twn.code = (if s.twn.code = 0 then 6 else s.twn.code) ∧
    (s.overheated d temp).events.contains ⟨0x0D07, d, [d, unsign 32 temp]⟩ = true ∧ (s.overheated d temp).pwr = s.pwr ∧
    (s.overheated d temp).canonical = s.canonical ∧ (s.overheated d temp).regs = s.regs := by
  rw [State.overheated, State.controlFault_eq]
  exact ⟨rfl, by simp [State.event], rfl, rfl, rfl⟩

/-- From `s` to `t` registers and the array alone change. -/
def RegsThAlone (s t : State) : Prop := t = { s with regs := t.regs, th := t.th }

theorem RegsThAlone.halt (h : RegsThAlone s t) : RegsThAlone s ((t.haltPart p).partEnter p v) := by
  obtain ⟨-, hframe⟩ := (State.thAlone_haltPart (s := t) (p := p)).thenRegs (RegsAlone.refl.partEnter (p := p) (st := v))
  unfold RegsThAlone at *
  generalize ((t.haltPart p).partEnter p v) = u at *
  generalize u.regs = regs at hframe
  generalize u.th = th at hframe
  generalize t.regs = tregs at h
  generalize t.th = tth at h
  subst hframe h
  rfl

theorem KeepsField.causeIf {vector bit : Nat} (h : KeepsField s t f d) (haddr : f.addr d 0 = 0x20030 + 4 * d) (hd : d < 2)
    (hvector : vector < 64) : KeepsField s (t.causeIf b vector bit) f d :=
  .ite (h.setF (by decide) (.inl (by rw [haddr]; simp only [Fld.addr]; omega))) h

theorem KeepsField.halt (h : KeepsField s t f d) (hf : thermalField f = true) (hd : d < 2) :
    KeepsField s ((t.haltPart p).partEnter p v) f d := by
  obtain ⟨haddr, -⟩ := thermalField_apart (d := d) hf
  have hhalt : KeepsField s (t.haltPart p) f d := by
    have halone : ThAlone t (t.haltPart p) := State.thAlone_haltPart
    unfold ThAlone at halone
    rw [halone]
    exact h
  have hother : ∀ {u : State} {g : Fld} {i x : Nat}, KeepsField s u f d → g.lo + g.w ≤ 32 → 0x1000000 ≤ g.addr i 0 →
      KeepsField s (u.setF g x i) f d := fun hu hw hg => hu.setF hw (.inl (by omega))
  have hstate : KeepsField s ((t.haltPart p).setF Reg.TH_PART_STAT_STATE v p) f d :=
    hother hhalt (by decide) (by simp only [Fld.addr]; omega)
  exact ((hother (hother hstate (by decide) (by decide)) (by decide) (by decide)).causeIf haddr hd (by decide)).causeIf haddr hd
    (by decide)

/-- Stopping a die's partitions leaves the power part, the twins' part and the log, and the die's temperature. -/
theorem State.haltDie_keeps (hs : s.canonical = true) (hd : d < 2) :
    RegsThAlone s (s.haltDie d) ∧ KeepsField s (s.haltDie d) Reg.PWR_DVFS_STAT_T_DIE d := by
  refine List.foldlRecOn (motive := fun a => RegsThAlone s a ∧ KeepsField s a Reg.PWR_DVFS_STAT_T_DIE d) _ _ ⟨rfl, .refl hs⟩
    fun a ha p _ => ?_
  split
  · exact ⟨ha.1.halt, ha.2.halt rfl hd⟩
  · exact ha

/-! ## A die that is off -/

theorem RegsAlone.setRuns (h : RegsAlone s t) : RegsAlone s (t.setRuns e b) := .ite (.setF h) (.setF h)

theorem State.canonical_setRuns (hs : s.canonical = true) : (s.setRuns e b).canonical = true := by
  unfold State.setRuns
  split <;> exact State.canonical_setF hs _ _ _ _

theorem State.runs_setRuns_ne (hs : s.canonical = true) (hd : 1 ≤ d ∧ d ≤ 32) (he : 1 ≤ e ∧ e ≤ 32) (hne : d ≠ e) :
    (s.setRuns e b).runs d = s.runs d := by
  have hword : putBit (s.getF Reg.PWR_DOM_STATUS_LO_RUNS) (e - 1) b < 2 ^ 32 := putBit_lt (Fld.of_lt _ _) (by omega)
  rw [State.runs, State.runs, if_pos hd.2, if_pos hd.2, State.setRuns, if_pos he.2, State.getF_setF hs _ _ _ _ (by decide),
    Nat.mod_eq_of_lt hword, bitOf_putBit_ne (by omega)]

/-- The domains of die `d` stopped. -/
def State.dieStopped (s : State) (d : Nat) : State := ((s.setRuns (23 + 2 * d) false).setRuns (24 + 2 * d) false).setRuns (27 + d) false

theorem State.dieOff_eq : s.dieOff d = (((s.dieStopped d).setF Reg.PWR_DVFS_STAT_STEP 0 d).setF Reg.TH_DIE_STATUS_ON 0 d).setF
    Reg.TH_DIE_STATUS_OPP_BUSY 0 d := rfl

theorem State.dieStopped_reads (hs : s.canonical = true) (hd : d < 2) : (s.dieStopped d).canonical = true ∧
    (s.dieStopped d).runs (24 + 2 * d) = false ∧ KeepsField s (s.dieStopped d) Reg.PWR_DVFS_STAT_T_DIE d := by
  have hfirst : (s.setRuns (23 + 2 * d) false).canonical = true := State.canonical_setRuns hs
  have hsecond : ((s.setRuns (23 + 2 * d) false).setRuns (24 + 2 * d) false).canonical = true := State.canonical_setRuns hfirst
  have hkeeps : ∀ {t : State} {e : Nat}, KeepsField s t Reg.PWR_DVFS_STAT_T_DIE d →
      KeepsField s (t.setRuns e false) Reg.PWR_DVFS_STAT_T_DIE d := fun h =>
    .ite (h.setF (by decide) (.inl (by simp only [Fld.addr]; omega))) (h.setF (by decide) (.inl (by simp only [Fld.addr]; omega)))
  refine ⟨State.canonical_setRuns hsecond, ?_, hkeeps (hkeeps (hkeeps (.refl hs)))⟩
  exact (State.runs_setRuns_ne hsecond (by omega) (by omega) (by omega)).trans (State.runs_setRuns hfirst (by omega) (by omega))

theorem State.dieOff_reads (hs : s.canonical = true) (hd : d < 2) : RegsAlone s (s.dieOff d) ∧
    (s.dieOff d).getF Reg.TH_DIE_STATUS_ON d = 0 ∧ (s.dieOff d).runs (24 + 2 * d) = false ∧
    (s.dieOff d).getF Reg.PWR_DVFS_STAT_T_DIE d = s.getF Reg.PWR_DVFS_STAT_T_DIE d := by
  obtain ⟨hcanon, hstopped, htemp⟩ := State.dieStopped_reads hs hd
  have hstep : ((s.dieStopped d).setF Reg.PWR_DVFS_STAT_STEP 0 d).canonical = true := State.canonical_setF hcanon _ _ _ _
  have hon : (((s.dieStopped d).setF Reg.PWR_DVFS_STAT_STEP 0 d).setF Reg.TH_DIE_STATUS_ON 0 d).canonical = true :=
    State.canonical_setF hstep _ _ _ _
  have hwrote : Wrote (s.dieStopped d) (s.dieOff d)
      [(Reg.PWR_DVFS_STAT_STEP, d, 0), (Reg.TH_DIE_STATUS_ON, d, 0), (Reg.TH_DIE_STATUS_OPP_BUSY, d, 0)] :=
    (Wrote.refl hcanon).setF.setF.setF
  have hdom : (s.dieOff d).rd (Reg.PWR_DOM_STATUS_LO_RUNS.addr 0 0) = (s.dieStopped d).rd (Reg.PWR_DOM_STATUS_LO_RUNS.addr 0 0) := by
    refine hwrote.rd ?_
    simp (disch := (simp only [Fld.addr]; omega)) only [writesAt_cons_other, writesAt_nil]
  refine ⟨.setF <| .setF <| .setF <| .setRuns <| .setRuns <| .setRuns .refl, ?_, (State.runs_congr hdom (by omega)).trans hstopped, ?_⟩
  · exact (State.getF_setF_ne hon _ _ _ _ _ _ _ (by decide) (.inr (by decide))).trans (State.getF_setF hstep _ _ _ _ (by decide))
  · have hkept : KeepsField s (s.dieOff d) Reg.PWR_DVFS_STAT_T_DIE d :=
      ((htemp.setF (by decide) (.inr (by decide))).setF (by decide) (.inl (by simp only [Fld.addr]; omega))).setF (by decide)
        (.inl (by simp only [Fld.addr]; omega))
    exact hkept.2

end

end Sys2Proof.Machine
end

section

/-!
PROOFS. O50, from what a request, a step's end and a temperature leave.
-/

namespace Sys2Proof.Machine

section
variable {s t : State} {d now v : Nat} {temp : Int}

/-- What the sequencer of a driving module plans on once a request stands. -/
theorem State.oppRequested_reads {path opp : Nat} (hs : s.canonical = true) (hd : d < 2) (hrun : s.getF Reg.PWR_STATUS_STATE = 0)
    (hdrives : s.getF Reg.TWN_STATUS_STATE ≠ 0) :
    (s.oppRequested path d opp now).dieGoal d = min (opp % 4) (3 - Sparse.at 0 s.pwr.lowered d) ∧
      (s.oppRequested path d opp now).getF Reg.PWR_DVFS_STAT_F_OP d = s.getF Reg.PWR_DVFS_STAT_F_OP d ∧
      (s.oppRequested path d opp now).getF Reg.PWR_DVFS_STAT_V_OP d = s.getF Reg.PWR_DVFS_STAT_V_OP d ∧
      (s.oppRequested path d opp now).dieRuns d = s.dieRuns d ∧
      (s.oppRequested path d opp now).getF Reg.PWR_DVFS_STAT_STEP d = s.getF Reg.PWR_DVFS_STAT_STEP d := by
  have haddr : Reg.TH_DIE_OPP.addr d 0 ≠ Reg.PWR_DVFS_STAT.addr d 0 := by simp only [Fld.addr]; omega
  exact ⟨State.dieGoal_oppRequested hs hrun hdrives, State.getF_oppRequested hs haddr, State.getF_oppRequested hs haddr,
    State.dieRuns_oppRequested hs hd, State.getF_oppRequested hs haddr⟩

/-- The end of a voltage step that the frequency follows. -/
theorem completes_afterVoltage (hs : s.canonical = true) (hexec : exec (.dvfsStepComplete d now) s =
      .next (((s.stepEnded Reg.PWR_DVFS_STAT_V_OP d).setF Reg.PWR_DVFS_STAT_TARGET (s.getF Reg.PWR_DVFS_STAT_TARGET d) d).dvfsBegin d 3 now
        2000)) :
    Completes (.dvfsStepComplete d now) s fun t =>
      SetsFields s t (Reg.PWR_DVFS_STAT.addr d 0)
        [(Reg.PWR_DVFS_STAT_V_OP, s.getF Reg.PWR_DVFS_STAT_TARGET d), (Reg.PWR_DVFS_STAT_STEP, 3)] ∧
      SetsField s t Reg.TH_DIE_STATUS_OPP_BUSY d 1 ∧
      t.pwr = { s.pwr with stepEnd := Sparse.upd 0 s.pwr.stepEnd d (now + 2000) } ∧
      OnlyRegs s t [Reg.PWR_DVFS_STAT.addr d 0, Reg.TH_DIE_STATUS.addr d 0] ∧
      t = { s with regs := t.regs, pwr := t.pwr } := by
  have hw := ((State.wrote_stepEnded (f := Reg.PWR_DVFS_STAT_V_OP) (d := d) hs).setF (f := Reg.PWR_DVFS_STAT_TARGET) (i := d)
    (v := s.getF Reg.PWR_DVFS_STAT_TARGET d)).dvfsBegin (d := d) (k := 3) (now := now) (ns := 2000)
  have hstat := hw.setsFields (a := Reg.PWR_DVFS_STAT.addr d 0) (fs := [(Reg.PWR_DVFS_STAT_V_OP, s.getF Reg.PWR_DVFS_STAT_TARGET d),
      (Reg.PWR_DVFS_STAT_STEP, 0), (Reg.PWR_DVFS_STAT_TARGET, s.getF Reg.PWR_DVFS_STAT_TARGET d), (Reg.PWR_DVFS_STAT_STEP, 3)]) <| by
    simp (disch := (simp only [Fld.addr]; omega)) only [List.cons_append, List.nil_append, writesAt_cons_other, writesAt_cons_same,
      writesAt_nil]
  refine ⟨_, hexec, hstat.trans ?_, hw.setsField ?_, by rw [State.dvfsBegin_pwr, State.setF_pwr, State.stepEnded_pwr],
    hw.only (by simp [Fld.addr]), ?_⟩
  · exact (congrArg (Reg.PWR_DVFS_STAT_STEP.into · 3) (Fld.target_kept rfl)).trans (Fld.into_into (by decide))
  · simp (disch := (simp only [Fld.addr]; omega)) only [List.cons_append, List.nil_append, writesAt_cons_other, writesAt_cons_same,
      writesAt_nil]
  · exact State.regsAlone_stepEnded.orPwr.trans (StepAlone.orPwr (.dvfsBegin <| .setF .refl))

/-- The end of a frequency step that leaves nothing. -/
theorem completes_afterFrequency (hs : s.canonical = true) (hexec : exec (.dvfsStepComplete d now) s =
      .next (((((s.stepEnded Reg.PWR_DVFS_STAT_F_OP d).setF Reg.PWR_DVFS_STAT_TARGET (s.getF Reg.PWR_DVFS_STAT_TARGET d) d).setF
        Reg.TH_DIE_STATUS_OPP (s.getF Reg.PWR_DVFS_STAT_TARGET d) d).setF Reg.TH_DIE_STATUS_OPP_BUSY 0 d).cause 12 3)) :
    Completes (.dvfsStepComplete d now) s fun t =>
      SetsFields s t (Reg.PWR_DVFS_STAT.addr d 0)
        [(Reg.PWR_DVFS_STAT_F_OP, s.getF Reg.PWR_DVFS_STAT_TARGET d), (Reg.PWR_DVFS_STAT_STEP, 0)] ∧
      SetsFields s t (Reg.TH_DIE_STATUS.addr d 0)
        [(Reg.TH_DIE_STATUS_OPP, s.getF Reg.PWR_DVFS_STAT_TARGET d), (Reg.TH_DIE_STATUS_OPP_BUSY, 0)] ∧
      Raises s t 12 [3] ∧
      OnlyRegs s t [Reg.PWR_DVFS_STAT.addr d 0, Reg.TH_DIE_STATUS.addr d 0, Reg.SYS_IRQ_CAUSE.addr 12 0] ∧
      t = { s with regs := t.regs } := by
  have hshown := (((State.wrote_stepEnded (f := Reg.PWR_DVFS_STAT_F_OP) (d := d) hs).setF (f := Reg.PWR_DVFS_STAT_TARGET) (i := d)
    (v := s.getF Reg.PWR_DVFS_STAT_TARGET d)).setF (f := Reg.TH_DIE_STATUS_OPP) (i := d)
      (v := s.getF Reg.PWR_DVFS_STAT_TARGET d)).setF (f := Reg.TH_DIE_STATUS_OPP_BUSY) (i := d) (v := 0)
  have hw := hshown.cause (vector := 12) (bit := 3) <| by
    simp (disch := (simp only [Fld.addr]; omega)) only [List.cons_append, List.nil_append, writesAt_cons_other, writesAt_nil]
  have hstat := hw.setsFields (a := Reg.PWR_DVFS_STAT.addr d 0) (fs := [(Reg.PWR_DVFS_STAT_F_OP, s.getF Reg.PWR_DVFS_STAT_TARGET d),
      (Reg.PWR_DVFS_STAT_STEP, 0), (Reg.PWR_DVFS_STAT_TARGET, s.getF Reg.PWR_DVFS_STAT_TARGET d)]) <| by
    simp (disch := (simp only [Fld.addr]; omega)) only [List.cons_append, List.nil_append, writesAt_cons_other, writesAt_cons_same,
      writesAt_nil]
  refine ⟨_, hexec, hstat.trans (Fld.target_kept rfl), hw.setsFields ?_, hw.raises (by decide) ?_, hw.only (by simp [Fld.addr]),
    RegsAlone.cause <| .setF <| .setF <| .setF State.regsAlone_stepEnded⟩ <;>
    simp (disch := (simp only [Fld.addr]; omega)) only [List.cons_append, List.nil_append, writesAt_cons_other, writesAt_cons_same,
      writesAt_nil]

/-- The heat's own record of a die: its event, the code of the control fault, the burnt die and its partitions' stop. -/
def State.burnt (s : State) (d : Nat) (temp : Int) : State := (((s.tempShown d temp).overheated d temp).haltDie d).burns d

theorem RegsThAlone.others (h : RegsThAlone s t) : t.pwr = s.pwr ∧ t.twn = s.twn ∧ t.events = s.events := by
  unfold RegsThAlone at h
  rw [h]
  exact ⟨rfl, rfl, rfl⟩

theorem RegsAlone.others (h : RegsAlone s t) : t.pwr = s.pwr ∧ t.twn = s.twn ∧ t.events = s.events := by
  unfold RegsAlone at h
  rw [h]
  exact ⟨rfl, rfl, rfl⟩

theorem State.burns_reads : bitOf (s.burns d).pwr.burnt d = true ∧ (s.burns d).twn = s.twn ∧ (s.burns d).events = s.events ∧
    (s.burns d).canonical = s.canonical ∧ (s.burns d).regs = s.regs := ⟨bitOf_putBit_same, rfl, rfl, rfl, rfl⟩

theorem State.burnt_reads (hs : s.canonical = true) (hd : d < 2) :
    (s.burnt d temp).canonical = true ∧ bitOf (s.burnt d temp).pwr.burnt d = true ∧
      (s.burnt d temp).getF Reg.PWR_DVFS_STAT_T_DIE d = unsign Reg.PWR_DVFS_STAT_T_DIE.w temp ∧
      (s.burnt d temp).twn.code = (if s.twn.code = 0 then 6 else s.twn.code) ∧
      (s.burnt d temp).events.contains ⟨0x0D07, d, [d, unsign 32 temp]⟩ = true := by
  obtain ⟨hcanon, htemp, -, hshown⟩ := State.tempShown_reads (d := d) (temp := temp) hs
  obtain ⟨hcode, hevent, -, hhotCanon, hhotRegs⟩ := State.overheated_reads (s := s.tempShown d temp) (d := d) (temp := temp)
  obtain ⟨hhalt, hhaltCanon, hhaltTemp⟩ := State.haltDie_keeps (d := d) (hhotCanon.trans hcanon) hd
  obtain ⟨-, htwn, hevents⟩ := hhalt.others
  obtain ⟨hburnt, hburntTwn, hburntEvents, hburntCanon, hburntRegs⟩ :=
    State.burns_reads (s := ((s.tempShown d temp).overheated d temp).haltDie d) (d := d)
  refine ⟨hburntCanon.trans hhaltCanon, hburnt, ?_, ?_, ?_⟩
  · exact (congrArg (Fld.of _) (State.rd_congr hburntRegs _)).trans (hhaltTemp.trans ((congrArg (Fld.of _) (State.rd_congr hhotRegs _)).trans htemp))
  · rw [State.burnt, hburntTwn, htwn, hcode, hshown.twn]
  · rw [State.burnt, hburntEvents, hevents]
    exact hevent

/-- What a die that heat turns off leaves. -/
theorem State.burntOff_reads (hs : s.canonical = true) (hd : d < 2) :
    bitOf ((s.burnt d temp).dieOff d).pwr.burnt d = true ∧ ((s.burnt d temp).dieOff d).getF Reg.TH_DIE_STATUS_ON d = 0 ∧
      ((s.burnt d temp).dieOff d).getF Reg.PWR_DVFS_STAT_T_DIE d = unsign Reg.PWR_DVFS_STAT_T_DIE.w temp ∧
      ((s.burnt d temp).dieOff d).twn.code = (if s.twn.code = 0 then 6 else s.twn.code) ∧
      ((s.burnt d temp).dieOff d).events.contains ⟨0x0D07, d, [d, unsign 32 temp]⟩ = true ∧
      ((s.burnt d temp).dieOff d).runs (24 + 2 * d) = false := by
  obtain ⟨hcanon, hburnt, htemp, hcode, hevent⟩ := State.burnt_reads (temp := temp) hs hd
  obtain ⟨hoff, hon, hstopped, hkept⟩ := State.dieOff_reads hcanon hd
  obtain ⟨hpwr, htwn, hevents⟩ := hoff.others
  exact ⟨by rw [hpwr, hburnt], hon, hkept.trans htemp, by rw [htwn, hcode], by rw [hevents, hevent], hstopped⟩

/-- The bit of a cause that is set where `b` holds. -/
theorem State.bitOf_causeIf {b : Bool} {vector bit : Nat} (hs : s.canonical = true) (hbit : bit < 32) :
    bitOf ((s.causeIf b vector bit).getF Reg.SYS_IRQ_CAUSE vector) bit = (bitOf (s.getF Reg.SYS_IRQ_CAUSE vector) bit || b) := by
  cases b with
  | false => simp [State.causeIf]
  | true =>
    have hword : putBit (s.getF Reg.SYS_IRQ_CAUSE vector) bit true < 2 ^ 32 := putBit_true_lt (Fld.of_lt _ _) hbit
    have hread : (s.cause vector bit).getF Reg.SYS_IRQ_CAUSE vector = putBit (s.getF Reg.SYS_IRQ_CAUSE vector) bit true :=
      (State.getF_setF hs _ _ _ _ (by decide)).trans (Nat.mod_eq_of_lt hword)
    rw [State.causeIf, if_pos rfl, hread, bitOf_putBit_same, Bool.or_true]

theorem PwrAlone.events (h : PwrAlone s t) : t.events = s.events := by
  unfold PwrAlone at h
  rw [h]

/-- A record and a cause after registers and the power part. -/
theorem PwrAlone.recorded {code source : Nat} {data : List Nat} {u : State} (h : PwrAlone s t) (hu : RegsAlone (t.event code source data) u) :
    u = { s with regs := u.regs, pwr := u.pwr, events := u.events } := by
  unfold PwrAlone at h
  unfold RegsAlone at hu
  generalize u.regs = regs at hu
  generalize t.regs = tregs at h
  generalize t.pwr = pwr at h
  subst hu h
  rfl

/-- A fall of the ceiling, before its cause is set: the ceiling, its flag, the temperature, the record, and what is written. -/
theorem State.throttled_reads (hs : s.canonical = true) :
    (s.throttled d temp now).pwr.lowered = Sparse.upd 0 s.pwr.lowered d (3 - (s.dieGoal d - 1)) ∧
      (s.throttled d temp now).pwr.lowAt = Sparse.upd none s.pwr.lowAt d (some now) ∧
      (s.throttled d temp now).getF Reg.PWR_DVFS_STAT_THROTTLED d = ofBool (decide ((3 - (s.dieGoal d - 1)) ≠ 0)) ∧
      (s.throttled d temp now).getF Reg.PWR_DVFS_STAT_T_DIE d = unsign Reg.PWR_DVFS_STAT_T_DIE.w temp ∧
      (s.throttled d temp now).events = s.events ++ [⟨0x0D06, d, [d, unsign 32 temp, s.dieGoal d - 1]⟩] ∧
      Writes s (s.throttled d temp now) (dvfsRegs d) ∧
      ∀ u, RegsAlone (s.throttled d temp now) u → u = { s with regs := u.regs, pwr := u.pwr, events := u.events } := by
  obtain ⟨hcanon, htemp, hwrites, hregs⟩ := State.tempShown_reads (d := d) (temp := temp) hs
  obtain ⟨hlowered, hlowAt, hthrottled, htempKept, hcap, hframe⟩ :=
    State.setDieCap_shown (d := d) (v := 3 - (s.dieGoal d - 1)) (now := now) hcanon
  have halone := hregs.orPwr.trans hframe
  exact ⟨hlowered, hlowAt, hthrottled, htempKept.trans htemp, congrArg (· ++ _) halone.events,
    ((hwrites.mono (by simp [dvfsRegs])).trans hcap).frame, fun _ => halone.recorded⟩

/-- What a fall of the ceiling leaves. -/
theorem completes_throttled (hs : s.canonical = true) (hd : d < 2)
    (hexec : exec (.dieOverThrottle d temp now) s =
      .next ((s.throttled d temp now).causeIf (!s.isF Reg.PWR_DVFS_STAT_THROTTLED d) 1 6)) :
    Completes (.dieOverThrottle d temp now) s fun t =>
      t.pwr.lowered = Sparse.upd 0 s.pwr.lowered d (3 - (s.dieGoal d - 1)) ∧
      t.pwr.lowAt = Sparse.upd none s.pwr.lowAt d (some now) ∧
      t.getF Reg.PWR_DVFS_STAT_THROTTLED d = ofBool (decide ((3 - (s.dieGoal d - 1)) ≠ 0)) ∧
      t.getF Reg.PWR_DVFS_STAT_T_DIE d = unsign Reg.PWR_DVFS_STAT_T_DIE.w temp ∧
      t.events = s.events ++ [⟨0x0D06, d, [d, unsign 32 temp, s.dieGoal d - 1]⟩] ∧
      bitOf (t.getF Reg.SYS_IRQ_CAUSE 1) 6 = (bitOf (s.getF Reg.SYS_IRQ_CAUSE 1) 6 || !s.isF Reg.PWR_DVFS_STAT_THROTTLED d) ∧
      OnlyRegs s t [Reg.PWR_DVFS_STAT.addr d 0, Reg.TH_DIE_STATUS.addr d 0, Reg.SYS_IRQ_CAUSE.addr 1 0, Reg.SYS_IRQ_CAUSE.addr 12 0] ∧
      t = { s with regs := t.regs, pwr := t.pwr, events := t.events } := by
  obtain ⟨hlowered, hlowAt, hthrottled, htemp, hevents, hwrites, hframe⟩ := State.throttled_reads (d := d) (temp := temp) (now := now) hs
  have hcause : RegsAlone (s.throttled d temp now)
      ((s.throttled d temp now).causeIf (!s.isF Reg.PWR_DVFS_STAT_THROTTLED d) 1 6) := RegsAlone.refl.causeIf
  have hkept {f : Fld} (hf : thermalField f = true) :
      ((s.throttled d temp now).causeIf (!s.isF Reg.PWR_DVFS_STAT_THROTTLED d) 1 6).getF f d = (s.throttled d temp now).getF f d :=
    ((KeepsField.refl hwrites.canonical).causeIf (thermalField_apart hf).1 hd (by decide)).2
  have hsame : (s.throttled d temp now).getF Reg.SYS_IRQ_CAUSE 1 = s.getF Reg.SYS_IRQ_CAUSE 1 :=
    hwrites.getF (by simp [dvfsRegs, Fld.addr]; omega)
  obtain ⟨hpwr, -, hrecorded⟩ := hcause.others
  refine ⟨_, hexec, by rw [hpwr, hlowered], by rw [hpwr, hlowAt], (hkept rfl).trans hthrottled, (hkept rfl).trans htemp,
    hrecorded.trans hevents, ?_, ?_, hframe _ hcause⟩
  · rw [State.bitOf_causeIf hwrites.canonical (by decide), hsame]
  · exact ((hwrites.mono (by simp [dvfsRegs])).causeIf (by simp)).only

end

/-- Settles O50: the request, the steps and the temperatures, each by what it leaves. -/
theorem operatingPointsAndTemperature : Obligations.OperatingPointsAndTemperature := by
  unfold Obligations.OperatingPointsAndTemperature
  refine ⟨?down, ?voltage, ?up, ?waits, ?ignored, ?queued, ?stopped, ?stepIdle, ?overNoDie, ?restoreNoDie, ?restoreKept, ?cool, ?other,
    ?afterVoltage, ?afterFrequency, ?throttles, ?under, ?restored, ?dieHot, ?hubHot, ?stackHot⟩
  case down =>
    intro s path d opp now hs hd hcarries hhost hlayer hruns hstep hrun hdrives hdown
    obtain ⟨hgoal, hfreq, -, hrunsThen, hstepThen⟩ := State.oppRequested_reads (path := path) (opp := opp) (now := now) hs hd hrun hdrives
    have hexec := exec_dieOppRequest_carried (now := now) (opp := opp) hd hcarries hhost hlayer
    rw [State.dvfsPlan_down (hrunsThen.trans hruns) (hstepThen.trans hstep) (by rwa [hgoal, hfreq]), hgoal] at hexec
    exact completes_oppBegun hs hexec
  case voltage =>
    intro s path d opp now hs hd hcarries hhost hlayer hruns hstep hrun hdrives hdown hup
    obtain ⟨hgoal, hfreq, hvolt, hrunsThen, hstepThen⟩ :=
      State.oppRequested_reads (path := path) (opp := opp) (now := now) hs hd hrun hdrives
    have hexec := exec_dieOppRequest_carried (now := now) (opp := opp) hd hcarries hhost hlayer
    rw [State.dvfsPlan_voltageUp (hrunsThen.trans hruns) (hstepThen.trans hstep) (by rwa [hgoal, hfreq]) (by rwa [hgoal, hvolt]), hgoal,
      hvolt] at hexec
    exact completes_oppBegun hs hexec
  case up =>
    intro s path d opp now hs hd hcarries hhost hlayer hruns hstep hrun hdrives hup hvolts
    obtain ⟨hgoal, hfreq, hvolt, hrunsThen, hstepThen⟩ :=
      State.oppRequested_reads (path := path) (opp := opp) (now := now) hs hd hrun hdrives
    have hexec := exec_dieOppRequest_carried (now := now) (opp := opp) hd hcarries hhost hlayer
    rw [State.dvfsPlan_up (hrunsThen.trans hruns) (hstepThen.trans hstep) (by rwa [hgoal, hvolt]) (by rwa [hgoal, hfreq]), hgoal] at hexec
    exact completes_oppBegun hs hexec
  case waits =>
    intro s path d opp now hs hd hcarries hhost hlayer hruns hstep
    have hstepStands := State.getF_oppRequested (f := Reg.PWR_DVFS_STAT_STEP) (path := path) (d := d) (opp := opp) (now := now) hs
      (by simp only [Fld.addr]; omega)
    have hexec := exec_dieOppRequest_carried (now := now) (opp := opp) hd hcarries hhost hlayer
    rw [State.dvfsPlan_waits ((State.dieRuns_oppRequested hs hd).trans hruns) (by rwa [hstepStands])] at hexec
    exact completes_oppWaits hs hexec
  case ignored =>
    intro s path d opp now h
    exact completes_of_eq (exec_dieOppRequest_ignored h) rfl
  case queued =>
    intro s path d opp now hd hreaches hfree
    refine ⟨_, (exec_dieOppRequest_access hd hreaches).trans (congrArg _ (if_neg (by simp [hfree]))), rfl, rfl⟩
  case stopped =>
    intro s path d opp now hs hd hcarries hhost hlayer hruns
    have hexec := exec_dieOppRequest_carried (now := now) (opp := opp) hd hcarries hhost hlayer
    rw [State.dvfsPlan_stopped ((State.dieRuns_oppRequested hs hd).trans hruns)] at hexec
    obtain ⟨-, hhostWrite, hframe⟩ := State.oppRequested_frame (s := s) (path := path) (d := d) (opp := opp) (now := now)
    have hw := State.wrote_oppRequested (path := path) (d := d) (opp := opp) (now := now) hs
    exact ⟨_, hexec, hw.setsField (writesAt_cons_same (Nat.le_refl _) (Nat.le_refl _)), hhostWrite, hw.only (by simp [Fld.addr]), hframe⟩
  case stepIdle =>
    intro s d now h
    exact completes_of_eq (exec_dvfsStepComplete_idle h) rfl
  case overNoDie =>
    intro s d temp now hd
    exact completes_of_eq (congrArg Host.Outcome.next (if_pos hd)) rfl
  case restoreNoDie =>
    intro s d temp now hd
    exact completes_of_eq (congrArg Host.Outcome.next (if_pos hd)) rfl
  case restoreKept =>
    intro s d temp now hs hd hkept
    exact completes_tempShown hs (exec_dieThrottleRestore_kept hd hkept)
  case cool =>
    intro s d temp hs hd hcool
    exact completes_tempShown hs (exec_overtemp_cool hd hcool)
  case other =>
    intro s d temp h
    exact completes_of_eq (exec_overtemp_other h) rfl
  case afterVoltage =>
    intro s d now hs hd hruns _ _ hstep hdue hgoal hvoltage hup
    have hexec := exec_dvfsStepComplete_ended hd hstep hdue
    rw [if_pos hvoltage, State.afterVoltage hs hd hruns hgoal hup] at hexec
    exact completes_afterVoltage hs hexec
  case afterFrequency =>
    intro s d now hs hd hruns _ _ hstep hdue hgoal hfrequency hvolt hbusy
    have hexec := exec_dvfsStepComplete_ended hd hstep hdue
    rw [if_neg (by rw [hfrequency]; decide), State.afterFrequency hs hd hruns hgoal hvolt hbusy] at hexec
    exact completes_afterFrequency hs hexec
  case throttles =>
    intro s d temp now hs hd hhot hgoal hdue
    exact completes_throttled hs hd (exec_dieOverThrottle_over hd hhot hgoal hdue)
  case under =>
    intro s d temp now hs hd hunder
    exact completes_tempShown hs (exec_dieOverThrottle_under hd hunder)
  case restored =>
    intro s d temp now hs hd hcool hlow hdue hbinds
    obtain ⟨hcanon, htemp, hwrites, hregs⟩ := State.tempShown_reads (d := d) (temp := temp) hs
    obtain ⟨hlowered, hlowAt, hthrottled, htempKept, hcap, hframe⟩ :=
      State.setDieCap_shown (d := d) (v := Sparse.at 0 s.pwr.lowered d - 1) (now := now) hcanon
    refine ⟨_, exec_dieThrottleRestore_restored hs hd hcool hlow hdue hbinds, hlowered, hlowAt, hthrottled, htempKept.trans htemp, ?_,
      hregs.orPwr.trans hframe⟩
    exact ((hwrites.mono (by simp [dvfsRegs])).trans hcap).only
  case dieHot =>
    intro s d temp hs hd hhot
    obtain ⟨hburnt, hon, htemp, hcode, hevent, hruns⟩ := State.burntOff_reads (temp := temp) hs hd
    exact ⟨_, exec_overtemp_die hd hhot, hburnt, hon, htemp, hcode, hevent, hruns⟩
  case hubHot =>
    intro s d temp hs hd hhot
    subst hd
    obtain ⟨hcode, hevent, hpwr, -⟩ := State.overheated_reads (s := s) (d := 2) (temp := temp)
    exact ⟨_, exec_overtemp_hub hhot, hcode, hevent, hpwr⟩
  case stackHot =>
    intro s hot
    exact ⟨_, rfl, rfl, rfl⟩

end Sys2Proof.Machine
end
